-- ==== Sys2Proof/Word.lean ====
section
/-!
DEFINITION. Word.lean: octets, and sparse tables of numbered things.
-/
namespace Sys2Proof

/-- An octet. -/
abbrev Byte := BitVec 8

/-- A sparse table: pairs of a number and what stands there, numbers rising. A number that is not listed stands for the table's
reset value, which the reader of the table names. -/
abbrev Tbl (α : Type) := List (Nat × α)

end Sys2Proof
end

