-- ==== Sys2Proof/Machine/Tables.lean ====
section
/-!
DEFINITION. Machine/Tables.lean: sparse tables, saturating counts, bit fields, octet strings and byte memories. Everything the
meanings use to read and write numbered things stands here.
-/
namespace Sys2Proof

/-- What a table holds at `k`; `d` where nothing is listed. -/
def Tbl.get {α : Type} : Tbl α → Nat → α → α
  | [], _, d => d
  | (j, a) :: t, k, d => if j = k then a else Tbl.get t k d

/-- The table with `a` at `k`, numbers kept rising. -/
def Tbl.set {α : Type} : Tbl α → Nat → α → Tbl α
  | [], k, a => [(k, a)]
  | (j, b) :: t, k, a => if k < j then (k, a) :: (j, b) :: t else if j = k then (k, a) :: t else (j, b) :: Tbl.set t k a

/-- The table with nothing listed at `k`. -/
def Tbl.del {α : Type} (t : Tbl α) (k : Nat) : Tbl α := t.filter fun p => p.1 ≠ k

/-- Something is listed at `k`. -/
def Tbl.has {α : Type} (t : Tbl α) (k : Nat) : Bool := t.any fun p => p.1 == k

/-- The table with what stands at `k` (`d` where nothing is listed) replaced by `f` of it. -/
def Tbl.mod {α : Type} (t : Tbl α) (k : Nat) (d : α) (f : α → α) : Tbl α := t.set k (f (t.get k d))

/-- `x + n`, held at the largest value of `w` bits. -/
def satAdd (w x n : Nat) : Nat := min (x + n) (2 ^ w - 1)

/-- A 64-bit saturating counter of a page raised by `n` (R91). -/
def bump (t : Tbl Nat) (i : Nat) (n : Nat := 1) : Tbl Nat := t.set i (satAdd 64 (t.get i 0) n)

/-- Element `i` of a list replaced by `f` of it. -/
def lmod {α : Type} (l : List α) (i : Nat) (f : α → α) : List α :=
  match l, i with
  | [], _ => []
  | a :: t, 0 => f a :: t
  | a :: t, i + 1 => a :: lmod t i f

/-- Bits `hi` to `lo` of a number. -/
def fld (v : Nat) (hi lo : Nat) : Nat := v / 2 ^ lo % 2 ^ (hi - lo + 1)

/-- Bits `hi` to `lo` of a register value (R10). -/
def bits {w : Nat} (v : BitVec w) (hi lo : Nat) : Nat := fld v.toNat hi lo

/-- Bit `i` of a register value. -/
def bitOf {w : Nat} (v : BitVec w) (i : Nat) : Bool := v.getLsbD i

/-- 1 for true. -/
def b2n (b : Bool) : Nat := if b then 1 else 0

/-- `v` with bit `i` set to `b`. -/
def setBit {w : Nat} (v : BitVec w) (i : Nat) (b : Bool) : BitVec w :=
  if b then v ||| BitVec.ofNat w (2 ^ i) else v &&& ~~~ BitVec.ofNat w (2 ^ i)

/-- The numbers of the bits set in a mask. -/
def maskList {w : Nat} (v : BitVec w) : List Nat := (List.range w).filter fun i => v.getLsbD i

/-- The mask of a list of bit numbers. -/
def listMask (w : Nat) (l : List Nat) : BitVec w := l.foldl (fun m i => setBit m i true) 0

/-- The low `n` octets of a number, least significant first (R10). -/
def leBytes : Nat → Nat → List Byte
  | 0, _ => []
  | n + 1, v => BitVec.ofNat 8 v :: leBytes n (v / 256)

/-- The low `n` octets of a number in network order (R11). -/
def beBytes (n v : Nat) : List Byte := (leBytes n v).reverse

/-- The number that octets spell, least significant first. -/
def leNat : List Byte → Nat
  | [] => 0
  | b :: t => b.toNat + 256 * leNat t

/-- The number that octets spell in network order. -/
def beNat (l : List Byte) : Nat := l.foldl (fun a b => a * 256 + b.toNat) 0

/-- The octets from `i` on, `n` of them. -/
def slice {α : Type} (l : List α) (i n : Nat) : List α := (l.drop i).take n

/-- The field of `n` octets at octet `i` of a frame, in network order. -/
def beAt (l : List Byte) (i n : Nat) : Nat := beNat (slice l i n)

/-- Octets replaced from an offset on. -/
def putAt (f : List Byte) (i : Nat) (x : List Byte) : List Byte := f.take i ++ x ++ f.drop (i + x.length)

/-- A quotient rounded to the nearest whole number, halves upward. -/
def roundDiv (a b : Nat) : Nat := (2 * a + b) / (2 * b)

/-- A quotient rounded to the nearest whole number, halves away from zero. -/
def roundInt (a : Int) (b : Nat) : Int := if a < 0 then - (roundDiv a.natAbs b : Nat) else (roundDiv a.natAbs b : Nat)

/-- A square root rounded down, of which `r` is known and `k` bits remain to be found. -/
def isqrtBits (n r : Nat) : Nat → Nat
  | 0 => r
  | k + 1 => isqrtBits n (if (r + 2 ^ k) * (r + 2 ^ k) ≤ n then r + 2 ^ k else r) k

/-- The square root of a number below 2^96, rounded down. -/
def isqrt (n : Nat) : Nat := isqrtBits n 0 48

/-- A signed number held within `w` bits by saturation; with it, whether it had to be held. -/
def satInt (w : Nat) (x : Int) : Int × Bool :=
  if x > 2 ^ (w - 1) - 1 then (2 ^ (w - 1) - 1, true) else if x < - 2 ^ (w - 1) then (- 2 ^ (w - 1), true) else (x, false)

/-- A number taken as two's complement of `w` bits. -/
def signed (w v : Nat) : Int := if v % 2 ^ w < 2 ^ (w - 1) then (v % 2 ^ w : Nat) else (v % 2 ^ w : Nat) - 2 ^ w

/-- Two's complement of `w` bits of a signed number. -/
def unsigned (w : Nat) (x : Int) : Nat := (x % 2 ^ w).toNat

/-- The distance from `b` up to `a`, modulo 2^w. -/
def modSub (w a b : Nat) : Nat := (a % 2 ^ w + 2 ^ w - b % 2 ^ w) % 2 ^ w

/-- A byte memory: cells with addresses rising, none zero; an unlisted address reads 0 (R180). -/
abbrev Memory := List Host.Cell

/-- The byte at an address. -/
def Memory.read1 : Memory → Nat → Byte
  | [], _ => 0
  | (a, b) :: t, k => if a = k then b else Memory.read1 t k

/-- The memory with a byte written; writing 0 removes the cell. -/
def Memory.write1 : Memory → Nat → Byte → Memory
  | [], k, v => if v = 0 then [] else [(k, v)]
  | (a, b) :: t, k, v =>
    if k < a then (if v = 0 then (a, b) :: t else (k, v) :: (a, b) :: t)
    else if a = k then (if v = 0 then t else (k, v) :: t)
    else (a, b) :: Memory.write1 t k v

/-- Octets written from an address on. -/
def Memory.write (m : Memory) (k : Nat) : List Byte → Memory
  | [] => m
  | b :: t => Memory.write (m.write1 k b) (k + 1) t

/-- `n` octets from an address on. -/
def Memory.read (m : Memory) (k n : Nat) : List Byte := (List.range n).map fun i => m.read1 (k + i)

/-- Every octet of an address range set to 0. -/
def Memory.clear (m : Memory) (k n : Nat) : Memory := m.filter fun c => c.1 < k ∨ k + n ≤ c.1

/-- The canonical form: addresses rising, no cell equal to what an unlisted address reads as. -/
def Memory.wf : Memory → Bool
  | [] => true
  | [(_, b)] => b ≠ 0
  | (a, b) :: (c, d) :: t => b ≠ 0 && decide (a < c) && Memory.wf ((c, d) :: t)

end Sys2Proof
end

