-- ==== Sys2Proof/Machine/Parts.lean ====
section
/-!
DEFINITION. Machine/Parts.lean: the pieces of the machine's state, chapter by chapter of spec/, as plain data. Each field's
docstring names the register field and the rule of spec/ that gives it; each default is the value at reset.
-/
namespace Sys2Proof.Machine
open Sys2Proof

/-- Blocks with a fault set, in the order of their IDs 1 to 22 (R366). -/
inductive BlockId where
  | prt | byp | stb | swc | sce | inx | psc | egf | cgu | ocu | mlk | tbu | acq | bki | mgp | ksu | evr | lck | pmc | dmc | pci | arb
deriving DecidableEq, Repr

/-- The owner of an operation: nobody, an instance with the generation it had, or the MGP (R177). -/
inductive Master where
  | none | inst (i : Nat) (gen : Nat) | mgp
deriving DecidableEq, Repr

/-- STATE of a stream or forwarding entry (R112, R117), in the order of its codes. -/
inductive EntState where
  | free | active | draining | quarantine
deriving DecidableEq, Repr

/-- What one change of a shadow batch does (R123). -/
inductive StbOp where
  | putStream | putFwd | putBitmap | remove | move | putMir
deriving DecidableEq, Repr

/-- What an input position of a context's history holds (R144). -/
inductive PosKind where
  | real | held | restart
deriving DecidableEq, Repr

/-- STATE of an instance (R206), in the order of its codes 0 to 5. -/
inductive InstState where
  | free | ready | running | halted | resetting | quarantine
deriving DecidableEq, Repr

/-- ROLE of CGU_STAT (R276). -/
inductive Role where
  | out | standby | taking | active | alone
deriving DecidableEq, Repr

/-- The partner as the mirror link sees it (R272). -/
inductive PartnerSt where
  | awaited | present | lost
deriving DecidableEq, Repr

/-- The seasons, in the order of their codes (R362). -/
inductive SeasonKind where
  | summer | autumn | spring | winter
deriving DecidableEq, Repr

/-- STATUS of a response (R453). Reason codes, check numbers and counts that the table puts into result octets are arguments. -/
inductive Status where
  | ok | accepted (handle : Nat) | okReplaced
  | badCrc | badOpcode | badLength | badParam (offset : Nat) | notPermitted | staleGen | noInstance (ms : Nat) | tagReused
  | busy | noResource (pool : Nat) (free : Nat) | admission (check : Nat) (item : Nat) | locked | state (reason : Nat)
  | tableCheck (check : Nat) (entry : Nat) | ksuResult (result : Nat)
  | timeout | restarted | dmaError | aborted
deriving DecidableEq, Repr

/-- The rails of R505. -/
inductive Rail where
  | vc (k : Nat) | vf | vsd | vdm | v1m | v3m | vbk | v3a | vaf
deriving DecidableEq, Repr

/-- The clocked islands of R20 but TB, which has a command of its own. -/
inductive Island where
  | pcsA | pcsB | mlk | cu | dmc | bi | pci
deriving DecidableEq, Repr

/-- A page of counters (R91, R461). -/
inductive CntPage where
  | port (k : Nat) | switch | sce | psc (k : Nat) | pmc | tbu | acq | bki | evr | ksu | cgu | ocu | mlk
deriving DecidableEq, Repr

/-- What a reader meets in a word (R53 to R57): what the block that produced it wrote, where the state does not hold those octets, and what
has happened to it since. All zero: a word that is in order. -/
structure WordRead where
  /-- Number of the 16-octet word within its location. -/
  off : Nat := 0
  /-- The 128 bits written, for a location whose octets the state does not hold. -/
  data : BitVec 128 := 0
  /-- Written as poisoned (R57). -/
  poisoned : Bool := false
  /-- Bits of the stored codeword that have changed. -/
  err : BitVec 144 := 0
  /-- What faults of address signals or decoder stages add to each address symbol (R55, R60): the word reached is another one. -/
  addrErr : List Byte := []
deriving DecidableEq, Repr

/-- One access of a core of an instance (R183). -/
structure CoreAcc where
  /-- Guest address. -/
  addr : Nat := 0
  /-- A write. -/
  write : Bool := false
  /-- An instruction fetch. -/
  fetch : Bool := false
  /-- A privileged operation that traps to HS-mode and is no service call (R181). -/
  trap : Bool := false
  /-- Octets written, or as many octets as are read. -/
  octets : List Byte := []
  /-- The access finds its line in a cache of the core (R58). -/
  cached : Bool := false
  /-- What the reader meets in the word (R56). -/
  word : WordRead := {}
  /-- The granule that a translation table reaches instead of the one that the map of R182 gives (R183). -/
  via : Option Nat := none
  /-- The access is an ECALL with this call number, above 3 (R457); calls 0 to 3 have commands of their own. -/
  call : Option Nat := none
deriving DecidableEq, Repr

/-- An image as it is handed over (R423): its octets, its CRC, the SHA-256 hash of the public key it carries, and whether its signature
verifies under that key. -/
structure Image where
  /-- The image. -/
  octets : List Byte := []
  /-- Its CRC checks. -/
  crcOk : Bool := true
  /-- The hash of its public key. -/
  keyHash : BitVec 256 := 0
  /-- Its signature verifies. -/
  sigOk : Bool := true
deriving DecidableEq, Repr


/-- A raised request at an arbiter (R37). -/
structure ArbWait where
  /-- requester index, 5 bits (R36). -/
  idx : Nat := 0
  /-- beats waited since the request was raised (R51). -/
  waited : Nat := 0
  /-- beats of the transfer in progress that were over when the request was raised (R51). -/
  since : Nat := 0
deriving DecidableEq, Repr

/-- One arbiter and its register page (R36, R48). -/
structure Arbiter where
  /-- ARB_CTL MODE, 1 bit: 0 native, 1 compatibility (R49). -/
  mode : Bool := false
  /-- a written MODE that takes effect at the next decision (R46). -/
  modeNext : Option Bool := none
  /-- ARB_PRIO0-3, 4 bits per requester; reset per R36 (Arbiter.reset k) (R52). -/
  prio : List Nat := []
  /-- requesters that are spent since the last refill (R38). -/
  spent : List Nat := []
  /-- requesters whose request is raised, with beats waited (R37). -/
  waiting : List ArbWait := []
  /-- ARB_STAT HOLDER, 5 bits (R50). -/
  holder : Nat := 0
  /-- ARB_STAT BUSY (R50). -/
  busy : Bool := false
  /-- beats of the transfer in progress, at most 16 (R40). -/
  beatsLeft : Nat := 0
  /-- ARB_STAT PARKED (R50). -/
  parked : Bool := false
  /-- ARB_STAT LAST_WINNER, 5 bits (R50). -/
  lastWinner : Nat := 0
  /-- ARB_WAITMAX WAIT_BEATS, 16 bits, saturating, RC (R51). -/
  waitMax : Nat := 0
  /-- ARB_WAITMAX WHO, 5 bits, RC (R51). -/
  waitWho : Nat := 0
  /-- ARB_BACKOFFS COUNT, 32 bits, saturating, RC (R51). -/
  backoffs : Nat := 0
  /-- consecutive back-offs n of each requester, 0 when unlisted (R44). -/
  consec : Tbl Nat := []
  /-- age (ns) at which each running back-off timer ends (R44). -/
  backoffEnd : Tbl Nat := []
  /-- requesters holding a reservation, oldest first (RSV_PEND is its length) (R45). -/
  reserved : List Nat := []
deriving DecidableEq, Repr

/-- An operation whose handshake is outstanding (R30). -/
structure PendingOp where
  /-- the requesting block (R30). -/
  block : BlockId := .prt
  /-- its unit (R30). -/
  unit : Nat := 0
  /-- which operation it is (R30). -/
  tag : Nat := 0
  /-- the operation's owner (R30). -/
  owner : Master := .none
  /-- age (ns) at which request was raised (R30). -/
  started : Nat := 0
  /-- the block has stopped waiting; the handshake is still pending (R30). -/
  released : Bool := false
  /-- completed with an error status (R30). -/
  error : Bool := false
  /-- the core access to DRAM that waits at the crossing of the stopped DMC island (R21). -/
  acc : Option CoreAcc := none
deriving DecidableEq, Repr

/-- Arbiters, outstanding handshakes and the scrubbers. -/
structure Fabric where
  /-- the 37 arbiters by number; an unlisted one is Arbiter.reset k (R36). -/
  arbs : Tbl Arbiter := []
  /-- handshakes that are outstanding (R30). -/
  ops : List PendingOp := []
  /-- operations completed with an error status, the newest of each requester and tag (R30). -/
  failed : List PendingOp := []
  /-- transfer timeout per fault set in us, 10 to 10000; unlisted: 100 (R30). -/
  timeoutUs : Tbl Nat := []
  /-- words absorbed into discard sinks (R30). -/
  discarded : Nat := 0
  /-- value that the last RC_READ or LATCHING_READ returned to its reader (R13). -/
  readOut : Nat := 0
deriving DecidableEq, Repr

/-- A peer-delay message that the TBU sends (R288). -/
structure PdMsg where
  /-- port (R288). -/
  port : Nat := 0
  /-- source address, MAC_BASE + port (R522). -/
  src : Nat := 0
  /-- a Pdelay_Resp; else a Pdelay_Req (R288). -/
  resp : Bool := false
  /-- domainNumber (R288). -/
  domain : Nat := 0
  /-- PTP_PCP (R305). -/
  pcp : Nat := 4
  /-- sent untagged (R305). -/
  untagged : Bool := false
  /-- sequenceId, 16 bits (R278). -/
  seq : Nat := 0
  /-- correctionField before the turnaround time, in 2^-16 ns: that of the request that a Pdelay_Resp answers (R278). -/
  corr : Int := 0
  /-- requestingPortIdentity of a Pdelay_Resp, 80 bits (R278). -/
  asker : Nat := 0
  /-- age (ns) at which the answered Pdelay_Req arrived (R278). -/
  arrived : Nat := 0
deriving DecidableEq, Repr

/-- A frame copy waiting in a transmit queue (R131, R135). -/
structure TxCopy where
  /-- number of the stored frame (R131). -/
  frame : Nat := 0
  /-- traffic class (R80). -/
  cls : Nat := 0
  /-- ageing limit given at classification, in us (R114). -/
  limitUs : Nat := 0
  /-- entry index that classified the copy, 0xFFFF none (R124). -/
  entry : Nat := 65535
  /-- generation of that entry (R124). -/
  gen : Nat := 0
  /-- the copy is a mirror copy (R136). -/
  mirror : Bool := false
  /-- HSR tag and PRP trailer are kept (R136). -/
  keepRed : Bool := false
  /-- the copy is passed along the ring with its tag (R128). -/
  hsrPass : Bool := false
  /-- generated by the segmentation engine (R92). -/
  seg : Bool := false
  /-- a transmit stamp is wanted (R301). -/
  ts : Bool := false
  /-- instance and generation that built the frame (R177). -/
  inst : Option (Nat × Nat) := none
  /-- EG_SEQ of the descriptor (R237). -/
  egSeq : Nat := 0
  /-- HSR or PRP sequence number of an own frame (R127). -/
  redSeq : Option Nat := none
  /-- stamp sequence number of the copy, 32 bits (R301). -/
  tsSeq : Nat := 0
  /-- egress queue of the frame, 0 or 1 (R302). -/
  egq : Nat := 0
  /-- the peer-delay message that the copy is (R288). -/
  pd : Option PdMsg := none
deriving DecidableEq, Repr

/-- What a submitter of a large send is told (R85, R87). -/
structure SendDone where
  /-- submitter instance and generation; none: the MGP (R87). -/
  inst : Option (Nat × Nat) := none
  /-- frames generated, in a completion (R87). -/
  frames : Nat := 0
  /-- refusal: 1 to 5 a check of R186, 6 the template's form, 7 class 6 or 7, 8 a UDP datagram with DF, 9 busy (R85). -/
  refused : Option Nat := none
deriving DecidableEq, Repr

/-- A large send held by the segmentation engine (R85). -/
structure LargeSend where
  /-- submitter instance and generation; none: the MGP (R85). -/
  inst : Option (Nat × Nat) := none
  /-- header template (R85). -/
  template : List Byte := []
  /-- payload of a send of the MGP, which lies in its own memory (R85). -/
  payload : List Byte := []
  /-- guest address of the payload of an instance's send (R85). -/
  addr : Nat := 0
  /-- octets of that payload (R85). -/
  len : Nat := 0
  /-- MSS of a TCP send (R86). -/
  mss : Nat := 0
  /-- PCP of the frames (R85). -/
  pcp : Nat := 0
  /-- VLAN ID of the frames (R85). -/
  vid : Nat := 0
  /-- payload octets already cut into frames (R86). -/
  sent : Nat := 0
  /-- frames generated so far (R87). -/
  made : Nat := 0
deriving DecidableEq, Repr

/-- One network port and its register page (R68, R93). -/
structure Port where
  /-- PORT_CTL FEC, 2 bits; 2 on P0-P5, 0 on P6-P7 (R94). -/
  fec : Nat := 2
  /-- PORT_CTL RATE, 2 bits: 0 25G, 1 10G, 2 1G; 0 on P0-P5, 2 on P6-P7 (R94). -/
  rate : Nat := 0
  /-- PORT_CTL RX_TAG, 2 bits: 0 KEEP, 1 STRIP (R94). -/
  rxTag : Nat := 0
  /-- PORT_CTL UNTAG_PVID; 0 on P0-P5, 1 on P6-P7 (R94). -/
  untagPvid : Bool := false
  /-- PORT_CTL PAUSE_RX; 0 on P0-P5, 1 on P6-P7 (R94). -/
  pauseRx : Bool := false
  /-- PORT_CTL TX_EN (R94). -/
  txEn : Bool := false
  /-- PORT_CTL RX_EN (R94). -/
  rxEn : Bool := false
  /-- PORT_STAT ATTACH, 4 bits; 1 on P6-P7 (R95). -/
  attach : Nat := 0
  /-- PORT_STAT LINK (R95). -/
  link : Bool := false
  /-- PORT_VLAN PVID, 12 bits (R96). -/
  pvid : Nat := 1
  /-- PORT_VLAN DEF_PCP, 3 bits (R96). -/
  defPcp : Nat := 0
  /-- PORT_PCPMAP, class of each PCP, 3 bits each (0x00FA_C688) (R96). -/
  pcpMap : List Nat := [0, 1, 2, 3, 4, 5, 6, 7]
  /-- PORT_MAXFRAME MAX_FRAME, 14 bits (R96). -/
  maxFrame : Nat := 1522
  /-- PORT_STAT PAUSED (R95). -/
  paused : Bool := false
  /-- age (ns) of the pause point of the current pause (R82). -/
  pauseFrom : Nat := 0
  /-- quanta of the current pause, 16 bits (PAUSE_LEFT counts them down) (R82). -/
  pauseQuanta : Nat := 0
  /-- quanta of the current pause already in PAUSE_QUANTA (R83). -/
  pauseCounted : Nat := 0
  /-- pause frames before their pause point, oldest first: its age (ns) and the quanta (R82). -/
  pauseNext : List (Nat × Nat) := []
  /-- age (ns) of the first pause point of the current run (R82). -/
  pauseRunFrom : Option Nat := none
  /-- a run was cut: no pause is honoured until a frame is begun or the queues are empty (R82). -/
  pauseDeaf : Bool := false
  /-- transmit queues 0 to 7, oldest first (R80). -/
  queues : Tbl (List TxCopy) := []
  /-- the frame in transmission (R81). -/
  sending : Option TxCopy := none
  /-- octets of that frame as they leave, without FCS (R77). -/
  wire : List Byte := []
  /-- pending large sends, at most 64, in order of submission (R87). -/
  sends : List LargeSend := []
  /-- completions and refusals of large sends, newest first (R87). -/
  sendDone : List SendDone := []
  /-- live counters by index, 64 bits, saturating (R91). -/
  live : Tbl Nat := []
  /-- snapshot bank by index (R91). -/
  snap : Tbl Nat := []
  /-- the transceiver was switched off for its power (R506). -/
  sfpBad : Bool := false
  /-- a module is in the cage (R70). -/
  sfpPresent : Bool := false
  /-- RATE of the PMD of R68 that the identification of the module in the cage names; none: it names no such PMD (R70). -/
  sfp : Option Nat := none
  /-- RATE that the stamp compensation in use was set for, at the last link up (R284). -/
  compRate : Nat := 0
  /-- FEC that it was set for (R284). -/
  compFec : Nat := 0
  /-- FEC or RATE has changed: no stamp of the port is used before its next link up (R284). -/
  stampsOff : Bool := false
  /-- the port is held out by a fault until its quiet period ends (R372). -/
  holdOut : Bool := false
deriving DecidableEq, Repr

/-- The bypass head interface BYP (R101). -/
structure Head where
  /-- a head answered with its EEPROM (R106). -/
  present : Bool := false
  /-- the loop test has passed (R106). -/
  loopOk : Bool := false
  /-- BYP feeds the coil (R102). -/
  coil : Bool := false
  /-- the sensed position is THROUGH (R101). -/
  through : Bool := false
  /-- age (ns) of the last change of command (R104). -/
  cmdAt : Nat := 0
  /-- forced BYPASS in effect (R105). -/
  forced : Bool := false
  /-- the MGP has allowed the join (R473). -/
  joinAllowed : Bool := false
  /-- age (ns) at which the loop transmitters were enabled (R106). -/
  loopFrom : Option Nat := none
deriving DecidableEq, Repr

/-- A receive ring (R88). -/
structure RxRing where
  /-- address of descriptor 0 (R88). -/
  base : Nat := 0
  /-- descriptors, a power of two, 16 to 4096 (R88). -/
  size : Nat := 16
  /-- next descriptor to use (R90). -/
  next : Nat := 0
  /-- SEQ of the next frame, 16 bits (R90). -/
  seq : Nat := 0
  /-- RX_DROP_NODESC (R90). -/
  dropNoDesc : Nat := 0
  /-- RX_TRUNC (R90). -/
  trunc : Nat := 0
  /-- buffer size given at registration (R460). -/
  bufLen : Nat := 64
deriving DecidableEq, Repr

/-- A frame copy on its way to a receive ring or consumer (R131). -/
structure Deliver where
  /-- number of the stored frame (R131). -/
  frame : Nat := 0
  /-- entry index (R89). -/
  entry : Nat := 65535
  /-- entry generation (R89). -/
  gen : Nat := 0
  /-- instance, for an instance ring (R116). -/
  inst : Nat := 0
  /-- generation current when the copy was made (R177). -/
  instGen : Nat := 0
  /-- host ring, for a host ring (R116). -/
  host : Nat := 0
deriving DecidableEq, Repr

/-- The P6 wake detector in AON storage (R97). -/
structure Wake where
  /-- wake pattern, 16 octets (R99). -/
  pattern : Option (List Byte) := none
  /-- the pattern taken at the last WINTER entry (R99). -/
  active : Option (List Byte) := none
  /-- WAKE_MATCHES, 16 bits, saturating (R100). -/
  matched : Nat := 0
  /-- WAKE_OTHER, 16 bits, saturating (R100). -/
  other : Nat := 0
deriving DecidableEq, Repr

/-- A stream entry (R112). -/
structure StreamEntry where
  /-- KEY (R109). -/
  key : BitVec 128 := 0
  /-- GEN, 16 bits (R112). -/
  gen : Nat := 0
  /-- STATE, 2 bits (R112). -/
  state : EntState := .free
  /-- STATIC (R112). -/
  static : Bool := false
  /-- LEARNED (R112). -/
  learned : Bool := false
  /-- ACTION: FWD, SUB, MIR, DROP (R112). -/
  action : BitVec 4 := 0
  /-- CLASS, 3 bits (R112). -/
  cls : Nat := 0
  /-- AGE_CODE, 4 bits (R112). -/
  ageCode : Nat := 0
  /-- IDLE (R112). -/
  idle : Bool := false
  /-- an idle event has been raised and the firmware has not acted on it (R115). -/
  idleDue : Bool := false
  /-- IDLE_LIMIT, 8 bits (R112). -/
  idleLimit : Nat := 0
  /-- INGRESS_MASK (R112). -/
  ingress : BitVec 8 := 0
  /-- PORT_MASK (R112). -/
  ports : BitVec 8 := 0
  /-- SUB_REF, 12 bits (R112). -/
  subRef : Nat := 0
  /-- MIR_SESSION, 2 bits (R112). -/
  mirSession : Nat := 0
  /-- RATE, 16 bits (R112). -/
  rate : Nat := 0
  /-- IDLE_COUNT, 16 bits, saturating (R112). -/
  idleCount : Nat := 0
  /-- WRONG_PORT, 16 bits, saturating (R112). -/
  wrongPort : Nat := 0
  /-- REFCNT_CUR, 20 bits (R112). -/
  refCur : Nat := 0
  /-- REFCNT_PREV, 20 bits (R112). -/
  refPrev : Nat := 0
  /-- MATCH_FRAMES, 64 bits, saturating (R112). -/
  matchFrames : Nat := 0
  /-- MATCH_OCTETS, 64 bits, saturating (R112). -/
  matchOctets : Nat := 0
  /-- age (ns) at which the hold-off ends (R125). -/
  quarEnd : Nat := 0
  /-- the stored entry is uncorrectable and waits for the MGP to restore it (R58). -/
  invalid : Bool := false
  /-- MATCH_OCTETS at the last rate check (R122). -/
  lastOctets : Nat := 0
  /-- bitmap that copies of the previous generation were made under (R124). -/
  prevRef : Nat := 0
  /-- mirror session that copies of the previous generation were made under (R124). -/
  prevMir : Option Nat := none
deriving DecidableEq, Repr

/-- A forwarding entry (R117). -/
structure FwdEntry where
  /-- KEY: MAC address and VID (R117). -/
  key : BitVec 128 := 0
  /-- GEN, 16 bits (R117). -/
  gen : Nat := 0
  /-- STATE, 2 bits (R117). -/
  state : EntState := .free
  /-- STATIC (R117). -/
  static : Bool := false
  /-- LEARNED (R117). -/
  learned : Bool := false
  /-- DROP_DST (R117). -/
  dropDst : Bool := false
  /-- DROP_SRC (R117). -/
  dropSrc : Bool := false
  /-- TARGET_TYPE, 2 bits: none, MGP, host ring, instance (R117). -/
  targetType : Nat := 0
  /-- TARGET, 9 bits (R117). -/
  target : Nat := 0
  /-- PORT_MASK (R117). -/
  ports : BitVec 8 := 0
  /-- SRC_PORTS (R117). -/
  srcPorts : BitVec 8 := 0
  /-- IDLE_COUNT, 16 bits, saturating (R117). -/
  idleCount : Nat := 0
  /-- MOVES, 16 bits, saturating (R117). -/
  moves : Nat := 0
  /-- REFCNT_CUR, 20 bits (R117). -/
  refCur : Nat := 0
  /-- REFCNT_PREV, 20 bits (R117). -/
  refPrev : Nat := 0
  /-- DUP_LAST (R117). -/
  dupLast : BitVec 16 := 0
  /-- SEEN_A (R117). -/
  seenA : BitVec 64 := 0
  /-- SEEN_B (R117). -/
  seenB : BitVec 64 := 0
  /-- the stored entry is uncorrectable and waits for the MGP to restore it (R58). -/
  invalid : Bool := false
  /-- age (ns) at which the hold-off ends (R125). -/
  quarEnd : Nat := 0
deriving DecidableEq, Repr

/-- A subscriber bitmap (R116). -/
structure SubBitmap where
  /-- HOST_RING, 4 bits (R116). -/
  hostRing : Nat := 0
  /-- HOST (R116). -/
  host : Bool := false
  /-- MGP (R116). -/
  mgp : Bool := false
  /-- ACQ (R116). -/
  acq : Bool := false
  /-- SCE (R116). -/
  sce : Bool := false
  /-- INST (R116). -/
  inst : BitVec 512 := 0
deriving DecidableEq, Repr

/-- A pending key of the learn cache (R121). -/
structure LearnRec where
  /-- record ID, 16 bits (R451). -/
  id : Nat := 0
  /-- arrival stamp (TB ns) of the first frame (R451). -/
  stampAt : Nat := 0
  /-- step epoch of the first arrival (R451). -/
  epoch : Nat := 0
  /-- the stream key (R121). -/
  key : BitVec 128 := 0
  /-- ingress ports seen (R121). -/
  ports : BitVec 8 := 0
  /-- arrival (age, ns) of the first frame (R121). -/
  firstAt : Nat := 0
  /-- frames counted (R121). -/
  frames : Nat := 0
  /-- octets counted (R121). -/
  octets : Nat := 0
  /-- age (ns) of its learn event (R121). -/
  eventAt : Option Nat := none
  /-- frames counted in the first 100 ms (R121). -/
  evFrames : Nat := 0
  /-- octets counted in the first 100 ms (R121). -/
  evOctets : Nat := 0
deriving DecidableEq, Repr

/-- The learn policy of a port (R122). -/
structure LearnPolicyRec where
  /-- 0 HOST (reset), 1 FORWARD, 2 DENY (R122). -/
  kind : Nat := 0
  /-- PORT_MASK of a FORWARD admission (R122). -/
  ports : BitVec 8 := 0
deriving DecidableEq, Repr

/-- MIR_CTLm (R138). -/
structure MirSession where
  /-- CLASS, 3 bits (R138). -/
  cls : Nat := 1
  /-- KEEP_RED (R138). -/
  keepRed : Bool := false
  /-- SRC_TX (R138). -/
  srcTx : BitVec 8 := 0
  /-- SRC_RX (R138). -/
  srcRx : BitVec 8 := 0
  /-- DEST, 4 bits, 0 to 7 (R138). -/
  dest : Nat := 7
  /-- EN (R138). -/
  en : Bool := false
deriving DecidableEq, Repr

/-- A frame stored in the switch buffer (R131, R133). -/
structure Stored where
  /-- destination address to last stored octet, without FCS (R131). -/
  octets : List Byte := []
  /-- VLAN ID (R76). -/
  vid : Nat := 0
  /-- PCP (R76). -/
  pcp : Nat := 0
  /-- DEI (R76). -/
  dei : Bool := false
  /-- the stored octets hold a VLAN tag (R77). -/
  tagged : Bool := false
  /-- the tag was stripped on reception (R89). -/
  stripped : Bool := false
  /-- the HSR tag as received (4 octets after 0x892F and LSDU fields) (R128). -/
  hsr : Option (BitVec 48) := none
  /-- the PRP redundancy control trailer as received (R130). -/
  rct : Option (BitVec 48) := none
  /-- ingress port; none for a frame built inside (R134). -/
  port : Option Nat := none
  /-- frame length as received (R89). -/
  rxLen : Nat := 0
  /-- arrival TB stamp in ns (R74). -/
  stamp : Nat := 0
  /-- its fraction, 16 bits (R89). -/
  frac : Nat := 0
  /-- step epoch at arrival (R89). -/
  epoch : Nat := 0
  /-- age counter at arrival in ns (R135). -/
  age : Nat := 0
  /-- the frame's class in the push-out decision (R133). -/
  cls : Nat := 0
  /-- cells occupied (R133). -/
  cells : Nat := 0
  /-- copies not yet completed (R133). -/
  copies : Nat := 0
  /-- copies held by a non-port consumer (R134). -/
  nonPort : Nat := 0
  /-- instance and generation charged with the cells (R189). -/
  owner : Option (Nat × Nat) := none
  /-- the end-to-end CRC-32 over the stored octets still holds (R78). -/
  crcOk : Bool := true
deriving DecidableEq, Repr

/-- One change of a shadow batch (R123). -/
structure StbChange where
  /-- entry index (stream, forwarding) or bitmap number (R123). -/
  idx : Nat := 0
  /-- index an entry is moved to (R123). -/
  dest : Nat := 0
  /-- what the change does (R123). -/
  op : StbOp := .remove
  /-- entry of a stream write (R123). -/
  stream : StreamEntry := {}
  /-- entry of a forwarding write (R123). -/
  fwd : FwdEntry := {}
  /-- bitmap of a bitmap write (R123). -/
  bitmap : SubBitmap := {}
  /-- settings of a mirror session, written once no copy needs the old ones (R124). -/
  mir : MirSession := {}
deriving DecidableEq, Repr

/-- A node of the MGP's HSR or PRP node table (R127). -/
structure Node where
  /-- source address (R127). -/
  mac : BitVec 48 := 0
  /-- age (ns) of its last supervision frame (R127). -/
  lastSeen : Nat := 0
deriving DecidableEq, Repr

/-- The STB and the SWC (R108, R131). -/
structure Switch where
  /-- SWC_CTL LEARN_EN (R138). -/
  learnEn : Bool := true
  /-- SWC_CTL PRP_EN (R138). -/
  prpEn : Bool := false
  /-- SWC_CTL HSR_EN (R138). -/
  hsrEn : Bool := false
  /-- SWC_POOL FREE_CELLS, 17 bits (R138). -/
  freeCells : Nat := 98304
  /-- HOLDOFF_MS, 22 bits (R138). -/
  holdoffMs : Nat := 1000
  /-- FWD_IDLE_S, 13 bits (R138). -/
  fwdIdleS : Nat := 300
  /-- CLS_AGE0-7 AGE_US, 17 bits each (R138). -/
  clsAge : List Nat := [100000, 100000, 100000, 100000, 20000, 10000, 4000, 2000]
  /-- PORT_FWDk LEARN_EN (R138). -/
  portLearn : List Bool := [true, true, true, true, true, true, true, true]
  /-- PORT_FWDk FLOOD_MASK (R138). -/
  flood : List (BitVec 8) := [0, 0, 0, 0, 0, 0, 0, 0]
  /-- MIR_CTL0-3 (R138). -/
  mir : List MirSession := [{}, {}, {}, {}]
  /-- the 16,384 stream entries; an unlisted one is FREE and zero (R112). -/
  streams : Tbl StreamEntry := []
  /-- the 8,192 forwarding entries by index 0x4000 up; an unlisted one is FREE and zero (R117). -/
  fwd : Tbl FwdEntry := []
  /-- subscriber bitmaps 1 to 4,095 (R116). -/
  bitmaps : Tbl SubBitmap := []
  /-- learn cache, at most 64 pending keys (R121). -/
  learn : List LearnRec := []
  /-- next learn record ID (model's own) (R451). -/
  learnNext : Nat := 1
  /-- learn policy per ingress port (R122). -/
  policy : Tbl LearnPolicyRec := []
  /-- hash seed drawn at start (free value) (R111). -/
  seed : Nat := 0
  /-- frames stored in the buffer by number (R131). -/
  store : Tbl Stored := []
  /-- number of the next stored frame (model's own) (R131). -/
  nextFrame : Nat := 0
  /-- SCE input queue, at most 1,024 (R143). -/
  sceQ : List Deliver := []
  /-- copies for host rings (R131). -/
  hostQ : List Deliver := []
  /-- copies for instance rings (R131). -/
  instQ : List Deliver := []
  /-- the shadow batch built by STB_PUT, at most 256 (R123). -/
  batch : List StbChange := []
  /-- committed changes not yet applied, in list order (R123). -/
  applying : List StbChange := []
  /-- handle of the commit being applied (R123). -/
  applyOp : Option Nat := none
  /-- node table (R127). -/
  nodes : List Node := []
  /-- age (ns) of the last idle tick (R115). -/
  idleAt : Nat := 0
  /-- age (ns) of the last rate check (R122). -/
  rateAt : Nat := 0
  /-- age (ns) of the last supervision frames (R127). -/
  superAt : Nat := 0
  /-- HSR sequence counter, 16 bits (R127). -/
  hsrSeq : Nat := 0
  /-- PRP sequence counter, 16 bits (R127). -/
  prpSeq : Nat := 0
  /-- live counters by index, 64 bits, saturating (R139). -/
  live : Tbl Nat := []
  /-- snapshot bank (R139). -/
  snap : Tbl Nat := []
deriving DecidableEq, Repr

/-- A subscriber entry of a group (R169). -/
structure Subscr where
  /-- VALID (R169). -/
  valid : Bool := false
  /-- instance, 9 bits (R169). -/
  inst : Nat := 0
  /-- generation, 16 bits (R169). -/
  gen : Nat := 0
  /-- sample ring 0 to 3 (R169). -/
  ring : Nat := 0
  /-- the subscription waits for its instance to register the ring it names (R193). -/
  wait : Bool := false
deriving DecidableEq, Repr

/-- A group descriptor (R169). -/
structure Group where
  /-- ENTRY, 16 bits (R169). -/
  entry : Nat := 0
  /-- EN (R169). -/
  en : Bool := false
  /-- ACQ_EN (R169). -/
  acqEn : Bool := false
  /-- CHK_CONFREV (R169). -/
  chkConfRev : Bool := false
  /-- PRESET, 3 bits (R169). -/
  preset : Nat := 0
  /-- PEND_PRESET, 3 bits (R169). -/
  pendPreset : Nat := 0
  /-- PEND (R169). -/
  pend : Bool := false
  /-- RATE, 3 bits (R169). -/
  rate : Nat := 3
  /-- NCH, 5 bits (R169). -/
  nch : Nat := 0
  /-- FIRST_CTX, 12 bits (R169). -/
  firstCtx : Nat := 0
  /-- SMP_WRAP, 17 bits (R141). -/
  smpWrap : Nat := 14400
  /-- DEC_PHASE, 4 bits (R169). -/
  decPhase : Nat := 0
  /-- GAP_FILL, 4 bits (R169). -/
  gapFill : Nat := 2
  /-- GAP_TIME in ms, 10 bits (R169). -/
  gapTime : Nat := 10
  /-- NASDU, 5 bits (R169). -/
  nasdu : Nat := 1
  /-- CONF_REV, 32 bits (R169). -/
  confRev : Nat := 0
  /-- SUB0-7 (R169). -/
  subs : List Subscr := [{}, {}, {}, {}, {}, {}, {}, {}]
  /-- SEQ, 32 bits (R169). -/
  seq : Nat := 0
  /-- EXT, 32 bits (R169). -/
  ext : Nat := 0
  /-- LAST_SMPCNT, 16 bits (R169). -/
  lastSmp : Nat := 0
  /-- LAST_SYNCH, 2 bits (R169). -/
  lastSynch : Nat := 0
  /-- an ASDU has been accepted since the group started (R142). -/
  synchKnown : Bool := false
  /-- STATE: 0 idle, 1 running, 2 stale (R169). -/
  state : Nat := 0
  /-- age (ns) at the last accepted ASDU (LAST_ARR reads it in us modulo 2^32) (R169). -/
  lastArr : Nat := 0
  /-- input positions since a preset change, counting down taps-1 (R156). -/
  settle : Nat := 0
  /-- the next set is the first under a new preset (R162). -/
  presetChanged : Bool := false
deriving DecidableEq, Repr

/-- One threshold of a context (R157, R170). -/
structure Thr where
  /-- LEVEL, signed 32 bits (R170). -/
  level : Int := 0
  /-- HYST, 32 bits (R170). -/
  hyst : Nat := 0
  /-- MODE, 2 bits (R170). -/
  mode : Nat := 0
  /-- MIN_DUR, 8 bits (R170). -/
  minDur : Nat := 1
  /-- DEST, 2 bits (R170). -/
  dest : Nat := 0
  /-- ACTIVE (R170). -/
  active : Bool := false
  /-- RUN, 8 bits (R170). -/
  run : Nat := 0
  /-- source smpCnt of the first beyond output of the run (R160). -/
  onset : Nat := 0
deriving DecidableEq, Repr

/-- A context record (R170). -/
structure Ctx where
  /-- CHAN_POS, 6 bits (R170). -/
  chanPos : Nat := 0
  /-- DCB_CORNER, 3 bits (R170). -/
  corner : Nat := 0
  /-- FREEZE (R170). -/
  freeze : Bool := false
  /-- FREEZE_AUTO, 2 bits (R170). -/
  freezeAuto : Nat := 0
  /-- HIST_CLASS, 3 bits (R170). -/
  histClass : Nat := 0
  /-- FROZEN (R170). -/
  frozen : Bool := false
  /-- T0 (R170). -/
  t0 : Thr := {}
  /-- T1 (R170). -/
  t1 : Thr := {}
  /-- DC_EST, signed 48 bits with 16 fractional (R170). -/
  dcEst : Int := 0
  /-- DC_K, 32 bits (R170). -/
  dcK : Nat := 0
  /-- HIST_BASE, 19 bits (R170). -/
  histBase : Nat := 0
  /-- TRACK, sixteen 16-bit condition counters: 0 not met, else positions since it last was, the newest 1 (R170). -/
  track : List Nat := []
  /-- history in the pool after DC blocking, newest first (R168). -/
  hist : List Int := []
  /-- Derived [13] of the newest input (R153). -/
  derived : Bool := false
  /-- last input value, which a held position repeats (R144). -/
  lastIn : Int := 0
  /-- the context holds an uncorrectable word until restored (R58). -/
  bad : Bool := false
deriving DecidableEq, Repr

/-- A sample ring or event ring of an instance (R161). -/
structure SampleRing where
  /-- guest address of slot 0 (R161). -/
  addr : Nat := 0
  /-- SLOTS, a power of two, 16 to 4,096 (R161). -/
  slots : Nat := 16
  /-- SLOT_WORDS, 2 to 9 (1 for the event ring) (R161). -/
  words : Nat := 2
  /-- guest address of the ring control block (R161). -/
  ctl : Nat := 0
  /-- WR_SEQ, 32 bits (R161). -/
  wrSeq : Nat := 0
deriving DecidableEq, Repr

/-- A batch for a group, converted from a settings file and not yet applied (R489). -/
structure GroupBatch where
  /-- group number (R489). -/
  group : Nat := 0
  /-- descriptor fields (R489). -/
  desc : Group := {}
  /-- context records (R489). -/
  ctxs : List Ctx := []
deriving DecidableEq, Repr

/-- The sample conditioning engine. -/
structure Sce where
  /-- SCE_CTL EN (R172). -/
  en : Bool := false
  /-- SCE_STAT INQ_HWM, 11 bits, RC (R172). -/
  inqHwm : Nat := 0
  /-- 1,024 groups; an unlisted one is at reset (R140). -/
  groups : Tbl Group := []
  /-- 4,096 contexts; an unlisted one is at reset (R140). -/
  ctxs : Tbl Ctx := []
  /-- rings by 5 x instance + ring (4: the event ring) (R161). -/
  rings : Tbl SampleRing := []
  /-- imported batches that a GROUP_SET applies (R489). -/
  batches : List GroupBatch := []
  /-- age (ns) of the last 1 ms stale check (R145). -/
  lastCheck : Nat := 0
  /-- live counters, 64 bits, saturating (R173). -/
  live : Tbl Nat := []
  /-- snapshot bank (R173). -/
  snap : Tbl Nat := []
deriving DecidableEq, Repr

/-- An allowance entry (R188). -/
structure Allow where
  /-- IDHASH (R188). -/
  idHash : BitVec 32 := 0
  /-- APPID, 16 bits (R188). -/
  appid : Nat := 0
  /-- ETYPE, 16 bits (R188). -/
  etype : Nat := 0
  /-- VID, 12 bits (R188). -/
  vid : Nat := 0
  /-- PCP_MAX, 3 bits (R188). -/
  pcpMax : Nat := 0
  /-- VALID (R188). -/
  valid : Bool := false
deriving DecidableEq, Repr

/-- The shares of an instance (R178); a USE field of each kind but SH_RX is counted beside it. -/
structure Shares where
  /-- SH_SLOTS, 7 bits (R206). -/
  slots : Nat := 0
  /-- SH_LS, 10 bits (R206). -/
  ls : Nat := 0
  /-- SH_DRAM, 11 bits (R206). -/
  dram : Nat := 0
  /-- SH_CTX, 9 bits (R206). -/
  ctx : Nat := 0
  /-- SH_SUBS, 7 bits (R206). -/
  subs : Nat := 0
  /-- SH_EGRESS, 11 bits (R206). -/
  egress : Nat := 0
  /-- SH_RX, 13 bits (R206). -/
  rx : Nat := 0
  /-- SH_KEYS, 5 bits (R206). -/
  keys : Nat := 0
  /-- SH_MIR, 7 bits (R206). -/
  mir : Nat := 0
  /-- SH_LOCKS, 5 bits (R206). -/
  locks : Nat := 0
deriving DecidableEq, Repr

/-- An instance descriptor (R206) and what the instance holds. -/
structure Inst where
  /-- STATE, 3 bits (R206). -/
  state : InstState := .free
  /-- GEN, 16 bits (R175). -/
  gen : Nat := 0
  /-- HALT_CAUSE, 4 bits (R206). -/
  cause : Nat := 0
  /-- OVER (R206). -/
  overBits : BitVec 9 := 0
  /-- SRC_MAC (R206). -/
  mac : BitVec 48 := 0
  /-- shares (R206). -/
  share : Shares := {}
  /-- local-store granules in guest order (USE_LS is their number) (R182). -/
  lsMap : List Nat := []
  /-- DRAM granules in guest order (USE_DRAM is their number) (R182). -/
  dramMap : List Nat := []
  /-- USE_EGRESS, 11 bits (R206). -/
  useEgress : Nat := 0
  /-- USE_MIR, 7 bits (R206). -/
  useMir : Nat := 0
  /-- SPOOF_DROPS, 32 bits, saturating (R206). -/
  spoofDrops : Nat := 0
  /-- LATE_DISCARDS, 32 bits, saturating (R206). -/
  lateDiscards : Nat := 0
  /-- RX_DROPS, 32 bits, saturating (R206). -/
  rxDrops : Nat := 0
  /-- NOCREDIT, 32 bits, saturating (R206). -/
  noCredit : Nat := 0
  /-- RESETS, 16 bits, saturating (R206). -/
  resets : Nat := 0
  /-- AUTO_RESET (R206). -/
  autoReset : Bool := true
  /-- age (ns) at the end of the hold-off (QUAR_END reads it in ms) (R206). -/
  quarEnd : Nat := 0
  /-- allowance list (R188). -/
  allow : List Allow := [{}, {}, {}, {}, {}, {}, {}, {}]
  /-- the image loaded at guest address 0 (R179). -/
  image : List Byte := []
  /-- the RESETTING in progress is a removal (R196). -/
  removing : Bool := false
  /-- a removal request held during a reset, with its long-operation handle (R196). -/
  removeHeld : Option (Option Nat) := none
  /-- CLEAR_DRAM of the reset in progress (R193). -/
  clearDram : Bool := false
  /-- long operation that waits for this instance (R445). -/
  opHandle : Option Nat := none
  /-- ages (ns) of automatic resets in the last 3,600 s (R185). -/
  resetTimes : List Nat := []
  /-- age (ns) at which it became RUNNING (R260). -/
  runningAt : Option Nat := none
  /-- age (ns) at which the instance became HALTED (R185). -/
  haltAt : Nat := 0
  /-- the automatic resets are exhausted for the halt in force (R185). -/
  exhausted : Bool := false
  /-- k of the current 1 ms receive window (R190). -/
  rxWindow : Nat := 0
  /-- frames delivered in that window (R190). -/
  rxUsed : Nat := 0
  /-- SH_RX as it stood when that window began (R192). -/
  rxLimit : Nat := 0
  /-- the instance's receive ring (R88). -/
  rxRing : Option RxRing := none
  /-- what its last service call or lock access returned to its core: a0 and a1, or the word read (R457). -/
  ret : List Nat := []
deriving DecidableEq, Repr

/-- A hardware lock (R205). -/
structure Lock where
  /-- EN (R205). -/
  en : Bool := false
  /-- MGP_OK (R205). -/
  mgpOk : Bool := false
  /-- OWNER, 9 bits (R205). -/
  owner : Nat := 0
  /-- INDEX, 4 bits (R205). -/
  index : Nat := 0
  /-- HELD (R205). -/
  held : Bool := false
  /-- BROKEN (R205). -/
  broken : Bool := false
  /-- BY_MGP (R205). -/
  byMgp : Bool := false
  /-- HOLDER, 9 bits (R205). -/
  holder : Nat := 0
  /-- HOLDER_GEN, 16 bits (R205). -/
  holderGen : Nat := 0
  /-- core number (R207) whose slot acquired the lock (R203). -/
  hart : Nat := 0
deriving DecidableEq, Repr

/-- A creation that has been accepted and is not complete (R179). -/
structure Creation where
  /-- instance number (R179). -/
  num : Nat := 0
  /-- SRC_MAC (R179). -/
  mac : BitVec 48 := 0
  /-- AUTO_RESET (R179). -/
  auto : Bool := true
  /-- shares (R179). -/
  share : Shares := {}
  /-- allowance list (R179). -/
  allow : List Allow := []
  /-- image (R179). -/
  image : List Byte := []
  /-- local-store granules taken (R179). -/
  ls : List Nat := []
  /-- DRAM granules taken (R179). -/
  dram : List Nat := []
  /-- its long operation (R445). -/
  handle : Option Nat := none
deriving DecidableEq, Repr

/-- Instances, pools, locks and instance memory. -/
structure Insts where
  /-- 512 descriptors; an unlisted one is FREE (R174). -/
  desc : Tbl Inst := []
  /-- INST_HOLDOFF_MS (R197). -/
  holdoffMs : Nat := 1000
  /-- creations in progress (R179). -/
  creating : List Creation := []
  /-- the word that the MGP's last read of a LCK_TRYn returned (R201). -/
  mgpTry : Nat := 0
  /-- 256 locks (R199). -/
  locks : Tbl Lock := []
  /-- LCK_BAD_RELEASE (R202). -/
  badRelease : Nat := 0
  /-- LCK_BROKEN (R204). -/
  lckBroken : Nat := 0
  /-- owner tag of each local-store granule (instance + 1; unlisted: free pool) (R183). -/
  lsOwner : Tbl Nat := []
  /-- owner tag of each DRAM granule (instance + 1, 513 for the ACQ) (R183). -/
  dramOwner : Tbl Nat := []
  /-- released local-store granules not yet cleared (R180). -/
  lsClearing : List Nat := []
  /-- released DRAM granules not yet cleared (R180). -/
  dramClearing : List Nat := []
  /-- local-store bytes by granule x 16,384 + offset; unlisted: 0 (R180). -/
  lsMem : Memory := []
  /-- DRAM bytes by granule x 2 MiB + offset; unlisted: 0 (R180). -/
  dramMem : Memory := []
deriving DecidableEq, Repr

/-- A slot entry of a partition bank (R215). -/
structure SlotEntry where
  /-- VALID (R215). -/
  valid : Bool := false
  /-- TRIG (R215). -/
  trig : Bool := false
  /-- INSTANCE, 9 bits (R215). -/
  inst : Nat := 0
  /-- HART, 2 bits (R215). -/
  hart : Nat := 0
  /-- OFFSET in 0.25 us, 13 bits (R215). -/
  offset : Nat := 0
  /-- BUDGET in 0.25 us, 13 bits (R215). -/
  budget : Nat := 0
  /-- LATEST in 0.25 us, 13 bits (R215). -/
  latest : Nat := 0
  /-- TRIG_SEL, 5 bits (R215). -/
  trigSel : Nat := 0
  /-- DIV, 2 bits (R215). -/
  div : Nat := 0
  /-- DIV_PHASE, 3 bits (R215). -/
  divPhase : Nat := 0
  /-- SLACK_EXCL (R215). -/
  slackExcl : Bool := false
deriving DecidableEq, Repr

/-- A slot status word (R232). -/
structure SlotStat where
  /-- RUNS, 32 bits, saturating (R232). -/
  runs : Nat := 0
  /-- OVERRUNS, 16 bits, saturating (R232). -/
  overruns : Nat := 0
  /-- UNUSED, 16 bits, saturating (R232). -/
  unused : Nat := 0
  /-- MIN_SLACK, 10 bits, RC to its reset value (R232). -/
  minSlack : Nat := 1023
  /-- MAX_USED in 10 ns, 18 bits, RC (R232). -/
  maxUsed : Nat := 0
  /-- LAST_USED in 10 ns, 18 bits (R232). -/
  lastUsed : Nat := 0
deriving DecidableEq, Repr

/-- A slot in execution on a core (R220). -/
structure Running where
  /-- entry of the active bank (R220). -/
  entry : Nat := 0
  /-- instance (R220). -/
  inst : Nat := 0
  /-- its generation (R177). -/
  gen : Nat := 0
  /-- virtual hart (R220). -/
  hart : Nat := 0
  /-- a1: FRAME_NO (R220). -/
  a1 : Nat := 0
  /-- a2: scheduled start or firing time in TB ns (R220). -/
  a2 : Nat := 0
  /-- a3 bits (R220). -/
  a3 : BitVec 4 := 0
  /-- BUDGET in 0.25 us (R220). -/
  budget : Nat := 0
  /-- VMID (R220). -/
  vmid : Nat := 0
  /-- translation root (R220). -/
  root : Nat := 0
  /-- where VS-mode is entered: the instance's slot entry point (R220). -/
  pc : Nat := 0
  /-- integer registers but a0 to a4; unlisted: 0 (R220). -/
  regs : Tbl Nat := []
  /-- the floating-point unit is in the Initial state (R220). -/
  fpInitial : Bool := true
  /-- the vector unit is in the Initial state (R220). -/
  vecInitial : Bool := true
  /-- age (ns) of the first instruction (R221). -/
  started : Nat := 0
  /-- SLACK_EXCL of the slot (R226). -/
  slackExcl : Bool := false
deriving DecidableEq, Repr

/-- What Dzix keeps of one hart of an instance (R220, R222). -/
structure HartStat where
  /-- the previous slot of this hart overran (R220). -/
  prevOver : Bool := false
  /-- consecutive overruns (R222). -/
  series : Nat := 0
  /-- the series event has been raised since the last slot without overrun (R222). -/
  raised : Bool := false
  /-- a slot has started since READY (R220). -/
  ran : Bool := false
deriving DecidableEq, Repr

/-- A partition scheduler (R230). -/
structure Psc where
  /-- EN (R231). -/
  en : Bool := false
  /-- RUNNING (R231). -/
  running : Bool := false
  /-- PERIOD, 2 bits (R231). -/
  period : Nat := 1
  /-- PERIOD_ACT, 2 bits (R231). -/
  periodAct : Nat := 1
  /-- PHASE in 0.25 us, 13 bits (R231). -/
  phase : Nat := 0
  /-- phase in force (R231). -/
  phaseAct : Nat := 0
  /-- ACTIVE_BANK (R231). -/
  bank : Nat := 0
  /-- COMMIT_PEND (R231). -/
  commitPend : Bool := false
  /-- PERIOD that the pending commit brings (R217). -/
  commitPer : Nat := 0
  /-- PHASE that it brings, in 0.25 us (R217). -/
  commitPhase : Nat := 0
  /-- long operation that waits for the switch (R445). -/
  commitOp : Option Nat := none
  /-- the MGP has not yet copied the active bank over the shadow (R215). -/
  copyBusy : Bool := false
  /-- ALIGNED (R231). -/
  aligned : Bool := false
  /-- PHASE_ERR in ns (R231). -/
  phaseErr : Int := 0
  /-- FRAME_NO, 64 bits (R213). -/
  frameNo : Nat := 0
  /-- EN has become 1: the next frame is number 0 (R213). -/
  fresh : Bool := false
  /-- latched PSC_FRAME_HI (R231). -/
  hiLatch : Option Nat := none
  /-- age (ns) of the frame start (R212). -/
  frameAt : Nat := 0
  /-- slot bank 0 (R215). -/
  bank0 : Tbl SlotEntry := []
  /-- slot bank 1 (R215). -/
  bank1 : Tbl SlotEntry := []
  /-- slot status words (R232). -/
  status : Tbl SlotStat := []
  /-- slot in execution on each core position (R220). -/
  cores : Tbl Running := []
  /-- age (ns) at which the footprint in progress on a core ends (R219). -/
  fpEnd : Tbl Nat := []
  /-- entries whose start or window has been served in this frame (R224). -/
  served : List Nat := []
  /-- minimum slack reported in this frame (R227). -/
  slackMin : Option Nat := none
  /-- an overrun was reported in this frame (R227). -/
  slackOver : Bool := false
  /-- live counters (R233). -/
  live : Tbl Nat := []
  /-- snapshot bank (R233). -/
  snap : Tbl Nat := []
deriving DecidableEq, Repr

/-- The PMC registers of one supply island (R235). -/
structure Loop where
  /-- TRACK (R235). -/
  track : Bool := true
  /-- SETPOINT, 10 bits (R235). -/
  setpoint : Nat := 150
  /-- DEADBAND, 10 bits (R235). -/
  deadband : Nat := 50
  /-- GUARD, 10 bits (R235). -/
  guard : Nat := 50
  /-- V_FIX in mV, 10 bits (R235). -/
  vFix : Nat := 900
  /-- V_FLOOR in mV, 10 bits (R235). -/
  vFloor : Nat := 720
  /-- V_TARGET in quarter mV (900 mV), read rounded down to mV (R235). -/
  vTarget : Nat := 3600
  /-- quarter mV at which the supply stood at the last change of V_TARGET (V_NOW of R235 follows) (R32). -/
  vFrom : Nat := 0
  /-- age (ns) of that change (R32). -/
  vAt : Nat := 0
  /-- S_MIN, 10 bits (R235). -/
  sMin : Nat := 1023
  /-- hold of R227 (HOLD reads hold > 0) (R235). -/
  hold : Nat := 0
  /-- EMERG (R235). -/
  emerg : Bool := false
deriving DecidableEq, Repr

/-- Partition schedulers and the supply loop of the PMC. -/
structure Sched where
  /-- 8 PSCs; an unlisted one is at reset (R207). -/
  pscs : Tbl Psc := []
  /-- VC0 to VC7; an unlisted one is at reset (R225). -/
  loops : Tbl Loop := []
  /-- PMC_FABRIC V_VF in mV (R235). -/
  vVf : Nat := 800
  /-- voltage commanded on VF in mV (R228). -/
  vfTarget : Nat := 900
  /-- mV at which VF stood at its last change (R32). -/
  vfFrom : Nat := 0
  /-- age (ns) of that change (R32). -/
  vfAt : Nat := 0
  /-- by 4 x instance + hart (R220). -/
  harts : Tbl HartStat := []
  /-- live PMC counters (R234). -/
  pmcLive : Tbl Nat := []
  /-- PMC snapshot bank (R234). -/
  pmcSnap : Tbl Nat := []
deriving DecidableEq, Repr

/-- An egress queue (R236). -/
structure EgQueue where
  /-- guest address of descriptor 0 (R236). -/
  addr : Nat := 0
  /-- descriptors, a power of two, 16 to 1,024 (R236). -/
  size : Nat := 16
  /-- head index, 16 bits (R236). -/
  head : Nat := 0
  /-- tail index, 16 bits (R236). -/
  tail : Nat := 0
  /-- EG_SEQ of the next descriptor, 32 bits (R237). -/
  seq : Nat := 0
deriving DecidableEq, Repr

/-- A port copy of an instance frame before the CGU (R256). -/
structure GateFrame where
  /-- egress port (R256). -/
  port : Nat := 0
  /-- the copy (R256). -/
  copy : TxCopy := {}
  /-- CTRL of the frame (R237). -/
  ctrl : Bool := false
  /-- claim in its trailer (R239). -/
  claim : Nat := 0
  /-- age (ns) at which it was set aside (R256). -/
  atNs : Nat := 0
deriving DecidableEq, Repr

/-- A claim-line round on one wire (R251). -/
structure WireRound where
  /-- a round is in progress on the wire (R251). -/
  active : Bool := false
  /-- age (ns) of its start edge (R251). -/
  start : Nat := 0
  /-- LOST has been recorded (R252). -/
  lost : Bool := false
  /-- FAULT has been recorded (R252). -/
  fault : Bool := false
  /-- claim the module drives in this round (R252). -/
  claim : BitVec 32 := 0
  /-- the module drives its claim (false: OUT, the start bit only) (R254). -/
  drives : Bool := false
deriving DecidableEq, Repr

/-- A claim wire (R252). -/
structure Wire where
  /-- WIREx: 0 WON, 1 LOST, 2 FAULT or disregarded, 3 no round yet (R276). -/
  result : Nat := 3
  /-- result of the last completed round (R253). -/
  last : Nat := 3
  /-- disregarded after a FAULT (R252). -/
  disregard : Bool := false
  /-- consecutive rounds without fault (R252). -/
  clean : Nat := 0
  /-- the round in progress (R251). -/
  round : WireRound := {}
deriving DecidableEq, Repr

/-- A claim record of a stream entry (R244). -/
structure ClaimRec where
  /-- highest claim x 16 + unit, 36 bits (R244). -/
  h : Nat := 0
  /-- age (ns) of the last frame that carried h (R244). -/
  atNs : Nat := 0
deriving DecidableEq, Repr

/-- The claim gate unit (R275). -/
structure Cgu where
  /-- UNIT_ID from the slot pins, 4 bits (R276). -/
  unitId : Nat := 0
  /-- CLAIM_RX_EN (R276). -/
  claimRxEn : Bool := false
  /-- CLM_EN (R276). -/
  clmEn : Bool := false
  /-- OWN_CLAIM (R276). -/
  ownClaim : BitVec 32 := 0
  /-- ROLE, 3 bits (R276). -/
  role : Role := .out
  /-- made OUT otherwise than by CLM_EN: RETURN_STANDBY is needed (R249). -/
  outHard : Bool := false
  /-- unit ID found in use by the partner, until the pins read another (R248). -/
  idConflict : Option Nat := none
  /-- WIN (R276). -/
  win : Bool := false
  /-- CLM0 and CLM1 (R250). -/
  wires : List Wire := [{}, {}]
  /-- LAST_UNIT, 4 bits (R276). -/
  lastUnit : Nat := 0
  /-- LAST_CLAIM (R276). -/
  lastClaim : BitVec 32 := 0
  /-- CLAIM_MEM_MS, 16 bits (R276). -/
  claimMemMs : Nat := 50
  /-- claim records by stream entry index (R246). -/
  recs : Tbl ClaimRec := []
  /-- copies before the CGU, in order (R256). -/
  gate : List GateFrame := []
  /-- copies set aside (SETASIDE is their number), at most 512 per port (R256). -/
  setAside : List GateFrame := []
  /-- the fallback bit timer is in use (R255). -/
  osc : Bool := false
  /-- the oscillator reference has failed (R255). -/
  noTiming : Bool := false
  /-- instance (number + 1) of each of TRIP0-15; unlisted: none (R257). -/
  tripAssign : Tbl Nat := []
  /-- outputs requested by their instances (R257). -/
  tripReq : BitVec 16 := 0
  /-- the TRIP outputs are enabled (R253). -/
  tripOn : Bool := false
  /-- live counters (R277). -/
  live : Tbl Nat := []
  /-- snapshot bank (R277). -/
  snap : Tbl Nat := []
deriving DecidableEq, Repr

/-- A comparison key (R258). -/
structure CmpKey where
  /-- instance number (R258). -/
  inst : Nat := 0
  /-- hash of gocbRef (R258). -/
  cbHash : BitVec 32 := 0
  /-- stNum, 32 bits (R258). -/
  stNum : Nat := 0
  /-- sqNum, 32 bits (R258). -/
  sqNum : Nat := 0
deriving DecidableEq, Repr

/-- A pending comparison entry (R259). -/
structure Pend where
  /-- its key (R259). -/
  key : CmpKey := {}
  /-- digest of the frame (R258). -/
  digest : BitVec 64 := 0
  /-- the side it came from is the own unit (R259). -/
  loc : Bool := false
  /-- age (ns) of the frame (R259). -/
  openAt : Nat := 0
  /-- age (ns) at which the window ends (R259). -/
  endAt : Nat := 0
  /-- TRIP_SENSE of the frame (R260). -/
  sense : Nat := 0
  /-- PLAUS_ZONE of the frame (R260). -/
  zone : Nat := 15
deriving DecidableEq, Repr

/-- A picture being formed by the standby's BKI (R263). -/
structure Picture where
  /-- key of the divergence (R263). -/
  key : CmpKey := {}
  /-- age (ns) of the first frame (R263). -/
  t : Nat := 0
  /-- PLAUS_WIN in force when it was formed (R263). -/
  winMs : Nat := 30
  /-- zone z (R263). -/
  zone : Nat := 0
  /-- the own side asserted the trip (R263). -/
  tripLocal : Bool := false
  /-- both sides asserted it (R263). -/
  both : Bool := false
deriving DecidableEq, Repr

/-- A control frame as the OCU receives it (R258). -/
structure OcuCopy where
  /-- the frame as submitted (R258). -/
  octets : List Byte := []
  /-- its PCP (R258). -/
  pcp : Nat := 0
  /-- its VLAN ID (R258). -/
  vid : Nat := 0
  /-- TRIP_SENSE of its descriptor (R260). -/
  sense : Nat := 0
  /-- PLAUS_ZONE of its descriptor (R260). -/
  zone : Nat := 15
  /-- instance that built it (R258). -/
  inst : Nat := 0
deriving DecidableEq, Repr

/-- The output comparison unit and the referee (R275). -/
structure Ocu where
  /-- EN (R276). -/
  en : Bool := false
  /-- PLAUS_WIN_MS, 8 bits (R276). -/
  plausWinMs : Nat := 30
  /-- WINDOW_US, 14 bits (R276). -/
  windowUs : Nat := 1000
  /-- TAKE_BLOCK, W1C (R276). -/
  takeBlock : Bool := false
  /-- pending entries, at most 4,096 (R276). -/
  pending : List Pend := []
  /-- pictures being formed (R263). -/
  pictures : List Picture := []
  /-- age (ns) of the last referred divergence (R274). -/
  lastReferred : Option Nat := none
  /-- F status last evaluated by the referee: own unit (1) plus partner (2) (R262). -/
  fSeen : Nat := 0
  /-- own control frames not yet taken by the OCU (R258). -/
  ctrlIn : List OcuCopy := []
  /-- live counters (R277). -/
  live : Tbl Nat := []
  /-- snapshot bank (R277). -/
  snap : Tbl Nat := []
deriving DecidableEq, Repr

/-- A status word of the mirror link (R271). -/
structure StatusWord where
  /-- unit ID (R271). -/
  unit : Nat := 0
  /-- OWN_CLAIM (R271). -/
  claim : BitVec 32 := 0
  /-- role (R271). -/
  role : Role := .out
  /-- F-class status (R271). -/
  f : Bool := false
  /-- TAKE_BLOCK (R271). -/
  takeBlock : Bool := false
  /-- heartbeat state (HB of BKI_STAT) (R271). -/
  hb : Nat := 0
  /-- instances READY or RUNNING (R271). -/
  ready : BitVec 512 := 0
  /-- instances RUNNING (R271). -/
  running : BitVec 512 := 0
  /-- held switch-back request and the unit ID it names (R271). -/
  swUnit : Option Nat := none
  /-- reason of the last switch-back refusal (R271). -/
  swReason : Option Nat := none
  /-- instances for which a full set is asked (R271). -/
  fullReq : List Nat := []
deriving DecidableEq, Repr

/-- A mirror set (R269). -/
structure MirSet where
  /-- instance (R269). -/
  inst : Nat := 0
  /-- the active's generation (R269). -/
  gen : Nat := 0
  /-- the active's step epoch at capture (R269). -/
  stepEpoch : Nat := 0
  /-- epoch number (R269). -/
  epoch : Nat := 0
  /-- FULL (R269). -/
  full : Bool := false
  /-- lines with their offset in the local store (R269). -/
  lines : List (Nat × List Byte) := []
deriving DecidableEq, Repr

/-- Mirror state of an instance (R267-R270). -/
structure MirInst where
  /-- declared regions: first line and line count (R267). -/
  regions : List (Nat × Nat) := []
  /-- a declaration that takes effect at the next epoch (R267). -/
  newRegions : Option (List (Nat × Nat)) := none
  /-- TB (ns) of that epoch's instant (R267). -/
  newFrom : Nat := 0
  /-- EPOCH_MS has changed: the first set of the new period is full (R276). -/
  fullMs : Bool := false
  /-- lines written since the previous capture (R268). -/
  dirty : List Nat := []
  /-- epoch last captured here (R268). -/
  capEpoch : Option Nat := none
  /-- EPOCH_MS in force at that capture (R276). -/
  capMs : Nat := 0
  /-- the next capture sends every declared line (R270). -/
  fullNext : Bool := false
  /-- captured set not yet sent (R269). -/
  staged : Option MirSet := none
  /-- received sets that wait for the frame start, oldest first (R270). -/
  arrived : List MirSet := []
  /-- generation of the last set applied (R270). -/
  lastGen : Nat := 0
  /-- epoch of the last set applied (R270). -/
  lastEpoch : Option Nat := none
  /-- step epoch of the last set applied (R296). -/
  lastStep : Nat := 0
  /-- the standby asks for a full set (R270). -/
  askFull : Bool := false
  /-- no full set has been applied since one was asked for (R272). -/
  needFull : Bool := false
  /-- a set has been discarded on the standby and no full set has been applied since (R260). -/
  discarded : Bool := false
  /-- a set has been applied since the last full set (R274). -/
  everApplied : Bool := false
deriving DecidableEq, Repr

/-- A mirror lane (R271). -/
structure Lane where
  /-- LANEx (R276). -/
  up : Bool := false
  /-- age (ns) of the last valid status word (R271). -/
  lastAt : Option Nat := none
  /-- consecutive status words (R272). -/
  run : Nat := 0
  /-- words missed since then that STATUS_MISSED already counts (R277). -/
  missed : Nat := 0
  /-- declared down: held out until the MLK leaves fault state (R271). -/
  failed : Bool := false
  /-- age (ns) from which words arrived without a gap while the lane is down (R271). -/
  goodFrom : Option Nat := none
deriving DecidableEq, Repr

/-- The mirror link (R275). -/
structure Mlk where
  /-- PARTNER_TO_MS, 7 bits (R276). -/
  partnerToMs : Nat := 5
  /-- EPOCH_MS, 7 bits (R276). -/
  epochMs : Nat := 4
  /-- EPOCH_MS in force until a changed one takes effect (R276). -/
  epochOld : Nat := 4
  /-- TB (ns) from which EPOCH_MS is in force (R276). -/
  epochFrom : Nat := 0
  /-- ML0 and ML1 (R271). -/
  lanes : List Lane := [{}, {}]
  /-- age (ns) at which the lanes were enabled (R272). -/
  enabledAt : Option Nat := none
  /-- awaited, present or lost (R272). -/
  partner : PartnerSt := .awaited
  /-- the awaited partner has been declared lost after 30 s (R272). -/
  awaitOver : Bool := false
  /-- the partner was ACTIVE or ALONE when it was last not OUT (R264). -/
  led : Bool := false
  /-- the partner's last status word (PARTNER_UNIT, PARTNER_ROLE, PARTNER_F) (R271). -/
  word : StatusWord := {}
  /-- MLK_PCLAIM (R276). -/
  partnerClaim : BitVec 32 := 0
  /-- age (ns) at which the last status words were sent (R271). -/
  sentAt : Option Nat := none
  /-- the partner has returned and not every declared instance has a full set yet (R272). -/
  resync : Bool := false
  /-- status words sent (newest first, one per lane): the link's output (R271). -/
  sent : List StatusWord := []
  /-- control frame copies sent (R15). -/
  copiesOut : List OcuCopy := []
  /-- decision messages sent: row, against own unit, key (R264). -/
  decisionsOut : List (Nat × Bool × CmpKey) := []
  /-- sets sent (R269). -/
  setsOut : List MirSet := []
  /-- mirror state by instance (R267). -/
  mir : Tbl MirInst := []
  /-- age (ns) at which each of the partner's instances became RUNNING (R260). -/
  partnerRun : Tbl Nat := []
  /-- held switch-back request: unit named, age (ns), handle (R273). -/
  swHeld : Option (Nat × Nat × Nat) := none
  /-- reason of the last refusal (R274). -/
  swReason : Option Nat := none
  /-- long operation of the switch-back being executed here (R273). -/
  swOp : Option Nat := none
  /-- live counters (R277). -/
  live : Tbl Nat := []
  /-- snapshot bank (R277). -/
  snap : Tbl Nat := []
deriving DecidableEq, Repr

/-- Egress queues of the instances. -/
structure Egress where
  /-- by 2 x instance + queue; unlisted: not registered (R236). -/
  queues : Tbl EgQueue := []
deriving DecidableEq, Repr

/-- PTP_PORTk and LINKDELAYk (R305). -/
structure PtpPort where
  /-- TC_CLASS, 3 bits (R305). -/
  tcClass : Nat := 7
  /-- FWD_MASK (R305). -/
  fwdMask : BitVec 6 := 0
  /-- PTP_PCP, 3 bits (R305). -/
  pcp : Nat := 4
  /-- UNTAGGED (R305). -/
  untagged : Bool := false
  /-- PDELAY_EN (R305). -/
  pdelayEn : Bool := true
  /-- PTP_EN (R305). -/
  ptpEn : Bool := false
  /-- LINK_DELAY in 2^-16 ns, 32 bits (R305). -/
  linkDelay : Nat := 0
  /-- a Pdelay_Req has no response yet (R288). -/
  reqOut : Bool := false
  /-- age (ns) at which it was sent (R288). -/
  reqStamp : Nat := 0
  /-- sequenceId of the next Pdelay_Req, 16 bits (R278). -/
  reqSeq : Nat := 0
  /-- requests in a row without a response (R288). -/
  missed : Nat := 0
  /-- the servo uses the port as a slave port (R288). -/
  usable : Bool := true
deriving DecidableEq, Repr

/-- What the best master algorithm keeps of an Announce (R289). -/
structure Announce where
  /-- port it arrived on (R289). -/
  port : Nat := 0
  /-- grandmaster identity, 64 bits (R278). -/
  gm : Nat := 0
  /-- grandmasterPriority1 (R278). -/
  prio1 : Nat := 128
  /-- grandmasterClockQuality, 32 bits (R278). -/
  quality : Nat := 0
  /-- grandmasterPriority2 (R278). -/
  prio2 : Nat := 128
  /-- stepsRemoved (R289). -/
  steps : Nat := 0
  /-- age (ns) of arrival (R289). -/
  atNs : Nat := 0
  /-- logAnnounceInterval; 0 to 2 are used (R278). -/
  logInt : Nat := 0
  /-- sourcePortIdentity, 80 bits (R289). -/
  source : Nat := 0
  /-- IEEE_C37_238 TLV, reported (R278). -/
  tlv : List Byte := []
  /-- ALTERNATE_TIME_OFFSET_INDICATOR TLV, reported (R278). -/
  alt : List Byte := []
deriving DecidableEq, Repr

/-- One of the two PTP domains (R289). -/
structure Domain where
  /-- DOM_A / DOM_B, 8 bits (R305). -/
  num : Nat := 0
  /-- STATE: 0 FREERUN, 1 LOCKING, 2 LOCKED, 3 HOLDOVER (R305). -/
  state : Nat := 0
  /-- OFS, in 2^-32 ns (read in 2^-16 ns, signed 64 bits) (R304). -/
  ofs : Int := 0
  /-- OFS_LO written and waiting for _HI (R304). -/
  ofsLatch : Option Nat := none
  /-- candidates, one per port and source (R289). -/
  best : List Announce := []
  /-- slave port (R289). -/
  slave : Option Nat := none
  /-- identity of the grandmaster followed (R289). -/
  gm : Option Nat := none
  /-- the last 16 raw offsets, newest first (R290). -/
  hist : List Int := []
  /-- consecutive offsets within 100 ns of the target (R289). -/
  good : Nat := 0
  /-- consecutive offsets beyond STEP_THR_US while LOCKED (R292). -/
  far : Nat := 0
  /-- age (ns) of the last valid Sync (R289). -/
  lastSync : Nat := 0
  /-- Sync interval in ns (R289). -/
  syncNs : Nat := 1000000000
  /-- age (ns) of entry into HOLDOVER (R291). -/
  holdAt : Nat := 0
  /-- the domain has locked since power-on (R292). -/
  locked : Bool := false
deriving DecidableEq, Repr

/-- A trigger comparator (R306). -/
structure Comparator where
  /-- EN (R306). -/
  en : Bool := false
  /-- PERIODIC (R306). -/
  periodic : Bool := false
  /-- LATE, W1C (R306). -/
  late : Bool := false
  /-- FIRED, W1C (R306). -/
  fired : Bool := false
  /-- DEST; 0b0001 and fixed for 0 to 7 (R306). -/
  dest : BitVec 4 := 0
  /-- BY_MGP (R306). -/
  byMgp : Bool := false
  /-- OWNER, 9 bits (R306). -/
  owner : Nat := 0
  /-- the comparator is allocated (R297). -/
  alloc : Bool := false
  /-- SKIPPED, 14 bits, saturating, RC (R306). -/
  skipped : Nat := 0
  /-- TIME in TB ns, 64 bits (R306). -/
  time : Nat := 0
  /-- TIME_HI written and waiting for _LO (R306). -/
  timeHi : Nat := 0
  /-- PERIOD in ns, 32 bits (R306). -/
  period : Nat := 0
deriving DecidableEq, Repr

/-- An entry of the transmit time-stamp queue (R302). -/
structure StampEntry where
  /-- TS_SEQ, 32 bits (R302). -/
  tsSeq : Nat := 0
  /-- EG_SEQ, 32 bits (R302). -/
  egSeq : Nat := 0
  /-- TIME_NS (R302). -/
  ns : Nat := 0
  /-- TIME_FRAC, 16 bits (R302). -/
  frac : Nat := 0
  /-- STEP_EPOCH, 16 bits (R302). -/
  epoch : Nat := 0
  /-- AGE (R302). -/
  age : Nat := 0
  /-- GEN, 16 bits (R302). -/
  gen : Nat := 0
  /-- INSTANCE, 9 bits (R302). -/
  inst : Nat := 0
  /-- BY_MGP (R302). -/
  byMgp : Bool := false
  /-- PORT (R302). -/
  port : Nat := 0
  /-- QUEUE (R302). -/
  queue : Nat := 0
deriving DecidableEq, Repr

/-- The stamp ring of an instance (R302). -/
structure StampRing where
  /-- guest address of slot 0 (R302). -/
  addr : Nat := 0
  /-- slots, a power of two, 16 to 1,024 (R302). -/
  slots : Nat := 16
  /-- guest address of the ring control block (R302). -/
  ctl : Nat := 0
  /-- entries written (WR_SEQ) (R302). -/
  wr : Nat := 0
deriving DecidableEq, Repr

/-- Stamp accounting of one owner (R301, R303). -/
structure StampOwner where
  /-- next stamp sequence number, 32 bits (R301). -/
  seq : Nat := 0
  /-- TS_LOST, 32 bits, saturating (R303). -/
  lost : Nat := 0
  /-- TS_UNSENT, 32 bits, saturating (R303). -/
  unsent : Nat := 0
deriving DecidableEq, Repr

/-- The time base unit (R304). -/
structure Time where
  /-- TB nanoseconds, 64 bits; 0 at power-on (R280). -/
  tbNs : Nat := 0
  /-- TB fraction in 2^-32 ns, 32 bits (R280). -/
  tbFrac : Nat := 0
  /-- age counter in ns, 64 bits; 0 at power-on (R281). -/
  age : Nat := 0
  /-- STEP_EPOCH, 16 bits (R282). -/
  stepEpoch : Nat := 0
  /-- INCR, signed 32 bits (R280). -/
  incr : Int := 0
  /-- the TB island clock has stopped (R21). -/
  tbStopped : Bool := false
  /-- the oscillator reference has failed (R281). -/
  oscFailed : Bool := false
  /-- REF (R305). -/
  ref : Bool := false
  /-- REF_ACT (R305). -/
  refAct : Bool := false
  /-- AUTO_SWITCH (R305). -/
  autoSwitch : Bool := false
  /-- PPS_EN (R305). -/
  ppsEn : Bool := false
  /-- PPS_GATE (R305). -/
  ppsGate : Bool := false
  /-- SLEW_REM, in 2^-32 ns (read in 2^-16 ns) (R304). -/
  slewRem : Int := 0
  /-- SLEWING (R305). -/
  slewing : Bool := false
  /-- TB_STEP, signed 64 bits (R305). -/
  step : Int := 0
  /-- domain A (R289). -/
  domA : Domain := {}
  /-- domain B (R289). -/
  domB : Domain := { num := 254 }
  /-- announceReceiptTimeout; no register or opcode sets it (R278). -/
  annTimeout : Nat := 3
  /-- SWITCH_MAX_US, 16 bits (R305). -/
  switchMaxUs : Nat := 1000
  /-- HOLDOVER_S, 12 bits (R305). -/
  holdoverS : Nat := 60
  /-- STEP_THR_US, 20 bits (R305). -/
  stepThrUs : Nat := 10
  /-- PPS_WIDTH in us, 19 bits (R305). -/
  ppsWidth : Nat := 100000
  /-- level of the PPS_OUT pin (R300). -/
  ppsOut : Bool := false
  /-- age (ns) at which the pulse rose (R300). -/
  ppsFrom : Nat := 0
  /-- PTP_PORT0-5; an unlisted one is at reset (R305). -/
  ports : Tbl PtpPort := []
  /-- comparators 0 to 31; an unlisted one is at reset (R306). -/
  cmps : Tbl Comparator := []
  /-- transmit time-stamp queue, at most 512 (R301). -/
  stampQ : List StampEntry := []
  /-- TS_QSTAT HWM, RC (R305). -/
  stampHwm : Nat := 0
  /-- stamp accounting by instance; 512: the MGP (R301). -/
  owners : Tbl StampOwner := []
  /-- stamp rings by instance (R302). -/
  stampRings : Tbl StampRing := []
  /-- latched TB_NOW_LO and _HI (R304). -/
  tbLatch : Option (Nat × Nat) := none
  /-- latched AGE_HI (R304). -/
  ageLatch : Option Nat := none
  /-- peer-delay messages sent, newest first: output of the ports (R288). -/
  pdSent : List PdMsg := []
  /-- live counters (R307). -/
  live : Tbl Nat := []
  /-- snapshot bank (R307). -/
  snap : Tbl Nat := []
deriving DecidableEq, Repr

/-- A source entry of a stream (R333). -/
structure AcqSrc where
  /-- VALID (R333). -/
  valid : Bool := false
  /-- TYPE: 0 GROUP, 1 RAW (R333). -/
  raw : Bool := false
  /-- REF, 14 bits (R333). -/
  ref : Nat := 0
  /-- FIRST_POS, 6 bits (R333). -/
  firstPos : Nat := 0
  /-- NCH, 5 bits (R333). -/
  nch : Nat := 0
  /-- F_NOM: 0 50 Hz, 1 60 Hz (R333). -/
  f60 : Bool := false
  /-- REC_LEN, 12 bits (R333). -/
  recLen : Nat := 0
  /-- MEAS_EN (R333). -/
  measEn : Bool := true
  /-- RATE, 3 bits (R333). -/
  rate : Nat := 3
deriving DecidableEq, Repr

/-- One sample of a source in the record in progress (R310). -/
structure AcqSample where
  /-- sample count (R311). -/
  count : Nat := 0
  /-- channel values (R312). -/
  xs : List Int := []
  /-- channel quality, 14 bits (R323). -/
  quals : List Nat := []
  /-- channel flags (R323). -/
  cflags : List Nat := []
  /-- source smpCnt (R323). -/
  smpCnt : Nat := 0
  /-- smpSynch (R323). -/
  synch : Nat := 0
  /-- set flags HELD, RESTART, SETTLING, PRESET_CHANGED (R315). -/
  hdr : BitVec 4 := 0
deriving DecidableEq, Repr

/-- Zero-crossing state of a channel (R313, R314). -/
structure ZcState where
  /-- of the last 8 records, newest first: the crossing carried into it and its crossings, in 2^-16 samples (R314). -/
  recs : List (Option Nat × List Nat) := []
  /-- the carried crossing (R314). -/
  carried : Option Nat := none
  /-- y has been below -ZC_HYST since the previous crossing (R313). -/
  armed : Bool := false
  /-- last sample of the record before (R313). -/
  lastX : Option Int := none
deriving DecidableEq, Repr

/-- Capture state of a source (R311). -/
structure AcqSrcState where
  /-- sample count of the next sample (R311). -/
  next : Nat := 0
  /-- number of the record in progress, 32 bits (R311). -/
  record : Nat := 0
  /-- sample count of its first sample (R311). -/
  base : Nat := 0
  /-- samples of the record in progress, oldest first (R311). -/
  cur : List AcqSample := []
  /-- EXT of the last set, 32 bits (R323). -/
  lastExt : Nat := 0
  /-- smpCnt expected next of a RAW source (R311). -/
  expect : Option Nat := none
  /-- by channel (R313). -/
  zc : Tbl ZcState := []
  /-- ZC_HYST as it stood when the record in progress began (R333). -/
  hyst : Nat := 0
  /-- FREQ_RECS as it stood then (R333). -/
  freqRecs : Nat := 4
deriving DecidableEq, Repr

/-- A conditioned set as the SCE passes it to the ACQ (R309). -/
structure AcqSet where
  /-- group (R309). -/
  group : Nat := 0
  /-- source smpCnt (R151). -/
  smpCnt : Nat := 0
  /-- EXT of the newest input, 32 bits (R151). -/
  ext : Nat := 0
  /-- SMPSYNCH (R162). -/
  synch : Nat := 0
  /-- SETTLING (3), PRESET_CHANGED, RESTART, HELD (0) (R162). -/
  hdr : BitVec 4 := 0
  /-- preset code (R162). -/
  preset : Nat := 0
  /-- RATE code (R162). -/
  rate : Nat := 3
  /-- channel values (R163). -/
  xs : List Int := []
  /-- channel quality, 14 bits (R163). -/
  quals : List Nat := []
  /-- channel flags (R163). -/
  flags : List Nat := []
deriving DecidableEq, Repr

/-- One entry of the ACQ input (R327). -/
structure AcqEntry where
  /-- a frame copy for RAW sources (R309). -/
  copy : Option Deliver := none
  /-- a set, where it is no copy (R309). -/
  set : AcqSet := {}
deriving DecidableEq, Repr

/-- A trigger not yet placed in a mark (R319). -/
structure AcqTrig where
  /-- cause 0 to 3 (R316). -/
  cause : Nat := 0
  /-- trigger time in TB ns (R316). -/
  ns : Nat := 0
  /-- step epoch of that time (R325). -/
  epoch : Nat := 0
  /-- age (ns) of the trigger (R325). -/
  age : Nat := 0
  /-- threshold bit 15 and context (R325). -/
  ctx : Nat := 0
  /-- SMPCNT of the event (R325). -/
  smpCnt : Nat := 0
  /-- instance (R325). -/
  inst : Nat := 0
  /-- its generation (R318). -/
  gen : Nat := 0
  /-- comparator (R325). -/
  comp : Nat := 255
  /-- code of the request (R318). -/
  code : Nat := 0
  /-- PRE and POST of its cause as they stood at the trigger (R333). -/
  span : Nat × Nat := (0, 0)
deriving DecidableEq, Repr

/-- A staged item (R322). -/
structure AcqItem where
  /-- the item (R322). -/
  octets : List Byte := []
  /-- age (ns) at which it was staged (R322). -/
  firstAge : Nat := 0
  /-- FLUSH_US as it stood then; the first item's is the frame's (R333). -/
  flushUs : Nat := 1000
deriving DecidableEq, Repr

/-- A stream descriptor (R332) and its staging buffer. -/
structure AcqStream where
  /-- EN (R332). -/
  en : Bool := false
  /-- RUN (R332). -/
  run : Bool := false
  /-- STOP_REASON, 2 bits (R332). -/
  stopReason : Nat := 0
  /-- PORT (R332). -/
  port : Nat := 4
  /-- CAUSE_EN (R332). -/
  causeEn : BitVec 4 := 0
  /-- NSRC, 5 bits (R332). -/
  nsrc : Nat := 0
  /-- DST_MAC (R332). -/
  dstMac : BitVec 48 := 0
  /-- SRC_MAC (R332). -/
  srcMac : BitVec 48 := 0
  /-- DST_IP (R332). -/
  dstIp : BitVec 32 := 0
  /-- SRC_IP (R332). -/
  srcIp : BitVec 32 := 0
  /-- DST_PORT, 16 bits (R332). -/
  dstPort : Nat := 38464
  /-- SRC_PORT, 16 bits (R332). -/
  srcPort : Nat := 38464
  /-- VID, 12 bits (R332). -/
  vid : Nat := 1
  /-- PCP, 3 bits (R332). -/
  pcp : Nat := 2
  /-- DSCP, 6 bits (R332). -/
  dscp : Nat := 0
  /-- TTL, 8 bits (R332). -/
  ttl : Nat := 64
  /-- STREAM_RATE, 16 bits (R332). -/
  rateMbit : Nat := 100
  /-- STAGE_GRAN, 8 bits (R332). -/
  stageGran : Nat := 4
  /-- FLUSH_US, 14 bits (R332). -/
  flushUs : Nat := 1000
  /-- FREQ_RECS, 4 bits (R332). -/
  freqRecs : Nat := 4
  /-- TRG_COMP (R332). -/
  trgComp : BitVec 24 := 0
  /-- ZC_HYST, 32 bits (R332). -/
  zcHyst : Nat := 0
  /-- PRE_POST: PRE and POST per cause (R332). -/
  prePost : List (Nat × Nat) := [(0, 0), (0, 0), (0, 0), (0, 0)]
  /-- SRC0-15; unlisted ones are at reset (R333). -/
  srcs : List AcqSrc := []
  /-- FRAME_SEQ, 32 bits (R332). -/
  frameSeq : Nat := 0
  /-- MARK_SEQ, 32 bits (R332). -/
  markSeq : Nat := 0
  /-- STAGE_HWM in KiB, RC (R332). -/
  stageHwm : Nat := 0
  /-- items of the frame being filled (R322). -/
  items : List AcqItem := []
  /-- staged UDP payloads not yet sent, oldest first (R326). -/
  frames : List (List Byte) := []
  /-- IPv4 identification, 16 bits (R320). -/
  ipId : Nat := 0
  /-- capture state per source (R311). -/
  sst : Tbl AcqSrcState := []
  /-- triggers waiting for their position (R319). -/
  trigs : List AcqTrig := []
  /-- DRAM granules of the staging buffer (R326). -/
  granules : List Nat := []
  /-- age (ns) from which the port may take the next staged frame at STREAM_RATE (R326). -/
  drainAt : Nat := 0
deriving DecidableEq, Repr

/-- The acquisition engine (R330). -/
structure Acq where
  /-- EN (R331). -/
  en : Bool := false
  /-- TRIG_DEAD_MS, 10 bits (R331). -/
  deadMs : Nat := 10
  /-- TRIG_IN_EN (R331). -/
  trigInEn : Bool := false
  /-- TRIG_IN_EDGE, 2 bits (R331). -/
  trigInEdge : Nat := 0
  /-- level of the TRIG_IN pin (R331). -/
  trigIn : Bool := false
  /-- age (ns) of the previous accepted edge (R317). -/
  lastEdge : Option Nat := none
  /-- copies and sets at the ACQ input, oldest first, at most 512 (R327). -/
  inQ : List AcqEntry := []
  /-- streams 0 to 3; an unlisted one is at reset (R308). -/
  streams : Tbl AcqStream := []
  /-- live counters (R334). -/
  live : Tbl Nat := []
  /-- snapshot bank (R334). -/
  snap : Tbl Nat := []
deriving DecidableEq, Repr

/-- An element slot (R363). -/
structure ElemSlot where
  /-- EN (R363). -/
  en : Bool := false
  /-- TYPE: 0 50, 1 51, 2 50N, 3 51N, 4 27, 5 59 (R363). -/
  type : Nat := 0
  /-- ZONE, 4 bits (R363). -/
  zone : Nat := 15
  /-- INPUTS (R363). -/
  inputs : BitVec 8 := 0
  /-- BT_MASK (R363). -/
  btMask : BitVec 4 := 0
  /-- CURVE, 4 bits (R363). -/
  curve : Nat := 0
  /-- RESET_MODE, 2 bits (R363). -/
  resetMode : Nat := 0
  /-- RES_SRC (R363). -/
  resSrc : Bool := false
  /-- ALL_PHASES (R363). -/
  allPhases : Bool := false
  /-- PICKUP in uV, 32 bits (R363). -/
  pickup : Nat := 1000000
  /-- TMS in 0.001, 16 bits (R363). -/
  tms : Nat := 1000
  /-- DELAY in ms, 16 bits (R363). -/
  delay : Nat := 0
  /-- RESET_T in ms, 16 bits (R363). -/
  resetT : Nat := 0
  /-- BLOCK in mV, 16 bits (R363). -/
  block : Nat := 0
deriving DecidableEq, Repr

/-- The state of an element (R344, R345). -/
structure ElemState where
  /-- START (R344). -/
  start : Bool := false
  /-- TRIP (R344). -/
  trip : Bool := false
  /-- output sample at which START began (R344). -/
  startAt : Nat := 0
  /-- accumulator a of each quantity, in 2^-40 (R345). -/
  accs : List Nat := []
  /-- output sample from which G of each quantity was at or below 1.045 Gs (R345). -/
  below : List (Option Nat) := []
deriving DecidableEq, Repr

/-- A START interval kept for the pictures (R349). -/
structure StartSpan where
  /-- element slot (R349). -/
  slot : Nat := 0
  /-- zone (R349). -/
  zone : Nat := 0
  /-- age (ns) of the first output sample in START (R349). -/
  fromNs : Nat := 0
  /-- age (ns) of the last one, none while it lasts (R349). -/
  toNs : Option Nat := none
deriving DecidableEq, Repr

/-- An event record, fields of its 64 octets (R384). -/
structure EvrRec where
  /-- SEQ, 32 bits (R384). -/
  seq : Nat := 0
  /-- CODE, 10 bits (R384). -/
  code : Nat := 0
  /-- class, 2 bits (R384). -/
  cls : Nat := 0
  /-- INJ (R384). -/
  inj : Bool := false
  /-- SRC_BLOCK (R384). -/
  block : Nat := 0
  /-- SRC_UNIT (R384). -/
  unit : Nat := 0
  /-- AGE (R384). -/
  age : Nat := 0
  /-- TB_NS (R384). -/
  tb : Nat := 0
  /-- STEP_EPOCH (R384). -/
  epoch : Nat := 0
  /-- BOOT (R384). -/
  boot : Nat := 0
  /-- INST and GEN (R384). -/
  owner : Master := .none
  /-- DETAIL, octets 32-59 (R384). -/
  detail : List Byte := []
  /-- the slot holds an uncorrectable word (R385). -/
  damaged : Bool := false
  /-- its CRC checks (R398). -/
  crcOk : Bool := true
deriving DecidableEq, Repr

/-- The Backstop island and the seasons (R361). -/
structure Bki where
  /-- the image that the island runs (R336). -/
  image : Image := {}
  /-- inputs that their window comparator holds beyond the common-mode range (R507). -/
  cmOver : BitVec 8 := 0
  /-- IN_EN (R362). -/
  inEn : BitVec 8 := 0
  /-- BT_EN (R362). -/
  btEn : BitVec 4 := 0
  /-- BT_MIN_MS, 10 bits (R362). -/
  btMinMs : Nat := 100
  /-- ACTIVE_BANK (R362). -/
  bank : Bool := false
  /-- a COMMIT waits for the next output sample (R348). -/
  commitPend : Bool := false
  /-- age (ns) until which the active bank is being copied over the shadow (R348). -/
  copyEnds : Nat := 0
  /-- SYNC (R362). -/
  sync : Bool := true
  /-- F_NOM as written (R362). -/
  fNom : Bool := false
  /-- PRESET as written (R362). -/
  preset : Bool := false
  /-- F_NOM in force (R348). -/
  fNomAct : Bool := false
  /-- PRESET in force (R348). -/
  presetAct : Bool := false
  /-- HB_EN (R362). -/
  hbEn : Bool := false
  /-- HB: 0 off, 1 watching, 2 lost and restarting, 3 MGP_DEAD (R362). -/
  hb : Nat := 0
  /-- ages (ns) of the restarts called for in the last 600 s (MGP_RESTARTS) (R362). -/
  restarts : List Nat := []
  /-- BOOT_BANK (R362). -/
  bootBank : Bool := false
  /-- CLM_HOLD (R362). -/
  clmHold : Bool := false
  /-- a heartbeat has been accepted since the MGP reset was released (R353). -/
  hbSinceReset : Bool := false
  /-- age (ns) of the last accepted heartbeat (R350). -/
  hbAt : Nat := 0
  /-- a cold start or WINTER since HB_EN was last written 1: it may be written 0 (R350). -/
  hbOpen : Bool := false
  /-- HB_VALUE (R362). -/
  hbValue : BitVec 32 := 0
  /-- the island holds the MGP in reset (R352). -/
  mgpReset : Bool := true
  /-- age (ns) of the release of the MGP reset (R352). -/
  mgpResetAt : Nat := 0
  /-- BT_STATE, the BT0-BT3 pins (R362). -/
  btDriven : BitVec 4 := 0
  /-- age (ns) at which the hold of BTj ends (R347). -/
  btHoldEnd : Tbl Nat := []
  /-- element bank 0; unlisted slots are at reset (R363). -/
  bank0 : Tbl ElemSlot := []
  /-- element bank 1 (R363). -/
  bank1 : Tbl ElemSlot := []
  /-- element states (ELEM_START, ELEM_TRIP) (R344). -/
  elems : Tbl ElemState := []
  /-- START intervals of the last 250 ms, newest first (R349). -/
  spans : List StartSpan := []
  /-- input samples of each input, newest first (filter history) (R342). -/
  raw : Tbl (List Int) := []
  /-- filter outputs of each input, newest first (RMS window) (R342). -/
  outs : Tbl (List Int) := []
  /-- output samples for which SAT of BKI_RMSk stays set (R362). -/
  satWin : Tbl Nat := []
  /-- BKI_RMSk RMS_UV, 24 bits (R362). -/
  rms : Tbl Nat := []
  /-- sample count, modulo 4,800 (R338). -/
  smpCnt : Nat := 0
  /-- inputs converted before the count was last set, since the output before (R339). -/
  smpPast : Nat := 0
  /-- modulator cycles put into the grid since its base, or left out of it (R339). -/
  gridCyc : Int := 0
  /-- age (ns) from which the output grid runs (R342). -/
  outBase : Nat := 0
  /-- age (ns) of the last output sample (R349). -/
  outAt : Nat := 0
  /-- age (ns) of the last calibration step (R340). -/
  calAt : Nat := 0
  /-- output samples since the grid or preset restarted (model's own timer) (R344). -/
  outCnt : Nat := 0
  /-- CAL_STEP_S, 6 bits (R362). -/
  calStepS : Nat := 2
  /-- CAL_EN (R362). -/
  calEn : Bool := true
  /-- CAL_EN is 0 and the step in progress is the last (R341). -/
  calLast : Bool := false
  /-- SPARE, 4 bits (R362). -/
  spare : Nat := 8
  /-- modulator that serves each input (R340). -/
  served : List Nat := [0, 1, 2, 3, 4, 5, 6, 7]
  /-- SUSPECT (R362). -/
  suspect : BitVec 8 := 0
  /-- NEXT, 4 bits (R362). -/
  calNext : Nat := 0
  /-- consecutive failures on the input of the step (R341). -/
  calFails : Nat := 0
  /-- the island's cores are held in reset after an F-class fault (R354). -/
  coresHeld : Bool := false
  /-- no verified image: BT0-BT3 released (R336). -/
  noImage : Bool := false
  /-- the cores are restarting from SRAM (R354). -/
  restarting : Bool := false
  /-- age (ns) of the last lockstep mismatch (R354). -/
  lastMismatch : Option Nat := none
  /-- the island is protecting (R336). -/
  running : Bool := false
  /-- records kept in island SRAM, at most 255, oldest first (R399). -/
  held : List EvrRec := []
  /-- records that did not fit (R399). -/
  heldLost : Nat := 0
  /-- live counters (R364). -/
  live : Tbl Nat := []
  /-- snapshot bank (R364). -/
  snap : Tbl Nat := []
deriving DecidableEq, Repr

/-- Season registers and the power state (R355). -/
structure Season where
  /-- SEASON of SEASON_STAT; SPRING at reset (R362). -/
  season : SeasonKind := .spring
  /-- CHANGING: the season being entered (R362). -/
  changing : Option SeasonKind := none
  /-- clusters that have taken the SUMMER or AUTUMN change (R356). -/
  switched : List Nat := []
  /-- long operation of the change (R445). -/
  changeOp : Option Nat := none
  /-- LAST_WAKE, 4 bits (R362). -/
  lastWake : Nat := 0
  /-- WINTER_CAUSE (R362). -/
  winterCause : Bool := false
  /-- SEASON of SEASON_CTL (R362). -/
  reqSeason : Nat := 0
  /-- FORCE (R362). -/
  force : Bool := false
  /-- RETURN (R362). -/
  ret : Bool := false
  /-- WAKE_EN: P6, element trip, timer (R362). -/
  wakeEn : BitVec 3 := 0
  /-- WAKE_TIMER_S, 23 bits (R362). -/
  wakeTimerS : Nat := 0
  /-- age counter at WINTER entry (R359). -/
  winterAge : Nat := 0
  /-- a wake that waits for MAIN (R358). -/
  wakeHeld : Option Nat := none
deriving DecidableEq, Repr

/-- First-error registers (R383). -/
structure FirstErr where
  /-- CODE, 10 bits (R383). -/
  code : Nat := 0
  /-- CLASS, 2 bits (R383). -/
  cls : Nat := 0
  /-- INJ (R383). -/
  inj : Bool := false
  /-- LATCHED (R383). -/
  latched : Bool := false
  /-- ACCESS, 4 bits (R383). -/
  access : Nat := 0
  /-- MASTER_BLOCK, 6 bits (R383). -/
  mBlock : Nat := 0
  /-- MASTER_UNIT, 6 bits (R383). -/
  mUnit : Nat := 0
  /-- FE_INST (R383). -/
  owner : Master := .none
  /-- FE_ADDR (R383). -/
  addr : Nat := 0
  /-- FE_TB (R383). -/
  tb : Nat := 0
  /-- FE_AGE (R383). -/
  age : Nat := 0
  /-- FE_SYN POS (R383). -/
  pos : Nat := 0
  /-- FE_SYN S0 (R383). -/
  s0 : BitVec 8 := 0
  /-- FE_SYN S1 (R383). -/
  s1 : BitVec 8 := 0
  /-- FE_EPOCH (R383). -/
  epoch : Nat := 0
deriving DecidableEq, Repr

/-- A fault set (R365, R383). -/
structure FaultSet where
  /-- STATE (R383). -/
  state : Bool := false
  /-- F_ACTIVE (R383). -/
  fActive : Bool := false
  /-- PERSIST (R383). -/
  persist : Bool := false
  /-- FE_VALID (R383). -/
  feValid : Bool := false
  /-- OVERFLOW (R383). -/
  overflow : Bool := false
  /-- CAPTURE_ACT: 1 LATCH (R383). -/
  captureAct : Bool := true
  /-- CAPTURE: 1 LATCH (R383). -/
  capture : Bool := true
  /-- LAST_CLASS, 2 bits (R383). -/
  lastClass : Nat := 0
  /-- LAST_KIND, 4 bits (R383). -/
  lastKind : Nat := 0
  /-- INT_EXIT_EN, INT_F_EN, INT_K_EN, INT_C_EN (bit 0) (R383). -/
  intEn : BitVec 4 := 0b1110
  /-- FLT_INT: EXIT, F, K, C, OVF, W1C (R383). -/
  int : BitVec 5 := 0
  /-- FLT_INJ ARM (R383). -/
  injArm : Bool := false
  /-- FLT_INJ MODE (R383). -/
  injMode : Bool := false
  /-- FLT_INJ STATE, 2 bits (R383). -/
  injState : Nat := 0
  /-- FLT_INJ KIND, 4 bits (R383). -/
  injKind : Nat := 0
  /-- FLT_INJ POS, 5 bits (R383). -/
  injPos : Nat := 0
  /-- FLT_INJ PATTERN (R383). -/
  injPattern : BitVec 8 := 0
  /-- age (ns) at which the injection was armed (R379). -/
  injAt : Nat := 0
  /-- FE registers (R383). -/
  fe : FirstErr := {}
  /-- read buffer of the FE registers (R378). -/
  feBuf : FirstErr := {}
  /-- CNT_C, 32 bits, saturating (R383). -/
  cntC : Nat := 0
  /-- CNT_K (R383). -/
  cntK : Nat := 0
  /-- CNT_F (R383). -/
  cntF : Nat := 0
  /-- INJECTED, 16 bits, saturating (R383). -/
  injected : Nat := 0
  /-- RECOVERIES, 16 bits, saturating (R383). -/
  recoveries : Nat := 0
  /-- QUIET_MS, 22 bits (R383). -/
  quietMs : Nat := 10000
  /-- age (ns) from which the quiet period runs (R372). -/
  quietFrom : Nat := 0
  /-- FLT_LATE, 32 bits, saturating (R383). -/
  late : Nat := 0
deriving DecidableEq, Repr

/-- A bucket entry (R402). -/
structure Bucket where
  /-- MODE, 2 bits (R402). -/
  mode : Nat := 1
  /-- BURST, 10 bits (R402). -/
  burst : Nat := 16
  /-- INTERVAL_US, 20 bits (R402). -/
  intervalUs : Nat := 100000
  /-- tokens held (R389). -/
  tokens : Nat := 16
  /-- age (ns) at which the next token is regained (R389). -/
  refillAt : Option Nat := none
  /-- suppressed occurrences kept, 32 bits, saturating (R389). -/
  suppCount : Nat := 0
  /-- age of the first (R389). -/
  suppFirst : Nat := 0
  /-- age of the last (R389). -/
  suppLast : Nat := 0
  /-- of these, lost at a posting queue (R390). -/
  suppLost : Nat := 0
  /-- highest class among them (R390). -/
  suppCls : Nat := 0
  /-- age (ns) from which the loss interval runs (R390). -/
  lossFrom : Option Nat := none
deriving DecidableEq, Repr

/-- A cursor (R401). -/
structure Cursor where
  /-- CUR_SEQ, 32 bits (R401). -/
  seq : Nat := 1
  /-- LOAD_BUSY (R401). -/
  busy : Bool := false
  /-- LAPPED (R401). -/
  lapped : Bool := false
  /-- AVAIL, 7 bits (R401). -/
  avail : Nat := 0
  /-- CUR_LOST, 32 bits, saturating, RC (R401). -/
  lost : Nat := 0
  /-- the window, at most 64 records (R394). -/
  window : List EvrRec := []
deriving DecidableEq, Repr

/-- A save area in a flash bank (R396). -/
structure SaveArea where
  /-- the area is erased (R396). -/
  erased : Bool := true
  /-- records saved, newest first (R397). -/
  recs : List EvrRec := []
  /-- the closing marker was written (R397). -/
  complete : Bool := false
deriving DecidableEq, Repr

/-- The event recorder (R400). -/
structure Evr where
  /-- SAVE_EN (R401). -/
  saveEn : Bool := true
  /-- LIMIT_EN (R401). -/
  limitEn : Bool := true
  /-- NEXT_SEQ, 32 bits (R401). -/
  next : Nat := 1
  /-- OLDEST_SEQ, 32 bits (R401). -/
  oldest : Nat := 1
  /-- records in the ring, newest first, at most 65,536 (R393). -/
  ring : List EvrRec := []
  /-- the ring is frozen (R397). -/
  frozen : Bool := false
  /-- the EVR runs (R399). -/
  running : Bool := false
  /-- SAVE_STATE, 2 bits (R401). -/
  saveState : Nat := 0
  /-- LAST_COMPLETE (R401). -/
  lastComplete : Bool := false
  /-- SAVED, 13 bits (R401). -/
  saved : Nat := 0
  /-- the area being written (R397). -/
  saveInto : Option Nat := none
  /-- BOOT, 16 bits, from flash (R401). -/
  boot : Nat := 0
  /-- occurrences in the posting queues, oldest first (8 per block and one for class F) (R391). -/
  posts : List EvrRec := []
  /-- cursors 0 to 3 (R393). -/
  cursors : List Cursor := [{}, {}, {}, {}]
  /-- cursor 2 is allocated (R393). -/
  cur2Alloc : Bool := false
  /-- buckets by code; an unlisted one is at reset (R402). -/
  buckets : Tbl Bucket := []
  /-- the save areas of the two flash banks (R396). -/
  areas : List SaveArea := [{}, {}]
  /-- live counters (R403). -/
  live : Tbl Nat := []
  /-- snapshot bank (R403). -/
  snap : Tbl Nat := []
deriving DecidableEq, Repr

/-- The fault sets. -/
structure Faults where
  /-- by block ID x 64 + unit; an unlisted one is at reset (R365). -/
  sets : Tbl FaultSet := []
  /-- class counter values at the last FAULT_COUNTS of each reader (R383). -/
  readers : Tbl Nat := []
  /-- clocked islands whose clock has stopped (R21). -/
  clocks : Tbl Bool := []
deriving DecidableEq, Repr

/-- A key slot and its attribute record (R404, R405). -/
structure Slot where
  /-- the slot's cell of the tables memory: its value XORed with the cell's pad (never read back) (R413). -/
  cell : BitVec 256 := 0
  /-- INV_COUNT, 64 bits (R405). -/
  invCount : Nat := 0
  /-- SALT (R405). -/
  salt : BitVec 32 := 0
  /-- KEY_ID (R405). -/
  keyId : BitVec 32 := 0
  /-- KCV (R405). -/
  kcv : BitVec 24 := 0
  /-- VALID (R405). -/
  valid : Bool := false
  /-- USE, 3 bits (R405). -/
  use : Nat := 0
  /-- LOCK (R405). -/
  lock : Bool := false
  /-- VOLATILE (R405). -/
  volatile : Bool := true
  /-- DERIVABLE (R405). -/
  derivable : Bool := false
  /-- BY_MGP (R405). -/
  byMgp : Bool := true
  /-- OWNER, 9 bits (R405). -/
  owner : Nat := 0
  /-- OWNER_GEN, 16 bits (R405). -/
  ownerGen : Nat := 0
  /-- UNUSABLE (R405). -/
  unusable : Bool := false
  /-- TAG, 2 bits (R405). -/
  tag : Nat := 0
  /-- ORIGIN, 2 bits (R405). -/
  origin : Nat := 0
  /-- age (ns) of a write of a non-volatile value not yet saved (R413). -/
  writtenAt : Option Nat := none
  /-- age (ns) at which the damage was found (R414). -/
  damagedAt : Option Nat := none
deriving DecidableEq, Repr

/-- A wrapped copy of a slot in flash (R413). -/
structure SavedSlot where
  /-- slot number (R413). -/
  slot : Nat := 0
  /-- attribute record (R413). -/
  copy : Slot := {}
  /-- the value that the wrapped form holds (R413). -/
  value : BitVec 256 := 0
  /-- value wrapped under slot 0x005 (R413). -/
  wrapped : BitVec 320 := 0
deriving DecidableEq, Repr

/-- A share of the root secret in its antifuse bank, each bit in three cells (R411). -/
structure Share where
  /-- first cells: CRC-16 below, value above (R411). -/
  c0 : BitVec 272 := 0
  /-- second cells (R411). -/
  c1 : BitVec 272 := 0
  /-- third cells (R411). -/
  c2 : BitVec 272 := 0
deriving DecidableEq, Repr

/-- An antifuse pair of the root secret (R411). -/
structure SharePair where
  /-- share S1, in bank A (R411). -/
  a : Share := {}
  /-- share S2, in bank B (R411). -/
  b : Share := {}
  /-- SEALED fuse (R411). -/
  sealed : Bool := false
deriving DecidableEq, Repr

/-- A verification entry (R422). -/
structure VerEntry where
  /-- VALID (R422). -/
  valid : Bool := false
  /-- ENTRY, 14 bits (R422). -/
  entry : Nat := 0
  /-- SLOT_A, 10 bits (R422). -/
  slotA : Nat := 0
  /-- SLOT_B, 10 bits (R422). -/
  slotB : Nat := 0
  /-- REQUIRE (R422). -/
  require : Bool := false
deriving DecidableEq, Repr

/-- The key store unit (R425). -/
structure Ksu where
  /-- VERIFY_EN (R426). -/
  verifyEn : Bool := false
  /-- ROOT_STATE, 2 bits (R426). -/
  rootState : Nat := 0
  /-- ROOT_PAIR, 2 bits (R426). -/
  rootPair : Nat := 0
  /-- TRNG_OK (R426). -/
  trngOk : Bool := false
  /-- KSU_CMDSTAT BUSY (R426). -/
  busy : Bool := false
  /-- KSU_CMDSTAT RESULT, 8 bits (R426). -/
  result : Nat := 0
  /-- CONTEXT_LEN, 7 bits (R426). -/
  contextLen : Nat := 0
  /-- LABEL_LEN, 7 bits (R426). -/
  labelLen : Nat := 1
  /-- KSU_KEYIN, WO (R425). -/
  keyIn : BitVec 256 := 0
  /-- KSU_LABEL, WO, 32 octets (R425). -/
  label : List Byte := []
  /-- KSU_CONTEXT, WO, 64 octets (R425). -/
  context : List Byte := []
  /-- 1,024 slots; an unlisted one is at reset (R404). -/
  slots : Tbl Slot := []
  /-- antifuse share pairs (R411). -/
  pairs : List SharePair := [{}, {}, {}]
  /-- boot mask (R413). -/
  bootMask : BitVec 512 := 0
  /-- wrapped copies in both flash banks (R413). -/
  saved : List SavedSlot := []
  /-- verification table, 256 entries (R422). -/
  ver : Tbl VerEntry := []
  /-- antifuse image-verification key hashes of slots 0x000-0x002 (R410). -/
  fuseKeys : List (BitVec 256) := [0, 0, 0]
  /-- draws taken from the true random generator (model's own counter) (R404). -/
  draws : Nat := 0
  /-- live counters (R427). -/
  live : Tbl Nat := []
  /-- snapshot bank (R427). -/
  snap : Tbl Nat := []
deriving DecidableEq, Repr

/-- A response or event message (R435); result values in the catalogue's order. -/
structure Resp where
  /-- OPCODE (R435). -/
  opcode : Nat := 0
  /-- TAG (R435). -/
  tag : Nat := 0
  /-- INSTANCE, none: NONE (R435). -/
  inst : Option Nat := none
  /-- GEN (R435). -/
  gen : Nat := 0
  /-- FLAGS DUP (R447). -/
  dup : Bool := false
  /-- STATUS (R453). -/
  status : Status := .ok
  /-- result values in the order the catalogue lists them (R458). -/
  result : List Nat := []
  /-- the request had INDIRECT at 1: the result lies in its buffer (R438). -/
  ind : Bool := false
deriving DecidableEq, Repr

/-- A cached request of a pair (R447). -/
structure TagRec where
  /-- TAG (R447). -/
  tag : Nat := 0
  /-- CRC of the request (R447). -/
  crc : BitVec 32 := 0
  /-- age (ns) of the answer (R447). -/
  atNs : Nat := 0
  /-- the response (R447). -/
  resp : Resp := {}
deriving DecidableEq, Repr

/-- A host mailbox pair or an instance's pair (R441, R455). -/
structure Pair where
  /-- slots of each ring (64; 4, 8 or 16 for an instance) (R439). -/
  size : Nat := 64
  /-- guest address of an instance's pair (R454). -/
  base : Nat := 0
  /-- REQ_TAIL, 16 bits (R441). -/
  reqTail : Nat := 0
  /-- REQ_HEAD, 16 bits (R441). -/
  reqHead : Nat := 0
  /-- RSP_TAIL, 16 bits (R441). -/
  rspTail : Nat := 0
  /-- RSP_HEAD, 16 bits (R441). -/
  rspHead : Nat := 0
  /-- TAKEN, 8 bits (R441). -/
  taken : Nat := 0
  /-- RESET_BUSY (R441). -/
  resetBusy : Bool := false
  /-- BAD_TAIL, 16 bits, saturating, RC (R441). -/
  badTail : Nat := 0
  /-- response slots by slot number (R439). -/
  rsp : Tbl Resp := []
  /-- header of the response that a taken request still has to have (R450). -/
  due : Resp := {}
  /-- tag cache (R447). -/
  cache : List TagRec := []
deriving DecidableEq, Repr

/-- A long operation (R445). -/
structure LongOp where
  /-- its handle, 32 bits (R445). -/
  handle : Nat := 0
  /-- pair it was started from (R445). -/
  pair : Nat := 0
  /-- its TAG (R445). -/
  tag : Nat := 0
  /-- its opcode (R445). -/
  opcode : Nat := 0
  /-- final status once it has ended (R445). -/
  done : Option Status := none
  /-- age (ns) of its end (R445). -/
  endAt : Nat := 0
  /-- the object it acts on (R446). -/
  arg : Nat := 0
deriving DecidableEq, Repr

/-- Configuration space of the PCI Express function (R428). -/
structure Pci where
  /-- memory space enabled (R428). -/
  memEn : Bool := false
  /-- bus mastering enabled (R428). -/
  busMaster : Bool := false
  /-- base address in BAR0, 64 bits, a multiple of 16 MiB (R428). -/
  bar0 : Nat := 0
  /-- power state D3hot; D0 at reset (R428). -/
  d3hot : Bool := false
  /-- max payload size in force: 0 to 2 for 128, 256, 512 octets (R428). -/
  maxPayload : Nat := 0
  /-- max read request size in force: 0 to 5 for 128 to 4,096 octets (R428). -/
  maxRead : Nat := 2
  /-- AER: uncorrectable error status (R428). -/
  aerUnc : BitVec 32 := 0
  /-- AER: uncorrectable error mask (R428). -/
  aerUncMask : BitVec 32 := 0
  /-- AER: uncorrectable error severity (R428). -/
  aerUncSev : BitVec 32 := 0
  /-- AER: correctable error status (R428). -/
  aerCor : BitVec 32 := 0
  /-- AER: correctable error mask (R428). -/
  aerCorMask : BitVec 32 := 0
deriving DecidableEq, Repr

/-- The Dzix mailboxes and BAR0 (R429). -/
structure Mbx where
  /-- MOD_SERIAL, 64 bits (R432). -/
  serial : Nat := 0
  /-- MAC_BASE, from antifuse (R522). -/
  macBase : BitVec 48 := 0
  /-- VARIANT, 4 bits (R433). -/
  variant : Nat := 1
  /-- BAD_ACCESS, 16 bits, saturating, RC (R433). -/
  badAccess : Nat := 0
  /-- IN_SERVICE (R433). -/
  inService : Bool := false
  /-- FW_BANK (R433). -/
  fwBank : Bool := false
  /-- BANK_SWITCH (R433). -/
  bankSwitch : Bool := false
  /-- MBX_READY (R433). -/
  ready : Bool := false
  /-- host pairs 0 to 15; an unlisted one is at reset (R441). -/
  pairs : Tbl Pair := []
  /-- registered pairs by instance (R454). -/
  instPairs : Tbl Pair := []
  /-- long operations (R445). -/
  ops : List LongOp := []
  /-- next handle (model's own) (R445). -/
  nextHandle : Nat := 1
  /-- EVT_TAIL, 16 bits (R452). -/
  evtTail : Nat := 0
  /-- EVT_HEAD, 16 bits (R452). -/
  evtHead : Nat := 0
  /-- EVT_LOST, 32 bits, saturating, RC (R452). -/
  evtLost : Nat := 0
  /-- events not written since the last EVENTS_LOST (R452). -/
  lostDue : Nat := 0
  /-- EVT_MASK (FAMILY 0x3FF, FAMILY01 1) (R452). -/
  evtMask : BitVec 12 := 0b111111111110
  /-- event ring slots 0 to 255 (R452). -/
  events : Tbl Resp := []
  /-- vectors with a cause not yet covered by a message (R431). -/
  msixDue : Tbl Bool := []
  /-- age (ns) of each vector's last message (R431). -/
  msixAt : Tbl Nat := []
  /-- ring slots that the host has written: request slot s of pair p at 64p + s, its response slot 1,024 on, event slot s at 2,048 + s (R429). -/
  slots : Tbl (List Byte) := []
  /-- message address of each MSI-X table entry, 64 bits (R429). -/
  msixAddr : Tbl Nat := []
  /-- message data of each MSI-X table entry, 32 bits (R429). -/
  msixData : Tbl Nat := []
  /-- configuration space of the PCI Express function (R428). -/
  pci : Pci := {}
  /-- masked vectors (MSI-X table) (R431). -/
  msixMask : BitVec 48 := 0xFFFFFFFFFFFF
  /-- pending bit array (R431). -/
  msixPend : BitVec 48 := 0
  /-- host receive rings 0 to 15 (R88). -/
  hostRings : Tbl RxRing := []
  /-- host memory the module reads and writes over PCIe (R88). -/
  hostMem : Memory := []
  /-- age (ns) at which SNAP_BUSY of a page returns to 0, by the fault-set number of its block and unit (R91). -/
  snapEnds : Tbl Nat := []
  /-- copies dropped for a host ring that is not registered, by ring, counted in its RX_DROP_NODESC (R132). -/
  hostNoRing : Tbl Nat := []
  /-- running totals by reader, block, unit and counter index (R92). -/
  statReaders : Tbl Nat := []
  /-- RXRING_STATS values at the instance's last request (R460). -/
  rxReads : Tbl Nat := []
  /-- ages (ns) of an instance's records in the last second (R387). -/
  recTimes : Tbl (List Nat) := []
deriving DecidableEq, Repr

/-- The persistent configuration's contents (R470): the blocks' settings, dynamic fields at reset. -/
structure Snapshot where
  /-- arbiter modes and priorities (R470). -/
  arbs : Tbl Arbiter := []
  /-- port settings (R470). -/
  ports : Tbl Port := []
  /-- stream entries, static forwarding entries, bitmaps, mirror sessions, switch settings (R470). -/
  sw : Switch := {}
  /-- groups and context records, SCE_CTL (R470). -/
  sce : Sce := {}
  /-- instances: number, SRC_MAC, shares, allowances, AUTO_RESET, images, locks (R470). -/
  insts : Insts := {}
  /-- partition tables and supply settings (R470). -/
  sched : Sched := {}
  /-- OWN_CLAIM, CLM_EN, pair settings, trip output assignment (R470). -/
  cgu : Cgu := {}
  /-- OCU settings (R470). -/
  ocu : Ocu := {}
  /-- MLK settings (R470). -/
  mlk : Mlk := {}
  /-- time settings (R470). -/
  time : Time := {}
  /-- stream descriptors and ACQ_CTL (R470). -/
  acq : Acq := {}
  /-- season settings (R470). -/
  season : Season := {}
  /-- QUIET_MS by fault set (R470). -/
  quiet : Tbl Nat := []
  /-- bucket settings (R470). -/
  buckets : Tbl Bucket := []
  /-- SAVE_EN (R470). -/
  saveEn : Bool := true
  /-- LIMIT_EN (R470). -/
  limitEn : Bool := true
  /-- VERIFY_EN (R470). -/
  verifyEn : Bool := false
  /-- verification entries (R470). -/
  ver : Tbl VerEntry := []
  /-- INST_HOLDOFF_MS (R470). -/
  holdoffMs : Nat := 1000
  /-- IN_SERVICE intent (R470). -/
  intent : Bool := false
  /-- forced bypass (R105) (R470). -/
  forced : Bool := false
  /-- wake pattern (R99) (R470). -/
  pattern : Option (List Byte) := none
deriving DecidableEq, Repr

/-- A copy of the persistent configuration (R470). -/
structure Config1 where
  /-- sequence number (R470). -/
  seq : Nat := 0
  /-- it is written and its CRC-32 checks (R470). -/
  crcOk : Bool := false
  /-- its contents (R470). -/
  cfg : Snapshot := {}
deriving DecidableEq, Repr

/-- An instance image replacement (R485). -/
structure Replace where
  /-- instance (R485). -/
  inst : Nat := 0
  /-- long operation (R485). -/
  handle : Nat := 0
  /-- new image (R485). -/
  image : List Byte := []
  /-- READY or RUNNING on acceptance (R485). -/
  wasOn : Bool := false
  /-- the halt at the frame start has been done (R485). -/
  halted : Bool := false
  /-- resets (false) and removals (true) held until OP_DONE, with handle and CLEAR_DRAM (R485). -/
  held : List (Bool × Option Nat × Bool) := []
deriving DecidableEq, Repr

/-- Flash and live change (R470, R481). -/
structure Persist where
  /-- the two copies of bank 0, then those of bank 1 (R470). -/
  copies : List Config1 := [{}, {}, {}, {}]
  /-- age (ns) of an accepted change not yet written (R470). -/
  changedAt : Option Nat := none
  /-- bank marked active (R472). -/
  activeBank : Bool := false
  /-- Dzix release in each flash bank (3.2.y as 0x0302yy) (R6). -/
  releases : List Nat := [0x030200, 0x030200]
  /-- the bank holds an image verified since the last cold start (R477). -/
  staged : List Bool := [false, false]
  /-- Dzix image of each flash bank (R481). -/
  dzixImg : List Image := [{}, {}]
  /-- Backstop image of each flash bank (R481). -/
  bkiImg : List Image := [{}, {}]
  /-- Backstop settings in flash, as last committed (R348). -/
  backstop : Bki := {}
  /-- instance image store (R468). -/
  imageStore : List (List Byte) := []
  /-- handle of the image staging in progress (R481). -/
  staging : Option Nat := none
  /-- its target: 0 or 1 a Dzix bank, 2 Backstop image, 3 image store (R481). -/
  stagingTo : Nat := 0
  /-- the image being staged (R481). -/
  stagingImage : Image := {}
  /-- the verifier's finding on it (R423). -/
  stagingOk : Bool := false
  /-- IN_SERVICE intent (R478). -/
  intent : Bool := false
  /-- the restored configuration held CLM_EN 1 (R475). -/
  clmEnSaved : Bool := false
  /-- start-up complete (R472). -/
  started : Bool := false
  /-- age (ns) at which start-up completed (R476). -/
  startedAt : Nat := 0
  /-- last completed step of R472, 0 to 11 (R472). -/
  coldStep : Nat := 0
  /-- the Dzix firmware is running (R472). -/
  fwUp : Bool := false
  /-- the firmware running was started by a restart (R479). -/
  restarted : Bool := false
  /-- handle of the bank switch in progress (R482). -/
  switchOp : Option Nat := none
  /-- its bank (R482). -/
  switchTo : Bool := false
  /-- age (ns) of the handover instant H (R482). -/
  handoverAt : Option Nat := none
  /-- clusters whose HS-mode part has been replaced (R482). -/
  hsReplaced : List Nat := []
  /-- age (ns) at which the new bank is marked active (R482). -/
  markDue : Option Nat := none
  /-- image replacements in progress (R485). -/
  replacing : List Replace := []
  /-- handle of the import in progress (R489). -/
  importOp : Option Nat := none
  /-- items converted (R489). -/
  importOk : Nat := 0
  /-- items refused: section, item number, reason (R489). -/
  importLines : List (Nat × Nat × Nat) := []
  /-- entries converted into the STB shadow (R489). -/
  importBatches : List StbChange := []
  /-- batches converted, one per group (R489). -/
  importGroups : List GroupBatch := []
  /-- element slots converted for the shadow Backstop bank (R489). -/
  importElems : List (Nat × ElemSlot) := []
  /-- allowance lists of the publications (R489). -/
  importPubs : List (List Allow) := []
deriving DecidableEq, Repr

/-- Supply inputs, rails, sensors and pins (R492, R498, R502). -/
structure Power where
  /-- AON is good (R502). -/
  aonGood : Bool := false
  /-- MAIN is good (R502). -/
  mainGood : Bool := false
  /-- age (ns) at which MAIN became good (R358). -/
  mainGoodAt : Nat := 0
  /-- age (ns) at which the MAIN islands were last switched on, their supplies ramping from 0 (R229). -/
  rampAt : Nat := 0
  /-- PFW_N is low (R498). -/
  pfwLow : Bool := false
  /-- the internal power-fail is raised (R504). -/
  internalFail : Bool := false
  /-- MOD_RESET_N is low (R500). -/
  resetLow : Bool := false
  /-- a MOD_RESET_N that waits for the end of a save (R500). -/
  resetPend : Bool := false
  /-- PERST_N is low (R500). -/
  perstLow : Bool := false
  /-- SLOT_ID3-0 straps as present at the pins, 4 bits (R499). -/
  slotId : Nat := 0
  /-- WAKE_N has been low for 1 ms, and SPRING has not begun since (R498). -/
  wakeLow : Bool := false
  /-- the overvoltage lockout of MAIN holds (R502). -/
  mainOver : Bool := false
  /-- the overvoltage lockout of AON holds (R502). -/
  aonOver : Bool := false
  /-- DEV_EN level (R498). -/
  devEn : Bool := false
  /-- highest junction reading in degrees C (R508). -/
  tempMax : Int := 25
  /-- a reading above 105 C has been found and not every sensor reads 100 C or less since (R508). -/
  hot : Bool := false
  /-- age (ns) from which it is above 120 C (R508). -/
  hotSince : Option Nat := none
  /-- age (ns) of a thermal cut-off (R508). -/
  cutoffAt : Option Nat := none
  /-- MAIN is disconnected inside the module (R508). -/
  disconnected : Bool := false
  /-- rails out of their band or below 0.70 V (R505). -/
  badRails : List Rail := []
deriving DecidableEq, Repr

/-- One output line (R516). -/
structure MonLine where
  /-- 0 ok, 1 error, 2 value line, 3 challenge, 4 serial, 5 lapped, 6 record, 7 done, 8 lines lost, 9 a prompt (R516). -/
  name : Nat := 0
  /-- its values (R517). -/
  vals : List Nat := []
deriving DecidableEq, Repr

/-- The Ouvtu monitor (R511). -/
structure Mon where
  /-- line rate (R511). -/
  baud : Nat := 115200
  /-- age (ns) of a rate change that no complete line has followed (R512). -/
  baudAt : Option Nat := none
  /-- MON_TX is driven as a UART line; else it stays low (R511). -/
  txOn : Bool := false
  /-- unlocked state (R520). -/
  unlocked : Bool := false
  /-- age (ns) of the last complete line (R520). -/
  lineAt : Nat := 0
  /-- the challenge in force (R519). -/
  challenge : Option (BitVec 64) := none
  /-- age (ns) at which it was issued (R519). -/
  challengeAt : Nat := 0
  /-- age (ns) of the last challenge issued (R424). -/
  lastIssue : Option Nat := none
  /-- consecutive failures, kept in AON storage (R519). -/
  fails : Nat := 0
  /-- records printed by the previous evr (R521). -/
  printed : Nat := 0
  /-- lines of the last command, oldest first (R516). -/
  out : List MonLine := []
  /-- octets in the output buffer at age outAt, at most 16,384 (R514). -/
  outUsed : Nat := 0
  /-- age (ns) of the last line put into it (R514). -/
  outAt : Nat := 0
  /-- lines dropped for want of room, not yet reported (R514). -/
  lost : Nat := 0
  /-- the monitor's own tag cache (R520). -/
  cache : List TagRec := []
  /-- handles whose OP_DONE the monitor will print (R520). -/
  waiting : List Nat := []
deriving DecidableEq, Repr


/-- Where a word read through a decoder lies (R58). -/
inductive MemLoc where
  /-- A cell of a stored frame in the switch buffer. -/
  | buffer (frame : Nat)
  /-- A word on a fabric link: the operation it belongs to, the block it is for and its beat within the grant (R55). -/
  | link (block : BlockId) (unit : Nat) (tag : Nat) (owner : Master) (beat : Nat)
  /-- A granule of the local store. -/
  | localStore (granule : Nat)
  /-- A granule of the DRAM. -/
  | dram (granule : Nat)
  /-- A data cache line of an instance. -/
  | dcache (cluster : Nat) (inst : Nat)
  /-- An instruction cache line. -/
  | icache (cluster : Nat)
  /-- A channel context. -/
  | context (n : Nat)
  /-- A stream table entry. -/
  | stream (n : Nat)
  /-- A forwarding entry. -/
  | fwd (n : Nat)
  /-- An event recorder record. -/
  | record (seq : Nat)
  /-- A key slot. -/
  | slot (n : Nat)
  /-- MGP memory. -/
  | mgpMem
  /-- The MGP's fixed DRAM region. -/
  | mgpDram
  /-- The SRAM of the Backstop island (R335). -/
  | bkiMem
deriving DecidableEq, Repr

/-- What a port's PCS and FEC decoder report since the frame before (R92). -/
structure LineErrs where
  /-- Errored PCS blocks. -/
  symbols : Nat := 0
  /-- FEC codewords corrected. -/
  corrected : Nat := 0
  /-- FEC codewords not correctable. -/
  lost : Nat := 0
deriving DecidableEq, Repr

/-- What a port's receiver reports with a frame (R72, R92). -/
structure LineSeen where
  /-- The FCS was good. -/
  fcsOk : Bool
  /-- The line errors since the frame before. -/
  line : LineErrs := {}
deriving DecidableEq, Repr

/-- A transmitter that looks for its next frame (R81), and the word of that frame in which an error is met. -/
structure TxSelect where
  /-- The port. -/
  port : Nat
  /-- The word that its reader finds (R56). -/
  word : WordRead := {}
deriving DecidableEq, Repr

/-- Beats at the instant at which a back-off ends (R44, R51). -/
structure ArbBeats where
  /-- Beats of the transfer in progress that are over. -/
  past : Nat
  /-- Beats of the transfer that a decision at that instant starts. -/
  beats : Nat
deriving DecidableEq, Repr

/-- A codeword as a decoder sees it: the stored symbols and the address symbols of the address that the reader means (R56). -/
structure CodeRead where
  /-- The 144 stored bits (R53). -/
  word : BitVec 144 := 0
  /-- The virtual address symbols (R55). -/
  addr : List Byte := []
deriving DecidableEq, Repr

/-- What one claim wire showed in a round (R252). -/
structure RoundSeen where
  /-- A round is in progress on the wire. -/
  inRound : Bool := false
  /-- The claim and unit ID of the winner. -/
  claim : BitVec 32 := 0
  /-- The winner's unit ID. -/
  unit : Nat := 0
  /-- A drive mismatch, an end field found dominant, or 45 us dominant. -/
  fault : Bool := false
deriving DecidableEq, Repr

/-- A Sync with its precise origin, as the servo takes it (R290). -/
structure SyncMsg where
  /-- Destination address. -/
  dst : Nat := 0x011B19000000
  /-- domainNumber. -/
  domain : Nat := 0
  /-- Sender's identity (grandmaster or transparent clocks in between are not told apart). -/
  source : Nat := 0
  /-- originTimestamp in 2^-16 ns. -/
  origin : Int := 0
  /-- correctionField in 2^-16 ns. -/
  correction : Int := 0
  /-- Arrival on the TB in 2^-16 ns. -/
  arrival : Int := 0
  /-- logMessageInterval as nanoseconds. -/
  intervalNs : Nat := 1000000000
deriving DecidableEq, Repr

/-- An Announce as the best master algorithm takes it (R289). -/
structure AnnMsg where
  /-- Destination address. -/
  dst : Nat := 0x011B19000000
  /-- domainNumber. -/
  domain : Nat := 0
  /-- Its fields; `port` and `at` are filled in on arrival. -/
  body : Announce := {}
deriving DecidableEq, Repr

/-- What a cold start finds (R472). -/
structure ColdIn where
  /-- The image of the bank reads as it was written. -/
  imageOk : Bool := true
  /-- The generator's start-up health tests pass. -/
  drawOk : Bool := true
  /-- The step from 4 to 7 that fails, if one does. -/
  fails : Option Nat := none
  /-- How many of the steps of R411 a first start comes through, where step 6 fails. -/
  provisioned : Nat := 0
  /-- Antifuse bits of each cell that do not take, of share S1 and of share S2. -/
  weakA : List (BitVec 272) := []
  /-- As for share S1. -/
  weakB : List (BitVec 272) := []
deriving DecidableEq, Repr

/-- Registers of the function's configuration space (R428), by the names of the PCI Express base specification; where they lie is its matter. -/
inductive PciReg where
  | id | command | classRev | bar (n : Nat) | devCtl | pmCsr | aerUnc | aerUncMask | aerUncSev | aerCor | aerCorMask | other (off : Nat)
deriving DecidableEq, Repr

/-- A register: of a block's page, of the locks as the MGP reaches them, of BAR0, or of an instance control page (R382, R205, R429, R455). -/
inductive RegAddr where
  | page (block : BlockId) (unit : Nat) (off : Nat) | locks (off : Nat) | bar0 (off : Nat) | ctrl (inst : Nat) (off : Nat)
  /-- An access to BAR0 with its byte enables, of the aligned word at `off` (R430). -/
  | bar0Be (off : Nat) (be : BitVec 4)
  /-- A 64-bit access to BAR0; `hi` is the higher half of what is written (R430). -/
  | bar0Pair (off : Nat) (hi : BitVec 32)
  /-- The configuration space of the PCI Express function (R428). -/
  | pci (reg : PciReg)
deriving DecidableEq, Repr

/-- Low words whose read latches the high words (R231, R304). -/
inductive LatchReg where
  | pscFrameLo (k : Nat) | tbFrac | ageLo
deriving DecidableEq, Repr

/-- One change of STB_PUT (R123, R461). -/
structure StbPutItem where
  /-- Entry index, or none for placement by key. -/
  idx : Option Nat := none
  /-- What it does. -/
  op : StbOp := .putStream
  /-- The entry of a stream write. -/
  stream : StreamEntry := {}
  /-- The entry of a forwarding write. -/
  fwd : FwdEntry := {}
  /-- The bitmap of a bitmap write. -/
  bitmap : SubBitmap := {}
deriving DecidableEq, Repr

/-- Parameters of SWITCH_CONFIG (R461). -/
structure SwitchCfg where
  /-- SWC_CTL. -/
  ctl : BitVec 32 := 0
  /-- HOLDOFF_MS. -/
  holdoffMs : Nat := 1000
  /-- FWD_IDLE_S. -/
  fwdIdleS : Nat := 300
  /-- CLS_AGE0-7. -/
  clsAge : List Nat := []
  /-- PORT_FWD0-7. -/
  portFwd : List (BitVec 32) := []
deriving DecidableEq, Repr

/-- Parameters of TIME_CONFIG (R463). -/
structure TimeCfg where
  /-- TB_DOMAIN. -/
  domain : BitVec 32 := 0
  /-- TB_LIMITS. -/
  limits : BitVec 32 := 0
  /-- AUTO_SWITCH. -/
  autoSwitch : Bool := false
  /-- PTP_PORT0-5. -/
  ports : List (BitVec 32) := []
deriving DecidableEq, Repr

/-- Attributes that the key opcodes carry (R466). -/
structure KeyArgs where
  /-- USE. -/
  use : Nat := 0
  /-- TAG. -/
  tag : Nat := 0
  /-- KEY_ID. -/
  keyId : BitVec 32 := 0
  /-- VOLATILE. -/
  volatile : Bool := true
deriving DecidableEq, Repr

/-- AON as it comes up, with what is plugged into the module's slot (R336, R499, R502). -/
structure AonIn where
  /-- The island image of bank 0 reads as it was written. -/
  okA : Bool := true
  /-- Its voltage in mV. -/
  mv : Nat := 12000
  /-- The straps of SLOT_ID3 to SLOT_ID0. -/
  slotId : Nat := 0
deriving DecidableEq, Repr

/-- MAIN as it comes up (R5, R502). -/
structure MainIn where
  /-- A head answers. -/
  head : Bool := true
  /-- Its voltage in mV. -/
  mv : Nat := 12000
deriving DecidableEq, Repr

/-- A dip of MAIN (R502, R504). -/
structure SagIn where
  /-- The voltage in mV. -/
  mv : Nat := 12000
  /-- For how long, in us. -/
  us : Nat := 0
deriving DecidableEq, Repr

/-- An anti-alias class of a WXM-7210: A to E by number, with the group that it describes (R489). -/
structure AaClass where
  /-- 0 to 4 for A to E. -/
  cls : Nat := 0
  /-- The group and its contexts; the class gives its preset. -/
  batch : GroupBatch := {}
deriving DecidableEq, Repr

/-- A WXM-7210 settings file as the converter reads it, section by section (R489). -/
structure Import7210 where
  /-- Its CRC checks. -/
  crcOk : Bool := true
  /-- Its firmware version is within 6.0 to 6.4. -/
  versionOk : Bool := true
  /-- SV subscriptions, as stream entries. -/
  subs : List StreamEntry := []
  /-- Anti-alias classes. -/
  groups : List AaClass := []
  /-- GOOSE publications, as allowance entries. -/
  pubs : List (List Allow) := []
  /-- Backup overcurrent and voltage stages, as element slots. -/
  stages : List ElemSlot := []
deriving DecidableEq, Repr

/-- Where a request comes from (R439, R454, R517). -/
inductive ReqSrc where
  | host (pair : Nat) | inst (i : Nat) (gen : Nat) | mon
deriving DecidableEq, Repr

/-- The header of a request, as the MGP finds it in its slot (R435). The opcode is the command. -/
structure Req where
  /-- The pair it stands in. -/
  src : ReqSrc := .host 0
  /-- TAG. -/
  tag : Nat := 0
  /-- CRC as written. -/
  crc : BitVec 32 := 0
  /-- The CRC checks. -/
  crcOk : Bool := true
  /-- RESPONSE or EVENT is set. -/
  flagsBad : Bool := false
  /-- LEN (and INDIRECT) fit the opcode. -/
  lenOk : Bool := true
  /-- The indirect buffer can be read and written and its CRC checks. -/
  bufOk : Bool := true
  /-- A block transfer that it needed timed out, or an engine did not answer (R449). -/
  slow : Bool := false
  /-- INSTANCE; none: NONE. -/
  inst : Option Nat := none
  /-- GEN. -/
  gen : Nat := 0
  /-- OPCODE, where it is none of the catalogue's (R458). -/
  other : Option Nat := none
  /-- PARAM offset of a field of the indirect buffer that is out of its range (R438). -/
  bufBad : Option Nat := none
  /-- BUF_ADDR of a request with INDIRECT at 1, and BUF_LEN (R438). -/
  buf : Option (Nat × Nat) := none
deriving DecidableEq, Repr

end Sys2Proof.Machine
end

