-- ==== Sys2Proof/Syntax.lean ====
section
/-!
DEFINITION. Syntax.lean: the commands of the block, one constructor per row of spec/opcode_table.json with that row's operands.
The table gives no bits and no operands: the operands are what the rule that describes the command says it is given (log
entry 2).
-/
namespace Sys2Proof
open Sys2Proof.Machine

/-- A request of the mailbox catalogue that fits inline in the `mbx` command of the Ouvtu monitor (R520). -/
inductive MonReq where
  /-- GET_STATUS (R459). -/
  | getStatus
  /-- OP_STATUS (R445). -/
  | opStatus (handle : Nat)
  /-- ECHO (R459). -/
  | echo (octets : List Nat)
  /-- ARB_READ (R459). -/
  | arbRead (arb : Nat)
  /-- ARB_PRIO (R41). -/
  | arbPrio (arb : Nat) (idx : Nat) (prio : Nat)
  /-- ARB_MODE (R46). -/
  | arbMode (mode : Nat)
  /-- SERVICE (R476). -/
  | service (declare : Nat)
  /-- RESET (R193). -/
  | reset (clearDram : Bool)
  /-- REMOVE (R193). -/
  | remove
  /-- STOP (R176). -/
  | stop
  /-- START (R176). -/
  | start
  /-- SET_SHARES (R191). -/
  | setShares (mask : BitVec 10) (share : Shares)
  /-- SET_ALLOWANCE (R188). -/
  | setAllowance (idx : Nat) (entry : Allow)
  /-- SET_AUTO_RESET (R185). -/
  | setAutoReset (value : Nat)
  /-- SET_HOLDOFF (R198). -/
  | setHoldoff (ms : Nat)
  /-- PT_WRITE (R215). -/
  | ptWrite (cluster : Nat) (entry : Nat) (slot : SlotEntry)
  /-- PT_COMMIT (R216). -/
  | ptCommit (mask : BitVec 8) (periods : List Nat) (phases : List Nat)
  /-- LOCK_ASSIGN (R205). -/
  | lockAssign (lock : Nat) (owner : Nat) (index : Nat) (mgpOk : Bool)
  /-- LOCK_UNASSIGN (R205). -/
  | lockUnassign (lock : Nat)
  /-- LOCK_READ (R205). -/
  | lockRead (lock : Nat)
  /-- EGQ_REGISTER (R236). -/
  | egqRegister (queue : Nat) (addr : Nat) (size : Nat)
  /-- RXRING_REGISTER (R88). -/
  | rxringRegister (addr : Nat) (size : Nat) (bufLen : Nat)
  /-- RXRING_STATS (R90). -/
  | rxringStats
  /-- STB_COMMIT (R123). -/
  | stbCommit
  /-- LEARN_POLICY (R122). -/
  | learnPolicy (port : Nat) (kind : Nat) (ports : BitVec 8)
  /-- LEARN_ANSWER (R122). -/
  | learnAnswer (rec : Nat) (accept : Bool) (entry : StreamEntry)
  /-- PORT_CONFIG (R69). -/
  | portConfig (port : Nat) (ctl : BitVec 32) (vlan : BitVec 32) (pcpMap : BitVec 32) (maxFrame : Nat)
  /-- LEARN_READ (R451). -/
  | learnRead (rec : Nat)
  /-- PORT_BYPASS (R105). -/
  | portBypass (force : Nat)
  /-- SWITCH_CONFIG (R138). -/
  | switchConfig (c : SwitchCfg)
  /-- MIRROR_SESSION (R136). -/
  | mirrorSession (n : Nat) (ctl : BitVec 32)
  /-- HOST_RXRING (R88). -/
  | hostRxring (ring : Nat) (addr : Nat) (size : Nat) (bufLen : Nat)
  /-- PRESET_CHANGE (R155). -/
  | presetChange (g : Nat) (preset : Nat)
  /-- SUBSCRIBE (R166). -/
  | subscribe (g : Nat) (pos : Nat) (sub : Option (Nat × Nat × Nat))
  /-- RING_REGISTER (R161). -/
  | ringRegister (ring : Nat) (addr : Nat) (slots : Nat) (words : Nat)
  /-- SCE_CONFIG (R172). -/
  | sceConfig (ctl : BitVec 32)
  /-- TIME_STATUS (R463). -/
  | timeStatus
  /-- TIME_CONFIG (R305). -/
  | timeConfig (c : TimeCfg)
  /-- REF_SWITCH (R294). -/
  | refSwitch (dom : Nat)
  /-- STEP (R295). -/
  | stepTb (ns : Int)
  /-- TRG_ALLOC (R297). -/
  | trgAlloc (owner : Option Nat)
  /-- TRG_PROGRAM (R298). -/
  | trgProgram (k : Nat) (time : Nat) (period : Nat) (periodic : Bool) (dest : BitVec 4) (en : Bool)
  /-- TRG_FREE (R299). -/
  | trgFree (k : Nat)
  /-- STAMP_RING (R302). -/
  | stampRing (addr : Nat) (slots : Nat)
  /-- PPS_CONFIG (R300). -/
  | ppsConfig (en : Bool) (gate : Bool) (width : Nat)
  /-- STREAM_EN (R326). -/
  | streamEn (n : Nat) (en : Nat)
  /-- STREAM_RESTART (R328). -/
  | streamRestart (n : Nat)
  /-- TRIGGER (R318). -/
  | trigger (mask : BitVec 4) (code : Nat)
  /-- ACQ_CONFIG (R331). -/
  | acqConfig (ctl : BitVec 32)
  /-- PAIR_STATUS (R465). -/
  | pairStatus
  /-- SET_CLAIM (R247). -/
  | setClaim (claim : BitVec 32)
  /-- PAIR_CONFIG (R474). -/
  | pairConfig (cguCtl : BitVec 32) (cguMem : BitVec 32) (ocuCtl : BitVec 32) (mlkCtl : BitVec 32)
  /-- SWITCH_BACK (R273). -/
  | switchBack (unit : Nat)
  /-- CLEAR_TAKE_BLOCK (R264). -/
  | clearTakeBlock
  /-- RETURN_STANDBY (R249). -/
  | returnStandby
  /-- GO_OUT (R249). -/
  | goOut
  /-- TRIP_ASSIGN (R257). -/
  | tripAssign (output : Nat) (inst : Option Nat)
  /-- KEY_LOAD (R404). -/
  | keyLoad (slot : Nat) (value : BitVec 256) (a : KeyArgs)
  /-- KEY_GENERATE (R404). -/
  | keyGenerate (slot : Nat) (a : KeyArgs)
  /-- KEY_ERASE (R409). -/
  | keyErase (slot : Nat)
  /-- KEY_ATTR_READ (R405). -/
  | keyAttrRead (slot : Nat)
  /-- KEY_ASSIGN (R407). -/
  | keyAssign (slot : Nat) (byMgp : Bool) (owner : Nat) (gen : Nat)
  /-- KEY_ATTR_WRITE (R405). -/
  | keyAttrWrite (slot : Nat) (a : KeyArgs) (lock : Bool) (derivable : Bool)
  /-- VERIFY_ENTRY (R422). -/
  | verifyEntry (n : Nat) (e : VerEntry)
  /-- VERIFY_ENABLE (R421). -/
  | verifyEnable (en : Nat)
  /-- FAULT_READ (R378). -/
  | faultRead (block : BlockId) (unit : Nat)
  /-- INJECT (R380). -/
  | inject (block : BlockId) (unit : Nat) (arm : Bool) (kind : Nat) (mode : Bool) (pos : Nat) (pattern : BitVec 8) (force : Bool)
  /-- CAPTURE (R377). -/
  | capture (block : BlockId) (unit : Nat) (latch : Bool) (rearm : Bool)
  /-- SET_QUIET (R372). -/
  | setQuiet (block : BlockId) (unit : Nat) (ms : Nat)
  /-- BUCKET_SET (R402). -/
  | bucketSet (code : Nat) (mode : Nat) (burst : Nat) (intervalUs : Nat)
  /-- CURSOR2 (R393). -/
  | cursor2 (alloc : Nat)
  /-- WRITE_RECORD (R387). -/
  | writeRecord (code : Nat) (detail : List Byte)
  /-- EVR_CONFIG (R401). -/
  | evrConfig (limitEn : Bool) (saveEn : Bool)
  /-- BANK_ACTIVATE (R482). -/
  | bankActivate (bank : Nat)
  /-- BKI_COMMIT (R348). -/
  | bkiCommit
  /-- CAL_CONFIG (R340). -/
  | calConfig (ctl : BitVec 32)
  /-- SET_SEASON (R357). -/
  | setSeason (season : Nat) (force : Bool) (ret : Bool)
  /-- WAKE_CONFIG (R99). -/
  | wakeConfig (en : BitVec 3) (timerS : Nat) (pattern : List Byte)
  /-- LOOP_CONFIG (R235). -/
  | loopConfig (mask : BitVec 8) (loop : BitVec 32) (volt : BitVec 32) (fabric : Nat)
  /-- An opcode that needs an indirect buffer (R520). -/
  | indirectOp (opcode : Nat)
  /-- An opcode that the catalogue does not list (R458). -/
  | unknownOp (opcode : Nat)
deriving DecidableEq, Repr

/-- A command of the block. -/
inductive Instr where
  /-- ARBITER_DECISION (R38): An arbiter grants one waiting requester, by spent state, priority and round-robin, when a request is raised or during the last beat of the current transfer. -/
  | arbiterDecision (arb : Nat) (raised : List ArbWait) (beats : Nat)
  /-- PARKED_TRANSFER_START (R39): The parked owner of a grant starts a new transfer without a request phase, resolved against a coincident request. -/
  | parkedTransferStart (arb : Nat) (raised : List ArbWait) (ownerWins : Bool) (beats : Nat)
  /-- BACKOFF_EXPIRY (R44): A requester's back-off time runs out and its interface raises the request again. -/
  | backoffExpiry (arb : Nat) (idx : Nat) (beats : ArbBeats)
  /-- ARB_CTL_MODE_WRITE (R46): A write of MODE in ARB_CTL switches native or compatibility mode from the next decision and clears back-off counts and reservations. -/
  | arbCtlModeWrite (arb : Nat) (mode : Bool)
  /-- TRANSFER_TIMEOUT (R30): A block's transfer timeout expires; the operation completes with error and a K-class fault is recorded. -/
  | transferTimeout (block : BlockId) (unit : Nat) (tag : Nat) (owner : Master) (waitedUs : Nat)
  /-- LATE_COMPLETION (R30): A handshake left pending after a timeout completes, and its word is absorbed into the discard sink and counted in FLT_LATE. -/
  | lateCompletion (block : BlockId) (unit : Nat) (tag : Nat)
  /-- SCRUB_WORD (R62): The scrubber reads a word and conditionally writes back a corrected word within one grant. -/
  | scrubWord (loc : MemLoc) (word : WordRead) (changed : Bool) (overdue : Bool)
  /-- RAIL_UNDERVOLTAGE (R33): A rail measured below 0.70 V for 10 µs raises an F-class fault, and a rail between 0.70 V and 0.72 V records a C-class event. -/
  | railUndervoltage (rail : Rail) (mv : Nat) (us : Nat)
  /-- FRAME_RECEIVE (R72): A port receives a whole frame, checks FCS and length, stamps it, and hands it to classification and storage. -/
  | frameReceive (port : Nat) (octets : List Byte) (seen : LineSeen)
  /-- PAUSE_END (R82): The received pause quanta run out and the transmitter may begin frames again. -/
  | pauseEnd (port : Nat)
  /-- PAUSE_CUT (R82): A pause run reaches 65,535 quanta and is ended whatever pause frames arrived, and counted in PAUSE_CUT. -/
  | pauseCut (port : Nat)
  /-- LEARN_EVENT (R121): 100 ms after a learn record's first frame the STB raises a learn event to the MGP. -/
  | learnEvent (key : BitVec 128)
  /-- LEARN_RECORD_CLOSE (R121): A learn record closes 10 s after its learn event. -/
  | learnRecordClose (key : BitVec 128)
  /-- TRANSMIT_SELECT (R81): A free transmitter takes the head frame of the highest non-empty queue and transmits it. -/
  | transmitSelect (sel : TxSelect)
  /-- LINK_DOWN (R71): A port declares link down on loss of block lock or 100 µs of fault, and flushes its queues. -/
  | linkDown (port : Nat)
  /-- LINK_UP (R71): A port declares link up after 10 ms of block lock without fault. -/
  | linkUp (port : Nat)
  /-- SFP_INSERT (R70): An SFP28 module is inserted; the port reads its identification and brings the link up if it is supported. -/
  | sfpInsert (port : Nat) (sfp : Option Nat)
  /-- SFP_REMOVE (R70): An SFP28 module is removed, which is a link loss. -/
  | sfpRemove (port : Nat)
  /-- TX_EN_WRITE (R94): A write of TX_EN 0 completes the frame in transmission and flushes the queues; a write of 1 enables the transmitter. -/
  | txEnWrite (port : Nat) (value : Bool)
  /-- COUNTER_SNAPSHOT (R91): A write of 1 to SNAP copies every counter of the page into the snapshot bank and clears the live counters. -/
  | counterSnapshot (page : CntPage)
  /-- WAKE_FRAME (R98): A frame received on P6 in WINTER is checked against the wake pattern and counted. -/
  | wakeFrame (octets : List Byte) (fcsOk : Bool)
  /-- LARGE_SEND_SUBMIT (R85): A submitter hands a large send to the segmentation engine, which accepts or refuses it. -/
  | largeSendSubmit (port : Nat) (send : LargeSend)
  /-- SEGMENT_GENERATE (R87): The segmentation engine generates the next frame of a send once its submitter holds credit. -/
  | segmentGenerate (port : Nat)
  /-- RX_RING_DELIVER (R90): A frame copy is written into a receive ring, or dropped or truncated for lack of descriptors. -/
  | rxRingDeliver (host : Bool)
  /-- LOOP_TEST (R106): P0 and P1 reach block lock on the internal loop, or a K-class fault is raised after 20 ms. -/
  | loopTest (locked : Bool)
  /-- COIL_ENERGISE (R473): Once the MGP allows the join, BYP energises the head coil. -/
  | coilEnergise
  /-- HEAD_SWITCH_COMPLETE (R106): The head completes its move to THROUGH or BYPASS within 8 ms. -/
  | headSwitchComplete
  /-- HEAD_POSITION_MISMATCH (R104): The sensed head position disagrees with the command; BYP removes the coil current and takes P0 and P1 down. -/
  | headPositionMismatch (through : Bool)
  /-- IDLE_TICK (R115): Every 100 ms the STB advances IDLE_COUNT of every ACTIVE entry. -/
  | idleTick
  /-- IDLE_ENTRY_REMOVE (R115): The firmware removes an idle LEARNED non-STATIC entry, or reports any other idle entry to the host. -/
  | idleEntryRemove (idx : Nat)
  /-- ENTRY_CHANGE_APPLY (R124): Once REFCNT_PREV is 0, the STB moves the counts, writes the new fields and advances GEN. -/
  | entryChangeApply
  /-- ENTRY_HOLDOFF_END (R125): A QUARANTINE entry becomes FREE after the hold-off. -/
  | entryHoldoffEnd (idx : Nat)
  /-- RATE_CHECK (R122): Once per second the MGP compares MATCH_OCTETS with RATE and records rate excesses. -/
  | rateCheck
  /-- SUPERVISION_SEND (R127): The MGP sends HSR or PRP supervision frames every 2,000 ms. -/
  | supervisionSend
  /-- SCE_COPY (R142): The SCE takes a copy from its input queue and processes its ASDUs for every bound group. -/
  | sceCopy
  /-- SCE_STALE_CHECK (R145): Once per millisecond the SCE puts groups without an ASDU for GAP_TIME into the stale state and writes STALE events. -/
  | sceStaleCheck
  /-- CORE_ACCESS (R183): A core access of an instance is checked against owner tags and the guest map. -/
  | coreAccess (core : Nat) (acc : CoreAcc)
  /-- AUTO_RESET (R185): The firmware resets an instance HALTED with cause 2 or 3, at most 3 times in 3,600 s. -/
  | autoReset (inst : Nat)
  /-- INSTANCE_RESET_COMPLETE (R193): Once the engines hold no work of the old generation, the reset clears memory, reloads the image and sets READY. -/
  | instanceResetComplete (inst : Nat)
  /-- INSTANCE_REMOVAL_COMPLETE (R193): A removal releases and clears every share and sets QUARANTINE. -/
  | instanceRemovalComplete (inst : Nat)
  /-- INSTANCE_QUARANTINE_END (R197): An instance number becomes FREE after INST_HOLDOFF_MS. -/
  | instanceQuarantineEnd (inst : Nat)
  /-- LOCK_TRY_ACQUIRE (R201): A read of a lock word tries to acquire the lock and returns ACQUIRED, BUSY, BROKEN or DENIED. -/
  | lockTryAcquire (who : Master) (hart : Nat) (j : Nat)
  /-- LOCK_RELEASE (R202): A write with bit 0 set releases the lock if the writer holds it. -/
  | lockRelease (who : Master) (j : Nat) (value : BitVec 32)
  /-- LCK_ASSIGN_WRITE (R205): A write to LCK_ASSIGNn assigns a lock, and clears BROKEN on a change of owner. -/
  | lckAssignWrite (lock : Nat) (value : BitVec 32)
  /-- EGRESS_DOORBELL (R236): An instance writes a new tail to an egress queue doorbell, accepted or ignored. -/
  | egressDoorbell (inst : Nat) (gen : Nat) (queue : Nat) (tail : Nat)
  /-- EGRESS_DESCRIPTOR (R238): The EGF takes the next owned descriptor, checks it, formats and stores the frame, and completes the descriptor. -/
  | egressDescriptor (inst : Nat) (queue : Nat)
  /-- CGU_GATE (R256): The CGU releases, sets aside, withholds or drops an instance frame copy at the head of its queue. -/
  | cguGate (port : Nat)
  /-- FRAME_START (R218): A cluster's partition frame starts, and the actions ordered at a frame start run before any slot of it. -/
  | frameStart (cluster : Nat)
  /-- SLOT_START (R220): At a slot's scheduled start Dzix enters the instance in VS-mode with fresh registers. -/
  | slotStart (cluster : Nat) (entry : Nat)
  /-- YIELD (R221): The slot-yield service call ends the slot normally and reports its slack. -/
  | yieldCall (cluster : Nat) (core : Nat)
  /-- BUDGET_EXPIRY (R222): At the slot budget the PSC stops the instance in hardware and records an overrun. -/
  | budgetExpiry (cluster : Nat) (core : Nat)
  /-- TRIGGER_WINDOW_END (R224): A triggered slot's window ends without a firing and TRIG_IDLE is counted. -/
  | triggerWindowEnd (cluster : Nat) (entry : Nat)
  /-- PSC_COMMIT (R217): A write of COMMIT in PSC_CTL schedules the shadow bank to become active at the next frame start. -/
  | pscCommit (cluster : Nat)
  /-- RELEASE (R192): The RELEASE service call releases granules from the top of a window, or is refused. -/
  | release (inst : Nat) (gen : Nat) (kind : Nat) (count : Nat)
  /-- MIRROR_DECLARE (R267): The MIRROR_DECLARE service call replaces the instance's mirror regions, or is refused. -/
  | mirrorDeclare (inst : Nat) (gen : Nat) (addr : Nat) (count : Nat)
  /-- MBOX_REGISTER (R454): The MBOX_REGISTER service call registers or replaces the instance's mailbox pair. -/
  | mboxRegister (inst : Nat) (gen : Nat) (addr : Nat) (slots : Nat)
  /-- CLAIM_ROUND_START (R251): At a TB multiple of 500 µs the module drives the start bit and runs a claim-line round on each wire. -/
  | claimRoundStart
  /-- CLAIM_ROUND_JOIN (R251): A module not in a round sees a wire become dominant and joins the round on that wire. -/
  | claimRoundJoin (wire : Nat)
  /-- CLAIM_ROUND_END (R253): At a round's end the module evaluates WIN from the wire results and takes its role. -/
  | claimRoundEnd (r0 : RoundSeen) (r1 : RoundSeen)
  /-- CLM_EN_WRITE (R249): A write of CLM_EN 0 makes the unit OUT, and a write of 1 lets it join rounds. -/
  | clmEnWrite (value : Bool)
  /-- TB_CLOCK_STOP (R21): The TB island clock stops; the age counter, PSCs and CGU fall back to the oscillator reference. -/
  | tbClockStop
  /-- OSCILLATOR_FAIL (R255): With no edge of either timer for 10 µs the CGU clears WIN, releases both wires and the unit becomes OUT. -/
  | oscillatorFail
  /-- OCU_FRAME (R259): The OCU takes a control frame from its own side or the partner and opens, matches or closes a pending entry. -/
  | ocuFrame (partner : Option OcuCopy)
  /-- OCU_WINDOW_END (R259): A pending entry's window ends and a missing divergence is reported. -/
  | ocuWindowEnd (key : CmpKey)
  /-- PICTURE_DECISION (R263): The standby's BKI decides a picture at the first zone pickup or at t + PLAUS_WIN. -/
  | pictureDecision (key : CmpKey)
  /-- DECISION_MESSAGE (R264): A decision message from the partner is received and recorded in the EVR. -/
  | decisionMessage (row : Nat) (againstUs : Bool) (key : CmpKey)
  /-- STATUS_WORD_SEND (R271): Every 100 µs each unit sends its status word on each lane. -/
  | statusWordSend
  /-- STATUS_WORD_RECEIVE (R271): A status word from the partner is received and its contents are taken up. -/
  | statusWordReceive (lane : Nat) (word : StatusWord)
  /-- LANE_DOWN (R271): A lane that delivers no status for 1 ms is declared down and its traffic moves to the other lane. -/
  | laneDown (lane : Nat)
  /-- PARTNER_LOST (R272): No valid status word for PARTNER_TO_MS declares the partner lost. -/
  | partnerLost
  /-- PARTNER_AWAIT_EXPIRY (R272): An awaited partner is declared lost 30 s after the lanes were enabled. -/
  | partnerAwaitExpiry
  /-- MIRROR_SET_SEND (R269): A captured mirror set is sent to the standby within 1 ms. -/
  | mirrorSetSend (inst : Nat)
  /-- MIRROR_SET_RECEIVE (R270): The standby receives a mirror set and keeps it for application, or discards it and asks for a full set. -/
  | mirrorSetReceive (set : MirSet) (crcOk : Bool) (complete : Bool)
  /-- SWITCH_BACK_LAPSE (R274): A switch-back request not matched on the partner within 10 s lapses. -/
  | switchBackLapse
  /-- SYNC_MESSAGE (R290): The servo computes a domain's offset from a Sync on a slave port and steers INCR. -/
  | syncMessage (port : Nat) (m : SyncMsg)
  /-- ANNOUNCE_MESSAGE (R289): An Announce message feeds the best master algorithm of its domain. -/
  | announceMessage (port : Nat) (m : AnnMsg)
  /-- PDELAY_REQ_SEND (R288): Every 1 s the TBU sends Pdelay_Req on each port with PTP_EN and PDELAY_EN. -/
  | pdelayReqSend (port : Nat)
  /-- PDELAY_RESP_RECEIVE (R288): A received Pdelay_Resp completes an exchange and LINKDELAY is updated. -/
  | pdelayRespReceive (port : Nat) (turnaround : Int)
  /-- HOLDOVER_ENTRY (R289): Without a valid Sync for 3 intervals or an Announce receipt timeout, a domain enters HOLDOVER. -/
  | holdoverEntry (dom : Bool)
  /-- FREERUN_ENTRY (R291): A domain in HOLDOVER for HOLDOVER_S becomes FREERUN. -/
  | freerunEntry (dom : Bool)
  /-- TB_STEP_GO (R295): A write of STEP_GO steps the TB by TB_STEP at the next tick and advances the step epoch. -/
  | tbStepGo
  /-- REF_WRITE (R293): A write that changes REF starts a switch and a slew of the TB. -/
  | refWrite (ref : Bool)
  /-- SLEW_COMPLETE (R293): SLEW_REM reaches 0 and SLEWING falls. -/
  | slewComplete
  /-- COMPARATOR_FIRE (R297): A trigger comparator fires at its instant and its firing reaches every destination in DEST. -/
  | comparatorFire (k : Nat)
  /-- TRG_CTL_WRITE (R298): Arming a comparator whose TIME is already passed makes it fire at once with LATE set. -/
  | trgCtlWrite (k : Nat) (value : BitVec 32)
  /-- PPS_EDGE (R300): PPS_OUT rises at every tick at which the TB crosses a whole second. -/
  | ppsEdge
  /-- PPS_PULSE_END (R300): PPS_OUT falls after PPS_WIDTH on the age counter. -/
  | ppsPulseEnd
  /-- STAMP_DELIVER (R302): The TBU moves a stamp queue entry to its owner's stamp ring, or discards it as late. -/
  | stampDeliver
  /-- ACQ_SAMPLE (R319): A sample of an acquisition source arrives and is staged with records, measurements and marks. -/
  | acqSample
  /-- ACQ_FLUSH (R322): A frame is sent FLUSH_US after its first item was staged. -/
  | acqFlush (stream : Nat)
  /-- ACQ_DRAINED (R329): A stream disabled by EN 0 releases its granules once the staging buffer is empty. -/
  | acqDrained (stream : Nat)
  /-- TRIG_IN_EDGE (R317): An edge of TRIG_IN held for 1 µs is an external trigger, or is ignored within the dead time. -/
  | trigInEdge (level : Bool) (heldUs : Nat)
  /-- AON_GOOD (R336): AON becomes good; the boot ROM verifies and starts the island image and the island protects. -/
  | aonGood (aon : AonIn) (okB : Bool)
  /-- AON_LOST (R503): AON is lost and the module powers off, with every output low and the claim line released. -/
  | aonLost
  /-- BKI_OUTPUT_SAMPLE (R344): At each Backstop output sample the measured values are recomputed and every element is evaluated. -/
  | bkiOutputSample (inputs : List (List Int)) (common : List Int)
  /-- BT_HOLD_END (R347): BTj is released BT_MIN_MS after the last TRIP drops. -/
  | btHoldEnd (j : Nat)
  /-- CAL_STEP (R340): Every CAL_STEP_S the spare modulator is calibrated and compared with the next input. -/
  | calStep (maxDiff : Nat)
  /-- LOCKSTEP_MISMATCH (R354): A lockstep mismatch in the island's core pair restarts the cores, or is an F-class fault. -/
  | lockstepMismatch
  /-- ISLAND_RESTART_DONE (R354): The island cores restart from SRAM, elements start from rest and heartbeat watching resumes. -/
  | islandRestartDone
  /-- BKI_HB_WRITE (R350): A write to BKI_HB is accepted as a heartbeat if it equals the previous value plus 1. -/
  | bkiHbWrite (value : BitVec 32)
  /-- HEARTBEAT_LOST (R351): 20 ms without a heartbeat raises an F-class fault of the MGP, sets CLM_HOLD and releases the claim line. -/
  | heartbeatLost
  /-- MGP_BOOT_TIMEOUT (R352): No first heartbeat within 5 s of the reset release restarts the MGP again, or leaves it MGP_DEAD. -/
  | mgpBootTimeout
  /-- CLM_HOLD_CLR (R353): A write of CLM_HOLD_CLR after an accepted heartbeat clears CLM_HOLD. -/
  | clmHoldClr
  /-- BKI_COMMIT_WRITE (R348): A write of COMMIT in BKI_CTL makes the shadow element bank active at the next output sample. -/
  | bkiCommitWrite
  /-- SEASON_REQUEST (R357): A write of GO in SEASON_CTL requests a season change, accepted or refused. -/
  | seasonRequest (value : BitVec 32)
  /-- WAKE_N_LOW (R358): WAKE_N held low for 1 ms wakes the module from WINTER. -/
  | wakeNLow
  /-- WAKE_TIMER_EXPIRY (R358): The wake timer expires WAKE_TIMER_S seconds after WINTER entry. -/
  | wakeTimerExpiry
  /-- QUIET_PERIOD_END (R373): When its quiet period completes, a block leaves fault state by itself and posts QUIET_EXIT. -/
  | quietPeriodEnd (block : BlockId) (unit : Nat)
  /-- FLT_INJ_WRITE (R379): A write of FLT_INJ arms or disarms an injection, which acts at once or at the next decoded read. -/
  | fltInjWrite (block : BlockId) (unit : Nat) (value : BitVec 32)
  /-- INJECTION_TIMEOUT (R379): A MODE 0 injection that finds no read within 1 s ends aborted. -/
  | injectionTimeout (block : BlockId) (unit : Nat)
  /-- FE_CODE_READ (R378): A read of FE_CODE copies the other FE registers into the read buffer. -/
  | feCodeRead (block : BlockId) (unit : Nat)
  /-- REARM_WRITE (R375): A write of REARM clears FE_VALID and OVERFLOW in FULL mode. -/
  | rearmWrite (block : BlockId) (unit : Nat)
  /-- RC_READ (R13): A read of an RC field returns its value and clears it. -/
  | rcRead (reg : RegAddr)
  /-- LATCHING_READ (R231): A read of a low word latches the high word of a 64-bit register for the next read. -/
  | latchingRead (reg : LatchReg)
  /-- EVR_OCCURRENCE (R391): The EVR writer takes an occurrence from a posting queue, passes it through its bucket and reserves and writes a record. -/
  | evrOccurrence
  /-- BUCKET_REFILL (R389): A bucket regains one token every INTERVAL_US. -/
  | bucketRefill (code : Nat)
  /-- LOSS_INTERVAL_END (R390): One INTERVAL_US after a queue loss with no refill pending, the EVR writes a SUPPRESSION record. -/
  | lossIntervalEnd (code : Nat)
  /-- CURSOR_LOAD (R394): A write of LOAD to CUR_CTL moves the cursor and starts loading its window. -/
  | cursorLoad (n : Nat) (value : BitVec 32)
  /-- CURSOR_LOAD_COMPLETE (R394): The window load completes and LOAD_BUSY falls. -/
  | cursorLoadComplete (n : Nat)
  /-- SAVE_END (R397): The save writes its closing marker. -/
  | saveEnd
  /-- SAVE_AREA_ERASE (R398): Within 5 s of a restore the firmware erases the older save area. -/
  | saveAreaErase
  /-- KSU_LOAD (R404): KSU_CMD with OP 0 loads a slot from KSU_KEYIN. -/
  | ksuLoad (who : Master) (cmd : BitVec 32)
  /-- KSU_GENERATE (R404): KSU_CMD with OP 1 fills a slot from the true random generator. -/
  | ksuGenerate (who : Master) (cmd : BitVec 32)
  /-- KSU_DERIVE (R415): KSU_CMD with OP 2 derives a slot value by the SP 800-108 KDF. -/
  | ksuDerive (who : Master) (cmd : BitVec 32)
  /-- KSU_ERASE (R409): KSU_CMD with OP 3 erases a slot. -/
  | ksuErase (who : Master) (cmd : BitVec 32)
  /-- KEY_SAVE (R413): Within 1 s of a write to a non-volatile slot, the MGP stores it wrapped in both flash banks. -/
  | keySave (slot : Nat)
  /-- SLOT_DAMAGE_REWRITE (R414): A non-volatile slot found UNUSABLE is rewritten from its saved copy within 10 ms. -/
  | slotDamageRewrite (slot : Nat)
  /-- REQ_TAIL_WRITE (R442): The host writes REQ_TAIL, accepted or counted in BAD_TAIL. -/
  | reqTailWrite (pair : Nat) (tail : Nat)
  /-- PAIR_RESET (R444): A write of RESET in PAIR_CTL resets one host mailbox pair. -/
  | pairReset (pair : Nat)
  /-- MBX_REQ_TAIL_WRITE (R454): An instance writes MBX_REQ_TAIL, accepted or ignored and recorded. -/
  | mbxReqTailWrite (inst : Nat) (gen : Nat) (tail : Nat)
  /-- MSI_X_MESSAGE (R431): A vector's message is sent for its cause, at most once per 10 µs. -/
  | msiXMessage (vector : Nat)
  /-- PERST_N (R500): PERST_N resets the PCI island, BAR0 and every mailbox pair. -/
  | perstN (low : Bool)
  /-- MGP_FIRMWARE_START (R479): Restarted firmware writes its heartbeat, rebuilds its shadows, clears CLM_HOLD and answers pending requests. -/
  | mgpFirmwareStart
  /-- COLD_START (R472): At t_R the MGP starts and runs the cold start steps through configuration, ports and PSCs. -/
  | coldStart (c : ColdIn)
  /-- START_UP_COMPLETE (R472): Start-up completes, SPRING ends and the module enters its RETURN season as OUT. -/
  | startUpComplete
  /-- CLAIM_ENABLE_AUTO (R475): The firmware sets CLM_EN by itself once R474 allows and the partner is present or declared lost. -/
  | claimEnableAuto
  /-- SERVICE_AUTO (R478): With a stored intent, the firmware declares the module in service once the conditions hold. -/
  | serviceAuto
  /-- CONFIG_PERSIST (R470): Within 1 s of an accepted change the firmware writes a new copy of the persistent configuration. -/
  | configPersist
  /-- MAIN_GOOD (R356): MAIN becomes good and SPRING begins, or a held wake or reconnection proceeds. -/
  | mainGood (main : MainIn)
  /-- MAIN_LOST (R503): MAIN is lost with AON good and the module enters WINTER with WINTER_CAUSE 1. -/
  | mainLost
  /-- PFW_N_FALL (R397): PFW_N falls; the coil is released and the recorder tail is saved. -/
  | pfwNFall
  /-- PFW_N_RISE (R397): PFW_N rises before MAIN is lost; the save completes, the ring unfreezes and POWER_RETURN is written. -/
  | pfwNRise
  /-- INTERNAL_POWER_FAIL (R504): MAIN below 10.2 V with PFW_N high raises the internal power-fail with every effect of PFW_N falling. -/
  | internalPowerFail (sag : SagIn)
  /-- MOD_RESET_LOW (R500): MOD_RESET_N low resets every MAIN island, releases the coil and drives TRIP low. -/
  | modResetLow
  /-- MOD_RESET_RELEASE (R499): The release of MOD_RESET_N reads the unit ID and starts a cold start at step 3. -/
  | modResetRelease
  /-- THERMAL_CHECK (R508): Every 1 ms the PMC reads the junction sensors and raises SUPPLY findings or a thermal cut-off. -/
  | thermalCheck (temp : Int)
  /-- THERMAL_DISCONNECT (R508): 20 ms after a thermal cut-off MAIN is disconnected inside the module. -/
  | thermalDisconnect
  /-- RAIL_OUT_OF_BAND (R505): A rail out of its regulation band by 5 % for 10 µs is an F-class SUPPLY finding. -/
  | railOutOfBand (rail : Rail) (us : Nat)
  /-- BANK_HANDOVER (R482): At H the MGP enters the new image, which continues the heartbeat and takes up the carried state. -/
  | bankHandover (carriedOk : Bool)
  /-- BANK_MARK_ACTIVE (R482): 60 s after H without a restart the new bank is marked active in flash. -/
  | bankMarkActive
  /-- REGISTER_WRITE (R13): A write to a register field without behaviour of its own sets the value, subject to range rules. -/
  | registerWrite (reg : RegAddr) (value : BitVec 32)
  /-- GET_IDENTITY (R459): Opcode 0x0100 returns the module's identity and versions. -/
  | getIdentity (r : Req)
  /-- GET_STATUS (R459): Opcode 0x0101 returns module and island status. -/
  | getStatus (r : Req)
  /-- OP_STATUS (R445): Opcode 0x0102 returns the state of a long operation by handle. -/
  | opStatus (r : Req) (handle : Nat)
  /-- ECHO (R459): Opcode 0x0103 returns its parameter octets. -/
  | echo (r : Req) (octets : List Nat)
  /-- ARB_READ (R459): Opcode 0x0104 reads an arbiter's registers. -/
  | arbRead (r : Req) (arb : Nat)
  /-- ARB_PRIO (R41): Opcode 0x0105 sets a requester's priority. -/
  | arbPrio (r : Req) (arb : Nat) (idx : Nat) (prio : Nat)
  /-- ARB_MODE (R46): Opcode 0x0106 sets native or compatible arbitration on all capable arbiters. -/
  | arbMode (r : Req) (mode : Nat)
  /-- SERVICE (R476): Opcode 0x0107 declares the module in service or leaves service. -/
  | service (r : Req) (declare : Nat)
  /-- CREATE (R179): Opcode 0x0200 creates an instance from its parameters and image. -/
  | create (r : Req) (num : Nat) (mac : BitVec 48) (auto : Bool) (share : Shares) (allow : List Allow) (image : Image)
  /-- RESET (R193): Opcode 0x0201 starts an instance reset. -/
  | reset (r : Req) (clearDram : Bool)
  /-- REMOVE (R193): Opcode 0x0202 starts an instance removal. -/
  | remove (r : Req)
  /-- STOP (R176): Opcode 0x0203 halts an instance with cause 1. -/
  | stop (r : Req)
  /-- START (R176): Opcode 0x0204 returns an instance HALTED with cause 1 to READY. -/
  | start (r : Req)
  /-- SET_SHARES (R191): Opcode 0x0205 grows or shrinks an instance's shares. -/
  | setShares (r : Req) (mask : BitVec 10) (share : Shares)
  /-- READ_DESC (R206): Opcode 0x0206 returns an instance descriptor. -/
  | readDesc (r : Req)
  /-- SET_ALLOWANCE (R188): Opcode 0x0207 writes one allowance entry. -/
  | setAllowance (r : Req) (idx : Nat) (entry : Allow)
  /-- SET_AUTO_RESET (R185): Opcode 0x0208 sets AUTO_RESET. -/
  | setAutoReset (r : Req) (value : Nat)
  /-- SET_HOLDOFF (R198): Opcode 0x0209 sets INST_HOLDOFF_MS, raised to its floor. -/
  | setHoldoff (r : Req) (ms : Nat)
  /-- REPLACE_IMAGE (R485): Opcode 0x020A verifies a new instance image and replaces it at a frame start. -/
  | replaceImage (r : Req) (image : Image)
  /-- PT_WRITE (R215): Opcode 0x0210 writes a slot entry into a cluster's shadow bank. -/
  | ptWrite (r : Req) (cluster : Nat) (entry : Nat) (slot : SlotEntry)
  /-- PT_COMMIT (R216): Opcode 0x0211 checks and commits partition tables, period and phase. -/
  | ptCommit (r : Req) (mask : BitVec 8) (periods : List Nat) (phases : List Nat)
  /-- PT_READ (R215): Opcode 0x0212 reads a partition bank and PSC state. -/
  | ptRead (r : Req) (cluster : Nat) (bank : Nat)
  /-- SLOT_STATUS (R232): Opcode 0x0213 returns the slot status words and clears their RC fields. -/
  | slotStatus (r : Req) (cluster : Nat)
  /-- LOCK_ASSIGN (R205): Opcode 0x0214 assigns a lock to an owner and index. -/
  | lockAssign (r : Req) (lock : Nat) (owner : Nat) (index : Nat) (mgpOk : Bool)
  /-- LOCK_UNASSIGN (R205): Opcode 0x0215 unassigns a lock. -/
  | lockUnassign (r : Req) (lock : Nat)
  /-- LOCK_READ (R205): Opcode 0x0216 returns LCK_ASSIGN and LCK_STATE. -/
  | lockRead (r : Req) (lock : Nat)
  /-- EGQ_REGISTER (R236): Opcode 0x0218 registers an egress queue. -/
  | egqRegister (r : Req) (queue : Nat) (addr : Nat) (size : Nat)
  /-- RXRING_REGISTER (R88): Opcode 0x0219 registers an instance receive ring. -/
  | rxringRegister (r : Req) (addr : Nat) (size : Nat) (bufLen : Nat)
  /-- RXRING_STATS (R90): Opcode 0x021A returns receive ring drop counts. -/
  | rxringStats (r : Req)
  /-- STB_PUT (R123): Opcode 0x0300 builds a batch of entry and bitmap changes in the shadow. -/
  | stbPut (r : Req) (changes : List StbPutItem)
  /-- STB_COMMIT (R123): Opcode 0x0301 commits the batch, each change atomically and in list order. -/
  | stbCommit (r : Req)
  /-- STB_READ (R112): Opcode 0x0302 returns an entry or bitmap in force. -/
  | stbRead (r : Req) (bitmap : Bool) (idx : Nat)
  /-- LEARN_POLICY (R122): Opcode 0x0303 sets a port's learn policy. -/
  | learnPolicy (r : Req) (port : Nat) (kind : Nat) (ports : BitVec 8)
  /-- LEARN_ANSWER (R122): Opcode 0x0304 admits or refuses a learn record. -/
  | learnAnswer (r : Req) (rec : Nat) (accept : Bool) (entry : StreamEntry)
  /-- PORT_CONFIG (R69): Opcode 0x0305 writes port settings. -/
  | portConfig (r : Req) (port : Nat) (ctl : BitVec 32) (vlan : BitVec 32) (pcpMap : BitVec 32) (maxFrame : Nat)
  /-- STATS (R92): Opcode 0x0306 returns a reader's counters since its previous request. -/
  | stats (r : Req) (page : CntPage) (reader : Nat)
  /-- LEARN_READ (R451): Opcode 0x0307 returns an open learn record. -/
  | learnRead (r : Req) (rec : Nat)
  /-- PORT_BYPASS (R105): Opcode 0x0308 forces or ends BYPASS of the head. -/
  | portBypass (r : Req) (force : Nat)
  /-- SWITCH_CONFIG (R138): Opcode 0x0309 writes switch settings. -/
  | switchConfig (r : Req) (c : SwitchCfg)
  /-- MIRROR_SESSION (R136): Opcode 0x030A writes a mirror session. -/
  | mirrorSession (r : Req) (n : Nat) (ctl : BitVec 32)
  /-- HOST_RXRING (R88): Opcode 0x030B registers a host receive ring. -/
  | hostRxring (r : Req) (ring : Nat) (addr : Nat) (size : Nat) (bufLen : Nat)
  /-- GROUP_SET (R167): Opcode 0x0400 applies a batch to a group and its contexts after admission. -/
  | groupSet (r : Req) (g : Nat) (desc : Group) (ctxs : List Ctx)
  /-- GROUP_READ (R169): Opcode 0x0401 returns a group descriptor and its context records. -/
  | groupRead (r : Req) (g : Nat)
  /-- PRESET_CHANGE (R155): Opcode 0x0402 requests a preset change. -/
  | presetChange (r : Req) (g : Nat) (preset : Nat)
  /-- PRESET_READ (R149): Opcode 0x0403 returns a preset's coefficients. -/
  | presetRead (r : Req) (preset : Nat)
  /-- SUBSCRIBE (R166): Opcode 0x0404 sets or removes a group subscriber. -/
  | subscribe (r : Req) (g : Nat) (pos : Nat) (sub : Option (Nat × Nat × Nat))
  /-- RING_REGISTER (R161): Opcode 0x0405 registers a sample ring or the event ring. -/
  | ringRegister (r : Req) (ring : Nat) (addr : Nat) (slots : Nat) (words : Nat)
  /-- SCE_CONFIG (R172): Opcode 0x0406 writes SCE_CTL. -/
  | sceConfig (r : Req) (ctl : BitVec 32)
  /-- TIME_STATUS (R463): Opcode 0x0500 returns time state and offsets. -/
  | timeStatus (r : Req)
  /-- TIME_CONFIG (R305): Opcode 0x0501 writes time settings. -/
  | timeConfig (r : Req) (c : TimeCfg)
  /-- REF_SWITCH (R294): Opcode 0x0502 switches the reference domain, or refuses. -/
  | refSwitch (r : Req) (dom : Nat)
  /-- STEP (R295): Opcode 0x0503 steps the time base. -/
  | stepTb (r : Req) (ns : Int)
  /-- TRG_ALLOC (R297): Opcode 0x0504 allocates a comparator from 8 to 31. -/
  | trgAlloc (r : Req) (owner : Option Nat)
  /-- TRG_PROGRAM (R298): Opcode 0x0505 programs a comparator. -/
  | trgProgram (r : Req) (k : Nat) (time : Nat) (period : Nat) (periodic : Bool) (dest : BitVec 4) (en : Bool)
  /-- TRG_FREE (R299): Opcode 0x0506 frees a comparator. -/
  | trgFree (r : Req) (k : Nat)
  /-- STAMP_RING (R302): Opcode 0x0507 registers a stamp ring. -/
  | stampRing (r : Req) (addr : Nat) (slots : Nat)
  /-- PPS_CONFIG (R300): Opcode 0x0508 writes the 1PPS settings. -/
  | ppsConfig (r : Req) (en : Bool) (gate : Bool) (width : Nat)
  /-- STREAM_SET (R333): Opcode 0x0600 writes a stream descriptor and sources. -/
  | streamSet (r : Req) (n : Nat) (desc : AcqStream)
  /-- STREAM_EN (R326): Opcode 0x0601 enables or disables an acquisition stream after admission. -/
  | streamEn (r : Req) (n : Nat) (en : Nat)
  /-- STREAM_RESTART (R328): Opcode 0x0602 restarts a stopped stream with a RESTART item. -/
  | streamRestart (r : Req) (n : Nat)
  /-- TRIGGER (R318): Opcode 0x0603 places an instance trigger on the masked streams. -/
  | trigger (r : Req) (mask : BitVec 4) (code : Nat)
  /-- ACQ_CONFIG (R331): Opcode 0x0604 writes ACQ_CTL. -/
  | acqConfig (r : Req) (ctl : BitVec 32)
  /-- STREAM_READ (R332): Opcode 0x0605 returns a stream descriptor. -/
  | streamRead (r : Req) (n : Nat)
  /-- PAIR_STATUS (R465): Opcode 0x0700 returns pair state. -/
  | pairStatus (r : Req)
  /-- SET_CLAIM (R247): Opcode 0x0701 sets OWN_CLAIM. -/
  | setClaim (r : Req) (claim : BitVec 32)
  /-- PAIR_CONFIG (R474): Opcode 0x0702 writes the pair settings, with the CLM_EN checks. -/
  | pairConfig (r : Req) (cguCtl : BitVec 32) (cguMem : BitVec 32) (ocuCtl : BitVec 32) (mlkCtl : BitVec 32)
  /-- SWITCH_BACK (R273): Opcode 0x0703 holds or executes a switch-back. -/
  | switchBack (r : Req) (unit : Nat)
  /-- CLEAR_TAKE_BLOCK (R264): Opcode 0x0704 clears TAKE_BLOCK. -/
  | clearTakeBlock (r : Req)
  /-- RETURN_STANDBY (R249): Opcode 0x0705 returns an OUT unit to STANDBY. -/
  | returnStandby (r : Req)
  /-- GO_OUT (R249): Opcode 0x0706 makes the unit OUT. -/
  | goOut (r : Req)
  /-- TRIP_ASSIGN (R257): Opcode 0x0707 assigns a TRIP output to an instance. -/
  | tripAssign (r : Req) (output : Nat) (inst : Option Nat)
  /-- KEY_LOAD (R404): Opcode 0x0800 loads a key value into a slot. -/
  | keyLoad (r : Req) (slot : Nat) (value : BitVec 256) (a : KeyArgs)
  /-- KEY_GENERATE (R404): Opcode 0x0801 generates a key in a slot. -/
  | keyGenerate (r : Req) (slot : Nat) (a : KeyArgs)
  /-- KEY_DERIVE (R416): Opcode 0x0802 derives a key into a slot. -/
  | keyDerive (r : Req) (slot : Nat) (parent : Option Nat) (a : KeyArgs) (label : List Byte) (context : List Byte)
  /-- KEY_ERASE (R409): Opcode 0x0803 erases a slot. -/
  | keyErase (r : Req) (slot : Nat)
  /-- KEY_ATTR_READ (R405): Opcode 0x0804 returns a slot's attribute record. -/
  | keyAttrRead (r : Req) (slot : Nat)
  /-- KEY_ASSIGN (R407): Opcode 0x0805 assigns a slot's owner. -/
  | keyAssign (r : Req) (slot : Nat) (byMgp : Bool) (owner : Nat) (gen : Nat)
  /-- KEY_ATTR_WRITE (R405): Opcode 0x0806 writes a slot's attributes. -/
  | keyAttrWrite (r : Req) (slot : Nat) (a : KeyArgs) (lock : Bool) (derivable : Bool)
  /-- VERIFY_ENTRY (R422): Opcode 0x0807 writes a verification entry after admission. -/
  | verifyEntry (r : Req) (n : Nat) (e : VerEntry)
  /-- VERIFY_ENABLE (R421): Opcode 0x0808 sets VERIFY_EN. -/
  | verifyEnable (r : Req) (en : Nat)
  /-- FAULT_READ (R378): Opcode 0x0900 reads a fault set and its first-error record. -/
  | faultRead (r : Req) (block : BlockId) (unit : Nat)
  /-- FAULT_COUNTS (R383): Opcode 0x0901 returns a reader's class counter differences. -/
  | faultCounts (r : Req) (reader : Nat)
  /-- INJECT (R380): Opcode 0x0902 arms or disarms a fault injection. -/
  | inject (r : Req) (block : BlockId) (unit : Nat) (arm : Bool) (kind : Nat) (mode : Bool) (pos : Nat) (pattern : BitVec 8) (force : Bool)
  /-- CAPTURE (R377): Opcode 0x0903 sets a block's capture mode or re-arms it. -/
  | capture (r : Req) (block : BlockId) (unit : Nat) (latch : Bool) (rearm : Bool)
  /-- SET_QUIET (R372): Opcode 0x0904 sets QUIET_MS. -/
  | setQuiet (r : Req) (block : BlockId) (unit : Nat) (ms : Nat)
  /-- BUCKET_SET (R402): Opcode 0x0905 writes a code's bucket entry. -/
  | bucketSet (r : Req) (code : Nat) (mode : Nat) (burst : Nat) (intervalUs : Nat)
  /-- CURSOR2 (R393): Opcode 0x0906 allocates or releases EVR cursor 2. -/
  | cursor2 (r : Req) (alloc : Nat)
  /-- CODE_CATALOGUE (R387): Opcode 0x0907 returns event code names and detail layouts. -/
  | codeCatalogue (r : Req) (first : Nat) (count : Nat)
  /-- WRITE_RECORD (R387): Opcode 0x0908 writes an instance record, at most 10 per second. -/
  | writeRecord (r : Req) (code : Nat) (detail : List Byte)
  /-- EVR_CONFIG (R401): Opcode 0x0909 sets LIMIT_EN and SAVE_EN. -/
  | evrConfig (r : Req) (limitEn : Bool) (saveEn : Bool)
  /-- IMAGE_STAGE (R481): Opcode 0x0A00 writes and verifies an image into the non-running bank or image store. -/
  | imageStage (r : Req) (target : Nat) (image : Image)
  /-- BANK_ACTIVATE (R482): Opcode 0x0A01 switches the MGP to the other bank while the module protects. -/
  | bankActivate (r : Req) (bank : Nat)
  /-- BKI_WRITE (R348): Opcode 0x0A02 writes BKI settings and shadow element slots. -/
  | bkiWrite (r : Req) (ctl : BitVec 32) (slots : List (Nat × ElemSlot))
  /-- BKI_COMMIT (R348): Opcode 0x0A03 commits the shadow element bank. -/
  | bkiCommit (r : Req)
  /-- BKI_READ (R468): Opcode 0x0A04 returns Backstop settings and state. -/
  | bkiRead (r : Req)
  /-- CAL_CONFIG (R340): Opcode 0x0A05 writes the calibration settings. -/
  | calConfig (r : Req) (ctl : BitVec 32)
  /-- IMPORT_7210 (R489): Opcode 0x0A06 converts a WXM-7210 settings file into shadows. -/
  | import7210 (r : Req) (file : Import7210)
  /-- SET_SEASON (R357): Opcode 0x0B00 requests a season change. -/
  | setSeason (r : Req) (season : Nat) (force : Bool) (ret : Bool)
  /-- WAKE_CONFIG (R99): Opcode 0x0B01 sets the wake sources, timer and pattern. -/
  | wakeConfig (r : Req) (en : BitVec 3) (timerS : Nat) (pattern : List Byte)
  /-- LOOP_CONFIG (R235): Opcode 0x0B02 writes the supply loop settings. -/
  | loopConfig (r : Req) (mask : BitVec 8) (loop : BitVec 32) (volt : BitVec 32) (fabric : Nat)
  /-- POWER_STATUS (R469): Opcode 0x0B03 returns power state and wake counters. -/
  | powerStatus (r : Req)
  /-- MON_HELP (R517): Monitor command help lists the commands available. -/
  | monHelp
  /-- MON_ID (R517): Monitor command id prints GET_IDENTITY. -/
  | monId
  /-- MON_STATUS (R517): Monitor command status prints module and pair state. -/
  | monStatus
  /-- MON_TIME (R517): Monitor command time prints the time state. -/
  | monTime
  /-- MON_FAULTS (R517): Monitor command faults lists the fault sets in fault state. -/
  | monFaults
  /-- MON_FAULT (R517): Monitor command fault prints a block's first-error record. -/
  | monFault (block : BlockId) (unit : Nat)
  /-- MON_STATS (R517): Monitor command stats prints counters through reader 3. -/
  | monStats (page : CntPage)
  /-- MON_INST (R517): Monitor command inst prints an instance descriptor. -/
  | monInst (inst : Nat)
  /-- MON_EVR (R521): Monitor command evr loads cursor 3 and prints records. -/
  | monEvr (n : Option Nat)
  /-- MON_PEEK (R518): Monitor command peek prints registers without side effects. -/
  | monPeek (block : BlockId) (unit : Nat) (off : Nat) (count : Nat)
  /-- MON_UNLOCK (R519): Monitor command unlock issues a challenge. -/
  | monUnlock (devEn : Bool)
  /-- MON_RESP (R519): Monitor command resp checks a response and unlocks. -/
  | monResp (response : BitVec 64)
  /-- MON_LOCK (R520): Monitor command lock returns to the locked state. -/
  | monLock
  /-- MON_BAUD (R512): Monitor command baud changes the line rate. -/
  | monBaud (rate : Nat)
  /-- MON_MBX (R520): Monitor command mbx sends an inline mailbox request when unlocked. -/
  | monMbx (r : Req) (m : MonReq)
  /-- BAUD_REVERT (R512): No complete line within 10 s of a rate change returns the monitor to 115,200 baud. -/
  | baudRevert
  /-- MON_IDLE_RELOCK (R520): 1,800 s without a complete line relocks the monitor. -/
  | monIdleRelock
  /-- DEV_EN_LOW (R520): DEV_EN reading 0 for 10 ms relocks the monitor. -/
  | devEnLow
  /-- CHALLENGE_EXPIRY (R519): An unlock challenge expires after 60 s. -/
  | challengeExpiry
  /-- ISLAND_CLOCK_STOP (R21): The clock of a clocked island other than TB stops, stalling its crossings and raising a K-class fault of the owning block with PERSIST at 1. -/
  | islandClockStop (island : Island)
  /-- ISLAND_CLOCK_RESTART (R372): A stopped island clock runs again, PERSIST falls and the quiet period starts, after which the held-out port is tried again. -/
  | islandClockRestart (island : Island)
  /-- RAIL_IN_BAND (R372): A rail that was low or out of its regulation band returns into range and PERSIST of the SUPPLY finding falls. -/
  | railInBand (rail : Rail)
  /-- CREATE_COMPLETE (R179): Creation of an instance ends within 2 ms plus 0.25 ms per MiB; the descriptor is READY and OP_DONE carries the number and generation. -/
  | createComplete (inst : Nat)
  /-- IMAGE_COPY_COMPLETE (R485): The copy of a replaced instance image ends; the instance is started to READY where it was READY or RUNNING, and OP_DONE is written. -/
  | imageCopyComplete (inst : Nat)
  /-- IMAGE_STAGE_COMPLETE (R423): Verification of a staged image ends, after at most 40 ms plus 2 ms per MiB, and OP_DONE reports acceptance or refusal. -/
  | imageStageComplete
  /-- IMPORT_COMPLETE (R489): An IMPORT_7210 conversion ends; OP_DONE gives the counts and the shadows are no longer held BUSY. -/
  | importComplete
  /-- GRANULE_CLEARED (R180): A released granule finishes clearing and returns to its pool, raising the free count. -/
  | granuleCleared (dram : Bool) (granule : Nat)
  /-- PAUSE_AGEING_DISCARD (R83): While a port is paused, a head frame reaches its class ageing limit and is discarded and counted in TX_DROP_AGED. -/
  | pauseAgeingDiscard (port : Nat) (queue : Nat)
  /-- SFP_POWER_LIMIT (R506): A transceiver that draws more than 2.0 W is switched off and reported as unsupported with ATTACH 2. -/
  | sfpPowerLimit (port : Nat)
  /-- BKI_THERMAL_RESET (R508): The island's own sensor reads above 135 °C and the island holds the module in reset as if AON were lost. -/
  | bkiThermalReset (temp : Int)
  /-- TRNG_HEALTH_FAIL (R426): The true random generator fails its continuous health tests; TRNG_OK falls and TRNG_FAIL is counted. -/
  | trngHealthFail
  /-- MON_LINE_REFUSED (R513): A monitor line that is too long, overflows the input buffer or names no known command is discarded and answered with too-long or unknown. -/
  | monLineRefused (tooLong : Bool)
  /-- NODE_FORGET (R127): A node in the MGP's HSR or PRP node table is forgotten after 60 s without a supervision frame. -/
  | nodeForget (mac : BitVec 48)
deriving DecidableEq, Repr

end Sys2Proof
end

