-- ==== Sys2Proof/Config.lean ====
section
/-!
DEFINITION. Config.lean: what the spec leaves open or gives only by name. Every constant here is opaque: nothing can be proved of
its values. Log entries 3 and 4 list them.
-/
namespace Sys2Proof.Config
open Sys2Proof

/-- The n-th value that the spec leaves open (a random draw, a figure it does not state). The step counts the values it takes in
`State.free` (log entry 3). -/
opaque freeValue : Nat → Nat

/-- What a field holds where the exact value of its formula lies outside the field's format (log entry 4). -/
opaque outside : Nat → Nat

/-- The transfer timeout that the firmware sets for a fault set (R30), from the free-value counter and the set; the spec gives the default and the
range only (log entry 65). -/
opaque transferTimeout : Nat → Nat → Nat

/-- Coefficient i of the first half of a preset's filter (R149, R150), which the Backstop uses too (R342): signed 16-bit values that the spec
does not print. -/
opaque firCoef : Nat → Nat → BitVec 16

/-- The translation root of an instance's G-stage tables (R181, R220), which lie in the MGP's fixed DRAM region. -/
opaque gstageRoot : Nat → Nat

/-- The slot entry point of an instance (R220). -/
opaque slotEntry : Nat → Nat

/-- The rate of a supply's slew (R32): at most 5 mV/us. -/
opaque slewRate : Nat

/-- How far a measured supply is from its value (R235), within 5 mV: cluster, age. -/
opaque railError : Nat → Nat → Nat

/-- How the sixteen condition counters of a context stand in TRACK (R170): which condition is where, and what its 16 bits count, is not
given. -/
opaque trackCode : List Nat → BitVec 256

/-- Address symbol j of a word (R55): kind of storage, symbol, address. Which address bits a decoder stage or a CA signal carries is not
given. -/
opaque addrStage : Bool → Nat → Nat → Byte

/-- The keyed hash of the stream and forwarding tables (R111): seed, key, table half. -/
opaque hashIndex : Nat → Nat → Nat → Nat

/-- The CMAC/HMAC/GMAC values of the key engines (R412, R418, R419, R424): kind, key, message. -/
opaque mac : Nat → BitVec 256 → List Byte → BitVec 256

/-- The 128-bit tag of AES-GMAC (R418): AES-128 key, 12-octet IV, message. -/
opaque gmac : BitVec 128 → List Byte → List Byte → BitVec 128

/-- The CRC-16 of a root share (R411), whose polynomial the spec does not give. -/
opaque crc16 : BitVec 256 → BitVec 16

/-- The keyed permutation of the cell index (R413): key, slot number. -/
opaque cellIndex : BitVec 256 → Nat → Nat

/-- The pad of a cell (R413): 256 bits of AES-256 in counter mode: key, cell. -/
opaque cellPad : BitVec 256 → Nat → BitVec 256

/-- AES key wrap of RFC 3394 (R413): wrapping key, value. -/
opaque wrap : BitVec 256 → BitVec 256 → BitVec 320

/-- The elements of an authentication extension before the authentication value (R419), in the encoding of IEC 62351-6:2020: KEY_ID, IV,
private security data, octets of the authentication value. -/
opaque extElems : BitVec 32 → List Byte → List Byte → Nat → List Byte

/-- The Length field of a frame header with an extension (R419), which the standard prescribes: octets from APPID to the end of the APDU, octets
of the extension. -/
opaque headerLength : Nat → Nat → Nat

/-- The initialisation vector in an extension (R419, R421). -/
opaque extIv : List Byte → List Byte

/-- Reserved 2 of the header of a frame with an extension (R419), which the standard prescribes. -/
opaque reserved2 : List Byte → Nat

/-- The Key ID in an extension (R419, R421). -/
opaque extKeyId : List Byte → BitVec 32

/-- The private security data in an extension; empty where absent (R419, R421). -/
opaque extPrivate : List Byte → List Byte

/-- The name of an event code and the layout of its detail, as the firmware's catalogue holds them (R387). -/
opaque codeName : Nat → List Nat

/-- What a word of a cursor's window reads as while the window is being loaded, which software must not do (R394): cursor, offset, age. -/
opaque windowWord : Nat → Nat → Nat → Nat

/-- The octets of a monitor line: its kind and values as the firmware writes them out (R514, R516). -/
opaque lineLen : List Nat → Nat

/-- The octets in which an opcode's result values stand in PARAM or in an indirect buffer (R435, R438, R458): the catalogue gives their order and not
their places (log entry 164). -/
opaque resultOctets : Nat → List Nat → List Byte

/-- What a read of a register of BAR0 that is narrower than 32 bits or not aligned gives (R430 names its write only; log entry 165). -/
opaque narrowRead : Nat → Nat

/-- Pelnatan's PCI vendor identifier, which R428 does not give, 16 bits. -/
opaque vendorId : Nat

end Sys2Proof.Config
end

