-- ==== Sys2Proof/Machine/State.lean ====
section
/-!
DEFINITION. Machine/State.lean: the whole state of the module as one record of its blocks, the queue of waiting commands, the
reasons a step may stop, and the state right after reset.
-/
namespace Sys2Proof.Machine
open Sys2Proof

/-- The reasons a step stops with a fault. No command of this block has an effect that the spec leaves without a next state, and an
access of an instance outside its windows is itself described (R183), so only one is declared. -/
inductive Fault where
  /-- Raised by no command: the spec names no condition in which the module stops for good (safe). -/
  | stuck
deriving DecidableEq, Repr

/-- The reasons a step is refused. -/
inductive Refusal where
  /-- Raised by an arm of `exec` whose command has no meaning yet (safe: nothing is claimed of it). -/
  | notModelled (mnemonic : String)
deriving DecidableEq, Repr

/-- The module: every block's registers, tables, queues and pins (spec/02 to spec/17), the model's counter of values the spec
leaves open, and the commands that wait, first in, first out. -/
structure State where
  /-- Arbiters, outstanding handshakes, scrubbers (spec/02). -/
  fab : Fabric := {}
  /-- P0 to P7; an unlisted one is at its reset values (spec/03). -/
  ports : Tbl Port := []
  /-- The bypass head interface (spec/03). -/
  head : Head := {}
  /-- The P6 wake detector (spec/03). -/
  wake : Wake := {}
  /-- Stream table, forwarding, buffer (spec/04). -/
  sw : Switch := {}
  /-- Sample conditioning (spec/05). -/
  sce : Sce := {}
  /-- Instances, pools, locks, memories (spec/06). -/
  insts : Insts := {}
  /-- Partition schedulers and supply loop (spec/07). -/
  sched : Sched := {}
  /-- Egress queues (spec/08). -/
  eg : Egress := {}
  /-- Claim gate unit (spec/08). -/
  cgu : Cgu := {}
  /-- Output comparison and referee (spec/08). -/
  ocu : Ocu := {}
  /-- Mirror link (spec/08). -/
  mlk : Mlk := {}
  /-- Time base, PTP, comparators (spec/09). -/
  time : Time := {}
  /-- Acquisition engine (spec/10). -/
  acq : Acq := {}
  /-- Backstop island (spec/11). -/
  bki : Bki := {}
  /-- Season registers (spec/11). -/
  season : Season := {}
  /-- Fault sets (spec/12). -/
  faults : Faults := {}
  /-- Event recorder (spec/12). -/
  evr : Evr := {}
  /-- Key store (spec/13). -/
  ksu : Ksu := {}
  /-- Mailboxes and BAR0 (spec/14). -/
  mbx : Mbx := {}
  /-- Flash contents and live change (spec/15). -/
  persist : Persist := {}
  /-- Supplies, sensors, pins (spec/16). -/
  power : Power := {}
  /-- Ouvtu monitor (spec/17). -/
  mon : Mon := {}
  /-- The model's own counter: the number of open values the step has taken (`Config.freeValue`). -/
  free : Nat := 0
  /-- Commands that wait, oldest first. -/
  pending : List Instr := []
deriving DecidableEq, Repr

/-- The module right after reset: every register at its reset value, nothing stored, no command waiting. -/
def State.reset : State := {}

/-- Update of the part `fab` alone. -/
def State.modFab (s : State) (f : Fabric → Fabric) : State := { s with fab := f s.fab }

/-- Update of the part `ports` alone. -/
def State.modPorts (s : State) (f : Tbl Port → Tbl Port) : State := { s with ports := f s.ports }

/-- Update of the part `head` alone. -/
def State.modHead (s : State) (f : Head → Head) : State := { s with head := f s.head }

/-- Update of the part `wake` alone. -/
def State.modWake (s : State) (f : Wake → Wake) : State := { s with wake := f s.wake }

/-- Update of the part `sw` alone. -/
def State.modSw (s : State) (f : Switch → Switch) : State := { s with sw := f s.sw }

/-- Update of the part `sce` alone. -/
def State.modSce (s : State) (f : Sce → Sce) : State := { s with sce := f s.sce }

/-- Update of the part `insts` alone. -/
def State.modInsts (s : State) (f : Insts → Insts) : State := { s with insts := f s.insts }

/-- Update of the part `sched` alone. -/
def State.modSched (s : State) (f : Sched → Sched) : State := { s with sched := f s.sched }

/-- Update of the part `eg` alone. -/
def State.modEg (s : State) (f : Egress → Egress) : State := { s with eg := f s.eg }

/-- Update of the part `cgu` alone. -/
def State.modCgu (s : State) (f : Cgu → Cgu) : State := { s with cgu := f s.cgu }

/-- Update of the part `ocu` alone. -/
def State.modOcu (s : State) (f : Ocu → Ocu) : State := { s with ocu := f s.ocu }

/-- Update of the part `mlk` alone. -/
def State.modMlk (s : State) (f : Mlk → Mlk) : State := { s with mlk := f s.mlk }

/-- Update of the part `time` alone. -/
def State.modTime (s : State) (f : Time → Time) : State := { s with time := f s.time }

/-- Update of the part `acq` alone. -/
def State.modAcq (s : State) (f : Acq → Acq) : State := { s with acq := f s.acq }

/-- Update of the part `bki` alone. -/
def State.modBki (s : State) (f : Bki → Bki) : State := { s with bki := f s.bki }

/-- Update of the part `season` alone. -/
def State.modSeason (s : State) (f : Season → Season) : State := { s with season := f s.season }

/-- Update of the part `faults` alone. -/
def State.modFaults (s : State) (f : Faults → Faults) : State := { s with faults := f s.faults }

/-- Update of the part `evr` alone. -/
def State.modEvr (s : State) (f : Evr → Evr) : State := { s with evr := f s.evr }

/-- Update of the part `ksu` alone. -/
def State.modKsu (s : State) (f : Ksu → Ksu) : State := { s with ksu := f s.ksu }

/-- Update of the part `mbx` alone. -/
def State.modMbx (s : State) (f : Mbx → Mbx) : State := { s with mbx := f s.mbx }

/-- Update of the part `persist` alone. -/
def State.modPersist (s : State) (f : Persist → Persist) : State := { s with persist := f s.persist }

/-- Update of the part `power` alone. -/
def State.modPower (s : State) (f : Power → Power) : State := { s with power := f s.power }

/-- Update of the part `mon` alone. -/
def State.modMon (s : State) (f : Mon → Mon) : State := { s with mon := f s.mon }

end Sys2Proof.Machine
end

