-- ==== Sys2Proof/Machine/Ops.lean ====
section
/-!
DEFINITION. Machine/Ops.lean: the operations that many commands share: the clock of ages, open values, table access by unit, the
posting of records to the recorder, host events and interrupt vectors, long operations, and the service of a mailbox request.
-/
namespace Sys2Proof.Machine
open Sys2Proof

/-- The age counter in ns (R281). Every interval of the model is timed on it. -/
def State.now (s : State) : Nat := s.time.age

/-- A deadline `d` has been reached (R9: an event at the boundary belongs to the later window). -/
def due (s : State) (d : Nat) : Bool := decide (d ≤ s.now)

/-- What the TB counter gains in `k` ticks without slew, in 2^-32 ns (R280). -/
def tbGain (k : Nat) (incr : Int) : Int := k * (2 ^ 33 + incr)

/-- What a slew adds in `k` ticks, in 2^-32 ns (R293): at most 858 a tick, in the sign of what remains. -/
def slewGain (k : Nat) (rem : Int) : Int := if rem < 0 then - (min rem.natAbs (858 * k) : Nat) else (min rem.natAbs (858 * k) : Nat)

/-- The TB counter in 2^-32 ns (R280). -/
def Time.tbTotal (t : Time) : Int := t.tbNs * 2 ^ 32 + t.tbFrac

/-- The TB counter set from 2^-32 ns. -/
def Time.setTb (t : Time) (x : Int) : Time := { t with tbNs := (x / 2 ^ 32).toNat % 2 ^ 64, tbFrac := (x % 2 ^ 32).toNat }

/-- `k` ticks pass (R280, R281, R290, R293): the age counter and TB advance, a slew moves TB and both offsets. With the TB clock stopped
the age counter advances by whole periods of the oscillator reference, and with that failed too it stands. -/
def Time.ticks (t : Time) (k : Nat) : Time :=
  if t.tbStopped then (if t.oscFailed then t else { t with age := t.age + (k + 19) / 20 * 40 })
  else
    let d := slewGain k t.slewRem
    { (t.setTb (t.tbTotal + tbGain k t.incr + d)) with
      age := t.age + 2 * k, slewRem := t.slewRem - d, slewing := t.slewing && decide (t.slewRem - d ≠ 0), domA := { t.domA with ofs := t.domA.ofs - d },
      domB := { t.domB with ofs := t.domB.ofs - d } }

/-- Time passes until the age counter has reached `d` (log entry 12). -/
def State.until (s : State) (d : Nat) : State :=
  if d ≤ s.time.age then s else s.modTime fun t => t.ticks ((d - t.age + 1) / 2)

/-- An event whose instant is age `d` comes about: time passes up to `d` if it is still to come, and the event acts. It does not come
about while the age counter stands (R281; log entry 12). -/
def whenDue (d : Nat) (f : State → State) (s : State) : State :=
  if d ≤ (s.until d).time.age then f (s.until d) else s

/-- Ticks until TB gains `x` (2^-32 ns) at a rate per tick. -/
def ticksFor (x rate : Int) : Nat := ((x + rate - 1) / rate).toNat

/-- Time passes until TB has reached `n` ns (log entry 12): first as far as a slew lasts, then at the rate of INCR. -/
def State.untilTb (s : State) (n : Nat) : State :=
  let go := fun (s : State) (lim : Nat) (rate : Int) =>
    s.modTime fun t => if (n : Int) * 2 ^ 32 ≤ t.tbTotal then t else t.ticks (min lim (ticksFor (n * 2 ^ 32 - t.tbTotal) rate))
  if s.time.tbStopped then s
  else
    let r := 2 ^ 33 + s.time.incr
    let k := (s.time.slewRem.natAbs + 857) / 858
    let s := go s k (r + (if s.time.slewRem < 0 then -858 else if s.time.slewRem = 0 then 0 else 858))
    go s (2 ^ 64) r

/-- An event whose instant is TB `n` ns comes about (log entry 12); not while TB stands. -/
def whenTb (n : Nat) (f : State → State) (s : State) : State :=
  if n ≤ (s.untilTb n).time.tbNs then f (s.untilTb n) else s

/-- An age of `n` microseconds. -/
def us (n : Nat) : Nat := n * 1000

/-- An age of `n` milliseconds. -/
def ms (n : Nat) : Nat := n * 1000000

/-- An age of `n` seconds. -/
def sec (n : Nat) : Nat := n * 1000000000

/-- The next open value (log entry 3). -/
def State.free1 (s : State) : Nat := Config.freeValue s.free

/-- One open value taken. -/
def State.took (s : State) : State := { s with free := s.free + 1 }

/-- The ID of a block (R366). -/
def BlockId.id : BlockId → Nat
  | .prt => 1 | .byp => 2 | .stb => 3 | .swc => 4 | .sce => 5 | .inx => 6 | .psc => 7 | .egf => 8 | .cgu => 9 | .ocu => 10
  | .mlk => 11 | .tbu => 12 | .acq => 13 | .bki => 14 | .mgp => 15 | .ksu => 16 | .evr => 17 | .lck => 18 | .pmc => 19
  | .dmc => 20 | .pci => 21 | .arb => 22

/-- The number of a clocked island. -/
def Island.num : Island → Nat
  | .pcsA => 1 | .pcsB => 2 | .mlk => 3 | .cu => 4 | .dmc => 5 | .bi => 6 | .pci => 7

/-- The clock of an island runs (R21). -/
def State.clockUp (s : State) (i : Island) : Bool := !s.faults.clocks.get i.num false

/-- The host link can be up (R21, R355, R500): the PCI island is clocked, out of reset, and it is not WINTER. -/
def State.pcieUp (s : State) : Bool := s.power.aonGood && !s.power.resetLow && !s.power.perstLow && s.season.season != .winter && s.clockUp .pci

/-- The host reaches BAR0 and the module the host: the link is up and the function is in D0 (R428). -/
def State.pciUp (s : State) : Bool := s.pcieUp && !s.mbx.pci.d3hot

/-- All blocks with a fault set (R366). -/
def allBlocks : List BlockId :=
  [.prt, .byp, .stb, .swc, .sce, .inx, .psc, .egf, .cgu, .ocu, .mlk, .tbu, .acq, .bki, .mgp, .ksu, .evr, .lck, .pmc, .dmc, .pci,
   .arb]

/-- Units of a block (R366). -/
def BlockId.units : BlockId → Nat
  | .prt => 8 | .inx => 8 | .psc => 8 | .dmc => 2 | .arb => 37 | _ => 1

/-- The number of a fault set: block ID and unit. -/
def setKey (b : BlockId) (u : Nat) : Nat := b.id * 64 + u

/-- Every fault set of the module. -/
def allSets : List (BlockId × Nat) := allBlocks.flatMap fun b => (List.range b.units).map fun u => (b, u)

/-- A port at reset (R94 to R96): P6 and P7 are the copper ports. -/
def Port.reset (k : Nat) : Port :=
  if k < 6 then {} else { fec := 0, rate := 2, untagPvid := true, pauseRx := true, attach := 1 }

/-- Port k. -/
def State.port (s : State) (k : Nat) : Port := s.ports.get k (Port.reset k)

/-- Port k changed. -/
def State.setPort (s : State) (k : Nat) (f : Port → Port) : State := s.modPorts fun t => t.set k (f (t.get k (Port.reset k)))

/-- A switch counter raised (R139). -/
def swCount (i : Nat) (s : State) (n : Nat := 1) : State := s.modSw fun w => { w with live := bump w.live i n }

/-- Instance i's descriptor. -/
def State.inst (s : State) (i : Nat) : Inst := s.insts.desc.get i {}

/-- Instance i's descriptor changed. -/
def State.setInst (s : State) (i : Nat) (f : Inst → Inst) : State :=
  s.modInsts fun n => { n with desc := n.desc.set i (f (n.desc.get i {})) }

/-- The fault set of a block's unit. -/
def State.fset (s : State) (b : BlockId) (u : Nat) : FaultSet := s.faults.sets.get (setKey b u) {}

/-- The fault set of a block's unit changed. -/
def State.setFset (s : State) (b : BlockId) (u : Nat) (f : FaultSet → FaultSet) : State :=
  s.modFaults fun x => { x with sets := x.sets.set (setKey b u) (f (x.sets.get (setKey b u) {})) }

/-- A block holds a resource out: its set is in fault state (R374). -/
def State.inFault (s : State) (b : BlockId) (u : Nat) : Bool := (s.fset b u).state

/-- UNIT_F: the OR of F_ACTIVE over every block (R370). -/
def State.unitF (s : State) : Bool := s.faults.sets.any fun p => p.2.fActive

/-- A late arrival for an instance is counted in its descriptor (R177). -/
def lateFor (i : Nat) (s : State) : State := s.setInst i fun d => { d with lateDiscards := satAdd 32 d.lateDiscards 1 }

/-- A late completion found by a block: FLT_LATE of its set and LATE_DISCARDS of the descriptor (R177). -/
def lateAt (b : BlockId) (u i : Nat) (s : State) : State :=
  lateFor i (s.setFset b u fun f => { f with late := satAdd 32 f.late 1 })

/-- Generation number after `g`: 16 bits, never 0 (R175). -/
def nextGen (g : Nat) : Nat := if (g + 1) % 65536 = 0 then 1 else (g + 1) % 65536

/-- The instance lives with this generation (R177). -/
def State.genCurrent (s : State) (i g : Nat) : Bool :=
  decide ((s.inst i).gen = g) && decide ((s.inst i).state ≠ .free) && decide ((s.inst i).state ≠ .quarantine)

/-- The code of an instance's STATE (R206). -/
def InstState.code : InstState → Nat
  | .free => 0 | .ready => 1 | .running => 2 | .halted => 3 | .resetting => 4 | .quarantine => 5

/-- The code of a role (R276). -/
def Role.code : Role → Nat
  | .out => 0 | .standby => 1 | .taking => 2 | .active => 3 | .alone => 4

/-- The code of a season (R362). -/
def SeasonKind.code : SeasonKind → Nat
  | .summer => 0 | .autumn => 1 | .spring => 2 | .winter => 3

/-- The role is ACTIVE, ALONE or TAKING. -/
def Role.protecting : Role → Bool
  | .active => true | .alone => true | .taking => true | _ => false

/-! ### Records -/

/-- An occurrence as a block posts it, stamped now (R384). -/
def State.occ (s : State) (b : BlockId) (u code cls : Nat) (owner : Master) (detail : List Byte) (inj : Bool := false) : EvrRec :=
  { code := code, cls := cls, inj := inj, block := b.id, unit := u, age := s.time.age, tb := s.time.tbNs, epoch := s.time.stepEpoch,
    boot := s.evr.boot, owner := owner, detail := detail }

/-- A bucket at reset (R389, R402): the recorder's own codes always pass and read MODE 0. -/
def Bucket.reset (code : Nat) : Bucket := if code < 16 then { mode := 0 } else {}

/-- The bucket of a code. -/
def Evr.bucket (e : Evr) (c : Nat) : Bucket := e.buckets.get c (Bucket.reset c)

/-- An occurrence added to its code's suppressed count (R389, R391). -/
def Bucket.suppress (b : Bucket) (r : EvrRec) (lost : Bool) : Bucket :=
  { b with suppFirst := if b.suppCount = 0 then r.age else b.suppFirst, suppLast := r.age, suppCount := satAdd 32 b.suppCount 1,
           suppLost := if lost then satAdd 32 b.suppLost 1 else b.suppLost, suppCls := max b.suppCls r.cls }

/-- An occurrence lost at its block's posting queue (R391, R390): counted, and kept for the SUPPRESSION record of its code unless
the code is in MODE 2; with no refill pending an interval of the code is timed from it. -/
def Evr.loseAtQueue (e : Evr) (r : EvrRec) : Evr :=
  let b := e.bucket r.code
  let e1 := { e with live := bump (bump e.live 4) 2 }
  if b.mode = 2 then e1
  else
    let b1 := b.suppress r true
    let b2 := if b.refillAt.isNone && b.lossFrom.isNone then { b1 with lossFrom := some r.age } else b1
    { e1 with buckets := e1.buckets.set r.code b2 }

/-- A posting queue has room: 8 entries per block, and one further for class F (R391). -/
def Evr.room (e : Evr) (r : EvrRec) : Bool :=
  let n := (e.posts.filter fun p => p.block == r.block).length
  decide (n < 8) || (decide (r.cls = 3) && decide (n < 9))

/-- A block posts an occurrence (R391). A frozen ring counts it lost (R397); before the recorder runs only the BKI keeps records
(R399). -/
def post (r : EvrRec) (s : State) : State :=
  if s.evr.frozen then s.modEvr fun e => { e with live := bump e.live 4 }
  else if s.evr.running then
    s.modEvr fun e => if e.room r then { e with posts := e.posts ++ [r] } else e.loseAtQueue r
  else if r.block = BlockId.bki.id then
    s.modBki fun b => if b.held.length < 255 then { b with held := b.held ++ [r] } else { b with heldLost := b.heldLost + 1 }
  else s

/-- An occurrence stamped and posted. -/
def note (b : BlockId) (u code cls : Nat) (owner : Master) (detail : List Byte) (s : State) : State :=
  post (s.occ b u code cls owner detail) s

/-! ### Events, vectors, long operations -/

/-- The host's MSI-X vector `v` has a cause (R431). -/
def vector (v : Nat) (s : State) : State := s.modMbx fun m => { m with msixDue := m.msixDue.set v true }

/-- Events not yet consumed (R452). -/
def Mbx.evtOccupied (m : Mbx) : Nat := modSub 16 m.evtTail m.evtHead

/-- One event into the next slot of the ring (R452). -/
def Mbx.putEvent (m : Mbx) (r : Resp) : Mbx :=
  { m with events := m.events.set (m.evtTail % 256) r, slots := m.slots.del (2048 + m.evtTail % 256), evtTail := (m.evtTail + 1) % 65536, msixDue := m.msixDue.set 16 true }

/-- EVENTS_LOST, once room has returned, before any later event (R452): the last slot is kept for it. -/
def Mbx.flushLost (m : Mbx) : Mbx :=
  if m.lostDue > 0 ∧ m.evtOccupied < 256 then { m.putEvent { opcode := 0x01F2, result := [m.lostDue] } with lostDue := 0 } else m

/-- The event code under which an event is recorded in the EVR (R387, R452; log entry 5). -/
def eventCode (opcode : Nat) : Nat :=
  if opcode = 0x01F0 then 0x010 else if opcode = 0x01F1 then 0x011 else if opcode = 0x01F2 then 0x012
  else if opcode = 0x01F3 then 0x013 else if opcode = 0x02F0 then 0x014 else if opcode = 0x02F1 then 0x015
  else if opcode = 0x02F2 then 0x016 else if opcode = 0x03F0 then 0x017 else if opcode = 0x03F1 then 0x018
  else if opcode = 0x03F2 then 0x019 else if opcode = 0x07F0 then 0x01A else if opcode = 0x07F1 then 0x01B
  else if opcode = 0x09F0 then 0x01C else 0x01D

/-- The event's family passes EVT_MASK (R452). -/
def Mbx.passes (m : Mbx) (opcode : Nat) : Bool := m.evtMask.getLsbD (opcode / 256)

/-- EVENTS_LOST is written where it is due and the ring has its slot (R452), with its record. -/
def tellLost (s : State) : State :=
  if s.persist.fwUp ∧ s.mbx.lostDue > 0 ∧ s.mbx.evtOccupied < 256 ∧ !s.power.perstLow then
    (note .mgp 0 (eventCode 0x01F2) 0 .none (leBytes 4 s.mbx.lostDue) s).modMbx Mbx.flushLost
  else s

/-- The MGP writes an event (R451, R452): not while its firmware is down; a masked family is neither written nor counted; an event
that finds no room is counted. Every event, EVENTS_LOST too, has its record. While PERST_N holds the PCI island in reset its ring takes nothing
(R500). -/
def emit (opcode : Nat) (inst : Option Nat) (gen : Nat) (vals : List Nat) (s : State) (tag : Nat := 0) (st : Status := .ok) : State :=
  if s.persist.fwUp then
    let owner : Master := match inst with | some i => .inst i gen | none => .none
    let s := note .mgp 0 (eventCode opcode) 0 owner (vals.flatMap (leBytes 4 ·)) s
    if s.mbx.passes opcode ∧ !s.power.perstLow then
      (tellLost s).modMbx fun m =>
        if m.evtOccupied < 255 then m.putEvent { opcode := opcode, tag := tag, inst := inst, gen := gen, status := st, result := vals }
        else { m with evtLost := satAdd 32 m.evtLost 1, lostDue := m.lostDue + 1 }
    else s
  else s

/-- INSTANCE_STATE event (R451). -/
def emitInst (i : Nat) (exhausted : Bool) (s : State) : State :=
  let d := s.inst i
  emit 0x02F0 (some i) d.gen [d.state.code, d.cause, b2n exhausted] s

/-- The number of a status (R453). -/
def Status.code : Status → Nat
  | .ok => 0 | .accepted _ => 1 | .okReplaced => 2 | .badCrc => 0x10 | .badOpcode => 0x11 | .badLength => 0x12 | .badParam _ => 0x13
  | .notPermitted => 0x14 | .staleGen => 0x15 | .noInstance _ => 0x16 | .tagReused => 0x17 | .busy => 0x20 | .noResource _ _ => 0x21
  | .admission _ _ => 0x22 | .locked => 0x23 | .state _ => 0x24 | .tableCheck _ _ => 0x25 | .ksuResult _ => 0x26
  | .timeout => 0x30 | .restarted => 0x31 | .dmaError => 0x32 | .aborted => 0x33

/-- The values that a status carries in the result (R453, R477). -/
def Status.vals : Status → List Nat
  | .accepted h => [h] | .badParam n => [n] | .noInstance ms => [ms] | .noResource p n => [p, n] | .admission c n => [c, n]
  | .state n => [n] | .tableCheck c n => [c, n] | .ksuResult n => [n] | _ => []

/-- An answer of the MGP: status and result values. -/
structure Ans where
  /-- STATUS. -/
  status : Status := .ok
  /-- Result values, in the catalogue's order. -/
  result : List Nat := []
deriving DecidableEq, Repr

/-- The pair number that OP_DONE carries; 255 for the monitor, 254 for the module's own operations. -/
def ReqSrc.pairNo : ReqSrc → Nat
  | .host p => p | .inst _ _ => 253 | .mon => 255

/-- A long operation accepted (R445): a new handle. -/
def startLong (r : Req) (opcode arg : Nat) (s : State) : State :=
  let h := s.mbx.nextHandle
  let s := s.modMbx fun m => { m with
    ops := m.ops ++ [{ handle := h, pair := r.src.pairNo, tag := r.tag, opcode := opcode, arg := arg }], nextHandle := h + 1 }
  match r.src with
  | .mon => s.modMon fun m => { m with waiting := m.waiting ++ [h] }
  | _ => s

/-- The handle the next long operation receives. -/
def State.handle (s : State) : Nat := s.mbx.nextHandle

/-- Octets still in the monitor's output buffer (R514): ten bits an octet leave at the line rate. -/
def Mon.pendingOut (m : Mon) (now : Nat) : Nat := m.outUsed - (now - m.outAt) * m.baud / sec 10

/-- A line of the monitor (R514): dropped and counted where the 16 KiB buffer has no room; lines lost are told before any later line. -/
def monPrint (name : Nat) (vals : List Nat) (s : State) : State :=
  s.modMon fun m =>
    let used := m.pendingOut s.now
    let told := if m.lost = 0 then [] else [({ name := 8, vals := [m.lost] } : MonLine)]
    let new := told ++ [{ name := name, vals := vals }]
    let len := (new.map fun l => Config.lineLen (l.name :: l.vals)).sum
    if used + len ≤ 16384 then { m with out := m.out ++ new, outUsed := used + len, outAt := s.now, lost := 0 }
    else { m with outUsed := used, outAt := s.now, lost := m.lost + 1 }

/-- A long operation in progress ends (R445): OP_DONE with its final status and what it carries (R477); the handle stays readable; the monitor prints
its own (R520). While the firmware is down nobody ends it: the restarted one does (R450). -/
def opDone (h : Nat) (st : Status) (vals : List Nat) (s : State) : State :=
  match s.mbx.ops.find? fun o => o.handle == h && o.done.isNone && s.persist.fwUp with
  | none => s
  | some o =>
    let vals := st.vals ++ vals
    let s := s.modMbx fun m => { m with
      ops := m.ops.map fun q => if q.handle = h then { q with done := some st, endAt := s.now } else q }
    let s := if s.mon.waiting.contains h then
        monPrint 7 ([h, st.code] ++ vals) (s.modMon fun m => { m with waiting := m.waiting.filter (· ≠ h) })
      else s
    emit 0x01F0 none 0 ([o.pair, o.tag, h, st.code] ++ vals) s (tag := o.tag) (st := st)

/-- As `opDone`, for an operation that may not exist. -/
def opDone? (h : Option Nat) (st : Status) (vals : List Nat) (s : State) : State :=
  match h with | some h => opDone h st vals s | none => s

/-- A long operation with this opcode is in progress. -/
def State.longBusy (s : State) (opcodes : List Nat) : Bool :=
  s.mbx.ops.any fun o => o.done.isNone && opcodes.contains o.opcode

/-- Season changes and live changes count as the long operations of spec/15 (R476, R477 reason 5). -/
def liveChangeOps : List Nat := [0x0107, 0x020A, 0x0A00, 0x0A01, 0x0A06]

/-! ### Requests -/

/-- Whether an opcode lies in the instance subset (R456): not at all, wholly, or on the instance's own objects. -/
inductive Subset where
  | no | yes | own
deriving DecidableEq, Repr

/-- The pair a request stands in, if it exists. -/
def State.pairOf (s : State) : ReqSrc → Option Pair
  | .host p => if p < 16 then some (s.mbx.pairs.get p {}) else none
  | .inst i _ => if s.mbx.instPairs.has i then some (s.mbx.instPairs.get i {}) else none
  | .mon => none

/-- A change to the pair a request stands in. -/
def State.setPair (s : State) (src : ReqSrc) (f : Pair → Pair) : State :=
  match src with
  | .host p => s.modMbx fun m => { m with pairs := m.pairs.set p (f (m.pairs.get p {})) }
  | .inst i _ => s.modMbx fun m => { m with instPairs := m.instPairs.set i (f (m.instPairs.get i {})) }
  | .mon => s

/-- A setting of the persistent configuration has changed (R470): its write is timed from the first change not yet written. -/
def configChanged (s : State) : State := s.modPersist fun p => { p with changedAt := some (p.changedAt.getD s.now) }

/-- An answer without effect. -/
def refuse (st : Status) (s : State) : State × Ans := (s, { status := st })

/-- An answer OK with result values. -/
def okRes (vals : List Nat) (s : State) : State × Ans := (s, { result := vals })

/-- Any of the pair and claim family's opcodes that writes is answered LOCKED while CLM_HOLD is 1 (R465). -/
def holdGuard (f : State → State × Ans) (s : State) : State × Ans := if s.bki.clmHold then refuse .locked s else f s

end Sys2Proof.Machine
end

