-- ==== Sys2Proof/Machine/Code144.lean ====
section
/-!
DEFINITION. Machine/Code144.lean: the RS(18,16) code over GF(2^8) with folded address symbols (R53 to R57), the CRC-32, the CRC-12
of the claim trailer (R242) and the CRC-64 of the comparison digest (R258).
-/
namespace Sys2Proof.Machine
open Sys2Proof

/-- A field element times alpha, modulo x^8 + x^4 + x^3 + x^2 + 1 (R53). -/
def gfDouble (x : Byte) : Byte := if x.getLsbD 7 then (x <<< 1) ^^^ 0x1D else x <<< 1

/-- Product by the low `n` bits of the second factor, high bit first. -/
def gfMulBits (x y : Byte) : Nat → Byte
  | 0 => 0
  | n + 1 => gfDouble (gfMulBits x (y >>> 1) n) ^^^ (if y.getLsbD 0 then x else 0)

/-- Product in GF(2^8) (R53). -/
def gfMul (x y : Byte) : Byte := gfMulBits x y 8

/-- alpha to the power `n` (R53). -/
def gfPow : Nat → Byte
  | 0 => 1
  | n + 1 => gfDouble (gfPow n)

/-- The stored symbol at a code position (R53): 0 is c0, 1 is c1, k + 2 is d_k. -/
def symbolAt (w : BitVec 144) (pos : Nat) : Byte :=
  if pos = 0 then (w >>> 128).setWidth 8 else if pos = 1 then (w >>> 136).setWidth 8 else (w >>> (8 * (pos - 2))).setWidth 8

/-- A word with `v` added to the symbol at a code position. -/
def addSymbol (w : BitVec 144) (pos : Nat) (v : Byte) : BitVec 144 :=
  let sh := if pos = 0 then 128 else if pos = 1 then 136 else 8 * (pos - 2)
  w ^^^ ((v.setWidth 144) <<< sh)

/-- The kinds of storage that address symbols are taken for (R55): the main SRAM arrays, the DRAM, and a fabric link word for a block at
a beat of its grant. -/
inductive Storage where
  | sram | dram | link (dest : Nat) (beat : Nat)
deriving DecidableEq, Repr

/-- V, the number of virtual address symbols (R55). -/
def Storage.v (st : Storage) : Nat := match st with | .sram => 3 | .dram => 8 | .link _ _ => 2

/-- The virtual address symbols of a word at an address (R55): column, row and bank; chip select with rank and CA0 to CA6; destination
block and beat index. -/
def Storage.symbols (st : Storage) (a : Nat) : List Byte :=
  match st with
  | .sram => (List.range 3).map fun j => Config.addrStage false j a
  | .dram => (List.range 8).map fun j => Config.addrStage true j a
  | .link dest beat => [BitVec.ofNat 8 dest, BitVec.ofNat 8 beat]

/-- All symbols of a word as it is read, stored ones by code position, then the address symbols (R53). -/
def symbols (r : CodeRead) : List Byte := ((List.range 18).map (symbolAt r.word)) ++ r.addr

/-- The sum of symbols times alpha to the power of their position, from position `p` on. -/
def weightedSum : List Byte → Nat → Byte
  | [], _ => 0
  | b :: t, p => gfMul b (gfPow p) ^^^ weightedSum t (p + 1)

/-- Syndrome S0 (R53). -/
def syn0 (r : CodeRead) : Byte := (symbols r).foldl (· ^^^ ·) 0

/-- Syndrome S1 (R53). -/
def syn1 (r : CodeRead) : Byte := weightedSum (symbols r) 0

/-- The position of R56: the discrete logarithm of S1 / S0, or 255 where S0 or S1 is 0. -/
def errorPos (s0 s1 : Byte) : Nat :=
  if s0 = 0 ∨ s1 = 0 then 255 else ((List.range 255).find? fun i => gfMul s0 (gfPow i) == s1).getD 255

/-- The kind of finding that two syndromes name (R56, R367): none, 0 corrected, 1 uncorrectable, 2 poisoned, 3 wrong address. -/
def syndromeKind (s0 s1 : Byte) (v : Nat) : Option Nat :=
  if s0 = 0 then (if s1 = 0 then none else if s1 = 0xEE then some 2 else some 1)
  else if s1 = 0 then some 1
  else
    let i := errorPos s0 s1
    if i < 18 then some 0 else if i < 18 + v then some 3 else some 1

/-- The check symbols of 16 data symbols under an address (R54): c0, c1. -/
def checkSymbols (d a : List Byte) : Byte × Byte :=
  let p0 := (d ++ a).foldl (· ^^^ ·) 0
  let p1 := weightedSum d 2 ^^^ weightedSum a 18
  let c1 := gfMul (p0 ^^^ p1) 0xF4
  (p0 ^^^ c1, c1)

/-- The codeword of 128 data bits under an address (R53, R54). -/
def encodeWord (data : BitVec 128) (a : List Byte) : BitVec 144 :=
  let d := (List.range 16).map fun k => ((data >>> (8 * k)).setWidth 8 : Byte)
  let c := checkSymbols d a
  data.setWidth 144 ||| (c.1.setWidth 144 <<< 128) ||| (c.2.setWidth 144 <<< 136)

/-- The poisoned form of a word (R57). -/
def poison (w : BitVec 144) : BitVec 144 := addSymbol (addSymbol w 0 0x5A) 1 0x5A

/-- The codeword that rests at an address (R54): its writer computes it with that address's symbols. -/
def Storage.codeword (st : Storage) (a : Nat) (data : BitVec 128) : BitVec 144 := encodeWord data (st.symbols a)

/-- A word met at an address (R53 to R57, R60): the codeword of what was written there, poisoned if its writer poisoned it, with the symbols
that have changed; where the address signals are at fault it was written under another address's symbols. -/
def WordRead.seen (w : WordRead) (st : Storage) (a : Nat) (data : BitVec 128) : CodeRead :=
  let c := if w.addrErr = [] then st.codeword a data
    else encodeWord data ((st.symbols a).zipIdx.map fun p => p.1 ^^^ w.addrErr.getD p.2 0)
  { word := (if w.poisoned then poison c else c) ^^^ w.err, addr := st.symbols a }

/-- What a reader finds in a word. -/
structure Syn where
  /-- The kind of finding, none for a correct word. -/
  kind : Option Nat := none
  /-- S0. -/
  s0 : Byte := 0
  /-- S1. -/
  s1 : Byte := 0
  /-- Position of R56. -/
  pos : Nat := 255
  /-- The 128 data bits that leave the decoder: the word corrected where one stored symbol is in error. -/
  data : BitVec 128 := 0
deriving DecidableEq, Repr

/-- A word decoded (R56): one stored symbol in error is corrected by adding S0 to it. -/
def decodeWord (r : CodeRead) : Syn :=
  let a := syn0 r
  let b := syn1 r
  let k := syndromeKind a b r.addr.length
  let p := errorPos a b
  { kind := k, s0 := a, s1 := b, pos := p, data := (if k = some 0 then addSymbol r.word p a else r.word).setWidth 128 }

/-- What an armed injection makes of the word that is read (R379, kinds 0 to 3). -/
def FaultSet.inject (f : FaultSet) (r : CodeRead) : CodeRead :=
  if f.injKind = 0 then { r with word := addSymbol r.word f.injPos f.injPattern }
  else if f.injKind = 1 then { r with word := addSymbol (addSymbol r.word f.injPos f.injPattern) ((f.injPos + 1) % 18) f.injPattern }
  else if f.injKind = 2 then { r with word := poison r.word }
  else { r with addr := match r.addr with | [] => [] | a :: t => (a ^^^ f.injPattern) :: t }

/-- One step of the CRC-32 of IEEE 802.3, bit-reflected. -/
def crc32Step (c : BitVec 32) : Nat → BitVec 32
  | 0 => c
  | n + 1 => crc32Step (if c.getLsbD 0 then (c >>> 1) ^^^ 0xEDB88320 else c >>> 1) n

/-- CRC-32 of IEEE 802.3 over octets. -/
def crc32 (l : List Byte) : BitVec 32 :=
  ~~~ (l.foldl (fun c b => crc32Step (c ^^^ b.setWidth 32) 8) 0xFFFFFFFF)

/-- CRC-12 over trailer bits 63 down to 12, most significant first (R242): `n` bits left, taken from bit 12 + n - 1. -/
def crc12Bits (t : BitVec 64) : Nat → BitVec 12 → BitVec 12
  | 0, c => c
  | n + 1, c =>
    let fb := xor (c.getLsbD 11) (t.getLsbD (12 + n))
    crc12Bits t n (if fb then (c <<< 1) ^^^ 0x80F else c <<< 1)

/-- The CRC-12 of a claim trailer (R242). -/
def crc12 (t : BitVec 64) : BitVec 12 := crc12Bits t 52 0xFFF

/-- A claim trailer (R241). -/
def claimTrailer (claim : BitVec 32) (unit : Nat) : BitVec 64 :=
  let t : BitVec 64 := (0xC1A7 : BitVec 64) <<< 48 ||| (claim.setWidth 64 <<< 16) ||| (BitVec.ofNat 64 (unit % 16) <<< 12)
  t ||| (crc12 t).setWidth 64

/-- Eight octets form a valid claim trailer: marker and CRC-12 (R243). -/
def trailerOk (t : BitVec 64) : Bool := (t >>> 48) == 0xC1A7 && (crc12 t).setWidth 64 == (t &&& 0xFFF)

/-- CRC-64 of ECMA-182 (R258), most significant bit first. -/
def crc64Bits (c : BitVec 64) : Nat → BitVec 64
  | 0 => c
  | n + 1 => crc64Bits (if c.getLsbD 63 then (c <<< 1) ^^^ 0x42F0E1EBA9EA3693 else c <<< 1) n

/-- CRC-64 of ECMA-182 over octets (R258). -/
def crc64 (l : List Byte) : BitVec 64 := l.foldl (fun (c : BitVec 64) (b : Byte) => crc64Bits (c ^^^ ((b.setWidth 64) <<< (56 : Nat))) 8) 0

end Sys2Proof.Machine
end

