-- ==== Sys2Proof/Machine/Flags.lean ====
section
/-!
DEFINITION. Machine/Flags.lean: fault sets. Classes and kinds of findings, what a finding does to its block's flags, counters and
first-error record (R365 to R383), and a word read through a block's decoder with an injection armed (R379, R381).
-/
namespace Sys2Proof.Machine
open Sys2Proof

/-- One detection of a fault by one block (R367). -/
structure Finding where
  /-- Block that found it. -/
  block : BlockId
  /-- Its unit. -/
  unit : Nat := 0
  /-- Kind (R367). -/
  kind : Nat
  /-- Class: 1 C, 2 K, 3 F. -/
  cls : Nat := 2
  /-- Injected (R380). -/
  inj : Bool := false
  /-- Access type (R383). -/
  access : Nat := 0
  /-- The block that issued the access and its unit, where that is not the finding block itself. -/
  source : Option (BlockId × Nat) := none
  /-- For whom the access was made. -/
  owner : Master := .none
  /-- Address in the block's space. -/
  addr : Nat := 0
  /-- Position of R56. -/
  pos : Nat := 255
  /-- S0. -/
  s0 : Byte := 0
  /-- S1. -/
  s1 : Byte := 0
  /-- The condition behind it is still present (R372). -/
  persist : Bool := false
  /-- BLOCK_DETAIL of the record (R386). -/
  detail : List Byte := []

/-- The block that issued the access of a finding, and its unit (R375, R383): the one it names, else the finding block itself; 0 where there was no
access. -/
def Finding.master (f : Finding) : Nat × Nat :=
  match f.source with | some p => (p.1.id, p.2) | none => if f.access = 0 then (0, 0) else (f.block.id, f.unit)

/-- The event code of a finding (R387). -/
def findingCode (b : BlockId) (kind : Nat) : Nat := 0x100 + 16 * b.id + kind

/-- The detail of a fault record, 28 octets (R386): `flags` is octet 43. -/
def faultDetail (f : Finding) (flags : Nat) : List Byte :=
  leBytes 8 f.addr ++ [BitVec.ofNat 8 f.master.1, BitVec.ofNat 8 f.master.2, BitVec.ofNat 8 f.access, BitVec.ofNat 8 flags, f.s0, f.s1,
    BitVec.ofNat 8 f.pos, 0] ++ (f.detail ++ List.replicate 12 0).take 12

/-- A finding that brings its block into fault state and restarts its quiet period (R372): K or F, and not POISONED. -/
def Finding.counts (f : Finding) : Bool := decide (f.cls ≥ 2) && f.kind != 2

/-- A finding that enters the first-error record (R369, R375): K or F, but no POISONED one of class K. -/
def Finding.entered (f : Finding) : Bool := decide (f.cls ≥ 2) && !(f.kind == 2 && f.cls == 2)

/-- The first-error record that a finding fills (R375, R376): in LATCH mode the registers FE_CODE and FE_AGE alone. -/
def Finding.record (f : Finding) (latch : Bool) (s : State) : FirstErr :=
  if latch then { code := findingCode f.block f.kind, cls := f.cls, inj := f.inj, latched := true, access := f.access, mBlock := f.master.1,
                  mUnit := f.master.2, age := s.time.age }
  else { code := findingCode f.block f.kind, cls := f.cls, inj := f.inj, latched := false, access := f.access, mBlock := f.master.1,
         mUnit := f.master.2, owner := f.owner, addr := f.addr, tb := s.time.tbNs, age := s.time.age, pos := f.pos, s0 := f.s0, s1 := f.s1,
         epoch := s.time.stepEpoch }

/-- A K or F finding and the first-error record (R375, R376, R381): the first fills it; a later one sets OVERFLOW, and a real one
replaces an injected one. -/
def FaultSet.enter (x : FaultSet) (f : Finding) (r : FirstErr) : FaultSet :=
  if !x.feValid then { x with fe := r, feValid := true }
  else
    let x := { x with overflow := true, int := setBit x.int 0 true }
    if x.fe.inj && !f.inj then { x with fe := r } else x

/-- The bit of FLT_INT that a finding of a class sets (R383). -/
def intBit (cls : Nat) : Nat := if cls = 3 then 3 else if cls = 2 then 2 else 1

/-- The interrupt line of a fault set to the MGP (R365, R383): a cause of FLT_INT that FLT_CTL enables, K and OVF by one bit. -/
def FaultSet.irq (x : FaultSet) : Bool :=
  (x.int.getLsbD 4 && x.intEn.getLsbD 3) || (x.int.getLsbD 3 && x.intEn.getLsbD 2) || ((x.int.getLsbD 2 || x.int.getLsbD 0) && x.intEn.getLsbD 1)
    || (x.int.getLsbD 1 && x.intEn.getLsbD 0)

/-- The interrupt lines that the MGP receives now, each separately (R365). -/
def State.faultLines (s : State) : List (BlockId × Nat) := allSets.filter fun p => (s.fset p.1 p.2).irq

/-- The set counts a finding: an injected one in INJECTED, a real one in its class counter (R368 to R370, R380). -/
def FaultSet.count (x : FaultSet) (f : Finding) : FaultSet :=
  let x := { x with lastClass := f.cls, lastKind := f.kind, int := setBit x.int (intBit f.cls) true }
  if f.inj then { x with injected := satAdd 16 x.injected 1 }
  else if f.cls = 3 then { x with cntF := satAdd 32 x.cntF 1 }
  else if f.cls = 2 then { x with cntK := satAdd 32 x.cntK 1 }
  else { x with cntC := satAdd 32 x.cntC 1 }

/-- What a finding does to its fault set (R368 to R372, R375, R376). -/
def FaultSet.take (x : FaultSet) (f : Finding) (r : FirstErr) (now : Nat) : FaultSet :=
  let x := x.count f
  let x := if f.entered then x.enter f r else x
  let x := { x with fActive := x.fActive || decide (f.cls = 3) }
  if f.counts then { x with state := true, quietFrom := now, persist := x.persist || f.persist } else x

/-- A real K or F finding aborts an armed injection (R381): a record of the injected kind with INJ_ABORTED is posted. -/
def abortInjection (f : Finding) (s : State) : State :=
  let x := s.fset f.block f.unit
  if !f.inj && decide (2 ≤ f.cls) && x.injArm then
    let s := s.setFset f.block f.unit fun x => { x with injArm := false, injState := 3 }
    post (s.occ f.block f.unit (findingCode f.block x.injKind) 0 .none (faultDetail { block := f.block, kind := x.injKind } 2) true) s
  else s

/-- A finding is recorded: counted, flagged, entered, posted, and the host told of an entry into fault state (R368 to R371, R451).
The reactions of class F are those of `raise`. -/
def finding (f : Finding) (s : State) : State :=
  let s := abortInjection f s
  let x := s.fset f.block f.unit
  let r := f.record x.captureAct s
  let s1 := s.setFset f.block f.unit fun x => x.take f r s.now
  let flags := b2n (f.entered && x.captureAct) + (if (s1.fset f.block f.unit).persist then 4 else 0)
  let s2 := post (s1.occ f.block f.unit (findingCode f.block f.kind) f.cls f.owner (faultDetail f flags) f.inj) s1
  if f.counts && !x.state then emit 0x09F0 none 0 [f.block.id, f.unit, f.cls, 1] s2 else s2

/-- The condition behind a block's findings is gone: PERSIST falls and the quiet period runs from here (R372). -/
def persistEnds (b : BlockId) (u : Nat) (s : State) : State :=
  s.setFset b u fun x => if x.persist then { x with persist := false, quietFrom := s.now } else x

/-- What a read through a block's decoder finds: the finding's kind and whether it is injected. -/
structure ReadFound where
  /-- The decoded word. -/
  syn : Syn := {}
  /-- The finding is the injected one. -/
  inj : Bool := false
deriving DecidableEq, Repr

/-- A word read through a block's decoder (R56): a MODE 0 injection that is armed acts on it and ends (R379); where the word itself is
in error the finding is real (R381). -/
def readFound (b : BlockId) (u : Nat) (r : CodeRead) (s : State) : ReadFound :=
  let x := s.fset b u
  let real := decodeWord r
  if x.injArm && !x.injMode && real.kind.isNone then { syn := decodeWord (x.inject r), inj := true } else { syn := real }

/-- The state after that read: an injection that acted is done (R379). -/
def readDone (b : BlockId) (u : Nat) (s : State) : State :=
  let x := s.fset b u
  if x.injArm && !x.injMode then s.setFset b u fun x => { x with injArm := false, injState := 2 } else s

end Sys2Proof.Machine
end

