-- ==== Sys2Proof/Machine/Operands.lean ====
section
/-!
DEFINITION. Machine/Operands.lean: frames as operands. Tags, the HSR tag and the PRP trailer, BER elements, the stream key, the
claim trailer, and the bit fields of register values that several commands carry. Octets of a frame run from the destination
address to the last octet before the FCS.
-/
namespace Sys2Proof.Machine
open Sys2Proof

/-- Length of a frame under R73: the FCS counts. -/
def frameLen (f : List Byte) : Nat := f.length + 4

/-- Destination address. -/
def dstMac (f : List Byte) : Nat := beAt f 0 6

/-- The address that PTP messages but peer delay are sent to (R278). -/
def ptpAddr : Nat := 0x011B19000000

/-- The address that peer-delay messages are sent to (R278). -/
def pdelayAddr : Nat := 0x0180C200000E

/-- Source address. -/
def srcMac (f : List Byte) : Nat := beAt f 6 6

/-- A group (multicast or broadcast) address: the low bit of its first octet. -/
def isGroup (a : Nat) : Bool := a / 2 ^ 40 % 2 == 1

/-- The broadcast address. -/
def broadcast : Nat := 2 ^ 48 - 1

/-- The frame carries a VLAN tag right after its source address (R75). -/
def isTagged (f : List Byte) : Bool := beAt f 12 2 == 0x8100

/-- The tag's control information. -/
def tci (f : List Byte) : Nat := beAt f 14 2

/-- Offset of the Ethertype that follows any VLAN tag. -/
def etherOff (f : List Byte) : Nat := if isTagged f then 16 else 12

/-- That Ethertype. -/
def etherType (f : List Byte) : Nat := beAt f (etherOff f) 2

/-- The frame without its VLAN tag. -/
def untag (f : List Byte) : List Byte := if isTagged f then f.take 12 ++ f.drop 16 else f

/-- An untagged frame with a tag inserted (R77). -/
def retag (f : List Byte) (pcp vid : Nat) (dei : Bool) : List Byte :=
  f.take 12 ++ beBytes 2 0x8100 ++ beBytes 2 (pcp * 8192 + b2n dei * 4096 + vid) ++ f.drop 12

/-- The HSR tag of a frame received on a ring port: six octets at the Ethertype 0x892F. -/
def hsrTag (f : List Byte) : Option (BitVec 48) :=
  if etherType f = 0x892F ∧ etherOff f + 6 ≤ f.length then some (BitVec.ofNat 48 (beAt f (etherOff f) 6)) else none

/-- The frame without its HSR tag. -/
def unHsr (f : List Byte) : List Byte := f.take (etherOff f) ++ f.drop (etherOff f + 6)

/-- The LSDU size field of an HSR tag or PRP trailer agrees with the frame: octets from the end of the frame's outer Ethertype on
(log entry 6). -/
def lsduOk (f : List Byte) (size : Nat) : Bool := size == f.length - (etherOff f + 2)

/-- The sequence number of an HSR tag. -/
def hsrSeq (t : BitVec 48) : Nat := bits t 15 0

/-- The LSDU size of an HSR tag. -/
def hsrSize (t : BitVec 48) : Nat := bits t 27 16

/-- A valid PRP redundancy control trailer: suffix 0x88FB and a matching LSDU size (R130). -/
def prpTrailer (f : List Byte) : Option (BitVec 48) :=
  if 20 ≤ f.length then
    let t : BitVec 48 := BitVec.ofNat 48 (beAt f (f.length - 6) 6)
    if bits t 15 0 = 0x88FB ∧ lsduOk f (bits t 27 16) = true then some t else none
  else none

/-- A frame up to its PRP trailer, where it ends in a valid one: a claim trailer lies before that (R243). -/
def beforeRct (f : List Byte) : List Byte := match prpTrailer f with | some _ => f.take (f.length - 6) | none => f

/-- Sequence number of a PRP trailer. -/
def rctSeq (t : BitVec 48) : Nat := bits t 47 32

/-- LanId of a PRP trailer. -/
def rctLan (t : BitVec 48) : Nat := bits t 31 28

/-! ### BER -/

/-- A BER element: tag octet, offset of its value, length of its value. -/
structure Tlv where
  /-- Tag octet. -/
  tag : Nat
  /-- Offset of the value. -/
  off : Nat
  /-- Length of the value. -/
  len : Nat
deriving DecidableEq, Repr

/-- The length octets at `i`: the length and the offset after them; the long form takes as many octets as its first one says. The
indefinite form, 0x80, is malformed (DESIGN CHOICE, log entry 168). -/
def berLength (l : List Byte) (i : Nat) : Option (Nat × Nat) :=
  match l[i]? with
  | none => none
  | some b =>
    if b.toNat < 128 then some (b.toNat, i + 1)
    else
      let n := b.toNat - 128
      if 1 ≤ n ∧ i + 1 + n ≤ l.length then some (beAt l (i + 1) n, i + 1 + n) else none

/-- The element at `i`; none where its length runs past the end of the frame (R110). -/
def berElem (l : List Byte) (i : Nat) : Option Tlv :=
  match l[i]?, berLength l (i + 1) with
  | some t, some (n, o) => if o + n ≤ l.length then some { tag := t.toNat, off := o, len := n } else none
  | _, _ => none

/-- The elements that begin from `i` up to `stop`, up to the first that runs past the frame's end. `fuel` bounds their number. -/
def berElems (l : List Byte) (i stop : Nat) : Nat → List Tlv
  | 0 => []
  | fuel + 1 =>
    if stop ≤ i then []
    else match berElem l i with
      | none => []
      | some e => e :: berElems l (e.off + e.len) stop fuel

/-- The elements inside an element. -/
def Tlv.inner (e : Tlv) (l : List Byte) : List Tlv := berElems l e.off (e.off + e.len) e.len

/-- No BER length from `i` up to `stop` runs past the end of the frame, those inside constructed elements included (R110). -/
def berOk (l : List Byte) : Nat → Nat → Nat → Bool
  | 0, _, _ => true
  | fuel + 1, i, stop =>
    if stop ≤ i then true
    else match berElem l i with
      | none => false
      | some e => (e.tag / 32 % 2 == 0 || berOk l fuel e.off (e.off + e.len)) && berOk l fuel (e.off + e.len) stop

/-- The value of the first element with a tag. -/
def tlvFind (es : List Tlv) (tag : Nat) : Option Tlv := es.find? fun e => e.tag == tag

/-- The APDU of an SV or GOOSE frame: the outer element eight octets after the Ethertype. -/
def apdu (f : List Byte) : Option Tlv := berElem f (etherOff f + 10)

/-- The elements of the APDU. -/
def apduElems (f : List Byte) : List Tlv := match apdu f with | none => [] | some a => a.inner f

/-- The offset after the last APDU octet. -/
def apduEnd (f : List Byte) : Option Nat := (apdu f).map fun a => a.off + a.len

/-- SV Ethertype. -/
def svType : Nat := 0x88BA

/-- GOOSE Ethertype. -/
def gooseType : Nat := 0x88B8

/-- The ASDUs of an SV frame, each as its elements (IEC 61850-9-2 tags, log entry 7). -/
def svAsdus (f : List Byte) : List (List Tlv) :=
  match tlvFind (apduElems f) 0xA2 with
  | none => []
  | some q => ((q.inner f).filter fun a => a.tag == 0x30).map fun a => a.inner f

/-- The identifying string: svID of the first ASDU, or goID, or gocbRef where goID is absent (R109). -/
def idTlv (f : List Byte) : Option Tlv :=
  if etherType f = svType then
    match svAsdus f with
    | a :: _ => tlvFind a 0x80
    | [] => none
  else (tlvFind (apduElems f) 0x83).or (tlvFind (apduElems f) 0x80)

/-- The element lies wholly within the first 256 octets after the Ethertype (R110). -/
def withinWindow (f : List Byte) (e : Tlv) : Bool := decide (e.off + e.len ≤ etherOff f + 2 + 256)

/-- The identifying string is found and has 1 to 129 octets (R110); none: the frame is malformed. -/
def idString (f : List Byte) : Option (List Byte) :=
  match idTlv f with
  | some e => if withinWindow f e ∧ 1 ≤ e.len ∧ e.len ≤ 129 then some (slice f e.off e.len) else none
  | none => none

/-- An ASDU as the conditioning engine reads it (R142): octet strings, numbers and the channel data, each where present. -/
structure Asdu where
  /-- svID. -/
  svId : List Byte := []
  /-- smpCnt. -/
  smpCnt : Option Nat := none
  /-- confRev. -/
  confRev : Option Nat := none
  /-- smpSynch. -/
  synch : Nat := 0
  /-- smpRate. -/
  rate : Option Nat := none
  /-- seqData. -/
  data : Option (List Byte) := none
deriving DecidableEq, Repr

/-- The number in an element. -/
def tlvNat (f : List Byte) (es : List Tlv) (tag : Nat) : Option Nat := (tlvFind es tag).map fun e => beAt f e.off e.len

/-- An ASDU read from its elements (IEC 61850-9-2 tags, log entry 7). -/
def asduOf (f : List Byte) (es : List Tlv) : Asdu :=
  { svId := match tlvFind es 0x80 with | some e => slice f e.off e.len | none => [],
    smpCnt := tlvNat f es 0x82, confRev := tlvNat f es 0x83, synch := (tlvNat f es 0x85).getD 0, rate := tlvNat f es 0x86,
    data := (tlvFind es 0x87).map fun e => slice f e.off e.len }

/-- The ASDUs of an SV frame; none where noASDU is outside 1 to 16 or they cannot be read (R142). -/
def frameAsdus (f : List Byte) : Option (List Asdu) :=
  match tlvNat f (apduElems f) 0x80 with
  | some n => if 1 ≤ n ∧ n ≤ 16 then some (((svAsdus f).take n).map (asduOf f)) else none
  | none => none

/-- Channel position `p` of seqData: value and quality word (R142). -/
def channelAt (d : List Byte) (p : Nat) : Int × BitVec 32 := (signed 32 (beAt d (8 * p) 4), BitVec.ofNat 32 (beAt d (8 * p + 4) 4))

/-- SV or GOOSE. -/
def isProt (f : List Byte) : Bool := etherType f == svType || etherType f == gooseType

/-- An SV or GOOSE frame that the STB discards (R110): no identifying string, or a BER length of its APDU that runs past its end. -/
def malformed (f : List Byte) : Bool := isProt f && ((idString f).isNone || !berOk f f.length (etherOff f + 10) (etherOff f + 11))

/-- APPID of an SV or GOOSE frame. -/
def appid (f : List Byte) : Nat := if isProt f then beAt f (etherOff f + 2) 2 else 0

/-- The ID hash (R109). -/
def idHash (f : List Byte) : BitVec 32 := if isProt f then (match idString f with | some x => crc32 x | none => 0) else 0

/-- The stream key (R109), from the frame without HSR tag and the VLAN ID assigned under R76. -/
def streamKey (f : List Byte) (vid : Nat) : BitVec 128 :=
  BitVec.ofNat 128 (dstMac f * 2 ^ 80 + vid * 2 ^ 64 + appid f * 2 ^ 48 + etherType f * 2 ^ 32 + (idHash f).toNat)

/-- The key of a forwarding entry (R117). -/
def fwdKey (mac vid : Nat) : BitVec 128 := BitVec.ofNat 128 (mac * 2 ^ 80 + vid * 2 ^ 64)

/-- An authentication extension follows the APDU when Reserved 1 gives its length (log entry 8). -/
def extLen (f : List Byte) : Nat := beAt f (etherOff f + 6) 2 % 256

/-- The claim trailer of a frame whose PRP trailer is removed (R243). -/
def claimOf (f : List Byte) : Option (BitVec 64) :=
  if 22 ≤ f.length then
    let t : BitVec 64 := BitVec.ofNat 64 (beAt f (f.length - 8) 8)
    if trailerOk t then
      if etherType f = gooseType then
        match apduEnd f with
        | some e => if e + extLen f + 8 ≤ f.length then some t else none
        | none => none
      else some t
    else none
  else none

/-- CLAIM of a trailer. -/
def trailerClaim (t : BitVec 64) : Nat := bits t 47 16

/-- UNIT of a trailer. -/
def trailerUnit (t : BitVec 64) : Nat := bits t 15 12

/-- The GOOSE elements that the OCU keys by (R238, R258): gocbRef, stNum, sqNum, each found within the first 256 octets of the
APDU. -/
def gooseKey (f : List Byte) : Option (BitVec 32 × Nat × Nat) :=
  match apdu f with
  | some a =>
    let es := apduElems f
    let start := etherOff f + 10
    let ok := fun e : Tlv => decide (e.off + e.len ≤ start + 256)
    match tlvFind es 0x80, tlvFind es 0x85, tlvFind es 0x86 with
    | some g, some st, some sq =>
      if ok g && ok st && ok sq && decide (a.len > 0) then
        some (crc32 (slice f g.off g.len), beAt f st.off st.len, beAt f sq.off sq.len)
      else none
    | _, _, _ => none
  | none => none

end Sys2Proof.Machine
end

