-- ==== Sys2Proof/Machine/AcqOps.lean ====
section
/-!
DEFINITION. Machine/AcqOps.lean: input rates and presets (R141, R149), and the acquisition engine's staging. Frames and items
(R320 to R325), the room of a staging buffer and the stop of capture (R326, R327), measurements (R310 to R315), triggers (R316).
-/
namespace Sys2Proof.Machine
open Sys2Proof

/-! ### Rates and presets -/

/-- Input rate of a RATE code in samples/s (R141). -/
def rateIn (code : Nat) : Nat := [4000, 4800, 12800, 14400, 15360, 96000].getD code 14400

/-- SMP_WRAP at reset of a RATE code (R141). -/
def wrapOf (code : Nat) : Nat := [4000, 4800, 12800, 14400, 15360, 48000].getD code 14400

/-- Decimation D of a preset (R149). -/
def presetD (p : Nat) : Nat := [1, 2, 3, 6, 12].getD p 1

/-- Taps of a preset (R149). -/
def presetTaps (p : Nat) : Nat := [15, 31, 47, 95, 191].getD p 15

/-- Group delay d of a preset in input samples (R149). -/
def presetDelay (p : Nat) : Nat := (presetTaps p - 1) / 2

/-- The middle coefficient that a first half leaves: the set sums to 32,768 (R149). -/
def firMiddle (l : List Int) : Int := 32768 - 2 * l.sum

/-- A first half gives a set of R150: 16-bit coefficients whose magnitudes sum to less than 1.5 x 32,768. -/
def firHalfOk (l : List Int) : Bool :=
  decide (2 * ((l.map Int.natAbs).sum : Int) + (firMiddle l).natAbs < 49152) && decide (firMiddle l < 32768)

/-- The first half of a preset's coefficients: any that R149 and R150 allow. -/
def firHalf (p : Nat) : List Int :=
  let l := (List.range (presetDelay p)).map fun k => (Config.firCoef p k).toInt
  if firHalfOk l then l else List.replicate (presetDelay p) 1

/-- Coefficient i of a preset (R149): the set is symmetric about its middle one, which makes the sum 32,768. -/
def firTap (p i : Nat) : Int :=
  let j := min i (presetTaps p - 1 - i)
  if j = presetDelay p then firMiddle (firHalf p) else (firHalf p).getD j 0

/-! ### Streams -/

/-- Stream n. -/
def State.acqS (s : State) (n : Nat) : AcqStream := s.acq.streams.get n {}

/-- Stream n changed. -/
def State.setAcqS (s : State) (n : Nat) (f : AcqStream → AcqStream) : State :=
  s.modAcq fun a => { a with streams := a.streams.set n (f (a.streams.get n {})) }

/-- An ACQ counter raised (R334). -/
def acqCount (i : Nat) (s : State) (n : Nat := 1) : State := s.modAcq fun a => { a with live := bump a.live i n }

/-- Source k of a stream; at reset where unlisted. -/
def AcqStream.src (st : AcqStream) (k : Nat) : AcqSrc := st.srcs.getD k {}

/-- The sources of a stream in use, with their numbers: VALID, and below NSRC (R308, R332). -/
def AcqStream.inUse (st : AcqStream) : List (AcqSrc × Nat) := (st.srcs.zipIdx.take st.nsrc).filter fun x => x.1.valid

/-- The sources of a stream in use. -/
def AcqStream.used (st : AcqStream) : List AcqSrc := st.inUse.map fun x => x.1

/-- The longest UDP payload of a frame of the stream (R321). -/
def acqPayloadMax (st : AcqStream) (s : State) : Nat :=
  (s.port st.port).maxFrame - (if s.sw.prpEn && (st.port == 4 || st.port == 5) then 56 else 50)

/-- Octets of the items being filled. -/
def AcqStream.itemOctets (st : AcqStream) : Nat := (st.items.map fun i => i.octets.length).sum

/-- Octets staged: complete payloads, and the one being filled with its header and CRC (R326). -/
def AcqStream.occ (st : AcqStream) : Nat :=
  (st.frames.map fun f => f.length).sum + (if st.items = [] then 0 else st.itemOctets + 36)

/-- Staged octets with one more item of `n` octets, as a new frame at worst. -/
def AcqStream.roomFor (st : AcqStream) (n : Nat) (reserve : Bool) : Bool :=
  decide (st.occ + n + 36 ≤ st.stageGran * 2097152 - (if reserve then 0 else 2048))

/-- The header of a payload (R321), in network order (R11). -/
def payloadHeader (n : Nat) (st : AcqStream) (s : State) : List Byte :=
  [1, BitVec.ofNat 8 (16 * s.cgu.unitId + s.cgu.role.code), BitVec.ofNat 8 n, 0] ++ beBytes 4 st.frameSeq ++ beBytes 8 s.now
    ++ beBytes 8 s.time.tbNs ++ beBytes 2 (s.time.tbFrac / 65536) ++ beBytes 2 s.time.stepEpoch ++ beBytes 2 st.items.length ++ [0, 0]

/-- The frame being filled is staged: header, items, closing CRC-32 (R321). -/
def acqClose (n : Nat) (s : State) : State :=
  let st := s.acqS n
  if st.items = [] then s
  else
    let p := payloadHeader n st s ++ st.items.flatMap fun i => i.octets
    acqCount 0 (s.setAcqS n fun x => { x with
      items := [], frames := x.frames ++ [p ++ beBytes 4 (crc32 p).toNat], frameSeq := (x.frameSeq + 1) % 2 ^ 32 })

/-- A whole item is staged, after the frame being filled if it does not fit there (R322). -/
def acqPut (n : Nat) (item : List Byte) (s : State) : State :=
  let st := s.acqS n
  let s := if acqPayloadMax st s < st.itemOctets + item.length + 36 then acqClose n s else s
  s.setAcqS n fun x =>
    let y : AcqStream := { x with items := x.items ++ [{ octets := item, firstAge := s.now, flushUs := x.flushUs }] }
    { y with stageHwm := max y.stageHwm ((y.occ + 1023) / 1024) }

/-- An OVERFLOW (4) or RESTART (5) item (R328). -/
def eventItem (type reason : Nat) (s : State) : List Byte :=
  [BitVec.ofNat 8 type, 0xFF] ++ beBytes 2 24 ++ [BitVec.ofNat 8 reason, 0] ++ beBytes 2 s.time.stepEpoch ++ beBytes 8 s.now
    ++ beBytes 8 s.time.tbNs

/-- Capture stops (R327): the OVERFLOW item takes the reserved room; triggers not yet placed are counted; the record in progress is
given up. The stop has its record in the EVR (R491). -/
def acqStop (n reason : Nat) (s : State) : State :=
  let st := s.acqS n
  if st.run then
    let s := note .acq 0 0x024 0 .none (leBytes 4 n ++ leBytes 4 reason) s
    let s := acqCount 13 (acqPut n (eventItem 4 reason s) s)
    let s := acqCount 10 s st.trigs.length
    s.setAcqS n fun x => { x with run := false, stopReason := reason, trigs := [],
                                  sst := x.sst.map fun q => (q.1, { q.2 with cur := [] }) }
  else s

/-- The ACQ takes one more entry at its input: EN is 1 and fewer than 512 wait (R327, R331). -/
def Acq.room (a : Acq) : Bool := a.en && decide (a.inQ.length < 512)

/-- A copy or set is dropped at the ACQ input: ACQ_DROP, and the streams with such a source stop (R132, R327). -/
def acqLost (p : AcqSrc → Bool) (s : State) : State :=
  (List.range 4).foldl (fun s n => if (s.acqS n).used.any p then acqStop n 2 s else s) (swCount 19 s)

/-- A conditioned set arrives at the ACQ input (R309). -/
def acqPass (x : AcqSet) (s : State) : State :=
  if s.acq.room then s.modAcq fun a => { a with inQ := a.inQ ++ [{ set := x }] }
  else acqLost (fun y => !y.raw && y.ref == x.group) s

/-! ### Triggers -/

/-- A trigger reaches stream n (R316, R319): counted, and kept until its position comes, with the span that its cause has now (R333). -/
def acqTriggerOn (t : AcqTrig) (n : Nat) (s : State) : State :=
  let st := s.acqS n
  if st.run && st.causeEn.getLsbD t.cause then
    acqCount (5 + t.cause) (s.setAcqS n fun x => { x with trigs := x.trigs ++ [{ t with span := x.prePost.getD t.cause (0, 0) }] })
  else acqCount 9 s

/-- A trigger reaches the streams it concerns (R316), those that do not run too: there it is counted. -/
def acqTrigger (t : AcqTrig) (concerns : AcqStream → Bool) (s : State) : State :=
  (List.range 4).foldl (fun s n => if concerns (s.acqS n) then acqTriggerOn t n s else s) s

/-- A trigger of a cause stamped now. -/
def State.trigNow (s : State) (cause : Nat) : AcqTrig := { cause := cause, ns := s.time.tbNs, epoch := s.time.stepEpoch, age := s.now }

/-- The MARK item of the triggers of one position (R319, R325). -/
def markItem (st : AcqStream) (record index : Nat) : List Byte :=
  let ts := st.trigs
  let of := fun c => ts.filter fun t => t.cause == c
  let causes := (List.range 4).filter fun c => decide (of c ≠ [])
  let prim := causes.headD 0
  let pp := ((of prim).headD {}).span
  let e := ts.foldl (fun (a : AcqTrig) t => if t.ns < a.ns then t else a) (ts.headD {})
  let thr := (of 1).head?
  let ins := (of 2).head?
  [3, 0] ++ beBytes 2 48 ++ beBytes 4 ((st.markSeq + 1) % 2 ^ 32)
    ++ [BitVec.ofNat 8 (listMask 8 causes).toNat, BitVec.ofNat 8 prim, BitVec.ofNat 8 pp.1, BitVec.ofNat 8 pp.2]
    ++ beBytes 4 record ++ beBytes 2 index ++ [BitVec.ofNat 8 (min 255 (of 1).length), BitVec.ofNat 8 (min 255 (of 2).length)]
    ++ beBytes 8 e.ns ++ beBytes 2 e.epoch ++ [0, 0] ++ beBytes 8 e.age
    ++ beBytes 2 ((thr.map fun t => t.ctx).getD 0) ++ beBytes 2 ((thr.map fun t => t.smpCnt).getD 0)
    ++ beBytes 2 ((ins.map fun t => t.inst).getD 0)
    ++ [BitVec.ofNat 8 (((of 3).head?.map fun t => t.comp).getD 255), BitVec.ofNat 8 ((ins.map fun t => t.code).getD 0)]

/-! ### Measurements -/

/-- The output rate of a source, exactly, as a fraction (R152, R310). -/
def fOut (rate preset : Nat) (raw : Bool) : Nat × Nat := (rateIn rate, if raw then 1 else presetD preset)

/-- Samples of a record (R310). -/
def recLenOf (x : AcqSrc) (f : Nat × Nat) : Nat :=
  if x.recLen = 0 then roundDiv f.1 (f.2 * (if x.f60 then 60 else 50)) else x.recLen

/-- PEAK and PEAK_IDX: the earliest sample of largest magnitude (R312). -/
def peakOf (xs : List Int) : Int × Nat :=
  (xs.zipIdx).foldl (fun (b : Int × Nat) x => if b.1.natAbs < x.1.natAbs then x else b) (xs.headD 0, 0)

/-- The scan for zero crossings of a record (R313): crossings, whether y has been below -ZC_HYST, the previous sample. -/
structure ZcScan where
  /-- Crossings found, in 2^-16 samples. -/
  found : List Nat := []
  /-- Some y has been below the hysteresis since the previous crossing. -/
  armed : Bool := false
  /-- The previous sample. -/
  last : Option Int := none

/-- One sample of the scan: y is taken with the MEAN of the record for both samples of the pair (R313). -/
def ZcScan.step (z : ZcScan) (mean : Int) (hyst count : Nat) (x : Int) : ZcScan :=
  let y := x - mean
  let hit := match z.last with | some p => decide (p - mean < 0) && decide (0 ≤ y) && z.armed | none => false
  let c := match z.last with
    | some p => (count - 1) * 65536 + ((- (p - mean)) * 65536 / (x - p)).toNat
    | none => 0
  { found := if hit then z.found ++ [c] else z.found, armed := if hit then false else z.armed || decide (y < - (hyst : Int)),
    last := some x }

/-- The crossings of a channel's record, and its scan afterwards. -/
def zcScan (z : ZcState) (mean : Int) (hyst base : Nat) (xs : List Int) : ZcScan :=
  (xs.zipIdx).foldl (fun a x => a.step mean hyst (base + x.2) x.1) { armed := z.armed, last := z.lastX }

/-- The crossings that FREQ uses: those of the last `n` records, with the one carried into the oldest of them (R314). -/
def freqList (recs : List (Option Nat × List Nat)) (n : Nat) : List Nat :=
  let r := (recs.take n).reverse
  (match r with | (some c, _) :: _ => [c] | _ => []) ++ r.flatMap fun q => q.2

/-- A value that fits its field, or what the spec does not state (log entry 4). -/
def inField (w v : Nat) : Nat := if v < 2 ^ w then v else Config.outside v % 2 ^ w

/-- PERIOD of a list of crossings (R314), in 2^-16 ns. -/
def periodOf (l : List Nat) (f : Nat × Nat) : Nat :=
  if l.length < 2 then 0
  else inField 64 (roundDiv ((l.getLastD 0 - l.headD 0) * 1000000000 * f.2) ((l.length - 1) * f.1))

/-- FREQ of a list of crossings (R314), in uHz. -/
def freqOf (l : List Nat) (f : Nat × Nat) : Nat :=
  if l.length < 2 then 0
  else inField 32 (roundDiv ((l.length - 1) * f.1 * 65536 * 1000000) (f.2 * (l.getLastD 0 - l.headD 0)))

/-- MFLAGS of a channel (R315). -/
def mflags (cur : List AcqSample) (c : Nat) (nozc partial_ : Bool) : Nat :=
  let q := fun (x : AcqSample) => x.quals.getD c 0 % 4
  let f := fun (x : AcqSample) => x.cflags.getD c 0
  b2n (cur.any fun x => q x == 1 || q x == 2) + 2 * b2n (cur.any fun x => q x == 3)
    + 4 * b2n (cur.any fun x => fld (f x) 5 5 == 1 || x.hdr.getLsbD 1 || x.hdr.getLsbD 0)
    + 8 * b2n (cur.any fun x => fld (f x) 4 4 == 1) + 16 * b2n (cur.any fun x => x.hdr.getLsbD 3)
    + 32 * b2n nozc + 64 * b2n partial_

/-- What one channel of a closed record measures: its 32 octets, and its crossing state afterwards (R312 to R315, R324). -/
def measChannel (q : AcqSrcState) (f : Nat × Nat) (c : Nat) (partial_ : Bool) : List Byte × ZcState :=
  let xs := q.cur.map fun x => x.xs.getD c 0
  let n := xs.length
  let mean := roundInt xs.sum n
  let rms := (isqrt (4 * (xs.map fun x => (x * x).natAbs).sum / n) + 1) / 2
  let pk := peakOf xs
  let z := q.zc.get c {}
  let a := zcScan z mean q.hyst q.base xs
  let recs := ((z.carried, a.found) :: z.recs).take 8
  let lp := freqList recs 1
  let lf := freqList recs q.freqRecs
  let nozc := decide (lp.length < 2) || decide (lf.length < 2)
  let drop := partial_ || q.cur.any fun x => x.hdr.getLsbD 1
  (beBytes 4 (unsigned 32 mean) ++ beBytes 4 rms ++ beBytes 4 (unsigned 32 pk.1) ++ beBytes 2 pk.2
      ++ [BitVec.ofNat 8 (min 255 a.found.length), BitVec.ofNat 8 (mflags q.cur c nozc partial_)]
      ++ beBytes 8 (if nozc then 0 else periodOf lp f) ++ beBytes 4 (if nozc then 0 else freqOf lf f) ++ beBytes 4 0,
   { recs := recs, carried := if drop then none else (a.found.getLast?).or z.carried, armed := a.armed, lastX := a.last })

/-- A record closes (R311): its measurements, a MEAS item where they are asked for (R312, R324), and the record that follows. -/
def acqCloseRecord (n k : Nat) (f : Nat × Nat) (partial_ : Bool) (s : State) : State :=
  let st := s.acqS n
  let q := st.sst.get k {}
  if q.cur = [] then s
  else
    let nch := (q.cur.headD {}).xs.length
    let m := (List.range nch).map fun c => measChannel q f c partial_
    let base := if partial_ then max q.next (q.base + recLenOf (st.src k) f) else q.next
    let q1 : AcqSrcState := { q with
      next := base, record := (q.record + 1) % 2 ^ 32, base := base, cur := [],
      zc := (m.zipIdx).foldl (fun (t : Tbl ZcState) x => t.set x.2 x.1.2) q.zc }
    let s1 := s.setAcqS n fun x => { x with sst := x.sst.set k q1 }
    if !(st.src k).measEn then s1
    else
      let item := [2, BitVec.ofNat 8 k] ++ beBytes 2 (16 + 32 * nch) ++ beBytes 4 q.record ++ beBytes 2 q.cur.length
        ++ [BitVec.ofNat 8 nch, 0] ++ beBytes 4 (q.base % 2 ^ 32) ++ m.flatMap fun x => x.1
      if st.roomFor item.length false then acqCount 2 (acqPut n item s1) else acqStop n 1 s1

/-! ### Samples -/

/-- A sample on its way into a source's record (R310). -/
structure AcqArrival where
  /-- The sample; its count is given when it is taken. -/
  smp : AcqSample
  /-- EXT of its set. -/
  ext : Nat := 0
  /-- Preset code, 7 for RAW. -/
  preset : Nat := 7
  /-- RATE code. -/
  rate : Nat := 3
  /-- The source is RAW. -/
  raw : Bool := false
deriving DecidableEq, Repr

/-- One channel entry of the stream (R323). -/
def channelEntry (x : AcqSample) (raw : Bool) (c : Nat) : List Byte :=
  beBytes 4 (unsigned 32 (x.xs.getD c 0)) ++ beBytes 2 (x.quals.getD c 0 % 16384)
    ++ beBytes 2 (if raw then 0 else x.cflags.getD c 0 % 64 + 64 * b2n (x.hdr.getLsbD 3) + 128 * b2n (x.hdr.getLsbD 1)
                    + 256 * b2n (x.hdr.getLsbD 0))

/-- All channel entries of a sample. -/
def sampleOctets (x : AcqSample) (raw : Bool) : List Byte := (List.range x.xs.length).flatMap (channelEntry x raw)

/-- The header of a DATA item of one sample (R323). -/
def dataHeader (k : Nat) (q : AcqSrcState) (a : AcqArrival) : List Byte :=
  [1, BitVec.ofNat 8 k] ++ beBytes 2 (24 + 8 * a.smp.xs.length) ++ beBytes 4 q.record ++ beBytes 2 (a.smp.count - q.base)
    ++ beBytes 2 1 ++ beBytes 2 a.smp.smpCnt ++ [BitVec.ofNat 8 a.smp.xs.length, BitVec.ofNat 8 a.preset, BitVec.ofNat 8 a.rate,
      BitVec.ofNat 8 (if a.raw then 0 else presetDelay a.preset), BitVec.ofNat 8 a.smp.synch, 0] ++ beBytes 4 (a.smp.count % 2 ^ 32)

/-- The item can be continued by the sample (R323): the same source, record, channels, preset and rate, the next count, on the grid. -/
def extends_ (item : List Byte) (k : Nat) (q : AcqSrcState) (a : AcqArrival) : Bool :=
  beAt item 0 1 == 1 && beAt item 1 1 == k && beAt item 4 4 == q.record && beAt item 14 1 == a.smp.xs.length
    && beAt item 15 1 == a.preset && beAt item 16 1 == a.rate && (beAt item 20 4 + beAt item 10 2) % 2 ^ 32 == a.smp.count % 2 ^ 32
    && (a.raw || a.ext == (q.lastExt + presetD a.preset) % 2 ^ 32)

/-- A sample joins the last item of the frame being filled, or opens one of its own (R322, R323). -/
def putSample (n k : Nat) (q : AcqSrcState) (a : AcqArrival) (s : State) : State :=
  let st := s.acqS n
  let o := sampleOctets a.smp a.raw
  match st.items.getLast? with
  | some it =>
    if extends_ it.octets k q a && decide (st.itemOctets + o.length + 36 ≤ acqPayloadMax st s) then
      let h := putAt (putAt it.octets 2 (beBytes 2 (it.octets.length + o.length))) 10 (beBytes 2 (beAt it.octets 10 2 + 1))
      s.setAcqS n fun x =>
        let y : AcqStream := { x with items := x.items.dropLast ++ [{ it with octets := h ++ o }] }
        { y with stageHwm := max y.stageHwm ((y.occ + 1023) / 1024) }
    else acqCount 1 (acqPut n (dataHeader k q a ++ o) s)
  | none => acqCount 1 (acqPut n (dataHeader k q a ++ o) s)

/-- The triggers that wait become one mark before the position sample (R319). -/
def placeMark (n : Nat) (q : AcqSrcState) (s : State) : State :=
  let st := s.acqS n
  if st.trigs = [] then s
  else
    let s := acqCount 4 (acqCount 3 (acqPut n (markItem st q.record (q.next - q.base)) s)) (st.trigs.length - 1)
    s.setAcqS n fun x => { x with markSeq := (x.markSeq + 1) % 2 ^ 32, trigs := [] }

/-- A sample of source k of stream n is staged (R311, R319, R322): before it the mark of the reference source, after it the measurements
of a record it completes. A sample that finds the buffer full stops capture (R327). -/
def acqTake (n k : Nat) (a : AcqArrival) (s : State) : State :=
  let st := s.acqS n
  if !st.run then s
  else
    let f := fOut a.rate a.preset a.raw
    let q0 := st.sst.get k {}
    let s := if a.raw && (match q0.expect with | some e => decide (e ≠ a.smp.smpCnt) | none => false) then acqCloseRecord n k f true s else s
    let st := s.acqS n
    if !st.run then s
    else if !st.roomFor (24 + 8 * a.smp.xs.length) false then acqStop n 1 s
    else
      let q := st.sst.get k {}
      let a := { a with smp := { a.smp with count := q.next } }
      let s := putSample n k q a (if k = 0 then placeMark n q s else s)
      let q1 : AcqSrcState := { q with
        hyst := if q.cur = [] then st.zcHyst else q.hyst, freqRecs := if q.cur = [] then st.freqRecs else q.freqRecs,
        next := q.next + 1, cur := q.cur ++ [a.smp], lastExt := a.ext,
        expect := if a.raw then some ((a.smp.smpCnt + 1) % wrapOf a.rate) else none }
      let s := s.setAcqS n fun x => { x with sst := x.sst.set k q1 }
      if recLenOf (st.src k) f ≤ q1.next - q1.base then acqCloseRecord n k f false s else s

/-- Every running stream's sources that satisfy a test, each acted on. -/
def acqSources (p : AcqSrc → Bool) (act : Nat → Nat → AcqSrc → State → State) (s : State) : State :=
  (List.range 4).foldl (fun s n =>
    ((s.acqS n).inUse.filter fun x => p x.1).foldl (fun s x => act n x.2 x.1 s) s) s

/-- A group turned stale: its sources close their records (R311). -/
def acqStale (group preset rate : Nat) (s : State) : State :=
  acqSources (fun x => !x.raw && x.ref == group) (fun n k _ s => acqCloseRecord n k (fOut rate preset false) true s) s

end Sys2Proof.Machine
end

