-- ==== Sys2Proof/Machine/Buffer.lean ====
section
/-!
DEFINITION. Machine/Buffer.lean: the shared buffer. Reference counts of entries (R124, R125), copies and their completion (R131,
R132), push-out (R133, R134), and the transmit queues at their input (R71, R80, R94).
-/
namespace Sys2Proof.Machine
open Sys2Proof

/-! ### Instances -/

/-- The instance exists (R174): READY, RUNNING or HALTED. -/
def Inst.exists_ (d : Inst) : Bool := d.state == .ready || d.state == .running || d.state == .halted

/-- PSC k. -/
def State.psc (s : State) (k : Nat) : Psc := s.sched.pscs.get k {}

/-- PSC k changed. -/
def State.setPsc (s : State) (k : Nat) (f : Psc → Psc) : State :=
  s.modSched fun x => { x with pscs := x.pscs.set k (f (x.pscs.get k {})) }

/-- The active bank of a PSC (R215). -/
def Psc.active (p : Psc) : Tbl SlotEntry := if p.bank = 0 then p.bank0 else p.bank1

/-! ### Use against share (R178, R192) -/

/-- Slots of the instance in the committed partition tables. -/
def State.useSlots (s : State) (i : Nat) : Nat :=
  (s.sched.pscs.map fun p => (p.2.active.filter fun e => e.2.valid && e.2.inst == i).length).sum

/-- A subscriber position holds a subscription: a valid one, or one that waits for its ring (R169, R193). -/
def Subscr.held (x : Subscr) : Bool := x.valid || x.wait

/-- A subscription of the instance. -/
def Subscr.names (x : Subscr) (i : Nat) : Bool := x.held && x.inst == i

/-- Contexts of every group whose subscriber 0 is the instance. -/
def State.useCtx (s : State) (i : Nat) : Nat :=
  (s.sce.groups.map fun g => match g.2.subs with | x :: _ => if x.names i then g.2.nch else 0 | [] => 0).sum

/-- Subscriber positions, INST bits of bitmaps, and forwarding entries whose TARGET is the instance. -/
def State.useSubs (s : State) (i : Nat) : Nat :=
  (s.sce.groups.map fun g => (g.2.subs.filter fun x => x.names i).length).sum
    + (s.sw.bitmaps.filter fun b => b.2.inst.getLsbD i).length
    + (s.sw.fwd.filter fun e => e.2.state == .active && e.2.targetType == 3 && e.2.target == i).length

/-- Key slots owned by the instance. -/
def State.useKeys (s : State) (i : Nat) : Nat :=
  (s.ksu.slots.filter fun k => !k.2.byMgp && k.2.owner == i && k.2.ownerGen ≠ 0).length

/-- Locks assigned to the instance. -/
def State.useLocks (s : State) (i : Nat) : Nat := (s.insts.locks.filter fun l => l.2.en && l.2.owner == i).length

/-- OVER as the uses and shares stand (R192, R206). -/
def State.overNow (s : State) (i : Nat) : BitVec 9 :=
  let d := s.inst i
  listMask 9 (([(s.useSlots i, d.share.slots), (d.lsMap.length, d.share.ls), (d.dramMap.length, d.share.dram),
    (s.useCtx i, d.share.ctx), (s.useSubs i, d.share.subs), (d.useEgress, d.share.egress), (s.useKeys i, d.share.keys),
    (d.useMir, d.share.mir), (s.useLocks i, d.share.locks)].zipIdx.filter fun p => decide (p.1.2 < p.1.1)).map fun p => p.2)

/-- OVER brought up to date for an instance that exists; a change is told to the host (R192). -/
def refreshOver (i : Nat) (s : State) : State :=
  let d := s.inst i
  let o := s.overNow i
  if d.exists_ && o ≠ d.overBits then emit 0x02F1 (some i) d.gen [o.toNat] (s.setInst i fun d => { d with overBits := o }) else s

/-- OVER brought up to date for every instance. -/
def refreshAllOver (s : State) : State := s.insts.desc.foldl (fun s p => refreshOver p.1 s) s

/-- An allocation of k units is admitted (R192). -/
def admits (use k share : Nat) : Bool := decide (use + k ≤ share)

/-! ### Entries and copies -/

/-- Stream entry idx. -/
def State.stream (s : State) (idx : Nat) : StreamEntry := s.sw.streams.get idx {}

/-- Stream entry idx changed. -/
def State.setStream (s : State) (idx : Nat) (f : StreamEntry → StreamEntry) : State :=
  s.modSw fun w => { w with streams := w.streams.set idx (f (w.streams.get idx {})) }

/-- Forwarding entry idx. -/
def State.fwdE (s : State) (idx : Nat) : FwdEntry := s.sw.fwd.get idx {}

/-- Forwarding entry idx changed. -/
def State.setFwd (s : State) (idx : Nat) (f : FwdEntry → FwdEntry) : State :=
  s.modSw fun w => { w with fwd := w.fwd.set idx (f (w.fwd.get idx {})) }

/-- A port counter raised (R92). -/
def portCount (k i : Nat) (s : State) (n : Nat := 1) : State := s.setPort k fun p => { p with live := bump p.live i n }

/-- The hold-off in force in ns: never less than twice the longest class limit (R125). -/
def holdoffNs (s : State) : Nat := max (ms s.sw.holdoffMs) (2 * us (s.sw.clsAge.foldl max 0))

/-- The index names a stream entry (R111). -/
def isStreamIdx (i : Nat) : Bool := decide (i < 0x4000)

/-- The index names a forwarding entry (R111). -/
def isFwdIdx (i : Nat) : Bool := decide (0x4000 ≤ i) && decide (i < 0x6000)

/-- A DRAINING stream entry whose counts are both 0 becomes QUARANTINE (R125). -/
def StreamEntry.settle (e : StreamEntry) (quarEnd : Nat) : StreamEntry :=
  if e.state = .draining ∧ e.refCur = 0 ∧ e.refPrev = 0 then { e with state := .quarantine, quarEnd := quarEnd } else e

/-- As for stream entries. -/
def FwdEntry.settle (e : FwdEntry) (quarEnd : Nat) : FwdEntry :=
  if e.state = .draining ∧ e.refCur = 0 ∧ e.refPrev = 0 then { e with state := .quarantine, quarEnd := quarEnd } else e

/-- `n` copies are made under an entry (R124). -/
def entryHold (idx n : Nat) (s : State) : State :=
  if isStreamIdx idx then s.setStream idx fun e => { e with refCur := e.refCur + n }
  else if isFwdIdx idx then s.setFwd idx fun e => { e with refCur := e.refCur + n }
  else s

/-- A copy of an entry's generation completes (R124, R125). -/
def entryDone (idx gen : Nat) (s : State) : State :=
  let q := s.now + holdoffNs s
  if isStreamIdx idx then
    s.setStream idx fun e =>
      (if e.gen = gen then { e with refCur := e.refCur - 1 } else { e with refPrev := e.refPrev - 1 }).settle q
  else if isFwdIdx idx then
    s.setFwd idx fun e =>
      (if e.gen = gen then { e with refCur := e.refCur - 1 } else { e with refPrev := e.refPrev - 1 }).settle q
  else s

/-- A stored frame. -/
def State.stored (s : State) (n : Nat) : Stored := s.sw.store.get n {}

/-- The cells of a frame whose last copy has completed are freed and given back to the instance they were charged to, whichever its
generation (R133, R178, R189); its OVER follows (R192). -/
def freeFrame (n : Nat) (f : Stored) (s : State) : State :=
  let s := s.modSw fun w => { w with store := w.store.del n, freeCells := w.freeCells + f.cells }
  match f.owner with
  | some (i, _) => refreshOver i (s.setInst i fun d => { d with useEgress := d.useEgress - f.cells })
  | none => s

/-- One copy of a stored frame completes: transmitted, delivered, discarded or aged (R124, R133). -/
def copyDone (n entry gen : Nat) (nonPort : Bool) (s : State) : State :=
  let s := entryDone entry gen s
  let f := s.stored n
  let f1 := { f with copies := f.copies - 1, nonPort := if nonPort then f.nonPort - 1 else f.nonPort }
  if f1.copies = 0 then freeFrame n f1 s else s.modSw fun w => { w with store := w.store.set n f1 }

/-- The number under which the time base accounts an owner's stamps: the instance, or 512 for the MGP (R301). -/
def stampOwner (inst : Option (Nat × Nat)) : Nat := match inst with | some (i, _) => i | none => 512

/-- A copy that wanted a stamp will never depart: TS_UNSENT of its owner advances, in the generation it belongs to (R303). -/
def unsent (c : TxCopy) (s : State) : State :=
  let live := match c.inst with | some (i, g) => s.genCurrent i g | none => true
  if c.ts && live then
    s.modTime fun t => { t with owners := t.owners.mod (stampOwner c.inst) {} fun o => { o with unsent := satAdd 32 o.unsent 1 } }
  else s

/-- A port copy completes. -/
def txDone (c : TxCopy) (s : State) : State := copyDone c.frame c.entry c.gen false s

/-- A port copy is dropped and counted in a counter of its port (R132). -/
def txDrop (k counter : Nat) (c : TxCopy) (s : State) : State := txDone c (unsent c (portCount k counter s))

/-- Among the copies of one queue, a copy stands by the order in which the frames were stored (R81, R256). -/
def queueIn (c : TxCopy) (q : List TxCopy) : List TxCopy :=
  (q.takeWhile fun x => decide (x.frame ≤ c.frame)) ++ c :: (q.dropWhile fun x => decide (x.frame ≤ c.frame))

/-- A copy arrives at a transmit queue: refused while the link is down or TX_EN is 0 (R71, R94, R132). -/
def enqueue (k : Nat) (c : TxCopy) (s : State) : State :=
  let p := s.port k
  if !p.link then txDrop k 31 c s
  else if !p.txEn then txDrop k 36 c s
  else s.setPort k fun p => { p with queues := p.queues.mod c.cls [] (queueIn c) }

/-- A destination of a frame's copies (R131). -/
inductive Dest where
  | port (k : Nat) (c : TxCopy) | gate (k : Nat) (c : TxCopy) (ctrl : Bool) (claim : Nat)
  | sce | acq | mgp | host (r : Nat) | inst (i : Nat)
deriving DecidableEq, Repr

/-- The copy waits in no transmit queue: it is held by a consumer in the module. A copy before the claim gate waits at the head of its
queue (R256) and counts as queued. -/
def Dest.nonPort : Dest → Bool
  | .port _ _ => false | .gate _ _ _ _ => false | _ => true

/-- A supervision frame delivered to the MGP updates its node table (R127). -/
def nodeSeen (f : Stored) (s : State) : State :=
  if etherType f.octets = 0x88FB then
    let m : BitVec 48 := BitVec.ofNat 48 (srcMac f.octets)
    s.modSw fun w => { w with nodes := (w.nodes.filter fun n => n.mac ≠ m) ++ [{ mac := m, lastSeen := s.now }] }
  else s

/-- One destination's copy is created (R131, R132). -/
def deliver (n entry gen : Nat) (d : Dest) (s : State) : State :=
  let v : Deliver := { frame := n, entry := entry, gen := gen }
  match d with
  | .port k c => enqueue k { c with frame := n, entry := entry, gen := gen } s
  | .gate k c ctrl claim =>
    let c := { c with frame := n, entry := entry, gen := gen }
    if !(s.port k).link then txDrop k 31 c s
    else if !(s.port k).txEn then txDrop k 36 c s
    else s.modCgu fun g => { g with gate := g.gate ++ [{ port := k, copy := c, ctrl := ctrl, claim := claim, atNs := s.now }] }
  | .sce =>
    if s.sw.sceQ.length < 1024 then
      (s.modSw fun w => { w with sceQ := w.sceQ ++ [v] }).modSce fun c => { c with inqHwm := max c.inqHwm (s.sw.sceQ.length + 1) }
    else copyDone n entry gen true (swCount 18 s)
  | .acq =>
    if s.acq.room then s.modAcq fun a => { a with inQ := a.inQ ++ [{ copy := some v }] }
    else copyDone n entry gen true (acqLost (fun x => x.raw && x.ref == entry) s)
  | .mgp => copyDone n entry gen true (nodeSeen (s.stored n) s)
  | .host r => s.modSw fun w => { w with hostQ := w.hostQ ++ [{ v with host := r }] }
  | .inst i => s.modSw fun w => { w with instQ := w.instQ ++ [{ v with inst := i, instGen := (s.inst i).gen }] }

/-- The class of a frame in the push-out decision (R133): the highest class of its copies, 7 without a port copy. A copy for a consumer in the
module has the class that the frame was classified with, `cls`. -/
def frameClass (cls : Nat) (ds : List Dest) : Nat :=
  let cs := ds.filterMap fun d => match d with | .port _ c => some c.cls | .gate _ c _ _ => some c.cls | _ => none
  if cs = [] then 7 else (if ds.any Dest.nonPort then cls :: cs else cs).foldl max 0

/-- The number of the queue copies of a frame at a port. -/
def Port.copiesOf (p : Port) (n : Nat) : List TxCopy := p.queues.flatMap fun q => q.2.filter fun c => c.frame == n

/-- The copies of a frame that wait at a port, before the claim gate (R256). -/
def gateCopies (k n : Nat) (s : State) : List TxCopy :=
  (s.cgu.gate.filter fun g => g.port == k && g.copy.frame == n).map fun g => g.copy

/-- The frame may be pushed out (R134): a copy waits in a transmit queue, none is being transmitted or held by another consumer. -/
def evictable (n : Nat) (f : Stored) (s : State) : Bool :=
  decide (f.nonPort = 0) && ((List.range 8).any fun k => decide ((s.port k).copiesOf n ++ gateCopies k n s ≠ []))
    && ((List.range 8).all fun k => match (s.port k).sending with | some c => decide (c.frame ≠ n) | none => true)

/-- Frame `a` is younger than frame `b` (R134): by arrival stamp, then by ingress port. -/
def younger (a b : Stored) : Bool := decide (b.stamp < a.stamp) || (a.stamp == b.stamp && decide (b.port.getD 0 ≤ a.port.getD 0))

/-- The frame to push out for an arrival of class `c` (R134): the youngest of the lowest class below `c`. -/
def victim (c : Nat) (s : State) : Option (Nat × Stored) :=
  let vs := s.sw.store.filter fun p => decide (p.2.cls < c) && evictable p.1 p.2 s
  vs.foldl (fun best p => match best with
    | none => some p
    | some b => if p.2.cls < b.2.cls ∨ (p.2.cls = b.2.cls ∧ younger p.2 b.2) then some p else some b) none

/-- Every queued copy of a frame is removed, counted per port (R134). -/
def evict (n : Nat) (f : Stored) (s : State) : State :=
  let s := swCount (28 + f.cls) s
  (List.range 8).foldl (fun s k =>
    let cs := (s.port k).copiesOf n ++ gateCopies k n s
    let s := s.setPort k fun p => { p with queues := p.queues.map fun q => (q.1, q.2.filter fun c => c.frame ≠ n) }
    let s := s.modCgu fun g => { g with gate := g.gate.filter fun x => !(x.port == k && x.copy.frame == n) }
    cs.foldl (fun s c => txDrop k 35 c s) s) s

/-- Room is made by push-out (R134). `fuel` bounds the frames pushed out. -/
def makeRoom (c cells : Nat) : Nat → State → State
  | 0, s => s
  | fuel + 1, s =>
    if cells ≤ s.sw.freeCells then s
    else match victim c s with
      | none => s
      | some (n, f) => makeRoom c cells fuel (evict n f s)

/-- Cells of a stored frame of `l` octets, FCS counted (R133). -/
def cellsOf (l : Nat) : Nat := max 1 ((l + 255) / 256)

/-- A frame is stored once and all its copies are created (R131, R133, R134). A frame without destination is not stored. -/
def storeFrame (f : Stored) (entry gen : Nat) (ds : List Dest) (s : State) : State :=
  if ds = [] then s
  else
    let c := frameClass f.cls ds
    let s := makeRoom c f.cells s.sw.store.length s
    if s.sw.freeCells < f.cells then
      swCount (36 + c) (ds.foldl (fun s d => match d with | .port _ c => unsent c s | .gate _ c _ _ => unsent c s | _ => s) s)
    else
      let n := s.sw.nextFrame
      let f := { f with cls := c, copies := ds.length, nonPort := (ds.filter Dest.nonPort).length }
      let s := s.modSw fun w => { w with store := w.store.set n f, nextFrame := n + 1, freeCells := w.freeCells - f.cells,
                                         live := bump w.live (20 + c) }
      let s := entryHold entry ds.length s
      ds.foldl (fun s d => deliver n entry gen d s) s

/-- The ageing limit in us of a class with an entry's AGE_CODE (R114). -/
def ageLimit (s : State) (cls code : Nat) : Nat :=
  let c := s.sw.clsAge.getD cls 100000
  let e := [0, 10, 20, 50, 100, 200, 500, 1000, 2000, 5000, 10000, 20000, 50000, 100000].getD code 0
  if e = 0 then c else min c e

/-- The class that a port's map gives a PCP (R80). -/
def Port.classOf (p : Port) (pcp : Nat) : Nat := p.pcpMap.getD pcp pcp

/-- An address of the module's own block (R522): offset `k` of MAC_BASE. -/
def State.blockMac (s : State) (k : Nat) : Nat := (s.mbx.macBase.toNat + k) % 2 ^ 48

/-- The address is one of the module's own (R522): the block's nine, every existing instance's and every stream's. -/
def State.ownMac (s : State) (a : Nat) : Bool :=
  ((List.range 9).any fun k => a == s.blockMac k)
    || (s.insts.desc.any fun p => p.2.state != .free && p.2.state != .quarantine && p.2.mac.toNat == a)
    || (s.acq.streams.any fun p => p.2.srcMac.toNat == a && a != 0)

/-- Copies of a frame that the module itself sends to a set of ports: in HSR mode a ring copy goes to both ring ports with one
sequence number, in PRP mode a copy for P4 or P5 to both (R127, R128, R130). The sequence counters advance. -/
def redPorts (mask : List Nat) (s : State) : List (Nat × Option Nat) × State :=
  let ring := s.sw.hsrEn && (mask.contains 0 || mask.contains 1)
  let lan := s.sw.prpEn && (mask.contains 4 || mask.contains 5)
  let hs := s.sw.hsrSeq
  let ps := s.sw.prpSeq
  let a : List (Nat × Option Nat) := if ring then [(0, some hs), (1, some hs)] else ((mask.filter (· < 2)).map fun k => (k, none))
  let b : List (Nat × Option Nat) := (mask.filter fun k => k = 2 ∨ k = 3 ∨ k = 6 ∨ k = 7).map fun k => (k, none)
  let c : List (Nat × Option Nat) := if lan then [(4, some ps), (5, some ps)]
    else ((mask.filter fun k => k = 4 ∨ k = 5).map fun k => (k, none))
  (a ++ b ++ c, s.modSw fun w => { w with hsrSeq := if ring then (hs + 1) % 65536 else hs, prpSeq := if lan then (ps + 1) % 65536 else ps })

/-- Mirror copies of a frame (R136): one per analysis port, for sessions that select one of its ports or its flow. `rx` is the
ingress port, `tx` the ports it is queued on, `flow` the session its stream entry names, `code` the AGE_CODE of its entry (R114). Where several sessions
with one DEST select it, CLASS and KEEP_RED are those of the lowest (DESIGN CHOICE, log entry 173). -/
def mirrorDests (rx : Option Nat) (tx : List Nat) (flow : Option Nat) (code : Nat) (s : State) : List Dest :=
  let pick := (List.range 4).filterMap fun m =>
    let q := s.sw.mir.getD m {}
    let byRx := match rx with | some k => q.srcRx.getLsbD k && k != q.dest | none => false
    let byTx := tx.any fun k => q.srcTx.getLsbD k && k != q.dest
    if q.en && (byRx || byTx || flow == some m) then some q else none
  let one := pick.foldl (fun (acc : List MirSession) q => if acc.any fun r => r.dest == q.dest then acc else acc ++ [q]) []
  one.map fun q => .port q.dest { cls := q.cls, limitUs := ageLimit s q.cls code, mirror := true, keepRed := q.keepRed }

/-- A frame that the MGP builds is stored and queued on ports (R80, R522): never gated. -/
def mgpSend (octets : List Byte) (pcp vid : Nat) (ports : List Nat) (s : State) : State :=
  let (rp, s) := redPorts ports s
  let ds := rp.map fun kr =>
    let cls := (s.port kr.1).classOf pcp
    Dest.port kr.1 { cls := cls, limitUs := ageLimit s cls 0, redSeq := kr.2 }
  let f : Stored := { octets := octets, vid := vid, pcp := pcp, stamp := s.time.tbNs, frac := s.time.tbFrac / 65536, epoch := s.time.stepEpoch, age := s.now,
                      rxLen := octets.length + 4, cells := cellsOf (octets.length + 4) }
  storeFrame f 0xFFFF 0 (ds ++ mirrorDests none (rp.map (·.1)) none 0 s) s

end Sys2Proof.Machine
end

