-- ==== Sys2Proof/Machine/PortOps.lean ====
section
/-!
DEFINITION. Machine/PortOps.lean: what a port does as a whole: its links, its flushes, its pause, and the bypass head's coil (R71,
R82, R94, R102, R104).
-/
namespace Sys2Proof.Machine
open Sys2Proof

/-- All queued copies of a port. -/
def Port.queued (p : Port) : List TxCopy := p.queues.flatMap fun q => q.2

/-- Every queued copy is flushed and counted, those before the claim gate too (R71, R94). -/
def flushQueues (k counter : Nat) (s : State) : State :=
  let cs := (s.port k).queued ++ (s.cgu.gate.filter fun g => g.port == k).map fun g => g.copy
  let s := s.modCgu fun g => { g with gate := g.gate.filter fun x => x.port ≠ k }
  cs.foldl (fun s c => txDrop k counter c s) (s.setPort k fun p => { p with queues := [] })

/-- A frame in transmission is abandoned (R71). Its stamp was taken when it began. -/
def abandon (k : Nat) (s : State) : State :=
  match (s.port k).sending with
  | some c => txDrop k 31 { c with ts := false } (s.setPort k fun p => { p with sending := none, wire := [] })
  | none => s

/-! ### Pause (R82, R83, R95) -/

/-- Hundredths of a nanosecond in one pause quantum at a RATE code (R82). -/
def quantum (rate : Nat) : Nat := if rate = 0 then 2048 else if rate = 1 then 5120 else 51200

/-- The time of `q` quanta in ns, rounded up. -/
def quantaNs (rate q : Nat) : Nat := (q * quantum rate + 99) / 100

/-- Age at which the pause in progress ends (R82). -/
def Port.pauseEnd (p : Port) : Nat := p.pauseFrom + quantaNs p.rate p.pauseQuanta

/-- Age at which the run of pause reaches 65,535 quanta (R82). -/
def Port.runEnd (p : Port) : Nat := p.pauseRunFrom.getD p.pauseFrom + quantaNs p.rate 65535

/-- Quanta of the present pause honoured up to an age; none after the cut of its run. -/
def Port.honoured (p : Port) (now : Nat) : Nat :=
  let e := min now p.runEnd
  if e ≤ p.pauseFrom then 0 else min p.pauseQuanta ((e - p.pauseFrom) * 100 / quantum p.rate)

/-- The quanta of the present pause honoured up to an age are in PAUSE_QUANTA (R83). -/
def Port.counted (p : Port) (now : Nat) : Port :=
  if p.paused then { p with live := bump p.live 30 (p.honoured now - p.pauseCounted), pauseCounted := max p.pauseCounted (p.honoured now) } else p

/-- A pause frame acts at its pause point (R82): it starts a pause, restarts the count of the one in progress, or with quanta 0 ends it. After
the cut of a run none is honoured. -/
def Port.pausePoint (p : Port) (at_ quanta : Nat) : Port :=
  if p.pauseDeaf || (p.paused && decide (p.runEnd < p.pauseEnd ∧ p.runEnd ≤ at_)) then p
  else
    let p := { p.counted at_ with pauseCounted := 0 }
    if quanta = 0 then { p with paused := false, pauseQuanta := 0 }
    else { p with paused := true, pauseFrom := at_, pauseQuanta := quanta, pauseRunFrom := some (p.pauseRunFrom.getD at_) }

/-- The port at an age: every pause frame whose pause point has come has acted (R82). -/
def Port.settled (p : Port) (now : Nat) : Port :=
  let q := (p.pauseNext.filter fun x => decide (x.1 ≤ now)).foldl (fun p x => p.pausePoint x.1 x.2) p
  { q with pauseNext := p.pauseNext.filter fun x => decide (now < x.1) }

/-- A port brought to the present. -/
def pauseSettle (k : Nat) (s : State) : State := s.setPort k fun p => p.settled s.now

/-- The transmitter may begin no frame (R82, R95): from the pause point until the pause ends. -/
def Port.blocked (p : Port) (now : Nat) : Bool :=
  let p := p.settled now
  p.paused && decide (now < min p.pauseEnd p.runEnd)

/-- PAUSE_LEFT (R95): 0 while the transmitter is not paused. -/
def Port.pauseLeft (p : Port) (now : Nat) : Nat :=
  if p.blocked now then (p.settled now).pauseQuanta - (p.settled now).honoured now else 0

/-- The quanta of the present pause honoured so far are counted (R83). -/
def countPause (k : Nat) (s : State) : State := s.setPort k fun p => (p.settled s.now).counted s.now

/-- A pause in progress, and its run, end. -/
def Port.unpaused (p : Port) : Port := { p with paused := false, pauseQuanta := 0, pauseCounted := 0, pauseRunFrom := none, pauseNext := [] }

/-! ### Links -/

/-- LINK event (R451). -/
def linkEvent (k what : Nat) (s : State) : State := emit 0x03F2 none 0 [k, what] s

/-- A port declares its link down (R71): queues flushed, the frame in transmission abandoned, pause ended and its quanta counted (R83). -/
def portDown (k : Nat) (s : State) : State :=
  if (s.port k).link then
    let s := (countPause k s).setPort k fun p => { p.unpaused with link := false }
    linkEvent k 0 (abandon k (flushQueues k 31 s))
  else s

/-- What the identification of a module in a cage makes of its port (R70): one of a PMD of R68 at the port's rate is supported. -/
def Port.sfpOk (p : Port) : Bool := p.sfp == some p.rate

/-- ATTACH of a cage's port held against its rate (R70, R95); a transceiver switched off for its power stays unsupported (R506). -/
def Port.judged (p : Port) : Port := if p.sfpPresent then { p with attach := if p.sfpOk && !p.sfpBad then 1 else 2 } else p

/-! ### The coil -/

/-- The coil may be energised (R102). BYP is in fault while its set is in fault state. -/
def coilAllowed (s : State) : Bool :=
  s.power.mainGood && !s.power.pfwLow && !s.power.internalFail && !s.power.resetLow && !s.power.disconnected
    && (s.season.season == .summer || s.season.season == .autumn || (s.season.season == .spring && s.head.joinAllowed))
    && s.head.present && s.head.loopOk && !s.head.forced && !s.inFault .byp 0

/-- The coil current is removed: the command changes to BYPASS, and the ports of the ring go down (R102, R104, R106). -/
def coilOff (s : State) : State :=
  if s.head.coil then
    portDown 1 (portDown 0 (s.modHead fun h => { h with coil := false, cmdAt := s.now }))
  else s

/-- COIL_RELEASE (R102): BYP removes coil current as soon as a condition fails. -/
def coilCheck (s : State) : State := if coilAllowed s then s else coilOff s

/-- A rail is noted out of range (R372). -/
def railBad (r : Rail) (s : State) : State :=
  s.modPower fun p => { p with badRails := if p.badRails.contains r then p.badRails else p.badRails ++ [r] }

end Sys2Proof.Machine
end

