-- ==== Sys2Proof/Machine/PairOps.lean ====
section
/-!
DEFINITION. Machine/PairOps.lean: roles, the claim gate's set-aside frames, the referee's decisions and their effects (R249, R253,
R256, R262 to R265), and the reactions of class F findings (R370, R351, R352, R354).
-/
namespace Sys2Proof.Machine
open Sys2Proof

/-- The partner counts as lost: lost or still awaited (R272). -/
def State.partnerGone (s : State) : Bool := s.mlk.partner != .present

/-- The active element bank. -/
def Bki.elemBank (b : Bki) : Tbl ElemSlot := if b.bank then b.bank1 else b.bank0

/-- The shadow element bank. -/
def Bki.shadowBank (b : Bki) : Tbl ElemSlot := if b.bank then b.bank0 else b.bank1

/-- Zones with an element in START (R362). -/
def zoneStart (s : State) : BitVec 8 :=
  listMask 8 ((List.range 8).filter fun z => s.bki.elems.any fun e => e.2.start && (s.bki.elemBank.get e.1 {}).zone == z)

/-- The restarts called for in the last 600 s (R352). -/
def recentRestarts (s : State) : List Nat := s.bki.restarts.filter fun t => decide (s.now < t + sec 600)

/-- What MOD_STAT and BKI_STATUS show (R433). -/
def State.shown (s : State) : List Nat :=
  [s.mbx.badAccess, b2n s.mbx.inService, b2n s.unitF, b2n s.mbx.fwBank, s.cgu.role.code, b2n s.mbx.bankSwitch, b2n s.mbx.ready, s.bki.hb,
   min 4 (recentRestarts s).length, b2n s.bki.bootBank, b2n s.bki.clmHold, b2n s.bki.noImage, s.season.season.code, s.ksu.rootState,
   (zoneStart s).toNat, s.bki.btDriven.toNat]

/-- The host is told of a change in MOD_STAT or BKI_STATUS (R431): `s` before it, `t` after it. -/
def told (s t : State) : State := if s.shown = t.shown then t else vector 19 t

/-- A change of role, told to the host (R249, R451). -/
def setRole (r : Role) (s : State) : State :=
  let old := s.cgu.role
  if old = r then s
  else vector 19 (emit 0x07F0 none 0 [old.code, r.code, s.cgu.ownClaim.toNat, s.mlk.partnerClaim.toNat]
    (s.modCgu fun c => { c with role := r }))

/-- WIN falls and the TRIP outputs are disabled (R253). -/
def winFalls (s : State) : State := s.modCgu fun c => { c with win := false, tripOn := false }

/-- The CGU counter `i` raised (R277). -/
def cguCount (i : Nat) (s : State) : State := s.modCgu fun c => { c with live := bump c.live i }

/-- The OCU counter `i` raised (R277). -/
def ocuCount (i : Nat) (s : State) : State := s.modOcu fun c => { c with live := bump c.live i }

/-- The MLK counter `i` raised (R277). -/
def mlkCount (i : Nat) (s : State) : State := s.modMlk fun c => { c with live := bump c.live i }

/-- Status words missed on a lane since one at an age, sent every 100 us (R271, R277). -/
def wordsMissed (last : Option Nat) (now : Nat) : Nat :=
  match last with | some a => (now - a + us 50) / us 100 - 1 | none => 0

/-- STATUS_MISSED brought up to now (R277): on each lane the words due since its last one, or since the lanes were enabled, that have not
arrived. -/
def countMissed (s : State) : State :=
  let due := fun (l : Lane) => wordsMissed (l.lastAt.or s.mlk.enabledAt) s.now
  s.modMlk fun m => { m with
    live := bump m.live 6 (m.lanes.map fun l => due l - l.missed).sum, lanes := m.lanes.map fun l => { l with missed := max l.missed (due l) } }

/-- The island protects: its cores run a verified image (R336, R354). -/
def State.island (s : State) : Bool := s.power.aonGood && s.bki.running && !s.bki.restarting && !s.bki.coresHeld && !s.bki.noImage

/-- The modulators of the island convert (R335): it protects and the BI clock runs (R21). -/
def State.bkiConverts (s : State) : Bool := s.island && s.clockUp .bi

/-- Input samples of one filter output of the Backstop (R342): VIOLIN 2, CELLO 6. -/
def Bki.decim (b : Bki) : Nat := if b.presetAct then 6 else 2

/-- The decimation grid of the Backstop follows TB (R339): SYNC and TIME are 1, and the season is not WINTER. -/
def State.bkiFollows (s : State) : Bool :=
  s.bki.sync && decide (2 ≤ (if s.time.refAct then s.time.domB else s.time.domA).state) && s.season.season != .winter

/-- A BKI counter raised (R364). -/
def bkiCount (i : Nat) (s : State) (n : Nat := 1) : State := s.modBki fun b => { b with live := bump b.live i n }

/-- A gated copy that does not leave: dropped and counted, withheld (5) or stale (6) (R256). A withheld copy makes no stamp
entry and no stamp loss (R240), and its owner's TS_UNSENT advances (R303). -/
def gateDrop (counter : Nat) (g : GateFrame) (s : State) : State := txDone g.copy (unsent g.copy (cguCount counter s))

/-- The frame's copies held outside a transmit queue, counted up or down: a copy set aside leaves its queue (R256). -/
def heldAside (n : Nat) (up : Bool) (s : State) : State :=
  s.modSw fun w => if w.store.has n then
    { w with store := w.store.mod n {} fun f => { f with nonPort := if up then f.nonPort + 1 else f.nonPort - 1 } } else w

/-- A gated copy goes on to its transmit queue (R256), in the place its frame has among those stored before and after it. -/
def gateRelease (g : GateFrame) (s : State) : State := enqueue g.port g.copy (cguCount 4 s)

/-- The decision of R256 on one copy, with the role and WIN in force; a set-aside list holds at most 512 copies per port. Only ACTIVE
and ALONE release (R249; log entry 18). -/
def gateOne (g : GateFrame) (s : State) : State :=
  let c := s.cgu
  if c.role = .taking then
    if (c.setAside.filter fun x => x.port == g.port).length < 512 then
      heldAside g.copy.frame true (s.modCgu fun c => { c with setAside := c.setAside ++ [g], live := bump c.live 7 })
    else gateDrop 5 g s
  else if (c.role = .active ∨ c.role = .alone) ∧ c.win ∧ (g.ctrl = false ∨ g.claim = c.ownClaim.toNat) then gateRelease g s
  else if g.ctrl ∧ g.claim ≠ c.ownClaim.toNat then gateDrop 6 g s
  else gateDrop 5 g s

/-- The set-aside copies are examined again, in their order (R256). They go ahead of the later copies of their port. -/
def reexamine (s : State) : State :=
  let gs := s.cgu.setAside
  gs.foldl (fun s g => gateOne g (heldAside g.copy.frame false s)) (s.modCgu fun c => { c with setAside := [] })

/-- The unit becomes OUT (R249): WIN falls, the TRIP outputs are disabled, set-aside frames are withheld. `hard` marks every cause
but CLM_EN 0. -/
def becomeOut (hard : Bool) (s : State) : State :=
  let s := setRole .out (winFalls s)
  let s := s.modCgu fun c => { c with outHard := c.outHard || hard,
                                      wires := c.wires.map fun w => { w with round := { w.round with drives := false } } }
  reexamine s

/-- A switch-back that was carried out or not is recorded (R273, R274, R388): reason 0 for one that was. -/
def switchRecord (reason : Nat) (s : State) : State := note .cgu 0 0x305 0 .none (leBytes 4 reason) s

/-- The pair's switch-back operation, if one is being executed here, ends (R273): one carried out is recorded. -/
def endSwitch (st : Status) (s : State) : State :=
  match s.mlk.swOp with
  | some h => (fun s => if st = .ok then switchRecord 0 s else s) (opDone h st [] (s.modMlk fun m => { m with swOp := none }))
  | none => s

/-- A takeover starts (R265 step 1): the claim is raised to the partner's last known plus 1 and the role is TAKING. One whose claim
would exceed 0xFFFF_FFFF is not made, and that is recorded as a takeover that failed (R247, R387). -/
def startTakeover (s : State) : State :=
  if s.mlk.partnerClaim = 0xFFFFFFFF then note .cgu 0 0x303 0 .none (leBytes 4 s.cgu.ownClaim.toNat) s
  else setRole .taking (configChanged (s.modCgu fun c => { c with ownClaim := s.mlk.partnerClaim + 1, tripOn := false }))

/-- The detail of a decision record (R264, log entry 9): row, against own unit, key. -/
def decisionDetail (row : Nat) (own : Bool) (k : CmpKey) : List Byte :=
  leBytes 2 row ++ leBytes 2 (b2n own) ++ leBytes 4 k.inst ++ leBytes 4 k.cbHash.toNat ++ leBytes 4 k.stNum ++ leBytes 4 k.sqNum

/-- Some lane is up: only there does more than status words go out (R271). -/
def State.laneUp (s : State) : Bool := s.mlk.lanes.any fun l => l.up

/-- A decision is counted, recorded, told to the host and sent to a present partner on a lane that is up (R264, R271, R277). Rows 2 and 4 are
decided against neither. -/
def recordDecision (row : Nat) (against : Option Bool) (k : CmpKey) (s : State) : State :=
  let s := bkiCount 11 s
  match against with
  | none => ocuCount 9 s
  | some own =>
    let s := ocuCount (if own then 7 else 8) s
    let seq := s.evr.next + s.evr.posts.length
    let s := note .bki 0 0x301 0 .none (decisionDetail row own k) s
    let s := emit 0x07F1 none 0 [row, b2n (!own), seq] s
    if s.partnerGone || !s.laneUp then s else s.modMlk fun m => { m with decisionsOut := m.decisionsOut ++ [(row, !own, k)] }

/-- What a decision does to this unit (R264). An active that its own reaction has already made OUT is still the active that the decision is
against. -/
def actDecision (row : Nat) (own : Bool) (s : State) : State :=
  if own then
    if row = 1 then (if s.partnerGone then s else becomeOut true s)
    else if s.cgu.role = .standby then s.modOcu fun o => { o with takeBlock := true } else s
  else if s.cgu.role = .standby ∧ (s.mlk.word.role = .active ∨ s.mlk.word.role = .alone ∨ (s.mlk.word.role = .out ∧ s.mlk.led)) then
    if row = 3 ∧ s.ocu.takeBlock then s else startTakeover s
  else s

/-- The F status of both units, coded (R262): own 1, partner 2; the partner's status word counts while it is present. -/
def State.fPair (s : State) : Nat := b2n s.unitF + 2 * b2n (s.mlk.word.f && !s.partnerGone)

/-- Rows 1 and 2 of the referee, at a change of either unit's F status (R262, R264). -/
def refereeF (s : State) : State :=
  let p := s.fPair
  if p = s.ocu.fSeen then s
  else
    let s := s.modOcu fun o => { o with fSeen := p }
    if p = 1 then actDecision 1 true (recordDecision 1 (some true) {} s)
    else if p = 2 then actDecision 1 false (recordDecision 1 (some false) {} s)
    else recordDecision (if p = 3 then 2 else 4) none {} s

/-- The heartbeat rule, step 3 of R351: the claim line is released and the unit becomes OUT, unless the partner is lost or its island
reports its own heartbeat lost or MGP_DEAD. -/
def releaseClaim (s : State) : State :=
  if s.partnerGone ∨ s.mlk.word.hb = 2 ∨ s.mlk.word.hb = 3 then s else becomeOut true s

/-- Every block's capture mode (R377). -/
def captureAll (latch : Bool) (s : State) : State :=
  allSets.foldl (fun s p => s.setFset p.1 p.2 fun x => { x with capture := latch, captureAct := latch }) s

/-- Locks held by the MGP break (R203). -/
def breakMgpLocks (s : State) : State :=
  s.modInsts fun n => { n with
    locks := n.locks.map fun p => (p.1, if p.2.held && p.2.byMgp then { p.2 with held := false, broken := true } else p.2),
    lckBroken := satAdd 32 n.lckBroken ((n.locks.filter fun p => p.2.held && p.2.byMgp).length) }

/-- Every start or reset of the MGP relocks the monitor (R520) and resets its line rate; until the firmware runs MON_TX stays low, and nothing more is
sent (R511). -/
def Mon.relocked (m : Mon) : Mon :=
  { m with txOn := false, outUsed := 0, out := [], unlocked := false, challenge := none, baud := 115200, baudAt := none, cache := [], waiting := [] }

/-- The MGP is put into reset: its firmware is down, MBX_READY falls (R434), its locks break (R203), every block captures in LATCH
(R377), the monitor is silent and locked (R511, R520). -/
def mgpDown (s : State) : State :=
  let s := s.modMbx fun m => { m with ready := false, bankSwitch := false }
  let s := s.modPersist fun p => { p with fwUp := false, switchOp := none, markDue := none, handoverAt := none }
  let s := s.modMon Mon.relocked
  vector 19 (captureAll true (breakMgpLocks s))

/-- The island restarts the MGP from the other flash bank, unless this is the fourth call within 600 s (R352). -/
def mgpRestart (s : State) : State :=
  let rs := recentRestarts s ++ [s.now]
  let s := mgpDown s
  if 4 ≤ rs.length then
    s.modBki fun b => { b with restarts := rs, hb := 3, mgpReset := true, hbSinceReset := false }
  else
    bkiCount 8 (s.modBki fun b => { b with restarts := rs, hb := 2, bootBank := !b.bootBank, mgpReset := false, mgpResetAt := s.now,
                                           hbSinceReset := false })

/-- Steps 2 to 4 of R351 and the restart of R352, for any F-class finding of the MGP (R370). -/
def mgpLoss (s : State) : State :=
  mgpRestart (releaseClaim (s.modBki fun b => { b with clmHold := true }))

/-- The reaction to an F-class finding of the BKI (R354): BT0 to BT3 released, the cores held in reset. -/
def bkiHold (s : State) : State :=
  s.modBki fun b => { b with coresHeld := true, running := false, btDriven := 0, btHoldEnd := [], elems := [], spans := [] }

/-- The rails that the island itself runs on (R505). -/
def Rail.ofIsland (r : Rail) : Bool := r == .vbk || r == .vaf

/-- A lane declared down (R271). -/
def Lane.down (l : Lane) : Lane := { l with up := false, failed := true, run := 0, goodFrom := none }

/-- A wire that records FAULT (R252): disregarded until it completes 8 rounds without one. -/
def Wire.faulted (w : Wire) : Wire := { w with result := 2, last := 2, disregard := true, clean := 0 }

/-- A failed lane has delivered status words for 1 ms (R271). -/
def Lane.good (l : Lane) (now : Nat) : Bool :=
  match l.goodFrom with | some a => decide (a + ms 1 ≤ now) | none => false

/-- The condition behind a finding of a block is still present (R372): a stopped clock of its island, an absent head, a lane down, a supply out of
its band, a temperature over its limit, a heartbeat lost. -/
def State.persists (s : State) (b : BlockId) (u : Nat) : Bool :=
  let stopped := fun (i : Island) => !s.clockUp i
  match b with
  | .prt => stopped (if u < 4 then .pcsA else if u < 6 then .pcsB else .cu) || (decide (u < 2) && !s.head.present)
  | .mlk => stopped .mlk || s.mlk.lanes.any fun l => l.failed && !l.good s.now
  | .bki => stopped .bi || s.power.badRails.any fun r => r.ofIsland
  | .pmc => s.power.hot || s.power.badRails.any fun r => !r.ofIsland
  | .mgp => decide (2 ≤ s.bki.hb)
  | .dmc => stopped .dmc
  | .pci => stopped .pci
  | _ => false

/-- One condition behind a block's findings is over (R372): PERSIST falls where no other is present. -/
def conditionEnds (b : BlockId) (u : Nat) (s : State) : State := if s.persists b u then s else persistEnds b u s

/-- What a block tries again on leaving fault state (R374). -/
def retry (b : BlockId) (u : Nat) (s : State) : State :=
  match b with
  | .prt => s.setPort u fun p => { p with holdOut := false }
  | .byp =>
    if s.head.present ∧ !s.head.through then
      let s := s.modHead fun h => { h with loopOk := false, loopFrom := some s.now }
      (s.setPort 0 fun p => { p with attach := 1 }).setPort 1 fun p => { p with attach := 1 }
    else s
  | .mlk => s.modMlk fun m => { m with lanes := m.lanes.map fun l => { l with failed := false, up := l.up || l.goodFrom.isSome } }
  | _ => s

/-- The instant at which a set's quiet period ends (R372). -/
def FaultSet.quietEnd (x : FaultSet) : Nat := x.quietFrom + ms x.quietMs

/-- A block leaves fault state (R373). -/
def leaveFault (b : BlockId) (u : Nat) (s : State) : State :=
  let cls := (s.fset b u).lastClass
  let s := told s (s.setFset b u fun x => { x with
    state := false, fActive := false, recoveries := satAdd 16 x.recoveries 1, int := setBit x.int 4 true })
  let s := note b u (findingCode b 15) 0 .none (faultDetail { block := b, kind := 15 } 0) s
  let s := emit 0x09F0 none 0 [b.id, u, cls, 0] s
  retry b u (refereeF s)

/-- A block in fault state whose quiet period is over (R372, R373): nothing behind its findings is present, and the island's cores, where it is the
BKI, are not held in reset. -/
def State.quietOver (s : State) (b : BlockId) (u : Nat) : Bool :=
  let x := s.fset b u
  x.state && !x.persist && due s x.quietEnd && !(decide (b = .bki) && s.bki.coresHeld)

/-- A block whose quiet period is over by now leaves fault state (R373). -/
def leaveDue (b : BlockId) (u : Nat) (s : State) : State := if s.quietOver b u then leaveFault b u s else s

/-- A finding with its reactions (R369, R370): class F of the MGP and of the BKI react in the island, and every F status is put to the
referee. A fault of BYP releases the coil (R102). A block whose quiet period is over by now first leaves fault state (R373). -/
def raise (f : Finding) (s : State) : State :=
  let s := if f.counts then leaveDue f.block f.unit s else s
  let s := finding f s
  let s := if f.block = .byp ∧ f.counts then coilCheck s else s
  if f.cls = 3 then
    let s := if f.block = .mgp then mgpLoss s else if f.block = .bki then bkiHold s else s
    vector 19 (refereeF s)
  else s

/-- An uncorrectable, poisoned or wrong-address word, or a corrected one, is found in a word read by a block (R56, R58): class C for a
correction, `cls` for the rest. `src` issued the access. -/
def raiseRead (b : BlockId) (u cls access addr : Nat) (owner : Master) (r : ReadFound) (s : State) (src : Option (BlockId × Nat) := none) :
    State :=
  match r.syn.kind with
  | none => s
  | some k =>
    raise { block := b, unit := u, kind := k, cls := if k = 0 then 1 else cls, inj := r.inj, access := access, source := src, owner := owner,
            addr := addr, pos := r.syn.pos, s0 := r.syn.s0, s1 := r.syn.s1 } s

end Sys2Proof.Machine
end

