-- ==== Sys2Proof/Machine/InstOps.lean ====
section
/-!
DEFINITION. Machine/InstOps.lean: what many commands do to an instance. Its memory (R182), its locks (R203), halting (R176, R183,
R184), use against share (R178, R192), and the checks on frames it submits (R186).
-/
namespace Sys2Proof.Machine
open Sys2Proof

/-! ### Guest memory (R182) -/

/-- Octets of a local-store granule. -/
def lsGran : Nat := 16384

/-- Octets of a DRAM granule. -/
def dramGran : Nat := 2097152

/-- Guest address of the DRAM share. -/
def dramBase : Nat := 0x40000000

/-- A range of guest addresses lies wholly in the instance's local store. -/
def Inst.inLs (d : Inst) (a n : Nat) : Bool := decide (a + n ≤ d.lsMap.length * lsGran)

/-- A range of guest addresses lies wholly in the instance's DRAM share. -/
def Inst.inDram (d : Inst) (a n : Nat) : Bool := decide (dramBase ≤ a) && decide (a + n ≤ dramBase + d.dramMap.length * dramGran)

/-- Where a local-store address lies in the local stores of the module. -/
def Inst.lsPhys (d : Inst) (a : Nat) : Nat := d.lsMap.getD (a / lsGran) 0 * lsGran + a % lsGran

/-- Where a DRAM address lies in DRAM. -/
def Inst.dramPhys (d : Inst) (a : Nat) : Nat := d.dramMap.getD ((a - dramBase) / dramGran) 0 * dramGran + (a - dramBase) % dramGran

/-- Octets read from an instance's local store; 0 outside it. -/
def lsRead (i a n : Nat) (s : State) : List Byte :=
  let d := s.inst i
  (List.range n).map fun k => if d.inLs (a + k) 1 then s.insts.lsMem.read1 (d.lsPhys (a + k)) else 0

/-- Lines of an instance's local store, of 256 octets, become dirty for the mirror (R268). -/
def markDirty (i a n : Nat) (s : State) : State :=
  if s.mlk.mir.has i ∧ 0 < n then
    let ls := (List.range ((a + n - 1) / 256 + 1 - a / 256)).map fun k => a / 256 + k
    s.modMlk fun m => { m with mir := m.mir.mod i {} fun x => { x with dirty := x.dirty ++ ls.filter fun l => !x.dirty.contains l } }
  else s

/-- Octets written into an instance's local store; nothing outside it is written. -/
def lsWrite (i a : Nat) (octets : List Byte) (s : State) : State :=
  let d := s.inst i
  if d.inLs a octets.length then
    (markDirty i a octets.length s).modInsts fun n => { n with
      lsMem := (octets.zipIdx).foldl (fun m b => m.write1 (d.lsPhys (a + b.2)) b.1) n.lsMem }
  else s

/-- Octets read from an instance's DRAM share; 0 outside it. -/
def dramRead (i a n : Nat) (s : State) : List Byte :=
  let d := s.inst i
  (List.range n).map fun k => if d.inDram (a + k) 1 then s.insts.dramMem.read1 (d.dramPhys (a + k)) else 0

/-- Octets written into an instance's DRAM share; nothing outside it is written. -/
def dramWrite (i a : Nat) (octets : List Byte) (s : State) : State :=
  let d := s.inst i
  if d.inDram a octets.length then
    s.modInsts fun n => { n with
      dramMem := (octets.zipIdx).foldl (fun m b => m.write1 (d.dramPhys (a + b.2)) b.1) n.dramMem }
  else s

/-- A little-endian word in an instance's local store. -/
def lsWord (i a n : Nat) (s : State) : Nat := leNat (lsRead i a n s)

/-! ### Granule pools (R18, R180) -/

/-- The lowest `need` free numbers from `i` on, among the next `fuel`. -/
def pickFree (busy : Nat → Bool) : Nat → Nat → Nat → List Nat
  | 0, _, _ => []
  | _ + 1, 0, _ => []
  | fuel + 1, need + 1, i => if busy i then pickFree busy fuel (need + 1) (i + 1) else i :: pickFree busy fuel need (i + 1)

/-- Granules of the DRAM pool (R18). -/
def dramPool : Nat := 14336

/-- Granules of the local-store pool (R178). -/
def lsPool : Nat := 2048

/-- Free DRAM granules: not owned, and cleared since their release. -/
def State.dramFree (s : State) : Nat := dramPool - s.insts.dramOwner.length - s.insts.dramClearing.length

/-- Free local-store granules. -/
def State.lsFree (s : State) : Nat := lsPool - s.insts.lsOwner.length - s.insts.lsClearing.length

/-- The DRAM granules that the next allocation of `n` takes. -/
def dramPick (n : Nat) (s : State) : List Nat :=
  pickFree (fun g => s.insts.dramOwner.has g || s.insts.dramClearing.contains g) dramPool n 0

/-- The local-store granules that the next allocation of `n` takes. -/
def lsPick (n : Nat) (s : State) : List Nat :=
  pickFree (fun g => s.insts.lsOwner.has g || s.insts.lsClearing.contains g) lsPool n 0

/-- DRAM granules get an owner tag (R183). -/
def dramOwn (gs : List Nat) (tag : Nat) (s : State) : State :=
  s.modInsts fun n => { n with dramOwner := gs.foldl (fun t g => t.set g tag) n.dramOwner }

/-- Local-store granules get an owner tag (R183). -/
def lsOwn (gs : List Nat) (tag : Nat) (s : State) : State :=
  s.modInsts fun n => { n with lsOwner := gs.foldl (fun t g => t.set g tag) n.lsOwner }

/-- DRAM granules are released: to be cleared before they return to the pool (R180). -/
def dramGive (gs : List Nat) (s : State) : State :=
  s.modInsts fun n => { n with dramOwner := n.dramOwner.filter fun p => !gs.contains p.1, dramClearing := n.dramClearing ++ gs }

/-- Local-store granules are released (R180). -/
def lsGive (gs : List Nat) (s : State) : State :=
  s.modInsts fun n => { n with lsOwner := n.lsOwner.filter fun p => !gs.contains p.1, lsClearing := n.lsClearing ++ gs }

/-- The tag of granules held by an acquisition stream. -/
def acqTag : Nat := 513

/-! ### Descriptors -/

/-- Its shadow bank. -/
def Psc.shadow (p : Psc) : Tbl SlotEntry := if p.bank = 0 then p.bank1 else p.bank0

/-- The shadow bank replaced. -/
def Psc.withShadow (p : Psc) (b : Tbl SlotEntry) : Psc := if p.bank = 0 then { p with bank1 := b } else { p with bank0 := b }

/-- What Dzix keeps of a hart of an instance. -/
def State.hart (s : State) (i h : Nat) : HartStat := s.sched.harts.get (4 * i + h) {}

/-- Egress queue q of an instance, if it is registered (R236). -/
def State.egq (s : State) (i q : Nat) : Option EgQueue :=
  if s.eg.queues.has (2 * i + q) then some (s.eg.queues.get (2 * i + q) {}) else none

/-! ### Locks -/

/-- Every held lock that satisfies a test is broken (R203): free, with BROKEN set and the dead holder kept. -/
def breakLocks (p : Lock → Bool) (s : State) : State :=
  s.modInsts fun n => { n with
    locks := n.locks.map fun q => (q.1, if q.2.held && p q.2 then { q.2 with held := false, broken := true } else q.2),
    lckBroken := satAdd 32 n.lckBroken ((n.locks.filter fun q => q.2.held && p q.2).length) }

/-- The lock is held by an instance's generation. -/
def Lock.heldBy (l : Lock) (i g : Nat) : Bool := l.held && !l.byMgp && l.holder == i && l.holderGen == g

/-- The slot in which locks were acquired has ended with them held (R203): they break, and each is a K-class fault contained to the
instance. -/
def slotLocks (i g hart : Nat) (s : State) : State :=
  let n := (s.insts.locks.filter fun q => q.2.heldBy i g && q.2.hart == hart).length
  (List.range n).foldl (fun s _ => raise { block := .lck, kind := 8, owner := .inst i g } s)
    (breakLocks (fun l => l.heldBy i g && l.hart == hart) s)

/-! ### Stopping an instance -/

/-- Cores stop executing slots of an instance (R193, R183). -/
def stopCores (i : Nat) (s : State) : State :=
  s.modSched fun x => { x with pscs := x.pscs.map fun p => (p.1, { p.2 with cores := p.2.cores.filter fun c => c.2.inst ≠ i }) }

/-- The instance's trip requests are cleared (R257). -/
def clearTrips (i : Nat) (s : State) : State :=
  s.modCgu fun c => { c with tripReq := c.tripReq &&& ~~~ listMask 16 ((List.range 16).filter fun j => c.tripAssign.get j 0 == i + 1) }

/-- An instance that is READY or RUNNING becomes HALTED with a cause (R176, R183, R184): its cores stop, its locks break (R203), its trip
requests are cleared (R257), and the host is told. -/
def halt (i cause : Nat) (s : State) : State :=
  let d := s.inst i
  if d.state = .ready ∨ d.state = .running then
    let s := stopCores i s
    let s := clearTrips i (breakLocks (fun l => l.heldBy i d.gen) s)
    let s := s.setInst i fun d => { d with state := .halted, cause := cause, haltAt := s.now, exhausted := false, runningAt := none }
    emitInst i false s
  else s

/-! ### Source-field checks (R186) -/

/-- The end of the frame's content by its APDU or IPv4 total length; none where it cannot be read or lies beyond the frame. -/
def contentEnd (f : List Byte) : Option Nat :=
  let e := if etherType f = 0x0800 then (if 18 ≤ f.length then some (14 + beAt f 16 2) else none) else apduEnd f
  match e with | some n => if n ≤ f.length then some n else none | none => none

/-- Check 5 of R186 holds: nothing that could be read as a claim trailer follows the content. -/
def noTrailer (f : List Byte) : Bool :=
  if isProt f || etherType f == 0x0800 then
    match contentEnd f with
    | none => false
    | some n => n == f.length || (decide (f.length ≤ 60) && (f.drop n).all (· == 0))
  else !(decide (8 ≤ f.length) && trailerOk (BitVec.ofNat 64 (beAt f (f.length - 8) 8)))

/-- The first of checks 1 to 5 of R186 that a submitted frame fails. -/
def sourceCheck (d : Inst) (f : List Byte) (vid pcp : Nat) : Option Nat :=
  let es := d.allow.filter fun a => a.valid && a.etype == etherType f && a.vid == vid && decide (pcp ≤ a.pcpMax)
  if srcMac f ≠ d.mac.toNat then some 1
  else if beAt f 12 2 = 0x8100 ∨ beAt f 12 2 = 0x88A8 ∨ beAt f 12 2 = 0x892F then some 2
  else if es = [] then some 3
  else if isProt f && !(es.any fun a => a.appid == appid f && a.idHash == idHash f) then some 4
  else if noTrailer f then none else some 5

/-- A frame that fails a check: counted and recorded with the check (R187). -/
def spoofed (i g check : Nat) (s : State) : State :=
  note .egf 0 0x3C0 0 (.inst i g) (leBytes 4 check) (s.setInst i fun d => { d with spoofDrops := satAdd 32 d.spoofDrops 1 })

end Sys2Proof.Machine
end

