-- ==== Sys2Proof/Machine/Frames.lean ====
section
/-!
DEFINITION. Machine/Frames.lean: a frame as it leaves a port (R77, R79, R127, R128, R130, R286), the segmentation engine's frames
(R85, R86), and the receive rings (R88 to R90).
-/
namespace Sys2Proof.Machine
open Sys2Proof

/-! ### Leaving a port -/

/-- Zeros up to `n` octets, placed before a claim trailer that ends the frame (R79). -/
def padTo (n : Nat) (f : List Byte) : List Byte :=
  if n ≤ f.length then f
  else
    let z : List Byte := List.replicate (n - f.length) 0
    if (claimOf f).isSome then f.take (f.length - 8) ++ z ++ f.drop (f.length - 8) else f ++ z

/-- The frame leaves port `p` untagged (R77). -/
def Port.leavesUntagged (p : Port) (vid : Nat) : Bool := p.untagPvid && vid == p.pvid

/-- The VLAN tag that a port inserts (R77). -/
def vlanTag (p : Port) (f : Stored) : List Byte :=
  if p.leavesUntagged f.vid then [] else beBytes 2 0x8100 ++ beBytes 2 (f.pcp * 8192 + b2n f.dei * 4096 + f.vid)

/-- The HSR tag that a copy leaves with (R128, R136): its own one along the ring or in a mirror that keeps it, a new one on the ring
ports. A mirror keeps only the tag that the frame was received with (DESIGN CHOICE, log entry 173). `n` is the length of the frame without
tags. -/
def hsrOut (k : Nat) (c : TxCopy) (f : Stored) (n : Nat) : List Byte :=
  if c.hsrPass || (c.mirror && c.keepRed) then (match f.hsr with | some t => beBytes 6 t.toNat | none => [])
  else match c.redSeq with
    | some q => if k < 2 ∧ !c.mirror then beBytes 2 0x892F ++ beBytes 2 ((n - 8) % 4096) ++ beBytes 2 q else []
    | none => []

/-- The PRP trailer that a copy leaves with (R130, R136). A trailer received from a LAN stays on copies for other ports (log
entry 11); a mirror keeps only that one (DESIGN CHOICE, log entry 173). -/
def rctOut (k : Nat) (c : TxCopy) (f : Stored) (n : Nat) : List Byte :=
  if c.mirror then (if c.keepRed then (match f.rct with | some t => beBytes 6 t.toNat | none => []) else [])
  else match c.redSeq with
    | some q =>
      if k = 4 ∨ k = 5 then beBytes 2 q ++ beBytes 2 ((if k = 4 then 0xA else 0xB) * 4096 + (n - 8) % 4096) ++ beBytes 2 0x88FB
      else []
    | none => match f.rct with | some t => beBytes 6 t.toNat | none => []

/-- A PTP event message that the transparent clock corrects (R286). -/
def ptpEvent (f : List Byte) : Bool := etherType f == 0x88F7 && decide (beAt f (etherOff f + 2) 1 % 16 < 4)

/-- The TBU counter of a copy that the transparent clock forwards (R307): TC_EVENT_FWD of an event message, TC_GENERAL_FWD of another. -/
def ptpCounter (k : Nat) (c : TxCopy) (f : Stored) : Option Nat :=
  let b := if f.tagged then untag f.octets else f.octets
  if k < 6 ∧ (f.port.any fun i => decide (i < 6)) ∧ !c.mirror ∧ etherType b = 0x88F7 then some (if ptpEvent b then 3 else 4) else none

/-- The residence time in 2^-16 ns (R286), measured on the age counter and scaled to the reference domain. -/
def residence (arrived now : Nat) (incr : Int) : Int := ((now - arrived : Nat) : Int) * 65536 * (2 ^ 33 + incr) / 2 ^ 33

/-- The correctionField of an untagged PTP frame raised by `d`, and whether the sum had to be held (R286). -/
def correct (f : List Byte) (d : Int) : List Byte × Bool :=
  let c := satInt 64 (signed 64 (beAt f 22 8) + d)
  (f.take 22 ++ beBytes 8 (unsigned 64 c.1) ++ f.drop 30, c.2)

/-- A copy that the transparent clock forwards leaves with the tag state it arrived with (R278), a peer-delay message of the TBU untagged or
priority-tagged (R305); any other under R77. -/
def tagOut (k : Nat) (c : TxCopy) (f : Stored) (b : List Byte) (s : State) : List Byte :=
  if let some m := c.pd then (if m.untagged then [] else beBytes 2 0x8100 ++ beBytes 2 (m.pcp * 8192))
  else if k < 6 ∧ (f.port.any fun i => decide (i < 6)) ∧ !c.mirror ∧ etherType b = 0x88F7 then (if f.tagged then slice f.octets 12 4 else [])
  else vlanTag (s.port k) f

/-- The turnaround time that a Pdelay_Resp carries in its correctionField (R278). -/
def PdMsg.turnaround (m : PdMsg) (s : State) : Option Int := if m.resp then some (residence m.arrived s.now s.time.incr) else none

/-- The frame as it leaves, without FCS, and whether a correction was held at its maximum. -/
def wireOf (k : Nat) (c : TxCopy) (f : Stored) (s : State) : List Byte × Bool :=
  let b0 := if f.tagged then untag f.octets else f.octets
  let (b, sat) := match f.port with
    | some i =>
      if k < 6 ∧ i < 6 ∧ !c.mirror ∧ ptpEvent b0 then
        correct b0 (residence f.age s.now s.time.incr + (if beAt b0 14 1 % 16 = 0 then ((s.time.ports.get i {}).linkDelay : Int) else 0))
      else (b0, false)
    | none => (match c.pd.bind fun m => m.turnaround s with | some d => correct b0 d | none => (b0, false))
  let vt := tagOut k c f b0 s
  let b := padTo (60 - vt.length - (hsrOut k c f b.length).length - (rctOut k c f b.length).length) b
  (b.take 12 ++ vt ++ hsrOut k c f b.length ++ b.drop 12 ++ rctOut k c f b.length, sat)

/-! ### Segmentation -/

/-- The sum of 16-bit words of an octet string, an odd last octet padded with zero. -/
def wordSum : List Byte → Nat
  | [] => 0
  | [a] => a.toNat * 256
  | a :: b :: t => a.toNat * 256 + b.toNat + wordSum t

/-- The Internet checksum. -/
def inetSum (l : List Byte) : Nat :=
  let x := wordSum l
  let y := x / 65536 + x % 65536
  let z := y / 65536 + y % 65536
  (65535 - (z / 65536 + z % 65536) % 65536) % 65536

/-- A template's protocol is UDP (R85). -/
def isUdp (t : List Byte) : Bool := beAt t 23 1 == 17

/-- The template has the one form the engine accepts (R85), once any VLAN tag is removed. -/
def templateOk (t : List Byte) : Bool :=
  decide (34 ≤ t.length) && etherType t == 0x0800 && beAt t 14 1 == 0x45 &&
    (if isUdp t then t.length == 42
     else beAt t 23 1 == 6 && decide (54 ≤ t.length) && decide (5 ≤ beAt t 46 1 / 16) && t.length == 34 + 4 * (beAt t 46 1 / 16))

/-- Octets of a port's frame left for an IP packet (R86): MAX_FRAME less FCS, addresses and Ethertype, the VLAN tag, and the HSR tag or
PRP trailer that the port adds. -/
def ipRoom (k vid : Nat) (s : State) : Nat :=
  let p := s.port k
  p.maxFrame - 18 - (if p.leavesUntagged vid then 0 else 4)
    - (if (k < 2 && s.sw.hsrEn) || ((k == 4 || k == 5) && s.sw.prpEn) then 6 else 0)

/-- A send as it is submitted: the 802.1Q tag of an MGP template gives PCP and VLAN ID (R85), and what the MGP sends carries its own address
(R522). An instance's template has no tag (R186). -/
def LargeSend.given (x : LargeSend) (s : State) : LargeSend :=
  if x.inst.isSome then x
  else
    let x := if isTagged x.template then { x with pcp := tci x.template / 8192, vid := tci x.template % 4096, template := untag x.template } else x
    { x with template := putAt x.template 6 (beBytes 6 (s.blockMac 8)) }

/-- Octets of a send's payload. -/
def LargeSend.size (x : LargeSend) : Nat := if x.inst.isSome then x.len else x.payload.length

/-- The payload of a send as it stands in its submitter's memory (R85): an instance's local store or DRAM share. -/
def LargeSend.data (x : LargeSend) (s : State) : List Byte :=
  match x.inst with
  | none => x.payload
  | some (i, _) => if (s.inst i).inLs x.addr x.len then lsRead i x.addr x.len s else dramRead i x.addr x.len s

/-- The payload of an instance's send lies in its local store or DRAM share (R85). -/
def LargeSend.held (x : LargeSend) (s : State) : Bool :=
  match x.inst with | none => true | some (i, _) => (s.inst i).inLs x.addr x.len || (s.inst i).inDram x.addr x.len

/-- Why a large send is refused at submission (R85, R87), if it is: 1 to 5 the source checks, 6 the form, 7 the class, 8 DF, 9 busy. The
order in which the causes are looked for, and that an MSS of 0 and a payload outside the submitter's memory are wrong forms, are the
model's (log entry 144). -/
def sendRefused (k : Nat) (x : LargeSend) (s : State) : Option Nat :=
  let t := untag x.template
  let src := match x.inst with | some (i, _) => sourceCheck (s.inst i) x.template x.vid x.pcp | none => none
  match src with
  | some c => some c
  | none =>
    if !templateOk t || !x.held s || (if isUdp t then decide (65507 < x.size) else decide (262144 < x.size) || x.mss == 0
        || fld (beAt t 47 1) 5 5 == 1) then some 6
    else if 6 ≤ (s.port k).classOf x.pcp then some 7
    else if isUdp t && fld (beAt t 20 1) 6 6 == 1 && decide (ipRoom k x.vid s < 28 + x.size) then some 8
    else if 64 ≤ (s.port k).sends.length then some 9
    else none

/-- The UDP datagram of a send, header completed (R86). -/
def datagram (t payload : List Byte) : List Byte :=
  let n := 8 + payload.length
  let h := slice t 34 4 ++ beBytes 2 n ++ beBytes 2 0
  let c := inetSum (slice t 26 8 ++ beBytes 2 17 ++ beBytes 2 n ++ h ++ payload)
  putAt h 6 (beBytes 2 (if c = 0 then 65535 else c)) ++ payload

/-- An IPv4 header with its per-frame fields and checksum (R86). -/
def ipHeader (t : List Byte) (total ident frag : Nat) : List Byte :=
  let h := putAt (putAt (putAt (putAt (slice t 14 20) 2 (beBytes 2 total)) 4 (beBytes 2 ident)) 6 (beBytes 2 frag)) 10 (beBytes 2 0)
  putAt h 10 (beBytes 2 (inetSum h))

/-- The DF bit in place. -/
def dfBit (t : List Byte) : Nat := fld (beAt t 20 1) 6 6 * 0x4000

/-- The next frame of a send with its payload, the octets it takes from the send, and whether it is the last (R86). -/
def nextSegment (room : Nat) (x : LargeSend) (payload : List Byte) : List Byte × Nat × Bool :=
  let t := untag x.template
  let ident := beAt t 18 2
  if isUdp t then
    let d := datagram t payload
    let left := d.length - x.sent
    let fit := room - 20
    let n := if left ≤ fit then left else fit / 8 * 8
    let last := decide (d.length ≤ x.sent + n)
    let frag := dfBit t + (if last then 0 else 0x2000) + x.sent / 8
    (t.take 14 ++ ipHeader t (20 + n) ident frag ++ slice d x.sent n, n, last)
  else
    let hl := 4 * (beAt t 46 1 / 16)
    let left := payload.length - x.sent
    let n := min left (min x.mss (room - 20 - hl))
    let last := decide (payload.length ≤ x.sent + n)
    let flags := beAt t 47 1
    let flags := if last then flags else flags - fld flags 0 0 - 8 * fld flags 3 3
    let flags := if x.made = 0 then flags else flags % 128
    let h := putAt (putAt (putAt (slice t 34 hl) 4 (beBytes 4 ((beAt t 38 4 + x.sent) % 2 ^ 32))) 13 (beBytes 1 flags)) 16 (beBytes 2 0)
    let chunk := slice payload x.sent n
    let c := inetSum (slice t 26 8 ++ beBytes 2 6 ++ beBytes 2 (hl + n) ++ h ++ chunk)
    (t.take 14 ++ ipHeader t (20 + hl + n) ((ident + x.made) % 65536) (dfBit t) ++ putAt h 16 (beBytes 2 c) ++ chunk, n, last)

/-- Destinations of a frame that the module sends to a set of ports: the copies, gated where an instance built the frame, with
consecutive stamp numbers in ascending port order where stamps are wanted (R239, R240, R301). -/
def sendDests (ports : List (Nat × Option Nat)) (pcp : Nat) (proto : TxCopy) (ctrl : Bool) (claim : Nat) (s : State) : List Dest :=
  ((List.range 8).flatMap fun k => ports.filter fun q => q.1 == k).zipIdx.map fun q =>
    let k := q.1.1
    let cls := (s.port k).classOf pcp
    let c : TxCopy := { proto with cls := cls, limitUs := ageLimit s cls 0, redSeq := q.1.2, tsSeq := (proto.tsSeq + q.2) % 2 ^ 32 }
    if proto.inst.isSome then Dest.gate k c ctrl claim else Dest.port k c

/-- A frame built for an instance is stored with its copies, its cells charged (R189); they are given back at once where the buffer has no
room. For the MGP nothing is charged. -/
def storeCharged (inst : Option (Nat × Nat)) (f : Stored) (ds : List Dest) (s : State) : State :=
  match inst with
  | none => storeFrame f 0xFFFF 0 ds s
  | some (i, _) =>
    let s1 := s.setInst i fun d => { d with useEgress := d.useEgress + f.cells }
    let s2 := storeFrame { f with owner := inst } 0xFFFF 0 ds s1
    if s2.sw.nextFrame = s1.sw.nextFrame then s2.setInst i fun d => { d with useEgress := d.useEgress - f.cells } else s2

/-- A frame as the module stores one of its own making, stamped now. -/
def builtFrame (octets : List Byte) (pcp vid : Nat) (s : State) : Stored :=
  { octets := octets, vid := vid, pcp := pcp, rxLen := octets.length + 4, stamp := s.time.tbNs, frac := s.time.tbFrac / 65536,
    epoch := s.time.stepEpoch, age := s.now, cells := cellsOf (octets.length + 4) }

/-! ### Acquisition frames -/

/-- A staged payload as the frame that leaves (R320): IPv4 without options, DF 1, UDP with checksum. -/
def acqFrame (st : AcqStream) (payload : List Byte) : List Byte :=
  let u := 8 + payload.length
  let h := beBytes 2 st.srcPort ++ beBytes 2 st.dstPort ++ beBytes 2 u ++ beBytes 2 0
  let c := inetSum (beBytes 4 st.srcIp.toNat ++ beBytes 4 st.dstIp.toNat ++ beBytes 2 17 ++ beBytes 2 u ++ h ++ payload)
  let ip := [0x45, BitVec.ofNat 8 (4 * st.dscp)] ++ beBytes 2 (20 + u) ++ beBytes 2 st.ipId ++ beBytes 2 0x4000
    ++ [BitVec.ofNat 8 st.ttl, 17] ++ beBytes 2 0 ++ beBytes 4 st.srcIp.toNat ++ beBytes 4 st.dstIp.toNat
  beBytes 6 st.dstMac.toNat ++ beBytes 6 st.srcMac.toNat ++ beBytes 2 0x0800 ++ putAt ip 10 (beBytes 2 (inetSum ip))
    ++ putAt h 6 (beBytes 2 (if c = 0 then 65535 else c)) ++ payload

/-- Octets that a port adds on transmission (R77, R128, R130). -/
def portAdds (k vid : Nat) (s : State) : Nat :=
  (if (s.port k).leavesUntagged vid then 0 else 4)
    + (if (decide (k < 2) && s.sw.hsrEn) || ((k == 4 || k == 5) && s.sw.prpEn) then 6 else 0)

/-- Time in ns that a frame of `octets` takes at STREAM_RATE, counted as it leaves its port from the destination address to the FCS (R326). -/
def acqPace (st : AcqStream) (octets : Nat) (s : State) : Nat := (octets + portAdds st.port st.vid s + 4) * 8000 / max 1 st.rateMbit

/-- The staged frames of stream n that its port may take by now, in order (R320, R326). `fuel` bounds their number. -/
def acqDrain (n : Nat) : Nat → State → State
  | 0, s => s
  | fuel + 1, s =>
    let st := s.acqS n
    match st.frames with
    | [] => s
    | p :: rest =>
      if s.now < st.drainAt ∨ !s.clockUp .dmc then s
      else
        let f := acqFrame st p
        let s := s.setAcqS n fun x => { x with frames := rest, ipId := (x.ipId + 1) % 65536,
                                               drainAt := max x.drainAt s.now + acqPace st f.length s }
        acqDrain n fuel (mgpSend f st.pcp st.vid [st.port] s)

/-- The streams of a port hand over what they may (R326). -/
def acqDrainPort (k : Nat) (s : State) : State :=
  (List.range 4).foldl (fun s n => if (s.acqS n).port = k then acqDrain n (s.acqS n).frames.length s else s) s

/-! ### Receive rings (R88 to R90) -/

/-- What a ring is written through: reading, writing and bounds of the memory it lies in. -/
structure RingMem where
  /-- Octets at an address. -/
  rd : Nat → Nat → List Byte
  /-- An address range that may be written. -/
  ok : Nat → Nat → Bool

/-- A descriptor to be filled: its index, its buffer's address, the octets that go there. -/
structure Filled where
  /-- Descriptor index. -/
  idx : Nat
  /-- Buffer address. -/
  addr : Nat
  /-- Octets. -/
  octets : List Byte

/-- The descriptors that a frame fills, in ring order, and the octets left over (R90): OWN is read once per descriptor needed. A
descriptor whose buffer cannot be written counts as not owned; BUF_LEN and BUF_ADDR are used as they stand, whatever R88 asks of them (log
entry 145). -/
def ringScan (m : RingMem) (r : RxRing) : Nat → Nat → List Byte → List Filled × List Byte
  | 0, _, l => ([], l)
  | fuel + 1, i, l =>
    if l = [] then ([], [])
    else
      let d := m.rd (r.base + 16 * (i % r.size)) 16
      let addr := leNat (slice d 0 8)
      let len := leNat (slice d 10 2)
      if fld (leNat (slice d 15 1)) 7 7 = 1 ∧ m.ok addr len then
        let (fs, rest) := ringScan m r fuel (i + 1) (l.drop len)
        ({ idx := i % r.size, addr := addr, octets := l.take len } :: fs, rest)
      else ([], l)

/-- A descriptor as the module completes it (R88). -/
def descDone (m : RingMem) (r : RxRing) (f : Filled) (first last trunc : Bool) : Nat × List Byte :=
  let a := r.base + 16 * f.idx
  (a, slice (m.rd a 16) 0 8 ++ leBytes 2 r.seq ++ slice (m.rd a 16) 10 2 ++ leBytes 2 f.octets.length
        ++ [BitVec.ofNat 8 (b2n trunc), BitVec.ofNat 8 (64 * b2n first + 32 * b2n last)])

/-- The outcome of a delivery into a ring: the writes in order, the ring after it, and whether anything was written. -/
structure RingOut where
  /-- Address and octets, in the order they are written. -/
  writes : List (Nat × List Byte)
  /-- The ring. -/
  ring : RxRing

/-- A frame with its metadata delivered into a ring (R90): buffers first, then the descriptors in ring order, the FIRST one last. -/
def ringDeliver (m : RingMem) (r : RxRing) (data : List Byte) : RingOut :=
  let (fs, rest) := ringScan m r r.size r.next data
  let r1 := { r with seq := (r.seq + 1) % 65536 }
  match fs with
  | [] => { writes := [], ring := { r1 with dropNoDesc := r.dropNoDesc + 1 } }
  | f :: t =>
    let trunc := decide (rest ≠ [])
    let n := fs.length
    let bufs := fs.map fun x => (x.addr, x.octets)
    let ds := t.zipIdx.map fun x => descDone m r x.1 false (x.2 + 2 == n) trunc
    { writes := bufs ++ ds ++ [descDone m r f true (n == 1) trunc],
      ring := { r1 with next := (r.next + n) % r.size, trunc := r.trunc + b2n trunc } }

/-- The 32-octet metadata block of a delivered frame (R89). -/
def metadata (f : Stored) (entry gen : Nat) : List Byte :=
  leBytes 8 f.stamp ++ leBytes 2 f.frac ++ leBytes 2 f.epoch ++ leBytes 2 (f.pcp * 8192 + b2n f.dei * 4096 + f.vid)
    ++ [BitVec.ofNat 8 (f.port.getD 0),
        BitVec.ofNat 8 (b2n f.stripped + 2 * b2n f.hsr.isSome + 4 * b2n f.rct.isSome)]
    ++ leBytes 2 entry ++ leBytes 2 gen ++ leBytes 4 f.rxLen ++ leBytes 8 f.age

/-- The FCS of a frame as it is delivered (R73, R90; log entry 146). -/
def fcs (octets : List Byte) : List Byte := leBytes 4 (crc32 octets).toNat

/-- The number of the 1 ms window of R190 that runs. -/
def rxWindowNow (s : State) : Nat := s.now / 1000000

/-- The receive rate that applies in the window that runs (R192): SH_RX as it stood when the window began. -/
def Inst.rxLimitNow (d : Inst) (w : Nat) : Nat := if d.rxWindow = w then d.rxLimit else d.share.rx

/-- Frames delivered in the window that runs. -/
def Inst.rxUsedNow (d : Inst) (w : Nat) : Nat := if d.rxWindow = w then d.rxUsed else 0

/-- The copy's frame and its ring: delivery into an instance's ring (R90, R190). SEQ advances for a frame dropped over the receive rate too.
A frame found damaged is discarded and counted (R58). -/
def deliverInst (v : Deliver) (s : State) : State :=
  let d := s.inst v.inst
  let f := s.stored v.frame
  let w := rxWindowNow s
  let used := d.rxUsedNow w
  let lim := d.rxLimitNow w
  let drop (s : State) := copyDone v.frame v.entry v.gen true (swCount 17 s)
  if !d.exists_ ∨ !f.crcOk then drop s
  else if d.gen ≠ v.instGen then drop (lateAt .swc 0 v.inst s)
  else if lim < used + 1 then drop (s.setInst v.inst fun d => { d with
    rxDrops := satAdd 32 d.rxDrops 1, rxWindow := w, rxUsed := used, rxLimit := lim,
    rxRing := d.rxRing.map fun r => { r with seq := (r.seq + 1) % 65536 } })
  else match d.rxRing with
    | none => drop s
    | some r =>
      let m : RingMem := { rd := fun a n => lsRead v.inst a n s, ok := fun a n => d.inLs a n }
      let o := ringDeliver m r (metadata f v.entry v.gen ++ f.octets ++ fcs f.octets)
      let s := o.writes.foldl (fun s x => lsWrite v.inst x.1 x.2 s) s
      let s := s.setInst v.inst fun d => { d with rxRing := some o.ring, rxWindow := w, rxUsed := used + 1, rxLimit := lim }
      copyDone v.frame v.entry v.gen true s

/-- Delivery into a host ring (R88, R90, R431). A ring that is not registered has no descriptor, and a frame found damaged is
discarded (R58): the copy is dropped and counted there (R132; log
entry 146). -/
def deliverHost (v : Deliver) (s : State) : State :=
  let f := s.stored v.frame
  if s.mbx.hostRings.has v.host ∧ f.crcOk then
    let h := s.mbx.hostRings.get v.host {}
    let m : RingMem := { rd := fun a n => s.mbx.hostMem.read a n, ok := fun _ _ => true }
    let o := ringDeliver m h (metadata f v.entry v.gen ++ f.octets ++ fcs f.octets)
    let s := s.modMbx fun b => { b with
      hostMem := o.writes.foldl (fun m x => m.write x.1 x.2) b.hostMem, hostRings := b.hostRings.set v.host o.ring }
    copyDone v.frame v.entry v.gen true (if o.writes = [] then s else vector (32 + v.host) s)
  else copyDone v.frame v.entry v.gen true (s.modMbx fun b => { b with hostNoRing := b.hostNoRing.set v.host (b.hostNoRing.get v.host 0 + 1) })

end Sys2Proof.Machine
end

