-- ==== Sys2Proof/Machine/Acquisition.lean ====
section
/-!
DEFINITION. Machine/Acquisition.lean: the commands of the acquisition engine (R308 to R329).
-/
namespace Sys2Proof.Machine
open Sys2Proof

/-- A set reaches the sources of its group (R309). -/
def acqSet (x : AcqSet) (s : State) : State :=
  acqSources (fun y => !y.raw && y.ref == x.group) (fun n k _ s =>
    acqTake n k { smp := { xs := x.xs, quals := x.quals, cflags := x.flags, smpCnt := x.smpCnt, synch := x.synch, hdr := x.hdr },
                  ext := x.ext, preset := x.preset, rate := x.rate } s) s

/-- A RAW source's sample in an ASDU, if the ASDU passes the checks of R142 for it (R309). -/
def rawSample (y : AcqSrc) (first : List Byte) (a : Asdu) : Option AcqArrival :=
  match a.smpCnt, a.data with
  | some c, some d =>
    if d.length % 8 ≠ 0 ∨ d.length < 8 * (y.firstPos + y.nch) ∨ wrapOf y.rate ≤ c ∨ a.svId ≠ first then none
    else if (match a.rate with | some r => decide (r ≠ rateIn y.rate) | none => false) then none
    else
      let ch := (List.range y.nch).map fun i => channelAt d (y.firstPos + i)
      some { smp := { xs := ch.map fun v => v.1, quals := ch.map fun v => bits v.2 13 0, cflags := ch.map fun _ => 0, smpCnt := c,
                      synch := a.synch % 4 }, rate := y.rate, raw := true }
  | _, _ => none

/-- A copy reaches the RAW sources of its entry (R309). A frame found damaged is discarded and counted (R58). -/
def acqCopy (v : Deliver) (s : State) : State :=
  let f := (s.stored v.frame).octets
  let s := if !(s.stored v.frame).crcOk then swCount 19 s else match frameAsdus f with
    | none => s
    | some as =>
      let first := (as.headD {}).svId
      acqSources (fun y => y.raw && y.ref == v.entry) (fun n k y s =>
        as.foldl (fun s a => match rawSample y first a with | some x => acqTake n k x s | none => s) s) s
  copyDone v.frame v.entry v.gen true s

/-- ACQ_SAMPLE (R309, R310, R319): the ACQ takes the oldest copy or set at its input. What it captures is staged in the DRAM: while the clock of
the DRAM interface stands it takes none (R21; log entry 159). -/
def execAcqSample (s : State) : Host.Outcome State Fault Refusal :=
  .next (match s.acq.inQ with
    | [] => s
    | e :: q =>
      if !s.clockUp .dmc then s else
      let s := s.modAcq fun a => { a with inQ := q }
      match e.copy with | some v => acqCopy v s | none => acqSet e.set s)

/-- ACQ_FLUSH (R322): FLUSH_US after its first item was staged, the frame being filled is sent, once the DRAM interface is clocked (R21). -/
def execAcqFlush (stream : Nat) (s : State) : Host.Outcome State Fault Refusal :=
  .next (match (s.acqS stream).items with
    | i :: _ => if !s.clockUp .dmc then s else whenDue (i.firstAge + us i.flushUs) (acqClose stream) s
    | [] => s)

/-- The staging buffer of a disabled stream is empty: its granules are released (R329). -/
def acqRelease (n : Nat) (s : State) : State :=
  let st := s.acqS n
  if st.en = false ∧ st.frames = [] ∧ st.items = [] then
    dramGive st.granules (s.setAcqS n fun x => { x with granules := [] })
  else s

/-- ACQ_DRAINED (R329). -/
def execAcqDrained (stream : Nat) (s : State) : Host.Outcome State Fault Refusal := .next (acqRelease stream s)

/-- The polarity set in TRIG_IN_EDGE (R331). -/
def edgeWanted (sel : Nat) (rising : Bool) : Bool := sel == 2 || (sel == 0 && rising) || (sel == 1 && !rising)

/-- TRIG_IN_EDGE (R317): an edge held for at least 1 us. Within TRIG_DEAD_MS of the previous accepted edge it is counted and ignored. It concerns
every stream that enables the cause, and every enabled one (R316; log entry 153). -/
def execTrigInEdge (level : Bool) (heldUs : Nat) (s : State) : Host.Outcome State Fault Refusal :=
  .next (if heldUs = 0 ∨ level = s.acq.trigIn then s
    else
      let s := s.modAcq fun a => { a with trigIn := level }
      if !s.acq.trigInEn || !edgeWanted s.acq.trigInEdge level then s
      else if (match s.acq.lastEdge with | some t => decide (s.now < t + ms s.acq.deadMs) | none => false) then acqCount 11 s
      else acqTrigger (s.trigNow 0) (fun st => st.en || st.causeEn.getLsbD 0) (s.modAcq fun a => { a with lastEdge := some s.now }))

end Sys2Proof.Machine
end

