-- ==== Sys2Proof/Machine/SceOps.lean ====
section
/-!
DEFINITION. Machine/SceOps.lean: sample conditioning. DC blocking and freezing (R146, R147), the FIR and its quality (R150, R153,
R154), thresholds (R157, R158), rings, sets and events (R159 to R166), one input position of a group (R144, R151, R155, R156), and the
admission checks (R168).
-/
namespace Sys2Proof.Machine
open Sys2Proof

/-- Group g. -/
def State.group (s : State) (g : Nat) : Group := s.sce.groups.get g {}

/-- Group g changed. -/
def State.setGroup (s : State) (g : Nat) (f : Group → Group) : State :=
  s.modSce fun c => { c with groups := c.groups.set g (f (c.groups.get g {})) }

/-- Context n. -/
def State.ctx (s : State) (n : Nat) : Ctx := s.sce.ctxs.get n {}

/-- Context n changed. -/
def State.setCtx (s : State) (n : Nat) (f : Ctx → Ctx) : State :=
  s.modSce fun c => { c with ctxs := c.ctxs.set n (f (c.ctxs.get n {})) }

/-- An SCE counter raised (R173). -/
def sceCount (i : Nat) (s : State) (n : Nat := 1) : State := s.modSce fun c => { c with live := bump c.live i n }

/-- The contexts of a group, in channel order (R140). -/
def Group.ctxNums (g : Group) : List Nat := (List.range g.nch).map fun c => g.firstCtx + c

/-! ### Rings (R161 to R166) -/

/-- Ring r of instance i, if it is registered: 0 to 3 sample rings, 4 the event ring (R161). -/
def State.ring (s : State) (i r : Nat) : Option SampleRing :=
  if s.sce.rings.has (5 * i + r) then some (s.sce.rings.get (5 * i + r) {}) else none

/-- Words into the next slot of a ring, then WR_SEQ into its control block (R164). `mk` makes the words from the SEQ. -/
def ringWrite (i r : Nat) (mk : Nat → List Byte) (s : State) : State :=
  match s.ring i r with
  | none => s
  | some q =>
    let seq := (q.wrSeq + 1) % 2 ^ 32
    let s := lsWrite i (q.addr + 16 * q.words * (seq % q.slots)) (mk seq) s
    let s := lsWrite i (q.ctl + 12) (leBytes 4 seq) s
    s.modSce fun c => { c with rings := c.rings.set (5 * i + r) { q with wrSeq := seq } }

/-- Subscriber entries of a group whose generation is no longer current lose VALID and are counted (R166); they wait for their instance's new
life (R193). -/
def dropStale (g : Nat) (s : State) : State :=
  let bad := fun (x : Subscr) => x.valid && !s.genCurrent x.inst x.gen
  let n := ((s.group g).subs.filter bad).length
  if n = 0 then s
  else sceCount 12 (s.setGroup g fun x => { x with subs := x.subs.map fun y => if bad y then { y with valid := false, wait := true } else y }) n

/-- What an event entry holds beside its SEQ (R160). -/
structure EventBody where
  /-- TYPE: 1 RAISE, 2 CLEAR, 3 STALE, 4 RESUME, 5 SYNCH. -/
  type : Nat
  /-- CONFIG. -/
  config : Bool := false
  /-- THR. -/
  thr : Nat := 0
  /-- SYNCH. -/
  synch : Nat := 0
  /-- SMPCNT. -/
  smp : Nat := 0
  /-- ONSET. -/
  onset : Nat := 0
  /-- CONTEXT. -/
  ctx : Nat := 0
  /-- VALUE. -/
  value : Int := 0
deriving DecidableEq, Repr

/-- The event entry with a SEQ, complete (R160). -/
def EventBody.entry (e : EventBody) (seq : Nat) : List Byte :=
  leBytes 16 (seq * 2 ^ 96 + e.type * 2 ^ 88 + 2 ^ 87 + b2n e.config * 2 ^ 83 + e.thr * 2 ^ 82 + e.synch % 4 * 2 ^ 80 + e.smp * 2 ^ 64
    + e.onset * 2 ^ 48 + e.ctx * 2 ^ 32 + unsigned 32 e.value)

/-- An event goes to the event ring of every subscriber of the group, once to each ring (R159, R164, R166). -/
def sceEvent (g : Nat) (e : EventBody) (s : State) : State :=
  let s := dropStale g s
  let is := ((s.group g).subs.filter fun x => x.valid).map fun x => x.inst
  let is := is.eraseDups.filter fun i => (s.ring i 4).isSome
  is.foldl (fun s i => sceCount 11 (ringWrite i 4 e.entry s)) s

/-- An event of the group as a whole: STALE, RESUME, SYNCH (R160). -/
def groupEvent (g type smp synch : Nat) (s : State) : State :=
  sceEvent g { type := type, smp := smp, onset := smp, synch := synch, ctx := (s.group g).firstCtx } s

/-! ### One context -/

/-- The quality of a held or restart position (R144): invalid, source substituted. -/
def substQual : BitVec 32 := 0x401

/-- The owner's FREEZE_REQ word: bits of its ring control block (R147, R161). -/
def freezeReq (g : Nat) (s : State) : Nat :=
  match (s.group g).subs with
  | o :: _ =>
    if o.valid && s.genCurrent o.inst o.gen then
      match s.ring o.inst o.ring with | some q => lsWord o.inst (q.ctl + 6) 2 s | none => 0
    else 0
  | [] => 0

/-- The effective freeze of channel c of a group (R147). -/
def Ctx.frozenNow (x : Ctx) (req c : Nat) : Bool :=
  x.freeze || (x.freezeAuto == 1 && x.t0.active) || (x.freezeAuto == 2 && x.t1.active)
    || (x.freezeAuto == 3 && (x.t0.active || x.t1.active)) || fld req c c == 1

/-- The DC-blocking stage (R146): the new estimate, the output, and whether it saturated. -/
def dcBlock (x : Ctx) (frozen : Bool) (v : Int) : Int × Int × Bool :=
  if x.corner = 0 then (x.dcEst, v, false)
  else
    let m := if frozen then x.dcEst else x.dcEst + roundInt ((v * 65536 - x.dcEst) * x.dcK) (2 ^ 32)
    let y := satInt 32 (v - roundInt m 65536)
    (m, y.1, y.2)

/-- The rank of a validity code, worst last (R153). -/
def validRank (q : BitVec 32) : Nat := match bits q 1 0 with | 0 => 0 | 3 => 1 | _ => 2

/-- Condition k of an input position (R153, R154, R162): 0 invalid, 1 questionable, 2 to 12 the bit of its quality, 13 saturated at the
DC-blocking stage, 14 held, 15 restart. -/
def posCond (qual : BitVec 32) (kind : PosKind) (sat : Bool) (k : Nat) : Bool :=
  match k with
  | 0 => validRank qual == 2 | 1 => validRank qual == 1
  | 13 => sat | 14 => kind == .held | 15 => kind == .restart
  | k => bitOf qual k

/-- The condition counters after a position (R153): 0 where the condition has not been met, else how many positions ago it last was,
the newest being 1. -/
def trackPos (t : List Nat) (qual : BitVec 32) (kind : PosKind) (sat : Bool) : List Nat :=
  (List.range 16).map fun k =>
    if posCond qual kind sat k then 1 else if t.getD k 0 = 0 then 0 else min 65535 (t.getD k 0 + 1)

/-- The counters where the positions older than the newest m are restart positions (R144). -/
def trackRefill (t : List Nat) (m : Nat) : List Nat :=
  (List.range 16).map fun k =>
    if 0 < t.getD k 0 ∧ t.getD k 0 ≤ m then t.getD k 0 else if posCond substQual .restart false k then m + 1 else 0

/-- Condition k is met in the newest n positions of a context. -/
def Ctx.met (x : Ctx) (k n : Nat) : Bool := decide (0 < x.track.getD k 0) && decide (x.track.getD k 0 ≤ n)

/-- An input position enters a context (R144, R146, R153). -/
def Ctx.push (x : Ctx) (frozen : Bool) (v : Int) (qual : BitVec 32) (kind : PosKind) : Ctx :=
  let d := dcBlock x frozen v
  { x with dcEst := d.1, frozen := frozen, lastIn := v, derived := bitOf qual 13, track := trackPos x.track qual kind d.2.2,
           hist := (d.2.1 :: x.hist).take (presetTaps x.histClass) }

/-- A context whose whole history is restart positions (R144). -/
def Ctx.refill (x : Ctx) : Ctx :=
  { x with hist := List.replicate (presetTaps x.histClass) 0, derived := false, track := trackRefill [] 0 }

/-- The FIR over a window, newest input first (R150): the output and whether it saturated. -/
def fir (preset : Nat) (w : List Int) : Int × Bool :=
  satInt 32 (roundInt ((w.zipIdx.map fun p => firTap preset p.2 * p.1).sum) 32768)

/-- One output of a channel. -/
structure ChanOut where
  /-- VALUE. -/
  v : Int
  /-- QUALITY, 14 bits. -/
  qual : Nat
  /-- CFLAGS without T1 and T0. -/
  flags : Nat
  /-- SAT. -/
  sat : Bool
deriving DecidableEq, Repr

/-- The output of a context with a preset (R150, R153, R154, R163). A context that holds an uncorrectable word gives invalid outputs
(R58). -/
def Ctx.output (x : Ctx) (preset : Nat) : ChanOut :=
  let n := presetTaps preset
  let y := fir preset (x.hist.take n)
  let sat := y.2 || x.met 13 n
  let validity := if x.bad || x.met 0 n then 1 else if sat || x.met 1 n then 3 else 0
  let other := ((List.range 11).map fun k => 2 ^ (k + 2) * b2n (x.met (k + 2) n || (k == 0 && sat))).sum
  { v := y.1, qual := validity + other + 8192 * b2n x.derived, sat := sat,
    flags := 32 * b2n (x.met 14 n || x.met 15 n) + 16 * b2n sat + 8 * b2n x.frozen + 4 * b2n (x.corner == 0) }

/-- An output is beyond a threshold (R157). -/
def Thr.beyond (t : Thr) (v : Int) : Bool :=
  if t.mode = 1 then decide (t.level < v) else if t.mode = 2 then decide (v < t.level) else if t.mode = 3 then decide (t.level < v.natAbs)
  else false

/-- An output has returned from a threshold (R157). -/
def Thr.returned (t : Thr) (v : Int) : Bool :=
  if t.mode = 1 then decide (v ≤ t.level - t.hyst) else if t.mode = 2 then decide (t.level + t.hyst ≤ v)
  else if t.mode = 3 then decide ((v.natAbs : Int) ≤ t.level - t.hyst) else false

/-- A threshold takes an output with its source smpCnt (R157, R158); with it the event type that follows, 0 for none. -/
def Thr.step (t : Thr) (v : Int) (invalid : Bool) (smp : Nat) : Thr × Nat :=
  if t.mode = 0 then (t, 0)
  else if invalid then (if t.active then t else { t with run := 0 }, 0)
  else if t.active then
    if t.returned v then ({ t with active := false, run := 0 }, 2) else (t, 0)
  else if t.beyond v then
    let t := { t with run := min 255 (t.run + 1), onset := if t.run = 0 then smp else t.onset }
    if t.minDur ≤ t.run then ({ t with active := true }, 1) else (t, 0)
  else ({ t with run := 0 }, 0)

/-- A threshold event is counted and routed by DEST (R159, R316). -/
def thrEvent (g n thr type smp : Nat) (t : Thr) (value : Int) (config : Bool) (s : State) : State :=
  let s := sceCount (if type = 1 then 14 else 15) s
  let s := if fld t.dest 0 0 = 1 then
      sceEvent g { type := type, config := config, thr := thr, smp := smp, onset := if type = 1 then t.onset else smp, ctx := n,
                   value := value } s
    else s
  if fld t.dest 1 1 = 1 ∧ type = 1 then
    acqTrigger { s.trigNow 1 with ctx := thr * 32768 + n, smpCnt := smp }
      (fun st => st.used.any fun x => !x.raw && x.ref == g) s
  else s

/-! ### One position of a group -/

/-- The position lies on the group's decimation grid (R151). -/
def Group.onGrid (g : Group) (smp ext : Nat) : Bool :=
  let d := presetD g.preset
  if g.smpWrap % d = 0 then smp % d == g.decPhase else ext % d == g.decPhase

/-- A channel's 64-bit entry (R163). -/
def chanEntry (o : ChanOut) (flags : Nat) : Nat := unsigned 32 o.v * 2 ^ 32 + o.qual * 65536 + flags

/-- Channel words of a set (R163). -/
def chanWords : List Nat → List Byte
  | [] => []
  | [a] => leBytes 16 a
  | a :: b :: t => leBytes 16 (a + b * 2 ^ 64) ++ chanWords t

/-- The set header but SEQ and VALID (R162). -/
def setHeader (gn : Nat) (g : Group) (smp synch : Nat) (hdr : BitVec 4) : Nat :=
  hdr.toNat * 2 ^ 89 + presetDelay g.preset * 2 ^ 80 + g.preset * 2 ^ 77 + g.rate * 2 ^ 74 + synch % 4 * 2 ^ 72 + smp * 2 ^ 48
    + g.nch * 2 ^ 43 + gn * 2 ^ 32 + g.ext

/-- What one channel makes of an output: number of its context, output, flags, thresholds after it and their events. -/
structure ChanStep where
  /-- Context number. -/
  n : Nat
  /-- The output. -/
  o : ChanOut
  /-- T0 after it. -/
  t0 : Thr × Nat
  /-- T1 after it. -/
  t1 : Thr × Nat

/-- CFLAGS (R163). -/
def ChanStep.flags (c : ChanStep) : Nat := c.o.flags + 2 * b2n c.t1.1.active + b2n c.t0.1.active

/-- The group produces the outputs of a grid position: thresholds, the set to every subscriber and the ACQ, then the events (R157, R159,
R162, R164, R309). -/
def groupOutput (gn smp synch : Nat) (s : State) : State :=
  let g := s.group gn
  let cs := g.ctxNums.map fun n =>
    let x := s.ctx n
    let o := x.output g.preset
    let inv := o.qual % 4 == 1
    ({ n := n, o := o, t0 := x.t0.step o.v inv smp, t1 := x.t1.step o.v inv smp } : ChanStep)
  let any := fun k => b2n (g.ctxNums.any fun n => (s.ctx n).met k (presetTaps g.preset))
  let hdr : BitVec 4 := BitVec.ofNat 4 (8 * b2n (decide (0 < g.settle)) + 4 * b2n g.presetChanged + 2 * any 15 + any 14)
  let s := cs.foldl (fun s c => s.setCtx c.n fun x => { x with t0 := c.t0.1, t1 := c.t1.1 }) s
  let s := sceCount 9 s (cs.filter fun c => c.o.sat).length
  let body := setHeader gn g smp synch hdr
  let words := chanWords (cs.map fun c => chanEntry c.o c.flags)
  let s := dropStale gn s
  let subs := (s.group gn).subs.filter fun x => x.valid && (s.ring x.inst x.ring).isSome
  let s := subs.foldl (fun s x =>
    sceCount 10 (ringWrite x.inst x.ring (fun seq => leBytes 16 (seq * 2 ^ 96 + 2 ^ 95 + body) ++ words) s)) s
  let s := s.setGroup gn fun x => { x with seq := (x.seq + 1) % 2 ^ 32, presetChanged := false }
  let s := if g.acqEn then
      acqPass { group := gn, smpCnt := smp, ext := g.ext, synch := synch % 4, hdr := hdr, preset := g.preset, rate := g.rate,
                xs := cs.map fun c => c.o.v, quals := cs.map fun c => c.o.qual, flags := cs.map ChanStep.flags } s
    else s
  cs.foldl (fun s c =>
    let s := if c.t0.2 = 0 then s else thrEvent gn c.n 0 c.t0.2 smp c.t0.1 c.o.v false s
    if c.t1.2 = 0 then s else thrEvent gn c.n 1 c.t1.2 smp c.t1.1 c.o.v false s) s

/-- A pending preset change applies (R155, R156): outputs settle over the new filter's taps less one. A DEC_PHASE that the new D does not
allow (R151) becomes `phase`. -/
def Group.newPreset (g : Group) (settle : Bool) (phase : Nat) : Group :=
  { g with preset := g.pendPreset, pend := false, presetChanged := true, settle := if settle then presetTaps g.pendPreset else 0,
           decPhase := if g.decPhase < presetD g.pendPreset then g.decPhase else phase % presetD g.pendPreset }

/-- A group's pending preset change applies and is counted (R173); what becomes of a DEC_PHASE too large for the new D is open (log entry
150). -/
def applyPreset (gn : Nat) (settle : Bool) (s : State) : State :=
  if (s.group gn).pend then
    let open_ := decide (presetD (s.group gn).pendPreset ≤ (s.group gn).decPhase)
    sceCount 13 ((if open_ then s.took else s).setGroup gn fun x => x.newPreset settle s.free1)
  else s

/-- One input position of a group with its smpCnt, EXT and smpSynch: every context takes its input, and a grid position gives an
output (R144, R151). A pending preset change applies after an output of the preset in force (R155). -/
def groupPosition (gn : Nat) (ins : List (Int × BitVec 32)) (kind : PosKind) (smp ext synch req : Nat) (s : State) : State :=
  let g := s.group gn
  let s := (g.ctxNums.zipIdx).foldl (fun s c =>
    s.setCtx c.1 fun x =>
      let i := ins.getD c.2 (x.lastIn, substQual)
      x.push (x.frozenNow req c.2) i.1 i.2 kind) s
  let s := s.setGroup gn fun x => { x with ext := ext, settle := x.settle - 1 }
  if (s.group gn).onGrid smp ext then applyPreset gn true (groupOutput gn smp synch s) else s

/-- The histories of a group's contexts are filled with restart positions (R144), and a pending preset change applies at once
(R156). -/
def groupRefill (gn : Nat) (s : State) : State :=
  applyPreset gn false ((s.group gn).ctxNums.foldl (fun s n => s.setCtx n Ctx.refill) s)

/-- start(s) of R144: RESUME where the group was stale (R145), histories refilled, EXT 0, DC estimates loaded. -/
def groupStart (gn : Nat) (ins : List (Int × BitVec 32)) (smp synch req : Nat) (s : State) : State :=
  let s := if (s.group gn).state = 2 then groupEvent gn 4 smp 0 s else s
  let s := groupRefill gn (s.setGroup gn fun x => { x with state := 1, settle := 0 })
  let s := ((s.group gn).ctxNums.zipIdx).foldl (fun s c => s.setCtx c.1 fun x => { x with dcEst := (ins.getD c.2 (0, 0)).1 * 65536 }) s
  groupPosition gn ins .real smp 0 synch req s

/-- An accepted ASDU of a group (R144): processed, filled, discarded, restarted or started. smpSynch is taken modulo 4, as the fields hold it
(DESIGN CHOICE, log entry 174). -/
def groupAccept (gn : Nat) (ins : List (Int × BitVec 32)) (smp synch : Nat) (s : State) : State :=
  let g := s.group gn
  let w := g.smpWrap
  let e := (g.lastSmp + 1) % w
  let gap := (smp + w - e) % w
  let req := freezeReq gn s
  let startNow := g.state ≠ 1 ∨ g.lastArr + ms g.gapTime ≤ s.now
  if !startNow && gap != 0 && decide (w ≤ 2 * gap) then sceCount 5 s
  else
    let s := if g.synchKnown && g.lastSynch != synch % 4 then groupEvent gn 5 smp (synch % 4) s else s
    let s :=
      if startNow then groupStart gn ins smp synch req s
      else if gap = 0 then groupPosition gn ins .real smp ((g.ext + 1) % 2 ^ 32) synch req s
      else if gap ≤ g.gapFill then
        let s := (List.range gap).foldl (fun s j =>
          groupPosition gn [] .held ((e + j) % w) (((s.group gn).ext + 1) % 2 ^ 32) g.lastSynch req s) s
        groupPosition gn ins .real smp (((s.group gn).ext + 1) % 2 ^ 32) synch req (sceCount 6 s gap)
      else
        let s := groupRefill gn (s.setGroup gn fun x => { x with settle := x.settle - gap })
        groupPosition gn ins .real smp ((g.ext + gap + 1) % 2 ^ 32) synch req (sceCount 7 s)
    s.setGroup gn fun x => { x with lastSmp := smp, lastSynch := synch % 4, synchKnown := true, lastArr := s.now }

/-- The first check of R142 that an ASDU fails for a group, as the counter that counts it. -/
def asduFails (g : Group) (ctxs : List Ctx) (first : List Byte) (a : Asdu) : Option Nat :=
  match a.smpCnt, a.data with
  | some c, some d =>
    if d.length % 8 ≠ 0 ∨ ctxs.any (fun x => decide (d.length < 8 * (x.chanPos + 1))) then some 1
    else if g.smpWrap ≤ c then some 1
    else if a.svId ≠ first then some 2
    else if g.chkConfRev && a.confRev != some g.confRev then some 3
    else if (match a.rate with | some r => decide (r ≠ rateIn g.rate) | none => false) then some 4
    else none
  | _, _ => some 1

/-- A context with an uncorrectable word is restored from the MGP's shadow, and its group starts (R58, R144). -/
def groupRestore (gn : Nat) (s : State) : State :=
  let ns := (s.group gn).ctxNums
  if s.persist.fwUp && ns.any fun n => (s.ctx n).bad then
    (ns.foldl (fun s n => s.setCtx n fun x => { x with bad := false }) s).setGroup gn fun x =>
      { x with state := if x.state = 1 then 0 else x.state }
  else s

/-- One ASDU of a frame for one group (R142). -/
def groupAsdu (gn : Nat) (first : List Byte) (a : Asdu) (s : State) : State :=
  let g := s.group gn
  let ctxs := g.ctxNums.map s.ctx
  match asduFails g ctxs first a with
  | some c => sceCount c s
  | none =>
    let d := a.data.getD []
    groupAccept gn (ctxs.map fun x => channelAt d x.chanPos) (a.smpCnt.getD 0) a.synch (groupRestore gn s)

/-! ### Admission (R168) -/

/-- Input samples per second of all contexts. -/
def sceInput (s : State) : Nat := (s.sce.groups.map fun p => p.2.nch * rateIn p.2.rate).sum

/-- A multiple of every NASDU: the frame rates in units of 1/720,720 per second are whole. -/
def nasduLcm : Nat := 720720

/-- Frames per second of all stream entries bound to groups, times `nasduLcm`: the highest rate declared for each entry. -/
def sceFrames (s : State) : Nat :=
  let es := (s.sce.groups.filter fun p => decide (0 < p.2.nch)).map fun p => p.2.entry
  (es.eraseDups.map fun e => ((s.sce.groups.filter fun p => p.2.entry == e && decide (0 < p.2.nch)).map fun p =>
    rateIn p.2.rate * (nasduLcm / max 1 p.2.nasdu)).foldl max 0).sum

/-- History words of all contexts in groups. -/
def sceHistory (s : State) : Nat :=
  (s.sce.groups.map fun p => (p.2.ctxNums.map fun n => presetTaps (s.ctx n).histClass - 1).sum).sum

/-- 12 / D at its highest while a group has its preset and after a pending change (R155). -/
def Group.outRate12 (g : Group) : Nat := max (12 / presetD g.preset) (if g.pend then 12 / presetD g.pendPreset else 0)

/-- Ring octets written per second, times 12 so that every output rate is whole: for every subscription, one whose ring is yet to be
registered among them. -/
def sceRings12 (s : State) : Nat :=
  (s.sce.groups.map fun p =>
    (p.2.subs.filter Subscr.held).length * (rateIn p.2.rate * p.2.outRate12) * (32 + 16 * ((p.2.nch + 1) / 2))).sum

/-- Contexts belong to one group each, and numbers lie in range (R140, R168). -/
def sceCounts (s : State) : Bool :=
  let ns := s.sce.groups.flatMap fun p => p.2.ctxNums
  decide (ns.length ≤ 4096) && decide ns.Nodup && ns.all (fun n => decide (n < 4096))
    && s.sce.groups.all (fun p => decide (p.1 < 1024) && decide (p.2.nch ≤ 16))

/-- The first check of R168 that fails, by its place in the table. -/
def sceAdmit (s : State) : Option Nat :=
  if 200000000 < sceInput s then some 1
  else if 4000000 * nasduLcm < sceFrames s then some 2
  else if 393216 < sceHistory s then some 3
  else if 12 * 6400000000 < sceRings12 s then some 4
  else if !sceCounts s then some 5
  else none

end Sys2Proof.Machine
end

