-- ==== Sys2Proof/Machine/StreamOps.lean ====
section
/-!
DEFINITION. Machine/StreamOps.lean: the stream and forwarding tables. Lookup (R111, R112), changes to entries (R123 to R126), source
learning (R120), admission (R122) and the learn cache (R121).
-/
namespace Sys2Proof.Machine
open Sys2Proof

/-! ### Lookup -/

/-- The 16 slots of a stream key (R111): 8 ways of its bucket in each bank. -/
def streamSlots (key : BitVec 128) (s : State) : List Nat :=
  [0, 1].flatMap fun b => (List.range 8).map fun w => b * 8192 + Config.hashIndex s.sw.seed key.toNat b % 1024 * 8 + w

/-- The 16 slots of a forwarding key (R111). -/
def fwdSlots (key : BitVec 128) (s : State) : List Nat :=
  [0, 1].flatMap fun b => (List.range 8).map fun w => 0x4000 + b * 4096 + Config.hashIndex s.sw.seed key.toNat (2 + b) % 512 * 8 + w

/-- The ACTIVE stream entry of a key (R111, R112): an invalidated one is treated as absent (R58). -/
def streamLookup (key : BitVec 128) (s : State) : Option Nat :=
  (streamSlots key s).find? fun i => let e := s.stream i; e.state == .active && !e.invalid && e.key == key

/-- The ACTIVE forwarding entry of a key. -/
def fwdLookup (key : BitVec 128) (s : State) : Option Nat :=
  (fwdSlots key s).find? fun i => let e := s.fwdE i; e.state == .active && !e.invalid && e.key == key

/-- The record of a key closes (R121). -/
def learnClose (key : BitVec 128) (s : State) : State := s.modSw fun w => { w with learn := w.learn.filter fun r => r.key ≠ key }

/-! ### Changes to entries (R123 to R126) -/

/-- The generation after `g` (R112). -/
def entGen (g : Nat) : Nat := (g + 1) % 65536

/-- The mirror session that an entry names (R112, R136). -/
def StreamEntry.mirrors (e : StreamEntry) : Option Nat := if e.action.getLsbD 2 then some e.mirSession else none

/-- The fields that a commit writes, over the ones the table keeps (R112, R124): the counts move on. -/
def StreamEntry.rewrite (e c : StreamEntry) : StreamEntry :=
  { e with key := c.key, static := c.static, action := c.action, cls := c.cls, ageCode := c.ageCode, idleLimit := c.idleLimit,
           ingress := c.ingress, ports := c.ports, subRef := c.subRef, mirSession := c.mirSession, rate := c.rate,
           gen := entGen e.gen, refPrev := e.refCur, refCur := 0, prevRef := e.subRef, prevMir := e.mirrors, invalid := false }

/-- As for forwarding entries (R117). -/
def FwdEntry.rewrite (e c : FwdEntry) : FwdEntry :=
  { e with key := c.key, static := c.static, dropDst := c.dropDst, dropSrc := c.dropSrc, targetType := c.targetType,
           target := c.target, ports := c.ports, gen := entGen e.gen, refPrev := e.refCur, refCur := 0, invalid := false }

/-- An entry admitted into a FREE slot (R125): the generation advances. -/
def StreamEntry.enrol (e c : StreamEntry) (learned : Bool) : StreamEntry :=
  { ({ gen := e.gen } : StreamEntry).rewrite c with state := .active, learned := learned }

/-- As for forwarding entries. -/
def FwdEntry.enrol (e c : FwdEntry) : FwdEntry := { ({ gen := e.gen } : FwdEntry).rewrite c with state := .active }

/-- An ACTIVE entry removed (R124, R125): DRAINING, its copies now of the previous generation. -/
def StreamEntry.drain (e : StreamEntry) (q : Nat) : StreamEntry :=
  { e with state := .draining, gen := entGen e.gen, refPrev := e.refCur, refCur := 0, prevRef := e.subRef, prevMir := e.mirrors : StreamEntry }.settle q

/-- As for forwarding entries. Copies of an earlier generation are still counted. -/
def FwdEntry.drain (e : FwdEntry) (q : Nat) : FwdEntry :=
  { e with state := .draining, gen := entGen e.gen, refPrev := e.refPrev + e.refCur, refCur := 0 : FwdEntry }.settle q

/-- Another slot in which a stream key stands ACTIVE, an invalidated entry included (R58, R111). -/
def streamTwin (idx : Nat) (key : BitVec 128) (s : State) : Option Nat :=
  (streamSlots key s).find? fun j => j != idx && (s.stream j).state == .active && (s.stream j).key == key

/-- As for forwarding entries. -/
def fwdTwin (idx : Nat) (key : BitVec 128) (s : State) : Option Nat :=
  (fwdSlots key s).find? fun j => j != idx && (s.fwdE j).state == .active && (s.fwdE j).key == key

/-- A change writes a stream entry (R124); none while it has to wait. A key never stands in two slots (R111): what holds it elsewhere drains in the
same operation, as in a move (R126). A record of the key closes with its admission (R121). -/
def putStreamNow (idx : Nat) (c : StreamEntry) (s : State) : Option State :=
  let e := s.stream idx
  let q := s.now + holdoffNs s
  let put (s : State) := learnClose c.key (if e.state = .active then s.setStream idx fun e => e.rewrite c else s.setStream idx fun e => e.enrol c c.learned)
  if e.state = .free ∨ (e.state = .active ∧ e.refPrev = 0) then
    match streamTwin idx c.key s with
    | none => some (put s)
    | some j => if (s.stream j).refPrev = 0 then some (put (s.setStream j fun e => e.drain q)) else none
  else none

/-- A change writes a forwarding entry. -/
def putFwdNow (idx : Nat) (c : FwdEntry) (s : State) : Option State :=
  let e := s.fwdE idx
  let q := s.now + holdoffNs s
  let put (s : State) := if e.state = .active then s.setFwd idx fun e => e.rewrite c else s.setFwd idx fun e => e.enrol c
  if e.state = .free ∨ (e.state = .active ∧ e.refPrev = 0) then
    match fwdTwin idx c.key s with
    | none => some (put s)
    | some j => if (s.fwdE j).refPrev = 0 then some (put (s.setFwd j fun e => e.drain q)) else none
  else none

/-- A subscriber bitmap whose reference an entry has dropped is still needed by copies of that entry's previous generation (R124). -/
def bitmapHeld (idx : Nat) (s : State) : Bool :=
  s.sw.streams.any fun p => decide (p.2.refPrev ≠ 0) && p.2.prevRef == idx && (p.2.state != .active || p.2.subRef != idx)

/-- A mirror session whose reference an entry has dropped is still needed by copies of that entry's previous generation (R124). -/
def mirHeld (m : Nat) (s : State) : Bool :=
  s.sw.streams.any fun p => decide (p.2.refPrev ≠ 0) && p.2.prevMir == some m && (p.2.state != .active || p.2.mirrors != some m)

/-- A change removes an entry; one that is not ACTIVE is left as it is. -/
def removeNow (idx : Nat) (s : State) : Option State :=
  let q := s.now + holdoffNs s
  if isStreamIdx idx then
    let e := s.stream idx
    if e.state = .active then (if e.refPrev = 0 then some (s.setStream idx fun e => e.drain q) else none) else some s
  else
    let e := s.fwdE idx
    if e.state = .active then (if e.refPrev = 0 then some (s.setFwd idx fun e => e.drain q) else none) else some s

/-- A resident entry moves to its other bucket (R126): admitted there and DRAINING here in one operation. An invalidated one stays invalidated
until it is restored (R58). -/
def moveNow (idx dest : Nat) (s : State) : Option State :=
  let q := s.now + holdoffNs s
  if isStreamIdx idx then
    let e := s.stream idx
    if e.state = .active ∧ e.refPrev = 0 ∧ (s.stream dest).state = .free then
      some ((s.setStream dest fun f => { f.enrol e e.learned with
        invalid := e.invalid, matchFrames := e.matchFrames, matchOctets := e.matchOctets, lastOctets := e.lastOctets, idleCount := e.idleCount,
        wrongPort := e.wrongPort, idle := e.idle, idleDue := e.idleDue }).setStream idx fun e => e.drain q)
    else if e.state = .active then none else some s
  else
    let e := s.fwdE idx
    if e.state = .active ∧ e.refPrev = 0 ∧ (s.fwdE dest).state = .free then
      some ((s.setFwd dest fun f => { f.enrol e with
        invalid := e.invalid, learned := e.learned, srcPorts := e.srcPorts, idleCount := e.idleCount, moves := e.moves, dupLast := e.dupLast, seenA := e.seenA,
        seenB := e.seenB }).setFwd idx fun e => e.drain q)
    else if e.state = .active then none else some s

/-- One change applied, or none while it waits (R123, R124). -/
def applyChange (c : StbChange) (s : State) : Option State :=
  match c.op with
  | .putStream => putStreamNow c.idx c.stream s
  | .putFwd => putFwdNow c.idx c.fwd s
  | .putBitmap => if bitmapHeld c.idx s then none else some (s.modSw fun w => { w with bitmaps := w.bitmaps.set c.idx c.bitmap })
  | .putMir => if mirHeld c.idx s then none else some (s.modSw fun w => { w with mir := w.mir.set c.idx c.mir })
  | .remove => removeNow c.idx s
  | .move => moveNow c.idx c.dest s

/-- The commit being applied has applied its last change, and completes (R123, R445; log entry 147). -/
def commitDone (s : State) : State :=
  if s.sw.applying = [] then
    refreshAllOver (opDone? s.sw.applyOp .ok [] (s.modSw fun w => { w with applyOp := none }))
  else s

/-- The oldest committed change is applied, if it need not wait (R123). -/
def applyOldest (s : State) : State :=
  match s.sw.applying with
  | [] => s
  | c :: rest => match applyChange c s with
    | some s => commitDone (s.modSw fun w => { w with applying := rest })
    | none => s

/-- Changes of the firmware's own join the committed ones; they are applied at once where nothing waits before them. -/
def commitNow (cs : List StbChange) (s : State) : State :=
  let s := s.modSw fun w => { w with applying := w.applying ++ cs }
  cs.foldl (fun s _ => applyOldest s) s

/-! ### Placement (R111, R122, R126) -/

/-- The tables as a change leaves them (R122, R123). -/
def afterChange (c : StbChange) (s : State) : State :=
  s.modSw fun w =>
    match c.op with
    | .putStream => { w with streams := w.streams.set c.idx { c.stream with state := .active } }
    | .putFwd => { w with fwd := w.fwd.set c.idx { c.fwd with state := .active } }
    | .putBitmap => { w with bitmaps := w.bitmaps.set c.idx c.bitmap }
    | .putMir => { w with mir := w.mir.set c.idx c.mir }
    | .remove => if isStreamIdx c.idx then { w with streams := w.streams.del c.idx } else { w with fwd := w.fwd.del c.idx }
    | .move =>
      if isStreamIdx c.idx then { w with streams := (w.streams.del c.idx).set c.dest (w.streams.get c.idx {}) }
      else { w with fwd := (w.fwd.del c.idx).set c.dest (w.fwd.get c.idx {}) }

/-- The tables once every committed change is applied (R123). -/
def committed (s : State) : State := s.sw.applying.foldl (fun s c => afterChange c s) s

/-- Slots that waiting changes will fill. -/
def pendingSlots (s : State) : List Nat :=
  (s.sw.batch ++ s.sw.applying).flatMap fun c => if c.op = .putStream ∨ c.op = .putFwd then [c.idx] else if c.op = .move then [c.dest] else []

/-- A slot is FREE and no waiting change will fill it, which holds for learning too (DESIGN CHOICE, log entry 170). -/
def slotFree (i : Nat) (s : State) : Bool :=
  (if isStreamIdx i then (s.stream i).state == .free else (s.fwdE i).state == .free) && !(pendingSlots s).contains i

/-- The tables as a waiting change will leave them (R123 to R126): a removed slot is not free before its hold-off. -/
def planChange (s : State) (c : StbChange) : State :=
  match c.op with
  | .putStream => s.setStream c.idx fun e => { e with state := .active, key := c.stream.key }
  | .putFwd => s.setFwd c.idx fun e => { e with state := .active, key := c.fwd.key, static := c.fwd.static }
  | .putBitmap => s
  | .putMir => s
  | .remove => if isStreamIdx c.idx then s.setStream c.idx fun e => { e with state := .draining } else s.setFwd c.idx fun e => { e with state := .draining }
  | .move =>
    if isStreamIdx c.idx then
      (s.setStream c.dest fun _ => { s.stream c.idx with state := .active }).setStream c.idx fun e => { e with state := .draining }
    else (s.setFwd c.dest fun _ => { s.fwdE c.idx with state := .active }).setFwd c.idx fun e => { e with state := .draining }

/-- The tables once every waiting change is applied, those of the batch last. -/
def planned (s : State) : State := (s.sw.applying ++ s.sw.batch).foldl planChange s

/-- The slot that holds a key, an invalidated entry included. -/
def keySlot (stream : Bool) (key : BitVec 128) (s : State) : Option Nat := if stream then streamTwin 65535 key s else fwdTwin 65535 key s

/-- The slot is FREE. -/
def isFree (i : Nat) (s : State) : Bool := if isStreamIdx i then (s.stream i).state == .free else (s.fwdE i).state == .free

/-- Where a key is placed (R111, R122 check 1), as the waiting changes will leave the tables: its own entry; else a free slot; else the slot of a
resident that can move to its other bucket, with the slot it moves to (R126). -/
def place (stream : Bool) (key : BitVec 128) (s : State) : Option (Nat × Option Nat) :=
  let s := planned s
  let slots := if stream then streamSlots key s else fwdSlots key s
  match keySlot stream key s with
  | some i => some (i, none)
  | none =>
    match slots.find? fun i => isFree i s with
    | some i => some (i, none)
    | none =>
      (slots.filterMap fun i =>
        let k := if stream then (s.stream i).key else (s.fwdE i).key
        let act := if stream then (s.stream i).state == .active else (s.fwdE i).state == .active && !(s.fwdE i).static
        let alt := (if stream then streamSlots k s else fwdSlots k s).find? fun j => isFree j s
        if act then alt.map fun j => (i, some j) else none).head?

/-- The changes that put a stream entry where `place` says. -/
def putChanges (c : StbChange) (p : Nat × Option Nat) : List StbChange :=
  (match p.2 with | some j => [{ idx := p.1, dest := j, op := .move }] | none => []) ++ [{ c with idx := p.1 }]

/-! ### Admission (R122) -/

/-- 90 % of a port's rate in units of 0.1 Mbit/s. -/
def portLimit (k : Nat) (s : State) : Nat :=
  let r := (s.port k).rate
  if r = 0 then 225000 else if r = 1 then 90000 else 9000

/-- The load on a port in 0.1 Mbit/s: RATE of the ACTIVE entries that name it (R122, R326). -/
def portLoad (egress : Bool) (k : Nat) (t : Tbl StreamEntry) : Nat :=
  (t.map fun p => if p.2.state == .active && (if egress then p.2.ports.getLsbD k else p.2.ingress.getLsbD k) then p.2.rate else 0).sum

/-- STREAM_RATE of the enabled acquisition streams of a port in 0.1 Mbit/s, stream `n` apart (R326). -/
def acqLoad (n k : Nat) (s : State) : Nat :=
  (s.acq.streams.map fun p => if p.2.en && p.2.port == k && p.1 != n then p.2.rateMbit * 10 else 0).sum

/-- The first of checks 2 to 5 of R122 that an entry fails, with the tables as they would stand. -/
def entryAdmit (e : StreamEntry) (t : Tbl StreamEntry) (b : Tbl SubBitmap) (s : State) : Option Nat :=
  if (List.range 8).any fun k => e.ingress.getLsbD k && decide (portLimit k s < portLoad false k t) then some 2
  else if (List.range 8).any fun k => e.ports.getLsbD k && decide (portLimit k s < portLoad true k t) then some 3
  else if e.action.getLsbD 1 && decide (e.subRef ≠ 0) && !b.has e.subRef then some 4
  else if e.action.getLsbD 1 && (b.get e.subRef {}).sce then (sceAdmit s).map fun _ => 5
  else none

/-! ### Source learning (R120) -/

/-- The port set that an address is learned on (R120). -/
def learnPorts (k : Nat) (s : State) : BitVec 8 :=
  if k < 2 ∧ s.sw.hsrEn then 0b11 else if (k = 4 ∨ k = 5) ∧ s.sw.prpEn then 0b110000 else listMask 8 [k]

/-- A good frame's source address is learned or refreshed (R120). The port of a STATIC entry is its PORT_MASK (log entry 13); PORT_MASK of a
LEARNED entry follows SRC_PORTS (log entry 148). -/
def sourceLearn (k mac vid : Nat) (s : State) : State :=
  if isGroup mac || !(s.sw.portLearn.getD k true) then s
  else
    let ps := learnPorts k s
    match fwdLookup (fwdKey mac vid) s with
    | some i =>
      let e := s.fwdE i
      if (if e.static then e.ports &&& ps != 0 else e.srcPorts == ps) then s.setFwd i fun e => { e with idleCount := 0 }
      else if e.static then swCount 6 s
      else s.setFwd i fun e => { e with srcPorts := ps, ports := if e.learned then ps else e.ports, moves := satAdd 16 e.moves 1, idleCount := 0 }
    | none =>
      match (fwdSlots (fwdKey mac vid) s).find? fun i => slotFree i s with
      | some i => s.setFwd i fun e => { ({ gen := entGen e.gen } : FwdEntry) with
          key := fwdKey mac vid, state := .active, learned := true, srcPorts := ps, ports := ps }
      | none => swCount 5 s

/-! ### The learn cache (R121) -/

/-- An unknown SV or GOOSE frame is counted against its record, which it opens if need be (R121). One that finds the cache full is counted there
alone. -/
def learnFrame (k : Nat) (key : BitVec 128) (f : Stored) (s : State) : State :=
  if !s.sw.learnEn then swCount 2 s
  else if s.sw.learn.any fun r => r.key == key then
    (swCount 2 s).modSw fun w => { w with learn := w.learn.map fun r =>
      if r.key = key then { r with ports := setBit r.ports k true, frames := r.frames + 1, octets := r.octets + f.rxLen } else r }
  else if s.sw.learn.length < 64 then
    (swCount 2 s).modSw fun w => { w with
      learn := w.learn ++ [{ id := w.learnNext % 65536, key := key, ports := listMask 8 [k], firstAt := s.now, stampAt := f.stamp, epoch := f.epoch,
                             frames := 1, octets := f.rxLen }],
      learnNext := w.learnNext + 1 }
  else swCount 4 s

/-- The rate of a learned stream in 0.1 Mbit/s, rounded up (R122), and held at what RATE's 16 bits can give (log entry 148). -/
def learnedRate (r : LearnRec) : Nat := min 65535 ((r.evOctets * 80 + 99999) / 100000)

/-- A learned stream is admitted with an entry (R122), judged by the tables as its changes and those committed before leave them: the failing
check, or the index it takes. -/
def admitLearned (e : StreamEntry) (s : State) : Nat ⊕ (Nat × State) :=
  match place true e.key s with
  | none => .inl 1
  | some p =>
    let cs := putChanges { op := .putStream, stream := { e with learned := true } } p
    let t := cs.foldl (fun s c => afterChange c s) (committed s)
    match entryAdmit e t.sw.streams t.sw.bitmaps s with
    | some c => .inl c
    | none => .inr (p.1, learnClose e.key (commitNow cs s))

end Sys2Proof.Machine
end

