-- ==== Sys2Proof/Machine/LifeOps.lean ====
section
/-!
DEFINITION. Machine/LifeOps.lean: the life of an instance. What it has registered in its local store, its reset, removal and
creation (R179, R193 to R198), its locks (R199 to R205), and the pools its shares are drawn from (R178, R191).
-/
namespace Sys2Proof.Machine
open Sys2Proof

/-! ### What lies in the local store -/

/-- The ranges of the local store that an instance's registrations hold, as address and octets: the mailbox pair, the sample and event
rings with their control blocks, the receive ring, the egress queues, and the stamp ring (R193). `stamp` says whether the last
counts. -/
def registered (i : Nat) (stamp : Bool) (s : State) : List (Nat × Nat) :=
  (if s.mbx.instPairs.has i then [((s.mbx.instPairs.get i {}).base, 128 * (s.mbx.instPairs.get i {}).size)] else [])
    ++ (s.sce.rings.filter fun p => p.1 / 5 == i).flatMap (fun p => [(p.2.addr, 16 * p.2.words * p.2.slots), (p.2.ctl, 16)])
    ++ (match (s.inst i).rxRing with | some r => [(r.base, 16 * r.size)] | none => [])
    ++ (s.eg.queues.filter fun p => p.1 / 2 == i).map (fun p => (p.2.addr, 32 * p.2.size))
    ++ (if stamp && s.time.stampRings.has i then
          [((s.time.stampRings.get i {}).addr, 32 * (s.time.stampRings.get i {}).slots), ((s.time.stampRings.get i {}).ctl, 16)] else [])

/-- Two address ranges overlap. -/
def overlap (a n b m : Nat) : Bool := decide (a < b + m) && decide (b < a + n) && decide (0 < n) && decide (0 < m)

/-- A range meets something registered. -/
def meetsRegistered (i a n : Nat) (stamp : Bool) (s : State) : Bool := (registered i stamp s).any fun r => overlap a n r.1 r.2

/-- Every registration in the local store lapses (R193). -/
def lapse (i : Nat) (s : State) : State :=
  let s := s.modMbx fun m => { m with instPairs := m.instPairs.del i }
  let s := s.modSce fun c => { c with rings := c.rings.filter fun p => p.1 / 5 ≠ i }
  let s := s.modEg fun e => { e with queues := e.queues.filter fun p => p.1 / 2 ≠ i }
  let s := s.modTime fun t => { t with stampRings := t.stampRings.del i, owners := t.owners.del i }
  s.setInst i fun d => { d with rxRing := none }

/-! ### Key slots of an instance (R408) -/

/-- Slot n. -/
def State.slot (s : State) (n : Nat) : Slot := s.ksu.slots.get n {}

/-- A slot erased (R409): its value and its whole record, and its saved copies. The use of its owner falls (R192). -/
def eraseSlot (n : Nat) (s : State) : State :=
  let t := s.modKsu fun k => { k with slots := k.slots.del n, saved := k.saved.filter fun c => c.slot ≠ n }
  if (s.slot n).byMgp then t else refreshOver (s.slot n).owner t

/-- Slot n belongs to the instance. -/
def Slot.ownedBy (k : Slot) (i : Nat) : Bool := !k.byMgp && k.owner == i

/-- At a reset volatile slots are erased and the others rebound to the new generation (R408). -/
def rebindSlots (i g : Nat) (s : State) : State :=
  let vs := (s.ksu.slots.filter fun p => p.2.ownedBy i && p.2.volatile).map fun p => p.1
  let s := vs.foldl (fun s n => eraseSlot n s) s
  s.modKsu fun k => { k with slots := k.slots.map fun p => (p.1, if p.2.ownedBy i then { p.2 with ownerGen := g } else p.2) }

/-- At a removal every slot is erased (R408). -/
def eraseOwned (i : Nat) (s : State) : State :=
  ((s.ksu.slots.filter fun p => p.2.ownedBy i).map fun p => p.1).foldl (fun s n => eraseSlot n s) s

/-! ### Reset and removal -/

/-- Trigger requests of an instance that are not yet placed are discarded (R194, R318). -/
def discardTrigs (i : Nat) (s : State) : State :=
  let mine := fun (t : AcqTrig) => t.cause == 2 && t.inst == i
  let n := (s.acq.streams.map fun p => (p.2.trigs.filter mine).length).sum
  let s := s.modAcq fun a => { a with streams := a.streams.map fun p => (p.1, { p.2 with trigs := p.2.trigs.filter fun t => !mine t }) }
  if n = 0 then s else acqCount 12 s n

/-- The instance's comparators stop (R299). -/
def disableCmps (i : Nat) (s : State) : State :=
  s.modTime fun t => { t with cmps := t.cmps.map fun p =>
    (p.1, if p.2.alloc && !p.2.byMgp && p.2.owner == i then { p.2 with en := false } else p.2) }

/-- Comparators 8 to 31 at reset (R306). -/
def freeCmps (i : Nat) (s : State) : State :=
  s.modTime fun t => { t with cmps := t.cmps.map fun p => (p.1, if p.2.alloc && !p.2.byMgp && p.2.owner == i then {} else p.2) }

/-- The mirror of an instance that is reset (R194, R270): nothing further of the old generation is sent, and a full set is due. No set has
been discarded by that. -/
def mirrorReset (i : Nat) (s : State) : State :=
  if s.mlk.mir.has i then
    s.modMlk fun m => { m with mir := m.mir.mod i {} fun x =>
      { x with staged := none, fullNext := true, askFull := true, needFull := true } }
  else s

/-- What Dzix keeps of the harts of an instance starts afresh at READY (R220). -/
def freshHarts (i : Nat) (s : State) : State := s.modSched fun x => { x with harts := x.harts.filter fun p => p.1 / 4 ≠ i }

/-- The first part of R193, up to the wait: RESETTING, the next generation, its cores stopped, its locks broken, its requests and
registrations void (R194, R257, R299). -/
def beginReset (i : Nat) (removal clear : Bool) (h : Option Nat) (s : State) : State :=
  let g0 := (s.inst i).gen
  let s := s.setInst i fun d => { d with
    state := .resetting, gen := nextGen d.gen, removing := removal, clearDram := clear, opHandle := h, runningAt := none,
    resets := if removal then d.resets else satAdd 16 d.resets 1 }
  let s := clearTrips i (breakLocks (fun l => l.heldBy i g0) (stopCores i s))
  emitInst i false (mirrorReset i (discardTrigs i (disableCmps i (lapse i s))))

/-- Local-store granules set to zero. -/
def clearLs (gs : List Nat) (s : State) : State :=
  s.modInsts fun n => { n with lsMem := gs.foldl (fun m g => m.clear (g * lsGran) lsGran) n.lsMem }

/-- DRAM granules set to zero. -/
def clearDram (gs : List Nat) (s : State) : State :=
  s.modInsts fun n => { n with dramMem := gs.foldl (fun m g => m.clear (g * dramGran) dramGran) n.dramMem }

/-- The subscriber positions of every group changed. -/
def mapSubs (f : Subscr → Subscr) (s : State) : State :=
  s.modSce fun c => { c with groups := c.groups.map fun p => (p.1, { p.2 with subs := p.2.subs.map f }) }

/-- The longest transfer timeout of any block in us (R198). -/
def longestTimeout (s : State) : Nat := s.fab.timeoutUs.foldl (fun m p => max m p.2) 100

/-- The floor of the hold-off of instance numbers in ns (R198). -/
def holdFloor (s : State) : Nat :=
  2 * max (max (us (s.sw.clsAge.foldl max 0)) (us (longestTimeout s))) (max (ms s.mlk.epochMs) (ms 10))

/-- The hold-off in force in ns (R197, R198). -/
def instHoldoff (s : State) : Nat := max (ms s.insts.holdoffMs) (holdFloor s)

/-- QUAR_END as the descriptor reads it (R206). -/
def quarEndMs (d : Inst) : Nat := d.quarEnd / 1000000 % 2 ^ 32

/-- The windows of an instance become its shares (R192, R193): what lies above is released, what it had given back below is mapped again. -/
def mapShares (i : Nat) (s : State) : State :=
  let d := s.inst i
  let ls := lsPick (d.share.ls - d.lsMap.length) s
  let dram := dramPick (d.share.dram - d.dramMap.length) s
  let lost := d.lsMap.drop d.share.ls
  let lostD := d.dramMap.drop d.share.dram
  let s := s.setInst i fun d => { d with lsMap := d.lsMap.take d.share.ls ++ ls, dramMap := d.dramMap.take d.share.dram ++ dram }
  dramOwn dram (i + 1) (lsOwn ls (i + 1) (dramGive lostD (lsGive lost s)))

/-- A shared engine still holds work of an earlier generation of the instance (R193, R194): an operation that has not completed or timed out, a
frame on its way to a ring, a large send. -/
def engineWork (i : Nat) (s : State) : Bool :=
  let old := fun (g : Nat) => g != (s.inst i).gen
  (s.fab.ops.any fun o => !o.released && match o.owner with | .inst j g => j == i && old g | _ => false)
    || (s.sw.instQ.any fun v => v.inst == i && old v.instGen)
    || (List.range 8).any fun k => (s.port k).sends.any fun x => match x.inst with | some (j, g) => j == i && old g | none => false

/-- The end of a reset (R193): the local store cleared and the image loaded, only the shares mapped, DRAM cleared where asked for,
subscriber entries rewritten with VALID 0, key slots rebound (R408), READY. A removal held meanwhile begins (R196). -/
def resetEnds (i : Nat) (s : State) : State :=
  let d := s.inst i
  let s := mapShares i (lapse i (clearLs d.lsMap s))
  let s := if d.clearDram then clearDram (s.inst i).dramMap s else s
  let s := lsWrite i 0 d.image s
  let s := mapSubs (fun x => if x.names i then { x with gen := d.gen, valid := false, wait := true } else x) s
  let s := freshHarts i (rebindSlots i d.gen s)
  let s := s.setInst i fun d => { d with state := .ready, cause := 0, clearDram := false, opHandle := none, removeHeld := none, exhausted := false }
  let s := refreshOver i (emitInst i false s)
  let s := opDone? d.opHandle .ok [d.gen] s
  match d.removeHeld with
  | some h => beginReset i true false h s
  | none => s

/-- The changes that void an instance's raw subscriptions in the tables as the committed changes leave them: INST bits fall, the static entries of its address go, any other entry whose TARGET it is
loses it. -/
def voidChanges (i mac : Nat) (s : State) : List StbChange :=
  let s := committed s
  ((s.sw.bitmaps.filter fun p => p.2.inst.getLsbD i).map fun p =>
      { idx := p.1, op := .putBitmap, bitmap := { p.2 with inst := setBit p.2.inst i false } })
    ++ (s.sw.fwd.filter fun p => p.2.state == .active && p.2.targetType == 3 && p.2.target == i).map fun p =>
      if p.2.static && p.2.key.toNat / 2 ^ 80 == mac then { idx := p.1, op := .remove }
      else { idx := p.1, op := .putFwd, fwd := { p.2 with targetType := 0, target := 0 } }

/-- Every subscription of an instance is void (R193): subscriber positions, and by a commit (R123, R124) INST bits and entries whose TARGET it is. -/
def voidSubs (i mac : Nat) (s : State) : State :=
  commitNow (voidChanges i mac s) (mapSubs (fun x => if x.names i then {} else x) s)

/-- A lock as the removal of its owner leaves it (R193, R205): unassigned. One that the MGP holds can be unassigned only after its release: it
stays the MGP's until then (R192; log entry 149). -/
def Lock.unassigned (l : Lock) : Lock :=
  if l.held && l.byMgp then { l with en := false, owner := 0, index := 0 } else {}

/-- Locks of an instance are unassigned (R193, R205). -/
def unassignLocks (i : Nat) (s : State) : State :=
  s.modInsts fun n => { n with locks := n.locks.map fun p => (p.1, if p.2.en && p.2.owner == i then p.2.unassigned else p.2) }

/-- The end of a removal (R193): every share released, every subscription void, its keys erased (R408), its comparators freed (R299),
QUARANTINE. -/
def removalEnds (i : Nat) (s : State) : State :=
  let d := s.inst i
  let s := dramGive d.dramMap (lsGive d.lsMap (lapse i s))
  let s := unassignLocks i (freeCmps i (eraseOwned i (voidSubs i d.mac.toNat s)))
  let s := freshHarts i (s.modMlk fun m => { m with mir := m.mir.del i })
  let s := s.setInst i fun d => { d with
    state := .quarantine, cause := 0, share := {}, lsMap := [], dramMap := [], useMir := 0, overBits := 0, quarEnd := s.now + instHoldoff s,
    opHandle := none, removing := false, image := [] }
  configChanged (opDone? d.opHandle .ok [quarEndMs (s.inst i)] (emitInst i false s))

/-! ### Creation -/

/-- VLAN IDs under which an instance's address gets a static entry: those its allowance list permits, or 1 (log entry 14). -/
def macVids (allow : List Allow) : List Nat :=
  let vs := ((allow.filter fun a => a.valid).map fun a => a.vid).eraseDups
  if vs = [] then [1] else vs

/-- A static forwarding entry that delivers an address to a target is put into a free slot (R118). -/
def putStatic (mac vid type target : Nat) (ports : BitVec 8) (s : State) : State :=
  match place false (fwdKey mac vid) s with
  | none => s
  | some p => commitNow (putChanges { op := .putFwd, fwd := { key := fwdKey mac vid, static := true, targetType := type, target := target, ports := ports } } p) s

/-- The steps of a creation after its acceptance (R179): granules mapped, image loaded, descriptor written, generation advanced, the static
entry of SRC_MAC, READY. -/
def creationEnds (c : Creation) (s : State) : State :=
  let i := c.num
  let s := s.setInst i fun d => {
    gen := nextGen d.gen, mac := c.mac, share := c.share, lsMap := c.ls, dramMap := c.dram, autoReset := c.auto, allow := c.allow,
    image := c.image, useEgress := d.useEgress, state := .ready }
  let s := s.modInsts fun n => { n with creating := n.creating.filter fun x => x.num ≠ i }
  let s := freshHarts i (lsWrite i 0 c.image s)
  let s := (macVids c.allow).foldl (fun s v => putStatic c.mac.toNat v 3 i 0 s) s
  configChanged (opDone? c.handle .ok [i, (s.inst i).gen] (refreshOver i (emitInst i false s)))

/-! ### Locks -/

/-- The lock at index j of an instance's lock page (R199). -/
def lockAt (i j : Nat) (s : State) : Option Nat := (s.insts.locks.find? fun p => p.2.en && p.2.owner == i && p.2.index == j).map fun p => p.1

/-- Lock n. -/
def State.lock (s : State) (n : Nat) : Lock := s.insts.locks.get n {}

/-- Lock n replaced. -/
def State.setLock (s : State) (n : Nat) (l : Lock) : State := s.modInsts fun x => { x with locks := x.locks.set n l }

/-- The word that a try-acquire returns (R201): a status and the holder of `l`. -/
def lockWord (status : Nat) (l : Lock) : Nat := status * 2 ^ 30 + b2n l.byMgp * 2 ^ 29 + l.holder * 2 ^ 20 + l.holderGen * 16

/-- DENIED, with no holder to show (R201). -/
def denied : Nat := 3 * 2 ^ 30

/-- Try-acquire of lock n by a reader that may reach it (R201, R204): the word, and the lock afterwards. -/
def Lock.tryBy (l : Lock) (byMgp : Bool) (i g core : Nat) : Nat × Lock :=
  let taken : Lock := { l with held := true, broken := false, byMgp := byMgp, holder := i, holderGen := g, hart := core }
  if l.held then (lockWord 1 l, l) else if l.broken then (lockWord 2 l, taken) else (lockWord 0 taken, taken)

/-- A try-acquire by an instance at index j of its page, or by the MGP of lock j (R199 to R202): the word and the state. -/
def lockTry (who : Master) (core j : Nat) (s : State) : Nat × State :=
  match who with
  | .inst i g =>
    if s.genCurrent i g then
      match lockAt i j s with
      | none => (denied, s)
      | some n => let r := (s.lock n).tryBy false i g core; (r.1, s.setLock n r.2)
    else (denied, lateAt .lck 0 i s)
  | .mgp =>
    if j < 256 ∧ (s.lock j).mgpOk then let r := (s.lock j).tryBy true 0 0 64; (r.1, s.setLock j r.2) else (denied, s)
  | .none => (denied, s)

/-- A release by anyone but the holder changes nothing: counted and recorded (R202). -/
def badRelease (who : Master) (n : Nat) (s : State) : State :=
  note .lck 0 0x3C1 0 who (leBytes 4 n) (s.modInsts fun x => { x with badRelease := satAdd 32 x.badRelease 1 })

/-- A release (R200, R202): bit 0 of the word written. -/
def lockRelease (who : Master) (j : Nat) (value : BitVec 32) (s : State) : State :=
  match who with
  | .inst i g =>
    if !s.genCurrent i g then lateAt .lck 0 i s
    else if !value.getLsbD 0 then s
    else match lockAt i j s with
      | none => s
      | some n => let l := s.lock n; if l.heldBy i g then s.setLock n { l with held := false } else badRelease who n s
  | .mgp =>
    if !value.getLsbD 0 ∨ 256 ≤ j then s
    else let l := s.lock j; if l.held && l.byMgp then s.setLock j { l with held := false } else badRelease who j s
  | .none => s

/-- A write of LCK_ASSIGNn (R205): none where it leaves the register unchanged. -/
def lockAssigned (n : Nat) (en mgpOk : Bool) (owner index : Nat) (s : State) : Option Lock :=
  let l := s.lock n
  if l.held then none
  else if en && s.insts.locks.any fun p => p.1 ≠ n && p.2.en && p.2.owner == owner && p.2.index == index then none
  else
    let l1 := { l with en := en, mgpOk := mgpOk, owner := owner, index := index }
    some (if owner ≠ l.owner ∨ (l.en && !en) = true then { l1 with broken := false, byMgp := false, holder := 0, holderGen := 0 } else l1)

/-- That write with its effect on the owners' use (R192). -/
def writeAssign (n : Nat) (en mgpOk : Bool) (owner index : Nat) (s : State) : State :=
  match lockAssigned n en mgpOk owner index s with
  | none => s
  | some l => let o := (s.lock n).owner; refreshOver owner (refreshOver o (s.setLock n l))

/-! ### Pools (R178) -/

/-- Instances whose shares are drawn from the pools: every one that is not FREE or QUARANTINE. -/
def State.live (s : State) : List (Nat × Inst) := s.insts.desc.filter fun p => p.2.state != .free && p.2.state != .quarantine

/-- The shares in the order of SET_SHARES and of R178. -/
def Shares.list (x : Shares) : List Nat := [x.slots, x.ls, x.dram, x.ctx, x.subs, x.egress, x.rx, x.keys, x.mir, x.locks]

/-- What an instance uses of each share, in that order; nothing is held of the receive rate. -/
def State.useList (s : State) (i : Nat) : List Nat :=
  let d := s.inst i
  [s.useSlots i, d.lsMap.length, d.dramMap.length, s.useCtx i, s.useSubs i, d.useEgress, 0, s.useKeys i, d.useMir, s.useLocks i]

/-- The least and the greatest value of each share (R178). -/
def shareRange : List (Nat × Nat) :=
  [(0, 64), (4, 512), (0, 1024), (0, 256), (0, 64), (1, 1024), (0, 4096), (0, 16), (0, 64), (0, 16)]

/-- Every share lies in its range. -/
def Shares.inRange (x : Shares) : Bool := (x.list.zip shareRange).all fun p => decide (p.2.1 ≤ p.1) && decide (p.1 ≤ p.2.2)

/-- Key slots owned by the MGP (R178, R410): the eight reserved ones, and those it holds besides. -/
def mgpKeys (s : State) : Nat := 8 + (s.ksu.slots.filter fun p => decide (8 ≤ p.1) && p.2.byMgp && p.2.valid).length

/-- The size of pool k (R178); granules are counted by themselves. -/
def poolSize (k : Nat) (s : State) : Nat := [1024, 0, 0, 4096, 8192, 16384, 0, 1024 - mgpKeys s, 32768, 256].getD k 0

/-- The free count of pool k (R19, R178, R192): granules not held; for the rest, the pool less what shares and uses above them take. -/
def poolFree (k : Nat) (s : State) : Nat :=
  if k = 1 then s.lsFree else if k = 2 then s.dramFree
  else poolSize k s - (s.live.map fun p => max (p.2.share.list.getD k 0) ((s.useList p.1).getD k 0)).sum
    - (s.insts.creating.map fun c => c.share.list.getD k 0).sum

/-- The first pool that cannot give what is asked of it, with its free count (R19). The receive rate has no pool. -/
def poolShort (want : List Nat) (s : State) : Option (Nat × Nat) :=
  (List.range 10).findSome? fun k => if k ≠ 6 ∧ poolFree k s < want.getD k 0 then some (k, poolFree k s) else none

end Sys2Proof.Machine
end

