-- ==== Sys2Proof/Machine/CtrlOps.lean ====
section
/-!
DEFINITION. Machine/CtrlOps.lean: the instance control page (R455): the doorbells of the egress queues (R236) and of the mailbox pair
(R442, R454), and the readouts; and service-call results (R457).
-/
namespace Sys2Proof.Machine
open Sys2Proof

/-- An egress doorbell (R236): a tail at most the ring size ahead of the head is accepted; any other, and one to a queue that is not
registered, is ignored and recorded. A dead generation's is late (R177, R194). -/
def egressDoorbell (i g q tail : Nat) (s : State) : State :=
  if !s.genCurrent i g then lateAt .egf 0 i s
  else match s.egq i q with
    | some e =>
      if modSub 16 tail e.head ≤ e.size then s.modEg fun x => { x with queues := x.queues.set (2 * i + q) { e with tail := tail % 65536 } }
      else note .mgp 0 0x01F 0 (.inst i g) (leBytes 4 q ++ leBytes 4 tail) s
    | none => note .mgp 0 0x01F 0 (.inst i g) (leBytes 4 q ++ leBytes 4 tail) s

/-- A tail is at most the ring size ahead of both the response and the request head (R442, R454). -/
def Pair.tailOk (p : Pair) (tail : Nat) : Bool := decide (modSub 16 tail p.rspHead ≤ p.size) && decide (modSub 16 tail p.reqHead ≤ p.size)

/-- A write of MBX_REQ_TAIL (R454): refused writes, and those to a pair that is not registered, are recorded. -/
def instTail (i g tail : Nat) (s : State) : State :=
  if !s.genCurrent i g then lateAt .mgp 0 i s
  else if s.mbx.instPairs.has i && (s.mbx.instPairs.get i {}).tailOk tail then
    s.modMbx fun m => { m with instPairs := m.instPairs.mod i {} fun p => { p with reqTail := tail % 65536 } }
  else note .mgp 0 0x01E 0 (.inst i g) (leBytes 4 tail) s

/-- TRIP outputs assigned to an instance (R257). -/
def tripMine (i : Nat) (s : State) : BitVec 16 := listMask 16 ((List.range 16).filter fun j => s.cgu.tripAssign.get j 0 == i + 1)

/-- The TRIP outputs that are driven (R253, R257). -/
def State.tripDriven (s : State) : BitVec 16 := if s.cgu.win && s.cgu.tripOn then s.cgu.tripReq else 0

/-- A read of the instance control page (R455). -/
def ctrlRead (i off : Nat) (s : State) : Nat :=
  let d := s.inst i
  let p := s.mbx.instPairs.get i {}
  let tail := fun q => match s.egq i q with | some e => e.tail | none => 0
  let o := s.time.owners.get i {}
  if off = 0x000 then tail 0
  else if off = 0x004 then tail 1
  else if off = 0x010 then p.reqTail
  else if off = 0x014 then p.reqHead
  else if off = 0x018 then p.rspTail
  else if off = 0x01C then p.rspHead
  else if off = 0x020 then i * 2 ^ 23 + d.gen
  else if off = 0x024 then b2n s.cgu.win * 128 + s.cgu.role.code * 16 + s.cgu.unitId
  else if off = 0x028 then s.cgu.ownClaim.toNat
  else if off = 0x030 then (s.cgu.tripReq &&& tripMine i s).toNat
  else if off = 0x034 then s.tripDriven.toNat
  else if off = 0x040 then o.lost
  else if off = 0x044 then o.unsent
  else if off = 0x048 then d.overBits.toNat
  else if off = 0x04C then d.share.egress * 65536 + d.useEgress
  else 0

/-- A write of the instance control page (R455): refused while the instance is RESETTING; late from a dead generation. -/
def ctrlWrite (i g off : Nat) (v : BitVec 32) (s : State) : State :=
  let w := bits v 15 0
  if !s.genCurrent i g then lateFor i s
  else if (s.inst i).state = .resetting then s
  else if off = 0x000 then egressDoorbell i g 0 w s
  else if off = 0x004 then egressDoorbell i g 1 w s
  else if off = 0x010 then instTail i g w s
  else if off = 0x01C then
    (if s.mbx.instPairs.has i then s.modMbx fun m => { m with instPairs := m.instPairs.mod i {} fun p => { p with rspHead := w } } else s)
  else if off = 0x030 then
    let m := tripMine i s
    s.modCgu fun c => { c with tripReq := (c.tripReq &&& ~~~ m) ||| (BitVec.ofNat 16 w &&& m) }
  else s

/-- A service call or an access answers the core (R457). -/
def answer (i : Nat) (vals : List Nat) (s : State) : State := s.setInst i fun d => { d with ret := vals }

end Sys2Proof.Machine
end

