-- ==== Sys2Proof/Machine/PartOps.lean ====
section
/-!
DEFINITION. Machine/PartOps.lean: partition frames. The grid of a cluster's comparator and the phase error (R211, R212), the switch of
the banks (R217), a slot's start and end (R220 to R226), the supply loop (R227 to R229), the season change of a cluster (R356), and
what else happens at a frame start (R218): parts of a bank switch (R482, R484), of an image replacement (R485), and of the mirror
(R268, R270).
-/
namespace Sys2Proof.Machine
open Sys2Proof

/-! ### Time in a frame -/

/-- The period of a PERIOD code in ns (R231). -/
def periodNs (c : Nat) : Nat := if c = 0 then 125000 else if c = 1 then 250000 else if c = 2 then 500000 else 1000000

/-- Quarter microseconds in ns (R215). -/
def quarters (n : Nat) : Nat := n * 250

/-- The distance of a TB time from the nearest firing of a grid with a phase and a period (R212), in (-P/2, P/2]. -/
def gridError (tb phase p : Nat) : Int :=
  let r := (tb + p - phase % p) % p
  if p < 2 * r then (r : Int) - p else r

/-- The first instant of a grid at or after a TB time (R211). -/
def gridNext (tb phase p : Nat) : Nat := tb + (p - (tb + p - phase % p) % p) % p

/-- The phase in force of a PSC in ns. -/
def Psc.phaseNs (p : Psc) : Nat := quarters p.phaseAct

/-- The period in force of a PSC in ns. -/
def Psc.per (p : Psc) : Nat := periodNs p.periodAct

/-- Age at which the frame in progress ends (R212): P less the phase error of its start, limited to P/100. -/
def Psc.frameEnd (p : Psc) : Nat :=
  let l : Int := p.per / 100
  ((p.frameAt : Int) + p.per - max (-l) (min l p.phaseErr)).toNat

/-- The frame selects a slot entry (R215). -/
def SlotEntry.inFrame (e : SlotEntry) (frame : Nat) : Bool := frame % 2 ^ e.div == e.divPhase

/-- End of an entry's footprint after the frame start in ns (R216). -/
def SlotEntry.footEnd (e : SlotEntry) : Nat := quarters ((if e.trig then e.latest else e.offset) + e.budget) + 3000

/-- The cluster of an instance (R216 check 4): the one whose committed table holds a slot of it. -/
def instCluster (i : Nat) (s : State) : Option Nat :=
  (List.range 8).find? fun k => (s.psc k).active.any fun e => e.2.valid && e.2.inst == i

/-- A PSC counter raised (R233). -/
def pscCount (k i : Nat) (s : State) : State := s.setPsc k fun p => { p with live := bump p.live i }

/-- The status word of an entry changed (R232). -/
def slotStat (k e : Nat) (f : SlotStat → SlotStat) (s : State) : State := s.setPsc k fun p => { p with status := p.status.mod e {} f }

/-- The comparator of a cluster's frames follows the phase and period in force (R211, R297). -/
def frameCmp (k : Nat) (s : State) : State :=
  let p := s.psc k
  s.modTime fun t => { t with cmps := t.cmps.mod k {} fun c => { c with
    en := true, periodic := true, dest := 1, byMgp := true, alloc := true, time := gridNext t.tbNs p.phaseNs p.per, period := p.per } }

/-! ### Switching banks -/

/-- The MGP copies the active bank over the new shadow, once its firmware runs (R215, R217; log entry 16). -/
def bankCopied (k : Nat) (s : State) : State :=
  if (s.psc k).copyBusy ∧ s.persist.fwUp then s.setPsc k fun p => { p.withShadow p.active with copyBusy := false } else s

/-- A pending commit takes effect at this frame start (R214, R217): one that changes PERIOD waits for an instant of both grids. -/
def Psc.commitNow (p : Psc) (tb : Nat) (stopped : Bool) : Bool :=
  p.commitPend && (p.commitPer == p.periodAct || stopped ||
    (let f : Int := tb - gridError tb p.phaseNs p.per
     (f - quarters p.commitPhase) % (max p.per (periodNs p.commitPer)) == 0))

/-- Entries of two banks that differ. -/
def changedEntries (a b : Tbl SlotEntry) : List Nat := (List.range 128).filter fun e => a.get e {} != b.get e {}

/-- The shadow bank becomes active (R217, R232): counted, the words of changed entries cleared, and the operation that named several clusters
ends with its last switch. -/
def switchBank (k : Nat) (s : State) : State :=
  let p := s.psc k
  let ch := changedEntries p.active p.shadow
  let s := s.setPsc k fun p => { p with
    bank := 1 - p.bank, periodAct := p.commitPer, phaseAct := p.commitPhase, commitPend := false, commitOp := none, copyBusy := true,
    status := p.status.filter fun e => !ch.contains e.1 }
  let s := bankCopied k (pscCount k 6 (frameCmp k s))
  let s := refreshAllOver s
  match p.commitOp with
  | some h => if (List.range 8).any fun j => (s.psc j).commitOp == some h then s else opDone h .ok [] s
  | none => s

/-! ### The supply loop -/

/-- A PMC counter raised (R234). -/
def pmcCount (i : Nat) (s : State) : State := s.modSched fun x => { x with pmcLive := bump x.pmcLive i }

/-- The loop of an island. -/
def State.loop (s : State) (k : Nat) : Loop := s.sched.loops.get k {}

/-- The rate at which the PMC slews a supply, in quarters of a millivolt a microsecond: at most 5 mV/us (R32). -/
def slewRate : Nat := 1 + Config.slewRate % 20

/-- A supply that has slewed from one voltage towards another since an age (R32), in quarters of a millivolt. -/
def slewed (v target since now : Nat) : Nat :=
  let d := (now - since) * slewRate / 1000
  if v ≤ target then min target (v + d) else max target (v - d)

/-- The MAIN islands have their supply (R229, R355). -/
def State.railsOn (s : State) : Bool := s.power.aonGood && s.power.mainGood && !s.power.disconnected && s.season.season != .winter

/-- The supply of VC k in quarters of a millivolt (R32, R229): off with the MAIN islands, ramped from 0 when they are switched on, and slewed at
every change of V_TARGET. -/
def State.railLevel (s : State) (k : Nat) : Nat :=
  let l := s.loop k
  if !s.railsOn then 0
  else if l.vAt ≤ s.power.rampAt then slewed 0 l.vTarget s.power.rampAt s.now
  else slewed l.vFrom l.vTarget l.vAt s.now

/-- The loop of an island changed; a changed V_TARGET is slewed to from where the supply is (R32). -/
def State.setLoop (s : State) (k : Nat) (f : Loop → Loop) : State :=
  let l := s.loop k
  let n := f l
  let n := if n.vTarget = l.vTarget then n else { n with vFrom := s.railLevel k, vAt := s.now }
  s.modSched fun x => { x with loops := x.loops.set k n }

/-- The supply of VF in mV (R32, R228). -/
def State.vfLevel (s : State) : Nat :=
  let x := s.sched
  if !s.railsOn then 0
  else (if x.vfAt ≤ s.power.rampAt then slewed 0 (4 * x.vfTarget) s.power.rampAt s.now
        else slewed (4 * x.vfFrom) (4 * x.vfTarget) x.vfAt s.now) / 4

/-- The voltage commanded on VF. -/
def setVf (n : Nat) (s : State) : State :=
  if s.sched.vfTarget = n then s else s.modSched fun x => { x with vfTarget := n, vfFrom := s.vfLevel, vfAt := s.now }

/-- The voltage of AUTUMN with TRACK 0 (R229): V_FIX, and not below V_FLOOR (R235). -/
def Loop.fixed (l : Loop) : Nat := 4 * max l.vFix l.vFloor

/-- The evaluation of R227 on the least slack reported and the overrun flag: the loop afterwards, and the counter it raises: 0 a raise, 1 a
lowering, 2 an emergency. Voltages are in quarters of a millivolt. -/
def Loop.eval (l : Loop) (sm : Option Nat) (ov : Bool) : Loop × Option Nat :=
  let low := match sm with | some x => decide (x < l.guard) | none => false
  let clamp := fun (v : Nat) => max (4 * l.vFloor) (min v 3600)
  let l1 := { l with sMin := sm.getD 1023, emerg := false }
  let idle := { l1 with hold := l.hold - 1 }
  if ov || low then ({ l1 with vTarget := clamp 3600, hold := 8, emerg := true }, some 2)
  else match sm with
    | some x =>
      if x < l.setpoint then ({ l1 with vTarget := clamp (l.vTarget + 40 * ((l.setpoint - x + 9) / 10)), hold := 8 }, some 0)
      else if l.setpoint + l.deadband < x ∧ l.hold = 0 then ({ l1 with vTarget := clamp (l.vTarget - 10) }, some 1)
      else ({ idle with vTarget := clamp l.vTarget }, none)
    | none => ({ idle with vTarget := clamp l.vTarget }, none)

/-- A cluster is in AUTUMN: the season is, or the cluster has already taken the change to it (R356). -/
def State.autumn (s : State) (k : Nat) : Bool :=
  let sw := s.season.switched.contains k
  match s.season.changing with
  | some .autumn => sw
  | some .summer => s.season.season == .autumn && !sw
  | _ => s.season.season == .autumn

/-- A cluster's supply at its entry into a season (R229). -/
def seasonVolt (k : Nat) (x : SeasonKind) (s : State) : State :=
  s.setLoop k fun l =>
    if x = .autumn then { l with vTarget := if l.track then 3600 else l.fixed, hold := 0 } else { l with vTarget := 3600 }

/-- SUPPLY_LOOP (R227, R229): on the reports of the frame just ended. -/
def supplyLoop (k : Nat) (s : State) : State :=
  if s.autumn k then
    let l := s.loop k
    if l.track then
      let p := s.psc k
      let r := l.eval p.slackMin p.slackOver
      let s := s.setLoop k fun _ => r.1
      match r.2 with | some c => pmcCount (3 * k + c) s | none => s
    else s.setLoop k fun l => { l with vTarget := l.fixed }
  else s

/-- A loop's registers changed: in AUTUMN with TRACK 0 the supply is held at V_FIX at once (R229). -/
def writeLoop (k : Nat) (f : Loop → Loop) (s : State) : State :=
  let a := s.autumn k
  s.setLoop k fun l => let n := f l; if a && !n.track then { n with vTarget := n.fixed } else n

/-! ### Seasons -/

/-- A season is reached: told to the host (R451); VF is commanded (R229); the head's conditions are looked at again (R102). -/
def enterSeason (x : SeasonKind) (s : State) : State :=
  let old := s.season.season
  let s := s.modSeason fun z => { z with season := x, changing := none, switched := [] }
  let s := setVf (if x = .autumn then s.sched.vVf else 900) s
  coilCheck (vector 19 (emit 0x0BF0 none 0 [old.code, x.code, s.season.lastWake] s))

/-- A change between SUMMER and AUTUMN is complete when every running cluster has taken it (R356). -/
def seasonSettles (s : State) : State :=
  match s.season.changing with
  | some x =>
    if (x == .summer || x == .autumn) && (List.range 8).all fun k => s.season.switched.contains k || !(s.psc k).running then
      let s := (List.range 8).foldl (fun s k => if s.season.switched.contains k then s else seasonVolt k x s) s
      let h := s.season.changeOp
      opDone? h .ok [] (enterSeason x (s.modSeason fun z => { z with changeOp := none }))
    else s
  | none => s

/-- SEASON_SWITCH (R356): a cluster takes a pending change at its frame start. -/
def seasonSwitch (k : Nat) (s : State) : State :=
  match s.season.changing with
  | some x =>
    if (x == .summer || x == .autumn) && !s.season.switched.contains k then
      seasonSettles (seasonVolt k x (s.modSeason fun z => { z with switched := z.switched ++ [k] }))
    else s
  | none => s

/-! ### Slots -/

/-- The time from a slot's scheduled start to its first instruction, at most 1.0 us (R220): open. -/
def entryDelay (s : State) : Nat := s.free1 % 1001

/-- EN written (R213, R231): frames are counted anew, from 0, once it becomes 1. -/
def Psc.enable (p : Psc) (v : Bool) : Psc :=
  if v && !p.en then { p with en := true, fresh := true, frameNo := 0 } else { p with en := v }

/-- A slot starts now on its core (R220): the footprint is taken, the entry served; a2 is its scheduled or firing time. The registers that are
not named start at 0, and the floating-point and vector units Initial. -/
def beginSlot (k e : Nat) (x : SlotEntry) (a2 : Nat) (s : State) : State :=
  let q := e / 16
  let p := s.psc k
  let d := s.inst x.inst
  let h := s.hart x.inst x.hart
  let a3 : BitVec 4 := listMask 4 (([(h.prevOver, 0), (x.trig, 1), (!h.ran, 2), (p.aligned, 3)].filter fun b => b.1).map fun b => b.2)
  let r : Running := { entry := e, inst := x.inst, gen := d.gen, hart := x.hart, a1 := p.frameNo, a2 := a2, a3 := a3, budget := x.budget,
                       vmid := x.inst, root := Config.gstageRoot x.inst, pc := Config.slotEntry x.inst, started := s.now + entryDelay s,
                       slackExcl := x.slackExcl }
  let s := s.took.setPsc k fun p => { p with cores := p.cores.set q r }
  let s := slotStat k e (fun w => { w with runs := satAdd 32 w.runs 1 }) s
  let s := s.modSched fun y => { y with harts := y.harts.mod (4 * x.inst + x.hart) {} fun h => { h with ran := true } }
  if d.state = .ready then emitInst x.inst false (s.setInst x.inst fun d => { d with state := .running, runningAt := some s.now }) else s

/-- The core of an entry is within another slot's footprint (R216, R219): one that has begun, or the window of a triggered one that opened
earlier. -/
def inFootprint (k e : Nat) (x : SlotEntry) (s : State) : Bool :=
  let p := s.psc k
  decide (s.now < p.fpEnd.get (e / 16) 0) || p.active.any fun y =>
    y.1 != e && y.1 / 16 == e / 16 && y.2.valid && y.2.trig && y.2.inFrame p.frameNo
      && (decide (y.2.offset < x.offset) || (y.2.offset == x.offset && decide (y.1 < e)))
      && decide (p.frameAt + quarters y.2.offset ≤ s.now) && decide (s.now < p.frameAt + y.2.footEnd)

/-- A slot falls due (R219, R220, R223): a core still in another footprint makes it collide; an instance that is not READY or RUNNING
leaves it unused; otherwise it starts. -/
def slotDue (k e : Nat) (x : SlotEntry) (a2 : Nat) (s : State) : State :=
  let q := e / 16
  let unused := slotStat k e fun w => { w with unused := satAdd 16 w.unused 1 }
  if inFootprint k e x s then
    raise { block := .psc, unit := k, kind := 9, access := 7, owner := .inst x.inst (s.inst x.inst).gen, addr := e } (unused (pscCount k 5 s))
  else
    let s := s.setPsc k fun p => { p with fpEnd := p.fpEnd.set q (p.frameAt + x.footEnd) }
    let st := (s.inst x.inst).state
    if st = .ready ∨ st = .running then beginSlot k e x a2 s else unused (pscCount k 3 s)

/-- The entry falls due in this frame and has not been served yet. -/
def Psc.open_ (p : Psc) (e : Nat) (trig : Bool) : Bool :=
  let x := p.active.get e {}
  p.running && x.valid && x.trig == trig && x.inFrame p.frameNo && !p.served.contains e && decide (e < 128)

/-- An entry is served for this frame. -/
def served (k e : Nat) (s : State) : State := s.setPsc k fun p => { p with served := p.served ++ [e] }

/-- A comparator's firing starts the triggered slots whose window holds it (R224). `t` is the firing time. -/
def triggerSlots (c t : Nat) (s : State) : State :=
  (List.range 8).foldl (fun s k =>
    ((s.psc k).active.filter fun y => (s.psc k).open_ y.1 true && y.2.trigSel == c).foldl (fun s y =>
      let p := s.psc k
      if p.frameAt + quarters y.2.offset ≤ s.now ∧ s.now < p.frameAt + quarters y.2.latest then slotDue k y.1 y.2 t (served k y.1 s) else s) s) s

/-- Slack of a used time in 0.1 % (R221). -/
def slackOf (b u : Nat) : Nat := if b = 0 then 0 else 1000 * (b - u) / b

/-- The slack of a slot is reported (R226). -/
def reportSlack (k sl : Nat) (ov excl : Bool) (s : State) : State :=
  if excl then s
  else s.setPsc k fun p => { p with
    slackMin := some (match p.slackMin with | some m => min m sl | none => sl), slackOver := p.slackOver || ov }

/-- A slot has ended on a core: the core idles, its locks break (R203), its word takes the used time (R232). -/
def slotEnds (k q : Nat) (r : Running) (used sl : Nat) (s : State) : State :=
  let s := s.setPsc k fun p => { p with cores := p.cores.del q }
  let s := slotStat k r.entry (fun w => { w with
    lastUsed := used / 10, maxUsed := max w.maxUsed (used / 10), minSlack := min w.minSlack sl }) s
  slotLocks r.inst r.gen (8 * k + q) s

/-- What Dzix keeps of a hart changed. -/
def setHart (i h : Nat) (f : HartStat → HartStat) (s : State) : State :=
  s.modSched fun y => { y with harts := y.harts.mod (4 * i + h) {} f }

/-- The budget of a slot is over (R222): a K-class fault contained to the instance; the eighth overrun of a hart in a row is told to the
host. -/
def overrun (k q : Nat) (r : Running) (s : State) : State :=
  let s := reportSlack k 0 true r.slackExcl (slotEnds k q r (quarters r.budget) 0 s)
  let s := slotStat k r.entry (fun w => { w with overruns := satAdd 16 w.overruns 1 }) (pscCount k 2 s)
  let s := raise { block := .psc, unit := k, kind := 8, access := 7, owner := .inst r.inst r.gen, addr := r.entry } s
  let h := s.hart r.inst r.hart
  let s := setHart r.inst r.hart (fun h => { h with prevOver := true, series := h.series + 1 }) s
  if 8 ≤ h.series + 1 ∧ !h.raised ∧ s.persist.fwUp then
    emit 0x02F2 (some r.inst) r.gen [k, r.hart, r.entry] (setHart r.inst r.hart (fun h => { h with raised := true }) s)
  else s

/-- A slot ends by its yield (R221). -/
def yieldNow (k q : Nat) (r : Running) (s : State) : State :=
  let used := s.now - r.started
  let sl := slackOf (quarters r.budget) used
  let s := reportSlack k sl false r.slackExcl (slotEnds k q r used sl s)
  setHart r.inst r.hart (fun h => { h with prevOver := false, series := 0, raised := false }) s

/-! ### Bank switch and image replacement at a frame start -/

/-- ISLAND_IMAGE_CHANGE (R484): the island restarts its cores with the image of the bank now running. BT0 to BT3 hold, elements start from rest, the heartbeat has a
fresh 20 ms, pending pictures are abandoned. -/
def islandImage (s : State) : State :=
  let s := s.modOcu fun o => { o with pictures := [] }
  s.modBki fun b => { b with restarting := true, running := false, elems := [], spans := [], hbAt := s.now, image := s.persist.bkiImg.getD (b2n s.mbx.fwBank) {} }

/-- The last cluster has its new HS-mode part (R482): the switch's operation ends, and the island changes image where the bank holds another
(R484). Clusters whose frames do not run have no frame start to wait for. -/
def switchSettles (s : State) : State :=
  match s.persist.switchOp with
  | some h =>
    if s.persist.handoverAt.isSome && (List.range 8).all fun k => s.persist.hsReplaced.contains k || !(s.psc k).running then
      let s := s.modPersist fun p => { p with switchOp := none, hsReplaced := [] }
      let s := opDone h .ok [] (s.modMbx fun m => { m with bankSwitch := false })
      if s.persist.bkiImg.getD (b2n s.mbx.fwBank) {} ≠ s.bki.image then islandImage s else s
    else s
  | none => s

/-- DZIX_HS_REPLACE (R482): from 12 ms after the handover on. -/
def hsReplace (k : Nat) (s : State) : State :=
  match s.persist.switchOp, s.persist.handoverAt with
  | some _, some h =>
    if h + ms 12 ≤ s.now ∧ s.persist.fwUp ∧ !s.persist.hsReplaced.contains k then
      told s (switchSettles (s.modPersist fun p => { p with hsReplaced := p.hsReplaced ++ [k] }))
    else s
  | _, _ => s

/-- IMAGE_HALT (R485): an instance of the cluster whose image is being replaced. -/
def imageHalt (k : Nat) (s : State) : State :=
  (s.persist.replacing.filter fun r => !r.halted && instCluster r.inst s == some k).foldl (fun s r =>
    halt r.inst 1 (s.modPersist fun p => { p with
      replacing := p.replacing.map fun x => if x.inst = r.inst then { x with halted := true } else x })) s

/-! ### The mirror at a frame start -/

/-- The lines of a list of regions. -/
def regionLines (rs : List (Nat × Nat)) : List Nat := rs.flatMap fun r => (List.range r.2).map fun k => r.1 + k

/-- EPOCH_MS in force (R276): a changed one from the next epoch instant of the new period on. -/
def State.epochNow (s : State) : Nat := max 1 (if s.mlk.epochFrom ≤ s.time.tbNs then s.mlk.epochMs else s.mlk.epochOld)

/-- The number of the running epoch (R268). -/
def State.epochNum (s : State) : Nat := s.time.tbNs / ms s.epochNow

/-- The regions in force now (R267): a declaration takes effect at the next epoch. -/
def MirInst.inForce (x : MirInst) (tb : Nat) : List (Nat × Nat) :=
  if x.newFrom ≤ tb then x.newRegions.getD x.regions else x.regions

/-- MIRROR_CAPTURE (R268): the active captures an instance's set at the first frame start at or after the epoch instant. A new declaration, a
changed period (R276) and a request (R270) make it a full set. -/
def mirrorCapture (i : Nat) (s : State) : State :=
  let x := s.mlk.mir.get i {}
  let n := s.epochNum
  let rs := x.inForce s.time.tbNs
  let taken := decide (x.newFrom ≤ s.time.tbNs) && x.newRegions.isSome
  if s.cgu.role = .active ∧ (s.inst i).exists_ ∧ (x.capEpoch ≠ some n ∨ x.capMs ≠ s.epochNow) ∧ (rs ≠ [] ∨ taken) then
    let changed := x.fullMs && decide (s.mlk.epochFrom ≤ s.time.tbNs)
    let full := x.fullNext || taken || changed || x.capMs != s.epochNow
    let all := regionLines rs
    let ls := if full then all else all.filter fun l => x.dirty.contains l
    let set : MirSet := { inst := i, gen := (s.inst i).gen, stepEpoch := s.time.stepEpoch, epoch := n, full := full,
                          lines := ls.map fun l => (256 * l, lsRead i (256 * l) 256 s) }
    s.modMlk fun m => { m with mir := m.mir.set i { x with
      regions := rs, newRegions := if taken then none else x.newRegions, dirty := [], capEpoch := some n, capMs := s.epochNow, fullNext := false,
      fullMs := x.fullMs && !changed, staged := some set } }
  else s

/-- A set is discarded whole (R270): counted, and a full set is asked for. -/
def setDiscard (i : Nat) (s : State) : State :=
  mlkCount 4 (s.modMlk fun m => { m with mir := m.mir.mod i {} fun x => { x with askFull := true, needFull := true, discarded := true } })

/-- The own instance cannot take a set (R270): it is not READY or RUNNING. -/
def mirrorOff (i : Nat) (s : State) : Bool := !((s.inst i).state == .ready || (s.inst i).state == .running)

/-- A set is older than the last applied: by step epoch first, modulo 65,536, then by epoch (R270, R296). -/
def MirSet.older (m : MirSet) (x : MirInst) : Bool :=
  match x.lastEpoch with
  | some e => decide (32768 ≤ modSub 16 m.stepEpoch x.lastStep) || (m.stepEpoch == x.lastStep && decide (m.epoch < e))
  | none => false

/-- One complete set applied, all its lines or none (R270). -/
def applySet (i : Nat) (set : MirSet) (s : State) : State :=
  let x := s.mlk.mir.get i {}
  if mirrorOff i s || (!set.full && set.gen != x.lastGen) || set.older x then setDiscard i s
  else
    let s := set.lines.foldl (fun s l => lsWrite i l.1 l.2 s) s
    mlkCount 3 (s.modMlk fun m => { m with mir := m.mir.mod i {} fun y => { y with
      lastGen := set.gen, lastEpoch := some set.epoch, lastStep := set.stepEpoch, askFull := !set.full && y.askFull, needFull := !set.full && y.needFull,
      discarded := !set.full && y.discarded,
      everApplied := !set.full } })

/-- MIRROR_SET_APPLY (R270): a unit that does not protect, the standby or one in warm-up (R474; log entry 19), applies the sets that have
arrived, oldest first. -/
def mirrorApply (i : Nat) (s : State) : State :=
  if s.cgu.role.protecting then s
  else
    let sets := (s.mlk.mir.get i {}).arrived
    if sets = [] then s
    else sets.foldl (fun s x => applySet i x s) (s.modMlk fun m => { m with mir := m.mir.mod i {} fun x => { x with arrived := [] } })

/-- The mirror of every instance of a cluster (R218 step 4). -/
def mirrorStep (k : Nat) (s : State) : State :=
  (s.mlk.mir.filter fun p => instCluster p.1 s == some k).foldl (fun s p => mirrorApply p.1 (mirrorCapture p.1 s)) s

/-! ### The frame start -/

/-- A frame of a cluster starts now (R212, R213, R218): first what belongs to the instant, then the frame's own counters. -/
def startFrame (k : Nat) (s : State) : State :=
  let s := supplyLoop k s
  let s := seasonSwitch k s
  let s := if (s.psc k).commitNow s.time.tbNs s.time.tbStopped then switchBank k s else s
  let s := mirrorStep k (imageHalt k (hsReplace k s))
  let p := s.psc k
  let e : Int := if s.time.tbStopped then 0 else gridError s.time.tbNs p.phaseNs p.per
  let al := decide (e.natAbs ≤ 50) && !s.time.tbStopped
  let s := s.setPsc k fun p => { p with
    running := true, frameAt := s.now, frameNo := if p.fresh then 0 else p.frameNo + 1, fresh := false, phaseErr := e, aligned := al, served := [],
    slackMin := none, slackOver := false }
  let s := pscCount k 0 s
  if al then s else pscCount k 1 s

end Sys2Proof.Machine
end

