-- ==== Sys2Proof/Machine/TimeOps.lean ====
section
/-!
DEFINITION. Machine/TimeOps.lean: the two domains (R289 to R292), the switch of the reference and the step (R293 to R296), the firing of
comparators (R297 to R299), and the pulse output (R300).
-/
namespace Sys2Proof.Machine
open Sys2Proof

/-- A TBU counter raised (R307). -/
def tbuCount (i : Nat) (s : State) (n : Nat := 1) : State := s.modTime fun t => { t with live := bump t.live i n }

/-- A domain: false A, true B. -/
def Time.dom (t : Time) (b : Bool) : Domain := if b then t.domB else t.domA

/-- A domain changed. -/
def State.setDom (s : State) (b : Bool) (f : Domain → Domain) : State :=
  s.modTime fun t => if b then { t with domB := f t.domB } else { t with domA := f t.domA }

/-- TIME of TB_STAT (R291): the reference domain is LOCKED or in HOLDOVER. -/
def Time.ok (t : Time) : Bool := decide (2 ≤ (t.dom t.refAct).state)

/-- PTP_PORTk. -/
def State.ptp (s : State) (k : Nat) : PtpPort := s.time.ports.get k {}

/-- PTP_PORTk changed. -/
def State.setPtp (s : State) (k : Nat) (f : PtpPort → PtpPort) : State := s.modTime fun t => { t with ports := t.ports.mod k {} f }

/-- clockIdentity of a port: the EUI-64 of its address (PRESUMED, IEEE 1588-2008; log entry 158), and its portNumber. -/
def portIdentity (mac k : Nat) : Nat := ((mac / 2 ^ 24 * 2 ^ 16 + 0xFFFE) * 2 ^ 24 + mac % 2 ^ 24) * 2 ^ 16 + k + 1

/-- The octets of a peer-delay message without tag and FCS (R278, R288): a message of 54 octets to the peer-delay address, in the layout of IEEE
1588-2008 (log entry 158). -/
def PdMsg.octets (m : PdMsg) : List Byte :=
  beBytes 6 pdelayAddr ++ beBytes 6 m.src ++ beBytes 2 0x88F7
    ++ [if m.resp then 0x03 else 0x02, 0x02] ++ beBytes 2 54 ++ beBytes 1 m.domain ++ [0, 0, 0] ++ beBytes 8 (unsigned 64 m.corr) ++ beBytes 4 0
    ++ beBytes 10 (portIdentity m.src m.port) ++ beBytes 2 m.seq ++ [0x05, if m.resp then 0x7F else 0x00]
    ++ beBytes 10 0 ++ beBytes 10 (if m.resp then m.asker else 0)

/-- The TBU sends a peer-delay message (R288) from the port's own address (R522): a frame of its own in the queue of the port's TC_CLASS (log entry
158), with its mirror copies (R136). -/
def pdSend (m : PdMsg) (s : State) : State :=
  let m := { m with src := s.blockMac m.port }
  let f : Stored := { octets := m.octets, pcp := m.pcp, stamp := s.time.tbNs, frac := s.time.tbFrac / 65536, epoch := s.time.stepEpoch, age := s.now,
                      rxLen := m.octets.length + 4, cells := cellsOf (m.octets.length + 4) }
  let cls := (s.ptp m.port).tcClass
  storeFrame f 0xFFFF 0 (.port m.port { cls := cls, limitUs := ageLimit s cls 0, pd := some m } :: mirrorDests none [m.port] none 0 s) s

/-! ### Comparators -/

/-- Comparator k. -/
def Time.cmp (t : Time) (k : Nat) : Comparator := t.cmps.get k { dest := if k < 8 then 1 else 0 }

/-- Comparator k changed. -/
def State.setCmp (s : State) (k : Nat) (f : Comparator → Comparator) : State := s.modTime fun t => { t with cmps := t.cmps.set k (f (t.cmp k)) }

/-- The age of an output of the grid, counted from its base (R339, R342): its input periods are 2,560 modulator cycles of 81.380 ns, and `gridCyc`
cycles have been put in or left out since. -/
def Bki.outAge (b : Bki) (n : Nat) : Nat := b.outBase + ((n * b.decim * 2560 : Nat) + b.gridCyc).toNat * 1000000000 / 12288000

/-- The island at a firing (R339): the sample count is set to 0, with the inputs already converted since the last output; an input period is
10^9 / 4,800 ns. -/
def Bki.synced (b : Bki) (now : Nat) : Bki :=
  { b with smpCnt := 0, smpPast := min b.decim (((now - b.outAge b.outCnt) * 4800 + 500000000) / 1000000000) }

/-- The Backstop's sample count restarts at a firing (R339), unless its grid runs free. -/
def bkiSync (s : State) : State := if s.bkiFollows then s.modBki fun b => b.synced s.now else s

/-- With SYNC at 1 the firmware programs one of comparators 8 to 31 for the island, at the whole seconds of TB (R339); the first one that no one
has (log entry 131). -/
def syncCmp (s : State) : State :=
  let ks := (List.range 24).map fun k => k + 8
  if !s.bki.sync || ks.any fun k => (s.time.cmp k).byMgp && (s.time.cmp k).en && (s.time.cmp k).dest.getLsbD 1 then s
  else match ks.find? fun k => !(s.time.cmp k).alloc with
    | some k => s.setCmp k fun _ => { en := true, periodic := true, dest := 2, byMgp := true, alloc := true,
                                      time := (s.time.tbNs / sec 1 + 1) * sec 1, period := sec 1 }
    | none => s

/-- The owner that a firing's record names. -/
def Comparator.master (c : Comparator) (s : State) : Master := if c.byMgp then .mgp else .inst c.owner (s.inst c.owner).gen

/-- What a firing for instant `t` reaches (R299). The frame start of a cluster is a command of its own. -/
def firing (k t : Nat) (c : Comparator) (s : State) : State :=
  let s := if c.dest.getLsbD 0 && decide (8 ≤ k) then triggerSlots k t s else s
  let s := if c.dest.getLsbD 1 then bkiSync s else s
  let s := if c.dest.getLsbD 2 && decide (8 ≤ k) then
      acqTrigger { cause := 3, ns := t, epoch := s.time.stepEpoch, age := s.now, comp := k } (fun st => st.trgComp.getLsbD (k - 8)) s
    else s
  if c.dest.getLsbD 3 then note .tbu 0 0x383 0 (c.master s) (leBytes 8 t ++ leBytes 1 k) s else s

/-- Comparator k fires (R298): a one-shot one clears EN; a periodic one goes on to the next instant of its grid that lies ahead. -/
def fireCmp (k : Nat) (late : Bool) (s : State) : State :=
  let c := s.time.cmp k
  let next := if c.periodic then (if late then gridNext (s.time.tbNs + 1) c.time c.period else c.time + c.period) else c.time
  let s := s.setCmp k fun c => { c with en := c.periodic, fired := true, late := c.late || late, time := next }
  firing k c.time c (tbuCount 13 s)

/-- A comparator as a write of EN leaves it: one whose TIME is at or before TB fires at once, late (R298). -/
def armCmp (k : Nat) (s : State) : State :=
  let c := s.time.cmp k
  if c.en ∧ c.time ≤ s.time.tbNs then fireCmp k true s else s

/-- A comparator after a step from `old` (R298). -/
def stepCmp (k old : Nat) (s : State) : State :=
  let c := s.time.cmp k
  let tb := s.time.tbNs
  if !c.en then s
  else if c.periodic then
    let t := gridNext tb c.time c.period
    let n := if c.time < t then (t - c.time) / c.period else 0
    tbuCount 14 (s.setCmp k fun c => { c with time := t, skipped := satAdd 14 c.skipped n }) n
  else if old < c.time ∧ c.time < tb then fireCmp k true s
  else s

/-! ### The pulse -/

/-- An edge of PPS_OUT (R300). -/
def ppsRise (s : State) : State :=
  if s.time.ppsEn ∧ !(s.time.ppsGate && !s.time.ok) then s.modTime fun t => { t with ppsOut := true, ppsFrom := s.now } else s

/-! ### Switch and step -/

/-- A switch of the reference (R293, R294): recorded and counted. -/
def startSwitch (ref : Bool) (s : State) : State :=
  let d := (s.time.dom ref).ofs
  let s := s.modTime fun t => { t with ref := ref, refAct := ref, slewRem := d, slewing := decide (d ≠ 0) }
  note .tbu 0 0x381 0 .none (leBytes 1 (b2n ref) ++ leBytes 8 (unsigned 64 (d / 65536))) (tbuCount 11 s)

/-- A write of REF (R293, R294): a change starts a switch; a write during a slew restarts the slew. -/
def writeRef (ref : Bool) (s : State) : State :=
  if ref ≠ s.time.ref then startSwitch ref s
  else if s.time.slewing then
    let d := (s.time.dom ref).ofs
    s.modTime fun t => { t with slewRem := d, slewing := decide (d ≠ 0) }
  else s

/-- The firmware may switch to a domain (R294). -/
def switchOk (ref : Bool) (s : State) : Bool :=
  let d := s.time.dom ref
  d.state == 2 && decide (d.ofs.natAbs ≤ s.time.switchMaxUs * 1000 * 2 ^ 32)

/-- AUTO_SWITCH (R294): the reference is in HOLDOVER and the other domain LOCKED. -/
def autoSwitch (s : State) : State :=
  let o := !s.time.refAct
  if s.time.autoSwitch ∧ s.persist.fwUp ∧ (s.time.dom s.time.refAct).state = 3 ∧ switchOk o s then writeRef o s else s

/-- A domain whose offset a step reduces. -/
def Domain.stepped (d : Domain) (ns : Int) : Domain := { d with ofs := d.ofs - ns * 2 ^ 32 }

/-- The instants of the mirror link that lie on TB, after a step from `old` to `new` (R276, R267, R296): what is in force stays in force; what
waits for an epoch instant waits for the next one on the new time (DEDUCED, log entry 176). -/
def Mlk.rebased (m : Mlk) (old new : Nat) : Mlk :=
  let next := fun (p : Nat) => (new / ms p + 1) * ms p
  let e := if m.epochFrom ≤ old then 0 else next m.epochMs
  let p := max 1 (if e ≤ new then m.epochMs else m.epochOld)
  { m with epochFrom := e, mir := m.mir.map fun x => (x.1, { x.2 with newFrom := if x.2.newFrom ≤ old then 0 else next p }) }

/-- A step (R295, R296, R298, R300). -/
def doStep (ns : Int) (s : State) : State :=
  let old := s.time.tbNs
  let s := s.modTime fun t => { t with
    tbNs := (((t.tbNs : Int) + ns) % 2 ^ 64).toNat, stepEpoch := (t.stepEpoch + 1) % 65536, slewRem := 0, slewing := false,
    domA := t.domA.stepped ns, domB := t.domB.stepped ns }
  let s := s.modMlk fun m => m.rebased old s.time.tbNs
  let s := note .tbu 0 0x380 0 .none (leBytes 8 (unsigned 64 ns)) (tbuCount 10 s)
  let s := (List.range 32).foldl (fun s k => stepCmp k old s) s
  if decide (old / sec 1 < s.time.tbNs / sec 1) then ppsRise s else s

/-! ### The domains -/

/-- Best master comparison of IEEE 1588-2008 clause 9.3 (R278, R289): priority 1, quality, priority 2, identity, then stepsRemoved and the port. -/
def Announce.better (a b : Announce) : Bool :=
  let x := [a.prio1, a.quality, a.prio2, a.gm, a.steps, a.port]
  let y := [b.prio1, b.quality, b.prio2, b.gm, b.steps, b.port]
  match (x.zip y).find? fun p => p.1 != p.2 with
  | some p => decide (p.1 < p.2)
  | none => false

/-- The best of a list. -/
def bestOf : List Announce → Option Announce
  | [] => none
  | a :: t => match bestOf t with
    | some b => if b.better a then some b else some a
    | none => some a

/-- The candidate that a domain follows (R289). -/
def Domain.parent (d : Domain) : Option Announce := bestOf (d.best.filter fun a => some a.port == d.slave && some a.gm == d.gm)

/-- The Announce receipt timeout of a candidate (R278): announceReceiptTimeout of its own Announce intervals. -/
def Announce.expires (a : Announce) (t : Time) : Nat := a.atNs + t.annTimeout * sec (2 ^ a.logInt)

/-- The best master algorithm of a domain (R289): expired candidates go; a change of the grandmaster's identity makes it FREERUN. -/
def reselect (b : Bool) (s : State) : State :=
  let d := s.time.dom b
  let cs := d.best.filter fun a => decide (s.now < a.expires s.time)
  let use := cs.filter fun a => (s.ptp a.port).ptpEn && (s.ptp a.port).usable
  match bestOf use with
  | some a =>
    let change := d.gm.isSome && d.gm != some a.gm
    s.setDom b fun d => { d with
      best := cs, slave := some a.port, gm := some a.gm, state := if change then 0 else d.state,
      hist := if change then [] else d.hist, good := if change then 0 else d.good, far := if change then 0 else d.far }
  | none => s.setDom b fun d => { d with best := cs, slave := none }

/-- The domains that a domain number names. -/
def domainsOf (n : Nat) (s : State) : List Bool := [false, true].filter fun b => (s.time.dom b).num == n

/-- Sync intervals that are used (R278): logSyncInterval -4 to 0. -/
def syncIntervals : List Nat := [62500000, 125000000, 250000000, 500000000, 1000000000]

/-- The offset of a domain from TB that one Sync gives, in 2^-16 ns (R290). -/
def rawOffset (k : Nat) (m : SyncMsg) (s : State) : Int := m.origin + m.correction + (s.ptp k).linkDelay - m.arrival

/-- The mean of a list of offsets. -/
def meanOf (l : List Int) : Int := if l = [] then 0 else l.sum / l.length

/-- INCR that cancels a fractional frequency error of `y` * 2^-64 (R283): round(-2^33 y / (1 + y)). -/
def incrOf (y : Int) : Int := roundInt (-(2 ^ 33 * y)) (2 ^ 64 + y).toNat

/-- A value written to INCR: outside +-0x0010_0000 it is left unchanged (R280, R305). -/
def State.setIncr (s : State) (i : Int) : State :=
  if -0x100000 ≤ i ∧ i ≤ 0x100000 then s.modTime fun t => { t with incr := i } else s

/-- What the servo writes at a Sync (R283, R290): the filtered offset; for the reference the frequency error `y` that it computes from the
offsets, and from `y` INCR. The spec gives neither the filter nor how `y` comes from the offsets: both are free values (log entry 3). -/
def servoWrites (b : Bool) (s : State) : State :=
  let f := signed 64 s.free1 * 65536
  let s := s.took.setDom b fun d => { d with ofs := f }
  if b = s.time.refAct then
    let y := signed 52 s.free1
    s.took.setIncr (incrOf y)
  else s

/-- How a domain stands after an offset (R289, R292): its count of offsets within 100 ns of the target and beyond STEP_THR_US. -/
def Domain.judge (d : Domain) (raw target : Int) (thr : Nat) : Domain :=
  let e := (raw - target).natAbs
  let good := if e ≤ 100 * 65536 then d.good + 1 else 0
  let far := if d.state = 2 ∧ thr * 1000 * 65536 < e then d.far + 1 else 0
  let state := if d.state = 2 then 2 else if 16 ≤ good then 2 else 1
  { d with good := good, far := far, state := state, locked := d.locked || state == 2 }

/-- A Sync taken by the servo (R289 to R292, R294): the offset, the state, and for the reference a step where frequency alone does not do. -/
def servoTakes (b : Bool) (raw : Int) (s : State) : State :=
  let d0 := s.time.dom b
  let isRef := b == s.time.refAct
  let hist := (raw :: d0.hist).take 16
  let target := if isRef then s.time.slewRem / 65536 else meanOf hist
  let d0 := if d0.state = 1 ∨ d0.state = 2 then d0 else { d0 with good := 0, far := 0 }
  let d := d0.judge raw target s.time.stepThrUs
  let big := decide (s.time.stepThrUs * 1000 * 65536 < (raw - target).natAbs)
  let returns := d0.state == 0 || d0.state == 3
  let step := isRef && ((returns && (big || !d0.locked)) || decide (4 ≤ d.far))
  let full := isRef || decide (16 ≤ hist.length)
  let s := s.setDom b fun _ => { d with hist := hist, state := if d0.state ≠ 2 ∧ !full then 1 else d.state, far := if step then 0 else d.far }
  let s := tbuCount (b2n b) (servoWrites b s)
  let s := if step then doStep (roundInt raw 65536) s else s
  autoSwitch s

end Sys2Proof.Machine
end

