-- ==== Sys2Proof/Machine/SaveOps.lean ====
section
/-!
DEFINITION. Machine/SaveOps.lean: the persistent configuration (R470): which settings of each block a copy holds, and the writing of a
copy over the older ones of both banks.
-/
namespace Sys2Proof.Machine
open Sys2Proof

/-- Settings of a port laid over another (R94 to R96). -/
def Port.settings (p onto : Port) : Port := { onto with
  fec := p.fec, rate := p.rate, rxTag := p.rxTag, untagPvid := p.untagPvid, pauseRx := p.pauseRx, txEn := p.txEn, rxEn := p.rxEn,
  pvid := p.pvid, defPcp := p.defPcp, pcpMap := p.pcpMap, maxFrame := p.maxFrame }

/-- A committed stream entry as a copy holds it. -/
def StreamEntry.settings (e : StreamEntry) : StreamEntry := { e with
  idle := false, idleDue := false, idleCount := 0, wrongPort := 0, refCur := 0, refPrev := 0, matchFrames := 0, matchOctets := 0,
  quarEnd := 0, invalid := false, lastOctets := 0, prevRef := 0 }

/-- A static forwarding entry as a copy holds it. -/
def FwdEntry.settings (e : FwdEntry) : FwdEntry := { e with
  srcPorts := 0, idleCount := 0, moves := 0, refCur := 0, refPrev := 0, dupLast := 0, seenA := 0, seenB := 0, invalid := false, quarEnd := 0 }

/-- The switch as a copy holds it: committed stream entries, static forwarding entries, bitmaps, mirror sessions, settings. -/
def Switch.settings (w : Switch) : Switch := {
  learnEn := w.learnEn, prpEn := w.prpEn, hsrEn := w.hsrEn, holdoffMs := w.holdoffMs, fwdIdleS := w.fwdIdleS, clsAge := w.clsAge,
  portLearn := w.portLearn, flood := w.flood, mir := w.mir, policy := w.policy, bitmaps := w.bitmaps,
  streams := (w.streams.filter fun e => e.2.state == .active).map fun e => (e.1, e.2.settings),
  fwd := (w.fwd.filter fun e => e.2.state == .active && e.2.static).map fun e => (e.1, e.2.settings) }

/-- A group descriptor as a copy holds it (R169): an accepted preset change is in it before its output boundary (R487). -/
def Group.settings (g : Group) : Group := {
  entry := g.entry, en := g.en, acqEn := g.acqEn, chkConfRev := g.chkConfRev, preset := if g.pend then g.pendPreset else g.preset,
  pendPreset := if g.pend then g.pendPreset else g.preset, rate := g.rate,
  nch := g.nch, firstCtx := g.firstCtx, smpWrap := g.smpWrap, decPhase := g.decPhase, gapFill := g.gapFill, gapTime := g.gapTime, nasdu := g.nasdu,
  confRev := g.confRev, subs := g.subs }

/-- A threshold's settings (R170). -/
def Thr.settings (t : Thr) : Thr := { level := t.level, hyst := t.hyst, mode := t.mode, minDur := t.minDur, dest := t.dest }

/-- A context record as a copy holds it (R170). -/
def Ctx.settings (c : Ctx) : Ctx := {
  chanPos := c.chanPos, corner := c.corner, freeze := c.freeze, freezeAuto := c.freezeAuto, histClass := c.histClass, t0 := c.t0.settings,
  t1 := c.t1.settings, dcK := c.dcK, histBase := c.histBase }

/-- An instance as a copy holds it (R470). -/
def Inst.settings (d : Inst) : Inst := {
  state := .ready, mac := d.mac, share := d.share, autoReset := d.autoReset, allow := d.allow, image := d.image }

/-- A lock's assignment. -/
def Lock.settings (l : Lock) : Lock := { en := l.en, mgpOk := l.mgpOk, owner := l.owner, index := l.index }

/-- A partition scheduler as a copy holds it: its committed table, PERIOD, PHASE and EN. A commit accepted and waiting for its frame start is in it
(R487). -/
def Psc.settings (p : Psc) : Psc :=
  let per := if p.commitPend then p.commitPer else p.periodAct
  let ph := if p.commitPend then p.commitPhase else p.phaseAct
  let t := if p.commitPend then p.shadow else p.active
  { en := p.en, period := per, periodAct := per, phase := ph, phaseAct := ph, bank0 := t, bank1 := t }

/-- The supply settings of an island (R235). -/
def Loop.settings (l : Loop) : Loop := {
  track := l.track, setpoint := l.setpoint, deadband := l.deadband, guard := l.guard, vFix := l.vFix, vFloor := l.vFloor }

/-- A PTP port's settings (R305). -/
def PtpPort.settings (p : PtpPort) : PtpPort := {
  tcClass := p.tcClass, fwdMask := p.fwdMask, pcp := p.pcp, untagged := p.untagged, pdelayEn := p.pdelayEn, ptpEn := p.ptpEn }

/-- A comparator's settings (R306). -/
def Comparator.settings (c : Comparator) : Comparator := {
  en := c.en, periodic := c.periodic, dest := c.dest, byMgp := c.byMgp, owner := c.owner, alloc := c.alloc, time := c.time, period := c.period }

/-- A stream descriptor as a copy holds it (R332, R333). -/
def AcqStream.settings (x : AcqStream) : AcqStream := {
  en := x.en, port := x.port, causeEn := x.causeEn, nsrc := x.nsrc, dstMac := x.dstMac, srcMac := x.srcMac, dstIp := x.dstIp, srcIp := x.srcIp,
  dstPort := x.dstPort, srcPort := x.srcPort, vid := x.vid, pcp := x.pcp, dscp := x.dscp, ttl := x.ttl, rateMbit := x.rateMbit,
  stageGran := x.stageGran, flushUs := x.flushUs, freqRecs := x.freqRecs, trgComp := x.trgComp, zcHyst := x.zcHyst, prePost := x.prePost,
  srcs := x.srcs }

/-- The settings of the Backstop (R336, R348): those of the active bank, or of one committed and not yet taken. -/
def Bki.settings (b : Bki) : Bki :=
  let act := if b.bank != b.commitPend then b.bank1 else b.bank0
  let f := if b.commitPend then b.fNom else b.fNomAct
  let p := if b.commitPend then b.preset else b.presetAct
  { inEn := b.inEn, btEn := b.btEn, btMinMs := b.btMinMs, sync := b.sync, fNom := f, preset := p, fNomAct := f, presetAct := p, bank0 := act, bank1 := act, calStepS := b.calStepS, calEn := b.calEn }

/-- The persistent configuration as the module stands (R470). -/
def State.snapshot (s : State) : Snapshot := {
  arbs := s.fab.arbs.map fun a => (a.1, { mode := a.2.mode, prio := a.2.prio }),
  ports := s.ports.map fun p => (p.1, p.2.settings (Port.reset p.1)),
  sw := (committed s).sw.settings,
  sce := { en := s.sce.en, groups := s.sce.groups.map fun g => (g.1, g.2.settings), ctxs := s.sce.ctxs.map fun c => (c.1, c.2.settings) },
  insts := { desc := (s.insts.desc.filter fun d => d.2.state != .free && d.2.state != .quarantine && !d.2.removing).map fun d => (d.1, d.2.settings),
             locks := s.insts.locks.map fun l => (l.1, l.2.settings) },
  sched := { pscs := s.sched.pscs.map fun p => (p.1, p.2.settings), loops := s.sched.loops.map fun l => (l.1, l.2.settings), vVf := s.sched.vVf },
  cgu := { claimRxEn := s.cgu.claimRxEn, clmEn := s.cgu.clmEn, ownClaim := s.cgu.ownClaim, claimMemMs := s.cgu.claimMemMs,
           tripAssign := s.cgu.tripAssign },
  ocu := { en := s.ocu.en, plausWinMs := s.ocu.plausWinMs, windowUs := s.ocu.windowUs },
  mlk := { partnerToMs := s.mlk.partnerToMs, epochMs := s.mlk.epochMs },
  time := { ref := s.time.ref, refAct := s.time.ref, autoSwitch := s.time.autoSwitch, ppsEn := s.time.ppsEn, ppsGate := s.time.ppsGate,
            domA := { num := s.time.domA.num }, domB := { num := s.time.domB.num }, switchMaxUs := s.time.switchMaxUs,
            holdoverS := s.time.holdoverS, stepThrUs := s.time.stepThrUs, ppsWidth := s.time.ppsWidth,
            ports := s.time.ports.map fun p => (p.1, p.2.settings),
            cmps := (s.time.cmps.filter fun c => decide (8 ≤ c.1)).map fun c => (c.1, c.2.settings) },
  acq := { en := s.acq.en, deadMs := s.acq.deadMs, trigInEn := s.acq.trigInEn, trigInEdge := s.acq.trigInEdge,
           streams := s.acq.streams.map fun x => (x.1, x.2.settings) },
  season := { ret := s.season.ret, wakeEn := s.season.wakeEn, wakeTimerS := s.season.wakeTimerS },
  quiet := s.faults.sets.map fun x => (x.1, x.2.quietMs),
  buckets := s.evr.buckets.map fun b => (b.1, { mode := b.2.mode, burst := b.2.burst, intervalUs := b.2.intervalUs, tokens := b.2.burst }),
  saveEn := s.evr.saveEn, limitEn := s.evr.limitEn, verifyEn := s.ksu.verifyEn, ver := s.ksu.ver, holdoffMs := s.insts.holdoffMs,
  intent := s.persist.intent, forced := s.head.forced, pattern := s.wake.pattern }

/-- The place of the older copy of a bank (R470): one that does not check, else the one with the lower sequence number. -/
def olderCopy (l : List Config1) (bank : Nat) : Nat :=
  let a := l.getD (2 * bank) {}
  let b := l.getD (2 * bank + 1) {}
  if a.crcOk && (!b.crcOk || decide (b.seq < a.seq)) then 2 * bank + 1 else 2 * bank

/-- A copy written over the older copy of a bank. -/
def putCopy (c : Config1) (bank : Nat) (l : List Config1) : List Config1 := l.set (olderCopy l bank) c

/-- A new copy is written over the older copy of the bank that the firmware runs from, then over the older copy of the other (R470). The Backstop
settings go with it (R348). -/
def persistNow (s : State) : State :=
  let seq := s.persist.copies.foldl (fun m c => max m c.seq) 0 + 1
  let c : Config1 := { seq := seq, crcOk := true, cfg := s.snapshot }
  let own := b2n s.mbx.fwBank
  s.modPersist fun p => { p with copies := putCopy c (1 - own) (putCopy c own p.copies), changedAt := none, backstop := s.bki.settings }

/-- The newest copy whose CRC checks (R471). -/
def newestCopy : List Config1 → Option Config1
  | [] => none
  | c :: t => match newestCopy t with
    | some d => if c.crcOk ∧ d.seq ≤ c.seq then some c else some d
    | none => if c.crcOk then some c else none

/-! ### The save of the recorder -/

/-- The SEQ after `q` (R384): modulo 2^32, never 0. -/
def nextSeq (q : Nat) : Nat := if (q + 1) % 2 ^ 32 = 0 then 1 else (q + 1) % 2 ^ 32

/-- The SEQ `n` records after `q`. -/
def seqAfter (q : Nat) : Nat → Nat
  | 0 => q
  | n + 1 => seqAfter (nextSeq q) n

/-- A record as a reader sees it (R385). -/
def EvrRec.asRead (r : EvrRec) : EvrRec := if r.damaged then { seq := r.seq, code := 1 } else r

/-- Class F and the recorder's own codes pass their bucket (R389). -/
def EvrRec.bypasses (r : EvrRec) : Bool := r.cls == 3 || decide (r.code < 16)

/-- A record written with the next SEQ (R391): one that passes its bucket is counted in BYPASSED (R389). -/
def writeRecord (r : EvrRec) (s : State) : State :=
  s.modEvr fun e => { e with
    ring := ({ r with seq := e.next } :: e.ring).take 65536, oldest := if 65536 ≤ e.ring.length then nextSeq e.oldest else e.oldest,
    next := nextSeq e.next, live := bump (if r.bypasses then bump e.live 5 else e.live) 0 }

/-- POWER_FAIL_SAVE (R397): POWER_FAIL is written, the ring frozen, and the 4,096 newest records programmed into an erased area, if there is
one and SAVE_EN is 1. `internal` marks the module's own warning (R504). -/
def beginSave (internal : Bool) (s : State) : State :=
  if s.evr.frozen ∨ !s.evr.running then s
  else
    let s := writeRecord (s.occ .evr 0 0x002 0 .none (leBytes 1 (b2n internal))) s
    let area := (List.range 2).find? fun k => (s.evr.areas.getD k {}).erased
    s.modEvr fun e =>
      let e := { e with frozen := true }
      match area with
      | some k => if e.saveEn then { e with
          saveState := 2, lastComplete := false, saved := 0, saveInto := some k, live := bump e.live 6 ((e.ring.take 4096).filter fun r => r.damaged).length,
          areas := e.areas.set k { erased := false, recs := (e.ring.take 4096).map EvrRec.asRead, complete := false } } else e
      | none => { e with saveState := 0 }

/-- A save cut off after `n` of its records; the last of them may have been cut too, and its CRC then fails (R397, R398). -/
def SaveArea.cut (a : SaveArea) (n : Nat) (torn : Bool) : SaveArea :=
  { a with recs := if torn then lmod (a.recs.take n) (n - 1) fun r => { r with crcOk := false } else a.recs.take n, complete := false }

/-- The hold-up ends before the marker is written (R397): the area holds the newest records that were programmed, how many being open, as is
whether the last was programmed whole. -/
def cutSave (s : State) : State :=
  match s.evr.saveInto with
  | some k =>
    let n := s.free1 % ((s.evr.areas.getD k {}).recs.length + 1)
    s.took.took.modEvr fun e => { e with
      saveInto := none, lastComplete := false, saved := n, areas := lmod e.areas k fun a => a.cut n (s.took.free1 % 2 == 1) }
  | none => s

/-- The closing marker is written (R397). -/
def endSave (s : State) : State :=
  match s.evr.saveInto with
  | some k => s.modEvr fun e => { e with
      saveInto := none, saveState := 3, lastComplete := true, saved := (e.areas.getD k {}).recs.length, live := bump e.live 7,
      areas := lmod e.areas k fun a => { a with complete := true } }
  | none => s

/-- The warning is over before MAIN is lost (R397): the save completes, the ring unfreezes, and POWER_RETURN is written. -/
def saveReturns (s : State) : State :=
  if s.evr.frozen then
    let s := (endSave s).modEvr fun e => { e with frozen := false }
    writeRecord (s.occ .evr 0 0x003 0 .none []) s
  else s

end Sys2Proof.Machine
end

