-- ==== Sys2Proof/Machine/PowerOps.lean ====
section
/-!
DEFINITION. Machine/PowerOps.lean: what loses its state with MAIN, with a module reset and with AON (R356, R500, R503), the entry into
WINTER (R357), and the beginning of SPRING (R359).
-/
namespace Sys2Proof.Machine
open Sys2Proof

/-- What flash, antifuse and the chassis keep while a part of the module is without power: the recorder's save areas and BOOT. -/
def Evr.kept (e : Evr) : Evr := { areas := e.areas, boot := e.boot }

/-- The key store's antifuse and its copies in flash (R410, R411, R413). -/
def Ksu.kept (k : Ksu) : Ksu := { pairs := k.pairs, saved := k.saved, fuseKeys := k.fuseKeys, draws := k.draws }

/-- Identities in antifuse, and the host's own memory, which is not the module's. -/
def Mbx.kept (m : Mbx) : Mbx := { serial := m.serial, macBase := m.macBase, variant := m.variant, hostMem := m.hostMem }

/-- What flash keeps of the persistent part (R470). -/
def Persist.kept (p : Persist) : Persist := {
  copies := p.copies, activeBank := p.activeBank, releases := p.releases, dzixImg := p.dzixImg, bkiImg := p.bkiImg, backstop := p.backstop, imageStore := p.imageStore, intent := p.intent }

/-- The fault sets of the blocks that stay powered: the BKI's, with an armed injection disarmed without a finding (R490), and a stopped clock of its
island (R21). -/
def Faults.kept (f : Faults) : Faults := {
  sets := f.sets.filterMap fun p =>
    if p.1 = setKey .bki 0 then some (p.1, { p.2 with injArm := false, injState := if p.2.injArm then 0 else p.2.injState }) else none,
  clocks := f.clocks.filter fun p => p.1 = Island.bi.num }

/-- What is plugged into a port and what stands at its cage remains (R70); the port's registers are at reset. -/
def Port.kept (p : Port) (k : Nat) : Port :=
  { Port.reset k with
    sfpPresent := p.sfpPresent, sfp := p.sfp, sfpBad := p.sfpBad, attach := if 2 ≤ k then p.attach else (Port.reset k).attach : Port }.judged

/-- A hot PMC is so no longer where it is reset: it reads its sensors anew (R508). -/
def Power.cooled (p : Power) : Power := { p with hot := false, hotSince := none }

/-- Every MAIN island at its reset values (R355, R500). The island, AON storage, flash, antifuse and the supply inputs keep theirs, and the
counters of time are not written (R281). -/
def mainFresh (s : State) : State := { s with
  fab := {}, ports := s.ports.map fun p => (p.1, p.2.kept p.1), head := { present := s.head.present, through := s.head.through, cmdAt := s.head.cmdAt }, sw := {}, sce := {},
  insts := {}, sched := {}, eg := {}, cgu := { unitId := s.cgu.unitId, idConflict := s.cgu.idConflict }, ocu := {}, mlk := {}, acq := {},
  time := { tbNs := s.time.tbNs, tbFrac := s.time.tbFrac, age := s.time.age, stepEpoch := s.time.stepEpoch, tbStopped := s.time.tbStopped,
            oscFailed := s.time.oscFailed, domA := { locked := s.time.domA.locked }, domB := { num := 254, locked := s.time.domB.locked } },
  faults := s.faults.kept, evr := s.evr.kept, ksu := s.ksu.kept, mbx := s.mbx.kept, persist := s.persist.kept, mon := { fails := s.mon.fails },
  power := s.power.cooled }

/-- The MGP is off (R350, R352, R360): the heartbeat is not watched until the next accepted write, and from then on HB_EN may be written 0 once
more. BKI_HB and HB_EN stand, the island being unaffected (R500). -/
def Bki.mgpOff (b : Bki) : Bki := { b with hb := 0, mgpReset := true, hbSinceReset := false, hbOpen := true }

/-- WINTER entry on request is in progress (R357). -/
def State.entering (s : State) : Bool := s.season.changing == some .winter

/-- Steps 1 and 2 of WINTER entry (R357): the unit becomes OUT, OP_DONE is written while the host can still read it (R469), the configuration and
the recorder are saved (R397). -/
def winterBegins (h : Option Nat) (s : State) : State :=
  let s := opDone? h .ok [] (becomeOut true s)
  let s := if s.persist.fwUp then persistNow s else s
  beginSave false (s.modSeason fun z => { z with changing := some .winter, switched := [], changeOp := none })

/-- WINTER is reached (R357): the unit is OUT, the recorder is saved, the coil is released, and the MAIN islands are switched off. TB and the cores
stand; the oscillator goes on (R359). -/
def winterEntry (mainLost : Bool) (s : State) : State :=
  let s := becomeOut true s
  let s := beginSave false s
  let s := if mainLost then cutSave s else endSave s
  let s := coilOff s
  let s := mainFresh s
  let s := s.modHead fun h => { h with through := false }
  let s := s.modTime fun t => { t with tbStopped := true }
  let s := s.modWake fun w => { w with active := w.pattern }
  let s := s.modBki Bki.mgpOff
  s.modSeason fun z => { z with
    season := .winter, changing := none, switched := [], changeOp := none, winterCause := mainLost, winterAge := s.now }

/-- The absence of a head at a ring port (R5, R372): the port's own fault, which lasts until a head is fitted. -/
def headAbsent (k : Nat) (s : State) : State :=
  (raise { block := .prt, unit := k, kind := 9, persist := true } s).setPort k fun p => { p with attach := 0, holdOut := true }

/-- The unit ID from the slot pins (R499); an ID found in use by the partner is forgotten once the pins read another (R248). -/
def readSlotPins (s : State) : State :=
  s.modCgu fun c => { c with unitId := s.power.slotId, idConflict := if c.idConflict = some s.power.slotId then c.idConflict else none }

/-- MOD_RESET_N takes effect (R500): the coil is released and every MAIN island is reset, the MGP included; the BKI goes on, with the MGP in
reset. -/
def modReset (s : State) : State :=
  let s := s.modPower fun p => { p with resetPend := false }
  if s.season.season = .winter then s
  else
    let s := (mainFresh (coilOff s)).modBki Bki.mgpOff
    s.modSeason fun z => { z with season := .spring, changing := none, switched := [], changeOp := none, lastWake := 0 }

/-- BYP reads the head's EEPROM when MAIN becomes good (R5, R106): without a head P0 and P1 stay down and the absence is recorded. -/
def headDetect (head : Bool) (s : State) : State :=
  let s := s.modHead fun h => { h with present := head, loopOk := false, loopFrom := if head then some s.now else none }
  if head then (s.setPort 0 fun p => { p with attach := 1 }).setPort 1 fun p => { p with attach := 1 }
  else headAbsent 1 (headAbsent 0 s)

/-- What follows the release of MOD_RESET_N (R499, R500): a cold start, in which the pins are read, the wake counters begin again (R100), and with
MAIN good BYP reads the head's EEPROM (R5, R106). -/
def modReleased (s : State) : State :=
  let s := readSlotPins s
  if s.season.season = .winter then s
  else
    let s := s.modWake fun w => { w with matched := 0, other := 0 }
    if s.power.mainGood ∧ s.season.season = .spring then headDetect s.head.present s else s

/-- A module reset that waited for the end of a save takes effect (R500). -/
def resetDue (s : State) : State :=
  if s.power.resetPend ∧ s.evr.saveInto.isNone then (if s.power.resetLow then modReset s else modReleased (modReset s)) else s

/-- SPRING_BEGIN (R358, R359): the first wake source is recorded; TB resumes from its value at entry plus the interval that the oscillator
counted, and the step epoch is unchanged. P6 leaves 100BASE-TX, and its link goes down (R100). -/
def springBegin (wake : Nat) (s : State) : State :=
  let s := portDown 6 s
  let gone := s.now - s.season.winterAge
  let s := s.modTime fun t => { t with tbStopped := false, tbNs := (t.tbNs + gone) % 2 ^ 64 }
  let s := s.modPower fun p => { p with rampAt := s.now, wakeLow := false }
  let s := s.modSeason fun z => { z with season := .spring, lastWake := wake, wakeHeld := none }
  headDetect s.head.present (bkiCount 12 s)

/-- A wake source asserts in WINTER (R358): with MAIN good SPRING begins, else the first one is held until MAIN is good. During the entry it is
latched (R360). -/
def wakeUp (wake : Nat) (s : State) : State :=
  let hold := s.modSeason fun z => { z with wakeHeld := some (z.wakeHeld.getD wake) }
  if s.season.season = .winter then (if s.power.mainGood ∧ !s.power.disconnected then springBegin wake s else hold)
  else if s.entering then hold else s

/-- Every cluster's frames have stopped (R357 step 3); with TB stopped none runs on. -/
def State.framesStopped (s : State) : Bool := s.time.tbStopped || (List.range 8).all fun k => !(s.psc k).running

/-- Steps 4 and 5 of WINTER entry (R357), once the frames have stopped; a wake latched meanwhile begins SPRING (R360). -/
def winterSettles (s : State) : State :=
  if s.entering ∧ s.framesStopped then
    let wake := s.season.wakeHeld
    let s := winterEntry false s
    match wake with
    | some w => wakeUp w (s.modSeason fun z => { z with wakeHeld := none })
    | none => s
  else s

/-- Everything without power (R503): what flash, antifuse and the pins hold stays, and an ID conflict, which only a read of another ID ends (R248). A
save in progress is cut. -/
def powerOff (s : State) : State :=
  let s := cutSave s
  { State.reset with
    persist := s.persist.kept, evr := s.evr.kept, ksu := s.ksu.kept, mbx := s.mbx.kept, mon := { fails := s.mon.fails },
    power := { s.power with aonGood := false, internalFail := false, hot := false, hotSince := none, cutoffAt := none, disconnected := false, badRails := [],
                            resetPend := false, wakeLow := false },
    head := { present := s.head.present }, cgu := { idConflict := s.cgu.idConflict }, ports := s.ports.map fun p => (p.1, p.2.kept p.1), free := s.free, pending := s.pending }

/-- MAIN has been good long enough (R356, R358, R508): from WINTER entered by its loss, or with a wake held, SPRING begins after 100 ms. -/
def mainReturns (s : State) : State :=
  if s.season.season = .winter ∧ s.power.mainGood ∧ !s.power.disconnected ∧ (s.season.winterCause ∨ s.season.wakeHeld.isSome) then
    whenDue (s.power.mainGoodAt + ms 100) (springBegin (s.season.wakeHeld.getD 3)) s
  else s

end Sys2Proof.Machine
end

