-- ==== Sys2Proof/Machine/BkiOps.lean ====
section
/-!
DEFINITION. Machine/BkiOps.lean: the measurements of the Backstop (R338, R342), its elements (R343 to R345), its outputs (R347), and the switch
of its element banks (R348).
-/
namespace Sys2Proof.Machine
open Sys2Proof

/-- Filter outputs per second (R342). -/
def Bki.fOut (b : Bki) : Nat := if b.presetAct then 800 else 2400

/-- Outputs W of the RMS window (R342). -/
def Bki.win (b : Bki) : Nat := if b.presetAct then (if b.fNomAct then 40 else 16) else if b.fNomAct then 40 else 48

/-- The code of the filter's preset (R149). -/
def Bki.presetCode (b : Bki) : Nat := if b.presetAct then 3 else 1

/-- The shadow element bank replaced. -/
def Bki.withShadow (b : Bki) (t : Tbl ElemSlot) : Bki := if b.bank then { b with bank0 := t } else { b with bank1 := t }

/-- Age of the next output sample (R342). -/
def Bki.nextOut (b : Bki) : Nat := b.outAge (b.outCnt + 1)

/-! ### Measurement -/

/-- Full scale of a Backstop sample in 10 nV (R338). -/
def bkiFull : Int := 1048000000

/-- The Backstop image verifies (R336, R423): its CRC, its signature, and its key's hash in the island's own antifuse copy of slots 0x000 to 0x002,
which holds the same values. -/
def backstopVerified (x : Image) (s : State) : Bool := x.crcOk && x.sigOk && s.ksu.fuseKeys.any fun v => v == x.keyHash

/-- An input sample as converted (R338); with it, whether it is saturated. -/
def bkiSample (x : Int) : Int × Bool := if x > bkiFull then (bkiFull, true) else if x < -bkiFull then (-bkiFull, true) else (x, false)

/-- The output of the filter on its newest input samples (R150, R342). -/
def bkiFir (preset : Nat) (raw : List Int) : Int :=
  (satInt 32 (roundInt (((raw.take (presetTaps preset)).zipIdx.map fun p => firTap preset p.2 * p.1).sum) 32768)).1

/-- The sum of the squares of a window. -/
def sumSq (l : List Int) : Nat := (l.map fun x => x.natAbs * x.natAbs).sum

/-- RMS_UV of a window of `w` outputs of 10 nV, rounded down (R342; log entry 23). -/
def rmsUv (w : Nat) (l : List Int) : Nat := isqrt (sumSq l / (w * 10000))

/-- The window comparator of an input (R507): it sets beyond 13 V of common mode and releases within 12 V. -/
def Bki.cmNext (b : Bki) (k : Nat) (mV : Int) : Bool := decide (13000 < mV.natAbs) || (b.cmOver.getLsbD k && decide (12000 < mV.natAbs))

/-- One input over the samples of an output (R338, R342, R507). Saturated samples, by value or by common mode, are counted. -/
def bkiInput (k : Nat) (xs : List Int) (mV : Int) (s : State) : State :=
  let cm := s.bki.cmNext k mV
  let s := s.modBki fun b => { b with cmOver := setBit b.cmOver k cm }
  if s.bki.inEn.getLsbD k then
    let ys := (slice xs 0 s.bki.decim).map bkiSample
    let sat := if cm then ys.length else (ys.filter fun y => y.2).length
    let s := if sat = 0 then s else bkiCount 3 s sat
    s.modBki fun b =>
      let raw := ((ys.map fun y => y.1).reverse ++ b.raw.get k []).take 95
      let outs := (bkiFir b.presetCode raw :: b.outs.get k []).take b.win
      { b with raw := b.raw.set k raw, outs := b.outs.set k outs, rms := b.rms.set k (rmsUv b.win outs),
               satWin := b.satWin.set k (if sat = 0 then b.satWin.get k 0 - 1 else b.win) }
  else s.modBki fun b => { b with raw := b.raw.del k, outs := b.outs.del k, rms := b.rms.del k, satWin := b.satWin.del k }

/-! ### Elements -/

/-- A quantity an element acts on: the sum of the squares of its window, in 10 nV. -/
abbrev Quantity := Nat

/-- The quantities of an element (R343): one per selected input, or one residual one; none while an input it names is disabled or a window
is not full. -/
def Bki.quantities (b : Bki) (e : ElemSlot) : Option (List Quantity) :=
  let ins := maskList e.inputs
  let ws := ins.map fun k => b.outs.get k []
  if ins = [] ∨ (ins.any fun k => !b.inEn.getLsbD k) ∨ (ws.any fun w => w.length != b.win) then none
  else if (e.type = 2 ∨ e.type = 3) ∧ e.resSrc then some [sumSq ((List.range b.win).map fun i => (ws.map fun w => w.getD i 0).sum)]
  else some (ws.map sumSq)

/-- G is above `num / 1000` of a level in uV. -/
def above (w uv num : Nat) (q : Quantity) : Bool := decide (w * (100 * uv * num) ^ 2 < q * 1000000)

/-- G is below `num / 1000` of a level in uV. -/
def below (w uv num : Nat) (q : Quantity) : Bool := decide (q * 1000000 < w * (100 * uv * num) ^ 2)

/-- An overcurrent element with an inverse or definite characteristic: types 51 and 51N. -/
def ElemSlot.timed (e : ElemSlot) : Bool := e.type == 1 || e.type == 3

/-- START afterwards (R344). -/
def ElemSlot.starts (e : ElemSlot) (w : Nat) (was : Bool) (qs : List Quantity) : Bool :=
  if e.type = 4 then
    let blk := fun q => below w (1000 * e.block) 1000 q
    if e.allPhases then
      (if was then !(qs.any fun q => !below w e.pickup 1050 q || blk q) else qs.all fun q => below w e.pickup 1000 q && !blk q)
    else if was then qs.any fun q => below w e.pickup 1050 q && !blk q
    else qs.any fun q => below w e.pickup 1000 q && !blk q
  else
    let on := if e.timed then 1100 else 1000
    let off := if e.timed then 1045 else 950
    if was then qs.any fun q => above w e.pickup off q else qs.any fun q => above w e.pickup on q

/-- G / Gs in 2^-16, at most 20 (R345; log entry 23). -/
def multiple (w pickup : Nat) (q : Quantity) : Nat := min (20 * 65536) (isqrt (q * 2 ^ 32 / (w * 10000 * pickup * pickup)))

/-- k and c of a curve in 10^-4 (R345). -/
def curveKc (c : Nat) : Nat × Nat :=
  [(0, 0), (1400, 0), (135000, 0), (800000, 0), (1200000, 0), (515, 1140), (196100, 4910), (282000, 1217)].getD c (0, 0)

/-- One more bit of a 50th root: the bit stays if the 50th power does not pass the radicand, m x 2^1984. -/
def rootBit (m y k : Nat) : Nat := if (y + 2 ^ k) ^ 50 ≤ m * 2 ^ 1984 then y + 2 ^ k else y

/-- (G / Gs)^0.02 in 2^-40, rounded down, of G / Gs in 2^-16 (R345): the 50th root, from its bit 40 down. -/
def root50 (m : Nat) : Nat := ((List.range 41).map fun k => 40 - k).foldl (rootBit m) 0

/-- (G / Gs)^alpha - 1 in 2^-40 (R345). -/
def curvePow (c m : Nat) : Nat :=
  (if c = 1 ∨ c = 5 then root50 m else if c = 2 ∨ c = 4 then m * 2 ^ 24 else m * m * 2 ^ 8) - 2 ^ 40

/-- What one output sample adds to the accumulator, in 2^-40: delta / t(G) (R345). -/
def accUp (f tms c m : Nat) : Nat :=
  let p := curvePow c m
  let kc := curveKc c
  2 ^ 40 * 10000000 * p / (f * tms * (kc.1 * 2 ^ 40 + kc.2 * p))

/-- What one output sample takes off under the inverse reset, in 2^-40 (R345). -/
def accDown (f tms c m : Nat) : Nat :=
  let tr := if c = 5 then 485 else if c = 6 then 2160 else 2910
  2 ^ 40 * 100000 * (2 ^ 32 - m * m) / (f * tms * tr * 2 ^ 32)

/-- The accumulator of one quantity after an output sample, with the sample from which G was at or below 1.045 Gs (R345). -/
def accStep (e : ElemSlot) (w f n : Nat) (q : Quantity) (a : Nat) (low : Option Nat) : Nat × Option Nat :=
  let m := multiple w e.pickup q
  let mode := if e.resetMode = 2 ∧ e.curve < 5 then 0 else e.resetMode
  if above w e.pickup 1100 q then (a + accUp f e.tms e.curve m, none)
  else if above w e.pickup 1045 q then (a, none)
  else
    let l := low.getD n
    let a := if mode = 0 then 0
      else if mode = 1 then (if e.resetT * f ≤ (n - l) * 1000 then 0 else a)
      else if mode = 2 ∧ below w e.pickup 1000 q then a - accDown f e.tms e.curve m
      else a
    (a, some l)

/-- An element after an output sample, the `n`-th of its grid (R344, R345). -/
def ElemState.next (x : ElemState) (e : ElemSlot) (w f n : Nat) (qs : List Quantity) : ElemState :=
  let st := e.starts w x.start qs
  let from_ := if x.start then x.startAt else n
  let accs := if e.timed ∧ e.curve ≠ 0 then qs.zipIdx.map fun q => accStep e w f n q.1 (x.accs.getD q.2 0) (x.below.getD q.2 none) else []
  let reached := accs.any fun a => decide (2 ^ 40 ≤ a.1)
  let done := if e.timed ∧ e.curve ≠ 0 then x.trip || reached else decide (e.delay * f ≤ (n - from_) * 1000)
  { start := st, trip := st && done, startAt := from_, accs := accs.map fun a => a.1, below := accs.map fun a => a.2 }

/-- A START interval of a slot ends with the output sample before (R349). -/
def closeSpan (n : Nat) (s : State) : State :=
  s.modBki fun b => { b with spans := b.spans.map fun p => if p.slot = n ∧ p.toNs = none then { p with toNs := some b.outAt } else p }

/-- Slot n's element after an output sample: counted, its START interval kept for the pictures (R349, R364). -/
def elemStep (n : Nat) (e : ElemSlot) (s : State) : State :=
  let b := s.bki
  let x := b.elems.get n {}
  let y := match b.quantities e with
    | some qs => if e.en then x.next e b.win b.fOut b.outCnt qs else {}
    | none => {}
  let s := s.modBki fun b => { b with elems := b.elems.set n y }
  let s := if y.start ∧ !x.start then
      bkiCount 0 (if e.zone < 8 then s.modBki fun b => { b with spans := { slot := n, zone := e.zone, fromNs := s.now } :: b.spans } else s)
    else if x.start ∧ !y.start then closeSpan n s else s
  if y.trip ∧ !x.trip then bkiCount 1 s else s

/-- Some element drives output j (R347). -/
def Bki.tripsOut (b : Bki) (j : Nat) : Bool :=
  b.elems.any fun x => x.2.trip && (b.elemBank.get x.1 {}).btMask.getLsbD j

/-- BT_DRIVE for output j (R347): driven by a TRIP while enabled; held BT_MIN_MS after the last TRIP drops; released at once by BT_EN 0. -/
def btDrive (j : Nat) (s : State) : State :=
  let b := s.bki
  let on := b.btDriven.getLsbD j
  let set := fun (v : Bool) (h : Tbl Nat) => s.modBki fun b => { b with btDriven := setBit b.btDriven j v, btHoldEnd := h }
  if !b.btEn.getLsbD j then set false (b.btHoldEnd.del j)
  else if b.tripsOut j then (if on then set true (b.btHoldEnd.del j) else bkiCount 2 (set true (b.btHoldEnd.del j)))
  else if !on then s
  else if b.btHoldEnd.has j then (if due s (b.btHoldEnd.get j 0) then set false (b.btHoldEnd.del j) else s)
  else set true (b.btHoldEnd.set j (s.now + ms b.btMinMs))

/-- BT_DRIVE for all outputs. -/
def btDriveAll (s : State) : State := (List.range 4).foldl (fun s j => btDrive j s) s

/-- ELEMENT_BANK_SWITCH (R348): a committed shadow bank becomes active and is copied into the new shadow; unchanged slots keep their state,
changed ones start from rest; a change of PRESET or F_NOM restarts every element and its window. -/
def bankSwitch (s : State) : State :=
  if s.bki.commitPend then
    let b := s.bki
    let restart := b.fNom != b.fNomAct || b.preset != b.presetAct
    let same := fun (n : Nat) => !restart && b.elemBank.get n {} == b.shadowBank.get n {}
    let gone := (b.elems.filter fun x => !same x.1).map fun x => x.1
    let s := gone.foldl (fun s n => closeSpan n s) s
    let s := s.modBki fun b =>
      let new := b.shadowBank
      let b := { b with elems := b.elems.filter fun x => same x.1, bank := !b.bank, commitPend := false, fNomAct := b.fNom, presetAct := b.preset }
      let b := { b.withShadow new with copyEnds := s.now + s.free1 % 416667 }
      if restart then { b with outs := [], outCnt := 0, outBase := s.now, gridCyc := 0 } else b
    let s := (bkiCount 13 s).took
    s.modPersist fun p => { p with backstop := s.bki.settings }
  else s

/-- Modulator cycles by which the grid at an output is behind TB, an input period being 2,560 cycles (R339): the distance of TB from the nearest
instant second + n / 4,800 s, positive where the sample came early. -/
def gridLag (tb : Nat) : Int :=
  let x := tb * 4800 % 1000000000
  let e : Int := if 500000000 < x then (x : Int) - 1000000000 else x
  roundInt (-e * 2560) 1000000000

/-- The output grid after this output sample (R339, R342): its count goes on, or begins anew at a change of PRESET or F_NOM, and a grid that
follows TB stretches or shortens input periods by one modulator cycle each, until samples fall on TB's instants. -/
def Bki.nextPeriod (b : Bki) (fresh follows : Bool) (tb : Nat) : Bki :=
  let d := if follows then max (-(b.decim : Int)) (min b.decim (gridLag tb)) else 0
  { b with outCnt := if fresh then 0 else b.outCnt + 1, smpCnt := (b.smpCnt + b.decim - b.smpPast) % 4800, smpPast := 0, gridCyc := b.gridCyc + d }

/-- An output sample of the island (R342, R344, R347 to R349, R358). -/
def bkiOutput (inputs : List (List Int)) (common : List Int) (s : State) : State :=
  let fresh := s.bki.commitPend && (s.bki.fNom != s.bki.fNomAct || s.bki.preset != s.bki.presetAct)
  let s := bankSwitch s
  let s := s.modBki fun b => b.nextPeriod fresh s.bkiFollows s.time.tbNs
  let s := (List.range 8).foldl (fun s k => bkiInput k (inputs.getD k []) (common.getD k 0) s) s
  let old := s.bki.elems
  let s := (List.range 16).foldl (fun s n => elemStep n (s.bki.elemBank.get n {}) s) s
  let s := s.modBki fun b => { b with
    outAt := s.now, spans := b.spans.filter fun p => match p.toNs with | some t => decide (s.now ≤ t + ms 250) | none => true }
  let s := btDriveAll s
  if (s.bki.elems.any fun x => x.2.trip && !(old.get x.1 {}).trip) ∧ s.season.wakeEn.getLsbD 1 then wakeUp 5 s else s

/-- The class of a lockstep mismatch of the island now (R354, R380): F within 60 s of the one before, real or injected. -/
def mismatchClass (s : State) : Nat :=
  match s.bki.lastMismatch with | some t => if s.now < t + sec 60 then 3 else 2 | none => 2

/-- The reaction of the island to a lockstep mismatch (R354): its cores restart while BT0 to BT3 hold; one of class F holds them in reset. -/
def lockstep (inj : Bool) (s : State) : State :=
  let cls := mismatchClass s
  let s := bkiCount 9 (s.modBki fun b => { b with lastMismatch := some s.now })
  let s := if cls = 3 then s else s.modBki fun b => { b with restarting := true, running := false }
  raise { block := .bki, kind := 6, cls := cls, inj := inj } s

end Sys2Proof.Machine
end

