-- ==== Sys2Proof/Machine/Backstop.lean ====
section
/-!
DEFINITION. Machine/Backstop.lean: the commands of the Backstop island (R336 to R354) and its own thermal limit (R508).
-/
namespace Sys2Proof.Machine
open Sys2Proof

/-- AON good from off (R336, R499, R503): every part starts from its reset values; the island runs the image of the bank last marked active, or of the
other one; `ok` says which banks verify. Without a verified image it keeps BT0 to BT3 released and the MGP in reset. With MAIN good already, BYP reads
the head (R5, R106). -/
def aonStarts (ok : List Bool) (slotId : Nat) (s : State) : State :=
  let s := (powerOff s).modPower fun p => { p with aonGood := true, aonOver := false, slotId := slotId % 16 }
  let s := s.modPower fun p => { p with rampAt := s.now }
  let s := if s.power.mainGood then headDetect s.head.present s else s
  let a := b2n s.persist.activeBank
  let run := ok.getD a false || ok.getD (1 - a) false
  s.modBki fun _ => { s.persist.backstop with
    running := run, noImage := !run, bootBank := s.persist.activeBank, image := s.persist.bkiImg.getD (if ok.getD a false then a else 1 - a) {} }

/-- AON_GOOD (R336, R502, R503): above 10.5 V for 10 ms. Above 14.5 V the input is disconnected and treated as lost, until it is below 14.0 V. `okA` and
`okB` say whether the island image of each bank reads as it was written; it must also verify under the island's own antifuse keys (R423). -/
def execAonGood (aon : AonIn) (okB : Bool) (s : State) : Host.Outcome State Fault Refusal :=
  let ok := [aon.okA, okB].zipIdx.map fun x => x.1 && backstopVerified (s.persist.bkiImg.getD x.2 {}) s
  .next (if 14500 < aon.mv then powerOff (s.modPower fun p => { p with aonOver := true })
    else if aon.mv ≤ 10500 ∨ s.power.aonGood ∨ (s.power.aonOver ∧ 14000 ≤ aon.mv) then s
    else aonStarts ok aon.slotId s)

/-- AON_LOST (R503). -/
def execAonLost (s : State) : Host.Outcome State Fault Refusal := .next (powerOff s)

/-- BKI_OUTPUT_SAMPLE (R342, R344). `inputs` holds the new samples of each input in 10 nV, oldest first; `common` their
common-mode voltages in mV (R507). No sample comes while the BI clock stands (R21). -/
def execBkiOutputSample (inputs : List (List Int)) (common : List Int) (s : State) : Host.Outcome State Fault Refusal :=
  .next (if s.bkiConverts then whenDue s.bki.nextOut (fun s => told s (bkiOutput inputs common s)) s else s)

/-- BT_HOLD_END (R347): BT_MIN_MS after the last TRIP dropped. While the cores restart the outputs hold their levels (R354). -/
def execBtHoldEnd (j : Nat) (s : State) : Host.Outcome State Fault Refusal :=
  .next (if s.bki.btHoldEnd.has j ∧ !s.bki.restarting then whenDue (s.bki.btHoldEnd.get j 0) (fun s => told s (btDrive j s)) s else s)

/-- A calibration step that swaps modulators (R340, R341). -/
def calSwap (k : Nat) (s : State) : State :=
  bkiCount 4 (s.modBki fun b => { b with
    served := b.served.set k b.spare, spare := b.served.getD k 0, suspect := setBit b.suspect k false, calNext := (k + 1) % 8, calFails := 0 })

/-- What a failed comparison does to the rotation (R341): the third in a row makes the input SUSPECT. -/
def calFailed (k : Nat) (s : State) : State :=
  let third := decide (2 ≤ s.bki.calFails)
  bkiCount 5 (s.modBki fun b => { b with
    calFails := if third then 0 else b.calFails + 1, suspect := if third then setBit b.suspect k true else b.suspect,
    calNext := if third then (k + 1) % 8 else b.calNext })

/-- A calibration step whose comparison fails (R341): a finding of the BKI. -/
def calFail (k : Nat) (s : State) : State := raise { block := .bki, kind := 9, addr := k } (calFailed k s)

/-- CAL_STEP (R340): `maxDiff` is the largest difference of a pair of samples, in uV. With CAL_EN written 0 the step in progress is the last
(R341). -/
def execCalStep (maxDiff : Nat) (s : State) : Host.Outcome State Fault Refusal :=
  .next (if s.bkiConverts ∧ (s.bki.calEn ∨ s.bki.calLast) then
      whenDue (s.bki.calAt + sec s.bki.calStepS) (fun s =>
        let s := s.modBki fun b => { b with calAt := s.now, calLast := false }
        if maxDiff ≤ 5000 then calSwap s.bki.calNext s else calFail s.bki.calNext s) s
    else s)

/-- LOCKSTEP_MISMATCH (R354): the cores restart while BT0 to BT3 hold; a second mismatch within 60 s is an F-class fault. -/
def execLockstepMismatch (s : State) : Host.Outcome State Fault Refusal :=
  .next (if s.power.aonGood ∧ !s.bki.noImage ∧ !s.bki.coresHeld then lockstep false s else s)

/-- ISLAND_RESTART_DONE (R354, R484): every element starts from rest, pending pictures are abandoned, the heartbeat has a fresh 20 ms. -/
def execIslandRestartDone (s : State) : Host.Outcome State Fault Refusal :=
  .next (if s.bki.restarting ∧ !s.bki.coresHeld then
      let gone := s.bki.elems.map fun x => x.1
      let t := gone.foldl (fun s n => closeSpan n s) s
      let t := t.modOcu fun o => { o with pictures := [] }
      told s (t.modBki fun b => { b with
        restarting := false, running := true, elems := [], outs := [], outCnt := 0, outBase := s.now, gridCyc := 0, hbAt := s.now })
    else s)

/-- BKI_HB_WRITE (R350, R352): a heartbeat is the previously accepted value plus 1. With the first one after a loss, the loss is over (R372). -/
def hbWrite (v : BitVec 32) (s : State) : State :=
  if s.bki.mgpReset then s
  else if v = s.bki.hbValue + 1 then
    conditionEnds .mgp 0 (s.modBki fun b => { b with
      hbValue := v, hbAt := s.now, hbSinceReset := true, hb := if b.hb = 2 then (if b.hbEn then 1 else 0) else if b.hbEn ∧ b.hb = 0 then 1 else b.hb })
  else bkiCount 6 s

/-- BKI_HB_WRITE (R350). A write at the instant of the loss comes too late (R9). -/
def execBkiHbWrite (value : BitVec 32) (s : State) : Host.Outcome State Fault Refusal :=
  .next (if s.bki.hb = 1 ∧ due s (s.bki.hbAt + ms 20) then s else told s (hbWrite value s))

/-- HEARTBEAT_LOST (R350 to R352). -/
def execHeartbeatLost (s : State) : Host.Outcome State Fault Refusal :=
  .next (if s.island ∧ s.bki.hb = 1 then
      whenDue (s.bki.hbAt + ms 20) (fun s => raise { block := .mgp, kind := 12, cls := 3, persist := true } (bkiCount 7 s)) s
    else s)

/-- MGP_BOOT_TIMEOUT (R352, R360): no heartbeat within 5 s of the reset release. -/
def execMgpBootTimeout (s : State) : Host.Outcome State Fault Refusal :=
  .next (if s.island ∧ !s.bki.mgpReset ∧ !s.bki.hbSinceReset then whenDue (s.bki.mgpResetAt + sec 5) mgpRestart s else s)

/-- CLM_HOLD is cleared by a firmware that has sent a heartbeat (R353). -/
def clmHoldClr (s : State) : State :=
  if s.bki.hbSinceReset ∧ s.bki.hb ≠ 2 ∧ s.bki.hb ≠ 3 then told s (s.modBki fun b => { b with clmHold := false }) else s

/-- CLM_HOLD_CLR (R353). -/
def execClmHoldClr (s : State) : Host.Outcome State Fault Refusal := .next (clmHoldClr s)

/-- A write of COMMIT (R348): a second one before the first applies is ignored. -/
def bkiCommit (s : State) : State := s.modBki fun b => { b with commitPend := true }

/-- BKI_COMMIT_WRITE (R348). -/
def execBkiCommitWrite (s : State) : Host.Outcome State Fault Refusal := .next (if s.bki.coresHeld ∨ s.bki.noImage then s else bkiCommit s)

/-- BKI_THERMAL_RESET (R508): above 135 C the island holds the module in reset as if AON were lost. -/
def execBkiThermalReset (temp : Int) (s : State) : Host.Outcome State Fault Refusal := .next (if 135 < temp then powerOff s else s)

end Sys2Proof.Machine
end

