-- ==== Sys2Proof/Machine/Claim.lean ====
section
/-!
DEFINITION. Machine/Claim.lean: the claim line (R250 to R255), the roles at a round's end (R249, R253, R265), CLM_EN, and the loss of the
time base's clock and of the oscillator reference (R21, R255, R281).
-/
namespace Sys2Proof.Machine
open Sys2Proof

/-- OUT only because CLM_EN was 0, with CLM_EN now 1: the unit takes part with its own claim and takes its role at the round's end (R249).
A module that reads unit ID 0 stays OUT (R247). -/
def Cgu.joins (c : Cgu) : Bool := c.role == .out && c.clmEn && !c.outHard && c.unitId != 0

/-- The module drives its claim in a round: every role but OUT, and a unit that joins (R249, R254). -/
def Cgu.drivesClaim (c : Cgu) : Bool := c.role != .out || c.joins

/-- A round begins on a wire now, unless one is in progress there (R251). -/
def Wire.begin_ (w : Wire) (now : Nat) (claim : BitVec 32) (drives : Bool) : Wire :=
  if w.round.active then w else { w with round := { active := true, start := now, claim := claim, drives := drives } }

/-- Rounds begin on the wires of a list (R251). -/
def beginRounds (ws : List Nat) (s : State) : State :=
  s.modCgu fun c => { c with wires := ws.foldl (fun l k => lmod l k fun w => w.begin_ s.now c.ownClaim c.drivesClaim) c.wires }

/-- The module can run rounds: CLM_EN is 1 (R250) and a bit timer runs (R255). -/
def Cgu.timed (c : Cgu) : Bool := c.clmEn && !c.noTiming

/-- The latest start edge the CGU has timed, from which the fallback timer counts (R255). -/
def Cgu.lastStart (c : Cgu) : Nat := c.wires.foldl (fun m w => max m w.round.start) 0

/-- The first TB instant from `n` ns on that is a multiple of 500 us (R251). -/
def roundInstant (n : Nat) : Nat := (n + us 500 - 1) / us 500 * us 500

/-- CLAIM_ROUND_START (R251, R255): at a TB instant that is a multiple of 500 us; on the fallback timer 500 us after the last start edge. -/
def execClaimRoundStart (s : State) : Host.Outcome State Fault Refusal :=
  .next (if s.cgu.timed then
      (if s.cgu.osc then whenDue (s.cgu.lastStart + us 500) (beginRounds [0, 1]) s
       else whenTb (roundInstant s.time.tbNs) (beginRounds [0, 1]) s)
    else s)

/-- CLAIM_ROUND_JOIN (R251): a wire becomes dominant outside a round. -/
def execClaimRoundJoin (wire : Nat) (s : State) : Host.Outcome State Fault Refusal :=
  .next (if s.cgu.timed ∧ wire < 2 then beginRounds [wire] s else s)

/-- The 36 bits a module drives in a round (R251, R254). -/
def Wire.bits36 (w : Wire) (unit : Nat) : Nat := if w.round.drives then w.round.claim.toNat * 16 + unit else 0

/-- The 36 bits it sees. -/
def RoundSeen.bits36 (r : RoundSeen) : Nat := r.claim.toNat * 16 + r.unit % 16

/-- What a round gave on a wire (R252): 0 WON, 1 LOST, 2 FAULT. The 36 bits the module drove are compared with the 36 it saw, which are the
highest driven: seeing less than it drove is a dominant bit sampled recessive. -/
def roundResult (unit : Nat) (w : Wire) (r : RoundSeen) : Nat :=
  if r.fault || decide (r.bits36 < w.bits36 unit) then 2 else if w.bits36 unit < r.bits36 then 1 else 0

/-- The sample point, after the start edge, of the first bit in which two rounds' 36 bits differ (R251): round bit k at k + 0.75 us. -/
def lostPoint (mine seen : Nat) : Nat := us (36 - Nat.log2 (Nat.xor mine seen)) + 750

/-- The age at which the module records LOST on a wire whose round is in progress (R252, R253), if it does and has not yet. -/
def Wire.losesAt (w : Wire) (unit : Nat) (r : RoundSeen) : Option Nat :=
  if r.inRound && w.round.active && !w.round.lost && !w.disregard && decide (w.bits36 unit < r.bits36) then
    some (w.round.start + lostPoint (w.bits36 unit) r.bits36)
  else none

/-- A wire at the end of its round (R252, R253): a FAULT disregards it until the end of its 8th round in a row without one, and that round's
own result already counts. -/
def Wire.close (w : Wire) (res : Nat) : Wire :=
  let clean := if res = 2 then 0 else w.clean + 1
  let dis := res == 2 || (w.disregard && decide (clean < 8))
  { w with result := if dis then 2 else res, last := res, disregard := dis, clean := clean, round := { w.round with active := false, lost := false } }

/-- The round of wire k ends (R252, R276, R277). -/
def closeWire (k : Nat) (r : RoundSeen) (s : State) : State :=
  match s.cgu.wires[k]? with
  | none => s
  | some w =>
    if r.inRound && w.round.active then
      let res := roundResult s.cgu.unitId w r
      let x := w.close res
      let s := s.modCgu fun c => { c with
        wires := c.wires.set k x, lastUnit := if x.disregard then c.lastUnit else r.unit % 16,
        lastClaim := if x.disregard then c.lastClaim else r.claim }
      if res = 2 then raise { block := .cgu, kind := 9, addr := k } (cguCount (2 + k) s)
      else if res = 1 && !x.disregard then winFalls s
      else s
    else s

/-- The wires that count in the evaluation of WIN (R253). -/
def Cgu.counting (c : Cgu) : List Wire := c.wires.filter fun w => !w.disregard && w.result != 3

/-- Own claim and unit ID are above the partner's, as it reports them (R253). -/
def State.aboveReported (s : State) : Bool :=
  decide (s.mlk.word.claim.toNat * 16 + s.mlk.word.unit < s.cgu.ownClaim.toNat * 16 + s.cgu.unitId)

/-- WIN as the end of a round evaluates it (R253). `inRole`: the role is not OUT, or is taken at this round's end. -/
def State.winNow (s : State) (inRole : Bool) : Bool :=
  let ws := s.cgu.counting
  inRole && (if ws = [] then (if s.partnerGone then s.cgu.win else s.aboveReported) else ws.all fun w => w.result == 0)

/-- The role of a winner (R249). -/
def State.wonRole (s : State) : Role := if s.partnerGone then .alone else .active

/-- A takeover ends in the round that carried the new claim (R265). -/
def takeoverEnds (s : State) : State :=
  if s.cgu.win then
    let s := setRole s.wonRole (s.modCgu fun c => { c with tripOn := true })
    endSwitch .ok (note .cgu 0 0x302 0 .none (leBytes 4 s.cgu.ownClaim.toNat) (reexamine (cguCount 9 s)))
  else
    endSwitch .aborted (note .cgu 0 0x303 0 .none (leBytes 4 s.cgu.ownClaim.toNat) (reexamine (setRole .standby s)))

/-- The former active has lost the round: it is STANDBY, and a switch-back request it holds has been carried out (R265, R273). -/
def stepsBack (s : State) : State :=
  let h := s.mlk.swHeld
  let s := setRole .standby (s.modMlk fun m => { m with swHeld := none })
  match h with
  | some x => switchRecord 0 (opDone x.2.2 .ok [] s)
  | none => s

/-- The roles at a round's end (R249, R265). `carried`: the round that ended was driven with the claim in force. -/
def settleRole (joins carried : Bool) (s : State) : State :=
  match s.cgu.role with
  | .out => if joins then
      (if s.cgu.win then setRole s.wonRole (s.modCgu fun c => { c with tripOn := true }) else setRole .standby s) else s
  | .taking => if carried then takeoverEnds s else s
  | .standby => if s.cgu.win then startTakeover s else s
  | _ => if s.cgu.win then setRole s.wonRole (s.modCgu fun c => { c with tripOn := true }) else stepsBack s

/-- The wires whose rounds a command ends. -/
def Cgu.ended (c : Cgu) (r0 r1 : RoundSeen) : List Wire :=
  ((c.wires.zip [r0, r1]).filter fun p => p.1.round.active && p.2.inRound).map fun p => p.1

/-- The end of a round of one wire or of both (R252, R253, R265). -/
def endRound (r0 r1 : RoundSeen) (s : State) : State :=
  let ws := s.cgu.ended r0 r1
  let drove := ws.any fun w => w.round.drives
  let carried := ws.any fun w => w.round.drives && w.round.claim == s.cgu.ownClaim
  let s := cguCount 0 (closeWire 1 r1 (closeWire 0 r0 s))
  let lost := ((s.cgu.wires.zip [r0, r1]).filter fun p => p.2.inRound && !p.1.disregard && p.1.last == 1) != []
  let s := if lost then cguCount 1 s else s
  let joins := s.cgu.joins && drove
  let win := s.winNow (s.cgu.role != .out || joins)
  settleRole joins carried (s.modCgu fun c => { c with win := win, tripOn := c.tripOn && win })

/-- The first sample point at which a round loses (R253), of those still to be recorded. -/
def Cgu.losesAt (c : Cgu) (r0 r1 : RoundSeen) : Option Nat :=
  ((c.wires.zip [r0, r1]).filterMap fun p => p.1.losesAt c.unitId p.2).min?

/-- LOST is recorded on the wires whose sample point has come: WIN falls and the TRIP outputs go off (R253). -/
def recordLost (r0 r1 : RoundSeen) (s : State) : State :=
  let mark := fun (w : Wire) => { w with round := { w.round with lost := true } }
  let lost := fun (p : Wire × RoundSeen) => (p.1.losesAt s.cgu.unitId p.2).any fun a => decide (a ≤ s.now)
  winFalls (s.modCgu fun c => { c with wires := (c.wires.zip [r0, r1]).map fun p => if lost p then mark p.1 else p.1 })

/-- CLAIM_ROUND_END (R251 to R254). In a round that is lost the first such command, if it comes before the end, takes the sample point of the
lost bit, where WIN falls (R253; log entry 110); the round ends 40 us after its start edge. -/
def execClaimRoundEnd (r0 r1 : RoundSeen) (s : State) : Host.Outcome State Fault Refusal :=
  let ws := s.cgu.ended r0 r1
  let end_ := ws.foldl (fun m w => max m w.round.start) 0 + us 40
  .next (if s.cgu.timed && ws != [] then
      match s.cgu.losesAt r0 r1 with
      | some a => if s.now < end_ then whenDue a (recordLost r0 r1) s else whenDue end_ (endRound r0 r1) s
      | none => whenDue end_ (endRound r0 r1) s
    else s)

/-- CLM_EN 0 (R249, R276): OUT at once, nothing driven. -/
def clmOff (s : State) : State :=
  becomeOut false (s.modCgu fun c => { c with clmEn := false, wires := c.wires.map fun w => { w with round := { w.round with active := false } } })

/-- CLM_EN written (R249, R276). -/
def clmWrite (v : Bool) (s : State) : State := if v then s.modCgu fun c => { c with clmEn := true } else clmOff s

/-- A write of CLM_EN is blocked: CLM_HOLD is 1 (R351), or the unit's ID is in use by the partner and CLM_EN would rise (R248). -/
def clmBlocked (value : Bool) (s : State) : Bool := s.bki.clmHold || (value && s.cgu.idConflict.isSome)

/-- CLM_EN_WRITE (R248, R249, R351). -/
def execClmEnWrite (value : Bool) (s : State) : Host.Outcome State Fault Refusal :=
  .next (if clmBlocked value s then s else clmWrite value s)

/-- The claim line has no bit timing (R255): WIN falls, both wires are released, and the unit becomes OUT whatever the partner's state. -/
def timingLost (s : State) : State :=
  becomeOut true (s.modCgu fun c => { c with
    noTiming := true, wires := c.wires.map fun w => { w with round := { w.round with active := false } } })

/-- TB_CLOCK_STOP (R21, R214, R255, R281): the age counter, the clusters' frames and the claim line go over to the oscillator reference; an
F-class fault of the TBU. -/
def execTbClockStop (s : State) : Host.Outcome State Fault Refusal :=
  .next (if s.time.tbStopped then s
    else
      let s := s.modTime fun t => { t with tbStopped := true }
      let s := (List.range 8).foldl (fun s k => s.setPsc k fun p => { p with aligned := false }) s
      let s := if s.time.oscFailed then timingLost s else s.modCgu fun c => { c with osc := true }
      raise { block := .tbu, kind := 5, cls := 3, persist := true } s)

/-- OSCILLATOR_FAIL (R255, R281): the reference that the fallbacks use. -/
def execOscillatorFail (s : State) : Host.Outcome State Fault Refusal :=
  .next (let s := s.modTime fun t => { t with oscFailed := true }
    if s.time.tbStopped then timingLost s else s)

end Sys2Proof.Machine
end

