-- ==== Sys2Proof/Machine/Egress.lean ====
section
/-!
DEFINITION. Machine/Egress.lean: the egress formatter and the claim gate (R236 to R240, R256).
-/
namespace Sys2Proof.Machine
open Sys2Proof

/-- An egress descriptor as the instance wrote it (R237). -/
structure EgDesc where
  /-- OWN. -/
  own : Bool
  /-- CTRL. -/
  ctrl : Bool
  /-- AUTH. -/
  auth : Bool
  /-- TS. -/
  ts : Bool
  /-- TRIP_SENSE. -/
  sense : Nat
  /-- PLAUS_ZONE. -/
  zone : Nat
  /-- PORT_MASK. -/
  ports : BitVec 8
  /-- KEY_SLOT. -/
  key : Nat
  /-- PCP. -/
  pcp : Nat
  /-- VID. -/
  vid : Nat
  /-- FRAME_LEN. -/
  len : Nat
  /-- FRAME_ADDR. -/
  addr : Nat
deriving DecidableEq, Repr

/-- The descriptor that 32 octets hold (R10, R237). -/
def egDesc (l : List Byte) : EgDesc :=
  let v := leNat l
  let b := fun i => fld v i i == 1
  { own := b 255, ctrl := b 254, auth := b 253, ts := b 252, sense := fld v 251 250, zone := fld v 249 246,
    ports := BitVec.ofNat 8 (fld v 245 238), key := fld v 237 228, pcp := fld v 227 225, vid := fld v 224 213, len := fld v 207 192,
    addr := fld v 191 160 }

/-- The descriptor at the head of a queue. -/
def headDesc (i : Nat) (q : EgQueue) (s : State) : EgDesc := egDesc (lsRead i (q.addr + 32 * (q.head % q.size)) 32 s)

/-- The EGF may take the descriptor at the head of a queue: it has been handed over by a doorbell and is owned (R236). -/
def EgQueue.ready (i : Nat) (q : EgQueue) (s : State) : Bool := q.head != q.tail && (headDesc i q s).own

/-- BADDESC (R237, R238): a refused value, or a frame outside the local store. A frame that is not aligned is refused too (log
entry 17). -/
def EgDesc.bad (x : EgDesc) (d : Inst) : Bool :=
  x.sense == 3 || (decide (8 ≤ x.zone) && decide (x.zone ≤ 14)) || x.ports == 0 || decide (x.len < 14) || x.addr % 64 != 0
    || !d.inLs x.addr x.len

/-- The key slot serves the instance for authentication (R238, R407, R420). -/
def Slot.authUse (k : Slot) (i g : Nat) : Bool :=
  !k.byMgp && k.owner == i && k.ownerGen == g && k.valid && !k.unusable && (k.use == 1 || (k.use == 2 && decide (k.invCount < 2 ^ 64 - 1)))

/-- The pad of slot n's cell under the boot mask (R413): the permutation key in its high half, the AES key in its low half. -/
def Ksu.pad (k : Ksu) (n : Nat) : BitVec 256 := Config.cellPad (k.bootMask.setWidth 256) (Config.cellIndex (k.bootMask.extractLsb' 256 256) n)

/-- The value of slot n, unmasked (R413). -/
def State.slotValue (s : State) (n : Nat) : BitVec 256 := (s.slot n).cell ^^^ s.ksu.pad n

/-- Octets of the authentication value (R405, R418). -/
def tagOctets (tag : Nat) : Nat := [8, 10, 16, 32].getD tag 0

/-- The initialisation vector of a slot (R419, R420): AES-GMAC only, SALT then INV_COUNT. -/
def Slot.iv (k : Slot) : List Byte := if k.use = 2 then beBytes 4 k.salt.toNat ++ beBytes 8 k.invCount else []

/-- The authentication value over what the MAC covers (R406, R418, R419): HMAC-SHA-256, or AES-GMAC under the low 128 bits of the value. -/
def Slot.authValue (k : Slot) (key : BitVec 256) (iv covered : List Byte) : List Byte :=
  (if k.use = 2 then beBytes 16 (Config.gmac (key.setWidth 128) iv covered).toNat else beBytes 32 (Config.mac 1 key covered).toNat).take (tagOctets k.tag)

/-- A frame with its authentication extension (R239 step 4, R419): after the APDU, with Length and Reserved 1 and 2 filled. The MAC covers the frame
from APPID up to the authentication value. Where there is no APDU it ends the content (log entry 8). -/
def withExtension (f : List Byte) (k : Slot) (key : BitVec 256) (trailer : List Byte) : List Byte :=
  let n := tagOctets k.tag
  let elems := Config.extElems k.keyId k.iv trailer n
  let e := (apduEnd f).getD (f.length - trailer.length)
  let o := etherOff f
  let f1 := f.take e ++ elems
  let f2 := putAt (putAt f1 (o + 4) (beBytes 2 (Config.headerLength (e - (o + 2)) (elems.length + n)))) (o + 7) (beBytes 1 (elems.length + n))
  let f3 := putAt f2 (o + 8) (beBytes 2 (Config.reserved2 f2))
  f3 ++ k.authValue key k.iv (f3.drop (o + 2)) ++ f.drop e

/-- The frame as it is stored (R239 steps 1 to 4). -/
def egFormat (f : List Byte) (x : EgDesc) (s : State) : List Byte :=
  let f := if x.auth then f.take ((apduEnd f).getD f.length) else f
  let f := f ++ List.replicate (60 - f.length) 0
  let t := if x.ctrl then beBytes 8 (claimTrailer s.cgu.ownClaim s.cgu.unitId).toNat else []
  let f := f ++ t
  if x.auth then withExtension f (s.slot x.key) (s.slotValue x.key) t else f

/-- The completion status of a descriptor (R238), in the order of its table. -/
def egStatus (i g : Nat) (x : EgDesc) (f stored : List Byte) (s : State) : Nat :=
  let d := s.inst i
  if x.bad d then 7
  else match sourceCheck d f x.vid x.pcp with
    | some c => c
    | none =>
      if x.ctrl && !(etherType f == gooseType && (gooseKey f).isSome) then 8
      else if x.auth && !(s.slot x.key).authUse i g then 9
      else if (maskList x.ports).any fun k => decide ((s.port k).maxFrame < stored.length + portAdds k x.vid s + 4) then 10
      else if admits d.useEgress (cellsOf (stored.length + 4)) d.share.egress then 0
      else 6

/-- A descriptor completed (R236, R237): STATUS, EG_SEQ and TS_SEQ, then OWN cleared; the head moves on. -/
def egComplete (i q : Nat) (e : EgQueue) (status tsSeq : Nat) (ts : Bool) (s : State) : State :=
  let a := e.addr + 32 * (e.head % e.size)
  let s := lsWrite i (a + 19) [BitVec.ofNat 8 status] s
  let s := lsWrite i (a + 12) (leBytes 4 e.seq) s
  let s := if ts then lsWrite i (a + 8) (leBytes 4 tsSeq) s else s
  let s := lsWrite i (a + 31) ((lsRead i (a + 31) 1 s).map fun b => b &&& 0x7F) s
  s.modEg fun z => { z with queues := z.queues.set (2 * i + q) { e with head := (e.head + 1) % 65536, seq := (e.seq + 1) % 2 ^ 32 } }

/-- A frame given its extension (R420, R427): SIGNED, INV_COUNT, and INV_EXHAUSTED where the slot's count reaches its end. -/
def keySigned (n : Nat) (s : State) : State :=
  let c := (s.slot n).invCount
  s.modKsu fun k =>
    let live := bump k.live 0
    { k with live := if c + 1 = 2 ^ 64 - 1 then bump live 12 else live,
             slots := k.slots.mod n {} fun y => { y with invCount := satAdd 64 y.invCount 1 } }

/-- A frame that passes R238 is stored with its copies, each gated; a control frame also goes to the own OCU and to the partner (R239
steps 5 and 6, R15). -/
def egSend (i g q : Nat) (e : EgQueue) (x : EgDesc) (f stored : List Byte) (s : State) : State :=
  let claim := s.cgu.ownClaim.toNat
  let o := s.time.owners.get i {}
  let (ports, s) := redPorts (maskList x.ports) s
  let proto : TxCopy := { ts := x.ts, inst := some (i, g), egSeq := e.seq, tsSeq := o.seq, egq := q }
  let ds := sendDests ports x.pcp proto x.ctrl claim s ++ mirrorDests none (ports.map (·.1)) none 0 s
  let s := if x.ts then s.modTime fun t => { t with owners := t.owners.mod i {} fun o => { o with seq := (o.seq + ports.length) % 2 ^ 32 } } else s
  let s := if x.auth then keySigned x.key s else s
  let s := refreshOver i (storeCharged (some (i, g)) (builtFrame stored x.pcp x.vid s) ds s)
  if x.ctrl then
    let c : OcuCopy := { octets := f, pcp := x.pcp, vid := x.vid, sense := x.sense, zone := x.zone, inst := i }
    let s := s.modOcu fun z => { z with ctrlIn := z.ctrlIn ++ [c] }
    if s.laneUp then mlkCount 0 (s.modMlk fun m => { m with copiesOut := m.copiesOut ++ [c] }) else s
  else s

/-- EGRESS_DOORBELL (R236). -/
def execEgressDoorbell (inst gen queue tail : Nat) (s : State) : Host.Outcome State Fault Refusal :=
  .next (if inst < 512 ∧ queue < 2 then egressDoorbell inst gen queue tail s else s)

/-- EGRESS_DESCRIPTOR (R236 to R239): the next owned descriptor of a queue; queue 1 waits while queue 0 holds one. -/
def execEgressDescriptor (inst queue : Nat) (s : State) : Host.Outcome State Fault Refusal :=
  .next (match s.egq inst queue with
    | none => s
    | some e =>
      let first := queue == 0 || !(match s.egq inst 0 with | some z => z.ready inst s | none => false)
      if inst < 512 && decide (queue < 2) && first && e.ready inst s then
        let x := headDesc inst e s
        let g := (s.inst inst).gen
        let f := lsRead inst x.addr x.len s
        let stored := egFormat f x s
        let st := egStatus inst g x f stored s
        let tsSeq := (s.time.owners.get inst {}).seq
        if st = 0 then egComplete inst queue e 0 tsSeq x.ts (egSend inst g queue e x f stored s)
        else
          let s := if 1 ≤ st ∧ st ≤ 5 then spoofed inst g st s
            else if st = 6 then s.setInst inst fun d => { d with noCredit := satAdd 32 d.noCredit 1 }
            else s
          egComplete inst queue e st 0 false s
      else s)

/-- CGU_GATE (R256): the oldest copy of a port that waits before the gate. -/
def execCguGate (port : Nat) (s : State) : Host.Outcome State Fault Refusal :=
  .next (match s.cgu.gate.find? fun g => g.port == port with
    | some g => gateOne g (s.modCgu fun c => { c with gate := c.gate.erase g })
    | none => s)

end Sys2Proof.Machine
end

