-- ==== Sys2Proof/Machine/Fabric.lean ====
section
/-!
DEFINITION. Machine/Fabric.lean: arbiters (R36 to R46, R49 to R52), transfer timeouts (R30), scrubbing (R58, R61, R62), core
accesses (R182 to R184) and late completions (R30, R194), supply excursions (R33) and stopped island clocks (R21).
-/
namespace Sys2Proof.Machine
open Sys2Proof

/-- Requesters of arbiter k (R36, R366). -/
def arbReq (k : Nat) : Nat := if k < 16 then 25 else if k < 24 then 13 else if k < 32 then 5 else if k = 32 then 25 else 4

/-- Compatibility mode is available (R36): the DRAM bank-group arbiters and the mailbox engine. -/
def arbCompat (k : Nat) : Bool := decide (16 ≤ k ∧ k < 24) || k == 32

/-- The reset priority of requester i of arbiter k (R36). -/
def arbPrio0 (k i : Nat) : Nat :=
  if k < 16 then (if i < 20 then 12 else [13, 8, 14, 4, 2].getD (i - 20) 0)
  else if k < 24 then (if i < 8 then 10 else [6, 8, 12, 6, 2].getD (i - 8) 0)
  else if k < 32 then (if i < 4 then 12 else 2)
  else if k = 32 then (if i < 16 then 8 else if i < 24 then 10 else 15)
  else [14, 12, 6, 4].getD i 0

/-- Arbiter k at reset. -/
def Arbiter.reset (k : Nat) : Arbiter := { prio := (List.range (arbReq k)).map (arbPrio0 k) }

/-- Arbiter k. -/
def State.arb (s : State) (k : Nat) : Arbiter := s.fab.arbs.get k (Arbiter.reset k)

/-- Arbiter k replaced. -/
def State.setArb (s : State) (k : Nat) (a : Arbiter) : State := s.modFab fun x => { x with arbs := x.arbs.set k a }

/-- Among the requesters `c`, the first in ascending order after `last`, wrapping (R38). -/
def roundRobin (n last : Nat) (c : List Nat) : Option Nat :=
  ((List.range n).map fun j => (last + 1 + j) % n).find? fun i => c.contains i

/-- The winner among the requesters considered: highest priority, then round-robin (R38). -/
def Arbiter.pick (a : Arbiter) (n : Nat) (c : List Nat) : Option Nat :=
  let top := (c.map fun i => a.prio.getD i 0).foldl max 0
  roundRobin n a.lastWinner (c.filter fun i => a.prio.getD i 0 == top)

/-- The requesters considered at a decision, and the spent list they are judged by (R38, R44). In compatibility mode requesters with
a reservation that wait come first, the oldest reservation first (R45). -/
def Arbiter.considered (a : Arbiter) : List Nat × List Nat :=
  let w := a.waiting.map fun r => r.idx
  if a.mode then (w, a.spent)
  else
    let u := w.filter fun i => !a.spent.contains i
    if u = [] then (w, []) else (u, a.spent)

/-- The requester that a decision grants. -/
def Arbiter.winner (a : Arbiter) (n : Nat) : Option Nat :=
  let c := a.considered.1
  if a.mode then
    match a.reserved.find? fun i => c.contains i with
    | some i => some i
    | none => a.pick n c
  else a.pick n c

/-- A back-off answer in compatibility mode (R44, R45): the request is lowered, raised again after 8 ns times 2^n, and the tenth in a
row makes a reservation. -/
def Arbiter.backOff (a : Arbiter) (now i : Nat) : Arbiter :=
  let n := a.consec.get i 0 + 1
  { a with consec := a.consec.set i n, backoffs := satAdd 32 a.backoffs 1, backoffEnd := a.backoffEnd.set i (now + 8 * 2 ^ min n 10),
           waiting := a.waiting.filter fun r => r.idx ≠ i,
           reserved := if n = 10 ∧ !a.reserved.contains i then a.reserved ++ [i] else a.reserved }

/-- A requester is granted `beats` beats, at most 16 (R40): the longest wait is kept (R51), a native grant spends it (R38), a grant
clears its back-offs and its reservation (R44, R45). Compatibility mode leaves the spent marks as they stand, for the return to native mode
(log entry 143). -/
def Arbiter.grant (a : Arbiter) (i beats : Nat) : Arbiter :=
  let wt := ((a.waiting.find? fun r => r.idx == i).map fun r => r.waited).getD 0
  { a with holder := i, busy := true, parked := false, lastWinner := i, beatsLeft := min beats 16,
           spent := if a.mode then a.spent else if a.spent.contains i then a.spent else a.spent ++ [i],
           waiting := a.waiting.filter fun r => r.idx ≠ i,
           waitMax := if wt > a.waitMax then min wt 65535 else a.waitMax, waitWho := if wt > a.waitMax then i else a.waitWho,
           consec := a.consec.del i, reserved := a.reserved.filter fun j => j ≠ i }

/-- Requests raised: new ones join those waiting (R37), but no request of a requester in back-off, which is lowered (R44); those that wait
already have waited out what was left of the transfer in progress when they were raised. -/
def Arbiter.raised (a : Arbiter) (n : Nat) (rs : List ArbWait) : Arbiter :=
  let old := a.waiting.map fun r => { r with waited := r.waited + (a.beatsLeft - r.since), since := 0 }
  let new := rs.filter fun r => decide (r.idx < n) && !(a.waiting.any fun q => q.idx == r.idx) && !a.backoffEnd.has r.idx
  { a with waiting := old ++ new }

/-- A written MODE takes effect (R46): a switch clears every back-off count and reservation. Writing the mode in force is no switch. -/
def Arbiter.modeTaken (a : Arbiter) : Arbiter :=
  match a.modeNext with
  | some m => if m = a.mode then { a with modeNext := none } else { a with mode := m, modeNext := none, consec := [], reserved := [] }
  | none => a

/-- One decision (R37, R38, R44, R45): with nobody waiting the grant stays parked on its last owner (R39). -/
def Arbiter.decide1 (a : Arbiter) (n now beats : Nat) : Arbiter :=
  let a := a.modeTaken
  match a.winner n with
  | none => { a with busy := false, parked := true, beatsLeft := 0 }
  | some w =>
    let others := a.considered.1.filter fun i => i ≠ w
    let a := { a with spent := a.considered.2 }
    let g := a.grant w beats
    if a.mode then others.foldl (fun a i => a.backOff now i) g else g

/-- ARBITER_DECISION (R37, R38, R40, R44, R45, R51). -/
def execArbiterDecision (arb : Nat) (raised : List ArbWait) (beats : Nat) (s : State) : Host.Outcome State Fault Refusal :=
  .next (if arb < 37 then s.setArb arb (((s.arb arb).raised (arbReq arb) raised).decide1 (arbReq arb) s.now beats) else s)

/-- The parked owner's transfer, resolved against coincident requests (R39): if it wins it runs as a grant and they wait; otherwise the
parked grant is withdrawn and a decision is taken at once. A written MODE takes effect with either (log entry 143). -/
def Arbiter.parkedStart (a : Arbiter) (n now : Nat) (rs : List ArbWait) (ownerWins : Bool) (beats : Nat) : Arbiter :=
  if a.parked then
    if rs = [] ∨ ownerWins then (a.modeTaken.grant a.lastWinner beats).raised n (rs.map fun r => { r with waited := 0 })
    else ({ a with parked := false }.raised n rs).decide1 n now beats
  else a

/-- PARKED_TRANSFER_START (R39). -/
def execParkedTransferStart (arb : Nat) (raised : List ArbWait) (ownerWins : Bool) (beats : Nat) (s : State) :
    Host.Outcome State Fault Refusal :=
  .next (if arb < 37 then s.setArb arb ((s.arb arb).parkedStart (arbReq arb) s.now raised ownerWins beats) else s)

/-- The requests whose back-off ends at an instant are raised again together (R44); `past` beats of the transfer in progress are over. The
wait of R51 starts again with them (log entry 143). -/
def Arbiter.returned (a : Arbiter) (at_ past : Nat) : Arbiter :=
  let back := a.backoffEnd.filter fun p => p.2 = at_
  { a with backoffEnd := a.backoffEnd.filter fun p => p.2 ≠ at_,
           waiting := a.waiting ++ back.map fun p => { idx := p.1, since := if a.busy then min past a.beatsLeft else 0 } }

/-- BACKOFF_EXPIRY (R44): the requests whose back-off ends at that instant return; with no transfer in progress a decision among them is
taken at once (R37). -/
def execBackoffExpiry (arb idx : Nat) (beats : ArbBeats) (s : State) : Host.Outcome State Fault Refusal :=
  let a := s.arb arb
  .next (if a.backoffEnd.has idx then
      whenDue (a.backoffEnd.get idx 0) (fun s =>
        let a1 := a.returned (a.backoffEnd.get idx 0) beats.past
        s.setArb arb (if a1.busy then a1 else a1.decide1 (arbReq arb) s.now beats.beats)) s
    else s)

/-- A written MODE (R46, R49): taken at the next decision by a capable arbiter. -/
def Arbiter.writeMode (a : Arbiter) (k : Nat) (mode : Bool) : Arbiter :=
  if arbCompat k then { a with modeNext := some mode } else a

/-- ARB_CTL_MODE_WRITE (R46). -/
def execArbCtlModeWrite (arb : Nat) (mode : Bool) (s : State) : Host.Outcome State Fault Refusal :=
  .next (s.setArb arb ((s.arb arb).writeMode arb mode))

/-- The transfer timeout of a block in us (R30), 10 us to 10 ms. -/
def timeoutOf (b : BlockId) (u : Nat) (s : State) : Nat := max 10 (min 10000 (s.fab.timeoutUs.get (setKey b u) 100))

/-- An operation completes with an error status (R30, R58). -/
def opFails (o : PendingOp) (s : State) : State :=
  s.modFab fun x => { x with
    failed := (x.failed.filter fun p => !(p.block == o.block && p.unit == o.unit && p.tag == o.tag)) ++ [{ o with error := true }] }

/-- The same operation, outstanding since before its timeout (R30, R35). -/
def pendingAs (block : BlockId) (unit tag : Nat) (o : PendingOp) : Bool := o.block == block && o.unit == unit && o.tag == tag

/-- TRANSFER_TIMEOUT (R30): the block stops waiting, completes the operation with an error status and records a K-class fault against its
owner; the handshake stays pending. -/
def execTransferTimeout (block : BlockId) (unit tag : Nat) (owner : Master) (waitedUs : Nat) (s : State) :
    Host.Outcome State Fault Refusal :=
  .next (if timeoutOf block unit s ≤ waitedUs then
      let o : PendingOp := { block := block, unit := unit, tag := tag, owner := owner, started := s.now - us waitedUs, released := true,
                             acc := (s.fab.ops.find? (pendingAs block unit tag)).bind PendingOp.acc }
      raise { block := block, unit := unit, kind := 4, owner := owner, access := 5 }
        (opFails o (s.modFab fun x => { x with ops := (x.ops.filter fun p => !pendingAs block unit tag p) ++ [o] }))
    else s)

/-- The block that finds an error in a word of a location, its unit, and the class of an uncorrectable word there (R58). A DRAM granule
lies on the channel of its number's parity (log entry 15). An uncorrectable word of the island's SRAM is of class F (R354). -/
def MemLoc.finder (l : MemLoc) : BlockId × Nat × Nat :=
  match l with
  | .buffer _ => (.swc, 0, 2) | .link b u _ _ _ => (b, u, 2) | .localStore _ => (.inx, 0, 2)
  | .dram g => (.dmc, g % 2, 2)
  | .dcache c _ => (.inx, c, 2) | .icache c => (.inx, c, 1) | .context _ => (.sce, 0, 2) | .stream _ => (.stb, 0, 2)
  | .fwd _ => (.stb, 0, 2) | .record _ => (.evr, 0, 2) | .slot _ => (.ksu, 0, 2) | .mgpMem => (.mgp, 0, 3) | .mgpDram => (.mgp, 0, 3)
  | .bkiMem => (.bki, 0, 3)

/-- The kind of storage of a location (R55). The destination block of a link word is coded by its ID of R366 (DESIGN CHOICE, log entry 167). -/
def MemLoc.storage (l : MemLoc) : Storage :=
  match l with
  | .link b _ _ _ beat => .link b.id beat
  | .dram _ => .dram
  | .mgpDram => .dram
  | _ => .sram

/-- The address that a location's finding reports. -/
def MemLoc.addr : MemLoc → Nat
  | .buffer n => n | .link _ _ _ _ _ => 0 | .localStore g => g * 16384 | .dram g => g * 2097152 | .dcache _ _ => 0 | .icache _ => 0
  | .context n => n | .stream n => n | .fwd n => n | .record q => q | .slot n => n | .mgpMem => 0 | .mgpDram => 0 | .bkiMem => 0

/-- The data of a word of a location (R53): the octets that the state holds of it, least significant first, else what the word itself names. -/
def MemLoc.data (l : MemLoc) (w : WordRead) (s : State) : BitVec 128 :=
  match l with
  | .buffer f => BitVec.ofNat 128 (leNat (slice (s.stored f).octets (16 * w.off) 16))
  | .localStore g => BitVec.ofNat 128 (leNat (s.insts.lsMem.read (g * lsGran + 16 * (w.off % 1024)) 16))
  | .dram g => BitVec.ofNat 128 (leNat (s.insts.dramMem.read (g * dramGran + 16 * (w.off % 131072)) 16))
  | .slot n => BitVec.ofNat 128 ((s.slot n).cell.toNat / 2 ^ (128 * (w.off % 2)))
  | _ => w.data

/-- The word of a location as its reader's decoder meets it (R53 to R56). -/
def MemLoc.seen (l : MemLoc) (w : WordRead) (s : State) : CodeRead :=
  w.seen l.storage (l.addr + 16 * w.off) (l.data w s)

/-- The instance that an owner tag names is halted with cause 2 (R184). -/
def haltOwner (tag : Nat) (s : State) : State := if 1 ≤ tag ∧ tag ≤ 512 then halt (tag - 1) 2 s else s

/-- What an uncorrectable word does to what it held (R58, R184): the frame is dropped where it would leave, the operation completes with an
error, the owner of local store, DRAM or a data cache line is halted, the context's outputs are invalid, the entry is invalidated, the record
reads as damaged, the key slot is unusable. An instruction cache line is fetched again. -/
def damage (l : MemLoc) (s : State) : State :=
  match l with
  | .buffer f => s.modSw fun w => if w.store.has f then { w with store := w.store.mod f {} fun x => { x with crcOk := false } } else w
  | .link b u t o _ => opFails { block := b, unit := u, tag := t, owner := o, started := s.now } s
  | .localStore g => haltOwner (s.insts.lsOwner.get g 0) s
  | .dram g => haltOwner (s.insts.dramOwner.get g 0) s
  | .dcache _ i => halt i 2 s
  | .context n => s.modSce fun c => { c with ctxs := c.ctxs.mod n {} fun x => { x with bad := true } }
  | .stream n => s.setStream n fun e => { e with invalid := true }
  | .fwd n => s.setFwd n fun e => { e with invalid := true }
  | .record q => s.modEvr fun e => { e with ring := e.ring.map fun r => if r.seq = q then { r with damaged := true } else r }
  | .slot n => s.modKsu fun k => { k with
      slots := k.slots.mod n {} fun x => if x.valid then { x with unusable := true, damagedAt := if x.volatile then none else some s.now }
        else x }
  | .icache _ => s
  | .mgpMem => s
  | .mgpDram => s
  | .bkiMem => s

/-- A word of a location is read (R56, R58, R379) for the block `src`, or by the finding block itself: the finding of its block, and the end of
an injection that acted, where a real finding has not aborted it (R381). -/
def readWord (l : MemLoc) (w : WordRead) (access : Nat) (owner : Master) (s : State) (src : Option (BlockId × Nat) := none) :
    ReadFound × State :=
  let f := l.finder
  let r := readFound f.1 f.2.1 (l.seen w s) s
  (r, readDone f.1 f.2.1 (raiseRead f.1 f.2.1 f.2.2 access (l.addr + 16 * w.off) owner r s src))

/-- A word is beyond correction: uncorrectable, poisoned or wrong-address (R58). -/
def ReadFound.lost (r : ReadFound) : Bool := match r.syn.kind with | some 0 => false | some _ => true | none => false

/-- A word that a block has found uncorrectable and passes on over the fabric (R57): it encodes the word as received, poisoned, and the block
that receives it reports it as poisoned. -/
def passPoisoned (dest : BlockId) (unit access addr : Nat) (owner : Master) (r : ReadFound) (s : State) : State :=
  let st := Storage.link dest.id 0
  raiseRead dest unit 2 access addr owner
    { syn := decodeWord { word := poison (st.codeword 0 r.syn.data), addr := st.symbols 0 }, inj := r.inj } s

/-! ### Core accesses -/

/-- The window of the guest map that holds a whole access (R182). -/
inductive Window where
  | ls | ctrl | locks | dram
deriving DecidableEq, Repr

/-- The window of an access of `n` octets; none outside the map. -/
def Inst.window (d : Inst) (a n : Nat) : Option Window :=
  if d.inLs a n then some .ls
  else if 0x1000000 ≤ a ∧ a + n ≤ 0x1001000 then some .ctrl
  else if 0x1001000 ≤ a ∧ a + n ≤ 0x1002000 then some .locks
  else if d.inDram a n then some .dram
  else none

/-- The ACCESS code of a core access (R383). -/
def CoreAcc.code (c : CoreAcc) : Nat := if c.fetch then 3 else if c.write then 2 else 1

/-- An isolation violation (R183): the access is refused, the instance stops and is HALTED with cause 3, and the target records a K-class
fault. -/
def isolation (i g core : Nat) (c : CoreAcc) (b : BlockId) (u : Nat) (s : State) : State :=
  raise { block := b, unit := u, kind := 7, access := c.code, source := some (.inx, core / 8), owner := .inst i g, addr := c.addr }
    (halt i 3 s)

/-- The block that answers for a granule of a window, and its unit (R183). -/
def Window.target (w : Window) (g core : Nat) : BlockId × Nat :=
  match w with
  | .dram => (.dmc, g % 2)
  | .locks => (.lck, 0)
  | _ => (.inx, core / 8)

/-- The physical address of an access (R182): by the granule map, or in the granule that a translation table reaches instead (R183). -/
def CoreAcc.phys (c : CoreAcc) (w : Window) (d : Inst) : Nat :=
  match w, c.via with
  | .dram, some g => g * dramGran + (c.addr - dramBase) % dramGran
  | .dram, none => d.dramPhys c.addr
  | _, some g => g * lsGran + c.addr % lsGran
  | _, none => d.lsPhys c.addr

/-- The granule size of a window. -/
def Window.gran (w : Window) : Nat := if w = .dram then dramGran else lsGran

/-- The physical granules that an access reaches, in address order (R182, R183): those of its octets, by the granule map or from the granule
that a translation table reaches on. -/
def CoreAcc.granules (c : CoreAcc) (w : Window) (d : Inst) : List Nat :=
  let p := c.phys w d
  (List.range ((p % w.gran + max 1 c.octets.length - 1) / w.gran + 1)).map fun k =>
    if c.via.isSome then p / w.gran + k else { c with addr := c.addr + k * w.gran }.phys w d / w.gran

/-- The owner tag of a granule (R183). -/
def ownerTag (w : Window) (g : Nat) (s : State) : Nat :=
  if w = .dram then s.insts.dramOwner.get g 0 else s.insts.lsOwner.get g 0

/-- The first granule of an access whose owner tag does not name the requesting instance (R183). -/
def CoreAcc.foreign (c : CoreAcc) (w : Window) (i : Nat) (s : State) : Option Nat :=
  (c.granules w (s.inst i)).find? fun g => ownerTag w g s != i + 1

/-- Where the memory word of an access lies, and where its reader finds it: in a cache of the core or in the memory itself (R58). -/
def CoreAcc.locs (c : CoreAcc) (w : Window) (core i p : Nat) : MemLoc × MemLoc :=
  let mem : MemLoc := if w = .dram then .dram (p / dramGran) else .localStore (p / lsGran)
  (mem, if c.cached then (if c.fetch then .icache (core / 8) else .dcache (core / 8) i) else mem)

/-- The octets that a read returns: those of the word as it leaves the decoder, then the memory behind it. -/
def CoreAcc.result (c : CoreAcc) (w : Window) (i : Nat) (data : BitVec 128) (s : State) : List Byte :=
  let n := c.octets.length
  let o := c.addr % 16
  let k := min n (16 - o)
  let rest :=
    if c.via.isSome then (if w = .dram then s.insts.dramMem else s.insts.lsMem).read (c.phys w (s.inst i) + k) (n - k)
    else if w = .dram then dramRead i (c.addr + k) (n - k) s else lsRead i (c.addr + k) (n - k) s
  slice (leBytes 16 data.toNat) o k ++ rest

/-- The 128 data bits of the memory word that an access meets first. -/
def CoreAcc.data (c : CoreAcc) (w : Window) (core i : Nat) (s : State) : BitVec 128 :=
  let p := c.phys w (s.inst i)
  (c.locs w core i p).1.data { c.word with off := p % w.gran / 16 } s

/-- What the decoder before the core finds in that word (R56). -/
def CoreAcc.found (c : CoreAcc) (w : Window) (core i : Nat) (s : State) : ReadFound :=
  let p := c.phys w (s.inst i)
  let l := (c.locs w core i p).2
  readFound l.finder.1 l.finder.2.1 (c.word.seen l.storage (p / 16 * 16) (c.data w core i s)) s

/-- The octets of a write, through the granule map or into the granule that `via` names. -/
def CoreAcc.store (c : CoreAcc) (w : Window) (i p : Nat) (s : State) : State :=
  if c.via.isSome then
    s.modInsts fun n => if w = .dram then { n with dramMem := n.dramMem.write p c.octets } else { n with lsMem := n.lsMem.write p c.octets }
  else if w = .dram then dramWrite i c.addr c.octets s
  else lsWrite i c.addr c.octets s

/-- An access to memory: the word is decoded (R56); one beyond correction ends the slot and halts the instance with cause 2 (R184), but an
instruction cache line is fetched again (R58). What the DRAM controller finds so it passes on to the cluster poisoned (R57). A write is done, a
read answers. -/
def memDone (i g core : Nat) (c : CoreAcc) (w : Window) (s : State) : State :=
  let p := c.phys w (s.inst i)
  let f := (c.locs w core i p).2.finder
  let data := c.data w core i s
  let r := c.found w core i s
  let s := readDone f.1 f.2.1 (raiseRead f.1 f.2.1 f.2.2 c.code c.addr (.inst i g) r s (some (.inx, core / 8)))
  if r.lost && !(c.cached && c.fetch) then
    halt i 2 (if f.1 = .dmc then passPoisoned .inx (core / 8) c.code c.addr (.inst i g) r s else s)
  else if c.write then c.store w i p s
  else answer i [leNat (c.result w i (if r.lost then data else r.syn.data) s)] s

/-- The access as it waits at the crossing: its address is translated already, where it lies in one granule. -/
def CoreAcc.parked (c : CoreAcc) (d : Inst) : CoreAcc :=
  match c.granules .dram d with
  | [g] => { c with via := some g }
  | _ => c

/-- An access to memory. While the clock of the DRAM interface stands, one that the caches do not hold waits at its crossing (R21). -/
def memAccess (i g core : Nat) (c : CoreAcc) (w : Window) (s : State) : State :=
  if w = .dram ∧ !c.cached ∧ !s.clockUp .dmc then
    s.modFab fun x => { x with
      ops := x.ops ++ [{ block := .inx, unit := core / 8, tag := core, owner := .inst i g, started := s.now, acc := some (c.parked (s.inst i)) }] }
  else memDone i g core c w s

/-! ### Late completions -/

/-- A handshake that was outstanding completes without reaching a consumer where its operation was timed out or its generation is over (R30,
R177): its word is absorbed and counted in FLT_LATE, and for a stale generation in the owner's LATE_DISCARDS. Any other simply completes. -/
def absorbLate (o : PendingOp) (s : State) : State :=
  let absorbed := s.modFab fun x => { x with discarded := x.discarded + 1 }
  let timedOut := absorbed.setFset o.block o.unit fun f => { f with late := satAdd 32 f.late 1 }
  match o.owner with
  | .inst i g => if !s.genCurrent i g then lateAt o.block o.unit i absorbed else if o.released then timedOut else s
  | _ => if o.released then timedOut else s

/-- A core access that waited at the crossing of the DRAM interface meets its target (R21, R194): an access in flight of a live generation is
done as any other; of one that was timed out or is over a write still completes, within what the owner tags allow, and read data are late. -/
def parkedDone (o : PendingOp) (c : CoreAcc) (s : State) : State :=
  match o.owner with
  | .inst i g =>
    if s.genCurrent i g && !o.released then
      (match c.foreign .dram i s with
      | some x => isolation i g o.tag c .dmc (x % 2) s
      | none => memDone i g o.tag c .dram s)
    else
      let s := if c.write && (c.foreign .dram i s).isNone then c.store .dram i (c.phys .dram (s.inst i)) s else s
      absorbLate o s
  | _ => s

/-- An outstanding operation completes. -/
def opCompletes (o : PendingOp) (s : State) : State :=
  match o.acc with
  | some c => parkedDone o c s
  | none => absorbLate o s

/-- The accesses that wait at the crossing of the DRAM interface complete, oldest first, once its clock runs again (R21). -/
def crossingOpens (s : State) : State :=
  (s.fab.ops.filter fun o => o.acc.isSome).foldl (fun s o => opCompletes o s)
    (s.modFab fun x => { x with ops := x.ops.filter fun o => o.acc.isNone })

/-- LATE_COMPLETION (R30, R177, R194): an outstanding handshake completes. One that waits at a crossing whose clock stands does not (R21). -/
def execLateCompletion (block : BlockId) (unit tag : Nat) (s : State) : Host.Outcome State Fault Refusal :=
  .next (match s.fab.ops.find? (pendingAs block unit tag) with
    | none => s
    | some o =>
      if o.acc.isSome && !s.clockUp .dmc then s
      else opCompletes o (s.modFab fun x => { x with ops := x.ops.filter fun p => !pendingAs block unit tag p }))

/-- SCRUB_WORD (R61, R62): the word is read; a correctable one is corrected and counted, an uncorrectable one acts as its location says.
A correction is written back only if the word is unchanged, which leaves the data as they are. -/
def execScrubWord (loc : MemLoc) (word : WordRead) (changed overdue : Bool) (s : State) : Host.Outcome State Fault Refusal :=
  let f := loc.finder
  let r := readWord loc word 1 .none s
  let s2 := if r.1.lost && !changed then damage loc r.2 else r.2
  .next (if overdue then raise { block := f.1, unit := f.2.1, kind := 10, cls := 1 } s2 else s2)

/-- RAIL_UNDERVOLTAGE (R33): below 0.70 V for more than 10 us an F-class fault, between 0.70 and 0.72 V a C-class event. -/
def execRailUndervoltage (rail : Rail) (mv us : Nat) (s : State) : Host.Outcome State Fault Refusal :=
  .next (if mv < 700 then
      (if 10 < us then raise { block := .pmc, kind := 11, cls := 3, persist := true } (railBad rail s) else s)
    else if mv < 720 then raise { block := .pmc, kind := 10, cls := 1 } s
    else s)

/-- The blocks and units that own a clocked island (R20, R21). -/
def Island.owners : Island → List (BlockId × Nat)
  | .pcsA => [(.prt, 0), (.prt, 1), (.prt, 2), (.prt, 3)] | .pcsB => [(.prt, 4), (.prt, 5)] | .mlk => [(.mlk, 0)]
  | .cu => [(.prt, 6), (.prt, 7)] | .dmc => [(.dmc, 0), (.dmc, 1)] | .bi => [(.bki, 0)] | .pci => [(.pci, 0)]

/-- What stops with an island's clock (R21, R374): its ports go down and are held out; its lanes carry nothing and are declared down
once they have delivered no status for 1 ms (R271); the host link is down while the clock of its island is stopped (`State.pciUp`). -/
def islandStops (i : Island) (s : State) : State :=
  match i with
  | .mlk => s.modMlk fun m => { m with lanes := m.lanes.map fun l => { l with up := false, goodFrom := none } }
  | .pci => s
  | _ => i.owners.foldl (fun s o => match o.1 with
      | .prt => (portDown o.2 s).setPort o.2 fun p => { p with holdOut := true }
      | _ => s) s

/-- ISLAND_CLOCK_STOP (R21): a K-class fault of each owning block, with PERSIST at 1. -/
def execIslandClockStop (island : Island) (s : State) : Host.Outcome State Fault Refusal :=
  let s := s.modFaults fun f => { f with clocks := f.clocks.set island.num true }
  .next (islandStops island (island.owners.foldl (fun s o => raise { block := o.1, unit := o.2, kind := 5, persist := true } s) s))

/-- ISLAND_CLOCK_RESTART (R372): PERSIST falls where no other condition is present, and the quiet period starts; a held-out port is tried again
at its end (R374), and what waited at the crossing of the DRAM interface goes on (R21). -/
def execIslandClockRestart (island : Island) (s : State) : Host.Outcome State Fault Refusal :=
  .next (if s.faults.clocks.get island.num false then
      let s := island.owners.foldl (fun s o => conditionEnds o.1 o.2 s) (s.modFaults fun f => { f with clocks := f.clocks.set island.num false })
      if island = .dmc then crossingOpens s else s
    else s)

end Sys2Proof.Machine
end

