-- ==== Sys2Proof/Machine/Faulting.lean ====
section
/-!
DEFINITION. Machine/Faulting.lean: the commands of the fault sets (R372 to R381): the end of a quiet period, injections, and the
first-error record.
-/
namespace Sys2Proof.Machine
open Sys2Proof

/-- A fault set exists. -/
def isSet (b : BlockId) (u : Nat) : Bool := decide (u < b.units)

/-- QUIET_PERIOD_END (R372 to R374). A BKI whose cores are held leaves fault state only at a cold start. -/
def execQuietPeriodEnd (block : BlockId) (unit : Nat) (s : State) : Host.Outcome State Fault Refusal :=
  let x := s.fset block unit
  .next (if isSet block unit ∧ x.state ∧ !x.persist ∧ !(block = .bki ∧ s.bki.coresHeld) then
      whenDue x.quietEnd (leaveFault block unit) s
    else s)

/-- The injectable kinds with their modes (R379): kinds 0 to 3 at the next decoded read, kinds 4, 6, 9 and 10 at once. -/
def injectable (kind : Nat) (mode : Bool) : Bool :=
  if mode then kind == 4 || kind == 6 || kind == 9 || kind == 10 else decide (kind ≤ 3)

/-- The class a finding of a kind has at a block now (R58, R367, R380). -/
def injClass (b : BlockId) (kind : Nat) (s : State) : Nat :=
  if kind = 0 ∨ kind = 10 then 1
  else if kind = 6 then (if b = .mgp then 3 else if b = .bki then mismatchClass s else 2)
  else if (b = .mgp ∨ b = .bki) ∧ kind ≤ 3 then 3 else 2

/-- What an injected PROTOCOL finding takes out of service at its location (R380), which of two lanes or wires being open (log entry 122): P0 or P1 held down
(R5), P0 and P1 without coil current (R104), a lane declared down (R271), a wire disregarded (R252). -/
def injProtocol (b : BlockId) (u : Nat) (s : State) : State :=
  let n := s.free1 % 2
  match b with
  | .prt => if u < 2 then (portDown u s).setPort u fun p => { p with holdOut := true } else s
  | .byp => ((portDown 1 (portDown 0 (coilOff s))).setPort 0 fun p => { p with attach := 3 }).setPort 1 fun p => { p with attach := 3 }
  | .mlk =>
    if s.mlk.enabledAt.isSome ∧ !(s.mlk.lanes.getD n {}).failed then
      mlkCount 8 (((countMissed s).took).modMlk fun m => { m with lanes := lmod m.lanes n Lane.down })
    else s.took
  | .cgu => cguCount (2 + n) (s.took.modCgu fun c => { c with wires := lmod c.wires n Wire.faulted })
  | _ => s

/-- A MODE 1 injection makes its finding at once, with ACCESS 0 and ADDR 0 and the full reaction at its location (R379, R380): that of R354 or
R341 in the island, those of `injProtocol`. -/
def injectNow (b : BlockId) (u kind : Nat) (s : State) : State :=
  let f : Finding := { block := b, unit := u, kind := kind, cls := injClass b kind s, inj := true }
  let s := if f.counts then leaveDue b u s else s
  if b = .bki ∧ kind = 6 then lockstep true s
  else if b = .bki ∧ kind = 9 then raise f (calFailed s.bki.calNext s)
  else if kind = 9 then
    let t := injProtocol b u s
    raise { f with persist := t.persists b u && !s.persists b u } t
  else if b = .byp ∧ kind ≠ 10 then raise f (injProtocol .byp 0 s)
  else raise f s

/-- A write of FLT_INJ (R379): ARM at 0 disarms; a write that names another kind or mode, or a PATTERN of 0, or that arrives while an
injection is armed, leaves it unchanged. -/
def writeInj (b : BlockId) (u : Nat) (arm mode : Bool) (kind pos : Nat) (pattern : BitVec 8) (s : State) : State :=
  let x := s.fset b u
  if !arm then s.setFset b u fun x => { x with injArm := false, injState := if x.injArm then 0 else x.injState }
  else if x.injArm ∨ !injectable kind mode ∨ pattern = 0 ∨ 17 < pos then s
  else
    let s := s.setFset b u fun x => { x with
      injArm := !mode, injMode := mode, injState := if mode then 2 else 1, injKind := kind, injPos := pos, injPattern := pattern, injAt := s.now }
    if mode then injectNow b u kind s else s

/-- FLT_INJ_WRITE (R379, R383). -/
def execFltInjWrite (block : BlockId) (unit : Nat) (value : BitVec 32) (s : State) : Host.Outcome State Fault Refusal :=
  .next (if isSet block unit then
      writeInj block unit (bitOf value 31) (bitOf value 30) (bits value 27 24) (bits value 17 13) (BitVec.ofNat 8 (bits value 7 0)) s
    else s)

/-- INJECTION_TIMEOUT (R379): a MODE 0 injection that found no read within 1 s ends aborted. -/
def execInjectionTimeout (block : BlockId) (unit : Nat) (s : State) : Host.Outcome State Fault Refusal :=
  let x := s.fset block unit
  .next (if isSet block unit ∧ x.injArm then
      whenDue (x.injAt + sec 1) (fun s => s.setFset block unit fun x => { x with injArm := false, injState := 3 }) s
    else s)

/-- A read of FE_CODE copies the other FE registers into the read buffer (R378). -/
def readFeCode (b : BlockId) (u : Nat) (s : State) : State := s.setFset b u fun x => { x with feBuf := x.fe }

/-- FE_CODE_READ (R378). -/
def execFeCodeRead (block : BlockId) (unit : Nat) (s : State) : Host.Outcome State Fault Refusal :=
  .next (if isSet block unit then readFeCode block unit s else s)

/-- REARM (R375, R376): FE_VALID and OVERFLOW are cleared; ignored in LATCH. -/
def rearm (b : BlockId) (u : Nat) (s : State) : State :=
  s.setFset b u fun x => if x.captureAct then x else { x with feValid := false, overflow := false }

/-- REARM_WRITE (R375, R376). -/
def execRearmWrite (block : BlockId) (unit : Nat) (s : State) : Host.Outcome State Fault Refusal :=
  .next (if isSet block unit then rearm block unit s else s)

end Sys2Proof.Machine
end

