-- ==== Sys2Proof/Machine/Instances.lean ====
section
/-!
DEFINITION. Machine/Instances.lean: the commands of instances: accesses of their cores (R182 to R184), the ends of resets, removals
and creations (R179, R185, R193 to R198), granules (R180, R192), and the lock unit (R199 to R205).
-/
namespace Sys2Proof.Machine
open Sys2Proof

/-! ### Core accesses -/

/-- CORE_ACCESS (R181 to R184, R200): an access that the slot running on a core makes. A privileged operation that traps is an isolation
violation, as is an access outside the map or to a granule with another owner tag. A lock word is reached by a 32-bit access at 8 x j; other
accesses of the lock page read 0 and change nothing (log entry 97). An ECALL with an unknown call number is answered BAD_OPCODE (R457). -/
def execCoreAccess (core : Nat) (acc : CoreAcc) (s : State) : Host.Outcome State Fault Refusal :=
  .next (if core < 64 ∧ (s.psc (core / 8)).cores.has (core % 8) then
      let r := (s.psc (core / 8)).cores.get (core % 8) { entry := 0, inst := 0, gen := 0, hart := 0, a2 := 0 }
      let i := r.inst
      if !s.genCurrent i r.gen then lateAt .inx (core / 8) i s
      else if acc.call.isSome then (if acc.call.any fun n => decide (3 < n) then answer i [Status.badOpcode.code] s else s)
      else if acc.trap then isolation i r.gen core acc .inx (core / 8) s
      else
        let d := s.inst i
        match d.window acc.addr acc.octets.length with
        | none => isolation i r.gen core acc .inx (core / 8) s
        | some .ctrl =>
          let off := (acc.addr - 0x1000000) / 4 * 4
          if acc.write then ctrlWrite i r.gen off (BitVec.ofNat 32 (leNat acc.octets)) s else answer i [ctrlRead i off s] s
        | some .locks =>
          let j := (acc.addr - 0x1001000) / 8
          if acc.addr % 8 ≠ 0 ∨ acc.octets.length ≠ 4 then (if acc.write then s else answer i [0] s)
          else if acc.write then lockRelease (.inst i r.gen) j (BitVec.ofNat 32 (leNat acc.octets)) s
          else let x := lockTry (.inst i r.gen) core j s; answer i [x.1] x.2
        | some w =>
          match acc.foreign w i s with
          | some g => let t := w.target g core; isolation i r.gen core acc t.1 t.2 s
          | none => memAccess i r.gen core acc w s
    else s)

/-! ### Reset, removal, quarantine, creation -/

/-- AUTO_RESET (R185): the firmware resets an instance halted with cause 2 or 3, at most three times in any 3,600 s; a further such halt
stays and is told to the host, once. A replacement of its image holds the reset (R485). -/
def execAutoReset (inst : Nat) (s : State) : Host.Outcome State Fault Refusal :=
  let d := s.inst inst
  .next (if inst < 512 ∧ d.state = .halted ∧ (d.cause = 2 ∨ d.cause = 3) ∧ d.autoReset ∧ s.persist.fwUp ∧ !d.exhausted then
      let ts := d.resetTimes.filter fun t => decide (s.now < t + sec 3600)
      if 3 ≤ ts.length then emitInst inst true (s.setInst inst fun d => { d with exhausted := true })
      else
        let s := s.setInst inst fun d => { d with resetTimes := ts ++ [s.now] }
        if s.persist.replacing.any fun r => r.inst == inst then
          s.modPersist fun p => { p with replacing := p.replacing.map fun r =>
            if r.inst = inst ∧ r.held = [] then { r with held := [(false, none, false)] } else r }
        else beginReset inst false false none s
    else s)

/-- INSTANCE_RESET_COMPLETE (R193, R196): once the engines hold no work of the old generation. -/
def execInstanceResetComplete (inst : Nat) (s : State) : Host.Outcome State Fault Refusal :=
  .next (if inst < 512 ∧ (s.inst inst).state = .resetting ∧ !(s.inst inst).removing ∧ s.persist.fwUp ∧ !engineWork inst s then resetEnds inst s else s)

/-- INSTANCE_REMOVAL_COMPLETE (R193): likewise. -/
def execInstanceRemovalComplete (inst : Nat) (s : State) : Host.Outcome State Fault Refusal :=
  .next (if inst < 512 ∧ (s.inst inst).state = .resetting ∧ (s.inst inst).removing ∧ s.persist.fwUp ∧ !engineWork inst s then removalEnds inst s else s)

/-- INSTANCE_QUARANTINE_END (R197). -/
def execInstanceQuarantineEnd (inst : Nat) (s : State) : Host.Outcome State Fault Refusal :=
  .next (if inst < 512 ∧ (s.inst inst).state = .quarantine then
      whenDue (s.inst inst).quarEnd (fun s => emitInst inst false (s.setInst inst fun d => { d with state := .free })) s
    else s)

/-- CREATE_COMPLETE (R179). -/
def execCreateComplete (inst : Nat) (s : State) : Host.Outcome State Fault Refusal :=
  .next (match s.insts.creating.find? fun c => c.num == inst with
    | some c => if s.persist.fwUp then creationEnds c s else s
    | none => s)

/-! ### Granules -/

/-- GRANULE_CLEARED (R180): a released granule holds zero and is back in its pool. A DRAM granule waits while the clock of the DRAM interface
stands (R21). -/
def execGranuleCleared (dram : Bool) (granule : Nat) (s : State) : Host.Outcome State Fault Refusal :=
  .next (if dram then
      (if s.clockUp .dmc ∧ s.insts.dramClearing.contains granule then
        clearDram [granule] (s.modInsts fun n => { n with dramClearing := n.dramClearing.filter (· ≠ granule) })
       else s)
    else if s.insts.lsClearing.contains granule then
      clearLs [granule] (s.modInsts fun n => { n with lsClearing := n.lsClearing.filter (· ≠ granule) })
    else s)

/-- RELEASE (R192, R457): granules given back from the top of a window, unless one of them holds something registered. -/
def execRelease (inst gen kind count : Nat) (s : State) : Host.Outcome State Fault Refusal :=
  let d := s.inst inst
  let n := if kind = 0 then d.lsMap.length else d.dramMap.length
  .next (if !s.genCurrent inst gen then lateAt .mgp 0 inst s
    else if 1 < kind then answer inst [(Status.badParam 0).code, 0] s
    else if n < count then answer inst [(Status.badParam 1).code, n] s
    else if kind = 0 ∧ meetsRegistered inst ((n - count) * lsGran) (count * lsGran) true s then answer inst [(Status.state 0).code, n] s
    else
      let s :=
        if kind = 0 then lsGive (d.lsMap.drop (n - count)) (s.setInst inst fun d => { d with lsMap := d.lsMap.take (n - count) })
        else dramGive (d.dramMap.drop (n - count)) (s.setInst inst fun d => { d with dramMap := d.dramMap.take (n - count) })
      answer inst [Status.ok.code, n - count] (refreshOver inst s))

/-! ### Locks -/

/-- LOCK_TRY_ACQUIRE (R199 to R202, R204): the reader receives the word of R201. -/
def execLockTryAcquire (who : Master) (hart j : Nat) (s : State) : Host.Outcome State Fault Refusal :=
  let r := lockTry who hart j s
  .next (match who with
    | .inst i g => if s.genCurrent i g then answer i [r.1] r.2 else r.2
    | .mgp => r.2.modInsts fun x => { x with mgpTry := r.1 }
    | .none => s)

/-- LOCK_RELEASE (R200, R202, R204). -/
def execLockRelease (who : Master) (j : Nat) (value : BitVec 32) (s : State) : Host.Outcome State Fault Refusal :=
  .next (lockRelease who j value s)

/-- LCK_ASSIGN_WRITE (R205). -/
def execLckAssignWrite (lock : Nat) (value : BitVec 32) (s : State) : Host.Outcome State Fault Refusal :=
  .next (if lock < 256 then writeAssign lock (bitOf value 31) (bitOf value 30) (bits value 29 21) (bits value 20 17) s else s)

end Sys2Proof.Machine
end

