-- ==== Sys2Proof/Machine/Recorder.lean ====
section
/-!
DEFINITION. Machine/Recorder.lean: the commands of the event recorder (R389 to R398): the writer and its buckets, cursors, the save area.
-/
namespace Sys2Proof.Machine
open Sys2Proof

/-- The detail of a SUPPRESSION record (R390). -/
def suppDetail (code : Nat) (b : Bucket) : List Byte :=
  leBytes 2 code ++ leBytes 2 0 ++ leBytes 4 b.suppCount ++ leBytes 8 b.suppFirst ++ leBytes 8 b.suppLast ++ leBytes 4 b.suppLost

/-- A bucket with its kept count cleared (R390). -/
def Bucket.clearSupp (b : Bucket) : Bucket :=
  { b with suppCount := 0, suppFirst := 0, suppLast := 0, suppLost := 0, suppCls := 0, lossFrom := none }

/-- The SUPPRESSION record of a code, where occurrences were suppressed and the ring is not frozen (R390). -/
def writeSuppression (code : Nat) (s : State) : State :=
  let b := s.evr.bucket code
  if b.suppCount = 0 ∨ s.evr.frozen then s
  else
    let s := writeRecord (s.occ .evr 0 0x000 b.suppCls .none (suppDetail code b)) s
    s.modEvr fun e => { e with buckets := e.buckets.set code b.clearSupp, live := bump e.live 3 }

/-- A token is regained at `t` (R389); the interval of the next one begins there. -/
def Bucket.refill (b : Bucket) (t : Nat) : Bucket :=
  { b with tokens := b.tokens + 1, refillAt := if b.tokens + 1 < b.burst then some (t + us b.intervalUs) else none }

/-- A token regained, and the SUPPRESSION record of the code (R389, R390). -/
def refillCode (code t : Nat) (s : State) : State :=
  writeSuppression code (s.modEvr fun e => { e with buckets := e.buckets.set code ((e.bucket code).refill t) })

/-- A refill that is due comes before an occurrence at the same instant (R389); `n` bounds their number. -/
def refillsDue (code : Nat) : Nat → State → State
  | 0, s => s
  | n + 1, s =>
    match (s.evr.bucket code).refillAt with
    | some t => if t ≤ s.now then refillsDue code n (refillCode code t s) else s
    | none => s

/-- How a bucket treats an occurrence (R389). -/
inductive BucketPass where
  | bypass | pass | token | suppress | off
deriving DecidableEq, Repr

/-- The treatment of an occurrence by the bucket of its code (R389). -/
def Evr.treat (e : Evr) (r : EvrRec) : BucketPass :=
  let b := e.bucket r.code
  if r.bypasses then .bypass
  else if !e.limitEn ∨ b.mode = 0 then .pass
  else if b.mode = 2 then .off
  else if b.tokens = 0 then .suppress else .token

/-- One token taken (R389): the refill is timed from the instant the bucket first fell below BURST. -/
def Bucket.takeToken (b : Bucket) (now : Nat) : Bucket := { b with tokens := b.tokens - 1, refillAt := some (b.refillAt.getD (now + us b.intervalUs)) }

/-- The writer handles an occurrence (R389, R391). -/
def writeOccurrence (r : EvrRec) (s : State) : State :=
  let b := s.evr.bucket r.code
  match s.evr.treat r with
  | .bypass => writeRecord r s
  | .pass => writeRecord r s
  | .token => writeRecord r (s.modEvr fun e => { e with buckets := e.buckets.set r.code (b.takeToken s.now) })
  | .suppress => s.modEvr fun e => { e with buckets := e.buckets.set r.code (b.suppress r false), live := bump e.live 2 }
  | .off => s.modEvr fun e => { e with live := bump e.live 2 }

/-- The writer takes the oldest posted occurrence (R389 to R391). Once the ring is frozen it is lost (R397). -/
def writerStep (s : State) : State :=
  match s.evr.posts with
  | [] => s
  | r :: rest =>
    if !s.evr.running then s
    else if s.evr.frozen then s.modEvr fun e => { e with posts := rest, live := bump (bump e.live 1) 4 }
    else
      let s := s.modEvr fun e => { e with posts := rest, live := bump e.live 1 }
      writeOccurrence r (refillsDue r.code (s.evr.bucket r.code).burst s)

/-- EVR_OCCURRENCE (R389 to R391). -/
def execEvrOccurrence (s : State) : Host.Outcome State Fault Refusal := .next (writerStep s)

/-- A block that posts a record waits until its queue has room (R391), which the writer makes; `n` bounds what it writes meanwhile. -/
def awaitRoom (r : EvrRec) : Nat → State → State
  | 0, s => s
  | n + 1, s => if s.evr.room r || s.evr.frozen then s else awaitRoom r n (writerStep s)

/-- A record posted once its queue has room. -/
def postPaced (r : EvrRec) (s : State) : State := post r (awaitRoom r s.evr.posts.length s)

/-- BUCKET_REFILL (R389, R390). -/
def execBucketRefill (code : Nat) (s : State) : Host.Outcome State Fault Refusal :=
  .next (match (s.evr.bucket code).refillAt with
    | some t => if s.evr.running then whenDue t (refillCode code t) s else s
    | none => s)

/-- LOSS_INTERVAL_END (R390): an interval of the code from the first occurrence lost at a queue. -/
def execLossIntervalEnd (code : Nat) (s : State) : Host.Outcome State Fault Refusal :=
  .next (match (s.evr.bucket code).lossFrom with
    | some t =>
      if s.evr.running then
        whenDue (t + us (s.evr.bucket code).intervalUs) (fun s =>
          writeSuppression code (s.modEvr fun e => { e with buckets := e.buckets.set code { e.bucket code with lossFrom := none } })) s
      else s
    | none => s)

/-! ### Cursors -/

/-- The records from SEQ `q` on that have been written, at most `n` (R394). -/
def Evr.window (e : Evr) : Nat → Nat → List EvrRec
  | 0, _ => []
  | n + 1, q =>
    match e.ring.find? fun r => r.seq == q with
    | some r => r :: Evr.window e n (nextSeq q)
    | none => []

/-- The cursor moves (R394, steps 1 and 2). -/
def Cursor.move (c : Cursor) (advance : Nat) (newest : Bool) (e : Evr) : Cursor :=
  let q := if newest then e.next else seqAfter c.seq (min advance c.avail)
  let gap := modSub 32 e.oldest q
  if 0 < gap ∧ gap < 2 ^ 31 then { c with seq := e.oldest, lost := satAdd 32 c.lost gap, lapped := true } else { c with seq := q, lapped := false }

/-- A load of cursor `n` (R394): the cursor moves and its window is filled, and LOAD_BUSY is 1 until the load completes. Each damaged record
read is counted (R385). A load while one is in progress, or one that advances by more than 64, is ignored. -/
def cursorLoad (n advance : Nat) (newest : Bool) (s : State) : State :=
  match s.evr.cursors[n]? with
  | none => s
  | some c =>
    if c.busy ∨ 64 < advance then s
    else
      let c := c.move advance newest s.evr
      let w := s.evr.window 64 c.seq
      s.modEvr fun e => { e with
        cursors := e.cursors.set n { c with busy := true, window := w.map EvrRec.asRead, avail := w.length },
        live := bump e.live 6 (w.filter fun r => r.damaged).length }

/-- A write of CUR_CTL (R401): it acts with LOAD at 1. -/
def writeCurCtl (n : Nat) (v : BitVec 32) (s : State) : State :=
  if bitOf v 31 then cursorLoad n (bits v 6 0) (bitOf v 30) s else s

/-- CURSOR_LOAD (R394): a write of CUR_CTL. -/
def execCursorLoad (n : Nat) (value : BitVec 32) (s : State) : Host.Outcome State Fault Refusal := .next (writeCurCtl n value s)

/-- A load completes (R394); cursors 0 and 2 tell the host (R431). -/
def cursorDone (n : Nat) (s : State) : State :=
  let s := s.modEvr fun e => { e with cursors := lmod e.cursors n fun c => { c with busy := false } }
  if n = 0 then vector 17 s else if n = 2 then vector 18 s else s

/-- CURSOR_LOAD_COMPLETE (R394). -/
def execCursorLoadComplete (n : Nat) (s : State) : Host.Outcome State Fault Refusal :=
  .next (match s.evr.cursors[n]? with | some c => if c.busy then cursorDone n s else s | none => s)

/-! ### The save area -/

/-- SAVE_END (R397): a module reset that waited for it takes effect (R500). -/
def execSaveEnd (s : State) : Host.Outcome State Fault Refusal := .next (resetDue (endSave s))

/-- The SEQ of the newest record of a save (R398). -/
def SaveArea.newest (a : SaveArea) : Nat := match a.recs with | r :: _ => r.seq | [] => 0

/-- Save area 1 holds the newer save: its newest SEQ is ahead, modulo 2^32. -/
def newerArea (a b : SaveArea) : Bool :=
  decide (b.recs ≠ []) && (decide (a.recs = []) || (decide (modSub 32 b.newest a.newest < 2 ^ 31)))

/-- SAVE_AREA_ERASE (R398): with a save in both areas, the older is erased, and the recorder is armed for the next one. -/
def execSaveAreaErase (s : State) : Host.Outcome State Fault Refusal :=
  let a := s.evr.areas.getD 0 {}
  let b := s.evr.areas.getD 1 {}
  .next (if s.persist.fwUp ∧ s.evr.saveInto.isNone ∧ !a.erased ∧ !b.erased then
      s.modEvr fun e => { e with areas := e.areas.set (if newerArea a b then 0 else 1) {}, saveState := 1 }
    else s)

end Sys2Proof.Machine
end

