-- ==== Sys2Proof/Machine/Keys.lean ====
section
/-!
DEFINITION. Machine/Keys.lean: key slots (R404 to R417): the slot commands of the KSU, the saving of slots in flash, and their repair.
-/
namespace Sys2Proof.Machine
open Sys2Proof

/-- USE and TAG have stated values that do not name different algorithms (R405). -/
def attrOk (use tag : Nat) : Bool :=
  decide (use ≤ 4) && decide (tag ≤ 3) && !(use == 1 && tag == 0) && !(use == 2 && (tag == 1 || tag == 3))

/-- The attribute record as 256 bits (R405). -/
def Slot.record (k : Slot) : BitVec 256 :=
  BitVec.ofNat 256 (k.invCount * 2 ^ 192 + k.salt.toNat * 2 ^ 160 + k.keyId.toNat * 2 ^ 128 + k.kcv.toNat * 2 ^ 104 + b2n k.valid * 2 ^ 63
    + k.use * 2 ^ 60 + b2n k.lock * 2 ^ 59 + b2n k.volatile * 2 ^ 58 + b2n k.derivable * 2 ^ 57 + b2n k.byMgp * 2 ^ 56 + k.owner * 2 ^ 47
    + k.ownerGen * 2 ^ 31 + b2n k.unusable * 2 ^ 30 + k.tag * 2 ^ 28 + k.origin * 2 ^ 26)

/-- A slot whose non-volatile value or attributes have been written waits to be saved (R413). -/
def Slot.touched (k : Slot) (now : Nat) : Slot := { k with writtenAt := if k.volatile || !k.valid then none else some (k.writtenAt.getD now) }

/-- SALT (R420): drawn, its low 4 bits replaced by the unit ID. -/
def saltOf (draw unit : Nat) : BitVec 32 := BitVec.ofNat 32 (draw % 2 ^ 32 / 16 * 16 + unit % 16)

/-- A slot takes a SALT if it is of USE 2 (R420). -/
def salted (n : Nat) (s : State) : State :=
  if (s.slot n).use = 2 then
    s.took.modKsu fun k => { k with slots := k.slots.mod n {} fun x => { x with salt := saltOf s.free1 s.cgu.unitId } }
  else s

/-- The key check value (R405): the first 24 bits of HMAC-SHA-256 over 4B 43 56. -/
def kcvOf (v : BitVec 256) : BitVec 24 := (Config.mac 1 v [0x4B, 0x43, 0x56]).extractLsb' 232 24

/-- A slot with a new value `v`, XORed with the pad of its cell (R404, R405, R413, R414). -/
def Slot.written (k : Slot) (v pad : BitVec 256) (origin now : Nat) : Slot :=
  Slot.touched { k with cell := v ^^^ pad, kcv := kcvOf v, valid := true, unusable := false, damagedAt := none, invCount := 0, origin := origin } now

/-- A slot with its RW attributes written (R405). -/
def Slot.attributed (k : Slot) (a : KeyArgs) (lock derivable : Bool) (now : Nat) : Slot :=
  Slot.touched { k with use := a.use, tag := a.tag, keyId := a.keyId, volatile := a.volatile, lock := lock, derivable := derivable } now

/-- A value written into a slot (R404, R405, R414, R420). -/
def slotWrite (n : Nat) (v : BitVec 256) (origin : Nat) (s : State) : State :=
  salted n (s.modKsu fun k => { k with slots := k.slots.mod n {} fun x => x.written v (k.pad n) origin s.now })

/-- The RW attributes of a slot written (R405); a slot that takes USE 2 is given a SALT. A slot made volatile keeps no saved copy. -/
def slotAttr (n : Nat) (a : KeyArgs) (lock derivable : Bool) (s : State) : State :=
  let was := (s.slot n).use
  let s := s.modKsu fun k => { k with
    slots := k.slots.mod n {} fun x => x.attributed a lock derivable s.now,
    saved := if a.volatile then k.saved.filter fun c => c.slot ≠ n else k.saved }
  if a.use = 2 ∧ was ≠ 2 then salted n s else s

/-- A draw of 256 bits from the true random generator (R404). -/
def drawKey (s : State) : BitVec 256 × State :=
  (BitVec.ofNat 256 s.free1, s.took.modKsu fun k => { k with draws := k.draws + 1 })

/-- A slot is owned by the requester (R407, R416): by the MGP, or by the instance in its generation. -/
def Slot.ownedByWho (k : Slot) (who : Master) : Bool :=
  match who with
  | .inst i g => !k.byMgp && k.owner == i && k.ownerGen == g
  | _ => k.byMgp

/-- An instance may reach only its own slots; the MGP reaches every slot (R407). -/
def Slot.reachable (k : Slot) (who : Master) : Bool := match who with | .inst _ _ => k.ownedByWho who | _ => true

/-- Why a derivation is refused, by RESULT; 0: it is not (R415, R416, R426). -/
def deriveRefused (who : Master) (n : Nat) (parent : Option Nat) (use : Nat) (labelLen contextLen : Nat) (s : State) : Nat :=
  let t := s.slot n
  if t.lock ∨ !t.ownedByWho who then 1
  else if labelLen = 0 ∨ 32 < labelLen ∨ 64 < contextLen then 7
  else match parent with
    | none => if who = .mgp ∧ s.ksu.rootState = 1 then 0 else 5
    | some p =>
      let k := s.slot p
      if k.unusable then 4
      else if k.use ≠ 3 ∨ !k.valid ∨ !k.reachable who then 2
      else if use = 3 ∧ !k.derivable then 3 else 0

/-- The 272 bits of a share as they are read back: of the three cells of a bit the majority counts (R411). -/
def Share.read (x : Share) : BitVec 272 := (x.c0 &&& x.c1) ||| (x.c0 &&& x.c2) ||| (x.c1 &&& x.c2)

/-- The value of a share. -/
def Share.value (x : Share) : BitVec 256 := x.read.extractLsb' 16 256

/-- The CRC-16 of a share checks. -/
def Share.ok (x : Share) : Bool := x.read.setWidth 16 == Config.crc16 x.value

/-- A share programmed (R411): the bits of each cell that do not take stay as they are. -/
def Share.program (x : Share) (v : BitVec 256) (weak : List (BitVec 272)) : Share :=
  let w : BitVec 272 := v ++ Config.crc16 v
  let put := fun (c : BitVec 272) (k : Nat) => c ||| (w &&& ~~~ weak.getD k 0)
  { c0 := put x.c0 0, c1 := put x.c1 1, c2 := put x.c2 2 }

/-- Both shares of a pair check. -/
def SharePair.ok (p : SharePair) : Bool := p.a.ok && p.b.ok

/-- The pair holds programmed bits. -/
def SharePair.used (p : SharePair) : Bool := p.sealed || p.a != {} || p.b != {}

/-- The root secret (R411): the XOR of the shares of the pair in use. -/
def Ksu.root (k : Ksu) : BitVec 256 := let p := k.pairs.getD k.rootPair {}; p.a.value ^^^ p.b.value

/-- The input of the one PRF call of a derivation (R415). -/
def kdfInput (label context : List Byte) : List Byte := beBytes 4 1 ++ label ++ [0] ++ context ++ beBytes 4 256

/-- The value a derivation yields (R415): HMAC-SHA-256 under the parent. -/
def derived (parent : Option Nat) (label context : List Byte) (s : State) : BitVec 256 :=
  Config.mac 1 (match parent with | none => s.ksu.root | some p => s.slotValue p) (kdfInput label context)

/-- A command of the KSU ends (R425 to R427): RESULT, KSU_KEYIN cleared, a refusal counted. -/
def ksuDone (result : Nat) (s : State) : State :=
  s.modKsu fun k => { k with busy := false, result := result, keyIn := 0, live := if result = 0 then k.live else bump k.live 7 }

/-- A load (R404). -/
def ksuLoad (n : Nat) (v : BitVec 256) (s : State) : State :=
  if (s.slot n).lock then ksuDone 1 s else ksuDone 0 (slotWrite n v 0 s)

/-- A generation (R404): it needs a healthy generator. -/
def ksuGenerate (n : Nat) (s : State) : State :=
  if (s.slot n).lock then ksuDone 1 s
  else if !s.ksu.trngOk then ksuDone 6 s
  else ksuDone 0 (slotWrite n (drawKey s).1 1 (drawKey s).2)

/-- A reserved slot that is never written on a request (R410): all but the integrator's hash, once, and the monitor's key. -/
def reservedSlot (n : Nat) (s : State) : Bool := decide (n < 8) && !(n == 3 && !(s.slot 3).valid) && n != 4

/-- A reserved slot that has been loaded is locked (R410). -/
def lockReserved (n : Nat) (s : State) : State :=
  if n < 8 ∧ (s.slot n).valid then s.modKsu fun k => { k with slots := k.slots.mod n {} fun x => { x with lock := true } } else s

/-- A derivation (R415, R416). -/
def ksuDerive (who : Master) (n : Nat) (parent : Option Nat) (use : Nat) (label context : List Byte) (s : State) : State :=
  let r := deriveRefused who n parent use label.length context.length s
  if r ≠ 0 then ksuDone r s
  else
    let s := slotWrite n (derived parent label context s) 2 s
    ksuDone 0 (s.modKsu fun k => { k with live := bump k.live 6 })

/-- An erasure (R409): a locked slot only by the platform controller, through the MGP. -/
def ksuErase (who : Master) (n : Nat) (s : State) : State :=
  match who with
  | .inst _ _ => if (s.slot n).lock ∨ !(s.slot n).ownedByWho who then ksuDone 1 s else ksuDone 0 (eraseSlot n s)
  | _ => ksuDone 0 (eraseSlot n s)

/-- The slot that KSU_CMD names (R426). -/
def cmdSlot (v : BitVec 32) : Nat := bits v 27 18

/-- The parent that KSU_CMD names: the root with FROM_ROOT (R412, R426). -/
def cmdParent (v : BitVec 32) : Option Nat := if bitOf v 7 then none else some (bits v 17 8)

/-- The label registers' octets in use (R425, R426). -/
def Ksu.labelOf (k : Ksu) : List Byte := (k.label ++ List.replicate 64 0).take k.labelLen

/-- The context registers' octets in use (R425, R426). -/
def Ksu.contextOf (k : Ksu) : List Byte := (k.context ++ List.replicate 64 0).take k.contextLen

/-- A write of KSU_CMD for a requester (R426): GO is ignored while BUSY is 1, and OP 4 to 7 always. A
reserved slot takes only what R410 allows, and is locked once loaded. -/
def ksuCommand (who : Master) (v : BitVec 32) (s : State) : State :=
  if !bitOf v 31 ∨ s.ksu.busy then s
  else
    let n := cmdSlot v
    let op := bits v 30 28
    if op < 3 ∧ (reservedSlot n s ∨ (n < 8 ∧ op ≠ 0)) then ksuDone 1 s
    else if op = 0 then lockReserved n (ksuLoad n s.ksu.keyIn s)
    else if op = 1 then ksuGenerate n s
    else if op = 2 then ksuDerive who n (cmdParent v) (s.slot n).use s.ksu.labelOf s.ksu.contextOf s
    else if op = 3 then ksuErase who n s else s

/-- The command word of KSU_CMD names operation `op`. -/
def cmdIs (op : Nat) (v : BitVec 32) : Bool := bits v 30 28 == op

/-- KSU_LOAD (R404): KSU_CMD with OP 0. -/
def execKsuLoad (who : Master) (cmd : BitVec 32) (s : State) : Host.Outcome State Fault Refusal :=
  .next (if cmdIs 0 cmd then ksuCommand who cmd s else s)

/-- KSU_GENERATE (R404): KSU_CMD with OP 1. -/
def execKsuGenerate (who : Master) (cmd : BitVec 32) (s : State) : Host.Outcome State Fault Refusal :=
  .next (if cmdIs 1 cmd then ksuCommand who cmd s else s)

/-- KSU_DERIVE (R415, R416): KSU_CMD with OP 2. -/
def execKsuDerive (who : Master) (cmd : BitVec 32) (s : State) : Host.Outcome State Fault Refusal :=
  .next (if cmdIs 2 cmd then ksuCommand who cmd s else s)

/-- KSU_ERASE (R409): KSU_CMD with OP 3. -/
def execKsuErase (who : Master) (cmd : BitVec 32) (s : State) : Host.Outcome State Fault Refusal :=
  .next (if cmdIs 3 cmd then ksuCommand who cmd s else s)

/-! ### Flash copies -/

/-- A slot stored wrapped in both flash banks (R413); it needs the wrapping key of slot 0x005. -/
def saveSlot (n : Nat) (s : State) : State :=
  let k := s.slot n
  let w := s.slot 5
  if w.valid ∧ !w.unusable then
    s.modKsu fun x => { x with
      saved := (x.saved.filter fun c => c.slot ≠ n) ++ [{ slot := n, copy := { k with cell := 0, writtenAt := none }, value := s.slotValue n, wrapped := Config.wrap (s.slotValue 5) (s.slotValue n) }],
      slots := x.slots.mod n {} fun k => { k with writtenAt := none } }
  else s

/-- KEY_SAVE (R413): within 1 s of a write to a slot with VOLATILE 0. -/
def execKeySave (slot : Nat) (s : State) : Host.Outcome State Fault Refusal :=
  .next (if s.persist.fwUp ∧ (s.slot slot).valid ∧ !(s.slot slot).volatile ∧ (s.slot slot).writtenAt.isSome then saveSlot slot s else s)

/-- A slot restored from its saved copy (R413, R414): a write of its value, so that one of USE 2 takes a new SALT and counts anew (R420). A copy
whose unwrap fails leaves the slot erased. -/
def restoreSlot (c : SavedSlot) (s : State) : State :=
  if (s.slot 5).valid ∧ Config.wrap (s.slotValue 5) c.value = c.wrapped then
    salted c.slot (s.modKsu fun k => { k with
      slots := k.slots.set c.slot { c.copy with cell := c.value ^^^ k.pad c.slot, unusable := false, damagedAt := none, invCount := 0 } })
  else s.modKsu fun k => { k with slots := k.slots.del c.slot }

/-- SLOT_DAMAGE_REWRITE (R414): a damaged slot with VOLATILE 0 is rewritten from its saved copy within 10 ms. -/
def execSlotDamageRewrite (slot : Nat) (s : State) : Host.Outcome State Fault Refusal :=
  let k := s.slot slot
  .next (if s.persist.fwUp ∧ k.unusable ∧ !k.volatile then
      (match s.ksu.saved.find? fun c => c.slot == slot with | some c => restoreSlot c s | none => s)
    else s)

/-- TRNG_HEALTH_FAIL (R426, R427): TRNG_OK falls. -/
def execTrngHealthFail (s : State) : Host.Outcome State Fault Refusal :=
  .next (s.modKsu fun k => { k with trngOk := false, live := bump k.live 13 })

end Sys2Proof.Machine
end

