-- ==== Sys2Proof/Machine/Pair.lean ====
section
/-!
DEFINITION. Machine/Pair.lean: the output comparison (R258 to R260), the referee's pictures (R263, R264), mirror declarations and sets
(R267, R269, R270), the status words and the partner (R271, R272), and the lapse of a switch-back request (R274).
-/
namespace Sys2Proof.Machine
open Sys2Proof

/-! ### Comparison -/

/-- The comparison key of a control frame (R258). -/
def OcuCopy.key (c : OcuCopy) : Option CmpKey :=
  (gooseKey c.octets).map fun k => { inst := c.inst, cbHash := k.1, stNum := k.2.1, sqNum := k.2.2 }

/-- The digest of a control frame (R258): destination, VLAN fields, and the content up to the last APDU octet with length and reserved
fields zero. -/
def OcuCopy.digest (c : OcuCopy) : BitVec 64 :=
  let body := slice c.octets 12 ((apduEnd c.octets).getD c.octets.length - 12)
  crc64 (c.octets.take 6 ++ beBytes 2 (c.pcp * 2 ^ 13 + c.vid) ++ putAt body 4 (List.replicate 6 0))

/-- A window W of a divergence's own settings has not passed since an age. -/
def freshRun (s : State) (at_ : Option Nat) : Bool :=
  match at_ with | some a => decide (s.now < a + 2 * us s.ocu.windowUs) | none => false

/-- Regions an instance has declared, in force or waiting for the next epoch (R267). -/
def MirInst.declared (x : MirInst) : List (Nat × Nat) := x.newRegions.getD x.regions

/-- Some instance with mirror regions has no full set applied (R270, R272). -/
def State.needsFull (s : State) : Bool := s.mlk.mir.any fun p => p.2.needFull && p.2.declared != []

/-- A divergence of an instance is excused (R260, R272). That a set has been discarded the standby knows, and the active takes from the partner's
status word (log entry 151). -/
def excused (i : Nat) (s : State) : Bool :=
  let st := (s.inst i).state
  !(st == .ready || st == .running) || !s.mlk.word.ready.getLsbD i || freshRun s (s.inst i).runningAt
    || freshRun s (if s.mlk.partnerRun.has i then some (s.mlk.partnerRun.get i 0) else none)
    || s.cgu.role == .taking || s.mlk.word.role == .taking || s.partnerGone || (s.mlk.mir.get i {}).discarded
    || (s.mlk.resync && s.needsFull)

/-- What a divergence consists of (R260): type 0 CONTENT, 1 MISSING_LOCAL, 2 MISSING_PARTNER; TRIP_SENSE and PLAUS_ZONE of the frame of each
side that is present. -/
structure Diverge where
  /-- Its key. -/
  key : CmpKey
  /-- Its type. -/
  type : Nat
  /-- Age of the first frame. -/
  t : Nat
  /-- The own frame. -/
  own : Option (Nat × Nat) := none
  /-- The partner's frame. -/
  other : Option (Nat × Nat) := none

/-- The octets of one side in a divergence record (log entry 9). -/
def sideOctets (x : Option (Nat × Nat)) : List Byte :=
  match x with | some p => [BitVec.ofNat 8 p.1, BitVec.ofNat 8 p.2] | none => [0xFF, 0xFF]

/-- The detail of a divergence record (R260; log entry 9). -/
def divergeDetail (d : Diverge) (ex : Bool) : List Byte :=
  leBytes 2 d.key.inst ++ leBytes 1 d.type ++ leBytes 1 (b2n ex) ++ leBytes 4 d.key.cbHash.toNat ++ leBytes 4 d.key.stNum
    ++ leBytes 4 d.key.sqNum ++ leBytes 8 d.t ++ sideOctets d.own ++ sideOctets d.other

/-- A divergence that the standby's island forms a picture of (R263): at least one side asserts a trip, in one zone of 0 to 7. With the zone, the
sides that assert: own, partner. -/
def Diverge.judged (d : Diverge) : Option (Nat × Bool × Bool) :=
  let trip := fun (x : Option (Nat × Nat)) => match x with | some p => p.1 == 1 | none => false
  let zone := match d.own, d.other with
    | some p, some q => if p.2 = q.2 then p.2 else 15
    | some p, none => p.2
    | none, some q => q.2
    | none, none => 15
  if (trip d.own || trip d.other) ∧ zone < 8 then some (zone, trip d.own, trip d.other) else none

/-- Rows 1, 2 and 4 of R262 for a divergence, or what `row3` does where none of rows 1 and 2 applies. -/
def referee (k : CmpKey) (row3 : State → State) (s : State) : State :=
  let p := s.fPair
  if p = 1 then actDecision 1 true (recordDecision 1 (some true) k s)
  else if p = 2 then actDecision 1 false (recordDecision 1 (some false) k s)
  else if p = 3 then recordDecision 2 none k s
  else row3 s

/-- A divergence is referred (R260, R262, R263): only the standby's island applies row 3, and it forms a picture (log entry 20). The
referee runs on the island's cores (R349): while they restart none is formed or decided (R484). -/
def refer (d : Diverge) (s : State) : State :=
  let s := s.modOcu fun o => { o with lastReferred := some s.now }
  if !s.island then s
  else referee d.key (fun s =>
    match d.judged with
    | some (z, own, other) =>
      if s.cgu.role = .standby then
        (bkiCount 10 s).modOcu fun o => { o with
          pictures := o.pictures ++ [{ key := d.key, t := d.t, winMs := o.plausWinMs, zone := z, tripLocal := own, both := own && other }] }
      else recordDecision 4 none d.key s
    | none => recordDecision 4 none d.key s) s

/-- DIVERGENCE (R260): recorded, and counted by its type and referred unless it is excused. -/
def diverge (d : Diverge) (s : State) : State :=
  let ex := excused d.key.inst s
  let s := note .ocu 0 0x300 0 .none (divergeDetail d ex) s
  if ex then ocuCount 4 s else refer d (ocuCount (1 + d.type) s)

/-- A pending entry closed. -/
def closePend (k : CmpKey) (s : State) : State := s.modOcu fun o => { o with pending := o.pending.filter fun e => e.key != k }

/-- The window of a pending entry ends (R259): divergence missing on the side that sent nothing. -/
def windowEnds (e : Pend) (s : State) : State :=
  let x := some (e.sense, e.zone)
  diverge (if e.loc then { key := e.key, type := 2, t := e.openAt, own := x } else { key := e.key, type := 1, t := e.openAt, other := x })
    (closePend e.key s)

/-- The pending entry of a key. -/
def State.pend (s : State) (k : CmpKey) : Option Pend := s.ocu.pending.find? fun e => e.key == k

/-- The matching rule of R259 for a frame with key `k`. -/
def ocuTake (own : Bool) (c : OcuCopy) (k : CmpKey) (s : State) : State :=
  match s.pend k with
  | none =>
    if !s.ocu.en then s
    else if 4096 ≤ s.ocu.pending.length then
      ocuCount 6 (note .ocu 0 0x300 0 .none (divergeDetail { key := k, type := 3, t := s.now } false) s)
    else s.modOcu fun o => { o with pending := o.pending ++ [{
      key := k, digest := c.digest, loc := own, openAt := s.now, endAt := s.now + us o.windowUs, sense := c.sense, zone := c.zone }] }
  | some e =>
    if e.loc = own then ocuCount 5 s
    else
      let s := closePend k s
      if c.digest = e.digest then ocuCount 0 s
      else
        let x := some (e.sense, e.zone)
        let y := some (c.sense, c.zone)
        diverge { key := k, type := 0, t := e.openAt, own := if own then y else x, other := if own then x else y } s

/-- A control frame at the OCU (R258, R259). An entry whose window has ended closes first. -/
def ocuFrame (own : Bool) (c : OcuCopy) (s : State) : State :=
  match c.key with
  | none => s
  | some k =>
    match s.pend k with
    | some e => ocuTake own c k (if due s e.endAt then windowEnds e s else s)
    | none => ocuTake own c k s

/-- The mirror link can carry: its lanes are enabled and its clock runs (R271, R21). -/
def State.linkOn (s : State) : Bool := s.mlk.enabledAt.isSome && s.clockUp .mlk

/-- OCU_FRAME (R258, R259): a copy from the partner, which the mirror link must carry (R21), or the oldest own control frame not yet taken. -/
def execOcuFrame (partner : Option OcuCopy) (s : State) : Host.Outcome State Fault Refusal :=
  .next (match partner with
    | some c => if s.linkOn then ocuFrame false c (mlkCount 1 s) else s
    | none => match s.ocu.ctrlIn with
      | c :: t => ocuFrame true c (s.modOcu fun o => { o with ctrlIn := t })
      | [] => s)

/-- OCU_WINDOW_END (R259). -/
def execOcuWindowEnd (key : CmpKey) (s : State) : Host.Outcome State Fault Refusal :=
  .next (match s.pend key with
    | some e => whenDue e.endAt (windowEnds e) s
    | none => s)

/-! ### The referee -/

/-- P_z of a picture so far (R263, R349): an element of the zone was in START within [t - PLAUS_WIN, t + PLAUS_WIN). -/
def pickedUp (p : Picture) (s : State) : Bool :=
  s.bki.spans.any fun x => x.zone == p.zone && decide (x.fromNs < p.t + ms p.winMs)
    && decide (p.t - ms p.winMs ≤ (match x.toNs with | some e => e | none => s.now))

/-- The decision on a picture (R263, R264): with the zone picked up the side without the trip contradicts, else the side with it;
where both assert neither does. Another picture of the same key goes on. -/
def pictureDecided (p : Picture) (pz : Bool) (s : State) : State :=
  let s := s.modOcu fun o => { o with pictures := o.pictures.erase p }
  if s.cgu.role = .standby then
    let own := p.tripLocal != pz
    referee p.key (fun s =>
      if p.both then recordDecision 4 none p.key s else actDecision 3 own (recordDecision 3 (some own) p.key s)) s
  else s

/-- PICTURE_DECISION (R263): at the first pickup in the window, or at its end. The referee runs on the island's cores (R349): nothing is decided
while they restart. -/
def execPictureDecision (key : CmpKey) (s : State) : Host.Outcome State Fault Refusal :=
  let ps := s.ocu.pictures.filter fun p => p.key == key
  .next (if s.island then
      match (ps.find? fun p => pickedUp p s).or ps.head? with
      | some p => if pickedUp p s then pictureDecided p true s else whenDue (p.t + ms p.winMs) (pictureDecided p false) s
      | none => s
    else s)

/-- DECISION_MESSAGE (R264): the partner's decision, off the mirror link, enters the own recorder. -/
def execDecisionMessage (row : Nat) (againstUs : Bool) (key : CmpKey) (s : State) : Host.Outcome State Fault Refusal :=
  .next (if s.linkOn then note .bki 0 0x301 0 .none (decisionDetail row againstUs key) s else s)

/-! ### Status words and the partner -/

/-- A map of the instances whose state satisfies `f`. -/
def instMap (f : InstState → Bool) (s : State) : BitVec 512 :=
  listMask 512 ((s.insts.desc.filter fun p => f p.2.state).map fun p => p.1)

/-- The own status word (R271). -/
def State.statusWord (s : State) : StatusWord :=
  { unit := s.cgu.unitId, claim := s.cgu.ownClaim, role := s.cgu.role, f := s.unitF, takeBlock := s.ocu.takeBlock, hb := s.bki.hb,
    ready := instMap (fun x => x == .ready || x == .running) s, running := instMap (fun x => x == .running) s,
    swUnit := s.mlk.swHeld.map fun x => x.1, swReason := s.mlk.swReason,
    fullReq := (s.mlk.mir.filter fun p => p.2.askFull).map fun p => p.1 }

/-- STATUS_WORD_SEND (R271): on each lane, every 100 us, also on one that is down. -/
def execStatusWordSend (s : State) : Host.Outcome State Fault Refusal :=
  .next (if s.linkOn then
      whenDue (match s.mlk.sentAt with | some a => a + us 100 | none => 0)
        (fun s => s.modMlk fun m => { m with sent := [s.statusWord, s.statusWord], sentAt := some s.now }) s
    else s)

/-- A unit ID conflict is found (R248): the module becomes OUT, with a K-class PROTOCOL finding, until its pins read another ID. -/
def idConflict (s : State) : State :=
  if s.cgu.idConflict.isSome then s
  else raise { block := .cgu, kind := 9, addr := s.cgu.unitId }
    (becomeOut true (s.modCgu fun c => { c with idConflict := some c.unitId }))

/-- A lane as a valid status word arrives on it (R271, R272). A lane never declared down is up from its first word. -/
def Lane.word (l : Lane) (now : Nat) : Lane :=
  let gap := l.lastAt.isNone || wordsMissed l.lastAt now != 0
  { l with up := !l.failed, lastAt := some now, missed := 0, run := if gap then 1 else l.run + 1,
           goodFrom := if l.failed then (if gap then some now else some (l.goodFrom.getD now)) else none }

/-- Full sets are needed again for every instance that declares regions (R272). -/
def wantFull (s : State) : State :=
  s.modMlk fun m => { m with resync := true, mir := m.mir.map fun p =>
    (p.1, if p.2.declared = [] then p.2 else { p.2 with needFull := true, askFull := true, fullNext := true }) }

/-- PARTNER_PRESENT (R272): ALONE becomes ACTIVE; full sets are asked for; the F status of both units is put to the referee anew, since row 1 was
not acted on while the partner was lost (R264). -/
def partnerPresent (s : State) : State :=
  let s := wantFull (s.modMlk fun m => { m with partner := .present, awaitOver := false })
  let s := s.modOcu fun o => { o with fSeen := 0 }
  if s.cgu.role = .alone then setRole .active s else s

/-- Ages at which the partner's instances became RUNNING, as its status words show it (R260). -/
def partnerRuns (old new : BitVec 512) (now : Nat) (t : Tbl Nat) : Tbl Nat :=
  (List.range 512).foldl (fun t i =>
    if new.getLsbD i then (if old.getLsbD i then t else t.set i now) else if old.getLsbD i then t.del i else t) t

/-- What a protecting unit's mirror takes from the requests of a status word (R270): an instance named there gets a full set next; one that is
not, after its full set was sent, has had it applied (log entry 21). A request that begins while the instance is ready there in both words, so
not for a reset of it, tells of a discarded set (R260; log entry 151). -/
def fullRequests (old w : StatusWord) (s : State) : State :=
  if s.cgu.role.protecting then
    s.modMlk fun m => { m with mir := m.mir.map fun p =>
      let lost := !old.fullReq.contains p.1 && old.ready.getLsbD p.1 && w.ready.getLsbD p.1
      (p.1, if w.fullReq.contains p.1 then { p.2 with fullNext := true, needFull := true, discarded := p.2.discarded || lost }
            else if !p.2.fullNext && p.2.staged.isNone then { p.2 with needFull := false, askFull := false, discarded := false } else p.2) }
  else s

/-- The active learns the standby's refusal of its held switch-back (R274). -/
def refusalSeen (old new : StatusWord) (s : State) : State :=
  match s.mlk.swHeld, old.swReason, new.swReason with
  | some x, none, some r =>
    switchRecord r (opDone x.2.2 (.state r) [] (s.modMlk fun m => { m with swHeld := none }))
  | _, _, _ => s

/-- The contents of a status word are taken up (R271): the partner's claim, its instances, its requests; a shared unit ID (R248); its F status
for rows 1 and 2 (R262). -/
def takeWord (w : StatusWord) (s : State) : State :=
  let old := s.mlk.word
  let s := s.modMlk fun m => { m with
    word := w, led := if w.role = .active ∨ w.role = .alone then true else m.led && w.role == .out, partnerClaim := w.claim, partnerRun := partnerRuns old.running w.running s.now m.partnerRun,
    swReason := if w.swUnit = some s.cgu.unitId ∧ old.swUnit ≠ some s.cgu.unitId then none else m.swReason }
  let s := refusalSeen old w (fullRequests old w s)
  let s := s.modMlk fun m => { m with resync := m.resync && s.needsFull }
  let s := if w.unit = s.cgu.unitId ∧ w.unit ≠ 0 then idConflict s else s
  refereeF s

/-- STATUS_WORD_RECEIVE (R271, R272): a valid word on a lane. -/
def execStatusWordReceive (lane : Nat) (word : StatusWord) (s : State) : Host.Outcome State Fault Refusal :=
  .next (if s.linkOn ∧ lane < 2 then
      let s := countMissed s
      let l := (s.mlk.lanes.getD lane {}).word s.now
      let s := s.modMlk fun m => { m with lanes := m.lanes.set lane l }
      let s := conditionEnds .mlk 0 s
      let s := if s.mlk.partner = .awaited ∨ (s.mlk.partner = .lost ∧ 10 ≤ l.run) then partnerPresent s else s
      takeWord word s
    else s)

/-- LANE_DOWN (R271): no status word for 1 ms, counted from the enabling of the lanes on one that has had none. A lane that is still held out is
declared again, and PERSIST rises again. -/
def execLaneDown (lane : Nat) (s : State) : Host.Outcome State Fault Refusal :=
  .next (match s.mlk.lanes[lane]?, s.mlk.enabledAt with
    | some l, some a =>
      if !l.failed ∨ l.goodFrom.isSome then
        whenDue (l.lastAt.getD a + ms 1) (fun s =>
          let s := countMissed s
          let s := raise { block := .mlk, kind := 9, persist := true, addr := lane } (if l.failed then s else mlkCount 8 s)
          s.modMlk fun m => { m with lanes := lmod m.lanes lane Lane.down }) s
      else s
    | _, _ => s)

/-- The partner is lost (R272): pending comparisons close as excused, ACTIVE becomes ALONE. -/
def loseThePartner (s : State) : State :=
  let s := mlkCount 7 ((countMissed s).modMlk fun m => { m with partner := .lost, lanes := m.lanes.map fun l => { l with run := 0 } })
  let s := s.ocu.pending.foldl (fun s e => windowEnds e s) s
  let s := if s.cgu.role = .active then setRole .alone s else s
  refereeF s

/-- PARTNER_LOST (R272): no valid status word on either lane for PARTNER_TO_MS. -/
def execPartnerLost (s : State) : Host.Outcome State Fault Refusal :=
  .next (if s.mlk.partner = .present then
      whenDue (s.mlk.lanes.foldl (fun m l => max m (l.lastAt.getD 0)) 0 + ms s.mlk.partnerToMs) loseThePartner s
    else s)

/-- PARTNER_AWAIT_EXPIRY (R272): 30 s after the lanes were enabled. -/
def execPartnerAwaitExpiry (s : State) : Host.Outcome State Fault Refusal :=
  .next (match s.mlk.enabledAt with
    | some a =>
      if s.mlk.partner = .awaited then
        whenDue (a + sec 30) (fun s => loseThePartner (s.modMlk fun m => { m with awaitOver := true })) s
      else s
    | none => s)

/-! ### Mirror sets -/

/-- MIRROR_DECLARE (R267, R457): up to 8 regions of whole lines of the local store, within SH_MIR and the capacity of a lane, from the next
epoch on. -/
def execMirrorDeclare (inst gen addr count : Nat) (s : State) : Host.Outcome State Fault Refusal :=
  let d := s.inst inst
  let rd := fun a n => if d.inLs a n then lsRead inst a n s else dramRead inst a n s
  let ok := d.inLs addr (8 * count) || d.inDram addr (8 * count)
  let es := (List.range count).map fun k => (leNat (rd (addr + 8 * k) 4), leNat (rd (addr + 8 * k + 4) 4))
  let lines := (es.map fun e => e.2).sum
  let others := ((s.mlk.mir.filter fun p => p.1 != inst).map fun p => (p.2.declared.map fun r => r.2).sum).sum
  .next (if !s.genCurrent inst gen then lateAt .mgp 0 inst s
    else if 8 < count then answer inst [(Status.badParam 1).code] s
    else if !ok || es.any (fun e => e.1 % 256 != 0 || !d.inLs e.1 (256 * e.2)) then answer inst [(Status.badParam 0).code] s
    else if d.share.mir < lines then answer inst [(Status.noResource 0 0).code] s
    else if 20000000 * s.mlk.epochMs < (others + lines) * 2048 then answer inst [(Status.admission 0 0).code] s
    else
      let rs := es.map fun e => (e.1 / 256, e.2)
      let s := s.modMlk fun m => { m with mir := m.mir.mod inst {} fun x => { x with newRegions := some rs, newFrom := (s.epochNum + 1) * ms s.epochNow } }
      answer inst [Status.ok.code] (refreshOver inst (s.setInst inst fun d => { d with useMir := lines })))

/-- MIRROR_SET_SEND (R269): only while ACTIVE with the partner present, and on a lane that is up (R271). One for an instance that the partner's
status word does not name as ready is discarded there (R270; log entry 151). -/
def execMirrorSetSend (inst : Nat) (s : State) : Host.Outcome State Fault Refusal :=
  .next (match (s.mlk.mir.get inst {}).staged with
    | some set =>
      if s.cgu.role = .active ∧ !s.partnerGone ∧ s.linkOn ∧ s.laneUp then
        let s := s.modMlk fun m => { m with setsOut := m.setsOut ++ [set], mir := m.mir.mod inst {} fun x =>
          { x with staged := none, discarded := x.discarded || !m.word.ready.getLsbD inst } }
        let s := mlkCount 2 s
        if set.full then mlkCount 5 s else s
      else s
    | none => s)

/-- MIRROR_SET_RECEIVE (R270): a set that fails its CRC-32, is incomplete, or finds the own instance not READY or RUNNING is discarded; a
protecting unit takes none. -/
def execMirrorSetReceive (set : MirSet) (crcOk complete : Bool) (s : State) : Host.Outcome State Fault Refusal :=
  .next (if !s.linkOn || s.cgu.role.protecting then s
    else if !crcOk || !complete || mirrorOff set.inst s then setDiscard set.inst s
    else s.modMlk fun m => { m with mir := m.mir.mod set.inst {} fun x => { x with arrived := x.arrived ++ [set] } })

/-- SWITCH_BACK_LAPSE (R273, R274): a request not matched on the partner within 10 s. -/
def execSwitchBackLapse (s : State) : Host.Outcome State Fault Refusal :=
  .next (match s.mlk.swHeld with
    | some x => whenDue (x.2.1 + sec 10) (fun s =>
        switchRecord 77 (opDone x.2.2 (.state 77) [] (s.modMlk fun m => { m with swHeld := none }))) s
    | none => s)

end Sys2Proof.Machine
end

