-- ==== Sys2Proof/Machine/Serve.lean ====
section
/-!
DEFINITION. Machine/Serve.lean: the messages of the mailboxes in their 64 octets (R435, R438, R451, R453), and the service of a request: taken, judged
in the order of R436 and against its tag cache (R447), acted on, and answered.
-/
namespace Sys2Proof.Machine
open Sys2Proof

/-! ### Messages -/

/-- The first `n` octets, filled up with zeros. -/
def fit (n : Nat) (l : List Byte) : List Byte := (l ++ List.replicate (n - l.length) 0).take n

/-- Values laid out in fields, each given by its octets and the reserved octets after it. -/
def fields : List (Nat × Nat) → List Nat → List Byte
  | (w, gap) :: t, v :: vs => leBytes w v ++ List.replicate gap 0 ++ fields t vs
  | _, _ => []

/-- The fields of an event's PARAM (R451). -/
def eventFields (opcode : Nat) : List (Nat × Nat) :=
  if opcode = 0x01F0 then [(1, 1), (2, 0), (4, 0), (2, 0)] else if opcode = 0x01F2 then [(4, 0)] else if opcode = 0x02F1 then [(2, 0)]
  else if opcode = 0x02F2 then [(1, 0), (1, 0), (2, 0)]
  else if opcode = 0x03F0 then [(16, 0), (1, 1), (2, 0), (8, 0), (4, 0), (4, 0), (2, 0)]
  else if opcode = 0x03F1 then [(2, 0), (2, 0), (1, 0)]
  else if opcode = 0x07F0 ∨ opcode = 0x07F1 then [(1, 0), (1, 2), (4, 0), (4, 0)]
  else [(1, 0), (1, 0), (1, 0), (1, 0)]

/-- The fields in which a status carries its values (R453). -/
def Status.fields : Status → List (Nat × Nat)
  | .accepted _ => [(4, 0)] | .badParam _ => [(2, 0)] | .noInstance _ => [(4, 0)] | .noResource _ _ => [(2, 2), (4, 0)]
  | .admission _ _ => [(1, 1), (2, 0)] | .state _ => [(1, 0)] | .tableCheck _ _ => [(1, 1), (2, 0)] | .ksuResult _ => [(1, 0)] | _ => []

/-- The octets of an opcode's result: those of ECHO are its parameter octets (R459); the catalogue gives no places for the others. -/
def resultOctets (opcode : Nat) (vals : List Nat) : List Byte :=
  if opcode = 0x0103 then vals.map (BitVec.ofNat 8 ·) else if vals = [] then [] else Config.resultOctets opcode vals

/-- The message is an event (R451). -/
def Resp.isEvent (r : Resp) : Bool := decide (0xF0 ≤ r.opcode % 256)

/-- PARAM of a response or an event (R438, R451, R453). What an OP_DONE carries of its operation follows octet 25. -/
def Resp.param (r : Resp) : List Byte :=
  if r.isEvent then
    let shape := eventFields r.opcode
    fields shape r.result ++ (if r.opcode = 0x01F0 then resultOctets r.opcode (r.result.drop 4) else [])
  else if r.status ≠ .ok ∧ r.status ≠ .okReplaced then fields r.status.fields r.status.vals
  else
    let o := resultOctets r.opcode r.result
    if r.ind then leBytes 4 o.length ++ leBytes 4 (crc32 o).toNat else o

/-- A message's 64 octets (R435), its CRC-32 taken with octets 12 to 15 as zero. -/
def Resp.octets (r : Resp) : List Byte :=
  let p := r.param.take 48
  let inst := match r.inst with | some i => i % 512 | none => 32768
  let flags := b2n r.ind + (if r.isEvent then 4 else 2) + 8 * b2n r.dup
  let head := leBytes 2 r.opcode ++ leBytes 2 r.tag ++ leBytes 2 inst ++ leBytes 2 (if r.inst.isSome then r.gen else 0) ++ leBytes 1 p.length
    ++ leBytes 1 flags ++ leBytes 2 (if r.isEvent && decide (r.opcode ≠ 0x01F0) then 0 else r.status.code)
  head ++ leBytes 4 (crc32 (head ++ [0, 0, 0, 0] ++ fit 48 p)).toNat ++ fit 48 p

/-- A request as it stands in its slot (R435). -/
structure Msg where
  /-- OPCODE. -/
  opcode : Nat := 0
  /-- TAG. -/
  tag : Nat := 0
  /-- INSTANCE; none: NONE. -/
  inst : Option Nat := none
  /-- GEN. -/
  gen : Nat := 0
  /-- LEN. -/
  len : Nat := 0
  /-- FLAGS. -/
  flags : BitVec 8 := 0
  /-- CRC as written. -/
  crc : BitVec 32 := 0
  /-- It equals the CRC-32 of the octets. -/
  crcOk : Bool := true
  /-- PARAM. -/
  param : List Byte := []

/-- The message in 64 octets. -/
def Msg.of (l : List Byte) : Msg :=
  let crc := BitVec.ofNat 32 (leNat (slice l 12 4))
  let i := leNat (slice l 4 2)
  { opcode := leNat (slice l 0 2), tag := leNat (slice l 2 2), inst := if 32768 ≤ i then none else some (i % 512), gen := leNat (slice l 6 2),
    len := leNat (slice l 8 1), flags := l.getD 9 0, crc := crc, crcOk := decide (crc32 (putAt l 12 [0, 0, 0, 0]) = crc), param := slice l 16 48 }

/-- The opcodes of the catalogue (R458 to R469). -/
def catalogue : List Nat :=
  [(0x0100, 8), (0x0200, 11), (0x0210, 7), (0x0218, 3), (0x0300, 12), (0x0400, 7), (0x0500, 9), (0x0600, 6), (0x0700, 8), (0x0800, 9), (0x0900, 10),
   (0x0A00, 7), (0x0B00, 4)].flatMap fun p => (List.range p.2).map fun k => p.1 + k

/-- The opcodes whose parameters or results travel in an indirect buffer (R438, R458). -/
def indirectOps : List Nat :=
  [0x0100, 0x0200, 0x0206, 0x020A, 0x0212, 0x0213, 0x0300, 0x0302, 0x0306, 0x0400, 0x0401, 0x0403, 0x0600, 0x0605, 0x0802, 0x0901, 0x0907, 0x0A00,
   0x0A02, 0x0A04, 0x0A06, 0x0B03]

/-- The octets of the slot at REQ_HEAD of a pair (R439, R454). -/
def State.slotAt (s : State) : ReqSrc → List Byte
  | .host p => s.mbx.slots.get (64 * p + (s.mbx.pairs.get p {}).reqHead % 64) []
  | .inst i _ => let q := s.mbx.instPairs.get i {}; lsRead i (q.base + 64 * (q.reqHead % q.size)) 64 s
  | .mon => []

/-- The message that stands there; none where nothing has been written. -/
def State.written (s : State) (x : ReqSrc) : Option Msg :=
  let l := s.slotAt x
  if l.any fun b => b != 0 then some (Msg.of l) else none

/-! ### Indirect buffers (R438) -/

/-- Octets of a requester's buffer: host memory, or the instance's windows. -/
def bufRead (x : ReqSrc) (a n : Nat) (s : State) : List Byte :=
  match x with
  | .inst i _ => if (s.inst i).inLs a n then lsRead i a n s else dramRead i a n s
  | _ => s.mbx.hostMem.read a n

/-- Octets written into it. -/
def bufWrite (x : ReqSrc) (a : Nat) (octets : List Byte) (s : State) : State :=
  match x with
  | .inst i _ => if (s.inst i).inLs a octets.length then lsWrite i a octets s else dramWrite i a octets s
  | _ => s.modMbx fun m => { m with hostMem := m.hostMem.write a octets }

/-- The buffer lies in memory that the requester may name. -/
def bufInside (x : ReqSrc) (a n : Nat) (s : State) : Bool :=
  match x with | .inst i _ => (s.inst i).inLs a n || (s.inst i).inDram a n | _ => true

/-- The PARAM offset of the first field of the buffer that is out of its range. -/
def bufRange (addr len inLen : Nat) : Option Nat :=
  if addr % 64 ≠ 0 then some 0 else if len < 64 ∨ 67108864 < len then some 8 else if len < inLen then some 16 else none

/-- The request that a message is. The command gives what the message does not show: whether LEN fits its opcode, and whether the MGP finishes in
time. -/
def Msg.req (m : Msg) (r : Req) (s : State) : Req :=
  let ind := m.flags.getLsbD 0
  let at_ := leNat (slice m.param 0 8)
  let len := leNat (slice m.param 8 4)
  let inLen := leNat (slice m.param 16 4)
  let sum := BitVec.ofNat 32 (leNat (slice m.param 12 4))
  let ok := bufInside r.src at_ len s && decide (sum = if inLen = 0 then 0 else crc32 (bufRead r.src at_ inLen s))
  { r with
    tag := m.tag, inst := m.inst, gen := m.gen, crc := m.crc, crcOk := m.crcOk, flagsBad := m.flags.getLsbD 1 || m.flags.getLsbD 2,
    lenOk := r.lenOk && decide (m.len ≤ 48) && (ind || !indirectOps.contains m.opcode), other := none,
    bufBad := if ind then bufRange at_ len inLen else none, bufOk := !ind || (r.bufOk && ok), buf := if ind then some (at_, len) else none }

/-! ### Requests -/

/-- The requester of the mailbox-engine arbiter that a request comes through (R36, R439, R454): a host pair by its number, an instance by its
cluster. -/
def ReqSrc.requester (x : ReqSrc) (s : State) : Option Nat :=
  match x with
  | .host p => some p
  | .inst i _ => (instCluster i s).map fun k => 16 + k
  | .mon => none

/-- The requester still waits for its grant at the mailbox-engine arbiter (R37, R44). -/
def engineWaits (x : ReqSrc) (s : State) : Bool :=
  let a := s.fab.arbs.get 32 {}
  match x.requester s with
  | some k => (a.waiting.any fun w => w.idx == k) || a.backoffEnd.has k
  | none => false

/-- The MGP can take the request at REQ_HEAD of its pair (R434, R443, R482): MBX_READY is 1, no bank switch is before its handover, the pair's
requester does not wait at the mailbox engine, the pair has an untaken request and no reset of the pair is in progress. -/
def takeable (r : Req) (s : State) : Bool :=
  s.mbx.ready && s.persist.fwUp && (s.persist.switchOp.isNone || s.persist.handoverAt.isSome) && !engineWaits r.src s &&
    match s.pairOf r.src with
    | some p => decide (p.reqHead ≠ p.reqTail) && !p.resetBusy
    | none => false

/-- The requester with the identity the MGP uses: an instance's own number and generation replace what it wrote (R454). -/
def Req.effective (r : Req) : Req :=
  match r.src with
  | .inst i g => { r with inst := some i, gen := g }
  | _ => r

/-- The remaining hold-off of an instance number in ms (R453, NO_INSTANCE). -/
def State.holdLeft (s : State) (i : Nat) : Nat := ((s.inst i).quarEnd - s.now) / 1000000

/-- RESET, REMOVE, STOP and START: the requests that R196 answers while their instance is in RESETTING, whichever generation they name. -/
def lifeOps : List Nat := [0x0201, 0x0202, 0x0203, 0x0204]

/-- The INSTANCE and GEN check (R196, R436, R437): `need` says the opcode acts on a named instance. -/
def instCheck (opcode : Nat) (r : Req) (need : Bool) (s : State) : Option Status :=
  match r.inst with
  | none => if need then some (.badParam 0) else none
  | some i =>
    if i < 512 then
      if (s.inst i).state = .free ∨ (s.inst i).state = .quarantine then some (.noInstance (s.holdLeft i))
      else if (s.inst i).gen = r.gen then none
      else if (s.inst i).state = .resetting ∧ lifeOps.contains opcode then none else some .staleGen
    else some (.badParam 0)

/-- The permission check (R456). -/
def permCheck (r : Req) (sub : Subset) : Option Status :=
  match r.src with
  | .inst _ _ => if sub = .no then some .notPermitted else none
  | _ => none

/-- The checks after the CRC, in the order of R436, and the indirect buffer of R438; none: the request is acted on. -/
def precheck (opcode : Nat) (r : Req) (sub : Subset) (need : Bool) (s : State) : Option Status :=
  if r.flagsBad then some (.badParam 0)
  else if r.other.isSome then some .badOpcode
  else if !r.lenOk then some .badLength
  else match permCheck r sub with
    | some e => some e
    | none => match instCheck opcode r need s with
      | some e => some e
      | none => match r.bufBad with
        | some n => some (.badParam n)
        | none => if r.bufOk then none else some .dmaError

/-- The cached requests of the last second (R447). -/
def liveCache (c : List TagRec) (s : State) : List TagRec := c.filter fun t => decide (s.now < t.atNs + 1000000000)

/-- What a request is answered, and whether the answer is new and is cached (R436, R447). -/
structure Verdict where
  /-- The state after the request has acted. -/
  st : State
  /-- The response. -/
  resp : Resp := {}
  /-- The response enters the tag cache. -/
  keep : Bool := false

/-- The answer is ACCEPTED. -/
def Status.isAccepted : Status → Bool
  | .accepted _ => true | _ => false

/-- A request judged against its tag cache and the checks of R436, and acted on by `f` if all pass. A request that cannot be finished
in time is answered TIMEOUT and has taken effect wholly or not at all, which of the two being open (R449). -/
def judge (r : Req) (opcode : Nat) (sub : Subset) (need : Bool) (cache : List TagRec) (f : Req → State → State × Ans)
    (s : State) : Verdict :=
  let e := r.effective
  let base : Resp := { opcode := r.other.getD opcode, tag := r.tag, inst := e.inst, gen := e.gen, ind := r.buf.isSome }
  if !r.crcOk then { st := s, resp := { base with status := .badCrc } }
  else match (liveCache cache s).find? fun t => t.tag == r.tag with
    | some t =>
      if t.crc = r.crc then { st := s, resp := { t.resp with dup := true } }
      else { st := s, resp := { base with status := .tagReused } }
    | none =>
      match precheck opcode e sub need s with
      | some st => { st := s, resp := { base with status := st }, keep := true }
      | none =>
        let v := f e s
        if r.slow && !v.2.status.isAccepted then
          { st := (if s.free1 % 2 = 1 then v.1 else s).took, resp := { base with status := .timeout } }
        else
          { st := v.1, resp := { base with status := v.2.status, result := v.2.result }, keep := decide (v.2.status ≠ .restarted ∧ v.2.status ≠ .timeout) }

/-- The request at REQ_HEAD is taken (R443). -/
def take (r : Req) (s : State) : State :=
  s.setPair r.src fun p => { p with reqHead := (p.reqHead + 1) % 65536, taken := 1 }

/-- An answer that has a result of its own: OK or OK_REPLACED. -/
def Status.done : Status → Bool
  | .ok => true | .okReplaced => true | _ => false

/-- The result of a request with INDIRECT at 1 is written into its buffer from octet 0 (R438). -/
def bufferResult (r : Req) (v : Resp) (s : State) : State :=
  match r.buf with
  | some (a, n) => if v.status.done && !v.dup then bufWrite r.src a ((resultOctets v.opcode v.result).take n) s else s
  | none => s

/-- The response is written into its slot and RSP_TAIL advances (R440, R443): for an instance in the response ring of its local store (R454); the
vector of a host pair has a cause (R431). -/
def respond (r : Req) (v : Resp) (keep : Bool) (s : State) : State :=
  let s := bufferResult r v s
  let s' := s.setPair r.src fun p => { p with
    rsp := p.rsp.set (p.rspTail % p.size) v, rspTail := (p.rspTail + 1) % 65536, taken := 0,
    cache := if keep then liveCache p.cache s ++ [{ tag := r.tag, crc := r.crc, atNs := s.now, resp := v }] else liveCache p.cache s }
  match r.src with
  | .host p => vector p (s'.modMbx fun m => { m with slots := m.slots.del (1024 + 64 * p + (s.mbx.pairs.get p {}).rspTail % 64) })
  | .inst i _ =>
    let q := s.mbx.instPairs.get i {}
    lsWrite i (q.base + 64 * (q.size + q.rspTail % q.size)) v.octets s'
  | .mon => s'

/-- The verdict is answered, unless the request itself has put the firmware out of action: that one is answered after the restart (R450). -/
def answerReq (r : Req) (v : Verdict) : State :=
  if v.st.persist.fwUp then respond r v.resp v.keep v.st else v.st.setPair r.src fun p => { p with due := { v.resp with status := .ok, result := [] } }

/-- One request of a pair taken, judged and answered (R436, R443, R447). An instance whose generation is stale has its request discarded and counted
(R456), a trigger request in TRIG_LATE too (R318, R334). -/
def serveAs (r : Req) (opcode : Nat) (sub : Subset) (need : Bool) (f : Req → State → State × Ans) (s : State) : State :=
  match r.src with
  | .inst i g =>
    if s.genCurrent i g then
      let p := s.mbx.instPairs.get i {}
      answerReq r (judge r opcode sub need p.cache f (take r s))
    else
      let s := s.setInst i fun d => { d with lateDiscards := satAdd 32 d.lateDiscards 1 }
      if opcode = 0x0603 then s.modAcq fun a => { a with live := bump a.live 12 } else s
  | .host k =>
    let p := s.mbx.pairs.get k {}
    answerReq r (judge r opcode sub need p.cache f (take r s))
  | .mon => s

/-- The whole service of one request of a pair. A request that cannot be taken stays where it is. Where the slot at REQ_HEAD holds a message, that
message is the request (R435): one of another opcode waits for its own command, and one whose opcode is reserved is answered BAD_OPCODE (R458). Where
the slot holds nothing, the command is the message (log entry 164). -/
def serve (r : Req) (opcode : Nat) (sub : Subset) (need : Bool) (f : Req → State → State × Ans) (s : State) : State :=
  if takeable r s then
    match s.written r.src with
    | none => serveAs r opcode sub need f s
    | some m =>
      if m.opcode = opcode then serveAs (m.req r s) opcode sub need f s
      else if catalogue.contains m.opcode then s
      else serveAs { m.req r s with other := some m.opcode } opcode .yes false f s
  else s

end Sys2Proof.Machine
end

