-- ==== Sys2Proof/Machine/StartOps.lean ====
section
/-!
DEFINITION. Machine/StartOps.lean: what the firmware does at a start. The key store's root and slots (R411, R413), the recorder (R398,
R399), the persistent configuration laid over the blocks (R471), a restart (R479), the service declaration (R476 to R478), and the
conditions on CLM_EN (R474).
-/
namespace Sys2Proof.Machine
open Sys2Proof

/-! ### The key store -/

/-- A pair of shares as provisioning leaves it after `steps` of R411 (step 2 programs S1, then S2): sealed at the end where both read back well. -/
def SharePair.provision (p : SharePair) (root s1 : BitVec 256) (c : ColdIn) (steps : Nat) : SharePair :=
  let a := if steps = 0 then p.a else p.a.program s1 c.weakA
  let b := if steps < 2 then p.b else p.b.program (root ^^^ s1) c.weakB
  { a := a, b := b, sealed := decide (3 ≤ steps) && a.ok && b.ok }

/-- The KSU finds its root (R411): the sealed pair whose shares check, else the first unused pair, provisioned with a fresh root and S1 where
the generator's start-up tests pass. A pair whose read-back fails is not sealed; the next start goes on to the next pair. -/
def rootStart (c : ColdIn) (steps : Nat) (s : State) : State :=
  let k := s.ksu
  let fails := fun (s : State) =>
    raise { block := .ksu, kind := 13, access := 8 } (s.modKsu fun k => { k with rootState := 2 })
  match k.pairs.findIdx? fun p => p.sealed with
  | some n => if (k.pairs.getD n {}).ok then s.modKsu fun k => { k with rootState := 1, rootPair := n } else fails (s.modKsu fun k => { k with rootPair := n })
  | none =>
    match k.pairs.findIdx? fun p => !p.used with
    | none => fails s
    | some n =>
      if c.drawOk then
        let a := drawKey s
        let b := drawKey a.2
        let p := (k.pairs.getD n {}).provision a.1 b.1 c steps
        b.2.modKsu fun k => { k with rootState := b2n p.sealed, rootPair := n, pairs := k.pairs.set n p }
      else s

/-- Slots 0x000 to 0x002 from antifuse (R410). -/
def fuseSlots (s : State) : State :=
  s.modKsu fun k => { k with slots := (List.range 3).foldl (fun t n =>
    t.set n { cell := k.fuseKeys.getD n 0 ^^^ k.pad n, kcv := kcvOf (k.fuseKeys.getD n 0), valid := true, use := 4, lock := true, origin := 3 }) k.slots }

/-- The label of the flash wrapping key (R413). -/
def wrapLabel : List Byte := [0x57, 0x52, 0x41, 0x50]

/-- The module serial number as octets (R413, R424; log entry 26). -/
def State.serialOctets (s : State) : List Byte := beBytes 8 s.mbx.serial

/-- A saved slot that could not be restored is reported with its number (R413; log entry 5). -/
def slotReport (c : SavedSlot) (s : State) : State :=
  if (s.slot c.slot).valid then s else note .ksu 0 0x021 0 .none (leBytes 2 c.slot) s

/-- The KSU at a start (R413, R472 step 6): boot mask and root. -/
def ksuBegin (c : ColdIn) (steps : Nat) (s : State) : State :=
  let s := if c.drawOk then s.modKsu fun k => { k with trngOk := true } else s.modKsu fun k => { k with trngOk := false, live := bump k.live 13 }
  let s := s.took.modKsu fun k => { k with bootMask := BitVec.ofNat 512 s.free1, draws := k.draws + 1 }
  fuseSlots (rootStart c steps s)

/-- The KSU at a start (R413, R472 step 6): then slot 0x005, whose derivation is counted (R427), and the saved slots. -/
def ksuStart (c : ColdIn) (s : State) : State :=
  let s := ksuBegin c 3 s
  let s := if s.ksu.rootState = 1 then
      (slotWrite 5 (derived none wrapLabel s.serialOctets s) 2 s).modKsu fun k => { k with live := bump k.live 6 } else s
  s.ksu.saved.foldl (fun s c => restoreSlot c s) s

/-! ### The recorder -/

/-- The save area whose header carries the newest SEQ (R398). -/
def Evr.newestArea (e : Evr) : Option SaveArea :=
  let a := e.areas.getD 0 {}
  let b := e.areas.getD 1 {}
  if newerArea a b then some b else if a.recs ≠ [] then some a else none

/-- The EVR starts (R398): the newest save is placed back, records whose CRC fails left out, and RESTORED is written. BOOT advances, except at
a return from WINTER. -/
def evrStart (fromWinter : Bool) (s : State) : State :=
  let s := s.modEvr fun e => { e with
    running := true, frozen := false, boot := if fromWinter then e.boot else (e.boot + 1) % 65536,
    saveState := if e.areas.any fun a => a.erased then 1 else 0 }
  match s.evr.newestArea with
  | none => s
  | some a =>
    let good := a.recs.filter fun r => r.crcOk
    let first := nextSeq (match good with | r :: _ => r.seq | [] => 0)
    let s := s.modEvr fun e => { e with
      ring := good, next := first, oldest := match good.getLast? with | some r => r.seq | none => first, live := bump e.live 9 good.length }
    let s := if a.complete then s else s.modEvr fun e => { e with live := bump e.live 8 }
    writeRecord (s.occ .mgp 0 0x004 0 .none (leBytes 4 good.length ++ leBytes 4 (a.recs.length - good.length) ++ leBytes 1 (b2n a.complete))) s

/-- Every cursor starts at the oldest record (R393, R401). -/
def cursorsStart (s : State) : State := s.modEvr fun e => { e with cursors := e.cursors.map fun _ => { seq := e.oldest } }

/-- The BKI hands over the records it held, in their order, and HELD_SUMMARY (R399). -/
def heldRecords (s : State) : State :=
  let held := s.bki.held
  let lost := s.bki.heldLost
  let s := s.modBki fun b => { b with held := [], heldLost := 0 }
  let s := held.foldl (fun s r => writeOccurrence r (s.modEvr fun e => { e with live := bump e.live 1 })) s
  writeRecord (s.occ .bki 0 0x005 0 .none (leBytes 4 held.length ++ leBytes 4 lost)) s

/-! ### The persistent configuration -/

/-- A saved entry takes a place under the new hash seed (R111, R471). -/
def restoreStream (e : StreamEntry) (s : State) : State :=
  match place true e.key s with | some p => commitNow (putChanges { op := .putStream, stream := e } p) s | none => s

/-- As for a static forwarding entry. -/
def restoreFwd (e : FwdEntry) (s : State) : State :=
  match place false e.key s with | some p => commitNow (putChanges { op := .putFwd, fwd := e } p) s | none => s

/-- Where a saved stream entry's index has gone; references to it follow. -/
def movedIndex (t : Tbl StreamEntry) (i : Nat) (s : State) : Nat := if t.has i then (streamLookup (t.get i {}).key s).getD 65535 else i

/-- A saved group with its binding, its subscribers waiting for their instances' new lives (R169, R471). -/
def restoreGroup (t : Tbl StreamEntry) (s : State) (g : Group) : Group :=
  { g with entry := movedIndex t g.entry s, subs := g.subs.map fun x => if x.held then { x with gen := 1, valid := false, wait := true } else x }

/-- The static entry of an address, unless its key has one (R118). -/
def ensureStatic (mac vid type target : Nat) (s : State) : State :=
  match fwdLookup (fwdKey mac vid) s with | some _ => s | none => putStatic mac vid type target 0 s

/-- A saved instance starts from its image with generation 1 (R471). -/
def restoreInst (i : Nat) (d : Inst) (s : State) : State :=
  let ls := lsPick d.share.ls s
  let dram := dramPick d.share.dram s
  let s := dramOwn dram (i + 1) (lsOwn ls (i + 1) s)
  let s := s.setInst i fun _ => { d with state := .ready, gen := 1, lsMap := ls, dramMap := dram }
  let s := lsWrite i 0 d.image s
  (macVids d.allow).foldl (fun s v => ensureStatic d.mac.toNat v 3 i s) s

/-- The module's own addresses have static entries that deliver to the MGP (R118, R522); no address of the host is given, so none has an entry
(DESIGN CHOICE, log entry 169). -/
def ownStatics (s : State) : State := (List.range 9).foldl (fun s k => ensureStatic (s.blockMac k) 1 1 0 s) s

/-- The switch settings of a copy (R470). -/
def restoreSwitch (c : Switch) (s : State) : State :=
  let s := s.modSw fun w => { w with
    learnEn := c.learnEn, prpEn := c.prpEn, hsrEn := c.hsrEn, holdoffMs := c.holdoffMs, fwdIdleS := c.fwdIdleS, clsAge := c.clsAge,
    portLearn := c.portLearn, flood := c.flood, mir := c.mir, policy := c.policy, bitmaps := c.bitmaps }
  let s := c.streams.foldl (fun s e => restoreStream e.2 s) s
  c.fwd.foldl (fun s e => restoreFwd e.2 s) s

/-- The pair and time settings of a copy. CLM_EN waits for R475. -/
def restorePair (c : Snapshot) (s : State) : State :=
  let s := s.modCgu fun g => { g with
    claimRxEn := c.cgu.claimRxEn, ownClaim := c.cgu.ownClaim, claimMemMs := c.cgu.claimMemMs, tripAssign := c.cgu.tripAssign }
  let s := s.modOcu fun o => { o with en := c.ocu.en, plausWinMs := c.ocu.plausWinMs, windowUs := c.ocu.windowUs }
  let s := s.modMlk fun m => { m with partnerToMs := c.mlk.partnerToMs, epochMs := c.mlk.epochMs }
  s.modTime fun t => { t with
    ref := c.time.ref, refAct := c.time.ref, autoSwitch := c.time.autoSwitch, ppsEn := c.time.ppsEn, ppsGate := c.time.ppsGate,
    domA := { t.domA with num := c.time.domA.num }, domB := { t.domB with num := c.time.domB.num }, switchMaxUs := c.time.switchMaxUs,
    holdoverS := c.time.holdoverS, stepThrUs := c.time.stepThrUs, ppsWidth := c.time.ppsWidth, ports := c.time.ports, cmps := c.time.cmps }

/-- The granules of a stream's staging buffer (R326). -/
def acqGranules (n : Nat) (s : State) : State :=
  let gs := dramPick (s.acqS n).stageGran s
  (dramOwn gs acqTag s).setAcqS n fun x => { x with granules := gs }

/-- Capture starts afresh (R329). -/
def acqBegin (n : Nat) (s : State) : State :=
  s.setAcqS n fun x => { x with en := true, run := true, stopReason := 0, frameSeq := 0, markSeq := 0, stageHwm := 0, items := [], frames := [], sst := [], trigs := [] }

/-- An enabled stream starts capture, in SPRING at its end (R490). -/
def acqEnable (n : Nat) (s : State) : State := if s.season.season = .spring then s.setAcqS n fun x => { x with en := true } else acqBegin n s

/-- The acquisition settings of a copy; enabled streams take their granules and wait for the end of SPRING (R490). -/
def restoreAcq (t : Tbl StreamEntry) (c : Acq) (s : State) : State :=
  let s := s.modAcq fun a => { a with
    en := c.en, deadMs := c.deadMs, trigInEn := c.trigInEn, trigInEdge := c.trigInEdge,
    streams := c.streams.map fun x => (x.1, { x.2 with srcs := x.2.srcs.map fun y => if y.raw then { y with ref := movedIndex t y.ref s } else y }) }
  c.streams.foldl (fun s x => if x.2.en ∧ x.2.stageGran ≤ s.dramFree then acqGranules x.1 s else s.setAcqS x.1 fun y => { y with en := false }) s

/-- Settings of the remaining blocks. -/
def restoreRest (c : Snapshot) (s : State) : State :=
  let s := s.modFab fun f => { f with arbs := c.arbs }
  let s := c.ports.foldl (fun s p => s.setPort p.1 fun q => (p.2.settings q).judged) s
  let s := s.modSched fun x => { x with pscs := c.sched.pscs, loops := c.sched.loops, vVf := c.sched.vVf }
  let s := s.modInsts fun n => { n with holdoffMs := c.holdoffMs, locks := c.insts.locks }
  let s := s.modSeason fun z => { z with ret := c.season.ret, wakeEn := c.season.wakeEn, wakeTimerS := c.season.wakeTimerS }
  let s := c.quiet.foldl (fun s q => s.modFaults fun x => { x with sets := x.sets.mod q.1 {} fun y => { y with quietMs := q.2 } }) s
  let s := s.modEvr fun e => { e with buckets := c.buckets, saveEn := c.saveEn, limitEn := c.limitEn }
  let s := s.modHead fun h => { h with forced := c.forced }
  s.modWake fun w => { w with pattern := w.pattern.orElse fun _ => c.pattern }

/-- A copy applied to the blocks (R471, R472 step 7). -/
def applyConfig (c : Snapshot) (s : State) : State :=
  let s := restorePair c (restoreRest c s)
  let s := restoreSwitch c.sw s
  let s := s.modSce fun e => { e with
    en := c.sce.en, ctxs := c.sce.ctxs, groups := c.sce.groups.map fun g => (g.1, restoreGroup c.sw.streams s g.2) }
  let s := s.modKsu fun k => { k with
    verifyEn := c.verifyEn, ver := c.ver.map fun v => (v.1, { v.2 with entry := movedIndex c.sw.streams v.2.entry s }) }
  let s := c.insts.desc.foldl (fun s d => restoreInst d.1 d.2 s) s
  let s := restoreAcq c.sw.streams c.acq s
  refreshAllOver s

/-- A PSC is started once its rail and its clock are good (R229): FRAME_NO counts from here (R213). -/
def startPsc (k : Nat) (s : State) : State :=
  if s.power.badRails.contains (.vc k) ∨ s.time.tbStopped then s else frameCmp k (s.setPsc k fun p => { p with en := true, fresh := true, frameNo := 0 })

/-- The newest copy whose CRC checks is applied, and the MGP records which (R471); a module with none starts empty. The
partition schedulers start (R229). -/
def restoreConfig (s : State) : State :=
  let s := s.took.modSw fun w => { w with seed := s.free1 }
  let s := match newestCopy s.persist.copies with
    | some c =>
      let s := applyConfig c.cfg s
      let s := s.modPersist fun p => { p with intent := c.cfg.intent, clmEnSaved := c.cfg.cgu.clmEn, changedAt := none }
      note .mgp 0 0x022 0 .none (leBytes 4 c.seq) s
    | none => s
  (List.range 8).foldl (fun s k => startPsc k s) (ownStatics s)

/-! ### Starting up -/

/-- A mailbox pair after its reset (R444): its indices 0, its tag cache empty; BAD_TAIL and the slots stand. -/
def Pair.cleared (p : Pair) : Pair := { size := p.size, base := p.base, badTail := p.badTail, rsp := p.rsp }

/-- The transfer timeouts that the MGP sets at its start (R30): 10 us to 10 ms each. The spec gives no setting of any block: free values (log entry
65). -/
def setTimeouts (s : State) : State :=
  s.took.modFab fun x => { x with timeoutUs := allSets.map fun p => (setKey p.1 p.2, 10 + Config.transferTimeout s.free (setKey p.1 p.2) % 9991) }

/-- The firmware sets the transfer timeouts (R30), copies the active partition bank over a shadow that still waits for it (R215, R217), resets the
host pairs whose reset was asked for meanwhile (R444), and tells the host that it has started (R451): 0 cold start, 1 restart, 2 bank switch. -/
def mgpStarted (reason : Nat) (s : State) : State :=
  let s := (List.range 8).foldl (fun s k => bankCopied k s) (setTimeouts s)
  let s := s.modMon fun m => { m with txOn := true }
  let s := s.modMbx fun m => { m with
    ready := !s.power.perstLow, pairs := m.pairs.map fun p => (p.1, if p.2.resetBusy then p.2.cleared else p.2) }
  vector 19 (emit 0x01F1 none 0 [b2n s.bki.bootBank, reason, (recentRestarts s).length] s)

/-- The MGP's next heartbeat (R350). -/
def heartbeat (s : State) : State := hbWrite (s.bki.hbValue + 1) s

/-- The verifier's outcome is counted (R423, R427). -/
def imageCount (ok : Bool) (s : State) : State := s.modKsu fun k => { k with live := bump k.live (if ok then 8 else 9) }

/-- The Dzix image verifies (R423): its CRC, its signature, and its key's hash in one of the slots 0x000 to 0x002, which hold the antifuse values. -/
def dzixVerified (x : Image) (s : State) : Bool := x.crcOk && x.sigOk && s.ksu.fuseKeys.any fun v => v == x.keyHash

/-- One of the steps 3 to 7 of a cold start, whether it succeeds, and what it does (R472). Step 3 verifies the image of the bank that the MGP starts
from. A step 6 that fails may leave a provisioning of the root interrupted (R411). The slot pins are read at a cold start and not at a return from
WINTER (R499). Main SRAM and DRAM are zero in the model from the start. -/
def coldDo (c : ColdIn) (n : Nat) (s : State) : Bool × State :=
  let ok := decide (c.fails ≠ some n)
  match n with
  | 3 =>
    let ok := c.imageOk && dzixVerified (s.persist.dzixImg.getD (b2n s.bki.bootBank) {}) s
    (ok, imageCount ok s)
  | 4 =>
    let s := if s.season.lastWake = 0 then readSlotPins s else s
    (ok, if ok then (heartbeat (s.modBki fun b => { b with hbEn := true, hbOpen := false })).modBki fun b => { b with clmHold := false } else s)
  | 6 =>
    (ok, if ok then
      let s := heldRecords (cursorsStart (evrStart (decide (s.season.lastWake ≠ 0)) (ksuStart c s)))
      s.ksu.saved.foldl (fun s c => slotReport c s) s
    else ksuBegin c c.provisioned s)
  | 7 => (ok, if ok then restoreConfig s else s)
  | _ => (ok, s)

/-- Steps 3 to 7 of a cold start in their order, from the first that is not complete, as far as none fails (R472, R480). -/
def coldRun (c : ColdIn) : List Nat → State → State
  | [], s => s
  | n :: rest, s =>
    if s.persist.coldStep < n then
      (if (coldDo c n s).1 then coldRun c rest ((coldDo c n s).2.modPersist fun p => { p with coldStep := n }) else (coldDo c n s).2)
    else coldRun c rest s

/-- Steps 8 to 10 of a cold start (R472): the firmware takes requests, and MGP_STARTED carries reason 0. -/
def coldEnd (s : State) : State :=
  let s := s.modPersist fun p => { p with fwUp := true, restarted := false }
  let s := s.modMbx fun m => { m with fwBank := s.bki.bootBank, bankSwitch := false }
  let s := mgpStarted 0 s
  let s := syncCmp (s.modMlk fun m => { m with enabledAt := some s.now })
  s.modPersist fun p => { p with coldStep := 10 }

/-- A cold start from the release of the MGP reset (R472): one step of the model (log entry 25), which ends where a step fails. -/
def coldGo (c : ColdIn) (s : State) : State :=
  let s := coldRun c [3, 4, 5, 6, 7] (s.modPersist fun p => { p with coldStep := max 2 p.coldStep })
  if s.persist.coldStep = 7 then coldEnd s else s

/-- What a resumed start finds is drawn from the free values (log entry 25). -/
def coldDrawn (s : State) : ColdIn :=
  let n := s.free1
  { imageOk := n % 2 == 0, drawOk := n / 2 % 2 == 0, fails := if n / 4 % 2 = 0 then none else some (4 + n / 8 % 4), provisioned := n / 32 % 3 }

/-! ### Service -/

/-- The detail of the record that the MGP posts for a latched finding (R377, R386): what FE_CODE names, with LATCHED. -/
def FirstErr.detail (e : FirstErr) : List Byte :=
  leBytes 8 e.addr ++ [BitVec.ofNat 8 e.mBlock, BitVec.ofNat 8 e.mUnit, BitVec.ofNat 8 e.access, 1, e.s0, e.s1, BitVec.ofNat 8 e.pos, 0]
    ++ List.replicate 12 0

/-- One record for a latched finding, as the MGP posts it (R377). The firmware posts no faster than its queue is written. -/
def latchedRecord (x : FaultSet) (s : State) : State :=
  if x.feValid ∧ x.fe.latched then postPaced (s.occ .mgp 0 x.fe.code x.fe.cls x.fe.owner x.fe.detail x.fe.inj) s else s

/-- The MGP reads every latched record, posts one record for each, and switches every block to FULL and re-arms it (R377). -/
def latchedRead (s : State) : State :=
  let s := allSets.foldl (fun s p => latchedRecord (s.fset p.1 p.2) s) s
  allSets.foldl (fun s p => s.setFset p.1 p.2 fun x => { x with capture := false, captureAct := false, feValid := false, overflow := false }) s

/-- The reason for which a declaration in service is refused (R476, R477); `long` says whether another long operation of the chapter counts. -/
def serviceRefused (s : State) : Option Nat :=
  if !s.persist.started then some 1
  else if !(s.cgu.role == .active || s.cgu.role == .alone || s.cgu.role == .standby) then some 2
  else if !s.time.ok ∧ s.now < s.persist.startedAt + sec 60 then some 3
  else if s.sw.hsrEn ∧ !s.head.through then some 4
  else if s.longBusy liveChangeOps then some 5
  else none

/-- The module is declared in service (R476, R478); a declaration while TIME is 0 is recorded with that condition. The intent is stored (R470). -/
def serviceOn (s : State) : State :=
  let s := latchedRead s
  let s := s.modMbx fun m => { m with inService := true }
  let s := vector 19 (emit 0x01F3 none 0 [1] (configChanged (s.modPersist fun p => { p with intent := true })))
  if s.time.ok then s else note .mgp 0 0x025 0 .none [] s

/-- The module leaves service (R478). -/
def serviceOff (s : State) : State :=
  let s := s.modMbx fun m => { m with inService := false }
  vector 19 (emit 0x01F3 none 0 [0] (captureAll true (configChanged (s.modPersist fun p => { p with intent := false }))))

/-! ### CLM_EN -/

/-- The partner is present and ACTIVE or ALONE. -/
def partnerProtects (s : State) : Bool := !s.partnerGone && (s.mlk.word.role == .active || s.mlk.word.role == .alone)

/-- Warm-up is complete (R474). -/
def warm (s : State) : Bool :=
  (s.live.all fun p => s.useSlots p.1 == 0 ||
    (p.2.state == .running && match p.2.runningAt with | some t => decide (t + sec 1 ≤ s.now) | none => false))
  && (!partnerProtects s || s.mlk.mir.all fun p => p.2.declared == [] || (!p.2.needFull && p.2.lastEpoch.isSome))

/-- The reason for which setting CLM_EN is refused (R474, R477). -/
def claimRefused (s : State) : Option Nat :=
  if !s.persist.started then some 10
  else if s.cgu.ownClaim = 0 then some 12
  else if !warm s then some 10
  else if partnerProtects s && decide (s.mlk.partnerClaim ≤ s.cgu.ownClaim) then some 11
  else none

/-! ### A restart -/

/-- The answer to a request that the old firmware had taken and not answered (R450): its header with RESTARTED. -/
def Pair.lost (p : Pair) : Resp := { p.due with status := .restarted }

/-- A pair after a restart (R450): a taken request is answered, the tag cache is cleared. -/
def restartPair (p : Pair) : Pair :=
  if p.taken ≠ 0 then { p with
    rsp := p.rsp.set (p.rspTail % p.size) p.lost, rspTail := (p.rspTail + 1) % 65536, taken := 0, due := {}, cache := [] }
  else { p with cache := [] }

/-- Every pair after a restart (R450, R479): an instance's answer stands in the ring of its local store (R454), and the vector of an answered host pair
has a cause (R431). -/
def restartPairs (s : State) : State :=
  let s := s.mbx.instPairs.foldl (fun s q =>
    if q.2.taken ≠ 0 then lsWrite q.1 (q.2.base + 64 * (q.2.size + q.2.rspTail % q.2.size)) q.2.lost.octets s else s) s
  let told := (s.mbx.pairs.filter fun p => decide (p.2.taken ≠ 0)).map fun p => (p.1, p.2.rspTail)
  let s := s.modMbx fun m => { m with
    pairs := m.pairs.map fun p => (p.1, restartPair p.2), instPairs := m.instPairs.map fun p => (p.1, restartPair p.2) }
  told.foldl (fun s p => vector p.1 (s.modMbx fun m => { m with slots := m.slots.del (1024 + 64 * p.1 + p.2 % 64) })) s

/-- What an image replacement held runs now (R485): a reset or removal, and a removal that waits behind a reset (R196). -/
def runHeld (r : Replace) (s : State) : State :=
  match r.held with
  | [] => s
  | (removal, h, clear) :: rest =>
    if (s.inst r.inst).exists_ then
      let s := beginReset r.inst removal clear h s
      match rest with
      | (true, h2, _) :: _ => s.setInst r.inst fun d => { d with removeHeld := some h2 }
      | _ => s
    else s

/-- Long operations in progress at a restart (R450): a reset or removal goes on (R196); every other one ends RESTARTED, with what belongs to
it: granules of a creation return, a replacement is given up. -/
def restartOps (s : State) : State :=
  let hs := (s.mbx.ops.filter fun o => o.done.isNone && o.opcode != 0x0201 && o.opcode != 0x0202).map fun o => o.handle
  let rs := s.persist.replacing
  let s := s.insts.creating.foldl (fun s c => dramGive c.dram (lsGive c.ls s)) s
  let s := s.modInsts fun n => { n with creating := [] }
  let s := s.modPersist fun p => { p with
    staging := none, switchOp := none, importOp := none, importBatches := [], importGroups := [], importElems := [], importPubs := [], importLines := [],
    replacing := [] }
  let s := s.modMlk fun m => { m with swHeld := none }
  let s := hs.foldl (fun s h => opDone h .restarted [] s) s
  rs.foldl (fun s r => runHeld r s) s

/-- The restarted firmware takes up its work (R479). -/
def restartSteps (s : State) : State :=
  let s := s.modPersist fun p => { p with fwUp := true, restarted := true }
  let s := s.modBki fun b => { b with clmHold := false }
  let s := persistNow s
  let s := if s.mbx.inService then latchedRead s else s
  let s := restartPairs (s.modMbx fun m => { m with fwBank := s.bki.bootBank })
  mgpStarted 1 (restartOps s)

/-- A restart during a cold start (R480): the new bank's image is verified, the heartbeat is written, and the sequence goes on from the first step
that is not complete. One that had come to step 8 goes on there, with requests answered and MGP_STARTED written as at any start of the firmware. -/
def coldResume (c : ColdIn) (s : State) : State :=
  let x := coldDo c 3 s
  if !x.1 then x.2
  else
    let s := if 4 ≤ s.persist.coldStep then heartbeat x.2 else x.2
    let s := s.modPersist fun p => { p with coldStep := min 7 (max 3 p.coldStep) }
    let again := decide (7 ≤ x.2.persist.coldStep)
    let s := coldRun c [4, 5, 6, 7] s
    if s.persist.coldStep < 7 then s
    else if again then coldEnd (restartOps (restartPairs (s.modPersist fun p => { p with fwUp := true })))
    else coldEnd s

end Sys2Proof.Machine
end

