-- ==== Sys2Proof/Machine/Mailbox.lean ====
section
/-!
DEFINITION. Machine/Mailbox.lean: the mailbox pairs of the host and of the instances, as rings: registration, doorbells, resets (R439 to
R444, R454), and the MSI-X messages (R431).
-/
namespace Sys2Proof.Machine
open Sys2Proof

/-- An instance's registration of `n` octets at guest address `a` of its local store is possible: it lies wholly in the local store and
meets nothing else registered there (R236, R454). -/
def ringFree (i a n : Nat) (s : State) : Bool := (s.inst i).inLs a n && !meetsRegistered i a n true s

/-- MBOX_REGISTER (R454, R457): the pair is registered, or replaced as by a pair reset. Requests that the MGP has taken have been answered:
one request is one step. A call of a dead generation is late (R177). -/
def execMboxRegister (inst gen addr slots : Nat) (s : State) : Host.Outcome State Fault Refusal :=
  .next (if !s.genCurrent inst gen then lateAt .mgp 0 inst s
    else if addr % 4096 ≠ 0 then answer inst [(Status.badParam 0).code] s
    else if slots ≠ 4 ∧ slots ≠ 8 ∧ slots ≠ 16 then answer inst [(Status.badParam 1).code] s
    else if !ringFree inst addr (128 * slots) (s.modMbx fun m => { m with instPairs := m.instPairs.del inst }) then
      answer inst [(Status.badParam 0).code] s
    else answer inst [Status.ok.code] (s.modMbx fun m => { m with instPairs := m.instPairs.set inst { size := slots, base := addr } }))

/-- A pair counts a TAIL write that is ignored (R442, R444). -/
def Pair.refuseTail (p : Pair) : Pair := { p with badTail := satAdd 16 p.badTail 1 }

/-- REQ_TAIL_WRITE (R442, R444). -/
def execReqTailWrite (pair tail : Nat) (s : State) : Host.Outcome State Fault Refusal :=
  .next (if pair < 16 ∧ s.pciUp then
      s.setPair (.host pair) fun p =>
        if p.resetBusy ∨ !p.tailOk tail then p.refuseTail else { p with reqTail := tail % 65536 }
    else s)

/-- PAIR_RESET (R444): done at once where the MGP takes requests; else it stands in progress until the MGP has started. -/
def execPairReset (pair : Nat) (s : State) : Host.Outcome State Fault Refusal :=
  .next (if pair < 16 ∧ s.pciUp then
      s.setPair (.host pair) fun p => if s.mbx.ready ∧ s.persist.fwUp then p.cleared else { p with resetBusy := true }
    else s)

/-- MBX_REQ_TAIL_WRITE (R454, R455): refused while the instance is RESETTING. -/
def execMbxReqTailWrite (inst gen tail : Nat) (s : State) : Host.Outcome State Fault Refusal :=
  .next (if s.genCurrent inst gen ∧ (s.inst inst).state = .resetting then s else instTail inst gen tail s)

/-- A vector that is assigned (R431). -/
def vectorUsed (v : Nat) : Bool := decide (v < 20) || (decide (32 ≤ v) && decide (v < 48))

/-- MSI_X_MESSAGE (R431): a masked vector sets its pending bit and keeps its cause; an unmasked one is sent, at most once per 10 µs. -/
def execMsiXMessage (vec : Nat) (s : State) : Host.Outcome State Fault Refusal :=
  let send := fun s : State =>
    if s.mbx.msixMask.getLsbD vec then s.modMbx fun m => { m with msixPend := setBit m.msixPend vec true }
    else s.modMbx fun m => { m with
      msixPend := setBit m.msixPend vec false, msixDue := m.msixDue.del vec, msixAt := m.msixAt.set vec s.now }
  .next (if vectorUsed vec ∧ s.mbx.msixDue.get vec false ∧ s.pciUp then
      (if s.mbx.msixAt.has vec then whenDue (s.mbx.msixAt.get vec 0 + us 10) send s else send s)
    else s)

end Sys2Proof.Machine
end

