-- ==== Sys2Proof/Machine/NetTime.lean ====
section
/-!
DEFINITION. Machine/NetTime.lean: the commands of network time (R285 to R306).
-/
namespace Sys2Proof.Machine
open Sys2Proof

/-- A message of an optical port reaches the slave function (R278, R285): PTP_EN is set and it is sent to `addr`, the address of its kind. -/
def State.ptpHears (s : State) (port dst addr : Nat) : Bool := decide (port < 6) && (s.ptp port).ptpEn && dst == addr

/-- SYNC_MESSAGE (R289, R290): a Sync, with its Follow_Up where two-step, on the slave port of a domain. A stamp taken between a change of the
port's rate or FEC and its next link up is not used (R284). -/
def execSyncMessage (port : Nat) (m : SyncMsg) (s : State) : Host.Outcome State Fault Refusal :=
  .next (if s.ptpHears port m.dst ptpAddr ∧ !(s.port port).stampsOff ∧ syncIntervals.contains m.intervalNs then
      (domainsOf m.domain s).foldl (fun s b =>
        let d := s.time.dom b
        if d.slave = some port ∧ d.gm = some m.source then
          let s := s.setDom b fun d => { d with lastSync := s.now, syncNs := m.intervalNs }
          if s.persist.fwUp then servoTakes b (rawOffset port m s) s else s
        else s) s
    else s)

/-- ANNOUNCE_MESSAGE (R278, R289): a candidate for the best master algorithm, in place of the last one of its port and source
(log entry 175). One whose logAnnounceInterval is not 0 to 2 is counted as received and not used. -/
def execAnnounceMessage (port : Nat) (m : AnnMsg) (s : State) : Host.Outcome State Fault Refusal :=
  .next (if s.ptpHears port m.dst ptpAddr then
      let bs := domainsOf m.domain s
      let s := if bs = [] then s else tbuCount 2 s
      if 2 < m.body.logInt then s
      else bs.foldl (fun s b => reselect b (s.setDom b fun d => { d with
        best := d.best.filter (fun a => a.port ≠ port ∨ a.source ≠ m.body.source) ++ [{ m.body with port := port, atNs := s.now }] })) s
    else s)

/-- PDELAY_LOST (R288): after 3 requests in a row without a response the port is no slave port. -/
def pdelayMissed (k : Nat) (s : State) : State :=
  let n := (s.ptp k).missed + 1
  let s := s.setPtp k fun p => { p with missed := n, usable := p.usable && decide (n < 3) }
  if n = 3 then reselect true (reselect false (tbuCount 8 s)) else s

/-- PDELAY_REQ_SEND (R288): every 1 s on a port with PTP_EN and PDELAY_EN. -/
def execPdelayReqSend (port : Nat) (s : State) : Host.Outcome State Fault Refusal :=
  let p := s.ptp port
  .next (if port < 6 ∧ p.ptpEn ∧ p.pdelayEn ∧ (s.port port).link then
      whenDue (if p.reqStamp = 0 then 0 else p.reqStamp + sec 1) (fun s =>
        let s := if p.reqOut then pdelayMissed port s else s
        let s := pdSend { port := port, domain := s.time.domA.num, pcp := p.pcp, untagged := p.untagged, seq := p.reqSeq } s
        s.setPtp port fun p => { p with reqOut := true, reqStamp := s.now, reqSeq := (p.reqSeq + 1) % 65536 }) s
    else s)

/-- PDELAY_RESP_RECEIVE (R288): the servo writes the filtered link delay, whose filter the spec does not give (log entry 3). Between a change of
the port's rate or FEC and its next link up no stamp is used, and the delay stays (R284). -/
def execPdelayRespReceive (port : Nat) (_turnaround : Int) (s : State) : Host.Outcome State Fault Refusal :=
  let p := s.ptp port
  .next (if port < 6 ∧ p.ptpEn ∧ p.pdelayEn ∧ p.reqOut then
      let s := s.setPtp port fun p => { p with reqOut := false, missed := 0, usable := true }
      let s := if s.persist.fwUp ∧ !(s.port port).stampsOff then s.took.setPtp port fun p => { p with linkDelay := s.free1 % 2 ^ 32 } else s
      reselect true (reselect false s)
    else s)

/-- Age at which a domain has had no valid Sync for 3 intervals, or its slave port no Announce (R289). -/
def holdoverDue (b : Bool) (s : State) : Nat :=
  let d := s.time.dom b
  let a := d.lastSync + 3 * d.syncNs
  match d.parent with
  | some x => min a (x.expires s.time)
  | none => a

/-- HOLDOVER_ENTRY (R289): in hardware; recorded and counted; with AUTO_SWITCH the firmware may switch (R294). -/
def execHoldoverEntry (dom : Bool) (s : State) : Host.Outcome State Fault Refusal :=
  let st := (s.time.dom dom).state
  .next (if st = 1 ∨ st = 2 then
      whenDue (holdoverDue dom s) (fun s =>
        let s := s.setDom dom fun d => { d with state := 3, holdAt := s.now, good := 0, far := 0, hist := [] }
        let s := note .tbu 0 0x382 0 .none (leBytes 1 (b2n dom)) (tbuCount 12 s)
        autoSwitch (reselect dom s)) s
    else s)

/-- FREERUN_ENTRY (R289, R291): HOLDOVER has lasted HOLDOVER_S. -/
def execFreerunEntry (dom : Bool) (s : State) : Host.Outcome State Fault Refusal :=
  let d := s.time.dom dom
  .next (if d.state = 3 then whenDue (d.holdAt + sec s.time.holdoverS) (fun s => s.setDom dom fun d => { d with state := 0 }) s else s)

/-- TB_STEP_GO (R295): a step by TB_STEP. -/
def execTbStepGo (s : State) : Host.Outcome State Fault Refusal := .next (if s.time.tbStopped then s else doStep s.time.step s)

/-- REF_WRITE (R293). -/
def execRefWrite (ref : Bool) (s : State) : Host.Outcome State Fault Refusal := .next (writeRef ref s)

/-- SLEW_COMPLETE (R293): the ticks that the remainder still takes. -/
def execSlewComplete (s : State) : Host.Outcome State Fault Refusal :=
  .next (if s.time.slewing ∧ !s.time.tbStopped then s.modTime fun t => t.ticks ((t.slewRem.natAbs + 857) / 858) else s)

/-- COMPARATOR_FIRE (R297 to R299). -/
def execComparatorFire (k : Nat) (s : State) : Host.Outcome State Fault Refusal :=
  .next (if k < 32 ∧ (s.time.cmp k).en then whenTb (s.time.cmp k).time (fireCmp k false) s else s)

/-- A write of TRG_CTLk (R298, R306): DEST of 0 to 7 is fixed; PERIODIC needs a PERIOD. -/
def writeTrgCtl (k : Nat) (v : BitVec 32) (s : State) : State :=
  let s := s.setCmp k fun c => { c with
    en := bitOf v 31, periodic := bitOf v 30 && c.period != 0, late := c.late && !bitOf v 29, fired := c.fired && !bitOf v 28,
    dest := if k < 8 then 1 else BitVec.ofNat 4 (bits v 27 24), byMgp := bitOf v 23, owner := bits v 22 14 }
  armCmp k s

/-- TRG_CTL_WRITE (R306). -/
def execTrgCtlWrite (k : Nat) (value : BitVec 32) (s : State) : Host.Outcome State Fault Refusal :=
  .next (if k < 32 then writeTrgCtl k value s else s)

/-- PPS_EDGE (R300): TB crosses the next whole second. -/
def execPpsEdge (s : State) : Host.Outcome State Fault Refusal :=
  .next (if s.time.ppsEn then whenTb ((s.time.tbNs / sec 1 + 1) * sec 1) ppsRise s else s)

/-- PPS_PULSE_END (R300): the width is measured on the age counter. -/
def execPpsPulseEnd (s : State) : Host.Outcome State Fault Refusal :=
  .next (if s.time.ppsOut then whenDue (s.time.ppsFrom + us s.time.ppsWidth) (fun s => s.modTime fun t => { t with ppsOut := false }) s else s)

/-- The 32 octets of a stamp entry (R302). -/
def StampEntry.octets (e : StampEntry) : List Byte :=
  leBytes 32 (e.tsSeq % 2 ^ 32 * 2 ^ 224 + e.egSeq % 2 ^ 32 * 2 ^ 192 + e.ns % 2 ^ 64 * 2 ^ 128 + e.frac % 2 ^ 16 * 2 ^ 112
    + e.epoch % 2 ^ 16 * 2 ^ 96 + e.age % 2 ^ 64 * 2 ^ 32 + e.gen % 2 ^ 16 * 2 ^ 16 + e.inst % 2 ^ 9 * 2 ^ 7 + b2n e.byMgp * 2 ^ 6
    + e.port % 8 * 2 ^ 3 + e.queue % 2 * 2 ^ 2 + 1)

/-- STAMP_DELIVER (R302): the oldest entry goes to its owner's ring, or is discarded, counted and treated as late (R177). -/
def execStampDeliver (s : State) : Host.Outcome State Fault Refusal :=
  .next (match s.time.stampQ with
    | [] => s
    | e :: t =>
      let s := s.modTime fun x => { x with stampQ := t }
      if !e.byMgp ∧ s.genCurrent e.inst e.gen ∧ s.time.stampRings.has e.inst then
        let r := s.time.stampRings.get e.inst {}
        let s := lsWrite e.inst (r.addr + 32 * (r.wr % r.slots)) e.octets s
        let s := lsWrite e.inst (r.ctl + 12) (leBytes 4 ((r.wr + 1) % 2 ^ 32)) s
        s.modTime fun x => { x with stampRings := x.stampRings.set e.inst { r with wr := (r.wr + 1) % 2 ^ 32 } }
      else if e.byMgp then tbuCount 17 (s.setFset .tbu 0 fun x => { x with late := satAdd 32 x.late 1 })
      else lateAt .tbu 0 e.inst (tbuCount 17 s))

end Sys2Proof.Machine
end

