-- ==== Sys2Proof/Machine/Packs.lean ====
section
/-!
DEFINITION. Machine/Packs.lean: the layouts of table entries and descriptors as numbers, bit for bit as spec/ gives them, and the entries
that such words spell.
-/
namespace Sys2Proof.Machine
open Sys2Proof

/-- A register word: values and the bit each starts at. -/
def pack (l : List (Nat × Nat)) : Nat := (l.map fun p => p.1 * 2 ^ p.2).sum

/-- The code of an entry's STATE (R112). -/
def EntState.code : EntState → Nat
  | .free => 0 | .active => 1 | .draining => 2 | .quarantine => 3

/-- A stream entry (R112), 512 bits. -/
def StreamEntry.pack (e : StreamEntry) : Nat :=
  Machine.pack [(e.key.toNat, 384), (e.gen, 368), (e.state.code, 366), (b2n e.static, 365), (b2n e.learned, 364), (e.action.toNat, 360), (e.cls, 357),
    (e.ageCode, 353), (b2n e.idle, 352), (e.idleLimit, 344), (e.ingress.toNat, 336), (e.ports.toNat, 328), (e.subRef, 316),
    (e.mirSession, 314), (e.rate, 296), (e.idleCount, 280), (e.wrongPort, 264), (e.refCur, 236), (e.refPrev, 216),
    (e.matchFrames, 64), (e.matchOctets, 0)]

/-- A forwarding entry (R117), 512 bits. -/
def FwdEntry.pack (e : FwdEntry) : Nat :=
  Machine.pack [(e.key.toNat, 384), (e.gen, 368), (e.state.code, 366), (b2n e.static, 365), (b2n e.learned, 364), (b2n e.dropDst, 363),
    (b2n e.dropSrc, 362), (e.targetType, 360), (e.target, 351), (e.ports.toNat, 343), (e.srcPorts.toNat, 335), (e.idleCount, 280),
    (e.moves, 264), (e.refCur, 236), (e.refPrev, 216), (e.dupLast.toNat, 200), (e.seenA.toNat, 136), (e.seenB.toNat, 72)]

/-- A subscriber bitmap (R116), 640 bits. -/
def SubBitmap.pack (b : SubBitmap) : Nat :=
  Machine.pack [(b.hostRing, 516), (b2n b.host, 515), (b2n b.mgp, 514), (b2n b.acq, 513), (b2n b.sce, 512), (b.inst.toNat, 0)]

/-- A subscriber of a group (R169), 32 bits. -/
def Subscr.pack (x : Subscr) : Nat := Machine.pack [(b2n x.valid, 31), (x.inst, 22), (x.gen, 6), (x.ring, 4)]

/-- A group descriptor (R169), 512 bits; LAST_ARR in us. -/
def Group.pack (g : Group) : Nat :=
  Machine.pack ([(g.entry, 496), (b2n g.en, 495), (b2n g.acqEn, 494), (b2n g.chkConfRev, 493), (g.preset, 490), (g.pendPreset, 487), (b2n g.pend, 486),
    (g.rate, 483), (g.nch, 478), (g.firstCtx, 460), (g.smpWrap, 443), (g.decPhase, 439), (g.gapFill, 435), (g.gapTime, 425),
    (g.nasdu, 420), (g.confRev, 384), (g.seq, 96), (g.ext, 64), (g.lastSmp, 48), (g.lastSynch, 46), (g.state, 44),
    (g.lastArr / 1000 % 2 ^ 32, 0)] ++ g.subs.zipIdx.map fun p => (p.1.pack, 32 * p.2 + 128))

/-- A context record (R170), 1,024 bits. -/
def Ctx.pack (c : Ctx) : Nat :=
  Machine.pack ([(c.chanPos, 1018), (c.corner, 1015), (b2n c.freeze, 1014), (c.freezeAuto, 1012), (c.histClass, 1009), (b2n c.frozen, 1008),
    (unsigned 32 c.t0.level, 960), (c.t0.hyst, 928), (unsigned 32 c.t1.level, 896), (c.t1.hyst, 864), (c.t0.mode, 862),
    (c.t0.minDur, 854), (c.t0.dest, 852), (b2n c.t0.active, 851), (c.t0.run, 843), (c.t1.mode, 841), (c.t1.minDur, 833),
    (c.t1.dest, 831), (b2n c.t1.active, 830), (c.t1.run, 822), (unsigned 48 c.dcEst, 720), (c.dcK, 688), (c.histBase, 512)]
    ++ [(if c.track.all (· == 0) then 0 else (Config.trackCode c.track).toNat, 256)])

/-- An allowance entry (R188), 128 bits. -/
def Allow.pack (a : Allow) : Nat :=
  Machine.pack [(a.idHash.toNat, 96), (a.appid, 80), (a.etype, 64), (a.vid, 52), (a.pcpMax, 49), (b2n a.valid, 0)]

/-- A slot entry (R215), 64 bits. -/
def SlotEntry.pack (e : SlotEntry) : Nat :=
  Machine.pack [(b2n e.valid, 63), (b2n e.trig, 62), (e.inst, 53), (e.hart, 51), (e.offset, 38), (e.budget, 25), (e.latest, 12), (e.trigSel, 7),
    (e.div, 5), (e.divPhase, 2), (b2n e.slackExcl, 1)]

/-- The slot entry that 64 bits spell (R215). -/
def SlotEntry.unpack (v : Nat) : SlotEntry :=
  { valid := fld v 63 63 == 1, trig := fld v 62 62 == 1, inst := fld v 61 53, hart := fld v 52 51, offset := fld v 50 38, budget := fld v 37 25,
    latest := fld v 24 12, trigSel := fld v 11 7, div := fld v 6 5, divPhase := fld v 4 2, slackExcl := fld v 1 1 == 1 }

/-- A slot status word (R232), 128 bits. -/
def SlotStat.pack (x : SlotStat) : Nat :=
  Machine.pack [(x.runs, 96), (x.overruns, 80), (x.unused, 64), (x.minSlack, 54), (x.maxUsed, 32), (x.lastUsed, 0)]

/-- A slot status word after it has been read (R232). -/
def SlotStat.readOut (x : SlotStat) : SlotStat := { x with minSlack := 1023, maxUsed := 0 }

/-- A source entry of a stream (R333), 64 bits. -/
def AcqSrc.pack (x : AcqSrc) : Nat :=
  Machine.pack [(b2n x.valid, 63), (b2n x.raw, 62), (x.ref, 48), (x.firstPos, 42), (x.nch, 37), (b2n x.f60, 36), (x.recLen, 24), (b2n x.measEn, 23),
    (x.rate, 20)]

/-- The source entry that 64 bits spell (R333). -/
def AcqSrc.unpack (v : Nat) : AcqSrc :=
  { valid := fld v 63 63 == 1, raw := fld v 62 62 == 1, ref := fld v 61 48, firstPos := fld v 47 42, nch := fld v 41 37, f60 := fld v 36 36 == 1,
    recLen := fld v 35 24, measEn := fld v 23 23 == 1, rate := fld v 22 20 }

/-- An element slot (R363), 128 bits. -/
def ElemSlot.pack (e : ElemSlot) : Nat :=
  Machine.pack [(b2n e.en, 127), (e.type, 124), (e.zone, 120), (e.inputs.toNat, 112), (e.btMask.toNat, 108), (e.curve, 104), (e.resetMode, 102),
    (b2n e.resSrc, 101), (b2n e.allPhases, 100), (e.pickup, 64), (e.tms, 48), (e.delay, 32), (e.resetT, 16), (e.block, 0)]

/-- The element slot that 128 bits spell (R363). -/
def ElemSlot.unpack (v : Nat) : ElemSlot :=
  { en := fld v 127 127 == 1, type := fld v 126 124, zone := fld v 123 120, inputs := BitVec.ofNat 8 (fld v 119 112),
    btMask := BitVec.ofNat 4 (fld v 111 108), curve := fld v 107 104, resetMode := fld v 103 102, resSrc := fld v 101 101 == 1,
    allPhases := fld v 100 100 == 1, pickup := fld v 95 64, tms := fld v 63 48, delay := fld v 47 32, resetT := fld v 31 16, block := fld v 15 0 }

/-- A verification entry (R422), 64 bits. -/
def VerEntry.pack (e : VerEntry) : Nat := Machine.pack [(b2n e.valid, 63), (e.entry, 49), (e.slotA, 39), (e.slotB, 29), (b2n e.require, 28)]

/-- The verification entry that 64 bits spell (R422). -/
def VerEntry.unpack (v : Nat) : VerEntry :=
  { valid := fld v 63 63 == 1, entry := fld v 62 49, slotA := fld v 48 39, slotB := fld v 38 29, require := fld v 28 28 == 1 }

/-- Word `k` (32 bits) of a wider entry. -/
def wordOf (v k : Nat) : Nat := v / 2 ^ (32 * k) % 2 ^ 32

/-- A wider entry with word `k` replaced. -/
def putWord (v k w : Nat) : Nat := v - wordOf v k * 2 ^ (32 * k) + w % 2 ^ 32 * 2 ^ (32 * k)

/-- A mirror session's register (R138). -/
def MirSession.pack (m : MirSession) : Nat :=
  Machine.pack [(m.cls, 25), (b2n m.keepRed, 24), (m.srcTx.toNat, 16), (m.srcRx.toNat, 8), (m.dest, 4), (b2n m.en, 0)]

/-- A claim wire's two bits in order, and the like. -/
def listPack (w : Nat) (l : List Nat) : Nat := Machine.pack (l.zipIdx.map fun p => (p.1, w * p.2))

end Sys2Proof.Machine
end

