-- ==== Sys2Proof/Machine/Partition.lean ====
section
/-!
DEFINITION. Machine/Partition.lean: the commands of the partition schedulers (R207 to R233).
-/
namespace Sys2Proof.Machine
open Sys2Proof

/-- The rail and the time base of a cluster's frames are good (R229): MAIN is good and connected, and the module is not in WINTER. -/
def pscPowered (s : State) : Bool := s.power.mainGood && !s.power.disconnected && s.season.season != .winter

/-- FRAME_START (R211 to R214, R218): the next frame of a running cluster at the end of the frame in progress; the first at the next firing of
the cluster's comparator; with EN 0, and while WINTER is entered (R357), frames stop at the end of the frame. -/
def execFrameStart (cluster : Nat) (s : State) : Host.Outcome State Fault Refusal :=
  let p := s.psc cluster
  .next (if cluster < 8 ∧ pscPowered s then
      (if p.running then
        whenDue p.frameEnd (fun s =>
          if p.en ∧ !s.entering then startFrame cluster s
          else winterSettles (s.setPsc cluster fun p => { p with running := false, aligned := false })) s
       else if p.en ∧ !s.time.tbStopped ∧ !s.entering then whenTb (gridNext s.time.tbNs p.phaseNs p.per) (startFrame cluster) s
       else s)
    else s)

/-- SLOT_START (R219, R220, R223): a slot that starts at its OFFSET. -/
def execSlotStart (cluster entry : Nat) (s : State) : Host.Outcome State Fault Refusal :=
  let p := s.psc cluster
  let x := p.active.get entry {}
  .next (if cluster < 8 ∧ p.open_ entry false then
      whenDue (p.frameAt + quarters x.offset) (fun s =>
        slotDue cluster entry x (s.time.tbNs - (s.now - (p.frameAt + quarters x.offset))) (served cluster entry s)) s
    else s)

/-- YIELD (R221, R222): a yield that coincides with the end of the budget comes before or after it, which is open; one after it finds the
instance stopped. -/
def execYieldCall (cluster core : Nat) (s : State) : Host.Outcome State Fault Refusal :=
  .next (if cluster < 8 ∧ (s.psc cluster).cores.has core then
      let r := (s.psc cluster).cores.get core { entry := 0, inst := 0, gen := 0, hart := 0, a2 := 0 }
      let s := s.until r.started
      let used := s.now - r.started
      let b := quarters r.budget
      if used < b then yieldNow cluster core r s
      else if used = b ∧ s.free1 % 2 = 0 then yieldNow cluster core r s.took
      else overrun cluster core r (if used = b then s.took else s)
    else s)

/-- BUDGET_EXPIRY (R222). -/
def execBudgetExpiry (cluster core : Nat) (s : State) : Host.Outcome State Fault Refusal :=
  .next (if cluster < 8 ∧ (s.psc cluster).cores.has core then
      let r := (s.psc cluster).cores.get core { entry := 0, inst := 0, gen := 0, hart := 0, a2 := 0 }
      whenDue (r.started + quarters r.budget) (overrun cluster core r) s
    else s)

/-- TRIGGER_WINDOW_END (R224): a window in which the comparator did not fire. -/
def execTriggerWindowEnd (cluster entry : Nat) (s : State) : Host.Outcome State Fault Refusal :=
  let p := s.psc cluster
  .next (if cluster < 8 ∧ p.open_ entry true then
      whenDue (p.frameAt + quarters (p.active.get entry {}).latest) (fun s => pscCount cluster 4 (served cluster entry s)) s
    else s)

/-- A commit waits for its frame start, with the PERIOD and PHASE that it brings (R217). -/
def pscCommit (k : Nat) (h : Option Nat) (s : State) : State :=
  s.setPsc k fun p => { p with commitPend := true, commitPer := p.period, commitPhase := p.phase, commitOp := h }

/-- A write of COMMIT is taken (R217): no commit waits, and one that changes PERIOD finds the cluster aligned. -/
def Psc.takesCommit (p : Psc) : Bool := !p.commitPend && (p.period == p.periodAct || p.aligned)

/-- PSC_COMMIT (R217, R231): a write of COMMIT. -/
def execPscCommit (cluster : Nat) (s : State) : Host.Outcome State Fault Refusal :=
  .next (if cluster < 8 ∧ (s.psc cluster).takesCommit then pscCommit cluster none s else s)

end Sys2Proof.Machine
end

