-- ==== Sys2Proof/Machine/Pages.lean ====
section
/-!
DEFINITION. Machine/Pages.lean: what every register of the module reads as, page by page: the register pages of the blocks (R48, R93,
R137, R171, R230, R234, R275, R304, R330, R361, R382, R400, R425), the pages of BAR0 (R429 to R433, R441, R452), and the
snapshot banks (R91). A reserved offset reads 0 (R12).
-/
namespace Sys2Proof.Machine
open Sys2Proof

/-! ### Single registers -/

/-- ARB_CTL (R49). -/
def arbCtl (k : Nat) (s : State) : Nat := pack [(arbReq k, 8), (b2n (arbCompat k), 1), (b2n ((s.arb k).modeNext.getD (s.arb k).mode), 0)]

/-- ARB_STAT (R50). -/
def arbStat (k : Nat) (s : State) : Nat :=
  let a := s.arb k
  pack [(a.reserved.length, 16), (b2n a.parked, 15), (b2n a.busy, 14), (a.holder, 8), (a.lastWinner, 0)]

/-- ARB_WAITMAX (R51). -/
def arbWaitMax (k : Nat) (s : State) : Nat := pack [((s.arb k).waitWho, 16), ((s.arb k).waitMax, 0)]

/-- ARB_PRIOj (R52). -/
def arbPrio (k j : Nat) (s : State) : Nat := listPack 4 (slice (s.arb k).prio (8 * j) 8)

/-- PORT_CTL (R94). -/
def portCtl (k : Nat) (s : State) : Nat :=
  let p := s.port k
  pack [(p.fec, 10), (p.rate, 8), (p.rxTag, 6), (b2n p.untagPvid, 5), (b2n p.pauseRx, 4), (b2n p.txEn, 1), (b2n p.rxEn, 0)]

/-- PORT_STAT (R95). -/
def portStat (k : Nat) (s : State) : Nat :=
  let p := s.port k
  pack [(p.pauseLeft s.now, 8), (p.attach, 4), (b2n p.link, 1), (b2n (p.blocked s.now), 0)]

/-- PORT_VLAN (R96). -/
def portVlan (k : Nat) (s : State) : Nat := pack [((s.port k).defPcp, 13), ((s.port k).pvid, 0)]

/-- PORT_PCPMAP (R96). -/
def portPcpMap (k : Nat) (s : State) : Nat := listPack 3 (s.port k).pcpMap

/-- SWC_CTL (R138). -/
def swcCtl (s : State) : Nat := pack [(b2n s.sw.learnEn, 2), (b2n s.sw.prpEn, 1), (b2n s.sw.hsrEn, 0)]

/-- PORT_FWDk (R138). -/
def portFwd (k : Nat) (s : State) : Nat := pack [(b2n (s.sw.portLearn.getD k true), 8), ((s.sw.flood.getD k 0).toNat, 0)]

/-- PSC_CTL (R231). -/
def pscCtl (k : Nat) (s : State) : Nat :=
  let p := s.psc k
  pack [(p.phase, 16), (b2n p.commitPend, 7), (p.bank, 6), (p.periodAct, 3), (p.period, 1), (b2n p.en, 0)]

/-- PSC_STAT (R231). -/
def pscStat (k : Nat) (s : State) : Nat :=
  let p := s.psc k
  pack [(unsigned 20 (max (-524287) (min 524287 p.phaseErr)), 12), (b2n p.running, 1), (b2n p.aligned, 0)]

/-- PMC_LOOPc (R235). -/
def pmcLoop (c : Nat) (s : State) : Nat :=
  let l := s.loop c
  pack [(b2n l.track, 31), (l.setpoint, 20), (l.deadband, 10), (l.guard, 0)]

/-- PMC_VOLTc (R235). -/
def pmcVolt (c : Nat) (s : State) : Nat := pack [((s.loop c).vFix, 16), ((s.loop c).vFloor, 0)]

/-- V_NOW (R235): the supply in mV as measured, within 5 mV; which value of those is open. 0 with the supply off. -/
def vNow (c : Nat) (s : State) : Nat :=
  let v := s.railLevel c / 4
  if v = 0 then 0 else min 1023 (v + Config.railError c s.now % 11 - 5)

/-- PMC_STATc (R235). -/
def pmcStat (c : Nat) (s : State) : Nat :=
  let l := s.loop c
  pack [(l.vTarget / 4, 22), (vNow c s, 12), (l.sMin, 2), (b2n (decide (0 < l.hold)), 1), (b2n l.emerg, 0)]

/-- CGU_CTL (R276). -/
def cguCtl (s : State) : Nat := pack [(s.cgu.unitId, 4), (b2n s.cgu.claimRxEn, 1), (b2n s.cgu.clmEn, 0)]

/-- CGU_STAT (R276). -/
def cguStat (s : State) : Nat :=
  let c := s.cgu
  pack [(c.role.code, 29), (b2n c.win, 28), (((c.wires.map fun w => w.result).getD 1 3), 26), (((c.wires.map fun w => w.result).getD 0 3), 24),
    (c.lastUnit, 20), (c.setAside.length, 0)]

/-- OCU_CTL (R276). -/
def ocuCtl (s : State) : Nat := pack [(b2n s.ocu.en, 24), (s.ocu.plausWinMs, 16), (s.ocu.windowUs, 0)]

/-- MLK_CTL (R276). -/
def mlkCtl (s : State) : Nat := pack [(s.mlk.partnerToMs, 8), (s.mlk.epochMs, 0)]

/-- MLK_STAT (R276). -/
def mlkStat (s : State) : Nat :=
  let m := s.mlk
  let up := m.lanes.map fun l => b2n l.up
  pack [(m.word.unit, 8), (m.word.role.code, 5), (b2n m.word.f, 4), (b2n (m.partner == .present), 3), (up.getD 1 0, 1), (up.getD 0 0, 0)]

/-- TB_CTL (R305). -/
def tbCtl (s : State) : Nat :=
  let t := s.time
  pack [(b2n t.ppsGate, 7), (b2n t.ppsEn, 6), (b2n t.autoSwitch, 5), (b2n t.ref, 0)]

/-- TB_STAT (R305). -/
def tbStat (s : State) : Nat :=
  let t := s.time
  pack [(t.stepEpoch, 16), (b2n t.slewing, 9), (b2n t.refAct, 8), (t.domB.state, 6), (t.domA.state, 4), (b2n t.ok, 0)]

/-- An offset in 2^-16 ns, 64 bits (R304). -/
def ofs64 (x : Int) : Nat := unsigned 64 (x / 65536)

/-- TB_DOMAIN (R305). -/
def tbDomain (s : State) : Nat := pack [(s.time.switchMaxUs, 16), (s.time.domB.num, 8), (s.time.domA.num, 0)]

/-- TB_LIMITS (R305). -/
def tbLimits (s : State) : Nat := pack [(s.time.holdoverS, 20), (s.time.stepThrUs, 0)]

/-- PTP_PORTk (R305). -/
def ptpPort (k : Nat) (s : State) : Nat :=
  let p := s.ptp k
  pack [(p.tcClass, 16), (p.fwdMask.toNat, 8), (p.pcp, 3), (b2n p.untagged, 2), (b2n p.pdelayEn, 1), (b2n p.ptpEn, 0)]

/-- TRG_CTLk (R306). -/
def trgCtl (k : Nat) (s : State) : Nat :=
  let c := s.time.cmp k
  pack [(b2n c.en, 31), (b2n c.periodic, 30), (b2n c.late, 29), (b2n c.fired, 28), (c.dest.toNat, 24), (b2n c.byMgp, 23), (c.owner, 14), (c.skipped, 0)]

/-- TS_QSTAT (R305). -/
def tsQStat (s : State) : Nat := pack [(s.time.stampHwm, 16), (s.time.stampQ.length, 0)]

/-- ACQ_CTL (R331). -/
def acqCtl (s : State) : Nat := pack [(s.acq.deadMs, 4), (b2n s.acq.trigInEn, 3), (s.acq.trigInEdge, 1), (b2n s.acq.en, 0)]

/-- ACQ_STAT (R331). -/
def acqStat (s : State) : Nat :=
  let f := fun (p : AcqStream → Bool) => (listMask 4 ((List.range 4).filter fun n => p (s.acqS n))).toNat
  pack [(b2n s.acq.trigIn, 12), (f fun x => decide (0 < x.occ), 8), (f fun x => x.stopReason != 0, 4), (f fun x => x.run, 0)]

/-- A stream descriptor (R332), 2,048 bits; STAGE_OCC in KiB. -/
def AcqStream.pack (x : AcqStream) : Nat :=
  Machine.pack ([(b2n x.en, 2047), (b2n x.run, 2046), (x.stopReason, 2044), (x.port, 2041), (x.causeEn.toNat, 2037), (x.nsrc % 32, 2032),
    (x.dstMac.toNat, 1984), (x.srcMac.toNat, 1936), (x.dstIp.toNat, 1904), (x.srcIp.toNat, 1872), (x.dstPort, 1856), (x.srcPort, 1840),
    (x.vid, 1828), (x.pcp, 1825), (x.dscp, 1819), (x.ttl, 1811), (x.rateMbit, 1792), (x.stageGran, 1784), (x.flushUs, 1770),
    (x.freqRecs, 1766), (x.trgComp.toNat, 1742), (x.zcHyst, 1710), (x.frameSeq, 480), (x.markSeq, 448), ((x.occ + 1023) / 1024, 430),
    (x.stageHwm, 412)]
    ++ (x.prePost.zipIdx.flatMap fun p => [(p.1.1, 16 * p.2 + 1654), (p.1.2, 16 * p.2 + 1646)])
    ++ (List.range 16).map fun k => ((x.src k).pack, 64 * k + 512))

/-- The settings that 2,048 bits spell (R332); fields kept by the ACQ are those of `old`. -/
def AcqStream.unpack (old : AcqStream) (v : Nat) : AcqStream :=
  { old with
    en := fld v 2047 2047 == 1, port := fld v 2043 2041, causeEn := BitVec.ofNat 4 (fld v 2040 2037), nsrc := fld v 2036 2032,
    dstMac := BitVec.ofNat 48 (fld v 2031 1984), srcMac := BitVec.ofNat 48 (fld v 1983 1936), dstIp := BitVec.ofNat 32 (fld v 1935 1904),
    srcIp := BitVec.ofNat 32 (fld v 1903 1872), dstPort := fld v 1871 1856, srcPort := fld v 1855 1840, vid := fld v 1839 1828,
    pcp := fld v 1827 1825, dscp := fld v 1824 1819, ttl := fld v 1818 1811, rateMbit := fld v 1807 1792, stageGran := fld v 1791 1784,
    flushUs := fld v 1783 1770, freqRecs := fld v 1769 1766, trgComp := BitVec.ofNat 24 (fld v 1765 1742), zcHyst := fld v 1741 1710,
    prePost := (List.range 4).map fun b => (fld v (16 * b + 1661) (16 * b + 1654), fld v (16 * b + 1653) (16 * b + 1646)),
    srcs := (List.range 16).map fun k => AcqSrc.unpack (fld v (64 * k + 575) (64 * k + 512)) }

/-- BKI_CTL (R362). -/
def bkiCtl (s : State) : Nat :=
  let b := s.bki
  pack [(b.inEn.toNat, 24), (b.btEn.toNat, 20), (b.btMinMs, 10), (b2n b.bank, 5), (b2n b.sync, 3), (b2n b.fNom, 2), (b2n b.preset, 1), (b2n b.hbEn, 0)]

/-- BKI_STAT (R362). -/
def bkiStat (s : State) : Nat :=
  let b := s.bki
  pack [(b.hb, 30), (min 4 (recentRestarts s).length, 27), (b2n b.bootBank, 26), (b2n b.clmHold, 25), (b.btDriven.toNat, 20), ((zoneStart s).toNat, 0)]

/-- BKI_STATUS (R433). -/
def bkiStatus (s : State) : Nat :=
  let b := s.bki
  pack [(b.hb, 30), (min 4 (recentRestarts s).length, 27), (b2n b.bootBank, 26), (b2n b.clmHold, 25), (b2n b.noImage, 24),
    (s.season.season.code, 22), (s.ksu.rootState, 20), ((zoneStart s).toNat, 8), (b.btDriven.toNat, 4)]

/-- BKI_RMSk (R362). -/
def bkiRms (k : Nat) (s : State) : Nat := pack [(b2n (decide (0 < s.bki.satWin.get k 0)), 31), (min (s.bki.rms.get k 0) 0xFFFFFF, 0)]

/-- BKI_ELEM (R362). -/
def bkiElem (s : State) : Nat :=
  let f := fun (p : ElemState → Bool) => (listMask 16 ((List.range 16).filter fun n => p (s.bki.elems.get n {}))).toNat
  pack [(f fun e => e.trip, 16), (f fun e => e.start, 0)]

/-- SEASON_CTL (R362). -/
def seasonCtl (s : State) : Nat :=
  let z := s.season
  pack [(z.reqSeason, 29), (b2n z.force, 28), (b2n z.ret, 27), (z.wakeEn.toNat, 23), (z.wakeTimerS, 0)]

/-- SEASON_STAT (R362). -/
def seasonStat (s : State) : Nat :=
  let z := s.season
  pack [(z.season.code, 30), (b2n z.changing.isSome, 29), (z.lastWake, 25), (b2n z.winterCause, 24)]

/-- CAL_CTL (R362). -/
def calCtl (s : State) : Nat := pack [(s.bki.calStepS, 2), (b2n s.bki.calEn, 0)]

/-- CAL_STAT (R362). -/
def calStat (s : State) : Nat := pack [(s.bki.spare, 28), (s.bki.suspect.toNat, 20), (s.bki.calNext, 16)]

/-- WAKE_CNT (R362). -/
def wakeCnt (s : State) : Nat := pack [(s.wake.matched, 16), (s.wake.other, 0)]

/-- EVR_SAVE (R401). -/
def evrSave (s : State) : Nat := pack [(s.evr.saveState, 30), (b2n s.evr.lastComplete, 29), (s.evr.saved, 0)]

/-- A cursor's registers (R401): CUR_SEQ, CUR_CTL, CUR_STAT and CUR_LOST by number. -/
def curReg (n j : Nat) (s : State) : Nat :=
  let c := s.evr.cursors.getD n {}
  if j = 0 then c.seq else if j = 2 then pack [(b2n c.busy, 31), (b2n c.lapped, 30), (c.avail, 0)] else if j = 3 then c.lost else 0

/-- INST and GEN of a record (R384). -/
def Master.recWords : Master → Nat × Nat
  | .none => (0, 0)
  | .inst i g => (pack [(1, 15), (i, 0)], g)
  | .mgp => (pack [(1, 15), (1, 14)], 0)

/-- Octets 0 to 59 of a record (R384). -/
def EvrRec.body (r : EvrRec) : List Byte :=
  leBytes 4 r.seq ++ leBytes 2 (pack [(b2n r.inj, 14), (r.cls, 12), (r.code, 0)]) ++ leBytes 1 r.block ++ leBytes 1 r.unit ++ leBytes 8 r.age
    ++ leBytes 8 r.tb ++ leBytes 2 r.epoch ++ leBytes 2 r.boot ++ leBytes 2 r.owner.recWords.1 ++ leBytes 2 r.owner.recWords.2
    ++ (r.detail ++ List.replicate 28 0).take 28

/-- A record as its 64 octets (R384): the CRC-32 stands over octets 0 to 59. -/
def EvrRec.octets (r : EvrRec) : List Byte := r.body ++ leBytes 4 (crc32 r.body).toNat

/-- A word of the window of cursor `n` (R393, R394): slot j holds the j-th record loaded, and a slot beyond AVAIL reads as zero octets. What it
holds while it is being loaded is open. -/
def windowWord (n o : Nat) (s : State) : Nat :=
  let c := s.evr.cursors.getD n {}
  if c.busy then Config.windowWord n o s.now % 2 ^ 32
  else match c.window[o / 64]? with
    | some r => if o / 64 < c.avail then leNat (slice r.octets (o % 64) 4) else 0
    | none => 0

/-- A bucket entry (R402). -/
def bucketReg (c : Nat) (s : State) : Nat :=
  let b := s.evr.bucket c
  pack [(b.mode, 30), (b.burst, 20), (b.intervalUs, 0)]

/-- Slots without VALID outside the reserved ones (R426). -/
def freeSlots (s : State) : Nat := 1016 - (s.ksu.slots.filter fun p => decide (8 ≤ p.1) && p.2.valid).length

/-- KSU_STAT (R426). -/
def ksuStat (s : State) : Nat := pack [(s.ksu.rootState, 30), (s.ksu.rootPair, 28), (b2n s.ksu.trngOk, 27), (freeSlots s, 0)]

/-- LCK_ASSIGNn (R205). -/
def lckAssign (n : Nat) (s : State) : Nat :=
  let l := s.lock n
  pack [(b2n l.en, 31), (b2n l.mgpOk, 30), (l.owner, 21), (l.index, 17)]

/-- LCK_STATEn (R205). -/
def lckState (n : Nat) (s : State) : Nat :=
  let l := s.lock n
  pack [(b2n l.held, 31), (b2n l.broken, 30), (b2n l.byMgp, 29), (l.holder, 20), (l.holderGen, 0)]

/-- MOD_STAT (R433). -/
def modStat (s : State) : Nat :=
  let m := s.mbx
  pack [(m.badAccess, 16), (b2n m.inService, 7), (b2n s.unitF, 6), (b2n m.fwBank, 5), (s.cgu.role.code, 2), (b2n m.bankSwitch, 1), (b2n m.ready, 0)]

/-! ### The fault set -/

/-- FLT_STAT (R383). -/
def FaultSet.stat (x : FaultSet) : Nat :=
  pack [(b2n x.state, 15), (b2n x.fActive, 14), (b2n x.persist, 13), (b2n x.feValid, 12), (b2n x.overflow, 11), (b2n x.captureAct, 10),
    (x.lastClass, 8), (x.lastKind, 4)]

/-- FLT_INJ (R383). -/
def FaultSet.injReg (x : FaultSet) : Nat :=
  pack [(b2n x.injArm, 31), (b2n x.injMode, 30), (x.injState, 28), (x.injKind, 24), (x.injPos, 13), (x.injPattern.toNat, 0)]

/-- FE_CODE (R383). -/
def FirstErr.codeReg (e : FirstErr) : Nat :=
  pack [(e.cls, 30), (b2n e.inj, 29), (b2n e.latched, 28), (e.access, 24), (e.mBlock, 18), (e.mUnit, 12), (e.code, 0)]

/-- FE_INST (R383). -/
def FirstErr.instReg (e : FirstErr) : Nat :=
  match e.owner with
  | .none => 0
  | .mgp => pack [(1, 31), (1, 30)]
  | .inst i g => pack [(1, 31), (i, 16), (g, 0)]

/-- FE_SYN (R383). -/
def FirstErr.synReg (e : FirstErr) : Nat := pack [(e.pos, 16), (e.s1.toNat, 8), (e.s0.toNat, 0)]

/-- The registers of a fault set by offset (R382); the FE registers after FE_CODE are those of the read buffer (R378). -/
def FaultSet.reg (x : FaultSet) (o : Nat) : Nat :=
  if o = 0x00 then x.stat
  else if o = 0x04 then pack [(b2n x.capture, 6), (x.intEn.toNat, 2)]
  else if o = 0x08 then x.int.toNat
  else if o = 0x0C then x.injReg
  else if o = 0x10 then x.fe.codeReg
  else if o = 0x14 then x.feBuf.instReg
  else if o = 0x18 then wordOf x.feBuf.addr 0
  else if o = 0x1C then wordOf x.feBuf.addr 1
  else if o = 0x20 then wordOf x.feBuf.tb 0
  else if o = 0x24 then wordOf x.feBuf.tb 1
  else if o = 0x28 then wordOf x.feBuf.age 0
  else if o = 0x2C then wordOf x.feBuf.age 1
  else if o = 0x30 then x.feBuf.synReg
  else if o = 0x34 then x.feBuf.epoch
  else if o = 0x38 then x.cntC
  else if o = 0x3C then x.cntK
  else if o = 0x40 then x.cntF
  else if o = 0x44 then pack [(x.injected, 16), (x.recoveries, 0)]
  else if o = 0x48 then x.quietMs
  else if o = 0x4C then x.late
  else 0

/-! ### Pages -/

/-- A word of a snapshot bank (R91): counter i at 8 x i, low word first. -/
def snapWord (t : Tbl Nat) (o : Nat) : Nat := wordOf (t.get (o / 8) 0) (o / 4 % 2)

/-- The snapshot bank of a block's page. -/
def snapOf (b : BlockId) (u : Nat) (s : State) : Tbl Nat :=
  match b with
  | .prt => (s.port u).snap | .stb => s.sw.snap | .swc => s.sw.snap | .sce => s.sce.snap | .psc => (s.psc u).snap | .pmc => s.sched.pmcSnap
  | .cgu => s.cgu.snap | .ocu => s.ocu.snap | .mlk => s.mlk.snap | .tbu => s.time.snap | .acq => s.acq.snap | .bki => s.bki.snap
  | .evr => s.evr.snap | .ksu => s.ksu.snap | _ => []

/-- The counters of a block's page and the offset of its SNAP register (R93, R137, R171, R230, R234, R275, R304, R330, R361, R400, R425). -/
def snapReg (b : BlockId) (u : Nat) : Option (Nat × CntPage) :=
  match b with
  | .prt => some (0x14, .port u) | .stb => some (0x08, .switch) | .swc => some (0x08, .switch) | .sce => some (0x08, .sce)
  | .psc => some (0x14, .psc u) | .pmc => some (0x84, .pmc) | .cgu => some (0x14, .cgu) | .ocu => some (0x14, .ocu) | .mlk => some (0x14, .mlk)
  | .tbu => some (0x50, .tbu) | .acq => some (0x08, .acq) | .bki => some (0x14, .bki) | .evr => some (0x14, .evr) | .ksu => some (0x08, .ksu)
  | _ => none

/-- The SNAP register of a page reads SNAP_BUSY, bit 1, while its snapshot is in progress (R96). -/
def snapBusy (b : BlockId) (u : Nat) (s : State) : Nat := 2 * b2n (decide (s.now < s.mbx.snapEnds.get (setKey (if b = .stb then .swc else b) u) 0))

/-- The port page below 0x100 (R93). -/
def prtReg (u o : Nat) (s : State) : Nat :=
  if o = 0x00 then portCtl u s else if o = 0x04 then portStat u s else if o = 0x08 then portVlan u s else if o = 0x0C then portPcpMap u s
  else if o = 0x10 then (s.port u).maxFrame else 0

/-- The switch page below 0x100 (R137). -/
def swReg (o : Nat) (s : State) : Nat :=
  if o = 0x00 then swcCtl s else if o = 0x04 then s.sw.freeCells else if o = 0x0C then s.sw.holdoffMs else if o = 0x10 then s.sw.fwdIdleS
  else if 0x20 ≤ o ∧ o < 0x40 then s.sw.clsAge.getD ((o - 0x20) / 4) 0
  else if 0x40 ≤ o ∧ o < 0x60 then portFwd ((o - 0x40) / 4) s
  else if 0x60 ≤ o ∧ o < 0x70 then (s.sw.mir.getD ((o - 0x60) / 4) {}).pack
  else 0

/-- The PSC page outside its banks of counters and faults (R230). -/
def pscReg (u o : Nat) (s : State) : Nat :=
  let p := s.psc u
  if o = 0x00 then pscCtl u s else if o = 0x04 then pscStat u s else if o = 0x08 then wordOf p.frameNo 0
  else if o = 0x0C then p.hiLatch.getD (wordOf p.frameNo 1)
  else if 0x400 ≤ o ∧ o < 0x800 then wordOf (p.bank0.get ((o - 0x400) / 8) {}).pack (o / 4 % 2)
  else if 0x800 ≤ o ∧ o < 0xC00 then wordOf (p.bank1.get ((o - 0x800) / 8) {}).pack (o / 4 % 2)
  else if 0x1000 ≤ o ∧ o < 0x1800 then wordOf (p.status.get ((o - 0x1000) / 16) {}).pack (o / 4 % 4)
  else 0

/-- The PMC page (R234). -/
def pmcReg (o : Nat) (s : State) : Nat :=
  if o < 0x80 then
    (if o % 16 = 0 then pmcLoop (o / 16) s else if o % 16 = 4 then pmcVolt (o / 16) s else if o % 16 = 8 then pmcStat (o / 16) s else 0)
  else if o = 0x80 then s.sched.vVf else 0

/-- The pages of the pair (R275). -/
def cguReg (o : Nat) (s : State) : Nat :=
  if o = 0x00 then cguCtl s else if o = 0x04 then s.cgu.ownClaim.toNat else if o = 0x08 then cguStat s
  else if o = 0x0C then s.cgu.lastClaim.toNat else if o = 0x10 then s.cgu.claimMemMs else 0

/-- The OCU page (R275). -/
def ocuReg (o : Nat) (s : State) : Nat :=
  if o = 0x00 then ocuCtl s else if o = 0x04 then b2n s.ocu.takeBlock else if o = 0x08 then s.ocu.pending.length else 0

/-- The MLK page (R275). -/
def mlkReg (o : Nat) (s : State) : Nat :=
  if o = 0x00 then mlkCtl s else if o = 0x04 then mlkStat s else if o = 0x08 then s.mlk.partnerClaim.toNat else 0

/-- The TBU page outside its banks (R304); TB_NOW reads as latched, AGE_HI likewise. -/
def tbuReg (o : Nat) (s : State) : Nat :=
  let t := s.time
  let now := t.tbLatch.getD (wordOf t.tbNs 0, wordOf t.tbNs 1)
  if o = 0x00 then tbCtl s else if o = 0x04 then tbStat s else if o = 0x08 then unsigned 32 t.incr
  else if o = 0x0C then t.tbFrac / 65536 else if o = 0x10 then now.1 else if o = 0x14 then now.2
  else if o = 0x18 then wordOf t.age 0 else if o = 0x1C then t.ageLatch.getD (wordOf t.age 1)
  else if o = 0x20 then wordOf (unsigned 64 t.step) 0 else if o = 0x24 then wordOf (unsigned 64 t.step) 1
  else if o = 0x28 then wordOf (ofs64 t.domA.ofs) 0 else if o = 0x2C then wordOf (ofs64 t.domA.ofs) 1
  else if o = 0x30 then wordOf (ofs64 t.domB.ofs) 0 else if o = 0x34 then wordOf (ofs64 t.domB.ofs) 1
  else if o = 0x38 then wordOf (ofs64 t.slewRem) 0 else if o = 0x3C then wordOf (ofs64 t.slewRem) 1
  else if o = 0x40 then tbDomain s else if o = 0x44 then tbLimits s else if o = 0x48 then t.ppsWidth else if o = 0x4C then tsQStat s
  else if 0x60 ≤ o ∧ o < 0x78 then ptpPort ((o - 0x60) / 4) s
  else if 0x80 ≤ o ∧ o < 0x98 then (s.ptp ((o - 0x80) / 4)).linkDelay
  else if 0x400 ≤ o ∧ o < 0x600 then
    (let k := (o - 0x400) / 16
     if o % 16 = 0 then trgCtl k s else if o % 16 = 4 then wordOf (t.cmp k).time 0 else if o % 16 = 8 then wordOf (t.cmp k).time 1
     else (t.cmp k).period)
  else 0

/-- The ACQ page outside its banks (R330). -/
def acqReg (o : Nat) (s : State) : Nat :=
  if o = 0x00 then acqCtl s else if o = 0x04 then acqStat s
  else if 0x400 ≤ o ∧ o < 0x800 then wordOf (s.acqS ((o - 0x400) / 256)).pack (o % 256 / 4)
  else 0

/-- The BKI page outside its banks of counters (R361). -/
def bkiReg (o : Nat) (s : State) : Nat :=
  if o = 0x00 then bkiCtl s else if o = 0x04 then bkiStat s else if o = 0x08 then s.bki.hbValue.toNat else if o = 0x0C then seasonCtl s
  else if o = 0x10 then seasonStat s else if o = 0x18 then calCtl s else if o = 0x1C then calStat s
  else if 0x20 ≤ o ∧ o < 0x40 then bkiRms ((o - 0x20) / 4) s
  else if o = 0x40 then bkiElem s else if o = 0x44 then wakeCnt s
  else if 0x400 ≤ o ∧ o < 0x500 then wordOf (s.bki.bank0.get ((o - 0x400) / 16) {}).pack (o / 4 % 4)
  else if 0x500 ≤ o ∧ o < 0x600 then wordOf (s.bki.bank1.get ((o - 0x500) / 16) {}).pack (o / 4 % 4)
  else 0

/-- The EVR page outside its banks of counters and faults (R400). -/
def evrReg (o : Nat) (s : State) : Nat :=
  if o = 0x00 then pack [(b2n s.evr.saveEn, 1), (b2n s.evr.limitEn, 0)] else if o = 0x04 then s.evr.next else if o = 0x08 then s.evr.oldest
  else if o = 0x0C then evrSave s else if o = 0x10 then s.evr.boot
  else if 0x400 ≤ o ∧ o < 0x440 then curReg ((o - 0x400) / 16) (o / 4 % 4) s
  else if 0x1000 ≤ o ∧ o < 0x2000 then bucketReg ((o - 0x1000) / 4) s
  else if 0x2000 ≤ o ∧ o < 0x3000 then windowWord 1 (o - 0x2000) s
  else if 0x3000 ≤ o ∧ o < 0x4000 then windowWord 3 (o - 0x3000) s
  else 0

/-- The KSU page outside its banks of counters and faults (R425). Written values are never read back. -/
def ksuReg (o : Nat) (s : State) : Nat :=
  if o = 0x00 then b2n s.ksu.verifyEn else if o = 0x04 then ksuStat s
  else if o = 0x14 then pack [(b2n s.ksu.busy, 31), (s.ksu.result, 0)] else if o = 0x18 then pack [(s.ksu.contextLen, 7), (s.ksu.labelLen, 0)]
  else if 0x400 ≤ o ∧ o < 0xC00 then wordOf (s.ksu.ver.get ((o - 0x400) / 8) {}).pack (o / 4 % 2)
  else if 0x8000 ≤ o ∧ o < 0x10000 then wordOf (s.slot ((o - 0x8000) / 32)).record.toNat (o / 4 % 8)
  else 0

/-- The MGP's page of the locks (R205): 16 octets a lock. -/
def lckReg (o : Nat) (s : State) : Nat :=
  if o < 0x1000 then (if o % 16 = 4 then lckAssign (o / 16) s else if o % 16 = 8 then lckState (o / 16) s else 0) else 0

/-- An arbiter's page (R48). -/
def arbReg (u o : Nat) (s : State) : Nat :=
  if 37 ≤ u then 0
  else if o = 0x00 then arbCtl u s else if o = 0x04 then arbStat u s else if o = 0x08 then arbWaitMax u s else if o = 0x0C then (s.arb u).backoffs
  else if 0x10 ≤ o ∧ o < 0x20 then arbPrio u ((o - 0x10) / 4) s else 0

/-- The registers of a block's page that are its own. -/
def blockReg (b : BlockId) (u o : Nat) (s : State) : Nat :=
  match b with
  | .prt => prtReg u o s | .stb => swReg o s | .swc => swReg o s
  | .sce => if o = 0x00 then b2n s.sce.en else if o = 0x04 then s.sce.inqHwm else 0
  | .psc => pscReg u o s | .pmc => pmcReg o s | .cgu => cguReg o s | .ocu => ocuReg o s | .mlk => mlkReg o s | .tbu => tbuReg o s | .acq => acqReg o s
  | .bki => bkiReg o s | .evr => evrReg o s | .ksu => ksuReg o s | .lck => lckReg o s | .arb => arbReg u o s
  | _ => 0

/-- The fault set at an offset of a page (R366, R382): at 0x300; in the switch page that of the STB is at 0x380. The locks that
the LCK page would hold there are reached in the MGP's own page of the locks (log entry 27). -/
def faultSetAt (b : BlockId) (o : Nat) : Option (BlockId × Nat) :=
  if 0x300 ≤ o ∧ o < 0x380 then some (if b = .stb then .swc else b, o - 0x300)
  else if (b = .stb ∨ b = .swc) ∧ 0x380 ≤ o ∧ o < 0x400 then some (.stb, o - 0x380)
  else none

/-- What a register of a block's page reads as. Units that do not exist have no page. -/
def pageRead (b : BlockId) (u o : Nat) (s : State) : Nat :=
  if b.units ≤ u ∨ o % 4 ≠ 0 then 0
  else match faultSetAt b o with
    | some (x, f) => (s.fset x u).reg f
    | none =>
      if (snapReg b u).any fun x => x.1 == o then snapBusy b u s
      else if 0x100 ≤ o ∧ o < 0x300 ∧ b ≠ .lck then snapWord (snapOf b u s) (o - 0x100) else blockReg b u o s

/-- The pair registers (R441). -/
def pairReg (p o : Nat) (s : State) : Nat :=
  let x := s.mbx.pairs.get p {}
  if o = 0x00 then x.reqTail else if o = 0x04 then x.reqHead else if o = 0x08 then x.rspTail else if o = 0x0C then x.rspHead
  else if o = 0x14 then pack [(x.badTail, 16), (x.taken, 8), (b2n x.resetBusy, 1), (b2n s.mbx.ready, 0)] else 0

/-- A word of an MSI-X table entry (R428, R429). -/
def msixReg (k j : Nat) (s : State) : Nat :=
  if j < 2 then wordOf (s.mbx.msixAddr.get k 0) j else if j = 2 then s.mbx.msixData.get k 0 else b2n (s.mbx.msixMask.getLsbD k)

/-- The offset lies in the rings (R429). -/
def ringOffset (o : Nat) : Bool := decide (0x100000 ≤ o) && decide (o < 0x124000)

/-- The 64 octets of ring slot `k` (R429, R439, R451): what the host has written there since, else the response or the event that the MGP wrote. -/
def State.ringSlot (s : State) (k : Nat) : List Byte :=
  let msg := fun (r : Option Resp) => match r with | some r => r.octets | none => List.replicate 64 0
  if s.mbx.slots.has k then s.mbx.slots.get k []
  else if k < 1024 then List.replicate 64 0
  else if k < 2048 then
    let p := s.mbx.pairs.get ((k - 1024) / 64) {}
    msg (if p.rsp.has (k % 64) then some (p.rsp.get (k % 64) {}) else none)
  else msg (if s.mbx.events.has (k - 2048) then some (s.mbx.events.get (k - 2048) {}) else none)

/-- What a configuration register reads as (R428): BAR0 is a 64-bit, non-prefetchable memory BAR of 16 MiB, and all others read 0. -/
def pciRead (r : PciReg) (s : State) : Nat :=
  let p := s.mbx.pci
  match r with
  | .id => pack [(0x9640, 16), (Config.vendorId % 65536, 0)]
  | .command => pack [(b2n p.busMaster, 2), (b2n p.memEn, 1)]
  | .classRev => pack [(0x0880, 16), (0xB1, 0)]
  | .bar 0 => wordOf p.bar0 0 + 4
  | .bar 1 => wordOf p.bar0 1
  | .devCtl => pack [(p.maxRead, 12), (p.maxPayload, 5)]
  | .pmCsr => if p.d3hot then 3 else 0
  | .aerUnc => p.aerUnc.toNat | .aerUncMask => p.aerUncMask.toNat | .aerUncSev => p.aerUncSev.toNat
  | .aerCor => p.aerCor.toNat | .aerCorMask => p.aerCorMask.toNat
  | _ => 0

/-- What a register of BAR0 reads as (R429, R432, R433, R441, R452). -/
def bar0Read (o : Nat) (s : State) : Nat :=
  let m := s.mbx
  if ringOffset o then (if 64 < o % 64 + 4 then 0 else leNat (slice (s.ringSlot ((o - 0x100000) / 64)) (o % 64) 4))
  else if o % 4 ≠ 0 then Config.narrowRead o
  else if o = 0x00 then pack [(0x9640, 16), (s.cgu.unitId, 4), (m.variant, 0)] else if o = 0x04 then pack [(3, 24), (2, 16), (0xB1, 0)]
  else if o = 0x08 then wordOf m.serial 0 else if o = 0x0C then wordOf m.serial 1 else if o = 0x10 then modStat s else if o = 0x14 then bkiStatus s
  else if 0x2000 ≤ o ∧ o < 0x2300 then msixReg ((o - 0x2000) / 16) (o % 16 / 4) s
  else if o = 0x3000 then wordOf m.msixPend.toNat 0 else if o = 0x3004 then wordOf m.msixPend.toNat 1
  else if 0x10000 ≤ o ∧ o < 0x10400 then pairReg ((o - 0x10000) / 64) (o % 64) s
  else if o = 0x11000 then m.evtTail else if o = 0x11004 then m.evtHead else if o = 0x11008 then m.evtLost
  else if o = 0x1100C then m.evtMask.toNat
  else if 0x200000 ≤ o ∧ o < 0x200010 then curReg 0 (o / 4 % 4) s
  else if 0x201000 ≤ o ∧ o < 0x202000 then windowWord 0 (o - 0x201000) s
  else if 0x202000 ≤ o ∧ o < 0x202010 then curReg 2 (o / 4 % 4) s
  else if 0x203000 ≤ o ∧ o < 0x204000 then windowWord 2 (o - 0x203000) s
  else 0

/-- What a register reads as. -/
def regRead (r : RegAddr) (s : State) : Nat :=
  match r with
  | .page b u o => pageRead b u o s
  | .locks o => if o % 4 = 0 then lckReg o s else 0
  | .bar0 o => bar0Read o s
  | .bar0Be o be => if ringOffset o ∨ be = 0xF then bar0Read (o / 4 * 4) s else Config.narrowRead o
  | .bar0Pair o _ => if ringOffset o ∨ o % 8 = 0 then bar0Read o s + 2 ^ 32 * bar0Read (o + 4) s else Config.narrowRead o
  | .pci r => pciRead r s
  | .ctrl i o => ctrlRead i o s

end Sys2Proof.Machine
end

