-- ==== Sys2Proof/Machine/Ports.lean ====
section
/-!
DEFINITION. Machine/Ports.lean: the commands of the network ports and the bypass head (R68 to R107) but reception and waking.
-/
namespace Sys2Proof.Machine
open Sys2Proof

/-! ### Transmission -/

/-- The frame in transmission has left with its last FCS octet: counted, and its copy complete (R92, R124). -/
def finishTx (k : Nat) (s : State) : State :=
  let p := s.port k
  match p.sending with
  | none => s
  | some c =>
    let a := dstMac p.wire
    let s := portCount k 25 s
    let s := portCount k 26 s (p.wire.length + 4)
    let s := if a = broadcast then portCount k 28 s else if isGroup a then portCount k 27 s else s
    let s := portCount k (37 + c.cls) s
    let s := if c.seg then portCount k 45 s else s
    txDone c (s.setPort k fun p => { p with sending := none, wire := [] })

/-- The egress stamp of a copy that departs (R301, R303): an entry of the stamp queue, or a counted loss when it is full. Ports P6 and P7
take no stamps (R284). -/
def stampTx (k : Nat) (c : TxCopy) (s : State) : State :=
  if !c.ts then s
  else if 6 ≤ k then unsent c s
  else if s.time.stampQ.length < 512 then
    let e : StampEntry := {
      tsSeq := c.tsSeq, egSeq := c.egSeq, ns := s.time.tbNs, frac := s.time.tbFrac / 65536, epoch := s.time.stepEpoch, age := s.now,
      gen := (c.inst.map fun i => i.2).getD 0, inst := (c.inst.map fun i => i.1).getD 0, byMgp := c.inst.isNone, port := k, queue := c.egq }
    s.modTime fun t => { t with
      stampQ := t.stampQ ++ [e], stampHwm := max t.stampHwm (t.stampQ.length + 1), live := bump t.live 15 }
  else
    let live := match c.inst with | some (i, g) => s.genCurrent i g | none => true
    s.modTime fun t => { t with
      live := bump t.live 16,
      owners := if live then t.owners.mod (stampOwner c.inst) {} fun o => { o with lost := satAdd 32 o.lost 1 } else t.owners }

/-- The transmitter is not held back: a pause that is over and its run end, and pause frames are honoured again (R82). -/
def Port.runOver (p : Port) (now : Nat) : Port :=
  { p.counted now with paused := false, pauseQuanta := 0, pauseCounted := 0, pauseRunFrom := none, pauseDeaf := false }

/-- A copy begins to leave: stamped, corrected and counted as forwarded or as a peer-delay message sent, and the pause run is over (R82, R286,
R288, R301, R307). -/
def beginTx (k : Nat) (c : TxCopy) (wire : List Byte) (sat : Bool) (s : State) : State :=
  let ptp := ptpCounter k c (s.stored c.frame)
  let s := stampTx k c s
  let s := s.modTime fun t =>
    let live := if sat then bump t.live 5 else t.live
    let live := match ptp with | some i => bump live i | none => live
    match c.pd with
    | some m => { t with live := bump live (if m.resp then 7 else 6), pdSent := m :: t.pdSent }
    | none => { t with live := live }
  s.setPort k fun p => { p.runOver s.now with sending := some c, wire := wire }

/-- The copy's age has reached its limit (R135). -/
def agedOut (c : TxCopy) (s : State) : Bool := due s ((s.stored c.frame).age + us c.limitUs)

/-- The head copy of the highest non-empty queue (R81). -/
def Port.head (p : Port) : Option TxCopy :=
  ([7, 6, 5, 4, 3, 2, 1, 0].filterMap fun q => (p.queues.get q []).head?).head?

/-- That copy taken out of its queue. -/
def Port.pop (p : Port) (c : TxCopy) : Port := { p with queues := p.queues.mod c.cls [] fun q => q.drop 1 }

/-- The octets of a stored frame as a reader receives them, with the 16 octets at word `off` as they leave the decoder (R59). -/
def Stored.asRead (f : Stored) (off : Nat) (data : BitVec 128) : List Byte :=
  f.octets.take (16 * off) ++ slice (leBytes 16 data.toNat) 0 (min 16 (f.octets.length - 16 * off)) ++ f.octets.drop (16 * off + 16)

/-- The end-to-end CRC-32 of a frame shows a word that left its decoder wrong (R59). -/
def Stored.crcShows (f : Stored) (octets : List Byte) : Bool := decide (crc32 octets ≠ crc32 f.octets)

/-- The end-to-end CRC-32 of a frame fails at the transmitter (R78): a finding of the port, and the copy is dropped. -/
def crcFails (k : Nat) (c : TxCopy) (s : State) : State :=
  txDrop k 33 c (raise { block := .prt, unit := k, kind := 9, access := 5, addr := c.frame } s)

/-- A port's transmitter takes head copies until one leaves or no queue holds one (R81): an aged copy, one too long after tagging (R77) and
one whose end-to-end CRC-32 fails (R78) are dropped on the way. A word of the first frame that is read from the buffer passes its decoder
(R56, R58): one beyond correction is a finding of the SWC, and the frame ends like one whose CRC-32 fails; one that leaves the decoder wrong is
shown by the CRC-32 or leaves in the frame (R59). `fuel` bounds the copies. -/
def selectTx (k : Nat) (word : WordRead) : Nat → State → State
  | 0, s => s
  | fuel + 1, s =>
    match (s.port k).head with
    | none => s.setPort k fun p => p.runOver s.now
    | some c =>
      let s := s.setPort k fun p => p.pop c
      if agedOut c s then selectTx k word fuel (txDrop k 34 c s)
      else
        let f := s.stored c.frame
        let w := wireOf k c f s
        if (s.port k).maxFrame < w.1.length + 4 then selectTx k word fuel (txDrop k 32 c s)
        else if !f.crcOk then selectTx k word fuel (crcFails k c s)
        else
          let (r, s) := readWord (.buffer c.frame) word 5 .none s (some (.prt, k))
          let o := f.asRead word.off r.syn.data
          if r.lost then selectTx k {} fuel (txDrop k 33 c (damage (.buffer c.frame) s))
          else if o = f.octets then beginTx k c w.1 w.2 s
          else if f.crcShows o then selectTx k {} fuel (crcFails k c s)
          else let w := wireOf k c { f with octets := o } s; beginTx k c w.1 w.2 s

/-- TRANSMIT_SELECT (R81): the frame in transmission has ended, and a transmitter that is enabled, up and not paused takes the next. The
acquisition streams of the port hand it the frames that their rate allows (R326). -/
def execTransmitSelect (sel : TxSelect) (s : State) : Host.Outcome State Fault Refusal :=
  let port := sel.port
  let s := pauseSettle port (acqDrainPort port (finishTx port s))
  let p := s.port port
  .next (if port < 8 && p.link && p.txEn && !p.blocked s.now then selectTx port sel.word (p.queued.length + 1) s else s)

/-! ### Pause -/

/-- PAUSE_END (R82): not of a pause that its run's limit cuts, nor of one that a pause frame has restarted meanwhile. -/
def execPauseEnd (port : Nat) (s : State) : Host.Outcome State Fault Refusal :=
  let p := (s.port port).settled s.now
  .next (if port < 8 && p.paused && decide (p.pauseEnd ≤ p.runEnd) then
      whenDue p.pauseEnd (fun s =>
        let s := countPause port s
        let p := s.port port
        if p.paused && decide (p.pauseEnd ≤ p.runEnd) && due s p.pauseEnd then
          s.setPort port fun p => { p with paused := false, pauseQuanta := 0, pauseCounted := 0 }
        else s) s
    else s)

/-- PAUSE_CUT (R82): the run has reached 65,535 quanta. -/
def execPauseCut (port : Nat) (s : State) : Host.Outcome State Fault Refusal :=
  let p := (s.port port).settled s.now
  .next (if port < 8 && p.paused && decide (p.runEnd < p.pauseEnd) then
      whenDue p.runEnd (fun s =>
        let s := countPause port s
        let p := s.port port
        if p.paused && decide (p.runEnd < p.pauseEnd) then
          (portCount port 46 s).setPort port fun p => { p.unpaused with pauseDeaf := true, pauseNext := p.pauseNext }
        else s) s
    else s)

/-- PAUSE_AGEING_DISCARD (R83): the head of a queue of a paused port has reached its ageing limit. -/
def execPauseAgeingDiscard (port queue : Nat) (s : State) : Host.Outcome State Fault Refusal :=
  let s := pauseSettle port s
  let p := s.port port
  .next (match (p.queues.get queue []).head? with
    | some c =>
      if port < 8 && p.paused then
        whenDue ((s.stored c.frame).age + us c.limitUs) (fun s =>
          if p.blocked s.now then txDrop port 34 c (s.setPort port fun p => p.pop c) else s) s
      else s
    | none => s)

/-! ### Links and transceivers -/

/-- The head's optics are joined to the ring: what P0 and P1 need for a link with their neighbours (R101, R106). -/
def ringJoined (s : State) : Bool := s.head.coil && s.head.through

/-- A cage of an SFP28 module: P2 to P5 (R68). -/
def isCage (k : Nat) : Bool := decide (2 ≤ k) && decide (k < 6)

/-- The port can declare its link up (R70, R71, R97, R374, R506). -/
def linkPossible (k : Nat) (s : State) : Bool :=
  let p := s.port k
  p.attach == 1 && !p.holdOut && !p.sfpBad && (!isCage k || p.sfpOk)
    && s.power.aonGood && (if s.season.season = .winter then k == 6 else s.power.mainGood && !s.power.resetLow)
    && (if k < 2 then ringJoined s else true)

/-- LINK_UP (R71): stamps of the port are used again (R284). -/
def execLinkUp (port : Nat) (s : State) : Host.Outcome State Fault Refusal :=
  .next (if port < 8 && !(s.port port).link && linkPossible port s then
      linkEvent port 1 (s.setPort port fun p => { p with link := true, stampsOff := false, compRate := p.rate, compFec := p.fec })
    else s)

/-- LINK_DOWN (R71). -/
def execLinkDown (port : Nat) (s : State) : Host.Outcome State Fault Refusal :=
  .next (if port < 8 then portDown port s else s)

/-- SFP_INSERT (R70): the identification is read and held against the port's rate; an unsupported module keeps the port down. `sfp` is the RATE of
the PMD that the identification names. -/
def execSfpInsert (port : Nat) (sfp : Option Nat) (s : State) : Host.Outcome State Fault Refusal :=
  .next (if isCage port then
      let s := (portDown port s).setPort port fun p => { p with sfpPresent := true, sfpBad := false, sfp := sfp }
      let ok := (s.port port).sfpOk
      linkEvent port (if ok then 2 else 4) (s.setPort port fun p => { p with attach := if ok then 1 else 2 })
    else s)

/-- SFP_REMOVE (R70): a link loss. -/
def execSfpRemove (port : Nat) (s : State) : Host.Outcome State Fault Refusal :=
  .next (if isCage port then
      linkEvent port 3 ((portDown port s).setPort port fun p => { p with sfpPresent := false, sfpBad := false, sfp := none, attach := 0 })
    else s)

/-- SFP_POWER_LIMIT (R506): a transceiver that draws too much is switched off and reads as unsupported. -/
def execSfpPowerLimit (port : Nat) (s : State) : Host.Outcome State Fault Refusal :=
  .next (if isCage port && (s.port port).sfpPresent then
      linkEvent port 4 ((portDown port s).setPort port fun p => { p with sfpBad := true, attach := 2 })
    else s)

/-- A write of TX_EN (R94): written 0, the frame in transmission completes and the queues are flushed. -/
def writeTxEn (k : Nat) (v : Bool) (s : State) : State :=
  let s := s.setPort k fun p => { p with txEn := v }
  if v then s else flushQueues k 36 s

/-- TX_EN_WRITE (R94). -/
def execTxEnWrite (port : Nat) (value : Bool) (s : State) : Host.Outcome State Fault Refusal :=
  .next (if port < 8 then writeTxEn port value s else s)

/-! ### Large sends -/

/-- The submitter of a send is told (R87); what concerns a dead generation is late (R177). -/
def sendTold (k : Nat) (d : SendDone) (s : State) : State :=
  let live := match d.inst with | some (i, g) => s.genCurrent i g | none => true
  if live then s.setPort k fun p => { p with sendDone := d :: p.sendDone }
  else match d.inst with | some (i, _) => lateAt .egf 0 i s | none => s

/-- LARGE_SEND_SUBMIT (R85, R87). -/
def execLargeSendSubmit (port : Nat) (send : LargeSend) (s : State) : Host.Outcome State Fault Refusal :=
  let send := send.given s
  let live := match send.inst with | some (i, g) => s.genCurrent i g | none => true
  .next (if 8 ≤ port then s
    else if !live then (match send.inst with | some (i, _) => lateAt .egf 0 i s | none => s)
    else match sendRefused port send s with
      | some c =>
        let s := match send.inst with | some (i, g) => if c ≤ 5 then spoofed i g c s else s | none => s
        sendTold port { inst := send.inst, refused := some c } s
      | none => s.setPort port fun p => { p with sends := p.sends ++ [{ send with sent := 0, made := 0 }] })

/-- The frame of a send stored with its copies, charged to its instance (R80, R189). -/
def storeSegment (k : Nat) (x : LargeSend) (octets : List Byte) (s : State) : State :=
  let (ports, s) := redPorts [k] s
  let proto : TxCopy := { seg := true, inst := x.inst }
  let ds := sendDests ports x.pcp proto false 0 s ++ mirrorDests none (ports.map (·.1)) none 0 s
  storeCharged x.inst (builtFrame octets x.pcp x.vid s) ds s

/-- The payload of a send lies in the DRAM, whose clock stands: the send waits at its crossing (R21). -/
def LargeSend.stalled (x : LargeSend) (s : State) : Bool :=
  match x.inst with | none => false | some (i, _) => !s.clockUp .dmc && !(s.inst i).inLs x.addr x.len

/-- SEGMENT_GENERATE (R87, R189): the next frame of the send at the head of a port, once its submitter holds credit. A send of a dead
generation ends without further frames; one whose payload cannot be read waits (R21). -/
def execSegmentGenerate (port : Nat) (s : State) : Host.Outcome State Fault Refusal :=
  .next (match (s.port port).sends with
    | [] => s
    | x :: rest =>
      let live := match x.inst with | some (i, g) => s.genCurrent i g | none => true
      if !live then sendTold port { inst := x.inst, frames := x.made } (s.setPort port fun p => { p with sends := rest })
      else if x.stalled s then s
      else
        let (octets, n, last) := nextSegment (ipRoom port x.vid s) x (x.data s)
        let cells := cellsOf (octets.length + 4)
        let credit := match x.inst with
          | some (i, _) => admits (s.inst i).useEgress cells (s.inst i).share.egress | none => true
        if !credit then s
        else
          let x1 := { x with sent := x.sent + n, made := x.made + 1 }
          let s := storeSegment port x octets (s.setPort port fun p => { p with sends := if last then rest else x1 :: rest })
          let s := match x.inst with | some (i, _) => refreshOver i s | none => s
          if last then sendTold port { inst := x.inst, frames := x1.made } s else s)

/-! ### Receive rings -/

/-- RX_RING_DELIVER (R90): the oldest copy for an instance ring or for a host ring. A host ring is reached while the host link is up (R21). -/
def execRxRingDeliver (host : Bool) (s : State) : Host.Outcome State Fault Refusal :=
  .next (if host then
      (match s.sw.hostQ with | [] => s | v :: q => if !s.pciUp then s else deliverHost v (s.modSw fun w => { w with hostQ := q }))
    else
      (match s.sw.instQ with | [] => s | v :: q => deliverInst v (s.modSw fun w => { w with instQ := q })))

/-! ### The bypass head -/

/-- LOOP_TEST (R106): both ports reach block lock on the internal loop, or a K-class fault keeps the head in BYPASS. -/
def execLoopTest (locked : Bool) (s : State) : Host.Outcome State Fault Refusal :=
  .next (if s.head.present && s.power.aonGood && s.power.mainGood && !s.power.resetLow && !s.head.coil then
      (if locked then s.modHead fun h => { h with loopOk := true, loopFrom := none }
       else (raise { block := .byp, kind := 9, access := 5 } s).modHead fun h => { h with loopOk := false, loopFrom := none })
    else s)

/-- A static forwarding entry names one of the module's port addresses (R473). -/
def staticFor (mac : Nat) (s : State) : Bool :=
  s.sw.fwd.any fun e => e.2.state == .active && e.2.static && e.2.key.toNat / 2 ^ 80 == mac

/-- The MGP allows the join (R473). -/
def joinOk (s : State) : Bool :=
  decide (7 ≤ s.persist.coldStep) && s.head.loopOk && s.sw.hsrEn && staticFor (s.blockMac 0) s && staticFor (s.blockMac 1) s

/-- COIL_ENERGISE (R102, R473). -/
def execCoilEnergise (s : State) : Host.Outcome State Fault Refusal :=
  let s := if joinOk s then s.modHead fun h => { h with joinAllowed := true } else s
  .next (if s.head.joinAllowed && coilAllowed s && !s.head.coil then s.modHead fun h => { h with coil := true, cmdAt := s.now } else s)

/-- HEAD_SWITCH_COMPLETE (R103, R106): the switch reaches the commanded position, and a disagreement is over (R372). -/
def execHeadSwitchComplete (s : State) : Host.Outcome State Fault Refusal :=
  .next (if s.head.present then persistEnds .byp 0 (s.modHead fun h => { h with through := h.coil }) else s)

/-- HEAD_POSITION_MISMATCH (R104): from 10 ms after a change of command, a sensed position that differs from it is a K-class fault of BYP;
the coil is released, P0 and P1 go down and ATTACH reads 3. A switch
stuck in THROUGH goes on disagreeing, and is one finding (R372). -/
def execHeadPositionMismatch (through : Bool) (s : State) : Host.Outcome State Fault Refusal :=
  .next (if s.head.present && through != s.head.coil && !(s.fset .byp 0).persist then
      whenDue (s.head.cmdAt + ms 10) (fun s =>
        let s := s.modHead fun h => { h with through := through }
        let s := raise { block := .byp, kind := 9, access := 5, persist := through } (portDown 1 (portDown 0 (coilOff s)))
        (s.setPort 0 fun p => { p with attach := 3 }).setPort 1 fun p => { p with attach := 3 }) s
    else s)

end Sys2Proof.Machine
end

