-- ==== Sys2Proof/Machine/Seasons.lean ====
section
/-!
DEFINITION. Machine/Seasons.lean: the commands of the seasons (R356 to R360) and the wake detector of P6 (R97 to R100).
-/
namespace Sys2Proof.Machine
open Sys2Proof

/-- The season a code names. -/
def seasonOf (c : Nat) : Option SeasonKind := if c = 0 then some .summer else if c = 1 then some .autumn else if c = 3 then some .winter else none

/-- A bank switch, a table commit or another season change is in progress (R357). -/
def seasonBlocked (s : State) : Bool :=
  s.season.changing.isSome || s.persist.switchOp.isSome || s.sw.applyOp.isSome || (List.range 8).any fun k => (s.psc k).commitPend

/-- Why a request for WINTER is refused (R357, R477). -/
def winterRefused (force : Bool) (s : State) : Option Nat :=
  if s.cgu.role.protecting && !force then some 1
  else if s.mlk.word.role = .taking ∧ !s.partnerGone then some 2
  else if seasonBlocked s then some 3
  else none

/-- A change between SUMMER and AUTUMN begins (R356), with the long operation that waits for it. -/
def seasonBegins (x : SeasonKind) (h : Option Nat) (s : State) : State :=
  seasonSettles (s.modSeason fun z => { z with changing := some x, switched := [], changeOp := h })

/-- A write of GO in SEASON_CTL (R356, R357). -/
def seasonGo (x : SeasonKind) (force : Bool) (s : State) : State :=
  if s.season.season = .summer ∨ s.season.season = .autumn then
    if x = .winter then (if (winterRefused force s).isSome then s else winterBegins none s)
    else if s.season.changing.isSome ∨ s.season.season = x then s
    else seasonBegins x none s
  else s

/-- SEASON_CTL written (R356, R357, R362): its fields, and the season requested with GO at 1. -/
def writeSeasonCtl (v : BitVec 32) (s : State) : State :=
  let c := bits v 30 29
  let s := s.modSeason fun z => { z with
    reqSeason := if c = 2 then z.reqSeason else c, force := bitOf v 28, ret := bitOf v 27, wakeEn := BitVec.ofNat 3 (bits v 25 23),
    wakeTimerS := bits v 22 0 }
  if bitOf v 31 then
    (match seasonOf s.season.reqSeason with | some x => seasonGo x s.season.force s | none => s)
  else s

/-- SEASON_REQUEST (R356, R357, R362): a write of SEASON_CTL. -/
def execSeasonRequest (value : BitVec 32) (s : State) : Host.Outcome State Fault Refusal := .next (writeSeasonCtl value s)

/-- WAKE_N_LOW (R358, R498): the pin falls and stays low; the wake comes 1 ms after the edge. A pin that has stayed low since the last one gives no
other. -/
def execWakeNLow (s : State) : Host.Outcome State Fault Refusal :=
  .next (if s.power.wakeLow then s
    else whenDue (s.now + ms 1) (fun s =>
      if s.season.season = .winter ∨ s.entering then wakeUp 2 (s.modPower fun p => { p with wakeLow := true }) else s) s)

/-- WAKE_TIMER_EXPIRY (R358): WAKE_TIMER_S after the entry, counted on the oscillator. -/
def execWakeTimerExpiry (s : State) : Host.Outcome State Fault Refusal :=
  .next (if s.season.season = .winter ∧ s.season.wakeEn.getLsbD 2 ∧ s.season.wakeTimerS ≠ 0 then
      whenDue (s.season.winterAge + sec s.season.wakeTimerS) (wakeUp 4) s
    else s)

/-- Eight copies of the pattern stand somewhere in the octets (R98). -/
def wakeMatch (pattern : List Byte) : List Byte → Bool
  | [] => false
  | b :: t => (b :: t).take 128 == (List.replicate 8 pattern).flatten || wakeMatch pattern t

/-- The frame is addressed to P6 or to all (R98). -/
def wakeDest (f : List Byte) (s : State) : Bool := dstMac f == s.blockMac 6 || dstMac f == broadcast

/-- WAKE_FRAME (R98 to R100): a frame received on P6 in WINTER; in SPRING a match is counted and changes nothing. While the clock of
the port's island stands nothing is received (R21). -/
def execWakeFrame (octets : List Byte) (fcsOk : Bool) (s : State) : Host.Outcome State Fault Refusal :=
  let l := frameLen octets
  let good := s.clockUp .cu && fcsOk && decide (64 ≤ l) && decide (l ≤ 1522)
  let hit : Bool := match s.wake.active with | some p => p.length == 16 && wakeDest octets s && wakeMatch p octets | none => false
  .next (if good ∧ (s.season.season = .winter ∨ (s.season.season = .spring ∧ hit)) then
      if hit then
        let s := s.modWake fun w => { w with matched := satAdd 16 w.matched 1 }
        if s.season.wakeEn.getLsbD 0 then wakeUp 1 s else s
      else s.modWake fun w => { w with other := satAdd 16 w.other 1 }
    else s)

end Sys2Proof.Machine
end

