-- ==== Sys2Proof/Machine/PageWrite.lean ====
section
/-!
DEFINITION. Machine/PageWrite.lean: writes of registers. A field whose value lies outside its range is left unchanged (each register's own
rule), and a value that a field would leave unchanged is one that the mailbox refuses (R458): the functions ending in Bad say which.
-/
namespace Sys2Proof.Machine
open Sys2Proof

/-- A field written: the new value where it lies in its range, else the old one. -/
def keep {α : Type} (ok : Bool) (new old : α) : α := if ok then new else old

/-- A number lies in a range. -/
def within (lo x hi : Nat) : Bool := decide (lo ≤ x) && decide (x ≤ hi)

/-! ### Ports (R94, R96) -/

/-- A port supports a RATE (R68): 25G and 10G on P0 to P5, 1G on P6 and P7. -/
def rateOk (k r : Nat) : Bool := if k < 6 then decide (r < 2) else r == 2

/-- A PORT_CTL with a field that the port would leave unchanged. -/
def portCtlBad (k : Nat) (v : BitVec 32) : Bool :=
  (decide (k < 6) && bits v 11 10 == 3) || !rateOk k (bits v 9 8) || decide (1 < bits v 7 6)

/-- RATE of one port written (R69): a change takes the link down (R71), and the module in a cage is held against the new rate (R70). Stamps of the
port are not used before its next link up (R284). -/
def putRate (k r : Nat) (s : State) : State :=
  if (s.port k).rate = r then s
  else (portDown k s).setPort k fun p => { p with rate := r, stampsOff := true : Port }.judged

/-- RATE written (R69): P0 and P1 always run at the same rate. -/
def writeRate (k r : Nat) (s : State) : State :=
  if !rateOk k r then s else if k < 2 then putRate 1 r (putRate 0 r s) else putRate k r s

/-- PORT_CTL written (R94). -/
def writePortCtl (k : Nat) (v : BitVec 32) (s : State) : State :=
  let s := writeRate k (bits v 9 8) s
  let s := s.setPort k fun p => { p with
    fec := keep (decide (k < 6) && bits v 11 10 != 3) (bits v 11 10) p.fec, rxTag := keep (decide (bits v 7 6 < 2)) (bits v 7 6) p.rxTag,
    untagPvid := bitOf v 5, pauseRx := bitOf v 4, rxEn := bitOf v 0,
    stampsOff := p.stampsOff || (decide (k < 6) && bits v 11 10 != 3 && bits v 11 10 != p.fec) }
  if bitOf v 1 = (s.port k).txEn then s else writeTxEn k (bitOf v 1) s

/-- A PVID that a port would leave unchanged (R96). -/
def portVlanBad (v : BitVec 32) : Bool := bits v 11 0 == 0 || bits v 11 0 == 4095

/-- PORT_VLAN written (R96). -/
def writePortVlan (k : Nat) (v : BitVec 32) (s : State) : State :=
  s.setPort k fun p => { p with defPcp := bits v 15 13, pvid := keep (!portVlanBad v) (bits v 11 0) p.pvid }

/-- PORT_PCPMAP written (R96). -/
def writePortPcpMap (k : Nat) (v : BitVec 32) (s : State) : State :=
  s.setPort k fun p => { p with pcpMap := (List.range 8).map fun i => bits v (3 * i + 2) (3 * i) }

/-- A MAX_FRAME that a port would leave unchanged (R96). -/
def maxFrameBad (n : Nat) : Bool := n % 2 == 1 || !within 1522 n 9216

/-- PORT_MAXFRAME written (R96). -/
def writeMaxFrame (k n : Nat) (s : State) : State := s.setPort k fun p => { p with maxFrame := keep (!maxFrameBad n) n p.maxFrame }

/-! ### Switch (R138) -/

/-- P0 and P1 set to forward PTP to each other, as the firmware does with HSR_EN at 1 (R285). -/
def ringFwd (s : State) : State :=
  (s.setPtp 0 fun p => { p with fwdMask := setBit p.fwdMask 1 true }).setPtp 1 fun p => { p with fwdMask := setBit p.fwdMask 0 true }

/-- SWC_CTL written; the bypass head's conditions are looked at again (R102). -/
def writeSwcCtl (v : BitVec 32) (s : State) : State :=
  let s := s.modSw fun w => { w with learnEn := bitOf v 2, prpEn := bitOf v 1, hsrEn := bitOf v 0 }
  let s := if bitOf v 0 && s.persist.fwUp then ringFwd s else s
  coilCheck s

/-- HOLDOFF written (R125, R138): a value below the floor of twice the longest CLS_AGE is raised to it. -/
def writeHoldoff (n : Nat) (s : State) : State :=
  let floor := (2 * s.sw.clsAge.foldl max 0 + 999) / 1000
  s.modSw fun w => { w with holdoffMs := keep (decide (n ≤ 3600000)) (max n floor) w.holdoffMs }

/-- FWD_IDLE written (R138). -/
def writeFwdIdle (n : Nat) (s : State) : State := s.modSw fun w => { w with fwdIdleS := keep (within 10 n 6500) n w.fwdIdleS }

/-- CLS_AGEc written (R138). -/
def writeClsAge (c n : Nat) (s : State) : State := s.modSw fun w => { w with clsAge := keep (within 10 n 100000) (w.clsAge.set c n) w.clsAge }

/-- PORT_FWDk written (R138). -/
def writePortFwd (k : Nat) (v : BitVec 32) (s : State) : State :=
  s.modSw fun w => { w with portLearn := w.portLearn.set k (bitOf v 8), flood := w.flood.set k (BitVec.ofNat 8 (bits v 7 0)) }

/-- A DEST that a mirror session would leave unchanged (R136, R138): no port, a ring port in HSR mode, a LAN port in PRP mode. -/
def mirCtlBad (v : BitVec 32) (s : State) : Bool :=
  let d := bits v 7 4
  decide (7 < d) || (decide (d < 2) && s.sw.hsrEn) || ((d == 4 || d == 5) && s.sw.prpEn)

/-- MIR_CTLm written (R138): by a commit, which waits while copies need the session as it was (R124). -/
def writeMirCtl (m : Nat) (v : BitVec 32) (s : State) : State :=
  let x := (committed s).sw.mir.getD m {}
  commitNow [{ idx := m, op := .putMir, mir := {
    cls := bits v 27 25, keepRed := bitOf v 24, srcTx := BitVec.ofNat 8 (bits v 23 16), srcRx := BitVec.ofNat 8 (bits v 15 8),
    dest := keep (!mirCtlBad v s) (bits v 7 4) x.dest, en := bitOf v 0 } }] s

/-! ### Supply (R235) -/

/-- A PMC_LOOP that leaves the register unchanged. -/
def pmcLoopBad (v : BitVec 32) : Bool :=
  !within 50 (bits v 29 20) 500 || !within 10 (bits v 19 10) 200 || !within 10 (bits v 9 0) (bits v 29 20 - 10)

/-- PMC_LOOPc written. -/
def writePmcLoop (c : Nat) (v : BitVec 32) (s : State) : State :=
  if pmcLoopBad v then s
  else writeLoop c (fun l => { l with track := bitOf v 31, setpoint := bits v 29 20, deadband := bits v 19 10, guard := bits v 9 0 }) s

/-- A PMC_VOLT that leaves the register unchanged. -/
def pmcVoltBad (v : BitVec 32) : Bool := !within 720 (bits v 25 16) 900 || !within 720 (bits v 9 0) 900

/-- PMC_VOLTc written: a floor above V_TARGET raises V_TARGET at once. -/
def writePmcVolt (c : Nat) (v : BitVec 32) (s : State) : State :=
  if pmcVoltBad v then s
  else writeLoop c (fun l => { l with vFix := bits v 25 16, vFloor := bits v 9 0, vTarget := max l.vTarget (4 * bits v 9 0) }) s

/-- PMC_FABRIC written; in AUTUMN VF follows (R228). -/
def writeFabricVolt (n : Nat) (s : State) : State :=
  if within 720 n 900 then
    let s := s.modSched fun x => { x with vVf := n }
    if s.season.season = .autumn then setVf n s else s
  else s

/-! ### Pair (R276) -/

/-- CGU_CTL written (R246, R248, R249): CLM_EN acts where it changes. -/
def writeCguCtl (v : BitVec 32) (s : State) : State :=
  let s := s.modCgu fun c => { c with claimRxEn := bitOf v 1 }
  if bitOf v 0 = s.cgu.clmEn ∨ clmBlocked (bitOf v 0) s then s else clmWrite (bitOf v 0) s

/-- CGU_CLAIM written: 0 leaves it unchanged. -/
def writeClaim (v : BitVec 32) (s : State) : State := if v = 0 then s else configChanged (s.modCgu fun c => { c with ownClaim := v })

/-- A CLAIM_MEM_MS that leaves the field unchanged. -/
def claimMemBad (v : BitVec 32) : Bool := !within 1 (bits v 15 0) 60000

/-- CGU_MEM written. -/
def writeClaimMem (v : BitVec 32) (s : State) : State := if claimMemBad v then s else s.modCgu fun c => { c with claimMemMs := bits v 15 0 }

/-- An OCU_CTL with a field left unchanged. -/
def ocuCtlBad (v : BitVec 32) : Bool := !within 5 (bits v 23 16) 100 || !within 100 (bits v 13 0) 10000

/-- OCU_CTL written. -/
def writeOcuCtl (v : BitVec 32) (s : State) : State :=
  s.modOcu fun o => { o with
    en := bitOf v 24, plausWinMs := keep (within 5 (bits v 23 16) 100) (bits v 23 16) o.plausWinMs,
    windowUs := keep (within 100 (bits v 13 0) 10000) (bits v 13 0) o.windowUs }

/-- OCU_REF written: TAKE_BLOCK is cleared by a 1 (R264). -/
def writeOcuRef (v : BitVec 32) (s : State) : State := if bitOf v 0 then s.modOcu fun o => { o with takeBlock := false } else s

/-- An MLK_CTL with a field left unchanged. -/
def mlkCtlBad (v : BitVec 32) : Bool := !within 1 (bits v 14 8) 100 || !within 1 (bits v 6 0) 64

/-- MLK_CTL written: a change of EPOCH_MS causes a full set. -/
def writeMlkCtl (v : BitVec 32) (s : State) : State :=
  let e := keep (within 1 (bits v 6 0) 64) (bits v 6 0) s.mlk.epochMs
  let s := s.modMlk fun m => { m with partnerToMs := keep (within 1 (bits v 14 8) 100) (bits v 14 8) m.partnerToMs }
  if e = s.mlk.epochMs then s
  else s.modMlk fun m => { m with
    epochMs := e, epochOld := s.epochNow, epochFrom := (s.time.tbNs / ms e + 1) * ms e, mir := m.mir.map fun x => (x.1, { x.2 with fullMs := true }) }

/-! ### Time (R305, R306) -/

/-- A TB_DOMAIN with a field left unchanged: a limit of 0, or two equal domain numbers. -/
def tbDomainBad (v : BitVec 32) : Bool := bits v 31 16 == 0 || bits v 15 8 == bits v 7 0

/-- TB_DOMAIN written, DOM_B before DOM_A: a number equal to the other domain's leaves its field unchanged. -/
def writeTbDomain (v : BitVec 32) (s : State) : State :=
  let a := bits v 7 0
  let b := bits v 15 8
  s.modTime fun t =>
    let t := { t with switchMaxUs := keep (bits v 31 16 != 0) (bits v 31 16) t.switchMaxUs }
    if a = b then
      (let t := if b = t.domA.num then t else { t with domB := { t.domB with num := b } }
       if a = t.domB.num then t else { t with domA := { t.domA with num := a } })
    else { t with domB := { t.domB with num := b }, domA := { t.domA with num := a } }

/-- A TB_LIMITS with a field left unchanged. -/
def tbLimitsBad (v : BitVec 32) : Bool := !within 5 (bits v 31 20) 3600 || !within 1 (bits v 19 0) 1000000

/-- TB_LIMITS written. -/
def writeTbLimits (v : BitVec 32) (s : State) : State :=
  s.modTime fun t => { t with
    holdoverS := keep (within 5 (bits v 31 20) 3600) (bits v 31 20) t.holdoverS,
    stepThrUs := keep (within 1 (bits v 19 0) 1000000) (bits v 19 0) t.stepThrUs }

/-- A FWD_MASK of port `k` that would make P4 and P5 forward to each other (R285): the other port of the pair already forwards to `k`. -/
def lanLoop (k : Nat) (v : BitVec 32) (s : State) : Bool :=
  (k == 4 && bitOf v 13 && (s.ptp 5).fwdMask.getLsbD 4) || (k == 5 && bitOf v 12 && (s.ptp 4).fwdMask.getLsbD 5)

/-- PTP_PORTk written; FWD_MASK bit k is ignored. A write that would make P4 and P5 forward to each other leaves the register unchanged (R285). -/
def writePtpPort (k : Nat) (v : BitVec 32) (s : State) : State :=
  if lanLoop k v s then s
  else s.setPtp k fun p => { p with
    tcClass := bits v 18 16, fwdMask := setBit (BitVec.ofNat 6 (bits v 13 8)) k false, pcp := bits v 5 3, untagged := bitOf v 2,
    pdelayEn := bitOf v 1, ptpEn := bitOf v 0 }

/-- PPS_CTL written. -/
def writePpsWidth (n : Nat) (s : State) : State := s.modTime fun t => { t with ppsWidth := keep (within 1 n 500000) n t.ppsWidth }

/-- TB_INCR written: outside ±0x0010_0000 it is left unchanged. -/
def writeIncr (v : BitVec 32) (s : State) : State := s.setIncr (signed 32 v.toNat)

/-- TB_CTL written (R293 to R295, R300). Every write writes REF: during a slew the same value restarts the slew. -/
def writeTbCtl (v : BitVec 32) (s : State) : State :=
  let s := s.modTime fun t => { t with ppsGate := bitOf v 7, ppsEn := bitOf v 6, autoSwitch := bitOf v 5 }
  let s := writeRef (bitOf v 0) s
  if bitOf v 4 ∧ !s.time.tbStopped then doStep s.time.step s else s

/-- TB_STAT written (R289): the servo's STATE fields. -/
def writeTbStat (v : BitVec 32) (s : State) : State :=
  (s.setDom true fun d => { d with state := bits v 7 6 }).setDom false fun d => { d with state := bits v 5 4 }

/-- OFS_x written (R304): the low word waits for the high one. -/
def writeOfs (b hi : Bool) (v : BitVec 32) (s : State) : State :=
  s.setDom b fun d =>
    if hi then { d with ofs := signed 64 (v.toNat * 2 ^ 32 + d.ofsLatch.getD (wordOf (ofs64 d.ofs) 0)) * 65536, ofsLatch := none }
    else { d with ofsLatch := some v.toNat }

/-- A comparator's TIME or PERIOD written (R306): _HI takes effect at the write of _LO; PERIOD 0 only while PERIODIC is 0, and 1 to 999 leave it
unchanged (R298). -/
def writeTrg (k j : Nat) (v : BitVec 32) (s : State) : State :=
  if j = 0 then writeTrgCtl k v s
  else if j = 1 then armCmp k (s.setCmp k fun c => { c with time := c.timeHi * 2 ^ 32 + v.toNat })
  else if j = 2 then s.setCmp k fun c => { c with timeHi := v.toNat }
  else s.setCmp k fun c => if (c.periodic ∧ v = 0) ∨ (1 ≤ v.toNat ∧ v.toNat ≤ 999) then c else { c with period := v.toNat }

/-! ### Acquisition (R331) -/

/-- An ACQ_CTL with a field left unchanged. -/
def acqCtlBad (v : BitVec 32) : Bool := decide (1000 < bits v 13 4) || bits v 2 1 == 3

/-- ACQ_CTL written. -/
def writeAcqCtl (v : BitVec 32) (s : State) : State :=
  s.modAcq fun a => { a with
    deadMs := keep (decide (bits v 13 4 ≤ 1000)) (bits v 13 4) a.deadMs, trigInEn := bitOf v 3,
    trigInEdge := keep (bits v 2 1 != 3) (bits v 2 1) a.trigInEdge, en := bitOf v 0 }

/-! ### Backstop (R362, R363) -/

/-- A BKI_CTL with a field left unchanged. -/
def bkiCtlBad (v : BitVec 32) : Bool := !within 20 (bits v 19 10) 1000

/-- An output whose BT_EN is 0 is released at once and keeps no hold; one whose BT_EN is 1 with an element in TRIP is driven (R347). -/
def btGate (s : State) : State :=
  let s := s.modBki fun b => { b with btDriven := b.btDriven &&& b.btEn, btHoldEnd := b.btHoldEnd.filter fun p => b.btEn.getLsbD p.1 }
  (List.range 4).foldl (fun s j => if s.bki.btEn.getLsbD j && s.bki.tripsOut j && !s.bki.btDriven.getLsbD j then btDrive j s else s) s

/-- The plain fields of BKI_CTL written (R347, R350): HB_EN, once 1, stays until a cold start
or WINTER. A running firmware serves SYNC (R339). -/
def writeBkiCtl (v : BitVec 32) (s : State) : State :=
  let s := btGate (s.modBki fun b => { b with
    inEn := BitVec.ofNat 8 (bits v 31 24), btEn := BitVec.ofNat 4 (bits v 23 20), btMinMs := keep (within 20 (bits v 19 10) 1000) (bits v 19 10) b.btMinMs,
    sync := bitOf v 3, fNom := bitOf v 2, preset := bitOf v 1, hbEn := (b.hbEn && !b.hbOpen) || bitOf v 0,
    hbOpen := b.hbOpen && !bitOf v 0 })
  if s.persist.fwUp then syncCmp s else s

/-- A CAL_CTL with a field left unchanged. -/
def calCtlBad (v : BitVec 32) : Bool := !within 1 (bits v 7 2) 60

/-- CAL_CTL written (R340, R341): with CAL_EN 0 the step in progress goes on to its end; rotation that starts anew starts its step now. -/
def writeCalCtl (v : BitVec 32) (s : State) : State :=
  s.modBki fun b => { b with
    calStepS := keep (within 1 (bits v 7 2) 60) (bits v 7 2) b.calStepS, calEn := bitOf v 0, calLast := !bitOf v 0 && (b.calEn || b.calLast),
    calAt := if b.calEn || b.calLast then b.calAt else s.now }

/-- A residual element with one quantity to choose from more than one input (R343): the whole slot is left unchanged. -/
def ElemSlot.residualBad (e : ElemSlot) : Bool :=
  e.en && (e.type == 2 || e.type == 3) && !e.resSrc && (maskList e.inputs).length != 1

/-- Every field of an element slot lies in its range (R343, R363). -/
def ElemSlot.ok (e : ElemSlot) : Bool :=
  decide (e.type < 6) && (decide (e.zone < 8) || e.zone == 15) && decide (e.curve < 8) && decide (e.resetMode < 3) && within 1000 e.pickup 8000000
    && within 10 e.tms 15000 && decide (e.delay ≤ 60000) && decide (e.resetT ≤ 60000) && decide (e.block ≤ 8000) && !e.residualBad

/-- An element slot written (R343, R363): a field out of its range keeps what it held, and a residual element that R343 refuses keeps the whole
slot. -/
def ElemSlot.put (n o : ElemSlot) : ElemSlot :=
  let x := { n with
    type := keep (decide (n.type < 6)) n.type o.type, zone := keep (decide (n.zone < 8) || n.zone == 15) n.zone o.zone,
    curve := keep (decide (n.curve < 8)) n.curve o.curve, resetMode := keep (decide (n.resetMode < 3)) n.resetMode o.resetMode,
    pickup := keep (within 1000 n.pickup 8000000) n.pickup o.pickup, tms := keep (within 10 n.tms 15000) n.tms o.tms,
    delay := keep (decide (n.delay ≤ 60000)) n.delay o.delay, resetT := keep (decide (n.resetT ≤ 60000)) n.resetT o.resetT,
    block := keep (decide (n.block ≤ 8000)) n.block o.block }
  if x.residualBad then o else x

/-- A slot of the shadow bank written (R348, R363). -/
def writeElem (n : Nat) (e : ElemSlot) (s : State) : State :=
  s.modBki fun b => b.withShadow (b.shadowBank.set n (e.put (b.shadowBank.get n {})))

/-! ### Recorder (R401, R402) -/

/-- EVR_CTL written. -/
def writeEvrCtl (limitEn saveEn : Bool) (s : State) : State := s.modEvr fun e => { e with limitEn := limitEn, saveEn := saveEn }

/-- A bucket's fields lie in their ranges. -/
def bucketOk (mode burst intervalUs : Nat) : Bool := decide (mode < 3) && within 1 burst 1023 && within 10 intervalUs 1000000

/-- A bucket under new settings: the tokens held are cut to the new BURST; a refill already timed goes on, else one is timed from the write where
the bucket is not full (R402). -/
def Bucket.rewritten (b : Bucket) (mode burst intervalUs now : Nat) : Bucket :=
  { b with
    mode := mode, burst := burst, intervalUs := intervalUs, tokens := min b.tokens burst,
    refillAt := if b.tokens < burst then some (b.refillAt.getD (now + us intervalUs)) else none }

/-- A bucket entry written (R402): ignored for a code that always passes. -/
def writeBucket (code mode burst intervalUs : Nat) (s : State) : State :=
  if code < 16 ∨ 1024 ≤ code ∨ !bucketOk mode burst intervalUs then s
  else
    s.modEvr fun e => { e with buckets := e.buckets.set code ((e.bucket code).rewritten mode burst intervalUs s.now) }

/-! ### Fault sets (R383) -/

/-- The capture mode of a fault set (R377): in SPRING every block but the island's stays in LATCH (R490; log entry 179). -/
def State.setCapture (s : State) (b : BlockId) (u : Nat) (latch : Bool) : State :=
  let l := latch || (s.season.season == .spring && b != .bki)
  s.setFset b u fun x => { x with capture := l, captureAct := l }

/-- FLT_CTL written (R377, R383): the capture mode, the interrupt enables, and REARM. -/
def writeFltCtl (b : BlockId) (u : Nat) (v : BitVec 32) (s : State) : State :=
  let s := (s.setCapture b u (bitOf v 6)).setFset b u fun x => { x with intEn := BitVec.ofNat 4 (bits v 5 2) }
  if bitOf v 7 then rearm b u s else s

/-- FLT_QUIET written. -/
def writeQuiet (b : BlockId) (u n : Nat) (s : State) : State :=
  if within 100 n 3600000 then s.setFset b u fun x => { x with quietMs := n } else s

end Sys2Proof.Machine
end

