-- ==== Sys2Proof/Machine/OpsModule.lean ====
section
/-!
DEFINITION. Machine/OpsModule.lean: the module family of the mailbox (R459).
-/
namespace Sys2Proof.Machine
open Sys2Proof

/-- GET_IDENTITY (R459): serial, part, variant, stepping, unit ID, MAC_BASE, protocol, releases of the two banks, BKI firmware 1.3, monitor 1.4,
and issue C of the head as 3. -/
def opGetIdentity (_r : Req) (s : State) : State × Ans :=
  okRes ([s.mbx.serial, 0x9640, s.mbx.variant, 0xB1, s.cgu.unitId, s.mbx.macBase.toNat, 0x0302] ++ s.persist.releases
    ++ [0x0103, 0x0104, if s.head.present then 3 else 0]) s

/-- GET_IDENTITY. -/
def execGetIdentity (r : Req) (s : State) : Host.Outcome State Fault Refusal :=
  .next (serve r 0x0100 .yes false (fun r s => opGetIdentity r s) s)

/-- Blocks with a fault set in LATCH, by block ID (R377, R459). -/
def captureMap (s : State) : Nat :=
  (listMask 23 ((allSets.filter fun p => (s.fset p.1 p.2).captureAct).map fun p => p.1.id)).toNat

/-- GET_STATUS (R459). -/
def opGetStatus (_r : Req) (s : State) : State × Ans :=
  okRes [modStat s, bkiStatus s, s.season.season.code, captureMap s, b2n s.persist.activeBank] s

/-- GET_STATUS. -/
def execGetStatus (r : Req) (s : State) : Host.Outcome State Fault Refusal :=
  .next (serve r 0x0101 .yes false (fun r s => opGetStatus r s) s)

/-- OP_STATUS (R445): a handle stays readable for 60 s after the operation's end. -/
def opOpStatus (_r : Req) (handle : Nat) (s : State) : State × Ans :=
  match s.mbx.ops.find? fun o => o.handle == handle with
  | some o =>
    match o.done with
    | some st => if s.now < o.endAt + sec 60 then okRes [1, st.code, o.opcode, o.pair, o.tag] s else refuse (.badParam 0) s
    | none => okRes [0, 0, o.opcode, o.pair, o.tag] s
  | none => refuse (.badParam 0) s

/-- OP_STATUS. -/
def execOpStatus (r : Req) (handle : Nat) (s : State) : Host.Outcome State Fault Refusal :=
  .next (serve r 0x0102 .no false (fun r s => opOpStatus r handle s) s)

/-- ECHO (R459). -/
def opEcho (_r : Req) (octets : List Nat) (s : State) : State × Ans := if 48 < octets.length then refuse .badLength s else okRes octets s

/-- ECHO. -/
def execEcho (r : Req) (octets : List Nat) (s : State) : Host.Outcome State Fault Refusal :=
  .next (serve r 0x0103 .yes false (fun r s => opEcho r octets s) s)

/-- The RC fields of an arbiter after a read (R51). -/
def Arbiter.readOut (a : Arbiter) : Arbiter := { a with waitMax := 0, waitWho := 0, backoffs := 0 }

/-- ARB_READ (R459): every register of the arbiter's page; its RC fields clear. -/
def opArbRead (_r : Req) (arb : Nat) (s : State) : State × Ans :=
  if 37 ≤ arb then refuse (.badParam 0) s
  else okRes ([arbCtl arb s, arbStat arb s, arbWaitMax arb s, (s.arb arb).backoffs] ++ (List.range 4).map fun j => arbPrio arb j s)
    (s.setArb arb (s.arb arb).readOut)

/-- ARB_READ. -/
def execArbRead (r : Req) (arb : Nat) (s : State) : Host.Outcome State Fault Refusal :=
  .next (serve r 0x0104 .no false (fun r s => opArbRead r arb s) s)

/-- A priority written (R41, R52). -/
def Arbiter.putPrio (a : Arbiter) (idx prio : Nat) : Arbiter := { a with prio := a.prio.set idx prio }

/-- ARB_PRIO (R41, R459). -/
def opArbPrio (_r : Req) (arb idx prio : Nat) (s : State) : State × Ans :=
  if 37 ≤ arb then refuse (.badParam 0) s
  else if arbReq arb ≤ idx then refuse (.badParam 1) s
  else if 15 < prio then refuse (.badParam 2) s
  else okRes [(s.arb arb).prio.getD idx 0] (configChanged (s.setArb arb ((s.arb arb).putPrio idx prio)))

/-- ARB_PRIO. -/
def execArbPrio (r : Req) (arb idx prio : Nat) (s : State) : Host.Outcome State Fault Refusal :=
  .next (serve r 0x0105 .no false (fun r s => opArbPrio r arb idx prio s) s)

/-- The arbiters that are capable of compatibility mode (R36). -/
def compatArbs : List Nat := (List.range 37).filter fun k => arbCompat k

/-- ARB_MODE (R46, R459): all nine capable arbiters together. -/
def opArbMode (_r : Req) (mode : Nat) (s : State) : State × Ans :=
  if 1 < mode then refuse (.badParam 0) s
  else okRes [mode] (configChanged (compatArbs.foldl (fun s k => s.setArb k ((s.arb k).writeMode k (mode == 1))) s))

/-- ARB_MODE. -/
def execArbMode (r : Req) (mode : Nat) (s : State) : Host.Outcome State Fault Refusal :=
  .next (serve r 0x0106 .no false (fun r s => opArbMode r mode s) s)

/-- A long operation that is accepted and done in one step (R445): ACCEPTED, and OP_DONE with OK. -/
def longNow (r : Req) (opcode : Nat) (f : State → State) (s : State) : State × Ans :=
  let h := s.handle
  (opDone h .ok [] (f (startLong r opcode 0 s)), { status := .accepted h })

/-- SERVICE (R476, R478). -/
def opService (r : Req) (declare : Nat) (s : State) : State × Ans :=
  if 1 < declare then refuse (.badParam 0) s
  else if declare = 1 then
    match serviceRefused s with
    | some x => refuse (.state x) s
    | none => longNow r 0x0107 serviceOn s
  else if s.cgu.role.protecting then refuse (.state 2) s
  else if s.longBusy liveChangeOps then refuse (.state 5) s
  else longNow r 0x0107 serviceOff s

/-- SERVICE. -/
def execService (r : Req) (declare : Nat) (s : State) : Host.Outcome State Fault Refusal :=
  .next (serve r 0x0107 .no false (fun r s => opService r declare s) s)

end Sys2Proof.Machine
end

