-- ==== Sys2Proof/Machine/StartUp.lean ====
section
/-!
DEFINITION. Machine/StartUp.lean: the commands of a start and of live change (R470 to R489).
-/
namespace Sys2Proof.Machine
open Sys2Proof

/-- t_R has come (R472): the BKI protects, MAIN is good, and nothing holds the module in reset. -/
def coldReady (s : State) : Bool :=
  s.season.season == .spring && s.island && s.power.mainGood && !s.power.disconnected && !s.power.resetLow && !s.power.pfwLow
    && !s.power.internalFail && decide (s.persist.coldStep = 0) && s.bki.mgpReset && decide (s.bki.hb ≠ 3)

/-- The time (ns) in which a rail ramps to 900 mV (R32, R472). -/
def rampNs : Nat := (3600000 + slewRate - 1) / slewRate

/-- VF and VC0 to VC7 stand at 900 mV (R472), none of them out of its band. -/
def State.railsFull (s : State) : Bool :=
  decide (s.vfLevel = 900) && !s.power.badRails.contains .vf
    && (List.range 8).all fun k => decide (s.railLevel k = 3600) && !s.power.badRails.contains (.vc k)

/-- COLD_START (R472): at t_R the MGP reset is released from the bank last marked active. A step that fails, verification of the image among them,
leaves the module in SPRING with the island governing restarts. -/
def execColdStart (c : ColdIn) (s : State) : Host.Outcome State Fault Refusal :=
  .next (if coldReady s then
      whenDue (s.power.rampAt + rampNs) (fun s =>
        if s.railsFull then
          coldGo c (s.modBki fun b => { b with mgpReset := false, mgpResetAt := s.now, hbSinceReset := false, bootBank := s.persist.activeBank })
        else s) s
    else s)

/-- START_UP_COMPLETE (R472 step 11, R490): once the partition schedulers have started, SPRING ends in the RETURN season, and acquisition streams
with EN 1 start capture. -/
def execStartUpComplete (s : State) : Host.Outcome State Fault Refusal :=
  .next (if s.persist.fwUp ∧ s.persist.coldStep = 10 ∧ s.season.season = .spring ∧ (List.range 8).all (fun k => !(s.psc k).en || (s.psc k).running) then
      let x : SeasonKind := if s.season.ret then .autumn else .summer
      let s := s.modPersist fun p => { p with coldStep := 11, started := true, startedAt := s.now }
      let s := (List.range 8).foldl (fun s k => seasonVolt k x s) s
      let s := (List.range 4).foldl (fun s n => if (s.acqS n).en then acqBegin n s else s) s
      enterSeason x s
    else s)

/-- MGP_FIRMWARE_START (R479, R480): the firmware of the bank the island chose is verified (R423), starts and writes its heartbeat; a cold start that
had not come to its end is resumed from the first step that is not complete. What that finds is free (log entry 25). -/
def execMgpFirmwareStart (s : State) : Host.Outcome State Fault Refusal :=
  .next (if s.island ∧ !s.bki.mgpReset ∧ !s.persist.fwUp ∧ s.bki.hb = 2 then
      (if s.persist.coldStep = 11 then (if (coldDo {} 3 s).1 then restartSteps (heartbeat (coldDo {} 3 s).2) else (coldDo {} 3 s).2)
       else coldResume (coldDrawn s) s.took)
    else s)

/-- CLAIM_ENABLE_AUTO (R475): CLM_EN is set as soon as R474 allows, once the partner is present or has been declared lost; not while the unit's ID is
in use by the partner (R248). -/
def execClaimEnableAuto (s : State) : Host.Outcome State Fault Refusal :=
  .next (if s.persist.fwUp ∧ s.persist.clmEnSaved ∧ !s.cgu.clmEn ∧ !clmBlocked true s ∧ (s.mlk.partner ≠ .awaited ∨ s.mlk.awaitOver)
        ∧ (claimRefused s).isNone then
      clmWrite true (s.modPersist fun p => { p with clmEnSaved := false })
    else s)

/-- SERVICE_AUTO (R478): with the stored intent 1 the firmware makes the declaration as soon as its conditions hold. -/
def execServiceAuto (s : State) : Host.Outcome State Fault Refusal :=
  .next (if s.persist.fwUp ∧ s.persist.intent ∧ !s.mbx.inService ∧ (serviceRefused s).isNone then serviceOn s else s)

/-- CONFIG_PERSIST (R470): within 1 s of an accepted change a new copy is written. -/
def execConfigPersist (s : State) : Host.Outcome State Fault Refusal :=
  .next (if s.persist.fwUp ∧ s.persist.changedAt.isSome then persistNow s else s)

/-! ### Changing the firmware bank -/

/-- BANK_HANDOVER (R482, R483): the new image runs, goes on with the heartbeat, and takes requests again. Where the carried state fails its CRC
the shadows are rebuilt as at a restart. It is a start of the MGP, which relocks the monitor and returns its line rate (R511, R520). -/
def execBankHandover (carriedOk : Bool) (s : State) : Host.Outcome State Fault Refusal :=
  .next (if s.persist.fwUp ∧ s.persist.switchOp.isSome ∧ s.persist.handoverAt.isNone then
      let b := s.persist.switchTo
      let s := heartbeat (s.modBki fun x => { x with bootBank := b })
      let s := s.modMbx fun m => { m with fwBank := b }
      let s := s.modPersist fun p => { p with handoverAt := some s.now, markDue := some (s.now + sec 60), hsReplaced := [] }
      let s := s.modMon fun m => { m.relocked with waiting := m.waiting, cache := m.cache }
      let s := if carriedOk then s else persistNow s
      switchSettles (mgpStarted 2 s)
    else s)

/-- BANK_MARK_ACTIVE (R482): 60 s after the handover without a restart. -/
def execBankMarkActive (s : State) : Host.Outcome State Fault Refusal :=
  .next (match s.persist.markDue with
    | some d => whenDue d (fun s => s.modPersist fun p => { p with activeBank := s.mbx.fwBank, markDue := none }) s
    | none => s)

/-- A staged image in its place (R477, R481): a bank that may now be activated, with the release it holds, which the spec does not give; the Backstop
image of the bank that the MGP is not running from; or the image store. -/
def staged (dest : Nat) (s : State) : State :=
  if dest ≤ 1 then
    s.took.modPersist fun p => { p with
      staged := p.staged.set dest true, dzixImg := p.dzixImg.set dest p.stagingImage, releases := p.releases.set dest (0x030200 + s.free1 % 256) }
  else if dest = 2 then s.modPersist fun p => { p with bkiImg := p.bkiImg.set (1 - b2n s.mbx.fwBank) p.stagingImage }
  else s.modPersist fun p => { p with imageStore := p.imageStore ++ [p.stagingImage.octets] }

/-- IMAGE_STAGE_COMPLETE (R468, R481): the image is written and verified; one that fails is refused whole. -/
def execImageStageComplete (s : State) : Host.Outcome State Fault Refusal :=
  .next (match s.persist.staging with
    | some h =>
      if s.persist.fwUp then
        let ok := s.persist.stagingOk
        let dest := s.persist.stagingTo
        let s := imageCount ok (s.modPersist fun p => { p with staging := none })
        opDone h (if ok then .ok else .badParam 0) [] (if ok then staged dest s else s)
      else s
    | none => s)

/-- The lines that the indirect buffer of an import receives (R489): a line for each refused item, and the allowance lists. -/
def importOut (p : Persist) : List Nat :=
  (p.importLines.flatMap fun x => [x.1, x.2.1, x.2.2]) ++ p.importPubs.flatMap fun l => l.map Allow.pack

/-- What an import has converted goes into the shadows (R489). -/
def importApply (s : State) : State :=
  let p := s.persist
  let s := s.modSw fun w => { w with batch := w.batch ++ p.importBatches }
  let s := s.modSce fun c => { c with
    batches := (c.batches.filter fun b => !(p.importGroups.any fun g => g.group == b.group)) ++ p.importGroups }
  p.importElems.foldl (fun s e => writeElem e.1 e.2 s) s

/-- IMPORT_COMPLETE (R489): the shadows are written; OP_DONE gives the counts converted and refused. -/
def execImportComplete (s : State) : Host.Outcome State Fault Refusal :=
  .next (match s.persist.importOp with
    | some h =>
      if s.persist.fwUp then
        let p := s.persist
        opDone h .ok ([p.importOk, p.importLines.length] ++ importOut p) ((importApply s).modPersist fun p => { p with
          importOp := none, importBatches := [], importGroups := [], importElems := [], importPubs := [], importLines := [] })
      else s
    | none => s)

/-- IMAGE_COPY_COMPLETE (R485): the image stands at guest address 0, the rest of memory is kept; an instance that was on starts; what was held
runs after OP_DONE. -/
def execImageCopyComplete (inst : Nat) (s : State) : Host.Outcome State Fault Refusal :=
  .next (match s.persist.replacing.find? fun r => r.inst == inst with
    | some r =>
      if s.persist.fwUp ∧ r.halted then
        let s := lsWrite inst 0 r.image (s.setInst inst fun d => { d with image := r.image })
        let s := if r.wasOn ∧ (s.inst inst).state = .halted then
            emitInst inst false (freshHarts inst (s.setInst inst fun d => { d with state := .ready, cause := 0 })) else s
        let s := s.modPersist fun p => { p with replacing := p.replacing.filter fun x => x.inst ≠ inst }
        configChanged (runHeld r (opDone r.handle .ok [] s))
      else s
    | none => s)

end Sys2Proof.Machine
end

