-- ==== Sys2Proof/Machine/OpsInstance.lean ====
section
/-!
DEFINITION. Machine/OpsInstance.lean: the instance lifecycle family of the mailbox (R460).
-/
namespace Sys2Proof.Machine
open Sys2Proof

/-- The instance a request names; the check of R436 has found it current where the opcode needs one. -/
def Req.i (r : Req) : Nat := r.inst.getD 0

/-- The image of an instance is being replaced (R485). -/
def State.isReplacing (s : State) (i : Nat) : Bool := s.persist.replacing.any fun x => x.inst == i

/-- A long operation acts on the instance (R196, R446). -/
def State.instBusy (s : State) (i : Nat) : Bool := (s.inst i).state == .resetting || s.isReplacing i

/-- A request that changes a settled instance (R446). -/
def onInst (i : Nat) (s : State) (f : State × Ans) : State × Ans := if s.instBusy i then refuse .busy s else f

/-- An instance image verifies under slot 0x003 or a slot of USE 4 that the MGP owns (R423). -/
def imageVerified (x : Image) (s : State) : Bool :=
  x.sigOk && s.ksu.slots.any fun p => p.2.valid && !p.2.unusable && p.2.use == 4 && (p.1 == 3 || p.2.byMgp) && s.slotValue p.1 == x.keyHash

/-! ### Creation, reset, removal -/

/-- SRC_MAC may not be given to a new instance (R179). -/
def macTaken (mac : Nat) (s : State) : Bool :=
  mac / 2 ^ 40 % 2 == 1 || ((List.range 16).any fun k => mac == s.blockMac k)
    || (s.live.any fun p => p.2.mac.toNat == mac) || (s.insts.creating.any fun c => c.mac.toNat == mac)
    || (s.acq.streams.any fun p => p.2.srcMac.toNat == mac)
    || (s.sw.fwd.any fun p => p.2.state == .active && p.2.targetType == 2 && p.2.key.toNat / 2 ^ 80 == mac)

/-- The fields of an allowance entry that would be left unchanged (R188); one with VALID 0 is stored as written. -/
def Allow.bad (a : Allow) : Bool :=
  a.valid && (a.etype == 0x8100 || a.etype == 0x88A8 || a.etype == 0x892F || a.etype == 0x88F7 || a.vid == 0 || decide (4095 ≤ a.vid))

/-- The lowest-numbered FREE descriptor that no creation holds (R179). -/
def freeNumber (s : State) : Option Nat :=
  (List.range 512).find? fun i => (s.inst i).state == .free && !(s.insts.creating.any fun c => c.num == i)

/-- Why an instance number cannot be created (R179). -/
def numberRefused (n : Nat) (s : State) : Option Status :=
  if s.insts.creating.any fun c => c.num == n then some .busy
  else match (s.inst n).state with
    | .free => none
    | .quarantine => some (.noInstance (s.holdLeft n))
    | .resetting => some .busy
    | _ => some (.state 31)

/-- A request for CREATE names no live instance: GEN 0 stands beside a number that is not live (R437). -/
def createReq (r : Req) : Req := if r.gen = 0 then { r with inst := none } else r

/-- CREATE (R179, R460): granules are held from the acceptance on. -/
def opCreate (r : Req) (num : Nat) (mac : BitVec 48) (auto : Bool) (share : Shares) (allow : List Allow) (image : Image)
    (s : State) : State × Ans :=
  if num ≠ 0xFFFF ∧ 512 ≤ num then refuse (.badParam 0) s
  else if macTaken mac.toNat s then refuse (.badParam 1) s
  else if !share.inRange then refuse (.badParam 3) s
  else if allow.length ≠ 8 ∨ allow.any Allow.bad then refuse (.badParam 4) s
  else if share.ls * lsGran < image.octets.length then refuse (.badParam 5) s
  else if !image.crcOk then refuse (.badParam 6) s
  else if !imageVerified image s then refuse (.badParam 7) (imageCount false s)
  else
    let s := imageCount true s
    match (if num = 0xFFFF then freeNumber s else some num) with
    | none => refuse (.noResource 10 0) s
    | some i =>
      match numberRefused i s with
      | some st => refuse st s
      | none =>
        match poolShort share.list s with
        | some (k, free) => refuse (.noResource k free) s
        | none =>
          let c : Creation := { num := i, mac := mac, auto := auto, share := share, allow := allow, image := image.octets, ls := lsPick share.ls s,
                                dram := dramPick share.dram s, handle := some s.handle }
          (dramOwn c.dram (i + 1) (lsOwn c.ls (i + 1) ((startLong r 0x0200 i s).modInsts fun n => { n with creating := n.creating ++ [c] })),
            { status := .accepted s.handle })

/-- CREATE. -/
def execCreate (r : Req) (num : Nat) (mac : BitVec 48) (auto : Bool) (share : Shares) (allow : List Allow) (image : Image)
    (s : State) : Host.Outcome State Fault Refusal :=
  .next (serve (createReq r) 0x0200 .no false (fun r s => opCreate r num mac auto share allow image s) s)

/-- A reset or removal requested during a replacement is held (R485): one of each kind, in the order of R196. -/
def holdFor (r : Req) (opcode i : Nat) (removal clear : Bool) (s : State) : State × Ans :=
  let held := ((s.persist.replacing.find? fun x => x.inst == i).map fun x => x.held.filter fun h => h.2.1.isSome).getD []
  if held.any fun h => h.1 || h.1 == removal then refuse .busy s
  else
    ((startLong r opcode i s).modPersist fun p => { p with
      replacing := p.replacing.map fun x => if x.inst = i then { x with held := held ++ [(removal, some s.handle, clear)] } else x },
     { status := .accepted s.handle })

/-- RESET (R193, R196). -/
def opReset (r : Req) (clearDram : Bool) (s : State) : State × Ans :=
  let i := r.i
  if (s.inst i).state = .resetting then refuse .busy s
  else if s.isReplacing i then holdFor r 0x0201 i false clearDram s
  else (beginReset i false clearDram (some s.handle) (startLong r 0x0201 i s), { status := .accepted s.handle })

/-- RESET. -/
def execReset (r : Req) (clearDram : Bool) (s : State) : Host.Outcome State Fault Refusal :=
  .next (serve r 0x0201 .no true (fun r s => opReset r clearDram s) s)

/-- REMOVE (R193, R196): during a reset it is held. -/
def opRemove (r : Req) (s : State) : State × Ans :=
  let i := r.i
  let d := s.inst i
  if d.state = .resetting then
    if d.removing ∨ d.removeHeld.isSome then refuse .busy s
    else ((startLong r 0x0202 i s).setInst i fun d => { d with removeHeld := some (some s.handle) }, { status := .accepted s.handle })
  else if s.isReplacing i then holdFor r 0x0202 i true false s
  else (beginReset i true false (some s.handle) (startLong r 0x0202 i s), { status := .accepted s.handle })

/-- REMOVE. -/
def execRemove (r : Req) (s : State) : Host.Outcome State Fault Refusal :=
  .next (serve r 0x0202 .no true (fun r s => opRemove r s) s)

/-- STOP (R176, R196). -/
def opStop (r : Req) (s : State) : State × Ans :=
  onInst r.i s (let s := halt r.i 1 s; okRes [(s.inst r.i).state.code] s)

/-- STOP. -/
def execStop (r : Req) (s : State) : Host.Outcome State Fault Refusal :=
  .next (serve r 0x0203 .no true (fun r s => opStop r s) s)

/-- A stopped instance is READY again (R176). -/
def Inst.started (d : Inst) : Inst := { d with state := .ready, cause := 0 }

/-- START (R176, R196). -/
def opStart (r : Req) (s : State) : State × Ans :=
  let i := r.i
  onInst i s
    (if (s.inst i).state = .halted ∧ (s.inst i).cause = 1 then
      okRes [InstState.ready.code] (emitInst i false (freshHarts i (s.setInst i Inst.started)))
     else refuse (.state 33) s)

/-- START. -/
def execStart (r : Req) (s : State) : Host.Outcome State Fault Refusal :=
  .next (serve r 0x0204 .no true (fun r s => opStart r s) s)

/-! ### Shares and settings -/

/-- Shares with those of a mask replaced (R191). -/
def Shares.masked (old new : Shares) (m : BitVec 10) : Shares :=
  let v := fun (k : Nat) => if m.getLsbD k then new.list.getD k 0 else old.list.getD k 0
  { slots := v 0, ls := v 1, dram := v 2, ctx := v 3, subs := v 4, egress := v 5, rx := v 6, keys := v 7, mir := v 8, locks := v 9 }

/-- What a share change takes from pool k (R191, R192): granules for the growth of a window, above what is mapped; for the rest, what
lies above both the old share and the use. -/
def shareNeed (i : Nat) (new : Shares) (s : State) (k : Nat) : Nat :=
  let o := (s.inst i).share.list.getD k 0
  let n := new.list.getD k 0
  let u := (s.useList i).getD k 0
  if k = 1 ∨ k = 2 then min (n - o) (n - u) else n - max o u

/-- The first pool that cannot give its difference (R19, R191). -/
def shareShort (i : Nat) (new : Shares) (s : State) : Option (Nat × Nat) :=
  (List.range 10).findSome? fun k => if k ≠ 6 ∧ poolFree k s < shareNeed i new s k then some (k, poolFree k s) else none

/-- The receive window that runs keeps the rate it began with (R190, R192). -/
def Inst.latchRx (d : Inst) (w : Nat) : Inst := { d with rxLimit := d.rxLimitNow w, rxUsed := d.rxUsedNow w, rxWindow := w }

/-- Shares written and the growth of the windows mapped (R191, R192). -/
def setShares (i : Nat) (new : Shares) (s : State) : State :=
  let ls := lsPick (shareNeed i new s 1) s
  let dram := dramPick (shareNeed i new s 2) s
  let s := dramOwn dram (i + 1) (lsOwn ls (i + 1) s)
  refreshOver i (s.setInst i fun d => { d.latchRx (rxWindowNow s) with share := new, lsMap := d.lsMap ++ ls, dramMap := d.dramMap ++ dram })

/-- SET_SHARES (R191, R192). -/
def opSetShares (r : Req) (mask : BitVec 10) (share : Shares) (s : State) : State × Ans :=
  let i := r.i
  let new := (s.inst i).share.masked share mask
  onInst i s
    (if !new.inRange then refuse (.badParam 1) s
     else match shareShort i new s with
      | some (k, free) => refuse (.noResource k free) s
      | none => let s := configChanged (setShares i new s); okRes [(s.inst i).overBits.toNat] s)

/-- SET_SHARES. -/
def execSetShares (r : Req) (mask : BitVec 10) (share : Shares) (s : State) : Host.Outcome State Fault Refusal :=
  .next (serve r 0x0205 .no true (fun r s => opSetShares r mask share s) s)

/-- The instance descriptor as 1,024 bits (R206). -/
def descriptor (i : Nat) (s : State) : Nat :=
  let d := s.inst i
  let x := d.share
  pack ([(d.state.code, 1021), (d.gen, 1005), (d.cause, 1001), (d.overBits.toNat, 992), (d.mac.toNat, 944)]
    ++ x.list.zip [937, 927, 916, 907, 900, 889, 876, 871, 864, 859]
    ++ [(s.useSlots i, 761), (d.lsMap.length, 751), (d.dramMap.length, 740), (s.useCtx i, 731), (s.useSubs i, 724), (d.useEgress, 713),
        (s.useKeys i, 708), (d.useMir, 701), (s.useLocks i, 696), (d.spoofDrops, 608), (d.lateDiscards, 576), (d.rxDrops, 544),
        (d.noCredit, 512), (d.resets, 496), (b2n d.autoReset, 495), (quarEndMs d, 448)])

/-- READ_DESC (R206). -/
def opReadDesc (r : Req) (s : State) : State × Ans := okRes [descriptor r.i s] s

/-- READ_DESC. -/
def execReadDesc (r : Req) (s : State) : Host.Outcome State Fault Refusal :=
  .next (serve r 0x0206 .own true (fun r s => opReadDesc r s) s)

/-- SET_ALLOWANCE (R188). -/
def opSetAllowance (r : Req) (idx : Nat) (entry : Allow) (s : State) : State × Ans :=
  onInst r.i s
    (if 8 ≤ idx then refuse (.badParam 0) s
     else if entry.bad then refuse (.badParam 1) s
     else okRes [] (configChanged (s.setInst r.i fun d => { d with allow := d.allow.set idx entry })))

/-- SET_ALLOWANCE. -/
def execSetAllowance (r : Req) (idx : Nat) (entry : Allow) (s : State) : Host.Outcome State Fault Refusal :=
  .next (serve r 0x0207 .no true (fun r s => opSetAllowance r idx entry s) s)

/-- SET_AUTO_RESET (R185). -/
def opSetAutoReset (r : Req) (value : Nat) (s : State) : State × Ans :=
  onInst r.i s
    (if 1 < value then refuse (.badParam 0) s
     else okRes [] (configChanged (s.setInst r.i fun d => { d with autoReset := value == 1 })))

/-- SET_AUTO_RESET. -/
def execSetAutoReset (r : Req) (value : Nat) (s : State) : Host.Outcome State Fault Refusal :=
  .next (serve r 0x0208 .no true (fun r s => opSetAutoReset r value s) s)

/-- SET_HOLDOFF (R197, R198): a value below the floor is raised to it. -/
def opSetHoldoff (_r : Req) (value : Nat) (s : State) : State × Ans :=
  if value < 100 ∨ 3600000 < value then refuse (.badParam 0) s
  else
    let v := max value ((holdFloor s + 999999) / 1000000)
    okRes [v] (configChanged (s.modInsts fun n => { n with holdoffMs := v }))

/-- SET_HOLDOFF. -/
def execSetHoldoff (r : Req) (value : Nat) (s : State) : Host.Outcome State Fault Refusal :=
  .next (serve r 0x0209 .no false (fun r s => opSetHoldoff r value s) s)

/-- The frame start at which an instance's image is replaced comes: its cluster's frames run (R485). -/
def frameComes (i : Nat) (s : State) : Bool := match instCluster i s with | some k => (s.psc k).running | none => false

/-- REPLACE_IMAGE (R485): verified at acceptance; an instance without a running cluster is halted at once. -/
def opReplaceImage (r : Req) (image : Image) (s : State) : State × Ans :=
  let i := r.i
  let d := s.inst i
  onInst i s
    (if s.longBusy liveChangeOps then refuse (.state 5) s
     else if !d.exists_ then refuse (.state 30) s
     else if !d.inLs 0 image.octets.length ∨ meetsRegistered i 0 image.octets.length true s then refuse (.badParam 0) s
     else if !image.crcOk then refuse (.badParam 1) s
     else if !imageVerified image s then refuse (.badParam 2) (imageCount false s)
     else
      let now := !frameComes i s
      let x : Replace := { inst := i, handle := s.handle, image := image.octets, wasOn := d.state == .ready || d.state == .running, halted := now }
      let t := (startLong r 0x020A i (imageCount true s)).modPersist fun p => { p with replacing := p.replacing ++ [x] }
      (if now then halt i 1 t else t, { status := .accepted s.handle }))

/-- REPLACE_IMAGE. -/
def execReplaceImage (r : Req) (image : Image) (s : State) : Host.Outcome State Fault Refusal :=
  .next (serve r 0x020A .no true (fun r s => opReplaceImage r image s) s)

/-! ### Partition tables -/

/-- A cluster's tables are changing (R215). -/
def Psc.tableBusy (p : Psc) : Bool := p.commitPend || p.copyBusy

/-- PT_WRITE (R215). -/
def opPtWrite (_r : Req) (cluster entry : Nat) (slot : SlotEntry) (s : State) : State × Ans :=
  if 8 ≤ cluster then refuse (.badParam 0) s
  else if 128 ≤ entry then refuse (.badParam 1) s
  else if (s.psc cluster).tableBusy then refuse .busy s
  else okRes [] (configChanged (s.setPsc cluster fun p => p.withShadow (p.shadow.set entry slot)))

/-- PT_WRITE. -/
def execPtWrite (r : Req) (cluster entry : Nat) (slot : SlotEntry) (s : State) : Host.Outcome State Fault Refusal :=
  .next (serve r 0x0210 .no false (fun r s => opPtWrite r cluster entry slot s) s)

/-- The table that a cluster has after a commit of the clusters in a mask. -/
def tableAfter (mask : BitVec 8) (s : State) (k : Nat) : Tbl SlotEntry :=
  if mask.getLsbD k ∨ (s.psc k).commitPend then (s.psc k).shadow else (s.psc k).active

/-- Entries in use of a table. -/
def usedEntries (t : Tbl SlotEntry) : List (Nat × SlotEntry) := t.filter fun e => e.2.valid && decide (e.1 < 128)

/-- Two entries select disjoint frames (R216 check 2). -/
def SlotEntry.disjointFrames (x y : SlotEntry) : Bool := x.divPhase % 2 ^ min x.div y.div != y.divPhase % 2 ^ min x.div y.div

/-- The footprints of two entries are disjoint (R216). -/
def SlotEntry.disjointFeet (x y : SlotEntry) : Bool := decide (x.footEnd ≤ quarters y.offset) || decide (y.footEnd ≤ quarters x.offset)

/-- Two entries clash (R216 checks 2 and 3). -/
def SlotEntry.clash (x y : SlotEntry) : Bool := !x.disjointFrames y && !x.disjointFeet y

/-- The fields of an entry are allowed (R216 check 6). -/
def SlotEntry.fieldsOk (x : SlotEntry) : Bool :=
  decide (x.divPhase < 2 ^ x.div) && decide (4 ≤ x.budget) && decide (x.budget ≤ 4000)
    && (if x.trig then decide (x.offset < x.latest) && decide (8 ≤ x.trigSel) && decide (x.trigSel ≤ 31) else x.latest == 0)

/-- Entries of an instance over all clusters. -/
def entriesOf (i : Nat) (tables : List (Tbl SlotEntry)) : Nat :=
  (tables.map fun t => ((usedEntries t).filter fun e => e.2.inst == i).length).sum

/-- Check 5 of R216 for an instance with `n` entries after the commit: within its share, or, over-share, gaining none (R192). -/
def slotsAdmitted (i n : Nat) (s : State) : Bool :=
  let d := s.inst i
  d.exists_ && (decide (n ≤ d.share.slots) || (decide (d.share.slots < s.useSlots i) && decide (n ≤ s.useSlots i)))

/-- The first check of R216 that entry e of cluster k fails, against the entries before it. -/
def entryFails (tables : List (Tbl SlotEntry)) (k period : Nat) (e : Nat × SlotEntry) (s : State) : Option Nat :=
  let before := (usedEntries (tables.getD k [])).filter fun y => decide (y.1 < e.1)
  let x := e.2
  if 99 * period < 100 * x.footEnd then some 1
  else if before.any fun y => y.1 / 16 == e.1 / 16 && x.clash y.2 then some 2
  else if before.any fun y => y.2.inst == x.inst && y.2.hart == x.hart && x.clash y.2 then some 3
  else if (List.range 8).any fun j => j != k && (usedEntries (tables.getD j [])).any fun y => y.2.inst == x.inst then some 4
  else if !slotsAdmitted x.inst (entriesOf x.inst tables) s then some 5
  else if !x.fieldsOk then some 6 else none

/-- The instance may send control frames: its allowance list permits GOOSE, and only GOOSE frames may carry CTRL (R186, R239). -/
def sendsControl (i : Nat) (s : State) : Bool := (s.inst i).allow.any fun a => a.valid && a.etype == gooseType

/-- The floor of the comparison window in ns (R261): the longest period, the longest budget of an instance that sends control frames, and
60 us. -/
def windowFloor (tables : List (Tbl SlotEntry)) (periods : List Nat) (s : State) : Nat :=
  let bs := tables.flatMap fun t => (usedEntries t).filterMap fun e => if sendsControl e.2.inst s then some (quarters e.2.budget) else none
  periods.foldl max 0 + bs.foldl max 0 + us 60

/-- The floor with the tables and periods in force or waiting. -/
def windowFloorNow (s : State) : Nat :=
  windowFloor ((List.range 8).map (tableAfter 0 s))
    ((List.range 8).map fun k => if (s.psc k).commitPend then periodNs (s.psc k).commitPer else (s.psc k).per) s

/-- The checks of R216 on a commit: the failing check and the entry, numbered through the clusters (128 a cluster); the checks 7 and 8 are on no
single entry. -/
def tableCheck (mask : BitVec 8) (periods : List Nat) (s : State) : Option (Nat × Nat) :=
  let tables := (List.range 8).map (tableAfter mask s)
  let per := (List.range 8).map fun k =>
    periodNs (if mask.getLsbD k then periods.getD k 0 else if (s.psc k).commitPend then (s.psc k).commitPer else (s.psc k).periodAct)
  let named := (List.range 8).filter fun k => mask.getLsbD k
  match named.findSome? fun k => (usedEntries (tables.getD k [])).findSome? fun e =>
      (entryFails tables k (per.getD k 0) e s).map fun c => (c, 128 * k + e.1) with
  | some r => some r
  | none =>
    if 1024 < (tables.map fun t => (usedEntries t).length).sum then some (7, 0)
    else if us s.ocu.windowUs < windowFloor tables per s then some (8, 0) else none

/-- A PERIOD that a request brings for a cluster: 0xFF keeps it (R460). -/
def periodFor (periods : List Nat) (s : State) (k : Nat) : Nat :=
  let v := periods.getD k 0xFF
  if v = 0xFF then (s.psc k).period else v

/-- A PHASE that a request brings: 0xFFFF keeps it (R460). -/
def phaseFor (phases : List Nat) (s : State) (k : Nat) : Nat :=
  let v := phases.getD k 0xFFFF
  if v = 0xFFFF then (s.psc k).phase else v

/-- PT_COMMIT (R216, R217, R460). -/
def opPtCommit (r : Req) (mask : BitVec 8) (periods phases : List Nat) (s : State) : State × Ans :=
  let named := (List.range 8).filter fun k => mask.getLsbD k
  let per := (List.range 8).map (periodFor periods s)
  let pha := (List.range 8).map (phaseFor phases s)
  if named = [] then refuse (.badParam 0) s
  else if named.any fun k => decide (3 < per.getD k 0) then refuse (.badParam 1) s
  else if named.any fun k => decide (periodNs (per.getD k 0) ≤ quarters (pha.getD k 0)) then refuse (.badParam 2) s
  else if named.any fun k => (s.psc k).tableBusy || (per.getD k 0 != (s.psc k).periodAct && !(s.psc k).aligned) then refuse .busy s
  else match tableCheck mask per s with
    | some (c, e) => refuse (.tableCheck c e) s
    | none =>
      let h := s.handle
      (configChanged (named.foldl (fun s k =>
        pscCommit k (some h) (s.setPsc k fun p => { p with period := per.getD k 0, phase := pha.getD k 0 })) (startLong r 0x0211 mask.toNat s)),
       { status := .accepted h })

/-- PT_COMMIT. -/
def execPtCommit (r : Req) (mask : BitVec 8) (periods phases : List Nat) (s : State) : Host.Outcome State Fault Refusal :=
  .next (serve r 0x0211 .no false (fun r s => opPtCommit r mask periods phases s) s)

/-- PT_READ (R215, R231). -/
def opPtRead (_r : Req) (cluster bank : Nat) (s : State) : State × Ans :=
  if 8 ≤ cluster then refuse (.badParam 0) s
  else if 1 < bank then refuse (.badParam 1) s
  else
    let p := s.psc cluster
    let t := if bank = 0 then p.bank0 else p.bank1
    okRes (((List.range 128).map fun e => (t.get e {}).pack) ++ [pscCtl cluster s, pscStat cluster s]) s

/-- PT_READ. -/
def execPtRead (r : Req) (cluster bank : Nat) (s : State) : Host.Outcome State Fault Refusal :=
  .next (serve r 0x0212 .no false (fun r s => opPtRead r cluster bank s) s)

/-- A cluster's slot status words after a read (R232). -/
def Psc.statusRead (p : Psc) : Psc := { p with status := p.status.map fun e => (e.1, e.2.readOut) }

/-- SLOT_STATUS (R232): RC fields clear. -/
def opSlotStatus (_r : Req) (cluster : Nat) (s : State) : State × Ans :=
  if 8 ≤ cluster then refuse (.badParam 0) s
  else okRes ((List.range 128).map fun e => ((s.psc cluster).status.get e {}).pack) (s.setPsc cluster Psc.statusRead)

/-- SLOT_STATUS. -/
def execSlotStatus (r : Req) (cluster : Nat) (s : State) : Host.Outcome State Fault Refusal :=
  .next (serve r 0x0213 .no false (fun r s => opSlotStatus r cluster s) s)

/-! ### Locks -/

/-- Another lock of the owner has the index (R205). -/
def indexTaken (lock owner index : Nat) (s : State) : Bool :=
  s.insts.locks.any fun p => p.1 ≠ lock && p.2.en && p.2.owner == owner && p.2.index == index

/-- LOCK_ASSIGN (R192, R205). -/
def opLockAssign (_r : Req) (lock owner index : Nat) (mgpOk : Bool) (s : State) : State × Ans :=
  let l := s.lock lock
  if 256 ≤ lock then refuse (.badParam 0) s
  else if 512 ≤ owner then refuse (.badParam 1) s
  else if 16 ≤ index ∨ indexTaken lock owner index s then refuse (.badParam 2) s
  else if l.held then refuse (.state 34) s
  else if !(l.en && l.owner == owner) && !admits (s.useLocks owner) 1 (s.inst owner).share.locks then
    refuse (.noResource 9 ((s.inst owner).share.locks - s.useLocks owner)) s
  else okRes [] (configChanged (writeAssign lock true mgpOk owner index s))

/-- LOCK_ASSIGN. -/
def execLockAssign (r : Req) (lock owner index : Nat) (mgpOk : Bool) (s : State) : Host.Outcome State Fault Refusal :=
  .next (serve r 0x0214 .no false (fun r s => opLockAssign r lock owner index mgpOk s) s)

/-- LOCK_UNASSIGN (R205). -/
def opLockUnassign (_r : Req) (lock : Nat) (s : State) : State × Ans :=
  let l := s.lock lock
  if 256 ≤ lock then refuse (.badParam 0) s
  else if l.held then refuse (.state 34) s
  else okRes [] (configChanged (writeAssign lock false l.mgpOk l.owner l.index s))

/-- LOCK_UNASSIGN. -/
def execLockUnassign (r : Req) (lock : Nat) (s : State) : Host.Outcome State Fault Refusal :=
  .next (serve r 0x0215 .no false (fun r s => opLockUnassign r lock s) s)

/-- LOCK_READ (R205). -/
def opLockRead (_r : Req) (lock : Nat) (s : State) : State × Ans :=
  if 256 ≤ lock then refuse (.badParam 0) s else okRes [lckAssign lock s, lckState lock s] s

/-- LOCK_READ. -/
def execLockRead (r : Req) (lock : Nat) (s : State) : Host.Outcome State Fault Refusal :=
  .next (serve r 0x0216 .no false (fun r s => opLockRead r lock s) s)

/-! ### Rings in the local store -/

/-- A ring size: a power of two in a range (R88, R236). -/
def pow2In (lo n hi : Nat) : Bool := decide (lo ≤ n) && decide (n ≤ hi) && n == 2 ^ Nat.log2 n

/-- EGQ_REGISTER (R236). -/
def opEgqRegister (r : Req) (queue addr size : Nat) (s : State) : State × Ans :=
  let i := r.i
  let key := 2 * i + queue
  onInst i s
    (if 2 ≤ queue then refuse (.badParam 0) s
     else if !pow2In 16 size 1024 then refuse (.badParam 2) s
     else if addr % 64 ≠ 0 ∨ !ringFree i addr (32 * size) (s.modEg fun e => { e with queues := e.queues.del key }) then refuse (.badParam 1) s
     else okRes [] (s.modEg fun e => { e with queues := e.queues.set key { addr := addr, size := size } }))

/-- EGQ_REGISTER. -/
def execEgqRegister (r : Req) (queue addr size : Nat) (s : State) : Host.Outcome State Fault Refusal :=
  .next (serve r 0x0218 .own true (fun r s => opEgqRegister r queue addr size s) s)

/-- A buffer size of a receive ring (R88). -/
def bufLenOk (n : Nat) : Bool := n % 64 == 0 && decide (64 ≤ n) && decide (n ≤ 16384)

/-- RXRING_REGISTER (R88). -/
def opRxringRegister (r : Req) (addr size bufLen : Nat) (s : State) : State × Ans :=
  let i := r.i
  onInst i s
    (if !pow2In 16 size 4096 then refuse (.badParam 1) s
     else if !bufLenOk bufLen then refuse (.badParam 2) s
     else if !ringFree i addr (16 * size) (s.setInst i fun d => { d with rxRing := none }) then refuse (.badParam 0) s
     else okRes [] ((s.setInst i fun d => { d with rxRing := some { base := addr, size := size, bufLen := bufLen } }).modMbx fun m => { m with
        rxReads := ((m.rxReads.del (3 * i)).del (3 * i + 1)) }))

/-- RXRING_REGISTER. -/
def execRxringRegister (r : Req) (addr size bufLen : Nat) (s : State) : Host.Outcome State Fault Refusal :=
  .next (serve r 0x0219 .own true (fun r s => opRxringRegister r addr size bufLen s) s)

/-- The counts that RXRING_STATS reports, as they stand (R90, R190). -/
def rxCounts (i : Nat) (s : State) : List Nat :=
  let d := s.inst i
  let c := (d.rxRing.map fun x => (x.trunc, x.dropNoDesc)).getD (0, 0)
  [c.1, c.2, d.rxDrops]

/-- RXRING_STATS (R90, R460): since the last such request. -/
def opRxringStats (r : Req) (s : State) : State × Ans :=
  let c := rxCounts r.i s
  okRes (c.zipIdx.map fun p => p.1 - s.mbx.rxReads.get (3 * r.i + p.2) 0)
    (s.modMbx fun m => { m with rxReads := c.zipIdx.foldl (fun t p => t.set (3 * r.i + p.2) p.1) m.rxReads })

/-- RXRING_STATS. -/
def execRxringStats (r : Req) (s : State) : Host.Outcome State Fault Refusal :=
  .next (serve r 0x021A .own true (fun r s => opRxringStats r s) s)

end Sys2Proof.Machine
end

