-- ==== Sys2Proof/Machine/OpsSwitch.lean ====
section
/-!
DEFINITION. Machine/OpsSwitch.lean: the streams and switch family of the mailbox (R461), and the counters of a page with their
snapshots (R91, R92).
-/
namespace Sys2Proof.Machine
open Sys2Proof

/-! ### Counters (R91, R92) -/

/-- The block and unit of a page of counters. -/
def CntPage.place : CntPage → BlockId × Nat
  | .port k => (.prt, k) | .switch => (.swc, 0) | .sce => (.sce, 0) | .psc k => (.psc, k) | .pmc => (.pmc, 0) | .tbu => (.tbu, 0)
  | .acq => (.acq, 0) | .bki => (.bki, 0) | .evr => (.evr, 0) | .ksu => (.ksu, 0) | .cgu => (.cgu, 0) | .ocu => (.ocu, 0)
  | .mlk => (.mlk, 0)

/-- The page exists: ports and clusters are numbered 0 to 7. -/
def CntPage.exists_ : CntPage → Bool
  | .port k => decide (k < 8) | .psc k => decide (k < 8) | _ => true

/-- Counters of a page (R92, R139, R173, R233, R234, R277, R308, R334, R364, R403, R427). -/
def CntPage.count : CntPage → Nat
  | .port _ => 47 | .switch => 44 | .sce => 16 | .psc _ => 7 | .pmc => 24 | .tbu => 18 | .acq => 15 | .bki => 14 | .evr => 10 | .ksu => 14
  | .cgu => 10 | .ocu => 10 | .mlk => 9

/-- The live counters of a page. -/
def CntPage.live (p : CntPage) (s : State) : Tbl Nat :=
  match p with
  | .port k => (s.port k).live | .switch => s.sw.live | .sce => s.sce.live | .psc k => (s.psc k).live | .pmc => s.sched.pmcLive
  | .tbu => s.time.live | .acq => s.acq.live | .bki => s.bki.live | .evr => s.evr.live | .ksu => s.ksu.live | .cgu => s.cgu.live
  | .ocu => s.ocu.live | .mlk => s.mlk.live

/-- The snapshot bank of a page takes its live counters, which are cleared (R91). -/
def CntPage.snap (p : CntPage) (s : State) : State :=
  match p with
  | .port k => s.setPort k fun x => { x with snap := x.live, live := [] }
  | .switch => s.modSw fun x => { x with snap := x.live, live := [] }
  | .sce => s.modSce fun x => { x with snap := x.live, live := [] }
  | .psc k => s.setPsc k fun x => { x with snap := x.live, live := [] }
  | .pmc => s.modSched fun x => { x with pmcSnap := x.pmcLive, pmcLive := [] }
  | .tbu => s.modTime fun x => { x with snap := x.live, live := [] }
  | .acq => s.modAcq fun x => { x with snap := x.live, live := [] }
  | .bki => s.modBki fun x => { x with snap := x.live, live := [] }
  | .evr => s.modEvr fun x => { x with snap := x.live, live := [] }
  | .ksu => s.modKsu fun x => { x with snap := x.live, live := [] }
  | .cgu => s.modCgu fun x => { x with snap := x.live, live := [] }
  | .ocu => s.modOcu fun x => { x with snap := x.live, live := [] }
  | .mlk => s.modMlk fun x => { x with snap := x.live, live := [] }

/-- Where a reader's running total of a counter stands (R92). -/
def totalKey (reader : Nat) (p : CntPage) (k : Nat) : Nat := (reader * 2048 + setKey p.place.1 p.place.2) * 128 + k

/-- A snapshot (R91, R92): the bank is written, the live counters are cleared, and each reader's total takes the values. Quanta honoured so far of
a pause in progress are in it, and status words missed so far. SNAP_BUSY stays 1 for less than 1 us; how long is open (log entry 146). -/
def snapshot (p : CntPage) (s : State) : State :=
  let s := match p with | .port k => countPause k s | .mlk => countMissed s | _ => s
  let live := p.live s
  ((p.snap s).modMbx fun m => { m with
    snapEnds := m.snapEnds.set (setKey p.place.1 p.place.2) (s.now + s.free1 % 1000),
    statReaders := (List.range 4).foldl (fun t r => live.foldl (fun t c =>
      let k := totalKey r p c.1
      t.set k (satAdd 64 (t.get k 0) c.2)) t) m.statReaders }).took

/-- A reader's totals of a page. -/
def readTotals (p : CntPage) (reader : Nat) (s : State) : List Nat :=
  (List.range p.count).map fun k => s.mbx.statReaders.get (totalKey reader p k) 0

/-- RX_TRUNC and RX_DROP_NODESC of the host rings, which STATS reports with the switch (R90). -/
def hostRingCounts (s : State) : List Nat :=
  (List.range 16).flatMap fun j => let x := s.mbx.hostRings.get j {}; [x.trunc, x.dropNoDesc + s.mbx.hostNoRing.get j 0]

/-- What a reader has not yet been given of the host rings' counts; only the switch's page carries them. -/
def ringTotals (p : CntPage) (reader : Nat) (s : State) : List Nat :=
  if p = .switch then (hostRingCounts s).zipIdx.map fun c => c.1 - s.mbx.statReaders.get (totalKey reader p (64 + c.2)) 0 else []

/-- A reader has been given the totals of a page. -/
def totalsGiven (p : CntPage) (reader : Nat) (s : State) : State :=
  s.modMbx fun m => { m with
    statReaders :=
      let t := (List.range p.count).foldl (fun t k => t.del (totalKey reader p k)) m.statReaders
      if p = .switch then (hostRingCounts s).zipIdx.foldl (fun t c => t.set (totalKey reader p (64 + c.2)) c.1) t else t }

/-- STATS (R92): a snapshot, and what the reader has not yet been given. -/
def opStats (_r : Req) (page : CntPage) (reader : Nat) (s : State) : State × Ans :=
  if !page.exists_ then refuse (.badParam 0) s
  else if 4 ≤ reader then refuse (.badParam 1) s
  else
    let s := snapshot page s
    okRes (readTotals page reader s ++ ringTotals page reader s) (totalsGiven page reader s)

/-- STATS. -/
def execStats (r : Req) (page : CntPage) (reader : Nat) (s : State) : Host.Outcome State Fault Refusal :=
  .next (serve r 0x0306 .no false (fun r s => opStats r page reader s) s)

/-! ### The shadow batch (R123) -/

/-- Fields of a stream entry that its own entry would not take (R112). -/
def StreamEntry.bad (e : StreamEntry) : Bool := decide (4095 < e.subRef) || decide (3 < e.mirSession) || decide (255 < e.idleLimit)

/-- Fields of a forwarding entry that it would not take (R117). -/
def FwdEntry.bad (e : FwdEntry) : Bool := decide (3 < e.targetType) || (e.targetType == 2 && decide (15 < e.target)) || decide (511 < e.target)

/-- A named slot can take a key (R111): it lies in one of the key's buckets, and the key will stand in no other slot. -/
def slotFits (stream : Bool) (i : Nat) (key : BitVec 128) (s : State) : Bool :=
  (if stream then streamSlots key s else fwdSlots key s).contains i && match keySlot stream key (planned s) with
    | some j => j == i
    | none => true

/-- A slot that will be DRAINING or in QUARANTINE takes nothing (R125). -/
def slotHeld (i : Nat) (s : State) : Bool :=
  let s := planned s
  let st := if isStreamIdx i then (s.stream i).state else (s.fwdE i).state
  st == .draining || st == .quarantine

/-- Changes join the batch. -/
def batched (cs : List StbChange) (s : State) : State := s.modSw fun w => { w with batch := w.batch ++ cs }

/-- An entry written at a named index or placed by key (R111, R123). -/
def putAtOrPlace (stream : Bool) (key : BitVec 128) (c : StbChange) (idx : Option Nat) (n : Nat) (s : State) : Status ⊕ (Nat × State) :=
  match idx with
  | some i =>
    if !slotFits stream i key s then .inl (.badParam 0)
    else if slotHeld i s then .inl .busy
    else .inr (i, batched [{ c with idx := i }] s)
  | none => match place stream key s with
    | some p => .inr (p.1, batched (putChanges c p) s)
    | none => .inl (.admission 1 n)

/-- One change of STB_PUT (R123, R461), the n-th of its list. -/
def putItem (x : StbPutItem) (n : Nat) (s : State) : Status ⊕ (Nat × State) :=
  match x.op with
  | .putStream =>
    if x.stream.bad then .inl (.badParam 0)
    else putAtOrPlace true x.stream.key { op := .putStream, stream := { x.stream with learned := false } } x.idx n s
  | .putFwd => if x.fwd.bad then .inl (.badParam 0) else putAtOrPlace false x.fwd.key { op := .putFwd, fwd := x.fwd } x.idx n s
  | .putBitmap =>
    match x.idx with
    | some i => if 1 ≤ i ∧ i ≤ 4095 then .inr (i, batched [{ idx := i, op := .putBitmap, bitmap := x.bitmap }] s) else .inl (.badParam 0)
    | none => .inl (.badParam 0)
  | .remove =>
    match x.idx with
    | some i => if isStreamIdx i || isFwdIdx i then .inr (i, batched [{ idx := i, op := .remove }] s) else .inl (.badParam 0)
    | none => .inl (.badParam 0)
  | .move => .inl (.badParam 0)
  | .putMir => .inl (.badParam 0)

/-- The changes of a request, all or none. -/
def putItems : List StbPutItem → Nat → List Nat → State → Status ⊕ (List Nat × State)
  | [], _, is, s => .inr (is, s)
  | x :: xs, n, is, s => match putItem x n s with
    | .inl st => .inl st
    | .inr (i, s) => putItems xs (n + 1) (is ++ [i]) s

/-- Changes of a batch, as the host listed them (R123): the moves that placement adds do not count (log entry 147). -/
def batchSize (s : State) : Nat := (s.sw.batch.filter fun c => c.op != .move).length

/-- STB_PUT (R123); not while an import writes the shadow (R489). -/
def opStbPut (_r : Req) (changes : List StbPutItem) (s : State) : State × Ans :=
  if 256 < changes.length then refuse (.badParam 0) s
  else if s.persist.importOp.isSome then refuse .busy s
  else match putItems changes 0 [] s with
    | .inl st => refuse st s
    | .inr (is, t) => if 256 < batchSize t then refuse .busy s else okRes is t

/-- STB_PUT. -/
def execStbPut (r : Req) (changes : List StbPutItem) (s : State) : Host.Outcome State Fault Refusal :=
  .next (serve r 0x0300 .no false (fun r s => opStbPut r changes s) s)

/-- The first change that the admission of R122 refuses, or whose AGE_CODE refuses the commit (R114); changes are numbered as the host listed
them, moves apart. -/
def admitAll : List StbChange → Nat → State → Option Status
  | [], _, _ => none
  | c :: cs, n, s =>
    let t := afterChange c s
    let next := if c.op = .move then n else n + 1
    if c.op = .putStream then
      if 14 ≤ c.stream.ageCode then some (.badParam 0)
      else match entryAdmit c.stream t.sw.streams t.sw.bitmaps t with
        | some k => some (.admission k n)
        | none => admitAll cs next t
    else admitAll cs next t

/-- An instance whose subscriptions would grow beyond its share (R178, R192). -/
def subsShort (t s : State) : Option (Nat × Nat) :=
  s.live.findSome? fun p =>
    if s.useSubs p.1 < t.useSubs p.1 ∧ p.2.share.subs < t.useSubs p.1 then some (4, p.2.share.subs - s.useSubs p.1) else none

/-- STB_COMMIT (R122, R123): a batch refused is discarded whole. -/
def opStbCommit (r : Req) (s : State) : State × Ans :=
  if s.sw.applyOp.isSome ∨ s.persist.importOp.isSome then refuse .busy s
  else
    let base := committed s
    let empty := s.modSw fun w => { w with batch := [] }
    match admitAll s.sw.batch 0 base with
    | some st => refuse st empty
    | none =>
      match subsShort (s.sw.batch.foldl (fun s c => afterChange c s) base) s with
      | some (k, free) => refuse (.noResource k free) empty
      | none =>
        (configChanged (commitDone ((startLong r 0x0301 0 empty).modSw fun w => { w with
          applying := w.applying ++ s.sw.batch, applyOp := some s.handle })), { status := .accepted s.handle })

/-- STB_COMMIT. -/
def execStbCommit (r : Req) (s : State) : Host.Outcome State Fault Refusal :=
  .next (serve r 0x0301 .no false (fun r s => opStbCommit r s) s)

/-- STB_READ (R112, R116, R117). -/
def opStbRead (_r : Req) (bitmap : Bool) (idx : Nat) (s : State) : State × Ans :=
  if bitmap then (if 1 ≤ idx ∧ idx ≤ 4095 then okRes [(s.sw.bitmaps.get idx {}).pack] s else refuse (.badParam 0) s)
  else if isStreamIdx idx then okRes [(s.stream idx).pack] s
  else if isFwdIdx idx then okRes [(s.fwdE idx).pack] s
  else refuse (.badParam 0) s

/-- STB_READ. -/
def execStbRead (r : Req) (bitmap : Bool) (idx : Nat) (s : State) : Host.Outcome State Fault Refusal :=
  .next (serve r 0x0302 .no false (fun r s => opStbRead r bitmap idx s) s)

/-! ### Learning (R121, R122) -/

/-- LEARN_POLICY (R122). -/
def opLearnPolicy (_r : Req) (port kind : Nat) (ports : BitVec 8) (s : State) : State × Ans :=
  if 8 ≤ port then refuse (.badParam 0) s
  else if 2 < kind then refuse (.badParam 1) s
  else okRes [] (configChanged (s.modSw fun w => { w with policy := w.policy.set port { kind := kind, ports := ports } }))

/-- LEARN_POLICY. -/
def execLearnPolicy (r : Req) (port kind : Nat) (ports : BitVec 8) (s : State) : Host.Outcome State Fault Refusal :=
  .next (serve r 0x0303 .no false (fun r s => opLearnPolicy r port kind ports s) s)

/-- The record of a learn event still open (R121). -/
def learnRec (id : Nat) (s : State) : Option LearnRec := s.sw.learn.find? fun x => x.id == id && x.eventAt.isSome

/-- LEARN_ANSWER (R121, R122): the stream of the record, at the rate it was measured at. An admission refused by a check leaves the record open
for another answer (log entry 148). -/
def opLearnAnswer (_r : Req) (id : Nat) (accept : Bool) (entry : StreamEntry) (s : State) : State × Ans :=
  match learnRec id s with
  | none => refuse (.badParam 0) s
  | some x =>
    if !accept then okRes [] (learnClose x.key s)
    else if entry.bad ∨ 14 ≤ entry.ageCode then refuse (.badParam 2) s
    else match admitLearned { entry with key := x.key, rate := learnedRate x } s with
      | .inl c => refuse (.admission c 0) s
      | .inr (i, s) => okRes [i] (configChanged s)

/-- LEARN_ANSWER. -/
def execLearnAnswer (r : Req) (id : Nat) (accept : Bool) (entry : StreamEntry) (s : State) : Host.Outcome State Fault Refusal :=
  .next (serve r 0x0304 .no false (fun r s => opLearnAnswer r id accept entry s) s)

/-- LEARN_READ (R121, R451): the counts as they stand. -/
def opLearnRead (_r : Req) (id : Nat) (s : State) : State × Ans :=
  match learnRec id s with
  | none => refuse (.badParam 0) s
  | some x => okRes [x.key.toNat, x.ports.toNat, x.stampAt, x.epoch, min x.frames (2 ^ 32 - 1), min x.octets (2 ^ 32 - 1)] s

/-- LEARN_READ. -/
def execLearnRead (r : Req) (id : Nat) (s : State) : Host.Outcome State Fault Refusal :=
  .next (serve r 0x0307 .no false (fun r s => opLearnRead r id s) s)

/-! ### Ports and switch settings -/

/-- PORT_CONFIG (R69, R94, R96). -/
def opPortConfig (_r : Req) (port : Nat) (ctl vlan pcpMap : BitVec 32) (maxFrame : Nat) (s : State) : State × Ans :=
  if 8 ≤ port then refuse (.badParam 0) s
  else if portCtlBad port ctl then refuse (.badParam 1) s
  else if portVlanBad vlan then refuse (.badParam 2) s
  else if maxFrameBad maxFrame then refuse (.badParam 4) s
  else
    let s := configChanged (writeMaxFrame port maxFrame (writePortPcpMap port pcpMap (writePortVlan port vlan (writePortCtl port ctl s))))
    okRes [portCtl port s, portVlan port s, portPcpMap port s, (s.port port).maxFrame] s

/-- PORT_CONFIG. -/
def execPortConfig (r : Req) (port : Nat) (ctl vlan pcpMap : BitVec 32) (maxFrame : Nat) (s : State) : Host.Outcome State Fault Refusal :=
  .next (serve r 0x0305 .no false (fun r s => opPortConfig r port ctl vlan pcpMap maxFrame s) s)

/-- PORT_BYPASS (R105): forced, the coil is released and the ring ports go down; ended, the head may join again under R102. -/
def opPortBypass (_r : Req) (force : Nat) (s : State) : State × Ans :=
  if 1 < force then refuse (.badParam 0) s
  else
    let s := configChanged (coilCheck (s.modHead fun h => { h with forced := force == 1 }))
    okRes [b2n s.head.through, b2n s.head.coil, b2n s.head.forced] s

/-- PORT_BYPASS. -/
def execPortBypass (r : Req) (force : Nat) (s : State) : Host.Outcome State Fault Refusal :=
  .next (serve r 0x0308 .no false (fun r s => opPortBypass r force s) s)

/-- The ageing limits of the classes are written before HOLDOFF, whose floor follows them (R125, R138). -/
def writeSwitchCfg (c : SwitchCfg) (s : State) : State :=
  let s := (c.clsAge.zipIdx).foldl (fun s p => writeClsAge p.2 p.1 s) (writeSwcCtl c.ctl s)
  let s := writeFwdIdle c.fwdIdleS (writeHoldoff c.holdoffMs s)
  (c.portFwd.zipIdx).foldl (fun s p => writePortFwd p.2 p.1 s) s

/-- SWITCH_CONFIG (R138). -/
def opSwitchConfig (_r : Req) (c : SwitchCfg) (s : State) : State × Ans :=
  if 3600000 < c.holdoffMs then refuse (.badParam 1) s
  else if !within 10 c.fwdIdleS 6500 then refuse (.badParam 2) s
  else if c.clsAge.length ≠ 8 ∨ c.clsAge.any (fun n => !within 10 n 100000) then refuse (.badParam 3) s
  else if c.portFwd.length ≠ 8 then refuse (.badParam 4) s
  else
    let s := configChanged (writeSwitchCfg c s)
    okRes ([swcCtl s, s.sw.holdoffMs, s.sw.fwdIdleS] ++ s.sw.clsAge ++ (List.range 8).map fun k => portFwd k s) s

/-- SWITCH_CONFIG. -/
def execSwitchConfig (r : Req) (c : SwitchCfg) (s : State) : Host.Outcome State Fault Refusal :=
  .next (serve r 0x0309 .no false (fun r s => opSwitchConfig r c s) s)

/-- MIRROR_SESSION (R138). -/
def opMirrorSession (_r : Req) (n : Nat) (ctl : BitVec 32) (s : State) : State × Ans :=
  if 4 ≤ n then refuse (.badParam 0) s
  else if mirCtlBad ctl s then refuse (.badParam 1) s
  else okRes [] (configChanged (writeMirCtl n ctl s))

/-- MIRROR_SESSION. -/
def execMirrorSession (r : Req) (n : Nat) (ctl : BitVec 32) (s : State) : Host.Outcome State Fault Refusal :=
  .next (serve r 0x030A .no false (fun r s => opMirrorSession r n ctl s) s)

/-- HOST_RXRING (R88). -/
def opHostRxring (_r : Req) (ring addr size bufLen : Nat) (s : State) : State × Ans :=
  if 16 ≤ ring then refuse (.badParam 0) s
  else if !pow2In 16 size 4096 then refuse (.badParam 2) s
  else if !bufLenOk bufLen then refuse (.badParam 3) s
  else okRes [] (s.modMbx fun m => { m with
    hostRings := m.hostRings.set ring { base := addr, size := size, bufLen := bufLen },
    statReaders := (List.range 4).foldl (fun t r =>
      (t.del (totalKey r .switch (64 + 2 * ring))).del (totalKey r .switch (65 + 2 * ring))) m.statReaders })

/-- HOST_RXRING. -/
def execHostRxring (r : Req) (ring addr size bufLen : Nat) (s : State) : Host.Outcome State Fault Refusal :=
  .next (serve r 0x030B .no false (fun r s => opHostRxring r ring addr size bufLen s) s)

end Sys2Proof.Machine
end

