-- ==== Sys2Proof/Machine/OpsCond.lean ====
section
/-!
DEFINITION. Machine/OpsCond.lean: the conditioning family of the mailbox (R462).
-/
namespace Sys2Proof.Machine
open Sys2Proof

/-! ### Subscribers -/

/-- A subscriber entry may name an instance in a generation (R166, R437). -/
def subNames (inst gen : Nat) (s : State) : Option Status :=
  if 512 ≤ inst then some (.badParam 2)
  else if (s.inst inst).state = .free ∨ (s.inst inst).state = .quarantine then some (.noInstance (s.holdLeft inst))
  else if (s.inst inst).gen ≠ gen then some .staleGen else none

/-- A ring's slots hold the sets of a group (R161). -/
def ringHolds (q : SampleRing) (nch : Nat) : Bool := decide (1 + (nch + 1) / 2 ≤ q.words)

/-- A subscription to a registered ring whose slots are too short is refused (R161). -/
def ringRefused (inst ring nch : Nat) (s : State) : Bool := match s.ring inst ring with | some q => !ringHolds q nch | none => false

/-- The entry for a subscriber: valid once the ring it names is registered, and waiting for it until then (R161, R193). -/
def subEntry (inst gen ring nch : Nat) (s : State) : Subscr :=
  let v := match s.ring inst ring with | some q => ringHolds q nch | none => false
  { valid := v, inst := inst, gen := gen, ring := ring, wait := !v }

/-- A kind of which a change would take an instance further above its share (R192): its code in R178 and what is left. -/
def kindShort (kind : Nat) (use : State → Nat → Nat) (share : Shares → Nat) (t s : State) : Option (Nat × Nat) :=
  s.live.findSome? fun p =>
    if use s p.1 < use t p.1 ∧ share p.2.share < use t p.1 then some (kind, share p.2.share - use s p.1) else none

/-- The data rate of a source in bit/s, times 12 (R326): of a group at the preset in force or the one that is pending, whichever gives more. -/
def srcRate12 (y : AcqSrc) (s : State) : Nat :=
  if y.raw then 12 * rateIn y.rate * y.nch * 64
  else
    let g := s.group y.ref
    let d := if g.pend then min (presetD g.preset) (presetD g.pendPreset) else presetD g.preset
    12 / d * rateIn g.rate * g.nch * 64

/-- The sources of a stream exceed its STREAM_RATE, with 10 % for headers (R326). -/
def AcqStream.tooFast (x : AcqStream) (s : State) : Bool :=
  decide (12 * 10 * x.rateMbit * 1000000 < 11 * (x.used.map fun y => srcRate12 y s).sum)

/-- Why stream `n` is not enabled, or not changed, with the settings `x` (R326): check 2 its sources' rate, check 3 the load of its port. -/
def streamAdmit (n : Nat) (x : AcqStream) (s : State) : Option Nat :=
  if x.tooFast s then some 2
  else if portLimit x.port s < portLoad true x.port s.sw.streams + acqLoad n x.port s + 10 * x.rateMbit then some 3
  else none

/-- A change of groups takes the sources of a running stream over its STREAM_RATE (R326). -/
def streamsShort (t s : State) : Bool := t.acq.streams.any fun p => p.2.en && p.2.tooFast t && !p.2.tooFast s

/-- What the change of a group is refused for beside its fields: contexts and subscriptions beyond a share (R192), R168, and the
rate of a running stream (R326). -/
def groupAdmit (t s : State) : Option Status :=
  match kindShort 3 State.useCtx Shares.ctx t s with
  | some (k, n) => some (.noResource k n)
  | none => match kindShort 4 State.useSubs Shares.subs t s with
    | some (k, n) => some (.noResource k n)
    | none => match sceAdmit t with
      | some c => some (.admission c 0)
      | none => if streamsShort t s then some (.admission 2 0) else none

/-! ### Groups -/

/-- k of R146: 2 pi f_c / f_in in Q0.32, for a corner code and a rate code. -/
def dcFactor (corner rate : Nat) : Nat :=
  if corner = 0 then 0
  else
    let (num, den) := [(0, 1), (1, 20), (1, 10), (1, 2), (1, 1)].getD corner (0, 1)
    roundDiv (2 * 314159265358979323846 * num * 2 ^ 32) (100000000000000000000 * den * rateIn rate)

/-- Fields of a group descriptor that would be left unchanged (R141, R144, R149, R151, R169), under the preset in force. -/
def Group.bad (d : Group) (preset : Nat) : Bool :=
  decide (0x4000 ≤ d.entry) || decide (5 < d.rate) || !within 1000 d.smpWrap 65536 || decide (15 < d.gapFill) || !within 1 d.gapTime 1000
    || !within 1 d.nasdu 16 || decide (4 < d.pendPreset) || decide (16 < d.nch) || (d.en && d.nch == 0) || decide (4096 < d.firstCtx + d.nch)
    || decide (presetD preset ≤ d.decPhase) || decide (d.subs.length ≠ 8)
    || d.subs.any fun x => decide (3 < x.ring) || decide (512 ≤ x.inst) || decide (65536 ≤ x.gen)

/-- Fields of a threshold that would be left unchanged (R157). -/
def Thr.bad (t : Thr) : Bool := !within 1 t.minDur 255 || decide (3 < t.mode) || decide (3 < t.dest)

/-- Fields of a context record that would be left unchanged (R170), or a HIST_CLASS below a preset (R155). -/
def Ctx.refused (c : Ctx) (presets : List Nat) : Bool :=
  decide (63 < c.chanPos) || decide (4 < c.corner) || decide (3 < c.freezeAuto) || decide (4 < c.histClass) || c.t0.bad || c.t1.bad
    || presets.any fun p => decide (presetTaps c.histClass < presetTaps p)

/-- A threshold written (R158): MODE 0 makes it inactive at once; ACTIVE and RUN are kept otherwise. -/
def Thr.write (t n : Thr) : Thr :=
  { t with level := n.level, hyst := n.hyst, mode := n.mode, minDur := n.minDur, dest := n.dest, active := t.active && n.mode != 0,
           run := if n.mode = 0 then 0 else t.run }

/-- A context record written (R146, R170): DC_K follows corner and rate, and the history has the length of HIST_CLASS, a longer one with
restart positions at its far end; HIST_BASE, which the MGP allocates, is open where that length changes. -/
def Ctx.write (c n : Ctx) (rate base : Nat) : Ctx :=
  { c with chanPos := n.chanPos, corner := n.corner, freeze := n.freeze, freezeAuto := n.freezeAuto, histClass := n.histClass,
           t0 := c.t0.write n.t0, t1 := c.t1.write n.t1, dcK := dcFactor n.corner rate,
           histBase := if n.histClass = c.histClass ∧ c.hist ≠ [] then c.histBase else base % 393216,
           track := if c.hist.length < presetTaps n.histClass then trackRefill c.track c.hist.length else c.track,
           hist := (c.hist ++ List.replicate (presetTaps n.histClass) 0).take (presetTaps n.histClass) }

/-- A subscriber position written (R169): an entry with VALID 1 is a subscription, one with VALID 0 only stands as written. -/
def Subscr.written (x : Subscr) (nch : Nat) (s : State) : Subscr :=
  if x.valid then subEntry x.inst x.gen x.ring nch s else { x with wait := false }

/-- A group descriptor written (R167, R169); a group starts when EN becomes 1 (R144) and when it is bound to another entry (R145). -/
def Group.write (g d : Group) (s : State) : Group :=
  { g with entry := d.entry, en := d.en, acqEn := d.acqEn, chkConfRev := d.chkConfRev, pendPreset := d.pendPreset, pend := d.pend, rate := d.rate,
           nch := d.nch, firstCtx := d.firstCtx, smpWrap := d.smpWrap, decPhase := d.decPhase, gapFill := d.gapFill, gapTime := d.gapTime,
           nasdu := d.nasdu, confRev := d.confRev,
           subs := d.subs.map fun x => x.written d.nch s,
           state := if d.en && g.en && d.entry == g.entry then g.state else 0 }

/-- The CLEAR event of a threshold whose MODE was set to 0 while it was active (R158): it has no deciding output, so its smpCnt and value are
open. -/
def configClear (g n thr : Nat) (was : Thr) (now : Thr) (s : State) : State :=
  if was.active && now.mode == 0 then
    thrEvent g n thr 2 (s.free1 % 65536) { now with dest := was.dest } (signed 32 (s.took.free1 % 2 ^ 32)) true s.took.took
  else s

/-- One context of a batch (R158, R167, R170). -/
def writeCtx (g n rate : Nat) (c : Ctx) (s : State) : State :=
  let old := s.ctx n
  let s := s.took.setCtx n fun x => x.write c rate s.free1
  configClear g n 1 old.t1 c.t1 (configClear g n 0 old.t0 c.t0 s)

/-- A batch applied to a group and its contexts (R167). -/
def writeGroup (g : Nat) (d : Group) (ctxs : List Ctx) (s : State) : State :=
  (ctxs.zipIdx).foldl (fun s p => writeCtx g (d.firstCtx + p.2) d.rate p.1 s) (s.setGroup g fun x => x.write d s)

/-- GROUP_SET of a descriptor with its contexts (R155, R167 to R170). -/
def groupSet (g : Nat) (desc : Group) (ctxs : List Ctx) (s : State) : State × Ans :=
  let old := s.group g
  let presets := (if desc.en then [old.preset] else []) ++ if desc.pend then [desc.pendPreset] else []
  if desc.bad old.preset then refuse (.badParam 1) s
  else if ctxs.length ≠ desc.nch ∨ ctxs.any (fun c => c.refused presets) then refuse (.badParam 2) s
  else match desc.subs.findSome? fun x => if x.valid then subNames x.inst x.gen s else none with
    | some st => refuse st s
    | none =>
      if desc.subs.any fun x => x.valid && ringRefused x.inst x.ring desc.nch s then refuse (.badParam 1) s
      else
        let t := writeGroup g desc ctxs s
        match groupAdmit t s with
        | some st => refuse st s
        | none => (configChanged (refreshAllOver t), { status := if desc.pend && old.pend then .okReplaced else .ok })

/-- The imported batch of a group (R489). -/
def importBatch (g : Nat) (s : State) : Option GroupBatch := s.sce.batches.find? fun b => b.group == g

/-- An imported batch is used up. -/
def batchUsed (g : Nat) (s : State) : State := s.modSce fun c => { c with batches := c.batches.filter fun b => b.group ≠ g }

/-- GROUP_SET (R462, R489): a request without context records applies the group's imported batch, where one waits. -/
def opGroupSet (_r : Req) (g : Nat) (desc : Group) (ctxs : List Ctx) (s : State) : State × Ans :=
  if 1024 ≤ g then refuse (.badParam 0) s
  else if s.persist.importOp.isSome then refuse .busy s
  else
    let b := match importBatch g s with | some b => if ctxs = [] then some b else none | none => none
    let v := match b with | some b => groupSet g b.desc b.ctxs s | none => groupSet g desc ctxs s
    if v.2.status = .ok ∨ v.2.status = .okReplaced then (batchUsed g v.1, v.2) else v

/-- GROUP_SET. -/
def execGroupSet (r : Req) (g : Nat) (desc : Group) (ctxs : List Ctx) (s : State) : Host.Outcome State Fault Refusal :=
  .next (serve r 0x0400 .no false (fun r s => opGroupSet r g desc ctxs s) s)

/-- GROUP_READ (R169, R170). -/
def opGroupRead (_r : Req) (g : Nat) (s : State) : State × Ans :=
  if 1024 ≤ g then refuse (.badParam 0) s
  else okRes ((s.group g).pack :: (s.group g).ctxNums.map fun n => (s.ctx n).pack) s

/-- GROUP_READ. -/
def execGroupRead (r : Req) (g : Nat) (s : State) : Host.Outcome State Fault Refusal :=
  .next (serve r 0x0401 .no false (fun r s => opGroupRead r g s) s)

/-- PRESET_CHANGE (R155): a second request replaces a pending one. -/
def opPresetChange (_r : Req) (g preset : Nat) (s : State) : State × Ans :=
  let x := s.group g
  if 1024 ≤ g then refuse (.badParam 0) s
  else if 4 < preset ∨ x.ctxNums.any (fun n => decide (presetTaps (s.ctx n).histClass < presetTaps preset)) then
    refuse (.badParam 1) s
  else
    let t := s.setGroup g fun x => { x with pendPreset := preset, pend := true }
    match groupAdmit t s with
    | some st => refuse st s
    | none => (configChanged t, { status := if x.pend then .okReplaced else .ok })

/-- PRESET_CHANGE. -/
def execPresetChange (r : Req) (g preset : Nat) (s : State) : Host.Outcome State Fault Refusal :=
  .next (serve r 0x0402 .no false (fun r s => opPresetChange r g preset s) s)

/-- PRESET_READ (R149, R150): the coefficients as 16-bit words. -/
def opPresetRead (_r : Req) (preset : Nat) (s : State) : State × Ans :=
  if 4 < preset then refuse (.badParam 0) s
  else okRes ([presetTaps preset, presetD preset, presetDelay preset]
    ++ (List.range (presetTaps preset)).map fun k => unsigned 16 (firTap preset k)) s

/-- PRESET_READ. -/
def execPresetRead (r : Req) (preset : Nat) (s : State) : Host.Outcome State Fault Refusal :=
  .next (serve r 0x0403 .yes false (fun r s => opPresetRead r preset s) s)

/-! ### Subscriptions and rings -/

/-- A subscriber position written. -/
def Group.putSub (g : Group) (pos : Nat) (x : Subscr) : Group := { g with subs := g.subs.set pos x }

/-- SUBSCRIBE (R161, R166, R168, R192). -/
def opSubscribe (_r : Req) (g pos : Nat) (sub : Option (Nat × Nat × Nat)) (s : State) : State × Ans :=
  if 1024 ≤ g then refuse (.badParam 0) s
  else if 8 ≤ pos then refuse (.badParam 1) s
  else match sub with
    | none => okRes [] (configChanged (refreshAllOver (s.setGroup g fun x => x.putSub pos {})))
    | some (inst, gen, ring) =>
      match subNames inst gen s with
      | some st => refuse st s
      | none =>
        if 3 < ring ∨ ringRefused inst ring (s.group g).nch s then refuse (.badParam 4) s
        else
          let t := s.setGroup g fun x => x.putSub pos (subEntry inst gen ring x.nch s)
          match groupAdmit t s with
          | some st => refuse st s
          | none => okRes [] (configChanged (refreshAllOver t))

/-- SUBSCRIBE. -/
def execSubscribe (r : Req) (g pos : Nat) (sub : Option (Nat × Nat × Nat)) (s : State) : Host.Outcome State Fault Refusal :=
  .next (serve r 0x0404 .no false (fun r s => opSubscribe r g pos sub s) s)

/-- The subscriber entries of an instance that name a ring become valid when its generation registers it, if its slots hold the group's sets
(R161, R193). -/
def revalidate (i ring : Nat) (s : State) : State :=
  s.modSce fun c => { c with groups := c.groups.map fun p => (p.1, { p.2 with
    subs := p.2.subs.map fun x =>
      if x.names i ∧ x.gen = (s.inst i).gen ∧ x.ring = ring then subEntry i x.gen ring p.2.nch s else x }) }

/-- RING_REGISTER (R161): the control block follows the last slot; entries of the event ring are one word. -/
def opRingRegister (r : Req) (ring addr slots words : Nat) (s : State) : State × Ans :=
  let i := r.i
  let w := if ring = 4 then 1 else words
  onInst i s
    (if 4 < ring then refuse (.badParam 0) s
     else if !pow2In 16 slots 4096 then refuse (.badParam 2) s
     else if ring ≠ 4 ∧ !within 2 words 9 then refuse (.badParam 3) s
     else if !ringFree i addr (16 * w * slots + 16) (s.modSce fun c => { c with rings := c.rings.del (5 * i + ring) }) then refuse (.badParam 1) s
     else
      let s := s.modSce fun c => { c with
        rings := c.rings.set (5 * i + ring) { addr := addr, slots := slots, words := w, ctl := addr + 16 * w * slots } }
      okRes [] (if ring = 4 then s else revalidate i ring s))

/-- RING_REGISTER. -/
def execRingRegister (r : Req) (ring addr slots words : Nat) (s : State) : Host.Outcome State Fault Refusal :=
  .next (serve r 0x0405 .own true (fun r s => opRingRegister r ring addr slots words s) s)

/-- SCE_CTL written (R172). -/
def writeSceCtl (v : BitVec 32) (s : State) : State := s.modSce fun c => { c with en := bitOf v 0 }

/-- SCE_CONFIG (R172). -/
def opSceConfig (_r : Req) (ctl : BitVec 32) (s : State) : State × Ans := okRes [] (configChanged (writeSceCtl ctl s))

/-- SCE_CONFIG. -/
def execSceConfig (r : Req) (ctl : BitVec 32) (s : State) : Host.Outcome State Fault Refusal :=
  .next (serve r 0x0406 .no false (fun r s => opSceConfig r ctl s) s)

end Sys2Proof.Machine
end

