-- ==== Sys2Proof/Machine/OpsTime.lean ====
section
/-!
DEFINITION. Machine/OpsTime.lean: the time family of the mailbox (R463).
-/
namespace Sys2Proof.Machine
open Sys2Proof

/-! ### Domains, reference, step -/

/-- The octets of the IEEE_C37_238 TLV that the Announce followed in a domain carries (R278), as one number. -/
def domainTlv (b : Bool) (s : State) : Nat := leNat (((s.time.dom b).parent.map Announce.tlv).getD [])

/-- The octets of its ALTERNATE_TIME_OFFSET_INDICATOR TLV (R278). -/
def altTlv (b : Bool) (s : State) : Nat := leNat (((s.time.dom b).parent.map Announce.alt).getD [])

/-- TIME_STATUS (R278, R304): TB_STAT, both offsets, SLEW_REM, the grandmasters, the TLV of domain B, and what both domains report of the local
time. -/
def opTimeStatus (_r : Req) (s : State) : State × Ans :=
  let t := s.time
  okRes [tbStat s, ofs64 t.domA.ofs, ofs64 t.domB.ofs, ofs64 t.slewRem, t.domA.gm.getD 0, t.domB.gm.getD 0, domainTlv true s, altTlv false s,
         altTlv true s] s

/-- TIME_STATUS. -/
def execTimeStatus (r : Req) (s : State) : Host.Outcome State Fault Refusal :=
  .next (serve r 0x0500 .yes false (fun r s => opTimeStatus r s) s)

/-- The settings of TIME_CONFIG written; the firmware looks at AUTO_SWITCH and at the candidates again (R289, R294). -/
def writeTimeCfg (c : TimeCfg) (s : State) : State :=
  let s := (writeTbLimits c.limits (writeTbDomain c.domain s)).modTime fun t => { t with autoSwitch := c.autoSwitch }
  let s := (c.ports.zipIdx).foldl (fun s p => writePtpPort p.2 p.1 s) s
  autoSwitch (reselect true (reselect false s))

/-- PTP_PORT4 and PTP_PORT5 of the request would be left unchanged, since P4 and P5 would forward to each other (R285, R458). -/
def portsLoop (c : TimeCfg) (s : State) : Bool :=
  (c.ports.zipIdx.foldl (fun x p => (x.1 || lanLoop p.2 p.1 x.2, writePtpPort p.2 p.1 x.2)) (false, s)).1

/-- TIME_CONFIG (R305, R458). -/
def opTimeConfig (_r : Req) (c : TimeCfg) (s : State) : State × Ans :=
  if tbDomainBad c.domain then refuse (.badParam 0) s
  else if tbLimitsBad c.limits then refuse (.badParam 1) s
  else if c.ports.length ≠ 6 ∨ portsLoop c s then refuse (.badParam 3) s
  else
    let s := configChanged (writeTimeCfg c s)
    okRes ([tbDomain s, tbLimits s, b2n s.time.autoSwitch] ++ (List.range 6).map fun k => ptpPort k s) s

/-- TIME_CONFIG. -/
def execTimeConfig (r : Req) (c : TimeCfg) (s : State) : Host.Outcome State Fault Refusal :=
  .next (serve r 0x0501 .no false (fun r s => opTimeConfig r c s) s)

/-- REF_SWITCH (R293, R294, R477). -/
def opRefSwitch (_r : Req) (dom : Nat) (s : State) : State × Ans :=
  let b := dom == 1
  if 1 < dom then refuse (.badParam 0) s
  else if (s.time.dom b).state ≠ 2 then refuse (.state 80) s
  else if !switchOk b s then refuse (.state 81) s
  else okRes [] (configChanged (writeRef b s))

/-- REF_SWITCH. -/
def execRefSwitch (r : Req) (dom : Nat) (s : State) : Host.Outcome State Fault Refusal :=
  .next (serve r 0x0502 .no false (fun r s => opRefSwitch r dom s) s)

/-- STEP (R295): the TBU does not answer while its clock stands (R21, R449). -/
def opStep (_r : Req) (ns : Int) (s : State) : State × Ans :=
  if s.time.tbStopped then refuse .timeout s
  else let s := doStep ns (s.modTime fun t => { t with step := ns }); okRes [s.time.stepEpoch] s

/-- STEP. -/
def execStepTb (r : Req) (ns : Int) (s : State) : Host.Outcome State Fault Refusal :=
  .next (serve r 0x0503 .no false (fun r s => opStep r ns s) s)

/-! ### Comparators (R297, R298) -/

/-- The instance a request comes from; none for the host or the monitor. -/
def Req.fromInst (r : Req) : Option Nat := match r.src with | .inst i _ => some i | _ => none

/-- The requester may change a comparator: an instance only its own (R456). -/
def cmpOwn (r : Req) (k : Nat) (s : State) : Bool :=
  match r.fromInst with | some i => (s.time.cmp k).alloc && !(s.time.cmp k).byMgp && (s.time.cmp k).owner == i | none => true

/-- A comparator handed out (R297). -/
def allocated (owner : Option Nat) : Comparator := { alloc := true, byMgp := owner.isNone, owner := owner.getD 0 }

/-- TRG_ALLOC (R297): the lowest comparator from 8 on that is free. -/
def opTrgAlloc (r : Req) (owner : Option Nat) (s : State) : State × Ans :=
  if r.fromInst.isSome ∧ owner ≠ r.fromInst then refuse .notPermitted s
  else if owner.any fun i => decide (512 ≤ i) then refuse (.badParam 0) s
  else if owner.any fun i => !((s.inst i).exists_ || (s.inst i).state == .resetting) then
    refuse (.noInstance (s.holdLeft (owner.getD 0))) s
  else match (List.range 24).find? fun k => !(s.time.cmp (k + 8)).alloc with
    | none => refuse (.noResource 11 0) s
    | some k => okRes [k + 8] (configChanged (s.setCmp (k + 8) fun _ => allocated owner))

/-- TRG_ALLOC. -/
def execTrgAlloc (r : Req) (owner : Option Nat) (s : State) : Host.Outcome State Fault Refusal :=
  .next (serve r 0x0504 .own false (fun r s => opTrgAlloc r owner s) s)

/-- A comparator that the time family may name: 8 to 31, allocated. -/
def cmpNamed (k : Nat) (s : State) : Bool := decide (8 ≤ k) && decide (k < 32) && (s.time.cmp k).alloc

/-- A PERIOD that would be left unchanged (R298, R306). -/
def periodBad (period : Nat) (periodic : Bool) : Bool := (period == 0 && periodic) || (decide (1 ≤ period) && decide (period < 1000)) || decide (2 ^ 32 ≤ period)

/-- A comparator programmed (R306). -/
def Comparator.program (c : Comparator) (time period : Nat) (periodic : Bool) (dest : BitVec 4) (en : Bool) : Comparator :=
  { c with time := time % 2 ^ 64, period := period, periodic := periodic, dest := dest, en := en }

/-- TRG_PROGRAM (R298, R299, R463): an instance may set only DEST PSC and ACQ. -/
def opTrgProgram (r : Req) (k time period : Nat) (periodic : Bool) (dest : BitVec 4) (en : Bool) (s : State) : State × Ans :=
  if !cmpOwn r k s then refuse .notPermitted s
  else if !cmpNamed k s then refuse (.badParam 0) s
  else if periodBad period periodic then refuse (.badParam 2) s
  else if r.fromInst.isSome && dest &&& 0b1010 != 0 then refuse (.badParam 4) s
  else okRes [] (configChanged (armCmp k (s.setCmp k fun c => c.program time period periodic dest en)))

/-- TRG_PROGRAM. -/
def execTrgProgram (r : Req) (k time period : Nat) (periodic : Bool) (dest : BitVec 4) (en : Bool) (s : State) : Host.Outcome State Fault Refusal :=
  .next (serve r 0x0505 .own false (fun r s => opTrgProgram r k time period periodic dest en s) s)

/-- TRG_FREE (R297). -/
def opTrgFree (r : Req) (k : Nat) (s : State) : State × Ans :=
  if !cmpOwn r k s then refuse .notPermitted s
  else if !cmpNamed k s then refuse (.badParam 0) s
  else okRes [] (configChanged (s.setCmp k fun _ => {}))

/-- TRG_FREE. -/
def execTrgFree (r : Req) (k : Nat) (s : State) : Host.Outcome State Fault Refusal :=
  .next (serve r 0x0506 .own false (fun r s => opTrgFree r k s) s)

/-! ### Stamp ring and pulse -/

/-- STAMP_RING (R302): the control block follows the last slot. -/
def opStampRing (r : Req) (addr slots : Nat) (s : State) : State × Ans :=
  let i := r.i
  onInst i s
    (if !pow2In 16 slots 1024 then refuse (.badParam 1) s
     else if !ringFree i addr (32 * slots + 16) (s.modTime fun t => { t with stampRings := t.stampRings.del i }) then refuse (.badParam 0) s
     else okRes [] (s.modTime fun t => { t with stampRings := t.stampRings.set i { addr := addr, slots := slots, ctl := addr + 32 * slots } }))

/-- STAMP_RING. -/
def execStampRing (r : Req) (addr slots : Nat) (s : State) : Host.Outcome State Fault Refusal :=
  .next (serve r 0x0507 .own true (fun r s => opStampRing r addr slots s) s)

/-- PPS_CONFIG (R300, R305). -/
def opPpsConfig (_r : Req) (en gate : Bool) (width : Nat) (s : State) : State × Ans :=
  if !within 1 width 500000 then refuse (.badParam 2) s
  else okRes [] (configChanged (writePpsWidth width (s.modTime fun t => { t with ppsEn := en, ppsGate := gate })))

/-- PPS_CONFIG. -/
def execPpsConfig (r : Req) (en gate : Bool) (width : Nat) (s : State) : Host.Outcome State Fault Refusal :=
  .next (serve r 0x0508 .no false (fun r s => opPpsConfig r en gate width s) s)

end Sys2Proof.Machine
end

