-- ==== Sys2Proof/Machine/OpsAcq.lean ====
section
/-!
DEFINITION. Machine/OpsAcq.lean: the acquisition family of the mailbox (R464).
-/
namespace Sys2Proof.Machine
open Sys2Proof

/-! ### Descriptors (R332, R333) -/

/-- A source entry with a field out of its range, in use or not (R332, R333). -/
def AcqSrc.bad (x : AcqSrc) : Bool :=
  (x.recLen != 0 && !within 8 x.recLen 4095)
    || (if x.raw then decide (0x4000 ≤ x.ref) || !within 1 x.nch 16 || decide (63 < x.firstPos) || decide (5 < x.rate) else decide (1024 ≤ x.ref))

/-- A stream descriptor with a field out of its range. -/
def AcqStream.bad (x : AcqStream) (s : State) : Bool :=
  !(x.port == 4 || x.port == 5 || x.port == 7) || !within 1 x.nsrc 16 || !within 1 x.vid 4094 || !within 1 x.ttl 255 || !within 1 x.rateMbit 22500
    || !within 1 x.stageGran 64 || !within 100 x.flushUs 10000 || !within 1 x.freqRecs 8 || decide (x.prePost.length ≠ 4)
    || decide (x.srcs.length ≠ 16) || x.srcs.any AcqSrc.bad || x.srcMac.getLsbD 40 || s.live.any fun p => p.2.mac == x.srcMac

/-- The fields that may be changed while the stream is enabled (R333). -/
def AcqStream.putLive (o n : AcqStream) : AcqStream :=
  { o with causeEn := n.causeEn, prePost := n.prePost, trgComp := n.trgComp, zcHyst := n.zcHyst, freqRecs := n.freqRecs, flushUs := n.flushUs }

/-- The settings of a descriptor but EN written (R332). -/
def AcqStream.put (o n : AcqStream) : AcqStream :=
  { o.putLive n with
    port := n.port, nsrc := n.nsrc, dstMac := n.dstMac, srcMac := n.srcMac, dstIp := n.dstIp, srcIp := n.srcIp, dstPort := n.dstPort,
    srcPort := n.srcPort, vid := n.vid, pcp := n.pcp, dscp := n.dscp, ttl := n.ttl, rateMbit := n.rateMbit, stageGran := n.stageGran, srcs := n.srcs }

/-- Why a descriptor is not taken by stream `n` for R326, with the status that answers it: for a stream that is not enabled the granules too. -/
def streamRefused (n : Nat) (x : AcqStream) (s : State) : Option Status :=
  if !x.en && decide (s.dramFree < x.stageGran) then some (.noResource 2 s.dramFree)
  else (streamAdmit n x s).map fun c => .admission c 0

/-- STREAM_SET (R326, R329, R332, R333). -/
def opStreamSet (_r : Req) (n : Nat) (desc : AcqStream) (s : State) : State × Ans :=
  let o := s.acqS n
  if 4 ≤ n then refuse (.badParam 0) s
  else if desc.bad s then refuse (.badParam 1) s
  else if o.en ∧ o.put desc ≠ o.putLive desc then refuse .busy s
  else match streamRefused n (o.put desc) s with
    | some st => refuse st s
    | none => okRes [] (configChanged (s.setAcqS n fun x => x.put desc))

/-- STREAM_SET. -/
def execStreamSet (r : Req) (n : Nat) (desc : AcqStream) (s : State) : Host.Outcome State Fault Refusal :=
  .next (serve r 0x0600 .no false (fun r s => opStreamSet r n desc s) s)

/-! ### Enable and restart -/

/-- The groups (`raw` false) or entries that the enabled streams name as sources. -/
def namedBy (raw : Bool) (s : State) : List Nat :=
  (s.acq.streams.filter fun p => p.2.en).flatMap fun p => (p.2.used.filter fun y => y.raw == raw).map fun y => y.ref

/-- The change that makes the ACQ bit of the bitmap of entry `k` follow the streams that name the entry (R309), in the tables as the committed
changes leave them; none where it does already. A bitmap that several entries share keeps its bit for any of them; an entry with SUB_REF 0 has no
bitmap (R116). -/
def acqChange (k : Nat) (s : State) : Option StbChange :=
  let t := committed s
  let b := (t.stream k).subRef
  let m := t.sw.bitmaps.get b {}
  let on := (namedBy true s).any fun e => (t.stream e).subRef == b
  if b = 0 ∨ m.acq = on then none else some { idx := b, op := .putBitmap, bitmap := { m with acq := on } }

/-- ACQ_EN of a group, and by a commit (R123, R124) the ACQ bit of an entry's subscriber bitmap, follow the streams that name them (R309); `x` names
those to look at. -/
def acqBits (x : AcqStream) (s : State) : State :=
  let gs := namedBy false s
  x.used.foldl (fun s y =>
    if y.raw then (match acqChange y.ref s with | some c => commitNow [c] s | none => s)
    else s.setGroup y.ref fun g => { g with acqEn := gs.contains y.ref }) s

/-- A write of EN to 0 (R329): capture stops, what is staged is sent, the granules follow once the buffer is empty. -/
def acqDisable (n : Nat) (s : State) : State :=
  let st := s.acqS n
  let s := acqCount 10 (acqClose n s) st.trigs.length
  acqRelease n (s.setAcqS n fun x => { x with en := false, run := false, trigs := [], sst := x.sst.map fun q => (q.1, { q.2 with cur := [] }) })

/-- A stream that may not be enabled whatever else holds (R308): a field out of its range, or no valid source 0. -/
def AcqStream.unready (x : AcqStream) (s : State) : Bool := x.bad s || !(x.src 0).valid

/-- STREAM_EN (R308, R326, R329). -/
def opStreamEn (_r : Req) (n en : Nat) (s : State) : State × Ans :=
  let x := s.acqS n
  if 4 ≤ n then refuse (.badParam 0) s
  else if 1 < en then refuse (.badParam 1) s
  else if x.en = (en == 1) then okRes [] s
  else if en = 0 then okRes [] (configChanged (acqBits x (acqDisable n s)))
  else if x.unready s then refuse (.badParam 0) s
  else if x.granules ≠ [] then refuse .busy s
  else if s.dramFree < x.stageGran then refuse (.noResource 2 s.dramFree) s
  else match streamAdmit n x s with
    | some c => refuse (.admission c 0) s
    | none => okRes [] (configChanged (acqBits x (acqEnable n (acqGranules n s))))

/-- STREAM_EN. -/
def execStreamEn (r : Req) (n en : Nat) (s : State) : Host.Outcome State Fault Refusal :=
  .next (serve r 0x0601 .no false (fun r s => opStreamEn r n en s) s)

/-- A source counts its samples from 0 again, its next record one above the highest number used (R328). -/
def AcqSrcState.again (q : AcqSrcState) : AcqSrcState := { record := if q.base < q.next then (q.record + 1) % 2 ^ 32 else q.record }

/-- Capture restarts (R328). -/
def acqRestart (n : Nat) (s : State) : State :=
  acqCount 14 ((acqPut n (eventItem 5 0 s) s).setAcqS n fun x => { x with
    run := true, stopReason := 0, sst := x.sst.map fun q => (q.1, q.2.again) })

/-- STREAM_RESTART (R328): a running stream is not changed, and one that is not enabled does not capture. -/
def opStreamRestart (_r : Req) (n : Nat) (s : State) : State × Ans :=
  if 4 ≤ n then refuse (.badParam 0) s
  else
    let s := if (s.acqS n).en && !(s.acqS n).run then acqRestart n s else s
    okRes [b2n (s.acqS n).run] s

/-- STREAM_RESTART. -/
def execStreamRestart (r : Req) (n : Nat) (s : State) : Host.Outcome State Fault Refusal :=
  .next (serve r 0x0602 .no false (fun r s => opStreamRestart r n s) s)

/-! ### Triggers and settings -/

/-- TRIGGER (R318): a trigger of the instance cause for every stream of the mask. -/
def opTrigger (r : Req) (mask : BitVec 4) (code : Nat) (s : State) : State × Ans :=
  if 256 ≤ code then refuse (.badParam 1) s
  else
    let t : AcqTrig := { s.trigNow 2 with inst := r.i, gen := r.gen, code := code }
    okRes [] (((List.range 4).filter fun n => mask.getLsbD n).foldl (fun s n => acqTriggerOn t n s) s)

/-- TRIGGER. -/
def execTrigger (r : Req) (mask : BitVec 4) (code : Nat) (s : State) : Host.Outcome State Fault Refusal :=
  .next (serve r 0x0603 .yes true (fun r s => opTrigger r mask code s) s)

/-- ACQ_CONFIG (R331). -/
def opAcqConfig (_r : Req) (ctl : BitVec 32) (s : State) : State × Ans :=
  if acqCtlBad ctl then refuse (.badParam 0) s else okRes [] (configChanged (writeAcqCtl ctl s))

/-- ACQ_CONFIG. -/
def execAcqConfig (r : Req) (ctl : BitVec 32) (s : State) : Host.Outcome State Fault Refusal :=
  .next (serve r 0x0604 .no false (fun r s => opAcqConfig r ctl s) s)

/-- STREAM_READ (R331, R332): STAGE_HWM clears. -/
def opStreamRead (_r : Req) (n : Nat) (s : State) : State × Ans :=
  if 4 ≤ n then refuse (.badParam 0) s
  else okRes [(s.acqS n).pack, acqStat s] (s.setAcqS n fun x => { x with stageHwm := 0 })

/-- STREAM_READ. -/
def execStreamRead (r : Req) (n : Nat) (s : State) : Host.Outcome State Fault Refusal :=
  .next (serve r 0x0605 .no false (fun r s => opStreamRead r n s) s)

end Sys2Proof.Machine
end

