-- ==== Sys2Proof/Machine/OpsPair.lean ====
section
/-!
DEFINITION. Machine/OpsPair.lean: the pair and claim family of the mailbox (R465). While CLM_HOLD is 1 every opcode of the family that
writes is answered LOCKED.
-/
namespace Sys2Proof.Machine
open Sys2Proof

/-! ### Status, claim, settings -/

/-- PAIR_STATUS (R276). -/
def opPairStatus (_r : Req) (s : State) : State × Ans :=
  okRes [cguStat s, s.cgu.lastClaim.toNat, s.ocu.pending.length, mlkStat s, s.mlk.partnerClaim.toNat] s

/-- PAIR_STATUS. -/
def execPairStatus (r : Req) (s : State) : Host.Outcome State Fault Refusal :=
  .next (serve r 0x0700 .no false (fun r s => opPairStatus r s) s)

/-- The partner is TAKING. -/
def partnerTakes (s : State) : Bool := !s.partnerGone && s.mlk.word.role == .taking

/-- A switch-back of the unit is in progress: what would change the roles or the claims waits (R446). -/
def State.switching (s : State) : Bool := s.longBusy [0x0703]

/-- SET_CLAIM (R247, R388, R477). -/
def opSetClaim (_r : Req) (claim : BitVec 32) (s : State) : State × Ans :=
  holdGuard (fun s =>
    if claim = 0 then refuse (.badParam 0) s
    else if s.switching then refuse .busy s
    else if !(s.cgu.role == .out || s.cgu.role == .standby) then refuse (.state 60) s
    else if partnerTakes s then refuse (.state 61) s
    else okRes [] (note .cgu 0 0x304 0 .none (leBytes 4 claim.toNat) (configChanged (writeClaim claim s)))) s

/-- SET_CLAIM. -/
def execSetClaim (r : Req) (claim : BitVec 32) (s : State) : Host.Outcome State Fault Refusal :=
  .next (serve r 0x0701 .no false (fun r s => opSetClaim r claim s) s)

/-- Why PAIR_CONFIG is refused with STATE (R248, R261, R474): the two conditions of setting CLM_EN from 0 to 1, then the window. -/
def pairConfigRefused (cguCtl ocuCtl : BitVec 32) (s : State) : Option Nat :=
  let rise := bitOf cguCtl 0 && !s.cgu.clmEn
  let a := if rise then (if s.cgu.idConflict.isSome then some 14 else claimRefused s) else none
  match a with
  | some n => some n
  | none => if us (bits ocuCtl 13 0) < windowFloorNow s then some 13 else none

/-- The settings of PAIR_CONFIG written. -/
def writePairCfg (cguCtl cguMem ocuCtl mlkCtl : BitVec 32) (s : State) : State :=
  writeCguCtl cguCtl (writeClaimMem cguMem (writeOcuCtl ocuCtl (writeMlkCtl mlkCtl s)))

/-- PAIR_CONFIG (R249, R276, R474). -/
def opPairConfig (_r : Req) (cguC cguMem ocuC mlkC : BitVec 32) (s : State) : State × Ans :=
  holdGuard (fun s =>
    if claimMemBad cguMem then refuse (.badParam 1) s
    else if ocuCtlBad ocuC then refuse (.badParam 2) s
    else if mlkCtlBad mlkC then refuse (.badParam 3) s
    else if s.switching then refuse .busy s
    else match pairConfigRefused cguC ocuC s with
      | some n => refuse (.state n) s
      | none =>
        let s := configChanged (writePairCfg cguC cguMem ocuC mlkC s)
        okRes [cguCtl s, s.cgu.claimMemMs, ocuCtl s, mlkCtl s] s) s

/-- PAIR_CONFIG. -/
def execPairConfig (r : Req) (cguC cguMem ocuC mlkC : BitVec 32) (s : State) : Host.Outcome State Fault Refusal :=
  .next (serve r 0x0702 .no false (fun r s => opPairConfig r cguC cguMem ocuC mlkC s) s)

/-! ### Switch-back (R273, R274) -/

/-- The first failing condition of R274, by its reason. -/
def switchFails (s : State) : Option Nat :=
  if s.partnerGone then some 70
  else if s.unitF || s.mlk.word.f then some 71
  else if s.ocu.takeBlock then some 72
  else if s.ocu.lastReferred.any fun t => decide (s.now < t + sec 1) then some 73
  else if s.mlk.mir.any fun p => p.2.declared != [] && (p.2.needFull || p.2.lastEpoch.isNone) then some 74
  else none

/-- The standby ends a switch-back that it does not make: its OP_DONE, its record, and its reason in the status word (R274). -/
def switchRefused (h n : Nat) (s : State) : State :=
  switchRecord n (opDone h (.state n) [] (s.modMlk fun m => { m with swReason := some n }))

/-- The standby takes over for a switch-back; its operation ends with the takeover. A takeover that is not made ends it at once (R247). -/
def switchTakes (h : Nat) (s : State) : State :=
  let s := startTakeover (s.modMlk fun m => { m with swOp := some h, swReason := none })
  if s.cgu.role = .taking then s else endSwitch .aborted s

/-- SWITCH_BACK at the active: the request is held for 10 s. -/
def switchHeld (r : Req) (unit : Nat) (s : State) : State × Ans :=
  if s.mlk.swHeld.isSome then refuse .busy s
  else
    let h := s.handle
    ((startLong r 0x0703 unit s).modMlk fun m => { m with swHeld := some (unit, s.now, h) }, { status := .accepted h })

/-- SWITCH_BACK at the standby. -/
def switchAsked (r : Req) (unit : Nat) (s : State) : State × Ans :=
  if s.mlk.word.swUnit ≠ some s.cgu.unitId ∨ s.mlk.word.unit ≠ unit then refuse (.state 75) s
  else
    let h := s.handle
    let s := startLong r 0x0703 unit s
    ((match switchFails s with | some n => switchRefused h n s | none => switchTakes h s), { status := .accepted h })

/-- SWITCH_BACK. -/
def opSwitchBack (r : Req) (unit : Nat) (s : State) : State × Ans :=
  holdGuard (fun s =>
    if !within 1 unit 15 then refuse (.badParam 0) s
    else match s.cgu.role with
      | .active => switchHeld r unit s
      | .standby => switchAsked r unit s
      | _ => refuse (.state 76) s) s

/-- SWITCH_BACK. -/
def execSwitchBack (r : Req) (unit : Nat) (s : State) : Host.Outcome State Fault Refusal :=
  .next (serve r 0x0703 .no false (fun r s => opSwitchBack r unit s) s)

/-! ### Roles -/

/-- CLEAR_TAKE_BLOCK (R264). -/
def opClearTakeBlock (_r : Req) (s : State) : State × Ans :=
  holdGuard (fun s => okRes [] (s.modOcu fun o => { o with takeBlock := false })) s

/-- CLEAR_TAKE_BLOCK. -/
def execClearTakeBlock (r : Req) (s : State) : Host.Outcome State Fault Refusal :=
  .next (serve r 0x0704 .no false (fun r s => opClearTakeBlock r s) s)

/-- The cause that holds the unit OUT is lifted (R249): with CLM_EN 1 it is STANDBY; with CLM_EN 0, or unit ID 0 (R247), it stays OUT. -/
def returnStandby (s : State) : State :=
  let back := s.cgu.outHard && s.cgu.clmEn && s.cgu.unitId != 0
  let s := s.modCgu fun c => { c with outHard := false }
  if back then setRole .standby s else s

/-- RETURN_STANDBY (R248, R249, R477). -/
def opReturnStandby (_r : Req) (s : State) : State × Ans :=
  holdGuard (fun s =>
    if s.cgu.role ≠ .out then refuse (.state 64) s
    else if s.unitF then refuse (.state 65) s
    else if s.cgu.idConflict.isSome then refuse (.state 14) s
    else
      let s := returnStandby s
      okRes [s.cgu.role.code] s) s

/-- RETURN_STANDBY. -/
def execReturnStandby (r : Req) (s : State) : Host.Outcome State Fault Refusal :=
  .next (serve r 0x0705 .no false (fun r s => opReturnStandby r s) s)

/-- GO_OUT (R249, R477). -/
def opGoOut (_r : Req) (s : State) : State × Ans :=
  holdGuard (fun s =>
    if s.switching then refuse .busy s
    else if s.partnerGone then refuse (.state 62) s
    else if partnerTakes s then refuse (.state 63) s
    else
      let s := becomeOut true s
      okRes [s.cgu.role.code] s) s

/-- GO_OUT. -/
def execGoOut (r : Req) (s : State) : Host.Outcome State Fault Refusal :=
  .next (serve r 0x0706 .no false (fun r s => opGoOut r s) s)

/-- TRIP output `n` given to an instance or to none (R257): what its former instance requested of it ends. -/
def assignTrip (n : Nat) (inst : Option Nat) (s : State) : State :=
  let v := match inst with | some i => i + 1 | none => 0
  s.modCgu fun c => { c with
    tripReq := if c.tripAssign.get n 0 = v then c.tripReq else setBit c.tripReq n false, tripAssign := c.tripAssign.set n v }

/-- TRIP_ASSIGN (R257). -/
def opTripAssign (_r : Req) (output : Nat) (inst : Option Nat) (s : State) : State × Ans :=
  holdGuard (fun s =>
    if 16 ≤ output then refuse (.badParam 0) s
    else if inst.any fun i => decide (512 ≤ i) then refuse (.badParam 1) s
    else if inst.any fun i => !((s.inst i).exists_ || (s.inst i).state == .resetting) then
      refuse (.noInstance (s.holdLeft (inst.getD 0))) s
    else okRes [] (configChanged (assignTrip output inst s))) s

/-- TRIP_ASSIGN. -/
def execTripAssign (r : Req) (output : Nat) (inst : Option Nat) (s : State) : Host.Outcome State Fault Refusal :=
  .next (serve r 0x0707 .no false (fun r s => opTripAssign r output inst s) s)

end Sys2Proof.Machine
end

