-- ==== Sys2Proof/Machine/OpsKeys.lean ====
section
/-!
DEFINITION. Machine/OpsKeys.lean: the keys family of the mailbox (R466), over the slot commands of the KSU.
-/
namespace Sys2Proof.Machine
open Sys2Proof

/-- Who asks for a key (R407, R416): an instance in its generation, or the MGP for everybody else. -/
def Req.who (r : Req) : Master := match r.src with | .inst i g => .inst i g | _ => .mgp

/-- A slot that is not the requester's own (R456). -/
def slotForeign (r : Req) (n : Nat) (s : State) : Bool := !(s.slot n).reachable r.who

/-- The attributes of a request lie in their ranges and agree (R405). -/
def KeyArgs.ok (a : KeyArgs) : Bool := attrOk a.use a.tag

/-- Attributes written beside a value (R426): LOCK and DERIVABLE stay as they are. -/
def attrKept (n : Nat) (a : KeyArgs) (s : State) : State := slotAttr n a (s.slot n).lock (s.slot n).derivable s

/-- The answer to a slot command: KCV, or the command's RESULT (R453, R466). -/
def kcvOr (n : Nat) (a : KeyArgs) (s : State) : State × Ans :=
  if s.ksu.result = 0 then
    let s := attrKept n a s
    okRes [(s.slot n).kcv.toNat] s
  else refuse (.ksuResult s.ksu.result) s

/-- A request may load the slot (R410): a reserved one with its own USE. -/
def loadable (n use : Nat) (s : State) : Bool := !reservedSlot n s && !(n == 3 && use != 4) && !(n == 4 && use != 1)

/-- KEY_LOAD (R404, R410). -/
def opKeyLoad (_r : Req) (slot : Nat) (value : BitVec 256) (a : KeyArgs) (s : State) : State × Ans :=
  if 1024 ≤ slot then refuse (.badParam 0) s
  else if (s.slot slot).lock then refuse .locked s
  else if !loadable slot a.use s then refuse (.badParam 0) s
  else if !a.ok then refuse (.badParam 2) s
  else
    let v := kcvOr slot a (ksuLoad slot value s)
    (lockReserved slot v.1, v.2)

/-- KEY_LOAD. -/
def execKeyLoad (r : Req) (slot : Nat) (value : BitVec 256) (a : KeyArgs) (s : State) : Host.Outcome State Fault Refusal :=
  .next (serve r 0x0800 .no false (fun r s => opKeyLoad r slot value a s) s)

/-- KEY_GENERATE (R404, R410). -/
def opKeyGenerate (_r : Req) (slot : Nat) (a : KeyArgs) (s : State) : State × Ans :=
  if 1024 ≤ slot ∨ slot < 8 then refuse (.badParam 0) s
  else if (s.slot slot).lock then refuse .locked s
  else if !a.ok then refuse (.badParam 1) s
  else kcvOr slot a (ksuGenerate slot s)

/-- KEY_GENERATE. -/
def execKeyGenerate (r : Req) (slot : Nat) (a : KeyArgs) (s : State) : Host.Outcome State Fault Refusal :=
  .next (serve r 0x0801 .no false (fun r s => opKeyGenerate r slot a s) s)

/-- KEY_DERIVE (R412, R415, R416): an instance from a parent it owns into a slot it owns, never from the root. -/
def opKeyDerive (r : Req) (slot : Nat) (parent : Option Nat) (a : KeyArgs) (label context : List Byte) (s : State) : State × Ans :=
  if slotForeign r slot s || (match parent with | some p => slotForeign r p s | none => r.fromInst.isSome) then refuse .notPermitted s
  else if 1024 ≤ slot ∨ slot < 8 then refuse (.badParam 0) s
  else if parent.any fun p => decide (1024 ≤ p) then refuse (.badParam 1) s
  else if !a.ok then refuse (.badParam 2) s
  else kcvOr slot a (ksuDerive r.who slot parent a.use label context s)

/-- KEY_DERIVE. -/
def execKeyDerive (r : Req) (slot : Nat) (parent : Option Nat) (a : KeyArgs) (label context : List Byte) (s : State) :
    Host.Outcome State Fault Refusal :=
  .next (serve r 0x0802 .own false (fun r s => opKeyDerive r slot parent a label context s) s)

/-- Reserved slots that hold what the KSU itself writes, or nothing (R410). -/
def fixedSlot (n : Nat) : Bool := decide (n < 8) && n != 3 && n != 4

/-- KEY_ERASE (R409): a locked slot only for the platform controller. What the KSU itself writes stays (R410; log entry 161). -/
def opKeyErase (r : Req) (slot : Nat) (s : State) : State × Ans :=
  if slotForeign r slot s then refuse .notPermitted s
  else if 1024 ≤ slot ∨ fixedSlot slot then refuse (.badParam 0) s
  else if r.fromInst.isSome ∧ (s.slot slot).lock then refuse .locked s
  else okRes [] (ksuErase r.who slot s)

/-- KEY_ERASE. -/
def execKeyErase (r : Req) (slot : Nat) (s : State) : Host.Outcome State Fault Refusal :=
  .next (serve r 0x0803 .own false (fun r s => opKeyErase r slot s) s)

/-- KEY_ATTR_READ (R405). -/
def opKeyAttrRead (r : Req) (slot : Nat) (s : State) : State × Ans :=
  if slotForeign r slot s then refuse .notPermitted s
  else if 1024 ≤ slot then refuse (.badParam 0) s
  else okRes [(s.slot slot).record.toNat] s

/-- KEY_ATTR_READ. -/
def execKeyAttrRead (r : Req) (slot : Nat) (s : State) : Host.Outcome State Fault Refusal :=
  .next (serve r 0x0804 .own false (fun r s => opKeyAttrRead r slot s) s)

/-- A slot with an owner (R405). -/
def Slot.assigned (k : Slot) (byMgp : Bool) (owner gen now : Nat) : Slot :=
  Slot.touched { k with byMgp := byMgp, owner := owner, ownerGen := gen } now

/-- A slot assigned (R405, R407): it waits to be saved again, and the uses of both owners are counted anew. -/
def assignSlot (n : Nat) (byMgp : Bool) (owner gen : Nat) (s : State) : State :=
  let was := (s.slot n).owner
  let s := s.modKsu fun k => { k with slots := k.slots.mod n {} fun x => x.assigned byMgp owner gen s.now }
  refreshOver owner (refreshOver was s)

/-- KEY_ASSIGN (R407, R409, R410). -/
def opKeyAssign (_r : Req) (slot : Nat) (byMgp : Bool) (owner gen : Nat) (s : State) : State × Ans :=
  let k := s.slot slot
  let d := s.inst owner
  if 1024 ≤ slot ∨ slot < 8 then refuse (.badParam 0) s
  else if k.lock then refuse .locked s
  else if byMgp then okRes [] (assignSlot slot true 0 0 s)
  else if 512 ≤ owner then refuse (.badParam 2) s
  else if d.state == .free || d.state == .quarantine then refuse (.noInstance (s.holdLeft owner)) s
  else if d.gen ≠ gen then refuse .staleGen s
  else if d.state == .resetting then refuse .busy s
  else if !k.ownedBy owner ∧ d.share.keys ≤ s.useKeys owner then refuse (.noResource 7 0) s
  else okRes [] (assignSlot slot false owner gen s)

/-- KEY_ASSIGN. -/
def execKeyAssign (r : Req) (slot : Nat) (byMgp : Bool) (owner gen : Nat) (s : State) : Host.Outcome State Fault Refusal :=
  .next (serve r 0x0805 .no false (fun r s => opKeyAssign r slot byMgp owner gen s) s)

/-- KEY_ATTR_WRITE (R405, R409). -/
def opKeyAttrWrite (_r : Req) (slot : Nat) (a : KeyArgs) (lock derivable : Bool) (s : State) : State × Ans :=
  if 1024 ≤ slot ∨ slot < 8 then refuse (.badParam 0) s
  else if (s.slot slot).lock then refuse .locked s
  else if !a.ok then refuse (.badParam 1) s
  else okRes [] (slotAttr slot a lock derivable s)

/-- KEY_ATTR_WRITE. -/
def execKeyAttrWrite (r : Req) (slot : Nat) (a : KeyArgs) (lock derivable : Bool) (s : State) : Host.Outcome State Fault Refusal :=
  .next (serve r 0x0806 .no false (fun r s => opKeyAttrWrite r slot a lock derivable s) s)

/-- RATE of the other verified streams (R422), each counted once, in 0.1 Mbit/s. -/
def otherVerified (n entry : Nat) (s : State) : Nat :=
  ((((s.ksu.ver.filter fun p => p.1 ≠ n && p.2.valid && p.2.entry ≠ entry).map fun p => p.2.entry).eraseDups).map fun i => (s.stream i).rate).sum

/-- VERIFY_ENTRY (R422): at most 30 Gbit/s of verified streams. -/
def opVerifyEntry (_r : Req) (n : Nat) (e : VerEntry) (s : State) : State × Ans :=
  if 256 ≤ n then refuse (.badParam 0) s
  else if !isStreamIdx e.entry then refuse (.badParam 1) s
  else if 1024 ≤ e.slotA ∨ 1024 ≤ e.slotB then refuse (.badParam 1) s
  else if e.valid ∧ 300000 < otherVerified n e.entry s + (s.stream e.entry).rate then refuse (.admission 0 0) s
  else okRes [] (configChanged (s.modKsu fun k => { k with ver := k.ver.set n e }))

/-- VERIFY_ENTRY. -/
def execVerifyEntry (r : Req) (n : Nat) (e : VerEntry) (s : State) : Host.Outcome State Fault Refusal :=
  .next (serve r 0x0807 .no false (fun r s => opVerifyEntry r n e s) s)

/-- VERIFY_ENABLE (R421). -/
def opVerifyEnable (_r : Req) (en : Nat) (s : State) : State × Ans :=
  if 1 < en then refuse (.badParam 0) s
  else okRes [] (configChanged (s.modKsu fun k => { k with verifyEn := en == 1 }))

/-- VERIFY_ENABLE. -/
def execVerifyEnable (r : Req) (en : Nat) (s : State) : Host.Outcome State Fault Refusal :=
  .next (serve r 0x0808 .no false (fun r s => opVerifyEnable r en s) s)

end Sys2Proof.Machine
end

