-- ==== Sys2Proof/Machine/OpsFaults.lean ====
section
/-!
DEFINITION. Machine/OpsFaults.lean: the faults and recorder family of the mailbox (R467).
-/
namespace Sys2Proof.Machine
open Sys2Proof

/-! ### Fault sets -/

/-- The FE registers as they are read under R378. -/
def FaultSet.feRegs (x : FaultSet) : List Nat := [0x10, 0x14, 0x18, 0x1C, 0x20, 0x24, 0x28, 0x2C, 0x30, 0x34].map x.reg

/-- FAULT_READ (R378, R383). -/
def opFaultRead (_r : Req) (block : BlockId) (unit : Nat) (s : State) : State × Ans :=
  if !isSet block unit then refuse (.badParam 1) s
  else
    let s := readFeCode block unit s
    let x := s.fset block unit
    okRes ([x.reg 0x00] ++ x.feRegs ++ [x.reg 0x44, x.reg 0x4C]) s

/-- FAULT_READ. -/
def execFaultRead (r : Req) (block : BlockId) (unit : Nat) (s : State) : Host.Outcome State Fault Refusal :=
  .next (serve r 0x0900 .no false (fun r s => opFaultRead r block unit s) s)

/-- The counts of a set that each reader is given as differences (R383). -/
def FaultSet.counts (x : FaultSet) : List Nat := [x.cntC, x.cntK, x.cntF, x.late]

/-- Where a reader's last values of a set's counts stand. -/
def countKey (reader : Nat) (p : BlockId × Nat) (k : Nat) : Nat := (reader * 2048 + setKey p.1 p.2) * 4 + k

/-- The counts of every set with the place of a reader's last value of each. -/
def allCounts (reader : Nat) (s : State) : List (Nat × Nat) :=
  allSets.flatMap fun p => (s.fset p.1 p.2).counts.zipIdx.map fun c => (countKey reader p c.2, c.1)

/-- FAULT_COUNTS (R383). -/
def opFaultCounts (_r : Req) (reader : Nat) (s : State) : State × Ans :=
  if 4 ≤ reader then refuse (.badParam 0) s
  else
    let cs := allCounts reader s
    okRes (cs.map fun c => c.2 - s.faults.readers.get c.1 0)
      (s.modFaults fun f => { f with readers := cs.foldl (fun t c => t.set c.1 c.2) f.readers })

/-- FAULT_COUNTS. -/
def execFaultCounts (r : Req) (reader : Nat) (s : State) : Host.Outcome State Fault Refusal :=
  .next (serve r 0x0901 .no false (fun r s => opFaultCounts r reader s) s)

/-- Why an injection is refused with STATE (R380, R490). -/
def injectRefused (b : BlockId) (kind : Nat) (force : Bool) (s : State) : Option Nat :=
  if s.season.season = .spring ∨ s.season.season = .winter then some 51
  else if injClass b kind s = 3 ∧ s.cgu.role.protecting ∧ !force then some 50
  else none

/-- An injection that R379 turns away: no effect, and the result gives FLT_INJ as it stands. -/
def injRefuse (st : Status) (b : BlockId) (u : Nat) (s : State) : State × Ans := (s, { status := st, result := [(s.fset b u).injReg] })

/-- INJECT (R379, R380). -/
def opInject (_r : Req) (block : BlockId) (unit : Nat) (arm : Bool) (kind : Nat) (mode : Bool) (pos : Nat) (pattern : BitVec 8)
    (force : Bool) (s : State) : State × Ans :=
  let go := fun (s : State) =>
    let s := writeInj block unit arm mode kind pos pattern s
    okRes [(s.fset block unit).injReg] s
  if !isSet block unit then refuse (.badParam 1) s
  else if !arm ∧ (s.season.season = .spring ∨ s.season.season = .winter) then refuse (.state 51) s
  else if !arm then go s
  else if !injectable kind mode then injRefuse (.badParam 3) block unit s
  else if 17 < pos then injRefuse (.badParam 5) block unit s
  else if pattern = 0 then injRefuse (.badParam 6) block unit s
  else if (s.fset block unit).injArm then injRefuse .busy block unit s
  else match injectRefused block kind force s with
    | some n => refuse (.state n) s
    | none => go s

/-- INJECT. -/
def execInject (r : Req) (block : BlockId) (unit : Nat) (arm : Bool) (kind : Nat) (mode : Bool) (pos : Nat) (pattern : BitVec 8) (force : Bool)
    (s : State) : Host.Outcome State Fault Refusal :=
  .next (serve r 0x0902 .no false (fun r s => opInject r block unit arm kind mode pos pattern force s) s)

/-- CAPTURE (R376, R377, R490): the mode, then REARM, which is ignored in LATCH. -/
def opCapture (_r : Req) (block : BlockId) (unit : Nat) (latch re : Bool) (s : State) : State × Ans :=
  if !isSet block unit then refuse (.badParam 1) s
  else
    let s := s.setCapture block unit latch
    let s := if re then rearm block unit s else s
    okRes [(s.fset block unit).stat] s

/-- CAPTURE. -/
def execCapture (r : Req) (block : BlockId) (unit : Nat) (latch re : Bool) (s : State) : Host.Outcome State Fault Refusal :=
  .next (serve r 0x0903 .no false (fun r s => opCapture r block unit latch re s) s)

/-- SET_QUIET (R372, R383). -/
def opSetQuiet (_r : Req) (block : BlockId) (unit n : Nat) (s : State) : State × Ans :=
  if !isSet block unit then refuse (.badParam 1) s
  else if !within 100 n 3600000 then refuse (.badParam 2) s
  else okRes [] (configChanged (writeQuiet block unit n s))

/-- SET_QUIET. -/
def execSetQuiet (r : Req) (block : BlockId) (unit ms : Nat) (s : State) : Host.Outcome State Fault Refusal :=
  .next (serve r 0x0904 .no false (fun r s => opSetQuiet r block unit ms s) s)

/-! ### The recorder -/

/-- BUCKET_SET (R402). -/
def opBucketSet (_r : Req) (code mode burst intervalUs : Nat) (s : State) : State × Ans :=
  if code < 16 ∨ 1024 ≤ code then refuse (.badParam 0) s
  else if 2 < mode then refuse (.badParam 1) s
  else if !within 1 burst 1023 then refuse (.badParam 2) s
  else if !within 10 intervalUs 1000000 then refuse (.badParam 3) s
  else okRes [] (configChanged (writeBucket code mode burst intervalUs s))

/-- BUCKET_SET. -/
def execBucketSet (r : Req) (code mode burst intervalUs : Nat) (s : State) : Host.Outcome State Fault Refusal :=
  .next (serve r 0x0905 .no false (fun r s => opBucketSet r code mode burst intervalUs s) s)

/-- Cursor 2 handed out, at the oldest record, or returned (R393). -/
def takeCursor2 (on : Bool) (s : State) : State :=
  s.modEvr fun e => { e with cur2Alloc := on, cursors := if on then e.cursors.set 2 { seq := e.oldest } else e.cursors }

/-- CURSOR2 (R393, R467). -/
def opCursor2 (_r : Req) (alloc : Nat) (s : State) : State × Ans :=
  if 1 < alloc then refuse (.badParam 0) s
  else if alloc = 1 ∧ s.evr.cur2Alloc then refuse .busy s
  else okRes [] (takeCursor2 (alloc == 1) s)

/-- CURSOR2. -/
def execCursor2 (r : Req) (alloc : Nat) (s : State) : Host.Outcome State Fault Refusal :=
  .next (serve r 0x0906 .no false (fun r s => opCursor2 r alloc s) s)

/-- CODE_CATALOGUE (R387): each code of the range with its name and layout. -/
def opCodeCatalogue (_r : Req) (first count : Nat) (s : State) : State × Ans :=
  if 1024 ≤ first then refuse (.badParam 0) s
  else if 1024 < first + count then refuse (.badParam 1) s
  else okRes ((List.range count).flatMap fun k => (first + k) :: Config.codeName (first + k)) s

/-- CODE_CATALOGUE. -/
def execCodeCatalogue (r : Req) (first count : Nat) (s : State) : Host.Outcome State Fault Refusal :=
  .next (serve r 0x0907 .yes false (fun r s => opCodeCatalogue r first count s) s)

/-- The records an instance has written in the last second (R387). -/
def recentRecs (i : Nat) (s : State) : List Nat := (s.mbx.recTimes.get i []).filter fun t => decide (s.now < t + sec 1)

/-- A record of a requester posted (R387, R467). -/
def postOwn (who : Master) (code : Nat) (detail : List Byte) (s : State) : State :=
  let s := match who with
    | .inst i _ => s.modMbx fun m => { m with recTimes := m.recTimes.set i (recentRecs i s ++ [s.now]) }
    | _ => s
  note .mgp 0 code 0 who detail s

/-- The writer has taken every posted occurrence (R391): the queues empty within microseconds. -/
def writerDrains : Nat → State → State
  | 0, s => s
  | n + 1, s => writerDrains n (writerStep s)

/-- A record of a requester is posted and written; with it, its SEQ, and 0, which is no SEQ (R384), where its bucket or a frozen ring keeps it out. -/
def writeOwn (who : Master) (code : Nat) (detail : List Byte) (s : State) : Nat × State :=
  let s := writerDrains s.evr.posts.length s
  let t := writerStep (postOwn who code detail s)
  (match t.evr.ring with | r :: _ => if t.evr.next ≠ s.evr.next ∧ r.code = code then r.seq else 0 | [] => 0, t)

/-- WRITE_RECORD (R387, R467): from one instance at most 10 per second. -/
def opWriteRecord (r : Req) (code : Nat) (detail : List Byte) (s : State) : State × Ans :=
  if code < 0x3E0 ∨ 0x400 ≤ code then refuse (.badParam 0) s
  else if detail.length ≠ 28 then refuse (.badParam 1) s
  else if r.fromInst.any fun i => decide (10 ≤ (recentRecs i s).length) then refuse .busy s
  else
    let x := writeOwn r.who code detail s
    okRes [x.1] x.2

/-- WRITE_RECORD. -/
def execWriteRecord (r : Req) (code : Nat) (detail : List Byte) (s : State) : Host.Outcome State Fault Refusal :=
  .next (serve r 0x0908 .yes false (fun r s => opWriteRecord r code detail s) s)

/-- EVR_CONFIG (R401). -/
def opEvrConfig (_r : Req) (limitEn saveEn : Bool) (s : State) : State × Ans :=
  okRes [] (configChanged (writeEvrCtl limitEn saveEn s))

/-- EVR_CONFIG. -/
def execEvrConfig (r : Req) (limitEn saveEn : Bool) (s : State) : Host.Outcome State Fault Refusal :=
  .next (serve r 0x0909 .no false (fun r s => opEvrConfig r limitEn saveEn s) s)

end Sys2Proof.Machine
end

