-- ==== Sys2Proof/Machine/OpsUpdate.lean ====
section
/-!
DEFINITION. Machine/OpsUpdate.lean: the update and calibration family of the mailbox (R468).
-/
namespace Sys2Proof.Machine
open Sys2Proof

/-! ### Images (R423, R481) -/

/-- The image verifies for its target (R423): a Dzix image under slots 0x000 to 0x002, a Backstop image under the island's antifuse copy of
them, an instance image as at CREATE. -/
def stageVerified (target : Nat) (x : Image) (s : State) : Bool :=
  x.crcOk && (if target ≤ 1 then
      x.sigOk && (List.range 3).any fun n =>
        let k := s.slot n
        k.valid && !k.unusable && k.use == 4 && s.slotValue n == x.keyHash
    else if target = 2 then backstopVerified x s
    else imageVerified x s)

/-- IMAGE_STAGE (R481): what the bank held before is written over. -/
def opImageStage (r : Req) (target : Nat) (image : Image) (s : State) : State × Ans :=
  if 3 < target then refuse (.badParam 0) s
  else if target ≤ 1 ∧ (target == 1) = s.mbx.fwBank then refuse (.state 20) s
  else if s.longBusy liveChangeOps then refuse (.state 5) s
  else
    ((startLong r 0x0A00 target s).modPersist fun p => { p with
      staging := some s.handle, stagingTo := target, stagingImage := image, stagingOk := stageVerified target image s,
      staged := if target ≤ 1 then p.staged.set target false else p.staged },
     { status := .accepted s.handle })

/-- IMAGE_STAGE. -/
def execImageStage (r : Req) (target : Nat) (image : Image) (s : State) : Host.Outcome State Fault Refusal :=
  .next (serve r 0x0A00 .no false (fun r s => opImageStage r target image s) s)

/-- Why BANK_ACTIVATE is refused (R477, R481). -/
def activateRefused (bank : Nat) (s : State) : Option Nat :=
  if (bank == 1) = s.mbx.fwBank ∨ !s.persist.staged.getD bank false then some 20
  else if s.bki.clmHold ∨ s.season.changing.isSome ∨ s.cgu.role = .taking ∨ partnerTakes s then some 21
  else if s.persist.bkiImg.getD bank {} ≠ s.bki.image ∧ (s.bki.btDriven ≠ 0 ∨ s.bki.elems.any fun e => e.2.start) then some 22
  else if s.longBusy liveChangeOps then some 5
  else none

/-- BANK_ACTIVATE (R481, R482). -/
def opBankActivate (r : Req) (bank : Nat) (s : State) : State × Ans :=
  if 1 < bank then refuse (.badParam 0) s
  else match activateRefused bank s with
    | some n => refuse (.state n) s
    | none =>
      let t := told s ((startLong r 0x0A01 bank s).modMbx fun m => { m with bankSwitch := true })
      (t.modPersist fun p => { p with switchOp := some s.handle, switchTo := bank == 1, handoverAt := none, hsReplaced := [] },
       { status := .accepted s.handle })

/-- BANK_ACTIVATE. -/
def execBankActivate (r : Req) (bank : Nat) (s : State) : Host.Outcome State Fault Refusal :=
  .next (serve r 0x0A01 .no false (fun r s => opBankActivate r bank s) s)

/-! ### The Backstop (R343, R348, R363) -/

/-- The island takes no settings (R348). -/
def islandOut (s : State) : Bool := s.bki.coresHeld || s.bki.noImage

/-- BKI_WRITE (R343, R348, R363); BUSY while an import writes the shadow bank (R489) or the island copies the active bank over it. -/
def opBkiWrite (_r : Req) (ctl : BitVec 32) (slots : List (Nat × ElemSlot)) (s : State) : State × Ans :=
  if bkiCtlBad ctl then refuse (.badParam 0) s
  else if 16 < slots.length ∨ slots.any fun p => decide (16 ≤ p.1) || !p.2.ok then refuse (.badParam 1) s
  else if islandOut s then refuse (.state 90) s
  else if s.persist.importOp.isSome || decide (s.now < s.bki.copyEnds) then refuse .busy s
  else okRes [] (told s (configChanged (slots.foldl (fun s p => writeElem p.1 p.2 s) (writeBkiCtl ctl s))))

/-- BKI_WRITE. -/
def execBkiWrite (r : Req) (ctl : BitVec 32) (slots : List (Nat × ElemSlot)) (s : State) : Host.Outcome State Fault Refusal :=
  .next (serve r 0x0A02 .no false (fun r s => opBkiWrite r ctl slots s) s)

/-- BKI_COMMIT (R348): the bank that the next output sample makes active. -/
def opBkiCommit (_r : Req) (s : State) : State × Ans :=
  if islandOut s then refuse (.state 90) s
  else if s.persist.importOp.isSome then refuse .busy s
  else
    let s := configChanged (bkiCommit s)
    okRes [b2n (!s.bki.bank)] s

/-- BKI_COMMIT. -/
def execBkiCommit (r : Req) (s : State) : Host.Outcome State Fault Refusal :=
  .next (serve r 0x0A03 .no false (fun r s => opBkiCommit r s) s)

/-- The slots of a bank. -/
def bankWords (t : Tbl ElemSlot) : List Nat := (List.range 16).map fun n => (t.get n {}).pack

/-- BKI_READ (R362, R363). -/
def opBkiRead (_r : Req) (s : State) : State × Ans :=
  okRes ([bkiCtl s, bkiStat s] ++ ((List.range 8).map fun k => bkiRms k s) ++ [bkiElem s] ++ bankWords s.bki.bank0 ++ bankWords s.bki.bank1) s

/-- BKI_READ. -/
def execBkiRead (r : Req) (s : State) : Host.Outcome State Fault Refusal :=
  .next (serve r 0x0A04 .no false (fun r s => opBkiRead r s) s)

/-- CAL_CONFIG (R340, R362). -/
def opCalConfig (_r : Req) (ctl : BitVec 32) (s : State) : State × Ans :=
  if calCtlBad ctl then refuse (.badParam 0) s
  else
    let s := configChanged (writeCalCtl ctl s)
    okRes [calStat s] s

/-- CAL_CONFIG. -/
def execCalConfig (r : Req) (ctl : BitVec 32) (s : State) : Host.Outcome State Fault Refusal :=
  .next (serve r 0x0A05 .no false (fun r s => opCalConfig r ctl s) s)

/-! ### Settings files of the WXM-7210 (R489) -/

/-- A conversion in progress: the shadows as they would stand, and what has been converted and refused. -/
structure Conv where
  /-- The state with the shadows filled so far. -/
  st : State
  /-- What the import keeps. -/
  out : Persist := {}

/-- An item refused: section, number, reason. -/
def Conv.drop (c : Conv) (sec n why : Nat) : Conv := { c with out := { c.out with importLines := c.out.importLines ++ [(sec, n, why)] } }

/-- Why an SV subscription is refused: no place for its key, no room in the batch, or an admission check (R122). -/
def convSub (c : Conv) (p : StreamEntry × Nat) : Conv :=
  let e := { p.1 with static := true, learned := false, action := p.1.action ||| 2 }
  match place true e.key c.st with
  | none => c.drop 1 p.2 1
  | some q =>
    let cs := putChanges { op := .putStream, stream := e } q
    let all := c.st.sw.applying ++ c.st.sw.batch ++ cs
    let t := all.foldl (fun s x => afterChange x s) c.st
    if 256 < (c.st.sw.batch ++ cs).length then c.drop 1 p.2 0x100
    else match entryAdmit e t.sw.streams t.sw.bitmaps t with
      | some k => c.drop 1 p.2 k
      | none => { st := batched cs c.st, out := { c.out with importBatches := c.out.importBatches ++ cs, importOk := c.out.importOk + 1 } }

/-- An anti-alias class: A to E become MANDOLIN, VIOLIN, VIOLA, CELLO and BASS, and HIST_CLASS equals the preset. -/
def convGroup (c : Conv) (x : AaClass × Nat) : Conv :=
  let p := x.1.batch
  let d := { p.desc with pend := true, pendPreset := x.1.cls }
  let xs := p.ctxs.map fun x => { x with histClass := d.pendPreset }
  if 4 < x.1.cls ∨ 1024 ≤ p.group ∨ d.bad (c.st.group p.group).preset ∨ xs.length ≠ d.nch ∨ xs.any (fun x => x.refused [d.pendPreset]) then
    c.drop 2 x.2 1
  else
    let t := writeGroup p.group d xs c.st
    match groupAdmit t c.st with
    | some _ => c.drop 2 x.2 2
    | none => { st := t, out := { c.out with
        importGroups := c.out.importGroups ++ [{ group := p.group, desc := d, ctxs := xs }], importOk := c.out.importOk + 1 } }

/-- A GOOSE publication: refused where a VID is 0 or 4095. -/
def convPub (c : Conv) (p : List Allow × Nat) : Conv :=
  if p.1.any fun a => a.vid == 0 || a.vid == 4095 then c.drop 3 p.2 1
  else { c with out := { c.out with importPubs := c.out.importPubs ++ [p.1], importOk := c.out.importOk + 1 } }

/-- A backup stage becomes a slot of type 50, 51, 27 or 59: refused beyond 16 stages, of another type, or with fields that no slot takes, a curve
outside R345 among them. -/
def convStage (c : Conv) (p : ElemSlot × Nat) : Conv :=
  if 16 ≤ p.2 then c.drop 4 p.2 1
  else if !p.1.ok ∨ !([0, 1, 4, 5].contains p.1.type) then c.drop 4 p.2 2
  else { c with out := { c.out with importElems := c.out.importElems ++ [(p.2, { p.1 with en := true })], importOk := c.out.importOk + 1 } }

/-- The whole conversion. -/
def convert (x : Import7210) (s : State) : Persist :=
  let c := x.subs.zipIdx.foldl convSub { st := s }
  let c := x.groups.zipIdx.foldl convGroup c
  (x.stages.zipIdx.foldl convStage (x.pubs.zipIdx.foldl convPub c)).out

/-- IMPORT_7210 (R489). -/
def opImport7210 (r : Req) (file : Import7210) (s : State) : State × Ans :=
  if !file.crcOk then refuse (.badParam 0) s
  else if !file.versionOk then refuse (.state 40) s
  else if s.longBusy liveChangeOps then refuse (.state 5) s
  else
    let c := convert file s
    ((startLong r 0x0A06 0 s).modPersist fun p => { p with
      importOp := some s.handle, importOk := c.importOk, importLines := c.importLines, importBatches := c.importBatches,
      importGroups := c.importGroups, importElems := c.importElems, importPubs := c.importPubs },
     { status := .accepted s.handle })

/-- IMPORT_7210. -/
def execImport7210 (r : Req) (file : Import7210) (s : State) : Host.Outcome State Fault Refusal :=
  .next (serve r 0x0A06 .no false (fun r s => opImport7210 r file s) s)

end Sys2Proof.Machine
end

