-- ==== Sys2Proof/Machine/OpsPower.lean ====
section
/-!
DEFINITION. Machine/OpsPower.lean: the power family of the mailbox (R469).
-/
namespace Sys2Proof.Machine
open Sys2Proof

/-- Why a season request is refused (R357, R360, R477): STATE for WINTER, BUSY for the others while a change is in progress. -/
def seasonRefused (x : SeasonKind) (force : Bool) (s : State) : Option Status :=
  let moving := s.season.changing.isSome || s.season.season == .spring || s.season.season == .winter
  if x = .winter then
    (match winterRefused force s with
     | some n => some (.state n)
     | none => if moving then some (.state 3) else none)
  else if moving then some .busy else none

/-- The season changes for a long operation (R356, R357, R469): OP_DONE of a change to WINTER is written before the islands go off. -/
def seasonFor (x : SeasonKind) (h : Nat) (s : State) : State :=
  if x = .winter then winterBegins (some h) s
  else if s.season.season = x then opDone h .ok [] s
  else seasonBegins x (some h) s

/-- SET_SEASON (R356, R357). -/
def opSetSeason (r : Req) (season : Nat) (force ret : Bool) (s : State) : State × Ans :=
  match seasonOf season with
  | none => refuse (.badParam 0) s
  | some x =>
    match seasonRefused x force s with
    | some st => refuse st s
    | none =>
      let t := (startLong r 0x0B00 season s).modSeason fun z => { z with reqSeason := season, force := force, ret := ret }
      (seasonFor x s.handle (configChanged t), { status := .accepted s.handle })

/-- SET_SEASON. -/
def execSetSeason (r : Req) (season : Nat) (force ret : Bool) (s : State) : Host.Outcome State Fault Refusal :=
  .next (serve r 0x0B00 .no false (fun r s => opSetSeason r season force ret s) s)

/-- A wake pattern that is refused (R99). -/
def wakePatternBad (p : List Byte) : Bool := decide (p.length ≠ 16) || p.all fun b => some b == p.head?

/-- WAKE_CONFIG (R99, R362). -/
def opWakeConfig (_r : Req) (en : BitVec 3) (timerS : Nat) (pattern : List Byte) (s : State) : State × Ans :=
  if 2 ^ 23 ≤ timerS then refuse (.badParam 1) s
  else if wakePatternBad pattern then refuse (.badParam 2) s
  else okRes [] (configChanged ((s.modWake fun w => { w with pattern := some pattern }).modSeason fun z => { z with
    wakeEn := en, wakeTimerS := timerS }))

/-- WAKE_CONFIG. -/
def execWakeConfig (r : Req) (en : BitVec 3) (timerS : Nat) (pattern : List Byte) (s : State) : Host.Outcome State Fault Refusal :=
  .next (serve r 0x0B01 .no false (fun r s => opWakeConfig r en timerS pattern s) s)

/-- LOOP_CONFIG (R235). -/
def opLoopConfig (_r : Req) (mask : BitVec 8) (loop volt : BitVec 32) (fabric : Nat) (s : State) : State × Ans :=
  if pmcLoopBad loop then refuse (.badParam 1) s
  else if pmcVoltBad volt then refuse (.badParam 2) s
  else if !within 720 fabric 900 then refuse (.badParam 3) s
  else
    let s := (maskList mask).foldl (fun s c => writePmcVolt c volt (writePmcLoop c loop s)) s
    let s := configChanged (writeFabricVolt fabric s)
    okRes (((maskList mask).flatMap fun c => [pmcLoop c s, pmcVolt c s]) ++ [s.sched.vVf]) s

/-- LOOP_CONFIG. -/
def execLoopConfig (r : Req) (mask : BitVec 8) (loop volt : BitVec 32) (fabric : Nat) (s : State) : Host.Outcome State Fault Refusal :=
  .next (serve r 0x0B02 .no false (fun r s => opLoopConfig r mask loop volt fabric s) s)

/-- The next `n` open values (log entry 3). -/
def freeList : Nat → State → List Nat × State
  | 0, s => ([], s)
  | n + 1, s => let v := freeList n s.took; (s.free1 :: v.1, v.2)

/-- POWER_STATUS (R100, R235, R362, R505): the measured voltage and power of each of the 16 rails are what the sensors give. -/
def opPowerStatus (_r : Req) (s : State) : State × Ans :=
  let m := freeList 32 s
  okRes (((List.range 8).map fun c => pmcStat c s) ++ m.1 ++ [wakeCnt s]) m.2

/-- POWER_STATUS. -/
def execPowerStatus (r : Req) (s : State) : Host.Outcome State Fault Refusal :=
  .next (serve r 0x0B03 .no false (fun r s => opPowerStatus r s) s)

end Sys2Proof.Machine
end

