-- ==== Sys2Proof/Machine/Registers.lean ====
section
/-!
DEFINITION. Machine/Registers.lean: writes of registers through the pages of the blocks (R13), BAR0 (R429, R430) and the instance control
pages (R455), and reads that change state: RC fields (R13), latched high words (R231, R304), and counter snapshots (R91).
-/
namespace Sys2Proof.Machine
open Sys2Proof

/-! ### Counter snapshots -/

/-- COUNTER_SNAPSHOT (R91, R92): a write of 1 to SNAP. -/
def execCounterSnapshot (page : CntPage) (s : State) : Host.Outcome State Fault Refusal :=
  .next (if page.exists_ then snapshot page s else s)

/-! ### Entries wider than a word -/

/-- A 32-bit word of a slot entry written; the active bank takes none (R215). -/
def writeSlotWord (u o : Nat) (v : BitVec 32) (s : State) : State :=
  let b := if o < 0x800 then 0 else 1
  let n := (o - 0x400) % 0x400 / 8
  let put := fun (t : Tbl SlotEntry) => t.set n (SlotEntry.unpack (putWord (t.get n {}).pack (o / 4 % 2) v.toNat))
  s.setPsc u fun p => if p.bank = b then p else if b = 0 then { p with bank0 := put p.bank0 } else { p with bank1 := put p.bank1 }

/-- A 32-bit word of an element slot written; the active bank takes none (R363). -/
def writeElemWord (o : Nat) (v : BitVec 32) (s : State) : State :=
  let n := (o - 0x400) % 0x100 / 16
  if s.bki.bank = decide (0x500 ≤ o) then s
  else writeElem n (ElemSlot.unpack (putWord (s.bki.shadowBank.get n {}).pack (o / 4 % 4) v.toNat)) s

/-- The fields of a source entry that lie in their ranges; the others as they were (R332, R333). -/
def AcqSrc.inRange (o n : AcqSrc) : AcqSrc :=
  { n with
    ref := keep (n.raw || decide (n.ref < 1024)) n.ref o.ref, nch := keep (!n.raw || within 1 n.nch 16) n.nch o.nch,
    recLen := keep (n.recLen == 0 || within 8 n.recLen 4095) n.recLen o.recLen, rate := keep (!n.raw || decide (n.rate ≤ 5)) n.rate o.rate }

/-- The fields of a descriptor that lie in their ranges; the others as they were (R332). -/
def AcqStream.inRange (o n : AcqStream) (s : State) : AcqStream :=
  { n with
    port := keep (n.port == 4 || n.port == 5 || n.port == 7) n.port o.port, nsrc := keep (within 1 n.nsrc 16) n.nsrc o.nsrc,
    vid := keep (within 1 n.vid 4094) n.vid o.vid, ttl := keep (within 1 n.ttl 255) n.ttl o.ttl,
    rateMbit := keep (within 1 n.rateMbit 22500) n.rateMbit o.rateMbit, stageGran := keep (within 1 n.stageGran 64) n.stageGran o.stageGran,
    flushUs := keep (within 100 n.flushUs 10000) n.flushUs o.flushUs, freqRecs := keep (within 1 n.freqRecs 8) n.freqRecs o.freqRecs,
    srcMac := keep (!(n.srcMac.getLsbD 40) && !(s.live.any fun p => p.2.mac == n.srcMac)) n.srcMac o.srcMac,
    srcs := (List.range 16).map fun k => (o.src k).inRange (n.src k) }

/-- EN of a stream written (R308, R326, R329): capture begins where STREAM_EN would begin it. -/
def writeStreamEn (n : Nat) (en : Bool) (s : State) : State :=
  let x := s.acqS n
  if x.en = en then s
  else if !en then acqBits x (acqDisable n s)
  else if x.unready s ∨ x.granules ≠ [] ∨ s.dramFree < x.stageGran ∨ streamAdmit n x s ≠ none then s
  else acqBits x (acqEnable n (acqGranules n s))

/-- A 32-bit word of a stream descriptor written (R332, R333). -/
def writeStreamWord (o : Nat) (v : BitVec 32) (s : State) : State :=
  let n := (o - 0x400) / 256
  let old := s.acqS n
  let new := AcqStream.unpack old (putWord old.pack (o % 256 / 4) v.toNat)
  writeStreamEn n new.en (s.setAcqS n fun x => if x.en then x.putLive (x.inRange new s) else x.put (x.inRange new s))

/-- A verification entry's word written (R422). -/
def writeVerWord (o : Nat) (v : BitVec 32) (s : State) : State :=
  let n := (o - 0x400) / 8
  s.modKsu fun k => { k with ver := k.ver.set n (VerEntry.unpack (putWord (k.ver.get n {}).pack (o / 4 % 2) v.toNat)) }

/-- The RW fields of an attribute record, spelled by its 256 bits (R405). -/
def recordArgs (r : Nat) : KeyArgs :=
  { use := fld r 62 60, tag := fld r 29 28, keyId := BitVec.ofNat 32 (fld r 159 128), volatile := fld r 58 58 == 1 }

/-- A word of an attribute record written (R405, R409, R410): a locked record stays, as one whose fields would leave their values; the owner of a
reserved slot stays. -/
def writeRecordWord (o : Nat) (v : BitVec 32) (s : State) : State :=
  let n := (o - 0x8000) / 32
  let r := putWord (s.slot n).record.toNat (o / 4 % 8) v.toNat
  let a := recordArgs r
  if (s.slot n).lock ∨ !a.ok then s
  else
    let t := slotAttr n a (fld r 59 59 == 1) (fld r 57 57 == 1) s
    if n < 8 then t else assignSlot n (fld r 56 56 == 1) (fld r 55 47) (fld r 46 31) t

/-- Octets written into a register array. -/
def putOctets (l : List Byte) (at_ : Nat) (v : BitVec 32) : List Byte := putAt (l ++ List.replicate (at_ + 4 - l.length) 0) at_ (leBytes 4 v.toNat)

/-! ### The blocks' pages -/

/-- The port page (R93). -/
def prtWrite (u o : Nat) (v : BitVec 32) (s : State) : State :=
  if o = 0x00 then writePortCtl u v s else if o = 0x08 then writePortVlan u v s else if o = 0x0C then writePortPcpMap u v s
  else if o = 0x10 then writeMaxFrame u (bits v 13 0) s else s

/-- The switch page (R137). -/
def swWrite (o : Nat) (v : BitVec 32) (s : State) : State :=
  if o = 0x00 then writeSwcCtl v s else if o = 0x0C then writeHoldoff (bits v 21 0) s else if o = 0x10 then writeFwdIdle (bits v 12 0) s
  else if 0x20 ≤ o ∧ o < 0x40 then writeClsAge ((o - 0x20) / 4) (bits v 16 0) s
  else if 0x40 ≤ o ∧ o < 0x60 then writePortFwd ((o - 0x40) / 4) v s
  else if 0x60 ≤ o ∧ o < 0x70 then writeMirCtl ((o - 0x60) / 4) v s
  else s

/-- PSC_CTL written (R217, R231): PHASE below the pending period; COMMIT is refused while a commit waits, and with a change of PERIOD while
ALIGNED is 0. -/
def writePscCtl (u : Nat) (v : BitVec 32) (s : State) : State :=
  let s := s.setPsc u fun p => { p.enable (bitOf v 0) with
    period := bits v 2 1, phase := keep (decide (quarters (bits v 28 16) < periodNs (bits v 2 1))) (bits v 28 16) p.phase }
  if bitOf v 5 ∧ (s.psc u).takesCommit then pscCommit u none s else s

/-- The PSC page (R230). -/
def pscWrite (u o : Nat) (v : BitVec 32) (s : State) : State :=
  if o = 0x00 then writePscCtl u v s else if 0x400 ≤ o ∧ o < 0xC00 then writeSlotWord u o v s else s

/-- The PMC page (R234). -/
def pmcWrite (o : Nat) (v : BitVec 32) (s : State) : State :=
  if o < 0x80 then (if o % 16 = 0 then writePmcLoop (o / 16) v s else if o % 16 = 4 then writePmcVolt (o / 16) v s else s)
  else if o = 0x80 then writeFabricVolt (bits v 9 0) s else s

/-- The pages of the pair (R275): CLM_HOLD blocks all but CGU_MEM (R351). -/
def cguWrite (o : Nat) (v : BitVec 32) (s : State) : State :=
  if o = 0x10 then writeClaimMem v s
  else if s.bki.clmHold then s
  else if o = 0x00 then writeCguCtl v s else if o = 0x04 then writeClaim v s else s

/-- The OCU page (R275). -/
def ocuWrite (o : Nat) (v : BitVec 32) (s : State) : State :=
  if s.bki.clmHold then s else if o = 0x00 then writeOcuCtl v s else if o = 0x04 then writeOcuRef v s else s

/-- The MLK page (R275). -/
def mlkWrite (o : Nat) (v : BitVec 32) (s : State) : State := if !s.bki.clmHold ∧ o = 0x00 then writeMlkCtl v s else s

/-- A word of TB_STEP written (R305). -/
def writeStepWord (j : Nat) (v : BitVec 32) (s : State) : State :=
  s.modTime fun t => { t with step := signed 64 (putWord (unsigned 64 t.step) j v.toNat) }

/-- The TBU page (R304). -/
def tbuWrite (o : Nat) (v : BitVec 32) (s : State) : State :=
  if o = 0x00 then writeTbCtl v s else if o = 0x04 then writeTbStat v s else if o = 0x08 then writeIncr v s
  else if o = 0x20 then writeStepWord 0 v s else if o = 0x24 then writeStepWord 1 v s
  else if o = 0x28 then writeOfs false false v s else if o = 0x2C then writeOfs false true v s
  else if o = 0x30 then writeOfs true false v s else if o = 0x34 then writeOfs true true v s
  else if o = 0x40 then writeTbDomain v s else if o = 0x44 then writeTbLimits v s else if o = 0x48 then writePpsWidth (bits v 18 0) s
  else if 0x60 ≤ o ∧ o < 0x78 then writePtpPort ((o - 0x60) / 4) v s
  else if 0x80 ≤ o ∧ o < 0x98 then s.setPtp ((o - 0x80) / 4) fun p => { p with linkDelay := v.toNat }
  else if 0x400 ≤ o ∧ o < 0x600 then writeTrg ((o - 0x400) / 16) (o / 4 % 4) v s
  else s

/-- The ACQ page (R330). -/
def acqWrite (o : Nat) (v : BitVec 32) (s : State) : State :=
  if o = 0x00 then writeAcqCtl v s else if 0x400 ≤ o ∧ o < 0x800 then writeStreamWord o v s else s

/-- BKI_CTL written (R348, R353, R362). -/
def writeBkiWord (v : BitVec 32) (s : State) : State :=
  let s := writeBkiCtl v s
  let s := if bitOf v 4 && !islandOut s then bkiCommit s else s
  if bitOf v 6 then clmHoldClr s else s

/-- The BKI page (R361). -/
def bkiWrite (o : Nat) (v : BitVec 32) (s : State) : State :=
  if o = 0x00 then writeBkiWord v s
  else if o = 0x08 then (if s.bki.hb = 1 ∧ due s (s.bki.hbAt + ms 20) then s else hbWrite v s)
  else if o = 0x0C then writeSeasonCtl v s else if o = 0x18 then writeCalCtl v s
  else if 0x400 ≤ o ∧ o < 0x600 ∧ !islandOut s then writeElemWord o v s else s

/-- The EVR page (R400). -/
def evrWrite (o : Nat) (v : BitVec 32) (s : State) : State :=
  if o = 0x00 then writeEvrCtl (bitOf v 0) (bitOf v 1) s
  else if 0x400 ≤ o ∧ o < 0x440 ∧ o % 16 = 4 then writeCurCtl ((o - 0x400) / 16) v s
  else if 0x1000 ≤ o ∧ o < 0x2000 then writeBucket ((o - 0x1000) / 4) (bits v 31 30) (bits v 29 20) (bits v 19 0) s
  else s

/-- KSU_KDFLEN written (R426). -/
def writeKdfLen (v : BitVec 32) (s : State) : State :=
  s.modKsu fun k => { k with
    contextLen := keep (decide (bits v 13 7 ≤ 64)) (bits v 13 7) k.contextLen, labelLen := keep (within 1 (bits v 6 0) 32) (bits v 6 0) k.labelLen }

/-- The KSU page (R425). -/
def ksuWrite (o : Nat) (v : BitVec 32) (s : State) : State :=
  if o = 0x00 then s.modKsu fun k => { k with verifyEn := bitOf v 0 }
  else if o = 0x10 then ksuCommand .mgp v s else if o = 0x18 then writeKdfLen v s
  else if 0x20 ≤ o ∧ o < 0x40 then s.modKsu fun k => { k with keyIn := BitVec.ofNat 256 (putWord k.keyIn.toNat ((o - 0x20) / 4) v.toNat) }
  else if 0x40 ≤ o ∧ o < 0x60 then s.modKsu fun k => { k with label := putOctets k.label (o - 0x40) v }
  else if 0x60 ≤ o ∧ o < 0xA0 then s.modKsu fun k => { k with context := putOctets k.context (o - 0x60) v }
  else if 0x400 ≤ o ∧ o < 0xC00 then writeVerWord o v s
  else if 0x8000 ≤ o ∧ o < 0x10000 then writeRecordWord o v s else s

/-- The page of the locks, as the MGP writes it (R200, R205). -/
def lckWrite (o : Nat) (v : BitVec 32) (s : State) : State :=
  if 0x1000 ≤ o then s
  else if o % 16 = 0 then lockRelease .mgp (o / 16) v s
  else if o % 16 = 4 then writeAssign (o / 16) (bitOf v 31) (bitOf v 30) (bits v 29 21) (bits v 20 17) s
  else s

/-- MODE of an arbiter written (R46, R49). -/
def putMode (u : Nat) (m : Bool) (s : State) : State :=
  s.setArb u ((s.arb u).writeMode u m)

/-- A word of priorities written (R52): only those of the arbiter's requesters. -/
def writePrioWord (u j : Nat) (v : BitVec 32) (s : State) : State :=
  (List.range 8).foldl (fun s i =>
    if 8 * j + i < arbReq u then s.setArb u ((s.arb u).putPrio (8 * j + i) (bits v (4 * i + 3) (4 * i))) else s) s

/-- An arbiter's page (R48). -/
def arbWrite (u o : Nat) (v : BitVec 32) (s : State) : State :=
  if 37 ≤ u then s
  else if o = 0x00 then putMode u (bitOf v 0) s else if 0x10 ≤ o ∧ o < 0x20 then writePrioWord u ((o - 0x10) / 4) v s else s

/-- A fault set's register written (R383). -/
def fltWrite (b : BlockId) (u o : Nat) (v : BitVec 32) (s : State) : State :=
  if o = 0x04 then writeFltCtl b u v s
  else if o = 0x08 then s.setFset b u fun x => { x with int := x.int &&& ~~~ BitVec.ofNat 5 (bits v 4 0) }
  else if o = 0x0C then writeInj b u (bitOf v 31) (bitOf v 30) (bits v 27 24) (bits v 17 13) (BitVec.ofNat 8 (bits v 7 0)) s
  else if o = 0x48 then writeQuiet b u (bits v 21 0) s else s

/-- The registers of a block's page that are its own. -/
def blockWrite (b : BlockId) (u o : Nat) (v : BitVec 32) (s : State) : State :=
  match b with
  | .prt => prtWrite u o v s | .stb => swWrite o v s | .swc => swWrite o v s | .sce => if o = 0x00 then writeSceCtl v s else s
  | .psc => pscWrite u o v s | .pmc => pmcWrite o v s | .cgu => cguWrite o v s | .ocu => ocuWrite o v s | .mlk => mlkWrite o v s
  | .tbu => tbuWrite o v s | .acq => acqWrite o v s | .bki => bkiWrite o v s | .evr => evrWrite o v s | .ksu => ksuWrite o v s
  | .lck => lckWrite o v s | .arb => arbWrite u o v s
  | _ => s

/-- A register of a block's page written: the fault set, SNAP, or one of its own. -/
def pageWrite (b : BlockId) (u o : Nat) (v : BitVec 32) (s : State) : State :=
  if b.units ≤ u ∨ o % 4 ≠ 0 then s
  else match faultSetAt b o with
    | some (x, f) => fltWrite x u f v s
    | none => match snapReg b u with
      | some (at_, p) => if o = at_ then (if bitOf v 0 then snapshot p s else s) else blockWrite b u o v s
      | none => blockWrite b u o v s

/-! ### BAR0 and the control pages -/

/-- The pair registers written (R441, R442, R444). -/
def pairWrite (p o : Nat) (v : BitVec 32) (s : State) : State :=
  if o = 0x00 then s.setPair (.host p) fun x => if x.resetBusy ∨ !x.tailOk (bits v 15 0) then x.refuseTail else { x with reqTail := bits v 15 0 }
  else if o = 0x0C then s.setPair (.host p) fun x => { x with rspHead := bits v 15 0 }
  else if o = 0x10 ∧ bitOf v 0 then
    s.setPair (.host p) fun x => if s.mbx.ready ∧ s.persist.fwUp then x.cleared else { x with resetBusy := true }
  else s

/-- An entry of the MSI-X table written: its address, its data, its mask (R428, R429). -/
def msixWrite (k j : Nat) (v : BitVec 32) (s : State) : State :=
  s.modMbx fun m =>
    if j < 2 then { m with msixAddr := m.msixAddr.set k (putWord (m.msixAddr.get k 0) j v.toNat) }
    else if j = 2 then { m with msixData := m.msixData.set k v.toNat }
    else { m with msixMask := setBit m.msixMask k (bitOf v 0) }

/-- A register of BAR0 written (R429 to R431, R441, R452): aligned words only; cursor 2 only while it is allocated (R393). -/
def bar0Write (o : Nat) (v : BitVec 32) (s : State) : State :=
  if o % 4 ≠ 0 then s.modMbx fun m => { m with badAccess := satAdd 16 m.badAccess 1 }
  else if 0x2000 ≤ o ∧ o < 0x2300 then msixWrite ((o - 0x2000) / 16) (o % 16 / 4) v s
  else if 0x10000 ≤ o ∧ o < 0x10400 then pairWrite ((o - 0x10000) / 64) (o % 64) v s
  else if o = 0x11004 then tellLost (s.modMbx fun m => { m with evtHead := bits v 15 0 })
  else if o = 0x1100C then s.modMbx fun m => { m with evtMask := BitVec.ofNat 12 (bits v 11 2 * 4 + 2) }
  else if o = 0x200004 then writeCurCtl 0 v s
  else if o = 0x202004 ∧ s.evr.cur2Alloc then writeCurCtl 2 v s
  else s

/-- Octets of a ring slot written (R429, R430): those of the word at `o` that `be` enables, within the one slot. -/
def slotWrite64 (o : Nat) (be : BitVec 4) (v : BitVec 32) (s : State) : State :=
  let k := (o - 0x100000) / 64
  let l := s.ringSlot k
  if 64 < o % 64 + 4 then s
  else s.modMbx fun m => { m with
    slots := m.slots.set k (putAt l (o % 64) ((List.range 4).map fun j => if be.getLsbD j then (leBytes 4 v.toNat).getD j 0 else l.getD (o % 64 + j) 0)) }

/-- A 32-bit access to BAR0 with its byte enables (R430): ring slots take any octets, the windows are read only; registers take aligned whole words,
and other writes are counted in BAD_ACCESS. -/
def bar0Access (o : Nat) (be : BitVec 4) (v : BitVec 32) (s : State) : State :=
  if ringOffset o then slotWrite64 o be v s
  else if be ≠ 0xF then s.modMbx fun m => { m with badAccess := satAdd 16 m.badAccess 1 }
  else bar0Write o v s

/-- A 64-bit access acts as two of 32 bits, the lower address first (R430); to a register it must be aligned. -/
def bar0Write64 (o : Nat) (lo hi : BitVec 32) (s : State) : State :=
  if ringOffset o ∨ o % 8 = 0 then bar0Access (o + 4) 0xF hi (bar0Access o 0xF lo s)
  else s.modMbx fun m => { m with badAccess := satAdd 16 m.badAccess 1 }

/-- Memory space, bus mastering, BAR0, the sizes, the power state and the error registers of the function (R428). The fields are those of the PCI
Express base specification (log entry 166). -/
def pciWrite (r : PciReg) (v : BitVec 32) (s : State) : State :=
  s.modMbx fun m => { m with pci :=
    let p := m.pci
    match r with
    | .command => { p with memEn := bitOf v 1, busMaster := bitOf v 2 }
    | .bar 0 => { p with bar0 := p.bar0 / 2 ^ 32 * 2 ^ 32 + bits v 31 24 * 2 ^ 24 }
    | .bar 1 => { p with bar0 := v.toNat * 2 ^ 32 + p.bar0 % 2 ^ 32 }
    | .devCtl => { p with maxPayload := keep (decide (bits v 7 5 ≤ 2)) (bits v 7 5) p.maxPayload, maxRead := keep (decide (bits v 14 12 ≤ 5)) (bits v 14 12) p.maxRead }
    | .pmCsr => { p with d3hot := if bits v 1 0 = 3 then true else if bits v 1 0 = 0 then false else p.d3hot }
    | .aerUnc => { p with aerUnc := p.aerUnc &&& ~~~ v }
    | .aerUncMask => { p with aerUncMask := v }
    | .aerUncSev => { p with aerUncSev := v }
    | .aerCor => { p with aerCor := p.aerCor &&& ~~~ v }
    | .aerCorMask => { p with aerCorMask := v }
    | _ => p }

/-- The endpoint accepts configuration: its link is up, and MAIN has been good for 100 ms (R472). -/
def State.pciConfig (s : State) : Bool := s.pcieUp && decide (s.power.mainGoodAt + ms 100 ≤ s.now)

/-- The pages of the MAIN islands can be reached: it is not WINTER (R355). -/
def State.pagesUp (s : State) : Bool := s.season.season != .winter && s.power.aonGood

/-- REGISTER_WRITE (R13). -/
def execRegisterWrite (reg : RegAddr) (value : BitVec 32) (s : State) : Host.Outcome State Fault Refusal :=
  .next (match reg with
    | .page b u o => if s.pagesUp then told s (pageWrite b u o value s) else s
    | .locks o => if s.pagesUp ∧ o % 4 = 0 then lckWrite o value s else s
    | .bar0 o => if s.pciUp then told s (bar0Access o 0xF value s) else s
    | .bar0Be o be => if s.pciUp then told s (bar0Access (o / 4 * 4) be value s) else s
    | .bar0Pair o hi => if s.pciUp then told s (bar0Write64 o value hi s) else s
    | .pci r => if s.pciConfig then pciWrite r value s else s
    | .ctrl i o => if s.pagesUp ∧ i < 512 then ctrlWrite i (s.inst i).gen o value s else s)

/-! ### Reads that change state -/

/-- The RC fields of a word of a block's page clear (R13, R51, R172, R232, R305, R306, R332, R401). -/
def pageCleared (b : BlockId) (u o : Nat) (s : State) : State :=
  match b with
  | .arb => if o = 0x08 then s.setArb u { s.arb u with waitMax := 0, waitWho := 0 } else if o = 0x0C then s.setArb u { s.arb u with backoffs := 0 } else s
  | .sce => if o = 0x04 then s.modSce fun c => { c with inqHwm := 0 } else s
  | .psc =>
    if 0x1000 ≤ o ∧ o < 0x1800 ∧ o % 16 = 4 then
      s.setPsc u fun p => { p with status := p.status.mod ((o - 0x1000) / 16) {} SlotStat.readOut }
    else s
  | .tbu =>
    if o = 0x4C then s.modTime fun t => { t with stampHwm := 0 }
    else if 0x400 ≤ o ∧ o < 0x600 ∧ o % 16 = 0 then s.setCmp ((o - 0x400) / 16) fun c => { c with skipped := 0 }
    else s
  | .acq => if 0x400 ≤ o ∧ o < 0x800 ∧ o % 256 = 52 then s.setAcqS ((o - 0x400) / 256) fun x => { x with stageHwm := 0 } else s
  | .evr => if 0x400 ≤ o ∧ o < 0x440 ∧ o % 16 = 12 then
      s.modEvr fun e => { e with cursors := lmod e.cursors ((o - 0x400) / 16) fun c => { c with lost := 0 } } else s
  | _ => s

/-- The RC fields of a word of BAR0 clear (R401, R433, R441, R452). -/
def bar0Cleared (o : Nat) (s : State) : State :=
  let cur := fun (n : Nat) => s.modEvr fun e => { e with cursors := lmod e.cursors n fun c => { c with lost := 0 } }
  if o = 0x10 then s.modMbx fun m => { m with badAccess := 0 }
  else if o = 0x11008 then s.modMbx fun m => { m with evtLost := 0 }
  else if 0x10000 ≤ o ∧ o < 0x10400 ∧ o % 64 = 0x14 then s.setPair (.host ((o - 0x10000) / 64)) fun p => { p with badTail := 0 }
  else if o = 0x20000C then cur 0 else if o = 0x20200C then cur 2 else s

/-- The value a reader is given. -/
def given (v : Nat) (s : State) : State := s.modFab fun f => { f with readOut := v }

/-- RC_READ (R13): the value is given, then its RC fields clear. -/
def execRcRead (reg : RegAddr) (s : State) : Host.Outcome State Fault Refusal :=
  let t := given (regRead reg s) s
  .next (match reg with
    | .page b u o => if s.pagesUp ∧ u < b.units then pageCleared b u o t else s
    | .bar0 o => if s.pciUp then told t (bar0Cleared o t) else s
    | .bar0Be o be => if s.pciUp then told t (if be = 0xF then bar0Cleared o t else t) else s
    | .bar0Pair o _ => if s.pciUp then told t (if o % 8 = 0 then bar0Cleared (o + 4) (bar0Cleared o t) else t) else s
    | .pci _ => if s.pciConfig then t else s
    | _ => t)

/-- LATCHING_READ (R231, R304): the low word is given, and the high one is kept for the next read. -/
def execLatchingRead (reg : LatchReg) (s : State) : Host.Outcome State Fault Refusal :=
  .next (match reg with
    | .pscFrameLo k =>
      if k < 8 then given (wordOf (s.psc k).frameNo 0) (s.setPsc k fun p => { p with hiLatch := some (wordOf p.frameNo 1) }) else s
    | .tbFrac =>
      given (s.time.tbFrac / 65536) (s.modTime fun t => { t with tbLatch := some (wordOf t.tbNs 0, wordOf t.tbNs 1) })
    | .ageLo => given (wordOf s.time.age 0) (s.modTime fun t => { t with ageLatch := some (wordOf t.age 1) }))

end Sys2Proof.Machine
end

