-- ==== Sys2Proof/Machine/Monitor.lean ====
section
/-!
DEFINITION. Machine/Monitor.lean: the Ouvtu monitor (R511 to R521): its command lines, its lock, and the mailbox requests it sends.
-/
namespace Sys2Proof.Machine
open Sys2Proof

/-! ### Lines -/

/-- How a command ends (R516): with its error code, or well. -/
abbrev MonEnd := Option Nat

/-- A complete line has come (R512, R520): the last command's output is gone, the relock and a rate change are timed anew. -/
def lineTaken (s : State) : State := s.modMon fun m => { m with out := [], lineAt := s.now, baudAt := none }

/-- The final line (R516). The firmware that a command has put out of action prints none. -/
def finalLine (e : MonEnd) (s : State) : State :=
  if s.persist.fwUp then (match e with | none => monPrint 0 [] s | some c => monPrint 1 [c] s) else s

/-- A command line carried out (R516): the monitor is silent while the MGP is not running (R511). -/
def monRun (f : State → State × MonEnd) (s : State) : Host.Outcome State Fault Refusal :=
  .next (if s.persist.fwUp then let v := f (lineTaken s); finalLine v.2 v.1 else s)

/-- A request of the monitor. -/
def monReq (inst : Option Nat) (gen : Nat) : Req := { src := .mon, inst := inst, gen := gen }

/-- Value lines. -/
def printAll (lines : List (List Nat)) (s : State) : State := lines.foldl (fun s l => monPrint 2 l s) s

/-- A read-only command through its opcode (R517): the result as value lines, or the status as the error. -/
def monRead (v : State × Ans) : State × MonEnd :=
  match v.2.status with
  | .ok => (printAll (v.2.result.map fun x => [x]) v.1, none)
  | st => (v.1, some st.code)

/-! ### Read-only commands (R517) -/

/-- MON_HELP (R517): a line per command available; `mbx` only while unlocked (R520). -/
def execMonHelp (s : State) : Host.Outcome State Fault Refusal :=
  monRun (fun s => (printAll ((List.range (if s.mon.unlocked then 15 else 14)).map fun k => [k]) s, none)) s

/-- MON_ID (R517). -/
def execMonId (s : State) : Host.Outcome State Fault Refusal := monRun (fun s => monRead (opGetIdentity (monReq none 0) s)) s

/-- MON_STATUS (R517): GET_STATUS and PAIR_STATUS. -/
def execMonStatus (s : State) : Host.Outcome State Fault Refusal :=
  monRun (fun s => monRead (okRes ((opGetStatus (monReq none 0) s).2.result ++ (opPairStatus (monReq none 0) s).2.result ++ [s.cgu.ownClaim.toNat]) s)) s

/-- MON_TIME (R517). -/
def execMonTime (s : State) : Host.Outcome State Fault Refusal := monRun (fun s => monRead (opTimeStatus (monReq none 0) s)) s

/-- A line of `faults`. -/
def faultLine (p : BlockId × Nat) (s : State) : List Nat :=
  let x := s.fset p.1 p.2
  [p.1.id, p.2, b2n x.state, b2n x.fActive, x.lastClass, x.lastKind]

/-- MON_FAULTS (R517): the fault sets in fault state. -/
def execMonFaults (s : State) : Host.Outcome State Fault Refusal :=
  monRun (fun s => (printAll ((allSets.filter fun p => s.inFault p.1 p.2).map fun p => faultLine p s) s, none)) s

/-- MON_FAULT (R517, R518): the FE registers, then FLT_RECOV. -/
def execMonFault (block : BlockId) (unit : Nat) (s : State) : Host.Outcome State Fault Refusal :=
  monRun (fun s =>
    let v := opFaultRead (monReq none 0) block unit s
    monRead (v.1, { v.2 with result := (v.2.result.drop 1).take 11 })) s

/-- MON_STATS (R517): reader 3. -/
def execMonStats (page : CntPage) (s : State) : Host.Outcome State Fault Refusal :=
  monRun (fun s => monRead (opStats (monReq none 0) page 3 s)) s

/-- MON_INST (R517): READ_DESC of the instance as it stands. -/
def execMonInst (inst : Nat) (s : State) : Host.Outcome State Fault Refusal :=
  monRun (fun s =>
    let r := monReq (some inst) (s.inst inst).gen
    match instCheck 0x0206 r true s with
    | some st => (s, some st.code)
    | none => monRead (opReadDesc r s)) s

/-- The fields of a record's line (R521): the code with its name, an owner marked where there is one, DETAIL, and whether the CRC failed. -/
def EvrRec.printed (r : EvrRec) : List Nat :=
  [r.seq, r.age, r.tb, r.epoch, r.code] ++ Config.codeName r.code ++ [r.cls, r.block, r.unit, r.owner.recWords.1, r.owner.recWords.2]
    ++ (((r.detail ++ List.replicate 28 0).take 28).map BitVec.toNat) ++ [b2n !r.crcOk]

/-- Records as lines (R521). -/
def printRecords (rs : List EvrRec) (s : State) : State := rs.foldl (fun s r => monPrint 6 r.printed s) s

/-- The line that tells of lapping, with CUR_LOST as read (R521): the read clears it. -/
def lappedLine (s : State) : State :=
  let c := s.evr.cursors.getD 3 {}
  if c.lapped then monPrint 5 [c.lost] (s.modEvr fun e => { e with cursors := lmod e.cursors 3 fun c => { c with lost := 0 } }) else s

/-- `evr`: cursor 3 moves past the records printed last, or to the newest; then up to n records are printed. -/
def monEvr (n : Option Nat) (s : State) : State × MonEnd :=
  if n.any fun k => !within 1 k 64 then (s, some 0x0102)
  else if (s.evr.cursors.getD 3 {}).busy then (s, some Status.busy.code)
  else
    let s := cursorDone 3 (cursorLoad 3 s.mon.printed n.isNone s)
    let rs := ((s.evr.cursors.getD 3 {}).window).take (n.getD 0)
    (printRecords rs (lappedLine (s.modMon fun m => { m with printed := rs.length })), none)

/-- MON_EVR (R394, R521). -/
def execMonEvr (n : Option Nat) (s : State) : Host.Outcome State Fault Refusal := monRun (monEvr n) s

/-- A read of the register has an effect (R518). -/
def sideEffect (b : BlockId) (o : Nat) : Bool :=
  (match faultSetAt b o with | some (_, f) => f == 0x10 | none => false)
    || match b with
      | .arb => o == 0x08 || o == 0x0C
      | .sce => o == 0x04
      | .psc => o == 0x08 || (decide (0x1000 ≤ o) && decide (o < 0x1800) && o % 16 == 4)
      | .tbu => o == 0x0C || o == 0x18 || o == 0x4C || (decide (0x400 ≤ o) && decide (o < 0x600) && o % 16 == 0)
      | .acq => decide (0x400 ≤ o) && decide (o < 0x800) && (o % 256 == 48 || o % 256 == 52)
      | .evr => decide (0x400 ≤ o) && decide (o < 0x440) && o % 16 == 12
      | .lck => decide (o < 0x1000) && o % 16 == 0 && (faultSetAt b o).isNone
      | _ => false

/-- `peek`: one line per register. -/
def monPeek (b : BlockId) (u off count : Nat) (s : State) : State × MonEnd :=
  let os := (List.range count).map fun k => off + 4 * k
  if b.units ≤ u ∨ off % 4 ≠ 0 ∨ !within 1 count 16 then (s, some 0x0102)
  else if os.any fun o => sideEffect b o then (s, some 0x0106)
  else (printAll (os.map fun o => [o, pageRead b u o s]) s, none)

/-- MON_PEEK (R518). -/
def execMonPeek (block : BlockId) (unit off count : Nat) (s : State) : Host.Outcome State Fault Refusal := monRun (monPeek block unit off count) s

/-! ### The lock (R519, R520) -/

/-- The least time between two challenges (R424). -/
def challengeGap (m : Mon) : Nat := if 8 ≤ m.fails then sec 60 else sec 2

/-- The seconds until a challenge may be issued, or none. -/
def waitLeft (s : State) : Option Nat :=
  match s.mon.lastIssue with
  | some t => if t + challengeGap s.mon ≤ s.now then none else some ((t + challengeGap s.mon - s.now + sec 1 - 1) / sec 1)
  | none => none

/-- A challenge issued (R424): 64 bits drawn. -/
def issue (s : State) : State :=
  let c := BitVec.ofNat 64 s.free1
  let s := s.took.modKsu fun k => { k with draws := k.draws + 1 }
  let s := s.modMon fun m => { m with challenge := some c, challengeAt := s.now, lastIssue := some s.now }
  monPrint 4 [s.mbx.serial] (monPrint 3 [c.toNat] s)

/-- `unlock` with DEV_EN at a level: an earlier challenge expires. -/
def monUnlock (devEn : Bool) (s : State) : State × MonEnd :=
  let s := (s.modPower fun p => { p with devEn := devEn }).modMon fun m => { m with challenge := none }
  if !devEn then (s, some 0x0104)
  else if !(s.slot 4).valid then (s, some 0x0107)
  else match waitLeft s with
    | some n => (monPrint 2 [n] s, some 0x0105)
    | none => (issue s, none)

/-- MON_UNLOCK (R424, R519). -/
def execMonUnlock (devEn : Bool) (s : State) : Host.Outcome State Fault Refusal := monRun (monUnlock devEn) s

/-- The response that the KSU expects (R424): the first 64 bits of the MAC under slot 0x004 over the challenge and the serial number. -/
def expected (c : BitVec 64) (s : State) : BitVec 64 :=
  (Config.mac 1 (s.slotValue 4) (beBytes 8 c.toNat ++ s.serialOctets)).extractLsb' 192 64

/-- An attempt counted and recorded (R519). -/
def attempt (ok : Bool) (s : State) : State :=
  note .mgp 0 0x023 0 .mgp (leBytes 1 (b2n ok)) (s.modKsu fun k => { k with live := bump k.live (if ok then 10 else 11) })

/-- `resp`: each challenge serves one attempt. -/
def monResp (response : BitVec 64) (s : State) : State × MonEnd :=
  match s.mon.challenge with
  | none => (s, some (Status.state 0).code)
  | some c =>
    let ok := (s.slot 4).valid && !(s.slot 4).unusable && response == expected c s
    let s := attempt ok s
    let s := s.modMon fun m => { m with challenge := none, unlocked := m.unlocked || ok, fails := if ok then 0 else m.fails + 1 }
    (s, if ok then none else some Status.notPermitted.code)

/-- MON_RESP (R424, R519). -/
def execMonResp (response : BitVec 64) (s : State) : Host.Outcome State Fault Refusal := monRun (monResp response) s

/-- The locked state (R520). -/
def relock (s : State) : State := s.modMon fun m => { m with unlocked := false }

/-- MON_LOCK (R520). -/
def execMonLock (s : State) : Host.Outcome State Fault Refusal := monRun (fun s => (relock s, none)) s

/-- MON_IDLE_RELOCK (R520): 1,800 s without a complete line. -/
def execMonIdleRelock (s : State) : Host.Outcome State Fault Refusal :=
  .next (if s.mon.unlocked then whenDue (s.mon.lineAt + sec 1800) relock s else s)

/-- DEV_EN_LOW (R520): DEV_EN has read 0 for 10 ms. -/
def execDevEnLow (s : State) : Host.Outcome State Fault Refusal := .next (relock (s.modPower fun p => { p with devEn := false }))

/-- CHALLENGE_EXPIRY (R519): 60 s; it counts as no attempt. -/
def execChallengeExpiry (s : State) : Host.Outcome State Fault Refusal :=
  .next (if s.mon.challenge.isSome then
      whenDue (s.mon.challengeAt + sec 60) (fun s => s.modMon fun m => { m with challenge := none }) s
    else s)

/-! ### The line (R512, R513) -/

/-- The rates that `baud` selects (R512). -/
def baudRates : List Nat := [115200, 230400, 460800, 921600, 1000000, 2000000, 3000000]

/-- `baud`: the new rate applies after the final line. -/
def monBaud (rate : Nat) (s : State) : State × MonEnd :=
  if baudRates.contains rate then (s.modMon fun m => { m with baud := rate, baudAt := some s.now }, none) else (s, some 0x0102)

/-- MON_BAUD (R512). -/
def execMonBaud (rate : Nat) (s : State) : Host.Outcome State Fault Refusal := monRun (monBaud rate) s

/-- BAUD_REVERT (R512): no complete line within 10 s of the change; a prompt is written. -/
def execBaudRevert (s : State) : Host.Outcome State Fault Refusal :=
  .next (match s.mon.baudAt with
    | some t => whenDue (t + sec 10) (fun s => monPrint 9 [b2n s.mon.unlocked] (s.modMon fun m => { m with baud := 115200, baudAt := none })) s
    | none => s)

/-- MON_LINE_REFUSED (R513, R516): a line that is too long never becomes complete; one that names no command is. -/
def execMonLineRefused (tooLong : Bool) (s : State) : Host.Outcome State Fault Refusal :=
  .next (if s.persist.fwUp then
      (if tooLong then finalLine (some 0x0101) (s.modMon fun m => { m with out := [] }) else finalLine (some 0x0100) (lineTaken s))
    else s)

/-! ### Mailbox requests (R520) -/

/-- A request of the catalogue as `mbx` sends it: its opcode, whether it acts on a named instance, and what it does. -/
def monOp (m : MonReq) : Nat × Bool × (Req → State → State × Ans) :=
  match m with
  | .getStatus => (0x0101, false, fun r s => opGetStatus r s)
  | .opStatus handle => (0x0102, false, fun r s => opOpStatus r handle s)
  | .echo octets => (0x0103, false, fun r s => opEcho r octets s)
  | .arbRead arb => (0x0104, false, fun r s => opArbRead r arb s)
  | .arbPrio arb idx prio => (0x0105, false, fun r s => opArbPrio r arb idx prio s)
  | .arbMode mode => (0x0106, false, fun r s => opArbMode r mode s)
  | .service declare => (0x0107, false, fun r s => opService r declare s)
  | .reset clearDram => (0x0201, true, fun r s => opReset r clearDram s)
  | .remove => (0x0202, true, fun r s => opRemove r s)
  | .stop => (0x0203, true, fun r s => opStop r s)
  | .start => (0x0204, true, fun r s => opStart r s)
  | .setShares mask share => (0x0205, true, fun r s => opSetShares r mask share s)
  | .setAllowance idx entry => (0x0207, true, fun r s => opSetAllowance r idx entry s)
  | .setAutoReset value => (0x0208, true, fun r s => opSetAutoReset r value s)
  | .setHoldoff ms => (0x0209, false, fun r s => opSetHoldoff r ms s)
  | .ptWrite cluster entry slot => (0x0210, false, fun r s => opPtWrite r cluster entry slot s)
  | .ptCommit mask periods phases => (0x0211, false, fun r s => opPtCommit r mask periods phases s)
  | .lockAssign lock owner index mgpOk => (0x0214, false, fun r s => opLockAssign r lock owner index mgpOk s)
  | .lockUnassign lock => (0x0215, false, fun r s => opLockUnassign r lock s)
  | .lockRead lock => (0x0216, false, fun r s => opLockRead r lock s)
  | .egqRegister queue addr size => (0x0218, true, fun r s => opEgqRegister r queue addr size s)
  | .rxringRegister addr size bufLen => (0x0219, true, fun r s => opRxringRegister r addr size bufLen s)
  | .rxringStats => (0x021A, true, fun r s => opRxringStats r s)
  | .stbCommit => (0x0301, false, fun r s => opStbCommit r s)
  | .learnPolicy port kind ports => (0x0303, false, fun r s => opLearnPolicy r port kind ports s)
  | .learnAnswer rec accept entry => (0x0304, false, fun r s => opLearnAnswer r rec accept entry s)
  | .portConfig port ctl vlan pcpMap maxFrame => (0x0305, false, fun r s => opPortConfig r port ctl vlan pcpMap maxFrame s)
  | .learnRead rec => (0x0307, false, fun r s => opLearnRead r rec s)
  | .portBypass force => (0x0308, false, fun r s => opPortBypass r force s)
  | .switchConfig c => (0x0309, false, fun r s => opSwitchConfig r c s)
  | .mirrorSession n ctl => (0x030A, false, fun r s => opMirrorSession r n ctl s)
  | .hostRxring ring addr size bufLen => (0x030B, false, fun r s => opHostRxring r ring addr size bufLen s)
  | .presetChange g preset => (0x0402, false, fun r s => opPresetChange r g preset s)
  | .subscribe g pos sub => (0x0404, false, fun r s => opSubscribe r g pos sub s)
  | .ringRegister ring addr slots words => (0x0405, true, fun r s => opRingRegister r ring addr slots words s)
  | .sceConfig ctl => (0x0406, false, fun r s => opSceConfig r ctl s)
  | .timeStatus => (0x0500, false, fun r s => opTimeStatus r s)
  | .timeConfig c => (0x0501, false, fun r s => opTimeConfig r c s)
  | .refSwitch dom => (0x0502, false, fun r s => opRefSwitch r dom s)
  | .stepTb ns => (0x0503, false, fun r s => opStep r ns s)
  | .trgAlloc owner => (0x0504, false, fun r s => opTrgAlloc r owner s)
  | .trgProgram k time period periodic dest en => (0x0505, false, fun r s => opTrgProgram r k time period periodic dest en s)
  | .trgFree k => (0x0506, false, fun r s => opTrgFree r k s)
  | .stampRing addr slots => (0x0507, true, fun r s => opStampRing r addr slots s)
  | .ppsConfig en gate width => (0x0508, false, fun r s => opPpsConfig r en gate width s)
  | .streamEn n en => (0x0601, false, fun r s => opStreamEn r n en s)
  | .streamRestart n => (0x0602, false, fun r s => opStreamRestart r n s)
  | .trigger mask code => (0x0603, true, fun r s => opTrigger r mask code s)
  | .acqConfig ctl => (0x0604, false, fun r s => opAcqConfig r ctl s)
  | .pairStatus => (0x0700, false, fun r s => opPairStatus r s)
  | .setClaim claim => (0x0701, false, fun r s => opSetClaim r claim s)
  | .pairConfig cguCtl cguMem ocuCtl mlkCtl => (0x0702, false, fun r s => opPairConfig r cguCtl cguMem ocuCtl mlkCtl s)
  | .switchBack unit => (0x0703, false, fun r s => opSwitchBack r unit s)
  | .clearTakeBlock => (0x0704, false, fun r s => opClearTakeBlock r s)
  | .returnStandby => (0x0705, false, fun r s => opReturnStandby r s)
  | .goOut => (0x0706, false, fun r s => opGoOut r s)
  | .tripAssign output inst => (0x0707, false, fun r s => opTripAssign r output inst s)
  | .keyLoad _ _ _ => (0x0800, false, fun _ s => refuse .notPermitted s)
  | .keyGenerate slot a => (0x0801, false, fun r s => opKeyGenerate r slot a s)
  | .keyErase slot => (0x0803, false, fun r s => opKeyErase r slot s)
  | .keyAttrRead slot => (0x0804, false, fun r s => opKeyAttrRead r slot s)
  | .keyAssign slot byMgp owner gen => (0x0805, false, fun r s => opKeyAssign r slot byMgp owner gen s)
  | .keyAttrWrite slot a lock derivable => (0x0806, false, fun r s => opKeyAttrWrite r slot a lock derivable s)
  | .verifyEntry n e => (0x0807, false, fun r s => opVerifyEntry r n e s)
  | .verifyEnable en => (0x0808, false, fun r s => opVerifyEnable r en s)
  | .faultRead block unit => (0x0900, false, fun r s => opFaultRead r block unit s)
  | .inject block unit arm kind mode pos pattern force => (0x0902, false, fun r s => opInject r block unit arm kind mode pos pattern force s)
  | .capture block unit latch re => (0x0903, false, fun r s => opCapture r block unit latch re s)
  | .setQuiet block unit ms => (0x0904, false, fun r s => opSetQuiet r block unit ms s)
  | .bucketSet code mode burst intervalUs => (0x0905, false, fun r s => opBucketSet r code mode burst intervalUs s)
  | .cursor2 alloc => (0x0906, false, fun r s => opCursor2 r alloc s)
  | .writeRecord code detail => (0x0908, false, fun r s => opWriteRecord r code detail s)
  | .evrConfig limitEn saveEn => (0x0909, false, fun r s => opEvrConfig r limitEn saveEn s)
  | .bankActivate bank => (0x0A01, false, fun r s => opBankActivate r bank s)
  | .bkiCommit => (0x0A03, false, fun r s => opBkiCommit r s)
  | .calConfig ctl => (0x0A05, false, fun r s => opCalConfig r ctl s)
  | .setSeason season force ret => (0x0B00, false, fun r s => opSetSeason r season force ret s)
  | .wakeConfig en timerS pattern => (0x0B01, false, fun r s => opWakeConfig r en timerS pattern s)
  | .loopConfig mask loop volt fabric => (0x0B02, false, fun r s => opLoopConfig r mask loop volt fabric s)
  | .indirectOp opcode => (opcode, false, fun _ s => refuse .badLength s)
  | .unknownOp opcode => (opcode, false, fun _ s => refuse .badOpcode s)

/-- `mbx` (R436, R447, R520): judged against the monitor's own tag cache; only in the unlocked state. -/
def monMbx (r : Req) (m : MonReq) (s : State) : State × MonEnd :=
  if !s.mon.unlocked then (s, some 0x0103)
  else
    let r := { r with src := .mon }
    let op := monOp m
    let v := judge r op.1 .yes op.2.1 s.mon.cache op.2.2 s
    let rec_ : List TagRec := if v.keep then [{ tag := r.tag, crc := r.crc, atNs := s.now, resp := v.resp }] else []
    if !v.st.persist.fwUp then (v.st, none)
    else
    let s := v.st.modMon fun m => { m with cache := liveCache m.cache s ++ rec_ }
    (monPrint 2 ([v.resp.status.code, b2n v.resp.dup] ++ v.resp.result) s, if v.resp.status.code ≤ 2 then none else some v.resp.status.code)

/-- MON_MBX (R520). -/
def execMonMbx (r : Req) (m : MonReq) (s : State) : Host.Outcome State Fault Refusal := monRun (monMbx r m) s

end Sys2Proof.Machine
end

