-- ==== Sys2Proof/Machine/Power.lean ====
section
/-!
DEFINITION. Machine/Power.lean: the commands of the supplies, the resets and the sensors (R499 to R508).
-/
namespace Sys2Proof.Machine
open Sys2Proof

/-- An internal power-fail is over once MAIN is good again and no thermal cut-off stands (R504, R508): the recorder goes on (R397), and a module reset
that waited for its save takes effect (R500). -/
def internalOver (s : State) : State :=
  if s.power.internalFail ∧ s.power.cutoffAt.isNone ∧ !s.power.disconnected then
    resetDue (saveReturns (s.modPower fun p => { p with internalFail := false }))
  else s

/-- MAIN is good (R356, R358, R508). `head` says whether a head's EEPROM answers (R5). At a first power-up BYP reads the head; from WINTER a held wake
or the return of MAIN begins SPRING; an internal power-fail is over. -/
def mainIsGood (head : Bool) (s : State) : State :=
  let s := if s.power.mainGood then s
    else coilCheck ((s.modPower fun p => { p with mainGood := true, mainOver := false, mainGoodAt := s.now, rampAt := s.now }).modHead fun h =>
      { h with present := head })
  if s.power.aonGood then
    let s := internalOver s
    if s.season.season = .winter then mainReturns s
    else if s.season.season = .spring ∧ s.persist.coldStep = 0 then headDetect s.head.present s else s
  else s

/-- MAIN is lost (R357, R503): with AON good the module enters WINTER with WINTER_CAUSE 1; a module reset no longer waits (R500). -/
def mainIsLost (s : State) : State :=
  let s := s.modPower fun p => { p with mainGood := false, internalFail := false, resetPend := false }
  if s.power.aonGood ∧ s.season.season ≠ .winter then winterEntry true s else s

/-- MAIN_GOOD (R502): above 10.5 V for 10 ms. Above 14.5 V the input is disconnected and treated as lost, until it is below 14.0 V. -/
def execMainGood (main : MainIn) (s : State) : Host.Outcome State Fault Refusal :=
  .next (if 14500 < main.mv then mainIsLost (s.modPower fun p => { p with mainOver := true })
    else if main.mv ≤ 10500 ∨ (s.power.mainOver ∧ 14000 ≤ main.mv) then s
    else mainIsGood main.head s)

/-- MAIN_LOST (R357, R502, R503): below 8.5 V. -/
def execMainLost (s : State) : Host.Outcome State Fault Refusal := .next (mainIsLost s)

/-- The effects of a power-fail warning (R102, R360, R397, R504): the coil is released at once and the recorder is saved. In SPRING the ramp is
abandoned and the module is in WINTER again, with its wake held until MAIN has been good for 100 ms. -/
def powerFail (internal : Bool) (s : State) : State :=
  let s := beginSave internal (coilOff s)
  if s.season.season = .spring ∧ s.power.aonGood then
    let wake := s.season.lastWake
    let s := (winterEntry false s).modSeason fun z => { z with wakeHeld := some wake }
    s.modPower fun p => { p with mainGoodAt := s.now }
  else s

/-- A pin that has fallen acts once it has been low for `d` ns (R498). Without AON only its level is noted. -/
def pinLow (d : Nat) (f : State → State) (s : State) : State := if s.power.aonGood then whenDue (s.now + d) f s else f s

/-- PFW_N_FALL (R397, R498, R504): PFW_N falls and stays low; pulses shorter than 2 us are ignored. -/
def execPfwNFall (s : State) : Host.Outcome State Fault Refusal :=
  .next (if s.power.pfwLow then s else pinLow 2000 (fun s => powerFail false (s.modPower fun p => { p with pfwLow := true })) s)

/-- PFW_N_RISE (R397): before MAIN is lost, the save completes, the ring unfreezes and POWER_RETURN is written. -/
def execPfwNRise (s : State) : Host.Outcome State Fault Refusal :=
  .next (if s.power.pfwLow then resetDue (saveReturns (s.modPower fun p => { p with pfwLow := false })) else s)

/-- INTERNAL_POWER_FAIL (R502, R504): MAIN below 10.2 V for 50 us while PFW_N is high. -/
def execInternalPowerFail (sag : SagIn) (s : State) : Host.Outcome State Fault Refusal :=
  .next (if sag.mv < 10200 ∧ 50 ≤ sag.us ∧ !s.power.pfwLow ∧ !s.power.internalFail ∧ s.power.mainGood then
      powerFail true (s.modPower fun p => { p with internalFail := true })
    else s)

/-- MOD_RESET_N low takes effect (R500): during a save it waits; the coil is released meanwhile (R102). -/
def resetFalls (s : State) : State :=
  let s := s.modPower fun p => { p with resetLow := true }
  if !s.power.aonGood then s
  else if s.evr.saveInto.isSome then coilOff (s.modPower fun p => { p with resetPend := true })
  else modReset s

/-- MOD_RESET_LOW (R498, R500): MOD_RESET_N falls and stays low; 10 us later it is a reset. -/
def execModResetLow (s : State) : Host.Outcome State Fault Refusal :=
  .next (if s.power.resetLow then s else pinLow 10000 resetFalls s)

/-- MOD_RESET_RELEASE (R499, R500): the unit ID is read, and a cold start follows from step 3. -/
def execModResetRelease (s : State) : Host.Outcome State Fault Refusal :=
  .next (if s.power.resetLow then
      let s := s.modPower fun p => { p with resetLow := false }
      if s.power.aonGood ∧ !s.power.resetPend then modReleased s else s
    else s)

/-- BAR0 returns to its reset contents, the registers of cursors 0 and 2 among them, and every mailbox pair of the host is reset (R444, R500). -/
def bar0Reset (s : State) : State :=
  (s.modEvr fun e => { e with cursors := e.cursors.zipIdx.map fun c => if c.2 = 0 ∨ c.2 = 2 then { seq := e.oldest } else c.1 }).modMbx fun m => { m with
    badAccess := 0, ready := false, pairs := [], evtTail := 0, evtHead := 0, evtLost := 0, lostDue := 0,
    evtMask := 0b111111111110, events := [], msixDue := [], msixAt := [], msixMask := 0xFFFFFFFFFFFF, msixPend := 0,
    slots := [], msixAddr := [], msixData := [], pci := {} }

/-- PERST_N (R500): only the PCI island is reset. After the release the link trains and MBX_READY rises again, where the firmware runs. -/
def execPerstN (low : Bool) (s : State) : Host.Outcome State Fault Refusal :=
  let s := s.modPower fun p => { p with perstLow := low }
  .next (if low then bar0Reset s else told s (s.modMbx fun m => { m with ready := s.persist.fwUp }))

/-! ### Sensors and rails -/

/-- A thermal cut-off (R508): the internal power-fail is raised, and MAIN is disconnected 20 ms later. -/
def cutOff (s : State) : State :=
  if s.power.cutoffAt.isSome then s
  else powerFail true (s.modPower fun p => { p with cutoffAt := some s.now, internalFail := true })

/-- The PMC's reading of the sensors while it is powered (R508). -/
def thermal (t : Int) (s : State) : State :=
  let s := s.modPower fun p => { p with tempMax := t, hotSince := if 120 < t then some (p.hotSince.getD s.now) else none }
  let s := if 105 < t ∧ !s.power.hot then
      raise { block := .pmc, kind := 11, cls := 3, persist := true } (s.modPower fun p => { p with hot := true })
    else if t ≤ 100 ∧ s.power.hot then conditionEnds .pmc 0 (s.modPower fun p => { p with hot := false })
    else s
  let long : Bool := match s.power.hotSince with | some x => decide (x + ms 10 ≤ s.now) | none => false
  if 125 < t ∨ long = true then cutOff s else s

/-- THERMAL_CHECK (R508): every 1 ms. After a cut-off MAIN reconnects at 95 C or less, and its return wakes the module (R358). -/
def execThermalCheck (temp : Int) (s : State) : Host.Outcome State Fault Refusal :=
  .next (if s.power.disconnected then
      (if temp ≤ 95 ∧ s.power.mainGood then
        s.modPower fun p => { p with disconnected := false, internalFail := false, tempMax := temp, hot := false, hotSince := none, mainGoodAt := s.now }
       else s.modPower fun p => { p with tempMax := temp })
    else if s.power.mainGood ∧ s.season.season ≠ .winter then thermal temp s
    else s)

/-- THERMAL_DISCONNECT (R508): 20 ms after the cut-off, as a loss of MAIN. -/
def execThermalDisconnect (s : State) : Host.Outcome State Fault Refusal :=
  .next (match s.power.cutoffAt with
    | some t => whenDue (t + ms 20) (fun s =>
        let s := s.modPower fun p => { p with disconnected := true, cutoffAt := none, resetPend := false }
        if s.season.season = .winter then s.modSeason fun z => { z with winterCause := true } else winterEntry true s) s
    | none => s)

/-- The rail is on (R505): those from AON while AON is good, those from MAIN while the MAIN islands have their supply. -/
def railOn (r : Rail) (s : State) : Bool := s.power.aonGood && (r.ofIsland || r == .v3a || s.railsOn)

/-- RAIL_OUT_OF_BAND (R505): by more than 5 % for 10 us, a SUPPLY finding of class F: of the PMC, or of the BKI for its own rails (R354). -/
def execRailOutOfBand (rail : Rail) (us : Nat) (s : State) : Host.Outcome State Fault Refusal :=
  .next (if 10 ≤ us ∧ railOn rail s then
      raise { block := if rail.ofIsland then .bki else .pmc, kind := 11, cls := 3, persist := true } (railBad rail s)
    else s)

/-- RAIL_IN_BAND (R372): PERSIST falls once no rail of the finding's block is out of range; a PSC that waited for its rail starts (R229). -/
def execRailInBand (rail : Rail) (s : State) : Host.Outcome State Fault Refusal :=
  let s := s.modPower fun p => { p with badRails := p.badRails.filter (· ≠ rail) }
  .next (if rail.ofIsland then conditionEnds .bki 0 s
    else
      let s := conditionEnds .pmc 0 s
      match rail with
      | .vc k => if s.persist.fwUp ∧ s.season.season ≠ .winter ∧ k < 8 ∧ !(s.psc k).en then startPsc k s else s
      | _ => s)

end Sys2Proof.Machine
end

