-- ==== Sys2Proof/Machine/Stream.lean ====
section
/-!
DEFINITION. Machine/Stream.lean: the events of the stream table and of learning (R115, R120 to R127).
-/
namespace Sys2Proof.Machine
open Sys2Proof

/-- IDLE_COUNT of a stream entry advances (R115). -/
def StreamEntry.tick (e : StreamEntry) : StreamEntry :=
  if e.state = .active then
    let n := satAdd 16 e.idleCount 1
    let hit := decide (e.idleLimit ≠ 0) && decide (10 * e.idleLimit ≤ n) && !e.idle
    { e with idleCount := n, idle := e.idle || hit, idleDue := e.idleDue || hit }
  else e

/-- IDLE_COUNT of a forwarding entry advances; a LEARNED one idle for FWD_IDLE drains (R120). -/
def FwdEntry.tick (e : FwdEntry) (limit q : Nat) : FwdEntry :=
  if e.state = .active then
    let n := satAdd 16 e.idleCount 1
    if e.learned ∧ !e.static ∧ limit ≤ n then { e with idleCount := n, state := .draining : FwdEntry }.settle q
    else { e with idleCount := n }
  else e

/-- IDLE_TICK (R115, R120): every 100 ms. -/
def execIdleTick (s : State) : Host.Outcome State Fault Refusal :=
  .next (whenDue (s.sw.idleAt + ms 100) (fun s =>
    let q := s.now + holdoffNs s
    s.modSw fun w => { w with
      streams := w.streams.map fun p => (p.1, p.2.tick), fwd := w.fwd.map fun p => (p.1, p.2.tick (10 * w.fwdIdleS) q), idleAt := s.now }) s)

/-- IDLE event (R451). -/
def idleEvent (idx removed : Nat) (s : State) : State := emit 0x03F1 none 0 [idx, (s.stream idx).gen, removed] s

/-- IDLE_ENTRY_REMOVE (R115): the firmware removes an idle LEARNED entry that is not STATIC, and reports any other. -/
def execIdleEntryRemove (idx : Nat) (s : State) : Host.Outcome State Fault Refusal :=
  let e := s.stream idx
  .next (if isStreamIdx idx && e.state == .active && e.idle && e.idleDue && s.persist.fwUp then
      let s := s.setStream idx fun e => { e with idleDue := false }
      if e.learned && !e.static then commitNow [{ idx := idx, op := .remove }] (idleEvent idx 1 s) else idleEvent idx 0 s
    else s)

/-- ENTRY_CHANGE_APPLY (R123, R124). -/
def execEntryChangeApply (s : State) : Host.Outcome State Fault Refusal := .next (applyOldest s)

/-- A stream entry that has become FREE names no verification entry any more, and its claim record is cleared (R246, R422). -/
def verForget (idx : Nat) (s : State) : State :=
  (s.modKsu fun k => { k with ver := k.ver.filter fun p => p.2.entry ≠ idx }).modCgu fun c => { c with recs := c.recs.del idx }

/-- ENTRY_HOLDOFF_END (R125): the slot is FREE; its generation stays. -/
def execEntryHoldoffEnd (idx : Nat) (s : State) : Host.Outcome State Fault Refusal :=
  .next (if isStreamIdx idx && (s.stream idx).state == .quarantine then
      whenDue (s.stream idx).quarEnd (fun s => verForget idx (s.setStream idx fun e => { gen := e.gen })) s
    else if isFwdIdx idx && (s.fwdE idx).state == .quarantine then
      whenDue (s.fwdE idx).quarEnd (fun s => s.setFwd idx fun e => { gen := e.gen }) s
    else s)

/-- More than 10 % above the declared RATE in one second (R122). -/
def StreamEntry.overRate (e : StreamEntry) : Bool := decide (e.rate * 100000 * 11 < (e.matchOctets - e.lastOctets) * 8 * 10)

/-- Invalidated entries are restored from the MGP's shadow (R58). A forwarding entry learned meanwhile for the key of one drains (R111). -/
def restoreInvalid (s : State) : State :=
  let q := s.now + holdoffNs s
  let keys := (s.sw.fwd.filter fun p => p.2.invalid && p.2.state == .active).map fun p => p.2.key
  s.modSw fun w => { w with
    streams := w.streams.map fun p => (p.1, { p.2 with invalid := false }),
    fwd := w.fwd.map fun p => (p.1,
      if p.2.invalid then { p.2 with invalid := false } else if p.2.state = .active ∧ keys.contains p.2.key then p.2.drain q else p.2) }

/-- RATE_CHECK (R122): once per second. Invalidated entries are restored (R58). -/
def execRateCheck (s : State) : Host.Outcome State Fault Refusal :=
  .next (if s.persist.fwUp then
      whenDue (s.sw.rateAt + sec 1) (fun s =>
        let bad := s.sw.streams.filter fun p => p.2.state == .active && p.2.overRate
        let s := bad.foldl (fun s p => raise { block := .stb, kind := 10, cls := 1, access := 0, addr := p.1 } s) s
        restoreInvalid (s.modSw fun w => { w with
          streams := w.streams.map fun p => (p.1, { p.2 with lastOctets := p.2.matchOctets }), rateAt := s.now })) s
    else s)

/-- An HSR or PRP supervision frame, version 1 (R127): Ethertype 0x88FB, path 0, its sequence number, a life-check TLV with the source. -/
def supervisionFrame (src seq mode : Nat) : List Byte :=
  beBytes 6 0x01154E000100 ++ beBytes 6 src ++ beBytes 2 0x88FB ++ beBytes 2 1 ++ beBytes 2 seq ++ [BitVec.ofNat 8 mode, 6] ++ beBytes 6 src
    ++ [0, 0]

/-- SUPERVISION_SEND (R127): every 2,000 ms on each redundant pair. -/
def execSupervisionSend (s : State) : Host.Outcome State Fault Refusal :=
  .next (if s.persist.fwUp then
      whenDue (s.sw.superAt + ms 2000) (fun s =>
        let src := s.blockMac 8
        let s := s.modSw fun w => { w with superAt := s.now }
        let s := if s.sw.hsrEn then mgpSend (supervisionFrame src s.sw.hsrSeq 23) 4 (s.port 0).pvid [0] s else s
        if s.sw.prpEn then mgpSend (supervisionFrame src s.sw.prpSeq 20) 4 (s.port 4).pvid [4] s else s) s
    else s)

/-- NODE_FORGET (R127): a node not heard of for 60 s. -/
def execNodeForget (mac : BitVec 48) (s : State) : Host.Outcome State Fault Refusal :=
  .next (match s.sw.nodes.find? fun n => n.mac == mac with
    | some n => whenDue (n.lastSeen + sec 60) (fun s => s.modSw fun w => { w with nodes := w.nodes.filter fun n => n.mac ≠ mac }) s
    | none => s)

/-- The event code of a refused learn event (R122, R387; log entry 5). -/
def learnRefusedCode : Nat := 0x020

/-- A learn event refused by the firmware: recorded, and the record closed (R121, R122). -/
def learnRefuse (r : LearnRec) (why : Nat) (s : State) : State :=
  learnClose r.key (note .mgp 0 learnRefusedCode 0 .none (leBytes 16 r.key.toNat ++ leBytes 4 why) s)

/-- The firmware answers a learn event by the policy of the record's lowest ingress port (R122). The admitted entry has the record's ports as
INGRESS_MASK and IDLE_LIMIT 0 (DESIGN CHOICE, log entry 171). -/
def learnAnswered (r : LearnRec) (s : State) : State :=
  let k := ((List.range 8).find? fun k => r.ports.getLsbD k).getD 0
  let pol := s.sw.policy.get k {}
  if pol.kind = 1 then
    let sv := (r.key >>> 32).setWidth 16 == (0x88BA : BitVec 16)
    let e : StreamEntry := { key := r.key, action := 1, cls := if sv then 6 else 7, ingress := r.ports, ports := pol.ports,
                             rate := learnedRate r }
    match admitLearned e s with | .inl c => learnRefuse r c s | .inr (_, s) => s
  else if pol.kind = 2 then learnRefuse r 0 s
  else emit 0x03F0 none 0 [r.key.toNat, r.ports.toNat, r.id, r.stampAt, min r.evFrames (2 ^ 32 - 1), min r.evOctets (2 ^ 32 - 1), r.epoch] s

/-- LEARN_EVENT (R121, R122): 100 ms after the record's first frame. -/
def execLearnEvent (key : BitVec 128) (s : State) : Host.Outcome State Fault Refusal :=
  .next (match s.sw.learn.find? fun r => r.key == key with
    | some r =>
      if r.eventAt.isSome then s
      else
        whenDue (r.firstAt + ms 100) (fun s =>
          let r := { r with eventAt := some s.now, evFrames := r.frames, evOctets := r.octets }
          let s := swCount 3 (s.modSw fun w => { w with learn := w.learn.map fun x => if x.key = key then r else x })
          if s.persist.fwUp then learnAnswered r s else s) s
    | none => s)

/-- LEARN_RECORD_CLOSE (R121): 10 s after its learn event. -/
def execLearnRecordClose (key : BitVec 128) (s : State) : Host.Outcome State Fault Refusal :=
  .next (match s.sw.learn.find? fun r => r.key == key with
    | some r => match r.eventAt with | some t => whenDue (t + sec 10) (learnClose key) s | none => s
    | none => s)

end Sys2Proof.Machine
end

