-- ==== Sys2Proof/Machine/Receive.lean ====
section
/-!
DEFINITION. Machine/Receive.lean: a frame received by a port (R72 to R76, R82), the redundancy rules (R127 to R130), the order of
classification (R108 to R121), claim filtering (R244, R246, R248), verification (R421) and the transparent clock (R278, R285 to R288).
-/
namespace Sys2Proof.Machine
open Sys2Proof

/-! ### At the port (R72, R76, R92) -/

/-- The length counter of a frame of 64 octets to MAX_FRAME (R92). -/
def sizeCounter (l : Nat) : Nat :=
  if l ≤ 64 then 12 else if l ≤ 127 then 13 else if l ≤ 255 then 14 else if l ≤ 511 then 15 else if l ≤ 1023 then 16
  else if l ≤ 1518 then 17 else 18

/-- The counter of a frame that the port discards for its length or FCS (R72, R92); none for a good frame. -/
def badFrame (l maxFrame : Nat) (fcsOk : Bool) : Option Nat :=
  if l < 64 then some (if fcsOk then 6 else 7)
  else if maxFrame < l then some (if fcsOk then 5 else 8)
  else if fcsOk then none else some 4

/-- A good frame is counted (R92): broadcast frames are counted apart from multicast ones. -/
def goodFrame (k : Nat) (f : List Byte) (s : State) : State :=
  let s := portCount k 1 (portCount k 0 s) (frameLen f)
  if dstMac f = broadcast then portCount k 3 s else if isGroup (dstMac f) then portCount k 2 s else s

/-- VLAN ID of a received frame (R76). -/
def rxVid (p : Port) (f : List Byte) : Nat := if isTagged f ∧ tci f % 4096 ≠ 0 then tci f % 4096 else p.pvid

/-- PCP of a received frame (R76). -/
def rxPcp (p : Port) (f : List Byte) : Nat := if isTagged f then tci f / 8192 else p.defPcp

/-- DEI of a received frame (R77). -/
def rxDei (f : List Byte) : Bool := isTagged f && tci f / 4096 % 2 == 1

/-! ### MAC control (R82) -/

/-- The destination, an Ethertype 0x8808 frame's own or the reserved one, makes opcode 1 a pause frame (R82). -/
def pauseDest (k : Nat) (f : List Byte) (s : State) : Bool := dstMac f == 0x0180C2000001 || dstMac f == s.blockMac k

/-- A pause frame acts at its pause point, 0.2 us from now (R82). -/
def pauseAct (k q : Nat) (s : State) : State :=
  s.setPort k fun p => let p := p.settled s.now; { p with pauseNext := p.pauseNext ++ [(s.now + 200, q)] }

/-- A MAC control frame (R82): counted, never forwarded. -/
def macControl (k : Nat) (f : List Byte) (s : State) : State :=
  let s := portCount k 9 s
  let o := etherOff f
  if beAt f (o + 2) 2 ≠ 1 then portCount k 11 s
  else if pauseDest k f s then
    let s := portCount k 10 s
    if (s.port k).pauseRx then pauseAct k (beAt f (o + 4) 2) s else s
  else s

/-! ### Redundancy (R127 to R130) -/

/-- The frame came on a ring port in HSR mode. -/
def State.hsrPort (s : State) (k : Nat) : Bool := decide (k < 2) && s.sw.hsrEn

/-- The frame came on a LAN port in PRP mode. -/
def State.prpPort (s : State) (k : Nat) : Bool := (k == 4 || k == 5) && s.sw.prpEn

/-- What duplicate discard decides of a frame (R129): along the ring, and whether local copies are still to be made. -/
structure DupOut where
  /-- the copy came this way before. -/
  drop : Bool := false
  /-- it may go along the ring. -/
  pass : Bool := true
  /-- local copies and copies to other ports are made. -/
  copies : Bool := true
deriving DecidableEq, Repr

/-- The window of a source moved for sequence number `q` (R129); the second part: older than the window. -/
def FwdEntry.window (e : FwdEntry) (idle q : Nat) : FwdEntry × Bool :=
  let e : FwdEntry := if 4 ≤ idle then { e with seenA := 0, seenB := 0, dupLast := BitVec.ofNat 16 q } else e
  let d := (q + 65536 - e.dupLast.toNat) % 65536
  if 1 ≤ d ∧ d ≤ 32767 then
    ({ e with seenA := if d < 64 then e.seenA <<< d else 0, seenB := if d < 64 then e.seenB <<< d else 0, dupLast := BitVec.ofNat 16 q }, false)
  else (e, d ≠ 0 && decide (63 < 65536 - d))

/-- Bit `j` of the side a copy came on, and of the other side. -/
def FwdEntry.seen (e : FwdEntry) (sideB : Bool) (j : Nat) : Bool × Bool :=
  if sideB then (e.seenB.getLsbD j, e.seenA.getLsbD j) else (e.seenA.getLsbD j, e.seenB.getLsbD j)

/-- The copy is noted on its side (R129). -/
def FwdEntry.mark (e : FwdEntry) (sideB : Bool) (j : Nat) : FwdEntry :=
  if sideB then { e with seenB := setBit e.seenB j true } else { e with seenA := setBit e.seenA j true }

/-- Duplicate discard of sequence number `q` on forwarding entry `i` of the source, whose IDLE_COUNT was `idle` (R129). -/
def dupCheck (ptp : Bool) (k q idle i : Nat) (s : State) : DupOut × State :=
  let (e, old) := (s.fwdE i).window idle q
  let s := s.setFwd i fun _ => e
  if old then ({}, swCount 10 s)
  else
    let j := (e.dupLast.toNat + 65536 - q) % 65536
    let b := k == 1 || k == 5
    let (mine, other) := e.seen b j
    if mine then ({ drop := true, pass := false, copies := false }, swCount 9 s)
    else
      let s := s.setFwd i fun e => e.mark b j
      if other && !ptp then ({ copies := false }, swCount 8 s) else ({}, s)

/-- Duplicate discard of a frame with a redundancy sequence number (R129): a source without entry is counted, delivered, and not
passed along the ring. Of a PTP message only the circulation check applies (R287): its second copy is a message of its own. -/
def dupDiscard (ptp : Bool) (k : Nat) (seq : Option Nat) (src : Option (Nat × Nat)) (s : State) : DupOut × State :=
  match seq with
  | none => ({}, s)
  | some q => match src with
    | some (i, idle) => dupCheck ptp k q idle i s
    | none => ({ pass := false }, swCount 11 s)

/-! ### Verification and claims (R244, R246, R421) -/

/-- The authentication extension of a frame, where it carries one (R418, R421). -/
def extOf (f : List Byte) : Option (List Byte) :=
  if isProt f ∧ extLen f ≠ 0 then
    match apduEnd f with
    | some e => if e + extLen f ≤ f.length then some (slice f e (extLen f)) else none
    | none => none
  else none

/-- The slot can serve verification: it holds a usable value of a MAC algorithm (R420, R421). -/
def Slot.verifies (k : Slot) : Bool := k.valid && !k.unusable && (k.use == 1 || (k.use == 2 && decide (k.invCount < 2 ^ 64 - 1)))

/-- The authentication value that ends extension `x` of a frame is the one of slot n (R419, R421). -/
def macOk (f x : List Byte) (n : Nat) (s : State) : Bool :=
  let k := s.slot n
  let t := tagOctets k.tag
  let o := etherOff f + 2
  k.authValue (s.slotValue n) (Config.extIv x) (slice f o ((apduEnd f).getD o + x.length - t - o)) == x.drop (x.length - t)

/-- The KSU counter of a frame's verification (R421): 1 and 5 deliver, the others drop. -/
def verifyOutcome (f : List Byte) (v : VerEntry) (s : State) : Nat :=
  match extOf f with
  | none => if v.require then 4 else 5
  | some x =>
    let ks := [v.slotA, v.slotB].filter fun n => (s.slot n).keyId == Config.extKeyId x && (s.slot n).verifies
    if ks = [] then 3
    else
      let priv := Config.extPrivate x
      let same := priv == [] || (match claimOf (beforeRct f) with | some t => priv == beBytes 8 t.toNat | none => false)
      if same && ks.any fun n => macOk f x n s then 1 else 2

/-- Verification of a frame of stream entry `i` (R421, R422): delivered, and the counter raised. -/
def verifyFrame (i : Nat) (f : List Byte) (s : State) : Bool × State :=
  if s.ksu.verifyEn then
    match s.ksu.ver.find? fun p => p.2.valid && p.2.entry == i with
    | some p =>
      let c := verifyOutcome f p.2 s
      (c == 1 || c == 5, s.modKsu fun k => { k with live := bump k.live c })
    | none => (true, s)
  else (true, s)

/-- A claim record meets a frame's value (R244): accepted, and the record after it. -/
def claimTake (r : Option ClaimRec) (memMs v now : Nat) : Bool × Option ClaimRec :=
  match r with
  | none => (true, some { h := v, atNs := now })
  | some r =>
    if r.atNs + ms memMs ≤ now ∨ r.h ≤ v then (true, some { h := v, atNs := now }) else (false, some r)

/-- The claim rule on a frame of stream entry `i` (R244, R246): accepted, and the state after it. -/
def claimFilter (i : Nat) (f : List Byte) (s : State) : Bool × State :=
  match (if s.cgu.claimRxEn then claimOf (beforeRct f) else none) with
  | none => (true, s)
  | some t =>
    if trailerClaim t = 0 then (false, s.modCgu fun c => { c with live := bump c.live 8 })
    else
      let (ok, r) := claimTake (if s.cgu.recs.has i then some (s.cgu.recs.get i {}) else none) s.cgu.claimMemMs (trailerClaim t * 16 + trailerUnit t) s.now
      (ok, s.modCgu fun c => { c with
        recs := match r with | some r => c.recs.set i r | none => c.recs, live := if ok then c.live else bump c.live 8 })

/-- A received trailer with the own unit ID from a source that is not the module's own (R248). -/
def idSeen (f : List Byte) (s : State) : State :=
  match claimOf (beforeRct f) with
  | some t => if trailerUnit t = s.cgu.unitId ∧ s.cgu.unitId ≠ 0 ∧ !s.ownMac (srcMac f) then idConflict s else s
  | none => s

/-! ### Classification (R108 to R121) -/

/-- What classification gives a frame (R112 to R119): ports, other destinations, class, ageing code, entry and generation, mirror
session of its flow, and whether port mirrors apply. -/
structure Classified where
  /-- ports that receive a copy. -/
  ports : List Nat := []
  /-- other destinations. -/
  dests : List Dest := []
  /-- traffic class. -/
  cls : Nat := 0
  /-- AGE_CODE of the entry. -/
  ageCode : Nat := 0
  /-- entry index. -/
  entry : Nat := 65535
  /-- entry generation. -/
  gen : Nat := 0
  /-- mirror session of the flow. -/
  flow : Option Nat := none
  /-- copies other than along the ring may be made. -/
  copies : Bool := true
deriving DecidableEq, Repr

/-- The destinations of a subscriber bitmap (R116). -/
def SubBitmap.dests (b : SubBitmap) : List Dest :=
  (if b.sce then [.sce] else []) ++ (if b.acq then [.acq] else []) ++ (if b.mgp then [.mgp] else [])
    ++ (if b.host then [.host b.hostRing] else []) ++ ((maskList b.inst).map Dest.inst)

/-- An entry's actions (R112): DROP overrides the others. -/
def StreamEntry.actions (e : StreamEntry) (i : Nat) (s : State) : Classified :=
  let c : Classified := { cls := e.cls, ageCode := e.ageCode, entry := i, gen := e.gen }
  if e.action.getLsbD 3 then c
  else { c with
    ports := if e.action.getLsbD 0 then maskList e.ports else []
    dests := if e.action.getLsbD 1 ∧ e.subRef ≠ 0 then (s.sw.bitmaps.get e.subRef {}).dests else []
    flow := if e.action.getLsbD 2 then some e.mirSession else none }

/-- A match is counted and ends idleness (R112, R115). -/
def StreamEntry.matched (e : StreamEntry) (octets : Nat) : StreamEntry :=
  { e with matchFrames := satAdd 64 e.matchFrames 1, matchOctets := satAdd 64 e.matchOctets octets, idleCount := 0, idle := false }

/-- Step 3 (R108, R112, R113, R246, R421): a frame whose key an ACTIVE stream entry holds. -/
def streamStep (k i cls0 : Nat) (f : Stored) (s : State) : Classified × State :=
  let e := s.stream i
  if !e.ingress.getLsbD k then
    ({ cls := cls0 }, s.setStream i fun e => { e with wrongPort := satAdd 16 e.wrongPort 1 })
  else
    let s := s.setStream i fun e => e.matched f.rxLen
    let (v, s) := verifyFrame i f.octets s
    if !v then ({ cls := e.cls, ageCode := e.ageCode, entry := i, gen := e.gen, copies := false }, s)
    else
      let (a, s) := claimFilter i f.octets s
      if a then (e.actions i s, s) else ({ cls := e.cls, ageCode := e.ageCode, entry := i, gen := e.gen, copies := false }, s)

/-- The TARGET of a forwarding entry (R117). -/
def FwdEntry.targetDests (e : FwdEntry) : List Dest :=
  if e.targetType = 1 then [.mgp] else if e.targetType = 2 then [.host (e.target % 16)] else if e.targetType = 3 then [.inst e.target] else []

/-- Step 4 (R118): a frame whose destination a forwarding entry holds. -/
def fwdStep (k i cls0 : Nat) (s : State) : Classified :=
  let e := s.fwdE i
  let c : Classified := { cls := cls0, entry := i, gen := e.gen }
  if e.dropDst then c else { c with ports := (maskList e.ports).filter (· ≠ k), dests := e.targetDests }

/-- Steps 3 to 5 (R108, R119, R121). -/
def classify (k : Nat) (f : Stored) (s : State) : Classified × State :=
  let cls0 := (s.port k).classOf f.pcp
  let key := streamKey f.octets f.vid
  match streamLookup key s with
  | some i => streamStep k i cls0 f s
  | none => match fwdLookup (fwdKey (dstMac f.octets) f.vid) s with
    | some i => (fwdStep k i cls0 s, s)
    | none =>
      if isProt f.octets then ({ cls := cls0, copies := false }, learnFrame k key f s)
      else ({ cls := cls0, ports := (maskList (s.sw.flood.getD k 0)).filter (· ≠ k) }, s)

/-! ### Copies (R128, R130, R131, R136) -/

/-- The destination address has a TARGET in the forwarding table and is unicast (R128). -/
def hasTarget (f : Stored) (s : State) : Bool :=
  !isGroup (dstMac f.octets) && (match fwdLookup (fwdKey (dstMac f.octets) f.vid) s with | some i => (s.fwdE i).targetType != 0 | none => false)

/-- Ports that a frame received on `k` may have copies on (R128, R130): never along the ring or across the LANs otherwise than by
those rules. -/
def allowedPorts (k : Nat) (ps : List Nat) (s : State) : List Nat :=
  ps.filter fun j => !(s.hsrPort k && decide (j < 2)) && !(s.prpPort k && (j == 4 || j == 5))

/-- The copy passed along the ring (R128). -/
def ringCopy (k cls ageCode : Nat) (s : State) : Dest := .port (1 - k) { cls := cls, limitUs := ageLimit s cls ageCode, hsrPass := true }

/-- Supervision frames of the redundant pair that they came on are delivered to the MGP (R108). -/
def supervision (k : Nat) (f : Stored) (s : State) : Bool := etherType f.octets == 0x88FB && (s.hsrPort k || s.prpPort k)

/-- The frame is stored with all its copies (R131). `pass`: along the ring; `c`: what classification gives. A frame that classification gives no
copies, by DROP_DST too, still has its mirror copies and its copy along the ring (log entry 56). The SRC_TX
mirror of a copy is made whether or not the port takes the copy itself (DESIGN CHOICE, log entry 173). -/
def storeCopies (k : Nat) (pass : Bool) (c : Classified) (f : Stored) (s : State) : State :=
  let ps := if c.copies then allowedPorts k c.ports s else []
  let (rp, s) := redPorts ps s
  let out := rp.map fun x => Dest.port x.1 { cls := c.cls, limitUs := ageLimit s c.cls c.ageCode, redSeq := x.2 }
  let ring := if pass then [ringCopy k c.cls c.ageCode s] else []
  let near := if c.copies then c.dests else []
  let tx := rp.map (fun x => x.1) ++ (if pass then [1 - k] else [])
  let mir := mirrorDests (if c.copies then some k else none) tx (if c.copies then c.flow else none) c.ageCode s
  storeFrame { f with cls := c.cls } c.entry c.gen (ring ++ out ++ near ++ mir) s

/-- The switch decides a frame that is no PTP message (R108 steps 2 to 5). `d`: duplicate discard's decision. The second copy of a frame counts
for no entry and no learn record: its first copy did (R121, R129; log entry 148). -/
def switchFrame (k : Nat) (d : DupOut) (f : Stored) (s : State) : State :=
  let (c, t) := classify k f s
  let s := if d.copies then t else s
  let c := { c with copies := c.copies && d.copies }
  let c := if supervision k f s ∧ d.copies ∧ !c.dests.contains .mgp then { c with dests := c.dests ++ [.mgp], copies := true } else c
  storeCopies k (s.hsrPort k && d.pass && !hasTarget f s) c f s

/-- Step 2 (R108): a frame to one of the sixteen reserved addresses. LLDP goes to the MGP, and to the analysis ports that mirror its port (R136). -/
def reservedFrame (k : Nat) (f : Stored) (s : State) : State :=
  if etherType f.octets = 0x88CC then
    storeFrame { f with cls := (s.port k).classOf f.pcp } 0xFFFF 0 (.mgp :: mirrorDests (some k) [] none 0 s) s
  else swCount 1 s

/-- The destination is 01-80-C2-00-00-00 to 01-80-C2-00-00-0F. -/
def reservedDest (f : List Byte) : Bool := dstMac f / 16 == 0x0180C200000

/-! ### The time base unit (R278, R285 to R288) -/

/-- Octets that a message of a PTP type requires (IEEE 1588). -/
def ptpLen (t : Nat) : Nat :=
  if t = 2 ∨ t = 3 ∨ t = 9 ∨ t = 10 then 54 else if t = 11 then 64 else if t = 13 then 48 else if t = 0 ∨ t = 1 ∨ t = 8 ∨ t = 12 then 44 else 34

/-- The message is accepted (R278): version 2, minor version 0 or 1, as long as its type requires. -/
def ptpAccepted (f : List Byte) : Bool :=
  let o := etherOff f + 2
  let v := beAt f (o + 1) 1
  let n := ptpLen (beAt f o 1 % 16)
  v % 16 == 2 && decide (v / 16 ≤ 1) && decide (n ≤ beAt f (o + 2) 2) && decide (o + n ≤ f.length)

/-- messageType. -/
def ptpType (f : List Byte) : Nat := beAt f (etherOff f + 2) 1 % 16

/-- A peer-delay message (R285). -/
def isPdelay (f : List Byte) : Bool := ptpType f == 2 || ptpType f == 3 || ptpType f == 10

/-- A Pdelay_Req is answered (R288), where it was sent to the peer-delay address (R278): the answer carries its number, its sender and its
correctionField. -/
def pdelayAnswer (k : Nat) (f : List Byte) (s : State) : State :=
  let p := s.ptp k
  let o := etherOff f + 2
  if p.pdelayEn ∧ ptpType f = 2 ∧ dstMac f = pdelayAddr then
    pdSend { port := k, resp := true, domain := beAt f (o + 4) 1, pcp := p.pcp, untagged := p.untagged, seq := beAt f (o + 30) 2,
             corr := signed 64 (beAt f (o + 8) 8), asker := beAt f (o + 20) 10, arrived := s.now } s
  else s

/-- The ports that a PTP message of port `k` is forwarded to (R285), along the ring apart. -/
def ptpPorts (k : Nat) (s : State) : List Nat :=
  allowedPorts k ((maskList (s.ptp k).fwdMask).filter fun j => j ≠ k ∧ (s.ptp j).ptpEn ∧ (s.port j).link) s

/-- A PTP message is forwarded (R285, R287): into the ring with one HSR tag, along it under R128; on P4 and P5 each port alone, and without the
trailer it came with. -/
def ptpForward (k : Nat) (d : DupOut) (f : Stored) (s : State) : State :=
  let cls := (s.ptp k).tcClass
  let f := { f with rct := none }
  let (ring, s) := redPorts ((ptpPorts k s).filter fun j => j < 2) s
  let rp := ring ++ (((ptpPorts k s).filter fun j => 2 ≤ j).map fun j => (j, none))
  let out := rp.map fun x => Dest.port x.1 { cls := cls, limitUs := ageLimit s cls 0, redSeq := x.2 }
  let pass := s.hsrPort k && d.pass
  let along := if pass then [ringCopy k cls 0 s] else []
  let mir := mirrorDests (some k) (rp.map (fun x => x.1) ++ (if pass then [1 - k] else [])) none 0 s
  storeFrame f 0xFFFF 0 (along ++ out ++ mir) s

/-- Step 1 (R108): the TBU takes a PTP message of P0 to P5. -/
def ptpFrame (k : Nat) (d : DupOut) (f : Stored) (s : State) : State :=
  if !(s.ptp k).ptpEn || !ptpAccepted f.octets then tbuCount 9 s
  else if isPdelay f.octets then pdelayAnswer k f.octets (storeFrame f 0xFFFF 0 (mirrorDests (some k) [] none 0 s) s)
  else if d.drop then s
  else ptpForward k d f s

/-! ### The whole path -/

/-- Whether the frame is a PTP message of an optical port. -/
def isPtp (k : Nat) (f : List Byte) : Bool := decide (k < 6) && etherType f == 0x88F7

/-- The source is learned and its DROP_SRC is read (R117, R120): discarded, the source's entry with its IDLE_COUNT before this frame, and
the state. -/
def learnSource (k : Nat) (f : Stored) (s : State) : Bool × Option (Nat × Nat) × State :=
  let key := fwdKey (srcMac f.octets) f.vid
  let idle := match fwdLookup key s with | some i => (s.fwdE i).idleCount | none => 0
  let s := sourceLearn k (srcMac f.octets) f.vid s
  match fwdLookup key s with
  | some i => ((s.fwdE i).dropSrc, some (i, idle), s)
  | none => (false, none, s)

/-- A frame that the redundancy rules let through is classified (R108). `seq`: its redundancy sequence number. -/
def accepted (k : Nat) (seq : Option Nat) (f : Stored) (s : State) : State :=
  let (gone, src, s) := learnSource k f s
  if gone then swCount 7 s
  else if isPtp k f.octets then
    let (d, s) := if s.hsrPort k then dupDiscard true k seq src s else ({}, s)
    ptpFrame k d f s
  else if reservedDest f.octets then reservedFrame k f s
  else if malformed f.octets then swCount 0 s
  else
    let (d, s) := dupDiscard false k seq src s
    if d.drop then s else switchFrame k d f s

/-- A frame on a ring port in HSR mode (R127, R128): without tag only peer delay passes; a wrong LSDU size and the module's own frames
end here. -/
def ringFrame (k : Nat) (f : Stored) (s : State) : State :=
  match hsrTag f.octets with
  | none => if isPtp k f.octets ∧ isPdelay f.octets then accepted k none f s else swCount 13 s
  | some t =>
    if !lsduOk f.octets (hsrSize t) then swCount 14 s
    else if s.ownMac (srcMac f.octets) then swCount 12 s
    else accepted k (some (hsrSeq t)) { f with octets := unHsr f.octets, hsr := some t } s

/-- A frame on a LAN port in PRP mode (R130). A LanId that is neither 0xA nor 0xB is a wrong one (DESIGN CHOICE, log entry 172). -/
def lanFrame (k : Nat) (f : Stored) (s : State) : State :=
  match prpTrailer f.octets with
  | none => accepted k none f (swCount 16 s)
  | some t =>
    let s := if rctLan t ≠ (if k = 4 then 0xA else 0xB) then swCount 15 s else s
    accepted k (some (rctSeq t)) { f with octets := f.octets.take (f.octets.length - 6), rct := some t } s

/-- The frame without the HSR tag that it carries in HSR mode. -/
def coreFrame (k : Nat) (f : List Byte) (s : State) : List Byte :=
  match (if s.hsrPort k then hsrTag f else none) with | some _ => unHsr f | none => f

/-- The frame as the port hands it on (R74, R76): with RX_TAG at STRIP its tag is removed; a PTP message keeps the tag state it arrived
with (R278). -/
def received (k : Nat) (octets : List Byte) (s : State) : Stored :=
  let p := s.port k
  let strip := isTagged octets && p.rxTag == 1 && !isPtp k (coreFrame k octets s)
  let o := if strip then untag octets else octets
  { octets := o, vid := rxVid p octets, pcp := rxPcp p octets, dei := rxDei octets, tagged := isTagged octets && !strip, stripped := strip,
    port := some k, rxLen := frameLen octets, stamp := s.time.tbNs, frac := s.time.tbFrac / 65536, epoch := s.time.stepEpoch,
    age := s.now, cells := cellsOf (frameLen o) }

/-- A good frame (R72 to R76, R82, R248). The source of a MAC control frame is not learned (DESIGN CHOICE, log entry 170). -/
def takeFrame (k : Nat) (octets : List Byte) (s : State) : State :=
  let s := goodFrame k octets s
  if isTagged octets ∧ tci octets % 4096 = 4095 then portCount k 22 s
  else if etherType octets = 0x8808 then macControl k octets s
  else
    let f := received k octets s
    let s := if isTagged octets ∧ (s.port k).rxTag = 1 then portCount k 24 s else s
    let body := coreFrame k f.octets s
    let s := idSeen body s
    if s.hsrPort k then ringFrame k f s else if s.prpPort k then lanFrame k f s else accepted k none f s

/-- What the PCS and the FEC decoder of a port report is counted (R92); FEC only where it is in force. -/
def lineErrs (k : Nat) (e : LineErrs) (s : State) : State :=
  let fec := decide (k < 6) && (s.port k).fec != 0 && !((s.port k).fec == 2 && (s.port k).rate == 1)
  let s := portCount k 19 s e.symbols
  if fec then portCount k 21 (portCount k 20 s e.corrected) e.lost else s

/-- FRAME_RECEIVE (R72): the whole frame without its FCS, and what the receiver reports with it. A port without link receives nothing. -/
def execFrameReceive (port : Nat) (octets : List Byte) (seen : LineSeen) (s : State) : Host.Outcome State Fault Refusal :=
  let l := frameLen octets
  let s := if port < 8 && (s.port port).link then lineErrs port seen.line s else s
  let p := s.port port
  .next (if port < 8 && p.link && s.season.season != .winter then
      if !p.rxEn then portCount port 23 s
      else
        let s := if 64 ≤ l ∧ l ≤ p.maxFrame then portCount port (sizeCounter l) s else s
        match badFrame l p.maxFrame seen.fcsOk with
        | some c => portCount port c s
        | none => takeFrame port octets s
    else s)

end Sys2Proof.Machine
end

