-- ==== Sys2Proof/Machine/Sce.lean ====
section
/-!
DEFINITION. Machine/Sce.lean: the commands of the sample conditioning engine (R142 to R166).
-/
namespace Sys2Proof.Machine
open Sys2Proof

/-- A frame for one group (R142): an unreadable one is discarded whole. -/
def groupFrame (f : List Byte) (s : State) (gn : Nat) : State :=
  match frameAsdus f with
  | none => sceCount 1 s
  | some as =>
    let first := (as.headD {}).svId
    as.foldl (fun s a => groupAsdu gn first a s) s

/-- SCE_COPY (R142, R143): the oldest copy goes to every group bound to its entry; with none, or with EN 0, it is counted.
A frame found damaged is discarded and counted (R58). -/
def execSceCopy (s : State) : Host.Outcome State Fault Refusal :=
  .next (match s.sw.sceQ with
    | [] => s
    | v :: q =>
      let s := s.modSw fun w => { w with sceQ := q }
      let gs := (s.sce.groups.filter fun p => p.2.en && p.2.entry == v.entry).map fun p => p.1
      let s := if !(s.stored v.frame).crcOk then swCount 18 s
        else if !s.sce.en || gs == [] then sceCount 0 s else gs.foldl (groupFrame (s.stored v.frame).octets) s
      copyDone v.frame v.entry v.gen true s)

/-- A running group without an accepted ASDU for GAP_TIME turns stale (R145). -/
def groupStaleCheck (s : State) (gn : Nat) : State :=
  let g := s.group gn
  if g.en && g.state == 1 && due s (g.lastArr + ms g.gapTime) then
    let s := sceCount 8 (s.setGroup gn fun x => { x with state := 2 })
    acqStale gn g.preset g.rate (groupEvent gn 3 g.lastSmp 0 s)
  else s

/-- SCE_STALE_CHECK (R145): every running group, once per millisecond. -/
def execSceStaleCheck (s : State) : Host.Outcome State Fault Refusal :=
  .next (whenDue (s.sce.lastCheck + ms 1) (fun s =>
    (s.sce.groups.map fun p => p.1).foldl groupStaleCheck (s.modSce fun c => { c with lastCheck := s.now })) s)

end Sys2Proof.Machine
end

