-- ==== Sys2Proof/Machine/Dispatch.lean ====
section
/-!
DEFINITION. Machine/Dispatch.lean: one arm per command, each one call of that command's meaning.
-/
namespace Sys2Proof.Machine
open Sys2Proof

def exec (i : Instr) (s : State) : Host.Outcome State Fault Refusal :=
  match i with
  | .arbiterDecision arb raised beats => Sys2Proof.Machine.execArbiterDecision arb raised beats s
  | .parkedTransferStart arb raised ownerWins beats => Sys2Proof.Machine.execParkedTransferStart arb raised ownerWins beats s
  | .backoffExpiry arb idx beats => Sys2Proof.Machine.execBackoffExpiry arb idx beats s
  | .arbCtlModeWrite arb mode => Sys2Proof.Machine.execArbCtlModeWrite arb mode s
  | .transferTimeout block unit tag owner waitedUs => Sys2Proof.Machine.execTransferTimeout block unit tag owner waitedUs s
  | .lateCompletion block unit tag => Sys2Proof.Machine.execLateCompletion block unit tag s
  | .scrubWord loc word changed overdue => Sys2Proof.Machine.execScrubWord loc word changed overdue s
  | .railUndervoltage rail mv us => Sys2Proof.Machine.execRailUndervoltage rail mv us s
  | .frameReceive port octets seen => Sys2Proof.Machine.execFrameReceive port octets seen s
  | .pauseEnd port => Sys2Proof.Machine.execPauseEnd port s
  | .pauseCut port => Sys2Proof.Machine.execPauseCut port s
  | .learnEvent key => Sys2Proof.Machine.execLearnEvent key s
  | .learnRecordClose key => Sys2Proof.Machine.execLearnRecordClose key s
  | .transmitSelect sel => Sys2Proof.Machine.execTransmitSelect sel s
  | .linkDown port => Sys2Proof.Machine.execLinkDown port s
  | .linkUp port => Sys2Proof.Machine.execLinkUp port s
  | .sfpInsert port sfp => Sys2Proof.Machine.execSfpInsert port sfp s
  | .sfpRemove port => Sys2Proof.Machine.execSfpRemove port s
  | .txEnWrite port value => Sys2Proof.Machine.execTxEnWrite port value s
  | .counterSnapshot page => Sys2Proof.Machine.execCounterSnapshot page s
  | .wakeFrame octets fcsOk => Sys2Proof.Machine.execWakeFrame octets fcsOk s
  | .largeSendSubmit port send => Sys2Proof.Machine.execLargeSendSubmit port send s
  | .segmentGenerate port => Sys2Proof.Machine.execSegmentGenerate port s
  | .rxRingDeliver host => Sys2Proof.Machine.execRxRingDeliver host s
  | .loopTest locked => Sys2Proof.Machine.execLoopTest locked s
  | .coilEnergise => Sys2Proof.Machine.execCoilEnergise s
  | .headSwitchComplete => Sys2Proof.Machine.execHeadSwitchComplete s
  | .headPositionMismatch through => Sys2Proof.Machine.execHeadPositionMismatch through s
  | .idleTick => Sys2Proof.Machine.execIdleTick s
  | .idleEntryRemove idx => Sys2Proof.Machine.execIdleEntryRemove idx s
  | .entryChangeApply => Sys2Proof.Machine.execEntryChangeApply s
  | .entryHoldoffEnd idx => Sys2Proof.Machine.execEntryHoldoffEnd idx s
  | .rateCheck => Sys2Proof.Machine.execRateCheck s
  | .supervisionSend => Sys2Proof.Machine.execSupervisionSend s
  | .sceCopy => Sys2Proof.Machine.execSceCopy s
  | .sceStaleCheck => Sys2Proof.Machine.execSceStaleCheck s
  | .coreAccess core acc => Sys2Proof.Machine.execCoreAccess core acc s
  | .autoReset inst => Sys2Proof.Machine.execAutoReset inst s
  | .instanceResetComplete inst => Sys2Proof.Machine.execInstanceResetComplete inst s
  | .instanceRemovalComplete inst => Sys2Proof.Machine.execInstanceRemovalComplete inst s
  | .instanceQuarantineEnd inst => Sys2Proof.Machine.execInstanceQuarantineEnd inst s
  | .lockTryAcquire who hart j => Sys2Proof.Machine.execLockTryAcquire who hart j s
  | .lockRelease who j value => Sys2Proof.Machine.execLockRelease who j value s
  | .lckAssignWrite lock value => Sys2Proof.Machine.execLckAssignWrite lock value s
  | .egressDoorbell inst gen queue tail => Sys2Proof.Machine.execEgressDoorbell inst gen queue tail s
  | .egressDescriptor inst queue => Sys2Proof.Machine.execEgressDescriptor inst queue s
  | .cguGate port => Sys2Proof.Machine.execCguGate port s
  | .frameStart cluster => Sys2Proof.Machine.execFrameStart cluster s
  | .slotStart cluster entry => Sys2Proof.Machine.execSlotStart cluster entry s
  | .yieldCall cluster core => Sys2Proof.Machine.execYieldCall cluster core s
  | .budgetExpiry cluster core => Sys2Proof.Machine.execBudgetExpiry cluster core s
  | .triggerWindowEnd cluster entry => Sys2Proof.Machine.execTriggerWindowEnd cluster entry s
  | .pscCommit cluster => Sys2Proof.Machine.execPscCommit cluster s
  | .release inst gen kind count => Sys2Proof.Machine.execRelease inst gen kind count s
  | .mirrorDeclare inst gen addr count => Sys2Proof.Machine.execMirrorDeclare inst gen addr count s
  | .mboxRegister inst gen addr slots => Sys2Proof.Machine.execMboxRegister inst gen addr slots s
  | .claimRoundStart => Sys2Proof.Machine.execClaimRoundStart s
  | .claimRoundJoin wire => Sys2Proof.Machine.execClaimRoundJoin wire s
  | .claimRoundEnd r0 r1 => Sys2Proof.Machine.execClaimRoundEnd r0 r1 s
  | .clmEnWrite value => Sys2Proof.Machine.execClmEnWrite value s
  | .tbClockStop => Sys2Proof.Machine.execTbClockStop s
  | .oscillatorFail => Sys2Proof.Machine.execOscillatorFail s
  | .ocuFrame partner => Sys2Proof.Machine.execOcuFrame partner s
  | .ocuWindowEnd key => Sys2Proof.Machine.execOcuWindowEnd key s
  | .pictureDecision key => Sys2Proof.Machine.execPictureDecision key s
  | .decisionMessage row againstUs key => Sys2Proof.Machine.execDecisionMessage row againstUs key s
  | .statusWordSend => Sys2Proof.Machine.execStatusWordSend s
  | .statusWordReceive lane word => Sys2Proof.Machine.execStatusWordReceive lane word s
  | .laneDown lane => Sys2Proof.Machine.execLaneDown lane s
  | .partnerLost => Sys2Proof.Machine.execPartnerLost s
  | .partnerAwaitExpiry => Sys2Proof.Machine.execPartnerAwaitExpiry s
  | .mirrorSetSend inst => Sys2Proof.Machine.execMirrorSetSend inst s
  | .mirrorSetReceive set crcOk complete => Sys2Proof.Machine.execMirrorSetReceive set crcOk complete s
  | .switchBackLapse => Sys2Proof.Machine.execSwitchBackLapse s
  | .syncMessage port m => Sys2Proof.Machine.execSyncMessage port m s
  | .announceMessage port m => Sys2Proof.Machine.execAnnounceMessage port m s
  | .pdelayReqSend port => Sys2Proof.Machine.execPdelayReqSend port s
  | .pdelayRespReceive port turnaround => Sys2Proof.Machine.execPdelayRespReceive port turnaround s
  | .holdoverEntry dom => Sys2Proof.Machine.execHoldoverEntry dom s
  | .freerunEntry dom => Sys2Proof.Machine.execFreerunEntry dom s
  | .tbStepGo => Sys2Proof.Machine.execTbStepGo s
  | .refWrite ref => Sys2Proof.Machine.execRefWrite ref s
  | .slewComplete => Sys2Proof.Machine.execSlewComplete s
  | .comparatorFire k => Sys2Proof.Machine.execComparatorFire k s
  | .trgCtlWrite k value => Sys2Proof.Machine.execTrgCtlWrite k value s
  | .ppsEdge => Sys2Proof.Machine.execPpsEdge s
  | .ppsPulseEnd => Sys2Proof.Machine.execPpsPulseEnd s
  | .stampDeliver => Sys2Proof.Machine.execStampDeliver s
  | .acqSample => Sys2Proof.Machine.execAcqSample s
  | .acqFlush stream => Sys2Proof.Machine.execAcqFlush stream s
  | .acqDrained stream => Sys2Proof.Machine.execAcqDrained stream s
  | .trigInEdge level heldUs => Sys2Proof.Machine.execTrigInEdge level heldUs s
  | .aonGood aon okB => Sys2Proof.Machine.execAonGood aon okB s
  | .aonLost => Sys2Proof.Machine.execAonLost s
  | .bkiOutputSample inputs common => Sys2Proof.Machine.execBkiOutputSample inputs common s
  | .btHoldEnd j => Sys2Proof.Machine.execBtHoldEnd j s
  | .calStep maxDiff => Sys2Proof.Machine.execCalStep maxDiff s
  | .lockstepMismatch => Sys2Proof.Machine.execLockstepMismatch s
  | .islandRestartDone => Sys2Proof.Machine.execIslandRestartDone s
  | .bkiHbWrite value => Sys2Proof.Machine.execBkiHbWrite value s
  | .heartbeatLost => Sys2Proof.Machine.execHeartbeatLost s
  | .mgpBootTimeout => Sys2Proof.Machine.execMgpBootTimeout s
  | .clmHoldClr => Sys2Proof.Machine.execClmHoldClr s
  | .bkiCommitWrite => Sys2Proof.Machine.execBkiCommitWrite s
  | .seasonRequest value => Sys2Proof.Machine.execSeasonRequest value s
  | .wakeNLow => Sys2Proof.Machine.execWakeNLow s
  | .wakeTimerExpiry => Sys2Proof.Machine.execWakeTimerExpiry s
  | .quietPeriodEnd block unit => Sys2Proof.Machine.execQuietPeriodEnd block unit s
  | .fltInjWrite block unit value => Sys2Proof.Machine.execFltInjWrite block unit value s
  | .injectionTimeout block unit => Sys2Proof.Machine.execInjectionTimeout block unit s
  | .feCodeRead block unit => Sys2Proof.Machine.execFeCodeRead block unit s
  | .rearmWrite block unit => Sys2Proof.Machine.execRearmWrite block unit s
  | .rcRead reg => Sys2Proof.Machine.execRcRead reg s
  | .latchingRead reg => Sys2Proof.Machine.execLatchingRead reg s
  | .evrOccurrence => Sys2Proof.Machine.execEvrOccurrence s
  | .bucketRefill code => Sys2Proof.Machine.execBucketRefill code s
  | .lossIntervalEnd code => Sys2Proof.Machine.execLossIntervalEnd code s
  | .cursorLoad n value => Sys2Proof.Machine.execCursorLoad n value s
  | .cursorLoadComplete n => Sys2Proof.Machine.execCursorLoadComplete n s
  | .saveEnd => Sys2Proof.Machine.execSaveEnd s
  | .saveAreaErase => Sys2Proof.Machine.execSaveAreaErase s
  | .ksuLoad who cmd => Sys2Proof.Machine.execKsuLoad who cmd s
  | .ksuGenerate who cmd => Sys2Proof.Machine.execKsuGenerate who cmd s
  | .ksuDerive who cmd => Sys2Proof.Machine.execKsuDerive who cmd s
  | .ksuErase who cmd => Sys2Proof.Machine.execKsuErase who cmd s
  | .keySave slot => Sys2Proof.Machine.execKeySave slot s
  | .slotDamageRewrite slot => Sys2Proof.Machine.execSlotDamageRewrite slot s
  | .reqTailWrite pair tail => Sys2Proof.Machine.execReqTailWrite pair tail s
  | .pairReset pair => Sys2Proof.Machine.execPairReset pair s
  | .mbxReqTailWrite inst gen tail => Sys2Proof.Machine.execMbxReqTailWrite inst gen tail s
  | .msiXMessage vector => Sys2Proof.Machine.execMsiXMessage vector s
  | .perstN low => Sys2Proof.Machine.execPerstN low s
  | .mgpFirmwareStart => Sys2Proof.Machine.execMgpFirmwareStart s
  | .coldStart c => Sys2Proof.Machine.execColdStart c s
  | .startUpComplete => Sys2Proof.Machine.execStartUpComplete s
  | .claimEnableAuto => Sys2Proof.Machine.execClaimEnableAuto s
  | .serviceAuto => Sys2Proof.Machine.execServiceAuto s
  | .configPersist => Sys2Proof.Machine.execConfigPersist s
  | .mainGood main => Sys2Proof.Machine.execMainGood main s
  | .mainLost => Sys2Proof.Machine.execMainLost s
  | .pfwNFall => Sys2Proof.Machine.execPfwNFall s
  | .pfwNRise => Sys2Proof.Machine.execPfwNRise s
  | .internalPowerFail sag => Sys2Proof.Machine.execInternalPowerFail sag s
  | .modResetLow => Sys2Proof.Machine.execModResetLow s
  | .modResetRelease => Sys2Proof.Machine.execModResetRelease s
  | .thermalCheck temp => Sys2Proof.Machine.execThermalCheck temp s
  | .thermalDisconnect => Sys2Proof.Machine.execThermalDisconnect s
  | .railOutOfBand rail us => Sys2Proof.Machine.execRailOutOfBand rail us s
  | .bankHandover carriedOk => Sys2Proof.Machine.execBankHandover carriedOk s
  | .bankMarkActive => Sys2Proof.Machine.execBankMarkActive s
  | .registerWrite reg value => Sys2Proof.Machine.execRegisterWrite reg value s
  | .getIdentity r => Sys2Proof.Machine.execGetIdentity r s
  | .getStatus r => Sys2Proof.Machine.execGetStatus r s
  | .opStatus r handle => Sys2Proof.Machine.execOpStatus r handle s
  | .echo r octets => Sys2Proof.Machine.execEcho r octets s
  | .arbRead r arb => Sys2Proof.Machine.execArbRead r arb s
  | .arbPrio r arb idx prio => Sys2Proof.Machine.execArbPrio r arb idx prio s
  | .arbMode r mode => Sys2Proof.Machine.execArbMode r mode s
  | .service r declare => Sys2Proof.Machine.execService r declare s
  | .create r num mac auto share allow image => Sys2Proof.Machine.execCreate r num mac auto share allow image s
  | .reset r clearDram => Sys2Proof.Machine.execReset r clearDram s
  | .remove r => Sys2Proof.Machine.execRemove r s
  | .stop r => Sys2Proof.Machine.execStop r s
  | .start r => Sys2Proof.Machine.execStart r s
  | .setShares r mask share => Sys2Proof.Machine.execSetShares r mask share s
  | .readDesc r => Sys2Proof.Machine.execReadDesc r s
  | .setAllowance r idx entry => Sys2Proof.Machine.execSetAllowance r idx entry s
  | .setAutoReset r value => Sys2Proof.Machine.execSetAutoReset r value s
  | .setHoldoff r ms => Sys2Proof.Machine.execSetHoldoff r ms s
  | .replaceImage r image => Sys2Proof.Machine.execReplaceImage r image s
  | .ptWrite r cluster entry slot => Sys2Proof.Machine.execPtWrite r cluster entry slot s
  | .ptCommit r mask periods phases => Sys2Proof.Machine.execPtCommit r mask periods phases s
  | .ptRead r cluster bank => Sys2Proof.Machine.execPtRead r cluster bank s
  | .slotStatus r cluster => Sys2Proof.Machine.execSlotStatus r cluster s
  | .lockAssign r lock owner index mgpOk => Sys2Proof.Machine.execLockAssign r lock owner index mgpOk s
  | .lockUnassign r lock => Sys2Proof.Machine.execLockUnassign r lock s
  | .lockRead r lock => Sys2Proof.Machine.execLockRead r lock s
  | .egqRegister r queue addr size => Sys2Proof.Machine.execEgqRegister r queue addr size s
  | .rxringRegister r addr size bufLen => Sys2Proof.Machine.execRxringRegister r addr size bufLen s
  | .rxringStats r => Sys2Proof.Machine.execRxringStats r s
  | .stbPut r changes => Sys2Proof.Machine.execStbPut r changes s
  | .stbCommit r => Sys2Proof.Machine.execStbCommit r s
  | .stbRead r bitmap idx => Sys2Proof.Machine.execStbRead r bitmap idx s
  | .learnPolicy r port kind ports => Sys2Proof.Machine.execLearnPolicy r port kind ports s
  | .learnAnswer r rec accept entry => Sys2Proof.Machine.execLearnAnswer r rec accept entry s
  | .portConfig r port ctl vlan pcpMap maxFrame => Sys2Proof.Machine.execPortConfig r port ctl vlan pcpMap maxFrame s
  | .stats r page reader => Sys2Proof.Machine.execStats r page reader s
  | .learnRead r rec => Sys2Proof.Machine.execLearnRead r rec s
  | .portBypass r force => Sys2Proof.Machine.execPortBypass r force s
  | .switchConfig r c => Sys2Proof.Machine.execSwitchConfig r c s
  | .mirrorSession r n ctl => Sys2Proof.Machine.execMirrorSession r n ctl s
  | .hostRxring r ring addr size bufLen => Sys2Proof.Machine.execHostRxring r ring addr size bufLen s
  | .groupSet r g desc ctxs => Sys2Proof.Machine.execGroupSet r g desc ctxs s
  | .groupRead r g => Sys2Proof.Machine.execGroupRead r g s
  | .presetChange r g preset => Sys2Proof.Machine.execPresetChange r g preset s
  | .presetRead r preset => Sys2Proof.Machine.execPresetRead r preset s
  | .subscribe r g pos sub => Sys2Proof.Machine.execSubscribe r g pos sub s
  | .ringRegister r ring addr slots words => Sys2Proof.Machine.execRingRegister r ring addr slots words s
  | .sceConfig r ctl => Sys2Proof.Machine.execSceConfig r ctl s
  | .timeStatus r => Sys2Proof.Machine.execTimeStatus r s
  | .timeConfig r c => Sys2Proof.Machine.execTimeConfig r c s
  | .refSwitch r dom => Sys2Proof.Machine.execRefSwitch r dom s
  | .stepTb r ns => Sys2Proof.Machine.execStepTb r ns s
  | .trgAlloc r owner => Sys2Proof.Machine.execTrgAlloc r owner s
  | .trgProgram r k time period periodic dest en => Sys2Proof.Machine.execTrgProgram r k time period periodic dest en s
  | .trgFree r k => Sys2Proof.Machine.execTrgFree r k s
  | .stampRing r addr slots => Sys2Proof.Machine.execStampRing r addr slots s
  | .ppsConfig r en gate width => Sys2Proof.Machine.execPpsConfig r en gate width s
  | .streamSet r n desc => Sys2Proof.Machine.execStreamSet r n desc s
  | .streamEn r n en => Sys2Proof.Machine.execStreamEn r n en s
  | .streamRestart r n => Sys2Proof.Machine.execStreamRestart r n s
  | .trigger r mask code => Sys2Proof.Machine.execTrigger r mask code s
  | .acqConfig r ctl => Sys2Proof.Machine.execAcqConfig r ctl s
  | .streamRead r n => Sys2Proof.Machine.execStreamRead r n s
  | .pairStatus r => Sys2Proof.Machine.execPairStatus r s
  | .setClaim r claim => Sys2Proof.Machine.execSetClaim r claim s
  | .pairConfig r cguCtl cguMem ocuCtl mlkCtl => Sys2Proof.Machine.execPairConfig r cguCtl cguMem ocuCtl mlkCtl s
  | .switchBack r unit => Sys2Proof.Machine.execSwitchBack r unit s
  | .clearTakeBlock r => Sys2Proof.Machine.execClearTakeBlock r s
  | .returnStandby r => Sys2Proof.Machine.execReturnStandby r s
  | .goOut r => Sys2Proof.Machine.execGoOut r s
  | .tripAssign r output inst => Sys2Proof.Machine.execTripAssign r output inst s
  | .keyLoad r slot value a => Sys2Proof.Machine.execKeyLoad r slot value a s
  | .keyGenerate r slot a => Sys2Proof.Machine.execKeyGenerate r slot a s
  | .keyDerive r slot parent a label context => Sys2Proof.Machine.execKeyDerive r slot parent a label context s
  | .keyErase r slot => Sys2Proof.Machine.execKeyErase r slot s
  | .keyAttrRead r slot => Sys2Proof.Machine.execKeyAttrRead r slot s
  | .keyAssign r slot byMgp owner gen => Sys2Proof.Machine.execKeyAssign r slot byMgp owner gen s
  | .keyAttrWrite r slot a lock derivable => Sys2Proof.Machine.execKeyAttrWrite r slot a lock derivable s
  | .verifyEntry r n e => Sys2Proof.Machine.execVerifyEntry r n e s
  | .verifyEnable r en => Sys2Proof.Machine.execVerifyEnable r en s
  | .faultRead r block unit => Sys2Proof.Machine.execFaultRead r block unit s
  | .faultCounts r reader => Sys2Proof.Machine.execFaultCounts r reader s
  | .inject r block unit arm kind mode pos pattern force => Sys2Proof.Machine.execInject r block unit arm kind mode pos pattern force s
  | .capture r block unit latch rearm => Sys2Proof.Machine.execCapture r block unit latch rearm s
  | .setQuiet r block unit ms => Sys2Proof.Machine.execSetQuiet r block unit ms s
  | .bucketSet r code mode burst intervalUs => Sys2Proof.Machine.execBucketSet r code mode burst intervalUs s
  | .cursor2 r alloc => Sys2Proof.Machine.execCursor2 r alloc s
  | .codeCatalogue r first count => Sys2Proof.Machine.execCodeCatalogue r first count s
  | .writeRecord r code detail => Sys2Proof.Machine.execWriteRecord r code detail s
  | .evrConfig r limitEn saveEn => Sys2Proof.Machine.execEvrConfig r limitEn saveEn s
  | .imageStage r target image => Sys2Proof.Machine.execImageStage r target image s
  | .bankActivate r bank => Sys2Proof.Machine.execBankActivate r bank s
  | .bkiWrite r ctl slots => Sys2Proof.Machine.execBkiWrite r ctl slots s
  | .bkiCommit r => Sys2Proof.Machine.execBkiCommit r s
  | .bkiRead r => Sys2Proof.Machine.execBkiRead r s
  | .calConfig r ctl => Sys2Proof.Machine.execCalConfig r ctl s
  | .import7210 r file => Sys2Proof.Machine.execImport7210 r file s
  | .setSeason r season force ret => Sys2Proof.Machine.execSetSeason r season force ret s
  | .wakeConfig r en timerS pattern => Sys2Proof.Machine.execWakeConfig r en timerS pattern s
  | .loopConfig r mask loop volt fabric => Sys2Proof.Machine.execLoopConfig r mask loop volt fabric s
  | .powerStatus r => Sys2Proof.Machine.execPowerStatus r s
  | .monHelp => Sys2Proof.Machine.execMonHelp s
  | .monId => Sys2Proof.Machine.execMonId s
  | .monStatus => Sys2Proof.Machine.execMonStatus s
  | .monTime => Sys2Proof.Machine.execMonTime s
  | .monFaults => Sys2Proof.Machine.execMonFaults s
  | .monFault block unit => Sys2Proof.Machine.execMonFault block unit s
  | .monStats page => Sys2Proof.Machine.execMonStats page s
  | .monInst inst => Sys2Proof.Machine.execMonInst inst s
  | .monEvr n => Sys2Proof.Machine.execMonEvr n s
  | .monPeek block unit off count => Sys2Proof.Machine.execMonPeek block unit off count s
  | .monUnlock devEn => Sys2Proof.Machine.execMonUnlock devEn s
  | .monResp response => Sys2Proof.Machine.execMonResp response s
  | .monLock => Sys2Proof.Machine.execMonLock s
  | .monBaud rate => Sys2Proof.Machine.execMonBaud rate s
  | .monMbx r m => Sys2Proof.Machine.execMonMbx r m s
  | .baudRevert => Sys2Proof.Machine.execBaudRevert s
  | .monIdleRelock => Sys2Proof.Machine.execMonIdleRelock s
  | .devEnLow => Sys2Proof.Machine.execDevEnLow s
  | .challengeExpiry => Sys2Proof.Machine.execChallengeExpiry s
  | .islandClockStop island => Sys2Proof.Machine.execIslandClockStop island s
  | .islandClockRestart island => Sys2Proof.Machine.execIslandClockRestart island s
  | .railInBand rail => Sys2Proof.Machine.execRailInBand rail s
  | .createComplete inst => Sys2Proof.Machine.execCreateComplete inst s
  | .imageCopyComplete inst => Sys2Proof.Machine.execImageCopyComplete inst s
  | .imageStageComplete => Sys2Proof.Machine.execImageStageComplete s
  | .importComplete => Sys2Proof.Machine.execImportComplete s
  | .granuleCleared dram granule => Sys2Proof.Machine.execGranuleCleared dram granule s
  | .pauseAgeingDiscard port queue => Sys2Proof.Machine.execPauseAgeingDiscard port queue s
  | .sfpPowerLimit port => Sys2Proof.Machine.execSfpPowerLimit port s
  | .bkiThermalReset temp => Sys2Proof.Machine.execBkiThermalReset temp s
  | .trngHealthFail => Sys2Proof.Machine.execTrngHealthFail s
  | .monLineRefused tooLong => Sys2Proof.Machine.execMonLineRefused tooLong s
  | .nodeForget mac => Sys2Proof.Machine.execNodeForget mac s

end Sys2Proof.Machine
end

