-- ==== Sys2Proof/Machine/Tick.lean ====
section
/-!
DEFINITION. Machine/Tick.lean: what passes when no command waits.
-/
namespace Sys2Proof.Machine
open Sys2Proof

/-- With no command waiting one tick of the time base passes (R280, R281; log entry 24), and an entry into WINTER whose frames have stopped comes to
its end (R357). What happens at an instant happens by its own command. -/
def idle (s : State) : State := winterSettles (s.modTime fun t => t.ticks 1)

end Sys2Proof.Machine
end

