-- ==== Sys2Proof/Safety.lean ====
section
/-!
DEFINITION. Safety.lean: the terms that statements about the machine are made in: the parts of the state, what stays the same but for
some parts, and the invariants of every step.
-/
namespace Sys2Proof.Machine
open Sys2Proof

/-- The parts of the state. -/
inductive Part where
  /-- fabric. -/
  | fab
  /-- ports. -/
  | ports
  /-- bypass head. -/
  | head
  /-- wake filter. -/
  | wake
  /-- switch, tables and buffer. -/
  | sw
  /-- sample conditioning. -/
  | sce
  /-- instances, locks and their memories. -/
  | insts
  /-- schedulers. -/
  | sched
  /-- egress formatter. -/
  | eg
  /-- claim gate. -/
  | cgu
  /-- output comparison. -/
  | ocu
  /-- mirror link. -/
  | mlk
  /-- time base. -/
  | time
  /-- acquisition. -/
  | acq
  /-- Backstop island. -/
  | bki
  /-- seasons. -/
  | season
  /-- fault sets. -/
  | faults
  /-- event recorder. -/
  | evr
  /-- key store. -/
  | ksu
  /-- mailbox. -/
  | mbx
  /-- flash and firmware state. -/
  | persist
  /-- power and reset pins. -/
  | power
  /-- monitor. -/
  | mon
  /-- counter of open values taken. -/
  | free
  /-- queue of commands. -/
  | pending
deriving DecidableEq, Repr

/-- A part is the same in two states. -/
def Part.same (p : Part) (s t : State) : Prop :=
  match p with
  | .fab => t.fab = s.fab
  | .ports => t.ports = s.ports
  | .head => t.head = s.head
  | .wake => t.wake = s.wake
  | .sw => t.sw = s.sw
  | .sce => t.sce = s.sce
  | .insts => t.insts = s.insts
  | .sched => t.sched = s.sched
  | .eg => t.eg = s.eg
  | .cgu => t.cgu = s.cgu
  | .ocu => t.ocu = s.ocu
  | .mlk => t.mlk = s.mlk
  | .time => t.time = s.time
  | .acq => t.acq = s.acq
  | .bki => t.bki = s.bki
  | .season => t.season = s.season
  | .faults => t.faults = s.faults
  | .evr => t.evr = s.evr
  | .ksu => t.ksu = s.ksu
  | .mbx => t.mbx = s.mbx
  | .persist => t.persist = s.persist
  | .power => t.power = s.power
  | .mon => t.mon = s.mon
  | .free => t.free = s.free
  | .pending => t.pending = s.pending

/-- From `s` to `t` nothing but the named parts has changed: every register, table, memory and queue outside them is as it was. -/
structure Only (ps : List Part) (s t : State) : Prop where
  /-- a part not named is the same. -/
  same : ∀ p : Part, p ∉ ps → p.same s t

/-- The three byte memories in the state stand in their canonical form. -/
def State.memOk (s : State) : Prop := s.insts.lsMem.wf = true ∧ s.insts.dramMem.wf = true ∧ s.mbx.hostMem.wf = true

/-- What manufacture has fixed (R410, R522): the block of MAC addresses, the serial number, and the hashes of the image keys. -/
def SameIdentity (s t : State) : Prop :=
  t.mbx.macBase = s.mbx.macBase ∧ t.mbx.serial = s.mbx.serial ∧ t.ksu.fuseKeys = s.ksu.fuseKeys

/-- A command answers a next state, of which `P` holds. -/
def Completes (c : Instr) (s : State) (P : State → Prop) : Prop := ∃ t : State, exec c s = .next t ∧ P t

/-- The request of a host pair, given by the command, passes every check of R436, whatever operation it names, and finds no live tag like its own
(R447), and the MGP finishes it in time. A request written in its slot is the one that the message spells (see `serve`). -/
def Req.clear (r : Req) (sub : Subset) (need : Bool) (s : State) : Prop :=
  ∃ k : Nat, r.src = .host k ∧ takeable r s = true ∧ s.written r.src = none ∧ r.crcOk = true ∧ r.slow = false
    ∧ ((liveCache (s.mbx.pairs.get k {}).cache (take r s)).find? fun t => t.tag == r.tag) = none
    ∧ ∀ opcode : Nat, precheck opcode r sub need (take r s) = none

/-- A request is served: the command answers the state that its effect leaves, of which `P` holds, with the response written. -/
def Served (c : Instr) (r : Req) (opcode : Nat) (s : State) (st : Status) (vals : List Nat) (P : State → Prop) : Prop :=
  ∃ u : State, P u ∧ exec c s = .next (respond r { opcode := opcode, tag := r.tag, inst := r.inst, gen := r.gen, ind := r.buf.isSome,
                                                   status := st, result := vals } true u)

end Sys2Proof.Machine
end

