-- ==== Sys2Proof/WellFormed.lean ====
section
/-!
DEFINITION. WellFormed.lean: which commands name units that the module has. A request of the mailbox names what it names: the MGP's own
checks answer it (R436), so every request is well formed.
-/
namespace Sys2Proof

/-- The unit numbers in a command, each with the number of such units: ports (R68), arbiters (R36), clusters and cores (R207), instance
numbers (R174), comparators (R297), key slots (R404), locks (R200), claim wires (R250), lanes (R271), mailbox pairs (R439), egress
queues (R236), transmit queues (R80), table indices (R111), partition table entries (R215), acquisition streams (R308), cursors (R393). -/
def Instr.bounds (i : Instr) : List (Nat × Nat) :=
  match i with
  | .arbiterDecision arb _ _ => [(arb, 37)]
  | .parkedTransferStart arb _ _ _ => [(arb, 37)]
  | .backoffExpiry arb _ _ => [(arb, 37)]
  | .arbCtlModeWrite arb _ => [(arb, 37)]
  | .transferTimeout _ _ _ _ _ => []
  | .lateCompletion _ _ _ => []
  | .scrubWord _ _ _ _ => []
  | .railUndervoltage _ _ _ => []
  | .frameReceive port _ _ => [(port, 8)]
  | .pauseEnd port => [(port, 8)]
  | .pauseCut port => [(port, 8)]
  | .learnEvent _ => []
  | .learnRecordClose _ => []
  | .transmitSelect sel => [(sel.port, 8)]
  | .linkDown port => [(port, 8)]
  | .linkUp port => [(port, 8)]
  | .sfpInsert port _ => [(port, 8)]
  | .sfpRemove port => [(port, 8)]
  | .txEnWrite port _ => [(port, 8)]
  | .counterSnapshot _ => []
  | .wakeFrame _ _ => []
  | .largeSendSubmit port _ => [(port, 8)]
  | .segmentGenerate port => [(port, 8)]
  | .rxRingDeliver _ => []
  | .loopTest _ => []
  | .coilEnergise => []
  | .headSwitchComplete => []
  | .headPositionMismatch _ => []
  | .idleTick => []
  | .idleEntryRemove idx => [(idx, 24576)]
  | .entryChangeApply => []
  | .entryHoldoffEnd idx => [(idx, 24576)]
  | .rateCheck => []
  | .supervisionSend => []
  | .sceCopy => []
  | .sceStaleCheck => []
  | .coreAccess core _ => [(core, 64)]
  | .autoReset inst => [(inst, 512)]
  | .instanceResetComplete inst => [(inst, 512)]
  | .instanceRemovalComplete inst => [(inst, 512)]
  | .instanceQuarantineEnd inst => [(inst, 512)]
  | .lockTryAcquire _ _ j => [(j, 256)]
  | .lockRelease _ j _ => [(j, 256)]
  | .lckAssignWrite lock _ => [(lock, 256)]
  | .egressDoorbell inst _ queue _ => [(inst, 512), (queue, 2)]
  | .egressDescriptor inst queue => [(inst, 512), (queue, 2)]
  | .cguGate port => [(port, 8)]
  | .frameStart cluster => [(cluster, 8)]
  | .slotStart cluster entry => [(cluster, 8), (entry, 128)]
  | .yieldCall cluster core => [(cluster, 8), (core, 64)]
  | .budgetExpiry cluster core => [(cluster, 8), (core, 64)]
  | .triggerWindowEnd cluster entry => [(cluster, 8), (entry, 128)]
  | .pscCommit cluster => [(cluster, 8)]
  | .release inst _ _ _ => [(inst, 512)]
  | .mirrorDeclare inst _ _ _ => [(inst, 512)]
  | .mboxRegister inst _ _ _ => [(inst, 512)]
  | .claimRoundStart => []
  | .claimRoundJoin wire => [(wire, 2)]
  | .claimRoundEnd _ _ => []
  | .clmEnWrite _ => []
  | .tbClockStop => []
  | .oscillatorFail => []
  | .ocuFrame _ => []
  | .ocuWindowEnd _ => []
  | .pictureDecision _ => []
  | .decisionMessage _ _ _ => []
  | .statusWordSend => []
  | .statusWordReceive lane _ => [(lane, 2)]
  | .laneDown lane => [(lane, 2)]
  | .partnerLost => []
  | .partnerAwaitExpiry => []
  | .mirrorSetSend inst => [(inst, 512)]
  | .mirrorSetReceive _ _ _ => []
  | .switchBackLapse => []
  | .syncMessage port _ => [(port, 8)]
  | .announceMessage port _ => [(port, 8)]
  | .pdelayReqSend port => [(port, 8)]
  | .pdelayRespReceive port _ => [(port, 8)]
  | .holdoverEntry _ => []
  | .freerunEntry _ => []
  | .tbStepGo => []
  | .refWrite _ => []
  | .slewComplete => []
  | .comparatorFire k => [(k, 32)]
  | .trgCtlWrite k _ => [(k, 32)]
  | .ppsEdge => []
  | .ppsPulseEnd => []
  | .stampDeliver => []
  | .acqSample => []
  | .acqFlush stream => [(stream, 4)]
  | .acqDrained stream => [(stream, 4)]
  | .trigInEdge _ _ => []
  | .aonGood _ _ => []
  | .aonLost => []
  | .bkiOutputSample _ _ => []
  | .btHoldEnd _ => []
  | .calStep _ => []
  | .lockstepMismatch => []
  | .islandRestartDone => []
  | .bkiHbWrite _ => []
  | .heartbeatLost => []
  | .mgpBootTimeout => []
  | .clmHoldClr => []
  | .bkiCommitWrite => []
  | .seasonRequest _ => []
  | .wakeNLow => []
  | .wakeTimerExpiry => []
  | .quietPeriodEnd _ _ => []
  | .fltInjWrite _ _ _ => []
  | .injectionTimeout _ _ => []
  | .feCodeRead _ _ => []
  | .rearmWrite _ _ => []
  | .rcRead _ => []
  | .latchingRead _ => []
  | .evrOccurrence => []
  | .bucketRefill _ => []
  | .lossIntervalEnd _ => []
  | .cursorLoad n _ => [(n, 4)]
  | .cursorLoadComplete n => [(n, 4)]
  | .saveEnd => []
  | .saveAreaErase => []
  | .ksuLoad _ _ => []
  | .ksuGenerate _ _ => []
  | .ksuDerive _ _ => []
  | .ksuErase _ _ => []
  | .keySave slot => [(slot, 1024)]
  | .slotDamageRewrite slot => [(slot, 1024)]
  | .reqTailWrite pair _ => [(pair, 16)]
  | .pairReset pair => [(pair, 16)]
  | .mbxReqTailWrite inst _ _ => [(inst, 512)]
  | .msiXMessage _ => []
  | .perstN _ => []
  | .mgpFirmwareStart => []
  | .coldStart _ => []
  | .startUpComplete => []
  | .claimEnableAuto => []
  | .serviceAuto => []
  | .configPersist => []
  | .mainGood _ => []
  | .mainLost => []
  | .pfwNFall => []
  | .pfwNRise => []
  | .internalPowerFail _ => []
  | .modResetLow => []
  | .modResetRelease => []
  | .thermalCheck _ => []
  | .thermalDisconnect => []
  | .railOutOfBand _ _ => []
  | .bankHandover _ => []
  | .bankMarkActive => []
  | .registerWrite _ _ => []
  | .getIdentity _ => []
  | .getStatus _ => []
  | .opStatus _ _ => []
  | .echo _ _ => []
  | .arbRead _ _ => []
  | .arbPrio _ _ _ _ => []
  | .arbMode _ _ => []
  | .service _ _ => []
  | .create _ _ _ _ _ _ _ => []
  | .reset _ _ => []
  | .remove _ => []
  | .stop _ => []
  | .start _ => []
  | .setShares _ _ _ => []
  | .readDesc _ => []
  | .setAllowance _ _ _ => []
  | .setAutoReset _ _ => []
  | .setHoldoff _ _ => []
  | .replaceImage _ _ => []
  | .ptWrite _ _ _ _ => []
  | .ptCommit _ _ _ _ => []
  | .ptRead _ _ _ => []
  | .slotStatus _ _ => []
  | .lockAssign _ _ _ _ _ => []
  | .lockUnassign _ _ => []
  | .lockRead _ _ => []
  | .egqRegister _ _ _ _ => []
  | .rxringRegister _ _ _ _ => []
  | .rxringStats _ => []
  | .stbPut _ _ => []
  | .stbCommit _ => []
  | .stbRead _ _ _ => []
  | .learnPolicy _ _ _ _ => []
  | .learnAnswer _ _ _ _ => []
  | .portConfig _ _ _ _ _ _ => []
  | .stats _ _ _ => []
  | .learnRead _ _ => []
  | .portBypass _ _ => []
  | .switchConfig _ _ => []
  | .mirrorSession _ _ _ => []
  | .hostRxring _ _ _ _ _ => []
  | .groupSet _ _ _ _ => []
  | .groupRead _ _ => []
  | .presetChange _ _ _ => []
  | .presetRead _ _ => []
  | .subscribe _ _ _ _ => []
  | .ringRegister _ _ _ _ _ => []
  | .sceConfig _ _ => []
  | .timeStatus _ => []
  | .timeConfig _ _ => []
  | .refSwitch _ _ => []
  | .stepTb _ _ => []
  | .trgAlloc _ _ => []
  | .trgProgram _ _ _ _ _ _ _ => []
  | .trgFree _ _ => []
  | .stampRing _ _ _ => []
  | .ppsConfig _ _ _ _ => []
  | .streamSet _ _ _ => []
  | .streamEn _ _ _ => []
  | .streamRestart _ _ => []
  | .trigger _ _ _ => []
  | .acqConfig _ _ => []
  | .streamRead _ _ => []
  | .pairStatus _ => []
  | .setClaim _ _ => []
  | .pairConfig _ _ _ _ _ => []
  | .switchBack _ _ => []
  | .clearTakeBlock _ => []
  | .returnStandby _ => []
  | .goOut _ => []
  | .tripAssign _ _ _ => []
  | .keyLoad _ _ _ _ => []
  | .keyGenerate _ _ _ => []
  | .keyDerive _ _ _ _ _ _ => []
  | .keyErase _ _ => []
  | .keyAttrRead _ _ => []
  | .keyAssign _ _ _ _ _ => []
  | .keyAttrWrite _ _ _ _ _ => []
  | .verifyEntry _ _ _ => []
  | .verifyEnable _ _ => []
  | .faultRead _ _ _ => []
  | .faultCounts _ _ => []
  | .inject _ _ _ _ _ _ _ _ _ => []
  | .capture _ _ _ _ _ => []
  | .setQuiet _ _ _ _ => []
  | .bucketSet _ _ _ _ _ => []
  | .cursor2 _ _ => []
  | .codeCatalogue _ _ _ => []
  | .writeRecord _ _ _ => []
  | .evrConfig _ _ _ => []
  | .imageStage _ _ _ => []
  | .bankActivate _ _ => []
  | .bkiWrite _ _ _ => []
  | .bkiCommit _ => []
  | .bkiRead _ => []
  | .calConfig _ _ => []
  | .import7210 _ _ => []
  | .setSeason _ _ _ _ => []
  | .wakeConfig _ _ _ _ => []
  | .loopConfig _ _ _ _ _ => []
  | .powerStatus _ => []
  | .monHelp => []
  | .monId => []
  | .monStatus => []
  | .monTime => []
  | .monFaults => []
  | .monFault _ _ => []
  | .monStats _ => []
  | .monInst inst => [(inst, 512)]
  | .monEvr _ => []
  | .monPeek _ _ _ _ => []
  | .monUnlock _ => []
  | .monResp _ => []
  | .monLock => []
  | .monBaud _ => []
  | .monMbx _ _ => []
  | .baudRevert => []
  | .monIdleRelock => []
  | .devEnLow => []
  | .challengeExpiry => []
  | .islandClockStop _ => []
  | .islandClockRestart _ => []
  | .railInBand _ => []
  | .createComplete inst => [(inst, 512)]
  | .imageCopyComplete inst => [(inst, 512)]
  | .imageStageComplete => []
  | .importComplete => []
  | .granuleCleared _ _ => []
  | .pauseAgeingDiscard port queue => [(port, 8), (queue, 8)]
  | .sfpPowerLimit port => [(port, 8)]
  | .bkiThermalReset _ => []
  | .trngHealthFail => []
  | .monLineRefused _ => []
  | .nodeForget _ => []

/-- A well-formed command: every unit it names exists. -/
def Instr.wf (i : Instr) : Bool := i.bounds.all fun p => decide (p.1 < p.2)

end Sys2Proof
end

