-- ==== Sys2Proof/Certificates/Slice0/Obligations.lean ====
section
/-!
DEFINITION. Certificates/Slice0/Obligations.lean: the statements for the provers.
-/
open Sys2Proof Sys2Proof.Machine

/-- For every command c and state s: a step of s with c put at the front of its queue is exec c on s with the queue's rest.
(00_scope.md) -/
def Obligations.StepRunsFrontCommand : Prop :=
  ∀ (c : Instr) (s : State), step { s with pending := c :: s.pending } = exec c s

/-- The model's choice (log entry 24): a step of a state whose queue is empty lets one 2 ns tick of the time base pass and, but
where the entry into WINTER waits for it with the frames stopped, changes nothing but the time base. With the clock running, the
age counter gains 2 ns and, with no slew in progress, TB gains 2^33 + INCR in 2^-32 ns. (09_network_time.md) -/
def Obligations.IdleStepPassesOneTick : Prop :=
  ∀ s : State, s.pending = [] → (s.entering && s.framesStopped) = false → ∃ t : State, step s = .next t ∧ Only [.time] s t
    ∧ (s.time.tbStopped = false → t.time.age = s.time.age + 2
        ∧ (s.time.slewRem = 0 → 0 ≤ s.time.tbTotal + 2 ^ 33 + s.time.incr → s.time.tbTotal + 2 ^ 33 + s.time.incr < 2 ^ 96
            → t.time.tbTotal = s.time.tbTotal + 2 ^ 33 + s.time.incr))

/-- For every command and every state exec answers a next state: no command of the block ends in a fault or a refusal. (00_scope.md) -/
def Obligations.NoCommandStops : Prop :=
  ∀ (c : Instr) (s : State), ∃ t : State, exec c s = .next t

/-- The byte memories of the state (the local stores and the DRAM granules of instances, and the host memory that the module writes)
stand in canonical form: addresses strictly rising, no cell holding what an unlisted address reads as. Every step from a state
in which they do leaves them so. (06_protection_instances.md) -/
def Obligations.StepKeepsMemoriesCanonical : Prop :=
  ∀ s t : State, s.memOk → step s = .next t → t.memOk

/-- At reset the byte memories are in their canonical form, the queue of commands is empty and no block is in fault state.
(06_protection_instances.md) -/
def Obligations.ResetMemoriesCanonical : Prop :=
  State.reset.memOk ∧ State.reset.pending = [] ∧ ∀ (b : BlockId) (u : Nat), State.reset.inFault b u = false

/-- The block of MAC addresses, the serial number and the hashes of the image keys in fuses are the same after every step, whatever
the command. (13_key_store.md, 17_ouvtu_monitor.md) -/
def Obligations.StepKeepsIdentity : Prop :=
  ∀ s t : State, step s = .next t → SameIdentity s t

/-- In native mode, with somebody waiting, ARBITER_DECISION answers a next state in which only that arbiter has changed. Considered
are the waiting requesters not spent, or all waiting ones where every waiting one is spent, every requester then being unspent
first. The winner is one of them, none of them has a higher priority, and no requester considered of that priority stands
between the last winner and it in ascending order, wrapping. The winner becomes spent and the holder, and waits no longer;
priorities are unchanged. (R38) -/
def Obligations.NativeArbiterDecision : Prop :=
  ∀ (arb : Nat) (rs : List ArbWait) (beats : Nat) (s : State),
    arb < 37 → (s.arb arb).modeTaken.mode = false → (∀ r ∈ (s.arb arb).waiting, r.idx < arbReq arb) →
    ((s.arb arb).raised (arbReq arb) rs).waiting ≠ [] →
    Completes (.arbiterDecision arb rs beats) s fun t =>
      let a := s.arb arb
      let b := t.arb arb
      let w := (a.raised (arbReq arb) rs).waiting.map ArbWait.idx
      let u := w.filter fun i => !a.spent.contains i
      let c := if u = [] then w else u
      Only [.fab] s t ∧ (∀ k, k ≠ arb → t.arb k = s.arb k) ∧ t.fab.ops = s.fab.ops ∧ t.fab.timeoutUs = s.fab.timeoutUs
      ∧ b.holder ∈ c ∧ b.lastWinner = b.holder ∧ b.busy = true ∧ b.parked = false ∧ b.beatsLeft = min beats 16 ∧ b.prio = a.prio
      ∧ (∀ i ∈ c, a.prio.getD i 0 ≤ a.prio.getD b.holder 0)
      ∧ (∃ j, b.holder = (a.lastWinner + 1 + j) % arbReq arb
          ∧ ∀ k, k < j → (a.lastWinner + 1 + k) % arbReq arb ∈ c →
              a.prio.getD ((a.lastWinner + 1 + k) % arbReq arb) 0 < a.prio.getD b.holder 0)
      ∧ b.spent = (if u = [] then [] else a.spent) ++ [b.holder]
      ∧ b.waiting = (a.raised (arbReq arb) rs).waiting.filter fun r => r.idx ≠ b.holder

/-- In compatibility mode (R44, R45) one waiting requester is granted: the one with the oldest reservation where a waiting requester
holds one. Every other waiting requester lowers its request, its count of consecutive back-offs rises by one to n, and it raises
its request again after 8 ns times 2^n with n held at 10; at n = 10 it gets a reservation. The winner's count and reservation
are cleared. (02_self_timed_fabric.md) -/
def Obligations.CompatibleArbiterBacksOff : Prop :=
  ∀ (arb : Nat) (beats : Nat) (s : State),
    arb < 37 → (s.arb arb).modeTaken.mode = true → (∀ r ∈ (s.arb arb).waiting, r.idx < arbReq arb) → (s.arb arb).waiting ≠ [] →
    ((s.arb arb).waiting.map ArbWait.idx).Nodup →
    Completes (.arbiterDecision arb [] beats) s fun t =>
      let a := (s.arb arb).modeTaken
      let b := t.arb arb
      let w := a.waiting.map ArbWait.idx
      Only [.fab] s t ∧ (∀ k, k ≠ arb → t.arb k = s.arb k)
      ∧ b.holder ∈ w ∧ b.waiting = [] ∧ b.busy = true
      ∧ (∀ i, (a.reserved.find? fun i => w.contains i) = some i → b.holder = i)
      ∧ b.consec.get b.holder 0 = 0 ∧ b.holder ∉ b.reserved
      ∧ ∀ i ∈ w, i ≠ b.holder →
          b.consec.get i 0 = a.consec.get i 0 + 1 ∧ b.backoffEnd.get i 0 = s.now + 8 * 2 ^ min (a.consec.get i 0 + 1) 10
          ∧ (a.consec.get i 0 + 1 = 10 → i ∈ b.reserved)

/-- A parked owner whose transfer wins runs it as a grant, and coincident requests wait (R39). The back-off timers that end at one
instant raise their requests again together: with a transfer in progress they join those waiting (R44). A write of MODE to a
capable arbiter takes effect at the next decision, with which counts and reservations are cleared if the mode changes; at any
other arbiter it changes nothing (R46). A transfer that has waited as long as its block's timeout is completed with an error,
with a K-class TIMEOUT finding, and stays outstanding (R30); an access that waits at the crossing of the DRAM interface stays
there while its clock stands (R21); the late completion of such a handshake is absorbed and counted in FLT_LATE (R30), and one
that names a generation that is over is counted in that instance's LATE_DISCARDS too (R177). A scrubbed word without error
changes nothing. A single-symbol error in any location is a class C finding of the location's block, counted, with the data
unchanged (R58, R61). A rail between 0.70 V and 0.72 V is a class C finding of the PMC; below 0.70 V for more than 10 us it is a
class F finding (R33). A stopped island clock is a class K finding with PERSIST of every owning block (R21), and at the restart
PERSIST falls where no other condition of the block is present, and the quiet period runs from then (R372); the restart of the
DRAM interface is shown with no access waiting at its crossing. (02_self_timed_fabric.md, 12_faults_and_recorder.md) -/
def Obligations.FabricScrubbingAndSupplies : Prop :=
  (∀ (arb : Nat) (rs : List ArbWait) (beats : Nat) (s : State), arb < 37 → (s.arb arb).parked = true →
    Completes (.parkedTransferStart arb rs true beats) s fun t =>
      Only [.fab] s t ∧ (∀ k, k ≠ arb → t.arb k = s.arb k)
      ∧ (t.arb arb).holder = (s.arb arb).lastWinner ∧ (t.arb arb).busy = true ∧ (t.arb arb).parked = false
      ∧ ∀ r ∈ rs, r.idx < arbReq arb → ∃ q ∈ (t.arb arb).waiting, q.idx = r.idx)
  ∧ (∀ (arb idx past beats : Nat) (s : State), (s.arb arb).backoffEnd.has idx = true → (s.arb arb).backoffEnd.get idx 0 ≤ s.now →
      (s.arb arb).busy = true →
    Completes (.backoffExpiry arb idx ⟨past, beats⟩) s fun t =>
      let a := s.arb arb
      let e := a.backoffEnd.get idx 0
      Only [.fab] s t ∧ (∀ k, k ≠ arb → t.arb k = s.arb k)
      ∧ t.arb arb = { a with
          backoffEnd := a.backoffEnd.filter fun p => p.2 ≠ e,
          waiting := a.waiting ++ (a.backoffEnd.filter fun p => p.2 = e).map fun p => { idx := p.1, since := min past a.beatsLeft } })
  ∧ (∀ (arb : Nat) (mode : Bool) (s : State),
    Completes (.arbCtlModeWrite arb mode) s fun t =>
      Only [.fab] s t ∧ (∀ k, k ≠ arb → t.arb k = s.arb k)
      ∧ (arbCompat arb = false → t.arb arb = s.arb arb)
      ∧ (arbCompat arb = true → t.arb arb = { s.arb arb with modeNext := some mode }
          ∧ (t.arb arb).modeTaken.mode = mode
          ∧ ((s.arb arb).mode ≠ mode → (t.arb arb).modeTaken.consec = [] ∧ (t.arb arb).modeTaken.reserved = [])))
  ∧ (∀ (b : BlockId) (u tag : Nat) (owner : Master) (waited : Nat) (s : State), timeoutOf b u s ≤ waited →
    Completes (.transferTimeout b u tag owner waited) s fun t =>
      let o : PendingOp := { block := b, unit := u, tag := tag, owner := owner, started := s.now - us waited, released := true,
                             acc := (s.fab.ops.find? (pendingAs b u tag)).bind PendingOp.acc }
      (b ≠ .byp → s.quietOver b u = false → Only [.fab, .faults, .evr, .bki, .mbx] s t) ∧ (b = .byp → t.head.coil = false)
      ∧ t.fab.ops = (s.fab.ops.filter fun p => !pendingAs b u tag p) ++ [o]
      ∧ { o with error := true } ∈ t.fab.failed
      ∧ t.fab.arbs = s.fab.arbs
      ∧ (t.fset b u).state = true ∧ (t.fset b u).cntK = satAdd 32 (s.fset b u).cntK 1 ∧ (t.fset b u).lastKind = 4
      ∧ (t.fset b u).quietFrom = s.now)
  ∧ (∀ (b : BlockId) (u tag : Nat) (o : PendingOp) (s : State),
      s.fab.ops.find? (pendingAs b u tag) = some o → o.acc.isSome = true → s.clockUp .dmc = false →
    Completes (.lateCompletion b u tag) s fun t => t = s)
  ∧ (∀ (b : BlockId) (u tag : Nat) (o : PendingOp) (s : State),
      s.fab.ops.find? (pendingAs b u tag) = some o → o.acc = none →
    Completes (.lateCompletion b u tag) s fun t =>
      t.fab.ops = s.fab.ops.filter (fun p => !pendingAs b u tag p) ∧ t.fab.arbs = s.fab.arbs
      ∧ (o.released = true → (∀ i g, o.owner = .inst i g → s.genCurrent i g = true) →
          Only [.fab, .faults] s t ∧ t.fab.discarded = s.fab.discarded + 1
          ∧ t.fset b u = { s.fset b u with late := satAdd 32 (s.fset b u).late 1 })
      ∧ (∀ i g, o.owner = .inst i g → s.genCurrent i g = false →
          Only [.fab, .faults, .insts] s t ∧ t.fab.discarded = s.fab.discarded + 1
          ∧ t.fset b u = { s.fset b u with late := satAdd 32 (s.fset b u).late 1 }
          ∧ (t.inst i).lateDiscards = satAdd 32 (s.inst i).lateDiscards 1))
  ∧ (∀ (loc : MemLoc) (word : WordRead) (changed : Bool) (s : State),
      (readFound loc.finder.1 loc.finder.2.1 (loc.seen word s) s).syn.kind = none → (s.fset loc.finder.1 loc.finder.2.1).injArm = false →
    Completes (.scrubWord loc word changed false) s fun t => t = s)
  ∧ (∀ (loc : MemLoc) (word : WordRead) (changed : Bool) (s : State),
      (readFound loc.finder.1 loc.finder.2.1 (loc.seen word s) s).syn.kind = some 0 → (s.fset loc.finder.1 loc.finder.2.1).injArm = false →
    Completes (.scrubWord loc word changed false) s fun t =>
      Only [.faults, .evr, .bki] s t
      ∧ (t.fset loc.finder.1 loc.finder.2.1).cntC = satAdd 32 (s.fset loc.finder.1 loc.finder.2.1).cntC 1
      ∧ (t.fset loc.finder.1 loc.finder.2.1).state = (s.fset loc.finder.1 loc.finder.2.1).state)
  ∧ (∀ (rail : Rail) (mv us : Nat) (s : State), 700 ≤ mv → mv < 720 →
    Completes (.railUndervoltage rail mv us) s fun t =>
      Only [.faults, .evr, .bki] s t ∧ (t.fset .pmc 0).cntC = satAdd 32 (s.fset .pmc 0).cntC 1
      ∧ (t.fset .pmc 0).state = (s.fset .pmc 0).state)
  ∧ (∀ (rail : Rail) (mv us : Nat) (s : State), mv < 700 → 10 < us →
    Completes (.railUndervoltage rail mv us) s fun t =>
      (t.fset .pmc 0).cntF = satAdd 32 (s.fset .pmc 0).cntF 1 ∧ (t.fset .pmc 0).persist = true ∧ t.unitF = true)
  ∧ (∀ (island : Island) (s : State),
    Completes (.islandClockStop island) s fun t =>
      t.faults.clocks.get island.num false = true
      ∧ ∀ o ∈ island.owners, (t.fset o.1 o.2).state = true ∧ (t.fset o.1 o.2).persist = true
          ∧ (t.fset o.1 o.2).cntK = satAdd 32 (s.fset o.1 o.2).cntK 1 ∧ (t.fset o.1 o.2).cntF = (s.fset o.1 o.2).cntF)
  ∧ (∀ (island : Island) (s : State), s.faults.clocks.get island.num false = true →
      (island = .dmc → ∀ o ∈ s.fab.ops, o.acc = none) →
    Completes (.islandClockRestart island) s fun t =>
      Only [.faults] s t ∧ t.faults.clocks.get island.num false = false
      ∧ ∀ o ∈ island.owners, (t.fset o.1 o.2).state = (s.fset o.1 o.2).state
          ∧ (t.persists o.1 o.2 = false → (t.fset o.1 o.2).persist = false
              ∧ ((s.fset o.1 o.2).persist = true → (t.fset o.1 o.2).quietFrom = s.now))
          ∧ (t.persists o.1 o.2 = true → t.fset o.1 o.2 = s.fset o.1 o.2))

/-- A real class C finding adds 1 to CNT_C (saturating), sets C in FLT_INT and is posted to the recorder; the state of the block,
its first-error record and every other field of the set but LAST_CLASS and LAST_KIND stay, and so does every other fault set.
Posting is shown for a recorder that runs, is not frozen and has room in the block's queue. (R368) -/
def Obligations.CorrectionsAreOnlyCounted : Prop :=
  ∀ (f : Finding) (s : State), f.cls = 1 → f.inj = false →
    Only [.faults, .evr, .bki] s (raise f s)
    ∧ (raise f s).fset f.block f.unit = { s.fset f.block f.unit with
        cntC := satAdd 32 (s.fset f.block f.unit).cntC 1, int := setBit (s.fset f.block f.unit).int 1 true,
        lastClass := 1, lastKind := f.kind }
    ∧ (∀ b u, setKey b u ≠ setKey f.block f.unit → (raise f s).fset b u = s.fset b u)
    ∧ (s.evr.frozen = false → s.evr.running = true → (s.evr.posts.filter fun p => p.block == f.block.id).length < 8 →
        ∃ r : EvrRec, r.code = findingCode f.block f.kind ∧ r.cls = 1 ∧ r.block = f.block.id ∧ r.unit = f.unit ∧ r.age = s.time.age
          ∧ (raise f s).evr.posts = s.evr.posts ++ [r])

/-- A class K finding that is not POISONED (R369, R372, R375, R376): the set enters fault state, the quiet period runs from now, K
is set in FLT_INT, a real one is counted in CNT_K and an injected one in INJECTED, F_ACTIVE is unchanged. With no record held,
the record is filled and FE_VALID set: every register in FULL, code, class and age alone in LATCH. With one held, OVERFLOW is
set and the record stays, except that a real finding replaces an injected one (R381). A POISONED one of class K is counted and
leaves state, record and quiet period alone. Where the quiet period of the block is over when the finding comes, the block first
leaves fault state (R373), and the rest holds from there. But for that, only the fault set and what tells of it change, but for
BYP, whose fault releases the coil (R102). (12_faults_and_recorder.md) -/
def Obligations.ContainedFindingEntersFaultState : Prop :=
  ∀ (f : Finding) (s : State), f.cls = 2 →
    let x := s.fset f.block f.unit
    let y := (raise f s).fset f.block f.unit
    (s.quietOver f.block f.unit = true → f.kind ≠ 2 →
        raise f s = (fun u => if f.block = .byp then coilCheck u else u) (finding f (leaveFault f.block f.unit s)))
    ∧ (f.kind = 2 ∨ (f.block ≠ .byp ∧ s.quietOver f.block f.unit = false) → Only [.faults, .evr, .bki, .mbx] s (raise f s))
    ∧ (f.block = .byp → f.kind ≠ 2 → (raise f s).head.coil = false)
    ∧ (f.inj = false → y.cntK = satAdd 32 x.cntK 1 ∧ y.injected = x.injected)
    ∧ (f.inj = true → y.cntK = x.cntK ∧ y.injected = satAdd 16 x.injected 1)
    ∧ y.cntC = x.cntC ∧ y.cntF = x.cntF ∧ (s.quietOver f.block f.unit = false → y.fActive = x.fActive) ∧ y.lastClass = 2 ∧ y.lastKind = f.kind
    ∧ (f.kind ≠ 2 → y.state = true ∧ y.quietFrom = s.now ∧ y.feValid = true ∧ y.persist = (x.persist || f.persist)
        ∧ (x.feValid = false → y.fe = f.record x.captureAct s ∧ y.overflow = x.overflow)
        ∧ (x.feValid = true → y.overflow = true ∧ y.fe = if x.fe.inj && !f.inj then f.record x.captureAct s else x.fe))
    ∧ (f.kind = 2 → y.state = x.state ∧ y.quietFrom = x.quietFrom ∧ y.feValid = x.feValid ∧ y.fe = x.fe)

/-- After a class F finding of any block but the MGP the block's set has F_ACTIVE set and, but for a POISONED finding (R372), is in
fault state, a real one is counted in CNT_F, and UNIT_F, the OR of F_ACTIVE over all sets, is 1 (R370).
(12_faults_and_recorder.md) -/
def Obligations.UnitFailureSetsUnitF : Prop :=
  ∀ (f : Finding) (s : State), f.cls = 3 → f.block ≠ .mgp →
    (raise f s).unitF = true ∧ ((raise f s).fset f.block f.unit).fActive = true
    ∧ (f.kind ≠ 2 → ((raise f s).fset f.block f.unit).state = true)
    ∧ (f.inj = false → ((raise f s).fset f.block f.unit).cntF = satAdd 32 (s.fset f.block f.unit).cntF 1)

/-- On a port that is up, outside WINTER: with RX_EN 0 a frame is only counted in RX_DISABLED; a frame that is too short, too long
or has a bad FCS is counted in the one counter of its case (R72, R92); a good frame with VLAN ID 4095 is counted in the port's
VID counter. In each case nothing but the counters of that port changes, so no such frame reaches the tables, a ring or another
port. The errored PCS blocks that the port reports with it are counted as symbol errors. (03_ports_and_bypass.md) -/
def Obligations.ReceptionDiscardsBeforeTheSwitch : Prop :=
  (∀ (k : Nat) (f : List Byte) (fcsOk : Bool) (line : LineErrs) (s : State),
      k < 8 → (s.port k).link = true → s.season.season ≠ .winter → (s.port k).rxEn = false →
    Completes (.frameReceive k f ⟨fcsOk, line⟩) s fun t =>
      Only [.ports] s t ∧ (∀ j, j ≠ k → t.port j = s.port j)
      ∧ t.port k = { s.port k with live := (t.port k).live }
      ∧ (t.port k).live.get 23 0 = satAdd 64 ((s.port k).live.get 23 0) 1
      ∧ (t.port k).live.get 19 0 = satAdd 64 ((s.port k).live.get 19 0) line.symbols)
  ∧ (∀ (k : Nat) (f : List Byte) (fcsOk : Bool) (line : LineErrs) (c : Nat) (s : State),
      k < 8 → (s.port k).link = true → s.season.season ≠ .winter → (s.port k).rxEn = true →
      badFrame (frameLen f) (s.port k).maxFrame fcsOk = some c →
    Completes (.frameReceive k f ⟨fcsOk, line⟩) s fun t =>
      Only [.ports] s t ∧ (∀ j, j ≠ k → t.port j = s.port j)
      ∧ t.port k = { s.port k with live := (t.port k).live }
      ∧ (t.port k).live.get c 0 = satAdd 64 ((s.port k).live.get c 0) 1)
  ∧ (∀ (k : Nat) (f : List Byte) (line : LineErrs) (s : State),
      k < 8 → (s.port k).link = true → s.season.season ≠ .winter → (s.port k).rxEn = true →
      64 ≤ frameLen f → frameLen f ≤ (s.port k).maxFrame → isTagged f = true → tci f % 4096 = 4095 →
    Completes (.frameReceive k f ⟨true, line⟩) s fun t =>
      Only [.ports] s t ∧ (∀ j, j ≠ k → t.port j = s.port j)
      ∧ t.port k = { s.port k with live := (t.port k).live }
      ∧ (t.port k).live.get 22 0 = satAdd 64 ((s.port k).live.get 22 0) 1)

/-- Every good frame of Ethertype 0x8808 changes nothing but its own port (R82). It is counted as a MAC control frame; another
opcode is also counted as unsupported; an opcode 1 frame to the reserved or the port's own address is also counted as a pause
frame. With PAUSE_RX at 1 that frame is kept until its pause point 200 ns later; otherwise the port keeps all but its counters.
Before that point it changes nothing. At it, quanta 0 end the pause, and other quanta start one or restart the count from that
point, within the run that was open; the transmitter then is held back until the pause or its run ends. After a cut no pause
frame is honoured. (03_ports_and_bypass.md) -/
def Obligations.PauseFramesActAtTheirPausePoint : Prop :=
  (∀ (k : Nat) (f : List Byte) (line : LineErrs) (s : State),
      k < 8 → (s.port k).link = true → s.season.season ≠ .winter → (s.port k).rxEn = true →
      64 ≤ frameLen f → frameLen f ≤ (s.port k).maxFrame → etherType f = 0x8808 → ¬(isTagged f = true ∧ tci f % 4096 = 4095) →
    Completes (.frameReceive k f ⟨true, line⟩) s fun t =>
      let p := s.port k
      let q := t.port k
      let op := beAt f (etherOff f + 2) 2
      let quanta := beAt f (etherOff f + 4) 2
      let mine := dstMac f = 0x0180C2000001 ∨ dstMac f = s.blockMac k
      Only [.ports] s t ∧ (∀ j, j ≠ k → t.port j = s.port j)
      ∧ q.live.get 9 0 = satAdd 64 (p.live.get 9 0) 1
      ∧ (op ≠ 1 → q.live.get 11 0 = satAdd 64 (p.live.get 11 0) 1)
      ∧ (op = 1 → mine → q.live.get 10 0 = satAdd 64 (p.live.get 10 0) 1)
      ∧ (p.pauseRx = false ∨ op ≠ 1 ∨ ¬ mine → q = { p with live := q.live })
      ∧ (op = 1 → mine → p.pauseRx = true →
          q = { p.settled s.now with live := q.live, pauseNext := (p.settled s.now).pauseNext ++ [(s.now + 200, quanta)] }))
  ∧ (∀ (p : Port) (at_ quanta now : Nat), p.pauseNext = [(at_, quanta)] →
      (now < at_ → p.settled now = p)
      ∧ (at_ ≤ now → p.pauseDeaf = true → p.settled now = { p with pauseNext := [] })
      ∧ (at_ ≤ now → p.pauseDeaf = false → ¬(p.paused = true ∧ p.runEnd < p.pauseEnd ∧ p.runEnd ≤ at_) →
          (p.settled now).pauseNext = [] ∧ (p.settled now).queues = p.queues ∧ (p.settled now).sending = p.sending
          ∧ (quanta = 0 → (p.settled now).paused = false)
          ∧ (quanta ≠ 0 → (p.settled now).paused = true ∧ (p.settled now).pauseFrom = at_ ∧ (p.settled now).pauseQuanta = quanta
              ∧ (p.settled now).pauseRunFrom = some (p.pauseRunFrom.getD at_)
              ∧ (p.blocked now = true ↔ now < (p.settled now).pauseEnd ∧ now < (p.settled now).runEnd))))

/-- Once its end is reached a pause ends and the quanta it honoured are in PAUSE_QUANTA (R82, R83). A run of pause that would
outlast 65,535 quanta is cut there: counted in PAUSE_CUT, and no pause frame is honoured until a frame begins or the queues are
empty. While a port is paused a head frame past its ageing limit is discarded and counted in TX_DROP_AGED. Nothing else of the
port and no other port changes, the pause frames whose pause point has come having acted. (03_ports_and_bypass.md) -/
def Obligations.PauseRunsEnd : Prop :=
  (∀ (k : Nat) (s : State), k < 8 →
      let p := (s.port k).settled s.now
      p.paused = true → p.pauseEnd ≤ p.runEnd → p.pauseEnd ≤ s.now →
    Completes (.pauseEnd k) s fun t =>
      Only [.ports] s t ∧ (∀ j, j ≠ k → t.port j = s.port j)
      ∧ t.port k = { p with paused := false, pauseQuanta := 0, pauseCounted := 0, live := (t.port k).live }
      ∧ (t.port k).live.get 30 0 = satAdd 64 (p.live.get 30 0) (p.honoured s.now - p.pauseCounted))
  ∧ (∀ (k : Nat) (s : State), k < 8 →
      let p := (s.port k).settled s.now
      p.paused = true → p.runEnd < p.pauseEnd → p.runEnd ≤ s.now →
    Completes (.pauseCut k) s fun t =>
      Only [.ports] s t ∧ (∀ j, j ≠ k → t.port j = s.port j)
      ∧ (t.port k).paused = false ∧ (t.port k).pauseDeaf = true ∧ (t.port k).pauseRunFrom = none ∧ (t.port k).pauseNext = p.pauseNext
      ∧ (t.port k).queues = (s.port k).queues ∧ (t.port k).sending = (s.port k).sending
      ∧ (t.port k).live.get 30 0 = satAdd 64 (p.live.get 30 0) (p.honoured s.now - p.pauseCounted)
      ∧ (t.port k).live.get 46 0 = satAdd 64 ((s.port k).live.get 46 0) 1)
  ∧ (∀ (k q : Nat) (c : TxCopy) (s : State), k < 8 → ((s.port k).queues.get q []).head? = some c → c.cls = q →
      (s.port k).blocked s.now = true → (s.stored c.frame).age + us c.limitUs ≤ s.now →
    Completes (.pauseAgeingDiscard k q) s fun t =>
      Only [.ports, .sw, .insts, .time, .mbx, .evr, .bki] s t ∧ (∀ j, j ≠ k → t.port j = s.port j)
      ∧ (t.port k).queues.get q [] = ((s.port k).queues.get q []).drop 1 ∧ (t.port k).paused = true
      ∧ (t.port k).live.get 34 0 = satAdd 64 ((s.port k).live.get 34 0) 1)

/-- LINK_DOWN flushes every queue of the port, abandons the frame in transmission, ends its pause, and counts each copy lost in
TX_DROP_LINKDOWN (R71); removal and refusal of a transceiver are the same and set ATTACH (R70, R506). LINK_UP sets LINK and
leaves the queues as they are. TX_EN written 0 lets the frame in transmission complete and flushes the queues into
TX_DROP_DISABLED (R94); written 1 it changes that bit alone. No other port changes in any of these. (03_ports_and_bypass.md) -/
def Obligations.LinksAndTransceivers : Prop :=
  (∀ (k : Nat) (s : State), k < 8 → (s.port k).link = true →
    Completes (.linkDown k) s fun t =>
      Only [.ports, .sw, .insts, .cgu, .time, .bki, .evr, .mbx] s t ∧ (∀ j, j ≠ k → t.port j = s.port j)
      ∧ (t.port k).link = false ∧ (t.port k).paused = false ∧ (t.port k).sending = none ∧ (t.port k).queued = []
      ∧ (∀ g ∈ t.cgu.gate, g.port ≠ k)
      ∧ (t.port k).live.get 31 0 = satAdd 64 ((s.port k).live.get 31 0)
          ((s.port k).queued.length + (s.cgu.gate.filter fun g => g.port == k).length + (s.port k).sending.toList.length))
  ∧ (∀ (k : Nat) (s : State), k < 8 → (s.port k).link = false → linkPossible k s = true →
    Completes (.linkUp k) s fun t =>
      Only [.ports, .bki, .evr, .mbx] s t ∧ (∀ j, j ≠ k → t.port j = s.port j) ∧ t.port k = { s.port k with link := true, stampsOff := false, compRate := (s.port k).rate, compFec := (s.port k).fec })
  ∧ (∀ (k : Nat) (sfp : Option Nat) (s : State), isCage k = true →
    Completes (.sfpInsert k sfp) s fun t =>
      (∀ j, j ≠ k → t.port j = s.port j) ∧ (t.port k).link = false ∧ (t.port k).sfpPresent = true ∧ (t.port k).sfp = sfp
      ∧ (sfp = some (s.port k).rate → (t.port k).attach = 1)
      ∧ (sfp ≠ some (s.port k).rate → (t.port k).attach = 2 ∧ linkPossible k t = false))
  ∧ (∀ (k : Nat) (s : State), isCage k = true →
    Completes (.sfpRemove k) s fun t =>
      (∀ j, j ≠ k → t.port j = s.port j) ∧ (t.port k).link = false ∧ (t.port k).sfpPresent = false ∧ (t.port k).attach = 0)
  ∧ (∀ (k : Nat) (s : State), isCage k = true → (s.port k).sfpPresent = true →
    Completes (.sfpPowerLimit k) s fun t =>
      (∀ j, j ≠ k → t.port j = s.port j) ∧ (t.port k).link = false ∧ (t.port k).attach = 2 ∧ (t.port k).sfpBad = true
      ∧ linkPossible k t = false)
  ∧ (∀ (k : Nat) (s : State), k < 8 →
    Completes (.txEnWrite k true) s fun t =>
      Only [.ports] s t ∧ (∀ j, j ≠ k → t.port j = s.port j) ∧ t.port k = { s.port k with txEn := true })
  ∧ (∀ (k : Nat) (s : State), k < 8 →
    Completes (.txEnWrite k false) s fun t =>
      Only [.ports, .sw, .insts, .cgu, .time, .mbx, .evr, .bki] s t ∧ (∀ j, j ≠ k → t.port j = s.port j)
      ∧ (t.port k).txEn = false ∧ (t.port k).queued = [] ∧ (t.port k).sending = (s.port k).sending ∧ (t.port k).link = (s.port k).link
      ∧ (t.port k).live.get 36 0 = satAdd 64 ((s.port k).live.get 36 0)
          ((s.port k).queued.length + (s.cgu.gate.filter fun g => g.port == k).length))

/-- With no acquisition frames staged for it, a port that is up, enabled and not paused and has no frame in transmission takes the
head copy of its highest non-empty queue (R81), when that copy has not aged out, fits MAX_FRAME, its end-to-end CRC-32 holds and
its words leave the decoder without error and as they were stored: it becomes the frame in transmission and leaves its queue. A
frame in transmission that has ended is counted and its copy completes. The copy taken stands in a queue such that every higher
queue is empty. (03_ports_and_bypass.md) -/
def Obligations.TransmissionTakesTheHighestQueue : Prop :=
  (∀ (k : Nat) (c : TxCopy) (word : WordRead) (s : State), k < 8 → (∀ n, n < 4 → (s.acqS n).port = k → (s.acqS n).frames = []) →
      (s.port k).link = true → (s.port k).txEn = true →
      (s.port k).blocked s.now = false → (s.port k).sending = none → (s.port k).head = some c → agedOut c s = false →
      (wireOf k c (s.stored c.frame) s).1.length + 4 ≤ (s.port k).maxFrame → (s.stored c.frame).crcOk = true →
      (readFound .swc 0 ((MemLoc.buffer c.frame).seen word s) s).syn.kind = none → (s.fset .swc 0).injArm = false →
      (s.stored c.frame).asRead word.off (readFound .swc 0 ((MemLoc.buffer c.frame).seen word s) s).syn.data = (s.stored c.frame).octets →
    Completes (.transmitSelect ⟨k, word⟩) s fun t =>
      Only [.ports, .time] s t ∧ (∀ j, j ≠ k → t.port j = s.port j)
      ∧ (t.port k).sending = some c ∧ (t.port k).wire = (wireOf k c (s.stored c.frame) s).1
      ∧ (t.port k).queues = (s.port k).queues.mod c.cls [] fun q => q.drop 1)
  ∧ (∀ (k : Nat) (c : TxCopy) (word : WordRead) (s : State), k < 8 → (∀ n, n < 4 → (s.acqS n).port = k → (s.acqS n).frames = []) →
      (s.port k).sending = some c → (s.port k).txEn = false →
    Completes (.transmitSelect ⟨k, word⟩) s fun t =>
      Only [.ports, .sw, .insts, .mbx, .evr, .bki] s t ∧ (∀ j, j ≠ k → t.port j = s.port j)
      ∧ (t.port k).sending = none ∧ (t.port k).queues = (s.port k).queues
      ∧ (t.port k).live.get 25 0 = satAdd 64 ((s.port k).live.get 25 0) 1
      ∧ (t.port k).live.get 26 0 = satAdd 64 ((s.port k).live.get 26 0) ((s.port k).wire.length + 4))
  ∧ (∀ (p : Port) (c : TxCopy), p.head = some c →
      ∃ q, q < 8 ∧ (p.queues.get q []).head? = some c ∧ ∀ r, q < r → r < 8 → p.queues.get r [] = [])

/-- A large send that no check of R85 and R87 refuses is held behind those that wait, with nothing sent of it yet. SEGMENT_GENERATE
of the send at the head, of the MGP or of an instance whose generation is current, whose payload can be read and which holds
credit for the frame, stores one frame and advances the send by the payload the frame carries; after the last frame the send is
removed and its submitter told, with the number of frames made. Without credit, or with the payload out of reach, nothing
changes; a send of a generation that is over ends without a further frame, and that is counted as a late arrival (R87, R177,
R189). RX_RING_DELIVER takes the oldest copy that waits for a ring of its kind, and leaves those of the other kind; a copy for
the host stays while the host link is down (R21, R90). (03_ports_and_bypass.md, 06_protection_instances.md) -/
def Obligations.LargeSendsAndRingsComplete : Prop :=
  (∀ (k : Nat) (x : LargeSend) (s : State), k < 8 → (∀ i g, x.inst = some (i, g) → s.genCurrent i g = true) →
      sendRefused k (x.given s) s = none →
    Completes (.largeSendSubmit k x) s fun t =>
      Only [.ports] s t ∧ (∀ j, j ≠ k → t.port j = s.port j)
      ∧ t.port k = { s.port k with sends := (s.port k).sends ++ [{ x.given s with sent := 0, made := 0 }] })
  ∧ (∀ (k : Nat) (x : LargeSend) (rest : List LargeSend) (s : State), (s.port k).sends = x :: rest →
      (∀ i g, x.inst = some (i, g) → s.genCurrent i g = true
        ∧ admits (s.inst i).useEgress (cellsOf ((nextSegment (ipRoom k x.vid s) x (x.data s)).1.length + 4)) (s.inst i).share.egress = true) →
      x.stalled s = false →
    Completes (.segmentGenerate k) s fun t =>
      let n := nextSegment (ipRoom k x.vid s) x (x.data s)
      (t.port k).sends = (if n.2.2 then rest else { x with sent := x.sent + n.2.1, made := x.made + 1 } :: rest)
      ∧ (t.port k).sendDone = (if n.2.2 then [{ inst := x.inst, frames := x.made + 1 }] else []) ++ (s.port k).sendDone)
  ∧ (∀ (k : Nat) (x : LargeSend) (rest : List LargeSend) (i g : Nat) (s : State), (s.port k).sends = x :: rest → x.inst = some (i, g) →
      s.genCurrent i g = true →
      x.stalled s = true
        ∨ admits (s.inst i).useEgress (cellsOf ((nextSegment (ipRoom k x.vid s) x (x.data s)).1.length + 4)) (s.inst i).share.egress = false →
    Completes (.segmentGenerate k) s fun t => t = s)
  ∧ (∀ (k : Nat) (x : LargeSend) (rest : List LargeSend) (i g : Nat) (s : State), (s.port k).sends = x :: rest → x.inst = some (i, g) →
      s.genCurrent i g = false →
    Completes (.segmentGenerate k) s fun t =>
      Only [.ports, .insts, .faults] s t ∧ (∀ j, j ≠ k → t.port j = s.port j) ∧ t.port k = { s.port k with sends := rest }
      ∧ (t.inst i).lateDiscards = satAdd 32 (s.inst i).lateDiscards 1)
  ∧ (∀ s : State, s.pciUp = false → Completes (.rxRingDeliver true) s fun t => t = s)
  ∧ (∀ (v : Deliver) (q : List Deliver) (s : State), s.sw.hostQ = v :: q → s.pciUp = true →
    Completes (.rxRingDeliver true) s fun t => Only [.sw, .insts, .mbx, .evr, .bki] s t ∧ t.sw.hostQ = q ∧ t.sw.instQ = s.sw.instQ)
  ∧ (∀ (v : Deliver) (q : List Deliver) (s : State), s.sw.instQ = v :: q →
    Completes (.rxRingDeliver false) s fun t => Only [.sw, .insts, .mlk, .faults, .mbx, .evr, .bki] s t ∧ t.sw.instQ = q ∧ t.sw.hostQ = s.sw.hostQ)

/-- With both supplies good and the module out of reset, a passed loop test marks the loop as tested and a failed one is a finding
of BYP (R106). The coil is energised when the join is allowed, every condition of R102 holds and it is not energised yet, and
the time of the command is noted. Completion of the switch makes the sensed position the commanded one, and a disagreement is
over (R103, R372). A position that still differs 10 ms after the command is a K-class finding of BYP, with the coil off, P0 and
P1 down and ATTACH 3 on both (R104). (03_ports_and_bypass.md, 15_start_up_and_live_change.md) -/
def Obligations.BypassHeadCommands : Prop :=
  (∀ s : State, s.head.present = true → s.power.aonGood = true → s.power.mainGood = true → s.power.resetLow = false → s.head.coil = false →
    Completes (.loopTest true) s fun t => Only [.head] s t ∧ t.head = { s.head with loopOk := true, loopFrom := none })
  ∧ (∀ s : State, s.head.present = true → s.power.aonGood = true → s.power.mainGood = true → s.power.resetLow = false → s.head.coil = false →
    Completes (.loopTest false) s fun t => t.head.loopOk = false ∧ (t.fset .byp 0).state = true ∧ t.head.coil = false)
  ∧ (∀ s : State, s.head.joinAllowed = true → coilAllowed s = true → s.head.coil = false →
    Completes .coilEnergise s fun t =>
      Only [.head] s t ∧ t.head = { s.head with coil := true, cmdAt := s.now })
  ∧ (∀ s : State, coilAllowed s = true → s.head.loopOk = true ∧ s.head.present = true ∧ s.head.forced = false
      ∧ s.power.mainGood = true ∧ s.power.pfwLow = false ∧ s.power.resetLow = false ∧ s.inFault .byp 0 = false)
  ∧ (∀ s : State, s.head.present = true →
    Completes .headSwitchComplete s fun t =>
      Only [.head, .faults] s t ∧ t.head = { s.head with through := s.head.coil } ∧ (t.fset .byp 0).persist = false)
  ∧ (∀ (b : Bool) (s : State), s.head.present = true → b ≠ s.head.coil → (s.fset .byp 0).persist = false →
      s.head.cmdAt + ms 10 ≤ s.now →
    Completes (.headPositionMismatch b) s fun t =>
      t.head.coil = false ∧ t.head.through = b ∧ (t.port 0).attach = 3 ∧ (t.port 1).attach = 3
      ∧ (s.head.coil = true → (t.port 0).link = false ∧ (t.port 1).link = false)
      ∧ (t.fset .byp 0).state = true ∧ (t.fset .byp 0).persist = b
      ∧ (t.fset .byp 0).cntK = satAdd 32 (s.fset .byp 0).cntK 1)

/-- On a port outside HSR and PRP mode, a good frame that is no MAC control, PTP, reserved or malformed frame and whose key an
ACTIVE stream entry holds with this ingress port (R108, R112): MATCH_FRAMES and MATCH_OCTETS of the entry advance, IDLE_COUNT
and IDLE are cleared. With claim filtering and verification off, when the entry forwards to a port that may have a copy and the
buffer has room, the frame is stored: the number of the next stored frame advances by one. A frame from a port that INGRESS_MASK
does not name is counted in WRONG_PORT and leaves the match counters alone. (04_stream_table_and_switch.md) -/
def Obligations.KnownStreamFramesAreCountedAndCopied : Prop :=
  ∀ (k i : Nat) (f : List Byte) (line : LineErrs) (s : State),
    k < 8 → (s.port k).link = true → s.season.season ≠ .winter → (s.port k).rxEn = true →
    64 ≤ frameLen f → frameLen f ≤ (s.port k).maxFrame → ¬(isTagged f = true ∧ tci f % 4096 = 4095) → etherType f ≠ 0x8808 →
    s.hsrPort k = false → s.prpPort k = false →
    (∀ j, fwdLookup (fwdKey (srcMac (received k f s).octets) (received k f s).vid) s = some j → (s.fwdE j).dropSrc = false) →
    isPtp k (received k f s).octets = false → reservedDest (received k f s).octets = false → malformed (received k f s).octets = false →
    streamLookup (streamKey (received k f s).octets (received k f s).vid) s = some i →
    s.ksu.verifyEn = false → s.cgu.claimRxEn = false →
    ((s.stream i).ingress.getLsbD k = true →
      Completes (.frameReceive k f ⟨true, line⟩) s fun t =>
        (t.stream i).matchFrames = satAdd 64 (s.stream i).matchFrames 1
        ∧ (t.stream i).matchOctets = satAdd 64 (s.stream i).matchOctets (frameLen f)
        ∧ (t.stream i).idleCount = 0 ∧ (t.stream i).idle = false ∧ (t.stream i).wrongPort = (s.stream i).wrongPort
        ∧ ((s.stream i).action.getLsbD 3 = false → (s.stream i).action.getLsbD 0 = true →
            allowedPorts k (maskList (s.stream i).ports) s ≠ [] → cellsOf (frameLen (received k f s).octets) ≤ s.sw.freeCells →
            t.sw.nextFrame = s.sw.nextFrame + 1))
    ∧ ((s.stream i).ingress.getLsbD k = false →
      Completes (.frameReceive k f ⟨true, line⟩) s fun t =>
        (t.stream i).wrongPort = satAdd 16 (s.stream i).wrongPort 1 ∧ (t.stream i).matchFrames = (s.stream i).matchFrames
        ∧ (t.stream i).matchOctets = (s.stream i).matchOctets)

/-- For a frame with sequence number q from a source with forwarding entry i whose IDLE_COUNT was idle (R129). The window is first
cleared after four idle ticks. A number newer than any seen moves the window: DUP_LAST becomes q, both sides shift by the
distance, the copy is noted on its own side, and it is passed on and copied. A number older than the window is counted out of
window, leaves the entry as it is, and is treated as new. Any other number is discarded as circulating when its own side has
seen it; else it is noted, and counted as a discarded duplicate, without local copies, when the other side has seen it. A source
without entry is counted as untracked and not passed along the ring. (04_stream_table_and_switch.md) -/
def Obligations.DuplicateDiscardWindow : Prop :=
  (∀ (ptp : Bool) (k q idle i : Nat) (s : State), q < 65536 →
    let e := s.fwdE i
    let c := idle ≥ 4
    let last := if c then q else e.dupLast.toNat
    let sa := if c then (0 : BitVec 64) else e.seenA
    let sb := if c then (0 : BitVec 64) else e.seenB
    let d := (q + 65536 - last) % 65536
    let b := k = 1 ∨ k = 5
    let r := dupCheck ptp k q idle i s
    let n := r.2.fwdE i
    Only [.sw] s r.2 ∧ (∀ j, j ≠ i → r.2.fwdE j = s.fwdE j) ∧ n.key = e.key ∧ n.state = e.state
    ∧ (1 ≤ d → d ≤ 32767 →
        r.1.drop = false ∧ r.1.pass = true ∧ r.1.copies = true ∧ n.dupLast.toNat = q ∧ r.2.sw.live = s.sw.live
        ∧ ∀ j, j < 64 → (n.seenA.getLsbD j = (decide (d ≤ j) && sa.getLsbD (j - d) || decide (j = 0 ∧ ¬ b)))
            ∧ (n.seenB.getLsbD j = (decide (d ≤ j) && sb.getLsbD (j - d) || decide (j = 0 ∧ b))))
    ∧ (32767 < d → 63 < 65536 - d →
        r.1.drop = false ∧ r.1.pass = true ∧ r.1.copies = true ∧ r.2.sw.live = bump s.sw.live 10
        ∧ n.seenA = sa ∧ n.seenB = sb ∧ n.dupLast.toNat = last)
    ∧ (d = 0 ∨ 65536 - d ≤ 63 →
        let j := (65536 - d) % 65536
        let own := if b then sb.getLsbD j else sa.getLsbD j
        let other := if b then sa.getLsbD j else sb.getLsbD j
        n.dupLast.toNat = last
        ∧ (own = true → r.1.drop = true ∧ r.1.pass = false ∧ r.2.sw.live = bump s.sw.live 9 ∧ n.seenA = sa ∧ n.seenB = sb)
        ∧ (own = false → r.1.drop = false ∧ r.1.pass = true ∧ (if b then n.seenB else n.seenA).getLsbD j = true
            ∧ (if b then n.seenA else n.seenB) = (if b then sa else sb)
            ∧ r.1.copies = !(other && !ptp) ∧ r.2.sw.live = if other && !ptp then bump s.sw.live 8 else s.sw.live)))
  ∧ (∀ (ptp : Bool) (k q : Nat) (s : State),
      (dupDiscard ptp k (some q) none s).1.drop = false ∧ (dupDiscard ptp k (some q) none s).1.pass = false
      ∧ (dupDiscard ptp k (some q) none s).1.copies = true ∧ (dupDiscard ptp k (some q) none s).2 = swCount 11 s)

/-- With claim filtering on, a frame of stream entry i with a trailer of claim 0 is dropped; a redundancy trailer behind the claim
trailer is looked past. Without a record, or with one whose memory has expired, it is accepted and becomes the record. With a
live record it is accepted when its value, claim times 16 plus unit, is above the record's, which it replaces, or equal to it,
which renews the time; a lower one is dropped and leaves the record as it is. A frame without trailer is accepted and changes
nothing. No other record changes. (R244) -/
def Obligations.ClaimRuleOnReception : Prop :=
  ∀ (i : Nat) (f : List Byte) (s : State), s.cgu.claimRxEn = true →
    (claimOf (beforeRct f) = none → claimFilter i f s = (true, s))
    ∧ ∀ w, claimOf (beforeRct f) = some w →
        let v := trailerClaim w * 16 + trailerUnit w
        let r := claimFilter i f s
        let old := s.cgu.recs.get i {}
        Only [.cgu] s r.2 ∧ (∀ j, j ≠ i → r.2.cgu.recs.get j {} = s.cgu.recs.get j {})
        ∧ (trailerClaim w = 0 → r.1 = false ∧ r.2.cgu.recs = s.cgu.recs)
        ∧ (trailerClaim w ≠ 0 → s.cgu.recs.has i = false ∨ old.atNs + ms s.cgu.claimMemMs ≤ s.now →
            r.1 = true ∧ r.2.cgu.recs.get i {} = { h := v, atNs := s.now })
        ∧ (trailerClaim w ≠ 0 → s.cgu.recs.has i = true → s.now < old.atNs + ms s.cgu.claimMemMs →
            (old.h < v → r.1 = true ∧ r.2.cgu.recs.get i {} = { h := v, atNs := s.now })
            ∧ (v = old.h → r.1 = true ∧ (r.2.cgu.recs.get i {}).h = old.h ∧ (r.2.cgu.recs.get i {}).atNs = s.now)
            ∧ (v < old.h → r.1 = false ∧ r.2.cgu.recs.get i {} = old))

/-- The oldest committed change (R123, R124). A rewrite of an ACTIVE entry, stream or forwarding, waits while REFCNT_PREV is not 0,
and nothing changes. Once it is 0 the change moves REFCNT_CUR into REFCNT_PREV, clears REFCNT_CUR, advances GEN and writes the
new fields, leaving every other entry as it is; another slot that holds the key ACTIVE drains with the change, which waits while
that slot's REFCNT_PREV is not 0 (R111). An admission into a FREE slot makes it ACTIVE and advances GEN. A bitmap or a mirror
session is rewritten once no entry that has dropped it has copies of its previous generation. A removal makes an ACTIVE entry
DRAINING, or QUARANTINE at once when no copy of it is in flight. (04_stream_table_and_switch.md) -/
def Obligations.EntriesChangeByGeneration : Prop :=
  (∀ (c : StbChange) (rest : List StbChange) (s : State), s.sw.applying = c :: rest → c.op = .putStream →
      (s.stream c.idx).state = .active → (s.stream c.idx).refPrev ≠ 0 →
    Completes .entryChangeApply s fun t => t = s)
  ∧ (∀ (c : StbChange) (rest : List StbChange) (s : State), s.sw.applying = c :: rest → c.op = .putStream →
      (s.stream c.idx).state = .active → (s.stream c.idx).refPrev = 0 → streamTwin c.idx c.stream.key s = none →
    Completes .entryChangeApply s fun t =>
      let e := s.stream c.idx
      let n := t.stream c.idx
      Only [.sw, .insts, .bki, .evr, .mbx, .mon] s t ∧ t.sw.applying = rest ∧ (∀ j, j ≠ c.idx → t.stream j = s.stream j)
      ∧ n.gen = (e.gen + 1) % 65536 ∧ n.refPrev = e.refCur ∧ n.refCur = 0 ∧ n.state = .active
      ∧ n.key = c.stream.key ∧ n.action = c.stream.action ∧ n.cls = c.stream.cls ∧ n.ageCode = c.stream.ageCode
      ∧ n.ports = c.stream.ports ∧ n.ingress = c.stream.ingress ∧ n.subRef = c.stream.subRef ∧ n.rate = c.stream.rate
      ∧ n.matchFrames = e.matchFrames ∧ n.matchOctets = e.matchOctets)
  ∧ (∀ (c : StbChange) (rest : List StbChange) (s : State), s.sw.applying = c :: rest → c.op = .putStream →
      (s.stream c.idx).state = .free → streamTwin c.idx c.stream.key s = none →
    Completes .entryChangeApply s fun t =>
      t.sw.applying = rest ∧ (∀ j, j ≠ c.idx → t.stream j = s.stream j)
      ∧ (t.stream c.idx).state = .active ∧ (t.stream c.idx).gen = ((s.stream c.idx).gen + 1) % 65536
      ∧ (t.stream c.idx).key = c.stream.key ∧ (t.stream c.idx).refCur = 0 ∧ (t.stream c.idx).matchFrames = 0)
  ∧ (∀ (c : StbChange) (rest : List StbChange) (j : Nat) (s : State), s.sw.applying = c :: rest → c.op = .putStream →
      (s.stream c.idx).state = .free → streamTwin c.idx c.stream.key s = some j →
    Completes .entryChangeApply s fun t =>
      ((s.stream j).refPrev ≠ 0 → t = s)
      ∧ ((s.stream j).refPrev = 0 → t.sw.applying = rest ∧ (t.stream c.idx).state = .active ∧ (t.stream c.idx).key = c.stream.key
          ∧ (t.stream j).state = (if (s.stream j).refCur = 0 then EntState.quarantine else EntState.draining)))
  ∧ (∀ (c : StbChange) (rest : List StbChange) (s : State), s.sw.applying = c :: rest → c.op = .putFwd →
      (s.fwdE c.idx).state = .active → (s.fwdE c.idx).refPrev = 0 → fwdTwin c.idx c.fwd.key s = none →
    Completes .entryChangeApply s fun t =>
      t.sw.applying = rest ∧ (∀ j, j ≠ c.idx → t.fwdE j = s.fwdE j) ∧ (∀ j, t.stream j = s.stream j)
      ∧ (t.fwdE c.idx).gen = ((s.fwdE c.idx).gen + 1) % 65536 ∧ (t.fwdE c.idx).refPrev = (s.fwdE c.idx).refCur
      ∧ (t.fwdE c.idx).refCur = 0 ∧ (t.fwdE c.idx).ports = c.fwd.ports ∧ (t.fwdE c.idx).state = .active)
  ∧ (∀ (c : StbChange) (rest : List StbChange) (s : State), s.sw.applying = c :: rest → c.op = .remove → isStreamIdx c.idx = true →
      (s.stream c.idx).state = .active → (s.stream c.idx).refPrev = 0 →
    Completes .entryChangeApply s fun t =>
      t.sw.applying = rest ∧ (∀ j, j ≠ c.idx → t.stream j = s.stream j)
      ∧ (t.stream c.idx).state = (if (s.stream c.idx).refCur = 0 then EntState.quarantine else EntState.draining)
      ∧ ((s.stream c.idx).refCur = 0 → (t.stream c.idx).quarEnd = s.now + holdoffNs s)
      ∧ (t.stream c.idx).gen = ((s.stream c.idx).gen + 1) % 65536)
  ∧ (∀ (c : StbChange) (rest : List StbChange) (s : State), s.sw.applying = c :: rest → c.op = .putBitmap →
    Completes .entryChangeApply s fun t =>
      (bitmapHeld c.idx s = true → t = s)
      ∧ (bitmapHeld c.idx s = false → t.sw.applying = rest ∧ (∀ j, t.stream j = s.stream j) ∧ t.sw.bitmaps = s.sw.bitmaps.set c.idx c.bitmap))
  ∧ (∀ (c : StbChange) (rest : List StbChange) (s : State), s.sw.applying = c :: rest → c.op = .putMir →
    Completes .entryChangeApply s fun t =>
      (mirHeld c.idx s = true → t = s)
      ∧ (mirHeld c.idx s = false → t.sw.applying = rest ∧ (∀ j, t.stream j = s.stream j) ∧ t.sw.mir = s.sw.mir.set c.idx c.mir))

/-- Every 100 ms IDLE_COUNT of each ACTIVE stream entry advances, and IDLE is set once it has reached ten times IDLE_LIMIT (R115).
An idle LEARNED entry that is not STATIC leaves ACTIVE when the firmware acts on its event; any other is reported and stays. At
the end of its hold-off a QUARANTINE slot is FREE and keeps only its generation (R125). Once a second MATCH_OCTETS of every
entry is noted and invalidated entries are restored (R122, R58). (04_stream_table_and_switch.md) -/
def Obligations.TableTimersComplete : Prop :=
  (∀ s : State, s.sw.idleAt + ms 100 ≤ s.now →
    Completes .idleTick s fun t =>
      Only [.sw] s t ∧ t.sw.idleAt = s.now
      ∧ ∀ i, (∀ e, e = s.stream i → e.state = .active →
            t.stream i = { e with
              idleCount := satAdd 16 e.idleCount 1
              idle := e.idle || (decide (e.idleLimit ≠ 0) && decide (10 * e.idleLimit ≤ satAdd 16 e.idleCount 1))
              idleDue := e.idleDue || (decide (e.idleLimit ≠ 0) && decide (10 * e.idleLimit ≤ satAdd 16 e.idleCount 1) && !e.idle) })
          ∧ ((s.stream i).state ≠ .active → t.stream i = s.stream i)
          ∧ ((s.fwdE i).state ≠ .active → t.fwdE i = s.fwdE i)
          ∧ ((s.fwdE i).state = .active → (s.fwdE i).learned = false →
              t.fwdE i = { s.fwdE i with idleCount := satAdd 16 (s.fwdE i).idleCount 1 })
          ∧ ((s.fwdE i).state = .active → (s.fwdE i).learned = true → (s.fwdE i).static = false →
              10 * s.sw.fwdIdleS ≤ satAdd 16 (s.fwdE i).idleCount 1 → (t.fwdE i).state ≠ .active))
  ∧ (∀ (i : Nat) (s : State), isStreamIdx i = true → (s.stream i).state = .active → (s.stream i).idle = true →
      (s.stream i).idleDue = true → s.persist.fwUp = true → (s.stream i).learned = true → (s.stream i).static = false →
      s.sw.applying = [] → (s.stream i).refPrev = 0 →
    Completes (.idleEntryRemove i) s fun t =>
      (∀ j, j ≠ i → t.stream j = s.stream j) ∧ t.sw.applying = []
      ∧ (t.stream i).state = if (s.stream i).refCur = 0 then EntState.quarantine else EntState.draining)
  ∧ (∀ (i : Nat) (s : State), isStreamIdx i = true → (s.stream i).state = .active → (s.stream i).idle = true →
      (s.stream i).idleDue = true → s.persist.fwUp = true → ((s.stream i).learned = false ∨ (s.stream i).static = true) →
    Completes (.idleEntryRemove i) s fun t =>
      Only [.sw, .bki, .evr, .mbx] s t ∧ (∀ j, j ≠ i → t.stream j = s.stream j) ∧ t.stream i = { s.stream i with idleDue := false })
  ∧ (∀ (i : Nat) (s : State), isStreamIdx i = true → (s.stream i).state = .quarantine → (s.stream i).quarEnd ≤ s.now →
    Completes (.entryHoldoffEnd i) s fun t =>
      Only [.sw, .cgu, .ksu] s t ∧ (∀ j, j ≠ i → t.stream j = s.stream j) ∧ t.stream i = { gen := (s.stream i).gen }
      ∧ t.cgu.recs.has i = false)
  ∧ (∀ (i : Nat) (s : State), isFwdIdx i = true → (s.fwdE i).state = .quarantine → (s.fwdE i).quarEnd ≤ s.now →
    Completes (.entryHoldoffEnd i) s fun t =>
      Only [.sw] s t ∧ (∀ j, j ≠ i → t.fwdE j = s.fwdE j) ∧ t.fwdE i = { gen := (s.fwdE i).gen })
  ∧ (∀ s : State, s.persist.fwUp = true → s.sw.rateAt + sec 1 ≤ s.now →
    Completes .rateCheck s fun t =>
      Only [.sw, .faults, .evr, .bki] s t ∧ t.sw.rateAt = s.now
      ∧ (∀ i, t.stream i = { s.stream i with lastOctets := (s.stream i).matchOctets, invalid := false })
      ∧ (t.fset .stb 0).cntC = satAdd 32 (s.fset .stb 0).cntC
          (s.sw.streams.filter fun p => p.2.state == .active && p.2.overRate).length)

/-- A pending record raises its learn event once, 100 ms after its first frame, with the frames and octets counted by then (R121).
Under policy HOST it stays with that event noted; under FORWARD and DENY it is closed by the firmware's answer (R122). Ten
seconds after its event a record closes. Supervision frames leave every 2,000 ms, each taking the next sequence number of its
redundant pair, and a node not heard of for 60 s is forgotten (R127). (04_stream_table_and_switch.md) -/
def Obligations.LearningAndNodesComplete : Prop :=
  (∀ (key : BitVec 128) (r : LearnRec) (s : State), (s.sw.learn.find? fun r => r.key == key) = some r → r.eventAt = none →
      r.firstAt + ms 100 ≤ s.now → s.persist.fwUp = true →
      (s.sw.policy.get (((List.range 8).find? fun k => r.ports.getLsbD k).getD 0) {}).kind = 0 →
    Completes (.learnEvent key) s fun t =>
      Only [.sw, .bki, .evr, .mbx] s t ∧ (∀ i, t.stream i = s.stream i)
      ∧ (t.sw.learn.find? fun r => r.key == key) = some { r with eventAt := some s.now, evFrames := r.frames, evOctets := r.octets }
      ∧ t.sw.live.get 3 0 = satAdd 64 (s.sw.live.get 3 0) 1)
  ∧ (∀ (key : BitVec 128) (r : LearnRec) (s : State), (s.sw.learn.find? fun r => r.key == key) = some r → r.eventAt = none →
      r.firstAt + ms 100 ≤ s.now → s.persist.fwUp = true →
      ((s.sw.policy.get (((List.range 8).find? fun k => r.ports.getLsbD k).getD 0) {}).kind = 1
        ∨ (s.sw.policy.get (((List.range 8).find? fun k => r.ports.getLsbD k).getD 0) {}).kind = 2) →
    Completes (.learnEvent key) s fun t =>
      Only [.sw, .insts, .time, .bki, .evr, .mbx, .mon] s t ∧ (∀ r ∈ t.sw.learn, r.key ≠ key)
      ∧ t.sw.live.get 3 0 = satAdd 64 (s.sw.live.get 3 0) 1)
  ∧ (∀ (key : BitVec 128) (r : LearnRec) (a : Nat) (s : State), (s.sw.learn.find? fun r => r.key == key) = some r →
      r.eventAt = some a → a + sec 10 ≤ s.now →
    Completes (.learnRecordClose key) s fun t =>
      Only [.sw] s t ∧ t.sw = { s.sw with learn := s.sw.learn.filter fun r => r.key ≠ key })
  ∧ (∀ s : State, s.persist.fwUp = true → s.sw.superAt + ms 2000 ≤ s.now →
    Completes .supervisionSend s fun t =>
      t.sw.superAt = s.now
      ∧ t.sw.hsrSeq = (if s.sw.hsrEn then (s.sw.hsrSeq + 1) % 65536 else s.sw.hsrSeq)
      ∧ t.sw.prpSeq = (if s.sw.prpEn then (s.sw.prpSeq + 1) % 65536 else s.sw.prpSeq))
  ∧ (∀ (mac : BitVec 48) (n : Node) (s : State), (s.sw.nodes.find? fun n => n.mac == mac) = some n → n.lastSeen + sec 60 ≤ s.now →
    Completes (.nodeForget mac) s fun t =>
      Only [.sw] s t ∧ t.sw = { s.sw with nodes := s.sw.nodes.filter fun n => n.mac ≠ mac })

/-- What R144 does with an ASDU of sample count smp of a group whose next expected count is e = (LAST_SMPCNT + 1) mod SMP_WRAP, with
g = (smp - e) mod SMP_WRAP. In a running group within GAP_TIME, an ASDU with g of at least half the wrap is discarded and only
counted as old. Every other one becomes the last accepted: LAST_SMPCNT, the synch value and the arrival time are its own. EXT
goes on by one for g = 0, by g + 1 after filling (counted by g) or a restart (counted once), and is 0 after a start, which
leaves the group running. (05_sample_conditioning.md) -/
def Obligations.GroupGapRule : Prop :=
  ∀ (gn : Nat) (ins : List (Int × BitVec 32)) (smp synch : Nat) (s : State),
    let x := s.group gn
    let w := x.smpWrap
    let g := (smp + w - (x.lastSmp + 1) % w) % w
    let fresh := x.state ≠ 1 ∨ x.lastArr + ms x.gapTime ≤ s.now
    let t := groupAccept gn ins smp synch s
    let y := t.group gn
    (¬ fresh → g ≠ 0 → w ≤ 2 * g → t = sceCount 5 s)
    ∧ (fresh ∨ g = 0 ∨ 2 * g < w →
        Only [.sce, .insts, .mlk, .acq, .sw, .free, .evr, .bki] s t
        ∧ y.lastSmp = smp ∧ y.lastSynch = synch % 4 ∧ y.synchKnown = true ∧ y.lastArr = s.now ∧ y.entry = x.entry ∧ y.nch = x.nch)
    ∧ (fresh → y.ext = 0 ∧ y.state = 1)
    ∧ (¬ fresh → g = 0 → y.ext = (x.ext + 1) % 2 ^ 32 ∧ y.state = x.state)
    ∧ (¬ fresh → g ≠ 0 → 2 * g < w → y.ext = (x.ext + g + 1) % 2 ^ 32 ∧ y.state = x.state
        ∧ (g ≤ x.gapFill → t.sce.live.get 6 0 = satAdd 64 (s.sce.live.get 6 0) g)
        ∧ (x.gapFill < g → t.sce.live.get 7 0 = satAdd 64 (s.sce.live.get 7 0) 1))

/-- One output taken by a threshold of a mode other than off (R157, R158). An invalid output never raises or clears and ends a run.
Inactive, an output beyond the level lengthens the run, and with the run reaching MIN_DUR the threshold becomes active with a
RAISE event whose onset is the first sample of the run; an output not beyond it ends the run. Active, it stays so until an
output has returned past the hysteresis, which gives a CLEAR event. Level, hysteresis and mode stay. (05_sample_conditioning.md) -/
def Obligations.ThresholdsHoldTheirEdges : Prop :=
  ∀ (x : Thr) (v : Int) (invalid : Bool) (smp : Nat), x.mode ≠ 0 →
    let r := x.step v invalid smp
    r.1.level = x.level ∧ r.1.hyst = x.hyst ∧ r.1.mode = x.mode
    ∧ (invalid = true → r.2 = 0 ∧ r.1.active = x.active ∧ (x.active = false → r.1.run = 0))
    ∧ (invalid = false → x.active = false → x.beyond v = true → x.run < 255 →
        r.1.run = x.run + 1 ∧ (r.2 = 1 ↔ x.minDur ≤ x.run + 1) ∧ r.1.active = decide (x.minDur ≤ x.run + 1)
        ∧ (x.run = 0 → r.1.onset = smp) ∧ (x.run ≠ 0 → r.1.onset = x.onset))
    ∧ (invalid = false → x.active = false → x.beyond v = false → r.2 = 0 ∧ r.1.active = false ∧ r.1.run = 0)
    ∧ (invalid = false → x.active = true → (r.2 = 2 ↔ x.returned v = true) ∧ r.1.active = !x.returned v)
    ∧ (x.mode = 1 → 0 ≤ x.hyst → x.beyond v = true → x.returned v = false)

/-- The oldest copy leaves the engine's input queue. A copy whose frame was found damaged is discarded and counted, and reaches no
group (R58). With the engine off, or no group bound to its entry, it is counted as unbound and its copy completes. With exactly
one group bound, a frame of one good ASDU whose count is not old makes the group's last accepted count and arrival those of this
ASDU (R142 to R144). Once per millisecond every running group without an ASDU for GAP_TIME turns stale, and no other group
changes its state (R145). (05_sample_conditioning.md) -/
def Obligations.ConditioningCommandsComplete : Prop :=
  (∀ (v : Deliver) (q : List Deliver) (s : State), s.sw.sceQ = v :: q →
    Completes .sceCopy s fun t => Only [.sw, .sce, .insts, .mlk, .acq, .free, .mbx, .evr, .bki] s t ∧ t.sw.sceQ = q)
  ∧ (∀ (v : Deliver) (q : List Deliver) (s : State), s.sw.sceQ = v :: q → (s.stored v.frame).crcOk = false →
    Completes .sceCopy s fun t =>
      Only [.sw, .insts, .mbx, .evr, .bki] s t ∧ t.sw.sceQ = q ∧ t.sw.live.get 18 0 = satAdd 64 (s.sw.live.get 18 0) 1)
  ∧ (∀ (v : Deliver) (q : List Deliver) (s : State), s.sw.sceQ = v :: q → (s.stored v.frame).crcOk = true →
      (s.sce.en = false ∨ ∀ p ∈ s.sce.groups, p.2.en = true → p.2.entry ≠ v.entry) →
    Completes .sceCopy s fun t =>
      Only [.sw, .sce, .insts, .mbx, .evr, .bki] s t ∧ t.sce = { s.sce with live := bump s.sce.live 0 } ∧ t.sw.sceQ = q)
  ∧ (∀ (v : Deliver) (q : List Deliver) (gn : Nat) (a : Asdu) (s : State), s.sw.sceQ = v :: q → (s.stored v.frame).crcOk = true → s.sce.en = true →
      ((s.sce.groups.filter fun p => p.2.en && p.2.entry == v.entry).map fun p => p.1) = [gn] →
      frameAsdus (s.stored v.frame).octets = some [a] →
      asduFails (s.group gn) ((s.group gn).ctxNums.map s.ctx) a.svId a = none →
      (let x := s.group gn
       let g := (a.smpCnt.getD 0 + x.smpWrap - (x.lastSmp + 1) % x.smpWrap) % x.smpWrap
       x.state ≠ 1 ∨ x.lastArr + ms x.gapTime ≤ s.now ∨ g = 0 ∨ 2 * g < x.smpWrap) →
    Completes .sceCopy s fun t =>
      (t.group gn).lastSmp = a.smpCnt.getD 0 ∧ (t.group gn).lastArr = s.now ∧ t.sce.live.get 0 0 = s.sce.live.get 0 0)
  ∧ (∀ s : State, s.sce.lastCheck + ms 1 ≤ s.now →
    Completes .sceStaleCheck s fun t =>
      Only [.sce, .insts, .mlk, .acq, .evr, .bki] s t ∧ t.sce.lastCheck = s.now
      ∧ ∀ gn ∈ s.sce.groups.map fun p => p.1,
          (t.group gn).state = (if (s.group gn).en = true ∧ (s.group gn).state = 1 ∧ (s.group gn).lastArr + ms (s.group gn).gapTime ≤ s.now
            then 2 else (s.group gn).state)
          ∧ (t.group gn).lastSmp = (s.group gn).lastSmp)

/-- ACQ_SAMPLE takes the oldest entry at the engine's input; while the clock of the DRAM interface stands neither it nor ACQ_FLUSH
does anything (R21). A conditioned sample that a running stream has room for is counted on by one in its source, whichever
records it closes (R310, R311). FLUSH_US after its first item the frame being filled is staged with the next frame number
(R322). The granules of a disabled stream whose staging buffer is empty are released (R329). An edge of TRIG_IN sets the level:
with the input off nothing else changes; within the dead time it is only counted; otherwise it is the last accepted edge and a
trigger of every running stream that enables the cause, with the span the cause then has, and is counted for every other stream
it concerns (R316, R317; which streams it concerns is the model's choice, log entry 153). (10_disturbance_streaming.md,
01_sample_to_trip.md) -/
def Obligations.AcquisitionCommandsComplete : Prop :=
  (∀ (e : AcqEntry) (q : List AcqEntry) (s : State), s.acq.inQ = e :: q → s.clockUp .dmc = true →
    Completes .acqSample s fun t => Only [.sw, .insts, .acq, .evr, .bki, .mbx] s t ∧ t.acq.inQ = q)
  ∧ (∀ (n : Nat) (s : State), s.clockUp .dmc = false →
    Completes .acqSample s (fun t => t = s) ∧ Completes (.acqFlush n) s fun t => t = s)
  ∧ (∀ (n k : Nat) (a : AcqArrival) (s : State), (s.acqS n).run = true → a.raw = false →
      (s.acqS n).roomFor (24 + 8 * a.smp.xs.length) false = true →
    Only [.acq, .evr, .bki] s (acqTake n k a s)
    ∧ (((acqTake n k a s).acqS n).sst.get k {}).next = ((s.acqS n).sst.get k {}).next + 1)
  ∧ (∀ (n : Nat) (i : AcqItem) (is : List AcqItem) (s : State), (s.acqS n).items = i :: is →
      i.firstAge + us i.flushUs ≤ s.now → s.clockUp .dmc = true →
    Completes (.acqFlush n) s fun t =>
      Only [.acq] s t ∧ (∀ m, m ≠ n → t.acqS m = s.acqS m)
      ∧ (t.acqS n).items = [] ∧ (t.acqS n).frames.length = (s.acqS n).frames.length + 1
      ∧ (t.acqS n).frameSeq = ((s.acqS n).frameSeq + 1) % 2 ^ 32)
  ∧ (∀ (n : Nat) (s : State), (s.acqS n).en = false → (s.acqS n).frames = [] → (s.acqS n).items = [] →
    Completes (.acqDrained n) s fun t =>
      Only [.acq, .insts] s t ∧ (∀ m, m ≠ n → t.acqS m = s.acqS m) ∧ t.acqS n = { s.acqS n with granules := [] }
      ∧ t.insts.dramClearing = s.insts.dramClearing ++ (s.acqS n).granules
      ∧ ∀ g ∈ (s.acqS n).granules, ∀ p ∈ t.insts.dramOwner, p.1 ≠ g)
  ∧ (∀ (level : Bool) (held : Nat) (s : State), held ≠ 0 → level ≠ s.acq.trigIn → s.acq.trigInEn = false →
    Completes (.trigInEdge level held) s fun t => Only [.acq] s t ∧ t.acq = { s.acq with trigIn := level })
  ∧ (∀ (level : Bool) (held last : Nat) (s : State), held ≠ 0 → level ≠ s.acq.trigIn → s.acq.trigInEn = true →
      edgeWanted s.acq.trigInEdge level = true → s.acq.lastEdge = some last → s.now < last + ms s.acq.deadMs →
    Completes (.trigInEdge level held) s fun t =>
      Only [.acq] s t ∧ t.acq = { s.acq with trigIn := level, live := bump s.acq.live 11 })
  ∧ (∀ (level : Bool) (held : Nat) (s : State), held ≠ 0 → level ≠ s.acq.trigIn → s.acq.trigInEn = true →
      edgeWanted s.acq.trigInEdge level = true → (∀ last, s.acq.lastEdge = some last → last + ms s.acq.deadMs ≤ s.now) →
    Completes (.trigInEdge level held) s fun t =>
      Only [.acq] s t ∧ t.acq.trigIn = level ∧ t.acq.lastEdge = some s.now
      ∧ (∀ n, n < 4 → (t.acqS n).trigs = (if (s.acqS n).run && (s.acqS n).causeEn.getLsbD 0
          then (s.acqS n).trigs ++ [{ s.trigNow 0 with span := (s.acqS n).prePost.getD 0 (0, 0) }] else (s.acqS n).trigs))
      ∧ t.acq.live.get 5 0 = satAdd 64 (s.acq.live.get 5 0)
          ((List.range 4).filter fun n => (s.acqS n).run && (s.acqS n).causeEn.getLsbD 0).length
      ∧ t.acq.live.get 9 0 = satAdd 64 (s.acq.live.get 9 0)
          ((List.range 4).filter fun n => ((s.acqS n).en || (s.acqS n).causeEn.getLsbD 0)
            && !((s.acqS n).run && (s.acqS n).causeEn.getLsbD 0)).length)

/-- For a live instance with lock n at index j of its page (R199 to R204): a try-acquire of a held lock changes no lock and answers
BUSY with the holder; of a broken one it takes the lock, clears BROKEN and answers BROKEN with the dead holder; of a free one it
takes it and answers ACQUIRED with the reader. Where no lock is assigned it answers DENIED and changes no lock. A release by the
holder frees the lock; by anyone else it changes no lock and is counted. A try-acquire or release of a dead generation changes
no lock and is counted as late. A write of LCK_ASSIGN while the lock is held changes nothing; one that gives a free lock to
another owner clears BROKEN and the recorded holder. (06_protection_instances.md) -/
def Obligations.LockWordsAndRelease : Prop :=
  (∀ (i g hart j n : Nat) (s : State), s.genCurrent i g = true → lockAt i j s = some n →
    Completes (.lockTryAcquire (.inst i g) hart j) s fun t =>
      let l := s.lock n
      Only [.insts] s t ∧ (∀ m, m ≠ n → t.lock m = s.lock m)
      ∧ (l.held = true → t.lock n = l ∧ (t.inst i).ret = [1 * 2 ^ 30 + b2n l.byMgp * 2 ^ 29 + l.holder * 2 ^ 20 + l.holderGen * 2 ^ 4])
      ∧ (l.held = false → t.lock n = { l with held := true, broken := false, byMgp := false, holder := i, holderGen := g, hart := hart }
          ∧ (t.inst i).ret = (if l.broken then [2 * 2 ^ 30 + b2n l.byMgp * 2 ^ 29 + l.holder * 2 ^ 20 + l.holderGen * 2 ^ 4]
              else [i * 2 ^ 20 + g * 2 ^ 4])))
  ∧ (∀ (i g hart j : Nat) (s : State), s.genCurrent i g = true → lockAt i j s = none →
    Completes (.lockTryAcquire (.inst i g) hart j) s fun t =>
      Only [.insts] s t ∧ t.insts.locks = s.insts.locks ∧ (t.inst i).ret = [3 * 2 ^ 30])
  ∧ (∀ (i g hart j : Nat) (s : State), s.genCurrent i g = false →
    Completes (.lockTryAcquire (.inst i g) hart j) s fun t =>
      Only [.insts, .faults] s t ∧ t.insts.locks = s.insts.locks
      ∧ (t.inst i).lateDiscards = satAdd 32 (s.inst i).lateDiscards 1 ∧ (t.fset .lck 0).late = satAdd 32 (s.fset .lck 0).late 1)
  ∧ (∀ (i g j n : Nat) (v : BitVec 32) (s : State), s.genCurrent i g = true → v.getLsbD 0 = true → lockAt i j s = some n →
    Completes (.lockRelease (.inst i g) j v) s fun t =>
      Only [.insts, .evr, .bki] s t
      ∧ ((s.lock n).heldBy i g = true → t.lock n = { s.lock n with held := false } ∧ t.evr = s.evr ∧ (∀ m, m ≠ n → t.lock m = s.lock m))
      ∧ ((s.lock n).heldBy i g = false → t.insts.locks = s.insts.locks ∧ t.insts.badRelease = satAdd 32 s.insts.badRelease 1))
  ∧ (∀ (n : Nat) (v : BitVec 32) (s : State), n < 256 → (s.lock n).held = true →
    Completes (.lckAssignWrite n v) s fun t => t = s)
  ∧ (∀ (n : Nat) (v : BitVec 32) (s : State), n < 256 → (s.lock n).held = false → bitOf v 31 = true → bits v 29 21 ≠ (s.lock n).owner →
      (∀ p ∈ s.insts.locks, p.1 ≠ n → p.2.en = true → p.2.owner = bits v 29 21 → p.2.index ≠ bits v 20 17) →
    Completes (.lckAssignWrite n v) s fun t =>
      Only [.insts, .evr, .bki, .mbx] s t ∧ (∀ m, m ≠ n → t.lock m = s.lock m)
      ∧ (t.lock n).en = true ∧ (t.lock n).mgpOk = bitOf v 30 ∧ (t.lock n).owner = bits v 29 21 ∧ (t.lock n).index = bits v 20 17
      ∧ (t.lock n).broken = false ∧ (t.lock n).holder = 0 ∧ (t.lock n).holderGen = 0)

/-- An access of the slot that runs on a core, of a live instance (R181 to R184, R200). In its local store or DRAM share, every
granule that it reaches being under its own owner tag, with a word that decodes without error: a write within one granule
changes those octets and no other octet of memory, no descriptor and no table; a read answers them and changes no memory. In its
control page it acts as a register read or write there. A 32-bit access at 8 x j of its lock page tries or releases its lock j;
any other there reads 0 or changes nothing. While the clock of the DRAM interface stands an access to DRAM itself waits. A
privileged operation that traps, an access outside the map, or one that reaches a granule whose owner tag is another's changes
no memory, and the READY or RUNNING instance is HALTED with cause 3 with a K-class ISOLATION finding; an uncorrectable word that
is no cached instruction halts it with cause 2 (both shown where the finding block's quiet period is not just over, R373). A
service call with a number above 3 is answered BAD_OPCODE (R457). An access of a dead generation is counted as late.
(06_protection_instances.md) -/
def Obligations.CoreAccessesStayInsideTheInstance : Prop :=
  (∀ (core : Nat) (a : CoreAcc) (r : Running) (w : Window) (s : State), core < 64 → (s.psc (core / 8)).cores.has (core % 8) = true →
      (s.psc (core / 8)).cores.get (core % 8) { entry := 0, inst := 0, gen := 0, hart := 0, a2 := 0 } = r → s.genCurrent r.inst r.gen = true → a.call = none → a.trap = false →
      (s.inst r.inst).window a.addr a.octets.length = some w → (w = .ls ∨ w = .dram) →
      a.foreign w r.inst s = none → s.faults.clocks.get Island.dmc.num false = false →
      (let f := (a.locs w core r.inst (a.phys w (s.inst r.inst))).2.finder;
        (s.fset f.1 f.2.1).injArm = false) →
      (a.found w core r.inst s).syn.kind = none → a.write = true → a.via = none → 0 < a.octets.length →
      (if w = .dram then (a.addr - dramBase) / dramGran = (a.addr - dramBase + a.octets.length - 1) / dramGran
        else a.addr / lsGran = (a.addr + a.octets.length - 1) / lsGran) →
    Completes (.coreAccess core a) s fun t =>
      Only [.insts, .mlk] s t ∧ t.insts.desc = s.insts.desc ∧ t.insts.locks = s.insts.locks
      ∧ (w = .ls → t.insts.dramMem = s.insts.dramMem
          ∧ (∀ b, b < a.octets.length → t.insts.lsMem.read1 ((s.inst r.inst).lsPhys (a.addr + b)) = a.octets.getD b 0)
          ∧ ∀ p, (∀ b, b < a.octets.length → p ≠ (s.inst r.inst).lsPhys (a.addr + b)) → t.insts.lsMem.read1 p = s.insts.lsMem.read1 p)
      ∧ (w = .dram → t.insts.lsMem = s.insts.lsMem ∧ t.mlk = s.mlk
          ∧ (∀ b, b < a.octets.length → t.insts.dramMem.read1 ((s.inst r.inst).dramPhys (a.addr + b)) = a.octets.getD b 0)
          ∧ ∀ p, (∀ b, b < a.octets.length → p ≠ (s.inst r.inst).dramPhys (a.addr + b)) →
              t.insts.dramMem.read1 p = s.insts.dramMem.read1 p))
  ∧ (∀ (core : Nat) (a : CoreAcc) (r : Running) (w : Window) (s : State), core < 64 → (s.psc (core / 8)).cores.has (core % 8) = true →
      (s.psc (core / 8)).cores.get (core % 8) { entry := 0, inst := 0, gen := 0, hart := 0, a2 := 0 } = r → s.genCurrent r.inst r.gen = true → a.call = none → a.trap = false →
      (s.inst r.inst).window a.addr a.octets.length = some w → (w = .ls ∨ w = .dram) →
      a.foreign w r.inst s = none → s.faults.clocks.get Island.dmc.num false = false →
      (let f := (a.locs w core r.inst (a.phys w (s.inst r.inst))).2.finder;
        (s.fset f.1 f.2.1).injArm = false) →
      (a.found w core r.inst s).syn.kind = none → a.write = false →
    Completes (.coreAccess core a) s fun t =>
      Only [.insts] s t ∧ t.insts.lsMem = s.insts.lsMem ∧ t.insts.dramMem = s.insts.dramMem ∧ t.insts.locks = s.insts.locks
      ∧ t.inst r.inst = { s.inst r.inst with ret := (t.inst r.inst).ret } ∧ (∀ j, j ≠ r.inst → t.inst j = s.inst j)
      ∧ (a.word.err = 0 → a.word.poisoned = false → a.word.addrErr = [] → a.via = none → a.addr % 16 + a.octets.length ≤ 16 →
          (t.inst r.inst).ret = [leNat (if w = .dram then dramRead r.inst a.addr a.octets.length s else lsRead r.inst a.addr a.octets.length s)]))
  ∧ (∀ (core : Nat) (a : CoreAcc) (r : Running) (s : State), core < 64 → (s.psc (core / 8)).cores.has (core % 8) = true →
      (s.psc (core / 8)).cores.get (core % 8) { entry := 0, inst := 0, gen := 0, hart := 0, a2 := 0 } = r → s.genCurrent r.inst r.gen = true → a.call = none → a.trap = false →
      (s.inst r.inst).window a.addr a.octets.length = some .ctrl →
      let o := (a.addr - 0x1000000) / 4 * 4
      (a.write = false → Completes (.coreAccess core a) s fun t =>
        Only [.insts] s t ∧ (t.inst r.inst).ret = [ctrlRead r.inst o s] ∧ ∀ j, j ≠ r.inst → t.inst j = s.inst j)
      ∧ (a.write = true → r.inst < 512 → s.pagesUp = true → (s.inst r.inst).gen = r.gen →
          Completes (.coreAccess core a) s fun t => exec (.registerWrite (.ctrl r.inst o) (BitVec.ofNat 32 (leNat a.octets))) s = .next t))
  ∧ (∀ (core : Nat) (a : CoreAcc) (r : Running) (s : State), core < 64 → (s.psc (core / 8)).cores.has (core % 8) = true →
      (s.psc (core / 8)).cores.get (core % 8) { entry := 0, inst := 0, gen := 0, hart := 0, a2 := 0 } = r → s.genCurrent r.inst r.gen = true → a.call = none → a.trap = false →
      (s.inst r.inst).window a.addr a.octets.length = some .locks →
      let j := (a.addr - 0x1001000) / 8
      (a.addr % 8 = 0 → a.octets.length = 4 → a.write = false →
        Completes (.coreAccess core a) s fun t => exec (.lockTryAcquire (.inst r.inst r.gen) core j) s = .next t)
      ∧ (a.addr % 8 = 0 → a.octets.length = 4 → a.write = true →
          Completes (.coreAccess core a) s fun t =>
            exec (.lockRelease (.inst r.inst r.gen) j (BitVec.ofNat 32 (leNat a.octets))) s = .next t)
      ∧ (a.addr % 8 ≠ 0 ∨ a.octets.length ≠ 4 → Completes (.coreAccess core a) s fun t =>
          t.insts.locks = s.insts.locks ∧ Only [.insts] s t ∧ (a.write = true → t = s) ∧ (a.write = false → (t.inst r.inst).ret = [0])))
  ∧ (∀ (core : Nat) (a : CoreAcc) (r : Running) (s : State), core < 64 → (s.psc (core / 8)).cores.has (core % 8) = true →
      (s.psc (core / 8)).cores.get (core % 8) { entry := 0, inst := 0, gen := 0, hart := 0, a2 := 0 } = r → s.genCurrent r.inst r.gen = true → a.call = none → a.trap = false →
      (s.inst r.inst).window a.addr a.octets.length = some .dram → a.foreign .dram r.inst s = none →
      s.faults.clocks.get Island.dmc.num false = true → a.cached = false →
    Completes (.coreAccess core a) s fun t => Only [.fab] s t ∧ t.fab.ops.length = s.fab.ops.length + 1)
  ∧ (∀ (core : Nat) (a : CoreAcc) (r : Running) (w : Window) (s : State), core < 64 → (s.psc (core / 8)).cores.has (core % 8) = true →
      (s.psc (core / 8)).cores.get (core % 8) { entry := 0, inst := 0, gen := 0, hart := 0, a2 := 0 } = r → s.genCurrent r.inst r.gen = true → a.call = none →
      (a.trap = true ∨ (s.inst r.inst).window a.addr a.octets.length = none
        ∨ ((s.inst r.inst).window a.addr a.octets.length = some w ∧ (w = .ls ∨ w = .dram) ∧ (a.foreign w r.inst s).isSome = true)) →
      ((s.inst r.inst).state = .ready ∨ (s.inst r.inst).state = .running) →
      let x : BlockId × Nat := (if a.trap = true ∨ (s.inst r.inst).window a.addr a.octets.length = none then (.inx, core / 8)
        else w.target ((a.foreign w r.inst s).getD 0) core)
      s.quietOver x.1 x.2 = false →
    Completes (.coreAccess core a) s fun t =>
      (t.inst r.inst).state = .halted ∧ (t.inst r.inst).cause = 3 ∧ (t.inst r.inst).gen = (s.inst r.inst).gen
      ∧ t.insts.lsMem = s.insts.lsMem ∧ t.insts.dramMem = s.insts.dramMem
      ∧ (t.fset x.1 x.2).state = true ∧ (t.fset x.1 x.2).lastKind = 7
      ∧ (∀ n, (s.lock n).heldBy r.inst (s.inst r.inst).gen = true → (t.lock n).held = false ∧ (t.lock n).broken = true)
      ∧ ∀ j, j ≠ r.inst → t.inst j = s.inst j)
  ∧ (∀ (core : Nat) (a : CoreAcc) (r : Running) (w : Window) (s : State), core < 64 → (s.psc (core / 8)).cores.has (core % 8) = true →
      (s.psc (core / 8)).cores.get (core % 8) { entry := 0, inst := 0, gen := 0, hart := 0, a2 := 0 } = r → s.genCurrent r.inst r.gen = true → a.call = none → a.trap = false →
      (s.inst r.inst).window a.addr a.octets.length = some w → (w = .ls ∨ w = .dram) →
      a.foreign w r.inst s = none → s.faults.clocks.get Island.dmc.num false = false →
      (let f := (a.locs w core r.inst (a.phys w (s.inst r.inst))).2.finder;
        (s.fset f.1 f.2.1).injArm = false ∧ s.quietOver f.1 f.2.1 = false) →
      (a.found w core r.inst s).syn.kind = some 1 → (a.cached = false ∨ a.fetch = false) →
      ((s.inst r.inst).state = .ready ∨ (s.inst r.inst).state = .running) →
    Completes (.coreAccess core a) s fun t =>
      let f := (a.locs w core r.inst (a.phys w (s.inst r.inst))).2.finder
      (t.inst r.inst).state = .halted ∧ (t.inst r.inst).cause = 2 ∧ t.insts.lsMem = s.insts.lsMem ∧ t.insts.dramMem = s.insts.dramMem
      ∧ (t.fset f.1 f.2.1).cntK = satAdd 32 (s.fset f.1 f.2.1).cntK 1 ∧ ∀ j, j ≠ r.inst → t.inst j = s.inst j)
  ∧ (∀ (core : Nat) (a : CoreAcc) (r : Running) (s : State), core < 64 → (s.psc (core / 8)).cores.has (core % 8) = true →
      (s.psc (core / 8)).cores.get (core % 8) { entry := 0, inst := 0, gen := 0, hart := 0, a2 := 0 } = r → s.genCurrent r.inst r.gen = false →
    Completes (.coreAccess core a) s fun t =>
      Only [.insts, .faults] s t ∧ (t.inst r.inst).lateDiscards = satAdd 32 (s.inst r.inst).lateDiscards 1
      ∧ t.insts.lsMem = s.insts.lsMem ∧ t.insts.dramMem = s.insts.dramMem ∧ t.insts.locks = s.insts.locks)
  ∧ (∀ (core n : Nat) (a : CoreAcc) (r : Running) (s : State), core < 64 → (s.psc (core / 8)).cores.has (core % 8) = true →
      (s.psc (core / 8)).cores.get (core % 8) { entry := 0, inst := 0, gen := 0, hart := 0, a2 := 0 } = r → s.genCurrent r.inst r.gen = true →
      a.call = some n → 3 < n →
    Completes (.coreAccess core a) s fun t =>
      Only [.insts] s t ∧ t.inst r.inst = { s.inst r.inst with ret := [0x11] } ∧ ∀ j, j ≠ r.inst → t.inst j = s.inst j)

/-- With the firmware up (R175, R176, R179, R185, R193, R197). An instance halted with cause 2 or 3 whose AUTO_RESET is 1 and that
was reset fewer than three times in the last 3,600 s becomes RESETTING under the next generation, and the locks of the old one
break; with three such resets it stays HALTED and the host is told. The end of a reset, once no shared engine holds work of the
old generation, leaves it READY under the same generation with only its shares mapped, its mailbox pair, queues and receive ring
gone. The end of a removal leaves QUARANTINE with no granules until the hold-off has passed, and then FREE; the generation
stays. A creation gives READY under the next generation with the shares and granules of its request.
(06_protection_instances.md) -/
def Obligations.ResetsRemovalsAndCreationsComplete : Prop :=
  (∀ (i : Nat) (s : State), i < 512 → (s.inst i).state = .halted → ((s.inst i).cause = 2 ∨ (s.inst i).cause = 3) →
      (s.inst i).autoReset = true → s.persist.fwUp = true → (s.inst i).exhausted = false →
      ((s.inst i).resetTimes.filter fun t => decide (s.now < t + sec 3600)).length < 3 →
      (∀ r ∈ s.persist.replacing, r.inst ≠ i) →
    Completes (.autoReset i) s fun t =>
      (t.inst i).state = .resetting ∧ (t.inst i).gen = nextGen (s.inst i).gen
      ∧ t.egq i 0 = none ∧ t.egq i 1 = none ∧ t.mbx.instPairs.has i = false ∧ (t.inst i).rxRing = none
      ∧ (∀ j, j ≠ i → t.inst j = s.inst j)
      ∧ ∀ n, t.lock n = if (s.lock n).heldBy i (s.inst i).gen then { s.lock n with held := false, broken := true } else s.lock n)
  ∧ (∀ (i : Nat) (s : State), i < 512 → (s.inst i).state = .halted → ((s.inst i).cause = 2 ∨ (s.inst i).cause = 3) →
      (s.inst i).autoReset = true → s.persist.fwUp = true → (s.inst i).exhausted = false →
      3 ≤ ((s.inst i).resetTimes.filter fun t => decide (s.now < t + sec 3600)).length →
    Completes (.autoReset i) s fun t =>
      Only [.insts, .bki, .evr, .mbx] s t ∧ t.inst i = { s.inst i with exhausted := true } ∧ ∀ j, j ≠ i → t.inst j = s.inst j)
  ∧ (∀ (i : Nat) (s : State), i < 512 → (s.inst i).state = .resetting → (s.inst i).removing = false → s.persist.fwUp = true →
      (s.inst i).removeHeld = none → engineWork i s = false →
    Completes (.instanceResetComplete i) s fun t =>
      (t.inst i).state = .ready ∧ (t.inst i).gen = (s.inst i).gen ∧ (t.inst i).cause = 0
      ∧ ((s.inst i).share.ls ≤ (s.inst i).lsMap.length → (t.inst i).lsMap = (s.inst i).lsMap.take (s.inst i).share.ls)
      ∧ ((s.inst i).share.dram ≤ (s.inst i).dramMap.length → (t.inst i).dramMap = (s.inst i).dramMap.take (s.inst i).share.dram)
      ∧ t.egq i 0 = none ∧ t.egq i 1 = none ∧ t.mbx.instPairs.has i = false ∧ (t.inst i).rxRing = none
      ∧ ∀ j, j ≠ i → (t.inst j).state = (s.inst j).state ∧ (t.inst j).gen = (s.inst j).gen ∧ (t.inst j).lsMap = (s.inst j).lsMap)
  ∧ (∀ (i : Nat) (s : State), i < 512 → (s.inst i).state = .resetting → (s.inst i).removing = true → s.persist.fwUp = true →
      engineWork i s = false →
    Completes (.instanceRemovalComplete i) s fun t =>
      (t.inst i).state = .quarantine ∧ (t.inst i).gen = (s.inst i).gen ∧ (t.inst i).lsMap = [] ∧ (t.inst i).dramMap = []
      ∧ (t.inst i).share = {} ∧ (t.inst i).quarEnd = s.now + instHoldoff s
      ∧ t.insts.lsClearing = s.insts.lsClearing ++ (s.inst i).lsMap ∧ t.insts.dramClearing = s.insts.dramClearing ++ (s.inst i).dramMap
      ∧ ∀ j, j ≠ i → (t.inst j).state = (s.inst j).state ∧ (t.inst j).gen = (s.inst j).gen ∧ (t.inst j).lsMap = (s.inst j).lsMap)
  ∧ (∀ (i : Nat) (s : State), i < 512 → (s.inst i).state = .quarantine → (s.inst i).quarEnd ≤ s.now →
    Completes (.instanceQuarantineEnd i) s fun t =>
      Only [.insts, .bki, .evr, .mbx] s t ∧ t.inst i = { s.inst i with state := .free } ∧ ∀ j, j ≠ i → t.inst j = s.inst j)
  ∧ (∀ (i : Nat) (c : Creation) (s : State), (s.insts.creating.find? fun c => c.num == i) = some c → s.persist.fwUp = true →
    Completes (.createComplete i) s fun t =>
      (t.inst i).state = .ready ∧ (t.inst i).gen = nextGen (s.inst i).gen ∧ (t.inst i).mac = c.mac ∧ (t.inst i).share = c.share
      ∧ (t.inst i).lsMap = c.ls ∧ (t.inst i).dramMap = c.dram ∧ (t.inst i).allow = c.allow
      ∧ (∀ x ∈ t.insts.creating, x.num ≠ i))

/-- A released granule that is cleared holds zero in every octet, leaves the list of those being cleared, and no other octet of
either memory changes (R180); a DRAM granule waits while the clock of the DRAM interface stands (R21). A RELEASE call of a live
instance that asks for no more than its window holds, and meets nothing registered, takes the highest granules off the window,
hands them over for clearing and answers OK with what is left (R192, R457); one that asks for more answers BAD_PARAM and changes
nothing. (06_protection_instances.md) -/
def Obligations.GranulesComplete : Prop :=
  (∀ (g : Nat) (s : State), s.insts.dramClearing.contains g = true → s.clockUp .dmc = true →
    Completes (.granuleCleared true g) s fun t =>
      Only [.insts] s t ∧ t.insts.dramClearing = s.insts.dramClearing.filter (· ≠ g) ∧ t.insts.lsMem = s.insts.lsMem
      ∧ t.insts.desc = s.insts.desc
      ∧ ∀ p, t.insts.dramMem.read1 p = if g * dramGran ≤ p ∧ p < g * dramGran + dramGran then 0 else s.insts.dramMem.read1 p)
  ∧ (∀ (g : Nat) (s : State), s.clockUp .dmc = false → Completes (.granuleCleared true g) s fun t => t = s)
  ∧ (∀ (g : Nat) (s : State), s.insts.lsClearing.contains g = true →
    Completes (.granuleCleared false g) s fun t =>
      Only [.insts] s t ∧ t.insts.lsClearing = s.insts.lsClearing.filter (· ≠ g) ∧ t.insts.dramMem = s.insts.dramMem
      ∧ t.insts.desc = s.insts.desc
      ∧ ∀ p, t.insts.lsMem.read1 p = if g * lsGran ≤ p ∧ p < g * lsGran + lsGran then 0 else s.insts.lsMem.read1 p)
  ∧ (∀ (i g n : Nat) (s : State), s.genCurrent i g = true → n ≤ (s.inst i).dramMap.length →
    Completes (.release i g 1 n) s fun t =>
      Only [.insts, .bki, .evr, .mbx] s t
      ∧ (t.inst i).dramMap = (s.inst i).dramMap.take ((s.inst i).dramMap.length - n) ∧ (t.inst i).lsMap = (s.inst i).lsMap
      ∧ t.insts.dramClearing = s.insts.dramClearing ++ (s.inst i).dramMap.drop ((s.inst i).dramMap.length - n)
      ∧ (t.inst i).ret = [0, (s.inst i).dramMap.length - n] ∧ ∀ j, j ≠ i → t.inst j = s.inst j)
  ∧ (∀ (i g n : Nat) (s : State), s.genCurrent i g = true → n ≤ (s.inst i).lsMap.length →
      meetsRegistered i (((s.inst i).lsMap.length - n) * lsGran) (n * lsGran) true s = false →
    Completes (.release i g 0 n) s fun t =>
      Only [.insts, .bki, .evr, .mbx] s t
      ∧ (t.inst i).lsMap = (s.inst i).lsMap.take ((s.inst i).lsMap.length - n) ∧ (t.inst i).dramMap = (s.inst i).dramMap
      ∧ t.insts.lsClearing = s.insts.lsClearing ++ (s.inst i).lsMap.drop ((s.inst i).lsMap.length - n)
      ∧ (t.inst i).ret = [0, (s.inst i).lsMap.length - n] ∧ ∀ j, j ≠ i → t.inst j = s.inst j)
  ∧ (∀ (i g n : Nat) (s : State), s.genCurrent i g = true → (s.inst i).dramMap.length < n →
    Completes (.release i g 1 n) s fun t =>
      Only [.insts] s t ∧ t.inst i = { s.inst i with ret := [0x13, (s.inst i).dramMap.length] } ∧ ∀ j, j ≠ i → t.inst j = s.inst j)

/-- A doorbell of a live instance with a tail at most the ring size ahead of the head is the queue's new tail; any other is ignored
and recorded (R236). The descriptor that is taken completes: the head index and EG_SEQ advance by one, whatever the status
(R236, R237). A spoofed descriptor is counted in SPOOF_DROPS and one without credit in NOCREDIT (R187, R189, R238); one that
passes every check is stored when the buffer has room. The oldest copy before the gate of a port is set aside while TAKING and
the list has room, released while ACTIVE or ALONE with WIN and, for a control frame, its claim the own one, and otherwise
dropped and counted as stale or withheld (R256). (08_trip_path_and_pair.md) -/
def Obligations.EgressQueuesAndTheGate : Prop :=
  (∀ (i g q tail : Nat) (e : EgQueue) (s : State), i < 512 → q < 2 → s.genCurrent i g = true → s.egq i q = some e →
    Completes (.egressDoorbell i g q tail) s fun t =>
      Only [.eg, .evr, .bki] s t
      ∧ (modSub 16 tail e.head ≤ e.size → t.egq i q = some { e with tail := tail % 65536 } ∧ t.evr = s.evr ∧ t.bki = s.bki
          ∧ ∀ j r, (j, r) ≠ (i, q) → r < 2 → t.egq j r = s.egq j r)
      ∧ (e.size < modSub 16 tail e.head → t.eg = s.eg))
  ∧ (∀ (i q : Nat) (e : EgQueue) (s : State), i < 512 → q < 2 → s.egq i q = some e → e.ready i s = true →
      (q = 0 ∨ ∀ z, s.egq i 0 = some z → z.ready i s = false) →
    Completes (.egressDescriptor i q) s fun t =>
      let x := headDesc i e s
      let f := lsRead i x.addr x.len s
      let stored := egFormat f x s
      let st := egStatus i (s.inst i).gen x f stored s
      t.egq i q = some { e with head := (e.head + 1) % 65536, seq := (e.seq + 1) % 2 ^ 32 }
      ∧ (1 ≤ st → st ≤ 5 → (t.inst i).spoofDrops = satAdd 32 (s.inst i).spoofDrops 1 ∧ t.sw = s.sw)
      ∧ (st = 6 → (t.inst i).noCredit = satAdd 32 (s.inst i).noCredit 1 ∧ t.sw = s.sw)
      ∧ (7 ≤ st → (t.inst i).spoofDrops = (s.inst i).spoofDrops ∧ t.sw = s.sw)
      ∧ (st = 0 → cellsOf (stored.length + 4) ≤ s.sw.freeCells → t.sw.nextFrame = s.sw.nextFrame + 1))
  ∧ (∀ (k : Nat) (g : GateFrame) (s : State), (s.cgu.gate.find? fun g => g.port == k) = some g → s.cgu.role = .taking →
      (s.cgu.setAside.filter fun x => x.port == g.port).length < 512 →
    Completes (.cguGate k) s fun t =>
      Only [.cgu, .sw] s t ∧ t.cgu.setAside = s.cgu.setAside ++ [g] ∧ t.cgu.gate = s.cgu.gate.erase g ∧ t.ports = s.ports)
  ∧ (∀ (k : Nat) (g : GateFrame) (s : State), (s.cgu.gate.find? fun g => g.port == k) = some g →
      (s.cgu.role = .active ∨ s.cgu.role = .alone) → s.cgu.win = true → (g.ctrl = false ∨ g.claim = s.cgu.ownClaim.toNat) →
      (s.port g.port).link = true → (s.port g.port).txEn = true →
    Completes (.cguGate k) s fun t =>
      Only [.cgu, .ports] s t ∧ t.cgu.gate = s.cgu.gate.erase g
      ∧ t.cgu.live.get 4 0 = satAdd 64 (s.cgu.live.get 4 0) 1
      ∧ g.copy ∈ (t.port g.port).queues.get g.copy.cls [] ∧ ∀ j, j ≠ g.port → t.port j = s.port j)
  ∧ (∀ (k : Nat) (g : GateFrame) (s : State), (s.cgu.gate.find? fun g => g.port == k) = some g → s.cgu.role ≠ .taking →
      (s.cgu.win = false ∨ (s.cgu.role ≠ .active ∧ s.cgu.role ≠ .alone) ∨ (g.ctrl = true ∧ g.claim ≠ s.cgu.ownClaim.toNat)) →
    Completes (.cguGate k) s fun t =>
      Only [.cgu, .sw, .insts, .time, .mbx, .evr, .bki] s t ∧ t.cgu.gate = s.cgu.gate.erase g ∧ t.ports = s.ports
      ∧ (g.ctrl = true → g.claim ≠ s.cgu.ownClaim.toNat → t.cgu.live.get 6 0 = satAdd 64 (s.cgu.live.get 6 0) 1)
      ∧ (g.ctrl = false ∨ g.claim = s.cgu.ownClaim.toNat → t.cgu.live.get 5 0 = satAdd 64 (s.cgu.live.get 5 0) 1))

/-- With the cluster powered and no entry into WINTER in progress (R357). At the end of a frame the next starts, nothing served and
no slack reported yet (R212, R213); with EN 0 frames stop; the first frame starts at a grid instant; a frame has number 0 after
EN became 1 and else the next number (R213). A pending commit that leaves PERIOD takes effect whole at that frame start: the
shadow bank is active (R217). A slot that falls due runs when its core is in no other footprint and its instance is READY or
RUNNING, which makes it RUNNING (R220); an instance in another state leaves it unused (R223); a slot in another footprint is a
collision with a K-class finding (R219). A yield before the budget ends the slot without overrun (R221); at the budget the slot
ends with an overrun and a K-class finding, and the instance keeps its state (R222). A window without firing is counted (R224).
COMMIT waits for the frame start with the PERIOD and PHASE it brings; while one waits, or where it would change PERIOD with
ALIGNED 0, a write of it changes nothing. FRAME_NO counts from 0 after EN becomes 1. (07_partition_scheduling.md) -/
def Obligations.FramesSlotsAndBudgets : Prop :=
  (∀ (k : Nat) (s : State), k < 8 → pscPowered s = true → (s.psc k).running = true → (s.psc k).en = true → s.entering = false → (s.psc k).frameEnd ≤ s.now →
    Completes (.frameStart k) s fun t =>
      (t.psc k).running = true ∧ (t.psc k).frameNo = (if (s.psc k).fresh then 0 else (s.psc k).frameNo + 1) ∧ (t.psc k).frameAt = s.now ∧ (t.psc k).served = []
      ∧ (t.psc k).slackMin = none ∧ (t.psc k).slackOver = false
      ∧ (t.psc k).live.get 0 0 = satAdd 64 ((s.psc k).live.get 0 0) 1
      ∧ ((s.psc k).commitPend = true → (s.psc k).commitPer = (s.psc k).periodAct →
          (t.psc k).active = (s.psc k).shadow ∧ (t.psc k).commitPend = false ∧ (t.psc k).phaseAct = (s.psc k).commitPhase)
      ∧ ((s.psc k).commitPend = false → (t.psc k).active = (s.psc k).active ∧ (t.psc k).periodAct = (s.psc k).periodAct))
  ∧ (∀ (k : Nat) (s : State), k < 8 → pscPowered s = true → (s.psc k).running = true → (s.psc k).en = false → s.entering = false → (s.psc k).frameEnd ≤ s.now →
    Completes (.frameStart k) s fun t =>
      Only [.sched] s t ∧ t.psc k = { s.psc k with running := false, aligned := false } ∧ ∀ j, j ≠ k → t.psc j = s.psc j)
  ∧ (∀ (k : Nat) (s : State), k < 8 → pscPowered s = true → (s.psc k).running = false → (s.psc k).en = true → s.entering = false → s.time.tbStopped = false →
      gridNext s.time.tbNs (s.psc k).phaseNs (s.psc k).per = s.time.tbNs →
    Completes (.frameStart k) s fun t =>
      (t.psc k).running = true ∧ (t.psc k).frameNo = (if (s.psc k).fresh then 0 else (s.psc k).frameNo + 1) ∧ (t.psc k).frameAt = s.now ∧ (t.psc k).served = [])
  ∧ (∀ (k e : Nat) (s : State), k < 8 → (s.psc k).open_ e false = true →
      (s.psc k).frameAt + quarters ((s.psc k).active.get e {}).offset ≤ s.now →
      inFootprint k e ((s.psc k).active.get e {}) s = false →
      ((s.inst ((s.psc k).active.get e {}).inst).state = .ready ∨ (s.inst ((s.psc k).active.get e {}).inst).state = .running) →
    Completes (.slotStart k e) s fun t =>
      let x := (s.psc k).active.get e {}
      let r := (t.psc k).cores.get (e / 16) {}
      Only [.sched, .insts, .free, .bki, .evr, .mbx] s t
      ∧ (t.psc k).cores.has (e / 16) = true ∧ r.entry = e ∧ r.inst = x.inst ∧ r.gen = (s.inst x.inst).gen ∧ r.hart = x.hart
      ∧ r.budget = x.budget ∧ s.now ≤ r.started ∧ r.started ≤ s.now + 1000
      ∧ e ∈ (t.psc k).served ∧ (t.inst x.inst).state = .running ∧ (t.inst x.inst).gen = (s.inst x.inst).gen
      ∧ ((t.psc k).status.get e {}).runs = satAdd 32 ((s.psc k).status.get e {}).runs 1)
  ∧ (∀ (k e : Nat) (s : State), k < 8 → (s.psc k).open_ e false = true →
      (s.psc k).frameAt + quarters ((s.psc k).active.get e {}).offset ≤ s.now →
      inFootprint k e ((s.psc k).active.get e {}) s = false →
      (s.inst ((s.psc k).active.get e {}).inst).state ≠ .ready → (s.inst ((s.psc k).active.get e {}).inst).state ≠ .running →
    Completes (.slotStart k e) s fun t =>
      Only [.sched] s t ∧ (t.psc k).cores = (s.psc k).cores ∧ e ∈ (t.psc k).served
      ∧ ((t.psc k).status.get e {}).unused = satAdd 16 ((s.psc k).status.get e {}).unused 1)
  ∧ (∀ (k e : Nat) (s : State), k < 8 → (s.psc k).open_ e false = true →
      (s.psc k).frameAt + quarters ((s.psc k).active.get e {}).offset ≤ s.now →
      inFootprint k e ((s.psc k).active.get e {}) s = true →
    Completes (.slotStart k e) s fun t =>
      (t.psc k).cores = (s.psc k).cores ∧ (t.fset .psc k).state = true ∧ (t.fset .psc k).lastKind = 9
      ∧ ((t.psc k).status.get e {}).unused = satAdd 16 ((s.psc k).status.get e {}).unused 1
      ∧ (t.psc k).live.get 5 0 = satAdd 64 ((s.psc k).live.get 5 0) 1)
  ∧ (∀ (k q : Nat) (r : Running) (s : State), k < 8 → (s.psc k).cores.has q = true →
      (s.psc k).cores.get q { entry := 0, inst := 0, gen := 0, hart := 0, a2 := 0 } = r →
      r.started ≤ s.now → s.now - r.started < quarters r.budget →
    Completes (.yieldCall k q) s fun t =>
      (t.psc k).cores.has q = false ∧ ((t.psc k).status.get r.entry {}).lastUsed = (s.now - r.started) / 10
      ∧ ((t.psc k).status.get r.entry {}).overruns = ((s.psc k).status.get r.entry {}).overruns
      ∧ (t.hart r.inst r.hart).prevOver = false ∧ (t.hart r.inst r.hart).series = 0 ∧ (t.inst r.inst).state = (s.inst r.inst).state)
  ∧ (∀ (k q : Nat) (r : Running) (s : State), k < 8 → (s.psc k).cores.has q = true →
      (s.psc k).cores.get q { entry := 0, inst := 0, gen := 0, hart := 0, a2 := 0 } = r →
      r.started + quarters r.budget ≤ s.now →
    Completes (.budgetExpiry k q) s fun t =>
      (t.psc k).cores.has q = false
      ∧ ((t.psc k).status.get r.entry {}).overruns = satAdd 16 ((s.psc k).status.get r.entry {}).overruns 1
      ∧ (t.psc k).live.get 2 0 = satAdd 64 ((s.psc k).live.get 2 0) 1
      ∧ (t.hart r.inst r.hart).prevOver = true ∧ (t.inst r.inst).state = (s.inst r.inst).state
      ∧ (t.fset .psc k).state = true ∧ (t.fset .psc k).lastKind = 8
      ∧ (r.slackExcl = false → (t.psc k).slackMin = some 0 ∧ (t.psc k).slackOver = true)
      ∧ ∀ n, (s.lock n).heldBy r.inst r.gen = true → (s.lock n).hart = 8 * k + q → (t.lock n).held = false ∧ (t.lock n).broken = true)
  ∧ (∀ (k e : Nat) (s : State), k < 8 → (s.psc k).open_ e true = true →
      (s.psc k).frameAt + quarters ((s.psc k).active.get e {}).latest ≤ s.now →
    Completes (.triggerWindowEnd k e) s fun t =>
      Only [.sched] s t ∧ e ∈ (t.psc k).served ∧ (t.psc k).live.get 4 0 = satAdd 64 ((s.psc k).live.get 4 0) 1
      ∧ (t.psc k).cores = (s.psc k).cores ∧ ∀ j, j ≠ k → t.psc j = s.psc j)
  ∧ (∀ (k : Nat) (s : State), k < 8 → (s.psc k).commitPend = false → ((s.psc k).period = (s.psc k).periodAct ∨ (s.psc k).aligned = true) →
    Completes (.pscCommit k) s fun t =>
      Only [.sched] s t ∧ (∀ j, j ≠ k → t.psc j = s.psc j)
      ∧ t.psc k = { s.psc k with commitPend := true, commitPer := (s.psc k).period, commitPhase := (s.psc k).phase, commitOp := none })
  ∧ (∀ (k : Nat) (s : State), k < 8 → ((s.psc k).commitPend = true ∨ ((s.psc k).period ≠ (s.psc k).periodAct ∧ (s.psc k).aligned = false)) →
    Completes (.pscCommit k) s fun t => t = s)

/-- In AUTUMN with TRACK set, on the least slack and the overrun flag of the frame just ended (R227), in quarters of a millivolt. An
overrun, or a slack below GUARD, commands 900 mV, starts a hold of 8 frames and is counted as an emergency. A slack below
SETPOINT raises the target by 10 mV for each started 10 units of the difference, starts the hold and is counted. A slack above
SETPOINT plus DEADBAND with the hold run out lowers it by 2.5 mV and is counted. Otherwise the target stays. The hold falls by
one in a frame without raise or emergency. The target never leaves the range from V_FLOOR to 900 mV. Outside AUTUMN nothing
changes. (07_partition_scheduling.md) -/
def Obligations.SupplyLoopFollowsSlack : Prop :=
  ∀ (k : Nat) (s : State), k < 8 →
    let l := s.loop k
    let p := s.psc k
    let t := supplyLoop k s
    let n := t.loop k
    let clamp := fun (v : Nat) => max (4 * l.vFloor) (min v 3600)
    Only [.sched] s t ∧ (∀ j, j ≠ k → t.loop j = s.loop j) ∧ t.sched.pscs = s.sched.pscs
    ∧ (s.autumn k = false → t = s)
    ∧ (s.autumn k = true → l.track = true →
        (p.slackOver = true ∨ (∃ x, p.slackMin = some x ∧ x < l.guard) →
          n.vTarget = clamp 3600 ∧ n.hold = 8 ∧ n.emerg = true
          ∧ t.sched.pmcLive.get (3 * k + 2) 0 = satAdd 64 (s.sched.pmcLive.get (3 * k + 2) 0) 1)
        ∧ (∀ x, p.slackOver = false → p.slackMin = some x → l.guard ≤ x →
            (x < l.setpoint → n.vTarget = clamp (l.vTarget + 40 * ((l.setpoint - x + 9) / 10)) ∧ n.hold = 8 ∧ n.emerg = false
              ∧ t.sched.pmcLive.get (3 * k) 0 = satAdd 64 (s.sched.pmcLive.get (3 * k) 0) 1)
            ∧ (l.setpoint + l.deadband < x → l.hold = 0 → n.vTarget = clamp (l.vTarget - 10) ∧ n.hold = 0
                ∧ t.sched.pmcLive.get (3 * k + 1) 0 = satAdd 64 (s.sched.pmcLive.get (3 * k + 1) 0) 1)
            ∧ (l.setpoint ≤ x → x ≤ l.setpoint + l.deadband ∨ l.hold ≠ 0 →
                n.vTarget = clamp l.vTarget ∧ n.hold = l.hold - 1 ∧ t.sched.pmcLive = s.sched.pmcLive))
        ∧ (p.slackOver = false → p.slackMin = none → n.vTarget = clamp l.vTarget ∧ n.hold = l.hold - 1)
        ∧ 4 * l.vFloor ≤ n.vTarget ∧ (4 * l.vFloor ≤ 3600 → n.vTarget ≤ 3600))

/-- With CLM_EN 1 and a bit timer running, at the end of a round that both wires ran and neither of which is disregarded (R249,
R252, R253, R265): if the module won on both, an ACTIVE or ALONE unit keeps WIN and its trip outputs and is ACTIVE with its
partner present and ALONE without; a STANDBY unit takes over, with the partner's last claim plus 1 (where that does not exceed
the field, R247), its trip outputs still off. If it lost on one and had a FAULT on none, WIN and the trip outputs fall and the
unit is STANDBY; before the end of a round that is lost they fall at the sample point of the first bit that differs, with the
role as it was (R251, R253). A wire on which the round was a FAULT is disregarded from then on. (08_trip_path_and_pair.md) -/
def Obligations.ClaimRoundsDecideTheWinner : Prop :=
  (∀ (w0 w1 : Wire) (r0 r1 : RoundSeen) (s : State), s.cgu.timed = true → s.cgu.wires = [w0, w1] → w0.round.active = true →
      w1.round.active = true → r0.inRound = true → r1.inRound = true → w0.disregard = false → w1.disregard = false →
      max w0.round.start w1.round.start + us 40 ≤ s.now → roundResult s.cgu.unitId w0 r0 = 0 → roundResult s.cgu.unitId w1 r1 = 0 →
      (s.cgu.role = .active ∨ s.cgu.role = .alone) →
    Completes (.claimRoundEnd r0 r1) s fun t =>
      Only [.cgu, .evr, .mbx] s t ∧ t.cgu.win = true ∧ t.cgu.tripOn = true ∧ t.cgu.ownClaim = s.cgu.ownClaim
      ∧ t.cgu.role = (if s.mlk.partner = .present then .active else .alone) ∧ t.cgu.setAside = s.cgu.setAside)
  ∧ (∀ (w0 w1 : Wire) (r0 r1 : RoundSeen) (s : State), s.cgu.timed = true → s.cgu.wires = [w0, w1] → w0.round.active = true →
      w1.round.active = true → r0.inRound = true → r1.inRound = true → w0.disregard = false → w1.disregard = false →
      max w0.round.start w1.round.start + us 40 ≤ s.now → roundResult s.cgu.unitId w0 r0 = 0 → roundResult s.cgu.unitId w1 r1 = 0 →
      s.cgu.role = .standby → s.mlk.partnerClaim ≠ 0xFFFFFFFF →
    Completes (.claimRoundEnd r0 r1) s fun t =>
      Only [.cgu, .bki, .evr, .mbx, .persist] s t ∧ t.cgu.role = .taking ∧ t.cgu.ownClaim = s.mlk.partnerClaim + 1
      ∧ t.cgu.win = true ∧ t.cgu.tripOn = false)
  ∧ (∀ (w0 w1 : Wire) (r0 r1 : RoundSeen) (s : State), s.cgu.timed = true → s.cgu.wires = [w0, w1] → w0.round.active = true →
      w1.round.active = true → r0.inRound = true → r1.inRound = true → w0.disregard = false → w1.disregard = false →
      max w0.round.start w1.round.start + us 40 ≤ s.now → roundResult s.cgu.unitId w0 r0 = 1 → roundResult s.cgu.unitId w1 r1 ≠ 2 →
      (s.cgu.role = .active ∨ s.cgu.role = .alone ∨ s.cgu.role = .standby) →
    Completes (.claimRoundEnd r0 r1) s fun t =>
      Only [.cgu, .mlk, .bki, .evr, .mbx, .mon] s t ∧ t.cgu.role = .standby ∧ t.cgu.win = false ∧ t.cgu.tripOn = false
      ∧ t.cgu.ownClaim = s.cgu.ownClaim)
  ∧ (∀ (w0 w1 : Wire) (r0 r1 : RoundSeen) (s : State), s.cgu.timed = true → s.cgu.wires = [w0, w1] → w0.round.active = true →
      r0.inRound = true → r1.inRound = false → w0.round.start + us 40 ≤ s.now → roundResult s.cgu.unitId w0 r0 = 2 →
    Completes (.claimRoundEnd r0 r1) s fun t =>
      t.cgu.wires = [{ w0 with result := 2, last := 2, disregard := true, clean := 0,
                               round := { w0.round with active := false, lost := false } }, w1])
  ∧ (∀ (w0 w1 : Wire) (r0 r1 : RoundSeen) (s : State), s.cgu.timed = true → s.cgu.wires = [w0, w1] → w0.round.active = true →
      w0.round.lost = false → w0.disregard = false → r0.inRound = true → r1.inRound = false →
      w0.bits36 s.cgu.unitId < r0.bits36 → s.now < w0.round.start + us 40 →
      w0.round.start + lostPoint (w0.bits36 s.cgu.unitId) r0.bits36 ≤ s.now →
    Completes (.claimRoundEnd r0 r1) s fun t =>
      Only [.cgu] s t
      ∧ t.cgu = { s.cgu with win := false, tripOn := false, wires := [{ w0 with round := { w0.round with lost := true } }, w1] })

/-- Rounds begin on both wires at the next TB multiple of 500 us, or on the fallback timer 500 us after the last start edge, and on
a wire that is seen dominant; a wire in a round is left as it is (R251, R255). CLM_EN written 0 makes the unit OUT with WIN and
the trip outputs at 0 and no round in progress (R249); written 1 it changes that bit alone; a blocked write changes nothing
(R248, R351). A TB clock stop is an F-class fault: with the partner lost the unit keeps role, WIN and outputs and goes on with
the fallback timer; with a sound partner present it becomes OUT. Without either reference it becomes OUT whatever the partner's
state. (08_trip_path_and_pair.md, 09_network_time.md) -/
def Obligations.ClaimLineEnableAndTiming : Prop :=
  (∀ (w0 w1 : Wire) (s : State), s.cgu.timed = true → s.cgu.wires = [w0, w1] → s.cgu.osc = false →
      roundInstant s.time.tbNs ≤ (s.untilTb (roundInstant s.time.tbNs)).time.tbNs →
    Completes .claimRoundStart s fun t =>
      let u := s.untilTb (roundInstant s.time.tbNs)
      Only [.cgu, .time] s t ∧ t.time = u.time
      ∧ t.cgu = { s.cgu with wires := [w0.begin_ u.now s.cgu.ownClaim s.cgu.drivesClaim, w1.begin_ u.now s.cgu.ownClaim s.cgu.drivesClaim] })
  ∧ (∀ (w0 w1 : Wire) (s : State), s.cgu.timed = true → s.cgu.wires = [w0, w1] → s.cgu.osc = true → s.cgu.lastStart + us 500 ≤ s.now →
    Completes .claimRoundStart s fun t =>
      Only [.cgu] s t
      ∧ t.cgu = { s.cgu with wires := [w0.begin_ s.now s.cgu.ownClaim s.cgu.drivesClaim, w1.begin_ s.now s.cgu.ownClaim s.cgu.drivesClaim] })
  ∧ (∀ (k : Nat) (w : Wire) (s : State), s.cgu.timed = true → k < 2 → s.cgu.wires[k]? = some w →
    Completes (.claimRoundJoin k) s fun t =>
      Only [.cgu] s t ∧ t.cgu = { s.cgu with wires := s.cgu.wires.set k (w.begin_ s.now s.cgu.ownClaim s.cgu.drivesClaim) })
  ∧ (∀ (v : Bool) (s : State), s.bki.clmHold = true ∨ (v = true ∧ s.cgu.idConflict.isSome = true) →
    Completes (.clmEnWrite v) s fun t => t = s)
  ∧ (∀ (s : State), s.bki.clmHold = false →
    Completes (.clmEnWrite false) s fun t =>
      t.cgu.clmEn = false ∧ t.cgu.role = .out ∧ t.cgu.win = false ∧ t.cgu.tripOn = false ∧ t.cgu.setAside = []
      ∧ t.cgu.ownClaim = s.cgu.ownClaim ∧ t.cgu.outHard = s.cgu.outHard ∧ ∀ w ∈ t.cgu.wires, w.round.active = false ∧ w.round.drives = false)
  ∧ (∀ (s : State), s.bki.clmHold = false → s.cgu.idConflict = none →
    Completes (.clmEnWrite true) s fun t => Only [.cgu] s t ∧ t.cgu = { s.cgu with clmEn := true })
  ∧ (∀ (s : State), s.time.tbStopped = false → s.time.oscFailed = false → s.mlk.partner ≠ .present →
    Completes .tbClockStop s fun t =>
      t.time.tbStopped = true ∧ t.cgu = { s.cgu with osc := true } ∧ t.unitF = true ∧ ∀ k, k < 8 → (t.psc k).aligned = false)
  ∧ (∀ (s : State), s.time.tbStopped = false → s.time.oscFailed = false → s.mlk.partner = .present → s.mlk.word.f = false →
      s.ocu.fSeen ≠ 1 →
    Completes .tbClockStop s fun t =>
      t.time.tbStopped = true ∧ t.unitF = true ∧ t.cgu.role = .out ∧ t.cgu.win = false ∧ t.cgu.tripOn = false ∧ t.cgu.outHard = true)
  ∧ (∀ (s : State), s.time.tbStopped = true →
    Completes .oscillatorFail s fun t =>
      t.time.oscFailed = true ∧ t.cgu.role = .out ∧ t.cgu.win = false ∧ t.cgu.tripOn = false ∧ t.cgu.timed = false
      ∧ ∀ w ∈ t.cgu.wires, w.round.active = false)
  ∧ (∀ (s : State), s.time.tbStopped = false →
    Completes .oscillatorFail s fun t => Only [.time] s t ∧ t.time = { s.time with oscFailed := true })

/-- A control frame of a new key opens one pending entry with its window (R259). The frame of the other side closes it: with the
same digest it is a match and nothing else, with another a divergence of CONTENT. A second frame of the same side is only
counted. A window that ends with one side missing is a divergence, recorded, and either counted as excused or counted by its
type and referred (R260). A picture with its zone picked up decides against the side without the trip, one whose window ends
without a pickup against the side that trips (R263): a standby whose partner contradicts takes over, one that contradicts itself
is blocked from taking over (R264); of a picture in which both sides trip neither is decided against. While the island's cores
do not run no picture is decided. The partner's decision is recorded. (08_trip_path_and_pair.md) -/
def Obligations.OutputComparisonAndReferee : Prop :=
  (∀ (c : OcuCopy) (rest : List OcuCopy) (k : CmpKey) (s : State), s.ocu.ctrlIn = c :: rest → c.key = some k → s.pend k = none →
      s.ocu.en = true → s.ocu.pending.length < 4096 →
    Completes (.ocuFrame none) s fun t =>
      Only [.ocu] s t
      ∧ t.ocu = { s.ocu with
                  ctrlIn := rest
                  pending := s.ocu.pending ++ [{ key := k, digest := c.digest, loc := true, openAt := s.now,
                                                 endAt := s.now + us s.ocu.windowUs, sense := c.sense, zone := c.zone }] })
  ∧ (∀ (c : OcuCopy) (rest : List OcuCopy) (k : CmpKey) (e : Pend) (s : State), s.ocu.ctrlIn = c :: rest → c.key = some k →
      s.pend k = some e → e.loc = false → s.now < e.endAt → c.digest = e.digest →
    Completes (.ocuFrame none) s fun t =>
      Only [.ocu] s t
      ∧ t.ocu = { s.ocu with
                  ctrlIn := rest
                  pending := s.ocu.pending.filter fun x => x.key != k
                  live := bump s.ocu.live 0 })
  ∧ (∀ (c : OcuCopy) (k : CmpKey) (e : Pend) (s : State), s.linkOn = true → c.key = some k → s.pend k = some e → e.loc = false →
      s.now < e.endAt →
    Completes (.ocuFrame (some c)) s fun t =>
      Only [.ocu, .mlk] s t ∧ t.ocu = { s.ocu with live := bump s.ocu.live 5 } ∧ t.mlk = { s.mlk with live := bump s.mlk.live 1 })
  ∧ (∀ (c : OcuCopy) (s : State), s.linkOn = false → Completes (.ocuFrame (some c)) s fun t => t = s)
  ∧ (∀ (c : OcuCopy) (k : CmpKey) (e : Pend) (s : State), s.linkOn = true → c.key = some k → s.pend k = some e → e.loc = true →
      s.now < e.endAt → c.digest ≠ e.digest → excused k.inst s = false →
    Completes (.ocuFrame (some c)) s fun t =>
      t.ocu.pending = s.ocu.pending.filter (fun x => x.key != k) ∧ t.ocu.lastReferred = some s.now
      ∧ t.ocu.live.get 1 0 = satAdd 64 (s.ocu.live.get 1 0) 1)
  ∧ (∀ (k : CmpKey) (e : Pend) (s : State), s.pend k = some e → e.endAt ≤ s.now → excused k.inst s = true →
    Completes (.ocuWindowEnd k) s fun t =>
      Only [.ocu, .bki, .evr] s t
      ∧ t.ocu = { s.ocu with
                  pending := s.ocu.pending.filter fun x => x.key != k
                  live := bump s.ocu.live 4 })
  ∧ (∀ (k : CmpKey) (e : Pend) (s : State), s.pend k = some e → e.endAt ≤ s.now → excused k.inst s = false →
    Completes (.ocuWindowEnd k) s fun t =>
      t.ocu.pending = s.ocu.pending.filter (fun x => x.key != k) ∧ t.ocu.lastReferred = some s.now
      ∧ t.ocu.live.get (if e.loc then 3 else 2) 0 = satAdd 64 (s.ocu.live.get (if e.loc then 3 else 2) 0) 1)
  ∧ (∀ (k : CmpKey) (p : Picture) (s : State), s.island = true → s.laneUp = true → (s.ocu.pictures.find? fun p => p.key == k) = some p →
      pickedUp p s = true → s.cgu.role = .standby → s.fPair = 0 → p.tripLocal = true → s.ocu.takeBlock = false → s.mlk.word.role = .active →
      p.both = false → s.mlk.partner = .present → s.mlk.partnerClaim ≠ 0xFFFFFFFF →
    Completes (.pictureDecision k) s fun t =>
      t.ocu.pictures = s.ocu.pictures.erase p ∧ t.cgu.role = .taking ∧ t.cgu.ownClaim = s.mlk.partnerClaim + 1
      ∧ t.cgu.tripOn = false ∧ t.ocu.takeBlock = false ∧ t.mlk.decisionsOut = s.mlk.decisionsOut ++ [(3, true, k)])
  ∧ (∀ (k : CmpKey) (p : Picture) (s : State), s.island = true → (s.ocu.pictures.find? fun p => p.key == k) = some p →
      (∀ q ∈ s.ocu.pictures, q.key = k → pickedUp q s = false) → p.t + ms p.winMs ≤ s.now → s.cgu.role = .standby → s.fPair = 0 → p.tripLocal = true → p.both = false →
    Completes (.pictureDecision k) s fun t =>
      Only [.ocu, .mlk, .bki, .evr, .mbx] s t
      ∧ t.ocu.pictures = s.ocu.pictures.erase p ∧ t.ocu.takeBlock = true
      ∧ t.ocu.live.get 7 0 = satAdd 64 (s.ocu.live.get 7 0) 1)
  ∧ (∀ (k : CmpKey) (p : Picture) (s : State), s.island = true → (s.ocu.pictures.find? fun p => p.key == k) = some p →
      pickedUp p s = true → s.cgu.role = .standby → s.fPair = 0 → p.both = true →
    Completes (.pictureDecision k) s fun t =>
      Only [.ocu, .bki] s t ∧ t.ocu.pictures = s.ocu.pictures.erase p ∧ t.ocu.takeBlock = s.ocu.takeBlock
      ∧ t.ocu.live.get 9 0 = satAdd 64 (s.ocu.live.get 9 0) 1)
  ∧ (∀ (k : CmpKey) (s : State), s.island = false → Completes (.pictureDecision k) s fun t => t = s)
  ∧ (∀ (row : Nat) (own : Bool) (k : CmpKey) (s : State), s.linkOn = true →
    Completes (.decisionMessage row own k) s fun t =>
      Only [.bki, .evr] s t ∧ t = note .bki 0 0x301 0 .none (decisionDetail row own k) s)

/-- With the link enabled a unit sends its status word on both lanes (R271). A word that arrives while the partner is present gives
the partner's claim and state and marks its lane; the first word of an awaited partner, or the tenth in a row of a lost one,
makes it present, and ALONE becomes ACTIVE (R272). A word with the own unit ID puts the unit OUT (R248). A lane without a word
for 1 ms, counted from its last word or from the enabling of the lanes, is down (shown where the quiet period of the link's last
finding is not just over, R373). A partner silent for PARTNER_TO_MS, or awaited for 30 s, is lost: no comparison stays pending,
and ACTIVE becomes ALONE. (08_trip_path_and_pair.md) -/
def Obligations.StatusWordsAndThePartner : Prop :=
  (∀ (s : State), s.linkOn = true → (∀ a, s.mlk.sentAt = some a → a + us 100 ≤ s.now) →
    Completes .statusWordSend s fun t =>
      Only [.mlk] s t ∧ t.mlk = { s.mlk with sent := [s.statusWord, s.statusWord], sentAt := some s.now })
  ∧ (∀ (k : Nat) (w : StatusWord) (l : Lane) (s : State), s.linkOn = true → k < 2 → s.mlk.lanes[k]? = some l → s.mlk.partner = .present →
      w.unit ≠ s.cgu.unitId → w.f = s.mlk.word.f → s.ocu.fSeen = s.fPair → s.mlk.swHeld = none →
    Completes (.statusWordReceive k w) s fun t =>
      Only [.mlk, .faults] s t ∧ t.mlk.word = w ∧ t.mlk.partnerClaim = w.claim ∧ t.mlk.partner = .present
      ∧ t.mlk.lanes = (countMissed s).mlk.lanes.set k (l.word s.now) ∧ t.unitF = s.unitF)
  ∧ (∀ (k : Nat) (w : StatusWord) (s : State), s.linkOn = true → k < 2 → s.mlk.lanes.length = 2 →
      (s.mlk.partner = .awaited ∨ (s.mlk.partner = .lost ∧ 10 ≤ ((s.mlk.lanes.getD k {}).word s.now).run)) →
      w.unit ≠ s.cgu.unitId → w.f = false → s.unitF = false → s.mlk.swHeld = none →
    Completes (.statusWordReceive k w) s fun t =>
      Only [.ocu, .mlk, .faults, .cgu, .bki, .evr, .mbx] s t ∧ t.ocu = { s.ocu with fSeen := 0 }
      ∧ t.mlk.partner = .present ∧ t.mlk.word = w
      ∧ t.cgu.role = (if s.cgu.role = .alone then .active else s.cgu.role) ∧ t.cgu.win = s.cgu.win ∧ t.cgu.ownClaim = s.cgu.ownClaim)
  ∧ (∀ (k : Nat) (w : StatusWord) (s : State), s.linkOn = true → k < 2 → w.unit = s.cgu.unitId → w.unit ≠ 0 → s.cgu.idConflict = none →
      s.mlk.swHeld = none →
    Completes (.statusWordReceive k w) s fun t =>
      t.cgu.role = .out ∧ t.cgu.win = false ∧ t.cgu.tripOn = false ∧ t.cgu.idConflict = some s.cgu.unitId ∧ t.cgu.outHard = true)
  ∧ (∀ (k a : Nat) (l : Lane) (s : State), s.mlk.lanes[k]? = some l → s.mlk.enabledAt = some a → (l.failed = false ∨ l.goodFrom.isSome) →
      l.lastAt.getD a + ms 1 ≤ s.now → s.quietOver .mlk 0 = false →
    Completes (.laneDown k) s fun t =>
      Only [.mlk, .bki, .faults, .evr, .mbx] s t
      ∧ t.mlk = { (countMissed s).mlk with
                  lanes := lmod (countMissed s).mlk.lanes k Lane.down
                  live := if l.failed then (countMissed s).mlk.live else bump (countMissed s).mlk.live 8 }
      ∧ (t.fset .mlk 0).persist = true ∧ (t.fset .mlk 0).state = true)
  ∧ (∀ (s : State), s.mlk.partner = .present →
      s.mlk.lanes.foldl (fun m l => max m (l.lastAt.getD 0)) 0 + ms s.mlk.partnerToMs ≤ s.now →
    Completes .partnerLost s fun t =>
      t.mlk.partner = .lost ∧ t.ocu.pending = [] ∧ t.cgu.role = (if s.cgu.role = .active then .alone else s.cgu.role)
      ∧ t.cgu.win = s.cgu.win ∧ t.cgu.tripOn = s.cgu.tripOn ∧ t.cgu.ownClaim = s.cgu.ownClaim
      ∧ t.mlk.live.get 7 0 = satAdd 64 (s.mlk.live.get 7 0) 1)
  ∧ (∀ (a : Nat) (s : State), s.mlk.partner = .awaited → s.mlk.enabledAt = some a → a + sec 30 ≤ s.now →
    Completes .partnerAwaitExpiry s fun t =>
      t.mlk.partner = .lost ∧ t.mlk.awaitOver = true ∧ t.ocu.pending = []
      ∧ t.cgu.role = (if s.cgu.role = .active then .alone else s.cgu.role) ∧ t.cgu.win = s.cgu.win ∧ t.cgu.tripOn = s.cgu.tripOn)

/-- MIRROR_DECLARE of at most 8 regions of whole lines of the own local store, within the share and the epoch's capacity, takes them
for the next epoch and answers OK; more than 8 are refused with nothing changed (R267). A staged set leaves only from an ACTIVE
unit with its partner present, over a lane that is up (R269). A set that fails its checks, or whose instance is not READY or
RUNNING, is discarded and a full one asked for; else it waits in order (R270). Neither touches the instance's memory. A
switch-back request held for 10 s is given up and recorded (R274). (08_trip_path_and_pair.md, 06_protection_instances.md) -/
def Obligations.MirrorSetsAndSwitchBack : Prop :=
  (∀ (i g a n : Nat) (s : State), s.genCurrent i g = true → 8 < n →
    Completes (.mirrorDeclare i g a n) s fun t =>
      Only [.insts] s t ∧ t.inst i = { s.inst i with ret := [(Status.badParam 1).code] } ∧ ∀ j, j ≠ i → t.inst j = s.inst j)
  ∧ (∀ (i g a n : Nat) (s : State),
      let rd := fun a n => if (s.inst i).inLs a n then lsRead i a n s else dramRead i a n s
      let es := (List.range n).map fun k => (leNat (rd (a + 8 * k) 4), leNat (rd (a + 8 * k + 4) 4))
      let others := ((s.mlk.mir.filter fun p => p.1 != i).map fun p => (p.2.declared.map fun r => r.2).sum).sum
      s.genCurrent i g = true → n ≤ 8 → ((s.inst i).inLs a (8 * n) = true ∨ (s.inst i).inDram a (8 * n) = true) →
      (∀ e ∈ es, e.1 % 256 = 0 ∧ (s.inst i).inLs e.1 (256 * e.2) = true) → (es.map fun e => e.2).sum ≤ (s.inst i).share.mir →
      (others + (es.map fun e => e.2).sum) * 2048 ≤ 20000000 * s.mlk.epochMs →
    Completes (.mirrorDeclare i g a n) s fun t =>
      Only [.insts, .mlk, .bki, .evr, .mbx] s t ∧ t.insts.lsMem = s.insts.lsMem ∧ t.insts.dramMem = s.insts.dramMem
      ∧ t.mlk.mir.get i {} = { s.mlk.mir.get i {} with
                               newRegions := some (es.map fun e => (e.1 / 256, e.2))
                               newFrom := (s.epochNum + 1) * ms s.epochNow }
      ∧ (∀ j, j ≠ i → t.mlk.mir.get j {} = s.mlk.mir.get j {}) ∧ (t.inst i).useMir = (es.map fun e => e.2).sum ∧ (t.inst i).ret = [0]
      ∧ ∀ j, j ≠ i → t.inst j = s.inst j)
  ∧ (∀ (i : Nat) (m : MirSet) (s : State), (s.mlk.mir.get i {}).staged = some m → s.cgu.role = .active → s.mlk.partner = .present →
      s.linkOn = true → (s.mlk.lanes.any fun l => l.up) = true →
    Completes (.mirrorSetSend i) s fun t =>
      Only [.mlk] s t ∧ t.mlk.setsOut = s.mlk.setsOut ++ [m]
      ∧ t.mlk.mir = s.mlk.mir.mod i {} (fun x => { x with staged := none, discarded := x.discarded || !s.mlk.word.ready.getLsbD i })
      ∧ t.mlk.live.get 2 0 = satAdd 64 (s.mlk.live.get 2 0) 1)
  ∧ (∀ (i : Nat) (m : MirSet) (s : State), (s.mlk.mir.get i {}).staged = some m → (s.cgu.role ≠ .active ∨ s.partnerGone = true ∨ s.laneUp = false) →
    Completes (.mirrorSetSend i) s fun t => t = s)
  ∧ (∀ (m : MirSet) (crc whole : Bool) (s : State), s.linkOn = true → s.cgu.role.protecting = false →
      (crc = false ∨ whole = false ∨ mirrorOff m.inst s = true) →
    Completes (.mirrorSetReceive m crc whole) s fun t =>
      Only [.mlk] s t
      ∧ t.mlk.mir.get m.inst {} = { s.mlk.mir.get m.inst {} with askFull := true, needFull := true, discarded := true })
  ∧ (∀ (m : MirSet) (s : State), s.linkOn = true → s.cgu.role.protecting = false → mirrorOff m.inst s = false →
    Completes (.mirrorSetReceive m true true) s fun t =>
      Only [.mlk] s t
      ∧ t.mlk = { s.mlk with mir := s.mlk.mir.mod m.inst {} fun x => { x with arrived := x.arrived ++ [m] } })
  ∧ (∀ (u a h : Nat) (s : State), s.mlk.swHeld = some (u, a, h) → a + sec 10 ≤ s.now →
    Completes .switchBackLapse s fun t =>
      Only [.mlk, .bki, .evr, .mbx, .mon] s t ∧ t.mlk = { s.mlk with swHeld := none })

/-- A Sync of a domain's slave port and grandmaster, sent to the address of its kind, is noted with its interval (R278, R289); while
the MGP is down nothing else changes, and a stamp that may not be used changes nothing (R284). For the domain that is not the
reference, the 16th offset in a row within 100 ns of the mean of the last 16 makes it LOCKED and moves no time (R290). The first
Sync of the reference domain that was never locked is always a step: the nanoseconds of TB change by the rounded offset, the
step epoch advances by 1 and no slew remains (R292). A usable Announce selects its port; another grandmaster makes the domain
FREERUN. Pdelay_Req is sent every second: with room in the buffer and TX_EN at 1 a copy of it, with the next sequence number,
waits in the port's queue (which queue is the model's choice, log entry 158); 3 without a response make the port unusable
(R288). HOLDOVER is entered when Syncs stay out, and FREERUN after HOLDOVER_S. (09_network_time.md) -/
def Obligations.DomainsFollowTheirMasters : Prop :=
  (∀ (k : Nat) (b : Bool) (m : SyncMsg) (s : State), s.ptpHears k m.dst ptpAddr = true → (s.port k).stampsOff = false →
      syncIntervals.contains m.intervalNs = true →
      domainsOf m.domain s = [b] → (s.time.dom b).slave = some k → (s.time.dom b).gm = some m.source → s.persist.fwUp = false →
    Completes (.syncMessage k m) s fun t =>
      Only [.time] s t ∧ t.time.dom b = { s.time.dom b with lastSync := s.now, syncNs := m.intervalNs }
      ∧ t.time.dom (!b) = s.time.dom (!b) ∧ t.time.tbNs = s.time.tbNs ∧ t.time.incr = s.time.incr)
  ∧ (∀ (k : Nat) (m : SyncMsg) (s : State), (s.ptpHears k m.dst ptpAddr = false ∨ (s.port k).stampsOff = true) →
    Completes (.syncMessage k m) s fun t => t = s)
  ∧ (∀ (k : Nat) (b : Bool) (m : SyncMsg) (s : State), s.ptpHears k m.dst ptpAddr = true → (s.port k).stampsOff = false →
      syncIntervals.contains m.intervalNs = true →
      domainsOf m.domain s = [b] → (s.time.dom b).slave = some k → (s.time.dom b).gm = some m.source → s.persist.fwUp = true →
      b ≠ s.time.refAct → (s.time.dom b).state = 1 → 15 ≤ (s.time.dom b).good → 15 ≤ (s.time.dom b).hist.length →
      (rawOffset k m s - meanOf ((rawOffset k m s :: (s.time.dom b).hist).take 16)).natAbs ≤ 100 * 65536 →
    Completes (.syncMessage k m) s fun t =>
      Only [.time, .free, .bki, .evr] s t ∧ (t.time.dom b).state = 2 ∧ (t.time.dom b).lastSync = s.now
      ∧ (t.time.dom b).hist = (rawOffset k m s :: (s.time.dom b).hist).take 16
      ∧ t.time.tbNs = s.time.tbNs ∧ t.time.incr = s.time.incr ∧ t.time.stepEpoch = s.time.stepEpoch)
  ∧ (∀ (k : Nat) (b : Bool) (m : SyncMsg) (s : State), s.ptpHears k m.dst ptpAddr = true → (s.port k).stampsOff = false →
      syncIntervals.contains m.intervalNs = true →
      domainsOf m.domain s = [b] → (s.time.dom b).slave = some k → (s.time.dom b).gm = some m.source → s.persist.fwUp = true →
      b = s.time.refAct → (s.time.dom b).state = 0 → (s.time.dom b).locked = false → (∀ j, j < 32 → (s.time.cmp j).en = false) →
    Completes (.syncMessage k m) s fun t =>
      Only [.time, .free, .mlk, .bki, .evr] s t ∧ t.time.stepEpoch = (s.time.stepEpoch + 1) % 65536 ∧ t.time.slewRem = 0
      ∧ t.time.slewing = false ∧ t.time.tbNs = (((s.time.tbNs : Int) + roundInt (rawOffset k m s) 65536) % 2 ^ 64).toNat
      ∧ t.time.tbFrac = s.time.tbFrac ∧ t.time.age = s.time.age ∧ t.time.refAct = s.time.refAct)
  ∧ (∀ (k : Nat) (b : Bool) (m : AnnMsg) (s : State), s.ptpHears k m.dst ptpAddr = true → (s.ptp k).usable = true → m.body.logInt ≤ 2 →
      0 < s.time.annTimeout → domainsOf m.domain s = [b] → (s.time.dom b).best = [] →
    Completes (.announceMessage k m) s fun t =>
      Only [.time] s t ∧ (t.time.dom b).slave = some k ∧ (t.time.dom b).gm = some m.body.gm
      ∧ (t.time.dom b).best = [{ m.body with port := k, atNs := s.now }]
      ∧ (t.time.dom b).state = (if (s.time.dom b).gm = none ∨ (s.time.dom b).gm = some m.body.gm then (s.time.dom b).state else 0)
      ∧ t.time.tbNs = s.time.tbNs)
  ∧ (∀ (k : Nat) (s : State), k < 6 → (s.ptp k).ptpEn = true → (s.ptp k).pdelayEn = true → (s.port k).link = true →
      (s.ptp k).reqOut = false → ((s.ptp k).reqStamp = 0 ∨ (s.ptp k).reqStamp + sec 1 ≤ s.now) →
    Completes (.pdelayReqSend k) s fun t =>
      let m : PdMsg := { port := k, domain := s.time.domA.num, pcp := (s.ptp k).pcp, untagged := (s.ptp k).untagged, seq := (s.ptp k).reqSeq,
                         src := s.blockMac k }
      Only [.time, .ports, .sw, .insts, .cgu, .mbx, .evr, .bki] s t
      ∧ t.ptp k = { s.ptp k with reqOut := true, reqStamp := s.now, reqSeq := ((s.ptp k).reqSeq + 1) % 65536 }
      ∧ (∀ j, j ≠ k → t.ptp j = s.ptp j)
      ∧ (1 ≤ s.sw.freeCells → (s.port k).txEn = true → ∃ c ∈ (t.port k).queues.get (s.ptp k).tcClass [], c.pd = some m))
  ∧ (∀ (k : Nat) (s : State), k < 6 → (s.ptp k).ptpEn = true → (s.ptp k).pdelayEn = true → (s.port k).link = true →
      (s.ptp k).reqOut = true → (s.ptp k).missed = 2 → 0 < (s.ptp k).reqStamp → (s.ptp k).reqStamp + sec 1 ≤ s.now →
    Completes (.pdelayReqSend k) s fun t =>
      Only [.time, .ports, .sw, .insts, .cgu, .mbx, .evr, .bki] s t ∧ (t.ptp k).usable = false ∧ (t.ptp k).linkDelay = (s.ptp k).linkDelay ∧ t.time.domA.slave ≠ some k
      ∧ t.time.domB.slave ≠ some k ∧ t.time.live.get 8 0 = satAdd 64 (s.time.live.get 8 0) 1)
  ∧ (∀ (k : Nat) (d : Int) (s : State), k < 6 → (s.ptp k).ptpEn = true → (s.ptp k).pdelayEn = true → (s.ptp k).reqOut = true →
    Completes (.pdelayRespReceive k d) s fun t =>
      Only [.time, .free] s t ∧ (t.ptp k).reqOut = false ∧ (t.ptp k).missed = 0 ∧ (t.ptp k).usable = true
      ∧ (s.persist.fwUp = false ∨ (s.port k).stampsOff = true → (t.ptp k).linkDelay = (s.ptp k).linkDelay) ∧ ∀ j, j ≠ k → t.ptp j = s.ptp j)
  ∧ (∀ (b : Bool) (s : State), ((s.time.dom b).state = 1 ∨ (s.time.dom b).state = 2) → (s.time.dom b).best = [] →
      (s.time.dom b).lastSync + 3 * (s.time.dom b).syncNs ≤ s.now → s.time.autoSwitch = false →
    Completes (.holdoverEntry b) s fun t =>
      Only [.time, .bki, .evr] s t ∧ (t.time.dom b).state = 3 ∧ (t.time.dom b).holdAt = s.now ∧ t.time.dom (!b) = s.time.dom (!b)
      ∧ t.time.refAct = s.time.refAct ∧ t.time.incr = s.time.incr ∧ t.time.live.get 12 0 = satAdd 64 (s.time.live.get 12 0) 1)
  ∧ (∀ (b : Bool) (s : State), (s.time.dom b).state = 3 → (s.time.dom b).holdAt + sec s.time.holdoverS ≤ s.now →
    Completes (.freerunEntry b) s fun t =>
      Only [.time] s t ∧ t.time.dom b = { s.time.dom b with state := 0 } ∧ t.time.dom (!b) = s.time.dom (!b))

/-- With no comparator enabled, a step changes the nanoseconds by its amount, keeps the fraction and the age counter, advances the
step epoch modulo 65,536 and ends any slew (R282, R295); a change of the mirror link that waits for an epoch instant waits for
the next one on the new time (R296). A change of REF starts a slew by the new domain's offset and moves no step epoch (R293);
the slew's end leaves SLEW_REM 0. A comparator at or past its instant fires: a one-shot one clears EN, a periodic one goes on by
PERIOD (R298); a write of EN with the instant at or before TB fires at once with LATE. PPS_OUT rises at a whole second unless
gated and falls after its width (R300). A stamp entry goes to its owner's ring, or is counted as undelivered where its
generation is over (R302); no other octet of memory changes. (09_network_time.md) -/
def Obligations.StepsSwitchesComparatorsAndStamps : Prop :=
  (∀ (s : State), s.time.tbStopped = false → (∀ j, j < 32 → (s.time.cmp j).en = false) →
    Completes .tbStepGo s fun t =>
      Only [.time, .mlk, .bki, .evr] s t ∧ t.mlk = s.mlk.rebased s.time.tbNs t.time.tbNs
      ∧ t.time.tbNs = (((s.time.tbNs : Int) + s.time.step) % 2 ^ 64).toNat ∧ t.time.tbFrac = s.time.tbFrac
      ∧ t.time.age = s.time.age ∧ t.time.stepEpoch = (s.time.stepEpoch + 1) % 65536 ∧ t.time.slewRem = 0 ∧ t.time.slewing = false
      ∧ t.time.domA.ofs = s.time.domA.ofs - s.time.step * 2 ^ 32 ∧ t.time.domB.ofs = s.time.domB.ofs - s.time.step * 2 ^ 32
      ∧ t.time.incr = s.time.incr ∧ t.time.live.get 10 0 = satAdd 64 (s.time.live.get 10 0) 1)
  ∧ (∀ (ref : Bool) (s : State), ref ≠ s.time.ref →
    Completes (.refWrite ref) s fun t =>
      Only [.time, .bki, .evr] s t
      ∧ t.time = { s.time with
                   ref := ref
                   refAct := ref
                   slewRem := (s.time.dom ref).ofs
                   slewing := decide ((s.time.dom ref).ofs ≠ 0)
                   live := bump s.time.live 11 })
  ∧ (∀ (s : State), s.time.slewing = false → Completes (.refWrite s.time.ref) s fun t => t = s)
  ∧ (∀ (s : State), s.time.slewing = true → s.time.tbStopped = false →
    Completes .slewComplete s fun t =>
      Only [.time] s t ∧ t.time.slewRem = 0 ∧ t.time.slewing = false ∧ t.time.stepEpoch = s.time.stepEpoch
      ∧ t.time.domA.ofs = s.time.domA.ofs - s.time.slewRem ∧ t.time.domB.ofs = s.time.domB.ofs - s.time.slewRem
      ∧ t.time.age = s.time.age + 2 * ((s.time.slewRem.natAbs + 857) / 858))
  ∧ (∀ (k : Nat) (s : State), k < 32 → (s.time.cmp k).en = true → (s.time.cmp k).time ≤ s.time.tbNs →
      ((s.time.cmp k).dest.getLsbD 0 = false ∨ k < 8) → (s.time.cmp k).dest.getLsbD 1 = false →
      ((s.time.cmp k).dest.getLsbD 2 = false ∨ k < 8) →
    Completes (.comparatorFire k) s fun t =>
      Only [.time, .bki, .evr] s t ∧ (∀ j, j ≠ k → t.time.cmp j = s.time.cmp j)
      ∧ t.time.cmp k = { s.time.cmp k with
                         en := (s.time.cmp k).periodic
                         fired := true
                         time := if (s.time.cmp k).periodic then (s.time.cmp k).time + (s.time.cmp k).period else (s.time.cmp k).time })
  ∧ (∀ (k : Nat) (s : State), k < 32 → (s.time.cmp k).en = true → (s.time.cmp k).time ≤ s.time.tbNs → (s.time.cmp k).dest = 2 →
      s.bkiFollows = true →
    Completes (.comparatorFire k) s fun t =>
      Only [.time, .bki] s t ∧ t.bki = s.bki.synced s.now ∧ t.bki.smpCnt = 0 ∧ (t.time.cmp k).fired = true)
  ∧ (∀ (k : Nat) (v : BitVec 32) (s : State), k < 32 → (bitOf v 31 = false ∨ s.time.tbNs < (s.time.cmp k).time) →
    Completes (.trgCtlWrite k v) s fun t =>
      Only [.time] s t ∧ (∀ j, j ≠ k → t.time.cmp j = s.time.cmp j) ∧ (t.time.cmp k).en = bitOf v 31
      ∧ (t.time.cmp k).periodic = (bitOf v 30 && (s.time.cmp k).period != 0) ∧ (t.time.cmp k).time = (s.time.cmp k).time
      ∧ (t.time.cmp k).period = (s.time.cmp k).period ∧ (t.time.cmp k).dest = (if k < 8 then 1 else BitVec.ofNat 4 (bits v 27 24)))
  ∧ (∀ (k : Nat) (v : BitVec 32) (s : State), k < 32 → bitOf v 31 = true → bitOf v 30 = false → bits v 27 24 = 0 →
      (s.time.cmp k).time ≤ s.time.tbNs →
    Completes (.trgCtlWrite k v) s fun t =>
      Only [.time] s t ∧ (t.time.cmp k).en = false ∧ (t.time.cmp k).fired = true ∧ (t.time.cmp k).late = true
      ∧ ∀ j, j ≠ k → t.time.cmp j = s.time.cmp j)
  ∧ (∀ (s : State),
      let n := (s.time.tbNs / sec 1 + 1) * sec 1
      s.time.ppsEn = true → n ≤ (s.untilTb n).time.tbNs →
    Completes .ppsEdge s fun t =>
      Only [.time] s t ∧ t.time.stepEpoch = s.time.stepEpoch
      ∧ (s.time.ppsGate = true → (s.untilTb n).time.ok = false → t = s.untilTb n)
      ∧ (s.time.ppsGate = false → t.time = { (s.untilTb n).time with ppsOut := true, ppsFrom := (s.untilTb n).now }))
  ∧ (∀ (s : State), s.time.ppsOut = true → s.time.ppsFrom + us s.time.ppsWidth ≤ s.now →
    Completes .ppsPulseEnd s fun t => Only [.time] s t ∧ t.time = { s.time with ppsOut := false })
  ∧ (∀ (e : StampEntry) (q : List StampEntry) (s : State), s.time.stampQ = e :: q → e.byMgp = false → s.genCurrent e.inst e.gen = true →
      s.time.stampRings.has e.inst = true →
    Completes .stampDeliver s fun t =>
      let r := s.time.stampRings.get e.inst {}
      let d := s.inst e.inst
      Only [.time, .insts, .mlk] s t ∧ t.time.stampQ = q
      ∧ t.time.stampRings.get e.inst {} = { r with wr := (r.wr + 1) % 2 ^ 32 } ∧ t.insts.dramMem = s.insts.dramMem
      ∧ t.insts.desc = s.insts.desc
      ∧ ∀ p, (∀ b, b < 32 → p ≠ d.lsPhys (r.addr + 32 * (r.wr % r.slots) + b)) → (∀ b, b < 4 → p ≠ d.lsPhys (r.ctl + 12 + b)) →
          t.insts.lsMem.read1 p = s.insts.lsMem.read1 p)
  ∧ (∀ (e : StampEntry) (q : List StampEntry) (s : State), s.time.stampQ = e :: q → e.byMgp = false → s.genCurrent e.inst e.gen = false →
    Completes .stampDeliver s fun t =>
      Only [.time, .insts, .faults] s t ∧ t.time.stampQ = q ∧ t.insts.lsMem = s.insts.lsMem ∧ t.insts.dramMem = s.insts.dramMem
      ∧ t.time.live.get 17 0 = satAdd 64 (s.time.live.get 17 0) 1 ∧ (t.fset .tbu 0).late = satAdd 32 (s.fset .tbu 0).late 1)

/-- With a running island: an output sample advances the sample count modulo 4,800 and touches nothing outside the island; the grid
moves by at most one modulator cycle in each input period, onto TB where it follows it and that reaches, and not at all where it
does not (R339); after it BT j is driven only where BT_EN j is 1, and is driven wherever an enabled output has a TRIP (R342,
R347). A committed bank becomes active at an output sample. An output falls at the end of its hold. A calibration step within 5
mV swaps the modulator in service with the spare (R340). A lockstep mismatch restarts the cores with BT0 to BT3 held; a second
within 60 s releases them and holds the cores in reset (R354). Findings of class K are shown where the quiet period of the
island's last one is not just over (R373). The loss of the heartbeat sets CLM_HOLD, resets the MGP and puts a unit with a sound
partner OUT, and the driven outputs stay (R351, R352); a boot without heartbeat for 5 s restarts the MGP and leaves the role.
(11_backstop_and_seasons.md) -/
def Obligations.BackstopIslandProtects : Prop :=
  (∀ (xs : List (List Int)) (cm : List Int) (s : State), s.bkiConverts = true → s.bki.nextOut ≤ s.now → s.bki.commitPend = false →
      s.season.season ≠ .winter →
    Completes (.bkiOutputSample xs cm) s fun t =>
      Only [.bki, .mbx] s t ∧ t.bki.outCnt = s.bki.outCnt + 1
      ∧ t.bki.smpCnt = (s.bki.smpCnt + s.bki.decim - s.bki.smpPast) % 4800 ∧ t.bki.smpPast = 0 ∧ t.bki.outAt = s.now
      ∧ t.bki.outBase = s.bki.outBase ∧ (t.bki.gridCyc - s.bki.gridCyc).natAbs ≤ s.bki.decim
      ∧ (s.bkiFollows = false → t.bki.gridCyc = s.bki.gridCyc)
      ∧ (s.bkiFollows = true → (gridLag s.time.tbNs).natAbs ≤ s.bki.decim → t.bki.gridCyc = s.bki.gridCyc + gridLag s.time.tbNs)
      ∧ t.bki.clmHold = s.bki.clmHold ∧ t.bki.hb = s.bki.hb
      ∧ (∀ j, j < 4 → t.bki.btDriven.getLsbD j = true → s.bki.btEn.getLsbD j = true)
      ∧ ∀ j, j < 4 → s.bki.btEn.getLsbD j = true → t.bki.tripsOut j = true → t.bki.btDriven.getLsbD j = true)
  ∧ (∀ (xs : List (List Int)) (cm : List Int) (s : State), s.bkiConverts = false →
    Completes (.bkiOutputSample xs cm) s fun t => t = s)
  ∧ (∀ (xs : List (List Int)) (cm : List Int) (s : State), s.bkiConverts = true → s.bki.nextOut ≤ s.now → s.bki.commitPend = true →
      s.season.season ≠ .winter →
    Completes (.bkiOutputSample xs cm) s fun t =>
      Only [.bki, .persist, .free, .mbx] s t ∧ t.bki.bank = !s.bki.bank ∧ t.bki.commitPend = false ∧ t.bki.elemBank = s.bki.shadowBank
      ∧ t.bki.shadowBank = s.bki.shadowBank ∧ t.bki.fNomAct = s.bki.fNom ∧ t.bki.presetAct = s.bki.preset)
  ∧ (∀ (j : Nat) (s : State), j < 4 → s.bki.btHoldEnd.has j = true → s.bki.btHoldEnd.get j 0 ≤ s.now → s.bki.btEn.getLsbD j = true →
      s.bki.tripsOut j = false → s.bki.btDriven.getLsbD j = true → s.bki.restarting = false →
    Completes (.btHoldEnd j) s fun t =>
      Only [.bki, .mbx] s t ∧ t.bki.btDriven.getLsbD j = false ∧ ∀ i, i ≠ j → t.bki.btDriven.getLsbD i = s.bki.btDriven.getLsbD i)
  ∧ (∀ (j : Nat) (s : State), s.bki.restarting = true → Completes (.btHoldEnd j) s fun t => t = s)
  ∧ (∀ (m : Nat) (s : State), s.bkiConverts = true → (s.bki.calEn = true ∨ s.bki.calLast = true) →
      s.bki.calAt + sec s.bki.calStepS ≤ s.now → m ≤ 5000 →
    Completes (.calStep m) s fun t =>
      Only [.bki] s t ∧ t.bki.calLast = false ∧ t.bki.served = s.bki.served.set s.bki.calNext s.bki.spare ∧ t.bki.spare = s.bki.served.getD s.bki.calNext 0
      ∧ t.bki.calNext = (s.bki.calNext + 1) % 8 ∧ t.bki.calFails = 0 ∧ t.bki.calAt = s.now ∧ t.bki.outs = s.bki.outs)
  ∧ (∀ (m : Nat) (s : State), s.bkiConverts = true → (s.bki.calEn = true ∨ s.bki.calLast = true) →
      s.bki.calAt + sec s.bki.calStepS ≤ s.now → 5000 < m → s.bki.calFails = 2 → s.bki.calNext < 8 → s.quietOver .bki 0 = false →
    Completes (.calStep m) s fun t =>
      Only [.bki, .faults, .evr, .mbx] s t ∧ t.bki.suspect.getLsbD s.bki.calNext = true ∧ t.bki.served = s.bki.served
      ∧ t.bki.spare = s.bki.spare ∧ (t.fset .bki 0).state = true)
  ∧ (∀ (s : State), s.power.aonGood = true → s.bki.noImage = false → s.bki.coresHeld = false → mismatchClass s = 2 → s.quietOver .bki 0 = false →
    Completes .lockstepMismatch s fun t =>
      Only [.bki, .faults, .evr, .mbx] s t ∧ t.bki.restarting = true ∧ t.bki.running = false ∧ t.bki.btDriven = s.bki.btDriven
      ∧ t.bki.coresHeld = false ∧ t.bki.lastMismatch = some s.now)
  ∧ (∀ (s : State), s.power.aonGood = true → s.bki.noImage = false → s.bki.coresHeld = false → mismatchClass s = 3 →
    Completes .lockstepMismatch s fun t =>
      t.bki.coresHeld = true ∧ t.bki.btDriven = 0 ∧ t.unitF = true)
  ∧ (∀ (s : State), s.bki.restarting = true → s.bki.coresHeld = false →
    Completes .islandRestartDone s fun t =>
      Only [.bki, .ocu, .mbx] s t ∧ t.bki.running = true ∧ t.bki.restarting = false ∧ t.bki.elems = [] ∧ t.bki.btDriven = s.bki.btDriven
      ∧ t.bki.hbAt = s.now ∧ t.ocu = { s.ocu with pictures := [] })
  ∧ (∀ (v : BitVec 32) (s : State), s.bki.mgpReset = false → ¬(s.bki.hb = 1 ∧ s.bki.hbAt + ms 20 ≤ s.now) →
    Completes (.bkiHbWrite v) s fun t =>
      Only [.bki, .faults, .mbx] s t
      ∧ (v = s.bki.hbValue + 1 → t.bki.hbValue = v ∧ t.bki.hbAt = s.now ∧ t.bki.hbSinceReset = true ∧ t.bki.clmHold = s.bki.clmHold)
      ∧ (v ≠ s.bki.hbValue + 1 → t.bki = { s.bki with live := bump s.bki.live 6 }))
  ∧ (∀ (s : State), s.island = true → s.bki.hb = 1 → s.bki.hbAt + ms 20 ≤ s.now → s.mlk.partner = .present → s.mlk.word.hb ≠ 2 →
      s.mlk.word.hb ≠ 3 →
    Completes .heartbeatLost s fun t =>
      t.bki.clmHold = true ∧ t.persist.fwUp = false ∧ t.mbx.ready = false ∧ t.bki.btDriven = s.bki.btDriven ∧ t.bki.elems = s.bki.elems
      ∧ t.cgu.role = .out ∧ t.cgu.win = false ∧ t.cgu.tripOn = false
      ∧ ((recentRestarts s).length < 3 → t.bki.hb = 2 ∧ t.bki.mgpReset = false ∧ t.bki.bootBank = !s.bki.bootBank)
      ∧ (3 ≤ (recentRestarts s).length → t.bki.hb = 3 ∧ t.bki.mgpReset = true))
  ∧ (∀ (s : State), s.island = true → s.bki.mgpReset = false → s.bki.hbSinceReset = false → s.bki.mgpResetAt + sec 5 ≤ s.now →
    Completes .mgpBootTimeout s fun t =>
      Only [.insts, .bki, .faults, .mbx, .persist, .mon] s t ∧ t.persist.fwUp = false ∧ t.bki.btDriven = s.bki.btDriven
      ∧ t.bki.hb = (if (recentRestarts s).length < 3 then 2 else 3))
  ∧ (∀ (s : State),
    Completes .clmHoldClr s fun t =>
      Only [.bki, .mbx] s t
      ∧ (s.bki.hbSinceReset = true → s.bki.hb ≠ 2 → s.bki.hb ≠ 3 → t.bki = { s.bki with clmHold := false })
      ∧ ((s.bki.hbSinceReset = false ∨ s.bki.hb = 2 ∨ s.bki.hb = 3) → t = s))
  ∧ (∀ (s : State), s.bki.coresHeld = false → s.bki.noImage = false →
    Completes .bkiCommitWrite s fun t => Only [.bki] s t ∧ t.bki = { s.bki with commitPend := true })

/-- SEASON_CTL without GO only holds its fields (R362). A GO for AUTUMN with a cluster running starts the change and leaves the
season (R356). A WINTER that R357 refuses leaves the season; else the unit is OUT at once and the entry is in progress, and once
the frames have stopped an idle step completes it: the module is in WINTER, the coil released, the instances gone, TB and the
MGP stopped, while the outputs of the island stay as they are. In WINTER, WAKE_N low for 1 ms, the wake timer, and a wake frame
that matches the stored pattern begin SPRING where MAIN is good, recording the source; TB goes on from its value plus the time
that has passed and the step epoch stays (R358, R359). WAKE_N is latched during the entry and has no effect in another season
(R358, R360). Other frames are only counted (R98), and with the clock of the port's island stopped none is received (R21).
(11_backstop_and_seasons.md, 03_ports_and_bypass.md) -/
def Obligations.SeasonsAndTheirWakeSources : Prop :=
  (∀ (v : BitVec 32) (s : State), bitOf v 31 = false →
    Completes (.seasonRequest v) s fun t =>
      Only [.season] s t
      ∧ t.season = { s.season with
                     reqSeason := if bits v 30 29 = 2 then s.season.reqSeason else bits v 30 29
                     force := bitOf v 28
                     ret := bitOf v 27
                     wakeEn := BitVec.ofNat 3 (bits v 25 23)
                     wakeTimerS := bits v 22 0 })
  ∧ (∀ (v : BitVec 32) (k : Nat) (s : State), bitOf v 31 = true → bits v 30 29 = 1 → s.season.season = .summer → s.season.changing = none →
      k < 8 → (s.psc k).running = true →
    Completes (.seasonRequest v) s fun t =>
      Only [.season] s t ∧ t.season.season = .summer ∧ t.season.changing = some .autumn ∧ t.season.switched = [])
  ∧ (∀ (v : BitVec 32) (r : Nat) (s : State), bitOf v 31 = true → bits v 30 29 = 3 → winterRefused (bitOf v 28) s = some r →
    Completes (.seasonRequest v) s fun t => Only [.season] s t ∧ t.season.season = s.season.season ∧ t.season.changing = s.season.changing)
  ∧ (∀ (v : BitVec 32) (s : State), bitOf v 31 = true → bits v 30 29 = 3 → winterRefused (bitOf v 28) s = none →
      (s.season.season = .summer ∨ s.season.season = .autumn) →
    Completes (.seasonRequest v) s fun t =>
      t.season.season = s.season.season ∧ t.season.changing = some .winter ∧ t.season.switched = [] ∧ t.time = s.time ∧ t.cgu.role = .out
      ∧ t.cgu.win = false ∧ t.cgu.tripOn = false ∧ t.persist.fwUp = s.persist.fwUp ∧ t.bki.btDriven = s.bki.btDriven
      ∧ t.insts.lsMem = s.insts.lsMem ∧ t.insts.dramMem = s.insts.dramMem)
  ∧ (∀ (s : State), s.pending = [] → s.entering = true → s.framesStopped = true → s.season.wakeHeld = none →
      ∃ t : State, step s = .next t
      ∧ t.season.season = .winter ∧ t.season.changing = none ∧ t.season.winterCause = false ∧ t.season.winterAge = t.now
      ∧ t.time.tbStopped = true ∧ t.time.tbNs = (s.time.ticks 1).tbNs ∧ t.time.age = (s.time.ticks 1).age
      ∧ t.time.stepEpoch = s.time.stepEpoch ∧ t.cgu.role = .out
      ∧ t.cgu.win = false ∧ t.cgu.tripOn = false ∧ t.head.coil = false ∧ t.insts = {} ∧ t.sw = {} ∧ t.persist.fwUp = false
      ∧ t.bki.mgpReset = true ∧ t.bki.btDriven = s.bki.btDriven ∧ t.bki.elems = s.bki.elems ∧ t.bki.running = s.bki.running)
  ∧ (∀ (s : State),
      let u := s.until (s.now + ms 1)
      s.season.season = .winter → s.power.wakeLow = false → s.now + ms 1 ≤ u.now → s.power.mainGood = true → s.power.disconnected = false →
      s.head.present = true →
    Completes .wakeNLow s fun t =>
      t.season.season = .spring ∧ t.season.lastWake = 2 ∧ t.time.tbStopped = false
      ∧ t.time.tbNs = (u.time.tbNs + (u.now - s.season.winterAge)) % 2 ^ 64 ∧ t.time.stepEpoch = s.time.stepEpoch
      ∧ t.time.age = u.time.age ∧ t.bki.btDriven = s.bki.btDriven ∧ t.cgu.role = s.cgu.role ∧ t.cgu.win = s.cgu.win
      ∧ t.cgu.ownClaim = s.cgu.ownClaim ∧ t.insts.lsMem = s.insts.lsMem
      ∧ t.insts.dramMem = s.insts.dramMem ∧ (t.port 6).link = false)
  ∧ (∀ (s : State),
      let u := s.until (s.now + ms 1)
      s.season.season ≠ .winter → s.power.wakeLow = false → s.now + ms 1 ≤ u.now →
    Completes .wakeNLow s fun t =>
      (s.entering = false → t = u)
      ∧ (s.entering = true → s.season.wakeHeld = none → t.season = { s.season with wakeHeld := some 2 }))
  ∧ (∀ (s : State), s.power.wakeLow = true → Completes .wakeNLow s fun t => t = s)
  ∧ (∀ (s : State), s.season.season = .winter → s.season.wakeEn.getLsbD 2 = true → s.season.wakeTimerS ≠ 0 →
      s.season.winterAge + sec s.season.wakeTimerS ≤ s.now → s.power.mainGood = true → s.power.disconnected = false →
    Completes .wakeTimerExpiry s fun t =>
      t.season.season = .spring ∧ t.season.lastWake = 4 ∧ t.time.tbStopped = false ∧ t.time.stepEpoch = s.time.stepEpoch
      ∧ t.cgu.role = s.cgu.role ∧ t.cgu.win = s.cgu.win ∧ t.cgu.ownClaim = s.cgu.ownClaim ∧ t.insts.lsMem = s.insts.lsMem
      ∧ t.insts.dramMem = s.insts.dramMem ∧ t.bki.btDriven = s.bki.btDriven)
  ∧ (∀ (f p : List Byte) (s : State), s.season.season = .winter → 64 ≤ frameLen f → frameLen f ≤ 1522 → s.clockUp .cu = true → s.wake.active = some p →
      p.length = 16 → wakeDest f s = true → wakeMatch p f = true → s.season.wakeEn.getLsbD 0 = true → s.power.mainGood = true →
      s.power.disconnected = false →
    Completes (.wakeFrame f true) s fun t =>
      t.season.season = .spring ∧ t.season.lastWake = 1 ∧ t.wake.matched = satAdd 16 s.wake.matched 1 ∧ t.wake.other = s.wake.other
      ∧ t.time.stepEpoch = s.time.stepEpoch)
  ∧ (∀ (f p : List Byte) (s : State), s.season.season = .winter → 64 ≤ frameLen f → frameLen f ≤ 1522 → s.clockUp .cu = true → s.wake.active = some p →
      (wakeDest f s = false ∨ wakeMatch p f = false) →
    Completes (.wakeFrame f true) s fun t =>
      Only [.wake] s t ∧ t.wake = { s.wake with other := satAdd 16 s.wake.other 1 })
  ∧ (∀ (f : List Byte) (s : State), Completes (.wakeFrame f false) s fun t => t = s)
  ∧ (∀ (f : List Byte) (ok : Bool) (s : State), s.clockUp .cu = false → Completes (.wakeFrame f ok) s fun t => t = s)

/-- The return of AON, between 10.5 V and 14.5 V, starts every part from reset, with the slot pins read and the island running where
an image of a bank reads as written and verifies under the antifuse keys; its loss, an input above 14.5 V, and 135 C, leave
every part at reset (R336, R503, R508). The loss of MAIN, or more than 14.5 V of it, enters WINTER with its cause (R357, R502);
after an overvoltage an input counts again below 14.0 V. 100 ms after its return SPRING begins. A power-fail warning, PFW_N low
for 2 us or MAIN below 10.2 V for 50 us, releases the coil and freezes the recorder at once, and its end unfreezes it (R397,
R504). MOD_RESET_N low for 10 us resets the MAIN islands and not the Backstop, after a save in progress (R500); at its release
the slot pins are read. PERST_N resets only the PCI island, with the cursors that the host reads. A reading above 125 C starts
the cut-off, which disconnects MAIN 20 ms later; a rail out of band for 10 us is a class F finding, and its return lets the PSC
start (R505, R508). (16_connectors_power_mechanics.md, 11_backstop_and_seasons.md, 12_faults_and_recorder.md) -/
def Obligations.SuppliesResetsAndTemperature : Prop :=
  (∀ (a : AonIn) (b : Bool) (s : State),
      let ok := (a.okA && backstopVerified (s.persist.bkiImg.getD 0 {}) s) || (b && backstopVerified (s.persist.bkiImg.getD 1 {}) s)
      s.power.aonGood = false → 10500 < a.mv → a.mv ≤ 14500 → (s.power.aonOver = true → a.mv < 14000) →
      (s.power.mainGood = true → s.head.present = true) →
    Completes (.aonGood a b) s fun t =>
      t.power.aonGood = true ∧ t.power.aonOver = false ∧ t.power.slotId = a.slotId % 16
      ∧ t.bki.running = ok ∧ t.bki.noImage = !ok ∧ t.bki.bootBank = s.persist.activeBank
      ∧ t.cgu = { State.reset.cgu with idConflict := s.cgu.idConflict } ∧ t.insts = State.reset.insts ∧ t.time = State.reset.time
      ∧ t.sw = State.reset.sw
      ∧ t.season = State.reset.season ∧ t.faults = State.reset.faults ∧ t.persist.copies = s.persist.copies ∧ t.pending = s.pending)
  ∧ (∀ (a : AonIn) (b : Bool) (s : State), s.power.aonGood = false →
      (a.mv ≤ 10500 ∨ (s.power.aonOver = true ∧ 14000 ≤ a.mv ∧ a.mv ≤ 14500)) → Completes (.aonGood a b) s fun t => t = s)
  ∧ (∀ (a : AonIn) (b : Bool) (s : State), 14500 < a.mv →
    Completes (.aonGood a b) s fun t => t.power.aonGood = false ∧ t.power.aonOver = true ∧ t.bki = State.reset.bki ∧ t.pending = s.pending)
  ∧ (∀ (s : State),
    Completes .aonLost s fun t =>
      t.power.aonGood = false ∧ t.cgu = { State.reset.cgu with idConflict := s.cgu.idConflict } ∧ t.insts = State.reset.insts
      ∧ t.time = State.reset.time ∧ t.bki = State.reset.bki
      ∧ t.season = State.reset.season ∧ t.persist.copies = s.persist.copies ∧ t.mbx.hostMem = s.mbx.hostMem ∧ t.pending = s.pending)
  ∧ (∀ (d : Int) (s : State), 135 < d →
    Completes (.bkiThermalReset d) s fun t =>
      t.power.aonGood = false ∧ t.cgu = { State.reset.cgu with idConflict := s.cgu.idConflict } ∧ t.insts = State.reset.insts
      ∧ t.bki = State.reset.bki
      ∧ t.season = State.reset.season ∧ t.pending = s.pending)
  ∧ (∀ (m : MainIn) (s : State), 10500 < m.mv → m.mv ≤ 14500 → (s.power.mainOver = true → m.mv < 14000) →
      s.power.aonGood = true → s.season.season = .winter → s.power.mainGood = false → s.power.disconnected = false →
      s.season.winterCause = true → s.time.tbStopped = true → s.time.oscFailed = false →
    Completes (.mainGood m) s fun t =>
      t.season.season = .spring ∧ t.season.lastWake = s.season.wakeHeld.getD 3 ∧ t.power.mainGood = true ∧ s.now + ms 100 ≤ t.now
      ∧ t.time.tbStopped = false ∧ t.time.stepEpoch = s.time.stepEpoch ∧ t.head.present = m.head)
  ∧ (∀ (m : MainIn) (s : State), 10500 < m.mv → m.mv ≤ 14500 → (s.power.mainOver = true → m.mv < 14000) →
      s.power.aonGood = true → (s.season.season = .summer ∨ s.season.season = .autumn) → s.power.internalFail = false →
      s.power.mainGood = false →
    Completes (.mainGood m) s fun t =>
      Only [.power, .head, .ports, .sw, .insts, .cgu, .time, .mbx, .evr, .bki] s t ∧ t.power.mainGood = true ∧ t.head.present = m.head
      ∧ (m.head = false → t.head.coil = false)
      ∧ (s.head.coil = false → Only [.power, .head] s t ∧ t.head = { s.head with present := m.head }))
  ∧ (∀ (m : MainIn) (s : State), m.mv ≤ 10500 ∨ (s.power.mainOver = true ∧ 14000 ≤ m.mv ∧ m.mv ≤ 14500) →
    Completes (.mainGood m) s fun t => t = s)
  ∧ (∀ (m : MainIn) (s : State), 14500 < m.mv → s.power.aonGood = true → s.season.season ≠ .winter →
    Completes (.mainGood m) s fun t =>
      t.season.season = .winter ∧ t.season.winterCause = true ∧ t.power.mainGood = false ∧ t.power.mainOver = true ∧ t.cgu.role = .out)
  ∧ (∀ (s : State), s.power.aonGood = true → s.season.season ≠ .winter →
    Completes .mainLost s fun t =>
      t.season.season = .winter ∧ t.season.winterCause = true ∧ t.power.mainGood = false ∧ t.power.resetPend = false ∧ t.cgu.role = .out
      ∧ t.head.coil = false ∧ t.insts = {} ∧ t.bki.btDriven = s.bki.btDriven ∧ t.time.tbStopped = true ∧ t.time.age = s.time.age)
  ∧ (∀ (s : State), s.power.pfwLow = false → s.power.aonGood = true → s.now + 2000 ≤ (s.until (s.now + 2000)).now → s.season.season ≠ .spring →
    Completes .pfwNFall s fun t =>
      t.power = { s.power with pfwLow := true } ∧ t.head.coil = false ∧ t.evr.frozen = (s.evr.frozen || s.evr.running)
      ∧ t.season = s.season ∧ t.bki.btDriven = s.bki.btDriven)
  ∧ (∀ (s : State), s.power.pfwLow = true → s.power.resetPend = false →
    Completes .pfwNRise s fun t =>
      Only [.power, .evr, .mbx] s t ∧ t.power = { s.power with pfwLow := false } ∧ t.evr.frozen = false)
  ∧ (∀ (mv n : Nat) (s : State), n < 50 → Completes (.internalPowerFail ⟨mv, n⟩) s fun t => t = s)
  ∧ (∀ (mv n : Nat) (s : State), mv < 10200 → 50 ≤ n → s.power.pfwLow = false → s.power.internalFail = false → s.power.mainGood = true →
      s.season.season ≠ .spring →
    Completes (.internalPowerFail ⟨mv, n⟩) s fun t =>
      t.power = { s.power with internalFail := true } ∧ t.head.coil = false ∧ t.evr.frozen = (s.evr.frozen || s.evr.running)
      ∧ t.season = s.season ∧ t.bki.btDriven = s.bki.btDriven)
  ∧ (∀ (s : State),
      let u := s.until (s.now + 10000)
      s.power.resetLow = false → s.now + 10000 ≤ u.now → s.power.aonGood = true → s.evr.saveInto = none → s.season.season ≠ .winter →
    Completes .modResetLow s fun t =>
      t.power.resetLow = true ∧ t.season.season = .spring ∧ t.season.lastWake = 0 ∧ t.insts = {} ∧ t.cgu.role = .out ∧ t.head.coil = false
      ∧ t.persist.fwUp = false ∧ t.bki.mgpReset = true ∧ t.bki.btDriven = s.bki.btDriven ∧ t.bki.elems = s.bki.elems
      ∧ t.time.age = u.time.age ∧ t.time.tbNs = u.time.tbNs ∧ t.persist.copies = s.persist.copies)
  ∧ (∀ (s : State), s.power.resetLow = true → Completes .modResetLow s fun t => t = s)
  ∧ (∀ (k : Nat) (s : State), s.power.resetLow = false → s.now + 10000 ≤ (s.until (s.now + 10000)).now → s.power.aonGood = true →
      s.evr.saveInto = some k →
    Completes .modResetLow s fun t =>
      t.power.resetLow = true ∧ t.power.resetPend = true ∧ t.head.coil = false ∧ t.season = s.season)
  ∧ (∀ (s : State), s.power.resetLow = true → s.power.aonGood = true → s.power.resetPend = false → s.season.season ≠ .winter →
      s.head.present = true →
    Completes .modResetRelease s fun t =>
      Only [.power, .cgu, .head, .ports, .wake] s t ∧ t.power = { s.power with resetLow := false } ∧ t.cgu.unitId = s.power.slotId
      ∧ t.cgu.role = s.cgu.role ∧ t.wake.matched = 0 ∧ t.wake.other = 0 ∧ t.wake.pattern = s.wake.pattern)
  ∧ (∀ (s : State),
    Completes (.perstN true) s fun t =>
      Only [.power, .mbx, .evr] s t ∧ t.mbx.ready = false ∧ t.mbx.pairs = [] ∧ t.mbx.events = [] ∧ t.mbx.hostMem = s.mbx.hostMem
      ∧ t.mbx.instPairs = s.mbx.instPairs)
  ∧ (∀ (s : State),
    Completes (.perstN false) s fun t =>
      Only [.power, .mbx] s t ∧ t.mbx.ready = s.persist.fwUp ∧ (s.mbx.ready = s.persist.fwUp → t.mbx = s.mbx) ∧ t.power.perstLow = false)
  ∧ (∀ (d : Int) (s : State), s.power.disconnected = false → s.power.mainGood = true → s.season.season ≠ .winter → d ≤ 105 →
      s.power.hot = false → s.power.hotSince = none →
    Completes (.thermalCheck d) s fun t => Only [.power] s t ∧ t.power = { s.power with tempMax := d })
  ∧ (∀ (d : Int) (s : State), s.power.disconnected = false → s.power.mainGood = true →
      (s.season.season = .summer ∨ s.season.season = .autumn) → 125 < d → s.power.cutoffAt = none →
    Completes (.thermalCheck d) s fun t =>
      t.power.cutoffAt = some s.now ∧ t.power.internalFail = true ∧ t.power.tempMax = d ∧ t.head.coil = false ∧ t.season = s.season
      ∧ (s.power.hot = false → t.power.hot = true ∧ t.unitF = true))
  ∧ (∀ (a : Nat) (s : State), s.power.cutoffAt = some a → a + ms 20 ≤ s.now → s.season.season ≠ .winter →
    Completes .thermalDisconnect s fun t =>
      t.power.disconnected = true ∧ t.power.cutoffAt = none ∧ t.season.season = .winter ∧ t.season.winterCause = true
      ∧ t.bki.btDriven = s.bki.btDriven)
  ∧ (∀ (r : Rail) (n : Nat) (s : State), 10 ≤ n → railOn r s = true →
    Completes (.railOutOfBand r n) s fun t =>
      t.unitF = true ∧ t.power.badRails.contains r = true
      ∧ (r.ofIsland = true → t.bki.coresHeld = true ∧ t.bki.btDriven = 0 ∧ (t.fset .bki 0).fActive = true)
      ∧ (r.ofIsland = false → t.bki.coresHeld = s.bki.coresHeld ∧ t.bki.btDriven = s.bki.btDriven ∧ (t.fset .pmc 0).fActive = true))
  ∧ (∀ (r : Rail) (n : Nat) (s : State), n < 10 → Completes (.railOutOfBand r n) s fun t => t = s)
  ∧ (∀ (r : Rail) (s : State), r.ofIsland = true →
    Completes (.railInBand r) s fun t =>
      Only [.power, .faults] s t ∧ t.power = { s.power with badRails := s.power.badRails.filter (· ≠ r) } ∧ t.unitF = s.unitF)
  ∧ (∀ (k : Nat) (s : State), k < 8 → s.persist.fwUp = true → s.season.season ≠ .winter → (s.psc k).en = false → s.time.tbStopped = false →
    Completes (.railInBand (.vc k)) s fun t =>
      Only [.power, .faults, .sched, .time] s t ∧ (t.psc k).en = true ∧ (t.psc k).frameNo = 0 ∧ ∀ j, j ≠ k → t.psc j = s.psc j)

/-- At the end of a quiet period with the condition gone a block clears STATE and F_ACTIVE, counts a recovery and sets EXIT; its
first-error record stays, and a unit that is OUT stays OUT (R372, R373). While the condition is present, or the cores of the BKI
are held, nothing happens. Arming a MODE 0 injection of a kind that can be injected only arms it; one that arrives while one is
armed, or names a kind the mode does not have, changes nothing; a MODE 1 injection of PROTOCOL makes its finding at once,
counted as injected and not in the class counters, with the reaction at its location: P0 or P1 held down (R5), the coil released
(R104), a lane down (R271), a wire disregarded (R252), a failed calibration step (R341) (R379, R380). An armed injection ends
aborted after 1 s. A read of FE_CODE fills the read buffer (R378); REARM clears FE_VALID and OVERFLOW except in LATCH.
(12_faults_and_recorder.md) -/
def Obligations.FaultSetsLeaveAndInject : Prop :=
  (∀ (b : BlockId) (u : Nat) (s : State), isSet b u = true → (s.fset b u).state = true → (s.fset b u).persist = false →
      ¬(b = .bki ∧ s.bki.coresHeld = true) → (s.fset b u).quietEnd ≤ s.now →
    Completes (.quietPeriodEnd b u) s fun t =>
      t.fset b u = { s.fset b u with
                     state := false
                     fActive := false
                     recoveries := satAdd 16 (s.fset b u).recoveries 1
                     int := setBit (s.fset b u).int 4 true }
      ∧ (s.cgu.role = .out → t.cgu.role = .out))
  ∧ (∀ (b : BlockId) (u : Nat) (s : State),
      ((s.fset b u).persist = true ∨ (s.fset b u).state = false ∨ (b = .bki ∧ s.bki.coresHeld = true)) →
    Completes (.quietPeriodEnd b u) s fun t => t = s)
  ∧ (∀ (b : BlockId) (u : Nat) (v : BitVec 32) (s : State), isSet b u = true → bitOf v 31 = false →
    Completes (.fltInjWrite b u v) s fun t =>
      Only [.faults] s t
      ∧ t.fset b u = { s.fset b u with
                       injArm := false
                       injState := if (s.fset b u).injArm then 0 else (s.fset b u).injState })
  ∧ (∀ (b : BlockId) (u : Nat) (v : BitVec 32) (s : State), isSet b u = true → bitOf v 31 = true → bitOf v 30 = false →
      bits v 27 24 ≤ 3 → bits v 7 0 ≠ 0 → bits v 17 13 ≤ 17 → (s.fset b u).injArm = false →
    Completes (.fltInjWrite b u v) s fun t =>
      Only [.faults] s t ∧ (t.fset b u).injArm = true ∧ (t.fset b u).injState = 1 ∧ (t.fset b u).injKind = bits v 27 24
      ∧ (t.fset b u).injPos = bits v 17 13 ∧ (t.fset b u).injAt = s.now ∧ (t.fset b u).state = (s.fset b u).state)
  ∧ (∀ (b : BlockId) (u : Nat) (v : BitVec 32) (s : State), bitOf v 31 = true →
      ((s.fset b u).injArm = true ∨ injectable (bits v 27 24) (bitOf v 30) = false ∨ bits v 7 0 = 0) →
    Completes (.fltInjWrite b u v) s fun t => t = s)
  ∧ (∀ (b : BlockId) (u : Nat) (v : BitVec 32) (s : State), isSet b u = true → bitOf v 31 = true → bitOf v 30 = true →
      bits v 27 24 = 9 → bits v 7 0 ≠ 0 → bits v 17 13 ≤ 17 → (s.fset b u).injArm = false → s.quietOver b u = false →
    Completes (.fltInjWrite b u v) s fun t =>
      (b ∉ [.byp, .prt, .mlk, .cgu] → Only [.faults, .bki, .evr, .mbx] s t)
      ∧ (t.fset b u).injected = satAdd 16 (s.fset b u).injected 1
      ∧ (t.fset b u).cntK = (s.fset b u).cntK ∧ (t.fset b u).cntF = (s.fset b u).cntF ∧ (t.fset b u).state = true
      ∧ (t.fset b u).injState = 2 ∧ (t.fset b u).quietFrom = s.now
      ∧ (b = .prt → u < 2 → (t.port u).link = false ∧ (t.port u).holdOut = true)
      ∧ (b = .byp → t.head.coil = false ∧ ∀ k, k < 2 → (t.port k).link = false ∧ (t.port k).attach = 3)
      ∧ (b = .mlk → s.mlk.enabledAt.isSome = true → s.mlk.lanes.length = 2 → (∀ l, l ∈ s.mlk.lanes → l.failed = false) →
          ∃ n, n < 2 ∧ (t.mlk.lanes.getD n {}).failed = true ∧ (t.mlk.lanes.getD n {}).up = false)
      ∧ (b = .cgu → s.cgu.wires.length = 2 →
          ∃ n, n < 2 ∧ (t.cgu.wires.getD n {}).result = 2 ∧ (t.cgu.wires.getD n {}).disregard = true)
      ∧ (b = .bki → t.bki.calFails = if 2 ≤ s.bki.calFails then 0 else s.bki.calFails + 1))
  ∧ (∀ (b : BlockId) (u : Nat) (s : State), isSet b u = true → (s.fset b u).injArm = true → (s.fset b u).injAt + sec 1 ≤ s.now →
    Completes (.injectionTimeout b u) s fun t =>
      Only [.faults] s t ∧ t.fset b u = { s.fset b u with injArm := false, injState := 3 })
  ∧ (∀ (b : BlockId) (u : Nat) (s : State), isSet b u = true →
    Completes (.feCodeRead b u) s fun t => Only [.faults] s t ∧ t.fset b u = { s.fset b u with feBuf := (s.fset b u).fe })
  ∧ (∀ (b : BlockId) (u : Nat) (s : State), isSet b u = true →
    Completes (.rearmWrite b u) s fun t =>
      Only [.faults] s t
      ∧ t.fset b u = (if (s.fset b u).captureAct then s.fset b u else { s.fset b u with feValid := false, overflow := false }))

/-- The oldest posted occurrence leaves its queue and no part but the recorder changes (R389, R391). One that passes becomes the
newest record with SEQ = NEXT_SEQ, which advances; a token is taken where its bucket limits it, and class F and the codes below
16 bypass it. One that finds its bucket empty is suppressed: the ring stays and the code's count advances. Nothing is written
while the ring is frozen. A refill adds a token and writes the code's SUPPRESSION record where occurrences were suppressed
(R390). A cursor's window is filled at its load and a load in progress ignores another (R394). The end of a save completes it;
with two saves the older area is erased (R397, R398). (12_faults_and_recorder.md) -/
def Obligations.RecorderWritesInOrder : Prop :=
  (∀ (r : EvrRec) (rest : List EvrRec) (s : State), s.evr.posts = r :: rest → s.evr.running = true → s.evr.frozen = false →
      (∀ a, (s.evr.bucket r.code).refillAt = some a → s.now < a) → (s.evr.treat r = .pass ∨ s.evr.treat r = .bypass ∨ s.evr.treat r = .token) →
    Completes .evrOccurrence s fun t =>
      Only [.evr] s t ∧ t.evr.posts = rest ∧ t.evr.ring = ({ r with seq := s.evr.next } :: s.evr.ring).take 65536
      ∧ t.evr.next = nextSeq s.evr.next ∧ (∀ c, c ≠ r.code → t.evr.bucket c = s.evr.bucket c)
      ∧ (t.evr.bucket r.code).tokens = (if s.evr.treat r = .token then (s.evr.bucket r.code).tokens - 1 else (s.evr.bucket r.code).tokens))
  ∧ (∀ (r : EvrRec) (rest : List EvrRec) (s : State), s.evr.posts = r :: rest → s.evr.running = true → s.evr.frozen = false →
      (∀ a, (s.evr.bucket r.code).refillAt = some a → s.now < a) → s.evr.treat r = .suppress →
    Completes .evrOccurrence s fun t =>
      Only [.evr] s t ∧ t.evr.posts = rest ∧ t.evr.ring = s.evr.ring ∧ t.evr.next = s.evr.next
      ∧ (t.evr.bucket r.code).suppCount = satAdd 32 (s.evr.bucket r.code).suppCount 1 ∧ (t.evr.bucket r.code).suppLast = r.age
      ∧ t.evr.live.get 2 0 = satAdd 64 (s.evr.live.get 2 0) 1)
  ∧ (∀ (r : EvrRec) (rest : List EvrRec) (s : State), s.evr.posts = r :: rest → s.evr.running = true → s.evr.frozen = true →
    Completes .evrOccurrence s fun t =>
      Only [.evr] s t ∧ t.evr.posts = rest ∧ t.evr.ring = s.evr.ring ∧ t.evr.next = s.evr.next
      ∧ t.evr.live.get 4 0 = satAdd 64 (s.evr.live.get 4 0) 1)
  ∧ (∀ (r : EvrRec) (e : Evr), (r.cls = 3 ∨ r.code < 16) → e.treat r = .bypass)
  ∧ (∀ (c at_ : Nat) (s : State), (s.evr.bucket c).refillAt = some at_ → s.evr.running = true → at_ ≤ s.now → ((s.evr.bucket c).suppCount = 0 ∨ s.evr.frozen = true) →
    Completes (.bucketRefill c) s fun t =>
      Only [.evr] s t ∧ t.evr.ring = s.evr.ring ∧ t.evr.bucket c = (s.evr.bucket c).refill at_
      ∧ (t.evr.bucket c).tokens = (s.evr.bucket c).tokens + 1 ∧ ∀ d, d ≠ c → t.evr.bucket d = s.evr.bucket d)
  ∧ (∀ (c at_ : Nat) (s : State), (s.evr.bucket c).refillAt = some at_ → s.evr.running = true → at_ ≤ s.now → (s.evr.bucket c).suppCount ≠ 0 → s.evr.frozen = false →
    Completes (.bucketRefill c) s fun t =>
      Only [.evr] s t ∧ (t.evr.bucket c).tokens = (s.evr.bucket c).tokens + 1 ∧ (t.evr.bucket c).suppCount = 0
      ∧ t.evr.next = nextSeq s.evr.next ∧ (∃ r, t.evr.ring.head? = some r ∧ r.code = 0 ∧ r.seq = s.evr.next))
  ∧ (∀ (c at_ : Nat) (s : State), (s.evr.bucket c).lossFrom = some at_ → s.evr.running = true →
      at_ + us (s.evr.bucket c).intervalUs ≤ s.now →
    Completes (.lossIntervalEnd c) s fun t =>
      Only [.evr] s t ∧ (t.evr.bucket c).lossFrom = none ∧ (t.evr.bucket c).tokens = (s.evr.bucket c).tokens
      ∧ ((s.evr.bucket c).suppCount ≠ 0 → s.evr.frozen = false →
          (t.evr.bucket c).suppCount = 0 ∧ ∃ r, t.evr.ring.head? = some r ∧ r.code = 0 ∧ r.seq = s.evr.next))
  ∧ (∀ (n : Nat) (v : BitVec 32) (c : Cursor) (s : State), s.evr.cursors[n]? = some c → bitOf v 31 = true → c.busy = false →
      bits v 6 0 ≤ 64 →
    Completes (.cursorLoad n v) s fun t =>
      let m := c.move (bits v 6 0) (bitOf v 30) s.evr
      Only [.evr] s t ∧ t.evr.ring = s.evr.ring
      ∧ t.evr.cursors = s.evr.cursors.set n { m with
          busy := true
          window := (s.evr.window 64 m.seq).map EvrRec.asRead
          avail := (s.evr.window 64 m.seq).length })
  ∧ (∀ (n : Nat) (v : BitVec 32) (c : Cursor) (s : State), s.evr.cursors[n]? = some c → c.busy = true →
    Completes (.cursorLoad n v) s fun t => t = s)
  ∧ (∀ (n : Nat) (c : Cursor) (s : State), s.evr.cursors[n]? = some c → c.busy = true →
    Completes (.cursorLoadComplete n) s fun t =>
      Only [.evr, .mbx] s t ∧ t.evr.cursors[n]? = some { c with busy := false } ∧ t.evr.ring = s.evr.ring
      ∧ (n = 0 → t.mbx.msixDue.get 17 false = true))
  ∧ (∀ (k : Nat) (s : State), s.evr.saveInto = some k → s.power.resetPend = false →
    Completes .saveEnd s fun t =>
      Only [.evr] s t ∧ t.evr.saveInto = none ∧ t.evr.lastComplete = true ∧ t.evr.saveState = 3
      ∧ t.evr.saved = (s.evr.areas.getD k {}).recs.length ∧ t.evr.ring = s.evr.ring)
  ∧ (∀ (a b : SaveArea) (s : State), s.evr.areas = [a, b] → a.erased = false → b.erased = false → s.persist.fwUp = true →
      s.evr.saveInto = none →
    Completes .saveAreaErase s fun t =>
      Only [.evr] s t ∧ t.evr.areas = (if newerArea a b then [{}, b] else [a, {}]) ∧ t.evr.saveState = 1)

/-- A read gives the value of the register before its RC fields clear (R13). A latching read gives the low word and keeps the high
one (R231, R304). A snapshot moves the live counters of its page, whichever of the 13 it is, into the bank and leaves every
other page's alone (R91); a port's takes the quanta of a pause counted so far, the mirror link's the status words missed so far.
A write of a BAR0 register that is no aligned whole word is only counted (R430); a ring slot takes any word (R429). A write with
the link down, or of a page in WINTER, changes nothing; MAX_FRAME and INCR ignore a value outside their ranges (R13, R94, R304).
With the link up a TAIL is taken only where it leaves the ring its bounds, else it is counted (R442); a pair reset zeroes the
indices and clears the cache, at once or when the MGP starts (R444). An instance registers its own pair, only at a multiple of
4,096 with 4, 8 or 16 slots (R454). A due vector is sent and a masked one is kept pending (R431). (02_self_timed_fabric.md,
03_ports_and_bypass.md, 14_mailbox_interface.md, 07_partition_scheduling.md, 09_network_time.md) -/
def Obligations.RegistersAndMailboxRings : Prop :=
  (∀ (reg : RegAddr) (s : State), s.pciUp = true → s.pciConfig = true → s.pagesUp = true →
      (match reg with | .page b u _ => u < b.units | _ => True) →
    Completes (.rcRead reg) s fun t => t.fab.readOut = regRead reg s ∧ t.ports = s.ports ∧ t.cgu = s.cgu ∧ t.ksu = s.ksu ∧ t.pending = s.pending)
  ∧ (∀ (o : Nat) (s : State), s.pciUp = true →
    Completes (.rcRead (.bar0 o)) s fun t =>
      Only [.fab, .mbx, .evr] s t ∧ t.fab.readOut = regRead (.bar0 o) s
      ∧ (o = 0x10 → t.mbx.badAccess = 0 ∧ t.evr = s.evr) ∧ (o = 0x11008 → t.mbx.evtLost = 0 ∧ t.evr = s.evr)
      ∧ (o ≠ 0x10 → t.mbx.badAccess = s.mbx.badAccess))
  ∧ (∀ (b : BlockId) (u o : Nat) (s : State), s.pagesUp = true → u < b.units →
    Completes (.rcRead (.page b u o)) s fun t =>
      Only [.fab, .sce, .sched, .time, .acq, .evr] s t ∧ t.fab.readOut = regRead (.page b u o) s
      ∧ (b = .arb → o = 0x08 → (t.arb u).waitMax = 0 ∧ (t.arb u).waitWho = 0)
      ∧ (b = .tbu → o = 0x4C → t.time = { s.time with stampHwm := 0 })
      ∧ (b = .cgu → t.fab = { s.fab with readOut := regRead (.page b u o) s }))
  ∧ (∀ (s : State),
    Completes (.latchingRead .ageLo) s fun t =>
      Only [.fab, .time] s t ∧ t.fab = { s.fab with readOut := s.time.age % 2 ^ 32 }
      ∧ t.time = { s.time with ageLatch := some (s.time.age / 2 ^ 32 % 2 ^ 32) })
  ∧ (∀ (s : State),
    Completes (.latchingRead .tbFrac) s fun t =>
      Only [.fab, .time] s t ∧ t.fab = { s.fab with readOut := s.time.tbFrac / 65536 }
      ∧ t.time = { s.time with tbLatch := some (s.time.tbNs % 2 ^ 32, s.time.tbNs / 2 ^ 32 % 2 ^ 32) })
  ∧ (∀ (k : Nat) (s : State), k < 8 →
    Completes (.latchingRead (.pscFrameLo k)) s fun t =>
      Only [.fab, .sched] s t ∧ t.fab.readOut = (s.psc k).frameNo % 2 ^ 32
      ∧ t.psc k = { s.psc k with hiLatch := some ((s.psc k).frameNo / 2 ^ 32 % 2 ^ 32) } ∧ ∀ j, j ≠ k → t.psc j = s.psc j)
  ∧ (∀ (k : Nat) (s : State), k < 8 →
    Completes (.counterSnapshot (.port k)) s fun t =>
      Only [.ports, .mbx, .free] s t ∧ t.port k = { (countPause k s).port k with snap := ((countPause k s).port k).live, live := [] } ∧ ∀ j, j ≠ k → t.port j = s.port j)
  ∧ (∀ (p : CntPage) (s : State), p.exists_ = true →
    Completes (.counterSnapshot p) s fun t =>
      let u := (match p with | .port k => countPause k s | .mlk => countMissed s | _ => s)
      p.live t = [] ∧ snapOf p.place.1 p.place.2 t = p.live u
      ∧ (∀ q : CntPage, q ≠ p → q.live t = q.live s ∧ snapOf q.place.1 q.place.2 t = snapOf q.place.1 q.place.2 s)
      ∧ Only [.ports, .sw, .sce, .sched, .time, .acq, .bki, .evr, .ksu, .cgu, .ocu, .mlk, .mbx, .free] s t)
  ∧ (∀ (p : CntPage) (s : State), p.exists_ = false → Completes (.counterSnapshot p) s fun t => t = s)
  ∧ (∀ (o : Nat) (v : BitVec 32) (s : State), s.pciUp = true → o % 4 ≠ 0 → ringOffset o = false →
    Completes (.registerWrite (.bar0 o) v) s fun t =>
      Only [.mbx] s t ∧ t.mbx = { s.mbx with badAccess := satAdd 16 s.mbx.badAccess 1, msixDue := t.mbx.msixDue }
      ∧ (s.mbx.badAccess < 65535 → t.mbx.msixDue.get 19 false = true))
  ∧ (∀ (o : Nat) (be : BitVec 4) (v : BitVec 32) (s : State), s.pciUp = true → ringOffset (o / 4 * 4) = false → be ≠ 0xF →
    Completes (.registerWrite (.bar0Be o be) v) s fun t =>
      Only [.mbx] s t ∧ t.mbx = { s.mbx with badAccess := satAdd 16 s.mbx.badAccess 1, msixDue := t.mbx.msixDue })
  ∧ (∀ (o : Nat) (v : BitVec 32) (s : State), s.pciUp = true → ringOffset o = true → o % 4 = 0 →
      (s.ringSlot ((o - 0x100000) / 64)).length = 64 →
    Completes (.registerWrite (.bar0 o) v) s fun t =>
      Only [.mbx] s t ∧ regRead (.bar0 o) t = v.toNat
      ∧ (∀ k, k ≠ (o - 0x100000) / 64 → t.ringSlot k = s.ringSlot k) ∧ t.mbx.badAccess = s.mbx.badAccess)
  ∧ (∀ (v : BitVec 32) (s : State), s.pciConfig = true →
    Completes (.registerWrite (.pci .command) v) s fun t =>
      Only [.mbx] s t ∧ t.mbx = { s.mbx with pci := { s.mbx.pci with memEn := bitOf v 1, busMaster := bitOf v 2 } })
  ∧ (∀ (o : Nat) (v : BitVec 32) (s : State), s.pciUp = false → Completes (.registerWrite (.bar0 o) v) s fun t => t = s)
  ∧ (∀ (b : BlockId) (u o : Nat) (v : BitVec 32) (s : State), (s.pagesUp = false ∨ b.units ≤ u ∨ o % 4 ≠ 0) →
    Completes (.registerWrite (.page b u o) v) s fun t => t = s)
  ∧ (∀ (k : Nat) (v : BitVec 32) (s : State), s.pagesUp = true → k < 8 →
    Completes (.registerWrite (.page .prt k 0x10) v) s fun t =>
      Only [.ports] s t ∧ (∀ j, j ≠ k → t.port j = s.port j)
      ∧ t.port k = { s.port k with maxFrame := if 1522 ≤ bits v 13 0 ∧ bits v 13 0 ≤ 9216 ∧ bits v 13 0 % 2 = 0 then bits v 13 0 else (s.port k).maxFrame })
  ∧ (∀ (v : BitVec 32) (s : State), s.pagesUp = true →
    Completes (.registerWrite (.page .tbu 0 0x08) v) s fun t =>
      Only [.time] s t
      ∧ t.time = { s.time with incr := if -0x100000 ≤ signed 32 v.toNat ∧ signed 32 v.toNat ≤ 0x100000 then signed 32 v.toNat else s.time.incr })
  ∧ (∀ (o : Nat) (v : BitVec 32) (s : State), s.pagesUp = true → s.bki.clmHold = true → (o = 0x00 ∨ o = 0x04) →
    Completes (.registerWrite (.page .cgu 0 o) v) s fun t => t = s)
  ∧ (∀ (p n : Nat) (s : State), (s.pciUp = false ∨ 16 ≤ p) →
    Completes (.reqTailWrite p n) s fun t => t = s)
  ∧ (∀ (p n : Nat) (s : State), p < 16 → s.pciUp = true →
    Completes (.reqTailWrite p n) s fun t =>
      let x := s.mbx.pairs.get p {}
      Only [.mbx] s t ∧ (∀ q, q ≠ p → t.mbx.pairs.get q {} = s.mbx.pairs.get q {})
      ∧ (x.resetBusy = false → x.tailOk n = true → t.mbx.pairs.get p {} = { x with reqTail := n % 65536 })
      ∧ (x.resetBusy = true ∨ x.tailOk n = false → t.mbx.pairs.get p {} = { x with badTail := satAdd 16 x.badTail 1 }))
  ∧ (∀ (p : Nat) (s : State), p < 16 → s.pciUp = true →
    Completes (.pairReset p) s fun t =>
      let x := s.mbx.pairs.get p {}
      Only [.mbx] s t ∧ (∀ q, q ≠ p → t.mbx.pairs.get q {} = s.mbx.pairs.get q {})
      ∧ (s.mbx.ready = true → s.persist.fwUp = true → t.mbx.pairs.get p {} = { size := x.size, base := x.base, badTail := x.badTail, rsp := x.rsp })
      ∧ ((s.mbx.ready = false ∨ s.persist.fwUp = false) → t.mbx.pairs.get p {} = { x with resetBusy := true }))
  ∧ (∀ (i g a n : Nat) (s : State), s.genCurrent i g = true → a % 4096 = 0 → (n = 4 ∨ n = 8 ∨ n = 16) →
      ringFree i a (128 * n) (s.modMbx fun m => { m with instPairs := m.instPairs.del i }) = true →
    Completes (.mboxRegister i g a n) s fun t =>
      Only [.insts, .mbx] s t ∧ t.mbx.instPairs.get i {} = { size := n, base := a } ∧ (t.inst i).ret = [0]
      ∧ t.insts.lsMem = s.insts.lsMem ∧ ∀ j, j ≠ i → t.inst j = s.inst j)
  ∧ (∀ (i g a n : Nat) (s : State), s.genCurrent i g = true → (a % 4096 ≠ 0 ∨ (n ≠ 4 ∧ n ≠ 8 ∧ n ≠ 16)) →
    Completes (.mboxRegister i g a n) s fun t => Only [.insts] s t ∧ (∀ j, j ≠ i → t.inst j = s.inst j) ∧ (t.inst i).ret ≠ [0])
  ∧ (∀ (i g n : Nat) (s : State), s.genCurrent i g = true → (s.inst i).state ≠ .resetting → s.mbx.instPairs.has i = true →
      (s.mbx.instPairs.get i {}).tailOk n = true →
    Completes (.mbxReqTailWrite i g n) s fun t =>
      Only [.mbx] s t ∧ t.mbx.instPairs.get i {} = { s.mbx.instPairs.get i {} with reqTail := n % 65536 })
  ∧ (∀ (i g n : Nat) (s : State), s.genCurrent i g = true → (s.inst i).state = .resetting →
    Completes (.mbxReqTailWrite i g n) s fun t => t = s)
  ∧ (∀ (v : Nat) (s : State), vectorUsed v = true → s.mbx.msixDue.get v false = true → s.pciUp = true → s.mbx.msixAt.has v = false →
    Completes (.msiXMessage v) s fun t =>
      Only [.mbx] s t
      ∧ (s.mbx.msixMask.getLsbD v = true → t.mbx = { s.mbx with msixPend := setBit s.mbx.msixPend v true })
      ∧ (s.mbx.msixMask.getLsbD v = false → t.mbx.msixDue.get v false = false ∧ t.mbx.msixAt.get v 0 = s.now
          ∧ t.mbx.msixPend.getLsbD v = false))

/-- A load or generation into an unlocked slot gives it the value with its check value, valid and usable, changes no other slot, and
clears KSU_KEYIN (R404, R414); of the reserved slots only 0x003, once, and 0x004 take a load, and are then locked (R410); into a
locked slot it changes no slot and answers RESULT 1; without a healthy generator nothing is generated (RESULT 6). A derivation
that no check refuses writes the derived value, another changes no slot and answers its RESULT (R415, R416). The MGP erases a
slot with its saved copies, after which its owner's OVER is brought up to date (R192, R409); an instance erases none that is
locked or not its own (R409). With a sound wrapping key a written slot is saved, and a damaged one comes back from its saved
copy, or is erased where its unwrap fails (R413, R414). A command while one is in progress is ignored. (13_key_store.md) -/
def Obligations.KeySlotsAreWrittenOnlyUnlocked : Prop :=
  (∀ (who : Master) (v : BitVec 32) (s : State), s.ksu.busy = true →
    Completes (.ksuLoad who v) s fun t => t = s)
  ∧ (∀ (who : Master) (v : BitVec 32) (s : State), cmdIs 0 v = true → bitOf v 31 = true → s.ksu.busy = false →
      (s.slot (cmdSlot v)).lock = false → reservedSlot (cmdSlot v) s = false →
    Completes (.ksuLoad who v) s fun t =>
      let k := t.slot (cmdSlot v)
      Only [.ksu, .free] s t ∧ (∀ m, m ≠ cmdSlot v → t.slot m = s.slot m) ∧ (cmdSlot v < 8 → k.lock = true)
      ∧ t.slotValue (cmdSlot v) = s.ksu.keyIn ∧ k.kcv = kcvOf s.ksu.keyIn ∧ k.valid = true ∧ k.unusable = false ∧ k.origin = 0
      ∧ k.use = (s.slot (cmdSlot v)).use ∧ t.ksu.result = 0 ∧ t.ksu.keyIn = 0)
  ∧ (∀ (who : Master) (v : BitVec 32) (s : State), cmdIs 0 v = true → bitOf v 31 = true → s.ksu.busy = false →
      ((s.slot (cmdSlot v)).lock = true ∨ reservedSlot (cmdSlot v) s = true) →
    Completes (.ksuLoad who v) s fun t =>
      Only [.ksu] s t ∧ t.ksu.slots = s.ksu.slots ∧ t.ksu.result = 1 ∧ t.ksu.keyIn = 0 ∧ t.ksu.live = bump s.ksu.live 7)
  ∧ (∀ (who : Master) (v : BitVec 32) (s : State), cmdIs 1 v = true → bitOf v 31 = true → s.ksu.busy = false →
      (s.slot (cmdSlot v)).lock = false → 8 ≤ cmdSlot v → s.ksu.trngOk = true →
    Completes (.ksuGenerate who v) s fun t =>
      let k := t.slot (cmdSlot v)
      Only [.ksu, .free] s t ∧ (∀ m, m ≠ cmdSlot v → t.slot m = s.slot m) ∧ k.kcv = kcvOf (t.slotValue (cmdSlot v)) ∧ k.valid = true ∧ k.origin = 1
      ∧ t.ksu.draws = s.ksu.draws + 1 ∧ t.ksu.result = 0)
  ∧ (∀ (who : Master) (v : BitVec 32) (s : State), cmdIs 1 v = true → bitOf v 31 = true → s.ksu.busy = false →
      (s.slot (cmdSlot v)).lock = false → 8 ≤ cmdSlot v → s.ksu.trngOk = false →
    Completes (.ksuGenerate who v) s fun t => Only [.ksu] s t ∧ t.ksu.slots = s.ksu.slots ∧ t.ksu.result = 6)
  ∧ (∀ (who : Master) (v : BitVec 32) (s : State), cmdIs 2 v = true → bitOf v 31 = true → s.ksu.busy = false →
      8 ≤ cmdSlot v →
      deriveRefused who (cmdSlot v) (cmdParent v) (s.slot (cmdSlot v)).use s.ksu.labelOf.length s.ksu.contextOf.length s = 0 →
    Completes (.ksuDerive who v) s fun t =>
      let k := t.slot (cmdSlot v)
      Only [.ksu, .free] s t ∧ (∀ m, m ≠ cmdSlot v → t.slot m = s.slot m)
      ∧ t.slotValue (cmdSlot v) = derived (cmdParent v) s.ksu.labelOf s.ksu.contextOf s ∧ k.valid = true ∧ k.origin = 2 ∧ t.ksu.result = 0)
  ∧ (∀ (who : Master) (v : BitVec 32) (s : State), cmdIs 2 v = true → bitOf v 31 = true → s.ksu.busy = false →
      let r := deriveRefused who (cmdSlot v) (cmdParent v) (s.slot (cmdSlot v)).use s.ksu.labelOf.length s.ksu.contextOf.length s
      r ≠ 0 → 8 ≤ cmdSlot v →
    Completes (.ksuDerive who v) s fun t => Only [.ksu] s t ∧ t.ksu.slots = s.ksu.slots ∧ t.ksu.result = r)
  ∧ (∀ (v : BitVec 32) (s : State), cmdIs 3 v = true → bitOf v 31 = true → s.ksu.busy = false →
    Completes (.ksuErase .mgp v) s fun t =>
      Only [.ksu, .insts, .evr, .mbx, .bki] s t ∧ ((s.slot (cmdSlot v)).byMgp = true → Only [.ksu] s t) ∧ t.slot (cmdSlot v) = {} ∧ (∀ m, m ≠ cmdSlot v → t.slot m = s.slot m)
      ∧ (∀ c ∈ t.ksu.saved, c.slot ≠ cmdSlot v) ∧ t.ksu.result = 0)
  ∧ (∀ (i g : Nat) (v : BitVec 32) (s : State), cmdIs 3 v = true → bitOf v 31 = true → s.ksu.busy = false →
      ((s.slot (cmdSlot v)).lock = true ∨ (s.slot (cmdSlot v)).ownedByWho (.inst i g) = false) →
    Completes (.ksuErase (.inst i g) v) s fun t => Only [.ksu] s t ∧ t.ksu.slots = s.ksu.slots ∧ t.ksu.saved = s.ksu.saved ∧ t.ksu.result = 1)
  ∧ (∀ (n a : Nat) (s : State), s.persist.fwUp = true → (s.slot n).valid = true → (s.slot n).volatile = false → (s.slot n).writtenAt = some a →
      (s.slot 5).valid = true → (s.slot 5).unusable = false →
    Completes (.keySave n) s fun t =>
      Only [.ksu] s t ∧ t.slot n = { s.slot n with writtenAt := none } ∧ (∀ m, m ≠ n → t.slot m = s.slot m)
      ∧ t.ksu.saved = (s.ksu.saved.filter fun c => c.slot ≠ n)
          ++ [{ slot := n, copy := { s.slot n with cell := 0, writtenAt := none }, value := s.slotValue n,
                 wrapped := Config.wrap (s.slotValue 5) (s.slotValue n) }])
  ∧ (∀ (n : Nat) (c : SavedSlot) (s : State), s.persist.fwUp = true → (s.slot n).unusable = true → (s.slot n).volatile = false →
      (s.ksu.saved.find? fun c => c.slot == n) = some c → (s.slot 5).valid = true →
    Completes (.slotDamageRewrite n) s fun t =>
      Only [.ksu, .free] s t ∧ (∀ m, m ≠ n → t.slot m = s.slot m)
      ∧ (Config.wrap (s.slotValue 5) c.value = c.wrapped → t.slotValue n = c.value
          ∧ t.slot n = { c.copy with cell := (t.slot n).cell, salt := (t.slot n).salt, unusable := false, damagedAt := none, invCount := 0 }
          ∧ (c.copy.use ≠ 2 → (t.slot n).salt = c.copy.salt))
      ∧ (Config.wrap (s.slotValue 5) c.value ≠ c.wrapped → t.slot n = {}))
  ∧ (∀ (s : State), Completes .trngHealthFail s fun t =>
      Only [.ksu] s t ∧ t.ksu = { s.ksu with trngOk := false, live := bump s.ksu.live 13 })

/-- At t_R, with VF and VC0-VC7 at 900 mV, a cold start whose image verifies releases the MGP, reads the unit ID from the pins (not
at a return from WINTER, R499), enables the lanes and raises MBX_READY where the PCI island is out of reset; a bad image (R423),
or a failure of step 4 to 7, leaves the module in SPRING before MBX_READY (R472). Its end is the season that RETURN names. A
restarted firmware whose image verifies clears CLM_HOLD and raises MBX_READY; role, WIN and the switch stay (R479). CLM_EN is
set by the firmware only as R474 allows (R475), and service declared only with its conditions (R478). A persistent change is
written as a new copy (R470). A bank handover leaves the role; the bank is marked active 60 s later (R482). Stages, imports and
image replacements end with the effect of R481, R485 and R489. (15_start_up_and_live_change.md, 11_backstop_and_seasons.md,
13_key_store.md) -/
def Obligations.StartUpAndLiveChange : Prop :=
  (∀ (c : ColdIn) (s : State), coldReady s = true → s.power.rampAt + rampNs ≤ s.now → s.railsFull = true → c.imageOk = true →
      dzixVerified (s.persist.dzixImg.getD (b2n s.persist.activeBank) {}) s = true → c.fails = none →
    Completes (.coldStart c) s fun t =>
      t.persist.fwUp = true ∧ t.persist.coldStep = 10 ∧ t.mbx.ready = !s.power.perstLow ∧ t.bki.mgpReset = false ∧ t.bki.clmHold = false
      ∧ t.mlk.enabledAt = some s.now ∧ t.cgu.unitId = (if s.season.lastWake = 0 then s.power.slotId else s.cgu.unitId) ∧ t.cgu.role = s.cgu.role ∧ t.cgu.clmEn = s.cgu.clmEn
      ∧ t.season.season = .spring ∧ t.evr.running = true)
  ∧ (∀ (c : ColdIn) (s : State), coldReady s = true → s.power.rampAt + rampNs ≤ s.now → s.railsFull = true →
      (c.imageOk = false ∨ dzixVerified (s.persist.dzixImg.getD (b2n s.persist.activeBank) {}) s = false) →
    Completes (.coldStart c) s fun t =>
      Only [.bki, .ksu, .persist] s t ∧ t.persist = { s.persist with coldStep := 2 } ∧ t.bki.mgpReset = false ∧ t.bki.bootBank = s.persist.activeBank
      ∧ t.ksu = { s.ksu with live := bump s.ksu.live 9 })
  ∧ (∀ (c : ColdIn) (n : Nat) (s : State), coldReady s = true → s.power.rampAt + rampNs ≤ s.now → s.railsFull = true → c.imageOk = true →
      dzixVerified (s.persist.dzixImg.getD (b2n s.persist.activeBank) {}) s = true → c.fails = some n → 4 ≤ n → n ≤ 7 →
    Completes (.coldStart c) s fun t =>
      t.persist.coldStep = n - 1 ∧ t.persist.fwUp = s.persist.fwUp ∧ t.mbx.ready = s.mbx.ready ∧ t.season.season = .spring
      ∧ t.mlk.enabledAt = s.mlk.enabledAt ∧ t.bki.mgpReset = false)
  ∧ (∀ (c : ColdIn) (s : State), coldReady s = true → s.power.rampAt + rampNs ≤ s.now → s.railsFull = false →
    Completes (.coldStart c) s fun t => t = s)
  ∧ (∀ (c : ColdIn) (s : State), coldReady s = false → Completes (.coldStart c) s fun t => t = s)
  ∧ (∀ (s : State), s.persist.fwUp = true → s.persist.coldStep = 10 → s.season.season = .spring →
      (∀ k, k < 8 → (s.psc k).en = false ∨ (s.psc k).running = true) →
    Completes .startUpComplete s fun t =>
      t.season.season = (if s.season.ret then .autumn else .summer) ∧ t.persist.coldStep = 11 ∧ t.persist.started = true
      ∧ t.persist.startedAt = s.now ∧ t.cgu.role = s.cgu.role ∧ t.cgu.win = s.cgu.win)
  ∧ (∀ (s : State), s.island = true → s.bki.mgpReset = false → s.persist.fwUp = false → s.bki.hb = 2 → s.persist.coldStep = 11 →
      dzixVerified (s.persist.dzixImg.getD (b2n s.bki.bootBank) {}) s = true → (∀ p ∈ s.mbx.instPairs, p.2.taken = 0) →
      s.persist.replacing = [] →
    Completes .mgpFirmwareStart s fun t =>
      t.persist.fwUp = true ∧ t.persist.restarted = true ∧ t.mbx.ready = !s.power.perstLow ∧ t.bki.clmHold = false
      ∧ t.bki.hbValue = s.bki.hbValue + 1 ∧ t.bki.btDriven = s.bki.btDriven ∧ t.cgu = s.cgu ∧ t.sw = s.sw ∧ t.ports = s.ports
      ∧ t.insts.lsMem = s.insts.lsMem ∧ t.insts.dramMem = s.insts.dramMem)
  ∧ (∀ (s : State), s.island = true → s.bki.mgpReset = false → s.persist.fwUp = false → s.bki.hb = 2 → s.persist.coldStep = 11 →
      dzixVerified (s.persist.dzixImg.getD (b2n s.bki.bootBank) {}) s = false →
    Completes .mgpFirmwareStart s fun t => Only [.ksu] s t ∧ t.ksu = { s.ksu with live := bump s.ksu.live 9 })
  ∧ (∀ (s : State), s.persist.fwUp = true → s.persist.clmEnSaved = true → s.cgu.clmEn = false → s.cgu.idConflict = none → s.bki.clmHold = false →
      (s.mlk.partner ≠ .awaited ∨ s.mlk.awaitOver = true) → claimRefused s = none →
    Completes .claimEnableAuto s fun t =>
      Only [.cgu, .persist] s t ∧ t.cgu = { s.cgu with clmEn := true } ∧ t.persist = { s.persist with clmEnSaved := false })
  ∧ (∀ (r : Nat) (s : State), (claimRefused s = some r ∨ s.cgu.idConflict = some r) → Completes .claimEnableAuto s fun t => t = s)
  ∧ (∀ (s : State), s.persist.fwUp = true → s.persist.intent = true → s.mbx.inService = false → serviceRefused s = none →
    Completes .serviceAuto s fun t =>
      Only [.bki, .faults, .evr, .mbx, .persist] s t ∧ t.mbx.inService = true
      ∧ ∀ p ∈ allSets, (t.fset p.1 p.2).feValid = false ∧ (t.fset p.1 p.2).captureAct = false)
  ∧ (∀ (r : Nat) (s : State), serviceRefused s = some r → Completes .serviceAuto s fun t => t = s)
  ∧ (∀ (a : Nat) (s : State), s.persist.fwUp = true → s.persist.changedAt = some a → s.persist.copies.length = 4 →
    Completes .configPersist s fun t =>
      Only [.persist] s t ∧ t.persist.changedAt = none ∧ t.persist.backstop = s.bki.settings
      ∧ ∃ c, c ∈ t.persist.copies ∧ c.cfg = s.snapshot ∧ ∀ d ∈ s.persist.copies, d.seq < c.seq)
  ∧ (∀ (h : Nat) (s : State), s.persist.fwUp = true → s.persist.switchOp = some h → s.persist.handoverAt = none → s.bki.mgpReset = false →
      s.persist.bkiImg.getD (b2n s.persist.switchTo) {} = s.bki.image →
    Completes (.bankHandover true) s fun t =>
      Only [.fab, .sched, .ocu, .bki, .faults, .evr, .mbx, .persist, .mon, .free] s t ∧ t.bki.bootBank = s.persist.switchTo ∧ t.mbx.fwBank = s.persist.switchTo
      ∧ t.persist.markDue = some (s.now + sec 60) ∧ t.persist.handoverAt = some s.now ∧ t.bki.hbValue = s.bki.hbValue + 1
      ∧ t.persist.activeBank = s.persist.activeBank)
  ∧ (∀ (d : Nat) (s : State), s.persist.markDue = some d → d ≤ s.now →
    Completes .bankMarkActive s fun t =>
      Only [.persist] s t ∧ t.persist = { s.persist with activeBank := s.mbx.fwBank, markDue := none })
  ∧ (∀ (h : Nat) (s : State), s.persist.staging = some h → s.persist.fwUp = true → s.persist.stagingOk = false →
    Completes .imageStageComplete s fun t =>
      Only [.bki, .evr, .ksu, .mbx, .persist, .mon] s t ∧ t.persist = { s.persist with staging := none }
      ∧ t.ksu = { s.ksu with live := bump s.ksu.live 9 })
  ∧ (∀ (h : Nat) (s : State), s.persist.staging = some h → s.persist.fwUp = true → s.persist.stagingOk = true → s.persist.stagingTo = 2 →
    Completes .imageStageComplete s fun t =>
      Only [.bki, .evr, .ksu, .mbx, .persist, .mon] s t ∧ t.persist = { s.persist with staging := none, bkiImg := s.persist.bkiImg.set (1 - b2n s.mbx.fwBank) s.persist.stagingImage }
      ∧ t.ksu = { s.ksu with live := bump s.ksu.live 8 })
  ∧ (∀ (h : Nat) (s : State), s.persist.importOp = some h → s.persist.fwUp = true →
    Completes .importComplete s fun t =>
      t.sw.batch = s.sw.batch ++ s.persist.importBatches ∧ t.sw.streams = s.sw.streams ∧ t.persist.importOp = none
      ∧ t.persist.importBatches = [] ∧ t.bki.elemBank = s.bki.elemBank ∧ t.insts = s.insts ∧ t.cgu = s.cgu)
  ∧ (∀ (i : Nat) (r : Replace) (s : State), (s.persist.replacing.find? fun r => r.inst == i) = some r → s.persist.fwUp = true →
      r.halted = true → r.held = [] →
    Completes (.imageCopyComplete i) s fun t =>
      (t.inst i).image = r.image ∧ (t.inst i).gen = (s.inst i).gen ∧ (t.inst i).lsMap = (s.inst i).lsMap
      ∧ (t.inst i).state = (if r.wasOn = true ∧ (s.inst i).state = .halted then .ready else (s.inst i).state)
      ∧ t.insts.dramMem = s.insts.dramMem ∧ (∀ j, j ≠ i → t.inst j = s.inst j) ∧ (∀ x ∈ t.persist.replacing, x.inst ≠ i)
      ∧ ∀ p, (∀ b, b < r.image.length → p ≠ (s.inst i).lsPhys b) → t.insts.lsMem.read1 p = s.insts.lsMem.read1 p)

/-- For every effect a request may have (R447): with the CRC good, a request of a host pair whose TAG is that of a request answered
on the pair in the last second is answered with the cached response and DUP if the CRCs are equal, else with TAG_REUSED; neither
has any effect but the answer. A request without a live TAG that is acted on leaves its TAG, CRC and response in the cache,
unless its status is TIMEOUT or RESTARTED; one whose CRC fails is not cached and has no effect. Responses older than 1 s count
no more, and the pair's other entries stay. The request is the one that the command gives, or the message written in the slot at
REQ_HEAD. (R447) -/
def Obligations.RetriesAreAnsweredFromTheCache : Prop :=
  ∀ (r : Req) (op k : Nat) (sub : Subset) (need : Bool) (f : Req → State → State × Ans) (s : State),
    r.src = .host k → takeable r s = true →
    let u := take r s
    let cache := liveCache (s.mbx.pairs.get k {}).cache u
    let base : Resp := { opcode := r.other.getD op, tag := r.tag, inst := r.inst, gen := r.gen, ind := r.buf.isSome }
    (s.written r.src = none → serve r op sub need f s = serveAs r op sub need f s)
    ∧ (∀ m, s.written r.src = some m → m.opcode = op → serve r op sub need f s = serveAs (m.req r s) op sub need f s)
    ∧ (∀ c, c ∈ cache ↔ c ∈ (s.mbx.pairs.get k {}).cache ∧ s.now < c.atNs + 1000000000)
    ∧ (r.crcOk = false →
        serveAs r op sub need f s = respond r { base with status := .badCrc } false u
        ∧ ((serveAs r op sub need f s).mbx.pairs.get k {}).cache = cache)
    ∧ (∀ c, r.crcOk = true → cache.find? (fun x => x.tag == r.tag) = some c → c.crc = r.crc →
        serveAs r op sub need f s = respond r { c.resp with dup := true } false u
        ∧ ((serveAs r op sub need f s).mbx.pairs.get k {}).cache = cache)
    ∧ (∀ c, r.crcOk = true → cache.find? (fun x => x.tag == r.tag) = some c → c.crc ≠ r.crc →
        serveAs r op sub need f s = respond r { base with status := .tagReused } false u
        ∧ ((serveAs r op sub need f s).mbx.pairs.get k {}).cache = cache)
    ∧ (r.crcOk = true → cache.find? (fun x => x.tag == r.tag) = none → precheck op r sub need u = none → r.slow = false →
        (f r u).1.persist.fwUp = true → (f r u).2.status ≠ .restarted → (f r u).2.status ≠ .timeout →
        serveAs r op sub need f s = respond r { base with status := (f r u).2.status, result := (f r u).2.result } true (f r u).1
        ∧ ((serveAs r op sub need f s).mbx.pairs.get k {}).cache
            = liveCache ((f r u).1.mbx.pairs.get k {}).cache (f r u).1
              ++ [{ tag := r.tag, crc := r.crc, atNs := (f r u).1.now,
                    resp := { base with status := (f r u).2.status, result := (f r u).2.result } }])
    ∧ (r.crcOk = true → cache.find? (fun x => x.tag == r.tag) = none → precheck op r sub need u = none → r.slow = true →
        (f r u).1.persist.fwUp = true → (f r u).2.status.isAccepted = false →
        ∃ v : State, (v = u.took ∨ v = (f r u).1.took) ∧ serveAs r op sub need f s = respond r { base with status := .timeout } false v)
    ∧ (r.crcOk = true → cache.find? (fun x => x.tag == r.tag) = none → precheck op r sub need u = none → r.slow = false →
        (f r u).1.persist.fwUp = true → ((f r u).2.status = .restarted ∨ (f r u).2.status = .timeout) →
        serveAs r op sub need f s = respond r { base with status := (f r u).2.status, result := (f r u).2.result } false (f r u).1)

/-- For every effect a request may have (R436): with a good CRC and no live TAG, a host request with RESPONSE or EVENT set is
answered BAD_PARAM, then one whose written OPCODE is in no catalogue BAD_OPCODE (R458), then one of a wrong length BAD_LENGTH,
then one that must name an instance and names none BAD_PARAM, one that names an instance in FREE or QUARANTINE NO_INSTANCE, and
one of another generation STALE_GEN (R437), but for the life-cycle requests of an instance in RESETTING (R196); an instance's
request outside its subset is answered NOT_PERMITTED before that (R456). A buffer out of its ranges is answered BAD_PARAM and an
unreadable one DMA_ERROR, before any effect (R438). In each case the state differs from that of the taken request only in the
pair, and for an instance in its response ring (R454). A message written in the slot is the request, and waits for the command
of its own opcode. A request that the MGP cannot take waits unchanged (R443), and one of a dead generation is discarded and
counted (R177). (14_mailbox_interface.md) -/
def Obligations.RequestsAreCheckedInOrder : Prop :=
  (∀ (r : Req) (op k : Nat) (sub : Subset) (need : Bool) (f : Req → State → State × Ans) (s : State), r.src = .host k →
      takeable r s = true → r.crcOk = true →
      (liveCache (s.mbx.pairs.get k {}).cache (take r s)).find? (fun x => x.tag == r.tag) = none →
      let u := take r s
      let base : Resp := { opcode := r.other.getD op, tag := r.tag, inst := r.inst, gen := r.gen, ind := r.buf.isSome }
      (r.flagsBad = true → serveAs r op sub need f s = respond r { base with status := .badParam 0 } true u)
      ∧ (r.flagsBad = false → r.other.isSome = true → serveAs r op sub need f s = respond r { base with status := .badOpcode } true u)
      ∧ (r.flagsBad = false → r.other = none → r.lenOk = false → serveAs r op sub need f s = respond r { base with status := .badLength } true u)
      ∧ (∀ i, r.flagsBad = false → r.other = none → r.lenOk = true → r.inst = some i → i < 512 →
          ((s.inst i).state = .free ∨ (s.inst i).state = .quarantine) →
          serveAs r op sub need f s = respond r { base with status := .noInstance (s.holdLeft i) } true u)
      ∧ (∀ i, r.flagsBad = false → r.other = none → r.lenOk = true → r.inst = some i → i < 512 → (s.inst i).state ≠ .free →
          (s.inst i).state ≠ .quarantine → (s.inst i).gen ≠ r.gen →
          ¬((s.inst i).state = .resetting ∧ op ∈ lifeOps) →
          serveAs r op sub need f s = respond r { base with status := .staleGen } true u)
      ∧ (r.flagsBad = false → r.other = none → r.lenOk = true → r.inst = none → need = true →
          serveAs r op sub need f s = respond r { base with status := .badParam 0 } true u)
      ∧ (∀ n, r.flagsBad = false → r.other = none → r.lenOk = true → r.inst = none → need = false → r.bufBad = some n →
          serveAs r op sub need f s = respond r { base with status := .badParam n } true u)
      ∧ (r.flagsBad = false → r.other = none → r.lenOk = true → r.inst = none → need = false → r.bufBad = none → r.bufOk = false →
          serveAs r op sub need f s = respond r { base with status := .dmaError } true u))
  ∧ (∀ (r : Req) (op i g : Nat) (need : Bool) (f : Req → State → State × Ans) (s : State), r.src = .inst i g → takeable r s = true →
      s.genCurrent i g = true → r.crcOk = true → r.flagsBad = false → r.other = none → r.lenOk = true →
      (liveCache (s.mbx.instPairs.get i {}).cache (take r s)).find? (fun x => x.tag == r.tag) = none →
      serveAs r op .no need f s
        = respond r { opcode := op, tag := r.tag, inst := some i, gen := g, ind := r.buf.isSome, status := .notPermitted } true (take r s))
  ∧ (∀ (r : Req) (op i g : Nat) (sub : Subset) (need : Bool) (f : Req → State → State × Ans) (s : State), r.src = .inst i g →
      takeable r s = true → s.genCurrent i g = false →
      Only [.insts, .acq] s (serveAs r op sub need f s)
      ∧ (op ≠ 0x0603 → (serveAs r op sub need f s).acq = s.acq)
      ∧ ((serveAs r op sub need f s).inst i).lateDiscards = satAdd 32 (s.inst i).lateDiscards 1)
  ∧ (∀ (r : Req) (op : Nat) (sub : Subset) (need : Bool) (f : Req → State → State × Ans) (s : State), takeable r s = false →
      serve r op sub need f s = s)
  ∧ (∀ (r : Req) (op : Nat) (sub : Subset) (need : Bool) (f : Req → State → State × Ans) (s : State), takeable r s = true →
      (s.written r.src = none → serve r op sub need f s = serveAs r op sub need f s)
      ∧ (∀ m, s.written r.src = some m →
          (m.opcode = op → serve r op sub need f s = serveAs (m.req r s) op sub need f s)
          ∧ (m.opcode ≠ op → m.opcode ∈ catalogue → serve r op sub need f s = s)
          ∧ (m.opcode ≠ op → m.opcode ∉ catalogue →
              serve r op sub need f s = serveAs { m.req r s with other := some m.opcode } op .yes false f s)))
  ∧ (∀ (r : Req) (v : Resp) (keep : Bool) (s : State), Only [.mbx] s (take r s)
      ∧ ((∀ i g, r.src ≠ .inst i g) → Only [.mbx] s (respond r v keep s)) ∧ Only [.insts, .mbx] s (respond r v keep s))

/-- A request that passes the checks of R436 (R459, R468, R469). Reads answer the registers' values and leave the state of the taken
request; ARB_READ clears the RC fields of its arbiter; ARB_PRIO answers the old priority and sets the new; ARB_MODE sets all
nine capable arbiters. SERVICE declares or withdraws service, with every block in FULL or in LATCH, or is refused with the
reason of R477. SET_SEASON starts its change or is refused; that to WINTER takes the unit OUT and ends its operation before the
islands go off (R357). WAKE_CONFIG and LOOP_CONFIG write their registers. IMAGE_STAGE, BANK_ACTIVATE and IMPORT_7210 are
accepted with a handle and nothing but their own work begins. BKI_WRITE writes the shadow bank and never the active one, and is
BUSY while the island copies over it (R348); BKI_COMMIT makes it pending; with the cores of the island held both are refused
with reason 90. (14_mailbox_interface.md, 15_start_up_and_live_change.md, 11_backstop_and_seasons.md) -/
def Obligations.ModulePowerAndUpdateRequests : Prop :=
  (∀ (r : Req) (s : State), Req.clear r .yes false s →
    Served (.getIdentity r) r 0x0100 s .ok
      ([s.mbx.serial, 0x9640, s.mbx.variant, 0xB1, s.cgu.unitId, s.mbx.macBase.toNat, 0x0302] ++ s.persist.releases
        ++ [0x0103, 0x0104, if s.head.present then 3 else 0]) fun u => u = take r s)
  ∧ (∀ (r : Req) (s : State), Req.clear r .yes false s →
    Served (.getStatus r) r 0x0101 s .ok [modStat s, bkiStatus s, s.season.season.code, captureMap s, b2n s.persist.activeBank]
      fun u => u = take r s)
  ∧ (∀ (r : Req) (h : Nat) (o : LongOp) (s : State), Req.clear r .no false s → (s.mbx.ops.find? fun o => o.handle == h) = some o →
      o.done = none →
    Served (.opStatus r h) r 0x0102 s .ok [0, 0, o.opcode, o.pair, o.tag] fun u => u = take r s)
  ∧ (∀ (r : Req) (h : Nat) (o : LongOp) (st : Status) (s : State), Req.clear r .no false s →
      (s.mbx.ops.find? fun o => o.handle == h) = some o → o.done = some st → s.now < o.endAt + sec 60 →
    Served (.opStatus r h) r 0x0102 s .ok [1, st.code, o.opcode, o.pair, o.tag] fun u => u = take r s)
  ∧ (∀ (r : Req) (xs : List Nat) (s : State), Req.clear r .yes false s → xs.length ≤ 48 →
    Served (.echo r xs) r 0x0103 s .ok xs fun u => u = take r s)
  ∧ (∀ (r : Req) (xs : List Nat) (s : State), Req.clear r .yes false s → 48 < xs.length →
    Served (.echo r xs) r 0x0103 s .badLength [] fun u => u = take r s)
  ∧ (∀ (r : Req) (k : Nat) (s : State), Req.clear r .no false s → k < 37 →
    Served (.arbRead r k) r 0x0104 s .ok
      ([arbCtl k s, arbStat k s, arbWaitMax k s, (s.arb k).backoffs] ++ (List.range 4).map fun j => arbPrio k j s) fun u =>
      Only [.fab] (take r s) u ∧ u.arb k = { s.arb k with waitMax := 0, waitWho := 0, backoffs := 0 } ∧ ∀ j, j ≠ k → u.arb j = s.arb j)
  ∧ (∀ (r : Req) (k i p : Nat) (s : State), Req.clear r .no false s → k < 37 → i < arbReq k → p ≤ 15 →
    Served (.arbPrio r k i p) r 0x0105 s .ok [(s.arb k).prio.getD i 0] fun u =>
      Only [.fab, .persist] (take r s) u ∧ u.arb k = { s.arb k with prio := (s.arb k).prio.set i p } ∧ ∀ j, j ≠ k → u.arb j = s.arb j)
  ∧ (∀ (r : Req) (m : Nat) (s : State), Req.clear r .no false s → m ≤ 1 →
    Served (.arbMode r m) r 0x0106 s .ok [m] fun u =>
      Only [.fab, .persist] (take r s) u
      ∧ ∀ k, k < 37 → u.arb k = (if arbCompat k then (s.arb k).writeMode k (m == 1) else s.arb k))
  ∧ (∀ (r : Req) (s : State), Req.clear r .no false s → serviceRefused s = none →
    Served (.service r 1) r 0x0107 s (.accepted s.handle) [] fun u =>
      Only [.faults, .bki, .evr, .mbx, .persist, .mon] (take r s) u ∧ u.mbx.inService = true ∧ u.persist.intent = true
      ∧ ∀ p ∈ allSets, (u.fset p.1 p.2).captureAct = false)
  ∧ (∀ (r : Req) (n : Nat) (s : State), Req.clear r .no false s → serviceRefused s = some n →
    Served (.service r 1) r 0x0107 s (.state n) [] fun u => u = take r s)
  ∧ (∀ (r : Req) (s : State), Req.clear r .no false s → s.cgu.role.protecting = false → s.longBusy liveChangeOps = false →
    Served (.service r 0) r 0x0107 s (.accepted s.handle) [] fun u =>
      Only [.faults, .bki, .evr, .mbx, .persist, .mon] (take r s) u ∧ u.mbx.inService = false ∧ u.persist.intent = false
      ∧ ∀ p ∈ allSets, (u.fset p.1 p.2).captureAct = true)
  ∧ (∀ (r : Req) (f ret : Bool) (k : Nat) (s : State), Req.clear r .no false s → s.season.season = .summer → s.season.changing = none →
      k < 8 → (s.psc k).running = true →
    Served (.setSeason r 1 f ret) r 0x0B00 s (.accepted s.handle) [] fun u =>
      Only [.season, .mbx, .persist] (take r s) u ∧ u.season.season = .summer ∧ u.season.changing = some .autumn
      ∧ u.season.changeOp = some s.handle ∧ u.season.ret = ret)
  ∧ (∀ (r : Req) (f ret : Bool) (s : State), Req.clear r .no false s → winterRefused f s = none →
      (s.season.season = .summer ∨ s.season.season = .autumn) →
    Served (.setSeason r 3 f ret) r 0x0B00 s (.accepted s.handle) [] fun u =>
      u.season.season = s.season.season ∧ u.season.changing = some .winter ∧ u.season.ret = ret ∧ u.cgu.role = .out ∧ u.cgu.win = false
      ∧ ∃ o, o ∈ u.mbx.ops ∧ o.handle = s.handle ∧ o.done = some .ok)
  ∧ (∀ (r : Req) (f ret : Bool) (n : Nat) (s : State), Req.clear r .no false s → winterRefused f s = some n →
    Served (.setSeason r 3 f ret) r 0x0B00 s (.state n) [] fun u => u = take r s)
  ∧ (∀ (r : Req) (en : BitVec 3) (n : Nat) (p : List Byte) (s : State), Req.clear r .no false s → n < 2 ^ 23 → wakePatternBad p = false →
    Served (.wakeConfig r en n p) r 0x0B01 s .ok [] fun u =>
      Only [.wake, .season, .persist] (take r s) u ∧ u.wake = { s.wake with pattern := some p }
      ∧ u.season = { s.season with wakeEn := en, wakeTimerS := n })
  ∧ (∀ (r : Req) (m : BitVec 8) (l v : BitVec 32) (n : Nat) (s : State), Req.clear r .no false s → pmcLoopBad l = false → pmcVoltBad v = false →
      720 ≤ n → n ≤ 900 →
    ∃ vals, Served (.loopConfig r m l v n) r 0x0B02 s .ok vals fun u =>
      Only [.sched, .persist] (take r s) u ∧ u.sched.vVf = n ∧ (∀ k, u.psc k = s.psc k)
      ∧ ∀ c, c < 8 → m.getLsbD c = true → (u.loop c).setpoint = bits l 29 20 ∧ (u.loop c).vFloor = bits v 9 0
          ∧ 4 * bits v 9 0 ≤ (u.loop c).vTarget)
  ∧ (∀ (r : Req) (s : State), Req.clear r .no false s →
    ∃ vals, Served (.powerStatus r) r 0x0B03 s .ok vals fun u => Only [.free] (take r s) u)
  ∧ (∀ (r : Req) (d : Nat) (x : Image) (s : State), Req.clear r .no false s → d ≤ 3 → (d ≤ 1 → (d == 1) ≠ s.mbx.fwBank) →
      s.longBusy liveChangeOps = false →
    Served (.imageStage r d x) r 0x0A00 s (.accepted s.handle) [] fun u =>
      Only [.mbx, .persist] (take r s) u ∧ u.persist.staging = some s.handle ∧ u.persist.stagingTo = d
      ∧ u.persist.activeBank = s.persist.activeBank ∧ u.mbx.fwBank = s.mbx.fwBank)
  ∧ (∀ (r : Req) (b : Nat) (s : State), Req.clear r .no false s → b ≤ 1 → activateRefused b s = none →
    Served (.bankActivate r b) r 0x0A01 s (.accepted s.handle) [] fun u =>
      Only [.mbx, .persist] (take r s) u ∧ u.mbx.bankSwitch = true ∧ u.persist.switchOp = some s.handle ∧ u.persist.switchTo = (b == 1)
      ∧ u.persist.handoverAt = none)
  ∧ (∀ (r : Req) (b n : Nat) (s : State), Req.clear r .no false s → b ≤ 1 → activateRefused b s = some n →
    Served (.bankActivate r b) r 0x0A01 s (.state n) [] fun u => u = take r s)
  ∧ (∀ (r : Req) (v : BitVec 32) (l : List (Nat × ElemSlot)) (s : State), Req.clear r .no false s → bkiCtlBad v = false → l.length ≤ 16 →
      (∀ p ∈ l, p.1 < 16 ∧ p.2.ok = true) → islandOut s = false → s.persist.importOp = none → s.bki.copyEnds ≤ s.now →
    Served (.bkiWrite r v l) r 0x0A02 s .ok [] fun u =>
      Only [.time, .bki, .mbx, .persist] (take r s) u ∧ u.bki.elemBank = s.bki.elemBank ∧ u.bki.elems = s.bki.elems
      ∧ u.bki.btEn = BitVec.ofNat 4 (bits v 23 20)
      ∧ (∀ j, j < 4 → u.bki.btDriven.getLsbD j = (u.bki.btEn.getLsbD j && (s.bki.btDriven.getLsbD j || s.bki.tripsOut j)))
      ∧ u.bki.hbEn = (s.bki.hbEn || bitOf v 0) ∧ u.bki.commitPend = s.bki.commitPend)
  ∧ (∀ (r : Req) (v : BitVec 32) (s : State), Req.clear r .no false s → bkiCtlBad v = false → islandOut s = false → s.now < s.bki.copyEnds →
    Served (.bkiWrite r v []) r 0x0A02 s .busy [] fun u => u = take r s)
  ∧ (∀ (r : Req) (v : BitVec 32) (s : State), Req.clear r .no false s → bkiCtlBad v = false → islandOut s = true →
    Served (.bkiWrite r v []) r 0x0A02 s (.state 90) [] fun u => u = take r s)
  ∧ (∀ (r : Req) (s : State), Req.clear r .no false s → islandOut s = false → s.persist.importOp = none →
    Served (.bkiCommit r) r 0x0A03 s .ok [b2n (!s.bki.bank)] fun u =>
      Only [.bki, .persist] (take r s) u ∧ u.bki = { s.bki with commitPend := true })
  ∧ (∀ (r : Req) (s : State), Req.clear r .no false s → islandOut s = true →
    Served (.bkiCommit r) r 0x0A03 s (.state 90) [] fun u => u = take r s)
  ∧ (∀ (r : Req) (s : State), Req.clear r .no false s →
    ∃ vals, Served (.bkiRead r) r 0x0A04 s .ok vals fun u => u = take r s)
  ∧ (∀ (r : Req) (v : BitVec 32) (s : State), Req.clear r .no false s → calCtlBad v = false →
    ∃ vals, Served (.calConfig r v) r 0x0A05 s .ok vals fun u =>
      Only [.bki, .persist] (take r s) u
      ∧ u.bki = { s.bki with
                  calStepS := bits v 7 2
                  calEn := bitOf v 0
                  calLast := !bitOf v 0 && (s.bki.calEn || s.bki.calLast)
                  calAt := if s.bki.calEn || s.bki.calLast then s.bki.calAt else s.now })
  ∧ (∀ (r : Req) (x : Import7210) (s : State), Req.clear r .no false s → x.crcOk = true → x.versionOk = true →
      s.longBusy liveChangeOps = false →
    Served (.import7210 r x) r 0x0A06 s (.accepted s.handle) [] fun u =>
      Only [.mbx, .persist] (take r s) u ∧ u.persist.importOp = some s.handle)
  ∧ (∀ (r : Req) (x : Import7210) (s : State), Req.clear r .no false s → x.crcOk = true → x.versionOk = false →
    Served (.import7210 r x) r 0x0A06 s (.state 40) [] fun u => u = take r s)

/-- A request that passes the checks of R436 (R460). CREATE with sound parameters holds its number and granules and is accepted; a
taken address is refused. RESET and REMOVE of a settled instance make it RESETTING under the next generation at once; during a
reset RESET is BUSY and a removal is held (R193, R196). STOP halts with cause 1 and START undoes that and no other halt (R176).
SET_SHARES, SET_ALLOWANCE, SET_AUTO_RESET and SET_HOLDOFF write their fields, the hold-off not below its floor. PT_WRITE writes
the shadow bank and never the active one; PT_COMMIT that passes R216 waits for the frame start, and one that fails names check
and entry. LOCK_ASSIGN and LOCK_UNASSIGN leave a held lock. Rings are registered where R236 and R88 allow. Reads answer the
registers. (06_protection_instances.md, 07_partition_scheduling.md, 14_mailbox_interface.md) -/
def Obligations.InstanceRequests : Prop :=
  (∀ (r : Req) (n : Nat) (mac : BitVec 48) (auto : Bool) (sh : Shares) (al : List Allow) (x : Image) (s : State),
      Req.clear (createReq r) .no false s → n < 512 → macTaken mac.toNat s = false → sh.inRange = true → al.length = 8 →
      (∀ a ∈ al, a.bad = false) → x.octets.length ≤ sh.ls * lsGran → x.crcOk = true → imageVerified x s = true →
      numberRefused n s = none → poolShort sh.list s = none →
    Served (.create r n mac auto sh al x) (createReq r) 0x0200 s (.accepted s.handle) [] fun u =>
      Only [.insts, .ksu, .mbx] (take (createReq r) s) u ∧ u.insts.desc = s.insts.desc ∧ u.insts.lsMem = s.insts.lsMem
      ∧ ∃ c, u.insts.creating = s.insts.creating ++ [c] ∧ c.num = n ∧ c.mac = mac ∧ c.share = sh ∧ c.handle = some s.handle)
  ∧ (∀ (r : Req) (n : Nat) (mac : BitVec 48) (auto : Bool) (sh : Shares) (al : List Allow) (x : Image) (s : State),
      Req.clear (createReq r) .no false s → n < 512 → macTaken mac.toNat s = true →
    Served (.create r n mac auto sh al x) (createReq r) 0x0200 s (.badParam 1) [] fun u => u = take (createReq r) s)
  ∧ (∀ (r : Req) (i : Nat) (cl : Bool) (s : State), Req.clear r .no true s → r.inst = some i → s.instBusy i = false →
    Served (.reset r cl) r 0x0201 s (.accepted s.handle) [] fun u =>
      (u.inst i).state = .resetting ∧ (u.inst i).gen = nextGen (s.inst i).gen ∧ (u.inst i).removing = false ∧ (u.inst i).clearDram = cl
      ∧ (u.inst i).opHandle = some s.handle ∧ (∀ j, j ≠ i → u.inst j = s.inst j) ∧ u.insts.lsMem = s.insts.lsMem
      ∧ ∀ m, u.lock m = if (s.lock m).heldBy i (s.inst i).gen then { s.lock m with held := false, broken := true } else s.lock m)
  ∧ (∀ (r : Req) (i : Nat) (cl : Bool) (s : State), Req.clear r .no true s → r.inst = some i → (s.inst i).state = .resetting →
    Served (.reset r cl) r 0x0201 s .busy [] fun u => u = take r s)
  ∧ (∀ (r : Req) (i : Nat) (s : State), Req.clear r .no true s → r.inst = some i → s.instBusy i = false →
    Served (.remove r) r 0x0202 s (.accepted s.handle) [] fun u =>
      (u.inst i).state = .resetting ∧ (u.inst i).gen = nextGen (s.inst i).gen ∧ (u.inst i).removing = true
      ∧ (∀ j, j ≠ i → u.inst j = s.inst j) ∧ u.insts.lsMem = s.insts.lsMem)
  ∧ (∀ (r : Req) (i : Nat) (s : State), Req.clear r .no true s → r.inst = some i → (s.inst i).state = .resetting →
      (s.inst i).removing = false → (s.inst i).removeHeld = none →
    Served (.remove r) r 0x0202 s (.accepted s.handle) [] fun u =>
      Only [.insts, .mbx] (take r s) u ∧ u.inst i = { s.inst i with removeHeld := some (some s.handle) } ∧ ∀ j, j ≠ i → u.inst j = s.inst j)
  ∧ (∀ (r : Req) (i : Nat) (s : State), Req.clear r .no true s → r.inst = some i → s.instBusy i = false →
      ((s.inst i).state = .ready ∨ (s.inst i).state = .running) →
    Served (.stop r) r 0x0203 s .ok [3] fun u =>
      (u.inst i).state = .halted ∧ (u.inst i).cause = 1 ∧ (u.inst i).gen = (s.inst i).gen ∧ (∀ j, j ≠ i → u.inst j = s.inst j)
      ∧ u.insts.lsMem = s.insts.lsMem ∧ u.insts.dramMem = s.insts.dramMem)
  ∧ (∀ (r : Req) (i : Nat) (s : State), Req.clear r .no true s → r.inst = some i → s.instBusy i = false → (s.inst i).state = .halted →
      (s.inst i).cause = 1 →
    Served (.start r) r 0x0204 s .ok [1] fun u =>
      Only [.insts, .sched, .bki, .evr, .mbx] (take r s) u ∧ u.inst i = { s.inst i with state := .ready, cause := 0 }
      ∧ ∀ j, j ≠ i → u.inst j = s.inst j)
  ∧ (∀ (r : Req) (i : Nat) (s : State), Req.clear r .no true s → r.inst = some i → s.instBusy i = false →
      ((s.inst i).state ≠ .halted ∨ (s.inst i).cause ≠ 1) →
    Served (.start r) r 0x0204 s (.state 33) [] fun u => u = take r s)
  ∧ (∀ (r : Req) (i : Nat) (m : BitVec 10) (sh : Shares) (s : State), Req.clear r .no true s → r.inst = some i → s.instBusy i = false →
      ((s.inst i).share.masked sh m).inRange = true → shareShort i ((s.inst i).share.masked sh m) s = none →
    ∃ vals, Served (.setShares r m sh) r 0x0205 s .ok vals fun u =>
      Only [.insts, .bki, .evr, .mbx, .persist] (take r s) u ∧ (u.inst i).share = (s.inst i).share.masked sh m
      ∧ (∃ ls, (u.inst i).lsMap = (s.inst i).lsMap ++ ls) ∧ (∃ dr, (u.inst i).dramMap = (s.inst i).dramMap ++ dr)
      ∧ vals = [(u.inst i).overBits.toNat] ∧ ∀ j, j ≠ i → u.inst j = s.inst j)
  ∧ (∀ (r : Req) (i : Nat) (s : State), Req.clear r .own true s → r.inst = some i →
    Served (.readDesc r) r 0x0206 s .ok [descriptor i s] fun u => u = take r s)
  ∧ (∀ (r : Req) (i k : Nat) (a : Allow) (s : State), Req.clear r .no true s → r.inst = some i → s.instBusy i = false → k < 8 → a.bad = false →
    Served (.setAllowance r k a) r 0x0207 s .ok [] fun u =>
      Only [.insts, .persist] (take r s) u ∧ u.inst i = { s.inst i with allow := (s.inst i).allow.set k a } ∧ ∀ j, j ≠ i → u.inst j = s.inst j)
  ∧ (∀ (r : Req) (i n : Nat) (s : State), Req.clear r .no true s → r.inst = some i → s.instBusy i = false → n ≤ 1 →
    Served (.setAutoReset r n) r 0x0208 s .ok [] fun u =>
      Only [.insts, .persist] (take r s) u ∧ u.inst i = { s.inst i with autoReset := n == 1 } ∧ ∀ j, j ≠ i → u.inst j = s.inst j)
  ∧ (∀ (r : Req) (n : Nat) (s : State), Req.clear r .no false s → 100 ≤ n → n ≤ 3600000 →
    Served (.setHoldoff r n) r 0x0209 s .ok [max n ((holdFloor s + 999999) / 1000000)] fun u =>
      Only [.insts, .persist] (take r s) u ∧ u.insts = { s.insts with holdoffMs := max n ((holdFloor s + 999999) / 1000000) })
  ∧ (∀ (r : Req) (i : Nat) (x : Image) (s : State), Req.clear r .no true s → r.inst = some i → s.instBusy i = false →
      s.longBusy liveChangeOps = false → (s.inst i).exists_ = true → (s.inst i).inLs 0 x.octets.length = true →
      meetsRegistered i 0 x.octets.length true s = false → x.crcOk = true → imageVerified x s = true → frameComes i s = true →
    Served (.replaceImage r x) r 0x020A s (.accepted s.handle) [] fun u =>
      Only [.mbx, .ksu, .persist] (take r s) u
      ∧ ∃ y, u.persist.replacing = s.persist.replacing ++ [y] ∧ y.inst = i ∧ y.handle = s.handle ∧ y.image = x.octets ∧ y.halted = false)
  ∧ (∀ (r : Req) (k e : Nat) (x : SlotEntry) (s : State), Req.clear r .no false s → k < 8 → e < 128 → (s.psc k).tableBusy = false →
    Served (.ptWrite r k e x) r 0x0210 s .ok [] fun u =>
      Only [.sched, .persist] (take r s) u ∧ (u.psc k).shadow = (s.psc k).shadow.set e x ∧ (u.psc k).active = (s.psc k).active
      ∧ ∀ j, j ≠ k → u.psc j = s.psc j)
  ∧ (∀ (r : Req) (m : BitVec 8) (pe ph : List Nat) (s : State), Req.clear r .no false s → m ≠ 0 →
      (∀ k, k < 8 → m.getLsbD k = true → periodFor pe s k ≤ 3 ∧ quarters (phaseFor ph s k) < periodNs (periodFor pe s k)
        ∧ (s.psc k).tableBusy = false ∧ (periodFor pe s k = (s.psc k).periodAct ∨ (s.psc k).aligned = true)) →
      tableCheck m ((List.range 8).map (periodFor pe s)) s = none →
    Served (.ptCommit r m pe ph) r 0x0211 s (.accepted s.handle) [] fun u =>
      Only [.sched, .mbx, .persist] (take r s) u ∧ (∀ k, (u.psc k).active = (s.psc k).active)
      ∧ ∀ k, k < 8 → m.getLsbD k = true → (u.psc k).commitPend = true ∧ (u.psc k).period = periodFor pe s k
          ∧ (u.psc k).phase = phaseFor ph s k ∧ (u.psc k).periodAct = (s.psc k).periodAct)
  ∧ (∀ (r : Req) (m : BitVec 8) (pe ph : List Nat) (c e : Nat) (s : State), Req.clear r .no false s → m ≠ 0 →
      (∀ k, k < 8 → m.getLsbD k = true → periodFor pe s k ≤ 3 ∧ quarters (phaseFor ph s k) < periodNs (periodFor pe s k)
        ∧ (s.psc k).tableBusy = false ∧ (periodFor pe s k = (s.psc k).periodAct ∨ (s.psc k).aligned = true)) →
      tableCheck m ((List.range 8).map (periodFor pe s)) s = some (c, e) →
    Served (.ptCommit r m pe ph) r 0x0211 s (.tableCheck c e) [] fun u => u = take r s)
  ∧ (∀ (r : Req) (k b : Nat) (s : State), Req.clear r .no false s → k < 8 → b ≤ 1 →
    ∃ vals, Served (.ptRead r k b) r 0x0212 s .ok vals fun u => u = take r s ∧ vals.length = 130)
  ∧ (∀ (r : Req) (k : Nat) (s : State), Req.clear r .no false s → k < 8 →
    Served (.slotStatus r k) r 0x0213 s .ok ((List.range 128).map fun e => ((s.psc k).status.get e {}).pack) fun u =>
      Only [.sched] (take r s) u ∧ (u.psc k).status = ((s.psc k).status.map fun e => (e.1, e.2.readOut)) ∧ ∀ j, j ≠ k → u.psc j = s.psc j)
  ∧ (∀ (r : Req) (n o j : Nat) (mo : Bool) (s : State), Req.clear r .no false s → n < 256 → o < 512 → j < 16 → indexTaken n o j s = false →
      (s.lock n).held = false → admits (s.useLocks o) 1 (s.inst o).share.locks = true →
    Served (.lockAssign r n o j mo) r 0x0214 s .ok [] fun u =>
      Only [.insts, .bki, .evr, .mbx, .persist] (take r s) u ∧ (∀ m, m ≠ n → u.lock m = s.lock m)
      ∧ (u.lock n).en = true ∧ (u.lock n).owner = o ∧ (u.lock n).index = j ∧ (u.lock n).mgpOk = mo ∧ (u.lock n).held = false)
  ∧ (∀ (r : Req) (n o j : Nat) (mo : Bool) (s : State), Req.clear r .no false s → n < 256 → o < 512 → j < 16 → indexTaken n o j s = false →
      (s.lock n).held = true →
    Served (.lockAssign r n o j mo) r 0x0214 s (.state 34) [] fun u => u = take r s)
  ∧ (∀ (r : Req) (n : Nat) (s : State), Req.clear r .no false s → n < 256 → (s.lock n).held = false →
    Served (.lockUnassign r n) r 0x0215 s .ok [] fun u =>
      Only [.insts, .bki, .evr, .mbx, .persist] (take r s) u ∧ (u.lock n).en = false ∧ ∀ m, m ≠ n → u.lock m = s.lock m)
  ∧ (∀ (r : Req) (n : Nat) (s : State), Req.clear r .no false s → n < 256 →
    Served (.lockRead r n) r 0x0216 s .ok [lckAssign n s, lckState n s] fun u => u = take r s)
  ∧ (∀ (r : Req) (i q a n : Nat) (s : State), Req.clear r .own true s → r.inst = some i → s.instBusy i = false → q < 2 →
      pow2In 16 n 1024 = true → a % 64 = 0 → ringFree i a (32 * n) (s.modEg fun e => { e with queues := e.queues.del (2 * i + q) }) = true →
    Served (.egqRegister r q a n) r 0x0218 s .ok [] fun u =>
      Only [.eg] (take r s) u ∧ u.eg = { s.eg with queues := s.eg.queues.set (2 * i + q) { addr := a, size := n } })
  ∧ (∀ (r : Req) (i a n b : Nat) (s : State), Req.clear r .own true s → r.inst = some i → s.instBusy i = false → pow2In 16 n 4096 = true →
      bufLenOk b = true → ringFree i a (16 * n) (s.setInst i fun d => { d with rxRing := none }) = true →
    Served (.rxringRegister r a n b) r 0x0219 s .ok [] fun u =>
      Only [.insts, .mbx] (take r s) u ∧ u.inst i = { s.inst i with rxRing := some { base := a, size := n, bufLen := b } }
      ∧ ∀ j, j ≠ i → u.inst j = s.inst j)
  ∧ (∀ (r : Req) (i : Nat) (s : State), Req.clear r .own true s → r.inst = some i →
    Served (.rxringStats r) r 0x021A s .ok ((rxCounts i s).zipIdx.map fun p => p.1 - s.mbx.rxReads.get (3 * i + p.2) 0) fun u =>
      Only [.mbx] (take r s) u ∧ ∀ p ∈ (rxCounts i s).zipIdx, u.mbx.rxReads.get (3 * i + p.2) 0 = p.1)

/-- A request that passes the checks of R436 (R461, R462). STB_PUT adds its changes, all or none, to the batch and touches no entry;
STB_COMMIT of an admitted batch hands it on, and one refused discards it whole (R123). LEARN_ANSWER closes its record.
PORT_CONFIG writes the registers of the port, P0 and P1 keeping one rate (R69); PORT_BYPASS releases the coil (R105); a
MIRROR_SESSION takes effect once no copy needs the old one (R124); SWITCH_CONFIG, HOST_RXRING and SCE_CONFIG write their
registers. STATS takes a snapshot and gives the reader what it has not yet had (R92). GROUP_SET writes the descriptor and its
contexts (R167); PRESET_CHANGE leaves the preset until it is applied (R155); SUBSCRIBE and RING_REGISTER write their entry
(R161). Reads answer the entries and change nothing. (14_mailbox_interface.md, 04_stream_table_and_switch.md,
05_sample_conditioning.md, 03_ports_and_bypass.md) -/
def Obligations.SwitchAndConditioningRequests : Prop :=
  (∀ (r : Req) (cs : List StbPutItem) (is : List Nat) (t s : State), Req.clear r .no false s → cs.length ≤ 256 → s.persist.importOp = none →
      putItems cs 0 [] (take r s) = .inr (is, t) → t.sw.batch.length ≤ 256 →
    Served (.stbPut r cs) r 0x0300 s .ok is fun u =>
      Only [.sw] (take r s) u ∧ u.sw = { s.sw with batch := u.sw.batch } ∧ is.length = cs.length ∧ s.sw.batch <+: u.sw.batch)
  ∧ (∀ (r : Req) (i : Nat) (b : SubBitmap) (s : State), Req.clear r .no false s → s.persist.importOp = none → 1 ≤ i → i ≤ 4095 →
      s.sw.batch.length < 256 →
    Served (.stbPut r [{ idx := some i, op := .putBitmap, bitmap := b }]) r 0x0300 s .ok [i] fun u =>
      Only [.sw] (take r s) u
      ∧ u.sw = { s.sw with batch := s.sw.batch ++ [{ idx := i, op := .putBitmap, bitmap := b }] })
  ∧ (∀ (r : Req) (cs : List StbPutItem) (st : Status) (s : State), Req.clear r .no false s → cs.length ≤ 256 → s.persist.importOp = none →
      putItems cs 0 [] (take r s) = .inl st →
    Served (.stbPut r cs) r 0x0300 s st [] fun u => u = take r s)
  ∧ (∀ (r : Req) (base s : State), Req.clear r .no false s → s.persist.importOp = none → s.sw.applyOp = none →
      base = s.sw.applying.foldl (fun s c => afterChange c s) (take r s) → admitAll s.sw.batch 0 base = none →
      subsShort (s.sw.batch.foldl (fun s c => afterChange c s) base) (take r s) = none →
    Served (.stbCommit r) r 0x0301 s (.accepted s.handle) [] fun u =>
      Only [.sw, .insts, .bki, .evr, .mbx, .persist, .mon] (take r s) u ∧ u.sw.batch = [] ∧ u.sw.applying = s.sw.applying ++ s.sw.batch
      ∧ u.sw.streams = s.sw.streams ∧ u.sw.fwd = s.sw.fwd ∧ u.sw.bitmaps = s.sw.bitmaps
      ∧ (u.sw.applying ≠ [] → u.sw.applyOp = some s.handle))
  ∧ (∀ (r : Req) (base : State) (st : Status) (s : State), Req.clear r .no false s → s.persist.importOp = none → s.sw.applyOp = none →
      base = s.sw.applying.foldl (fun s c => afterChange c s) (take r s) → admitAll s.sw.batch 0 base = some st →
    Served (.stbCommit r) r 0x0301 s st [] fun u => Only [.sw] (take r s) u ∧ u.sw = { s.sw with batch := [] })
  ∧ (∀ (r : Req) (i : Nat) (s : State), Req.clear r .no false s → isStreamIdx i = true →
    Served (.stbRead r false i) r 0x0302 s .ok [(s.stream i).pack] fun u => u = take r s)
  ∧ (∀ (r : Req) (i : Nat) (s : State), Req.clear r .no false s → 1 ≤ i → i ≤ 4095 →
    Served (.stbRead r true i) r 0x0302 s .ok [(s.sw.bitmaps.get i {}).pack] fun u => u = take r s)
  ∧ (∀ (r : Req) (k n : Nat) (m : BitVec 8) (s : State), Req.clear r .no false s → k < 8 → n ≤ 2 →
    Served (.learnPolicy r k n m) r 0x0303 s .ok [] fun u =>
      Only [.sw, .persist] (take r s) u
      ∧ u.sw = { s.sw with policy := s.sw.policy.set k { kind := n, ports := m } })
  ∧ (∀ (r : Req) (id : Nat) (e : StreamEntry) (x : LearnRec) (s : State), Req.clear r .no false s → learnRec id s = some x →
    Served (.learnAnswer r id false e) r 0x0304 s .ok [] fun u =>
      Only [.sw] (take r s) u ∧ u.sw = { s.sw with learn := s.sw.learn.filter fun y => y.key ≠ x.key })
  ∧ (∀ (r : Req) (id i : Nat) (e : StreamEntry) (x : LearnRec) (t s : State), Req.clear r .no false s → learnRec id s = some x →
      e.bad = false → e.ageCode < 14 → admitLearned { e with key := x.key, rate := learnedRate x } (take r s) = .inr (i, t) →
    Served (.learnAnswer r id true e) r 0x0304 s .ok [i] fun u =>
      Only [.sw, .insts, .time, .bki, .evr, .mbx, .persist, .mon] (take r s) u ∧ ∀ y ∈ u.sw.learn, y.key ≠ x.key)
  ∧ (∀ (r : Req) (id : Nat) (x : LearnRec) (s : State), Req.clear r .no false s → learnRec id s = some x →
    Served (.learnRead r id) r 0x0307 s .ok [x.key.toNat, x.ports.toNat, x.stampAt, x.epoch, min x.frames (2 ^ 32 - 1),
      min x.octets (2 ^ 32 - 1)] fun u => u = take r s)
  ∧ (∀ (r : Req) (k : Nat) (ctl vlan pcp : BitVec 32) (n : Nat) (s : State), Req.clear r .no false s → k < 8 → portCtlBad k ctl = false →
      portVlanBad vlan = false → maxFrameBad n = false →
    ∃ vals, Served (.portConfig r k ctl vlan pcp n) r 0x0305 s .ok vals fun u =>
      Only [.ports, .sw, .insts, .cgu, .time, .bki, .evr, .mbx, .persist] (take r s) u
      ∧ vals = [portCtl k u, portVlan k u, portPcpMap k u, n]
      ∧ (u.port k).rate = bits ctl 9 8 ∧ (k < 2 → (u.port (1 - k)).rate = bits ctl 9 8) ∧ (u.port k).txEn = bitOf ctl 1
      ∧ (u.port k).rxEn = bitOf ctl 0 ∧ (u.port k).pvid = bits vlan 11 0 ∧ (u.port k).maxFrame = n
      ∧ ∀ j, j ≠ k → (u.port j).pvid = (s.port j).pvid ∧ (u.port j).maxFrame = (s.port j).maxFrame ∧ (u.port j).txEn = (s.port j).txEn)
  ∧ (∀ (r : Req) (n : Nat) (s : State), Req.clear r .no false s → n ≤ 1 →
    ∃ vals, Served (.portBypass r n) r 0x0308 s .ok vals fun u =>
      Only [.ports, .head, .sw, .insts, .cgu, .time, .bki, .evr, .mbx, .persist] (take r s) u ∧ u.head.forced = (n == 1)
      ∧ (n = 1 → u.head.coil = false) ∧ (u.head.coil = true → s.head.coil = true))
  ∧ (∀ (r : Req) (c : SwitchCfg) (s : State), Req.clear r .no false s → c.holdoffMs ≤ 3600000 → within 10 c.fwdIdleS 6500 = true →
      c.clsAge.length = 8 → (∀ n ∈ c.clsAge, within 10 n 100000 = true) → c.portFwd.length = 8 →
    ∃ vals, Served (.switchConfig r c) r 0x0309 s .ok vals fun u =>
      Only [.ports, .head, .sw, .insts, .cgu, .time, .bki, .evr, .mbx, .persist] (take r s) u ∧ u.sw.hsrEn = bitOf c.ctl 0
      ∧ u.sw.fwdIdleS = c.fwdIdleS ∧ u.sw.holdoffMs = max c.holdoffMs ((2 * u.sw.clsAge.foldl max 0 + 999) / 1000)
      ∧ (∀ i, i < s.sw.clsAge.length → i < 8 → u.sw.clsAge[i]? = c.clsAge[i]?)
      ∧ (∀ i v, i < s.sw.flood.length → c.portFwd[i]? = some v → u.sw.flood[i]? = some (BitVec.ofNat 8 (bits v 7 0)))
      ∧ u.sw.batch = s.sw.batch)
  ∧ (∀ (r : Req) (n : Nat) (v : BitVec 32) (s : State), Req.clear r .no false s → n < 4 → mirCtlBad v s = false →
      n < s.sw.mir.length →
    Served (.mirrorSession r n v) r 0x030A s .ok [] fun u =>
      ∃ y, (committed u).sw.mir[n]? = some y ∧ y.en = bitOf v 0 ∧ y.dest = bits v 7 4 ∧ y.cls = bits v 27 25 ∧ y.keepRed = bitOf v 24)
  ∧ (∀ (r : Req) (n : Nat) (v : BitVec 32) (s : State), Req.clear r .no false s → n < 4 → mirCtlBad v s = false → s.sw.applying = [] →
      mirHeld n s = true →
    Served (.mirrorSession r n v) r 0x030A s .ok [] fun u =>
      Only [.sw, .persist] (take r s) u ∧ u.sw = { s.sw with applying := u.sw.applying })
  ∧ (∀ (r : Req) (n : Nat) (v : BitVec 32) (s : State), Req.clear r .no false s → n < 4 → mirCtlBad v s = false → s.sw.applying = [] →
      s.sw.applyOp = none → mirHeld n s = false →
    Served (.mirrorSession r n v) r 0x030A s .ok [] fun u =>
      Only [.sw, .insts, .bki, .evr, .mbx, .persist] (take r s) u ∧ u.sw = { s.sw with mir := u.sw.mir } ∧ (∀ j, j ≠ n → u.sw.mir[j]? = s.sw.mir[j]?)
      ∧ ∀ x, s.sw.mir[n]? = some x → ∃ y, u.sw.mir[n]? = some y ∧ y.en = bitOf v 0 ∧ y.dest = bits v 7 4 ∧ y.cls = bits v 27 25
          ∧ y.keepRed = bitOf v 24)
  ∧ (∀ (r : Req) (k a n b : Nat) (s : State), Req.clear r .no false s → k < 16 → pow2In 16 n 4096 = true → bufLenOk b = true →
    Served (.hostRxring r k a n b) r 0x030B s .ok [] fun u =>
      Only [.mbx] (take r s) u ∧ u.mbx.hostMem = s.mbx.hostMem
      ∧ u.mbx.hostRings.get k {} = { base := a, size := n, bufLen := b }
      ∧ ∀ j, j ≠ k → u.mbx.hostRings.get j {} = s.mbx.hostRings.get j {})
  ∧ (∀ (r : Req) (p : CntPage) (k : Nat) (s : State), Req.clear r .no false s → p.exists_ = true → k < 4 →
    Served (.stats r p k) r 0x0306 s .ok (readTotals p k (snapshot p (take r s)) ++ ringTotals p k (snapshot p (take r s))) fun u =>
      Only [.ports, .sw, .sce, .sched, .time, .acq, .bki, .evr, .ksu, .cgu, .ocu, .mlk, .mbx, .free] (take r s) u ∧ p.live u = []
      ∧ (∀ q, q ≠ p → q.live u = q.live s) ∧ ∀ n, n < p.count → u.mbx.statReaders.get (totalKey k p n) 0 = 0)
  ∧ (∀ (r : Req) (g : Nat) (d : Group) (cs : List Ctx) (s : State), Req.clear r .no false s → g < 1024 → s.persist.importOp = none →
      (importBatch g s = none ∨ cs ≠ []) → d.bad (s.group g).preset = false → cs.length = d.nch →
      (∀ c ∈ cs, c.refused ((if d.en then [(s.group g).preset] else []) ++ if d.pend then [d.pendPreset] else []) = false) →
      (∀ x ∈ d.subs, x.valid = true → subNames x.inst x.gen s = none ∧ ringRefused x.inst x.ring d.nch s = false) →
      groupAdmit (writeGroup g d cs (take r s)) (take r s) = none →
    Served (.groupSet r g d cs) r 0x0400 s (if d.pend && (s.group g).pend then .okReplaced else .ok) [] fun u =>
      Only [.sce, .insts, .mlk, .acq, .bki, .evr, .mbx, .persist, .free] (take r s) u
      ∧ (∀ j, j ≠ g → u.group j = s.group j)
      ∧ (u.group g).entry = d.entry ∧ (u.group g).en = d.en ∧ (u.group g).nch = d.nch ∧ (u.group g).firstCtx = d.firstCtx
      ∧ (u.group g).rate = d.rate ∧ (u.group g).pend = d.pend ∧ (u.group g).pendPreset = d.pendPreset
      ∧ (u.group g).preset = (s.group g).preset ∧ (d.en = false → (u.group g).state = 0)
      ∧ (∀ k c, cs[k]? = some c → (u.ctx (d.firstCtx + k)).chanPos = c.chanPos ∧ (u.ctx (d.firstCtx + k)).corner = c.corner
          ∧ (u.ctx (d.firstCtx + k)).dcK = dcFactor c.corner d.rate ∧ (u.ctx (d.firstCtx + k)).freeze = c.freeze
          ∧ (u.ctx (d.firstCtx + k)).histClass = c.histClass ∧ (u.ctx (d.firstCtx + k)).t0.level = c.t0.level)
      ∧ ∀ n, (n < d.firstCtx ∨ d.firstCtx + d.nch ≤ n) → u.ctx n = s.ctx n)
  ∧ (∀ (r : Req) (g : Nat) (s : State), Req.clear r .no false s → g < 1024 →
    Served (.groupRead r g) r 0x0401 s .ok ((s.group g).pack :: (s.group g).ctxNums.map fun n => (s.ctx n).pack) fun u => u = take r s)
  ∧ (∀ (r : Req) (g p : Nat) (t s : State), Req.clear r .no false s → g < 1024 → p ≤ 4 →
      (∀ n ∈ (s.group g).ctxNums, presetTaps p ≤ presetTaps (s.ctx n).histClass) →
      t = (take r s).setGroup g (fun x => { x with pendPreset := p, pend := true }) → groupAdmit t (take r s) = none →
    Served (.presetChange r g p) r 0x0402 s (if (s.group g).pend then .okReplaced else .ok) [] fun u =>
      Only [.sce, .persist] (take r s) u ∧ u.group g = { s.group g with pendPreset := p, pend := true }
      ∧ (∀ j, j ≠ g → u.group j = s.group j) ∧ u.sce.ctxs = s.sce.ctxs)
  ∧ (∀ (r : Req) (p : Nat) (s : State), Req.clear r (.yes) false s → p ≤ 4 →
    Served (.presetRead r p) r 0x0403 s .ok ([presetTaps p, presetD p, presetDelay p]
      ++ (List.range (presetTaps p)).map fun k => unsigned 16 (firTap p k)) fun u => u = take r s)
  ∧ (∀ (r : Req) (g n : Nat) (s : State), Req.clear r .no false s → g < 1024 → n < 8 →
    Served (.subscribe r g n none) r 0x0404 s .ok [] fun u =>
      Only [.sce, .insts, .bki, .evr, .mbx, .persist] (take r s) u ∧ u.group g = { s.group g with subs := (s.group g).subs.set n {} }
      ∧ (∀ j, j ≠ g → u.group j = s.group j) ∧ u.sce.ctxs = s.sce.ctxs)
  ∧ (∀ (r : Req) (g n i gn q : Nat) (t s : State), Req.clear r .no false s → g < 1024 → n < 8 → subNames i gn s = none → q ≤ 3 →
      ringRefused i q (s.group g).nch s = false →
      t = (take r s).setGroup g (fun x => x.putSub n (subEntry i gn q x.nch (take r s))) → groupAdmit t (take r s) = none →
    Served (.subscribe r g n (some (i, gn, q))) r 0x0404 s .ok [] fun u =>
      Only [.sce, .insts, .bki, .evr, .mbx, .persist] (take r s) u
      ∧ u.group g = { s.group g with subs := (s.group g).subs.set n (subEntry i gn q (s.group g).nch s) }
      ∧ (∀ j, j ≠ g → u.group j = s.group j) ∧ u.sce.ctxs = s.sce.ctxs)
  ∧ (∀ (r : Req) (i q a n w : Nat) (s : State), Req.clear r .own true s → r.inst = some i → s.instBusy i = false → q ≤ 4 →
      pow2In 16 n 4096 = true → (q ≠ 4 → within 2 w 9 = true) →
      ringFree i a (16 * (if q = 4 then 1 else w) * n + 16) (s.modSce fun c => { c with rings := c.rings.del (5 * i + q) }) = true →
    Served (.ringRegister r q a n w) r 0x0405 s .ok [] fun u =>
      Only [.sce] (take r s) u
      ∧ u.ring i q = some { addr := a, slots := n, words := if q = 4 then 1 else w, ctl := a + 16 * (if q = 4 then 1 else w) * n }
      ∧ (∀ j, j ≠ 5 * i + q → u.sce.rings.get j {} = s.sce.rings.get j {}) ∧ u.sce.ctxs = s.sce.ctxs)
  ∧ (∀ (r : Req) (v : BitVec 32) (s : State), Req.clear r .no false s →
    Served (.sceConfig r v) r 0x0406 s .ok [] fun u =>
      Only [.sce, .persist] (take r s) u ∧ u.sce = { s.sce with en := bitOf v 0 })

/-- A request that passes the checks of R436 (R463, R464). TIME_CONFIG and PPS_CONFIG write their registers, and a FWD_MASK that
lets P4 and P5 forward to each other is BAD_PARAM (R285, R458); REF_SWITCH to a domain that is not LOCKED, or too far off, is
refused, and else starts a slew with the step epoch kept (R293, R294). STEP moves TB by its nanoseconds under the next epoch,
and gets TIMEOUT, uncached, while the TBU stands. TRG_ALLOC gives the lowest free comparator from 8 on, TRG_PROGRAM writes it,
TRG_FREE frees it, and no other is touched (R297). STREAM_SET writes a descriptor that R326 admits; STREAM_EN starts capture
afresh, in SPRING at its end (R490), or ends it, what is staged being sent (R329), ACQ_EN of its groups following (R309);
STREAM_RESTART lets a stopped stream run (R328). TRIGGER reaches the running streams of its mask whose cause is enabled (R318).
Reads answer the registers; STREAM_READ clears STAGE_HWM. (14_mailbox_interface.md, 09_network_time.md,
10_disturbance_streaming.md) -/
def Obligations.TimeAndAcquisitionRequests : Prop :=
  (∀ (r : Req) (s : State), Req.clear r .yes false s →
    Served (.timeStatus r) r 0x0500 s .ok [tbStat s, ofs64 s.time.domA.ofs, ofs64 s.time.domB.ofs, ofs64 s.time.slewRem,
      s.time.domA.gm.getD 0, s.time.domB.gm.getD 0, domainTlv true s, altTlv false s, altTlv true s] fun u => u = take r s)
  ∧ (∀ (r : Req) (c : TimeCfg) (s : State), Req.clear r .no false s → tbDomainBad c.domain = false → tbLimitsBad c.limits = false →
      c.ports.length = 6 → portsLoop c s = false →
    ∃ vals, Served (.timeConfig r c) r 0x0501 s .ok vals fun u =>
      Only [.time, .bki, .evr, .persist] (take r s) u
      ∧ vals = [tbDomain u, tbLimits u, b2n u.time.autoSwitch] ++ (List.range 6).map (fun k => ptpPort k u)
      ∧ u.time.domA.num = bits c.domain 7 0 ∧ u.time.domB.num = bits c.domain 15 8 ∧ u.time.switchMaxUs = bits c.domain 31 16
      ∧ u.time.holdoverS = bits c.limits 31 20 ∧ u.time.stepThrUs = bits c.limits 19 0 ∧ u.time.autoSwitch = c.autoSwitch
      ∧ u.time.tbNs = s.time.tbNs ∧ u.time.stepEpoch = s.time.stepEpoch
      ∧ ∀ k v, c.ports[k]? = some v → (u.ptp k).ptpEn = bitOf v 0 ∧ (u.ptp k).pdelayEn = bitOf v 1 ∧ (u.ptp k).tcClass = bits v 18 16
          ∧ (u.ptp k).fwdMask.getLsbD k = false)
  ∧ (∀ (r : Req) (c : TimeCfg) (s : State), Req.clear r .no false s → tbDomainBad c.domain = false → tbLimitsBad c.limits = false →
      portsLoop c s = true →
    Served (.timeConfig r c) r 0x0501 s (.badParam 3) [] fun u => u = take r s)
  ∧ (∀ (r : Req) (n : Nat) (b : Bool) (s : State), Req.clear r .no false s → n ≤ 1 → b = (n == 1) → (s.time.dom b).state = 2 →
      switchOk b s = true → b ≠ s.time.ref →
    Served (.refSwitch r n) r 0x0502 s .ok [] fun u =>
      Only [.time, .bki, .evr, .persist] (take r s) u
      ∧ u.time = { s.time with
                   ref := b
                   refAct := b
                   slewRem := (s.time.dom b).ofs
                   slewing := decide ((s.time.dom b).ofs ≠ 0)
                   live := bump s.time.live 11 })
  ∧ (∀ (r : Req) (n : Nat) (s : State), Req.clear r .no false s → n ≤ 1 → (s.time.dom (n == 1)).state ≠ 2 →
    Served (.refSwitch r n) r 0x0502 s (.state 80) [] fun u => u = take r s)
  ∧ (∀ (r : Req) (n : Nat) (s : State), Req.clear r .no false s → n ≤ 1 → (s.time.dom (n == 1)).state = 2 → switchOk (n == 1) s = false →
    Served (.refSwitch r n) r 0x0502 s (.state 81) [] fun u => u = take r s)
  ∧ (∀ (r : Req) (ns : Int) (s : State), Req.clear r .no false s → s.time.tbStopped = false → (∀ j, j < 32 → (s.time.cmp j).en = false) →
    Served (.stepTb r ns) r 0x0503 s .ok [(s.time.stepEpoch + 1) % 65536] fun u =>
      Only [.time, .mlk, .bki, .evr] (take r s) u ∧ u.mlk = s.mlk.rebased s.time.tbNs u.time.tbNs ∧ u.time.tbNs = (((s.time.tbNs : Int) + ns) % 2 ^ 64).toNat ∧ u.time.tbFrac = s.time.tbFrac
      ∧ u.time.step = ns ∧ u.time.stepEpoch = (s.time.stepEpoch + 1) % 65536 ∧ u.time.slewRem = 0 ∧ u.time.age = s.time.age)
  ∧ (∀ (r : Req) (ns : Int) (s : State), Req.clear r .no false s → s.time.tbStopped = true →
    Completes (.stepTb r ns) s fun t =>
      t = respond r { opcode := 0x0503, tag := r.tag, inst := r.inst, gen := r.gen, ind := r.buf.isSome, status := .timeout } false (take r s))
  ∧ (∀ (r : Req) (o : Option Nat) (k : Nat) (s : State), Req.clear r .own false s →
      (∀ i, o = some i → i < 512 ∧ ((s.inst i).exists_ = true ∨ (s.inst i).state = .resetting)) →
      8 ≤ k → k < 32 → (s.time.cmp k).alloc = false → (∀ j, 8 ≤ j → j < k → (s.time.cmp j).alloc = true) →
    Served (.trgAlloc r o) r 0x0504 s .ok [k] fun u =>
      Only [.time, .persist] (take r s) u ∧ u.time.cmp k = { alloc := true, byMgp := o.isNone, owner := o.getD 0 }
      ∧ ∀ j, j ≠ k → u.time.cmp j = s.time.cmp j)
  ∧ (∀ (r : Req) (o : Option Nat) (s : State), Req.clear r .own false s →
      (∀ i, o = some i → i < 512 ∧ ((s.inst i).exists_ = true ∨ (s.inst i).state = .resetting)) →
      (∀ j, 8 ≤ j → j < 32 → (s.time.cmp j).alloc = true) →
    Served (.trgAlloc r o) r 0x0504 s (.noResource 11 0) [] fun u => u = take r s)
  ∧ (∀ (r : Req) (k t p : Nat) (per en : Bool) (d : BitVec 4) (s : State), Req.clear r .own false s → cmpNamed k s = true →
      periodBad p per = false → (en = false ∨ s.time.tbNs < t % 2 ^ 64) →
    Served (.trgProgram r k t p per d en) r 0x0505 s .ok [] fun u =>
      Only [.time, .persist] (take r s) u ∧ (∀ j, j ≠ k → u.time.cmp j = s.time.cmp j)
      ∧ u.time.cmp k = { s.time.cmp k with
                         time := t % 2 ^ 64
                         period := p
                         periodic := per
                         dest := d
                         en := en })
  ∧ (∀ (r : Req) (k : Nat) (s : State), Req.clear r .own false s → cmpNamed k s = true →
    Served (.trgFree r k) r 0x0506 s .ok [] fun u =>
      Only [.time, .persist] (take r s) u ∧ (u.time.cmp k).alloc = false ∧ (u.time.cmp k).en = false ∧ ∀ j, j ≠ k → u.time.cmp j = s.time.cmp j)
  ∧ (∀ (r : Req) (i a n : Nat) (s : State), Req.clear r .own true s → r.inst = some i → s.instBusy i = false → pow2In 16 n 1024 = true →
      ringFree i a (32 * n + 16) (s.modTime fun t => { t with stampRings := t.stampRings.del i }) = true →
    Served (.stampRing r a n) r 0x0507 s .ok [] fun u =>
      Only [.time] (take r s) u ∧ u.time.stampRings.get i {} = { addr := a, slots := n, ctl := a + 32 * n }
      ∧ ∀ j, j ≠ i → u.time.stampRings.get j {} = s.time.stampRings.get j {})
  ∧ (∀ (r : Req) (en gate : Bool) (w : Nat) (s : State), Req.clear r .no false s → 1 ≤ w → w ≤ 500000 →
    Served (.ppsConfig r en gate w) r 0x0508 s .ok [] fun u =>
      Only [.time, .persist] (take r s) u
      ∧ u.time = { s.time with
                   ppsEn := en
                   ppsGate := gate
                   ppsWidth := w })
  ∧ (∀ (r : Req) (n : Nat) (d : AcqStream) (s : State), Req.clear r .no false s → n < 4 → d.bad s = false → (s.acqS n).en = false →
      streamRefused n ((s.acqS n).put d) s = none →
    Served (.streamSet r n d) r 0x0600 s .ok [] fun u =>
      Only [.acq, .persist] (take r s) u ∧ u.acqS n = (s.acqS n).put d ∧ (∀ j, j ≠ n → u.acqS j = s.acqS j)
      ∧ (u.acqS n).en = false ∧ (u.acqS n).frames = (s.acqS n).frames)
  ∧ (∀ (r : Req) (n : Nat) (d : AcqStream) (s : State), Req.clear r .no false s → n < 4 → d.bad s = false → (s.acqS n).en = true →
      (s.acqS n).put d ≠ (s.acqS n).putLive d →
    Served (.streamSet r n d) r 0x0600 s .busy [] fun u => u = take r s)
  ∧ (∀ (r : Req) (n : Nat) (d : AcqStream) (st : Status) (s : State), Req.clear r .no false s → n < 4 → d.bad s = false →
      ((s.acqS n).en = false ∨ (s.acqS n).put d = (s.acqS n).putLive d) → streamRefused n ((s.acqS n).put d) s = some st →
    Served (.streamSet r n d) r 0x0600 s st [] fun u => u = take r s)
  ∧ (∀ (r : Req) (n : Nat) (s : State), Req.clear r .no false s → n < 4 → (s.acqS n).en = false → (s.acqS n).bad s = false →
      ((s.acqS n).src 0).valid = true → (s.acqS n).granules = [] → (s.acqS n).stageGran ≤ s.dramFree → streamAdmit n (s.acqS n) s = none →
    Served (.streamEn r n 1) r 0x0601 s .ok [] fun u =>
      Only [.sw, .sce, .insts, .acq, .persist, .bki, .evr, .mbx, .mon] (take r s) u ∧ (u.acqS n).en = true
      ∧ (s.season.season = .spring → (u.acqS n).run = (s.acqS n).run)
      ∧ (s.season.season ≠ .spring → (u.acqS n).run = true ∧ (u.acqS n).frames = [] ∧ (u.acqS n).frameSeq = 0 ∧ (u.acqS n).trigs = [])
      ∧ (∀ j, j ≠ n → u.acqS j = s.acqS j)
      ∧ u.insts.lsMem = s.insts.lsMem ∧ u.insts.dramMem = s.insts.dramMem
      ∧ ∀ y ∈ (s.acqS n).used, y.raw = false → (u.group y.ref).acqEn = true)
  ∧ (∀ (r : Req) (n : Nat) (s : State), Req.clear r .no false s → n < 4 → (s.acqS n).en = true →
    Served (.streamEn r n 0) r 0x0601 s .ok [] fun u =>
      Only [.sw, .sce, .insts, .acq, .persist, .bki, .evr, .mbx, .mon] (take r s) u ∧ (u.acqS n).en = false ∧ (u.acqS n).run = false ∧ (u.acqS n).trigs = []
      ∧ (u.acqS n).items = [] ∧ (s.acqS n).frames <+: (u.acqS n).frames ∧ ∀ j, j ≠ n → u.acqS j = s.acqS j)
  ∧ (∀ (r : Req) (n e : Nat) (s : State), Req.clear r .no false s → n < 4 → e ≤ 1 → (s.acqS n).en = (e == 1) →
    Served (.streamEn r n e) r 0x0601 s .ok [] fun u => u = take r s)
  ∧ (∀ (r : Req) (n : Nat) (s : State), Req.clear r .no false s → n < 4 → (s.acqS n).en = true → (s.acqS n).run = false →
    Served (.streamRestart r n) r 0x0602 s .ok [1] fun u =>
      Only [.acq] (take r s) u ∧ (u.acqS n).run = true ∧ (u.acqS n).stopReason = 0 ∧ (∀ j, j ≠ n → u.acqS j = s.acqS j)
      ∧ ∃ x, (u.acqS n).items.getLast? = some x ∧ x.octets = eventItem 5 0 s)
  ∧ (∀ (r : Req) (n : Nat) (s : State), Req.clear r .no false s → n < 4 → ((s.acqS n).en = false ∨ (s.acqS n).run = true) →
    Served (.streamRestart r n) r 0x0602 s .ok [b2n (s.acqS n).run] fun u => u = take r s)
  ∧ (∀ (r : Req) (m : BitVec 4) (c : Nat) (s : State), Req.clear r .yes true s → c < 256 →
    Served (.trigger r m c) r 0x0603 s .ok [] fun u =>
      Only [.acq] (take r s) u
      ∧ ∀ n, (u.acqS n).trigs = (s.acqS n).trigs
          ++ (if n < 4 ∧ m.getLsbD n = true ∧ (s.acqS n).run = true ∧ (s.acqS n).causeEn.getLsbD 2 = true
              then [{ s.trigNow 2 with
                      inst := r.i
                      gen := r.gen
                      code := c
                      span := (s.acqS n).prePost.getD 2 (0, 0) }] else []))
  ∧ (∀ (r : Req) (v : BitVec 32) (s : State), Req.clear r .no false s → acqCtlBad v = false →
    Served (.acqConfig r v) r 0x0604 s .ok [] fun u =>
      Only [.acq, .persist] (take r s) u
      ∧ u.acq = { s.acq with
                  deadMs := bits v 13 4
                  trigInEn := bitOf v 3
                  trigInEdge := bits v 2 1
                  en := bitOf v 0 })
  ∧ (∀ (r : Req) (n : Nat) (s : State), Req.clear r .no false s → n < 4 →
    Served (.streamRead r n) r 0x0605 s .ok [(s.acqS n).pack, acqStat s] fun u =>
      Only [.acq] (take r s) u ∧ u.acqS n = { s.acqS n with stageHwm := 0 } ∧ ∀ j, j ≠ n → u.acqS j = s.acqS j)

/-- A request that passes the checks of R436 (R465). While CLM_HOLD is 1 every one that writes is answered LOCKED and changes
nothing; while a switch-back is in progress SET_CLAIM, PAIR_CONFIG and GO_OUT are BUSY (R446). SET_CLAIM sets the claim of an
OUT or STANDBY unit and is refused in another role (R247). PAIR_CONFIG writes its registers, CLM_EN among them, or is refused
with its reason (R474). SWITCH_BACK at the active is held without a change of role; at a standby that no request names it is
refused, with a failing condition it ends with that reason and the role stays, else the standby takes over with the partner's
claim plus 1 (R273, R274). RETURN_STANDBY lifts a held OUT; GO_OUT needs a partner that is present and not TAKING (R249).
CLEAR_TAKE_BLOCK and TRIP_ASSIGN write their one field. (14_mailbox_interface.md, 08_trip_path_and_pair.md) -/
def Obligations.PairRequests : Prop :=
  (∀ (r : Req) (s : State), Req.clear r .no false s →
    Served (.pairStatus r) r 0x0700 s .ok [cguStat s, s.cgu.lastClaim.toNat, s.ocu.pending.length, mlkStat s, s.mlk.partnerClaim.toNat]
      fun u => u = take r s)
  ∧ (∀ (r : Req) (c v1 v2 v3 v4 : BitVec 32) (n : Nat) (o : Option Nat) (s : State), Req.clear r .no false s → s.bki.clmHold = true →
      Served (.setClaim r c) r 0x0701 s .locked [] (fun u => u = take r s)
      ∧ Served (.pairConfig r v1 v2 v3 v4) r 0x0702 s .locked [] (fun u => u = take r s)
      ∧ Served (.switchBack r n) r 0x0703 s .locked [] (fun u => u = take r s)
      ∧ Served (.clearTakeBlock r) r 0x0704 s .locked [] (fun u => u = take r s)
      ∧ Served (.returnStandby r) r 0x0705 s .locked [] (fun u => u = take r s)
      ∧ Served (.goOut r) r 0x0706 s .locked [] (fun u => u = take r s)
      ∧ Served (.tripAssign r n o) r 0x0707 s .locked [] (fun u => u = take r s))
  ∧ (∀ (r : Req) (c : BitVec 32) (s : State), Req.clear r .no false s → s.bki.clmHold = false → c ≠ 0 → s.switching = false →
      (s.cgu.role = .out ∨ s.cgu.role = .standby) → partnerTakes s = false →
    Served (.setClaim r c) r 0x0701 s .ok [] fun u =>
      Only [.cgu, .bki, .evr, .persist] (take r s) u ∧ u.cgu = { s.cgu with ownClaim := c })
  ∧ (∀ (r : Req) (c : BitVec 32) (s : State), Req.clear r .no false s → s.bki.clmHold = false → c ≠ 0 → s.switching = false →
      s.cgu.role ≠ .out → s.cgu.role ≠ .standby →
    Served (.setClaim r c) r 0x0701 s (.state 60) [] fun u => u = take r s)
  ∧ (∀ (r : Req) (c v1 v2 v3 v4 : BitVec 32) (s : State), Req.clear r .no false s → s.bki.clmHold = false → s.switching = true →
      (c ≠ 0 → Served (.setClaim r c) r 0x0701 s .busy [] (fun u => u = take r s))
      ∧ (claimMemBad v2 = false → ocuCtlBad v3 = false → mlkCtlBad v4 = false →
          Served (.pairConfig r v1 v2 v3 v4) r 0x0702 s .busy [] (fun u => u = take r s))
      ∧ Served (.goOut r) r 0x0706 s .busy [] (fun u => u = take r s))
  ∧ (∀ (r : Req) (v1 v2 v3 v4 : BitVec 32) (s : State), Req.clear r .no false s → s.bki.clmHold = false → claimMemBad v2 = false →
      ocuCtlBad v3 = false → mlkCtlBad v4 = false → s.switching = false → pairConfigRefused v1 v3 s = none →
    ∃ vals, Served (.pairConfig r v1 v2 v3 v4) r 0x0702 s .ok vals fun u =>
      Only [.ports, .sw, .insts, .cgu, .ocu, .mlk, .time, .bki, .evr, .mbx, .persist] (take r s) u
      ∧ vals = [cguCtl u, bits v2 15 0, ocuCtl u, mlkCtl u] ∧ u.cgu.clmEn = bitOf v1 0 ∧ u.cgu.claimMemMs = bits v2 15 0
      ∧ u.ocu.windowUs = bits v3 13 0 ∧ u.ocu.plausWinMs = bits v3 23 16 ∧ u.mlk.partnerToMs = bits v4 14 8 ∧ u.mlk.epochMs = bits v4 6 0
      ∧ u.cgu.ownClaim = s.cgu.ownClaim ∧ ((s.cgu.clmEn = true → bitOf v1 0 = true) → u.cgu.role = s.cgu.role))
  ∧ (∀ (r : Req) (v1 v2 v3 v4 : BitVec 32) (n : Nat) (s : State), Req.clear r .no false s → s.bki.clmHold = false → claimMemBad v2 = false →
      ocuCtlBad v3 = false → mlkCtlBad v4 = false → s.switching = false → pairConfigRefused v1 v3 s = some n →
    Served (.pairConfig r v1 v2 v3 v4) r 0x0702 s (.state n) [] fun u => u = take r s)
  ∧ (∀ (r : Req) (n : Nat) (s : State), Req.clear r .no false s → s.bki.clmHold = false → 1 ≤ n → n ≤ 15 → s.cgu.role = .active →
      s.mlk.swHeld = none →
    Served (.switchBack r n) r 0x0703 s (.accepted s.handle) [] fun u =>
      Only [.mlk, .mbx] (take r s) u ∧ u.mlk = { s.mlk with swHeld := some (n, s.now, s.handle) })
  ∧ (∀ (r : Req) (n : Nat) (s : State), Req.clear r .no false s → s.bki.clmHold = false → 1 ≤ n → n ≤ 15 → s.cgu.role = .standby →
      (s.mlk.word.swUnit ≠ some s.cgu.unitId ∨ s.mlk.word.unit ≠ n) →
    Served (.switchBack r n) r 0x0703 s (.state 75) [] fun u => u = take r s)
  ∧ (∀ (r : Req) (n m : Nat) (s : State), Req.clear r .no false s → s.bki.clmHold = false → 1 ≤ n → n ≤ 15 → s.cgu.role = .standby →
      s.mlk.word.swUnit = some s.cgu.unitId → s.mlk.word.unit = n → switchFails s = some m →
    Served (.switchBack r n) r 0x0703 s (.accepted s.handle) [] fun u =>
      Only [.mlk, .bki, .evr, .mbx, .mon] (take r s) u ∧ u.mlk = { s.mlk with swReason := some m })
  ∧ (∀ (r : Req) (n : Nat) (s : State), Req.clear r .no false s → s.bki.clmHold = false → 1 ≤ n → n ≤ 15 → s.cgu.role = .standby →
      s.mlk.word.swUnit = some s.cgu.unitId → s.mlk.word.unit = n → switchFails s = none → s.mlk.partnerClaim ≠ 0xFFFFFFFF →
    Served (.switchBack r n) r 0x0703 s (.accepted s.handle) [] fun u =>
      Only [.cgu, .mlk, .bki, .evr, .mbx, .persist] (take r s) u ∧ u.cgu.role = .taking ∧ u.cgu.ownClaim = s.mlk.partnerClaim + 1
      ∧ u.cgu.tripOn = false ∧ u.mlk = { s.mlk with swOp := some s.handle, swReason := none })
  ∧ (∀ (r : Req) (n : Nat) (s : State), Req.clear r .no false s → s.bki.clmHold = false → 1 ≤ n → n ≤ 15 → s.cgu.role ≠ .active →
      s.cgu.role ≠ .standby →
    Served (.switchBack r n) r 0x0703 s (.state 76) [] fun u => u = take r s)
  ∧ (∀ (r : Req) (s : State), Req.clear r .no false s → s.bki.clmHold = false →
    Served (.clearTakeBlock r) r 0x0704 s .ok [] fun u => Only [.ocu] (take r s) u ∧ u.ocu = { s.ocu with takeBlock := false })
  ∧ (∀ (r : Req) (s : State), Req.clear r .no false s → s.bki.clmHold = false → s.cgu.role = .out → s.unitF = false → s.cgu.idConflict = none →
      s.cgu.outHard = true → s.cgu.clmEn = true → s.cgu.unitId ≠ 0 →
    Served (.returnStandby r) r 0x0705 s .ok [Role.standby.code] fun u =>
      Only [.cgu, .bki, .evr, .mbx] (take r s) u ∧ u.cgu = { s.cgu with outHard := false, role := .standby })
  ∧ (∀ (r : Req) (s : State), Req.clear r .no false s → s.bki.clmHold = false → s.cgu.role = .out → s.unitF = false → s.cgu.idConflict = none →
      (s.cgu.clmEn = false ∨ s.cgu.unitId = 0) →
    Served (.returnStandby r) r 0x0705 s .ok [Role.out.code] fun u =>
      Only [.cgu] (take r s) u ∧ u.cgu = { s.cgu with outHard := false })
  ∧ (∀ (r : Req) (s : State), Req.clear r .no false s → s.bki.clmHold = false → s.cgu.role ≠ .out →
    Served (.returnStandby r) r 0x0705 s (.state 64) [] fun u => u = take r s)
  ∧ (∀ (r : Req) (s : State), Req.clear r .no false s → s.bki.clmHold = false → s.switching = false → s.mlk.partner = .present → s.mlk.word.role ≠ .taking →
    Served (.goOut r) r 0x0706 s .ok [Role.out.code] fun u =>
      Only [.ports, .sw, .insts, .cgu, .time, .bki, .evr, .mbx] (take r s) u ∧ u.cgu.role = .out ∧ u.cgu.outHard = true
      ∧ u.cgu.win = false ∧ u.cgu.tripOn = false ∧ u.cgu.clmEn = s.cgu.clmEn ∧ u.cgu.ownClaim = s.cgu.ownClaim)
  ∧ (∀ (r : Req) (s : State), Req.clear r .no false s → s.bki.clmHold = false → s.switching = false → s.mlk.partner ≠ .present →
    Served (.goOut r) r 0x0706 s (.state 62) [] fun u => u = take r s)
  ∧ (∀ (r : Req) (n : Nat) (o : Option Nat) (s : State), Req.clear r .no false s → s.bki.clmHold = false → n < 16 →
      (∀ i, o = some i → i < 512 ∧ ((s.inst i).exists_ = true ∨ (s.inst i).state = .resetting)) →
    Served (.tripAssign r n o) r 0x0707 s .ok [] fun u =>
      let v := match o with | some i => i + 1 | none => 0
      Only [.cgu, .persist] (take r s) u ∧ u.cgu.tripAssign.get n 0 = v
      ∧ (∀ j, j ≠ n → u.cgu.tripAssign.get j 0 = s.cgu.tripAssign.get j 0)
      ∧ (s.cgu.tripAssign.get n 0 = v → u.cgu.tripReq = s.cgu.tripReq) ∧ u.cgu.role = s.cgu.role)

/-- A request that passes the checks of R436 (R466, R467). KEY_LOAD, KEY_GENERATE and KEY_DERIVE write the value and the attributes
of an unlocked slot and answer its KCV, and a locked one keeps its value; the RESULT of a command that is refused is answered.
KEY_ERASE erases the slot, but none that the KSU itself writes (R410); KEY_ATTR_READ answers the attribute record; KEY_ASSIGN
and KEY_ATTR_WRITE keep the value, and no other slot changes. VERIFY_ENTRY past the 30 Gbit/s of R422 is refused. FAULT_READ
reads FE_CODE of its set, FAULT_COUNTS gives each reader the differences, INJECT arms where R380 and R490 allow, CAPTURE and
SET_QUIET write their set. BUCKET_SET, CURSOR2 and EVR_CONFIG write the recorder's registers; CODE_CATALOGUE lists codes;
WRITE_RECORD writes one record and answers its SEQ, or 0 where its bucket or a frozen ring keeps it out (log entry 5).
(14_mailbox_interface.md, 13_key_store.md, 12_faults_and_recorder.md) -/
def Obligations.KeyFaultAndRecorderRequests : Prop :=
  (∀ (r : Req) (n : Nat) (v : BitVec 256) (a : KeyArgs) (s : State), Req.clear r .no false s → n < 1024 → (s.slot n).lock = false →
      loadable n a.use s = true → a.ok = true →
    Served (.keyLoad r n v a) r 0x0800 s .ok [(kcvOf v).toNat] fun u =>
      Only [.ksu, .free] (take r s) u ∧ (∀ m, m ≠ n → u.slot m = s.slot m) ∧ u.slotValue n = v ∧ (u.slot n).valid = true
      ∧ (u.slot n).use = a.use ∧ (u.slot n).tag = a.tag ∧ (u.slot n).keyId = a.keyId ∧ (u.slot n).volatile = a.volatile
      ∧ (u.slot n).lock = decide (n < 8) ∧ u.ksu.keyIn = 0)
  ∧ (∀ (r : Req) (n : Nat) (v : BitVec 256) (a : KeyArgs) (s : State), Req.clear r .no false s → n < 1024 → (s.slot n).lock = true →
    Served (.keyLoad r n v a) r 0x0800 s .locked [] fun u => u = take r s)
  ∧ (∀ (r : Req) (n : Nat) (a : KeyArgs) (s : State), Req.clear r .no false s → 8 ≤ n → n < 1024 → a.ok = true → (s.slot n).lock = false →
      s.ksu.trngOk = true →
    Served (.keyGenerate r n a) r 0x0801 s .ok [(kcvOf (BitVec.ofNat 256 s.free1)).toNat] fun u =>
      Only [.ksu, .free] (take r s) u ∧ (∀ m, m ≠ n → u.slot m = s.slot m) ∧ u.slotValue n = BitVec.ofNat 256 s.free1
      ∧ (u.slot n).use = a.use ∧ (u.slot n).origin = 1 ∧ u.ksu.draws = s.ksu.draws + 1)
  ∧ (∀ (r : Req) (n : Nat) (a : KeyArgs) (s : State), Req.clear r .no false s → 8 ≤ n → n < 1024 → (s.slot n).lock = true →
    Served (.keyGenerate r n a) r 0x0801 s .locked [] fun u => u = take r s)
  ∧ (∀ (r : Req) (n : Nat) (p : Option Nat) (a : KeyArgs) (l c : List Byte) (s : State), Req.clear r .own false s → 8 ≤ n → n < 1024 →
      (∀ m, p = some m → m < 1024) → a.ok = true → deriveRefused .mgp n p a.use l.length c.length s = 0 →
    Served (.keyDerive r n p a l c) r 0x0802 s .ok [(kcvOf (derived p l c s)).toNat] fun u =>
      Only [.ksu, .free] (take r s) u ∧ (∀ m, m ≠ n → u.slot m = s.slot m) ∧ u.slotValue n = derived p l c s
      ∧ (u.slot n).use = a.use ∧ (u.slot n).origin = 2)
  ∧ (∀ (r : Req) (n : Nat) (p : Option Nat) (a : KeyArgs) (l c : List Byte) (k : Nat) (s : State), Req.clear r .own false s → 8 ≤ n → n < 1024 →
      (∀ m, p = some m → m < 1024) → a.ok = true → k ≠ 0 → deriveRefused .mgp n p a.use l.length c.length s = k →
    Served (.keyDerive r n p a l c) r 0x0802 s (.ksuResult k) [] fun u => Only [.ksu] (take r s) u ∧ u.ksu.slots = s.ksu.slots)
  ∧ (∀ (r : Req) (n : Nat) (s : State), Req.clear r .own false s → n < 1024 → fixedSlot n = false →
    Served (.keyErase r n) r 0x0803 s .ok [] fun u =>
      Only [.ksu, .insts, .bki, .evr, .mbx] (take r s) u ∧ ((s.slot n).byMgp = true → Only [.ksu] (take r s) u) ∧ u.slot n = {} ∧ (∀ m, m ≠ n → u.slot m = s.slot m) ∧ ∀ c ∈ u.ksu.saved, c.slot ≠ n)
  ∧ (∀ (r : Req) (n : Nat) (s : State), Req.clear r .own false s → fixedSlot n = true →
    Served (.keyErase r n) r 0x0803 s (.badParam 0) [] fun u => u = take r s)
  ∧ (∀ (r : Req) (n : Nat) (s : State), Req.clear r .own false s → n < 1024 →
    Served (.keyAttrRead r n) r 0x0804 s .ok [(s.slot n).record.toNat] fun u => u = take r s)
  ∧ (∀ (r : Req) (n i g : Nat) (s : State), Req.clear r .no false s → 8 ≤ n → n < 1024 → (s.slot n).lock = false → i < 512 →
      (s.inst i).exists_ = true → (s.inst i).gen = g → ((s.slot n).ownedBy i = true ∨ s.useKeys i < (s.inst i).share.keys) →
    Served (.keyAssign r n false i g) r 0x0805 s .ok [] fun u =>
      Only [.insts, .bki, .evr, .ksu, .mbx] (take r s) u ∧ (∀ m, m ≠ n → u.slot m = s.slot m) ∧ u.slotValue n = s.slotValue n
      ∧ (u.slot n).byMgp = false ∧ (u.slot n).owner = i ∧ (u.slot n).ownerGen = g ∧ (u.slot n).use = (s.slot n).use)
  ∧ (∀ (r : Req) (n i g : Nat) (s : State), Req.clear r .no false s → 8 ≤ n → n < 1024 → (s.slot n).lock = false →
    Served (.keyAssign r n true i g) r 0x0805 s .ok [] fun u =>
      Only [.insts, .bki, .evr, .ksu, .mbx] (take r s) u ∧ (∀ m, m ≠ n → u.slot m = s.slot m) ∧ u.slotValue n = s.slotValue n
      ∧ (u.slot n).byMgp = true)
  ∧ (∀ (r : Req) (n : Nat) (a : KeyArgs) (l d : Bool) (s : State), Req.clear r .no false s → 8 ≤ n → n < 1024 → (s.slot n).lock = false → a.ok = true →
    Served (.keyAttrWrite r n a l d) r 0x0806 s .ok [] fun u =>
      Only [.ksu, .free] (take r s) u ∧ (∀ m, m ≠ n → u.slot m = s.slot m) ∧ u.slotValue n = s.slotValue n
      ∧ (u.slot n).use = a.use ∧ (u.slot n).lock = l ∧ (u.slot n).derivable = d ∧ (u.slot n).valid = (s.slot n).valid)
  ∧ (∀ (r : Req) (n : Nat) (a : KeyArgs) (l d : Bool) (s : State), Req.clear r .no false s → 8 ≤ n → n < 1024 → (s.slot n).lock = true →
    Served (.keyAttrWrite r n a l d) r 0x0806 s .locked [] fun u => u = take r s)
  ∧ (∀ (r : Req) (n : Nat) (a : KeyArgs) (l d : Bool) (s : State), Req.clear r .no false s → n < 8 →
    Served (.keyAttrWrite r n a l d) r 0x0806 s (.badParam 0) [] fun u => u = take r s)
  ∧ (∀ (r : Req) (n : Nat) (e : VerEntry) (s : State), Req.clear r .no false s → n < 256 → isStreamIdx e.entry = true → e.slotA < 1024 →
      e.slotB < 1024 → otherVerified n e.entry s + (s.stream e.entry).rate ≤ 300000 →
    Served (.verifyEntry r n e) r 0x0807 s .ok [] fun u =>
      Only [.ksu, .persist] (take r s) u ∧ u.ksu = { s.ksu with ver := s.ksu.ver.set n e })
  ∧ (∀ (r : Req) (n : Nat) (e : VerEntry) (s : State), Req.clear r .no false s → n < 256 → isStreamIdx e.entry = true → e.slotA < 1024 →
      e.slotB < 1024 → e.valid = true → 300000 < otherVerified n e.entry s + (s.stream e.entry).rate →
    Served (.verifyEntry r n e) r 0x0807 s (.admission 0 0) [] fun u => u = take r s)
  ∧ (∀ (r : Req) (n : Nat) (s : State), Req.clear r .no false s → n ≤ 1 →
    Served (.verifyEnable r n) r 0x0808 s .ok [] fun u =>
      Only [.ksu, .persist] (take r s) u ∧ u.ksu = { s.ksu with verifyEn := n == 1 })
  ∧ (∀ (r : Req) (b : BlockId) (k : Nat) (s : State), Req.clear r .no false s → isSet b k = true →
    ∃ vals, Served (.faultRead r b k) r 0x0900 s .ok vals fun u =>
      Only [.faults] (take r s) u ∧ u.fset b k = { s.fset b k with feBuf := (s.fset b k).fe }
      ∧ vals = [(u.fset b k).reg 0x00] ++ (u.fset b k).feRegs ++ [(u.fset b k).reg 0x44, (u.fset b k).reg 0x4C]
      ∧ ∀ q, q ≠ setKey b k → u.faults.sets.get q {} = s.faults.sets.get q {})
  ∧ (∀ (r : Req) (k : Nat) (s : State), Req.clear r .no false s → k < 4 →
    Served (.faultCounts r k) r 0x0901 s .ok ((allCounts k s).map fun c => c.2 - s.faults.readers.get c.1 0) fun u =>
      Only [.faults] (take r s) u ∧ u.faults = { s.faults with readers := u.faults.readers })
  ∧ (∀ (r : Req) (b : BlockId) (k kind pos : Nat) (pat : BitVec 8) (f : Bool) (s : State), Req.clear r .no false s → isSet b k = true →
      kind ≤ 3 → pos ≤ 17 → pat ≠ 0 → (s.fset b k).injArm = false → injectRefused b kind f s = none →
    ∃ vals, Served (.inject r b k true kind false pos pat f) r 0x0902 s .ok vals fun u =>
      Only [.faults] (take r s) u ∧ vals = [(u.fset b k).injReg] ∧ (∀ q, q ≠ setKey b k → u.faults.sets.get q {} = s.faults.sets.get q {})
      ∧ u.fset b k = { s.fset b k with
                       injArm := true
                       injMode := false
                       injState := 1
                       injKind := kind
                       injPos := pos
                       injPattern := pat
                       injAt := s.now })
  ∧ (∀ (r : Req) (b : BlockId) (k kind pos n : Nat) (mode : Bool) (pat : BitVec 8) (f : Bool) (s : State), Req.clear r .no false s →
      isSet b k = true → injectable kind mode = true → pos ≤ 17 → pat ≠ 0 → (s.fset b k).injArm = false → injectRefused b kind f s = some n →
    Served (.inject r b k true kind mode pos pat f) r 0x0902 s (.state n) [] fun u => u = take r s)
  ∧ (∀ (r : Req) (b : BlockId) (k : Nat) (l re : Bool) (s : State), Req.clear r .no false s → isSet b k = true →
    ∃ vals, Served (.capture r b k l re) r 0x0903 s .ok vals fun u =>
      Only [.faults] (take r s) u ∧ vals = [(u.fset b k).stat] ∧ (∀ q, q ≠ setKey b k → u.faults.sets.get q {} = s.faults.sets.get q {})
      ∧ let x := (l || (s.season.season == .spring && b != .bki))
        u.fset b k = { s.fset b k with
                       capture := x
                       captureAct := x
                       feValid := (s.fset b k).feValid && (x || !re)
                       overflow := (s.fset b k).overflow && (x || !re) })
  ∧ (∀ (r : Req) (b : BlockId) (k n : Nat) (s : State), Req.clear r .no false s → isSet b k = true → 100 ≤ n → n ≤ 3600000 →
    Served (.setQuiet r b k n) r 0x0904 s .ok [] fun u =>
      Only [.faults, .persist] (take r s) u ∧ u.fset b k = { s.fset b k with quietMs := n }
      ∧ ∀ q, q ≠ setKey b k → u.faults.sets.get q {} = s.faults.sets.get q {})
  ∧ (∀ (r : Req) (c m n i : Nat) (s : State), Req.clear r .no false s → 16 ≤ c → c < 1024 → m ≤ 2 → 1 ≤ n → n ≤ 1023 → 10 ≤ i → i ≤ 1000000 →
    Served (.bucketSet r c m n i) r 0x0905 s .ok [] fun u =>
      Only [.evr, .persist] (take r s) u ∧ (∀ d, d ≠ c → u.evr.bucket d = s.evr.bucket d) ∧ (u.evr.bucket c).mode = m
      ∧ (u.evr.bucket c).burst = n ∧ (u.evr.bucket c).intervalUs = i ∧ (u.evr.bucket c).tokens = min (s.evr.bucket c).tokens n
      ∧ (u.evr.bucket c).suppCount = (s.evr.bucket c).suppCount ∧ u.evr.posts = s.evr.posts)
  ∧ (∀ (r : Req) (s : State), Req.clear r .no false s → s.evr.cur2Alloc = false →
    Served (.cursor2 r 1) r 0x0906 s .ok [] fun u =>
      Only [.evr] (take r s) u
      ∧ u.evr = { s.evr with cur2Alloc := true, cursors := s.evr.cursors.set 2 { seq := s.evr.oldest } })
  ∧ (∀ (r : Req) (s : State), Req.clear r .no false s → s.evr.cur2Alloc = true →
    Served (.cursor2 r 1) r 0x0906 s .busy [] fun u => u = take r s)
  ∧ (∀ (r : Req) (a n : Nat) (s : State), Req.clear r .yes false s → a < 1024 → a + n ≤ 1024 →
    Served (.codeCatalogue r a n) r 0x0907 s .ok ((List.range n).flatMap fun k => (a + k) :: Config.codeName (a + k)) fun u => u = take r s)
  ∧ (∀ (r : Req) (c : Nat) (d : List Byte) (s : State), Req.clear r .yes false s → 0x3E0 ≤ c → c < 0x400 → d.length = 28 →
    ∃ n, Served (.writeRecord r c d) r 0x0908 s .ok [n] fun u =>
      Only [.evr] (take r s) u ∧ (n ≠ 0 → ∃ x, u.evr.ring.head? = some x ∧ x.seq = n ∧ x.code = c))
  ∧ (∀ (r : Req) (c : Nat) (d : List Byte) (s : State), Req.clear r .yes false s → 0x3E0 ≤ c → c < 0x400 → d.length = 28 →
      s.evr.running = true → s.evr.frozen = false → s.evr.posts = [] → (∀ a, (s.evr.bucket c).refillAt = some a → s.now < a) →
      (s.evr.treat (s.occ .mgp 0 c 0 .mgp d) = .pass ∨ s.evr.treat (s.occ .mgp 0 c 0 .mgp d) = .token) → nextSeq s.evr.next ≠ s.evr.next →
    Served (.writeRecord r c d) r 0x0908 s .ok [s.evr.next] fun u =>
      Only [.evr] (take r s) u ∧ u.evr.next = nextSeq s.evr.next ∧ u.evr.posts = []
      ∧ u.evr.ring = ({ s.occ .mgp 0 c 0 .mgp d with seq := s.evr.next } :: s.evr.ring).take 65536)
  ∧ (∀ (r : Req) (c : Nat) (d : List Byte) (s : State), Req.clear r .yes false s → 0x3E0 ≤ c → c < 0x400 → d.length = 28 →
      s.evr.running = true → s.evr.frozen = true →
    Served (.writeRecord r c d) r 0x0908 s .ok [0] fun u =>
      Only [.evr] (take r s) u ∧ u.evr.ring = s.evr.ring ∧ u.evr.next = s.evr.next)
  ∧ (∀ (r : Req) (l v : Bool) (s : State), Req.clear r .no false s →
    Served (.evrConfig r l v) r 0x0909 s .ok [] fun u =>
      Only [.evr, .persist] (take r s) u ∧ u.evr = { s.evr with limitEn := l, saveEn := v })

/-- While the MGP is not running a line does nothing (R511). Every read command changes only the monitor's output and its line time
(R517), but for FE_CODE's buffer, the snapshot of STATS for reader 3, and cursor 3 of EVR; PEEK of a register whose read has an
effect is refused with its error (R518). UNLOCK without DEV_EN issues no challenge; with it, slot 0x004 valid and the waiting
time over, it issues a drawn one (R424, R519). RESP with the expected response unlocks and clears the failures; another raises
them; each challenge serves once, and without one nothing happens. LOCK, 1,800 s without a line, or DEV_EN low relock (R520). A
challenge ends after 60 s and counts as no attempt. BAUD applies a listed rate, which ends after 10 s without a line (R512). MBX
does nothing while locked; unlocked, a request has its opcode's effect and is cached for the monitor (R447, R520).
(17_ouvtu_monitor.md, 13_key_store.md) -/
def Obligations.MonitorLinesAndLock : Prop :=
  (∀ (b : BlockId) (k o n i : Nat) (e : Option Nat) (p : CntPage) (d : Bool) (c : BitVec 64) (r : Req) (m : MonReq) (s : State),
      s.persist.fwUp = false → ∀ l ∈ [Instr.monHelp, .monId, .monStatus, .monTime, .monFaults, .monFault b k, .monStats p, .monInst i, .monEvr e,
        .monPeek b k o n, .monUnlock d, .monResp c, .monLock, .monBaud n, .monMbx r m, .monLineRefused d], exec l s = .next s)
  ∧ (∀ (s : State), s.persist.fwUp = true →
      let P := fun (t : State) => Only [.mon] s t ∧ t.mon.lineAt = s.now ∧ t.mon.baudAt = none ∧ t.mon.baud = s.mon.baud
        ∧ t.mon.unlocked = s.mon.unlocked ∧ t.mon.challenge = s.mon.challenge ∧ t.mon.fails = s.mon.fails ∧ t.mon.cache = s.mon.cache
      Completes (.monHelp) s P ∧ Completes (.monId) s P ∧ Completes (.monStatus) s P ∧ Completes (.monTime) s P
      ∧ Completes (.monFaults) s P)
  ∧ (∀ (b : BlockId) (k : Nat) (s : State), s.persist.fwUp = true → isSet b k = true →
    Completes (.monFault b k) s fun t =>
      Only [.faults, .mon] s t ∧ t.fset b k = { s.fset b k with feBuf := (s.fset b k).fe } ∧ t.mon.unlocked = s.mon.unlocked
      ∧ ∀ q, q ≠ setKey b k → t.faults.sets.get q {} = s.faults.sets.get q {})
  ∧ (∀ (p : CntPage) (s : State), s.persist.fwUp = true → p.exists_ = true →
    Completes (.monStats p) s fun t =>
      Only [.ports, .sw, .sce, .sched, .time, .acq, .bki, .evr, .ksu, .cgu, .ocu, .mlk, .mbx, .mon, .free] s t ∧ p.live t = []
      ∧ (∀ q, q ≠ p → q.live t = q.live s) ∧ ∀ n, n < p.count → t.mbx.statReaders.get (totalKey 3 p n) 0 = 0)
  ∧ (∀ (i : Nat) (s : State), s.persist.fwUp = true →
    Completes (.monInst i) s fun t => Only [.mon] s t ∧ t.mon.unlocked = s.mon.unlocked ∧ t.mon.lineAt = s.now)
  ∧ (∀ (n : Option Nat) (c : Cursor) (s : State), s.persist.fwUp = true → (∀ k, n = some k → 1 ≤ k ∧ k ≤ 64) → s.evr.cursors[3]? = some c →
      c.busy = false →
    Completes (.monEvr n) s fun t =>
      Only [.evr, .mon] s t ∧ t.mon.printed ≤ n.getD 0 ∧ t.evr.next = s.evr.next ∧ t.evr.oldest = s.evr.oldest ∧ t.evr.posts = s.evr.posts
      ∧ (∀ j, j ≠ 3 → t.evr.cursors[j]? = s.evr.cursors[j]?) ∧ (t.evr.cursors.getD 3 {}).busy = false)
  ∧ (∀ (b : BlockId) (u o n : Nat) (s : State), s.persist.fwUp = true → u < b.units → o % 4 = 0 → 1 ≤ n → n ≤ 16 →
      (∀ k, k < n → sideEffect b (o + 4 * k) = false) →
    Completes (.monPeek b u o n) s fun t => Only [.mon] s t ∧ t.mon.unlocked = s.mon.unlocked ∧ t.mon.lineAt = s.now)
  ∧ (∀ (b : BlockId) (u o n k : Nat) (s : State), s.persist.fwUp = true → u < b.units → o % 4 = 0 → 1 ≤ n → n ≤ 16 → k < n →
      sideEffect b (o + 4 * k) = true → s.mon.lost = 0 →
    Completes (.monPeek b u o n) s fun t =>
      Only [.mon] s t
      ∧ (if s.mon.pendingOut s.now + Config.lineLen [1, 0x0106] ≤ 16384 then t.mon.out = [{ name := 1, vals := [0x0106] }]
         else t.mon.out = [] ∧ t.mon.lost = 1))
  ∧ (∀ (s : State), s.persist.fwUp = true →
    Completes (.monUnlock false) s fun t =>
      Only [.power, .mon] s t ∧ t.mon.challenge = none ∧ t.mon.unlocked = s.mon.unlocked ∧ t.mon.lastIssue = s.mon.lastIssue)
  ∧ (∀ (s : State), s.persist.fwUp = true → (s.slot 4).valid = true → waitLeft s = none →
    Completes (.monUnlock true) s fun t =>
      Only [.power, .ksu, .mon, .free] s t ∧ t.mon.challenge = some (BitVec.ofNat 64 s.free1) ∧ t.mon.challengeAt = s.now
      ∧ t.mon.lastIssue = some s.now ∧ t.mon.unlocked = s.mon.unlocked ∧ t.mon.fails = s.mon.fails ∧ t.ksu.slots = s.ksu.slots)
  ∧ (∀ (n : Nat) (s : State), s.persist.fwUp = true → (s.slot 4).valid = true → waitLeft s = some n →
    Completes (.monUnlock true) s fun t =>
      Only [.power, .mon] s t ∧ t.mon.challenge = none ∧ t.mon.lastIssue = s.mon.lastIssue ∧ t.mon.unlocked = s.mon.unlocked)
  ∧ (∀ (c : BitVec 64) (s : State), s.persist.fwUp = true → s.mon.challenge = some c → (s.slot 4).valid = true → (s.slot 4).unusable = false →
    Completes (.monResp (expected c s)) s fun t =>
      Only [.ksu, .bki, .evr, .mon] s t ∧ t.mon.unlocked = true ∧ t.mon.fails = 0 ∧ t.mon.challenge = none
      ∧ t.ksu = { s.ksu with live := bump s.ksu.live 10 })
  ∧ (∀ (c v : BitVec 64) (s : State), s.persist.fwUp = true → s.mon.challenge = some c →
      ((s.slot 4).valid = false ∨ (s.slot 4).unusable = true ∨ v ≠ expected c s) →
    Completes (.monResp v) s fun t =>
      Only [.ksu, .bki, .evr, .mon] s t ∧ t.mon.unlocked = s.mon.unlocked ∧ t.mon.fails = s.mon.fails + 1 ∧ t.mon.challenge = none
      ∧ t.ksu = { s.ksu with live := bump s.ksu.live 11 })
  ∧ (∀ (v : BitVec 64) (s : State), s.persist.fwUp = true → s.mon.challenge = none →
    Completes (.monResp v) s fun t => Only [.mon] s t ∧ t.mon.unlocked = s.mon.unlocked ∧ t.mon.fails = s.mon.fails)
  ∧ (∀ (s : State), s.persist.fwUp = true → s.mon.lost = 0 →
    Completes (.monLock) s fun t =>
      Only [.mon] s t ∧ t.mon.unlocked = false ∧ t.mon.lineAt = s.now ∧ t.mon.challenge = s.mon.challenge
      ∧ (if s.mon.pendingOut s.now + Config.lineLen [0] ≤ 16384 then t.mon.out = [{ name := 0, vals := [] }]
         else t.mon.out = [] ∧ t.mon.lost = 1))
  ∧ (∀ (s : State), s.mon.unlocked = true → s.mon.lineAt + sec 1800 ≤ s.now →
    Completes (.monIdleRelock) s fun t => Only [.mon] s t ∧ t.mon = { s.mon with unlocked := false })
  ∧ (∀ (s : State),
    Completes (.devEnLow) s fun t =>
      Only [.power, .mon] s t ∧ t.mon = { s.mon with unlocked := false } ∧ t.power = { s.power with devEn := false })
  ∧ (∀ (c : BitVec 64) (s : State), s.mon.challenge = some c → s.mon.challengeAt + sec 60 ≤ s.now →
    Completes (.challengeExpiry) s fun t => Only [.mon] s t ∧ t.mon = { s.mon with challenge := none })
  ∧ (∀ (n : Nat) (s : State), s.persist.fwUp = true → baudRates.contains n = true →
    Completes (.monBaud n) s fun t =>
      Only [.mon] s t ∧ t.mon.baud = n ∧ t.mon.baudAt = some s.now ∧ t.mon.lineAt = s.now ∧ t.mon.unlocked = s.mon.unlocked)
  ∧ (∀ (n : Nat) (s : State), s.persist.fwUp = true → baudRates.contains n = false →
    Completes (.monBaud n) s fun t => Only [.mon] s t ∧ t.mon.baud = s.mon.baud ∧ t.mon.baudAt = none)
  ∧ (∀ (a : Nat) (s : State), s.mon.baudAt = some a → a + sec 10 ≤ s.now →
    Completes (.baudRevert) s fun t =>
      Only [.mon] s t ∧ t.mon.baud = 115200 ∧ t.mon.baudAt = none ∧ t.mon.unlocked = s.mon.unlocked
      ∧ (s.mon.lost = 0 → s.mon.pendingOut s.now + Config.lineLen [9, b2n s.mon.unlocked] ≤ 16384 →
          { name := 9, vals := [b2n s.mon.unlocked] } ∈ t.mon.out))
  ∧ (∀ (b : Bool) (s : State), s.persist.fwUp = true →
    Completes (.monLineRefused b) s fun t =>
      Only [.mon] s t ∧ t.mon.lineAt = (if b then s.mon.lineAt else s.now) ∧ t.mon.baudAt = (if b then s.mon.baudAt else none)
      ∧ t.mon.unlocked = s.mon.unlocked ∧ t.mon.cache = s.mon.cache)
  ∧ (∀ (r : Req) (m : MonReq) (s : State), s.persist.fwUp = true → s.mon.unlocked = false →
    Completes (.monMbx r m) s fun t => Only [.mon] s t ∧ t.mon.unlocked = false ∧ t.mon.cache = s.mon.cache ∧ t.mon.waiting = s.mon.waiting)
  ∧ (∀ (r : Req) (m : MonReq) (s : State), s.persist.fwUp = true → s.mon.unlocked = true → r.crcOk = true → r.slow = false →
      ((liveCache s.mon.cache s).find? fun x => x.tag == r.tag) = none →
      precheck (monOp m).1 { r with src := .mon } .yes (monOp m).2.1 (lineTaken s) = none →
      let v := (monOp m).2.2 { r with src := .mon } (lineTaken s)
      v.1.persist.fwUp = true → v.2.status ≠ .restarted → v.2.status ≠ .timeout →
    Completes (.monMbx r m) s fun t =>
      Only [.mon] v.1 t ∧ t.mon.unlocked = v.1.mon.unlocked ∧ t.mon.waiting = v.1.mon.waiting
      ∧ ∃ x ∈ t.mon.cache, x.tag = r.tag ∧ x.crc = r.crc ∧ x.atNs = s.now ∧ x.resp.status = v.2.status ∧ x.resp.result = v.2.result)
  ∧ (∀ (r : Req) (m : MonReq) (x : TagRec) (s : State), s.persist.fwUp = true → s.mon.unlocked = true → r.crcOk = true →
      ((liveCache s.mon.cache s).find? fun x => x.tag == r.tag) = some x →
    Completes (.monMbx r m) s fun t => Only [.mon] s t ∧ t.mon.unlocked = true ∧ t.mon.cache = liveCache s.mon.cache s)
end

