-- ==== Sys2Proof/Laws/Code.lean ====
section
/-!
SUPPORT. Laws/Code.lean: the code of R53 to R56 over a word and its address. A codeword read at the address it was written for has both
syndromes 0, whatever the address symbols are.
-/
namespace Sys2Proof.Machine
open Sys2Proof

theorem foldl_xor (l : List Byte) (x : Byte) : l.foldl (· ^^^ ·) x = x ^^^ l.foldl (· ^^^ ·) 0 := by
  induction l generalizing x with
  | nil => simp
  | cons b t ih => simp only [List.foldl_cons]; rw [ih (x ^^^ b), ih (0 ^^^ b)]; simp [BitVec.xor_assoc]

theorem weightedSum_append (l m : List Byte) (p : Nat) : weightedSum (l ++ m) p = weightedSum l p ^^^ weightedSum m (p + l.length) := by
  induction l generalizing p with
  | nil => simp [weightedSum]
  | cons b t ih => simp [weightedSum, ih, BitVec.xor_assoc, Nat.add_assoc, Nat.add_comm 1]

/-- c0 of R54 stands at position 0 and c1 at position 1, and the data symbols follow. -/
theorem symbols_encodeWord (data : BitVec 128) (a : List Byte) :
    (List.range 18).map (symbolAt (encodeWord data a)) =
      (checkSymbols ((List.range 16).map fun k => ((data >>> (8 * k)).setWidth 8 : Byte)) a).1
      :: (checkSymbols ((List.range 16).map fun k => ((data >>> (8 * k)).setWidth 8 : Byte)) a).2
      :: (List.range 16).map fun k => ((data >>> (8 * k)).setWidth 8 : Byte) := by
  have h : List.range 18 = 0 :: 1 :: (List.range 16).map (· + 2) := by decide
  rw [h, List.map_cons, List.map_cons, List.map_map]
  simp only [encodeWord]
  generalize checkSymbols _ a = c
  refine congrArg₂ List.cons ?_ (congrArg₂ List.cons ?_ (List.map_congr_left fun k hk => ?_))
  · ext i hi
    simp [symbolAt, show 128 + i < 144 by omega, show i < 144 by omega, show 128 + i < 136 by omega, BitVec.getLsbD_eq_getElem hi]
  · ext i hi
    simp [symbolAt, show 136 + i < 144 by omega, show i < 144 by omega, show ¬ 136 + i < 128 by omega,
      BitVec.getLsbD_of_ge data (136 + i) (by omega), BitVec.getLsbD_of_ge c.1 (136 + i - 128) (by omega), BitVec.getLsbD_eq_getElem hi]
  · have hk := List.mem_range.mp hk
    ext i hi
    simp [symbolAt, show 8 * k + i < 144 by omega, show 8 * k + i < 128 by omega, show 8 * k + i < 136 by omega]

/-- R53, R54: a codeword met at its own address. -/
theorem encodeWord_sound (data : BitVec 128) (a : List Byte) :
    syn0 { word := encodeWord data a, addr := a } = 0 ∧ syn1 { word := encodeWord data a, addr := a } = 0 := by
  have hz : ∀ z : Byte, gfMul z 0xF4 ^^^ gfMul (gfMul z 0xF4) 2 = z := by decide +kernel
  have h1 : ∀ z : Byte, gfMul z 1 = z := by decide +kernel
  simp only [syn0, syn1, symbols, symbols_encodeWord]
  have hl : ((List.range 16).map fun k => ((data >>> (8 * k)).setWidth 8 : Byte)).length = 16 := by simp
  generalize (List.range 16).map (fun k => ((data >>> (8 * k)).setWidth 8 : Byte)) = d at hl ⊢
  have hw : weightedSum (d ++ a) 2 = weightedSum d 2 ^^^ weightedSum a 18 := by rw [weightedSum_append, hl]
  simp only [List.cons_append, List.foldl_cons, weightedSum, hw, checkSymbols]
  generalize hp : (d ++ a).foldl (· ^^^ ·) 0 = p
  generalize weightedSum d 2 ^^^ weightedSum a 18 = q
  constructor
  · rw [foldl_xor, hp]
    ext i hi
    simp
  · have := hz (p ^^^ q)
    simp only [gfPow, show gfDouble 1 = (2 : Byte) by decide, h1]
    generalize gfMul (p ^^^ q) 0xF4 = c at this ⊢
    have hc : p ^^^ c ^^^ (gfMul c 2 ^^^ q) = (c ^^^ gfMul c 2) ^^^ (p ^^^ q) := by ac_rfl
    rw [hc, this, BitVec.xor_self]
    rfl

theorem symbolAt_xor (x y : BitVec 144) (p : Nat) : symbolAt (x ^^^ y) p = symbolAt x p ^^^ symbolAt y p := by
  simp only [symbolAt]
  split_ifs <;> ext i hi <;> simp

theorem gfDouble_xor (x y : Byte) : gfDouble (x ^^^ y) = gfDouble x ^^^ gfDouble y := by
  simp only [gfDouble, BitVec.getLsbD_xor, BitVec.shiftLeft_xor_distrib]
  generalize x <<< 1 = u
  generalize y <<< 1 = v
  cases x.getLsbD 7 <;> cases y.getLsbD 7 <;> simp <;> ext i hi <;> simp <;> cases u[i] <;> cases v[i] <;> simp

theorem gfMul_xor (x y z : Byte) : gfMul (x ^^^ y) z = gfMul x z ^^^ gfMul y z := by
  have h : ∀ n z, gfMulBits (x ^^^ y) z n = gfMulBits x z n ^^^ gfMulBits y z n := by
    intro n
    induction n with
    | zero => intro z; simp [gfMulBits]
    | succ n ih =>
      intro z
      simp only [gfMulBits, ih, gfDouble_xor]
      generalize gfDouble (gfMulBits x (z >>> 1) n) = u
      generalize gfDouble (gfMulBits y (z >>> 1) n) = v
      split_ifs
      · ac_rfl
      · simp
  exact h 8 z

theorem mix (u v p q : Byte) : 0 ^^^ (u ^^^ v) ^^^ (p ^^^ q) = 0 ^^^ u ^^^ p ^^^ (0 ^^^ v ^^^ q) := by
  ext i hi
  simp
  cases u[i] <;> cases v[i] <;> cases p[i] <;> cases q[i] <;> rfl

/-- R53: what has changed in a word adds its own syndromes to the word's. -/
theorem syn0_error (w e : BitVec 144) (a : List Byte) :
    syn0 { word := w ^^^ e, addr := a } = syn0 { word := w, addr := a } ^^^ syn0 { word := e, addr := [] } := by
  simp only [syn0, symbols, List.append_nil, List.foldl_append]
  have h : ∀ l : List Nat, (l.map (symbolAt (w ^^^ e))).foldl (· ^^^ ·) 0
      = (l.map (symbolAt w)).foldl (· ^^^ ·) 0 ^^^ (l.map (symbolAt e)).foldl (· ^^^ ·) 0 := by
    intro l
    induction l with
    | nil => simp
    | cons k t ih =>
      simp only [List.map_cons, List.foldl_cons]
      rw [foldl_xor _ (0 ^^^ symbolAt (w ^^^ e) k), foldl_xor _ (0 ^^^ symbolAt w k), foldl_xor _ (0 ^^^ symbolAt e k), ih, symbolAt_xor]
      exact mix _ _ _ _
  rw [h, foldl_xor a (_ ^^^ _), foldl_xor a (List.foldl _ _ _)]
  ac_rfl

theorem syn1_error (w e : BitVec 144) (a : List Byte) :
    syn1 { word := w ^^^ e, addr := a } = syn1 { word := w, addr := a } ^^^ syn1 { word := e, addr := [] } := by
  simp only [syn1, symbols, List.append_nil, weightedSum_append, List.length_map]
  have h : ∀ (l : List Nat) (p : Nat), weightedSum (l.map (symbolAt (w ^^^ e))) p
      = weightedSum (l.map (symbolAt w)) p ^^^ weightedSum (l.map (symbolAt e)) p := by
    intro l
    induction l with
    | nil => intro p; simp [weightedSum]
    | cons k t ih =>
      intro p
      simp only [List.map_cons, weightedSum, ih, symbolAt_xor, gfMul_xor]
      ac_rfl
  rw [h]
  ac_rfl

/-- R56: a sound codeword decodes to its data, with no finding. -/
theorem decodeWord_sound (data : BitVec 128) (a : List Byte) : (decodeWord { word := encodeWord data a, addr := a }).kind = none := by
  obtain ⟨h0, h1⟩ := encodeWord_sound data a
  simp [decodeWord, h0, h1, syndromeKind]

/-- R53 to R56: a word that nothing has changed is read without a finding. -/
theorem seen_sound (off : Nat) (d x : BitVec 128) (st : Storage) (a : Nat) :
    (decodeWord (WordRead.seen { off := off, data := x } st a d)).kind = none := by
  simpa [WordRead.seen, Storage.codeword] using decodeWord_sound d (st.symbols a)

/-- R56: with changed bits the finding is that of the changed bits alone, but for a wrong address, which the number of address symbols bounds. -/
theorem seen_error (off : Nat) (d x : BitVec 128) (e : BitVec 144) (st : Storage) (a : Nat) :
    (decodeWord (WordRead.seen { off := off, data := x, err := e } st a d)).kind
      = syndromeKind (syn0 { word := e, addr := [] }) (syn1 { word := e, addr := [] }) (st.symbols a).length := by
  obtain ⟨h0, h1⟩ := encodeWord_sound d (st.symbols a)
  simp [WordRead.seen, Storage.codeword, decodeWord, syn0_error, syn1_error, h0, h1]

/-- R56: a sound codeword decodes to its data. -/
theorem decodeWord_data (data : BitVec 128) (a : List Byte) : (decodeWord { word := encodeWord data a, addr := a }).data = data := by
  obtain ⟨h0, h1⟩ := encodeWord_sound data a
  simp only [decodeWord, h0, h1]
  ext i hi
  simp [syndromeKind, encodeWord]

/-- Without an armed injection a reader finds what its decoder finds. -/
theorem readFound_plain (b : BlockId) (u : Nat) (r : CodeRead) (s : State) (hi : (s.fset b u).injArm = false) :
    (readFound b u r s).syn = decodeWord r := by
  simp [readFound, hi]

end Sys2Proof.Machine
end

