-- ==== Sys2Proof/Laws/Only.lean ====
section
/-!
SUPPORT. Laws/Only.lean: how the frame relation Only composes, and what each update of one part of the state may change. A lemma X_only
of the files that follow says once, for one shared operation, every part of the state that it can change, on top of whatever stands before it.
-/
namespace Sys2Proof.Machine
open Sys2Proof

@[simp] theorem Only.refl (ps : List Part) (s : State) : Only ps s s := ⟨fun p _ => by cases p <;> rfl⟩

theorem Only.trans {ps : List Part} {s t u : State} (h : Only ps s t) (k : Only ps t u) : Only ps s u :=
  ⟨fun p hp => by have a := h.same p hp; have b := k.same p hp; cases p <;> exact b.trans a⟩

theorem Only.mono {ps qs : List Part} {s t : State} (h : Only ps s t) (k : ∀ p ∈ ps, p ∈ qs) : Only qs s t := ⟨fun p hp => h.same p (fun x => hp (k p x))⟩

theorem Only.step {ps qs : List Part} {s t u : State} (h : Only qs s t) (k : Only ps t u) (m : ∀ p ∈ ps, p ∈ qs) : Only qs s u := h.trans (k.mono m)
@[simp] theorem only_ite {ps : List Part} {s a b : State} (c : Prop) [Decidable c] : Only ps s (if c then a else b) ↔ (c → Only ps s a) ∧ (¬ c → Only ps s b) := by
  split <;> simp [*]
@[simp] theorem foldl_only {α : Type} {ps : List Part} {s t : State} (l : List α) (f : State → α → State) (h : Only ps s t) (k : ∀ t a, Only ps t (f t a)) : Only ps s (l.foldl f t) := by
  induction l generalizing t with
  | nil => exact h
  | cons a l ih => exact ih (h.trans (k t a))
@[simp] theorem State.modFab_only {ps : List Part} {s t : State} (f) (h : Only ps s t) (m : Part.fab ∈ ps) : Only ps s (t.modFab f) := by
  refine ⟨fun p hp => ?_⟩; have a := h.same p hp; cases p <;> first | exact a | exact absurd m hp
@[simp] theorem State.modPorts_only {ps : List Part} {s t : State} (f) (h : Only ps s t) (m : Part.ports ∈ ps) : Only ps s (t.modPorts f) := by
  refine ⟨fun p hp => ?_⟩; have a := h.same p hp; cases p <;> first | exact a | exact absurd m hp
@[simp] theorem State.modHead_only {ps : List Part} {s t : State} (f) (h : Only ps s t) (m : Part.head ∈ ps) : Only ps s (t.modHead f) := by
  refine ⟨fun p hp => ?_⟩; have a := h.same p hp; cases p <;> first | exact a | exact absurd m hp
@[simp] theorem State.modWake_only {ps : List Part} {s t : State} (f) (h : Only ps s t) (m : Part.wake ∈ ps) : Only ps s (t.modWake f) := by
  refine ⟨fun p hp => ?_⟩; have a := h.same p hp; cases p <;> first | exact a | exact absurd m hp
@[simp] theorem State.modSw_only {ps : List Part} {s t : State} (f) (h : Only ps s t) (m : Part.sw ∈ ps) : Only ps s (t.modSw f) := by
  refine ⟨fun p hp => ?_⟩; have a := h.same p hp; cases p <;> first | exact a | exact absurd m hp
@[simp] theorem State.modSce_only {ps : List Part} {s t : State} (f) (h : Only ps s t) (m : Part.sce ∈ ps) : Only ps s (t.modSce f) := by
  refine ⟨fun p hp => ?_⟩; have a := h.same p hp; cases p <;> first | exact a | exact absurd m hp
@[simp] theorem State.modInsts_only {ps : List Part} {s t : State} (f) (h : Only ps s t) (m : Part.insts ∈ ps) : Only ps s (t.modInsts f) := by
  refine ⟨fun p hp => ?_⟩; have a := h.same p hp; cases p <;> first | exact a | exact absurd m hp
@[simp] theorem State.modSched_only {ps : List Part} {s t : State} (f) (h : Only ps s t) (m : Part.sched ∈ ps) : Only ps s (t.modSched f) := by
  refine ⟨fun p hp => ?_⟩; have a := h.same p hp; cases p <;> first | exact a | exact absurd m hp
@[simp] theorem State.modEg_only {ps : List Part} {s t : State} (f) (h : Only ps s t) (m : Part.eg ∈ ps) : Only ps s (t.modEg f) := by
  refine ⟨fun p hp => ?_⟩; have a := h.same p hp; cases p <;> first | exact a | exact absurd m hp
@[simp] theorem State.modCgu_only {ps : List Part} {s t : State} (f) (h : Only ps s t) (m : Part.cgu ∈ ps) : Only ps s (t.modCgu f) := by
  refine ⟨fun p hp => ?_⟩; have a := h.same p hp; cases p <;> first | exact a | exact absurd m hp
@[simp] theorem State.modOcu_only {ps : List Part} {s t : State} (f) (h : Only ps s t) (m : Part.ocu ∈ ps) : Only ps s (t.modOcu f) := by
  refine ⟨fun p hp => ?_⟩; have a := h.same p hp; cases p <;> first | exact a | exact absurd m hp
@[simp] theorem State.modMlk_only {ps : List Part} {s t : State} (f) (h : Only ps s t) (m : Part.mlk ∈ ps) : Only ps s (t.modMlk f) := by
  refine ⟨fun p hp => ?_⟩; have a := h.same p hp; cases p <;> first | exact a | exact absurd m hp
@[simp] theorem State.modTime_only {ps : List Part} {s t : State} (f) (h : Only ps s t) (m : Part.time ∈ ps) : Only ps s (t.modTime f) := by
  refine ⟨fun p hp => ?_⟩; have a := h.same p hp; cases p <;> first | exact a | exact absurd m hp
@[simp] theorem State.modAcq_only {ps : List Part} {s t : State} (f) (h : Only ps s t) (m : Part.acq ∈ ps) : Only ps s (t.modAcq f) := by
  refine ⟨fun p hp => ?_⟩; have a := h.same p hp; cases p <;> first | exact a | exact absurd m hp
@[simp] theorem State.modBki_only {ps : List Part} {s t : State} (f) (h : Only ps s t) (m : Part.bki ∈ ps) : Only ps s (t.modBki f) := by
  refine ⟨fun p hp => ?_⟩; have a := h.same p hp; cases p <;> first | exact a | exact absurd m hp
@[simp] theorem State.modSeason_only {ps : List Part} {s t : State} (f) (h : Only ps s t) (m : Part.season ∈ ps) : Only ps s (t.modSeason f) := by
  refine ⟨fun p hp => ?_⟩; have a := h.same p hp; cases p <;> first | exact a | exact absurd m hp
@[simp] theorem State.modFaults_only {ps : List Part} {s t : State} (f) (h : Only ps s t) (m : Part.faults ∈ ps) : Only ps s (t.modFaults f) := by
  refine ⟨fun p hp => ?_⟩; have a := h.same p hp; cases p <;> first | exact a | exact absurd m hp
@[simp] theorem State.modEvr_only {ps : List Part} {s t : State} (f) (h : Only ps s t) (m : Part.evr ∈ ps) : Only ps s (t.modEvr f) := by
  refine ⟨fun p hp => ?_⟩; have a := h.same p hp; cases p <;> first | exact a | exact absurd m hp
@[simp] theorem State.modKsu_only {ps : List Part} {s t : State} (f) (h : Only ps s t) (m : Part.ksu ∈ ps) : Only ps s (t.modKsu f) := by
  refine ⟨fun p hp => ?_⟩; have a := h.same p hp; cases p <;> first | exact a | exact absurd m hp
@[simp] theorem State.modMbx_only {ps : List Part} {s t : State} (f) (h : Only ps s t) (m : Part.mbx ∈ ps) : Only ps s (t.modMbx f) := by
  refine ⟨fun p hp => ?_⟩; have a := h.same p hp; cases p <;> first | exact a | exact absurd m hp
@[simp] theorem State.modPersist_only {ps : List Part} {s t : State} (f) (h : Only ps s t) (m : Part.persist ∈ ps) : Only ps s (t.modPersist f) := by
  refine ⟨fun p hp => ?_⟩; have a := h.same p hp; cases p <;> first | exact a | exact absurd m hp
@[simp] theorem State.modPower_only {ps : List Part} {s t : State} (f) (h : Only ps s t) (m : Part.power ∈ ps) : Only ps s (t.modPower f) := by
  refine ⟨fun p hp => ?_⟩; have a := h.same p hp; cases p <;> first | exact a | exact absurd m hp
@[simp] theorem State.modMon_only {ps : List Part} {s t : State} (f) (h : Only ps s t) (m : Part.mon ∈ ps) : Only ps s (t.modMon f) := by
  refine ⟨fun p hp => ?_⟩; have a := h.same p hp; cases p <;> first | exact a | exact absurd m hp
@[simp] theorem with_free_only {ps : List Part} {s t : State} (n) (h : Only ps s t) (m : Part.free ∈ ps) : Only ps s { t with free := n } := by
  refine ⟨fun p hp => ?_⟩; have a := h.same p hp; cases p <;> first | exact a | exact absurd m hp
@[simp] theorem with_pending_only {ps : List Part} {s t : State} (n) (h : Only ps s t) (m : Part.pending ∈ ps) : Only ps s { t with pending := n } := by
  refine ⟨fun p hp => ?_⟩; have a := h.same p hp; cases p <;> first | exact a | exact absurd m hp
end Sys2Proof.Machine
end

