-- ==== Sys2Proof/Laws/OnlyOps.lean ====
section
/-!
SUPPORT. Laws/OnlyOps.lean: what may change in the operations that every family calls: events, streams of the recorder, counters, locks, faults, frames, instances.
One lemma per operation, in the order of the definitions.
-/
namespace Sys2Proof.Machine
open Sys2Proof
set_option linter.all false

/-! ### Ops -/

@[simp] theorem State.until_only {s0 : State} {qs : List Part} (s : State) (d : Nat) (h0 : Only qs s0 s) (hm : ∀ p ∈ ([.time] : List Part), p ∈ qs) : Only qs s0 (State.until s d) := by
  refine h0.step ?_ hm; clear h0 hm
  simp only [State.until]
  repeat' (first | (simp +decide (maxDischargeDepth := 60) only [Only.refl, State.modTime_only, only_ite]; done) | split | intro _)
@[simp] theorem whenDue_only {s0 : State} {qs : List Part} (d : Nat) (f : State → State) (s : State) (hf : ∀  t, Only qs t (f  t)) (h0 : Only qs s0 s) (hm : ∀ p ∈ ([.time] : List Part), p ∈ qs) : Only qs s0 (whenDue d f s) := by
  refine h0.trans ?_; clear h0
  simp only [whenDue]
  have a : Only qs s (s.until d) := State.until_only s d (Only.refl _ _) hm
  split
  · exact a.trans (hf _)
  · exact Only.refl _ _
@[simp] theorem State.untilTb_only {s0 : State} {qs : List Part} (s : State) (n : Nat) (h0 : Only qs s0 s) (hm : ∀ p ∈ ([.time] : List Part), p ∈ qs) : Only qs s0 (State.untilTb s n) := by
  refine h0.step ?_ hm; clear h0 hm
  simp only [State.untilTb]
  repeat' (first | (simp +decide (maxDischargeDepth := 60) only [Only.refl, State.modTime_only, only_ite]; done) | split | intro _)
@[simp] theorem whenTb_only {s0 : State} {qs : List Part} (n : Nat) (f : State → State) (s : State) (hf : ∀  t, Only qs t (f  t)) (h0 : Only qs s0 s) (hm : ∀ p ∈ ([.time] : List Part), p ∈ qs) : Only qs s0 (whenTb n f s) := by
  refine h0.trans ?_; clear h0
  simp only [whenTb]
  have a : Only qs s (s.untilTb n) := State.untilTb_only s n (Only.refl _ _) hm
  split
  · exact a.trans (hf _)
  · exact Only.refl _ _
@[simp] theorem State.took_only {s0 : State} {qs : List Part} (s : State) (h0 : Only qs s0 s) (hm : ∀ p ∈ ([.free] : List Part), p ∈ qs) : Only qs s0 (State.took s) := by
  refine h0.step ?_ hm; clear h0 hm
  simp +decide (maxDischargeDepth := 60) only [State.took, Only.refl, with_free_only]
@[simp] theorem State.setPort_only {s0 : State} {qs : List Part} (s : State) (k : Nat) (f : Port → Port) (h0 : Only qs s0 s) (hm : ∀ p ∈ ([.ports] : List Part), p ∈ qs) : Only qs s0 (State.setPort s k f) := by
  refine h0.step ?_ hm; clear h0 hm
  simp +decide (maxDischargeDepth := 60) only [State.setPort, Only.refl, State.modPorts_only]
@[simp] theorem swCount_only {s0 : State} {qs : List Part} (i : Nat) (s : State) (n : Nat) (h0 : Only qs s0 s) (hm : ∀ p ∈ ([.sw] : List Part), p ∈ qs) : Only qs s0 (swCount i s n) := by
  refine h0.step ?_ hm; clear h0 hm
  simp +decide (maxDischargeDepth := 60) only [swCount, Only.refl, State.modSw_only]
@[simp] theorem State.setInst_only {s0 : State} {qs : List Part} (s : State) (i : Nat) (f : Inst → Inst) (h0 : Only qs s0 s) (hm : ∀ p ∈ ([.insts] : List Part), p ∈ qs) : Only qs s0 (State.setInst s i f) := by
  refine h0.step ?_ hm; clear h0 hm
  simp +decide (maxDischargeDepth := 60) only [State.setInst, Only.refl, State.modInsts_only]
@[simp] theorem State.setFset_only {s0 : State} {qs : List Part} (s : State) (b : BlockId) (u : Nat) (f : FaultSet → FaultSet) (h0 : Only qs s0 s) (hm : ∀ p ∈ ([.faults] : List Part), p ∈ qs) : Only qs s0 (State.setFset s b u f) := by
  refine h0.step ?_ hm; clear h0 hm
  simp +decide (maxDischargeDepth := 60) only [State.setFset, Only.refl, State.modFaults_only]
@[simp] theorem lateFor_only {s0 : State} {qs : List Part} (i : Nat) (s : State) (h0 : Only qs s0 s) (hm : ∀ p ∈ ([.insts] : List Part), p ∈ qs) : Only qs s0 (lateFor i s) := by
  refine h0.step ?_ hm; clear h0 hm
  simp +decide (maxDischargeDepth := 60) only [lateFor, Only.refl, State.setInst_only]
@[simp] theorem lateAt_only {s0 : State} {qs : List Part} (b : BlockId) (u : Nat) (i : Nat) (s : State) (h0 : Only qs s0 s) (hm : ∀ p ∈ ([.insts, .faults] : List Part), p ∈ qs) : Only qs s0 (lateAt b u i s) := by
  refine h0.step ?_ hm; clear h0 hm
  simp +decide (maxDischargeDepth := 60) only [lateAt, Only.refl, State.setFset_only, lateFor_only]
@[simp] theorem post_only {s0 : State} {qs : List Part} (r : EvrRec) (s : State) (h0 : Only qs s0 s) (hm : ∀ p ∈ ([.bki, .evr] : List Part), p ∈ qs) : Only qs s0 (post r s) := by
  refine h0.step ?_ hm; clear h0 hm
  simp only [post]
  repeat' (first | (simp +decide (maxDischargeDepth := 60) only [Only.refl, State.modBki_only, State.modEvr_only, only_ite]; done) | split | intro _)
@[simp] theorem note_only {s0 : State} {qs : List Part} (b : BlockId) (u : Nat) (code : Nat) (cls : Nat) (owner : Master) (detail : List Byte) (s : State) (h0 : Only qs s0 s) (hm : ∀ p ∈ ([.bki, .evr] : List Part), p ∈ qs) : Only qs s0 (note b u code cls owner detail s) := by
  refine h0.step ?_ hm; clear h0 hm
  simp +decide (maxDischargeDepth := 60) only [note, Only.refl, post_only]
@[simp] theorem vector_only {s0 : State} {qs : List Part} (v : Nat) (s : State) (h0 : Only qs s0 s) (hm : ∀ p ∈ ([.mbx] : List Part), p ∈ qs) : Only qs s0 (vector v s) := by
  refine h0.step ?_ hm; clear h0 hm
  simp +decide (maxDischargeDepth := 60) only [vector, Only.refl, State.modMbx_only]
@[simp] theorem tellLost_only {s0 : State} {qs : List Part} (s : State) (h0 : Only qs s0 s) (hm : ∀ p ∈ ([.bki, .evr, .mbx] : List Part), p ∈ qs) : Only qs s0 (tellLost s) := by
  refine h0.step ?_ hm; clear h0 hm
  simp only [tellLost]
  repeat' (first | (simp +decide (maxDischargeDepth := 60) only [Only.refl, State.modMbx_only, note_only, only_ite]; done) | split | intro _)
@[simp] theorem emit_only {s0 : State} {qs : List Part} (opcode : Nat) (inst : Option Nat) (gen : Nat) (vals : List Nat) (s : State) (tag : Nat) (st : Status) (h0 : Only qs s0 s) (hm : ∀ p ∈ ([.bki, .evr, .mbx] : List Part), p ∈ qs) : Only qs s0 (emit opcode inst gen vals s tag st) := by
  have hn : ∀ b u c k o d, Only qs s0 (note b u c k o d s) := fun b u c k o d => note_only _ _ _ _ _ _ _ h0 fun p h => hm p (by revert h; cases p <;> simp)
  unfold emit
  dsimp only
  split
  · have h1 : ∀ o f, Only qs s0 (if (note .mgp 0 (eventCode opcode) 0 o (vals.flatMap (leBytes 4 ·)) s).mbx.passes opcode ∧ !(note .mgp 0 (eventCode opcode) 0 o (vals.flatMap (leBytes 4 ·)) s).power.perstLow then
        (tellLost (note .mgp 0 (eventCode opcode) 0 o (vals.flatMap (leBytes 4 ·)) s)).modMbx f else note .mgp 0 (eventCode opcode) 0 o (vals.flatMap (leBytes 4 ·)) s) := by
      intro o f
      split
      · exact State.modMbx_only _ (tellLost_only _ (hn _ _ _ _ _ _) hm) (hm _ (by simp))
      · exact hn _ _ _ _ _ _
    exact h1 _ _
  · exact h0
@[simp] theorem emitInst_only {s0 : State} {qs : List Part} (i : Nat) (exhausted : Bool) (s : State) (h0 : Only qs s0 s) (hm : ∀ p ∈ ([.bki, .evr, .mbx] : List Part), p ∈ qs) : Only qs s0 (emitInst i exhausted s) := by
  refine h0.step ?_ hm; clear h0 hm
  simp +decide (maxDischargeDepth := 60) only [emitInst, Only.refl, emit_only]
@[simp] theorem startLong_only {s0 : State} {qs : List Part} (r : Req) (opcode : Nat) (arg : Nat) (s : State) (h0 : Only qs s0 s) (hm : ∀ p ∈ ([.mbx, .mon] : List Part), p ∈ qs) : Only qs s0 (startLong r opcode arg s) := by
  refine h0.step ?_ hm; clear h0 hm
  simp only [startLong]
  repeat' (first | (simp +decide (maxDischargeDepth := 60) only [Only.refl, State.modMbx_only, State.modMon_only]; done) | split | intro _)
@[simp] theorem monPrint_only {s0 : State} {qs : List Part} (name : Nat) (vals : List Nat) (s : State) (h0 : Only qs s0 s) (hm : ∀ p ∈ ([.mbx, .mon] : List Part), p ∈ qs) : Only qs s0 (monPrint name vals s) := by
  refine h0.step ?_ hm; clear h0 hm
  simp [monPrint]
@[simp] theorem opDone_only {s0 : State} {qs : List Part} (h : Nat) (st : Status) (vals : List Nat) (s : State) (h0 : Only qs s0 s) (hm : ∀ p ∈ ([.bki, .evr, .mbx, .mon] : List Part), p ∈ qs) : Only qs s0 (opDone h st vals s) := by
  have hb : Part.mbx ∈ qs := hm _ (by simp)
  have hn : Part.mon ∈ qs := hm _ (by simp)
  unfold opDone
  dsimp only
  split
  · exact h0
  · have h1 : ∀ f, Only qs s0 (s.modMbx f) := fun f => State.modMbx_only f h0 hb
    refine emit_only _ _ _ _ _ _ _ ?_ fun p h => hm p (by revert h; cases p <;> simp)
    split
    · exact monPrint_only _ _ _ (State.modMon_only _ (h1 _) hn) fun p h => hm p (by revert h; cases p <;> simp)
    · exact h1 _
@[simp] theorem opDone?_only {s0 : State} {qs : List Part} (h : Option Nat) (st : Status) (vals : List Nat) (s : State) (h0 : Only qs s0 s) (hm : ∀ p ∈ ([.bki, .evr, .mbx, .mon] : List Part), p ∈ qs) : Only qs s0 (opDone? h st vals s) := by
  refine h0.step ?_ hm; clear h0 hm
  simp only [opDone?]
  repeat' (first | (simp +decide (maxDischargeDepth := 60) only [Only.refl, opDone_only]; done) | split | intro _)
@[simp] theorem State.setPair_only {s0 : State} {qs : List Part} (s : State) (src : ReqSrc) (f : Pair → Pair) (h0 : Only qs s0 s) (hm : ∀ p ∈ ([.mbx] : List Part), p ∈ qs) : Only qs s0 (State.setPair s src f) := by
  refine h0.step ?_ hm; clear h0 hm
  simp only [State.setPair]
  repeat' (first | (simp +decide (maxDischargeDepth := 60) only [Only.refl, State.modMbx_only]; done) | split | intro _)
@[simp] theorem configChanged_only {s0 : State} {qs : List Part} (s : State) (h0 : Only qs s0 s) (hm : ∀ p ∈ ([.persist] : List Part), p ∈ qs) : Only qs s0 (configChanged s) := by
  refine h0.step ?_ hm; clear h0 hm
  simp +decide (maxDischargeDepth := 60) only [configChanged, Only.refl, State.modPersist_only]
@[simp] theorem refuse_only {s0 : State} {qs : List Part} (st : Status) (s : State) (h0 : Only qs s0 s) (hm : ∀ p ∈ ([] : List Part), p ∈ qs) : Only qs s0 (refuse st s).1 := by
  refine h0.step ?_ hm; clear h0 hm
  simp +decide (maxDischargeDepth := 60) only [refuse, Only.refl]
@[simp] theorem okRes_only {s0 : State} {qs : List Part} (vals : List Nat) (s : State) (h0 : Only qs s0 s) (hm : ∀ p ∈ ([] : List Part), p ∈ qs) : Only qs s0 (okRes vals s).1 := by
  refine h0.step ?_ hm; clear h0 hm
  simp +decide (maxDischargeDepth := 60) only [okRes, Only.refl]
@[simp] theorem holdGuard_only {s0 : State} {qs : List Part} (f : State → State × Ans) (s : State) (hf : ∀  t, Only qs t (f  t).1) (h0 : Only qs s0 s) (hm : ∀ p ∈ ([] : List Part), p ∈ qs) : Only qs s0 (holdGuard f s).1 := by
  refine h0.trans ?_; clear h0
  simp only [holdGuard]
  split
  · (repeat' (first | (simp +decide (maxDischargeDepth := 60); done) | assumption | split | intro _ | (subst_vars; simp +decide (maxDischargeDepth := 60); done)))
  · exact hf _

/-! ### Flags -/

@[simp] theorem abortInjection_only {s0 : State} {qs : List Part} (f : Finding) (s : State) (h0 : Only qs s0 s) (hm : ∀ p ∈ ([.bki, .faults, .evr] : List Part), p ∈ qs) : Only qs s0 (abortInjection f s) := by
  refine h0.step ?_ hm; clear h0 hm
  simp only [abortInjection]
  repeat' (first | (simp +decide (maxDischargeDepth := 60) only [Only.refl, State.setFset_only, only_ite, post_only]; done) | split | intro _)
@[simp] theorem finding_only {s0 : State} {qs : List Part} (f : Finding) (s : State) (h0 : Only qs s0 s) (hm : ∀ p ∈ ([.bki, .faults, .evr, .mbx] : List Part), p ∈ qs) : Only qs s0 (finding f s) := by
  refine h0.step ?_ hm; clear h0 hm
  simp only [finding]
  repeat' (first | (simp +decide (maxDischargeDepth := 60) only [Only.refl, State.setFset_only, abortInjection_only, emit_only, only_ite, post_only]; done) | split | intro _)
@[simp] theorem persistEnds_only {s0 : State} {qs : List Part} (b : BlockId) (u : Nat) (s : State) (h0 : Only qs s0 s) (hm : ∀ p ∈ ([.faults] : List Part), p ∈ qs) : Only qs s0 (persistEnds b u s) := by
  refine h0.step ?_ hm; clear h0 hm
  simp +decide (maxDischargeDepth := 60) only [persistEnds, Only.refl, State.setFset_only, only_ite]
@[simp] theorem readDone_only {s0 : State} {qs : List Part} (b : BlockId) (u : Nat) (s : State) (h0 : Only qs s0 s) (hm : ∀ p ∈ ([.faults] : List Part), p ∈ qs) : Only qs s0 (readDone b u s) := by
  refine h0.step ?_ hm; clear h0 hm
  simp only [readDone]
  repeat' (first | (simp +decide (maxDischargeDepth := 60) only [Only.refl, State.setFset_only, only_ite]; done) | split | intro _)

/-! ### AcqOps -/

@[simp] theorem State.setAcqS_only {s0 : State} {qs : List Part} (s : State) (n : Nat) (f : AcqStream → AcqStream) (h0 : Only qs s0 s) (hm : ∀ p ∈ ([.acq] : List Part), p ∈ qs) : Only qs s0 (State.setAcqS s n f) := by
  refine h0.step ?_ hm; clear h0 hm
  simp +decide (maxDischargeDepth := 60) only [State.setAcqS, Only.refl, State.modAcq_only]
@[simp] theorem acqCount_only {s0 : State} {qs : List Part} (i : Nat) (s : State) (n : Nat) (h0 : Only qs s0 s) (hm : ∀ p ∈ ([.acq] : List Part), p ∈ qs) : Only qs s0 (acqCount i s n) := by
  refine h0.step ?_ hm; clear h0 hm
  simp +decide (maxDischargeDepth := 60) only [acqCount, Only.refl, State.modAcq_only]
@[simp] theorem acqClose_only {s0 : State} {qs : List Part} (n : Nat) (s : State) (h0 : Only qs s0 s) (hm : ∀ p ∈ ([.acq] : List Part), p ∈ qs) : Only qs s0 (acqClose n s) := by
  refine h0.step ?_ hm; clear h0 hm
  simp only [acqClose]
  repeat' (first | (simp +decide (maxDischargeDepth := 60) only [Only.refl, State.setAcqS_only, acqCount_only, only_ite]; done) | split | intro _)
@[simp] theorem acqPut_only {s0 : State} {qs : List Part} (n : Nat) (item : List Byte) (s : State) (h0 : Only qs s0 s) (hm : ∀ p ∈ ([.acq] : List Part), p ∈ qs) : Only qs s0 (acqPut n item s) := by
  refine h0.step ?_ hm; clear h0 hm
  simp only [acqPut]
  repeat' (first | (simp +decide (maxDischargeDepth := 60) only [Only.refl, State.setAcqS_only, acqClose_only, only_ite]; done) | split | intro _)
@[simp] theorem acqStop_only {s0 : State} {qs : List Part} (n : Nat) (reason : Nat) (s : State) (h0 : Only qs s0 s) (hm : ∀ p ∈ ([.acq, .bki, .evr] : List Part), p ∈ qs) : Only qs s0 (acqStop n reason s) := by
  refine h0.step ?_ hm; clear h0 hm
  simp only [acqStop]
  repeat' (first | (simp +decide (maxDischargeDepth := 60) only [Only.refl, State.setAcqS_only, acqCount_only, acqPut_only, note_only, only_ite]; done) | split | intro _)
@[simp] theorem acqLost_only {s0 : State} {qs : List Part} (p : AcqSrc → Bool) (s : State) (h0 : Only qs s0 s) (hm : ∀ p ∈ ([.sw, .acq, .bki, .evr] : List Part), p ∈ qs) : Only qs s0 (acqLost p s) := by
  refine h0.step ?_ hm; clear h0 hm
  simp only [acqLost]
  repeat' (first | (simp +decide (maxDischargeDepth := 60) only [Only.refl, acqStop_only, foldl_only, only_ite, swCount_only, forall_const, implies_true, Option.some.injEq, forall_eq', forall_apply_eq_imp_iff, imp_self]; done) | assumption | split | intro _ | (subst_vars; simp +decide (maxDischargeDepth := 60) only [Only.refl, acqStop_only, foldl_only, only_ite, swCount_only]; done) | (injections; subst_vars; simp +decide (maxDischargeDepth := 60) only [Only.refl, acqStop_only, foldl_only, only_ite, swCount_only]; done) | simp +decide (maxDischargeDepth := 60) only [Only.refl, acqStop_only, foldl_only, only_ite, swCount_only])
@[simp] theorem acqPass_only {s0 : State} {qs : List Part} (x : AcqSet) (s : State) (h0 : Only qs s0 s) (hm : ∀ p ∈ ([.sw, .acq, .bki, .evr] : List Part), p ∈ qs) : Only qs s0 (acqPass x s) := by
  refine h0.step ?_ hm; clear h0 hm
  simp only [acqPass]
  repeat' (first | (simp +decide (maxDischargeDepth := 60) only [Only.refl, State.modAcq_only, acqLost_only, only_ite]; done) | split | intro _)
@[simp] theorem acqTriggerOn_only {s0 : State} {qs : List Part} (t : AcqTrig) (n : Nat) (s : State) (h0 : Only qs s0 s) (hm : ∀ p ∈ ([.acq] : List Part), p ∈ qs) : Only qs s0 (acqTriggerOn t n s) := by
  refine h0.step ?_ hm; clear h0 hm
  simp only [acqTriggerOn]
  repeat' (first | (simp +decide (maxDischargeDepth := 60) only [Only.refl, State.setAcqS_only, acqCount_only, only_ite]; done) | split | intro _)
@[simp] theorem acqTrigger_only {s0 : State} {qs : List Part} (t : AcqTrig) (concerns : AcqStream → Bool) (s : State) (h0 : Only qs s0 s) (hm : ∀ p ∈ ([.acq] : List Part), p ∈ qs) : Only qs s0 (acqTrigger t concerns s) := by
  refine h0.step ?_ hm; clear h0 hm
  simp only [acqTrigger]
  repeat' (first | (simp +decide (maxDischargeDepth := 60) only [Only.refl, acqTriggerOn_only, foldl_only, only_ite, forall_const, implies_true, Option.some.injEq, forall_eq', forall_apply_eq_imp_iff, imp_self]; done) | assumption | split | intro _ | (subst_vars; simp +decide (maxDischargeDepth := 60) only [Only.refl, acqTriggerOn_only, foldl_only, only_ite]; done) | (injections; subst_vars; simp +decide (maxDischargeDepth := 60) only [Only.refl, acqTriggerOn_only, foldl_only, only_ite]; done) | simp +decide (maxDischargeDepth := 60) only [Only.refl, acqTriggerOn_only, foldl_only, only_ite])
@[simp] theorem acqCloseRecord_only {s0 : State} {qs : List Part} (n : Nat) (k : Nat) (f : Nat × Nat) (partial_ : Bool) (s : State) (h0 : Only qs s0 s) (hm : ∀ p ∈ ([.acq, .bki, .evr] : List Part), p ∈ qs) : Only qs s0 (acqCloseRecord n k f partial_ s) := by
  refine h0.step ?_ hm; clear h0 hm
  simp only [acqCloseRecord]
  repeat' (first | (simp +decide (maxDischargeDepth := 60) only [Only.refl, State.setAcqS_only, acqCount_only, acqPut_only, acqStop_only, foldl_only, only_ite]; done) | split | intro _)
@[simp] theorem putSample_only {s0 : State} {qs : List Part} (n : Nat) (k : Nat) (q : AcqSrcState) (a : AcqArrival) (s : State) (h0 : Only qs s0 s) (hm : ∀ p ∈ ([.acq] : List Part), p ∈ qs) : Only qs s0 (putSample n k q a s) := by
  refine h0.step ?_ hm; clear h0 hm
  simp only [putSample]
  repeat' (first | (simp +decide (maxDischargeDepth := 60) only [Only.refl, State.setAcqS_only, acqCount_only, acqPut_only, only_ite]; done) | split | intro _)
@[simp] theorem placeMark_only {s0 : State} {qs : List Part} (n : Nat) (q : AcqSrcState) (s : State) (h0 : Only qs s0 s) (hm : ∀ p ∈ ([.acq] : List Part), p ∈ qs) : Only qs s0 (placeMark n q s) := by
  refine h0.step ?_ hm; clear h0 hm
  simp only [placeMark]
  repeat' (first | (simp +decide (maxDischargeDepth := 60) only [Only.refl, State.setAcqS_only, acqCount_only, acqPut_only, only_ite]; done) | split | intro _)
@[simp] theorem acqTake_only {s0 : State} {qs : List Part} (n : Nat) (k : Nat) (a : AcqArrival) (s : State) (h0 : Only qs s0 s) (hm : ∀ p ∈ ([.acq, .bki, .evr] : List Part), p ∈ qs) : Only qs s0 (acqTake n k a s) := by
  refine h0.step ?_ hm; clear h0 hm
  simp only [acqTake]
  repeat' (first | (simp +decide (maxDischargeDepth := 60) only [Only.refl, State.setAcqS_only, acqCloseRecord_only, acqStop_only, only_ite, placeMark_only, putSample_only]; done) | split | intro _)
@[simp] theorem acqSources_only {s0 : State} {qs : List Part} (p : AcqSrc → Bool) (act : Nat → Nat → AcqSrc → State → State) (s : State) (hact : ∀ a0 a1 a2 t, Only qs t (act a0 a1 a2 t)) (h0 : Only qs s0 s) (hm : ∀ p ∈ ([] : List Part), p ∈ qs) : Only qs s0 (acqSources p act s) := by
  refine h0.trans ?_; clear h0
  simp only [acqSources]
  exact foldl_only _ _ (Only.refl _ _) (fun _ _ => foldl_only _ _ (Only.refl _ _) (fun _ _ => hact _ _ _ _))
@[simp] theorem acqStale_only {s0 : State} {qs : List Part} (group : Nat) (preset : Nat) (rate : Nat) (s : State) (h0 : Only qs s0 s) (hm : ∀ p ∈ ([.acq, .bki, .evr] : List Part), p ∈ qs) : Only qs s0 (acqStale group preset rate s) := by
  refine h0.step ?_ hm; clear h0 hm
  simp only [acqStale]
  repeat' (first | (simp +decide (maxDischargeDepth := 60) only [Only.refl, acqCloseRecord_only, acqSources_only, forall_const, implies_true, Option.some.injEq, forall_eq', forall_apply_eq_imp_iff, imp_self]; done) | assumption | split | intro _ | (subst_vars; simp +decide (maxDischargeDepth := 60) only [Only.refl, acqCloseRecord_only, acqSources_only]; done) | (injections; subst_vars; simp +decide (maxDischargeDepth := 60) only [Only.refl, acqCloseRecord_only, acqSources_only]; done) | simp +decide (maxDischargeDepth := 60) only [Only.refl, acqCloseRecord_only, acqSources_only])

/-! ### Buffer -/

@[simp] theorem State.setPsc_only {s0 : State} {qs : List Part} (s : State) (k : Nat) (f : Psc → Psc) (h0 : Only qs s0 s) (hm : ∀ p ∈ ([.sched] : List Part), p ∈ qs) : Only qs s0 (State.setPsc s k f) := by
  refine h0.step ?_ hm; clear h0 hm
  simp +decide (maxDischargeDepth := 60) only [State.setPsc, Only.refl, State.modSched_only]
@[simp] theorem refreshOver_only {s0 : State} {qs : List Part} (i : Nat) (s : State) (h0 : Only qs s0 s) (hm : ∀ p ∈ ([.insts, .bki, .evr, .mbx] : List Part), p ∈ qs) : Only qs s0 (refreshOver i s) := by
  refine h0.step ?_ hm; clear h0 hm
  simp only [refreshOver]
  repeat' (first | (simp +decide (maxDischargeDepth := 60) only [Only.refl, State.setInst_only, emit_only, only_ite]; done) | split | intro _)
@[simp] theorem refreshAllOver_only {s0 : State} {qs : List Part} (s : State) (h0 : Only qs s0 s) (hm : ∀ p ∈ ([.insts, .bki, .evr, .mbx] : List Part), p ∈ qs) : Only qs s0 (refreshAllOver s) := by
  refine h0.step ?_ hm; clear h0 hm
  simp only [refreshAllOver]
  repeat' (first | (simp +decide (maxDischargeDepth := 60) only [Only.refl, foldl_only, refreshOver_only, forall_const, implies_true, Option.some.injEq, forall_eq', forall_apply_eq_imp_iff, imp_self]; done) | assumption | split | intro _ | (subst_vars; simp +decide (maxDischargeDepth := 60) only [Only.refl, foldl_only, refreshOver_only]; done) | (injections; subst_vars; simp +decide (maxDischargeDepth := 60) only [Only.refl, foldl_only, refreshOver_only]; done) | simp +decide (maxDischargeDepth := 60) only [Only.refl, foldl_only, refreshOver_only])
@[simp] theorem State.setStream_only {s0 : State} {qs : List Part} (s : State) (idx : Nat) (f : StreamEntry → StreamEntry) (h0 : Only qs s0 s) (hm : ∀ p ∈ ([.sw] : List Part), p ∈ qs) : Only qs s0 (State.setStream s idx f) := by
  refine h0.step ?_ hm; clear h0 hm
  simp +decide (maxDischargeDepth := 60) only [State.setStream, Only.refl, State.modSw_only]
@[simp] theorem State.setFwd_only {s0 : State} {qs : List Part} (s : State) (idx : Nat) (f : FwdEntry → FwdEntry) (h0 : Only qs s0 s) (hm : ∀ p ∈ ([.sw] : List Part), p ∈ qs) : Only qs s0 (State.setFwd s idx f) := by
  refine h0.step ?_ hm; clear h0 hm
  simp +decide (maxDischargeDepth := 60) only [State.setFwd, Only.refl, State.modSw_only]
@[simp] theorem portCount_only {s0 : State} {qs : List Part} (k : Nat) (i : Nat) (s : State) (n : Nat) (h0 : Only qs s0 s) (hm : ∀ p ∈ ([.ports] : List Part), p ∈ qs) : Only qs s0 (portCount k i s n) := by
  refine h0.step ?_ hm; clear h0 hm
  simp +decide (maxDischargeDepth := 60) only [portCount, Only.refl, State.setPort_only]
@[simp] theorem entryHold_only {s0 : State} {qs : List Part} (idx : Nat) (n : Nat) (s : State) (h0 : Only qs s0 s) (hm : ∀ p ∈ ([.sw] : List Part), p ∈ qs) : Only qs s0 (entryHold idx n s) := by
  refine h0.step ?_ hm; clear h0 hm
  simp only [entryHold]
  repeat' (first | (simp +decide (maxDischargeDepth := 60) only [Only.refl, State.setFwd_only, State.setStream_only, only_ite]; done) | split | intro _)
@[simp] theorem entryDone_only {s0 : State} {qs : List Part} (idx : Nat) (gen : Nat) (s : State) (h0 : Only qs s0 s) (hm : ∀ p ∈ ([.sw] : List Part), p ∈ qs) : Only qs s0 (entryDone idx gen s) := by
  refine h0.step ?_ hm; clear h0 hm
  simp only [entryDone]
  repeat' (first | (simp +decide (maxDischargeDepth := 60) only [Only.refl, State.setFwd_only, State.setStream_only, only_ite]; done) | split | intro _)
@[simp] theorem freeFrame_only {s0 : State} {qs : List Part} (n : Nat) (f : Stored) (s : State) (h0 : Only qs s0 s) (hm : ∀ p ∈ ([.sw, .insts, .bki, .evr, .mbx] : List Part), p ∈ qs) : Only qs s0 (freeFrame n f s) := by
  refine h0.step ?_ hm; clear h0 hm
  simp only [freeFrame]
  repeat' (first | (simp +decide (maxDischargeDepth := 60) only [Only.refl, State.modSw_only, State.setInst_only, refreshOver_only]; done) | split | intro _)
@[simp] theorem copyDone_only {s0 : State} {qs : List Part} (n : Nat) (entry : Nat) (gen : Nat) (nonPort : Bool) (s : State) (h0 : Only qs s0 s) (hm : ∀ p ∈ ([.sw, .insts, .bki, .evr, .mbx] : List Part), p ∈ qs) : Only qs s0 (copyDone n entry gen nonPort s) := by
  refine h0.step ?_ hm; clear h0 hm
  simp only [copyDone]
  repeat' (first | (simp +decide (maxDischargeDepth := 60) only [Only.refl, State.modSw_only, entryDone_only, freeFrame_only, only_ite]; done) | split | intro _)
@[simp] theorem unsent_only {s0 : State} {qs : List Part} (c : TxCopy) (s : State) (h0 : Only qs s0 s) (hm : ∀ p ∈ ([.time] : List Part), p ∈ qs) : Only qs s0 (unsent c s) := by
  refine h0.step ?_ hm; clear h0 hm
  simp only [unsent]
  repeat' (first | (simp +decide (maxDischargeDepth := 60) only [Only.refl, State.modTime_only, only_ite]; done) | split | intro _)
@[simp] theorem txDone_only {s0 : State} {qs : List Part} (c : TxCopy) (s : State) (h0 : Only qs s0 s) (hm : ∀ p ∈ ([.sw, .insts, .bki, .evr, .mbx] : List Part), p ∈ qs) : Only qs s0 (txDone c s) := by
  refine h0.step ?_ hm; clear h0 hm
  simp +decide (maxDischargeDepth := 60) only [txDone, Only.refl, copyDone_only]
@[simp] theorem txDrop_only {s0 : State} {qs : List Part} (k : Nat) (counter : Nat) (c : TxCopy) (s : State) (h0 : Only qs s0 s) (hm : ∀ p ∈ ([.ports, .sw, .insts, .time, .bki, .evr, .mbx] : List Part), p ∈ qs) : Only qs s0 (txDrop k counter c s) := by
  refine h0.step ?_ hm; clear h0 hm
  simp +decide (maxDischargeDepth := 60) only [txDrop, Only.refl, portCount_only, txDone_only, unsent_only]
@[simp] theorem enqueue_only {s0 : State} {qs : List Part} (k : Nat) (c : TxCopy) (s : State) (h0 : Only qs s0 s) (hm : ∀ p ∈ ([.ports, .sw, .insts, .time, .bki, .evr, .mbx] : List Part), p ∈ qs) : Only qs s0 (enqueue k c s) := by
  refine h0.step ?_ hm; clear h0 hm
  simp only [enqueue]
  repeat' (first | (simp +decide (maxDischargeDepth := 60) only [Only.refl, State.setPort_only, only_ite, txDrop_only]; done) | split | intro _)
@[simp] theorem nodeSeen_only {s0 : State} {qs : List Part} (f : Stored) (s : State) (h0 : Only qs s0 s) (hm : ∀ p ∈ ([.sw] : List Part), p ∈ qs) : Only qs s0 (nodeSeen f s) := by
  refine h0.step ?_ hm; clear h0 hm
  simp only [nodeSeen]
  repeat' (first | (simp +decide (maxDischargeDepth := 60) only [Only.refl, State.modSw_only, only_ite]; done) | split | intro _)
@[simp] theorem deliver_only {s0 : State} {qs : List Part} (n : Nat) (entry : Nat) (gen : Nat) (d : Dest) (s : State) (h0 : Only qs s0 s) (hm : ∀ p ∈ ([.ports, .sw, .sce, .insts, .cgu, .time, .acq, .bki, .evr, .mbx] : List Part), p ∈ qs) : Only qs s0 (deliver n entry gen d s) := by
  refine h0.step ?_ hm; clear h0 hm
  simp only [deliver]
  repeat' (first | (simp +decide (maxDischargeDepth := 60) only [Only.refl, State.modAcq_only, State.modCgu_only, State.modSce_only, State.modSw_only, acqLost_only, copyDone_only, enqueue_only, nodeSeen_only, only_ite, swCount_only, txDrop_only]; done) | split | intro _)
@[simp] theorem evict_only {s0 : State} {qs : List Part} (n : Nat) (f : Stored) (s : State) (h0 : Only qs s0 s) (hm : ∀ p ∈ ([.ports, .sw, .insts, .cgu, .time, .bki, .evr, .mbx] : List Part), p ∈ qs) : Only qs s0 (evict n f s) := by
  refine h0.step ?_ hm; clear h0 hm
  simp only [evict]
  repeat' (first | (simp +decide (maxDischargeDepth := 60) only [Only.refl, State.modCgu_only, State.setPort_only, foldl_only, swCount_only, txDrop_only, forall_const, implies_true, Option.some.injEq, forall_eq', forall_apply_eq_imp_iff, imp_self]; done) | assumption | split | intro _ | (subst_vars; simp +decide (maxDischargeDepth := 60) only [Only.refl, State.modCgu_only, State.setPort_only, foldl_only, swCount_only, txDrop_only]; done) | (injections; subst_vars; simp +decide (maxDischargeDepth := 60) only [Only.refl, State.modCgu_only, State.setPort_only, foldl_only, swCount_only, txDrop_only]; done) | simp +decide (maxDischargeDepth := 60) only [Only.refl, State.modCgu_only, State.setPort_only, foldl_only, swCount_only, txDrop_only])
@[simp] theorem makeRoom_only {s0 : State} {qs : List Part} (c : Nat) (cells : Nat) (x0 : Nat) (x1 : State) (h0 : Only qs s0 x1) (hm : ∀ p ∈ ([.ports, .sw, .insts, .cgu, .time, .bki, .evr, .mbx] : List Part), p ∈ qs) : Only qs s0 (makeRoom c cells x0 x1) := by
  induction x0 generalizing x1 with
  | zero => exact h0
  | succ k ih =>
    simp only [makeRoom]
    split
    · exact h0
    · split
      · exact h0
      · exact ih _ (evict_only _ _ _ h0 hm)
@[simp] theorem storeFrame_only {s0 : State} {qs : List Part} (f : Stored) (entry : Nat) (gen : Nat) (ds : List Dest) (s : State) (h0 : Only qs s0 s) (hm : ∀ p ∈ ([.ports, .sw, .sce, .insts, .cgu, .time, .acq, .bki, .evr, .mbx] : List Part), p ∈ qs) : Only qs s0 (storeFrame f entry gen ds s) := by
  have hr := makeRoom_only (frameClass f.cls ds) f.cells s.sw.store.length s h0 (fun p h => hm p (by revert h; cases p <;> simp))
  have hw : Part.sw ∈ qs := hm _ (by simp)
  have ht : Part.time ∈ qs := hm _ (by simp)
  unfold storeFrame
  dsimp only
  split
  · exact h0
  · split
    · refine swCount_only _ _ _ (foldl_only _ _ hr fun t d => ?_) (by simp [hw])
      split
      · exact unsent_only _ _ (Only.refl _ _) (by simp [ht])
      · exact unsent_only _ _ (Only.refl _ _) (by simp [ht])
      · exact Only.refl _ _
    · exact foldl_only _ _ (entryHold_only _ _ _ (State.modSw_only _ hr hw) (by simp [hw])) fun t d => deliver_only _ _ _ _ _ (Only.refl _ _) hm
@[simp] theorem redPorts_only {s0 : State} {qs : List Part} (mask : List Nat) (s : State) (h0 : Only qs s0 s) (hm : ∀ p ∈ ([.sw] : List Part), p ∈ qs) : Only qs s0 (redPorts mask s).2 := by
  refine h0.step ?_ hm; clear h0 hm
  simp +decide (maxDischargeDepth := 60) only [redPorts, Only.refl, State.modSw_only, only_ite]
@[simp] theorem mgpSend_only {s0 : State} {qs : List Part} (octets : List Byte) (pcp : Nat) (vid : Nat) (ports : List Nat) (s : State) (h0 : Only qs s0 s) (hm : ∀ p ∈ ([.ports, .sw, .sce, .insts, .cgu, .time, .acq, .bki, .evr, .mbx] : List Part), p ∈ qs) : Only qs s0 (mgpSend octets pcp vid ports s) := by
  refine h0.step ?_ hm; clear h0 hm
  simp +decide (maxDischargeDepth := 60) only [mgpSend, Only.refl, redPorts_only, storeFrame_only]

/-! ### PortOps -/

@[simp] theorem flushQueues_only {s0 : State} {qs : List Part} (k : Nat) (counter : Nat) (s : State) (h0 : Only qs s0 s) (hm : ∀ p ∈ ([.ports, .sw, .insts, .cgu, .time, .bki, .evr, .mbx] : List Part), p ∈ qs) : Only qs s0 (flushQueues k counter s) := by
  refine h0.step ?_ hm; clear h0 hm
  simp only [flushQueues]
  repeat' (first | (simp +decide (maxDischargeDepth := 60) only [Only.refl, State.modCgu_only, State.setPort_only, foldl_only, txDrop_only, forall_const, implies_true, Option.some.injEq, forall_eq', forall_apply_eq_imp_iff, imp_self]; done) | assumption | split | intro _ | (subst_vars; simp +decide (maxDischargeDepth := 60) only [Only.refl, State.modCgu_only, State.setPort_only, foldl_only, txDrop_only]; done) | (injections; subst_vars; simp +decide (maxDischargeDepth := 60) only [Only.refl, State.modCgu_only, State.setPort_only, foldl_only, txDrop_only]; done) | simp +decide (maxDischargeDepth := 60) only [Only.refl, State.modCgu_only, State.setPort_only, foldl_only, txDrop_only])
@[simp] theorem abandon_only {s0 : State} {qs : List Part} (k : Nat) (s : State) (h0 : Only qs s0 s) (hm : ∀ p ∈ ([.ports, .sw, .insts, .time, .bki, .evr, .mbx] : List Part), p ∈ qs) : Only qs s0 (abandon k s) := by
  refine h0.step ?_ hm; clear h0 hm
  simp only [abandon]
  repeat' (first | (simp +decide (maxDischargeDepth := 60) only [Only.refl, State.setPort_only, txDrop_only]; done) | split | intro _)
@[simp] theorem pauseSettle_only {s0 : State} {qs : List Part} (k : Nat) (s : State) (h0 : Only qs s0 s) (hm : ∀ p ∈ ([.ports] : List Part), p ∈ qs) : Only qs s0 (pauseSettle k s) := by
  refine h0.step ?_ hm; clear h0 hm
  simp +decide (maxDischargeDepth := 60) only [pauseSettle, Only.refl, State.setPort_only]
@[simp] theorem countPause_only {s0 : State} {qs : List Part} (k : Nat) (s : State) (h0 : Only qs s0 s) (hm : ∀ p ∈ ([.ports] : List Part), p ∈ qs) : Only qs s0 (countPause k s) := by
  refine h0.step ?_ hm; clear h0 hm
  simp +decide (maxDischargeDepth := 60) only [countPause, Only.refl, State.setPort_only]
@[simp] theorem linkEvent_only {s0 : State} {qs : List Part} (k : Nat) (what : Nat) (s : State) (h0 : Only qs s0 s) (hm : ∀ p ∈ ([.bki, .evr, .mbx] : List Part), p ∈ qs) : Only qs s0 (linkEvent k what s) := by
  refine h0.step ?_ hm; clear h0 hm
  simp +decide (maxDischargeDepth := 60) only [linkEvent, Only.refl, emit_only]
@[simp] theorem portDown_only {s0 : State} {qs : List Part} (k : Nat) (s : State) (h0 : Only qs s0 s) (hm : ∀ p ∈ ([.ports, .sw, .insts, .cgu, .time, .bki, .evr, .mbx] : List Part), p ∈ qs) : Only qs s0 (portDown k s) := by
  refine h0.step ?_ hm; clear h0 hm
  simp only [portDown]
  repeat' (first | (simp +decide (maxDischargeDepth := 60) only [Only.refl, State.setPort_only, abandon_only, countPause_only, flushQueues_only, linkEvent_only, only_ite]; done) | split | intro _)
@[simp] theorem coilOff_only {s0 : State} {qs : List Part} (s : State) (h0 : Only qs s0 s) (hm : ∀ p ∈ ([.ports, .head, .sw, .insts, .cgu, .time, .bki, .evr, .mbx] : List Part), p ∈ qs) : Only qs s0 (coilOff s) := by
  refine h0.step ?_ hm; clear h0 hm
  simp only [coilOff]
  repeat' (first | (simp +decide (maxDischargeDepth := 60) only [Only.refl, State.modHead_only, only_ite, portDown_only]; done) | split | intro _)
@[simp] theorem coilCheck_only {s0 : State} {qs : List Part} (s : State) (h0 : Only qs s0 s) (hm : ∀ p ∈ ([.ports, .head, .sw, .insts, .cgu, .time, .bki, .evr, .mbx] : List Part), p ∈ qs) : Only qs s0 (coilCheck s) := by
  refine h0.step ?_ hm; clear h0 hm
  simp only [coilCheck]
  repeat' (first | (simp +decide (maxDischargeDepth := 60) only [Only.refl, coilOff_only, only_ite]; done) | split | intro _)
@[simp] theorem railBad_only {s0 : State} {qs : List Part} (r : Rail) (s : State) (h0 : Only qs s0 s) (hm : ∀ p ∈ ([.power] : List Part), p ∈ qs) : Only qs s0 (railBad r s) := by
  refine h0.step ?_ hm; clear h0 hm
  simp +decide (maxDischargeDepth := 60) only [railBad, Only.refl, State.modPower_only, only_ite]

/-! ### PairOps -/

@[simp] theorem told_only {s0 : State} {qs : List Part} (s : State) (t : State) (h0 : Only qs s0 t) (hm : ∀ p ∈ ([.mbx] : List Part), p ∈ qs) : Only qs s0 (told s t) := by
  refine h0.step ?_ hm; clear h0 hm
  simp only [told]
  repeat' (first | (simp +decide (maxDischargeDepth := 60) only [Only.refl, only_ite, vector_only]; done) | split | intro _)
@[simp] theorem setRole_only {s0 : State} {qs : List Part} (r : Role) (s : State) (h0 : Only qs s0 s) (hm : ∀ p ∈ ([.cgu, .bki, .evr, .mbx] : List Part), p ∈ qs) : Only qs s0 (setRole r s) := by
  refine h0.step ?_ hm; clear h0 hm
  simp only [setRole]
  repeat' (first | (simp +decide (maxDischargeDepth := 60) only [Only.refl, State.modCgu_only, emit_only, only_ite, vector_only]; done) | split | intro _)
@[simp] theorem winFalls_only {s0 : State} {qs : List Part} (s : State) (h0 : Only qs s0 s) (hm : ∀ p ∈ ([.cgu] : List Part), p ∈ qs) : Only qs s0 (winFalls s) := by
  refine h0.step ?_ hm; clear h0 hm
  simp +decide (maxDischargeDepth := 60) only [winFalls, Only.refl, State.modCgu_only]
@[simp] theorem cguCount_only {s0 : State} {qs : List Part} (i : Nat) (s : State) (h0 : Only qs s0 s) (hm : ∀ p ∈ ([.cgu] : List Part), p ∈ qs) : Only qs s0 (cguCount i s) := by
  refine h0.step ?_ hm; clear h0 hm
  simp +decide (maxDischargeDepth := 60) only [cguCount, Only.refl, State.modCgu_only]
@[simp] theorem ocuCount_only {s0 : State} {qs : List Part} (i : Nat) (s : State) (h0 : Only qs s0 s) (hm : ∀ p ∈ ([.ocu] : List Part), p ∈ qs) : Only qs s0 (ocuCount i s) := by
  refine h0.step ?_ hm; clear h0 hm
  simp +decide (maxDischargeDepth := 60) only [ocuCount, Only.refl, State.modOcu_only]
@[simp] theorem mlkCount_only {s0 : State} {qs : List Part} (i : Nat) (s : State) (h0 : Only qs s0 s) (hm : ∀ p ∈ ([.mlk] : List Part), p ∈ qs) : Only qs s0 (mlkCount i s) := by
  refine h0.step ?_ hm; clear h0 hm
  simp +decide (maxDischargeDepth := 60) only [mlkCount, Only.refl, State.modMlk_only]
@[simp] theorem countMissed_only {s0 : State} {qs : List Part} (s : State) (h0 : Only qs s0 s) (hm : ∀ p ∈ ([.mlk] : List Part), p ∈ qs) : Only qs s0 (countMissed s) := by
  refine h0.step ?_ hm; clear h0 hm
  simp +decide (maxDischargeDepth := 60) only [countMissed, Only.refl, State.modMlk_only]
@[simp] theorem bkiCount_only {s0 : State} {qs : List Part} (i : Nat) (s : State) (n : Nat) (h0 : Only qs s0 s) (hm : ∀ p ∈ ([.bki] : List Part), p ∈ qs) : Only qs s0 (bkiCount i s n) := by
  refine h0.step ?_ hm; clear h0 hm
  simp +decide (maxDischargeDepth := 60) only [bkiCount, Only.refl, State.modBki_only]
@[simp] theorem gateDrop_only {s0 : State} {qs : List Part} (counter : Nat) (g : GateFrame) (s : State) (h0 : Only qs s0 s) (hm : ∀ p ∈ ([.sw, .insts, .cgu, .time, .bki, .evr, .mbx] : List Part), p ∈ qs) : Only qs s0 (gateDrop counter g s) := by
  refine h0.step ?_ hm; clear h0 hm
  simp +decide (maxDischargeDepth := 60) only [gateDrop, Only.refl, cguCount_only, txDone_only, unsent_only]
@[simp] theorem heldAside_only {s0 : State} {qs : List Part} (n : Nat) (up : Bool) (s : State) (h0 : Only qs s0 s) (hm : ∀ p ∈ ([.sw] : List Part), p ∈ qs) : Only qs s0 (heldAside n up s) := by
  refine h0.step ?_ hm; clear h0 hm
  simp +decide (maxDischargeDepth := 60) only [heldAside, Only.refl, State.modSw_only, only_ite]
@[simp] theorem gateRelease_only {s0 : State} {qs : List Part} (g : GateFrame) (s : State) (h0 : Only qs s0 s) (hm : ∀ p ∈ ([.ports, .sw, .insts, .cgu, .time, .bki, .evr, .mbx] : List Part), p ∈ qs) : Only qs s0 (gateRelease g s) := by
  refine h0.step ?_ hm; clear h0 hm
  simp +decide (maxDischargeDepth := 60) only [gateRelease, Only.refl, cguCount_only, enqueue_only]
@[simp] theorem gateOne_only {s0 : State} {qs : List Part} (g : GateFrame) (s : State) (h0 : Only qs s0 s) (hm : ∀ p ∈ ([.ports, .sw, .insts, .cgu, .time, .bki, .evr, .mbx] : List Part), p ∈ qs) : Only qs s0 (gateOne g s) := by
  refine h0.step ?_ hm; clear h0 hm
  simp only [gateOne]
  repeat' (first | (simp +decide (maxDischargeDepth := 60) only [Only.refl, State.modCgu_only, gateDrop_only, gateRelease_only, heldAside_only, only_ite]; done) | split | intro _)
@[simp] theorem reexamine_only {s0 : State} {qs : List Part} (s : State) (h0 : Only qs s0 s) (hm : ∀ p ∈ ([.ports, .sw, .insts, .cgu, .time, .bki, .evr, .mbx] : List Part), p ∈ qs) : Only qs s0 (reexamine s) := by
  refine h0.step ?_ hm; clear h0 hm
  simp only [reexamine]
  repeat' (first | (simp +decide (maxDischargeDepth := 60) only [Only.refl, State.modCgu_only, foldl_only, gateOne_only, heldAside_only, forall_const, implies_true, Option.some.injEq, forall_eq', forall_apply_eq_imp_iff, imp_self]; done) | assumption | split | intro _ | (subst_vars; simp +decide (maxDischargeDepth := 60) only [Only.refl, State.modCgu_only, foldl_only, gateOne_only, heldAside_only]; done) | (injections; subst_vars; simp +decide (maxDischargeDepth := 60) only [Only.refl, State.modCgu_only, foldl_only, gateOne_only, heldAside_only]; done) | simp +decide (maxDischargeDepth := 60) only [Only.refl, State.modCgu_only, foldl_only, gateOne_only, heldAside_only])
@[simp] theorem becomeOut_only {s0 : State} {qs : List Part} (hard : Bool) (s : State) (h0 : Only qs s0 s) (hm : ∀ p ∈ ([.ports, .sw, .insts, .cgu, .time, .bki, .evr, .mbx] : List Part), p ∈ qs) : Only qs s0 (becomeOut hard s) := by
  refine h0.step ?_ hm; clear h0 hm
  simp +decide (maxDischargeDepth := 60) only [becomeOut, Only.refl, State.modCgu_only, reexamine_only, setRole_only, winFalls_only]
@[simp] theorem switchRecord_only {s0 : State} {qs : List Part} (reason : Nat) (s : State) (h0 : Only qs s0 s) (hm : ∀ p ∈ ([.bki, .evr] : List Part), p ∈ qs) : Only qs s0 (switchRecord reason s) := by
  refine h0.step ?_ hm; clear h0 hm
  simp +decide (maxDischargeDepth := 60) only [switchRecord, Only.refl, note_only]
@[simp] theorem endSwitch_only {s0 : State} {qs : List Part} (st : Status) (s : State) (h0 : Only qs s0 s) (hm : ∀ p ∈ ([.mlk, .bki, .evr, .mbx, .mon] : List Part), p ∈ qs) : Only qs s0 (endSwitch st s) := by
  refine h0.step ?_ hm; clear h0 hm
  simp only [endSwitch]
  repeat' (first | (simp +decide (maxDischargeDepth := 60) only [Only.refl, State.modMlk_only, only_ite, opDone_only, switchRecord_only]; done) | split | intro _)
@[simp] theorem startTakeover_only {s0 : State} {qs : List Part} (s : State) (h0 : Only qs s0 s) (hm : ∀ p ∈ ([.cgu, .bki, .evr, .mbx, .persist] : List Part), p ∈ qs) : Only qs s0 (startTakeover s) := by
  refine h0.step ?_ hm; clear h0 hm
  simp only [startTakeover]
  repeat' (first | (simp +decide (maxDischargeDepth := 60) only [Only.refl, State.modCgu_only, configChanged_only, note_only, only_ite, setRole_only]; done) | split | intro _)
@[simp] theorem recordDecision_only {s0 : State} {qs : List Part} (row : Nat) (against : Option Bool) (k : CmpKey) (s : State) (h0 : Only qs s0 s) (hm : ∀ p ∈ ([.ocu, .mlk, .bki, .evr, .mbx] : List Part), p ∈ qs) : Only qs s0 (recordDecision row against k s) := by
  refine h0.step ?_ hm; clear h0 hm
  simp only [recordDecision]
  repeat' (first | (simp +decide (maxDischargeDepth := 60) only [Only.refl, State.modMlk_only, bkiCount_only, emit_only, note_only, ocuCount_only, only_ite]; done) | split | intro _)
@[simp] theorem actDecision_only {s0 : State} {qs : List Part} (row : Nat) (own : Bool) (s : State) (h0 : Only qs s0 s) (hm : ∀ p ∈ ([.ports, .sw, .insts, .cgu, .ocu, .time, .bki, .evr, .mbx, .persist] : List Part), p ∈ qs) : Only qs s0 (actDecision row own s) := by
  refine h0.step ?_ hm; clear h0 hm
  simp only [actDecision]
  repeat' (first | (simp +decide (maxDischargeDepth := 60) only [Only.refl, State.modOcu_only, becomeOut_only, only_ite, startTakeover_only]; done) | split | intro _)
@[simp] theorem refereeF_only {s0 : State} {qs : List Part} (s : State) (h0 : Only qs s0 s) (hm : ∀ p ∈ ([.ports, .sw, .insts, .cgu, .ocu, .mlk, .time, .bki, .evr, .mbx, .persist] : List Part), p ∈ qs) : Only qs s0 (refereeF s) := by
  refine h0.step ?_ hm; clear h0 hm
  simp only [refereeF]
  repeat' (first | (simp +decide (maxDischargeDepth := 60) only [Only.refl, State.modOcu_only, actDecision_only, only_ite, recordDecision_only]; done) | split | intro _)
@[simp] theorem releaseClaim_only {s0 : State} {qs : List Part} (s : State) (h0 : Only qs s0 s) (hm : ∀ p ∈ ([.ports, .sw, .insts, .cgu, .time, .bki, .evr, .mbx] : List Part), p ∈ qs) : Only qs s0 (releaseClaim s) := by
  refine h0.step ?_ hm; clear h0 hm
  simp only [releaseClaim]
  repeat' (first | (simp +decide (maxDischargeDepth := 60) only [Only.refl, becomeOut_only, only_ite]; done) | split | intro _)
@[simp] theorem captureAll_only {s0 : State} {qs : List Part} (latch : Bool) (s : State) (h0 : Only qs s0 s) (hm : ∀ p ∈ ([.faults] : List Part), p ∈ qs) : Only qs s0 (captureAll latch s) := by
  refine h0.step ?_ hm; clear h0 hm
  simp only [captureAll]
  repeat' (first | (simp +decide (maxDischargeDepth := 60) only [Only.refl, State.setFset_only, foldl_only, forall_const, implies_true, Option.some.injEq, forall_eq', forall_apply_eq_imp_iff, imp_self]; done) | assumption | split | intro _ | (subst_vars; simp +decide (maxDischargeDepth := 60) only [Only.refl, State.setFset_only, foldl_only]; done) | (injections; subst_vars; simp +decide (maxDischargeDepth := 60) only [Only.refl, State.setFset_only, foldl_only]; done) | simp +decide (maxDischargeDepth := 60) only [Only.refl, State.setFset_only, foldl_only])
@[simp] theorem breakMgpLocks_only {s0 : State} {qs : List Part} (s : State) (h0 : Only qs s0 s) (hm : ∀ p ∈ ([.insts] : List Part), p ∈ qs) : Only qs s0 (breakMgpLocks s) := by
  refine h0.step ?_ hm; clear h0 hm
  simp +decide (maxDischargeDepth := 60) only [breakMgpLocks, Only.refl, State.modInsts_only, only_ite]
@[simp] theorem mgpDown_only {s0 : State} {qs : List Part} (s : State) (h0 : Only qs s0 s) (hm : ∀ p ∈ ([.insts, .faults, .mbx, .persist, .mon] : List Part), p ∈ qs) : Only qs s0 (mgpDown s) := by
  refine h0.step ?_ hm; clear h0 hm
  unfold mgpDown
  repeat' (first | (simp +decide (maxDischargeDepth := 60); done) | split | assumption | intro _ | (subst_vars; simp +decide (maxDischargeDepth := 60); done))
@[simp] theorem mgpRestart_only {s0 : State} {qs : List Part} (s : State) (h0 : Only qs s0 s) (hm : ∀ p ∈ ([.insts, .bki, .faults, .mbx, .persist, .mon] : List Part), p ∈ qs) : Only qs s0 (mgpRestart s) := by
  refine h0.step ?_ hm; clear h0 hm
  simp only [mgpRestart]
  repeat' (first | (simp +decide (maxDischargeDepth := 60) only [Only.refl, State.modBki_only, bkiCount_only, mgpDown_only, only_ite]; done) | split | intro _)
@[simp] theorem mgpLoss_only {s0 : State} {qs : List Part} (s : State) (h0 : Only qs s0 s) (hm : ∀ p ∈ ([.ports, .sw, .insts, .cgu, .time, .bki, .faults, .evr, .mbx, .persist, .mon] : List Part), p ∈ qs) : Only qs s0 (mgpLoss s) := by
  refine h0.step ?_ hm; clear h0 hm
  simp +decide (maxDischargeDepth := 60) only [mgpLoss, Only.refl, State.modBki_only, mgpRestart_only, releaseClaim_only]
@[simp] theorem bkiHold_only {s0 : State} {qs : List Part} (s : State) (h0 : Only qs s0 s) (hm : ∀ p ∈ ([.bki] : List Part), p ∈ qs) : Only qs s0 (bkiHold s) := by
  refine h0.step ?_ hm; clear h0 hm
  simp +decide (maxDischargeDepth := 60) only [bkiHold, Only.refl, State.modBki_only]
@[simp] theorem conditionEnds_only {s0 : State} {qs : List Part} (b : BlockId) (u : Nat) (s : State) (h0 : Only qs s0 s) (hm : ∀ p ∈ ([.faults] : List Part), p ∈ qs) : Only qs s0 (conditionEnds b u s) := by
  refine h0.step ?_ hm; clear h0 hm
  simp only [conditionEnds]
  repeat' (first | (simp +decide (maxDischargeDepth := 60) only [Only.refl, only_ite, persistEnds_only]; done) | split | intro _)
@[simp] theorem retry_only {s0 : State} {qs : List Part} (b : BlockId) (u : Nat) (s : State) (h0 : Only qs s0 s) (hm : ∀ p ∈ ([.ports, .head, .mlk] : List Part), p ∈ qs) : Only qs s0 (retry b u s) := by
  refine h0.step ?_ hm; clear h0 hm
  simp only [retry]
  repeat' (first | (simp +decide (maxDischargeDepth := 60) only [Only.refl, State.modHead_only, State.modMlk_only, State.setPort_only, only_ite]; done) | split | intro _)
@[simp] theorem leaveFault_only {s0 : State} {qs : List Part} (b : BlockId) (u : Nat) (s : State) (h0 : Only qs s0 s) (hm : ∀ p ∈ ([.ports, .head, .sw, .insts, .cgu, .ocu, .mlk, .time, .bki, .faults, .evr, .mbx, .persist] : List Part), p ∈ qs) : Only qs s0 (leaveFault b u s) := by
  refine h0.step ?_ hm; clear h0 hm
  simp +decide (maxDischargeDepth := 60) only [leaveFault, Only.refl, State.setFset_only, emit_only, note_only, refereeF_only, retry_only, told_only]
@[simp] theorem leaveDue_only {s0 : State} {qs : List Part} (b : BlockId) (u : Nat) (s : State) (h0 : Only qs s0 s) (hm : ∀ p ∈ ([.ports, .head, .sw, .insts, .cgu, .ocu, .mlk, .time, .bki, .faults, .evr, .mbx, .persist] : List Part), p ∈ qs) : Only qs s0 (leaveDue b u s) := by
  refine h0.step ?_ hm; clear h0 hm
  simp only [leaveDue]
  repeat' (first | (simp +decide (maxDischargeDepth := 60) only [Only.refl, leaveFault_only, only_ite]; done) | split | intro _)
@[simp] theorem raise_only {s0 : State} {qs : List Part} (f : Finding) (s : State) (h0 : Only qs s0 s) (hm : ∀ p ∈ ([.ports, .head, .sw, .insts, .cgu, .ocu, .mlk, .time, .bki, .faults, .evr, .mbx, .persist, .mon] : List Part), p ∈ qs) : Only qs s0 (raise f s) := by
  refine h0.step ?_ hm; clear h0 hm
  simp only [raise]
  repeat' (first | (simp +decide (maxDischargeDepth := 60) only [Only.refl, bkiHold_only, coilCheck_only, finding_only, leaveDue_only, mgpLoss_only, only_ite, refereeF_only, vector_only]; done) | split | intro _)
@[simp] theorem raiseRead_only {s0 : State} {qs : List Part} (b : BlockId) (u : Nat) (cls : Nat) (access : Nat) (addr : Nat) (owner : Master) (r : ReadFound) (s : State) (src : Option (BlockId × Nat)) (h0 : Only qs s0 s) (hm : ∀ p ∈ ([.ports, .head, .sw, .insts, .cgu, .ocu, .mlk, .time, .bki, .faults, .evr, .mbx, .persist, .mon] : List Part), p ∈ qs) : Only qs s0 (raiseRead b u cls access addr owner r s src) := by
  refine h0.step ?_ hm; clear h0 hm
  simp only [raiseRead]
  repeat' (first | (simp +decide (maxDischargeDepth := 60) only [Only.refl, only_ite, raise_only]; done) | split | intro _)

/-! ### InstOps -/

@[simp] theorem markDirty_only {s0 : State} {qs : List Part} (i : Nat) (a : Nat) (n : Nat) (s : State) (h0 : Only qs s0 s) (hm : ∀ p ∈ ([.mlk] : List Part), p ∈ qs) : Only qs s0 (markDirty i a n s) := by
  refine h0.step ?_ hm; clear h0 hm
  simp only [markDirty]
  repeat' (first | (simp +decide (maxDischargeDepth := 60) only [Only.refl, State.modMlk_only, only_ite]; done) | split | intro _)
@[simp] theorem lsWrite_only {s0 : State} {qs : List Part} (i : Nat) (a : Nat) (octets : List Byte) (s : State) (h0 : Only qs s0 s) (hm : ∀ p ∈ ([.insts, .mlk] : List Part), p ∈ qs) : Only qs s0 (lsWrite i a octets s) := by
  refine h0.step ?_ hm; clear h0 hm
  simp only [lsWrite]
  repeat' (first | (simp +decide (maxDischargeDepth := 60) only [Only.refl, State.modInsts_only, foldl_only, markDirty_only, only_ite]; done) | split | intro _)
@[simp] theorem dramWrite_only {s0 : State} {qs : List Part} (i : Nat) (a : Nat) (octets : List Byte) (s : State) (h0 : Only qs s0 s) (hm : ∀ p ∈ ([.insts] : List Part), p ∈ qs) : Only qs s0 (dramWrite i a octets s) := by
  refine h0.step ?_ hm; clear h0 hm
  simp only [dramWrite]
  repeat' (first | (simp +decide (maxDischargeDepth := 60) only [Only.refl, State.modInsts_only, foldl_only, only_ite]; done) | split | intro _)
@[simp] theorem dramOwn_only {s0 : State} {qs : List Part} (gs : List Nat) (tag : Nat) (s : State) (h0 : Only qs s0 s) (hm : ∀ p ∈ ([.insts] : List Part), p ∈ qs) : Only qs s0 (dramOwn gs tag s) := by
  refine h0.step ?_ hm; clear h0 hm
  simp +decide (maxDischargeDepth := 60) only [dramOwn, Only.refl, State.modInsts_only, foldl_only]
@[simp] theorem lsOwn_only {s0 : State} {qs : List Part} (gs : List Nat) (tag : Nat) (s : State) (h0 : Only qs s0 s) (hm : ∀ p ∈ ([.insts] : List Part), p ∈ qs) : Only qs s0 (lsOwn gs tag s) := by
  refine h0.step ?_ hm; clear h0 hm
  simp +decide (maxDischargeDepth := 60) only [lsOwn, Only.refl, State.modInsts_only, foldl_only]
@[simp] theorem dramGive_only {s0 : State} {qs : List Part} (gs : List Nat) (s : State) (h0 : Only qs s0 s) (hm : ∀ p ∈ ([.insts] : List Part), p ∈ qs) : Only qs s0 (dramGive gs s) := by
  refine h0.step ?_ hm; clear h0 hm
  simp +decide (maxDischargeDepth := 60) only [dramGive, Only.refl, State.modInsts_only]
@[simp] theorem lsGive_only {s0 : State} {qs : List Part} (gs : List Nat) (s : State) (h0 : Only qs s0 s) (hm : ∀ p ∈ ([.insts] : List Part), p ∈ qs) : Only qs s0 (lsGive gs s) := by
  refine h0.step ?_ hm; clear h0 hm
  simp +decide (maxDischargeDepth := 60) only [lsGive, Only.refl, State.modInsts_only]
@[simp] theorem breakLocks_only {s0 : State} {qs : List Part} (p : Lock → Bool) (s : State) (h0 : Only qs s0 s) (hm : ∀ p ∈ ([.insts] : List Part), p ∈ qs) : Only qs s0 (breakLocks p s) := by
  refine h0.step ?_ hm; clear h0 hm
  simp +decide (maxDischargeDepth := 60) only [breakLocks, Only.refl, State.modInsts_only, only_ite]
@[simp] theorem slotLocks_only {s0 : State} {qs : List Part} (i : Nat) (g : Nat) (hart : Nat) (s : State) (h0 : Only qs s0 s) (hm : ∀ p ∈ ([.ports, .head, .sw, .insts, .cgu, .ocu, .mlk, .time, .bki, .faults, .evr, .mbx, .persist, .mon] : List Part), p ∈ qs) : Only qs s0 (slotLocks i g hart s) := by
  refine h0.step ?_ hm; clear h0 hm
  simp only [slotLocks]
  repeat' (first | (simp +decide (maxDischargeDepth := 60) only [Only.refl, breakLocks_only, foldl_only, raise_only, forall_const, implies_true, Option.some.injEq, forall_eq', forall_apply_eq_imp_iff, imp_self]; done) | assumption | split | intro _ | (subst_vars; simp +decide (maxDischargeDepth := 60) only [Only.refl, breakLocks_only, foldl_only, raise_only]; done) | (injections; subst_vars; simp +decide (maxDischargeDepth := 60) only [Only.refl, breakLocks_only, foldl_only, raise_only]; done) | simp +decide (maxDischargeDepth := 60) only [Only.refl, breakLocks_only, foldl_only, raise_only])
@[simp] theorem stopCores_only {s0 : State} {qs : List Part} (i : Nat) (s : State) (h0 : Only qs s0 s) (hm : ∀ p ∈ ([.sched] : List Part), p ∈ qs) : Only qs s0 (stopCores i s) := by
  refine h0.step ?_ hm; clear h0 hm
  simp +decide (maxDischargeDepth := 60) only [stopCores, Only.refl, State.modSched_only]
@[simp] theorem clearTrips_only {s0 : State} {qs : List Part} (i : Nat) (s : State) (h0 : Only qs s0 s) (hm : ∀ p ∈ ([.cgu] : List Part), p ∈ qs) : Only qs s0 (clearTrips i s) := by
  refine h0.step ?_ hm; clear h0 hm
  simp +decide (maxDischargeDepth := 60) only [clearTrips, Only.refl, State.modCgu_only]
@[simp] theorem halt_only {s0 : State} {qs : List Part} (i : Nat) (cause : Nat) (s : State) (h0 : Only qs s0 s) (hm : ∀ p ∈ ([.insts, .sched, .cgu, .bki, .evr, .mbx] : List Part), p ∈ qs) : Only qs s0 (halt i cause s) := by
  refine h0.step ?_ hm; clear h0 hm
  simp only [halt]
  repeat' (first | (simp +decide (maxDischargeDepth := 60) only [Only.refl, State.setInst_only, breakLocks_only, clearTrips_only, emitInst_only, only_ite, stopCores_only]; done) | split | intro _)
@[simp] theorem spoofed_only {s0 : State} {qs : List Part} (i : Nat) (g : Nat) (check : Nat) (s : State) (h0 : Only qs s0 s) (hm : ∀ p ∈ ([.insts, .bki, .evr] : List Part), p ∈ qs) : Only qs s0 (spoofed i g check s) := by
  refine h0.step ?_ hm; clear h0 hm
  simp +decide (maxDischargeDepth := 60) only [spoofed, Only.refl, State.setInst_only, note_only]

/-! ### Frames -/

@[simp] theorem storeCharged_only {s0 : State} {qs : List Part} (inst : Option (Nat × Nat)) (f : Stored) (ds : List Dest) (s : State) (h0 : Only qs s0 s) (hm : ∀ p ∈ ([.ports, .sw, .sce, .insts, .cgu, .time, .acq, .bki, .evr, .mbx] : List Part), p ∈ qs) : Only qs s0 (storeCharged inst f ds s) := by
  refine h0.step ?_ hm; clear h0 hm
  simp only [storeCharged]
  repeat' (first | (simp +decide (maxDischargeDepth := 60) only [Only.refl, State.setInst_only, only_ite, storeFrame_only]; done) | split | intro _)
@[simp] theorem acqDrain_only {s0 : State} {qs : List Part} (n : Nat) (x0 : Nat) (x1 : State) (h0 : Only qs s0 x1) (hm : ∀ p ∈ ([.ports, .sw, .sce, .insts, .cgu, .time, .acq, .bki, .evr, .mbx] : List Part), p ∈ qs) : Only qs s0 (acqDrain n x0 x1) := by
  induction x0 generalizing x1 with
  | zero => (simp only [acqDrain]; first | exact h0 | (refine h0.step ?_ hm; clear h0 hm; ((try (simp +decide (maxDischargeDepth := 60) only [Only.refl, State.setAcqS_only, mgpSend_only, only_ite, forall_eq_or_imp, forall_const, implies_true, and_true, true_and, forall_eq, imp_self, IsEmpty.forall_iff, Option.some.injEq, Host.Outcome.next.injEq, forall_eq', forall_apply_eq_imp_iff]; done)); repeat' (first | (simp +decide (maxDischargeDepth := 60) only [Only.refl, State.setAcqS_only, mgpSend_only, only_ite, forall_eq_or_imp, forall_const, implies_true, and_true, true_and, forall_eq, imp_self, IsEmpty.forall_iff, Option.some.injEq, Host.Outcome.next.injEq, forall_eq', forall_apply_eq_imp_iff]; done) | (simp (disch := (intros; repeat' (first | (simp +decide (maxDischargeDepth := 60) only [Only.refl, State.setAcqS_only, mgpSend_only, only_ite, forall_eq_or_imp, forall_const, implies_true, and_true, true_and, forall_eq, imp_self, IsEmpty.forall_iff, Option.some.injEq, Host.Outcome.next.injEq, forall_eq', forall_apply_eq_imp_iff]; done) | split))) only [Only.refl, State.setAcqS_only, mgpSend_only, only_ite]; done) | assumption | (intro _) | split | (subst_vars; simp +decide (maxDischargeDepth := 60) only [Only.refl, State.setAcqS_only, mgpSend_only, only_ite, forall_eq_or_imp, forall_const, implies_true, and_true, true_and, forall_eq, imp_self, IsEmpty.forall_iff, Option.some.injEq, Host.Outcome.next.injEq, forall_eq', forall_apply_eq_imp_iff]; done) | (injections; subst_vars; simp +decide (maxDischargeDepth := 60) only [Only.refl, State.setAcqS_only, mgpSend_only, only_ite, forall_eq_or_imp, forall_const, implies_true, and_true, true_and, forall_eq, imp_self, IsEmpty.forall_iff, Option.some.injEq, Host.Outcome.next.injEq, forall_eq', forall_apply_eq_imp_iff]; done) | simp +decide (maxDischargeDepth := 60) only [Only.refl, State.setAcqS_only, mgpSend_only, only_ite, forall_eq_or_imp, forall_const, implies_true, and_true, true_and, forall_eq, imp_self, IsEmpty.forall_iff, Option.some.injEq, Host.Outcome.next.injEq, forall_eq', forall_apply_eq_imp_iff]))))
  | succ k ih =>
    simp only [acqDrain]
    repeat' (first | exact h0 | refine ih _ ?_ | refine ih _ _ ?_ | refine ih _ _ _ ?_ | (refine h0.step ?_ hm; clear h0 ih hm; ((try (simp +decide (maxDischargeDepth := 60) only [Only.refl, State.setAcqS_only, mgpSend_only, only_ite, forall_eq_or_imp, forall_const, implies_true, and_true, true_and, forall_eq, imp_self, IsEmpty.forall_iff, Option.some.injEq, Host.Outcome.next.injEq, forall_eq', forall_apply_eq_imp_iff]; done)); repeat' (first | (simp +decide (maxDischargeDepth := 60) only [Only.refl, State.setAcqS_only, mgpSend_only, only_ite, forall_eq_or_imp, forall_const, implies_true, and_true, true_and, forall_eq, imp_self, IsEmpty.forall_iff, Option.some.injEq, Host.Outcome.next.injEq, forall_eq', forall_apply_eq_imp_iff]; done) | (simp (disch := (intros; repeat' (first | (simp +decide (maxDischargeDepth := 60) only [Only.refl, State.setAcqS_only, mgpSend_only, only_ite, forall_eq_or_imp, forall_const, implies_true, and_true, true_and, forall_eq, imp_self, IsEmpty.forall_iff, Option.some.injEq, Host.Outcome.next.injEq, forall_eq', forall_apply_eq_imp_iff]; done) | split))) only [Only.refl, State.setAcqS_only, mgpSend_only, only_ite]; done) | assumption | (intro _) | split | (subst_vars; simp +decide (maxDischargeDepth := 60) only [Only.refl, State.setAcqS_only, mgpSend_only, only_ite, forall_eq_or_imp, forall_const, implies_true, and_true, true_and, forall_eq, imp_self, IsEmpty.forall_iff, Option.some.injEq, Host.Outcome.next.injEq, forall_eq', forall_apply_eq_imp_iff]; done) | (injections; subst_vars; simp +decide (maxDischargeDepth := 60) only [Only.refl, State.setAcqS_only, mgpSend_only, only_ite, forall_eq_or_imp, forall_const, implies_true, and_true, true_and, forall_eq, imp_self, IsEmpty.forall_iff, Option.some.injEq, Host.Outcome.next.injEq, forall_eq', forall_apply_eq_imp_iff]; done) | simp +decide (maxDischargeDepth := 60) only [Only.refl, State.setAcqS_only, mgpSend_only, only_ite, forall_eq_or_imp, forall_const, implies_true, and_true, true_and, forall_eq, imp_self, IsEmpty.forall_iff, Option.some.injEq, Host.Outcome.next.injEq, forall_eq', forall_apply_eq_imp_iff])); done) | split)
@[simp] theorem acqDrainPort_only {s0 : State} {qs : List Part} (k : Nat) (s : State) (h0 : Only qs s0 s) (hm : ∀ p ∈ ([.ports, .sw, .sce, .insts, .cgu, .time, .acq, .bki, .evr, .mbx] : List Part), p ∈ qs) : Only qs s0 (acqDrainPort k s) := by
  refine h0.step ?_ hm; clear h0 hm
  simp only [acqDrainPort]
  repeat' (first | (simp +decide (maxDischargeDepth := 60) only [Only.refl, acqDrain_only, foldl_only, only_ite, forall_const, implies_true, Option.some.injEq, forall_eq', forall_apply_eq_imp_iff, imp_self]; done) | assumption | split | intro _ | (subst_vars; simp +decide (maxDischargeDepth := 60) only [Only.refl, acqDrain_only, foldl_only, only_ite]; done) | (injections; subst_vars; simp +decide (maxDischargeDepth := 60) only [Only.refl, acqDrain_only, foldl_only, only_ite]; done) | simp +decide (maxDischargeDepth := 60) only [Only.refl, acqDrain_only, foldl_only, only_ite])
@[simp] theorem deliverInst_only {s0 : State} {qs : List Part} (v : Deliver) (s : State) (h0 : Only qs s0 s) (hm : ∀ p ∈ ([.sw, .insts, .mlk, .bki, .faults, .evr, .mbx] : List Part), p ∈ qs) : Only qs s0 (deliverInst v s) := by
  refine h0.step ?_ hm; clear h0 hm
  simp only [deliverInst]
  repeat' (first | (simp +decide (maxDischargeDepth := 60) only [Only.refl, State.setInst_only, copyDone_only, foldl_only, lateAt_only, lsWrite_only, only_ite, swCount_only, forall_const, implies_true, Option.some.injEq, forall_eq', forall_apply_eq_imp_iff, imp_self]; done) | assumption | split | intro _ | (subst_vars; simp +decide (maxDischargeDepth := 60) only [Only.refl, State.setInst_only, copyDone_only, foldl_only, lateAt_only, lsWrite_only, only_ite, swCount_only]; done) | (injections; subst_vars; simp +decide (maxDischargeDepth := 60) only [Only.refl, State.setInst_only, copyDone_only, foldl_only, lateAt_only, lsWrite_only, only_ite, swCount_only]; done) | simp +decide (maxDischargeDepth := 60) only [Only.refl, State.setInst_only, copyDone_only, foldl_only, lateAt_only, lsWrite_only, only_ite, swCount_only])
@[simp] theorem deliverHost_only {s0 : State} {qs : List Part} (v : Deliver) (s : State) (h0 : Only qs s0 s) (hm : ∀ p ∈ ([.sw, .insts, .bki, .evr, .mbx] : List Part), p ∈ qs) : Only qs s0 (deliverHost v s) := by
  refine h0.step ?_ hm; clear h0 hm
  simp only [deliverHost]
  repeat' (first | (simp +decide (maxDischargeDepth := 60) only [Only.refl, State.modMbx_only, copyDone_only, foldl_only, only_ite, vector_only]; done) | split | intro _)

end Sys2Proof.Machine
end

