-- ==== Sys2Proof/Laws/OnlyUnits.lean ====
section
/-!
SUPPORT. Laws/OnlyUnits.lean: what may change in the operations of the units: acquisition, control engine, stream table, life cycle, control groups, partitions, time, saving, power and backup island.
One lemma per operation, in the order of the definitions.
-/
namespace Sys2Proof.Machine
open Sys2Proof
set_option linter.all false

/-! ### Acquisition -/

@[simp] theorem acqSet_only {s0 : State} {qs : List Part} (x : AcqSet) (s : State) (h0 : Only qs s0 s) (hm : ∀ p ∈ ([.acq, .bki, .evr] : List Part), p ∈ qs) : Only qs s0 (acqSet x s) := by
  refine h0.step ?_ hm; clear h0 hm
  simp only [acqSet]
  repeat' (first | (simp +decide (maxDischargeDepth := 60) only [Only.refl, acqSources_only, acqTake_only, forall_const, implies_true, Option.some.injEq, forall_eq', forall_apply_eq_imp_iff, imp_self]; done) | assumption | split | intro _ | (subst_vars; simp +decide (maxDischargeDepth := 60) only [Only.refl, acqSources_only, acqTake_only]; done) | (injections; subst_vars; simp +decide (maxDischargeDepth := 60) only [Only.refl, acqSources_only, acqTake_only]; done) | simp +decide (maxDischargeDepth := 60) only [Only.refl, acqSources_only, acqTake_only])
@[simp] theorem acqCopy_only {s0 : State} {qs : List Part} (v : Deliver) (s : State) (h0 : Only qs s0 s) (hm : ∀ p ∈ ([.sw, .insts, .acq, .bki, .evr, .mbx] : List Part), p ∈ qs) : Only qs s0 (acqCopy v s) := by
  refine h0.step ?_ hm; clear h0 hm
  unfold acqCopy
  refine copyDone_only _ _ _ _ _ ?_ (by simp)
  dsimp only
  split
  · exact swCount_only _ _ _ (Only.refl _ _) (by simp)
  split
  · exact Only.refl _ _
  · refine acqSources_only _ _ _ (fun n k y t => ?_) (Only.refl _ _) (by simp)
    refine foldl_only _ _ (Only.refl _ _) fun t a => ?_
    split
    · exact acqTake_only _ _ _ _ (Only.refl _ _) (by simp)
    · exact Only.refl _ _
@[simp] theorem acqRelease_only {s0 : State} {qs : List Part} (n : Nat) (s : State) (h0 : Only qs s0 s) (hm : ∀ p ∈ ([.insts, .acq] : List Part), p ∈ qs) : Only qs s0 (acqRelease n s) := by
  refine h0.step ?_ hm; clear h0 hm
  simp only [acqRelease]
  repeat' (first | (simp +decide (maxDischargeDepth := 60) only [Only.refl, State.setAcqS_only, dramGive_only, only_ite]; done) | split | intro _)

/-! ### SceOps -/

@[simp] theorem State.setGroup_only {s0 : State} {qs : List Part} (s : State) (g : Nat) (f : Group → Group) (h0 : Only qs s0 s) (hm : ∀ p ∈ ([.sce] : List Part), p ∈ qs) : Only qs s0 (State.setGroup s g f) := by
  refine h0.step ?_ hm; clear h0 hm
  simp +decide (maxDischargeDepth := 60) only [State.setGroup, Only.refl, State.modSce_only]
@[simp] theorem State.setCtx_only {s0 : State} {qs : List Part} (s : State) (n : Nat) (f : Ctx → Ctx) (h0 : Only qs s0 s) (hm : ∀ p ∈ ([.sce] : List Part), p ∈ qs) : Only qs s0 (State.setCtx s n f) := by
  refine h0.step ?_ hm; clear h0 hm
  simp +decide (maxDischargeDepth := 60) only [State.setCtx, Only.refl, State.modSce_only]
@[simp] theorem sceCount_only {s0 : State} {qs : List Part} (i : Nat) (s : State) (n : Nat) (h0 : Only qs s0 s) (hm : ∀ p ∈ ([.sce] : List Part), p ∈ qs) : Only qs s0 (sceCount i s n) := by
  refine h0.step ?_ hm; clear h0 hm
  simp +decide (maxDischargeDepth := 60) only [sceCount, Only.refl, State.modSce_only]
@[simp] theorem ringWrite_only {s0 : State} {qs : List Part} (i : Nat) (r : Nat) (mk : Nat → List Byte) (s : State) (h0 : Only qs s0 s) (hm : ∀ p ∈ ([.sce, .insts, .mlk] : List Part), p ∈ qs) : Only qs s0 (ringWrite i r mk s) := by
  refine h0.step ?_ hm; clear h0 hm
  simp only [ringWrite]
  repeat' (first | (simp +decide (maxDischargeDepth := 60) only [Only.refl, State.modSce_only, lsWrite_only]; done) | split | intro _)
@[simp] theorem dropStale_only {s0 : State} {qs : List Part} (g : Nat) (s : State) (h0 : Only qs s0 s) (hm : ∀ p ∈ ([.sce] : List Part), p ∈ qs) : Only qs s0 (dropStale g s) := by
  refine h0.step ?_ hm; clear h0 hm
  simp only [dropStale]
  repeat' (first | (simp +decide (maxDischargeDepth := 60) only [Only.refl, State.setGroup_only, only_ite, sceCount_only]; done) | split | intro _)
@[simp] theorem sceEvent_only {s0 : State} {qs : List Part} (g : Nat) (e : EventBody) (s : State) (h0 : Only qs s0 s) (hm : ∀ p ∈ ([.sce, .insts, .mlk] : List Part), p ∈ qs) : Only qs s0 (sceEvent g e s) := by
  refine h0.step ?_ hm; clear h0 hm
  simp only [sceEvent]
  repeat' (first | (simp +decide (maxDischargeDepth := 60) only [Only.refl, dropStale_only, foldl_only, ringWrite_only, sceCount_only, forall_const, implies_true, Option.some.injEq, forall_eq', forall_apply_eq_imp_iff, imp_self]; done) | assumption | split | intro _ | (subst_vars; simp +decide (maxDischargeDepth := 60) only [Only.refl, dropStale_only, foldl_only, ringWrite_only, sceCount_only]; done) | (injections; subst_vars; simp +decide (maxDischargeDepth := 60) only [Only.refl, dropStale_only, foldl_only, ringWrite_only, sceCount_only]; done) | simp +decide (maxDischargeDepth := 60) only [Only.refl, dropStale_only, foldl_only, ringWrite_only, sceCount_only])
@[simp] theorem groupEvent_only {s0 : State} {qs : List Part} (g : Nat) (type : Nat) (smp : Nat) (synch : Nat) (s : State) (h0 : Only qs s0 s) (hm : ∀ p ∈ ([.sce, .insts, .mlk] : List Part), p ∈ qs) : Only qs s0 (groupEvent g type smp synch s) := by
  refine h0.step ?_ hm; clear h0 hm
  simp +decide (maxDischargeDepth := 60) only [groupEvent, Only.refl, sceEvent_only]
@[simp] theorem thrEvent_only {s0 : State} {qs : List Part} (g : Nat) (n : Nat) (thr : Nat) (type : Nat) (smp : Nat) (t : Thr) (value : Int) (config : Bool) (s : State) (h0 : Only qs s0 s) (hm : ∀ p ∈ ([.sce, .insts, .mlk, .acq] : List Part), p ∈ qs) : Only qs s0 (thrEvent g n thr type smp t value config s) := by
  refine h0.step ?_ hm; clear h0 hm
  simp only [thrEvent]
  repeat' (first | (simp +decide (maxDischargeDepth := 60) only [Only.refl, acqTrigger_only, only_ite, sceCount_only, sceEvent_only]; done) | split | intro _)
@[simp] theorem groupOutput_only {s0 : State} {qs : List Part} (gn : Nat) (smp : Nat) (synch : Nat) (s : State) (h0 : Only qs s0 s) (hm : ∀ p ∈ ([.sw, .sce, .insts, .mlk, .acq, .bki, .evr] : List Part), p ∈ qs) : Only qs s0 (groupOutput gn smp synch s) := by
  refine h0.step ?_ hm; clear h0 hm
  simp only [groupOutput]
  repeat' (first | (simp +decide (maxDischargeDepth := 60) only [Only.refl, State.setCtx_only, State.setGroup_only, acqPass_only, dropStale_only, foldl_only, only_ite, ringWrite_only, sceCount_only, thrEvent_only, forall_const, implies_true, Option.some.injEq, forall_eq', forall_apply_eq_imp_iff, imp_self]; done) | assumption | split | intro _ | (subst_vars; simp +decide (maxDischargeDepth := 60) only [Only.refl, State.setCtx_only, State.setGroup_only, acqPass_only, dropStale_only, foldl_only, only_ite, ringWrite_only, sceCount_only, thrEvent_only]; done) | (injections; subst_vars; simp +decide (maxDischargeDepth := 60) only [Only.refl, State.setCtx_only, State.setGroup_only, acqPass_only, dropStale_only, foldl_only, only_ite, ringWrite_only, sceCount_only, thrEvent_only]; done) | simp +decide (maxDischargeDepth := 60) only [Only.refl, State.setCtx_only, State.setGroup_only, acqPass_only, dropStale_only, foldl_only, only_ite, ringWrite_only, sceCount_only, thrEvent_only])
@[simp] theorem applyPreset_only {s0 : State} {qs : List Part} (gn : Nat) (settle : Bool) (s : State) (h0 : Only qs s0 s) (hm : ∀ p ∈ ([.sce, .free] : List Part), p ∈ qs) : Only qs s0 (applyPreset gn settle s) := by
  refine h0.step ?_ hm; clear h0 hm
  simp only [applyPreset]
  repeat' (first | (simp +decide (maxDischargeDepth := 60) only [Only.refl, State.setGroup_only, State.took_only, only_ite, sceCount_only]; done) | split | intro _)
@[simp] theorem groupPosition_only {s0 : State} {qs : List Part} (gn : Nat) (ins : List (Int × BitVec 32)) (kind : PosKind) (smp : Nat) (ext : Nat) (synch : Nat) (req : Nat) (s : State) (h0 : Only qs s0 s) (hm : ∀ p ∈ ([.sw, .sce, .insts, .mlk, .acq, .bki, .evr, .free] : List Part), p ∈ qs) : Only qs s0 (groupPosition gn ins kind smp ext synch req s) := by
  refine h0.step ?_ hm; clear h0 hm
  simp only [groupPosition]
  repeat' (first | (simp +decide (maxDischargeDepth := 60) only [Only.refl, State.setCtx_only, State.setGroup_only, applyPreset_only, foldl_only, groupOutput_only, only_ite, forall_const, implies_true, Option.some.injEq, forall_eq', forall_apply_eq_imp_iff, imp_self]; done) | assumption | split | intro _ | (subst_vars; simp +decide (maxDischargeDepth := 60) only [Only.refl, State.setCtx_only, State.setGroup_only, applyPreset_only, foldl_only, groupOutput_only, only_ite]; done) | (injections; subst_vars; simp +decide (maxDischargeDepth := 60) only [Only.refl, State.setCtx_only, State.setGroup_only, applyPreset_only, foldl_only, groupOutput_only, only_ite]; done) | simp +decide (maxDischargeDepth := 60) only [Only.refl, State.setCtx_only, State.setGroup_only, applyPreset_only, foldl_only, groupOutput_only, only_ite])
@[simp] theorem groupRefill_only {s0 : State} {qs : List Part} (gn : Nat) (s : State) (h0 : Only qs s0 s) (hm : ∀ p ∈ ([.sce, .free] : List Part), p ∈ qs) : Only qs s0 (groupRefill gn s) := by
  refine h0.step ?_ hm; clear h0 hm
  simp only [groupRefill]
  repeat' (first | (simp +decide (maxDischargeDepth := 60) only [Only.refl, State.setCtx_only, applyPreset_only, foldl_only, forall_const, implies_true, Option.some.injEq, forall_eq', forall_apply_eq_imp_iff, imp_self]; done) | assumption | split | intro _ | (subst_vars; simp +decide (maxDischargeDepth := 60) only [Only.refl, State.setCtx_only, applyPreset_only, foldl_only]; done) | (injections; subst_vars; simp +decide (maxDischargeDepth := 60) only [Only.refl, State.setCtx_only, applyPreset_only, foldl_only]; done) | simp +decide (maxDischargeDepth := 60) only [Only.refl, State.setCtx_only, applyPreset_only, foldl_only])
@[simp] theorem groupStart_only {s0 : State} {qs : List Part} (gn : Nat) (ins : List (Int × BitVec 32)) (smp : Nat) (synch : Nat) (req : Nat) (s : State) (h0 : Only qs s0 s) (hm : ∀ p ∈ ([.sw, .sce, .insts, .mlk, .acq, .bki, .evr, .free] : List Part), p ∈ qs) : Only qs s0 (groupStart gn ins smp synch req s) := by
  refine h0.step ?_ hm; clear h0 hm
  simp only [groupStart]
  repeat' (first | (simp +decide (maxDischargeDepth := 60) only [Only.refl, State.setCtx_only, State.setGroup_only, foldl_only, groupEvent_only, groupPosition_only, groupRefill_only, only_ite, forall_const, implies_true, Option.some.injEq, forall_eq', forall_apply_eq_imp_iff, imp_self]; done) | assumption | split | intro _ | (subst_vars; simp +decide (maxDischargeDepth := 60) only [Only.refl, State.setCtx_only, State.setGroup_only, foldl_only, groupEvent_only, groupPosition_only, groupRefill_only, only_ite]; done) | (injections; subst_vars; simp +decide (maxDischargeDepth := 60) only [Only.refl, State.setCtx_only, State.setGroup_only, foldl_only, groupEvent_only, groupPosition_only, groupRefill_only, only_ite]; done) | simp +decide (maxDischargeDepth := 60) only [Only.refl, State.setCtx_only, State.setGroup_only, foldl_only, groupEvent_only, groupPosition_only, groupRefill_only, only_ite])
@[simp] theorem groupAccept_only {s0 : State} {qs : List Part} (gn : Nat) (ins : List (Int × BitVec 32)) (smp : Nat) (synch : Nat) (s : State) (h0 : Only qs s0 s) (hm : ∀ p ∈ ([.sw, .sce, .insts, .mlk, .acq, .bki, .evr, .free] : List Part), p ∈ qs) : Only qs s0 (groupAccept gn ins smp synch s) := by
  refine h0.step ?_ hm; clear h0 hm
  simp only [groupAccept]
  repeat' (first | (simp +decide (maxDischargeDepth := 60) only [Only.refl, State.setGroup_only, foldl_only, groupEvent_only, groupPosition_only, groupRefill_only, groupStart_only, only_ite, sceCount_only, forall_const, implies_true, Option.some.injEq, forall_eq', forall_apply_eq_imp_iff, imp_self]; done) | assumption | split | intro _ | (subst_vars; simp +decide (maxDischargeDepth := 60) only [Only.refl, State.setGroup_only, foldl_only, groupEvent_only, groupPosition_only, groupRefill_only, groupStart_only, only_ite, sceCount_only]; done) | (injections; subst_vars; simp +decide (maxDischargeDepth := 60) only [Only.refl, State.setGroup_only, foldl_only, groupEvent_only, groupPosition_only, groupRefill_only, groupStart_only, only_ite, sceCount_only]; done) | simp +decide (maxDischargeDepth := 60) only [Only.refl, State.setGroup_only, foldl_only, groupEvent_only, groupPosition_only, groupRefill_only, groupStart_only, only_ite, sceCount_only])
@[simp] theorem groupRestore_only {s0 : State} {qs : List Part} (gn : Nat) (s : State) (h0 : Only qs s0 s) (hm : ∀ p ∈ ([.sce] : List Part), p ∈ qs) : Only qs s0 (groupRestore gn s) := by
  refine h0.step ?_ hm; clear h0 hm
  simp only [groupRestore]
  repeat' (first | (simp +decide (maxDischargeDepth := 60) only [Only.refl, State.setCtx_only, State.setGroup_only, foldl_only, only_ite, forall_const, implies_true, Option.some.injEq, forall_eq', forall_apply_eq_imp_iff, imp_self]; done) | assumption | split | intro _ | (subst_vars; simp +decide (maxDischargeDepth := 60) only [Only.refl, State.setCtx_only, State.setGroup_only, foldl_only, only_ite]; done) | (injections; subst_vars; simp +decide (maxDischargeDepth := 60) only [Only.refl, State.setCtx_only, State.setGroup_only, foldl_only, only_ite]; done) | simp +decide (maxDischargeDepth := 60) only [Only.refl, State.setCtx_only, State.setGroup_only, foldl_only, only_ite])
@[simp] theorem groupAsdu_only {s0 : State} {qs : List Part} (gn : Nat) (first : List Byte) (a : Asdu) (s : State) (h0 : Only qs s0 s) (hm : ∀ p ∈ ([.sw, .sce, .insts, .mlk, .acq, .bki, .evr, .free] : List Part), p ∈ qs) : Only qs s0 (groupAsdu gn first a s) := by
  refine h0.step ?_ hm; clear h0 hm
  simp only [groupAsdu]
  repeat' (first | (simp +decide (maxDischargeDepth := 60) only [Only.refl, groupAccept_only, groupRestore_only, sceCount_only]; done) | split | intro _)

/-! ### StreamOps -/

@[simp] theorem learnClose_only {s0 : State} {qs : List Part} (key : BitVec 128) (s : State) (h0 : Only qs s0 s) (hm : ∀ p ∈ ([.sw] : List Part), p ∈ qs) : Only qs s0 (learnClose key s) := by
  refine h0.step ?_ hm; clear h0 hm
  simp +decide (maxDischargeDepth := 60) only [learnClose, Only.refl, State.modSw_only]
theorem putStreamNow_only {s0 : State} {qs : List Part} (idx : Nat) (c : StreamEntry) (s : State) (h0 : Only qs s0 s) (hm : ∀ p ∈ ([.sw] : List Part), p ∈ qs) (u : State) (e : putStreamNow idx c s = some u) : Only qs s0 u := by
  unfold putStreamNow at e
  dsimp only at e
  repeat' split at e
  all_goals first | contradiction | (cases e; first | exact learnClose_only _ _ (State.setStream_only _ _ _ h0 hm) hm | exact learnClose_only _ _ (State.setStream_only _ _ _ (State.setStream_only _ _ _ h0 hm) hm) hm)
theorem putFwdNow_only {s0 : State} {qs : List Part} (idx : Nat) (c : FwdEntry) (s : State) (h0 : Only qs s0 s) (hm : ∀ p ∈ ([.sw] : List Part), p ∈ qs) (u : State) (e : putFwdNow idx c s = some u) : Only qs s0 u := by
  unfold putFwdNow at e
  dsimp only at e
  repeat' split at e
  all_goals first | contradiction | (cases e; first | exact State.setFwd_only _ _ _ h0 hm | exact State.setFwd_only _ _ _ (State.setFwd_only _ _ _ h0 hm) hm)
theorem removeNow_only {s0 : State} {qs : List Part} (idx : Nat) (s : State) (h0 : Only qs s0 s) (hm : ∀ p ∈ ([.sw] : List Part), p ∈ qs) (u : State) (e : removeNow idx s = some u) : Only qs s0 u := by
  unfold removeNow at e
  dsimp only at e
  repeat' split at e
  all_goals first | contradiction | (cases e; first | exact h0 | exact State.setStream_only _ _ _ h0 hm | exact State.setFwd_only _ _ _ h0 hm)
theorem moveNow_only {s0 : State} {qs : List Part} (idx : Nat) (dest : Nat) (s : State) (h0 : Only qs s0 s) (hm : ∀ p ∈ ([.sw] : List Part), p ∈ qs) (u : State) (e : moveNow idx dest s = some u) : Only qs s0 u := by
  unfold moveNow at e
  dsimp only at e
  repeat' split at e
  all_goals first | contradiction | (cases e; first | exact h0 | exact State.setStream_only _ _ _ (State.setStream_only _ _ _ h0 hm) hm | exact State.setFwd_only _ _ _ (State.setFwd_only _ _ _ h0 hm) hm)
theorem applyChange_only {s0 : State} {qs : List Part} (c : StbChange) (s : State) (h0 : Only qs s0 s) (hm : ∀ p ∈ ([.sw] : List Part), p ∈ qs) (u : State) (e : applyChange c s = some u) : Only qs s0 u := by
  unfold applyChange at e
  split at e
  · exact putStreamNow_only _ _ _ h0 hm _ e
  · exact putFwdNow_only _ _ _ h0 hm _ e
  · split at e
    · contradiction
    · cases e; exact State.modSw_only _ h0 (hm _ (by simp))
  · split at e
    · contradiction
    · cases e; exact State.modSw_only _ h0 (hm _ (by simp))
  · exact removeNow_only _ _ h0 hm _ e
  · exact moveNow_only _ _ _ h0 hm _ e
@[simp] theorem commitDone_only {s0 : State} {qs : List Part} (s : State) (h0 : Only qs s0 s) (hm : ∀ p ∈ ([.sw, .insts, .bki, .evr, .mbx, .mon] : List Part), p ∈ qs) : Only qs s0 (commitDone s) := by
  refine h0.step ?_ hm; clear h0 hm
  simp only [commitDone]
  repeat' (first | (simp +decide (maxDischargeDepth := 60) only [Only.refl, State.modSw_only, only_ite, opDone?_only, refreshAllOver_only]; done) | split | intro _)
@[simp] theorem applyOldest_only {s0 : State} {qs : List Part} (s : State) (h0 : Only qs s0 s) (hm : ∀ p ∈ ([.sw, .insts, .bki, .evr, .mbx, .mon] : List Part), p ∈ qs) : Only qs s0 (applyOldest s) := by
  unfold applyOldest
  split
  · exact h0
  · split
    · rename_i e
      have a := applyChange_only _ _ h0 (by simpa using hm .sw (by simp)) _ e
      exact commitDone_only _ (State.modSw_only _ a (hm _ (by simp))) hm
    · exact h0
@[simp] theorem commitNow_only {s0 : State} {qs : List Part} (cs : List StbChange) (s : State) (h0 : Only qs s0 s) (hm : ∀ p ∈ ([.sw, .insts, .bki, .evr, .mbx, .mon] : List Part), p ∈ qs) : Only qs s0 (commitNow cs s) := by
  refine h0.step ?_ hm; clear h0 hm
  simp only [commitNow]
  repeat' (first | (simp +decide (maxDischargeDepth := 60) only [Only.refl, State.modSw_only, applyOldest_only, foldl_only, forall_const, implies_true, Option.some.injEq, forall_eq', forall_apply_eq_imp_iff, imp_self]; done) | assumption | split | intro _ | (subst_vars; simp +decide (maxDischargeDepth := 60) only [Only.refl, State.modSw_only, applyOldest_only, foldl_only]; done) | (injections; subst_vars; simp +decide (maxDischargeDepth := 60) only [Only.refl, State.modSw_only, applyOldest_only, foldl_only]; done) | simp +decide (maxDischargeDepth := 60) only [Only.refl, State.modSw_only, applyOldest_only, foldl_only])
@[simp] theorem afterChange_only {s0 : State} {qs : List Part} (c : StbChange) (s : State) (h0 : Only qs s0 s) (hm : ∀ p ∈ ([.sw] : List Part), p ∈ qs) : Only qs s0 (afterChange c s) := by
  refine h0.step ?_ hm; clear h0 hm
  simp +decide (maxDischargeDepth := 60) only [afterChange, Only.refl, State.modSw_only, only_ite]
@[simp] theorem committed_only {s0 : State} {qs : List Part} (s : State) (h0 : Only qs s0 s) (hm : ∀ p ∈ ([.sw] : List Part), p ∈ qs) : Only qs s0 (committed s) := by
  refine h0.step ?_ hm; clear h0 hm
  simp only [committed]
  repeat' (first | (simp +decide (maxDischargeDepth := 60) only [Only.refl, afterChange_only, foldl_only, forall_const, implies_true, Option.some.injEq, forall_eq', forall_apply_eq_imp_iff, imp_self]; done) | assumption | split | intro _ | (subst_vars; simp +decide (maxDischargeDepth := 60) only [Only.refl, afterChange_only, foldl_only]; done) | (injections; subst_vars; simp +decide (maxDischargeDepth := 60) only [Only.refl, afterChange_only, foldl_only]; done) | simp +decide (maxDischargeDepth := 60) only [Only.refl, afterChange_only, foldl_only])
@[simp] theorem planChange_only {s0 : State} {qs : List Part} (s : State) (c : StbChange) (h0 : Only qs s0 s) (hm : ∀ p ∈ ([.sw] : List Part), p ∈ qs) : Only qs s0 (planChange s c) := by
  refine h0.step ?_ hm; clear h0 hm
  simp only [planChange]
  repeat' (first | (simp +decide (maxDischargeDepth := 60) only [Only.refl, State.setFwd_only, State.setStream_only, only_ite]; done) | split | intro _)
@[simp] theorem planned_only {s0 : State} {qs : List Part} (s : State) (h0 : Only qs s0 s) (hm : ∀ p ∈ ([.sw] : List Part), p ∈ qs) : Only qs s0 (planned s) := by
  refine h0.step ?_ hm; clear h0 hm
  simp only [planned]
  repeat' (first | (simp +decide (maxDischargeDepth := 60) only [Only.refl, foldl_only, planChange_only, forall_const, implies_true, Option.some.injEq, forall_eq', forall_apply_eq_imp_iff, imp_self]; done) | assumption | split | intro _ | (subst_vars; simp +decide (maxDischargeDepth := 60) only [Only.refl, foldl_only, planChange_only]; done) | (injections; subst_vars; simp +decide (maxDischargeDepth := 60) only [Only.refl, foldl_only, planChange_only]; done) | simp +decide (maxDischargeDepth := 60) only [Only.refl, foldl_only, planChange_only])
@[simp] theorem sourceLearn_only {s0 : State} {qs : List Part} (k : Nat) (mac : Nat) (vid : Nat) (s : State) (h0 : Only qs s0 s) (hm : ∀ p ∈ ([.sw] : List Part), p ∈ qs) : Only qs s0 (sourceLearn k mac vid s) := by
  refine h0.step ?_ hm; clear h0 hm
  simp only [sourceLearn]
  repeat' (first | (simp +decide (maxDischargeDepth := 60) only [Only.refl, State.setFwd_only, only_ite, swCount_only]; done) | split | intro _)
@[simp] theorem learnFrame_only {s0 : State} {qs : List Part} (k : Nat) (key : BitVec 128) (f : Stored) (s : State) (h0 : Only qs s0 s) (hm : ∀ p ∈ ([.sw] : List Part), p ∈ qs) : Only qs s0 (learnFrame k key f s) := by
  refine h0.step ?_ hm; clear h0 hm
  simp only [learnFrame]
  repeat' (first | (simp +decide (maxDischargeDepth := 60) only [Only.refl, State.modSw_only, only_ite, swCount_only]; done) | split | intro _)

/-! ### LifeOps -/

@[simp] theorem lapse_only {s0 : State} {qs : List Part} (i : Nat) (s : State) (h0 : Only qs s0 s) (hm : ∀ p ∈ ([.sce, .insts, .eg, .time, .mbx] : List Part), p ∈ qs) : Only qs s0 (lapse i s) := by
  refine h0.step ?_ hm; clear h0 hm
  simp +decide (maxDischargeDepth := 60) only [lapse, Only.refl, State.modEg_only, State.modMbx_only, State.modSce_only, State.modTime_only, State.setInst_only]
@[simp] theorem eraseSlot_only {s0 : State} {qs : List Part} (n : Nat) (s : State) (h0 : Only qs s0 s) (hm : ∀ p ∈ ([.insts, .bki, .evr, .ksu, .mbx] : List Part), p ∈ qs) : Only qs s0 (eraseSlot n s) := by
  refine h0.step ?_ hm; clear h0 hm
  simp only [eraseSlot]
  repeat' (first | (simp +decide (maxDischargeDepth := 60) only [Only.refl, State.modKsu_only, only_ite, refreshOver_only]; done) | split | intro _)
@[simp] theorem rebindSlots_only {s0 : State} {qs : List Part} (i : Nat) (g : Nat) (s : State) (h0 : Only qs s0 s) (hm : ∀ p ∈ ([.insts, .bki, .evr, .ksu, .mbx] : List Part), p ∈ qs) : Only qs s0 (rebindSlots i g s) := by
  refine h0.step ?_ hm; clear h0 hm
  simp only [rebindSlots]
  repeat' (first | (simp +decide (maxDischargeDepth := 60) only [Only.refl, State.modKsu_only, eraseSlot_only, foldl_only, only_ite, forall_const, implies_true, Option.some.injEq, forall_eq', forall_apply_eq_imp_iff, imp_self]; done) | assumption | split | intro _ | (subst_vars; simp +decide (maxDischargeDepth := 60) only [Only.refl, State.modKsu_only, eraseSlot_only, foldl_only, only_ite]; done) | (injections; subst_vars; simp +decide (maxDischargeDepth := 60) only [Only.refl, State.modKsu_only, eraseSlot_only, foldl_only, only_ite]; done) | simp +decide (maxDischargeDepth := 60) only [Only.refl, State.modKsu_only, eraseSlot_only, foldl_only, only_ite])
@[simp] theorem eraseOwned_only {s0 : State} {qs : List Part} (i : Nat) (s : State) (h0 : Only qs s0 s) (hm : ∀ p ∈ ([.insts, .bki, .evr, .ksu, .mbx] : List Part), p ∈ qs) : Only qs s0 (eraseOwned i s) := by
  refine h0.step ?_ hm; clear h0 hm
  simp only [eraseOwned]
  repeat' (first | (simp +decide (maxDischargeDepth := 60) only [Only.refl, eraseSlot_only, foldl_only, forall_const, implies_true, Option.some.injEq, forall_eq', forall_apply_eq_imp_iff, imp_self]; done) | assumption | split | intro _ | (subst_vars; simp +decide (maxDischargeDepth := 60) only [Only.refl, eraseSlot_only, foldl_only]; done) | (injections; subst_vars; simp +decide (maxDischargeDepth := 60) only [Only.refl, eraseSlot_only, foldl_only]; done) | simp +decide (maxDischargeDepth := 60) only [Only.refl, eraseSlot_only, foldl_only])
@[simp] theorem discardTrigs_only {s0 : State} {qs : List Part} (i : Nat) (s : State) (h0 : Only qs s0 s) (hm : ∀ p ∈ ([.acq] : List Part), p ∈ qs) : Only qs s0 (discardTrigs i s) := by
  refine h0.step ?_ hm; clear h0 hm
  simp only [discardTrigs]
  repeat' (first | (simp +decide (maxDischargeDepth := 60) only [Only.refl, State.modAcq_only, acqCount_only, only_ite]; done) | split | intro _)
@[simp] theorem disableCmps_only {s0 : State} {qs : List Part} (i : Nat) (s : State) (h0 : Only qs s0 s) (hm : ∀ p ∈ ([.time] : List Part), p ∈ qs) : Only qs s0 (disableCmps i s) := by
  refine h0.step ?_ hm; clear h0 hm
  simp +decide (maxDischargeDepth := 60) only [disableCmps, Only.refl, State.modTime_only, only_ite]
@[simp] theorem freeCmps_only {s0 : State} {qs : List Part} (i : Nat) (s : State) (h0 : Only qs s0 s) (hm : ∀ p ∈ ([.time] : List Part), p ∈ qs) : Only qs s0 (freeCmps i s) := by
  refine h0.step ?_ hm; clear h0 hm
  simp +decide (maxDischargeDepth := 60) only [freeCmps, Only.refl, State.modTime_only, only_ite]
@[simp] theorem mirrorReset_only {s0 : State} {qs : List Part} (i : Nat) (s : State) (h0 : Only qs s0 s) (hm : ∀ p ∈ ([.mlk] : List Part), p ∈ qs) : Only qs s0 (mirrorReset i s) := by
  refine h0.step ?_ hm; clear h0 hm
  simp [mirrorReset]
@[simp] theorem freshHarts_only {s0 : State} {qs : List Part} (i : Nat) (s : State) (h0 : Only qs s0 s) (hm : ∀ p ∈ ([.sched] : List Part), p ∈ qs) : Only qs s0 (freshHarts i s) := by
  refine h0.step ?_ hm; clear h0 hm
  simp +decide (maxDischargeDepth := 60) only [freshHarts, Only.refl, State.modSched_only]
@[simp] theorem beginReset_only {s0 : State} {qs : List Part} (i : Nat) (removal : Bool) (clear : Bool) (h : Option Nat) (s : State) (h0 : Only qs s0 s) (hm : ∀ p ∈ ([.sce, .insts, .sched, .eg, .cgu, .mlk, .time, .acq, .bki, .evr, .mbx] : List Part), p ∈ qs) : Only qs s0 (beginReset i removal clear h s) := by
  refine h0.step ?_ hm; clear h0 hm
  unfold beginReset
  repeat' (first | (simp +decide (maxDischargeDepth := 60); done) | split | assumption | intro _ | (subst_vars; simp +decide (maxDischargeDepth := 60); done))
@[simp] theorem clearLs_only {s0 : State} {qs : List Part} (gs : List Nat) (s : State) (h0 : Only qs s0 s) (hm : ∀ p ∈ ([.insts] : List Part), p ∈ qs) : Only qs s0 (clearLs gs s) := by
  refine h0.step ?_ hm; clear h0 hm
  simp +decide (maxDischargeDepth := 60) only [clearLs, Only.refl, State.modInsts_only, foldl_only]
@[simp] theorem clearDram_only {s0 : State} {qs : List Part} (gs : List Nat) (s : State) (h0 : Only qs s0 s) (hm : ∀ p ∈ ([.insts] : List Part), p ∈ qs) : Only qs s0 (clearDram gs s) := by
  refine h0.step ?_ hm; clear h0 hm
  simp +decide (maxDischargeDepth := 60) only [clearDram, Only.refl, State.modInsts_only, foldl_only]
@[simp] theorem mapSubs_only {s0 : State} {qs : List Part} (f : Subscr → Subscr) (s : State) (h0 : Only qs s0 s) (hm : ∀ p ∈ ([.sce] : List Part), p ∈ qs) : Only qs s0 (mapSubs f s) := by
  refine h0.step ?_ hm; clear h0 hm
  simp +decide (maxDischargeDepth := 60) only [mapSubs, Only.refl, State.modSce_only]
@[simp] theorem mapShares_only {s0 : State} {qs : List Part} (i : Nat) (s : State) (h0 : Only qs s0 s) (hm : ∀ p ∈ ([.insts] : List Part), p ∈ qs) : Only qs s0 (mapShares i s) := by
  refine h0.step ?_ hm; clear h0 hm
  simp +decide (maxDischargeDepth := 60) only [mapShares, Only.refl, State.setInst_only, dramGive_only, dramOwn_only, lsGive_only, lsOwn_only]
@[simp] theorem resetEnds_only {s0 : State} {qs : List Part} (i : Nat) (s : State) (h0 : Only qs s0 s) (hm : ∀ p ∈ ([.sce, .insts, .sched, .eg, .cgu, .mlk, .time, .acq, .bki, .evr, .ksu, .mbx, .mon] : List Part), p ∈ qs) : Only qs s0 (resetEnds i s) := by
  refine h0.step ?_ hm; clear h0 hm
  simp only [resetEnds]
  repeat' (first | (simp +decide (maxDischargeDepth := 60) only [Only.refl, State.setInst_only, beginReset_only, clearDram_only, clearLs_only, emitInst_only, freshHarts_only, lapse_only, lsWrite_only, mapShares_only, mapSubs_only, only_ite, opDone?_only, rebindSlots_only, refreshOver_only]; done) | split | intro _)
@[simp] theorem voidSubs_only {s0 : State} {qs : List Part} (i : Nat) (mac : Nat) (s : State) (h0 : Only qs s0 s) (hm : ∀ p ∈ ([.sw, .sce, .insts, .bki, .evr, .mbx, .mon] : List Part), p ∈ qs) : Only qs s0 (voidSubs i mac s) := by
  refine h0.step ?_ hm; clear h0 hm
  simp +decide (maxDischargeDepth := 60) only [voidSubs, Only.refl, commitNow_only, mapSubs_only, only_ite]
@[simp] theorem unassignLocks_only {s0 : State} {qs : List Part} (i : Nat) (s : State) (h0 : Only qs s0 s) (hm : ∀ p ∈ ([.insts] : List Part), p ∈ qs) : Only qs s0 (unassignLocks i s) := by
  refine h0.step ?_ hm; clear h0 hm
  simp +decide (maxDischargeDepth := 60) only [unassignLocks, Only.refl, State.modInsts_only, only_ite]
@[simp] theorem removalEnds_only {s0 : State} {qs : List Part} (i : Nat) (s : State) (h0 : Only qs s0 s) (hm : ∀ p ∈ ([.sw, .sce, .insts, .sched, .eg, .mlk, .time, .bki, .evr, .ksu, .mbx, .persist, .mon] : List Part), p ∈ qs) : Only qs s0 (removalEnds i s) := by
  refine h0.step ?_ hm; clear h0 hm
  simp +decide (maxDischargeDepth := 60) only [removalEnds, Only.refl, State.modMlk_only, State.setInst_only, configChanged_only, dramGive_only, emitInst_only, eraseOwned_only, freeCmps_only, freshHarts_only, lapse_only, lsGive_only, opDone?_only, unassignLocks_only, voidSubs_only]
@[simp] theorem putStatic_only {s0 : State} {qs : List Part} (mac : Nat) (vid : Nat) (type : Nat) (target : Nat) (ports : BitVec 8) (s : State) (h0 : Only qs s0 s) (hm : ∀ p ∈ ([.sw, .insts, .bki, .evr, .mbx, .mon] : List Part), p ∈ qs) : Only qs s0 (putStatic mac vid type target ports s) := by
  refine h0.step ?_ hm; clear h0 hm
  simp only [putStatic]
  repeat' (first | (simp +decide (maxDischargeDepth := 60) only [Only.refl, commitNow_only]; done) | split | intro _)
@[simp] theorem creationEnds_only {s0 : State} {qs : List Part} (c : Creation) (s : State) (h0 : Only qs s0 s) (hm : ∀ p ∈ ([.sw, .insts, .sched, .mlk, .bki, .evr, .mbx, .persist, .mon] : List Part), p ∈ qs) : Only qs s0 (creationEnds c s) := by
  refine h0.step ?_ hm; clear h0 hm
  simp only [creationEnds]
  repeat' (first | (simp +decide (maxDischargeDepth := 60) only [Only.refl, State.modInsts_only, State.setInst_only, configChanged_only, emitInst_only, foldl_only, freshHarts_only, lsWrite_only, opDone?_only, putStatic_only, refreshOver_only, forall_const, implies_true, Option.some.injEq, forall_eq', forall_apply_eq_imp_iff, imp_self]; done) | assumption | split | intro _ | (subst_vars; simp +decide (maxDischargeDepth := 60) only [Only.refl, State.modInsts_only, State.setInst_only, configChanged_only, emitInst_only, foldl_only, freshHarts_only, lsWrite_only, opDone?_only, putStatic_only, refreshOver_only]; done) | (injections; subst_vars; simp +decide (maxDischargeDepth := 60) only [Only.refl, State.modInsts_only, State.setInst_only, configChanged_only, emitInst_only, foldl_only, freshHarts_only, lsWrite_only, opDone?_only, putStatic_only, refreshOver_only]; done) | simp +decide (maxDischargeDepth := 60) only [Only.refl, State.modInsts_only, State.setInst_only, configChanged_only, emitInst_only, foldl_only, freshHarts_only, lsWrite_only, opDone?_only, putStatic_only, refreshOver_only])
@[simp] theorem State.setLock_only {s0 : State} {qs : List Part} (s : State) (n : Nat) (l : Lock) (h0 : Only qs s0 s) (hm : ∀ p ∈ ([.insts] : List Part), p ∈ qs) : Only qs s0 (State.setLock s n l) := by
  refine h0.step ?_ hm; clear h0 hm
  simp +decide (maxDischargeDepth := 60) only [State.setLock, Only.refl, State.modInsts_only]
@[simp] theorem lockTry_only {s0 : State} {qs : List Part} (who : Master) (core : Nat) (j : Nat) (s : State) (h0 : Only qs s0 s) (hm : ∀ p ∈ ([.insts, .faults] : List Part), p ∈ qs) : Only qs s0 (lockTry who core j s).2 := by
  refine h0.step ?_ hm; clear h0 hm
  simp only [lockTry]
  repeat' (first | (simp +decide (maxDischargeDepth := 60) only [Only.refl, State.setLock_only, lateAt_only, only_ite]; done) | split | intro _)
@[simp] theorem badRelease_only {s0 : State} {qs : List Part} (who : Master) (n : Nat) (s : State) (h0 : Only qs s0 s) (hm : ∀ p ∈ ([.insts, .bki, .evr] : List Part), p ∈ qs) : Only qs s0 (badRelease who n s) := by
  refine h0.step ?_ hm; clear h0 hm
  simp +decide (maxDischargeDepth := 60) only [badRelease, Only.refl, State.modInsts_only, note_only]
@[simp] theorem lockRelease_only {s0 : State} {qs : List Part} (who : Master) (j : Nat) (value : BitVec 32) (s : State) (h0 : Only qs s0 s) (hm : ∀ p ∈ ([.insts, .bki, .faults, .evr] : List Part), p ∈ qs) : Only qs s0 (lockRelease who j value s) := by
  refine h0.step ?_ hm; clear h0 hm
  simp only [lockRelease]
  repeat' (first | (simp +decide (maxDischargeDepth := 60) only [Only.refl, State.setLock_only, badRelease_only, lateAt_only, only_ite]; done) | split | intro _)
@[simp] theorem writeAssign_only {s0 : State} {qs : List Part} (n : Nat) (en : Bool) (mgpOk : Bool) (owner : Nat) (index : Nat) (s : State) (h0 : Only qs s0 s) (hm : ∀ p ∈ ([.insts, .bki, .evr, .mbx] : List Part), p ∈ qs) : Only qs s0 (writeAssign n en mgpOk owner index s) := by
  refine h0.step ?_ hm; clear h0 hm
  simp only [writeAssign]
  repeat' (first | (simp +decide (maxDischargeDepth := 60) only [Only.refl, State.setLock_only, refreshOver_only]; done) | split | intro _)

/-! ### CtrlOps -/

@[simp] theorem egressDoorbell_only {s0 : State} {qs : List Part} (i : Nat) (g : Nat) (q : Nat) (tail : Nat) (s : State) (h0 : Only qs s0 s) (hm : ∀ p ∈ ([.insts, .eg, .bki, .faults, .evr] : List Part), p ∈ qs) : Only qs s0 (egressDoorbell i g q tail s) := by
  refine h0.step ?_ hm; clear h0 hm
  simp only [egressDoorbell]
  repeat' (first | (simp +decide (maxDischargeDepth := 60) only [Only.refl, State.modEg_only, lateAt_only, note_only, only_ite]; done) | split | intro _)
@[simp] theorem instTail_only {s0 : State} {qs : List Part} (i : Nat) (g : Nat) (tail : Nat) (s : State) (h0 : Only qs s0 s) (hm : ∀ p ∈ ([.insts, .bki, .faults, .evr, .mbx] : List Part), p ∈ qs) : Only qs s0 (instTail i g tail s) := by
  refine h0.step ?_ hm; clear h0 hm
  simp only [instTail]
  repeat' (first | (simp +decide (maxDischargeDepth := 60) only [Only.refl, State.modMbx_only, lateAt_only, note_only, only_ite]; done) | split | intro _)
@[simp] theorem ctrlWrite_only {s0 : State} {qs : List Part} (i : Nat) (g : Nat) (off : Nat) (v : BitVec 32) (s : State) (h0 : Only qs s0 s) (hm : ∀ p ∈ ([.insts, .eg, .cgu, .bki, .faults, .evr, .mbx] : List Part), p ∈ qs) : Only qs s0 (ctrlWrite i g off v s) := by
  refine h0.step ?_ hm; clear h0 hm
  simp only [ctrlWrite]
  repeat' (first | (simp +decide (maxDischargeDepth := 60) only [Only.refl, State.modCgu_only, State.modMbx_only, egressDoorbell_only, instTail_only, lateFor_only, only_ite]; done) | split | intro _)
@[simp] theorem answer_only {s0 : State} {qs : List Part} (i : Nat) (vals : List Nat) (s : State) (h0 : Only qs s0 s) (hm : ∀ p ∈ ([.insts] : List Part), p ∈ qs) : Only qs s0 (answer i vals s) := by
  refine h0.step ?_ hm; clear h0 hm
  simp +decide (maxDischargeDepth := 60) only [answer, Only.refl, State.setInst_only]

/-! ### PartOps -/

@[simp] theorem pscCount_only {s0 : State} {qs : List Part} (k : Nat) (i : Nat) (s : State) (h0 : Only qs s0 s) (hm : ∀ p ∈ ([.sched] : List Part), p ∈ qs) : Only qs s0 (pscCount k i s) := by
  refine h0.step ?_ hm; clear h0 hm
  simp +decide (maxDischargeDepth := 60) only [pscCount, Only.refl, State.setPsc_only]
@[simp] theorem slotStat_only {s0 : State} {qs : List Part} (k : Nat) (e : Nat) (f : SlotStat → SlotStat) (s : State) (h0 : Only qs s0 s) (hm : ∀ p ∈ ([.sched] : List Part), p ∈ qs) : Only qs s0 (slotStat k e f s) := by
  refine h0.step ?_ hm; clear h0 hm
  simp +decide (maxDischargeDepth := 60) only [slotStat, Only.refl, State.setPsc_only]
@[simp] theorem frameCmp_only {s0 : State} {qs : List Part} (k : Nat) (s : State) (h0 : Only qs s0 s) (hm : ∀ p ∈ ([.time] : List Part), p ∈ qs) : Only qs s0 (frameCmp k s) := by
  refine h0.step ?_ hm; clear h0 hm
  simp +decide (maxDischargeDepth := 60) only [frameCmp, Only.refl, State.modTime_only]
@[simp] theorem bankCopied_only {s0 : State} {qs : List Part} (k : Nat) (s : State) (h0 : Only qs s0 s) (hm : ∀ p ∈ ([.sched] : List Part), p ∈ qs) : Only qs s0 (bankCopied k s) := by
  refine h0.step ?_ hm; clear h0 hm
  simp only [bankCopied]
  repeat' (first | (simp +decide (maxDischargeDepth := 60) only [Only.refl, State.setPsc_only, only_ite]; done) | split | intro _)
@[simp] theorem switchBank_only {s0 : State} {qs : List Part} (k : Nat) (s : State) (h0 : Only qs s0 s) (hm : ∀ p ∈ ([.insts, .sched, .time, .bki, .evr, .mbx, .mon] : List Part), p ∈ qs) : Only qs s0 (switchBank k s) := by
  refine h0.step ?_ hm; clear h0 hm
  simp only [switchBank]
  repeat' (first | (simp +decide (maxDischargeDepth := 60) only [Only.refl, State.setPsc_only, bankCopied_only, frameCmp_only, only_ite, opDone_only, pscCount_only, refreshAllOver_only]; done) | split | intro _)
@[simp] theorem pmcCount_only {s0 : State} {qs : List Part} (i : Nat) (s : State) (h0 : Only qs s0 s) (hm : ∀ p ∈ ([.sched] : List Part), p ∈ qs) : Only qs s0 (pmcCount i s) := by
  refine h0.step ?_ hm; clear h0 hm
  simp +decide (maxDischargeDepth := 60) only [pmcCount, Only.refl, State.modSched_only]
@[simp] theorem State.setLoop_only {s0 : State} {qs : List Part} (s : State) (k : Nat) (f : Loop → Loop) (h0 : Only qs s0 s) (hm : ∀ p ∈ ([.sched] : List Part), p ∈ qs) : Only qs s0 (State.setLoop s k f) := by
  refine h0.step ?_ hm; clear h0 hm
  simp +decide (maxDischargeDepth := 60) only [State.setLoop, Only.refl, State.modSched_only, only_ite]
@[simp] theorem setVf_only {s0 : State} {qs : List Part} (n : Nat) (s : State) (h0 : Only qs s0 s) (hm : ∀ p ∈ ([.sched] : List Part), p ∈ qs) : Only qs s0 (setVf n s) := by
  refine h0.step ?_ hm; clear h0 hm
  simp only [setVf]
  repeat' (first | (simp +decide (maxDischargeDepth := 60) only [Only.refl, State.modSched_only, only_ite]; done) | split | intro _)
@[simp] theorem seasonVolt_only {s0 : State} {qs : List Part} (k : Nat) (x : SeasonKind) (s : State) (h0 : Only qs s0 s) (hm : ∀ p ∈ ([.sched] : List Part), p ∈ qs) : Only qs s0 (seasonVolt k x s) := by
  refine h0.step ?_ hm; clear h0 hm
  simp +decide (maxDischargeDepth := 60) only [seasonVolt, Only.refl, State.setLoop_only, only_ite]
@[simp] theorem supplyLoop_only {s0 : State} {qs : List Part} (k : Nat) (s : State) (h0 : Only qs s0 s) (hm : ∀ p ∈ ([.sched] : List Part), p ∈ qs) : Only qs s0 (supplyLoop k s) := by
  refine h0.step ?_ hm; clear h0 hm
  simp only [supplyLoop]
  repeat' (first | (simp +decide (maxDischargeDepth := 60) only [Only.refl, State.setLoop_only, only_ite, pmcCount_only]; done) | split | intro _)
@[simp] theorem writeLoop_only {s0 : State} {qs : List Part} (k : Nat) (f : Loop → Loop) (s : State) (h0 : Only qs s0 s) (hm : ∀ p ∈ ([.sched] : List Part), p ∈ qs) : Only qs s0 (writeLoop k f s) := by
  refine h0.step ?_ hm; clear h0 hm
  simp +decide (maxDischargeDepth := 60) only [writeLoop, Only.refl, State.setLoop_only, only_ite]
@[simp] theorem enterSeason_only {s0 : State} {qs : List Part} (x : SeasonKind) (s : State) (h0 : Only qs s0 s) (hm : ∀ p ∈ ([.ports, .head, .sw, .insts, .sched, .cgu, .time, .bki, .season, .evr, .mbx] : List Part), p ∈ qs) : Only qs s0 (enterSeason x s) := by
  refine h0.step ?_ hm; clear h0 hm
  simp +decide (maxDischargeDepth := 60) only [enterSeason, Only.refl, State.modSeason_only, coilCheck_only, emit_only, only_ite, setVf_only, vector_only]
@[simp] theorem seasonSettles_only {s0 : State} {qs : List Part} (s : State) (h0 : Only qs s0 s) (hm : ∀ p ∈ ([.ports, .head, .sw, .insts, .sched, .cgu, .time, .bki, .season, .evr, .mbx, .mon] : List Part), p ∈ qs) : Only qs s0 (seasonSettles s) := by
  refine h0.step ?_ hm; clear h0 hm
  simp only [seasonSettles]
  repeat' (first | (simp +decide (maxDischargeDepth := 60) only [Only.refl, State.modSeason_only, enterSeason_only, foldl_only, only_ite, opDone?_only, seasonVolt_only, forall_const, implies_true, Option.some.injEq, forall_eq', forall_apply_eq_imp_iff, imp_self]; done) | assumption | split | intro _ | (subst_vars; simp +decide (maxDischargeDepth := 60) only [Only.refl, State.modSeason_only, enterSeason_only, foldl_only, only_ite, opDone?_only, seasonVolt_only]; done) | (injections; subst_vars; simp +decide (maxDischargeDepth := 60) only [Only.refl, State.modSeason_only, enterSeason_only, foldl_only, only_ite, opDone?_only, seasonVolt_only]; done) | simp +decide (maxDischargeDepth := 60) only [Only.refl, State.modSeason_only, enterSeason_only, foldl_only, only_ite, opDone?_only, seasonVolt_only])
@[simp] theorem seasonSwitch_only {s0 : State} {qs : List Part} (k : Nat) (s : State) (h0 : Only qs s0 s) (hm : ∀ p ∈ ([.ports, .head, .sw, .insts, .sched, .cgu, .time, .bki, .season, .evr, .mbx, .mon] : List Part), p ∈ qs) : Only qs s0 (seasonSwitch k s) := by
  refine h0.step ?_ hm; clear h0 hm
  simp only [seasonSwitch]
  repeat' (first | (simp +decide (maxDischargeDepth := 60) only [Only.refl, State.modSeason_only, only_ite, seasonSettles_only, seasonVolt_only]; done) | split | intro _)
@[simp] theorem beginSlot_only {s0 : State} {qs : List Part} (k : Nat) (e : Nat) (x : SlotEntry) (a2 : Nat) (s : State) (h0 : Only qs s0 s) (hm : ∀ p ∈ ([.insts, .sched, .bki, .evr, .mbx, .free] : List Part), p ∈ qs) : Only qs s0 (beginSlot k e x a2 s) := by
  refine h0.step ?_ hm; clear h0 hm
  simp only [beginSlot]
  repeat' (first | (simp +decide (maxDischargeDepth := 60) only [Only.refl, State.modSched_only, State.setInst_only, State.setPsc_only, State.took_only, emitInst_only, only_ite, slotStat_only]; done) | split | intro _)
@[simp] theorem slotDue_only {s0 : State} {qs : List Part} (k : Nat) (e : Nat) (x : SlotEntry) (a2 : Nat) (s : State) (h0 : Only qs s0 s) (hm : ∀ p ∈ ([.ports, .head, .sw, .insts, .sched, .cgu, .ocu, .mlk, .time, .bki, .faults, .evr, .mbx, .persist, .mon, .free] : List Part), p ∈ qs) : Only qs s0 (slotDue k e x a2 s) := by
  refine h0.step ?_ hm; clear h0 hm
  simp only [slotDue]
  repeat' (first | (simp +decide (maxDischargeDepth := 60) only [Only.refl, State.setPsc_only, beginSlot_only, only_ite, pscCount_only, raise_only, slotStat_only]; done) | split | intro _)
@[simp] theorem served_only {s0 : State} {qs : List Part} (k : Nat) (e : Nat) (s : State) (h0 : Only qs s0 s) (hm : ∀ p ∈ ([.sched] : List Part), p ∈ qs) : Only qs s0 (served k e s) := by
  refine h0.step ?_ hm; clear h0 hm
  simp +decide (maxDischargeDepth := 60) only [served, Only.refl, State.setPsc_only]
@[simp] theorem triggerSlots_only {s0 : State} {qs : List Part} (c : Nat) (t : Nat) (s : State) (h0 : Only qs s0 s) (hm : ∀ p ∈ ([.ports, .head, .sw, .insts, .sched, .cgu, .ocu, .mlk, .time, .bki, .faults, .evr, .mbx, .persist, .mon, .free] : List Part), p ∈ qs) : Only qs s0 (triggerSlots c t s) := by
  refine h0.step ?_ hm; clear h0 hm
  simp only [triggerSlots]
  repeat' (first | (simp +decide (maxDischargeDepth := 60) only [Only.refl, foldl_only, only_ite, served_only, slotDue_only, forall_const, implies_true, Option.some.injEq, forall_eq', forall_apply_eq_imp_iff, imp_self]; done) | assumption | split | intro _ | (subst_vars; simp +decide (maxDischargeDepth := 60) only [Only.refl, foldl_only, only_ite, served_only, slotDue_only]; done) | (injections; subst_vars; simp +decide (maxDischargeDepth := 60) only [Only.refl, foldl_only, only_ite, served_only, slotDue_only]; done) | simp +decide (maxDischargeDepth := 60) only [Only.refl, foldl_only, only_ite, served_only, slotDue_only])
@[simp] theorem reportSlack_only {s0 : State} {qs : List Part} (k : Nat) (sl : Nat) (ov : Bool) (excl : Bool) (s : State) (h0 : Only qs s0 s) (hm : ∀ p ∈ ([.sched] : List Part), p ∈ qs) : Only qs s0 (reportSlack k sl ov excl s) := by
  refine h0.step ?_ hm; clear h0 hm
  simp only [reportSlack]
  repeat' (first | (simp +decide (maxDischargeDepth := 60) only [Only.refl, State.setPsc_only, only_ite]; done) | split | intro _)
@[simp] theorem slotEnds_only {s0 : State} {qs : List Part} (k : Nat) (q : Nat) (r : Running) (used : Nat) (sl : Nat) (s : State) (h0 : Only qs s0 s) (hm : ∀ p ∈ ([.ports, .head, .sw, .insts, .sched, .cgu, .ocu, .mlk, .time, .bki, .faults, .evr, .mbx, .persist, .mon] : List Part), p ∈ qs) : Only qs s0 (slotEnds k q r used sl s) := by
  refine h0.step ?_ hm; clear h0 hm
  simp +decide (maxDischargeDepth := 60) only [slotEnds, Only.refl, State.setPsc_only, slotLocks_only, slotStat_only]
@[simp] theorem setHart_only {s0 : State} {qs : List Part} (i : Nat) (h : Nat) (f : HartStat → HartStat) (s : State) (h0 : Only qs s0 s) (hm : ∀ p ∈ ([.sched] : List Part), p ∈ qs) : Only qs s0 (setHart i h f s) := by
  refine h0.step ?_ hm; clear h0 hm
  simp +decide (maxDischargeDepth := 60) only [setHart, Only.refl, State.modSched_only]
@[simp] theorem overrun_only {s0 : State} {qs : List Part} (k : Nat) (q : Nat) (r : Running) (s : State) (h0 : Only qs s0 s) (hm : ∀ p ∈ ([.ports, .head, .sw, .insts, .sched, .cgu, .ocu, .mlk, .time, .bki, .faults, .evr, .mbx, .persist, .mon] : List Part), p ∈ qs) : Only qs s0 (overrun k q r s) := by
  refine h0.step ?_ hm; clear h0 hm
  simp only [overrun]
  repeat' (first | (simp +decide (maxDischargeDepth := 60) only [Only.refl, emit_only, only_ite, pscCount_only, raise_only, reportSlack_only, setHart_only, slotEnds_only, slotStat_only]; done) | split | intro _)
@[simp] theorem yieldNow_only {s0 : State} {qs : List Part} (k : Nat) (q : Nat) (r : Running) (s : State) (h0 : Only qs s0 s) (hm : ∀ p ∈ ([.ports, .head, .sw, .insts, .sched, .cgu, .ocu, .mlk, .time, .bki, .faults, .evr, .mbx, .persist, .mon] : List Part), p ∈ qs) : Only qs s0 (yieldNow k q r s) := by
  refine h0.step ?_ hm; clear h0 hm
  simp +decide (maxDischargeDepth := 60) only [yieldNow, Only.refl, reportSlack_only, setHart_only, slotEnds_only]
@[simp] theorem islandImage_only {s0 : State} {qs : List Part} (s : State) (h0 : Only qs s0 s) (hm : ∀ p ∈ ([.ocu, .bki] : List Part), p ∈ qs) : Only qs s0 (islandImage s) := by
  refine h0.step ?_ hm; clear h0 hm
  simp +decide (maxDischargeDepth := 60) only [islandImage, Only.refl, State.modBki_only, State.modOcu_only]
@[simp] theorem switchSettles_only {s0 : State} {qs : List Part} (s : State) (h0 : Only qs s0 s) (hm : ∀ p ∈ ([.ocu, .bki, .evr, .mbx, .persist, .mon] : List Part), p ∈ qs) : Only qs s0 (switchSettles s) := by
  refine h0.step ?_ hm; clear h0 hm
  unfold switchSettles
  repeat' (first | (simp +decide (maxDischargeDepth := 60); done) | split | assumption | intro _ | (subst_vars; simp +decide (maxDischargeDepth := 60); done))
@[simp] theorem hsReplace_only {s0 : State} {qs : List Part} (k : Nat) (s : State) (h0 : Only qs s0 s) (hm : ∀ p ∈ ([.ocu, .bki, .evr, .mbx, .persist, .mon] : List Part), p ∈ qs) : Only qs s0 (hsReplace k s) := by
  refine h0.step ?_ hm; clear h0 hm
  simp only [hsReplace]
  repeat' (first | (simp +decide (maxDischargeDepth := 60) only [Only.refl, State.modPersist_only, only_ite, switchSettles_only, told_only]; done) | split | intro _)
@[simp] theorem imageHalt_only {s0 : State} {qs : List Part} (k : Nat) (s : State) (h0 : Only qs s0 s) (hm : ∀ p ∈ ([.insts, .sched, .cgu, .bki, .evr, .mbx, .persist] : List Part), p ∈ qs) : Only qs s0 (imageHalt k s) := by
  refine h0.step ?_ hm; clear h0 hm
  simp only [imageHalt]
  repeat' (first | (simp +decide (maxDischargeDepth := 60) only [Only.refl, State.modPersist_only, foldl_only, halt_only, only_ite, forall_const, implies_true, Option.some.injEq, forall_eq', forall_apply_eq_imp_iff, imp_self]; done) | assumption | split | intro _ | (subst_vars; simp +decide (maxDischargeDepth := 60) only [Only.refl, State.modPersist_only, foldl_only, halt_only, only_ite]; done) | (injections; subst_vars; simp +decide (maxDischargeDepth := 60) only [Only.refl, State.modPersist_only, foldl_only, halt_only, only_ite]; done) | simp +decide (maxDischargeDepth := 60) only [Only.refl, State.modPersist_only, foldl_only, halt_only, only_ite])
@[simp] theorem mirrorCapture_only {s0 : State} {qs : List Part} (i : Nat) (s : State) (h0 : Only qs s0 s) (hm : ∀ p ∈ ([.mlk] : List Part), p ∈ qs) : Only qs s0 (mirrorCapture i s) := by
  refine h0.step ?_ hm; clear h0 hm
  simp [mirrorCapture]
@[simp] theorem setDiscard_only {s0 : State} {qs : List Part} (i : Nat) (s : State) (h0 : Only qs s0 s) (hm : ∀ p ∈ ([.mlk] : List Part), p ∈ qs) : Only qs s0 (setDiscard i s) := by
  refine h0.step ?_ hm; clear h0 hm
  simp +decide (maxDischargeDepth := 60) only [setDiscard, Only.refl, State.modMlk_only, mlkCount_only]
@[simp] theorem applySet_only {s0 : State} {qs : List Part} (i : Nat) (set : MirSet) (s : State) (h0 : Only qs s0 s) (hm : ∀ p ∈ ([.insts, .mlk] : List Part), p ∈ qs) : Only qs s0 (applySet i set s) := by
  refine h0.step ?_ hm; clear h0 hm
  simp only [applySet]
  repeat' (first | (simp +decide (maxDischargeDepth := 60) only [Only.refl, State.modMlk_only, foldl_only, lsWrite_only, mlkCount_only, only_ite, setDiscard_only, forall_const, implies_true, Option.some.injEq, forall_eq', forall_apply_eq_imp_iff, imp_self]; done) | assumption | split | intro _ | (subst_vars; simp +decide (maxDischargeDepth := 60) only [Only.refl, State.modMlk_only, foldl_only, lsWrite_only, mlkCount_only, only_ite, setDiscard_only]; done) | (injections; subst_vars; simp +decide (maxDischargeDepth := 60) only [Only.refl, State.modMlk_only, foldl_only, lsWrite_only, mlkCount_only, only_ite, setDiscard_only]; done) | simp +decide (maxDischargeDepth := 60) only [Only.refl, State.modMlk_only, foldl_only, lsWrite_only, mlkCount_only, only_ite, setDiscard_only])
@[simp] theorem mirrorApply_only {s0 : State} {qs : List Part} (i : Nat) (s : State) (h0 : Only qs s0 s) (hm : ∀ p ∈ ([.insts, .mlk] : List Part), p ∈ qs) : Only qs s0 (mirrorApply i s) := by
  refine h0.step ?_ hm; clear h0 hm
  simp only [mirrorApply]
  repeat' (first | (simp +decide (maxDischargeDepth := 60) only [Only.refl, State.modMlk_only, applySet_only, foldl_only, only_ite, forall_const, implies_true, Option.some.injEq, forall_eq', forall_apply_eq_imp_iff, imp_self]; done) | assumption | split | intro _ | (subst_vars; simp +decide (maxDischargeDepth := 60) only [Only.refl, State.modMlk_only, applySet_only, foldl_only, only_ite]; done) | (injections; subst_vars; simp +decide (maxDischargeDepth := 60) only [Only.refl, State.modMlk_only, applySet_only, foldl_only, only_ite]; done) | simp +decide (maxDischargeDepth := 60) only [Only.refl, State.modMlk_only, applySet_only, foldl_only, only_ite])
@[simp] theorem mirrorStep_only {s0 : State} {qs : List Part} (k : Nat) (s : State) (h0 : Only qs s0 s) (hm : ∀ p ∈ ([.insts, .mlk] : List Part), p ∈ qs) : Only qs s0 (mirrorStep k s) := by
  refine h0.step ?_ hm; clear h0 hm
  simp only [mirrorStep]
  repeat' (first | (simp +decide (maxDischargeDepth := 60) only [Only.refl, foldl_only, mirrorApply_only, mirrorCapture_only, forall_const, implies_true, Option.some.injEq, forall_eq', forall_apply_eq_imp_iff, imp_self]; done) | assumption | split | intro _ | (subst_vars; simp +decide (maxDischargeDepth := 60) only [Only.refl, foldl_only, mirrorApply_only, mirrorCapture_only]; done) | (injections; subst_vars; simp +decide (maxDischargeDepth := 60) only [Only.refl, foldl_only, mirrorApply_only, mirrorCapture_only]; done) | simp +decide (maxDischargeDepth := 60) only [Only.refl, foldl_only, mirrorApply_only, mirrorCapture_only])
@[simp] theorem startFrame_only {s0 : State} {qs : List Part} (k : Nat) (s : State) (h0 : Only qs s0 s) (hm : ∀ p ∈ ([.ports, .head, .sw, .insts, .sched, .cgu, .ocu, .mlk, .time, .bki, .season, .evr, .mbx, .persist, .mon] : List Part), p ∈ qs) : Only qs s0 (startFrame k s) := by
  refine h0.step ?_ hm; clear h0 hm
  simp only [startFrame]
  repeat' (first | (simp +decide (maxDischargeDepth := 60) only [Only.refl, State.setPsc_only, hsReplace_only, imageHalt_only, mirrorStep_only, only_ite, pscCount_only, seasonSwitch_only, supplyLoop_only, switchBank_only]; done) | split | intro _)

/-! ### TimeOps -/

@[simp] theorem tbuCount_only {s0 : State} {qs : List Part} (i : Nat) (s : State) (n : Nat) (h0 : Only qs s0 s) (hm : ∀ p ∈ ([.time] : List Part), p ∈ qs) : Only qs s0 (tbuCount i s n) := by
  refine h0.step ?_ hm; clear h0 hm
  simp +decide (maxDischargeDepth := 60) only [tbuCount, Only.refl, State.modTime_only]
@[simp] theorem State.setDom_only {s0 : State} {qs : List Part} (s : State) (b : Bool) (f : Domain → Domain) (h0 : Only qs s0 s) (hm : ∀ p ∈ ([.time] : List Part), p ∈ qs) : Only qs s0 (State.setDom s b f) := by
  refine h0.step ?_ hm; clear h0 hm
  simp +decide (maxDischargeDepth := 60) only [State.setDom, Only.refl, State.modTime_only, only_ite]
@[simp] theorem State.setPtp_only {s0 : State} {qs : List Part} (s : State) (k : Nat) (f : PtpPort → PtpPort) (h0 : Only qs s0 s) (hm : ∀ p ∈ ([.time] : List Part), p ∈ qs) : Only qs s0 (State.setPtp s k f) := by
  refine h0.step ?_ hm; clear h0 hm
  simp +decide (maxDischargeDepth := 60) only [State.setPtp, Only.refl, State.modTime_only]
@[simp] theorem pdSend_only {s0 : State} {qs : List Part} (m : PdMsg) (s : State) (h0 : Only qs s0 s) (hm : ∀ p ∈ ([.ports, .sw, .sce, .insts, .cgu, .time, .acq, .bki, .evr, .mbx] : List Part), p ∈ qs) : Only qs s0 (pdSend m s) := by
  refine h0.step ?_ hm; clear h0 hm
  simp +decide (maxDischargeDepth := 60) only [pdSend, Only.refl, storeFrame_only]
@[simp] theorem State.setCmp_only {s0 : State} {qs : List Part} (s : State) (k : Nat) (f : Comparator → Comparator) (h0 : Only qs s0 s) (hm : ∀ p ∈ ([.time] : List Part), p ∈ qs) : Only qs s0 (State.setCmp s k f) := by
  refine h0.step ?_ hm; clear h0 hm
  simp +decide (maxDischargeDepth := 60) only [State.setCmp, Only.refl, State.modTime_only]
@[simp] theorem bkiSync_only {s0 : State} {qs : List Part} (s : State) (h0 : Only qs s0 s) (hm : ∀ p ∈ ([.bki] : List Part), p ∈ qs) : Only qs s0 (bkiSync s) := by
  refine h0.step ?_ hm; clear h0 hm
  simp only [bkiSync]
  repeat' (first | (simp +decide (maxDischargeDepth := 60) only [Only.refl, State.modBki_only, only_ite]; done) | split | intro _)
@[simp] theorem syncCmp_only {s0 : State} {qs : List Part} (s : State) (h0 : Only qs s0 s) (hm : ∀ p ∈ ([.time] : List Part), p ∈ qs) : Only qs s0 (syncCmp s) := by
  refine h0.step ?_ hm; clear h0 hm
  simp only [syncCmp]
  repeat' (first | (simp +decide (maxDischargeDepth := 60) only [Only.refl, State.setCmp_only, only_ite]; done) | split | intro _)
@[simp] theorem firing_only {s0 : State} {qs : List Part} (k : Nat) (t : Nat) (c : Comparator) (s : State) (h0 : Only qs s0 s) (hm : ∀ p ∈ ([.ports, .head, .sw, .insts, .sched, .cgu, .ocu, .mlk, .time, .acq, .bki, .faults, .evr, .mbx, .persist, .mon, .free] : List Part), p ∈ qs) : Only qs s0 (firing k t c s) := by
  refine h0.step ?_ hm; clear h0 hm
  simp only [firing]
  repeat' (first | (simp +decide (maxDischargeDepth := 60) only [Only.refl, acqTrigger_only, bkiSync_only, note_only, only_ite, triggerSlots_only]; done) | split | intro _)
@[simp] theorem fireCmp_only {s0 : State} {qs : List Part} (k : Nat) (late : Bool) (s : State) (h0 : Only qs s0 s) (hm : ∀ p ∈ ([.ports, .head, .sw, .insts, .sched, .cgu, .ocu, .mlk, .time, .acq, .bki, .faults, .evr, .mbx, .persist, .mon, .free] : List Part), p ∈ qs) : Only qs s0 (fireCmp k late s) := by
  refine h0.step ?_ hm; clear h0 hm
  simp +decide (maxDischargeDepth := 60) only [fireCmp, Only.refl, State.setCmp_only, firing_only, only_ite, tbuCount_only]
@[simp] theorem armCmp_only {s0 : State} {qs : List Part} (k : Nat) (s : State) (h0 : Only qs s0 s) (hm : ∀ p ∈ ([.ports, .head, .sw, .insts, .sched, .cgu, .ocu, .mlk, .time, .acq, .bki, .faults, .evr, .mbx, .persist, .mon, .free] : List Part), p ∈ qs) : Only qs s0 (armCmp k s) := by
  refine h0.step ?_ hm; clear h0 hm
  simp only [armCmp]
  repeat' (first | (simp +decide (maxDischargeDepth := 60) only [Only.refl, fireCmp_only, only_ite]; done) | split | intro _)
@[simp] theorem stepCmp_only {s0 : State} {qs : List Part} (k : Nat) (old : Nat) (s : State) (h0 : Only qs s0 s) (hm : ∀ p ∈ ([.ports, .head, .sw, .insts, .sched, .cgu, .ocu, .mlk, .time, .acq, .bki, .faults, .evr, .mbx, .persist, .mon, .free] : List Part), p ∈ qs) : Only qs s0 (stepCmp k old s) := by
  refine h0.step ?_ hm; clear h0 hm
  simp only [stepCmp]
  repeat' (first | (simp +decide (maxDischargeDepth := 60) only [Only.refl, State.setCmp_only, fireCmp_only, only_ite, tbuCount_only]; done) | split | intro _)
@[simp] theorem ppsRise_only {s0 : State} {qs : List Part} (s : State) (h0 : Only qs s0 s) (hm : ∀ p ∈ ([.time] : List Part), p ∈ qs) : Only qs s0 (ppsRise s) := by
  refine h0.step ?_ hm; clear h0 hm
  simp only [ppsRise]
  repeat' (first | (simp +decide (maxDischargeDepth := 60) only [Only.refl, State.modTime_only, only_ite]; done) | split | intro _)
@[simp] theorem startSwitch_only {s0 : State} {qs : List Part} (ref : Bool) (s : State) (h0 : Only qs s0 s) (hm : ∀ p ∈ ([.time, .bki, .evr] : List Part), p ∈ qs) : Only qs s0 (startSwitch ref s) := by
  refine h0.step ?_ hm; clear h0 hm
  simp +decide (maxDischargeDepth := 60) only [startSwitch, Only.refl, State.modTime_only, note_only, tbuCount_only]
@[simp] theorem writeRef_only {s0 : State} {qs : List Part} (ref : Bool) (s : State) (h0 : Only qs s0 s) (hm : ∀ p ∈ ([.time, .bki, .evr] : List Part), p ∈ qs) : Only qs s0 (writeRef ref s) := by
  refine h0.step ?_ hm; clear h0 hm
  simp only [writeRef]
  repeat' (first | (simp +decide (maxDischargeDepth := 60) only [Only.refl, State.modTime_only, only_ite, startSwitch_only]; done) | split | intro _)
@[simp] theorem autoSwitch_only {s0 : State} {qs : List Part} (s : State) (h0 : Only qs s0 s) (hm : ∀ p ∈ ([.time, .bki, .evr] : List Part), p ∈ qs) : Only qs s0 (autoSwitch s) := by
  refine h0.step ?_ hm; clear h0 hm
  simp only [autoSwitch]
  repeat' (first | (simp +decide (maxDischargeDepth := 60) only [Only.refl, only_ite, writeRef_only]; done) | split | intro _)
@[simp] theorem doStep_only {s0 : State} {qs : List Part} (ns : Int) (s : State) (h0 : Only qs s0 s) (hm : ∀ p ∈ ([.ports, .head, .sw, .insts, .sched, .cgu, .ocu, .mlk, .time, .acq, .bki, .faults, .evr, .mbx, .persist, .mon, .free] : List Part), p ∈ qs) : Only qs s0 (doStep ns s) := by
  refine h0.step ?_ hm; clear h0 hm
  simp only [doStep]
  repeat' (first | (simp +decide (maxDischargeDepth := 60) only [Only.refl, State.modMlk_only, State.modTime_only, foldl_only, note_only, only_ite, ppsRise_only, stepCmp_only, tbuCount_only, forall_const, implies_true, Option.some.injEq, forall_eq', forall_apply_eq_imp_iff, imp_self]; done) | assumption | split | intro _ | (subst_vars; simp +decide (maxDischargeDepth := 60) only [Only.refl, State.modMlk_only, State.modTime_only, foldl_only, note_only, only_ite, ppsRise_only, stepCmp_only, tbuCount_only]; done) | (injections; subst_vars; simp +decide (maxDischargeDepth := 60) only [Only.refl, State.modMlk_only, State.modTime_only, foldl_only, note_only, only_ite, ppsRise_only, stepCmp_only, tbuCount_only]; done) | simp +decide (maxDischargeDepth := 60) only [Only.refl, State.modMlk_only, State.modTime_only, foldl_only, note_only, only_ite, ppsRise_only, stepCmp_only, tbuCount_only])
@[simp] theorem reselect_only {s0 : State} {qs : List Part} (b : Bool) (s : State) (h0 : Only qs s0 s) (hm : ∀ p ∈ ([.time] : List Part), p ∈ qs) : Only qs s0 (reselect b s) := by
  refine h0.step ?_ hm; clear h0 hm
  simp only [reselect]
  repeat' (first | (simp +decide (maxDischargeDepth := 60) only [Only.refl, State.setDom_only, only_ite]; done) | split | intro _)
@[simp] theorem State.setIncr_only {s0 : State} {qs : List Part} (s : State) (i : Int) (h0 : Only qs s0 s) (hm : ∀ p ∈ ([.time] : List Part), p ∈ qs) : Only qs s0 (State.setIncr s i) := by
  refine h0.step ?_ hm; clear h0 hm
  simp only [State.setIncr]
  repeat' (first | (simp +decide (maxDischargeDepth := 60) only [Only.refl, State.modTime_only, only_ite]; done) | split | intro _)
@[simp] theorem servoWrites_only {s0 : State} {qs : List Part} (b : Bool) (s : State) (h0 : Only qs s0 s) (hm : ∀ p ∈ ([.time, .free] : List Part), p ∈ qs) : Only qs s0 (servoWrites b s) := by
  refine h0.step ?_ hm; clear h0 hm
  simp only [servoWrites]
  repeat' (first | (simp +decide (maxDischargeDepth := 60) only [Only.refl, State.setDom_only, State.setIncr_only, State.took_only, only_ite]; done) | split | intro _)
@[simp] theorem servoTakes_only {s0 : State} {qs : List Part} (b : Bool) (raw : Int) (s : State) (h0 : Only qs s0 s) (hm : ∀ p ∈ ([.ports, .head, .wake, .sw, .insts, .sched, .cgu, .ocu, .mlk, .time, .acq, .bki, .season, .faults, .evr, .mbx, .persist, .power, .mon, .free, .pending] : List Part), p ∈ qs) : Only qs s0 (servoTakes b raw s) := by
  refine h0.step ?_ hm; clear h0 hm
  unfold servoTakes
  repeat' (first | (simp +decide (maxDischargeDepth := 60); done) | split | assumption | intro _ | (subst_vars; simp +decide (maxDischargeDepth := 60); done))

/-! ### SaveOps -/

@[simp] theorem persistNow_only {s0 : State} {qs : List Part} (s : State) (h0 : Only qs s0 s) (hm : ∀ p ∈ ([.persist] : List Part), p ∈ qs) : Only qs s0 (persistNow s) := by
  refine h0.step ?_ hm; clear h0 hm
  simp +decide (maxDischargeDepth := 60) only [persistNow, Only.refl, State.modPersist_only, foldl_only]
@[simp] theorem writeRecord_only {s0 : State} {qs : List Part} (r : EvrRec) (s : State) (h0 : Only qs s0 s) (hm : ∀ p ∈ ([.evr] : List Part), p ∈ qs) : Only qs s0 (writeRecord r s) := by
  refine h0.step ?_ hm; clear h0 hm
  simp +decide (maxDischargeDepth := 60) only [writeRecord, Only.refl, State.modEvr_only, only_ite]
@[simp] theorem beginSave_only {s0 : State} {qs : List Part} (internal : Bool) (s : State) (h0 : Only qs s0 s) (hm : ∀ p ∈ ([.evr] : List Part), p ∈ qs) : Only qs s0 (beginSave internal s) := by
  refine h0.step ?_ hm; clear h0 hm
  simp only [beginSave]
  repeat' (first | (simp +decide (maxDischargeDepth := 60) only [Only.refl, State.modEvr_only, only_ite, writeRecord_only]; done) | split | intro _)
@[simp] theorem cutSave_only {s0 : State} {qs : List Part} (s : State) (h0 : Only qs s0 s) (hm : ∀ p ∈ ([.evr, .free] : List Part), p ∈ qs) : Only qs s0 (cutSave s) := by
  refine h0.step ?_ hm; clear h0 hm
  simp only [cutSave]
  repeat' (first | (simp +decide (maxDischargeDepth := 60) only [Only.refl, State.modEvr_only, State.took_only]; done) | split | intro _)
@[simp] theorem endSave_only {s0 : State} {qs : List Part} (s : State) (h0 : Only qs s0 s) (hm : ∀ p ∈ ([.evr] : List Part), p ∈ qs) : Only qs s0 (endSave s) := by
  refine h0.step ?_ hm; clear h0 hm
  simp only [endSave]
  repeat' (first | (simp +decide (maxDischargeDepth := 60) only [Only.refl, State.modEvr_only]; done) | split | intro _)
@[simp] theorem saveReturns_only {s0 : State} {qs : List Part} (s : State) (h0 : Only qs s0 s) (hm : ∀ p ∈ ([.evr] : List Part), p ∈ qs) : Only qs s0 (saveReturns s) := by
  refine h0.step ?_ hm; clear h0 hm
  simp only [saveReturns]
  repeat' (first | (simp +decide (maxDischargeDepth := 60) only [Only.refl, State.modEvr_only, endSave_only, only_ite, writeRecord_only]; done) | split | intro _)

/-! ### PowerOps -/

@[simp] theorem winterBegins_only {s0 : State} {qs : List Part} (h : Option Nat) (s : State) (h0 : Only qs s0 s) (hm : ∀ p ∈ ([.ports, .sw, .insts, .cgu, .time, .bki, .season, .evr, .mbx, .persist, .mon] : List Part), p ∈ qs) : Only qs s0 (winterBegins h s) := by
  refine h0.step ?_ hm; clear h0 hm
  simp only [winterBegins]
  repeat' (first | (simp +decide (maxDischargeDepth := 60) only [Only.refl, State.modSeason_only, becomeOut_only, beginSave_only, only_ite, opDone?_only, persistNow_only]; done) | split | intro _)
@[simp] theorem headAbsent_only {s0 : State} {qs : List Part} (k : Nat) (s : State) (h0 : Only qs s0 s) (hm : ∀ p ∈ ([.ports, .head, .sw, .insts, .cgu, .ocu, .mlk, .time, .bki, .faults, .evr, .mbx, .persist, .mon] : List Part), p ∈ qs) : Only qs s0 (headAbsent k s) := by
  refine h0.step ?_ hm; clear h0 hm
  simp +decide (maxDischargeDepth := 60) only [headAbsent, Only.refl, State.setPort_only, raise_only]
@[simp] theorem readSlotPins_only {s0 : State} {qs : List Part} (s : State) (h0 : Only qs s0 s) (hm : ∀ p ∈ ([.cgu] : List Part), p ∈ qs) : Only qs s0 (readSlotPins s) := by
  refine h0.step ?_ hm; clear h0 hm
  simp [readSlotPins]
@[simp] theorem headDetect_only {s0 : State} {qs : List Part} (head : Bool) (s : State) (h0 : Only qs s0 s) (hm : ∀ p ∈ ([.ports, .head, .sw, .insts, .cgu, .ocu, .mlk, .time, .bki, .faults, .evr, .mbx, .persist, .mon] : List Part), p ∈ qs) : Only qs s0 (headDetect head s) := by
  refine h0.step ?_ hm; clear h0 hm
  simp only [headDetect]
  repeat' (first | (simp +decide (maxDischargeDepth := 60) only [Only.refl, State.modHead_only, State.setPort_only, headAbsent_only, only_ite]; done) | split | intro _)
@[simp] theorem modReleased_only {s0 : State} {qs : List Part} (s : State) (h0 : Only qs s0 s) (hm : ∀ p ∈ ([.ports, .head, .wake, .sw, .insts, .cgu, .ocu, .mlk, .time, .bki, .faults, .evr, .mbx, .persist, .mon] : List Part), p ∈ qs) : Only qs s0 (modReleased s) := by
  refine h0.step ?_ hm; clear h0 hm
  simp only [modReleased]
  repeat' (first | (simp +decide (maxDischargeDepth := 60) only [Only.refl, State.modWake_only, headDetect_only, only_ite, readSlotPins_only]; done) | split | intro _)
@[simp] theorem springBegin_only {s0 : State} {qs : List Part} (wake : Nat) (s : State) (h0 : Only qs s0 s) (hm : ∀ p ∈ ([.ports, .head, .sw, .insts, .cgu, .ocu, .mlk, .time, .bki, .season, .faults, .evr, .mbx, .persist, .power, .mon] : List Part), p ∈ qs) : Only qs s0 (springBegin wake s) := by
  refine h0.step ?_ hm; clear h0 hm
  simp +decide (maxDischargeDepth := 60) only [springBegin, Only.refl, State.modPower_only, State.modSeason_only, State.modTime_only, bkiCount_only, headDetect_only, portDown_only]
@[simp] theorem wakeUp_only {s0 : State} {qs : List Part} (wake : Nat) (s : State) (h0 : Only qs s0 s) (hm : ∀ p ∈ ([.ports, .head, .sw, .insts, .cgu, .ocu, .mlk, .time, .bki, .season, .faults, .evr, .mbx, .persist, .power, .mon] : List Part), p ∈ qs) : Only qs s0 (wakeUp wake s) := by
  refine h0.step ?_ hm; clear h0 hm
  simp only [wakeUp]
  repeat' (first | (simp +decide (maxDischargeDepth := 60) only [Only.refl, State.modSeason_only, only_ite, springBegin_only]; done) | split | intro _)
@[simp] theorem mainReturns_only {s0 : State} {qs : List Part} (s : State) (h0 : Only qs s0 s) (hm : ∀ p ∈ ([.ports, .head, .sw, .insts, .cgu, .ocu, .mlk, .time, .bki, .season, .faults, .evr, .mbx, .persist, .power, .mon] : List Part), p ∈ qs) : Only qs s0 (mainReturns s) := by
  refine h0.step ?_ hm; clear h0 hm
  simp only [mainReturns]
  repeat' (first | (simp +decide (maxDischargeDepth := 60) only [Only.refl, only_ite, springBegin_only, whenDue_only, forall_const, implies_true, Option.some.injEq, forall_eq', forall_apply_eq_imp_iff, imp_self]; done) | assumption | split | intro _ | (subst_vars; simp +decide (maxDischargeDepth := 60) only [Only.refl, only_ite, springBegin_only, whenDue_only]; done) | (injections; subst_vars; simp +decide (maxDischargeDepth := 60) only [Only.refl, only_ite, springBegin_only, whenDue_only]; done) | simp +decide (maxDischargeDepth := 60) only [Only.refl, only_ite, springBegin_only, whenDue_only])

/-! ### BkiOps -/

@[simp] theorem bkiInput_only {s0 : State} {qs : List Part} (k : Nat) (xs : List Int) (mV : Int) (s : State) (h0 : Only qs s0 s) (hm : ∀ p ∈ ([.bki] : List Part), p ∈ qs) : Only qs s0 (bkiInput k xs mV s) := by
  refine h0.step ?_ hm; clear h0 hm
  simp only [bkiInput]
  repeat' (first | (simp +decide (maxDischargeDepth := 60) only [Only.refl, State.modBki_only, bkiCount_only, only_ite]; done) | split | intro _)
@[simp] theorem closeSpan_only {s0 : State} {qs : List Part} (n : Nat) (s : State) (h0 : Only qs s0 s) (hm : ∀ p ∈ ([.bki] : List Part), p ∈ qs) : Only qs s0 (closeSpan n s) := by
  refine h0.step ?_ hm; clear h0 hm
  simp +decide (maxDischargeDepth := 60) only [closeSpan, Only.refl, State.modBki_only, only_ite]
@[simp] theorem elemStep_only {s0 : State} {qs : List Part} (n : Nat) (e : ElemSlot) (s : State) (h0 : Only qs s0 s) (hm : ∀ p ∈ ([.bki] : List Part), p ∈ qs) : Only qs s0 (elemStep n e s) := by
  refine h0.step ?_ hm; clear h0 hm
  simp only [elemStep]
  repeat' (first | (simp +decide (maxDischargeDepth := 60) only [Only.refl, State.modBki_only, bkiCount_only, closeSpan_only, only_ite]; done) | split | intro _)
@[simp] theorem btDrive_only {s0 : State} {qs : List Part} (j : Nat) (s : State) (h0 : Only qs s0 s) (hm : ∀ p ∈ ([.bki] : List Part), p ∈ qs) : Only qs s0 (btDrive j s) := by
  refine h0.step ?_ hm; clear h0 hm
  simp only [btDrive]
  repeat' (first | (simp +decide (maxDischargeDepth := 60) only [Only.refl, State.modBki_only, bkiCount_only, only_ite]; done) | split | intro _)
@[simp] theorem btDriveAll_only {s0 : State} {qs : List Part} (s : State) (h0 : Only qs s0 s) (hm : ∀ p ∈ ([.bki] : List Part), p ∈ qs) : Only qs s0 (btDriveAll s) := by
  refine h0.step ?_ hm; clear h0 hm
  simp only [btDriveAll]
  repeat' (first | (simp +decide (maxDischargeDepth := 60) only [Only.refl, btDrive_only, foldl_only, forall_const, implies_true, Option.some.injEq, forall_eq', forall_apply_eq_imp_iff, imp_self]; done) | assumption | split | intro _ | (subst_vars; simp +decide (maxDischargeDepth := 60) only [Only.refl, btDrive_only, foldl_only]; done) | (injections; subst_vars; simp +decide (maxDischargeDepth := 60) only [Only.refl, btDrive_only, foldl_only]; done) | simp +decide (maxDischargeDepth := 60) only [Only.refl, btDrive_only, foldl_only])
@[simp] theorem bankSwitch_only {s0 : State} {qs : List Part} (s : State) (h0 : Only qs s0 s) (hm : ∀ p ∈ ([.bki, .persist, .free] : List Part), p ∈ qs) : Only qs s0 (bankSwitch s) := by
  refine h0.step ?_ hm; clear h0 hm
  simp only [bankSwitch]
  repeat' (first | (simp +decide (maxDischargeDepth := 60) only [Only.refl, State.modBki_only, State.modPersist_only, State.took_only, bkiCount_only, closeSpan_only, foldl_only, only_ite, forall_const, implies_true, Option.some.injEq, forall_eq', forall_apply_eq_imp_iff, imp_self]; done) | assumption | split | intro _ | (subst_vars; simp +decide (maxDischargeDepth := 60) only [Only.refl, State.modBki_only, State.modPersist_only, State.took_only, bkiCount_only, closeSpan_only, foldl_only, only_ite]; done) | (injections; subst_vars; simp +decide (maxDischargeDepth := 60) only [Only.refl, State.modBki_only, State.modPersist_only, State.took_only, bkiCount_only, closeSpan_only, foldl_only, only_ite]; done) | simp +decide (maxDischargeDepth := 60) only [Only.refl, State.modBki_only, State.modPersist_only, State.took_only, bkiCount_only, closeSpan_only, foldl_only, only_ite])
@[simp] theorem bkiOutput_only {s0 : State} {qs : List Part} (inputs : List (List Int)) (common : List Int) (s : State) (h0 : Only qs s0 s) (hm : ∀ p ∈ ([.ports, .head, .sw, .insts, .cgu, .ocu, .mlk, .time, .bki, .season, .faults, .evr, .mbx, .persist, .power, .mon, .free] : List Part), p ∈ qs) : Only qs s0 (bkiOutput inputs common s) := by
  refine h0.step ?_ hm; clear h0 hm
  simp only [bkiOutput]
  repeat' (first | (simp +decide (maxDischargeDepth := 60) only [Only.refl, State.modBki_only, bankSwitch_only, bkiInput_only, btDriveAll_only, elemStep_only, foldl_only, only_ite, wakeUp_only, forall_const, implies_true, Option.some.injEq, forall_eq', forall_apply_eq_imp_iff, imp_self]; done) | assumption | split | intro _ | (subst_vars; simp +decide (maxDischargeDepth := 60) only [Only.refl, State.modBki_only, bankSwitch_only, bkiInput_only, btDriveAll_only, elemStep_only, foldl_only, only_ite, wakeUp_only]; done) | (injections; subst_vars; simp +decide (maxDischargeDepth := 60) only [Only.refl, State.modBki_only, bankSwitch_only, bkiInput_only, btDriveAll_only, elemStep_only, foldl_only, only_ite, wakeUp_only]; done) | simp +decide (maxDischargeDepth := 60) only [Only.refl, State.modBki_only, bankSwitch_only, bkiInput_only, btDriveAll_only, elemStep_only, foldl_only, only_ite, wakeUp_only])
@[simp] theorem lockstep_only {s0 : State} {qs : List Part} (inj : Bool) (s : State) (h0 : Only qs s0 s) (hm : ∀ p ∈ ([.ports, .head, .sw, .insts, .cgu, .ocu, .mlk, .time, .bki, .faults, .evr, .mbx, .persist, .mon] : List Part), p ∈ qs) : Only qs s0 (lockstep inj s) := by
  refine h0.step ?_ hm; clear h0 hm
  simp only [lockstep]
  repeat' (first | (simp +decide (maxDischargeDepth := 60) only [Only.refl, State.modBki_only, bkiCount_only, only_ite, raise_only]; done) | split | intro _)

end Sys2Proof.Machine
end

