-- ==== Sys2Proof/Laws/OnlyFamilies.lean ====
section
/-!
SUPPORT. Laws/OnlyFamilies.lean: what may change in the operations of the command families: backstop, claims, egress, fabric, faults, instances, recorder, keys, pair, start-up, time, partitions, ports, seasons and register writes.
One lemma per operation, in the order of the definitions.
-/
namespace Sys2Proof.Machine
open Sys2Proof
set_option linter.all false

/-! ### Backstop -/

@[simp] theorem calSwap_only {s0 : State} {qs : List Part} (k : Nat) (s : State) (h0 : Only qs s0 s) (hm : ∀ p ∈ ([.bki] : List Part), p ∈ qs) : Only qs s0 (calSwap k s) := by
  refine h0.step ?_ hm; clear h0 hm
  simp +decide (maxDischargeDepth := 60) only [calSwap, Only.refl, State.modBki_only, bkiCount_only]
@[simp] theorem calFailed_only {s0 : State} {qs : List Part} (k : Nat) (s : State) (h0 : Only qs s0 s) (hm : ∀ p ∈ ([.bki] : List Part), p ∈ qs) : Only qs s0 (calFailed k s) := by
  refine h0.step ?_ hm; clear h0 hm
  simp +decide (maxDischargeDepth := 60) only [calFailed, Only.refl, State.modBki_only, bkiCount_only, only_ite]
@[simp] theorem calFail_only {s0 : State} {qs : List Part} (k : Nat) (s : State) (h0 : Only qs s0 s) (hm : ∀ p ∈ ([.ports, .head, .sw, .insts, .cgu, .ocu, .mlk, .time, .bki, .faults, .evr, .mbx, .persist, .mon] : List Part), p ∈ qs) : Only qs s0 (calFail k s) := by
  refine h0.step ?_ hm; clear h0 hm
  simp +decide (maxDischargeDepth := 60) only [calFail, Only.refl, calFailed_only, raise_only]
@[simp] theorem hbWrite_only {s0 : State} {qs : List Part} (v : BitVec 32) (s : State) (h0 : Only qs s0 s) (hm : ∀ p ∈ ([.bki, .faults] : List Part), p ∈ qs) : Only qs s0 (hbWrite v s) := by
  refine h0.step ?_ hm; clear h0 hm
  simp only [hbWrite]
  repeat' (first | (simp +decide (maxDischargeDepth := 60) only [Only.refl, State.modBki_only, bkiCount_only, conditionEnds_only, only_ite]; done) | split | intro _)
@[simp] theorem clmHoldClr_only {s0 : State} {qs : List Part} (s : State) (h0 : Only qs s0 s) (hm : ∀ p ∈ ([.bki, .mbx] : List Part), p ∈ qs) : Only qs s0 (clmHoldClr s) := by
  refine h0.step ?_ hm; clear h0 hm
  simp only [clmHoldClr]
  repeat' (first | (simp +decide (maxDischargeDepth := 60) only [Only.refl, State.modBki_only, only_ite, told_only]; done) | split | intro _)
@[simp] theorem bkiCommit_only {s0 : State} {qs : List Part} (s : State) (h0 : Only qs s0 s) (hm : ∀ p ∈ ([.bki] : List Part), p ∈ qs) : Only qs s0 (bkiCommit s) := by
  refine h0.step ?_ hm; clear h0 hm
  simp +decide (maxDischargeDepth := 60) only [bkiCommit, Only.refl, State.modBki_only]

/-! ### Claim -/

@[simp] theorem beginRounds_only {s0 : State} {qs : List Part} (ws : List Nat) (s : State) (h0 : Only qs s0 s) (hm : ∀ p ∈ ([.cgu] : List Part), p ∈ qs) : Only qs s0 (beginRounds ws s) := by
  refine h0.step ?_ hm; clear h0 hm
  simp +decide (maxDischargeDepth := 60) only [beginRounds, Only.refl, State.modCgu_only, foldl_only]
@[simp] theorem closeWire_only {s0 : State} {qs : List Part} (k : Nat) (r : RoundSeen) (s : State) (h0 : Only qs s0 s) (hm : ∀ p ∈ ([.ports, .head, .sw, .insts, .cgu, .ocu, .mlk, .time, .bki, .faults, .evr, .mbx, .persist, .mon] : List Part), p ∈ qs) : Only qs s0 (closeWire k r s) := by
  refine h0.step ?_ hm; clear h0 hm
  simp only [closeWire]
  repeat' (first | (simp +decide (maxDischargeDepth := 60) only [Only.refl, State.modCgu_only, cguCount_only, only_ite, raise_only, winFalls_only]; done) | split | intro _)
@[simp] theorem takeoverEnds_only {s0 : State} {qs : List Part} (s : State) (h0 : Only qs s0 s) (hm : ∀ p ∈ ([.ports, .sw, .insts, .cgu, .mlk, .time, .bki, .evr, .mbx, .mon] : List Part), p ∈ qs) : Only qs s0 (takeoverEnds s) := by
  refine h0.step ?_ hm; clear h0 hm
  simp only [takeoverEnds]
  repeat' (first | (simp +decide (maxDischargeDepth := 60) only [Only.refl, State.modCgu_only, cguCount_only, endSwitch_only, note_only, only_ite, reexamine_only, setRole_only]; done) | split | intro _)
@[simp] theorem stepsBack_only {s0 : State} {qs : List Part} (s : State) (h0 : Only qs s0 s) (hm : ∀ p ∈ ([.cgu, .mlk, .bki, .evr, .mbx, .mon] : List Part), p ∈ qs) : Only qs s0 (stepsBack s) := by
  refine h0.step ?_ hm; clear h0 hm
  simp only [stepsBack]
  repeat' (first | (simp +decide (maxDischargeDepth := 60) only [Only.refl, State.modMlk_only, opDone_only, setRole_only, switchRecord_only]; done) | split | intro _)
@[simp] theorem settleRole_only {s0 : State} {qs : List Part} (joins : Bool) (carried : Bool) (s : State) (h0 : Only qs s0 s) (hm : ∀ p ∈ ([.ports, .sw, .insts, .cgu, .mlk, .time, .bki, .evr, .mbx, .persist, .mon] : List Part), p ∈ qs) : Only qs s0 (settleRole joins carried s) := by
  refine h0.step ?_ hm; clear h0 hm
  simp only [settleRole]
  repeat' (first | (simp +decide (maxDischargeDepth := 60) only [Only.refl, State.modCgu_only, only_ite, setRole_only, startTakeover_only, stepsBack_only, takeoverEnds_only]; done) | split | intro _)
@[simp] theorem endRound_only {s0 : State} {qs : List Part} (r0 : RoundSeen) (r1 : RoundSeen) (s : State) (h0 : Only qs s0 s) (hm : ∀ p ∈ ([.ports, .head, .sw, .insts, .cgu, .ocu, .mlk, .time, .bki, .faults, .evr, .mbx, .persist, .mon] : List Part), p ∈ qs) : Only qs s0 (endRound r0 r1 s) := by
  refine h0.step ?_ hm; clear h0 hm
  simp only [endRound]
  repeat' (first | (simp +decide (maxDischargeDepth := 60) only [Only.refl, State.modCgu_only, cguCount_only, closeWire_only, only_ite, settleRole_only]; done) | split | intro _)
@[simp] theorem recordLost_only {s0 : State} {qs : List Part} (r0 : RoundSeen) (r1 : RoundSeen) (s : State) (h0 : Only qs s0 s) (hm : ∀ p ∈ ([.cgu] : List Part), p ∈ qs) : Only qs s0 (recordLost r0 r1 s) := by
  refine h0.step ?_ hm; clear h0 hm
  simp +decide (maxDischargeDepth := 60) only [recordLost, Only.refl, State.modCgu_only, only_ite, winFalls_only]
@[simp] theorem clmOff_only {s0 : State} {qs : List Part} (s : State) (h0 : Only qs s0 s) (hm : ∀ p ∈ ([.ports, .sw, .insts, .cgu, .time, .bki, .evr, .mbx] : List Part), p ∈ qs) : Only qs s0 (clmOff s) := by
  refine h0.step ?_ hm; clear h0 hm
  simp +decide (maxDischargeDepth := 60) only [clmOff, Only.refl, State.modCgu_only, becomeOut_only]
@[simp] theorem clmWrite_only {s0 : State} {qs : List Part} (v : Bool) (s : State) (h0 : Only qs s0 s) (hm : ∀ p ∈ ([.ports, .sw, .insts, .cgu, .time, .bki, .evr, .mbx] : List Part), p ∈ qs) : Only qs s0 (clmWrite v s) := by
  refine h0.step ?_ hm; clear h0 hm
  simp only [clmWrite]
  repeat' (first | (simp +decide (maxDischargeDepth := 60) only [Only.refl, State.modCgu_only, clmOff_only, only_ite]; done) | split | intro _)
@[simp] theorem timingLost_only {s0 : State} {qs : List Part} (s : State) (h0 : Only qs s0 s) (hm : ∀ p ∈ ([.ports, .sw, .insts, .cgu, .time, .bki, .evr, .mbx] : List Part), p ∈ qs) : Only qs s0 (timingLost s) := by
  refine h0.step ?_ hm; clear h0 hm
  simp +decide (maxDischargeDepth := 60) only [timingLost, Only.refl, State.modCgu_only, becomeOut_only]

/-! ### Egress -/

@[simp] theorem egComplete_only {s0 : State} {qs : List Part} (i : Nat) (q : Nat) (e : EgQueue) (status : Nat) (tsSeq : Nat) (ts : Bool) (s : State) (h0 : Only qs s0 s) (hm : ∀ p ∈ ([.insts, .eg, .mlk] : List Part), p ∈ qs) : Only qs s0 (egComplete i q e status tsSeq ts s) := by
  refine h0.step ?_ hm; clear h0 hm
  simp only [egComplete]
  repeat' (first | (simp +decide (maxDischargeDepth := 60) only [Only.refl, State.modEg_only, lsWrite_only, only_ite]; done) | split | intro _)
@[simp] theorem keySigned_only {s0 : State} {qs : List Part} (n : Nat) (s : State) (h0 : Only qs s0 s) (hm : ∀ p ∈ ([.ksu] : List Part), p ∈ qs) : Only qs s0 (keySigned n s) := by
  refine h0.step ?_ hm; clear h0 hm
  simp +decide (maxDischargeDepth := 60) only [keySigned, Only.refl, State.modKsu_only, only_ite]
@[simp] theorem egSend_only {s0 : State} {qs : List Part} (i : Nat) (g : Nat) (q : Nat) (e : EgQueue) (x : EgDesc) (f : List Byte) (stored : List Byte) (s : State) (h0 : Only qs s0 s) (hm : ∀ p ∈ ([.ports, .sw, .sce, .insts, .cgu, .ocu, .mlk, .time, .acq, .bki, .evr, .ksu, .mbx] : List Part), p ∈ qs) : Only qs s0 (egSend i g q e x f stored s) := by
  refine h0.step ?_ hm; clear h0 hm
  simp only [egSend]
  repeat' (first | (simp +decide (maxDischargeDepth := 60) only [Only.refl, State.modMlk_only, State.modOcu_only, State.modTime_only, keySigned_only, mlkCount_only, only_ite, redPorts_only, refreshOver_only, storeCharged_only]; done) | split | intro _)

/-! ### Fabric -/

@[simp] theorem State.setArb_only {s0 : State} {qs : List Part} (s : State) (k : Nat) (a : Arbiter) (h0 : Only qs s0 s) (hm : ∀ p ∈ ([.fab] : List Part), p ∈ qs) : Only qs s0 (State.setArb s k a) := by
  refine h0.step ?_ hm; clear h0 hm
  simp +decide (maxDischargeDepth := 60) only [State.setArb, Only.refl, State.modFab_only]
@[simp] theorem haltOwner_only {s0 : State} {qs : List Part} (tag : Nat) (s : State) (h0 : Only qs s0 s) (hm : ∀ p ∈ ([.insts, .sched, .cgu, .bki, .evr, .mbx] : List Part), p ∈ qs) : Only qs s0 (haltOwner tag s) := by
  refine h0.step ?_ hm; clear h0 hm
  simp only [haltOwner]
  repeat' (first | (simp +decide (maxDischargeDepth := 60) only [Only.refl, halt_only, only_ite]; done) | split | intro _)
@[simp] theorem damage_only {s0 : State} {qs : List Part} (l : MemLoc) (s : State) (h0 : Only qs s0 s) (hm : ∀ p ∈ ([.fab, .sw, .sce, .insts, .sched, .cgu, .bki, .evr, .ksu, .mbx] : List Part), p ∈ qs) : Only qs s0 (damage l s) := by
  refine h0.step ?_ hm; clear h0 hm
  unfold damage
  split <;> simp +decide only [Only.refl, State.modSw_only, State.modSce_only, State.modEvr_only, State.modKsu_only, State.setStream_only, State.setFwd_only, haltOwner_only, halt_only, opFails, State.modFab_only]
@[simp] theorem readWord_only {s0 : State} {qs : List Part} (l : MemLoc) (w : WordRead) (access : Nat) (owner : Master) (s : State) (src : Option (BlockId × Nat)) (h0 : Only qs s0 s) (hm : ∀ p ∈ ([.ports, .head, .sw, .insts, .cgu, .ocu, .mlk, .time, .bki, .faults, .evr, .mbx, .persist, .mon] : List Part), p ∈ qs) : Only qs s0 (readWord l w access owner s src).2 := by
  refine h0.step ?_ hm; clear h0 hm
  simp +decide (maxDischargeDepth := 60) only [readWord, Only.refl, raiseRead_only, readDone_only]
@[simp] theorem passPoisoned_only {s0 : State} {qs : List Part} (dest : BlockId) (unit : Nat) (access : Nat) (addr : Nat) (owner : Master) (r : ReadFound) (s : State) (h0 : Only qs s0 s) (hm : ∀ p ∈ ([.ports, .head, .sw, .insts, .cgu, .ocu, .mlk, .time, .bki, .faults, .evr, .mbx, .persist, .mon] : List Part), p ∈ qs) : Only qs s0 (passPoisoned dest unit access addr owner r s) := by
  refine h0.step ?_ hm; clear h0 hm
  simp +decide (maxDischargeDepth := 60) only [passPoisoned, Only.refl, raiseRead_only]
@[simp] theorem isolation_only {s0 : State} {qs : List Part} (i : Nat) (g : Nat) (core : Nat) (c : CoreAcc) (b : BlockId) (u : Nat) (s : State) (h0 : Only qs s0 s) (hm : ∀ p ∈ ([.ports, .head, .sw, .insts, .sched, .cgu, .ocu, .mlk, .time, .bki, .faults, .evr, .mbx, .persist, .mon] : List Part), p ∈ qs) : Only qs s0 (isolation i g core c b u s) := by
  refine h0.step ?_ hm; clear h0 hm
  simp +decide (maxDischargeDepth := 60) only [isolation, Only.refl, halt_only, raise_only]
@[simp] theorem CoreAcc.store_only {s0 : State} {qs : List Part} (c : CoreAcc) (w : Window) (i : Nat) (p : Nat) (s : State) (h0 : Only qs s0 s) (hm : ∀ p ∈ ([.insts, .mlk] : List Part), p ∈ qs) : Only qs s0 (CoreAcc.store c w i p s) := by
  refine h0.step ?_ hm; clear h0 hm
  simp only [CoreAcc.store]
  repeat' (first | (simp +decide (maxDischargeDepth := 60) only [Only.refl, State.modInsts_only, dramWrite_only, lsWrite_only, only_ite]; done) | split | intro _)
@[simp] theorem memDone_only {s0 : State} {qs : List Part} (i : Nat) (g : Nat) (core : Nat) (c : CoreAcc) (w : Window) (s : State) (h0 : Only qs s0 s) (hm : ∀ p ∈ ([.ports, .head, .sw, .insts, .sched, .cgu, .ocu, .mlk, .time, .bki, .faults, .evr, .mbx, .persist, .mon] : List Part), p ∈ qs) : Only qs s0 (memDone i g core c w s) := by
  refine h0.step ?_ hm; clear h0 hm
  simp only [memDone]
  repeat' (first | (simp +decide (maxDischargeDepth := 60) only [Only.refl, CoreAcc.store_only, answer_only, halt_only, only_ite, passPoisoned_only, raiseRead_only, readDone_only]; done) | split | intro _)
@[simp] theorem memAccess_only {s0 : State} {qs : List Part} (i : Nat) (g : Nat) (core : Nat) (c : CoreAcc) (w : Window) (s : State) (h0 : Only qs s0 s) (hm : ∀ p ∈ ([.fab, .ports, .head, .sw, .insts, .sched, .cgu, .ocu, .mlk, .time, .bki, .faults, .evr, .mbx, .persist, .mon] : List Part), p ∈ qs) : Only qs s0 (memAccess i g core c w s) := by
  refine h0.step ?_ hm; clear h0 hm
  simp only [memAccess]
  repeat' (first | (simp +decide (maxDischargeDepth := 60) only [Only.refl, State.modFab_only, memDone_only, only_ite]; done) | split | intro _)
@[simp] theorem absorbLate_only {s0 : State} {qs : List Part} (o : PendingOp) (s : State) (h0 : Only qs s0 s) (hm : ∀ p ∈ ([.fab, .insts, .faults] : List Part), p ∈ qs) : Only qs s0 (absorbLate o s) := by
  refine h0.step ?_ hm; clear h0 hm
  simp only [absorbLate]
  repeat' (first | (simp +decide (maxDischargeDepth := 60) only [Only.refl, State.modFab_only, State.setFset_only, lateAt_only, only_ite]; done) | split | intro _)
@[simp] theorem parkedDone_only {s0 : State} {qs : List Part} (o : PendingOp) (c : CoreAcc) (s : State) (h0 : Only qs s0 s) (hm : ∀ p ∈ ([.fab, .ports, .head, .sw, .insts, .sched, .cgu, .ocu, .mlk, .time, .bki, .faults, .evr, .mbx, .persist, .mon] : List Part), p ∈ qs) : Only qs s0 (parkedDone o c s) := by
  refine h0.step ?_ hm; clear h0 hm
  simp only [parkedDone]
  repeat' (first | (simp +decide (maxDischargeDepth := 60) only [Only.refl, CoreAcc.store_only, absorbLate_only, isolation_only, memDone_only, only_ite]; done) | split | intro _)
@[simp] theorem opCompletes_only {s0 : State} {qs : List Part} (o : PendingOp) (s : State) (h0 : Only qs s0 s) (hm : ∀ p ∈ ([.fab, .ports, .head, .sw, .insts, .sched, .cgu, .ocu, .mlk, .time, .bki, .faults, .evr, .mbx, .persist, .mon] : List Part), p ∈ qs) : Only qs s0 (opCompletes o s) := by
  refine h0.step ?_ hm; clear h0 hm
  simp only [opCompletes]
  repeat' (first | (simp +decide (maxDischargeDepth := 60) only [Only.refl, absorbLate_only, parkedDone_only]; done) | split | intro _)
@[simp] theorem crossingOpens_only {s0 : State} {qs : List Part} (s : State) (h0 : Only qs s0 s) (hm : ∀ p ∈ ([.fab, .ports, .head, .sw, .insts, .sched, .cgu, .ocu, .mlk, .time, .bki, .faults, .evr, .mbx, .persist, .mon] : List Part), p ∈ qs) : Only qs s0 (crossingOpens s) :=
  foldl_only _ _ (State.modFab_only _ h0 (hm _ (by simp))) fun _ _ => opCompletes_only _ _ (Only.refl _ _) hm
@[simp] theorem islandStops_only {s0 : State} {qs : List Part} (i : Island) (s : State) (h0 : Only qs s0 s) (hm : ∀ p ∈ ([.ports, .sw, .insts, .cgu, .mlk, .time, .bki, .evr, .mbx] : List Part), p ∈ qs) : Only qs s0 (islandStops i s) := by
  refine h0.step ?_ hm; clear h0 hm
  simp only [islandStops]
  repeat' (first | (simp +decide (maxDischargeDepth := 60) only [Only.refl, State.modMlk_only, State.setPort_only, foldl_only, portDown_only]; done) | (simp (disch := (intros; repeat' (first | (simp +decide (maxDischargeDepth := 60) only [Only.refl, State.modMlk_only, State.setPort_only, foldl_only, portDown_only]; done) | split))) only [Only.refl, State.modMlk_only, State.setPort_only, foldl_only, portDown_only]; done) | assumption | split | intro _ | (subst_vars; simp +decide (maxDischargeDepth := 60) only [Only.refl, State.modMlk_only, State.setPort_only, foldl_only, portDown_only]; done))

/-! ### Faulting -/

@[simp] theorem injProtocol_only {s0 : State} {qs : List Part} (b : BlockId) (u : Nat) (s : State) (h0 : Only qs s0 s) (hm : ∀ p ∈ ([.ports, .head, .sw, .insts, .cgu, .mlk, .time, .bki, .evr, .mbx, .free] : List Part), p ∈ qs) : Only qs s0 (injProtocol b u s) := by
  refine h0.step ?_ hm; clear h0 hm
  simp only [injProtocol]
  repeat' (first | (simp +decide (maxDischargeDepth := 60) only [Only.refl, State.modCgu_only, State.modMlk_only, State.setPort_only, State.took_only, cguCount_only, coilOff_only, countMissed_only, mlkCount_only, only_ite, portDown_only]; done) | split | intro _)
@[simp] theorem injectNow_only {s0 : State} {qs : List Part} (b : BlockId) (u : Nat) (kind : Nat) (s : State) (h0 : Only qs s0 s) (hm : ∀ p ∈ ([.ports, .head, .sw, .insts, .cgu, .ocu, .mlk, .time, .bki, .faults, .evr, .mbx, .persist, .mon, .free] : List Part), p ∈ qs) : Only qs s0 (injectNow b u kind s) := by
  refine h0.step ?_ hm; clear h0 hm
  simp only [injectNow]
  repeat' (first | (simp +decide (maxDischargeDepth := 60) only [Only.refl, calFailed_only, injProtocol_only, leaveDue_only, lockstep_only, only_ite, raise_only]; done) | split | intro _)
@[simp] theorem writeInj_only {s0 : State} {qs : List Part} (b : BlockId) (u : Nat) (arm : Bool) (mode : Bool) (kind : Nat) (pos : Nat) (pattern : BitVec 8) (s : State) (h0 : Only qs s0 s) (hm : ∀ p ∈ ([.ports, .head, .sw, .insts, .cgu, .ocu, .mlk, .time, .bki, .faults, .evr, .mbx, .persist, .mon, .free] : List Part), p ∈ qs) : Only qs s0 (writeInj b u arm mode kind pos pattern s) := by
  refine h0.step ?_ hm; clear h0 hm
  simp only [writeInj]
  repeat' (first | (simp +decide (maxDischargeDepth := 60) only [Only.refl, State.setFset_only, injectNow_only, only_ite]; done) | split | intro _)
@[simp] theorem readFeCode_only {s0 : State} {qs : List Part} (b : BlockId) (u : Nat) (s : State) (h0 : Only qs s0 s) (hm : ∀ p ∈ ([.faults] : List Part), p ∈ qs) : Only qs s0 (readFeCode b u s) := by
  refine h0.step ?_ hm; clear h0 hm
  simp +decide (maxDischargeDepth := 60) only [readFeCode, Only.refl, State.setFset_only]
@[simp] theorem rearm_only {s0 : State} {qs : List Part} (b : BlockId) (u : Nat) (s : State) (h0 : Only qs s0 s) (hm : ∀ p ∈ ([.faults] : List Part), p ∈ qs) : Only qs s0 (rearm b u s) := by
  refine h0.step ?_ hm; clear h0 hm
  simp +decide (maxDischargeDepth := 60) only [rearm, Only.refl, State.setFset_only, only_ite]

/-! ### Recorder -/

@[simp] theorem writeSuppression_only {s0 : State} {qs : List Part} (code : Nat) (s : State) (h0 : Only qs s0 s) (hm : ∀ p ∈ ([.evr] : List Part), p ∈ qs) : Only qs s0 (writeSuppression code s) := by
  refine h0.step ?_ hm; clear h0 hm
  simp only [writeSuppression]
  repeat' (first | (simp +decide (maxDischargeDepth := 60) only [Only.refl, State.modEvr_only, only_ite, writeRecord_only]; done) | split | intro _)
@[simp] theorem refillCode_only {s0 : State} {qs : List Part} (code : Nat) (t : Nat) (s : State) (h0 : Only qs s0 s) (hm : ∀ p ∈ ([.evr] : List Part), p ∈ qs) : Only qs s0 (refillCode code t s) := by
  refine h0.step ?_ hm; clear h0 hm
  simp +decide (maxDischargeDepth := 60) only [refillCode, Only.refl, State.modEvr_only, writeSuppression_only]
@[simp] theorem refillsDue_only {s0 : State} {qs : List Part} (code : Nat) (x0 : Nat) (x1 : State) (h0 : Only qs s0 x1) (hm : ∀ p ∈ ([.evr] : List Part), p ∈ qs) : Only qs s0 (refillsDue code x0 x1) := by
  induction x0 generalizing x1 with
  | zero => (simp only [refillsDue]; first | exact h0 | (refine h0.step ?_ hm; clear h0 hm; ((try (simp +decide (maxDischargeDepth := 60) only [Only.refl, only_ite, refillCode_only, forall_eq_or_imp, forall_const, implies_true, and_true, true_and, forall_eq, imp_self, IsEmpty.forall_iff, Option.some.injEq, Host.Outcome.next.injEq, forall_eq', forall_apply_eq_imp_iff]; done)); repeat' (first | (simp +decide (maxDischargeDepth := 60) only [Only.refl, only_ite, refillCode_only, forall_eq_or_imp, forall_const, implies_true, and_true, true_and, forall_eq, imp_self, IsEmpty.forall_iff, Option.some.injEq, Host.Outcome.next.injEq, forall_eq', forall_apply_eq_imp_iff]; done) | (simp (disch := (intros; repeat' (first | (simp +decide (maxDischargeDepth := 60) only [Only.refl, only_ite, refillCode_only, forall_eq_or_imp, forall_const, implies_true, and_true, true_and, forall_eq, imp_self, IsEmpty.forall_iff, Option.some.injEq, Host.Outcome.next.injEq, forall_eq', forall_apply_eq_imp_iff]; done) | split))) only [Only.refl, only_ite, refillCode_only]; done) | assumption | (intro _) | split | (subst_vars; simp +decide (maxDischargeDepth := 60) only [Only.refl, only_ite, refillCode_only, forall_eq_or_imp, forall_const, implies_true, and_true, true_and, forall_eq, imp_self, IsEmpty.forall_iff, Option.some.injEq, Host.Outcome.next.injEq, forall_eq', forall_apply_eq_imp_iff]; done) | (injections; subst_vars; simp +decide (maxDischargeDepth := 60) only [Only.refl, only_ite, refillCode_only, forall_eq_or_imp, forall_const, implies_true, and_true, true_and, forall_eq, imp_self, IsEmpty.forall_iff, Option.some.injEq, Host.Outcome.next.injEq, forall_eq', forall_apply_eq_imp_iff]; done) | simp +decide (maxDischargeDepth := 60) only [Only.refl, only_ite, refillCode_only, forall_eq_or_imp, forall_const, implies_true, and_true, true_and, forall_eq, imp_self, IsEmpty.forall_iff, Option.some.injEq, Host.Outcome.next.injEq, forall_eq', forall_apply_eq_imp_iff]))))
  | succ k ih =>
    simp only [refillsDue]
    repeat' (first | exact h0 | refine ih _ ?_ | refine ih _ _ ?_ | refine ih _ _ _ ?_ | (refine h0.step ?_ hm; clear h0 ih hm; ((try (simp +decide (maxDischargeDepth := 60) only [Only.refl, only_ite, refillCode_only, forall_eq_or_imp, forall_const, implies_true, and_true, true_and, forall_eq, imp_self, IsEmpty.forall_iff, Option.some.injEq, Host.Outcome.next.injEq, forall_eq', forall_apply_eq_imp_iff]; done)); repeat' (first | (simp +decide (maxDischargeDepth := 60) only [Only.refl, only_ite, refillCode_only, forall_eq_or_imp, forall_const, implies_true, and_true, true_and, forall_eq, imp_self, IsEmpty.forall_iff, Option.some.injEq, Host.Outcome.next.injEq, forall_eq', forall_apply_eq_imp_iff]; done) | (simp (disch := (intros; repeat' (first | (simp +decide (maxDischargeDepth := 60) only [Only.refl, only_ite, refillCode_only, forall_eq_or_imp, forall_const, implies_true, and_true, true_and, forall_eq, imp_self, IsEmpty.forall_iff, Option.some.injEq, Host.Outcome.next.injEq, forall_eq', forall_apply_eq_imp_iff]; done) | split))) only [Only.refl, only_ite, refillCode_only]; done) | assumption | (intro _) | split | (subst_vars; simp +decide (maxDischargeDepth := 60) only [Only.refl, only_ite, refillCode_only, forall_eq_or_imp, forall_const, implies_true, and_true, true_and, forall_eq, imp_self, IsEmpty.forall_iff, Option.some.injEq, Host.Outcome.next.injEq, forall_eq', forall_apply_eq_imp_iff]; done) | (injections; subst_vars; simp +decide (maxDischargeDepth := 60) only [Only.refl, only_ite, refillCode_only, forall_eq_or_imp, forall_const, implies_true, and_true, true_and, forall_eq, imp_self, IsEmpty.forall_iff, Option.some.injEq, Host.Outcome.next.injEq, forall_eq', forall_apply_eq_imp_iff]; done) | simp +decide (maxDischargeDepth := 60) only [Only.refl, only_ite, refillCode_only, forall_eq_or_imp, forall_const, implies_true, and_true, true_and, forall_eq, imp_self, IsEmpty.forall_iff, Option.some.injEq, Host.Outcome.next.injEq, forall_eq', forall_apply_eq_imp_iff])); done) | split)
@[simp] theorem writeOccurrence_only {s0 : State} {qs : List Part} (r : EvrRec) (s : State) (h0 : Only qs s0 s) (hm : ∀ p ∈ ([.evr] : List Part), p ∈ qs) : Only qs s0 (writeOccurrence r s) := by
  refine h0.step ?_ hm; clear h0 hm
  simp only [writeOccurrence]
  repeat' (first | (simp +decide (maxDischargeDepth := 60) only [Only.refl, State.modEvr_only, writeRecord_only]; done) | split | intro _)
@[simp] theorem writerStep_only {s0 : State} {qs : List Part} (s : State) (h0 : Only qs s0 s) (hm : ∀ p ∈ ([.evr] : List Part), p ∈ qs) : Only qs s0 (writerStep s) := by
  refine h0.step ?_ hm; clear h0 hm
  simp only [writerStep]
  repeat' (first | (simp +decide (maxDischargeDepth := 60) only [Only.refl, State.modEvr_only, only_ite, refillsDue_only, writeOccurrence_only]; done) | split | intro _)
@[simp] theorem awaitRoom_only {s0 : State} {qs : List Part} (r : EvrRec) (x0 : Nat) (x1 : State) (h0 : Only qs s0 x1) (hm : ∀ p ∈ ([.evr] : List Part), p ∈ qs) : Only qs s0 (awaitRoom r x0 x1) := by
  induction x0 generalizing x1 with
  | zero => (simp only [awaitRoom]; first | exact h0 | (refine h0.step ?_ hm; clear h0 hm; ((try (simp +decide (maxDischargeDepth := 60) only [Only.refl, only_ite, writerStep_only, forall_eq_or_imp, forall_const, implies_true, and_true, true_and, forall_eq, imp_self, IsEmpty.forall_iff, Option.some.injEq, Host.Outcome.next.injEq, forall_eq', forall_apply_eq_imp_iff]; done)); repeat' (first | (simp +decide (maxDischargeDepth := 60) only [Only.refl, only_ite, writerStep_only, forall_eq_or_imp, forall_const, implies_true, and_true, true_and, forall_eq, imp_self, IsEmpty.forall_iff, Option.some.injEq, Host.Outcome.next.injEq, forall_eq', forall_apply_eq_imp_iff]; done) | (simp (disch := (intros; repeat' (first | (simp +decide (maxDischargeDepth := 60) only [Only.refl, only_ite, writerStep_only, forall_eq_or_imp, forall_const, implies_true, and_true, true_and, forall_eq, imp_self, IsEmpty.forall_iff, Option.some.injEq, Host.Outcome.next.injEq, forall_eq', forall_apply_eq_imp_iff]; done) | split))) only [Only.refl, only_ite, writerStep_only]; done) | assumption | (intro _) | split | (subst_vars; simp +decide (maxDischargeDepth := 60) only [Only.refl, only_ite, writerStep_only, forall_eq_or_imp, forall_const, implies_true, and_true, true_and, forall_eq, imp_self, IsEmpty.forall_iff, Option.some.injEq, Host.Outcome.next.injEq, forall_eq', forall_apply_eq_imp_iff]; done) | (injections; subst_vars; simp +decide (maxDischargeDepth := 60) only [Only.refl, only_ite, writerStep_only, forall_eq_or_imp, forall_const, implies_true, and_true, true_and, forall_eq, imp_self, IsEmpty.forall_iff, Option.some.injEq, Host.Outcome.next.injEq, forall_eq', forall_apply_eq_imp_iff]; done) | simp +decide (maxDischargeDepth := 60) only [Only.refl, only_ite, writerStep_only, forall_eq_or_imp, forall_const, implies_true, and_true, true_and, forall_eq, imp_self, IsEmpty.forall_iff, Option.some.injEq, Host.Outcome.next.injEq, forall_eq', forall_apply_eq_imp_iff]))))
  | succ k ih =>
    simp only [awaitRoom]
    repeat' (first | exact h0 | refine ih _ ?_ | refine ih _ _ ?_ | refine ih _ _ _ ?_ | (refine h0.step ?_ hm; clear h0 ih hm; ((try (simp +decide (maxDischargeDepth := 60) only [Only.refl, only_ite, writerStep_only, forall_eq_or_imp, forall_const, implies_true, and_true, true_and, forall_eq, imp_self, IsEmpty.forall_iff, Option.some.injEq, Host.Outcome.next.injEq, forall_eq', forall_apply_eq_imp_iff]; done)); repeat' (first | (simp +decide (maxDischargeDepth := 60) only [Only.refl, only_ite, writerStep_only, forall_eq_or_imp, forall_const, implies_true, and_true, true_and, forall_eq, imp_self, IsEmpty.forall_iff, Option.some.injEq, Host.Outcome.next.injEq, forall_eq', forall_apply_eq_imp_iff]; done) | (simp (disch := (intros; repeat' (first | (simp +decide (maxDischargeDepth := 60) only [Only.refl, only_ite, writerStep_only, forall_eq_or_imp, forall_const, implies_true, and_true, true_and, forall_eq, imp_self, IsEmpty.forall_iff, Option.some.injEq, Host.Outcome.next.injEq, forall_eq', forall_apply_eq_imp_iff]; done) | split))) only [Only.refl, only_ite, writerStep_only]; done) | assumption | (intro _) | split | (subst_vars; simp +decide (maxDischargeDepth := 60) only [Only.refl, only_ite, writerStep_only, forall_eq_or_imp, forall_const, implies_true, and_true, true_and, forall_eq, imp_self, IsEmpty.forall_iff, Option.some.injEq, Host.Outcome.next.injEq, forall_eq', forall_apply_eq_imp_iff]; done) | (injections; subst_vars; simp +decide (maxDischargeDepth := 60) only [Only.refl, only_ite, writerStep_only, forall_eq_or_imp, forall_const, implies_true, and_true, true_and, forall_eq, imp_self, IsEmpty.forall_iff, Option.some.injEq, Host.Outcome.next.injEq, forall_eq', forall_apply_eq_imp_iff]; done) | simp +decide (maxDischargeDepth := 60) only [Only.refl, only_ite, writerStep_only, forall_eq_or_imp, forall_const, implies_true, and_true, true_and, forall_eq, imp_self, IsEmpty.forall_iff, Option.some.injEq, Host.Outcome.next.injEq, forall_eq', forall_apply_eq_imp_iff])); done) | split)
@[simp] theorem postPaced_only {s0 : State} {qs : List Part} (r : EvrRec) (s : State) (h0 : Only qs s0 s) (hm : ∀ p ∈ ([.bki, .evr] : List Part), p ∈ qs) : Only qs s0 (postPaced r s) := by
  refine h0.step ?_ hm; clear h0 hm
  simp +decide (maxDischargeDepth := 60) only [postPaced, Only.refl, awaitRoom_only, post_only]
@[simp] theorem cursorLoad_only {s0 : State} {qs : List Part} (n : Nat) (advance : Nat) (newest : Bool) (s : State) (h0 : Only qs s0 s) (hm : ∀ p ∈ ([.evr] : List Part), p ∈ qs) : Only qs s0 (cursorLoad n advance newest s) := by
  refine h0.step ?_ hm; clear h0 hm
  simp only [cursorLoad]
  repeat' (first | (simp +decide (maxDischargeDepth := 60) only [Only.refl, State.modEvr_only, only_ite]; done) | split | intro _)
@[simp] theorem writeCurCtl_only {s0 : State} {qs : List Part} (n : Nat) (v : BitVec 32) (s : State) (h0 : Only qs s0 s) (hm : ∀ p ∈ ([.evr] : List Part), p ∈ qs) : Only qs s0 (writeCurCtl n v s) := by
  refine h0.step ?_ hm; clear h0 hm
  simp only [writeCurCtl]
  repeat' (first | (simp +decide (maxDischargeDepth := 60) only [Only.refl, cursorLoad_only, only_ite]; done) | split | intro _)
@[simp] theorem cursorDone_only {s0 : State} {qs : List Part} (n : Nat) (s : State) (h0 : Only qs s0 s) (hm : ∀ p ∈ ([.evr, .mbx] : List Part), p ∈ qs) : Only qs s0 (cursorDone n s) := by
  refine h0.step ?_ hm; clear h0 hm
  simp only [cursorDone]
  repeat' (first | (simp +decide (maxDischargeDepth := 60) only [Only.refl, State.modEvr_only, only_ite, vector_only]; done) | split | intro _)

/-! ### Keys -/

@[simp] theorem salted_only {s0 : State} {qs : List Part} (n : Nat) (s : State) (h0 : Only qs s0 s) (hm : ∀ p ∈ ([.ksu, .free] : List Part), p ∈ qs) : Only qs s0 (salted n s) := by
  refine h0.step ?_ hm; clear h0 hm
  simp only [salted]
  repeat' (first | (simp +decide (maxDischargeDepth := 60) only [Only.refl, State.modKsu_only, State.took_only, only_ite]; done) | split | intro _)
@[simp] theorem slotWrite_only {s0 : State} {qs : List Part} (n : Nat) (v : BitVec 256) (origin : Nat) (s : State) (h0 : Only qs s0 s) (hm : ∀ p ∈ ([.ksu, .free] : List Part), p ∈ qs) : Only qs s0 (slotWrite n v origin s) := by
  refine h0.step ?_ hm; clear h0 hm
  simp +decide (maxDischargeDepth := 60) only [slotWrite, Only.refl, State.modKsu_only, salted_only]
@[simp] theorem slotAttr_only {s0 : State} {qs : List Part} (n : Nat) (a : KeyArgs) (lock : Bool) (derivable : Bool) (s : State) (h0 : Only qs s0 s) (hm : ∀ p ∈ ([.ksu, .free] : List Part), p ∈ qs) : Only qs s0 (slotAttr n a lock derivable s) := by
  refine h0.step ?_ hm; clear h0 hm
  simp only [slotAttr]
  repeat' (first | (simp +decide (maxDischargeDepth := 60) only [Only.refl, State.modKsu_only, only_ite, salted_only]; done) | split | intro _)
@[simp] theorem drawKey_only {s0 : State} {qs : List Part} (s : State) (h0 : Only qs s0 s) (hm : ∀ p ∈ ([.ksu, .free] : List Part), p ∈ qs) : Only qs s0 (drawKey s).2 := by
  refine h0.step ?_ hm; clear h0 hm
  simp +decide (maxDischargeDepth := 60) only [drawKey, Only.refl, State.modKsu_only, State.took_only]
@[simp] theorem ksuDone_only {s0 : State} {qs : List Part} (result : Nat) (s : State) (h0 : Only qs s0 s) (hm : ∀ p ∈ ([.ksu] : List Part), p ∈ qs) : Only qs s0 (ksuDone result s) := by
  refine h0.step ?_ hm; clear h0 hm
  simp +decide (maxDischargeDepth := 60) only [ksuDone, Only.refl, State.modKsu_only, only_ite]
@[simp] theorem ksuLoad_only {s0 : State} {qs : List Part} (n : Nat) (v : BitVec 256) (s : State) (h0 : Only qs s0 s) (hm : ∀ p ∈ ([.ksu, .free] : List Part), p ∈ qs) : Only qs s0 (ksuLoad n v s) := by
  refine h0.step ?_ hm; clear h0 hm
  simp only [ksuLoad]
  repeat' (first | (simp +decide (maxDischargeDepth := 60) only [Only.refl, ksuDone_only, only_ite, slotWrite_only]; done) | split | intro _)
@[simp] theorem ksuGenerate_only {s0 : State} {qs : List Part} (n : Nat) (s : State) (h0 : Only qs s0 s) (hm : ∀ p ∈ ([.ksu, .free] : List Part), p ∈ qs) : Only qs s0 (ksuGenerate n s) := by
  refine h0.step ?_ hm; clear h0 hm
  simp only [ksuGenerate]
  repeat' (first | (simp +decide (maxDischargeDepth := 60) only [Only.refl, drawKey_only, ksuDone_only, only_ite, slotWrite_only]; done) | split | intro _)
@[simp] theorem lockReserved_only {s0 : State} {qs : List Part} (n : Nat) (s : State) (h0 : Only qs s0 s) (hm : ∀ p ∈ ([.ksu] : List Part), p ∈ qs) : Only qs s0 (lockReserved n s) := by
  refine h0.step ?_ hm; clear h0 hm
  simp only [lockReserved]
  repeat' (first | (simp +decide (maxDischargeDepth := 60) only [Only.refl, State.modKsu_only, only_ite]; done) | split | intro _)
@[simp] theorem ksuDerive_only {s0 : State} {qs : List Part} (who : Master) (n : Nat) (parent : Option Nat) (use : Nat) (label : List Byte) (context : List Byte) (s : State) (h0 : Only qs s0 s) (hm : ∀ p ∈ ([.ksu, .free] : List Part), p ∈ qs) : Only qs s0 (ksuDerive who n parent use label context s) := by
  refine h0.step ?_ hm; clear h0 hm
  simp only [ksuDerive]
  repeat' (first | (simp +decide (maxDischargeDepth := 60) only [Only.refl, State.modKsu_only, ksuDone_only, only_ite, slotWrite_only]; done) | split | intro _)
@[simp] theorem ksuErase_only {s0 : State} {qs : List Part} (who : Master) (n : Nat) (s : State) (h0 : Only qs s0 s) (hm : ∀ p ∈ ([.insts, .bki, .evr, .ksu, .mbx] : List Part), p ∈ qs) : Only qs s0 (ksuErase who n s) := by
  refine h0.step ?_ hm; clear h0 hm
  simp only [ksuErase]
  repeat' (first | (simp +decide (maxDischargeDepth := 60) only [Only.refl, eraseSlot_only, ksuDone_only, only_ite]; done) | split | intro _)
@[simp] theorem ksuCommand_only {s0 : State} {qs : List Part} (who : Master) (v : BitVec 32) (s : State) (h0 : Only qs s0 s) (hm : ∀ p ∈ ([.insts, .bki, .evr, .ksu, .mbx, .free] : List Part), p ∈ qs) : Only qs s0 (ksuCommand who v s) := by
  refine h0.step ?_ hm; clear h0 hm
  simp only [ksuCommand]
  repeat' (first | (simp +decide (maxDischargeDepth := 60) only [Only.refl, ksuDerive_only, ksuDone_only, ksuErase_only, ksuGenerate_only, ksuLoad_only, lockReserved_only, only_ite]; done) | split | intro _)
@[simp] theorem saveSlot_only {s0 : State} {qs : List Part} (n : Nat) (s : State) (h0 : Only qs s0 s) (hm : ∀ p ∈ ([.ksu] : List Part), p ∈ qs) : Only qs s0 (saveSlot n s) := by
  refine h0.step ?_ hm; clear h0 hm
  simp only [saveSlot]
  repeat' (first | (simp +decide (maxDischargeDepth := 60) only [Only.refl, State.modKsu_only, only_ite]; done) | split | intro _)
@[simp] theorem restoreSlot_only {s0 : State} {qs : List Part} (c : SavedSlot) (s : State) (h0 : Only qs s0 s) (hm : ∀ p ∈ ([.ksu, .free] : List Part), p ∈ qs) : Only qs s0 (restoreSlot c s) := by
  refine h0.step ?_ hm; clear h0 hm
  simp only [restoreSlot]
  repeat' (first | (simp +decide (maxDischargeDepth := 60) only [Only.refl, State.modKsu_only, only_ite, salted_only]; done) | split | intro _)

/-! ### Pair -/

@[simp] theorem referee_only {s0 : State} {qs : List Part} (k : CmpKey) (row3 : State → State) (s : State) (hrow3 : ∀  t, Only qs t (row3  t)) (h0 : Only qs s0 s) (hm : ∀ p ∈ ([.ports, .sw, .insts, .cgu, .ocu, .mlk, .time, .bki, .evr, .mbx, .persist] : List Part), p ∈ qs) : Only qs s0 (referee k row3 s) := by
  have a : ∀ row w, Only qs s0 (recordDecision row w k s) := fun row w => recordDecision_only row w k s h0 fun p h => hm p (by revert h; cases p <;> simp)
  have b : ∀ row own t, Only qs s0 t → Only qs s0 (actDecision row own t) := fun row own t h => actDecision_only row own t h fun p h => hm p (by revert h; cases p <;> simp)
  unfold referee
  dsimp only
  split
  · exact b _ _ _ (a _ _)
  · split
    · exact b _ _ _ (a _ _)
    · split
      · exact a _ _
      · exact h0.trans (hrow3 s)
@[simp] theorem refer_only {s0 : State} {qs : List Part} (d : Diverge) (s : State) (h0 : Only qs s0 s) (hm : ∀ p ∈ ([.ports, .sw, .insts, .cgu, .ocu, .mlk, .time, .bki, .evr, .mbx, .persist] : List Part), p ∈ qs) : Only qs s0 (refer d s) := by
  refine h0.step ?_ hm; clear h0 hm
  simp only [refer]
  repeat' (first | (simp +decide (maxDischargeDepth := 60) only [Only.refl, State.modOcu_only, bkiCount_only, only_ite, recordDecision_only, referee_only, forall_const, implies_true, Option.some.injEq, forall_eq', forall_apply_eq_imp_iff, imp_self]; done) | assumption | split | intro _ | (subst_vars; simp +decide (maxDischargeDepth := 60) only [Only.refl, State.modOcu_only, bkiCount_only, only_ite, recordDecision_only, referee_only]; done) | (injections; subst_vars; simp +decide (maxDischargeDepth := 60) only [Only.refl, State.modOcu_only, bkiCount_only, only_ite, recordDecision_only, referee_only]; done) | simp +decide (maxDischargeDepth := 60) only [Only.refl, State.modOcu_only, bkiCount_only, only_ite, recordDecision_only, referee_only])
@[simp] theorem diverge_only {s0 : State} {qs : List Part} (d : Diverge) (s : State) (h0 : Only qs s0 s) (hm : ∀ p ∈ ([.ports, .sw, .insts, .cgu, .ocu, .mlk, .time, .bki, .evr, .mbx, .persist] : List Part), p ∈ qs) : Only qs s0 (diverge d s) := by
  refine h0.step ?_ hm; clear h0 hm
  simp only [diverge]
  repeat' (first | (simp +decide (maxDischargeDepth := 60) only [Only.refl, note_only, ocuCount_only, only_ite, refer_only]; done) | split | intro _)
@[simp] theorem closePend_only {s0 : State} {qs : List Part} (k : CmpKey) (s : State) (h0 : Only qs s0 s) (hm : ∀ p ∈ ([.ocu, .pending] : List Part), p ∈ qs) : Only qs s0 (closePend k s) := by
  refine h0.step ?_ hm; clear h0 hm
  simp +decide (maxDischargeDepth := 60) only [closePend, Only.refl, State.modOcu_only, with_pending_only]
@[simp] theorem windowEnds_only {s0 : State} {qs : List Part} (e : Pend) (s : State) (h0 : Only qs s0 s) (hm : ∀ p ∈ ([.ports, .sw, .insts, .cgu, .ocu, .mlk, .time, .bki, .evr, .mbx, .persist, .pending] : List Part), p ∈ qs) : Only qs s0 (windowEnds e s) := by
  refine h0.step ?_ hm; clear h0 hm
  simp +decide (maxDischargeDepth := 60) only [windowEnds, Only.refl, closePend_only, diverge_only, only_ite]
@[simp] theorem ocuTake_only {s0 : State} {qs : List Part} (own : Bool) (c : OcuCopy) (k : CmpKey) (s : State) (h0 : Only qs s0 s) (hm : ∀ p ∈ ([.ports, .sw, .insts, .cgu, .ocu, .mlk, .time, .bki, .evr, .mbx, .persist, .pending] : List Part), p ∈ qs) : Only qs s0 (ocuTake own c k s) := by
  refine h0.step ?_ hm; clear h0 hm
  simp only [ocuTake]
  repeat' (first | (simp +decide (maxDischargeDepth := 60) only [Only.refl, State.modOcu_only, closePend_only, diverge_only, note_only, ocuCount_only, only_ite, with_pending_only]; done) | split | intro _)
@[simp] theorem ocuFrame_only {s0 : State} {qs : List Part} (own : Bool) (c : OcuCopy) (s : State) (h0 : Only qs s0 s) (hm : ∀ p ∈ ([.ports, .sw, .insts, .cgu, .ocu, .mlk, .time, .bki, .evr, .mbx, .persist, .pending] : List Part), p ∈ qs) : Only qs s0 (ocuFrame own c s) := by
  refine h0.step ?_ hm; clear h0 hm
  simp only [ocuFrame]
  repeat' (first | (simp +decide (maxDischargeDepth := 60) only [Only.refl, ocuTake_only, only_ite, windowEnds_only]; done) | split | intro _)
@[simp] theorem pictureDecided_only {s0 : State} {qs : List Part} (p : Picture) (pz : Bool) (s : State) (h0 : Only qs s0 s) (hm : ∀ p ∈ ([.ports, .sw, .insts, .cgu, .ocu, .mlk, .time, .bki, .evr, .mbx, .persist] : List Part), p ∈ qs) : Only qs s0 (pictureDecided p pz s) := by
  refine h0.step ?_ hm; clear h0 hm
  simp only [pictureDecided]
  repeat' (first | (simp +decide (maxDischargeDepth := 60) only [Only.refl, State.modOcu_only, actDecision_only, only_ite, recordDecision_only, referee_only, forall_const, implies_true, Option.some.injEq, forall_eq', forall_apply_eq_imp_iff, imp_self]; done) | assumption | split | intro _ | (subst_vars; simp +decide (maxDischargeDepth := 60) only [Only.refl, State.modOcu_only, actDecision_only, only_ite, recordDecision_only, referee_only]; done) | (injections; subst_vars; simp +decide (maxDischargeDepth := 60) only [Only.refl, State.modOcu_only, actDecision_only, only_ite, recordDecision_only, referee_only]; done) | simp +decide (maxDischargeDepth := 60) only [Only.refl, State.modOcu_only, actDecision_only, only_ite, recordDecision_only, referee_only])
@[simp] theorem idConflict_only {s0 : State} {qs : List Part} (s : State) (h0 : Only qs s0 s) (hm : ∀ p ∈ ([.ports, .head, .sw, .insts, .cgu, .ocu, .mlk, .time, .bki, .faults, .evr, .mbx, .persist, .mon] : List Part), p ∈ qs) : Only qs s0 (idConflict s) := by
  refine h0.step ?_ hm; clear h0 hm
  simp only [idConflict]
  repeat' (first | (simp +decide (maxDischargeDepth := 60) only [Only.refl, State.modCgu_only, becomeOut_only, only_ite, raise_only]; done) | split | intro _)
@[simp] theorem wantFull_only {s0 : State} {qs : List Part} (s : State) (h0 : Only qs s0 s) (hm : ∀ p ∈ ([.mlk] : List Part), p ∈ qs) : Only qs s0 (wantFull s) := by
  refine h0.step ?_ hm; clear h0 hm
  simp +decide (maxDischargeDepth := 60) only [wantFull, Only.refl, State.modMlk_only, only_ite]
@[simp] theorem partnerPresent_only {s0 : State} {qs : List Part} (s : State) (h0 : Only qs s0 s) (hm : ∀ p ∈ ([.cgu, .ocu, .mlk, .bki, .evr, .mbx] : List Part), p ∈ qs) : Only qs s0 (partnerPresent s) := by
  refine h0.step ?_ hm; clear h0 hm
  simp only [partnerPresent]
  repeat' (first | (simp +decide (maxDischargeDepth := 60) only [Only.refl, State.modMlk_only, State.modOcu_only, only_ite, setRole_only, wantFull_only]; done) | split | intro _)
@[simp] theorem fullRequests_only {s0 : State} {qs : List Part} (old : StatusWord) (w : StatusWord) (s : State) (h0 : Only qs s0 s) (hm : ∀ p ∈ ([.mlk] : List Part), p ∈ qs) : Only qs s0 (fullRequests old w s) := by
  refine h0.step ?_ hm; clear h0 hm
  simp only [fullRequests]
  repeat' (first | (simp +decide (maxDischargeDepth := 60) only [Only.refl, State.modMlk_only, only_ite]; done) | split | intro _)
@[simp] theorem refusalSeen_only {s0 : State} {qs : List Part} (old : StatusWord) (new : StatusWord) (s : State) (h0 : Only qs s0 s) (hm : ∀ p ∈ ([.mlk, .bki, .evr, .mbx, .mon] : List Part), p ∈ qs) : Only qs s0 (refusalSeen old new s) := by
  refine h0.step ?_ hm; clear h0 hm
  simp only [refusalSeen]
  repeat' (first | (simp +decide (maxDischargeDepth := 60) only [Only.refl, State.modMlk_only, opDone_only, switchRecord_only]; done) | split | intro _)
@[simp] theorem takeWord_only {s0 : State} {qs : List Part} (w : StatusWord) (s : State) (h0 : Only qs s0 s) (hm : ∀ p ∈ ([.ports, .head, .sw, .insts, .cgu, .ocu, .mlk, .time, .bki, .faults, .evr, .mbx, .persist, .mon] : List Part), p ∈ qs) : Only qs s0 (takeWord w s) := by
  refine h0.step ?_ hm; clear h0 hm
  simp only [takeWord]
  repeat' (first | (simp +decide (maxDischargeDepth := 60) only [Only.refl, State.modMlk_only, fullRequests_only, idConflict_only, only_ite, refereeF_only, refusalSeen_only]; done) | split | intro _)
@[simp] theorem loseThePartner_only {s0 : State} {qs : List Part} (s : State) (h0 : Only qs s0 s) (hm : ∀ p ∈ ([.ports, .sw, .insts, .cgu, .ocu, .mlk, .time, .bki, .evr, .mbx, .persist, .pending] : List Part), p ∈ qs) : Only qs s0 (loseThePartner s) := by
  refine h0.step ?_ hm; clear h0 hm
  simp only [loseThePartner]
  repeat' (first | (simp +decide (maxDischargeDepth := 60) only [Only.refl, State.modMlk_only, countMissed_only, foldl_only, mlkCount_only, only_ite, refereeF_only, setRole_only, windowEnds_only, forall_const, implies_true, Option.some.injEq, forall_eq', forall_apply_eq_imp_iff, imp_self]; done) | assumption | split | intro _ | (subst_vars; simp +decide (maxDischargeDepth := 60) only [Only.refl, State.modMlk_only, countMissed_only, foldl_only, mlkCount_only, only_ite, refereeF_only, setRole_only, windowEnds_only]; done) | (injections; subst_vars; simp +decide (maxDischargeDepth := 60) only [Only.refl, State.modMlk_only, countMissed_only, foldl_only, mlkCount_only, only_ite, refereeF_only, setRole_only, windowEnds_only]; done) | simp +decide (maxDischargeDepth := 60) only [Only.refl, State.modMlk_only, countMissed_only, foldl_only, mlkCount_only, only_ite, refereeF_only, setRole_only, windowEnds_only])

/-! ### Serve -/

@[simp] theorem bufWrite_only {s0 : State} {qs : List Part} (x : ReqSrc) (a : Nat) (octets : List Byte) (s : State) (h0 : Only qs s0 s) (hm : ∀ p ∈ ([.insts, .mlk, .mbx] : List Part), p ∈ qs) : Only qs s0 (bufWrite x a octets s) := by
  refine h0.step ?_ hm; clear h0 hm
  simp only [bufWrite]
  repeat' (first | (simp +decide (maxDischargeDepth := 60) only [Only.refl, State.modMbx_only, dramWrite_only, lsWrite_only, only_ite]; done) | split | intro _)
@[simp] theorem judge_only {s0 : State} {qs : List Part} (r : Req) (opcode : Nat) (sub : Subset) (need : Bool) (cache : List TagRec) (f : Req → State → State × Ans) (s : State) (hf : ∀ a0 t, Only qs t (f a0 t).1) (h0 : Only qs s0 s) (hm : ∀ p ∈ ([.free] : List Part), p ∈ qs) : Only qs s0 (judge r opcode sub need cache f s).st := by
  refine h0.trans ?_; clear h0
  simp only [judge]
  have hf' : Part.free ∈ qs := hm _ (by simp)
  repeat' (first | (simp +decide (maxDischargeDepth := 60) only [Only.refl, State.took_only, only_ite, forall_eq_or_imp, forall_const, implies_true, and_true, true_and, forall_eq, imp_self, IsEmpty.forall_iff, Option.some.injEq, Host.Outcome.next.injEq, forall_eq', forall_apply_eq_imp_iff]; done) | split)
  all_goals first | exact Only.refl _ _ | exact hf _ _ | exact State.took_only _ (hf _ _) (by simp [hf']) | exact State.took_only _ (Only.refl _ _) (by simp [hf'])
@[simp] theorem take_only {s0 : State} {qs : List Part} (r : Req) (s : State) (h0 : Only qs s0 s) (hm : ∀ p ∈ ([.mbx] : List Part), p ∈ qs) : Only qs s0 (take r s) := by
  refine h0.step ?_ hm; clear h0 hm
  simp +decide (maxDischargeDepth := 60) only [take, Only.refl, State.setPair_only]
@[simp] theorem bufferResult_only {s0 : State} {qs : List Part} (r : Req) (v : Resp) (s : State) (h0 : Only qs s0 s) (hm : ∀ p ∈ ([.insts, .mlk, .mbx] : List Part), p ∈ qs) : Only qs s0 (bufferResult r v s) := by
  refine h0.step ?_ hm; clear h0 hm
  simp only [bufferResult]
  repeat' (first | (simp +decide (maxDischargeDepth := 60) only [Only.refl, bufWrite_only, only_ite]; done) | split | intro _)
@[simp] theorem respond_only {s0 : State} {qs : List Part} (r : Req) (v : Resp) (keep : Bool) (s : State) (h0 : Only qs s0 s) (hm : ∀ p ∈ ([.insts, .mlk, .mbx] : List Part), p ∈ qs) : Only qs s0 (respond r v keep s) := by
  have hb : ∀ p ∈ ([.mbx] : List Part), p ∈ qs := fun p h => hm p (by revert h; cases p <;> simp)
  unfold respond
  dsimp only
  split
  · exact vector_only _ _ (State.modMbx_only _ (State.setPair_only _ _ _ (bufferResult_only _ _ _ h0 hm) hb) (hb _ (by simp))) hb
  · exact lsWrite_only _ _ _ _ (State.setPair_only _ _ _ (bufferResult_only _ _ _ h0 hm) hb) fun p h => hm p (by revert h; cases p <;> simp)
  · exact State.setPair_only _ _ _ (bufferResult_only _ _ _ h0 hm) hb
theorem answerReq_only {s0 : State} {qs : List Part} (r : Req) (v : Verdict) (h0 : Only qs s0 v.st) (hm : ∀ p ∈ ([.insts, .mlk, .mbx] : List Part), p ∈ qs) : Only qs s0 (answerReq r v) := by
  unfold answerReq
  split
  · exact respond_only _ _ _ _ h0 hm
  · exact State.setPair_only _ _ _ h0 fun p h => hm p (by revert h; cases p <;> simp)
@[simp] theorem serveAs_only {s0 : State} {qs : List Part} (r : Req) (opcode : Nat) (sub : Subset) (need : Bool) (f : Req → State → State × Ans) (s : State) (hf : ∀ a0 t, Only qs t (f a0 t).1) (h0 : Only qs s0 s) (hm : ∀ p ∈ ([.insts, .mlk, .acq, .mbx, .free] : List Part), p ∈ qs) : Only qs s0 (serveAs r opcode sub need f s) := by
  have ht : Only qs s0 (take r s) := take_only r s h0 fun p h => hm p (by revert h; cases p <;> simp)
  have hj : ∀ c, Only qs s0 (answerReq r (judge r opcode sub need c f (take r s))) := fun c =>
    answerReq_only _ _ (judge_only _ _ _ _ _ _ _ hf ht fun p h => hm p (by revert h; cases p <;> simp)) fun p h => hm p (by revert h; cases p <;> simp)
  unfold serveAs
  dsimp only
  split
  · split
    · exact hj _
    · have hs : ∀ j g, Only qs s0 (s.setInst j g) := fun j g => State.setInst_only _ _ _ h0 fun p h => hm p (by revert h; cases p <;> simp)
      split
      · exact State.modAcq_only _ (hs _ _) (hm _ (by simp))
      · exact hs _ _
  · exact hj _
  · exact h0
@[simp] theorem serve_only {s0 : State} {qs : List Part} (r : Req) (opcode : Nat) (sub : Subset) (need : Bool) (f : Req → State → State × Ans) (s : State) (hf : ∀ a0 t, Only qs t (f a0 t).1) (h0 : Only qs s0 s) (hm : ∀ p ∈ ([.insts, .mlk, .acq, .mbx, .free] : List Part), p ∈ qs) : Only qs s0 (serve r opcode sub need f s) := by
  unfold serve
  repeat' split
  all_goals first | exact h0 | exact serveAs_only _ _ _ _ _ _ hf h0 hm

/-! ### StartOps -/

@[simp] theorem rootStart_only {s0 : State} {qs : List Part} (c : ColdIn) (steps : Nat) (s : State) (h0 : Only qs s0 s) (hm : ∀ p ∈ ([.ports, .head, .sw, .insts, .cgu, .ocu, .mlk, .time, .bki, .faults, .evr, .ksu, .mbx, .persist, .mon, .free] : List Part), p ∈ qs) : Only qs s0 (rootStart c steps s) := by
  refine h0.step ?_ hm; clear h0 hm
  simp only [rootStart]
  repeat' (first | (simp +decide (maxDischargeDepth := 60) only [Only.refl, State.modKsu_only, drawKey_only, only_ite, raise_only]; done) | split | intro _)
@[simp] theorem fuseSlots_only {s0 : State} {qs : List Part} (s : State) (h0 : Only qs s0 s) (hm : ∀ p ∈ ([.ksu] : List Part), p ∈ qs) : Only qs s0 (fuseSlots s) := by
  refine h0.step ?_ hm; clear h0 hm
  simp +decide (maxDischargeDepth := 60) only [fuseSlots, Only.refl, State.modKsu_only, foldl_only]
@[simp] theorem slotReport_only {s0 : State} {qs : List Part} (c : SavedSlot) (s : State) (h0 : Only qs s0 s) (hm : ∀ p ∈ ([.bki, .evr] : List Part), p ∈ qs) : Only qs s0 (slotReport c s) := by
  refine h0.step ?_ hm; clear h0 hm
  simp only [slotReport]
  repeat' (first | (simp +decide (maxDischargeDepth := 60) only [Only.refl, note_only, only_ite]; done) | split | intro _)
@[simp] theorem ksuBegin_only {s0 : State} {qs : List Part} (c : ColdIn) (steps : Nat) (s : State) (h0 : Only qs s0 s) (hm : ∀ p ∈ ([.ports, .head, .sw, .insts, .cgu, .ocu, .mlk, .time, .bki, .faults, .evr, .ksu, .mbx, .persist, .mon, .free] : List Part), p ∈ qs) : Only qs s0 (ksuBegin c steps s) := by
  refine h0.step ?_ hm; clear h0 hm
  simp only [ksuBegin]
  repeat' (first | (simp +decide (maxDischargeDepth := 60) only [Only.refl, State.modKsu_only, State.took_only, fuseSlots_only, only_ite, rootStart_only]; done) | split | intro _)
@[simp] theorem ksuStart_only {s0 : State} {qs : List Part} (c : ColdIn) (s : State) (h0 : Only qs s0 s) (hm : ∀ p ∈ ([.ports, .head, .sw, .insts, .cgu, .ocu, .mlk, .time, .bki, .faults, .evr, .ksu, .mbx, .persist, .mon, .free] : List Part), p ∈ qs) : Only qs s0 (ksuStart c s) := by
  refine h0.step ?_ hm; clear h0 hm
  simp only [ksuStart]
  repeat' (first | (simp +decide (maxDischargeDepth := 60) only [Only.refl, State.modKsu_only, foldl_only, ksuBegin_only, only_ite, restoreSlot_only, slotWrite_only, forall_const, implies_true, Option.some.injEq, forall_eq', forall_apply_eq_imp_iff, imp_self]; done) | assumption | split | intro _ | (subst_vars; simp +decide (maxDischargeDepth := 60) only [Only.refl, State.modKsu_only, foldl_only, ksuBegin_only, only_ite, restoreSlot_only, slotWrite_only]; done) | (injections; subst_vars; simp +decide (maxDischargeDepth := 60) only [Only.refl, State.modKsu_only, foldl_only, ksuBegin_only, only_ite, restoreSlot_only, slotWrite_only]; done) | simp +decide (maxDischargeDepth := 60) only [Only.refl, State.modKsu_only, foldl_only, ksuBegin_only, only_ite, restoreSlot_only, slotWrite_only])
@[simp] theorem evrStart_only {s0 : State} {qs : List Part} (fromWinter : Bool) (s : State) (h0 : Only qs s0 s) (hm : ∀ p ∈ ([.evr] : List Part), p ∈ qs) : Only qs s0 (evrStart fromWinter s) := by
  refine h0.step ?_ hm; clear h0 hm
  simp only [evrStart]
  repeat' (first | (simp +decide (maxDischargeDepth := 60) only [Only.refl, State.modEvr_only, only_ite, writeRecord_only]; done) | split | intro _)
@[simp] theorem cursorsStart_only {s0 : State} {qs : List Part} (s : State) (h0 : Only qs s0 s) (hm : ∀ p ∈ ([.evr] : List Part), p ∈ qs) : Only qs s0 (cursorsStart s) := by
  refine h0.step ?_ hm; clear h0 hm
  simp +decide (maxDischargeDepth := 60) only [cursorsStart, Only.refl, State.modEvr_only]
@[simp] theorem heldRecords_only {s0 : State} {qs : List Part} (s : State) (h0 : Only qs s0 s) (hm : ∀ p ∈ ([.bki, .evr] : List Part), p ∈ qs) : Only qs s0 (heldRecords s) := by
  refine h0.step ?_ hm; clear h0 hm
  simp only [heldRecords]
  repeat' (first | (simp +decide (maxDischargeDepth := 60) only [Only.refl, State.modBki_only, State.modEvr_only, foldl_only, writeOccurrence_only, writeRecord_only, forall_const, implies_true, Option.some.injEq, forall_eq', forall_apply_eq_imp_iff, imp_self]; done) | assumption | split | intro _ | (subst_vars; simp +decide (maxDischargeDepth := 60) only [Only.refl, State.modBki_only, State.modEvr_only, foldl_only, writeOccurrence_only, writeRecord_only]; done) | (injections; subst_vars; simp +decide (maxDischargeDepth := 60) only [Only.refl, State.modBki_only, State.modEvr_only, foldl_only, writeOccurrence_only, writeRecord_only]; done) | simp +decide (maxDischargeDepth := 60) only [Only.refl, State.modBki_only, State.modEvr_only, foldl_only, writeOccurrence_only, writeRecord_only])
@[simp] theorem restoreStream_only {s0 : State} {qs : List Part} (e : StreamEntry) (s : State) (h0 : Only qs s0 s) (hm : ∀ p ∈ ([.sw, .insts, .bki, .evr, .mbx, .mon] : List Part), p ∈ qs) : Only qs s0 (restoreStream e s) := by
  refine h0.step ?_ hm; clear h0 hm
  simp only [restoreStream]
  repeat' (first | (simp +decide (maxDischargeDepth := 60) only [Only.refl, commitNow_only]; done) | split | intro _)
@[simp] theorem restoreFwd_only {s0 : State} {qs : List Part} (e : FwdEntry) (s : State) (h0 : Only qs s0 s) (hm : ∀ p ∈ ([.sw, .insts, .bki, .evr, .mbx, .mon] : List Part), p ∈ qs) : Only qs s0 (restoreFwd e s) := by
  refine h0.step ?_ hm; clear h0 hm
  simp only [restoreFwd]
  repeat' (first | (simp +decide (maxDischargeDepth := 60) only [Only.refl, commitNow_only]; done) | split | intro _)
@[simp] theorem ensureStatic_only {s0 : State} {qs : List Part} (mac : Nat) (vid : Nat) (type : Nat) (target : Nat) (s : State) (h0 : Only qs s0 s) (hm : ∀ p ∈ ([.sw, .insts, .bki, .evr, .mbx, .mon] : List Part), p ∈ qs) : Only qs s0 (ensureStatic mac vid type target s) := by
  refine h0.step ?_ hm; clear h0 hm
  simp only [ensureStatic]
  repeat' (first | (simp +decide (maxDischargeDepth := 60) only [Only.refl, putStatic_only]; done) | split | intro _)
@[simp] theorem restoreInst_only {s0 : State} {qs : List Part} (i : Nat) (d : Inst) (s : State) (h0 : Only qs s0 s) (hm : ∀ p ∈ ([.sw, .insts, .mlk, .bki, .evr, .mbx, .mon] : List Part), p ∈ qs) : Only qs s0 (restoreInst i d s) := by
  refine h0.step ?_ hm; clear h0 hm
  simp only [restoreInst]
  repeat' (first | (simp +decide (maxDischargeDepth := 60) only [Only.refl, State.setInst_only, dramOwn_only, ensureStatic_only, foldl_only, lsOwn_only, lsWrite_only, forall_const, implies_true, Option.some.injEq, forall_eq', forall_apply_eq_imp_iff, imp_self]; done) | assumption | split | intro _ | (subst_vars; simp +decide (maxDischargeDepth := 60) only [Only.refl, State.setInst_only, dramOwn_only, ensureStatic_only, foldl_only, lsOwn_only, lsWrite_only]; done) | (injections; subst_vars; simp +decide (maxDischargeDepth := 60) only [Only.refl, State.setInst_only, dramOwn_only, ensureStatic_only, foldl_only, lsOwn_only, lsWrite_only]; done) | simp +decide (maxDischargeDepth := 60) only [Only.refl, State.setInst_only, dramOwn_only, ensureStatic_only, foldl_only, lsOwn_only, lsWrite_only])
@[simp] theorem ownStatics_only {s0 : State} {qs : List Part} (s : State) (h0 : Only qs s0 s) (hm : ∀ p ∈ ([.sw, .insts, .bki, .evr, .mbx, .mon] : List Part), p ∈ qs) : Only qs s0 (ownStatics s) := by
  refine h0.step ?_ hm; clear h0 hm
  simp only [ownStatics]
  repeat' (first | (simp +decide (maxDischargeDepth := 60) only [Only.refl, ensureStatic_only, foldl_only, forall_const, implies_true, Option.some.injEq, forall_eq', forall_apply_eq_imp_iff, imp_self]; done) | assumption | split | intro _ | (subst_vars; simp +decide (maxDischargeDepth := 60) only [Only.refl, ensureStatic_only, foldl_only]; done) | (injections; subst_vars; simp +decide (maxDischargeDepth := 60) only [Only.refl, ensureStatic_only, foldl_only]; done) | simp +decide (maxDischargeDepth := 60) only [Only.refl, ensureStatic_only, foldl_only])
@[simp] theorem restoreSwitch_only {s0 : State} {qs : List Part} (c : Switch) (s : State) (h0 : Only qs s0 s) (hm : ∀ p ∈ ([.sw, .insts, .bki, .evr, .mbx, .mon] : List Part), p ∈ qs) : Only qs s0 (restoreSwitch c s) := by
  refine h0.step ?_ hm; clear h0 hm
  simp only [restoreSwitch]
  repeat' (first | (simp +decide (maxDischargeDepth := 60) only [Only.refl, State.modSw_only, foldl_only, restoreFwd_only, restoreStream_only, forall_const, implies_true, Option.some.injEq, forall_eq', forall_apply_eq_imp_iff, imp_self]; done) | assumption | split | intro _ | (subst_vars; simp +decide (maxDischargeDepth := 60) only [Only.refl, State.modSw_only, foldl_only, restoreFwd_only, restoreStream_only]; done) | (injections; subst_vars; simp +decide (maxDischargeDepth := 60) only [Only.refl, State.modSw_only, foldl_only, restoreFwd_only, restoreStream_only]; done) | simp +decide (maxDischargeDepth := 60) only [Only.refl, State.modSw_only, foldl_only, restoreFwd_only, restoreStream_only])
@[simp] theorem restorePair_only {s0 : State} {qs : List Part} (c : Snapshot) (s : State) (h0 : Only qs s0 s) (hm : ∀ p ∈ ([.cgu, .ocu, .mlk, .time] : List Part), p ∈ qs) : Only qs s0 (restorePair c s) := by
  refine h0.step ?_ hm; clear h0 hm
  simp +decide (maxDischargeDepth := 60) only [restorePair, Only.refl, State.modCgu_only, State.modMlk_only, State.modOcu_only, State.modTime_only]
@[simp] theorem acqGranules_only {s0 : State} {qs : List Part} (n : Nat) (s : State) (h0 : Only qs s0 s) (hm : ∀ p ∈ ([.insts, .acq] : List Part), p ∈ qs) : Only qs s0 (acqGranules n s) := by
  refine h0.step ?_ hm; clear h0 hm
  simp +decide (maxDischargeDepth := 60) only [acqGranules, Only.refl, State.setAcqS_only, dramOwn_only]
@[simp] theorem acqBegin_only {s0 : State} {qs : List Part} (n : Nat) (s : State) (h0 : Only qs s0 s) (hm : ∀ p ∈ ([.acq] : List Part), p ∈ qs) : Only qs s0 (acqBegin n s) := by
  refine h0.step ?_ hm; clear h0 hm
  simp +decide (maxDischargeDepth := 60) only [acqBegin, Only.refl, State.setAcqS_only]
@[simp] theorem acqEnable_only {s0 : State} {qs : List Part} (n : Nat) (s : State) (h0 : Only qs s0 s) (hm : ∀ p ∈ ([.acq] : List Part), p ∈ qs) : Only qs s0 (acqEnable n s) := by
  refine h0.step ?_ hm; clear h0 hm
  simp only [acqEnable]
  repeat' (first | (simp +decide (maxDischargeDepth := 60) only [Only.refl, State.setAcqS_only, acqBegin_only, only_ite]; done) | split | intro _)
@[simp] theorem restoreAcq_only {s0 : State} {qs : List Part} (t : Tbl StreamEntry) (c : Acq) (s : State) (h0 : Only qs s0 s) (hm : ∀ p ∈ ([.insts, .acq] : List Part), p ∈ qs) : Only qs s0 (restoreAcq t c s) := by
  refine h0.step ?_ hm; clear h0 hm
  simp only [restoreAcq]
  repeat' (first | (simp +decide (maxDischargeDepth := 60) only [Only.refl, State.modAcq_only, State.setAcqS_only, acqGranules_only, foldl_only, only_ite, forall_const, implies_true, Option.some.injEq, forall_eq', forall_apply_eq_imp_iff, imp_self]; done) | assumption | split | intro _ | (subst_vars; simp +decide (maxDischargeDepth := 60) only [Only.refl, State.modAcq_only, State.setAcqS_only, acqGranules_only, foldl_only, only_ite]; done) | (injections; subst_vars; simp +decide (maxDischargeDepth := 60) only [Only.refl, State.modAcq_only, State.setAcqS_only, acqGranules_only, foldl_only, only_ite]; done) | simp +decide (maxDischargeDepth := 60) only [Only.refl, State.modAcq_only, State.setAcqS_only, acqGranules_only, foldl_only, only_ite])
@[simp] theorem restoreRest_only {s0 : State} {qs : List Part} (c : Snapshot) (s : State) (h0 : Only qs s0 s) (hm : ∀ p ∈ ([.fab, .ports, .head, .wake, .insts, .sched, .season, .faults, .evr] : List Part), p ∈ qs) : Only qs s0 (restoreRest c s) := by
  refine h0.step ?_ hm; clear h0 hm
  simp only [restoreRest]
  repeat' (first | (simp +decide (maxDischargeDepth := 60) only [Only.refl, State.modEvr_only, State.modFab_only, State.modFaults_only, State.modHead_only, State.modInsts_only, State.modSched_only, State.modSeason_only, State.modWake_only, State.setPort_only, foldl_only, forall_const, implies_true, Option.some.injEq, forall_eq', forall_apply_eq_imp_iff, imp_self]; done) | assumption | split | intro _ | (subst_vars; simp +decide (maxDischargeDepth := 60) only [Only.refl, State.modEvr_only, State.modFab_only, State.modFaults_only, State.modHead_only, State.modInsts_only, State.modSched_only, State.modSeason_only, State.modWake_only, State.setPort_only, foldl_only]; done) | (injections; subst_vars; simp +decide (maxDischargeDepth := 60) only [Only.refl, State.modEvr_only, State.modFab_only, State.modFaults_only, State.modHead_only, State.modInsts_only, State.modSched_only, State.modSeason_only, State.modWake_only, State.setPort_only, foldl_only]; done) | simp +decide (maxDischargeDepth := 60) only [Only.refl, State.modEvr_only, State.modFab_only, State.modFaults_only, State.modHead_only, State.modInsts_only, State.modSched_only, State.modSeason_only, State.modWake_only, State.setPort_only, foldl_only])
@[simp] theorem applyConfig_only {s0 : State} {qs : List Part} (c : Snapshot) (s : State) (h0 : Only qs s0 s) (hm : ∀ p ∈ ([.fab, .ports, .head, .wake, .sw, .sce, .insts, .sched, .cgu, .ocu, .mlk, .time, .acq, .bki, .season, .faults, .evr, .ksu, .mbx, .mon] : List Part), p ∈ qs) : Only qs s0 (applyConfig c s) := by
  refine h0.step ?_ hm; clear h0 hm
  simp only [applyConfig]
  repeat' (first | (simp +decide (maxDischargeDepth := 60) only [Only.refl, State.modKsu_only, State.modSce_only, foldl_only, refreshAllOver_only, restoreAcq_only, restoreInst_only, restorePair_only, restoreRest_only, restoreSwitch_only, forall_const, implies_true, Option.some.injEq, forall_eq', forall_apply_eq_imp_iff, imp_self]; done) | assumption | split | intro _ | (subst_vars; simp +decide (maxDischargeDepth := 60) only [Only.refl, State.modKsu_only, State.modSce_only, foldl_only, refreshAllOver_only, restoreAcq_only, restoreInst_only, restorePair_only, restoreRest_only, restoreSwitch_only]; done) | (injections; subst_vars; simp +decide (maxDischargeDepth := 60) only [Only.refl, State.modKsu_only, State.modSce_only, foldl_only, refreshAllOver_only, restoreAcq_only, restoreInst_only, restorePair_only, restoreRest_only, restoreSwitch_only]; done) | simp +decide (maxDischargeDepth := 60) only [Only.refl, State.modKsu_only, State.modSce_only, foldl_only, refreshAllOver_only, restoreAcq_only, restoreInst_only, restorePair_only, restoreRest_only, restoreSwitch_only])
@[simp] theorem startPsc_only {s0 : State} {qs : List Part} (k : Nat) (s : State) (h0 : Only qs s0 s) (hm : ∀ p ∈ ([.sched, .time] : List Part), p ∈ qs) : Only qs s0 (startPsc k s) := by
  refine h0.step ?_ hm; clear h0 hm
  simp only [startPsc]
  repeat' (first | (simp +decide (maxDischargeDepth := 60) only [Only.refl, State.setPsc_only, frameCmp_only, only_ite]; done) | split | intro _)
@[simp] theorem restoreConfig_only {s0 : State} {qs : List Part} (s : State) (h0 : Only qs s0 s) (hm : ∀ p ∈ ([.fab, .ports, .head, .wake, .sw, .sce, .insts, .sched, .cgu, .ocu, .mlk, .time, .acq, .bki, .season, .faults, .evr, .ksu, .mbx, .persist, .mon, .free] : List Part), p ∈ qs) : Only qs s0 (restoreConfig s) := by
  refine h0.step ?_ hm; clear h0 hm
  simp only [restoreConfig]
  repeat' (first | (simp +decide (maxDischargeDepth := 60) only [Only.refl, State.modPersist_only, State.modSw_only, State.took_only, applyConfig_only, foldl_only, note_only, ownStatics_only, startPsc_only, forall_const, implies_true, Option.some.injEq, forall_eq', forall_apply_eq_imp_iff, imp_self]; done) | assumption | split | intro _ | (subst_vars; simp +decide (maxDischargeDepth := 60) only [Only.refl, State.modPersist_only, State.modSw_only, State.took_only, applyConfig_only, foldl_only, note_only, ownStatics_only, startPsc_only]; done) | (injections; subst_vars; simp +decide (maxDischargeDepth := 60) only [Only.refl, State.modPersist_only, State.modSw_only, State.took_only, applyConfig_only, foldl_only, note_only, ownStatics_only, startPsc_only]; done) | simp +decide (maxDischargeDepth := 60) only [Only.refl, State.modPersist_only, State.modSw_only, State.took_only, applyConfig_only, foldl_only, note_only, ownStatics_only, startPsc_only])
@[simp] theorem setTimeouts_only {s0 : State} {qs : List Part} (s : State) (h0 : Only qs s0 s) (hm : ∀ p ∈ ([.fab, .free] : List Part), p ∈ qs) : Only qs s0 (setTimeouts s) := by
  refine h0.step ?_ hm; clear h0 hm
  simp +decide (maxDischargeDepth := 60) only [setTimeouts, Only.refl, State.modFab_only, State.took_only]
@[simp] theorem mgpStarted_only {s0 : State} {qs : List Part} (reason : Nat) (s : State) (h0 : Only qs s0 s) (hm : ∀ p ∈ ([.fab, .sched, .bki, .evr, .mbx, .mon, .free] : List Part), p ∈ qs) : Only qs s0 (mgpStarted reason s) := by
  refine h0.step ?_ hm; clear h0 hm
  simp only [mgpStarted]
  repeat' (first | (simp +decide (maxDischargeDepth := 60) only [Only.refl, State.modMbx_only, State.modMon_only, bankCopied_only, emit_only, foldl_only, only_ite, setTimeouts_only, vector_only, forall_const, implies_true, Option.some.injEq, forall_eq', forall_apply_eq_imp_iff, imp_self]; done) | assumption | split | intro _ | (subst_vars; simp +decide (maxDischargeDepth := 60) only [Only.refl, State.modMbx_only, State.modMon_only, bankCopied_only, emit_only, foldl_only, only_ite, setTimeouts_only, vector_only]; done) | (injections; subst_vars; simp +decide (maxDischargeDepth := 60) only [Only.refl, State.modMbx_only, State.modMon_only, bankCopied_only, emit_only, foldl_only, only_ite, setTimeouts_only, vector_only]; done) | simp +decide (maxDischargeDepth := 60) only [Only.refl, State.modMbx_only, State.modMon_only, bankCopied_only, emit_only, foldl_only, only_ite, setTimeouts_only, vector_only])
@[simp] theorem heartbeat_only {s0 : State} {qs : List Part} (s : State) (h0 : Only qs s0 s) (hm : ∀ p ∈ ([.bki, .faults] : List Part), p ∈ qs) : Only qs s0 (heartbeat s) := by
  refine h0.step ?_ hm; clear h0 hm
  simp +decide (maxDischargeDepth := 60) only [heartbeat, Only.refl, hbWrite_only]
@[simp] theorem imageCount_only {s0 : State} {qs : List Part} (ok : Bool) (s : State) (h0 : Only qs s0 s) (hm : ∀ p ∈ ([.ksu] : List Part), p ∈ qs) : Only qs s0 (imageCount ok s) := by
  refine h0.step ?_ hm; clear h0 hm
  simp +decide (maxDischargeDepth := 60) only [imageCount, Only.refl, State.modKsu_only, only_ite]
@[simp] theorem coldDo_only {s0 : State} {qs : List Part} (c : ColdIn) (n : Nat) (s : State) (h0 : Only qs s0 s) (hm : ∀ p ∈ ([.fab, .ports, .head, .wake, .sw, .sce, .insts, .sched, .cgu, .ocu, .mlk, .time, .acq, .bki, .season, .faults, .evr, .ksu, .mbx, .persist, .mon, .free] : List Part), p ∈ qs) : Only qs s0 (coldDo c n s).2 := by
  refine h0.step ?_ hm; clear h0 hm
  simp only [coldDo]
  repeat' (first | (simp +decide (maxDischargeDepth := 60) only [Only.refl, State.modBki_only, cursorsStart_only, evrStart_only, foldl_only, heartbeat_only, heldRecords_only, imageCount_only, ksuBegin_only, ksuStart_only, only_ite, readSlotPins_only, restoreConfig_only, slotReport_only, forall_const, implies_true, Option.some.injEq, forall_eq', forall_apply_eq_imp_iff, imp_self]; done) | assumption | split | intro _ | (subst_vars; simp +decide (maxDischargeDepth := 60) only [Only.refl, State.modBki_only, cursorsStart_only, evrStart_only, foldl_only, heartbeat_only, heldRecords_only, imageCount_only, ksuBegin_only, ksuStart_only, only_ite, readSlotPins_only, restoreConfig_only, slotReport_only]; done) | (injections; subst_vars; simp +decide (maxDischargeDepth := 60) only [Only.refl, State.modBki_only, cursorsStart_only, evrStart_only, foldl_only, heartbeat_only, heldRecords_only, imageCount_only, ksuBegin_only, ksuStart_only, only_ite, readSlotPins_only, restoreConfig_only, slotReport_only]; done) | simp +decide (maxDischargeDepth := 60) only [Only.refl, State.modBki_only, cursorsStart_only, evrStart_only, foldl_only, heartbeat_only, heldRecords_only, imageCount_only, ksuBegin_only, ksuStart_only, only_ite, readSlotPins_only, restoreConfig_only, slotReport_only])
@[simp] theorem coldRun_only {s0 : State} {qs : List Part} (c : ColdIn) (x0 : List Nat) (x1 : State) (h0 : Only qs s0 x1) (hm : ∀ p ∈ ([.fab, .ports, .head, .wake, .sw, .sce, .insts, .sched, .cgu, .ocu, .mlk, .time, .acq, .bki, .season, .faults, .evr, .ksu, .mbx, .persist, .mon, .free] : List Part), p ∈ qs) : Only qs s0 (coldRun c x0 x1) := by
  induction x0 generalizing x1 with
  | nil => (simp only [coldRun]; first | exact h0 | (refine h0.step ?_ hm; clear h0 hm; ((try (simp +decide (maxDischargeDepth := 60) only [Only.refl, State.modPersist_only, coldDo_only, only_ite, forall_eq_or_imp, forall_const, implies_true, and_true, true_and, forall_eq, imp_self, IsEmpty.forall_iff, Option.some.injEq, Host.Outcome.next.injEq, forall_eq', forall_apply_eq_imp_iff]; done)); repeat' (first | (simp +decide (maxDischargeDepth := 60) only [Only.refl, State.modPersist_only, coldDo_only, only_ite, forall_eq_or_imp, forall_const, implies_true, and_true, true_and, forall_eq, imp_self, IsEmpty.forall_iff, Option.some.injEq, Host.Outcome.next.injEq, forall_eq', forall_apply_eq_imp_iff]; done) | (simp (disch := (intros; repeat' (first | (simp +decide (maxDischargeDepth := 60) only [Only.refl, State.modPersist_only, coldDo_only, only_ite, forall_eq_or_imp, forall_const, implies_true, and_true, true_and, forall_eq, imp_self, IsEmpty.forall_iff, Option.some.injEq, Host.Outcome.next.injEq, forall_eq', forall_apply_eq_imp_iff]; done) | split))) only [Only.refl, State.modPersist_only, coldDo_only, only_ite]; done) | assumption | (intro _) | split | (subst_vars; simp +decide (maxDischargeDepth := 60) only [Only.refl, State.modPersist_only, coldDo_only, only_ite, forall_eq_or_imp, forall_const, implies_true, and_true, true_and, forall_eq, imp_self, IsEmpty.forall_iff, Option.some.injEq, Host.Outcome.next.injEq, forall_eq', forall_apply_eq_imp_iff]; done) | (injections; subst_vars; simp +decide (maxDischargeDepth := 60) only [Only.refl, State.modPersist_only, coldDo_only, only_ite, forall_eq_or_imp, forall_const, implies_true, and_true, true_and, forall_eq, imp_self, IsEmpty.forall_iff, Option.some.injEq, Host.Outcome.next.injEq, forall_eq', forall_apply_eq_imp_iff]; done) | simp +decide (maxDischargeDepth := 60) only [Only.refl, State.modPersist_only, coldDo_only, only_ite, forall_eq_or_imp, forall_const, implies_true, and_true, true_and, forall_eq, imp_self, IsEmpty.forall_iff, Option.some.injEq, Host.Outcome.next.injEq, forall_eq', forall_apply_eq_imp_iff]))))
  | cons a k ih =>
    simp only [coldRun]
    repeat' (first | exact h0 | refine ih _ ?_ | refine ih _ _ ?_ | refine ih _ _ _ ?_ | (refine h0.step ?_ hm; clear h0 ih hm; ((try (simp +decide (maxDischargeDepth := 60) only [Only.refl, State.modPersist_only, coldDo_only, only_ite, forall_eq_or_imp, forall_const, implies_true, and_true, true_and, forall_eq, imp_self, IsEmpty.forall_iff, Option.some.injEq, Host.Outcome.next.injEq, forall_eq', forall_apply_eq_imp_iff]; done)); repeat' (first | (simp +decide (maxDischargeDepth := 60) only [Only.refl, State.modPersist_only, coldDo_only, only_ite, forall_eq_or_imp, forall_const, implies_true, and_true, true_and, forall_eq, imp_self, IsEmpty.forall_iff, Option.some.injEq, Host.Outcome.next.injEq, forall_eq', forall_apply_eq_imp_iff]; done) | (simp (disch := (intros; repeat' (first | (simp +decide (maxDischargeDepth := 60) only [Only.refl, State.modPersist_only, coldDo_only, only_ite, forall_eq_or_imp, forall_const, implies_true, and_true, true_and, forall_eq, imp_self, IsEmpty.forall_iff, Option.some.injEq, Host.Outcome.next.injEq, forall_eq', forall_apply_eq_imp_iff]; done) | split))) only [Only.refl, State.modPersist_only, coldDo_only, only_ite]; done) | assumption | (intro _) | split | (subst_vars; simp +decide (maxDischargeDepth := 60) only [Only.refl, State.modPersist_only, coldDo_only, only_ite, forall_eq_or_imp, forall_const, implies_true, and_true, true_and, forall_eq, imp_self, IsEmpty.forall_iff, Option.some.injEq, Host.Outcome.next.injEq, forall_eq', forall_apply_eq_imp_iff]; done) | (injections; subst_vars; simp +decide (maxDischargeDepth := 60) only [Only.refl, State.modPersist_only, coldDo_only, only_ite, forall_eq_or_imp, forall_const, implies_true, and_true, true_and, forall_eq, imp_self, IsEmpty.forall_iff, Option.some.injEq, Host.Outcome.next.injEq, forall_eq', forall_apply_eq_imp_iff]; done) | simp +decide (maxDischargeDepth := 60) only [Only.refl, State.modPersist_only, coldDo_only, only_ite, forall_eq_or_imp, forall_const, implies_true, and_true, true_and, forall_eq, imp_self, IsEmpty.forall_iff, Option.some.injEq, Host.Outcome.next.injEq, forall_eq', forall_apply_eq_imp_iff])); done) | split)
@[simp] theorem coldEnd_only {s0 : State} {qs : List Part} (s : State) (h0 : Only qs s0 s) (hm : ∀ p ∈ ([.fab, .sched, .mlk, .time, .bki, .evr, .mbx, .persist, .mon, .free] : List Part), p ∈ qs) : Only qs s0 (coldEnd s) := by
  refine h0.step ?_ hm; clear h0 hm
  simp +decide (maxDischargeDepth := 60) only [coldEnd, Only.refl, State.modMbx_only, State.modMlk_only, State.modPersist_only, mgpStarted_only, syncCmp_only]
@[simp] theorem coldGo_only {s0 : State} {qs : List Part} (c : ColdIn) (s : State) (h0 : Only qs s0 s) (hm : ∀ p ∈ ([.fab, .ports, .head, .wake, .sw, .sce, .insts, .sched, .cgu, .ocu, .mlk, .time, .acq, .bki, .season, .faults, .evr, .ksu, .mbx, .persist, .mon, .free] : List Part), p ∈ qs) : Only qs s0 (coldGo c s) := by
  refine h0.step ?_ hm; clear h0 hm
  simp only [coldGo]
  repeat' (first | (simp +decide (maxDischargeDepth := 60) only [Only.refl, State.modPersist_only, coldEnd_only, coldRun_only, only_ite]; done) | split | intro _)
@[simp] theorem latchedRecord_only {s0 : State} {qs : List Part} (x : FaultSet) (s : State) (h0 : Only qs s0 s) (hm : ∀ p ∈ ([.bki, .evr] : List Part), p ∈ qs) : Only qs s0 (latchedRecord x s) := by
  refine h0.step ?_ hm; clear h0 hm
  simp only [latchedRecord]
  repeat' (first | (simp +decide (maxDischargeDepth := 60) only [Only.refl, only_ite, postPaced_only]; done) | split | intro _)
@[simp] theorem latchedRead_only {s0 : State} {qs : List Part} (s : State) (h0 : Only qs s0 s) (hm : ∀ p ∈ ([.bki, .faults, .evr] : List Part), p ∈ qs) : Only qs s0 (latchedRead s) := by
  refine h0.step ?_ hm; clear h0 hm
  simp only [latchedRead]
  repeat' (first | (simp +decide (maxDischargeDepth := 60) only [Only.refl, State.setFset_only, foldl_only, latchedRecord_only, forall_const, implies_true, Option.some.injEq, forall_eq', forall_apply_eq_imp_iff, imp_self]; done) | assumption | split | intro _ | (subst_vars; simp +decide (maxDischargeDepth := 60) only [Only.refl, State.setFset_only, foldl_only, latchedRecord_only]; done) | (injections; subst_vars; simp +decide (maxDischargeDepth := 60) only [Only.refl, State.setFset_only, foldl_only, latchedRecord_only]; done) | simp +decide (maxDischargeDepth := 60) only [Only.refl, State.setFset_only, foldl_only, latchedRecord_only])
@[simp] theorem serviceOn_only {s0 : State} {qs : List Part} (s : State) (h0 : Only qs s0 s) (hm : ∀ p ∈ ([.bki, .faults, .evr, .mbx, .persist] : List Part), p ∈ qs) : Only qs s0 (serviceOn s) := by
  refine h0.step ?_ hm; clear h0 hm
  simp only [serviceOn]
  repeat' (first | (simp +decide (maxDischargeDepth := 60) only [Only.refl, State.modMbx_only, State.modPersist_only, configChanged_only, emit_only, latchedRead_only, note_only, only_ite, vector_only]; done) | split | intro _)
@[simp] theorem serviceOff_only {s0 : State} {qs : List Part} (s : State) (h0 : Only qs s0 s) (hm : ∀ p ∈ ([.bki, .faults, .evr, .mbx, .persist] : List Part), p ∈ qs) : Only qs s0 (serviceOff s) := by
  refine h0.step ?_ hm; clear h0 hm
  simp +decide (maxDischargeDepth := 60) only [serviceOff, Only.refl, State.modMbx_only, State.modPersist_only, captureAll_only, configChanged_only, emit_only, vector_only]
@[simp] theorem restartPairs_only {s0 : State} {qs : List Part} (s : State) (h0 : Only qs s0 s) (hm : ∀ p ∈ ([.insts, .mlk, .mbx] : List Part), p ∈ qs) : Only qs s0 (restartPairs s) := by
  refine h0.step ?_ hm; clear h0 hm
  simp only [restartPairs]
  repeat' (first | (simp +decide (maxDischargeDepth := 60) only [Only.refl, State.modMbx_only, foldl_only, lsWrite_only, only_ite, vector_only, forall_const, implies_true, Option.some.injEq, forall_eq', forall_apply_eq_imp_iff, imp_self]; done) | assumption | split | intro _ | (subst_vars; simp +decide (maxDischargeDepth := 60) only [Only.refl, State.modMbx_only, foldl_only, lsWrite_only, only_ite, vector_only]; done) | (injections; subst_vars; simp +decide (maxDischargeDepth := 60) only [Only.refl, State.modMbx_only, foldl_only, lsWrite_only, only_ite, vector_only]; done) | simp +decide (maxDischargeDepth := 60) only [Only.refl, State.modMbx_only, foldl_only, lsWrite_only, only_ite, vector_only])
@[simp] theorem runHeld_only {s0 : State} {qs : List Part} (r : Replace) (s : State) (h0 : Only qs s0 s) (hm : ∀ p ∈ ([.sce, .insts, .sched, .eg, .cgu, .mlk, .time, .acq, .bki, .evr, .mbx] : List Part), p ∈ qs) : Only qs s0 (runHeld r s) := by
  refine h0.step ?_ hm; clear h0 hm
  simp only [runHeld]
  repeat' (first | (simp +decide (maxDischargeDepth := 60) only [Only.refl, State.setInst_only, beginReset_only, only_ite]; done) | split | intro _)
@[simp] theorem restartOps_only {s0 : State} {qs : List Part} (s : State) (h0 : Only qs s0 s) (hm : ∀ p ∈ ([.sce, .insts, .sched, .eg, .cgu, .mlk, .time, .acq, .bki, .evr, .mbx, .persist, .mon] : List Part), p ∈ qs) : Only qs s0 (restartOps s) := by
  refine h0.step ?_ hm; clear h0 hm
  simp only [restartOps]
  repeat' (first | (simp +decide (maxDischargeDepth := 60) only [Only.refl, State.modInsts_only, State.modMlk_only, State.modPersist_only, dramGive_only, foldl_only, lsGive_only, opDone_only, runHeld_only, forall_const, implies_true, Option.some.injEq, forall_eq', forall_apply_eq_imp_iff, imp_self]; done) | assumption | split | intro _ | (subst_vars; simp +decide (maxDischargeDepth := 60) only [Only.refl, State.modInsts_only, State.modMlk_only, State.modPersist_only, dramGive_only, foldl_only, lsGive_only, opDone_only, runHeld_only]; done) | (injections; subst_vars; simp +decide (maxDischargeDepth := 60) only [Only.refl, State.modInsts_only, State.modMlk_only, State.modPersist_only, dramGive_only, foldl_only, lsGive_only, opDone_only, runHeld_only]; done) | simp +decide (maxDischargeDepth := 60) only [Only.refl, State.modInsts_only, State.modMlk_only, State.modPersist_only, dramGive_only, foldl_only, lsGive_only, opDone_only, runHeld_only])
@[simp] theorem restartSteps_only {s0 : State} {qs : List Part} (s : State) (h0 : Only qs s0 s) (hm : ∀ p ∈ ([.fab, .sce, .insts, .sched, .eg, .cgu, .mlk, .time, .acq, .bki, .faults, .evr, .mbx, .persist, .mon, .free] : List Part), p ∈ qs) : Only qs s0 (restartSteps s) := by
  refine h0.step ?_ hm; clear h0 hm
  simp only [restartSteps]
  repeat' (first | (simp +decide (maxDischargeDepth := 60) only [Only.refl, State.modBki_only, State.modMbx_only, State.modPersist_only, latchedRead_only, mgpStarted_only, only_ite, persistNow_only, restartOps_only, restartPairs_only]; done) | split | intro _)
@[simp] theorem coldResume_only {s0 : State} {qs : List Part} (c : ColdIn) (s : State) (h0 : Only qs s0 s) (hm : ∀ p ∈ ([.fab, .ports, .head, .wake, .sw, .sce, .insts, .sched, .eg, .cgu, .ocu, .mlk, .time, .acq, .bki, .season, .faults, .evr, .ksu, .mbx, .persist, .mon, .free] : List Part), p ∈ qs) : Only qs s0 (coldResume c s) := by
  refine h0.step ?_ hm; clear h0 hm
  simp only [coldResume]
  repeat' (first | (simp +decide (maxDischargeDepth := 60) only [Only.refl, State.modPersist_only, coldDo_only, coldEnd_only, coldRun_only, heartbeat_only, only_ite, restartOps_only, restartPairs_only]; done) | split | intro _)

/-! ### NetTime -/

@[simp] theorem pdelayMissed_only {s0 : State} {qs : List Part} (k : Nat) (s : State) (h0 : Only qs s0 s) (hm : ∀ p ∈ ([.time] : List Part), p ∈ qs) : Only qs s0 (pdelayMissed k s) := by
  refine h0.step ?_ hm; clear h0 hm
  simp only [pdelayMissed]
  repeat' (first | (simp +decide (maxDischargeDepth := 60) only [Only.refl, State.setPtp_only, only_ite, reselect_only, tbuCount_only]; done) | split | intro _)
@[simp] theorem writeTrgCtl_only {s0 : State} {qs : List Part} (k : Nat) (v : BitVec 32) (s : State) (h0 : Only qs s0 s) (hm : ∀ p ∈ ([.ports, .head, .sw, .insts, .sched, .cgu, .ocu, .mlk, .time, .acq, .bki, .faults, .evr, .mbx, .persist, .mon, .free] : List Part), p ∈ qs) : Only qs s0 (writeTrgCtl k v s) := by
  refine h0.step ?_ hm; clear h0 hm
  simp +decide (maxDischargeDepth := 60) only [writeTrgCtl, Only.refl, State.setCmp_only, armCmp_only, only_ite]

/-! ### Partition -/

@[simp] theorem pscCommit_only {s0 : State} {qs : List Part} (k : Nat) (h : Option Nat) (s : State) (h0 : Only qs s0 s) (hm : ∀ p ∈ ([.sched] : List Part), p ∈ qs) : Only qs s0 (pscCommit k h s) := by
  refine h0.step ?_ hm; clear h0 hm
  simp +decide (maxDischargeDepth := 60) only [pscCommit, Only.refl, State.setPsc_only]

/-! ### Ports -/

@[simp] theorem finishTx_only {s0 : State} {qs : List Part} (k : Nat) (s : State) (h0 : Only qs s0 s) (hm : ∀ p ∈ ([.ports, .sw, .insts, .bki, .evr, .mbx] : List Part), p ∈ qs) : Only qs s0 (finishTx k s) := by
  refine h0.step ?_ hm; clear h0 hm
  simp only [finishTx]
  repeat' (first | (simp +decide (maxDischargeDepth := 60) only [Only.refl, State.setPort_only, only_ite, portCount_only, txDone_only]; done) | split | intro _)
@[simp] theorem stampTx_only {s0 : State} {qs : List Part} (k : Nat) (c : TxCopy) (s : State) (h0 : Only qs s0 s) (hm : ∀ p ∈ ([.time] : List Part), p ∈ qs) : Only qs s0 (stampTx k c s) := by
  refine h0.step ?_ hm; clear h0 hm
  simp only [stampTx]
  repeat' (first | (simp +decide (maxDischargeDepth := 60) only [Only.refl, State.modTime_only, only_ite, unsent_only]; done) | split | intro _)
@[simp] theorem beginTx_only {s0 : State} {qs : List Part} (k : Nat) (c : TxCopy) (wire : List Byte) (sat : Bool) (s : State) (h0 : Only qs s0 s) (hm : ∀ p ∈ ([.ports, .time] : List Part), p ∈ qs) : Only qs s0 (beginTx k c wire sat s) := by
  refine h0.step ?_ hm; clear h0 hm
  simp only [beginTx]
  repeat' (first | (simp +decide (maxDischargeDepth := 60) only [Only.refl, State.modTime_only, State.setPort_only, only_ite, stampTx_only]; done) | split | intro _)
@[simp] theorem crcFails_only {s0 : State} {qs : List Part} (k : Nat) (c : TxCopy) (s : State) (h0 : Only qs s0 s) (hm : ∀ p ∈ ([.ports, .head, .sw, .insts, .cgu, .ocu, .mlk, .time, .bki, .faults, .evr, .mbx, .persist, .mon] : List Part), p ∈ qs) : Only qs s0 (crcFails k c s) := by
  refine h0.step ?_ hm; clear h0 hm
  simp +decide (maxDischargeDepth := 60) only [crcFails, Only.refl, raise_only, txDrop_only]
@[simp] theorem selectTx_only {s0 : State} {qs : List Part} (k : Nat) (word : WordRead) (x0 : Nat) (x1 : State) (h0 : Only qs s0 x1) (hm : ∀ p ∈ ([.fab, .ports, .head, .sw, .sce, .insts, .sched, .cgu, .ocu, .mlk, .time, .bki, .faults, .evr, .ksu, .mbx, .persist, .mon] : List Part), p ∈ qs) : Only qs s0 (selectTx k word x0 x1) := by
  have sub : ∀ l : List Part, (∀ p ∈ l, p ∈ ([.fab, .ports, .head, .sw, .sce, .insts, .sched, .cgu, .ocu, .mlk, .time, .bki, .faults, .evr, .ksu, .mbx, .persist, .mon] : List Part)) → ∀ p ∈ l, p ∈ qs := fun l h p x => hm p (h p x)
  have drop : ∀ c n t, Only qs s0 t → Only qs s0 (txDrop k n c t) := fun c n t h => txDrop_only _ _ _ _ h (sub _ (by decide))
  induction x0 generalizing word x1 with
  | zero => exact h0
  | succ j ih =>
    simp only [selectTx]
    split
    · exact State.setPort_only _ _ _ h0 (sub _ (by decide))
    · have h1 : ∀ c, Only qs s0 (x1.setPort k fun p => p.pop c) := fun c => State.setPort_only _ _ _ h0 (sub _ (by decide))
      split
      · exact ih _ _ (drop _ _ _ (h1 _))
      · split
        · exact ih _ _ (drop _ _ _ (h1 _))
        · have fails : ∀ c t, Only qs s0 t → Only qs s0 (crcFails k c t) := fun c t h => crcFails_only _ _ _ h (sub _ (by decide))
          split
          · exact ih _ _ (fails _ _ (h1 _))
          · have h2 : ∀ l c, Only qs s0 (readWord l word 5 .none (x1.setPort k fun p => p.pop c) (some (.prt, k))).2 :=
              fun l c => readWord_only _ _ _ _ _ _ (h1 c) (sub _ (by decide))
            split
            · exact ih _ _ (drop _ _ _ (damage_only _ _ (h2 _ _) (sub _ (by decide))))
            · split
              · exact beginTx_only _ _ _ _ _ (h2 _ _) (sub _ (by decide))
              · split
                · exact ih _ _ (fails _ _ (h2 _ _))
                · exact beginTx_only _ _ _ _ _ (h2 _ _) (sub _ (by decide))
@[simp] theorem writeTxEn_only {s0 : State} {qs : List Part} (k : Nat) (v : Bool) (s : State) (h0 : Only qs s0 s) (hm : ∀ p ∈ ([.ports, .sw, .insts, .cgu, .time, .bki, .evr, .mbx] : List Part), p ∈ qs) : Only qs s0 (writeTxEn k v s) := by
  refine h0.step ?_ hm; clear h0 hm
  simp only [writeTxEn]
  repeat' (first | (simp +decide (maxDischargeDepth := 60) only [Only.refl, State.setPort_only, flushQueues_only, only_ite]; done) | split | intro _)
@[simp] theorem sendTold_only {s0 : State} {qs : List Part} (k : Nat) (d : SendDone) (s : State) (h0 : Only qs s0 s) (hm : ∀ p ∈ ([.ports, .insts, .faults] : List Part), p ∈ qs) : Only qs s0 (sendTold k d s) := by
  refine h0.step ?_ hm; clear h0 hm
  simp only [sendTold]
  repeat' (first | (simp +decide (maxDischargeDepth := 60) only [Only.refl, State.setPort_only, lateAt_only, only_ite]; done) | split | intro _)
@[simp] theorem storeSegment_only {s0 : State} {qs : List Part} (k : Nat) (x : LargeSend) (octets : List Byte) (s : State) (h0 : Only qs s0 s) (hm : ∀ p ∈ ([.ports, .sw, .sce, .insts, .cgu, .time, .acq, .bki, .evr, .mbx] : List Part), p ∈ qs) : Only qs s0 (storeSegment k x octets s) := by
  refine h0.step ?_ hm; clear h0 hm
  simp +decide (maxDischargeDepth := 60) only [storeSegment, Only.refl, redPorts_only, storeCharged_only]

/-! ### Seasons -/

@[simp] theorem seasonBegins_only {s0 : State} {qs : List Part} (x : SeasonKind) (h : Option Nat) (s : State) (h0 : Only qs s0 s) (hm : ∀ p ∈ ([.ports, .head, .sw, .insts, .sched, .cgu, .time, .bki, .season, .evr, .mbx, .mon] : List Part), p ∈ qs) : Only qs s0 (seasonBegins x h s) := by
  refine h0.step ?_ hm; clear h0 hm
  simp +decide (maxDischargeDepth := 60) only [seasonBegins, Only.refl, State.modSeason_only, seasonSettles_only]
@[simp] theorem seasonGo_only {s0 : State} {qs : List Part} (x : SeasonKind) (force : Bool) (s : State) (h0 : Only qs s0 s) (hm : ∀ p ∈ ([.ports, .head, .sw, .insts, .sched, .cgu, .time, .bki, .season, .evr, .mbx, .persist, .mon] : List Part), p ∈ qs) : Only qs s0 (seasonGo x force s) := by
  refine h0.step ?_ hm; clear h0 hm
  simp only [seasonGo]
  repeat' (first | (simp +decide (maxDischargeDepth := 60) only [Only.refl, only_ite, seasonBegins_only, winterBegins_only]; done) | split | intro _)
@[simp] theorem writeSeasonCtl_only {s0 : State} {qs : List Part} (v : BitVec 32) (s : State) (h0 : Only qs s0 s) (hm : ∀ p ∈ ([.ports, .head, .sw, .insts, .sched, .cgu, .time, .bki, .season, .evr, .mbx, .persist, .mon] : List Part), p ∈ qs) : Only qs s0 (writeSeasonCtl v s) := by
  refine h0.step ?_ hm; clear h0 hm
  simp only [writeSeasonCtl]
  repeat' (first | (simp +decide (maxDischargeDepth := 60) only [Only.refl, State.modSeason_only, only_ite, seasonGo_only]; done) | split | intro _)

/-! ### PageWrite -/

@[simp] theorem putRate_only {s0 : State} {qs : List Part} (k : Nat) (r : Nat) (s : State) (h0 : Only qs s0 s) (hm : ∀ p ∈ ([.ports, .sw, .insts, .cgu, .time, .bki, .evr, .mbx] : List Part), p ∈ qs) : Only qs s0 (putRate k r s) := by
  refine h0.step ?_ hm; clear h0 hm
  simp only [putRate]
  repeat' (first | (simp +decide (maxDischargeDepth := 60) only [Only.refl, State.setPort_only, only_ite, portDown_only]; done) | split | intro _)
@[simp] theorem writeRate_only {s0 : State} {qs : List Part} (k : Nat) (r : Nat) (s : State) (h0 : Only qs s0 s) (hm : ∀ p ∈ ([.ports, .sw, .insts, .cgu, .time, .bki, .evr, .mbx] : List Part), p ∈ qs) : Only qs s0 (writeRate k r s) := by
  refine h0.step ?_ hm; clear h0 hm
  simp only [writeRate]
  repeat' (first | (simp +decide (maxDischargeDepth := 60) only [Only.refl, only_ite, putRate_only]; done) | split | intro _)
@[simp] theorem writePortCtl_only {s0 : State} {qs : List Part} (k : Nat) (v : BitVec 32) (s : State) (h0 : Only qs s0 s) (hm : ∀ p ∈ ([.ports, .sw, .insts, .cgu, .time, .bki, .evr, .mbx] : List Part), p ∈ qs) : Only qs s0 (writePortCtl k v s) := by
  refine h0.step ?_ hm; clear h0 hm
  simp only [writePortCtl]
  repeat' (first | (simp +decide (maxDischargeDepth := 60) only [Only.refl, State.setPort_only, only_ite, writeRate_only, writeTxEn_only]; done) | split | intro _)
@[simp] theorem writePortVlan_only {s0 : State} {qs : List Part} (k : Nat) (v : BitVec 32) (s : State) (h0 : Only qs s0 s) (hm : ∀ p ∈ ([.ports] : List Part), p ∈ qs) : Only qs s0 (writePortVlan k v s) := by
  refine h0.step ?_ hm; clear h0 hm
  simp +decide (maxDischargeDepth := 60) only [writePortVlan, Only.refl, State.setPort_only]
@[simp] theorem writePortPcpMap_only {s0 : State} {qs : List Part} (k : Nat) (v : BitVec 32) (s : State) (h0 : Only qs s0 s) (hm : ∀ p ∈ ([.ports] : List Part), p ∈ qs) : Only qs s0 (writePortPcpMap k v s) := by
  refine h0.step ?_ hm; clear h0 hm
  simp +decide (maxDischargeDepth := 60) only [writePortPcpMap, Only.refl, State.setPort_only]
@[simp] theorem writeMaxFrame_only {s0 : State} {qs : List Part} (k : Nat) (n : Nat) (s : State) (h0 : Only qs s0 s) (hm : ∀ p ∈ ([.ports] : List Part), p ∈ qs) : Only qs s0 (writeMaxFrame k n s) := by
  refine h0.step ?_ hm; clear h0 hm
  simp +decide (maxDischargeDepth := 60) only [writeMaxFrame, Only.refl, State.setPort_only]
@[simp] theorem ringFwd_only {s0 : State} {qs : List Part} (s : State) (h0 : Only qs s0 s) (hm : ∀ p ∈ ([.time] : List Part), p ∈ qs) : Only qs s0 (ringFwd s) := by
  refine h0.step ?_ hm; clear h0 hm
  simp +decide (maxDischargeDepth := 60) only [ringFwd, Only.refl, State.setPtp_only]
@[simp] theorem writeSwcCtl_only {s0 : State} {qs : List Part} (v : BitVec 32) (s : State) (h0 : Only qs s0 s) (hm : ∀ p ∈ ([.ports, .head, .sw, .insts, .cgu, .time, .bki, .evr, .mbx] : List Part), p ∈ qs) : Only qs s0 (writeSwcCtl v s) := by
  refine h0.step ?_ hm; clear h0 hm
  simp only [writeSwcCtl]
  repeat' (first | (simp +decide (maxDischargeDepth := 60) only [Only.refl, State.modSw_only, coilCheck_only, only_ite, ringFwd_only]; done) | split | intro _)
@[simp] theorem writeHoldoff_only {s0 : State} {qs : List Part} (n : Nat) (s : State) (h0 : Only qs s0 s) (hm : ∀ p ∈ ([.sw] : List Part), p ∈ qs) : Only qs s0 (writeHoldoff n s) := by
  refine h0.step ?_ hm; clear h0 hm
  simp +decide (maxDischargeDepth := 60) only [writeHoldoff, Only.refl, State.modSw_only, foldl_only]
@[simp] theorem writeFwdIdle_only {s0 : State} {qs : List Part} (n : Nat) (s : State) (h0 : Only qs s0 s) (hm : ∀ p ∈ ([.sw] : List Part), p ∈ qs) : Only qs s0 (writeFwdIdle n s) := by
  refine h0.step ?_ hm; clear h0 hm
  simp +decide (maxDischargeDepth := 60) only [writeFwdIdle, Only.refl, State.modSw_only]
@[simp] theorem writeClsAge_only {s0 : State} {qs : List Part} (c : Nat) (n : Nat) (s : State) (h0 : Only qs s0 s) (hm : ∀ p ∈ ([.sw] : List Part), p ∈ qs) : Only qs s0 (writeClsAge c n s) := by
  refine h0.step ?_ hm; clear h0 hm
  simp +decide (maxDischargeDepth := 60) only [writeClsAge, Only.refl, State.modSw_only]
@[simp] theorem writePortFwd_only {s0 : State} {qs : List Part} (k : Nat) (v : BitVec 32) (s : State) (h0 : Only qs s0 s) (hm : ∀ p ∈ ([.sw] : List Part), p ∈ qs) : Only qs s0 (writePortFwd k v s) := by
  refine h0.step ?_ hm; clear h0 hm
  simp +decide (maxDischargeDepth := 60) only [writePortFwd, Only.refl, State.modSw_only]
@[simp] theorem writeMirCtl_only {s0 : State} {qs : List Part} (m : Nat) (v : BitVec 32) (s : State) (h0 : Only qs s0 s) (hm : ∀ p ∈ ([.sw, .insts, .bki, .evr, .mbx, .mon] : List Part), p ∈ qs) : Only qs s0 (writeMirCtl m v s) := by
  refine h0.step ?_ hm; clear h0 hm
  simp +decide (maxDischargeDepth := 60) only [writeMirCtl, Only.refl, commitNow_only, committed_only]
@[simp] theorem writePmcLoop_only {s0 : State} {qs : List Part} (c : Nat) (v : BitVec 32) (s : State) (h0 : Only qs s0 s) (hm : ∀ p ∈ ([.sched] : List Part), p ∈ qs) : Only qs s0 (writePmcLoop c v s) := by
  refine h0.step ?_ hm; clear h0 hm
  simp only [writePmcLoop]
  repeat' (first | (simp +decide (maxDischargeDepth := 60) only [Only.refl, only_ite, writeLoop_only]; done) | split | intro _)
@[simp] theorem writePmcVolt_only {s0 : State} {qs : List Part} (c : Nat) (v : BitVec 32) (s : State) (h0 : Only qs s0 s) (hm : ∀ p ∈ ([.sched] : List Part), p ∈ qs) : Only qs s0 (writePmcVolt c v s) := by
  refine h0.step ?_ hm; clear h0 hm
  simp only [writePmcVolt]
  repeat' (first | (simp +decide (maxDischargeDepth := 60) only [Only.refl, only_ite, writeLoop_only]; done) | split | intro _)
@[simp] theorem writeFabricVolt_only {s0 : State} {qs : List Part} (n : Nat) (s : State) (h0 : Only qs s0 s) (hm : ∀ p ∈ ([.sched] : List Part), p ∈ qs) : Only qs s0 (writeFabricVolt n s) := by
  refine h0.step ?_ hm; clear h0 hm
  simp only [writeFabricVolt]
  repeat' (first | (simp +decide (maxDischargeDepth := 60) only [Only.refl, State.modSched_only, only_ite, setVf_only]; done) | split | intro _)
@[simp] theorem writeCguCtl_only {s0 : State} {qs : List Part} (v : BitVec 32) (s : State) (h0 : Only qs s0 s) (hm : ∀ p ∈ ([.ports, .sw, .insts, .cgu, .time, .bki, .evr, .mbx] : List Part), p ∈ qs) : Only qs s0 (writeCguCtl v s) := by
  refine h0.step ?_ hm; clear h0 hm
  simp only [writeCguCtl]
  repeat' (first | (simp +decide (maxDischargeDepth := 60) only [Only.refl, State.modCgu_only, clmWrite_only, only_ite]; done) | split | intro _)
@[simp] theorem writeClaim_only {s0 : State} {qs : List Part} (v : BitVec 32) (s : State) (h0 : Only qs s0 s) (hm : ∀ p ∈ ([.cgu, .persist] : List Part), p ∈ qs) : Only qs s0 (writeClaim v s) := by
  refine h0.step ?_ hm; clear h0 hm
  simp only [writeClaim]
  repeat' (first | (simp +decide (maxDischargeDepth := 60) only [Only.refl, State.modCgu_only, configChanged_only, only_ite]; done) | split | intro _)
@[simp] theorem writeClaimMem_only {s0 : State} {qs : List Part} (v : BitVec 32) (s : State) (h0 : Only qs s0 s) (hm : ∀ p ∈ ([.cgu] : List Part), p ∈ qs) : Only qs s0 (writeClaimMem v s) := by
  refine h0.step ?_ hm; clear h0 hm
  simp only [writeClaimMem]
  repeat' (first | (simp +decide (maxDischargeDepth := 60) only [Only.refl, State.modCgu_only, only_ite]; done) | split | intro _)
@[simp] theorem writeOcuCtl_only {s0 : State} {qs : List Part} (v : BitVec 32) (s : State) (h0 : Only qs s0 s) (hm : ∀ p ∈ ([.ocu] : List Part), p ∈ qs) : Only qs s0 (writeOcuCtl v s) := by
  refine h0.step ?_ hm; clear h0 hm
  simp +decide (maxDischargeDepth := 60) only [writeOcuCtl, Only.refl, State.modOcu_only]
@[simp] theorem writeOcuRef_only {s0 : State} {qs : List Part} (v : BitVec 32) (s : State) (h0 : Only qs s0 s) (hm : ∀ p ∈ ([.ocu] : List Part), p ∈ qs) : Only qs s0 (writeOcuRef v s) := by
  refine h0.step ?_ hm; clear h0 hm
  simp only [writeOcuRef]
  repeat' (first | (simp +decide (maxDischargeDepth := 60) only [Only.refl, State.modOcu_only, only_ite]; done) | split | intro _)
@[simp] theorem writeMlkCtl_only {s0 : State} {qs : List Part} (v : BitVec 32) (s : State) (h0 : Only qs s0 s) (hm : ∀ p ∈ ([.mlk] : List Part), p ∈ qs) : Only qs s0 (writeMlkCtl v s) := by
  refine h0.step ?_ hm; clear h0 hm
  simp only [writeMlkCtl]
  repeat' (first | (simp +decide (maxDischargeDepth := 60) only [Only.refl, State.modMlk_only, only_ite]; done) | split | intro _)
@[simp] theorem writeTbDomain_only {s0 : State} {qs : List Part} (v : BitVec 32) (s : State) (h0 : Only qs s0 s) (hm : ∀ p ∈ ([.time] : List Part), p ∈ qs) : Only qs s0 (writeTbDomain v s) := by
  refine h0.step ?_ hm; clear h0 hm
  simp +decide (maxDischargeDepth := 60) only [writeTbDomain, Only.refl, State.modTime_only, only_ite]
@[simp] theorem writeTbLimits_only {s0 : State} {qs : List Part} (v : BitVec 32) (s : State) (h0 : Only qs s0 s) (hm : ∀ p ∈ ([.time] : List Part), p ∈ qs) : Only qs s0 (writeTbLimits v s) := by
  refine h0.step ?_ hm; clear h0 hm
  simp +decide (maxDischargeDepth := 60) only [writeTbLimits, Only.refl, State.modTime_only]
@[simp] theorem writePtpPort_only {s0 : State} {qs : List Part} (k : Nat) (v : BitVec 32) (s : State) (h0 : Only qs s0 s) (hm : ∀ p ∈ ([.time] : List Part), p ∈ qs) : Only qs s0 (writePtpPort k v s) := by
  refine h0.step ?_ hm; clear h0 hm
  simp only [writePtpPort]
  repeat' (first | (simp +decide (maxDischargeDepth := 60) only [Only.refl, State.setPtp_only, only_ite]; done) | split | intro _)
@[simp] theorem writePpsWidth_only {s0 : State} {qs : List Part} (n : Nat) (s : State) (h0 : Only qs s0 s) (hm : ∀ p ∈ ([.time] : List Part), p ∈ qs) : Only qs s0 (writePpsWidth n s) := by
  refine h0.step ?_ hm; clear h0 hm
  simp +decide (maxDischargeDepth := 60) only [writePpsWidth, Only.refl, State.modTime_only]
@[simp] theorem writeIncr_only {s0 : State} {qs : List Part} (v : BitVec 32) (s : State) (h0 : Only qs s0 s) (hm : ∀ p ∈ ([.time] : List Part), p ∈ qs) : Only qs s0 (writeIncr v s) := by
  refine h0.step ?_ hm; clear h0 hm
  simp only [writeIncr]
  repeat' (first | (simp +decide (maxDischargeDepth := 60) only [Only.refl, State.setIncr_only]; done) | split | intro _)
@[simp] theorem writeTbCtl_only {s0 : State} {qs : List Part} (v : BitVec 32) (s : State) (h0 : Only qs s0 s) (hm : ∀ p ∈ ([.ports, .head, .sw, .insts, .sched, .cgu, .ocu, .mlk, .time, .acq, .bki, .faults, .evr, .mbx, .persist, .mon, .free] : List Part), p ∈ qs) : Only qs s0 (writeTbCtl v s) := by
  refine h0.step ?_ hm; clear h0 hm
  simp only [writeTbCtl]
  repeat' (first | (simp +decide (maxDischargeDepth := 60) only [Only.refl, State.modTime_only, doStep_only, only_ite, writeRef_only]; done) | split | intro _)
@[simp] theorem writeTbStat_only {s0 : State} {qs : List Part} (v : BitVec 32) (s : State) (h0 : Only qs s0 s) (hm : ∀ p ∈ ([.time] : List Part), p ∈ qs) : Only qs s0 (writeTbStat v s) := by
  refine h0.step ?_ hm; clear h0 hm
  simp +decide (maxDischargeDepth := 60) only [writeTbStat, Only.refl, State.setDom_only]
@[simp] theorem writeOfs_only {s0 : State} {qs : List Part} (b : Bool) (hi : Bool) (v : BitVec 32) (s : State) (h0 : Only qs s0 s) (hm : ∀ p ∈ ([.time] : List Part), p ∈ qs) : Only qs s0 (writeOfs b hi v s) := by
  refine h0.step ?_ hm; clear h0 hm
  simp +decide (maxDischargeDepth := 60) only [writeOfs, Only.refl, State.setDom_only, only_ite]
@[simp] theorem writeTrg_only {s0 : State} {qs : List Part} (k : Nat) (j : Nat) (v : BitVec 32) (s : State) (h0 : Only qs s0 s) (hm : ∀ p ∈ ([.ports, .head, .sw, .insts, .sched, .cgu, .ocu, .mlk, .time, .acq, .bki, .faults, .evr, .mbx, .persist, .mon, .free] : List Part), p ∈ qs) : Only qs s0 (writeTrg k j v s) := by
  refine h0.step ?_ hm; clear h0 hm
  simp only [writeTrg]
  repeat' (first | (simp +decide (maxDischargeDepth := 60) only [Only.refl, State.setCmp_only, armCmp_only, only_ite, writeTrgCtl_only]; done) | split | intro _)
@[simp] theorem writeAcqCtl_only {s0 : State} {qs : List Part} (v : BitVec 32) (s : State) (h0 : Only qs s0 s) (hm : ∀ p ∈ ([.acq] : List Part), p ∈ qs) : Only qs s0 (writeAcqCtl v s) := by
  refine h0.step ?_ hm; clear h0 hm
  simp +decide (maxDischargeDepth := 60) only [writeAcqCtl, Only.refl, State.modAcq_only]
@[simp] theorem btGate_only {s0 : State} {qs : List Part} (s : State) (h0 : Only qs s0 s) (hm : ∀ p ∈ ([.bki] : List Part), p ∈ qs) : Only qs s0 (btGate s) := by
  refine h0.step ?_ hm; clear h0 hm
  simp only [btGate]
  repeat' (first | (simp +decide (maxDischargeDepth := 60) only [Only.refl, State.modBki_only, btDrive_only, foldl_only, only_ite, forall_const, implies_true, Option.some.injEq, forall_eq', forall_apply_eq_imp_iff, imp_self]; done) | assumption | split | intro _ | (subst_vars; simp +decide (maxDischargeDepth := 60) only [Only.refl, State.modBki_only, btDrive_only, foldl_only, only_ite]; done) | (injections; subst_vars; simp +decide (maxDischargeDepth := 60) only [Only.refl, State.modBki_only, btDrive_only, foldl_only, only_ite]; done) | simp +decide (maxDischargeDepth := 60) only [Only.refl, State.modBki_only, btDrive_only, foldl_only, only_ite])
@[simp] theorem writeBkiCtl_only {s0 : State} {qs : List Part} (v : BitVec 32) (s : State) (h0 : Only qs s0 s) (hm : ∀ p ∈ ([.time, .bki] : List Part), p ∈ qs) : Only qs s0 (writeBkiCtl v s) := by
  refine h0.step ?_ hm; clear h0 hm
  simp only [writeBkiCtl]
  repeat' (first | (simp +decide (maxDischargeDepth := 60) only [Only.refl, State.modBki_only, btGate_only, only_ite, syncCmp_only]; done) | split | intro _)
@[simp] theorem writeCalCtl_only {s0 : State} {qs : List Part} (v : BitVec 32) (s : State) (h0 : Only qs s0 s) (hm : ∀ p ∈ ([.bki] : List Part), p ∈ qs) : Only qs s0 (writeCalCtl v s) := by
  refine h0.step ?_ hm; clear h0 hm
  simp +decide (maxDischargeDepth := 60) only [writeCalCtl, Only.refl, State.modBki_only, only_ite]
@[simp] theorem writeElem_only {s0 : State} {qs : List Part} (n : Nat) (e : ElemSlot) (s : State) (h0 : Only qs s0 s) (hm : ∀ p ∈ ([.bki] : List Part), p ∈ qs) : Only qs s0 (writeElem n e s) := by
  refine h0.step ?_ hm; clear h0 hm
  simp +decide (maxDischargeDepth := 60) only [writeElem, Only.refl, State.modBki_only]
@[simp] theorem writeEvrCtl_only {s0 : State} {qs : List Part} (limitEn : Bool) (saveEn : Bool) (s : State) (h0 : Only qs s0 s) (hm : ∀ p ∈ ([.evr] : List Part), p ∈ qs) : Only qs s0 (writeEvrCtl limitEn saveEn s) := by
  refine h0.step ?_ hm; clear h0 hm
  simp +decide (maxDischargeDepth := 60) only [writeEvrCtl, Only.refl, State.modEvr_only]
@[simp] theorem writeBucket_only {s0 : State} {qs : List Part} (code : Nat) (mode : Nat) (burst : Nat) (intervalUs : Nat) (s : State) (h0 : Only qs s0 s) (hm : ∀ p ∈ ([.evr] : List Part), p ∈ qs) : Only qs s0 (writeBucket code mode burst intervalUs s) := by
  refine h0.step ?_ hm; clear h0 hm
  simp only [writeBucket]
  repeat' (first | (simp +decide (maxDischargeDepth := 60) only [Only.refl, State.modEvr_only, only_ite]; done) | split | intro _)
@[simp] theorem State.setCapture_only {s0 : State} {qs : List Part} (s : State) (b : BlockId) (u : Nat) (latch : Bool) (h0 : Only qs s0 s) (hm : ∀ p ∈ ([.faults] : List Part), p ∈ qs) : Only qs s0 (State.setCapture s b u latch) := by
  refine h0.step ?_ hm; clear h0 hm
  simp +decide (maxDischargeDepth := 60) only [State.setCapture, Only.refl, State.setFset_only]
@[simp] theorem writeFltCtl_only {s0 : State} {qs : List Part} (b : BlockId) (u : Nat) (v : BitVec 32) (s : State) (h0 : Only qs s0 s) (hm : ∀ p ∈ ([.faults] : List Part), p ∈ qs) : Only qs s0 (writeFltCtl b u v s) := by
  refine h0.step ?_ hm; clear h0 hm
  simp only [writeFltCtl]
  repeat' (first | (simp +decide (maxDischargeDepth := 60) only [Only.refl, State.setCapture_only, State.setFset_only, only_ite, rearm_only]; done) | split | intro _)
@[simp] theorem writeQuiet_only {s0 : State} {qs : List Part} (b : BlockId) (u : Nat) (n : Nat) (s : State) (h0 : Only qs s0 s) (hm : ∀ p ∈ ([.faults] : List Part), p ∈ qs) : Only qs s0 (writeQuiet b u n s) := by
  refine h0.step ?_ hm; clear h0 hm
  simp only [writeQuiet]
  repeat' (first | (simp +decide (maxDischargeDepth := 60) only [Only.refl, State.setFset_only, only_ite]; done) | split | intro _)

end Sys2Proof.Machine
end

