-- ==== Sys2Proof/Laws/OnlyRequests.lean ====
section
/-!
SUPPORT. Laws/OnlyRequests.lean: what may change in the operations of the mailbox requests, the registers, the monitor, power, received frames, the control engine and the tick.
One lemma per operation, in the order of the definitions.
-/
namespace Sys2Proof.Machine
open Sys2Proof
set_option linter.all false

/-! ### OpsModule -/

@[simp] theorem longNow_only {s0 : State} {qs : List Part} (r : Req) (opcode : Nat) (f : State → State) (s : State) (hf : ∀  t, Only qs t (f  t)) (h0 : Only qs s0 s) (hm : ∀ p ∈ ([.bki, .evr, .mbx, .mon] : List Part), p ∈ qs) : Only qs s0 (longNow r opcode f s).1 :=
  opDone_only _ _ _ _ ((startLong_only r opcode 0 s h0 fun p h => hm p (by revert h; cases p <;> simp)).trans (hf _)) hm

/-! ### StartUp -/

@[simp] theorem staged_only {s0 : State} {qs : List Part} (dest : Nat) (s : State) (h0 : Only qs s0 s) (hm : ∀ p ∈ ([.persist, .free] : List Part), p ∈ qs) : Only qs s0 (staged dest s) := by
  refine h0.step ?_ hm; clear h0 hm
  simp only [staged]
  repeat' (first | (simp +decide (maxDischargeDepth := 60) only [Only.refl, State.modPersist_only, State.took_only, only_ite]; done) | split | intro _)
@[simp] theorem importApply_only {s0 : State} {qs : List Part} (s : State) (h0 : Only qs s0 s) (hm : ∀ p ∈ ([.sw, .sce, .bki] : List Part), p ∈ qs) : Only qs s0 (importApply s) := by
  refine h0.step ?_ hm; clear h0 hm
  simp only [importApply]
  repeat' (first | (simp +decide (maxDischargeDepth := 60) only [Only.refl, State.modSce_only, State.modSw_only, foldl_only, writeElem_only, forall_const, implies_true, Option.some.injEq, forall_eq', forall_apply_eq_imp_iff, imp_self]; done) | assumption | split | intro _ | (subst_vars; simp +decide (maxDischargeDepth := 60) only [Only.refl, State.modSce_only, State.modSw_only, foldl_only, writeElem_only]; done) | (injections; subst_vars; simp +decide (maxDischargeDepth := 60) only [Only.refl, State.modSce_only, State.modSw_only, foldl_only, writeElem_only]; done) | simp +decide (maxDischargeDepth := 60) only [Only.refl, State.modSce_only, State.modSw_only, foldl_only, writeElem_only])

/-! ### OpsInstance -/

@[simp] theorem holdFor_only {s0 : State} {qs : List Part} (r : Req) (opcode : Nat) (i : Nat) (removal : Bool) (clear : Bool) (s : State) (h0 : Only qs s0 s) (hm : ∀ p ∈ ([.mbx, .persist, .mon] : List Part), p ∈ qs) : Only qs s0 (holdFor r opcode i removal clear s).1 := by
  refine h0.step ?_ hm; clear h0 hm
  simp only [holdFor]
  repeat' (first | (simp +decide (maxDischargeDepth := 60) only [Only.refl, State.modPersist_only, only_ite, refuse_only, startLong_only]; done) | split | intro _)
@[simp] theorem setShares_only {s0 : State} {qs : List Part} (i : Nat) (new : Shares) (s : State) (h0 : Only qs s0 s) (hm : ∀ p ∈ ([.insts, .bki, .evr, .mbx] : List Part), p ∈ qs) : Only qs s0 (setShares i new s) := by
  refine h0.step ?_ hm; clear h0 hm
  simp +decide (maxDischargeDepth := 60) only [setShares, Only.refl, State.setInst_only, dramOwn_only, lsOwn_only, refreshOver_only]

/-! ### OpsSwitch -/

@[simp] theorem CntPage.snap_only {s0 : State} {qs : List Part} (p : CntPage) (s : State) (h0 : Only qs s0 s) (hm : ∀ p ∈ ([.ports, .sw, .sce, .sched, .cgu, .ocu, .mlk, .time, .acq, .bki, .evr, .ksu] : List Part), p ∈ qs) : Only qs s0 (CntPage.snap p s) := by
  refine h0.step ?_ hm; clear h0 hm
  simp only [CntPage.snap]
  repeat' (first | (simp +decide (maxDischargeDepth := 60) only [Only.refl, State.modAcq_only, State.modBki_only, State.modCgu_only, State.modEvr_only, State.modKsu_only, State.modMlk_only, State.modOcu_only, State.modSce_only, State.modSched_only, State.modSw_only, State.modTime_only, State.setPort_only, State.setPsc_only]; done) | split | intro _)
@[simp] theorem snapshot_only {s0 : State} {qs : List Part} (p : CntPage) (s : State) (h0 : Only qs s0 s) (hm : ∀ p ∈ ([.ports, .sw, .sce, .sched, .cgu, .ocu, .mlk, .time, .acq, .bki, .evr, .ksu, .mbx, .free] : List Part), p ∈ qs) : Only qs s0 (snapshot p s) := by
  have hs : Only qs s0 (match p with | .port k => countPause k s | .mlk => countMissed s | _ => s) := by
    split
    · exact countPause_only _ _ h0 (by simpa using hm .ports (by simp))
    · exact countMissed_only _ h0 (by simpa using hm .mlk (by simp))
    · exact h0
  unfold snapshot
  exact State.took_only _ (State.modMbx_only _ (CntPage.snap_only p _ hs (fun p h => hm p (by revert h; cases p <;> simp))) (hm _ (by simp))) (by simpa using hm .free (by simp))
@[simp] theorem totalsGiven_only {s0 : State} {qs : List Part} (p : CntPage) (reader : Nat) (s : State) (h0 : Only qs s0 s) (hm : ∀ p ∈ ([.mbx] : List Part), p ∈ qs) : Only qs s0 (totalsGiven p reader s) := by
  refine h0.step ?_ hm; clear h0 hm
  simp +decide (maxDischargeDepth := 60) only [totalsGiven, Only.refl, State.modMbx_only, foldl_only, only_ite]
@[simp] theorem batched_only {s0 : State} {qs : List Part} (cs : List StbChange) (s : State) (h0 : Only qs s0 s) (hm : ∀ p ∈ ([.sw] : List Part), p ∈ qs) : Only qs s0 (batched cs s) := by
  refine h0.step ?_ hm; clear h0 hm
  simp +decide (maxDischargeDepth := 60) only [batched, Only.refl, State.modSw_only]
@[simp] theorem writeSwitchCfg_only {s0 : State} {qs : List Part} (c : SwitchCfg) (s : State) (h0 : Only qs s0 s) (hm : ∀ p ∈ ([.ports, .head, .sw, .insts, .cgu, .time, .bki, .evr, .mbx] : List Part), p ∈ qs) : Only qs s0 (writeSwitchCfg c s) := by
  refine h0.step ?_ hm; clear h0 hm
  simp only [writeSwitchCfg]
  repeat' (first | (simp +decide (maxDischargeDepth := 60) only [Only.refl, foldl_only, writeClsAge_only, writeFwdIdle_only, writeHoldoff_only, writePortFwd_only, writeSwcCtl_only, forall_const, implies_true, Option.some.injEq, forall_eq', forall_apply_eq_imp_iff, imp_self]; done) | assumption | split | intro _ | (subst_vars; simp +decide (maxDischargeDepth := 60) only [Only.refl, foldl_only, writeClsAge_only, writeFwdIdle_only, writeHoldoff_only, writePortFwd_only, writeSwcCtl_only]; done) | (injections; subst_vars; simp +decide (maxDischargeDepth := 60) only [Only.refl, foldl_only, writeClsAge_only, writeFwdIdle_only, writeHoldoff_only, writePortFwd_only, writeSwcCtl_only]; done) | simp +decide (maxDischargeDepth := 60) only [Only.refl, foldl_only, writeClsAge_only, writeFwdIdle_only, writeHoldoff_only, writePortFwd_only, writeSwcCtl_only])

/-! ### OpsCond -/

@[simp] theorem configClear_only {s0 : State} {qs : List Part} (g : Nat) (n : Nat) (thr : Nat) (was : Thr) (now : Thr) (s : State) (h0 : Only qs s0 s) (hm : ∀ p ∈ ([.sce, .insts, .mlk, .acq, .free] : List Part), p ∈ qs) : Only qs s0 (configClear g n thr was now s) := by
  refine h0.step ?_ hm; clear h0 hm
  simp only [configClear]
  repeat' (first | (simp +decide (maxDischargeDepth := 60) only [Only.refl, State.took_only, only_ite, thrEvent_only]; done) | split | intro _)
@[simp] theorem writeCtx_only {s0 : State} {qs : List Part} (g : Nat) (n : Nat) (rate : Nat) (c : Ctx) (s : State) (h0 : Only qs s0 s) (hm : ∀ p ∈ ([.sce, .insts, .mlk, .acq, .free] : List Part), p ∈ qs) : Only qs s0 (writeCtx g n rate c s) := by
  refine h0.step ?_ hm; clear h0 hm
  simp +decide (maxDischargeDepth := 60) only [writeCtx, Only.refl, State.setCtx_only, State.took_only, configClear_only]
@[simp] theorem writeGroup_only {s0 : State} {qs : List Part} (g : Nat) (d : Group) (ctxs : List Ctx) (s : State) (h0 : Only qs s0 s) (hm : ∀ p ∈ ([.sce, .insts, .mlk, .acq, .free] : List Part), p ∈ qs) : Only qs s0 (writeGroup g d ctxs s) := by
  refine h0.step ?_ hm; clear h0 hm
  simp only [writeGroup]
  repeat' (first | (simp +decide (maxDischargeDepth := 60) only [Only.refl, State.setGroup_only, foldl_only, writeCtx_only, forall_const, implies_true, Option.some.injEq, forall_eq', forall_apply_eq_imp_iff, imp_self]; done) | assumption | split | intro _ | (subst_vars; simp +decide (maxDischargeDepth := 60) only [Only.refl, State.setGroup_only, foldl_only, writeCtx_only]; done) | (injections; subst_vars; simp +decide (maxDischargeDepth := 60) only [Only.refl, State.setGroup_only, foldl_only, writeCtx_only]; done) | simp +decide (maxDischargeDepth := 60) only [Only.refl, State.setGroup_only, foldl_only, writeCtx_only])
@[simp] theorem groupSet_only {s0 : State} {qs : List Part} (g : Nat) (desc : Group) (ctxs : List Ctx) (s : State) (h0 : Only qs s0 s) (hm : ∀ p ∈ ([.sce, .insts, .mlk, .acq, .bki, .evr, .mbx, .persist, .free] : List Part), p ∈ qs) : Only qs s0 (groupSet g desc ctxs s).1 := by
  refine h0.step ?_ hm; clear h0 hm
  simp only [groupSet]
  repeat' (first | (simp +decide (maxDischargeDepth := 60) only [Only.refl, configChanged_only, only_ite, refreshAllOver_only, refuse_only, writeGroup_only]; done) | split | intro _)
@[simp] theorem batchUsed_only {s0 : State} {qs : List Part} (g : Nat) (s : State) (h0 : Only qs s0 s) (hm : ∀ p ∈ ([.sce] : List Part), p ∈ qs) : Only qs s0 (batchUsed g s) := by
  refine h0.step ?_ hm; clear h0 hm
  simp +decide (maxDischargeDepth := 60) only [batchUsed, Only.refl, State.modSce_only]
@[simp] theorem revalidate_only {s0 : State} {qs : List Part} (i : Nat) (ring : Nat) (s : State) (h0 : Only qs s0 s) (hm : ∀ p ∈ ([.sce] : List Part), p ∈ qs) : Only qs s0 (revalidate i ring s) := by
  refine h0.step ?_ hm; clear h0 hm
  simp +decide (maxDischargeDepth := 60) only [revalidate, Only.refl, State.modSce_only, only_ite]
@[simp] theorem writeSceCtl_only {s0 : State} {qs : List Part} (v : BitVec 32) (s : State) (h0 : Only qs s0 s) (hm : ∀ p ∈ ([.sce] : List Part), p ∈ qs) : Only qs s0 (writeSceCtl v s) := by
  refine h0.step ?_ hm; clear h0 hm
  simp +decide (maxDischargeDepth := 60) only [writeSceCtl, Only.refl, State.modSce_only]

/-! ### OpsTime -/

@[simp] theorem writeTimeCfg_only {s0 : State} {qs : List Part} (c : TimeCfg) (s : State) (h0 : Only qs s0 s) (hm : ∀ p ∈ ([.time, .bki, .evr] : List Part), p ∈ qs) : Only qs s0 (writeTimeCfg c s) := by
  refine h0.step ?_ hm; clear h0 hm
  simp only [writeTimeCfg]
  repeat' (first | (simp +decide (maxDischargeDepth := 60) only [Only.refl, State.modTime_only, autoSwitch_only, foldl_only, reselect_only, writePtpPort_only, writeTbDomain_only, writeTbLimits_only, forall_const, implies_true, Option.some.injEq, forall_eq', forall_apply_eq_imp_iff, imp_self]; done) | assumption | split | intro _ | (subst_vars; simp +decide (maxDischargeDepth := 60) only [Only.refl, State.modTime_only, autoSwitch_only, foldl_only, reselect_only, writePtpPort_only, writeTbDomain_only, writeTbLimits_only]; done) | (injections; subst_vars; simp +decide (maxDischargeDepth := 60) only [Only.refl, State.modTime_only, autoSwitch_only, foldl_only, reselect_only, writePtpPort_only, writeTbDomain_only, writeTbLimits_only]; done) | simp +decide (maxDischargeDepth := 60) only [Only.refl, State.modTime_only, autoSwitch_only, foldl_only, reselect_only, writePtpPort_only, writeTbDomain_only, writeTbLimits_only])

/-! ### OpsAcq -/

@[simp] theorem acqBits_only {s0 : State} {qs : List Part} (x : AcqStream) (s : State) (h0 : Only qs s0 s) (hm : ∀ p ∈ ([.sw, .sce, .insts, .bki, .evr, .mbx, .mon] : List Part), p ∈ qs) : Only qs s0 (acqBits x s) := by
  refine h0.step ?_ hm; clear h0 hm
  simp only [acqBits]
  repeat' (first | (simp +decide (maxDischargeDepth := 60) only [Only.refl, State.setGroup_only, commitNow_only, foldl_only, only_ite]; done) | (simp (disch := (intros; repeat' (first | (simp +decide (maxDischargeDepth := 60) only [Only.refl, State.setGroup_only, commitNow_only, foldl_only, only_ite]; done) | split))) only [Only.refl, State.setGroup_only, commitNow_only, foldl_only, only_ite]; done) | assumption | split | intro _ | (subst_vars; simp +decide (maxDischargeDepth := 60) only [Only.refl, State.setGroup_only, commitNow_only, foldl_only, only_ite]; done))
@[simp] theorem acqDisable_only {s0 : State} {qs : List Part} (n : Nat) (s : State) (h0 : Only qs s0 s) (hm : ∀ p ∈ ([.insts, .acq] : List Part), p ∈ qs) : Only qs s0 (acqDisable n s) := by
  refine h0.step ?_ hm; clear h0 hm
  simp +decide (maxDischargeDepth := 60) only [acqDisable, Only.refl, State.setAcqS_only, acqClose_only, acqCount_only, acqRelease_only]
@[simp] theorem acqRestart_only {s0 : State} {qs : List Part} (n : Nat) (s : State) (h0 : Only qs s0 s) (hm : ∀ p ∈ ([.acq] : List Part), p ∈ qs) : Only qs s0 (acqRestart n s) := by
  refine h0.step ?_ hm; clear h0 hm
  simp +decide (maxDischargeDepth := 60) only [acqRestart, Only.refl, State.setAcqS_only, acqCount_only, acqPut_only]

/-! ### OpsPair -/

@[simp] theorem writePairCfg_only {s0 : State} {qs : List Part} (cguCtl : BitVec 32) (cguMem : BitVec 32) (ocuCtl : BitVec 32) (mlkCtl : BitVec 32) (s : State) (h0 : Only qs s0 s) (hm : ∀ p ∈ ([.ports, .sw, .insts, .cgu, .ocu, .mlk, .time, .bki, .evr, .mbx] : List Part), p ∈ qs) : Only qs s0 (writePairCfg cguCtl cguMem ocuCtl mlkCtl s) := by
  refine h0.step ?_ hm; clear h0 hm
  simp +decide (maxDischargeDepth := 60) only [writePairCfg, Only.refl, writeCguCtl_only, writeClaimMem_only, writeMlkCtl_only, writeOcuCtl_only]
@[simp] theorem switchRefused_only {s0 : State} {qs : List Part} (h : Nat) (n : Nat) (s : State) (h0 : Only qs s0 s) (hm : ∀ p ∈ ([.mlk, .bki, .evr, .mbx, .mon] : List Part), p ∈ qs) : Only qs s0 (switchRefused h n s) := by
  refine h0.step ?_ hm; clear h0 hm
  simp +decide (maxDischargeDepth := 60) only [switchRefused, Only.refl, State.modMlk_only, opDone_only, switchRecord_only]
@[simp] theorem switchTakes_only {s0 : State} {qs : List Part} (h : Nat) (s : State) (h0 : Only qs s0 s) (hm : ∀ p ∈ ([.cgu, .mlk, .bki, .evr, .mbx, .persist, .mon] : List Part), p ∈ qs) : Only qs s0 (switchTakes h s) := by
  refine h0.step ?_ hm; clear h0 hm
  simp only [switchTakes]
  repeat' (first | (simp +decide (maxDischargeDepth := 60) only [Only.refl, State.modMlk_only, endSwitch_only, only_ite, startTakeover_only]; done) | split | intro _)
@[simp] theorem switchHeld_only {s0 : State} {qs : List Part} (r : Req) (unit : Nat) (s : State) (h0 : Only qs s0 s) (hm : ∀ p ∈ ([.mlk, .mbx, .mon] : List Part), p ∈ qs) : Only qs s0 (switchHeld r unit s).1 := by
  refine h0.step ?_ hm; clear h0 hm
  simp only [switchHeld]
  repeat' (first | (simp +decide (maxDischargeDepth := 60) only [Only.refl, State.modMlk_only, only_ite, refuse_only, startLong_only]; done) | split | intro _)
@[simp] theorem switchAsked_only {s0 : State} {qs : List Part} (r : Req) (unit : Nat) (s : State) (h0 : Only qs s0 s) (hm : ∀ p ∈ ([.cgu, .mlk, .bki, .evr, .mbx, .persist, .mon] : List Part), p ∈ qs) : Only qs s0 (switchAsked r unit s).1 := by
  refine h0.step ?_ hm; clear h0 hm
  simp only [switchAsked]
  repeat' (first | (simp +decide (maxDischargeDepth := 60) only [Only.refl, only_ite, refuse_only, startLong_only, switchRefused_only, switchTakes_only]; done) | split | intro _)
@[simp] theorem returnStandby_only {s0 : State} {qs : List Part} (s : State) (h0 : Only qs s0 s) (hm : ∀ p ∈ ([.cgu, .bki, .evr, .mbx] : List Part), p ∈ qs) : Only qs s0 (returnStandby s) := by
  refine h0.step ?_ hm; clear h0 hm
  simp only [returnStandby]
  repeat' (first | (simp +decide (maxDischargeDepth := 60) only [Only.refl, State.modCgu_only, only_ite, setRole_only]; done) | split | intro _)
@[simp] theorem assignTrip_only {s0 : State} {qs : List Part} (n : Nat) (inst : Option Nat) (s : State) (h0 : Only qs s0 s) (hm : ∀ p ∈ ([.cgu] : List Part), p ∈ qs) : Only qs s0 (assignTrip n inst s) := by
  refine h0.step ?_ hm; clear h0 hm
  simp +decide (maxDischargeDepth := 60) only [assignTrip, Only.refl, State.modCgu_only, only_ite]

/-! ### OpsKeys -/

@[simp] theorem attrKept_only {s0 : State} {qs : List Part} (n : Nat) (a : KeyArgs) (s : State) (h0 : Only qs s0 s) (hm : ∀ p ∈ ([.ksu, .free] : List Part), p ∈ qs) : Only qs s0 (attrKept n a s) := by
  refine h0.step ?_ hm; clear h0 hm
  simp +decide (maxDischargeDepth := 60) only [attrKept, Only.refl, slotAttr_only]
@[simp] theorem kcvOr_only {s0 : State} {qs : List Part} (n : Nat) (a : KeyArgs) (s : State) (h0 : Only qs s0 s) (hm : ∀ p ∈ ([.ksu, .free] : List Part), p ∈ qs) : Only qs s0 (kcvOr n a s).1 := by
  refine h0.step ?_ hm; clear h0 hm
  simp only [kcvOr]
  repeat' (first | (simp +decide (maxDischargeDepth := 60) only [Only.refl, attrKept_only, okRes_only, only_ite, refuse_only]; done) | split | intro _)
@[simp] theorem assignSlot_only {s0 : State} {qs : List Part} (n : Nat) (byMgp : Bool) (owner : Nat) (gen : Nat) (s : State) (h0 : Only qs s0 s) (hm : ∀ p ∈ ([.insts, .bki, .evr, .ksu, .mbx] : List Part), p ∈ qs) : Only qs s0 (assignSlot n byMgp owner gen s) := by
  refine h0.step ?_ hm; clear h0 hm
  simp +decide (maxDischargeDepth := 60) only [assignSlot, Only.refl, State.modKsu_only, refreshOver_only]

/-! ### OpsFaults -/

@[simp] theorem injRefuse_only {s0 : State} {qs : List Part} (st : Status) (b : BlockId) (u : Nat) (s : State) (h0 : Only qs s0 s) (hm : ∀ p ∈ ([] : List Part), p ∈ qs) : Only qs s0 (injRefuse st b u s).1 := by
  refine h0.step ?_ hm; clear h0 hm
  simp +decide (maxDischargeDepth := 60) only [injRefuse, Only.refl]
@[simp] theorem takeCursor2_only {s0 : State} {qs : List Part} (on : Bool) (s : State) (h0 : Only qs s0 s) (hm : ∀ p ∈ ([.evr] : List Part), p ∈ qs) : Only qs s0 (takeCursor2 on s) := by
  refine h0.step ?_ hm; clear h0 hm
  simp +decide (maxDischargeDepth := 60) only [takeCursor2, Only.refl, State.modEvr_only, only_ite]
@[simp] theorem postOwn_only {s0 : State} {qs : List Part} (who : Master) (code : Nat) (detail : List Byte) (s : State) (h0 : Only qs s0 s) (hm : ∀ p ∈ ([.bki, .evr, .mbx] : List Part), p ∈ qs) : Only qs s0 (postOwn who code detail s) := by
  refine h0.step ?_ hm; clear h0 hm
  simp only [postOwn]
  repeat' (first | (simp +decide (maxDischargeDepth := 60) only [Only.refl, State.modMbx_only, note_only]; done) | split | intro _)
@[simp] theorem writerDrains_only {s0 : State} {qs : List Part} (x0 : Nat) (x1 : State) (h0 : Only qs s0 x1) (hm : ∀ p ∈ ([.evr] : List Part), p ∈ qs) : Only qs s0 (writerDrains x0 x1) := by
  induction x0 generalizing x1 with
  | zero => (simp only [writerDrains]; first | exact h0 | (refine h0.step ?_ hm; clear h0 hm; ((try (simp +decide (maxDischargeDepth := 60) only [Only.refl, writerStep_only, forall_eq_or_imp, forall_const, implies_true, and_true, true_and, forall_eq, imp_self, IsEmpty.forall_iff, Option.some.injEq, Host.Outcome.next.injEq, forall_eq', forall_apply_eq_imp_iff]; done)); repeat' (first | (simp +decide (maxDischargeDepth := 60) only [Only.refl, writerStep_only, forall_eq_or_imp, forall_const, implies_true, and_true, true_and, forall_eq, imp_self, IsEmpty.forall_iff, Option.some.injEq, Host.Outcome.next.injEq, forall_eq', forall_apply_eq_imp_iff]; done) | (simp (disch := (intros; repeat' (first | (simp +decide (maxDischargeDepth := 60) only [Only.refl, writerStep_only, forall_eq_or_imp, forall_const, implies_true, and_true, true_and, forall_eq, imp_self, IsEmpty.forall_iff, Option.some.injEq, Host.Outcome.next.injEq, forall_eq', forall_apply_eq_imp_iff]; done) | split))) only [Only.refl, writerStep_only]; done) | assumption | (intro _) | split | (subst_vars; simp +decide (maxDischargeDepth := 60) only [Only.refl, writerStep_only, forall_eq_or_imp, forall_const, implies_true, and_true, true_and, forall_eq, imp_self, IsEmpty.forall_iff, Option.some.injEq, Host.Outcome.next.injEq, forall_eq', forall_apply_eq_imp_iff]; done) | (injections; subst_vars; simp +decide (maxDischargeDepth := 60) only [Only.refl, writerStep_only, forall_eq_or_imp, forall_const, implies_true, and_true, true_and, forall_eq, imp_self, IsEmpty.forall_iff, Option.some.injEq, Host.Outcome.next.injEq, forall_eq', forall_apply_eq_imp_iff]; done) | simp +decide (maxDischargeDepth := 60) only [Only.refl, writerStep_only, forall_eq_or_imp, forall_const, implies_true, and_true, true_and, forall_eq, imp_self, IsEmpty.forall_iff, Option.some.injEq, Host.Outcome.next.injEq, forall_eq', forall_apply_eq_imp_iff]))))
  | succ k ih =>
    simp only [writerDrains]
    repeat' (first | exact h0 | refine ih _ ?_ | refine ih _ _ ?_ | refine ih _ _ _ ?_ | (refine h0.step ?_ hm; clear h0 ih hm; ((try (simp +decide (maxDischargeDepth := 60) only [Only.refl, writerStep_only, forall_eq_or_imp, forall_const, implies_true, and_true, true_and, forall_eq, imp_self, IsEmpty.forall_iff, Option.some.injEq, Host.Outcome.next.injEq, forall_eq', forall_apply_eq_imp_iff]; done)); repeat' (first | (simp +decide (maxDischargeDepth := 60) only [Only.refl, writerStep_only, forall_eq_or_imp, forall_const, implies_true, and_true, true_and, forall_eq, imp_self, IsEmpty.forall_iff, Option.some.injEq, Host.Outcome.next.injEq, forall_eq', forall_apply_eq_imp_iff]; done) | (simp (disch := (intros; repeat' (first | (simp +decide (maxDischargeDepth := 60) only [Only.refl, writerStep_only, forall_eq_or_imp, forall_const, implies_true, and_true, true_and, forall_eq, imp_self, IsEmpty.forall_iff, Option.some.injEq, Host.Outcome.next.injEq, forall_eq', forall_apply_eq_imp_iff]; done) | split))) only [Only.refl, writerStep_only]; done) | assumption | (intro _) | split | (subst_vars; simp +decide (maxDischargeDepth := 60) only [Only.refl, writerStep_only, forall_eq_or_imp, forall_const, implies_true, and_true, true_and, forall_eq, imp_self, IsEmpty.forall_iff, Option.some.injEq, Host.Outcome.next.injEq, forall_eq', forall_apply_eq_imp_iff]; done) | (injections; subst_vars; simp +decide (maxDischargeDepth := 60) only [Only.refl, writerStep_only, forall_eq_or_imp, forall_const, implies_true, and_true, true_and, forall_eq, imp_self, IsEmpty.forall_iff, Option.some.injEq, Host.Outcome.next.injEq, forall_eq', forall_apply_eq_imp_iff]; done) | simp +decide (maxDischargeDepth := 60) only [Only.refl, writerStep_only, forall_eq_or_imp, forall_const, implies_true, and_true, true_and, forall_eq, imp_self, IsEmpty.forall_iff, Option.some.injEq, Host.Outcome.next.injEq, forall_eq', forall_apply_eq_imp_iff])); done) | split)
@[simp] theorem writeOwn_only {s0 : State} {qs : List Part} (who : Master) (code : Nat) (detail : List Byte) (s : State) (h0 : Only qs s0 s) (hm : ∀ p ∈ ([.bki, .evr, .mbx] : List Part), p ∈ qs) : Only qs s0 (writeOwn who code detail s).2 := by
  refine h0.step ?_ hm; clear h0 hm
  simp +decide (maxDischargeDepth := 60) only [writeOwn, Only.refl, only_ite, postOwn_only, writerDrains_only, writerStep_only]

/-! ### OpsPower -/

@[simp] theorem seasonFor_only {s0 : State} {qs : List Part} (x : SeasonKind) (h : Nat) (s : State) (h0 : Only qs s0 s) (hm : ∀ p ∈ ([.ports, .head, .sw, .insts, .sched, .cgu, .time, .bki, .season, .evr, .mbx, .persist, .mon] : List Part), p ∈ qs) : Only qs s0 (seasonFor x h s) := by
  refine h0.step ?_ hm; clear h0 hm
  simp only [seasonFor]
  repeat' (first | (simp +decide (maxDischargeDepth := 60) only [Only.refl, only_ite, opDone_only, seasonBegins_only, winterBegins_only]; done) | split | intro _)

/-! ### Registers -/

@[simp] theorem writeSlotWord_only {s0 : State} {qs : List Part} (u : Nat) (o : Nat) (v : BitVec 32) (s : State) (h0 : Only qs s0 s) (hm : ∀ p ∈ ([.sched] : List Part), p ∈ qs) : Only qs s0 (writeSlotWord u o v s) := by
  refine h0.step ?_ hm; clear h0 hm
  simp +decide (maxDischargeDepth := 60) only [writeSlotWord, Only.refl, State.setPsc_only, only_ite]
@[simp] theorem writeElemWord_only {s0 : State} {qs : List Part} (o : Nat) (v : BitVec 32) (s : State) (h0 : Only qs s0 s) (hm : ∀ p ∈ ([.bki] : List Part), p ∈ qs) : Only qs s0 (writeElemWord o v s) := by
  refine h0.step ?_ hm; clear h0 hm
  simp only [writeElemWord]
  repeat' (first | (simp +decide (maxDischargeDepth := 60) only [Only.refl, only_ite, writeElem_only]; done) | split | intro _)
@[simp] theorem writeStreamEn_only {s0 : State} {qs : List Part} (n : Nat) (en : Bool) (s : State) (h0 : Only qs s0 s) (hm : ∀ p ∈ ([.sw, .sce, .insts, .acq, .bki, .evr, .mbx, .mon] : List Part), p ∈ qs) : Only qs s0 (writeStreamEn n en s) := by
  refine h0.step ?_ hm; clear h0 hm
  simp only [writeStreamEn]
  repeat' (first | (simp +decide (maxDischargeDepth := 60) only [Only.refl, acqBits_only, acqDisable_only, acqEnable_only, acqGranules_only, only_ite]; done) | split | intro _)
@[simp] theorem writeStreamWord_only {s0 : State} {qs : List Part} (o : Nat) (v : BitVec 32) (s : State) (h0 : Only qs s0 s) (hm : ∀ p ∈ ([.sw, .sce, .insts, .acq, .bki, .evr, .mbx, .mon] : List Part), p ∈ qs) : Only qs s0 (writeStreamWord o v s) := by
  refine h0.step ?_ hm; clear h0 hm
  simp +decide (maxDischargeDepth := 60) only [writeStreamWord, Only.refl, State.setAcqS_only, only_ite, writeStreamEn_only]
@[simp] theorem writeVerWord_only {s0 : State} {qs : List Part} (o : Nat) (v : BitVec 32) (s : State) (h0 : Only qs s0 s) (hm : ∀ p ∈ ([.ksu] : List Part), p ∈ qs) : Only qs s0 (writeVerWord o v s) := by
  refine h0.step ?_ hm; clear h0 hm
  simp +decide (maxDischargeDepth := 60) only [writeVerWord, Only.refl, State.modKsu_only]
@[simp] theorem writeRecordWord_only {s0 : State} {qs : List Part} (o : Nat) (v : BitVec 32) (s : State) (h0 : Only qs s0 s) (hm : ∀ p ∈ ([.insts, .bki, .evr, .ksu, .mbx, .free] : List Part), p ∈ qs) : Only qs s0 (writeRecordWord o v s) := by
  refine h0.step ?_ hm; clear h0 hm
  simp only [writeRecordWord]
  repeat' (first | (simp +decide (maxDischargeDepth := 60) only [Only.refl, assignSlot_only, only_ite, slotAttr_only]; done) | split | intro _)
@[simp] theorem prtWrite_only {s0 : State} {qs : List Part} (u : Nat) (o : Nat) (v : BitVec 32) (s : State) (h0 : Only qs s0 s) (hm : ∀ p ∈ ([.ports, .sw, .insts, .cgu, .time, .bki, .evr, .mbx] : List Part), p ∈ qs) : Only qs s0 (prtWrite u o v s) := by
  refine h0.step ?_ hm; clear h0 hm
  simp only [prtWrite]
  repeat' (first | (simp +decide (maxDischargeDepth := 60) only [Only.refl, only_ite, writeMaxFrame_only, writePortCtl_only, writePortPcpMap_only, writePortVlan_only]; done) | split | intro _)
@[simp] theorem swWrite_only {s0 : State} {qs : List Part} (o : Nat) (v : BitVec 32) (s : State) (h0 : Only qs s0 s) (hm : ∀ p ∈ ([.ports, .head, .sw, .insts, .cgu, .time, .bki, .evr, .mbx, .mon] : List Part), p ∈ qs) : Only qs s0 (swWrite o v s) := by
  refine h0.step ?_ hm; clear h0 hm
  simp only [swWrite]
  repeat' (first | (simp +decide (maxDischargeDepth := 60) only [Only.refl, only_ite, writeClsAge_only, writeFwdIdle_only, writeHoldoff_only, writeMirCtl_only, writePortFwd_only, writeSwcCtl_only]; done) | split | intro _)
@[simp] theorem writePscCtl_only {s0 : State} {qs : List Part} (u : Nat) (v : BitVec 32) (s : State) (h0 : Only qs s0 s) (hm : ∀ p ∈ ([.sched] : List Part), p ∈ qs) : Only qs s0 (writePscCtl u v s) := by
  refine h0.step ?_ hm; clear h0 hm
  simp only [writePscCtl]
  repeat' (first | (simp +decide (maxDischargeDepth := 60) only [Only.refl, State.setPsc_only, only_ite, pscCommit_only]; done) | split | intro _)
@[simp] theorem pscWrite_only {s0 : State} {qs : List Part} (u : Nat) (o : Nat) (v : BitVec 32) (s : State) (h0 : Only qs s0 s) (hm : ∀ p ∈ ([.sched] : List Part), p ∈ qs) : Only qs s0 (pscWrite u o v s) := by
  refine h0.step ?_ hm; clear h0 hm
  simp only [pscWrite]
  repeat' (first | (simp +decide (maxDischargeDepth := 60) only [Only.refl, only_ite, writePscCtl_only, writeSlotWord_only]; done) | split | intro _)
@[simp] theorem pmcWrite_only {s0 : State} {qs : List Part} (o : Nat) (v : BitVec 32) (s : State) (h0 : Only qs s0 s) (hm : ∀ p ∈ ([.sched] : List Part), p ∈ qs) : Only qs s0 (pmcWrite o v s) := by
  refine h0.step ?_ hm; clear h0 hm
  simp only [pmcWrite]
  repeat' (first | (simp +decide (maxDischargeDepth := 60) only [Only.refl, only_ite, writeFabricVolt_only, writePmcLoop_only, writePmcVolt_only]; done) | split | intro _)
@[simp] theorem cguWrite_only {s0 : State} {qs : List Part} (o : Nat) (v : BitVec 32) (s : State) (h0 : Only qs s0 s) (hm : ∀ p ∈ ([.ports, .sw, .insts, .cgu, .time, .bki, .evr, .mbx, .persist] : List Part), p ∈ qs) : Only qs s0 (cguWrite o v s) := by
  refine h0.step ?_ hm; clear h0 hm
  simp only [cguWrite]
  repeat' (first | (simp +decide (maxDischargeDepth := 60) only [Only.refl, only_ite, writeCguCtl_only, writeClaimMem_only, writeClaim_only]; done) | split | intro _)
@[simp] theorem ocuWrite_only {s0 : State} {qs : List Part} (o : Nat) (v : BitVec 32) (s : State) (h0 : Only qs s0 s) (hm : ∀ p ∈ ([.ocu] : List Part), p ∈ qs) : Only qs s0 (ocuWrite o v s) := by
  refine h0.step ?_ hm; clear h0 hm
  simp only [ocuWrite]
  repeat' (first | (simp +decide (maxDischargeDepth := 60) only [Only.refl, only_ite, writeOcuCtl_only, writeOcuRef_only]; done) | split | intro _)
@[simp] theorem mlkWrite_only {s0 : State} {qs : List Part} (o : Nat) (v : BitVec 32) (s : State) (h0 : Only qs s0 s) (hm : ∀ p ∈ ([.mlk] : List Part), p ∈ qs) : Only qs s0 (mlkWrite o v s) := by
  refine h0.step ?_ hm; clear h0 hm
  simp only [mlkWrite]
  repeat' (first | (simp +decide (maxDischargeDepth := 60) only [Only.refl, only_ite, writeMlkCtl_only]; done) | split | intro _)
@[simp] theorem writeStepWord_only {s0 : State} {qs : List Part} (j : Nat) (v : BitVec 32) (s : State) (h0 : Only qs s0 s) (hm : ∀ p ∈ ([.time] : List Part), p ∈ qs) : Only qs s0 (writeStepWord j v s) := by
  refine h0.step ?_ hm; clear h0 hm
  simp [writeStepWord]
@[simp] theorem tbuWrite_only {s0 : State} {qs : List Part} (o : Nat) (v : BitVec 32) (s : State) (h0 : Only qs s0 s) (hm : ∀ p ∈ ([.ports, .head, .sw, .insts, .sched, .cgu, .ocu, .mlk, .time, .acq, .bki, .faults, .evr, .mbx, .persist, .mon, .free] : List Part), p ∈ qs) : Only qs s0 (tbuWrite o v s) := by
  refine h0.step ?_ hm; clear h0 hm
  simp only [tbuWrite]
  repeat' (first | (simp +decide (maxDischargeDepth := 60) only [Only.refl, State.setPtp_only, only_ite, writeIncr_only, writeOfs_only, writePpsWidth_only, writePtpPort_only, writeStepWord_only, writeTbCtl_only, writeTbDomain_only, writeTbLimits_only, writeTbStat_only, writeTrg_only, forall_const, implies_true, Option.some.injEq, forall_eq', forall_apply_eq_imp_iff, imp_self]; done) | assumption | split | intro _ | (subst_vars; simp +decide (maxDischargeDepth := 60) only [Only.refl, State.setPtp_only, only_ite, writeIncr_only, writeOfs_only, writePpsWidth_only, writePtpPort_only, writeStepWord_only, writeTbCtl_only, writeTbDomain_only, writeTbLimits_only, writeTbStat_only, writeTrg_only]; done) | (injections; subst_vars; simp +decide (maxDischargeDepth := 60) only [Only.refl, State.setPtp_only, only_ite, writeIncr_only, writeOfs_only, writePpsWidth_only, writePtpPort_only, writeStepWord_only, writeTbCtl_only, writeTbDomain_only, writeTbLimits_only, writeTbStat_only, writeTrg_only]; done) | simp +decide (maxDischargeDepth := 60) only [Only.refl, State.setPtp_only, only_ite, writeIncr_only, writeOfs_only, writePpsWidth_only, writePtpPort_only, writeStepWord_only, writeTbCtl_only, writeTbDomain_only, writeTbLimits_only, writeTbStat_only, writeTrg_only])
@[simp] theorem acqWrite_only {s0 : State} {qs : List Part} (o : Nat) (v : BitVec 32) (s : State) (h0 : Only qs s0 s) (hm : ∀ p ∈ ([.sw, .sce, .insts, .acq, .bki, .evr, .mbx, .mon] : List Part), p ∈ qs) : Only qs s0 (acqWrite o v s) := by
  refine h0.step ?_ hm; clear h0 hm
  simp only [acqWrite]
  repeat' (first | (simp +decide (maxDischargeDepth := 60) only [Only.refl, only_ite, writeAcqCtl_only, writeStreamWord_only]; done) | split | intro _)
@[simp] theorem writeBkiWord_only {s0 : State} {qs : List Part} (v : BitVec 32) (s : State) (h0 : Only qs s0 s) (hm : ∀ p ∈ ([.time, .bki, .mbx] : List Part), p ∈ qs) : Only qs s0 (writeBkiWord v s) := by
  refine h0.step ?_ hm; clear h0 hm
  simp only [writeBkiWord]
  repeat' (first | (simp +decide (maxDischargeDepth := 60) only [Only.refl, bkiCommit_only, clmHoldClr_only, only_ite, writeBkiCtl_only]; done) | split | intro _)
@[simp] theorem bkiWrite_only {s0 : State} {qs : List Part} (o : Nat) (v : BitVec 32) (s : State) (h0 : Only qs s0 s) (hm : ∀ p ∈ ([.ports, .head, .sw, .insts, .sched, .cgu, .time, .bki, .season, .faults, .evr, .mbx, .persist, .mon] : List Part), p ∈ qs) : Only qs s0 (bkiWrite o v s) := by
  refine h0.step ?_ hm; clear h0 hm
  simp only [bkiWrite]
  repeat' (first | (simp +decide (maxDischargeDepth := 60) only [Only.refl, hbWrite_only, only_ite, writeBkiWord_only, writeCalCtl_only, writeElemWord_only, writeSeasonCtl_only]; done) | split | intro _)
@[simp] theorem evrWrite_only {s0 : State} {qs : List Part} (o : Nat) (v : BitVec 32) (s : State) (h0 : Only qs s0 s) (hm : ∀ p ∈ ([.evr] : List Part), p ∈ qs) : Only qs s0 (evrWrite o v s) := by
  refine h0.step ?_ hm; clear h0 hm
  simp only [evrWrite]
  repeat' (first | (simp +decide (maxDischargeDepth := 60) only [Only.refl, only_ite, writeBucket_only, writeCurCtl_only, writeEvrCtl_only]; done) | split | intro _)
@[simp] theorem writeKdfLen_only {s0 : State} {qs : List Part} (v : BitVec 32) (s : State) (h0 : Only qs s0 s) (hm : ∀ p ∈ ([.ksu] : List Part), p ∈ qs) : Only qs s0 (writeKdfLen v s) := by
  refine h0.step ?_ hm; clear h0 hm
  simp +decide (maxDischargeDepth := 60) only [writeKdfLen, Only.refl, State.modKsu_only]
@[simp] theorem ksuWrite_only {s0 : State} {qs : List Part} (o : Nat) (v : BitVec 32) (s : State) (h0 : Only qs s0 s) (hm : ∀ p ∈ ([.insts, .bki, .evr, .ksu, .mbx, .free] : List Part), p ∈ qs) : Only qs s0 (ksuWrite o v s) := by
  refine h0.step ?_ hm; clear h0 hm
  simp only [ksuWrite]
  repeat' (first | (simp +decide (maxDischargeDepth := 60) only [Only.refl, State.modKsu_only, ksuCommand_only, only_ite, writeKdfLen_only, writeRecordWord_only, writeVerWord_only]; done) | split | intro _)
@[simp] theorem lckWrite_only {s0 : State} {qs : List Part} (o : Nat) (v : BitVec 32) (s : State) (h0 : Only qs s0 s) (hm : ∀ p ∈ ([.insts, .bki, .faults, .evr, .mbx] : List Part), p ∈ qs) : Only qs s0 (lckWrite o v s) := by
  refine h0.step ?_ hm; clear h0 hm
  simp only [lckWrite]
  repeat' (first | (simp +decide (maxDischargeDepth := 60) only [Only.refl, lockRelease_only, only_ite, writeAssign_only]; done) | split | intro _)
@[simp] theorem putMode_only {s0 : State} {qs : List Part} (u : Nat) (m : Bool) (s : State) (h0 : Only qs s0 s) (hm : ∀ p ∈ ([.fab] : List Part), p ∈ qs) : Only qs s0 (putMode u m s) := by
  refine h0.step ?_ hm; clear h0 hm
  simp +decide (maxDischargeDepth := 60) only [putMode, Only.refl, State.setArb_only]
@[simp] theorem writePrioWord_only {s0 : State} {qs : List Part} (u : Nat) (j : Nat) (v : BitVec 32) (s : State) (h0 : Only qs s0 s) (hm : ∀ p ∈ ([.fab] : List Part), p ∈ qs) : Only qs s0 (writePrioWord u j v s) := by
  refine h0.step ?_ hm; clear h0 hm
  simp only [writePrioWord]
  repeat' (first | (simp +decide (maxDischargeDepth := 60) only [Only.refl, State.setArb_only, foldl_only, only_ite, forall_const, implies_true, Option.some.injEq, forall_eq', forall_apply_eq_imp_iff, imp_self]; done) | assumption | split | intro _ | (subst_vars; simp +decide (maxDischargeDepth := 60) only [Only.refl, State.setArb_only, foldl_only, only_ite]; done) | (injections; subst_vars; simp +decide (maxDischargeDepth := 60) only [Only.refl, State.setArb_only, foldl_only, only_ite]; done) | simp +decide (maxDischargeDepth := 60) only [Only.refl, State.setArb_only, foldl_only, only_ite])
@[simp] theorem arbWrite_only {s0 : State} {qs : List Part} (u : Nat) (o : Nat) (v : BitVec 32) (s : State) (h0 : Only qs s0 s) (hm : ∀ p ∈ ([.fab] : List Part), p ∈ qs) : Only qs s0 (arbWrite u o v s) := by
  refine h0.step ?_ hm; clear h0 hm
  simp only [arbWrite]
  repeat' (first | (simp +decide (maxDischargeDepth := 60) only [Only.refl, only_ite, putMode_only, writePrioWord_only]; done) | split | intro _)
@[simp] theorem fltWrite_only {s0 : State} {qs : List Part} (b : BlockId) (u : Nat) (o : Nat) (v : BitVec 32) (s : State) (h0 : Only qs s0 s) (hm : ∀ p ∈ ([.ports, .head, .sw, .insts, .cgu, .ocu, .mlk, .time, .bki, .faults, .evr, .mbx, .persist, .mon, .free] : List Part), p ∈ qs) : Only qs s0 (fltWrite b u o v s) := by
  refine h0.step ?_ hm; clear h0 hm
  simp only [fltWrite]
  repeat' (first | (simp +decide (maxDischargeDepth := 60) only [Only.refl, State.setFset_only, only_ite, writeFltCtl_only, writeInj_only, writeQuiet_only]; done) | split | intro _)
@[simp] theorem blockWrite_only {s0 : State} {qs : List Part} (b : BlockId) (u : Nat) (o : Nat) (v : BitVec 32) (s : State) (h0 : Only qs s0 s) (hm : ∀ p ∈ ([.fab, .ports, .head, .sw, .sce, .insts, .sched, .cgu, .ocu, .mlk, .time, .acq, .bki, .season, .faults, .evr, .ksu, .mbx, .persist, .mon, .free] : List Part), p ∈ qs) : Only qs s0 (blockWrite b u o v s) := by
  refine h0.step ?_ hm; clear h0 hm
  simp only [blockWrite]
  repeat' (first | (simp +decide (maxDischargeDepth := 60) only [Only.refl, acqWrite_only, arbWrite_only, bkiWrite_only, cguWrite_only, evrWrite_only, ksuWrite_only, lckWrite_only, mlkWrite_only, ocuWrite_only, only_ite, pmcWrite_only, prtWrite_only, pscWrite_only, swWrite_only, tbuWrite_only, writeSceCtl_only]; done) | split | intro _)
@[simp] theorem pageWrite_only {s0 : State} {qs : List Part} (b : BlockId) (u : Nat) (o : Nat) (v : BitVec 32) (s : State) (h0 : Only qs s0 s) (hm : ∀ p ∈ ([.fab, .ports, .head, .sw, .sce, .insts, .sched, .cgu, .ocu, .mlk, .time, .acq, .bki, .season, .faults, .evr, .ksu, .mbx, .persist, .mon, .free] : List Part), p ∈ qs) : Only qs s0 (pageWrite b u o v s) := by
  refine h0.step ?_ hm; clear h0 hm
  simp only [pageWrite]
  repeat' (first | (simp +decide (maxDischargeDepth := 60) only [Only.refl, blockWrite_only, fltWrite_only, only_ite, snapshot_only]; done) | split | intro _)
@[simp] theorem pairWrite_only {s0 : State} {qs : List Part} (p : Nat) (o : Nat) (v : BitVec 32) (s : State) (h0 : Only qs s0 s) (hm : ∀ p ∈ ([.mbx] : List Part), p ∈ qs) : Only qs s0 (pairWrite p o v s) := by
  refine h0.step ?_ hm; clear h0 hm
  simp only [pairWrite]
  repeat' (first | (simp +decide (maxDischargeDepth := 60) only [Only.refl, State.setPair_only, only_ite]; done) | split | intro _)
@[simp] theorem msixWrite_only {s0 : State} {qs : List Part} (k : Nat) (j : Nat) (v : BitVec 32) (s : State) (h0 : Only qs s0 s) (hm : ∀ p ∈ ([.mbx] : List Part), p ∈ qs) : Only qs s0 (msixWrite k j v s) := by
  refine h0.step ?_ hm; clear h0 hm
  simp +decide (maxDischargeDepth := 60) only [msixWrite, Only.refl, State.modMbx_only, only_ite]
@[simp] theorem bar0Write_only {s0 : State} {qs : List Part} (o : Nat) (v : BitVec 32) (s : State) (h0 : Only qs s0 s) (hm : ∀ p ∈ ([.bki, .evr, .mbx] : List Part), p ∈ qs) : Only qs s0 (bar0Write o v s) := by
  refine h0.step ?_ hm; clear h0 hm
  simp only [bar0Write]
  repeat' (first | (simp +decide (maxDischargeDepth := 60) only [Only.refl, State.modMbx_only, msixWrite_only, only_ite, pairWrite_only, tellLost_only, writeCurCtl_only]; done) | split | intro _)
@[simp] theorem slotWrite64_only {s0 : State} {qs : List Part} (o : Nat) (be : BitVec 4) (v : BitVec 32) (s : State) (h0 : Only qs s0 s) (hm : ∀ p ∈ ([.mbx] : List Part), p ∈ qs) : Only qs s0 (slotWrite64 o be v s) := by
  refine h0.step ?_ hm; clear h0 hm
  simp only [slotWrite64]
  repeat' (first | (simp +decide (maxDischargeDepth := 60) only [Only.refl, State.modMbx_only, only_ite]; done) | split | intro _)
@[simp] theorem bar0Access_only {s0 : State} {qs : List Part} (o : Nat) (be : BitVec 4) (v : BitVec 32) (s : State) (h0 : Only qs s0 s) (hm : ∀ p ∈ ([.bki, .evr, .mbx] : List Part), p ∈ qs) : Only qs s0 (bar0Access o be v s) := by
  refine h0.step ?_ hm; clear h0 hm
  simp only [bar0Access]
  repeat' (first | (simp +decide (maxDischargeDepth := 60) only [Only.refl, State.modMbx_only, bar0Write_only, only_ite, slotWrite64_only]; done) | split | intro _)
@[simp] theorem bar0Write64_only {s0 : State} {qs : List Part} (o : Nat) (lo : BitVec 32) (hi : BitVec 32) (s : State) (h0 : Only qs s0 s) (hm : ∀ p ∈ ([.bki, .evr, .mbx] : List Part), p ∈ qs) : Only qs s0 (bar0Write64 o lo hi s) := by
  refine h0.step ?_ hm; clear h0 hm
  simp only [bar0Write64]
  repeat' (first | (simp +decide (maxDischargeDepth := 60) only [Only.refl, State.modMbx_only, bar0Access_only, only_ite]; done) | split | intro _)
@[simp] theorem pciWrite_only {s0 : State} {qs : List Part} (r : PciReg) (v : BitVec 32) (s : State) (h0 : Only qs s0 s) (hm : ∀ p ∈ ([.mbx] : List Part), p ∈ qs) : Only qs s0 (pciWrite r v s) := by
  refine h0.step ?_ hm; clear h0 hm
  simp +decide (maxDischargeDepth := 60) only [pciWrite, Only.refl, State.modMbx_only, only_ite]
@[simp] theorem pageCleared_only {s0 : State} {qs : List Part} (b : BlockId) (u : Nat) (o : Nat) (s : State) (h0 : Only qs s0 s) (hm : ∀ p ∈ ([.fab, .sce, .sched, .time, .acq, .evr] : List Part), p ∈ qs) : Only qs s0 (pageCleared b u o s) := by
  refine h0.step ?_ hm; clear h0 hm
  simp only [pageCleared]
  repeat' (first | (simp +decide (maxDischargeDepth := 60) only [Only.refl, State.modEvr_only, State.modSce_only, State.modTime_only, State.setAcqS_only, State.setArb_only, State.setCmp_only, State.setPsc_only, only_ite]; done) | split | intro _)
@[simp] theorem bar0Cleared_only {s0 : State} {qs : List Part} (o : Nat) (s : State) (h0 : Only qs s0 s) (hm : ∀ p ∈ ([.evr, .mbx] : List Part), p ∈ qs) : Only qs s0 (bar0Cleared o s) := by
  refine h0.step ?_ hm; clear h0 hm
  simp only [bar0Cleared]
  repeat' (first | (simp +decide (maxDischargeDepth := 60) only [Only.refl, State.modEvr_only, State.modMbx_only, State.setPair_only, only_ite]; done) | split | intro _)
@[simp] theorem given_only {s0 : State} {qs : List Part} (v : Nat) (s : State) (h0 : Only qs s0 s) (hm : ∀ p ∈ ([.fab] : List Part), p ∈ qs) : Only qs s0 (given v s) := by
  refine h0.step ?_ hm; clear h0 hm
  simp +decide (maxDischargeDepth := 60) only [given, Only.refl, State.modFab_only]

/-! ### Monitor -/

@[simp] theorem lineTaken_only {s0 : State} {qs : List Part} (s : State) (h0 : Only qs s0 s) (hm : ∀ p ∈ ([.mon] : List Part), p ∈ qs) : Only qs s0 (lineTaken s) := by
  refine h0.step ?_ hm; clear h0 hm
  simp +decide (maxDischargeDepth := 60) only [lineTaken, Only.refl, State.modMon_only]
@[simp] theorem finalLine_only {s0 : State} {qs : List Part} (e : MonEnd) (s : State) (h0 : Only qs s0 s) (hm : ∀ p ∈ ([.mbx, .mon] : List Part), p ∈ qs) : Only qs s0 (finalLine e s) := by
  refine h0.step ?_ hm; clear h0 hm
  simp only [finalLine]
  repeat' (first | (simp +decide (maxDischargeDepth := 60) only [Only.refl, monPrint_only, only_ite]; done) | split | intro _)
@[simp] theorem printAll_only {s0 : State} {qs : List Part} (lines : List (List Nat)) (s : State) (h0 : Only qs s0 s) (hm : ∀ p ∈ ([.mbx, .mon] : List Part), p ∈ qs) : Only qs s0 (printAll lines s) := by
  refine h0.step ?_ hm; clear h0 hm
  simp only [printAll]
  repeat' (first | (simp +decide (maxDischargeDepth := 60) only [Only.refl, foldl_only, monPrint_only, forall_const, implies_true, Option.some.injEq, forall_eq', forall_apply_eq_imp_iff, imp_self]; done) | assumption | split | intro _ | (subst_vars; simp +decide (maxDischargeDepth := 60) only [Only.refl, foldl_only, monPrint_only]; done) | (injections; subst_vars; simp +decide (maxDischargeDepth := 60) only [Only.refl, foldl_only, monPrint_only]; done) | simp +decide (maxDischargeDepth := 60) only [Only.refl, foldl_only, monPrint_only])
@[simp] theorem printRecords_only {s0 : State} {qs : List Part} (rs : List EvrRec) (s : State) (h0 : Only qs s0 s) (hm : ∀ p ∈ ([.mbx, .mon] : List Part), p ∈ qs) : Only qs s0 (printRecords rs s) := by
  refine h0.step ?_ hm; clear h0 hm
  simp only [printRecords]
  repeat' (first | (simp +decide (maxDischargeDepth := 60) only [Only.refl, foldl_only, monPrint_only, forall_const, implies_true, Option.some.injEq, forall_eq', forall_apply_eq_imp_iff, imp_self]; done) | assumption | split | intro _ | (subst_vars; simp +decide (maxDischargeDepth := 60) only [Only.refl, foldl_only, monPrint_only]; done) | (injections; subst_vars; simp +decide (maxDischargeDepth := 60) only [Only.refl, foldl_only, monPrint_only]; done) | simp +decide (maxDischargeDepth := 60) only [Only.refl, foldl_only, monPrint_only])
@[simp] theorem lappedLine_only {s0 : State} {qs : List Part} (s : State) (h0 : Only qs s0 s) (hm : ∀ p ∈ ([.evr, .mbx, .mon] : List Part), p ∈ qs) : Only qs s0 (lappedLine s) := by
  refine h0.step ?_ hm; clear h0 hm
  simp only [lappedLine]
  repeat' (first | (simp +decide (maxDischargeDepth := 60) only [Only.refl, State.modEvr_only, monPrint_only, only_ite]; done) | split | intro _)
@[simp] theorem monEvr_only {s0 : State} {qs : List Part} (n : Option Nat) (s : State) (h0 : Only qs s0 s) (hm : ∀ p ∈ ([.evr, .mbx, .mon] : List Part), p ∈ qs) : Only qs s0 (monEvr n s).1 := by
  refine h0.step ?_ hm; clear h0 hm
  simp only [monEvr]
  repeat' (first | (simp +decide (maxDischargeDepth := 60) only [Only.refl, State.modMon_only, cursorDone_only, cursorLoad_only, lappedLine_only, only_ite, printRecords_only]; done) | split | intro _)
@[simp] theorem monPeek_only {s0 : State} {qs : List Part} (b : BlockId) (u : Nat) (off : Nat) (count : Nat) (s : State) (h0 : Only qs s0 s) (hm : ∀ p ∈ ([.mbx, .mon] : List Part), p ∈ qs) : Only qs s0 (monPeek b u off count s).1 := by
  refine h0.step ?_ hm; clear h0 hm
  simp only [monPeek]
  repeat' (first | (simp +decide (maxDischargeDepth := 60) only [Only.refl, only_ite, printAll_only]; done) | split | intro _)
@[simp] theorem issue_only {s0 : State} {qs : List Part} (s : State) (h0 : Only qs s0 s) (hm : ∀ p ∈ ([.ksu, .mbx, .mon, .free] : List Part), p ∈ qs) : Only qs s0 (issue s) := by
  refine h0.step ?_ hm; clear h0 hm
  simp +decide (maxDischargeDepth := 60) only [issue, Only.refl, State.modKsu_only, State.modMon_only, State.took_only, monPrint_only]
@[simp] theorem monUnlock_only {s0 : State} {qs : List Part} (devEn : Bool) (s : State) (h0 : Only qs s0 s) (hm : ∀ p ∈ ([.ksu, .mbx, .power, .mon, .free] : List Part), p ∈ qs) : Only qs s0 (monUnlock devEn s).1 := by
  refine h0.step ?_ hm; clear h0 hm
  simp only [monUnlock]
  repeat' (first | (simp +decide (maxDischargeDepth := 60) only [Only.refl, State.modMon_only, State.modPower_only, issue_only, monPrint_only, only_ite]; done) | split | intro _)
@[simp] theorem attempt_only {s0 : State} {qs : List Part} (ok : Bool) (s : State) (h0 : Only qs s0 s) (hm : ∀ p ∈ ([.bki, .evr, .ksu] : List Part), p ∈ qs) : Only qs s0 (attempt ok s) := by
  refine h0.step ?_ hm; clear h0 hm
  simp +decide (maxDischargeDepth := 60) only [attempt, Only.refl, State.modKsu_only, note_only, only_ite]
@[simp] theorem monResp_only {s0 : State} {qs : List Part} (response : BitVec 64) (s : State) (h0 : Only qs s0 s) (hm : ∀ p ∈ ([.bki, .evr, .ksu, .mon] : List Part), p ∈ qs) : Only qs s0 (monResp response s).1 := by
  refine h0.step ?_ hm; clear h0 hm
  simp only [monResp]
  repeat' (first | (simp +decide (maxDischargeDepth := 60) only [Only.refl, State.modMon_only, attempt_only, only_ite]; done) | split | intro _)
@[simp] theorem relock_only {s0 : State} {qs : List Part} (s : State) (h0 : Only qs s0 s) (hm : ∀ p ∈ ([.mon] : List Part), p ∈ qs) : Only qs s0 (relock s) := by
  refine h0.step ?_ hm; clear h0 hm
  simp +decide (maxDischargeDepth := 60) only [relock, Only.refl, State.modMon_only]
@[simp] theorem monBaud_only {s0 : State} {qs : List Part} (rate : Nat) (s : State) (h0 : Only qs s0 s) (hm : ∀ p ∈ ([.mon] : List Part), p ∈ qs) : Only qs s0 (monBaud rate s).1 := by
  refine h0.step ?_ hm; clear h0 hm
  simp only [monBaud]
  repeat' (first | (simp +decide (maxDischargeDepth := 60) only [Only.refl, State.modMon_only, only_ite]; done) | split | intro _)

/-! ### Power -/

@[simp] theorem pinLow_only {s0 : State} {qs : List Part} (d : Nat) (f : State → State) (s : State) (hf : ∀  t, Only qs t (f  t)) (h0 : Only qs s0 s) (hm : ∀ p ∈ ([.time] : List Part), p ∈ qs) : Only qs s0 (pinLow d f s) := by
  unfold pinLow
  split
  · exact h0.trans (whenDue_only _ _ _ hf (Only.refl _ _) hm)
  · exact h0.trans (hf _)
@[simp] theorem bar0Reset_only {s0 : State} {qs : List Part} (s : State) (h0 : Only qs s0 s) (hm : ∀ p ∈ ([.evr, .mbx] : List Part), p ∈ qs) : Only qs s0 (bar0Reset s) := by
  refine h0.step ?_ hm; clear h0 hm
  simp +decide (maxDischargeDepth := 60) only [bar0Reset, Only.refl, State.modEvr_only, State.modMbx_only, only_ite]

/-! ### Stream -/

@[simp] theorem idleEvent_only {s0 : State} {qs : List Part} (idx : Nat) (removed : Nat) (s : State) (h0 : Only qs s0 s) (hm : ∀ p ∈ ([.bki, .evr, .mbx] : List Part), p ∈ qs) : Only qs s0 (idleEvent idx removed s) := by
  refine h0.step ?_ hm; clear h0 hm
  simp +decide (maxDischargeDepth := 60) only [idleEvent, Only.refl, emit_only]
@[simp] theorem verForget_only {s0 : State} {qs : List Part} (idx : Nat) (s : State) (h0 : Only qs s0 s) (hm : ∀ p ∈ ([.cgu, .ksu] : List Part), p ∈ qs) : Only qs s0 (verForget idx s) := by
  refine h0.step ?_ hm; clear h0 hm
  simp +decide (maxDischargeDepth := 60) only [verForget, Only.refl, State.modCgu_only, State.modKsu_only]
@[simp] theorem restoreInvalid_only {s0 : State} {qs : List Part} (s : State) (h0 : Only qs s0 s) (hm : ∀ p ∈ ([.sw] : List Part), p ∈ qs) : Only qs s0 (restoreInvalid s) := by
  refine h0.step ?_ hm; clear h0 hm
  simp +decide (maxDischargeDepth := 60) only [restoreInvalid, Only.refl, State.modSw_only, only_ite]
@[simp] theorem learnRefuse_only {s0 : State} {qs : List Part} (r : LearnRec) (why : Nat) (s : State) (h0 : Only qs s0 s) (hm : ∀ p ∈ ([.sw, .bki, .evr] : List Part), p ∈ qs) : Only qs s0 (learnRefuse r why s) := by
  refine h0.step ?_ hm; clear h0 hm
  simp +decide (maxDischargeDepth := 60) only [learnRefuse, Only.refl, learnClose_only, note_only]

/-! ### Receive -/

@[simp] theorem goodFrame_only {s0 : State} {qs : List Part} (k : Nat) (f : List Byte) (s : State) (h0 : Only qs s0 s) (hm : ∀ p ∈ ([.ports] : List Part), p ∈ qs) : Only qs s0 (goodFrame k f s) := by
  refine h0.step ?_ hm; clear h0 hm
  simp only [goodFrame]
  repeat' (first | (simp +decide (maxDischargeDepth := 60) only [Only.refl, only_ite, portCount_only]; done) | split | intro _)
@[simp] theorem pauseAct_only {s0 : State} {qs : List Part} (k : Nat) (q : Nat) (s : State) (h0 : Only qs s0 s) (hm : ∀ p ∈ ([.ports] : List Part), p ∈ qs) : Only qs s0 (pauseAct k q s) := by
  refine h0.step ?_ hm; clear h0 hm
  simp only [pauseAct]
  repeat' (first | (simp +decide (maxDischargeDepth := 60) only [Only.refl, State.setPort_only]; done) | split | intro _)
@[simp] theorem macControl_only {s0 : State} {qs : List Part} (k : Nat) (f : List Byte) (s : State) (h0 : Only qs s0 s) (hm : ∀ p ∈ ([.ports] : List Part), p ∈ qs) : Only qs s0 (macControl k f s) := by
  refine h0.step ?_ hm; clear h0 hm
  simp only [macControl]
  repeat' (first | (simp +decide (maxDischargeDepth := 60) only [Only.refl, only_ite, pauseAct_only, portCount_only]; done) | split | intro _)
@[simp] theorem dupCheck_only {s0 : State} {qs : List Part} (ptp : Bool) (k : Nat) (q : Nat) (idle : Nat) (i : Nat) (s : State) (h0 : Only qs s0 s) (hm : ∀ p ∈ ([.ports, .head, .wake, .sw, .insts, .cgu, .ocu, .mlk, .time, .bki, .season, .faults, .evr, .mbx, .persist, .power, .mon, .free] : List Part), p ∈ qs) : Only qs s0 (dupCheck ptp k q idle i s).2 := by
  refine h0.step ?_ hm; clear h0 hm
  simp only [dupCheck]
  (repeat' (first | (simp +decide (maxDischargeDepth := 60); done) | assumption | split | intro _ | (subst_vars; simp +decide (maxDischargeDepth := 60); done)))
@[simp] theorem dupDiscard_only {s0 : State} {qs : List Part} (ptp : Bool) (k : Nat) (seq : Option Nat) (src : Option (Nat × Nat)) (s : State) (h0 : Only qs s0 s) (hm : ∀ p ∈ ([.ports, .head, .wake, .sw, .insts, .cgu, .ocu, .mlk, .time, .bki, .season, .faults, .evr, .mbx, .persist, .power, .mon, .free] : List Part), p ∈ qs) : Only qs s0 (dupDiscard ptp k seq src s).2 := by
  refine h0.step ?_ hm; clear h0 hm
  unfold dupDiscard
  repeat' (first | (simp +decide (maxDischargeDepth := 60); done) | split | assumption | intro _ | (subst_vars; simp +decide (maxDischargeDepth := 60); done))
@[simp] theorem verifyFrame_only {s0 : State} {qs : List Part} (i : Nat) (f : List Byte) (s : State) (h0 : Only qs s0 s) (hm : ∀ p ∈ ([.ksu] : List Part), p ∈ qs) : Only qs s0 (verifyFrame i f s).2 := by
  refine h0.step ?_ hm; clear h0 hm
  simp only [verifyFrame]
  repeat' (first | (simp +decide (maxDischargeDepth := 60) only [Only.refl, State.modKsu_only, only_ite]; done) | split | intro _)
@[simp] theorem claimFilter_only {s0 : State} {qs : List Part} (i : Nat) (f : List Byte) (s : State) (h0 : Only qs s0 s) (hm : ∀ p ∈ ([.cgu] : List Part), p ∈ qs) : Only qs s0 (claimFilter i f s).2 := by
  refine h0.step ?_ hm; clear h0 hm
  simp only [claimFilter]
  repeat' (first | (simp +decide (maxDischargeDepth := 60) only [Only.refl, State.modCgu_only, only_ite]; done) | split | intro _)
@[simp] theorem idSeen_only {s0 : State} {qs : List Part} (f : List Byte) (s : State) (h0 : Only qs s0 s) (hm : ∀ p ∈ ([.ports, .head, .sw, .insts, .cgu, .ocu, .mlk, .time, .bki, .faults, .evr, .mbx, .persist, .mon] : List Part), p ∈ qs) : Only qs s0 (idSeen f s) := by
  refine h0.step ?_ hm; clear h0 hm
  simp only [idSeen]
  repeat' (first | (simp +decide (maxDischargeDepth := 60) only [Only.refl, idConflict_only, only_ite]; done) | split | intro _)
@[simp] theorem streamStep_only {s0 : State} {qs : List Part} (k : Nat) (i : Nat) (cls0 : Nat) (f : Stored) (s : State) (h0 : Only qs s0 s) (hm : ∀ p ∈ ([.sw, .cgu, .ksu] : List Part), p ∈ qs) : Only qs s0 (streamStep k i cls0 f s).2 := by
  refine h0.step ?_ hm; clear h0 hm
  simp only [streamStep]
  repeat' (first | (simp +decide (maxDischargeDepth := 60) only [Only.refl, State.setStream_only, claimFilter_only, only_ite, verifyFrame_only]; done) | split | intro _)
@[simp] theorem classify_only {s0 : State} {qs : List Part} (k : Nat) (f : Stored) (s : State) (h0 : Only qs s0 s) (hm : ∀ p ∈ ([.sw, .cgu, .ksu] : List Part), p ∈ qs) : Only qs s0 (classify k f s).2 := by
  refine h0.step ?_ hm; clear h0 hm
  simp only [classify]
  repeat' (first | (simp +decide (maxDischargeDepth := 60) only [Only.refl, learnFrame_only, only_ite, streamStep_only]; done) | split | intro _)
@[simp] theorem storeCopies_only {s0 : State} {qs : List Part} (k : Nat) (pass : Bool) (c : Classified) (f : Stored) (s : State) (h0 : Only qs s0 s) (hm : ∀ p ∈ ([.ports, .sw, .sce, .insts, .cgu, .time, .acq, .bki, .evr, .mbx] : List Part), p ∈ qs) : Only qs s0 (storeCopies k pass c f s) := by
  refine h0.step ?_ hm; clear h0 hm
  simp +decide (maxDischargeDepth := 60) only [storeCopies, Only.refl, only_ite, redPorts_only, storeFrame_only]
@[simp] theorem switchFrame_only {s0 : State} {qs : List Part} (k : Nat) (d : DupOut) (f : Stored) (s : State) (h0 : Only qs s0 s) (hm : ∀ p ∈ ([.ports, .sw, .sce, .insts, .cgu, .time, .acq, .bki, .evr, .ksu, .mbx] : List Part), p ∈ qs) : Only qs s0 (switchFrame k d f s) := by
  refine h0.step ?_ hm; clear h0 hm
  simp only [switchFrame]
  repeat' (first | (simp +decide (maxDischargeDepth := 60) only [Only.refl, classify_only, only_ite, storeCopies_only]; done) | split | intro _)
@[simp] theorem reservedFrame_only {s0 : State} {qs : List Part} (k : Nat) (f : Stored) (s : State) (h0 : Only qs s0 s) (hm : ∀ p ∈ ([.ports, .sw, .sce, .insts, .cgu, .time, .acq, .bki, .evr, .mbx] : List Part), p ∈ qs) : Only qs s0 (reservedFrame k f s) := by
  refine h0.step ?_ hm; clear h0 hm
  simp only [reservedFrame]
  repeat' (first | (simp +decide (maxDischargeDepth := 60) only [Only.refl, only_ite, storeFrame_only, swCount_only]; done) | split | intro _)
@[simp] theorem pdelayAnswer_only {s0 : State} {qs : List Part} (k : Nat) (f : List Byte) (s : State) (h0 : Only qs s0 s) (hm : ∀ p ∈ ([.ports, .sw, .sce, .insts, .cgu, .time, .acq, .bki, .evr, .mbx] : List Part), p ∈ qs) : Only qs s0 (pdelayAnswer k f s) := by
  refine h0.step ?_ hm; clear h0 hm
  simp only [pdelayAnswer]
  repeat' (first | (simp +decide (maxDischargeDepth := 60) only [Only.refl, only_ite, pdSend_only]; done) | split | intro _)
@[simp] theorem ptpForward_only {s0 : State} {qs : List Part} (k : Nat) (d : DupOut) (f : Stored) (s : State) (h0 : Only qs s0 s) (hm : ∀ p ∈ ([.ports, .sw, .sce, .insts, .cgu, .time, .acq, .bki, .evr, .mbx] : List Part), p ∈ qs) : Only qs s0 (ptpForward k d f s) := by
  refine h0.step ?_ hm; clear h0 hm
  simp +decide (maxDischargeDepth := 60) only [ptpForward, Only.refl, only_ite, redPorts_only, storeFrame_only]
@[simp] theorem ptpFrame_only {s0 : State} {qs : List Part} (k : Nat) (d : DupOut) (f : Stored) (s : State) (h0 : Only qs s0 s) (hm : ∀ p ∈ ([.ports, .sw, .sce, .insts, .cgu, .time, .acq, .bki, .evr, .mbx] : List Part), p ∈ qs) : Only qs s0 (ptpFrame k d f s) := by
  refine h0.step ?_ hm; clear h0 hm
  simp only [ptpFrame]
  repeat' (first | (simp +decide (maxDischargeDepth := 60) only [Only.refl, only_ite, pdelayAnswer_only, ptpForward_only, storeFrame_only, tbuCount_only]; done) | split | intro _)
@[simp] theorem learnSource_only {s0 : State} {qs : List Part} (k : Nat) (f : Stored) (s : State) (h0 : Only qs s0 s) (hm : ∀ p ∈ ([.ports, .head, .wake, .sw, .insts, .cgu, .ocu, .mlk, .time, .bki, .season, .faults, .evr, .mbx, .persist, .power, .mon, .free] : List Part), p ∈ qs) : Only qs s0 (learnSource k f s).2.2 := by
  refine h0.step ?_ hm; clear h0 hm
  simp only [learnSource]
  (repeat' (first | (simp +decide (maxDischargeDepth := 60); done) | assumption | split | intro _ | (subst_vars; simp +decide (maxDischargeDepth := 60); done)))
@[simp] theorem accepted_only {s0 : State} {qs : List Part} (k : Nat) (seq : Option Nat) (f : Stored) (s : State) (h0 : Only qs s0 s) (hm : ∀ p ∈ ([.ports, .head, .wake, .sw, .sce, .insts, .cgu, .ocu, .mlk, .time, .acq, .bki, .season, .faults, .evr, .ksu, .mbx, .persist, .power, .mon, .free] : List Part), p ∈ qs) : Only qs s0 (accepted k seq f s) := by
  refine h0.step ?_ hm; clear h0 hm
  simp only [accepted]
  repeat' (first | (simp +decide (maxDischargeDepth := 60) only [Only.refl, dupDiscard_only, learnSource_only, only_ite, ptpFrame_only, reservedFrame_only, swCount_only, switchFrame_only]; done) | split | intro _)
@[simp] theorem ringFrame_only {s0 : State} {qs : List Part} (k : Nat) (f : Stored) (s : State) (h0 : Only qs s0 s) (hm : ∀ p ∈ ([.ports, .head, .wake, .sw, .sce, .insts, .cgu, .ocu, .mlk, .time, .acq, .bki, .season, .faults, .evr, .ksu, .mbx, .persist, .power, .mon, .free] : List Part), p ∈ qs) : Only qs s0 (ringFrame k f s) := by
  refine h0.step ?_ hm; clear h0 hm
  simp only [ringFrame]
  repeat' (first | (simp +decide (maxDischargeDepth := 60) only [Only.refl, accepted_only, only_ite, swCount_only]; done) | split | intro _)
@[simp] theorem lanFrame_only {s0 : State} {qs : List Part} (k : Nat) (f : Stored) (s : State) (h0 : Only qs s0 s) (hm : ∀ p ∈ ([.ports, .head, .wake, .sw, .sce, .insts, .cgu, .ocu, .mlk, .time, .acq, .bki, .season, .faults, .evr, .ksu, .mbx, .persist, .power, .mon, .free] : List Part), p ∈ qs) : Only qs s0 (lanFrame k f s) := by
  refine h0.step ?_ hm; clear h0 hm
  simp only [lanFrame]
  repeat' (first | (simp +decide (maxDischargeDepth := 60) only [Only.refl, accepted_only, only_ite, swCount_only]; done) | split | intro _)
@[simp] theorem takeFrame_only {s0 : State} {qs : List Part} (k : Nat) (octets : List Byte) (s : State) (h0 : Only qs s0 s) (hm : ∀ p ∈ ([.ports, .head, .wake, .sw, .sce, .insts, .cgu, .ocu, .mlk, .time, .acq, .bki, .season, .faults, .evr, .ksu, .mbx, .persist, .power, .mon, .free] : List Part), p ∈ qs) : Only qs s0 (takeFrame k octets s) := by
  refine h0.step ?_ hm; clear h0 hm
  simp only [takeFrame]
  repeat' (first | (simp +decide (maxDischargeDepth := 60) only [Only.refl, accepted_only, goodFrame_only, idSeen_only, lanFrame_only, macControl_only, only_ite, portCount_only, ringFrame_only]; done) | split | intro _)
@[simp] theorem lineErrs_only {s0 : State} {qs : List Part} (k : Nat) (e : LineErrs) (s : State) (h0 : Only qs s0 s) (hm : ∀ p ∈ ([.ports] : List Part), p ∈ qs) : Only qs s0 (lineErrs k e s) := by
  refine h0.step ?_ hm; clear h0 hm
  simp only [lineErrs]
  repeat' (first | (simp +decide (maxDischargeDepth := 60) only [Only.refl, only_ite, portCount_only]; done) | split | intro _)

/-! ### Sce -/

@[simp] theorem groupFrame_only {s0 : State} {qs : List Part} (f : List Byte) (s : State) (gn : Nat) (h0 : Only qs s0 s) (hm : ∀ p ∈ ([.sw, .sce, .insts, .mlk, .acq, .bki, .evr, .free] : List Part), p ∈ qs) : Only qs s0 (groupFrame f s gn) := by
  refine h0.step ?_ hm; clear h0 hm
  simp only [groupFrame]
  repeat' (first | (simp +decide (maxDischargeDepth := 60) only [Only.refl, foldl_only, groupAsdu_only, sceCount_only, forall_const, implies_true, Option.some.injEq, forall_eq', forall_apply_eq_imp_iff, imp_self]; done) | assumption | split | intro _ | (subst_vars; simp +decide (maxDischargeDepth := 60) only [Only.refl, foldl_only, groupAsdu_only, sceCount_only]; done) | (injections; subst_vars; simp +decide (maxDischargeDepth := 60) only [Only.refl, foldl_only, groupAsdu_only, sceCount_only]; done) | simp +decide (maxDischargeDepth := 60) only [Only.refl, foldl_only, groupAsdu_only, sceCount_only])
@[simp] theorem groupStaleCheck_only {s0 : State} {qs : List Part} (s : State) (gn : Nat) (h0 : Only qs s0 s) (hm : ∀ p ∈ ([.sce, .insts, .mlk, .acq, .bki, .evr] : List Part), p ∈ qs) : Only qs s0 (groupStaleCheck s gn) := by
  refine h0.step ?_ hm; clear h0 hm
  simp only [groupStaleCheck]
  repeat' (first | (simp +decide (maxDischargeDepth := 60) only [Only.refl, State.setGroup_only, acqStale_only, groupEvent_only, only_ite, sceCount_only]; done) | split | intro _)

/-! ### Step -/

@[simp] theorem State.withFetchWord_only {s0 : State} {qs : List Part} (s : State) (nbits : Nat) (w : Nat) (h0 : Only qs s0 s) (hm : ∀ p ∈ ([.pending] : List Part), p ∈ qs) : Only qs s0 (State.withFetchWord s nbits w) := by
  refine h0.step ?_ hm; clear h0 hm
  simp only [State.withFetchWord]
  repeat' (first | (simp +decide (maxDischargeDepth := 60) only [Only.refl, with_pending_only]; done) | split | intro _)

end Sys2Proof.Machine
end

