-- ==== Sys2Proof/Laws/Requests.lean ====
section
/-!
SUPPORT. Laws/Requests.lean: the cases of the two operations through which timed events and mailbox requests act: an event whose instant
is not reached, a request that cannot be taken, and a verdict on a request that the checks turn away before its opcode is looked at.
-/
namespace Sys2Proof.Machine
open Sys2Proof

theorem State.until_past {s : State} {d : Nat} (h : d ≤ s.time.age) : s.until d = s := by simp [State.until, h]

theorem whenDue_now {s : State} {d : Nat} (f : State → State) (h : d ≤ s.time.age) : whenDue d f s = f s := by
  simp [whenDue, State.until_past h, h]

theorem serve_waits {r : Req} {s : State} (opcode : Nat) (sub : Subset) (need : Bool) (f : Req → State → State × Ans) (h : takeable r s = false) :
    serve r opcode sub need f s = s := by simp [serve, h]

theorem judge_badCrc {r : Req} (opcode : Nat) (sub : Subset) (need : Bool) (cache : List TagRec) (f : Req → State → State × Ans) (s : State)
    (h : r.crcOk = false) : (judge r opcode sub need cache f s).st = s ∧ (judge r opcode sub need cache f s).resp.status = .badCrc := by
  simp [judge, h]

theorem judge_duplicate {r : Req} (opcode : Nat) (sub : Subset) (need : Bool) {cache : List TagRec} (f : Req → State → State × Ans) {s : State}
    {t : TagRec} (h : r.crcOk = true) (k : (liveCache cache s).find? (fun t => t.tag == r.tag) = some t) (c : t.crc = r.crc) :
    judge r opcode sub need cache f s = { st := s, resp := { t.resp with dup := true } } := by
  simp [judge, h, k, c]

theorem judge_turnedAway {r : Req} (opcode : Nat) (sub : Subset) (need : Bool) {cache : List TagRec} (f : Req → State → State × Ans) {s : State}
    {st : Status} (h : r.crcOk = true) (k : (liveCache cache s).find? (fun t => t.tag == r.tag) = none)
    (p : precheck opcode r.effective sub need s = some st) :
    (judge r opcode sub need cache f s).st = s ∧ (judge r opcode sub need cache f s).resp.status = st := by
  simp [judge, h, k, p]

end Sys2Proof.Machine
end

