-- ==== Sys2Proof/Laws/State.lean ====
section
/-!
SUPPORT. Laws/State.lean: what an update of one part of the state does to every part of it. One lemma per part and update, each
true by rfl.
-/
namespace Sys2Proof.Machine

@[simp] theorem State.modFab_fab (s : State) (f : Fabric → Fabric) : (s.modFab f).fab = f s.fab := rfl
@[simp] theorem State.modFab_ports (s : State) (f : Fabric → Fabric) : (s.modFab f).ports = s.ports := rfl
@[simp] theorem State.modFab_head (s : State) (f : Fabric → Fabric) : (s.modFab f).head = s.head := rfl
@[simp] theorem State.modFab_wake (s : State) (f : Fabric → Fabric) : (s.modFab f).wake = s.wake := rfl
@[simp] theorem State.modFab_sw (s : State) (f : Fabric → Fabric) : (s.modFab f).sw = s.sw := rfl
@[simp] theorem State.modFab_sce (s : State) (f : Fabric → Fabric) : (s.modFab f).sce = s.sce := rfl
@[simp] theorem State.modFab_insts (s : State) (f : Fabric → Fabric) : (s.modFab f).insts = s.insts := rfl
@[simp] theorem State.modFab_sched (s : State) (f : Fabric → Fabric) : (s.modFab f).sched = s.sched := rfl
@[simp] theorem State.modFab_eg (s : State) (f : Fabric → Fabric) : (s.modFab f).eg = s.eg := rfl
@[simp] theorem State.modFab_cgu (s : State) (f : Fabric → Fabric) : (s.modFab f).cgu = s.cgu := rfl
@[simp] theorem State.modFab_ocu (s : State) (f : Fabric → Fabric) : (s.modFab f).ocu = s.ocu := rfl
@[simp] theorem State.modFab_mlk (s : State) (f : Fabric → Fabric) : (s.modFab f).mlk = s.mlk := rfl
@[simp] theorem State.modFab_time (s : State) (f : Fabric → Fabric) : (s.modFab f).time = s.time := rfl
@[simp] theorem State.modFab_acq (s : State) (f : Fabric → Fabric) : (s.modFab f).acq = s.acq := rfl
@[simp] theorem State.modFab_bki (s : State) (f : Fabric → Fabric) : (s.modFab f).bki = s.bki := rfl
@[simp] theorem State.modFab_season (s : State) (f : Fabric → Fabric) : (s.modFab f).season = s.season := rfl
@[simp] theorem State.modFab_faults (s : State) (f : Fabric → Fabric) : (s.modFab f).faults = s.faults := rfl
@[simp] theorem State.modFab_evr (s : State) (f : Fabric → Fabric) : (s.modFab f).evr = s.evr := rfl
@[simp] theorem State.modFab_ksu (s : State) (f : Fabric → Fabric) : (s.modFab f).ksu = s.ksu := rfl
@[simp] theorem State.modFab_mbx (s : State) (f : Fabric → Fabric) : (s.modFab f).mbx = s.mbx := rfl
@[simp] theorem State.modFab_persist (s : State) (f : Fabric → Fabric) : (s.modFab f).persist = s.persist := rfl
@[simp] theorem State.modFab_power (s : State) (f : Fabric → Fabric) : (s.modFab f).power = s.power := rfl
@[simp] theorem State.modFab_mon (s : State) (f : Fabric → Fabric) : (s.modFab f).mon = s.mon := rfl
@[simp] theorem State.modFab_free (s : State) (f : Fabric → Fabric) : (s.modFab f).free = s.free := rfl
@[simp] theorem State.modFab_pending (s : State) (f : Fabric → Fabric) : (s.modFab f).pending = s.pending := rfl
@[simp] theorem State.modPorts_ports (s : State) (f : Tbl Port → Tbl Port) : (s.modPorts f).ports = f s.ports := rfl
@[simp] theorem State.modPorts_fab (s : State) (f : Tbl Port → Tbl Port) : (s.modPorts f).fab = s.fab := rfl
@[simp] theorem State.modPorts_head (s : State) (f : Tbl Port → Tbl Port) : (s.modPorts f).head = s.head := rfl
@[simp] theorem State.modPorts_wake (s : State) (f : Tbl Port → Tbl Port) : (s.modPorts f).wake = s.wake := rfl
@[simp] theorem State.modPorts_sw (s : State) (f : Tbl Port → Tbl Port) : (s.modPorts f).sw = s.sw := rfl
@[simp] theorem State.modPorts_sce (s : State) (f : Tbl Port → Tbl Port) : (s.modPorts f).sce = s.sce := rfl
@[simp] theorem State.modPorts_insts (s : State) (f : Tbl Port → Tbl Port) : (s.modPorts f).insts = s.insts := rfl
@[simp] theorem State.modPorts_sched (s : State) (f : Tbl Port → Tbl Port) : (s.modPorts f).sched = s.sched := rfl
@[simp] theorem State.modPorts_eg (s : State) (f : Tbl Port → Tbl Port) : (s.modPorts f).eg = s.eg := rfl
@[simp] theorem State.modPorts_cgu (s : State) (f : Tbl Port → Tbl Port) : (s.modPorts f).cgu = s.cgu := rfl
@[simp] theorem State.modPorts_ocu (s : State) (f : Tbl Port → Tbl Port) : (s.modPorts f).ocu = s.ocu := rfl
@[simp] theorem State.modPorts_mlk (s : State) (f : Tbl Port → Tbl Port) : (s.modPorts f).mlk = s.mlk := rfl
@[simp] theorem State.modPorts_time (s : State) (f : Tbl Port → Tbl Port) : (s.modPorts f).time = s.time := rfl
@[simp] theorem State.modPorts_acq (s : State) (f : Tbl Port → Tbl Port) : (s.modPorts f).acq = s.acq := rfl
@[simp] theorem State.modPorts_bki (s : State) (f : Tbl Port → Tbl Port) : (s.modPorts f).bki = s.bki := rfl
@[simp] theorem State.modPorts_season (s : State) (f : Tbl Port → Tbl Port) : (s.modPorts f).season = s.season := rfl
@[simp] theorem State.modPorts_faults (s : State) (f : Tbl Port → Tbl Port) : (s.modPorts f).faults = s.faults := rfl
@[simp] theorem State.modPorts_evr (s : State) (f : Tbl Port → Tbl Port) : (s.modPorts f).evr = s.evr := rfl
@[simp] theorem State.modPorts_ksu (s : State) (f : Tbl Port → Tbl Port) : (s.modPorts f).ksu = s.ksu := rfl
@[simp] theorem State.modPorts_mbx (s : State) (f : Tbl Port → Tbl Port) : (s.modPorts f).mbx = s.mbx := rfl
@[simp] theorem State.modPorts_persist (s : State) (f : Tbl Port → Tbl Port) : (s.modPorts f).persist = s.persist := rfl
@[simp] theorem State.modPorts_power (s : State) (f : Tbl Port → Tbl Port) : (s.modPorts f).power = s.power := rfl
@[simp] theorem State.modPorts_mon (s : State) (f : Tbl Port → Tbl Port) : (s.modPorts f).mon = s.mon := rfl
@[simp] theorem State.modPorts_free (s : State) (f : Tbl Port → Tbl Port) : (s.modPorts f).free = s.free := rfl
@[simp] theorem State.modPorts_pending (s : State) (f : Tbl Port → Tbl Port) : (s.modPorts f).pending = s.pending := rfl
@[simp] theorem State.modHead_head (s : State) (f : Head → Head) : (s.modHead f).head = f s.head := rfl
@[simp] theorem State.modHead_fab (s : State) (f : Head → Head) : (s.modHead f).fab = s.fab := rfl
@[simp] theorem State.modHead_ports (s : State) (f : Head → Head) : (s.modHead f).ports = s.ports := rfl
@[simp] theorem State.modHead_wake (s : State) (f : Head → Head) : (s.modHead f).wake = s.wake := rfl
@[simp] theorem State.modHead_sw (s : State) (f : Head → Head) : (s.modHead f).sw = s.sw := rfl
@[simp] theorem State.modHead_sce (s : State) (f : Head → Head) : (s.modHead f).sce = s.sce := rfl
@[simp] theorem State.modHead_insts (s : State) (f : Head → Head) : (s.modHead f).insts = s.insts := rfl
@[simp] theorem State.modHead_sched (s : State) (f : Head → Head) : (s.modHead f).sched = s.sched := rfl
@[simp] theorem State.modHead_eg (s : State) (f : Head → Head) : (s.modHead f).eg = s.eg := rfl
@[simp] theorem State.modHead_cgu (s : State) (f : Head → Head) : (s.modHead f).cgu = s.cgu := rfl
@[simp] theorem State.modHead_ocu (s : State) (f : Head → Head) : (s.modHead f).ocu = s.ocu := rfl
@[simp] theorem State.modHead_mlk (s : State) (f : Head → Head) : (s.modHead f).mlk = s.mlk := rfl
@[simp] theorem State.modHead_time (s : State) (f : Head → Head) : (s.modHead f).time = s.time := rfl
@[simp] theorem State.modHead_acq (s : State) (f : Head → Head) : (s.modHead f).acq = s.acq := rfl
@[simp] theorem State.modHead_bki (s : State) (f : Head → Head) : (s.modHead f).bki = s.bki := rfl
@[simp] theorem State.modHead_season (s : State) (f : Head → Head) : (s.modHead f).season = s.season := rfl
@[simp] theorem State.modHead_faults (s : State) (f : Head → Head) : (s.modHead f).faults = s.faults := rfl
@[simp] theorem State.modHead_evr (s : State) (f : Head → Head) : (s.modHead f).evr = s.evr := rfl
@[simp] theorem State.modHead_ksu (s : State) (f : Head → Head) : (s.modHead f).ksu = s.ksu := rfl
@[simp] theorem State.modHead_mbx (s : State) (f : Head → Head) : (s.modHead f).mbx = s.mbx := rfl
@[simp] theorem State.modHead_persist (s : State) (f : Head → Head) : (s.modHead f).persist = s.persist := rfl
@[simp] theorem State.modHead_power (s : State) (f : Head → Head) : (s.modHead f).power = s.power := rfl
@[simp] theorem State.modHead_mon (s : State) (f : Head → Head) : (s.modHead f).mon = s.mon := rfl
@[simp] theorem State.modHead_free (s : State) (f : Head → Head) : (s.modHead f).free = s.free := rfl
@[simp] theorem State.modHead_pending (s : State) (f : Head → Head) : (s.modHead f).pending = s.pending := rfl
@[simp] theorem State.modWake_wake (s : State) (f : Wake → Wake) : (s.modWake f).wake = f s.wake := rfl
@[simp] theorem State.modWake_fab (s : State) (f : Wake → Wake) : (s.modWake f).fab = s.fab := rfl
@[simp] theorem State.modWake_ports (s : State) (f : Wake → Wake) : (s.modWake f).ports = s.ports := rfl
@[simp] theorem State.modWake_head (s : State) (f : Wake → Wake) : (s.modWake f).head = s.head := rfl
@[simp] theorem State.modWake_sw (s : State) (f : Wake → Wake) : (s.modWake f).sw = s.sw := rfl
@[simp] theorem State.modWake_sce (s : State) (f : Wake → Wake) : (s.modWake f).sce = s.sce := rfl
@[simp] theorem State.modWake_insts (s : State) (f : Wake → Wake) : (s.modWake f).insts = s.insts := rfl
@[simp] theorem State.modWake_sched (s : State) (f : Wake → Wake) : (s.modWake f).sched = s.sched := rfl
@[simp] theorem State.modWake_eg (s : State) (f : Wake → Wake) : (s.modWake f).eg = s.eg := rfl
@[simp] theorem State.modWake_cgu (s : State) (f : Wake → Wake) : (s.modWake f).cgu = s.cgu := rfl
@[simp] theorem State.modWake_ocu (s : State) (f : Wake → Wake) : (s.modWake f).ocu = s.ocu := rfl
@[simp] theorem State.modWake_mlk (s : State) (f : Wake → Wake) : (s.modWake f).mlk = s.mlk := rfl
@[simp] theorem State.modWake_time (s : State) (f : Wake → Wake) : (s.modWake f).time = s.time := rfl
@[simp] theorem State.modWake_acq (s : State) (f : Wake → Wake) : (s.modWake f).acq = s.acq := rfl
@[simp] theorem State.modWake_bki (s : State) (f : Wake → Wake) : (s.modWake f).bki = s.bki := rfl
@[simp] theorem State.modWake_season (s : State) (f : Wake → Wake) : (s.modWake f).season = s.season := rfl
@[simp] theorem State.modWake_faults (s : State) (f : Wake → Wake) : (s.modWake f).faults = s.faults := rfl
@[simp] theorem State.modWake_evr (s : State) (f : Wake → Wake) : (s.modWake f).evr = s.evr := rfl
@[simp] theorem State.modWake_ksu (s : State) (f : Wake → Wake) : (s.modWake f).ksu = s.ksu := rfl
@[simp] theorem State.modWake_mbx (s : State) (f : Wake → Wake) : (s.modWake f).mbx = s.mbx := rfl
@[simp] theorem State.modWake_persist (s : State) (f : Wake → Wake) : (s.modWake f).persist = s.persist := rfl
@[simp] theorem State.modWake_power (s : State) (f : Wake → Wake) : (s.modWake f).power = s.power := rfl
@[simp] theorem State.modWake_mon (s : State) (f : Wake → Wake) : (s.modWake f).mon = s.mon := rfl
@[simp] theorem State.modWake_free (s : State) (f : Wake → Wake) : (s.modWake f).free = s.free := rfl
@[simp] theorem State.modWake_pending (s : State) (f : Wake → Wake) : (s.modWake f).pending = s.pending := rfl
@[simp] theorem State.modSw_sw (s : State) (f : Switch → Switch) : (s.modSw f).sw = f s.sw := rfl
@[simp] theorem State.modSw_fab (s : State) (f : Switch → Switch) : (s.modSw f).fab = s.fab := rfl
@[simp] theorem State.modSw_ports (s : State) (f : Switch → Switch) : (s.modSw f).ports = s.ports := rfl
@[simp] theorem State.modSw_head (s : State) (f : Switch → Switch) : (s.modSw f).head = s.head := rfl
@[simp] theorem State.modSw_wake (s : State) (f : Switch → Switch) : (s.modSw f).wake = s.wake := rfl
@[simp] theorem State.modSw_sce (s : State) (f : Switch → Switch) : (s.modSw f).sce = s.sce := rfl
@[simp] theorem State.modSw_insts (s : State) (f : Switch → Switch) : (s.modSw f).insts = s.insts := rfl
@[simp] theorem State.modSw_sched (s : State) (f : Switch → Switch) : (s.modSw f).sched = s.sched := rfl
@[simp] theorem State.modSw_eg (s : State) (f : Switch → Switch) : (s.modSw f).eg = s.eg := rfl
@[simp] theorem State.modSw_cgu (s : State) (f : Switch → Switch) : (s.modSw f).cgu = s.cgu := rfl
@[simp] theorem State.modSw_ocu (s : State) (f : Switch → Switch) : (s.modSw f).ocu = s.ocu := rfl
@[simp] theorem State.modSw_mlk (s : State) (f : Switch → Switch) : (s.modSw f).mlk = s.mlk := rfl
@[simp] theorem State.modSw_time (s : State) (f : Switch → Switch) : (s.modSw f).time = s.time := rfl
@[simp] theorem State.modSw_acq (s : State) (f : Switch → Switch) : (s.modSw f).acq = s.acq := rfl
@[simp] theorem State.modSw_bki (s : State) (f : Switch → Switch) : (s.modSw f).bki = s.bki := rfl
@[simp] theorem State.modSw_season (s : State) (f : Switch → Switch) : (s.modSw f).season = s.season := rfl
@[simp] theorem State.modSw_faults (s : State) (f : Switch → Switch) : (s.modSw f).faults = s.faults := rfl
@[simp] theorem State.modSw_evr (s : State) (f : Switch → Switch) : (s.modSw f).evr = s.evr := rfl
@[simp] theorem State.modSw_ksu (s : State) (f : Switch → Switch) : (s.modSw f).ksu = s.ksu := rfl
@[simp] theorem State.modSw_mbx (s : State) (f : Switch → Switch) : (s.modSw f).mbx = s.mbx := rfl
@[simp] theorem State.modSw_persist (s : State) (f : Switch → Switch) : (s.modSw f).persist = s.persist := rfl
@[simp] theorem State.modSw_power (s : State) (f : Switch → Switch) : (s.modSw f).power = s.power := rfl
@[simp] theorem State.modSw_mon (s : State) (f : Switch → Switch) : (s.modSw f).mon = s.mon := rfl
@[simp] theorem State.modSw_free (s : State) (f : Switch → Switch) : (s.modSw f).free = s.free := rfl
@[simp] theorem State.modSw_pending (s : State) (f : Switch → Switch) : (s.modSw f).pending = s.pending := rfl
@[simp] theorem State.modSce_sce (s : State) (f : Sce → Sce) : (s.modSce f).sce = f s.sce := rfl
@[simp] theorem State.modSce_fab (s : State) (f : Sce → Sce) : (s.modSce f).fab = s.fab := rfl
@[simp] theorem State.modSce_ports (s : State) (f : Sce → Sce) : (s.modSce f).ports = s.ports := rfl
@[simp] theorem State.modSce_head (s : State) (f : Sce → Sce) : (s.modSce f).head = s.head := rfl
@[simp] theorem State.modSce_wake (s : State) (f : Sce → Sce) : (s.modSce f).wake = s.wake := rfl
@[simp] theorem State.modSce_sw (s : State) (f : Sce → Sce) : (s.modSce f).sw = s.sw := rfl
@[simp] theorem State.modSce_insts (s : State) (f : Sce → Sce) : (s.modSce f).insts = s.insts := rfl
@[simp] theorem State.modSce_sched (s : State) (f : Sce → Sce) : (s.modSce f).sched = s.sched := rfl
@[simp] theorem State.modSce_eg (s : State) (f : Sce → Sce) : (s.modSce f).eg = s.eg := rfl
@[simp] theorem State.modSce_cgu (s : State) (f : Sce → Sce) : (s.modSce f).cgu = s.cgu := rfl
@[simp] theorem State.modSce_ocu (s : State) (f : Sce → Sce) : (s.modSce f).ocu = s.ocu := rfl
@[simp] theorem State.modSce_mlk (s : State) (f : Sce → Sce) : (s.modSce f).mlk = s.mlk := rfl
@[simp] theorem State.modSce_time (s : State) (f : Sce → Sce) : (s.modSce f).time = s.time := rfl
@[simp] theorem State.modSce_acq (s : State) (f : Sce → Sce) : (s.modSce f).acq = s.acq := rfl
@[simp] theorem State.modSce_bki (s : State) (f : Sce → Sce) : (s.modSce f).bki = s.bki := rfl
@[simp] theorem State.modSce_season (s : State) (f : Sce → Sce) : (s.modSce f).season = s.season := rfl
@[simp] theorem State.modSce_faults (s : State) (f : Sce → Sce) : (s.modSce f).faults = s.faults := rfl
@[simp] theorem State.modSce_evr (s : State) (f : Sce → Sce) : (s.modSce f).evr = s.evr := rfl
@[simp] theorem State.modSce_ksu (s : State) (f : Sce → Sce) : (s.modSce f).ksu = s.ksu := rfl
@[simp] theorem State.modSce_mbx (s : State) (f : Sce → Sce) : (s.modSce f).mbx = s.mbx := rfl
@[simp] theorem State.modSce_persist (s : State) (f : Sce → Sce) : (s.modSce f).persist = s.persist := rfl
@[simp] theorem State.modSce_power (s : State) (f : Sce → Sce) : (s.modSce f).power = s.power := rfl
@[simp] theorem State.modSce_mon (s : State) (f : Sce → Sce) : (s.modSce f).mon = s.mon := rfl
@[simp] theorem State.modSce_free (s : State) (f : Sce → Sce) : (s.modSce f).free = s.free := rfl
@[simp] theorem State.modSce_pending (s : State) (f : Sce → Sce) : (s.modSce f).pending = s.pending := rfl
@[simp] theorem State.modInsts_insts (s : State) (f : Insts → Insts) : (s.modInsts f).insts = f s.insts := rfl
@[simp] theorem State.modInsts_fab (s : State) (f : Insts → Insts) : (s.modInsts f).fab = s.fab := rfl
@[simp] theorem State.modInsts_ports (s : State) (f : Insts → Insts) : (s.modInsts f).ports = s.ports := rfl
@[simp] theorem State.modInsts_head (s : State) (f : Insts → Insts) : (s.modInsts f).head = s.head := rfl
@[simp] theorem State.modInsts_wake (s : State) (f : Insts → Insts) : (s.modInsts f).wake = s.wake := rfl
@[simp] theorem State.modInsts_sw (s : State) (f : Insts → Insts) : (s.modInsts f).sw = s.sw := rfl
@[simp] theorem State.modInsts_sce (s : State) (f : Insts → Insts) : (s.modInsts f).sce = s.sce := rfl
@[simp] theorem State.modInsts_sched (s : State) (f : Insts → Insts) : (s.modInsts f).sched = s.sched := rfl
@[simp] theorem State.modInsts_eg (s : State) (f : Insts → Insts) : (s.modInsts f).eg = s.eg := rfl
@[simp] theorem State.modInsts_cgu (s : State) (f : Insts → Insts) : (s.modInsts f).cgu = s.cgu := rfl
@[simp] theorem State.modInsts_ocu (s : State) (f : Insts → Insts) : (s.modInsts f).ocu = s.ocu := rfl
@[simp] theorem State.modInsts_mlk (s : State) (f : Insts → Insts) : (s.modInsts f).mlk = s.mlk := rfl
@[simp] theorem State.modInsts_time (s : State) (f : Insts → Insts) : (s.modInsts f).time = s.time := rfl
@[simp] theorem State.modInsts_acq (s : State) (f : Insts → Insts) : (s.modInsts f).acq = s.acq := rfl
@[simp] theorem State.modInsts_bki (s : State) (f : Insts → Insts) : (s.modInsts f).bki = s.bki := rfl
@[simp] theorem State.modInsts_season (s : State) (f : Insts → Insts) : (s.modInsts f).season = s.season := rfl
@[simp] theorem State.modInsts_faults (s : State) (f : Insts → Insts) : (s.modInsts f).faults = s.faults := rfl
@[simp] theorem State.modInsts_evr (s : State) (f : Insts → Insts) : (s.modInsts f).evr = s.evr := rfl
@[simp] theorem State.modInsts_ksu (s : State) (f : Insts → Insts) : (s.modInsts f).ksu = s.ksu := rfl
@[simp] theorem State.modInsts_mbx (s : State) (f : Insts → Insts) : (s.modInsts f).mbx = s.mbx := rfl
@[simp] theorem State.modInsts_persist (s : State) (f : Insts → Insts) : (s.modInsts f).persist = s.persist := rfl
@[simp] theorem State.modInsts_power (s : State) (f : Insts → Insts) : (s.modInsts f).power = s.power := rfl
@[simp] theorem State.modInsts_mon (s : State) (f : Insts → Insts) : (s.modInsts f).mon = s.mon := rfl
@[simp] theorem State.modInsts_free (s : State) (f : Insts → Insts) : (s.modInsts f).free = s.free := rfl
@[simp] theorem State.modInsts_pending (s : State) (f : Insts → Insts) : (s.modInsts f).pending = s.pending := rfl
@[simp] theorem State.modSched_sched (s : State) (f : Sched → Sched) : (s.modSched f).sched = f s.sched := rfl
@[simp] theorem State.modSched_fab (s : State) (f : Sched → Sched) : (s.modSched f).fab = s.fab := rfl
@[simp] theorem State.modSched_ports (s : State) (f : Sched → Sched) : (s.modSched f).ports = s.ports := rfl
@[simp] theorem State.modSched_head (s : State) (f : Sched → Sched) : (s.modSched f).head = s.head := rfl
@[simp] theorem State.modSched_wake (s : State) (f : Sched → Sched) : (s.modSched f).wake = s.wake := rfl
@[simp] theorem State.modSched_sw (s : State) (f : Sched → Sched) : (s.modSched f).sw = s.sw := rfl
@[simp] theorem State.modSched_sce (s : State) (f : Sched → Sched) : (s.modSched f).sce = s.sce := rfl
@[simp] theorem State.modSched_insts (s : State) (f : Sched → Sched) : (s.modSched f).insts = s.insts := rfl
@[simp] theorem State.modSched_eg (s : State) (f : Sched → Sched) : (s.modSched f).eg = s.eg := rfl
@[simp] theorem State.modSched_cgu (s : State) (f : Sched → Sched) : (s.modSched f).cgu = s.cgu := rfl
@[simp] theorem State.modSched_ocu (s : State) (f : Sched → Sched) : (s.modSched f).ocu = s.ocu := rfl
@[simp] theorem State.modSched_mlk (s : State) (f : Sched → Sched) : (s.modSched f).mlk = s.mlk := rfl
@[simp] theorem State.modSched_time (s : State) (f : Sched → Sched) : (s.modSched f).time = s.time := rfl
@[simp] theorem State.modSched_acq (s : State) (f : Sched → Sched) : (s.modSched f).acq = s.acq := rfl
@[simp] theorem State.modSched_bki (s : State) (f : Sched → Sched) : (s.modSched f).bki = s.bki := rfl
@[simp] theorem State.modSched_season (s : State) (f : Sched → Sched) : (s.modSched f).season = s.season := rfl
@[simp] theorem State.modSched_faults (s : State) (f : Sched → Sched) : (s.modSched f).faults = s.faults := rfl
@[simp] theorem State.modSched_evr (s : State) (f : Sched → Sched) : (s.modSched f).evr = s.evr := rfl
@[simp] theorem State.modSched_ksu (s : State) (f : Sched → Sched) : (s.modSched f).ksu = s.ksu := rfl
@[simp] theorem State.modSched_mbx (s : State) (f : Sched → Sched) : (s.modSched f).mbx = s.mbx := rfl
@[simp] theorem State.modSched_persist (s : State) (f : Sched → Sched) : (s.modSched f).persist = s.persist := rfl
@[simp] theorem State.modSched_power (s : State) (f : Sched → Sched) : (s.modSched f).power = s.power := rfl
@[simp] theorem State.modSched_mon (s : State) (f : Sched → Sched) : (s.modSched f).mon = s.mon := rfl
@[simp] theorem State.modSched_free (s : State) (f : Sched → Sched) : (s.modSched f).free = s.free := rfl
@[simp] theorem State.modSched_pending (s : State) (f : Sched → Sched) : (s.modSched f).pending = s.pending := rfl
@[simp] theorem State.modEg_eg (s : State) (f : Egress → Egress) : (s.modEg f).eg = f s.eg := rfl
@[simp] theorem State.modEg_fab (s : State) (f : Egress → Egress) : (s.modEg f).fab = s.fab := rfl
@[simp] theorem State.modEg_ports (s : State) (f : Egress → Egress) : (s.modEg f).ports = s.ports := rfl
@[simp] theorem State.modEg_head (s : State) (f : Egress → Egress) : (s.modEg f).head = s.head := rfl
@[simp] theorem State.modEg_wake (s : State) (f : Egress → Egress) : (s.modEg f).wake = s.wake := rfl
@[simp] theorem State.modEg_sw (s : State) (f : Egress → Egress) : (s.modEg f).sw = s.sw := rfl
@[simp] theorem State.modEg_sce (s : State) (f : Egress → Egress) : (s.modEg f).sce = s.sce := rfl
@[simp] theorem State.modEg_insts (s : State) (f : Egress → Egress) : (s.modEg f).insts = s.insts := rfl
@[simp] theorem State.modEg_sched (s : State) (f : Egress → Egress) : (s.modEg f).sched = s.sched := rfl
@[simp] theorem State.modEg_cgu (s : State) (f : Egress → Egress) : (s.modEg f).cgu = s.cgu := rfl
@[simp] theorem State.modEg_ocu (s : State) (f : Egress → Egress) : (s.modEg f).ocu = s.ocu := rfl
@[simp] theorem State.modEg_mlk (s : State) (f : Egress → Egress) : (s.modEg f).mlk = s.mlk := rfl
@[simp] theorem State.modEg_time (s : State) (f : Egress → Egress) : (s.modEg f).time = s.time := rfl
@[simp] theorem State.modEg_acq (s : State) (f : Egress → Egress) : (s.modEg f).acq = s.acq := rfl
@[simp] theorem State.modEg_bki (s : State) (f : Egress → Egress) : (s.modEg f).bki = s.bki := rfl
@[simp] theorem State.modEg_season (s : State) (f : Egress → Egress) : (s.modEg f).season = s.season := rfl
@[simp] theorem State.modEg_faults (s : State) (f : Egress → Egress) : (s.modEg f).faults = s.faults := rfl
@[simp] theorem State.modEg_evr (s : State) (f : Egress → Egress) : (s.modEg f).evr = s.evr := rfl
@[simp] theorem State.modEg_ksu (s : State) (f : Egress → Egress) : (s.modEg f).ksu = s.ksu := rfl
@[simp] theorem State.modEg_mbx (s : State) (f : Egress → Egress) : (s.modEg f).mbx = s.mbx := rfl
@[simp] theorem State.modEg_persist (s : State) (f : Egress → Egress) : (s.modEg f).persist = s.persist := rfl
@[simp] theorem State.modEg_power (s : State) (f : Egress → Egress) : (s.modEg f).power = s.power := rfl
@[simp] theorem State.modEg_mon (s : State) (f : Egress → Egress) : (s.modEg f).mon = s.mon := rfl
@[simp] theorem State.modEg_free (s : State) (f : Egress → Egress) : (s.modEg f).free = s.free := rfl
@[simp] theorem State.modEg_pending (s : State) (f : Egress → Egress) : (s.modEg f).pending = s.pending := rfl
@[simp] theorem State.modCgu_cgu (s : State) (f : Cgu → Cgu) : (s.modCgu f).cgu = f s.cgu := rfl
@[simp] theorem State.modCgu_fab (s : State) (f : Cgu → Cgu) : (s.modCgu f).fab = s.fab := rfl
@[simp] theorem State.modCgu_ports (s : State) (f : Cgu → Cgu) : (s.modCgu f).ports = s.ports := rfl
@[simp] theorem State.modCgu_head (s : State) (f : Cgu → Cgu) : (s.modCgu f).head = s.head := rfl
@[simp] theorem State.modCgu_wake (s : State) (f : Cgu → Cgu) : (s.modCgu f).wake = s.wake := rfl
@[simp] theorem State.modCgu_sw (s : State) (f : Cgu → Cgu) : (s.modCgu f).sw = s.sw := rfl
@[simp] theorem State.modCgu_sce (s : State) (f : Cgu → Cgu) : (s.modCgu f).sce = s.sce := rfl
@[simp] theorem State.modCgu_insts (s : State) (f : Cgu → Cgu) : (s.modCgu f).insts = s.insts := rfl
@[simp] theorem State.modCgu_sched (s : State) (f : Cgu → Cgu) : (s.modCgu f).sched = s.sched := rfl
@[simp] theorem State.modCgu_eg (s : State) (f : Cgu → Cgu) : (s.modCgu f).eg = s.eg := rfl
@[simp] theorem State.modCgu_ocu (s : State) (f : Cgu → Cgu) : (s.modCgu f).ocu = s.ocu := rfl
@[simp] theorem State.modCgu_mlk (s : State) (f : Cgu → Cgu) : (s.modCgu f).mlk = s.mlk := rfl
@[simp] theorem State.modCgu_time (s : State) (f : Cgu → Cgu) : (s.modCgu f).time = s.time := rfl
@[simp] theorem State.modCgu_acq (s : State) (f : Cgu → Cgu) : (s.modCgu f).acq = s.acq := rfl
@[simp] theorem State.modCgu_bki (s : State) (f : Cgu → Cgu) : (s.modCgu f).bki = s.bki := rfl
@[simp] theorem State.modCgu_season (s : State) (f : Cgu → Cgu) : (s.modCgu f).season = s.season := rfl
@[simp] theorem State.modCgu_faults (s : State) (f : Cgu → Cgu) : (s.modCgu f).faults = s.faults := rfl
@[simp] theorem State.modCgu_evr (s : State) (f : Cgu → Cgu) : (s.modCgu f).evr = s.evr := rfl
@[simp] theorem State.modCgu_ksu (s : State) (f : Cgu → Cgu) : (s.modCgu f).ksu = s.ksu := rfl
@[simp] theorem State.modCgu_mbx (s : State) (f : Cgu → Cgu) : (s.modCgu f).mbx = s.mbx := rfl
@[simp] theorem State.modCgu_persist (s : State) (f : Cgu → Cgu) : (s.modCgu f).persist = s.persist := rfl
@[simp] theorem State.modCgu_power (s : State) (f : Cgu → Cgu) : (s.modCgu f).power = s.power := rfl
@[simp] theorem State.modCgu_mon (s : State) (f : Cgu → Cgu) : (s.modCgu f).mon = s.mon := rfl
@[simp] theorem State.modCgu_free (s : State) (f : Cgu → Cgu) : (s.modCgu f).free = s.free := rfl
@[simp] theorem State.modCgu_pending (s : State) (f : Cgu → Cgu) : (s.modCgu f).pending = s.pending := rfl
@[simp] theorem State.modOcu_ocu (s : State) (f : Ocu → Ocu) : (s.modOcu f).ocu = f s.ocu := rfl
@[simp] theorem State.modOcu_fab (s : State) (f : Ocu → Ocu) : (s.modOcu f).fab = s.fab := rfl
@[simp] theorem State.modOcu_ports (s : State) (f : Ocu → Ocu) : (s.modOcu f).ports = s.ports := rfl
@[simp] theorem State.modOcu_head (s : State) (f : Ocu → Ocu) : (s.modOcu f).head = s.head := rfl
@[simp] theorem State.modOcu_wake (s : State) (f : Ocu → Ocu) : (s.modOcu f).wake = s.wake := rfl
@[simp] theorem State.modOcu_sw (s : State) (f : Ocu → Ocu) : (s.modOcu f).sw = s.sw := rfl
@[simp] theorem State.modOcu_sce (s : State) (f : Ocu → Ocu) : (s.modOcu f).sce = s.sce := rfl
@[simp] theorem State.modOcu_insts (s : State) (f : Ocu → Ocu) : (s.modOcu f).insts = s.insts := rfl
@[simp] theorem State.modOcu_sched (s : State) (f : Ocu → Ocu) : (s.modOcu f).sched = s.sched := rfl
@[simp] theorem State.modOcu_eg (s : State) (f : Ocu → Ocu) : (s.modOcu f).eg = s.eg := rfl
@[simp] theorem State.modOcu_cgu (s : State) (f : Ocu → Ocu) : (s.modOcu f).cgu = s.cgu := rfl
@[simp] theorem State.modOcu_mlk (s : State) (f : Ocu → Ocu) : (s.modOcu f).mlk = s.mlk := rfl
@[simp] theorem State.modOcu_time (s : State) (f : Ocu → Ocu) : (s.modOcu f).time = s.time := rfl
@[simp] theorem State.modOcu_acq (s : State) (f : Ocu → Ocu) : (s.modOcu f).acq = s.acq := rfl
@[simp] theorem State.modOcu_bki (s : State) (f : Ocu → Ocu) : (s.modOcu f).bki = s.bki := rfl
@[simp] theorem State.modOcu_season (s : State) (f : Ocu → Ocu) : (s.modOcu f).season = s.season := rfl
@[simp] theorem State.modOcu_faults (s : State) (f : Ocu → Ocu) : (s.modOcu f).faults = s.faults := rfl
@[simp] theorem State.modOcu_evr (s : State) (f : Ocu → Ocu) : (s.modOcu f).evr = s.evr := rfl
@[simp] theorem State.modOcu_ksu (s : State) (f : Ocu → Ocu) : (s.modOcu f).ksu = s.ksu := rfl
@[simp] theorem State.modOcu_mbx (s : State) (f : Ocu → Ocu) : (s.modOcu f).mbx = s.mbx := rfl
@[simp] theorem State.modOcu_persist (s : State) (f : Ocu → Ocu) : (s.modOcu f).persist = s.persist := rfl
@[simp] theorem State.modOcu_power (s : State) (f : Ocu → Ocu) : (s.modOcu f).power = s.power := rfl
@[simp] theorem State.modOcu_mon (s : State) (f : Ocu → Ocu) : (s.modOcu f).mon = s.mon := rfl
@[simp] theorem State.modOcu_free (s : State) (f : Ocu → Ocu) : (s.modOcu f).free = s.free := rfl
@[simp] theorem State.modOcu_pending (s : State) (f : Ocu → Ocu) : (s.modOcu f).pending = s.pending := rfl
@[simp] theorem State.modMlk_mlk (s : State) (f : Mlk → Mlk) : (s.modMlk f).mlk = f s.mlk := rfl
@[simp] theorem State.modMlk_fab (s : State) (f : Mlk → Mlk) : (s.modMlk f).fab = s.fab := rfl
@[simp] theorem State.modMlk_ports (s : State) (f : Mlk → Mlk) : (s.modMlk f).ports = s.ports := rfl
@[simp] theorem State.modMlk_head (s : State) (f : Mlk → Mlk) : (s.modMlk f).head = s.head := rfl
@[simp] theorem State.modMlk_wake (s : State) (f : Mlk → Mlk) : (s.modMlk f).wake = s.wake := rfl
@[simp] theorem State.modMlk_sw (s : State) (f : Mlk → Mlk) : (s.modMlk f).sw = s.sw := rfl
@[simp] theorem State.modMlk_sce (s : State) (f : Mlk → Mlk) : (s.modMlk f).sce = s.sce := rfl
@[simp] theorem State.modMlk_insts (s : State) (f : Mlk → Mlk) : (s.modMlk f).insts = s.insts := rfl
@[simp] theorem State.modMlk_sched (s : State) (f : Mlk → Mlk) : (s.modMlk f).sched = s.sched := rfl
@[simp] theorem State.modMlk_eg (s : State) (f : Mlk → Mlk) : (s.modMlk f).eg = s.eg := rfl
@[simp] theorem State.modMlk_cgu (s : State) (f : Mlk → Mlk) : (s.modMlk f).cgu = s.cgu := rfl
@[simp] theorem State.modMlk_ocu (s : State) (f : Mlk → Mlk) : (s.modMlk f).ocu = s.ocu := rfl
@[simp] theorem State.modMlk_time (s : State) (f : Mlk → Mlk) : (s.modMlk f).time = s.time := rfl
@[simp] theorem State.modMlk_acq (s : State) (f : Mlk → Mlk) : (s.modMlk f).acq = s.acq := rfl
@[simp] theorem State.modMlk_bki (s : State) (f : Mlk → Mlk) : (s.modMlk f).bki = s.bki := rfl
@[simp] theorem State.modMlk_season (s : State) (f : Mlk → Mlk) : (s.modMlk f).season = s.season := rfl
@[simp] theorem State.modMlk_faults (s : State) (f : Mlk → Mlk) : (s.modMlk f).faults = s.faults := rfl
@[simp] theorem State.modMlk_evr (s : State) (f : Mlk → Mlk) : (s.modMlk f).evr = s.evr := rfl
@[simp] theorem State.modMlk_ksu (s : State) (f : Mlk → Mlk) : (s.modMlk f).ksu = s.ksu := rfl
@[simp] theorem State.modMlk_mbx (s : State) (f : Mlk → Mlk) : (s.modMlk f).mbx = s.mbx := rfl
@[simp] theorem State.modMlk_persist (s : State) (f : Mlk → Mlk) : (s.modMlk f).persist = s.persist := rfl
@[simp] theorem State.modMlk_power (s : State) (f : Mlk → Mlk) : (s.modMlk f).power = s.power := rfl
@[simp] theorem State.modMlk_mon (s : State) (f : Mlk → Mlk) : (s.modMlk f).mon = s.mon := rfl
@[simp] theorem State.modMlk_free (s : State) (f : Mlk → Mlk) : (s.modMlk f).free = s.free := rfl
@[simp] theorem State.modMlk_pending (s : State) (f : Mlk → Mlk) : (s.modMlk f).pending = s.pending := rfl
@[simp] theorem State.modTime_time (s : State) (f : Time → Time) : (s.modTime f).time = f s.time := rfl
@[simp] theorem State.modTime_fab (s : State) (f : Time → Time) : (s.modTime f).fab = s.fab := rfl
@[simp] theorem State.modTime_ports (s : State) (f : Time → Time) : (s.modTime f).ports = s.ports := rfl
@[simp] theorem State.modTime_head (s : State) (f : Time → Time) : (s.modTime f).head = s.head := rfl
@[simp] theorem State.modTime_wake (s : State) (f : Time → Time) : (s.modTime f).wake = s.wake := rfl
@[simp] theorem State.modTime_sw (s : State) (f : Time → Time) : (s.modTime f).sw = s.sw := rfl
@[simp] theorem State.modTime_sce (s : State) (f : Time → Time) : (s.modTime f).sce = s.sce := rfl
@[simp] theorem State.modTime_insts (s : State) (f : Time → Time) : (s.modTime f).insts = s.insts := rfl
@[simp] theorem State.modTime_sched (s : State) (f : Time → Time) : (s.modTime f).sched = s.sched := rfl
@[simp] theorem State.modTime_eg (s : State) (f : Time → Time) : (s.modTime f).eg = s.eg := rfl
@[simp] theorem State.modTime_cgu (s : State) (f : Time → Time) : (s.modTime f).cgu = s.cgu := rfl
@[simp] theorem State.modTime_ocu (s : State) (f : Time → Time) : (s.modTime f).ocu = s.ocu := rfl
@[simp] theorem State.modTime_mlk (s : State) (f : Time → Time) : (s.modTime f).mlk = s.mlk := rfl
@[simp] theorem State.modTime_acq (s : State) (f : Time → Time) : (s.modTime f).acq = s.acq := rfl
@[simp] theorem State.modTime_bki (s : State) (f : Time → Time) : (s.modTime f).bki = s.bki := rfl
@[simp] theorem State.modTime_season (s : State) (f : Time → Time) : (s.modTime f).season = s.season := rfl
@[simp] theorem State.modTime_faults (s : State) (f : Time → Time) : (s.modTime f).faults = s.faults := rfl
@[simp] theorem State.modTime_evr (s : State) (f : Time → Time) : (s.modTime f).evr = s.evr := rfl
@[simp] theorem State.modTime_ksu (s : State) (f : Time → Time) : (s.modTime f).ksu = s.ksu := rfl
@[simp] theorem State.modTime_mbx (s : State) (f : Time → Time) : (s.modTime f).mbx = s.mbx := rfl
@[simp] theorem State.modTime_persist (s : State) (f : Time → Time) : (s.modTime f).persist = s.persist := rfl
@[simp] theorem State.modTime_power (s : State) (f : Time → Time) : (s.modTime f).power = s.power := rfl
@[simp] theorem State.modTime_mon (s : State) (f : Time → Time) : (s.modTime f).mon = s.mon := rfl
@[simp] theorem State.modTime_free (s : State) (f : Time → Time) : (s.modTime f).free = s.free := rfl
@[simp] theorem State.modTime_pending (s : State) (f : Time → Time) : (s.modTime f).pending = s.pending := rfl
@[simp] theorem State.modAcq_acq (s : State) (f : Acq → Acq) : (s.modAcq f).acq = f s.acq := rfl
@[simp] theorem State.modAcq_fab (s : State) (f : Acq → Acq) : (s.modAcq f).fab = s.fab := rfl
@[simp] theorem State.modAcq_ports (s : State) (f : Acq → Acq) : (s.modAcq f).ports = s.ports := rfl
@[simp] theorem State.modAcq_head (s : State) (f : Acq → Acq) : (s.modAcq f).head = s.head := rfl
@[simp] theorem State.modAcq_wake (s : State) (f : Acq → Acq) : (s.modAcq f).wake = s.wake := rfl
@[simp] theorem State.modAcq_sw (s : State) (f : Acq → Acq) : (s.modAcq f).sw = s.sw := rfl
@[simp] theorem State.modAcq_sce (s : State) (f : Acq → Acq) : (s.modAcq f).sce = s.sce := rfl
@[simp] theorem State.modAcq_insts (s : State) (f : Acq → Acq) : (s.modAcq f).insts = s.insts := rfl
@[simp] theorem State.modAcq_sched (s : State) (f : Acq → Acq) : (s.modAcq f).sched = s.sched := rfl
@[simp] theorem State.modAcq_eg (s : State) (f : Acq → Acq) : (s.modAcq f).eg = s.eg := rfl
@[simp] theorem State.modAcq_cgu (s : State) (f : Acq → Acq) : (s.modAcq f).cgu = s.cgu := rfl
@[simp] theorem State.modAcq_ocu (s : State) (f : Acq → Acq) : (s.modAcq f).ocu = s.ocu := rfl
@[simp] theorem State.modAcq_mlk (s : State) (f : Acq → Acq) : (s.modAcq f).mlk = s.mlk := rfl
@[simp] theorem State.modAcq_time (s : State) (f : Acq → Acq) : (s.modAcq f).time = s.time := rfl
@[simp] theorem State.modAcq_bki (s : State) (f : Acq → Acq) : (s.modAcq f).bki = s.bki := rfl
@[simp] theorem State.modAcq_season (s : State) (f : Acq → Acq) : (s.modAcq f).season = s.season := rfl
@[simp] theorem State.modAcq_faults (s : State) (f : Acq → Acq) : (s.modAcq f).faults = s.faults := rfl
@[simp] theorem State.modAcq_evr (s : State) (f : Acq → Acq) : (s.modAcq f).evr = s.evr := rfl
@[simp] theorem State.modAcq_ksu (s : State) (f : Acq → Acq) : (s.modAcq f).ksu = s.ksu := rfl
@[simp] theorem State.modAcq_mbx (s : State) (f : Acq → Acq) : (s.modAcq f).mbx = s.mbx := rfl
@[simp] theorem State.modAcq_persist (s : State) (f : Acq → Acq) : (s.modAcq f).persist = s.persist := rfl
@[simp] theorem State.modAcq_power (s : State) (f : Acq → Acq) : (s.modAcq f).power = s.power := rfl
@[simp] theorem State.modAcq_mon (s : State) (f : Acq → Acq) : (s.modAcq f).mon = s.mon := rfl
@[simp] theorem State.modAcq_free (s : State) (f : Acq → Acq) : (s.modAcq f).free = s.free := rfl
@[simp] theorem State.modAcq_pending (s : State) (f : Acq → Acq) : (s.modAcq f).pending = s.pending := rfl
@[simp] theorem State.modBki_bki (s : State) (f : Bki → Bki) : (s.modBki f).bki = f s.bki := rfl
@[simp] theorem State.modBki_fab (s : State) (f : Bki → Bki) : (s.modBki f).fab = s.fab := rfl
@[simp] theorem State.modBki_ports (s : State) (f : Bki → Bki) : (s.modBki f).ports = s.ports := rfl
@[simp] theorem State.modBki_head (s : State) (f : Bki → Bki) : (s.modBki f).head = s.head := rfl
@[simp] theorem State.modBki_wake (s : State) (f : Bki → Bki) : (s.modBki f).wake = s.wake := rfl
@[simp] theorem State.modBki_sw (s : State) (f : Bki → Bki) : (s.modBki f).sw = s.sw := rfl
@[simp] theorem State.modBki_sce (s : State) (f : Bki → Bki) : (s.modBki f).sce = s.sce := rfl
@[simp] theorem State.modBki_insts (s : State) (f : Bki → Bki) : (s.modBki f).insts = s.insts := rfl
@[simp] theorem State.modBki_sched (s : State) (f : Bki → Bki) : (s.modBki f).sched = s.sched := rfl
@[simp] theorem State.modBki_eg (s : State) (f : Bki → Bki) : (s.modBki f).eg = s.eg := rfl
@[simp] theorem State.modBki_cgu (s : State) (f : Bki → Bki) : (s.modBki f).cgu = s.cgu := rfl
@[simp] theorem State.modBki_ocu (s : State) (f : Bki → Bki) : (s.modBki f).ocu = s.ocu := rfl
@[simp] theorem State.modBki_mlk (s : State) (f : Bki → Bki) : (s.modBki f).mlk = s.mlk := rfl
@[simp] theorem State.modBki_time (s : State) (f : Bki → Bki) : (s.modBki f).time = s.time := rfl
@[simp] theorem State.modBki_acq (s : State) (f : Bki → Bki) : (s.modBki f).acq = s.acq := rfl
@[simp] theorem State.modBki_season (s : State) (f : Bki → Bki) : (s.modBki f).season = s.season := rfl
@[simp] theorem State.modBki_faults (s : State) (f : Bki → Bki) : (s.modBki f).faults = s.faults := rfl
@[simp] theorem State.modBki_evr (s : State) (f : Bki → Bki) : (s.modBki f).evr = s.evr := rfl
@[simp] theorem State.modBki_ksu (s : State) (f : Bki → Bki) : (s.modBki f).ksu = s.ksu := rfl
@[simp] theorem State.modBki_mbx (s : State) (f : Bki → Bki) : (s.modBki f).mbx = s.mbx := rfl
@[simp] theorem State.modBki_persist (s : State) (f : Bki → Bki) : (s.modBki f).persist = s.persist := rfl
@[simp] theorem State.modBki_power (s : State) (f : Bki → Bki) : (s.modBki f).power = s.power := rfl
@[simp] theorem State.modBki_mon (s : State) (f : Bki → Bki) : (s.modBki f).mon = s.mon := rfl
@[simp] theorem State.modBki_free (s : State) (f : Bki → Bki) : (s.modBki f).free = s.free := rfl
@[simp] theorem State.modBki_pending (s : State) (f : Bki → Bki) : (s.modBki f).pending = s.pending := rfl
@[simp] theorem State.modSeason_season (s : State) (f : Season → Season) : (s.modSeason f).season = f s.season := rfl
@[simp] theorem State.modSeason_fab (s : State) (f : Season → Season) : (s.modSeason f).fab = s.fab := rfl
@[simp] theorem State.modSeason_ports (s : State) (f : Season → Season) : (s.modSeason f).ports = s.ports := rfl
@[simp] theorem State.modSeason_head (s : State) (f : Season → Season) : (s.modSeason f).head = s.head := rfl
@[simp] theorem State.modSeason_wake (s : State) (f : Season → Season) : (s.modSeason f).wake = s.wake := rfl
@[simp] theorem State.modSeason_sw (s : State) (f : Season → Season) : (s.modSeason f).sw = s.sw := rfl
@[simp] theorem State.modSeason_sce (s : State) (f : Season → Season) : (s.modSeason f).sce = s.sce := rfl
@[simp] theorem State.modSeason_insts (s : State) (f : Season → Season) : (s.modSeason f).insts = s.insts := rfl
@[simp] theorem State.modSeason_sched (s : State) (f : Season → Season) : (s.modSeason f).sched = s.sched := rfl
@[simp] theorem State.modSeason_eg (s : State) (f : Season → Season) : (s.modSeason f).eg = s.eg := rfl
@[simp] theorem State.modSeason_cgu (s : State) (f : Season → Season) : (s.modSeason f).cgu = s.cgu := rfl
@[simp] theorem State.modSeason_ocu (s : State) (f : Season → Season) : (s.modSeason f).ocu = s.ocu := rfl
@[simp] theorem State.modSeason_mlk (s : State) (f : Season → Season) : (s.modSeason f).mlk = s.mlk := rfl
@[simp] theorem State.modSeason_time (s : State) (f : Season → Season) : (s.modSeason f).time = s.time := rfl
@[simp] theorem State.modSeason_acq (s : State) (f : Season → Season) : (s.modSeason f).acq = s.acq := rfl
@[simp] theorem State.modSeason_bki (s : State) (f : Season → Season) : (s.modSeason f).bki = s.bki := rfl
@[simp] theorem State.modSeason_faults (s : State) (f : Season → Season) : (s.modSeason f).faults = s.faults := rfl
@[simp] theorem State.modSeason_evr (s : State) (f : Season → Season) : (s.modSeason f).evr = s.evr := rfl
@[simp] theorem State.modSeason_ksu (s : State) (f : Season → Season) : (s.modSeason f).ksu = s.ksu := rfl
@[simp] theorem State.modSeason_mbx (s : State) (f : Season → Season) : (s.modSeason f).mbx = s.mbx := rfl
@[simp] theorem State.modSeason_persist (s : State) (f : Season → Season) : (s.modSeason f).persist = s.persist := rfl
@[simp] theorem State.modSeason_power (s : State) (f : Season → Season) : (s.modSeason f).power = s.power := rfl
@[simp] theorem State.modSeason_mon (s : State) (f : Season → Season) : (s.modSeason f).mon = s.mon := rfl
@[simp] theorem State.modSeason_free (s : State) (f : Season → Season) : (s.modSeason f).free = s.free := rfl
@[simp] theorem State.modSeason_pending (s : State) (f : Season → Season) : (s.modSeason f).pending = s.pending := rfl
@[simp] theorem State.modFaults_faults (s : State) (f : Faults → Faults) : (s.modFaults f).faults = f s.faults := rfl
@[simp] theorem State.modFaults_fab (s : State) (f : Faults → Faults) : (s.modFaults f).fab = s.fab := rfl
@[simp] theorem State.modFaults_ports (s : State) (f : Faults → Faults) : (s.modFaults f).ports = s.ports := rfl
@[simp] theorem State.modFaults_head (s : State) (f : Faults → Faults) : (s.modFaults f).head = s.head := rfl
@[simp] theorem State.modFaults_wake (s : State) (f : Faults → Faults) : (s.modFaults f).wake = s.wake := rfl
@[simp] theorem State.modFaults_sw (s : State) (f : Faults → Faults) : (s.modFaults f).sw = s.sw := rfl
@[simp] theorem State.modFaults_sce (s : State) (f : Faults → Faults) : (s.modFaults f).sce = s.sce := rfl
@[simp] theorem State.modFaults_insts (s : State) (f : Faults → Faults) : (s.modFaults f).insts = s.insts := rfl
@[simp] theorem State.modFaults_sched (s : State) (f : Faults → Faults) : (s.modFaults f).sched = s.sched := rfl
@[simp] theorem State.modFaults_eg (s : State) (f : Faults → Faults) : (s.modFaults f).eg = s.eg := rfl
@[simp] theorem State.modFaults_cgu (s : State) (f : Faults → Faults) : (s.modFaults f).cgu = s.cgu := rfl
@[simp] theorem State.modFaults_ocu (s : State) (f : Faults → Faults) : (s.modFaults f).ocu = s.ocu := rfl
@[simp] theorem State.modFaults_mlk (s : State) (f : Faults → Faults) : (s.modFaults f).mlk = s.mlk := rfl
@[simp] theorem State.modFaults_time (s : State) (f : Faults → Faults) : (s.modFaults f).time = s.time := rfl
@[simp] theorem State.modFaults_acq (s : State) (f : Faults → Faults) : (s.modFaults f).acq = s.acq := rfl
@[simp] theorem State.modFaults_bki (s : State) (f : Faults → Faults) : (s.modFaults f).bki = s.bki := rfl
@[simp] theorem State.modFaults_season (s : State) (f : Faults → Faults) : (s.modFaults f).season = s.season := rfl
@[simp] theorem State.modFaults_evr (s : State) (f : Faults → Faults) : (s.modFaults f).evr = s.evr := rfl
@[simp] theorem State.modFaults_ksu (s : State) (f : Faults → Faults) : (s.modFaults f).ksu = s.ksu := rfl
@[simp] theorem State.modFaults_mbx (s : State) (f : Faults → Faults) : (s.modFaults f).mbx = s.mbx := rfl
@[simp] theorem State.modFaults_persist (s : State) (f : Faults → Faults) : (s.modFaults f).persist = s.persist := rfl
@[simp] theorem State.modFaults_power (s : State) (f : Faults → Faults) : (s.modFaults f).power = s.power := rfl
@[simp] theorem State.modFaults_mon (s : State) (f : Faults → Faults) : (s.modFaults f).mon = s.mon := rfl
@[simp] theorem State.modFaults_free (s : State) (f : Faults → Faults) : (s.modFaults f).free = s.free := rfl
@[simp] theorem State.modFaults_pending (s : State) (f : Faults → Faults) : (s.modFaults f).pending = s.pending := rfl
@[simp] theorem State.modEvr_evr (s : State) (f : Evr → Evr) : (s.modEvr f).evr = f s.evr := rfl
@[simp] theorem State.modEvr_fab (s : State) (f : Evr → Evr) : (s.modEvr f).fab = s.fab := rfl
@[simp] theorem State.modEvr_ports (s : State) (f : Evr → Evr) : (s.modEvr f).ports = s.ports := rfl
@[simp] theorem State.modEvr_head (s : State) (f : Evr → Evr) : (s.modEvr f).head = s.head := rfl
@[simp] theorem State.modEvr_wake (s : State) (f : Evr → Evr) : (s.modEvr f).wake = s.wake := rfl
@[simp] theorem State.modEvr_sw (s : State) (f : Evr → Evr) : (s.modEvr f).sw = s.sw := rfl
@[simp] theorem State.modEvr_sce (s : State) (f : Evr → Evr) : (s.modEvr f).sce = s.sce := rfl
@[simp] theorem State.modEvr_insts (s : State) (f : Evr → Evr) : (s.modEvr f).insts = s.insts := rfl
@[simp] theorem State.modEvr_sched (s : State) (f : Evr → Evr) : (s.modEvr f).sched = s.sched := rfl
@[simp] theorem State.modEvr_eg (s : State) (f : Evr → Evr) : (s.modEvr f).eg = s.eg := rfl
@[simp] theorem State.modEvr_cgu (s : State) (f : Evr → Evr) : (s.modEvr f).cgu = s.cgu := rfl
@[simp] theorem State.modEvr_ocu (s : State) (f : Evr → Evr) : (s.modEvr f).ocu = s.ocu := rfl
@[simp] theorem State.modEvr_mlk (s : State) (f : Evr → Evr) : (s.modEvr f).mlk = s.mlk := rfl
@[simp] theorem State.modEvr_time (s : State) (f : Evr → Evr) : (s.modEvr f).time = s.time := rfl
@[simp] theorem State.modEvr_acq (s : State) (f : Evr → Evr) : (s.modEvr f).acq = s.acq := rfl
@[simp] theorem State.modEvr_bki (s : State) (f : Evr → Evr) : (s.modEvr f).bki = s.bki := rfl
@[simp] theorem State.modEvr_season (s : State) (f : Evr → Evr) : (s.modEvr f).season = s.season := rfl
@[simp] theorem State.modEvr_faults (s : State) (f : Evr → Evr) : (s.modEvr f).faults = s.faults := rfl
@[simp] theorem State.modEvr_ksu (s : State) (f : Evr → Evr) : (s.modEvr f).ksu = s.ksu := rfl
@[simp] theorem State.modEvr_mbx (s : State) (f : Evr → Evr) : (s.modEvr f).mbx = s.mbx := rfl
@[simp] theorem State.modEvr_persist (s : State) (f : Evr → Evr) : (s.modEvr f).persist = s.persist := rfl
@[simp] theorem State.modEvr_power (s : State) (f : Evr → Evr) : (s.modEvr f).power = s.power := rfl
@[simp] theorem State.modEvr_mon (s : State) (f : Evr → Evr) : (s.modEvr f).mon = s.mon := rfl
@[simp] theorem State.modEvr_free (s : State) (f : Evr → Evr) : (s.modEvr f).free = s.free := rfl
@[simp] theorem State.modEvr_pending (s : State) (f : Evr → Evr) : (s.modEvr f).pending = s.pending := rfl
@[simp] theorem State.modKsu_ksu (s : State) (f : Ksu → Ksu) : (s.modKsu f).ksu = f s.ksu := rfl
@[simp] theorem State.modKsu_fab (s : State) (f : Ksu → Ksu) : (s.modKsu f).fab = s.fab := rfl
@[simp] theorem State.modKsu_ports (s : State) (f : Ksu → Ksu) : (s.modKsu f).ports = s.ports := rfl
@[simp] theorem State.modKsu_head (s : State) (f : Ksu → Ksu) : (s.modKsu f).head = s.head := rfl
@[simp] theorem State.modKsu_wake (s : State) (f : Ksu → Ksu) : (s.modKsu f).wake = s.wake := rfl
@[simp] theorem State.modKsu_sw (s : State) (f : Ksu → Ksu) : (s.modKsu f).sw = s.sw := rfl
@[simp] theorem State.modKsu_sce (s : State) (f : Ksu → Ksu) : (s.modKsu f).sce = s.sce := rfl
@[simp] theorem State.modKsu_insts (s : State) (f : Ksu → Ksu) : (s.modKsu f).insts = s.insts := rfl
@[simp] theorem State.modKsu_sched (s : State) (f : Ksu → Ksu) : (s.modKsu f).sched = s.sched := rfl
@[simp] theorem State.modKsu_eg (s : State) (f : Ksu → Ksu) : (s.modKsu f).eg = s.eg := rfl
@[simp] theorem State.modKsu_cgu (s : State) (f : Ksu → Ksu) : (s.modKsu f).cgu = s.cgu := rfl
@[simp] theorem State.modKsu_ocu (s : State) (f : Ksu → Ksu) : (s.modKsu f).ocu = s.ocu := rfl
@[simp] theorem State.modKsu_mlk (s : State) (f : Ksu → Ksu) : (s.modKsu f).mlk = s.mlk := rfl
@[simp] theorem State.modKsu_time (s : State) (f : Ksu → Ksu) : (s.modKsu f).time = s.time := rfl
@[simp] theorem State.modKsu_acq (s : State) (f : Ksu → Ksu) : (s.modKsu f).acq = s.acq := rfl
@[simp] theorem State.modKsu_bki (s : State) (f : Ksu → Ksu) : (s.modKsu f).bki = s.bki := rfl
@[simp] theorem State.modKsu_season (s : State) (f : Ksu → Ksu) : (s.modKsu f).season = s.season := rfl
@[simp] theorem State.modKsu_faults (s : State) (f : Ksu → Ksu) : (s.modKsu f).faults = s.faults := rfl
@[simp] theorem State.modKsu_evr (s : State) (f : Ksu → Ksu) : (s.modKsu f).evr = s.evr := rfl
@[simp] theorem State.modKsu_mbx (s : State) (f : Ksu → Ksu) : (s.modKsu f).mbx = s.mbx := rfl
@[simp] theorem State.modKsu_persist (s : State) (f : Ksu → Ksu) : (s.modKsu f).persist = s.persist := rfl
@[simp] theorem State.modKsu_power (s : State) (f : Ksu → Ksu) : (s.modKsu f).power = s.power := rfl
@[simp] theorem State.modKsu_mon (s : State) (f : Ksu → Ksu) : (s.modKsu f).mon = s.mon := rfl
@[simp] theorem State.modKsu_free (s : State) (f : Ksu → Ksu) : (s.modKsu f).free = s.free := rfl
@[simp] theorem State.modKsu_pending (s : State) (f : Ksu → Ksu) : (s.modKsu f).pending = s.pending := rfl
@[simp] theorem State.modMbx_mbx (s : State) (f : Mbx → Mbx) : (s.modMbx f).mbx = f s.mbx := rfl
@[simp] theorem State.modMbx_fab (s : State) (f : Mbx → Mbx) : (s.modMbx f).fab = s.fab := rfl
@[simp] theorem State.modMbx_ports (s : State) (f : Mbx → Mbx) : (s.modMbx f).ports = s.ports := rfl
@[simp] theorem State.modMbx_head (s : State) (f : Mbx → Mbx) : (s.modMbx f).head = s.head := rfl
@[simp] theorem State.modMbx_wake (s : State) (f : Mbx → Mbx) : (s.modMbx f).wake = s.wake := rfl
@[simp] theorem State.modMbx_sw (s : State) (f : Mbx → Mbx) : (s.modMbx f).sw = s.sw := rfl
@[simp] theorem State.modMbx_sce (s : State) (f : Mbx → Mbx) : (s.modMbx f).sce = s.sce := rfl
@[simp] theorem State.modMbx_insts (s : State) (f : Mbx → Mbx) : (s.modMbx f).insts = s.insts := rfl
@[simp] theorem State.modMbx_sched (s : State) (f : Mbx → Mbx) : (s.modMbx f).sched = s.sched := rfl
@[simp] theorem State.modMbx_eg (s : State) (f : Mbx → Mbx) : (s.modMbx f).eg = s.eg := rfl
@[simp] theorem State.modMbx_cgu (s : State) (f : Mbx → Mbx) : (s.modMbx f).cgu = s.cgu := rfl
@[simp] theorem State.modMbx_ocu (s : State) (f : Mbx → Mbx) : (s.modMbx f).ocu = s.ocu := rfl
@[simp] theorem State.modMbx_mlk (s : State) (f : Mbx → Mbx) : (s.modMbx f).mlk = s.mlk := rfl
@[simp] theorem State.modMbx_time (s : State) (f : Mbx → Mbx) : (s.modMbx f).time = s.time := rfl
@[simp] theorem State.modMbx_acq (s : State) (f : Mbx → Mbx) : (s.modMbx f).acq = s.acq := rfl
@[simp] theorem State.modMbx_bki (s : State) (f : Mbx → Mbx) : (s.modMbx f).bki = s.bki := rfl
@[simp] theorem State.modMbx_season (s : State) (f : Mbx → Mbx) : (s.modMbx f).season = s.season := rfl
@[simp] theorem State.modMbx_faults (s : State) (f : Mbx → Mbx) : (s.modMbx f).faults = s.faults := rfl
@[simp] theorem State.modMbx_evr (s : State) (f : Mbx → Mbx) : (s.modMbx f).evr = s.evr := rfl
@[simp] theorem State.modMbx_ksu (s : State) (f : Mbx → Mbx) : (s.modMbx f).ksu = s.ksu := rfl
@[simp] theorem State.modMbx_persist (s : State) (f : Mbx → Mbx) : (s.modMbx f).persist = s.persist := rfl
@[simp] theorem State.modMbx_power (s : State) (f : Mbx → Mbx) : (s.modMbx f).power = s.power := rfl
@[simp] theorem State.modMbx_mon (s : State) (f : Mbx → Mbx) : (s.modMbx f).mon = s.mon := rfl
@[simp] theorem State.modMbx_free (s : State) (f : Mbx → Mbx) : (s.modMbx f).free = s.free := rfl
@[simp] theorem State.modMbx_pending (s : State) (f : Mbx → Mbx) : (s.modMbx f).pending = s.pending := rfl
@[simp] theorem State.modPersist_persist (s : State) (f : Persist → Persist) : (s.modPersist f).persist = f s.persist := rfl
@[simp] theorem State.modPersist_fab (s : State) (f : Persist → Persist) : (s.modPersist f).fab = s.fab := rfl
@[simp] theorem State.modPersist_ports (s : State) (f : Persist → Persist) : (s.modPersist f).ports = s.ports := rfl
@[simp] theorem State.modPersist_head (s : State) (f : Persist → Persist) : (s.modPersist f).head = s.head := rfl
@[simp] theorem State.modPersist_wake (s : State) (f : Persist → Persist) : (s.modPersist f).wake = s.wake := rfl
@[simp] theorem State.modPersist_sw (s : State) (f : Persist → Persist) : (s.modPersist f).sw = s.sw := rfl
@[simp] theorem State.modPersist_sce (s : State) (f : Persist → Persist) : (s.modPersist f).sce = s.sce := rfl
@[simp] theorem State.modPersist_insts (s : State) (f : Persist → Persist) : (s.modPersist f).insts = s.insts := rfl
@[simp] theorem State.modPersist_sched (s : State) (f : Persist → Persist) : (s.modPersist f).sched = s.sched := rfl
@[simp] theorem State.modPersist_eg (s : State) (f : Persist → Persist) : (s.modPersist f).eg = s.eg := rfl
@[simp] theorem State.modPersist_cgu (s : State) (f : Persist → Persist) : (s.modPersist f).cgu = s.cgu := rfl
@[simp] theorem State.modPersist_ocu (s : State) (f : Persist → Persist) : (s.modPersist f).ocu = s.ocu := rfl
@[simp] theorem State.modPersist_mlk (s : State) (f : Persist → Persist) : (s.modPersist f).mlk = s.mlk := rfl
@[simp] theorem State.modPersist_time (s : State) (f : Persist → Persist) : (s.modPersist f).time = s.time := rfl
@[simp] theorem State.modPersist_acq (s : State) (f : Persist → Persist) : (s.modPersist f).acq = s.acq := rfl
@[simp] theorem State.modPersist_bki (s : State) (f : Persist → Persist) : (s.modPersist f).bki = s.bki := rfl
@[simp] theorem State.modPersist_season (s : State) (f : Persist → Persist) : (s.modPersist f).season = s.season := rfl
@[simp] theorem State.modPersist_faults (s : State) (f : Persist → Persist) : (s.modPersist f).faults = s.faults := rfl
@[simp] theorem State.modPersist_evr (s : State) (f : Persist → Persist) : (s.modPersist f).evr = s.evr := rfl
@[simp] theorem State.modPersist_ksu (s : State) (f : Persist → Persist) : (s.modPersist f).ksu = s.ksu := rfl
@[simp] theorem State.modPersist_mbx (s : State) (f : Persist → Persist) : (s.modPersist f).mbx = s.mbx := rfl
@[simp] theorem State.modPersist_power (s : State) (f : Persist → Persist) : (s.modPersist f).power = s.power := rfl
@[simp] theorem State.modPersist_mon (s : State) (f : Persist → Persist) : (s.modPersist f).mon = s.mon := rfl
@[simp] theorem State.modPersist_free (s : State) (f : Persist → Persist) : (s.modPersist f).free = s.free := rfl
@[simp] theorem State.modPersist_pending (s : State) (f : Persist → Persist) : (s.modPersist f).pending = s.pending := rfl
@[simp] theorem State.modPower_power (s : State) (f : Power → Power) : (s.modPower f).power = f s.power := rfl
@[simp] theorem State.modPower_fab (s : State) (f : Power → Power) : (s.modPower f).fab = s.fab := rfl
@[simp] theorem State.modPower_ports (s : State) (f : Power → Power) : (s.modPower f).ports = s.ports := rfl
@[simp] theorem State.modPower_head (s : State) (f : Power → Power) : (s.modPower f).head = s.head := rfl
@[simp] theorem State.modPower_wake (s : State) (f : Power → Power) : (s.modPower f).wake = s.wake := rfl
@[simp] theorem State.modPower_sw (s : State) (f : Power → Power) : (s.modPower f).sw = s.sw := rfl
@[simp] theorem State.modPower_sce (s : State) (f : Power → Power) : (s.modPower f).sce = s.sce := rfl
@[simp] theorem State.modPower_insts (s : State) (f : Power → Power) : (s.modPower f).insts = s.insts := rfl
@[simp] theorem State.modPower_sched (s : State) (f : Power → Power) : (s.modPower f).sched = s.sched := rfl
@[simp] theorem State.modPower_eg (s : State) (f : Power → Power) : (s.modPower f).eg = s.eg := rfl
@[simp] theorem State.modPower_cgu (s : State) (f : Power → Power) : (s.modPower f).cgu = s.cgu := rfl
@[simp] theorem State.modPower_ocu (s : State) (f : Power → Power) : (s.modPower f).ocu = s.ocu := rfl
@[simp] theorem State.modPower_mlk (s : State) (f : Power → Power) : (s.modPower f).mlk = s.mlk := rfl
@[simp] theorem State.modPower_time (s : State) (f : Power → Power) : (s.modPower f).time = s.time := rfl
@[simp] theorem State.modPower_acq (s : State) (f : Power → Power) : (s.modPower f).acq = s.acq := rfl
@[simp] theorem State.modPower_bki (s : State) (f : Power → Power) : (s.modPower f).bki = s.bki := rfl
@[simp] theorem State.modPower_season (s : State) (f : Power → Power) : (s.modPower f).season = s.season := rfl
@[simp] theorem State.modPower_faults (s : State) (f : Power → Power) : (s.modPower f).faults = s.faults := rfl
@[simp] theorem State.modPower_evr (s : State) (f : Power → Power) : (s.modPower f).evr = s.evr := rfl
@[simp] theorem State.modPower_ksu (s : State) (f : Power → Power) : (s.modPower f).ksu = s.ksu := rfl
@[simp] theorem State.modPower_mbx (s : State) (f : Power → Power) : (s.modPower f).mbx = s.mbx := rfl
@[simp] theorem State.modPower_persist (s : State) (f : Power → Power) : (s.modPower f).persist = s.persist := rfl
@[simp] theorem State.modPower_mon (s : State) (f : Power → Power) : (s.modPower f).mon = s.mon := rfl
@[simp] theorem State.modPower_free (s : State) (f : Power → Power) : (s.modPower f).free = s.free := rfl
@[simp] theorem State.modPower_pending (s : State) (f : Power → Power) : (s.modPower f).pending = s.pending := rfl
@[simp] theorem State.modMon_mon (s : State) (f : Mon → Mon) : (s.modMon f).mon = f s.mon := rfl
@[simp] theorem State.modMon_fab (s : State) (f : Mon → Mon) : (s.modMon f).fab = s.fab := rfl
@[simp] theorem State.modMon_ports (s : State) (f : Mon → Mon) : (s.modMon f).ports = s.ports := rfl
@[simp] theorem State.modMon_head (s : State) (f : Mon → Mon) : (s.modMon f).head = s.head := rfl
@[simp] theorem State.modMon_wake (s : State) (f : Mon → Mon) : (s.modMon f).wake = s.wake := rfl
@[simp] theorem State.modMon_sw (s : State) (f : Mon → Mon) : (s.modMon f).sw = s.sw := rfl
@[simp] theorem State.modMon_sce (s : State) (f : Mon → Mon) : (s.modMon f).sce = s.sce := rfl
@[simp] theorem State.modMon_insts (s : State) (f : Mon → Mon) : (s.modMon f).insts = s.insts := rfl
@[simp] theorem State.modMon_sched (s : State) (f : Mon → Mon) : (s.modMon f).sched = s.sched := rfl
@[simp] theorem State.modMon_eg (s : State) (f : Mon → Mon) : (s.modMon f).eg = s.eg := rfl
@[simp] theorem State.modMon_cgu (s : State) (f : Mon → Mon) : (s.modMon f).cgu = s.cgu := rfl
@[simp] theorem State.modMon_ocu (s : State) (f : Mon → Mon) : (s.modMon f).ocu = s.ocu := rfl
@[simp] theorem State.modMon_mlk (s : State) (f : Mon → Mon) : (s.modMon f).mlk = s.mlk := rfl
@[simp] theorem State.modMon_time (s : State) (f : Mon → Mon) : (s.modMon f).time = s.time := rfl
@[simp] theorem State.modMon_acq (s : State) (f : Mon → Mon) : (s.modMon f).acq = s.acq := rfl
@[simp] theorem State.modMon_bki (s : State) (f : Mon → Mon) : (s.modMon f).bki = s.bki := rfl
@[simp] theorem State.modMon_season (s : State) (f : Mon → Mon) : (s.modMon f).season = s.season := rfl
@[simp] theorem State.modMon_faults (s : State) (f : Mon → Mon) : (s.modMon f).faults = s.faults := rfl
@[simp] theorem State.modMon_evr (s : State) (f : Mon → Mon) : (s.modMon f).evr = s.evr := rfl
@[simp] theorem State.modMon_ksu (s : State) (f : Mon → Mon) : (s.modMon f).ksu = s.ksu := rfl
@[simp] theorem State.modMon_mbx (s : State) (f : Mon → Mon) : (s.modMon f).mbx = s.mbx := rfl
@[simp] theorem State.modMon_persist (s : State) (f : Mon → Mon) : (s.modMon f).persist = s.persist := rfl
@[simp] theorem State.modMon_power (s : State) (f : Mon → Mon) : (s.modMon f).power = s.power := rfl
@[simp] theorem State.modMon_free (s : State) (f : Mon → Mon) : (s.modMon f).free = s.free := rfl
@[simp] theorem State.modMon_pending (s : State) (f : Mon → Mon) : (s.modMon f).pending = s.pending := rfl

end Sys2Proof.Machine
end

