-- ==== Sys2Proof/Laws/Tables.lean ====
section
/-!
SUPPORT. Laws/Tables.lean: what a table, a list and a byte memory read as after each write to them, and that every operation on a byte
memory keeps its canonical form.
-/
namespace Sys2Proof

/-! ### Tables -/

@[simp] theorem Tbl.get_nil {α : Type} (k : Nat) (d : α) : Tbl.get ([] : Tbl α) k d = d := rfl

@[simp] theorem Tbl.get_set_same {α : Type} (t : Tbl α) (k : Nat) (a d : α) : (t.set k a).get k d = a := by
  induction t with
  | nil => simp [Tbl.set, Tbl.get]
  | cons p t ih =>
    obtain ⟨j, b⟩ := p
    simp only [Tbl.set]
    split
    · simp [Tbl.get]
    · split
      · simp [Tbl.get]
      · rename_i h; simp [Tbl.get, h, ih]

theorem Tbl.get_set_other {α : Type} (t : Tbl α) {k j : Nat} (a d : α) (h : j ≠ k) : (t.set k a).get j d = t.get j d := by
  induction t with
  | nil => simp [Tbl.set, Tbl.get, h.symm]
  | cons p t ih =>
    obtain ⟨i, b⟩ := p
    simp only [Tbl.set]
    split
    · simp [Tbl.get, h.symm]
    · split
      · rename_i e; subst e; simp [Tbl.get, h.symm]
      · simp [Tbl.get, ih]

theorem Tbl.get_set {α : Type} (t : Tbl α) (k j : Nat) (a d : α) : (t.set k a).get j d = if j = k then a else t.get j d := by
  split
  · subst j; simp
  · exact Tbl.get_set_other t a d ‹_›

@[simp] theorem Tbl.get_mod_same {α : Type} (t : Tbl α) (k : Nat) (d e : α) (f : α → α) : (t.mod k d f).get k e = f (t.get k d) := by
  simp [Tbl.mod]

theorem Tbl.get_mod_other {α : Type} (t : Tbl α) {k j : Nat} (d e : α) (f : α → α) (h : j ≠ k) : (t.mod k d f).get j e = t.get j e := by
  simp [Tbl.mod, Tbl.get_set_other _ _ _ h]

theorem Tbl.get_del {α : Type} (t : Tbl α) (k j : Nat) (d : α) : (t.del k).get j d = if j = k then d else t.get j d := by
  unfold Tbl.del
  induction t with
  | nil => simp [Tbl.get]
  | cons p t ih =>
    obtain ⟨i, b⟩ := p
    by_cases e : i = k
    · subst e; rw [List.filter_cons_of_neg (by simp), ih]
      by_cases h : j = i
      · simp [h]
      · simp [Tbl.get, h, Ne.symm h]
    · rw [List.filter_cons_of_pos (by simpa using e)]
      by_cases h : i = j
      · subst h; simp [Tbl.get, e]
      · simp only [Tbl.get, h, if_false, ih]

@[simp] theorem bump_same (t : Tbl Nat) (i n : Nat) : (bump t i n).get i 0 = satAdd 64 (t.get i 0) n := by simp [bump]

theorem bump_other (t : Tbl Nat) {i j : Nat} (n : Nat) (h : j ≠ i) : (bump t i n).get j 0 = t.get j 0 := Tbl.get_set_other _ _ _ h

theorem satAdd_le (w x n : Nat) : satAdd w x n ≤ 2 ^ w - 1 := Nat.min_le_right _ _

theorem satAdd_zero {w x : Nat} (h : x ≤ 2 ^ w - 1) : satAdd w x 0 = x := Nat.min_eq_left h

@[simp] theorem lmod_length {α : Type} (l : List α) (i : Nat) (f : α → α) : (lmod l i f).length = l.length := by
  induction l generalizing i with
  | nil => rfl
  | cons a t ih => cases i <;> simp [lmod, ih]

theorem lmod_getElem? {α : Type} (l : List α) (i j : Nat) (f : α → α) : (lmod l i f)[j]? = if i = j then l[j]?.map f else l[j]? := by
  induction l generalizing i j with
  | nil => simp [lmod]
  | cons a t ih => cases i <;> cases j <;> simp [lmod, ih]

/-! ### Octets -/

@[simp] theorem leBytes_length (n v : Nat) : (leBytes n v).length = n := by
  induction n generalizing v with
  | zero => rfl
  | succ n ih => simp [leBytes, ih]

@[simp] theorem beBytes_length (n v : Nat) : (beBytes n v).length = n := by simp [beBytes]

theorem leNat_leBytes (n v : Nat) : leNat (leBytes n v) = v % 256 ^ n := by
  induction n generalizing v with
  | zero => simp [leBytes, leNat, Nat.mod_one]
  | succ n ih => simp only [leBytes, leNat, ih, BitVec.toNat_ofNat]; rw [show 256 ^ (n + 1) = 256 * 256 ^ n by rw [Nat.pow_succ, Nat.mul_comm], Nat.mod_mul]

/-! ### Byte memories -/

theorem Memory.read1_write1_other (m : Memory) {k j : Nat} (v : Byte) (h : j ≠ k) : (m.write1 k v).read1 j = m.read1 j := by
  induction m with
  | nil => simp only [Memory.write1]; split <;> simp [Memory.read1, h.symm]
  | cons c t ih =>
    obtain ⟨a, b⟩ := c
    simp only [Memory.write1]
    split
    · split <;> simp [Memory.read1, h.symm]
    · split
      · rename_i e; subst e; split <;> simp [Memory.read1, h.symm]
      · simp [Memory.read1, ih]

/-- Every address of a canonical memory's tail lies above its head. -/
theorem Memory.wf_tail {a : Nat} {b : Byte} {t : Memory} (h : Memory.wf ((a, b) :: t) = true) : Memory.wf t = true := by
  cases t with
  | nil => rfl
  | cons c t => obtain ⟨c, d⟩ := c; simp [Memory.wf] at h; exact h.2

theorem Memory.read1_below {a k : Nat} {b : Byte} {t : Memory} (h : Memory.wf ((a, b) :: t) = true) (hk : k < a) : Memory.read1 t k = 0 := by
  induction t generalizing a b with
  | nil => rfl
  | cons c t ih =>
    obtain ⟨c, d⟩ := c
    have h1 : a < c := by simp [Memory.wf] at h; exact h.1.2
    have h2 := Memory.wf_tail h
    have : c ≠ k := by omega
    simp [Memory.read1, this, ih h2 (by omega)]

theorem Memory.read1_at {a : Nat} {b : Byte} {t : Memory} (h : Memory.wf ((a, b) :: t) = true) : Memory.read1 t a = 0 := by
  cases t with
  | nil => rfl
  | cons c t =>
    obtain ⟨c, d⟩ := c
    have h1 : a < c := by simp [Memory.wf] at h; exact h.1.2
    have : c ≠ a := by omega
    simp [Memory.read1, this, Memory.read1_below (Memory.wf_tail h) h1]

/-- A byte written is the byte read back. -/
theorem Memory.read1_write1_same {m : Memory} (k : Nat) (v : Byte) (h : m.wf = true) : (m.write1 k v).read1 k = v := by
  induction m with
  | nil => simp only [Memory.write1]; split <;> simp_all [Memory.read1]
  | cons c t ih =>
    obtain ⟨a, b⟩ := c
    simp only [Memory.write1]
    split
    · rename_i lt
      split
      · rename_i z; subst z
        have : a ≠ k := by omega
        simp [Memory.read1, this, Memory.read1_below h lt]
      · simp [Memory.read1]
    · split
      · rename_i e; subst e
        split
        · rename_i z; subst z; exact Memory.read1_at h
        · simp [Memory.read1]
      · rename_i e; simp [Memory.read1, e, ih (Memory.wf_tail h)]

theorem Memory.wf_cons {a : Nat} {b : Byte} {t : Memory} (hb : b ≠ 0) (ht : Memory.wf t = true) (hl : ∀ c ∈ t, a < c.1) :
    Memory.wf ((a, b) :: t) = true := by
  cases t with
  | nil => simpa [Memory.wf] using hb
  | cons c t => obtain ⟨c, d⟩ := c; simp [Memory.wf, ht]; exact ⟨hb, hl (c, d) (by simp)⟩

theorem Memory.wf_head {a : Nat} {b : Byte} {t : Memory} (h : Memory.wf ((a, b) :: t) = true) : b ≠ 0 := by
  cases t with
  | nil => simpa [Memory.wf] using h
  | cons c t => obtain ⟨c, d⟩ := c; simp [Memory.wf] at h; exact h.1.1

theorem Memory.wf_above {a : Nat} {b : Byte} {t : Memory} (h : Memory.wf ((a, b) :: t) = true) : ∀ c ∈ t, a < c.1 := by
  induction t generalizing a b with
  | nil => simp
  | cons c t ih =>
    obtain ⟨c, d⟩ := c
    have h1 : a < c := by simp [Memory.wf] at h; exact h.1.2
    intro x hx
    rcases List.mem_cons.1 hx with rfl | hx
    · exact h1
    · exact Nat.lt_trans h1 (ih (Memory.wf_tail h) x hx)

theorem Memory.write1_mem {m : Memory} {k : Nat} {v : Byte} {c : Host.Cell} (h : c ∈ m.write1 k v) : c = (k, v) ∨ c ∈ m := by
  induction m with
  | nil => revert h; simp only [Memory.write1]; split <;> simp
  | cons p t ih =>
    obtain ⟨a, b⟩ := p
    revert h
    simp only [Memory.write1]
    split
    · split
      · exact .inr
      · intro h; exact List.mem_cons.1 h
    · split
      · split
        · intro h; exact .inr (List.mem_cons_of_mem _ h)
        · intro h; rcases List.mem_cons.1 h with h | h
          · exact .inl h
          · exact .inr (List.mem_cons_of_mem _ h)
      · intro h; rcases List.mem_cons.1 h with h | h
        · exact .inr (h ▸ List.mem_cons_self)
        · exact (ih h).imp id (List.mem_cons_of_mem _)

/-- Writing a byte keeps the canonical form. -/
theorem Memory.wf_write1 {m : Memory} (k : Nat) (v : Byte) (h : m.wf = true) : (m.write1 k v).wf = true := by
  induction m with
  | nil => simp only [Memory.write1]; split <;> simp_all [Memory.wf]
  | cons c t ih =>
    obtain ⟨a, b⟩ := c
    simp only [Memory.write1]
    split
    · rename_i lt
      split
      · exact h
      · exact Memory.wf_cons ‹_› h fun c hc => by
          rcases List.mem_cons.1 hc with rfl | hc
          · exact lt
          · exact Nat.lt_trans lt (Memory.wf_above h c hc)
    · split
      · rename_i e; subst e
        split
        · exact Memory.wf_tail h
        · exact Memory.wf_cons ‹_› (Memory.wf_tail h) (Memory.wf_above h)
      · refine Memory.wf_cons (Memory.wf_head h) (ih (Memory.wf_tail h)) fun c hc => ?_
        rcases Memory.write1_mem hc with rfl | hc
        · show a < k; omega
        · exact Memory.wf_above h c hc

/-- Writing octets keeps the canonical form. -/
theorem Memory.wf_write {m : Memory} (k : Nat) (l : List Byte) (h : m.wf = true) : (m.write k l).wf = true := by
  induction l generalizing m k with
  | nil => exact h
  | cons b t ih => exact ih (k + 1) (Memory.wf_write1 k b h)

theorem Memory.wf_filter {m : Memory} (p : Host.Cell → Bool) (h : m.wf = true) : Memory.wf (m.filter p) = true := by
  induction m with
  | nil => rfl
  | cons c t ih =>
    obtain ⟨a, b⟩ := c
    rw [List.filter_cons]
    split
    · exact Memory.wf_cons (Memory.wf_head h) (ih (Memory.wf_tail h)) fun c hc => Memory.wf_above h c (List.mem_of_mem_filter hc)
    · exact ih (Memory.wf_tail h)

/-- Clearing a range keeps the canonical form. -/
theorem Memory.wf_clear {m : Memory} (k n : Nat) (h : m.wf = true) : (m.clear k n).wf = true := Memory.wf_filter _ h

/-- Octets written leave every address outside them as it was. -/
theorem Memory.read1_write_other (m : Memory) (k : Nat) (l : List Byte) {j : Nat} (h : j < k ∨ k + l.length ≤ j) :
    (m.write k l).read1 j = m.read1 j := by
  induction l generalizing m k with
  | nil => rfl
  | cons b t ih =>
    simp only [List.length_cons] at h
    rw [Memory.write, ih _ _ (by omega), Memory.read1_write1_other _ _ (by omega)]

/-- Octets written are the octets read back. -/
theorem Memory.read1_write_same {m : Memory} (k : Nat) (l : List Byte) {i : Nat} (hi : i < l.length) (h : m.wf = true) :
    (m.write k l).read1 (k + i) = l[i] := by
  induction l generalizing m k i with
  | nil => exact absurd hi (Nat.not_lt_zero _)
  | cons b t ih =>
    cases i with
    | zero => rw [Memory.write, Memory.read1_write_other _ _ _ (by omega)]; exact Memory.read1_write1_same k b h
    | succ i =>
      have := ih (k := k + 1) (Nat.lt_of_succ_lt_succ hi) (Memory.wf_write1 k b h)
      simpa [Memory.write, Nat.add_assoc, Nat.add_comm 1] using this

theorem Memory.read_length (m : Memory) (k n : Nat) : (m.read k n).length = n := by simp [Memory.read]

theorem Memory.read_getElem (m : Memory) (k n i : Nat) (hi : i < n) : (m.read k n)[i]? = some (m.read1 (k + i)) := by simp [Memory.read, hi]

/-- A range cleared reads 0 and every other address reads as before. -/
theorem Memory.read1_clear (m : Memory) (k n j : Nat) : (m.clear k n).read1 j = if k ≤ j ∧ j < k + n then 0 else m.read1 j := by
  unfold Memory.clear
  induction m with
  | nil => simp [Memory.read1]
  | cons c t ih =>
    obtain ⟨a, b⟩ := c
    rw [List.filter_cons]
    by_cases e : a = j
    · subst e
      by_cases q : a < k ∨ k + n ≤ a
      · have : ¬ (k ≤ a ∧ a < k + n) := by omega
        simp [q, Memory.read1, this]
      · have r : k ≤ a ∧ a < k + n := by omega
        simp only [q, decide_false, Bool.false_eq_true, if_false, ih, r, and_self, if_true]
    · split <;> simp only [Memory.read1, e, if_false, ih]

end Sys2Proof
end

