-- ==== Sys2Proof/Tests/Slice0.lean ====
section
/-!
SUPPORT. Tests/Slice0.lean: small states, ill-formed commands that the check refuses, worked examples of the spec, and for every obligation
with hypotheses a theorem that shows states and operands which meet them, clause by clause.
-/
namespace Sys2Proof.Tests
open Sys2Proof Sys2Proof.Machine
set_option Elab.async false
set_option linter.unusedVariables false

/-! ### States -/

/-- The module in operation: the firmware runs, the mailbox is ready with one request waiting in pair 0, and 100 s have passed. -/
def s0 : State := {
  persist := { fwUp := true, coldStep := 11, started := true }
  mbx := { ready := true, pairs := [(0, { reqTail := 1 })] }
  time := { age := 100000000000 }
  season := { season := .summer }
  evr := { running := true }
  power := { aonGood := true, mainGood := true } }

/-- A frame of legal length that begins with the given octets. -/
def fr (h : List Byte) : List Byte := h ++ List.replicate (60 - h.length) 0

/-- A port up and receiving. -/
def upPort (s : State) (k : Nat) : State := s.setPort k fun p => { p with link := true, rxEn := true, txEn := true }

/-- A TCP template. -/
def tpl : List Byte :=
  [1, 2, 3, 4, 5, 6, 2, 0, 0, 0, 0, 9, 8, 0, 0x45] ++ List.replicate 8 0 ++ [6] ++ List.replicate 22 0 ++ [0x50] ++ List.replicate 7 0

/-- Instance 1 READY in generation 1, with two granules of local store and one of DRAM. -/
def wi (s : State) : State := s.setInst 1 fun _ => {
  state := .ready, gen := 1, lsMap := [10, 11], dramMap := [10], share := { slots := 4, ls := 4, dram := 4, ctx := 9, subs := 9, egress := 99, rx := 9, keys := 9, mir := 9, locks := 9 } }

/-- A core runs instance 1. -/
def running (s : State) : State := (wi s).setPsc 0 fun p => { p with cores := [(0, { entry := 0, inst := 1, gen := 1, hart := 0, a2 := 0, budget := 400 })] }

/-- A sampled-values frame of one ASDU. -/
def svFrame : List Byte :=
  [1, 12, 0xCD, 4, 0, 1, 0, 0, 0, 0, 0, 9, 0x88, 0xBA, 0x40, 0, 0, 44, 0, 0, 0, 0, 0x60, 0x22, 0x80, 1, 1, 0xA2, 0x1D, 0x30, 0x1B, 0x80, 2, 0x41,
    0x42, 0x82, 2, 0, 5, 0x83, 4, 0, 0, 0, 1, 0x85, 1, 2, 0x87, 8, 0, 0, 0, 7, 0, 0, 0, 0]

/-- A frame of a stream. -/
def kF : List Byte := fr [1, 2, 3, 4, 5, 6, 0, 0, 0, 0, 0, 9, 0x88, 0x99]

/-- The first slot of its key. -/
def kIdx (s : State) : Nat := Config.hashIndex s.sw.seed (streamKey kF 1).toNat 0 % 1024 * 8

/-- The stream's entry stands there. -/
def kState (s : State) : State := ((upPort s 3).modSw fun w => { w with
  streams := [(kIdx s, { key := streamKey kF 1, state := .active, ingress := 8, action := 1, ports := 0x10 })], fwd := [] }).modCgu fun c => { c with claimRxEn := false }

/-- A GOOSE control frame with gocbRef "A", stNum 1 and sqNum 2. -/
def gFrame : List Byte := [1, 12, 0xCD, 1, 0, 1, 0, 0, 0, 0, 0, 9, 0x88, 0xB8, 0, 1, 0, 19, 0, 0, 0, 0, 0x61, 9, 0x80, 1, 0x41, 0x85, 1, 1, 0x86, 1, 2]

/-- The copy of it that instance 1 sent. -/
def gCopy : OcuCopy := { octets := gFrame, inst := 1 }

/-- Its key. -/
def gKey : CmpKey := { inst := 1, cbHash := crc32 [0x41], stNum := 1, sqNum := 2 }

/-- Both claim wires are in a round, and the unit has the given role. -/
def inRounds (s : State) (r : Role) : State := s.modCgu fun c => { c with
  unitId := 1, clmEn := true, noTiming := false, role := r, ownClaim := 5
  wires := [{ round := { active := true, claim := 5, drives := true } }, { round := { active := true, claim := 5, drives := true } }] }

/-- Instance 1 is READY on both units, and nothing excuses a divergence of it. -/
def twoUnits (s : State) : State := ((((wi s).modMlk fun m => { m with
  enabledAt := some 0, partner := .present, word := { unit := 2, role := .active, ready := 2 }, mir := [], partnerRun := [], partnerClaim := 7
  lanes := [{ up := true, lastAt := some 99999999000 }, { up := true, lastAt := some 99999999000 }], swHeld := none }).modCgu fun c => { c with
  unitId := 1, role := .standby }).modFaults fun f => { f with sets := [], clocks := [] }).modOcu fun o => { o with en := true, pending := [], takeBlock := false, fSeen := 0 }

/-- Port 0 receives and sends PTP messages. -/
def ptpUp (s : State) : State := (upPort s 0).modTime fun t => { t with
  ports := [(0, { ptpEn := true })], tbStopped := false, oscFailed := false, slewing := false, slewRem := 0, ref := false, refAct := false, cmps := []
  autoSwitch := false, domA := { slave := some 0, gm := some 5 }, domB := { num := 254, slave := some 0, gm := some 5 }, tbNs := 1000 }

/-- The island runs and the module is in SUMMER. -/
def isl (s : State) : State := ((s.modBki fun b => { b with
  running := true, restarting := false, coresHeld := false, noImage := false, outAt := 0, calAt := 0, calEn := true, hbAt := 0, outCnt := 0, outBase := 0
  mgpReset := false, commitPend := false }).modPower fun p => { p with aonGood := true }).modSeason fun x => { x with season := .summer, changing := none }

/-- The module is in WINTER with MAIN there. -/
def wint (s : State) : State := ((isl s).modSeason fun x => { x with season := .winter, winterAge := 5, wakeEn := 7, wakeTimerS := 9 }).modPower fun p => { p with
  mainGood := true, disconnected := false }

/-- The PCI island and the register pages can be reached. -/
def pci (s : State) : State := ((s.modPower fun p => { p with perstLow := false, aonGood := true }).modSeason fun x => { x with season := .summer }).modFaults fun f => { f with clocks := [] }

/-- The KSU is idle, slot 9 is a free slot of the MGP, slot 10 a derivation key of its own, and slot 5 the wrapping key. -/
def kst (s : State) : State := s.modKsu fun k => { k with
  busy := false, rootState := 1, keyIn := 5, labelLen := 1, label := [7], trngOk := true
  slots := [(5, { valid := true, cell := 9 }), (9, { volatile := false, use := 1 }), (10, { valid := true, use := 3, cell := 77, derivable := true })] }

/-- A request about instance 1. -/
def r1 : Req := { inst := some 1, gen := 1 }

/-- A request that names no instance. -/
def r0 : Req := {}

/-- A request whose effect is to do nothing. -/
def noEffect (_ : Req) (s : State) : State × Ans := (s, ⟨.ok, []⟩)

/-- Shares within their ranges. -/
def sh0 : Shares := { slots := 4, ls := 4, dram := 4, ctx := 9, subs := 9, egress := 99, rx := 9, keys := 9, mir := 9, locks := 9 }

/-- An image that verifies under slot 3. -/
def img : Image := { octets := [1, 2], keyHash := 7 }

/-- Slot 3 holds the image key, every pool is free, and nothing is being created. -/
def imgOk (s : State) : State := ((s.modKsu fun k => { k with slots := [(3, { valid := true, use := 4, cell := 7 ^^^ k.pad 3 })] }).modMbx fun m => { m with
  ops := [], macBase := 0x020000000000 }).modInsts fun i => { i with creating := [], desc := [], locks := [], lsOwner := [], dramOwner := [], lsClearing := [], dramClearing := [] }

/-- The event of an unknown stream has told the host. -/
def learning : State := (s0.modSw fun w => { w with learn := [{ id := 7, eventAt := some 5, key := 9 }] }).modInsts fun i => { i with desc := [] }

/-- The slot that its key takes. -/
def learnSlot : Nat := Config.hashIndex s0.sw.seed (9 : BitVec 128).toNat 0 % 1024 * 8

/-- The state once its entry stands there. -/
def learnedState : State :=
  learnClose 9 (commitNow (putChanges { op := .putStream, stream := { key := 9, learned := true } } (learnSlot, none)) (take r0 learning))

/-- A module that waits for t_R in SPRING: its supplies have been on for 100 s. -/
def cold : State := ((((isl s0).modSeason fun x => { x with season := .spring }).modPower fun _ => { aonGood := true, mainGood := true, slotId := 2 }).modPersist fun p => { p with
  coldStep := 0, fwUp := false, started := false }).modBki fun b => { b with mgpReset := true, hb := 0 }

/-- A request with tag 7 has been answered a nanosecond ago. -/
def cached : State := s0.modMbx fun m => { m with pairs := [(0, { reqTail := 1, cache := [{ tag := 7, crc := 5, atNs := 99999999999 }] })] }

/-! ### Ill-formed commands -/

theorem test_wf_port : (Instr.linkUp 8).wf = false := by decide
theorem test_wf_arbiter : (Instr.arbCtlModeWrite 37 true).wf = false := by decide
theorem test_wf_core : (Instr.coreAccess 64 {}).wf = false := by decide
theorem test_wf_entry_index : (Instr.entryHoldoffEnd 24576).wf = false := by decide
theorem test_wf_instance : (Instr.autoReset 512).wf = false := by decide
theorem test_wf_lock : (Instr.lockRelease .mgp 256 0).wf = false := by decide
theorem test_wf_egress_queue : (Instr.egressDescriptor 1 2).wf = false := by decide
theorem test_wf_cluster : (Instr.frameStart 8).wf = false := by decide
theorem test_wf_table_entry : (Instr.slotStart 0 128).wf = false := by decide
theorem test_wf_wire : (Instr.claimRoundJoin 2).wf = false := by decide
theorem test_wf_lane : (Instr.laneDown 2).wf = false := by decide
theorem test_wf_comparator : (Instr.comparatorFire 32).wf = false := by decide
theorem test_wf_stream : (Instr.acqFlush 4).wf = false := by decide
theorem test_wf_cursor : (Instr.cursorLoadComplete 4).wf = false := by decide
theorem test_wf_key_slot : (Instr.keySave 1024).wf = false := by decide
theorem test_wf_pair : (Instr.pairReset 16).wf = false := by decide
theorem test_wf_transmit_queue : (Instr.pauseAgeingDiscard 0 8).wf = false := by decide
theorem test_wf_good : (Instr.pauseAgeingDiscard 7 7).wf = true := by decide

/-! ### Worked examples of the spec -/

/-- The example of R38 and R52: among cluster 5 (10), ACQ (8) and PCI (11), with cluster 3 spent, PCI wins. -/
def harnwick : Arbiter := { Arbiter.reset 16 with
  prio := [10, 10, 10, 10, 10, 10, 10, 10, 6, 8, 12, 11, 2], spent := [3], waiting := [{ idx := 3 }, { idx := 5 }, { idx := 9 }, { idx := 11 }] }
theorem test_native_pci : harnwick.winner 13 = some 11 := by decide
/-- Then, with PCI served, cluster 5, and at last the spent cluster 3. -/
theorem test_native_cluster5 : { harnwick with waiting := [{ idx := 3 }, { idx := 5 }, { idx := 9 }] }.winner 13 = some 5 := by decide
theorem test_native_spent : { harnwick with waiting := [{ idx := 3 }] }.winner 13 = some 3 := by decide

/-- R57: the reader of a poisoned word finds S0 = 0 and S1 = 0xEE. -/
theorem test_poison : (syn0 { word := poison (encodeWord 5 []) }, syn1 { word := poison (encodeWord 5 []) }) = (0, 0xEE) := by decide +kernel
/-- R56: a sound word has both syndromes 0. -/
theorem test_codeword : (syn0 { word := encodeWord 0x1234 [7] , addr := [7] }, syn1 { word := encodeWord 0x1234 [7], addr := [7] }) = (0, 0) := by
  decide +kernel
/-- R56: one stored symbol in error is corrected; a word of another address is refused. -/
theorem test_one_symbol : syndromeKind (syn0 { word := addSymbol (encodeWord 5 [7]) 3 0x21, addr := [7] })
    (syn1 { word := addSymbol (encodeWord 5 [7]) 3 0x21, addr := [7] }) 1 = some 0 := by decide +kernel
theorem test_wrong_address : syndromeKind (syn0 { word := encodeWord 5 [7], addr := [8] }) (syn1 { word := encodeWord 5 [7], addr := [8] }) 1 = some 3 := by
  decide +kernel

/-- R387, with its example: a correction of the DMC has code 0x240. -/
theorem test_finding_code : findingCode .dmc 0 = 0x240 := by decide
/-- The example of R283: INCR = -31,783 reads 0xFFFF83D9. -/
theorem test_incr : unsigned 32 (-31783) = 0xFFFF83D9 := by decide
/-- R293 and the example of R294: a slew of 1,250 ns ends 12.514 s after its start, to the millisecond. -/
theorem test_slew : slewGain 6257500000 (1250 * 2 ^ 32) = 1250 * 2 ^ 32 := by decide
theorem test_slew_before : slewGain 6257000000 (1250 * 2 ^ 32) ≠ 1250 * 2 ^ 32 := by decide
/-- R149: the presets' decimation and group delay. -/
theorem test_presets : ((List.range 5).map presetD, (List.range 5).map presetTaps) = ([1, 2, 3, 6, 12], [15, 31, 47, 95, 191]) := by decide
/-- R175: the generation after 0xFFFF is 1. -/
theorem test_generation : nextGen 0xFFFF = 1 := by decide
/-- R252: a claim of a higher number wins whatever the unit ID. -/
theorem test_claim_order : roundResult 1 { round := { active := true, claim := 2, drives := true } } { inRound := true, claim := 3, unit := 2 } = 1 := by decide
/-- R254: the unit that is OUT drives the start bit only, so the other unit's claim wins. -/
theorem test_claim_out : roundResult 1 { round := { active := true, claim := 2, drives := false } } { inRound := true, claim := 1, unit := 2 } = 1 := by decide

/-- A request of pair 0 that passes every check for opcode 0, which no stop of R196 lets through, passes them for every opcode. -/
theorem clearOf {r : Req} {sub : Subset} {need : Bool} {s : State}
    (h : r.src = .host 0 ∧ takeable r s = true ∧ s.written r.src = none ∧ r.crcOk = true ∧ r.slow = false
      ∧ ((liveCache (s.mbx.pairs.get 0 {}).cache (take r s)).find? fun t => t.tag == r.tag) = none
      ∧ precheck 0 r sub need (take r s) = none) : Req.clear r sub need s := by
  obtain ⟨h1, h2, h3, h4, h5, h6, h7⟩ := h
  have hi : ∀ op, instCheck 0 r need (take r s) = none → instCheck op r need (take r s) = none := by
    intro op hc
    unfold instCheck at hc ⊢
    split at hc
    · exact hc
    · split_ifs at hc ⊢ <;> simp_all [lifeOps]
  refine ⟨0, h1, h2, h3, h4, h5, h6, fun op => ?_⟩
  unfold precheck at h7 ⊢
  cases hp : permCheck r sub with
  | some e => simpa [hp] using h7
  | none =>
    cases hc : instCheck 0 r need (take r s) with
    | some e => simp only [hp, hc] at h7; split_ifs at h7
    | none => simpa only [hp, hc, hi op hc] using h7

/-- The image of the tests verifies. -/
theorem imageOf (s : State) : imageVerified img (imgOk s) = true := by
  simp [imageVerified, img, imgOk, State.slotValue, State.slot, State.modKsu, State.modMbx, State.modInsts, Ksu.pad, Tbl.get]

/-- A supply that has had 100 s stands at its voltage, whatever its slew rate. -/
theorem slewed_full : slewed 0 3600 0 100000000000 = 3600 := by
  have h : 1 ≤ slewRate := by unfold slewRate; omega
  have h2 : 3600 ≤ (100000000000 - 0) * slewRate / 1000 := by omega
  show (if 0 ≤ 3600 then min 3600 (0 + (100000000000 - 0) * slewRate / 1000) else max 3600 (0 - (100000000000 - 0) * slewRate / 1000)) = 3600
  rw [if_pos (by omega), Nat.min_eq_left (by omega)]

/-- R56: a word that nothing has changed leaves its decoder as it was stored. -/
theorem seen_data (off : Nat) (d x : BitVec 128) (st : Storage) (a : Nat) :
    (decodeWord (WordRead.seen { off := off, data := x } st a d)).data = d := by
  simpa [WordRead.seen, Storage.codeword] using decodeWord_data d (st.symbols a)

/-- The rails have had the time to ramp. -/
theorem cold_ramped : cold.power.rampAt + rampNs ≤ cold.now := by
  have h : 1 ≤ slewRate := by unfold slewRate; omega
  have h1 : slewRate ≤ 20 := by unfold slewRate; omega
  have h2 : rampNs ≤ 3600000 + slewRate - 1 := Nat.div_le_self _ _
  have h3 : cold.power.rampAt = 0 := rfl
  have h4 : cold.now = 100000000000 := rfl
  omega

/-- They stand at 900 mV. -/
theorem cold_full : cold.railsFull = true := by
  have hl : ∀ k, cold.railLevel k = 3600 := fun k => slewed_full
  have hv : cold.vfLevel = 900 := by
    show slewed 0 3600 0 100000000000 / 4 = 900
    rw [slewed_full]
  have hb : cold.power.badRails = [] := rfl
  simp [State.railsFull, hl, hv, hb]

/-- The stream's entry is found at its first slot. -/
theorem kState_lookup :
    streamLookup (streamKey (received 3 kF (kState s0)).octets (received 3 kF (kState s0)).vid) (kState s0) = some (kIdx s0) := by
  have hk : streamKey (received 3 kF (kState s0)).octets (received 3 kF (kState s0)).vid = streamKey kF 1 := by decide +kernel
  rw [hk]
  have hs : (streamSlots (streamKey kF 1) (kState s0)) = kIdx s0 :: (streamSlots (streamKey kF 1) (kState s0)).tail := by
    simp [streamSlots, kIdx, kState, List.range_succ, State.modSw, State.modCgu, upPort, State.setPort, State.modPorts]
  have he : ((kState s0).stream (kIdx s0)) = { key := streamKey kF 1, state := .active, ingress := 8, action := 1, ports := 0x10 } := by
    simp [kState, State.stream, State.modSw, State.modCgu, Tbl.get]
  unfold streamLookup
  rw [hs, List.find?_cons]
  simp [he]

/-! ### The obligations' hypotheses can be met -/

/-- Entry 3 alone is active: no other slot holds its key. -/
theorem noTwin : streamTwin 3 0 ((s0.setStream 3 fun e => { e with state := .active, refCur := 2 }).modSw fun w => { w with applying := [{ idx := 3, op := .putStream }] }) = none := by
  simp only [streamTwin, List.find?_eq_none]
  intro j _
  by_cases h : j = 3 <;> simp [h, State.stream, State.setStream, State.modSw, Tbl.get_set_other, s0]

/-- Forwarding entry 20,000 alone is active. -/
theorem noFwdTwin : fwdTwin 20000 0 ((s0.setFwd 20000 fun e => { e with state := .active, refCur := 2 }).modSw fun w => { w with applying := [{ idx := 20000, op := .putFwd }] }) = none := by
  simp only [fwdTwin, List.find?_eq_none]
  intro j _
  by_cases h : j = 20000 <;> simp [h, State.fwdE, State.setFwd, State.modSw, Tbl.get_set_other, s0]

/-- The key that is to stand in entry 3 stands in its first slot. -/
theorem twinAt : streamTwin 3 (streamKey kF 1) ((s0.setStream (kIdx s0) fun e => { e with key := streamKey kF 1, state := .active }).modSw fun w => { w with applying := [{ idx := 3, op := .putStream, stream := { key := streamKey kF 1 } }] }) = some (kIdx s0) := by
  have hne : kIdx s0 ≠ 3 := by unfold kIdx; omega
  generalize hS : (s0.setStream (kIdx s0) fun e => { e with key := streamKey kF 1, state := .active }).modSw (fun w => { w with applying := [{ idx := 3, op := .putStream, stream := { key := streamKey kF 1 } }] }) = S
  have hs : streamSlots (streamKey kF 1) S = kIdx s0 :: (streamSlots (streamKey kF 1) S).tail := by
    subst hS; simp [streamSlots, kIdx, List.range_succ, State.modSw, State.setStream]
  have he : (S.stream (kIdx s0)).state = .active ∧ (S.stream (kIdx s0)).key = streamKey kF 1 := by
    subst hS; simp [State.stream, State.setStream, State.modSw]
  have hb : (kIdx s0 != 3) = true := bne_iff_ne.mpr hne
  unfold streamTwin
  rw [hs, List.find?_cons]
  simp [he, hb]

/-- No slot is in use. -/
theorem noTwinFree : streamTwin 3 0 (s0.modSw fun w => { w with applying := [{ idx := 3, op := .putStream }] }) = none := by
  simp only [streamTwin, List.find?_eq_none]
  intro j _
  simp [State.stream, State.modSw, s0]

/-- Entry 3 is free there. -/
theorem twinFree : (((s0.setStream (kIdx s0) fun e => { e with key := streamKey kF 1, state := .active }).modSw fun w => { w with applying := [{ idx := 3, op := .putStream, stream := { key := streamKey kF 1 } }] }).stream 3).state = .free := by
  have hne : 3 ≠ kIdx s0 := by unfold kIdx; omega
  show ((s0.sw.streams.set (kIdx s0) _).get 3 {}).state = .free
  rw [Tbl.get_set_other _ _ _ hne]
  rfl

/-- The key is admitted into its first slot. -/
theorem learn_admitted : admitLearned { key := 9, rate := learnedRate { id := 7, eventAt := some 5, key := 9 } } (take r0 learning)
    = .inr (learnSlot, learnedState) := by
  have hp : planned (take r0 learning) = take r0 learning := rfl
  have hw : (take r0 learning).sw.streams = [] := rfl
  have hf : (take r0 learning).sw.fwd = [] := rfl
  have hs : streamSlots 9 (take r0 learning) = learnSlot :: (streamSlots 9 (take r0 learning)).tail := by
    have hd : (take r0 learning).sw.seed = s0.sw.seed := rfl
    simp [streamSlots, learnSlot, List.range_succ, hd]
  have hk : keySlot true 9 (take r0 learning) = none := by
    simp only [keySlot, if_true, streamTwin, List.find?_eq_none]
    intro j _
    simp [State.stream, hw]
  have hi : isFree learnSlot (take r0 learning) = true := by
    simp [isFree, State.stream, State.fwdE, hw, hf]
  have h1 : place true 9 (take r0 learning) = some (learnSlot, none) := by
    simp only [place, hp, hk, if_true]
    rw [hs, List.find?_cons]
    simp [hi]
  have h2 : entryAdmit { key := 9 }
      ((putChanges { op := .putStream, stream := { key := 9, learned := true } } (learnSlot, none)).foldl (fun s c => afterChange c s)
        (committed (take r0 learning))).sw.streams
      ((putChanges { op := .putStream, stream := { key := 9, learned := true } } (learnSlot, none)).foldl (fun s c => afterChange c s)
        (committed (take r0 learning))).sw.bitmaps
      (take r0 learning) = none := by decide +kernel
  have h3 : learnedRate { id := 7, eventAt := some 5, key := 9 } = 0 := by decide
  simp only [admitLearned, h1, h3, h2, learnedState]


theorem witness_IdleStepPassesOneTick :
  ∃ (s : State), s.pending = [] ∧ (s.entering && s.framesStopped) = false :=
  ⟨s0, by decide +kernel⟩

theorem witness_StepKeepsMemoriesCanonical :
  ∃ (s t : State), s.memOk ∧ step s = .next t :=
  ⟨s0, (match step s0 with | .next t => t | _ => s0), by simp only [State.memOk]; decide +kernel, rfl⟩

theorem witness_StepKeepsIdentity :
  ∃ (s t : State), step s = .next t :=
  ⟨s0, (match step s0 with | .next t => t | _ => s0), rfl⟩

theorem witness_NativeArbiterDecision :
  ∃ (arb : Nat) (rs : List ArbWait) (beats : Nat) (s : State), arb < 37 ∧ (s.arb arb).modeTaken.mode = false
    ∧ (∀ r ∈ (s.arb arb).waiting, r.idx < arbReq arb) ∧ ((s.arb arb).raised (arbReq arb) rs).waiting ≠ [] :=
  ⟨0, [{ idx := 1 }, { idx := 2 }], 8, s0, by decide +kernel⟩

theorem witness_CompatibleArbiterBacksOff :
  ∃ (arb : Nat) (beats : Nat) (s : State), arb < 37 ∧ (s.arb arb).modeTaken.mode = true ∧ (∀ r ∈ (s.arb arb).waiting, r.idx < arbReq arb)
    ∧ (s.arb arb).waiting ≠ [] ∧ ((s.arb arb).waiting.map ArbWait.idx).Nodup :=
  ⟨0, 8, (s0.modFab fun f => { f with arbs := f.arbs.set 0 { mode := true, waiting := [{ idx := 0 }, { idx := 1 }] } }), by decide +kernel⟩

theorem witness_FabricScrubbingAndSupplies :
  (∃ (arb : Nat) (rs : List ArbWait) (beats : Nat) (s : State), arb < 37 ∧ (s.arb arb).parked = true)
  ∧ (∃ (arb idx past beats : Nat) (s : State), (s.arb arb).backoffEnd.has idx = true ∧ (s.arb arb).backoffEnd.get idx 0 ≤ s.now
      ∧ (s.arb arb).busy = true)
  ∧ (∃ (b : BlockId) (u tag : Nat) (owner : Master) (waited : Nat) (s : State), timeoutOf b u s ≤ waited)
  ∧ (∃ (b : BlockId) (u tag : Nat) (o : PendingOp) (s : State), s.fab.ops.find? (pendingAs b u tag) = some o ∧ o.acc.isSome = true
      ∧ s.clockUp .dmc = false)
  ∧ (∃ (b : BlockId) (u tag : Nat) (o : PendingOp) (s : State), s.fab.ops.find? (pendingAs b u tag) = some o ∧ o.acc = none)
  ∧ (∃ (loc : MemLoc) (word : WordRead) (changed : Bool) (s : State), (readFound loc.finder.1 loc.finder.2.1 (loc.seen word s) s).syn.kind = none
      ∧ (s.fset loc.finder.1 loc.finder.2.1).injArm = false)
  ∧ (∃ (loc : MemLoc) (word : WordRead) (changed : Bool) (s : State), (readFound loc.finder.1 loc.finder.2.1 (loc.seen word s) s).syn.kind = some 0
      ∧ (s.fset loc.finder.1 loc.finder.2.1).injArm = false)
  ∧ (∃ (rail : Rail) (mv us : Nat) (s : State), 700 ≤ mv ∧ mv < 720)
  ∧ (∃ (rail : Rail) (mv us : Nat) (s : State), mv < 700 ∧ 10 < us)
  ∧ (∃ (island : Island) (s : State), s.faults.clocks.get island.num false = true ∧ (island = .dmc → ∀ o ∈ s.fab.ops, o.acc = none)) :=
  ⟨⟨0, [{ idx := 1 }], 8, (s0.modFab fun f => { f with arbs := f.arbs.set 0 { parked := true } }), by decide +kernel⟩,
   ⟨0, 1, 3, 8, (s0.modFab fun f => { f with arbs := f.arbs.set 0 { backoffEnd := [(1, 5)], busy := true, beatsLeft := 8 } }), by decide +kernel⟩,
   ⟨.swc, 0, 3, .mgp, 100000000, s0, by decide +kernel⟩,
   ⟨(.swc), 0, 3, { block := .swc, tag := 3, released := true, acc := some { addr := dramBase, write := true, octets := [1] } }, ((s0.modFaults fun f => { f with clocks := [(Island.dmc.num, true)] }).modFab fun f => { f with ops := [{ block := .swc, tag := 3, released := true, acc := some { addr := dramBase, write := true, octets := [1] } }] }), by decide +kernel⟩,
   ⟨.swc, 0, 3, { block := .swc, tag := 3, released := true }, (s0.modFab fun f => { f with ops := [{ block := .swc, tag := 3, released := true }] }), by decide +kernel⟩,
   ⟨(.link .swc 0 5 .none 0), {}, false, s0, by decide +kernel⟩,
   ⟨(.link .swc 0 5 .none 0), { err := 1 }, false, s0, by decide +kernel⟩,
   ⟨.vf, 710, 0, s0, by decide +kernel⟩,
   ⟨.vf, 600, 11, s0, by decide +kernel⟩,
   ⟨.cu, (s0.modFaults fun f => { f with clocks := [(4, true)] }), by decide +kernel⟩⟩

theorem witness_CorrectionsAreOnlyCounted :
  ∃ (f : Finding) (s : State), f.cls = 1 ∧ f.inj = false :=
  ⟨{ block := .swc, kind := 0, cls := 1 }, s0, by decide +kernel⟩

theorem witness_ContainedFindingEntersFaultState :
  ∃ (f : Finding) (s : State), f.cls = 2 :=
  ⟨{ block := .swc, kind := 1, cls := 2 }, s0, by decide +kernel⟩

theorem witness_UnitFailureSetsUnitF :
  ∃ (f : Finding) (s : State), f.cls = 3 ∧ f.block ≠ .mgp :=
  ⟨{ block := .tbu, kind := 5, cls := 3 }, s0, by decide +kernel⟩

theorem witness_ReceptionDiscardsBeforeTheSwitch :
  (∃ (k : Nat) (f : List Byte) (fcsOk : Bool) (line : LineErrs) (s : State), k < 8 ∧ (s.port k).link = true ∧ s.season.season ≠ .winter
      ∧ (s.port k).rxEn = false)
  ∧ (∃ (k : Nat) (f : List Byte) (fcsOk : Bool) (line : LineErrs) (c : Nat) (s : State), k < 8 ∧ (s.port k).link = true
      ∧ s.season.season ≠ .winter ∧ (s.port k).rxEn = true ∧ badFrame (frameLen f) (s.port k).maxFrame fcsOk = some c)
  ∧ (∃ (k : Nat) (f : List Byte) (line : LineErrs) (s : State), k < 8 ∧ (s.port k).link = true ∧ s.season.season ≠ .winter
      ∧ (s.port k).rxEn = true ∧ 64 ≤ frameLen f ∧ frameLen f ≤ (s.port k).maxFrame ∧ isTagged f = true ∧ tci f % 4096 = 4095) :=
  ⟨⟨3, (fr []), true, {}, (s0.setPort 3 fun p => { p with link := true }), by decide +kernel⟩,
   ⟨3, (fr []), false, {}, 4, (upPort s0 3), by decide +kernel⟩,
   ⟨3, (fr [1, 2, 3, 4, 5, 6, 0, 0, 0, 0, 0, 9, 0x81, 0x00, 0x0F, 0xFF]), {}, (upPort s0 3), by decide +kernel⟩⟩

theorem witness_PauseFramesActAtTheirPausePoint :
  (∃ (k : Nat) (f : List Byte) (line : LineErrs) (s : State), k < 8 ∧ (s.port k).link = true ∧ s.season.season ≠ .winter
      ∧ (s.port k).rxEn = true ∧ 64 ≤ frameLen f ∧ frameLen f ≤ (s.port k).maxFrame ∧ etherType f = 0x8808 ∧ ¬(isTagged f = true
      ∧ tci f % 4096 = 4095))
  ∧ (∃ (p : Port) (at_ quanta now : Nat), p.pauseNext = [(at_, quanta)]) :=
  ⟨⟨3, (fr [1, 0x80, 0xC2, 0, 0, 1, 0, 0, 0, 0, 0, 9, 0x88, 0x08, 0, 1, 0, 9]), {}, ((upPort s0 3).setPort 3 fun p => { p with pauseRx := true }), by decide +kernel⟩,
   ⟨{ pauseNext := [(5, 7)] }, 5, 7, 9, by decide +kernel⟩⟩

theorem witness_PauseRunsEnd :
  (∃ (k : Nat) (s : State), k < 8 ∧ let p := (s.port k).settled s.now; p.paused = true ∧ p.pauseEnd ≤ p.runEnd ∧ p.pauseEnd ≤ s.now)
  ∧ (∃ (k : Nat) (s : State), k < 8 ∧ let p := (s.port k).settled s.now; p.paused = true ∧ p.runEnd < p.pauseEnd ∧ p.runEnd ≤ s.now)
  ∧ (∃ (k q : Nat) (c : TxCopy) (s : State), k < 8 ∧ ((s.port k).queues.get q []).head? = some c ∧ c.cls = q
      ∧ (s.port k).blocked s.now = true ∧ (s.stored c.frame).age + us c.limitUs ≤ s.now) :=
  ⟨⟨3, (s0.setPort 3 fun p => { p with paused := true, pauseQuanta := 5, pauseFrom := 0, pauseRunFrom := some 0 }), by decide +kernel⟩,
   ⟨3, (s0.setPort 3 fun p => { p with paused := true, pauseQuanta := 5, pauseFrom := 5000000, pauseRunFrom := some 0 }), by decide +kernel⟩,
   ⟨3, 2, { cls := 2, limitUs := 10 }, (s0.setPort 3 fun p => { p with paused := true, rate := 0, pauseRunFrom := none, pauseQuanta := 65535, pauseFrom := 99999999000, queues := [(2, [{ cls := 2, limitUs := 10 }])] }), by decide +kernel⟩⟩

theorem witness_LinksAndTransceivers :
  (∃ (k : Nat) (s : State), k < 8 ∧ (s.port k).link = true)
  ∧ (∃ (k : Nat) (s : State), k < 8 ∧ (s.port k).link = false ∧ linkPossible k s = true)
  ∧ (∃ (k : Nat) (sfp : Option Nat) (s : State), isCage k = true)
  ∧ (∃ (k : Nat) (s : State), isCage k = true)
  ∧ (∃ (k : Nat) (s : State), isCage k = true ∧ (s.port k).sfpPresent = true)
  ∧ (∃ (k : Nat) (s : State), k < 8)
  ∧ (∃ (k : Nat) (s : State), k < 8) :=
  ⟨⟨3, ((upPort s0 3).setPort 3 fun p => { p with sending := some {}, queues := [(2, [{ cls := 2 }, { cls := 2 }])] }), by decide +kernel⟩,
   ⟨6, (s0.setPort 6 fun p => { p with attach := 1 }), by decide +kernel⟩,
   ⟨4, (some 1), s0, by decide +kernel⟩,
   ⟨4, (upPort s0 4), by decide +kernel⟩,
   ⟨4, ((upPort s0 4).setPort 4 fun p => { p with sfpPresent := true }), by decide +kernel⟩,
   ⟨3, s0, by decide +kernel⟩,
   ⟨3, ((upPort s0 3).setPort 3 fun p => { p with queues := [(2, [{ cls := 2 }])] }), by decide +kernel⟩⟩

theorem witness_TransmissionTakesTheHighestQueue :
  (∃ (k : Nat) (c : TxCopy) (word : WordRead) (s : State), k < 8 ∧ (∀ n, n < 4 → (s.acqS n).port = k → (s.acqS n).frames = [])
      ∧ (s.port k).link = true ∧ (s.port k).txEn = true ∧ (s.port k).blocked s.now = false ∧ (s.port k).sending = none
      ∧ (s.port k).head = some c ∧ agedOut c s = false ∧ (wireOf k c (s.stored c.frame) s).1.length + 4 ≤ (s.port k).maxFrame
      ∧ (s.stored c.frame).crcOk = true ∧ (readFound .swc 0 ((MemLoc.buffer c.frame).seen word s) s).syn.kind = none
      ∧ (s.fset .swc 0).injArm = false
      ∧ (s.stored c.frame).asRead word.off (readFound .swc 0 ((MemLoc.buffer c.frame).seen word s) s).syn.data = (s.stored c.frame).octets)
  ∧ (∃ (k : Nat) (c : TxCopy) (word : WordRead) (s : State), k < 8 ∧ (∀ n, n < 4 → (s.acqS n).port = k → (s.acqS n).frames = [])
      ∧ (s.port k).sending = some c ∧ (s.port k).txEn = false)
  ∧ (∃ (p : Port) (c : TxCopy), p.head = some c) :=
  ⟨⟨3, { cls := 2, limitUs := 1000 }, {}, (((upPort s0 3).setPort 3 fun p => { p with queues := [(2, [{ cls := 2, limitUs := 1000 }])] }).modSw fun w => { w with store := [(0, { octets := fr [], age := 100000000000, copies := 1 })] }), by and_intros <;> first | (rw [readFound_plain _ _ _ _ (by decide +kernel)]; exact seen_sound 0 _ 0 _ _) | (rw [readFound_plain _ _ _ _ (by decide +kernel)]; unfold MemLoc.seen; rw [seen_data 0]; decide +kernel) | decide +kernel⟩,
   ⟨3, {}, {}, (s0.setPort 3 fun p => { p with sending := some {}, wire := fr [] }), by decide +kernel⟩,
   ⟨{ queues := [(2, [{ cls := 2 }])] }, { cls := 2 }, by decide +kernel⟩⟩

theorem witness_LargeSendsAndRingsComplete :
  (∃ (k : Nat) (x : LargeSend) (s : State), k < 8 ∧ (∀ i g, x.inst = some (i, g) → s.genCurrent i g = true)
      ∧ sendRefused k (x.given s) s = none)
  ∧ (∃ (k : Nat) (x : LargeSend) (rest : List LargeSend) (s : State), (s.port k).sends = x :: rest
      ∧ (∀ i g, x.inst = some (i, g) → s.genCurrent i g = true
      ∧ admits (s.inst i).useEgress (cellsOf ((nextSegment (ipRoom k x.vid s) x (x.data s)).1.length + 4)) (s.inst i).share.egress = true)
      ∧ x.stalled s = false)
  ∧ (∃ (k : Nat) (x : LargeSend) (rest : List LargeSend) (i g : Nat) (s : State), (s.port k).sends = x :: rest ∧ x.inst = some (i, g)
      ∧ s.genCurrent i g = true
      ∧ (x.stalled s = true ∨ admits (s.inst i).useEgress (cellsOf ((nextSegment (ipRoom k x.vid s) x (x.data s)).1.length + 4)) (s.inst i).share.egress = false))
  ∧ (∃ (k : Nat) (x : LargeSend) (rest : List LargeSend) (i g : Nat) (s : State), (s.port k).sends = x :: rest ∧ x.inst = some (i, g)
      ∧ s.genCurrent i g = false)
  ∧ (∃ (s : State), s.pciUp = false)
  ∧ (∃ (v : Deliver) (q : List Deliver) (s : State), s.sw.hostQ = v :: q ∧ s.pciUp = true)
  ∧ (∃ (v : Deliver) (q : List Deliver) (s : State), s.sw.instQ = v :: q) :=
  ⟨⟨3, { template := tpl, payload := [1, 2, 3], mss := 100, vid := 1 }, (upPort s0 3), by and_intros <;> first | (intro i g h; cases h) | decide +kernel⟩,
   ⟨3, { template := tpl, payload := [1, 2, 3], mss := 2, vid := 1 }, [], ((upPort s0 3).setPort 3 fun p => { p with sends := [{ template := tpl, payload := [1, 2, 3], mss := 2, vid := 1 }] }), by and_intros <;> first | (intro i g h; cases h) | decide +kernel⟩,
   ⟨3, { template := tpl, payload := [1, 2, 3], mss := 2, vid := 1, inst := some (1, 1), addr := dramBase, len := 3 }, [], 1, 1, (((wi (upPort s0 3)).modFaults fun f => { f with clocks := [(Island.dmc.num, true)] }).setPort 3 fun p => { p with sends := [{ template := tpl, payload := [1, 2, 3], mss := 2, vid := 1, inst := some (1, 1), addr := dramBase, len := 3 }] }), by decide +kernel⟩,
   ⟨3, { template := tpl, payload := [1, 2, 3], mss := 2, vid := 1, inst := some (1, 2), addr := dramBase, len := 3 }, [], 1, 2, ((wi (upPort s0 3)).setPort 3 fun p => { p with sends := [{ template := tpl, payload := [1, 2, 3], mss := 2, vid := 1, inst := some (1, 2), addr := dramBase, len := 3 }] }), by decide +kernel⟩,
   ⟨(s0.modPower fun p => { p with perstLow := true }), by decide +kernel⟩,
   ⟨{ frame := 0 }, [], (s0.modSw fun w => { w with hostQ := [{ frame := 0 }] }), by decide +kernel⟩,
   ⟨{ frame := 0 }, [], (s0.modSw fun w => { w with instQ := [{ frame := 0 }] }), by decide +kernel⟩⟩

theorem witness_BypassHeadCommands :
  (∃ (s : State), s.head.present = true ∧ s.power.aonGood = true ∧ s.power.mainGood = true ∧ s.power.resetLow = false ∧ s.head.coil = false)
  ∧ (∃ (s : State), s.head.present = true ∧ s.power.aonGood = true ∧ s.power.mainGood = true ∧ s.power.resetLow = false ∧ s.head.coil = false)
  ∧ (∃ (s : State), s.head.joinAllowed = true ∧ coilAllowed s = true ∧ s.head.coil = false)
  ∧ (∃ (s : State), coilAllowed s = true)
  ∧ (∃ (s : State), s.head.present = true)
  ∧ (∃ (b : Bool) (s : State), s.head.present = true ∧ b ≠ s.head.coil ∧ (s.fset .byp 0).persist = false ∧ s.head.cmdAt + ms 10 ≤ s.now) :=
  ⟨⟨(s0.modHead fun h => { h with present := true }), by decide +kernel⟩,
   ⟨(s0.modHead fun h => { h with present := true }), by decide +kernel⟩,
   ⟨(s0.modHead fun h => { h with present := true, loopOk := true, joinAllowed := true }), by decide +kernel⟩,
   ⟨(s0.modHead fun h => { h with present := true, loopOk := true, joinAllowed := true }), by decide +kernel⟩,
   ⟨(s0.modHead fun h => { h with present := true, coil := true }), by decide +kernel⟩,
   ⟨true, (s0.modHead fun h => { h with present := true }), by decide +kernel⟩⟩

theorem witness_KnownStreamFramesAreCountedAndCopied :
  ∃ (k i : Nat) (f : List Byte) (line : LineErrs) (s : State), k < 8 ∧ (s.port k).link = true ∧ s.season.season ≠ .winter
    ∧ (s.port k).rxEn = true ∧ 64 ≤ frameLen f ∧ frameLen f ≤ (s.port k).maxFrame ∧ ¬(isTagged f = true ∧ tci f % 4096 = 4095)
    ∧ etherType f ≠ 0x8808 ∧ s.hsrPort k = false ∧ s.prpPort k = false
    ∧ (∀ j, fwdLookup (fwdKey (srcMac (received k f s).octets) (received k f s).vid) s = some j → (s.fwdE j).dropSrc = false)
    ∧ isPtp k (received k f s).octets = false ∧ reservedDest (received k f s).octets = false ∧ malformed (received k f s).octets = false
    ∧ streamLookup (streamKey (received k f s).octets (received k f s).vid) s = some i ∧ s.ksu.verifyEn = false ∧ s.cgu.claimRxEn = false :=
  ⟨3, (kIdx s0), kF, {}, (kState s0), by and_intros <;> first | (exact kState_lookup) | decide +kernel⟩

theorem witness_DuplicateDiscardWindow :
  ∃ (ptp : Bool) (k q idle i : Nat) (s : State), q < 65536 :=
  ⟨false, 5, 7, 0, 0, (s0.setFwd 0 fun e => { e with dupLast := 5, seenA := 3 }), by decide +kernel⟩

theorem witness_ClaimRuleOnReception :
  ∃ (i : Nat) (f : List Byte) (s : State), s.cgu.claimRxEn = true :=
  ⟨3, (fr []), (s0.modCgu fun c => { c with claimRxEn := true }), by decide +kernel⟩

theorem witness_EntriesChangeByGeneration :
  (∃ (c : StbChange) (rest : List StbChange) (s : State), s.sw.applying = c :: rest ∧ c.op = .putStream ∧ (s.stream c.idx).state = .active
      ∧ (s.stream c.idx).refPrev ≠ 0)
  ∧ (∃ (c : StbChange) (rest : List StbChange) (s : State), s.sw.applying = c :: rest ∧ c.op = .putStream ∧ (s.stream c.idx).state = .active
      ∧ (s.stream c.idx).refPrev = 0 ∧ streamTwin c.idx c.stream.key s = none)
  ∧ (∃ (c : StbChange) (rest : List StbChange) (s : State), s.sw.applying = c :: rest ∧ c.op = .putStream ∧ (s.stream c.idx).state = .free
      ∧ streamTwin c.idx c.stream.key s = none)
  ∧ (∃ (c : StbChange) (rest : List StbChange) (j : Nat) (s : State), s.sw.applying = c :: rest ∧ c.op = .putStream
      ∧ (s.stream c.idx).state = .free ∧ streamTwin c.idx c.stream.key s = some j)
  ∧ (∃ (c : StbChange) (rest : List StbChange) (s : State), s.sw.applying = c :: rest ∧ c.op = .putFwd ∧ (s.fwdE c.idx).state = .active
      ∧ (s.fwdE c.idx).refPrev = 0 ∧ fwdTwin c.idx c.fwd.key s = none)
  ∧ (∃ (c : StbChange) (rest : List StbChange) (s : State), s.sw.applying = c :: rest ∧ c.op = .remove ∧ isStreamIdx c.idx = true
      ∧ (s.stream c.idx).state = .active ∧ (s.stream c.idx).refPrev = 0)
  ∧ (∃ (c : StbChange) (rest : List StbChange) (s : State), s.sw.applying = c :: rest ∧ c.op = .putBitmap)
  ∧ (∃ (c : StbChange) (rest : List StbChange) (s : State), s.sw.applying = c :: rest ∧ c.op = .putMir) :=
  ⟨⟨{ idx := 3, op := .putStream }, [], ((s0.setStream 3 fun e => { e with state := .active, refPrev := 1 }).modSw fun w => { w with applying := [{ idx := 3, op := .putStream }] }), by decide +kernel⟩,
   ⟨{ idx := 3, op := .putStream }, [], ((s0.setStream 3 fun e => { e with state := .active, refCur := 2 }).modSw fun w => { w with applying := [{ idx := 3, op := .putStream }] }), by and_intros <;> first | (exact noTwin) | decide +kernel⟩,
   ⟨{ idx := 3, op := .putStream }, [], (s0.modSw fun w => { w with applying := [{ idx := 3, op := .putStream }] }), by and_intros <;> first | (exact noTwinFree) | decide +kernel⟩,
   ⟨{ idx := 3, op := .putStream, stream := { key := streamKey kF 1 } }, [], (kIdx s0), ((s0.setStream (kIdx s0) fun e => { e with key := streamKey kF 1, state := .active }).modSw fun w => { w with applying := [{ idx := 3, op := .putStream, stream := { key := streamKey kF 1 } }] }), by and_intros <;> first | (exact twinFree) | (exact twinAt) | decide +kernel⟩,
   ⟨{ idx := 20000, op := .putFwd }, [], ((s0.setFwd 20000 fun e => { e with state := .active, refCur := 2 }).modSw fun w => { w with applying := [{ idx := 20000, op := .putFwd }] }), by and_intros <;> first | (exact noFwdTwin) | decide +kernel⟩,
   ⟨{ idx := 3, op := .remove }, [], ((s0.setStream 3 fun e => { e with state := .active, refCur := 2 }).modSw fun w => { w with applying := [{ idx := 3, op := .remove }] }), by decide +kernel⟩,
   ⟨{ idx := 3, op := .putBitmap }, [], (s0.modSw fun w => { w with applying := [{ idx := 3, op := .putBitmap }] }), by decide +kernel⟩,
   ⟨{ idx := 1, op := .putMir }, [], (s0.modSw fun w => { w with applying := [{ idx := 1, op := .putMir }] }), by decide +kernel⟩⟩

theorem witness_TableTimersComplete :
  (∃ (s : State), s.sw.idleAt + ms 100 ≤ s.now)
  ∧ (∃ (i : Nat) (s : State), isStreamIdx i = true ∧ (s.stream i).state = .active ∧ (s.stream i).idle = true ∧ (s.stream i).idleDue = true
      ∧ s.persist.fwUp = true ∧ (s.stream i).learned = true ∧ (s.stream i).static = false ∧ s.sw.applying = [] ∧ (s.stream i).refPrev = 0)
  ∧ (∃ (i : Nat) (s : State), isStreamIdx i = true ∧ (s.stream i).state = .active ∧ (s.stream i).idle = true ∧ (s.stream i).idleDue = true
      ∧ s.persist.fwUp = true ∧ ((s.stream i).learned = false ∨ (s.stream i).static = true))
  ∧ (∃ (i : Nat) (s : State), isStreamIdx i = true ∧ (s.stream i).state = .quarantine ∧ (s.stream i).quarEnd ≤ s.now)
  ∧ (∃ (i : Nat) (s : State), isFwdIdx i = true ∧ (s.fwdE i).state = .quarantine ∧ (s.fwdE i).quarEnd ≤ s.now)
  ∧ (∃ (s : State), s.persist.fwUp = true ∧ s.sw.rateAt + sec 1 ≤ s.now) :=
  ⟨⟨(((s0.setStream 3 fun e => { e with state := .active, idleLimit := 1, idleCount := 9 }).setFwd 20000 fun e => { e with state := .active, learned := true, idleCount := 40000 }).setFwd 20001 fun e => { e with state := .active }), by decide +kernel⟩,
   ⟨3, (s0.setStream 3 fun e => { e with state := .active, idle := true, idleDue := true, learned := true }), by decide +kernel⟩,
   ⟨3, (s0.setStream 3 fun e => { e with state := .active, idle := true, idleDue := true }), by decide +kernel⟩,
   ⟨3, (s0.setStream 3 fun e => { e with state := .quarantine }), by decide +kernel⟩,
   ⟨20000, (s0.setFwd 20000 fun e => { e with state := .quarantine }), by decide +kernel⟩,
   ⟨(s0.setStream 3 fun e => { e with state := .active, matchOctets := 1000000000 }), by decide +kernel⟩⟩

theorem witness_LearningAndNodesComplete :
  (∃ (key : BitVec 128) (r : LearnRec) (s : State), (s.sw.learn.find? fun r => r.key == key) = some r ∧ r.eventAt = none
      ∧ r.firstAt + ms 100 ≤ s.now ∧ s.persist.fwUp = true
      ∧ (s.sw.policy.get (((List.range 8).find? fun k => r.ports.getLsbD k).getD 0) {}).kind = 0)
  ∧ (∃ (key : BitVec 128) (r : LearnRec) (s : State), (s.sw.learn.find? fun r => r.key == key) = some r ∧ r.eventAt = none
      ∧ r.firstAt + ms 100 ≤ s.now ∧ s.persist.fwUp = true
      ∧ ((s.sw.policy.get (((List.range 8).find? fun k => r.ports.getLsbD k).getD 0) {}).kind = 1 ∨ (s.sw.policy.get (((List.range 8).find? fun k => r.ports.getLsbD k).getD 0) {}).kind = 2))
  ∧ (∃ (key : BitVec 128) (r : LearnRec) (a : Nat) (s : State), (s.sw.learn.find? fun r => r.key == key) = some r ∧ r.eventAt = some a
      ∧ a + sec 10 ≤ s.now)
  ∧ (∃ (s : State), s.persist.fwUp = true ∧ s.sw.superAt + ms 2000 ≤ s.now)
  ∧ (∃ (mac : BitVec 48) (n : Node) (s : State), (s.sw.nodes.find? fun n => n.mac == mac) = some n ∧ n.lastSeen + sec 60 ≤ s.now) :=
  ⟨⟨5, { key := 5, ports := 2, frames := 3, octets := 300 }, (s0.modSw fun w => { w with learn := [{ key := 5, ports := 2, frames := 3, octets := 300 }] }), by decide +kernel⟩,
   ⟨5, { key := 5, ports := 2, frames := 3, octets := 300 }, (s0.modSw fun w => { w with learn := [{ key := 5, ports := 2, frames := 3, octets := 300 }], policy := [(1, { kind := 1 })] }), by decide +kernel⟩,
   ⟨5, { key := 5, eventAt := some 0 }, 0, (s0.modSw fun w => { w with learn := [{ key := 5, eventAt := some 0 }] }), by decide +kernel⟩,
   ⟨(s0.modSw fun w => { w with hsrEn := true }), by decide +kernel⟩,
   ⟨9, { mac := 9 }, (s0.modSw fun w => { w with nodes := [{ mac := 9 }] }), by decide +kernel⟩⟩

theorem witness_ThresholdsHoldTheirEdges :
  ∃ (x : Thr) (v : Int) (invalid : Bool) (smp : Nat), x.mode ≠ 0 :=
  ⟨{ level := 100, mode := 1 }, 200, false, 9, by decide +kernel⟩

theorem witness_ConditioningCommandsComplete :
  (∃ (v : Deliver) (q : List Deliver) (s : State), s.sw.sceQ = v :: q)
  ∧ (∃ (v : Deliver) (q : List Deliver) (s : State), s.sw.sceQ = v :: q ∧ (s.stored v.frame).crcOk = false)
  ∧ (∃ (v : Deliver) (q : List Deliver) (s : State), s.sw.sceQ = v :: q ∧ (s.stored v.frame).crcOk = true
      ∧ (s.sce.en = false ∨ ∀ p ∈ s.sce.groups, p.2.en = true → p.2.entry ≠ v.entry))
  ∧ (∃ (v : Deliver) (q : List Deliver) (gn : Nat) (a : Asdu) (s : State), s.sw.sceQ = v :: q ∧ (s.stored v.frame).crcOk = true
      ∧ s.sce.en = true ∧ ((s.sce.groups.filter fun p => p.2.en && p.2.entry == v.entry).map fun p => p.1) = [gn]
      ∧ frameAsdus (s.stored v.frame).octets = some [a] ∧ asduFails (s.group gn) ((s.group gn).ctxNums.map s.ctx) a.svId a = none
      ∧ (let x := s.group gn; let g := (a.smpCnt.getD 0 + x.smpWrap - (x.lastSmp + 1) % x.smpWrap) % x.smpWrap; x.state ≠ 1 ∨ x.lastArr + ms x.gapTime ≤ s.now ∨ g = 0 ∨ 2 * g < x.smpWrap))
  ∧ (∃ (s : State), s.sce.lastCheck + ms 1 ≤ s.now) :=
  ⟨⟨{ frame := 0 }, [], (s0.modSw fun w => { w with sceQ := [{ frame := 0 }] }), by decide +kernel⟩,
   ⟨{ frame := 9 }, [], (s0.modSw fun w => { w with sceQ := [{ frame := 9 }], store := w.store ++ [(9, { octets := svFrame, copies := 1, crcOk := false })] }), by decide +kernel⟩,
   ⟨{ frame := 0 }, [], ((s0.modSce fun c => { c with en := false }).modSw fun w => { w with sceQ := [{ frame := 0 }] }), by decide +kernel⟩,
   ⟨{ frame := 9, entry := 77 }, [], 1, { svId := [0x41, 0x42], smpCnt := some 5, confRev := some 1, synch := 2, data := some [0, 0, 0, 7, 0, 0, 0, 0] }, ((s0.modSce fun c => { c with en := true, groups := [(1, { en := true, entry := 77, nch := 1, firstCtx := 5 })], ctxs := c.ctxs.del 5 }).modSw fun w => { w with sceQ := [{ frame := 9, entry := 77 }], store := w.store ++ [(9, { octets := svFrame, copies := 1 })] }), by decide +kernel⟩,
   ⟨(s0.modSce fun c => { c with groups := [(0, { en := true, state := 1 })] }), by decide +kernel⟩⟩

theorem witness_AcquisitionCommandsComplete :
  (∃ (e : AcqEntry) (q : List AcqEntry) (s : State), s.acq.inQ = e :: q ∧ s.clockUp .dmc = true)
  ∧ (∃ (n : Nat) (s : State), s.clockUp .dmc = false)
  ∧ (∃ (n k : Nat) (a : AcqArrival) (s : State), (s.acqS n).run = true ∧ a.raw = false
      ∧ (s.acqS n).roomFor (24 + 8 * a.smp.xs.length) false = true)
  ∧ (∃ (n : Nat) (i : AcqItem) (is : List AcqItem) (s : State), (s.acqS n).items = i :: is ∧ i.firstAge + us i.flushUs ≤ s.now
      ∧ s.clockUp .dmc = true)
  ∧ (∃ (n : Nat) (s : State), (s.acqS n).en = false ∧ (s.acqS n).frames = [] ∧ (s.acqS n).items = [])
  ∧ (∃ (level : Bool) (held : Nat) (s : State), held ≠ 0 ∧ level ≠ s.acq.trigIn ∧ s.acq.trigInEn = false)
  ∧ (∃ (level : Bool) (held last : Nat) (s : State), held ≠ 0 ∧ level ≠ s.acq.trigIn ∧ s.acq.trigInEn = true
      ∧ edgeWanted s.acq.trigInEdge level = true ∧ s.acq.lastEdge = some last ∧ s.now < last + ms s.acq.deadMs)
  ∧ (∃ (level : Bool) (held : Nat) (s : State), held ≠ 0 ∧ level ≠ s.acq.trigIn ∧ s.acq.trigInEn = true
      ∧ edgeWanted s.acq.trigInEdge level = true ∧ (∀ last, s.acq.lastEdge = some last → last + ms s.acq.deadMs ≤ s.now)) :=
  ⟨⟨{}, [], (s0.modAcq fun a => { a with inQ := [{}] }), by decide +kernel⟩,
   ⟨0, (s0.modFaults fun f => { f with clocks := [(Island.dmc.num, true)] }), by decide +kernel⟩,
   ⟨1, 0, { smp := { xs := [5] } }, (s0.setAcqS 1 fun _ => { run := true }), by decide +kernel⟩,
   ⟨1, { octets := [1, 2] }, [], (s0.setAcqS 1 fun _ => { items := [{ octets := [1, 2] }] }), by decide +kernel⟩,
   ⟨1, (s0.setAcqS 1 fun _ => { granules := [7] }), by decide +kernel⟩,
   ⟨true, 1, (s0.modAcq fun a => { a with trigInEn := false }), by decide +kernel⟩,
   ⟨true, 1, 99999999000, (s0.modAcq fun a => { a with trigInEn := true, lastEdge := some 99999999000 }), by decide +kernel⟩,
   ⟨true, 1, (s0.modAcq fun a => { a with trigInEn := true }), by decide +kernel⟩⟩

theorem witness_LockWordsAndRelease :
  (∃ (i g hart j n : Nat) (s : State), s.genCurrent i g = true ∧ lockAt i j s = some n)
  ∧ (∃ (i g hart j : Nat) (s : State), s.genCurrent i g = true ∧ lockAt i j s = none)
  ∧ (∃ (i g hart j : Nat) (s : State), s.genCurrent i g = false)
  ∧ (∃ (i g j n : Nat) (v : BitVec 32) (s : State), s.genCurrent i g = true ∧ v.getLsbD 0 = true ∧ lockAt i j s = some n)
  ∧ (∃ (n : Nat) (v : BitVec 32) (s : State), n < 256 ∧ (s.lock n).held = true)
  ∧ (∃ (n : Nat) (v : BitVec 32) (s : State), n < 256 ∧ (s.lock n).held = false ∧ bitOf v 31 = true ∧ bits v 29 21 ≠ (s.lock n).owner
      ∧ (∀ p ∈ s.insts.locks, p.1 ≠ n → p.2.en = true → p.2.owner = bits v 29 21 → p.2.index ≠ bits v 20 17)) :=
  ⟨⟨1, 1, 0, 2, 5, ((wi s0).modInsts fun i => { i with locks := [(5, { en := true, owner := 1, index := 2 })] }), by decide +kernel⟩,
   ⟨1, 1, 0, 3, (wi (s0.modInsts fun i => { i with locks := [] })), by decide +kernel⟩,
   ⟨1, 7, 0, 3, (wi s0), by decide +kernel⟩,
   ⟨1, 1, 2, 5, 1, ((wi s0).modInsts fun i => { i with locks := [(5, { en := true, owner := 1, index := 2, held := true, holder := 1, holderGen := 1 })] }), by decide +kernel⟩,
   ⟨5, 0, (s0.modInsts fun i => { i with locks := [(5, { held := true })] }), by decide +kernel⟩,
   ⟨5, 0x80220000, (s0.modInsts fun i => { i with locks := [(5, {})] }), by decide +kernel⟩⟩

theorem witness_CoreAccessesStayInsideTheInstance :
  (∃ (core : Nat) (a : CoreAcc) (r : Running) (w : Window) (s : State), core < 64 ∧ (s.psc (core / 8)).cores.has (core % 8) = true
      ∧ (s.psc (core / 8)).cores.get (core % 8) { entry := 0, inst := 0, gen := 0, hart := 0, a2 := 0 } = r
      ∧ s.genCurrent r.inst r.gen = true ∧ a.call = none ∧ a.trap = false ∧ (s.inst r.inst).window a.addr a.octets.length = some w
      ∧ (w = .ls ∨ w = .dram) ∧ a.foreign w r.inst s = none ∧ s.faults.clocks.get Island.dmc.num false = false
      ∧ (let f := (a.locs w core r.inst (a.phys w (s.inst r.inst))).2.finder; (s.fset f.1 f.2.1).injArm = false)
      ∧ (a.found w core r.inst s).syn.kind = none ∧ a.write = true ∧ a.via = none ∧ 0 < a.octets.length
      ∧ (if w = .dram then (a.addr - dramBase) / dramGran = (a.addr - dramBase + a.octets.length - 1) / dramGran else a.addr / lsGran = (a.addr + a.octets.length - 1) / lsGran))
  ∧ (∃ (core : Nat) (a : CoreAcc) (r : Running) (w : Window) (s : State), core < 64 ∧ (s.psc (core / 8)).cores.has (core % 8) = true
      ∧ (s.psc (core / 8)).cores.get (core % 8) { entry := 0, inst := 0, gen := 0, hart := 0, a2 := 0 } = r
      ∧ s.genCurrent r.inst r.gen = true ∧ a.call = none ∧ a.trap = false ∧ (s.inst r.inst).window a.addr a.octets.length = some w
      ∧ (w = .ls ∨ w = .dram) ∧ a.foreign w r.inst s = none ∧ s.faults.clocks.get Island.dmc.num false = false
      ∧ (let f := (a.locs w core r.inst (a.phys w (s.inst r.inst))).2.finder; (s.fset f.1 f.2.1).injArm = false)
      ∧ (a.found w core r.inst s).syn.kind = none ∧ a.write = false)
  ∧ (∃ (core : Nat) (a : CoreAcc) (r : Running) (s : State), core < 64 ∧ (s.psc (core / 8)).cores.has (core % 8) = true
      ∧ (s.psc (core / 8)).cores.get (core % 8) { entry := 0, inst := 0, gen := 0, hart := 0, a2 := 0 } = r
      ∧ s.genCurrent r.inst r.gen = true ∧ a.call = none ∧ a.trap = false ∧ (s.inst r.inst).window a.addr a.octets.length = some .ctrl)
  ∧ (∃ (core : Nat) (a : CoreAcc) (r : Running) (s : State), core < 64 ∧ (s.psc (core / 8)).cores.has (core % 8) = true
      ∧ (s.psc (core / 8)).cores.get (core % 8) { entry := 0, inst := 0, gen := 0, hart := 0, a2 := 0 } = r
      ∧ s.genCurrent r.inst r.gen = true ∧ a.call = none ∧ a.trap = false ∧ (s.inst r.inst).window a.addr a.octets.length = some .locks)
  ∧ (∃ (core : Nat) (a : CoreAcc) (r : Running) (s : State), core < 64 ∧ (s.psc (core / 8)).cores.has (core % 8) = true
      ∧ (s.psc (core / 8)).cores.get (core % 8) { entry := 0, inst := 0, gen := 0, hart := 0, a2 := 0 } = r
      ∧ s.genCurrent r.inst r.gen = true ∧ a.call = none ∧ a.trap = false ∧ (s.inst r.inst).window a.addr a.octets.length = some .dram
      ∧ a.foreign .dram r.inst s = none ∧ s.faults.clocks.get Island.dmc.num false = true ∧ a.cached = false)
  ∧ (∃ (core : Nat) (a : CoreAcc) (r : Running) (w : Window) (s : State), core < 64 ∧ (s.psc (core / 8)).cores.has (core % 8) = true
      ∧ (s.psc (core / 8)).cores.get (core % 8) { entry := 0, inst := 0, gen := 0, hart := 0, a2 := 0 } = r
      ∧ s.genCurrent r.inst r.gen = true ∧ a.call = none
      ∧ (a.trap = true ∨ (s.inst r.inst).window a.addr a.octets.length = none ∨ ((s.inst r.inst).window a.addr a.octets.length = some w
      ∧ (w = .ls ∨ w = .dram) ∧ (a.foreign w r.inst s).isSome = true)) ∧ ((s.inst r.inst).state = .ready ∨ (s.inst r.inst).state = .running)
      ∧ let x : BlockId × Nat := (if a.trap = true ∨ (s.inst r.inst).window a.addr a.octets.length = none then (.inx, core / 8) else w.target ((a.foreign w r.inst s).getD 0) core); s.quietOver x.1 x.2 = false)
  ∧ (∃ (core : Nat) (a : CoreAcc) (r : Running) (w : Window) (s : State), core < 64 ∧ (s.psc (core / 8)).cores.has (core % 8) = true
      ∧ (s.psc (core / 8)).cores.get (core % 8) { entry := 0, inst := 0, gen := 0, hart := 0, a2 := 0 } = r
      ∧ s.genCurrent r.inst r.gen = true ∧ a.call = none ∧ a.trap = false ∧ (s.inst r.inst).window a.addr a.octets.length = some w
      ∧ (w = .ls ∨ w = .dram) ∧ a.foreign w r.inst s = none ∧ s.faults.clocks.get Island.dmc.num false = false
      ∧ (let f := (a.locs w core r.inst (a.phys w (s.inst r.inst))).2.finder; (s.fset f.1 f.2.1).injArm = false
      ∧ s.quietOver f.1 f.2.1 = false) ∧ (a.found w core r.inst s).syn.kind = some 1 ∧ (a.cached = false ∨ a.fetch = false)
      ∧ ((s.inst r.inst).state = .ready ∨ (s.inst r.inst).state = .running))
  ∧ (∃ (core : Nat) (a : CoreAcc) (r : Running) (s : State), core < 64 ∧ (s.psc (core / 8)).cores.has (core % 8) = true
      ∧ (s.psc (core / 8)).cores.get (core % 8) { entry := 0, inst := 0, gen := 0, hart := 0, a2 := 0 } = r
      ∧ s.genCurrent r.inst r.gen = false)
  ∧ (∃ (core n : Nat) (a : CoreAcc) (r : Running) (s : State), core < 64 ∧ (s.psc (core / 8)).cores.has (core % 8) = true
      ∧ (s.psc (core / 8)).cores.get (core % 8) { entry := 0, inst := 0, gen := 0, hart := 0, a2 := 0 } = r
      ∧ s.genCurrent r.inst r.gen = true ∧ a.call = some n ∧ 3 < n) :=
  ⟨⟨0, { addr := 64, write := true, octets := [1, 2, 3, 4] }, { entry := 0, inst := 1, gen := 1, hart := 0, a2 := 0, budget := 400 }, .ls, (((running s0).modFaults fun f => { f with sets := [], clocks := [] }).modInsts fun i => { i with lsOwner := [(10, 2), (11, 2)], dramOwner := [(10, 2)] }), by and_intros <;> first | (unfold CoreAcc.found; rw [readFound_plain _ _ _ _ (by decide +kernel)]; exact seen_sound 0 _ 0 _ _) | decide +kernel⟩,
   ⟨0, { addr := 64, octets := [1, 2, 3, 4] }, { entry := 0, inst := 1, gen := 1, hart := 0, a2 := 0, budget := 400 }, .ls, (((running s0).modFaults fun f => { f with sets := [], clocks := [] }).modInsts fun i => { i with lsOwner := [(10, 2), (11, 2)], dramOwner := [(10, 2)] }), by and_intros <;> first | (unfold CoreAcc.found; rw [readFound_plain _ _ _ _ (by decide +kernel)]; exact seen_sound 0 _ 0 _ _) | decide +kernel⟩,
   ⟨0, { addr := 0x1000004, octets := [1, 2, 3, 4] }, { entry := 0, inst := 1, gen := 1, hart := 0, a2 := 0, budget := 400 }, (((running s0).modFaults fun f => { f with sets := [], clocks := [] }).modInsts fun i => { i with lsOwner := [(10, 2), (11, 2)], dramOwner := [(10, 2)] }), by decide +kernel⟩,
   ⟨0, { addr := 0x1001010, octets := [1, 2, 3, 4] }, { entry := 0, inst := 1, gen := 1, hart := 0, a2 := 0, budget := 400 }, (((running s0).modFaults fun f => { f with sets := [], clocks := [] }).modInsts fun i => { i with lsOwner := [(10, 2), (11, 2)], dramOwner := [(10, 2)] }), by decide +kernel⟩,
   ⟨0, { addr := dramBase + 64, octets := [1, 2, 3, 4] }, { entry := 0, inst := 1, gen := 1, hart := 0, a2 := 0, budget := 400 }, ((((running s0).modFaults fun f => { f with sets := [], clocks := [] }).modInsts fun i => { i with lsOwner := [(10, 2), (11, 2)], dramOwner := [(10, 2)] }).modFaults fun f => { f with clocks := [(Island.dmc.num, true)] }), by decide +kernel⟩,
   ⟨0, { addr := 0x2000000, octets := [1, 2, 3, 4] }, { entry := 0, inst := 1, gen := 1, hart := 0, a2 := 0, budget := 400 }, .ls, (((running s0).modFaults fun f => { f with sets := [], clocks := [] }).modInsts fun i => { i with lsOwner := [(10, 2), (11, 2)], dramOwner := [(10, 2)] }), by decide +kernel⟩,
   ⟨0, { addr := 64, octets := [1, 2, 3, 4], word := { err := 0x010001 } }, { entry := 0, inst := 1, gen := 1, hart := 0, a2 := 0, budget := 400 }, .ls, (((running s0).modFaults fun f => { f with sets := [], clocks := [] }).modInsts fun i => { i with lsOwner := [(10, 2), (11, 2)], dramOwner := [(10, 2)] }), by and_intros <;> first | (unfold CoreAcc.found; rw [readFound_plain _ _ _ _ (by decide +kernel)]; exact (seen_error 0 _ 0 _ _ _).trans (by decide +kernel)) | decide +kernel⟩,
   ⟨0, { addr := 64, octets := [1, 2, 3, 4] }, { entry := 0, inst := 1, gen := 1, hart := 0, a2 := 0, budget := 400 }, ((((running s0).modFaults fun f => { f with sets := [], clocks := [] }).modInsts fun i => { i with lsOwner := [(10, 2), (11, 2)], dramOwner := [(10, 2)] }).setInst 1 fun d => { d with gen := 2 }), by decide +kernel⟩,
   ⟨0, 4, { call := some 4 }, { entry := 0, inst := 1, gen := 1, hart := 0, a2 := 0, budget := 400 }, (running s0), by decide +kernel⟩⟩

theorem witness_ResetsRemovalsAndCreationsComplete :
  (∃ (i : Nat) (s : State), i < 512 ∧ (s.inst i).state = .halted ∧ ((s.inst i).cause = 2 ∨ (s.inst i).cause = 3)
      ∧ (s.inst i).autoReset = true ∧ s.persist.fwUp = true ∧ (s.inst i).exhausted = false
      ∧ ((s.inst i).resetTimes.filter fun t => decide (s.now < t + sec 3600)).length < 3 ∧ (∀ r ∈ s.persist.replacing, r.inst ≠ i))
  ∧ (∃ (i : Nat) (s : State), i < 512 ∧ (s.inst i).state = .halted ∧ ((s.inst i).cause = 2 ∨ (s.inst i).cause = 3)
      ∧ (s.inst i).autoReset = true ∧ s.persist.fwUp = true ∧ (s.inst i).exhausted = false
      ∧ 3 ≤ ((s.inst i).resetTimes.filter fun t => decide (s.now < t + sec 3600)).length)
  ∧ (∃ (i : Nat) (s : State), i < 512 ∧ (s.inst i).state = .resetting ∧ (s.inst i).removing = false ∧ s.persist.fwUp = true
      ∧ (s.inst i).removeHeld = none ∧ engineWork i s = false)
  ∧ (∃ (i : Nat) (s : State), i < 512 ∧ (s.inst i).state = .resetting ∧ (s.inst i).removing = true ∧ s.persist.fwUp = true
      ∧ engineWork i s = false)
  ∧ (∃ (i : Nat) (s : State), i < 512 ∧ (s.inst i).state = .quarantine ∧ (s.inst i).quarEnd ≤ s.now)
  ∧ (∃ (i : Nat) (c : Creation) (s : State), (s.insts.creating.find? fun c => c.num == i) = some c ∧ s.persist.fwUp = true) :=
  ⟨⟨1, ((wi s0).setInst 1 fun d => { d with state := .halted, cause := 2 }), by decide +kernel⟩,
   ⟨1, ((wi s0).setInst 1 fun d => { d with state := .halted, cause := 2, resetTimes := [99999999999, 99999999999, 99999999999] }), by decide +kernel⟩,
   ⟨1, ((wi s0).setInst 1 fun d => { d with state := .resetting }), by decide +kernel⟩,
   ⟨1, ((wi s0).setInst 1 fun d => { d with state := .resetting, removing := true }), by decide +kernel⟩,
   ⟨1, ((wi s0).setInst 1 fun d => { d with state := .quarantine }), by decide +kernel⟩,
   ⟨2, { num := 2, mac := 5, ls := [7], allow := [{}, {}, {}, {}, {}, {}, {}, {}] }, (s0.modInsts fun i => { i with creating := [{ num := 2, mac := 5, ls := [7], allow := [{}, {}, {}, {}, {}, {}, {}, {}] }] }), by decide +kernel⟩⟩

theorem witness_GranulesComplete :
  (∃ (g : Nat) (s : State), s.insts.dramClearing.contains g = true ∧ s.clockUp .dmc = true)
  ∧ (∃ (g : Nat) (s : State), s.clockUp .dmc = false)
  ∧ (∃ (g : Nat) (s : State), s.insts.lsClearing.contains g = true)
  ∧ (∃ (i g n : Nat) (s : State), s.genCurrent i g = true ∧ n ≤ (s.inst i).dramMap.length)
  ∧ (∃ (i g n : Nat) (s : State), s.genCurrent i g = true ∧ n ≤ (s.inst i).lsMap.length
      ∧ meetsRegistered i (((s.inst i).lsMap.length - n) * lsGran) (n * lsGran) true s = false)
  ∧ (∃ (i g n : Nat) (s : State), s.genCurrent i g = true ∧ (s.inst i).dramMap.length < n) :=
  ⟨⟨3, (s0.modInsts fun i => { i with dramClearing := [3], dramMem := [(6291457, 9)] }), by decide +kernel⟩,
   ⟨3, (s0.modFaults fun f => { f with clocks := [(Island.dmc.num, true)] }), by decide +kernel⟩,
   ⟨10, (s0.modInsts fun i => { i with lsClearing := [10], lsMem := [(163841, 9)] }), by decide +kernel⟩,
   ⟨1, 1, 1, (wi s0), by decide +kernel⟩,
   ⟨1, 1, 1, (wi s0), by decide +kernel⟩,
   ⟨1, 1, 2, (wi s0), by decide +kernel⟩⟩

theorem witness_EgressQueuesAndTheGate :
  (∃ (i g q tail : Nat) (e : EgQueue) (s : State), i < 512 ∧ q < 2 ∧ s.genCurrent i g = true ∧ s.egq i q = some e)
  ∧ (∃ (i q : Nat) (e : EgQueue) (s : State), i < 512 ∧ q < 2 ∧ s.egq i q = some e ∧ e.ready i s = true
      ∧ (q = 0 ∨ ∀ z, s.egq i 0 = some z → z.ready i s = false))
  ∧ (∃ (k : Nat) (g : GateFrame) (s : State), (s.cgu.gate.find? fun g => g.port == k) = some g ∧ s.cgu.role = .taking
      ∧ (s.cgu.setAside.filter fun x => x.port == g.port).length < 512)
  ∧ (∃ (k : Nat) (g : GateFrame) (s : State), (s.cgu.gate.find? fun g => g.port == k) = some g ∧ (s.cgu.role = .active ∨ s.cgu.role = .alone)
      ∧ s.cgu.win = true ∧ (g.ctrl = false ∨ g.claim = s.cgu.ownClaim.toNat) ∧ (s.port g.port).link = true ∧ (s.port g.port).txEn = true)
  ∧ (∃ (k : Nat) (g : GateFrame) (s : State), (s.cgu.gate.find? fun g => g.port == k) = some g ∧ s.cgu.role ≠ .taking
      ∧ (s.cgu.win = false ∨ (s.cgu.role ≠ .active ∧ s.cgu.role ≠ .alone) ∨ (g.ctrl = true ∧ g.claim ≠ s.cgu.ownClaim.toNat))) :=
  ⟨⟨1, 1, 0, 3, { addr := 0, size := 16 }, ((wi s0).modEg fun e => { e with queues := [(2, { addr := 0, size := 16 })] }), by decide +kernel⟩,
   ⟨1, 0, { addr := 0, size := 16, tail := 1 }, (((wi s0).modEg fun e => { e with queues := [(2, { addr := 0, size := 16, tail := 1 })] }).modInsts fun i => { i with lsMem := [(163871, 0x80)] }), by decide +kernel⟩,
   ⟨3, { port := 3 }, (s0.modCgu fun c => { c with gate := [{ port := 3 }], role := .taking }), by decide +kernel⟩,
   ⟨3, { port := 3, copy := { cls := 2 } }, ((upPort s0 3).modCgu fun c => { c with gate := [{ port := 3, copy := { cls := 2 } }], role := .active, win := true }), by decide +kernel⟩,
   ⟨3, { port := 3 }, (s0.modCgu fun c => { c with gate := [{ port := 3 }], role := .standby }), by decide +kernel⟩⟩

theorem witness_FramesSlotsAndBudgets :
  (∃ (k : Nat) (s : State), k < 8 ∧ pscPowered s = true ∧ (s.psc k).running = true ∧ (s.psc k).en = true ∧ s.entering = false
      ∧ (s.psc k).frameEnd ≤ s.now)
  ∧ (∃ (k : Nat) (s : State), k < 8 ∧ pscPowered s = true ∧ (s.psc k).running = true ∧ (s.psc k).en = false ∧ s.entering = false
      ∧ (s.psc k).frameEnd ≤ s.now)
  ∧ (∃ (k : Nat) (s : State), k < 8 ∧ pscPowered s = true ∧ (s.psc k).running = false ∧ (s.psc k).en = true ∧ s.entering = false
      ∧ s.time.tbStopped = false ∧ gridNext s.time.tbNs (s.psc k).phaseNs (s.psc k).per = s.time.tbNs)
  ∧ (∃ (k e : Nat) (s : State), k < 8 ∧ (s.psc k).open_ e false = true
      ∧ (s.psc k).frameAt + quarters ((s.psc k).active.get e {}).offset ≤ s.now ∧ inFootprint k e ((s.psc k).active.get e {}) s = false
      ∧ ((s.inst ((s.psc k).active.get e {}).inst).state = .ready ∨ (s.inst ((s.psc k).active.get e {}).inst).state = .running))
  ∧ (∃ (k e : Nat) (s : State), k < 8 ∧ (s.psc k).open_ e false = true
      ∧ (s.psc k).frameAt + quarters ((s.psc k).active.get e {}).offset ≤ s.now ∧ inFootprint k e ((s.psc k).active.get e {}) s = false
      ∧ (s.inst ((s.psc k).active.get e {}).inst).state ≠ .ready ∧ (s.inst ((s.psc k).active.get e {}).inst).state ≠ .running)
  ∧ (∃ (k e : Nat) (s : State), k < 8 ∧ (s.psc k).open_ e false = true
      ∧ (s.psc k).frameAt + quarters ((s.psc k).active.get e {}).offset ≤ s.now ∧ inFootprint k e ((s.psc k).active.get e {}) s = true)
  ∧ (∃ (k q : Nat) (r : Running) (s : State), k < 8 ∧ (s.psc k).cores.has q = true
      ∧ (s.psc k).cores.get q { entry := 0, inst := 0, gen := 0, hart := 0, a2 := 0 } = r ∧ r.started ≤ s.now
      ∧ s.now - r.started < quarters r.budget)
  ∧ (∃ (k q : Nat) (r : Running) (s : State), k < 8 ∧ (s.psc k).cores.has q = true
      ∧ (s.psc k).cores.get q { entry := 0, inst := 0, gen := 0, hart := 0, a2 := 0 } = r ∧ r.started + quarters r.budget ≤ s.now)
  ∧ (∃ (k e : Nat) (s : State), k < 8 ∧ (s.psc k).open_ e true = true
      ∧ (s.psc k).frameAt + quarters ((s.psc k).active.get e {}).latest ≤ s.now)
  ∧ (∃ (k : Nat) (s : State), k < 8 ∧ (s.psc k).commitPend = false ∧ ((s.psc k).period = (s.psc k).periodAct ∨ (s.psc k).aligned = true))
  ∧ (∃ (k : Nat) (s : State), k < 8 ∧ ((s.psc k).commitPend = true ∨ ((s.psc k).period ≠ (s.psc k).periodAct ∧ (s.psc k).aligned = false))) :=
  ⟨⟨0, (s0.setPsc 0 fun p => { p with running := true, en := true, frameAt := 0 }), by decide +kernel⟩,
   ⟨0, (s0.setPsc 0 fun p => { p with running := true, en := false, frameAt := 0 }), by decide +kernel⟩,
   ⟨0, ((s0.setPsc 0 fun p => { p with running := false, en := true, phase := 0 }).modTime fun t => { t with tbNs := 2000000 }), by decide +kernel⟩,
   ⟨0, 0, ((wi s0).setPsc 0 fun _ => { running := true, en := true, frameAt := 99999999000, bank0 := [(0, { valid := true, inst := 1, budget := 400 })] }), by decide +kernel⟩,
   ⟨0, 0, (((wi s0).setPsc 0 fun _ => { running := true, en := true, frameAt := 99999999000, bank0 := [(0, { valid := true, inst := 1, budget := 400 })] }).setInst 1 fun d => { d with state := .halted }), by decide +kernel⟩,
   ⟨0, 0, (((wi s0).setPsc 0 fun _ => { running := true, en := true, frameAt := 99999999000, bank0 := [(0, { valid := true, inst := 1, budget := 400 })] }).setPsc 0 fun p => { p with fpEnd := [(0, 100000000001)] }), by decide +kernel⟩,
   ⟨0, 0, { entry := 0, inst := 1, gen := 1, hart := 0, a2 := 0, budget := 400, started := 99999999990 }, ((wi s0).setPsc 0 fun p => { p with cores := [(0, { entry := 0, inst := 1, gen := 1, hart := 0, a2 := 0, budget := 400, started := 99999999990 })] }), by decide +kernel⟩,
   ⟨0, 0, { entry := 0, inst := 1, gen := 1, hart := 0, a2 := 0, budget := 400 }, (running s0), by decide +kernel⟩,
   ⟨0, 0, (s0.setPsc 0 fun _ => { running := true, en := true, frameAt := 99999999000, bank0 := [(0, { valid := true, trig := true, inst := 1, budget := 400 })] }), by decide +kernel⟩,
   ⟨0, (s0.setPsc 0 fun p => { p with commitPend := false }), by decide +kernel⟩,
   ⟨0, (s0.setPsc 0 fun p => { p with commitPend := true }), by decide +kernel⟩⟩

theorem witness_SupplyLoopFollowsSlack :
  ∃ (k : Nat) (s : State), k < 8 :=
  ⟨0, ((s0.modSeason fun x => { x with season := .autumn }).setPsc 0 fun p => { p with slackMin := some 60 }), by decide +kernel⟩

theorem witness_ClaimRoundsDecideTheWinner :
  (∃ (w0 w1 : Wire) (r0 r1 : RoundSeen) (s : State), s.cgu.timed = true ∧ s.cgu.wires = [w0, w1] ∧ w0.round.active = true
      ∧ w1.round.active = true ∧ r0.inRound = true ∧ r1.inRound = true ∧ w0.disregard = false ∧ w1.disregard = false
      ∧ max w0.round.start w1.round.start + us 40 ≤ s.now ∧ roundResult s.cgu.unitId w0 r0 = 0 ∧ roundResult s.cgu.unitId w1 r1 = 0
      ∧ (s.cgu.role = .active ∨ s.cgu.role = .alone))
  ∧ (∃ (w0 w1 : Wire) (r0 r1 : RoundSeen) (s : State), s.cgu.timed = true ∧ s.cgu.wires = [w0, w1] ∧ w0.round.active = true
      ∧ w1.round.active = true ∧ r0.inRound = true ∧ r1.inRound = true ∧ w0.disregard = false ∧ w1.disregard = false
      ∧ max w0.round.start w1.round.start + us 40 ≤ s.now ∧ roundResult s.cgu.unitId w0 r0 = 0 ∧ roundResult s.cgu.unitId w1 r1 = 0
      ∧ s.cgu.role = .standby ∧ s.mlk.partnerClaim ≠ 0xFFFFFFFF)
  ∧ (∃ (w0 w1 : Wire) (r0 r1 : RoundSeen) (s : State), s.cgu.timed = true ∧ s.cgu.wires = [w0, w1] ∧ w0.round.active = true
      ∧ w1.round.active = true ∧ r0.inRound = true ∧ r1.inRound = true ∧ w0.disregard = false ∧ w1.disregard = false
      ∧ max w0.round.start w1.round.start + us 40 ≤ s.now ∧ roundResult s.cgu.unitId w0 r0 = 1 ∧ roundResult s.cgu.unitId w1 r1 ≠ 2
      ∧ (s.cgu.role = .active ∨ s.cgu.role = .alone ∨ s.cgu.role = .standby))
  ∧ (∃ (w0 w1 : Wire) (r0 r1 : RoundSeen) (s : State), s.cgu.timed = true ∧ s.cgu.wires = [w0, w1] ∧ w0.round.active = true
      ∧ r0.inRound = true ∧ r1.inRound = false ∧ w0.round.start + us 40 ≤ s.now ∧ roundResult s.cgu.unitId w0 r0 = 2)
  ∧ (∃ (w0 w1 : Wire) (r0 r1 : RoundSeen) (s : State), s.cgu.timed = true ∧ s.cgu.wires = [w0, w1] ∧ w0.round.active = true
      ∧ w0.round.lost = false ∧ w0.disregard = false ∧ r0.inRound = true ∧ r1.inRound = false ∧ w0.bits36 s.cgu.unitId < r0.bits36
      ∧ s.now < w0.round.start + us 40 ∧ w0.round.start + lostPoint (w0.bits36 s.cgu.unitId) r0.bits36 ≤ s.now) :=
  ⟨⟨{ round := { active := true, claim := 5, drives := true } }, { round := { active := true, claim := 5, drives := true } }, { inRound := true, claim := 5, unit := 1 }, { inRound := true, claim := 5, unit := 1 }, (inRounds s0 .active), by decide +kernel⟩,
   ⟨{ round := { active := true, claim := 5, drives := true } }, { round := { active := true, claim := 5, drives := true } }, { inRound := true, claim := 5, unit := 1 }, { inRound := true, claim := 5, unit := 1 }, (inRounds s0 .standby), by decide +kernel⟩,
   ⟨{ round := { active := true, claim := 5, drives := true } }, { round := { active := true, claim := 5, drives := true } }, { inRound := true, claim := 6, unit := 2 }, { inRound := true, claim := 5, unit := 1 }, (inRounds s0 .alone), by decide +kernel⟩,
   ⟨{ round := { active := true, claim := 5, drives := true } }, { round := { active := true, claim := 5, drives := true } }, { inRound := true, claim := 4, unit := 2 }, {}, (inRounds s0 .active), by decide +kernel⟩,
   ⟨{ round := { active := true, start := 99999965000, claim := 5, drives := true } }, {}, { inRound := true, claim := 6, unit := 1 }, {}, ((inRounds s0 .active).modCgu fun c => { c with wires := [{ round := { active := true, start := 99999965000, claim := 5, drives := true } }, {}] }), by decide +kernel⟩⟩

theorem witness_ClaimLineEnableAndTiming :
  (∃ (w0 w1 : Wire) (s : State), s.cgu.timed = true ∧ s.cgu.wires = [w0, w1] ∧ s.cgu.osc = false
      ∧ roundInstant s.time.tbNs ≤ (s.untilTb (roundInstant s.time.tbNs)).time.tbNs)
  ∧ (∃ (w0 w1 : Wire) (s : State), s.cgu.timed = true ∧ s.cgu.wires = [w0, w1] ∧ s.cgu.osc = true ∧ s.cgu.lastStart + us 500 ≤ s.now)
  ∧ (∃ (k : Nat) (w : Wire) (s : State), s.cgu.timed = true ∧ k < 2 ∧ s.cgu.wires[k]? = some w)
  ∧ (∃ (v : Bool) (s : State), (s.bki.clmHold = true ∨ (v = true ∧ s.cgu.idConflict.isSome = true)))
  ∧ (∃ (s : State), s.bki.clmHold = false)
  ∧ (∃ (s : State), s.bki.clmHold = false ∧ s.cgu.idConflict = none)
  ∧ (∃ (s : State), s.time.tbStopped = false ∧ s.time.oscFailed = false ∧ s.mlk.partner ≠ .present)
  ∧ (∃ (s : State), s.time.tbStopped = false ∧ s.time.oscFailed = false ∧ s.mlk.partner = .present ∧ s.mlk.word.f = false ∧ s.ocu.fSeen ≠ 1)
  ∧ (∃ (s : State), s.time.tbStopped = true)
  ∧ (∃ (s : State), s.time.tbStopped = false) :=
  ⟨⟨{}, {}, ((s0.modTime fun t => { t with tbNs := 1000, tbStopped := false, oscFailed := false, incr := 0, slewRem := 0, slewing := false }).modCgu fun c => { c with clmEn := true, noTiming := false, osc := false, wires := [{}, {}] }), by decide +kernel⟩,
   ⟨{}, {}, (((s0.modTime fun t => { t with tbNs := 1000, tbStopped := false, oscFailed := false, incr := 0, slewRem := 0, slewing := false }).modCgu fun c => { c with clmEn := true, noTiming := false, osc := false, wires := [{}, {}] }).modCgu fun c => { c with osc := true }), by decide +kernel⟩,
   ⟨1, {}, ((s0.modTime fun t => { t with tbNs := 1000, tbStopped := false, oscFailed := false, incr := 0, slewRem := 0, slewing := false }).modCgu fun c => { c with clmEn := true, noTiming := false, osc := false, wires := [{}, {}] }), by decide +kernel⟩,
   ⟨false, (s0.modBki fun b => { b with clmHold := true }), by decide +kernel⟩,
   ⟨(s0.modBki fun b => { b with clmHold := false }), by decide +kernel⟩,
   ⟨((s0.modBki fun b => { b with clmHold := false }).modCgu fun c => { c with idConflict := none }), by decide +kernel⟩,
   ⟨((s0.modTime fun t => { t with tbStopped := false, oscFailed := false }).modMlk fun m => { m with partner := .lost }), by decide +kernel⟩,
   ⟨(((s0.modTime fun t => { t with tbStopped := false, oscFailed := false }).modMlk fun m => { m with partner := .present, word := { m.word with f := false } }).modOcu fun o => { o with fSeen := 0 }), by decide +kernel⟩,
   ⟨(s0.modTime fun t => { t with tbStopped := true }), by decide +kernel⟩,
   ⟨(s0.modTime fun t => { t with tbStopped := false }), by decide +kernel⟩⟩

theorem witness_OutputComparisonAndReferee :
  (∃ (c : OcuCopy) (rest : List OcuCopy) (k : CmpKey) (s : State), s.ocu.ctrlIn = c :: rest ∧ c.key = some k ∧ s.pend k = none
      ∧ s.ocu.en = true ∧ s.ocu.pending.length < 4096)
  ∧ (∃ (c : OcuCopy) (rest : List OcuCopy) (k : CmpKey) (e : Pend) (s : State), s.ocu.ctrlIn = c :: rest ∧ c.key = some k ∧ s.pend k = some e
      ∧ e.loc = false ∧ s.now < e.endAt ∧ c.digest = e.digest)
  ∧ (∃ (c : OcuCopy) (k : CmpKey) (e : Pend) (s : State), s.linkOn = true ∧ c.key = some k ∧ s.pend k = some e ∧ e.loc = false
      ∧ s.now < e.endAt)
  ∧ (∃ (c : OcuCopy) (s : State), s.linkOn = false)
  ∧ (∃ (c : OcuCopy) (k : CmpKey) (e : Pend) (s : State), s.linkOn = true ∧ c.key = some k ∧ s.pend k = some e ∧ e.loc = true
      ∧ s.now < e.endAt ∧ c.digest ≠ e.digest ∧ excused k.inst s = false)
  ∧ (∃ (k : CmpKey) (e : Pend) (s : State), s.pend k = some e ∧ e.endAt ≤ s.now ∧ excused k.inst s = true)
  ∧ (∃ (k : CmpKey) (e : Pend) (s : State), s.pend k = some e ∧ e.endAt ≤ s.now ∧ excused k.inst s = false)
  ∧ (∃ (k : CmpKey) (p : Picture) (s : State), s.island = true ∧ s.laneUp = true ∧ (s.ocu.pictures.find? fun p => p.key == k) = some p
      ∧ pickedUp p s = true ∧ s.cgu.role = .standby ∧ s.fPair = 0 ∧ p.tripLocal = true ∧ s.ocu.takeBlock = false ∧ s.mlk.word.role = .active
      ∧ p.both = false ∧ s.mlk.partner = .present ∧ s.mlk.partnerClaim ≠ 0xFFFFFFFF)
  ∧ (∃ (k : CmpKey) (p : Picture) (s : State), s.island = true ∧ (s.ocu.pictures.find? fun p => p.key == k) = some p
      ∧ (∀ q ∈ s.ocu.pictures, q.key = k → pickedUp q s = false) ∧ p.t + ms p.winMs ≤ s.now ∧ s.cgu.role = .standby ∧ s.fPair = 0
      ∧ p.tripLocal = true ∧ p.both = false)
  ∧ (∃ (k : CmpKey) (p : Picture) (s : State), s.island = true ∧ (s.ocu.pictures.find? fun p => p.key == k) = some p ∧ pickedUp p s = true
      ∧ s.cgu.role = .standby ∧ s.fPair = 0 ∧ p.both = true)
  ∧ (∃ (k : CmpKey) (s : State), s.island = false)
  ∧ (∃ (row : Nat) (own : Bool) (k : CmpKey) (s : State), s.linkOn = true) :=
  ⟨⟨gCopy, [{}], gKey, ((twoUnits s0).modOcu fun o => { o with ctrlIn := [gCopy, {}] }), by decide +kernel⟩,
   ⟨gCopy, [{}], gKey, { key := gKey, digest := gCopy.digest, loc := false, endAt := 100000001000 }, (((twoUnits s0).modOcu fun o => { o with pending := [{ key := gKey, digest := gCopy.digest, loc := false, endAt := 100000001000 }] }).modOcu fun o => { o with ctrlIn := [gCopy, {}] }), by decide +kernel⟩,
   ⟨gCopy, gKey, { key := gKey, digest := gCopy.digest, loc := false, endAt := 100000001000 }, ((twoUnits s0).modOcu fun o => { o with pending := [{ key := gKey, digest := gCopy.digest, loc := false, endAt := 100000001000 }] }), by decide +kernel⟩,
   ⟨gCopy, ((twoUnits s0).modMlk fun m => { m with enabledAt := none }), by decide +kernel⟩,
   ⟨gCopy, gKey, { key := gKey, digest := 7, loc := true, endAt := 100000001000 }, ((twoUnits s0).modOcu fun o => { o with pending := [{ key := gKey, digest := 7, loc := true, endAt := 100000001000 }] }), by decide +kernel⟩,
   ⟨gKey, { key := gKey, digest := 7, loc := true, endAt := 99999999000 }, (((twoUnits s0).modOcu fun o => { o with pending := [{ key := gKey, digest := 7, loc := true, endAt := 99999999000 }] }).setInst 1 fun d => { d with state := .halted }), by decide +kernel⟩,
   ⟨gKey, { key := gKey, digest := 7, loc := true, endAt := 99999999000 }, ((twoUnits s0).modOcu fun o => { o with pending := [{ key := gKey, digest := 7, loc := true, endAt := 99999999000 }] }), by decide +kernel⟩,
   ⟨gKey, { key := gKey, t := 99999999000, zone := 2, tripLocal := true }, (((isl (twoUnits s0)).modOcu fun o => { o with pictures := [{ key := gKey, t := 99999999000, zone := 2, tripLocal := true }] }).modBki fun b => { b with spans := [{ zone := 2, fromNs := 99999999000 }] }), by decide +kernel⟩,
   ⟨gKey, { key := gKey, t := 99969999000, zone := 2, tripLocal := true }, (((isl (twoUnits s0)).modOcu fun o => { o with pictures := [{ key := gKey, t := 99969999000, zone := 2, tripLocal := true }] }).modBki fun b => { b with spans := [] }), by decide +kernel⟩,
   ⟨gKey, { key := gKey, t := 99999999000, zone := 2, tripLocal := true, both := true }, (((isl (twoUnits s0)).modOcu fun o => { o with pictures := [{ key := gKey, t := 99999999000, zone := 2, tripLocal := true, both := true }] }).modBki fun b => { b with spans := [{ zone := 2, fromNs := 99999999000 }] }), by decide +kernel⟩,
   ⟨gKey, (s0.modBki fun b => { b with running := false }), by decide +kernel⟩,
   ⟨3, true, gKey, (twoUnits s0), by decide +kernel⟩⟩

theorem witness_StatusWordsAndThePartner :
  (∃ (s : State), s.linkOn = true ∧ (∀ a, s.mlk.sentAt = some a → a + us 100 ≤ s.now))
  ∧ (∃ (k : Nat) (w : StatusWord) (l : Lane) (s : State), s.linkOn = true ∧ k < 2 ∧ s.mlk.lanes[k]? = some l ∧ s.mlk.partner = .present
      ∧ w.unit ≠ s.cgu.unitId ∧ w.f = s.mlk.word.f ∧ s.ocu.fSeen = s.fPair ∧ s.mlk.swHeld = none)
  ∧ (∃ (k : Nat) (w : StatusWord) (s : State), s.linkOn = true ∧ k < 2 ∧ s.mlk.lanes.length = 2
      ∧ (s.mlk.partner = .awaited ∨ (s.mlk.partner = .lost ∧ 10 ≤ ((s.mlk.lanes.getD k {}).word s.now).run)) ∧ w.unit ≠ s.cgu.unitId
      ∧ w.f = false ∧ s.unitF = false ∧ s.mlk.swHeld = none)
  ∧ (∃ (k : Nat) (w : StatusWord) (s : State), s.linkOn = true ∧ k < 2 ∧ w.unit = s.cgu.unitId ∧ w.unit ≠ 0 ∧ s.cgu.idConflict = none
      ∧ s.mlk.swHeld = none)
  ∧ (∃ (k a : Nat) (l : Lane) (s : State), s.mlk.lanes[k]? = some l ∧ s.mlk.enabledAt = some a ∧ (l.failed = false ∨ l.goodFrom.isSome)
      ∧ l.lastAt.getD a + ms 1 ≤ s.now ∧ s.quietOver .mlk 0 = false)
  ∧ (∃ (s : State), s.mlk.partner = .present ∧ s.mlk.lanes.foldl (fun m l => max m (l.lastAt.getD 0)) 0 + ms s.mlk.partnerToMs ≤ s.now)
  ∧ (∃ (a : Nat) (s : State), s.mlk.partner = .awaited ∧ s.mlk.enabledAt = some a ∧ a + sec 30 ≤ s.now) :=
  ⟨⟨((twoUnits s0).modMlk fun m => { m with sentAt := some 99999900000 }), by decide +kernel⟩,
   ⟨1, { unit := 2, claim := 9, role := .active }, { up := true, lastAt := some 99999999000 }, (twoUnits s0), by decide +kernel⟩,
   ⟨0, { unit := 2, claim := 9, role := .active }, ((twoUnits s0).modMlk fun m => { m with partner := .awaited }), by decide +kernel⟩,
   ⟨0, { unit := 1 }, ((twoUnits s0).modCgu fun c => { c with idConflict := none }), by decide +kernel⟩,
   ⟨0, 0, { up := true, failed := false, lastAt := some 99998000000 }, ((twoUnits s0).modMlk fun m => { m with lanes := [{ up := true, failed := false, lastAt := some 99998000000 }, {}] }), by decide +kernel⟩,
   ⟨((twoUnits s0).modMlk fun m => { m with lanes := [{ up := true, lastAt := some 99990000000 }, {}], partnerToMs := 5 }), by decide +kernel⟩,
   ⟨70000000000, ((twoUnits s0).modMlk fun m => { m with partner := .awaited, enabledAt := some 70000000000 }), by decide +kernel⟩⟩

theorem witness_MirrorSetsAndSwitchBack :
  (∃ (i g a n : Nat) (s : State), s.genCurrent i g = true ∧ 8 < n)
  ∧ (∃ (i g a n : Nat) (s : State), let rd := fun a n => if (s.inst i).inLs a n then lsRead i a n s else dramRead i a n s; let es := (List.range n).map fun k => (leNat (rd (a + 8 * k) 4), leNat (rd (a + 8 * k + 4) 4)); let others := ((s.mlk.mir.filter fun p => p.1 != i).map fun p => (p.2.declared.map fun r => r.2).sum).sum; s.genCurrent i g = true
      ∧ n ≤ 8 ∧ ((s.inst i).inLs a (8 * n) = true ∨ (s.inst i).inDram a (8 * n) = true) ∧ (∀ e ∈ es, e.1 % 256 = 0
      ∧ (s.inst i).inLs e.1 (256 * e.2) = true) ∧ (es.map fun e => e.2).sum ≤ (s.inst i).share.mir
      ∧ (others + (es.map fun e => e.2).sum) * 2048 ≤ 20000000 * s.mlk.epochMs)
  ∧ (∃ (i : Nat) (m : MirSet) (s : State), (s.mlk.mir.get i {}).staged = some m ∧ s.cgu.role = .active ∧ s.mlk.partner = .present
      ∧ s.linkOn = true ∧ (s.mlk.lanes.any fun l => l.up) = true)
  ∧ (∃ (i : Nat) (m : MirSet) (s : State), (s.mlk.mir.get i {}).staged = some m
      ∧ (s.cgu.role ≠ .active ∨ s.partnerGone = true ∨ s.laneUp = false))
  ∧ (∃ (m : MirSet) (crc whole : Bool) (s : State), s.linkOn = true ∧ s.cgu.role.protecting = false
      ∧ (crc = false ∨ whole = false ∨ mirrorOff m.inst s = true))
  ∧ (∃ (m : MirSet) (s : State), s.linkOn = true ∧ s.cgu.role.protecting = false ∧ mirrorOff m.inst s = false)
  ∧ (∃ (u a h : Nat) (s : State), s.mlk.swHeld = some (u, a, h) ∧ a + sec 10 ≤ s.now) :=
  ⟨⟨1, 1, 0, 9, (wi s0), by decide +kernel⟩,
   ⟨1, 1, 0, 1, ((((wi s0).modMlk fun m => { m with mir := [], epochMs := 4 }).modInsts fun i => { i with lsMem := [(163844, 1)] })), by decide +kernel⟩,
   ⟨1, {}, (((twoUnits s0).modMlk fun m => { m with mir := [(1, { staged := some {} })] }).modCgu fun c => { c with role := .active }), by decide +kernel⟩,
   ⟨1, {}, ((twoUnits s0).modMlk fun m => { m with mir := [(1, { staged := some {} })] }), by decide +kernel⟩,
   ⟨{ inst := 1 }, false, true, (twoUnits s0), by decide +kernel⟩,
   ⟨{ inst := 1 }, (twoUnits s0), by decide +kernel⟩,
   ⟨2, 5, 40, (s0.modMlk fun m => { m with swHeld := some (2, 5, 40) }), by decide +kernel⟩⟩

theorem witness_DomainsFollowTheirMasters :
  (∃ (k : Nat) (b : Bool) (m : SyncMsg) (s : State), s.ptpHears k m.dst ptpAddr = true ∧ (s.port k).stampsOff = false
      ∧ syncIntervals.contains m.intervalNs = true ∧ domainsOf m.domain s = [b] ∧ (s.time.dom b).slave = some k
      ∧ (s.time.dom b).gm = some m.source ∧ s.persist.fwUp = false)
  ∧ (∃ (k : Nat) (m : SyncMsg) (s : State), (s.ptpHears k m.dst ptpAddr = false ∨ (s.port k).stampsOff = true))
  ∧ (∃ (k : Nat) (b : Bool) (m : SyncMsg) (s : State), s.ptpHears k m.dst ptpAddr = true ∧ (s.port k).stampsOff = false
      ∧ syncIntervals.contains m.intervalNs = true ∧ domainsOf m.domain s = [b] ∧ (s.time.dom b).slave = some k
      ∧ (s.time.dom b).gm = some m.source ∧ s.persist.fwUp = true ∧ b ≠ s.time.refAct ∧ (s.time.dom b).state = 1 ∧ 15 ≤ (s.time.dom b).good
      ∧ 15 ≤ (s.time.dom b).hist.length ∧ (rawOffset k m s - meanOf ((rawOffset k m s :: (s.time.dom b).hist).take 16)).natAbs ≤ 100 * 65536)
  ∧ (∃ (k : Nat) (b : Bool) (m : SyncMsg) (s : State), s.ptpHears k m.dst ptpAddr = true ∧ (s.port k).stampsOff = false
      ∧ syncIntervals.contains m.intervalNs = true ∧ domainsOf m.domain s = [b] ∧ (s.time.dom b).slave = some k
      ∧ (s.time.dom b).gm = some m.source ∧ s.persist.fwUp = true ∧ b = s.time.refAct ∧ (s.time.dom b).state = 0
      ∧ (s.time.dom b).locked = false ∧ (∀ j, j < 32 → (s.time.cmp j).en = false))
  ∧ (∃ (k : Nat) (b : Bool) (m : AnnMsg) (s : State), s.ptpHears k m.dst ptpAddr = true ∧ (s.ptp k).usable = true ∧ m.body.logInt ≤ 2
      ∧ 0 < s.time.annTimeout ∧ domainsOf m.domain s = [b] ∧ (s.time.dom b).best = [])
  ∧ (∃ (k : Nat) (s : State), k < 6 ∧ (s.ptp k).ptpEn = true ∧ (s.ptp k).pdelayEn = true ∧ (s.port k).link = true ∧ (s.ptp k).reqOut = false
      ∧ ((s.ptp k).reqStamp = 0 ∨ (s.ptp k).reqStamp + sec 1 ≤ s.now))
  ∧ (∃ (k : Nat) (s : State), k < 6 ∧ (s.ptp k).ptpEn = true ∧ (s.ptp k).pdelayEn = true ∧ (s.port k).link = true ∧ (s.ptp k).reqOut = true
      ∧ (s.ptp k).missed = 2 ∧ 0 < (s.ptp k).reqStamp ∧ (s.ptp k).reqStamp + sec 1 ≤ s.now)
  ∧ (∃ (k : Nat) (d : Int) (s : State), k < 6 ∧ (s.ptp k).ptpEn = true ∧ (s.ptp k).pdelayEn = true ∧ (s.ptp k).reqOut = true)
  ∧ (∃ (b : Bool) (s : State), ((s.time.dom b).state = 1 ∨ (s.time.dom b).state = 2) ∧ (s.time.dom b).best = []
      ∧ (s.time.dom b).lastSync + 3 * (s.time.dom b).syncNs ≤ s.now ∧ s.time.autoSwitch = false)
  ∧ (∃ (b : Bool) (s : State), (s.time.dom b).state = 3 ∧ (s.time.dom b).holdAt + sec s.time.holdoverS ≤ s.now) :=
  ⟨⟨0, false, { source := 5 }, ((ptpUp s0).modPersist fun p => { p with fwUp := false }), by decide +kernel⟩,
   ⟨9, {}, s0, by decide +kernel⟩,
   ⟨0, true, { domain := 254, source := 5, origin := 0 }, ((ptpUp s0).modTime fun t => { t with domB := { num := 254, slave := some 0, gm := some 5, state := 1, good := 15, hist := List.replicate 15 0 } }), by decide +kernel⟩,
   ⟨0, false, { source := 5, origin := 65536 * 500 }, (ptpUp s0), by decide +kernel⟩,
   ⟨0, false, { body := { gm := 7 } }, (ptpUp s0), by decide +kernel⟩,
   ⟨0, (ptpUp s0), by decide +kernel⟩,
   ⟨0, ((ptpUp s0).modTime fun t => { t with ports := [(0, { ptpEn := true, reqOut := true, missed := 2, reqStamp := 5 })] }), by decide +kernel⟩,
   ⟨0, 30, ((ptpUp s0).modTime fun t => { t with ports := [(0, { ptpEn := true, reqOut := true })] }), by decide +kernel⟩,
   ⟨false, ((ptpUp s0).modTime fun t => { t with domA := { state := 2, lastSync := 5 } }), by decide +kernel⟩,
   ⟨true, ((ptpUp s0).modTime fun t => { t with domB := { num := 254, state := 3, holdAt := 5 } }), by decide +kernel⟩⟩

theorem witness_StepsSwitchesComparatorsAndStamps :
  (∃ (s : State), s.time.tbStopped = false ∧ (∀ j, j < 32 → (s.time.cmp j).en = false))
  ∧ (∃ (ref : Bool) (s : State), ref ≠ s.time.ref)
  ∧ (∃ (s : State), s.time.slewing = false)
  ∧ (∃ (s : State), s.time.slewing = true ∧ s.time.tbStopped = false)
  ∧ (∃ (k : Nat) (s : State), k < 32 ∧ (s.time.cmp k).en = true ∧ (s.time.cmp k).time ≤ s.time.tbNs
      ∧ ((s.time.cmp k).dest.getLsbD 0 = false ∨ k < 8) ∧ (s.time.cmp k).dest.getLsbD 1 = false
      ∧ ((s.time.cmp k).dest.getLsbD 2 = false ∨ k < 8))
  ∧ (∃ (k : Nat) (s : State), k < 32 ∧ (s.time.cmp k).en = true ∧ (s.time.cmp k).time ≤ s.time.tbNs ∧ (s.time.cmp k).dest = 2
      ∧ s.bkiFollows = true)
  ∧ (∃ (k : Nat) (v : BitVec 32) (s : State), k < 32 ∧ (bitOf v 31 = false ∨ s.time.tbNs < (s.time.cmp k).time))
  ∧ (∃ (k : Nat) (v : BitVec 32) (s : State), k < 32 ∧ bitOf v 31 = true ∧ bitOf v 30 = false ∧ bits v 27 24 = 0
      ∧ (s.time.cmp k).time ≤ s.time.tbNs)
  ∧ (∃ (s : State), let n := (s.time.tbNs / sec 1 + 1) * sec 1; s.time.ppsEn = true ∧ n ≤ (s.untilTb n).time.tbNs)
  ∧ (∃ (s : State), s.time.ppsOut = true ∧ s.time.ppsFrom + us s.time.ppsWidth ≤ s.now)
  ∧ (∃ (e : StampEntry) (q : List StampEntry) (s : State), s.time.stampQ = e :: q ∧ e.byMgp = false ∧ s.genCurrent e.inst e.gen = true
      ∧ s.time.stampRings.has e.inst = true)
  ∧ (∃ (e : StampEntry) (q : List StampEntry) (s : State), s.time.stampQ = e :: q ∧ e.byMgp = false ∧ s.genCurrent e.inst e.gen = false) :=
  ⟨⟨((ptpUp s0).modTime fun t => { t with step := -600 }), by decide +kernel⟩,
   ⟨true, ((ptpUp s0).modTime fun t => { t with domB := { num := 254, ofs := 77 } }), by decide +kernel⟩,
   ⟨(ptpUp s0), by decide +kernel⟩,
   ⟨((ptpUp s0).modTime fun t => { t with slewing := true, slewRem := -5000 }), by decide +kernel⟩,
   ⟨9, ((ptpUp s0).modTime fun t => { t with cmps := [(9, { en := true, time := 900, periodic := true, period := 1000, dest := 8 })] }), by decide +kernel⟩,
   ⟨9, ((((ptpUp s0).modTime fun t => { t with cmps := [(9, { en := true, time := 900, dest := 2 })] }).modBki fun b => { b with sync := true, smpCnt := 5 }).modTime fun t => { t with domA := { t.domA with state := 2 } }), by decide +kernel⟩,
   ⟨9, 0xC0000000, ((ptpUp s0).modTime fun t => { t with cmps := [(9, { time := 1001, period := 1000 })] }), by decide +kernel⟩,
   ⟨9, 0x80000000, ((ptpUp s0).modTime fun t => { t with cmps := [(9, { time := 1000 })] }), by decide +kernel⟩,
   ⟨((ptpUp s0).modTime fun t => { t with ppsEn := true, ppsGate := false }), by decide +kernel⟩,
   ⟨((ptpUp s0).modTime fun t => { t with ppsOut := true, ppsFrom := 5 }), by decide +kernel⟩,
   ⟨{ inst := 1, gen := 1 }, [{}], ((wi s0).modTime fun t => { t with stampQ := [{ inst := 1, gen := 1 }, {}], stampRings := [(1, { addr := 0x100, ctl := 0x40 })] }), by decide +kernel⟩,
   ⟨{ inst := 1, gen := 2 }, [{}], ((wi s0).modTime fun t => { t with stampQ := [{ inst := 1, gen := 2 }, {}] }), by decide +kernel⟩⟩

theorem witness_BackstopIslandProtects :
  (∃ (xs : List (List Int)) (cm : List Int) (s : State), s.bkiConverts = true ∧ s.bki.nextOut ≤ s.now ∧ s.bki.commitPend = false
      ∧ s.season.season ≠ .winter)
  ∧ (∃ (xs : List (List Int)) (cm : List Int) (s : State), s.bkiConverts = false)
  ∧ (∃ (xs : List (List Int)) (cm : List Int) (s : State), s.bkiConverts = true ∧ s.bki.nextOut ≤ s.now ∧ s.bki.commitPend = true
      ∧ s.season.season ≠ .winter)
  ∧ (∃ (j : Nat) (s : State), j < 4 ∧ s.bki.btHoldEnd.has j = true ∧ s.bki.btHoldEnd.get j 0 ≤ s.now ∧ s.bki.btEn.getLsbD j = true
      ∧ s.bki.tripsOut j = false ∧ s.bki.btDriven.getLsbD j = true ∧ s.bki.restarting = false)
  ∧ (∃ (j : Nat) (s : State), s.bki.restarting = true)
  ∧ (∃ (m : Nat) (s : State), s.bkiConverts = true ∧ (s.bki.calEn = true ∨ s.bki.calLast = true) ∧ s.bki.calAt + sec s.bki.calStepS ≤ s.now
      ∧ m ≤ 5000)
  ∧ (∃ (m : Nat) (s : State), s.bkiConverts = true ∧ (s.bki.calEn = true ∨ s.bki.calLast = true) ∧ s.bki.calAt + sec s.bki.calStepS ≤ s.now
      ∧ 5000 < m ∧ s.bki.calFails = 2 ∧ s.bki.calNext < 8 ∧ s.quietOver .bki 0 = false)
  ∧ (∃ (s : State), s.power.aonGood = true ∧ s.bki.noImage = false ∧ s.bki.coresHeld = false ∧ mismatchClass s = 2
      ∧ s.quietOver .bki 0 = false)
  ∧ (∃ (s : State), s.power.aonGood = true ∧ s.bki.noImage = false ∧ s.bki.coresHeld = false ∧ mismatchClass s = 3)
  ∧ (∃ (s : State), s.bki.restarting = true ∧ s.bki.coresHeld = false)
  ∧ (∃ (v : BitVec 32) (s : State), s.bki.mgpReset = false ∧ ¬(s.bki.hb = 1 ∧ s.bki.hbAt + ms 20 ≤ s.now))
  ∧ (∃ (s : State), s.island = true ∧ s.bki.hb = 1 ∧ s.bki.hbAt + ms 20 ≤ s.now ∧ s.mlk.partner = .present ∧ s.mlk.word.hb ≠ 2
      ∧ s.mlk.word.hb ≠ 3)
  ∧ (∃ (s : State), s.island = true ∧ s.bki.mgpReset = false ∧ s.bki.hbSinceReset = false ∧ s.bki.mgpResetAt + sec 5 ≤ s.now)
  ∧ (∃ (s : State), s.bki.coresHeld = false ∧ s.bki.noImage = false) :=
  ⟨⟨[], [], ((isl s0).modBki fun b => { b with btEn := 1, elems := [(0, { trip := true })], bank0 := [(0, { en := true, btMask := 1 })], bank1 := [(0, { en := true, btMask := 1 })] }), by decide +kernel⟩,
   ⟨[[5]], [], (s0.modBki fun b => { b with running := false }), by decide +kernel⟩,
   ⟨[[5, 6]], [], ((isl s0).modBki fun b => { b with commitPend := true }), by decide +kernel⟩,
   ⟨0, ((isl s0).modBki fun b => { b with btEn := 3, btDriven := 3, btHoldEnd := [(0, 5)], elems := [] }), by decide +kernel⟩,
   ⟨0, (s0.modBki fun b => { b with restarting := true }), by decide +kernel⟩,
   ⟨5000, (isl s0), by decide +kernel⟩,
   ⟨5001, ((isl s0).modBki fun b => { b with calFails := 2, calNext := 3 }), by decide +kernel⟩,
   ⟨((isl s0).modBki fun b => { b with lastMismatch := none, btDriven := 2 }), by decide +kernel⟩,
   ⟨((isl s0).modBki fun b => { b with lastMismatch := some 99999999000, btDriven := 2 }), by decide +kernel⟩,
   ⟨((isl s0).modBki fun b => { b with restarting := true }), by decide +kernel⟩,
   ⟨1, ((isl s0).modBki fun b => { b with hb := 0, hbValue := 0 }), by decide +kernel⟩,
   ⟨(((isl s0).modBki fun b => { b with hb := 1 }).modMlk fun m => { m with partner := .present, word := { unit := 2 } }), by decide +kernel⟩,
   ⟨((isl s0).modBki fun b => { b with hbSinceReset := false, mgpResetAt := 5 }), by decide +kernel⟩,
   ⟨(isl s0), by decide +kernel⟩⟩

theorem witness_SeasonsAndTheirWakeSources :
  (∃ (v : BitVec 32) (s : State), bitOf v 31 = false)
  ∧ (∃ (v : BitVec 32) (k : Nat) (s : State), bitOf v 31 = true ∧ bits v 30 29 = 1 ∧ s.season.season = .summer ∧ s.season.changing = none
      ∧ k < 8 ∧ (s.psc k).running = true)
  ∧ (∃ (v : BitVec 32) (r : Nat) (s : State), bitOf v 31 = true ∧ bits v 30 29 = 3 ∧ winterRefused (bitOf v 28) s = some r)
  ∧ (∃ (v : BitVec 32) (s : State), bitOf v 31 = true ∧ bits v 30 29 = 3 ∧ winterRefused (bitOf v 28) s = none
      ∧ (s.season.season = .summer ∨ s.season.season = .autumn))
  ∧ (∃ (s : State), s.pending = [] ∧ s.entering = true ∧ s.framesStopped = true ∧ s.season.wakeHeld = none)
  ∧ (∃ (s : State), let u := s.until (s.now + ms 1); s.season.season = .winter ∧ s.power.wakeLow = false ∧ s.now + ms 1 ≤ u.now
      ∧ s.power.mainGood = true ∧ s.power.disconnected = false ∧ s.head.present = true)
  ∧ (∃ (s : State), let u := s.until (s.now + ms 1); s.season.season ≠ .winter ∧ s.power.wakeLow = false ∧ s.now + ms 1 ≤ u.now)
  ∧ (∃ (s : State), s.power.wakeLow = true)
  ∧ (∃ (s : State), s.season.season = .winter ∧ s.season.wakeEn.getLsbD 2 = true ∧ s.season.wakeTimerS ≠ 0
      ∧ s.season.winterAge + sec s.season.wakeTimerS ≤ s.now ∧ s.power.mainGood = true ∧ s.power.disconnected = false)
  ∧ (∃ (f p : List Byte) (s : State), s.season.season = .winter ∧ 64 ≤ frameLen f ∧ frameLen f ≤ 1522 ∧ s.clockUp .cu = true
      ∧ s.wake.active = some p ∧ p.length = 16 ∧ wakeDest f s = true ∧ wakeMatch p f = true ∧ s.season.wakeEn.getLsbD 0 = true
      ∧ s.power.mainGood = true ∧ s.power.disconnected = false)
  ∧ (∃ (f p : List Byte) (s : State), s.season.season = .winter ∧ 64 ≤ frameLen f ∧ frameLen f ≤ 1522 ∧ s.clockUp .cu = true
      ∧ s.wake.active = some p ∧ (wakeDest f s = false ∨ wakeMatch p f = false))
  ∧ (∃ (f : List Byte) (ok : Bool) (s : State), s.clockUp .cu = false) :=
  ⟨⟨0x60000005, s0, by decide +kernel⟩,
   ⟨0xA0000000, 0, ((isl s0).setPsc 0 fun p => { p with running := true }), by decide +kernel⟩,
   ⟨0xE0000000, 1, ((isl s0).modCgu fun c => { c with role := .active }), by decide +kernel⟩,
   ⟨0xF0000000, ((((((isl s0).modCgu fun c => { c with role := .active }).modMlk fun m => { m with partner := .lost }).modSched fun x => { x with pscs := [] }).modPersist fun p => { p with switchOp := none }).modSw fun w => { w with applyOp := none }), by decide +kernel⟩,
   ⟨((isl s0).modSeason fun x => { x with changing := some .winter, wakeHeld := none }), by decide +kernel⟩,
   ⟨((wint s0).modHead fun h => { h with present := true }), by decide +kernel⟩,
   ⟨(isl s0), by decide +kernel⟩,
   ⟨((isl s0).modPower fun p => { p with wakeLow := true }), by decide +kernel⟩,
   ⟨(wint s0), by decide +kernel⟩,
   ⟨(fr ([255, 255, 255, 255, 255, 255, 0, 0, 0, 0, 0, 9, 8, 0] ++ (List.replicate 8 (List.replicate 15 1 ++ [2])).flatten)), (List.replicate 15 1 ++ [2]), ((wint s0).modWake fun w => { w with active := some (List.replicate 15 1 ++ [2]) }), by decide +kernel⟩,
   ⟨(fr [255, 255, 255, 255, 255, 255, 0, 0, 0, 0, 0, 9, 8, 0]), (List.replicate 15 1 ++ [2]), ((wint s0).modWake fun w => { w with active := some (List.replicate 15 1 ++ [2]) }), by decide +kernel⟩,
   ⟨[], true, (s0.modFaults fun f => { f with clocks := [(Island.cu.num, true)] }), by decide +kernel⟩⟩

theorem witness_SuppliesResetsAndTemperature :
  (∃ (a : AonIn) (b : Bool) (s : State), let ok := (a.okA && backstopVerified (s.persist.bkiImg.getD 0 {}) s) || (b && backstopVerified (s.persist.bkiImg.getD 1 {}) s); s.power.aonGood = false
      ∧ 10500 < a.mv ∧ a.mv ≤ 14500 ∧ (s.power.aonOver = true → a.mv < 14000) ∧ (s.power.mainGood = true → s.head.present = true))
  ∧ (∃ (a : AonIn) (b : Bool) (s : State), s.power.aonGood = false ∧ (a.mv ≤ 10500 ∨ (s.power.aonOver = true ∧ 14000 ≤ a.mv ∧ a.mv ≤ 14500)))
  ∧ (∃ (a : AonIn) (b : Bool) (s : State), 14500 < a.mv)
  ∧ (∃ (d : Int) (s : State), 135 < d)
  ∧ (∃ (m : MainIn) (s : State), 10500 < m.mv ∧ m.mv ≤ 14500 ∧ (s.power.mainOver = true → m.mv < 14000) ∧ s.power.aonGood = true
      ∧ s.season.season = .winter ∧ s.power.mainGood = false ∧ s.power.disconnected = false ∧ s.season.winterCause = true
      ∧ s.time.tbStopped = true ∧ s.time.oscFailed = false)
  ∧ (∃ (m : MainIn) (s : State), 10500 < m.mv ∧ m.mv ≤ 14500 ∧ (s.power.mainOver = true → m.mv < 14000) ∧ s.power.aonGood = true
      ∧ (s.season.season = .summer ∨ s.season.season = .autumn) ∧ s.power.internalFail = false ∧ s.power.mainGood = false)
  ∧ (∃ (m : MainIn) (s : State), (m.mv ≤ 10500 ∨ (s.power.mainOver = true ∧ 14000 ≤ m.mv ∧ m.mv ≤ 14500)))
  ∧ (∃ (m : MainIn) (s : State), 14500 < m.mv ∧ s.power.aonGood = true ∧ s.season.season ≠ .winter)
  ∧ (∃ (s : State), s.power.aonGood = true ∧ s.season.season ≠ .winter)
  ∧ (∃ (s : State), s.power.pfwLow = false ∧ s.power.aonGood = true ∧ s.now + 2000 ≤ (s.until (s.now + 2000)).now ∧ s.season.season ≠ .spring)
  ∧ (∃ (s : State), s.power.pfwLow = true ∧ s.power.resetPend = false)
  ∧ (∃ (mv n : Nat) (s : State), n < 50)
  ∧ (∃ (mv n : Nat) (s : State), mv < 10200 ∧ 50 ≤ n ∧ s.power.pfwLow = false ∧ s.power.internalFail = false ∧ s.power.mainGood = true
      ∧ s.season.season ≠ .spring)
  ∧ (∃ (s : State), let u := s.until (s.now + 10000); s.power.resetLow = false ∧ s.now + 10000 ≤ u.now ∧ s.power.aonGood = true
      ∧ s.evr.saveInto = none ∧ s.season.season ≠ .winter)
  ∧ (∃ (s : State), s.power.resetLow = true)
  ∧ (∃ (k : Nat) (s : State), s.power.resetLow = false ∧ s.now + 10000 ≤ (s.until (s.now + 10000)).now ∧ s.power.aonGood = true
      ∧ s.evr.saveInto = some k)
  ∧ (∃ (s : State), s.power.resetLow = true ∧ s.power.aonGood = true ∧ s.power.resetPend = false ∧ s.season.season ≠ .winter
      ∧ s.head.present = true)
  ∧ (∃ (d : Int) (s : State), s.power.disconnected = false ∧ s.power.mainGood = true ∧ s.season.season ≠ .winter ∧ d ≤ 105
      ∧ s.power.hot = false ∧ s.power.hotSince = none)
  ∧ (∃ (d : Int) (s : State), s.power.disconnected = false ∧ s.power.mainGood = true
      ∧ (s.season.season = .summer ∨ s.season.season = .autumn) ∧ 125 < d ∧ s.power.cutoffAt = none)
  ∧ (∃ (a : Nat) (s : State), s.power.cutoffAt = some a ∧ a + ms 20 ≤ s.now ∧ s.season.season ≠ .winter)
  ∧ (∃ (r : Rail) (n : Nat) (s : State), 10 ≤ n ∧ railOn r s = true)
  ∧ (∃ (r : Rail) (n : Nat) (s : State), n < 10)
  ∧ (∃ (r : Rail) (s : State), r.ofIsland = true)
  ∧ (∃ (k : Nat) (s : State), k < 8 ∧ s.persist.fwUp = true ∧ s.season.season ≠ .winter ∧ (s.psc k).en = false ∧ s.time.tbStopped = false) :=
  ⟨⟨{}, false, (((isl s0).modPower fun p => { p with aonGood := false }).modHead fun h => { h with present := true }), by decide +kernel⟩,
   ⟨{ mv := 14200 }, true, (s0.modPower fun p => { p with aonGood := false, aonOver := true }), by decide +kernel⟩,
   ⟨{ mv := 14501 }, true, s0, by decide +kernel⟩,
   ⟨136, s0, by decide +kernel⟩,
   ⟨{}, ((((wint s0).modPower fun p => { p with mainGood := false, disconnected := false }).modSeason fun x => { x with winterCause := true }).modTime fun t => { t with tbStopped := true, oscFailed := false }), by decide +kernel⟩,
   ⟨{}, ((isl s0).modPower fun p => { p with internalFail := false, mainGood := false }), by decide +kernel⟩,
   ⟨{ mv := 14200 }, ((isl s0).modPower fun p => { p with mainOver := true }), by decide +kernel⟩,
   ⟨{ mv := 14501 }, (isl s0), by decide +kernel⟩,
   ⟨(isl s0), by decide +kernel⟩,
   ⟨((isl s0).modPower fun p => { p with pfwLow := false }), by decide +kernel⟩,
   ⟨((isl s0).modPower fun p => { p with pfwLow := true, resetPend := false }), by decide +kernel⟩,
   ⟨10100, 49, (isl s0), by decide +kernel⟩,
   ⟨10199, 60, ((isl s0).modPower fun p => { p with pfwLow := false, internalFail := false, mainGood := true }), by decide +kernel⟩,
   ⟨((isl s0).modEvr fun e => { e with saveInto := none }), by decide +kernel⟩,
   ⟨((isl s0).modPower fun p => { p with resetLow := true }), by decide +kernel⟩,
   ⟨1, ((isl s0).modEvr fun e => { e with saveInto := some 1 }), by decide +kernel⟩,
   ⟨(((isl s0).modPower fun p => { p with resetLow := true, resetPend := false, slotId := 2 }).modHead fun h => { h with present := true }), by decide +kernel⟩,
   ⟨105, ((isl s0).modPower fun p => { p with disconnected := false, mainGood := true, hot := false, hotSince := none }), by decide +kernel⟩,
   ⟨126, ((isl s0).modPower fun p => { p with disconnected := false, mainGood := true, cutoffAt := none }), by decide +kernel⟩,
   ⟨99980000000, ((isl s0).modPower fun p => { p with cutoffAt := some 99980000000 }), by decide +kernel⟩,
   ⟨.v3a, 10, (isl s0), by decide +kernel⟩,
   ⟨(.vc 1), 9, s0, by decide +kernel⟩,
   ⟨.vbk, s0, by decide +kernel⟩,
   ⟨2, ((((isl s0).setPsc 2 fun p => { p with en := false }).modTime fun t => { t with tbStopped := false }).modPersist fun p => { p with fwUp := true }), by decide +kernel⟩⟩

theorem witness_FaultSetsLeaveAndInject :
  (∃ (b : BlockId) (u : Nat) (s : State), isSet b u = true ∧ (s.fset b u).state = true ∧ (s.fset b u).persist = false ∧ ¬(b = .bki
      ∧ s.bki.coresHeld = true) ∧ (s.fset b u).quietEnd ≤ s.now)
  ∧ (∃ (b : BlockId) (u : Nat) (s : State), ((s.fset b u).persist = true ∨ (s.fset b u).state = false ∨ (b = .bki ∧ s.bki.coresHeld = true)))
  ∧ (∃ (b : BlockId) (u : Nat) (v : BitVec 32) (s : State), isSet b u = true ∧ bitOf v 31 = false)
  ∧ (∃ (b : BlockId) (u : Nat) (v : BitVec 32) (s : State), isSet b u = true ∧ bitOf v 31 = true ∧ bitOf v 30 = false ∧ bits v 27 24 ≤ 3
      ∧ bits v 7 0 ≠ 0 ∧ bits v 17 13 ≤ 17 ∧ (s.fset b u).injArm = false)
  ∧ (∃ (b : BlockId) (u : Nat) (v : BitVec 32) (s : State), bitOf v 31 = true
      ∧ ((s.fset b u).injArm = true ∨ injectable (bits v 27 24) (bitOf v 30) = false ∨ bits v 7 0 = 0))
  ∧ (∃ (b : BlockId) (u : Nat) (v : BitVec 32) (s : State), isSet b u = true ∧ bitOf v 31 = true ∧ bitOf v 30 = true ∧ bits v 27 24 = 9
      ∧ bits v 7 0 ≠ 0 ∧ bits v 17 13 ≤ 17 ∧ (s.fset b u).injArm = false ∧ s.quietOver b u = false)
  ∧ (∃ (b : BlockId) (u : Nat) (s : State), isSet b u = true ∧ (s.fset b u).injArm = true ∧ (s.fset b u).injAt + sec 1 ≤ s.now)
  ∧ (∃ (b : BlockId) (u : Nat) (s : State), isSet b u = true)
  ∧ (∃ (b : BlockId) (u : Nat) (s : State), isSet b u = true) :=
  ⟨⟨.prt, 2, (((s0.modFaults fun f => { f with sets := [] }).setFset .prt 2 fun x => { x with state := true, fActive := true, quietFrom := 5, quietMs := 1000 }).modBki fun b => { b with coresHeld := false }), by decide +kernel⟩,
   ⟨.prt, 2, (((s0.modFaults fun f => { f with sets := [] }).setFset .prt 2 fun x => { x with state := true, persist := true }).modBki fun b => { b with coresHeld := false }), by decide +kernel⟩,
   ⟨.sce, 0, 0, (((s0.modFaults fun f => { f with sets := [] }).setFset .sce 0 fun x => { x with injArm := true, injState := 1 }).modBki fun b => { b with coresHeld := false }), by decide +kernel⟩,
   ⟨.sce, 0, 0x83022001, (((s0.modFaults fun f => { f with sets := [] }).setFset .sce 0 fun x => { x with  }).modBki fun b => { b with coresHeld := false }), by decide +kernel⟩,
   ⟨.sce, 0, 0x84022001, (((s0.modFaults fun f => { f with sets := [] }).setFset .sce 0 fun x => { x with  }).modBki fun b => { b with coresHeld := false }), by decide +kernel⟩,
   ⟨.sce, 0, 0xC9022001, (((s0.modFaults fun f => { f with sets := [] }).setFset .sce 0 fun x => { x with  }).modBki fun b => { b with coresHeld := false }), by decide +kernel⟩,
   ⟨.sce, 0, (((s0.modFaults fun f => { f with sets := [] }).setFset .sce 0 fun x => { x with injArm := true, injAt := 99000000000 }).modBki fun b => { b with coresHeld := false }), by decide +kernel⟩,
   ⟨.sce, 0, (((s0.modFaults fun f => { f with sets := [] }).setFset .sce 0 fun x => { x with fe := { code := 5 } }).modBki fun b => { b with coresHeld := false }), by decide +kernel⟩,
   ⟨.sce, 0, (((s0.modFaults fun f => { f with sets := [] }).setFset .sce 0 fun x => { x with feValid := true, captureAct := false }).modBki fun b => { b with coresHeld := false }), by decide +kernel⟩⟩

theorem witness_RecorderWritesInOrder :
  (∃ (r : EvrRec) (rest : List EvrRec) (s : State), s.evr.posts = r :: rest ∧ s.evr.running = true ∧ s.evr.frozen = false
      ∧ (∀ a, (s.evr.bucket r.code).refillAt = some a → s.now < a)
      ∧ (s.evr.treat r = .pass ∨ s.evr.treat r = .bypass ∨ s.evr.treat r = .token))
  ∧ (∃ (r : EvrRec) (rest : List EvrRec) (s : State), s.evr.posts = r :: rest ∧ s.evr.running = true ∧ s.evr.frozen = false
      ∧ (∀ a, (s.evr.bucket r.code).refillAt = some a → s.now < a) ∧ s.evr.treat r = .suppress)
  ∧ (∃ (r : EvrRec) (rest : List EvrRec) (s : State), s.evr.posts = r :: rest ∧ s.evr.running = true ∧ s.evr.frozen = true)
  ∧ (∃ (r : EvrRec) (e : Evr), (r.cls = 3 ∨ r.code < 16))
  ∧ (∃ (c at_ : Nat) (s : State), (s.evr.bucket c).refillAt = some at_ ∧ s.evr.running = true ∧ at_ ≤ s.now
      ∧ ((s.evr.bucket c).suppCount = 0 ∨ s.evr.frozen = true))
  ∧ (∃ (c at_ : Nat) (s : State), (s.evr.bucket c).refillAt = some at_ ∧ s.evr.running = true ∧ at_ ≤ s.now ∧ (s.evr.bucket c).suppCount ≠ 0
      ∧ s.evr.frozen = false)
  ∧ (∃ (c at_ : Nat) (s : State), (s.evr.bucket c).lossFrom = some at_ ∧ s.evr.running = true ∧ at_ + us (s.evr.bucket c).intervalUs ≤ s.now)
  ∧ (∃ (n : Nat) (v : BitVec 32) (c : Cursor) (s : State), s.evr.cursors[n]? = some c ∧ bitOf v 31 = true ∧ c.busy = false ∧ bits v 6 0 ≤ 64)
  ∧ (∃ (n : Nat) (v : BitVec 32) (c : Cursor) (s : State), s.evr.cursors[n]? = some c ∧ c.busy = true)
  ∧ (∃ (n : Nat) (c : Cursor) (s : State), s.evr.cursors[n]? = some c ∧ c.busy = true)
  ∧ (∃ (k : Nat) (s : State), s.evr.saveInto = some k ∧ s.power.resetPend = false)
  ∧ (∃ (a b : SaveArea) (s : State), s.evr.areas = [a, b] ∧ a.erased = false ∧ b.erased = false ∧ s.persist.fwUp = true
      ∧ s.evr.saveInto = none) :=
  ⟨⟨{ code := 100, block := 2 }, [{ code := 3 }], (s0.modEvr fun e => { e with running := true, frozen := false, limitEn := true, posts := [{ code := 100, block := 2 }, { code := 3 }], buckets := [(100, { tokens := 3 })] }), by decide +kernel⟩,
   ⟨{ code := 100, block := 2 }, [{ code := 3 }], (s0.modEvr fun e => { e with running := true, frozen := false, limitEn := true, posts := [{ code := 100, block := 2 }, { code := 3 }], buckets := [(100, { tokens := 0 })] }), by decide +kernel⟩,
   ⟨{ code := 100 }, [], (s0.modEvr fun e => { e with running := true, frozen := true, posts := [{ code := 100 }] }), by decide +kernel⟩,
   ⟨{ cls := 3 }, {}, by decide +kernel⟩,
   ⟨100, 5, (s0.modEvr fun e => { e with running := true, frozen := false, buckets := [(100, { tokens := 3, refillAt := some 5 })] }), by decide +kernel⟩,
   ⟨100, 5, (s0.modEvr fun e => { e with running := true, frozen := false, buckets := [(100, { tokens := 3, suppCount := 4, refillAt := some 5, lossFrom := some 5 })] }), by decide +kernel⟩,
   ⟨100, 5, (s0.modEvr fun e => { e with running := true, frozen := false, buckets := [(100, { tokens := 3, suppCount := 4, refillAt := some 5, lossFrom := some 5 })] }), by decide +kernel⟩,
   ⟨1, 0xC0000001, {}, (s0.modEvr fun e => { e with running := true, frozen := false, ring := [{ seq := 1 }], next := 2, cursors := [{}, {}, {}, {}] }), by decide +kernel⟩,
   ⟨1, 0, { busy := true }, (s0.modEvr fun e => { e with running := true, frozen := false, cursors := [{}, { busy := true }, {}, {}] }), by decide +kernel⟩,
   ⟨0, { busy := true }, (s0.modEvr fun e => { e with running := true, frozen := false, cursors := [{ busy := true }, {}, {}, {}] }), by decide +kernel⟩,
   ⟨1, ((s0.modEvr fun e => { e with running := true, frozen := false, saveInto := some 1 }).modPower fun p => { p with resetPend := false }), by decide +kernel⟩,
   ⟨{ erased := false }, { erased := false, recs := [{ seq := 4 }] }, (s0.modEvr fun e => { e with saveInto := none, areas := [{ erased := false }, { erased := false, recs := [{ seq := 4 }] }] }), by decide +kernel⟩⟩

theorem witness_RegistersAndMailboxRings :
  (∃ (reg : RegAddr) (s : State), s.pciUp = true ∧ s.pciConfig = true ∧ s.pagesUp = true
      ∧ (match reg with | .page b u _ => u < b.units | _ => True))
  ∧ (∃ (o : Nat) (s : State), s.pciUp = true)
  ∧ (∃ (b : BlockId) (u o : Nat) (s : State), s.pagesUp = true ∧ u < b.units)
  ∧ (∃ (k : Nat) (s : State), k < 8)
  ∧ (∃ (k : Nat) (s : State), k < 8)
  ∧ (∃ (p : CntPage) (s : State), p.exists_ = true)
  ∧ (∃ (p : CntPage) (s : State), p.exists_ = false)
  ∧ (∃ (o : Nat) (v : BitVec 32) (s : State), s.pciUp = true ∧ o % 4 ≠ 0 ∧ ringOffset o = false)
  ∧ (∃ (o : Nat) (be : BitVec 4) (v : BitVec 32) (s : State), s.pciUp = true ∧ ringOffset (o / 4 * 4) = false ∧ be ≠ 0xF)
  ∧ (∃ (o : Nat) (v : BitVec 32) (s : State), s.pciUp = true ∧ ringOffset o = true ∧ o % 4 = 0
      ∧ (s.ringSlot ((o - 0x100000) / 64)).length = 64)
  ∧ (∃ (v : BitVec 32) (s : State), s.pciConfig = true)
  ∧ (∃ (o : Nat) (v : BitVec 32) (s : State), s.pciUp = false)
  ∧ (∃ (b : BlockId) (u o : Nat) (v : BitVec 32) (s : State), (s.pagesUp = false ∨ b.units ≤ u ∨ o % 4 ≠ 0))
  ∧ (∃ (k : Nat) (v : BitVec 32) (s : State), s.pagesUp = true ∧ k < 8)
  ∧ (∃ (v : BitVec 32) (s : State), s.pagesUp = true)
  ∧ (∃ (o : Nat) (v : BitVec 32) (s : State), s.pagesUp = true ∧ s.bki.clmHold = true ∧ (o = 0x00 ∨ o = 0x04))
  ∧ (∃ (p n : Nat) (s : State), (s.pciUp = false ∨ 16 ≤ p))
  ∧ (∃ (p n : Nat) (s : State), p < 16 ∧ s.pciUp = true)
  ∧ (∃ (p : Nat) (s : State), p < 16 ∧ s.pciUp = true)
  ∧ (∃ (i g a n : Nat) (s : State), s.genCurrent i g = true ∧ a % 4096 = 0 ∧ (n = 4 ∨ n = 8 ∨ n = 16)
      ∧ ringFree i a (128 * n) (s.modMbx fun m => { m with instPairs := m.instPairs.del i }) = true)
  ∧ (∃ (i g a n : Nat) (s : State), s.genCurrent i g = true ∧ (a % 4096 ≠ 0 ∨ (n ≠ 4 ∧ n ≠ 8 ∧ n ≠ 16)))
  ∧ (∃ (i g n : Nat) (s : State), s.genCurrent i g = true ∧ (s.inst i).state ≠ .resetting ∧ s.mbx.instPairs.has i = true
      ∧ (s.mbx.instPairs.get i {}).tailOk n = true)
  ∧ (∃ (i g n : Nat) (s : State), s.genCurrent i g = true ∧ (s.inst i).state = .resetting)
  ∧ (∃ (v : Nat) (s : State), vectorUsed v = true ∧ s.mbx.msixDue.get v false = true ∧ s.pciUp = true ∧ s.mbx.msixAt.has v = false) :=
  ⟨⟨(.page .prt 3 0x300), (pci s0), by decide +kernel⟩,
   ⟨0x10, ((pci s0).modMbx fun m => { m with badAccess := 4 }), by decide +kernel⟩,
   ⟨.arb, 3, 8, ((pci s0).setArb 3 { waitMax := 7 }), by decide +kernel⟩,
   ⟨2, (s0.setPsc 2 fun p => { p with frameNo := 99999999999999 }), by decide +kernel⟩,
   ⟨2, (s0.setPort 2 fun p => { p with live := [(3, 7)] }), by decide +kernel⟩,
   ⟨(.port 2), (s0.setPort 2 fun p => { p with live := [(3, 7)] }), by decide +kernel⟩,
   ⟨(.port 8), s0, by decide +kernel⟩,
   ⟨6, 1, (pci s0), by decide +kernel⟩,
   ⟨0x12, 3, 5, (pci s0), by decide +kernel⟩,
   ⟨0x110000, 5, (pci s0), by decide +kernel⟩,
   ⟨6, (pci s0), by decide +kernel⟩,
   ⟨4, 1, (s0.modPower fun p => { p with perstLow := true }), by decide +kernel⟩,
   ⟨.sce, 1, 4, 1, s0, by decide +kernel⟩,
   ⟨3, 1600, (pci s0), by decide +kernel⟩,
   ⟨0xFFF00000, (pci s0), by decide +kernel⟩,
   ⟨4, 1, ((pci s0).modBki fun b => { b with clmHold := true }), by decide +kernel⟩,
   ⟨3, 16, (s0.modPower fun p => { p with perstLow := true }), by decide +kernel⟩,
   ⟨0, 2, s0, by decide +kernel⟩,
   ⟨0, (s0.modPersist fun p => { p with fwUp := true }), by decide +kernel⟩,
   ⟨1, 1, 4096, 8, (((s0.setInst 1 fun _ => { state := .ready, gen := 1, lsMap := [10, 11, 12] }).modMbx fun m => { m with instPairs := [] }).modSce fun c => { c with rings := [] }), by decide +kernel⟩,
   ⟨1, 1, 4097, 8, (wi s0), by decide +kernel⟩,
   ⟨1, 1, 2, ((wi s0).modMbx fun m => { m with instPairs := [(1, { size := 8 })] }), by decide +kernel⟩,
   ⟨1, 1, 2, ((wi s0).setInst 1 fun d => { d with state := .resetting }), by decide +kernel⟩,
   ⟨17, ((pci s0).modMbx fun m => { m with msixDue := [(17, true)], msixMask := 0, msixAt := [] }), by decide +kernel⟩⟩

theorem witness_KeySlotsAreWrittenOnlyUnlocked :
  (∃ (who : Master) (v : BitVec 32) (s : State), s.ksu.busy = true)
  ∧ (∃ (who : Master) (v : BitVec 32) (s : State), cmdIs 0 v = true ∧ bitOf v 31 = true ∧ s.ksu.busy = false
      ∧ (s.slot (cmdSlot v)).lock = false ∧ reservedSlot (cmdSlot v) s = false)
  ∧ (∃ (who : Master) (v : BitVec 32) (s : State), cmdIs 0 v = true ∧ bitOf v 31 = true ∧ s.ksu.busy = false
      ∧ ((s.slot (cmdSlot v)).lock = true ∨ reservedSlot (cmdSlot v) s = true))
  ∧ (∃ (who : Master) (v : BitVec 32) (s : State), cmdIs 1 v = true ∧ bitOf v 31 = true ∧ s.ksu.busy = false
      ∧ (s.slot (cmdSlot v)).lock = false ∧ 8 ≤ cmdSlot v ∧ s.ksu.trngOk = true)
  ∧ (∃ (who : Master) (v : BitVec 32) (s : State), cmdIs 1 v = true ∧ bitOf v 31 = true ∧ s.ksu.busy = false
      ∧ (s.slot (cmdSlot v)).lock = false ∧ 8 ≤ cmdSlot v ∧ s.ksu.trngOk = false)
  ∧ (∃ (who : Master) (v : BitVec 32) (s : State), cmdIs 2 v = true ∧ bitOf v 31 = true ∧ s.ksu.busy = false ∧ 8 ≤ cmdSlot v
      ∧ deriveRefused who (cmdSlot v) (cmdParent v) (s.slot (cmdSlot v)).use s.ksu.labelOf.length s.ksu.contextOf.length s = 0)
  ∧ (∃ (who : Master) (v : BitVec 32) (s : State), cmdIs 2 v = true ∧ bitOf v 31 = true ∧ s.ksu.busy = false
      ∧ let r := deriveRefused who (cmdSlot v) (cmdParent v) (s.slot (cmdSlot v)).use s.ksu.labelOf.length s.ksu.contextOf.length s; r ≠ 0
      ∧ 8 ≤ cmdSlot v)
  ∧ (∃ (v : BitVec 32) (s : State), cmdIs 3 v = true ∧ bitOf v 31 = true ∧ s.ksu.busy = false)
  ∧ (∃ (i g : Nat) (v : BitVec 32) (s : State), cmdIs 3 v = true ∧ bitOf v 31 = true ∧ s.ksu.busy = false
      ∧ ((s.slot (cmdSlot v)).lock = true ∨ (s.slot (cmdSlot v)).ownedByWho (.inst i g) = false))
  ∧ (∃ (n a : Nat) (s : State), s.persist.fwUp = true ∧ (s.slot n).valid = true ∧ (s.slot n).volatile = false ∧ (s.slot n).writtenAt = some a
      ∧ (s.slot 5).valid = true ∧ (s.slot 5).unusable = false)
  ∧ (∃ (n : Nat) (c : SavedSlot) (s : State), s.persist.fwUp = true ∧ (s.slot n).unusable = true ∧ (s.slot n).volatile = false
      ∧ (s.ksu.saved.find? fun c => c.slot == n) = some c ∧ (s.slot 5).valid = true) :=
  ⟨⟨.mgp, 0x80240000, (s0.modKsu fun k => { k with busy := true }), by decide +kernel⟩,
   ⟨.mgp, 0x80240000, (kst s0), by decide +kernel⟩,
   ⟨.mgp, 0x80240000, ((kst s0).modKsu fun k => { k with slots := [(9, { lock := true })] }), by decide +kernel⟩,
   ⟨.mgp, 0x90240000, (kst s0), by decide +kernel⟩,
   ⟨.mgp, 0x90240000, ((kst s0).modKsu fun k => { k with trngOk := false }), by decide +kernel⟩,
   ⟨.mgp, 0xA0240A00, (kst s0), by decide +kernel⟩,
   ⟨(.inst 1 1), 0xA0240A00, (kst s0), by decide +kernel⟩,
   ⟨0xB0240000, (kst s0), by decide +kernel⟩,
   ⟨1, 1, 0xB0240000, (kst s0), by decide +kernel⟩,
   ⟨9, 5, ((kst s0).modKsu fun k => { k with slots := k.slots.set 9 { valid := true, volatile := false, writtenAt := some 5, cell := 3 } }), by decide +kernel⟩,
   ⟨9, { slot := 9 }, ((kst s0).modKsu fun k => { k with slots := k.slots.set 9 { valid := true, volatile := false, unusable := true, cell := 3 }, saved := [{ slot := 9 }] }), by decide +kernel⟩⟩

theorem witness_StartUpAndLiveChange :
  (∃ (c : ColdIn) (s : State), coldReady s = true ∧ s.power.rampAt + rampNs ≤ s.now ∧ s.railsFull = true ∧ c.imageOk = true
      ∧ dzixVerified (s.persist.dzixImg.getD (b2n s.persist.activeBank) {}) s = true ∧ c.fails = none)
  ∧ (∃ (c : ColdIn) (s : State), coldReady s = true ∧ s.power.rampAt + rampNs ≤ s.now ∧ s.railsFull = true
      ∧ (c.imageOk = false ∨ dzixVerified (s.persist.dzixImg.getD (b2n s.persist.activeBank) {}) s = false))
  ∧ (∃ (c : ColdIn) (n : Nat) (s : State), coldReady s = true ∧ s.power.rampAt + rampNs ≤ s.now ∧ s.railsFull = true ∧ c.imageOk = true
      ∧ dzixVerified (s.persist.dzixImg.getD (b2n s.persist.activeBank) {}) s = true ∧ c.fails = some n ∧ 4 ≤ n ∧ n ≤ 7)
  ∧ (∃ (c : ColdIn) (s : State), coldReady s = true ∧ s.power.rampAt + rampNs ≤ s.now ∧ s.railsFull = false)
  ∧ (∃ (c : ColdIn) (s : State), coldReady s = false)
  ∧ (∃ (s : State), s.persist.fwUp = true ∧ s.persist.coldStep = 10 ∧ s.season.season = .spring
      ∧ (∀ k, k < 8 → (s.psc k).en = false ∨ (s.psc k).running = true))
  ∧ (∃ (s : State), s.island = true ∧ s.bki.mgpReset = false ∧ s.persist.fwUp = false ∧ s.bki.hb = 2 ∧ s.persist.coldStep = 11
      ∧ dzixVerified (s.persist.dzixImg.getD (b2n s.bki.bootBank) {}) s = true ∧ (∀ p ∈ s.mbx.instPairs, p.2.taken = 0)
      ∧ s.persist.replacing = [])
  ∧ (∃ (s : State), s.island = true ∧ s.bki.mgpReset = false ∧ s.persist.fwUp = false ∧ s.bki.hb = 2 ∧ s.persist.coldStep = 11
      ∧ dzixVerified (s.persist.dzixImg.getD (b2n s.bki.bootBank) {}) s = false)
  ∧ (∃ (s : State), s.persist.fwUp = true ∧ s.persist.clmEnSaved = true ∧ s.cgu.clmEn = false ∧ s.cgu.idConflict = none
      ∧ s.bki.clmHold = false ∧ (s.mlk.partner ≠ .awaited ∨ s.mlk.awaitOver = true) ∧ claimRefused s = none)
  ∧ (∃ (r : Nat) (s : State), (claimRefused s = some r ∨ s.cgu.idConflict = some r))
  ∧ (∃ (s : State), s.persist.fwUp = true ∧ s.persist.intent = true ∧ s.mbx.inService = false ∧ serviceRefused s = none)
  ∧ (∃ (r : Nat) (s : State), serviceRefused s = some r)
  ∧ (∃ (a : Nat) (s : State), s.persist.fwUp = true ∧ s.persist.changedAt = some a ∧ s.persist.copies.length = 4)
  ∧ (∃ (h : Nat) (s : State), s.persist.fwUp = true ∧ s.persist.switchOp = some h ∧ s.persist.handoverAt = none ∧ s.bki.mgpReset = false
      ∧ s.persist.bkiImg.getD (b2n s.persist.switchTo) {} = s.bki.image)
  ∧ (∃ (d : Nat) (s : State), s.persist.markDue = some d ∧ d ≤ s.now)
  ∧ (∃ (h : Nat) (s : State), s.persist.staging = some h ∧ s.persist.fwUp = true ∧ s.persist.stagingOk = false)
  ∧ (∃ (h : Nat) (s : State), s.persist.staging = some h ∧ s.persist.fwUp = true ∧ s.persist.stagingOk = true ∧ s.persist.stagingTo = 2)
  ∧ (∃ (h : Nat) (s : State), s.persist.importOp = some h ∧ s.persist.fwUp = true)
  ∧ (∃ (i : Nat) (r : Replace) (s : State), (s.persist.replacing.find? fun r => r.inst == i) = some r ∧ s.persist.fwUp = true
      ∧ r.halted = true ∧ r.held = []) :=
  ⟨⟨{}, cold, by and_intros <;> first | (exact cold_ramped) | (exact cold_full) | decide +kernel⟩,
   ⟨{ imageOk := false }, cold, by and_intros <;> first | (exact cold_ramped) | (exact cold_full) | decide +kernel⟩,
   ⟨{ fails := some 5 }, 5, cold, by and_intros <;> first | (exact cold_ramped) | (exact cold_full) | decide +kernel⟩,
   ⟨{}, (cold.modPower fun p => { p with badRails := [.vf] }), by and_intros <;> first | (exact cold_ramped) | (simp [State.railsFull, State.modPower]; done) | decide +kernel⟩,
   ⟨{}, s0, by decide +kernel⟩,
   ⟨((s0.modPersist fun p => { p with coldStep := 10 }).modSeason fun x => { x with season := .spring }), by decide +kernel⟩,
   ⟨(((isl s0).modPersist fun p => { p with coldStep := 11, fwUp := false, replacing := [] }).modBki fun b => { b with hb := 2 }), by decide +kernel⟩,
   ⟨(((isl s0).modPersist fun p => { p with coldStep := 11, fwUp := false, dzixImg := [{ crcOk := false }, { crcOk := false }] }).modBki fun b => { b with hb := 2 }), by decide +kernel⟩,
   ⟨((((((isl s0).modPersist fun p => { p with clmEnSaved := true, fwUp := true, started := true }).modBki fun b => { b with clmHold := false }).modCgu fun c => { c with clmEn := false, ownClaim := 5 }).modMlk fun m => { m with partner := .lost }).modInsts fun i => { i with desc := [] }), by decide +kernel⟩,
   ⟨10, (s0.modPersist fun p => { p with started := false }), by decide +kernel⟩,
   ⟨((((((isl s0).modPersist fun p => { p with intent := true, fwUp := true, started := true }).modMbx fun m => { m with inService := false, ops := [] }).modCgu fun c => { c with role := .standby }).modTime fun t => { t with domA := { t.domA with state := 2 }, ref := false, refAct := false, tbStopped := false }).modSw fun w => { w with hsrEn := false }), by decide +kernel⟩,
   ⟨1, (s0.modPersist fun p => { p with started := false }), by decide +kernel⟩,
   ⟨5, (s0.modPersist fun p => { p with fwUp := true,  changedAt := some 5, copies := [{ seq := 3 }, { seq := 8 }, { seq := 1 }, { seq := 2 }] }), by decide +kernel⟩,
   ⟨7, ((s0.modPersist fun p => { p with fwUp := true,  switchOp := some 7, switchTo := true, handoverAt := none }).modBki fun b => { b with mgpReset := false }), by decide +kernel⟩,
   ⟨5, (s0.modPersist fun p => { p with fwUp := true,  markDue := some 5 }), by decide +kernel⟩,
   ⟨7, (s0.modPersist fun p => { p with fwUp := true,  staging := some 7, stagingOk := false }), by decide +kernel⟩,
   ⟨7, (s0.modPersist fun p => { p with fwUp := true,  staging := some 7, stagingOk := true, stagingTo := 2 }), by decide +kernel⟩,
   ⟨7, (s0.modPersist fun p => { p with fwUp := true,  importOp := some 7, importBatches := [{ idx := 5 }] }), by decide +kernel⟩,
   ⟨1, { inst := 1, handle := 7, image := [1, 2], wasOn := true, halted := true }, ((s0.modPersist fun p => { p with fwUp := true,  replacing := [{ inst := 1, handle := 7, image := [1, 2], wasOn := true, halted := true }] }).setInst 1 fun _ => { state := .halted, gen := 1, lsMap := [10] }), by decide +kernel⟩⟩

/-- Each of the cases a request may meet: a bad CRC, a retry, a reused tag, a new request, a slow one, and one that a restart cuts off. -/
theorem witness_RetriesAreAnsweredFromTheCache :
  (∃ (r : Req) (k : Nat) (s : State), r.src = .host k ∧ takeable r s = true ∧ r.crcOk = false)
  ∧ (∃ (r : Req) (k : Nat) (c : TagRec) (s : State), r.src = .host k ∧ takeable r s = true ∧ r.crcOk = true
      ∧ (liveCache (s.mbx.pairs.get k {}).cache (take r s)).find? (fun x => x.tag == r.tag) = some c ∧ c.crc = r.crc)
  ∧ (∃ (r : Req) (k : Nat) (c : TagRec) (s : State), r.src = .host k ∧ takeable r s = true ∧ r.crcOk = true
      ∧ (liveCache (s.mbx.pairs.get k {}).cache (take r s)).find? (fun x => x.tag == r.tag) = some c ∧ c.crc ≠ r.crc)
  ∧ (∃ (r : Req) (op k : Nat) (sub : Subset) (need : Bool) (f : Req → State → State × Ans) (s : State), r.src = .host k ∧ takeable r s = true
      ∧ r.crcOk = true ∧ (liveCache (s.mbx.pairs.get k {}).cache (take r s)).find? (fun x => x.tag == r.tag) = none
      ∧ precheck op r sub need (take r s) = none ∧ r.slow = false ∧ (f r (take r s)).1.persist.fwUp = true
      ∧ (f r (take r s)).2.status ≠ .restarted)
  ∧ (∃ (r : Req) (op k : Nat) (sub : Subset) (need : Bool) (f : Req → State → State × Ans) (s : State), r.src = .host k ∧ takeable r s = true
      ∧ r.crcOk = true ∧ (liveCache (s.mbx.pairs.get k {}).cache (take r s)).find? (fun x => x.tag == r.tag) = none
      ∧ precheck op r sub need (take r s) = none ∧ r.slow = true ∧ (f r (take r s)).1.persist.fwUp = true
      ∧ (f r (take r s)).2.status.isAccepted = false)
  ∧ (∃ (r : Req) (op k : Nat) (sub : Subset) (need : Bool) (f : Req → State → State × Ans) (s : State), r.src = .host k ∧ takeable r s = true
      ∧ r.crcOk = true ∧ (liveCache (s.mbx.pairs.get k {}).cache (take r s)).find? (fun x => x.tag == r.tag) = none
      ∧ precheck op r sub need (take r s) = none ∧ r.slow = false ∧ (f r (take r s)).1.persist.fwUp = true
      ∧ (f r (take r s)).2.status = .restarted) :=
  ⟨⟨{ crcOk := false }, 0, s0, by decide +kernel⟩, ⟨{ tag := 7, crc := 5 }, 0, { tag := 7, crc := 5, atNs := 99999999999 }, cached, by decide +kernel⟩,
   ⟨{ tag := 7, crc := 6 }, 0, { tag := 7, crc := 5, atNs := 99999999999 }, cached, by decide +kernel⟩,
   ⟨r0, 0x0107, 0, .no, false, noEffect, s0, by decide +kernel⟩, ⟨{ slow := true }, 0x0107, 0, .no, false, noEffect, s0, by decide +kernel⟩,
   ⟨r0, 0x0107, 0, .no, false, fun _ s => (s, { status := .restarted }), s0, by decide +kernel⟩⟩

theorem witness_RequestsAreCheckedInOrder :
  (∃ (r : Req) (op k : Nat) (sub : Subset) (need : Bool) (f : Req → State → State × Ans) (s : State), r.src = .host k ∧ takeable r s = true
      ∧ r.crcOk = true ∧ (liveCache (s.mbx.pairs.get k {}).cache (take r s)).find? (fun x => x.tag == r.tag) = none)
  ∧ (∃ (r : Req) (op i g : Nat) (need : Bool) (f : Req → State → State × Ans) (s : State), r.src = .inst i g ∧ takeable r s = true
      ∧ s.genCurrent i g = true ∧ r.crcOk = true ∧ r.flagsBad = false ∧ r.other = none ∧ r.lenOk = true
      ∧ (liveCache (s.mbx.instPairs.get i {}).cache (take r s)).find? (fun x => x.tag == r.tag) = none)
  ∧ (∃ (r : Req) (op i g : Nat) (sub : Subset) (need : Bool) (f : Req → State → State × Ans) (s : State), r.src = .inst i g
      ∧ takeable r s = true ∧ s.genCurrent i g = false)
  ∧ (∃ (r : Req) (op : Nat) (sub : Subset) (need : Bool) (f : Req → State → State × Ans) (s : State), takeable r s = false)
  ∧ (∃ (r : Req) (op : Nat) (sub : Subset) (need : Bool) (f : Req → State → State × Ans) (s : State), takeable r s = true) :=
  ⟨⟨r0, 0x0103, 0, .no, true, noEffect, s0, by decide +kernel⟩,
   ⟨{ src := .inst 1 1 }, 0x0107, 1, 1, true, noEffect, ((wi s0).modMbx fun m => { m with instPairs := [(1, { size := 8, reqTail := 1 })] }), by decide +kernel⟩,
   ⟨{ src := .inst 1 2 }, 0x0107, 1, 2, .yes, true, noEffect, ((wi s0).modMbx fun m => { m with instPairs := [(1, { size := 8, reqTail := 1 })] }), by decide +kernel⟩,
   ⟨r0, 0x0107, .no, false, noEffect, (s0.modMbx fun m => { m with ready := false }), by decide +kernel⟩,
   ⟨r0, 0x0103, .no, true, noEffect, s0, by decide +kernel⟩⟩

theorem witness_ModulePowerAndUpdateRequests :
  (∃ (r : Req) (s : State), Req.clear r .yes false s)
  ∧ (∃ (r : Req) (s : State), Req.clear r .yes false s)
  ∧ (∃ (r : Req) (h : Nat) (o : LongOp) (s : State), Req.clear r .no false s ∧ (s.mbx.ops.find? fun o => o.handle == h) = some o
      ∧ o.done = none)
  ∧ (∃ (r : Req) (h : Nat) (o : LongOp) (st : Status) (s : State), Req.clear r .no false s
      ∧ (s.mbx.ops.find? fun o => o.handle == h) = some o ∧ o.done = some st ∧ s.now < o.endAt + sec 60)
  ∧ (∃ (r : Req) (xs : List Nat) (s : State), Req.clear r .yes false s ∧ xs.length ≤ 48)
  ∧ (∃ (r : Req) (xs : List Nat) (s : State), Req.clear r .yes false s ∧ 48 < xs.length)
  ∧ (∃ (r : Req) (k : Nat) (s : State), Req.clear r .no false s ∧ k < 37)
  ∧ (∃ (r : Req) (k i p : Nat) (s : State), Req.clear r .no false s ∧ k < 37 ∧ i < arbReq k ∧ p ≤ 15)
  ∧ (∃ (r : Req) (m : Nat) (s : State), Req.clear r .no false s ∧ m ≤ 1)
  ∧ (∃ (r : Req) (s : State), Req.clear r .no false s ∧ serviceRefused s = none)
  ∧ (∃ (r : Req) (n : Nat) (s : State), Req.clear r .no false s ∧ serviceRefused s = some n)
  ∧ (∃ (r : Req) (s : State), Req.clear r .no false s ∧ s.cgu.role.protecting = false ∧ s.longBusy liveChangeOps = false)
  ∧ (∃ (r : Req) (f ret : Bool) (k : Nat) (s : State), Req.clear r .no false s ∧ s.season.season = .summer ∧ s.season.changing = none ∧ k < 8
      ∧ (s.psc k).running = true)
  ∧ (∃ (r : Req) (f ret : Bool) (s : State), Req.clear r .no false s ∧ winterRefused f s = none
      ∧ (s.season.season = .summer ∨ s.season.season = .autumn))
  ∧ (∃ (r : Req) (f ret : Bool) (n : Nat) (s : State), Req.clear r .no false s ∧ winterRefused f s = some n)
  ∧ (∃ (r : Req) (en : BitVec 3) (n : Nat) (p : List Byte) (s : State), Req.clear r .no false s ∧ n < 2 ^ 23 ∧ wakePatternBad p = false)
  ∧ (∃ (r : Req) (m : BitVec 8) (l v : BitVec 32) (n : Nat) (s : State), Req.clear r .no false s ∧ pmcLoopBad l = false
      ∧ pmcVoltBad v = false ∧ 720 ≤ n ∧ n ≤ 900)
  ∧ (∃ (r : Req) (s : State), Req.clear r .no false s)
  ∧ (∃ (r : Req) (d : Nat) (x : Image) (s : State), Req.clear r .no false s ∧ d ≤ 3 ∧ (d ≤ 1 → (d == 1) ≠ s.mbx.fwBank)
      ∧ s.longBusy liveChangeOps = false)
  ∧ (∃ (r : Req) (b : Nat) (s : State), Req.clear r .no false s ∧ b ≤ 1 ∧ activateRefused b s = none)
  ∧ (∃ (r : Req) (b n : Nat) (s : State), Req.clear r .no false s ∧ b ≤ 1 ∧ activateRefused b s = some n)
  ∧ (∃ (r : Req) (v : BitVec 32) (l : List (Nat × ElemSlot)) (s : State), Req.clear r .no false s ∧ bkiCtlBad v = false ∧ l.length ≤ 16
      ∧ (∀ p ∈ l, p.1 < 16 ∧ p.2.ok = true) ∧ islandOut s = false ∧ s.persist.importOp = none ∧ s.bki.copyEnds ≤ s.now)
  ∧ (∃ (r : Req) (v : BitVec 32) (s : State), Req.clear r .no false s ∧ bkiCtlBad v = false ∧ islandOut s = false ∧ s.now < s.bki.copyEnds)
  ∧ (∃ (r : Req) (v : BitVec 32) (s : State), Req.clear r .no false s ∧ bkiCtlBad v = false ∧ islandOut s = true)
  ∧ (∃ (r : Req) (s : State), Req.clear r .no false s ∧ islandOut s = false ∧ s.persist.importOp = none)
  ∧ (∃ (r : Req) (s : State), Req.clear r .no false s ∧ islandOut s = true)
  ∧ (∃ (r : Req) (s : State), Req.clear r .no false s)
  ∧ (∃ (r : Req) (v : BitVec 32) (s : State), Req.clear r .no false s ∧ calCtlBad v = false)
  ∧ (∃ (r : Req) (x : Import7210) (s : State), Req.clear r .no false s ∧ x.crcOk = true ∧ x.versionOk = true
      ∧ s.longBusy liveChangeOps = false)
  ∧ (∃ (r : Req) (x : Import7210) (s : State), Req.clear r .no false s ∧ x.crcOk = true ∧ x.versionOk = false) :=
  ⟨⟨r0, s0, clearOf (by decide +kernel)⟩,
   ⟨r0, s0, clearOf (by decide +kernel)⟩,
   ⟨r0, 39, { handle := 39, opcode := 0x0107 }, (s0.modMbx fun m => { m with ops := [{ handle := 39, opcode := 0x0107 }] }), clearOf (by decide +kernel), by decide +kernel⟩,
   ⟨r0, 39, { handle := 39, done := some .ok, endAt := 99999999999 }, .ok, (s0.modMbx fun m => { m with ops := [{ handle := 39, done := some .ok, endAt := 99999999999 }] }), clearOf (by decide +kernel), by decide +kernel⟩,
   ⟨r0, [1, 2], s0, clearOf (by decide +kernel), by decide +kernel⟩,
   ⟨r0, (List.replicate 49 1), s0, clearOf (by decide +kernel), by decide +kernel⟩,
   ⟨r0, 36, s0, clearOf (by decide +kernel), by decide +kernel⟩,
   ⟨r0, 36, 3, 15, s0, clearOf (by decide +kernel), by decide +kernel⟩,
   ⟨r0, 1, s0, clearOf (by decide +kernel), by decide +kernel⟩,
   ⟨r0, (((((s0.modPersist fun p => { p with started := true, startedAt := 5 }).modCgu fun c => { c with role := .active }).modSw fun w => { w with hsrEn := false })).modMbx fun m => { m with ops := [] }), clearOf (by decide +kernel), by decide +kernel⟩,
   ⟨r0, 1, (s0.modPersist fun p => { p with started := false }), clearOf (by decide +kernel), by decide +kernel⟩,
   ⟨r0, ((s0.modCgu fun c => { c with role := .standby }).modMbx fun m => { m with ops := [] }), clearOf (by decide +kernel), by decide +kernel⟩,
   ⟨r0, false, true, 2, (s0.setPsc 2 fun p => { p with running := true }), clearOf (by decide +kernel), by decide +kernel⟩,
   ⟨r0, true, true, ((((((isl s0).modCgu fun c => { c with role := .active }).modMlk fun m => { m with partner := .lost }).modSched fun x => { x with pscs := [] }).modPersist fun p => { p with switchOp := none }).modSw fun w => { w with applyOp := none }), clearOf (by decide +kernel), by decide +kernel⟩,
   ⟨r0, false, true, 1, (s0.modCgu fun c => { c with role := .active }), clearOf (by decide +kernel), by decide +kernel⟩,
   ⟨r0, 5, 77, (List.replicate 15 1 ++ [2]), s0, clearOf (by decide +kernel), by decide +kernel⟩,
   ⟨r0, 3, 0x0C808014, 0x03200320, 800, s0, clearOf (by decide +kernel), by decide +kernel⟩,
   ⟨r0, s0, clearOf (by decide +kernel)⟩,
   ⟨r0, 3, img, (s0.modMbx fun m => { m with ops := [] }), clearOf (by decide +kernel), by decide +kernel⟩,
   ⟨r0, 1, (((((s0.modMbx fun m => { m with ops := [], fwBank := false }).modPersist fun p => { p with staged := [false, true] }).modBki fun b => { b with clmHold := false }).modCgu fun c => { c with role := .standby }).modMlk fun m => { m with partner := .lost }), clearOf (by decide +kernel), by decide +kernel⟩,
   ⟨r0, 1, 20, (s0.modPersist fun p => { p with staged := [] }), clearOf (by decide +kernel), by decide +kernel⟩,
   ⟨r0, 0x00119001, [(15, {})], s0, clearOf (by decide +kernel), by decide +kernel⟩,
   ⟨r0, 0x00119001, ((isl s0).modBki fun b => { b with copyEnds := s0.now + 5 }), clearOf (by decide +kernel), by decide +kernel⟩,
   ⟨r0, 0x00119001, (s0.modBki fun b => { b with coresHeld := true }), clearOf (by decide +kernel), by decide +kernel⟩,
   ⟨r0, s0, clearOf (by decide +kernel), by decide +kernel⟩,
   ⟨r0, (s0.modBki fun b => { b with coresHeld := true }), clearOf (by decide +kernel), by decide +kernel⟩,
   ⟨r0, s0, clearOf (by decide +kernel)⟩,
   ⟨r0, 5, s0, clearOf (by decide +kernel), by decide +kernel⟩,
   ⟨r0, {}, (s0.modMbx fun m => { m with ops := [] }), clearOf (by decide +kernel), by decide +kernel⟩,
   ⟨r0, { versionOk := false }, s0, clearOf (by decide +kernel), by decide +kernel⟩⟩

theorem witness_InstanceRequests :
  (∃ (r : Req) (n : Nat) (mac : BitVec 48) (auto : Bool) (sh : Shares) (al : List Allow) (x : Image) (s : State), Req.clear (createReq r) .no false s
      ∧ n < 512 ∧ macTaken mac.toNat s = false ∧ sh.inRange = true ∧ al.length = 8 ∧ (∀ a ∈ al, a.bad = false)
      ∧ x.octets.length ≤ sh.ls * lsGran ∧ x.crcOk = true ∧ imageVerified x s = true ∧ numberRefused n s = none ∧ poolShort sh.list s = none)
  ∧ (∃ (r : Req) (n : Nat) (mac : BitVec 48) (auto : Bool) (sh : Shares) (al : List Allow) (x : Image) (s : State), Req.clear (createReq r) .no false s
      ∧ n < 512 ∧ macTaken mac.toNat s = true)
  ∧ (∃ (r : Req) (i : Nat) (cl : Bool) (s : State), Req.clear r .no true s ∧ r.inst = some i ∧ s.instBusy i = false)
  ∧ (∃ (r : Req) (i : Nat) (cl : Bool) (s : State), Req.clear r .no true s ∧ r.inst = some i ∧ (s.inst i).state = .resetting)
  ∧ (∃ (r : Req) (i : Nat) (s : State), Req.clear r .no true s ∧ r.inst = some i ∧ s.instBusy i = false)
  ∧ (∃ (r : Req) (i : Nat) (s : State), Req.clear r .no true s ∧ r.inst = some i ∧ (s.inst i).state = .resetting
      ∧ (s.inst i).removing = false ∧ (s.inst i).removeHeld = none)
  ∧ (∃ (r : Req) (i : Nat) (s : State), Req.clear r .no true s ∧ r.inst = some i ∧ s.instBusy i = false
      ∧ ((s.inst i).state = .ready ∨ (s.inst i).state = .running))
  ∧ (∃ (r : Req) (i : Nat) (s : State), Req.clear r .no true s ∧ r.inst = some i ∧ s.instBusy i = false ∧ (s.inst i).state = .halted
      ∧ (s.inst i).cause = 1)
  ∧ (∃ (r : Req) (i : Nat) (s : State), Req.clear r .no true s ∧ r.inst = some i ∧ s.instBusy i = false
      ∧ ((s.inst i).state ≠ .halted ∨ (s.inst i).cause ≠ 1))
  ∧ (∃ (r : Req) (i : Nat) (m : BitVec 10) (sh : Shares) (s : State), Req.clear r .no true s ∧ r.inst = some i ∧ s.instBusy i = false
      ∧ ((s.inst i).share.masked sh m).inRange = true ∧ shareShort i ((s.inst i).share.masked sh m) s = none)
  ∧ (∃ (r : Req) (i : Nat) (s : State), Req.clear r .own true s ∧ r.inst = some i)
  ∧ (∃ (r : Req) (i k : Nat) (a : Allow) (s : State), Req.clear r .no true s ∧ r.inst = some i ∧ s.instBusy i = false ∧ k < 8 ∧ a.bad = false)
  ∧ (∃ (r : Req) (i n : Nat) (s : State), Req.clear r .no true s ∧ r.inst = some i ∧ s.instBusy i = false ∧ n ≤ 1)
  ∧ (∃ (r : Req) (n : Nat) (s : State), Req.clear r .no false s ∧ 100 ≤ n ∧ n ≤ 3600000)
  ∧ (∃ (r : Req) (i : Nat) (x : Image) (s : State), Req.clear r .no true s ∧ r.inst = some i ∧ s.instBusy i = false
      ∧ s.longBusy liveChangeOps = false ∧ (s.inst i).exists_ = true ∧ (s.inst i).inLs 0 x.octets.length = true
      ∧ meetsRegistered i 0 x.octets.length true s = false ∧ x.crcOk = true ∧ imageVerified x s = true ∧ frameComes i s = true)
  ∧ (∃ (r : Req) (k e : Nat) (x : SlotEntry) (s : State), Req.clear r .no false s ∧ k < 8 ∧ e < 128 ∧ (s.psc k).tableBusy = false)
  ∧ (∃ (r : Req) (m : BitVec 8) (pe ph : List Nat) (s : State), Req.clear r .no false s ∧ m ≠ 0
      ∧ (∀ k, k < 8 → m.getLsbD k = true → periodFor pe s k ≤ 3 ∧ quarters (phaseFor ph s k) < periodNs (periodFor pe s k)
      ∧ (s.psc k).tableBusy = false ∧ (periodFor pe s k = (s.psc k).periodAct ∨ (s.psc k).aligned = true))
      ∧ tableCheck m ((List.range 8).map (periodFor pe s)) s = none)
  ∧ (∃ (r : Req) (m : BitVec 8) (pe ph : List Nat) (c e : Nat) (s : State), Req.clear r .no false s ∧ m ≠ 0
      ∧ (∀ k, k < 8 → m.getLsbD k = true → periodFor pe s k ≤ 3 ∧ quarters (phaseFor ph s k) < periodNs (periodFor pe s k)
      ∧ (s.psc k).tableBusy = false ∧ (periodFor pe s k = (s.psc k).periodAct ∨ (s.psc k).aligned = true))
      ∧ tableCheck m ((List.range 8).map (periodFor pe s)) s = some (c, e))
  ∧ (∃ (r : Req) (k b : Nat) (s : State), Req.clear r .no false s ∧ k < 8 ∧ b ≤ 1)
  ∧ (∃ (r : Req) (k : Nat) (s : State), Req.clear r .no false s ∧ k < 8)
  ∧ (∃ (r : Req) (n o j : Nat) (mo : Bool) (s : State), Req.clear r .no false s ∧ n < 256 ∧ o < 512 ∧ j < 16 ∧ indexTaken n o j s = false
      ∧ (s.lock n).held = false ∧ admits (s.useLocks o) 1 (s.inst o).share.locks = true)
  ∧ (∃ (r : Req) (n o j : Nat) (mo : Bool) (s : State), Req.clear r .no false s ∧ n < 256 ∧ o < 512 ∧ j < 16 ∧ indexTaken n o j s = false
      ∧ (s.lock n).held = true)
  ∧ (∃ (r : Req) (n : Nat) (s : State), Req.clear r .no false s ∧ n < 256 ∧ (s.lock n).held = false)
  ∧ (∃ (r : Req) (n : Nat) (s : State), Req.clear r .no false s ∧ n < 256)
  ∧ (∃ (r : Req) (i q a n : Nat) (s : State), Req.clear r .own true s ∧ r.inst = some i ∧ s.instBusy i = false ∧ q < 2
      ∧ pow2In 16 n 1024 = true ∧ a % 64 = 0 ∧ ringFree i a (32 * n) (s.modEg fun e => { e with queues := e.queues.del (2 * i + q) }) = true)
  ∧ (∃ (r : Req) (i a n b : Nat) (s : State), Req.clear r .own true s ∧ r.inst = some i ∧ s.instBusy i = false ∧ pow2In 16 n 4096 = true
      ∧ bufLenOk b = true ∧ ringFree i a (16 * n) (s.setInst i fun d => { d with rxRing := none }) = true)
  ∧ (∃ (r : Req) (i : Nat) (s : State), Req.clear r .own true s ∧ r.inst = some i) :=
  ⟨⟨r0, 5, 0x020000000100, true, sh0, [{}, {}, {}, {}, {}, {}, {}, {}], img, (imgOk s0), by and_intros <;> first | (exact clearOf (by decide +kernel)) | (exact (imageOf _)) | decide +kernel⟩,
   ⟨r0, 5, 0x020000000003, true, sh0, [{}, {}, {}, {}, {}, {}, {}, {}], img, (imgOk s0), clearOf (by decide +kernel), by decide +kernel⟩,
   ⟨r1, 1, true, (((wi s0).modPersist fun p => { p with replacing := [] }).setInst 1 fun d => { d with state := .ready }), clearOf (by decide +kernel), by decide +kernel⟩,
   ⟨r1, 1, true, ((wi s0).setInst 1 fun d => { d with state := .resetting }), clearOf (by decide +kernel), by decide +kernel⟩,
   ⟨r1, 1, (((wi s0).modPersist fun p => { p with replacing := [] }).setInst 1 fun d => { d with state := .ready }), clearOf (by decide +kernel), by decide +kernel⟩,
   ⟨r1, 1, ((wi s0).setInst 1 fun d => { d with state := .resetting }), clearOf (by decide +kernel), by decide +kernel⟩,
   ⟨r1, 1, (((wi s0).modPersist fun p => { p with replacing := [] }).setInst 1 fun d => { d with state := .ready }), clearOf (by decide +kernel), by decide +kernel⟩,
   ⟨r1, 1, ((wi s0).setInst 1 fun d => { d with state := .halted, cause := 1 }), clearOf (by decide +kernel), by decide +kernel⟩,
   ⟨r1, 1, ((wi s0).setInst 1 fun d => { d with state := .halted, cause := 2 }), clearOf (by decide +kernel), by decide +kernel⟩,
   ⟨r1, 1, 1, { sh0 with slots := 5 }, (wi (imgOk s0)), clearOf (by decide +kernel), by decide +kernel⟩,
   ⟨r1, 1, (wi s0), clearOf (by decide +kernel), by decide +kernel⟩,
   ⟨r1, 1, 7, {}, (((wi s0).modPersist fun p => { p with replacing := [] }).setInst 1 fun d => { d with state := .ready }), clearOf (by decide +kernel), by decide +kernel⟩,
   ⟨r1, 1, 1, (((wi s0).modPersist fun p => { p with replacing := [] }).setInst 1 fun d => { d with state := .ready }), clearOf (by decide +kernel), by decide +kernel⟩,
   ⟨r0, 100, s0, clearOf (by decide +kernel), by decide +kernel⟩,
   ⟨r1, 1, img, (wi (((imgOk s0).modMbx fun m => { m with instPairs := [] }).setPsc 2 fun _ => { running := true, bank0 := [(0, { valid := true, inst := 1 })] })), by and_intros <;> first | (exact clearOf (by decide +kernel)) | (exact (imageOf _)) | decide +kernel⟩,
   ⟨r0, 3, 5, {}, (s0.setPsc 3 fun _ => {}), clearOf (by decide +kernel), by decide +kernel⟩,
   ⟨r0, 5, [1, 1], [5, 6], ((s0.modInsts fun i => { i with desc := [] }).modSched fun x => { x with pscs := [] }), clearOf (by decide +kernel), by decide +kernel⟩,
   ⟨r0, 1, [1], [5], 5, 0, (((s0.modInsts fun i => { i with desc := [] }).modSched fun x => { x with pscs := [] }).setPsc 0 fun _ => { bank := 1, bank0 := [(0, { valid := true, inst := 7, budget := 400 })] }), clearOf (by decide +kernel), by decide +kernel⟩,
   ⟨r0, 3, 1, s0, clearOf (by decide +kernel), by decide +kernel⟩,
   ⟨r0, 3, s0, clearOf (by decide +kernel), by decide +kernel⟩,
   ⟨r0, 5, 1, 2, true, (wi (imgOk s0)), clearOf (by decide +kernel), by decide +kernel⟩,
   ⟨r0, 5, 1, 2, true, ((wi s0).modInsts fun i => { i with locks := [(5, { held := true })] }), clearOf (by decide +kernel), by decide +kernel⟩,
   ⟨r0, 5, s0, clearOf (by decide +kernel), by decide +kernel⟩,
   ⟨r0, 5, s0, clearOf (by decide +kernel), by decide +kernel⟩,
   ⟨r1, 1, 1, 64, 16, (((((wi (imgOk s0)).modEg fun e => { e with queues := [] }).modSce fun c => { c with rings := [] }).modMbx fun m => { m with instPairs := [] })), clearOf (by decide +kernel), by decide +kernel⟩,
   ⟨r1, 1, 64, 16, 128, (((((wi (imgOk s0)).modEg fun e => { e with queues := [] }).modSce fun c => { c with rings := [] }).modMbx fun m => { m with instPairs := [] })), clearOf (by decide +kernel), by decide +kernel⟩,
   ⟨r1, 1, (wi s0), clearOf (by decide +kernel), by decide +kernel⟩⟩

theorem witness_SwitchAndConditioningRequests :
  (∃ (r : Req) (cs : List StbPutItem) (is : List Nat) (t s : State), Req.clear r .no false s ∧ cs.length ≤ 256 ∧ s.persist.importOp = none
      ∧ putItems cs 0 [] (take r s) = .inr (is, t) ∧ t.sw.batch.length ≤ 256)
  ∧ (∃ (r : Req) (i : Nat) (b : SubBitmap) (s : State), Req.clear r .no false s ∧ s.persist.importOp = none ∧ 1 ≤ i ∧ i ≤ 4095
      ∧ s.sw.batch.length < 256)
  ∧ (∃ (r : Req) (cs : List StbPutItem) (st : Status) (s : State), Req.clear r .no false s ∧ cs.length ≤ 256 ∧ s.persist.importOp = none
      ∧ putItems cs 0 [] (take r s) = .inl st)
  ∧ (∃ (r : Req) (base s : State), Req.clear r .no false s ∧ s.persist.importOp = none ∧ s.sw.applyOp = none
      ∧ base = s.sw.applying.foldl (fun s c => afterChange c s) (take r s) ∧ admitAll s.sw.batch 0 base = none
      ∧ subsShort (s.sw.batch.foldl (fun s c => afterChange c s) base) (take r s) = none)
  ∧ (∃ (r : Req) (base : State) (st : Status) (s : State), Req.clear r .no false s ∧ s.persist.importOp = none ∧ s.sw.applyOp = none
      ∧ base = s.sw.applying.foldl (fun s c => afterChange c s) (take r s) ∧ admitAll s.sw.batch 0 base = some st)
  ∧ (∃ (r : Req) (i : Nat) (s : State), Req.clear r .no false s ∧ isStreamIdx i = true)
  ∧ (∃ (r : Req) (i : Nat) (s : State), Req.clear r .no false s ∧ 1 ≤ i ∧ i ≤ 4095)
  ∧ (∃ (r : Req) (k n : Nat) (m : BitVec 8) (s : State), Req.clear r .no false s ∧ k < 8 ∧ n ≤ 2)
  ∧ (∃ (r : Req) (id : Nat) (e : StreamEntry) (x : LearnRec) (s : State), Req.clear r .no false s ∧ learnRec id s = some x)
  ∧ (∃ (r : Req) (id i : Nat) (e : StreamEntry) (x : LearnRec) (t s : State), Req.clear r .no false s ∧ learnRec id s = some x
      ∧ e.bad = false ∧ e.ageCode < 14 ∧ admitLearned { e with key := x.key, rate := learnedRate x } (take r s) = .inr (i, t))
  ∧ (∃ (r : Req) (id : Nat) (x : LearnRec) (s : State), Req.clear r .no false s ∧ learnRec id s = some x)
  ∧ (∃ (r : Req) (k : Nat) (ctl vlan pcp : BitVec 32) (n : Nat) (s : State), Req.clear r .no false s ∧ k < 8 ∧ portCtlBad k ctl = false
      ∧ portVlanBad vlan = false ∧ maxFrameBad n = false)
  ∧ (∃ (r : Req) (n : Nat) (s : State), Req.clear r .no false s ∧ n ≤ 1)
  ∧ (∃ (r : Req) (c : SwitchCfg) (s : State), Req.clear r .no false s ∧ c.holdoffMs ≤ 3600000 ∧ within 10 c.fwdIdleS 6500 = true
      ∧ c.clsAge.length = 8 ∧ (∀ n ∈ c.clsAge, within 10 n 100000 = true) ∧ c.portFwd.length = 8)
  ∧ (∃ (r : Req) (n : Nat) (v : BitVec 32) (s : State), Req.clear r .no false s ∧ n < 4 ∧ mirCtlBad v s = false ∧ n < s.sw.mir.length)
  ∧ (∃ (r : Req) (n : Nat) (v : BitVec 32) (s : State), Req.clear r .no false s ∧ n < 4 ∧ mirCtlBad v s = false ∧ s.sw.applying = []
      ∧ mirHeld n s = true)
  ∧ (∃ (r : Req) (n : Nat) (v : BitVec 32) (s : State), Req.clear r .no false s ∧ n < 4 ∧ mirCtlBad v s = false ∧ s.sw.applying = []
      ∧ s.sw.applyOp = none ∧ mirHeld n s = false)
  ∧ (∃ (r : Req) (k a n b : Nat) (s : State), Req.clear r .no false s ∧ k < 16 ∧ pow2In 16 n 4096 = true ∧ bufLenOk b = true)
  ∧ (∃ (r : Req) (p : CntPage) (k : Nat) (s : State), Req.clear r .no false s ∧ p.exists_ = true ∧ k < 4)
  ∧ (∃ (r : Req) (g : Nat) (d : Group) (cs : List Ctx) (s : State), Req.clear r .no false s ∧ g < 1024 ∧ s.persist.importOp = none
      ∧ (importBatch g s = none ∨ cs ≠ []) ∧ d.bad (s.group g).preset = false ∧ cs.length = d.nch
      ∧ (∀ c ∈ cs, c.refused ((if d.en then [(s.group g).preset] else []) ++ if d.pend then [d.pendPreset] else []) = false)
      ∧ (∀ x ∈ d.subs, x.valid = true → subNames x.inst x.gen s = none ∧ ringRefused x.inst x.ring d.nch s = false)
      ∧ groupAdmit (writeGroup g d cs (take r s)) (take r s) = none)
  ∧ (∃ (r : Req) (g : Nat) (s : State), Req.clear r .no false s ∧ g < 1024)
  ∧ (∃ (r : Req) (g p : Nat) (t s : State), Req.clear r .no false s ∧ g < 1024 ∧ p ≤ 4
      ∧ (∀ n ∈ (s.group g).ctxNums, presetTaps p ≤ presetTaps (s.ctx n).histClass)
      ∧ t = (take r s).setGroup g (fun x => { x with pendPreset := p, pend := true }) ∧ groupAdmit t (take r s) = none)
  ∧ (∃ (r : Req) (p : Nat) (s : State), Req.clear r (.yes) false s ∧ p ≤ 4)
  ∧ (∃ (r : Req) (g n : Nat) (s : State), Req.clear r .no false s ∧ g < 1024 ∧ n < 8)
  ∧ (∃ (r : Req) (g n i gn q : Nat) (t s : State), Req.clear r .no false s ∧ g < 1024 ∧ n < 8 ∧ subNames i gn s = none ∧ q ≤ 3
      ∧ ringRefused i q (s.group g).nch s = false ∧ t = (take r s).setGroup g (fun x => x.putSub n (subEntry i gn q x.nch (take r s)))
      ∧ groupAdmit t (take r s) = none)
  ∧ (∃ (r : Req) (i q a n w : Nat) (s : State), Req.clear r .own true s ∧ r.inst = some i ∧ s.instBusy i = false ∧ q ≤ 4
      ∧ pow2In 16 n 4096 = true ∧ (q ≠ 4 → within 2 w 9 = true)
      ∧ ringFree i a (16 * (if q = 4 then 1 else w) * n + 16) (s.modSce fun c => { c with rings := c.rings.del (5 * i + q) }) = true)
  ∧ (∃ (r : Req) (v : BitVec 32) (s : State), Req.clear r .no false s) :=
  ⟨⟨r0, [{ idx := some 5, op := .putBitmap, bitmap := {} }], [5], (match putItems [{ idx := some 5, op := .putBitmap, bitmap := {} }] 0 [] (take r0 (s0.modSw fun w => { w with batch := [], applying := [], applyOp := none })) with | .inr x => x.2 | .inl _ => (s0.modSw fun w => { w with batch := [], applying := [], applyOp := none })), (s0.modSw fun w => { w with batch := [], applying := [], applyOp := none }), clearOf (by decide +kernel), by decide +kernel⟩,
   ⟨r0, 5, {}, (s0.modSw fun w => { w with batch := [], applying := [], applyOp := none }), clearOf (by decide +kernel), by decide +kernel⟩,
   ⟨r0, [{ op := .move }], (.badParam 0), (s0.modSw fun w => { w with batch := [], applying := [], applyOp := none }), clearOf (by decide +kernel), by decide +kernel⟩,
   ⟨r0, (take r0 (s0.modSw fun w => { w with batch := [], applying := [], applyOp := none })), (s0.modSw fun w => { w with batch := [], applying := [], applyOp := none }), clearOf (by decide +kernel), by decide +kernel⟩,
   ⟨r0, (take r0 ((s0.modSw fun w => { w with batch := [{ idx := 5, op := .putStream, stream := { ageCode := 14 } }], applying := [], applyOp := none }).modPersist fun p => { p with importOp := none })), (.badParam 0), ((s0.modSw fun w => { w with batch := [{ idx := 5, op := .putStream, stream := { ageCode := 14 } }], applying := [], applyOp := none }).modPersist fun p => { p with importOp := none }), clearOf (by decide +kernel), by decide +kernel⟩,
   ⟨r0, 5, s0, clearOf (by decide +kernel), by decide +kernel⟩,
   ⟨r0, 5, s0, clearOf (by decide +kernel), by decide +kernel⟩,
   ⟨r0, 7, 2, 5, s0, clearOf (by decide +kernel), by decide +kernel⟩,
   ⟨r0, 7, {}, { id := 7, eventAt := some 5, key := 9 }, ((s0.modSw fun w => { w with learn := [{ id := 7, eventAt := some 5, key := 9 }] }).modInsts fun i => { i with desc := [] }), clearOf (by decide +kernel), by decide +kernel⟩,
   ⟨r0, 7, learnSlot, {}, { id := 7, eventAt := some 5, key := 9 }, learnedState, learning, by and_intros <;> first | (exact clearOf (by decide +kernel)) | (exact learn_admitted) | decide +kernel⟩,
   ⟨r0, 7, { id := 7, eventAt := some 5, key := 9 }, ((s0.modSw fun w => { w with learn := [{ id := 7, eventAt := some 5, key := 9 }] }).modInsts fun i => { i with desc := [] }), clearOf (by decide +kernel), by decide +kernel⟩,
   ⟨r0, 7, 0x00000203, 0x00002005, 0, 1600, s0, clearOf (by decide +kernel), by decide +kernel⟩,
   ⟨r0, 1, s0, clearOf (by decide +kernel), by decide +kernel⟩,
   ⟨r0, { ctl := 1, fwdIdleS := 10, clsAge := [10, 10, 10, 10, 10, 10, 10, 10], portFwd := [5, 1, 1, 1, 1, 1, 1, 1] }, s0, clearOf (by decide +kernel), by decide +kernel⟩,
   ⟨r0, 3, 0x02FFFF71, s0, clearOf (by decide +kernel), by decide +kernel⟩,
   ⟨r0, 1, 0x02FFFF71, (s0.modSw fun w => { w with applying := [], streams := [(3, { refPrev := 1, prevMir := some 1 })] }), clearOf (by decide +kernel), by decide +kernel⟩,
   ⟨r0, 3, 0x02FFFF71, s0, clearOf (by decide +kernel), by decide +kernel⟩,
   ⟨r0, 5, 4096, 64, 128, s0, clearOf (by decide +kernel), by decide +kernel⟩,
   ⟨r0, (.psc 3), 2, s0, clearOf (by decide +kernel), by decide +kernel⟩,
   ⟨r0, 7, { en := true, nch := 1, firstCtx := 5 }, [{ chanPos := 3 }], (((s0.modPersist fun p => { p with importOp := none }).modSce fun c => { c with groups := [], batches := [] }).modInsts fun i => { i with desc := [] }), clearOf (by decide +kernel), by decide +kernel⟩,
   ⟨r0, 3, s0, clearOf (by decide +kernel), by decide +kernel⟩,
   ⟨r0, 7, 2, ((take r0 (((s0.modPersist fun p => { p with importOp := none }).modSce fun c => { c with groups := [], batches := [] }).modInsts fun i => { i with desc := [] })).setGroup 7 (fun x => { x with pendPreset := 2, pend := true })), (((s0.modPersist fun p => { p with importOp := none }).modSce fun c => { c with groups := [], batches := [] }).modInsts fun i => { i with desc := [] }), clearOf (by decide +kernel), by decide +kernel⟩,
   ⟨r0, 4, s0, clearOf (by decide +kernel), by decide +kernel⟩,
   ⟨r0, 3, 5, ((s0.modPersist fun p => { p with importOp := none }).modSce fun c => { c with groups := [], batches := [] }), clearOf (by decide +kernel), by decide +kernel⟩,
   ⟨r0, 3, 5, 1, 1, 0, (match true with | _ => (take r0 ((wi (((s0.modPersist fun p => { p with importOp := none }).modSce fun c => { c with groups := [], batches := [] }).modInsts fun i => { i with desc := [] })).modSce fun c => { c with rings := [(5, { slots := 16, words := 3 })] })).setGroup 3 (fun x => x.putSub 5 (subEntry 1 1 0 x.nch (take r0 ((wi (((s0.modPersist fun p => { p with importOp := none }).modSce fun c => { c with groups := [], batches := [] }).modInsts fun i => { i with desc := [] })).modSce fun c => { c with rings := [(5, { slots := 16, words := 3 })] }))))), ((wi (((s0.modPersist fun p => { p with importOp := none }).modSce fun c => { c with groups := [], batches := [] }).modInsts fun i => { i with desc := [] })).modSce fun c => { c with rings := [(5, { slots := 16, words := 3 })] }), clearOf (by decide +kernel), by decide +kernel⟩,
   ⟨r1, 1, 3, 64, 16, 3, (((((wi (imgOk s0)).modEg fun e => { e with queues := [] }).modSce fun c => { c with rings := [] }).modMbx fun m => { m with instPairs := [] }).modTime fun t => { t with stampRings := [] }), clearOf (by decide +kernel), by decide +kernel⟩,
   ⟨r0, 1, s0, clearOf (by decide +kernel)⟩⟩

theorem witness_TimeAndAcquisitionRequests :
  (∃ (r : Req) (s : State), Req.clear r .yes false s)
  ∧ (∃ (r : Req) (c : TimeCfg) (s : State), Req.clear r .no false s ∧ tbDomainBad c.domain = false ∧ tbLimitsBad c.limits = false
      ∧ c.ports.length = 6 ∧ portsLoop c s = false)
  ∧ (∃ (r : Req) (c : TimeCfg) (s : State), Req.clear r .no false s ∧ tbDomainBad c.domain = false ∧ tbLimitsBad c.limits = false
      ∧ portsLoop c s = true)
  ∧ (∃ (r : Req) (n : Nat) (b : Bool) (s : State), Req.clear r .no false s ∧ n ≤ 1 ∧ b = (n == 1) ∧ (s.time.dom b).state = 2
      ∧ switchOk b s = true ∧ b ≠ s.time.ref)
  ∧ (∃ (r : Req) (n : Nat) (s : State), Req.clear r .no false s ∧ n ≤ 1 ∧ (s.time.dom (n == 1)).state ≠ 2)
  ∧ (∃ (r : Req) (n : Nat) (s : State), Req.clear r .no false s ∧ n ≤ 1 ∧ (s.time.dom (n == 1)).state = 2 ∧ switchOk (n == 1) s = false)
  ∧ (∃ (r : Req) (ns : Int) (s : State), Req.clear r .no false s ∧ s.time.tbStopped = false ∧ (∀ j, j < 32 → (s.time.cmp j).en = false))
  ∧ (∃ (r : Req) (ns : Int) (s : State), Req.clear r .no false s ∧ s.time.tbStopped = true)
  ∧ (∃ (r : Req) (o : Option Nat) (k : Nat) (s : State), Req.clear r .own false s ∧ (∀ i, o = some i → i < 512
      ∧ ((s.inst i).exists_ = true ∨ (s.inst i).state = .resetting)) ∧ 8 ≤ k ∧ k < 32 ∧ (s.time.cmp k).alloc = false
      ∧ (∀ j, 8 ≤ j → j < k → (s.time.cmp j).alloc = true))
  ∧ (∃ (r : Req) (o : Option Nat) (s : State), Req.clear r .own false s ∧ (∀ i, o = some i → i < 512
      ∧ ((s.inst i).exists_ = true ∨ (s.inst i).state = .resetting)) ∧ (∀ j, 8 ≤ j → j < 32 → (s.time.cmp j).alloc = true))
  ∧ (∃ (r : Req) (k t p : Nat) (per en : Bool) (d : BitVec 4) (s : State), Req.clear r .own false s ∧ cmpNamed k s = true
      ∧ periodBad p per = false ∧ (en = false ∨ s.time.tbNs < t % 2 ^ 64))
  ∧ (∃ (r : Req) (k : Nat) (s : State), Req.clear r .own false s ∧ cmpNamed k s = true)
  ∧ (∃ (r : Req) (i a n : Nat) (s : State), Req.clear r .own true s ∧ r.inst = some i ∧ s.instBusy i = false ∧ pow2In 16 n 1024 = true
      ∧ ringFree i a (32 * n + 16) (s.modTime fun t => { t with stampRings := t.stampRings.del i }) = true)
  ∧ (∃ (r : Req) (en gate : Bool) (w : Nat) (s : State), Req.clear r .no false s ∧ 1 ≤ w ∧ w ≤ 500000)
  ∧ (∃ (r : Req) (n : Nat) (d : AcqStream) (s : State), Req.clear r .no false s ∧ n < 4 ∧ d.bad s = false ∧ (s.acqS n).en = false
      ∧ streamRefused n ((s.acqS n).put d) s = none)
  ∧ (∃ (r : Req) (n : Nat) (d : AcqStream) (s : State), Req.clear r .no false s ∧ n < 4 ∧ d.bad s = false ∧ (s.acqS n).en = true
      ∧ (s.acqS n).put d ≠ (s.acqS n).putLive d)
  ∧ (∃ (r : Req) (n : Nat) (d : AcqStream) (st : Status) (s : State), Req.clear r .no false s ∧ n < 4 ∧ d.bad s = false
      ∧ ((s.acqS n).en = false ∨ (s.acqS n).put d = (s.acqS n).putLive d) ∧ streamRefused n ((s.acqS n).put d) s = some st)
  ∧ (∃ (r : Req) (n : Nat) (s : State), Req.clear r .no false s ∧ n < 4 ∧ (s.acqS n).en = false ∧ (s.acqS n).bad s = false
      ∧ ((s.acqS n).src 0).valid = true ∧ (s.acqS n).granules = [] ∧ (s.acqS n).stageGran ≤ s.dramFree ∧ streamAdmit n (s.acqS n) s = none)
  ∧ (∃ (r : Req) (n : Nat) (s : State), Req.clear r .no false s ∧ n < 4 ∧ (s.acqS n).en = true)
  ∧ (∃ (r : Req) (n e : Nat) (s : State), Req.clear r .no false s ∧ n < 4 ∧ e ≤ 1 ∧ (s.acqS n).en = (e == 1))
  ∧ (∃ (r : Req) (n : Nat) (s : State), Req.clear r .no false s ∧ n < 4 ∧ (s.acqS n).en = true ∧ (s.acqS n).run = false)
  ∧ (∃ (r : Req) (n : Nat) (s : State), Req.clear r .no false s ∧ n < 4 ∧ ((s.acqS n).en = false ∨ (s.acqS n).run = true))
  ∧ (∃ (r : Req) (m : BitVec 4) (c : Nat) (s : State), Req.clear r .yes true s ∧ c < 256)
  ∧ (∃ (r : Req) (v : BitVec 32) (s : State), Req.clear r .no false s ∧ acqCtlBad v = false)
  ∧ (∃ (r : Req) (n : Nat) (s : State), Req.clear r .no false s ∧ n < 4) :=
  ⟨⟨r0, s0, clearOf (by decide +kernel)⟩,
   ⟨r0, { domain := 0x00010100, limits := 0x00500001, ports := [1, 1, 1, 1, 1, 0x00050003] }, s0, clearOf (by decide +kernel), by decide +kernel⟩,
   ⟨r0, { domain := 0x00010100, limits := 0x00500001, ports := [1, 1, 1, 1, 0x00002001, 0x00001001] }, s0, clearOf (by decide +kernel), by decide +kernel⟩,
   ⟨r0, 1, true, ((ptpUp s0).modTime fun t => { t with domB := { num := 254, state := 2, ofs := 77 } }), clearOf (by decide +kernel), by decide +kernel⟩,
   ⟨r0, 1, ((ptpUp s0).modTime fun t => { t with domB := { num := 254, state := 1 } }), clearOf (by decide +kernel), by decide +kernel⟩,
   ⟨r0, 1, ((ptpUp s0).modTime fun t => { t with domB := { num := 254, state := 2, ofs := 2 ^ 60 } }), clearOf (by decide +kernel), by decide +kernel⟩,
   ⟨r0, (-600), (ptpUp s0), clearOf (by decide +kernel), by decide +kernel⟩,
   ⟨r0, 5, ((ptpUp s0).modTime fun t => { t with tbStopped := true }), clearOf (by decide +kernel), by decide +kernel⟩,
   ⟨r0, (some 1), 9, (wi ((ptpUp s0).modTime fun t => { t with cmps := [(8, { alloc := true })] })), clearOf (by decide +kernel), by decide +kernel⟩,
   ⟨r0, none, ((ptpUp s0).modTime fun t => { t with cmps := [(8, { alloc := true }), (9, { alloc := true }), (10, { alloc := true }), (11, { alloc := true }), (12, { alloc := true }), (13, { alloc := true }), (14, { alloc := true }), (15, { alloc := true }), (16, { alloc := true }), (17, { alloc := true }), (18, { alloc := true }), (19, { alloc := true }), (20, { alloc := true }), (21, { alloc := true }), (22, { alloc := true }), (23, { alloc := true }), (24, { alloc := true }), (25, { alloc := true }), (26, { alloc := true }), (27, { alloc := true }), (28, { alloc := true }), (29, { alloc := true }), (30, { alloc := true }), (31, { alloc := true })] }), clearOf (by decide +kernel), by decide +kernel⟩,
   ⟨r0, 8, 2000, 1000, true, true, 2, ((ptpUp s0).modTime fun t => { t with cmps := [(8, { alloc := true })] }), clearOf (by decide +kernel), by decide +kernel⟩,
   ⟨r0, 8, ((ptpUp s0).modTime fun t => { t with cmps := [(8, { alloc := true })] }), clearOf (by decide +kernel), by decide +kernel⟩,
   ⟨r1, 1, 4096, 16, (((((wi (imgOk s0)).modEg fun e => { e with queues := [] }).modSce fun c => { c with rings := [] }).modMbx fun m => { m with instPairs := [] }).modTime fun t => { t with stampRings := [] }), clearOf (by decide +kernel), by decide +kernel⟩,
   ⟨r0, true, false, 5, s0, clearOf (by decide +kernel), by decide +kernel⟩,
   ⟨r0, 1, { nsrc := 1, srcs := List.replicate 16 {}, rateMbit := 5, stageGran := 1 }, ((imgOk s0).modAcq fun a => { a with streams := [] }), clearOf (by decide +kernel), by decide +kernel⟩,
   ⟨r0, 1, { nsrc := 1, srcs := List.replicate 16 {}, rateMbit := 5, stageGran := 1, vid := 5 }, ((imgOk s0).modAcq fun a => { a with streams := [(1, { nsrc := 1, srcs := List.replicate 16 {}, rateMbit := 5, stageGran := 1, en := true, run := true })] }), clearOf (by decide +kernel), by decide +kernel⟩,
   ⟨r0, 1, { nsrc := 1, srcs := { valid := true, raw := true, nch := 1, ref := 3 } :: List.replicate 15 {}, rateMbit := 1000, stageGran := 1 }, (.admission 3 0), (((imgOk s0).modAcq fun a => { a with streams := [] }).setPort 4 fun p => { p with rate := 2 }), clearOf (by decide +kernel), by decide +kernel⟩,
   ⟨r0, 1, ((imgOk s0).modAcq fun a => { a with streams := [(1, { nsrc := 1, srcs := { valid := true, raw := true, nch := 1, ref := 3 } :: List.replicate 15 {}, rateMbit := 500, stageGran := 1 })] }), clearOf (by decide +kernel), by decide +kernel⟩,
   ⟨r0, 1, ((imgOk s0).modAcq fun a => { a with streams := [(1, { nsrc := 1, srcs := List.replicate 16 {}, rateMbit := 5, stageGran := 1, en := true, run := true })] }), clearOf (by decide +kernel), by decide +kernel⟩,
   ⟨r0, 1, 1, ((imgOk s0).modAcq fun a => { a with streams := [(1, { nsrc := 1, srcs := List.replicate 16 {}, rateMbit := 5, stageGran := 1, en := true, run := true })] }), clearOf (by decide +kernel), by decide +kernel⟩,
   ⟨r0, 1, ((((imgOk s0).modAcq fun a => { a with streams := [(1, { nsrc := 1, srcs := List.replicate 16 {}, rateMbit := 5, stageGran := 1, en := true, run := true })] })).setAcqS 1 fun x => { x with run := false }), clearOf (by decide +kernel), by decide +kernel⟩,
   ⟨r0, 1, ((imgOk s0).modAcq fun a => { a with streams := [(1, { nsrc := 1, srcs := List.replicate 16 {}, rateMbit := 5, stageGran := 1, en := true, run := true })] }), clearOf (by decide +kernel), by decide +kernel⟩,
   ⟨r1, 15, 7, ((wi ((imgOk s0).modAcq fun a => { a with streams := [(1, { nsrc := 1, srcs := List.replicate 16 {}, rateMbit := 5, stageGran := 1, en := true, run := true })] })).setAcqS 1 fun x => { x with causeEn := 15 }), clearOf (by decide +kernel), by decide +kernel⟩,
   ⟨r0, 0x0000005D, s0, clearOf (by decide +kernel), by decide +kernel⟩,
   ⟨r0, 1, s0, clearOf (by decide +kernel), by decide +kernel⟩⟩

theorem witness_PairRequests :
  (∃ (r : Req) (s : State), Req.clear r .no false s)
  ∧ (∃ (r : Req) (c v1 v2 v3 v4 : BitVec 32) (n : Nat) (o : Option Nat) (s : State), Req.clear r .no false s ∧ s.bki.clmHold = true)
  ∧ (∃ (r : Req) (c : BitVec 32) (s : State), Req.clear r .no false s ∧ s.bki.clmHold = false ∧ c ≠ 0 ∧ s.switching = false
      ∧ (s.cgu.role = .out ∨ s.cgu.role = .standby) ∧ partnerTakes s = false)
  ∧ (∃ (r : Req) (c : BitVec 32) (s : State), Req.clear r .no false s ∧ s.bki.clmHold = false ∧ c ≠ 0 ∧ s.switching = false
      ∧ s.cgu.role ≠ .out ∧ s.cgu.role ≠ .standby)
  ∧ (∃ (r : Req) (c v1 v2 v3 v4 : BitVec 32) (s : State), Req.clear r .no false s ∧ s.bki.clmHold = false ∧ s.switching = true)
  ∧ (∃ (r : Req) (v1 v2 v3 v4 : BitVec 32) (s : State), Req.clear r .no false s ∧ s.bki.clmHold = false ∧ claimMemBad v2 = false
      ∧ ocuCtlBad v3 = false ∧ mlkCtlBad v4 = false ∧ s.switching = false ∧ pairConfigRefused v1 v3 s = none)
  ∧ (∃ (r : Req) (v1 v2 v3 v4 : BitVec 32) (n : Nat) (s : State), Req.clear r .no false s ∧ s.bki.clmHold = false ∧ claimMemBad v2 = false
      ∧ ocuCtlBad v3 = false ∧ mlkCtlBad v4 = false ∧ s.switching = false ∧ pairConfigRefused v1 v3 s = some n)
  ∧ (∃ (r : Req) (n : Nat) (s : State), Req.clear r .no false s ∧ s.bki.clmHold = false ∧ 1 ≤ n ∧ n ≤ 15 ∧ s.cgu.role = .active
      ∧ s.mlk.swHeld = none)
  ∧ (∃ (r : Req) (n : Nat) (s : State), Req.clear r .no false s ∧ s.bki.clmHold = false ∧ 1 ≤ n ∧ n ≤ 15 ∧ s.cgu.role = .standby
      ∧ (s.mlk.word.swUnit ≠ some s.cgu.unitId ∨ s.mlk.word.unit ≠ n))
  ∧ (∃ (r : Req) (n m : Nat) (s : State), Req.clear r .no false s ∧ s.bki.clmHold = false ∧ 1 ≤ n ∧ n ≤ 15 ∧ s.cgu.role = .standby
      ∧ s.mlk.word.swUnit = some s.cgu.unitId ∧ s.mlk.word.unit = n ∧ switchFails s = some m)
  ∧ (∃ (r : Req) (n : Nat) (s : State), Req.clear r .no false s ∧ s.bki.clmHold = false ∧ 1 ≤ n ∧ n ≤ 15 ∧ s.cgu.role = .standby
      ∧ s.mlk.word.swUnit = some s.cgu.unitId ∧ s.mlk.word.unit = n ∧ switchFails s = none ∧ s.mlk.partnerClaim ≠ 0xFFFFFFFF)
  ∧ (∃ (r : Req) (n : Nat) (s : State), Req.clear r .no false s ∧ s.bki.clmHold = false ∧ 1 ≤ n ∧ n ≤ 15 ∧ s.cgu.role ≠ .active
      ∧ s.cgu.role ≠ .standby)
  ∧ (∃ (r : Req) (s : State), Req.clear r .no false s ∧ s.bki.clmHold = false)
  ∧ (∃ (r : Req) (s : State), Req.clear r .no false s ∧ s.bki.clmHold = false ∧ s.cgu.role = .out ∧ s.unitF = false ∧ s.cgu.idConflict = none
      ∧ s.cgu.outHard = true ∧ s.cgu.clmEn = true ∧ s.cgu.unitId ≠ 0)
  ∧ (∃ (r : Req) (s : State), Req.clear r .no false s ∧ s.bki.clmHold = false ∧ s.cgu.role = .out ∧ s.unitF = false ∧ s.cgu.idConflict = none
      ∧ (s.cgu.clmEn = false ∨ s.cgu.unitId = 0))
  ∧ (∃ (r : Req) (s : State), Req.clear r .no false s ∧ s.bki.clmHold = false ∧ s.cgu.role ≠ .out)
  ∧ (∃ (r : Req) (s : State), Req.clear r .no false s ∧ s.bki.clmHold = false ∧ s.switching = false ∧ s.mlk.partner = .present
      ∧ s.mlk.word.role ≠ .taking)
  ∧ (∃ (r : Req) (s : State), Req.clear r .no false s ∧ s.bki.clmHold = false ∧ s.switching = false ∧ s.mlk.partner ≠ .present)
  ∧ (∃ (r : Req) (n : Nat) (o : Option Nat) (s : State), Req.clear r .no false s ∧ s.bki.clmHold = false ∧ n < 16
      ∧ (∀ i, o = some i → i < 512 ∧ ((s.inst i).exists_ = true ∨ (s.inst i).state = .resetting))) :=
  ⟨⟨r0, s0, clearOf (by decide +kernel)⟩,
   ⟨r0, 5, 0, 50, 0, 0, 2, none, (s0.modBki fun b => { b with clmHold := true }), clearOf (by decide +kernel), by decide +kernel⟩,
   ⟨r0, 5, ((((s0.modBki fun b => { b with clmHold := false }).modCgu fun c => { c with unitId := 1, role := .standby, idConflict := none, setAside := [] }).modMlk fun m => { m with partner := .present, word := { unit := 2, role := .active, swUnit := some 1 }, partnerClaim := 7, swHeld := none, mir := [] }).modFaults fun f => { f with sets := [] }), clearOf (by decide +kernel), by decide +kernel⟩,
   ⟨r0, 5, ((((s0.modBki fun b => { b with clmHold := false }).modCgu fun c => { c with unitId := 1, role := .active, idConflict := none, setAside := [] }).modMlk fun m => { m with partner := .present, word := { unit := 2, role := .active, swUnit := some 1 }, partnerClaim := 7, swHeld := none, mir := [] }).modFaults fun f => { f with sets := [] }), clearOf (by decide +kernel), by decide +kernel⟩,
   ⟨r0, 5, 0x00000000, 50, 0x011E03E8, 0x00000504, ((s0.modBki fun b => { b with clmHold := false }).modMbx fun m => { m with ops := [{ handle := 7, opcode := 0x0703 }] }), clearOf (by decide +kernel), by decide +kernel⟩,
   ⟨r0, 0x00000000, 50, 0x011E03E8, 0x00000504, (((((s0.modBki fun b => { b with clmHold := false }).modCgu fun c => { c with unitId := 1, role := .out, idConflict := none, setAside := [], clmEn := false }).modMlk fun m => { m with partner := .present, word := { unit := 2, role := .active, swUnit := some 1 }, partnerClaim := 7, swHeld := none, mir := [] }).modFaults fun f => { f with sets := [] }).modInsts fun i => { i with desc := [] }), clearOf (by decide +kernel), by decide +kernel⟩,
   ⟨r0, 0x00000001, 50, 0x011E03E8, 0x00000504, 14, (((((s0.modBki fun b => { b with clmHold := false }).modCgu fun c => { c with unitId := 1, role := .out, idConflict := some 1, clmEn := false, setAside := [] }).modMlk fun m => { m with partner := .present, word := { unit := 2, role := .active, swUnit := some 1 }, partnerClaim := 7, swHeld := none, mir := [] }).modFaults fun f => { f with sets := [] })), clearOf (by decide +kernel), by decide +kernel⟩,
   ⟨r0, 2, ((((s0.modBki fun b => { b with clmHold := false }).modCgu fun c => { c with unitId := 1, role := .active, idConflict := none, setAside := [] }).modMlk fun m => { m with partner := .present, word := { unit := 2, role := .active, swUnit := some 1 }, partnerClaim := 7, swHeld := none, mir := [] }).modFaults fun f => { f with sets := [] }), clearOf (by decide +kernel), by decide +kernel⟩,
   ⟨r0, 2, ((((s0.modBki fun b => { b with clmHold := false }).modCgu fun c => { c with unitId := 1, role := .standby, idConflict := none, setAside := [] }).modMlk fun m => { m with partner := .present, partnerClaim := 7, swHeld := none, mir := [], word := { unit := 2 } }).modFaults fun f => { f with sets := [] }), clearOf (by decide +kernel), by decide +kernel⟩,
   ⟨r0, 2, 72, (((((s0.modBki fun b => { b with clmHold := false }).modCgu fun c => { c with unitId := 1, role := .standby, idConflict := none, setAside := [] }).modMlk fun m => { m with partner := .present, word := { unit := 2, role := .active, swUnit := some 1 }, partnerClaim := 7, swHeld := none, mir := [] }).modFaults fun f => { f with sets := [] }).modOcu fun o => { o with takeBlock := true }), clearOf (by decide +kernel), by decide +kernel⟩,
   ⟨r0, 2, (((((s0.modBki fun b => { b with clmHold := false }).modCgu fun c => { c with unitId := 1, role := .standby, idConflict := none, setAside := [] }).modMlk fun m => { m with partner := .present, word := { unit := 2, role := .active, swUnit := some 1 }, partnerClaim := 7, swHeld := none, mir := [] }).modFaults fun f => { f with sets := [] }).modOcu fun o => { o with takeBlock := false, lastReferred := none }), clearOf (by decide +kernel), by decide +kernel⟩,
   ⟨r0, 2, ((((s0.modBki fun b => { b with clmHold := false }).modCgu fun c => { c with unitId := 1, role := .out, idConflict := none, setAside := [] }).modMlk fun m => { m with partner := .present, word := { unit := 2, role := .active, swUnit := some 1 }, partnerClaim := 7, swHeld := none, mir := [] }).modFaults fun f => { f with sets := [] }), clearOf (by decide +kernel), by decide +kernel⟩,
   ⟨r0, (s0.modBki fun b => { b with clmHold := false }), clearOf (by decide +kernel), by decide +kernel⟩,
   ⟨r0, ((((s0.modBki fun b => { b with clmHold := false }).modCgu fun c => { c with unitId := 1, role := .out, idConflict := none, setAside := [], outHard := true, clmEn := true }).modMlk fun m => { m with partner := .present, word := { unit := 2, role := .active, swUnit := some 1 }, partnerClaim := 7, swHeld := none, mir := [] }).modFaults fun f => { f with sets := [] }), clearOf (by decide +kernel), by decide +kernel⟩,
   ⟨r0, ((((s0.modBki fun b => { b with clmHold := false }).modCgu fun c => { c with unitId := 1, role := .out, idConflict := none, setAside := [], outHard := true, clmEn := false }).modMlk fun m => { m with partner := .present, word := { unit := 2, role := .active, swUnit := some 1 }, partnerClaim := 7, swHeld := none, mir := [] }).modFaults fun f => { f with sets := [] }), clearOf (by decide +kernel), by decide +kernel⟩,
   ⟨r0, ((((s0.modBki fun b => { b with clmHold := false }).modCgu fun c => { c with unitId := 1, role := .alone, idConflict := none, setAside := [] }).modMlk fun m => { m with partner := .present, word := { unit := 2, role := .active, swUnit := some 1 }, partnerClaim := 7, swHeld := none, mir := [] }).modFaults fun f => { f with sets := [] }), clearOf (by decide +kernel), by decide +kernel⟩,
   ⟨r0, ((((s0.modBki fun b => { b with clmHold := false }).modCgu fun c => { c with unitId := 1, role := .active, idConflict := none, setAside := [] }).modMlk fun m => { m with partner := .present, word := { unit := 2, role := .active, swUnit := some 1 }, partnerClaim := 7, swHeld := none, mir := [] }).modFaults fun f => { f with sets := [] }), clearOf (by decide +kernel), by decide +kernel⟩,
   ⟨r0, ((((s0.modBki fun b => { b with clmHold := false }).modCgu fun c => { c with unitId := 1, role := .active, idConflict := none, setAside := [] }).modMlk fun m => { m with partner := .lost, word := { unit := 2, role := .active, swUnit := some 1 }, partnerClaim := 7, swHeld := none, mir := [] }).modFaults fun f => { f with sets := [] }), clearOf (by decide +kernel), by decide +kernel⟩,
   ⟨r0, 3, (some 1), (wi (s0.modBki fun b => { b with clmHold := false })), clearOf (by decide +kernel), by decide +kernel⟩⟩

theorem witness_KeyFaultAndRecorderRequests :
  (∃ (r : Req) (n : Nat) (v : BitVec 256) (a : KeyArgs) (s : State), Req.clear r .no false s ∧ n < 1024 ∧ (s.slot n).lock = false
      ∧ loadable n a.use s = true ∧ a.ok = true)
  ∧ (∃ (r : Req) (n : Nat) (v : BitVec 256) (a : KeyArgs) (s : State), Req.clear r .no false s ∧ n < 1024 ∧ (s.slot n).lock = true)
  ∧ (∃ (r : Req) (n : Nat) (a : KeyArgs) (s : State), Req.clear r .no false s ∧ 8 ≤ n ∧ n < 1024 ∧ a.ok = true ∧ (s.slot n).lock = false
      ∧ s.ksu.trngOk = true)
  ∧ (∃ (r : Req) (n : Nat) (a : KeyArgs) (s : State), Req.clear r .no false s ∧ 8 ≤ n ∧ n < 1024 ∧ (s.slot n).lock = true)
  ∧ (∃ (r : Req) (n : Nat) (p : Option Nat) (a : KeyArgs) (l c : List Byte) (s : State), Req.clear r .own false s ∧ 8 ≤ n ∧ n < 1024
      ∧ (∀ m, p = some m → m < 1024) ∧ a.ok = true ∧ deriveRefused .mgp n p a.use l.length c.length s = 0)
  ∧ (∃ (r : Req) (n : Nat) (p : Option Nat) (a : KeyArgs) (l c : List Byte) (k : Nat) (s : State), Req.clear r .own false s ∧ 8 ≤ n
      ∧ n < 1024 ∧ (∀ m, p = some m → m < 1024) ∧ a.ok = true ∧ k ≠ 0 ∧ deriveRefused .mgp n p a.use l.length c.length s = k)
  ∧ (∃ (r : Req) (n : Nat) (s : State), Req.clear r .own false s ∧ n < 1024 ∧ fixedSlot n = false)
  ∧ (∃ (r : Req) (n : Nat) (s : State), Req.clear r .own false s ∧ fixedSlot n = true)
  ∧ (∃ (r : Req) (n : Nat) (s : State), Req.clear r .own false s ∧ n < 1024)
  ∧ (∃ (r : Req) (n i g : Nat) (s : State), Req.clear r .no false s ∧ 8 ≤ n ∧ n < 1024 ∧ (s.slot n).lock = false ∧ i < 512
      ∧ (s.inst i).exists_ = true ∧ (s.inst i).gen = g ∧ ((s.slot n).ownedBy i = true ∨ s.useKeys i < (s.inst i).share.keys))
  ∧ (∃ (r : Req) (n i g : Nat) (s : State), Req.clear r .no false s ∧ 8 ≤ n ∧ n < 1024 ∧ (s.slot n).lock = false)
  ∧ (∃ (r : Req) (n : Nat) (a : KeyArgs) (l d : Bool) (s : State), Req.clear r .no false s ∧ 8 ≤ n ∧ n < 1024 ∧ (s.slot n).lock = false
      ∧ a.ok = true)
  ∧ (∃ (r : Req) (n : Nat) (a : KeyArgs) (l d : Bool) (s : State), Req.clear r .no false s ∧ 8 ≤ n ∧ n < 1024 ∧ (s.slot n).lock = true)
  ∧ (∃ (r : Req) (n : Nat) (a : KeyArgs) (l d : Bool) (s : State), Req.clear r .no false s ∧ n < 8)
  ∧ (∃ (r : Req) (n : Nat) (e : VerEntry) (s : State), Req.clear r .no false s ∧ n < 256 ∧ isStreamIdx e.entry = true ∧ e.slotA < 1024
      ∧ e.slotB < 1024 ∧ otherVerified n e.entry s + (s.stream e.entry).rate ≤ 300000)
  ∧ (∃ (r : Req) (n : Nat) (e : VerEntry) (s : State), Req.clear r .no false s ∧ n < 256 ∧ isStreamIdx e.entry = true ∧ e.slotA < 1024
      ∧ e.slotB < 1024 ∧ e.valid = true ∧ 300000 < otherVerified n e.entry s + (s.stream e.entry).rate)
  ∧ (∃ (r : Req) (n : Nat) (s : State), Req.clear r .no false s ∧ n ≤ 1)
  ∧ (∃ (r : Req) (b : BlockId) (k : Nat) (s : State), Req.clear r .no false s ∧ isSet b k = true)
  ∧ (∃ (r : Req) (k : Nat) (s : State), Req.clear r .no false s ∧ k < 4)
  ∧ (∃ (r : Req) (b : BlockId) (k kind pos : Nat) (pat : BitVec 8) (f : Bool) (s : State), Req.clear r .no false s ∧ isSet b k = true
      ∧ kind ≤ 3 ∧ pos ≤ 17 ∧ pat ≠ 0 ∧ (s.fset b k).injArm = false ∧ injectRefused b kind f s = none)
  ∧ (∃ (r : Req) (b : BlockId) (k kind pos n : Nat) (mode : Bool) (pat : BitVec 8) (f : Bool) (s : State), Req.clear r .no false s
      ∧ isSet b k = true ∧ injectable kind mode = true ∧ pos ≤ 17 ∧ pat ≠ 0 ∧ (s.fset b k).injArm = false
      ∧ injectRefused b kind f s = some n)
  ∧ (∃ (r : Req) (b : BlockId) (k : Nat) (l re : Bool) (s : State), Req.clear r .no false s ∧ isSet b k = true)
  ∧ (∃ (r : Req) (b : BlockId) (k n : Nat) (s : State), Req.clear r .no false s ∧ isSet b k = true ∧ 100 ≤ n ∧ n ≤ 3600000)
  ∧ (∃ (r : Req) (c m n i : Nat) (s : State), Req.clear r .no false s ∧ 16 ≤ c ∧ c < 1024 ∧ m ≤ 2 ∧ 1 ≤ n ∧ n ≤ 1023 ∧ 10 ≤ i ∧ i ≤ 1000000)
  ∧ (∃ (r : Req) (s : State), Req.clear r .no false s ∧ s.evr.cur2Alloc = false)
  ∧ (∃ (r : Req) (s : State), Req.clear r .no false s ∧ s.evr.cur2Alloc = true)
  ∧ (∃ (r : Req) (a n : Nat) (s : State), Req.clear r .yes false s ∧ a < 1024 ∧ a + n ≤ 1024)
  ∧ (∃ (r : Req) (c : Nat) (d : List Byte) (s : State), Req.clear r .yes false s ∧ 0x3E0 ≤ c ∧ c < 0x400 ∧ d.length = 28)
  ∧ (∃ (r : Req) (c : Nat) (d : List Byte) (s : State), Req.clear r .yes false s ∧ 0x3E0 ≤ c ∧ c < 0x400 ∧ d.length = 28
      ∧ s.evr.running = true ∧ s.evr.frozen = false ∧ s.evr.posts = [] ∧ (∀ a, (s.evr.bucket c).refillAt = some a → s.now < a)
      ∧ (s.evr.treat (s.occ .mgp 0 c 0 .mgp d) = .pass ∨ s.evr.treat (s.occ .mgp 0 c 0 .mgp d) = .token) ∧ nextSeq s.evr.next ≠ s.evr.next)
  ∧ (∃ (r : Req) (c : Nat) (d : List Byte) (s : State), Req.clear r .yes false s ∧ 0x3E0 ≤ c ∧ c < 0x400 ∧ d.length = 28
      ∧ s.evr.running = true ∧ s.evr.frozen = true)
  ∧ (∃ (r : Req) (l v : Bool) (s : State), Req.clear r .no false s) :=
  ⟨⟨r0, 9, 77, { use := 1, tag := 1 }, (kst s0), clearOf (by decide +kernel), by decide +kernel⟩,
   ⟨r0, 9, 77, { use := 1, tag := 1 }, ((kst s0).modKsu fun k => { k with slots := [(9, { lock := true })] }), clearOf (by decide +kernel), by decide +kernel⟩,
   ⟨r0, 9, { use := 1, tag := 1 }, (kst s0), clearOf (by decide +kernel), by decide +kernel⟩,
   ⟨r0, 9, { use := 1, tag := 1 }, ((kst s0).modKsu fun k => { k with slots := [(9, { lock := true })] }), clearOf (by decide +kernel), by decide +kernel⟩,
   ⟨r0, 9, (some 10), { use := 1, tag := 1 }, [7], [], (kst s0), clearOf (by decide +kernel), by decide +kernel⟩,
   ⟨r0, 9, (some 11), { use := 1, tag := 1 }, [7], [], 2, (kst s0), clearOf (by decide +kernel), by decide +kernel⟩,
   ⟨r0, 9, s0, clearOf (by decide +kernel), by decide +kernel⟩,
   ⟨r0, 5, s0, clearOf (by decide +kernel), by decide +kernel⟩,
   ⟨r0, 9, s0, clearOf (by decide +kernel), by decide +kernel⟩,
   ⟨r0, 9, 1, 1, (wi (kst s0)), clearOf (by decide +kernel), by decide +kernel⟩,
   ⟨r0, 9, 1, 1, (kst s0), clearOf (by decide +kernel), by decide +kernel⟩,
   ⟨r0, 9, { use := 1, tag := 1 }, true, true, (kst s0), clearOf (by decide +kernel), by decide +kernel⟩,
   ⟨r0, 9, { use := 1, tag := 1 }, true, true, ((kst s0).modKsu fun k => { k with slots := [(9, { lock := true })] }), clearOf (by decide +kernel), by decide +kernel⟩,
   ⟨r0, 5, {}, true, true, (kst s0), clearOf (by decide +kernel), by decide +kernel⟩,
   ⟨r0, 5, { valid := true, entry := 7 }, (s0.modKsu fun k => { k with ver := [] }), clearOf (by decide +kernel), by decide +kernel⟩,
   ⟨r0, 5, { valid := true, entry := 7 }, (s0.modSw fun w => { w with streams := [(7, { rate := 300001 })] }), clearOf (by decide +kernel), by decide +kernel⟩,
   ⟨r0, 1, s0, clearOf (by decide +kernel), by decide +kernel⟩,
   ⟨r0, .prt, 7, s0, clearOf (by decide +kernel), by decide +kernel⟩,
   ⟨r0, 2, s0, clearOf (by decide +kernel), by decide +kernel⟩,
   ⟨r0, .sce, 0, 3, 17, 1, false, (((s0.modFaults fun f => { f with sets := [] }).setFset .sce 0 fun x => { x with injArm := false }).modSeason fun x => { x with season := .summer }), clearOf (by decide +kernel), by decide +kernel⟩,
   ⟨r0, .sce, 0, 3, 17, 51, false, 1, false, (((s0.modFaults fun f => { f with sets := [] }).setFset .sce 0 fun x => { x with injArm := false }).modSeason fun x => { x with season := .spring }), clearOf (by decide +kernel), by decide +kernel⟩,
   ⟨r0, .sce, 0, true, true, s0, clearOf (by decide +kernel), by decide +kernel⟩,
   ⟨r0, .sce, 0, 100, s0, clearOf (by decide +kernel), by decide +kernel⟩,
   ⟨r0, 16, 2, 1, 10, s0, clearOf (by decide +kernel), by decide +kernel⟩,
   ⟨r0, (s0.modEvr fun e => { e with cur2Alloc := false }), clearOf (by decide +kernel), by decide +kernel⟩,
   ⟨r0, (s0.modEvr fun e => { e with cur2Alloc := true }), clearOf (by decide +kernel), by decide +kernel⟩,
   ⟨r0, 1000, 24, s0, clearOf (by decide +kernel), by decide +kernel⟩,
   ⟨r0, 0x3FF, (List.replicate 28 1), s0, clearOf (by decide +kernel), by decide +kernel⟩,
   ⟨r0, 0x3FF, (List.replicate 28 1), (s0.modEvr fun e => { e with running := true }), clearOf (by decide +kernel), by decide +kernel⟩,
   ⟨r0, 0x3FF, (List.replicate 28 1), (s0.modEvr fun e => { e with frozen := true }), clearOf (by decide +kernel), by decide +kernel⟩,
   ⟨r0, true, false, s0, clearOf (by decide +kernel)⟩⟩

theorem witness_MonitorLinesAndLock :
  (∃ (b : BlockId) (k o n i : Nat) (e : Option Nat) (p : CntPage) (d : Bool) (c : BitVec 64) (r : Req) (m : MonReq) (s : State), s.persist.fwUp = false)
  ∧ (∃ (s : State), s.persist.fwUp = true)
  ∧ (∃ (b : BlockId) (k : Nat) (s : State), s.persist.fwUp = true ∧ isSet b k = true)
  ∧ (∃ (p : CntPage) (s : State), s.persist.fwUp = true ∧ p.exists_ = true)
  ∧ (∃ (i : Nat) (s : State), s.persist.fwUp = true)
  ∧ (∃ (n : Option Nat) (c : Cursor) (s : State), s.persist.fwUp = true ∧ (∀ k, n = some k → 1 ≤ k ∧ k ≤ 64) ∧ s.evr.cursors[3]? = some c
      ∧ c.busy = false)
  ∧ (∃ (b : BlockId) (u o n : Nat) (s : State), s.persist.fwUp = true ∧ u < b.units ∧ o % 4 = 0 ∧ 1 ≤ n ∧ n ≤ 16
      ∧ (∀ k, k < n → sideEffect b (o + 4 * k) = false))
  ∧ (∃ (b : BlockId) (u o n k : Nat) (s : State), s.persist.fwUp = true ∧ u < b.units ∧ o % 4 = 0 ∧ 1 ≤ n ∧ n ≤ 16 ∧ k < n
      ∧ sideEffect b (o + 4 * k) = true ∧ s.mon.lost = 0)
  ∧ (∃ (s : State), s.persist.fwUp = true)
  ∧ (∃ (s : State), s.persist.fwUp = true ∧ (s.slot 4).valid = true ∧ waitLeft s = none)
  ∧ (∃ (n : Nat) (s : State), s.persist.fwUp = true ∧ (s.slot 4).valid = true ∧ waitLeft s = some n)
  ∧ (∃ (c : BitVec 64) (s : State), s.persist.fwUp = true ∧ s.mon.challenge = some c ∧ (s.slot 4).valid = true ∧ (s.slot 4).unusable = false)
  ∧ (∃ (c v : BitVec 64) (s : State), s.persist.fwUp = true ∧ s.mon.challenge = some c
      ∧ ((s.slot 4).valid = false ∨ (s.slot 4).unusable = true ∨ v ≠ expected c s))
  ∧ (∃ (v : BitVec 64) (s : State), s.persist.fwUp = true ∧ s.mon.challenge = none)
  ∧ (∃ (s : State), s.persist.fwUp = true ∧ s.mon.lost = 0)
  ∧ (∃ (s : State), s.mon.unlocked = true ∧ s.mon.lineAt + sec 1800 ≤ s.now)
  ∧ (∃ (c : BitVec 64) (s : State), s.mon.challenge = some c ∧ s.mon.challengeAt + sec 60 ≤ s.now)
  ∧ (∃ (n : Nat) (s : State), s.persist.fwUp = true ∧ baudRates.contains n = true)
  ∧ (∃ (n : Nat) (s : State), s.persist.fwUp = true ∧ baudRates.contains n = false)
  ∧ (∃ (a : Nat) (s : State), s.mon.baudAt = some a ∧ a + sec 10 ≤ s.now)
  ∧ (∃ (b : Bool) (s : State), s.persist.fwUp = true)
  ∧ (∃ (r : Req) (m : MonReq) (s : State), s.persist.fwUp = true ∧ s.mon.unlocked = false)
  ∧ (∃ (r : Req) (m : MonReq) (s : State), s.persist.fwUp = true ∧ s.mon.unlocked = true ∧ r.crcOk = true ∧ r.slow = false
      ∧ ((liveCache s.mon.cache s).find? fun x => x.tag == r.tag) = none
      ∧ precheck (monOp m).1 { r with src := .mon } .yes (monOp m).2.1 (lineTaken s) = none
      ∧ let v := (monOp m).2.2 { r with src := .mon } (lineTaken s); v.1.persist.fwUp = true ∧ v.2.status ≠ .restarted
      ∧ v.2.status ≠ .timeout)
  ∧ (∃ (r : Req) (m : MonReq) (x : TagRec) (s : State), s.persist.fwUp = true ∧ s.mon.unlocked = true ∧ r.crcOk = true
      ∧ ((liveCache s.mon.cache s).find? fun x => x.tag == r.tag) = some x) :=
  ⟨⟨.sce, 0, 0, 1, 0, none, .switch, false, 0, {}, .getStatus, State.reset, by decide +kernel⟩,
   ⟨s0, by decide +kernel⟩,
   ⟨.sce, 0, s0, by decide +kernel⟩,
   ⟨.switch, s0, by decide +kernel⟩,
   ⟨1, s0, by decide +kernel⟩,
   ⟨(some 64), {}, (s0.modEvr fun e => { e with cursors := [{}, {}, {}, {}] }), by decide +kernel⟩,
   ⟨.mlk, 0, 0, 2, s0, by decide +kernel⟩,
   ⟨.sce, 0, 0, 2, 1, (s0.modMon fun m => { m with lost := 0 }), by decide +kernel⟩,
   ⟨s0, by decide +kernel⟩,
   ⟨((s0.modKsu fun k => { k with slots := [(4, { valid := true })] }).modMon fun m => { m with lastIssue := none }), by decide +kernel⟩,
   ⟨1, ((s0.modKsu fun k => { k with slots := [(4, { valid := true })] }).modMon fun m => { m with lastIssue := some 99000000000, fails := 0 }), by decide +kernel⟩,
   ⟨5, ((s0.modKsu fun k => { k with slots := [(4, { valid := true })] }).modMon fun m => { m with challenge := some 5, challengeAt := 99000000000 }), by decide +kernel⟩,
   ⟨5, 7, ((s0.modKsu fun k => { k with slots := [] }).modMon fun m => { m with challenge := some 5, challengeAt := 99000000000 }), by decide +kernel⟩,
   ⟨7, (s0.modMon fun m => { m with challenge := none }), by decide +kernel⟩,
   ⟨(s0.modMon fun m => { m with lost := 0 }), by decide +kernel⟩,
   ⟨((s0.modMon fun m => { m with unlocked := true, lineAt := 5 }).modTime fun t => { t with age := 2000000000000 }), by decide +kernel⟩,
   ⟨5, (s0.modMon fun m => { m with challenge := some 5, challengeAt := 5 }), by decide +kernel⟩,
   ⟨921600, s0, by decide +kernel⟩,
   ⟨300, s0, by decide +kernel⟩,
   ⟨5, (s0.modMon fun m => { m with baudAt := some 5 }), by decide +kernel⟩,
   ⟨false, s0, by decide +kernel⟩,
   ⟨{}, .getStatus, (s0.modMon fun m => { m with unlocked := false }), by decide +kernel⟩,
   ⟨{}, .getStatus, (s0.modMon fun m => { m with unlocked := true }), by decide +kernel⟩,
   ⟨{}, .getStatus, { tag := 0, atNs := 99999999999 }, (s0.modMon fun m => { m with unlocked := true, cache := [{ tag := 0, atNs := 99999999999 }] }), by decide +kernel⟩⟩

/-- What the first clause of RequestsAreCheckedInOrder names one after the other: flags, length, a missing instance, another generation, and no instance at all. -/
theorem witness_RequestsAreCheckedInOrder_cases :
  (∃ (r : Req) (s : State), r.src = .host 0 ∧ takeable r s = true ∧ r.crcOk = true ∧ r.flagsBad = true)
  ∧ (∃ (r : Req) (s : State), r.src = .host 0 ∧ takeable r s = true ∧ r.crcOk = true ∧ r.flagsBad = false ∧ r.lenOk = false)
  ∧ (∃ (r : Req) (s : State), r.src = .host 0 ∧ takeable r s = true ∧ r.crcOk = true ∧ r.flagsBad = false ∧ r.lenOk = true
      ∧ r.inst = some 511 ∧ (s.inst 511).state = .free)
  ∧ (∃ (r : Req) (s : State), r.src = .host 0 ∧ takeable r s = true ∧ r.crcOk = true ∧ r.flagsBad = false ∧ r.lenOk = true
      ∧ r.inst = some 1 ∧ (s.inst 1).state = .ready ∧ (s.inst 1).gen ≠ r.gen)
  ∧ (∃ (r : Req) (s : State), r.src = .host 0 ∧ takeable r s = true ∧ r.crcOk = true ∧ r.flagsBad = false ∧ r.lenOk = true
      ∧ r.inst = none) :=
  ⟨⟨{ flagsBad := true }, s0, by decide +kernel⟩, ⟨{ lenOk := false }, s0, by decide +kernel⟩, ⟨{ inst := some 511 }, s0, by decide +kernel⟩,
   ⟨{ inst := some 1, gen := 2 }, wi s0, by decide +kernel⟩, ⟨r0, s0, by decide +kernel⟩⟩

end Sys2Proof.Tests
end

section
/-!
PROOFS. Native-mode arbitration (R38): what the round-robin search, the choice by priority and a decision do, and the obligation O7.
-/
namespace Sys2Proof.Machine
open Sys2Proof

/-! ### One arbiter of the state -/

@[simp] theorem State.arb_setArb_same (s : State) (k : Nat) (a : Arbiter) : (s.setArb k a).arb k = a := by
  simp [State.arb, State.setArb]

theorem State.arb_setArb_other (s : State) {k j : Nat} (a : Arbiter) (h : j ≠ k) : (s.setArb k a).arb j = s.arb j := by
  simp [State.arb, State.setArb, Tbl.get_set_other _ _ _ h]

/-! ### The requests raised and the mode taken -/

/-- A request raised by a requester that the arbiter does not have is not taken (R36). -/
theorem Arbiter.raised_idx_lt {a : Arbiter} {n : Nat} (rs : List ArbWait) (h : ∀ r ∈ a.waiting, r.idx < n) :
    ∀ i ∈ (a.raised n rs).waiting.map ArbWait.idx, i < n := by
  simp only [Arbiter.raised, List.map_append, List.mem_append, List.mem_map, List.mem_filter]
  rintro i (⟨_, ⟨r, hr, rfl⟩, rfl⟩ | ⟨r, ⟨_, hr⟩, rfl⟩)
  · exact h r hr
  · simp only [Bool.and_eq_true, decide_eq_true_eq] at hr
    exact hr.1.1

/-- A mode taken changes the mode, the back-off counts and the reservations alone. -/
theorem Arbiter.modeTaken_eq (a : Arbiter) :
    ∃ m q c v, a.modeTaken = { a with mode := m, modeNext := q, consec := c, reserved := v } := by
  unfold Arbiter.modeTaken
  split
  · split
    · exact ⟨_, _, _, _, rfl⟩
    · exact ⟨_, _, _, _, rfl⟩
  · exact ⟨_, _, _, _, rfl⟩

@[simp] theorem Arbiter.modeTaken_prio (a : Arbiter) : a.modeTaken.prio = a.prio := by
  obtain ⟨_, _, _, _, h⟩ := a.modeTaken_eq; rw [h]
@[simp] theorem Arbiter.modeTaken_spent (a : Arbiter) : a.modeTaken.spent = a.spent := by
  obtain ⟨_, _, _, _, h⟩ := a.modeTaken_eq; rw [h]
@[simp] theorem Arbiter.modeTaken_waiting (a : Arbiter) : a.modeTaken.waiting = a.waiting := by
  obtain ⟨_, _, _, _, h⟩ := a.modeTaken_eq; rw [h]
@[simp] theorem Arbiter.modeTaken_lastWinner (a : Arbiter) : a.modeTaken.lastWinner = a.lastWinner := by
  obtain ⟨_, _, _, _, h⟩ := a.modeTaken_eq; rw [h]

theorem Arbiter.modeTaken_mode (a : Arbiter) : a.modeTaken.mode = a.modeNext.getD a.mode := by
  unfold Arbiter.modeTaken
  split
  next m hm =>
    rw [hm, Option.getD_some]
    split
    · exact Eq.symm ‹_›
    · rfl
  next hm => rw [hm, Option.getD_none]

/-- The mode that a decision takes does not depend on who waits. -/
@[simp] theorem Arbiter.raised_modeTaken_mode (a : Arbiter) (n : Nat) (rs : List ArbWait) :
    (a.raised n rs).modeTaken.mode = a.modeTaken.mode := by
  rw [Arbiter.modeTaken_mode, Arbiter.modeTaken_mode]; rfl

/-! ### The round-robin search -/

/-- Counting upwards from `last`, every index is met within one turn. -/
theorem exists_turn {n i : Nat} (last : Nat) (h : i < n) : ∃ j < n, (last + 1 + j) % n = i := by
  have hn : 0 < n := by omega
  have hle : last + 1 ≤ n * (last + 1) := Nat.le_mul_of_pos_left _ hn
  refine ⟨(i + n * (last + 1) - (last + 1)) % n, Nat.mod_lt _ hn, ?_⟩
  calc (last + 1 + (i + n * (last + 1) - (last + 1)) % n) % n
      = (last + 1 + (i + n * (last + 1) - (last + 1))) % n := Nat.add_mod_mod ..
    _ = (i + n * (last + 1)) % n := by congr 1; omega
    _ = i := by rw [Nat.add_mul_mod_self_left, Nat.mod_eq_of_lt h]

/-- The requester found is the first of `c` after `last`, wrapping. -/
theorem roundRobin_first {n last w : Nat} {c : List Nat} (h : roundRobin n last c = some w) :
    w ∈ c ∧ ∃ j, w = (last + 1 + j) % n ∧ ∀ k, k < j → (last + 1 + k) % n ∉ c := by
  rw [roundRobin, List.find?_map, Option.map_eq_some_iff] at h
  obtain ⟨j, hj, rfl⟩ := h
  obtain ⟨hc, -, hmin⟩ := List.find?_range_eq_some.mp hj
  exact ⟨by simpa using hc, j, rfl, fun k hk => by simpa using hmin k hk⟩

/-- Some requester is found where `c` holds one. -/
theorem roundRobin_isSome {n i : Nat} {c : List Nat} (last : Nat) (hi : i < n) (hc : i ∈ c) : (roundRobin n last c).isSome := by
  obtain ⟨j, hj, rfl⟩ := exists_turn last hi
  rw [roundRobin, List.find?_isSome]
  exact ⟨_, List.mem_map.mpr ⟨j, List.mem_range.mpr hj, rfl⟩, by simpa using hc⟩

/-! ### The choice by priority -/

/-- The maximum of a list that is not empty is one of its members, and none is greater. -/
theorem foldl_max_spec {l : List Nat} (h : l ≠ []) : l.foldl max 0 ∈ l ∧ ∀ x ∈ l, x ≤ l.foldl max 0 := by
  obtain ⟨x, l, rfl⟩ := List.exists_cons_of_ne_nil h
  rw [List.foldl_cons, Nat.zero_max]
  exact List.max?_eq_some_iff.mp List.max?_cons'

/-- The winner that R38 names among the requesters `c`: one of them, none with a higher priority, and those of them that stand
before it in the turn after the last winner have a lower one. -/
structure Arbiter.Chosen (a : Arbiter) (n : Nat) (c : List Nat) (w : Nat) : Prop where
  /-- it is considered. -/
  mem : w ∈ c
  /-- none considered has a higher priority. -/
  top : ∀ i ∈ c, a.prio.getD i 0 ≤ a.prio.getD w 0
  /-- it is the first of its priority after the last winner, wrapping. -/
  turn : ∃ j, w = (a.lastWinner + 1 + j) % n ∧ ∀ k, k < j → (a.lastWinner + 1 + k) % n ∈ c →
    a.prio.getD ((a.lastWinner + 1 + k) % n) 0 < a.prio.getD w 0

theorem Arbiter.pick_chosen (a : Arbiter) {n : Nat} {c : List Nat} (hc : c ≠ []) (hn : ∀ i ∈ c, i < n) :
    ∃ w, a.pick n c = some w ∧ a.Chosen n c w := by
  obtain ⟨hmem, hle⟩ := foldl_max_spec (l := c.map fun i => a.prio.getD i 0) (by simpa using hc)
  rw [List.forall_mem_map] at hle
  obtain ⟨m, hm, htop⟩ := List.mem_map.mp hmem
  obtain ⟨w, hw⟩ := Option.isSome_iff_exists.mp (roundRobin_isSome a.lastWinner (hn m hm)
    (c := c.filter fun i => a.prio.getD i 0 == (c.map fun i => a.prio.getD i 0).foldl max 0)
    (List.mem_filter.mpr ⟨hm, by simpa using htop⟩))
  obtain ⟨hwc, j, hj, hbefore⟩ := roundRobin_first hw
  obtain ⟨hwc, hwtop⟩ := List.mem_filter.mp hwc
  rw [beq_iff_eq] at hwtop
  refine ⟨w, hw, hwc, fun i hi => hwtop ▸ hle i hi, j, hj, fun k hk hkc => ?_⟩
  rw [hwtop]
  exact lt_of_le_of_ne (hle _ hkc) fun e => hbefore k hk (List.mem_filter.mpr ⟨hkc, beq_iff_eq.mpr e⟩)

/-- The choice looks at priorities and at the last winner, which a mode taken leaves. -/
@[simp] theorem Arbiter.modeTaken_pick (a : Arbiter) (n : Nat) (c : List Nat) : a.modeTaken.pick n c = a.pick n c := by
  simp [Arbiter.pick]

/-! ### Who is considered in native mode -/

/-- The waiting requesters that are not spent. -/
def Arbiter.unspent (a : Arbiter) : List Nat := (a.waiting.map ArbWait.idx).filter fun i => !a.spent.contains i

/-- The requesters that a native decision considers (R38). -/
def Arbiter.candidates (a : Arbiter) : List Nat := if a.unspent = [] then a.waiting.map ArbWait.idx else a.unspent

/-- The spent requesters once a native decision has begun: none where every waiting one was spent (R38). -/
def Arbiter.marks (a : Arbiter) : List Nat := if a.unspent = [] then [] else a.spent

theorem Arbiter.candidates_ne_nil {a : Arbiter} (h : a.waiting ≠ []) : a.candidates ≠ [] := by
  unfold Arbiter.candidates
  split
  · simpa using h
  · assumption

theorem Arbiter.candidates_subset (a : Arbiter) : a.candidates ⊆ a.waiting.map ArbWait.idx := by
  unfold Arbiter.candidates
  split
  · exact List.Subset.refl _
  · exact List.filter_subset_self _

theorem Arbiter.not_mem_marks {a : Arbiter} {i : Nat} (h : i ∈ a.candidates) : i ∉ a.marks := by
  unfold Arbiter.candidates at h
  unfold Arbiter.marks
  split at h
  next hu => simp [hu]
  next hu =>
    rw [if_neg hu]
    simpa using (List.mem_filter.mp h).2

theorem Arbiter.considered_native {a : Arbiter} (h : a.mode = false) : a.considered = (a.candidates, a.marks) := by
  unfold Arbiter.considered
  rw [if_neg (by simp [h])]
  unfold Arbiter.candidates Arbiter.marks
  by_cases hu : a.unspent = []
  · rw [if_pos hu, if_pos hu]; exact if_pos hu
  · rw [if_neg hu, if_neg hu]; exact if_neg hu

theorem Arbiter.considered_modeTaken {a : Arbiter} (h : a.modeTaken.mode = false) :
    a.modeTaken.considered = (a.candidates, a.marks) := by
  simp [Arbiter.considered_native h, Arbiter.candidates, Arbiter.marks, Arbiter.unspent]

/-! ### A decision in native mode -/

/-- A native grant to an unspent requester spends it. -/
theorem Arbiter.grant_spent {a : Arbiter} {i : Nat} (beats : Nat) (h : a.mode = false) (hi : i ∉ a.spent) :
    (a.grant i beats).spent = a.spent ++ [i] := by
  simp [Arbiter.grant, h, hi]

/-- A native decision with somebody waiting grants the requester that R38 names. -/
theorem Arbiter.decide1_native {a : Arbiter} {n : Nat} (now beats : Nat) (h : a.modeTaken.mode = false) (hw : a.waiting ≠ [])
    (hn : ∀ i ∈ a.waiting.map ArbWait.idx, i < n) :
    ∃ w, a.Chosen n a.candidates w ∧ a.decide1 n now beats = { a.modeTaken with spent := a.marks }.grant w beats := by
  obtain ⟨w, hpick, hchosen⟩ := a.pick_chosen (Arbiter.candidates_ne_nil hw) fun i hi => hn i (a.candidates_subset hi)
  have hwin : a.modeTaken.winner n = some w := by simp [Arbiter.winner, Arbiter.considered_modeTaken h, h, hpick]
  exact ⟨w, hchosen, by simp [Arbiter.decide1, hwin, Arbiter.considered_modeTaken h, h, Arbiter.grant]⟩

/-- Settles O7: the decision is a grant (`decide1_native`) to the requester that R38 names (`pick_chosen`). -/
theorem nativeArbiterDecision : Obligations.NativeArbiterDecision := by
  intro arb rs beats s harb hmode hidx hwait
  have hnative : ((s.arb arb).raised (arbReq arb) rs).modeTaken.mode = false := by simpa using hmode
  obtain ⟨w, ⟨hmem, htop, hturn⟩, hdec⟩ :=
    Arbiter.decide1_native s.now beats hnative hwait (Arbiter.raised_idx_lt rs hidx)
  refine ⟨s.setArb arb (((s.arb arb).raised (arbReq arb) rs).decide1 (arbReq arb) s.now beats), by
    simp [exec, execArbiterDecision, harb], ?_⟩
  rw [hdec]
  simp only [State.arb_setArb_same]
  exact ⟨State.setArb_only s arb _ (Only.refl _ s) (by simp), fun k hk => s.arb_setArb_other _ hk, rfl, rfl,
    hmem, rfl, rfl, rfl, rfl, Arbiter.modeTaken_prio _, htop, hturn,
    Arbiter.grant_spent beats hnative (Arbiter.not_mem_marks hmem), by simp [Arbiter.grant]⟩

end Sys2Proof.Machine
end

section
/-!
PROOFS. Claims on reception (R244, R246): what a claim record does with a frame's value, what the claim rule does with a frame, and
the obligation O22.
-/
namespace Sys2Proof.Machine
open Sys2Proof

/-! ### A claim record meets a value -/

/-- A value is accepted where no record is, where its memory has expired, and where it holds no higher value. -/
theorem claimTake_accepts {r : Option ClaimRec} {memMs v now : Nat}
    (h : ∀ x, r = some x → x.atNs + ms memMs ≤ now ∨ x.h ≤ v) :
    claimTake r memMs v now = (true, some { h := v, atNs := now }) := by
  cases r with
  | none => rfl
  | some x => exact if_pos (h x rfl)

/-- A live record drops a lower value and stays as it is. -/
theorem claimTake_drops {x : ClaimRec} {memMs v now : Nat} (hlive : now < x.atNs + ms memMs) (hv : v < x.h) :
    claimTake (some x) memMs v now = (false, some x) :=
  if_neg (by omega)

/-- A record stands after every value. -/
theorem claimTake_leaves_record (r : Option ClaimRec) (memMs v now : Nat) :
    ∃ ok x, claimTake r memMs v now = (ok, some x) := by
  by_cases h : ∀ x, r = some x → x.atNs + ms memMs ≤ now ∨ x.h ≤ v
  · exact ⟨_, _, claimTake_accepts h⟩
  · push Not at h
    obtain ⟨x, rfl, hlive, hv⟩ := h
    exact ⟨_, _, claimTake_drops hlive hv⟩

/-! ### The claim rule on a frame -/

/-- The claim record of stream entry `i`, where there is one (R246). -/
def State.claimRec (s : State) (i : Nat) : Option ClaimRec := if s.cgu.recs.has i then some (s.cgu.recs.get i {}) else none

theorem State.claimRec_eq_some {s : State} {i : Nat} {x : ClaimRec} :
    s.claimRec i = some x ↔ s.cgu.recs.has i = true ∧ s.cgu.recs.get i {} = x := by
  simp [State.claimRec]

/-- The value that a trailer brings: claim times 16 plus unit (R244). -/
def trailerValue (w : BitVec 64) : Nat := trailerClaim w * 16 + trailerUnit w

section
variable {i : Nat} {f : List Byte} {s : State} (hon : s.cgu.claimRxEn = true)
include hon

theorem claimFilter_of_no_trailer (hf : claimOf (beforeRct f) = none) : claimFilter i f s = (true, s) := by
  simp [claimFilter, hon, hf]

variable {w : BitVec 64} (hw : claimOf (beforeRct f) = some w)
include hw

theorem claimFilter_of_claim_zero (h0 : trailerClaim w = 0) :
    (claimFilter i f s).1 = false ∧ (claimFilter i f s).2.cgu.recs = s.cgu.recs := by
  simp [claimFilter, hon, hw, h0]

/-- A frame with a claim other than 0 is decided by the entry's record alone, and the record after it is written back. -/
theorem claimFilter_of_claimTake (h0 : trailerClaim w ≠ 0) {ok : Bool} {x : ClaimRec}
    (htake : claimTake (s.claimRec i) s.cgu.claimMemMs (trailerValue w) s.now = (ok, some x)) :
    (claimFilter i f s).1 = ok ∧ (claimFilter i f s).2.cgu.recs = s.cgu.recs.set i x := by
  rw [State.claimRec, trailerValue] at htake
  simp [claimFilter, hon, hw, h0, htake]

theorem claimFilter_recs_other {j : Nat} (hj : j ≠ i) :
    (claimFilter i f s).2.cgu.recs.get j {} = s.cgu.recs.get j {} := by
  by_cases h0 : trailerClaim w = 0
  · rw [(claimFilter_of_claim_zero hon hw h0).2]
  · obtain ⟨ok, x, htake⟩ := claimTake_leaves_record (s.claimRec i) s.cgu.claimMemMs (trailerValue w) s.now
    rw [(claimFilter_of_claimTake hon hw h0 htake).2, Tbl.get_set_other _ _ _ hj]

/-- The frame is accepted and becomes the record. -/
theorem claimFilter_accepts (h0 : trailerClaim w ≠ 0)
    (h : ∀ x, s.claimRec i = some x → x.atNs + ms s.cgu.claimMemMs ≤ s.now ∨ x.h ≤ trailerValue w) :
    (claimFilter i f s).1 = true ∧ (claimFilter i f s).2.cgu.recs.get i {} = { h := trailerValue w, atNs := s.now } := by
  obtain ⟨hok, hrecs⟩ := claimFilter_of_claimTake hon hw h0 (claimTake_accepts h)
  exact ⟨hok, by rw [hrecs, Tbl.get_set_same]⟩

/-- The frame is dropped and the record stays. -/
theorem claimFilter_drops (h0 : trailerClaim w ≠ 0) {x : ClaimRec} (hx : s.claimRec i = some x)
    (hlive : s.now < x.atNs + ms s.cgu.claimMemMs) (hv : trailerValue w < x.h) :
    (claimFilter i f s).1 = false ∧ (claimFilter i f s).2.cgu.recs.get i {} = x := by
  obtain ⟨hok, hrecs⟩ := claimFilter_of_claimTake hon hw h0 (by rw [hx]; exact claimTake_drops hlive hv)
  exact ⟨hok, by rw [hrecs, Tbl.get_set_same]⟩

end

/-- Settles O22: a frame with a claim other than 0 is accepted (`claimFilter_accepts`) unless a live record holds a higher value
(`claimFilter_drops`). -/
theorem claimRuleOnReception : Obligations.ClaimRuleOnReception := by
  intro i f s hon
  refine ⟨claimFilter_of_no_trailer hon, fun w hw => ⟨claimFilter_only i f s (Only.refl _ s) (by simp),
    fun j hj => claimFilter_recs_other hon hw hj, claimFilter_of_claim_zero hon hw, fun h0 hold => ?_, fun h0 hhas hlive => ?_⟩⟩
  · refine claimFilter_accepts hon hw h0 fun x hx => Or.inl ?_
    obtain ⟨hhas, rfl⟩ := State.claimRec_eq_some.mp hx
    exact hold.resolve_left (by simp [hhas])
  · have hrec := State.claimRec_eq_some.mpr ⟨hhas, rfl⟩
    have accepts (hv : (s.cgu.recs.get i {}).h ≤ trailerValue w) := claimFilter_accepts hon hw h0 fun x hx =>
      Or.inr ((State.claimRec_eq_some.mp hx).2 ▸ hv)
    refine ⟨fun hv => accepts hv.le, fun hv => ?_, claimFilter_drops hon hw h0 hrec hlive⟩
    obtain ⟨hok, hnew⟩ := accepts hv.ge
    exact ⟨hok, by rw [hnew]; exact hv, by rw [hnew]⟩

end Sys2Proof.Machine
end

section
/-!
PROOFS. Class C findings (R368): a fault set and the recorder's posting queue after a write to each, what a set takes of a finding
that is only counted, and the obligation O10.
-/
namespace Sys2Proof.Machine
open Sys2Proof

/-! ### One fault set of the state -/

@[simp] theorem State.fset_setFset_same (s : State) (b : BlockId) (u : Nat) (g : FaultSet → FaultSet) :
    (s.setFset b u g).fset b u = g (s.fset b u) := by
  simp [State.fset, State.setFset]

theorem State.fset_setFset_other (s : State) {b c : BlockId} {u v : Nat} (g : FaultSet → FaultSet) (h : setKey c v ≠ setKey b u) :
    (s.setFset b u g).fset c v = s.fset c v := by
  simp [State.fset, State.setFset, Tbl.get_set_other _ _ _ h]

/-- The stamp of an occurrence does not depend on the fault sets. -/
@[simp] theorem State.occ_setFset (s : State) (b : BlockId) (u : Nat) (g : FaultSet → FaultSet)
    (c : BlockId) (v code cls : Nat) (owner : Master) (detail : List Byte) (inj : Bool) :
    (s.setFset b u g).occ c v code cls owner detail inj = s.occ c v code cls owner detail inj := rfl

/-! ### Posting (R391) -/

/-- Posting changes no fault set. -/
@[simp] theorem post_fset (r : EvrRec) (s : State) (b : BlockId) (u : Nat) : (post r s).fset b u = s.fset b u := by
  have h : (post r s).faults = s.faults := (post_only (qs := [.bki, .evr]) r s (Only.refl _ s) (by simp)).same .faults (by simp)
  simp [State.fset, h]

/-- A recorder that runs and is not frozen queues what its block posts, where the queue has one of the places of every class. -/
theorem post_posts {r : EvrRec} {s : State} (hf : s.evr.frozen = false) (hr : s.evr.running = true)
    (hn : (s.evr.posts.filter fun p => p.block == r.block).length < 8) : (post r s).evr.posts = s.evr.posts ++ [r] := by
  have hroom : s.evr.room r = true := by simp [Evr.room, hn]
  simp [post, hf, hr, hroom]

/-! ### A finding of class C (R368) -/

theorem FaultSet.count_persist (x : FaultSet) (f : Finding) : (x.count f).persist = x.persist := by
  simp only [FaultSet.count]
  split_ifs <;> rfl

section
variable {f : Finding} (hc : f.cls = 1)
include hc

/-- A finding of class C brings no block into fault state. -/
theorem Finding.counts_of_classC : f.counts = false := by simp [Finding.counts, hc]

/-- A finding of class C enters no first-error record. -/
theorem Finding.entered_of_classC : f.entered = false := by simp [Finding.entered, hc]

/-- All that a set takes of a finding of class C is its count. -/
theorem FaultSet.take_of_classC (x : FaultSet) (r : FirstErr) (now : Nat) : x.take f r now = x.count f := by
  simp [FaultSet.take, Finding.entered_of_classC hc, Finding.counts_of_classC hc, hc]

theorem FaultSet.count_of_classC (hreal : f.inj = false) (x : FaultSet) :
    x.count f = { x with cntC := satAdd 32 x.cntC 1, int := setBit x.int 1 true, lastClass := 1, lastKind := f.kind } := by
  simp [FaultSet.count, intBit, hc, hreal]

/-- A finding of class C leaves an armed injection alone: only K and F abort it (R381). -/
theorem abortInjection_of_classC (s : State) : abortInjection f s = s := by simp [abortInjection, hc]

/-- A finding of class C is counted in its set and posted, with none of the reactions to K and F. -/
theorem raise_of_classC (s : State) :
    raise f s = post (s.occ f.block f.unit (findingCode f.block f.kind) 1 f.owner
        (faultDetail f (if (s.fset f.block f.unit).persist then 4 else 0)) f.inj)
      (s.setFset f.block f.unit fun x => x.count f) := by
  have hcounts := Finding.counts_of_classC hc
  calc raise f s = finding f s := by simp [raise, hcounts, hc]
    _ = _ := by
      simp [finding, abortInjection_of_classC hc, FaultSet.take_of_classC hc, FaultSet.count_persist,
        Finding.entered_of_classC hc, hcounts, hc, b2n]

end

/-- Settles O10: a class C finding is a count in its set and a post (`raise_of_classC`), and each of the two leaves the rest alone. -/
theorem correctionsAreOnlyCounted : Obligations.CorrectionsAreOnlyCounted := by
  intro f s hc hreal
  rw [raise_of_classC hc s]
  refine ⟨?_, ?_, fun b u hne => ?_, fun hfrozen hrunning hroom => ⟨_, rfl, rfl, rfl, rfl, rfl, post_posts hfrozen hrunning hroom⟩⟩
  · exact post_only _ _ (State.setFset_only s _ _ _ (Only.refl _ s) (by simp)) (by simp)
  · rw [post_fset, State.fset_setFset_same, FaultSet.count_of_classC hc hreal]
  · rw [post_fset, State.fset_setFset_other s _ hne]

end Sys2Proof.Machine
end

section
/-!
PROOFS. Requests and the tag cache (R447, R449): what taking a request and answering it do to a host pair, the verdict in each case
that the tag cache makes, and the obligation O52.
-/
namespace Sys2Proof.Machine
open Sys2Proof

/-! ### The pair of a request -/

@[simp] theorem State.setPair_now (s : State) (x : ReqSrc) (f : Pair → Pair) : (s.setPair x f).now = s.now := by
  cases x <;> rfl

@[simp] theorem State.setPair_persist (s : State) (x : ReqSrc) (f : Pair → Pair) : (s.setPair x f).persist = s.persist := by
  cases x <;> rfl

@[simp] theorem State.setPair_host (s : State) (k : Nat) (f : Pair → Pair) :
    (s.setPair (.host k) f).mbx.pairs.get k {} = f (s.mbx.pairs.get k {}) := by simp [State.setPair]

@[simp] theorem take_now (r : Req) (s : State) : (take r s).now = s.now := State.setPair_now ..

@[simp] theorem take_persist (r : Req) (s : State) : (take r s).persist = s.persist := State.setPair_persist ..

/-- A request is taken only while the firmware runs (R443). -/
theorem fwUp_of_takeable {r : Req} {s : State} (h : takeable r s = true) : s.persist.fwUp = true := by
  simp only [takeable, Bool.and_eq_true] at h
  obtain ⟨⟨⟨⟨-, hup⟩, -⟩, -⟩, -⟩ := h
  exact hup

/-! ### The tag cache -/

/-- Which cached requests are live depends on the instant alone. -/
theorem liveCache_congr (c : List TagRec) {s t : State} (h : s.now = t.now) : liveCache c s = liveCache c t := by
  simp only [liveCache, h]

theorem mem_liveCache {x : TagRec} {c : List TagRec} {s : State} :
    x ∈ liveCache c s ↔ x ∈ c ∧ s.now < x.atNs + 1000000000 := by simp [liveCache]

/-! ### The verdict in each case -/

/-- The response to a request that is not answered from the cache. -/
def Req.reply (r : Req) (opcode : Nat) (st : Status) (result : List Nat := []) : Resp :=
  { opcode := r.other.getD opcode, tag := r.tag, inst := r.effective.inst, gen := r.effective.gen, ind := r.buf.isSome,
    status := st, result := result }

section
variable {r : Req} {cache : List TagRec} {s : State} (opcode : Nat) (sub : Subset) (need : Bool) (f : Req → State → State × Ans)

theorem judge_of_badCrc (hcrc : r.crcOk = false) :
    judge r opcode sub need cache f s = { st := s, resp := r.reply opcode .badCrc } := by simp [judge, hcrc, Req.reply]

variable (hcrc : r.crcOk = true)
include hcrc

theorem judge_of_reusedTag {t : TagRec} (hfind : (liveCache cache s).find? (fun x => x.tag == r.tag) = some t) (hne : t.crc ≠ r.crc) :
    judge r opcode sub need cache f s = { st := s, resp := r.reply opcode .tagReused } := by
  simp [judge, hcrc, hfind, hne, Req.reply]

variable (hnew : (liveCache cache s).find? (fun x => x.tag == r.tag) = none)
  (hpass : precheck opcode r.effective sub need s = none)
include hnew hpass

/-- A request finished in time is answered with what its effect gives, and cached unless it is cut off (R447). -/
theorem judge_of_inTime (hslow : r.slow = false) :
    judge r opcode sub need cache f s =
      { st := (f r.effective s).1, resp := r.reply opcode (f r.effective s).2.status (f r.effective s).2.result,
        keep := decide ((f r.effective s).2.status ≠ .restarted ∧ (f r.effective s).2.status ≠ .timeout) } := by
  simp [judge, hcrc, hnew, hpass, hslow, Req.reply]

/-- A request that is not finished in time is answered TIMEOUT, with its whole effect or with none (R449). -/
theorem judge_of_slow (hslow : r.slow = true) (hacc : (f r.effective s).2.status.isAccepted = false) :
    judge r opcode sub need cache f s =
      { st := (if s.free1 % 2 = 1 then (f r.effective s).1 else s).took, resp := r.reply opcode .timeout } := by
  simp [judge, hcrc, hnew, hpass, hslow, hacc, Req.reply]

end

/-! ### The request served -/

theorem answerReq_of_fwUp (r : Req) {v : Verdict} (h : v.st.persist.fwUp = true) : answerReq r v = respond r v.resp v.keep v.st :=
  if_pos h

theorem serve_unwritten {r : Req} {s : State} (opcode : Nat) (sub : Subset) (need : Bool) (f : Req → State → State × Ans)
    (htake : takeable r s = true) (h : s.written r.src = none) :
    serve r opcode sub need f s = serveAs r opcode sub need f s := by simp [serve, htake, h]

theorem serve_written {r : Req} {s : State} {m : Msg} {opcode : Nat} (sub : Subset) (need : Bool) (f : Req → State → State × Ans)
    (htake : takeable r s = true) (h : s.written r.src = some m) (hop : m.opcode = opcode) :
    serve r opcode sub need f s = serveAs (m.req r s) opcode sub need f s := by simp [serve, htake, h, hop]

/-! ### A request of a host pair -/

section
variable {r : Req} {k : Nat} (hsrc : r.src = .host k)
include hsrc

theorem Req.effective_of_host : r.effective = r := by simp [Req.effective, hsrc]

theorem take_cache_of_host (s : State) : ((take r s).mbx.pairs.get k {}).cache = (s.mbx.pairs.get k {}).cache := by
  simp [take, hsrc]

/-- A host's buffer lies in its own memory: the result written there reaches no pair and takes no time. -/
theorem bufferResult_of_host (v : Resp) (s : State) : ∃ h, bufferResult r v s = s.modMbx fun m => { m with hostMem := h } := by
  unfold bufferResult
  split
  · split
    · exact ⟨_, by rw [hsrc]; rfl⟩
    · exact ⟨s.mbx.hostMem, rfl⟩
  · exact ⟨s.mbx.hostMem, rfl⟩

/-- An answer drops what is older than 1 s from the cache of its pair, and enters it where it is kept (R447). -/
theorem respond_cache_of_host (v : Resp) (keep : Bool) (s : State) :
    ((respond r v keep s).mbx.pairs.get k {}).cache = liveCache (s.mbx.pairs.get k {}).cache s
      ++ if keep then [{ tag := r.tag, crc := r.crc, atNs := s.now, resp := v }] else [] := by
  obtain ⟨h, hbuf⟩ := bufferResult_of_host hsrc v s
  have hnow : (s.modMbx fun m => { m with hostMem := h }).now = s.now := rfl
  cases keep <;> simp [respond, hbuf, hsrc, vector, liveCache_congr _ hnow, hnow]

/-- A request is judged against the cache of its pair once it is taken. -/
theorem serveAs_of_host {opcode : Nat} {sub : Subset} {need : Bool} {f : Req → State → State × Ans} {s : State} {v : Verdict}
    (hv : judge r opcode sub need (s.mbx.pairs.get k {}).cache f (take r s) = v) (hup : v.st.persist.fwUp = true) :
    serveAs r opcode sub need f s = respond r v.resp v.keep v.st := by
  simp [serveAs, hsrc, hv, answerReq_of_fwUp r hup]

/-- An answer to the taken request that is not kept leaves the live requests of the cache. -/
theorem respond_taken_cache_of_host (v : Resp) (s : State) :
    ((respond r v false (take r s)).mbx.pairs.get k {}).cache = liveCache (s.mbx.pairs.get k {}).cache (take r s) := by
  simp [respond_cache_of_host hsrc, take_cache_of_host hsrc]

end

/-- Settles O52: the verdict in each case (`judge_duplicate` and the `judge_of_` lemmas) is answered on the pair
(`serveAs_of_host`), and the answer leaves in the cache what is live and what is kept (`respond_cache_of_host`). -/
theorem retriesAreAnsweredFromTheCache : Obligations.RetriesAreAnsweredFromTheCache := by
  intro r op k sub need f s hsrc htake u cache base
  have hup : u.persist.fwUp = true := by simpa [u] using fwUp_of_takeable htake
  have heff : r.effective = r := Req.effective_of_host hsrc
  have hreply (st : Status) (res : List Nat) : r.reply op st res = { base with status := st, result := res } := by
    simp only [Req.reply, heff, base]
  have unkept {v : Resp} (h : serveAs r op sub need f s = respond r v false u) :
      serveAs r op sub need f s = respond r v false u ∧ ((serveAs r op sub need f s).mbx.pairs.get k {}).cache = cache :=
    ⟨h, by rw [h]; exact respond_taken_cache_of_host hsrc v s⟩
  refine ⟨serve_unwritten op sub need f htake, fun m hm hop => serve_written sub need f htake hm hop,
    fun c => mem_liveCache.trans (by rw [take_now]), fun hcrc => unkept ?badCrc, fun c hcrc hfind heq => unkept ?retry,
    fun c hcrc hfind hne => unkept ?reused, fun hcrc hnew hpass hslow hfw hrest htime => ?acted,
    fun hcrc hnew hpass hslow hfw hacc => ?slow, fun hcrc hnew hpass hslow hfw hcut => ?cutOff⟩
  case badCrc => rw [← hreply]; exact serveAs_of_host hsrc (judge_of_badCrc op sub need f hcrc) hup
  case retry => exact serveAs_of_host hsrc (judge_duplicate op sub need f hcrc hfind heq) hup
  case reused => rw [← hreply]; exact serveAs_of_host hsrc (judge_of_reusedTag op sub need f hcrc hfind hne) hup
  all_goals rw [← heff] at hpass
  case acted =>
    have hv := judge_of_inTime op sub need f hcrc hnew hpass hslow
    rw [heff, hreply, decide_eq_true ⟨hrest, htime⟩] at hv
    have hans := serveAs_of_host hsrc hv hfw
    exact ⟨hans, by rw [hans]; exact respond_cache_of_host hsrc ..⟩
  case slow =>
    have hv := judge_of_slow op sub need f hcrc hnew hpass hslow (by rwa [heff])
    rw [heff, hreply] at hv
    split at hv
    · exact ⟨_, .inr rfl, serveAs_of_host hsrc hv hfw⟩
    · exact ⟨_, .inl rfl, serveAs_of_host hsrc hv hup⟩
  case cutOff =>
    have hv := judge_of_inTime op sub need f hcrc hnew hpass hslow
    rw [heff, hreply, decide_eq_false fun ⟨hr, ht⟩ => hcut.elim hr ht] at hv
    exact serveAs_of_host hsrc hv hfw

end Sys2Proof.Machine
end

section
/-!
PROOFS. What one step is: the command at the front of the queue, or one tick; and the state at reset (O1, O2, O3, O5).
-/
namespace Sys2Proof.Machine
open Sys2Proof

/-- Settles O1: with a command in front the queue is not empty, and its rest is the queue of `s`. -/
theorem stepRunsFrontCommand : Obligations.StepRunsFrontCommand := by
  intro c s
  rfl

/-- Settles O3: every arm of `exec` is a meaning that answers a next state. -/
theorem noCommandStops : Obligations.NoCommandStops := by
  intro c s
  cases c <;> exact ⟨_, rfl⟩

/-! ### An idle step -/

@[simp] theorem Time.ticks_tbStopped (t : Time) (k : Nat) : (t.ticks k).tbStopped = t.tbStopped := by
  unfold Time.ticks Time.setTb
  split
  · split <;> rfl
  · rfl

/-- The counter set from an amount within its 64 bits reads as that amount. -/
theorem Time.tbTotal_setTb (t : Time) {x : Int} (h0 : 0 ≤ x) (h1 : x < 2 ^ 96) : (t.setTb x).tbTotal = x := by
  simp only [Time.setTb, Time.tbTotal]
  omega

/-- One tick with no slew in progress. -/
theorem Time.ticks_one {t : Time} (h : t.tbStopped = false) :
    (t.ticks 1).age = t.age + 2
    ∧ (t.slewRem = 0 → 0 ≤ t.tbTotal + 2 ^ 33 + t.incr → t.tbTotal + 2 ^ 33 + t.incr < 2 ^ 96
        → (t.ticks 1).tbTotal = t.tbTotal + 2 ^ 33 + t.incr) := by
  have hticks : t.ticks 1 = { (t.setTb (t.tbTotal + tbGain 1 t.incr + slewGain 1 t.slewRem)) with
      age := t.age + 2, slewRem := t.slewRem - slewGain 1 t.slewRem
      slewing := t.slewing && decide (t.slewRem - slewGain 1 t.slewRem ≠ 0)
      domA := { t.domA with ofs := t.domA.ofs - slewGain 1 t.slewRem }
      domB := { t.domB with ofs := t.domB.ofs - slewGain 1 t.slewRem } } := by simp [Time.ticks, h]
  rw [hticks]
  refine ⟨rfl, fun hslew h0 h1 => ?_⟩
  have hgain : t.tbTotal + tbGain 1 t.incr + slewGain 1 t.slewRem = t.tbTotal + 2 ^ 33 + t.incr := by
    simp [tbGain, slewGain, hslew, Int.add_assoc]
  rw [hgain]
  exact t.tbTotal_setTb h0 h1

/-- The entry into WINTER that an idle step may complete waits as it did before the tick. -/
theorem winterSettles_tick {s : State} (h : (s.entering && s.framesStopped) = false) :
    winterSettles (s.modTime fun t => t.ticks 1) = s.modTime fun t => t.ticks 1 := by
  have hsame : ((s.modTime fun t => t.ticks 1).entering && (s.modTime fun t => t.ticks 1).framesStopped) = false := by
    simpa [State.entering, State.framesStopped, State.psc] using h
  rw [winterSettles, if_neg (by simpa using hsame)]

/-- Settles O2: an idle step is a tick (`winterSettles_tick`), and a tick advances the two counters (`Time.ticks_one`). -/
theorem idleStepPassesOneTick : Obligations.IdleStepPassesOneTick := by
  intro s hidle hwinter
  refine ⟨s.modTime fun t => t.ticks 1, ?_, State.modTime_only _ (Only.refl _ s) (by simp), fun hrun => Time.ticks_one hrun⟩
  rw [← winterSettles_tick hwinter]
  simp [step, hidle, idle]

/-! ### The state at reset -/

/-- Settles O5: every memory, the queue and the table of fault sets are empty at reset. -/
theorem resetMemoriesCanonical : Obligations.ResetMemoriesCanonical :=
  ⟨⟨rfl, rfl, rfl⟩, rfl, fun _ _ => rfl⟩

end Sys2Proof.Machine
end

section
/-!
PROOFS. Compatibility-mode arbitration (R44, R45): what a list of back-offs does to an arbiter, whom a decision grants, and the
obligation O8.
-/
namespace Sys2Proof.Machine
open Sys2Proof

/-! ### Back-offs -/

/-- The requesters `l` back off in turn. -/
def Arbiter.backOffs (a : Arbiter) (now : Nat) (l : List Nat) : Arbiter := l.foldl (fun a i => a.backOff now i) a

theorem Arbiter.backOffs_cons (a : Arbiter) (now i : Nat) (l : List Nat) :
    a.backOffs now (i :: l) = (a.backOff now i).backOffs now l := rfl

theorem Arbiter.backOff_reserved_subset (a : Arbiter) (now i : Nat) : a.reserved ⊆ (a.backOff now i).reserved := by
  unfold Arbiter.backOff
  dsimp only
  split
  · exact List.subset_append_left ..
  · exact List.Subset.refl _

theorem Arbiter.backOffs_holder (a : Arbiter) (now : Nat) (l : List Nat) :
    (a.backOffs now l).holder = a.holder ∧ (a.backOffs now l).busy = a.busy := by
  induction l generalizing a with
  | nil => exact ⟨rfl, rfl⟩
  | cons i l ih => exact ih (a.backOff now i)

theorem Arbiter.backOffs_reserved_subset (a : Arbiter) (now : Nat) (l : List Nat) : a.reserved ⊆ (a.backOffs now l).reserved := by
  induction l generalizing a with
  | nil => exact List.Subset.refl _
  | cons i l ih => exact List.Subset.trans (a.backOff_reserved_subset now i) (ih _)

/-- Nobody waits whose request has been lowered, and no other request is lowered. -/
theorem Arbiter.backOffs_waiting (a : Arbiter) (now : Nat) (l : List Nat) :
    (a.backOffs now l).waiting = a.waiting.filter fun r => r.idx ∉ l := by
  induction l generalizing a with
  | nil => simp [Arbiter.backOffs]
  | cons i l ih =>
    rw [Arbiter.backOffs_cons, ih]
    simp only [Arbiter.backOff, List.filter_filter]
    congr 1
    ext r
    simp [Bool.and_comm]

/-- Who does not back off keeps its count and its timer, and gets no reservation. -/
theorem Arbiter.backOffs_other (a : Arbiter) (now : Nat) {l : List Nat} {j : Nat} (hj : j ∉ l) :
    (a.backOffs now l).consec.get j 0 = a.consec.get j 0 ∧ (a.backOffs now l).backoffEnd.get j 0 = a.backoffEnd.get j 0
    ∧ (j ∈ (a.backOffs now l).reserved → j ∈ a.reserved) := by
  induction l generalizing a with
  | nil => exact ⟨rfl, rfl, id⟩
  | cons i l ih =>
    obtain ⟨hne, hl⟩ : j ≠ i ∧ j ∉ l := by simpa using hj
    obtain ⟨hcount, htimer, hres⟩ := ih (a.backOff now i) hl
    refine ⟨hcount.trans (Tbl.get_set_other _ _ _ hne), htimer.trans (Tbl.get_set_other _ _ _ hne), fun h => ?_⟩
    have h := hres h
    simp only [Arbiter.backOff] at h
    split at h
    · simpa [hne] using h
    · exact h

/-- Who backs off counts one more, raises its request again after its time, and at the tenth in a row holds a reservation. -/
theorem Arbiter.backOffs_member (a : Arbiter) (now : Nat) {l : List Nat} (hnd : l.Nodup) {j : Nat} (hj : j ∈ l) :
    (a.backOffs now l).consec.get j 0 = a.consec.get j 0 + 1
    ∧ (a.backOffs now l).backoffEnd.get j 0 = now + 8 * 2 ^ min (a.consec.get j 0 + 1) 10
    ∧ (a.consec.get j 0 + 1 = 10 → j ∈ (a.backOffs now l).reserved) := by
  induction l generalizing a with
  | nil => cases hj
  | cons i l ih =>
    obtain ⟨hi, hnd⟩ := List.nodup_cons.mp hnd
    rw [Arbiter.backOffs_cons]
    by_cases h : j = i
    · subst h
      obtain ⟨hcount, htimer, -⟩ := (a.backOff now j).backOffs_other now hi
      refine ⟨hcount.trans (Tbl.get_set_same ..), htimer.trans (Tbl.get_set_same ..), fun hten => ?_⟩
      apply Arbiter.backOffs_reserved_subset
      simp only [Arbiter.backOff, hten]
      by_cases hres : j ∈ a.reserved <;> simp [hres]
    · have hsame : (a.backOff now i).consec.get j 0 = a.consec.get j 0 := Tbl.get_set_other _ _ _ h
      simpa [hsame] using ih (a.backOff now i) hnd ((List.mem_cons.mp hj).resolve_left h)

/-! ### A decision in compatibility mode -/

/-- The requester granted waits, and where a waiting one holds a reservation it is the one with the oldest. -/
theorem Arbiter.winner_compatible {a : Arbiter} {n : Nat} (hm : a.mode = true) (hw : a.waiting ≠ []) (hn : ∀ r ∈ a.waiting, r.idx < n) :
    ∃ w, a.winner n = some w ∧ w ∈ a.waiting.map ArbWait.idx
      ∧ ∀ i, (a.reserved.find? fun i => (a.waiting.map ArbWait.idx).contains i) = some i → w = i := by
  have hc : a.considered.1 = a.waiting.map ArbWait.idx := by simp [Arbiter.considered, hm]
  unfold Arbiter.winner
  simp only [hc, hm, if_true]
  split
  next i hi => exact ⟨i, rfl, by simpa using List.find?_some hi, fun j hj => Option.some.inj (hi.symm.trans hj)⟩
  next hnone =>
    obtain ⟨w, hpick, hchosen⟩ := a.pick_chosen (n := n) (c := a.waiting.map ArbWait.idx) (by simpa using hw) (by simpa using hn)
    exact ⟨w, hpick, hchosen.mem, fun i hi => by rw [hi] at hnone; contradiction⟩

theorem Arbiter.decide1_compatible {a : Arbiter} {n w : Nat} (now beats : Nat) (hm : a.modeTaken.mode = true)
    (hwin : a.modeTaken.winner n = some w) : a.decide1 n now beats
      = (a.modeTaken.grant w beats).backOffs now ((a.waiting.map ArbWait.idx).filter fun i => i ≠ w) := by
  have hc : a.modeTaken.considered = (a.waiting.map ArbWait.idx, a.modeTaken.spent) := by simp [Arbiter.considered, hm]
  simp only [Arbiter.decide1, hwin, hc]
  exact if_pos hm

/-- With no request raised the mode taken is that of the arbiter, and who waits is the same. -/
theorem Arbiter.raised_nil_modeTaken (a : Arbiter) (n : Nat) :
    (a.raised n []).modeTaken = { a.modeTaken with waiting := (a.raised n []).waiting } := by
  unfold Arbiter.modeTaken Arbiter.raised
  dsimp only
  split
  · split <;> rfl
  · rfl

theorem Arbiter.raised_nil_idx (a : Arbiter) (n : Nat) : (a.raised n []).waiting.map ArbWait.idx = a.waiting.map ArbWait.idx := by
  simp [Arbiter.raised, Function.comp_def]

/-- Settles O8: the winner holds the oldest reservation (`winner_compatible`) and the others back off (`backOffs_member`). -/
theorem compatibleArbiterBacksOff : Obligations.CompatibleArbiterBacksOff := by
  intro arb beats s harb hmode hidx hwait hnd
  set a := s.arb arb with ha
  have hraised := a.raised_nil_idx (arbReq arb)
  have hne : (a.raised (arbReq arb) []).waiting ≠ [] := fun h => hwait (by simpa [h] using hraised.symm)
  have hm : (a.raised (arbReq arb) []).modeTaken.mode = true := by simpa using hmode
  have hlt : ∀ r ∈ (a.raised (arbReq arb) []).modeTaken.waiting, r.idx < arbReq arb := by
    intro r hr
    refine a.raised_idx_lt [] hidx r.idx (List.mem_map_of_mem ?_)
    simpa using hr
  obtain ⟨w, hwin, hmem, hres⟩ := Arbiter.winner_compatible hm (by simpa using hne) hlt
  have hdec := Arbiter.decide1_compatible s.now beats hm hwin
  rw [Arbiter.raised_nil_modeTaken] at hmem hres hdec
  rw [hraised] at hmem hres hdec
  set g := Arbiter.grant { a.modeTaken with waiting := (a.raised (arbReq arb) []).waiting } w beats with hg
  set l := (a.waiting.map ArbWait.idx).filter fun i => i ≠ w with hl
  refine ⟨s.setArb arb (g.backOffs s.now l), by simp [exec, execArbiterDecision, harb, ← ha, hdec], ?_⟩
  obtain ⟨hholder, hbusy⟩ := g.backOffs_holder s.now l
  have hwl : w ∉ l := by simp [hl]
  obtain ⟨hcount, -, hreserved⟩ := g.backOffs_other s.now hwl
  simp only [State.arb_setArb_same, Arbiter.modeTaken_waiting]
  refine ⟨State.setArb_only s arb _ (Only.refl _ s) (by simp), fun k hk => s.arb_setArb_other _ hk, hholder ▸ hmem, ?_, hbusy,
    fun i hi => hholder.trans (hres i hi), ?_, ?_, fun i hi hne => ?_⟩
  · rw [Arbiter.backOffs_waiting, List.filter_eq_nil_iff]
    intro r hr
    obtain ⟨hr, hrw⟩ := List.mem_filter.mp hr
    have hmap : r.idx ∈ a.waiting.map ArbWait.idx := hraised ▸ List.mem_map_of_mem hr
    simpa only [decide_eq_true_eq, not_not] using List.mem_filter.mpr ⟨hmap, hrw⟩
  · rw [hholder, show g.holder = w from rfl, hcount]
    simp [hg, Arbiter.grant, Tbl.get_del]
  · rw [hholder, show g.holder = w from rfl]
    intro h
    simpa [hg, Arbiter.grant] using hreserved h
  · rw [hholder, show g.holder = w from rfl] at hne
    have hsame : g.consec.get i 0 = a.modeTaken.consec.get i 0 := by simp [hg, Arbiter.grant, Tbl.get_del, hne]
    have hil : i ∈ l := List.mem_filter.mpr ⟨hi, by simpa using hne⟩
    simpa only [hsame] using g.backOffs_member s.now (hnd.filter _) hil

end Sys2Proof.Machine
end

section
/-!
PROOFS. The byte memories and what manufacture has fixed (`State.core`): how they stand after an update of one part of the state.
-/
namespace Sys2Proof.Machine
open Sys2Proof

/-- The byte memories, and what manufacture has fixed. -/
structure Core where
  /-- the local stores. -/
  ls : Memory
  /-- the DRAM. -/
  dram : Memory
  /-- the host memory. -/
  host : Memory
  /-- the block of MAC addresses. -/
  mac : BitVec 48
  /-- the serial number. -/
  serial : Nat
  /-- the hashes of the image keys. -/
  fuse : List (BitVec 256)

/-- What the state holds of them. -/
def State.core (s : State) : Core :=
  { ls := s.insts.lsMem, dram := s.insts.dramMem, host := s.mbx.hostMem, mac := s.mbx.macBase, serial := s.mbx.serial, fuse := s.ksu.fuseKeys }

/-- The memories stand in their canonical form. -/
def Core.ok (a : Core) : Prop := a.ls.wf = true ∧ a.dram.wf = true ∧ a.host.wf = true

/-- From `a` to `b` canonical memories stay canonical, and what manufacture has fixed is the same. -/
structure Core.Keeps (a b : Core) : Prop where
  /-- the memories stay canonical. -/
  ok : a.ok → b.ok
  /-- the MAC addresses are the same. -/
  mac : b.mac = a.mac
  /-- the serial number is the same. -/
  serial : b.serial = a.serial
  /-- the hashes are the same. -/
  fuse : b.fuse = a.fuse

@[simp] theorem Core.Keeps.refl (a : Core) : a.Keeps a := ⟨id, rfl, rfl, rfl⟩

theorem Core.Keeps.trans {a b c : Core} (h : a.Keeps b) (k : b.Keeps c) : a.Keeps c :=
  ⟨k.ok ∘ h.ok, k.mac.trans h.mac, k.serial.trans h.serial, k.fuse.trans h.fuse⟩

/-! ### Updates that leave them -/

/-- What leaves instances, key store and mailbox alone. -/
theorem core_of_only {ps : List Part} {s t : State} (k : Only ps s t) (hp : Part.insts ∉ ps ∧ Part.ksu ∉ ps ∧ Part.mbx ∉ ps) : t.core = s.core := by
  obtain ⟨hinsts, hksu, hmbx⟩ := hp
  have ei : t.insts = s.insts := k.same _ hinsts
  have ek : t.ksu = s.ksu := k.same _ hksu
  have em : t.mbx = s.mbx := k.same _ hmbx
  rw [State.core, State.core, ei, ek, em]

@[simp] theorem core_ite {a b : State} (c : Prop) [Decidable c] : (if c then a else b).core = if c then a.core else b.core :=
  apply_ite State.core c a b

@[simp] theorem core_ite_fst {α : Type} {a b : State × α} (c : Prop) [Decidable c] : (if c then a else b).1.core = if c then a.1.core else b.1.core :=
  apply_ite (fun p => p.1.core) c a b

@[simp] theorem core_ite_snd {α : Type} {a b : α × State} (c : Prop) [Decidable c] : (if c then a else b).2.core = if c then a.2.core else b.2.core :=
  apply_ite (fun p => p.2.core) c a b

@[simp] theorem foldl_core {α : Type} (l : List α) (f : State → α → State) (k : ∀ t a, (f t a).core = t.core) (s : State) :
    (l.foldl f s).core = s.core := by
  induction l generalizing s with
  | nil => rfl
  | cons a l ih => rw [List.foldl_cons, ih, k]

@[simp] theorem State.modInsts_core (s : State) (f : Insts → Insts) (hl : ∀ n, (f n).lsMem = n.lsMem) (hd : ∀ n, (f n).dramMem = n.dramMem) :
    (s.modInsts f).core = s.core := by simp [State.core, hl, hd]

@[simp] theorem State.modMbx_core (s : State) (f : Mbx → Mbx) (hm : ∀ m, (f m).hostMem = m.hostMem) (ha : ∀ m, (f m).macBase = m.macBase)
    (hs : ∀ m, (f m).serial = m.serial) : (s.modMbx f).core = s.core := by simp [State.core, hm, ha, hs]

@[simp] theorem State.modKsu_core (s : State) (f : Ksu → Ksu) (hf : ∀ k, (f k).fuseKeys = k.fuseKeys) : (s.modKsu f).core = s.core := by
  simp [State.core, hf]

@[simp] theorem State.modFab_core (s : State) (f) : (s.modFab f).core = s.core := by simp [State.core]
@[simp] theorem State.modPorts_core (s : State) (f) : (s.modPorts f).core = s.core := by simp [State.core]
@[simp] theorem State.modHead_core (s : State) (f) : (s.modHead f).core = s.core := by simp [State.core]
@[simp] theorem State.modWake_core (s : State) (f) : (s.modWake f).core = s.core := by simp [State.core]
@[simp] theorem State.modSw_core (s : State) (f) : (s.modSw f).core = s.core := by simp [State.core]
@[simp] theorem State.modSce_core (s : State) (f) : (s.modSce f).core = s.core := by simp [State.core]
@[simp] theorem State.modSched_core (s : State) (f) : (s.modSched f).core = s.core := by simp [State.core]
@[simp] theorem State.modEg_core (s : State) (f) : (s.modEg f).core = s.core := by simp [State.core]
@[simp] theorem State.modCgu_core (s : State) (f) : (s.modCgu f).core = s.core := by simp [State.core]
@[simp] theorem State.modOcu_core (s : State) (f) : (s.modOcu f).core = s.core := by simp [State.core]
@[simp] theorem State.modMlk_core (s : State) (f) : (s.modMlk f).core = s.core := by simp [State.core]
@[simp] theorem State.modTime_core (s : State) (f) : (s.modTime f).core = s.core := by simp [State.core]
@[simp] theorem State.modAcq_core (s : State) (f) : (s.modAcq f).core = s.core := by simp [State.core]
@[simp] theorem State.modBki_core (s : State) (f) : (s.modBki f).core = s.core := by simp [State.core]
@[simp] theorem State.modSeason_core (s : State) (f) : (s.modSeason f).core = s.core := by simp [State.core]
@[simp] theorem State.modFaults_core (s : State) (f) : (s.modFaults f).core = s.core := by simp [State.core]
@[simp] theorem State.modEvr_core (s : State) (f) : (s.modEvr f).core = s.core := by simp [State.core]
@[simp] theorem State.modPersist_core (s : State) (f) : (s.modPersist f).core = s.core := by simp [State.core]
@[simp] theorem State.modPower_core (s : State) (f) : (s.modPower f).core = s.core := by simp [State.core]
@[simp] theorem State.modMon_core (s : State) (f) : (s.modMon f).core = s.core := by simp [State.core]
@[simp] theorem with_free_core (s : State) (n) : State.core { s with free := n } = s.core := by simp [State.core]
@[simp] theorem with_pending_core (s : State) (n) : State.core { s with pending := n } = s.core := by simp [State.core]

/-! ### Updates that keep them -/

@[simp] theorem keeps_ite {a b c : Core} (p : Prop) [Decidable p] : a.Keeps (if p then b else c) ↔ (p → a.Keeps b) ∧ (¬ p → a.Keeps c) := by
  split <;> simp [*]

@[simp] theorem foldl_keeps {α : Type} {a : Core} {s : State} (l : List α) (f : State → α → State) (h : a.Keeps s.core) (k : ∀ (t : State)
    (x : α), t.core.Keeps (f t x).core) : a.Keeps (l.foldl f s).core := by
  induction l generalizing s with
  | nil => exact h
  | cons x l ih => exact ih (h.trans (k s x))

theorem State.modInsts_keeps {a : Core} {s : State} (f : Insts → Insts) (h : a.Keeps s.core) (hl : s.insts.lsMem.wf = true →
    (f s.insts).lsMem.wf = true) (hd : s.insts.dramMem.wf = true → (f s.insts).dramMem.wf = true) : a.Keeps (s.modInsts f).core :=
  h.trans ⟨fun ⟨l, d, m⟩ => ⟨hl l, hd d, m⟩, rfl, rfl, rfl⟩

theorem State.modMbx_keeps {a : Core} {s : State} (f : Mbx → Mbx) (h : a.Keeps s.core) (hm : s.mbx.hostMem.wf = true →
    (f s.mbx).hostMem.wf = true) (ha : (f s.mbx).macBase = s.mbx.macBase) (hs : (f s.mbx).serial = s.mbx.serial) : a.Keeps (s.modMbx f).core :=
  h.trans ⟨fun ⟨l, d, m⟩ => ⟨l, d, hm m⟩, ha, hs, rfl⟩

/-- Where an outcome is a next state, that state keeps them. -/
structure KeepsOut (s : State) (o : Host.Outcome State Fault Refusal) : Prop where
  /-- the next state keeps them. -/
  next : ∀ t, o = .next t → s.core.Keeps t.core

@[simp] theorem keepsOut_next (s t : State) : KeepsOut s (.next t) ↔ s.core.Keeps t.core :=
  ⟨fun h => h.next t rfl, fun h => ⟨fun u e => by cases e; exact h⟩⟩

end Sys2Proof.Machine
end

section
/-!
PROOFS. Operations that leave the byte memories and what manufacture has fixed as they are (`State.core`), in the order of the
definitions, and the commands that are made of such operations alone.
-/
namespace Sys2Proof.Machine
open Sys2Proof

@[simp] theorem State.until_core (s : State) (d : Nat) : (State.until s d).core = s.core := core_of_only (ps := [.time]) (by simp) (by decide)
@[simp] theorem whenDue_core (d : Nat) (f : State → State) (s : State) (hf : ∀ t, (f t).core = t.core) : (whenDue d f s).core = s.core := by
  have h : (s.until d).core = s.core := core_of_only (ps := [.time]) (by simp) (by decide)
  simp [whenDue, hf, h]
@[simp] theorem whenTb_core (n : Nat) (f : State → State) (s : State) (hf : ∀ t, (f t).core = t.core) : (whenTb n f s).core = s.core := by
  have h : (s.untilTb n).core = s.core := core_of_only (ps := [.time]) (by simp) (by decide)
  simp [whenTb, hf, h]
@[simp] theorem State.took_core (s : State) : (State.took s).core = s.core := core_of_only (ps := [.free]) (by simp) (by decide)
@[simp] theorem State.setPort_core (s : State) (k : Nat) (f : Port → Port) : (State.setPort s k f).core = s.core :=
  core_of_only (ps := [.ports]) (by simp) (by decide)
@[simp] theorem swCount_core (i : Nat) (s : State) (n : Nat) : (swCount i s n).core = s.core := core_of_only (ps := [.sw]) (by simp) (by decide)
@[simp] theorem State.setInst_core (s : State) (i : Nat) (f : Inst → Inst) : (State.setInst s i f).core = s.core := by simp [State.setInst]
@[simp] theorem State.setFset_core (s : State) (b : BlockId) (u : Nat) (f : FaultSet → FaultSet) : (State.setFset s b u f).core = s.core :=
  core_of_only (ps := [.faults]) (by simp) (by decide)
@[simp] theorem lateFor_core (i : Nat) (s : State) : (lateFor i s).core = s.core := by simp [lateFor]
@[simp] theorem lateAt_core (b : BlockId) (u i : Nat) (s : State) : (lateAt b u i s).core = s.core := by simp [lateAt]
@[simp] theorem post_core (r : EvrRec) (s : State) : (post r s).core = s.core := core_of_only (ps := [.bki, .evr]) (by simp) (by decide)
@[simp] theorem note_core (b : BlockId) (u code cls : Nat) (owner : Master) (detail : List Byte) (s : State) :
    (note b u code cls owner detail s).core = s.core := core_of_only (ps := [.bki, .evr]) (by simp) (by decide)
@[simp] theorem vector_core (v : Nat) (s : State) : (vector v s).core = s.core := by simp [vector]
@[simp] theorem Mbx.putEvent_hostMem (m : Mbx) (r : Resp) : (m.putEvent r).hostMem = m.hostMem := rfl
@[simp] theorem Mbx.putEvent_macBase (m : Mbx) (r : Resp) : (m.putEvent r).macBase = m.macBase := rfl
@[simp] theorem Mbx.putEvent_serial (m : Mbx) (r : Resp) : (m.putEvent r).serial = m.serial := rfl
@[simp] theorem Mbx.flushLost_hostMem (m : Mbx) : m.flushLost.hostMem = m.hostMem := by unfold Mbx.flushLost; split <;> rfl
@[simp] theorem Mbx.flushLost_macBase (m : Mbx) : m.flushLost.macBase = m.macBase := by unfold Mbx.flushLost; split <;> rfl
@[simp] theorem Mbx.flushLost_serial (m : Mbx) : m.flushLost.serial = m.serial := by unfold Mbx.flushLost; split <;> rfl
@[simp] theorem tellLost_core (s : State) : (tellLost s).core = s.core := by simp [tellLost]
@[simp] theorem emit_core (opcode : Nat) (inst : Option Nat) (gen : Nat) (vals : List Nat) (s : State) (tag : Nat) (st : Status) :
    (emit opcode inst gen vals s tag st).core = s.core := by
  unfold emit
  dsimp only
  split
  · split <;> simp [apply_ite Mbx.hostMem, apply_ite Mbx.macBase, apply_ite Mbx.serial]
  · rfl
@[simp] theorem emitInst_core (i : Nat) (exhausted : Bool) (s : State) : (emitInst i exhausted s).core = s.core := by simp [emitInst]
@[simp] theorem startLong_core (r : Req) (opcode arg : Nat) (s : State) : (startLong r opcode arg s).core = s.core := by
  unfold startLong
  split <;> simp
@[simp] theorem monPrint_core (name : Nat) (vals : List Nat) (s : State) : (monPrint name vals s).core = s.core := by simp [monPrint]
@[simp] theorem opDone_core (h : Nat) (st : Status) (vals : List Nat) (s : State) : (opDone h st vals s).core = s.core := by
  unfold opDone
  split <;> simp
@[simp] theorem opDone?_core (h : Option Nat) (st : Status) (vals : List Nat) (s : State) : (opDone? h st vals s).core = s.core := by
  unfold opDone?
  split <;> simp
@[simp] theorem State.setPair_core (s : State) (src : ReqSrc) (f : Pair → Pair) : (State.setPair s src f).core = s.core := by
  unfold State.setPair
  split <;> simp
@[simp] theorem configChanged_core (s : State) : (configChanged s).core = s.core := core_of_only (ps := [.persist]) (by simp) (by decide)
@[simp] theorem refuse_core (st : Status) (s : State) : (refuse st s).1.core = s.core := core_of_only (ps := []) (by simp) (by decide)
@[simp] theorem okRes_core (vals : List Nat) (s : State) : (okRes vals s).1.core = s.core := core_of_only (ps := []) (by simp) (by decide)
@[simp] theorem holdGuard_core (f : State → State × Ans) (s : State) (hf : ∀  t, (f  t).1.core = t.core) : (holdGuard f s).1.core = s.core := by
  simp [holdGuard, hf]
@[simp] theorem persistEnds_core (b : BlockId) (u : Nat) (s : State) : (persistEnds b u s).core = s.core :=
  core_of_only (ps := [.faults]) (by simp) (by decide)
@[simp] theorem readDone_core (b : BlockId) (u : Nat) (s : State) : (readDone b u s).core = s.core :=
  core_of_only (ps := [.faults]) (by simp) (by decide)
@[simp] theorem State.setAcqS_core (s : State) (n : Nat) (f : AcqStream → AcqStream) : (State.setAcqS s n f).core = s.core :=
  core_of_only (ps := [.acq]) (by simp) (by decide)
@[simp] theorem acqCount_core (i : Nat) (s : State) (n : Nat) : (acqCount i s n).core = s.core := core_of_only (ps := [.acq]) (by simp) (by decide)
@[simp] theorem acqClose_core (n : Nat) (s : State) : (acqClose n s).core = s.core := core_of_only (ps := [.acq]) (by simp) (by decide)
@[simp] theorem acqLost_core (p : AcqSrc → Bool) (s : State) : (acqLost p s).core = s.core :=
  core_of_only (ps := [.sw, .acq, .bki, .evr]) (by simp) (by decide)
@[simp] theorem acqPass_core (x : AcqSet) (s : State) : (acqPass x s).core = s.core :=
  core_of_only (ps := [.sw, .acq, .bki, .evr]) (by simp) (by decide)
@[simp] theorem acqTriggerOn_core (t : AcqTrig) (n : Nat) (s : State) : (acqTriggerOn t n s).core = s.core :=
  core_of_only (ps := [.acq]) (by simp) (by decide)
@[simp] theorem acqTrigger_core (t : AcqTrig) (concerns : AcqStream → Bool) (s : State) : (acqTrigger t concerns s).core = s.core :=
  core_of_only (ps := [.acq]) (by simp) (by decide)
@[simp] theorem acqTake_core (n k : Nat) (a : AcqArrival) (s : State) : (acqTake n k a s).core = s.core :=
  core_of_only (ps := [.acq, .bki, .evr]) (by simp) (by decide)
@[simp] theorem acqSources_core (p : AcqSrc → Bool) (act : Nat → Nat → AcqSrc → State → State) (s : State) (hact : ∀ a0 a1 a2 t,
    (act a0 a1 a2 t).core = t.core) : (acqSources p act s).core = s.core := by simp [acqSources, hact]
@[simp] theorem acqStale_core (group preset rate : Nat) (s : State) : (acqStale group preset rate s).core = s.core :=
  core_of_only (ps := [.acq, .bki, .evr]) (by simp) (by decide)
@[simp] theorem State.setPsc_core (s : State) (k : Nat) (f : Psc → Psc) : (State.setPsc s k f).core = s.core :=
  core_of_only (ps := [.sched]) (by simp) (by decide)
@[simp] theorem refreshOver_core (i : Nat) (s : State) : (refreshOver i s).core = s.core := by simp [refreshOver]
@[simp] theorem refreshAllOver_core (s : State) : (refreshAllOver s).core = s.core := by simp [refreshAllOver]
@[simp] theorem State.setStream_core (s : State) (idx : Nat) (f : StreamEntry → StreamEntry) : (State.setStream s idx f).core = s.core :=
  core_of_only (ps := [.sw]) (by simp) (by decide)
@[simp] theorem State.setFwd_core (s : State) (idx : Nat) (f : FwdEntry → FwdEntry) : (State.setFwd s idx f).core = s.core :=
  core_of_only (ps := [.sw]) (by simp) (by decide)
@[simp] theorem portCount_core (k i : Nat) (s : State) (n : Nat) : (portCount k i s n).core = s.core :=
  core_of_only (ps := [.ports]) (by simp) (by decide)
@[simp] theorem entryHold_core (idx n : Nat) (s : State) : (entryHold idx n s).core = s.core := core_of_only (ps := [.sw]) (by simp) (by decide)
@[simp] theorem entryDone_core (idx gen : Nat) (s : State) : (entryDone idx gen s).core = s.core := core_of_only (ps := [.sw]) (by simp) (by decide)
@[simp] theorem freeFrame_core (n : Nat) (f : Stored) (s : State) : (freeFrame n f s).core = s.core := by
  unfold freeFrame
  split <;> simp
@[simp] theorem copyDone_core (n entry gen : Nat) (nonPort : Bool) (s : State) : (copyDone n entry gen nonPort s).core = s.core := by simp [copyDone]
@[simp] theorem unsent_core (c : TxCopy) (s : State) : (unsent c s).core = s.core := core_of_only (ps := [.time]) (by simp) (by decide)
@[simp] theorem txDone_core (c : TxCopy) (s : State) : (txDone c s).core = s.core := by simp [txDone]
@[simp] theorem txDrop_core (k counter : Nat) (c : TxCopy) (s : State) : (txDrop k counter c s).core = s.core := by simp [txDrop]
@[simp] theorem enqueue_core (k : Nat) (c : TxCopy) (s : State) : (enqueue k c s).core = s.core := by simp [enqueue]
@[simp] theorem nodeSeen_core (f : Stored) (s : State) : (nodeSeen f s).core = s.core := core_of_only (ps := [.sw]) (by simp) (by decide)
@[simp] theorem deliver_core (n entry gen : Nat) (d : Dest) (s : State) : (deliver n entry gen d s).core = s.core := by
  unfold deliver
  split <;> simp
@[simp] theorem evict_core (n : Nat) (f : Stored) (s : State) : (evict n f s).core = s.core := by simp [evict]
@[simp] theorem makeRoom_core (c cells n : Nat) (s : State) : (makeRoom c cells n s).core = s.core := by
  induction n generalizing s with
  | zero => rfl
  | succ n ih =>
    unfold makeRoom
    split
    · rfl
    · split
      · rfl
      · simp [ih]
@[simp] theorem storeFrame_core (f : Stored) (entry gen : Nat) (ds : List Dest) (s : State) : (storeFrame f entry gen ds s).core = s.core := by
  unfold storeFrame
  split
  · rfl
  · dsimp only
    split
    · rw [swCount_core, foldl_core _ _ (fun t d => ?_), makeRoom_core]
      split <;> simp
    · simp
@[simp] theorem redPorts_core (mask : List Nat) (s : State) : (redPorts mask s).2.core = s.core := core_of_only (ps := [.sw]) (by simp) (by decide)
@[simp] theorem mgpSend_core (octets : List Byte) (pcp vid : Nat) (ports : List Nat) (s : State) :
    (mgpSend octets pcp vid ports s).core = s.core := by simp [mgpSend]
@[simp] theorem flushQueues_core (k counter : Nat) (s : State) : (flushQueues k counter s).core = s.core := by simp [flushQueues]
@[simp] theorem abandon_core (k : Nat) (s : State) : (abandon k s).core = s.core := by
  unfold abandon
  split <;> simp
@[simp] theorem pauseSettle_core (k : Nat) (s : State) : (pauseSettle k s).core = s.core := core_of_only (ps := [.ports]) (by simp) (by decide)
@[simp] theorem countPause_core (k : Nat) (s : State) : (countPause k s).core = s.core := core_of_only (ps := [.ports]) (by simp) (by decide)
@[simp] theorem linkEvent_core (k what : Nat) (s : State) : (linkEvent k what s).core = s.core := by simp [linkEvent]
@[simp] theorem portDown_core (k : Nat) (s : State) : (portDown k s).core = s.core := by simp [portDown]
@[simp] theorem coilOff_core (s : State) : (coilOff s).core = s.core := by simp [coilOff]
@[simp] theorem coilCheck_core (s : State) : (coilCheck s).core = s.core := by simp [coilCheck]
@[simp] theorem railBad_core (r : Rail) (s : State) : (railBad r s).core = s.core := core_of_only (ps := [.power]) (by simp) (by decide)
@[simp] theorem told_core (s t : State) : (told s t).core = t.core := by simp [told]
@[simp] theorem setRole_core (r : Role) (s : State) : (setRole r s).core = s.core := by simp [setRole]
@[simp] theorem winFalls_core (s : State) : (winFalls s).core = s.core := core_of_only (ps := [.cgu]) (by simp) (by decide)
@[simp] theorem cguCount_core (i : Nat) (s : State) : (cguCount i s).core = s.core := core_of_only (ps := [.cgu]) (by simp) (by decide)
@[simp] theorem ocuCount_core (i : Nat) (s : State) : (ocuCount i s).core = s.core := core_of_only (ps := [.ocu]) (by simp) (by decide)
@[simp] theorem mlkCount_core (i : Nat) (s : State) : (mlkCount i s).core = s.core := core_of_only (ps := [.mlk]) (by simp) (by decide)
@[simp] theorem countMissed_core (s : State) : (countMissed s).core = s.core := core_of_only (ps := [.mlk]) (by simp) (by decide)
@[simp] theorem bkiCount_core (i : Nat) (s : State) (n : Nat) : (bkiCount i s n).core = s.core := core_of_only (ps := [.bki]) (by simp) (by decide)
@[simp] theorem heldAside_core (n : Nat) (up : Bool) (s : State) : (heldAside n up s).core = s.core :=
  core_of_only (ps := [.sw]) (by simp) (by decide)
@[simp] theorem gateOne_core (g : GateFrame) (s : State) : (gateOne g s).core = s.core := by simp [gateOne, gateDrop, gateRelease]
@[simp] theorem reexamine_core (s : State) : (reexamine s).core = s.core := by simp [reexamine]
@[simp] theorem becomeOut_core (hard : Bool) (s : State) : (becomeOut hard s).core = s.core := by simp [becomeOut]
@[simp] theorem switchRecord_core (reason : Nat) (s : State) : (switchRecord reason s).core = s.core :=
  core_of_only (ps := [.bki, .evr]) (by simp) (by decide)
@[simp] theorem endSwitch_core (st : Status) (s : State) : (endSwitch st s).core = s.core := by
  unfold endSwitch
  split <;> simp
@[simp] theorem startTakeover_core (s : State) : (startTakeover s).core = s.core := by simp [startTakeover]
@[simp] theorem recordDecision_core (row : Nat) (against : Option Bool) (k : CmpKey) (s : State) :
    (recordDecision row against k s).core = s.core := by
  unfold recordDecision
  split <;> simp
@[simp] theorem actDecision_core (row : Nat) (own : Bool) (s : State) : (actDecision row own s).core = s.core := by simp [actDecision]
@[simp] theorem refereeF_core (s : State) : (refereeF s).core = s.core := by simp [refereeF]
@[simp] theorem captureAll_core (latch : Bool) (s : State) : (captureAll latch s).core = s.core :=
  core_of_only (ps := [.faults]) (by simp) (by decide)
@[simp] theorem mgpRestart_core (s : State) : (mgpRestart s).core = s.core := by simp [mgpRestart, breakMgpLocks, mgpDown]
@[simp] theorem conditionEnds_core (b : BlockId) (u : Nat) (s : State) : (conditionEnds b u s).core = s.core :=
  core_of_only (ps := [.faults]) (by simp) (by decide)
@[simp] theorem retry_core (b : BlockId) (u : Nat) (s : State) : (retry b u s).core = s.core :=
  core_of_only (ps := [.ports, .head, .mlk]) (by simp) (by decide)
@[simp] theorem leaveFault_core (b : BlockId) (u : Nat) (s : State) : (leaveFault b u s).core = s.core := by simp [leaveFault]
@[simp] theorem leaveDue_core (b : BlockId) (u : Nat) (s : State) : (leaveDue b u s).core = s.core := by simp [leaveDue]
@[simp] theorem raise_core (f : Finding) (s : State) : (raise f s).core = s.core := by
  simp [raise, abortInjection, finding, releaseClaim, mgpLoss, bkiHold]
@[simp] theorem raiseRead_core (b : BlockId) (u cls access addr : Nat) (owner : Master) (r : ReadFound) (s : State) (src : Option (BlockId × Nat)) :
    (raiseRead b u cls access addr owner r s src).core = s.core := by
  unfold raiseRead
  split <;> simp
@[simp] theorem markDirty_core (i a n : Nat) (s : State) : (markDirty i a n s).core = s.core := core_of_only (ps := [.mlk]) (by simp) (by decide)
@[simp] theorem dramOwn_core (gs : List Nat) (tag : Nat) (s : State) : (dramOwn gs tag s).core = s.core := by simp [dramOwn]
@[simp] theorem lsOwn_core (gs : List Nat) (tag : Nat) (s : State) : (lsOwn gs tag s).core = s.core := by simp [lsOwn]
@[simp] theorem dramGive_core (gs : List Nat) (s : State) : (dramGive gs s).core = s.core := by simp [dramGive]
@[simp] theorem lsGive_core (gs : List Nat) (s : State) : (lsGive gs s).core = s.core := by simp [lsGive]
@[simp] theorem breakLocks_core (p : Lock → Bool) (s : State) : (breakLocks p s).core = s.core := by simp [breakLocks]
@[simp] theorem stopCores_core (i : Nat) (s : State) : (stopCores i s).core = s.core := core_of_only (ps := [.sched]) (by simp) (by decide)
@[simp] theorem clearTrips_core (i : Nat) (s : State) : (clearTrips i s).core = s.core := core_of_only (ps := [.cgu]) (by simp) (by decide)
@[simp] theorem halt_core (i cause : Nat) (s : State) : (halt i cause s).core = s.core := by simp [halt]
@[simp] theorem spoofed_core (i g check : Nat) (s : State) : (spoofed i g check s).core = s.core := by simp [spoofed]
@[simp] theorem storeCharged_core (inst : Option (Nat × Nat)) (f : Stored) (ds : List Dest) (s : State) :
    (storeCharged inst f ds s).core = s.core := by
  unfold storeCharged
  split <;> simp
@[simp] theorem acqDrain_core (n fuel : Nat) (s : State) : (acqDrain n fuel s).core = s.core := by
  induction fuel generalizing s with
  | zero => rfl
  | succ fuel ih =>
    unfold acqDrain
    dsimp only
    split
    · rfl
    · split
      · rfl
      · simp [ih]
@[simp] theorem acqSet_core (x : AcqSet) (s : State) : (acqSet x s).core = s.core := core_of_only (ps := [.acq, .bki, .evr]) (by simp) (by decide)
@[simp] theorem acqCopy_core (v : Deliver) (s : State) : (acqCopy v s).core = s.core := by
  unfold acqCopy
  rw [copyDone_core]
  split
  · simp
  · split
    · rfl
    · refine acqSources_core _ _ _ fun n k y t => foldl_core _ _ (fun t a => ?_) t
      split <;> simp
theorem execAcqSample_keeps (s : State) : KeepsOut s (execAcqSample s) := by
  simp only [execAcqSample, keepsOut_next]
  repeat' split
  all_goals simp
theorem execAcqFlush_keeps (stream : Nat) (s : State) : KeepsOut s (execAcqFlush stream s) := by
  unfold execAcqFlush
  split <;> simp
@[simp] theorem acqRelease_core (n : Nat) (s : State) : (acqRelease n s).core = s.core := by simp [acqRelease]
theorem execAcqDrained_keeps (stream : Nat) (s : State) : KeepsOut s (execAcqDrained stream s) := by simp [execAcqDrained]
theorem execTrigInEdge_keeps (level : Bool) (heldUs : Nat) (s : State) : KeepsOut s (execTrigInEdge level heldUs s) := by simp [execTrigInEdge]
@[simp] theorem State.setGroup_core (s : State) (g : Nat) (f : Group → Group) : (State.setGroup s g f).core = s.core :=
  core_of_only (ps := [.sce]) (by simp) (by decide)
@[simp] theorem State.setCtx_core (s : State) (n : Nat) (f : Ctx → Ctx) : (State.setCtx s n f).core = s.core :=
  core_of_only (ps := [.sce]) (by simp) (by decide)
@[simp] theorem sceCount_core (i : Nat) (s : State) (n : Nat) : (sceCount i s n).core = s.core := core_of_only (ps := [.sce]) (by simp) (by decide)
@[simp] theorem dropStale_core (g : Nat) (s : State) : (dropStale g s).core = s.core := core_of_only (ps := [.sce]) (by simp) (by decide)
@[simp] theorem applyPreset_core (gn : Nat) (settle : Bool) (s : State) : (applyPreset gn settle s).core = s.core :=
  core_of_only (ps := [.sce, .free]) (by simp) (by decide)
@[simp] theorem groupRefill_core (gn : Nat) (s : State) : (groupRefill gn s).core = s.core := core_of_only (ps := [.sce, .free]) (by simp) (by decide)
@[simp] theorem groupRestore_core (gn : Nat) (s : State) : (groupRestore gn s).core = s.core := core_of_only (ps := [.sce]) (by simp) (by decide)
@[simp] theorem learnClose_core (key : BitVec 128) (s : State) : (learnClose key s).core = s.core := core_of_only (ps := [.sw]) (by simp) (by decide)
@[simp] theorem commitDone_core (s : State) : (commitDone s).core = s.core := by simp [commitDone]
@[simp] theorem applyOldest_core (s : State) : (applyOldest s).core = s.core := by
  unfold applyOldest
  split
  · rfl
  · split
    · rename_i e
      have h := core_of_only (applyChange_only _ _ (Only.refl [.sw] _) (by simp) _ e) (by decide)
      simp [h]
    · rfl
@[simp] theorem commitNow_core (cs : List StbChange) (s : State) : (commitNow cs s).core = s.core := by simp [commitNow]
@[simp] theorem sourceLearn_core (k mac vid : Nat) (s : State) : (sourceLearn k mac vid s).core = s.core :=
  core_of_only (ps := [.sw]) (by simp) (by decide)
@[simp] theorem learnFrame_core (k : Nat) (key : BitVec 128) (f : Stored) (s : State) : (learnFrame k key f s).core = s.core :=
  core_of_only (ps := [.sw]) (by simp) (by decide)
@[simp] theorem lapse_core (i : Nat) (s : State) : (lapse i s).core = s.core := by simp [lapse]
@[simp] theorem eraseSlot_core (n : Nat) (s : State) : (eraseSlot n s).core = s.core := by simp [eraseSlot]
@[simp] theorem rebindSlots_core (i g : Nat) (s : State) : (rebindSlots i g s).core = s.core := by simp [rebindSlots]
@[simp] theorem discardTrigs_core (i : Nat) (s : State) : (discardTrigs i s).core = s.core := core_of_only (ps := [.acq]) (by simp) (by decide)
@[simp] theorem disableCmps_core (i : Nat) (s : State) : (disableCmps i s).core = s.core := core_of_only (ps := [.time]) (by simp) (by decide)
@[simp] theorem mirrorReset_core (i : Nat) (s : State) : (mirrorReset i s).core = s.core := core_of_only (ps := [.mlk]) (by simp) (by decide)
@[simp] theorem freshHarts_core (i : Nat) (s : State) : (freshHarts i s).core = s.core := core_of_only (ps := [.sched]) (by simp) (by decide)
@[simp] theorem mapSubs_core (f : Subscr → Subscr) (s : State) : (mapSubs f s).core = s.core := core_of_only (ps := [.sce]) (by simp) (by decide)
@[simp] theorem mapShares_core (i : Nat) (s : State) : (mapShares i s).core = s.core := by simp [mapShares]
@[simp] theorem putStatic_core (mac vid type target : Nat) (ports : BitVec 8) (s : State) :
    (putStatic mac vid type target ports s).core = s.core := by
  unfold putStatic
  split <;> simp
@[simp] theorem State.setLock_core (s : State) (n : Nat) (l : Lock) : (State.setLock s n l).core = s.core := by simp [State.setLock]
@[simp] theorem lockTry_core (who : Master) (core j : Nat) (s : State) : (lockTry who core j s).2.core = s.core := by
  simp only [lockTry]
  repeat' split
  all_goals simp
@[simp] theorem badRelease_core (who : Master) (n : Nat) (s : State) : (badRelease who n s).core = s.core := by simp [badRelease]
@[simp] theorem lockRelease_core (who : Master) (j : Nat) (value : BitVec 32) (s : State) : (lockRelease who j value s).core = s.core := by
  simp only [lockRelease]
  repeat' split
  all_goals simp
@[simp] theorem writeAssign_core (n : Nat) (en mgpOk : Bool) (owner index : Nat) (s : State) :
    (writeAssign n en mgpOk owner index s).core = s.core := by
  unfold writeAssign
  split <;> simp
@[simp] theorem egressDoorbell_core (i g q tail : Nat) (s : State) : (egressDoorbell i g q tail s).core = s.core := by
  simp only [egressDoorbell]
  repeat' split
  all_goals simp
@[simp] theorem instTail_core (i g tail : Nat) (s : State) : (instTail i g tail s).core = s.core := by simp [instTail]
@[simp] theorem ctrlWrite_core (i g off : Nat) (v : BitVec 32) (s : State) : (ctrlWrite i g off v s).core = s.core := by simp [ctrlWrite]
@[simp] theorem answer_core (i : Nat) (vals : List Nat) (s : State) : (answer i vals s).core = s.core := by simp [answer]
@[simp] theorem pscCount_core (k i : Nat) (s : State) : (pscCount k i s).core = s.core := core_of_only (ps := [.sched]) (by simp) (by decide)
@[simp] theorem slotStat_core (k e : Nat) (f : SlotStat → SlotStat) (s : State) : (slotStat k e f s).core = s.core :=
  core_of_only (ps := [.sched]) (by simp) (by decide)
@[simp] theorem frameCmp_core (k : Nat) (s : State) : (frameCmp k s).core = s.core := core_of_only (ps := [.time]) (by simp) (by decide)
@[simp] theorem bankCopied_core (k : Nat) (s : State) : (bankCopied k s).core = s.core := core_of_only (ps := [.sched]) (by simp) (by decide)
@[simp] theorem switchBank_core (k : Nat) (s : State) : (switchBank k s).core = s.core := by
  simp only [switchBank]
  repeat' split
  all_goals simp
@[simp] theorem setVf_core (n : Nat) (s : State) : (setVf n s).core = s.core := core_of_only (ps := [.sched]) (by simp) (by decide)
@[simp] theorem seasonVolt_core (k : Nat) (x : SeasonKind) (s : State) : (seasonVolt k x s).core = s.core :=
  core_of_only (ps := [.sched]) (by simp) (by decide)
@[simp] theorem supplyLoop_core (k : Nat) (s : State) : (supplyLoop k s).core = s.core := core_of_only (ps := [.sched]) (by simp) (by decide)
@[simp] theorem enterSeason_core (x : SeasonKind) (s : State) : (enterSeason x s).core = s.core := by simp [enterSeason]
@[simp] theorem seasonSettles_core (s : State) : (seasonSettles s).core = s.core := by
  unfold seasonSettles
  split <;> simp
@[simp] theorem seasonSwitch_core (k : Nat) (s : State) : (seasonSwitch k s).core = s.core := by
  unfold seasonSwitch
  split <;> simp
@[simp] theorem slotDue_core (k e : Nat) (x : SlotEntry) (a2 : Nat) (s : State) : (slotDue k e x a2 s).core = s.core := by simp [slotDue, beginSlot]
@[simp] theorem served_core (k e : Nat) (s : State) : (served k e s).core = s.core := core_of_only (ps := [.sched]) (by simp) (by decide)
@[simp] theorem reportSlack_core (k sl : Nat) (ov excl : Bool) (s : State) : (reportSlack k sl ov excl s).core = s.core :=
  core_of_only (ps := [.sched]) (by simp) (by decide)
@[simp] theorem slotEnds_core (k q : Nat) (r : Running) (used sl : Nat) (s : State) : (slotEnds k q r used sl s).core = s.core := by
  simp [slotEnds, slotLocks]
@[simp] theorem setHart_core (i h : Nat) (f : HartStat → HartStat) (s : State) : (setHart i h f s).core = s.core :=
  core_of_only (ps := [.sched]) (by simp) (by decide)
@[simp] theorem overrun_core (k q : Nat) (r : Running) (s : State) : (overrun k q r s).core = s.core := by simp [overrun]
@[simp] theorem islandImage_core (s : State) : (islandImage s).core = s.core := core_of_only (ps := [.ocu, .bki]) (by simp) (by decide)
@[simp] theorem switchSettles_core (s : State) : (switchSettles s).core = s.core := by
  unfold switchSettles
  split <;> simp
@[simp] theorem hsReplace_core (k : Nat) (s : State) : (hsReplace k s).core = s.core := by
  unfold hsReplace
  split <;> simp
@[simp] theorem imageHalt_core (k : Nat) (s : State) : (imageHalt k s).core = s.core := by simp [imageHalt]
@[simp] theorem mirrorCapture_core (i : Nat) (s : State) : (mirrorCapture i s).core = s.core := core_of_only (ps := [.mlk]) (by simp) (by decide)
@[simp] theorem setDiscard_core (i : Nat) (s : State) : (setDiscard i s).core = s.core := core_of_only (ps := [.mlk]) (by simp) (by decide)
@[simp] theorem tbuCount_core (i : Nat) (s : State) (n : Nat) : (tbuCount i s n).core = s.core := core_of_only (ps := [.time]) (by simp) (by decide)
@[simp] theorem State.setDom_core (s : State) (b : Bool) (f : Domain → Domain) : (State.setDom s b f).core = s.core :=
  core_of_only (ps := [.time]) (by simp) (by decide)
@[simp] theorem State.setPtp_core (s : State) (k : Nat) (f : PtpPort → PtpPort) : (State.setPtp s k f).core = s.core :=
  core_of_only (ps := [.time]) (by simp) (by decide)
@[simp] theorem pdSend_core (m : PdMsg) (s : State) : (pdSend m s).core = s.core := by simp [pdSend]
@[simp] theorem State.setCmp_core (s : State) (k : Nat) (f : Comparator → Comparator) : (State.setCmp s k f).core = s.core :=
  core_of_only (ps := [.time]) (by simp) (by decide)
@[simp] theorem syncCmp_core (s : State) : (syncCmp s).core = s.core := core_of_only (ps := [.time]) (by simp) (by decide)
@[simp] theorem fireCmp_core (k : Nat) (late : Bool) (s : State) : (fireCmp k late s).core = s.core := by
  simp [fireCmp, triggerSlots, bkiSync, firing]
@[simp] theorem armCmp_core (k : Nat) (s : State) : (armCmp k s).core = s.core := by simp [armCmp]
@[simp] theorem stepCmp_core (k old : Nat) (s : State) : (stepCmp k old s).core = s.core := by simp [stepCmp]
@[simp] theorem ppsRise_core (s : State) : (ppsRise s).core = s.core := core_of_only (ps := [.time]) (by simp) (by decide)
@[simp] theorem writeRef_core (ref : Bool) (s : State) : (writeRef ref s).core = s.core :=
  core_of_only (ps := [.time, .bki, .evr]) (by simp) (by decide)
@[simp] theorem autoSwitch_core (s : State) : (autoSwitch s).core = s.core := core_of_only (ps := [.time, .bki, .evr]) (by simp) (by decide)
@[simp] theorem doStep_core (ns : Int) (s : State) : (doStep ns s).core = s.core := by
  simp only [doStep]
  repeat' split
  all_goals simp
@[simp] theorem reselect_core (b : Bool) (s : State) : (reselect b s).core = s.core := core_of_only (ps := [.time]) (by simp) (by decide)
@[simp] theorem servoWrites_core (b : Bool) (s : State) : (servoWrites b s).core = s.core := core_of_only (ps := [.time, .free]) (by simp) (by decide)
@[simp] theorem persistNow_core (s : State) : (persistNow s).core = s.core := core_of_only (ps := [.persist]) (by simp) (by decide)
@[simp] theorem beginSave_core (internal : Bool) (s : State) : (beginSave internal s).core = s.core :=
  core_of_only (ps := [.evr]) (by simp) (by decide)
@[simp] theorem cutSave_core (s : State) : (cutSave s).core = s.core := core_of_only (ps := [.evr, .free]) (by simp) (by decide)
@[simp] theorem endSave_core (s : State) : (endSave s).core = s.core := core_of_only (ps := [.evr]) (by simp) (by decide)
@[simp] theorem saveReturns_core (s : State) : (saveReturns s).core = s.core := core_of_only (ps := [.evr]) (by simp) (by decide)
@[simp] theorem winterBegins_core (h : Option Nat) (s : State) : (winterBegins h s).core = s.core := by simp [winterBegins]
@[simp] theorem readSlotPins_core (s : State) : (readSlotPins s).core = s.core := core_of_only (ps := [.cgu]) (by simp) (by decide)
@[simp] theorem headDetect_core (head : Bool) (s : State) : (headDetect head s).core = s.core := by simp [headDetect, headAbsent]
@[simp] theorem modReleased_core (s : State) : (modReleased s).core = s.core := by
  simp only [modReleased]
  repeat' split
  all_goals simp
@[simp] theorem springBegin_core (wake : Nat) (s : State) : (springBegin wake s).core = s.core := by simp [springBegin]
@[simp] theorem wakeUp_core (wake : Nat) (s : State) : (wakeUp wake s).core = s.core := by simp [wakeUp]
@[simp] theorem mainReturns_core (s : State) : (mainReturns s).core = s.core := by simp [mainReturns]
@[simp] theorem bkiInput_core (k : Nat) (xs : List Int) (mV : Int) (s : State) : (bkiInput k xs mV s).core = s.core :=
  core_of_only (ps := [.bki]) (by simp) (by decide)
@[simp] theorem closeSpan_core (n : Nat) (s : State) : (closeSpan n s).core = s.core := core_of_only (ps := [.bki]) (by simp) (by decide)
@[simp] theorem elemStep_core (n : Nat) (e : ElemSlot) (s : State) : (elemStep n e s).core = s.core :=
  core_of_only (ps := [.bki]) (by simp) (by decide)
@[simp] theorem btDrive_core (j : Nat) (s : State) : (btDrive j s).core = s.core := core_of_only (ps := [.bki]) (by simp) (by decide)
@[simp] theorem btDriveAll_core (s : State) : (btDriveAll s).core = s.core := core_of_only (ps := [.bki]) (by simp) (by decide)
@[simp] theorem bankSwitch_core (s : State) : (bankSwitch s).core = s.core := core_of_only (ps := [.bki, .persist, .free]) (by simp) (by decide)
@[simp] theorem bkiOutput_core (inputs : List (List Int)) (common : List Int) (s : State) : (bkiOutput inputs common s).core = s.core := by
  simp [bkiOutput]
@[simp] theorem lockstep_core (inj : Bool) (s : State) : (lockstep inj s).core = s.core := by simp [lockstep]
theorem execBkiOutputSample_keeps (inputs : List (List Int)) (common : List Int) (s : State) : KeepsOut s (execBkiOutputSample inputs common s) := by
  simp [execBkiOutputSample]
theorem execBtHoldEnd_keeps (j : Nat) (s : State) : KeepsOut s (execBtHoldEnd j s) := by simp [execBtHoldEnd]
@[simp] theorem calFailed_core (k : Nat) (s : State) : (calFailed k s).core = s.core := core_of_only (ps := [.bki]) (by simp) (by decide)
theorem execCalStep_keeps (maxDiff : Nat) (s : State) : KeepsOut s (execCalStep maxDiff s) := by simp [execCalStep, calSwap, calFail]
theorem execLockstepMismatch_keeps (s : State) : KeepsOut s (execLockstepMismatch s) := by simp [execLockstepMismatch]
theorem execIslandRestartDone_keeps (s : State) : KeepsOut s (execIslandRestartDone s) := by simp [execIslandRestartDone]
@[simp] theorem hbWrite_core (v : BitVec 32) (s : State) : (hbWrite v s).core = s.core := core_of_only (ps := [.bki, .faults]) (by simp) (by decide)
theorem execBkiHbWrite_keeps (value : BitVec 32) (s : State) : KeepsOut s (execBkiHbWrite value s) := by simp [execBkiHbWrite]
theorem execHeartbeatLost_keeps (s : State) : KeepsOut s (execHeartbeatLost s) := by simp [execHeartbeatLost]
theorem execMgpBootTimeout_keeps (s : State) : KeepsOut s (execMgpBootTimeout s) := by simp [execMgpBootTimeout]
@[simp] theorem clmHoldClr_core (s : State) : (clmHoldClr s).core = s.core := by simp [clmHoldClr]
theorem execClmHoldClr_keeps (s : State) : KeepsOut s (execClmHoldClr s) := by simp [execClmHoldClr]
@[simp] theorem bkiCommit_core (s : State) : (bkiCommit s).core = s.core := core_of_only (ps := [.bki]) (by simp) (by decide)
theorem execBkiCommitWrite_keeps (s : State) : KeepsOut s (execBkiCommitWrite s) := by simp [execBkiCommitWrite]
@[simp] theorem beginRounds_core (ws : List Nat) (s : State) : (beginRounds ws s).core = s.core := core_of_only (ps := [.cgu]) (by simp) (by decide)
theorem execClaimRoundStart_keeps (s : State) : KeepsOut s (execClaimRoundStart s) := by simp [execClaimRoundStart]
theorem execClaimRoundJoin_keeps (wire : Nat) (s : State) : KeepsOut s (execClaimRoundJoin wire s) := by simp [execClaimRoundJoin]
@[simp] theorem closeWire_core (k : Nat) (r : RoundSeen) (s : State) : (closeWire k r s).core = s.core := by
  unfold closeWire
  split <;> simp
@[simp] theorem takeoverEnds_core (s : State) : (takeoverEnds s).core = s.core := by simp [takeoverEnds]
@[simp] theorem stepsBack_core (s : State) : (stepsBack s).core = s.core := by
  simp only [stepsBack]
  repeat' split
  all_goals simp
@[simp] theorem settleRole_core (joins carried : Bool) (s : State) : (settleRole joins carried s).core = s.core := by
  unfold settleRole
  split <;> simp
@[simp] theorem endRound_core (r0 r1 : RoundSeen) (s : State) : (endRound r0 r1 s).core = s.core := by simp [endRound]
@[simp] theorem recordLost_core (r0 r1 : RoundSeen) (s : State) : (recordLost r0 r1 s).core = s.core :=
  core_of_only (ps := [.cgu]) (by simp) (by decide)
theorem execClaimRoundEnd_keeps (r0 r1 : RoundSeen) (s : State) : KeepsOut s (execClaimRoundEnd r0 r1 s) := by
  unfold execClaimRoundEnd
  split <;> simp
@[simp] theorem clmWrite_core (v : Bool) (s : State) : (clmWrite v s).core = s.core := by simp [clmWrite, clmOff]
theorem execClmEnWrite_keeps (value : Bool) (s : State) : KeepsOut s (execClmEnWrite value s) := by simp [execClmEnWrite]
@[simp] theorem timingLost_core (s : State) : (timingLost s).core = s.core := by simp [timingLost]
theorem execTbClockStop_keeps (s : State) : KeepsOut s (execTbClockStop s) := by simp [execTbClockStop]
theorem execOscillatorFail_keeps (s : State) : KeepsOut s (execOscillatorFail s) := by
  simp only [execOscillatorFail, keepsOut_next]
  repeat' split
  all_goals simp
@[simp] theorem egSend_core (i g q : Nat) (e : EgQueue) (x : EgDesc) (f : List Byte) (stored : List Byte) (s : State) :
    (egSend i g q e x f stored s).core = s.core := by simp [egSend, keySigned]
theorem execEgressDoorbell_keeps (inst gen queue tail : Nat) (s : State) : KeepsOut s (execEgressDoorbell inst gen queue tail s) := by
  simp [execEgressDoorbell]
theorem execCguGate_keeps (port : Nat) (s : State) : KeepsOut s (execCguGate port s) := by
  unfold execCguGate
  split <;> simp
@[simp] theorem State.setArb_core (s : State) (k : Nat) (a : Arbiter) : (State.setArb s k a).core = s.core :=
  core_of_only (ps := [.fab]) (by simp) (by decide)
theorem execArbiterDecision_keeps (arb : Nat) (raised : List ArbWait) (beats : Nat) (s : State) :
    KeepsOut s (execArbiterDecision arb raised beats s) := by simp [execArbiterDecision]
theorem execParkedTransferStart_keeps (arb : Nat) (raised : List ArbWait) (ownerWins : Bool) (beats : Nat) (s : State) :
    KeepsOut s (execParkedTransferStart arb raised ownerWins beats s) := by simp [execParkedTransferStart]
theorem execBackoffExpiry_keeps (arb idx : Nat) (beats : ArbBeats) (s : State) : KeepsOut s (execBackoffExpiry arb idx beats s) := by
  simp [execBackoffExpiry]
theorem execArbCtlModeWrite_keeps (arb : Nat) (mode : Bool) (s : State) : KeepsOut s (execArbCtlModeWrite arb mode s) := by simp [execArbCtlModeWrite]
@[simp] theorem opFails_core (o : PendingOp) (s : State) : (opFails o s).core = s.core := by simp [opFails]
theorem execTransferTimeout_keeps (block : BlockId) (unit tag : Nat) (owner : Master) (waitedUs : Nat) (s : State) :
    KeepsOut s (execTransferTimeout block unit tag owner waitedUs s) := by simp [execTransferTimeout]
@[simp] theorem haltOwner_core (tag : Nat) (s : State) : (haltOwner tag s).core = s.core := by simp [haltOwner]
@[simp] theorem damage_core (l : MemLoc) (s : State) : (damage l s).core = s.core := by
  unfold damage
  split <;> simp
@[simp] theorem readWord_core (l : MemLoc) (w : WordRead) (access : Nat) (owner : Master) (s : State) (src : Option (BlockId × Nat)) :
    (readWord l w access owner s src).2.core = s.core := by simp [readWord]
@[simp] theorem passPoisoned_core (dest : BlockId) (unit access addr : Nat) (owner : Master) (r : ReadFound) (s : State) :
    (passPoisoned dest unit access addr owner r s).core = s.core := by simp [passPoisoned]
@[simp] theorem isolation_core (i g core : Nat) (c : CoreAcc) (b : BlockId) (u : Nat) (s : State) : (isolation i g core c b u s).core = s.core := by
  simp [isolation]
@[simp] theorem absorbLate_core (o : PendingOp) (s : State) : (absorbLate o s).core = s.core := by
  unfold absorbLate
  split <;> simp
theorem execScrubWord_keeps (loc : MemLoc) (word : WordRead) (changed overdue : Bool) (s : State) :
    KeepsOut s (execScrubWord loc word changed overdue s) := by simp [execScrubWord]
theorem execRailUndervoltage_keeps (rail : Rail) (mv us : Nat) (s : State) : KeepsOut s (execRailUndervoltage rail mv us s) := by
  simp [execRailUndervoltage]
@[simp] theorem islandStops_core (i : Island) (s : State) : (islandStops i s).core = s.core := by
  unfold islandStops
  split
  · simp
  · rfl
  · refine foldl_core _ _ (fun t o => ?_) s
    split <;> simp
theorem execIslandClockStop_keeps (island : Island) (s : State) : KeepsOut s (execIslandClockStop island s) := by simp [execIslandClockStop]
theorem execQuietPeriodEnd_keeps (block : BlockId) (unit : Nat) (s : State) : KeepsOut s (execQuietPeriodEnd block unit s) := by
  simp [execQuietPeriodEnd]
@[simp] theorem injProtocol_core (b : BlockId) (u : Nat) (s : State) : (injProtocol b u s).core = s.core := by
  unfold injProtocol
  split <;> simp
@[simp] theorem writeInj_core (b : BlockId) (u : Nat) (arm mode : Bool) (kind pos : Nat) (pattern : BitVec 8) (s : State) :
    (writeInj b u arm mode kind pos pattern s).core = s.core := by simp [writeInj, injectNow]
theorem execFltInjWrite_keeps (block : BlockId) (unit : Nat) (value : BitVec 32) (s : State) : KeepsOut s (execFltInjWrite block unit value s) := by
  simp [execFltInjWrite]
theorem execInjectionTimeout_keeps (block : BlockId) (unit : Nat) (s : State) : KeepsOut s (execInjectionTimeout block unit s) := by
  simp [execInjectionTimeout]
@[simp] theorem readFeCode_core (b : BlockId) (u : Nat) (s : State) : (readFeCode b u s).core = s.core :=
  core_of_only (ps := [.faults]) (by simp) (by decide)
theorem execFeCodeRead_keeps (block : BlockId) (unit : Nat) (s : State) : KeepsOut s (execFeCodeRead block unit s) := by simp [execFeCodeRead]
@[simp] theorem rearm_core (b : BlockId) (u : Nat) (s : State) : (rearm b u s).core = s.core := core_of_only (ps := [.faults]) (by simp) (by decide)
theorem execRearmWrite_keeps (block : BlockId) (unit : Nat) (s : State) : KeepsOut s (execRearmWrite block unit s) := by simp [execRearmWrite]
theorem execInstanceRemovalComplete_keeps (inst : Nat) (s : State) : KeepsOut s (execInstanceRemovalComplete inst s) := by
  simp [execInstanceRemovalComplete, eraseOwned, freeCmps, voidSubs, unassignLocks, removalEnds]
theorem execInstanceQuarantineEnd_keeps (inst : Nat) (s : State) : KeepsOut s (execInstanceQuarantineEnd inst s) := by
  simp [execInstanceQuarantineEnd]
theorem execRelease_keeps (inst gen kind count : Nat) (s : State) : KeepsOut s (execRelease inst gen kind count s) := by simp [execRelease]
theorem execLockTryAcquire_keeps (who : Master) (hart j : Nat) (s : State) : KeepsOut s (execLockTryAcquire who hart j s) := by
  unfold execLockTryAcquire
  split <;> simp
theorem execLockRelease_keeps (who : Master) (j : Nat) (value : BitVec 32) (s : State) : KeepsOut s (execLockRelease who j value s) := by
  simp [execLockRelease]
theorem execLckAssignWrite_keeps (lock : Nat) (value : BitVec 32) (s : State) : KeepsOut s (execLckAssignWrite lock value s) := by
  simp [execLckAssignWrite]
@[simp] theorem writeSuppression_core (code : Nat) (s : State) : (writeSuppression code s).core = s.core :=
  core_of_only (ps := [.evr]) (by simp) (by decide)
@[simp] theorem refillCode_core (code t : Nat) (s : State) : (refillCode code t s).core = s.core := core_of_only (ps := [.evr]) (by simp) (by decide)
@[simp] theorem writerStep_core (s : State) : (writerStep s).core = s.core := core_of_only (ps := [.evr]) (by simp) (by decide)
theorem execEvrOccurrence_keeps (s : State) : KeepsOut s (execEvrOccurrence s) := by simp [execEvrOccurrence]
theorem execBucketRefill_keeps (code : Nat) (s : State) : KeepsOut s (execBucketRefill code s) := by
  unfold execBucketRefill
  split <;> simp
theorem execLossIntervalEnd_keeps (code : Nat) (s : State) : KeepsOut s (execLossIntervalEnd code s) := by
  unfold execLossIntervalEnd
  split <;> simp
@[simp] theorem cursorLoad_core (n advance : Nat) (newest : Bool) (s : State) : (cursorLoad n advance newest s).core = s.core :=
  core_of_only (ps := [.evr]) (by simp) (by decide)
@[simp] theorem writeCurCtl_core (n : Nat) (v : BitVec 32) (s : State) : (writeCurCtl n v s).core = s.core :=
  core_of_only (ps := [.evr]) (by simp) (by decide)
theorem execCursorLoad_keeps (n : Nat) (value : BitVec 32) (s : State) : KeepsOut s (execCursorLoad n value s) := by simp [execCursorLoad]
@[simp] theorem cursorDone_core (n : Nat) (s : State) : (cursorDone n s).core = s.core := by simp [cursorDone]
theorem execCursorLoadComplete_keeps (n : Nat) (s : State) : KeepsOut s (execCursorLoadComplete n s) := by
  unfold execCursorLoadComplete
  split <;> simp
theorem execSaveAreaErase_keeps (s : State) : KeepsOut s (execSaveAreaErase s) := by simp [execSaveAreaErase]
@[simp] theorem salted_core (n : Nat) (s : State) : (salted n s).core = s.core := by simp [salted]
@[simp] theorem slotWrite_core (n : Nat) (v : BitVec 256) (origin : Nat) (s : State) : (slotWrite n v origin s).core = s.core := by simp [slotWrite]
@[simp] theorem slotAttr_core (n : Nat) (a : KeyArgs) (lock derivable : Bool) (s : State) : (slotAttr n a lock derivable s).core = s.core := by
  simp [slotAttr]
@[simp] theorem drawKey_core (s : State) : (drawKey s).2.core = s.core := by simp [drawKey]
@[simp] theorem ksuDone_core (result : Nat) (s : State) : (ksuDone result s).core = s.core := by simp [ksuDone]
@[simp] theorem ksuLoad_core (n : Nat) (v : BitVec 256) (s : State) : (ksuLoad n v s).core = s.core := by simp [ksuLoad]
@[simp] theorem ksuGenerate_core (n : Nat) (s : State) : (ksuGenerate n s).core = s.core := by simp [ksuGenerate]
@[simp] theorem lockReserved_core (n : Nat) (s : State) : (lockReserved n s).core = s.core := by simp [lockReserved]
@[simp] theorem ksuDerive_core (who : Master) (n : Nat) (parent : Option Nat) (use : Nat) (label : List Byte) (context : List Byte) (s : State) :
    (ksuDerive who n parent use label context s).core = s.core := by simp [ksuDerive]
@[simp] theorem ksuErase_core (who : Master) (n : Nat) (s : State) : (ksuErase who n s).core = s.core := by
  unfold ksuErase
  split <;> simp
@[simp] theorem ksuCommand_core (who : Master) (v : BitVec 32) (s : State) : (ksuCommand who v s).core = s.core := by simp [ksuCommand]
theorem execKsuLoad_keeps (who : Master) (cmd : BitVec 32) (s : State) : KeepsOut s (execKsuLoad who cmd s) := by simp [execKsuLoad]
theorem execKsuGenerate_keeps (who : Master) (cmd : BitVec 32) (s : State) : KeepsOut s (execKsuGenerate who cmd s) := by simp [execKsuGenerate]
theorem execKsuDerive_keeps (who : Master) (cmd : BitVec 32) (s : State) : KeepsOut s (execKsuDerive who cmd s) := by simp [execKsuDerive]
theorem execKsuErase_keeps (who : Master) (cmd : BitVec 32) (s : State) : KeepsOut s (execKsuErase who cmd s) := by simp [execKsuErase]
theorem execKeySave_keeps (slot : Nat) (s : State) : KeepsOut s (execKeySave slot s) := by simp [execKeySave, saveSlot]
@[simp] theorem restoreSlot_core (c : SavedSlot) (s : State) : (restoreSlot c s).core = s.core := by simp [restoreSlot]
theorem execSlotDamageRewrite_keeps (slot : Nat) (s : State) : KeepsOut s (execSlotDamageRewrite slot s) := by
  unfold execSlotDamageRewrite
  split <;> simp
theorem execTrngHealthFail_keeps (s : State) : KeepsOut s (execTrngHealthFail s) := by simp [execTrngHealthFail]
@[simp] theorem referee_core (k : CmpKey) (row3 : State → State) (s : State) (hrow3 : ∀  t, (row3  t).core = t.core) :
    (referee k row3 s).core = s.core := by simp [referee, hrow3]
@[simp] theorem refer_core (d : Diverge) (s : State) : (refer d s).core = s.core := by
  unfold refer
  split <;> simp
@[simp] theorem diverge_core (d : Diverge) (s : State) : (diverge d s).core = s.core := by simp [diverge]
@[simp] theorem closePend_core (k : CmpKey) (s : State) : (closePend k s).core = s.core := core_of_only (ps := [.ocu, .pending]) (by simp) (by decide)
@[simp] theorem windowEnds_core (e : Pend) (s : State) : (windowEnds e s).core = s.core := by simp [windowEnds]
@[simp] theorem ocuTake_core (own : Bool) (c : OcuCopy) (k : CmpKey) (s : State) : (ocuTake own c k s).core = s.core := by
  unfold ocuTake
  split <;> simp
@[simp] theorem ocuFrame_core (own : Bool) (c : OcuCopy) (s : State) : (ocuFrame own c s).core = s.core := by
  simp only [ocuFrame]
  repeat' split
  all_goals simp
theorem execOcuFrame_keeps (partner : Option OcuCopy) (s : State) : KeepsOut s (execOcuFrame partner s) := by
  simp only [execOcuFrame, keepsOut_next]
  repeat' split
  all_goals simp
theorem execOcuWindowEnd_keeps (key : CmpKey) (s : State) : KeepsOut s (execOcuWindowEnd key s) := by
  unfold execOcuWindowEnd
  split <;> simp
@[simp] theorem pictureDecided_core (p : Picture) (pz : Bool) (s : State) : (pictureDecided p pz s).core = s.core := by
  simp only [pictureDecided]
  repeat' split
  all_goals simp
theorem execPictureDecision_keeps (key : CmpKey) (s : State) : KeepsOut s (execPictureDecision key s) := by
  simp only [execPictureDecision, keepsOut_next]
  repeat' split
  all_goals simp
theorem execDecisionMessage_keeps (row : Nat) (againstUs : Bool) (key : CmpKey) (s : State) :
    KeepsOut s (execDecisionMessage row againstUs key s) := by simp [execDecisionMessage]
theorem execStatusWordSend_keeps (s : State) : KeepsOut s (execStatusWordSend s) := by simp [execStatusWordSend]
@[simp] theorem idConflict_core (s : State) : (idConflict s).core = s.core := by simp [idConflict]
@[simp] theorem wantFull_core (s : State) : (wantFull s).core = s.core := core_of_only (ps := [.mlk]) (by simp) (by decide)
@[simp] theorem partnerPresent_core (s : State) : (partnerPresent s).core = s.core := by
  simp only [partnerPresent]
  repeat' split
  all_goals simp
@[simp] theorem refusalSeen_core (old new : StatusWord) (s : State) : (refusalSeen old new s).core = s.core := by
  unfold refusalSeen
  split <;> simp
theorem execStatusWordReceive_keeps (lane : Nat) (word : StatusWord) (s : State) : KeepsOut s (execStatusWordReceive lane word s) := by
  simp [execStatusWordReceive, fullRequests, takeWord]
theorem execLaneDown_keeps (lane : Nat) (s : State) : KeepsOut s (execLaneDown lane s) := by
  unfold execLaneDown
  split <;> simp
@[simp] theorem loseThePartner_core (s : State) : (loseThePartner s).core = s.core := by simp [loseThePartner]
theorem execPartnerLost_keeps (s : State) : KeepsOut s (execPartnerLost s) := by simp [execPartnerLost]
theorem execPartnerAwaitExpiry_keeps (s : State) : KeepsOut s (execPartnerAwaitExpiry s) := by
  unfold execPartnerAwaitExpiry
  split <;> simp
theorem execMirrorDeclare_keeps (inst gen addr count : Nat) (s : State) : KeepsOut s (execMirrorDeclare inst gen addr count s) := by
  simp [execMirrorDeclare]
theorem execMirrorSetSend_keeps (inst : Nat) (s : State) : KeepsOut s (execMirrorSetSend inst s) := by
  unfold execMirrorSetSend
  split <;> simp
theorem execMirrorSetReceive_keeps (set : MirSet) (crcOk complete : Bool) (s : State) : KeepsOut s (execMirrorSetReceive set crcOk complete s) := by
  simp [execMirrorSetReceive]
theorem execSwitchBackLapse_keeps (s : State) : KeepsOut s (execSwitchBackLapse s) := by
  unfold execSwitchBackLapse
  split <;> simp
@[simp] theorem take_core (r : Req) (s : State) : (take r s).core = s.core := by simp [take]
@[simp] theorem rootStart_core (c : ColdIn) (steps : Nat) (s : State) : (rootStart c steps s).core = s.core := by
  simp only [rootStart]
  repeat' split
  all_goals simp
@[simp] theorem slotReport_core (c : SavedSlot) (s : State) : (slotReport c s).core = s.core :=
  core_of_only (ps := [.bki, .evr]) (by simp) (by decide)
@[simp] theorem ksuBegin_core (c : ColdIn) (steps : Nat) (s : State) : (ksuBegin c steps s).core = s.core := by simp [ksuBegin, fuseSlots]
@[simp] theorem ksuStart_core (c : ColdIn) (s : State) : (ksuStart c s).core = s.core := by simp [ksuStart]
@[simp] theorem evrStart_core (fromWinter : Bool) (s : State) : (evrStart fromWinter s).core = s.core :=
  core_of_only (ps := [.evr]) (by simp) (by decide)
@[simp] theorem cursorsStart_core (s : State) : (cursorsStart s).core = s.core := core_of_only (ps := [.evr]) (by simp) (by decide)
@[simp] theorem heldRecords_core (s : State) : (heldRecords s).core = s.core := core_of_only (ps := [.bki, .evr]) (by simp) (by decide)
@[simp] theorem restoreStream_core (e : StreamEntry) (s : State) : (restoreStream e s).core = s.core := by
  unfold restoreStream
  split <;> simp
@[simp] theorem restoreFwd_core (e : FwdEntry) (s : State) : (restoreFwd e s).core = s.core := by
  unfold restoreFwd
  split <;> simp
@[simp] theorem ensureStatic_core (mac vid type target : Nat) (s : State) : (ensureStatic mac vid type target s).core = s.core := by
  unfold ensureStatic
  split <;> simp
@[simp] theorem ownStatics_core (s : State) : (ownStatics s).core = s.core := by simp [ownStatics]
@[simp] theorem restoreSwitch_core (c : Switch) (s : State) : (restoreSwitch c s).core = s.core := by simp [restoreSwitch]
@[simp] theorem restorePair_core (c : Snapshot) (s : State) : (restorePair c s).core = s.core :=
  core_of_only (ps := [.cgu, .ocu, .mlk, .time]) (by simp) (by decide)
@[simp] theorem acqGranules_core (n : Nat) (s : State) : (acqGranules n s).core = s.core := by simp [acqGranules]
@[simp] theorem acqBegin_core (n : Nat) (s : State) : (acqBegin n s).core = s.core := core_of_only (ps := [.acq]) (by simp) (by decide)
@[simp] theorem acqEnable_core (n : Nat) (s : State) : (acqEnable n s).core = s.core := core_of_only (ps := [.acq]) (by simp) (by decide)
@[simp] theorem restoreAcq_core (t : Tbl StreamEntry) (c : Acq) (s : State) : (restoreAcq t c s).core = s.core := by simp [restoreAcq]
@[simp] theorem restoreRest_core (c : Snapshot) (s : State) : (restoreRest c s).core = s.core := by simp [restoreRest]
@[simp] theorem startPsc_core (k : Nat) (s : State) : (startPsc k s).core = s.core := core_of_only (ps := [.sched, .time]) (by simp) (by decide)
@[simp] theorem mgpStarted_core (reason : Nat) (s : State) : (mgpStarted reason s).core = s.core := by simp [mgpStarted, setTimeouts]
@[simp] theorem heartbeat_core (s : State) : (heartbeat s).core = s.core := core_of_only (ps := [.bki, .faults]) (by simp) (by decide)
@[simp] theorem imageCount_core (ok : Bool) (s : State) : (imageCount ok s).core = s.core := by simp [imageCount]
@[simp] theorem coldEnd_core (s : State) : (coldEnd s).core = s.core := by simp [coldEnd]
@[simp] theorem latchedRead_core (s : State) : (latchedRead s).core = s.core := core_of_only (ps := [.bki, .faults, .evr]) (by simp) (by decide)
@[simp] theorem serviceOn_core (s : State) : (serviceOn s).core = s.core := by simp [serviceOn]
@[simp] theorem serviceOff_core (s : State) : (serviceOff s).core = s.core := by simp [serviceOff]
theorem execMboxRegister_keeps (inst gen addr slots : Nat) (s : State) : KeepsOut s (execMboxRegister inst gen addr slots s) := by
  simp [execMboxRegister]
theorem execReqTailWrite_keeps (pair tail : Nat) (s : State) : KeepsOut s (execReqTailWrite pair tail s) := by simp [execReqTailWrite]
theorem execPairReset_keeps (pair : Nat) (s : State) : KeepsOut s (execPairReset pair s) := by simp [execPairReset]
theorem execMbxReqTailWrite_keeps (inst gen tail : Nat) (s : State) : KeepsOut s (execMbxReqTailWrite inst gen tail s) := by
  simp [execMbxReqTailWrite]
theorem execMsiXMessage_keeps (vec : Nat) (s : State) : KeepsOut s (execMsiXMessage vec s) := by simp [execMsiXMessage]
theorem execAnnounceMessage_keeps (port : Nat) (m : AnnMsg) (s : State) : KeepsOut s (execAnnounceMessage port m s) := by simp [execAnnounceMessage]
theorem execPdelayReqSend_keeps (port : Nat) (s : State) : KeepsOut s (execPdelayReqSend port s) := by simp [execPdelayReqSend, pdelayMissed]
theorem execPdelayRespReceive_keeps (port : Nat) (_turnaround : Int) (s : State) : KeepsOut s (execPdelayRespReceive port _turnaround s) := by
  simp [execPdelayRespReceive]
theorem execHoldoverEntry_keeps (dom : Bool) (s : State) : KeepsOut s (execHoldoverEntry dom s) := by simp [execHoldoverEntry]
theorem execFreerunEntry_keeps (dom : Bool) (s : State) : KeepsOut s (execFreerunEntry dom s) := by simp [execFreerunEntry]
theorem execTbStepGo_keeps (s : State) : KeepsOut s (execTbStepGo s) := by simp [execTbStepGo]
theorem execRefWrite_keeps (ref : Bool) (s : State) : KeepsOut s (execRefWrite ref s) := by simp [execRefWrite]
theorem execSlewComplete_keeps (s : State) : KeepsOut s (execSlewComplete s) := by simp [execSlewComplete]
theorem execComparatorFire_keeps (k : Nat) (s : State) : KeepsOut s (execComparatorFire k s) := by simp [execComparatorFire]
@[simp] theorem writeTrgCtl_core (k : Nat) (v : BitVec 32) (s : State) : (writeTrgCtl k v s).core = s.core := by simp [writeTrgCtl]
theorem execTrgCtlWrite_keeps (k : Nat) (value : BitVec 32) (s : State) : KeepsOut s (execTrgCtlWrite k value s) := by simp [execTrgCtlWrite]
theorem execPpsEdge_keeps (s : State) : KeepsOut s (execPpsEdge s) := by simp [execPpsEdge]
theorem execPpsPulseEnd_keeps (s : State) : KeepsOut s (execPpsPulseEnd s) := by simp [execPpsPulseEnd]
theorem execSlotStart_keeps (cluster entry : Nat) (s : State) : KeepsOut s (execSlotStart cluster entry s) := by simp [execSlotStart]
theorem execYieldCall_keeps (cluster core : Nat) (s : State) : KeepsOut s (execYieldCall cluster core s) := by simp [execYieldCall, yieldNow]
theorem execBudgetExpiry_keeps (cluster core : Nat) (s : State) : KeepsOut s (execBudgetExpiry cluster core s) := by simp [execBudgetExpiry]
theorem execTriggerWindowEnd_keeps (cluster entry : Nat) (s : State) : KeepsOut s (execTriggerWindowEnd cluster entry s) := by
  simp [execTriggerWindowEnd]
@[simp] theorem pscCommit_core (k : Nat) (h : Option Nat) (s : State) : (pscCommit k h s).core = s.core :=
  core_of_only (ps := [.sched]) (by simp) (by decide)
theorem execPscCommit_keeps (cluster : Nat) (s : State) : KeepsOut s (execPscCommit cluster s) := by simp [execPscCommit]
@[simp] theorem finishTx_core (k : Nat) (s : State) : (finishTx k s).core = s.core := by
  simp only [finishTx]
  repeat' split
  all_goals simp
@[simp] theorem beginTx_core (k : Nat) (c : TxCopy) (wire : List Byte) (sat : Bool) (s : State) : (beginTx k c wire sat s).core = s.core :=
  core_of_only (ps := [.ports, .time]) (by simp) (by decide)
@[simp] theorem crcFails_core (k : Nat) (c : TxCopy) (s : State) : (crcFails k c s).core = s.core := by simp [crcFails]
@[simp] theorem selectTx_core (k : Nat) (word : WordRead) (fuel : Nat) (s : State) : (selectTx k word fuel s).core = s.core := by
  induction fuel generalizing word s with
  | zero => rfl
  | succ fuel ih =>
    unfold selectTx
    split
    · simp
    · simp [ih]
theorem execTransmitSelect_keeps (sel : TxSelect) (s : State) : KeepsOut s (execTransmitSelect sel s) := by simp [execTransmitSelect, acqDrainPort]
theorem execPauseEnd_keeps (port : Nat) (s : State) : KeepsOut s (execPauseEnd port s) := by simp [execPauseEnd]
theorem execPauseCut_keeps (port : Nat) (s : State) : KeepsOut s (execPauseCut port s) := by simp [execPauseCut]
theorem execPauseAgeingDiscard_keeps (port queue : Nat) (s : State) : KeepsOut s (execPauseAgeingDiscard port queue s) := by
  simp only [execPauseAgeingDiscard, keepsOut_next]
  repeat' split
  all_goals simp
theorem execLinkUp_keeps (port : Nat) (s : State) : KeepsOut s (execLinkUp port s) := by simp [execLinkUp]
theorem execLinkDown_keeps (port : Nat) (s : State) : KeepsOut s (execLinkDown port s) := by simp [execLinkDown]
theorem execSfpInsert_keeps (port : Nat) (sfp : Option Nat) (s : State) : KeepsOut s (execSfpInsert port sfp s) := by simp [execSfpInsert]
theorem execSfpRemove_keeps (port : Nat) (s : State) : KeepsOut s (execSfpRemove port s) := by simp [execSfpRemove]
theorem execSfpPowerLimit_keeps (port : Nat) (s : State) : KeepsOut s (execSfpPowerLimit port s) := by simp [execSfpPowerLimit]
@[simp] theorem writeTxEn_core (k : Nat) (v : Bool) (s : State) : (writeTxEn k v s).core = s.core := by simp [writeTxEn]
theorem execTxEnWrite_keeps (port : Nat) (value : Bool) (s : State) : KeepsOut s (execTxEnWrite port value s) := by simp [execTxEnWrite]
@[simp] theorem sendTold_core (k : Nat) (d : SendDone) (s : State) : (sendTold k d s).core = s.core := by
  unfold sendTold
  split <;> simp
theorem execLargeSendSubmit_keeps (port : Nat) (send : LargeSend) (s : State) : KeepsOut s (execLargeSendSubmit port send s) := by
  simp only [execLargeSendSubmit, keepsOut_next]
  repeat' split
  all_goals simp
@[simp] theorem storeSegment_core (k : Nat) (x : LargeSend) (octets : List Byte) (s : State) : (storeSegment k x octets s).core = s.core := by
  simp [storeSegment]
theorem execSegmentGenerate_keeps (port : Nat) (s : State) : KeepsOut s (execSegmentGenerate port s) := by
  simp only [execSegmentGenerate, keepsOut_next]
  repeat' split
  all_goals simp
theorem execLoopTest_keeps (locked : Bool) (s : State) : KeepsOut s (execLoopTest locked s) := by simp [execLoopTest]
theorem execCoilEnergise_keeps (s : State) : KeepsOut s (execCoilEnergise s) := by simp [execCoilEnergise]
theorem execHeadSwitchComplete_keeps (s : State) : KeepsOut s (execHeadSwitchComplete s) := by simp [execHeadSwitchComplete]
theorem execHeadPositionMismatch_keeps (through : Bool) (s : State) : KeepsOut s (execHeadPositionMismatch through s) := by
  simp [execHeadPositionMismatch]
@[simp] theorem seasonBegins_core (x : SeasonKind) (h : Option Nat) (s : State) : (seasonBegins x h s).core = s.core := by simp [seasonBegins]
@[simp] theorem seasonGo_core (x : SeasonKind) (force : Bool) (s : State) : (seasonGo x force s).core = s.core := by simp [seasonGo]
@[simp] theorem writeSeasonCtl_core (v : BitVec 32) (s : State) : (writeSeasonCtl v s).core = s.core := by
  simp only [writeSeasonCtl]
  repeat' split
  all_goals simp
theorem execSeasonRequest_keeps (value : BitVec 32) (s : State) : KeepsOut s (execSeasonRequest value s) := by simp [execSeasonRequest]
theorem execWakeNLow_keeps (s : State) : KeepsOut s (execWakeNLow s) := by simp [execWakeNLow]
theorem execWakeTimerExpiry_keeps (s : State) : KeepsOut s (execWakeTimerExpiry s) := by simp [execWakeTimerExpiry]
theorem execWakeFrame_keeps (octets : List Byte) (fcsOk : Bool) (s : State) : KeepsOut s (execWakeFrame octets fcsOk s) := by simp [execWakeFrame]
@[simp] theorem putRate_core (k r : Nat) (s : State) : (putRate k r s).core = s.core := by simp [putRate]
@[simp] theorem writeRate_core (k r : Nat) (s : State) : (writeRate k r s).core = s.core := by simp [writeRate]
@[simp] theorem writePortCtl_core (k : Nat) (v : BitVec 32) (s : State) : (writePortCtl k v s).core = s.core := by simp [writePortCtl]
@[simp] theorem writePortVlan_core (k : Nat) (v : BitVec 32) (s : State) : (writePortVlan k v s).core = s.core :=
  core_of_only (ps := [.ports]) (by simp) (by decide)
@[simp] theorem writePortPcpMap_core (k : Nat) (v : BitVec 32) (s : State) : (writePortPcpMap k v s).core = s.core :=
  core_of_only (ps := [.ports]) (by simp) (by decide)
@[simp] theorem writeMaxFrame_core (k n : Nat) (s : State) : (writeMaxFrame k n s).core = s.core :=
  core_of_only (ps := [.ports]) (by simp) (by decide)
@[simp] theorem writeSwcCtl_core (v : BitVec 32) (s : State) : (writeSwcCtl v s).core = s.core := by simp [writeSwcCtl, ringFwd]
@[simp] theorem writeHoldoff_core (n : Nat) (s : State) : (writeHoldoff n s).core = s.core := core_of_only (ps := [.sw]) (by simp) (by decide)
@[simp] theorem writeFwdIdle_core (n : Nat) (s : State) : (writeFwdIdle n s).core = s.core := core_of_only (ps := [.sw]) (by simp) (by decide)
@[simp] theorem writeClsAge_core (c n : Nat) (s : State) : (writeClsAge c n s).core = s.core := core_of_only (ps := [.sw]) (by simp) (by decide)
@[simp] theorem writePortFwd_core (k : Nat) (v : BitVec 32) (s : State) : (writePortFwd k v s).core = s.core :=
  core_of_only (ps := [.sw]) (by simp) (by decide)
@[simp] theorem writeMirCtl_core (m : Nat) (v : BitVec 32) (s : State) : (writeMirCtl m v s).core = s.core := by simp [writeMirCtl]
@[simp] theorem writePmcLoop_core (c : Nat) (v : BitVec 32) (s : State) : (writePmcLoop c v s).core = s.core :=
  core_of_only (ps := [.sched]) (by simp) (by decide)
@[simp] theorem writePmcVolt_core (c : Nat) (v : BitVec 32) (s : State) : (writePmcVolt c v s).core = s.core :=
  core_of_only (ps := [.sched]) (by simp) (by decide)
@[simp] theorem writeFabricVolt_core (n : Nat) (s : State) : (writeFabricVolt n s).core = s.core :=
  core_of_only (ps := [.sched]) (by simp) (by decide)
@[simp] theorem writeCguCtl_core (v : BitVec 32) (s : State) : (writeCguCtl v s).core = s.core := by
  simp only [writeCguCtl]
  repeat' split
  all_goals simp
@[simp] theorem writeClaim_core (v : BitVec 32) (s : State) : (writeClaim v s).core = s.core :=
  core_of_only (ps := [.cgu, .persist]) (by simp) (by decide)
@[simp] theorem writeClaimMem_core (v : BitVec 32) (s : State) : (writeClaimMem v s).core = s.core :=
  core_of_only (ps := [.cgu]) (by simp) (by decide)
@[simp] theorem writeOcuCtl_core (v : BitVec 32) (s : State) : (writeOcuCtl v s).core = s.core := core_of_only (ps := [.ocu]) (by simp) (by decide)
@[simp] theorem writeMlkCtl_core (v : BitVec 32) (s : State) : (writeMlkCtl v s).core = s.core := core_of_only (ps := [.mlk]) (by simp) (by decide)
@[simp] theorem writeTbDomain_core (v : BitVec 32) (s : State) : (writeTbDomain v s).core = s.core :=
  core_of_only (ps := [.time]) (by simp) (by decide)
@[simp] theorem writeTbLimits_core (v : BitVec 32) (s : State) : (writeTbLimits v s).core = s.core :=
  core_of_only (ps := [.time]) (by simp) (by decide)
@[simp] theorem writePtpPort_core (k : Nat) (v : BitVec 32) (s : State) : (writePtpPort k v s).core = s.core :=
  core_of_only (ps := [.time]) (by simp) (by decide)
@[simp] theorem writePpsWidth_core (n : Nat) (s : State) : (writePpsWidth n s).core = s.core := core_of_only (ps := [.time]) (by simp) (by decide)
@[simp] theorem writeIncr_core (v : BitVec 32) (s : State) : (writeIncr v s).core = s.core := core_of_only (ps := [.time]) (by simp) (by decide)
@[simp] theorem writeTbCtl_core (v : BitVec 32) (s : State) : (writeTbCtl v s).core = s.core := by simp [writeTbCtl]
@[simp] theorem writeTbStat_core (v : BitVec 32) (s : State) : (writeTbStat v s).core = s.core := core_of_only (ps := [.time]) (by simp) (by decide)
@[simp] theorem writeOfs_core (b hi : Bool) (v : BitVec 32) (s : State) : (writeOfs b hi v s).core = s.core :=
  core_of_only (ps := [.time]) (by simp) (by decide)
@[simp] theorem writeTrg_core (k j : Nat) (v : BitVec 32) (s : State) : (writeTrg k j v s).core = s.core := by simp [writeTrg]
@[simp] theorem writeAcqCtl_core (v : BitVec 32) (s : State) : (writeAcqCtl v s).core = s.core := core_of_only (ps := [.acq]) (by simp) (by decide)
@[simp] theorem writeBkiCtl_core (v : BitVec 32) (s : State) : (writeBkiCtl v s).core = s.core :=
  core_of_only (ps := [.time, .bki]) (by simp) (by decide)
@[simp] theorem writeCalCtl_core (v : BitVec 32) (s : State) : (writeCalCtl v s).core = s.core := core_of_only (ps := [.bki]) (by simp) (by decide)
@[simp] theorem writeElem_core (n : Nat) (e : ElemSlot) (s : State) : (writeElem n e s).core = s.core :=
  core_of_only (ps := [.bki]) (by simp) (by decide)
@[simp] theorem writeEvrCtl_core (limitEn saveEn : Bool) (s : State) : (writeEvrCtl limitEn saveEn s).core = s.core :=
  core_of_only (ps := [.evr]) (by simp) (by decide)
@[simp] theorem writeBucket_core (code mode burst intervalUs : Nat) (s : State) : (writeBucket code mode burst intervalUs s).core = s.core :=
  core_of_only (ps := [.evr]) (by simp) (by decide)
@[simp] theorem State.setCapture_core (s : State) (b : BlockId) (u : Nat) (latch : Bool) : (State.setCapture s b u latch).core = s.core :=
  core_of_only (ps := [.faults]) (by simp) (by decide)
@[simp] theorem writeQuiet_core (b : BlockId) (u n : Nat) (s : State) : (writeQuiet b u n s).core = s.core :=
  core_of_only (ps := [.faults]) (by simp) (by decide)
@[simp] theorem opGetIdentity_core (_r : Req) (s : State) : (opGetIdentity _r s).1.core = s.core := by simp [opGetIdentity]
@[simp] theorem opGetStatus_core (_r : Req) (s : State) : (opGetStatus _r s).1.core = s.core := by simp [opGetStatus]
@[simp] theorem opOpStatus_core (_r : Req) (handle : Nat) (s : State) : (opOpStatus _r handle s).1.core = s.core := by
  simp only [opOpStatus]
  repeat' split
  all_goals simp
@[simp] theorem opEcho_core (_r : Req) (octets : List Nat) (s : State) : (opEcho _r octets s).1.core = s.core := by simp [opEcho]
@[simp] theorem opArbRead_core (_r : Req) (arb : Nat) (s : State) : (opArbRead _r arb s).1.core = s.core := by simp [opArbRead]
@[simp] theorem opArbPrio_core (_r : Req) (arb idx prio : Nat) (s : State) : (opArbPrio _r arb idx prio s).1.core = s.core := by simp [opArbPrio]
@[simp] theorem opArbMode_core (_r : Req) (mode : Nat) (s : State) : (opArbMode _r mode s).1.core = s.core := by simp [opArbMode]
theorem execStartUpComplete_keeps (s : State) : KeepsOut s (execStartUpComplete s) := by simp [execStartUpComplete]
theorem execClaimEnableAuto_keeps (s : State) : KeepsOut s (execClaimEnableAuto s) := by simp [execClaimEnableAuto]
theorem execServiceAuto_keeps (s : State) : KeepsOut s (execServiceAuto s) := by simp [execServiceAuto]
theorem execConfigPersist_keeps (s : State) : KeepsOut s (execConfigPersist s) := by simp [execConfigPersist]
theorem execBankHandover_keeps (carriedOk : Bool) (s : State) : KeepsOut s (execBankHandover carriedOk s) := by simp [execBankHandover]
theorem execBankMarkActive_keeps (s : State) : KeepsOut s (execBankMarkActive s) := by
  unfold execBankMarkActive
  split <;> simp
@[simp] theorem staged_core (dest : Nat) (s : State) : (staged dest s).core = s.core := core_of_only (ps := [.persist, .free]) (by simp) (by decide)
theorem execImageStageComplete_keeps (s : State) : KeepsOut s (execImageStageComplete s) := by
  unfold execImageStageComplete
  split <;> simp
@[simp] theorem importApply_core (s : State) : (importApply s).core = s.core := core_of_only (ps := [.sw, .sce, .bki]) (by simp) (by decide)
theorem execImportComplete_keeps (s : State) : KeepsOut s (execImportComplete s) := by
  unfold execImportComplete
  split <;> simp
@[simp] theorem onInst_core (i : Nat) (s : State) (f : State × Ans) (hf : f.1.core = s.core) : (onInst i s f).1.core = s.core := by simp [onInst, hf]
@[simp] theorem opStop_core (r : Req) (s : State) : (opStop r s).1.core = s.core := by simp [opStop]
@[simp] theorem opStart_core (r : Req) (s : State) : (opStart r s).1.core = s.core := by simp [opStart]
@[simp] theorem setShares_core (i : Nat) (new : Shares) (s : State) : (setShares i new s).core = s.core := by simp [setShares]
@[simp] theorem opSetShares_core (r : Req) (mask : BitVec 10) (share : Shares) (s : State) : (opSetShares r mask share s).1.core = s.core := by
  simp only [opSetShares]
  repeat' split
  all_goals simp
@[simp] theorem opReadDesc_core (r : Req) (s : State) : (opReadDesc r s).1.core = s.core := by simp [opReadDesc]
@[simp] theorem opSetAllowance_core (r : Req) (idx : Nat) (entry : Allow) (s : State) : (opSetAllowance r idx entry s).1.core = s.core := by
  simp [opSetAllowance]
@[simp] theorem opSetAutoReset_core (r : Req) (value : Nat) (s : State) : (opSetAutoReset r value s).1.core = s.core := by simp [opSetAutoReset]
@[simp] theorem opSetHoldoff_core (_r : Req) (value : Nat) (s : State) : (opSetHoldoff _r value s).1.core = s.core := by simp [opSetHoldoff]
@[simp] theorem opPtWrite_core (_r : Req) (cluster entry : Nat) (slot : SlotEntry) (s : State) :
    (opPtWrite _r cluster entry slot s).1.core = s.core := by simp [opPtWrite]
@[simp] theorem opPtRead_core (_r : Req) (cluster bank : Nat) (s : State) : (opPtRead _r cluster bank s).1.core = s.core := by simp [opPtRead]
@[simp] theorem opSlotStatus_core (_r : Req) (cluster : Nat) (s : State) : (opSlotStatus _r cluster s).1.core = s.core := by simp [opSlotStatus]
@[simp] theorem opLockAssign_core (_r : Req) (lock owner index : Nat) (mgpOk : Bool) (s : State) :
    (opLockAssign _r lock owner index mgpOk s).1.core = s.core := by simp [opLockAssign]
@[simp] theorem opLockUnassign_core (_r : Req) (lock : Nat) (s : State) : (opLockUnassign _r lock s).1.core = s.core := by simp [opLockUnassign]
@[simp] theorem opLockRead_core (_r : Req) (lock : Nat) (s : State) : (opLockRead _r lock s).1.core = s.core := by simp [opLockRead]
@[simp] theorem opEgqRegister_core (r : Req) (queue addr size : Nat) (s : State) : (opEgqRegister r queue addr size s).1.core = s.core := by
  simp [opEgqRegister]
@[simp] theorem opRxringRegister_core (r : Req) (addr size bufLen : Nat) (s : State) : (opRxringRegister r addr size bufLen s).1.core = s.core := by
  simp [opRxringRegister]
@[simp] theorem opRxringStats_core (r : Req) (s : State) : (opRxringStats r s).1.core = s.core := by simp [opRxringStats]
@[simp] theorem CntPage.snap_core (p : CntPage) (s : State) : (CntPage.snap p s).core = s.core := by
  unfold CntPage.snap
  split <;> simp
@[simp] theorem snapshot_core (p : CntPage) (s : State) : (snapshot p s).core = s.core := by
  unfold snapshot
  split <;> simp
@[simp] theorem opStats_core (_r : Req) (page : CntPage) (reader : Nat) (s : State) : (opStats _r page reader s).1.core = s.core := by
  simp [opStats, totalsGiven]
@[simp] theorem batched_core (cs : List StbChange) (s : State) : (batched cs s).core = s.core := core_of_only (ps := [.sw]) (by simp) (by decide)
theorem putAtOrPlace_core {stream : Bool} {key : BitVec 128} {c : StbChange} {idx : Option Nat} {n i : Nat} {s t : State}
    (h : putAtOrPlace stream key c idx n s = .inr (i, t)) : t.core = s.core := by
  unfold putAtOrPlace at h
  repeat' split at h
  all_goals cases h
  all_goals simp
theorem putItem_core {x : StbPutItem} {n i : Nat} {s t : State} (h : putItem x n s = .inr (i, t)) : t.core = s.core := by
  unfold putItem at h
  repeat' split at h
  all_goals first | exact putAtOrPlace_core h | cases h
  all_goals simp
theorem putItems_core {l : List StbPutItem} {n : Nat} {is js : List Nat} {s t : State} (h : putItems l n is s = .inr (js, t)) : t.core = s.core := by
  induction l generalizing n is s with
  | nil => cases h; rfl
  | cons x l ih =>
    unfold putItems at h
    split at h
    · contradiction
    next hx => rw [ih h, putItem_core hx]
@[simp] theorem opStbPut_core (_r : Req) (changes : List StbPutItem) (s : State) : (opStbPut _r changes s).1.core = s.core := by
  unfold opStbPut
  split
  · rfl
  · split
    · rfl
    · split
      · rfl
      next h => simp [putItems_core h]
@[simp] theorem opStbRead_core (_r : Req) (bitmap : Bool) (idx : Nat) (s : State) : (opStbRead _r bitmap idx s).1.core = s.core := by simp [opStbRead]
@[simp] theorem opLearnPolicy_core (_r : Req) (port kind : Nat) (ports : BitVec 8) (s : State) :
    (opLearnPolicy _r port kind ports s).1.core = s.core := by simp [opLearnPolicy]
theorem admitLearned_core (e : StreamEntry) (s : State) {i : Nat} {t : State} (h : admitLearned e s = .inr (i, t)) : t.core = s.core := by
  unfold admitLearned at h
  split at h
  · contradiction
  · dsimp only at h
    split at h
    · contradiction
    · cases h
      simp
@[simp] theorem opLearnAnswer_core (_r : Req) (id : Nat) (accept : Bool) (entry : StreamEntry) (s : State) :
    (opLearnAnswer _r id accept entry s).1.core = s.core := by
  unfold opLearnAnswer
  split
  · rfl
  · split
    · simp
    · split
      · rfl
      · split
        · rfl
        next h => simp [admitLearned_core _ _ h]
@[simp] theorem opLearnRead_core (_r : Req) (id : Nat) (s : State) : (opLearnRead _r id s).1.core = s.core := by
  unfold opLearnRead
  split <;> simp
@[simp] theorem opPortConfig_core (_r : Req) (port : Nat) (ctl vlan pcpMap : BitVec 32) (maxFrame : Nat) (s : State) :
    (opPortConfig _r port ctl vlan pcpMap maxFrame s).1.core = s.core := by simp [opPortConfig]
@[simp] theorem opPortBypass_core (_r : Req) (force : Nat) (s : State) : (opPortBypass _r force s).1.core = s.core := by simp [opPortBypass]
@[simp] theorem opSwitchConfig_core (_r : Req) (c : SwitchCfg) (s : State) : (opSwitchConfig _r c s).1.core = s.core := by
  simp [opSwitchConfig, writeSwitchCfg]
@[simp] theorem opMirrorSession_core (_r : Req) (n : Nat) (ctl : BitVec 32) (s : State) : (opMirrorSession _r n ctl s).1.core = s.core := by
  simp [opMirrorSession]
@[simp] theorem opHostRxring_core (_r : Req) (ring addr size bufLen : Nat) (s : State) :
    (opHostRxring _r ring addr size bufLen s).1.core = s.core := by simp [opHostRxring]
@[simp] theorem batchUsed_core (g : Nat) (s : State) : (batchUsed g s).core = s.core := core_of_only (ps := [.sce]) (by simp) (by decide)
@[simp] theorem opGroupRead_core (_r : Req) (g : Nat) (s : State) : (opGroupRead _r g s).1.core = s.core := by simp [opGroupRead]
@[simp] theorem opPresetChange_core (_r : Req) (g preset : Nat) (s : State) : (opPresetChange _r g preset s).1.core = s.core := by
  simp only [opPresetChange]
  repeat' split
  all_goals simp
@[simp] theorem opPresetRead_core (_r : Req) (preset : Nat) (s : State) : (opPresetRead _r preset s).1.core = s.core := by simp [opPresetRead]
@[simp] theorem opSubscribe_core (_r : Req) (g pos : Nat) (sub : Option (Nat × Nat × Nat)) (s : State) :
    (opSubscribe _r g pos sub s).1.core = s.core := by
  simp only [opSubscribe]
  repeat' split
  all_goals simp
@[simp] theorem opRingRegister_core (r : Req) (ring addr slots words : Nat) (s : State) :
    (opRingRegister r ring addr slots words s).1.core = s.core := by simp [opRingRegister, revalidate]
@[simp] theorem writeSceCtl_core (v : BitVec 32) (s : State) : (writeSceCtl v s).core = s.core := core_of_only (ps := [.sce]) (by simp) (by decide)
@[simp] theorem opSceConfig_core (_r : Req) (ctl : BitVec 32) (s : State) : (opSceConfig _r ctl s).1.core = s.core := by simp [opSceConfig]
@[simp] theorem opTimeStatus_core (_r : Req) (s : State) : (opTimeStatus _r s).1.core = s.core := by simp [opTimeStatus]
@[simp] theorem opTimeConfig_core (_r : Req) (c : TimeCfg) (s : State) : (opTimeConfig _r c s).1.core = s.core := by simp [opTimeConfig, writeTimeCfg]
@[simp] theorem opRefSwitch_core (_r : Req) (dom : Nat) (s : State) : (opRefSwitch _r dom s).1.core = s.core := by simp [opRefSwitch]
@[simp] theorem opTrgAlloc_core (r : Req) (owner : Option Nat) (s : State) : (opTrgAlloc r owner s).1.core = s.core := by
  simp only [opTrgAlloc]
  repeat' split
  all_goals simp
@[simp] theorem opTrgProgram_core (r : Req) (k time period : Nat) (periodic : Bool) (dest : BitVec 4) (en : Bool) (s : State) :
    (opTrgProgram r k time period periodic dest en s).1.core = s.core := by simp [opTrgProgram]
@[simp] theorem opTrgFree_core (r : Req) (k : Nat) (s : State) : (opTrgFree r k s).1.core = s.core := by simp [opTrgFree]
@[simp] theorem opStampRing_core (r : Req) (addr slots : Nat) (s : State) : (opStampRing r addr slots s).1.core = s.core := by simp [opStampRing]
@[simp] theorem opPpsConfig_core (_r : Req) (en gate : Bool) (width : Nat) (s : State) : (opPpsConfig _r en gate width s).1.core = s.core := by
  simp [opPpsConfig]
@[simp] theorem opStreamSet_core (_r : Req) (n : Nat) (desc : AcqStream) (s : State) : (opStreamSet _r n desc s).1.core = s.core := by
  simp only [opStreamSet]
  repeat' split
  all_goals simp
@[simp] theorem acqBits_core (x : AcqStream) (s : State) : (acqBits x s).core = s.core := by
  refine foldl_core _ _ (fun t y => ?_) s
  split
  · split <;> simp
  · simp
@[simp] theorem acqDisable_core (n : Nat) (s : State) : (acqDisable n s).core = s.core := by simp [acqDisable]
@[simp] theorem opStreamEn_core (_r : Req) (n en : Nat) (s : State) : (opStreamEn _r n en s).1.core = s.core := by
  simp only [opStreamEn]
  repeat' split
  all_goals simp
@[simp] theorem acqRestart_core (n : Nat) (s : State) : (acqRestart n s).core = s.core := core_of_only (ps := [.acq]) (by simp) (by decide)
@[simp] theorem opStreamRestart_core (_r : Req) (n : Nat) (s : State) : (opStreamRestart _r n s).1.core = s.core := by simp [opStreamRestart]
@[simp] theorem opTrigger_core (r : Req) (mask : BitVec 4) (code : Nat) (s : State) : (opTrigger r mask code s).1.core = s.core := by simp [opTrigger]
@[simp] theorem opAcqConfig_core (_r : Req) (ctl : BitVec 32) (s : State) : (opAcqConfig _r ctl s).1.core = s.core := by simp [opAcqConfig]
@[simp] theorem opStreamRead_core (_r : Req) (n : Nat) (s : State) : (opStreamRead _r n s).1.core = s.core := by simp [opStreamRead]
@[simp] theorem opPairStatus_core (_r : Req) (s : State) : (opPairStatus _r s).1.core = s.core := by simp [opPairStatus]
@[simp] theorem opSetClaim_core (_r : Req) (claim : BitVec 32) (s : State) : (opSetClaim _r claim s).1.core = s.core := by simp [opSetClaim]
@[simp] theorem writePairCfg_core (cguCtl : BitVec 32) (cguMem : BitVec 32) (ocuCtl : BitVec 32) (mlkCtl : BitVec 32) (s : State) :
    (writePairCfg cguCtl cguMem ocuCtl mlkCtl s).core = s.core := by simp [writePairCfg]
@[simp] theorem opPairConfig_core (_r : Req) (cguC cguMem ocuC mlkC : BitVec 32) (s : State) :
    (opPairConfig _r cguC cguMem ocuC mlkC s).1.core = s.core := by
  refine holdGuard_core _ _ fun t => ?_
  simp only [core_ite_fst]
  repeat' split
  all_goals simp
@[simp] theorem switchRefused_core (h n : Nat) (s : State) : (switchRefused h n s).core = s.core := by simp [switchRefused]
@[simp] theorem switchTakes_core (h : Nat) (s : State) : (switchTakes h s).core = s.core := by simp [switchTakes]
@[simp] theorem opClearTakeBlock_core (_r : Req) (s : State) : (opClearTakeBlock _r s).1.core = s.core := by simp [opClearTakeBlock]
@[simp] theorem returnStandby_core (s : State) : (returnStandby s).core = s.core := by simp [returnStandby]
@[simp] theorem opReturnStandby_core (_r : Req) (s : State) : (opReturnStandby _r s).1.core = s.core := by simp [opReturnStandby]
@[simp] theorem opGoOut_core (_r : Req) (s : State) : (opGoOut _r s).1.core = s.core := by simp [opGoOut]
@[simp] theorem opTripAssign_core (_r : Req) (output : Nat) (inst : Option Nat) (s : State) : (opTripAssign _r output inst s).1.core = s.core := by
  simp [opTripAssign, assignTrip]
@[simp] theorem kcvOr_core (n : Nat) (a : KeyArgs) (s : State) : (kcvOr n a s).1.core = s.core := by simp [kcvOr, attrKept]
@[simp] theorem opKeyLoad_core (_r : Req) (slot : Nat) (value : BitVec 256) (a : KeyArgs) (s : State) :
    (opKeyLoad _r slot value a s).1.core = s.core := by simp [opKeyLoad]
@[simp] theorem opKeyGenerate_core (_r : Req) (slot : Nat) (a : KeyArgs) (s : State) : (opKeyGenerate _r slot a s).1.core = s.core := by
  simp [opKeyGenerate]
@[simp] theorem opKeyDerive_core (r : Req) (slot : Nat) (parent : Option Nat) (a : KeyArgs) (label context : List Byte) (s : State) :
    (opKeyDerive r slot parent a label context s).1.core = s.core := by simp [opKeyDerive]
@[simp] theorem opKeyErase_core (r : Req) (slot : Nat) (s : State) : (opKeyErase r slot s).1.core = s.core := by simp [opKeyErase]
@[simp] theorem opKeyAttrRead_core (r : Req) (slot : Nat) (s : State) : (opKeyAttrRead r slot s).1.core = s.core := by simp [opKeyAttrRead]
@[simp] theorem assignSlot_core (n : Nat) (byMgp : Bool) (owner gen : Nat) (s : State) : (assignSlot n byMgp owner gen s).core = s.core := by
  simp [assignSlot]
@[simp] theorem opKeyAssign_core (_r : Req) (slot : Nat) (byMgp : Bool) (owner gen : Nat) (s : State) :
    (opKeyAssign _r slot byMgp owner gen s).1.core = s.core := by simp [opKeyAssign]
@[simp] theorem opKeyAttrWrite_core (_r : Req) (slot : Nat) (a : KeyArgs) (lock derivable : Bool) (s : State) :
    (opKeyAttrWrite _r slot a lock derivable s).1.core = s.core := by simp [opKeyAttrWrite]
@[simp] theorem opVerifyEntry_core (_r : Req) (n : Nat) (e : VerEntry) (s : State) : (opVerifyEntry _r n e s).1.core = s.core := by
  simp [opVerifyEntry]
@[simp] theorem opVerifyEnable_core (_r : Req) (en : Nat) (s : State) : (opVerifyEnable _r en s).1.core = s.core := by simp [opVerifyEnable]
@[simp] theorem opFaultRead_core (_r : Req) (block : BlockId) (unit : Nat) (s : State) : (opFaultRead _r block unit s).1.core = s.core := by
  simp [opFaultRead]
@[simp] theorem opFaultCounts_core (_r : Req) (reader : Nat) (s : State) : (opFaultCounts _r reader s).1.core = s.core := by simp [opFaultCounts]
@[simp] theorem injRefuse_core (st : Status) (b : BlockId) (u : Nat) (s : State) : (injRefuse st b u s).1.core = s.core :=
  core_of_only (ps := []) (by simp) (by decide)
@[simp] theorem opInject_core (_r : Req) (block : BlockId) (unit : Nat) (arm : Bool) (kind : Nat) (mode : Bool) (pos : Nat)
    (pattern : BitVec 8) (force : Bool) (s : State) : (opInject _r block unit arm kind mode pos pattern force s).1.core = s.core := by
  simp only [opInject]
  repeat' split
  all_goals simp
@[simp] theorem opCapture_core (_r : Req) (block : BlockId) (unit : Nat) (latch re : Bool) (s : State) :
    (opCapture _r block unit latch re s).1.core = s.core := by simp [opCapture]
@[simp] theorem opSetQuiet_core (_r : Req) (block : BlockId) (unit n : Nat) (s : State) : (opSetQuiet _r block unit n s).1.core = s.core := by
  simp [opSetQuiet]
@[simp] theorem opBucketSet_core (_r : Req) (code mode burst intervalUs : Nat) (s : State) :
    (opBucketSet _r code mode burst intervalUs s).1.core = s.core := by simp [opBucketSet]
@[simp] theorem opCursor2_core (_r : Req) (alloc : Nat) (s : State) : (opCursor2 _r alloc s).1.core = s.core := by simp [opCursor2, takeCursor2]
@[simp] theorem opCodeCatalogue_core (_r : Req) (first count : Nat) (s : State) : (opCodeCatalogue _r first count s).1.core = s.core := by
  simp [opCodeCatalogue]
@[simp] theorem postOwn_core (who : Master) (code : Nat) (detail : List Byte) (s : State) : (postOwn who code detail s).core = s.core := by
  unfold postOwn
  split <;> simp
@[simp] theorem writerDrains_core (x0 : Nat) (x1 : State) : (writerDrains x0 x1).core = x1.core := core_of_only (ps := [.evr]) (by simp) (by decide)
@[simp] theorem writeOwn_core (who : Master) (code : Nat) (detail : List Byte) (s : State) : (writeOwn who code detail s).2.core = s.core := by
  simp [writeOwn]
@[simp] theorem opWriteRecord_core (r : Req) (code : Nat) (detail : List Byte) (s : State) : (opWriteRecord r code detail s).1.core = s.core := by
  simp [opWriteRecord]
@[simp] theorem opEvrConfig_core (_r : Req) (limitEn saveEn : Bool) (s : State) : (opEvrConfig _r limitEn saveEn s).1.core = s.core := by
  simp [opEvrConfig]
@[simp] theorem opBkiWrite_core (_r : Req) (ctl : BitVec 32) (slots : List (Nat × ElemSlot)) (s : State) :
    (opBkiWrite _r ctl slots s).1.core = s.core := by simp [opBkiWrite]
@[simp] theorem opBkiCommit_core (_r : Req) (s : State) : (opBkiCommit _r s).1.core = s.core := by simp [opBkiCommit]
@[simp] theorem opBkiRead_core (_r : Req) (s : State) : (opBkiRead _r s).1.core = s.core := by simp [opBkiRead]
@[simp] theorem opCalConfig_core (_r : Req) (ctl : BitVec 32) (s : State) : (opCalConfig _r ctl s).1.core = s.core := by simp [opCalConfig]
@[simp] theorem seasonFor_core (x : SeasonKind) (h : Nat) (s : State) : (seasonFor x h s).core = s.core := by simp [seasonFor]
@[simp] theorem opWakeConfig_core (_r : Req) (en : BitVec 3) (timerS : Nat) (pattern : List Byte) (s : State) :
    (opWakeConfig _r en timerS pattern s).1.core = s.core := by simp [opWakeConfig]
@[simp] theorem opLoopConfig_core (_r : Req) (mask : BitVec 8) (loop volt : BitVec 32) (fabric : Nat) (s : State) :
    (opLoopConfig _r mask loop volt fabric s).1.core = s.core := by simp [opLoopConfig]
@[simp] theorem freeList_core (n : Nat) (s : State) : (freeList n s).2.core = s.core := by
  induction n generalizing s with
  | zero => rfl
  | succ n ih => simp [freeList, ih]
@[simp] theorem opPowerStatus_core (_r : Req) (s : State) : (opPowerStatus _r s).1.core = s.core := by simp [opPowerStatus]
theorem execCounterSnapshot_keeps (page : CntPage) (s : State) : KeepsOut s (execCounterSnapshot page s) := by simp [execCounterSnapshot]
@[simp] theorem prtWrite_core (u o : Nat) (v : BitVec 32) (s : State) : (prtWrite u o v s).core = s.core := by simp [prtWrite]
@[simp] theorem swWrite_core (o : Nat) (v : BitVec 32) (s : State) : (swWrite o v s).core = s.core := by simp [swWrite]
@[simp] theorem pscWrite_core (u o : Nat) (v : BitVec 32) (s : State) : (pscWrite u o v s).core = s.core :=
  core_of_only (ps := [.sched]) (by simp) (by decide)
@[simp] theorem pmcWrite_core (o : Nat) (v : BitVec 32) (s : State) : (pmcWrite o v s).core = s.core :=
  core_of_only (ps := [.sched]) (by simp) (by decide)
@[simp] theorem cguWrite_core (o : Nat) (v : BitVec 32) (s : State) : (cguWrite o v s).core = s.core := by simp [cguWrite]
@[simp] theorem ocuWrite_core (o : Nat) (v : BitVec 32) (s : State) : (ocuWrite o v s).core = s.core :=
  core_of_only (ps := [.ocu]) (by simp) (by decide)
@[simp] theorem mlkWrite_core (o : Nat) (v : BitVec 32) (s : State) : (mlkWrite o v s).core = s.core :=
  core_of_only (ps := [.mlk]) (by simp) (by decide)
@[simp] theorem acqWrite_core (o : Nat) (v : BitVec 32) (s : State) : (acqWrite o v s).core = s.core := by
  simp [acqWrite, writeStreamEn, writeStreamWord]
@[simp] theorem bkiWrite_core (o : Nat) (v : BitVec 32) (s : State) : (bkiWrite o v s).core = s.core := by
  simp [bkiWrite, writeElemWord, writeBkiWord]
@[simp] theorem evrWrite_core (o : Nat) (v : BitVec 32) (s : State) : (evrWrite o v s).core = s.core :=
  core_of_only (ps := [.evr]) (by simp) (by decide)
@[simp] theorem ksuWrite_core (o : Nat) (v : BitVec 32) (s : State) : (ksuWrite o v s).core = s.core := by
  simp [ksuWrite, writeVerWord, writeRecordWord, writeKdfLen]
@[simp] theorem lckWrite_core (o : Nat) (v : BitVec 32) (s : State) : (lckWrite o v s).core = s.core := by simp [lckWrite]
@[simp] theorem arbWrite_core (u o : Nat) (v : BitVec 32) (s : State) : (arbWrite u o v s).core = s.core :=
  core_of_only (ps := [.fab]) (by simp) (by decide)
@[simp] theorem fltWrite_core (b : BlockId) (u o : Nat) (v : BitVec 32) (s : State) : (fltWrite b u o v s).core = s.core := by
  simp [fltWrite, writeFltCtl]
@[simp] theorem msixWrite_core (k j : Nat) (v : BitVec 32) (s : State) : (msixWrite k j v s).core = s.core := by
  simp only [msixWrite]
  repeat' split
  all_goals simp
@[simp] theorem bar0Access_core (o : Nat) (be : BitVec 4) (v : BitVec 32) (s : State) : (bar0Access o be v s).core = s.core := by
  simp [bar0Access, pairWrite, bar0Write, slotWrite64]
@[simp] theorem bar0Write64_core (o : Nat) (lo : BitVec 32) (hi : BitVec 32) (s : State) : (bar0Write64 o lo hi s).core = s.core := by
  simp [bar0Write64]
@[simp] theorem pciWrite_core (r : PciReg) (v : BitVec 32) (s : State) : (pciWrite r v s).core = s.core := by simp [pciWrite]
@[simp] theorem pageCleared_core (b : BlockId) (u o : Nat) (s : State) : (pageCleared b u o s).core = s.core :=
  core_of_only (ps := [.fab, .sce, .sched, .time, .acq, .evr]) (by simp) (by decide)
@[simp] theorem bar0Cleared_core (o : Nat) (s : State) : (bar0Cleared o s).core = s.core := by simp [bar0Cleared]
@[simp] theorem given_core (v : Nat) (s : State) : (given v s).core = s.core := core_of_only (ps := [.fab]) (by simp) (by decide)
theorem execRcRead_keeps (reg : RegAddr) (s : State) : KeepsOut s (execRcRead reg s) := by
  unfold execRcRead
  split <;> simp
theorem execLatchingRead_keeps (reg : LatchReg) (s : State) : KeepsOut s (execLatchingRead reg s) := by
  unfold execLatchingRead
  split <;> simp
@[simp] theorem lineTaken_core (s : State) : (lineTaken s).core = s.core := core_of_only (ps := [.mon]) (by simp) (by decide)
@[simp] theorem finalLine_core (e : MonEnd) (s : State) : (finalLine e s).core = s.core := by
  simp only [finalLine]
  repeat' split
  all_goals simp
@[simp] theorem printAll_core (lines : List (List Nat)) (s : State) : (printAll lines s).core = s.core := by simp [printAll]
@[simp] theorem monRun_keeps (f : State → State × MonEnd) (s : State) (hf : ∀ t, (f t).1.core = t.core) : KeepsOut s (monRun f s) := by
  simp [monRun, hf]
theorem execMonHelp_keeps (s : State) : KeepsOut s (execMonHelp s) := by simp [execMonHelp]
@[simp] theorem monRead_core (v : State × Ans) : (monRead v).1.core = v.1.core := by
  unfold monRead
  split <;> simp
theorem execMonId_keeps (s : State) : KeepsOut s (execMonId s) := by simp [execMonId]
theorem execMonStatus_keeps (s : State) : KeepsOut s (execMonStatus s) := by simp [execMonStatus]
theorem execMonTime_keeps (s : State) : KeepsOut s (execMonTime s) := by simp [execMonTime]
theorem execMonFaults_keeps (s : State) : KeepsOut s (execMonFaults s) := by simp [execMonFaults]
theorem execMonFault_keeps (block : BlockId) (unit : Nat) (s : State) : KeepsOut s (execMonFault block unit s) := by simp [execMonFault]
theorem execMonStats_keeps (page : CntPage) (s : State) : KeepsOut s (execMonStats page s) := by simp [execMonStats]
theorem execMonInst_keeps (inst : Nat) (s : State) : KeepsOut s (execMonInst inst s) := by
  refine monRun_keeps _ _ fun t => ?_
  dsimp only
  split <;> simp
theorem execMonEvr_keeps (n : Option Nat) (s : State) : KeepsOut s (execMonEvr n s) := by simp [execMonEvr, printRecords, lappedLine, monEvr]
theorem execMonPeek_keeps (block : BlockId) (unit off count : Nat) (s : State) : KeepsOut s (execMonPeek block unit off count s) := by
  simp [execMonPeek, monPeek]
@[simp] theorem issue_core (s : State) : (issue s).core = s.core := by simp [issue]
@[simp] theorem monUnlock_core (devEn : Bool) (s : State) : (monUnlock devEn s).1.core = s.core := by
  simp only [monUnlock]
  repeat' split
  all_goals simp
theorem execMonUnlock_keeps (devEn : Bool) (s : State) : KeepsOut s (execMonUnlock devEn s) := by simp [execMonUnlock]
@[simp] theorem attempt_core (ok : Bool) (s : State) : (attempt ok s).core = s.core := by simp [attempt]
@[simp] theorem monResp_core (response : BitVec 64) (s : State) : (monResp response s).1.core = s.core := by
  unfold monResp
  split <;> simp
theorem execMonResp_keeps (response : BitVec 64) (s : State) : KeepsOut s (execMonResp response s) := by simp [execMonResp]
@[simp] theorem relock_core (s : State) : (relock s).core = s.core := core_of_only (ps := [.mon]) (by simp) (by decide)
theorem execMonLock_keeps (s : State) : KeepsOut s (execMonLock s) := by simp [execMonLock]
theorem execMonIdleRelock_keeps (s : State) : KeepsOut s (execMonIdleRelock s) := by simp [execMonIdleRelock]
theorem execDevEnLow_keeps (s : State) : KeepsOut s (execDevEnLow s) := by simp [execDevEnLow]
theorem execChallengeExpiry_keeps (s : State) : KeepsOut s (execChallengeExpiry s) := by simp [execChallengeExpiry]
theorem execMonBaud_keeps (rate : Nat) (s : State) : KeepsOut s (execMonBaud rate s) := by simp [execMonBaud, monBaud]
theorem execBaudRevert_keeps (s : State) : KeepsOut s (execBaudRevert s) := by
  unfold execBaudRevert
  split <;> simp
theorem execMonLineRefused_keeps (tooLong : Bool) (s : State) : KeepsOut s (execMonLineRefused tooLong s) := by simp [execMonLineRefused]
theorem execModResetRelease_keeps (s : State) : KeepsOut s (execModResetRelease s) := by simp [execModResetRelease]
theorem execPerstN_keeps (low : Bool) (s : State) : KeepsOut s (execPerstN low s) := by simp [execPerstN, bar0Reset]
theorem execRailOutOfBand_keeps (rail : Rail) (us : Nat) (s : State) : KeepsOut s (execRailOutOfBand rail us s) := by simp [execRailOutOfBand]
theorem execRailInBand_keeps (rail : Rail) (s : State) : KeepsOut s (execRailInBand rail s) := by
  simp only [execRailInBand, keepsOut_next]
  repeat' split
  all_goals simp
theorem execIdleTick_keeps (s : State) : KeepsOut s (execIdleTick s) := by simp [execIdleTick]
theorem execIdleEntryRemove_keeps (idx : Nat) (s : State) : KeepsOut s (execIdleEntryRemove idx s) := by simp [execIdleEntryRemove, idleEvent]
theorem execEntryChangeApply_keeps (s : State) : KeepsOut s (execEntryChangeApply s) := by simp [execEntryChangeApply]
theorem execEntryHoldoffEnd_keeps (idx : Nat) (s : State) : KeepsOut s (execEntryHoldoffEnd idx s) := by simp [execEntryHoldoffEnd, verForget]
theorem execRateCheck_keeps (s : State) : KeepsOut s (execRateCheck s) := by simp [execRateCheck, restoreInvalid]
theorem execSupervisionSend_keeps (s : State) : KeepsOut s (execSupervisionSend s) := by
  unfold execSupervisionSend
  rw [keepsOut_next]
  split
  · rw [whenDue_core]
    · exact .refl _
    · intro t
      simp only [core_ite, mgpSend_core, State.modSw_core, ite_self]
  · exact .refl _
theorem execNodeForget_keeps (mac : BitVec 48) (s : State) : KeepsOut s (execNodeForget mac s) := by
  unfold execNodeForget
  split <;> simp
@[simp] theorem learnRefuse_core (r : LearnRec) (why : Nat) (s : State) : (learnRefuse r why s).core = s.core :=
  core_of_only (ps := [.sw, .bki, .evr]) (by simp) (by decide)
@[simp] theorem learnAnswered_core (r : LearnRec) (s : State) : (learnAnswered r s).core = s.core := by
  unfold learnAnswered
  dsimp only
  split
  · split
    · simp
    next h => exact admitLearned_core _ _ h
  · simp
theorem execLearnEvent_keeps (key : BitVec 128) (s : State) : KeepsOut s (execLearnEvent key s) := by
  unfold execLearnEvent
  split <;> simp
theorem execLearnRecordClose_keeps (key : BitVec 128) (s : State) : KeepsOut s (execLearnRecordClose key s) := by
  simp only [execLearnRecordClose, keepsOut_next]
  repeat' split
  all_goals simp
@[simp] theorem goodFrame_core (k : Nat) (f : List Byte) (s : State) : (goodFrame k f s).core = s.core :=
  core_of_only (ps := [.ports]) (by simp) (by decide)
@[simp] theorem macControl_core (k : Nat) (f : List Byte) (s : State) : (macControl k f s).core = s.core :=
  core_of_only (ps := [.ports]) (by simp) (by decide)
@[simp] theorem verifyFrame_core (i : Nat) (f : List Byte) (s : State) : (verifyFrame i f s).2.core = s.core := by
  simp only [verifyFrame]
  repeat' split
  all_goals simp
@[simp] theorem claimFilter_core (i : Nat) (f : List Byte) (s : State) : (claimFilter i f s).2.core = s.core :=
  core_of_only (ps := [.cgu]) (by simp) (by decide)
@[simp] theorem idSeen_core (f : List Byte) (s : State) : (idSeen f s).core = s.core := by
  unfold idSeen
  split <;> simp
@[simp] theorem streamStep_core (k i cls0 : Nat) (f : Stored) (s : State) : (streamStep k i cls0 f s).2.core = s.core := by simp [streamStep]
@[simp] theorem classify_core (k : Nat) (f : Stored) (s : State) : (classify k f s).2.core = s.core := by
  simp only [classify]
  repeat' split
  all_goals simp
@[simp] theorem switchFrame_core (k : Nat) (d : DupOut) (f : Stored) (s : State) : (switchFrame k d f s).core = s.core := by
  simp [switchFrame, storeCopies]
@[simp] theorem reservedFrame_core (k : Nat) (f : Stored) (s : State) : (reservedFrame k f s).core = s.core := by simp [reservedFrame]
@[simp] theorem ptpFrame_core (k : Nat) (d : DupOut) (f : Stored) (s : State) : (ptpFrame k d f s).core = s.core := by
  simp [ptpFrame, pdelayAnswer, ptpForward]
@[simp] theorem lineErrs_core (k : Nat) (e : LineErrs) (s : State) : (lineErrs k e s).core = s.core :=
  core_of_only (ps := [.ports]) (by simp) (by decide)
end Sys2Proof.Machine
end

section
/-!
PROOFS. Operations that write a byte memory, or start parts afresh: they keep the memories canonical and leave what manufacture has
fixed (`Core.Keeps`), in the order of the definitions, with the commands that use them.
-/
namespace Sys2Proof.Machine
open Sys2Proof

@[simp] theorem whenDue_keeps {c0 : Core} (d : Nat) (f : State → State) (s : State) (hf : ∀ t : State, t.core.Keeps (f t).core)
    (hk : c0.Keeps s.core) : c0.Keeps (whenDue d f s).core := by
  have h : (s.until d).core = s.core := core_of_only (ps := [.time]) (by simp) (by decide)
  unfold whenDue
  split
  · exact (h ▸ hk).trans (hf _)
  · exact hk
@[simp] theorem whenTb_keeps {c0 : Core} (n : Nat) (f : State → State) (s : State) (hf : ∀ t : State, t.core.Keeps (f t).core)
    (hk : c0.Keeps s.core) : c0.Keeps (whenTb n f s).core := by
  have h : (s.untilTb n).core = s.core := core_of_only (ps := [.time]) (by simp) (by decide)
  unfold whenTb
  split
  · exact (h ▸ hk).trans (hf _)
  · exact hk
@[simp] theorem pinLow_keeps {c0 : Core} (d : Nat) (f : State → State) (s : State) (hf : ∀ t : State, t.core.Keeps (f t).core)
    (hk : c0.Keeps s.core) : c0.Keeps (pinLow d f s).core := by
  unfold pinLow
  split
  · exact whenDue_keeps _ _ _ hf hk
  · exact hk.trans (hf _)
@[simp] theorem holdGuard_keeps {c0 : Core} (f : State → State × Ans) (s : State) (hf : ∀ t : State, t.core.Keeps (f t).1.core)
    (hk : c0.Keeps s.core) : c0.Keeps (holdGuard f s).1.core := by
  unfold holdGuard
  split
  · exact hk
  · exact hk.trans (hf _)
theorem foldl_write1_wf {α : Type} {m : Memory} (l : List α) (a : α → Nat) (b : α → Byte) (h : m.wf = true) :
    (l.foldl (fun m x => m.write1 (a x) (b x)) m).wf = true := by
  induction l generalizing m with
  | nil => exact h
  | cons x l ih => exact ih (Memory.wf_write1 _ _ h)
@[simp] theorem lsWrite_keeps {c0 : Core} (i addr : Nat) (octets : List Byte) (s : State) (hk : c0.Keeps s.core) :
    c0.Keeps (lsWrite i addr octets s).core := by
  unfold lsWrite
  dsimp only
  split
  · exact State.modInsts_keeps _ (by simpa using hk) (foldl_write1_wf _ _ _) id
  · exact hk
@[simp] theorem dramWrite_keeps {c0 : Core} (i addr : Nat) (octets : List Byte) (s : State) (hk : c0.Keeps s.core) :
    c0.Keeps (dramWrite i addr octets s).core := by
  unfold dramWrite
  dsimp only
  split
  · exact State.modInsts_keeps _ hk id (foldl_write1_wf _ _ _)
  · exact hk
@[simp] theorem deliverInst_keeps {c0 : Core} (v : Deliver) (s : State) (hk : c0.Keeps s.core) : c0.Keeps (deliverInst v s).core := by
  simp only [deliverInst]
  repeat' split
  all_goals simp [hk]
theorem foldl_write_wf {m : Memory} (l : List (Nat × List Byte)) (h : m.wf = true) : (l.foldl (fun m x => m.write x.1 x.2) m).wf = true := by
  induction l generalizing m with
  | nil => exact h
  | cons x l ih => exact ih (Memory.wf_write _ _ h)
@[simp] theorem deliverHost_keeps {c0 : Core} (v : Deliver) (s : State) (hk : c0.Keeps s.core) : c0.Keeps (deliverHost v s).core := by
  unfold deliverHost
  dsimp only
  split
  · have h := fun (f : Mbx → Tbl RxRing) (o : List (Nat × List Byte)) => State.modMbx_keeps (s := s)
      (fun b => { b with hostMem := o.foldl (fun m x => m.write x.1 x.2) b.hostMem, hostRings := f b }) hk (foldl_write_wf o) rfl rfl
    simp [h]
  · simp [hk]
@[simp] theorem ringWrite_keeps {c0 : Core} (i r : Nat) (mk : Nat → List Byte) (s : State) (hk : c0.Keeps s.core) :
    c0.Keeps (ringWrite i r mk s).core := by
  unfold ringWrite
  split <;> simp [hk]
@[simp] theorem sceEvent_keeps {c0 : Core} (g : Nat) (e : EventBody) (s : State) (hk : c0.Keeps s.core) : c0.Keeps (sceEvent g e s).core := by
  simp [sceEvent, hk]
@[simp] theorem groupEvent_keeps {c0 : Core} (g type smp synch : Nat) (s : State) (hk : c0.Keeps s.core) :
    c0.Keeps (groupEvent g type smp synch s).core := by simp [groupEvent, hk]
@[simp] theorem thrEvent_keeps {c0 : Core} (g n thr type smp : Nat) (t : Thr) (value : Int) (config : Bool) (s : State) (hk : c0.Keeps s.core) :
    c0.Keeps (thrEvent g n thr type smp t value config s).core := by simp [thrEvent, hk]
@[simp] theorem groupOutput_keeps {c0 : Core} (gn smp synch : Nat) (s : State) (hk : c0.Keeps s.core) :
    c0.Keeps (groupOutput gn smp synch s).core := by
  refine foldl_keeps _ _ ?_ fun t c => ?_
  · dsimp only
    split
    all_goals
      simp only [acqPass_core, State.setGroup_core]
      exact foldl_keeps _ _ (by simpa using hk) fun t x => by simp
  · dsimp only
    split <;> split <;> simp
@[simp] theorem groupPosition_keeps {c0 : Core} (gn : Nat) (ins : List (Int × BitVec 32)) (kind : PosKind) (smp ext synch req : Nat)
    (s : State) (hk : c0.Keeps s.core) : c0.Keeps (groupPosition gn ins kind smp ext synch req s).core := by simp [groupPosition, hk]
@[simp] theorem groupStart_keeps {c0 : Core} (gn : Nat) (ins : List (Int × BitVec 32)) (smp synch req : Nat) (s : State) (hk : c0.Keeps s.core) :
    c0.Keeps (groupStart gn ins smp synch req s).core := by simp [groupStart, hk]
@[simp] theorem groupAccept_keeps {c0 : Core} (gn : Nat) (ins : List (Int × BitVec 32)) (smp synch : Nat) (s : State) (hk : c0.Keeps s.core) :
    c0.Keeps (groupAccept gn ins smp synch s).core := by
  unfold groupAccept
  dsimp only
  split
  · simpa using hk
  · rw [State.setGroup_core]
    have hsynch : c0.Keeps (if ((s.group gn).synchKnown && (s.group gn).lastSynch != synch % 4) = true then groupEvent gn 5 smp (synch % 4) s else s).core := by
      split <;> simp [hk]
    revert hsynch
    generalize (if ((s.group gn).synchKnown && (s.group gn).lastSynch != synch % 4) = true then groupEvent gn 5 smp (synch % 4) s else s) = u
    intro hsynch
    split
    · simp [hsynch]
    · split
      · simp [hsynch]
      · split
        · refine groupPosition_keeps _ _ _ _ _ _ _ _ ?_
          rw [sceCount_core]
          exact foldl_keeps _ _ hsynch fun t j => by simp
        · simp [hsynch]
@[simp] theorem groupAsdu_keeps {c0 : Core} (gn : Nat) (first : List Byte) (a : Asdu) (s : State) (hk : c0.Keeps s.core) :
    c0.Keeps (groupAsdu gn first a s).core := by
  unfold groupAsdu
  dsimp only
  split <;> simp [hk]
@[simp] theorem beginReset_keeps {c0 : Core} (i : Nat) (removal clear : Bool) (h : Option Nat) (s : State) (hk : c0.Keeps s.core) :
    c0.Keeps (beginReset i removal clear h s).core := by simp [beginReset, hk]
theorem foldl_clear_wf {m : Memory} (l : List Nat) (a n : Nat) (h : m.wf = true) : (l.foldl (fun m g => m.clear (g * a) n) m).wf = true := by
  induction l generalizing m with
  | nil => exact h
  | cons x l ih => exact ih (Memory.wf_clear _ _ h)
@[simp] theorem clearLs_keeps {c0 : Core} (gs : List Nat) (s : State) (hk : c0.Keeps s.core) : c0.Keeps (clearLs gs s).core :=
  State.modInsts_keeps _ hk (foldl_clear_wf _ _ _) id
@[simp] theorem clearDram_keeps {c0 : Core} (gs : List Nat) (s : State) (hk : c0.Keeps s.core) : c0.Keeps (clearDram gs s).core :=
  State.modInsts_keeps _ hk id (foldl_clear_wf _ _ _)
@[simp] theorem resetEnds_keeps {c0 : Core} (i : Nat) (s : State) (hk : c0.Keeps s.core) : c0.Keeps (resetEnds i s).core := by
  have hclear : c0.Keeps (mapShares i (lapse i (clearLs (s.inst i).lsMap s))).core := by simp [hk]
  have himage : c0.Keeps (lsWrite i 0 (s.inst i).image (if (s.inst i).clearDram
      then clearDram ((mapShares i (lapse i (clearLs (s.inst i).lsMap s))).inst i).dramMap (mapShares i (lapse i (clearLs (s.inst i).lsMap s)))
      else mapShares i (lapse i (clearLs (s.inst i).lsMap s)))).core := by
    refine lsWrite_keeps _ _ _ _ ?_
    split
    · exact clearDram_keeps _ _ hclear
    · exact hclear
  unfold resetEnds
  dsimp only
  split <;> simp [himage]
@[simp] theorem creationEnds_keeps {c0 : Core} (c : Creation) (s : State) (hk : c0.Keeps s.core) : c0.Keeps (creationEnds c s).core := by
  simp [creationEnds, hk]
@[simp] theorem applySet_keeps {c0 : Core} (i : Nat) (set : MirSet) (s : State) (hk : c0.Keeps s.core) : c0.Keeps (applySet i set s).core := by
  simp [applySet, hk]
@[simp] theorem mirrorApply_keeps {c0 : Core} (i : Nat) (s : State) (hk : c0.Keeps s.core) : c0.Keeps (mirrorApply i s).core := by
  simp [mirrorApply, hk]
@[simp] theorem mirrorStep_keeps {c0 : Core} (k : Nat) (s : State) (hk : c0.Keeps s.core) : c0.Keeps (mirrorStep k s).core := by simp [mirrorStep, hk]
@[simp] theorem startFrame_keeps {c0 : Core} (k : Nat) (s : State) (hk : c0.Keeps s.core) : c0.Keeps (startFrame k s).core := by simp [startFrame, hk]
@[simp] theorem servoTakes_keeps {c0 : Core} (b : Bool) (raw : Int) (s : State) (hk : c0.Keeps s.core) : c0.Keeps (servoTakes b raw s).core := by
  simp [servoTakes, hk]
@[simp] theorem mainFresh_keeps {c0 : Core} (s : State) (hk : c0.Keeps s.core) : c0.Keeps (mainFresh s).core :=
  hk.trans ⟨fun ⟨_, _, h⟩ => ⟨rfl, rfl, h⟩, rfl, rfl, rfl⟩
@[simp] theorem winterEntry_keeps {c0 : Core} (mainLost : Bool) (s : State) (hk : c0.Keeps s.core) : c0.Keeps (winterEntry mainLost s).core := by
  cases mainLost <;> simp [winterEntry, hk]
@[simp] theorem modReset_keeps {c0 : Core} (s : State) (hk : c0.Keeps s.core) : c0.Keeps (modReset s).core := by
  simp only [modReset]
  repeat' split
  all_goals simp [hk]
@[simp] theorem resetDue_keeps {c0 : Core} (s : State) (hk : c0.Keeps s.core) : c0.Keeps (resetDue s).core := by simp [resetDue, hk]
@[simp] theorem winterSettles_keeps {c0 : Core} (s : State) (hk : c0.Keeps s.core) : c0.Keeps (winterSettles s).core := by
  simp only [winterSettles]
  repeat' split
  all_goals simp [hk]
@[simp] theorem powerOff_keeps {c0 : Core} (s : State) (hk : c0.Keeps s.core) : c0.Keeps (powerOff s).core := by
  have h : c0.Keeps (cutSave s).core := by simpa using hk
  exact h.trans ⟨fun ⟨_, _, h⟩ => ⟨rfl, rfl, h⟩, rfl, rfl, rfl⟩
@[simp] theorem aonStarts_keeps {c0 : Core} (imgOk : List Bool) (slotId : Nat) (s : State) (hk : c0.Keeps s.core) :
    c0.Keeps (aonStarts imgOk slotId s).core := by
  simp only [aonStarts, State.modBki_core, core_ite]
  split <;> simp [hk]
theorem execAonGood_keeps (aon : AonIn) (okB : Bool) (s : State) : KeepsOut s (execAonGood aon okB s) := by
  unfold execAonGood
  rw [keepsOut_next]
  split
  · simp
  · split
    · simp
    · exact aonStarts_keeps _ _ _ (.refl _)
theorem execAonLost_keeps (s : State) : KeepsOut s (execAonLost s) := by simp [execAonLost]
theorem execBkiThermalReset_keeps (temp : Int) (s : State) : KeepsOut s (execBkiThermalReset temp s) := by simp [execBkiThermalReset]
@[simp] theorem egComplete_keeps {c0 : Core} (i q : Nat) (e : EgQueue) (status tsSeq : Nat) (ts : Bool) (s : State) (hk : c0.Keeps s.core) :
    c0.Keeps (egComplete i q e status tsSeq ts s).core := by
  unfold egComplete
  dsimp only
  rw [State.modEg_core]
  refine lsWrite_keeps _ _ _ _ ?_
  rw [core_ite]
  split
  · exact lsWrite_keeps _ _ _ _ (lsWrite_keeps _ _ _ _ (lsWrite_keeps _ _ _ _ hk))
  · exact lsWrite_keeps _ _ _ _ (lsWrite_keeps _ _ _ _ hk)
theorem execEgressDescriptor_keeps (inst queue : Nat) (s : State) : KeepsOut s (execEgressDescriptor inst queue s) := by
  unfold execEgressDescriptor
  split <;> simp
@[simp] theorem CoreAcc.store_keeps {c0 : Core} (c : CoreAcc) (w : Window) (i p : Nat) (s : State) (hk : c0.Keeps s.core) :
    c0.Keeps (c.store w i p s).core := by
  unfold CoreAcc.store
  split
  · refine State.modInsts_keeps _ hk (fun h => ?_) fun h => ?_
    · split
      · exact h
      · exact Memory.wf_write _ _ h
    · split
      · exact Memory.wf_write _ _ h
      · exact h
  · split <;> simp [hk]
@[simp] theorem memDone_keeps {c0 : Core} (i g core : Nat) (c : CoreAcc) (w : Window) (s : State) (hk : c0.Keeps s.core) :
    c0.Keeps (memDone i g core c w s).core := by simp [memDone, hk]
@[simp] theorem memAccess_keeps {c0 : Core} (i g core : Nat) (c : CoreAcc) (w : Window) (s : State) (hk : c0.Keeps s.core) :
    c0.Keeps (memAccess i g core c w s).core := by simp [memAccess, hk]
@[simp] theorem parkedDone_keeps {c0 : Core} (o : PendingOp) (c : CoreAcc) (s : State) (hk : c0.Keeps s.core) : c0.Keeps (parkedDone o c s).core := by
  simp only [parkedDone]
  repeat' split
  all_goals simp [hk]
@[simp] theorem opCompletes_keeps {c0 : Core} (o : PendingOp) (s : State) (hk : c0.Keeps s.core) : c0.Keeps (opCompletes o s).core := by
  unfold opCompletes
  split <;> simp [hk]
@[simp] theorem crossingOpens_keeps {c0 : Core} (s : State) (hk : c0.Keeps s.core) : c0.Keeps (crossingOpens s).core := by simp [crossingOpens, hk]
theorem execLateCompletion_keeps (block : BlockId) (unit tag : Nat) (s : State) : KeepsOut s (execLateCompletion block unit tag s) := by
  unfold execLateCompletion
  split <;> simp
theorem execIslandClockRestart_keeps (island : Island) (s : State) : KeepsOut s (execIslandClockRestart island s) := by simp [execIslandClockRestart]
theorem execCoreAccess_keeps (core : Nat) (acc : CoreAcc) (s : State) : KeepsOut s (execCoreAccess core acc s) := by
  simp only [execCoreAccess, keepsOut_next]
  repeat' split
  all_goals simp
theorem execAutoReset_keeps (inst : Nat) (s : State) : KeepsOut s (execAutoReset inst s) := by simp [execAutoReset]
theorem execInstanceResetComplete_keeps (inst : Nat) (s : State) : KeepsOut s (execInstanceResetComplete inst s) := by
  simp [execInstanceResetComplete]
theorem execCreateComplete_keeps (inst : Nat) (s : State) : KeepsOut s (execCreateComplete inst s) := by
  unfold execCreateComplete
  split <;> simp
theorem execGranuleCleared_keeps (dram : Bool) (granule : Nat) (s : State) : KeepsOut s (execGranuleCleared dram granule s) := by
  simp [execGranuleCleared]
theorem execSaveEnd_keeps (s : State) : KeepsOut s (execSaveEnd s) := by simp [execSaveEnd]
@[simp] theorem bufWrite_keeps {c0 : Core} (x : ReqSrc) (addr : Nat) (octets : List Byte) (s : State) (hk : c0.Keeps s.core) :
    c0.Keeps (bufWrite x addr octets s).core := by
  unfold bufWrite
  split
  · split <;> simp [hk]
  · exact State.modMbx_keeps _ hk (Memory.wf_write _ _) rfl rfl
@[simp] theorem bufferResult_keeps {c0 : Core} (r : Req) (v : Resp) (s : State) (hk : c0.Keeps s.core) : c0.Keeps (bufferResult r v s).core := by
  unfold bufferResult
  split <;> simp [hk]
@[simp] theorem respond_keeps {c0 : Core} (r : Req) (v : Resp) (keep : Bool) (s : State) (hk : c0.Keeps s.core) :
    c0.Keeps (respond r v keep s).core := by
  simp only [respond]
  repeat' split
  all_goals simp [hk]
@[simp] theorem answerReq_keeps {c0 : Core} (r : Req) (v : Verdict) (hk : c0.Keeps v.st.core) : c0.Keeps (answerReq r v).core := by
  simp [answerReq, hk]
theorem judge_keeps {c0 : Core} (r : Req) (opcode : Nat) (sub : Subset) (need : Bool) (cache : List TagRec) (f : Req → State → State × Ans)
    (s : State) (hf : ∀ (r : Req) (t : State), t.core.Keeps (f r t).1.core) (hk : c0.Keeps s.core) : c0.Keeps (judge r opcode sub need cache f s).st.core := by
  have hact : c0.Keeps (f r.effective s).1.core := hk.trans (hf _ _)
  unfold judge
  dsimp only
  split
  · exact hk
  · split
    · split <;> exact hk
    · split
      · exact hk
      · split
        · simp [hact, hk]
        · exact hact
@[simp] theorem serveAs_keeps {c0 : Core} (r : Req) (opcode : Nat) (sub : Subset) (need : Bool) (f : Req → State → State × Ans) (s : State)
    (hf : ∀ (r : Req) (t : State), t.core.Keeps (f r t).1.core) (hk : c0.Keeps s.core) : c0.Keeps (serveAs r opcode sub need f s).core := by
  have hanswer (cache) : c0.Keeps (answerReq r (judge r opcode sub need cache f (take r s))).core :=
    answerReq_keeps _ _ (judge_keeps r opcode sub need cache f _ hf (by simpa using hk))
  unfold serveAs
  split
  · split
    · exact hanswer _
    · simp [hk]
  · exact hanswer _
  · exact hk
@[simp] theorem serve_keeps {c0 : Core} (r : Req) (opcode : Nat) (sub : Subset) (need : Bool) (f : Req → State → State × Ans) (s : State)
    (hf : ∀ (r : Req) (t : State), t.core.Keeps (f r t).1.core) (hk : c0.Keeps s.core) : c0.Keeps (serve r opcode sub need f s).core := by
  unfold serve
  repeat' split
  all_goals first | exact hk | exact serveAs_keeps _ _ _ _ _ _ hf hk
@[simp] theorem restoreInst_keeps {c0 : Core} (i : Nat) (d : Inst) (s : State) (hk : c0.Keeps s.core) : c0.Keeps (restoreInst i d s).core := by
  simp [restoreInst, hk]
@[simp] theorem applyConfig_keeps {c0 : Core} (c : Snapshot) (s : State) (hk : c0.Keeps s.core) : c0.Keeps (applyConfig c s).core := by
  simp [applyConfig, hk]
@[simp] theorem restoreConfig_keeps {c0 : Core} (s : State) (hk : c0.Keeps s.core) : c0.Keeps (restoreConfig s).core := by
  simp only [restoreConfig]
  repeat' split
  all_goals simp [hk]
@[simp] theorem coldDo_keeps {c0 : Core} (c : ColdIn) (n : Nat) (s : State) (hk : c0.Keeps s.core) : c0.Keeps (coldDo c n s).2.core := by
  unfold coldDo
  split <;> simp [hk]
@[simp] theorem coldRun_keeps {c0 : Core} (c : ColdIn) (l : List Nat) (s : State) (hk : c0.Keeps s.core) : c0.Keeps (coldRun c l s).core := by
  induction l generalizing s with
  | nil => exact hk
  | cons n l ih =>
    unfold coldRun
    split
    · split
      · exact ih _ (by simp [hk])
      · simp [hk]
    · exact ih _ hk
@[simp] theorem coldGo_keeps {c0 : Core} (c : ColdIn) (s : State) (hk : c0.Keeps s.core) : c0.Keeps (coldGo c s).core := by simp [coldGo, hk]
@[simp] theorem restartPairs_keeps {c0 : Core} (s : State) (hk : c0.Keeps s.core) : c0.Keeps (restartPairs s).core := by simp [restartPairs, hk]
@[simp] theorem runHeld_keeps {c0 : Core} (r : Replace) (s : State) (hk : c0.Keeps s.core) : c0.Keeps (runHeld r s).core := by
  simp only [runHeld]
  repeat' split
  all_goals simp [hk]
@[simp] theorem restartOps_keeps {c0 : Core} (s : State) (hk : c0.Keeps s.core) : c0.Keeps (restartOps s).core := by simp [restartOps, hk]
@[simp] theorem restartSteps_keeps {c0 : Core} (s : State) (hk : c0.Keeps s.core) : c0.Keeps (restartSteps s).core := by
  unfold restartSteps
  dsimp only
  rw [mgpStarted_core]
  refine restartOps_keeps _ (restartPairs_keeps _ ?_)
  split <;> simp [hk]
@[simp] theorem coldResume_keeps {c0 : Core} (c : ColdIn) (s : State) (hk : c0.Keeps s.core) : c0.Keeps (coldResume c s).core := by
  simp [coldResume, hk]
theorem execSyncMessage_keeps (port : Nat) (m : SyncMsg) (s : State) : KeepsOut s (execSyncMessage port m s) := by simp [execSyncMessage]
theorem execStampDeliver_keeps (s : State) : KeepsOut s (execStampDeliver s) := by
  unfold execStampDeliver
  split <;> simp
theorem execFrameStart_keeps (cluster : Nat) (s : State) : KeepsOut s (execFrameStart cluster s) := by
  unfold execFrameStart
  rw [keepsOut_next]
  repeat' split
  · refine whenDue_keeps _ _ _ (fun t => ?_) (.refl _)
    split <;> simp
  · simp
  · simp
  · simp
theorem execRxRingDeliver_keeps (host : Bool) (s : State) : KeepsOut s (execRxRingDeliver host s) := by
  simp only [execRxRingDeliver, keepsOut_next]
  repeat' split
  all_goals simp
theorem execGetIdentity_keeps (r : Req) (s : State) : KeepsOut s (execGetIdentity r s) := by simp [execGetIdentity]
theorem execGetStatus_keeps (r : Req) (s : State) : KeepsOut s (execGetStatus r s) := by simp [execGetStatus]
theorem execOpStatus_keeps (r : Req) (handle : Nat) (s : State) : KeepsOut s (execOpStatus r handle s) := by simp [execOpStatus]
theorem execEcho_keeps (r : Req) (octets : List Nat) (s : State) : KeepsOut s (execEcho r octets s) := by simp [execEcho]
theorem execArbRead_keeps (r : Req) (arb : Nat) (s : State) : KeepsOut s (execArbRead r arb s) := by simp [execArbRead]
theorem execArbPrio_keeps (r : Req) (arb idx prio : Nat) (s : State) : KeepsOut s (execArbPrio r arb idx prio s) := by simp [execArbPrio]
theorem execArbMode_keeps (r : Req) (mode : Nat) (s : State) : KeepsOut s (execArbMode r mode s) := by simp [execArbMode]
@[simp] theorem longNow_keeps {c0 : Core} (r : Req) (opcode : Nat) (f : State → State) (s : State) (hf : ∀ t : State, t.core.Keeps (f t).core)
    (hk : c0.Keeps s.core) : c0.Keeps (longNow r opcode f s).1.core := by
  have h : (startLong r opcode 0 s).core.Keeps (f (startLong r opcode 0 s)).core := hf _
  rw [startLong_core] at h
  simpa [longNow] using hk.trans h
@[simp] theorem opService_keeps {c0 : Core} (r : Req) (declare : Nat) (s : State) (hk : c0.Keeps s.core) :
    c0.Keeps (opService r declare s).1.core := by
  simp only [opService]
  repeat' split
  all_goals simp [hk]
theorem execService_keeps (r : Req) (declare : Nat) (s : State) : KeepsOut s (execService r declare s) := by simp [execService]
theorem execColdStart_keeps (c : ColdIn) (s : State) : KeepsOut s (execColdStart c s) := by
  unfold execColdStart
  rw [keepsOut_next]
  split
  · refine whenDue_keeps _ _ _ (fun t => ?_) (.refl _)
    split <;> simp
  · simp
theorem execMgpFirmwareStart_keeps (s : State) : KeepsOut s (execMgpFirmwareStart s) := by simp [execMgpFirmwareStart]
theorem execImageCopyComplete_keeps (inst : Nat) (s : State) : KeepsOut s (execImageCopyComplete inst s) := by
  unfold execImageCopyComplete
  split <;> simp
@[simp] theorem opCreate_keeps {c0 : Core} (r : Req) (num : Nat) (mac : BitVec 48) (auto : Bool) (share : Shares) (allow : List Allow)
    (image : Image) (s : State) (hk : c0.Keeps s.core) : c0.Keeps (opCreate r num mac auto share allow image s).1.core := by
  simp only [opCreate]
  repeat' split
  all_goals simp [hk]
theorem execCreate_keeps (r : Req) (num : Nat) (mac : BitVec 48) (auto : Bool) (share : Shares) (allow : List Allow) (image : Image) (s : State) :
    KeepsOut s (execCreate r num mac auto share allow image s) := by simp [execCreate]
@[simp] theorem holdFor_keeps {c0 : Core} (r : Req) (opcode i : Nat) (removal clear : Bool) (s : State) (hk : c0.Keeps s.core) :
    c0.Keeps (holdFor r opcode i removal clear s).1.core := by simp [holdFor, hk]
@[simp] theorem opReset_keeps {c0 : Core} (r : Req) (clearDram : Bool) (s : State) (hk : c0.Keeps s.core) :
    c0.Keeps (opReset r clearDram s).1.core := by simp [opReset, hk]
theorem execReset_keeps (r : Req) (clearDram : Bool) (s : State) : KeepsOut s (execReset r clearDram s) := by simp [execReset]
@[simp] theorem opRemove_keeps {c0 : Core} (r : Req) (s : State) (hk : c0.Keeps s.core) : c0.Keeps (opRemove r s).1.core := by simp [opRemove, hk]
theorem execRemove_keeps (r : Req) (s : State) : KeepsOut s (execRemove r s) := by simp [execRemove]
theorem execStop_keeps (r : Req) (s : State) : KeepsOut s (execStop r s) := by simp [execStop]
theorem execStart_keeps (r : Req) (s : State) : KeepsOut s (execStart r s) := by simp [execStart]
theorem execSetShares_keeps (r : Req) (mask : BitVec 10) (share : Shares) (s : State) : KeepsOut s (execSetShares r mask share s) := by
  simp [execSetShares]
theorem execReadDesc_keeps (r : Req) (s : State) : KeepsOut s (execReadDesc r s) := by simp [execReadDesc]
theorem execSetAllowance_keeps (r : Req) (idx : Nat) (entry : Allow) (s : State) : KeepsOut s (execSetAllowance r idx entry s) := by
  simp [execSetAllowance]
theorem execSetAutoReset_keeps (r : Req) (value : Nat) (s : State) : KeepsOut s (execSetAutoReset r value s) := by simp [execSetAutoReset]
theorem execSetHoldoff_keeps (r : Req) (value : Nat) (s : State) : KeepsOut s (execSetHoldoff r value s) := by simp [execSetHoldoff]
@[simp] theorem opReplaceImage_keeps {c0 : Core} (r : Req) (image : Image) (s : State) (hk : c0.Keeps s.core) :
    c0.Keeps (opReplaceImage r image s).1.core := by simp [opReplaceImage, hk]
theorem execReplaceImage_keeps (r : Req) (image : Image) (s : State) : KeepsOut s (execReplaceImage r image s) := by simp [execReplaceImage]
theorem execPtWrite_keeps (r : Req) (cluster entry : Nat) (slot : SlotEntry) (s : State) : KeepsOut s (execPtWrite r cluster entry slot s) := by
  simp [execPtWrite]
@[simp] theorem opPtCommit_keeps {c0 : Core} (r : Req) (mask : BitVec 8) (periods phases : List Nat) (s : State) (hk : c0.Keeps s.core) :
    c0.Keeps (opPtCommit r mask periods phases s).1.core := by
  simp only [opPtCommit]
  repeat' split
  all_goals simp [hk]
theorem execPtCommit_keeps (r : Req) (mask : BitVec 8) (periods phases : List Nat) (s : State) :
    KeepsOut s (execPtCommit r mask periods phases s) := by simp [execPtCommit]
theorem execPtRead_keeps (r : Req) (cluster bank : Nat) (s : State) : KeepsOut s (execPtRead r cluster bank s) := by simp [execPtRead]
theorem execSlotStatus_keeps (r : Req) (cluster : Nat) (s : State) : KeepsOut s (execSlotStatus r cluster s) := by simp [execSlotStatus]
theorem execLockAssign_keeps (r : Req) (lock owner index : Nat) (mgpOk : Bool) (s : State) :
    KeepsOut s (execLockAssign r lock owner index mgpOk s) := by simp [execLockAssign]
theorem execLockUnassign_keeps (r : Req) (lock : Nat) (s : State) : KeepsOut s (execLockUnassign r lock s) := by simp [execLockUnassign]
theorem execLockRead_keeps (r : Req) (lock : Nat) (s : State) : KeepsOut s (execLockRead r lock s) := by simp [execLockRead]
theorem execEgqRegister_keeps (r : Req) (queue addr size : Nat) (s : State) : KeepsOut s (execEgqRegister r queue addr size s) := by
  simp [execEgqRegister]
theorem execRxringRegister_keeps (r : Req) (addr size bufLen : Nat) (s : State) : KeepsOut s (execRxringRegister r addr size bufLen s) := by
  simp [execRxringRegister]
theorem execRxringStats_keeps (r : Req) (s : State) : KeepsOut s (execRxringStats r s) := by simp [execRxringStats]
theorem execStats_keeps (r : Req) (page : CntPage) (reader : Nat) (s : State) : KeepsOut s (execStats r page reader s) := by simp [execStats]
theorem execStbPut_keeps (r : Req) (changes : List StbPutItem) (s : State) : KeepsOut s (execStbPut r changes s) := by simp [execStbPut]
@[simp] theorem opStbCommit_keeps {c0 : Core} (r : Req) (s : State) (hk : c0.Keeps s.core) : c0.Keeps (opStbCommit r s).1.core := by
  simp only [opStbCommit]
  repeat' split
  all_goals simp [hk]
theorem execStbCommit_keeps (r : Req) (s : State) : KeepsOut s (execStbCommit r s) := by simp [execStbCommit]
theorem execStbRead_keeps (r : Req) (bitmap : Bool) (idx : Nat) (s : State) : KeepsOut s (execStbRead r bitmap idx s) := by simp [execStbRead]
theorem execLearnPolicy_keeps (r : Req) (port kind : Nat) (ports : BitVec 8) (s : State) : KeepsOut s (execLearnPolicy r port kind ports s) := by
  simp [execLearnPolicy]
theorem execLearnAnswer_keeps (r : Req) (id : Nat) (accept : Bool) (entry : StreamEntry) (s : State) :
    KeepsOut s (execLearnAnswer r id accept entry s) := by simp [execLearnAnswer]
theorem execLearnRead_keeps (r : Req) (id : Nat) (s : State) : KeepsOut s (execLearnRead r id s) := by simp [execLearnRead]
theorem execPortConfig_keeps (r : Req) (port : Nat) (ctl vlan pcpMap : BitVec 32) (maxFrame : Nat) (s : State) :
    KeepsOut s (execPortConfig r port ctl vlan pcpMap maxFrame s) := by simp [execPortConfig]
theorem execPortBypass_keeps (r : Req) (force : Nat) (s : State) : KeepsOut s (execPortBypass r force s) := by simp [execPortBypass]
theorem execSwitchConfig_keeps (r : Req) (c : SwitchCfg) (s : State) : KeepsOut s (execSwitchConfig r c s) := by simp [execSwitchConfig]
theorem execMirrorSession_keeps (r : Req) (n : Nat) (ctl : BitVec 32) (s : State) : KeepsOut s (execMirrorSession r n ctl s) := by
  simp [execMirrorSession]
theorem execHostRxring_keeps (r : Req) (ring addr size bufLen : Nat) (s : State) : KeepsOut s (execHostRxring r ring addr size bufLen s) := by
  simp [execHostRxring]
@[simp] theorem configClear_keeps {c0 : Core} (g n thr : Nat) (was now : Thr) (s : State) (hk : c0.Keeps s.core) :
    c0.Keeps (configClear g n thr was now s).core := by simp [configClear, hk]
@[simp] theorem writeCtx_keeps {c0 : Core} (g n rate : Nat) (c : Ctx) (s : State) (hk : c0.Keeps s.core) : c0.Keeps (writeCtx g n rate c s).core := by
  simp [writeCtx, hk]
@[simp] theorem writeGroup_keeps {c0 : Core} (g : Nat) (d : Group) (ctxs : List Ctx) (s : State) (hk : c0.Keeps s.core) :
    c0.Keeps (writeGroup g d ctxs s).core := by simp [writeGroup, hk]
@[simp] theorem groupSet_keeps {c0 : Core} (g : Nat) (desc : Group) (ctxs : List Ctx) (s : State) (hk : c0.Keeps s.core) :
    c0.Keeps (groupSet g desc ctxs s).1.core := by
  simp only [groupSet]
  repeat' split
  all_goals simp [hk]
@[simp] theorem opGroupSet_keeps {c0 : Core} (_r : Req) (g : Nat) (desc : Group) (ctxs : List Ctx) (s : State) (hk : c0.Keeps s.core) :
    c0.Keeps (opGroupSet _r g desc ctxs s).1.core := by
  simp only [opGroupSet]
  repeat' split
  all_goals simp [hk]
theorem execGroupSet_keeps (r : Req) (g : Nat) (desc : Group) (ctxs : List Ctx) (s : State) : KeepsOut s (execGroupSet r g desc ctxs s) := by
  simp [execGroupSet]
theorem execGroupRead_keeps (r : Req) (g : Nat) (s : State) : KeepsOut s (execGroupRead r g s) := by simp [execGroupRead]
theorem execPresetChange_keeps (r : Req) (g preset : Nat) (s : State) : KeepsOut s (execPresetChange r g preset s) := by simp [execPresetChange]
theorem execPresetRead_keeps (r : Req) (preset : Nat) (s : State) : KeepsOut s (execPresetRead r preset s) := by simp [execPresetRead]
theorem execSubscribe_keeps (r : Req) (g pos : Nat) (sub : Option (Nat × Nat × Nat)) (s : State) : KeepsOut s (execSubscribe r g pos sub s) := by
  simp [execSubscribe]
theorem execRingRegister_keeps (r : Req) (ring addr slots words : Nat) (s : State) : KeepsOut s (execRingRegister r ring addr slots words s) := by
  simp [execRingRegister]
theorem execSceConfig_keeps (r : Req) (ctl : BitVec 32) (s : State) : KeepsOut s (execSceConfig r ctl s) := by simp [execSceConfig]
theorem execTimeStatus_keeps (r : Req) (s : State) : KeepsOut s (execTimeStatus r s) := by simp [execTimeStatus]
theorem execTimeConfig_keeps (r : Req) (c : TimeCfg) (s : State) : KeepsOut s (execTimeConfig r c s) := by simp [execTimeConfig]
theorem execRefSwitch_keeps (r : Req) (dom : Nat) (s : State) : KeepsOut s (execRefSwitch r dom s) := by simp [execRefSwitch]
@[simp] theorem opStep_keeps {c0 : Core} (_r : Req) (ns : Int) (s : State) (hk : c0.Keeps s.core) : c0.Keeps (opStep _r ns s).1.core := by
  simp [opStep, hk]
theorem execStepTb_keeps (r : Req) (ns : Int) (s : State) : KeepsOut s (execStepTb r ns s) := by simp [execStepTb]
theorem execTrgAlloc_keeps (r : Req) (owner : Option Nat) (s : State) : KeepsOut s (execTrgAlloc r owner s) := by simp [execTrgAlloc]
theorem execTrgProgram_keeps (r : Req) (k time period : Nat) (periodic : Bool) (dest : BitVec 4) (en : Bool) (s : State) :
    KeepsOut s (execTrgProgram r k time period periodic dest en s) := by simp [execTrgProgram]
theorem execTrgFree_keeps (r : Req) (k : Nat) (s : State) : KeepsOut s (execTrgFree r k s) := by simp [execTrgFree]
theorem execStampRing_keeps (r : Req) (addr slots : Nat) (s : State) : KeepsOut s (execStampRing r addr slots s) := by simp [execStampRing]
theorem execPpsConfig_keeps (r : Req) (en gate : Bool) (width : Nat) (s : State) : KeepsOut s (execPpsConfig r en gate width s) := by
  simp [execPpsConfig]
theorem execStreamSet_keeps (r : Req) (n : Nat) (desc : AcqStream) (s : State) : KeepsOut s (execStreamSet r n desc s) := by simp [execStreamSet]
theorem execStreamEn_keeps (r : Req) (n en : Nat) (s : State) : KeepsOut s (execStreamEn r n en s) := by simp [execStreamEn]
theorem execStreamRestart_keeps (r : Req) (n : Nat) (s : State) : KeepsOut s (execStreamRestart r n s) := by simp [execStreamRestart]
theorem execTrigger_keeps (r : Req) (mask : BitVec 4) (code : Nat) (s : State) : KeepsOut s (execTrigger r mask code s) := by simp [execTrigger]
theorem execAcqConfig_keeps (r : Req) (ctl : BitVec 32) (s : State) : KeepsOut s (execAcqConfig r ctl s) := by simp [execAcqConfig]
theorem execStreamRead_keeps (r : Req) (n : Nat) (s : State) : KeepsOut s (execStreamRead r n s) := by simp [execStreamRead]
theorem execPairStatus_keeps (r : Req) (s : State) : KeepsOut s (execPairStatus r s) := by simp [execPairStatus]
theorem execSetClaim_keeps (r : Req) (claim : BitVec 32) (s : State) : KeepsOut s (execSetClaim r claim s) := by simp [execSetClaim]
theorem execPairConfig_keeps (r : Req) (cguC cguMem ocuC mlkC : BitVec 32) (s : State) : KeepsOut s (execPairConfig r cguC cguMem ocuC mlkC s) := by
  simp [execPairConfig]
@[simp] theorem switchHeld_keeps {c0 : Core} (r : Req) (unit : Nat) (s : State) (hk : c0.Keeps s.core) : c0.Keeps (switchHeld r unit s).1.core := by
  simp [switchHeld, hk]
@[simp] theorem switchAsked_keeps {c0 : Core} (r : Req) (unit : Nat) (s : State) (hk : c0.Keeps s.core) : c0.Keeps (switchAsked r unit s).1.core := by
  simp only [switchAsked]
  repeat' split
  all_goals simp [hk]
@[simp] theorem opSwitchBack_keeps {c0 : Core} (r : Req) (unit : Nat) (s : State) (hk : c0.Keeps s.core) :
    c0.Keeps (opSwitchBack r unit s).1.core := by
  refine holdGuard_keeps _ _ (fun t => ?_) hk
  repeat' split
  all_goals simp
theorem execSwitchBack_keeps (r : Req) (unit : Nat) (s : State) : KeepsOut s (execSwitchBack r unit s) := by simp [execSwitchBack]
theorem execClearTakeBlock_keeps (r : Req) (s : State) : KeepsOut s (execClearTakeBlock r s) := by simp [execClearTakeBlock]
theorem execReturnStandby_keeps (r : Req) (s : State) : KeepsOut s (execReturnStandby r s) := by simp [execReturnStandby]
theorem execGoOut_keeps (r : Req) (s : State) : KeepsOut s (execGoOut r s) := by simp [execGoOut]
theorem execTripAssign_keeps (r : Req) (output : Nat) (inst : Option Nat) (s : State) : KeepsOut s (execTripAssign r output inst s) := by
  simp [execTripAssign]
theorem execKeyLoad_keeps (r : Req) (slot : Nat) (value : BitVec 256) (a : KeyArgs) (s : State) : KeepsOut s (execKeyLoad r slot value a s) := by
  simp [execKeyLoad]
theorem execKeyGenerate_keeps (r : Req) (slot : Nat) (a : KeyArgs) (s : State) : KeepsOut s (execKeyGenerate r slot a s) := by simp [execKeyGenerate]
theorem execKeyDerive_keeps (r : Req) (slot : Nat) (parent : Option Nat) (a : KeyArgs) (label context : List Byte) (s : State) :
    KeepsOut s (execKeyDerive r slot parent a label context s) := by simp [execKeyDerive]
theorem execKeyErase_keeps (r : Req) (slot : Nat) (s : State) : KeepsOut s (execKeyErase r slot s) := by simp [execKeyErase]
theorem execKeyAttrRead_keeps (r : Req) (slot : Nat) (s : State) : KeepsOut s (execKeyAttrRead r slot s) := by simp [execKeyAttrRead]
theorem execKeyAssign_keeps (r : Req) (slot : Nat) (byMgp : Bool) (owner gen : Nat) (s : State) :
    KeepsOut s (execKeyAssign r slot byMgp owner gen s) := by simp [execKeyAssign]
theorem execKeyAttrWrite_keeps (r : Req) (slot : Nat) (a : KeyArgs) (lock derivable : Bool) (s : State) :
    KeepsOut s (execKeyAttrWrite r slot a lock derivable s) := by simp [execKeyAttrWrite]
theorem execVerifyEntry_keeps (r : Req) (n : Nat) (e : VerEntry) (s : State) : KeepsOut s (execVerifyEntry r n e s) := by simp [execVerifyEntry]
theorem execVerifyEnable_keeps (r : Req) (en : Nat) (s : State) : KeepsOut s (execVerifyEnable r en s) := by simp [execVerifyEnable]
theorem execFaultRead_keeps (r : Req) (block : BlockId) (unit : Nat) (s : State) : KeepsOut s (execFaultRead r block unit s) := by
  simp [execFaultRead]
theorem execFaultCounts_keeps (r : Req) (reader : Nat) (s : State) : KeepsOut s (execFaultCounts r reader s) := by simp [execFaultCounts]
theorem execInject_keeps (r : Req) (block : BlockId) (unit : Nat) (arm : Bool) (kind : Nat) (mode : Bool) (pos : Nat) (pattern : BitVec 8)
    (force : Bool) (s : State) : KeepsOut s (execInject r block unit arm kind mode pos pattern force s) := by simp [execInject]
theorem execCapture_keeps (r : Req) (block : BlockId) (unit : Nat) (latch re : Bool) (s : State) :
    KeepsOut s (execCapture r block unit latch re s) := by simp [execCapture]
theorem execSetQuiet_keeps (r : Req) (block : BlockId) (unit ms : Nat) (s : State) : KeepsOut s (execSetQuiet r block unit ms s) := by
  simp [execSetQuiet]
theorem execBucketSet_keeps (r : Req) (code mode burst intervalUs : Nat) (s : State) : KeepsOut s (execBucketSet r code mode burst intervalUs s) := by
  simp [execBucketSet]
theorem execCursor2_keeps (r : Req) (alloc : Nat) (s : State) : KeepsOut s (execCursor2 r alloc s) := by simp [execCursor2]
theorem execCodeCatalogue_keeps (r : Req) (first count : Nat) (s : State) : KeepsOut s (execCodeCatalogue r first count s) := by
  simp [execCodeCatalogue]
theorem execWriteRecord_keeps (r : Req) (code : Nat) (detail : List Byte) (s : State) : KeepsOut s (execWriteRecord r code detail s) := by
  simp [execWriteRecord]
theorem execEvrConfig_keeps (r : Req) (limitEn saveEn : Bool) (s : State) : KeepsOut s (execEvrConfig r limitEn saveEn s) := by simp [execEvrConfig]
@[simp] theorem opImageStage_keeps {c0 : Core} (r : Req) (target : Nat) (image : Image) (s : State) (hk : c0.Keeps s.core) :
    c0.Keeps (opImageStage r target image s).1.core := by simp [opImageStage, hk]
theorem execImageStage_keeps (r : Req) (target : Nat) (image : Image) (s : State) : KeepsOut s (execImageStage r target image s) := by
  simp [execImageStage]
@[simp] theorem opBankActivate_keeps {c0 : Core} (r : Req) (bank : Nat) (s : State) (hk : c0.Keeps s.core) :
    c0.Keeps (opBankActivate r bank s).1.core := by
  simp only [opBankActivate]
  repeat' split
  all_goals simp [hk]
theorem execBankActivate_keeps (r : Req) (bank : Nat) (s : State) : KeepsOut s (execBankActivate r bank s) := by simp [execBankActivate]
theorem execBkiWrite_keeps (r : Req) (ctl : BitVec 32) (slots : List (Nat × ElemSlot)) (s : State) : KeepsOut s (execBkiWrite r ctl slots s) := by
  simp [execBkiWrite]
theorem execBkiCommit_keeps (r : Req) (s : State) : KeepsOut s (execBkiCommit r s) := by simp [execBkiCommit]
theorem execBkiRead_keeps (r : Req) (s : State) : KeepsOut s (execBkiRead r s) := by simp [execBkiRead]
theorem execCalConfig_keeps (r : Req) (ctl : BitVec 32) (s : State) : KeepsOut s (execCalConfig r ctl s) := by simp [execCalConfig]
@[simp] theorem opImport7210_keeps {c0 : Core} (r : Req) (file : Import7210) (s : State) (hk : c0.Keeps s.core) :
    c0.Keeps (opImport7210 r file s).1.core := by simp [opImport7210, hk]
theorem execImport7210_keeps (r : Req) (file : Import7210) (s : State) : KeepsOut s (execImport7210 r file s) := by simp [execImport7210]
@[simp] theorem opSetSeason_keeps {c0 : Core} (r : Req) (season : Nat) (force ret : Bool) (s : State) (hk : c0.Keeps s.core) :
    c0.Keeps (opSetSeason r season force ret s).1.core := by
  simp only [opSetSeason]
  repeat' split
  all_goals simp [hk]
theorem execSetSeason_keeps (r : Req) (season : Nat) (force ret : Bool) (s : State) : KeepsOut s (execSetSeason r season force ret s) := by
  simp [execSetSeason]
theorem execWakeConfig_keeps (r : Req) (en : BitVec 3) (timerS : Nat) (pattern : List Byte) (s : State) :
    KeepsOut s (execWakeConfig r en timerS pattern s) := by simp [execWakeConfig]
theorem execLoopConfig_keeps (r : Req) (mask : BitVec 8) (loop volt : BitVec 32) (fabric : Nat) (s : State) :
    KeepsOut s (execLoopConfig r mask loop volt fabric s) := by simp [execLoopConfig]
theorem execPowerStatus_keeps (r : Req) (s : State) : KeepsOut s (execPowerStatus r s) := by simp [execPowerStatus]
@[simp] theorem writeStepWord_keeps {c0 : Core} (j : Nat) (v : BitVec 32) (s : State) (hk : c0.Keeps s.core) :
    c0.Keeps (writeStepWord j v s).core := by simp [writeStepWord, hk]
@[simp] theorem tbuWrite_keeps {c0 : Core} (o : Nat) (v : BitVec 32) (s : State) (hk : c0.Keeps s.core) : c0.Keeps (tbuWrite o v s).core := by
  simp [tbuWrite, hk]
@[simp] theorem blockWrite_keeps {c0 : Core} (b : BlockId) (u o : Nat) (v : BitVec 32) (s : State) (hk : c0.Keeps s.core) :
    c0.Keeps (blockWrite b u o v s).core := by
  unfold blockWrite
  split <;> simp [hk]
@[simp] theorem pageWrite_keeps {c0 : Core} (b : BlockId) (u o : Nat) (v : BitVec 32) (s : State) (hk : c0.Keeps s.core) :
    c0.Keeps (pageWrite b u o v s).core := by
  simp only [pageWrite]
  repeat' split
  all_goals simp [hk]
theorem execRegisterWrite_keeps (reg : RegAddr) (value : BitVec 32) (s : State) : KeepsOut s (execRegisterWrite reg value s) := by
  unfold execRegisterWrite
  split <;> simp
theorem monOp_keeps (m : MonReq) (r : Req) (s : State) : s.core.Keeps ((monOp m).2.2 r s).1.core := by cases m <;> simp [monOp]
@[simp] theorem monMbx_keeps {c0 : Core} (r : Req) (m : MonReq) (s : State) (hk : c0.Keeps s.core) : c0.Keeps (monMbx r m s).1.core := by
  have h := fun (op : Nat × Bool × (Req → State → State × Ans)) (hop : op = monOp m) =>
    judge_keeps { r with src := .mon } op.1 .yes op.2.1 s.mon.cache op.2.2 s (hop ▸ monOp_keeps m) hk
  have h := h _ rfl
  unfold monMbx
  split
  · exact hk
  · dsimp only
    split
    · exact h
    · simp [h]
theorem execMonMbx_keeps (r : Req) (m : MonReq) (s : State) : KeepsOut s (execMonMbx r m s) := by simp [execMonMbx, monRun]
@[simp] theorem internalOver_keeps {c0 : Core} (s : State) (hk : c0.Keeps s.core) : c0.Keeps (internalOver s).core := by simp [internalOver, hk]
@[simp] theorem mainIsGood_keeps {c0 : Core} (head : Bool) (s : State) (hk : c0.Keeps s.core) : c0.Keeps (mainIsGood head s).core := by
  simp [mainIsGood, hk]
@[simp] theorem mainIsLost_keeps {c0 : Core} (s : State) (hk : c0.Keeps s.core) : c0.Keeps (mainIsLost s).core := by
  simp only [mainIsLost]
  repeat' split
  all_goals simp [hk]
theorem execMainGood_keeps (main : MainIn) (s : State) : KeepsOut s (execMainGood main s) := by simp [execMainGood]
theorem execMainLost_keeps (s : State) : KeepsOut s (execMainLost s) := by simp [execMainLost]
@[simp] theorem powerFail_keeps {c0 : Core} (internal : Bool) (s : State) (hk : c0.Keeps s.core) : c0.Keeps (powerFail internal s).core := by
  simp [powerFail, hk]
theorem execPfwNFall_keeps (s : State) : KeepsOut s (execPfwNFall s) := by
  unfold execPfwNFall
  rw [keepsOut_next]
  split
  · simp
  · exact pinLow_keeps _ _ _ (fun t => by simp) (.refl _)
theorem execPfwNRise_keeps (s : State) : KeepsOut s (execPfwNRise s) := by simp [execPfwNRise]
theorem execInternalPowerFail_keeps (sag : SagIn) (s : State) : KeepsOut s (execInternalPowerFail sag s) := by simp [execInternalPowerFail]
@[simp] theorem resetFalls_keeps {c0 : Core} (s : State) (hk : c0.Keeps s.core) : c0.Keeps (resetFalls s).core := by
  simp only [resetFalls]
  repeat' split
  all_goals simp [hk]
theorem execModResetLow_keeps (s : State) : KeepsOut s (execModResetLow s) := by
  unfold execModResetLow
  rw [keepsOut_next]
  split
  · simp
  · exact pinLow_keeps _ _ _ (fun t => by simp) (.refl _)
@[simp] theorem cutOff_keeps {c0 : Core} (s : State) (hk : c0.Keeps s.core) : c0.Keeps (cutOff s).core := by simp [cutOff, hk]
@[simp] theorem thermal_keeps {c0 : Core} (t : Int) (s : State) (hk : c0.Keeps s.core) : c0.Keeps (thermal t s).core := by
  simp only [thermal]
  repeat' split
  all_goals simp [hk]
theorem execThermalCheck_keeps (temp : Int) (s : State) : KeepsOut s (execThermalCheck temp s) := by simp [execThermalCheck]
theorem execThermalDisconnect_keeps (s : State) : KeepsOut s (execThermalDisconnect s) := by
  unfold execThermalDisconnect
  rw [keepsOut_next]
  split
  · refine whenDue_keeps _ _ _ (fun t => ?_) (.refl _)
    dsimp only
    split <;> simp
  · simp
@[simp] theorem dupCheck_keeps {c0 : Core} (ptp : Bool) (k q idle i : Nat) (s : State) (hk : c0.Keeps s.core) :
    c0.Keeps (dupCheck ptp k q idle i s).2.core := by simp [dupCheck, hk]
@[simp] theorem dupDiscard_keeps {c0 : Core} (ptp : Bool) (k : Nat) (seq : Option Nat) (src : Option (Nat × Nat)) (s : State) (hk : c0.Keeps s.core) :
    c0.Keeps (dupDiscard ptp k seq src s).2.core := by
  simp only [dupDiscard]
  repeat' split
  all_goals simp [hk]
@[simp] theorem learnSource_keeps {c0 : Core} (k : Nat) (f : Stored) (s : State) (hk : c0.Keeps s.core) : c0.Keeps (learnSource k f s).2.2.core := by
  simp only [learnSource]
  repeat' split
  all_goals simp [hk]
@[simp] theorem accepted_keeps {c0 : Core} (k : Nat) (seq : Option Nat) (f : Stored) (s : State) (hk : c0.Keeps s.core) :
    c0.Keeps (accepted k seq f s).core := by simp [accepted, hk]
@[simp] theorem ringFrame_keeps {c0 : Core} (k : Nat) (f : Stored) (s : State) (hk : c0.Keeps s.core) : c0.Keeps (ringFrame k f s).core := by
  unfold ringFrame
  split <;> simp [hk]
@[simp] theorem lanFrame_keeps {c0 : Core} (k : Nat) (f : Stored) (s : State) (hk : c0.Keeps s.core) : c0.Keeps (lanFrame k f s).core := by
  unfold lanFrame
  split <;> simp [hk]
@[simp] theorem takeFrame_keeps {c0 : Core} (k : Nat) (octets : List Byte) (s : State) (hk : c0.Keeps s.core) :
    c0.Keeps (takeFrame k octets s).core := by simp [takeFrame, hk]
theorem execFrameReceive_keeps (port : Nat) (octets : List Byte) (seen : LineSeen) (s : State) :
    KeepsOut s (execFrameReceive port octets seen s) := by
  simp only [execFrameReceive, keepsOut_next]
  repeat' split
  all_goals simp
@[simp] theorem groupFrame_keeps {c0 : Core} (f : List Byte) (s : State) (gn : Nat) (hk : c0.Keeps s.core) : c0.Keeps (groupFrame f s gn).core := by
  unfold groupFrame
  split <;> simp [hk]
theorem execSceCopy_keeps (s : State) : KeepsOut s (execSceCopy s) := by
  simp only [execSceCopy, keepsOut_next]
  repeat' split
  all_goals simp
@[simp] theorem groupStaleCheck_keeps {c0 : Core} (s : State) (gn : Nat) (hk : c0.Keeps s.core) : c0.Keeps (groupStaleCheck s gn).core := by
  simp [groupStaleCheck, hk]
theorem execSceStaleCheck_keeps (s : State) : KeepsOut s (execSceStaleCheck s) :=
  (keepsOut_next _ _).mpr (whenDue_keeps _ _ _ (fun t => foldl_keeps _ _ (by simp) fun t g => by simp) (.refl _))
@[simp] theorem idle_keeps {c0 : Core} (s : State) (hk : c0.Keeps s.core) : c0.Keeps (idle s).core := by simp [idle, hk]
end Sys2Proof.Machine
end

section
/-!
PROOFS. Every step keeps the byte memories canonical and what manufacture has fixed (O4, O6).
-/
namespace Sys2Proof.Machine
open Sys2Proof

/-- Every command keeps the byte memories canonical and what manufacture has fixed: one meaning per command. -/
theorem exec_keeps (c : Instr) (s : State) : KeepsOut s (exec c s) :=
  match c with
  | .arbiterDecision .. => execArbiterDecision_keeps ..
  | .parkedTransferStart .. => execParkedTransferStart_keeps ..
  | .backoffExpiry .. => execBackoffExpiry_keeps ..
  | .arbCtlModeWrite .. => execArbCtlModeWrite_keeps ..
  | .transferTimeout .. => execTransferTimeout_keeps ..
  | .lateCompletion .. => execLateCompletion_keeps ..
  | .scrubWord .. => execScrubWord_keeps ..
  | .railUndervoltage .. => execRailUndervoltage_keeps ..
  | .frameReceive .. => execFrameReceive_keeps ..
  | .pauseEnd .. => execPauseEnd_keeps ..
  | .pauseCut .. => execPauseCut_keeps ..
  | .learnEvent .. => execLearnEvent_keeps ..
  | .learnRecordClose .. => execLearnRecordClose_keeps ..
  | .transmitSelect .. => execTransmitSelect_keeps ..
  | .linkDown .. => execLinkDown_keeps ..
  | .linkUp .. => execLinkUp_keeps ..
  | .sfpInsert .. => execSfpInsert_keeps ..
  | .sfpRemove .. => execSfpRemove_keeps ..
  | .txEnWrite .. => execTxEnWrite_keeps ..
  | .counterSnapshot .. => execCounterSnapshot_keeps ..
  | .wakeFrame .. => execWakeFrame_keeps ..
  | .largeSendSubmit .. => execLargeSendSubmit_keeps ..
  | .segmentGenerate .. => execSegmentGenerate_keeps ..
  | .rxRingDeliver .. => execRxRingDeliver_keeps ..
  | .loopTest .. => execLoopTest_keeps ..
  | .coilEnergise => execCoilEnergise_keeps ..
  | .headSwitchComplete => execHeadSwitchComplete_keeps ..
  | .headPositionMismatch .. => execHeadPositionMismatch_keeps ..
  | .idleTick => execIdleTick_keeps ..
  | .idleEntryRemove .. => execIdleEntryRemove_keeps ..
  | .entryChangeApply => execEntryChangeApply_keeps ..
  | .entryHoldoffEnd .. => execEntryHoldoffEnd_keeps ..
  | .rateCheck => execRateCheck_keeps ..
  | .supervisionSend => execSupervisionSend_keeps ..
  | .sceCopy => execSceCopy_keeps ..
  | .sceStaleCheck => execSceStaleCheck_keeps ..
  | .coreAccess .. => execCoreAccess_keeps ..
  | .autoReset .. => execAutoReset_keeps ..
  | .instanceResetComplete .. => execInstanceResetComplete_keeps ..
  | .instanceRemovalComplete .. => execInstanceRemovalComplete_keeps ..
  | .instanceQuarantineEnd .. => execInstanceQuarantineEnd_keeps ..
  | .lockTryAcquire .. => execLockTryAcquire_keeps ..
  | .lockRelease .. => execLockRelease_keeps ..
  | .lckAssignWrite .. => execLckAssignWrite_keeps ..
  | .egressDoorbell .. => execEgressDoorbell_keeps ..
  | .egressDescriptor .. => execEgressDescriptor_keeps ..
  | .cguGate .. => execCguGate_keeps ..
  | .frameStart .. => execFrameStart_keeps ..
  | .slotStart .. => execSlotStart_keeps ..
  | .yieldCall .. => execYieldCall_keeps ..
  | .budgetExpiry .. => execBudgetExpiry_keeps ..
  | .triggerWindowEnd .. => execTriggerWindowEnd_keeps ..
  | .pscCommit .. => execPscCommit_keeps ..
  | .release .. => execRelease_keeps ..
  | .mirrorDeclare .. => execMirrorDeclare_keeps ..
  | .mboxRegister .. => execMboxRegister_keeps ..
  | .claimRoundStart => execClaimRoundStart_keeps ..
  | .claimRoundJoin .. => execClaimRoundJoin_keeps ..
  | .claimRoundEnd .. => execClaimRoundEnd_keeps ..
  | .clmEnWrite .. => execClmEnWrite_keeps ..
  | .tbClockStop => execTbClockStop_keeps ..
  | .oscillatorFail => execOscillatorFail_keeps ..
  | .ocuFrame .. => execOcuFrame_keeps ..
  | .ocuWindowEnd .. => execOcuWindowEnd_keeps ..
  | .pictureDecision .. => execPictureDecision_keeps ..
  | .decisionMessage .. => execDecisionMessage_keeps ..
  | .statusWordSend => execStatusWordSend_keeps ..
  | .statusWordReceive .. => execStatusWordReceive_keeps ..
  | .laneDown .. => execLaneDown_keeps ..
  | .partnerLost => execPartnerLost_keeps ..
  | .partnerAwaitExpiry => execPartnerAwaitExpiry_keeps ..
  | .mirrorSetSend .. => execMirrorSetSend_keeps ..
  | .mirrorSetReceive .. => execMirrorSetReceive_keeps ..
  | .switchBackLapse => execSwitchBackLapse_keeps ..
  | .syncMessage .. => execSyncMessage_keeps ..
  | .announceMessage .. => execAnnounceMessage_keeps ..
  | .pdelayReqSend .. => execPdelayReqSend_keeps ..
  | .pdelayRespReceive port turnaround => execPdelayRespReceive_keeps port turnaround s
  | .holdoverEntry .. => execHoldoverEntry_keeps ..
  | .freerunEntry .. => execFreerunEntry_keeps ..
  | .tbStepGo => execTbStepGo_keeps ..
  | .refWrite .. => execRefWrite_keeps ..
  | .slewComplete => execSlewComplete_keeps ..
  | .comparatorFire .. => execComparatorFire_keeps ..
  | .trgCtlWrite .. => execTrgCtlWrite_keeps ..
  | .ppsEdge => execPpsEdge_keeps ..
  | .ppsPulseEnd => execPpsPulseEnd_keeps ..
  | .stampDeliver => execStampDeliver_keeps ..
  | .acqSample => execAcqSample_keeps ..
  | .acqFlush .. => execAcqFlush_keeps ..
  | .acqDrained .. => execAcqDrained_keeps ..
  | .trigInEdge .. => execTrigInEdge_keeps ..
  | .aonGood .. => execAonGood_keeps ..
  | .aonLost => execAonLost_keeps ..
  | .bkiOutputSample .. => execBkiOutputSample_keeps ..
  | .btHoldEnd .. => execBtHoldEnd_keeps ..
  | .calStep .. => execCalStep_keeps ..
  | .lockstepMismatch => execLockstepMismatch_keeps ..
  | .islandRestartDone => execIslandRestartDone_keeps ..
  | .bkiHbWrite .. => execBkiHbWrite_keeps ..
  | .heartbeatLost => execHeartbeatLost_keeps ..
  | .mgpBootTimeout => execMgpBootTimeout_keeps ..
  | .clmHoldClr => execClmHoldClr_keeps ..
  | .bkiCommitWrite => execBkiCommitWrite_keeps ..
  | .seasonRequest .. => execSeasonRequest_keeps ..
  | .wakeNLow => execWakeNLow_keeps ..
  | .wakeTimerExpiry => execWakeTimerExpiry_keeps ..
  | .quietPeriodEnd .. => execQuietPeriodEnd_keeps ..
  | .fltInjWrite .. => execFltInjWrite_keeps ..
  | .injectionTimeout .. => execInjectionTimeout_keeps ..
  | .feCodeRead .. => execFeCodeRead_keeps ..
  | .rearmWrite .. => execRearmWrite_keeps ..
  | .rcRead .. => execRcRead_keeps ..
  | .latchingRead .. => execLatchingRead_keeps ..
  | .evrOccurrence => execEvrOccurrence_keeps ..
  | .bucketRefill .. => execBucketRefill_keeps ..
  | .lossIntervalEnd .. => execLossIntervalEnd_keeps ..
  | .cursorLoad .. => execCursorLoad_keeps ..
  | .cursorLoadComplete .. => execCursorLoadComplete_keeps ..
  | .saveEnd => execSaveEnd_keeps ..
  | .saveAreaErase => execSaveAreaErase_keeps ..
  | .ksuLoad .. => execKsuLoad_keeps ..
  | .ksuGenerate .. => execKsuGenerate_keeps ..
  | .ksuDerive .. => execKsuDerive_keeps ..
  | .ksuErase .. => execKsuErase_keeps ..
  | .keySave .. => execKeySave_keeps ..
  | .slotDamageRewrite .. => execSlotDamageRewrite_keeps ..
  | .reqTailWrite .. => execReqTailWrite_keeps ..
  | .pairReset .. => execPairReset_keeps ..
  | .mbxReqTailWrite .. => execMbxReqTailWrite_keeps ..
  | .msiXMessage .. => execMsiXMessage_keeps ..
  | .perstN .. => execPerstN_keeps ..
  | .mgpFirmwareStart => execMgpFirmwareStart_keeps ..
  | .coldStart .. => execColdStart_keeps ..
  | .startUpComplete => execStartUpComplete_keeps ..
  | .claimEnableAuto => execClaimEnableAuto_keeps ..
  | .serviceAuto => execServiceAuto_keeps ..
  | .configPersist => execConfigPersist_keeps ..
  | .mainGood .. => execMainGood_keeps ..
  | .mainLost => execMainLost_keeps ..
  | .pfwNFall => execPfwNFall_keeps ..
  | .pfwNRise => execPfwNRise_keeps ..
  | .internalPowerFail .. => execInternalPowerFail_keeps ..
  | .modResetLow => execModResetLow_keeps ..
  | .modResetRelease => execModResetRelease_keeps ..
  | .thermalCheck .. => execThermalCheck_keeps ..
  | .thermalDisconnect => execThermalDisconnect_keeps ..
  | .railOutOfBand .. => execRailOutOfBand_keeps ..
  | .bankHandover .. => execBankHandover_keeps ..
  | .bankMarkActive => execBankMarkActive_keeps ..
  | .registerWrite .. => execRegisterWrite_keeps ..
  | .getIdentity .. => execGetIdentity_keeps ..
  | .getStatus .. => execGetStatus_keeps ..
  | .opStatus .. => execOpStatus_keeps ..
  | .echo .. => execEcho_keeps ..
  | .arbRead .. => execArbRead_keeps ..
  | .arbPrio .. => execArbPrio_keeps ..
  | .arbMode .. => execArbMode_keeps ..
  | .service .. => execService_keeps ..
  | .create .. => execCreate_keeps ..
  | .reset .. => execReset_keeps ..
  | .remove .. => execRemove_keeps ..
  | .stop .. => execStop_keeps ..
  | .start .. => execStart_keeps ..
  | .setShares .. => execSetShares_keeps ..
  | .readDesc .. => execReadDesc_keeps ..
  | .setAllowance .. => execSetAllowance_keeps ..
  | .setAutoReset .. => execSetAutoReset_keeps ..
  | .setHoldoff .. => execSetHoldoff_keeps ..
  | .replaceImage .. => execReplaceImage_keeps ..
  | .ptWrite .. => execPtWrite_keeps ..
  | .ptCommit .. => execPtCommit_keeps ..
  | .ptRead .. => execPtRead_keeps ..
  | .slotStatus .. => execSlotStatus_keeps ..
  | .lockAssign .. => execLockAssign_keeps ..
  | .lockUnassign .. => execLockUnassign_keeps ..
  | .lockRead .. => execLockRead_keeps ..
  | .egqRegister .. => execEgqRegister_keeps ..
  | .rxringRegister .. => execRxringRegister_keeps ..
  | .rxringStats .. => execRxringStats_keeps ..
  | .stbPut .. => execStbPut_keeps ..
  | .stbCommit .. => execStbCommit_keeps ..
  | .stbRead .. => execStbRead_keeps ..
  | .learnPolicy .. => execLearnPolicy_keeps ..
  | .learnAnswer .. => execLearnAnswer_keeps ..
  | .portConfig .. => execPortConfig_keeps ..
  | .stats .. => execStats_keeps ..
  | .learnRead .. => execLearnRead_keeps ..
  | .portBypass .. => execPortBypass_keeps ..
  | .switchConfig .. => execSwitchConfig_keeps ..
  | .mirrorSession .. => execMirrorSession_keeps ..
  | .hostRxring .. => execHostRxring_keeps ..
  | .groupSet .. => execGroupSet_keeps ..
  | .groupRead .. => execGroupRead_keeps ..
  | .presetChange .. => execPresetChange_keeps ..
  | .presetRead .. => execPresetRead_keeps ..
  | .subscribe .. => execSubscribe_keeps ..
  | .ringRegister .. => execRingRegister_keeps ..
  | .sceConfig .. => execSceConfig_keeps ..
  | .timeStatus .. => execTimeStatus_keeps ..
  | .timeConfig .. => execTimeConfig_keeps ..
  | .refSwitch .. => execRefSwitch_keeps ..
  | .stepTb .. => execStepTb_keeps ..
  | .trgAlloc .. => execTrgAlloc_keeps ..
  | .trgProgram .. => execTrgProgram_keeps ..
  | .trgFree .. => execTrgFree_keeps ..
  | .stampRing .. => execStampRing_keeps ..
  | .ppsConfig .. => execPpsConfig_keeps ..
  | .streamSet .. => execStreamSet_keeps ..
  | .streamEn .. => execStreamEn_keeps ..
  | .streamRestart .. => execStreamRestart_keeps ..
  | .trigger .. => execTrigger_keeps ..
  | .acqConfig .. => execAcqConfig_keeps ..
  | .streamRead .. => execStreamRead_keeps ..
  | .pairStatus .. => execPairStatus_keeps ..
  | .setClaim .. => execSetClaim_keeps ..
  | .pairConfig .. => execPairConfig_keeps ..
  | .switchBack .. => execSwitchBack_keeps ..
  | .clearTakeBlock .. => execClearTakeBlock_keeps ..
  | .returnStandby .. => execReturnStandby_keeps ..
  | .goOut .. => execGoOut_keeps ..
  | .tripAssign .. => execTripAssign_keeps ..
  | .keyLoad .. => execKeyLoad_keeps ..
  | .keyGenerate .. => execKeyGenerate_keeps ..
  | .keyDerive .. => execKeyDerive_keeps ..
  | .keyErase .. => execKeyErase_keeps ..
  | .keyAttrRead .. => execKeyAttrRead_keeps ..
  | .keyAssign .. => execKeyAssign_keeps ..
  | .keyAttrWrite .. => execKeyAttrWrite_keeps ..
  | .verifyEntry .. => execVerifyEntry_keeps ..
  | .verifyEnable .. => execVerifyEnable_keeps ..
  | .faultRead .. => execFaultRead_keeps ..
  | .faultCounts .. => execFaultCounts_keeps ..
  | .inject .. => execInject_keeps ..
  | .capture .. => execCapture_keeps ..
  | .setQuiet .. => execSetQuiet_keeps ..
  | .bucketSet .. => execBucketSet_keeps ..
  | .cursor2 .. => execCursor2_keeps ..
  | .codeCatalogue .. => execCodeCatalogue_keeps ..
  | .writeRecord .. => execWriteRecord_keeps ..
  | .evrConfig .. => execEvrConfig_keeps ..
  | .imageStage .. => execImageStage_keeps ..
  | .bankActivate .. => execBankActivate_keeps ..
  | .bkiWrite .. => execBkiWrite_keeps ..
  | .bkiCommit .. => execBkiCommit_keeps ..
  | .bkiRead .. => execBkiRead_keeps ..
  | .calConfig .. => execCalConfig_keeps ..
  | .import7210 .. => execImport7210_keeps ..
  | .setSeason .. => execSetSeason_keeps ..
  | .wakeConfig .. => execWakeConfig_keeps ..
  | .loopConfig .. => execLoopConfig_keeps ..
  | .powerStatus .. => execPowerStatus_keeps ..
  | .monHelp => execMonHelp_keeps ..
  | .monId => execMonId_keeps ..
  | .monStatus => execMonStatus_keeps ..
  | .monTime => execMonTime_keeps ..
  | .monFaults => execMonFaults_keeps ..
  | .monFault .. => execMonFault_keeps ..
  | .monStats .. => execMonStats_keeps ..
  | .monInst .. => execMonInst_keeps ..
  | .monEvr .. => execMonEvr_keeps ..
  | .monPeek .. => execMonPeek_keeps ..
  | .monUnlock .. => execMonUnlock_keeps ..
  | .monResp .. => execMonResp_keeps ..
  | .monLock => execMonLock_keeps ..
  | .monBaud .. => execMonBaud_keeps ..
  | .monMbx .. => execMonMbx_keeps ..
  | .baudRevert => execBaudRevert_keeps ..
  | .monIdleRelock => execMonIdleRelock_keeps ..
  | .devEnLow => execDevEnLow_keeps ..
  | .challengeExpiry => execChallengeExpiry_keeps ..
  | .islandClockStop .. => execIslandClockStop_keeps ..
  | .islandClockRestart .. => execIslandClockRestart_keeps ..
  | .railInBand .. => execRailInBand_keeps ..
  | .createComplete .. => execCreateComplete_keeps ..
  | .imageCopyComplete .. => execImageCopyComplete_keeps ..
  | .imageStageComplete => execImageStageComplete_keeps ..
  | .importComplete => execImportComplete_keeps ..
  | .granuleCleared .. => execGranuleCleared_keeps ..
  | .pauseAgeingDiscard .. => execPauseAgeingDiscard_keeps ..
  | .sfpPowerLimit .. => execSfpPowerLimit_keeps ..
  | .bkiThermalReset .. => execBkiThermalReset_keeps ..
  | .trngHealthFail => execTrngHealthFail_keeps ..
  | .monLineRefused .. => execMonLineRefused_keeps ..
  | .nodeForget .. => execNodeForget_keeps ..

theorem step_keeps {s t : State} (h : step s = .next t) : s.core.Keeps t.core := by
  unfold step at h
  split at h
  · cases h
    exact idle_keeps s (.refl _)
  · simpa using (exec_keeps _ _).next t h

/-- Settles O4: a step keeps canonical memories canonical (`step_keeps`). -/
theorem stepKeepsMemoriesCanonical : Obligations.StepKeepsMemoriesCanonical := fun _ _ hok hstep => (step_keeps hstep).ok hok

/-- Settles O6: a step leaves what manufacture has fixed (`step_keeps`). -/
theorem stepKeepsIdentity : Obligations.StepKeepsIdentity :=
  fun _ _ hstep => ⟨(step_keeps hstep).mac, (step_keeps hstep).serial, (step_keeps hstep).fuse⟩

end Sys2Proof.Machine
end

section
/-!
PROOFS. The clock part of the state (`State.clk`): every field of `Time` but the stamp accounts, which copies that never depart change. The
operations that leave it as it is, in the order of the definitions.
-/
namespace Sys2Proof.Machine
open Sys2Proof

/-- The time base and all that stands with it, but for the stamp accounts of the owners. -/
def State.clk (s : State) : Time := { s.time with owners := [] }

theorem clk_of_only {ps : List Part} {s t : State} (k : Only ps s t) (hp : Part.time ∉ ps) : t.clk = s.clk := by
  have h : t.time = s.time := k.same .time hp
  simp [State.clk, h]

theorem now_of_clk {s t : State} (h : t.clk = s.clk) : t.now = s.now := by
  simpa only [State.clk, State.now] using congrArg Time.age h

theorem tbNs_of_clk {s t : State} (h : t.clk = s.clk) : t.time.tbNs = s.time.tbNs := by
  simpa only [State.clk] using congrArg Time.tbNs h

theorem stepEpoch_of_clk {s t : State} (h : t.clk = s.clk) : t.time.stepEpoch = s.time.stepEpoch := by
  simpa only [State.clk] using congrArg Time.stepEpoch h

@[simp] theorem clk_ite {a b : State} (c : Prop) [Decidable c] : (if c then a else b).clk = if c then a.clk else b.clk :=
  apply_ite State.clk c a b

@[simp] theorem foldl_clk {α : Type} (l : List α) (f : State → α → State) (k : ∀ t a, (f t a).clk = t.clk) (s : State) :
    (l.foldl f s).clk = s.clk := by
  induction l generalizing s with
  | nil => rfl
  | cons a l ih => rw [List.foldl_cons, ih, k]

@[simp] theorem State.modFab_clk (s : State) (f) : (s.modFab f).clk = s.clk := rfl
@[simp] theorem State.modPorts_clk (s : State) (f) : (s.modPorts f).clk = s.clk := rfl
@[simp] theorem State.modHead_clk (s : State) (f) : (s.modHead f).clk = s.clk := rfl
@[simp] theorem State.modWake_clk (s : State) (f) : (s.modWake f).clk = s.clk := rfl
@[simp] theorem State.modSw_clk (s : State) (f) : (s.modSw f).clk = s.clk := rfl
@[simp] theorem State.modSce_clk (s : State) (f) : (s.modSce f).clk = s.clk := rfl
@[simp] theorem State.modInsts_clk (s : State) (f) : (s.modInsts f).clk = s.clk := rfl
@[simp] theorem State.modSched_clk (s : State) (f) : (s.modSched f).clk = s.clk := rfl
@[simp] theorem State.modEg_clk (s : State) (f) : (s.modEg f).clk = s.clk := rfl
@[simp] theorem State.modCgu_clk (s : State) (f) : (s.modCgu f).clk = s.clk := rfl
@[simp] theorem State.modOcu_clk (s : State) (f) : (s.modOcu f).clk = s.clk := rfl
@[simp] theorem State.modMlk_clk (s : State) (f) : (s.modMlk f).clk = s.clk := rfl
@[simp] theorem State.modAcq_clk (s : State) (f) : (s.modAcq f).clk = s.clk := rfl
@[simp] theorem State.modBki_clk (s : State) (f) : (s.modBki f).clk = s.clk := rfl
@[simp] theorem State.modSeason_clk (s : State) (f) : (s.modSeason f).clk = s.clk := rfl
@[simp] theorem State.modFaults_clk (s : State) (f) : (s.modFaults f).clk = s.clk := rfl
@[simp] theorem State.modEvr_clk (s : State) (f) : (s.modEvr f).clk = s.clk := rfl
@[simp] theorem State.modKsu_clk (s : State) (f) : (s.modKsu f).clk = s.clk := rfl
@[simp] theorem State.modMbx_clk (s : State) (f) : (s.modMbx f).clk = s.clk := rfl
@[simp] theorem State.modPersist_clk (s : State) (f) : (s.modPersist f).clk = s.clk := rfl
@[simp] theorem State.modPower_clk (s : State) (f) : (s.modPower f).clk = s.clk := rfl
@[simp] theorem State.modMon_clk (s : State) (f) : (s.modMon f).clk = s.clk := rfl

@[simp] theorem State.took_clk (s : State) : (State.took s).clk = s.clk := clk_of_only (ps := [.free]) (by simp) (by decide)
@[simp] theorem State.setPort_clk (s : State) (k : Nat) (f : Port → Port) : (State.setPort s k f).clk = s.clk :=
  clk_of_only (ps := [.ports]) (by simp) (by decide)
@[simp] theorem swCount_clk (i : Nat) (s : State) (n : Nat) : (swCount i s n).clk = s.clk := clk_of_only (ps := [.sw]) (by simp) (by decide)
@[simp] theorem State.setInst_clk (s : State) (i : Nat) (f : Inst → Inst) : (State.setInst s i f).clk = s.clk :=
  clk_of_only (ps := [.insts]) (by simp) (by decide)
@[simp] theorem State.setFset_clk (s : State) (b : BlockId) (u : Nat) (f : FaultSet → FaultSet) : (State.setFset s b u f).clk = s.clk :=
  clk_of_only (ps := [.faults]) (by simp) (by decide)
@[simp] theorem lateFor_clk (i : Nat) (s : State) : (lateFor i s).clk = s.clk := clk_of_only (ps := [.insts]) (by simp) (by decide)
@[simp] theorem lateAt_clk (b : BlockId) (u : Nat) (i : Nat) (s : State) : (lateAt b u i s).clk = s.clk :=
  clk_of_only (ps := [.insts, .faults]) (by simp) (by decide)
@[simp] theorem post_clk (r : EvrRec) (s : State) : (post r s).clk = s.clk := clk_of_only (ps := [.bki, .evr]) (by simp) (by decide)
@[simp] theorem note_clk (b : BlockId) (u : Nat) (code : Nat) (cls : Nat) (owner : Master) (detail : List Byte) (s : State) :
    (note b u code cls owner detail s).clk = s.clk :=
  clk_of_only (ps := [.bki, .evr]) (by simp) (by decide)
@[simp] theorem vector_clk (v : Nat) (s : State) : (vector v s).clk = s.clk := clk_of_only (ps := [.mbx]) (by simp) (by decide)
@[simp] theorem tellLost_clk (s : State) : (tellLost s).clk = s.clk := clk_of_only (ps := [.bki, .evr, .mbx]) (by simp) (by decide)
@[simp] theorem emit_clk (opcode : Nat) (inst : Option Nat) (gen : Nat) (vals : List Nat) (s : State) (tag : Nat) (st : Status) :
    (emit opcode inst gen vals s tag st).clk = s.clk :=
  clk_of_only (ps := [.bki, .evr, .mbx]) (by simp) (by decide)
@[simp] theorem emitInst_clk (i : Nat) (exhausted : Bool) (s : State) : (emitInst i exhausted s).clk = s.clk :=
  clk_of_only (ps := [.bki, .evr, .mbx]) (by simp) (by decide)
@[simp] theorem opDone_clk (h : Nat) (st : Status) (vals : List Nat) (s : State) : (opDone h st vals s).clk = s.clk :=
  clk_of_only (ps := [.bki, .evr, .mbx, .mon]) (by simp) (by decide)
@[simp] theorem opDone?_clk (h : Option Nat) (st : Status) (vals : List Nat) (s : State) : (opDone? h st vals s).clk = s.clk :=
  clk_of_only (ps := [.bki, .evr, .mbx, .mon]) (by simp) (by decide)
@[simp] theorem State.setPair_clk (s : State) (src : ReqSrc) (f : Pair → Pair) : (State.setPair s src f).clk = s.clk :=
  clk_of_only (ps := [.mbx]) (by simp) (by decide)
@[simp] theorem configChanged_clk (s : State) : (configChanged s).clk = s.clk := clk_of_only (ps := [.persist]) (by simp) (by decide)
@[simp] theorem abortInjection_clk (f : Finding) (s : State) : (abortInjection f s).clk = s.clk :=
  clk_of_only (ps := [.bki, .faults, .evr]) (by simp) (by decide)
@[simp] theorem finding_clk (f : Finding) (s : State) : (finding f s).clk = s.clk :=
  clk_of_only (ps := [.bki, .faults, .evr, .mbx]) (by simp) (by decide)
@[simp] theorem persistEnds_clk (b : BlockId) (u : Nat) (s : State) : (persistEnds b u s).clk = s.clk :=
  clk_of_only (ps := [.faults]) (by simp) (by decide)
@[simp] theorem readDone_clk (b : BlockId) (u : Nat) (s : State) : (readDone b u s).clk = s.clk :=
  clk_of_only (ps := [.faults]) (by simp) (by decide)
@[simp] theorem acqLost_clk (p : AcqSrc → Bool) (s : State) : (acqLost p s).clk = s.clk :=
  clk_of_only (ps := [.sw, .acq, .bki, .evr]) (by simp) (by decide)
@[simp] theorem State.setPsc_clk (s : State) (k : Nat) (f : Psc → Psc) : (State.setPsc s k f).clk = s.clk :=
  clk_of_only (ps := [.sched]) (by simp) (by decide)
@[simp] theorem refreshOver_clk (i : Nat) (s : State) : (refreshOver i s).clk = s.clk :=
  clk_of_only (ps := [.insts, .bki, .evr, .mbx]) (by simp) (by decide)
@[simp] theorem State.setStream_clk (s : State) (idx : Nat) (f : StreamEntry → StreamEntry) : (State.setStream s idx f).clk = s.clk :=
  clk_of_only (ps := [.sw]) (by simp) (by decide)
@[simp] theorem State.setFwd_clk (s : State) (idx : Nat) (f : FwdEntry → FwdEntry) : (State.setFwd s idx f).clk = s.clk :=
  clk_of_only (ps := [.sw]) (by simp) (by decide)
@[simp] theorem portCount_clk (k : Nat) (i : Nat) (s : State) (n : Nat) : (portCount k i s n).clk = s.clk :=
  clk_of_only (ps := [.ports]) (by simp) (by decide)
@[simp] theorem entryHold_clk (idx : Nat) (n : Nat) (s : State) : (entryHold idx n s).clk = s.clk :=
  clk_of_only (ps := [.sw]) (by simp) (by decide)
@[simp] theorem entryDone_clk (idx : Nat) (gen : Nat) (s : State) : (entryDone idx gen s).clk = s.clk :=
  clk_of_only (ps := [.sw]) (by simp) (by decide)
@[simp] theorem freeFrame_clk (n : Nat) (f : Stored) (s : State) : (freeFrame n f s).clk = s.clk :=
  clk_of_only (ps := [.sw, .insts, .bki, .evr, .mbx]) (by simp) (by decide)
@[simp] theorem copyDone_clk (n : Nat) (entry : Nat) (gen : Nat) (nonPort : Bool) (s : State) : (copyDone n entry gen nonPort s).clk = s.clk :=
  clk_of_only (ps := [.sw, .insts, .bki, .evr, .mbx]) (by simp) (by decide)
@[simp] theorem unsent_clk (c : TxCopy) (s : State) : (unsent c s).clk = s.clk := by
  unfold unsent
  dsimp only
  generalize (c.ts && _) = live
  cases live <;> rfl
@[simp] theorem txDone_clk (c : TxCopy) (s : State) : (txDone c s).clk = s.clk :=
  clk_of_only (ps := [.sw, .insts, .bki, .evr, .mbx]) (by simp) (by decide)
@[simp] theorem txDrop_clk (k : Nat) (counter : Nat) (c : TxCopy) (s : State) : (txDrop k counter c s).clk = s.clk := by simp [txDrop]
@[simp] theorem enqueue_clk (k : Nat) (c : TxCopy) (s : State) : (enqueue k c s).clk = s.clk := by simp [enqueue]
@[simp] theorem nodeSeen_clk (f : Stored) (s : State) : (nodeSeen f s).clk = s.clk := clk_of_only (ps := [.sw]) (by simp) (by decide)
@[simp] theorem deliver_clk (n : Nat) (entry : Nat) (gen : Nat) (d : Dest) (s : State) : (deliver n entry gen d s).clk = s.clk := by
  unfold deliver
  split <;> simp
@[simp] theorem evict_clk (n : Nat) (f : Stored) (s : State) : (evict n f s).clk = s.clk := by simp [evict]
@[simp] theorem makeRoom_clk (c cells n : Nat) (s : State) : (makeRoom c cells n s).clk = s.clk := by
  induction n generalizing s with
  | zero => rfl
  | succ n ih =>
    unfold makeRoom
    split
    · rfl
    · split
      · rfl
      · simp [ih]
@[simp] theorem storeFrame_clk (f : Stored) (entry : Nat) (gen : Nat) (ds : List Dest) (s : State) : (storeFrame f entry gen ds s).clk =
    s.clk := by
  unfold storeFrame
  split
  · rfl
  · dsimp only
    split
    · rw [swCount_clk, foldl_clk _ _ (fun t d => ?_), makeRoom_clk]
      split <;> simp
    · simp
@[simp] theorem redPorts_clk (mask : List Nat) (s : State) : (redPorts mask s).2.clk = s.clk := clk_of_only (ps := [.sw]) (by simp) (by decide)
@[simp] theorem mgpSend_clk (octets : List Byte) (pcp : Nat) (vid : Nat) (ports : List Nat) (s : State) :
    (mgpSend octets pcp vid ports s).clk = s.clk :=
  by simp [mgpSend]
@[simp] theorem flushQueues_clk (k : Nat) (counter : Nat) (s : State) : (flushQueues k counter s).clk = s.clk := by simp [flushQueues]
@[simp] theorem abandon_clk (k : Nat) (s : State) : (abandon k s).clk = s.clk := by
  unfold abandon
  split <;> simp
@[simp] theorem pauseSettle_clk (k : Nat) (s : State) : (pauseSettle k s).clk = s.clk := clk_of_only (ps := [.ports]) (by simp) (by decide)
@[simp] theorem countPause_clk (k : Nat) (s : State) : (countPause k s).clk = s.clk := clk_of_only (ps := [.ports]) (by simp) (by decide)
@[simp] theorem linkEvent_clk (k : Nat) (what : Nat) (s : State) : (linkEvent k what s).clk = s.clk :=
  clk_of_only (ps := [.bki, .evr, .mbx]) (by simp) (by decide)
@[simp] theorem portDown_clk (k : Nat) (s : State) : (portDown k s).clk = s.clk := by simp [portDown]
@[simp] theorem coilOff_clk (s : State) : (coilOff s).clk = s.clk := by simp [coilOff]
@[simp] theorem coilCheck_clk (s : State) : (coilCheck s).clk = s.clk := by simp [coilCheck]
@[simp] theorem told_clk (s : State) (t : State) : (told s t).clk = t.clk := clk_of_only (ps := [.mbx]) (by simp) (by decide)
@[simp] theorem setRole_clk (r : Role) (s : State) : (setRole r s).clk = s.clk :=
  clk_of_only (ps := [.cgu, .bki, .evr, .mbx]) (by simp) (by decide)
@[simp] theorem winFalls_clk (s : State) : (winFalls s).clk = s.clk := clk_of_only (ps := [.cgu]) (by simp) (by decide)
@[simp] theorem cguCount_clk (i : Nat) (s : State) : (cguCount i s).clk = s.clk := clk_of_only (ps := [.cgu]) (by simp) (by decide)
@[simp] theorem ocuCount_clk (i : Nat) (s : State) : (ocuCount i s).clk = s.clk := clk_of_only (ps := [.ocu]) (by simp) (by decide)
@[simp] theorem mlkCount_clk (i : Nat) (s : State) : (mlkCount i s).clk = s.clk := clk_of_only (ps := [.mlk]) (by simp) (by decide)
@[simp] theorem bkiCount_clk (i : Nat) (s : State) (n : Nat) : (bkiCount i s n).clk = s.clk :=
  clk_of_only (ps := [.bki]) (by simp) (by decide)
@[simp] theorem gateDrop_clk (counter : Nat) (g : GateFrame) (s : State) : (gateDrop counter g s).clk = s.clk := by simp [gateDrop]
@[simp] theorem heldAside_clk (n : Nat) (up : Bool) (s : State) : (heldAside n up s).clk = s.clk :=
  clk_of_only (ps := [.sw]) (by simp) (by decide)
@[simp] theorem gateRelease_clk (g : GateFrame) (s : State) : (gateRelease g s).clk = s.clk := by simp [gateRelease]
@[simp] theorem gateOne_clk (g : GateFrame) (s : State) : (gateOne g s).clk = s.clk := by simp [gateOne]
@[simp] theorem reexamine_clk (s : State) : (reexamine s).clk = s.clk := by simp [reexamine]
@[simp] theorem becomeOut_clk (hard : Bool) (s : State) : (becomeOut hard s).clk = s.clk := by simp [becomeOut]
@[simp] theorem switchRecord_clk (reason : Nat) (s : State) : (switchRecord reason s).clk = s.clk :=
  clk_of_only (ps := [.bki, .evr]) (by simp) (by decide)
@[simp] theorem endSwitch_clk (st : Status) (s : State) : (endSwitch st s).clk = s.clk :=
  clk_of_only (ps := [.mlk, .bki, .evr, .mbx, .mon]) (by simp) (by decide)
@[simp] theorem startTakeover_clk (s : State) : (startTakeover s).clk = s.clk :=
  clk_of_only (ps := [.cgu, .bki, .evr, .mbx, .persist]) (by simp) (by decide)
@[simp] theorem recordDecision_clk (row : Nat) (against : Option Bool) (k : CmpKey) (s : State) : (recordDecision row against k s).clk = s.clk :=
  clk_of_only (ps := [.ocu, .mlk, .bki, .evr, .mbx]) (by simp) (by decide)
@[simp] theorem actDecision_clk (row : Nat) (own : Bool) (s : State) : (actDecision row own s).clk = s.clk := by simp [actDecision]
@[simp] theorem refereeF_clk (s : State) : (refereeF s).clk = s.clk := by
  unfold refereeF
  dsimp only
  split_ifs <;> simp
@[simp] theorem releaseClaim_clk (s : State) : (releaseClaim s).clk = s.clk := by simp [releaseClaim]
@[simp] theorem mgpDown_clk (s : State) : (mgpDown s).clk = s.clk :=
  clk_of_only (ps := [.insts, .faults, .mbx, .persist, .mon]) (by simp) (by decide)
@[simp] theorem mgpRestart_clk (s : State) : (mgpRestart s).clk = s.clk :=
  clk_of_only (ps := [.insts, .bki, .faults, .mbx, .persist, .mon]) (by simp) (by decide)
@[simp] theorem mgpLoss_clk (s : State) : (mgpLoss s).clk = s.clk := by simp [mgpLoss]
@[simp] theorem bkiHold_clk (s : State) : (bkiHold s).clk = s.clk := clk_of_only (ps := [.bki]) (by simp) (by decide)
@[simp] theorem conditionEnds_clk (b : BlockId) (u : Nat) (s : State) : (conditionEnds b u s).clk = s.clk :=
  clk_of_only (ps := [.faults]) (by simp) (by decide)
@[simp] theorem retry_clk (b : BlockId) (u : Nat) (s : State) : (retry b u s).clk = s.clk :=
  clk_of_only (ps := [.ports, .head, .mlk]) (by simp) (by decide)
@[simp] theorem leaveFault_clk (b : BlockId) (u : Nat) (s : State) : (leaveFault b u s).clk = s.clk := by simp [leaveFault]
@[simp] theorem leaveDue_clk (b : BlockId) (u : Nat) (s : State) : (leaveDue b u s).clk = s.clk := by simp [leaveDue]
@[simp] theorem raise_clk (f : Finding) (s : State) : (raise f s).clk = s.clk := by
  unfold raise
  dsimp only
  split_ifs <;> simp
@[simp] theorem raiseRead_clk (b : BlockId) (u : Nat) (cls : Nat) (access : Nat) (addr : Nat) (owner : Master) (r : ReadFound) (s : State)
    (src : Option (BlockId × Nat)) : (raiseRead b u cls access addr owner r s src).clk = s.clk := by
  unfold raiseRead
  split <;> simp

end Sys2Proof.Machine
end

section
/-!
PROOFS. What the making, holding, dropping and completing of copies leaves as it is (`State.calm`): all of ports, descriptors, claim gate, time
base, mailbox and island but the queues and counters, the credit in use, the gate's list, the stamp accounts, the event ring and the records held.
-/
namespace Sys2Proof.Machine
open Sys2Proof

/-- A port without its queues and counters. -/
def Port.calm (p : Port) : Port := { p with queues := [], live := [] }

/-- A descriptor without the credit in use and its OVER. -/
def Inst.calm (d : Inst) : Inst := { d with useEgress := 0, overBits := 0 }

/-- The mailbox without the event ring and the vectors that are due. -/
def Mbx.calm (m : Mbx) : Mbx := { m with events := [], slots := [], evtTail := 0, evtLost := 0, lostDue := 0, msixDue := [] }

/-- The state as the copies leave it. -/
structure Calm where
  /-- the ports. -/
  port : Nat → Port
  /-- the descriptors. -/
  inst : Nat → Inst
  /-- the rest of the instances. -/
  insts : Insts
  /-- the claim gate. -/
  cgu : Cgu
  /-- the time base. -/
  time : Time
  /-- the mailbox. -/
  mbx : Mbx
  /-- the island. -/
  bki : Bki

/-- What the state holds of it. -/
def State.calm (s : State) : Calm :=
  { port := fun k => (s.port k).calm, inst := fun i => (s.inst i).calm, insts := { s.insts with desc := [] },
    cgu := { s.cgu with gate := [], live := [] }, time := s.clk, mbx := s.mbx.calm, bki := { s.bki with held := [], heldLost := 0 } }

/-! ### A port and a descriptor after a write -/

@[simp] theorem State.port_setPort_same (s : State) (k : Nat) (f : Port → Port) : (s.setPort k f).port k = f (s.port k) := by
  simp [State.port, State.setPort]

theorem State.port_setPort_other (s : State) {k j : Nat} (f : Port → Port) (h : j ≠ k) : (s.setPort k f).port j = s.port j := by
  simp [State.port, State.setPort, Tbl.get_set_other _ _ _ h]

@[simp] theorem State.inst_setInst_same (s : State) (i : Nat) (f : Inst → Inst) : (s.setInst i f).inst i = f (s.inst i) := by
  simp [State.inst, State.setInst]

theorem State.inst_setInst_other (s : State) {i j : Nat} (f : Inst → Inst) (h : j ≠ i) : (s.setInst i f).inst j = s.inst j := by
  simp [State.inst, State.setInst, Tbl.get_set_other _ _ _ h]

theorem port_of_ports {s t : State} (h : t.ports = s.ports) (k : Nat) : t.port k = s.port k := by rw [State.port, State.port, h]

theorem inst_of_insts {s t : State} (h : t.insts = s.insts) (i : Nat) : t.inst i = s.inst i := by rw [State.inst, State.inst, h]

/-! ### What follows from it -/

section
variable {s t : State} (h : t.calm = s.calm)
include h

theorem port_of_calm (k : Nat) : (t.port k).calm = (s.port k).calm := congrFun (congrArg Calm.port h) k

theorem inst_of_calm (i : Nat) : (t.inst i).calm = (s.inst i).calm := congrFun (congrArg Calm.inst h) i

theorem genCurrent_of_calm (i g : Nat) : t.genCurrent i g = s.genCurrent i g := by
  have hi := inst_of_calm h i
  have hgen : (t.inst i).gen = (s.inst i).gen := by simpa only [Inst.calm] using congrArg Inst.gen hi
  have hstate : (t.inst i).state = (s.inst i).state := by simpa only [Inst.calm] using congrArg Inst.state hi
  simp only [State.genCurrent, hgen, hstate]

end

/-! ### Updates -/

theorem calm_of_only {ps : List Part} {s t : State} (k : Only ps s t)
    (hp : ∀ p ∈ [Part.ports, .insts, .cgu, .time, .mbx, .bki], p ∉ ps) : t.calm = s.calm := by
  have hports : t.ports = s.ports := k.same .ports (hp _ (by simp))
  have hinsts : t.insts = s.insts := k.same .insts (hp _ (by simp))
  have hcgu : t.cgu = s.cgu := k.same .cgu (hp _ (by simp))
  have htime : t.time = s.time := k.same .time (hp _ (by simp))
  have hmbx : t.mbx = s.mbx := k.same .mbx (hp _ (by simp))
  have hbki : t.bki = s.bki := k.same .bki (hp _ (by simp))
  simp [State.calm, State.clk, port_of_ports hports, inst_of_insts hinsts, hinsts, hcgu, htime, hmbx, hbki]

@[simp] theorem calm_ite {a b : State} (c : Prop) [Decidable c] : (if c then a else b).calm = if c then a.calm else b.calm :=
  apply_ite State.calm c a b

@[simp] theorem foldl_calm {α : Type} (l : List α) (f : State → α → State) (k : ∀ t a, (f t a).calm = t.calm) (s : State) :
    (l.foldl f s).calm = s.calm := by
  induction l generalizing s with
  | nil => rfl
  | cons a l ih => rw [List.foldl_cons, ih, k]

theorem State.setPort_calm (s : State) (k : Nat) (f : Port → Port) (hf : (f (s.port k)).calm = (s.port k).calm) : (s.setPort k f).calm =
    s.calm := by
  have hports : (fun j => ((s.setPort k f).port j).calm) = fun j => (s.port j).calm := by
    funext j
    by_cases hj : j = k
    · rw [hj, State.port_setPort_same, hf]
    · rw [State.port_setPort_other _ _ hj]
  simp only [State.calm, hports]
  rfl

theorem State.setInst_calm (s : State) (i : Nat) (f : Inst → Inst) (hf : (f (s.inst i)).calm = (s.inst i).calm) : (s.setInst i f).calm =
    s.calm := by
  have hinst : (fun j => ((s.setInst i f).inst j).calm) = fun j => (s.inst j).calm := by
    funext j
    by_cases hj : j = i
    · rw [hj, State.inst_setInst_same, hf]
    · rw [State.inst_setInst_other _ _ hj]
  simp only [State.calm, hinst]
  rfl

theorem State.modCgu_calm (s : State) (f : Cgu → Cgu) (hf : { f s.cgu with gate := [], live := [] } = ({ s.cgu with gate := [], live := [] } :
    Cgu)) :
    (s.modCgu f).calm = s.calm := by
  simp only [State.calm, State.modCgu_cgu, hf]
  rfl

theorem State.modMbx_calm (s : State) (f : Mbx → Mbx) (hf : (f s.mbx).calm = s.mbx.calm) : (s.modMbx f).calm = s.calm := by
  simp only [State.calm, State.modMbx_mbx, hf]
  rfl

theorem State.modBki_calm (s : State) (f : Bki → Bki) (hf : { f s.bki with held := [], heldLost := 0 } =
    ({ s.bki with held := [], heldLost := 0 } : Bki)) :
    (s.modBki f).calm = s.calm := by
  simp only [State.calm, State.modBki_bki, hf]
  rfl

@[simp] theorem State.modSw_calm (s : State) (f) : (s.modSw f).calm = s.calm := rfl
@[simp] theorem State.modSce_calm (s : State) (f) : (s.modSce f).calm = s.calm := rfl
@[simp] theorem State.modAcq_calm (s : State) (f) : (s.modAcq f).calm = s.calm := rfl
@[simp] theorem State.modEvr_calm (s : State) (f) : (s.modEvr f).calm = s.calm := rfl

/-! ### Operations -/

@[simp] theorem post_calm (r : EvrRec) (s : State) : (post r s).calm = s.calm := by
  unfold post
  split
  · rfl
  · split
    · rfl
    · split
      · exact State.modBki_calm _ _ (by dsimp only; split <;> rfl)
      · rfl
@[simp] theorem note_calm (b : BlockId) (u code cls : Nat) (owner : Master) (detail : List Byte) (s : State) :
    (note b u code cls owner detail s).calm = s.calm := post_calm ..
@[simp] theorem vector_calm (v : Nat) (s : State) : (vector v s).calm = s.calm := State.modMbx_calm _ _ rfl
@[simp] theorem Mbx.putEvent_calm (m : Mbx) (r : Resp) : (m.putEvent r).calm = m.calm := rfl
@[simp] theorem Mbx.flushLost_calm (m : Mbx) : m.flushLost.calm = m.calm := by
  unfold Mbx.flushLost
  split <;> rfl
@[simp] theorem tellLost_calm (s : State) : (tellLost s).calm = s.calm := by
  unfold tellLost
  split
  · rw [State.modMbx_calm _ _ (Mbx.flushLost_calm _), note_calm]
  · rfl
@[simp] theorem emit_calm (opcode : Nat) (inst : Option Nat) (gen : Nat) (vals : List Nat) (s : State) (tag : Nat) (st : Status) :
    (emit opcode inst gen vals s tag st).calm = s.calm := by
  unfold emit
  dsimp only
  split_ifs
  · rw [State.modMbx_calm _ _ (by split_ifs <;> rfl), tellLost_calm, note_calm]
  · rw [note_calm]
  · rfl
@[simp] theorem emitInst_calm (i : Nat) (exhausted : Bool) (s : State) : (emitInst i exhausted s).calm = s.calm := by simp [emitInst]
@[simp] theorem refreshOver_calm (i : Nat) (s : State) : (refreshOver i s).calm = s.calm := by
  unfold refreshOver
  dsimp only
  split
  · exact (emit_calm ..).trans (State.setInst_calm _ _ _ rfl)
  · rfl
@[simp] theorem portCount_calm (k i : Nat) (s : State) (n : Nat) : (portCount k i s n).calm = s.calm := State.setPort_calm _ _ _ rfl
@[simp] theorem cguCount_calm (i : Nat) (s : State) : (cguCount i s).calm = s.calm := State.modCgu_calm _ _ rfl

@[simp] theorem State.took_calm (s : State) : (State.took s).calm = s.calm := calm_of_only (ps := [.free]) (by simp) (by decide)
@[simp] theorem swCount_calm (i : Nat) (s : State) (n : Nat) : (swCount i s n).calm = s.calm := calm_of_only (ps := [.sw]) (by simp) (by decide)
@[simp] theorem entryHold_calm (idx : Nat) (n : Nat) (s : State) : (entryHold idx n s).calm = s.calm :=
  calm_of_only (ps := [.sw]) (by simp) (by decide)
@[simp] theorem entryDone_calm (idx : Nat) (gen : Nat) (s : State) : (entryDone idx gen s).calm = s.calm :=
  calm_of_only (ps := [.sw]) (by simp) (by decide)
@[simp] theorem nodeSeen_calm (f : Stored) (s : State) : (nodeSeen f s).calm = s.calm := calm_of_only (ps := [.sw]) (by simp) (by decide)
@[simp] theorem State.setAcqS_calm (s : State) (n : Nat) (f : AcqStream → AcqStream) : (State.setAcqS s n f).calm = s.calm :=
  calm_of_only (ps := [.acq]) (by simp) (by decide)
@[simp] theorem acqCount_calm (i : Nat) (s : State) (n : Nat) : (acqCount i s n).calm = s.calm :=
  calm_of_only (ps := [.acq]) (by simp) (by decide)
@[simp] theorem acqPut_calm (n : Nat) (item : List Byte) (s : State) : (acqPut n item s).calm = s.calm :=
  calm_of_only (ps := [.acq]) (by simp) (by decide)
@[simp] theorem acqStop_calm (n : Nat) (reason : Nat) (s : State) : (acqStop n reason s).calm = s.calm := by simp [acqStop]
@[simp] theorem acqLost_calm (p : AcqSrc → Bool) (s : State) : (acqLost p s).calm = s.calm := by simp [acqLost]
@[simp] theorem freeFrame_calm (n : Nat) (f : Stored) (s : State) : (freeFrame n f s).calm = s.calm := by
  unfold freeFrame
  dsimp only
  split
  · exact (refreshOver_calm ..).trans (State.setInst_calm _ _ _ rfl)
  · rfl
@[simp] theorem copyDone_calm (n : Nat) (entry : Nat) (gen : Nat) (nonPort : Bool) (s : State) : (copyDone n entry gen nonPort s).calm = s.calm :=
  by simp [copyDone]
@[simp] theorem unsent_calm (c : TxCopy) (s : State) : (unsent c s).calm = s.calm := by
  unfold unsent
  dsimp only
  generalize (c.ts && _) = live
  cases live <;> rfl
@[simp] theorem txDone_calm (c : TxCopy) (s : State) : (txDone c s).calm = s.calm := by simp [txDone]
@[simp] theorem txDrop_calm (k : Nat) (counter : Nat) (c : TxCopy) (s : State) : (txDrop k counter c s).calm = s.calm := by simp [txDrop]
@[simp] theorem enqueue_calm (k : Nat) (c : TxCopy) (s : State) : (enqueue k c s).calm = s.calm := by
  unfold enqueue
  dsimp only
  split_ifs
  · simp
  · simp
  · exact State.setPort_calm _ _ _ rfl
@[simp] theorem deliver_calm (n : Nat) (entry : Nat) (gen : Nat) (d : Dest) (s : State) : (deliver n entry gen d s).calm = s.calm := by
  cases d with
  | gate k c ctrl claim =>
    simp only [deliver]
    split_ifs
    · simp
    · simp
    · exact State.modCgu_calm _ _ rfl
  | _ => simp [deliver]
@[simp] theorem evict_calm (n : Nat) (f : Stored) (s : State) : (evict n f s).calm = s.calm := by
  refine (foldl_calm _ _ (fun t k => ?_) _).trans (swCount_calm _ _ _)
  exact (foldl_calm _ _ (fun t c => txDrop_calm ..) _).trans ((State.modCgu_calm _ _ rfl).trans (State.setPort_calm _ _ _ rfl))
@[simp] theorem makeRoom_calm (c cells n : Nat) (s : State) : (makeRoom c cells n s).calm = s.calm := by
  induction n generalizing s with
  | zero => rfl
  | succ n ih =>
    unfold makeRoom
    split
    · rfl
    · split
      · rfl
      · simp [ih]
@[simp] theorem storeFrame_calm (f : Stored) (entry : Nat) (gen : Nat) (ds : List Dest) (s : State) : (storeFrame f entry gen ds s).calm =
    s.calm := by
  unfold storeFrame
  split
  · rfl
  · dsimp only
    split
    · rw [swCount_calm, foldl_calm _ _ (fun t d => ?_), makeRoom_calm]
      split <;> simp
    · simp
@[simp] theorem redPorts_calm (mask : List Nat) (s : State) : (redPorts mask s).2.calm = s.calm := rfl
@[simp] theorem storeCharged_calm (inst : Option (Nat × Nat)) (f : Stored) (ds : List Dest) (s : State) : (storeCharged inst f ds s).calm =
    s.calm := by
  unfold storeCharged
  dsimp only
  split
  · simp
  · split
    · exact (State.setInst_calm _ _ _ rfl).trans ((storeFrame_calm ..).trans (State.setInst_calm _ _ _ rfl))
    · exact (storeFrame_calm ..).trans (State.setInst_calm _ _ _ rfl)
@[simp] theorem mgpSend_calm (octets : List Byte) (pcp : Nat) (vid : Nat) (ports : List Nat) (s : State) :
    (mgpSend octets pcp vid ports s).calm = s.calm :=
  by simp [mgpSend]
@[simp] theorem storeSegment_calm (k : Nat) (x : LargeSend) (octets : List Byte) (s : State) : (storeSegment k x octets s).calm = s.calm :=
  by simp [storeSegment]
@[simp] theorem flushQueues_calm (k : Nat) (counter : Nat) (s : State) : (flushQueues k counter s).calm = s.calm := by
  exact (foldl_calm _ _ (fun t c => txDrop_calm ..) _).trans ((State.setPort_calm _ _ _ rfl).trans (State.modCgu_calm _ _ rfl))
@[simp] theorem linkEvent_calm (k : Nat) (what : Nat) (s : State) : (linkEvent k what s).calm = s.calm := by simp [linkEvent]
@[simp] theorem gateDrop_calm (counter : Nat) (g : GateFrame) (s : State) : (gateDrop counter g s).calm = s.calm := by simp [gateDrop]
@[simp] theorem gateRelease_calm (g : GateFrame) (s : State) : (gateRelease g s).calm = s.calm := by simp [gateRelease]

end Sys2Proof.Machine
end

section
/-!
PROOFS. Findings of class K and F (R369 to R373): the fault set after a finding with its reactions, and the obligations O11 and O12.
-/
namespace Sys2Proof.Machine
open Sys2Proof

/-! ### What leaves the fault sets alone -/

theorem fset_of_only {ps : List Part} {s t : State} (k : Only ps s t) (hp : Part.faults ∉ ps) {b : BlockId} {u : Nat} :
    t.fset b u = s.fset b u := by
  have h : t.faults = s.faults := k.same .faults hp
  simp [State.fset, h]

theorem unitF_of_only {ps : List Part} {s t : State} (k : Only ps s t) (hp : Part.faults ∉ ps) : t.unitF = s.unitF := by
  have h : t.faults = s.faults := k.same .faults hp
  simp [State.unitF, h]

@[simp] theorem note_fset (b : BlockId) (u : Nat) (code : Nat) (cls : Nat) (owner : Master) (detail : List Byte) (s : State) (c : BlockId) (v :
    Nat) : (note b u code cls owner detail s).fset c v = s.fset c v :=
  fset_of_only (ps := [.bki, .evr]) (by simp) (by decide)
@[simp] theorem emit_fset (opcode : Nat) (inst : Option Nat) (gen : Nat) (vals : List Nat) (s : State) (tag : Nat) (st : Status) (b : BlockId)
    (u : Nat) : (emit opcode inst gen vals s tag st).fset b u = s.fset b u :=
  fset_of_only (ps := [.bki, .evr, .mbx]) (by simp) (by decide)
@[simp] theorem told_fset (s : State) (t : State) (b : BlockId) (u : Nat) : (told s t).fset b u = t.fset b u :=
  fset_of_only (ps := [.mbx]) (by simp) (by decide)
@[simp] theorem vector_fset (v : Nat) (s : State) (b : BlockId) (u : Nat) : (vector v s).fset b u = s.fset b u :=
  fset_of_only (ps := [.mbx]) (by simp) (by decide)
@[simp] theorem refereeF_fset (s : State) (b : BlockId) (u : Nat) : (refereeF s).fset b u = s.fset b u :=
  fset_of_only (ps := [.ports, .sw, .insts, .cgu, .ocu, .mlk, .time, .bki, .evr, .mbx, .persist]) (by simp) (by decide)
@[simp] theorem retry_fset (b : BlockId) (u : Nat) (s : State) (c : BlockId) (v : Nat) : (retry b u s).fset c v = s.fset c v :=
  fset_of_only (ps := [.ports, .head, .mlk]) (by simp) (by decide)
@[simp] theorem coilCheck_fset (s : State) (b : BlockId) (u : Nat) : (coilCheck s).fset b u = s.fset b u :=
  fset_of_only (ps := [.ports, .head, .sw, .insts, .cgu, .time, .bki, .evr, .mbx]) (by simp) (by decide)
@[simp] theorem bkiHold_fset (s : State) (b : BlockId) (u : Nat) : (bkiHold s).fset b u = s.fset b u :=
  fset_of_only (ps := [.bki]) (by simp) (by decide)
@[simp] theorem post_unitF (r : EvrRec) (s : State) : (post r s).unitF = s.unitF := unitF_of_only (ps := [.bki, .evr]) (by simp) (by decide)
@[simp] theorem emit_unitF (opcode : Nat) (inst : Option Nat) (gen : Nat) (vals : List Nat) (s : State) (tag : Nat) (st : Status) :
    (emit opcode inst gen vals s tag st).unitF = s.unitF :=
  unitF_of_only (ps := [.bki, .evr, .mbx]) (by simp) (by decide)
@[simp] theorem refereeF_unitF (s : State) : (refereeF s).unitF = s.unitF :=
  unitF_of_only (ps := [.ports, .sw, .insts, .cgu, .ocu, .mlk, .time, .bki, .evr, .mbx, .persist]) (by simp) (by decide)
@[simp] theorem coilCheck_unitF (s : State) : (coilCheck s).unitF = s.unitF :=
  unitF_of_only (ps := [.ports, .head, .sw, .insts, .cgu, .time, .bki, .evr, .mbx]) (by simp) (by decide)
@[simp] theorem vector_unitF (v : Nat) (s : State) : (vector v s).unitF = s.unitF := unitF_of_only (ps := [.mbx]) (by simp) (by decide)
@[simp] theorem bkiHold_unitF (s : State) : (bkiHold s).unitF = s.unitF := unitF_of_only (ps := [.bki]) (by simp) (by decide)

/-- What a table holds at a number is what an unlisted number reads as, or is listed. -/
theorem Tbl.get_eq_or_mem {α : Type} (t : Tbl α) (k : Nat) (d : α) : t.get k d = d ∨ (k, t.get k d) ∈ t := by
  induction t with
  | nil => exact .inl rfl
  | cons p t ih =>
    obtain ⟨j, a⟩ := p
    by_cases h : j = k
    · exact .inr (by simp [Tbl.get, h])
    · simpa [Tbl.get, h, Ne.symm h] using ih

/-- A set with F_ACTIVE makes UNIT_F 1 (R370). -/
theorem unitF_of_fset {s : State} {b : BlockId} {u : Nat} (h : (s.fset b u).fActive = true) : s.unitF = true := by
  rw [State.unitF, List.any_eq_true]
  rcases Tbl.get_eq_or_mem s.faults.sets (setKey b u) {} with hd | hm
  · rw [State.fset, hd] at h
    cases h
  · exact ⟨_, hm, h⟩

/-! ### The fields of a set after `FaultSet.take` -/

section
variable (x : FaultSet) (f : Finding) (r : FirstErr) (now : Nat)

theorem FaultSet.take_cntK : (x.take f r now).cntK = if f.inj = false ∧ f.cls = 2 then satAdd 32 x.cntK 1 else x.cntK := by
  simp [FaultSet.take, FaultSet.enter, FaultSet.count, apply_ite FaultSet.cntK]
  split_ifs <;> simp_all

theorem FaultSet.take_cntF : (x.take f r now).cntF = if f.inj = false ∧ f.cls = 3 then satAdd 32 x.cntF 1 else x.cntF := by
  simp [FaultSet.take, FaultSet.enter, FaultSet.count, apply_ite FaultSet.cntF]
  split_ifs <;> simp_all

theorem FaultSet.take_injected : (x.take f r now).injected = if f.inj then satAdd 16 x.injected 1 else x.injected := by
  simp [FaultSet.take, FaultSet.enter, FaultSet.count, apply_ite FaultSet.injected]

theorem FaultSet.take_lastKind : (x.take f r now).lastKind = f.kind := by
  simp [FaultSet.take, FaultSet.enter, FaultSet.count, apply_ite FaultSet.lastKind]

theorem FaultSet.take_fActive : (x.take f r now).fActive = (x.fActive || decide (f.cls = 3)) := by
  simp [FaultSet.take, FaultSet.enter, FaultSet.count, apply_ite FaultSet.fActive]

theorem FaultSet.take_state : (x.take f r now).state = (f.counts || x.state) := by
  simp [FaultSet.take, FaultSet.enter, FaultSet.count, apply_ite FaultSet.state]

theorem FaultSet.take_quietFrom : (x.take f r now).quietFrom = if f.counts then now else x.quietFrom := by
  simp [FaultSet.take, FaultSet.enter, FaultSet.count, apply_ite FaultSet.quietFrom]

theorem FaultSet.take_persist : (x.take f r now).persist = (x.persist || f.counts && f.persist) := by
  simp [FaultSet.take, FaultSet.enter, FaultSet.count, apply_ite FaultSet.persist]
  cases f.counts <;> simp

end

/-! ### The set after a finding -/

/-- A real K or F finding ends an injection that is armed (R381). -/
def FaultSet.aborted (x : FaultSet) (f : Finding) : FaultSet :=
  if !f.inj && decide (2 ≤ f.cls) && x.injArm then { x with injArm := false, injState := 3 } else x

@[simp] theorem abortInjection_fset (f : Finding) (s : State) :
    (abortInjection f s).fset f.block f.unit = (s.fset f.block f.unit).aborted f := by
  unfold abortInjection FaultSet.aborted
  dsimp only
  split_ifs <;> simp

@[simp] theorem FaultSet.aborted_captureAct (x : FaultSet) (f : Finding) : (x.aborted f).captureAct = x.captureAct := by
  unfold FaultSet.aborted
  split <;> rfl

/-- An injection that is armed or ended is all that is written. -/
theorem FaultSet.aborted_eq (x : FaultSet) (f : Finding) : ∃ a n, x.aborted f = { x with injArm := a, injState := n } := by
  unfold FaultSet.aborted
  split
  · exact ⟨_, _, rfl⟩
  · exact ⟨x.injArm, x.injState, rfl⟩

/-- The record of a finding names the time base alone. -/
theorem Finding.record_congr (f : Finding) (latch : Bool) {s t : State} (h : t.clk = s.clk) : f.record latch t = f.record latch s := by
  simp only [Finding.record, tbNs_of_clk h, stepEpoch_of_clk h, show t.time.age = s.time.age from now_of_clk h]

@[simp] theorem finding_fset (f : Finding) (s : State) :
    (finding f s).fset f.block f.unit =
      ((s.fset f.block f.unit).aborted f).take f (f.record (s.fset f.block f.unit).captureAct s) s.now := by
  have hclk : (abortInjection f s).clk = s.clk := by simp
  unfold finding
  dsimp only
  split_ifs <;> simp [now_of_clk hclk, f.record_congr _ hclk]

theorem abortInjection_fset_other (f : Finding) (s : State) {b : BlockId} {u : Nat} (h : setKey b u ≠ setKey f.block f.unit) :
    (abortInjection f s).fset b u = s.fset b u := by
  unfold abortInjection
  dsimp only
  split
  · simp [State.fset_setFset_other _ _ h]
  · rfl

theorem finding_fset_other (f : Finding) (s : State) {b : BlockId} {u : Nat} (h : setKey b u ≠ setKey f.block f.unit) :
    (finding f s).fset b u = s.fset b u := by
  unfold finding
  dsimp only
  split_ifs <;> simp [State.fset_setFset_other _ _ h, abortInjection_fset_other _ _ h]

/-! ### The set after a finding with its reactions -/

/-- The state in which a finding is recorded: a block whose quiet period is over has left fault state (R373). -/
def foundIn (f : Finding) (s : State) : State := if f.counts then leaveDue f.block f.unit s else s

theorem foundIn_of_counts {f : Finding} {s : State} (h : f.counts = true) (hq : s.quietOver f.block f.unit = true) :
    foundIn f s = leaveFault f.block f.unit s := by simp [foundIn, leaveDue, h, hq]

theorem foundIn_of_running {f : Finding} {s : State} (hq : s.quietOver f.block f.unit = false) : foundIn f s = s := by
  simp [foundIn, leaveDue, hq]

@[simp] theorem foundIn_clk (f : Finding) (s : State) : (foundIn f s).clk = s.clk := by simp [foundIn]

/-- A block has left fault state, and the host and the recorder know (R373). -/
def leftFault (b : BlockId) (u : Nat) (s : State) : State :=
  let cls := (s.fset b u).lastClass
  let s := told s (s.setFset b u fun x => { x with
    state := false, fActive := false, recoveries := satAdd 16 x.recoveries 1, int := setBit x.int 4 true })
  emit 0x09F0 none 0 [b.id, u, cls, 0] (note b u (findingCode b 15) 0 .none (faultDetail { block := b, kind := 15 } 0) s)

/-- It is put to the referee, and the block tries again what it held out (R374). -/
theorem leaveFault_eq (b : BlockId) (u : Nat) (s : State) : leaveFault b u s = retry b u (refereeF (leftFault b u s)) := rfl

theorem leftFault_only (b : BlockId) (u : Nat) (s : State) : Only [.faults, .bki, .evr, .mbx] s (leftFault b u s) := by
  unfold leftFault
  exact Only.trans (t := told s (s.setFset b u fun x => { x with
    state := false, fActive := false, recoveries := satAdd 16 x.recoveries 1, int := setBit x.int 4 true })) (by simp) (by simp)

/-- What a block that leaves fault state writes in its set. -/
def FaultSet.left (x : FaultSet) : FaultSet :=
  { x with state := false, fActive := false, recoveries := satAdd 16 x.recoveries 1, int := setBit x.int 4 true }

@[simp] theorem leaveFault_fset (b : BlockId) (u : Nat) (s : State) : (leaveFault b u s).fset b u = (s.fset b u).left := by
  simp [leaveFault, FaultSet.left]

/-- The set in which a finding is recorded. -/
theorem foundIn_fset (f : Finding) (s : State) : (foundIn f s).fset f.block f.unit =
    if f.counts && s.quietOver f.block f.unit then (s.fset f.block f.unit).left else s.fset f.block f.unit := by
  unfold foundIn leaveDue
  cases f.counts <;> cases s.quietOver f.block f.unit <;> simp

/-- The coil conditions after a finding (R102). -/
def coilAfter (f : Finding) (s : State) : State := if f.block = .byp ∧ f.counts then coilCheck s else s

theorem raise_of_classK {f : Finding} (hc : f.cls = 2) (s : State) : raise f s = coilAfter f (finding f (foundIn f s)) := by
  simp [raise, hc, coilAfter, foundIn]

theorem raise_of_classF {f : Finding} (hc : f.cls = 3) (hb : f.block ≠ .mgp) (s : State) :
    raise f s = vector 19 (refereeF (if f.block = .bki then bkiHold (coilAfter f (finding f (foundIn f s)))
      else coilAfter f (finding f (foundIn f s)))) := by
  simp [raise, hc, hb, coilAfter, foundIn]

@[simp] theorem coilAfter_fset (f : Finding) (s : State) (b : BlockId) (u : Nat) : (coilAfter f s).fset b u = s.fset b u := by
  unfold coilAfter
  split <;> simp

/-- The set after a finding that counts its class and has no more to do with the MGP than the other blocks'. -/
theorem raise_fset {f : Finding} (hc : f.cls = 2 ∨ f.cls = 3 ∧ f.block ≠ .mgp) (s : State) :
    (raise f s).fset f.block f.unit = (((foundIn f s).fset f.block f.unit).aborted f).take f
      (f.record (s.fset f.block f.unit).captureAct s) s.now := by
  have hlatch : ((foundIn f s).fset f.block f.unit).captureAct = (s.fset f.block f.unit).captureAct := by
    rw [foundIn_fset]
    split <;> rfl
  have hclk : (foundIn f s).clk = s.clk := by simp
  have hset : (finding f (foundIn f s)).fset f.block f.unit = (((foundIn f s).fset f.block f.unit).aborted f).take f
      (f.record (s.fset f.block f.unit).captureAct s) s.now := by
    rw [finding_fset, hlatch, f.record_congr _ hclk, now_of_clk hclk]
  rcases hc with hc | ⟨hc, hb⟩
  · rw [raise_of_classK hc, coilAfter_fset, hset]
  · rw [raise_of_classF hc hb, vector_fset, refereeF_fset]
    split <;> simp [hset]

/-- The set in which a finding is recorded differs from the set before it in what the end of a quiet period and of an injection write. -/
theorem foundIn_aborted (f : Finding) (s : State) : ∃ a n st act r i,
    ((foundIn f s).fset f.block f.unit).aborted f = { s.fset f.block f.unit with
      injArm := a, injState := n, state := st, fActive := act, recoveries := r, int := i }
    ∧ (f.kind = 2 → st = (s.fset f.block f.unit).state)
    ∧ (s.quietOver f.block f.unit = false → act = (s.fset f.block f.unit).fActive) := by
  obtain ⟨a, n, hab⟩ := FaultSet.aborted_eq ((foundIn f s).fset f.block f.unit) f
  rw [foundIn_fset] at hab
  rw [foundIn_fset, hab]
  split
  case isTrue h =>
    simp only [Finding.counts, Bool.and_eq_true, bne_iff_ne, ne_eq] at h
    exact ⟨a, n, _, _, _, _, rfl, fun hk => absurd hk h.1.2, fun hq => absurd hq (by simp [h.2])⟩
  case isFalse => exact ⟨a, n, _, _, _, _, rfl, fun _ => rfl, fun _ => rfl⟩

section
variable {f : Finding} (hc : f.cls = 2 ∨ f.cls = 3 ∧ f.block ≠ .mgp) (s : State)
include hc

theorem raise_counts_iff : f.counts = true ↔ f.kind ≠ 2 := by
  rcases hc with hc | ⟨hc, -⟩ <;> simp [Finding.counts, hc]

/-- A finding that is not POISONED brings its block into fault state, and the quiet period runs from then (R372). -/
theorem raise_state (hk : f.kind ≠ 2) : ((raise f s).fset f.block f.unit).state = true := by
  simp [raise_fset hc, FaultSet.take_state, (raise_counts_iff hc).2 hk]

theorem raise_persist (hk : f.kind ≠ 2) :
    ((raise f s).fset f.block f.unit).persist = ((s.fset f.block f.unit).persist || f.persist) := by
  obtain ⟨a, n, st, act, r, i, hfound, -, -⟩ := foundIn_aborted f s
  simp [raise_fset hc, FaultSet.take_persist, (raise_counts_iff hc).2 hk, hfound]

theorem raise_lastKind : ((raise f s).fset f.block f.unit).lastKind = f.kind := by simp [raise_fset hc, FaultSet.take_lastKind]

theorem raise_cntK : ((raise f s).fset f.block f.unit).cntK =
    if f.inj = false ∧ f.cls = 2 then satAdd 32 (s.fset f.block f.unit).cntK 1 else (s.fset f.block f.unit).cntK := by
  obtain ⟨a, n, st, act, r, i, hfound, -, -⟩ := foundIn_aborted f s
  simp [raise_fset hc, FaultSet.take_cntK, hfound]

theorem raise_cntF : ((raise f s).fset f.block f.unit).cntF =
    if f.inj = false ∧ f.cls = 3 then satAdd 32 (s.fset f.block f.unit).cntF 1 else (s.fset f.block f.unit).cntF := by
  obtain ⟨a, n, st, act, r, i, hfound, -, -⟩ := foundIn_aborted f s
  simp [raise_fset hc, FaultSet.take_cntF, hfound]

theorem raise_fActive (hF : f.cls = 3) : ((raise f s).fset f.block f.unit).fActive = true := by
  simp [raise_fset hc, FaultSet.take_fActive, hF]

end

/-- The coil is energised in SUMMER with every condition of R102 met. -/
def coilOnState : State :=
  { head := { present := true, loopOk := true, coil := true }, power := { mainGood := true }, season := { season := .summer } }

/-- Its conditions are those of unit 0: a finding of another unit of BYP, which has none, leaves the coil as it is. -/
theorem raise_coil_of_unitless {f : Finding} (hc : f.cls = 2) (hset : setKey .byp 0 ≠ setKey f.block f.unit) {s : State}
    (hq : s.quietOver f.block f.unit = false) (hallowed : coilAllowed s = true) : (raise f s).head = s.head := by
  have hkept : Only [.bki, .faults, .evr, .mbx] s (finding f s) := by simp
  have hhead : (finding f s).head = s.head := hkept.same .head (by decide)
  have hpower : (finding f s).power = s.power := hkept.same .power (by decide)
  have hseason : (finding f s).season = s.season := hkept.same .season (by decide)
  have hstill : coilAllowed (finding f s) = true := by
    simpa only [coilAllowed, State.inFault, hhead, hpower, hseason, finding_fset_other f s hset] using hallowed
  have hcoil : coilAfter f (finding f s) = finding f s := by simp [coilAfter, coilCheck, hstill]
  rw [raise_of_classK hc, foundIn_of_running hq, hcoil, hhead]

/-- Refutes O11: a finding of BYP that names a unit BYP does not have enters the set of that unit, and the coil stays energised. -/
theorem not_containedFindingEntersFaultState : ¬ Obligations.ContainedFindingEntersFaultState := by
  intro h
  have hkept : (raise { block := .byp, unit := 1, kind := 4 } coilOnState).head = coilOnState.head :=
    raise_coil_of_unitless rfl (by decide) (by decide) (by decide)
  obtain ⟨-, -, hcoil, -⟩ := h { block := .byp, unit := 1, kind := 4 } coilOnState rfl
  have hoff := hcoil rfl (by decide)
  rw [hkept] at hoff
  exact absurd hoff (by decide)

/-- The state in which a transfer that has waited too long has failed, before the finding (R30). -/
def transferFailed (b : BlockId) (u tag : Nat) (owner : Master) (waited : Nat) (s : State) : State :=
  let o : PendingOp := { block := b, unit := u, tag := tag, owner := owner, started := s.now - us waited, released := true,
                         acc := (s.fab.ops.find? (pendingAs b u tag)).bind PendingOp.acc }
  opFails o (s.modFab fun x => { x with ops := (x.ops.filter fun p => !pendingAs b u tag p) ++ [o] })

theorem exec_transferTimeout (b : BlockId) (u tag : Nat) (owner : Master) {waited : Nat} {s : State} (h : timeoutOf b u s ≤ waited) :
    exec (.transferTimeout b u tag owner waited) s =
      .next (raise { block := b, unit := u, kind := 4, owner := owner, access := 5 } (transferFailed b u tag owner waited s)) := by
  simp [exec, execTransferTimeout, h, transferFailed]

/-- Refutes O9: a timeout at a unit that BYP does not have is a fault of BYP that leaves the coil energised. -/
theorem not_fabricScrubbingAndSupplies : ¬ Obligations.FabricScrubbingAndSupplies := by
  intro h
  obtain ⟨-, -, -, htimeout, -⟩ := h
  have hwaited : timeoutOf .byp 1 coilOnState ≤ 100 := by decide
  obtain ⟨t, hexec, -, hcoil, -⟩ := htimeout .byp 1 0 .none 100 coilOnState hwaited
  rw [exec_transferTimeout .byp 1 0 .none hwaited] at hexec
  have hkept := raise_coil_of_unitless (f := { block := .byp, unit := 1, kind := 4, owner := .none, access := 5 }) rfl (by decide)
    (s := transferFailed .byp 1 0 .none 100 coilOnState) (by decide) (by decide)
  have hoff := hcoil rfl
  rw [← Host.Outcome.next.inj hexec, hkept] at hoff
  exact absurd hoff (by decide)

/-- Settles O12: the set after the finding (`raise_fset`) has F_ACTIVE, which makes UNIT_F 1 (`unitF_of_fset`). -/
theorem unitFailureSetsUnitF : Obligations.UnitFailureSetsUnitF := by
  intro f s hc hb
  have hF : f.cls = 2 ∨ f.cls = 3 ∧ f.block ≠ .mgp := .inr ⟨hc, hb⟩
  have hactive := raise_fActive hF s hc
  exact ⟨unitF_of_fset hactive, hactive, raise_state hF s, fun hi => by simp [raise_cntF hF, hi, hc]⟩

end Sys2Proof.Machine
end

section
/-!
PROOFS. Counting at a port (`Counts`), the pause frames that act (`Port.settled`), and the obligations O13 to O15.
-/
namespace Sys2Proof.Machine
open Sys2Proof

/-! ### Counters of one port -/

/-- From `s` to `t` nothing changes but counters of port `k` that `is` lists. -/
structure Counts (k : Nat) (is : List Nat) (s t : State) : Prop where
  /-- only ports change. -/
  only : Only [.ports] s t
  /-- no other port changes. -/
  others : ∀ j, j ≠ k → t.port j = s.port j
  /-- of the port only the counters change. -/
  same : t.port k = { s.port k with live := (t.port k).live }
  /-- a counter not listed is the same. -/
  kept : ∀ i, i ∉ is → (t.port k).live.get i 0 = (s.port k).live.get i 0

theorem Counts.refl (k : Nat) (is : List Nat) (s : State) : Counts k is s s := ⟨Only.refl _ s, fun _ _ => rfl, rfl, fun _ _ => rfl⟩

theorem Counts.trans {k : Nat} {is : List Nat} {s t u : State} (h : Counts k is s t) (g : Counts k is t u) : Counts k is s u :=
  ⟨h.only.trans g.only, fun j hj => (g.others j hj).trans (h.others j hj), by rw [g.same, h.same],
    fun i hi => (g.kept i hi).trans (h.kept i hi)⟩

theorem Counts.mono {k : Nat} {is js : List Nat} {s t : State} (h : Counts k is s t) (hsub : ∀ i ∈ is, i ∈ js) : Counts k js s t :=
  ⟨h.only, h.others, h.same, fun i hi => h.kept i fun hm => hi (hsub i hm)⟩

theorem Counts.now {k : Nat} {is : List Nat} {s t : State} (h : Counts k is s t) : t.now = s.now := by
  have htime : t.time = s.time := h.only.same .time (by decide)
  rw [State.now, htime, State.now]

@[simp] theorem portCount_port_same (k i : Nat) (s : State) (n : Nat) :
    (portCount k i s n).port k = { s.port k with live := bump (s.port k).live i n } := State.port_setPort_same ..

theorem portCount_port_other {k j : Nat} (i : Nat) (s : State) (n : Nat) (h : j ≠ k) : (portCount k i s n).port j = s.port j :=
  State.port_setPort_other _ _ h

theorem portCount_counts (k i : Nat) (s : State) (n : Nat) : Counts k [i] s (portCount k i s n) where
  only := by simp
  others j hj := portCount_port_other i s n hj
  same := by simp
  kept j hj := by
    have hne : j ≠ i := by simpa using hj
    simp [bump_other _ _ hne]

/-- A counter is raised on a state in which only others were. -/
theorem Counts.raised {k i : Nat} {is : List Nat} {s t : State} (h : Counts k is s t) (hi : i ∉ is) (n : Nat) :
    ((portCount k i t n).port k).live.get i 0 = satAdd 64 ((s.port k).live.get i 0) n := by
  simp [h.kept i hi]

theorem Counts.step {k i : Nat} {is : List Nat} {s t : State} (h : Counts k is s t) (hi : i ∈ is) (n : Nat) :
    Counts k is s (portCount k i t n) := h.trans ((portCount_counts k i t n).mono (by simpa using hi))

/-! ### Pause frames that have come (R82) -/

/-- A port without its pauses and counters. -/
def Port.still (p : Port) : Port :=
  { p with paused := false, pauseFrom := 0, pauseQuanta := 0, pauseCounted := 0, pauseRunFrom := none, pauseDeaf := false, pauseNext := [], live := [] }

@[simp] theorem Port.counted_still (p : Port) (now : Nat) : (p.counted now).still = p.still := by
  unfold Port.counted
  split <;> rfl

@[simp] theorem Port.pausePoint_still (p : Port) (a q : Nat) : (p.pausePoint a q).still = p.still := by
  unfold Port.pausePoint
  dsimp only
  split_ifs
  · rfl
  · exact Port.counted_still p a
  · exact Port.counted_still p a

/-- Only the quanta honoured are counted when a pause frame acts. -/
theorem Port.counted_live (p : Port) (now : Nat) {i : Nat} (hi : i ≠ 30) : (p.counted now).live.get i 0 = p.live.get i 0 := by
  unfold Port.counted
  split
  · exact bump_other _ _ hi
  · rfl

theorem Port.pausePoint_live (p : Port) (a q : Nat) {i : Nat} (hi : i ≠ 30) : (p.pausePoint a q).live.get i 0 = p.live.get i 0 := by
  unfold Port.pausePoint
  dsimp only
  split_ifs
  · rfl
  · exact Port.counted_live p a hi
  · exact Port.counted_live p a hi

/-- The pause frames of a list act on a port one after another. -/
def Port.pausePoints (p : Port) (l : List (Nat × Nat)) : Port := l.foldl (fun p x => p.pausePoint x.1 x.2) p

@[simp] theorem Port.pausePoints_still (p : Port) (l : List (Nat × Nat)) : (p.pausePoints l).still = p.still := by
  induction l generalizing p with
  | nil => rfl
  | cons x l ih => exact (ih _).trans (Port.pausePoint_still ..)

theorem Port.pausePoints_live (p : Port) (l : List (Nat × Nat)) {i : Nat} (hi : i ≠ 30) :
    (p.pausePoints l).live.get i 0 = p.live.get i 0 := by
  induction l generalizing p with
  | nil => rfl
  | cons x l ih => exact (ih _).trans (Port.pausePoint_live _ _ _ hi)

theorem Port.settled_eq (p : Port) (now : Nat) : p.settled now =
    { p.pausePoints (p.pauseNext.filter fun x => decide (x.1 ≤ now)) with pauseNext := p.pauseNext.filter fun x => decide (now < x.1) } := rfl

@[simp] theorem Port.settled_still (p : Port) (now : Nat) : (p.settled now).still = p.still := Port.pausePoints_still p _

@[simp] theorem Port.settled_queues (p : Port) (now : Nat) : (p.settled now).queues = p.queues := by
  simpa only [Port.still] using congrArg Port.queues (p.settled_still now)

@[simp] theorem Port.settled_sending (p : Port) (now : Nat) : (p.settled now).sending = p.sending := by
  simpa only [Port.still] using congrArg Port.sending (p.settled_still now)

theorem Port.settled_live (p : Port) (now : Nat) {i : Nat} (hi : i ≠ 30) : (p.settled now).live.get i 0 = p.live.get i 0 :=
  Port.pausePoints_live p _ hi

/-- At the pause point of a pause frame the port honours none: its run was cut, or is by then (R82). -/
def Port.ignores (p : Port) (a : Nat) : Bool := p.pauseDeaf || (p.paused && decide (p.runEnd < p.pauseEnd ∧ p.runEnd ≤ a))

section
variable {p : Port} {a : Nat}

theorem Port.pausePoint_of_ignores (q : Nat) (h : p.ignores a = true) : p.pausePoint a q = p := if_pos h

theorem Port.pausePoint_zero (h : p.ignores a = false) :
    p.pausePoint a 0 = { p.counted a with pauseCounted := 0, paused := false, pauseQuanta := 0 } := by
  rw [Port.pausePoint, if_neg (by simpa [Port.ignores] using h)]
  rfl

theorem Port.pausePoint_quanta {q : Nat} (h : p.ignores a = false) (hq : q ≠ 0) : p.pausePoint a q =
    { p.counted a with pauseCounted := 0, paused := true, pauseFrom := a, pauseQuanta := q, pauseRunFrom := some (p.pauseRunFrom.getD a) } := by
  have hrun : (p.counted a).pauseRunFrom = p.pauseRunFrom := by
    unfold Port.counted
    split <;> rfl
  rw [Port.pausePoint, if_neg (by simpa [Port.ignores] using h)]
  dsimp only
  rw [if_neg hq, hrun]

end

theorem Port.counted_setLive (p : Port) (l : Tbl Nat) (now : Nat) :
    ∃ l', { p with live := l }.counted now = { p.counted now with live := l' } := by
  cases h : p.paused with
  | false => exact ⟨l, by simp [Port.counted, h]⟩
  | true =>
    refine ⟨bump l 30 (p.honoured now - p.pauseCounted), ?_⟩
    simp only [Port.counted, h, if_true]
    rfl

/-- What pause frames do to a port does not depend on its counters. -/
theorem Port.pausePoint_setLive (p : Port) (l : Tbl Nat) (a q : Nat) :
    ∃ l', { p with live := l }.pausePoint a q = { p.pausePoint a q with live := l' } := by
  by_cases hcut : p.ignores a = true
  · exact ⟨l, (Port.pausePoint_of_ignores (p := { p with live := l }) q hcut).trans (by rw [Port.pausePoint_of_ignores q hcut])⟩
  · have hcut : p.ignores a = false := by simpa using hcut
    obtain ⟨l', h⟩ := Port.counted_setLive p l a
    by_cases hq : q = 0
    · subst hq
      exact ⟨l', (Port.pausePoint_zero (p := { p with live := l }) hcut).trans (by rw [Port.pausePoint_zero hcut, h])⟩
    · exact ⟨l', (Port.pausePoint_quanta (p := { p with live := l }) hcut hq).trans (by rw [Port.pausePoint_quanta hcut hq, h])⟩

theorem Port.pausePoints_setLive (p : Port) (l : Tbl Nat) (xs : List (Nat × Nat)) :
    ∃ l', { p with live := l }.pausePoints xs = { p.pausePoints xs with live := l' } := by
  induction xs generalizing p l with
  | nil => exact ⟨l, rfl⟩
  | cons x xs ih =>
    obtain ⟨l', h⟩ := Port.pausePoint_setLive p l x.1 x.2
    obtain ⟨l'', h'⟩ := ih (p.pausePoint x.1 x.2) l'
    exact ⟨l'', (congrArg (·.pausePoints xs) h).trans h'⟩

theorem Port.settled_setLive (p : Port) (l : Tbl Nat) (now : Nat) :
    ∃ l', { p with live := l }.settled now = { p.settled now with live := l' } := by
  obtain ⟨l', h⟩ := Port.pausePoints_setLive p l (p.pauseNext.filter fun x => decide (x.1 ≤ now))
  exact ⟨l', by rw [Port.settled_eq, Port.settled_eq, h]⟩

/-! ### Reception up to the switch -/

/-- What the receiver reports is counted, and the errored blocks as symbol errors. -/
theorem lineErrs_counts (k : Nat) (e : LineErrs) (s : State) : Counts k [19, 20, 21] s (lineErrs k e s) := by
  unfold lineErrs
  dsimp only
  have h := (Counts.refl k [19, 20, 21] s).step (i := 19) (by simp) e.symbols
  split
  · exact (h.step (by simp) _).step (by simp) _
  · exact h

theorem lineErrs_symbols (k : Nat) (e : LineErrs) (s : State) :
    ((lineErrs k e s).port k).live.get 19 0 = satAdd 64 ((s.port k).live.get 19 0) e.symbols := by
  unfold lineErrs
  dsimp only
  split <;> simp [bump_other]

theorem sizeCounter_mem (l : Nat) : sizeCounter l ∈ [12, 13, 14, 15, 16, 17, 18] := by
  unfold sizeCounter
  split_ifs <;> simp

theorem badFrame_mem {l m c : Nat} {ok : Bool} (h : badFrame l m ok = some c) : c ∈ [4, 5, 6, 7, 8] := by
  unfold badFrame at h
  split_ifs at h <;> simp_all

theorem goodFrame_counts (k : Nat) (f : List Byte) (s : State) : Counts k [0, 1, 2, 3] s (goodFrame k f s) := by
  unfold goodFrame
  dsimp only
  have h := ((Counts.refl k [0, 1, 2, 3] s).step (i := 0) (by simp) 1).step (i := 1) (by simp) (frameLen f)
  split_ifs
  · exact h.step (by simp) _
  · exact h.step (by simp) _
  · exact h

/-- A bad frame is counted under its case, a good one is taken. -/
def judged (k : Nat) (f : List Byte) (bad : Option Nat) (s : State) : State :=
  match bad with | some c => portCount k c s | none => takeFrame k f s

section
variable {k : Nat} {s : State} (f : List Byte) (hk : k < 8) (hlink : (s.port k).link = true) (hseason : s.season.season ≠ .winter)
include hk hlink hseason

/-- A port that is up takes a frame as its RX_EN, the frame's length and its FCS say (R72). -/
theorem exec_frameReceive (seen : LineSeen) : exec (.frameReceive k f seen) s = .next (
    let u := lineErrs k seen.line s
    if (s.port k).rxEn then
      let v := if 64 ≤ frameLen f ∧ frameLen f ≤ (s.port k).maxFrame then portCount k (sizeCounter (frameLen f)) u else u
      judged k f (badFrame (frameLen f) (s.port k).maxFrame seen.fcsOk) v
    else portCount k 23 u) := by
  have h := lineErrs_counts k seen.line s
  have hport := h.same
  have hup : ((lineErrs k seen.line s).port k).link = true := by rw [hport]; exact hlink
  have hrx : ((lineErrs k seen.line s).port k).rxEn = (s.port k).rxEn := by rw [hport]
  have hmax : ((lineErrs k seen.line s).port k).maxFrame = (s.port k).maxFrame := by rw [hport]
  have hsea : (lineErrs k seen.line s).season = s.season := h.only.same .season (by decide)
  cases hen : (s.port k).rxEn with
  | false => simp [exec, execFrameReceive, hk, hlink, hup, hrx, hsea, hseason, hen]
  | true =>
    simp [exec, execFrameReceive, hk, hlink, hup, hrx, hmax, hsea, hseason, hen]
    rfl

/-- A good frame is taken by the port after the counts of its length and of the line. -/
theorem exec_frameReceive_good (line : LineErrs) (hrx : (s.port k).rxEn = true) (hmin : 64 ≤ frameLen f)
    (hmax : frameLen f ≤ (s.port k).maxFrame) :
    ∃ u, Counts k [12, 13, 14, 15, 16, 17, 18, 19, 20, 21] s u ∧ exec (.frameReceive k f ⟨true, line⟩) s = .next (takeFrame k f u) := by
  refine ⟨portCount k (sizeCounter (frameLen f)) (lineErrs k line s),
    ((lineErrs_counts k line s).mono (by simp)).step (List.mem_append_left [19, 20, 21] (sizeCounter_mem _)) 1, ?_⟩
  rw [exec_frameReceive f hk hlink hseason]
  simp [hrx, hmin, hmax, badFrame, Nat.not_lt.2 hmin, Nat.not_lt.2 hmax, judged]

end

/-- Settles O13: every way to discard a frame before the switch is a run of counts of its port (`Counts`). -/
theorem receptionDiscardsBeforeTheSwitch : Obligations.ReceptionDiscardsBeforeTheSwitch := by
  refine ⟨fun k f ok line s hk hlink hseason hrx => ?disabled, fun k f ok line c s hk hlink hseason hrx hbad => ?bad,
    fun k f line s hk hlink hseason hrx hmin hmax htag hvid => ?reserved⟩
  case disabled =>
    have h := lineErrs_counts k line s
    have hall := (h.mono (js := [19, 20, 21, 23]) (by simp)).step (i := 23) (by simp) 1
    refine ⟨_, (exec_frameReceive f hk hlink hseason _).trans (by simp [hrx]), hall.only, hall.others, hall.same, h.raised (by simp) 1, ?_⟩
    simp [bump_other, lineErrs_symbols]
  case bad =>
    have h : Counts k [12, 13, 14, 15, 16, 17, 18, 19, 20, 21] s
        (if 64 ≤ frameLen f ∧ frameLen f ≤ (s.port k).maxFrame then portCount k (sizeCounter (frameLen f)) (lineErrs k line s)
         else lineErrs k line s) := by
      have hline := (lineErrs_counts k line s).mono (js := [12, 13, 14, 15, 16, 17, 18, 19, 20, 21]) (by simp)
      split
      · exact hline.step (List.mem_append_left [19, 20, 21] (sizeCounter_mem _)) 1
      · exact hline
    have hc := badFrame_mem hbad
    have hnot : c ∉ [12, 13, 14, 15, 16, 17, 18, 19, 20, 21] := by
      simp only [List.mem_cons, List.not_mem_nil, or_false] at hc ⊢
      omega
    have hall := (h.mono fun i => List.mem_cons_of_mem c).step (i := c) (by simp) 1
    exact ⟨_, (exec_frameReceive f hk hlink hseason _).trans (by simp [hrx, hbad, judged]), hall.only, hall.others, hall.same, h.raised hnot 1⟩
  case reserved =>
    obtain ⟨u, hu, hexec⟩ := exec_frameReceive_good f hk hlink hseason line hrx hmin hmax
    have h := (hu.mono (js := [0, 1, 2, 3, 12, 13, 14, 15, 16, 17, 18, 19, 20, 21]) (by simp)).trans
      ((goodFrame_counts k f u).mono (by simp))
    have hall := (h.mono (js := [0, 1, 2, 3, 12, 13, 14, 15, 16, 17, 18, 19, 20, 21, 22]) (by simp)).step (i := 22) (by simp) 1
    exact ⟨_, hexec.trans (by simp [takeFrame, htag, hvid]), hall.only, hall.others, hall.same, h.raised (by simp) 1⟩

/-! ### Pause frames -/

section
variable {k : Nat} {f : List Byte} {s : State}

theorem macControl_of_otherOpcode (hop : beAt f (etherOff f + 2) 2 ≠ 1) : macControl k f s = portCount k 11 (portCount k 9 s) := by
  simp [macControl, hop]

variable (hop : beAt f (etherOff f + 2) 2 = 1)
include hop

theorem macControl_of_otherDest (h : ¬(dstMac f = 0x0180C2000001 ∨ dstMac f = s.blockMac k)) : macControl k f s = portCount k 9 s := by
  have hb : (portCount k 9 s).blockMac k = s.blockMac k := rfl
  simp_all [macControl, pauseDest]

variable (h : dstMac f = 0x0180C2000001 ∨ dstMac f = s.blockMac k)
include h

theorem macControl_of_pauseOff (hp : (s.port k).pauseRx = false) : macControl k f s = portCount k 10 (portCount k 9 s) := by
  have hb : (portCount k 9 s).blockMac k = s.blockMac k := rfl
  rcases h with h | h <;> simp [macControl, pauseDest, hop, hb, h, hp]

theorem macControl_of_pause (hp : (s.port k).pauseRx = true) :
    macControl k f s = pauseAct k (beAt f (etherOff f + 4) 2) (portCount k 10 (portCount k 9 s)) := by
  have hb : (portCount k 9 s).blockMac k = s.blockMac k := rfl
  rcases h with h | h <;> simp [macControl, pauseDest, hop, hb, h, hp]

end

/-- Settles O14: a MAC control frame is a run of counts and at most `pauseAct`; at its pause point it is `Port.pausePoint`. -/
theorem pauseFramesActAtTheirPausePoint : Obligations.PauseFramesActAtTheirPausePoint := by
  refine ⟨fun k f line s hk hlink hseason hrx hmin hmax hether hnot => ?frame, fun p a q now hnext => ?point⟩
  case frame =>
    obtain ⟨u, hu, hexec⟩ := exec_frameReceive_good f hk hlink hseason line hrx hmin hmax
    have hv := (hu.mono (js := [0, 1, 2, 3, 12, 13, 14, 15, 16, 17, 18, 19, 20, 21]) (by simp)).trans ((goodFrame_counts k f u).mono (by simp))
    have htake : takeFrame k f u = macControl k f (goodFrame k f u) := by simp [takeFrame, hnot, hether]
    refine ⟨_, hexec.trans (congrArg _ htake), ?_⟩
    generalize goodFrame k f u = v at hv
    have hpause : (v.port k).pauseRx = (s.port k).pauseRx := by rw [hv.same]
    have hmac : v.blockMac k = s.blockMac k := by simp only [State.blockMac, show v.mbx = s.mbx from hv.only.same .mbx (by decide)]
    have h9 := (hv.mono (js := [0, 1, 2, 3, 9, 12, 13, 14, 15, 16, 17, 18, 19, 20, 21]) (by simp)).step (i := 9) (by simp) 1
    have hcount9 := hv.raised (i := 9) (by simp) 1
    by_cases hop : beAt f (etherOff f + 2) 2 = 1
    case neg =>
      rw [macControl_of_otherOpcode hop]
      have h11 := (h9.mono (js := [0, 1, 2, 3, 9, 11, 12, 13, 14, 15, 16, 17, 18, 19, 20, 21]) (by simp)).step (i := 11) (by simp) 1
      exact ⟨h11.only, h11.others, by simpa [bump_other] using hcount9, fun _ => h9.raised (by simp) 1, fun h => absurd h hop,
        fun _ => h11.same, fun h => absurd h hop⟩
    by_cases hmine : dstMac f = 0x0180C2000001 ∨ dstMac f = s.blockMac k
    case neg =>
      rw [macControl_of_otherDest hop (by rwa [hmac])]
      exact ⟨h9.only, h9.others, hcount9, fun h => absurd hop h, fun _ h => absurd h hmine, fun _ => h9.same, fun _ h => absurd h hmine⟩
    have h10 := (h9.mono (js := [0, 1, 2, 3, 9, 10, 12, 13, 14, 15, 16, 17, 18, 19, 20, 21]) (by simp)).step (i := 10) (by simp) 1
    have hcount10 := h9.raised (i := 10) (by simp) 1
    cases hrxp : (s.port k).pauseRx with
    | false =>
      rw [macControl_of_pauseOff hop (by rwa [hmac]) (by rw [hpause, hrxp])]
      refine ⟨h10.only, h10.others, by simpa [bump_other] using hcount9, fun h => absurd hop h, fun _ _ => hcount10, fun _ => h10.same,
        fun _ _ h => absurd h (by simp [hrxp])⟩
    | true =>
      rw [macControl_of_pause hop (by rwa [hmac]) (by rw [hpause, hrxp])]
      have hcount9' : ((portCount k 10 (portCount k 9 v)).port k).live.get 9 0 = satAdd 64 ((s.port k).live.get 9 0) 1 := by
        simpa [bump_other] using hcount9
      generalize portCount k 10 (portCount k 9 v) = w at h10 hcount10 hcount9'
      obtain ⟨l, hl⟩ := Port.settled_setLive (s.port k) (w.port k).live s.now
      have hsettled : (w.port k).settled w.now = { (s.port k).settled s.now with live := l } := by rw [h10.now, ← hl, ← h10.same]
      have hact : (pauseAct k (beAt f (etherOff f + 4) 2) w).port k = { (w.port k).settled w.now with
          pauseNext := ((w.port k).settled w.now).pauseNext ++ [(w.now + 200, beAt f (etherOff f + 4) 2)] } := State.port_setPort_same ..
      have hlive : ∀ i, i ≠ 30 → ((pauseAct k (beAt f (etherOff f + 4) 2) w).port k).live.get i 0 = (w.port k).live.get i 0 := fun i hi => by
        rw [hact]
        exact Port.settled_live _ _ hi
      refine ⟨h10.only.trans (by simp [pauseAct]), fun j hj => (State.port_setPort_other _ _ hj).trans (h10.others j hj),
        (hlive 9 (by decide)).trans hcount9', fun h => absurd hop h, fun _ _ => (hlive 10 (by decide)).trans hcount10,
        fun h => ((h.resolve_left (by simp [hrxp])).elim (absurd hop) (absurd hmine)), fun _ _ _ => ?_⟩
      rw [hact, hsettled, h10.now]
  case point =>
    have hguard : p.ignores a = (p.pauseDeaf || (p.paused && decide (p.runEnd < p.pauseEnd ∧ p.runEnd ≤ a))) := rfl
    have hcome : a ≤ now → p.settled now = { p.pausePoint a q with pauseNext := [] } := fun h => by
      simp [Port.settled_eq, hnext, h, Nat.not_lt.2 h, Port.pausePoints]
    refine ⟨fun h => ?_, fun h hdeaf => ?_, fun h hdeaf hrun => ?_⟩
    · have hwait : p.settled now = { p with pauseNext := [(a, q)] } := by simp [Port.settled_eq, hnext, h, Nat.not_le.2 h, Port.pausePoints]
      rw [hwait, ← hnext]
    · rw [hcome h, Port.pausePoint_of_ignores q (by simp [hguard, hdeaf])]
    · have hignores : p.ignores a = false := by
        simp only [hguard, hdeaf, Bool.false_or, Bool.and_eq_false_iff, decide_eq_false_iff_not]
        cases hp : p.paused <;> simp_all
      refine ⟨by rw [hcome h], p.settled_queues now, p.settled_sending now, fun hq => ?_, fun hq => ?_⟩
      · rw [hcome h, hq, Port.pausePoint_zero hignores]
      · have hset := (hcome h).trans (by rw [Port.pausePoint_quanta hignores hq])
        have hpaused : (p.settled now).paused = true := by rw [hset]
        refine ⟨hpaused, by rw [hset], by rw [hset], by rw [hset], ?_⟩
        simp [Port.blocked, hpaused]

/-! ### The end of a pause (R82, R83) -/

theorem Port.counted_of_paused {p : Port} (h : p.paused = true) (now : Nat) : p.counted now =
    { p with live := bump p.live 30 (p.honoured now - p.pauseCounted), pauseCounted := max p.pauseCounted (p.honoured now) } := by
  simp [Port.counted, h]

theorem Port.settled_settled (p : Port) (now : Nat) : (p.settled now).settled now = p.settled now := by
  have hnext : (p.settled now).pauseNext = p.pauseNext.filter fun x => decide (now < x.1) := rfl
  have hcome : (p.settled now).pauseNext.filter (fun x => decide (x.1 ≤ now)) = [] := by simp [hnext]
  have hwait : (p.settled now).pauseNext.filter (fun x => decide (now < x.1)) = (p.settled now).pauseNext := by simp [hnext]
  rw [Port.settled_eq (p.settled now), hcome, hwait]
  rfl

theorem Port.blocked_settled (p : Port) (now : Nat) : (p.settled now).blocked now = p.blocked now := by
  simp only [Port.blocked, Port.settled_settled]

@[simp] theorem countPause_port_same (k : Nat) (s : State) : (countPause k s).port k = ((s.port k).settled s.now).counted s.now :=
  State.port_setPort_same ..

theorem countPause_port_other {k j : Nat} (s : State) (h : j ≠ k) : (countPause k s).port j = s.port j := State.port_setPort_other _ _ h

@[simp] theorem pauseSettle_port_same (k : Nat) (s : State) : (pauseSettle k s).port k = (s.port k).settled s.now := State.port_setPort_same ..

theorem pauseSettle_port_other {k j : Nat} (s : State) (h : j ≠ k) : (pauseSettle k s).port j = s.port j := State.port_setPort_other _ _ h

/-- A copy that is dropped is a count at its port and nothing else there. -/
theorem txDrop_port (k i : Nat) (c : TxCopy) (s : State) (j : Nat) : (txDrop k i c s).port j = (portCount k i s).port j := by
  have h : Only [.sw, .insts, .time, .bki, .evr, .mbx] (portCount k i s) (txDrop k i c s) := by simp [txDrop]
  exact port_of_ports (h.same .ports (by decide)) j

section
variable {k : Nat} {s : State} (hk : k < 8) (hp : ((s.port k).settled s.now).paused = true)
include hk hp

theorem exec_pauseEnd (hrun : ((s.port k).settled s.now).pauseEnd ≤ ((s.port k).settled s.now).runEnd)
    (hend : ((s.port k).settled s.now).pauseEnd ≤ s.now) :
    exec (.pauseEnd k) s = .next ((countPause k s).setPort k fun p => { p with paused := false, pauseQuanta := 0, pauseCounted := 0 }) := by
  have hend' : ((s.port k).settled s.now).pauseEnd ≤ s.time.age := hend
  have hsame : (((s.port k).settled s.now).counted s.now).pauseEnd = ((s.port k).settled s.now).pauseEnd
      ∧ (((s.port k).settled s.now).counted s.now).runEnd = ((s.port k).settled s.now).runEnd
      ∧ (((s.port k).settled s.now).counted s.now).paused = true := by
    rw [Port.counted_of_paused hp]
    exact ⟨rfl, rfl, hp⟩
  obtain ⟨hpe, hre, hpp⟩ := hsame
  have hdue : due (countPause k s) ((s.port k).settled s.now).pauseEnd = true := decide_eq_true hend
  simp [exec, execPauseEnd, hk, hp, hrun, whenDue_now _ hend', hpe, hre, hpp, hdue]

theorem exec_pauseCut (hrun : ((s.port k).settled s.now).runEnd < ((s.port k).settled s.now).pauseEnd)
    (hend : ((s.port k).settled s.now).runEnd ≤ s.now) :
    exec (.pauseCut k) s = .next ((portCount k 46 (countPause k s)).setPort k fun p =>
      { p.unpaused with pauseDeaf := true, pauseNext := p.pauseNext }) := by
  have hend' : ((s.port k).settled s.now).runEnd ≤ s.time.age := hend
  have hsame : (((s.port k).settled s.now).counted s.now).pauseEnd = ((s.port k).settled s.now).pauseEnd
      ∧ (((s.port k).settled s.now).counted s.now).runEnd = ((s.port k).settled s.now).runEnd
      ∧ (((s.port k).settled s.now).counted s.now).paused = true := by
    rw [Port.counted_of_paused hp]
    exact ⟨rfl, rfl, hp⟩
  obtain ⟨hpe, hre, hpp⟩ := hsame
  simp [exec, execPauseCut, hk, hp, hrun, whenDue_now _ hend', hpe, hre, hpp]

end

/-- Settles O15: the pause frames that have come act (`Port.settled`), what was honoured is counted (`Port.counted`), and the pause ends. -/
theorem pauseRunsEnd : Obligations.PauseRunsEnd := by
  refine ⟨?ends, ?cut, ?aged⟩
  case ends =>
    intro k s hk p hp hrun hend
    refine ⟨_, exec_pauseEnd hk hp hrun hend, by simp, fun j hj => ?_, ?_, ?_⟩
    · rw [State.port_setPort_other _ _ hj, countPause_port_other _ hj]
    · simp [Port.counted_of_paused hp, p]
    · simp [Port.counted_of_paused hp, p]
  case cut =>
    intro k s hk p hp hrun hend
    refine ⟨_, exec_pauseCut hk hp hrun hend, Only.trans (t := portCount k 46 (countPause k s)) (by simp) (by simp), fun j hj => ?_, ?_⟩
    · rw [State.port_setPort_other _ _ hj, portCount_port_other _ _ _ hj, countPause_port_other _ hj]
    · simp [Port.counted_of_paused hp, p, Port.unpaused, bump_other, Port.settled_live]
  case aged =>
    intro k q c s hk hhead hcls hblocked hage
    have hpaused : ((s.port k).settled s.now).paused = true := by
      simp only [Port.blocked, Bool.and_eq_true] at hblocked
      exact hblocked.1
    have hage' : ((pauseSettle k s).stored c.frame).age + us c.limitUs ≤ (pauseSettle k s).time.age := hage
    have hexec : exec (.pauseAgeingDiscard k q) s = .next (txDrop k 34 c ((pauseSettle k s).setPort k fun p => p.pop c)) := by
      simp only [exec, execPauseAgeingDiscard, pauseSettle_port_same, Port.settled_queues, hhead, hk, hpaused, decide_true, Bool.and_true,
        if_true, whenDue_now _ hage']
      rw [show (pauseSettle k s).now = s.now from rfl, Port.blocked_settled, if_pos hblocked]
    refine ⟨_, hexec, Only.trans (t := (pauseSettle k s).setPort k fun p => p.pop c) (by simp) (by simp), fun j hj => ?_, ?_⟩
    · rw [txDrop_port, portCount_port_other _ _ _ hj, State.port_setPort_other _ _ hj, pauseSettle_port_other _ hj]
    · simp [txDrop_port, Port.pop, hcls, hpaused, Port.settled_live]

end Sys2Proof.Machine
end

section
/-!
PROOFS. Transmission (R81): the frame that has left, the head copy of the highest queue that begins to leave, and the obligation O17.
-/
namespace Sys2Proof.Machine
open Sys2Proof

theorem foldl_of_fixed {α β : Type} {f : β → α → β} {b : β} {l : List α} (h : ∀ a ∈ l, f b a = b) : l.foldl f b = b := by
  induction l with
  | nil => rfl
  | cons a l ih => rw [List.foldl_cons, h a List.mem_cons_self, ih fun x hx => h x (List.mem_cons_of_mem a hx)]

/-- Streams that have no frame staged for a port hand it none (R326). -/
theorem acqDrainPort_of_unstaged {k : Nat} {s : State} (h : ∀ n, n < 4 → (s.acqS n).port = k → (s.acqS n).frames = []) :
    acqDrainPort k s = s := by
  refine foldl_of_fixed fun n hn => ?_
  split
  case isTrue hp =>
    rw [h n (List.mem_range.1 hn) hp]
    rfl
  case isFalse => rfl

theorem finishTx_of_idle {k : Nat} {s : State} (h : (s.port k).sending = none) : finishTx k s = s := by simp [finishTx, h]

/-! ### The frame in transmission that has left -/

theorem txDone_port (c : TxCopy) (s : State) (j : Nat) : (txDone c s).port j = s.port j := by
  have h : Only [.sw, .insts, .bki, .evr, .mbx] s (txDone c s) := by simp
  exact port_of_ports (h.same .ports (by decide)) j

/-- What the frame in transmission counts at its port besides frames and octets (R92). -/
def sentKinds (k : Nat) (c : TxCopy) (s : State) : State :=
  let a := dstMac (s.port k).wire
  let u := portCount k 26 (portCount k 25 s) ((s.port k).wire.length + 4)
  let u := if a = broadcast then portCount k 28 u else if isGroup a then portCount k 27 u else u
  let u := portCount k (37 + c.cls) u
  if c.seg then portCount k 45 u else u

theorem finishTx_of_sending {k : Nat} {s : State} {c : TxCopy} (h : (s.port k).sending = some c) :
    finishTx k s = txDone c ((sentKinds k c s).setPort k fun p => { p with sending := none, wire := [] }) := by
  simp [finishTx, h, sentKinds]

/-- Frames and octets are counted once, and what else is counted is another counter. -/
theorem sentKinds_counts (k : Nat) (c : TxCopy) (s : State) :
    Counts k [27, 28, 37 + c.cls, 45] (portCount k 26 (portCount k 25 s) ((s.port k).wire.length + 4)) (sentKinds k c s) := by
  unfold sentKinds
  dsimp only
  generalize portCount k 26 (portCount k 25 s) ((s.port k).wire.length + 4) = u
  have h : Counts k [27, 28, 37 + c.cls, 45] u (if dstMac (s.port k).wire = broadcast then portCount k 28 u
      else if isGroup (dstMac (s.port k).wire) then portCount k 27 u else u) := by
    split_ifs
    · exact (Counts.refl ..).step (by simp) 1
    · exact (Counts.refl ..).step (by simp) 1
    · exact Counts.refl ..
  have h' := h.step (i := 37 + c.cls) (by simp) 1
  split
  · exact h'.step (by simp) 1
  · exact h'

/-- The frame in transmission has left: it is counted, and the transmitter is free. -/
theorem finishTx_port {k : Nat} {s : State} {c : TxCopy} (h : (s.port k).sending = some c) :
    (∀ j, j ≠ k → (finishTx k s).port j = s.port j)
    ∧ (finishTx k s).port k = { s.port k with sending := none, wire := [], live := ((finishTx k s).port k).live }
    ∧ ((finishTx k s).port k).live.get 25 0 = satAdd 64 ((s.port k).live.get 25 0) 1
    ∧ ((finishTx k s).port k).live.get 26 0 = satAdd 64 ((s.port k).live.get 26 0) ((s.port k).wire.length + 4) := by
  have hc := sentKinds_counts k c s
  rw [finishTx_of_sending h]
  simp only [txDone_port, State.port_setPort_same]
  refine ⟨fun j hj => ?_, ?_, ?_, ?_⟩
  · rw [State.port_setPort_other _ _ hj, hc.others j hj, portCount_port_other _ _ _ hj, portCount_port_other _ _ _ hj]
  · rw [hc.same]
    simp
  · rw [hc.kept 25 (by simp; omega)]
    simp [bump_other]
  · rw [hc.kept 26 (by simp; omega)]
    simp [bump_other]

/-! ### The octets of a copy that leaves -/

theorem vlanTag_congr {p q : Port} (f : Stored) (h : p.still.calm = q.still.calm) : vlanTag p f = vlanTag q f := by
  have huntag : p.untagPvid = q.untagPvid := by simpa only [Port.still, Port.calm] using congrArg Port.untagPvid h
  have hpvid : p.pvid = q.pvid := by simpa only [Port.still, Port.calm] using congrArg Port.pvid h
  have hleaves : p.leavesUntagged f.vid = q.leavesUntagged f.vid := by simp only [Port.leavesUntagged, huntag, hpvid]
  rw [vlanTag, vlanTag, hleaves]

/-- What leaves of a copy depends on the time base and on the port, without its queues, pauses and counters. -/
theorem wireOf_congr {k : Nat} (c : TxCopy) (f : Stored) {s t : State} (htime : t.time = s.time)
    (hport : (t.port k).still.calm = (s.port k).still.calm) : wireOf k c f t = wireOf k c f s := by
  simp only [wireOf, tagOut, PdMsg.turnaround, State.now, htime, vlanTag_congr f hport]

/-! ### The head copy -/

/-- The head copy stands in a queue such that every higher queue is empty (R81). -/
theorem Port.head_eq_some {p : Port} {c : TxCopy} (h : p.head = some c) :
    ∃ q, q < 8 ∧ (p.queues.get q []).head? = some c ∧ ∀ r, q < r → r < 8 → p.queues.get r [] = [] := by
  rw [Port.head, List.head?_filterMap, List.findSome?_eq_some_iff] at h
  obtain ⟨higher, q, lower, hlist, hq, hempty⟩ := h
  have hsorted : (higher ++ q :: lower).Pairwise (· > ·) := by
    rw [← hlist]
    decide
  have hmem : ∀ r, r ∈ higher ++ q :: lower ↔ r < 8 := fun r => by
    rw [← hlist]
    simp only [List.mem_cons, List.not_mem_nil, or_false]
    omega
  refine ⟨q, (hmem q).1 (by simp), hq, fun r hr hr8 => ?_⟩
  have hlower := (List.pairwise_cons.1 (List.pairwise_append.1 hsorted).2.1).1
  rcases List.mem_append.1 ((hmem r).2 hr8) with hin | hin
  · exact List.head?_eq_none_iff.1 (hempty r hin)
  · rcases List.mem_cons.1 hin with heq | hin
    · exact absurd hr (by simp [heq])
    · exact absurd (hlower r hin) (by omega)

/-- A word that its decoder finds without error, with no injection armed, is read and nothing more (R56). -/
theorem readWord_of_sound {l : MemLoc} {w : WordRead} (access : Nat) (owner : Master) {s : State} (src : Option (BlockId × Nat))
    (hkind : (readFound l.finder.1 l.finder.2.1 (l.seen w s) s).syn.kind = none) (hinj : (s.fset l.finder.1 l.finder.2.1).injArm = false) :
    readWord l w access owner s src = (readFound l.finder.1 l.finder.2.1 (l.seen w s) s, s) := by
  simp [readWord, raiseRead, hkind, readDone, hinj]

section
variable {k : Nat} {c : TxCopy} {word : WordRead} {s : State}

/-- A head copy that passes every check begins to leave (R77, R78, R81). -/
theorem selectTx_of_sound (fuel : Nat) (hhead : (s.port k).head = some c) (haged : agedOut c s = false)
    (hfits : (wireOf k c (s.stored c.frame) s).1.length + 4 ≤ (s.port k).maxFrame) (hcrc : (s.stored c.frame).crcOk = true)
    (hkind : (readFound .swc 0 ((MemLoc.buffer c.frame).seen word s) s).syn.kind = none) (hinj : (s.fset .swc 0).injArm = false)
    (hdata : (s.stored c.frame).asRead word.off (readFound .swc 0 ((MemLoc.buffer c.frame).seen word s) s).syn.data = (s.stored c.frame).octets) :
    selectTx k word (fuel + 1) s = beginTx k c (wireOf k c (s.stored c.frame) s).1 (wireOf k c (s.stored c.frame) s).2
      (s.setPort k fun p => p.pop c) := by
  have hwire : wireOf k c (s.stored c.frame) (s.setPort k fun p => p.pop c) = wireOf k c (s.stored c.frame) s :=
    wireOf_congr c _ rfl (by rw [State.port_setPort_same]; rfl)
  have hread : readWord (.buffer c.frame) word 5 .none (s.setPort k fun p => p.pop c) (some (.prt, k)) =
      (readFound .swc 0 ((MemLoc.buffer c.frame).seen word s) s, s.setPort k fun p => p.pop c) := readWord_of_sound 5 .none _ hkind hinj
  have haged' : agedOut c (s.setPort k fun p => p.pop c) = false := haged
  have hstored : (s.setPort k fun p => p.pop c).stored c.frame = s.stored c.frame := rfl
  have hlong : ¬ ((s.port k).pop c).maxFrame < (wireOf k c (s.stored c.frame) s).1.length + 4 := Nat.not_lt.2 hfits
  simp [selectTx, hhead, haged', hstored, hwire, State.port_setPort_same, hlong, hcrc, hread, ReadFound.lost, hkind, hdata]

end

@[simp] theorem Port.counted_queues (p : Port) (now : Nat) : (p.counted now).queues = p.queues := by
  unfold Port.counted
  split <;> rfl

/-- A copy that begins to leave is the frame in transmission, and the queues stay as they are. -/
theorem beginTx_port (k : Nat) (c : TxCopy) (wire : List Byte) (sat : Bool) (s : State) :
    (∀ j, j ≠ k → (beginTx k c wire sat s).port j = s.port j) ∧ ((beginTx k c wire sat s).port k).sending = some c
    ∧ ((beginTx k c wire sat s).port k).wire = wire ∧ ((beginTx k c wire sat s).port k).queues = (s.port k).queues := by
  have hports : (stampTx k c s).ports = s.ports := (stampTx_only (qs := [.time]) k c s (Only.refl _ s) (by simp)).same .ports (by decide)
  unfold beginTx
  dsimp only
  refine ⟨fun j hj => ?_, ?_, ?_, ?_⟩
  · rw [State.port_setPort_other _ _ hj]
    exact port_of_ports hports j
  · simp
  · simp
  · rw [State.port_setPort_same]
    exact (Port.counted_queues _ _).trans (congrArg Port.queues (port_of_ports hports k))

/-- Settles O17: the frame in transmission that has left is counted (`finishTx_port`), and the head copy (`Port.head_eq_some`), where it
passes every check (`selectTx_of_sound`), begins to leave (`beginTx_port`). -/
theorem transmissionTakesTheHighestQueue : Obligations.TransmissionTakesTheHighestQueue := by
  refine ⟨?takes, ?ended, fun p c h => Port.head_eq_some h⟩
  case takes =>
    intro k c word s hk hacq hlink hen hblocked hsending hhead haged hfits hcrc hkind hinj hdata
    let u := pauseSettle k s
    have hport : u.port k = (s.port k).settled s.now := pauseSettle_port_same k s
    have hstill : (u.port k).still = (s.port k).still := by rw [hport, Port.settled_still]
    have hlink' : (u.port k).link = true := by simpa only [Port.still] using (congrArg Port.link hstill).trans hlink
    have hen' : (u.port k).txEn = true := by simpa only [Port.still] using (congrArg Port.txEn hstill).trans hen
    have hmax : (u.port k).maxFrame = (s.port k).maxFrame := by simpa only [Port.still] using congrArg Port.maxFrame hstill
    have hblocked' : (u.port k).blocked u.now = false := by rw [hport]; exact (Port.blocked_settled _ _).trans hblocked
    have hhead' : (u.port k).head = some c := by rw [← hhead, Port.head, Port.head, hport, Port.settled_queues]
    have hwire : wireOf k c (u.stored c.frame) u = wireOf k c (s.stored c.frame) s := wireOf_congr c _ rfl (congrArg Port.calm hstill)
    have hselect := selectTx_of_sound (s := u) (word := word) (u.port k).queued.length hhead' haged
      (by rw [hwire, hmax]; exact hfits) hcrc hkind hinj hdata
    have hexec : exec (.transmitSelect ⟨k, word⟩) s = .next (beginTx k c (wireOf k c (s.stored c.frame) s).1
        (wireOf k c (s.stored c.frame) s).2 (u.setPort k fun p => p.pop c)) := by
      rw [← hwire, ← hselect]
      simp only [exec, execTransmitSelect, finishTx_of_idle hsending, acqDrainPort_of_unstaged hacq]
      have hgo : (decide (k < 8) && (u.port k).link && (u.port k).txEn && !(u.port k).blocked u.now) = true := by
        simp only [hk, hlink', hen', hblocked', decide_true, Bool.not_false, Bool.and_self]
      exact congrArg _ (if_pos hgo)
    obtain ⟨hothers, hsend, hout, hqueues⟩ := beginTx_port k c (wireOf k c (s.stored c.frame) s).1 (wireOf k c (s.stored c.frame) s).2
      (u.setPort k fun p => p.pop c)
    refine ⟨_, hexec, Only.trans (t := u.setPort k fun p => p.pop c) (by simp [u]) (by simp), fun j hj => ?_, hsend, hout, ?_⟩
    · rw [hothers j hj, State.port_setPort_other _ _ hj, pauseSettle_port_other _ hj]
    · rw [hqueues, State.port_setPort_same, hport]
      simp [Port.pop]
  case ended =>
    intro k c word s hk hacq hsending hen
    obtain ⟨hothers, hport, hframes, hoctets⟩ := finishTx_port hsending
    have hfin : Only [.ports, .sw, .insts, .mbx, .evr, .bki] s (finishTx k s) := by simp
    have hacq' : ∀ n, n < 4 → ((finishTx k s).acqS n).port = k → ((finishTx k s).acqS n).frames = [] := by
      simpa only [State.acqS, show (finishTx k s).acq = s.acq from hfin.same .acq (by decide)] using hacq
    have hen' : ((pauseSettle k (finishTx k s)).port k).txEn = false := by
      have hstill := Port.settled_still ((finishTx k s).port k) (finishTx k s).now
      rw [pauseSettle_port_same]
      have h : ((finishTx k s).port k).txEn = false := by rw [hport]; exact hen
      simpa only [Port.still] using (congrArg Port.txEn hstill).trans h
    refine ⟨pauseSettle k (finishTx k s), ?_, hfin.trans (by simp), fun j hj => ?_, ?_, ?_, ?_, ?_⟩
    · simp only [exec, execTransmitSelect, acqDrainPort_of_unstaged hacq']
      have hstop : ¬ (decide (k < 8) && ((pauseSettle k (finishTx k s)).port k).link && ((pauseSettle k (finishTx k s)).port k).txEn
          && !((pauseSettle k (finishTx k s)).port k).blocked (pauseSettle k (finishTx k s)).now) = true := by
        simp only [hen', Bool.and_false, Bool.false_and, Bool.false_eq_true, not_false_eq_true]
      exact congrArg _ (if_neg hstop)
    · rw [pauseSettle_port_other _ hj, hothers j hj]
    · rw [pauseSettle_port_same, Port.settled_sending, hport]
    · rw [pauseSettle_port_same, Port.settled_queues, hport]
    · rw [pauseSettle_port_same, Port.settled_live _ _ (by decide), hframes]
    · rw [pauseSettle_port_same, Port.settled_live _ _ (by decide), hoctets]

end Sys2Proof.Machine
end

section
/-!
PROOFS. Large sends (R85 to R87) and the receive rings (R90): what is told to a submitter, what the completion of a copy leaves in the switch's
queues, and the obligation O18.
-/
namespace Sys2Proof.Machine
open Sys2Proof

/-! ### The submitter told -/

/-- The submitter of a send lives (R177). -/
def Submitter (inst : Option (Nat × Nat)) (s : State) : Prop := ∀ i g, inst = some (i, g) → s.genCurrent i g = true

theorem sendTold_of_live {k : Nat} {d : SendDone} {s : State} (h : Submitter d.inst s) :
    sendTold k d s = s.setPort k fun p => { p with sendDone := d :: p.sendDone } := by
  unfold sendTold
  cases hd : d.inst with
  | none => rfl
  | some x => simp [h x.1 x.2 hd]

theorem sendTold_of_over {k i g : Nat} {d : SendDone} {s : State} (hd : d.inst = some (i, g)) (h : s.genCurrent i g = false) :
    sendTold k d s = lateAt .egf 0 i s := by
  simp [sendTold, hd, h]

@[simp] theorem LargeSend.given_inst (x : LargeSend) (s : State) : (x.given s).inst = x.inst := by
  unfold LargeSend.given
  dsimp only
  split_ifs <;> rfl

/-! ### A segment -/

section
variable {s t : State} (h : t.calm = s.calm) (k : Nat)
include h

theorem sends_of_calm : (t.port k).sends = (s.port k).sends := by
  simpa only [Port.calm] using congrArg Port.sends (port_of_calm h k)

theorem sendDone_of_calm : (t.port k).sendDone = (s.port k).sendDone := by
  simpa only [Port.calm] using congrArg Port.sendDone (port_of_calm h k)

end

/-- The instance of a send, if it has one, has its OVER brought up to date. -/
def refreshSubmitter (inst : Option (Nat × Nat)) (s : State) : State := match inst with | some (i, _) => refreshOver i s | none => s

@[simp] theorem refreshSubmitter_calm (inst : Option (Nat × Nat)) (s : State) : (refreshSubmitter inst s).calm = s.calm := by
  unfold refreshSubmitter
  split <;> simp

/-- The submitter holds credit for a segment of `n` octets (R189). -/
def Credited (inst : Option (Nat × Nat)) (n : Nat) (s : State) : Prop :=
  ∀ i g, inst = some (i, g) → admits (s.inst i).useEgress (cellsOf (n + 4)) (s.inst i).share.egress = true

theorem exec_segmentGenerate {k : Nat} {x : LargeSend} {rest : List LargeSend} {s : State} (hsends : (s.port k).sends = x :: rest)
    (hlive : Submitter x.inst s) (hcredit : Credited x.inst (nextSegment (ipRoom k x.vid s) x (x.data s)).1.length s)
    (hread : x.stalled s = false) :
    exec (.segmentGenerate k) s = .next (
      let n := nextSegment (ipRoom k x.vid s) x (x.data s)
      let u := refreshSubmitter x.inst (storeSegment k x n.1 (s.setPort k fun p =>
        { p with sends := if n.2.2 then rest else { x with sent := x.sent + n.2.1, made := x.made + 1 } :: rest }))
      if n.2.2 then sendTold k { inst := x.inst, frames := x.made + 1 } u else u) := by
  cases hx : x.inst with
  | none => simp [exec, execSegmentGenerate, hsends, hx, hread, refreshSubmitter]
  | some y =>
    obtain ⟨i, g⟩ := y
    simp [exec, execSegmentGenerate, hsends, hx, hread, refreshSubmitter, hlive i g hx, hcredit i g hx]

/-! ### The queues of copies -/

/-- The copies that wait for the conditioning engine, a host ring and an instance ring. -/
def State.waiting (s : State) : List Deliver × List Deliver × List Deliver := (s.sw.sceQ, s.sw.hostQ, s.sw.instQ)

theorem waiting_of_sw {s t : State} (h : t.sw = s.sw) : t.waiting = s.waiting := by simp only [State.waiting, h]

@[simp] theorem swCount_waiting (i : Nat) (s : State) (n : Nat) : (swCount i s n).waiting = s.waiting := rfl

@[simp] theorem entryDone_waiting (idx gen : Nat) (s : State) : (entryDone idx gen s).waiting = s.waiting := by
  unfold entryDone
  split_ifs <;> rfl

@[simp] theorem refreshOver_waiting (i : Nat) (s : State) : (refreshOver i s).waiting = s.waiting :=
  waiting_of_sw ((refreshOver_only (qs := [.insts, .bki, .evr, .mbx]) i s (Only.refl _ s) (by simp)).same .sw (by decide))

@[simp] theorem copyDone_waiting (n entry gen : Nat) (nonPort : Bool) (s : State) : (copyDone n entry gen nonPort s).waiting = s.waiting := by
  unfold copyDone
  dsimp only
  split
  · unfold freeFrame
    dsimp only
    split
    · exact (refreshOver_waiting ..).trans (entryDone_waiting ..)
    · exact entryDone_waiting ..
  · exact entryDone_waiting ..

@[simp] theorem deliverHost_waiting (v : Deliver) (s : State) : (deliverHost v s).waiting = s.waiting := by
  unfold deliverHost
  dsimp only
  split
  · refine (copyDone_waiting ..).trans ?_
    split <;> rfl
  · exact copyDone_waiting ..

@[simp] theorem deliverInst_waiting (v : Deliver) (s : State) : (deliverInst v s).waiting = s.waiting := by
  unfold deliverInst
  dsimp only
  split_ifs
  · exact copyDone_waiting ..
  · exact copyDone_waiting ..
  · exact copyDone_waiting ..
  · split
    · exact copyDone_waiting ..
    · refine (copyDone_waiting ..).trans (waiting_of_sw ?_)
      exact (foldl_only (ps := [.insts, .mlk]) _ _ (Only.refl _ s) fun t x => by simp).same .sw (by decide)

/-- Settles O18: a segment leaves the sends of its port as they are but the one at the head (`exec_segmentGenerate`, `State.calm`), and a delivery
leaves the copies that wait (`State.waiting`). -/
theorem largeSendsAndRingsComplete : Obligations.LargeSendsAndRingsComplete := by
  refine ⟨?submit, ?segment, ?waits, ?dead, ?down, ?host, ?inst⟩
  case submit =>
    intro k x s hk hlive hok
    refine ⟨s.setPort k fun p => { p with sends := p.sends ++ [{ x.given s with sent := 0, made := 0 }] }, ?_, by simp,
      fun j hj => State.port_setPort_other _ _ hj, State.port_setPort_same ..⟩
    cases hx : x.inst with
    | none => simp [exec, execLargeSendSubmit, Nat.not_le.2 hk, hx, hok]
    | some y => simp [exec, execLargeSendSubmit, Nat.not_le.2 hk, hx, hok, hlive y.1 y.2 hx]
  case segment =>
    intro k x rest s hsends hcond hread
    have hlive : Submitter x.inst s := fun i g hx => (hcond i g hx).1
    refine ⟨_, exec_segmentGenerate hsends hlive (fun i g hx => (hcond i g hx).2) hread, ?_⟩
    generalize nextSegment (ipRoom k x.vid s) x (x.data s) = n
    dsimp only
    generalize hbase : (s.setPort k fun p =>
      { p with sends := if n.2.2 then rest else { x with sent := x.sent + n.2.1, made := x.made + 1 } :: rest }) = base
    generalize hu : refreshSubmitter x.inst (storeSegment k x n.1 base) = u
    have hcalm : u.calm = base.calm := by simp [← hu]
    have hsent : (u.port k).sends = if n.2.2 then rest else { x with sent := x.sent + n.2.1, made := x.made + 1 } :: rest := by
      rw [sends_of_calm hcalm, ← hbase, State.port_setPort_same]
    have hdone : (u.port k).sendDone = (s.port k).sendDone := by
      rw [sendDone_of_calm hcalm, ← hbase, State.port_setPort_same]
    have hlive' : Submitter x.inst u := fun i g hx => by
      rw [genCurrent_of_calm hcalm, ← hbase]
      exact hlive i g hx
    cases hlast : n.2.2 with
    | false =>
      rw [hlast] at hsent
      exact ⟨hsent, by simpa using hdone⟩
    | true =>
      rw [hlast] at hsent
      simp only [if_true] at hsent ⊢
      rw [sendTold_of_live hlive', State.port_setPort_same]
      exact ⟨hsent, by rw [hdone]; rfl⟩
  case waits =>
    intro k x rest i g s hsends hx hlive hwait
    refine ⟨s, ?_, rfl⟩
    rcases hwait with hstall | hcredit
    · simp [exec, execSegmentGenerate, hsends, hx, hlive, hstall]
    · simp [exec, execSegmentGenerate, hsends, hx, hlive, hcredit]
  case dead =>
    intro k x rest i g s hsends hx hover
    refine ⟨lateAt .egf 0 i (s.setPort k fun p => { p with sends := rest }), ?_, ?_, fun j hj => ?_, ?_, ?_⟩
    · have htold := sendTold_of_over (k := k) (d := { inst := x.inst, frames := x.made })
        (s := s.setPort k fun p => { p with sends := rest }) hx hover
      rw [hx] at htold
      simp [exec, execSegmentGenerate, hsends, hx, hover, htold]
    · exact Only.trans (t := s.setPort k fun p => { p with sends := rest }) (by simp) (by simp)
    · exact State.port_setPort_other s (fun p => { p with sends := rest }) hj
    · exact State.port_setPort_same s k fun p => { p with sends := rest }
    · exact congrArg Inst.lateDiscards (State.inst_setInst_same ..)
  case down =>
    intro s hpci
    refine ⟨s, ?_, rfl⟩
    cases hq : s.sw.hostQ <;> simp [exec, execRxRingDeliver, hq, hpci]
  case host =>
    intro v q s hq hpci
    have hw := deliverHost_waiting v (s.modSw fun w => { w with hostQ := q })
    refine ⟨deliverHost v (s.modSw fun w => { w with hostQ := q }), by simp [exec, execRxRingDeliver, hq, hpci], by simp, ?_, ?_⟩
    · exact congrArg (fun x => x.2.1) hw
    · exact congrArg (fun x => x.2.2) hw
  case inst =>
    intro v q s hq
    have hw := deliverInst_waiting v (s.modSw fun w => { w with instQ := q })
    refine ⟨deliverInst v (s.modSw fun w => { w with instQ := q }), by simp [exec, execRxRingDeliver, hq], by simp, ?_, ?_⟩
    · exact congrArg (fun x => x.2.2) hw
    · exact congrArg (fun x => x.2.1) hw

end Sys2Proof.Machine
end

section
/-!
PROOFS. A refutation of O16: a counter beyond its 64 bits is not brought within them by a link loss that drops no copy.
-/
namespace Sys2Proof.Machine
open Sys2Proof

/-- P0 is up with nothing to send, and its TX_DROP_LINKDOWN holds a value that 64 bits cannot. -/
def overfullCounterState : State := { ports := [(0, { link := true, live := [(31, 2 ^ 64)] })] }

theorem overfullCounter_after_linkDown : ((portDown 0 overfullCounterState).port 0).live.get 31 0 = 2 ^ 64 := by
  decide

/-- Refutes O16: with no copy to drop LINK_DOWN leaves TX_DROP_LINKDOWN at 2^64, and the count of none held at 64 bits is 2^64 - 1. -/
theorem not_linksAndTransceivers : ¬ Obligations.LinksAndTransceivers := by
  intro h
  obtain ⟨hdown, -⟩ := h
  obtain ⟨t, hexec, -, -, -, -, -, -, -, hcount⟩ := hdown 0 overfullCounterState (by decide) (by decide)
  have ht : t = portDown 0 overfullCounterState := (Host.Outcome.next.inj hexec).symm
  rw [ht, overfullCounter_after_linkDown] at hcount
  exact absurd hcount (by decide)

end Sys2Proof.Machine
end

section
/-!
PROOFS. The tables of the switch through what copies do (`State.tables`): entries but for their counts of copies, and the rest of the switch but
for the buffer, its queues and its counters; and the buffer through what only completes copies (`Frees`).
-/
namespace Sys2Proof.Machine
open Sys2Proof

/-! ### Entries after a write -/

@[simp] theorem State.stream_setStream_same (s : State) (i : Nat) (f : StreamEntry → StreamEntry) : (s.setStream i f).stream i = f
    (s.stream i) := by
  simp [State.stream, State.setStream]

theorem State.stream_setStream_other (s : State) {i j : Nat} (f : StreamEntry → StreamEntry) (h : j ≠ i) :
    (s.setStream i f).stream j = s.stream j := by
  simp [State.stream, State.setStream, Tbl.get_set_other _ _ _ h]

@[simp] theorem State.fwdE_setFwd_same (s : State) (i : Nat) (f : FwdEntry → FwdEntry) : (s.setFwd i f).fwdE i = f (s.fwdE i) := by
  simp [State.fwdE, State.setFwd]

theorem State.fwdE_setFwd_other (s : State) {i j : Nat} (f : FwdEntry → FwdEntry) (h : j ≠ i) : (s.setFwd i f).fwdE j = s.fwdE j := by
  simp [State.fwdE, State.setFwd, Tbl.get_set_other _ _ _ h]

/-! ### The tables -/

/-- A stream entry without its counts of copies; a DRAINING one stands as if it were drained. -/
def StreamEntry.calm (e : StreamEntry) : StreamEntry :=
  { e with refCur := 0, refPrev := 0, quarEnd := 0, state := if e.state = .draining then .quarantine else e.state }

/-- As for stream entries. -/
def FwdEntry.calm (e : FwdEntry) : FwdEntry :=
  { e with refCur := 0, refPrev := 0, quarEnd := 0, state := if e.state = .draining then .quarantine else e.state }

/-- The switch without its tables, its buffer, its queues and its counters. -/
def Switch.calm (w : Switch) : Switch :=
  { w with streams := [], fwd := [], store := [], nextFrame := 0, freeCells := 0, sceQ := [], hostQ := [], instQ := [], nodes := [],
           hsrSeq := 0, prpSeq := 0, live := [] }

/-- The tables of the switch as the copies leave them. -/
structure Tables where
  /-- the stream entries. -/
  stream : Nat → StreamEntry
  /-- the forwarding entries. -/
  fwd : Nat → FwdEntry
  /-- the rest. -/
  rest : Switch

/-- What the state holds of them. -/
def State.tables (s : State) : Tables :=
  { stream := fun i => (s.stream i).calm, fwd := fun i => (s.fwdE i).calm, rest := s.sw.calm }

theorem tables_of_only {ps : List Part} {s t : State} (k : Only ps s t) (hp : Part.sw ∉ ps) : t.tables = s.tables := by
  have h : t.sw = s.sw := k.same .sw hp
  simp only [State.tables, State.stream, State.fwdE, h]

theorem stream_of_tables {s t : State} (h : t.tables = s.tables) (i : Nat) : (t.stream i).calm = (s.stream i).calm :=
  congrFun (congrArg Tables.stream h) i

theorem fwd_of_tables {s t : State} (h : t.tables = s.tables) (i : Nat) : (t.fwdE i).calm = (s.fwdE i).calm :=
  congrFun (congrArg Tables.fwd h) i

@[simp] theorem tables_ite {a b : State} (c : Prop) [Decidable c] : (if c then a else b).tables = if c then a.tables else b.tables :=
  apply_ite State.tables c a b

@[simp] theorem foldl_tables {α : Type} (l : List α) (f : State → α → State) (k : ∀ t a, (f t a).tables = t.tables) (s : State) :
    (l.foldl f s).tables = s.tables := by
  induction l generalizing s with
  | nil => rfl
  | cons a l ih => rw [List.foldl_cons, ih, k]

theorem State.setStream_tables (s : State) (i : Nat) (f : StreamEntry → StreamEntry) (hf : (f (s.stream i)).calm = (s.stream i).calm) :
    (s.setStream i f).tables = s.tables := by
  have hs : (fun j => ((s.setStream i f).stream j).calm) = fun j => (s.stream j).calm := by
    funext j
    by_cases hj : j = i
    · rw [hj, State.stream_setStream_same, hf]
    · rw [State.stream_setStream_other _ _ hj]
  simp only [State.tables, hs]
  rfl

theorem State.modSw_tables (s : State) (f : Switch → Switch) (hs : (f s.sw).streams = s.sw.streams) (hf : (f s.sw).fwd = s.sw.fwd)
    (hc : (f s.sw).calm = s.sw.calm) : (s.modSw f).tables = s.tables := by
  simp only [State.tables, State.stream, State.fwdE, State.modSw_sw, hs, hf, hc]

theorem State.setFwd_tables (s : State) (i : Nat) (f : FwdEntry → FwdEntry) (hf : (f (s.fwdE i)).calm = (s.fwdE i).calm) :
    (s.setFwd i f).tables = s.tables := by
  have hs : (fun j => ((s.setFwd i f).fwdE j).calm) = fun j => (s.fwdE j).calm := by
    funext j
    by_cases hj : j = i
    · rw [hj, State.fwdE_setFwd_same, hf]
    · rw [State.fwdE_setFwd_other _ _ hj]
  simp only [State.tables, hs]
  rfl

@[simp] theorem StreamEntry.settle_calm (e : StreamEntry) (q : Nat) : (e.settle q).calm = e.calm := by
  unfold StreamEntry.settle
  split
  case isTrue h =>
    obtain ⟨hs, -, -⟩ := h
    simp [StreamEntry.calm, hs]
  case isFalse => rfl

@[simp] theorem FwdEntry.settle_calm (e : FwdEntry) (q : Nat) : (e.settle q).calm = e.calm := by
  unfold FwdEntry.settle
  split
  case isTrue h =>
    obtain ⟨hs, -, -⟩ := h
    simp [FwdEntry.calm, hs]
  case isFalse => rfl

@[simp] theorem State.modCgu_tables (s : State) (f) : (s.modCgu f).tables = s.tables := rfl
@[simp] theorem State.modTime_tables (s : State) (f) : (s.modTime f).tables = s.tables := rfl
@[simp] theorem State.modSce_tables (s : State) (f) : (s.modSce f).tables = s.tables := rfl
@[simp] theorem State.modAcq_tables (s : State) (f) : (s.modAcq f).tables = s.tables := rfl
@[simp] theorem State.modHead_tables (s : State) (f) : (s.modHead f).tables = s.tables := rfl
@[simp] theorem State.modBki_tables (s : State) (f) : (s.modBki f).tables = s.tables := rfl
@[simp] theorem State.modPorts_tables (s : State) (f) : (s.modPorts f).tables = s.tables := rfl
@[simp] theorem State.modOcu_tables (s : State) (f) : (s.modOcu f).tables = s.tables := rfl
@[simp] theorem State.setPort_tables (s : State) (k : Nat) (f : Port → Port) : (State.setPort s k f).tables = s.tables :=
  tables_of_only (ps := [.ports]) (by simp) (by decide)
@[simp] theorem State.setInst_tables (s : State) (i : Nat) (f : Inst → Inst) : (State.setInst s i f).tables = s.tables :=
  tables_of_only (ps := [.insts]) (by simp) (by decide)
@[simp] theorem State.setFset_tables (s : State) (b : BlockId) (u : Nat) (f : FaultSet → FaultSet) : (State.setFset s b u f).tables = s.tables :=
  tables_of_only (ps := [.faults]) (by simp) (by decide)
@[simp] theorem refreshOver_tables (i : Nat) (s : State) : (refreshOver i s).tables = s.tables :=
  tables_of_only (ps := [.insts, .bki, .evr, .mbx]) (by simp) (by decide)
@[simp] theorem note_tables (b : BlockId) (u : Nat) (code : Nat) (cls : Nat) (owner : Master) (detail : List Byte) (s : State) :
    (note b u code cls owner detail s).tables = s.tables :=
  tables_of_only (ps := [.bki, .evr]) (by simp) (by decide)
@[simp] theorem emit_tables (opcode : Nat) (inst : Option Nat) (gen : Nat) (vals : List Nat) (s : State) (tag : Nat) (st : Status) :
    (emit opcode inst gen vals s tag st).tables = s.tables :=
  tables_of_only (ps := [.bki, .evr, .mbx]) (by simp) (by decide)
@[simp] theorem told_tables (s : State) (t : State) : (told s t).tables = t.tables := tables_of_only (ps := [.mbx]) (by simp) (by decide)
@[simp] theorem unsent_tables (c : TxCopy) (s : State) : (unsent c s).tables = s.tables := tables_of_only (ps := [.time]) (by simp) (by decide)
@[simp] theorem portCount_tables (k : Nat) (i : Nat) (s : State) (n : Nat) : (portCount k i s n).tables = s.tables :=
  tables_of_only (ps := [.ports]) (by simp) (by decide)
@[simp] theorem State.setAcqS_tables (s : State) (n : Nat) (f : AcqStream → AcqStream) : (State.setAcqS s n f).tables = s.tables :=
  tables_of_only (ps := [.acq]) (by simp) (by decide)
@[simp] theorem acqStop_tables (n : Nat) (reason : Nat) (s : State) : (acqStop n reason s).tables = s.tables :=
  tables_of_only (ps := [.acq, .bki, .evr]) (by simp) (by decide)
@[simp] theorem cguCount_tables (i : Nat) (s : State) : (cguCount i s).tables = s.tables := tables_of_only (ps := [.cgu]) (by simp) (by decide)
@[simp] theorem swCount_tables (i : Nat) (s : State) (n : Nat) : (swCount i s n).tables = s.tables := rfl
@[simp] theorem entryHold_tables (idx : Nat) (n : Nat) (s : State) : (entryHold idx n s).tables = s.tables := by
  unfold entryHold
  split_ifs
  · exact State.setStream_tables _ _ _ rfl
  · exact State.setFwd_tables _ _ _ rfl
  · rfl
@[simp] theorem entryDone_tables (idx : Nat) (gen : Nat) (s : State) : (entryDone idx gen s).tables = s.tables := by
  unfold entryDone
  dsimp only
  split_ifs
  · exact State.setStream_tables _ _ _ ((StreamEntry.settle_calm ..).trans (by split <;> rfl))
  · exact State.setFwd_tables _ _ _ ((FwdEntry.settle_calm ..).trans (by split <;> rfl))
  · rfl
@[simp] theorem freeFrame_tables (n : Nat) (f : Stored) (s : State) : (freeFrame n f s).tables = s.tables := by
  unfold freeFrame
  dsimp only
  split
  · exact (refreshOver_tables ..).trans (State.setInst_tables ..)
  · rfl
@[simp] theorem copyDone_tables (n : Nat) (entry : Nat) (gen : Nat) (nonPort : Bool) (s : State) : (copyDone n entry gen nonPort s).tables =
    s.tables := by
  unfold copyDone
  dsimp only
  split
  · exact (freeFrame_tables ..).trans (entryDone_tables ..)
  · exact entryDone_tables ..
@[simp] theorem txDone_tables (c : TxCopy) (s : State) : (txDone c s).tables = s.tables := by simp [txDone]
@[simp] theorem txDrop_tables (k : Nat) (counter : Nat) (c : TxCopy) (s : State) : (txDrop k counter c s).tables = s.tables := by simp [txDrop]
@[simp] theorem enqueue_tables (k : Nat) (c : TxCopy) (s : State) : (enqueue k c s).tables = s.tables := by simp [enqueue]
@[simp] theorem nodeSeen_tables (f : Stored) (s : State) : (nodeSeen f s).tables = s.tables := by
  unfold nodeSeen
  split <;> rfl
@[simp] theorem acqLost_tables (p : AcqSrc → Bool) (s : State) : (acqLost p s).tables = s.tables := by simp [acqLost]
@[simp] theorem deliver_tables (n : Nat) (entry : Nat) (gen : Nat) (d : Dest) (s : State) : (deliver n entry gen d s).tables = s.tables := by
  unfold deliver
  split
  · simp
  · simp
  · dsimp only
    split
    · rfl
    · simp
  · dsimp only
    split
    · rfl
    · simp
  · simp
  · rfl
  · rfl
@[simp] theorem evict_tables (n : Nat) (f : Stored) (s : State) : (evict n f s).tables = s.tables := by simp [evict]
@[simp] theorem makeRoom_tables (c cells n : Nat) (s : State) : (makeRoom c cells n s).tables = s.tables := by
  induction n generalizing s with
  | zero => rfl
  | succ n ih =>
    unfold makeRoom
    split
    · rfl
    · split
      · rfl
      · simp [ih]
@[simp] theorem storeFrame_tables (f : Stored) (entry : Nat) (gen : Nat) (ds : List Dest) (s : State) : (storeFrame f entry gen ds s).tables =
    s.tables := by
  unfold storeFrame
  split
  · rfl
  · dsimp only
    split
    · rw [swCount_tables, foldl_tables _ _ (fun t d => ?_), makeRoom_tables]
      split <;> simp
    · rw [foldl_tables _ _ fun t d => deliver_tables .., entryHold_tables]
      exact makeRoom_tables ..
@[simp] theorem linkEvent_tables (k : Nat) (what : Nat) (s : State) : (linkEvent k what s).tables = s.tables :=
  tables_of_only (ps := [.bki, .evr, .mbx]) (by simp) (by decide)
@[simp] theorem countPause_tables (k : Nat) (s : State) : (countPause k s).tables = s.tables :=
  tables_of_only (ps := [.ports]) (by simp) (by decide)
@[simp] theorem flushQueues_tables (k : Nat) (counter : Nat) (s : State) : (flushQueues k counter s).tables = s.tables := by simp [flushQueues]
@[simp] theorem abandon_tables (k : Nat) (s : State) : (abandon k s).tables = s.tables := by
  unfold abandon
  split <;> simp
@[simp] theorem portDown_tables (k : Nat) (s : State) : (portDown k s).tables = s.tables := by simp [portDown]
@[simp] theorem coilOff_tables (s : State) : (coilOff s).tables = s.tables := by simp [coilOff]
@[simp] theorem coilCheck_tables (s : State) : (coilCheck s).tables = s.tables := by simp [coilCheck]
@[simp] theorem gateDrop_tables (counter : Nat) (g : GateFrame) (s : State) : (gateDrop counter g s).tables = s.tables := by simp [gateDrop]
@[simp] theorem heldAside_tables (n : Nat) (up : Bool) (s : State) : (heldAside n up s).tables = s.tables := by
  unfold heldAside
  exact State.modSw_tables _ _ (by split <;> rfl) (by split <;> rfl) (by split <;> rfl)
@[simp] theorem gateRelease_tables (g : GateFrame) (s : State) : (gateRelease g s).tables = s.tables := by simp [gateRelease]
@[simp] theorem gateOne_tables (g : GateFrame) (s : State) : (gateOne g s).tables = s.tables := by simp [gateOne]
@[simp] theorem reexamine_tables (s : State) : (reexamine s).tables = s.tables := by simp [reexamine]
@[simp] theorem setRole_tables (r : Role) (s : State) : (setRole r s).tables = s.tables :=
  tables_of_only (ps := [.cgu, .bki, .evr, .mbx]) (by simp) (by decide)
@[simp] theorem winFalls_tables (s : State) : (winFalls s).tables = s.tables := tables_of_only (ps := [.cgu]) (by simp) (by decide)
@[simp] theorem becomeOut_tables (hard : Bool) (s : State) : (becomeOut hard s).tables = s.tables := by simp [becomeOut]
@[simp] theorem startTakeover_tables (s : State) : (startTakeover s).tables = s.tables :=
  tables_of_only (ps := [.cgu, .bki, .evr, .mbx, .persist]) (by simp) (by decide)
@[simp] theorem recordDecision_tables (row : Nat) (against : Option Bool) (k : CmpKey) (s : State) : (recordDecision row against k s).tables =
    s.tables :=
  tables_of_only (ps := [.ocu, .mlk, .bki, .evr, .mbx]) (by simp) (by decide)
@[simp] theorem actDecision_tables (row : Nat) (own : Bool) (s : State) : (actDecision row own s).tables = s.tables := by simp [actDecision]
@[simp] theorem refereeF_tables (s : State) : (refereeF s).tables = s.tables := by
  unfold refereeF
  dsimp only
  split_ifs <;> simp
@[simp] theorem finding_tables (f : Finding) (s : State) : (finding f s).tables = s.tables :=
  tables_of_only (ps := [.bki, .faults, .evr, .mbx]) (by simp) (by decide)
@[simp] theorem vector_tables (v : Nat) (s : State) : (vector v s).tables = s.tables := tables_of_only (ps := [.mbx]) (by simp) (by decide)
@[simp] theorem bkiHold_tables (s : State) : (bkiHold s).tables = s.tables := tables_of_only (ps := [.bki]) (by simp) (by decide)
@[simp] theorem mgpRestart_tables (s : State) : (mgpRestart s).tables = s.tables :=
  tables_of_only (ps := [.insts, .bki, .faults, .mbx, .persist, .mon]) (by simp) (by decide)
@[simp] theorem releaseClaim_tables (s : State) : (releaseClaim s).tables = s.tables := by simp [releaseClaim]
@[simp] theorem mgpLoss_tables (s : State) : (mgpLoss s).tables = s.tables := by simp [mgpLoss]
@[simp] theorem retry_tables (b : BlockId) (u : Nat) (s : State) : (retry b u s).tables = s.tables :=
  tables_of_only (ps := [.ports, .head, .mlk]) (by simp) (by decide)
@[simp] theorem leaveFault_tables (b : BlockId) (u : Nat) (s : State) : (leaveFault b u s).tables = s.tables := by simp [leaveFault]
@[simp] theorem leaveDue_tables (b : BlockId) (u : Nat) (s : State) : (leaveDue b u s).tables = s.tables := by simp [leaveDue]
@[simp] theorem raise_tables (f : Finding) (s : State) : (raise f s).tables = s.tables := by
  unfold raise
  dsimp only
  split_ifs <;> simp
@[simp] theorem idConflict_tables (s : State) : (idConflict s).tables = s.tables := by simp [idConflict]
@[simp] theorem redPorts_tables (mask : List Nat) (s : State) : (redPorts mask s).2.tables = s.tables := rfl

/-! ### The buffer where copies only complete -/

/-- From `s` to `t` no frame is stored, and cells are only given back. -/
structure Frees (s t : State) : Prop where
  /-- no frame is stored. -/
  next : t.sw.nextFrame = s.sw.nextFrame
  /-- no cell is taken. -/
  cells : s.sw.freeCells ≤ t.sw.freeCells

theorem Frees.trans {s t u : State} (h : Frees s t) (g : Frees t u) : Frees s u := ⟨g.next.trans h.next, h.cells.trans g.cells⟩

theorem Frees.rfl {s : State} : Frees s s := ⟨Eq.refl _, Nat.le_refl _⟩

theorem frees_of_only {ps : List Part} {s t : State} (k : Only ps s t) (hp : Part.sw ∉ ps) : Frees s t := by
  have h : t.sw = s.sw := k.same .sw hp
  exact ⟨by rw [h], by rw [h]⟩

theorem frees_ite {s a b : State} {c : Prop} [Decidable c] (ha : Frees s a) (hb : Frees s b) : Frees s (if c then a else b) := by
  split
  · exact ha
  · exact hb

theorem foldl_frees {α : Type} {f : State → α → State} (h : ∀ t a, Frees t (f t a)) (l : List α) (s : State) : Frees s (l.foldl f s) := by
  induction l generalizing s with
  | nil => exact Frees.rfl
  | cons a l ih => exact (h s a).trans (ih _)

theorem entryDone_frees (idx gen : Nat) (s : State) : Frees s (entryDone idx gen s) := by
  unfold entryDone
  exact frees_ite ⟨rfl, Nat.le_refl _⟩ (frees_ite ⟨rfl, Nat.le_refl _⟩ Frees.rfl)

theorem freeFrame_frees (n : Nat) (f : Stored) (s : State) : Frees s (freeFrame n f s) := by
  have hdel : Frees s (s.modSw fun w => { w with store := w.store.del n, freeCells := w.freeCells + f.cells }) := ⟨rfl, Nat.le_add_right ..⟩
  unfold freeFrame
  dsimp only
  split
  · exact hdel.trans (frees_of_only (ps := [.insts, .bki, .evr, .mbx]) (by simp) (by decide))
  · exact hdel

theorem copyDone_frees (n entry gen : Nat) (nonPort : Bool) (s : State) : Frees s (copyDone n entry gen nonPort s) := by
  refine (entryDone_frees entry gen s).trans ?_
  exact frees_ite (freeFrame_frees ..) ⟨rfl, Nat.le_refl _⟩

theorem txDone_frees (c : TxCopy) (s : State) : Frees s (txDone c s) := copyDone_frees ..

theorem txDrop_frees (k i : Nat) (c : TxCopy) (s : State) : Frees s (txDrop k i c s) :=
  (frees_of_only (ps := [.ports, .time]) (by simp) (by decide)).trans (txDone_frees ..)

theorem enqueue_frees (k : Nat) (c : TxCopy) (s : State) : Frees s (enqueue k c s) :=
  frees_ite (txDrop_frees ..) (frees_ite (txDrop_frees ..) (frees_of_only (ps := [.ports]) (by simp) (by decide)))

theorem gateDrop_frees (i : Nat) (g : GateFrame) (s : State) : Frees s (gateDrop i g s) :=
  (frees_of_only (ps := [.cgu, .time]) (by simp) (by decide)).trans (txDone_frees ..)

theorem heldAside_frees (n : Nat) (up : Bool) (s : State) : Frees s (heldAside n up s) := by
  unfold heldAside
  exact ⟨by rw [State.modSw_sw]; split <;> rfl, by rw [State.modSw_sw]; split <;> exact Nat.le_refl _⟩

theorem gateOne_frees (g : GateFrame) (s : State) : Frees s (gateOne g s) := by
  unfold gateOne
  dsimp only
  split_ifs
  · exact (frees_of_only (ps := [.cgu]) (by simp) (by decide)).trans (heldAside_frees ..)
  · exact gateDrop_frees ..
  · exact (frees_of_only (ps := [.cgu]) (by simp) (by decide)).trans (enqueue_frees ..)
  · exact gateDrop_frees ..
  · exact gateDrop_frees ..

theorem becomeOut_frees (hard : Bool) (s : State) : Frees s (becomeOut hard s) := by
  have hrole : Only [.cgu, .bki, .evr, .mbx] s (setRole .out (winFalls s)) := by simp
  refine (frees_of_only hrole (by decide)).trans ?_
  exact (frees_of_only (ps := [.cgu]) (by simp) (by decide)).trans
    (foldl_frees (fun t g => (heldAside_frees ..).trans (gateOne_frees ..)) _ _)

theorem actDecision_frees (row : Nat) (own : Bool) (s : State) : Frees s (actDecision row own s) := by
  unfold actDecision
  split_ifs
  · exact Frees.rfl
  · exact becomeOut_frees ..
  · exact frees_of_only (ps := [.ocu]) (by simp) (by decide)
  · exact Frees.rfl
  · exact Frees.rfl
  · exact frees_of_only (ps := [.cgu, .persist, .bki, .evr, .mbx]) (by simp) (by decide)
  · exact Frees.rfl

theorem refereeF_frees (s : State) : Frees s (refereeF s) := by
  have hrec : ∀ row against c t, Frees t (recordDecision row against c t) := fun row against c t =>
    frees_of_only (ps := [.ocu, .mlk, .bki, .evr, .mbx]) (by simp) (by decide)
  have hseen : Frees s (s.modOcu fun o => { o with fSeen := s.fPair }) := frees_of_only (ps := [.ocu]) (by simp) (by decide)
  unfold refereeF
  dsimp only
  split_ifs
  · exact Frees.rfl
  · exact hseen.trans ((hrec ..).trans (actDecision_frees ..))
  · exact hseen.trans ((hrec ..).trans (actDecision_frees ..))
  · exact hseen.trans (hrec ..)
  · exact hseen.trans (hrec ..)

theorem leaveDue_frees (b : BlockId) (u : Nat) (s : State) : Frees s (leaveDue b u s) := by
  refine frees_ite ?_ Frees.rfl
  rw [leaveFault_eq]
  exact (frees_of_only (leftFault_only b u s) (by decide)).trans
    ((refereeF_frees _).trans (frees_of_only (ps := [.ports, .head, .mlk]) (by simp) (by decide)))

theorem idConflict_frees (s : State) : Frees s (idConflict s) := by
  unfold idConflict
  refine frees_ite Frees.rfl ?_
  rw [raise_of_classK rfl]
  have hfound : ∀ f t, Frees t (foundIn f t) := fun f t => frees_ite (leaveDue_frees ..) Frees.rfl
  have hfind : ∀ f t, Frees t (finding f t) := fun f t => frees_of_only (ps := [.bki, .faults, .evr, .mbx]) (by simp) (by decide)
  have hcgu : Frees s (s.modCgu fun c => { c with idConflict := some c.unitId }) := frees_of_only (ps := [.cgu]) (by simp) (by decide)
  exact hcgu.trans ((becomeOut_frees ..).trans ((hfound ..).trans (hfind ..)))

end Sys2Proof.Machine
end

section
/-!
PROOFS. The bypass head (R101 to R106): what a finding with its reactions leaves of the ports and of the sensed position, and the obligation O19.
-/
namespace Sys2Proof.Machine
open Sys2Proof

/-! ### Ports through the reactions to a finding -/

theorem port_of_only {ps : List Part} {s t : State} (k : Only ps s t) (hp : Part.ports ∉ ps) {j : Nat} : t.port j = s.port j :=
  port_of_ports (k.same .ports hp) j

/-- A port as the gate and the referee leave it. -/
def State.portCalm (s : State) (k : Nat) : Port := (s.port k).calm

theorem portCalm_of_calm {s t : State} (h : t.calm = s.calm) (k : Nat) : t.portCalm k = s.portCalm k := port_of_calm h k

theorem portCalm_of_only {ps : List Part} {s t : State} (h : Only ps s t) (hp : Part.ports ∉ ps) (k : Nat) : t.portCalm k = s.portCalm k :=
  congrArg Port.calm (port_of_only h hp)

@[simp] theorem portCalm_ite {a b : State} (c : Prop) [Decidable c] (k : Nat) :
    (if c then a else b).portCalm k = if c then a.portCalm k else b.portCalm k := apply_ite (State.portCalm · k) c a b

@[simp] theorem gateOne_portCalm (g : GateFrame) (s : State) (k : Nat) : (gateOne g s).portCalm k = s.portCalm k := by
  unfold gateOne
  dsimp only
  split_ifs
  · exact portCalm_of_only (ps := [.cgu, .sw]) (by simp) (by decide) k
  · exact portCalm_of_calm (gateDrop_calm ..) k
  · exact portCalm_of_calm (gateRelease_calm ..) k
  · exact portCalm_of_calm (gateDrop_calm ..) k
  · exact portCalm_of_calm (gateDrop_calm ..) k

theorem foldl_portCalm {α : Type} (l : List α) (f : State → α → State) (k : Nat) (h : ∀ t a, (f t a).portCalm k = t.portCalm k) (s : State) :
    (l.foldl f s).portCalm k = s.portCalm k := by
  induction l generalizing s with
  | nil => rfl
  | cons a l ih => rw [List.foldl_cons, ih, h]

@[simp] theorem reexamine_portCalm (s : State) (k : Nat) : (reexamine s).portCalm k = s.portCalm k := by
  refine foldl_portCalm _ _ k (fun t g => ?_) _
  exact (gateOne_portCalm ..).trans (portCalm_of_only (ps := [.sw]) (by simp) (by decide) k)

@[simp] theorem becomeOut_portCalm (hard : Bool) (s : State) (k : Nat) : (becomeOut hard s).portCalm k = s.portCalm k := by
  refine (reexamine_portCalm ..).trans (portCalm_of_only (ps := [.cgu, .bki, .evr, .mbx]) ?_ (by decide) k)
  exact Only.trans (t := setRole .out (winFalls s)) (by simp) (by simp)

@[simp] theorem actDecision_portCalm (row : Nat) (own : Bool) (s : State) (k : Nat) : (actDecision row own s).portCalm k = s.portCalm k := by
  unfold actDecision
  split_ifs
  · rfl
  · exact becomeOut_portCalm ..
  · rfl
  · rfl
  · rfl
  · exact portCalm_of_only (ps := [.cgu, .persist, .bki, .evr, .mbx]) (by simp) (by decide) k
  · rfl

@[simp] theorem recordDecision_portCalm (row : Nat) (against : Option Bool) (c : CmpKey) (s : State) (k : Nat) :
    (recordDecision row against c s).portCalm k = s.portCalm k := portCalm_of_only (ps := [.ocu, .mlk, .bki, .evr, .mbx]) (by simp) (by decide) k

@[simp] theorem refereeF_portCalm (s : State) (k : Nat) : (refereeF s).portCalm k = s.portCalm k := by
  unfold refereeF
  dsimp only
  split_ifs
  · rfl
  · exact (actDecision_portCalm ..).trans (recordDecision_portCalm ..)
  · exact (actDecision_portCalm ..).trans (recordDecision_portCalm ..)
  · exact recordDecision_portCalm ..
  · exact recordDecision_portCalm ..

theorem link_of_portCalm {s t : State} {k : Nat} (h : t.portCalm k = s.portCalm k) : (t.port k).link = (s.port k).link := by
  simpa only [State.portCalm, Port.calm] using congrArg Port.link h

theorem State.port_setPort (s : State) (k j : Nat) (f : Port → Port) : (s.setPort k f).port j = if j = k then f (s.port j) else s.port j := by
  split
  case isTrue h => rw [h, State.port_setPort_same]
  case isFalse h => rw [State.port_setPort_other _ _ h]

@[simp] theorem retry_link (b : BlockId) (u : Nat) (s : State) (k : Nat) : ((retry b u s).port k).link = (s.port k).link := by
  cases b with
  | prt =>
    simp only [retry, State.port_setPort]
    split <;> rfl
  | byp =>
    simp only [retry]
    split
    · simp only [State.port_setPort]
      split_ifs <;> rfl
    · rfl
  | _ => rfl

@[simp] theorem leaveDue_link (b : BlockId) (u : Nat) (s : State) (k : Nat) : ((leaveDue b u s).port k).link = (s.port k).link := by
  unfold leaveDue
  split
  · rw [leaveFault_eq, retry_link, link_of_portCalm (refereeF_portCalm ..), port_of_only (leftFault_only b u s) (by decide)]
  · rfl

@[simp] theorem finding_port (f : Finding) (s : State) (k : Nat) : (finding f s).port k = s.port k :=
  port_of_only (ps := [.bki, .faults, .evr, .mbx]) (by simp) (by decide)

/-! ### A port that goes down -/

theorem txDrop_calm_link (k i : Nat) (c : TxCopy) (s : State) (j : Nat) : ((txDrop k i c s).port j).link = (s.port j).link :=
  link_of_portCalm (portCalm_of_calm (txDrop_calm ..) j)

/-- After a port has gone down its link is down, and that of another port as it was. -/
theorem portDown_link (k : Nat) (s : State) (j : Nat) : ((portDown k s).port j).link = if j = k then false else (s.port j).link := by
  unfold portDown
  split
  case isFalse h =>
    split
    case isTrue hj => simpa [hj] using h
    case isFalse => rfl
  case isTrue h =>
    have habandon : ∀ t, ((abandon k t).port j).link = (t.port j).link := fun t => by
      unfold abandon
      split
      · rw [txDrop_calm_link, State.port_setPort]
        split <;> rfl
      · rfl
    rw [link_of_portCalm (portCalm_of_calm (linkEvent_calm ..) j), habandon, link_of_portCalm (portCalm_of_calm (flushQueues_calm ..) j)]
    dsimp only
    rw [State.port_setPort]
    split
    · rfl
    · rw [countPause_port_other _ ‹_›]

theorem portDown_link_of_down {k j : Nat} {s : State} (h : (s.port j).link = false) : ((portDown k s).port j).link = false := by
  rw [portDown_link, h, ite_self]

theorem coilOff_link_of_down {j : Nat} {s : State} (h : (s.port j).link = false) : ((coilOff s).port j).link = false := by
  unfold coilOff
  split
  · exact portDown_link_of_down (portDown_link_of_down h)
  · exact h

/-- A K-class finding brings no link up. -/
theorem raise_link_of_down {f : Finding} (hc : f.cls = 2) {k : Nat} {s : State} (h : (s.port k).link = false) :
    ((raise f s).port k).link = false := by
  have hf : ((finding f (foundIn f s)).port k).link = false := by
    rw [finding_port]
    unfold foundIn
    split <;> simp [h]
  rw [raise_of_classK hc]
  unfold coilAfter coilCheck
  split_ifs
  · exact hf
  · exact coilOff_link_of_down hf
  · exact hf

/-! ### The head through a finding -/

@[simp] theorem portDown_head (k : Nat) (s : State) : (portDown k s).head = s.head :=
  (portDown_only (qs := [.ports, .sw, .insts, .cgu, .time, .bki, .evr, .mbx]) k s (Only.refl _ s) (by simp)).same .head (by decide)

@[simp] theorem portDown_faults (k : Nat) (s : State) : (portDown k s).faults = s.faults :=
  (portDown_only (qs := [.ports, .sw, .insts, .cgu, .time, .bki, .evr, .mbx]) k s (Only.refl _ s) (by simp)).same .faults (by decide)

@[simp] theorem coilOff_coil (s : State) : (coilOff s).head.coil = false := by
  unfold coilOff
  split
  · simp
  case isFalse h => simpa using h

@[simp] theorem coilOff_through (s : State) : (coilOff s).head.through = s.head.through := by
  unfold coilOff
  split <;> simp

/-- A fault of BYP removes the coil current (R102). -/
theorem coilCheck_coil_of_fault {s : State} (h : (s.fset .byp 0).state = true) : (coilCheck s).head.coil = false := by
  simp [coilCheck, coilAllowed, State.inFault, h]

@[simp] theorem retry_through (b : BlockId) (u : Nat) (s : State) : (retry b u s).head.through = s.head.through := by
  cases b with
  | byp =>
    simp only [retry]
    split <;> rfl
  | _ => rfl

@[simp] theorem refereeF_head (s : State) : (refereeF s).head = s.head :=
  (refereeF_only (qs := [.ports, .sw, .insts, .cgu, .ocu, .mlk, .time, .bki, .evr, .mbx, .persist]) s (Only.refl _ s) (by simp)).same .head (by decide)

/-- A K-class finding does not move the switch. -/
theorem raise_through {f : Finding} (hc : f.cls = 2) (s : State) : (raise f s).head.through = s.head.through := by
  have hleave : ∀ b u, (leaveDue b u s).head.through = s.head.through := fun b u => by
    unfold leaveDue
    split
    · rw [leaveFault_eq, retry_through, refereeF_head, (leftFault_only b u s).same .head (by decide)]
    · rfl
  have hfind : (finding f (foundIn f s)).head.through = s.head.through := by
    rw [(finding_only (qs := [.bki, .faults, .evr, .mbx]) f _ (Only.refl _ _) (by simp)).same .head (by decide)]
    unfold foundIn
    split
    · exact hleave ..
    · rfl
  rw [raise_of_classK hc]
  unfold coilAfter coilCheck
  split_ifs <;> simp [hfind]

/-- A K-class finding of BYP that is not POISONED removes the coil current. -/
theorem raise_coil_of_byp {f : Finding} (hc : f.cls = 2) (hb : f.block = .byp) (hu : f.unit = 0) (hk : f.kind ≠ 2) (s : State) :
    (raise f s).head.coil = false := by
  have hcounts := (raise_counts_iff (.inl hc)).2 hk
  have hstate := raise_state (.inl hc) s hk
  rw [raise_of_classK hc, coilAfter_fset, hb, hu] at hstate
  rw [raise_of_classK hc, coilAfter, if_pos ⟨hb, hcounts⟩]
  exact coilCheck_coil_of_fault hstate

/-! ### A position that differs from the command (R104) -/

/-- The finding of a sensed position that still differs. -/
def disagreement (b : Bool) : Finding := { block := .byp, kind := 9, access := 5, persist := b }

/-- The state in which it is found: the coil off, P0 and P1 down. -/
def disagreed (b : Bool) (s : State) : State := portDown 1 (portDown 0 (coilOff (s.modHead fun h => { h with through := b })))

theorem disagreed_through (b : Bool) (s : State) : (disagreed b s).head.through = b := by simp [disagreed]

theorem disagreed_fset (b : Bool) (s : State) (c : BlockId) (u : Nat) : (disagreed b s).fset c u = s.fset c u := by
  have h : (disagreed b s).faults = s.faults := by
    rw [disagreed, portDown_faults, portDown_faults]
    exact (coilOff_only (qs := [.ports, .head, .sw, .insts, .cgu, .time, .bki, .evr, .mbx]) _ (Only.refl _ _) (by simp)).same .faults (by decide)
  simp only [State.fset, h]

theorem disagreed_link {b : Bool} {s : State} {j : Nat} (hj : j < 2) : ((disagreed b s).port j).link = false := by
  obtain rfl | rfl : j = 0 ∨ j = 1 := by omega
  · exact portDown_link_of_down (by rw [portDown_link, if_pos rfl])
  · rw [disagreed, portDown_link, if_pos rfl]

/-- Settles O19: the commands of the head, with the K-class finding of a failed loop test and of a disagreement (`raise_coil_of_byp`). -/
theorem bypassHeadCommands : Obligations.BypassHeadCommands := by
  refine ⟨?passed, ?failed, ?energise, ?allowed, ?complete, ?mismatch⟩
  case passed =>
    intro s hpresent haon hmain hreset hcoil
    exact ⟨s.modHead fun h => { h with loopOk := true, loopFrom := none },
      by simp [exec, execLoopTest, hpresent, haon, hmain, hreset, hcoil], by simp, rfl⟩
  case failed =>
    intro s hpresent haon hmain hreset hcoil
    refine ⟨(raise { block := .byp, kind := 9, access := 5 } s).modHead fun h => { h with loopOk := false, loopFrom := none },
      by simp [exec, execLoopTest, hpresent, haon, hmain, hreset, hcoil], rfl, ?_, ?_⟩
    · exact raise_state (f := { block := .byp, kind := 9, access := 5 }) (.inl rfl) s (by decide)
    · exact raise_coil_of_byp (f := { block := .byp, kind := 9, access := 5 }) rfl rfl rfl (by decide) s
  case energise =>
    intro s hjoin hallowed hcoil
    have hsame : (if joinOk s then s.modHead fun h => { h with joinAllowed := true } else s) = s := by
      split
      · have hhead : { s.head with joinAllowed := true } = s.head := by rw [← hjoin]
        exact congrArg (fun h => { s with head := h }) hhead
      · rfl
    refine ⟨s.modHead fun h => { h with coil := true, cmdAt := s.now }, ?_, by simp, rfl⟩
    simp only [exec, execCoilEnergise, hsame]
    rw [if_pos (by simp [hjoin, hallowed, hcoil])]
  case allowed =>
    intro s h
    simp only [coilAllowed, Bool.and_eq_true, Bool.not_eq_true'] at h
    tauto
  case complete =>
    intro s hpresent
    refine ⟨persistEnds .byp 0 (s.modHead fun h => { h with through := h.coil }), by simp [exec, execHeadSwitchComplete, hpresent],
      by simp, rfl, ?_⟩
    unfold persistEnds
    rw [State.fset_setFset_same]
    split
    · rfl
    case isFalse h => simpa using h
  case mismatch =>
    intro b s hpresent hb hpersist hdue
    have hdue' : s.head.cmdAt + ms 10 ≤ s.time.age := hdue
    have hexec : exec (.headPositionMismatch b) s =
        .next (((raise (disagreement b) (disagreed b s)).setPort 0 fun p => { p with attach := 3 }).setPort 1 fun p => { p with attach := 3 }) := by
      simp [exec, execHeadPositionMismatch, hpresent, hb, hpersist, whenDue_now _ hdue', disagreement, disagreed]
    have hcls : (disagreement b).cls = 2 := rfl
    have hkind : (disagreement b).kind ≠ 2 := by simp [disagreement]
    have hstate := raise_state (.inl hcls) (disagreed b s) hkind
    have hpers := raise_persist (.inl hcls) (disagreed b s) hkind
    have hcnt := raise_cntK (.inl hcls) (disagreed b s)
    have hdown : ∀ j, j < 2 → ((raise (disagreement b) (disagreed b s)).port j).link = false :=
      fun j hj => raise_link_of_down hcls (disagreed_link hj)
    have hcoil := raise_coil_of_byp hcls rfl rfl hkind (disagreed b s)
    have hthrough : (raise (disagreement b) (disagreed b s)).head.through = b := by
      rw [raise_through hcls, disagreed_through]
    simp only [show (disagreement b).block = .byp from rfl, show (disagreement b).unit = 0 from rfl, disagreed_fset] at hstate hpers hcnt
    generalize raise (disagreement b) (disagreed b s) = r at hexec hstate hpers hcnt hdown hcoil hthrough
    have hport : ∀ j, j < 2 → ((r.setPort 0 fun p => { p with attach := 3 }).setPort 1 fun p => { p with attach := 3 }).port j
        = { r.port j with attach := 3 } := fun j hj => by
      obtain rfl | rfl : j = 0 ∨ j = 1 := by omega
      · simp [State.port_setPort]
      · simp [State.port_setPort]
    refine ⟨_, hexec, hcoil, hthrough, ?_, ?_, fun _ => ⟨?_, ?_⟩, hstate, ?_, hcnt⟩
    · rw [hport 0 (by decide)]
    · rw [hport 1 (by decide)]
    · rw [hport 0 (by decide)]
      exact hdown 0 (by decide)
    · rw [hport 1 (by decide)]
      exact hdown 1 (by decide)
    · exact hpers.trans (by rw [hpersist]; rfl)

end Sys2Proof.Machine
end

section
/-!
PROOFS. The claim gate unit through what copies, findings and a change of role do: its settings and claim records stay (`State.claims`).
-/
namespace Sys2Proof.Machine
open Sys2Proof

/-- The claim gate unit without its role, its claim, its wires, its copies and its counters: settings and claim records. -/
def State.claims (s : State) : Cgu :=
  { s.cgu with ownClaim := 0, role := .out, outHard := false, idConflict := none, win := false, wires := [], gate := [], setAside := [],
               tripOn := false, live := [] }

theorem claims_of_only {ps : List Part} {s t : State} (k : Only ps s t) (hp : Part.cgu ∉ ps) : t.claims = s.claims := by
  have h : t.cgu = s.cgu := k.same .cgu hp
  simp only [State.claims, h]

@[simp] theorem claims_ite {a b : State} (c : Prop) [Decidable c] : (if c then a else b).claims = if c then a.claims else b.claims :=
  apply_ite State.claims c a b

@[simp] theorem foldl_claims {α : Type} (l : List α) (f : State → α → State) (k : ∀ t a, (f t a).claims = t.claims) (s : State) :
    (l.foldl f s).claims = s.claims := by
  induction l generalizing s with
  | nil => rfl
  | cons a l ih => rw [List.foldl_cons, ih, k]

theorem claimRxEn_of_claims {s t : State} (h : t.claims = s.claims) : t.cgu.claimRxEn = s.cgu.claimRxEn := by
  simpa only [State.claims] using congrArg Cgu.claimRxEn h

@[simp] theorem State.modTime_claims (s : State) (f) : (s.modTime f).claims = s.claims := rfl
@[simp] theorem State.modSce_claims (s : State) (f) : (s.modSce f).claims = s.claims := rfl
@[simp] theorem State.modAcq_claims (s : State) (f) : (s.modAcq f).claims = s.claims := rfl
@[simp] theorem State.modHead_claims (s : State) (f) : (s.modHead f).claims = s.claims := rfl
@[simp] theorem State.modBki_claims (s : State) (f) : (s.modBki f).claims = s.claims := rfl
@[simp] theorem State.modPorts_claims (s : State) (f) : (s.modPorts f).claims = s.claims := rfl
@[simp] theorem State.modOcu_claims (s : State) (f) : (s.modOcu f).claims = s.claims := rfl
@[simp] theorem State.modMlk_claims (s : State) (f) : (s.modMlk f).claims = s.claims := rfl
@[simp] theorem State.modSw_claims (s : State) (f) : (s.modSw f).claims = s.claims := rfl
@[simp] theorem State.modInsts_claims (s : State) (f) : (s.modInsts f).claims = s.claims := rfl
@[simp] theorem State.modKsu_claims (s : State) (f) : (s.modKsu f).claims = s.claims := rfl
@[simp] theorem State.modEvr_claims (s : State) (f) : (s.modEvr f).claims = s.claims := rfl
@[simp] theorem State.modMbx_claims (s : State) (f) : (s.modMbx f).claims = s.claims := rfl
@[simp] theorem State.modPersist_claims (s : State) (f) : (s.modPersist f).claims = s.claims := rfl
@[simp] theorem State.setPort_claims (s : State) (k : Nat) (f : Port → Port) : (State.setPort s k f).claims = s.claims :=
  claims_of_only (ps := [.ports]) (by simp) (by decide)
@[simp] theorem State.setInst_claims (s : State) (i : Nat) (f : Inst → Inst) : (State.setInst s i f).claims = s.claims :=
  claims_of_only (ps := [.insts]) (by simp) (by decide)
@[simp] theorem State.setFset_claims (s : State) (b : BlockId) (u : Nat) (f : FaultSet → FaultSet) : (State.setFset s b u f).claims = s.claims :=
  claims_of_only (ps := [.faults]) (by simp) (by decide)
@[simp] theorem told_claims (s : State) (t : State) : (told s t).claims = t.claims := claims_of_only (ps := [.mbx]) (by simp) (by decide)
@[simp] theorem State.setStream_claims (s : State) (idx : Nat) (f : StreamEntry → StreamEntry) : (State.setStream s idx f).claims = s.claims :=
  claims_of_only (ps := [.sw]) (by simp) (by decide)
@[simp] theorem State.setFwd_claims (s : State) (idx : Nat) (f : FwdEntry → FwdEntry) : (State.setFwd s idx f).claims = s.claims :=
  claims_of_only (ps := [.sw]) (by simp) (by decide)
@[simp] theorem note_claims (b : BlockId) (u : Nat) (code : Nat) (cls : Nat) (owner : Master) (detail : List Byte) (s : State) :
    (note b u code cls owner detail s).claims = s.claims :=
  claims_of_only (ps := [.bki, .evr]) (by simp) (by decide)
@[simp] theorem emit_claims (opcode : Nat) (inst : Option Nat) (gen : Nat) (vals : List Nat) (s : State) (tag : Nat) (st : Status) :
    (emit opcode inst gen vals s tag st).claims = s.claims :=
  claims_of_only (ps := [.bki, .evr, .mbx]) (by simp) (by decide)
@[simp] theorem vector_claims (v : Nat) (s : State) : (vector v s).claims = s.claims := claims_of_only (ps := [.mbx]) (by simp) (by decide)
@[simp] theorem configChanged_claims (s : State) : (configChanged s).claims = s.claims := claims_of_only (ps := [.persist]) (by simp) (by decide)
@[simp] theorem linkEvent_claims (k : Nat) (what : Nat) (s : State) : (linkEvent k what s).claims = s.claims :=
  claims_of_only (ps := [.bki, .evr, .mbx]) (by simp) (by decide)
@[simp] theorem countPause_claims (k : Nat) (s : State) : (countPause k s).claims = s.claims :=
  claims_of_only (ps := [.ports]) (by simp) (by decide)
@[simp] theorem unsent_claims (c : TxCopy) (s : State) : (unsent c s).claims = s.claims := claims_of_only (ps := [.time]) (by simp) (by decide)
@[simp] theorem txDone_claims (c : TxCopy) (s : State) : (txDone c s).claims = s.claims :=
  claims_of_only (ps := [.sw, .insts, .bki, .evr, .mbx]) (by simp) (by decide)
@[simp] theorem txDrop_claims (k : Nat) (counter : Nat) (c : TxCopy) (s : State) : (txDrop k counter c s).claims = s.claims :=
  claims_of_only (ps := [.ports, .sw, .insts, .time, .bki, .evr, .mbx]) (by simp) (by decide)
@[simp] theorem abandon_claims (k : Nat) (s : State) : (abandon k s).claims = s.claims :=
  claims_of_only (ps := [.ports, .sw, .insts, .time, .bki, .evr, .mbx]) (by simp) (by decide)
@[simp] theorem enqueue_claims (k : Nat) (c : TxCopy) (s : State) : (enqueue k c s).claims = s.claims :=
  claims_of_only (ps := [.ports, .sw, .insts, .time, .bki, .evr, .mbx]) (by simp) (by decide)
@[simp] theorem heldAside_claims (n : Nat) (up : Bool) (s : State) : (heldAside n up s).claims = s.claims :=
  claims_of_only (ps := [.sw]) (by simp) (by decide)
@[simp] theorem cguCount_claims (i : Nat) (s : State) : (cguCount i s).claims = s.claims := rfl
@[simp] theorem portCount_claims (k : Nat) (i : Nat) (s : State) (n : Nat) : (portCount k i s n).claims = s.claims :=
  claims_of_only (ps := [.ports]) (by simp) (by decide)
@[simp] theorem swCount_claims (i : Nat) (s : State) (n : Nat) : (swCount i s n).claims = s.claims :=
  claims_of_only (ps := [.sw]) (by simp) (by decide)
@[simp] theorem flushQueues_claims (k : Nat) (counter : Nat) (s : State) : (flushQueues k counter s).claims = s.claims := by
  unfold flushQueues
  dsimp only
  rw [foldl_claims _ _ fun t c => txDrop_claims ..]
  rfl
@[simp] theorem portDown_claims (k : Nat) (s : State) : (portDown k s).claims = s.claims := by simp [portDown]
@[simp] theorem coilOff_claims (s : State) : (coilOff s).claims = s.claims := by simp [coilOff]
@[simp] theorem coilCheck_claims (s : State) : (coilCheck s).claims = s.claims := by simp [coilCheck]
@[simp] theorem gateDrop_claims (counter : Nat) (g : GateFrame) (s : State) : (gateDrop counter g s).claims = s.claims := by simp [gateDrop]
@[simp] theorem gateRelease_claims (g : GateFrame) (s : State) : (gateRelease g s).claims = s.claims := by simp [gateRelease]
@[simp] theorem gateOne_claims (g : GateFrame) (s : State) : (gateOne g s).claims = s.claims := by
  unfold gateOne
  dsimp only
  split_ifs
  · exact heldAside_claims ..
  all_goals simp
@[simp] theorem reexamine_claims (s : State) : (reexamine s).claims = s.claims := by
  unfold reexamine
  rw [foldl_claims _ _ fun t g => by simp]
  rfl
@[simp] theorem setRole_claims (r : Role) (s : State) : (setRole r s).claims = s.claims := by
  unfold setRole
  dsimp only
  split
  · rfl
  · rw [vector_claims, emit_claims]
    rfl
@[simp] theorem winFalls_claims (s : State) : (winFalls s).claims = s.claims := rfl
@[simp] theorem becomeOut_claims (hard : Bool) (s : State) : (becomeOut hard s).claims = s.claims := by
  unfold becomeOut
  rw [reexamine_claims]
  exact (setRole_claims ..).trans (winFalls_claims s)
@[simp] theorem startTakeover_claims (s : State) : (startTakeover s).claims = s.claims := by
  unfold startTakeover
  split
  · simp
  · rw [setRole_claims, configChanged_claims]
    rfl
@[simp] theorem recordDecision_claims (row : Nat) (against : Option Bool) (k : CmpKey) (s : State) : (recordDecision row against k s).claims =
    s.claims :=
  claims_of_only (ps := [.ocu, .mlk, .bki, .evr, .mbx]) (by simp) (by decide)
@[simp] theorem actDecision_claims (row : Nat) (own : Bool) (s : State) : (actDecision row own s).claims = s.claims := by simp [actDecision]
@[simp] theorem refereeF_claims (s : State) : (refereeF s).claims = s.claims := by
  unfold refereeF
  dsimp only
  split_ifs <;> simp
@[simp] theorem finding_claims (f : Finding) (s : State) : (finding f s).claims = s.claims :=
  claims_of_only (ps := [.bki, .faults, .evr, .mbx]) (by simp) (by decide)
@[simp] theorem bkiHold_claims (s : State) : (bkiHold s).claims = s.claims := claims_of_only (ps := [.bki]) (by simp) (by decide)
@[simp] theorem mgpRestart_claims (s : State) : (mgpRestart s).claims = s.claims :=
  claims_of_only (ps := [.insts, .bki, .faults, .mbx, .persist, .mon]) (by simp) (by decide)
@[simp] theorem releaseClaim_claims (s : State) : (releaseClaim s).claims = s.claims := by simp [releaseClaim]
@[simp] theorem mgpLoss_claims (s : State) : (mgpLoss s).claims = s.claims := by simp [mgpLoss]
@[simp] theorem retry_claims (b : BlockId) (u : Nat) (s : State) : (retry b u s).claims = s.claims :=
  claims_of_only (ps := [.ports, .head, .mlk]) (by simp) (by decide)
@[simp] theorem leaveFault_claims (b : BlockId) (u : Nat) (s : State) : (leaveFault b u s).claims = s.claims := by simp [leaveFault]
@[simp] theorem leaveDue_claims (b : BlockId) (u : Nat) (s : State) : (leaveDue b u s).claims = s.claims := by simp [leaveDue]
@[simp] theorem raise_claims (f : Finding) (s : State) : (raise f s).claims = s.claims := by
  unfold raise
  dsimp only
  split_ifs <;> simp
@[simp] theorem idConflict_claims (s : State) : (idConflict s).claims = s.claims := by
  unfold idConflict
  split
  · rfl
  · rw [raise_claims, becomeOut_claims]
    rfl

end Sys2Proof.Machine
end

section
/-!
PROOFS. A frame of a known stream (R108, R112): what comes before classification leaves the tables as they are, the entry counts its match, and
the frame is stored. The obligation O20.
-/
namespace Sys2Proof.Machine
open Sys2Proof

/-! ### Lookups -/

/-- Whether an entry is ACTIVE does not depend on its draining. -/
theorem EntState.active_of_drained {a b : EntState}
    (h : (if a = .draining then .quarantine else a) = if b = .draining then EntState.quarantine else b) : a = .active ↔ b = .active := by
  cases a <;> cases b <;> simp_all

section
variable {s t : State} (h : t.tables = s.tables)
include h

theorem seed_of_tables : t.sw.seed = s.sw.seed := by
  simpa only [State.tables, Switch.calm] using congrArg (fun x => x.rest.seed) h

theorem hsrEn_of_tables : t.sw.hsrEn = s.sw.hsrEn := by
  simpa only [State.tables, Switch.calm] using congrArg (fun x => x.rest.hsrEn) h

theorem prpEn_of_tables : t.sw.prpEn = s.sw.prpEn := by
  simpa only [State.tables, Switch.calm] using congrArg (fun x => x.rest.prpEn) h

theorem hsrPort_of_tables (k : Nat) : t.hsrPort k = s.hsrPort k := by rw [State.hsrPort, State.hsrPort, hsrEn_of_tables h]

theorem prpPort_of_tables (k : Nat) : t.prpPort k = s.prpPort k := by rw [State.prpPort, State.prpPort, prpEn_of_tables h]

theorem streamLookup_of_tables (key : BitVec 128) : streamLookup key t = streamLookup key s := by
  have hentry : ∀ i, ((t.stream i).state == .active && !(t.stream i).invalid && (t.stream i).key == key) =
      ((s.stream i).state == .active && !(s.stream i).invalid && (s.stream i).key == key) := fun i => by
    have hi := stream_of_tables h i
    have hkey : (t.stream i).key = (s.stream i).key := by simpa only [StreamEntry.calm] using congrArg StreamEntry.key hi
    have hinv : (t.stream i).invalid = (s.stream i).invalid := by simpa only [StreamEntry.calm] using congrArg StreamEntry.invalid hi
    have hstate : (t.stream i).state = .active ↔ (s.stream i).state = .active := by
      exact EntState.active_of_drained (by simpa only [StreamEntry.calm] using congrArg StreamEntry.state hi)
    rw [hkey, hinv, beq_eq_beq.2 hstate]
  simp only [streamLookup, streamSlots, seed_of_tables h, hentry]

theorem fwdLookup_of_tables (key : BitVec 128) : fwdLookup key t = fwdLookup key s := by
  have hentry : ∀ i, ((t.fwdE i).state == .active && !(t.fwdE i).invalid && (t.fwdE i).key == key) =
      ((s.fwdE i).state == .active && !(s.fwdE i).invalid && (s.fwdE i).key == key) := fun i => by
    have hi := fwd_of_tables h i
    have hkey : (t.fwdE i).key = (s.fwdE i).key := by simpa only [FwdEntry.calm] using congrArg FwdEntry.key hi
    have hinv : (t.fwdE i).invalid = (s.fwdE i).invalid := by simpa only [FwdEntry.calm] using congrArg FwdEntry.invalid hi
    have hstate : (t.fwdE i).state = .active ↔ (s.fwdE i).state = .active := by
      exact EntState.active_of_drained (by simpa only [FwdEntry.calm] using congrArg FwdEntry.state hi)
    rw [hkey, hinv, beq_eq_beq.2 hstate]
  simp only [fwdLookup, fwdSlots, seed_of_tables h, hentry]

theorem dropSrc_of_tables (i : Nat) : (t.fwdE i).dropSrc = (s.fwdE i).dropSrc := by
  simpa only [FwdEntry.calm] using congrArg FwdEntry.dropSrc (fwd_of_tables h i)

end

/-! ### Learning the source (R120) -/

/-- What learning and refreshing a source keep of its entry. -/
structure FwdEntry.Refreshed (e n : FwdEntry) : Prop where
  /-- its key. -/
  key : n.key = e.key
  /-- its state. -/
  state : n.state = e.state
  /-- whether it is invalidated. -/
  invalid : n.invalid = e.invalid
  /-- its DROP_SRC. -/
  dropSrc : n.dropSrc = e.dropSrc

/-- Learning counts, refreshes the entry of the address, or fills a free slot with an entry that drops nothing. -/
theorem sourceLearn_cases (k mac vid : Nat) (s : State) :
    (∃ live, sourceLearn k mac vid s = s.modSw fun w => { w with live := live })
    ∨ (∃ i g, (s.fwdE i).Refreshed (g (s.fwdE i)) ∧ sourceLearn k mac vid s = s.setFwd i g)
    ∨ (∃ i g, fwdLookup (fwdKey mac vid) s = none ∧ (g (s.fwdE i)).dropSrc = false ∧ sourceLearn k mac vid s = s.setFwd i g) := by
  unfold sourceLearn
  split
  · exact .inl ⟨s.sw.live, rfl⟩
  · dsimp only
    split
    · split
      · split
        · exact .inr (.inl ⟨_, _, ⟨rfl, rfl, rfl, rfl⟩, rfl⟩)
        · exact .inl ⟨_, rfl⟩
      · split
        · exact .inr (.inl ⟨_, _, ⟨rfl, rfl, rfl, rfl⟩, rfl⟩)
        · exact .inr (.inl ⟨_, _, ⟨rfl, rfl, rfl, rfl⟩, rfl⟩)
    case h_2 hnone =>
      split
      · exact .inr (.inr ⟨_, _, hnone, rfl, rfl⟩)
      · exact .inl ⟨_, rfl⟩

/-- Learning writes the forwarding table and a counter, nothing else. -/
theorem sourceLearn_eq (k mac vid : Nat) (s : State) :
    ∃ fwd live, sourceLearn k mac vid s = s.modSw fun w => { w with fwd := fwd, live := live } := by
  rcases sourceLearn_cases k mac vid s with ⟨live, h⟩ | ⟨i, g, -, h⟩ | ⟨i, g, -, -, h⟩
  · exact ⟨s.sw.fwd, live, h⟩
  · exact ⟨_, s.sw.live, h⟩
  · exact ⟨_, s.sw.live, h⟩

/-- Whether a source's frames are dropped is not changed by learning it: an entry that exists keeps its DROP_SRC, and a new one has none. -/
theorem sourceLearn_dropSrc {k mac vid : Nat} {s : State}
    (h : ∀ j, fwdLookup (fwdKey mac vid) s = some j → (s.fwdE j).dropSrc = false) (j : Nat)
    (hj : fwdLookup (fwdKey mac vid) (sourceLearn k mac vid s) = some j) : ((sourceLearn k mac vid s).fwdE j).dropSrc = false := by
  rcases sourceLearn_cases k mac vid s with ⟨live, hs⟩ | ⟨i, g, hg, hs⟩ | ⟨i, g, hnone, hdrop, hs⟩
  · rw [hs] at hj ⊢
    exact h j hj
  · have hentry : ∀ n, ((s.setFwd i g).fwdE n).key = (s.fwdE n).key ∧ ((s.setFwd i g).fwdE n).state = (s.fwdE n).state
        ∧ ((s.setFwd i g).fwdE n).invalid = (s.fwdE n).invalid ∧ ((s.setFwd i g).fwdE n).dropSrc = (s.fwdE n).dropSrc := fun n => by
      by_cases hn : n = i
      · rw [hn, State.fwdE_setFwd_same]
        exact ⟨hg.key, hg.state, hg.invalid, hg.dropSrc⟩
      · rw [State.fwdE_setFwd_other _ _ hn]
        exact ⟨rfl, rfl, rfl, rfl⟩
    have hlookup : fwdLookup (fwdKey mac vid) (s.setFwd i g) = fwdLookup (fwdKey mac vid) s := by
      have hslots : fwdSlots (fwdKey mac vid) (s.setFwd i g) = fwdSlots (fwdKey mac vid) s := rfl
      simp only [fwdLookup, hslots, hentry]
    rw [hs] at hj ⊢
    rw [(hentry j).2.2.2]
    exact h j (hlookup ▸ hj)
  · rw [hs] at hj ⊢
    by_cases hji : j = i
    · rw [hji, State.fwdE_setFwd_same]
      exact hdrop
    · have hfound := List.find?_some hj
      have hmem := List.mem_of_find?_eq_some hj
      have habsent := List.find?_eq_none.1 hnone j hmem
      dsimp only at hfound habsent
      rw [State.fwdE_setFwd_other _ _ hji] at hfound
      exact absurd hfound habsent

/-! ### A frame is stored (R131) -/

theorem makeRoom_of_room {c cells : Nat} (n : Nat) {s : State} (h : cells ≤ s.sw.freeCells) : makeRoom c cells n s = s := by
  cases n with
  | zero => rfl
  | succ n => exact if_pos h

theorem nodeSeen_frees (f : Stored) (s : State) : Frees s (nodeSeen f s) := by
  unfold nodeSeen
  split
  · exact ⟨rfl, Nat.le_refl _⟩
  · exact Frees.rfl

theorem swCount_frees (i : Nat) (s : State) (n : Nat) : Frees s (swCount i s n) := ⟨rfl, Nat.le_refl _⟩

theorem acqLost_frees (p : AcqSrc → Bool) (s : State) : Frees s (acqLost p s) := by
  unfold acqLost
  exact (swCount_frees 19 s 1).trans
    (foldl_frees (fun t n => frees_ite (frees_of_only (ps := [.acq, .bki, .evr]) (by simp) (by decide)) Frees.rfl) _ _)

theorem deliver_frees (n entry gen : Nat) (d : Dest) (s : State) : Frees s (deliver n entry gen d s) := by
  unfold deliver
  cases d with
  | port k c => exact enqueue_frees ..
  | gate k c ctrl claim => exact frees_ite (txDrop_frees ..) (frees_ite (txDrop_frees ..) ⟨rfl, Nat.le_refl _⟩)
  | sce => exact frees_ite ⟨rfl, Nat.le_refl _⟩ ((swCount_frees 18 s 1).trans (copyDone_frees ..))
  | acq => exact frees_ite ⟨rfl, Nat.le_refl _⟩ ((acqLost_frees _ s).trans (copyDone_frees ..))
  | mgp => exact (nodeSeen_frees ..).trans (copyDone_frees ..)
  | host r => exact ⟨rfl, Nat.le_refl _⟩
  | inst i => exact ⟨rfl, Nat.le_refl _⟩

theorem entryHold_frees (idx n : Nat) (s : State) : Frees s (entryHold idx n s) := by
  unfold entryHold
  exact frees_ite ⟨rfl, Nat.le_refl _⟩ (frees_ite ⟨rfl, Nat.le_refl _⟩ Frees.rfl)

/-- With room in the buffer a frame with a destination takes the next number. -/
theorem storeFrame_nextFrame {f : Stored} {ds : List Dest} {s : State} (entry gen : Nat) (hds : ds ≠ []) (hroom : f.cells ≤ s.sw.freeCells) :
    (storeFrame f entry gen ds s).sw.nextFrame = s.sw.nextFrame + 1 := by
  unfold storeFrame
  rw [if_neg hds]
  dsimp only
  rw [makeRoom_of_room _ hroom, if_neg (Nat.not_lt.2 hroom)]
  exact ((entryHold_frees ..).trans (foldl_frees (fun t d => deliver_frees ..) ds _)).next

/-! ### The copies of a classified frame (R131) -/

/-- Every port of a mask has its copy (R131). -/
theorem redPorts_ne_nil {mask : List Nat} (hlt : ∀ k ∈ mask, k < 8) (h : mask ≠ []) (s : State) : (redPorts mask s).1 ≠ [] := by
  obtain ⟨k, hk⟩ := List.exists_mem_of_ne_nil _ h
  have hside : k < 2 ∨ (k = 2 ∨ k = 3 ∨ k = 6 ∨ k = 7) ∨ k = 4 ∨ k = 5 := by
    have := hlt k hk
    omega
  unfold redPorts
  dsimp only
  rw [List.append_assoc]
  rcases hside with hA | hB | hC
  · refine List.append_ne_nil_of_left_ne_nil ?_ _
    split
    · exact List.cons_ne_nil _ _
    · exact List.ne_nil_of_mem (List.mem_map_of_mem (List.mem_filter.2 ⟨hk, decide_eq_true hA⟩))
  · exact List.append_ne_nil_of_right_ne_nil _ (List.append_ne_nil_of_left_ne_nil
      (List.ne_nil_of_mem (List.mem_map_of_mem (List.mem_filter.2 ⟨hk, decide_eq_true hB⟩))) _)
  · refine List.append_ne_nil_of_right_ne_nil _ (List.append_ne_nil_of_right_ne_nil _ ?_)
    split
    · exact List.cons_ne_nil _ _
    · exact List.ne_nil_of_mem (List.mem_map_of_mem (List.mem_filter.2 ⟨hk, decide_eq_true hC⟩))

@[simp] theorem storeCopies_tables (k : Nat) (pass : Bool) (c : Classified) (f : Stored) (s : State) :
    (storeCopies k pass c f s).tables = s.tables := by
  unfold storeCopies
  dsimp only
  rw [storeFrame_tables, redPorts_tables]

/-- A frame that an allowed port may have is stored, where the buffer has room. -/
theorem storeCopies_nextFrame {k : Nat} {pass : Bool} {c : Classified} {f : Stored} {s : State} (hc : c.copies = true) (hlt :
    ∀ j ∈ c.ports, j < 8)
    (hports : allowedPorts k c.ports s ≠ []) (hroom : f.cells ≤ s.sw.freeCells) :
    (storeCopies k pass c f s).sw.nextFrame = s.sw.nextFrame + 1 := by
  have hred : (redPorts (allowedPorts k c.ports s) s).1 ≠ [] := redPorts_ne_nil (fun j hj => hlt j (List.mem_filter.1 hj).1) hports s
  unfold storeCopies
  dsimp only
  rw [if_pos hc]
  exact storeFrame_nextFrame (s := (redPorts (allowedPorts k c.ports s) s).2) _ _ (by simp [hred]) hroom

/-! ### A frame comes to the switch -/

section
variable {k : Nat} {f : List Byte} {s : State}

theorem coreFrame_of_sw {t : State} (h : t.sw = s.sw) : coreFrame k f t = coreFrame k f s := by
  unfold coreFrame State.hsrPort
  rw [h]

/-- Counting at the port does not change what the port hands on. -/
theorem received_of_counts {is : List Nat} {t : State} (h : Counts k is s t) : received k f t = received k f s := by
  have htime : t.time = s.time := h.only.same .time (by decide)
  have hnow : t.now = s.now := h.now
  have hcore : coreFrame k f t = coreFrame k f s := coreFrame_of_sw (h.only.same .sw (by decide))
  simp only [received, hcore, htime, hnow]
  rw [h.same]
  rfl

/-- What comes before classification leaves the switch and the units that classification asks as they are. -/
structure BeforeSwitch (s t : State) : Prop where
  /-- the tables. -/
  tables : t.tables = s.tables
  /-- the buffer. -/
  frees : Frees s t
  /-- the settings of the claim gate unit. -/
  claims : t.claims = s.claims
  /-- the key store. -/
  ksu : t.ksu = s.ksu

theorem BeforeSwitch.trans {t u : State} (h : BeforeSwitch s t) (g : BeforeSwitch t u) : BeforeSwitch s u :=
  ⟨g.tables.trans h.tables, h.frees.trans g.frees, g.claims.trans h.claims, g.ksu.trans h.ksu⟩

theorem Counts.beforeSwitch {is : List Nat} {t : State} (h : Counts k is s t) : BeforeSwitch s t where
  tables := tables_of_only h.only (by decide)
  frees := frees_of_only h.only (by decide)
  claims := claims_of_only h.only (by decide)
  ksu := h.only.same .ksu (by decide)

theorem idConflict_beforeSwitch (s : State) : BeforeSwitch s (idConflict s) where
  tables := idConflict_tables s
  frees := idConflict_frees s
  claims := idConflict_claims s
  ksu := Only.same (idConflict_only s (qs := [.ports, .head, .sw, .insts, .cgu, .ocu, .mlk, .time, .bki, .faults, .evr, .mbx, .persist, .mon])
    (Only.refl _ s) (by simp)) .ksu (by decide)

theorem idSeen_beforeSwitch (body : List Byte) (s : State) : BeforeSwitch s (idSeen body s) := by
  have hsame : BeforeSwitch s s := ⟨rfl, Frees.rfl, rfl, rfl⟩
  unfold idSeen
  split
  · split
    · exact idConflict_beforeSwitch s
    · exact hsame
  · exact hsame

/-- A good frame on a port outside HSR and PRP mode, of no MAC control type and no VLAN 4095, is offered to the switch as the port hands it on. -/
theorem exec_frameReceive_accepted (line : LineErrs) (hk : k < 8) (hlink : (s.port k).link = true) (hseason : s.season.season ≠ .winter)
    (hrx : (s.port k).rxEn = true) (hmin : 64 ≤ frameLen f) (hmax : frameLen f ≤ (s.port k).maxFrame)
    (hvid : ¬(isTagged f = true ∧ tci f % 4096 = 4095)) (htype : etherType f ≠ 0x8808) (hhsr : s.hsrPort k = false) (hprp : s.prpPort k = false) :
    ∃ u, BeforeSwitch s u ∧ exec (.frameReceive k f ⟨true, line⟩) s = .next (accepted k none (received k f s) u) := by
  obtain ⟨u, hu, hexec⟩ := exec_frameReceive_good f hk hlink hseason line hrx hmin hmax
  let v := if isTagged f ∧ ((goodFrame k f u).port k).rxTag = 1 then portCount k 24 (goodFrame k f u) else goodFrame k f u
  have hg : Counts k ([0, 1, 2, 3, 24] ++ [12, 13, 14, 15, 16, 17, 18, 19, 20, 21]) s (goodFrame k f u) :=
    (hu.mono (by simp)).trans ((goodFrame_counts k f u).mono (by simp))
  have hv : Counts k ([0, 1, 2, 3, 24] ++ [12, 13, 14, 15, 16, 17, 18, 19, 20, 21]) s v := by
    unfold v
    split
    · exact hg.step (by simp) 1
    · exact hg
  have hw := hv.beforeSwitch.trans (idSeen_beforeSwitch (coreFrame k (received k f s).octets v) v)
  refine ⟨_, hw, ?_⟩
  rw [hexec]
  unfold takeFrame
  dsimp only
  rw [if_neg hvid, if_neg htype, received_of_counts hg, if_neg (by rw [hsrPort_of_tables hw.tables, hhsr]; decide),
    if_neg (by rw [prpPort_of_tables hw.tables, hprp]; decide)]

end

/-! ### Classification by a stream entry (R108, R112) -/

section
variable {k i : Nat} {f : Stored} {s : State}

theorem learnSource_kept (h : ∀ j, fwdLookup (fwdKey (srcMac f.octets) f.vid) s = some j → (s.fwdE j).dropSrc = false) :
    ∃ src, learnSource k f s = (false, src, sourceLearn k (srcMac f.octets) f.vid s) := by
  have hdrop := sourceLearn_dropSrc (k := k) h
  unfold learnSource
  dsimp only
  split
  case h_1 j hj =>
    rw [hdrop j hj]
    exact ⟨_, rfl⟩
  case h_2 => exact ⟨_, rfl⟩

/-- A frame of a plain port from a source that is not dropped is switched. -/
theorem accepted_switched (h : ∀ j, fwdLookup (fwdKey (srcMac f.octets) f.vid) s = some j → (s.fwdE j).dropSrc = false)
    (hptp : isPtp k f.octets = false) (hres : reservedDest f.octets = false) (hmal : malformed f.octets = false) :
    accepted k none f s = switchFrame k {} f (sourceLearn k (srcMac f.octets) f.vid s) := by
  obtain ⟨src, hsrc⟩ := learnSource_kept (k := k) h
  unfold accepted
  simp [hsrc, hptp, hres, hmal, dupDiscard]

/-- A frame from a port that the entry does not name is counted by the entry as such. -/
theorem streamStep_of_wrongPort (cls : Nat) (h : (s.stream i).ingress.getLsbD k = false) : streamStep k i cls f s =
    ({ cls := cls }, s.setStream i fun e => { e with wrongPort := satAdd 16 e.wrongPort 1 }) := by
  simp [streamStep, h]

/-- With verification and the claim rule off a match has the entry's actions. -/
theorem streamStep_of_match (cls : Nat) (h : (s.stream i).ingress.getLsbD k = true) (hver : s.ksu.verifyEn = false)
    (hclaim : s.cgu.claimRxEn = false) : streamStep k i cls f s =
    ((s.stream i).actions i (s.setStream i fun e => e.matched f.rxLen), s.setStream i fun e => e.matched f.rxLen) := by
  have hverified : verifyFrame i f.octets (s.setStream i fun e => e.matched f.rxLen) = (true, s.setStream i fun e => e.matched f.rxLen) :=
    if_neg (Bool.eq_false_iff.1 hver)
  have hclaimed : claimFilter i f.octets (s.setStream i fun e => e.matched f.rxLen) = (true, s.setStream i fun e => e.matched f.rxLen) := by
    have hoff : (s.setStream i fun e => e.matched f.rxLen).cgu.claimRxEn = false := hclaim
    unfold claimFilter
    rw [hoff]
    rfl
  unfold streamStep
  simp only [h, hverified, hclaimed, Bool.not_true, Bool.false_eq_true, if_false, if_true]

/-- Outside HSR and PRP mode a frame of a stream entry is stored as the entry's step says, and nothing is passed along a ring. -/
theorem switchFrame_of_stream {c : Classified} {g : StreamEntry → StreamEntry} (hhsr : s.hsrPort k = false) (hprp : s.prpPort k = false)
    (hi : streamLookup (streamKey f.octets f.vid) s = some i)
    (hstep : streamStep k i ((s.port k).classOf f.pcp) f s = (c, s.setStream i g)) :
    switchFrame k {} f s = storeCopies k false c f (s.setStream i g) := by
  have hclass : classify k f s = (c, s.setStream i g) := by
    unfold classify
    dsimp only
    rw [hi]
    exact hstep
  have hhsr' : (s.setStream i g).hsrPort k = false := hhsr
  have hsuper : supervision k f (s.setStream i g) = false := by
    have hprp' : (s.setStream i g).prpPort k = false := hprp
    simp [supervision, hhsr', hprp']
  unfold switchFrame
  rw [hclass]
  simp [hhsr', hsuper]

/-- The actions of an entry that forwards and does not drop have its ports. -/
theorem actions_ports {e : StreamEntry} (hdrop : e.action.getLsbD 3 = false) (hfwd : e.action.getLsbD 0 = true) :
    (e.actions i s).ports = maskList e.ports := by
  unfold StreamEntry.actions
  dsimp only
  rw [if_neg (Bool.eq_false_iff.1 hdrop)]
  exact if_pos hfwd

theorem actions_copies (e : StreamEntry) : (e.actions i s).copies = true := by
  unfold StreamEntry.actions
  dsimp only
  split <;> rfl

/-- The counts of an entry stay through the storing of a frame. -/
structure StreamEntry.SameCounts (e n : StreamEntry) : Prop where
  /-- MATCH_FRAMES. -/
  frames : n.matchFrames = e.matchFrames
  /-- MATCH_OCTETS. -/
  octets : n.matchOctets = e.matchOctets
  /-- WRONG_PORT. -/
  wrong : n.wrongPort = e.wrongPort
  /-- IDLE_COUNT. -/
  idleCount : n.idleCount = e.idleCount
  /-- IDLE. -/
  idle : n.idle = e.idle

theorem StreamEntry.sameCounts_of_calm {e n : StreamEntry} (h : n.calm = e.calm) : e.SameCounts n where
  frames := by simpa only [StreamEntry.calm] using congrArg StreamEntry.matchFrames h
  octets := by simpa only [StreamEntry.calm] using congrArg StreamEntry.matchOctets h
  wrong := by simpa only [StreamEntry.calm] using congrArg StreamEntry.wrongPort h
  idleCount := by simpa only [StreamEntry.calm] using congrArg StreamEntry.idleCount h
  idle := by simpa only [StreamEntry.calm] using congrArg StreamEntry.idle h

theorem storeCopies_sameCounts (s : State) (i : Nat) (g : StreamEntry → StreamEntry) (k : Nat) (c : Classified) (f : Stored) :
    (g (s.stream i)).SameCounts ((storeCopies k false c f (s.setStream i g)).stream i) := by
  have hentry := stream_of_tables (storeCopies_tables k false c f (s.setStream i g)) i
  rw [State.stream_setStream_same] at hentry
  exact StreamEntry.sameCounts_of_calm hentry

end

/-- Settles O20. -/
theorem knownStreamFramesAreCountedAndCopied : Obligations.KnownStreamFramesAreCountedAndCopied := by
  intro k i f line s hk hlink hseason hrx hmin hmax hvid htype hhsr hprp hsrc hptp hres hmal hi hver hclaim
  obtain ⟨u, hu, hexec⟩ := exec_frameReceive_accepted line hk hlink hseason hrx hmin hmax hvid htype hhsr hprp
  have hlen : (received k f s).rxLen = frameLen f := rfl
  have hcells : (received k f s).cells = cellsOf (frameLen (received k f s).octets) := rfl
  generalize received k f s = r at *
  obtain ⟨fwd, live, hlearn⟩ := sourceLearn_eq k (srcMac r.octets) r.vid u
  generalize hv : sourceLearn k (srcMac r.octets) r.vid u = v at *
  have hsw : exec (.frameReceive k f ⟨true, line⟩) s = .next (switchFrame k {} r v) := by
    rw [hexec, ← hv, accepted_switched (fun j hj => ?_) hptp hres hmal]
    rw [dropSrc_of_tables hu.tables]
    exact hsrc j ((fwdLookup_of_tables hu.tables _).symm.trans hj)
  have hstream : ∀ j, (v.stream j).calm = (s.stream j).calm := fun j => by
    rw [hlearn]
    exact stream_of_tables hu.tables j
  have hlookup : streamLookup (streamKey r.octets r.vid) v = some i := by
    rw [hlearn, ← hi, ← streamLookup_of_tables hu.tables]
    rfl
  have hhsr' : v.hsrPort k = false := by
    rw [hlearn]
    exact (hsrPort_of_tables hu.tables k).trans hhsr
  have hprp' : v.prpPort k = false := by
    rw [hlearn]
    exact (prpPort_of_tables hu.tables k).trans hprp
  have hcounts := StreamEntry.sameCounts_of_calm (hstream i)
  have hingress : (v.stream i).ingress = (s.stream i).ingress := by simpa only [StreamEntry.calm] using congrArg StreamEntry.ingress (hstream i)
  refine ⟨fun hin => ?_, fun hin => ?_⟩
  · have hksu : v.ksu.verifyEn = false := by
      rw [hlearn]
      exact (congrArg Ksu.verifyEn hu.ksu).trans hver
    have hcgu : v.cgu.claimRxEn = false := by
      rw [hlearn]
      exact (claimRxEn_of_claims hu.claims).trans hclaim
    rw [switchFrame_of_stream hhsr' hprp' hlookup (streamStep_of_match _ (hingress ▸ hin) hksu hcgu)] at hsw
    refine ⟨_, hsw, ?_⟩
    have hkept := storeCopies_sameCounts v i (fun e => e.matched r.rxLen) k
      ((v.stream i).actions i (v.setStream i fun e => e.matched r.rxLen)) r
    refine ⟨?_, ?_, hkept.idleCount, hkept.idle, hkept.wrong.trans hcounts.wrong, fun hdrop hfwd hports hroom => ?_⟩
    · rw [hkept.frames, ← hcounts.frames]
      rfl
    · rw [hkept.octets, ← hcounts.octets, ← hlen]
      rfl
    · have haction : (v.stream i).action = (s.stream i).action := by simpa only [StreamEntry.calm] using congrArg StreamEntry.action (hstream i)
      have hmask : (v.stream i).ports = (s.stream i).ports := by simpa only [StreamEntry.calm] using congrArg StreamEntry.ports (hstream i)
      have hnext : v.sw.nextFrame = s.sw.nextFrame := by
        rw [hlearn]
        exact hu.frees.next
      have hfree : r.cells ≤ v.sw.freeCells := by
        rw [hlearn, hcells]
        exact hroom.trans hu.frees.cells
      rw [← hnext]
      refine storeCopies_nextFrame (s := v.setStream i fun e => e.matched r.rxLen) (actions_copies ..) ?_ ?_ hfree
      · rw [actions_ports (haction ▸ hdrop) (haction ▸ hfwd)]
        exact fun j hj => List.mem_range.1 (List.mem_filter.1 hj).1
      · rw [actions_ports (haction ▸ hdrop) (haction ▸ hfwd), hmask]
        have hallowed : allowedPorts k (maskList (s.stream i).ports) (v.setStream i fun e => e.matched r.rxLen) =
            allowedPorts k (maskList (s.stream i).ports) s := by
          have hhsrx : (v.setStream i fun e => e.matched r.rxLen).hsrPort k = false := hhsr'
          have hprpx : (v.setStream i fun e => e.matched r.rxLen).prpPort k = false := hprp'
          simp [allowedPorts, hhsrx, hprpx, hhsr, hprp]
        rwa [hallowed]
  · rw [switchFrame_of_stream hhsr' hprp' hlookup (streamStep_of_wrongPort _ (hingress ▸ hin))] at hsw
    have hkept := storeCopies_sameCounts v i (fun e => { e with wrongPort := satAdd 16 e.wrongPort 1 }) k { cls := (v.port k).classOf r.pcp } r
    refine ⟨_, hsw, ?_, hkept.frames.trans hcounts.frames, hkept.octets.trans hcounts.octets⟩
    rw [hkept.wrong, ← hcounts.wrong]

end Sys2Proof.Machine
end

section
/-!
PROOFS. The window of duplicate discard (R129): a sequence number newer than any seen, one older than the window, and one within it. The
obligation O21.
-/
namespace Sys2Proof.Machine
open Sys2Proof

/-- The window as a copy finds it: cleared after four idle ticks (R129). -/
def FwdEntry.found (e : FwdEntry) (idle q : Nat) : FwdEntry :=
  if 4 ≤ idle then { e with seenA := 0, seenB := 0, dupLast := BitVec.ofNat 16 q } else e

/-- How far a sequence number is ahead of the newest seen. -/
def FwdEntry.ahead (e : FwdEntry) (q : Nat) : Nat := (q + 65536 - e.dupLast.toNat) % 65536

/-- The window moved by `d` to its new newest number. -/
def FwdEntry.moved (e : FwdEntry) (q d : Nat) : FwdEntry :=
  { e with seenA := if d < 64 then e.seenA <<< d else 0, seenB := if d < 64 then e.seenB <<< d else 0, dupLast := BitVec.ofNat 16 q }

/-- The side a port is on. -/
def sideB (k : Nat) : Bool := k == 1 || k == 5

theorem FwdEntry.window_eq (e : FwdEntry) (idle q : Nat) : e.window idle q =
    if 1 ≤ (e.found idle q).ahead q ∧ (e.found idle q).ahead q ≤ 32767 then ((e.found idle q).moved q ((e.found idle q).ahead q), false)
    else (e.found idle q, (e.found idle q).ahead q ≠ 0 && decide (63 < 65536 - (e.found idle q).ahead q)) := rfl

theorem getLsbD_setBit {w : Nat} (v : BitVec w) (n : Nat) {j : Nat} (hj : j < w) :
    (setBit v n true).getLsbD j = (v.getLsbD j || decide (j = n)) := by
  rw [setBit, if_pos rfl, BitVec.getLsbD_or, BitVec.getLsbD_ofNat, Nat.testBit_two_pow, decide_eq_true hj, Bool.true_and]
  simp only [eq_comm]

@[simp] theorem FwdEntry.mark_dupLast (e : FwdEntry) (b : Bool) (j : Nat) : (e.mark b j).dupLast = e.dupLast := by
  unfold FwdEntry.mark
  split <;> rfl

variable {ptp : Bool} {k q idle i : Nat} {s : State} {e : FwdEntry}

theorem dupCheck_of_newer (hq : q < 65536) (he : e = (s.fwdE i).found idle q) (h1 : 1 ≤ e.ahead q) (h2 : e.ahead q ≤ 32767) :
    dupCheck ptp k q idle i s = ({}, (s.setFwd i fun _ => e.moved q (e.ahead q)).setFwd i fun e => e.mark (sideB k) 0) := by
  have hwindow : (s.fwdE i).window idle q = (e.moved q (e.ahead q), false) := by rw [FwdEntry.window_eq, ← he, if_pos ⟨h1, h2⟩]
  have hlast : (e.moved q (e.ahead q)).dupLast.toNat = q := by simp [FwdEntry.moved, Nat.mod_eq_of_lt hq]
  have hA : (e.moved q (e.ahead q)).seenA.getLsbD 0 = false := by
    unfold FwdEntry.moved
    dsimp only
    split
    · simp [Nat.pos_iff_ne_zero.1 h1]
    · rfl
  have hB : (e.moved q (e.ahead q)).seenB.getLsbD 0 = false := by
    unfold FwdEntry.moved
    dsimp only
    split
    · simp [Nat.pos_iff_ne_zero.1 h1]
    · rfl
  have hseen : (e.moved q (e.ahead q)).seen (sideB k) 0 = (false, false) := by
    unfold FwdEntry.seen
    rw [hA, hB, ite_self]
  have hj : (q + 65536 - q) % 65536 = 0 := by omega
  simp only [dupCheck, hwindow, hlast, hj]
  rw [← sideB, hseen]
  rfl

theorem dupCheck_of_older (he : e = (s.fwdE i).found idle q) (h1 : 32767 < e.ahead q) (h2 : 63 < 65536 - e.ahead q) :
    dupCheck ptp k q idle i s = ({}, swCount 10 (s.setFwd i fun _ => e)) := by
  have hwindow : (s.fwdE i).window idle q = (e, true) := by
    rw [FwdEntry.window_eq, ← he, if_neg (by omega)]
    simp [h2]
    omega
  simp [dupCheck, hwindow]

/-- A number within the window has its bit. -/
theorem dupCheck_of_within (hq : q < 65536) (he : e = (s.fwdE i).found idle q) (h : e.ahead q = 0 ∨ 65536 - e.ahead q ≤ 63) :
    dupCheck ptp k q idle i s =
      if (e.seen (sideB k) ((65536 - e.ahead q) % 65536)).1 then
        ({ drop := true, pass := false, copies := false }, swCount 9 (s.setFwd i fun _ => e))
      else if (e.seen (sideB k) ((65536 - e.ahead q) % 65536)).2 && !ptp then
        ({ copies := false }, swCount 8 ((s.setFwd i fun _ => e).setFwd i fun x => x.mark (sideB k) ((65536 - e.ahead q) % 65536)))
      else ({}, (s.setFwd i fun _ => e).setFwd i fun x => x.mark (sideB k) ((65536 - e.ahead q) % 65536)) := by
  have hwindow : (s.fwdE i).window idle q = (e, false) := by
    rw [FwdEntry.window_eq, ← he, if_neg (by omega)]
    rcases h with h | h
    · simp [h]
    · simp [Nat.not_lt.2 h]
  have hj : (e.dupLast.toNat + 65536 - q) % 65536 = (65536 - e.ahead q) % 65536 := by
    have := e.dupLast.isLt
    unfold FwdEntry.ahead
    omega
  simp only [dupCheck, hwindow, hj]
  rw [← sideB]
  split_ifs <;> simp_all

/-! ### O21 -/

theorem FwdEntry.window_same (e : FwdEntry) (idle q : Nat) :
    (e.window idle q).1.key = e.key ∧ (e.window idle q).1.state = e.state := by
  rw [FwdEntry.window_eq]
  unfold FwdEntry.found FwdEntry.moved
  split_ifs <;> exact ⟨rfl, rfl⟩

theorem FwdEntry.mark_same (e : FwdEntry) (b : Bool) (j : Nat) : (e.mark b j).key = e.key ∧ (e.mark b j).state = e.state := by
  unfold FwdEntry.mark
  split <;> exact ⟨rfl, rfl⟩

/-- A write of entry `i` that keeps its key and its state. -/
structure WritesFwd (i : Nat) (s t : State) : Prop where
  /-- only the switch changes. -/
  only : Only [.sw] s t
  /-- no other entry changes. -/
  others : ∀ j, j ≠ i → t.fwdE j = s.fwdE j
  /-- the key stays. -/
  key : (t.fwdE i).key = (s.fwdE i).key
  /-- the state stays. -/
  state : (t.fwdE i).state = (s.fwdE i).state

theorem State.setFwd_writes (s : State) (i : Nat) {f : FwdEntry → FwdEntry} (h : (f (s.fwdE i)).key = (s.fwdE i).key ∧ (f (s.fwdE i)).state = (s.fwdE i).state) :
    WritesFwd i s (s.setFwd i f) where
  only := State.setFwd_only s i f (Only.refl _ s) (by simp)
  others := fun _ hj => State.fwdE_setFwd_other _ _ hj
  key := by rw [State.fwdE_setFwd_same, h.1]
  state := by rw [State.fwdE_setFwd_same, h.2]

theorem WritesFwd.trans {t u : State} (h : WritesFwd i s t) (g : WritesFwd i t u) : WritesFwd i s u :=
  ⟨h.only.trans g.only, fun j hj => (g.others j hj).trans (h.others j hj), g.key.trans h.key, g.state.trans h.state⟩

theorem WritesFwd.counted {t : State} (h : WritesFwd i s t) (c : Nat) : WritesFwd i s (swCount c t) :=
  ⟨swCount_only c t 1 h.only (by simp), h.others, h.key, h.state⟩

theorem dupCheck_writes (ptp : Bool) (k q idle i : Nat) (s : State) : WritesFwd i s (dupCheck ptp k q idle i s).2 := by
  have hfirst : WritesFwd i s (s.setFwd i fun _ => ((s.fwdE i).window idle q).1) := State.setFwd_writes s i (FwdEntry.window_same ..)
  have hmark := fun b j => hfirst.trans (State.setFwd_writes _ i (f := fun e => e.mark b j) (FwdEntry.mark_same _ b j))
  unfold dupCheck
  dsimp only
  split_ifs
  · exact hfirst.counted 10
  · exact hfirst.counted 9
  · exact (hmark _ _).counted 8
  · exact hmark _ _

/-! ### The parts of the window -/

theorem FwdEntry.found_seenA (e : FwdEntry) (idle q : Nat) : (e.found idle q).seenA = if 4 ≤ idle then 0 else e.seenA := by
  unfold FwdEntry.found
  split <;> rfl

theorem FwdEntry.found_seenB (e : FwdEntry) (idle q : Nat) : (e.found idle q).seenB = if 4 ≤ idle then 0 else e.seenB := by
  unfold FwdEntry.found
  split <;> rfl

theorem FwdEntry.found_dupLast (e : FwdEntry) (idle : Nat) (hq : q < 65536) :
    (e.found idle q).dupLast.toNat = if 4 ≤ idle then q else e.dupLast.toNat := by
  unfold FwdEntry.found
  split
  · exact Nat.mod_eq_of_lt hq
  · rfl

theorem getLsbD_shifted (v : BitVec 64) (d : Nat) {j : Nat} (hj : j < 64) :
    (if d < 64 then v <<< d else 0).getLsbD j = (decide (d ≤ j) && v.getLsbD (j - d)) := by
  split
  · rw [BitVec.getLsbD_shiftLeft]
    by_cases h : d ≤ j
    · simp [hj, h, Nat.not_lt.2 h]
    · simp [h, Nat.lt_of_not_le h]
  · have h : ¬ d ≤ j := by omega
    simp [h]

theorem FwdEntry.mark_seenA (e : FwdEntry) (b : Bool) (j : Nat) : (e.mark b j).seenA = if b then e.seenA else setBit e.seenA j true := by
  unfold FwdEntry.mark
  split <;> rfl

theorem FwdEntry.mark_seenB (e : FwdEntry) (b : Bool) (j : Nat) : (e.mark b j).seenB = if b then setBit e.seenB j true else e.seenB := by
  unfold FwdEntry.mark
  split <;> rfl

theorem sideB_iff (k : Nat) : sideB k = true ↔ k = 1 ∨ k = 5 := by simp [sideB]

/-- Settles O21. -/
theorem duplicateDiscardWindow : Obligations.DuplicateDiscardWindow := by
  refine ⟨?_, fun ptp k q s => ⟨rfl, rfl, rfl, rfl⟩⟩
  intro ptp k q idle i s hq
  dsimp only
  obtain ⟨honly, hothers, hkey, hstate⟩ := dupCheck_writes ptp k q idle i s
  generalize he : (s.fwdE i).found idle q = e
  have hA : (if idle ≥ 4 then 0 else (s.fwdE i).seenA) = e.seenA := by rw [← he, FwdEntry.found_seenA]
  have hB : (if idle ≥ 4 then 0 else (s.fwdE i).seenB) = e.seenB := by rw [← he, FwdEntry.found_seenB]
  have hL : (if idle ≥ 4 then q else (s.fwdE i).dupLast.toNat) = e.dupLast.toNat := by rw [← he, FwdEntry.found_dupLast _ _ hq]
  have hd : (q + 65536 - e.dupLast.toNat) % 65536 = e.ahead q := rfl
  rw [hA, hB, hL, hd]
  refine ⟨honly, hothers, hkey, hstate, fun h1 h2 => ?_, fun h1 h2 => ?_, fun h => ?_⟩
  · rw [dupCheck_of_newer hq he.symm h1 h2]
    refine ⟨rfl, rfl, rfl, ?_, rfl, fun j hj => ?_⟩
    · simp [FwdEntry.moved, Nat.mod_eq_of_lt hq]
    · simp only [State.fwdE_setFwd_same, FwdEntry.mark_seenA, FwdEntry.mark_seenB, FwdEntry.moved, ← sideB_iff]
      cases sideB k <;> simp only [if_true, if_false, Bool.false_eq_true, getLsbD_setBit _ _ hj, getLsbD_shifted _ _ hj] <;> simp
  · rw [dupCheck_of_older he.symm h1 h2]
    refine ⟨rfl, rfl, rfl, rfl, ?_⟩
    have hn : (swCount 10 (s.setFwd i fun _ => e)).fwdE i = e := State.fwdE_setFwd_same s i fun _ => e
    rw [hn]
    exact ⟨rfl, rfl, rfl⟩
  · rw [dupCheck_of_within hq he.symm h]
    have hj : (65536 - e.ahead q) % 65536 < 64 := by
      unfold FwdEntry.ahead at h ⊢
      omega
    generalize (65536 - e.ahead q) % 65536 = j at hj ⊢
    simp only [← sideB_iff]
    have hfirst : ∀ c, (swCount c (s.setFwd i fun _ => e)).fwdE i = e := fun c => State.fwdE_setFwd_same s i fun _ => e
    have hmarked : ((s.setFwd i fun _ => e).setFwd i fun x => x.mark (sideB k) j).fwdE i = e.mark (sideB k) j := by simp
    have hcounted : (swCount 8 ((s.setFwd i fun _ => e).setFwd i fun x => x.mark (sideB k) j)).fwdE i = e.mark (sideB k) j := hmarked
    have hown : (e.seen (sideB k) j).1 = if sideB k = true then e.seenB.getLsbD j else e.seenA.getLsbD j := by
      unfold FwdEntry.seen
      split <;> rfl
    have hother : (e.seen (sideB k) j).2 = if sideB k = true then e.seenA.getLsbD j else e.seenB.getLsbD j := by
      unfold FwdEntry.seen
      split <;> rfl
    rw [← hown, ← hother]
    refine ⟨?_, fun hmine => ?_, fun hmine => ?_⟩
    · split_ifs
      · rw [hfirst]
      · rw [hcounted, FwdEntry.mark_dupLast]
      · rw [hmarked, FwdEntry.mark_dupLast]
    · rw [if_pos hmine, hfirst]
      exact ⟨rfl, rfl, rfl, rfl, rfl⟩
    · rw [hmine]
      have hbits : (if sideB k = true then (e.mark (sideB k) j).seenB else (e.mark (sideB k) j).seenA).getLsbD j = true
          ∧ (if sideB k = true then (e.mark (sideB k) j).seenA else (e.mark (sideB k) j).seenB) = if sideB k = true then e.seenA else e.seenB := by
        rw [FwdEntry.mark_seenA, FwdEntry.mark_seenB]
        cases sideB k <;> simp only [if_true, if_false, Bool.false_eq_true, getLsbD_setBit _ _ hj] <;> simp
      cases hc : (e.seen (sideB k) j).2 && !ptp with
      | true =>
        rw [if_neg (by decide), if_pos rfl, hcounted]
        exact ⟨rfl, rfl, hbits.1, hbits.2, rfl, rfl⟩
      | false =>
        rw [if_neg (by decide), if_neg (by decide), hmarked]
        exact ⟨rfl, rfl, hbits.1, hbits.2, rfl, rfl⟩

end Sys2Proof.Machine
end

section
/-!
PROOFS. A refutation of O24: a class counter beyond its 32 bits is not brought within them by a rate check that finds no stream over its rate.
-/
namespace Sys2Proof.Machine
open Sys2Proof

/-- The firmware is up, a rate check is due, the stream table is empty, and CNT_C of the STB holds a value that 32 bits cannot. -/
def overfullRatesState : State :=
  { persist := { fwUp := true }, time := { age := 10000000000 }, faults := { sets := [(setKey .stb 0, { cntC := 2 ^ 32 })] } }

/-- A due rate check of an empty stream table notes its time and restores invalidated entries. -/
theorem exec_rateCheck_of_noStreams {s : State} (hfw : s.persist.fwUp = true) (hdue : s.sw.rateAt + sec 1 ≤ s.now) (hs : s.sw.streams = []) :
    exec .rateCheck s = .next (restoreInvalid (s.modSw fun w => { w with streams := [], rateAt := s.now })) := by
  have hexec : exec .rateCheck s = execRateCheck s := rfl
  rw [hexec, execRateCheck, if_pos hfw, whenDue_now _ hdue]
  simp [State.modSw, hs]

theorem overfullRates_cntC : ((restoreInvalid (overfullRatesState.modSw fun w =>
    { w with streams := [], rateAt := overfullRatesState.now })).fset .stb 0).cntC = 2 ^ 32 := by
  decide

/-- Refutes O24: with no stream over its rate RATE_CHECK leaves CNT_C at 2^32, and the count of none held at 32 bits is 2^32 - 1. -/
theorem not_tableTimersComplete : ¬ Obligations.TableTimersComplete := by
  intro h
  obtain ⟨-, -, -, -, -, hrate⟩ := h
  obtain ⟨t, hexec, -, -, -, hcount⟩ := hrate overfullRatesState (by decide) (by decide)
  have ht := Host.Outcome.next.inj ((exec_rateCheck_of_noStreams (by decide) (by decide) rfl).symm.trans hexec)
  rw [← ht, overfullRates_cntC] at hcount
  exact absurd hcount (by decide)

end Sys2Proof.Machine
end

section
/-!
PROOFS. Committed changes to the tables (R123 to R126): what the oldest change does once it need not wait. The obligation O23.
-/
namespace Sys2Proof.Machine
open Sys2Proof

section
variable {c : StbChange} {rest : List StbChange} {s u : State}

/-- A commit that completes touches of the switch only the operation it belongs to. -/
theorem commitDone_sw (s : State) : ∃ op, (commitDone s).sw = { s.sw with applyOp := op } := by
  unfold commitDone
  split
  · refine ⟨none, ?_⟩
    have h := (refreshAllOver_only (s0 := s.modSw fun w => { w with applyOp := none }) (qs := [.insts, .bki, .evr, .mbx, .mon])
      (opDone? s.sw.applyOp .ok [] (s.modSw fun w => { w with applyOp := none })) (by simp) (by simp)).same .sw (by decide)
    exact h
  · exact ⟨s.sw.applyOp, rfl⟩

/-- The oldest change that need not wait is made, and leaves the list. -/
theorem exec_entryChangeApply (hc : s.sw.applying = c :: rest) (hu : applyChange c s = some u) :
    ∃ t, exec .entryChangeApply s = .next t ∧ Only [.sw, .insts, .bki, .evr, .mbx, .mon] u t
      ∧ ∃ op, t.sw = { u.sw with applying := rest, applyOp := op } := by
  refine ⟨commitDone (u.modSw fun w => { w with applying := rest }), ?_, by simp, ?_⟩
  · have h : exec .entryChangeApply s = .next (applyOldest s) := rfl
    rw [h, applyOldest, hc]
    simp only [hu]
  · exact commitDone_sw _

/-- A change that has to wait changes nothing. -/
theorem exec_entryChangeApply_waits (hc : s.sw.applying = c :: rest) (hu : applyChange c s = none) : exec .entryChangeApply s = .next s := by
  have h : exec .entryChangeApply s = .next (applyOldest s) := rfl
  rw [h, applyOldest, hc]
  simp only [hu]

/-! ### What a change writes -/

theorem putStreamNow_of_held {e : StreamEntry} (hstate : (s.stream c.idx).state = .active) (hprev : (s.stream c.idx).refPrev ≠ 0) :
    putStreamNow c.idx e s = none := by
  simp [putStreamNow, hstate, hprev]

theorem putStreamNow_of_active {e : StreamEntry} (hstate : (s.stream c.idx).state = .active) (hprev : (s.stream c.idx).refPrev = 0)
    (htwin : streamTwin c.idx e.key s = none) :
    putStreamNow c.idx e s = some (learnClose e.key (s.setStream c.idx fun x => x.rewrite e)) := by
  simp [putStreamNow, hstate, hprev, htwin]

theorem putStreamNow_of_free {e : StreamEntry} (hstate : (s.stream c.idx).state = .free) (htwin : streamTwin c.idx e.key s = none) :
    putStreamNow c.idx e s = some (learnClose e.key (s.setStream c.idx fun x => x.enrol e e.learned)) := by
  simp [putStreamNow, hstate, htwin]

theorem putStreamNow_of_twin {e : StreamEntry} {j : Nat} (hstate : (s.stream c.idx).state = .free) (htwin : streamTwin c.idx e.key s = some j) :
    putStreamNow c.idx e s = if (s.stream j).refPrev = 0
      then some (learnClose e.key ((s.setStream j fun x => x.drain
          (s.now + holdoffNs s)).setStream c.idx fun x => x.enrol e e.learned)) else none := by
  simp [putStreamNow, hstate, htwin]

theorem putFwdNow_of_active {e : FwdEntry} (hstate : (s.fwdE c.idx).state = .active) (hprev : (s.fwdE c.idx).refPrev = 0)
    (htwin : fwdTwin c.idx e.key s = none) : putFwdNow c.idx e s = some (s.setFwd c.idx fun x => x.rewrite e) := by
  simp [putFwdNow, hstate, hprev, htwin]

theorem removeNow_of_active (hidx : isStreamIdx c.idx = true) (hstate : (s.stream c.idx).state = .active) (hprev : (s.stream c.idx).refPrev = 0) :
    removeNow c.idx s = some (s.setStream c.idx fun x => x.drain (s.now + holdoffNs s)) := by
  simp [removeNow, hidx, hstate, hprev]

theorem applyChange_putStream (h : c.op = .putStream) : applyChange c s = putStreamNow c.idx c.stream s := by rw [applyChange, h]

theorem applyChange_putFwd (h : c.op = .putFwd) : applyChange c s = putFwdNow c.idx c.fwd s := by rw [applyChange, h]

theorem applyChange_remove (h : c.op = .remove) : applyChange c s = removeNow c.idx s := by rw [applyChange, h]

theorem applyChange_putBitmap (h : c.op = .putBitmap) : applyChange c s =
    if bitmapHeld c.idx s then none else some (s.modSw fun w => { w with bitmaps := w.bitmaps.set c.idx c.bitmap }) := by rw [applyChange, h]

theorem applyChange_putMir (h : c.op = .putMir) : applyChange c s =
    if mirHeld c.idx s then none else some (s.modSw fun w => { w with mir := w.mir.set c.idx c.mir }) := by rw [applyChange, h]

/-- A twin is another slot. -/
theorem streamTwin_ne {i j : Nat} {key : BitVec 128} (h : streamTwin i key s = some j) : j ≠ i := by
  have hfound := List.find?_some h
  simp only [Bool.and_eq_true, bne_iff_ne] at hfound
  exact hfound.1.1

/-- A drained entry is out of its hold-off's way at once when it has no copies. -/
theorem StreamEntry.drain_state (e : StreamEntry) (q : Nat) : (e.drain q).state = if e.refCur = 0 then .quarantine else .draining := by
  unfold StreamEntry.drain StreamEntry.settle
  by_cases h : e.refCur = 0 <;> simp [h]

theorem StreamEntry.drain_quarEnd {e : StreamEntry} (q : Nat) (h : e.refCur = 0) : (e.drain q).quarEnd = q := by
  simp [StreamEntry.drain, StreamEntry.settle, h]

theorem StreamEntry.drain_gen (e : StreamEntry) (q : Nat) : (e.drain q).gen = (e.gen + 1) % 65536 := by
  unfold StreamEntry.drain StreamEntry.settle
  split <;> rfl

theorem learnClose_stream (key : BitVec 128) (s : State) (j : Nat) : (learnClose key s).stream j = s.stream j := rfl

theorem stream_of_applied {t : State} {op : Option Nat} (h : t.sw = { u.sw with applying := rest, applyOp := op }) (j : Nat) :
    t.stream j = u.stream j := by
  simp only [State.stream, h]

theorem fwdE_of_applied {t : State} {op : Option Nat} (h : t.sw = { u.sw with applying := rest, applyOp := op }) (j : Nat) :
    t.fwdE j = u.fwdE j := by
  simp only [State.fwdE, h]

end

/-- Settles O23. -/
theorem entriesChangeByGeneration : Obligations.EntriesChangeByGeneration := by
  refine ⟨?_, ?_, ?_, ?_, ?_, ?_, ?_, ?_⟩
  case refine_1 =>
    intro c rest s hc hop hstate hprev
    exact ⟨s, exec_entryChangeApply_waits hc ((applyChange_putStream hop).trans (putStreamNow_of_held hstate hprev)), rfl⟩
  case refine_2 =>
    intro c rest s hc hop hstate hprev htwin
    obtain ⟨t, hexec, honly, op, hsw⟩ := exec_entryChangeApply hc ((applyChange_putStream hop).trans (putStreamNow_of_active hstate hprev htwin))
    refine ⟨t, hexec, Only.trans (by simp) honly, by rw [hsw], fun j hj => ?_, ?_⟩
    · rw [stream_of_applied hsw, learnClose_stream, State.stream_setStream_other _ _ hj]
    · rw [stream_of_applied hsw, learnClose_stream, State.stream_setStream_same]
      exact ⟨rfl, rfl, rfl, hstate, rfl, rfl, rfl, rfl, rfl, rfl, rfl, rfl, rfl, rfl⟩
  case refine_3 =>
    intro c rest s hc hop hstate htwin
    obtain ⟨t, hexec, honly, op, hsw⟩ := exec_entryChangeApply hc ((applyChange_putStream hop).trans (putStreamNow_of_free hstate htwin))
    refine ⟨t, hexec, by rw [hsw], fun j hj => ?_, ?_⟩
    · rw [stream_of_applied hsw, learnClose_stream, State.stream_setStream_other _ _ hj]
    · rw [stream_of_applied hsw, learnClose_stream, State.stream_setStream_same]
      exact ⟨rfl, rfl, rfl, rfl, rfl⟩
  case refine_4 =>
    intro c rest j s hc hop hstate htwin
    have hput := (applyChange_putStream hop).trans (putStreamNow_of_twin hstate htwin)
    by_cases hprev : (s.stream j).refPrev = 0
    · rw [if_pos hprev] at hput
      obtain ⟨t, hexec, honly, op, hsw⟩ := exec_entryChangeApply hc hput
      have hne := streamTwin_ne htwin
      refine ⟨t, hexec, fun h => absurd hprev h, fun _ => ⟨by rw [hsw], ?_⟩⟩
      rw [stream_of_applied hsw, stream_of_applied hsw, learnClose_stream, learnClose_stream, State.stream_setStream_same,
        State.stream_setStream_other _ _ hne, State.stream_setStream_same, StreamEntry.drain_state]
      exact ⟨rfl, rfl, rfl⟩
    · rw [if_neg hprev] at hput
      exact ⟨s, exec_entryChangeApply_waits hc hput, fun _ => rfl, fun h => absurd h hprev⟩
  case refine_5 =>
    intro c rest s hc hop hstate hprev htwin
    obtain ⟨t, hexec, honly, op, hsw⟩ := exec_entryChangeApply hc ((applyChange_putFwd hop).trans (putFwdNow_of_active hstate hprev htwin))
    refine ⟨t, hexec, by rw [hsw], fun j hj => ?_, fun j => stream_of_applied hsw j, ?_⟩
    · rw [fwdE_of_applied hsw, State.fwdE_setFwd_other _ _ hj]
    · rw [fwdE_of_applied hsw, State.fwdE_setFwd_same]
      exact ⟨rfl, rfl, rfl, rfl, hstate⟩
  case refine_6 =>
    intro c rest s hc hop hidx hstate hprev
    obtain ⟨t, hexec, honly, op, hsw⟩ := exec_entryChangeApply hc ((applyChange_remove hop).trans (removeNow_of_active hidx hstate hprev))
    refine ⟨t, hexec, by rw [hsw], fun j hj => ?_, ?_⟩
    · rw [stream_of_applied hsw, State.stream_setStream_other _ _ hj]
    · rw [stream_of_applied hsw, State.stream_setStream_same]
      exact ⟨StreamEntry.drain_state .., StreamEntry.drain_quarEnd _, StreamEntry.drain_gen ..⟩
  case refine_7 =>
    intro c rest s hc hop
    have hput := applyChange_putBitmap (s := s) hop
    cases hheld : bitmapHeld c.idx s with
    | true =>
      exact ⟨s, exec_entryChangeApply_waits hc (hput.trans (by simp [hheld])), fun _ => rfl, fun h => absurd h (by decide)⟩
    | false =>
      rw [hheld] at hput
      obtain ⟨t, hexec, honly, op, hsw⟩ := exec_entryChangeApply hc hput
      exact ⟨t, hexec, fun h => absurd h (by decide), fun _ => ⟨by rw [hsw], fun j => stream_of_applied hsw j, by rw [hsw]; rfl⟩⟩
  case refine_8 =>
    intro c rest s hc hop
    have hput := applyChange_putMir (s := s) hop
    cases hheld : mirHeld c.idx s with
    | true =>
      exact ⟨s, exec_entryChangeApply_waits hc (hput.trans (by simp [hheld])), fun _ => rfl, fun h => absurd h (by decide)⟩
    | false =>
      rw [hheld] at hput
      obtain ⟨t, hexec, honly, op, hsw⟩ := exec_entryChangeApply hc hput
      exact ⟨t, hexec, fun h => absurd h (by decide), fun _ => ⟨by rw [hsw], fun j => stream_of_applied hsw j, by rw [hsw]; rfl⟩⟩

end Sys2Proof.Machine
end

section
/-!
PROOFS. Learn events, learn records, supervision frames and the node table (R121, R122, R127). The obligation O25.
-/
namespace Sys2Proof.Machine
open Sys2Proof

/-! ### The sequence numbers of the redundant pairs through the storing of a frame -/

/-- The instant of the last supervision frames, and the next sequence numbers of the redundant pairs (R127). -/
def State.supervised (s : State) : Nat × Nat × Nat := (s.sw.superAt, s.sw.hsrSeq, s.sw.prpSeq)

theorem supervised_of_only {ps : List Part} {s t : State} (k : Only ps s t) (hp : Part.sw ∉ ps) : t.supervised = s.supervised := by
  have h : t.sw = s.sw := k.same .sw hp
  simp only [State.supervised, h]

@[simp] theorem supervised_ite {a b : State} (c : Prop) [Decidable c] :
    (if c then a else b).supervised = if c then a.supervised else b.supervised :=
  apply_ite State.supervised c a b

@[simp] theorem foldl_supervised {α : Type} (l : List α) (f : State → α → State) (k : ∀ t a, (f t a).supervised = t.supervised) (s : State) :
    (l.foldl f s).supervised = s.supervised := by
  induction l generalizing s with
  | nil => rfl
  | cons a l ih => rw [List.foldl_cons, ih, k]

@[simp] theorem State.modCgu_supervised (s : State) (f) : (s.modCgu f).supervised = s.supervised := rfl
@[simp] theorem State.modAcq_supervised (s : State) (f) : (s.modAcq f).supervised = s.supervised := rfl
@[simp] theorem State.modPorts_supervised (s : State) (f) : (s.modPorts f).supervised = s.supervised := rfl
@[simp] theorem State.modInsts_supervised (s : State) (f) : (s.modInsts f).supervised = s.supervised := rfl
@[simp] theorem State.setPort_supervised (s : State) (k : Nat) (f : Port → Port) : (State.setPort s k f).supervised = s.supervised :=
  supervised_of_only (ps := [.ports]) (by simp) (by decide)
@[simp] theorem State.setInst_supervised (s : State) (i : Nat) (f : Inst → Inst) : (State.setInst s i f).supervised = s.supervised :=
  supervised_of_only (ps := [.insts]) (by simp) (by decide)
@[simp] theorem State.setStream_supervised (s : State) (idx : Nat) (f : StreamEntry → StreamEntry) : (State.setStream s idx f).supervised =
    s.supervised :=
  rfl
@[simp] theorem State.setFwd_supervised (s : State) (idx : Nat) (f : FwdEntry → FwdEntry) : (State.setFwd s idx f).supervised =
    s.supervised := rfl
@[simp] theorem refreshOver_supervised (i : Nat) (s : State) : (refreshOver i s).supervised = s.supervised :=
  supervised_of_only (ps := [.insts, .bki, .evr, .mbx]) (by simp) (by decide)
@[simp] theorem note_supervised (b : BlockId) (u : Nat) (code : Nat) (cls : Nat) (owner : Master) (detail : List Byte) (s : State) :
    (note b u code cls owner detail s).supervised = s.supervised :=
  supervised_of_only (ps := [.bki, .evr]) (by simp) (by decide)
@[simp] theorem unsent_supervised (c : TxCopy) (s : State) : (unsent c s).supervised = s.supervised :=
  supervised_of_only (ps := [.time]) (by simp) (by decide)
@[simp] theorem portCount_supervised (k : Nat) (i : Nat) (s : State) (n : Nat) : (portCount k i s n).supervised = s.supervised :=
  supervised_of_only (ps := [.ports]) (by simp) (by decide)
@[simp] theorem acqStop_supervised (n : Nat) (reason : Nat) (s : State) : (acqStop n reason s).supervised = s.supervised :=
  supervised_of_only (ps := [.acq, .bki, .evr]) (by simp) (by decide)
@[simp] theorem swCount_supervised (i : Nat) (s : State) (n : Nat) : (swCount i s n).supervised = s.supervised := rfl
@[simp] theorem entryHold_supervised (idx : Nat) (n : Nat) (s : State) : (entryHold idx n s).supervised = s.supervised := by
  unfold entryHold
  split_ifs <;> rfl
@[simp] theorem entryDone_supervised (idx : Nat) (gen : Nat) (s : State) : (entryDone idx gen s).supervised = s.supervised := by
  unfold entryDone
  dsimp only
  split_ifs <;> rfl
@[simp] theorem freeFrame_supervised (n : Nat) (f : Stored) (s : State) : (freeFrame n f s).supervised = s.supervised := by
  unfold freeFrame
  dsimp only
  split
  · exact (refreshOver_supervised ..).trans (State.setInst_supervised ..)
  · rfl
@[simp] theorem copyDone_supervised (n : Nat) (entry : Nat) (gen : Nat) (nonPort : Bool) (s : State) :
    (copyDone n entry gen nonPort s).supervised = s.supervised := by
  unfold copyDone
  dsimp only
  split
  · exact (freeFrame_supervised ..).trans (entryDone_supervised ..)
  · exact entryDone_supervised ..
@[simp] theorem txDone_supervised (c : TxCopy) (s : State) : (txDone c s).supervised = s.supervised := by simp [txDone]
@[simp] theorem txDrop_supervised (k : Nat) (counter : Nat) (c : TxCopy) (s : State) : (txDrop k counter c s).supervised = s.supervised :=
  by simp [txDrop]
@[simp] theorem enqueue_supervised (k : Nat) (c : TxCopy) (s : State) : (enqueue k c s).supervised = s.supervised := by simp [enqueue]
@[simp] theorem nodeSeen_supervised (f : Stored) (s : State) : (nodeSeen f s).supervised = s.supervised := by
  unfold nodeSeen
  split <;> rfl
@[simp] theorem acqLost_supervised (p : AcqSrc → Bool) (s : State) : (acqLost p s).supervised = s.supervised := by simp [acqLost]
@[simp] theorem deliver_supervised (n : Nat) (entry : Nat) (gen : Nat) (d : Dest) (s : State) : (deliver n entry gen d s).supervised =
    s.supervised := by
  unfold deliver
  split
  · simp
  · simp
  · dsimp only
    split
    · rfl
    · simp
  · dsimp only
    split
    · rfl
    · simp
  · simp
  · rfl
  · rfl
@[simp] theorem evict_supervised (n : Nat) (f : Stored) (s : State) : (evict n f s).supervised = s.supervised := by simp [evict]
@[simp] theorem makeRoom_supervised (c cells n : Nat) (s : State) : (makeRoom c cells n s).supervised = s.supervised := by
  induction n generalizing s with
  | zero => rfl
  | succ n ih =>
    unfold makeRoom
    split
    · rfl
    · split
      · rfl
      · simp [ih]
@[simp] theorem storeFrame_supervised (f : Stored) (entry : Nat) (gen : Nat) (ds : List Dest) (s : State) :
    (storeFrame f entry gen ds s).supervised = s.supervised := by
  unfold storeFrame
  split
  · rfl
  · dsimp only
    split
    · rw [swCount_supervised, foldl_supervised _ _ (fun t d => ?_), makeRoom_supervised]
      split <;> simp
    · rw [foldl_supervised _ _ fun t d => deliver_supervised .., entryHold_supervised]
      exact makeRoom_supervised ..

/-- What the MGP sends takes the sequence numbers that its ports need. -/
theorem mgpSend_supervised (octets : List Byte) (pcp vid : Nat) (ports : List Nat) (s : State) :
    (mgpSend octets pcp vid ports s).supervised = (redPorts ports s).2.supervised := by
  unfold mgpSend
  dsimp only
  rw [storeFrame_supervised]

/-! ### Learn events -/

section
variable {key : BitVec 128} {r : LearnRec} {s : State}

/-- The record with its event noted (R121). -/
def LearnRec.told (r : LearnRec) (now : Nat) : LearnRec := { r with eventAt := some now, evFrames := r.frames, evOctets := r.octets }

/-- The state with the event noted and counted (R121). -/
def learnTold (key : BitVec 128) (r : LearnRec) (s : State) : State :=
  swCount 3 (s.modSw fun w => { w with learn := w.learn.map fun x => if x.key = key then r.told s.now else x })

theorem exec_learnEvent (hr : (s.sw.learn.find? fun r => r.key == key) = some r) (hnone : r.eventAt = none) (hdue : r.firstAt + ms 100 ≤ s.now)
    (hfw : s.persist.fwUp = true) : exec (.learnEvent key) s = .next (learnAnswered (r.told s.now) (learnTold key r s)) := by
  have h : exec (.learnEvent key) s = execLearnEvent key s := rfl
  rw [h, execLearnEvent, hr]
  simp only [hnone, Option.isSome_none, Bool.false_eq_true, if_false]
  rw [whenDue_now _ hdue]
  exact congrArg _ (if_pos hfw)

theorem learnTold_only {qs : List Part} (key : BitVec 128) (r : LearnRec) (s : State) (h : .sw ∈ qs) : Only qs s (learnTold key r s) :=
  swCount_only 3 _ 1 (State.modSw_only _ (Only.refl _ s) (by simpa using h)) (by simpa using h)

theorem learnTold_learn (hr : (s.sw.learn.find? fun r => r.key == key) = some r) :
    ((learnTold key r s).sw.learn.find? fun r => r.key == key) = some (r.told s.now) := by
  have hkey : r.key = key := eq_of_beq (List.find?_some hr :)
  have hsame : ((fun r : LearnRec => r.key == key) ∘ fun x => if x.key = key then r.told s.now else x) = fun r => r.key == key := by
    funext x
    by_cases hx : x.key = key
    · simp [hx, LearnRec.told, hkey]
    · simp [hx]
  have hmap : (learnTold key r s).sw.learn = s.sw.learn.map fun x => if x.key = key then r.told s.now else x := rfl
  rw [hmap, List.find?_map, hsame, hr, Option.map_some, if_pos hkey]

/-- The port that answers for a record: its lowest (R122). -/
def LearnRec.policyPort (r : LearnRec) : Nat := ((List.range 8).find? fun k => r.ports.getLsbD k).getD 0

theorem learnAnswered_of_host (h : (s.sw.policy.get r.policyPort {}).kind = 0) :
    learnAnswered r s = emit 0x03F0 none 0 [r.key.toNat, r.ports.toNat, r.id, r.stampAt, min r.evFrames (2 ^ 32 - 1), min r.evOctets
        (2 ^ 32 - 1), r.epoch] s := by
  have h1 : ¬ (s.sw.policy.get r.policyPort {}).kind = 1 := by rw [h]; decide
  have h2 : ¬ (s.sw.policy.get r.policyPort {}).kind = 2 := by rw [h]; decide
  exact (if_neg h1).trans (if_neg h2)

/-! ### Changes of the firmware's own count nothing -/

theorem putStreamNow_live {idx : Nat} {e : StreamEntry} {u : State} (h : putStreamNow idx e s = some u) : u.sw.live = s.sw.live := by
  unfold putStreamNow at h
  dsimp only at h
  split at h
  · split at h
    · cases h
      split <;> rfl
    · split at h
      · cases h
        split <;> rfl
      · cases h
  · cases h

theorem putFwdNow_live {idx : Nat} {e : FwdEntry} {u : State} (h : putFwdNow idx e s = some u) : u.sw.live = s.sw.live := by
  unfold putFwdNow at h
  dsimp only at h
  split at h
  · split at h
    · cases h
      split <;> rfl
    · split at h
      · cases h
        split <;> rfl
      · cases h
  · cases h

theorem removeNow_live {idx : Nat} {u : State} (h : removeNow idx s = some u) : u.sw.live = s.sw.live := by
  unfold removeNow at h
  dsimp only at h
  split_ifs at h <;> cases h <;> rfl

theorem moveNow_live {idx dest : Nat} {u : State} (h : moveNow idx dest s = some u) : u.sw.live = s.sw.live := by
  unfold moveNow at h
  dsimp only at h
  split_ifs at h <;> cases h <;> rfl

theorem applyChange_live {c : StbChange} {u : State} (h : applyChange c s = some u) : u.sw.live = s.sw.live := by
  unfold applyChange at h
  split at h
  · exact putStreamNow_live h
  · exact putFwdNow_live h
  · split at h
    · cases h
    · cases h
      rfl
  · split at h
    · cases h
    · cases h
      rfl
  · exact removeNow_live h
  · exact moveNow_live h

theorem commitDone_live (s : State) : (commitDone s).sw.live = s.sw.live := by
  obtain ⟨op, h⟩ := commitDone_sw s
  rw [h]

theorem applyOldest_live (s : State) : (applyOldest s).sw.live = s.sw.live := by
  unfold applyOldest
  split
  · rfl
  · split
    case h_1 u hu => 
      have hlive := applyChange_live hu
      rw [commitDone_live]
      exact hlive
    case h_2 => rfl

theorem commitNow_live (cs : List StbChange) (s : State) : (commitNow cs s).sw.live = s.sw.live := by
  unfold commitNow
  generalize hs : s.modSw (fun w => { w with applying := w.applying ++ cs }) = t
  have ht : t.sw.live = s.sw.live := by rw [← hs]; rfl
  dsimp only
  rw [← ht]
  clear hs ht
  induction cs generalizing t with
  | nil => rfl
  | cons c cs ih => rw [List.foldl_cons, ih, applyOldest_live]

theorem admitLearned_closes {e : StreamEntry} {i : Nat} {u : State} (h : admitLearned e s = .inr (i, u)) :
    ∃ v, u = learnClose e.key v ∧ v.sw.live = s.sw.live := by
  unfold admitLearned at h
  split at h
  · cases h
  · dsimp only at h
    split at h
    · cases h
    · cases h
      exact ⟨_, rfl, commitNow_live ..⟩

theorem admitLearned_only {e : StreamEntry} {i : Nat} {u : State} (h : admitLearned e s = .inr (i, u)) :
    Only [.sw, .insts, .bki, .evr, .mbx, .mon] s u := by
  unfold admitLearned at h
  split at h
  · cases h
  · dsimp only at h
    split at h
    · cases h
    · cases h
      exact learnClose_only _ _ (commitNow_only _ s (Only.refl _ s) (by simp)) (by simp)

theorem learnAnswered_only {qs : List Part} (r : LearnRec) (s : State) (h : ∀ p ∈ ([.sw, .insts, .bki, .evr, .mbx, .mon] : List Part), p ∈ qs) :
    Only qs s (learnAnswered r s) := by
  have hmono : ∀ {u : State}, Only [.sw, .insts, .bki, .evr, .mbx, .mon] s u → Only qs s u := fun k => k.mono h
  unfold learnAnswered
  dsimp only
  split
  · split
    case h_1 why _ => exact hmono (learnRefuse_only _ _ s (Only.refl _ s) (by simp))
    case h_2 p u hadmit => exact hmono (admitLearned_only hadmit)
  · split
    · exact hmono (learnRefuse_only _ _ s (Only.refl _ s) (by simp))
    · exact hmono (emit_only _ _ _ _ _ _ _ (Only.refl _ s) (by simp))

/-- An answer of the firmware's own closes the record and counts nothing (R122). -/
theorem learnAnswered_closes (h : (s.sw.policy.get r.policyPort {}).kind = 1 ∨ (s.sw.policy.get r.policyPort {}).kind = 2) :
    (∀ x ∈ (learnAnswered r s).sw.learn, x.key ≠ r.key) ∧ (learnAnswered r s).sw.live = s.sw.live := by
  have hclosed : ∀ u : State, ∀ x ∈ (learnClose r.key u).sw.learn, x.key ≠ r.key := fun u x hx =>
    of_decide_eq_true (List.mem_filter.1 hx).2
  have hrefused : ∀ why, (learnRefuse r why s).sw.live = s.sw.live := fun why => by
    have hsame : (note .mgp 0 learnRefusedCode 0 .none (leBytes 16 r.key.toNat ++ leBytes 4 why) s).sw = s.sw :=
      (note_only .mgp 0 learnRefusedCode 0 .none (leBytes 16 r.key.toNat ++ leBytes 4 why) s (qs := [.bki, .evr]) (Only.refl _ s)
        (by simp)).same .sw (by decide)
    exact (congrArg Switch.live hsame :)
  unfold learnAnswered
  dsimp only
  rw [← LearnRec.policyPort]
  split
  · split
    case h_1 why _ => exact ⟨hclosed _, hrefused why⟩
    case h_2 p u hadmit =>
      obtain ⟨v, hv, hlive⟩ := admitLearned_closes hadmit
      rw [hv]
      exact ⟨hclosed v, hlive⟩
  · rw [if_pos (h.resolve_left ‹_›)]
    exact ⟨hclosed _, hrefused 0⟩

end

/-! ### Supervision frames -/

/-- The supervision frames of the ring and of the LANs (R127). -/
def supervise (s : State) : State :=
  let src := s.blockMac 8
  let s := s.modSw fun w => { w with superAt := s.now }
  let s := if s.sw.hsrEn then mgpSend (supervisionFrame src s.sw.hsrSeq 23) 4 (s.port 0).pvid [0] s else s
  if s.sw.prpEn then mgpSend (supervisionFrame src s.sw.prpSeq 20) 4 (s.port 4).pvid [4] s else s

theorem mgpSend_tables (octets : List Byte) (pcp vid : Nat) (ports : List Nat) (s : State) :
    (mgpSend octets pcp vid ports s).tables = s.tables := by
  unfold mgpSend
  dsimp only
  rw [storeFrame_tables, redPorts_tables]

/-- A frame for the ring takes the next number of HSR, and of it alone. -/
theorem redPorts_ring (s : State) : (redPorts [0] s).2.supervised =
    (s.sw.superAt, if s.sw.hsrEn then (s.sw.hsrSeq + 1) % 65536 else s.sw.hsrSeq, s.sw.prpSeq) := by
  simp [redPorts, State.supervised]

/-- A frame for the LANs takes the next number of PRP, and of it alone. -/
theorem redPorts_lan (s : State) : (redPorts [4] s).2.supervised =
    (s.sw.superAt, s.sw.hsrSeq, if s.sw.prpEn then (s.sw.prpSeq + 1) % 65536 else s.sw.prpSeq) := by
  simp [redPorts, State.supervised]

theorem supervise_supervised (s : State) : (supervise s).supervised =
    (s.now, if s.sw.hsrEn then (s.sw.hsrSeq + 1) % 65536 else s.sw.hsrSeq, if s.sw.prpEn then (s.sw.prpSeq + 1) % 65536 else s.sw.prpSeq) := by
  unfold supervise
  dsimp only
  generalize hu : s.modSw (fun w => { w with superAt := s.now }) = u
  have hat : u.sw.superAt = s.now := by rw [← hu]; rfl
  have hhsr : u.sw.hsrEn = s.sw.hsrEn := by rw [← hu]; rfl
  have hhsrSeq : u.sw.hsrSeq = s.sw.hsrSeq := by rw [← hu]; rfl
  have hprp : u.sw.prpEn = s.sw.prpEn := by rw [← hu]; rfl
  have hprpSeq : u.sw.prpSeq = s.sw.prpSeq := by rw [← hu]; rfl
  generalize hv : (if u.sw.hsrEn = true then mgpSend (supervisionFrame (s.blockMac 8) u.sw.hsrSeq 23) 4 (u.port 0).pvid [0] u else u) = v
  have hring : v.supervised = (s.now, if s.sw.hsrEn then (s.sw.hsrSeq + 1) % 65536 else s.sw.hsrSeq, s.sw.prpSeq) := by
    rw [← hv]
    split
    case isTrue h => rw [mgpSend_supervised, redPorts_ring, hat, hhsrSeq, hprpSeq, ← hhsr, if_pos h]
    case isFalse h => simp only [State.supervised, hat, hhsrSeq, hprpSeq, ← hhsr, if_neg h]
  have hprpv : v.sw.prpEn = s.sw.prpEn := by
    rw [← hprp]
    apply prpEn_of_tables
    rw [← hv]
    split
    · exact mgpSend_tables ..
    · rfl
  obtain ⟨hvAt, hvHsr, hvPrp⟩ : v.sw.superAt = s.now ∧ v.sw.hsrSeq = (if s.sw.hsrEn then (s.sw.hsrSeq + 1) % 65536 else s.sw.hsrSeq)
      ∧ v.sw.prpSeq = s.sw.prpSeq :=
    ⟨congrArg (fun x => x.1) hring, congrArg (fun x => x.2.1) hring, congrArg (fun x => x.2.2) hring⟩
  split
  case isTrue h => rw [mgpSend_supervised, redPorts_lan, hvAt, hvHsr, hvPrp, ← hprpv, if_pos h]
  case isFalse h => simp only [State.supervised, hvAt, hvHsr, hvPrp, ← hprpv, if_neg h]

/-- Settles O25. -/
theorem learningAndNodesComplete : Obligations.LearningAndNodesComplete := by
  refine ⟨?_, ?_, ?_, ?_, ?_⟩
  case refine_1 =>
    intro key r s hr hnone hdue hfw hpol
    have hanswer := learnAnswered_of_host (r := r.told s.now) (s := learnTold key r s) hpol
    have hsw : (learnAnswered (r.told s.now) (learnTold key r s)).sw = (learnTold key r s).sw := by
      rw [hanswer]
      exact (emit_only _ _ _ _ _ _ _ (qs := [.bki, .evr, .mbx]) (Only.refl _ _) (by simp)).same .sw (by decide)
    refine ⟨_, exec_learnEvent hr hnone hdue hfw, ?_, fun i => ?_, ?_, ?_⟩
    · rw [hanswer]
      exact emit_only _ _ _ _ _ _ _ (learnTold_only _ _ _ (by simp)) (by simp)
    · simp only [State.stream, hsw]
      rfl
    · rw [hsw]
      exact learnTold_learn hr
    · rw [hsw]
      exact bump_same ..
  case refine_2 =>
    intro key r s hr hnone hdue hfw hpol
    obtain ⟨hclosed, hlive⟩ := learnAnswered_closes (r := r.told s.now) (s := learnTold key r s) hpol
    have hkey : r.key = key := eq_of_beq (List.find?_some hr :)
    refine ⟨_, exec_learnEvent hr hnone hdue hfw, ?_, ?_, ?_⟩
    · exact (learnTold_only _ _ _ (by simp)).trans (learnAnswered_only _ _ (by simp))
    · exact fun x hx => hkey ▸ hclosed x hx
    · rw [hlive]
      exact bump_same ..
  case refine_3 =>
    intro key r a s hr ha hdue
    refine ⟨learnClose key s, ?_, by simp, rfl⟩
    have h : exec (.learnRecordClose key) s = execLearnRecordClose key s := rfl
    rw [h, execLearnRecordClose, hr]
    dsimp only
    rw [ha]
    dsimp only
    rw [whenDue_now _ hdue]
  case refine_4 =>
    intro s hfw hdue
    have h : exec .supervisionSend s = .next (supervise s) := by
      have h : exec .supervisionSend s = execSupervisionSend s := rfl
      rw [h, execSupervisionSend, if_pos hfw, whenDue_now _ hdue]
      rfl
    have hs := supervise_supervised s
    exact ⟨_, h, congrArg (fun x => x.1) hs, congrArg (fun x => x.2.1) hs, congrArg (fun x => x.2.2) hs⟩
  case refine_5 =>
    intro mac n s hn hdue
    refine ⟨s.modSw fun w => { w with nodes := w.nodes.filter fun n => n.mac ≠ mac }, ?_, by simp, rfl⟩
    have h : exec (.nodeForget mac) s = execNodeForget mac s := rfl
    rw [h, execNodeForget, hn]
    dsimp only
    rw [whenDue_now _ hdue]

end Sys2Proof.Machine
end

section
/-!
PROOFS. The edges of a threshold (R157, R158), case by case of its step. The obligation O27.
-/
namespace Sys2Proof.Machine
open Sys2Proof

section
variable {x : Thr} {v : Int} {invalid : Bool} {smp : Nat}

/-- A step leaves the settings of the threshold. -/
theorem Thr.step_settings (x : Thr) (v : Int) (invalid : Bool) (smp : Nat) :
    (x.step v invalid smp).1.level = x.level ∧ (x.step v invalid smp).1.hyst = x.hyst ∧ (x.step v invalid smp).1.mode = x.mode := by
  unfold Thr.step
  dsimp only
  split_ifs <;> exact ⟨rfl, rfl, rfl⟩

theorem Thr.step_of_invalid (hmode : x.mode ≠ 0) : x.step v true smp = (if x.active then x else { x with run := 0 }, 0) := by
  simp [Thr.step, hmode]

theorem Thr.step_of_beyond (hmode : x.mode ≠ 0) (ha : x.active = false) (hb : x.beyond v = true) (hrun : x.run < 255) :
    x.step v false smp =
      if x.minDur ≤ x.run + 1 then ({ x with run := x.run + 1, onset := if x.run = 0 then smp else x.onset, active := true }, 1)
      else ({ x with run := x.run + 1, onset := if x.run = 0 then smp else x.onset }, 0) := by
  have hmin : min 255 (x.run + 1) = x.run + 1 := by omega
  simp [Thr.step, hmode, ha, hb, hmin]

theorem Thr.step_of_within (hmode : x.mode ≠ 0) (ha : x.active = false) (hb : x.beyond v = false) :
    x.step v false smp = ({ x with run := 0 }, 0) := by
  simp [Thr.step, hmode, ha, hb]

theorem Thr.step_of_active (hmode : x.mode ≠ 0) (ha : x.active = true) :
    x.step v false smp = if x.returned v then ({ x with active := false, run := 0 }, 2) else (x, 0) := by
  simp [Thr.step, hmode, ha]

/-- What is above the level has not returned below it. -/
theorem Thr.returned_of_above (hmode : x.mode = 1) (hb : x.beyond v = true) : x.returned v = false := by
  simp only [Thr.beyond, Thr.returned, hmode, if_true, decide_eq_true_eq, decide_eq_false_iff_not] at hb ⊢
  omega

end

/-- Settles O27. -/
theorem thresholdsHoldTheirEdges : Obligations.ThresholdsHoldTheirEdges := by
  intro x v invalid smp hmode
  obtain ⟨hlevel, hhyst, hkept⟩ := Thr.step_settings x v invalid smp
  refine ⟨hlevel, hhyst, hkept, fun hi => ?_, fun hi ha hb hrun => ?_, fun hi ha hb => ?_, fun hi ha => ?_, fun h1 _ hb => Thr.returned_of_above h1 hb⟩
  · subst hi
    rw [Thr.step_of_invalid hmode]
    cases ha : x.active <;> simp [ha]
  · subst hi
    rw [Thr.step_of_beyond hmode ha hb hrun]
    by_cases hd : x.minDur ≤ x.run + 1
    · rw [if_pos hd]
      exact ⟨rfl, iff_of_true rfl hd, by simp [hd], fun h => if_pos h, fun h => if_neg h⟩
    · rw [if_neg hd]
      exact ⟨rfl, iff_of_false Nat.zero_ne_one hd, by simp [hd, ha], fun h => if_pos h, fun h => if_neg h⟩
  · subst hi
    rw [Thr.step_of_within hmode ha hb]
    exact ⟨rfl, ha, rfl⟩
  · subst hi
    rw [Thr.step_of_active hmode ha]
    cases hr : x.returned v <;> simp [ha]

end Sys2Proof.Machine
end

section
/-!
PROOFS. The groups of the conditioning engine through what a position, an event and an output do (R144, R145, R159): what R144 decides by stays
(`State.gaps`), but for EXT. The obligations O26 and O28.
-/
namespace Sys2Proof.Machine
open Sys2Proof

/-! ### What the gap rule decides by -/

/-- A group without its subscribers and what its outputs and preset changes move. -/
def Group.timing (g : Group) : Group :=
  { g with preset := 0, pendPreset := 0, pend := false, decPhase := 0, subs := [], seq := 0, settle := 0, presetChanged := false }

/-- The groups and the counts that R142 and R144 raise. -/
structure Gaps where
  /-- the groups. -/
  group : Nat → Group
  /-- ASDUs unbound, old, positions filled, restarts. -/
  counts : List Nat
  /-- the last stale check. -/
  checked : Nat

/-- What the state holds of them. -/
def State.gaps (s : State) : Gaps :=
  { group := fun g => (s.group g).timing, counts := [0, 5, 6, 7].map fun i => s.sce.live.get i 0, checked := s.sce.lastCheck }

section
variable {s t : State}

theorem gaps_of_only {ps : List Part} (k : Only ps s t) (hp : Part.sce ∉ ps) : t.gaps = s.gaps := by
  have h : t.sce = s.sce := k.same .sce hp
  simp only [State.gaps, State.group, h]

theorem group_of_gaps (h : t.gaps = s.gaps) (g : Nat) : (t.group g).timing = (s.group g).timing := congrFun (congrArg Gaps.group h) g

theorem count_of_gaps (h : t.gaps = s.gaps) {i : Nat} (hi : i ∈ [0, 5, 6, 7]) : t.sce.live.get i 0 = s.sce.live.get i 0 := by
  have hc := congrArg Gaps.counts h
  simp only [State.gaps, List.map_cons, List.map_nil, List.cons.injEq, and_true] at hc
  obtain ⟨h0, h5, h6, h7⟩ := hc
  simp only [List.mem_cons, List.not_mem_nil, or_false] at hi
  rcases hi with rfl | rfl | rfl | rfl <;> assumption

@[simp] theorem gaps_ite {a b : State} (c : Prop) [Decidable c] : (if c then a else b).gaps = if c then a.gaps else b.gaps :=
  apply_ite State.gaps c a b

@[simp] theorem foldl_gaps {α : Type} (l : List α) (f : State → α → State) (k : ∀ t a, (f t a).gaps = t.gaps) (s : State) :
    (l.foldl f s).gaps = s.gaps := by
  induction l generalizing s with
  | nil => rfl
  | cons a l ih => rw [List.foldl_cons, ih, k]

@[simp] theorem State.group_setGroup_same (s : State) (g : Nat) (f : Group → Group) : (s.setGroup g f).group g = f (s.group g) := by
  simp [State.group, State.setGroup]

theorem State.group_setGroup_other (s : State) {g h : Nat} (f : Group → Group) (hne : h ≠ g) : (s.setGroup g f).group h = s.group h := by
  simp [State.group, State.setGroup, Tbl.get_set_other _ _ _ hne]

theorem State.setGroup_gaps (s : State) (g : Nat) (f : Group → Group) (h : (f (s.group g)).timing = (s.group g).timing) :
    (s.setGroup g f).gaps = s.gaps := by
  have hg : (fun j => ((s.setGroup g f).group j).timing) = fun j => (s.group j).timing := by
    funext j
    by_cases hj : j = g
    · rw [hj, State.group_setGroup_same, h]
    · rw [State.group_setGroup_other _ _ hj]
  simp only [State.gaps, hg]
  rfl

theorem State.setGroup_gaps_congr {s t : State} {g : Nat} {f h : Group → Group} (k : t.gaps = s.gaps)
    (hf : (f (t.group g)).timing = (h (s.group g)).timing) : (t.setGroup g f).gaps = (s.setGroup g h).gaps := by
  have hg : (fun j => ((t.setGroup g f).group j).timing) = fun j => ((s.setGroup g h).group j).timing := by
    funext j
    by_cases hj : j = g
    · rw [hj, State.group_setGroup_same, State.group_setGroup_same, hf]
    · rw [State.group_setGroup_other _ _ hj, State.group_setGroup_other _ _ hj, group_of_gaps k]
  have hc : (t.setGroup g f).gaps.counts = (s.setGroup g h).gaps.counts := (congrArg Gaps.counts k :)
  have hl : (t.setGroup g f).gaps.checked = (s.setGroup g h).gaps.checked := (congrArg Gaps.checked k :)
  simp only [State.gaps] at hc hl ⊢
  rw [hg, hc, hl]

@[simp] theorem State.setCtx_gaps (s : State) (n : Nat) (f : Ctx → Ctx) : (s.setCtx n f).gaps = s.gaps := rfl

/-- A count that R142 and R144 do not raise leaves what they decide by. -/
theorem sceCount_gaps (s : State) {i : Nat} (n : Nat) (h : i ∉ [0, 5, 6, 7]) : (sceCount i s n).gaps = s.gaps := by
  have hc : ∀ j ∈ [0, 5, 6, 7], (sceCount i s n).sce.live.get j 0 = s.sce.live.get j 0 := fun j hj => bump_other _ _ fun he => h (he ▸ hj)
  have hl : ([0, 5, 6, 7].map fun j => (sceCount i s n).sce.live.get j 0) = [0, 5, 6, 7].map fun j => s.sce.live.get j 0 :=
    List.map_congr_left hc
  simp only [State.gaps, hl]
  rfl

/-! ### Rings and events -/

@[simp] theorem ringWrite_gaps (i r : Nat) (mk : Nat → List Byte) (s : State) : (ringWrite i r mk s).gaps = s.gaps := by
  unfold ringWrite
  split
  · rfl
  case h_2 q _ =>
    have hwrite : ∀ a l u, (lsWrite i a l u).gaps = u.gaps := fun a l u => gaps_of_only (ps := [.insts, .mlk]) (by simp) (by decide)
    exact (hwrite _ _ _).trans (hwrite _ _ s)

@[simp] theorem dropStale_gaps (g : Nat) (s : State) : (dropStale g s).gaps = s.gaps := by
  unfold dropStale
  dsimp only
  split
  · rfl
  · rw [sceCount_gaps _ _ (by decide)]
    exact State.setGroup_gaps _ _ _ rfl

@[simp] theorem sceEvent_gaps (g : Nat) (e : EventBody) (s : State) : (sceEvent g e s).gaps = s.gaps := by
  unfold sceEvent
  dsimp only
  rw [foldl_gaps _ _ fun t i => by rw [sceCount_gaps _ _ (by decide), ringWrite_gaps], dropStale_gaps]

@[simp] theorem groupEvent_gaps (g type smp synch : Nat) (s : State) : (groupEvent g type smp synch s).gaps = s.gaps := sceEvent_gaps ..

@[simp] theorem acqTrigger_gaps (t : AcqTrig) (concerns : AcqStream → Bool) (s : State) : (acqTrigger t concerns s).gaps = s.gaps :=
  gaps_of_only (ps := [.acq]) (by simp) (by decide)

@[simp] theorem acqPass_gaps (x : AcqSet) (s : State) : (acqPass x s).gaps = s.gaps :=
  gaps_of_only (ps := [.sw, .acq, .bki, .evr]) (by simp) (by decide)

@[simp] theorem thrEvent_gaps (g n thr type smp : Nat) (t : Thr) (value : Int) (config : Bool) (s : State) :
    (thrEvent g n thr type smp t value config s).gaps = s.gaps := by
  have hcount : (sceCount (if type = 1 then 14 else 15) s 1).gaps = s.gaps := sceCount_gaps _ _ (by split <;> decide)
  have hevent : ∀ e, (if fld t.dest 0 0 = 1 then sceEvent g e (sceCount (if type = 1 then 14 else 15) s 1)
      else sceCount (if type = 1 then 14 else 15) s 1).gaps = s.gaps := fun e => by
    rw [gaps_ite, sceEvent_gaps, hcount, ite_self]
  unfold thrEvent
  dsimp only
  split
  · exact (acqTrigger_gaps ..).trans (hevent _)
  · exact hevent _

/-! ### Positions -/

@[simp] theorem groupOutput_gaps (gn smp synch : Nat) (s : State) : (groupOutput gn smp synch s).gaps = s.gaps := by
  unfold groupOutput
  dsimp only
  have hseq : ∀ u : State, (u.setGroup gn fun x => { x with seq := (x.seq + 1) % 2 ^ 32, presetChanged := false }).gaps = u.gaps :=
    fun u => State.setGroup_gaps _ _ _ rfl
  rw [foldl_gaps]
  · rw [gaps_ite, acqPass_gaps, ite_self, hseq, foldl_gaps, dropStale_gaps, sceCount_gaps _ _ (by decide), foldl_gaps]
    · exact fun t c => State.setCtx_gaps ..
    · exact fun t x => (sceCount_gaps _ _ (by decide)).trans (ringWrite_gaps ..)
  · intro t c
    simp only [gaps_ite, thrEvent_gaps, ite_self]

@[simp] theorem applyPreset_gaps (gn : Nat) (settle : Bool) (s : State) : (applyPreset gn settle s).gaps = s.gaps := by
  unfold applyPreset
  dsimp only
  split
  · rw [sceCount_gaps _ _ (by decide), State.setGroup_gaps _ _ _ rfl]
    split <;> rfl
  · rfl

@[simp] theorem groupRefill_gaps (gn : Nat) (s : State) : (groupRefill gn s).gaps = s.gaps :=
  (applyPreset_gaps ..).trans (foldl_gaps _ _ (fun _ _ => State.setCtx_gaps ..) s)

theorem groupPosition_gaps (gn : Nat) (ins : List (Int × BitVec 32)) (kind : PosKind) (smp ext synch req : Nat) (s : State) :
    (groupPosition gn ins kind smp ext synch req s).gaps = (s.setGroup gn fun x => { x with ext := ext }).gaps := by
  unfold groupPosition
  dsimp only
  rw [gaps_ite, applyPreset_gaps, groupOutput_gaps, ite_self]
  refine State.setGroup_gaps_congr (foldl_gaps _ _ (fun _ _ => State.setCtx_gaps ..) s) ?_
  have hg := group_of_gaps (foldl_gaps ((s.group gn).ctxNums.zipIdx) (fun s c => s.setCtx c.1 fun x =>
    x.push (x.frozenNow req c.2) (ins.getD c.2 (x.lastIn, substQual)).1 (ins.getD c.2 (x.lastIn, substQual)).2 kind)
    (fun _ _ => State.setCtx_gaps ..) s) gn
  exact (congrArg (fun x : Group => { x with ext := ext }) hg :)

end

/-! ### An accepted ASDU (R144) -/

/-- How far an ASDU's sample count is ahead of the one expected. -/
def Group.gap (g : Group) (smp : Nat) : Nat := (smp + g.smpWrap - (g.lastSmp + 1) % g.smpWrap) % g.smpWrap

/-- The group starts with this ASDU: it does not run, or its time is over. -/
abbrev Group.starts (g : Group) (now : Nat) : Prop := g.state ≠ 1 ∨ g.lastArr + ms g.gapTime ≤ now

/-- A change of the synch value is told. -/
def synchTold (gn smp synch : Nat) (s : State) : State :=
  if (s.group gn).synchKnown && (s.group gn).lastSynch != synch % 4 then groupEvent gn 5 smp (synch % 4) s else s

/-- The ASDU is the last accepted. -/
def groupTook (gn smp synch : Nat) (s : State) : State :=
  s.setGroup gn fun x => { x with lastSmp := smp, lastSynch := synch % 4, synchKnown := true, lastArr := s.now }

/-- The positions left out are filled with the last values. -/
def groupFill (gn req : Nat) (x : Group) (gap : Nat) (s : State) : State :=
  (List.range gap).foldl (fun s j =>
    groupPosition gn [] .held (((x.lastSmp + 1) % x.smpWrap + j) % x.smpWrap) (((s.group gn).ext + 1) % 2 ^ 32) x.lastSynch req s) s

section
variable {gn smp synch : Nat} {ins : List (Int × BitVec 32)} {s t : State} {x : Group}

theorem groupAccept_of_old (hx : s.group gn = x) (hfresh : ¬ x.starts s.now) (hgap : x.gap smp ≠ 0) (hold : x.smpWrap ≤ 2 * x.gap smp) :
    groupAccept gn ins smp synch s = sceCount 5 s := by
  subst hx
  unfold Group.starts Group.gap at *
  simp [groupAccept, hfresh, hgap, hold]

/-- An ASDU that is not old is taken after the positions that it makes. -/
theorem groupAccept_of_taken (hx : s.group gn = x) (h : x.starts s.now ∨ x.gap smp = 0 ∨ 2 * x.gap smp < x.smpWrap) :
    groupAccept gn ins smp synch s = groupTook gn smp synch (
      if x.starts s.now then groupStart gn ins smp synch (freezeReq gn s) (synchTold gn smp synch s)
      else if x.gap smp = 0 then groupPosition gn ins .real smp ((x.ext + 1) % 2 ^ 32) synch (freezeReq gn s) (synchTold gn smp synch s)
      else if x.gap smp ≤ x.gapFill then
        groupPosition gn ins .real smp ((((groupFill gn (freezeReq gn s) x (x.gap smp)
            (synchTold gn smp synch s)).group gn).ext + 1) % 2 ^ 32) synch
          (freezeReq gn s) (sceCount 6 (groupFill gn (freezeReq gn s) x (x.gap smp) (synchTold gn smp synch s)) (x.gap smp))
      else
        groupPosition gn ins .real smp ((x.ext + x.gap smp + 1) % 2 ^ 32) synch (freezeReq gn s)
          (sceCount 7 (groupRefill gn ((synchTold gn smp synch s).setGroup gn fun y => { y with settle := y.settle - x.gap smp })))) := by
  subst hx
  have hcond : (!decide ((s.group gn).starts s.now) && (s.group gn).gap smp != 0 && decide ((s.group gn).smpWrap ≤ 2 * (s.group gn).gap smp)) =
      false := by
    rcases h with h | h | h
    · simp [h]
    · simp [h]
    · simp [Nat.not_le.2 h]
  exact if_neg (Bool.eq_false_iff.1 hcond)

theorem groupTook_live (gn smp synch : Nat) (s : State) : (groupTook gn smp synch s).sce.live = s.sce.live := rfl

theorem synchTold_gaps (gn smp synch : Nat) (s : State) : (synchTold gn smp synch s).gaps = s.gaps := by
  unfold synchTold
  split
  · exact groupEvent_gaps ..
  · rfl

/-- A position has the EXT it is given, and otherwise leaves what the gap rule decides by. -/
theorem groupPosition_timing (gn : Nat) (ins : List (Int × BitVec 32)) (kind : PosKind) (smp ext synch req : Nat) (s : State) :
    ((groupPosition gn ins kind smp ext synch req s).group gn).timing = { (s.group gn).timing with ext := ext } := by
  rw [group_of_gaps (groupPosition_gaps ..), State.group_setGroup_same]
  rfl

theorem groupPosition_count (gn : Nat) (ins : List (Int × BitVec 32)) (kind : PosKind) (smp ext synch req : Nat) (s : State) {i : Nat}
    (hi : i ∈ [0, 5, 6, 7]) : (groupPosition gn ins kind smp ext synch req s).sce.live.get i 0 = s.sce.live.get i 0 :=
  count_of_gaps (groupPosition_gaps ..) hi

/-- A start has EXT 0 and leaves the group running. -/
theorem groupStart_timing (gn : Nat) (ins : List (Int × BitVec 32)) (smp synch req : Nat) (s : State) :
    ((groupStart gn ins smp synch req s).group gn).timing = { (s.group gn).timing with state := 1, ext := 0 } := by
  unfold groupStart
  dsimp only
  rw [groupPosition_timing]
  have hload : ∀ (l : List (Nat × Nat)) (u : State), (l.foldl (fun s c => s.setCtx c.1 fun x =>
      { x with dcEst := (ins.getD c.2 (0, 0)).1 * 65536 }) u).gaps = u.gaps := fun l u => foldl_gaps _ _ (fun _ _ => State.setCtx_gaps ..) u
  rw [group_of_gaps (hload _ _), group_of_gaps (groupRefill_gaps ..), State.group_setGroup_same]
  have hresume : ((if (s.group gn).state = 2 then groupEvent gn 4 smp 0 s else s).group gn).timing = (s.group gn).timing :=
    group_of_gaps (by rw [gaps_ite, groupEvent_gaps, ite_self]) gn
  exact (congrArg (fun g : Group => { g with state := 1, ext := 0 }) hresume :)

/-- Filling counts EXT on by the positions filled. -/
theorem groupFill_timing (gn req : Nat) (x : Group) (n : Nat) (s : State) :
    (∃ e, ((groupFill gn req x n s).group gn).timing = { (s.group gn).timing with ext := e } ∧ (e + 1) % 2 ^ 32 =
        ((s.group gn).ext + n + 1) % 2 ^ 32)
    ∧ ∀ i ∈ [0, 5, 6, 7], (groupFill gn req x n s).sce.live.get i 0 = s.sce.live.get i 0 := by
  induction n with
  | zero => exact ⟨⟨(s.group gn).ext, rfl, rfl⟩, fun _ _ => rfl⟩
  | succ n ih =>
    obtain ⟨⟨e, he, hmod⟩, hcount⟩ := ih
    have hstep : groupFill gn req x (n + 1) s = groupPosition gn [] .held (((x.lastSmp + 1) % x.smpWrap + n) % x.smpWrap)
        ((((groupFill gn req x n s).group gn).ext + 1) % 2 ^ 32) x.lastSynch req (groupFill gn req x n s) := by
      simp only [groupFill, List.range_succ, List.foldl_append, List.foldl_cons, List.foldl_nil]
    have hext : ((groupFill gn req x n s).group gn).ext = e := (congrArg Group.ext he :)
    rw [hstep]
    refine ⟨⟨(e + 1) % 2 ^ 32, ?_, by omega⟩, fun i hi => (groupPosition_count _ _ _ _ _ _ _ _ hi).trans (hcount i hi)⟩
    rw [groupPosition_timing, he, hext]

/-- What an accepted ASDU leaves of its group, where the positions before it leave state σ and EXT e. -/
structure Taken (gn smp synch : Nat) (s t : State) (σ e : Nat) : Prop where
  /-- LAST_SMPCNT is its own. -/
  smp : (t.group gn).lastSmp = smp
  /-- the synch value is its own. -/
  synch : (t.group gn).lastSynch = synch % 4
  /-- and known. -/
  known : (t.group gn).synchKnown = true
  /-- it arrived now. -/
  arr : (t.group gn).lastArr = s.now
  /-- the group stays bound. -/
  entry : (t.group gn).entry = (s.group gn).entry
  /-- and keeps its channels. -/
  nch : (t.group gn).nch = (s.group gn).nch
  /-- its state. -/
  state : (t.group gn).state = σ
  /-- its EXT. -/
  ext : (t.group gn).ext = e

theorem groupAccept_taken {r : State} {σ e : Nat} (hr : groupAccept gn ins smp synch s = groupTook gn smp synch r)
    (ht : (r.group gn).timing = { (s.group gn).timing with state := σ, ext := e }) : Taken gn smp synch s
        (groupAccept gn ins smp synch s) σ e := by
  have honly := groupAccept_only gn ins smp synch s (qs := [.sw, .sce, .insts, .mlk, .acq, .bki, .evr, .free]) (Only.refl _ s) (by simp)
  have hnow : r.now = s.now := by
    rw [hr] at honly
    exact congrArg Time.age (honly.same .time (by decide) :)
  have hg : (groupAccept gn ins smp synch s).group gn =
      { r.group gn with lastSmp := smp, lastSynch := synch % 4, synchKnown := true, lastArr := r.now } := by
    rw [hr]
    exact State.group_setGroup_same ..
  exact ⟨by rw [hg], by rw [hg], by rw [hg], by rw [hg, ← hnow], by rw [hg]; exact (congrArg Group.entry ht :), by rw [hg]; exact
      (congrArg Group.nch ht :),
    by rw [hg]; exact (congrArg Group.state ht :), by rw [hg]; exact (congrArg Group.ext ht :)⟩

theorem groupAccept_start (hx : s.group gn = x) (h : x.starts s.now) : Taken gn smp synch s (groupAccept gn ins smp synch s) 1 0 := by
  refine groupAccept_taken ((groupAccept_of_taken hx (.inl h)).trans (by rw [if_pos h])) ?_
  rw [groupStart_timing, group_of_gaps (synchTold_gaps ..)]

theorem groupAccept_next (hx : s.group gn = x) (h : ¬ x.starts s.now) (hgap : x.gap smp = 0) :
    Taken gn smp synch s (groupAccept gn ins smp synch s) x.state ((x.ext + 1) % 2 ^ 32) := by
  refine groupAccept_taken ((groupAccept_of_taken hx (.inr (.inl hgap))).trans (by rw [if_neg h, if_pos hgap])) ?_
  rw [groupPosition_timing, group_of_gaps (synchTold_gaps ..), hx]
  rfl

/-- The count of a fill or a restart, as the accepted ASDU leaves it. -/
theorem counted_groupTook {i : Nat} (hi : i ∈ [0, 5, 6, 7]) (kind : PosKind) (ext req n : Nat) (u : State) :
    (groupTook gn smp synch (groupPosition gn ins kind smp ext synch req (sceCount i u n))).sce.live.get i 0 =
      satAdd 64 (u.sce.live.get i 0) n := by
  rw [groupTook_live, groupPosition_count _ _ _ _ _ _ _ _ hi, sceCount, State.modSce_sce, bump_same]

theorem groupAccept_fill (hx : s.group gn = x) (h : ¬ x.starts s.now) (hgap : x.gap smp ≠ 0) (hlt : 2 * x.gap smp < x.smpWrap)
    (hfill : x.gap smp ≤ x.gapFill) :
    Taken gn smp synch s (groupAccept gn ins smp synch s) x.state ((x.ext + x.gap smp + 1) % 2 ^ 32)
    ∧ (groupAccept gn ins smp synch s).sce.live.get 6 0 = satAdd 64 (s.sce.live.get 6 0) (x.gap smp) := by
  have heq := groupAccept_of_taken (ins := ins) (synch := synch) hx (.inr (.inr hlt))
  rw [if_neg h, if_neg hgap, if_pos hfill] at heq
  obtain ⟨⟨e, he, hmod⟩, hcount⟩ := groupFill_timing gn (freezeReq gn s) x (x.gap smp) (synchTold gn smp synch s)
  rw [group_of_gaps (synchTold_gaps ..), hx] at he
  have hsext : ((synchTold gn smp synch s).group gn).ext = x.ext := by
    rw [← hx]
    exact (congrArg Group.ext (group_of_gaps (synchTold_gaps gn smp synch s) gn) :)
  refine ⟨groupAccept_taken heq ?_, ?_⟩
  · have hext : ((groupFill gn (freezeReq gn s) x (x.gap smp) (synchTold gn smp synch s)).group gn).ext = e := (congrArg Group.ext he :)
    rw [groupPosition_timing, hext, hmod, hsext, hx]
    exact (congrArg (fun g : Group => { g with ext := (x.ext + x.gap smp + 1) % 2 ^ 32 }) he :)
  · rw [heq, counted_groupTook (by decide), hcount 6 (by decide), count_of_gaps (synchTold_gaps ..) (by decide)]

theorem sceCount_group (i n : Nat) (s : State) (gn : Nat) : (sceCount i s n).group gn = s.group gn := rfl

/-- The group as it is before the position that restarts it. -/
theorem groupRefilled_gaps (gn smp synch n : Nat) (s : State) :
    (groupRefill gn ((synchTold gn smp synch s).setGroup gn fun y => { y with settle := y.settle - n })).gaps = s.gaps :=
  (groupRefill_gaps ..).trans ((State.setGroup_gaps _ _ _ rfl).trans (synchTold_gaps ..))

theorem groupAccept_restart (hx : s.group gn = x) (h : ¬ x.starts s.now) (hgap : x.gap smp ≠ 0) (hlt : 2 * x.gap smp < x.smpWrap)
    (hfill : ¬ x.gap smp ≤ x.gapFill) :
    Taken gn smp synch s (groupAccept gn ins smp synch s) x.state ((x.ext + x.gap smp + 1) % 2 ^ 32)
    ∧ (groupAccept gn ins smp synch s).sce.live.get 7 0 = satAdd 64 (s.sce.live.get 7 0) 1 := by
  have heq := groupAccept_of_taken (ins := ins) (synch := synch) hx (.inr (.inr hlt))
  rw [if_neg h, if_neg hgap, if_neg hfill] at heq
  refine ⟨groupAccept_taken heq ?_, ?_⟩
  · rw [groupPosition_timing, sceCount_group, group_of_gaps (groupRefilled_gaps gn smp synch (x.gap smp) s) gn, hx]
    rfl
  · rw [heq, counted_groupTook (by decide), count_of_gaps (groupRefilled_gaps ..) (by decide)]

/-- Every ASDU that is not old is taken. -/
theorem groupAccept_takes (h : (s.group gn).starts s.now ∨ (s.group gn).gap smp = 0 ∨ 2 * (s.group gn).gap smp < (s.group gn).smpWrap) :
    ∃ σ e, Taken gn smp synch s (groupAccept gn ins smp synch s) σ e := by
  by_cases hs : (s.group gn).starts s.now
  · exact ⟨_, _, groupAccept_start rfl hs⟩
  · by_cases hg : (s.group gn).gap smp = 0
    · exact ⟨_, _, groupAccept_next rfl hs hg⟩
    · have hlt := (h.resolve_left hs).resolve_left hg
      by_cases hf : (s.group gn).gap smp ≤ (s.group gn).gapFill
      · exact ⟨_, _, (groupAccept_fill rfl hs hg hlt hf).1⟩
      · exact ⟨_, _, (groupAccept_restart rfl hs hg hlt hf).1⟩

end

/-- Settles O26. -/
theorem groupGapRule : Obligations.GroupGapRule := by
  intro gn ins smp synch s
  generalize hx : s.group gn = x
  refine ⟨fun hfresh hgap hold => groupAccept_of_old hx hfresh hgap hold, fun h => ?_, fun hfresh => ?_, fun hfresh hgap => ?_,
    fun hfresh hgap hlt => ?_⟩
  · refine ⟨groupAccept_only _ _ _ _ _ (Only.refl _ s) (by simp), ?_⟩
    subst hx
    obtain ⟨σ, e, ht⟩ := groupAccept_takes (ins := ins) (synch := synch) h
    exact ⟨ht.smp, ht.synch, ht.known, ht.arr, ht.entry, ht.nch⟩
  · exact ⟨(groupAccept_start hx hfresh).ext, (groupAccept_start hx hfresh).state⟩
  · exact ⟨(groupAccept_next hx hfresh hgap).ext, (groupAccept_next hx hfresh hgap).state⟩
  · by_cases hf : x.gap smp ≤ x.gapFill
    · obtain ⟨ht, hcount⟩ := groupAccept_fill (ins := ins) (synch := synch) hx hfresh hgap hlt hf
      exact ⟨ht.ext, ht.state, fun _ => hcount, fun h => absurd hf (Nat.not_le.2 h)⟩
    · obtain ⟨ht, hcount⟩ := groupAccept_restart (ins := ins) (synch := synch) hx hfresh hgap hlt hf
      exact ⟨ht.ext, ht.state, fun h => absurd h hf, fun _ => hcount⟩

end Sys2Proof.Machine
end

section
/-!
PROOFS. Copies for the conditioning engine and its stale check (R142 to R145). The obligation O28.
-/
namespace Sys2Proof.Machine
open Sys2Proof

/-! ### The queues of copies through the conditioning of one -/

@[simp] theorem waiting_ite {a b : State} (c : Prop) [Decidable c] : (if c then a else b).waiting = if c then a.waiting else b.waiting :=
  apply_ite State.waiting c a b

theorem foldl_waiting {α : Type} (l : List α) (f : State → α → State) (k : ∀ t a, (f t a).waiting = t.waiting) (s : State) :
    (l.foldl f s).waiting = s.waiting := by
  induction l generalizing s with
  | nil => rfl
  | cons a l ih => rw [List.foldl_cons, ih, k]

theorem waiting_of_only {ps : List Part} {s t : State} (k : Only ps s t) (hp : Part.sw ∉ ps) : t.waiting = s.waiting :=
  waiting_of_sw (k.same .sw hp)

@[simp] theorem acqLost_waiting (p : AcqSrc → Bool) (s : State) : (acqLost p s).waiting = s.waiting := by
  unfold acqLost
  rw [foldl_waiting _ _ fun t n => ?_, swCount_waiting]
  rw [waiting_ite, waiting_of_only (s := t) (ps := [.acq, .bki, .evr]) (by simp) (by decide), ite_self]

@[simp] theorem acqPass_waiting (x : AcqSet) (s : State) : (acqPass x s).waiting = s.waiting := by
  unfold acqPass
  split
  · rfl
  · exact acqLost_waiting ..

theorem State.setGroup_waiting (s : State) (g : Nat) (f : Group → Group) : (s.setGroup g f).waiting = s.waiting := rfl

theorem State.setCtx_waiting (s : State) (n : Nat) (f : Ctx → Ctx) : (s.setCtx n f).waiting = s.waiting := rfl

theorem sceCount_waiting (i : Nat) (s : State) (n : Nat) : (sceCount i s n).waiting = s.waiting := rfl

theorem groupOutput_waiting (gn smp synch : Nat) (s : State) : (groupOutput gn smp synch s).waiting = s.waiting := by
  have hthr : ∀ g n thr type smp t v c (u : State), (thrEvent g n thr type smp t v c u).waiting = u.waiting := fun _ _ _ _ _ _ _ _ u =>
    waiting_of_only (ps := [.sce, .insts, .mlk, .acq]) (by simp) (by decide)
  have hring : ∀ i r mk (u : State), (ringWrite i r mk u).waiting = u.waiting := fun _ _ _ u =>
    waiting_of_only (ps := [.sce, .insts, .mlk]) (by simp) (by decide)
  have hstale : ∀ u : State, (dropStale gn u).waiting = u.waiting := fun u => waiting_of_only (ps := [.sce]) (by simp) (by decide)
  unfold groupOutput
  dsimp only
  rw [foldl_waiting]
  · rw [waiting_ite, acqPass_waiting, ite_self, State.setGroup_waiting, foldl_waiting, hstale, sceCount_waiting, foldl_waiting]
    · exact fun t c => State.setCtx_waiting ..
    · exact fun t x => (sceCount_waiting ..).trans (hring ..)
  · intro t c
    simp only [waiting_ite, hthr, ite_self]

theorem groupPosition_waiting (gn : Nat) (ins : List (Int × BitVec 32)) (kind : PosKind) (smp ext synch req : Nat) (s : State) :
    (groupPosition gn ins kind smp ext synch req s).waiting = s.waiting := by
  have hpreset : ∀ u : State, (applyPreset gn true u).waiting = u.waiting := fun u => waiting_of_only (ps := [.sce, .free]) (by simp) (by decide)
  unfold groupPosition
  dsimp only
  rw [waiting_ite, hpreset, groupOutput_waiting, ite_self, State.setGroup_waiting]
  exact foldl_waiting _ _ (fun t c => State.setCtx_waiting ..) s

theorem groupRefill_waiting (gn : Nat) (s : State) : (groupRefill gn s).waiting = s.waiting :=
  waiting_of_only (ps := [.sce, .free]) (by simp) (by decide)

theorem groupEvent_waiting (gn type smp synch : Nat) (s : State) : (groupEvent gn type smp synch s).waiting = s.waiting :=
  waiting_of_only (ps := [.sce, .insts, .mlk]) (by simp) (by decide)

theorem groupStart_waiting (gn : Nat) (ins : List (Int × BitVec 32)) (smp synch req : Nat) (s : State) :
    (groupStart gn ins smp synch req s).waiting = s.waiting := by
  unfold groupStart
  dsimp only
  rw [groupPosition_waiting, foldl_waiting, groupRefill_waiting, State.setGroup_waiting, waiting_ite, groupEvent_waiting, ite_self]
  exact fun t c => State.setCtx_waiting ..

theorem groupFill_waiting (gn req : Nat) (x : Group) (n : Nat) (s : State) : (groupFill gn req x n s).waiting = s.waiting :=
  foldl_waiting _ _ (fun _ _ => groupPosition_waiting ..) s

theorem groupAccept_waiting (gn : Nat) (ins : List (Int × BitVec 32)) (smp synch : Nat) (s : State) :
    (groupAccept gn ins smp synch s).waiting = s.waiting := by
  have htold : (synchTold gn smp synch s).waiting = s.waiting := by
    unfold synchTold
    rw [waiting_ite, groupEvent_waiting, ite_self]
  by_cases h : (s.group gn).starts s.now ∨ (s.group gn).gap smp = 0 ∨ 2 * (s.group gn).gap smp < (s.group gn).smpWrap
  · rw [groupAccept_of_taken rfl h]
    have hinner : ∀ u : State, (groupTook gn smp synch u).waiting = u.waiting := fun u => rfl
    rw [hinner]
    split_ifs
    · rw [groupStart_waiting, htold]
    · rw [groupPosition_waiting, htold]
    · rw [groupPosition_waiting, sceCount_waiting, groupFill_waiting, htold]
    · rw [groupPosition_waiting, sceCount_waiting, groupRefill_waiting, State.setGroup_waiting, htold]
  · simp only [not_or, Nat.not_lt] at h
    obtain ⟨hfresh, hgap, hold⟩ := h
    rw [groupAccept_of_old rfl (by simpa only [not_or] using hfresh) hgap hold, sceCount_waiting]

theorem groupFrame_waiting (f : List Byte) (s : State) (gn : Nat) : (groupFrame f s gn).waiting = s.waiting := by
  have hasdu : ∀ first a (u : State), (groupAsdu gn first a u).waiting = u.waiting := fun first a u => by
    unfold groupAsdu
    dsimp only
    split
    · rfl
    · rw [groupAccept_waiting]
      exact waiting_of_only (ps := [.sce]) (by simp) (by decide)
  unfold groupFrame
  split
  · rfl
  · exact foldl_waiting _ _ (fun t a => hasdu ..) s

/-! ### The oldest copy -/

/-- The state with the oldest copy taken from the queue. -/
def sceTook (q : List Deliver) (s : State) : State := s.modSw fun w => { w with sceQ := q }

/-- The groups bound to a copy's entry. -/
def boundGroups (v : Deliver) (s : State) : List Nat := (s.sce.groups.filter fun p => p.2.en && p.2.entry == v.entry).map fun p => p.1

/-- What the engine makes of a copy. -/
def sceTakes (v : Deliver) (s : State) : State :=
  if !(s.stored v.frame).crcOk then swCount 18 s
  else if !s.sce.en || boundGroups v s == [] then sceCount 0 s
  else (boundGroups v s).foldl (groupFrame (s.stored v.frame).octets) s

theorem exec_sceCopy {v : Deliver} {q : List Deliver} {s : State} (h : s.sw.sceQ = v :: q) :
    exec .sceCopy s = .next (copyDone v.frame v.entry v.gen true (sceTakes v (sceTook q s))) := by
  have he : exec .sceCopy s = execSceCopy s := rfl
  rw [he, execSceCopy, h]
  rfl

theorem sceTakes_waiting (v : Deliver) (s : State) : (sceTakes v s).waiting = s.waiting := by
  unfold sceTakes
  rw [waiting_ite, waiting_ite, swCount_waiting, sceCount_waiting, foldl_waiting _ _ fun t g => groupFrame_waiting .., ite_self, ite_self]

theorem sceTakes_only (v : Deliver) (s : State) : Only [.sw, .sce, .insts, .mlk, .acq, .free, .bki, .evr] s (sceTakes v s) := by
  have hfold : ∀ (l : List Nat) (f : List Byte) (u : State), Only [.sw, .sce, .insts, .mlk, .acq, .free, .bki, .evr] u (l.foldl
      (groupFrame f) u) := by
    intro l f
    induction l with
    | nil => exact fun u => Only.refl _ u
    | cons a l ih => exact fun u => (groupFrame_only f u a (Only.refl _ u) (by simp)).trans (ih _)
  unfold sceTakes
  split
  · exact swCount_only 18 s 1 (Only.refl _ s) (by simp)
  · split
    · exact sceCount_only 0 s 1 (Only.refl _ s) (by simp)
    · exact hfold ..

/-- A copy's end raises no counter of the switch. -/
theorem copyDone_swLive (n entry gen : Nat) (nonPort : Bool) (s : State) : (copyDone n entry gen nonPort s).sw.live = s.sw.live := by
  have hentry : ∀ u : State, (entryDone entry gen u).sw.live = u.sw.live := fun u => by
    unfold entryDone
    dsimp only
    split_ifs <;> rfl
  have hover : ∀ i (u : State), (refreshOver i u).sw.live = u.sw.live := fun i u =>
    congrArg Switch.live ((refreshOver_only (qs := [.insts, .bki, .evr, .mbx]) i u (Only.refl _ u) (by simp)).same .sw (by decide) :)
  unfold copyDone
  dsimp only
  split
  · unfold freeFrame
    dsimp only
    split
    · exact (hover ..).trans (hentry s)
    · exact hentry s
  · exact hentry s

theorem sceCount_other {i j : Nat} (s : State) (n : Nat) (h : j ≠ i) : (sceCount i s n).sce.live.get j 0 = s.sce.live.get j 0 :=
  bump_other _ _ h

theorem groupStart_unbound (gn : Nat) (ins : List (Int × BitVec 32)) (smp synch req : Nat) (s : State) :
    (groupStart gn ins smp synch req s).sce.live.get 0 0 = s.sce.live.get 0 0 := by
  unfold groupStart
  dsimp only
  rw [groupPosition_count (i := 0) _ _ _ _ _ _ _ _ (by decide), count_of_gaps (i := 0) (foldl_gaps _ _ (fun _ _ => State.setCtx_gaps ..) _)
      (by decide),
    count_of_gaps (i := 0) (groupRefill_gaps ..) (by decide)]
  have hresume : ((if (s.group gn).state = 2 then groupEvent gn 4 smp 0 s else s)).gaps = s.gaps := by rw [gaps_ite, groupEvent_gaps, ite_self]
  exact (count_of_gaps (i := 0) hresume (by decide) :)

theorem groupAccept_unbound (gn : Nat) (ins : List (Int × BitVec 32)) (smp synch : Nat) (s : State) :
    (groupAccept gn ins smp synch s).sce.live.get 0 0 = s.sce.live.get 0 0 := by
  have htold : (synchTold gn smp synch s).sce.live.get 0 0 = s.sce.live.get 0 0 := count_of_gaps (synchTold_gaps ..) (by decide)
  by_cases h : (s.group gn).starts s.now ∨ (s.group gn).gap smp = 0 ∨ 2 * (s.group gn).gap smp < (s.group gn).smpWrap
  · rw [groupAccept_of_taken rfl h, groupTook_live]
    split_ifs
    · rw [groupStart_unbound, htold]
    · rw [groupPosition_count _ _ _ _ _ _ _ _ (by decide), htold]
    · rw [groupPosition_count _ _ _ _ _ _ _ _ (by decide), sceCount_other _ _ (by decide),
        (groupFill_timing ..).2 0 (by decide), htold]
    · rw [groupPosition_count _ _ _ _ _ _ _ _ (by decide), sceCount_other _ _ (by decide), count_of_gaps (groupRefill_gaps ..) (by decide)]
      exact htold
  · simp only [not_or, Nat.not_lt] at h
    obtain ⟨hfresh, hgap, hold⟩ := h
    rw [groupAccept_of_old rfl (by simpa only [not_or] using hfresh) hgap hold]
    exact bump_other _ _ (by decide)

/-! ### The stale check -/

/-- The group turns stale (R145). -/
def Group.silent (g : Group) (now : Nat) : Bool := g.en && g.state == 1 && decide (g.lastArr + ms g.gapTime ≤ now)

theorem groupStaleCheck_timing (s : State) (gn j : Nat) : ((groupStaleCheck s gn).group j).timing =
    { (s.group j).timing with state := if j = gn ∧ (s.group j).silent s.now = true then 2 else (s.group j).state } := by
  have hstale : ∀ g p r (u : State), (acqStale g p r u).gaps = u.gaps := fun _ _ _ u => gaps_of_only (ps := [.acq, .bki, .evr]) (by simp)
      (by decide)
  unfold groupStaleCheck
  dsimp only
  split
  case isTrue h =>
    rw [group_of_gaps (hstale ..), group_of_gaps (groupEvent_gaps ..), group_of_gaps (sceCount_gaps _ _ (by decide))]
    by_cases hj : j = gn
    · rw [hj, State.group_setGroup_same, if_pos ⟨rfl, h⟩]
      rfl
    · rw [State.group_setGroup_other _ _ hj, if_neg fun hn => hj hn.1]
      rfl
  case isFalse h =>
    have hno : ¬ (j = gn ∧ (s.group j).silent s.now = true) := fun hn => h (by
      obtain ⟨rfl, hs⟩ := hn
      exact hs)
    rw [if_neg hno]
    rfl

theorem groupStaleCheck_now (s : State) (gn : Nat) : (groupStaleCheck s gn).now = s.now := by
  have h := (groupStaleCheck_only (qs := [.sce, .insts, .mlk, .acq, .bki, .evr]) s gn (Only.refl _ s) (by simp)).same .time (by decide)
  exact congrArg Time.age (h :)

theorem checked_of_gaps {s t : State} (h : t.gaps = s.gaps) : t.sce.lastCheck = s.sce.lastCheck := (congrArg Gaps.checked h :)

theorem groupStaleCheck_checked (s : State) (gn : Nat) : (groupStaleCheck s gn).sce.lastCheck = s.sce.lastCheck := by
  have hstale : ∀ g p r (u : State), (acqStale g p r u).gaps = u.gaps := fun _ _ _ u => gaps_of_only (ps := [.acq, .bki, .evr]) (by simp)
      (by decide)
  unfold groupStaleCheck
  dsimp only
  split
  case isTrue => rw [checked_of_gaps (hstale ..), checked_of_gaps (groupEvent_gaps ..), checked_of_gaps (sceCount_gaps _ _ (by decide))]; rfl
  case isFalse => rfl

theorem staleChecks_checked (l : List Nat) (s : State) : (l.foldl groupStaleCheck s).sce.lastCheck = s.sce.lastCheck := by
  induction l generalizing s with
  | nil => rfl
  | cons a l ih => rw [List.foldl_cons, ih, groupStaleCheck_checked]

theorem staleChecks_only (l : List Nat) (s : State) : Only [.sce, .insts, .mlk, .acq, .bki, .evr] s (l.foldl groupStaleCheck s) := by
  induction l generalizing s with
  | nil => exact Only.refl _ s
  | cons a l ih => exact (groupStaleCheck_only s a (Only.refl _ s) (by simp)).trans (ih _)

theorem staleChecks_timing (l : List Nat) (s : State) (j : Nat) : ((l.foldl groupStaleCheck s).group j).timing =
    { (s.group j).timing with state := if j ∈ l ∧ (s.group j).silent s.now = true then 2 else (s.group j).state } := by
  induction l generalizing s with
  | nil =>
    rw [if_neg fun h => List.not_mem_nil h.1]
    rfl
  | cons a l ih =>
    have hstep := groupStaleCheck_timing s a j
    have hstate : ((groupStaleCheck s a).group j).state = _ := (congrArg Group.state hstep :)
    have hsilent : ((groupStaleCheck s a).group j).silent (groupStaleCheck s a).now = _ :=
      (congrArg (fun g : Group => g.silent (groupStaleCheck s a).now) hstep :)
    rw [List.foldl_cons, ih, hstep, hsilent, hstate, groupStaleCheck_now]
    by_cases hs : j = a ∧ (s.group j).silent s.now = true
    · have hdone : Group.silent { (s.group j).timing with state := 2 } s.now = false := by simp [Group.silent]
      rw [if_pos hs, hdone, if_neg fun h => Bool.false_ne_true h.2, if_pos ⟨hs.1 ▸ List.mem_cons_self, hs.2⟩]
    · have hsame : Group.silent { (s.group j).timing with state := (s.group j).state } s.now = (s.group j).silent s.now := rfl
      rw [if_neg hs, hsame]
      by_cases hl : j ∈ l ∧ (s.group j).silent s.now = true
      · rw [if_pos hl, if_pos ⟨List.mem_cons_of_mem _ hl.1, hl.2⟩]
      · rw [if_neg hl, if_neg fun h => (List.mem_cons.1 h.1).elim (fun he => hs ⟨he, h.2⟩) fun hm => hl ⟨hm, h.2⟩]

/-! ### An ASDU of one group -/

theorem copyDone_sce (n entry gen : Nat) (nonPort : Bool) (s : State) : (copyDone n entry gen nonPort s).sce = s.sce :=
  (copyDone_only n entry gen nonPort s (qs := [.sw, .insts, .bki, .evr, .mbx]) (Only.refl _ s) (by simp)).same .sce (by decide)

theorem copyDone_group (n entry gen : Nat) (nonPort : Bool) (s : State) (g : Nat) : (copyDone n entry gen nonPort s).group g = s.group g := by
  simp only [State.group, copyDone_sce]

theorem groupRestore_live (gn : Nat) (s : State) : (groupRestore gn s).sce.live = s.sce.live := by
  have hctx : ∀ (l : List Nat) (u : State), (l.foldl (fun s n => s.setCtx n fun x => { x with bad := false }) u).sce.live =
      u.sce.live := fun l => by
    induction l with
    | nil => exact fun _ => rfl
    | cons a l ih => exact fun u => ih _
  unfold groupRestore
  dsimp only
  split
  · exact hctx ..
  · rfl

/-- A restored group keeps its counts, and stands as it did or starts anew. -/
theorem groupRestore_timing (gn : Nat) (s : State) :
    ∃ σ, ((groupRestore gn s).group gn).timing = { (s.group gn).timing with state := σ } ∧ (σ = (s.group gn).state ∨ σ ≠ 1) := by
  unfold groupRestore
  dsimp only
  split
  · refine ⟨if (s.group gn).state = 1 then 0 else (s.group gn).state, ?_, ?_⟩
    · rw [State.group_setGroup_same]
      have hg := group_of_gaps (foldl_gaps (s.group gn).ctxNums (fun s n => s.setCtx n fun x => { x with bad := false })
          (fun _ _ => State.setCtx_gaps ..) s) gn
      exact (congrArg (fun g : Group => { g with state := if g.state = 1 then 0 else g.state }) hg :)
    · split
      · exact .inr (by decide)
      · exact .inl rfl
  · exact ⟨_, rfl, .inl rfl⟩

/-- An ASDU that is not old is taken by its group, restored or not. -/
theorem groupAccept_of_restored {gn smp synch : Nat} {ins : List (Int × BitVec 32)} {s : State}
    (h : (s.group gn).state ≠ 1 ∨ (s.group gn).lastArr + ms (s.group gn).gapTime ≤ s.now ∨ (s.group gn).gap smp = 0
      ∨ 2 * (s.group gn).gap smp < (s.group gn).smpWrap) :
    ∃ σ e, Taken gn smp synch s (groupAccept gn ins smp synch (groupRestore gn s)) σ e := by
  obtain ⟨σ, ht, hσ⟩ := groupRestore_timing gn s
  have hnow : (groupRestore gn s).now = s.now :=
    congrArg Time.age ((groupRestore_only gn s (qs := [.sce]) (Only.refl _ s) (by simp)).same .time (by decide) :)
  generalize groupRestore gn s = u at *
  have hstate : (u.group gn).state = σ := (congrArg Group.state ht :)
  have harr : (u.group gn).lastArr = (s.group gn).lastArr := (congrArg Group.lastArr ht :)
  have htime : (u.group gn).gapTime = (s.group gn).gapTime := (congrArg Group.gapTime ht :)
  have hwrap : (u.group gn).smpWrap = (s.group gn).smpWrap := (congrArg Group.smpWrap ht :)
  have hgap : (u.group gn).gap smp = (s.group gn).gap smp := (congrArg (fun g : Group => g.gap smp) ht :)
  have hentry : (u.group gn).entry = (s.group gn).entry := (congrArg Group.entry ht :)
  have hnch : (u.group gn).nch = (s.group gn).nch := (congrArg Group.nch ht :)
  have hfresh : (u.group gn).starts u.now ∨ (u.group gn).gap smp = 0 ∨ 2 * (u.group gn).gap smp < (u.group gn).smpWrap := by
    rw [Group.starts, hstate, harr, htime, hwrap, hgap, hnow]
    rcases hσ with hσ | hσ
    · rw [hσ]
      tauto
    · exact .inl (.inl hσ)
  obtain ⟨τ, e, hk⟩ := groupAccept_takes (ins := ins) (synch := synch) hfresh
  exact ⟨τ, e, hk.smp, hk.synch, hk.known, hk.arr.trans hnow, hk.entry.trans hentry, hk.nch.trans hnch, hk.state, hk.ext⟩

/-- Settles O28. -/
theorem conditioningCommandsComplete : Obligations.ConditioningCommandsComplete := by
  refine ⟨?_, ?_, ?_, ?_, ?_⟩
  case refine_1 =>
    intro v q s h
    refine ⟨_, exec_sceCopy h, ?_, ?_⟩
    · refine copyDone_only _ _ _ _ _ ?_ (by simp)
      exact Only.trans (t := sceTook q s) (by simp [sceTook]) ((sceTakes_only v _).mono (by simp))
    · have hw := (copyDone_waiting v.frame v.entry v.gen true (sceTakes v (sceTook q s))).trans (sceTakes_waiting ..)
      exact congrArg (fun x => x.1) hw
  case refine_2 =>
    intro v q s h hcrc
    have htakes : sceTakes v (sceTook q s) = swCount 18 (sceTook q s) := if_pos (by rw [Bool.not_eq_true']; exact hcrc)
    refine ⟨_, exec_sceCopy h, ?_, ?_, ?_⟩
    · rw [htakes]
      exact copyDone_only _ _ _ _ _ (by simp [sceTook]) (by simp)
    · have hw := (copyDone_waiting v.frame v.entry v.gen true (sceTakes v (sceTook q s))).trans (sceTakes_waiting ..)
      exact congrArg (fun x => x.1) hw
    · rw [copyDone_swLive, htakes]
      exact bump_same ..
  case refine_3 =>
    intro v q s h hcrc hnone
    have hbound : boundGroups v (sceTook q s) = boundGroups v s := rfl
    have hstop : (!(sceTook q s).sce.en || boundGroups v (sceTook q s) == []) = true := by
      rcases hnone with hen | hnone
      · have hoff : (sceTook q s).sce.en = false := hen
        simp [hoff]
      · have hempty : boundGroups v s = [] := by
          simp only [boundGroups, List.map_eq_nil_iff, List.filter_eq_nil_iff, Bool.and_eq_true, beq_iff_eq, not_and]
          exact hnone
        rw [hbound, hempty]
        simp
    have hok : ¬ (!((sceTook q s).stored v.frame).crcOk) = true := by
      rw [Bool.not_eq_true', Bool.not_eq_false]
      exact hcrc
    have htakes : sceTakes v (sceTook q s) = sceCount 0 (sceTook q s) := (if_neg hok).trans (if_pos hstop)
    refine ⟨_, exec_sceCopy h, ?_, ?_, ?_⟩
    · rw [htakes]
      exact copyDone_only _ _ _ _ _ (sceCount_only 0 _ 1 (by simp [sceTook]) (by simp)) (by simp)
    · rw [htakes, (copyDone_only _ _ _ _ _ (qs := [.sw, .insts, .bki, .evr, .mbx]) (Only.refl _ _) (by simp)).same .sce (by decide)]
      rfl
    · have hw := (copyDone_waiting v.frame v.entry v.gen true (sceTakes v (sceTook q s))).trans (sceTakes_waiting ..)
      exact congrArg (fun x => x.1) hw
  case refine_4 =>
    intro v q gn a s h hcrc hen hbound hasdus hchecks hfresh
    have hok : ¬ (!((sceTook q s).stored v.frame).crcOk) = true := by
      rw [Bool.not_eq_true', Bool.not_eq_false]
      exact hcrc
    have hgo : ¬ (!(sceTook q s).sce.en || boundGroups v (sceTook q s) == []) = true := by
      have hon : (sceTook q s).sce.en = true := hen
      have hone : boundGroups v (sceTook q s) = [gn] := hbound
      simp [hon, hone]
    have htakes : sceTakes v (sceTook q s) = groupAsdu gn a.svId a (sceTook q s) := by
      have hone : boundGroups v (sceTook q s) = [gn] := hbound
      have hframe : groupFrame ((sceTook q s).stored v.frame).octets (sceTook q s) gn = groupAsdu gn a.svId a (sceTook q s) := by
        have has : frameAsdus ((sceTook q s).stored v.frame).octets = some [a] := hasdus
        rw [groupFrame, has]
        rfl
      refine (if_neg hok).trans ((if_neg hgo).trans ?_)
      rw [hone]
      exact hframe
    have haccept : sceTakes v (sceTook q s) = groupAccept gn ((((s.group gn).ctxNums.map s.ctx)).map fun x => channelAt
        (a.data.getD []) x.chanPos)
        (a.smpCnt.getD 0) a.synch (groupRestore gn (sceTook q s)) := by
      have hchecks' : asduFails ((sceTook q s).group gn) (((sceTook q s).group gn).ctxNums.map (sceTook q s).ctx) a.svId a = none := hchecks
      rw [htakes, groupAsdu]
      dsimp only
      rw [hchecks']
      rfl
    obtain ⟨σ, e, ht⟩ := groupAccept_of_restored (ins := ((s.group gn).ctxNums.map s.ctx).map fun x => channelAt (a.data.getD []) x.chanPos)
      (synch := a.synch) (s := sceTook q s) hfresh
    refine ⟨_, exec_sceCopy h, ?_, ?_, ?_⟩
    · rw [copyDone_group, haccept]
      exact ht.smp
    · rw [copyDone_group, haccept]
      exact ht.arr
    · rw [copyDone_sce, haccept, groupAccept_unbound]
      exact congrArg (fun l : Tbl Nat => l.get 0 0) (groupRestore_live gn (sceTook q s))
  case refine_5 =>
    intro s hdue
    have hexec : exec .sceStaleCheck s = .next ((s.sce.groups.map fun p => p.1).foldl groupStaleCheck
        (s.modSce fun c => { c with lastCheck := s.now })) := by
      have he : exec .sceStaleCheck s = execSceStaleCheck s := rfl
      rw [he, execSceStaleCheck, whenDue_now _ hdue]
    refine ⟨_, hexec, ?_, ?_, fun gn hgn => ?_⟩
    · refine Only.trans (t := s.modSce fun c => { c with lastCheck := s.now }) (by simp) ((staleChecks_only _ _).mono (by simp))
    · exact staleChecks_checked ..
    · have ht := staleChecks_timing (s.sce.groups.map fun p => p.1) (s.modSce fun c => { c with lastCheck := s.now }) gn
      refine ⟨(congrArg Group.state ht :).trans ?_, (congrArg Group.lastSmp ht :)⟩
      have hsilent : (s.group gn).silent s.now = true ↔
          (s.group gn).en = true ∧ (s.group gn).state = 1 ∧ (s.group gn).lastArr + ms (s.group gn).gapTime ≤ s.now := by
        simp [Group.silent, and_assoc]
      exact if_congr ((and_iff_right hgn).trans hsilent) rfl rfl

end Sys2Proof.Machine
end

section
/-!
PROOFS. A refutation of O29: a trigger counter beyond its 64 bits is not brought within them by an edge that triggers no stream.
-/
namespace Sys2Proof.Machine
open Sys2Proof

/-- The trigger input is on for both edges, no stream is enabled, and the counter of its triggers holds a value that 64 bits cannot. -/
def overfullTriggersState : State := { acq := { trigInEn := true, trigInEdge := 2, live := [(5, 2 ^ 64)] } }

/-- The edge is the last accepted one, and triggers no stream. -/
def acceptedEdge (s : State) : State :=
  acqTrigger (s.trigNow 0) (fun st => st.en || st.causeEn.getLsbD 0) (s.modAcq fun a => { a with trigIn := true, lastEdge := some s.now })

theorem exec_trigInEdge_overfull : exec (.trigInEdge true 1) overfullTriggersState = .next (acceptedEdge overfullTriggersState) := rfl

theorem acceptedEdge_overfull_count : (acceptedEdge overfullTriggersState).acq.live.get 5 0 = 2 ^ 64 := by
  decide

/-- Refutes O29: with no stream triggered the edge leaves the counter at 2^64, and the count of none held at 64 bits is 2^64 - 1. -/
theorem not_acquisitionCommandsComplete : ¬ Obligations.AcquisitionCommandsComplete := by
  intro h
  obtain ⟨-, -, -, -, -, -, -, hedge⟩ := h
  obtain ⟨t, hexec, -, -, -, -, hcount, -⟩ := hedge true 1 overfullTriggersState (by decide) (by decide) rfl rfl (fun last h => by cases h)
  rw [exec_trigInEdge_overfull] at hexec
  rw [← Host.Outcome.next.inj hexec, acceptedEdge_overfull_count] at hcount
  exact absurd hcount (by decide)

end Sys2Proof.Machine
end

section
/-!
PROOFS. The hardware locks (R199 to R205): what a try-acquire, a release and a write of LCK_ASSIGN make of a lock. The obligation O30.
-/
namespace Sys2Proof.Machine
open Sys2Proof

section
variable {i g hart j n : Nat} {s : State}

@[simp] theorem State.lock_setLock_same (s : State) (n : Nat) (l : Lock) : (s.setLock n l).lock n = l := by simp [State.lock, State.setLock]

theorem State.lock_setLock_other (s : State) {n m : Nat} (l : Lock) (h : m ≠ n) : (s.setLock n l).lock m = s.lock m := by
  simp [State.lock, State.setLock, Tbl.get_set_other _ _ _ h]

theorem answer_lock (i : Nat) (vals : List Nat) (s : State) (n : Nat) : (answer i vals s).lock n = s.lock n := rfl

theorem answer_ret (i : Nat) (vals : List Nat) (s : State) : ((answer i vals s).inst i).ret = vals := by
  rw [answer, State.inst_setInst_same]

/-! ### Try-acquire and release -/

theorem exec_lockTryAcquire (h : s.genCurrent i g = true) (hn : lockAt i j s = some n) : exec (.lockTryAcquire (.inst i g) hart j) s =
    .next (answer i [((s.lock n).tryBy false i g hart).1] (s.setLock n ((s.lock n).tryBy false i g hart).2)) := by
  have he : exec (.lockTryAcquire (.inst i g) hart j) s = execLockTryAcquire (.inst i g) hart j s := rfl
  simp [he, execLockTryAcquire, lockTry, h, hn]

theorem exec_lockTryAcquire_unassigned (h : s.genCurrent i g = true) (hn : lockAt i j s = none) :
    exec (.lockTryAcquire (.inst i g) hart j) s = .next (answer i [denied] s) := by
  have he : exec (.lockTryAcquire (.inst i g) hart j) s = execLockTryAcquire (.inst i g) hart j s := rfl
  simp [he, execLockTryAcquire, lockTry, h, hn]

theorem exec_lockTryAcquire_late (h : s.genCurrent i g = false) :
    exec (.lockTryAcquire (.inst i g) hart j) s = .next (lateAt .lck 0 i s) := by
  have he : exec (.lockTryAcquire (.inst i g) hart j) s = execLockTryAcquire (.inst i g) hart j s := rfl
  simp [he, execLockTryAcquire, lockTry, h]

theorem Lock.tryBy_of_held {l : Lock} (h : l.held = true) (mgp : Bool) (i g core : Nat) : l.tryBy mgp i g core = (lockWord 1 l, l) := by
  simp [Lock.tryBy, h]

/-- A lock that is not held is taken: the word shows the dead holder of a broken one, and the taker of a free one. -/
theorem Lock.tryBy_of_open {l : Lock} (h : l.held = false) (i g core : Nat) : l.tryBy false i g core =
    (if l.broken then lockWord 2 l else i * 2 ^ 20 + g * 2 ^ 4,
      { l with held := true, broken := false, byMgp := false, holder := i, holderGen := g, hart := core }) := by
  cases hb : l.broken <;> simp [Lock.tryBy, h, hb, lockWord, b2n]

theorem exec_lockRelease {v : BitVec 32} (h : s.genCurrent i g = true) (hv : v.getLsbD 0 = true) (hn : lockAt i j s = some n) :
    exec (.lockRelease (.inst i g) j v) s =
      .next (if (s.lock n).heldBy i g then s.setLock n { s.lock n with held := false } else badRelease (.inst i g) n s) := by
  have he : exec (.lockRelease (.inst i g) j v) s = .next (lockRelease (.inst i g) j v s) := rfl
  rw [he, lockRelease]
  simp only [h, hv, hn, Bool.not_true, Bool.false_eq_true, if_false]

/-! ### Assignment -/

/-- A free lock given to another owner, whose index no other enabled lock of that owner has, is as new (R205). -/
theorem lockAssigned_of_newOwner {n owner index : Nat} {s : State} {ok : Bool} (hheld : (s.lock n).held = false) (howner : owner ≠ (s.lock n).owner)
    (hfree : ∀ p ∈ s.insts.locks, p.1 ≠ n → p.2.en = true → p.2.owner = owner → p.2.index ≠ index) :
    lockAssigned n true ok owner index s =
      some { s.lock n with en := true, mgpOk := ok, owner := owner, index := index, broken := false, byMgp := false, holder := 0, holderGen := 0 } := by
  have hnone : ¬ (true && s.insts.locks.any fun p => p.1 ≠ n && p.2.en && p.2.owner == owner && p.2.index == index) = true := by
    simp only [Bool.true_and, List.any_eq_true, Bool.and_eq_true, decide_eq_true_eq, beq_iff_eq, not_exists, not_and]
    rintro p hp ⟨⟨hne, hpen⟩, ho⟩
    exact hfree p hp hne hpen ho
  have hnot : ¬ (s.lock n).held = true := by simp [hheld]
  unfold lockAssigned
  dsimp only
  rw [if_neg hnot, if_neg hnone, if_pos (.inl howner)]

theorem refreshOver_locks (i : Nat) (s : State) : (refreshOver i s).insts.locks = s.insts.locks := by
  have hemit : ∀ a b c d e f (u : State), (emit a b c d u e f).insts = u.insts := fun a b c d e f u =>
    (emit_only a b c d u e f (qs := [.bki, .evr, .mbx]) (Only.refl _ u) (by simp)).same .insts (by decide)
  unfold refreshOver
  dsimp only
  split
  · rw [hemit]
    rfl
  · rfl

theorem refreshOver_lock (i : Nat) (s : State) (n : Nat) : (refreshOver i s).lock n = s.lock n := by
  simp only [State.lock, refreshOver_locks]

end

/-- Settles O30. -/
theorem lockWordsAndRelease : Obligations.LockWordsAndRelease := by
  refine ⟨?_, ?_, ?_, ?_, ?_, ?_⟩
  case refine_1 =>
    intro i g hart j n s hg hn
    refine ⟨_, exec_lockTryAcquire hg hn, by simp, fun m hm => ?_, fun hl => ?_, fun hl => ?_⟩
    · rw [answer_lock, State.lock_setLock_other _ _ hm]
    · rw [answer_lock, State.lock_setLock_same, answer_ret, Lock.tryBy_of_held hl]
      exact ⟨rfl, rfl⟩
    · rw [answer_lock, State.lock_setLock_same, answer_ret, Lock.tryBy_of_open hl]
      refine ⟨rfl, ?_⟩
      split <;> rfl
  case refine_2 =>
    intro i g hart j s hg hn
    exact ⟨_, exec_lockTryAcquire_unassigned hg hn, by simp, rfl, answer_ret ..⟩
  case refine_3 =>
    intro i g hart j s hg
    refine ⟨_, exec_lockTryAcquire_late hg, by simp, rfl, ?_, ?_⟩
    · exact congrArg Inst.lateDiscards (State.inst_setInst_same ..)
    · exact congrArg FaultSet.late (State.fset_setFset_same s .lck 0 fun f => { f with late := satAdd 32 f.late 1 })
  case refine_4 =>
    intro i g j n v s hg hv hn
    refine ⟨_, exec_lockRelease hg hv hn, by simp, fun hl => ?_, fun hl => ?_⟩
    · rw [if_pos hl]
      exact ⟨State.lock_setLock_same .., rfl, fun m hm => State.lock_setLock_other _ _ hm⟩
    · rw [if_neg (Bool.eq_false_iff.1 hl)]
      have hinsts : (badRelease (.inst i g) n s).insts = { s.insts with badRelease := satAdd 32 s.insts.badRelease 1 } :=
        (note_only .lck 0 0x3C1 0 (.inst i g) (leBytes 4 n) (s.modInsts fun x => { x with badRelease := satAdd 32 x.badRelease 1 })
          (qs := [.bki, .evr]) (Only.refl _ _) (by simp)).same .insts (by decide)
      rw [hinsts]
      exact ⟨rfl, rfl⟩
  case refine_5 =>
    intro n v s hn hheld
    refine ⟨s, ?_, rfl⟩
    have he : exec (.lckAssignWrite n v) s = execLckAssignWrite n v s := rfl
    simp [he, execLckAssignWrite, writeAssign, lockAssigned, hheld]
  case refine_6 =>
    intro n v s hn hheld hen howner hfree
    have he : exec (.lckAssignWrite n v) s =
        .next (writeAssign n (bitOf v 31) (bitOf v 30) (bits v 29 21) (bits v 20 17) s) := by
      have h0 : exec (.lckAssignWrite n v) s = execLckAssignWrite n v s := rfl
      rw [h0, execLckAssignWrite, if_pos hn]
    rw [writeAssign, hen, lockAssigned_of_newOwner hheld howner hfree] at he
    have hshow : ∀ (i o : Nat) (l : Lock), Only [.insts, .evr, .bki, .mbx] s (refreshOver i (refreshOver o (s.setLock n l))) := fun i o l =>
      Only.trans (t := refreshOver o (s.setLock n l)) (by simp) (by simp)
    refine ⟨_, he, hshow .., fun m hm => ?_, ?_⟩
    · rw [refreshOver_lock, refreshOver_lock, State.lock_setLock_other _ _ hm]
    · rw [refreshOver_lock, refreshOver_lock, State.lock_setLock_same]
      exact ⟨rfl, rfl, rfl, rfl, rfl, rfl, rfl⟩

end Sys2Proof.Machine
end

section
/-!
PROOFS. A refutation of O31: over a local store that lists an octet twice, a write of zero uncovers the second cell.
-/
namespace Sys2Proof.Machine
open Sys2Proof

/-- A word as it was written, read with no injection armed, is found sound (R56). -/
theorem CoreAcc.found_of_unharmed {c : CoreAcc} {w : Window} {core i : Nat} {s : State} (hword : c.word = {})
    (hinj : (let f := (c.locs w core i (c.phys w (s.inst i))).2.finder; (s.fset f.1 f.2.1).injArm = false)) :
    (c.found w core i s).syn.kind = none := by
  have hseen : ∀ (st : Storage) (a : Nat) (x : BitVec 128), (decodeWord (({} : WordRead).seen st a x)).kind = none := fun st a x => by
    simpa [WordRead.seen, Storage.codeword] using decodeWord_sound x (st.symbols a)
  dsimp only at hinj
  simp only [CoreAcc.found, readFound, hinj, hword, Bool.false_and, Bool.false_eq_true, if_false]
  exact hseen ..

/-- A write to the local store of a sound word writes its octets (R182). -/
theorem memAccess_write_ls {c : CoreAcc} {i g core : Nat} {s : State} (hwrite : c.write = true)
    (hinj : (let f := (c.locs .ls core i (c.phys .ls (s.inst i))).2.finder; (s.fset f.1 f.2.1).injArm = false))
    (hkind : (c.found .ls core i s).syn.kind = none) : memAccess i g core c .ls s = c.store .ls i (c.phys .ls (s.inst i)) s := by
  dsimp only at hinj
  simp [memAccess, memDone, raiseRead, hkind, ReadFound.lost, readDone, hinj, hwrite]

/-- An access of a live instance to its own local store goes to the memory (R181 to R183). -/
theorem execCoreAccess_of_ls {core : Nat} {a : CoreAcc} {r : Running} {s : State} (hcore : core < 64)
    (hhas : (s.psc (core / 8)).cores.has (core % 8) = true)
    (hr : (s.psc (core / 8)).cores.get (core % 8) { entry := 0, inst := 0, gen := 0, hart := 0, a2 := 0 } = r)
    (hlive : s.genCurrent r.inst r.gen = true) (hcall : a.call = none) (htrap : a.trap = false)
    (hwindow : (s.inst r.inst).window a.addr a.octets.length = some .ls) (hown : a.foreign .ls r.inst s = none) :
    execCoreAccess core a s = .next (memAccess r.inst r.gen core a .ls s) := by
  rw [execCoreAccess, if_pos ⟨hcore, hhas⟩]
  dsimp only
  rw [hr]
  simp [hlive, hcall, htrap, hwindow, hown]

/-- Instance 0 runs on core 0 and owns the one granule of its local store, whose memory is not canonical: octet 0 stands in it twice. -/
def doubledOctetState : State :=
  { insts := { desc := [(0, { state := .running, lsMap := [0] })], lsOwner := [(0, 1)], lsMem := [(0, 1), (0, 2)] },
    sched := { pscs := [(0, { cores := [(0, { entry := 0, inst := 0, gen := 0, hart := 0, a2 := 0 })] })] } }

/-- A write of one zero octet at address 0. -/
def zeroOctetWrite : CoreAcc := { write := true, octets := [0] }

theorem zeroOctetWrite_sound : (zeroOctetWrite.found .ls 0 0 doubledOctetState).syn.kind = none :=
  CoreAcc.found_of_unharmed rfl rfl

theorem zeroOctetWrite_window : (doubledOctetState.inst 0).window zeroOctetWrite.addr zeroOctetWrite.octets.length = some .ls := rfl

theorem zeroOctetWrite_own : zeroOctetWrite.foreign .ls 0 doubledOctetState = none := by
  rfl

theorem doubledOctet_read : (zeroOctetWrite.store .ls 0 0 doubledOctetState).insts.lsMem.read1 0 = 2 := by
  rfl

theorem exec_coreAccess_doubledOctet : exec (.coreAccess 0 zeroOctetWrite) doubledOctetState =
    .next (zeroOctetWrite.store .ls 0 0 doubledOctetState) := by
  have he : exec (.coreAccess 0 zeroOctetWrite) doubledOctetState = execCoreAccess 0 zeroOctetWrite doubledOctetState := rfl
  rw [he, execCoreAccess_of_ls (r := { entry := 0, inst := 0, gen := 0, hart := 0, a2 := 0 }) (by decide) rfl rfl rfl rfl rfl zeroOctetWrite_window zeroOctetWrite_own, memAccess_write_ls rfl rfl zeroOctetWrite_sound]
  rfl

/-- Refutes O31: the write removes the first of two cells that hold octet 0, which then reads as the second does. -/
theorem not_coreAccessesStayInsideTheInstance : ¬ Obligations.CoreAccessesStayInsideTheInstance := by
  intro h
  obtain ⟨hwrite, -⟩ := h
  obtain ⟨t, hexec, -, -, -, hls, -⟩ := hwrite 0 zeroOctetWrite _ .ls doubledOctetState (by decide) rfl rfl rfl rfl rfl zeroOctetWrite_window
    (.inl rfl) zeroOctetWrite_own rfl rfl zeroOctetWrite_sound rfl rfl (by decide) rfl
  obtain ⟨-, hoctets, -⟩ := hls rfl
  rw [exec_coreAccess_doubledOctet] at hexec
  have hzero := hoctets 0 (by decide)
  rw [← Host.Outcome.next.inj hexec] at hzero
  exact absurd (doubledOctet_read.symm.trans hzero) (by decide)

end Sys2Proof.Machine
end

section
/-!
PROOFS. Granules cleared and given back (R180, R192). The obligation O33.
-/
namespace Sys2Proof.Machine
open Sys2Proof

/-! ### A cleared range -/

theorem Memory.read1_clear (m : Memory) (k n p : Nat) : (m.clear k n).read1 p = if k ≤ p ∧ p < k + n then 0 else m.read1 p := by
  induction m with
  | nil => simp [Memory.clear, Memory.read1]
  | cons c m ih =>
    obtain ⟨a, b⟩ := c
    have hclear : Memory.clear ((a, b) :: m) k n = if a < k ∨ k + n ≤ a then (a, b) :: Memory.clear m k n else Memory.clear m k n := by
      by_cases h : a < k ∨ k + n ≤ a <;> simp [Memory.clear, h]
    by_cases ha : a = p
    · subst ha
      by_cases hin : k ≤ a ∧ a < k + n
      · rw [hclear, if_neg (by omega), ih]
        simp [hin]
      · rw [hclear, if_pos (by omega)]
        simp [Memory.read1, hin]
    · rw [hclear]
      split
      · simp [Memory.read1, ha, ih]
      · simp [Memory.read1, ha, ih]

/-! ### The descriptors while OVER is brought up to date -/

theorem emit_inst (opcode : Nat) (inst : Option Nat) (gen : Nat) (vals : List Nat) (s : State) (tag : Nat) (st : Status) (j : Nat) :
    (emit opcode inst gen vals s tag st).inst j = s.inst j := by
  have h : (emit opcode inst gen vals s tag st).insts = s.insts :=
    (emit_only opcode inst gen vals s tag st (qs := [.bki, .evr, .mbx]) (Only.refl _ s) (by simp)).same .insts (by decide)
  rw [State.inst, h]
  rfl

theorem lsGive_inst (gs : List Nat) (s : State) (j : Nat) : (lsGive gs s).inst j = s.inst j := rfl

theorem dramGive_inst (gs : List Nat) (s : State) (j : Nat) : (dramGive gs s).inst j = s.inst j := rfl

/-- OVER brought up to date is all that changes in the descriptors (R192). -/
theorem refreshOver_inst_same (i : Nat) (s : State) : ∃ o, (refreshOver i s).inst i = { s.inst i with overBits := o } := by
  unfold refreshOver
  dsimp only
  split
  · exact ⟨s.overNow i, by rw [emit_inst, State.inst_setInst_same]⟩
  · exact ⟨_, rfl⟩

theorem refreshOver_inst_other {i j : Nat} (s : State) (h : j ≠ i) : (refreshOver i s).inst j = s.inst j := by
  unfold refreshOver
  dsimp only
  split
  · rw [emit_inst, State.inst_setInst_other _ _ h]
  · rfl

/-- What is being cleared stays as it is while OVER is brought up to date. -/
theorem refreshOver_clearing (i : Nat) (s : State) :
    (refreshOver i s).insts.lsClearing = s.insts.lsClearing ∧ (refreshOver i s).insts.dramClearing = s.insts.dramClearing := by
  have hemit : ∀ a b c d e f (u : State), (emit a b c d u e f).insts = u.insts := fun a b c d e f u =>
    (emit_only a b c d u e f (qs := [.bki, .evr, .mbx]) (Only.refl _ u) (by simp)).same .insts (by decide)
  unfold refreshOver
  dsimp only
  split
  · rw [hemit]
    exact ⟨rfl, rfl⟩
  · exact ⟨rfl, rfl⟩

/-! ### The commands -/

theorem exec_granuleCleared_dram {g : Nat} {s : State} (hclear : s.insts.dramClearing.contains g = true) (hclock : s.clockUp .dmc = true) :
    exec (.granuleCleared true g) s =
      .next (clearDram [g] (s.modInsts fun n => { n with dramClearing := n.dramClearing.filter (· ≠ g) })) := by
  have he : exec (.granuleCleared true g) s = execGranuleCleared true g s := rfl
  rw [he, execGranuleCleared, if_pos rfl, if_pos ⟨hclock, hclear⟩]

theorem exec_granuleCleared_waits {g : Nat} {s : State} (hclock : s.clockUp .dmc = false) : exec (.granuleCleared true g) s = .next s := by
  have he : exec (.granuleCleared true g) s = execGranuleCleared true g s := rfl
  simp [he, execGranuleCleared, hclock]

theorem exec_granuleCleared_ls {g : Nat} {s : State} (hclear : s.insts.lsClearing.contains g = true) :
    exec (.granuleCleared false g) s = .next (clearLs [g] (s.modInsts fun n => { n with lsClearing := n.lsClearing.filter (· ≠ g) })) := by
  have he : exec (.granuleCleared false g) s = execGranuleCleared false g s := rfl
  rw [he, execGranuleCleared, if_neg Bool.false_ne_true, if_pos hclear]

section
variable {i g n : Nat} {s : State}

theorem exec_release_dram (hg : s.genCurrent i g = true) (hn : n ≤ (s.inst i).dramMap.length) : exec (.release i g 1 n) s =
    .next (answer i [0, (s.inst i).dramMap.length - n] (refreshOver i (dramGive ((s.inst i).dramMap.drop ((s.inst i).dramMap.length - n))
      (s.setInst i fun d => { d with dramMap := d.dramMap.take ((s.inst i).dramMap.length - n) })))) := by
  have he : exec (.release i g 1 n) s = execRelease i g 1 n s := rfl
  simp [he, execRelease, hg, Nat.not_lt.2 hn, Status.code]

theorem exec_release_ls (hg : s.genCurrent i g = true) (hn : n ≤ (s.inst i).lsMap.length)
    (hfree : meetsRegistered i (((s.inst i).lsMap.length - n) * lsGran) (n * lsGran) true s = false) : exec (.release i g 0 n) s =
    .next (answer i [0, (s.inst i).lsMap.length - n] (refreshOver i (lsGive ((s.inst i).lsMap.drop ((s.inst i).lsMap.length - n))
      (s.setInst i fun d => { d with lsMap := d.lsMap.take ((s.inst i).lsMap.length - n) })))) := by
  have he : exec (.release i g 0 n) s = execRelease i g 0 n s := rfl
  simp [he, execRelease, hg, Nat.not_lt.2 hn, hfree, Status.code]

theorem exec_release_tooMany (hg : s.genCurrent i g = true) (hn : (s.inst i).dramMap.length < n) :
    exec (.release i g 1 n) s = .next (answer i [0x13, (s.inst i).dramMap.length] s) := by
  have he : exec (.release i g 1 n) s = execRelease i g 1 n s := rfl
  simp [he, execRelease, hg, hn, Status.code]

end

/-- A descriptor as the caller finds it again, once OVER is brought up to date and the call is answered. -/
theorem answered_inst (i : Nat) (vals : List Nat) (s : State) :
    ∃ o, (answer i vals (refreshOver i s)).inst i = { s.inst i with overBits := o, ret := vals } := by
  obtain ⟨o, ho⟩ := refreshOver_inst_same i s
  exact ⟨o, by rw [answer, State.inst_setInst_same, ho]⟩

theorem answered_inst_other {i j : Nat} (vals : List Nat) (s : State) (h : j ≠ i) : (answer i vals (refreshOver i s)).inst j = s.inst j := by
  rw [answer, State.inst_setInst_other _ _ h, refreshOver_inst_other _ h]

theorem answered_only (i : Nat) (vals : List Nat) {s u : State} (h : Only [.insts] s u) :
    Only [.insts, .bki, .evr, .mbx] s (answer i vals (refreshOver i u)) :=
  (h.mono (by simp)).trans (by simp)

/-- Settles O33. -/
theorem granulesComplete : Obligations.GranulesComplete := by
  refine ⟨?_, ?_, ?_, ?_, ?_, ?_⟩
  case refine_1 =>
    intro g s hclear hclock
    refine ⟨_, exec_granuleCleared_dram hclear hclock, by simp, rfl, rfl, rfl, fun p => ?_⟩
    exact Memory.read1_clear ..
  case refine_2 =>
    intro g s hclock
    exact ⟨s, exec_granuleCleared_waits hclock, rfl⟩
  case refine_3 =>
    intro g s hclear
    refine ⟨_, exec_granuleCleared_ls hclear, by simp, rfl, rfl, rfl, fun p => ?_⟩
    exact Memory.read1_clear ..
  case refine_4 =>
    intro i g n s hg hn
    obtain ⟨o, ho⟩ := answered_inst i [0, (s.inst i).dramMap.length - n] (dramGive ((s.inst i).dramMap.drop ((s.inst i).dramMap.length - n))
      (s.setInst i fun d => { d with dramMap := d.dramMap.take ((s.inst i).dramMap.length - n) }))
    have hmid : (dramGive ((s.inst i).dramMap.drop ((s.inst i).dramMap.length - n))
        (s.setInst i fun d => { d with dramMap := d.dramMap.take ((s.inst i).dramMap.length - n) })).inst i =
        { s.inst i with dramMap := (s.inst i).dramMap.take ((s.inst i).dramMap.length - n) } := by
      rw [dramGive_inst, State.inst_setInst_same]
    rw [hmid] at ho
    refine ⟨_, exec_release_dram hg hn, ?_, ?_, ?_, ?_, ?_, fun j hj => ?_⟩
    · exact answered_only i _ (by simp)
    · rw [ho]
    · rw [ho]
    · exact (refreshOver_clearing i _).2
    · rw [ho]
    · rw [answered_inst_other _ _ hj, dramGive_inst, State.inst_setInst_other _ _ hj]
  case refine_5 =>
    intro i g n s hg hn hfree
    obtain ⟨o, ho⟩ := answered_inst i [0, (s.inst i).lsMap.length - n] (lsGive ((s.inst i).lsMap.drop ((s.inst i).lsMap.length - n))
      (s.setInst i fun d => { d with lsMap := d.lsMap.take ((s.inst i).lsMap.length - n) }))
    have hmid : (lsGive ((s.inst i).lsMap.drop ((s.inst i).lsMap.length - n))
        (s.setInst i fun d => { d with lsMap := d.lsMap.take ((s.inst i).lsMap.length - n) })).inst i =
        { s.inst i with lsMap := (s.inst i).lsMap.take ((s.inst i).lsMap.length - n) } := by
      rw [lsGive_inst, State.inst_setInst_same]
    rw [hmid] at ho
    refine ⟨_, exec_release_ls hg hn hfree, ?_, ?_, ?_, ?_, ?_, fun j hj => ?_⟩
    · exact answered_only i _ (by simp)
    · rw [ho]
    · rw [ho]
    · exact (refreshOver_clearing i _).1
    · rw [ho]
    · rw [answered_inst_other _ _ hj, lsGive_inst, State.inst_setInst_other _ _ hj]
  case refine_6 =>
    intro i g n s hg hn
    refine ⟨_, exec_release_tooMany hg hn, by simp, ?_, fun j hj => State.inst_setInst_other _ _ hj⟩
    rw [answer, State.inst_setInst_same]

end Sys2Proof.Machine
end

section
/-!
PROOFS. A refutation of O45: the copies set aside go with the role at the request for WINTER, and the time base counts a stamp that will not be
taken.
-/
namespace Sys2Proof.Machine
open Sys2Proof

/-- A unit that is taking over has set aside a copy for which a transmit stamp is wanted. -/
def stampSetAsideState : State :=
  { season := { season := .summer }, cgu := { role := .taking, setAside := [{ copy := { ts := true } }] } }

theorem exec_seasonRequest (v : BitVec 32) (s : State) : exec (.seasonRequest v) s = .next (writeSeasonCtl v s) := rfl

theorem stampSetAside_unsent : (writeSeasonCtl 0xF0000000 stampSetAsideState).time.owners.has 512 = true := by
  decide

/-- Refutes O45: a forced request for WINTER withholds that copy, and TS_UNSENT of its owner advances (R303). -/
theorem not_seasonsAndTheirWakeSources : ¬ Obligations.SeasonsAndTheirWakeSources := by
  intro h
  obtain ⟨-, -, -, haccepted, -⟩ := h
  obtain ⟨t, hexec, -, -, -, htime, -⟩ := haccepted 0xF0000000 stampSetAsideState (by decide) (by decide) (by decide) (.inl rfl)
  rw [exec_seasonRequest] at hexec
  rw [← Host.Outcome.next.inj hexec] at htime
  exact absurd (htime ▸ stampSetAside_unsent) (by decide)

end Sys2Proof.Machine
end

section
/-!
PROOFS. A refutation of O44: an output sample during the entry into WINTER latches its wake source, which is no part of the island.
-/
namespace Sys2Proof.Machine
open Sys2Proof

/-- An undervoltage element on input 0, whose window fills with this output, trips at once; the entry into WINTER is in progress. -/
def trippingEntryState : State :=
  { bki := { running := true, presetAct := true, inEn := 1, bank0 := [(0, { en := true, type := 4, inputs := 1 })], outCnt := 500,
             outs := [(0, List.replicate 15 0)] },
    season := { changing := some .winter, wakeEn := 2 }, time := { age := 1000000000 }, power := { aonGood := true } }

theorem exec_bkiOutputSample_now {xs : List (List Int)} {cm : List Int} {s : State} (hconverts : s.bkiConverts = true) (hdue : s.bki.nextOut ≤ s.now) :
    exec (.bkiOutputSample xs cm) s = .next (told s (bkiOutput xs cm s)) := by
  have he : exec (.bkiOutputSample xs cm) s = execBkiOutputSample xs cm s := rfl
  rw [he, execBkiOutputSample, if_pos hconverts, whenDue_now _ hdue]

theorem trippingEntry_wake : (bkiOutput [] [] trippingEntryState).season.wakeHeld = some 5 := by
  decide +kernel

/-- Refutes O44: the TRIP is held as wake source 5, in the season registers. -/
theorem not_backstopIslandProtects : ¬ Obligations.BackstopIslandProtects := by
  intro h
  obtain ⟨hsample, -⟩ := h
  obtain ⟨t, hexec, honly, -⟩ := hsample [] [] trippingEntryState (by decide) (by decide) rfl (by decide)
  rw [exec_bkiOutputSample_now (by decide) (by decide)] at hexec
  have hseason := honly.same .season (by decide)
  have htold : (told trippingEntryState (bkiOutput [] [] trippingEntryState)).season = (bkiOutput [] [] trippingEntryState).season :=
    (told_only trippingEntryState _ (qs := [.mbx]) (Only.refl _ _) (by simp)).same .season (by decide)
  rw [← Host.Outcome.next.inj hexec] at hseason
  have hwake := congrArg Season.wakeHeld (htold.symm.trans hseason)
  rw [trippingEntry_wake] at hwake
  exact absurd hwake (by decide)

end Sys2Proof.Machine
end

section
/-!
PROOFS. A refutation of O53: the response of an instance, in its own local store, is a write that its mirror notes.
-/
namespace Sys2Proof.Machine
open Sys2Proof

/-- Instance 0 has a granule of local store, which is mirrored. -/
def mirroredRequesterState : State := { insts := { desc := [(0, { lsMap := [0] })] }, mlk := { mir := [(0, {})] } }

theorem respond_mirrored_dirty : ((respond { src := .inst 0 0 } {} false mirroredRequesterState).mlk.mir.get 0 {}).dirty.isEmpty = false := by
  decide +kernel

/-- Refutes O53: the line of the response slot becomes dirty, so the mirror link changes too (R268, R454). -/
theorem not_requestsAreCheckedInOrder : ¬ Obligations.RequestsAreCheckedInOrder := by
  intro h
  obtain ⟨-, -, -, -, -, hparts⟩ := h
  obtain ⟨-, -, honly⟩ := hparts { src := .inst 0 0 } {} false mirroredRequesterState
  have hmlk := honly.same .mlk (by decide)
  have hdirty := congrArg (fun m : Mlk => (m.mir.get 0 {}).dirty.isEmpty) hmlk
  rw [respond_mirrored_dirty] at hdirty
  exact absurd hdirty (by decide)

end Sys2Proof.Machine
end

section
/-!
PROOFS. Requests that pass the checks of R436: what serving one says of the state that its effect leaves. A refutation of O54.
-/
namespace Sys2Proof.Machine
open Sys2Proof

/-- The response of a served request leaves the island as the effect left it. -/
theorem Served.bki {c : Instr} {r : Req} {opcode : Nat} {s : State} {st : Status} {vals : List Nat} {P : State → Prop}
    (h : Served c r opcode s st vals P) : ∃ u t, P u ∧ exec c s = .next t ∧ t.bki = u.bki := by
  obtain ⟨u, hu, hexec⟩ := h
  exact ⟨u, _, hu, hexec, (respond_only _ _ _ _ (Only.refl _ _) (qs := [.insts, .mlk, .mbx]) (by simp)).same .bki (by decide)⟩

/-- With no effect written out, a request without flags, buffer and instance passes every check. -/
theorem precheck_of_plain (opcode : Nat) (s : State) : precheck opcode {} .no false s = none := rfl

/-- The firmware takes requests, and pair 0 holds one; HB_EN is 1 and may be written 0, since a cold start has come (R350). -/
def openHeartbeatState : State :=
  { mbx := { ready := true, pairs := [(0, { reqTail := 1 })] }, persist := { fwUp := true }, bki := { hbEn := true, hbOpen := true } }

theorem openHeartbeat_clear : Req.clear {} .no false openHeartbeatState :=
  ⟨0, rfl, by decide, by decide, rfl, rfl, by decide, fun opcode => precheck_of_plain opcode _⟩

theorem exec_bkiWrite_hbEn : ∃ t, exec (.bkiWrite {} 0x5000 []) openHeartbeatState = .next t ∧ t.bki.hbEn = false :=
  ⟨_, rfl, by decide⟩

/-- Refutes O54: a BKI_WRITE with HB_EN 0 clears it then. -/
theorem not_modulePowerAndUpdateRequests : ¬ Obligations.ModulePowerAndUpdateRequests := by
  intro h
  obtain ⟨-, -, -, -, -, -, -, -, -, -, -, -, -, -, -, -, -, -, -, -, -, hwrite, -⟩ := h
  have hserved := hwrite {} 0x5000 [] openHeartbeatState openHeartbeat_clear (by decide) (by decide) (by simp) (by decide) rfl (by decide)
  obtain ⟨u, t, ⟨-, -, -, -, -, hhb, -⟩, hexec, hbki⟩ := hserved.bki
  obtain ⟨t', hexec', hhb'⟩ := exec_bkiWrite_hbEn
  rw [hexec'] at hexec
  rw [Host.Outcome.next.inj hexec, hbki, hhb] at hhb'
  exact absurd hhb' (by decide)

end Sys2Proof.Machine
end

section
/-!
PROOFS. A request of a host that passes the checks of R436: what its operation does to the state in which it is taken is what serving it says.
-/
namespace Sys2Proof.Machine
open Sys2Proof

/-- The state with other mailbox pairs: what taking a request of a host changes. -/
def State.withPairs (s : State) (ps : Tbl Pair) : State := s.modMbx fun m => { m with pairs := ps }

theorem take_of_host {r : Req} {k : Nat} (hsrc : r.src = .host k) (s : State) : ∃ ps, take r s = s.withPairs ps :=
  ⟨_, by rw [take, hsrc]; rfl⟩

theorem other_of_precheck {opcode : Nat} {r : Req} {sub : Subset} {need : Bool} {s : State} (h : precheck opcode r sub need s = none) :
    r.other = none := by
  rcases ho : r.other with _ | x
  · rfl
  · unfold precheck at h
    split at h
    · cases h
    · simp [ho] at h

section
variable {r : Req} {sub : Subset} {need : Bool} {s : State} (hclear : Req.clear r sub need s)
include hclear

theorem Req.clear.fwUp : s.persist.fwUp = true := by
  obtain ⟨k, -, htake, -⟩ := hclear
  exact fwUp_of_takeable htake

/-- The operation acts on the taken request's state, and its answer is the response. -/
theorem Req.clear.serve_eq {opcode : Nat} {f : Req → State → State × Ans} {st : Status} {vals : List Nat} {u : State}
    (hst : st ≠ .restarted ∧ st ≠ .timeout) (hf : f r (take r s) = (u, { status := st, result := vals })) (hup : u.persist.fwUp = true) :
    serve r opcode sub need f s = respond r { opcode := opcode, tag := r.tag, inst := r.inst, gen := r.gen, ind := r.buf.isSome,
                                              status := st, result := vals } true u := by
  obtain ⟨k, hsrc, htake, hunwritten, hcrc, hslow, hnew, hpass⟩ := hclear
  have heff : r.effective = r := Req.effective_of_host hsrc
  have hpass := hpass opcode
  have hother := other_of_precheck hpass
  have hv := judge_of_inTime opcode sub need f hcrc hnew (by rwa [heff]) hslow
  rw [heff, hf] at hv
  rw [serve_unwritten opcode sub need f htake hunwritten, serveAs_of_host hsrc hv hup]
  simp only [Req.reply, heff, hother, Option.getD_none, hst, ne_eq, not_false_eq_true, and_self, decide_true]

/-- A request is served when its operation on the taken request's state ends in a state of which `P` holds. -/
theorem Req.clear.served {opcode : Nat} {f : Req → State → State × Ans} {c : Instr} {st : Status} {vals : List Nat} {P : State → Prop}
    (hexec : exec c s = .next (serve r opcode sub need f s)) (hst : st ≠ .restarted ∧ st ≠ .timeout)
    (hf : ∀ ps, take r s = s.withPairs ps →
      ∃ u, f r (s.withPairs ps) = (u, { status := st, result := vals }) ∧ u.persist.fwUp = true ∧ P u) :
    Served c r opcode s st vals P := by
  obtain ⟨k, hsrc, -⟩ := id hclear
  obtain ⟨ps, htake⟩ := take_of_host hsrc s
  obtain ⟨u, hu, hup, hP⟩ := hf ps htake
  exact ⟨u, hP, by rw [hexec, hclear.serve_eq hst (htake ▸ hu) hup]⟩

/-- An operation that leaves the state gives its answer alone. -/
theorem Req.clear.answered {opcode : Nat} {f : Req → State → State × Ans} {c : Instr} {st : Status} {vals : List Nat}
    (hexec : exec c s = .next (serve r opcode sub need f s)) (hst : st ≠ .restarted ∧ st ≠ .timeout)
    (hf : ∀ ps, f r (s.withPairs ps) = (s.withPairs ps, { status := st, result := vals })) :
    Served c r opcode s st vals fun u => u = take r s :=
  hclear.served hexec hst fun ps htake => ⟨_, hf ps, hclear.fwUp, htake.symm⟩

theorem Req.clear.fromInst : r.fromInst = none := by
  obtain ⟨k, hsrc, -⟩ := hclear
  simp [Req.fromInst, hsrc]

theorem Req.clear.who : r.who = .mgp := by
  obtain ⟨k, hsrc, -⟩ := hclear
  simp [Req.who, hsrc]

end

/-! ### What the change of the pairs leaves -/

@[simp] theorem State.withPairs_now (s : State) (ps : Tbl Pair) : (s.withPairs ps).now = s.now := rfl

theorem State.withPairs_only (s : State) (ps : Tbl Pair) : Only [.mbx] s (s.withPairs ps) := State.modMbx_only _ (Only.refl _ s) (by simp)

end Sys2Proof.Machine
end

section
/-!
PROOFS. A refutation of O51: the key store's finding at a cold start, after a quiet period that is over, puts the F status of both units to the
referee, and the standby takes over.
-/
namespace Sys2Proof.Machine
open Sys2Proof

/-- A step of a cold start that succeeds, and is complete. -/
def coldDone (c : ColdIn) (n : Nat) (s : State) : State := (coldDo c n s).2.modPersist fun p => { p with coldStep := n }

theorem coldRun_cons_of_ok {c : ColdIn} {n : Nat} {rest : List Nat} {s : State} (hnext : s.persist.coldStep < n) (hok : (coldDo c n s).1 = true) :
    coldRun c (n :: rest) s = coldRun c rest (coldDone c n s) := by
  rw [coldRun, if_pos hnext, if_pos hok, coldDone]

/-- A module without a stored configuration starts empty: step 7 leaves the pair's settings. -/
theorem restoreConfig_cgu_of_empty {s : State} (h : newestCopy s.persist.copies = none) : (restoreConfig s).cgu = s.cgu := by
  have hsame : newestCopy (s.took.modSw fun w => { w with seed := s.free1 }).persist.copies = none := h
  have honly : Only [.sw, .insts, .sched, .time, .bki, .evr, .mbx, .mon, .free] s (restoreConfig s) := by
    unfold restoreConfig
    dsimp only
    rw [hsame]
    exact foldl_only _ _ (Only.trans (t := s.took.modSw fun w => { w with seed := s.free1 }) (by simp) (ownStatics_only _ (Only.refl _ _) (by simp)))
      fun t k => startPsc_only k t (Only.refl _ t) (by simp)
  exact honly.same .cgu (by decide)

theorem coldDone_seven_cgu {s : State} (h : newestCopy s.persist.copies = none) : (coldDone {} 7 s).cgu = s.cgu := by
  have hdo : (coldDo {} 7 s).2 = restoreConfig s := by simp [coldDo]
  have hdone : (coldDone {} 7 s).cgu = (coldDo {} 7 s).2.cgu := State.modPersist_cgu ..
  rw [hdone, hdo, restoreConfig_cgu_of_empty h]

/-- A supply that has slewed for 3.6 ms stands at 900 mV, whatever its slew rate. -/
theorem slewed_of_passed {since now : Nat} (h : 3600000 ≤ now - since) : slewed 0 3600 since now = 3600 := by
  have hrate : 1 ≤ slewRate := by unfold slewRate; omega
  have hslew : 3600 ≤ (now - since) * slewRate / 1000 := by
    rw [Nat.le_div_iff_mul_le (by omega)]
    exact h.trans (Nat.le_mul_of_pos_right _ hrate)
  simp only [slewed, Nat.zero_le, if_true, Nat.zero_add]
  exact Nat.min_eq_left hslew

theorem rampNs_le : rampNs ≤ 3600019 := by
  have hrate : 1 ≤ slewRate ∧ slewRate ≤ 20 := by unfold slewRate; omega
  have hle : rampNs ≤ 3600000 + slewRate - 1 := Nat.div_le_self _ _
  omega

/-- A standby before its cold start, whose active partner has failed. No pair of root shares is left, and the key store's fault state is
over. -/
def refereedColdState : State :=
  { season := { season := .spring }, power := { aonGood := true, mainGood := true, slotId := 2 }, bki := { mgpReset := true, running := true, hb := 0 },
    time := { age := 100000000000 }, ksu := { fuseKeys := [0], pairs := [] }, cgu := { role := .standby },
    mlk := { partner := .present, word := { f := true, role := .active }, partnerClaim := 5 },
    faults := { sets := [(setKey .ksu 0, { state := true, quietMs := 0 })] }, persist := { dzixImg := [{}] } }

theorem refereedCold_ramped : refereedColdState.power.rampAt + rampNs ≤ refereedColdState.now := by
  have hramp : refereedColdState.power.rampAt = 0 := rfl
  have hnow : refereedColdState.now = 100000000000 := rfl
  have hle := rampNs_le
  omega

theorem refereedCold_railsFull : refereedColdState.railsFull = true := by
  have hslewed : slewed 0 3600 0 100000000000 = 3600 := slewed_of_passed (by omega)
  have hrail (k : Nat) : refereedColdState.railLevel k = 3600 := hslewed
  have hvf : refereedColdState.vfLevel = 900 := congrArg (· / 4) hslewed
  have hbad : refereedColdState.power.badRails = [] := rfl
  simp [State.railsFull, hrail, hvf, hbad]

/-- Its MGP is released from reset. -/
def refereedReleasedState : State :=
  refereedColdState.modBki fun b => { b with
    mgpReset := false, mgpResetAt := refereedColdState.now, hbSinceReset := false, bootBank := refereedColdState.persist.activeBank }

/-- Steps 1 and 2 are complete. -/
def refereedRunningState : State := refereedReleasedState.modPersist fun p => { p with coldStep := 2 }

/-- Steps 3 to 6 are complete. -/
def refereedStartedState : State := coldDone {} 6 (coldDone {} 5 (coldDone {} 4 (coldDone {} 3 refereedRunningState)))

theorem coldRun_refereed : coldRun {} [3, 4, 5, 6, 7] refereedRunningState = coldDone {} 7 refereedStartedState := by
  rw [coldRun_cons_of_ok (by decide +kernel) (by decide +kernel), coldRun_cons_of_ok (by decide +kernel) (by decide +kernel),
    coldRun_cons_of_ok (by decide +kernel) (by decide +kernel), coldRun_cons_of_ok (by decide +kernel) (by decide +kernel),
    coldRun_cons_of_ok (by decide +kernel) (by decide +kernel)]
  rfl

theorem refereedStarted_role : refereedStartedState.cgu.role = .taking := by decide +kernel

theorem coldGo_refereed : coldGo {} refereedReleasedState = coldEnd (coldDone {} 7 refereedStartedState) := by
  have hgo : coldGo {} refereedReleasedState =
    if (coldRun {} [3, 4, 5, 6, 7] refereedRunningState).persist.coldStep = 7 then coldEnd (coldRun {} [3, 4, 5, 6, 7] refereedRunningState)
    else coldRun {} [3, 4, 5, 6, 7] refereedRunningState := rfl
  have hlast : (coldDone {} 7 refereedStartedState).persist.coldStep = 7 := rfl
  rw [hgo, coldRun_refereed, if_pos hlast]

theorem exec_coldStart_refereed : exec (.coldStart {}) refereedColdState = .next (coldEnd (coldDone {} 7 refereedStartedState)) := by
  have he : exec (.coldStart {}) refereedColdState = execColdStart {} refereedColdState := rfl
  rw [he, execColdStart, if_pos (by decide +kernel), whenDue_now _ refereedCold_ramped, if_pos refereedCold_railsFull]
  exact congrArg _ coldGo_refereed

/-- Refutes O51: the role does not stay through that cold start. -/
theorem not_startUpAndLiveChange : ¬ Obligations.StartUpAndLiveChange := by
  intro h
  obtain ⟨hcold, -⟩ := h
  obtain ⟨t, hexec, -, -, -, -, -, -, -, hrole, -⟩ :=
    hcold {} refereedColdState (by decide +kernel) refereedCold_ramped refereedCold_railsFull rfl (by decide +kernel) rfl
  rw [exec_coldStart_refereed] at hexec
  have hend : (coldEnd (coldDone {} 7 refereedStartedState)).cgu = (coldDone {} 7 refereedStartedState).cgu :=
    (coldEnd_only _ (Only.refl _ _) (qs := [.fab, .sched, .mlk, .time, .bki, .evr, .mbx, .persist, .mon, .free]) (by simp)).same .cgu (by decide)
  have hseven : (coldDone {} 7 refereedStartedState).cgu = refereedStartedState.cgu :=
    coldDone_seven_cgu (by decide +kernel)
  rw [← Host.Outcome.next.inj hexec, hend, hseven, refereedStarted_role] at hrole
  exact absurd hrole (by decide)

end Sys2Proof.Machine
end

section
/-!
PROOFS. A refutation of O37: a FAULT on a wire, after a quiet period that is over, puts the F status of both units to the referee, and the unit that
becomes OUT drives neither wire.
-/
namespace Sys2Proof.Machine
open Sys2Proof

/-- A wire in whose round the unit drives its claim. -/
def drivenWire : Wire := { round := { active := true, drives := true } }

/-- A unit with a failed block and a sound partner, in a round on wire 0. The claim gate's fault state is over. -/
def refereedRoundState : State :=
  { cgu := { clmEn := true, wires := [drivenWire, {}], role := .active }, time := { age := 100000000000 }, mlk := { partner := .present },
    faults := { sets := [(setKey .cgu 0, { state := true, quietMs := 0 }), (setKey .tbu 0, { fActive := true })] } }

/-- A dominant bit that another unit has disturbed. -/
def faultedRound : RoundSeen := { inRound := true, fault := true }

/-- Another wire of no round. -/
def noRound : RoundSeen := { inRound := false }

theorem exec_claimRoundEnd_refereed : ∃ t, exec (.claimRoundEnd faultedRound noRound) refereedRoundState = .next t
    ∧ (t.cgu.wires.any fun w => w.round.drives) = false :=
  ⟨_, rfl, by decide +kernel⟩

/-- Refutes O37: the wire of the FAULT is no longer driven. -/
theorem not_claimRoundsDecideTheWinner : ¬ Obligations.ClaimRoundsDecideTheWinner := by
  intro h
  obtain ⟨-, -, -, hfault, -⟩ := h
  obtain ⟨t, hexec, hwires⟩ := hfault drivenWire {} faultedRound noRound refereedRoundState (by decide) rfl rfl rfl rfl (by decide) (by decide)
  obtain ⟨t', hexec', hdrives⟩ := exec_claimRoundEnd_refereed
  rw [hexec'] at hexec
  rw [Host.Outcome.next.inj hexec, hwires] at hdrives
  exact absurd hdrives (by decide)

end Sys2Proof.Machine
end

section
/-!
PROOFS. The supply loop of an island (R227, R229): the evaluation of a frame's slack, case by case, and O36.
-/
namespace Sys2Proof.Machine
open Sys2Proof

/-- A target within the limits of the loop (R227), in quarters of a millivolt. -/
def Loop.clamp (l : Loop) (v : Nat) : Nat := max (4 * l.vFloor) (min v 3600)

section
variable {l : Loop} {x : Nat}

theorem Loop.eval_of_over (l : Loop) (sm : Option Nat) :
    l.eval sm true = ({ l with sMin := sm.getD 1023, vTarget := l.clamp 3600, hold := 8, emerg := true }, some 2) := by
  simp [Loop.eval, Loop.clamp]

theorem Loop.eval_of_low (ov : Bool) (h : x < l.guard) :
    l.eval (some x) ov = ({ l with sMin := x, vTarget := l.clamp 3600, hold := 8, emerg := true }, some 2) := by
  simp [Loop.eval, Loop.clamp, h]

theorem Loop.eval_of_raise (hg : l.guard ≤ x) (hset : x < l.setpoint) :
    l.eval (some x) false =
      ({ l with sMin := x, vTarget := l.clamp (l.vTarget + 40 * ((l.setpoint - x + 9) / 10)), hold := 8, emerg := false }, some 0) := by
  simp [Loop.eval, Loop.clamp, Nat.not_lt.2 hg, hset]

theorem Loop.eval_of_lower (hg : l.guard ≤ x) (hset : l.setpoint + l.deadband < x) (hold : l.hold = 0) :
    l.eval (some x) false = ({ l with sMin := x, vTarget := l.clamp (l.vTarget - 10), emerg := false }, some 1) := by
  have hx : ¬ x < l.setpoint := by omega
  simp [Loop.eval, Loop.clamp, Nat.not_lt.2 hg, hset, hold, hx]

theorem Loop.eval_of_within (hg : l.guard ≤ x) (hset : l.setpoint ≤ x) (hin : x ≤ l.setpoint + l.deadband ∨ l.hold ≠ 0) :
    l.eval (some x) false = ({ l with sMin := x, vTarget := l.clamp l.vTarget, hold := l.hold - 1, emerg := false }, none) := by
  have hx : ¬ (l.setpoint + l.deadband < x ∧ l.hold = 0) := by omega
  simp only [Loop.eval, Loop.clamp, Option.getD_some, Bool.false_or, decide_eq_true_eq, if_neg (Nat.not_lt.2 hg), if_neg (Nat.not_lt.2 hset), if_neg hx]

theorem Loop.eval_of_none (l : Loop) :
    l.eval none false = ({ l with sMin := 1023, vTarget := l.clamp l.vTarget, hold := l.hold - 1, emerg := false }, none) := by
  simp [Loop.eval, Loop.clamp]

end

/-- Whatever was reported, the new target is within the limits of the loop. -/
theorem Loop.eval_clamped (l : Loop) (sm : Option Nat) (ov : Bool) : ∃ v, (l.eval sm ov).1.vTarget = l.clamp v := by
  cases sm with
  | none =>
    cases ov with
    | true => exact ⟨3600, rfl⟩
    | false => exact ⟨l.vTarget, rfl⟩
  | some x =>
    unfold Loop.eval
    dsimp only
    split_ifs with hlow hset hlower
    · exact ⟨3600, rfl⟩
    · exact ⟨_, rfl⟩
    · exact ⟨_, rfl⟩
    · exact ⟨_, rfl⟩

theorem State.setLoop_loop_other {k j : Nat} (f : Loop → Loop) (s : State) (h : j ≠ k) : (s.setLoop k f).loop j = s.loop j :=
  Tbl.get_set_other _ _ _ h

theorem State.setLoop_pscs (k : Nat) (f : Loop → Loop) (s : State) : (s.setLoop k f).sched.pscs = s.sched.pscs := rfl

/-- A loop that is written holds what was written, but for the instant and level from which a new target is slewed to. -/
theorem State.setLoop_loop (k : Nat) (f : Loop → Loop) (s : State) :
    ((s.setLoop k f).loop k).vTarget = (f (s.loop k)).vTarget ∧ ((s.setLoop k f).loop k).hold = (f (s.loop k)).hold
    ∧ ((s.setLoop k f).loop k).emerg = (f (s.loop k)).emerg := by
  have h : (s.setLoop k f).loop k = if (f (s.loop k)).vTarget = (s.loop k).vTarget then f (s.loop k)
      else { f (s.loop k) with vFrom := s.railLevel k, vAt := s.now } := Tbl.get_set_same _ _ _ _
  rw [h]
  split
  · exact ⟨rfl, rfl, rfl⟩
  · exact ⟨rfl, rfl, rfl⟩

/-- The counter that an evaluation raises, where it raises one. -/
def State.loopCount (k : Nat) (c : Option Nat) (s : State) : State := match c with | some c => pmcCount (3 * k + c) s | none => s

theorem State.loopCount_loop (k : Nat) (c : Option Nat) (s : State) (j : Nat) : (s.loopCount k c).loop j = s.loop j := by
  cases c with
  | none => rfl
  | some c => rfl

theorem State.loopCount_pscs (k : Nat) (c : Option Nat) (s : State) : (s.loopCount k c).sched.pscs = s.sched.pscs := by
  cases c with
  | none => rfl
  | some c => rfl

theorem State.loopCount_only (k : Nat) (c : Option Nat) {s u : State} (h : Only [.sched] s u) : Only [.sched] s (u.loopCount k c) := by
  cases c with
  | none => exact h
  | some c => exact pmcCount_only _ _ h (by simp)

theorem supplyLoop_of_summer {k : Nat} {s : State} (h : s.autumn k = false) : supplyLoop k s = s := by
  simp [supplyLoop, h]

theorem supplyLoop_of_tracking {k : Nat} {s : State} (h : s.autumn k = true) (htrack : (s.loop k).track = true) {r : Loop × Option Nat}
    (hr : (s.loop k).eval (s.psc k).slackMin (s.psc k).slackOver = r) : supplyLoop k s = (s.setLoop k fun _ => r.1).loopCount k r.2 := by
  subst hr
  simp only [supplyLoop, h, htrack, if_pos]
  rfl

theorem supplyLoop_of_fixed {k : Nat} {s : State} (h : s.autumn k = true) (htrack : (s.loop k).track = false) :
    supplyLoop k s = s.setLoop k fun l => { l with vTarget := l.fixed } := by
  simp [supplyLoop, h, htrack]

/-- What the supply loop writes where it tracks: the loop as evaluated, and one counter. -/
theorem supplyLoop_tracked {k : Nat} {s : State} (h : s.autumn k = true) (htrack : (s.loop k).track = true) {r : Loop × Option Nat}
    (hr : (s.loop k).eval (s.psc k).slackMin (s.psc k).slackOver = r) :
    ((supplyLoop k s).loop k).vTarget = r.1.vTarget ∧ ((supplyLoop k s).loop k).hold = r.1.hold
    ∧ ((supplyLoop k s).loop k).emerg = r.1.emerg ∧ (supplyLoop k s).sched.pmcLive = (s.loopCount k r.2).sched.pmcLive := by
  rw [supplyLoop_of_tracking h htrack hr, State.loopCount_loop]
  obtain ⟨hv, hh, he⟩ := State.setLoop_loop k (fun _ => r.1) s
  refine ⟨hv, hh, he, ?_⟩
  cases r.2 with
  | none => rfl
  | some c => rfl

/-- Only the loop of the island and the counters change. -/
theorem supplyLoop_frame (k : Nat) (s : State) :
    Only [.sched] s (supplyLoop k s) ∧ (∀ j, j ≠ k → (supplyLoop k s).loop j = s.loop j) ∧ (supplyLoop k s).sched.pscs = s.sched.pscs := by
  cases h : s.autumn k with
  | false =>
    rw [supplyLoop_of_summer h]
    exact ⟨Only.refl _ s, fun _ _ => rfl, rfl⟩
  | true =>
    cases htrack : (s.loop k).track with
    | false =>
      rw [supplyLoop_of_fixed h htrack]
      exact ⟨State.setLoop_only _ _ _ (Only.refl _ s) (by simp), fun j hj => State.setLoop_loop_other _ _ hj, rfl⟩
    | true =>
      rw [supplyLoop_of_tracking h htrack rfl]
      refine ⟨State.loopCount_only _ _ (State.setLoop_only _ _ _ (Only.refl _ s) (by simp)), fun j hj => ?_, ?_⟩
      · rw [State.loopCount_loop, State.setLoop_loop_other _ _ hj]
      · rw [State.loopCount_pscs, State.setLoop_pscs]

/-- Settles O36: each case of the evaluation, read off the loop that it leaves. -/
theorem supplyLoopFollowsSlack : Obligations.SupplyLoopFollowsSlack := by
  intro k s _
  obtain ⟨honly, hother, hpscs⟩ := supplyLoop_frame k s
  refine ⟨honly, hother, hpscs, supplyLoop_of_summer, fun h htrack => ⟨?_, fun x hover hx hguard => ⟨?_, ?_, ?_⟩, ?_, ?_⟩⟩
  case refine_1 =>
    intro hlow
    have hr : (s.loop k).eval (s.psc k).slackMin (s.psc k).slackOver =
        ({ s.loop k with sMin := (s.psc k).slackMin.getD 1023, vTarget := (s.loop k).clamp 3600, hold := 8, emerg := true }, some 2) := by
      obtain hover | ⟨x, hx, hlt⟩ := hlow
      · rw [hover, Loop.eval_of_over]
      · rw [hx, Loop.eval_of_low _ hlt]
        rfl
    obtain ⟨hv, hh, he, hc⟩ := supplyLoop_tracked h htrack hr
    exact ⟨hv, hh, he, by rw [hc]; exact bump_same _ _ _⟩
  case refine_2 =>
    intro hset
    obtain ⟨hv, hh, he, hc⟩ := supplyLoop_tracked h htrack (by rw [hover, hx, Loop.eval_of_raise hguard hset])
    exact ⟨hv, hh, he, by rw [hc]; exact bump_same _ _ _⟩
  case refine_3 =>
    intro hset hhold
    obtain ⟨hv, hh, _, hc⟩ := supplyLoop_tracked h htrack (by rw [hover, hx, Loop.eval_of_lower hguard hset hhold])
    exact ⟨hv, hh.trans hhold, by rw [hc]; exact bump_same _ _ _⟩
  case refine_4 =>
    intro hset hin
    obtain ⟨hv, hh, _, hc⟩ := supplyLoop_tracked h htrack (by rw [hover, hx, Loop.eval_of_within hguard hset hin])
    exact ⟨hv, hh, hc⟩
  case refine_5 =>
    intro hover hnone
    obtain ⟨hv, hh, _, _⟩ := supplyLoop_tracked h htrack (by rw [hover, hnone, Loop.eval_of_none])
    exact ⟨hv, hh⟩
  case refine_6 =>
    obtain ⟨hv, _, _, _⟩ := supplyLoop_tracked h htrack rfl
    obtain ⟨v, hclamp⟩ := Loop.eval_clamped (s.loop k) (s.psc k).slackMin (s.psc k).slackOver
    rw [hv, hclamp, Loop.clamp]
    omega

end Sys2Proof.Machine
end

section
/-!
PROOFS. Mirror sets and the switch-back request (R267 to R270, R274): what each command writes, and O41.
-/
namespace Sys2Proof.Machine
open Sys2Proof

/-- OVER brought up to date touches no octet of the memories of the instances (R192). -/
theorem refreshOver_mem (i : Nat) (s : State) :
    (refreshOver i s).insts.lsMem = s.insts.lsMem ∧ (refreshOver i s).insts.dramMem = s.insts.dramMem := by
  have hemit : ∀ a b c d e f (u : State), (emit a b c d u e f).insts = u.insts := fun a b c d e f u =>
    (emit_only a b c d u e f (qs := [.bki, .evr, .mbx]) (Only.refl _ u) (by simp)).same .insts (by decide)
  unfold refreshOver
  dsimp only
  split
  · rw [hemit]
    exact ⟨rfl, rfl⟩
  · exact ⟨rfl, rfl⟩

/-! ### Declaring regions -/

/-- The next declaration of an instance noted, for the next epoch on, and what it uses of its share. -/
def State.declare (s : State) (i : Nat) (es : List (Nat × Nat)) : State :=
  (s.modMlk fun m => { m with mir := m.mir.mod i {} fun x =>
    { x with newRegions := some (es.map fun e => (e.1 / 256, e.2)), newFrom := (s.epochNum + 1) * ms s.epochNow } }).setInst i
    fun d => { d with useMir := (es.map fun e => e.2).sum }

section
variable (s : State) (i : Nat) (es : List (Nat × Nat))

theorem State.declare_only : Only [.insts, .mlk] s (s.declare i es) := by simp [State.declare]

theorem State.declare_mir : (s.declare i es).mlk.mir.get i {} =
    { s.mlk.mir.get i {} with newRegions := some (es.map fun e => (e.1 / 256, e.2)), newFrom := (s.epochNum + 1) * ms s.epochNow } :=
  Tbl.get_mod_same s.mlk.mir i {} {} fun x =>
    { x with newRegions := some (es.map fun e => (e.1 / 256, e.2)), newFrom := (s.epochNum + 1) * ms s.epochNow }

theorem State.declare_mir_other {j : Nat} (h : j ≠ i) : (s.declare i es).mlk.mir.get j {} = s.mlk.mir.get j {} :=
  Tbl.get_mod_other s.mlk.mir {} {} (fun x =>
    { x with newRegions := some (es.map fun e => (e.1 / 256, e.2)), newFrom := (s.epochNum + 1) * ms s.epochNow }) h

theorem State.declare_inst : (s.declare i es).inst i = { s.inst i with useMir := (es.map fun e => e.2).sum } := State.inst_setInst_same _ _ _

theorem State.declare_inst_other {j : Nat} (h : j ≠ i) : (s.declare i es).inst j = s.inst j := State.inst_setInst_other _ _ h

end

theorem exec_mirrorDeclare_tooMany {i g a n : Nat} {s : State} (hg : s.genCurrent i g = true) (hn : 8 < n) :
    exec (.mirrorDeclare i g a n) s = .next (answer i [(Status.badParam 1).code] s) := by
  have he : exec (.mirrorDeclare i g a n) s = execMirrorDeclare i g a n s := rfl
  simp [he, execMirrorDeclare, hg, hn]

/-! ### Sets that leave and arrive -/

theorem exec_mirrorSetSend_held {i : Nat} {m : MirSet} {s : State} (hset : (s.mlk.mir.get i {}).staged = some m)
    (h : s.cgu.role ≠ .active ∨ s.partnerGone = true ∨ s.laneUp = false) : exec (.mirrorSetSend i) s = .next s := by
  have he : exec (.mirrorSetSend i) s = execMirrorSetSend i s := rfl
  have hno : ¬ (s.cgu.role = .active ∧ (!s.partnerGone) = true ∧ s.linkOn = true ∧ s.laneUp = true) := by
    rintro ⟨hrole, hpartner, -, hlane⟩
    simp [hrole, hlane] at h
    simp [h] at hpartner
  simp only [he, execMirrorSetSend, hset, if_neg hno]

/-- A set handed to the lanes. -/
def State.sentSet (s : State) (i : Nat) (m : MirSet) : State :=
  mlkCount 2 (s.modMlk fun x => { x with setsOut := x.setsOut ++ [m], mir := x.mir.mod i {} fun y =>
    { y with staged := none, discarded := y.discarded || !x.word.ready.getLsbD i } })

theorem State.sentSet_only (s : State) (i : Nat) (m : MirSet) : Only [.mlk] s (s.sentSet i m) := by simp [State.sentSet]

theorem exec_mirrorSetSend {i : Nat} {m : MirSet} {s : State} (hset : (s.mlk.mir.get i {}).staged = some m) (hrole : s.cgu.role = .active)
    (hpartner : s.mlk.partner = .present) (hlink : s.linkOn = true) (hlane : s.laneUp = true) :
    exec (.mirrorSetSend i) s = .next (if m.full then mlkCount 5 (s.sentSet i m) else s.sentSet i m) := by
  have he : exec (.mirrorSetSend i) s = execMirrorSetSend i s := rfl
  have hgone : s.partnerGone = false := by simp [State.partnerGone, hpartner]
  simp only [he, execMirrorSetSend, hset, hrole, hlink, hlane, hgone, Bool.not_false, and_self, if_true]
  rfl

theorem exec_mirrorSetReceive {m : MirSet} {crc whole : Bool} {s : State} (hlink : s.linkOn = true) (hrole : s.cgu.role.protecting = false) :
    exec (.mirrorSetReceive m crc whole) s = .next (if !crc || !whole || mirrorOff m.inst s then setDiscard m.inst s
      else s.modMlk fun x => { x with mir := x.mir.mod m.inst {} fun y => { y with arrived := y.arrived ++ [m] } }) := by
  have he : exec (.mirrorSetReceive m crc whole) s = execMirrorSetReceive m crc whole s := rfl
  simp [he, execMirrorSetReceive, hlink, hrole]

theorem setDiscard_mir (i : Nat) (s : State) :
    (setDiscard i s).mlk.mir.get i {} = { s.mlk.mir.get i {} with askFull := true, needFull := true, discarded := true } :=
  Tbl.get_mod_same s.mlk.mir i {} {} fun x => { x with askFull := true, needFull := true, discarded := true }

theorem exec_switchBackLapse {u a h : Nat} {s : State} (hheld : s.mlk.swHeld = some (u, a, h)) (hdue : a + sec 10 ≤ s.now) :
    exec .switchBackLapse s = .next (switchRecord 77 (opDone h (.state 77) [] (s.modMlk fun m => { m with swHeld := none }))) := by
  have he : exec .switchBackLapse s = execSwitchBackLapse s := rfl
  rw [he, execSwitchBackLapse, hheld]
  dsimp only
  rw [whenDue_now _ hdue]

/-- Settles O41. -/
theorem mirrorSetsAndSwitchBack : Obligations.MirrorSetsAndSwitchBack := by
  refine ⟨?_, ?_, ?_, ?_, ?_, ?_, ?_⟩
  case refine_1 =>
    intro i g a n s hg hn
    refine ⟨_, exec_mirrorDeclare_tooMany hg hn, answer_only _ _ _ (Only.refl _ s) (by simp), ?_, fun j hj => ?_⟩
    · exact State.inst_setInst_same _ _ _
    · exact State.inst_setInst_other _ _ hj
  case refine_2 =>
    intro i g a n s rd es others hg hn hok hes hshare hcap
    have hall : (!((s.inst i).inLs a (8 * n) || (s.inst i).inDram a (8 * n)) || es.any fun e => e.1 % 256 != 0 || !(s.inst i).inLs e.1 (256 * e.2)) = false := by
      have hany : (es.any fun e => e.1 % 256 != 0 || !(s.inst i).inLs e.1 (256 * e.2)) = false := by
        rw [List.any_eq_false]
        intro e he
        simp [hes e he]
      rw [hany, Bool.or_false, Bool.not_eq_false', Bool.or_eq_true]
      exact hok
    have he : exec (.mirrorDeclare i g a n) s = .next (answer i [0] (refreshOver i
        (s.declare i es))) := by
      have hexec : exec (.mirrorDeclare i g a n) s = execMirrorDeclare i g a n s := rfl
      rw [hexec]
      refine congrArg Host.Outcome.next ?_
      refine (if_neg (by simp [hg])).trans ((if_neg (Nat.not_lt.2 hn)).trans ((if_neg (Bool.not_eq_true _ ▸ hall)).trans
        ((if_neg (Nat.not_lt.2 hshare)).trans ((if_neg (Nat.not_lt.2 hcap)).trans rfl))))
    obtain ⟨o, hself⟩ := answered_inst i [0] (s.declare i es)
    have hmem := refreshOver_mem i (s.declare i es)
    have hmlk := (refreshOver_only i _ (Only.refl [.insts, .bki, .evr, .mbx] (s.declare i es)) (by simp)).same .mlk (by decide)
    rw [State.declare_inst] at hself
    refine ⟨_, he, ?_, hmem.1, hmem.2, ?_, fun j hj => ?_, by rw [hself], by rw [hself], fun j hj => ?_⟩
    · exact answer_only _ _ _ (refreshOver_only _ _ ((s.declare_only i es).mono (by simp)) (by simp)) (by simp)
    · exact (congrArg (fun m : Mlk => m.mir.get i {}) hmlk).trans (s.declare_mir i es)
    · exact (congrArg (fun m : Mlk => m.mir.get j {}) hmlk).trans (s.declare_mir_other i es hj)
    · rw [answered_inst_other _ _ hj, State.declare_inst_other _ _ _ hj]
  case refine_3 =>
    intro i m s hset hrole hpartner hlink hlane
    refine ⟨_, exec_mirrorSetSend hset hrole hpartner hlink hlane, ?_⟩
    cases m.full with
    | false => exact ⟨State.sentSet_only s i m, rfl, rfl, bump_same _ _ _⟩
    | true =>
      refine ⟨mlkCount_only _ _ (State.sentSet_only s i m) (by simp), rfl, rfl, ?_⟩
      exact (bump_other _ _ (by decide)).trans (bump_same _ _ _)
  case refine_4 =>
    intro i m s hset h
    exact ⟨_, exec_mirrorSetSend_held hset h, rfl⟩
  case refine_5 =>
    intro m crc whole s hlink hrole h
    have hbad : (!crc || !whole || mirrorOff m.inst s) = true := by
      obtain h | h | h := h <;> simp [h]
    refine ⟨_, exec_mirrorSetReceive hlink hrole, ?_⟩
    rw [if_pos hbad]
    exact ⟨setDiscard_only _ _ (Only.refl _ s) (by simp), setDiscard_mir _ _⟩
  case refine_6 =>
    intro m s hlink hrole h
    refine ⟨_, exec_mirrorSetReceive hlink hrole, ?_⟩
    rw [if_neg (by simp [h])]
    exact ⟨State.modMlk_only _ (Only.refl _ s) (by simp), rfl⟩
  case refine_7 =>
    intro u a h s hheld hdue
    refine ⟨_, exec_switchBackLapse hheld hdue, ?_, ?_⟩
    · exact switchRecord_only _ _ (opDone_only _ _ _ _ (State.modMlk_only _ (Only.refl _ s) (by simp)) (by simp)) (by simp)
    · have hop : ∀ v : State, (switchRecord 77 (opDone h (.state 77) [] v)).mlk = v.mlk := fun v =>
        (switchRecord_only _ _ (opDone_only _ _ _ _ (Only.refl [.bki, .evr, .mbx, .mon] v) (by simp)) (by simp)).same .mlk (by decide)
      exact hop _

end Sys2Proof.Machine
end

section
/-!
PROOFS. The recorder (R384 to R398): what a written, a suppressed and a lost occurrence leave, the refills, the cursors and the save areas, and O48.
-/
namespace Sys2Proof.Machine
open Sys2Proof

/-- A bucket of the recorder written. -/
def State.setBucket (s : State) (c : Nat) (b : Bucket) : State := s.modEvr fun e => { e with buckets := e.buckets.set c b }

section
variable (s : State) (r : EvrRec) (c : Nat) (b : Bucket)

@[simp] theorem State.setBucket_same : (s.setBucket c b).evr.bucket c = b := Tbl.get_set_same _ _ _ _

theorem State.setBucket_other {d : Nat} (h : d ≠ c) : (s.setBucket c b).evr.bucket d = s.evr.bucket d := Tbl.get_set_other _ _ _ h

@[simp] theorem State.setBucket_only {s0 : State} (h0 : Only [.evr] s0 s) : Only [.evr] s0 (s.setBucket c b) := by simp [State.setBucket, h0]

@[simp] theorem writeRecord_bucket : (writeRecord r s).evr.bucket c = s.evr.bucket c := rfl
@[simp] theorem writeRecord_posts : (writeRecord r s).evr.posts = s.evr.posts := rfl
@[simp] theorem writeRecord_ring : (writeRecord r s).evr.ring = ({ r with seq := s.evr.next } :: s.evr.ring).take 65536 := rfl
@[simp] theorem writeRecord_next : (writeRecord r s).evr.next = nextSeq s.evr.next := rfl

end

/-! ### The writer -/

/-- The oldest posted occurrence taken from its queue, and counted. -/
def State.takePost (s : State) (rest : List EvrRec) : State := s.modEvr fun e => { e with posts := rest, live := bump e.live 1 }

@[simp] theorem State.takePost_only (s : State) (rest : List EvrRec) : Only [.evr] s (s.takePost rest) := by simp [State.takePost]

/-- With no refill due nothing is regained. -/
theorem refillsDue_of_none {c : Nat} {s : State} (h : ∀ a, (s.evr.bucket c).refillAt = some a → s.now < a) (n : Nat) : refillsDue c n s = s := by
  cases n with
  | zero => rfl
  | succ n =>
    rw [refillsDue]
    cases ha : (s.evr.bucket c).refillAt with
    | none => rfl
    | some a => exact if_neg (Nat.not_le.2 (h a ha))

theorem exec_evrOccurrence {r : EvrRec} {rest : List EvrRec} {s : State} (hposts : s.evr.posts = r :: rest) (hrun : s.evr.running = true)
    (hfrozen : s.evr.frozen = false) (hnone : ∀ a, (s.evr.bucket r.code).refillAt = some a → s.now < a) :
    exec .evrOccurrence s = .next (writeOccurrence r (s.takePost rest)) := by
  have he : exec .evrOccurrence s = .next (writerStep s) := rfl
  have hdue := refillsDue_of_none (c := r.code) (s := s.takePost rest) hnone
  rw [he, writerStep, hposts]
  simp only [hrun, hfrozen, Bool.not_true, Bool.false_eq_true, if_false]
  exact congrArg (fun u => Host.Outcome.next (writeOccurrence r u)) (hdue _)

theorem exec_evrOccurrence_frozen {r : EvrRec} {rest : List EvrRec} {s : State} (hposts : s.evr.posts = r :: rest) (hrun : s.evr.running = true)
    (hfrozen : s.evr.frozen = true) :
    exec .evrOccurrence s = .next (s.modEvr fun e => { e with posts := rest, live := bump (bump e.live 1) 4 }) := by
  have he : exec .evrOccurrence s = .next (writerStep s) := rfl
  simp [he, writerStep, hposts, hrun, hfrozen]

theorem writeOccurrence_of_unlimited {r : EvrRec} {s : State} (h : s.evr.treat r = .pass ∨ s.evr.treat r = .bypass) :
    writeOccurrence r s = writeRecord r s := by
  obtain h | h := h <;> simp [writeOccurrence, h]

theorem writeOccurrence_of_token {r : EvrRec} {s : State} (h : s.evr.treat r = .token) :
    writeOccurrence r s = writeRecord r (s.setBucket r.code ((s.evr.bucket r.code).takeToken s.now)) := by
  simp [writeOccurrence, h, State.setBucket]

theorem writeOccurrence_of_suppress {r : EvrRec} {s : State} (h : s.evr.treat r = .suppress) : writeOccurrence r s =
    (s.setBucket r.code ((s.evr.bucket r.code).suppress r false)).modEvr fun e => { e with live := bump e.live 2 } := by
  simp [writeOccurrence, h, State.setBucket, State.modEvr]

/-- An occurrence that passes, by a token or without, is the newest record. -/
theorem exec_evrOccurrence_passes {r : EvrRec} {rest : List EvrRec} {s : State} (hposts : s.evr.posts = r :: rest) (hrun : s.evr.running = true)
    (hfrozen : s.evr.frozen = false) (hnone : ∀ a, (s.evr.bucket r.code).refillAt = some a → s.now < a)
    (hpass : s.evr.treat r = .pass ∨ s.evr.treat r = .bypass ∨ s.evr.treat r = .token) :
    exec .evrOccurrence s = .next (writeRecord r (if s.evr.treat r = .token then
      (s.takePost rest).setBucket r.code ((s.evr.bucket r.code).takeToken s.now) else s.takePost rest)) := by
  have htreat : (s.takePost rest).evr.treat r = s.evr.treat r := rfl
  rw [exec_evrOccurrence hposts hrun hfrozen hnone]
  by_cases htoken : s.evr.treat r = .token
  · rw [if_pos htoken, writeOccurrence_of_token (htreat.trans htoken)]
    rfl
  · rw [if_neg htoken, writeOccurrence_of_unlimited]
    obtain h | h | h := hpass
    · exact .inl (htreat.trans h)
    · exact .inr (htreat.trans h)
    · exact absurd h htoken

/-! ### Suppression and refills -/

theorem writeSuppression_none {c : Nat} {s : State} (h : (s.evr.bucket c).suppCount = 0 ∨ s.evr.frozen = true) : writeSuppression c s = s := by
  simp [writeSuppression, h]

/-- The SUPPRESSION record of a code with occurrences suppressed. -/
theorem writeSuppression_some {c : Nat} {s : State} (hcount : (s.evr.bucket c).suppCount ≠ 0) (hfrozen : s.evr.frozen = false) :
    (writeSuppression c s).evr.bucket c = (s.evr.bucket c).clearSupp ∧ (writeSuppression c s).evr.next = nextSeq s.evr.next
    ∧ ∃ r, (writeSuppression c s).evr.ring.head? = some r ∧ r.code = 0 ∧ r.seq = s.evr.next := by
  have h : ¬ ((s.evr.bucket c).suppCount = 0 ∨ s.evr.frozen = true) := by simp [hcount, hfrozen]
  unfold writeSuppression
  dsimp only
  rw [if_neg h]
  exact ⟨Tbl.get_set_same _ _ _ _, rfl, _, rfl, rfl, rfl⟩

theorem exec_bucketRefill {c at_ : Nat} {s : State} (h : (s.evr.bucket c).refillAt = some at_) (hrun : s.evr.running = true) (hdue : at_ ≤ s.now) :
    exec (.bucketRefill c) s = .next (writeSuppression c (s.setBucket c ((s.evr.bucket c).refill at_))) := by
  have he : exec (.bucketRefill c) s = execBucketRefill c s := rfl
  rw [he, execBucketRefill, h]
  dsimp only
  rw [if_pos hrun, whenDue_now _ hdue]
  rfl

theorem exec_lossIntervalEnd {c at_ : Nat} {s : State} (h : (s.evr.bucket c).lossFrom = some at_) (hrun : s.evr.running = true)
    (hdue : at_ + us (s.evr.bucket c).intervalUs ≤ s.now) :
    exec (.lossIntervalEnd c) s = .next (writeSuppression c (s.setBucket c { s.evr.bucket c with lossFrom := none })) := by
  have he : exec (.lossIntervalEnd c) s = execLossIntervalEnd c s := rfl
  rw [he, execLossIntervalEnd, h]
  dsimp only
  rw [if_pos hrun, whenDue_now _ hdue]
  rfl

/-- What a bucket written, and its suppression record where one is due, leave of the other parts. -/
theorem suppressed_only (c : Nat) (b : Bucket) (s : State) : Only [.evr] s (writeSuppression c (s.setBucket c b)) :=
  writeSuppression_only _ _ (State.modEvr_only _ (Only.refl _ s) (by simp)) (by simp)

/-! ### Cursors -/

theorem exec_cursorLoad {n : Nat} {v : BitVec 32} {c : Cursor} {s : State} (hc : s.evr.cursors[n]? = some c) (hload : bitOf v 31 = true)
    (hbusy : c.busy = false) (hfar : bits v 6 0 ≤ 64) : exec (.cursorLoad n v) s = .next (s.modEvr fun e => { e with
      cursors := e.cursors.set n { c.move (bits v 6 0) (bitOf v 30) s.evr with
        busy := true
        window := (s.evr.window 64 (c.move (bits v 6 0) (bitOf v 30) s.evr).seq).map EvrRec.asRead
        avail := (s.evr.window 64 (c.move (bits v 6 0) (bitOf v 30) s.evr).seq).length }
      live := bump e.live 6 ((s.evr.window 64 (c.move (bits v 6 0) (bitOf v 30) s.evr).seq).filter fun r => r.damaged).length }) := by
  have he : exec (.cursorLoad n v) s = .next (writeCurCtl n v s) := rfl
  rw [he, writeCurCtl, if_pos hload, cursorLoad, hc]
  dsimp only
  rw [if_neg (by simp [hbusy, hfar])]

theorem exec_cursorLoad_busy {n : Nat} (v : BitVec 32) {c : Cursor} {s : State} (hc : s.evr.cursors[n]? = some c) (hbusy : c.busy = true) :
    exec (.cursorLoad n v) s = .next s := by
  have he : exec (.cursorLoad n v) s = .next (writeCurCtl n v s) := rfl
  simp [he, writeCurCtl, cursorLoad, hc, hbusy]

theorem exec_cursorLoadComplete {n : Nat} {c : Cursor} {s : State} (hc : s.evr.cursors[n]? = some c) (hbusy : c.busy = true) :
    exec (.cursorLoadComplete n) s = .next (cursorDone n s) := by
  have he : exec (.cursorLoadComplete n) s = execCursorLoadComplete n s := rfl
  simp [he, execCursorLoadComplete, hc, hbusy]

/-- A load that completes changes its cursor in the recorder; what it may tell the host stands elsewhere. -/
theorem cursorDone_evr (n : Nat) (s : State) :
    (cursorDone n s).evr = { s.evr with cursors := lmod s.evr.cursors n fun c => { c with busy := false } } := by
  have hvector : ∀ v (u : State), (vector v u).evr = u.evr := fun _ _ => rfl
  unfold cursorDone
  dsimp only
  split
  · rw [hvector]
    rfl
  · split
    · rw [hvector]
      rfl
    · rfl

/-! ### The save areas -/

theorem exec_saveEnd {k : Nat} {s : State} (h : s.evr.saveInto = some k) (hreset : s.power.resetPend = false) : exec .saveEnd s = .next
    (s.modEvr fun e => { e with
      saveInto := none, saveState := 3, lastComplete := true, saved := (e.areas.getD k {}).recs.length, live := bump e.live 7
      areas := lmod e.areas k fun a => { a with complete := true } }) := by
  have he : exec .saveEnd s = .next (resetDue (endSave s)) := rfl
  rw [he, endSave, h]
  dsimp only
  rw [resetDue, if_neg (by simp [State.modEvr, hreset])]

theorem exec_saveAreaErase {a b : SaveArea} {s : State} (h : s.evr.areas = [a, b]) (ha : a.erased = false) (hb : b.erased = false)
    (hup : s.persist.fwUp = true) (hnone : s.evr.saveInto = none) : exec .saveAreaErase s =
    .next (s.modEvr fun e => { e with areas := e.areas.set (if newerArea a b then 0 else 1) {}, saveState := 1 }) := by
  have he : exec .saveAreaErase s = execSaveAreaErase s := rfl
  simp [he, execSaveAreaErase, h, ha, hb, hup, hnone]

/-- Settles O48. -/
theorem recorderWritesInOrder : Obligations.RecorderWritesInOrder := by
  refine ⟨?_, ?_, ?_, ?_, ?_, ?_, ?_, ?_, ?_, ?_, ?_, ?_⟩
  case refine_1 =>
    intro r rest s hposts hrun hfrozen hnone hpass
    refine ⟨_, exec_evrOccurrence_passes hposts hrun hfrozen hnone hpass, ?_⟩
    split
    next htoken =>
      refine ⟨by simp, rfl, rfl, rfl, fun c hc => ?_, ?_⟩
      · exact State.setBucket_other (s.takePost rest) _ _ hc
      · rw [writeRecord_bucket, State.setBucket_same]
        rfl
    next =>
      exact ⟨by simp, rfl, rfl, rfl, fun _ _ => rfl, rfl⟩
  case refine_2 =>
    intro r rest s hposts hrun hfrozen hnone hsupp
    have htreat : (s.takePost rest).evr.treat r = .suppress := hsupp
    refine ⟨_, (exec_evrOccurrence hposts hrun hfrozen hnone).trans (congrArg _ (writeOccurrence_of_suppress htreat)), ?_, rfl, rfl, rfl, ?_, ?_, ?_⟩
    · simp
    · exact congrArg Bucket.suppCount (State.setBucket_same (s.takePost rest) _ _)
    · exact congrArg Bucket.suppLast (State.setBucket_same (s.takePost rest) _ _)
    · exact (bump_same _ _ _).trans (congrArg (satAdd 64 · 1) (bump_other _ _ (by decide)))
  case refine_3 =>
    intro r rest s hposts hrun hfrozen
    refine ⟨_, exec_evrOccurrence_frozen hposts hrun hfrozen, by simp, rfl, rfl, rfl, ?_⟩
    exact (bump_same _ _ _).trans (congrArg (satAdd 64 · 1) (bump_other _ _ (by decide)))
  case refine_4 =>
    intro r e h
    have hby : r.bypasses = true := by
      obtain h | h := h <;> simp [EvrRec.bypasses, h]
    simp [Evr.treat, hby]
  case refine_5 =>
    intro c at_ s h hrun hdue hnone
    have hsupp : writeSuppression c (s.setBucket c ((s.evr.bucket c).refill at_)) = s.setBucket c ((s.evr.bucket c).refill at_) :=
      writeSuppression_none (by rw [State.setBucket_same]; exact hnone)
    refine ⟨_, exec_bucketRefill h hrun hdue, suppressed_only _ _ _, ?_⟩
    rw [hsupp, State.setBucket_same]
    exact ⟨rfl, rfl, rfl, fun d hd => State.setBucket_other s c _ hd⟩
  case refine_6 =>
    intro c at_ s h hrun hdue hcount hfrozen
    obtain ⟨hbucket, hnext, hring⟩ := writeSuppression_some (c := c) (s := s.setBucket c ((s.evr.bucket c).refill at_))
      (by rw [State.setBucket_same]; exact hcount) hfrozen
    rw [State.setBucket_same] at hbucket
    exact ⟨_, exec_bucketRefill h hrun hdue, suppressed_only _ _ _, by rw [hbucket]; rfl, by rw [hbucket]; rfl, hnext, hring⟩
  case refine_7 =>
    intro c at_ s h hrun hdue
    refine ⟨_, exec_lossIntervalEnd h hrun hdue, suppressed_only _ _ _, ?_⟩
    by_cases hnone : (s.evr.bucket c).suppCount = 0 ∨ s.evr.frozen = true
    · rw [writeSuppression_none (by rw [State.setBucket_same]; exact hnone), State.setBucket_same]
      refine ⟨rfl, rfl, fun hcount hfrozen => ?_⟩
      simp [hcount, hfrozen] at hnone
    · rw [not_or, Bool.not_eq_true] at hnone
      obtain ⟨hbucket, _, hring⟩ := writeSuppression_some (c := c) (s := s.setBucket c { s.evr.bucket c with lossFrom := none })
        (by rw [State.setBucket_same]; exact hnone.1) hnone.2
      rw [State.setBucket_same] at hbucket
      rw [hbucket]
      exact ⟨rfl, rfl, fun _ _ => ⟨rfl, hring⟩⟩
  case refine_8 =>
    intro n v c s hc hload hbusy hfar
    exact ⟨_, exec_cursorLoad hc hload hbusy hfar, by simp, rfl, rfl⟩
  case refine_9 =>
    intro n v c s hc hbusy
    exact ⟨_, exec_cursorLoad_busy v hc hbusy, rfl⟩
  case refine_10 =>
    intro n c s hc hbusy
    refine ⟨_, exec_cursorLoadComplete hc hbusy, by simp, ?_, ?_, fun hn => ?_⟩
    · rw [cursorDone_evr]
      simp [lmod_getElem?, hc]
    · rw [cursorDone_evr]
    · subst hn
      exact Tbl.get_set_same _ _ _ _
  case refine_11 =>
    intro k s h hreset
    exact ⟨_, exec_saveEnd h hreset, by simp, rfl, rfl, rfl, rfl, rfl⟩
  case refine_12 =>
    intro a b s h ha hb hup hnone
    refine ⟨_, exec_saveAreaErase h ha hb hup hnone, by simp, ?_, rfl⟩
    change s.evr.areas.set _ _ = _
    rw [h]
    split <;> rfl

end Sys2Proof.Machine
end

section
/-!
PROOFS. The standing of the unit in its pair (R249, R253, R265): the claim gate unit without its copies and counters, through the gate, a change of
role, a takeover and the referee.
-/
namespace Sys2Proof.Machine
open Sys2Proof

/-- The claim gate unit without the copies at its gate and its counters. -/
def State.standing (s : State) : Cgu := { s.cgu with gate := [], setAside := [], live := [] }

theorem cgu_of_only {ps : List Part} {s t : State} (h : Only ps s t) (hp : Part.cgu ∉ ps) : t.cgu = s.cgu := h.same .cgu hp

theorem standing_of_cgu {s t : State} (h : t.cgu = s.cgu) : t.standing = s.standing := by rw [State.standing, State.standing, h]

theorem standing_of_only {ps : List Part} {s t : State} (h : Only ps s t) (hp : Part.cgu ∉ ps) : t.standing = s.standing :=
  standing_of_cgu (cgu_of_only h hp)

section
variable {s t : State} (h : t.standing = s.standing)
include h

theorem role_of_standing : t.cgu.role = s.cgu.role := by simpa only [State.standing] using congrArg Cgu.role h

end

/-! ### The gate -/

@[simp] theorem cguCount_standing (i : Nat) (s : State) : (cguCount i s).standing = s.standing := rfl

@[simp] theorem heldAside_standing (n : Nat) (up : Bool) (s : State) : (heldAside n up s).standing = s.standing :=
  standing_of_only (ps := [.sw]) (by simp) (by decide)

@[simp] theorem gateDrop_standing (k : Nat) (g : GateFrame) (s : State) : (gateDrop k g s).standing = s.standing :=
  (standing_of_only (s := cguCount k s) (ps := [.time, .sw, .insts, .bki, .evr, .mbx]) (by simp [gateDrop]) (by decide)).trans rfl

@[simp] theorem gateRelease_standing (g : GateFrame) (s : State) : (gateRelease g s).standing = s.standing :=
  (standing_of_only (s := cguCount 4 s) (ps := [.ports, .sw, .insts, .time, .bki, .evr, .mbx]) (by simp [gateRelease]) (by decide)).trans rfl

@[simp] theorem gateOne_standing (g : GateFrame) (s : State) : (gateOne g s).standing = s.standing := by
  unfold gateOne
  dsimp only
  split_ifs
  · exact heldAside_standing ..
  all_goals simp

theorem foldl_standing {α : Type} (l : List α) (f : State → α → State) (k : ∀ t a, (f t a).standing = t.standing) (s : State) :
    (l.foldl f s).standing = s.standing := by
  induction l generalizing s with
  | nil => rfl
  | cons a l ih => rw [List.foldl_cons, ih, k]

@[simp] theorem reexamine_standing (s : State) : (reexamine s).standing = s.standing := by
  unfold reexamine
  rw [foldl_standing _ _ fun t g => by simp]
  rfl

/-- Only a unit that is TAKING sets copies aside (R256). -/
theorem gateOne_setAside {s : State} (h : s.cgu.role ≠ .taking) (g : GateFrame) : (gateOne g s).cgu.setAside = s.cgu.setAside := by
  have hdrop : ∀ k, (gateDrop k g s).cgu.setAside = s.cgu.setAside := fun k => by
    have hc : (gateDrop k g s).cgu = (cguCount k s).cgu :=
      cgu_of_only (ps := [.time, .sw, .insts, .bki, .evr, .mbx]) (by simp [gateDrop]) (by decide)
    rw [hc]
    rfl
  have hrelease : (gateRelease g s).cgu.setAside = s.cgu.setAside := by
    have hc : (gateRelease g s).cgu = (cguCount 4 s).cgu :=
      cgu_of_only (ps := [.ports, .sw, .insts, .time, .bki, .evr, .mbx]) (by simp [gateRelease]) (by decide)
    rw [hc]
    rfl
  unfold gateOne
  dsimp only
  rw [if_neg h]
  split_ifs
  · exact hrelease
  · exact hdrop 6
  · exact hdrop 5

theorem reexamine_setAside {s : State} (h : s.cgu.role ≠ .taking) : (reexamine s).cgu.setAside = [] := by
  have hfold : ∀ (gs : List GateFrame) (t : State), t.cgu.role ≠ .taking → t.cgu.setAside = [] →
      (gs.foldl (fun s g => gateOne g (heldAside g.copy.frame false s)) t).cgu.setAside = [] := by
    intro gs
    induction gs with
    | nil => exact fun _ _ h => h
    | cons g gs ih =>
      intro t hrole hset
      have hheld : (heldAside g.copy.frame false t).cgu = t.cgu := cgu_of_only (ps := [.sw]) (by simp) (by decide)
      refine ih _ ?_ ?_
      · rw [role_of_standing (gateOne_standing _ _), hheld]
        exact hrole
      · rw [gateOne_setAside (by rw [hheld]; exact hrole), hheld]
        exact hset
  exact hfold _ _ h rfl

/-! ### Changes of role -/

theorem setRole_cgu (r : Role) (s : State) : (setRole r s).cgu = { s.cgu with role := r } := by
  unfold setRole
  dsimp only
  split
  case isTrue h => rw [← h]
  case isFalse => exact cgu_of_only (s := s.modCgu fun c => { c with role := r }) (ps := [.bki, .evr, .mbx]) (by simp) (by decide)

/-- A unit that becomes OUT, its copies at the gate aside (R249). -/
theorem becomeOut_standing (hard : Bool) (s : State) : (becomeOut hard s).standing =
    { s.standing with
      win := false, tripOn := false, role := .out, outHard := s.cgu.outHard || hard
      wires := s.cgu.wires.map fun w => { w with round := { w.round with drives := false } } } := by
  unfold becomeOut
  rw [reexamine_standing]
  simp only [State.standing, State.modCgu_cgu, setRole_cgu, winFalls]

@[simp] theorem becomeOut_setAside (hard : Bool) (s : State) : (becomeOut hard s).cgu.setAside = [] :=
  reexamine_setAside (by rw [State.modCgu_cgu, setRole_cgu]; nofun)

section
variable (hard : Bool) (s : State)

@[simp] theorem becomeOut_role : (becomeOut hard s).cgu.role = .out := by
  simpa only [State.standing] using congrArg Cgu.role (becomeOut_standing hard s)
@[simp] theorem becomeOut_win : (becomeOut hard s).cgu.win = false := by
  simpa only [State.standing] using congrArg Cgu.win (becomeOut_standing hard s)
@[simp] theorem becomeOut_tripOn : (becomeOut hard s).cgu.tripOn = false := by
  simpa only [State.standing] using congrArg Cgu.tripOn (becomeOut_standing hard s)
@[simp] theorem becomeOut_outHard : (becomeOut hard s).cgu.outHard = (s.cgu.outHard || hard) := by
  simpa only [State.standing] using congrArg Cgu.outHard (becomeOut_standing hard s)
@[simp] theorem becomeOut_ownClaim : (becomeOut hard s).cgu.ownClaim = s.cgu.ownClaim := by
  simpa only [State.standing] using congrArg Cgu.ownClaim (becomeOut_standing hard s)
@[simp] theorem becomeOut_clmEn : (becomeOut hard s).cgu.clmEn = s.cgu.clmEn := by
  simpa only [State.standing] using congrArg Cgu.clmEn (becomeOut_standing hard s)
@[simp] theorem becomeOut_claimMemMs : (becomeOut hard s).cgu.claimMemMs = s.cgu.claimMemMs := by
  simpa only [State.standing] using congrArg Cgu.claimMemMs (becomeOut_standing hard s)
@[simp] theorem becomeOut_noTiming : (becomeOut hard s).cgu.noTiming = s.cgu.noTiming := by
  simpa only [State.standing] using congrArg Cgu.noTiming (becomeOut_standing hard s)
@[simp] theorem becomeOut_idConflict : (becomeOut hard s).cgu.idConflict = s.cgu.idConflict := by
  simpa only [State.standing] using congrArg Cgu.idConflict (becomeOut_standing hard s)
@[simp] theorem becomeOut_wires :
    (becomeOut hard s).cgu.wires = s.cgu.wires.map fun w => { w with round := { w.round with drives := false } } := by
  simpa only [State.standing] using congrArg Cgu.wires (becomeOut_standing hard s)

end

/-- A takeover (R265), where the partner's claim leaves room for one more. -/
theorem startTakeover_cgu {s : State} (h : s.mlk.partnerClaim ≠ 0xFFFFFFFF) :
    (startTakeover s).cgu = { s.cgu with ownClaim := s.mlk.partnerClaim + 1, tripOn := false, role := .taking } := by
  have hconf : ∀ u : State, (configChanged u).cgu = u.cgu := fun u => cgu_of_only (ps := [.persist]) (by simp) (by decide)
  rw [startTakeover, if_neg h, setRole_cgu, hconf]
  rfl

theorem startTakeover_fwUp (s : State) : (startTakeover s).persist.fwUp = s.persist.fwUp := by
  have hrole : ∀ r (u : State), (setRole r u).persist = u.persist := fun r u =>
    (setRole_only (qs := [.cgu, .bki, .evr, .mbx]) r u (Only.refl _ u) (by simp)).same .persist (by decide)
  have hnote : ∀ a b c d e f (u : State), (note a b c d e f u).persist = u.persist := fun a b c d e f u =>
    (note_only (qs := [.bki, .evr]) a b c d e f u (Only.refl _ u) (by simp)).same .persist (by decide)
  unfold startTakeover
  split
  · rw [hnote]
  · rw [hrole]
    rfl

/-! ### The referee -/

@[simp] theorem recordDecision_cgu (row : Nat) (against : Option Bool) (k : CmpKey) (s : State) : (recordDecision row against k s).cgu = s.cgu :=
  cgu_of_only (ps := [.ocu, .mlk, .bki, .evr, .mbx]) (by simp) (by decide)

/-- No decision of the referee brings a unit that is OUT back. -/
theorem actDecision_role_of_out {s : State} (h : s.cgu.role = .out) (row : Nat) (own : Bool) : (actDecision row own s).cgu.role = .out := by
  have hno : s.cgu.role ≠ .standby := by rw [h]; decide
  unfold actDecision
  simp only [hno, false_and, if_false]
  split_ifs
  · exact h
  · exact becomeOut_role ..
  · exact h
  · exact h

theorem refereeF_role_of_out {s : State} (h : s.cgu.role = .out) : (refereeF s).cgu.role = .out := by
  unfold refereeF
  dsimp only
  split_ifs
  · exact h
  · exact actDecision_role_of_out (by rw [recordDecision_cgu]; exact h) _ _
  · exact actDecision_role_of_out (by rw [recordDecision_cgu]; exact h) _ _
  all_goals
    rw [recordDecision_cgu]
    exact h

/-- Once the F status of both units has been judged, the referee has nothing to say. -/
theorem refereeF_of_seen {s : State} (h : s.fPair = s.ocu.fSeen) : refereeF s = s := by simp [refereeF, h]

@[simp] theorem retry_cgu (b : BlockId) (u : Nat) (s : State) : (retry b u s).cgu = s.cgu :=
  cgu_of_only (ps := [.ports, .head, .mlk]) (by simp) (by decide)

end Sys2Proof.Machine
end

section
/-!
PROOFS. The Backstop island without the records that it keeps before the recorder runs (R399): what is posted and found leaves it as it is.
-/
namespace Sys2Proof.Machine
open Sys2Proof

/-- The Backstop island without the records that it holds. -/
def State.isle (s : State) : Bki := { s.bki with held := [], heldLost := 0 }

@[simp] theorem post_isle (r : EvrRec) (s : State) : (post r s).isle = s.isle := by
  unfold post
  split
  · rfl
  · split
    · rfl
    · split
      · simp only [State.isle, State.modBki_bki]
        split <;> rfl
      · rfl

@[simp] theorem note_isle (b : BlockId) (u code cls : Nat) (owner : Master) (detail : List Byte) (s : State) :
    (note b u code cls owner detail s).isle = s.isle := post_isle ..

@[simp] theorem State.modMbx_isle (s : State) (f : Mbx → Mbx) : (s.modMbx f).isle = s.isle := rfl

@[simp] theorem State.setFset_isle (s : State) (b : BlockId) (u : Nat) (f : FaultSet → FaultSet) : (s.setFset b u f).isle = s.isle := rfl

@[simp] theorem isle_ite {a b : State} (c : Prop) [Decidable c] : (if c then a else b).isle = if c then a.isle else b.isle :=
  apply_ite State.isle c a b

@[simp] theorem tellLost_isle (s : State) : (tellLost s).isle = s.isle := by simp [tellLost]

@[simp] theorem emit_isle (opcode : Nat) (inst : Option Nat) (gen : Nat) (vals : List Nat) (s : State) (tag : Nat) (st : Status) :
    (emit opcode inst gen vals s tag st).isle = s.isle := by simp [emit]

@[simp] theorem abortInjection_isle (f : Finding) (s : State) : (abortInjection f s).isle = s.isle := by simp [abortInjection]

@[simp] theorem finding_isle (f : Finding) (s : State) : (finding f s).isle = s.isle := by simp [finding]

end Sys2Proof.Machine
end

section
/-!
PROOFS. How fault sets leave their state and how injections are armed and made (R372 to R381), and O47.
-/
namespace Sys2Proof.Machine
open Sys2Proof

/-! ### Quiet periods -/

theorem exec_quietPeriodEnd {b : BlockId} {u : Nat} {s : State} (hset : isSet b u = true) (hstate : (s.fset b u).state = true)
    (hpersist : (s.fset b u).persist = false) (hheld : ¬ (b = .bki ∧ s.bki.coresHeld = true)) (hdue : (s.fset b u).quietEnd ≤ s.now) :
    exec (.quietPeriodEnd b u) s = .next (leaveFault b u s) := by
  have he : exec (.quietPeriodEnd b u) s = execQuietPeriodEnd b u s := rfl
  have hc : isSet b u = true ∧ (s.fset b u).state = true ∧ (!(s.fset b u).persist) = true ∧ (!decide (b = .bki ∧ s.bki.coresHeld = true)) = true := by
    simp [hset, hstate, hpersist, hheld]
  rw [he, execQuietPeriodEnd, if_pos (by simpa using hc), whenDue_now _ hdue]

theorem exec_quietPeriodEnd_not {b : BlockId} {u : Nat} {s : State}
    (h : (s.fset b u).persist = true ∨ (s.fset b u).state = false ∨ (b = .bki ∧ s.bki.coresHeld = true)) :
    exec (.quietPeriodEnd b u) s = .next s := by
  have he : exec (.quietPeriodEnd b u) s = execQuietPeriodEnd b u s := rfl
  rw [he, execQuietPeriodEnd, if_neg]
  rintro ⟨-, hstate, hpersist, hheld⟩
  obtain h | h | ⟨hb, hcores⟩ := h
  · simp [h] at hpersist
  · simp [h] at hstate
  · simp [hb, hcores] at hheld

theorem leaveFault_role_of_out {s : State} (h : s.cgu.role = .out) (b : BlockId) (u : Nat) : (leaveFault b u s).cgu.role = .out := by
  rw [leaveFault_eq, retry_cgu]
  refine refereeF_role_of_out ?_
  rw [cgu_of_only (leftFault_only b u s) (by decide)]
  exact h

/-! ### FLT_INJ -/

theorem exec_fltInjWrite {b : BlockId} {u : Nat} (v : BitVec 32) {s : State} (hset : isSet b u = true) : exec (.fltInjWrite b u v) s =
    .next (writeInj b u (bitOf v 31) (bitOf v 30) (bits v 27 24) (bits v 17 13) (BitVec.ofNat 8 (bits v 7 0)) s) := by
  have he : exec (.fltInjWrite b u v) s = execFltInjWrite b u v s := rfl
  rw [he, execFltInjWrite, if_pos hset]

/-- A set in which an injection is armed, or made at once where `mode` is 1 (R379). -/
def State.injecting (s : State) (b : BlockId) (u : Nat) (mode : Bool) (kind pos : Nat) (pattern : BitVec 8) : State :=
  s.setFset b u fun x => { x with
    injArm := !mode, injMode := mode, injState := if mode then 2 else 1, injKind := kind, injPos := pos, injPattern := pattern, injAt := s.now }

theorem writeInj_disarm (b : BlockId) (u : Nat) (mode : Bool) (kind pos : Nat) (pattern : BitVec 8) (s : State) :
    writeInj b u false mode kind pos pattern s =
      s.setFset b u fun x => { x with injArm := false, injState := if x.injArm then 0 else x.injState } := rfl

theorem writeInj_refused (b : BlockId) (u : Nat) (mode : Bool) (kind pos : Nat) (pattern : BitVec 8) {s : State}
    (h : (s.fset b u).injArm = true ∨ injectable kind mode = false ∨ pattern = 0 ∨ 17 < pos) :
    writeInj b u true mode kind pos pattern s = s := by
  unfold writeInj
  dsimp only
  rw [if_neg (by decide), if_pos (by simpa using h)]

theorem writeInj_taken (b : BlockId) (u : Nat) {mode : Bool} {kind pos : Nat} {pattern : BitVec 8} {s : State}
    (harm : (s.fset b u).injArm = false) (hkind : injectable kind mode = true) (hpattern : pattern ≠ 0) (hpos : pos ≤ 17) :
    writeInj b u true mode kind pos pattern s =
      if mode then injectNow b u kind (s.injecting b u mode kind pos pattern) else s.injecting b u mode kind pos pattern := by
  unfold writeInj
  dsimp only
  rw [if_neg (by decide), if_neg (by simpa [harm, hkind, hpos] using hpattern)]
  rfl

/-- A pattern of 8 bits that is not 0. -/
theorem pattern_ne_zero {v : BitVec 32} (h : bits v 7 0 ≠ 0) : BitVec.ofNat 8 (bits v 7 0) ≠ 0 := by
  have hlt : bits v 7 0 < 256 := by
    simp only [bits, fld]
    exact Nat.mod_lt _ (by decide)
  intro h0
  have := congrArg BitVec.toNat h0
  rw [BitVec.toNat_ofNat, Nat.mod_eq_of_lt hlt] at this
  exact h this

/-! ### A PROTOCOL finding that is injected -/

/-- The injected finding. -/
def protocolFinding (b : BlockId) (u : Nat) (persist : Bool) : Finding := { block := b, unit := u, kind := 9, inj := true, persist := persist }

/-- The reaction at its location (R380): a failed calibration step in the island. -/
def reacted (b : BlockId) (u : Nat) (s : State) : State := if b = .bki then calFailed s.bki.calNext s else injProtocol b u s

theorem injectNow_protocol {b : BlockId} {u : Nat} {s : State} (hq : s.quietOver b u = false) :
    ∃ p, injectNow b u 9 s = raise (protocolFinding b u p) (reacted b u s) := by
  have hcls : injClass b 9 s = 2 := by simp [injClass]
  by_cases hb : b = .bki
  · subst hb
    refine ⟨false, ?_⟩
    simp [injectNow, leaveDue, hq, hcls, reacted, protocolFinding, Finding.counts]
  · refine ⟨(injProtocol b u s).persists b u && !s.persists b u, ?_⟩
    simp [injectNow, leaveDue, hq, hcls, reacted, hb, protocolFinding, Finding.counts]

section
variable (b : BlockId) (u : Nat) (s : State)

theorem reacted_fset (c : BlockId) (v : Nat) : (reacted b u s).fset c v = s.fset c v := by
  unfold reacted
  split
  · rfl
  · exact fset_of_only (injProtocol_only (qs := [.ports, .head, .sw, .insts, .cgu, .mlk, .time, .bki, .evr, .mbx, .free]) b u s (Only.refl _ s)
      (by simp)) (by decide)

theorem injProtocol_clk : (injProtocol b u s).clk = s.clk := by
  cases b with
  | prt =>
    simp only [injProtocol]
    split <;> simp
  | byp => simp [injProtocol]
  | mlk =>
    simp only [injProtocol]
    split
    · rfl
    · rfl
  | _ => rfl

theorem reacted_now : (reacted b u s).now = s.now := by
  unfold reacted
  split
  · rfl
  · exact now_of_clk (injProtocol_clk b u s)

theorem reacted_quietOver : (reacted b u s).quietOver b u = s.quietOver b u := by
  have hcores : (decide (b = .bki) && (reacted b u s).bki.coresHeld) = (decide (b = .bki) && s.bki.coresHeld) := by
    by_cases hb : b = .bki
    · rw [reacted, if_pos hb]
      rfl
    · simp [hb]
  simp only [State.quietOver, reacted_fset, due, reacted_now, hcores]

end

/-- What an injected PROTOCOL finding leaves: the finding over the reaction at its location, the coil checked anew for the head. -/
theorem raise_protocol {b : BlockId} {u : Nat} {p : Bool} {s : State} (hq : s.quietOver b u = false) :
    raise (protocolFinding b u p) (reacted b u s) = coilAfter (protocolFinding b u p) (finding (protocolFinding b u p) (reacted b u s)) := by
  rw [raise_of_classK rfl, foundIn_of_running (by rw [← hq]; exact reacted_quietOver b u s)]

section
variable (s : State) (b : BlockId) (u : Nat) (mode : Bool) (kind pos : Nat) (pattern : BitVec 8)

theorem State.injecting_fset : (s.injecting b u mode kind pos pattern).fset b u = { s.fset b u with
    injArm := !mode, injMode := mode, injState := if mode then 2 else 1, injKind := kind, injPos := pos, injPattern := pattern
    injAt := s.now } := State.fset_setFset_same _ _ _ _

theorem State.injecting_only : Only [.faults] s (s.injecting b u mode kind pos pattern) := by simp [State.injecting]

theorem State.injecting_quietOver : (s.injecting b u mode kind pos pattern).quietOver b u = s.quietOver b u := by
  simp only [State.quietOver, State.injecting_fset]
  rfl

end

theorem FaultSet.take_injState (x : FaultSet) (f : Finding) (r : FirstErr) (now : Nat) : (x.take f r now).injState = x.injState := by
  simp [FaultSet.take, FaultSet.enter, FaultSet.count, apply_ite FaultSet.injState]

/-- What an injected PROTOCOL finding leaves in its set. -/
theorem raise_protocol_fset {b : BlockId} {u : Nat} {p : Bool} {s : State} (hq : s.quietOver b u = false) :
    ∃ r, (raise (protocolFinding b u p) (reacted b u s)).fset b u = (s.fset b u).take (protocolFinding b u p) r s.now := by
  have hrun : foundIn (protocolFinding b u p) (reacted b u s) = reacted b u s := foundIn_of_running ((reacted_quietOver b u s).trans hq)
  have h := raise_fset (f := protocolFinding b u p) (.inl rfl) (reacted b u s)
  have hkept : ((reacted b u s).fset b u).aborted (protocolFinding b u p) = s.fset b u := by
    rw [reacted_fset]
    rfl
  rw [hrun, show (protocolFinding b u p).block = b from rfl, show (protocolFinding b u p).unit = u from rfl, hkept, reacted_now] at h
  exact ⟨_, h⟩

/-- A finding that is not of the head changes nothing but the set and what tells of it. -/
theorem raise_protocol_only {b : BlockId} {u : Nat} {p : Bool} {s : State} (hq : s.quietOver b u = false) (hb : b ≠ .byp) :
    Only [.faults, .bki, .evr, .mbx] (reacted b u s) (raise (protocolFinding b u p) (reacted b u s)) := by
  rw [raise_protocol hq, coilAfter, if_neg (fun h => hb h.1)]
  exact finding_only _ _ (Only.refl _ _) (by simp)

theorem raise_protocol_isle {b : BlockId} {u : Nat} {p : Bool} {s : State} (hq : s.quietOver b u = false) (hb : b ≠ .byp) :
    (raise (protocolFinding b u p) (reacted b u s)).isle = (reacted b u s).isle := by
  rw [raise_protocol hq, coilAfter, if_neg (fun h => hb h.1), finding_isle]

/-! ### The reactions -/

theorem reacted_prt {u : Nat} (s : State) (hu : u < 2) :
    ((reacted .prt u s).port u).link = false ∧ ((reacted .prt u s).port u).holdOut = true := by
  have h : reacted .prt u s = (portDown u s).setPort u fun p => { p with holdOut := true } := by simp [reacted, injProtocol, hu]
  rw [h, State.port_setPort_same]
  exact ⟨(portDown_link u s u).trans (if_pos rfl), rfl⟩

/-- The head's coil is off and its ports are down and say so. -/
theorem reacted_byp (u : Nat) (s : State) :
    (reacted .byp u s).head.coil = false ∧ ∀ k, k < 2 → ((reacted .byp u s).port k).link = false ∧ ((reacted .byp u s).port k).attach = 3 := by
  have h : reacted .byp u s = ((portDown 1 (portDown 0 (coilOff s))).setPort 0 fun p => { p with attach := 3 }).setPort 1
    fun p => { p with attach := 3 } := rfl
  rw [h]
  refine ⟨?_, fun k hk => ?_⟩
  · change (portDown 1 (portDown 0 (coilOff s))).head.coil = false
    simp
  · obtain rfl | rfl : k = 0 ∨ k = 1 := by omega
    · rw [State.port_setPort_other _ _ (by decide), State.port_setPort_same]
      exact ⟨portDown_link_of_down (by rw [portDown_link, if_pos rfl]), rfl⟩
    · rw [State.port_setPort_same, State.port_setPort_other _ _ (by decide)]
      exact ⟨by rw [portDown_link, if_pos rfl], rfl⟩

/-- A calibration step counts as failed; the third in a row begins anew. -/
theorem reacted_bki (u : Nat) (s : State) : (reacted .bki u s).isle.calFails = if 2 ≤ s.bki.calFails then 0 else s.bki.calFails + 1 := by
  simp [reacted, calFailed, State.isle, bkiCount]

/-- Elsewhere nothing but the island reacts. -/
theorem reacted_only {b : BlockId} (u : Nat) (s : State) (hb : b ∉ [BlockId.byp, .prt, .mlk, .cgu]) : Only [.bki] s (reacted b u s) := by
  unfold reacted
  split
  · exact calFailed_only _ _ (Only.refl _ s) (by simp)
  · cases b with
    | byp => simp at hb
    | prt => simp at hb
    | mlk => simp at hb
    | cgu => simp at hb
    | _ => exact Only.refl _ s

/-- Where the coil is off already, checking its conditions anew changes nothing. -/
theorem coilCheck_of_off {s : State} (h : s.head.coil = false) : coilCheck s = s := by
  unfold coilCheck coilOff
  simp [h]

theorem coilAfter_of_off {f : Finding} {s : State} (h : s.head.coil = false) : coilAfter f s = s := by
  unfold coilAfter
  rw [coilCheck_of_off h, ite_self]

/-- One of the two lanes, which the model leaves open, is declared down. -/
theorem reacted_mlk {u : Nat} {s : State} (hon : s.mlk.enabledAt.isSome = true) (hlen : s.mlk.lanes.length = 2)
    (hup : ∀ l, l ∈ s.mlk.lanes → l.failed = false) :
    ∃ n, n < 2 ∧ ((reacted .mlk u s).mlk.lanes.getD n {}).failed = true ∧ ((reacted .mlk u s).mlk.lanes.getD n {}).up = false := by
  have hn : s.free1 % 2 < s.mlk.lanes.length := by rw [hlen]; omega
  have hl : (s.mlk.lanes.getD (s.free1 % 2) {}).failed = false := by
    rw [List.getD_eq_getElem _ _ hn]
    exact hup _ (List.getElem_mem hn)
  have h : reacted .mlk u s = mlkCount 8 (((countMissed s).took).modMlk fun m => { m with lanes := lmod m.lanes (s.free1 % 2) Lane.down }) := by
    change injProtocol .mlk u s = _
    rw [injProtocol]
    exact if_pos ⟨hon, by rw [hl]; rfl⟩
  have hlanes : (reacted .mlk u s).mlk.lanes = lmod (countMissed s).mlk.lanes (s.free1 % 2) Lane.down := by rw [h]; rfl
  have hsome : (countMissed s).mlk.lanes[s.free1 % 2]? ≠ none := by
    have hmap : (countMissed s).mlk.lanes.length = s.mlk.lanes.length := List.length_map _
    simpa [hmap] using hn
  obtain ⟨l, hl'⟩ := Option.ne_none_iff_exists'.1 hsome
  refine ⟨s.free1 % 2, by omega, ?_⟩
  rw [hlanes, List.getD_eq_getElem?_getD, lmod_getElem?, if_pos rfl, hl']
  exact ⟨rfl, rfl⟩

/-- One of the two wires, which the model leaves open, is disregarded. -/
theorem reacted_cgu (u : Nat) {s : State} (hlen : s.cgu.wires.length = 2) :
    ∃ n, n < 2 ∧ ((reacted .cgu u s).cgu.wires.getD n {}).result = 2 ∧ ((reacted .cgu u s).cgu.wires.getD n {}).disregard = true := by
  have hn : s.free1 % 2 < s.cgu.wires.length := by rw [hlen]; omega
  have hwires : (reacted .cgu u s).cgu.wires = lmod s.cgu.wires (s.free1 % 2) Wire.faulted := rfl
  refine ⟨s.free1 % 2, by omega, ?_⟩
  rw [hwires, List.getD_eq_getElem?_getD, lmod_getElem?, if_pos rfl, List.getElem?_eq_getElem hn]
  exact ⟨rfl, rfl⟩

/-- Settles O47. -/
theorem faultSetsLeaveAndInject : Obligations.FaultSetsLeaveAndInject := by
  refine ⟨?_, ?_, ?_, ?_, ?_, ?_, ?_, ?_, ?_⟩
  case refine_1 =>
    intro b u s hset hstate hpersist hheld hdue
    exact ⟨_, exec_quietPeriodEnd hset hstate hpersist hheld hdue, leaveFault_fset b u s, fun h => leaveFault_role_of_out h b u⟩
  case refine_2 =>
    intro b u s h
    exact ⟨_, exec_quietPeriodEnd_not h, rfl⟩
  case refine_3 =>
    intro b u v s hset harm
    refine ⟨_, exec_fltInjWrite v hset, ?_⟩
    rw [harm, writeInj_disarm]
    exact ⟨by simp, State.fset_setFset_same _ _ _ _⟩
  case refine_4 =>
    intro b u v s hset harm hmode hkind hpattern hpos hidle
    refine ⟨_, exec_fltInjWrite v hset, ?_⟩
    rw [harm, hmode, writeInj_taken b u hidle (by simpa [injectable] using hkind) (pattern_ne_zero hpattern) hpos, if_neg (by decide)]
    refine ⟨State.injecting_only .., ?_⟩
    rw [State.injecting_fset]
    exact ⟨rfl, rfl, rfl, rfl, rfl, rfl⟩
  case refine_5 =>
    intro b u v s harm h
    cases hset : isSet b u with
    | false =>
      have he : exec (.fltInjWrite b u v) s = execFltInjWrite b u v s := rfl
      exact ⟨s, by simp [he, execFltInjWrite, hset], rfl⟩
    | true =>
      refine ⟨_, exec_fltInjWrite v hset, ?_⟩
      rw [harm]
      exact writeInj_refused _ _ _ _ _ _ (h.imp_right (Or.imp_right fun h0 => .inl (by rw [h0]; rfl)))
  case refine_6 =>
    intro b u v s hset harm hmode hkind hpattern hpos hidle hquiet
    have hq := (State.injecting_quietOver s b u true 9 (bits v 17 13) (BitVec.ofNat 8 (bits v 7 0))).trans hquiet
    have hexec := exec_fltInjWrite (s := s) v hset
    rw [harm, hmode, hkind, writeInj_taken b u hidle rfl (pattern_ne_zero hpattern) hpos, if_pos rfl] at hexec
    obtain ⟨p, hnow⟩ := injectNow_protocol hq
    obtain ⟨r, hfset⟩ := raise_protocol_fset (p := p) hq
    rw [hnow] at hexec
    rw [State.injecting_fset] at hfset
    refine ⟨_, hexec, fun hb => ?_, ?_, ?_, ?_, ?_, ?_, ?_, fun hb hu => ?_, fun hb => ?_, fun hb hon hlen hup => ?_, fun hb hlen => ?_, fun hb => ?_⟩
    · have hby : b ≠ .byp := by
        rintro rfl
        simp at hb
      exact ((State.injecting_only ..).mono (by simp)).trans (((reacted_only u _ hb).mono (by simp)).trans (raise_protocol_only hq hby))
    · rw [hfset, FaultSet.take_injected]
      rfl
    · rw [hfset, FaultSet.take_cntK]
      rfl
    · rw [hfset, FaultSet.take_cntF]
      rfl
    · rw [hfset, FaultSet.take_state]
      rfl
    · rw [hfset, FaultSet.take_injState]
      rfl
    · rw [hfset, FaultSet.take_quietFrom]
      rfl
    · subst hb
      have h := reacted_prt (s.injecting .prt u true 9 (bits v 17 13) (BitVec.ofNat 8 (bits v 7 0))) hu
      rw [port_of_only (raise_protocol_only hq (by decide)) (by decide)]
      exact h
    · subst hb
      have h := reacted_byp u (s.injecting .byp u true 9 (bits v 17 13) (BitVec.ofNat 8 (bits v 7 0)))
      have hcoil : (finding (protocolFinding .byp u p) (reacted .byp u (s.injecting .byp u true 9 (bits v 17 13)
          (BitVec.ofNat 8 (bits v 7 0))))).head.coil = false := by
        rw [(finding_only (qs := [.faults, .bki, .evr, .mbx]) _ _ (Only.refl _ _) (by simp)).same .head (by decide)]
        exact h.1
      rw [raise_protocol hq, coilAfter_of_off hcoil]
      exact ⟨hcoil, fun k hk => by rw [finding_port]; exact h.2 k hk⟩
    · subst hb
      have h := reacted_mlk (u := u) (s := s.injecting .mlk u true 9 (bits v 17 13) (BitVec.ofNat 8 (bits v 7 0))) hon hlen hup
      rw [(raise_protocol_only hq (by decide)).same .mlk (by decide)]
      exact h
    · subst hb
      have h := reacted_cgu u (s := s.injecting .cgu u true 9 (bits v 17 13) (BitVec.ofNat 8 (bits v 7 0))) hlen
      rw [(raise_protocol_only hq (by decide)).same .cgu (by decide)]
      exact h
    · subst hb
      have h := congrArg Bki.calFails (raise_protocol_isle (p := p) hq (by decide))
      exact h.trans (reacted_bki u _)
  case refine_7 =>
    intro b u s hset harm hdue
    have he : exec (.injectionTimeout b u) s = execInjectionTimeout b u s := rfl
    refine ⟨s.setFset b u fun x => { x with injArm := false, injState := 3 }, ?_, by simp, State.fset_setFset_same _ _ _ _⟩
    rw [he, execInjectionTimeout, if_pos ⟨hset, harm⟩, whenDue_now _ hdue]
  case refine_8 =>
    intro b u s hset
    have he : exec (.feCodeRead b u) s = execFeCodeRead b u s := rfl
    exact ⟨_, by rw [he, execFeCodeRead, if_pos hset], by simp [readFeCode], State.fset_setFset_same _ _ _ _⟩
  case refine_9 =>
    intro b u s hset
    have he : exec (.rearmWrite b u) s = execRearmWrite b u s := rfl
    exact ⟨_, by rw [he, execRearmWrite, if_pos hset], by simp [rearm], State.fset_setFset_same _ _ _ _⟩

end Sys2Proof.Machine
end

section
/-!
PROOFS. The claim line (R249, R251, R255): the start of rounds, CLM_EN, and the loss of the bit timers, with what the referee does on them; O38.
-/
namespace Sys2Proof.Machine
open Sys2Proof

/-! ### Rounds -/

/-- A round begins on both wires. -/
theorem beginRounds_both {w0 w1 : Wire} {s : State} (h : s.cgu.wires = [w0, w1]) : (beginRounds [0, 1] s).cgu =
    { s.cgu with wires := [w0.begin_ s.now s.cgu.ownClaim s.cgu.drivesClaim, w1.begin_ s.now s.cgu.ownClaim s.cgu.drivesClaim] } := by
  simp only [beginRounds, State.modCgu_cgu, h, List.foldl_cons, List.foldl_nil, lmod]

theorem lmod_eq_set {α : Type} {l : List α} {k : Nat} {a : α} (f : α → α) (h : l[k]? = some a) : lmod l k f = l.set k (f a) := by
  induction l generalizing k with
  | nil => simp at h
  | cons b l ih =>
    cases k with
    | zero =>
      have hb : b = a := by simpa using h
      rw [lmod, List.set_cons_zero, hb]
    | succ k => rw [lmod, List.set_cons_succ, ih (by simpa using h)]

theorem exec_claimRoundStart_tb {s : State} (ht : s.cgu.timed = true) (hosc : s.cgu.osc = false)
    (h : roundInstant s.time.tbNs ≤ (s.untilTb (roundInstant s.time.tbNs)).time.tbNs) :
    exec .claimRoundStart s = .next (beginRounds [0, 1] (s.untilTb (roundInstant s.time.tbNs))) := by
  have he : exec .claimRoundStart s = execClaimRoundStart s := rfl
  rw [he, execClaimRoundStart, if_pos ht, if_neg (by simp [hosc]), whenTb, if_pos h]

theorem exec_claimRoundStart_osc {s : State} (ht : s.cgu.timed = true) (hosc : s.cgu.osc = true) (h : s.cgu.lastStart + us 500 ≤ s.now) :
    exec .claimRoundStart s = .next (beginRounds [0, 1] s) := by
  have he : exec .claimRoundStart s = execClaimRoundStart s := rfl
  rw [he, execClaimRoundStart, if_pos ht, if_pos hosc, whenDue_now _ h]

/-! ### A unit put OUT -/

/-- The unit is OUT, and not because of CLM_EN alone (R249). -/
def State.putOut (s : State) : Prop := s.cgu.role = .out ∧ s.cgu.win = false ∧ s.cgu.tripOn = false ∧ s.cgu.outHard = true

theorem putOut_of_cgu {s t : State} (h : t.cgu = s.cgu) (hs : s.putOut) : t.putOut := by
  rw [State.putOut, h]
  exact hs

theorem becomeOut_putOut (s : State) : (becomeOut true s).putOut := ⟨by simp, by simp, by simp, by simp⟩

/-! ### The referee on the own unit's failure -/

/-- What the referee sees of the partner and has judged, and what is no business of its: the counters of the link and the pending comparisons. -/
def State.refereed (s : State) : PartnerSt × StatusWord × Nat × Bool × Tbl Nat × List Pend :=
  (s.mlk.partner, s.mlk.word, s.ocu.fSeen, s.mlk.awaitOver, s.mlk.live, s.ocu.pending)

theorem refereed_of_only {ps : List Part} {s t : State} (h : Only ps s t) (hm : Part.mlk ∉ ps) (ho : Part.ocu ∉ ps) : t.refereed = s.refereed := by
  rw [State.refereed, State.refereed, h.same .mlk hm, h.same .ocu ho]

@[simp] theorem recordDecision_refereed (row : Nat) (against : Option Bool) (k : CmpKey) (s : State) :
    (recordDecision row against k s).refereed = s.refereed := by
  have hemit : ∀ a b c d (u : State), (emit a b c d u).refereed = u.refereed := fun a b c d u =>
    refereed_of_only (ps := [.bki, .evr, .mbx]) (by simp) (by decide) (by decide)
  have hnote : ∀ a b c d e f (u : State), (note a b c d e f u).refereed = u.refereed := fun a b c d e f u =>
    refereed_of_only (ps := [.bki, .evr]) (by simp) (by decide) (by decide)
  have hout : ∀ (u : State) (x : Mlk → List (Nat × Bool × CmpKey)), (u.modMlk fun m => { m with decisionsOut := x m }).refereed = u.refereed :=
    fun _ _ => rfl
  unfold recordDecision
  cases against with
  | none => rfl
  | some own =>
    simp only [apply_ite State.refereed, hout, hemit, hnote, ite_self]
    rfl

theorem recordDecision_partner (row : Nat) (against : Option Bool) (k : CmpKey) (s : State) :
    (recordDecision row against k s).mlk.partner = s.mlk.partner ∧ (recordDecision row against k s).mlk.word = s.mlk.word
    ∧ (recordDecision row against k s).ocu.fSeen = s.ocu.fSeen := by
  have h := recordDecision_refereed row against k s
  simp only [State.refereed, Prod.mk.injEq] at h
  exact ⟨h.1, h.2.1, h.2.2.1⟩

theorem recordDecision_live_pending (row : Nat) (against : Option Bool) (k : CmpKey) (s : State) :
    (recordDecision row against k s).mlk.awaitOver = s.mlk.awaitOver ∧ (recordDecision row against k s).mlk.live = s.mlk.live ∧ (recordDecision row against k s).ocu.pending = s.ocu.pending := by
  have h := recordDecision_refereed row against k s
  simp only [State.refereed, Prod.mk.injEq] at h
  exact h.2.2.2

/-- A sound partner is present, and a unit whose F status the referee has judged alone has been put OUT. -/
def State.judged (s : State) : Prop := s.mlk.partner = .present ∧ s.mlk.word.f = false ∧ (s.ocu.fSeen = 1 → s.putOut)

theorem judged_of_only {ps : List Part} {s t : State} (h : Only ps s t) (hm : Part.mlk ∉ ps) (ho : Part.ocu ∉ ps) (hc : Part.cgu ∉ ps)
    (hs : s.judged) : t.judged := by
  rw [State.judged, h.same .mlk hm, h.same .ocu ho]
  exact ⟨hs.1, hs.2.1, fun h1 => putOut_of_cgu (cgu_of_only h hc) (hs.2.2 h1)⟩

theorem fPair_of_judged {s : State} (h : s.judged) : s.fPair = b2n s.unitF := by
  simp [State.fPair, h.2.1, b2n]

/-- Row 1 of the referee (R262, R264). -/
theorem refereeF_of_own {s : State} (h : s.fPair = 1) (hseen : s.ocu.fSeen ≠ 1) :
    refereeF s = actDecision 1 true (recordDecision 1 (some true) {} (s.modOcu fun o => { o with fSeen := s.fPair })) := by
  have hne : ¬ s.fPair = s.ocu.fSeen := by rw [h]; exact hseen.symm
  unfold refereeF
  dsimp only
  rw [if_neg hne, if_pos h]

/-- Neither unit is failed any more. -/
theorem refereeF_of_none {s : State} (h : s.fPair = 0) (hseen : s.ocu.fSeen ≠ 0) :
    refereeF s = recordDecision 4 none {} (s.modOcu fun o => { o with fSeen := s.fPair }) := by
  have hne : ¬ s.fPair = s.ocu.fSeen := by rw [h]; exact hseen.symm
  unfold refereeF
  dsimp only
  rw [if_neg hne, if_neg (by omega), if_neg (by omega), if_neg (by omega)]

/-- Without a partner the referee records its decision and nobody acts on it (R264). -/
theorem refereeF_of_gone {s : State} (h : s.partnerGone = true) : refereeF s = s ∨
    ∃ row against, refereeF s = recordDecision row against {} (s.modOcu fun o => { o with fSeen := s.fPair }) := by
  have hp : s.fPair = b2n s.unitF := by simp [State.fPair, h, b2n]
  by_cases hsame : s.fPair = s.ocu.fSeen
  · exact .inl (refereeF_of_seen hsame)
  · cases hf : s.unitF with
    | false =>
      have h0 : s.fPair = 0 := by rw [hp, hf]; rfl
      exact .inr ⟨_, _, refereeF_of_none h0 (by omega)⟩
    | true =>
      have h1 : s.fPair = 1 := by rw [hp, hf]; rfl
      obtain ⟨hpart, -, -⟩ := recordDecision_partner 1 (some true) {} (s.modOcu fun o => { o with fSeen := s.fPair })
      have hgone : (recordDecision 1 (some true) {} (s.modOcu fun o => { o with fSeen := s.fPair })).partnerGone = true := by
        rw [State.partnerGone, hpart]
        exact h
      refine .inr ⟨1, some true, ?_⟩
      rw [refereeF_of_own h1 (by omega), actDecision, if_pos rfl, if_pos rfl, if_pos hgone]

/-- So the claim gate unit, the link's counters and the pending comparisons stay. -/
theorem refereeF_kept_of_gone {s : State} (h : s.partnerGone = true) :
    (refereeF s).cgu = s.cgu ∧ (refereeF s).mlk.awaitOver = s.mlk.awaitOver ∧ (refereeF s).mlk.live = s.mlk.live ∧ (refereeF s).ocu.pending = s.ocu.pending := by
  obtain he | ⟨row, against, he⟩ := refereeF_of_gone h
  · rw [he]
    exact ⟨rfl, rfl, rfl, rfl⟩
  · obtain ⟨hover, hlive, hpend⟩ := recordDecision_live_pending row against {} (s.modOcu fun o => { o with fSeen := s.fPair })
    rw [he, recordDecision_cgu]
    exact ⟨rfl, hover, hlive, hpend⟩

/-- Row 1 with a partner that is present puts the unit OUT. -/
theorem refereeF_of_own_present {s : State} (h : s.fPair = 1) (hseen : s.ocu.fSeen ≠ 1) (hp : s.mlk.partner = .present) :
    refereeF s = becomeOut true (recordDecision 1 (some true) {} (s.modOcu fun o => { o with fSeen := s.fPair })) := by
  obtain ⟨hpart, -, -⟩ := recordDecision_partner 1 (some true) {} (s.modOcu fun o => { o with fSeen := s.fPair })
  have hgone : (recordDecision 1 (some true) {} (s.modOcu fun o => { o with fSeen := s.fPair })).partnerGone = false := by
    rw [State.partnerGone, hpart, State.modOcu_mlk, hp]
    rfl
  rw [refereeF_of_own h hseen, actDecision, if_pos rfl, if_pos rfl, if_neg (by rw [hgone]; decide)]

@[simp] theorem becomeOut_mlk (hard : Bool) (s : State) : (becomeOut hard s).mlk = s.mlk :=
  (becomeOut_only (qs := [.ports, .sw, .insts, .cgu, .time, .bki, .evr, .mbx]) hard s (Only.refl _ s) (by simp)).same .mlk (by decide)

/-- The referee's row 1 puts the unit OUT, or has done so already. -/
theorem refereeF_judged {s : State} (h : s.judged) : (refereeF s).judged ∧ (s.unitF = true → (refereeF s).putOut) := by
  have hp := fPair_of_judged h
  obtain ⟨hpres, hword, hout⟩ := h
  by_cases hsame : s.fPair = s.ocu.fSeen
  · rw [refereeF_of_seen hsame]
    exact ⟨⟨hpres, hword, hout⟩, fun hf => hout (by rw [← hsame, hp, hf]; rfl)⟩
  · cases hf : s.unitF with
    | false =>
      have h0 : s.fPair = 0 := by rw [hp, hf]; rfl
      obtain ⟨hpart, hword', hseen⟩ := recordDecision_partner 4 none {} (s.modOcu fun o => { o with fSeen := s.fPair })
      rw [refereeF_of_none h0 (by omega)]
      refine ⟨⟨hpart.trans hpres, (congrArg StatusWord.f hword').trans hword, fun h1 => ?_⟩, nofun⟩
      have hzero : s.fPair = 1 := hseen.symm.trans h1
      omega
    | true =>
      have h1 : s.fPair = 1 := by rw [hp, hf]; rfl
      obtain ⟨hpart, hword', -⟩ := recordDecision_partner 1 (some true) {} (s.modOcu fun o => { o with fSeen := s.fPair })
      rw [refereeF_of_own_present h1 (by omega) hpres]
      refine ⟨⟨?_, ?_, fun _ => becomeOut_putOut _⟩, fun _ => becomeOut_putOut _⟩
      · rw [becomeOut_mlk]
        exact hpart.trans hpres
      · rw [becomeOut_mlk]
        exact (congrArg StatusWord.f hword').trans hword

/-! ### The clock of TB stops -/

/-- The finding of a TB clock stop (R21, R281). -/
def tbStopFinding : Finding := { block := .tbu, kind := 5, cls := 3, persist := true }

/-- Every cluster's frames are no longer aligned with TB (R214). -/
def State.unaligned (s : State) : State := (List.range 8).foldl (fun s k => s.setPsc k fun p => { p with aligned := false }) s

theorem State.unaligned_only (s : State) : Only [.sched] s s.unaligned :=
  foldl_only _ _ (Only.refl _ s) fun t k => State.setPsc_only t k _ (Only.refl _ t) (by simp)

theorem State.setPsc_psc (s : State) (k j : Nat) (f : Psc → Psc) : (s.setPsc k f).psc j = if j = k then f (s.psc j) else s.psc j := by
  change Tbl.get (s.sched.pscs.set k _) j {} = _
  rw [Tbl.get_set]
  split
  case isTrue h => rw [h]; rfl
  case isFalse => rfl

/-- Aligned falls in every cluster of a list, and rises in none. -/
theorem foldl_unaligned {k : Nat} (l : List Nat) (s : State) (h : k ∈ l ∨ (s.psc k).aligned = false) :
    ((l.foldl (fun s k => s.setPsc k fun p => { p with aligned := false }) s).psc k).aligned = false := by
  induction l generalizing s with
  | nil => simpa using h
  | cons j l ih =>
    rw [List.foldl_cons]
    refine ih _ ?_
    by_cases hj : k = j
    · exact .inr (by rw [State.setPsc_psc, if_pos hj])
    · rw [State.setPsc_psc, if_neg hj]
      exact h.imp_left fun hm => (List.mem_cons.1 hm).resolve_left hj

theorem State.unaligned_psc (s : State) {k : Nat} (hk : k < 8) : (s.unaligned.psc k).aligned = false :=
  foldl_unaligned _ _ (.inl (List.mem_range.2 hk))

/-- The clocks over to the oscillator (R255). -/
def State.onOscillator (s : State) : State := ((s.modTime fun t => { t with tbStopped := true }).unaligned).modCgu fun c => { c with osc := true }

theorem State.onOscillator_only (s : State) : Only [.time, .sched, .cgu] s s.onOscillator :=
  State.modCgu_only _ ((State.modTime_only _ (Only.refl _ s) (by simp)).trans ((State.unaligned_only _).mono (by simp))) (by simp)

theorem State.onOscillator_cgu (s : State) : s.onOscillator.cgu = { s.cgu with osc := true } := by
  have h : (s.modTime fun t => { t with tbStopped := true }).unaligned.cgu = s.cgu := (State.unaligned_only _).same .cgu (by decide)
  rw [State.onOscillator, State.modCgu_cgu, h]

theorem State.onOscillator_time (s : State) : s.onOscillator.time = { s.time with tbStopped := true } :=
  (State.unaligned_only (s.modTime fun t => { t with tbStopped := true })).same .time (by decide)

theorem State.unaligned_time (s : State) : s.unaligned.time = s.time := s.unaligned_only.same .time (by decide)

theorem exec_tbClockStop {s : State} (hrun : s.time.tbStopped = false) (hosc : s.time.oscFailed = false) :
    exec .tbClockStop s = .next (raise tbStopFinding s.onOscillator) := by
  have he : exec .tbClockStop s = execTbClockStop s := rfl
  have hfail : (s.modTime fun t => { t with tbStopped := true }).unaligned.time.oscFailed = false := by
    rw [State.unaligned_time]
    exact hosc
  rw [he, execTbClockStop, if_neg (by simp [hrun])]
  change Host.Outcome.next (raise tbStopFinding (if (s.modTime fun t => { t with tbStopped := true }).unaligned.time.oscFailed = true then _ else _)) = _
  rw [if_neg (by simp [hfail])]
  rfl

/-- The finding, in a block that has nothing to try again: F, so the referee has the last word. -/
theorem raise_tbStop (s : State) : raise tbStopFinding s = vector 19 (refereeF (finding tbStopFinding (foundIn tbStopFinding s))) := by
  rw [raise_of_classF rfl (by decide), if_neg (by decide), coilAfter, if_neg (by simp [tbStopFinding])]

theorem foundIn_tbStop (s : State) :
    foundIn tbStopFinding s = s ∨ foundIn tbStopFinding s = refereeF (leftFault .tbu 0 s) := by
  cases h : s.quietOver .tbu 0 with
  | false => exact .inl (foundIn_of_running h)
  | true => exact .inr (foundIn_of_counts rfl h)

@[simp] theorem vector_cgu (v : Nat) (s : State) : (vector v s).cgu = s.cgu := rfl

@[simp] theorem finding_cgu (f : Finding) (s : State) : (finding f s).cgu = s.cgu := cgu_of_only (ps := [.bki, .faults, .evr, .mbx]) (by simp) (by decide)

theorem partnerGone_of_only {ps : List Part} {s t : State} (h : Only ps s t) (hp : Part.mlk ∉ ps) : t.partnerGone = s.partnerGone := by
  rw [State.partnerGone, State.partnerGone, h.same .mlk hp]

@[simp] theorem actDecision_mlk (row : Nat) (own : Bool) (s : State) : (actDecision row own s).mlk = s.mlk :=
  (actDecision_only (qs := [.ports, .sw, .insts, .cgu, .ocu, .time, .bki, .evr, .mbx, .persist]) row own s (Only.refl _ s) (by simp)).same .mlk (by decide)

/-- The referee leaves the partner's presence alone. -/
@[simp] theorem refereeF_partner (s : State) : (refereeF s).mlk.partner = s.mlk.partner := by
  have h : ∀ row against k f, (recordDecision row against k (s.modOcu f)).mlk.partner = s.mlk.partner := fun row against k f =>
    (recordDecision_partner row against k (s.modOcu f)).1
  unfold refereeF
  simp only [apply_ite (fun u : State => u.mlk.partner), actDecision_mlk, h, ite_self]

/-- With no partner a stop of the TB clock leaves the unit where it is. -/
theorem raise_tbStop_cgu {s : State} (h : s.partnerGone = true) : (raise tbStopFinding s).cgu = s.cgu := by
  have hleft : (leftFault .tbu 0 s).partnerGone = true := (partnerGone_of_only (leftFault_only .tbu 0 s) (by decide)).trans h
  have hfound : (foundIn tbStopFinding s).cgu = s.cgu ∧ (foundIn tbStopFinding s).partnerGone = true := by
    obtain hf | hf := foundIn_tbStop s
    · rw [hf]
      exact ⟨rfl, h⟩
    · rw [hf, (refereeF_kept_of_gone hleft).1]
      refine ⟨cgu_of_only (leftFault_only .tbu 0 s) (by decide), ?_⟩
      rw [State.partnerGone, refereeF_partner]
      exact hleft
  have hgone : (finding tbStopFinding (foundIn tbStopFinding s)).partnerGone = true :=
    (partnerGone_of_only (ps := [.bki, .faults, .evr, .mbx]) (by simp) (by decide)).trans hfound.2
  rw [raise_tbStop, vector_cgu, (refereeF_kept_of_gone hgone).1, finding_cgu, hfound.1]

/-- With a sound partner present a stop of the TB clock puts the unit OUT. -/
theorem raise_tbStop_putOut {s : State} (h : s.judged) : (raise tbStopFinding s).putOut := by
  have hfound : (foundIn tbStopFinding s).judged := by
    obtain hf | hf := foundIn_tbStop s
    · rw [hf]
      exact h
    · rw [hf]
      exact (refereeF_judged (judged_of_only (leftFault_only .tbu 0 s) (by decide) (by decide) (by decide) h)).1
  have hfind : (finding tbStopFinding (foundIn tbStopFinding s)).judged :=
    judged_of_only (ps := [.bki, .faults, .evr, .mbx]) (by simp) (by decide) (by decide) (by decide) hfound
  have hactive : ((finding tbStopFinding (foundIn tbStopFinding s)).fset .tbu 0).fActive = true := by
    have hset := finding_fset tbStopFinding (foundIn tbStopFinding s)
    refine (congrArg FaultSet.fActive hset).trans ?_
    rw [FaultSet.take_fActive]
    simp [tbStopFinding]
  rw [raise_tbStop]
  exact putOut_of_cgu (vector_cgu ..) ((refereeF_judged hfind).2 (unitF_of_fset hactive))

/-- The time of the module goes on as the finding found it. -/
theorem raise_tbStopped (f : Finding) (s : State) : (raise f s).time.tbStopped = s.time.tbStopped := by
  have h := raise_clk f s
  simpa only [State.clk] using congrArg Time.tbStopped h

/-! ### The loss of both references -/

/-- Neither bit timer runs. -/
def State.untimed (s : State) : State := s.modCgu fun c => { c with
  noTiming := true, wires := c.wires.map fun w => { w with round := { w.round with active := false } } }

theorem exec_oscillatorFail_both {s : State} (h : s.time.tbStopped = true) :
    exec .oscillatorFail s = .next (becomeOut true (s.modTime fun t => { t with oscFailed := true }).untimed) := by
  have he : exec .oscillatorFail s = execOscillatorFail s := rfl
  rw [he, execOscillatorFail]
  dsimp only
  rw [if_pos (show (s.modTime fun t => { t with oscFailed := true }).time.tbStopped = true from h)]
  rfl

@[simp] theorem becomeOut_clk_oscFailed (hard : Bool) (s : State) : (becomeOut hard s).time.oscFailed = s.time.oscFailed := by
  have h := becomeOut_clk hard s
  simpa only [State.clk] using congrArg Time.oscFailed h

/-- Settles O38. -/
theorem claimLineEnableAndTiming : Obligations.ClaimLineEnableAndTiming := by
  refine ⟨?_, ?_, ?_, ?_, ?_, ?_, ?_, ?_, ?_, ?_⟩
  case refine_1 =>
    intro w0 w1 s ht hwires hosc hreached
    have hcgu : (s.untilTb (roundInstant s.time.tbNs)).cgu = s.cgu := cgu_of_only (ps := [.time]) (by simp) (by decide)
    refine ⟨_, exec_claimRoundStart_tb ht hosc hreached, ?_, rfl, ?_⟩
    · exact State.modCgu_only _ (State.untilTb_only _ _ (Only.refl _ s) (by simp)) (by simp)
    · rw [beginRounds_both (by rw [hcgu]; exact hwires), hcgu]
  case refine_2 =>
    intro w0 w1 s ht hwires hosc hdue
    exact ⟨_, exec_claimRoundStart_osc ht hosc hdue, by simp [beginRounds], beginRounds_both hwires⟩
  case refine_3 =>
    intro k w s ht hk hw
    have he : exec (.claimRoundJoin k) s = execClaimRoundJoin k s := rfl
    refine ⟨beginRounds [k] s, by rw [he, execClaimRoundJoin, if_pos ⟨ht, hk⟩], by simp [beginRounds], ?_⟩
    simp only [beginRounds, State.modCgu_cgu, List.foldl_cons, List.foldl_nil, lmod_eq_set _ hw]
  case refine_4 =>
    intro v s h
    have he : exec (.clmEnWrite v) s = execClmEnWrite v s := rfl
    exact ⟨s, by rw [he, execClmEnWrite, if_pos (by simpa [clmBlocked] using h)], rfl⟩
  case refine_5 =>
    intro s hhold
    have he : exec (.clmEnWrite false) s = execClmEnWrite false s := rfl
    refine ⟨clmOff s, by rw [he, execClmEnWrite, if_neg (by simp [clmBlocked, hhold])]; rfl, ?_, ?_, ?_, ?_, ?_, ?_, ?_, ?_⟩
    all_goals simp [clmOff]
  case refine_6 =>
    intro s hhold hconf
    have he : exec (.clmEnWrite true) s = execClmEnWrite true s := rfl
    refine ⟨s.modCgu fun c => { c with clmEn := true }, ?_, by simp, rfl⟩
    rw [he, execClmEnWrite, if_neg (by simp [clmBlocked, hhold, hconf])]
    rfl
  case refine_7 =>
    intro s hrun hosc hpart
    have hgone : s.onOscillator.partnerGone = true := by
      rw [partnerGone_of_only s.onOscillator_only (by decide), State.partnerGone]
      simpa using hpart
    refine ⟨_, exec_tbClockStop hrun hosc, ?_, ?_, ?_, fun k hk => ?_⟩
    · rw [raise_tbStopped, State.onOscillator_time]
    · rw [raise_tbStop_cgu hgone, State.onOscillator_cgu]
    · exact unitF_of_fset (raise_fActive (f := tbStopFinding) (.inr ⟨rfl, by decide⟩) _ rfl)
    · have hsched : (raise tbStopFinding s.onOscillator).sched = s.onOscillator.sched :=
        (raise_only (qs := [.ports, .head, .sw, .insts, .cgu, .ocu, .mlk, .time, .bki, .faults, .evr, .mbx, .persist, .mon]) tbStopFinding _
          (Only.refl _ _) (by simp)).same .sched (by decide)
      rw [State.psc, hsched]
      exact State.unaligned_psc _ hk
  case refine_8 =>
    intro s hrun hosc hpart hword hseen
    have hjudged : s.onOscillator.judged := by
      rw [State.judged, s.onOscillator_only.same .mlk (by decide), s.onOscillator_only.same .ocu (by decide)]
      exact ⟨hpart, hword, fun h => absurd h hseen⟩
    refine ⟨_, exec_tbClockStop hrun hosc, ?_, ?_, raise_tbStop_putOut hjudged⟩
    · rw [raise_tbStopped, State.onOscillator_time]
    · exact unitF_of_fset (raise_fActive (f := tbStopFinding) (.inr ⟨rfl, by decide⟩) _ rfl)
  case refine_9 =>
    intro s hstop
    refine ⟨_, exec_oscillatorFail_both hstop, ?_, by simp, by simp, by simp, ?_, ?_⟩
    · rw [becomeOut_clk_oscFailed]
      rfl
    · simp [Cgu.timed, State.untimed]
    · simp [State.untimed]
  case refine_10 =>
    intro s hrun
    have he : exec .oscillatorFail s = execOscillatorFail s := rfl
    refine ⟨s.modTime fun t => { t with oscFailed := true }, ?_, by simp, rfl⟩
    rw [he, execOscillatorFail]
    dsimp only
    rw [if_neg (by rw [State.modTime_time]; simp [hrun])]

end Sys2Proof.Machine
end

section
/-!
PROOFS. Status words (R271), the presence of the partner (R272) and a shared unit ID (R248); O40.
-/
namespace Sys2Proof.Machine
open Sys2Proof

/-! ### UNIT_F -/

/-- A table entry that satisfies a test just where the one it replaces does leaves whether any does. -/
theorem Tbl.any_set {α : Type} (p : α → Bool) (t : Tbl α) (k : Nat) {a d : α} (ha : p a = p (t.get k d)) (hd : p d = false) :
    (t.set k a).any (fun x => p x.2) = t.any fun x => p x.2 := by
  induction t with
  | nil =>
    have hp : p a = false := ha.trans hd
    simp [Tbl.set, hp]
  | cons x t ih =>
    obtain ⟨j, b⟩ := x
    unfold Tbl.set
    split_ifs with hlt hj
    · rw [List.any_cons]
      dsimp only
      obtain hg | hm := Tbl.get_eq_or_mem ((j, b) :: t) k d
      · rw [ha, hg, hd, Bool.false_or]
      · cases hp : p a with
        | false => rfl
        | true =>
          rw [Bool.true_or]
          exact (List.any_eq_true.2 ⟨_, hm, ha.symm.trans hp⟩).symm
    · rw [List.any_cons, List.any_cons]
      dsimp only
      rw [ha, Tbl.get, if_pos hj]
    · rw [List.any_cons, List.any_cons, ih (by rw [ha, Tbl.get, if_neg hj])]

theorem unitF_setFset (s : State) (b : BlockId) (u : Nat) (f : FaultSet → FaultSet) (h : ∀ x, (f x).fActive = x.fActive) :
    (s.setFset b u f).unitF = s.unitF := Tbl.any_set FaultSet.fActive s.faults.sets (setKey b u) (h _) rfl

theorem conditionEnds_unitF (b : BlockId) (u : Nat) (s : State) : (conditionEnds b u s).unitF = s.unitF := by
  unfold conditionEnds persistEnds
  split
  · rfl
  · exact unitF_setFset _ _ _ _ fun x => by split <;> rfl

/-! ### A word taken up -/

/-- The word in the link's registers (R271). -/
def wordNoted (w : StatusWord) (s : State) : State :=
  s.modMlk fun m => { m with
    word := w, led := if w.role = .active ∨ w.role = .alone then true else m.led && w.role == .out, partnerClaim := w.claim
    partnerRun := partnerRuns s.mlk.word.running w.running s.now m.partnerRun
    swReason := if w.swUnit = some s.cgu.unitId ∧ s.mlk.word.swUnit ≠ some s.cgu.unitId then none else m.swReason }

/-- The word and what it asks for, where no switch-back is held. -/
def taken (w : StatusWord) (s : State) : State :=
  let u := fullRequests s.mlk.word w (wordNoted w s)
  u.modMlk fun m => { m with resync := m.resync && u.needsFull }

section
variable (w : StatusWord) (s : State)

theorem fullRequests_mlk (old : StatusWord) : ∃ mir, (fullRequests old w s).mlk = { s.mlk with mir := mir } := by
  unfold fullRequests
  split
  · exact ⟨_, rfl⟩
  · exact ⟨s.mlk.mir, rfl⟩

theorem refusalSeen_of_none {s : State} (h : s.mlk.swHeld = none) (old new : StatusWord) : refusalSeen old new s = s := by
  simp [refusalSeen, h]

theorem wordNoted_only : Only [.mlk] s (wordNoted w s) := State.modMlk_only _ (Only.refl _ s) (by simp)

theorem taken_only : Only [.mlk] s (taken w s) := by
  unfold taken
  exact State.modMlk_only _ (fullRequests_only _ _ _ (wordNoted_only w s) (by simp)) (by simp)

theorem taken_mlk : (taken w s).mlk.word = w ∧ (taken w s).mlk.partnerClaim = w.claim ∧ (taken w s).mlk.partner = s.mlk.partner
    ∧ (taken w s).mlk.lanes = s.mlk.lanes := by
  obtain ⟨mir, h⟩ := fullRequests_mlk w (wordNoted w s) s.mlk.word
  unfold taken
  dsimp only
  rw [State.modMlk_mlk, h]
  exact ⟨rfl, rfl, rfl, rfl⟩

theorem taken_cgu : (taken w s).cgu = s.cgu := cgu_of_only (taken_only w s) (by decide)

end

theorem takeWord_of_none {w : StatusWord} {s : State} (h : s.mlk.swHeld = none) :
    takeWord w s = refereeF (if w.unit = s.cgu.unitId ∧ w.unit ≠ 0 then idConflict (taken w s) else taken w s) := by
  have hheld : (fullRequests s.mlk.word w (wordNoted w s)).mlk.swHeld = none := by
    obtain ⟨mir, hmlk⟩ := fullRequests_mlk w (wordNoted w s) s.mlk.word
    rw [hmlk]
    exact h
  have hseen : refusalSeen s.mlk.word w (fullRequests s.mlk.word w (wordNoted w s)) = fullRequests s.mlk.word w (wordNoted w s) :=
    refusalSeen_of_none hheld _ _
  have htaken : takeWord w s = refereeF (if w.unit = (taken w s).cgu.unitId ∧ w.unit ≠ 0 then idConflict (taken w s) else taken w s) := by
    unfold takeWord
    exact congrArg (fun u : State => refereeF (if w.unit = (u.modMlk fun m => { m with resync := m.resync && u.needsFull }).cgu.unitId ∧ w.unit ≠ 0
      then idConflict (u.modMlk fun m => { m with resync := m.resync && u.needsFull })
      else u.modMlk fun m => { m with resync := m.resync && u.needsFull })) hseen
  rw [htaken, taken_cgu]

/-! ### A word on a lane -/

/-- A lane on which a word has arrived, and what of the link's faults ends with it (R271, R372). -/
def heard (k : Nat) (s : State) : State :=
  conditionEnds .mlk 0 ((countMissed s).modMlk fun m => { m with lanes := m.lanes.set k (((countMissed s).mlk.lanes.getD k {}).word s.now) })

theorem exec_statusWordReceive {k : Nat} (w : StatusWord) {s : State} (hon : s.linkOn = true) (hk : k < 2) :
    exec (.statusWordReceive k w) s = .next (takeWord w (if (heard k s).mlk.partner = .awaited
      ∨ ((heard k s).mlk.partner = .lost ∧ 10 ≤ (((countMissed s).mlk.lanes.getD k {}).word s.now).run) then partnerPresent (heard k s) else heard k s)) := by
  have he : exec (.statusWordReceive k w) s = execStatusWordReceive k w s := rfl
  rw [he, execStatusWordReceive, if_pos ⟨hon, hk⟩]
  rfl

/-- The words missed so far are no matter to a lane on which one has arrived. -/
theorem countMissed_word (k : Nat) (now : Nat) (s : State) :
    ((countMissed s).mlk.lanes.getD k {}).word now = (s.mlk.lanes.getD k {}).word now := by
  have h : (countMissed s).mlk.lanes = s.mlk.lanes.map fun l => { l with missed := max l.missed (wordsMissed (l.lastAt.or s.mlk.enabledAt) s.now) } := rfl
  rw [h, List.getD_eq_getElem?_getD, List.getD_eq_getElem?_getD, List.getElem?_map]
  cases s.mlk.lanes[k]? with
  | none => rfl
  | some l => rfl

theorem heard_only (k : Nat) (s : State) : Only [.mlk, .faults] s (heard k s) :=
  conditionEnds_only _ _ _ (State.modMlk_only _ (countMissed_only s (Only.refl _ s) (by simp)) (by simp)) (by simp)

theorem heard_unitF (k : Nat) (s : State) : (heard k s).unitF = s.unitF := (conditionEnds_unitF ..).trans rfl

theorem heard_mlk (k : Nat) (s : State) : (heard k s).mlk = { (countMissed s).mlk with
    lanes := (countMissed s).mlk.lanes.set k ((s.mlk.lanes.getD k {}).word s.now) } := by
  have h : (heard k s).mlk = ((countMissed s).modMlk fun m => { m with
      lanes := m.lanes.set k (((countMissed s).mlk.lanes.getD k {}).word s.now) }).mlk :=
    (conditionEnds_only .mlk 0 _ (Only.refl [.faults] _) (by simp)).same .mlk (by decide)
  rw [h, State.modMlk_mlk, countMissed_word]

/-- A partner that becomes present (R272), before the own role follows. -/
def presenceNoted (s : State) : State :=
  (wantFull (s.modMlk fun m => { m with partner := .present, awaitOver := false })).modOcu fun o => { o with fSeen := 0 }

theorem presenceNoted_only (s : State) : Only [.mlk, .ocu] s (presenceNoted s) :=
  State.modOcu_only _ (wantFull_only _ (State.modMlk_only _ (Only.refl _ s) (by simp)) (by simp)) (by simp)

section
variable (s : State)

theorem partnerPresent_eq : partnerPresent s = if s.cgu.role = .alone then setRole .active (presenceNoted s) else presenceNoted s := rfl

theorem partnerPresent_cgu : (partnerPresent s).cgu = { s.cgu with role := if s.cgu.role = .alone then .active else s.cgu.role } := by
  have h : (presenceNoted s).cgu = s.cgu := cgu_of_only (presenceNoted_only s) (by decide)
  rw [partnerPresent_eq]
  split
  · rw [setRole_cgu, h]
  · exact h

theorem partnerPresent_mlk : (partnerPresent s).mlk.partner = .present ∧ (partnerPresent s).mlk.word = s.mlk.word
    ∧ (partnerPresent s).mlk.swHeld = s.mlk.swHeld := by
  have h : (partnerPresent s).mlk = (presenceNoted s).mlk := by
    rw [partnerPresent_eq]
    split
    · exact (setRole_only (qs := [.cgu, .bki, .evr, .mbx]) _ _ (Only.refl _ _) (by simp)).same .mlk (by decide)
    · rfl
  rw [h]
  exact ⟨rfl, rfl, rfl⟩

theorem partnerPresent_ocu : (partnerPresent s).ocu = { s.ocu with fSeen := 0 } := by
  have h : (partnerPresent s).ocu = (presenceNoted s).ocu := by
    rw [partnerPresent_eq]
    split
    · exact (setRole_only (qs := [.cgu, .bki, .evr, .mbx]) _ _ (Only.refl _ _) (by simp)).same .ocu (by decide)
    · rfl
  rw [h]
  rfl

end

/-! ### A shared unit ID -/

theorem actDecision_of_out {s : State} (h : s.cgu.role = .out) (row : Nat) (own : Bool) :
    (actDecision row own s).cgu = s.cgu ∨ actDecision row own s = becomeOut true s := by
  have hno : s.cgu.role ≠ .standby := by rw [h]; decide
  unfold actDecision
  simp only [hno, false_and, if_false]
  split_ifs
  · exact .inl rfl
  · exact .inr rfl
  · exact .inl rfl
  · exact .inl rfl

/-- The unit is OUT on account of the ID. -/
def State.conflictOut (s : State) (id : Nat) : Prop := s.putOut ∧ s.cgu.idConflict = some id

theorem conflictOut_of_cgu {s t : State} {id : Nat} (h : t.cgu = s.cgu) (hs : s.conflictOut id) : t.conflictOut id :=
  ⟨putOut_of_cgu h hs.1, by rw [h]; exact hs.2⟩

/-- The referee does not bring it back. -/
theorem refereeF_conflictOut {s : State} {id : Nat} (h : s.conflictOut id) : (refereeF s).conflictOut id := by
  have hact : ∀ row own (u : State), u.conflictOut id → (actDecision row own u).conflictOut id := fun row own u hu => by
    obtain he | he := actDecision_of_out hu.1.1 row own
    · exact conflictOut_of_cgu he hu
    · rw [he]
      exact ⟨becomeOut_putOut u, by rw [becomeOut_idConflict]; exact hu.2⟩
  have hrec : ∀ row against f, (recordDecision row against {} (s.modOcu f)).conflictOut id := fun row against f =>
    conflictOut_of_cgu ((recordDecision_cgu ..).trans rfl) h
  unfold refereeF
  dsimp only
  split_ifs
  · exact h
  · exact hact _ _ _ (hrec ..)
  · exact hact _ _ _ (hrec ..)
  · exact hrec ..
  · exact hrec ..

theorem idConflict_conflictOut {s : State} (h : s.cgu.idConflict = none) : (idConflict s).conflictOut s.cgu.unitId := by
  have hout : (becomeOut true (s.modCgu fun c => { c with idConflict := some c.unitId })).conflictOut s.cgu.unitId :=
    ⟨becomeOut_putOut _, by simp⟩
  have hfound : ∀ (f : Finding) (u : State), u.conflictOut s.cgu.unitId → (foundIn f u).conflictOut s.cgu.unitId := fun f u hu => by
    unfold foundIn leaveDue
    split_ifs
    · rw [leaveFault_eq]
      exact conflictOut_of_cgu (retry_cgu ..) (refereeF_conflictOut (conflictOut_of_cgu (cgu_of_only (leftFault_only ..) (by decide)) hu))
    · exact hu
    · exact hu
  rw [idConflict, if_neg (by simp [h]), raise_of_classK rfl, coilAfter, if_neg (by simp)]
  exact conflictOut_of_cgu (finding_cgu ..) (hfound _ _ hout)

/-! ### A lane down -/

/-- The finding of a lane without words (R271). -/
def laneFinding (k : Nat) : Finding := { block := .mlk, kind := 9, persist := true, addr := k }

/-- The link's counters as a lane is found without words: one that is still held out is not counted again. -/
def laneMissed (l : Lane) (s : State) : State := if l.failed then countMissed s else mlkCount 8 (countMissed s)

theorem laneMissed_only (l : Lane) (s : State) : Only [.mlk] s (laneMissed l s) := by
  unfold laneMissed
  split
  · exact countMissed_only s (Only.refl _ s) (by simp)
  · exact mlkCount_only _ _ (countMissed_only s (Only.refl _ s) (by simp)) (by simp)

theorem laneMissed_mlk (l : Lane) (s : State) : (laneMissed l s).mlk = { (countMissed s).mlk with
    live := if l.failed then (countMissed s).mlk.live else bump (countMissed s).mlk.live 8 } := by
  unfold laneMissed
  split <;> rfl

theorem quietOver_of_only {ps : List Part} {s t : State} (h : Only ps s t) (hf : Part.faults ∉ ps) (ht : Part.time ∉ ps) (hb : Part.bki ∉ ps)
    (b : BlockId) (u : Nat) : t.quietOver b u = s.quietOver b u := by
  have hnow : t.now = s.now := congrArg Time.age (h.same .time ht)
  have hbki : t.bki = s.bki := h.same .bki hb
  simp only [State.quietOver, fset_of_only h hf, due, hnow, hbki]

theorem State.modMlk_fset (s : State) (f : Mlk → Mlk) (b : BlockId) (u : Nat) : (s.modMlk f).fset b u = s.fset b u := rfl

theorem laneFinding_persist (k : Nat) (s : State) : ((raise (laneFinding k) s).fset .mlk 0).persist = true :=
  (raise_persist (f := laneFinding k) (.inl rfl) s (by simp [laneFinding])).trans (Bool.or_true _)

theorem laneFinding_state (k : Nat) (s : State) : ((raise (laneFinding k) s).fset .mlk 0).state = true :=
  raise_state (f := laneFinding k) (.inl rfl) s (by simp [laneFinding])

theorem exec_laneDown {k a : Nat} {l : Lane} {s : State} (hl : s.mlk.lanes[k]? = some l) (ha : s.mlk.enabledAt = some a)
    (hup : l.failed = false ∨ l.goodFrom.isSome) (hdue : l.lastAt.getD a + ms 1 ≤ s.now) :
    exec (.laneDown k) s = .next ((raise (laneFinding k) (laneMissed l s)).modMlk fun m =>
      { m with lanes := lmod m.lanes k Lane.down }) := by
  have he : exec (.laneDown k) s = execLaneDown k s := rfl
  rw [he, execLaneDown, hl, ha]
  dsimp only
  rw [if_pos (by simpa using hup), whenDue_now _ hdue]
  rfl

/-! ### The partner lost -/

/-- A comparison whose partner is lost closes as excused (R272). -/
theorem windowEnds_of_gone {s : State} (h : s.partnerGone = true) (e : Pend) :
    ∃ d, windowEnds e s = ocuCount 4 (note .ocu 0 0x300 0 .none d (closePend e.key s)) := by
  have hex : ∀ i, excused i (closePend e.key s) = true := fun i => by
    have hg : (closePend e.key s).partnerGone = true := h
    simp [excused, hg]
  unfold windowEnds diverge
  simp only [hex, if_true]
  exact ⟨_, rfl⟩

/-- All of them close, and the rest of the pair's state stays. -/
theorem windowsEnd_of_gone (es : List Pend) {s : State} (h : s.partnerGone = true) :
    Only [.ocu, .bki, .evr] s (es.foldl (fun s e => windowEnds e s) s)
    ∧ (es.foldl (fun s e => windowEnds e s) s).ocu.pending = s.ocu.pending.filter fun p => es.all fun e => p.key != e.key := by
  induction es generalizing s with
  | nil => exact ⟨Only.refl _ s, by simp⟩
  | cons e es ih =>
    obtain ⟨d, hd⟩ := windowEnds_of_gone h e
    have honly : Only [.ocu, .bki, .evr] s (windowEnds e s) := by
      rw [hd]
      exact ocuCount_only _ _ (note_only _ _ _ _ _ _ _ (State.modOcu_only _ (Only.refl _ s) (by simp)) (by simp)) (by simp)
    have hpend : (windowEnds e s).ocu.pending = s.ocu.pending.filter fun p => p.key != e.key := by
      have hn : (note .ocu 0 0x300 0 .none d (closePend e.key s)).ocu = (closePend e.key s).ocu :=
        (note_only (qs := [.bki, .evr]) _ _ _ _ _ _ _ (Only.refl _ _) (by simp)).same .ocu (by decide)
      rw [hd]
      exact congrArg Ocu.pending hn
    obtain ⟨ho, hp⟩ := ih ((partnerGone_of_only honly (by decide)).trans h)
    refine ⟨honly.trans ho, ?_⟩
    rw [List.foldl_cons, hp, hpend, List.filter_filter]
    refine List.filter_congr fun p _ => ?_
    rw [List.all_cons, Bool.and_comm]

/-- The link as its partner is lost. -/
def lossNoted (s : State) : State :=
  mlkCount 7 ((countMissed s).modMlk fun m => { m with partner := .lost, lanes := m.lanes.map fun l => { l with run := 0 } })

theorem lossNoted_only (s : State) : Only [.mlk] s (lossNoted s) :=
  mlkCount_only _ _ (State.modMlk_only _ (countMissed_only s (Only.refl _ s) (by simp)) (by simp)) (by simp)

theorem lossNoted_live (s : State) : (lossNoted s).mlk.live.get 7 0 = satAdd 64 (s.mlk.live.get 7 0) 1 :=
  (bump_same _ _ _).trans (congrArg (satAdd 64 · 1) (bump_other _ _ (by decide)))

/-- The unit without its partner, the comparisons closed and the role following. -/
def withoutPartner (s : State) : State :=
  let u := (lossNoted s).ocu.pending.foldl (fun s e => windowEnds e s) (lossNoted s)
  if u.cgu.role = .active then setRole .alone u else u

theorem loseThePartner_eq (s : State) : loseThePartner s = refereeF (withoutPartner s) := rfl

/-- What the loss of the partner leaves (R272). -/
theorem loseThePartner_spec (s : State) : (loseThePartner s).mlk.partner = .lost ∧ (loseThePartner s).ocu.pending = []
    ∧ (loseThePartner s).cgu = { s.cgu with role := if s.cgu.role = .active then .alone else s.cgu.role }
    ∧ (loseThePartner s).mlk.live = (lossNoted s).mlk.live ∧ (loseThePartner s).mlk.awaitOver = s.mlk.awaitOver := by
  have hgone : (lossNoted s).partnerGone = true := rfl
  obtain ⟨honly, hpend⟩ := windowsEnd_of_gone (lossNoted s).ocu.pending hgone
  have hnone : ((lossNoted s).ocu.pending.foldl (fun s e => windowEnds e s) (lossNoted s)).ocu.pending = [] := by
    rw [hpend, List.filter_eq_nil_iff]
    intro p hp hall
    simpa using List.all_eq_true.1 hall p hp
  have hcgu : (withoutPartner s).cgu = { s.cgu with role := if s.cgu.role = .active then .alone else s.cgu.role } := by
    have h : ((lossNoted s).ocu.pending.foldl (fun s e => windowEnds e s) (lossNoted s)).cgu = s.cgu :=
      (honly.same .cgu (by decide)).trans ((lossNoted_only s).same .cgu (by decide))
    unfold withoutPartner
    dsimp only
    rw [h]
    split
    · rw [setRole_cgu, h]
    · exact h
  have hrole : Only [.cgu, .bki, .evr, .mbx] ((lossNoted s).ocu.pending.foldl (fun s e => windowEnds e s) (lossNoted s)) (withoutPartner s) := by
    unfold withoutPartner
    dsimp only
    split
    · exact setRole_only _ _ (Only.refl _ _) (by simp)
    · exact Only.refl _ _
  have hmlk : (withoutPartner s).mlk = (lossNoted s).mlk := (hrole.same .mlk (by decide)).trans (honly.same .mlk (by decide))
  have hgone' : (withoutPartner s).partnerGone = true := by rw [State.partnerGone, hmlk]; rfl
  obtain ⟨hc, ho, hl, hp⟩ := refereeF_kept_of_gone hgone'
  rw [loseThePartner_eq]
  refine ⟨?_, ?_, hc.trans hcgu, hl.trans (congrArg Mlk.live hmlk), ?_⟩
  · rw [refereeF_partner, hmlk]
    rfl
  · rw [hp, hrole.same .ocu (by decide), hnone]
  · rw [ho, hmlk]
    rfl

/-- A word that arrives while the partner is present, and tells nothing new of its F status. -/
theorem statusWordReceive_present {k : Nat} {w : StatusWord} {l : Lane} {s : State} (hon : s.linkOn = true) (hk : k < 2)
    (hl : s.mlk.lanes[k]? = some l) (hpart : s.mlk.partner = .present) (hunit : w.unit ≠ s.cgu.unitId) (hf : w.f = s.mlk.word.f)
    (hseen : s.ocu.fSeen = s.fPair) (hheld : s.mlk.swHeld = none) :
    Completes (.statusWordReceive k w) s fun t =>
      Only [.mlk, .faults] s t ∧ t.mlk.word = w ∧ t.mlk.partnerClaim = w.claim ∧ t.mlk.partner = .present
      ∧ t.mlk.lanes = (countMissed s).mlk.lanes.set k (l.word s.now) ∧ t.unitF = s.unitF := by
  have hlane : s.mlk.lanes.getD k {} = l := by rw [List.getD_eq_getElem?_getD, hl]; rfl
  have hmlk := heard_mlk k s
  have hpres : (heard k s).mlk.partner = .present := by rw [hmlk]; exact hpart
  have hcgu : (heard k s).cgu = s.cgu := cgu_of_only (heard_only k s) (by decide)
  obtain ⟨hword, hclaim, hpartner, hlanes⟩ := taken_mlk w (heard k s)
  have hpair : (taken w (heard k s)).fPair = s.fPair := by
    have hu : (taken w (heard k s)).unitF = s.unitF := (unitF_of_only (taken_only w _) (by decide)).trans (heard_unitF k s)
    simp only [State.fPair, State.partnerGone, hu, hword, hpartner, hpres, hpart, hf]
  have hocu : (taken w (heard k s)).ocu = s.ocu :=
    ((taken_only w _).same .ocu (by decide)).trans ((heard_only k s).same .ocu (by decide))
  have hres : takeWord w (heard k s) = taken w (heard k s) := by
    rw [takeWord_of_none (by rw [hmlk]; exact hheld), if_neg (by rw [hcgu]; exact fun h => hunit h.1), refereeF_of_seen]
    rw [hpair, hocu, hseen]
  refine ⟨taken w (heard k s), ?_, ?_, hword, hclaim, hpartner.trans hpres, ?_, ?_⟩
  · rw [exec_statusWordReceive w hon hk, if_neg (by rw [hpres]; simp), hres]
  · exact (heard_only k s).trans ((taken_only w _).mono (by simp))
  · rw [hlanes, hmlk, hlane]
  · exact (unitF_of_only (taken_only w _) (by decide)).trans (heard_unitF k s)

/-- A word that makes the partner present. -/
theorem statusWordReceive_back {k : Nat} {w : StatusWord} {s : State} (hon : s.linkOn = true) (hk : k < 2)
    (hback : s.mlk.partner = .awaited ∨ (s.mlk.partner = .lost ∧ 10 ≤ ((s.mlk.lanes.getD k {}).word s.now).run)) (hunit : w.unit ≠ s.cgu.unitId)
    (hf : w.f = false) (hunitF : s.unitF = false) (hheld : s.mlk.swHeld = none) :
    Completes (.statusWordReceive k w) s fun t =>
      Only [.ocu, .mlk, .faults, .cgu, .bki, .evr, .mbx] s t ∧ t.ocu = { s.ocu with fSeen := 0 } ∧ t.mlk.partner = .present ∧ t.mlk.word = w
      ∧ t.cgu.role = (if s.cgu.role = .alone then .active else s.cgu.role) ∧ t.cgu.win = s.cgu.win ∧ t.cgu.ownClaim = s.cgu.ownClaim := by
  have hmlk := heard_mlk k s
  have hcgu : (heard k s).cgu = s.cgu := cgu_of_only (heard_only k s) (by decide)
  obtain ⟨hpres, -, hheld'⟩ := partnerPresent_mlk (heard k s)
  have hpc := partnerPresent_cgu (heard k s)
  rw [hcgu] at hpc
  have honly : Only [.mlk, .ocu, .cgu, .bki, .evr, .mbx] (heard k s) (partnerPresent (heard k s)) :=
    partnerPresent_only _ (Only.refl _ _) (by simp)
  obtain ⟨hword, hclaim, hpartner, hlanes⟩ := taken_mlk w (partnerPresent (heard k s))
  have hocu : (taken w (partnerPresent (heard k s))).ocu = { s.ocu with fSeen := 0 } := by
    rw [(taken_only w _).same .ocu (by decide), partnerPresent_ocu, (heard_only k s).same .ocu (by decide)]
  have hpair : (taken w (partnerPresent (heard k s))).fPair = 0 := by
    have hu : (taken w (partnerPresent (heard k s))).unitF = false := by
      rw [unitF_of_only (taken_only w _) (by decide), unitF_of_only honly (by decide), heard_unitF, hunitF]
    simp [State.fPair, hu, hword, hf, b2n]
  have hres : takeWord w (partnerPresent (heard k s)) = taken w (partnerPresent (heard k s)) := by
    rw [takeWord_of_none (by rw [hheld', hmlk]; exact hheld), if_neg (by rw [hpc]; exact fun h => hunit h.1), refereeF_of_seen]
    rw [hpair, hocu]
  have hpart : (heard k s).mlk.partner = s.mlk.partner := by rw [hmlk]; rfl
  refine ⟨taken w (partnerPresent (heard k s)), ?_, ?_, hocu, hpartner.trans hpres, hword, ?_, ?_, ?_⟩
  · rw [exec_statusWordReceive w hon hk, if_pos (by rw [hpart, countMissed_word]; exact hback), hres]
  · exact ((heard_only k s).mono (by simp)).trans ((honly.mono (by simp)).trans ((taken_only w _).mono (by simp)))
  all_goals rw [taken_cgu, hpc]

/-- Settles O40. -/
theorem statusWordsAndThePartner : Obligations.StatusWordsAndThePartner := by
  refine ⟨?_, ?_, ?_, ?_, ?_, ?_, ?_⟩
  case refine_1 =>
    intro s hon hdue
    have he : exec .statusWordSend s = execStatusWordSend s := rfl
    refine ⟨s.modMlk fun m => { m with sent := [s.statusWord, s.statusWord], sentAt := some s.now }, ?_, by simp, rfl⟩
    rw [he, execStatusWordSend, if_pos hon]
    cases ha : s.mlk.sentAt with
    | none => exact congrArg _ (whenDue_now _ (Nat.zero_le _))
    | some a => exact congrArg _ (whenDue_now _ (hdue a ha))
  case refine_2 => exact fun k w l s hon hk hl hpart hunit hf hseen hheld => statusWordReceive_present hon hk hl hpart hunit hf hseen hheld
  case refine_3 => exact fun k w s hon hk _ hback hunit hf hunitF hheld => statusWordReceive_back hon hk hback hunit hf hunitF hheld
  case refine_4 =>
    intro k w s hon hk hunit hne hconf hheld
    have hcgu : (heard k s).cgu = s.cgu := cgu_of_only (heard_only k s) (by decide)
    have hout : ∀ u : State, u.mlk.swHeld = none → u.cgu.unitId = s.cgu.unitId → u.cgu.idConflict = none →
        (takeWord w u).conflictOut s.cgu.unitId := fun u hh hid hc => by
      rw [takeWord_of_none hh, if_pos ⟨by rw [hid]; exact hunit, hne⟩]
      have h := idConflict_conflictOut (s := taken w u) (by rw [taken_cgu]; exact hc)
      rw [taken_cgu, hid] at h
      exact refereeF_conflictOut h
    have hfinal : (takeWord w (if (heard k s).mlk.partner = .awaited ∨ ((heard k s).mlk.partner = .lost
        ∧ 10 ≤ (((countMissed s).mlk.lanes.getD k {}).word s.now).run) then partnerPresent (heard k s) else heard k s)).conflictOut s.cgu.unitId := by
      have hh : (heard k s).mlk.swHeld = none := by rw [heard_mlk]; exact hheld
      refine hout _ ?_ ?_ ?_
      · split
        · exact (partnerPresent_mlk _).2.2.trans hh
        · exact hh
      · split
        · rw [partnerPresent_cgu, hcgu]
        · rw [hcgu]
      · split
        · rw [partnerPresent_cgu, hcgu]
          exact hconf
        · rw [hcgu]
          exact hconf
    obtain ⟨⟨hrole, hwin, htrip, hhard⟩, hid⟩ := hfinal
    exact ⟨_, exec_statusWordReceive w hon hk, hrole, hwin, htrip, hid, hhard⟩
  case refine_5 =>
    intro k a l s hl ha hup hdue hquiet
    have hq : (laneMissed l s).quietOver .mlk 0 = false :=
      (quietOver_of_only (laneMissed_only l s) (by decide) (by decide) (by decide) .mlk 0).trans hquiet
    have hraise : raise (laneFinding k) (laneMissed l s) = finding (laneFinding k) (laneMissed l s) := by
      rw [raise_of_classK (f := laneFinding k) rfl, foundIn_of_running (f := laneFinding k) hq, coilAfter, if_neg (by simp [laneFinding])]
    have hfind := finding_only (qs := [.bki, .faults, .evr, .mbx]) (laneFinding k) (laneMissed l s) (Only.refl _ _) (by simp)
    refine ⟨_, exec_laneDown hl ha hup hdue, ?_, ?_, ?_, ?_⟩
    · rw [hraise]
      exact State.modMlk_only _ (((laneMissed_only l s).mono (by simp)).trans (hfind.mono (by simp))) (by simp)
    · rw [State.modMlk_mlk, hraise, hfind.same .mlk (by decide), laneMissed_mlk]
    · rw [State.modMlk_fset, laneFinding_persist]
    · rw [State.modMlk_fset, laneFinding_state]
  case refine_6 =>
    intro s hpart hdue
    have he : exec .partnerLost s = execPartnerLost s := rfl
    obtain ⟨hlost, hpend, hcgu, hlive, -⟩ := loseThePartner_spec s
    refine ⟨loseThePartner s, ?_, hlost, hpend, ?_, ?_, ?_, ?_, ?_⟩
    · rw [he, execPartnerLost, if_pos hpart, whenDue_now _ hdue]
    · rw [hcgu]
    · rw [hcgu]
    · rw [hcgu]
    · rw [hcgu]
    · rw [hlive, lossNoted_live]
  case refine_7 =>
    intro a s hpart ha hdue
    have he : exec .partnerAwaitExpiry s = execPartnerAwaitExpiry s := rfl
    obtain ⟨hlost, hpend, hcgu, -, hover⟩ := loseThePartner_spec (s.modMlk fun m => { m with awaitOver := true })
    refine ⟨loseThePartner (s.modMlk fun m => { m with awaitOver := true }), ?_, hlost, hover, hpend, ?_, ?_, ?_⟩
    · rw [he, execPartnerAwaitExpiry, ha]
      dsimp only
      rw [if_pos hpart, whenDue_now _ hdue]
    all_goals rw [hcgu]; rfl

end Sys2Proof.Machine
end

section
/-!
PROOFS. The requests of the pair and claim family (R465): what each writes, and O58.
-/
namespace Sys2Proof.Machine
open Sys2Proof

/-! ### CLM_HOLD -/

theorem holdGuard_held {f : State → State × Ans} {s : State} (h : s.bki.clmHold = true) : holdGuard f s = refuse .locked s := if_pos h

theorem holdGuard_open {f : State → State × Ans} {s : State} (h : s.bki.clmHold = false) : holdGuard f s = f s :=
  if_neg (by rw [h]; decide)

/-! ### Settings -/

/-- A field that is within its limits takes the value. -/
theorem keep_of_within {α : Type} {ok : Bool} (h : ok = true) (a b : α) : keep ok a b = a := by rw [h]; rfl

theorem writeClaimMem_of_good {v : BitVec 32} (h : claimMemBad v = false) (s : State) :
    writeClaimMem v s = s.modCgu fun c => { c with claimMemMs := bits v 15 0 } := by
  rw [writeClaimMem, if_neg (by rw [h]; decide)]

theorem writeOcuCtl_of_good {v : BitVec 32} (h : ocuCtlBad v = false) (s : State) : writeOcuCtl v s =
    s.modOcu fun o => { o with en := bitOf v 24, plausWinMs := bits v 23 16, windowUs := bits v 13 0 } := by
  rw [ocuCtlBad, Bool.or_eq_false_iff, Bool.not_eq_false', Bool.not_eq_false'] at h
  rw [writeOcuCtl, h.1, h.2]
  rfl

theorem writeMlkCtl_mlk {v : BitVec 32} (h : mlkCtlBad v = false) (s : State) :
    (writeMlkCtl v s).mlk.partnerToMs = bits v 14 8 ∧ (writeMlkCtl v s).mlk.epochMs = bits v 6 0 := by
  rw [mlkCtlBad, Bool.or_eq_false_iff, Bool.not_eq_false', Bool.not_eq_false'] at h
  unfold writeMlkCtl
  rw [h.1, h.2]
  dsimp only
  split
  case isTrue he => exact ⟨rfl, he.symm⟩
  case isFalse => exact ⟨rfl, rfl⟩

/-- CGU_CTL acts on CLM_EN where it changes it and nothing blocks it. -/
theorem writeCguCtl_cgu {v : BitVec 32} {s : State} (hopen : s.bki.clmHold = false)
    (hrise : bitOf v 0 = true → s.cgu.clmEn = false → s.cgu.idConflict = none) :
    (writeCguCtl v s).cgu.clmEn = bitOf v 0 ∧ (writeCguCtl v s).cgu.ownClaim = s.cgu.ownClaim
    ∧ (writeCguCtl v s).cgu.claimMemMs = s.cgu.claimMemMs
    ∧ ((s.cgu.clmEn = true → bitOf v 0 = true) → (writeCguCtl v s).cgu.role = s.cgu.role) := by
  unfold writeCguCtl
  dsimp only
  split
  case isTrue h =>
    refine ⟨?_, rfl, rfl, fun _ => rfl⟩
    obtain h | h := h
    · exact h.symm
    · cases hv : bitOf v 0 with
      | false => simp [clmBlocked, hopen, hv] at h
      | true =>
        cases hen : s.cgu.clmEn with
        | true => exact hen
        | false => simp [clmBlocked, hopen, hv, hrise hv hen] at h
  case isFalse h =>
    cases hv : bitOf v 0 with
    | true => exact ⟨rfl, rfl, rfl, fun _ => rfl⟩
    | false =>
      refine ⟨by simp [clmWrite, clmOff], by simp [clmWrite, clmOff], by simp [clmWrite, clmOff], fun hen => absurd (hen ?_) (by decide)⟩
      cases hc : s.cgu.clmEn with
      | true => rfl
      | false => simp [hv, hc] at h

/-! ### The operations -/

/-- A long operation that a host asks for begins in the mailbox alone (R445). -/
theorem startLong_of_host {r : Req} {k : Nat} (hsrc : r.src = .host k) (opcode arg : Nat) (s : State) :
    ∃ f, startLong r opcode arg s = s.modMbx f := ⟨_, by rw [startLong, hsrc]⟩

section
variable (r : Req) {s : State} (hopen : s.bki.clmHold = false)
include hopen

theorem opSetClaim_ok {c : BitVec 32} (hc : c ≠ 0) (hsw : s.switching = false) (hrole : s.cgu.role = .out ∨ s.cgu.role = .standby)
    (htakes : partnerTakes s = false) : opSetClaim r c s = okRes [] (note .cgu 0 0x304 0 .none (leBytes 4 c.toNat) (configChanged (writeClaim c s))) := by
  have hr : (!(s.cgu.role == .out || s.cgu.role == .standby)) = false := by
    obtain h | h := hrole <;> rw [h] <;> rfl
  rw [opSetClaim, holdGuard_open hopen, if_neg hc, hsw, hr, htakes]
  rfl

theorem opSetClaim_role {c : BitVec 32} (hc : c ≠ 0) (hsw : s.switching = false) (hout : s.cgu.role ≠ .out) (hstandby : s.cgu.role ≠ .standby) :
    opSetClaim r c s = refuse (.state 60) s := by
  rw [opSetClaim, holdGuard_open hopen, if_neg hc, hsw, if_neg (by decide), if_pos (by simp [hout, hstandby])]

theorem opSetClaim_busy {c : BitVec 32} (hc : c ≠ 0) (hsw : s.switching = true) : opSetClaim r c s = refuse .busy s := by
  rw [opSetClaim, holdGuard_open hopen, if_neg hc, hsw]
  rfl

theorem opPairConfig_eq {v1 v2 v3 v4 : BitVec 32} (h2 : claimMemBad v2 = false) (h3 : ocuCtlBad v3 = false) (h4 : mlkCtlBad v4 = false) :
    opPairConfig r v1 v2 v3 v4 s = if s.switching then refuse .busy s else match pairConfigRefused v1 v3 s with
      | some n => refuse (.state n) s
      | none => okRes [cguCtl (configChanged (writePairCfg v1 v2 v3 v4 s)), (configChanged (writePairCfg v1 v2 v3 v4 s)).cgu.claimMemMs,
          ocuCtl (configChanged (writePairCfg v1 v2 v3 v4 s)), mlkCtl (configChanged (writePairCfg v1 v2 v3 v4 s))]
          (configChanged (writePairCfg v1 v2 v3 v4 s)) := by
  rw [opPairConfig, holdGuard_open hopen, h2, h3, h4]
  rfl

theorem opSwitchBack_eq {n : Nat} (h1 : 1 ≤ n) (h15 : n ≤ 15) : opSwitchBack r n s = match s.cgu.role with
    | .active => switchHeld r n s
    | .standby => switchAsked r n s
    | _ => refuse (.state 76) s := by
  rw [opSwitchBack, holdGuard_open hopen]
  exact if_neg (by simp [within, h1, h15])

theorem opReturnStandby_eq (hout : s.cgu.role = .out) (hf : s.unitF = false) (hid : s.cgu.idConflict = none) :
    opReturnStandby r s = okRes [(returnStandby s).cgu.role.code] (returnStandby s) := by
  rw [opReturnStandby, holdGuard_open hopen, if_neg (by simp [hout]), if_neg (by simp [hf]), if_neg (by simp [hid])]

theorem opReturnStandby_not (hout : s.cgu.role ≠ .out) : opReturnStandby r s = refuse (.state 64) s := by
  rw [opReturnStandby, holdGuard_open hopen, if_pos hout]

theorem opGoOut_busy (hsw : s.switching = true) : opGoOut r s = refuse .busy s := by
  rw [opGoOut, holdGuard_open hopen, if_pos hsw]

theorem opGoOut_ok (hsw : s.switching = false) (hpart : s.mlk.partner = .present) (hword : s.mlk.word.role ≠ .taking) :
    opGoOut r s = okRes [Role.out.code] (becomeOut true s) := by
  rw [opGoOut, holdGuard_open hopen, if_neg (by simp [hsw]), if_neg (by simp [State.partnerGone, hpart]), if_neg (by simp [partnerTakes, hword])]
  dsimp only
  rw [becomeOut_role]

theorem opGoOut_gone (hsw : s.switching = false) (hpart : s.mlk.partner ≠ .present) : opGoOut r s = refuse (.state 62) s := by
  rw [opGoOut, holdGuard_open hopen, if_neg (by simp [hsw]), if_pos (by simpa [State.partnerGone] using hpart)]

theorem opTripAssign_ok {n : Nat} {o : Option Nat} (hn : n < 16)
    (ho : ∀ i, o = some i → i < 512 ∧ ((s.inst i).exists_ = true ∨ (s.inst i).state = .resetting)) :
    opTripAssign r n o s = okRes [] (configChanged (assignTrip n o s)) := by
  have hlow : (o.any fun i => decide (512 ≤ i)) = false := by
    cases o with
    | none => rfl
    | some i => simpa using (ho i rfl).1
  have hlive : (o.any fun i => !((s.inst i).exists_ || (s.inst i).state == .resetting)) = false := by
    cases o with
    | none => rfl
    | some i => obtain h | h := (ho i rfl).2 <;> simp [h]
  rw [opTripAssign, holdGuard_open hopen, if_neg (Nat.not_le.2 hn), hlow, hlive]
  rfl

end

/-- Whether the firmware runs is no matter of a part that is not kept. -/
theorem fwUp_of_only {ps : List Part} {s t : State} (h : Only ps s t) (hp : Part.persist ∉ ps) (hup : s.persist.fwUp = true) :
    t.persist.fwUp = true := by
  rw [h.same .persist hp]
  exact hup

/-! ### PAIR_CONFIG -/

section
variable {v1 v2 v3 v4 : BitVec 32} {s : State} (h2 : claimMemBad v2 = false) (h3 : ocuCtlBad v3 = false) (h4 : mlkCtlBad v4 = false)
include h2 h3 h4

/-- The settings but CGU_CTL, which comes last. -/
theorem pairCfg_before : ∃ u, writePairCfg v1 v2 v3 v4 s = writeCguCtl v1 u ∧ Only [.cgu, .ocu, .mlk] s u
    ∧ u.cgu = { s.cgu with claimMemMs := bits v2 15 0 } ∧ u.ocu.windowUs = bits v3 13 0 ∧ u.ocu.plausWinMs = bits v3 23 16
    ∧ u.mlk.partnerToMs = bits v4 14 8 ∧ u.mlk.epochMs = bits v4 6 0 := by
  have hm : Only [.mlk] s (writeMlkCtl v4 s) := writeMlkCtl_only _ _ (Only.refl _ s) (by simp)
  obtain ⟨hto, hep⟩ := writeMlkCtl_mlk h4 s
  refine ⟨writeClaimMem v2 (writeOcuCtl v3 (writeMlkCtl v4 s)), rfl, ?_⟩
  rw [writeClaimMem_of_good h2, writeOcuCtl_of_good h3]
  refine ⟨State.modCgu_only _ (State.modOcu_only _ (hm.mono (by simp)) (by simp)) (by simp), ?_, rfl, rfl, hto, hep⟩
  have hc : (writeMlkCtl v4 s).cgu = s.cgu := hm.same .cgu (by decide)
  rw [State.modCgu_cgu, State.modOcu_cgu, hc]

/-- What PAIR_CONFIG writes. -/
theorem pairCfg_spec (hopen : s.bki.clmHold = false) (hrise : bitOf v1 0 = true → s.cgu.clmEn = false → s.cgu.idConflict = none) :
    let u := configChanged (writePairCfg v1 v2 v3 v4 s)
    Only [.ports, .sw, .insts, .cgu, .ocu, .mlk, .time, .bki, .evr, .mbx, .persist] s u ∧ u.persist.fwUp = s.persist.fwUp
    ∧ u.cgu.clmEn = bitOf v1 0 ∧ u.cgu.claimMemMs = bits v2 15 0 ∧ u.ocu.windowUs = bits v3 13 0 ∧ u.ocu.plausWinMs = bits v3 23 16
    ∧ u.mlk.partnerToMs = bits v4 14 8 ∧ u.mlk.epochMs = bits v4 6 0 ∧ u.cgu.ownClaim = s.cgu.ownClaim
    ∧ ((s.cgu.clmEn = true → bitOf v1 0 = true) → u.cgu.role = s.cgu.role) := by
  intro u
  obtain ⟨w, he, hw, hcgu, hwin, hplaus, hto, hep⟩ := pairCfg_before (v1 := v1) h2 h3 h4 (s := s)
  have hc : Only [.ports, .sw, .insts, .cgu, .time, .bki, .evr, .mbx] w (writeCguCtl v1 w) := writeCguCtl_only _ _ (Only.refl _ w) (by simp)
  have hu : u = configChanged (writeCguCtl v1 w) := congrArg configChanged he
  have hconf : ∀ x : State, (configChanged x).cgu = x.cgu ∧ (configChanged x).ocu = x.ocu ∧ (configChanged x).mlk = x.mlk := fun _ => ⟨rfl, rfl, rfl⟩
  obtain ⟨hen, hclaim, hmem, hrole⟩ := writeCguCtl_cgu (v := v1) (s := w) (by rw [hw.same .bki (by decide)]; exact hopen)
    (by rw [hcgu]; exact hrise)
  rw [hcgu] at hclaim hmem hrole
  rw [hu]
  refine ⟨configChanged_only _ ((hw.mono (by simp)).trans (hc.mono (by simp))) (by simp), ?_, hen, hmem, ?_, ?_, ?_, ?_, hclaim, hrole⟩
  · change (writeCguCtl v1 w).persist.fwUp = _
    rw [hc.same .persist (by decide), hw.same .persist (by decide)]
  · rw [(hconf _).2.1, hc.same .ocu (by decide), hwin]
  · rw [(hconf _).2.1, hc.same .ocu (by decide), hplaus]
  · rw [(hconf _).2.2, hc.same .mlk (by decide), hto]
  · rw [(hconf _).2.2, hc.same .mlk (by decide), hep]

end

theorem pairConfig_rise {v1 v3 : BitVec 32} {s : State} (h : pairConfigRefused v1 v3 s = none) (hv : bitOf v1 0 = true) (hen : s.cgu.clmEn = false) :
    s.cgu.idConflict = none := by
  cases hid : s.cgu.idConflict with
  | none => rfl
  | some n => simp [pairConfigRefused, hv, hen, hid] at h

/-! ### Switch-back -/

theorem switchAsked_eq (r : Req) {n : Nat} {s : State} (hsw : s.mlk.word.swUnit = some s.cgu.unitId) (hunit : s.mlk.word.unit = n) :
    switchAsked r n s = ((match switchFails (startLong r 0x0703 n s) with
      | some m => switchRefused s.handle m (startLong r 0x0703 n s)
      | none => switchTakes s.handle (startLong r 0x0703 n s)), { status := .accepted s.handle }) := by
  unfold switchAsked
  exact if_neg (by simp [hsw, hunit])

theorem switchRefused_mlk (h n : Nat) (s : State) : (switchRefused h n s).mlk = { s.mlk with swReason := some n } :=
  (switchRecord_only (qs := [.bki, .evr, .mbx, .mon]) n _ (opDone_only h (.state n) [] _ (Only.refl _ (s.modMlk fun m => { m with swReason := some n }))
    (by simp)) (by simp)).same .mlk (by decide)

/-- The standby takes over for a switch-back. -/
theorem switchTakes_spec (h : Nat) {s : State} (hroom : s.mlk.partnerClaim ≠ 0xFFFFFFFF) :
    Only [.cgu, .mlk, .bki, .evr, .mbx, .persist] s (switchTakes h s) ∧ (switchTakes h s).persist.fwUp = s.persist.fwUp
    ∧ (switchTakes h s).cgu = { s.cgu with ownClaim := s.mlk.partnerClaim + 1, tripOn := false, role := .taking }
    ∧ (switchTakes h s).mlk = { s.mlk with swOp := some h, swReason := none } := by
  have hcgu := startTakeover_cgu (s := s.modMlk fun m => { m with swOp := some h, swReason := none }) hroom
  have heq : switchTakes h s = startTakeover (s.modMlk fun m => { m with swOp := some h, swReason := none }) := by
    rw [switchTakes]
    exact if_pos (by rw [hcgu])
  have honly := startTakeover_only (qs := [.cgu, .bki, .evr, .mbx, .persist]) (s.modMlk fun m => { m with swOp := some h, swReason := none })
    (Only.refl _ _) (by simp)
  rw [heq]
  refine ⟨(State.modMlk_only _ (Only.refl _ s) (by simp)).trans (honly.mono (by simp)), startTakeover_fwUp _, hcgu, honly.same .mlk (by decide)⟩

/-! ### Standing by again -/

theorem returnStandby_back {s : State} (hhard : s.cgu.outHard = true) (hen : s.cgu.clmEn = true) (hid : s.cgu.unitId ≠ 0) :
    returnStandby s = setRole .standby (s.modCgu fun c => { c with outHard := false }) := by
  simp [returnStandby, hhard, hen, hid]

theorem returnStandby_stays {s : State} (h : s.cgu.clmEn = false ∨ s.cgu.unitId = 0) :
    returnStandby s = s.modCgu fun c => { c with outHard := false } := by
  obtain h | h := h <;> simp [returnStandby, h]

/-- Settles O58. -/
theorem pairRequests : Obligations.PairRequests := by
  refine ⟨?_, ?_, ?_, ?_, ?_, ?_, ?_, ?_, ?_, ?_, ?_, ?_, ?_, ?_, ?_, ?_, ?_, ?_, ?_⟩
  case refine_1 => exact fun r s hclear => hclear.answered rfl ⟨nofun, nofun⟩ fun _ => rfl
  case refine_2 =>
    intro r c v1 v2 v3 v4 n o s hclear hheld
    have hlocked : ∀ f (u : State), u.bki.clmHold = true → holdGuard f u = (u, { status := .locked, result := [] }) := fun f u h => holdGuard_held h
    exact ⟨hclear.answered rfl ⟨nofun, nofun⟩ fun ps => hlocked _ _ hheld, hclear.answered rfl ⟨nofun, nofun⟩ fun ps => hlocked _ _ hheld,
      hclear.answered rfl ⟨nofun, nofun⟩ fun ps => hlocked _ _ hheld, hclear.answered rfl ⟨nofun, nofun⟩ fun ps => hlocked _ _ hheld,
      hclear.answered rfl ⟨nofun, nofun⟩ fun ps => hlocked _ _ hheld, hclear.answered rfl ⟨nofun, nofun⟩ fun ps => hlocked _ _ hheld,
      hclear.answered rfl ⟨nofun, nofun⟩ fun ps => hlocked _ _ hheld⟩
  case refine_3 =>
    intro r c s hclear hopen hc hsw hrole htakes
    refine hclear.served rfl ⟨nofun, nofun⟩ fun ps htake => ⟨_, opSetClaim_ok r (s := s.withPairs ps) hopen hc hsw hrole htakes, ?_, ?_⟩
    · exact fwUp_of_only (note_only (qs := [.bki, .evr]) _ _ _ _ _ _ _ (Only.refl _ _) (by simp)) (by decide) (by rw [writeClaim, if_neg hc]; exact hclear.fwUp)
    · rw [htake, writeClaim, if_neg hc]
      refine ⟨note_only _ _ _ _ _ _ _ (configChanged_only _ (configChanged_only _ (State.modCgu_only _ (Only.refl _ _) (by simp)) (by simp))
        (by simp)) (by simp), ?_⟩
      exact (note_only (qs := [.bki, .evr]) _ _ _ _ _ _ _ (Only.refl _ _) (by simp)).same .cgu (by decide)
  case refine_4 =>
    intro r c s hclear hopen hc hsw hout hstandby
    exact hclear.answered rfl ⟨nofun, nofun⟩ fun ps => opSetClaim_role r (s := s.withPairs ps) hopen hc hsw hout hstandby
  case refine_5 =>
    intro r c v1 v2 v3 v4 s hclear hopen hsw
    refine ⟨fun hc => ?_, fun h2 h3 h4 => ?_, ?_⟩
    · exact hclear.answered rfl ⟨nofun, nofun⟩ fun ps => opSetClaim_busy r (s := s.withPairs ps) hopen hc hsw
    · exact hclear.answered rfl ⟨nofun, nofun⟩ fun ps => (opPairConfig_eq r (s := s.withPairs ps) hopen h2 h3 h4).trans (if_pos hsw)
    · exact hclear.answered rfl ⟨nofun, nofun⟩ fun ps => opGoOut_busy r (s := s.withPairs ps) hopen hsw
  case refine_6 =>
    intro r v1 v2 v3 v4 s hclear hopen h2 h3 h4 hsw hnone
    obtain ⟨k, hsrc, -⟩ := id hclear
    obtain ⟨qs, hq⟩ := take_of_host hsrc s
    obtain ⟨honly, hup, hen, hmem, hwin, hplaus, hto, hep, hclaim, hrole⟩ := pairCfg_spec (v1 := v1) (s := s.withPairs qs) h2 h3 h4 hopen
      (pairConfig_rise hnone)
    refine ⟨_, hclear.served (vals := [cguCtl (configChanged (writePairCfg v1 v2 v3 v4 (s.withPairs qs))), bits v2 15 0,
      ocuCtl (configChanged (writePairCfg v1 v2 v3 v4 (s.withPairs qs))), mlkCtl (configChanged (writePairCfg v1 v2 v3 v4 (s.withPairs qs)))])
      rfl ⟨nofun, nofun⟩ fun ps htake => ?_⟩
    have hps : s.withPairs ps = s.withPairs qs := htake.symm.trans hq
    rw [hps, htake, hps]
    refine ⟨_, ?_, hup.trans hclear.fwUp, honly, rfl, hen, hmem, hwin, hplaus, hto, hep, hclaim, hrole⟩
    rw [opPairConfig_eq r (s := s.withPairs qs) hopen h2 h3 h4, if_neg (by rw [show (s.withPairs qs).switching = s.switching from rfl, hsw]; decide),
      show pairConfigRefused v1 v3 (s.withPairs qs) = none from hnone]
    dsimp only
    rw [hmem]
    rfl
  case refine_7 =>
    intro r v1 v2 v3 v4 n s hclear hopen h2 h3 h4 hsw hsome
    refine hclear.answered rfl ⟨nofun, nofun⟩ fun ps => ?_
    rw [opPairConfig_eq r (s := s.withPairs ps) hopen h2 h3 h4, if_neg (by rw [show (s.withPairs ps).switching = s.switching from rfl, hsw]; decide),
      show pairConfigRefused v1 v3 (s.withPairs ps) = some n from hsome]
    rfl
  case refine_8 =>
    intro r n s hclear hopen h1 h15 hrole hheld
    obtain ⟨k, hsrc, -⟩ := id hclear
    refine hclear.served rfl ⟨nofun, nofun⟩ fun ps htake => ?_
    obtain ⟨f, hlong⟩ := startLong_of_host hsrc 0x0703 n (s.withPairs ps)
    refine ⟨((s.withPairs ps).modMbx f).modMlk fun m => { m with swHeld := some (n, s.now, s.handle) }, ?_, hclear.fwUp, ?_, rfl⟩
    · rw [opSwitchBack_eq r (s := s.withPairs ps) hopen h1 h15, show (s.withPairs ps).cgu.role = .active from hrole]
      dsimp only
      rw [switchHeld, if_neg (by rw [show (s.withPairs ps).mlk.swHeld = none from hheld]; decide), hlong]
      rfl
    · rw [htake]
      exact State.modMlk_only _ (State.modMbx_only _ (Only.refl _ _) (by simp)) (by simp)
  case refine_9 =>
    intro r n s hclear hopen h1 h15 hrole hword
    refine hclear.answered rfl ⟨nofun, nofun⟩ fun ps => ?_
    rw [opSwitchBack_eq r (s := s.withPairs ps) hopen h1 h15, show (s.withPairs ps).cgu.role = .standby from hrole]
    exact if_pos hword
  case refine_10 =>
    intro r n m s hclear hopen h1 h15 hrole hsw hunit hfails
    obtain ⟨k, hsrc, -⟩ := id hclear
    refine hclear.served rfl ⟨nofun, nofun⟩ fun ps htake => ?_
    obtain ⟨f, hlong⟩ := startLong_of_host hsrc 0x0703 n (s.withPairs ps)
    have honly : Only [.mlk, .bki, .evr, .mbx, .mon] (s.withPairs ps) (switchRefused s.handle m ((s.withPairs ps).modMbx f)) :=
      switchRefused_only _ _ _ (State.modMbx_only _ (Only.refl _ _) (by simp)) (by simp)
    refine ⟨_, ?_, fwUp_of_only honly (by decide) hclear.fwUp, ?_⟩
    · rw [opSwitchBack_eq r (s := s.withPairs ps) hopen h1 h15, show (s.withPairs ps).cgu.role = .standby from hrole]
      dsimp only
      rw [switchAsked_eq r (s := s.withPairs ps) hsw hunit, hlong, show switchFails ((s.withPairs ps).modMbx f) = some m from hfails]
      rfl
    · rw [htake]
      exact ⟨honly, switchRefused_mlk _ _ _⟩
  case refine_11 =>
    intro r n s hclear hopen h1 h15 hrole hsw hunit hfails hroom
    obtain ⟨k, hsrc, -⟩ := id hclear
    refine hclear.served rfl ⟨nofun, nofun⟩ fun ps htake => ?_
    obtain ⟨f, hlong⟩ := startLong_of_host hsrc 0x0703 n (s.withPairs ps)
    obtain ⟨honly, hup, hcgu, hmlk⟩ := switchTakes_spec s.handle (s := (s.withPairs ps).modMbx f) hroom
    refine ⟨switchTakes s.handle ((s.withPairs ps).modMbx f), ?_, hup.trans hclear.fwUp, ?_⟩
    · rw [opSwitchBack_eq r (s := s.withPairs ps) hopen h1 h15, show (s.withPairs ps).cgu.role = .standby from hrole]
      dsimp only
      rw [switchAsked_eq r (s := s.withPairs ps) hsw hunit, hlong, show switchFails ((s.withPairs ps).modMbx f) = none from hfails]
      rfl
    · rw [htake, hcgu, hmlk]
      exact ⟨(State.modMbx_only f (Only.refl _ _) (by simp)).trans honly, rfl, rfl, rfl, rfl⟩
  case refine_12 =>
    intro r n s hclear hopen h1 h15 hactive hstandby
    refine hclear.answered rfl ⟨nofun, nofun⟩ fun ps => ?_
    rw [opSwitchBack_eq r (s := s.withPairs ps) hopen h1 h15]
    split
    next h => exact absurd h hactive
    next h => exact absurd h hstandby
    next => rfl
  case refine_13 =>
    intro r s hclear hopen
    refine hclear.served rfl ⟨nofun, nofun⟩ fun ps htake => ⟨(s.withPairs ps).modOcu fun o => { o with takeBlock := false },
      holdGuard_open (s := s.withPairs ps) hopen, hclear.fwUp, ?_, rfl⟩
    rw [htake]
    exact State.modOcu_only _ (Only.refl _ _) (by simp)
  case refine_14 =>
    intro r s hclear hopen hout hf hid hhard hen hunit
    refine hclear.served rfl ⟨nofun, nofun⟩ fun ps htake => ?_
    have hback := returnStandby_back (s := s.withPairs ps) hhard hen hunit
    have honly := setRole_only (qs := [.cgu, .bki, .evr, .mbx]) .standby ((s.withPairs ps).modCgu fun c => { c with outHard := false })
      (State.modCgu_only _ (Only.refl _ (s.withPairs ps)) (by simp)) (by simp)
    refine ⟨setRole .standby ((s.withPairs ps).modCgu fun c => { c with outHard := false }),
      (opReturnStandby_eq r (s := s.withPairs ps) hopen hout hf hid).trans ?_, ?_, ?_⟩
    · rw [hback, setRole_cgu]
      rfl
    · exact fwUp_of_only honly (by decide) hclear.fwUp
    · rw [htake]
      exact ⟨honly, setRole_cgu ..⟩
  case refine_15 =>
    intro r s hclear hopen hout hf hid hstays
    refine hclear.served rfl ⟨nofun, nofun⟩ fun ps htake => ?_
    have hback := returnStandby_stays (s := s.withPairs ps) hstays
    refine ⟨(s.withPairs ps).modCgu fun c => { c with outHard := false }, (opReturnStandby_eq r (s := s.withPairs ps) hopen hout hf hid).trans ?_,
      hclear.fwUp, ?_, rfl⟩
    · rw [hback, State.modCgu_cgu, show (s.withPairs ps).cgu.role = .out from hout]
      rfl
    · rw [htake]
      exact State.modCgu_only _ (Only.refl _ _) (by simp)
  case refine_16 =>
    intro r s hclear hopen hout
    exact hclear.answered rfl ⟨nofun, nofun⟩ fun ps => opReturnStandby_not r (s := s.withPairs ps) hopen hout
  case refine_17 =>
    intro r s hclear hopen hsw hpart hword
    refine hclear.served rfl ⟨nofun, nofun⟩ fun ps htake => ⟨_, opGoOut_ok r (s := s.withPairs ps) hopen hsw hpart hword, ?_, ?_⟩
    · exact fwUp_of_only (becomeOut_only (qs := [.ports, .sw, .insts, .cgu, .time, .bki, .evr, .mbx]) _ _ (Only.refl _ _) (by simp)) (by decide)
        hclear.fwUp
    · rw [htake]
      refine ⟨becomeOut_only _ _ (Only.refl _ _) (by simp), becomeOut_role _ _, ?_, becomeOut_win _ _, becomeOut_tripOn _ _, becomeOut_clmEn _ _,
        becomeOut_ownClaim _ _⟩
      rw [becomeOut_outHard, Bool.or_true]
  case refine_18 =>
    intro r s hclear hopen hsw hpart
    exact hclear.answered rfl ⟨nofun, nofun⟩ fun ps => opGoOut_gone r (s := s.withPairs ps) hopen hsw hpart
  case refine_19 =>
    intro r n o s hclear hopen hn ho
    refine hclear.served rfl ⟨nofun, nofun⟩ fun ps htake => ⟨_, opTripAssign_ok r (s := s.withPairs ps) hopen hn ho, hclear.fwUp, ?_⟩
    rw [htake]
    refine ⟨configChanged_only _ (assignTrip_only _ _ _ (Only.refl _ _) (by simp)) (by simp), Tbl.get_set_same _ _ _ _, fun j hj => Tbl.get_set_other _ _ _ hj,
      fun h => if_pos h, rfl⟩

end Sys2Proof.Machine
end

section
/-!
PROOFS. The output comparison unit and the referee (R258 to R264): frames, windows and pictures; O39.
-/
namespace Sys2Proof.Machine
open Sys2Proof

/-! ### Decisions -/

/-- What no decision changes in the comparison unit: the pending comparisons, the last one referred, and the counters of comparisons. -/
def State.compared (s : State) : List Pend × Option Nat × Nat × Nat × Nat :=
  (s.ocu.pending, s.ocu.lastReferred, s.ocu.live.get 1 0, s.ocu.live.get 2 0, s.ocu.live.get 3 0)

theorem compared_of_ocu {s t : State} (h : t.ocu = s.ocu) : t.compared = s.compared := by rw [State.compared, State.compared, h]

theorem ocuCount_compared {i : Nat} (h : 4 ≤ i) (s : State) : (ocuCount i s).compared = s.compared := by
  have hlive : ∀ j, j < 4 → (ocuCount i s).ocu.live.get j 0 = s.ocu.live.get j 0 := fun j hj => bump_other _ _ (by omega)
  simp only [State.compared, hlive 1 (by decide), hlive 2 (by decide), hlive 3 (by decide)]
  rfl

/-- The decision as it is recorded and told to the host. -/
def decisionTold (row : Nat) (own : Bool) (k : CmpKey) (u : State) : State :=
  emit 0x07F1 none 0 [row, b2n (!own), u.evr.next + u.evr.posts.length] (note .bki 0 0x301 0 .none (decisionDetail row own k) u)

theorem decisionTold_only (row : Nat) (own : Bool) (k : CmpKey) (u : State) : Only [.bki, .evr, .mbx] u (decisionTold row own k u) :=
  emit_only _ _ _ _ _ _ _ (note_only _ _ _ _ _ _ _ (Only.refl _ u) (by simp)) (by simp)

/-- A decision sent to the partner, where it can be (R264, R271). -/
def decisionSent (row : Nat) (own : Bool) (k : CmpKey) (u : State) : State :=
  if u.partnerGone || !u.laneUp then u else u.modMlk fun m => { m with decisionsOut := m.decisionsOut ++ [(row, !own, k)] }

theorem decisionSent_ocu (row : Nat) (own : Bool) (k : CmpKey) (u : State) : (decisionSent row own k u).ocu = u.ocu := by
  unfold decisionSent
  split <;> rfl

theorem recordDecision_some (row : Nat) (own : Bool) (k : CmpKey) (s : State) :
    recordDecision row (some own) k s = decisionSent row own k (decisionTold row own k (ocuCount (if own then 7 else 8) (bkiCount 11 s))) := rfl

theorem recordDecision_ocu (row : Nat) (own : Bool) (k : CmpKey) (s : State) :
    (recordDecision row (some own) k s).ocu = { s.ocu with live := bump s.ocu.live (if own then 7 else 8) } := by
  rw [recordDecision_some, decisionSent_ocu, (decisionTold_only ..).same .ocu (by decide)]
  rfl

/-- A decision goes to a present partner over a lane that is up (R264, R271). -/
theorem recordDecision_sent {s : State} (hpart : s.mlk.partner = .present) (hlane : s.laneUp = true) (row : Nat) (own : Bool) (k : CmpKey) :
    (recordDecision row (some own) k s).mlk = { s.mlk with decisionsOut := s.mlk.decisionsOut ++ [(row, !own, k)] } := by
  have hmlk : (decisionTold row own k (ocuCount (if own then 7 else 8) (bkiCount 11 s))).mlk = s.mlk :=
    (decisionTold_only ..).same .mlk (by decide)
  have hno : ((decisionTold row own k (ocuCount (if own then 7 else 8) (bkiCount 11 s))).partnerGone
      || !(decisionTold row own k (ocuCount (if own then 7 else 8) (bkiCount 11 s))).laneUp) = false := by
    rw [State.partnerGone, State.laneUp, hmlk, hpart]
    simpa [State.laneUp] using hlane
  rw [recordDecision_some, decisionSent, if_neg (by rw [hno]; decide), State.modMlk_mlk, hmlk]

theorem recordDecision_compared (row : Nat) (against : Option Bool) (k : CmpKey) (s : State) : (recordDecision row against k s).compared = s.compared := by
  cases against with
  | none => exact (ocuCount_compared (by decide) _).trans rfl
  | some own =>
    have h : (recordDecision row (some own) k s).compared = (ocuCount (if own then 7 else 8) s).compared := by
      rw [State.compared, State.compared, recordDecision_ocu]
      rfl
    rw [h, ocuCount_compared (by split <;> decide)]

theorem becomeOut_ocu (hard : Bool) (s : State) : (becomeOut hard s).ocu = s.ocu :=
  (becomeOut_only (qs := [.ports, .sw, .insts, .cgu, .time, .bki, .evr, .mbx]) hard s (Only.refl _ s) (by simp)).same .ocu (by decide)

theorem startTakeover_ocu (s : State) : (startTakeover s).ocu = s.ocu :=
  (startTakeover_only (qs := [.cgu, .bki, .evr, .mbx, .persist]) s (Only.refl _ s) (by simp)).same .ocu (by decide)

theorem actDecision_compared (row : Nat) (own : Bool) (s : State) : (actDecision row own s).compared = s.compared := by
  unfold actDecision
  split_ifs
  · rfl
  · exact compared_of_ocu (becomeOut_ocu ..)
  · rfl
  · rfl
  · rfl
  · exact compared_of_ocu (startTakeover_ocu _)
  · rfl

theorem referee_compared {row3 : State → State} (h : ∀ u, (row3 u).compared = u.compared) (k : CmpKey) (s : State) :
    (referee k row3 s).compared = s.compared := by
  unfold referee
  dsimp only
  split_ifs
  · rw [actDecision_compared, recordDecision_compared]
  · rw [actDecision_compared, recordDecision_compared]
  · exact recordDecision_compared ..
  · exact h s

theorem refer_compared (d : Diverge) (s : State) : (refer d s).compared = (s.modOcu fun o => { o with lastReferred := some s.now }).compared := by
  unfold refer
  dsimp only
  split
  · rfl
  · refine referee_compared (fun u => ?_) _ _
    split
    · split
      · rfl
      · exact recordDecision_compared ..
    · exact recordDecision_compared ..

/-! ### Divergences -/

theorem diverge_of_excused {d : Diverge} {s : State} (h : excused d.key.inst s = true) :
    ∃ x, diverge d s = ocuCount 4 (note .ocu 0 0x300 0 .none x s) := by
  unfold diverge
  simp only [h, if_true]
  exact ⟨_, rfl⟩

/-- A divergence that is not excused is counted by its type and referred. -/
theorem diverge_compared {d : Diverge} {s : State} (h : excused d.key.inst s = false) :
    (diverge d s).compared = ((ocuCount (1 + d.type) s).modOcu fun o => { o with lastReferred := some s.now }).compared := by
  unfold diverge
  simp only [h, Bool.false_eq_true, if_false]
  rw [refer_compared]
  have hnote : (note .ocu 0 0x300 0 .none (divergeDetail d false) s).ocu = s.ocu :=
    (note_only (qs := [.bki, .evr]) _ _ _ _ _ _ _ (Only.refl _ s) (by simp)).same .ocu (by decide)
  have hnow : (note .ocu 0 0x300 0 .none (divergeDetail d false) s).now = s.now :=
    now_of_clk (clk_of_only (ps := [.bki, .evr]) (by simp) (by decide))
  simp only [State.compared, ocuCount, State.modOcu_ocu, hnote]
  exact congrArg (fun n => (s.ocu.pending, some n, _, _, _)) hnow

/-! ### The commands -/

/-- A frame at a key whose window has not ended. -/
theorem ocuFrame_of_open {own : Bool} {c : OcuCopy} {k : CmpKey} {e : Pend} {s : State} (hk : c.key = some k) (he : s.pend k = some e)
    (hopen : s.now < e.endAt) : ocuFrame own c s = ocuTake own c k s := by
  simp only [ocuFrame, hk, he]
  rw [if_neg (by simp [due, hopen])]

theorem ocuFrame_of_new {own : Bool} {c : OcuCopy} {k : CmpKey} {s : State} (hk : c.key = some k) (he : s.pend k = none) :
    ocuFrame own c s = ocuTake own c k s := by
  simp only [ocuFrame, hk, he]

theorem exec_ocuFrame_own {c : OcuCopy} {rest : List OcuCopy} {s : State} (h : s.ocu.ctrlIn = c :: rest) :
    exec (.ocuFrame none) s = .next (ocuFrame true c (s.modOcu fun o => { o with ctrlIn := rest })) := by
  have he : exec (.ocuFrame none) s = execOcuFrame none s := rfl
  rw [he, execOcuFrame]
  rw [h]

theorem exec_ocuFrame_partner (c : OcuCopy) {s : State} (h : s.linkOn = true) :
    exec (.ocuFrame (some c)) s = .next (ocuFrame false c (mlkCount 1 s)) := by
  have he : exec (.ocuFrame (some c)) s = execOcuFrame (some c) s := rfl
  rw [he, execOcuFrame]
  rw [if_pos h]

theorem exec_ocuWindowEnd {k : CmpKey} {e : Pend} {s : State} (he : s.pend k = some e) (hdue : e.endAt ≤ s.now) :
    exec (.ocuWindowEnd k) s = .next (windowEnds e s) := by
  have hx : exec (.ocuWindowEnd k) s = execOcuWindowEnd k s := rfl
  rw [hx, execOcuWindowEnd, he]
  dsimp only
  rw [whenDue_now _ hdue]

theorem key_of_pend {k : CmpKey} {e : Pend} {s : State} (h : s.pend k = some e) : e.key = k := by
  simpa using List.find?_some h

/-- A frame of the other side that does not match is a divergence of CONTENT. -/
theorem ocuTake_differs {own : Bool} {c : OcuCopy} {k : CmpKey} {e : Pend} {s : State} (he : s.pend k = some e) (hloc : e.loc ≠ own)
    (hd : c.digest ≠ e.digest) : ∃ d : Diverge, d.key = k ∧ d.type = 0 ∧ ocuTake own c k s = diverge d (closePend k s) := by
  refine ⟨{ key := k, type := 0, t := e.openAt, own := if own then some (c.sense, c.zone) else some (e.sense, e.zone)
            other := if own then some (e.sense, e.zone) else some (c.sense, c.zone) }, rfl, rfl, ?_⟩
  simp only [ocuTake, he, hloc, hd, if_false]

theorem ocuTake_matches {own : Bool} {c : OcuCopy} {k : CmpKey} {e : Pend} {s : State} (he : s.pend k = some e) (hloc : e.loc ≠ own)
    (hd : c.digest = e.digest) : ocuTake own c k s = ocuCount 0 (closePend k s) := by
  simp only [ocuTake, he, hloc, hd, if_false, if_true]

theorem ocuTake_again {own : Bool} {c : OcuCopy} {k : CmpKey} {e : Pend} {s : State} (he : s.pend k = some e) (hloc : e.loc = own) :
    ocuTake own c k s = ocuCount 5 s := by
  simp only [ocuTake, he, hloc, if_true]

theorem ocuTake_new {own : Bool} {c : OcuCopy} {k : CmpKey} {s : State} (he : s.pend k = none) (hen : s.ocu.en = true)
    (hroom : s.ocu.pending.length < 4096) : ocuTake own c k s = s.modOcu fun o => { o with pending := o.pending ++ [{
      key := k, digest := c.digest, loc := own, openAt := s.now, endAt := s.now + us o.windowUs, sense := c.sense, zone := c.zone }] } := by
  simp only [ocuTake, he, hen, Bool.not_true, Bool.false_eq_true, if_false, Nat.not_le.2 hroom]

/-! ### Pictures -/

/-- The first picture of a key, where it is the first picked up too. -/
theorem picture_find {k : CmpKey} {p : Picture} {s : State} (hfirst : (s.ocu.pictures.find? fun p => p.key == k) = some p) :
    (s.ocu.pictures.filter fun p => p.key == k).head? = some p := by rw [List.head?_filter, hfirst]

theorem exec_pictureDecision {k : CmpKey} {p : Picture} {s : State} (hisland : s.island = true)
    (hfirst : (s.ocu.pictures.find? fun p => p.key == k) = some p) (hup : pickedUp p s = true) :
    exec (.pictureDecision k) s = .next (pictureDecided p true s) := by
  have he : exec (.pictureDecision k) s = execPictureDecision k s := rfl
  obtain ⟨qs, hqs⟩ : ∃ qs, (s.ocu.pictures.filter fun p => p.key == k) = p :: qs :=
    ⟨_, (List.eq_cons_of_mem_head? (Option.mem_def.2 (picture_find hfirst)))⟩
  rw [he, execPictureDecision, hqs]
  simp only [hisland, if_true, List.find?_cons, hup, Option.some_or]

theorem exec_pictureDecision_end {k : CmpKey} {p : Picture} {s : State} (hisland : s.island = true)
    (hfirst : (s.ocu.pictures.find? fun p => p.key == k) = some p) (hno : ∀ q ∈ s.ocu.pictures, q.key = k → pickedUp q s = false)
    (hdue : p.t + ms p.winMs ≤ s.now) : exec (.pictureDecision k) s = .next (pictureDecided p false s) := by
  have he : exec (.pictureDecision k) s = execPictureDecision k s := rfl
  have hp : pickedUp p s = false := hno p (List.mem_of_find?_eq_some hfirst) (by simpa using List.find?_some hfirst)
  have hnone : ((s.ocu.pictures.filter fun p => p.key == k).find? fun p => pickedUp p s) = none := by
    rw [List.find?_eq_none]
    intro q hq
    rw [List.mem_filter] at hq
    simp [hno q hq.1 (by simpa using hq.2)]
  rw [he, execPictureDecision, hnone, picture_find hfirst]
  simp only [hisland, if_true, Option.none_or, hp, Bool.false_eq_true, if_false]
  rw [whenDue_now _ hdue]

/-- Row 3 of the referee on a standby's picture (R262, R263). -/
theorem pictureDecided_standby {p : Picture} {pz : Bool} {s : State} (hrole : s.cgu.role = .standby) (hf : s.fPair = 0) :
    pictureDecided p pz s = if p.both then recordDecision 4 none p.key (s.modOcu fun o => { o with pictures := o.pictures.erase p })
      else actDecision 3 (p.tripLocal != pz) (recordDecision 3 (some (p.tripLocal != pz)) p.key (s.modOcu fun o => { o with pictures := o.pictures.erase p })) := by
  have hf' : (s.modOcu fun o => { o with pictures := o.pictures.erase p }).fPair = 0 := hf
  unfold pictureDecided
  dsimp only
  rw [if_pos (show (s.modOcu fun o => { o with pictures := o.pictures.erase p }).cgu.role = .standby from hrole)]
  simp only [referee, hf', Nat.zero_ne_one, if_false, OfNat.zero_ne_ofNat]

/-- A standby that its own picture contradicts is blocked; one whose partner is contradicted takes over. -/
theorem actDecision_blocks {s : State} (hrole : s.cgu.role = .standby) : actDecision 3 true s = s.modOcu fun o => { o with takeBlock := true } := by
  simp [actDecision, hrole]

theorem actDecision_takes {s : State} (hrole : s.cgu.role = .standby) (hword : s.mlk.word.role = .active) (hblock : s.ocu.takeBlock = false) :
    actDecision 3 false s = startTakeover s := by
  simp [actDecision, hrole, hword, hblock]

/-- The divergence that an ended window is. -/
theorem windowEnds_eq (e : Pend) (s : State) :
    ∃ d : Diverge, d.key = e.key ∧ d.type = (if e.loc then 2 else 1) ∧ windowEnds e s = diverge d (closePend e.key s) := by
  refine ⟨if e.loc then { key := e.key, type := 2, t := e.openAt, own := some (e.sense, e.zone) }
    else { key := e.key, type := 1, t := e.openAt, other := some (e.sense, e.zone) }, ?_, ?_, rfl⟩
  · split <;> rfl
  · split <;> rfl

/-- Settles O39. -/
theorem outputComparisonAndReferee : Obligations.OutputComparisonAndReferee := by
  refine ⟨?_, ?_, ?_, ?_, ?_, ?_, ?_, ?_, ?_, ?_, ?_, ?_⟩
  case refine_1 =>
    intro c rest k s hin hk hnew hen hroom
    refine ⟨_, (exec_ocuFrame_own hin).trans (congrArg _ ((ocuFrame_of_new (s := s.modOcu fun o => { o with ctrlIn := rest }) hk hnew).trans
      (ocuTake_new hnew hen hroom))), ?_, rfl⟩
    exact State.modOcu_only _ (State.modOcu_only _ (Only.refl _ s) (by simp)) (by simp)
  case refine_2 =>
    intro c rest k e s hin hk he hloc hopen hd
    refine ⟨_, (exec_ocuFrame_own hin).trans (congrArg _ ((ocuFrame_of_open (s := s.modOcu fun o => { o with ctrlIn := rest }) hk he hopen).trans
      (ocuTake_matches he (by rw [hloc]; nofun) hd))), ?_, rfl⟩
    exact ocuCount_only _ _ (State.modOcu_only _ (State.modOcu_only _ (Only.refl _ s) (by simp)) (by simp)) (by simp)
  case refine_3 =>
    intro c k e s hon hk he hloc hopen
    refine ⟨_, (exec_ocuFrame_partner c hon).trans (congrArg _ ((ocuFrame_of_open (s := mlkCount 1 s) hk he hopen).trans (ocuTake_again he hloc))), ?_, rfl, rfl⟩
    exact ocuCount_only _ _ (mlkCount_only _ _ (Only.refl _ s) (by simp)) (by simp)
  case refine_4 =>
    intro c s hoff
    have he : exec (.ocuFrame (some c)) s = execOcuFrame (some c) s := rfl
    exact ⟨s, by simp [he, execOcuFrame, hoff], rfl⟩
  case refine_5 =>
    intro c k e s hon hk he hloc hopen hd hex
    obtain ⟨d, hdk, hdt, htake⟩ := ocuTake_differs (own := false) (c := c) (s := mlkCount 1 s) he (by rw [hloc]; decide) hd
    have hex' : excused d.key.inst (closePend k (mlkCount 1 s)) = false := by rw [hdk]; exact hex
    have hc := diverge_compared hex'
    rw [hdt] at hc
    simp only [State.compared, Prod.mk.injEq] at hc
    obtain ⟨hpend, hlast, hlive, -, -⟩ := hc
    exact ⟨_, (exec_ocuFrame_partner c hon).trans (congrArg _ ((ocuFrame_of_open (s := mlkCount 1 s) hk he hopen).trans htake)), hpend, hlast, hlive.trans (bump_same _ _ _)⟩
  case refine_6 =>
    intro k e s he hdue hex
    obtain ⟨d, hdk, -, hw⟩ := windowEnds_eq e s
    have hex' : excused d.key.inst (closePend e.key s) = true := by rw [hdk, key_of_pend he]; exact hex
    obtain ⟨x, hx⟩ := diverge_of_excused hex'
    have hnote := note_only (qs := [.bki, .evr]) .ocu 0 0x300 0 .none x (closePend e.key s) (Only.refl _ _) (by simp)
    refine ⟨_, (exec_ocuWindowEnd he hdue).trans (congrArg _ (hw.trans hx)), ?_, ?_⟩
    · exact ocuCount_only _ _ ((State.modOcu_only _ (Only.refl _ s) (by simp)).trans (hnote.mono (by simp))) (by simp)
    · rw [ocuCount, State.modOcu_ocu, hnote.same .ocu (by decide), key_of_pend he]
      rfl
  case refine_7 =>
    intro k e s he hdue hex
    obtain ⟨d, hdk, hdt, hw⟩ := windowEnds_eq e s
    have hex' : excused d.key.inst (closePend e.key s) = false := by rw [hdk, key_of_pend he]; exact hex
    have hc := diverge_compared hex'
    simp only [State.compared, Prod.mk.injEq] at hc
    obtain ⟨hpend, hlast, -, htwo, hthree⟩ := hc
    refine ⟨_, (exec_ocuWindowEnd he hdue).trans (congrArg _ hw), ?_, hlast, ?_⟩
    · rw [hpend, key_of_pend he]
      rfl
    · cases hloc : e.loc with
      | true =>
        rw [hloc] at hdt
        rw [hdt] at hthree
        exact hthree.trans (bump_same _ _ _)
      | false =>
        rw [hloc] at hdt
        rw [hdt] at htwo
        exact htwo.trans (bump_same _ _ _)
  case refine_8 =>
    intro k p s hisland hlane hfirst hup hrole hf htrip hblock hword hboth hpart hroom
    have hpk : p.key = k := by simpa using List.find?_some hfirst
    have hmlk := recordDecision_sent (s := s.modOcu fun o => { o with pictures := o.pictures.erase p }) hpart hlane 3 false k
    have hocu := recordDecision_ocu 3 false k (s.modOcu fun o => { o with pictures := o.pictures.erase p })
    have hcgu := recordDecision_cgu 3 (some false) k (s.modOcu fun o => { o with pictures := o.pictures.erase p })
    have hact := actDecision_takes (s := recordDecision 3 (some false) k (s.modOcu fun o => { o with pictures := o.pictures.erase p }))
      (by rw [hcgu]; exact hrole) (by rw [hmlk]; exact hword) (by rw [hocu]; exact hblock)
    have htakes := startTakeover_cgu (s := recordDecision 3 (some false) k (s.modOcu fun o => { o with pictures := o.pictures.erase p }))
      (by rw [hmlk]; exact hroom)
    have hres : pictureDecided p true s =
        startTakeover (recordDecision 3 (some false) k (s.modOcu fun o => { o with pictures := o.pictures.erase p })) := by
      rw [pictureDecided_standby hrole hf, hboth, htrip, hpk]
      exact hact
    have hkept := (startTakeover_only (qs := [.cgu, .bki, .evr, .mbx, .persist])
      (recordDecision 3 (some false) k (s.modOcu fun o => { o with pictures := o.pictures.erase p })) (Only.refl _ _) (by simp)).same .mlk (by decide)
    refine ⟨_, (exec_pictureDecision hisland hfirst hup).trans (congrArg _ hres), ?_, ?_, ?_, ?_, ?_, ?_⟩
    · rw [startTakeover_ocu, hocu]
      rfl
    · rw [htakes]
    · rw [htakes, hmlk]
      rfl
    · rw [htakes]
    · rw [startTakeover_ocu, hocu]
      exact hblock
    · rw [hkept, hmlk]
      rfl
  case refine_9 =>
    intro k p s hisland hfirst hno hdue hrole hf htrip hboth
    have hocu := recordDecision_ocu 3 true p.key (s.modOcu fun o => { o with pictures := o.pictures.erase p })
    have hres : pictureDecided p false s = (recordDecision 3 (some true) p.key (s.modOcu fun o => { o with pictures := o.pictures.erase p })).modOcu
        fun o => { o with takeBlock := true } := by
      rw [pictureDecided_standby hrole hf, hboth, htrip]
      exact actDecision_blocks (by rw [recordDecision_cgu]; exact hrole)
    refine ⟨_, (exec_pictureDecision_end hisland hfirst hno hdue).trans (congrArg _ hres), ?_, ?_, rfl, ?_⟩
    · exact State.modOcu_only _ (recordDecision_only _ _ _ _ (State.modOcu_only _ (Only.refl _ s) (by simp)) (by simp)) (by simp)
    · rw [State.modOcu_ocu, hocu]
      rfl
    · rw [State.modOcu_ocu, hocu]
      exact bump_same _ _ _
  case refine_10 =>
    intro k p s hisland hfirst hup hrole hf hboth
    refine ⟨_, (exec_pictureDecision hisland hfirst hup).trans (congrArg _ ((pictureDecided_standby hrole hf).trans (if_pos hboth))), ?_, rfl, rfl, ?_⟩
    · exact ocuCount_only _ _ (bkiCount_only _ _ _ (State.modOcu_only _ (Only.refl _ s) (by simp)) (by simp)) (by simp)
    · exact bump_same _ _ _
  case refine_11 =>
    intro k s hoff
    have he : exec (.pictureDecision k) s = execPictureDecision k s := rfl
    exact ⟨s, by simp [he, execPictureDecision, hoff], rfl⟩
  case refine_12 =>
    intro row own k s hon
    have he : exec (.decisionMessage row own k) s = execDecisionMessage row own k s := rfl
    exact ⟨_, by rw [he, execDecisionMessage, if_pos hon], note_only _ _ _ _ _ _ _ (Only.refl _ s) (by simp), rfl⟩

end Sys2Proof.Machine
end

section
/-!
PROOFS. The life of an instance (R175 to R198): what its reset, removal and creation write, and what the rest of their steps leaves; O32.
-/
namespace Sys2Proof.Machine
open Sys2Proof

/-! ### What the steps around a change of state leave -/

/-- The descriptors but for what is in use, the granules being cleared, the creations, the hold-off and the mailbox pairs of instances. -/
structure Life where
  /-- the descriptors. -/
  inst : Nat → Inst
  /-- local-store granules being cleared. -/
  lsClearing : List Nat
  /-- DRAM granules being cleared. -/
  dramClearing : List Nat
  /-- creations. -/
  creating : List Creation
  /-- the hold-off of instance numbers. -/
  holdoffMs : Nat
  /-- the mailbox pairs. -/
  pairs : Tbl Pair

/-- What the state holds of it. -/
def State.life (s : State) : Life :=
  { inst := fun i => (s.inst i).calm, lsClearing := s.insts.lsClearing, dramClearing := s.insts.dramClearing, creating := s.insts.creating,
    holdoffMs := s.insts.holdoffMs, pairs := s.mbx.instPairs }

theorem life_of_calm {s t : State} (h : t.calm = s.calm) : t.life = s.life := by
  have hinst : (fun i => (t.inst i).calm) = fun i => (s.inst i).calm := congrArg Calm.inst h
  have hinsts : ({ t.insts with desc := [] } : Insts) = { s.insts with desc := [] } := congrArg Calm.insts h
  have hmbx : t.mbx.calm = s.mbx.calm := congrArg Calm.mbx h
  have hpairs : t.mbx.instPairs = s.mbx.instPairs := by simpa only [Mbx.calm] using congrArg Mbx.instPairs hmbx
  rw [State.life, State.life, hinst, hpairs, show t.insts.lsClearing = s.insts.lsClearing from (congrArg Insts.lsClearing hinsts :),
    show t.insts.dramClearing = s.insts.dramClearing from (congrArg Insts.dramClearing hinsts :),
    show t.insts.creating = s.insts.creating from (congrArg Insts.creating hinsts :),
    show t.insts.holdoffMs = s.insts.holdoffMs from (congrArg Insts.holdoffMs hinsts :)]

theorem life_of_only {ps : List Part} {s t : State} (h : Only ps s t) (hi : Part.insts ∉ ps) (hm : Part.mbx ∉ ps) : t.life = s.life := by
  have hinsts : t.insts = s.insts := h.same .insts hi
  have hmbx : t.mbx = s.mbx := h.same .mbx hm
  simp only [State.life, State.inst, hinsts, hmbx]

section
variable {s t : State} (h : t.life = s.life)
include h

theorem calm_of_life (j : Nat) : (t.inst j).calm = (s.inst j).calm := congrFun (congrArg Life.inst h) j

end

@[simp] theorem life_ite {a b : State} (c : Prop) [Decidable c] : (if c then a else b).life = if c then a.life else b.life :=
  apply_ite State.life c a b

theorem foldl_life {α : Type} (l : List α) (f : State → α → State) (k : ∀ t a, (f t a).life = t.life) (s : State) : (l.foldl f s).life = s.life := by
  induction l generalizing s with
  | nil => rfl
  | cons a l ih => rw [List.foldl_cons, ih, k]

section
variable (s : State)

@[simp] theorem emit_life (opcode : Nat) (inst : Option Nat) (gen : Nat) (vals : List Nat) (tag : Nat) (st : Status) :
    (emit opcode inst gen vals s tag st).life = s.life := life_of_calm (emit_calm ..)

@[simp] theorem emitInst_life (i : Nat) (x : Bool) : (emitInst i x s).life = s.life := life_of_calm (emitInst_calm ..)

@[simp] theorem refreshOver_life (i : Nat) : (refreshOver i s).life = s.life := life_of_calm (refreshOver_calm ..)

@[simp] theorem monPrint_life (name : Nat) (vals : List Nat) : (monPrint name vals s).life = s.life := rfl

theorem opDone_life (h : Nat) (st : Status) (vals : List Nat) : (opDone h st vals s).life = s.life := by
  unfold opDone
  split
  · rfl
  · dsimp only
    rw [emit_life]
    split <;> rfl

@[simp] theorem opDone?_life (h : Option Nat) (st : Status) (vals : List Nat) : (opDone? h st vals s).life = s.life := by
  cases h with
  | none => rfl
  | some h => exact opDone_life ..

@[simp] theorem refreshAllOver_life : (refreshAllOver s).life = s.life := by
  unfold refreshAllOver
  generalize s.insts.desc = ds
  exact foldl_life ds _ (fun t p => refreshOver_life t p.1) s

@[simp] theorem eraseSlot_life (n : Nat) : (eraseSlot n s).life = s.life := by
  unfold eraseSlot
  dsimp only
  split
  · rfl
  · rw [refreshOver_life]
    rfl

@[simp] theorem eraseOwned_life (i : Nat) : (eraseOwned i s).life = s.life := foldl_life _ _ (fun t n => eraseSlot_life t n) s

@[simp] theorem rebindSlots_life (i g : Nat) : (rebindSlots i g s).life = s.life := by
  have hksu : ∀ (t : State) (f : Ksu → Ksu), (t.modKsu f).life = t.life := fun _ _ => rfl
  unfold rebindSlots
  dsimp only
  rw [hksu]
  exact foldl_life _ _ (fun t n => eraseSlot_life t n) s

@[simp] theorem commitDone_life : (commitDone s).life = s.life := by
  unfold commitDone
  split
  · rw [refreshAllOver_life, opDone?_life]
    rfl
  · rfl

@[simp] theorem applyOldest_life : (applyOldest s).life = s.life := by
  unfold applyOldest
  split
  · rfl
  · split
    next u hu =>
      rw [commitDone_life]
      have hsw : ∀ f, (u.modSw f).life = u.life := fun _ => rfl
      rw [hsw]
      exact life_of_only (ps := [.sw]) (applyChange_only _ s (Only.refl _ s) (by simp) u hu) (by decide) (by decide)
    next => rfl

@[simp] theorem commitNow_life (cs : List StbChange) : (commitNow cs s).life = s.life :=
  foldl_life cs _ (fun t _ => applyOldest_life t) (s.modSw fun w => { w with applying := w.applying ++ cs })

@[simp] theorem voidSubs_life (i mac : Nat) : (voidSubs i mac s).life = s.life := (commitNow_life ..).trans rfl

@[simp] theorem putStatic_life (mac vid type target : Nat) (ports : BitVec 8) : (putStatic mac vid type target ports s).life = s.life := by
  unfold putStatic
  split
  · rfl
  · exact commitNow_life ..

@[simp] theorem lsWrite_life (i a : Nat) (octets : List Byte) : (lsWrite i a octets s).life = s.life := by
  have hdirty : ∀ n, (markDirty i a n s).life = s.life := fun n => life_of_only (ps := [.mlk]) (by simp) (by decide) (by decide)
  unfold lsWrite
  dsimp only
  split
  · exact hdirty _
  · rfl

end

/-! ### The registers of the switch while its tables change -/

/-- The switch without its tables and what changes them. -/
def Switch.registers (w : Switch) : Switch :=
  { w with streams := [], fwd := [], bitmaps := [], mir := [], learn := [], applying := [], applyOp := none }

section
variable {s u : State} {idx : Nat}

theorem putStreamNow_registers {e : StreamEntry} (h : putStreamNow idx e s = some u) : u.sw.registers = s.sw.registers := by
  unfold putStreamNow at h
  dsimp only at h
  split_ifs at h <;> split at h
  any_goals split_ifs at h
  all_goals
    cases h
    rfl

theorem putFwdNow_registers {e : FwdEntry} (h : putFwdNow idx e s = some u) : u.sw.registers = s.sw.registers := by
  unfold putFwdNow at h
  dsimp only at h
  split_ifs at h <;> split at h
  any_goals split_ifs at h
  all_goals
    cases h
    rfl

theorem removeNow_registers (h : removeNow idx s = some u) : u.sw.registers = s.sw.registers := by
  unfold removeNow at h
  dsimp only at h
  split_ifs at h <;> cases h <;> rfl

theorem moveNow_registers {dest : Nat} (h : moveNow idx dest s = some u) : u.sw.registers = s.sw.registers := by
  unfold moveNow at h
  dsimp only at h
  split_ifs at h <;> cases h <;> rfl

theorem applyChange_registers {c : StbChange} (h : applyChange c s = some u) : u.sw.registers = s.sw.registers := by
  unfold applyChange at h
  split at h
  · exact putStreamNow_registers h
  · exact putFwdNow_registers h
  · split_ifs at h
    cases h
    rfl
  · split_ifs at h
    cases h
    rfl
  · exact removeNow_registers h
  · exact moveNow_registers h

theorem commitDone_registers (s : State) : (commitDone s).sw.registers = s.sw.registers := by
  unfold commitDone
  split
  · rw [(refreshAllOver_only (qs := [.insts, .bki, .evr, .mbx, .mon]) _ (opDone?_only s.sw.applyOp .ok [] _ (Only.refl _ _) (by simp))
      (by simp)).same .sw (by decide)]
    rfl
  · rfl

theorem applyOldest_registers (s : State) : (applyOldest s).sw.registers = s.sw.registers := by
  unfold applyOldest
  split
  · rfl
  · split
    next hu =>
      have hreg := applyChange_registers hu
      rw [commitDone_registers]
      exact hreg
    next => rfl

theorem commitNow_registers (cs : List StbChange) (s : State) : (commitNow cs s).sw.registers = s.sw.registers := by
  have hfold : ∀ t : State, (cs.foldl (fun s _ => applyOldest s) t).sw.registers = t.sw.registers := by
    intro t
    induction cs generalizing t with
    | nil => rfl
    | cons c cs ih => rw [List.foldl_cons, ih, applyOldest_registers]
  exact hfold _

theorem voidSubs_clsAge (i mac : Nat) (s : State) : (voidSubs i mac s).sw.clsAge = s.sw.clsAge :=
  (congrArg Switch.clsAge (commitNow_registers (voidChanges i mac s) (mapSubs (fun x => if x.names i then {} else x) s)) :)

end

/-! ### Tables after a write -/

theorem Tbl.get_map {α : Type} (t : Tbl α) (f : α → α) (k : Nat) (d : α) (hd : f d = d) :
    Tbl.get (t.map fun p => (p.1, f p.2)) k d = f (t.get k d) := by
  induction t with
  | nil => exact hd.symm
  | cons p t ih =>
    obtain ⟨j, a⟩ := p
    by_cases h : j = k <;> simp [Tbl.get, h, ih]

theorem Tbl.has_set {α : Type} (t : Tbl α) (k : Nat) (a : α) (j : Nat) : (t.set k a).has j = (k == j || t.has j) := by
  induction t with
  | nil => simp [Tbl.set, Tbl.has]
  | cons p t ih =>
    obtain ⟨n, b⟩ := p
    simp only [Tbl.has] at ih
    simp only [Tbl.set, Tbl.has]
    split_ifs with hlt heq
    · simp
    · subst heq
      simp
    · simp only [List.any_cons, ih]
      exact Bool.or_left_comm ..

theorem Tbl.has_del {α : Type} (t : Tbl α) (k : Nat) : (t.del k).has k = false := by simp [Tbl.has, Tbl.del]

/-! ### The beginning of a reset -/

theorem breakLocks_lock (p : Lock → Bool) (s : State) (n : Nat) : (breakLocks p s).lock n =
    if (s.lock n).held && p (s.lock n) then { s.lock n with held := false, broken := true } else s.lock n :=
  Tbl.get_map s.insts.locks (fun l => if l.held && p l then { l with held := false, broken := true } else l) n {} rfl

theorem Lock.held_of_heldBy {l : Lock} {i g : Nat} (h : l.heldBy i g = true) : l.held = true := by
  simp only [Lock.heldBy, Bool.and_eq_true] at h
  exact h.1.1.1

section
variable (i : Nat) (s : State)

theorem lapse_egq {q : Nat} (hq : q < 2) : (lapse i s).egq i q = none := by
  have hqueues : (lapse i s).eg.queues = s.eg.queues.filter fun p => p.1 / 2 ≠ i := rfl
  have hhas : Tbl.has (s.eg.queues.filter fun p => p.1 / 2 ≠ i) (2 * i + q) = false := by
    simp only [Tbl.has, List.any_eq_false, List.mem_filter]
    rintro p ⟨-, hp⟩ hk
    have hdiv : (2 * i + q) / 2 = i := by omega
    rw [eq_of_beq hk] at hp
    simp [hdiv] at hp
  rw [State.egq, hqueues, hhas]
  rfl

theorem lapse_pairs : (lapse i s).mbx.instPairs.has i = false := by
  have hpairs : (lapse i s).mbx.instPairs = s.mbx.instPairs.del i := rfl
  rw [hpairs, Tbl.has_del]

theorem lapse_inst_same : (lapse i s).inst i = { s.inst i with rxRing := none } := by
  rw [lapse, State.inst_setInst_same]
  rfl

theorem lapse_inst_other {j : Nat} (h : j ≠ i) : (lapse i s).inst j = s.inst j := by
  rw [lapse, State.inst_setInst_other _ _ h]
  rfl

/-- The instance as its reset finds it voided: RESETTING, its cores stopped, its locks broken, its registrations lapsed (R193). -/
def State.voided (removal clear : Bool) (h : Option Nat) : State :=
  lapse i (clearTrips i (breakLocks (fun l => l.heldBy i (s.inst i).gen) (stopCores i (s.setInst i fun d => { d with
    state := .resetting, gen := nextGen d.gen, removing := removal, clearDram := clear, opHandle := h, runningAt := none,
    resets := if removal then d.resets else satAdd 16 d.resets 1 }))))

variable (removal clear : Bool) (h : Option Nat)

theorem beginReset_voided_only : Only [.mlk, .time, .acq, .bki, .evr, .mbx] (State.voided i s removal clear h) (beginReset i removal clear h s) :=
  emitInst_only i false _ (mirrorReset_only i _ (discardTrigs_only i _ (disableCmps_only i _ (Only.refl _ _) (by simp)) (by simp)) (by simp)) (by simp)

theorem beginReset_inst_same : (beginReset i removal clear h s).inst i = { s.inst i with
    state := .resetting, gen := nextGen (s.inst i).gen, removing := removal, clearDram := clear, opHandle := h, runningAt := none,
    resets := if removal then (s.inst i).resets else satAdd 16 (s.inst i).resets 1, rxRing := none } := by
  rw [inst_of_insts ((beginReset_voided_only i s removal clear h).same .insts (by decide)), State.voided, lapse_inst_same]
  have hkeep : ∀ (u : State) p, (clearTrips i (breakLocks p (stopCores i u))).inst i = u.inst i := fun _ _ => rfl
  rw [hkeep, State.inst_setInst_same]

theorem beginReset_inst_other {j : Nat} (hj : j ≠ i) : (beginReset i removal clear h s).inst j = s.inst j := by
  rw [inst_of_insts ((beginReset_voided_only i s removal clear h).same .insts (by decide)), State.voided, lapse_inst_other i _ hj]
  have hkeep : ∀ (u : State) p, (clearTrips i (breakLocks p (stopCores i u))).inst j = u.inst j := fun _ _ => rfl
  rw [hkeep, State.inst_setInst_other _ _ hj]

theorem beginReset_egq {q : Nat} (hq : q < 2) : (beginReset i removal clear h s).egq i q = none := by
  have heg : (beginReset i removal clear h s).eg = (State.voided i s removal clear h).eg :=
    (beginReset_voided_only i s removal clear h).same .eg (by decide)
  rw [State.egq, heg]
  exact lapse_egq i _ hq

theorem beginReset_pairs : (beginReset i removal clear h s).mbx.instPairs.has i = false := by
  have hlife : (beginReset i removal clear h s).life = (State.voided i s removal clear h).life :=
    (emitInst_life ..).trans (life_of_only (ps := [.mlk, .time, .acq]) (mirrorReset_only i _ (discardTrigs_only i _
      (disableCmps_only i _ (Only.refl _ _) (by simp)) (by simp)) (by simp)) (by decide) (by decide))
  rw [show (beginReset i removal clear h s).mbx.instPairs = (State.voided i s removal clear h).mbx.instPairs from congrArg Life.pairs hlife]
  exact lapse_pairs ..

theorem beginReset_lock (n : Nat) : (beginReset i removal clear h s).lock n =
    if (s.lock n).heldBy i (s.inst i).gen then { s.lock n with held := false, broken := true } else s.lock n := by
  have hinsts : (beginReset i removal clear h s).insts = (State.voided i s removal clear h).insts :=
    (beginReset_voided_only i s removal clear h).same .insts (by decide)
  rw [State.lock, hinsts]
  refine (breakLocks_lock (fun l => l.heldBy i (s.inst i).gen) (s.setInst i fun d => { d with
    state := .resetting, gen := nextGen d.gen, removing := removal, clearDram := clear, opHandle := h, runningAt := none,
    resets := if removal then d.resets else satAdd 16 d.resets 1 }) n).trans ?_
  have hlock : ∀ f, (s.setInst i f).lock n = s.lock n := fun _ => rfl
  rw [hlock]
  by_cases hby : (s.lock n).heldBy i (s.inst i).gen = true
  · simp [hby, Lock.held_of_heldBy hby]
  · simp [hby]

end

/-! ### The end of a reset, of a removal and of a creation -/

section
variable (i : Nat) (s : State)

/-- The reset instance with its shares mapped and its memory made anew (R193). -/
def State.remade : State :=
  let u := mapShares i (lapse i (clearLs (s.inst i).lsMap s))
  freshHarts i (rebindSlots i (s.inst i).gen (mapSubs (fun x => if x.names i then { x with gen := (s.inst i).gen, valid := false, wait := true }
    else x) (lsWrite i 0 (s.inst i).image (if (s.inst i).clearDram then clearDram (u.inst i).dramMap u else u))))

theorem resetEnds_of_notHeld (h : (s.inst i).removeHeld = none) : resetEnds i s =
    opDone? (s.inst i).opHandle .ok [(s.inst i).gen] (refreshOver i (emitInst i false ((State.remade i s).setInst i fun d => { d with
      state := .ready, cause := 0, clearDram := false, opHandle := none, removeHeld := none, exhausted := false }))) := by
  unfold resetEnds
  dsimp only
  rw [h]
  rfl

theorem remade_life : (State.remade i s).life = (mapShares i (lapse i (clearLs (s.inst i).lsMap s))).life := by
  have hsubs : ∀ f (u : State), (mapSubs f u).life = u.life := fun _ _ => rfl
  have hharts : ∀ u : State, (freshHarts i u).life = u.life := fun _ => rfl
  have hclear : ∀ gs (u : State), (clearDram gs u).life = u.life := fun _ _ => rfl
  rw [State.remade, hharts, rebindSlots_life, hsubs, lsWrite_life]
  split
  · exact hclear ..
  · rfl

theorem remade_only : Only [.insts, .mlk, .sce, .bki, .evr, .ksu, .mbx, .sched] (lapse i (clearLs (s.inst i).lsMap s)) (State.remade i s) := by
  unfold State.remade
  refine freshHarts_only i _ (rebindSlots_only i _ _ (mapSubs_only _ _ (lsWrite_only i 0 _ _ ?_ (by simp)) (by simp)) (by simp)) (by simp)
  split
  · exact clearDram_only _ _ (mapShares_only i _ (Only.refl _ _) (by simp)) (by simp)
  · exact mapShares_only i _ (Only.refl _ _) (by simp)

theorem mapShares_inst_same : (mapShares i s).inst i = { s.inst i with
    lsMap := (s.inst i).lsMap.take (s.inst i).share.ls ++ lsPick ((s.inst i).share.ls - (s.inst i).lsMap.length) s,
    dramMap := (s.inst i).dramMap.take (s.inst i).share.dram ++ dramPick ((s.inst i).share.dram - (s.inst i).dramMap.length) s } := by
  have hgive : ∀ a b c d (u : State), (dramOwn a (i + 1) (lsOwn b (i + 1) (dramGive c (lsGive d u)))).inst i = u.inst i := fun _ _ _ _ _ => rfl
  rw [mapShares, hgive, State.inst_setInst_same]

theorem mapShares_inst_other {j : Nat} (h : j ≠ i) : (mapShares i s).inst j = s.inst j := by
  have hgive : ∀ a b c d (u : State), (dramOwn a (i + 1) (lsOwn b (i + 1) (dramGive c (lsGive d u)))).inst j = u.inst j := fun _ _ _ _ _ => rfl
  rw [mapShares, hgive, State.inst_setInst_other _ _ h]

theorem pickFree_zero (busy : Nat → Bool) (fuel k : Nat) : pickFree busy fuel 0 k = [] := by cases fuel <;> rfl

theorem lsPick_zero {n : Nat} (h : n = 0) : lsPick n s = [] := by rw [h, lsPick, pickFree_zero]

theorem dramPick_zero {n : Nat} (h : n = 0) : dramPick n s = [] := by rw [h, dramPick, pickFree_zero]

/-- A descriptor whose reset is over (R193). -/
def Inst.restarted (d : Inst) : Inst :=
  { d with state := .ready, cause := 0, clearDram := false, opHandle := none, removeHeld := none, exhausted := false }

theorem resetEnds_ends (h : (s.inst i).removeHeld = none) : resetEnds i s =
    opDone? (s.inst i).opHandle .ok [(s.inst i).gen] (refreshOver i (emitInst i false ((State.remade i s).setInst i Inst.restarted))) :=
  resetEnds_of_notHeld i s h

theorem resetEnds_life (h : (s.inst i).removeHeld = none) : (resetEnds i s).life = ((State.remade i s).setInst i Inst.restarted).life := by
  rw [resetEnds_ends i s h, opDone?_life, refreshOver_life, emitInst_life]

/-- What a reset leaves in the descriptor: the shares that it has, mapped, and no receive ring. -/
theorem resetEnds_inst_same (h : (s.inst i).removeHeld = none) : ∃ ls dram, ((s.inst i).share.ls ≤ (s.inst i).lsMap.length → ls = [])
    ∧ ((s.inst i).share.dram ≤ (s.inst i).dramMap.length → dram = [])
    ∧ ((resetEnds i s).inst i).calm = Inst.restarted { (s.inst i).calm with
        rxRing := none, lsMap := (s.inst i).lsMap.take (s.inst i).share.ls ++ ls, dramMap := (s.inst i).dramMap.take (s.inst i).share.dram ++ dram } := by
  have hlapsed : (lapse i (clearLs (s.inst i).lsMap s)).inst i = { s.inst i with rxRing := none } := lapse_inst_same ..
  have hlife := calm_of_life (remade_life i s) i
  generalize lapse i (clearLs (s.inst i).lsMap s) = u at hlapsed hlife
  rw [mapShares_inst_same, hlapsed] at hlife
  refine ⟨lsPick ((s.inst i).share.ls - (s.inst i).lsMap.length) u, dramPick ((s.inst i).share.dram - (s.inst i).dramMap.length) u,
    fun hls => lsPick_zero u (Nat.sub_eq_zero_of_le hls), fun hdram => dramPick_zero u (Nat.sub_eq_zero_of_le hdram), ?_⟩
  rw [calm_of_life (resetEnds_life i s h), State.inst_setInst_same]
  exact congrArg Inst.restarted hlife

theorem resetEnds_inst_other (h : (s.inst i).removeHeld = none) {j : Nat} (hj : j ≠ i) : ((resetEnds i s).inst j).calm = (s.inst j).calm := by
  rw [calm_of_life (resetEnds_life i s h), State.inst_setInst_other _ _ hj, calm_of_life (remade_life i s), mapShares_inst_other _ _ hj,
    lapse_inst_other _ _ hj]
  rfl

theorem resetEnds_egq (h : (s.inst i).removeHeld = none) {q : Nat} (hq : q < 2) : (resetEnds i s).egq i q = none := by
  have hend : Only [.insts, .mlk, .sce, .bki, .evr, .ksu, .mbx, .sched, .mon] (lapse i (clearLs (s.inst i).lsMap s)) (resetEnds i s) := by
    rw [resetEnds_ends i s h]
    exact opDone?_only _ _ _ _ (refreshOver_only i _ (emitInst_only i false _ (State.setInst_only _ i _ ((remade_only i s).mono (by simp)) (by simp))
      (by simp)) (by simp)) (by simp)
  rw [State.egq, hend.same .eg (by decide)]
  exact lapse_egq i _ hq

theorem resetEnds_pairs (h : (s.inst i).removeHeld = none) : (resetEnds i s).mbx.instPairs.has i = false := by
  have hset : ∀ f (u : State), (u.setInst i f).mbx.instPairs = u.mbx.instPairs := fun _ _ => rfl
  have hmap : ∀ u : State, (mapShares i u).mbx.instPairs = u.mbx.instPairs := fun _ => rfl
  have hend : (resetEnds i s).mbx.instPairs = (lapse i (clearLs (s.inst i).lsMap s)).mbx.instPairs := by
    rw [show (resetEnds i s).mbx.instPairs = _ from congrArg Life.pairs (resetEnds_life i s h)]
    exact (congrArg Life.pairs (remade_life i s) :)
  rw [hend, lapse_pairs]

/-- An instance number without subscriptions, keys, comparators, locks, harts and mirror (R193). -/
def State.stripped (mac : Nat) : State :=
  freshHarts i ((unassignLocks i (freeCmps i (eraseOwned i (voidSubs i mac s)))).modMlk fun m => { m with mir := m.mir.del i })

theorem voided_erased_only (mac : Nat) : Only [.sw, .sce, .insts, .bki, .evr, .ksu, .mbx, .mon] s (eraseOwned i (voidSubs i mac s)) :=
  eraseOwned_only i _ (voidSubs_only i mac s (Only.refl _ s) (by simp)) (by simp)

theorem stripped_life (mac : Nat) : (State.stripped i s mac).life = s.life := by
  have hrest : ∀ (u : State) f, (freshHarts i ((unassignLocks i (freeCmps i u)).modMlk f)).life = u.life := fun _ _ => rfl
  rw [State.stripped, hrest, eraseOwned_life, voidSubs_life]

theorem stripped_now (mac : Nat) : (State.stripped i s mac).now = s.now := by
  have hrest : ∀ (u : State) f, (freshHarts i ((unassignLocks i (freeCmps i u)).modMlk f)).now = u.now := fun _ _ => rfl
  rw [State.stripped, hrest, State.now, (voided_erased_only i s mac).same .time (by decide)]
  rfl

theorem stripped_clsAge (mac : Nat) : (State.stripped i s mac).sw.clsAge = s.sw.clsAge := by
  have hrest : ∀ (u : State) f, (freshHarts i ((unassignLocks i (freeCmps i u)).modMlk f)).sw = u.sw := fun _ _ => rfl
  have herase := (eraseOwned_only (qs := [.insts, .bki, .evr, .ksu, .mbx]) i (voidSubs i mac s) (Only.refl _ _) (by simp)).same .sw (by decide)
  rw [State.stripped, hrest, herase]
  exact voidSubs_clsAge i mac s

theorem stripped_timeoutUs (mac : Nat) : (State.stripped i s mac).fab.timeoutUs = s.fab.timeoutUs := by
  have hrest : ∀ (u : State) f, (freshHarts i ((unassignLocks i (freeCmps i u)).modMlk f)).fab = u.fab := fun _ _ => rfl
  rw [State.stripped, hrest, (voided_erased_only i s mac).same .fab (by decide)]

theorem stripped_epochMs (mac : Nat) : (State.stripped i s mac).mlk.epochMs = s.mlk.epochMs := by
  have hrest : ∀ (u : State), (freshHarts i ((unassignLocks i (freeCmps i u)).modMlk fun m => { m with mir := m.mir.del i })).mlk.epochMs
    = u.mlk.epochMs := fun _ => rfl
  rw [State.stripped, hrest, (voided_erased_only i s mac).same .mlk (by decide)]

/-- The hold-off stands while an instance is stripped (R198). -/
theorem stripped_instHoldoff (mac : Nat) : instHoldoff (State.stripped i s mac) = instHoldoff s := by
  have hhold : (State.stripped i s mac).insts.holdoffMs = s.insts.holdoffMs := (congrArg Life.holdoffMs (stripped_life i s mac) :)
  simp only [instHoldoff, holdFloor, longestTimeout, stripped_clsAge, stripped_timeoutUs, stripped_epochMs, hhold]

/-- The granules of an instance given back, with what it had registered in them (R193). -/
def State.handedBack : State := dramGive (s.inst i).dramMap (lsGive (s.inst i).lsMap (lapse i s))

/-- A descriptor in QUARANTINE until an instant (R193, R197). -/
def Inst.quarantined (q : Nat) (d : Inst) : Inst :=
  { d with
    state := .quarantine, cause := 0, share := {}, lsMap := [], dramMap := [], useMir := 0, overBits := 0, quarEnd := q,
    opHandle := none, removing := false, image := [] }

theorem lapse_now : (lapse i s).now = s.now := rfl

theorem lapse_holdoffMs : (lapse i s).insts.holdoffMs = s.insts.holdoffMs := rfl

theorem handedBack_only : Only [.sce, .insts, .eg, .time, .mbx] s (State.handedBack i s) :=
  dramGive_only _ _ (lsGive_only _ _ (lapse_only i s (Only.refl _ s) (by simp)) (by simp)) (by simp)

theorem handedBack_now : (State.handedBack i s).now = s.now := by
  have hgive : ∀ a b (u : State), (dramGive a (lsGive b u)).now = u.now := fun _ _ _ => rfl
  rw [State.handedBack, hgive, lapse_now]

theorem handedBack_instHoldoff : instHoldoff (State.handedBack i s) = instHoldoff s := by
  have hsw : (State.handedBack i s).sw = s.sw := (handedBack_only i s).same .sw (by decide)
  have hfab : (State.handedBack i s).fab = s.fab := (handedBack_only i s).same .fab (by decide)
  have hmlk : (State.handedBack i s).mlk = s.mlk := (handedBack_only i s).same .mlk (by decide)
  have hgive : ∀ a b (u : State), (dramGive a (lsGive b u)).insts.holdoffMs = u.insts.holdoffMs := fun _ _ _ => rfl
  have hhold : (State.handedBack i s).insts.holdoffMs = s.insts.holdoffMs := by rw [State.handedBack, hgive, lapse_holdoffMs]
  simp only [instHoldoff, holdFloor, longestTimeout, hsw, hfab, hmlk, hhold]

theorem removalEnds_ends : ∃ vals, removalEnds i s = configChanged (opDone? (s.inst i).opHandle .ok vals (emitInst i false
    ((State.stripped i (State.handedBack i s) (s.inst i).mac.toNat).setInst i (Inst.quarantined (s.now + instHoldoff s))))) := by
  obtain ⟨u, hu⟩ : ∃ u, State.stripped i (State.handedBack i s) (s.inst i).mac.toNat = u := ⟨_, rfl⟩
  have hnow : u.now = s.now := by
    rw [← hu, stripped_now, handedBack_now]
  have hq : instHoldoff u = instHoldoff s := by rw [← hu, stripped_instHoldoff, handedBack_instHoldoff]
  have hends : removalEnds i s = configChanged (opDone? (s.inst i).opHandle .ok
      [quarEndMs ((u.setInst i (Inst.quarantined (u.now + instHoldoff u))).inst i)]
      (emitInst i false (u.setInst i (Inst.quarantined (u.now + instHoldoff u))))) := by
    rw [← hu]
    rfl
  rw [hnow, hq] at hends
  rw [hu]
  exact ⟨_, hends⟩

theorem removalEnds_life : (removalEnds i s).life =
    ((State.stripped i (State.handedBack i s) (s.inst i).mac.toNat).setInst i (Inst.quarantined (s.now + instHoldoff s))).life := by
  obtain ⟨vals, h⟩ := removalEnds_ends i s
  have hconfig : ∀ u : State, (configChanged u).life = u.life := fun _ => rfl
  rw [h, hconfig, opDone?_life, emitInst_life]

theorem removalEnds_inst_same : ((removalEnds i s).inst i).calm =
    Inst.quarantined (s.now + instHoldoff s) { (s.inst i).calm with rxRing := none } := by
  have hquar : ∀ d : Inst, (Inst.quarantined (s.now + instHoldoff s) d).calm = Inst.quarantined (s.now + instHoldoff s) d.calm := fun _ => rfl
  have hback : (State.handedBack i s).inst i = (lapse i s).inst i := rfl
  rw [calm_of_life (removalEnds_life i s), State.inst_setInst_same, hquar, calm_of_life (stripped_life ..), hback, lapse_inst_same]
  rfl

theorem removalEnds_inst_other {j : Nat} (hj : j ≠ i) : ((removalEnds i s).inst j).calm = (s.inst j).calm := by
  have hback : (State.handedBack i s).inst j = (lapse i s).inst j := rfl
  rw [calm_of_life (removalEnds_life i s), State.inst_setInst_other _ _ hj, calm_of_life (stripped_life ..), hback, lapse_inst_other _ _ hj]

theorem removalEnds_clearing : (removalEnds i s).insts.lsClearing = s.insts.lsClearing ++ (s.inst i).lsMap
    ∧ (removalEnds i s).insts.dramClearing = s.insts.dramClearing ++ (s.inst i).dramMap := by
  have hls : (removalEnds i s).insts.lsClearing = _ := congrArg Life.lsClearing (removalEnds_life i s)
  have hdram : (removalEnds i s).insts.dramClearing = _ := congrArg Life.dramClearing (removalEnds_life i s)
  have hlife := stripped_life i (State.handedBack i s) (s.inst i).mac.toNat
  have hset : ∀ (u : State) f, (u.setInst i f).life.lsClearing = u.life.lsClearing ∧ (u.setInst i f).life.dramClearing = u.life.dramClearing :=
    fun _ _ => ⟨rfl, rfl⟩
  rw [hls, hdram, (hset _ _).1, (hset _ _).2, hlife]
  exact ⟨rfl, rfl⟩

/-- A creation as its descriptor and its granules are written (R179). -/
def State.created (c : Creation) (s : State) : State :=
  (s.setInst c.num fun d => {
    gen := nextGen d.gen, mac := c.mac, share := c.share, lsMap := c.ls, dramMap := c.dram, autoReset := c.auto, allow := c.allow,
    image := c.image, useEgress := d.useEgress, state := .ready }).modInsts fun n => { n with creating := n.creating.filter fun x => x.num ≠ c.num }

theorem creationEnds_life (c : Creation) : (creationEnds c s).life = (State.created c s).life := by
  have hconfig : ∀ u : State, (configChanged u).life = u.life := fun _ => rfl
  have hharts : ∀ u : State, (freshHarts c.num u).life = u.life := fun _ => rfl
  unfold creationEnds
  dsimp only
  rw [hconfig, opDone?_life, refreshOver_life, emitInst_life, foldl_life _ _ (fun u v => putStatic_life u ..), hharts, lsWrite_life]
  rfl

end

/-! ### The commands -/

section
variable {i : Nat} {s : State} (hi : i < 512)
include hi

theorem exec_autoReset (hstate : (s.inst i).state = .halted) (hcause : (s.inst i).cause = 2 ∨ (s.inst i).cause = 3)
    (hauto : (s.inst i).autoReset = true) (hup : s.persist.fwUp = true) (hex : (s.inst i).exhausted = false) :
    exec (.autoReset i) s = .next (if 3 ≤ ((s.inst i).resetTimes.filter fun t => decide (s.now < t + sec 3600)).length then
        emitInst i true (s.setInst i fun d => { d with exhausted := true })
      else if s.persist.replacing.any fun r => r.inst == i then
        (s.setInst i fun d => { d with resetTimes := ((s.inst i).resetTimes.filter fun t => decide (s.now < t + sec 3600)) ++ [s.now] }).modPersist
          fun p => { p with replacing := p.replacing.map fun r => if r.inst = i ∧ r.held = [] then { r with held := [(false, none, false)] } else r }
      else beginReset i false false none
        (s.setInst i fun d => { d with resetTimes := ((s.inst i).resetTimes.filter fun t => decide (s.now < t + sec 3600)) ++ [s.now] })) := by
  have he : exec (.autoReset i) s = execAutoReset i s := rfl
  rw [he, execAutoReset]
  dsimp only
  rw [if_pos ⟨hi, hstate, hcause, hauto, hup, by simp [hex]⟩]
  rfl

theorem exec_instanceResetComplete (hstate : (s.inst i).state = .resetting) (hrem : (s.inst i).removing = false) (hup : s.persist.fwUp = true)
    (hwork : engineWork i s = false) : exec (.instanceResetComplete i) s = .next (resetEnds i s) := by
  have he : exec (.instanceResetComplete i) s = execInstanceResetComplete i s := rfl
  rw [he, execInstanceResetComplete, if_pos ⟨hi, hstate, by simp [hrem], hup, by simp [hwork]⟩]

theorem exec_instanceRemovalComplete (hstate : (s.inst i).state = .resetting) (hrem : (s.inst i).removing = true) (hup : s.persist.fwUp = true)
    (hwork : engineWork i s = false) : exec (.instanceRemovalComplete i) s = .next (removalEnds i s) := by
  have he : exec (.instanceRemovalComplete i) s = execInstanceRemovalComplete i s := rfl
  rw [he, execInstanceRemovalComplete, if_pos ⟨hi, hstate, hrem, hup, by simp [hwork]⟩]

theorem exec_instanceQuarantineEnd (hstate : (s.inst i).state = .quarantine) (hdue : (s.inst i).quarEnd ≤ s.now) :
    exec (.instanceQuarantineEnd i) s = .next (emitInst i false (s.setInst i fun d => { d with state := .free })) := by
  have he : exec (.instanceQuarantineEnd i) s = execInstanceQuarantineEnd i s := rfl
  rw [he, execInstanceQuarantineEnd, if_pos ⟨hi, hstate⟩, whenDue_now _ hdue]

end

theorem exec_createComplete {i : Nat} {c : Creation} {s : State} (hc : (s.insts.creating.find? fun c => c.num == i) = some c)
    (hup : s.persist.fwUp = true) : exec (.createComplete i) s = .next (creationEnds c s) := by
  have he : exec (.createComplete i) s = execCreateComplete i s := rfl
  rw [he, execCreateComplete, hc]
  exact congrArg Host.Outcome.next (if_pos hup)

theorem emitInst_inst (i : Nat) (x : Bool) (s : State) (j : Nat) : (emitInst i x s).inst j = s.inst j := by rw [emitInst, emit_inst]

/-- Settles O32. -/
theorem resetsRemovalsAndCreationsComplete : Obligations.ResetsRemovalsAndCreationsComplete := by
  refine ⟨?_, ?_, ?_, ?_, ?_, ?_⟩
  case refine_1 =>
    intro i s hi hstate hcause hauto hup hex hfew hfree
    have hany : (s.persist.replacing.any fun r => r.inst == i) = false := by
      simpa [List.any_eq_false] using hfree
    refine ⟨_, (exec_autoReset hi hstate hcause hauto hup hex).trans
      (by rw [if_neg (Nat.not_le.2 hfew), hany, if_neg Bool.false_ne_true]), ?_, ?_, beginReset_egq _ _ _ _ _ (by decide),
      beginReset_egq _ _ _ _ _ (by decide), beginReset_pairs .., ?_, fun j hj => ?_, fun n => ?_⟩
    · rw [beginReset_inst_same]
    · rw [beginReset_inst_same, State.inst_setInst_same]
    · rw [beginReset_inst_same]
    · rw [beginReset_inst_other _ _ _ _ _ hj, State.inst_setInst_other _ _ hj]
    · rw [beginReset_lock, State.inst_setInst_same]
      rfl
  case refine_2 =>
    intro i s hi hstate hcause hauto hup hex hmany
    refine ⟨_, (exec_autoReset hi hstate hcause hauto hup hex).trans (by rw [if_pos hmany]), by simp, ?_, fun j hj => ?_⟩
    · rw [emitInst_inst, State.inst_setInst_same]
    · rw [emitInst_inst, State.inst_setInst_other _ _ hj]
  case refine_3 =>
    intro i s hi hstate hrem hup hheld hwork
    obtain ⟨ls, dram, hls, hdram, hinst⟩ := resetEnds_inst_same i s hheld
    refine ⟨_, exec_instanceResetComplete hi hstate hrem hup hwork, (congrArg Inst.state hinst :), (congrArg Inst.gen hinst :),
      (congrArg Inst.cause hinst :), fun h => ?_, fun h => ?_, resetEnds_egq i s hheld (by decide), resetEnds_egq i s hheld (by decide),
      resetEnds_pairs i s hheld, (congrArg Inst.rxRing hinst :), fun j hj => ?_⟩
    · have hmap : ((resetEnds i s).inst i).lsMap = (s.inst i).lsMap.take (s.inst i).share.ls ++ ls := (congrArg Inst.lsMap hinst :)
      rw [hmap, hls h, List.append_nil]
    · have hmap : ((resetEnds i s).inst i).dramMap = (s.inst i).dramMap.take (s.inst i).share.dram ++ dram := (congrArg Inst.dramMap hinst :)
      rw [hmap, hdram h, List.append_nil]
    · have hj := resetEnds_inst_other i s hheld hj
      exact ⟨(congrArg Inst.state hj :), (congrArg Inst.gen hj :), (congrArg Inst.lsMap hj :)⟩
  case refine_4 =>
    intro i s hi hstate hrem hup hwork
    have hinst := removalEnds_inst_same i s
    obtain ⟨hls, hdram⟩ := removalEnds_clearing i s
    refine ⟨_, exec_instanceRemovalComplete hi hstate hrem hup hwork, (congrArg Inst.state hinst :), (congrArg Inst.gen hinst :),
      (congrArg Inst.lsMap hinst :), (congrArg Inst.dramMap hinst :), (congrArg Inst.share hinst :), (congrArg Inst.quarEnd hinst :), hls, hdram,
      fun j hj => ?_⟩
    have hj := removalEnds_inst_other i s hj
    exact ⟨(congrArg Inst.state hj :), (congrArg Inst.gen hj :), (congrArg Inst.lsMap hj :)⟩
  case refine_5 =>
    intro i s hi hstate hdue
    refine ⟨_, exec_instanceQuarantineEnd hi hstate hdue, by simp, ?_, fun j hj => ?_⟩
    · rw [emitInst_inst, State.inst_setInst_same]
    · rw [emitInst_inst, State.inst_setInst_other _ _ hj]
  case refine_6 =>
    intro i c s hc hup
    have hnum : c.num = i := eq_of_beq (List.find?_some hc :)
    subst hnum
    have hinst := calm_of_life (creationEnds_life s c) c.num
    have hmade : (State.created c s).inst c.num = {
        gen := nextGen (s.inst c.num).gen, mac := c.mac, share := c.share, lsMap := c.ls, dramMap := c.dram, autoReset := c.auto,
        allow := c.allow, image := c.image, useEgress := (s.inst c.num).useEgress, state := .ready } := by
      have hmod : ∀ u : State, (u.modInsts fun n => { n with creating := n.creating.filter fun x => x.num ≠ c.num }).inst c.num = u.inst c.num :=
        fun _ => rfl
      rw [State.created, hmod, State.inst_setInst_same]
    rw [hmade] at hinst
    refine ⟨_, exec_createComplete hc hup, (congrArg Inst.state hinst :), (congrArg Inst.gen hinst :), (congrArg Inst.mac hinst :),
      (congrArg Inst.share hinst :), (congrArg Inst.lsMap hinst :), (congrArg Inst.dramMap hinst :), (congrArg Inst.allow hinst :), fun x hx => ?_⟩
    rw [show (creationEnds c s).insts.creating = _ from congrArg Life.creating (creationEnds_life s c)] at hx
    exact of_decide_eq_true (List.mem_filter.1 hx).2

end Sys2Proof.Machine
end

section
/-!
PROOFS. Egress queues (R236 to R238) and the gate of the claim (R256): what a doorbell, a descriptor and the oldest copy before the gate do. The
obligation O34.
-/
namespace Sys2Proof.Machine
open Sys2Proof

/-! ### A queue after a write -/

/-- The queue that stands at its place after a write there. -/
def State.setEgq (s : State) (i q : Nat) (e : EgQueue) : State := s.modEg fun x => { x with queues := x.queues.set (2 * i + q) e }

theorem State.egq_setEgq_same (s : State) (i q : Nat) (e : EgQueue) : (s.setEgq i q e).egq i q = some e := by
  have hqueues : (s.setEgq i q e).eg.queues = s.eg.queues.set (2 * i + q) e := rfl
  simp [State.egq, hqueues, Tbl.has_set]

theorem State.egq_setEgq_other (s : State) {i q j r : Nat} (e : EgQueue) (hq : q < 2) (hr : r < 2) (h : (j, r) ≠ (i, q)) :
    (s.setEgq i q e).egq j r = s.egq j r := by
  have hqueues : (s.setEgq i q e).eg.queues = s.eg.queues.set (2 * i + q) e := rfl
  have hne : 2 * j + r ≠ 2 * i + q := by
    rintro heq
    obtain ⟨rfl, rfl⟩ : j = i ∧ r = q := by omega
    exact h rfl
  have hne' : (2 * i + q == 2 * j + r) = false := beq_eq_false_iff_ne.2 (Ne.symm hne)
  simp [State.egq, hqueues, Tbl.has_set, Tbl.get_set_other _ _ _ hne, hne']

/-! ### The doorbell (R236) -/

section
variable {i g q tail : Nat} {e : EgQueue} {s : State} (hi : i < 512) (hq : q < 2) (hg : s.genCurrent i g = true) (he : s.egq i q = some e)
include hi hq hg he

theorem exec_egressDoorbell : exec (.egressDoorbell i g q tail) s = .next (if modSub 16 tail e.head ≤ e.size then
      s.setEgq i q { e with tail := tail % 65536 }
    else note .mgp 0 0x01F 0 (.inst i g) (leBytes 4 q ++ leBytes 4 tail) s) := by
  have hexec : exec (.egressDoorbell i g q tail) s = execEgressDoorbell i g q tail s := rfl
  rw [hexec, execEgressDoorbell, if_pos ⟨hi, hq⟩, egressDoorbell, hg, he]
  rfl

end

/-! ### The descriptor (R236 to R238) -/

section
variable (s : State) (i : Nat) (e : EgQueue)

/-- The frame that the descriptor at the head names. -/
def State.egFrame : List Byte := lsRead i (headDesc i e s).addr (headDesc i e s).len s

/-- The frame as it would be stored (R239). -/
def State.egStored : List Byte := egFormat (s.egFrame i e) (headDesc i e s) s

/-- The completion status of the descriptor at the head (R238). -/
def State.egCode : Nat := egStatus i (s.inst i).gen (headDesc i e s) (s.egFrame i e) (s.egStored i e) s

/-- The state in which the descriptor at the head is completed. -/
def State.egDone (q : Nat) : State :=
  if s.egCode i e = 0 then egSend i (s.inst i).gen q e (headDesc i e s) (s.egFrame i e) (s.egStored i e) s
  else if 1 ≤ s.egCode i e ∧ s.egCode i e ≤ 5 then spoofed i (s.inst i).gen (s.egCode i e) s
  else if s.egCode i e = 6 then s.setInst i fun d => { d with noCredit := satAdd 32 d.noCredit 1 }
  else s

end

theorem exec_egressDescriptor {i q : Nat} {e : EgQueue} {s : State} (hi : i < 512) (hq : q < 2) (he : s.egq i q = some e)
    (hready : e.ready i s = true) (hfirst : q = 0 ∨ ∀ z, s.egq i 0 = some z → z.ready i s = false) : ∃ tsSeq ts,
    exec (.egressDescriptor i q) s = .next (egComplete i q e (s.egCode i e) tsSeq ts (s.egDone i e q)) := by
  have hexec : exec (.egressDescriptor i q) s = execEgressDescriptor i q s := rfl
  rw [hexec, execEgressDescriptor, he]
  dsimp only
  rw [if_pos (by
    rcases hfirst with rfl | h0
    · simp [hi, hready]
    · cases hz : s.egq i 0 with
      | none => simp [hi, hq, hready]
      | some z => simp [hi, hq, hready, h0 z hz])]
  by_cases hst : s.egCode i e = 0
  · rw [State.egDone, if_pos hst, hst]
    exact ⟨_, _, congrArg Host.Outcome.next (if_pos hst)⟩
  · rw [State.egDone, if_neg hst]
    exact ⟨_, _, congrArg Host.Outcome.next (if_neg hst)⟩

theorem egComplete_egq (i q : Nat) (e : EgQueue) (st tsSeq : Nat) (ts : Bool) (s : State) :
    (egComplete i q e st tsSeq ts s).egq i q = some { e with head := (e.head + 1) % 65536, seq := (e.seq + 1) % 2 ^ 32 } :=
  State.egq_setEgq_same ..

theorem egComplete_sw (i q : Nat) (e : EgQueue) (st tsSeq : Nat) (ts : Bool) (s : State) : (egComplete i q e st tsSeq ts s).sw = s.sw :=
  (egComplete_only (qs := [.insts, .eg, .mlk]) i q e st tsSeq ts s (Only.refl _ s) (by simp)).same .sw (by decide)

theorem lsWrite_inst (i a : Nat) (octets : List Byte) (s : State) (j : Nat) : (lsWrite i a octets s).inst j = s.inst j := by
  have hdirty : ∀ n, (markDirty i a n s).inst j = s.inst j := fun n =>
    inst_of_insts ((markDirty_only (qs := [.mlk]) i a n s (Only.refl _ s) (by simp)).same .insts (by decide)) j
  unfold lsWrite
  dsimp only
  split
  · exact hdirty _
  · rfl

theorem egComplete_inst (i q : Nat) (e : EgQueue) (st tsSeq : Nat) (ts : Bool) (s : State) (j : Nat) :
    (egComplete i q e st tsSeq ts s).inst j = s.inst j := by
  have heg : ∀ (u : State) f, (u.modEg f).inst j = u.inst j := fun _ _ => rfl
  unfold egComplete
  dsimp only
  rw [heg, lsWrite_inst]
  split
  · rw [lsWrite_inst, lsWrite_inst, lsWrite_inst]
  · rw [lsWrite_inst, lsWrite_inst]

theorem spoofed_inst (i g check : Nat) (s : State) :
    (spoofed i g check s).inst i = { s.inst i with spoofDrops := satAdd 32 (s.inst i).spoofDrops 1 } := by
  have hnote : ∀ u : State, (note .egf 0 0x3C0 0 (.inst i g) (leBytes 4 check) u).inst i = u.inst i := fun u =>
    inst_of_insts ((note_only (qs := [.bki, .evr]) .egf 0 0x3C0 0 (.inst i g) (leBytes 4 check) u (Only.refl _ u) (by simp)).same .insts
        (by decide)) i
  rw [spoofed, hnote, State.inst_setInst_same]

theorem spoofed_sw (i g check : Nat) (s : State) : (spoofed i g check s).sw = s.sw :=
  (note_only (qs := [.insts, .bki, .evr]) .egf 0 0x3C0 0 (.inst i g) (leBytes 4 check) _ (State.setInst_only s i _ (Only.refl _ s) (by simp))
    (by simp)).same .sw (by decide)

/-! ### A descriptor that passes every check is stored (R239) -/

theorem redPorts_lt {mask : List Nat} (hlt : ∀ k ∈ mask, k < 8) (s : State) : ∀ p ∈ (redPorts mask s).1, p.1 < 8 := by
  intro p hp
  unfold redPorts at hp
  dsimp only at hp
  have hsub : ∀ (pr : Nat → Bool), p ∈ ((mask.filter pr).map fun k => (k, (none : Option Nat))) → p.1 < 8 := by
    intro pr h
    obtain ⟨k, hk, rfl⟩ := List.mem_map.1 h
    exact hlt k (List.mem_filter.1 hk).1
  rcases List.mem_append.1 hp with hp | hp
  · rcases List.mem_append.1 hp with hp | hp
    · split at hp
      · rcases List.mem_pair.1 hp with rfl | rfl <;> simp
      · exact hsub _ hp
    · exact hsub _ hp
  · split at hp
    · rcases List.mem_pair.1 hp with rfl | rfl <;> simp
    · exact hsub _ hp

theorem maskList_lt {w : Nat} (v : BitVec w) : ∀ k ∈ maskList v, k < w := fun _ hk => List.mem_range.1 (List.mem_filter.1 hk).1

theorem maskList_ne_nil {w : Nat} {v : BitVec w} (h : v ≠ 0) : maskList v ≠ [] := by
  intro hnil
  refine h (BitVec.eq_of_getLsbD_eq fun i hi => ?_)
  have hout : i ∉ maskList v := by simp [hnil]
  simpa [maskList, hi] using hout

theorem sendDests_ne_nil {ports : List (Nat × Option Nat)} (hlt : ∀ p ∈ ports, p.1 < 8) (h : ports ≠ []) (pcp : Nat) (proto : TxCopy) (ctrl :
    Bool)
    (claim : Nat) (s : State) : sendDests ports pcp proto ctrl claim s ≠ [] := by
  obtain ⟨p, hp⟩ := List.exists_mem_of_ne_nil _ h
  have hmem : p ∈ (List.range 8).flatMap fun k => ports.filter fun q => q.1 == k :=
    List.mem_flatMap.2 ⟨p.1, List.mem_range.2 (hlt p hp), List.mem_filter.2 ⟨hp, beq_self_eq_true _⟩⟩
  unfold sendDests
  intro hnil
  rw [List.map_eq_nil_iff, List.zipIdx_eq_nil_iff] at hnil
  rw [hnil] at hmem
  exact List.not_mem_nil hmem

theorem storeCharged_nextFrame {i g : Nat} {f : Stored} {ds : List Dest} {s : State} (hds : ds ≠ []) (hroom : f.cells ≤ s.sw.freeCells) :
    (storeCharged (some (i, g)) f ds s).sw.nextFrame = s.sw.nextFrame + 1 := by
  have hstore := storeFrame_nextFrame (f := { f with owner := some (i, g) })
    (s := s.setInst i fun d => { d with useEgress := d.useEgress + f.cells }) 0xFFFF 0 hds hroom
  have hset : ∀ (u : State) h, (u.setInst i h).sw = u.sw := fun _ _ => rfl
  unfold storeCharged
  dsimp only
  split
  · rw [hset, hstore, hset]
  · rw [hstore, hset]

theorem redPorts_room (mask : List Nat) (s : State) :
    (redPorts mask s).2.sw.freeCells = s.sw.freeCells ∧ (redPorts mask s).2.sw.nextFrame = s.sw.nextFrame := ⟨rfl, rfl⟩

/-- A control frame also goes to the own comparison unit and, over a lane that is up, to the partner (R15, R239). -/
def controlCopied (i : Nat) (x : EgDesc) (f : List Byte) (s : State) : State :=
  if x.ctrl then
    let c : OcuCopy := { octets := f, pcp := x.pcp, vid := x.vid, sense := x.sense, zone := x.zone, inst := i }
    let s := s.modOcu fun z => { z with ctrlIn := z.ctrlIn ++ [c] }
    if s.laneUp then mlkCount 0 (s.modMlk fun m => { m with copiesOut := m.copiesOut ++ [c] }) else s
  else s

theorem controlCopied_sw (i : Nat) (x : EgDesc) (f : List Byte) (s : State) : (controlCopied i x f s).sw = s.sw := by
  unfold controlCopied
  dsimp only
  split_ifs <;> rfl

/-- A frame that is sent is stored with a copy for each of its ports at least. -/
theorem egSend_eq (i g q : Nat) (e : EgQueue) {x : EgDesc} (f stored : List Byte) (s : State) (hports : x.ports ≠ 0) : ∃ ds u, ds ≠ []
    ∧ u.sw.freeCells = s.sw.freeCells ∧ u.sw.nextFrame = s.sw.nextFrame
    ∧ egSend i g q e x f stored s =
      controlCopied i x f (refreshOver i (storeCharged (some (i, g)) (builtFrame stored x.pcp x.vid u) ds u)) := by
  have hsend := sendDests_ne_nil (redPorts_lt (maskList_lt x.ports) s) (redPorts_ne_nil (maskList_lt x.ports) (maskList_ne_nil hports) s)
    x.pcp { ts := x.ts, inst := some (i, g), egSeq := e.seq, tsSeq := (s.time.owners.get i {}).seq, egq := q } x.ctrl s.cgu.ownClaim.toNat
    (redPorts (maskList x.ports) s).2
  have htime : ∀ (u : State) c h, (if c = true then u.modTime h else u).sw = u.sw := fun u c h => by cases c <;> rfl
  have hkey : ∀ (u : State) c, (if c = true then keySigned x.key u else u).sw = u.sw := fun u c => by cases c <;> rfl
  refine ⟨_, _, List.append_ne_nil_of_left_ne_nil hsend _, ?_, ?_, rfl⟩
  · rw [hkey, htime]
    exact (redPorts_room (maskList x.ports) s).1
  · rw [hkey, htime]
    exact (redPorts_room (maskList x.ports) s).2

theorem egSend_nextFrame {i g q : Nat} {e : EgQueue} {x : EgDesc} {f stored : List Byte} {s : State} (hports : x.ports ≠ 0)
    (hroom : cellsOf (stored.length + 4) ≤ s.sw.freeCells) : (egSend i g q e x f stored s).sw.nextFrame = s.sw.nextFrame + 1 := by
  obtain ⟨ds, u, hds, hcells, hnext, heq⟩ := egSend_eq i g q e f stored s hports
  rw [heq, controlCopied_sw, (refreshOver_only (qs := [.insts, .bki, .evr, .mbx]) i _ (Only.refl _ _) (by simp)).same .sw (by decide),
    storeCharged_nextFrame hds (hcells ▸ hroom), hnext]

theorem ports_of_egStatus {i g : Nat} {x : EgDesc} {f stored : List Byte} {s : State} (h : egStatus i g x f stored s = 0) : x.ports ≠ 0 := by
  intro h0
  have hbad : x.bad (s.inst i) = true := by simp [EgDesc.bad, h0]
  rw [egStatus] at h
  simp [hbad] at h

/-! ### The gate (R256) -/

/-- A copy no longer waits before the gate. -/
def State.ungated (s : State) (g : GateFrame) : State := s.modCgu fun c => { c with gate := c.gate.erase g }

@[simp] theorem State.ungated_only {s0 : State} {qs : List Part} (s : State) (g : GateFrame) (h : Only qs s0 s)
    (hm : ∀ p ∈ ([.cgu] : List Part), p ∈ qs) : Only qs s0 (s.ungated g) := State.modCgu_only _ h (hm .cgu (by simp))

theorem exec_cguGate {k : Nat} {g : GateFrame} {s : State} (hg : (s.cgu.gate.find? fun g => g.port == k) = some g) :
    exec (.cguGate k) s = .next (gateOne g (s.ungated g)) := by
  have hexec : exec (.cguGate k) s = execCguGate k s := rfl
  rw [hexec, execCguGate, hg]
  rfl

theorem gateOne_aside {g : GateFrame} {s : State} (hrole : s.cgu.role = .taking)
    (hroom : (s.cgu.setAside.filter fun x => x.port == g.port).length < 512) :
    gateOne g s = heldAside g.copy.frame true (s.modCgu fun c => { c with setAside := c.setAside ++ [g], live := bump c.live 7 }) := by
  rw [gateOne, if_pos hrole, if_pos hroom]

theorem gateOne_release {g : GateFrame} {s : State} (hrole : s.cgu.role = .active ∨ s.cgu.role = .alone) (hwin : s.cgu.win = true)
    (hclaim : g.ctrl = false ∨ g.claim = s.cgu.ownClaim.toNat) : gateOne g s = gateRelease g s := by
  have hnot : s.cgu.role ≠ .taking := by rcases hrole with h | h <;> simp [h]
  rw [gateOne, if_neg hnot, if_pos ⟨hrole, hwin, hclaim⟩]

theorem gateOne_drop {g : GateFrame} {s : State} (hrole : s.cgu.role ≠ .taking)
    (hclosed : s.cgu.win = false ∨ (s.cgu.role ≠ .active ∧ s.cgu.role ≠ .alone) ∨ (g.ctrl = true ∧ g.claim ≠ s.cgu.ownClaim.toNat)) :
    gateOne g s = gateDrop (if g.ctrl = true ∧ g.claim ≠ s.cgu.ownClaim.toNat then 6 else 5) g s := by
  have hshut : ¬((s.cgu.role = .active ∨ s.cgu.role = .alone) ∧ s.cgu.win = true ∧ (g.ctrl = false ∨ g.claim = s.cgu.ownClaim.toNat)) := by
    rintro ⟨hr, hw, hc⟩
    rcases hclosed with h | ⟨ha, hl⟩ | ⟨hctrl, hne⟩
    · simp [h] at hw
    · exact hr.elim ha hl
    · exact hc.elim (by simp [hctrl]) hne
  rw [gateOne, if_neg hrole, if_neg hshut]
  split_ifs <;> rfl

theorem gateDrop_cgu (counter : Nat) (g : GateFrame) (s : State) : (gateDrop counter g s).cgu =
    { s.cgu with live := bump s.cgu.live counter } := by
  rw [gateDrop, (txDone_only (qs := [.sw, .insts, .bki, .evr, .mbx, .time]) _ _ (unsent_only _ _ (Only.refl _ _) (by simp)) (by simp)).same .cgu
    (by decide)]
  rfl

theorem mem_queueIn (c : TxCopy) (q : List TxCopy) : c ∈ queueIn c q := by simp [queueIn]

theorem enqueue_of_up {k : Nat} {c : TxCopy} {s : State} (hlink : (s.port k).link = true) (htx : (s.port k).txEn = true) :
    enqueue k c s = s.setPort k fun p => { p with queues := p.queues.mod c.cls [] (queueIn c) } := by
  simp [enqueue, hlink, htx]

/-- Settles O34. -/
theorem egressQueuesAndTheGate : Obligations.EgressQueuesAndTheGate := by
  refine ⟨?_, ?_, ?_, ?_, ?_⟩
  case refine_1 =>
    intro i g q tail e s hi hq hg he
    by_cases hle : modSub 16 tail e.head ≤ e.size
    · refine ⟨s.setEgq i q { e with tail := tail % 65536 }, (exec_egressDoorbell hi hq hg he).trans (by rw [if_pos hle]), State.modEg_only _
        (Only.refl _ s) (by simp), fun _ => ?_,
        fun h => absurd hle (Nat.not_le.2 h)⟩
      exact ⟨State.egq_setEgq_same .., rfl, rfl, fun j r hne hr => State.egq_setEgq_other s _ hq hr hne⟩
    · refine ⟨_, (exec_egressDoorbell hi hq hg he).trans (by rw [if_neg hle]), by simp, fun h => absurd h hle, fun _ => ?_⟩
      exact (note_only (qs := [.bki, .evr]) .mgp 0 0x01F 0 (.inst i g) (leBytes 4 q ++ leBytes 4 tail) s (Only.refl _ s) (by simp)).same .eg
          (by decide)
  case refine_2 =>
    intro i q e s hi hq he hready hfirst
    obtain ⟨tsSeq, ts, hexec⟩ := exec_egressDescriptor hi hq he hready hfirst
    refine ⟨_, hexec, ?_⟩
    refine ⟨egComplete_egq .., fun h1 h5 => ?_, fun h6 => ?_, fun h7 => ?_, fun h0 hroom => ?_⟩
    · have h1 : 1 ≤ s.egCode i e := h1
      have h5 : s.egCode i e ≤ 5 := h5
      have hdone : s.egDone i e q = spoofed i (s.inst i).gen (s.egCode i e) s := by
        rw [State.egDone, if_neg (Nat.ne_of_gt h1), if_pos ⟨h1, h5⟩]
      rw [egComplete_inst, egComplete_sw, hdone, spoofed_inst, spoofed_sw]
      exact ⟨rfl, rfl⟩
    · have h6 : s.egCode i e = 6 := h6
      have hdone : s.egDone i e q = s.setInst i fun d => { d with noCredit := satAdd 32 d.noCredit 1 } := by
        rw [State.egDone, h6, if_neg (by decide), if_neg (by decide), if_pos rfl]
      rw [egComplete_inst, egComplete_sw, hdone, State.inst_setInst_same]
      exact ⟨rfl, rfl⟩
    · have h7 : 7 ≤ s.egCode i e := h7
      have hdone : s.egDone i e q = s := by rw [State.egDone, if_neg (by omega), if_neg (by omega), if_neg (by omega)]
      rw [egComplete_inst, egComplete_sw, hdone]
      exact ⟨rfl, rfl⟩
    · have h0 : s.egCode i e = 0 := h0
      rw [egComplete_sw, State.egDone, if_pos h0]
      exact egSend_nextFrame (ports_of_egStatus h0) hroom
  case refine_3 =>
    intro k g s hg hrole hroom
    have hexec := (exec_cguGate hg).trans (congrArg Host.Outcome.next (gateOne_aside (s := s.ungated g) hrole hroom))
    refine ⟨_, hexec, heldAside_only _ _ _ (State.modCgu_only _ (State.ungated_only s g (Only.refl _ s) (by simp)) (by simp))
        (by simp), rfl, rfl, rfl⟩
  case refine_4 =>
    intro k g s hg hrole hwin hclaim hlink htx
    have hexec := (exec_cguGate hg).trans (congrArg Host.Outcome.next ((gateOne_release (s := s.ungated g) hrole hwin hclaim).trans
      (enqueue_of_up (s := cguCount 4 (s.ungated g)) hlink htx)))
    refine ⟨_, hexec, State.setPort_only _ _ _ (State.modCgu_only _ (State.ungated_only s g (Only.refl _ s) (by simp)) (by simp))
        (by simp), rfl, ?_, ?_,
      fun j hj => ?_⟩
    · exact bump_same ..
    · rw [State.port_setPort_same]
      simp [mem_queueIn]
    · rw [State.port_setPort_other _ _ hj]
      rfl
  case refine_5 =>
    intro k g s hg hrole hclosed
    refine ⟨_, (exec_cguGate hg).trans (congrArg Host.Outcome.next (gateOne_drop
        (s := s.ungated g) hrole hclosed)), by simp, ?_, ?_, fun hctrl hne => ?_, fun hown => ?_⟩
    · rw [gateDrop_cgu]
      rfl
    · exact (gateDrop_only (qs := [.sw, .insts, .cgu, .time, .bki, .evr, .mbx]) _ g _ (State.modCgu_only _ (Only.refl _ s) (by simp))
        (by simp)).same .ports (by decide)
    · rw [gateDrop_cgu, if_pos ⟨hctrl, hne⟩]
      exact bump_same ..
    · rw [gateDrop_cgu, if_neg fun h => hown.elim (by simp [h.1]) h.2]
      exact bump_same ..

end Sys2Proof.Machine
end

section
/-!
PROOFS. The instances through what copies, findings and a change of role do: descriptors but for the credit in use and OVER, locks, granules and
memories stay (`State.census`).
-/
namespace Sys2Proof.Machine
open Sys2Proof

/-- The descriptors as copies leave them, and the rest of the instances. -/
structure Census where
  /-- the descriptors. -/
  inst : Nat → Inst
  /-- the rest. -/
  rest : Insts

/-- What the state holds of it. -/
def State.census (s : State) : Census := { inst := fun i => (s.inst i).calm, rest := { s.insts with desc := [] } }

theorem census_of_calm {s t : State} (h : t.calm = s.calm) : t.census = s.census := by
  have hinst : (fun i => (t.inst i).calm) = fun i => (s.inst i).calm := congrArg Calm.inst h
  have hrest : ({ t.insts with desc := [] } : Insts) = { s.insts with desc := [] } := congrArg Calm.insts h
  rw [State.census, State.census, hinst, hrest]

theorem census_of_only {ps : List Part} {s t : State} (k : Only ps s t) (hp : Part.insts ∉ ps) : t.census = s.census := by
  have h : t.insts = s.insts := k.same .insts hp
  simp only [State.census, State.inst, h]

section
variable {s t : State} (h : t.census = s.census)
include h

theorem lock_of_census (n : Nat) : t.lock n = s.lock n := by
  rw [State.lock, State.lock, show t.insts.locks = s.insts.locks from (congrArg (fun c => c.rest.locks) h :)]

theorem calm_of_census (i : Nat) : (t.inst i).calm = (s.inst i).calm := congrFun (congrArg Census.inst h) i

theorem state_of_census (i : Nat) : (t.inst i).state = (s.inst i).state := (congrArg Inst.state (calm_of_census h i) :)

end

@[simp] theorem census_ite {a b : State} (c : Prop) [Decidable c] : (if c then a else b).census = if c then a.census else b.census :=
  apply_ite State.census c a b

theorem foldl_census {α : Type} (l : List α) (f : State → α → State) (k : ∀ t a, (f t a).census = t.census) (s : State) :
    (l.foldl f s).census = s.census := by
  induction l generalizing s with
  | nil => rfl
  | cons a l ih => rw [List.foldl_cons, ih, k]

@[simp] theorem State.modTime_census (s : State) (f) : (s.modTime f).census = s.census := rfl
@[simp] theorem State.modSce_census (s : State) (f) : (s.modSce f).census = s.census := rfl
@[simp] theorem State.modAcq_census (s : State) (f) : (s.modAcq f).census = s.census := rfl
@[simp] theorem State.modHead_census (s : State) (f) : (s.modHead f).census = s.census := rfl
@[simp] theorem State.modBki_census (s : State) (f) : (s.modBki f).census = s.census := rfl
@[simp] theorem State.modPorts_census (s : State) (f) : (s.modPorts f).census = s.census := rfl
@[simp] theorem State.modOcu_census (s : State) (f) : (s.modOcu f).census = s.census := rfl
@[simp] theorem State.modMlk_census (s : State) (f) : (s.modMlk f).census = s.census := rfl
@[simp] theorem State.modSw_census (s : State) (f) : (s.modSw f).census = s.census := rfl
@[simp] theorem State.modEvr_census (s : State) (f) : (s.modEvr f).census = s.census := rfl
@[simp] theorem State.modMbx_census (s : State) (f) : (s.modMbx f).census = s.census := rfl
@[simp] theorem State.modCgu_census (s : State) (f) : (s.modCgu f).census = s.census := rfl
@[simp] theorem State.modPersist_census (s : State) (f) : (s.modPersist f).census = s.census := rfl
@[simp] theorem State.modSched_census (s : State) (f) : (s.modSched f).census = s.census := rfl
@[simp] theorem State.setPort_census (s : State) (k : Nat) (f : Port → Port) : (State.setPort s k f).census = s.census :=
  census_of_only (ps := [.ports]) (by simp) (by decide)
@[simp] theorem State.setFset_census (s : State) (b : BlockId) (u : Nat) (f : FaultSet → FaultSet) : (State.setFset s b u f).census = s.census :=
  census_of_only (ps := [.faults]) (by simp) (by decide)
@[simp] theorem State.setPsc_census (s : State) (k : Nat) (f : Psc → Psc) : (State.setPsc s k f).census = s.census :=
  census_of_only (ps := [.sched]) (by simp) (by decide)
@[simp] theorem told_census (s : State) (t : State) : (told s t).census = t.census := census_of_only (ps := [.mbx]) (by simp) (by decide)
@[simp] theorem note_census (b : BlockId) (u : Nat) (code : Nat) (cls : Nat) (owner : Master) (detail : List Byte) (s : State) :
    (note b u code cls owner detail s).census = s.census :=
  census_of_only (ps := [.bki, .evr]) (by simp) (by decide)
@[simp] theorem emit_census (opcode : Nat) (inst : Option Nat) (gen : Nat) (vals : List Nat) (s : State) (tag : Nat) (st : Status) :
    (emit opcode inst gen vals s tag st).census = s.census :=
  census_of_only (ps := [.bki, .evr, .mbx]) (by simp) (by decide)
@[simp] theorem emitInst_census (i : Nat) (exhausted : Bool) (s : State) : (emitInst i exhausted s).census = s.census :=
  census_of_only (ps := [.bki, .evr, .mbx]) (by simp) (by decide)
@[simp] theorem vector_census (v : Nat) (s : State) : (vector v s).census = s.census := census_of_only (ps := [.mbx]) (by simp) (by decide)
@[simp] theorem configChanged_census (s : State) : (configChanged s).census = s.census := census_of_only (ps := [.persist]) (by simp) (by decide)
@[simp] theorem countPause_census (k : Nat) (s : State) : (countPause k s).census = s.census :=
  census_of_only (ps := [.ports]) (by simp) (by decide)
@[simp] theorem txDone_census (c : TxCopy) (s : State) : (txDone c s).census = s.census := census_of_calm (txDone_calm ..)
@[simp] theorem txDrop_census (k : Nat) (counter : Nat) (c : TxCopy) (s : State) : (txDrop k counter c s).census = s.census :=
  census_of_calm (txDrop_calm ..)
@[simp] theorem heldAside_census (n : Nat) (up : Bool) (s : State) : (heldAside n up s).census = s.census :=
  census_of_only (ps := [.sw]) (by simp) (by decide)
@[simp] theorem winFalls_census (s : State) : (winFalls s).census = s.census := census_of_only (ps := [.cgu]) (by simp) (by decide)
@[simp] theorem flushQueues_census (k : Nat) (counter : Nat) (s : State) : (flushQueues k counter s).census = s.census :=
  census_of_calm (flushQueues_calm ..)
@[simp] theorem linkEvent_census (k : Nat) (what : Nat) (s : State) : (linkEvent k what s).census = s.census :=
  census_of_only (ps := [.bki, .evr, .mbx]) (by simp) (by decide)
@[simp] theorem gateDrop_census (counter : Nat) (g : GateFrame) (s : State) : (gateDrop counter g s).census = s.census :=
  census_of_calm (gateDrop_calm ..)
@[simp] theorem gateRelease_census (g : GateFrame) (s : State) : (gateRelease g s).census = s.census := census_of_calm (gateRelease_calm ..)
@[simp] theorem gateOne_census (g : GateFrame) (s : State) : (gateOne g s).census = s.census := by
  unfold gateOne
  dsimp only
  split_ifs
  · exact heldAside_census ..
  all_goals simp
@[simp] theorem reexamine_census (s : State) : (reexamine s).census = s.census := by
  unfold reexamine
  rw [foldl_census _ _ fun t g => by simp]
  rfl
@[simp] theorem setRole_census (r : Role) (s : State) : (setRole r s).census = s.census := by
  unfold setRole
  dsimp only
  split
  · rfl
  · rw [vector_census, emit_census]
    rfl
@[simp] theorem becomeOut_census (hard : Bool) (s : State) : (becomeOut hard s).census = s.census := by
  unfold becomeOut
  rw [reexamine_census]
  exact (setRole_census ..).trans (winFalls_census s)
@[simp] theorem startTakeover_census (s : State) : (startTakeover s).census = s.census := by
  unfold startTakeover
  split
  · simp
  · rw [setRole_census, configChanged_census]
    rfl
@[simp] theorem recordDecision_census (row : Nat) (against : Option Bool) (k : CmpKey) (s : State) : (recordDecision row against k s).census =
    s.census :=
  census_of_only (ps := [.ocu, .mlk, .bki, .evr, .mbx]) (by simp) (by decide)
@[simp] theorem actDecision_census (row : Nat) (own : Bool) (s : State) : (actDecision row own s).census = s.census := by simp [actDecision]
@[simp] theorem refereeF_census (s : State) : (refereeF s).census = s.census := by
  unfold refereeF
  dsimp only
  split_ifs <;> simp
@[simp] theorem finding_census (f : Finding) (s : State) : (finding f s).census = s.census :=
  census_of_only (ps := [.bki, .faults, .evr, .mbx]) (by simp) (by decide)
@[simp] theorem retry_census (b : BlockId) (u : Nat) (s : State) : (retry b u s).census = s.census :=
  census_of_only (ps := [.ports, .head, .mlk]) (by simp) (by decide)
@[simp] theorem abandon_census (k : Nat) (s : State) : (abandon k s).census = s.census := by
  unfold abandon
  split
  · rw [txDrop_census, State.setPort_census]
  · rfl
@[simp] theorem portDown_census (k : Nat) (s : State) : (portDown k s).census = s.census := by simp [portDown]
@[simp] theorem coilOff_census (s : State) : (coilOff s).census = s.census := by simp [coilOff]
@[simp] theorem coilCheck_census (s : State) : (coilCheck s).census = s.census := by simp [coilCheck]
@[simp] theorem leaveFault_census (b : BlockId) (u : Nat) (s : State) : (leaveFault b u s).census = s.census := by simp [leaveFault]
@[simp] theorem leaveDue_census (b : BlockId) (u : Nat) (s : State) : (leaveDue b u s).census = s.census := by simp [leaveDue]

/-- A finding of class K leaves the instances. -/
theorem raise_census {f : Finding} (hc : f.cls = 2) (s : State) : (raise f s).census = s.census := by
  have hfound : (foundIn f s).census = s.census := by
    unfold foundIn
    split
    · exact leaveDue_census ..
    · rfl
  rw [raise_of_classK hc]
  unfold coilAfter
  split
  · rw [coilCheck_census, finding_census, hfound]
  · rw [finding_census, hfound]

end Sys2Proof.Machine
end

section
/-!
PROOFS. Frames, slots and budgets (R211 to R224): what a frame start leaves in its cluster, what a slot's start, its yield and the end of its budget
write. The obligation O35.
-/
namespace Sys2Proof.Machine
open Sys2Proof

/-! ### A cluster after a write -/

@[simp] theorem State.psc_setPsc_same (s : State) (k : Nat) (f : Psc → Psc) : (s.setPsc k f).psc k = f (s.psc k) := by
  simp [State.psc, State.setPsc]

theorem State.psc_setPsc_other (s : State) {k j : Nat} (f : Psc → Psc) (h : j ≠ k) : (s.setPsc k f).psc j = s.psc j := by
  simp [State.psc, State.setPsc, Tbl.get_set_other _ _ _ h]

theorem psc_of_only {ps : List Part} {s t : State} (h : Only ps s t) (hp : Part.sched ∉ ps) (k : Nat) : t.psc k = s.psc k := by
  have hsched : t.sched = s.sched := h.same .sched hp
  rw [State.psc, State.psc, hsched]

/-! ### What comes before a frame's own counters (R218) -/

section
variable (k : Nat) (s : State)

theorem supplyLoop_pscs : (supplyLoop k s).sched.pscs = s.sched.pscs := by
  unfold supplyLoop
  dsimp only
  split
  · split
    · split <;> rfl
    · rfl
  · rfl

theorem setVf_pscs (n : Nat) : (setVf n s).sched.pscs = s.sched.pscs := by
  unfold setVf
  split <;> rfl

theorem setVf_clk (n : Nat) : (setVf n s).clk = s.clk := by
  unfold setVf
  split <;> rfl

theorem coilCheck_sched : (coilCheck s).sched = s.sched :=
  (coilCheck_only (qs := [.ports, .head, .sw, .insts, .cgu, .time, .bki, .evr, .mbx]) s (Only.refl _ s) (by simp)).same .sched (by decide)

theorem emit_sched (opcode : Nat) (inst : Option Nat) (gen : Nat) (vals : List Nat) (tag : Nat) (st : Status) :
    (emit opcode inst gen vals s tag st).sched = s.sched :=
  (emit_only (qs := [.bki, .evr, .mbx]) opcode inst gen vals s tag st (Only.refl _ s) (by simp)).same .sched (by decide)

theorem enterSeason_pscs (x : SeasonKind) : (enterSeason x s).sched.pscs = s.sched.pscs := by
  have hvec : ∀ (v : Nat) (u : State), (vector v u).sched = u.sched := fun _ _ => rfl
  unfold enterSeason
  dsimp only
  rw [coilCheck_sched, hvec, emit_sched, setVf_pscs]
  rfl

theorem enterSeason_clk (x : SeasonKind) : (enterSeason x s).clk = s.clk := by
  unfold enterSeason
  dsimp only
  rw [coilCheck_clk, vector_clk, emit_clk, setVf_clk]
  rfl

/-- The supplies of the clusters that had no frame to take a change of season at (R356). -/
def seasonRest (x : SeasonKind) (s : State) : State :=
  (List.range 8).foldl (fun s k => if s.season.switched.contains k then s else seasonVolt k x s) s

theorem seasonRest_pscs (x : SeasonKind) : (seasonRest x s).sched.pscs = s.sched.pscs := by
  unfold seasonRest
  generalize List.range 8 = l
  induction l generalizing s with
  | nil => rfl
  | cons j l ih =>
    rw [List.foldl_cons, ih]
    split <;> rfl

theorem seasonRest_clk (x : SeasonKind) : (seasonRest x s).clk = s.clk :=
  clk_of_only (ps := [.sched]) (foldl_only _ _ (Only.refl _ s) fun t j => by
    split
    · exact Only.refl _ t
    · exact seasonVolt_only j x t (Only.refl _ t) (by simp)) (by decide)

/-- A change of season that every running cluster has taken (R356). -/
def seasonReached (x : SeasonKind) (s : State) : State :=
  opDone? s.season.changeOp .ok [] (enterSeason x (s.modSeason fun z => { z with changeOp := none }))

theorem seasonReached_keeps (x : SeasonKind) : (seasonReached x s).sched.pscs = s.sched.pscs ∧ (seasonReached x s).clk = s.clk := by
  have hdone : ∀ (h : Option Nat) u, (opDone? h .ok [] u).sched = u.sched := fun h u =>
    (opDone?_only (qs := [.bki, .evr, .mbx, .mon]) h .ok [] u (Only.refl _ u) (by simp)).same .sched (by decide)
  rw [seasonReached, hdone, enterSeason_pscs, opDone?_clk, enterSeason_clk]
  exact ⟨rfl, rfl⟩

theorem seasonSettles_some {x : SeasonKind} (hx : s.season.changing = some x) : seasonSettles s =
    if (x == .summer || x == .autumn) && (List.range 8).all fun k => s.season.switched.contains k || !(s.psc k).running then
      seasonReached x (seasonRest x s) else s := by
  simp only [seasonSettles, hx, seasonReached, seasonRest]

theorem seasonSettles_keeps : (seasonSettles s).sched.pscs = s.sched.pscs ∧ (seasonSettles s).clk = s.clk := by
  cases hx : s.season.changing with
  | none =>
    have hsame : seasonSettles s = s := by rw [seasonSettles, hx]
    rw [hsame]
    exact ⟨rfl, rfl⟩
  | some x =>
    rw [seasonSettles_some s hx]
    split
    · obtain ⟨hp, hc⟩ := seasonReached_keeps (seasonRest x s) x
      exact ⟨hp.trans (seasonRest_pscs s x), hc.trans (seasonRest_clk s x)⟩
    · exact ⟨rfl, rfl⟩

theorem seasonSwitch_keeps : (seasonSwitch k s).sched.pscs = s.sched.pscs ∧ (seasonSwitch k s).clk = s.clk := by
  unfold seasonSwitch
  split
  · split
    · exact seasonSettles_keeps _
    · exact ⟨rfl, rfl⟩
  · exact ⟨rfl, rfl⟩

/-- A cluster whose shadow bank has become active (R217); `copied` where the firmware has copied it. -/
def Psc.switched (p : Psc) (copied : Bool) : Psc :=
  let q := { p with
    bank := 1 - p.bank, periodAct := p.commitPer, phaseAct := p.commitPhase, commitPend := false, commitOp := none, copyBusy := true,
    status := p.status.filter fun e => !(changedEntries p.active p.shadow).contains e.1, live := bump p.live 6 }
  if copied then { q.withShadow q.active with copyBusy := false } else q

theorem Psc.switched_active (p : Psc) (copied : Bool) : (p.switched copied).active = p.shadow := by
  unfold Psc.switched Psc.withShadow Psc.active Psc.shadow
  by_cases h : p.bank = 0
  · cases copied <;> simp [h]
  · have h1 : 1 - p.bank = 0 := by omega
    cases copied <;> simp [h, h1]

/-- What a switch of banks leaves of a cluster, and what it writes. -/
theorem Psc.switched_rest (p : Psc) (copied : Bool) : (p.switched copied).frameNo = p.frameNo ∧ (p.switched copied).fresh = p.fresh
    ∧ (p.switched copied).live = bump p.live 6 ∧ (p.switched copied).commitPend = false ∧ (p.switched copied).phaseAct = p.commitPhase := by
  unfold Psc.switched Psc.withShadow
  cases copied
  · exact ⟨rfl, rfl, rfl, rfl, rfl⟩
  · dsimp only
    split_ifs <;> exact ⟨rfl, rfl, rfl, rfl, rfl⟩

theorem switchBank_psc : ∃ copied, (switchBank k s).psc k = (s.psc k).switched copied := by
  have hrefresh : ∀ u : State, (refreshAllOver u).psc k = u.psc k := fun u =>
    psc_of_only (ps := [.insts, .bki, .evr, .mbx]) (by simp) (by decide) k
  have hdone : ∀ h (u : State), (opDone h .ok [] u).psc k = u.psc k := fun h u =>
    psc_of_only (ps := [.bki, .evr, .mbx, .mon]) (by simp) (by decide) k
  have hcmp : ∀ u : State, (frameCmp k u).psc k = u.psc k := fun _ => rfl
  have hcopied : ∀ u : State, (bankCopied k u).psc k = if (u.psc k).copyBusy = true ∧ u.persist.fwUp = true then
      { (u.psc k).withShadow (u.psc k).active with copyBusy := false } else u.psc k := fun u => by
    unfold bankCopied
    split
    · rw [State.psc_setPsc_same]
    · rfl
  refine ⟨s.persist.fwUp, ?_⟩
  have hmain : (refreshAllOver (bankCopied k (pscCount k 6 (frameCmp k (s.setPsc k fun p => { p with
      bank := 1 - p.bank, periodAct := p.commitPer, phaseAct := p.commitPhase, commitPend := false, commitOp := none, copyBusy := true,
      status := p.status.filter fun e => !(changedEntries (s.psc k).active (s.psc k).shadow).contains e.1 }))))).psc k
      = (s.psc k).switched s.persist.fwUp := by
    have hup : ∀ (u : State) f, (pscCount k 6 (frameCmp k (u.setPsc k f))).persist.fwUp = u.persist.fwUp := fun _ _ => rfl
    rw [hrefresh, hcopied, hup, pscCount, State.psc_setPsc_same, hcmp, State.psc_setPsc_same]
    unfold Psc.switched
    cases s.persist.fwUp <;> rfl
  unfold switchBank
  dsimp only
  split
  · split
    · exact hmain
    · rw [hdone]
      exact hmain
  · exact hmain

theorem switchBank_now : (switchBank k s).now = s.now := by
  have hrefresh : ∀ u : State, (refreshAllOver u).now = u.now := fun u =>
    now_of_clk (clk_of_only (ps := [.insts, .bki, .evr, .mbx]) (by simp) (by decide))
  have hdone : ∀ h (u : State), (opDone h .ok [] u).now = u.now := fun h u => now_of_clk (opDone_clk ..)
  have hcopied : ∀ u : State, (bankCopied k u).now = u.now := fun u => by
    unfold bankCopied
    split <;> rfl
  unfold switchBank
  dsimp only
  split
  · split
    · rw [hrefresh, hcopied]
      rfl
    · rw [hdone, hrefresh, hcopied]
      rfl
  · rw [hrefresh, hcopied]
    rfl

/-- A cluster without what its cores execute. -/
def Psc.idle (p : Psc) : Psc := { p with cores := [] }

theorem stopCores_idle (i : Nat) : ((stopCores i s).psc k).idle = (s.psc k).idle := by
  have hmap := Tbl.get_map s.sched.pscs (fun p => { p with cores := p.cores.filter fun c => c.2.inst ≠ i }) k {} rfl
  exact (congrArg Psc.idle hmap :)

theorem halt_idle (i cause : Nat) : ((halt i cause s).psc k).idle = (s.psc k).idle := by
  have hrest : ∀ p f (u : State), (emitInst i false ((clearTrips i (breakLocks p u)).setInst i f)).psc k = u.psc k := fun p f u =>
    psc_of_only (ps := [.bki, .evr, .mbx, .insts, .cgu]) (emitInst_only i false _ (State.setInst_only _ i _ (clearTrips_only i _
      (breakLocks_only _ u (Only.refl _ u) (by simp)) (by simp)) (by simp)) (by simp)) (by decide) k
  unfold halt
  dsimp only
  split
  · rw [hrest]
    exact stopCores_idle k s i
  · rfl

theorem imageHalt_idle : ((imageHalt k s).psc k).idle = (s.psc k).idle := by
  unfold imageHalt
  generalize (s.persist.replacing.filter fun r => !r.halted && instCluster r.inst s == some k) = l
  induction l generalizing s with
  | nil => rfl
  | cons r l ih =>
    rw [List.foldl_cons, ih, halt_idle]
    rfl

/-- All that belongs to a frame start before the frame's own registers (R218). -/
def frameReady : State :=
  let u := seasonSwitch k (supplyLoop k s)
  mirrorStep k (imageHalt k (hsReplace k (if (u.psc k).commitNow u.time.tbNs u.time.tbStopped then switchBank k u else u)))

theorem frameReady_rest (u : State) : (mirrorStep k (imageHalt k (hsReplace k u))).now = u.now
    ∧ ((mirrorStep k (imageHalt k (hsReplace k u))).psc k).idle = (u.psc k).idle := by
  have hnow := now_of_clk (clk_of_only (ps := [.ocu, .bki, .evr, .mbx, .persist, .mon, .insts, .sched, .cgu, .mlk]) (mirrorStep_only k _
    (imageHalt_only k _ (hsReplace_only k u (Only.refl _ u) (by simp)) (by simp)) (by simp)) (by decide))
  refine ⟨hnow, ?_⟩
  rw [psc_of_only (mirrorStep_only (qs := [.insts, .mlk]) k _ (Only.refl _ _) (by simp)) (by decide) k, imageHalt_idle,
    psc_of_only (hsReplace_only (qs := [.ocu, .bki, .evr, .mbx, .persist, .mon]) k u (Only.refl _ u) (by simp)) (by decide) k]

/-- A pending commit of a cluster takes effect now (R217). -/
def State.commits (s : State) (k : Nat) : Bool := (s.psc k).commitNow s.time.tbNs s.time.tbStopped

theorem frameReady_keeps : (frameReady k s).now = s.now
    ∧ ∃ copied, ((frameReady k s).psc k).idle = (if s.commits k then (s.psc k).switched copied else s.psc k).idle := by
  obtain ⟨hpscs, hclk⟩ := seasonSwitch_keeps k (supplyLoop k s)
  have hsupply : (supplyLoop k s).clk = s.clk := clk_of_only (supplyLoop_only (qs := [.sched]) k s (Only.refl _ s) (by simp)) (by decide)
  have hclk : (seasonSwitch k (supplyLoop k s)).clk = s.clk := hclk.trans hsupply
  have hpsc : (seasonSwitch k (supplyLoop k s)).psc k = s.psc k := by rw [State.psc, State.psc, hpscs, supplyLoop_pscs]
  unfold frameReady
  dsimp only
  generalize seasonSwitch k (supplyLoop k s) = u at hclk hpsc
  have hcommits : (u.psc k).commitNow u.time.tbNs u.time.tbStopped = s.commits k := by
    rw [State.commits, hpsc, show u.time.tbNs = s.time.tbNs from (congrArg Time.tbNs hclk :),
      show u.time.tbStopped = s.time.tbStopped from (congrArg Time.tbStopped hclk :)]
  obtain ⟨copied, hswitch⟩ := switchBank_psc k u
  obtain ⟨hnow, hidle⟩ := frameReady_rest k (if s.commits k then switchBank k u else u)
  rw [hcommits]
  refine ⟨hnow.trans ?_, copied, hidle.trans ?_⟩
  · split
    · exact (switchBank_now k u).trans (now_of_clk hclk)
    · exact now_of_clk hclk
  · split
    · rw [hswitch, hpsc]
    · rw [hpsc]

/-- The registers of a frame that starts (R212, R213, R226). -/
theorem startFrame_psc : ∃ err al live, live.get 0 0 = satAdd 64 (((frameReady k s).psc k).live.get 0 0) 1
    ∧ (startFrame k s).psc k = { (frameReady k s).psc k with
        running := true, frameAt := s.now, frameNo := if ((frameReady k s).psc k).fresh then 0 else ((frameReady k s).psc k).frameNo + 1,
        fresh := false, phaseErr := err, aligned := al, served := [], slackMin := none, slackOver := false, live := live } := by
  rw [← (frameReady_keeps k s).1]
  have hstart : ∃ err : Int, ∃ al : Bool, startFrame k s =
      (fun t => if al then t else pscCount k 1 t) (pscCount k 0 ((frameReady k s).setPsc k fun p => { p with
        running := true, frameAt := (frameReady k s).now, frameNo := if p.fresh then 0 else p.frameNo + 1, fresh := false, phaseErr := err,
        aligned := al, served := [], slackMin := none, slackOver := false })) := ⟨_, _, rfl⟩
  obtain ⟨err, al, hstart⟩ := hstart
  rw [hstart]
  refine ⟨err, al, if al then bump ((frameReady k s).psc k).live 0 else bump (bump ((frameReady k s).psc k).live 0) 1, ?_, ?_⟩
  · cases al
    · exact (bump_other _ _ (by decide)).trans (bump_same ..)
    · exact bump_same ..
  · cases al
    · simp [pscCount]
    · simp [pscCount]

/-- What a frame start leaves of the cluster, and what it writes. -/
theorem startFrame_spec : (((startFrame k s).psc k).running = true
      ∧ ((startFrame k s).psc k).frameNo = (if (s.psc k).fresh then 0 else (s.psc k).frameNo + 1)
      ∧ ((startFrame k s).psc k).frameAt = s.now ∧ ((startFrame k s).psc k).served = [])
    ∧ ((startFrame k s).psc k).slackMin = none ∧ ((startFrame k s).psc k).slackOver = false
    ∧ ((startFrame k s).psc k).live.get 0 0 = satAdd 64 ((s.psc k).live.get 0 0) 1
    ∧ (s.commits k = true → ((startFrame k s).psc k).active = (s.psc k).shadow ∧ ((startFrame k s).psc k).commitPend = false
        ∧ ((startFrame k s).psc k).phaseAct = (s.psc k).commitPhase)
    ∧ (s.commits k = false → ((startFrame k s).psc k).active = (s.psc k).active ∧ ((startFrame k s).psc k).periodAct = (s.psc k).periodAct) := by
  obtain ⟨err, al, live, hlive, hpsc⟩ := startFrame_psc k s
  obtain ⟨-, copied, hidle⟩ := frameReady_keeps k s
  generalize (frameReady k s).psc k = p at hlive hpsc hidle
  rw [hpsc, hlive]
  have hactive : p.active = (if s.commits k then (s.psc k).switched copied else s.psc k).active := (congrArg Psc.active hidle :)
  have hno : p.frameNo = (if s.commits k then (s.psc k).switched copied else s.psc k).frameNo := (congrArg Psc.frameNo hidle :)
  have hfresh : p.fresh = (if s.commits k then (s.psc k).switched copied else s.psc k).fresh := (congrArg Psc.fresh hidle :)
  have hcount : p.live = (if s.commits k then (s.psc k).switched copied else s.psc k).live := (congrArg Psc.live hidle :)
  have hpend : p.commitPend = (if s.commits k then (s.psc k).switched copied else s.psc k).commitPend := (congrArg Psc.commitPend hidle :)
  have hphase : p.phaseAct = (if s.commits k then (s.psc k).switched copied else s.psc k).phaseAct := (congrArg Psc.phaseAct hidle :)
  have hper : p.periodAct = (if s.commits k then (s.psc k).switched copied else s.psc k).periodAct := (congrArg Psc.periodAct hidle :)
  obtain ⟨hno', hfresh', hlive', hpend', hphase'⟩ := (s.psc k).switched_rest copied
  have hkept : p.frameNo = (s.psc k).frameNo ∧ p.fresh = (s.psc k).fresh ∧ p.live.get 0 0 = (s.psc k).live.get 0 0 := by
    rw [hno, hfresh, hcount]
    split
    · exact ⟨hno', hfresh', by rw [hlive', bump_other _ _ (by decide)]⟩
    · exact ⟨rfl, rfl, rfl⟩
  obtain ⟨hno, hfresh, hcount⟩ := hkept
  refine ⟨⟨rfl, ?_, rfl, rfl⟩, rfl, rfl, ?_, fun hc => ⟨?_, ?_, ?_⟩, fun hc => ⟨?_, ?_⟩⟩
  · rw [hno, hfresh]
  · rw [hcount]
  · rw [if_pos hc] at hactive
    exact hactive.trans ((s.psc k).switched_active copied)
  · rw [if_pos hc] at hpend
    exact hpend.trans hpend'
  · rw [if_pos hc] at hphase
    exact hphase.trans hphase'
  · rw [hc] at hactive
    exact hactive
  · rw [hc] at hper
    exact hper

end

/-! ### A slot that falls due (R219, R220, R223) -/

section
variable (k e : Nat) (x : SlotEntry) (a2 : Nat) (s : State)

/-- The slot as its core begins it (R220). -/
def State.slotRun : Running :=
  let a3 : BitVec 4 := listMask 4 (([((s.hart x.inst x.hart).prevOver, 0), (x.trig, 1), (!(s.hart x.inst x.hart).ran, 2),
    ((s.psc k).aligned, 3)].filter fun b => b.1).map fun b => b.2)
  { entry := e, inst := x.inst, gen := (s.inst x.inst).gen, hart := x.hart, a1 := (s.psc k).frameNo, a2 := a2, a3 := a3, budget := x.budget,
    vmid := x.inst, root := Config.gstageRoot x.inst, pc := Config.slotEntry x.inst, started := s.now + entryDelay s, slackExcl := x.slackExcl }

/-- The slot begun, its instance as it was (R220). -/
def State.slotTaken : State :=
  (slotStat k e (fun w => { w with runs := satAdd 32 w.runs 1 })
    (s.took.setPsc k fun p => { p with cores := p.cores.set (e / 16) (s.slotRun k e x a2) })).modSched fun y =>
      { y with harts := y.harts.mod (4 * x.inst + x.hart) {} fun h => { h with ran := true } }

theorem beginSlot_eq : beginSlot k e x a2 s = if (s.inst x.inst).state = .ready then
    emitInst x.inst false ((s.slotTaken k e x a2).setInst x.inst fun d => { d with state := .running, runningAt := some (s.slotTaken k e x a2).now })
    else s.slotTaken k e x a2 := rfl

theorem slotTaken_psc : (s.slotTaken k e x a2).psc k = { s.psc k with
    cores := (s.psc k).cores.set (e / 16) (s.slotRun k e x a2),
    status := (s.psc k).status.mod e {} fun w => { w with runs := satAdd 32 w.runs 1 } } := by
  have hmod : ∀ (u : State) (f : Sched → Tbl HartStat), (u.modSched fun y => { y with harts := f y }).psc k = u.psc k :=
    fun _ _ => rfl
  have htook : s.took.psc k = s.psc k := rfl
  rw [State.slotTaken, hmod, slotStat, State.psc_setPsc_same, State.psc_setPsc_same, htook]

theorem beginSlot_psc : (beginSlot k e x a2 s).psc k = (s.slotTaken k e x a2).psc k := by
  have hready : ∀ f, (emitInst x.inst false ((s.slotTaken k e x a2).setInst x.inst f)).psc k = (s.slotTaken k e x a2).psc k := fun f =>
    psc_of_only (ps := [.insts, .bki, .evr, .mbx]) (by simp) (by decide) k
  rw [beginSlot_eq]
  split
  · exact hready _
  · rfl

/-- The instance of a slot that begins is RUNNING, under its generation. -/
theorem beginSlot_inst (h : (s.inst x.inst).state = .ready ∨ (s.inst x.inst).state = .running) :
    ((beginSlot k e x a2 s).inst x.inst).state = .running ∧ ((beginSlot k e x a2 s).inst x.inst).gen = (s.inst x.inst).gen := by
  have htaken : (s.slotTaken k e x a2).inst x.inst = s.inst x.inst := rfl
  rw [beginSlot_eq]
  split
  next => 
    rw [emitInst_inst, State.inst_setInst_same, htaken]
    exact ⟨rfl, rfl⟩
  next hnot => exact ⟨h.resolve_left hnot, rfl⟩

theorem entryDelay_le : entryDelay s ≤ 1000 := Nat.le_of_lt_succ (Nat.mod_lt _ (by decide))

theorem served_psc : (served k e s).psc k = { s.psc k with served := (s.psc k).served ++ [e] } := State.psc_setPsc_same ..

theorem inFootprint_served : inFootprint k e x (served k e s) = inFootprint k e x s := by
  unfold inFootprint
  rw [served_psc]
  rfl

/-- A slot whose core is still in another footprint collides (R219). -/
def collision (g : Nat) : Finding := { block := .psc, unit := k, kind := 9, access := 7, owner := .inst x.inst g, addr := e }

theorem slotDue_collides (h : inFootprint k e x s = true) : slotDue k e x a2 s = raise (collision k e x (s.inst x.inst).gen)
    (slotStat k e (fun w => { w with unused := satAdd 16 w.unused 1 }) (pscCount k 5 s)) := if_pos h

/-- The core of a slot has a footprint (R216). -/
def State.footTaken : State := s.setPsc k fun p => { p with fpEnd := p.fpEnd.set (e / 16) (p.frameAt + x.footEnd) }

theorem slotDue_begins (h : inFootprint k e x s = false) (hst : (s.inst x.inst).state = .ready ∨ (s.inst x.inst).state = .running) :
    slotDue k e x a2 s = beginSlot k e x a2 (s.footTaken k e x) := by
  rw [slotDue, h]
  exact if_pos hst

theorem slotDue_unused (h : inFootprint k e x s = false) (hr : (s.inst x.inst).state ≠ .ready) (hrun : (s.inst x.inst).state ≠ .running) :
    slotDue k e x a2 s = slotStat k e (fun w => { w with unused := satAdd 16 w.unused 1 }) (pscCount k 3 (s.footTaken k e x)) := by
  rw [slotDue, h]
  exact if_neg (not_or.2 ⟨hr, hrun⟩)

theorem footTaken_psc : (s.footTaken k e x).psc k = { s.psc k with
    fpEnd := (s.psc k).fpEnd.set (e / 16) ((s.psc k).frameAt + x.footEnd) } := State.psc_setPsc_same ..

end

/-! ### The end of a slot (R203, R221, R222) -/

section
variable (k q : Nat) (r : Running) (s : State)

theorem slotLocks_census (i g hart : Nat) :
    (slotLocks i g hart s).census = (breakLocks (fun l => l.heldBy i g && l.hart == hart) s).census :=
  foldl_census _ _ (fun t _ => raise_census rfl t) _

theorem slotLocks_psc (i g hart : Nat) : (slotLocks i g hart s).psc k = s.psc k :=
  psc_of_only (slotLocks_only (qs := [.ports, .head, .sw, .insts, .cgu, .ocu, .mlk, .time, .bki, .faults, .evr, .mbx, .persist, .mon]) i g hart s
    (Only.refl _ s) (by simp)) (by decide) k

theorem slotEnds_psc (used sl : Nat) : (slotEnds k q r used sl s).psc k = { s.psc k with
    cores := (s.psc k).cores.del q, status := (s.psc k).status.mod r.entry {} fun w => { w with
      lastUsed := used / 10, maxUsed := max w.maxUsed (used / 10), minSlack := min w.minSlack sl } } := by
  rw [slotEnds, slotLocks_psc, slotStat, State.psc_setPsc_same, State.psc_setPsc_same]

theorem slotEnds_census (used sl : Nat) :
    (slotEnds k q r used sl s).census = (breakLocks (fun l => l.heldBy r.inst r.gen && l.hart == 8 * k + q) s).census :=
  slotLocks_census ..

theorem reportSlack_census (sl : Nat) (ov excl : Bool) : (reportSlack k sl ov excl s).census = s.census := by
  unfold reportSlack
  split <;> rfl

theorem reportSlack_psc (sl : Nat) (ov excl : Bool) : (reportSlack k sl ov excl s).psc k = if excl then s.psc k else { s.psc k with
    slackMin := some (((s.psc k).slackMin.map (min · sl)).getD sl), slackOver := (s.psc k).slackOver || ov } := by
  unfold reportSlack
  split
  · rfl
  · rw [State.psc_setPsc_same]
    cases (s.psc k).slackMin <;> rfl

end

/-! ### The commands -/

section
variable {k : Nat} {s : State} (hk : k < 8)
include hk

section
variable (hpow : pscPowered s = true) (hent : s.entering = false)
include hpow hent

theorem exec_frameStart_next (hrun : (s.psc k).running = true) (hen : (s.psc k).en = true) (hdue : (s.psc k).frameEnd ≤ s.now) :
    exec (.frameStart k) s = .next (startFrame k s) := by
  have he : exec (.frameStart k) s = execFrameStart k s := rfl
  rw [he, execFrameStart]
  rw [if_pos ⟨hk, hpow⟩, if_pos hrun, whenDue_now _ hdue, if_pos ⟨hen, by simp [hent]⟩]

theorem exec_frameStart_stops (hrun : (s.psc k).running = true) (hen : (s.psc k).en = false) (hdue : (s.psc k).frameEnd ≤ s.now) :
    exec (.frameStart k) s = .next (s.setPsc k fun p => { p with running := false, aligned := false }) := by
  have he : exec (.frameStart k) s = execFrameStart k s := rfl
  have hsettle : ∀ u : State, u.entering = false → winterSettles u = u := fun u hu => by rw [winterSettles, if_neg (by simp [hu])]
  rw [he, execFrameStart]
  rw [if_pos ⟨hk, hpow⟩, if_pos hrun, whenDue_now _ hdue, if_neg (by simp [hen])]
  exact congrArg Host.Outcome.next (hsettle _ hent)

omit hk hpow hent in
theorem untilTb_reached (h : s.time.tbStopped = false) : s.untilTb s.time.tbNs = s := by
  have hreach : (s.time.tbNs : Int) * 2 ^ 32 ≤ s.time.tbTotal := by simp [Time.tbTotal]
  have hmod : ∀ lim rate, (s.modTime fun t => if (s.time.tbNs : Int) * 2 ^ 32 ≤ t.tbTotal then t else
      t.ticks (min lim (ticksFor (s.time.tbNs * 2 ^ 32 - t.tbTotal) rate))) = s := fun lim rate => by
    rw [State.modTime, if_pos hreach]
  unfold State.untilTb
  simp only [h, Bool.false_eq_true, if_false]
  rw [hmod, hmod]

theorem exec_frameStart_first (hrun : (s.psc k).running = false) (hen : (s.psc k).en = true) (htb : s.time.tbStopped = false)
    (hgrid : gridNext s.time.tbNs (s.psc k).phaseNs (s.psc k).per = s.time.tbNs) : exec (.frameStart k) s = .next (startFrame k s) := by
  have he : exec (.frameStart k) s = execFrameStart k s := rfl
  have hwhen : whenTb s.time.tbNs (startFrame k) s = startFrame k s := by
    rw [whenTb, untilTb_reached htb, if_pos (Nat.le_refl _)]
  rw [he, execFrameStart]
  rw [if_pos ⟨hk, hpow⟩, if_neg (by simp [hrun]), if_pos ⟨hen, by simp [htb], by simp [hent]⟩, hgrid, hwhen]

end

section
variable {e : Nat}

theorem exec_slotStart (hopen : (s.psc k).open_ e false = true)
    (hdue : (s.psc k).frameAt + quarters ((s.psc k).active.get e {}).offset ≤ s.now) : ∃ a2,
    exec (.slotStart k e) s = .next (slotDue k e ((s.psc k).active.get e {}) a2 (served k e s)) := by
  have he : exec (.slotStart k e) s = execSlotStart k e s := rfl
  rw [he, execSlotStart]
  rw [if_pos ⟨hk, hopen⟩, whenDue_now _ hdue]
  exact ⟨_, rfl⟩

theorem exec_triggerWindowEnd (hopen : (s.psc k).open_ e true = true)
    (hdue : (s.psc k).frameAt + quarters ((s.psc k).active.get e {}).latest ≤ s.now) :
    exec (.triggerWindowEnd k e) s = .next (pscCount k 4 (served k e s)) := by
  have he : exec (.triggerWindowEnd k e) s = execTriggerWindowEnd k e s := rfl
  rw [he, execTriggerWindowEnd]
  rw [if_pos ⟨hk, hopen⟩, whenDue_now _ hdue]

end

section
variable {q : Nat} {r : Running} (hcore : (s.psc k).cores.has q = true)
  (hr : (s.psc k).cores.get q { entry := 0, inst := 0, gen := 0, hart := 0, a2 := 0 } = r)
include hcore hr

theorem exec_yieldCall (hle : r.started ≤ s.now) (hlt : s.now - r.started < quarters r.budget) :
    exec (.yieldCall k q) s = .next (yieldNow k q r s) := by
  have he : exec (.yieldCall k q) s = execYieldCall k q s := rfl
  rw [he, execYieldCall, if_pos ⟨hk, hcore⟩, hr]
  dsimp only
  rw [State.until_past hle, if_pos hlt]

theorem exec_budgetExpiry (hdue : r.started + quarters r.budget ≤ s.now) : exec (.budgetExpiry k q) s = .next (overrun k q r s) := by
  have he : exec (.budgetExpiry k q) s = execBudgetExpiry k q s := rfl
  rw [he, execBudgetExpiry, if_pos ⟨hk, hcore⟩, hr]
  dsimp only
  rw [whenDue_now _ hdue]

end

theorem exec_pscCommit (htakes : (s.psc k).takesCommit = true) : exec (.pscCommit k) s = .next (pscCommit k none s) := by
  have he : exec (.pscCommit k) s = execPscCommit k s := rfl
  rw [he, execPscCommit, if_pos ⟨hk, htakes⟩]

omit hk in
theorem exec_pscCommit_ignored (htakes : (s.psc k).takesCommit = false) : exec (.pscCommit k) s = .next s := by
  have he : exec (.pscCommit k) s = execPscCommit k s := rfl
  rw [he, execPscCommit, if_neg (by simp [htakes])]

end

/-! ### What a yield and an overrun leave -/

section
variable (k q : Nat) (r : Running) (s : State)

theorem setHart_hart (i h : Nat) (f : HartStat → HartStat) : (setHart i h f s).hart i h = f (s.hart i h) := by
  simp [setHart, State.hart]

theorem setHart_psc (i h : Nat) (f : HartStat → HartStat) : (setHart i h f s).psc k = s.psc k := rfl

theorem yieldNow_psc : ((yieldNow k q r s).psc k).cores = (s.psc k).cores.del q
    ∧ ((yieldNow k q r s).psc k).status = (s.psc k).status.mod r.entry {} fun w => { w with
        lastUsed := (s.now - r.started) / 10, maxUsed := max w.maxUsed ((s.now - r.started) / 10),
        minSlack := min w.minSlack (slackOf (quarters r.budget) (s.now - r.started)) } := by
  rw [yieldNow, setHart_psc, reportSlack_psc, slotEnds_psc]
  split <;> exact ⟨rfl, rfl⟩

theorem yieldNow_state (j : Nat) : ((yieldNow k q r s).inst j).state = (s.inst j).state := by
  have hcensus : (yieldNow k q r s).census = (breakLocks (fun l => l.heldBy r.inst r.gen && l.hart == 8 * k + q) s).census := by
    have hhart : ∀ i h f (u : State), (setHart i h f u).census = u.census := fun _ _ _ _ => rfl
    rw [yieldNow, hhart, reportSlack_census, slotEnds_census]
  exact state_of_census hcensus j

/-- The finding of an overrun (R222). -/
def overrunFinding : Finding := { block := .psc, unit := k, kind := 8, access := 7, owner := .inst r.inst r.gen, addr := r.entry }

/-- The slot of an overrun ended, and its slack reported (R222, R226). -/
def State.overEnded : State :=
  slotStat k r.entry (fun w => { w with overruns := satAdd 16 w.overruns 1 })
    (pscCount k 2 (reportSlack k 0 true r.slackExcl (slotEnds k q r (quarters r.budget) 0 s)))

/-- What an overrun writes of its hart, the host told of the eighth in a row (R222). -/
def overTold (h : HartStat) (s : State) : State :=
  if 8 ≤ h.series + 1 ∧ !h.raised ∧ s.persist.fwUp then
    emit 0x02F2 (some r.inst) r.gen [k, r.hart, r.entry] (setHart r.inst r.hart (fun h => { h with raised := true }) s)
  else s

theorem overrun_eq : overrun k q r s = overTold k r ((raise (overrunFinding k r) (s.overEnded k q r)).hart r.inst r.hart)
    (setHart r.inst r.hart (fun x => { x with
        prevOver := true, series := ((raise (overrunFinding k r) (s.overEnded k q r)).hart r.inst r.hart).series + 1 })
      (raise (overrunFinding k r) (s.overEnded k q r))) := rfl

theorem emit_psc (opcode : Nat) (inst : Option Nat) (gen : Nat) (vals : List Nat) (tag : Nat) (st : Status) :
    (emit opcode inst gen vals s tag st).psc k = s.psc k := psc_of_only (ps := [.bki, .evr, .mbx]) (by simp) (by decide) k

theorem overTold_keeps (h : HartStat) : (overTold k r h s).psc k = s.psc k ∧ (overTold k r h s).census = s.census
    ∧ (overTold k r h s).faults = s.faults ∧ ((overTold k r h s).hart r.inst r.hart).prevOver = (s.hart r.inst r.hart).prevOver := by
  have hhart : ∀ (a : Nat) b c d e f (u : State), (emit a b c d u e f).hart r.inst r.hart = u.hart r.inst r.hart := fun a b c d e f u => by
    rw [State.hart, State.hart, (emit_only (qs := [.bki, .evr, .mbx]) a b c d u e f (Only.refl _ u) (by simp)).same .sched (by decide)]
  have hfaults : ∀ (a : Nat) b c d e f (u : State), (emit a b c d u e f).faults = u.faults := fun a b c d e f u =>
    (emit_only (qs := [.bki, .evr, .mbx]) a b c d u e f (Only.refl _ u) (by simp)).same .faults (by decide)
  unfold overTold
  split
  · refine ⟨emit_psc .., emit_census .., hfaults .., ?_⟩
    rw [hhart, setHart_hart]
  · exact ⟨rfl, rfl, rfl, rfl⟩

theorem overEnded_psc : ((s.overEnded k q r).psc k).cores = (s.psc k).cores.del q
    ∧ (((s.overEnded k q r).psc k).status.get r.entry {}).overruns = satAdd 16 ((s.psc k).status.get r.entry {}).overruns 1
    ∧ ((s.overEnded k q r).psc k).live = bump (s.psc k).live 2
    ∧ (r.slackExcl = false → ((s.overEnded k q r).psc k).slackMin = some 0 ∧ ((s.overEnded k q r).psc k).slackOver = true) := by
  rw [State.overEnded, slotStat, State.psc_setPsc_same, pscCount, State.psc_setPsc_same, reportSlack_psc, slotEnds_psc]
  cases r.slackExcl
  · refine ⟨rfl, ?_, rfl, fun _ => ⟨?_, Bool.or_true _⟩⟩
    · simp
    · cases (s.psc k).slackMin <;> simp
  · exact ⟨rfl, by simp, rfl, nofun⟩

theorem overEnded_census : (s.overEnded k q r).census = (breakLocks (fun l => l.heldBy r.inst r.gen && l.hart == 8 * k + q) s).census := by
  have hstat : ∀ f (u : State), (slotStat k r.entry f (pscCount k 2 u)).census = u.census := fun _ _ => rfl
  rw [State.overEnded, hstat, reportSlack_census, slotEnds_census]

theorem setHart_faults (i h : Nat) (f : HartStat → HartStat) : (setHart i h f s).faults = s.faults := rfl

theorem overrun_psc : (overrun k q r s).psc k = (s.overEnded k q r).psc k := by
  rw [overrun_eq, (overTold_keeps k r _ _).1, setHart_psc]
  exact psc_of_only (raise_only (qs := [.ports, .head, .sw, .insts, .cgu, .ocu, .mlk, .time, .bki, .faults, .evr, .mbx, .persist, .mon]) _ _
    (Only.refl _ _) (by simp)) (by decide) k

theorem overrun_census : (overrun k q r s).census = (breakLocks (fun l => l.heldBy r.inst r.gen && l.hart == 8 * k + q) s).census := by
  have hhart : ∀ i h f (u : State), (setHart i h f u).census = u.census := fun _ _ _ _ => rfl
  rw [overrun_eq, (overTold_keeps k r _ _).2.1, hhart, raise_census rfl, overEnded_census]

theorem overrun_fset : (overrun k q r s).fset .psc k = (raise (overrunFinding k r) (s.overEnded k q r)).fset .psc k := by
  rw [overrun_eq, State.fset, (overTold_keeps k r _ _).2.2.1, setHart_faults, State.fset]

theorem overrun_prevOver : ((overrun k q r s).hart r.inst r.hart).prevOver = true := by
  rw [overrun_eq, (overTold_keeps k r _ _).2.2.2, setHart_hart]

end

/-- Settles O35. -/
theorem framesSlotsAndBudgets : Obligations.FramesSlotsAndBudgets := by
  refine ⟨?_, ?_, ?_, ?_, ?_, ?_, ?_, ?_, ?_, ?_, ?_⟩
  case refine_1 =>
    intro k s hk hpow hrun hen hent hdue
    obtain ⟨⟨h1, h2, h3, h4⟩, h5, h6, h7, hcommit, hkeep⟩ := startFrame_spec k s
    refine ⟨_, exec_frameStart_next hk hpow hent hrun hen hdue, h1, h2, h3, h4, h5, h6, h7, fun hpend hper => hcommit ?_, fun hpend => hkeep ?_⟩
    · simp [State.commits, Psc.commitNow, hpend, hper]
    · simp [State.commits, Psc.commitNow, hpend]
  case refine_2 =>
    intro k s hk hpow hrun hen hent hdue
    exact ⟨_, exec_frameStart_stops hk hpow hent hrun hen hdue, by simp, State.psc_setPsc_same .., fun j hj => State.psc_setPsc_other s _ hj⟩
  case refine_3 =>
    intro k s hk hpow hrun hen hent htb hgrid
    exact ⟨_, exec_frameStart_first hk hpow hent hrun hen htb hgrid, (startFrame_spec k s).1⟩
  case refine_4 =>
    intro k e s hk hopen hdue hfoot hst
    obtain ⟨a2, hexec⟩ := exec_slotStart hk hopen hdue
    rw [slotDue_begins k e _ a2 _ ((inFootprint_served ..).trans hfoot) hst] at hexec
    have hpsc := (beginSlot_psc k e ((s.psc k).active.get e {}) a2 ((served k e s).footTaken k e ((s.psc k).active.get e {}))).trans
      (slotTaken_psc ..)
    rw [footTaken_psc, served_psc] at hpsc
    refine ⟨_, hexec, ?_⟩
    dsimp only
    rw [hpsc]
    obtain ⟨hrunning, hgen⟩ := beginSlot_inst k e ((s.psc k).active.get e {}) a2 ((served k e s).footTaken k e ((s.psc k).active.get e {})) hst
    refine ⟨beginSlot_only _ _ _ _ _ (State.setPsc_only _ _ _ (served_only k e s (Only.refl _ s) (by simp)) (by simp)) (by simp), ?_, ?_, ?_, ?_,
      ?_, ?_, ?_, ?_, ?_, hrunning, hgen, ?_⟩
    · simp [Tbl.has_set]
    · rw [Tbl.get_set_same]
      rfl
    · rw [Tbl.get_set_same]
      rfl
    · rw [Tbl.get_set_same]
      rfl
    · rw [Tbl.get_set_same]
      rfl
    · rw [Tbl.get_set_same]
      rfl
    · rw [Tbl.get_set_same]
      exact Nat.le_add_right _ _
    · rw [Tbl.get_set_same]
      exact Nat.add_le_add_left (entryDelay_le _) _
    · simp
    · simp
  case refine_5 =>
    intro k e s hk hopen hdue hfoot hready hrunning
    obtain ⟨a2, hexec⟩ := exec_slotStart hk hopen hdue
    rw [slotDue_unused k e _ a2 _ ((inFootprint_served ..).trans hfoot) hready hrunning] at hexec
    refine ⟨_, hexec, slotStat_only _ _ _ _ (pscCount_only _ _ _ (State.setPsc_only _ _ _ (served_only k e s (Only.refl _ s) (by simp)) (by simp))
      (by simp)) (by simp), ?_⟩
    rw [slotStat, State.psc_setPsc_same, pscCount, State.psc_setPsc_same, footTaken_psc, served_psc]
    exact ⟨rfl, by simp, by simp⟩
  case refine_6 =>
    intro k e s hk hopen hdue hfoot
    obtain ⟨a2, hexec⟩ := exec_slotStart hk hopen hdue
    rw [slotDue_collides k e _ a2 _ ((inFootprint_served ..).trans hfoot)] at hexec
    refine ⟨_, hexec, ?_⟩
    have hc : (collision k e ((s.psc k).active.get e {}) ((served k e s).inst ((s.psc k).active.get e {}).inst).gen).cls = 2 := rfl
    dsimp only
    rw [psc_of_only (raise_only (qs := [.ports, .head, .sw, .insts, .cgu, .ocu, .mlk, .time, .bki, .faults, .evr, .mbx, .persist, .mon]) _ _
      (Only.refl _ _) (by simp)) (by decide) k, slotStat, State.psc_setPsc_same, pscCount, State.psc_setPsc_same, served_psc]
    exact ⟨rfl, raise_state (.inl hc) _ (by simp [collision]), raise_lastKind (.inl hc) _, by simp, bump_same ..⟩
  case refine_7 =>
    intro k q r s hk hcore hr hle hlt
    obtain ⟨hcores, hstatus⟩ := yieldNow_psc k q r s
    refine ⟨_, exec_yieldCall hk hcore hr hle hlt, ?_, ?_, ?_, ?_, ?_, yieldNow_state ..⟩
    · rw [hcores, Tbl.has_del]
    · rw [hstatus, Tbl.get_mod_same]
    · rw [hstatus, Tbl.get_mod_same]
    · rw [yieldNow, setHart_hart]
    · rw [yieldNow, setHart_hart]
  case refine_8 =>
    intro k q r s hk hcore hr hdue
    have hc : (overrunFinding k r).cls = 2 := rfl
    obtain ⟨hcores, hover, hlive, hslack⟩ := overEnded_psc k q r s
    refine ⟨_, exec_budgetExpiry hk hcore hr hdue, ?_, ?_, ?_, ?_, state_of_census (overrun_census k q r s) _, ?_, ?_, fun h => ?_, fun n hby hh => ?_⟩
    · rw [overrun_psc, hcores, Tbl.has_del]
    · rw [overrun_psc, hover]
    · rw [overrun_psc, hlive, bump_same]
    · exact overrun_prevOver ..
    · rw [overrun_fset]
      exact raise_state (f := overrunFinding k r) (.inl hc) _ (by simp [overrunFinding])
    · rw [overrun_fset]
      exact raise_lastKind (f := overrunFinding k r) (.inl hc) _
    · rw [overrun_psc]
      exact hslack h
    · rw [lock_of_census (overrun_census k q r s), breakLocks_lock, if_pos (by simp [hby, hh, Lock.held_of_heldBy hby])]
      exact ⟨rfl, rfl⟩
  case refine_9 =>
    intro k e s hk hopen hdue
    refine ⟨_, exec_triggerWindowEnd hk hopen hdue, pscCount_only _ _ _ (served_only k e s (Only.refl _ s) (by simp)) (by simp), ?_⟩
    rw [pscCount, State.psc_setPsc_same, served_psc]
    refine ⟨by simp, bump_same .., rfl, fun j hj => ?_⟩
    rw [State.psc_setPsc_other _ _ hj, served, State.psc_setPsc_other _ _ hj]
  case refine_10 =>
    intro k s hk hpend hper
    have htakes : (s.psc k).takesCommit = true := by
      rcases hper with h | h
      · simp [Psc.takesCommit, hpend, h]
      · simp [Psc.takesCommit, hpend, h]
    exact ⟨_, exec_pscCommit hk htakes, by simp [pscCommit], fun j hj => State.psc_setPsc_other s _ hj, State.psc_setPsc_same ..⟩
  case refine_11 =>
    intro k s hk hnot
    refine ⟨s, exec_pscCommit_ignored ?_, rfl⟩
    rcases hnot with h | ⟨hper, hal⟩
    · simp [Psc.takesCommit, h]
    · simp [Psc.takesCommit, hper, hal]

end Sys2Proof.Machine
end

section
/-!
PROOFS. Steps, switches of the reference, comparators, the pulse and stamps (R282, R293 to R302). The obligation O43.
-/
namespace Sys2Proof.Machine
open Sys2Proof

/-! ### A step (R295, R296) -/

/-- The time base after a step, comparators and the pulse apart (R282, R295). -/
def Time.stepped (ns : Int) (t : Time) : Time := { t with
  tbNs := (((t.tbNs : Int) + ns) % 2 ^ 64).toNat, stepEpoch := (t.stepEpoch + 1) % 65536, slewRem := 0, slewing := false,
  domA := t.domA.stepped ns, domB := t.domB.stepped ns, live := bump t.live 10 }

/-- A step with what is recorded of it, comparators and the pulse apart. -/
def State.stepped (ns : Int) (s : State) : State :=
  let u := s.modTime fun t => { t with
    tbNs := (((t.tbNs : Int) + ns) % 2 ^ 64).toNat, stepEpoch := (t.stepEpoch + 1) % 65536, slewRem := 0, slewing := false,
    domA := t.domA.stepped ns, domB := t.domB.stepped ns }
  note .tbu 0 0x380 0 .none (leBytes 8 (unsigned 64 ns)) (tbuCount 10 (u.modMlk fun m => m.rebased s.time.tbNs u.time.tbNs))

theorem stepped_only (ns : Int) (s : State) : Only [.time, .mlk, .bki, .evr] s (s.stepped ns) :=
  note_only _ _ _ _ _ _ _ (State.modTime_only _ (State.modMlk_only _ (State.modTime_only _ (Only.refl _ s) (by simp)) (by simp)) (by simp)) (by simp)

theorem stepped_time (ns : Int) (s : State) : (s.stepped ns).time = s.time.stepped ns :=
  (note_only (qs := [.bki, .evr]) .tbu 0 0x380 0 .none (leBytes 8 (unsigned 64 ns)) _ (Only.refl _ _) (by simp)).same .time (by decide)

theorem stepped_mlk (ns : Int) (s : State) : (s.stepped ns).mlk = s.mlk.rebased s.time.tbNs (s.time.stepped ns).tbNs :=
  (note_only (qs := [.bki, .evr]) .tbu 0 0x380 0 .none (leBytes 8 (unsigned 64 ns)) _ (Only.refl _ _) (by simp)).same .mlk (by decide)

/-- The pulse output changes, and nothing else of the time base. -/
theorem ppsRise_time (s : State) : ∃ out from_, (ppsRise s).time = { s.time with ppsOut := out, ppsFrom := from_ } := by
  unfold ppsRise
  split
  · exact ⟨_, _, rfl⟩
  · exact ⟨_, _, rfl⟩

/-- With no comparator enabled, a step passes the comparators by (R298). -/
theorem foldl_stepCmp_of_off (old : Nat) {s : State} {l : List Nat} (h : ∀ j ∈ l, (s.time.cmp j).en = false) :
    l.foldl (fun s k => stepCmp k old s) s = s := by
  induction l with
  | nil => rfl
  | cons k l ih =>
    have hk : stepCmp k old s = s := by simp [stepCmp, h k (by simp)]
    rw [List.foldl_cons, hk]
    exact ih fun j hj => h j (List.mem_cons_of_mem k hj)

theorem doStep_of_off (ns : Int) {s : State} (h : ∀ j, j < 32 → (s.time.cmp j).en = false) :
    doStep ns s = if decide (s.time.tbNs / sec 1 < (s.stepped ns).time.tbNs / sec 1) then ppsRise (s.stepped ns) else s.stepped ns := by
  have hcmp : ∀ j, (s.stepped ns).time.cmp j = s.time.cmp j := fun j => by
    rw [stepped_time]
    rfl
  have hsplit : doStep ns s =
      (fun u : State => if decide (s.time.tbNs / sec 1 < u.time.tbNs / sec 1) then ppsRise u else u)
        ((List.range 32).foldl (fun t k => stepCmp k s.time.tbNs t) (s.stepped ns)) := by
    unfold doStep State.stepped
    dsimp only
  rw [hsplit, foldl_stepCmp_of_off s.time.tbNs fun j hj => (congrArg Comparator.en (hcmp j)).trans (h j (List.mem_range.1 hj))]

/-- What a step leaves of the time base with no comparator enabled: all as `Time.stepped` has it, but for the pulse. -/
theorem doStep_time (ns : Int) {s : State} (h : ∀ j, j < 32 → (s.time.cmp j).en = false) :
    ∃ out from_, (doStep ns s).time = { s.time.stepped ns with ppsOut := out, ppsFrom := from_ } := by
  rw [doStep_of_off ns h]
  split
  · rw [← stepped_time]
    exact ppsRise_time _
  · rw [stepped_time]
    exact ⟨_, _, rfl⟩

theorem doStep_only_of_off (ns : Int) {s : State} (h : ∀ j, j < 32 → (s.time.cmp j).en = false) :
    Only [.time, .mlk, .bki, .evr] s (doStep ns s) ∧ (doStep ns s).mlk = s.mlk.rebased s.time.tbNs (s.time.stepped ns).tbNs := by
  rw [doStep_of_off ns h]
  split
  · exact ⟨ppsRise_only _ (stepped_only ns s) (by simp),
      ((ppsRise_only (qs := [.time]) _ (Only.refl _ _) (by simp)).same .mlk (by decide)).trans (stepped_mlk ns s)⟩
  · exact ⟨stepped_only ns s, stepped_mlk ns s⟩

/-! ### Comparators (R298, R299) -/

/-- An event whose instant TB has reached comes about now. -/
theorem untilTb_past {s : State} {n : Nat} (h : n ≤ s.time.tbNs) : s.untilTb n = s := by
  have hreach : (n : Int) * 2 ^ 32 ≤ s.time.tbTotal := by
    simp only [Time.tbTotal]
    omega
  have hmod : ∀ lim rate, (s.modTime fun t => if (n : Int) * 2 ^ 32 ≤ t.tbTotal then t else
      t.ticks (min lim (ticksFor (n * 2 ^ 32 - t.tbTotal) rate))) = s := fun lim rate => by
    rw [State.modTime, if_pos hreach]
  unfold State.untilTb
  dsimp only
  rw [hmod, hmod, ite_self]

theorem whenTb_now {s : State} {n : Nat} (f : State → State) (h : n ≤ s.time.tbNs) : whenTb n f s = f s := by
  rw [whenTb, untilTb_past h, if_pos h]

theorem cmp_setCmp_same (s : State) (k : Nat) (f : Comparator → Comparator) : (s.setCmp k f).time.cmp k = f (s.time.cmp k) :=
  Tbl.get_set_same ..

theorem cmp_setCmp_other (s : State) {k j : Nat} (f : Comparator → Comparator) (h : j ≠ k) : (s.setCmp k f).time.cmp j = s.time.cmp j :=
  Tbl.get_set_other _ _ _ h

/-- A comparator that has fired (R298). -/
def Comparator.hasFired (c : Comparator) (late : Bool) (next : Nat) : Comparator :=
  { c with en := c.periodic, fired := true, late := c.late || late, time := next }

/-- The instant that a firing comparator goes on to (R298). -/
def Comparator.next (c : Comparator) (late : Bool) (tb : Nat) : Nat :=
  if c.periodic then (if late then gridNext (tb + 1) c.time c.period else c.time + c.period) else c.time

/-- The state in which a comparator has fired and its destinations are not yet reached. -/
def State.cmpFired (k : Nat) (late : Bool) (s : State) : State :=
  tbuCount 13 (s.setCmp k fun c => c.hasFired late ((s.time.cmp k).next late s.time.tbNs))

theorem fireCmp_eq (k : Nat) (late : Bool) (s : State) :
    fireCmp k late s = firing k (s.time.cmp k).time (s.time.cmp k) (s.cmpFired k late) := rfl

theorem cmpFired_cmp_same (k : Nat) (late : Bool) (s : State) :
    (s.cmpFired k late).time.cmp k = (s.time.cmp k).hasFired late ((s.time.cmp k).next late s.time.tbNs) := by
  have hcount : ∀ u : State, (tbuCount 13 u).time.cmp k = u.time.cmp k := fun _ => rfl
  rw [State.cmpFired, hcount, cmp_setCmp_same]

theorem cmpFired_cmp_other {k j : Nat} (late : Bool) (s : State) (h : j ≠ k) : (s.cmpFired k late).time.cmp j = s.time.cmp j := by
  have hcount : ∀ u : State, (tbuCount 13 u).time.cmp j = u.time.cmp j := fun _ => rfl
  rw [State.cmpFired, hcount, cmp_setCmp_other _ _ h]

theorem cmpFired_only (k : Nat) (late : Bool) (s : State) : Only [.time] s (s.cmpFired k late) :=
  tbuCount_only _ _ _ (State.setCmp_only _ _ _ (Only.refl _ s) (by simp)) (by simp)

section
variable {k t : Nat} {c : Comparator} {s : State}

/-- A firing that starts no slot, sets no sample count and triggers no stream is recorded at most (R299). -/
theorem firing_of_quiet (h0 : c.dest.getLsbD 0 = false ∨ k < 8) (h1 : c.dest.getLsbD 1 = false) (h2 : c.dest.getLsbD 2 = false ∨ k < 8) :
    firing k t c s = if c.dest.getLsbD 3 then note .tbu 0 0x383 0 (c.master s) (leBytes 8 t ++ leBytes 1 k) s else s := by
  have hcluster : (c.dest.getLsbD 0 && decide (8 ≤ k)) = false := by
    rcases h0 with h | h
    · rw [h, Bool.false_and]
    · rw [decide_eq_false (Nat.not_le.2 h), Bool.and_false]
  have hstream : (c.dest.getLsbD 2 && decide (8 ≤ k)) = false := by
    rcases h2 with h | h
    · rw [h, Bool.false_and]
    · rw [decide_eq_false (Nat.not_le.2 h), Bool.and_false]
  unfold firing
  dsimp only
  rw [hcluster, h1, hstream]
  rfl

end

theorem exec_comparatorFire {k : Nat} {s : State} (hk : k < 32) (hen : (s.time.cmp k).en = true) (hle : (s.time.cmp k).time ≤ s.time.tbNs) :
    exec (.comparatorFire k) s = .next (firing k (s.time.cmp k).time (s.time.cmp k) (s.cmpFired k false)) := by
  have he : exec (.comparatorFire k) s = execComparatorFire k s := rfl
  rw [he, execComparatorFire, if_pos ⟨hk, hen⟩, whenTb_now _ hle, fireCmp_eq]

/-- A comparator as a write of TRG_CTL leaves it, not yet armed (R306). -/
def Comparator.written (k : Nat) (v : BitVec 32) (c : Comparator) : Comparator := { c with
  en := bitOf v 31, periodic := bitOf v 30 && c.period != 0, late := c.late && !bitOf v 29, fired := c.fired && !bitOf v 28,
  dest := if k < 8 then 1 else BitVec.ofNat 4 (bits v 27 24), byMgp := bitOf v 23, owner := bits v 22 14 }

theorem exec_trgCtlWrite {k : Nat} (v : BitVec 32) (s : State) (hk : k < 32) :
    exec (.trgCtlWrite k v) s = .next (armCmp k (s.setCmp k (Comparator.written k v))) := by
  have he : exec (.trgCtlWrite k v) s = execTrgCtlWrite k v s := rfl
  rw [he, execTrgCtlWrite, if_pos hk]
  rfl

/-! ### Stamps (R302) -/

theorem Memory.read1_write1_other (m : Memory) {k p : Nat} (v : Byte) (h : p ≠ k) : (m.write1 k v).read1 p = m.read1 p := by
  induction m with
  | nil => 
    unfold Memory.write1
    split
    · rfl
    · simp [Memory.read1, Ne.symm h]
  | cons c m ih =>
    obtain ⟨a, b⟩ := c
    unfold Memory.write1
    split_ifs with hlt hv heq hv
    · rfl
    · simp [Memory.read1, Ne.symm h]
    · subst heq
      simp [Memory.read1, Ne.symm h]
    · subst heq
      simp [Memory.read1, Ne.symm h]
    · simp [Memory.read1, ih]

theorem Memory.read1_writes_other (l : List (Byte × Nat)) (m : Memory) (at_ : Nat → Nat) {p : Nat} (h : ∀ b ∈ l, p ≠ at_ b.2) :
    (l.foldl (fun m b => m.write1 (at_ b.2) b.1) m).read1 p = m.read1 p := by
  induction l generalizing m with
  | nil => rfl
  | cons b l ih =>
    rw [List.foldl_cons, ih _ fun x hx => h x (List.mem_cons_of_mem b hx), Memory.read1_write1_other _ _ (h b (by simp))]

section
variable (i a : Nat) (octets : List Byte) (s : State)

/-- A write into a local store leaves every octet outside its range. -/
theorem lsWrite_read1 {p : Nat} (h : ∀ b, b < octets.length → p ≠ (s.inst i).lsPhys (a + b)) :
    (lsWrite i a octets s).insts.lsMem.read1 p = s.insts.lsMem.read1 p := by
  have hdirty : ∀ n, (markDirty i a n s).insts = s.insts := fun n =>
    (markDirty_only (qs := [.mlk]) i a n s (Only.refl _ s) (by simp)).same .insts (by decide)
  unfold lsWrite
  dsimp only
  split
  · refine (Memory.read1_writes_other octets.zipIdx _ (fun b => (s.inst i).lsPhys (a + b)) fun b hb => h b.2 ?_).trans
      (congrArg (fun n => Memory.read1 n.lsMem p) (hdirty octets.length))
    obtain ⟨x, n⟩ := b
    exact (List.mem_zipIdx' hb).1
  · rfl

theorem lsWrite_rest : (lsWrite i a octets s).insts.desc = s.insts.desc ∧ (lsWrite i a octets s).insts.dramMem = s.insts.dramMem := by
  have hdirty : (markDirty i a octets.length s).insts = s.insts :=
    (markDirty_only (qs := [.mlk]) i a _ s (Only.refl _ s) (by simp)).same .insts (by decide)
  unfold lsWrite
  dsimp only
  split
  · exact ⟨(congrArg Insts.desc hdirty :), (congrArg Insts.dramMem hdirty :)⟩
  · exact ⟨rfl, rfl⟩

end

theorem StampEntry.octets_length (e : StampEntry) : e.octets.length = 32 := leBytes_length ..

/-- The time base with the head of its stamp queue taken. -/
def Time.taken (t : Time) (q : List StampEntry) : Time := { t with stampQ := q }

/-- The entry at the head of the stamp queue taken. -/
def State.stampTaken (s : State) (q : List StampEntry) : State := s.modTime fun t => t.taken q

/-- A ring with one more entry (R302). -/
def StampRing.advanced (r : StampRing) : StampRing := { r with wr := (r.wr + 1) % 2 ^ 32 }

/-- An entry written into the ring of its owner, with the ring's sequence number (R302). -/
def State.stampWritten (s : State) (e : StampEntry) (q : List StampEntry) : State :=
  let r := s.time.stampRings.get e.inst {}
  lsWrite e.inst (r.ctl + 12) (leBytes 4 ((r.wr + 1) % 2 ^ 32)) (lsWrite e.inst (r.addr + 32 * (r.wr % r.slots)) e.octets (s.stampTaken q))

theorem stampWritten_spec (s : State) (e : StampEntry) (q : List StampEntry) : Only [.time, .insts, .mlk] s (s.stampWritten e q)
    ∧ (s.stampWritten e q).time = s.time.taken q ∧ (s.stampWritten e q).insts.desc = s.insts.desc
    ∧ (s.stampWritten e q).insts.dramMem = s.insts.dramMem := by
  have hwrite : ∀ i a l (u : State), (lsWrite i a l u).time = u.time := fun i a l u =>
    (lsWrite_only (qs := [.insts, .mlk]) i a l u (Only.refl _ u) (by simp)).same .time (by decide)
  unfold State.stampWritten
  dsimp only
  refine ⟨lsWrite_only _ _ _ _ (lsWrite_only _ _ _ _ (State.modTime_only _ (Only.refl _ s) (by simp)) (by simp)) (by simp), ?_, ?_, ?_⟩
  · rw [hwrite, hwrite]
    rfl
  · rw [(lsWrite_rest ..).1, (lsWrite_rest ..).1]
    rfl
  · rw [(lsWrite_rest ..).2, (lsWrite_rest ..).2]
    rfl

theorem stampWritten_read1 (s : State) (e : StampEntry) (q : List StampEntry) {p : Nat}
    (h1 : ∀ b, b < 32 → p ≠ (s.inst e.inst).lsPhys ((s.time.stampRings.get e.inst {}).addr + 32 * ((s.time.stampRings.get e.inst {}).wr
      % (s.time.stampRings.get e.inst {}).slots) + b))
    (h2 : ∀ b, b < 4 → p ≠ (s.inst e.inst).lsPhys ((s.time.stampRings.get e.inst {}).ctl + 12 + b)) :
    (s.stampWritten e q).insts.lsMem.read1 p = s.insts.lsMem.read1 p := by
  have hinst : ∀ a l, (lsWrite e.inst a l (s.stampTaken q)).inst e.inst = s.inst e.inst := fun a l => by
    rw [State.inst, (lsWrite_rest ..).1]
    rfl
  unfold State.stampWritten
  dsimp only
  rw [lsWrite_read1, lsWrite_read1]
  · rfl
  · rw [StampEntry.octets_length]
    exact h1
  · rw [leBytes_length, hinst]
    exact h2

section
variable {e : StampEntry} {q : List StampEntry} {s : State} (hq : s.time.stampQ = e :: q) (hmgp : e.byMgp = false)
include hq hmgp

theorem exec_stampDeliver (hg : s.genCurrent e.inst e.gen = true) (hring : s.time.stampRings.has e.inst = true) :
    exec .stampDeliver s = .next ((s.stampWritten e q).modTime fun x =>
      { x with stampRings := x.stampRings.set e.inst (s.time.stampRings.get e.inst {}).advanced }) := by
  have he : exec .stampDeliver s = execStampDeliver s := rfl
  rw [he, execStampDeliver, hq]
  exact congrArg Host.Outcome.next (if_pos ⟨by simp [hmgp], hg, hring⟩)

theorem exec_stampDeliver_late (hg : s.genCurrent e.inst e.gen = false) :
    exec .stampDeliver s = .next (lateAt .tbu 0 e.inst (tbuCount 17 (s.stampTaken q))) := by
  have he : exec .stampDeliver s = execStampDeliver s := rfl
  rw [he, execStampDeliver, hq]
  have hdead : ¬(((!e.byMgp) = true) ∧ (s.stampTaken q).genCurrent e.inst e.gen = true ∧ (s.stampTaken q).time.stampRings.has e.inst = true) := by
    rintro ⟨-, h, -⟩
    exact Bool.false_ne_true (hg.symm.trans h)
  exact congrArg Host.Outcome.next ((if_neg hdead).trans (if_neg (by simp [hmgp])))

end

/-! ### The reference and the pulse (R293, R300) -/

theorem startSwitch_time (ref : Bool) (s : State) : (startSwitch ref s).time = { s.time with
    ref := ref, refAct := ref, slewRem := (s.time.dom ref).ofs, slewing := decide ((s.time.dom ref).ofs ≠ 0), live := bump s.time.live 11 } := by
  unfold startSwitch
  dsimp only
  rw [(note_only (qs := [.bki, .evr]) _ _ _ _ _ _ _ (Only.refl _ _) (by simp)).same .time (by decide)]
  rfl

/-- The slew is over after the ticks that its remainder takes (R293). -/
theorem slewGain_all (rem : Int) : slewGain ((rem.natAbs + 857) / 858) rem = rem := by
  have hle : rem.natAbs ≤ 858 * ((rem.natAbs + 857) / 858) := by omega
  unfold slewGain
  rw [Nat.min_eq_left hle]
  split <;> omega

/-- What no tick changes, no passing of time changes. -/
theorem untilTb_keeps {α : Type} (g : Time → α) (hg : ∀ (t : Time) k, g (t.ticks k) = g t) (s : State) (n : Nat) :
    g (s.untilTb n).time = g s.time := by
  have hgo : ∀ (u : State) lim rate, g (u.modTime fun t => if (n : Int) * 2 ^ 32 ≤ t.tbTotal then t else
      t.ticks (min lim (ticksFor (n * 2 ^ 32 - t.tbTotal) rate))).time = g u.time := fun u lim rate => by
    rw [State.modTime]
    dsimp only
    split
    · rfl
    · exact hg ..
  unfold State.untilTb
  dsimp only
  split
  · rfl
  · rw [hgo, hgo]

/-- No tick changes the step epoch and the settings of the pulse. -/
theorem ticks_settings (t : Time) (k : Nat) :
    (t.ticks k).stepEpoch = t.stepEpoch ∧ (t.ticks k).ppsEn = t.ppsEn ∧ (t.ticks k).ppsGate = t.ppsGate := by
  unfold Time.ticks
  split
  · split <;> exact ⟨rfl, rfl, rfl⟩
  · exact ⟨rfl, rfl, rfl⟩

/-- Settles O43. -/
theorem stepsSwitchesComparatorsAndStamps : Obligations.StepsSwitchesComparatorsAndStamps := by
  refine ⟨?_, ?_, ?_, ?_, ?_, ?_, ?_, ?_, ?_, ?_, ?_, ?_⟩
  case refine_1 =>
    intro s htb hoff
    have he : exec .tbStepGo s = .next (doStep s.time.step s) := by
      have he : exec .tbStepGo s = execTbStepGo s := rfl
      rw [he, execTbStepGo, htb]
      rfl
    obtain ⟨honly, hmlk⟩ := doStep_only_of_off s.time.step hoff
    obtain ⟨out, from_, htime⟩ := doStep_time s.time.step hoff
    refine ⟨_, he, honly, ?_⟩
    rw [hmlk, htime]
    exact ⟨rfl, rfl, rfl, rfl, rfl, rfl, rfl, rfl, rfl, rfl, bump_same ..⟩
  case refine_2 =>
    intro ref s hne
    have he : exec (.refWrite ref) s = .next (startSwitch ref s) := by
      have he : exec (.refWrite ref) s = execRefWrite ref s := rfl
      rw [he, execRefWrite, writeRef, if_pos hne]
    exact ⟨_, he, by simp, startSwitch_time ref s⟩
  case refine_3 =>
    intro s hslew
    have he : exec (.refWrite s.time.ref) s = execRefWrite s.time.ref s := rfl
    exact ⟨s, by rw [he, execRefWrite, writeRef, if_neg (not_not_intro rfl), if_neg (by simp [hslew])], rfl⟩
  case refine_4 =>
    intro s hslew htb
    have he : exec .slewComplete s = .next (s.modTime fun t => t.ticks ((t.slewRem.natAbs + 857) / 858)) := by
      have he : exec .slewComplete s = execSlewComplete s := rfl
      rw [he, execSlewComplete, if_pos ⟨hslew, by simp [htb]⟩]
    refine ⟨_, he, State.modTime_only _ (Only.refl _ s) (by simp), ?_⟩
    rw [State.modTime]
    dsimp only
    rw [Time.ticks, if_neg (by simp [htb]), slewGain_all]
    exact ⟨Int.sub_self _, by simp, rfl, rfl, rfl, rfl⟩
  case refine_5 =>
    intro k s hk hen hle h0 h1 h2
    have hquiet := firing_of_quiet (k := k) (t := (s.time.cmp k).time) (c := s.time.cmp k) (s := s.cmpFired k false) h0 h1 h2
    have hexec := exec_comparatorFire hk hen hle
    rw [hquiet] at hexec
    have hfired : (s.time.cmp k).hasFired false ((s.time.cmp k).next false s.time.tbNs) = { s.time.cmp k with
        en := (s.time.cmp k).periodic, fired := true,
        time := if (s.time.cmp k).periodic then (s.time.cmp k).time + (s.time.cmp k).period else (s.time.cmp k).time } := by
      simp [Comparator.hasFired, Comparator.next]
    refine ⟨_, hexec, ?_⟩
    have hrest : ∀ t : State, t.time = (s.cmpFired k false).time → (∀ j, j ≠ k → t.time.cmp j = s.time.cmp j) ∧ t.time.cmp k = { s.time.cmp k with
        en := (s.time.cmp k).periodic, fired := true,
        time := if (s.time.cmp k).periodic then (s.time.cmp k).time + (s.time.cmp k).period else (s.time.cmp k).time } := fun t ht => by
      rw [ht]
      exact ⟨fun j hj => cmpFired_cmp_other false s hj, (cmpFired_cmp_same k false s).trans hfired⟩
    by_cases h3 : (s.time.cmp k).dest.getLsbD 3 = true
    · rw [if_pos h3]
      exact ⟨note_only _ _ _ _ _ _ _ ((cmpFired_only k false s).mono (by simp)) (by simp),
        hrest _ ((note_only (qs := [.bki, .evr]) _ _ _ _ _ _ _ (Only.refl _ _) (by simp)).same .time (by decide))⟩
    · rw [if_neg h3]
      exact ⟨(cmpFired_only k false s).mono (by simp), hrest _ rfl⟩
  case refine_6 =>
    intro k s hk hen hle hdest hfollows
    have hfire : firing k (s.time.cmp k).time (s.time.cmp k) (s.cmpFired k false) = (s.cmpFired k false).modBki fun b => b.synced s.now := by
      have hsync : bkiSync (s.cmpFired k false) = (s.cmpFired k false).modBki fun b => b.synced s.now := if_pos hfollows
      unfold firing
      rw [hdest]
      exact hsync
    have hexec := (exec_comparatorFire hk hen hle).trans (congrArg Host.Outcome.next hfire)
    refine ⟨_, hexec, State.modBki_only _ ((cmpFired_only k false s).mono (by simp)) (by simp), rfl, rfl, ?_⟩
    exact (congrArg Comparator.fired (cmpFired_cmp_same k false s) :)
  case refine_7 =>
    intro k v s hk hnot
    have hcmp : (s.setCmp k (Comparator.written k v)).time.cmp k = (s.time.cmp k).written k v := cmp_setCmp_same ..
    have harm : armCmp k (s.setCmp k (Comparator.written k v)) = s.setCmp k (Comparator.written k v) := by
      have hstays : ¬(((s.time.cmp k).written k v).en = true ∧ ((s.time.cmp k).written k v).time ≤ s.time.tbNs) := by
        rintro ⟨hen, hle⟩
        rcases hnot with h | h
        · exact Bool.false_ne_true (h.symm.trans hen)
        · exact absurd hle (Nat.not_le.2 h)
      unfold armCmp
      dsimp only
      rw [hcmp]
      exact if_neg hstays
    refine ⟨_, (exec_trgCtlWrite v s hk).trans (congrArg Host.Outcome.next harm), State.setCmp_only _ _ _ (Only.refl _ s) (by simp),
      fun j hj => cmp_setCmp_other _ _ hj, ?_⟩
    rw [hcmp]
    exact ⟨rfl, rfl, rfl, rfl, rfl⟩
  case refine_8 =>
    intro k v s hk hen hper hdest hle
    obtain ⟨u, hu⟩ : ∃ u, s.setCmp k (Comparator.written k v) = u := ⟨_, rfl⟩
    have hcmp : u.time.cmp k = (s.time.cmp k).written k v := by
      rw [← hu]
      exact cmp_setCmp_same ..
    have htb : u.time.tbNs = s.time.tbNs := by rw [← hu]; rfl
    have hone : ((s.time.cmp k).written k v).dest = if k < 8 then 1 else 0 := by simp [Comparator.written, hdest]
    have hquiet : firing k (u.time.cmp k).time (u.time.cmp k) (u.cmpFired k true) = u.cmpFired k true := by
      have hbit : ∀ n, 0 < n → ((s.time.cmp k).written k v).dest.getLsbD n = false := fun n hn => by
        rw [hone]
        split
        · simp [Nat.ne_of_gt hn]
        · simp
      have h0 : ((s.time.cmp k).written k v).dest.getLsbD 0 = false ∨ k < 8 := by
        rw [hone]
        by_cases hlt : k < 8
        · exact .inr hlt
        · exact .inl (by rw [if_neg hlt]; rfl)
      rw [hcmp, firing_of_quiet h0 (hbit 1 (by decide)) (.inl (hbit 2 (by decide))), hbit 3 (by decide)]
      rfl
    have harm : armCmp k u = u.cmpFired k true := by
      have hdue : ((s.time.cmp k).written k v).en = true ∧ ((s.time.cmp k).written k v).time ≤ u.time.tbNs := ⟨hen, htb ▸ hle⟩
      unfold armCmp
      dsimp only
      rw [hcmp, if_pos hdue, fireCmp_eq, hquiet]
    have hexec := exec_trgCtlWrite v s hk
    rw [hu, harm] at hexec
    have hsame := cmpFired_cmp_same k true u
    rw [hcmp] at hsame
    refine ⟨_, hexec, ?_, ?_, (congrArg Comparator.fired hsame :), ?_, fun j hj => ?_⟩
    · have honly : Only [.time] s u := hu ▸ State.setCmp_only _ _ _ (Only.refl _ s) (by simp)
      exact honly.trans (cmpFired_only k true u)
    · rw [hsame]
      simp [Comparator.hasFired, Comparator.written, hper]
    · rw [hsame]
      simp [Comparator.hasFired]
    · rw [cmpFired_cmp_other true u hj, ← hu]
      exact cmp_setCmp_other _ _ hj
  case refine_9 =>
    intro s n hpps hn
    have he : exec .ppsEdge s = .next (ppsRise (s.untilTb n)) := by
      have he : exec .ppsEdge s = execPpsEdge s := rfl
      rw [he, execPpsEdge, if_pos hpps]
      exact congrArg Host.Outcome.next (if_pos hn)
    have hepoch := untilTb_keeps Time.stepEpoch (fun t k => (ticks_settings t k).1) s n
    have hen := (untilTb_keeps Time.ppsEn (fun t k => (ticks_settings t k).2.1) s n).trans hpps
    have hgate := untilTb_keeps Time.ppsGate (fun t k => (ticks_settings t k).2.2) s n
    obtain ⟨out, from_, hrise⟩ := ppsRise_time (s.untilTb n)
    refine ⟨_, he, ppsRise_only _ (State.untilTb_only s n (Only.refl _ s) (by simp)) (by simp), ?_, fun hg hok => ?_, fun hg => ?_⟩
    · rw [hrise]
      exact hepoch
    · exact if_neg (by simp [hgate, hg, hok])
    · rw [ppsRise, if_pos ⟨hen, by simp [hgate, hg]⟩]
      rfl
  case refine_10 =>
    intro s hout hdue
    have he : exec .ppsPulseEnd s = execPpsPulseEnd s := rfl
    exact ⟨_, by rw [he, execPpsPulseEnd, if_pos hout, whenDue_now _ hdue], State.modTime_only _ (Only.refl _ s) (by simp), rfl⟩
  case refine_11 =>
    intro e q s hq hmgp hg hring
    obtain ⟨honly, htime, hdesc, hdram⟩ := stampWritten_spec s e q
    have hexec := exec_stampDeliver hq hmgp hg hring
    have hread := fun p => stampWritten_read1 s e q (p := p)
    generalize s.stampWritten e q = u at honly htime hdesc hdram hexec hread
    have hqueue : u.time.stampQ = q := by rw [htime]; rfl
    exact ⟨_, hexec, State.modTime_only _ honly (by simp), hqueue, Tbl.get_set_same .., hdram, hdesc, hread⟩
  case refine_12 =>
    intro e q s hq hmgp hg
    refine ⟨_, exec_stampDeliver_late hq hmgp hg, ?_, rfl, rfl, rfl, bump_same .., ?_⟩
    · exact lateAt_only _ _ _ _ (tbuCount_only _ _ _ (State.modTime_only _ (Only.refl _ s) (by simp)) (by simp)) (by simp)
    · exact (congrArg FaultSet.late (Tbl.get_set_same ..) :)

end Sys2Proof.Machine
end

section
/-!
PROOFS. The two time domains (R278, R288 to R292): what a Sync, an Announce, the peer delay and the timers of a domain write. The obligation O42.
-/
namespace Sys2Proof.Machine
open Sys2Proof

/-! ### Domains and PTP ports after a write -/

theorem dom_setDom_same (s : State) (b : Bool) (f : Domain → Domain) : (s.setDom b f).time.dom b = f (s.time.dom b) := by cases b <;> rfl

theorem dom_setDom_other (s : State) (b : Bool) (f : Domain → Domain) : (s.setDom b f).time.dom (!b) = s.time.dom (!b) := by cases b <;> rfl

theorem ptp_setPtp_same (s : State) (k : Nat) (f : PtpPort → PtpPort) : (s.setPtp k f).ptp k = f (s.ptp k) := by simp [State.setPtp, State.ptp]

theorem ptp_setPtp_other (s : State) {k j : Nat} (f : PtpPort → PtpPort) (h : j ≠ k) : (s.setPtp k f).ptp j = s.ptp j := by
  simp [State.setPtp, State.ptp, Tbl.get_mod_other _ _ _ _ h]

/-- The time base without its domains, its frequency and its counters. -/
def Time.frame (t : Time) : Time := { t with domA := {}, domB := {}, incr := 0, live := [] }

theorem setDom_frame (s : State) (b : Bool) (f : Domain → Domain) : (s.setDom b f).time.frame = s.time.frame := by cases b <;> rfl

theorem setDom_incr (s : State) (b : Bool) (f : Domain → Domain) : (s.setDom b f).time.incr = s.time.incr := by cases b <;> rfl

/-! ### A Sync (R289, R290) -/

section
variable {k : Nat} {b : Bool} {m : SyncMsg} {s : State}

/-- A Sync is noted in its domain, with its interval (R289). -/
def State.syncNoted (s : State) (b : Bool) (interval : Nat) : State := s.setDom b fun d => { d with lastSync := s.now, syncNs := interval }

theorem exec_syncMessage (hears : s.ptpHears k m.dst ptpAddr = true) (hstamps : (s.port k).stampsOff = false)
    (hint : syncIntervals.contains m.intervalNs = true) (hdom : domainsOf m.domain s = [b]) (hslave : (s.time.dom b).slave = some k)
    (hgm : (s.time.dom b).gm = some m.source) : exec (.syncMessage k m) s =
      .next (if s.persist.fwUp then servoTakes b (rawOffset k m s) (s.syncNoted b m.intervalNs) else s.syncNoted b m.intervalNs) := by
  have he : exec (.syncMessage k m) s = execSyncMessage k m s := rfl
  have hraw : rawOffset k m (s.syncNoted b m.intervalNs) = rawOffset k m s := by cases b <;> rfl
  rw [he, execSyncMessage, if_pos ⟨hears, by simp [hstamps], hint⟩, hdom, ← hraw]
  exact congrArg Host.Outcome.next (if_pos ⟨hslave, hgm⟩)

theorem exec_syncMessage_unheard (h : s.ptpHears k m.dst ptpAddr = false ∨ (s.port k).stampsOff = true) : exec (.syncMessage k m) s =
    .next s := by
  have he : exec (.syncMessage k m) s = execSyncMessage k m s := rfl
  rw [he, execSyncMessage, if_neg]
  rintro ⟨hh, hs, -⟩
  rcases h with h | h
  · simp [h] at hh
  · simp [h] at hs

end

/-! ### The servo (R289 to R292) -/

/-- A domain that comes back to LOCKING begins its counts anew (R289). -/
def Domain.resumed (d : Domain) : Domain := if d.state = 1 ∨ d.state = 2 then d else { d with good := 0, far := 0 }

section
variable (s : State) (b : Bool) (raw : Int)

/-- The target of a domain's offsets (R290). -/
def State.servoTarget : Int := if b == s.time.refAct then s.time.slewRem / 65536 else meanOf ((raw :: (s.time.dom b).hist).take 16)

/-- A domain judged by an offset. -/
def State.servoJudged : Domain := (s.time.dom b).resumed.judge raw (s.servoTarget b raw) s.time.stepThrUs

/-- The reference is stepped at this offset (R292). -/
def State.servoSteps : Bool :=
  (b == s.time.refAct) && (((s.time.dom b).resumed.state == 0 || (s.time.dom b).resumed.state == 3)
      && (decide (s.time.stepThrUs * 1000 * 65536 < (raw - s.servoTarget b raw).natAbs) || !(s.time.dom b).resumed.locked)
    || decide (4 ≤ (s.servoJudged b raw).far))

/-- A domain after an offset (R289). -/
def State.servoDomain : Domain := { s.servoJudged b raw with
  hist := (raw :: (s.time.dom b).hist).take 16
  state := if (s.time.dom b).resumed.state ≠ 2 ∧ !((b == s.time.refAct) || decide (16 ≤ ((raw :: (s.time.dom b).hist).take 16).length)) then 1
    else (s.servoJudged b raw).state
  far := if s.servoSteps b raw then 0 else (s.servoJudged b raw).far }

/-- A Sync taken by the servo, the step and the automatic switch apart. -/
def State.servoed : State := tbuCount (b2n b) (servoWrites b (s.setDom b fun _ => s.servoDomain b raw))

theorem servoTakes_eq : servoTakes b raw s =
    autoSwitch (if s.servoSteps b raw then doStep (roundInt raw 65536) (s.servoed b raw) else s.servoed b raw) := rfl

theorem servoDomain_of_locking (hb : b ≠ s.time.refAct) (hstate : (s.time.dom b).state = 1) (hgood : 15 ≤ (s.time.dom b).good)
    (hhist : 15 ≤ (s.time.dom b).hist.length) (hnear : (raw - meanOf ((raw :: (s.time.dom b).hist).take 16)).natAbs ≤ 100 * 65536) :
    (s.servoDomain b raw).state = 2 ∧ s.servoSteps b raw = false := by
  have href : (b == s.time.refAct) = false := beq_eq_false_iff_ne.2 hb
  have hres : (s.time.dom b).resumed = s.time.dom b := if_pos (.inl hstate)
  have htarget : s.servoTarget b raw = meanOf ((raw :: (s.time.dom b).hist).take 16) := by rw [State.servoTarget, href]; rfl
  have hjudged : (s.servoJudged b raw).state = 2 := by
    have hrun : 16 ≤ (s.time.dom b).good + 1 := Nat.succ_le_succ hgood
    simp only [State.servoJudged, Domain.judge, hres, htarget, if_pos hnear, hstate, if_pos hrun]
    rfl
  have hfull : decide (16 ≤ ((raw :: (s.time.dom b).hist).take 16).length) = true := by
    simp only [List.length_take, List.length_cons, decide_eq_true_eq]
    omega
  refine ⟨?_, by rw [State.servoSteps, href, Bool.false_and]⟩
  unfold State.servoDomain
  dsimp only
  rw [hfull, Bool.or_true, if_neg (by simp)]
  exact hjudged

theorem Domain.resumed_lastSync (d : Domain) : d.resumed.lastSync = d.lastSync := by
  unfold Domain.resumed
  split <;> rfl

theorem servoDomain_lastSync : (s.servoDomain b raw).lastSync = (s.time.dom b).lastSync := Domain.resumed_lastSync _

theorem Domain.judge_state_ne_three (d : Domain) (x t : Int) (thr : Nat) : (d.judge x t thr).state ≠ 3 := by
  unfold Domain.judge
  dsimp only
  repeat' split
  all_goals decide

/-- The reference that runs free and has never been locked is stepped, and starts to lock (R292). -/
theorem servoDomain_of_free (hb : b = s.time.refAct) (hstate : (s.time.dom b).state = 0) (hlocked : (s.time.dom b).locked = false) :
    s.servoSteps b raw = true ∧ (s.servoDomain b raw).state ≠ 3 := by
  have hres : (s.time.dom b).resumed = { s.time.dom b with good := 0, far := 0 } := if_neg (by simp [hstate])
  constructor
  · simp [State.servoSteps, hres, ← hb, hstate, hlocked]
  · unfold State.servoDomain
    dsimp only
    split
    · decide
    · exact Domain.judge_state_ne_three _ _ _ _

theorem setIncr_frame (i : Int) : (s.setIncr i).time.frame = s.time.frame ∧ ∀ c, (s.setIncr i).time.dom c = s.time.dom c := by
  unfold State.setIncr
  split
  · exact ⟨rfl, fun c => by cases c <;> rfl⟩
  · exact ⟨rfl, fun _ => rfl⟩

/-- What the servo writes at an offset: the filtered offset, and for the reference INCR (R290). -/
theorem servoWrites_spec : (servoWrites b s).time.frame = s.time.frame
    ∧ (∃ f, (servoWrites b s).time.dom b = { s.time.dom b with ofs := f })
    ∧ (servoWrites b s).time.dom (!b) = s.time.dom (!b) ∧ (b ≠ s.time.refAct → (servoWrites b s).time.incr = s.time.incr) := by
  have htook : ∀ u : State, u.took.time = u.time := fun _ => rfl
  have href : ∀ f, (s.took.setDom b f).time.refAct = s.time.refAct := fun f => by cases b <;> rfl
  unfold servoWrites
  dsimp only
  rw [href]
  split
  next h =>
    obtain ⟨hframe, hdom⟩ := setIncr_frame (s.took.setDom b fun d => { d with ofs := signed 64 s.free1 * 65536 }).took
      (incrOf (signed 52 (s.took.setDom b fun d => { d with ofs := signed 64 s.free1 * 65536 }).free1))
    refine ⟨?_, ⟨signed 64 s.free1 * 65536, ?_⟩, ?_, fun hne => absurd h hne⟩
    · rw [hframe, htook, setDom_frame, htook]
    · rw [hdom, htook, dom_setDom_same, htook]
    · rw [hdom, htook, dom_setDom_other, htook]
  next =>
    refine ⟨?_, ⟨signed 64 s.free1 * 65536, ?_⟩, ?_, fun _ => ?_⟩
    · rw [setDom_frame, htook]
    · rw [dom_setDom_same, htook]
    · rw [dom_setDom_other, htook]
    · rw [setDom_incr, htook]

/-- The time base once the servo has taken an offset, the step and the automatic switch apart. -/
theorem servoed_spec : (s.servoed b raw).time.frame = s.time.frame
    ∧ (∃ f, (s.servoed b raw).time.dom b = { s.servoDomain b raw with ofs := f })
    ∧ (s.servoed b raw).time.dom (!b) = s.time.dom (!b) ∧ (b ≠ s.time.refAct → (s.servoed b raw).time.incr = s.time.incr) := by
  obtain ⟨hframe, ⟨f, hdom⟩, hother, hincr⟩ := servoWrites_spec (s.setDom b fun _ => s.servoDomain b raw) b
  have hcount : ∀ (u : State) c, (tbuCount (b2n b) u).time.frame = u.time.frame ∧ (tbuCount (b2n b) u).time.dom c = u.time.dom c
      ∧ (tbuCount (b2n b) u).time.incr = u.time.incr := fun u c => ⟨rfl, by cases c <;> rfl, rfl⟩
  have href : (s.setDom b fun _ => s.servoDomain b raw).time.refAct = s.time.refAct := by cases b <;> rfl
  rw [dom_setDom_same] at hdom
  rw [dom_setDom_other] at hother
  rw [setDom_incr, href] at hincr
  rw [State.servoed, (hcount _ b).1, (hcount _ b).2.1, (hcount _ (!b)).2.1, (hcount _ b).2.2]
  exact ⟨hframe.trans (setDom_frame ..), ⟨f, hdom⟩, hother, hincr⟩

theorem servoed_only : Only [.time, .free] s (s.servoed b raw) :=
  tbuCount_only _ _ _ (servoWrites_only b _ (State.setDom_only _ b _ (Only.refl _ s) (by simp)) (by simp)) (by simp)

end

/-! ### The automatic switch (R294) -/

/-- A switch of the reference leaves the domains, TB and its frequency. -/
theorem writeRef_time (ref : Bool) (s : State) : ∃ r a rem slewing live, (writeRef ref s).time =
    { s.time with ref := r, refAct := a, slewRem := rem, slewing := slewing, live := live } := by
  unfold writeRef
  split
  · rw [startSwitch_time]
    exact ⟨_, _, _, _, _, rfl⟩
  · split
    · exact ⟨_, _, _, _, _, rfl⟩
    · exact ⟨_, _, _, _, _, rfl⟩

theorem autoSwitch_time (s : State) : ∃ r a rem slewing live, (autoSwitch s).time =
    { s.time with ref := r, refAct := a, slewRem := rem, slewing := slewing, live := live } := by
  unfold autoSwitch
  dsimp only
  split
  · exact writeRef_time ..
  · exact ⟨_, _, _, _, _, rfl⟩

theorem autoSwitch_of_held {s : State} (h : (s.time.dom s.time.refAct).state ≠ 3 ∨ s.time.autoSwitch = false) : autoSwitch s = s := by
  unfold autoSwitch
  dsimp only
  rw [if_neg]
  rintro ⟨hauto, -, hstate, -⟩
  rcases h with h | h
  · exact h hstate
  · exact Bool.false_ne_true (h.symm.trans hauto)

/-! ### Best masters (R289) -/

/-- A candidate that has not expired is the best where it is the only one, of a port that the servo uses. -/
theorem reselect_of_one {b : Bool} {s : State} {a : Announce} (hbest : (s.time.dom b).best = [a]) (hlive : s.now < a.expires s.time)
    (hen : (s.ptp a.port).ptpEn = true) (huse : (s.ptp a.port).usable = true) : reselect b s = s.setDom b fun d => { d with
      best := [a], slave := some a.port, gm := some a.gm,
      state := if (s.time.dom b).gm.isSome && (s.time.dom b).gm != some a.gm then 0 else d.state,
      hist := if (s.time.dom b).gm.isSome && (s.time.dom b).gm != some a.gm then [] else d.hist,
      good := if (s.time.dom b).gm.isSome && (s.time.dom b).gm != some a.gm then 0 else d.good,
      far := if (s.time.dom b).gm.isSome && (s.time.dom b).gm != some a.gm then 0 else d.far } := by
  have hcs : (s.time.dom b).best.filter (fun a => decide (s.now < a.expires s.time)) = [a] := by simp [hbest, hlive]
  unfold reselect
  dsimp only
  rw [hcs, List.filter_cons_of_pos (by simp [hen, huse])]
  rfl

theorem reselect_of_none {b : Bool} {s : State} (hbest : (s.time.dom b).best = []) :
    reselect b s = s.setDom b fun d => { d with best := [], slave := none } := by
  unfold reselect
  dsimp only
  rw [hbest]
  rfl

theorem bestOf_mem {l : List Announce} {a : Announce} (h : bestOf l = some a) : a ∈ l := by
  induction l with
  | nil => cases h
  | cons x l ih =>
    unfold bestOf at h
    split at h
    next y hy =>
      split at h
      · cases h
        exact List.mem_cons_of_mem _ (ih hy)
      · cases h
        exact List.mem_cons_self
    next =>
      cases h
      exact List.mem_cons_self

/-- No domain follows a port that the servo does not use (R288). -/
theorem reselect_slave {b : Bool} {k : Nat} {s : State} (h : (s.ptp k).usable = false) : ((reselect b s).time.dom b).slave ≠ some k := by
  unfold reselect
  dsimp only
  split
  next a ha =>
    rw [dom_setDom_same]
    intro hk
    have hport : a.port = k := Option.some.inj hk
    obtain ⟨-, huse⟩ := List.mem_filter.1 (bestOf_mem ha)
    simp [hport, h] at huse
  next =>
    rw [dom_setDom_same]
    exact nofun

theorem reselect_rest (b : Bool) (s : State) : (reselect b s).time.frame = s.time.frame ∧ (reselect b s).time.live = s.time.live
    ∧ (reselect b s).time.dom (!b) = s.time.dom (!b) ∧ ∀ k, (reselect b s).ptp k = s.ptp k := by
  have hset : ∀ f, (s.setDom b f).time.frame = s.time.frame ∧ (s.setDom b f).time.live = s.time.live
      ∧ (s.setDom b f).time.dom (!b) = s.time.dom (!b) ∧ ∀ k, (s.setDom b f).ptp k = s.ptp k := fun f => by
    cases b <;> exact ⟨rfl, rfl, rfl, fun _ => rfl⟩
  unfold reselect
  dsimp only
  split
  · exact hset _
  · exact hset _

/-! ### A frame of the peer delay (R288) -/

section
variable {f : Stored} {ds : List Dest} {s : State}

/-- A frame whose copies all go to ports leaves the conditioning and acquisition engines alone. -/
theorem storeFrame_only_of_ports (hds : ∀ d ∈ ds, ∃ k c, d = .port k c) :
    Only [.time, .ports, .sw, .insts, .cgu, .mbx, .evr, .bki] s (storeFrame f 0xFFFF 0 ds s) := by
  have hroom : Only [.time, .ports, .sw, .insts, .cgu, .mbx, .evr, .bki] s (makeRoom (frameClass f.cls ds) f.cells s.sw.store.length s) :=
    makeRoom_only _ _ _ _ (Only.refl _ s) (by simp)
  unfold storeFrame
  split
  · exact Only.refl _ s
  · dsimp only
    split
    · refine swCount_only _ _ _ (List.foldlRecOn ds _ hroom fun t ht d hd => ?_) (by simp)
      obtain ⟨k, c, rfl⟩ := hds d hd
      exact unsent_only c t ht (by simp)
    · refine List.foldlRecOn ds _ (entryHold_only _ _ _ (State.modSw_only _ hroom (by simp)) (by simp)) fun t ht d hd => ?_
      obtain ⟨k, c, rfl⟩ := hds d hd
      exact enqueue_only k _ t ht (by simp)

/-- A copy that is queued on another port leaves this port's queues. -/
theorem enqueue_port_other {k j : Nat} (c : TxCopy) (h : j ≠ k) : (enqueue k c s).port j = s.port j := by
  have hdrop : ∀ i, (txDrop k i c s).port j = s.port j := fun i => by
    rw [txDrop_port, portCount]
    exact s.port_setPort_other _ h
  unfold enqueue
  dsimp only
  split
  · exact hdrop 31
  · split
    · exact hdrop 36
    · exact s.port_setPort_other _ h

/-- With room a frame's copy for a port that is up stands in the queue of its class, whatever goes to the other ports. -/
theorem storeFrame_queues {k : Nat} {c : TxCopy} (hroom : f.cells ≤ s.sw.freeCells) (hlink : (s.port k).link = true) (htx : (s.port k).txEn =
    true)
    (hds : ∀ d ∈ ds, ∃ j x, d = .port j x ∧ j ≠ k) :
    { c with frame := s.sw.nextFrame, entry := 0xFFFF, gen := 0 } ∈
      ((storeFrame f 0xFFFF 0 (.port k c :: ds) s).port k).queues.get c.cls [] := by
  unfold storeFrame
  rw [if_neg (List.cons_ne_nil _ _)]
  dsimp only
  rw [makeRoom_of_room _ hroom, if_neg (Nat.not_lt.2 hroom), List.foldl_cons]
  refine List.foldlRecOn ds _ (motive := fun t : State => _ ∈ (t.port k).queues.get c.cls []) ?_ fun t ht d hd => ?_
  · rw [deliver]
    generalize hu : entryHold 0xFFFF _ _ = u
    have hport : u.port k = s.port k := by
      rw [← hu]
      exact port_of_only (entryHold_only (qs := [.sw]) _ _ _ (State.modSw_only _ (Only.refl _ s) (by simp)) (by simp)) (by decide)
    rw [enqueue_of_up (by rw [hport]; exact hlink) (by rw [hport]; exact htx), State.port_setPort_same, Tbl.get_mod_same]
    exact mem_queueIn ..
  · obtain ⟨j, x, rfl, hj⟩ := hds d hd
    rw [deliver, enqueue_port_other _ hj.symm]
    exact ht

end

/-- A list that takes an item only where nothing like it stands there yet holds nothing but items of the list it reads. -/
theorem mem_of_mem_taken {α : Type} {p : α → List α → Bool} {l : List α} {acc : List α} {x : α}
    (h : x ∈ l.foldl (fun acc q => if p q acc then acc else acc ++ [q]) acc) : x ∈ acc ∨ x ∈ l := by
  induction l generalizing acc with
  | nil => exact .inl h
  | cons y l ih =>
    rcases ih h with hx | hx
    · dsimp only at hx
      split at hx
      · exact .inl hx
      · rcases List.mem_append.1 hx with hx | hx
        · exact .inl hx
        · exact .inr (List.mem_cons.2 (.inl (List.mem_singleton.1 hx)))
    · exact .inr (List.mem_cons_of_mem _ hx)

/-- Mirror copies of what a port sends go to other ports (R136). -/
theorem mirrorDests_of_sent {k code : Nat} {s : State} {d : Dest} (h : d ∈ mirrorDests none [k] none code s) : ∃ j x, d = .port j x ∧ j ≠ k := by
  obtain ⟨q, hq, rfl⟩ := List.mem_map.1 h
  rcases mem_of_mem_taken (p := fun (q : MirSession) (acc : List MirSession) => acc.any fun r => r.dest == q.dest) hq with hq | hq
  · cases hq
  · obtain ⟨m, -, hm⟩ := List.mem_filterMap.1 hq
    obtain ⟨hsel, hq⟩ := Option.ite_none_right_eq_some.1 hm
    have hmir : s.sw.mir.getD m {} = q := Option.some.inj hq
    refine ⟨_, _, rfl, fun hk => ?_⟩
    rw [hmir] at hsel
    simp [hk] at hsel

/-- The peer-delay message of a port, as the TBU sends it from the port's own address (R288, R522). -/
theorem pdSend_spec (m : PdMsg) (s : State) : Only [.time, .ports, .sw, .insts, .cgu, .mbx, .evr, .bki] s (pdSend m s)
    ∧ (pdSend m s).clk = s.clk
    ∧ (1 ≤ s.sw.freeCells → (s.port m.port).link = true → (s.port m.port).txEn = true →
        ∃ c ∈ ((pdSend m s).port m.port).queues.get (s.ptp m.port).tcClass [], c.pd = some { m with src := s.blockMac m.port }) := by
  have hcells : cellsOf (({ m with src := s.blockMac m.port } : PdMsg).octets.length + 4) = 1 := by
    have hlen : ({ m with src := s.blockMac m.port } : PdMsg).octets.length = 68 := by simp [PdMsg.octets, beBytes]
    rw [hlen]
    rfl
  unfold pdSend
  refine ⟨storeFrame_only_of_ports fun d hd => ?_, storeFrame_clk .., fun hroom hlink htx =>
    ⟨_, storeFrame_queues (Nat.le_trans (Nat.le_of_eq hcells) hroom) hlink htx fun d hd => mirrorDests_of_sent hd, rfl⟩⟩
  rcases List.mem_cons.1 hd with rfl | hd
  · exact ⟨_, _, rfl⟩
  · obtain ⟨j, x, hd, -⟩ := mirrorDests_of_sent hd
    exact ⟨j, x, hd⟩

theorem ptp_of_clk {s t : State} (h : t.clk = s.clk) (k : Nat) : t.ptp k = s.ptp k := by
  have hports : t.time.ports = s.time.ports := (congrArg Time.ports h :)
  rw [State.ptp, State.ptp, hports]

theorem dom_of_clk {s t : State} (h : t.clk = s.clk) (b : Bool) : t.time.dom b = s.time.dom b := by
  cases b
  · exact (congrArg Time.domA h :)
  · exact (congrArg Time.domB h :)

/-- Two steps of the best-master choice, for one domain and then for the other. -/
theorem reselect_both (s : State) : (reselect true (reselect false s)).time.frame = s.time.frame
    ∧ (reselect true (reselect false s)).time.live = s.time.live ∧ ∀ k, (reselect true (reselect false s)).ptp k = s.ptp k := by
  obtain ⟨hframe, hlive, -, hptp⟩ := reselect_rest true (reselect false s)
  obtain ⟨hframe', hlive', -, hptp'⟩ := reselect_rest false s
  exact ⟨hframe.trans hframe', hlive.trans hlive', fun k => (hptp k).trans (hptp' k)⟩

/-- The third request in a row without a response leaves the port out of every domain (R288). -/
theorem pdelayMissed_third {k : Nat} {s : State} (h : (s.ptp k).missed = 2) :
    ((pdelayMissed k s).ptp k).usable = false ∧ ((pdelayMissed k s).ptp k).linkDelay = (s.ptp k).linkDelay
    ∧ (∀ b, ((pdelayMissed k s).time.dom b).slave ≠ some k) ∧ (pdelayMissed k s).time.live = bump s.time.live 8 := by
  have hmissed : pdelayMissed k s = reselect true (reselect false (tbuCount 8
      (s.setPtp k fun p => { p with missed := 3, usable := false }))) := by
    simp [pdelayMissed, h]
  have hptp : ∀ u : State, (tbuCount 8 u).ptp k = u.ptp k := fun _ => rfl
  have husable : ((tbuCount 8 (s.setPtp k fun p => { p with missed := 3, usable := false })).ptp k).usable = false := by
    rw [hptp, ptp_setPtp_same]
  obtain ⟨-, hlive, hkeep⟩ := reselect_both (tbuCount 8 (s.setPtp k fun p => { p with missed := 3, usable := false }))
  obtain ⟨-, -, hother, hkeepA⟩ := reselect_rest true (reselect false (tbuCount 8 (s.setPtp k fun p => { p with missed := 3, usable := false })))
  rw [hmissed, hkeep, hlive]
  refine ⟨husable, by rw [hptp, ptp_setPtp_same], fun b => ?_, rfl⟩
  cases b with
  | true =>
    refine reselect_slave ?_
    rw [← hkeepA, hkeep]
    exact husable
  | false =>
    rw [Bool.not_true] at hother
    rw [hother]
    exact reselect_slave husable

/-- A request of the peer delay as the port of these settings sends it (R288). -/
def State.requested (k : Nat) (p : PtpPort) (s : State) : State :=
  let t := pdSend { port := k, domain := s.time.domA.num, pcp := p.pcp, untagged := p.untagged, seq := p.reqSeq } s
  t.setPtp k fun p => { p with reqOut := true, reqStamp := t.now, reqSeq := (p.reqSeq + 1) % 65536 }

theorem requested_spec (k : Nat) (p : PtpPort) (s : State) :
    Only [.time, .ports, .sw, .insts, .cgu, .mbx, .evr, .bki] s (State.requested k p s)
    ∧ (State.requested k p s).ptp k = { s.ptp k with reqOut := true, reqStamp := s.now, reqSeq := ((s.ptp k).reqSeq + 1) % 65536 }
    ∧ (∀ j, j ≠ k → (State.requested k p s).ptp j = s.ptp j) ∧ (∀ b, (State.requested k p s).time.dom b = s.time.dom b)
    ∧ (State.requested k p s).time.live = s.time.live := by
  obtain ⟨honly, hclk, -⟩ := pdSend_spec { port := k, domain := s.time.domA.num, pcp := p.pcp, untagged := p.untagged, seq := p.reqSeq } s
  have hset : ∀ (u : State) f, (∀ b, (u.setPtp k f).time.dom b = u.time.dom b) ∧ (u.setPtp k f).time.live = u.time.live := fun _ _ =>
    ⟨fun b => by cases b <;> rfl, rfl⟩
  unfold State.requested
  dsimp only
  rw [ptp_setPtp_same, ptp_of_clk hclk, now_of_clk hclk]
  refine ⟨State.setPtp_only _ _ _ honly (by simp), rfl, fun j hj => ?_, fun b => ?_, ?_⟩
  · rw [ptp_setPtp_other _ _ hj, ptp_of_clk hclk]
  · rw [(hset _ _).1, dom_of_clk hclk]
  · rw [(hset _ _).2]
    exact (congrArg Time.live hclk :)

/-- A request of the peer delay that is due is sent, once a missing response has been counted (R288). -/
theorem exec_pdelayReqSend {k : Nat} {s : State} (hk : k < 6) (hen : (s.ptp k).ptpEn = true) (hpd : (s.ptp k).pdelayEn = true)
    (hlink : (s.port k).link = true) (hdue : (s.ptp k).reqStamp = 0 ∨ (s.ptp k).reqStamp + sec 1 ≤ s.now) :
    exec (.pdelayReqSend k) s = .next (State.requested k (s.ptp k) (if (s.ptp k).reqOut then pdelayMissed k s else s)) := by
  have he : exec (.pdelayReqSend k) s = execPdelayReqSend k s := rfl
  have hinst : (if (s.ptp k).reqStamp = 0 then 0 else (s.ptp k).reqStamp + sec 1) ≤ s.now := by
    split
    · exact Nat.zero_le _
    · exact hdue.resolve_left ‹_›
  rw [he, execPdelayReqSend]
  dsimp only
  rw [if_pos ⟨hk, hen, hpd, hlink⟩, whenDue_now _ hinst]
  rfl

/-- A step leaves where the domains stand. -/
theorem dom_stepped_state (t : Time) (ns : Int) (out : Bool) (from_ : Nat) (b : Bool) :
    (({ t.stepped ns with ppsOut := out, ppsFrom := from_ } : Time).dom b).state = (t.dom b).state := by cases b <;> rfl

/-- An Announce taken as a candidate of a domain, in place of the last one of its port and source (R289). -/
def State.candidate (s : State) (b : Bool) (a : Announce) : State := s.setDom b fun d => { d with
  best := d.best.filter (fun x => x.port ≠ a.port ∨ x.source ≠ a.source) ++ [a] }

theorem candidate_keeps (s : State) (b : Bool) (a : Announce) : (s.candidate b a).now = s.now
    ∧ (s.candidate b a).time.annTimeout = s.time.annTimeout ∧ (s.candidate b a).time.tbNs = s.time.tbNs ∧ ∀ k, (s.candidate b a).ptp k =
        s.ptp k := by
  cases b <;> exact ⟨rfl, rfl, rfl, fun _ => rfl⟩

/-- A response of the peer delay on a port, as the hardware and the servo note it (R288). -/
def State.responded (s : State) (k : Nat) : State :=
  let t := s.setPtp k fun p => { p with reqOut := false, missed := 0, usable := true }
  if t.persist.fwUp ∧ !(t.port k).stampsOff then t.took.setPtp k fun p => { p with linkDelay := t.free1 % 2 ^ 32 } else t

theorem responded_only (s : State) (k : Nat) : Only [.time, .free] s (s.responded k) := by
  have hset : Only [.time, .free] s (s.setPtp k fun p => { p with reqOut := false, missed := 0, usable := true }) :=
    State.setPtp_only _ _ _ (Only.refl _ s) (by simp)
  unfold State.responded
  dsimp only
  split
  · exact State.setPtp_only _ _ _ (State.took_only _ hset (by simp)) (by simp)
  · exact hset

theorem responded_ptp (s : State) (k : Nat) : ((s.responded k).ptp k).reqOut = false ∧ ((s.responded k).ptp k).missed = 0
    ∧ ((s.responded k).ptp k).usable = true
    ∧ (s.persist.fwUp = false ∨ (s.port k).stampsOff = true → ((s.responded k).ptp k).linkDelay = (s.ptp k).linkDelay)
    ∧ ∀ j, j ≠ k → (s.responded k).ptp j = s.ptp j := by
  have htook : ∀ (u : State) j, u.took.ptp j = u.ptp j := fun _ _ => rfl
  unfold State.responded
  dsimp only
  split
  next h =>
    rw [ptp_setPtp_same, htook, ptp_setPtp_same]
    refine ⟨rfl, rfl, rfl, fun hoff => ?_, fun j hj => ?_⟩
    · obtain ⟨hfw, hstamps⟩ : s.persist.fwUp = true ∧ (!(s.port k).stampsOff) = true := h
      rcases hoff with hoff | hoff <;> simp [hoff] at hfw hstamps
    · rw [ptp_setPtp_other _ _ hj, htook, ptp_setPtp_other _ _ hj]
  next =>
    rw [ptp_setPtp_same]
    exact ⟨rfl, rfl, rfl, fun _ => rfl, fun j hj => ptp_setPtp_other _ _ hj⟩

/-- A domain that enters HOLDOVER, with the event that tells of it (R289). -/
def State.heldOver (s : State) (b : Bool) : State :=
  note .tbu 0 0x382 0 .none (leBytes 1 (b2n b)) (tbuCount 12 (s.setDom b fun d => { d with
    state := 3, holdAt := s.now, good := 0, far := 0, hist := [] }))

theorem heldOver_only (s : State) (b : Bool) : Only [.time, .bki, .evr] s (s.heldOver b) :=
  note_only _ _ _ _ _ _ _ (tbuCount_only _ _ _ (State.setDom_only _ b _ (Only.refl _ s) (by simp)) (by simp)) (by simp)

theorem heldOver_time (s : State) (b : Bool) : (s.heldOver b).time = { (s.setDom b fun d => { d with
    state := 3, holdAt := s.now, good := 0, far := 0, hist := [] }).time with live := bump s.time.live 12 } := by
  have hnote : Only [.bki, .evr] (tbuCount 12 (s.setDom b fun d => { d with state := 3, holdAt := s.now, good := 0, far := 0, hist := [] }))
      (s.heldOver b) := note_only _ _ _ _ _ _ _ (Only.refl _ _) (by simp)
  rw [hnote.same .time (by decide)]
  cases b <;> rfl

/-! ### The obligation -/

/-- Settles O42. -/
theorem domainsFollowTheirMasters : Obligations.DomainsFollowTheirMasters := by
  refine ⟨?_, ?_, ?_, ?_, ?_, ?_, ?_, ?_, ?_, ?_⟩
  case refine_1 =>
    intro k b m s hears hstamps hint hdom hslave hgm hfw
    have he := exec_syncMessage hears hstamps hint hdom hslave hgm
    rw [if_neg (by simp [hfw])] at he
    exact ⟨_, he, State.setDom_only _ b _ (Only.refl _ s) (by simp), dom_setDom_same .., dom_setDom_other .., (congrArg Time.tbNs
        (setDom_frame ..) :),
      setDom_incr ..⟩
  case refine_2 => exact fun k m s h => ⟨s, exec_syncMessage_unheard h, rfl⟩
  case refine_3 =>
    intro k b m s hears hstamps hint hdom hslave hgm hfw hb hstate hgood hhist hnear
    have he := exec_syncMessage hears hstamps hint hdom hslave hgm
    rw [if_pos hfw] at he
    have hnoted : (s.syncNoted b m.intervalNs).time.dom b = { s.time.dom b with lastSync := s.now, syncNs := m.intervalNs } := dom_setDom_same ..
    have hframe : (s.syncNoted b m.intervalNs).time.frame = s.time.frame := setDom_frame ..
    have hincr : (s.syncNoted b m.intervalNs).time.incr = s.time.incr := setDom_incr ..
    have honly : Only [.time] s (s.syncNoted b m.intervalNs) := State.setDom_only _ b _ (Only.refl _ s) (by simp)
    generalize s.syncNoted b m.intervalNs = u at he hnoted hframe hincr honly
    generalize rawOffset k m s = raw at he hnear
    have href : u.time.refAct = s.time.refAct := (congrArg Time.refAct hframe :)
    have hbu : b ≠ u.time.refAct := by rw [href]; exact hb
    obtain ⟨hlocked, hsteps⟩ := servoDomain_of_locking u b raw hbu (by rw [hnoted]; exact hstate) (by rw [hnoted]; exact hgood)
      (by rw [hnoted]; exact hhist) (by rw [hnoted]; exact hnear)
    rw [servoTakes_eq, if_neg (by simp [hsteps])] at he
    obtain ⟨hframe', ⟨f, hdomB⟩, -, hincr'⟩ := servoed_spec (b := b) (raw := raw) (s := u)
    obtain ⟨r, a, rem, slewing, live, hswitch⟩ := autoSwitch_time (u.servoed b raw)
    refine ⟨_, he, autoSwitch_only _ (Only.trans (honly.mono (by decide)) ((servoed_only u b raw).mono (by decide))) (by simp), ?_⟩
    have hdom' : (autoSwitch (u.servoed b raw)).time.dom b = (u.servoed b raw).time.dom b := by rw [hswitch]; cases b <;> rfl
    rw [hdom', hdomB, hswitch]
    have hlast : (u.servoDomain b raw).lastSync = (u.time.dom b).lastSync := servoDomain_lastSync ..
    have hnew : (u.servoDomain b raw).hist = (raw :: (u.time.dom b).hist).take 16 := rfl
    have hepoch : (u.servoed b raw).time.stepEpoch = s.time.stepEpoch := (congrArg Time.stepEpoch (hframe'.trans hframe) :)
    have hns : (u.servoed b raw).time.tbNs = s.time.tbNs := (congrArg Time.tbNs (hframe'.trans hframe) :)
    exact ⟨hlocked, hlast.trans (by rw [hnoted]), hnew.trans (by rw [hnoted]), hns, (hincr' hbu).trans hincr, hepoch⟩
  case refine_4 =>
    intro k b m s hears hstamps hint hdom hslave hgm hfw hb hstate hlocked hoff
    have he := exec_syncMessage hears hstamps hint hdom hslave hgm
    rw [if_pos hfw] at he
    have hnoted : (s.syncNoted b m.intervalNs).time.dom b = { s.time.dom b with lastSync := s.now, syncNs := m.intervalNs } := dom_setDom_same ..
    have hframe : (s.syncNoted b m.intervalNs).time.frame = s.time.frame := setDom_frame ..
    have honly : Only [.time] s (s.syncNoted b m.intervalNs) := State.setDom_only _ b _ (Only.refl _ s) (by simp)
    generalize s.syncNoted b m.intervalNs = u at he hnoted hframe honly
    generalize rawOffset k m s = raw at he
    have hbu : b = u.time.refAct := hb.trans (congrArg Time.refAct hframe :).symm
    obtain ⟨hsteps, hnot3⟩ := servoDomain_of_free u b raw hbu (by rw [hnoted]; exact hstate) (by rw [hnoted]; exact hlocked)
    rw [servoTakes_eq, if_pos hsteps] at he
    obtain ⟨hframe', ⟨f, hdomB⟩, -⟩ := servoed_spec (b := b) (raw := raw) (s := u)
    have hsame := hframe'.trans hframe
    have hoff' : ∀ j, j < 32 → ((u.servoed b raw).time.cmp j).en = false := fun j hj => by
      have hcmps : (u.servoed b raw).time.cmps = s.time.cmps := (congrArg Time.cmps hsame :)
      rw [Time.cmp, hcmps]
      exact hoff j hj
    obtain ⟨out, from_, htime⟩ := doStep_time (roundInt raw 65536) hoff'
    have href : (u.servoed b raw).time.refAct = b := (congrArg Time.refAct hframe' :).trans hbu.symm
    have hheld : ((doStep (roundInt raw 65536) (u.servoed b raw)).time.dom (doStep (roundInt raw 65536)
        (u.servoed b raw)).time.refAct).state ≠ 3 := by
      rw [htime]
      have hdoms := dom_stepped_state (u.servoed b raw).time (roundInt raw 65536) out from_ b
      have hact : ({ (u.servoed b raw).time.stepped (roundInt raw 65536) with ppsOut := out, ppsFrom := from_ } : Time).refAct = b := href
      rw [hact, hdoms, hdomB]
      exact hnot3
    rw [autoSwitch_of_held (.inl hheld)] at he
    refine ⟨_, he, Only.trans (Only.trans (honly.mono (by decide)) ((servoed_only u b raw).mono (by decide)))
        ((doStep_only_of_off _ hoff').1.mono (by decide)), ?_⟩
    rw [htime]
    have hns : (u.servoed b raw).time.tbNs = s.time.tbNs := (congrArg Time.tbNs hsame :)
    have hepoch : (u.servoed b raw).time.stepEpoch = s.time.stepEpoch := (congrArg Time.stepEpoch hsame :)
    refine ⟨?_, rfl, rfl, ?_, (congrArg Time.tbFrac hsame :), (congrArg Time.age hsame :), (congrArg Time.refAct hsame :)⟩
    · exact congrArg (fun n => (n + 1) % 65536) hepoch
    · exact congrArg (fun n : Nat => (((n : Int) + roundInt raw 65536) % 2 ^ 64).toNat) hns
  case refine_5 =>
    intro k b m s hears huse hint htmo hdom hbest
    have he : exec (.announceMessage k m) s = execAnnounceMessage k m s := rfl
    obtain ⟨-, hen⟩ : k < 6 ∧ (s.ptp k).ptpEn = true := by
      simp only [State.ptpHears, Bool.and_eq_true, decide_eq_true_eq] at hears
      exact hears.1
    rw [execAnnounceMessage, if_pos hears] at he
    dsimp only at he
    rw [hdom, if_neg (List.cons_ne_nil _ _), if_neg (Nat.not_lt.2 hint), List.foldl_cons, List.foldl_nil] at he
    have he' : exec (.announceMessage k m) s = .next (reselect b ((tbuCount 2 s).candidate b { m.body with port := k, atNs := s.now })) := he
    have hcount : (tbuCount 2 s).time.dom b = s.time.dom b := by cases b <;> rfl
    have hlive : s.now < s.now + s.time.annTimeout * sec (2 ^ m.body.logInt) :=
      Nat.lt_add_of_pos_right (Nat.mul_pos htmo (Nat.mul_pos (Nat.two_pow_pos _) (by decide)))
    obtain ⟨hnow, htimeout, hns, hptp⟩ := candidate_keeps (tbuCount 2 s) b { m.body with port := k, atNs := s.now }
    have hset : ((tbuCount 2 s).candidate b { m.body with port := k, atNs := s.now }).time.dom b = { s.time.dom b with
        best := [{ m.body with port := k, atNs := s.now }] } := by
      rw [State.candidate, dom_setDom_same, hcount, hbest]
      rfl
    have honly : Only [.time] s ((tbuCount 2 s).candidate b { m.body with port := k, atNs := s.now }) :=
      State.setDom_only _ b _ (tbuCount_only _ _ _ (Only.refl _ s) (by simp)) (by simp)
    generalize (tbuCount 2 s).candidate b _ = u at he' hnow htimeout hns hptp hset honly
    have hexp : u.now < Announce.expires { m.body with port := k, atNs := s.now } u.time := by
      rw [Announce.expires, htimeout]
      exact Nat.lt_of_le_of_lt (Nat.le_of_eq hnow) hlive
    rw [reselect_of_one (congrArg Domain.best hset :) hexp (by rw [hptp]; exact hen) (by rw [hptp]; exact huse)] at he'
    refine ⟨_, he', State.setDom_only _ b _ honly (by simp), ?_⟩
    rw [dom_setDom_same, hset]
    refine ⟨rfl, rfl, rfl, ?_, ((congrArg Time.tbNs (setDom_frame ..) :)).trans hns⟩
    dsimp only
    cases hgm : (s.time.dom b).gm with
    | none => simp
    | some g => by_cases hg : g = m.body.gm <;> simp [hg]
  case refine_6 =>
    intro k s hk hen hpd hlink hreq hdue
    have he := exec_pdelayReqSend hk hen hpd hlink hdue
    rw [if_neg (by simp [hreq])] at he
    obtain ⟨honly, hsame, hother, -⟩ := requested_spec k (s.ptp k) s
    obtain ⟨-, -, hsent⟩ := pdSend_spec
      { port := k, domain := s.time.domA.num, pcp := (s.ptp k).pcp, untagged := (s.ptp k).untagged, seq := (s.ptp k).reqSeq } s
    exact ⟨_, he, honly, hsame, hother, fun hroom htx => hsent hroom hlink htx⟩
  case refine_7 =>
    intro k s hk hen hpd hlink hreq hmissed hstamp hdue
    have he := exec_pdelayReqSend hk hen hpd hlink (.inr hdue)
    rw [if_pos hreq] at he
    obtain ⟨husable, hdelay, hslave, hlive⟩ := pdelayMissed_third hmissed
    obtain ⟨honly, hsame, -, hdoms, hlive'⟩ := requested_spec k (s.ptp k) (pdelayMissed k s)
    refine ⟨_, he, Only.trans (pdelayMissed_only _ _ (Only.refl _ s) (by simp)) honly, ?_, ?_, ?_, ?_, ?_⟩
    · rw [hsame]; exact husable
    · rw [hsame]; exact hdelay
    · intro h
      exact hslave false (by rw [← hdoms]; exact h)
    · intro h
      exact hslave true (by rw [← hdoms]; exact h)
    · rw [hlive', hlive]
      exact bump_same ..
  case refine_8 =>
    intro k d s hk hen hpd hreq
    have he : exec (.pdelayRespReceive k d) s = execPdelayRespReceive k d s := rfl
    rw [execPdelayRespReceive, if_pos ⟨hk, hen, hpd, hreq⟩] at he
    obtain ⟨-, -, hptp⟩ := reselect_both (s.responded k)
    obtain ⟨hout, hmissed, husable, hdelay, hother⟩ := responded_ptp s k
    refine ⟨reselect true (reselect false (s.responded k)), he,
      reselect_only _ _ (reselect_only _ _ (responded_only s k) (by simp)) (by simp), ?_⟩
    rw [hptp]
    exact ⟨hout, hmissed, husable, hdelay, fun j hj => (hptp j).trans (hother j hj)⟩
  case refine_9 =>
    intro b s hstate hbest hdue hauto
    have he : exec (.holdoverEntry b) s = execHoldoverEntry b s := rfl
    have hparent : (s.time.dom b).parent = none := by rw [Domain.parent, hbest]; rfl
    have hinst : holdoverDue b s ≤ s.now := by
      rw [holdoverDue, hparent]
      exact hdue
    rw [execHoldoverEntry] at he
    dsimp only at he
    rw [if_pos hstate, whenDue_now _ hinst] at he
    have htime := heldOver_time s b
    have hdomB : (s.heldOver b).time.dom b = { s.time.dom b with state := 3, holdAt := s.now, good := 0, far := 0, hist := [] } := by
      rw [htime]
      cases b <;> rfl
    have hdomO : (s.heldOver b).time.dom (!b) = s.time.dom (!b) := by
      rw [htime]
      cases b <;> rfl
    have hbest' : ((s.heldOver b).time.dom b).best = [] := by rw [hdomB]; exact hbest
    have hauto' : (s.heldOver b).time.autoSwitch = false ∧ (s.heldOver b).time.refAct = s.time.refAct
        ∧ (s.heldOver b).time.incr = s.time.incr ∧ (s.heldOver b).time.live = bump s.time.live 12 := by
      rw [htime, ← hauto]
      cases b <;> exact ⟨rfl, rfl, rfl, rfl⟩
    have he' : exec (.holdoverEntry b) s = .next (autoSwitch (reselect b (s.heldOver b))) := he
    have honly := heldOver_only s b
    generalize s.heldOver b = u at he' hdomB hdomO hbest' hauto' honly
    obtain ⟨hoff, href, hincr, hlive⟩ := hauto'
    have hkeep : ∀ f, (u.setDom b f).time.autoSwitch = u.time.autoSwitch ∧ (u.setDom b f).time.refAct = u.time.refAct
        ∧ (u.setDom b f).time.live = u.time.live := fun f => by cases b <;> exact ⟨rfl, rfl, rfl⟩
    rw [reselect_of_none hbest', autoSwitch_of_held (.inr ((hkeep _).1.trans hoff))] at he'
    refine ⟨_, he', State.setDom_only _ b _ honly (by simp), ?_⟩
    rw [dom_setDom_same, dom_setDom_other, setDom_incr, hdomB, (hkeep _).2.1, (hkeep _).2.2, hlive]
    exact ⟨rfl, rfl, hdomO, href, hincr, bump_same ..⟩
  case refine_10 =>
    intro b s hstate hdue
    have he : exec (.freerunEntry b) s = execFreerunEntry b s := rfl
    rw [execFreerunEntry, if_pos hstate, whenDue_now _ hdue] at he
    exact ⟨_, he, State.setDom_only _ b _ (Only.refl _ s) (by simp), dom_setDom_same .., dom_setDom_other ..⟩

end Sys2Proof.Machine
end

section
/-!
PROOFS. The Backstop island without the records that it holds and without its counters: neither what the MAIN islands do with the frames and the coil,
nor what the referee decides, reaches it (R354).
-/
namespace Sys2Proof.Machine
open Sys2Proof

/-- The Backstop island without the records that it holds and without its counters. -/
def State.drive (s : State) : Bki := { s.bki with held := [], heldLost := 0, live := [] }

section
variable {s t : State}

theorem drive_of_only {ps : List Part} (h : Only ps s t) (hp : Part.bki ∉ ps) : t.drive = s.drive := by
  have hb : t.bki = s.bki := h.same .bki hp
  rw [State.drive, State.drive, hb]

theorem drive_of_isle (h : t.isle = s.isle) : t.drive = s.drive :=
  (congrArg (fun b : Bki => { b with live := [] }) h :)

theorem drive_of_calm (h : t.calm = s.calm) : t.drive = s.drive :=
  (congrArg (fun c : Calm => { c.bki with live := [] }) h :)

variable (h : t.drive = s.drive)
include h

theorem btDriven_of_drive : t.bki.btDriven = s.bki.btDriven := (congrArg Bki.btDriven h :)
theorem coresHeld_of_drive : t.bki.coresHeld = s.bki.coresHeld := (congrArg Bki.coresHeld h :)
theorem elems_of_drive : t.bki.elems = s.bki.elems := (congrArg Bki.elems h :)

end

@[simp] theorem drive_ite {a b : State} (c : Prop) [Decidable c] : (if c then a else b).drive = if c then a.drive else b.drive :=
  apply_ite State.drive c a b

theorem foldl_drive {α : Type} (l : List α) (f : State → α → State) (h : ∀ t a, (f t a).drive = t.drive) (s : State) :
    (l.foldl f s).drive = s.drive := by
  induction l generalizing s with
  | nil => rfl
  | cons a l ih => rw [List.foldl_cons, ih, h]

@[simp] theorem bkiCount_drive (i : Nat) (s : State) : (bkiCount i s).drive = s.drive := rfl

@[simp] theorem note_drive (b : BlockId) (u code cls : Nat) (owner : Master) (detail : List Byte) (s : State) :
    (note b u code cls owner detail s).drive = s.drive := drive_of_isle (note_isle ..)

@[simp] theorem emit_drive (opcode : Nat) (inst : Option Nat) (gen : Nat) (vals : List Nat) (s : State) (tag : Nat) (st : Status) :
    (emit opcode inst gen vals s tag st).drive = s.drive := drive_of_isle (emit_isle ..)

@[simp] theorem finding_drive (f : Finding) (s : State) : (finding f s).drive = s.drive := drive_of_isle (finding_isle ..)

/-! ### Ports and the coil -/

@[simp] theorem abandon_drive (k : Nat) (s : State) : (abandon k s).drive = s.drive := by
  unfold abandon
  split
  · rw [drive_of_calm (txDrop_calm ..)]
    rfl
  · rfl

@[simp] theorem portDown_drive (k : Nat) (s : State) : (portDown k s).drive = s.drive := by
  unfold portDown
  split
  · dsimp only
    rw [drive_of_calm (linkEvent_calm ..), abandon_drive, drive_of_calm (flushQueues_calm ..)]
    rfl
  · rfl

@[simp] theorem coilOff_drive (s : State) : (coilOff s).drive = s.drive := by
  unfold coilOff
  split
  · rw [portDown_drive, portDown_drive]
    rfl
  · rfl

@[simp] theorem coilCheck_drive (s : State) : (coilCheck s).drive = s.drive := by simp [coilCheck]

/-! ### Role and referee -/

@[simp] theorem gateOne_drive (g : GateFrame) (s : State) : (gateOne g s).drive = s.drive := by
  have hdrop : ∀ k t, (gateDrop k g t).drive = t.drive := fun k t => drive_of_calm (gateDrop_calm ..)
  have hfree : ∀ t, (gateRelease g t).drive = t.drive := fun t => drive_of_calm (gateRelease_calm ..)
  have haside : ∀ n up t, (heldAside n up t).drive = t.drive := fun n up t => drive_of_only (heldAside_only (qs := [.sw]) _ _ _ (Only.refl _ t)
      (by simp)) (by decide)
  unfold gateOne
  dsimp only
  split_ifs
  · rw [haside]; rfl
  all_goals simp [hdrop, hfree]

@[simp] theorem reexamine_drive (s : State) : (reexamine s).drive = s.drive := by
  have haside : ∀ n up t, (heldAside n up t).drive = t.drive := fun n up t => drive_of_only (heldAside_only (qs := [.sw]) _ _ _ (Only.refl _ t)
      (by simp)) (by decide)
  unfold reexamine
  dsimp only
  rw [foldl_drive _ _ (fun t g => by rw [gateOne_drive, haside])]
  rfl

@[simp] theorem setRole_drive (r : Role) (s : State) : (setRole r s).drive = s.drive := by
  have hcgu : ∀ f, (s.modCgu f).drive = s.drive := fun _ => rfl
  have hvec : ∀ n t, (vector n t).drive = t.drive := fun _ _ => rfl
  simp [setRole, hcgu, hvec]

@[simp] theorem becomeOut_drive (hard : Bool) (s : State) : (becomeOut hard s).drive = s.drive := by
  have hcgu : ∀ (t : State) f, (t.modCgu f).drive = t.drive := fun _ _ => rfl
  simp [becomeOut, winFalls, hcgu]

@[simp] theorem startTakeover_drive (s : State) : (startTakeover s).drive = s.drive := by
  have hrest : ∀ (t : State) f, (configChanged (t.modCgu f)).drive = t.drive := fun _ _ => rfl
  simp [startTakeover, hrest]

@[simp] theorem actDecision_drive (row : Nat) (own : Bool) (s : State) : (actDecision row own s).drive = s.drive := by
  have hocu : ∀ f, (s.modOcu f).drive = s.drive := fun _ => rfl
  simp [actDecision, hocu]

@[simp] theorem recordDecision_drive (row : Nat) (against : Option Bool) (k : CmpKey) (s : State) : (recordDecision row against k s).drive =
    s.drive := by
  have hmlk : ∀ (t : State) f, (t.modMlk f).drive = t.drive := fun _ _ => rfl
  have hocu : ∀ i (t : State), (ocuCount i t).drive = t.drive := fun _ _ => rfl
  cases against <;> simp [recordDecision, hmlk, hocu]

@[simp] theorem refereeF_drive (s : State) : (refereeF s).drive = s.drive := by
  have hocu : ∀ f, (s.modOcu f).drive = s.drive := fun _ => rfl
  simp [refereeF, hocu]

/-! ### Findings -/

@[simp] theorem retry_drive (b : BlockId) (u : Nat) (s : State) : (retry b u s).drive = s.drive :=
  drive_of_only (retry_only (qs := [.ports, .head, .mlk]) _ _ _ (Only.refl _ s) (by simp)) (by decide)

@[simp] theorem leaveDue_drive (b : BlockId) (u : Nat) (s : State) : (leaveDue b u s).drive = s.drive := by
  have htold : ∀ f, (told s (s.setFset b u f)).drive = s.drive := fun f => by
    unfold told
    split <;> rfl
  unfold leaveDue
  split
  · simp [leaveFault, htold]
  · rfl

@[simp] theorem foundIn_drive (f : Finding) (s : State) : (foundIn f s).drive = s.drive := by
  unfold foundIn
  split <;> simp

@[simp] theorem raise_drive {f : Finding} (hc : f.cls = 2 ∨ f.cls = 3 ∧ f.block ≠ .mgp ∧ f.block ≠ .bki) (s : State) : (raise f s).drive =
    s.drive := by
  have hvec : ∀ n (t : State), (vector n t).drive = t.drive := fun _ _ => rfl
  have hcoil : ∀ t, (coilAfter f t).drive = t.drive := fun t => by
    unfold coilAfter
    split <;> simp
  rcases hc with hc | ⟨hc, hm, hb⟩
  · rw [raise_of_classK hc, hcoil, finding_drive, foundIn_drive]
  · rw [raise_of_classF hc hm, if_neg hb, hvec, refereeF_drive, hcoil, finding_drive, foundIn_drive]

/-- A class F finding of the island releases its outputs and holds its cores (R354). -/
theorem raise_drive_of_bki {f : Finding} (hc : f.cls = 3) (hb : f.block = .bki) (s : State) :
    (raise f s).bki.btDriven = 0 ∧ (raise f s).bki.coresHeld = true := by
  have hm : f.block ≠ .mgp := by rw [hb]; decide
  have h : (raise f s).drive = (bkiHold (coilAfter f (finding f (foundIn f s)))).drive := by
    rw [raise_of_classF hc hm, if_pos hb]
    exact refereeF_drive _
  exact ⟨(btDriven_of_drive h).trans rfl, (coresHeld_of_drive h).trans rfl⟩

end Sys2Proof.Machine
end

section
/-!
PROOFS. Supplies, resets and temperature (R336, R397, R499 to R508): what a part that loses its power,
    the entry into WINTER and the return of a supply
leave. The obligation O46.
-/
namespace Sys2Proof.Machine
open Sys2Proof

/-! ### Pins and timers -/

theorem whenDue_reached {d : Nat} {f : State → State} {s : State} (h : d ≤ (s.until d).now) : whenDue d f s = f (s.until d) := if_pos h

/-- A pin's level acts once it has stood for its time (R498). -/
theorem pinLow_of_reached {d : Nat} {f : State → State} {s : State} (ha : s.power.aonGood = true) (h : s.now + d ≤ (s.until (s.now + d)).now) :
    pinLow d f s = f (s.until (s.now + d)) := by
  rw [pinLow, if_pos ha, whenDue_reached h]

theorem until_only (s : State) (d : Nat) : Only [.time] s (s.until d) := by
  unfold State.until
  split
  · exact Only.refl _ s
  · exact State.modTime_only _ (Only.refl _ s) (by simp)

/-- With the oscillator the age counter reaches every instant, TB stopped or not (R281). -/
theorem until_reaches {s : State} (d : Nat) (htb : s.time.tbStopped = true) (hosc : s.time.oscFailed = false) : d ≤ (s.until d).now
    ∧ (s.until d).time.stepEpoch = s.time.stepEpoch := by
  unfold State.until
  split
  next h => exact ⟨h, rfl⟩
  next h =>
    have hticks : ∀ k, s.time.ticks k = { s.time with age := s.time.age + (k + 19) / 20 * 40 } := fun k => by
      rw [Time.ticks, if_pos htb, if_neg (by simp [hosc])]
    refine ⟨?_, (congrArg Time.stepEpoch (hticks ((d - s.time.age + 1) / 2)) :)⟩
    have hnow : (s.modTime fun t => t.ticks ((d - t.age + 1) / 2)).now = s.time.age + ((d - s.time.age + 1) / 2 + 19) / 20 * 40 :=
      (congrArg Time.age (hticks ((d - s.time.age + 1) / 2)) :)
    rw [hnow]
    omega

/-! ### The recorder runs and is frozen as before (R391, R397) -/

/-- Whether the ring is frozen, and whether the recorder runs. -/
def State.ringOn (s : State) : Bool × Bool := (s.evr.frozen, s.evr.running)

theorem ringOn_of_only {ps : List Part} {s t : State} (h : Only ps s t) (hp : Part.evr ∉ ps) : t.ringOn = s.ringOn := by
  have he : t.evr = s.evr := h.same .evr hp
  rw [State.ringOn, State.ringOn, he]

theorem post_ringOn (r : EvrRec) (s : State) : (post r s).ringOn = s.ringOn := by
  have hlose : ∀ e : Evr, (e.loseAtQueue r).frozen = e.frozen ∧ (e.loseAtQueue r).running = e.running := fun e => by
    unfold Evr.loseAtQueue
    dsimp only
    split <;> exact ⟨rfl, rfl⟩
  unfold post
  split
  · rfl
  · split
    · rw [State.ringOn, State.modEvr_evr]
      split
      · rfl
      · rw [(hlose _).1, (hlose _).2]
        rfl
    · split <;> rfl

theorem emit_ringOn (opcode : Nat) (inst : Option Nat) (gen : Nat) (vals : List Nat) (s : State) (tag : Nat) (st : Status) :
    (emit opcode inst gen vals s tag st).ringOn = s.ringOn := by
  have hnote : ∀ b u code cls owner detail (t : State), (note b u code cls owner detail t).ringOn = t.ringOn := fun _ _ _ _ _ _ _ => post_ringOn ..
  have hmbx : ∀ (t : State) f, (t.modMbx f).ringOn = t.ringOn := fun _ _ => rfl
  have htell : ∀ t, (tellLost t).ringOn = t.ringOn := fun t => by
    unfold tellLost
    split
    · rw [hmbx, hnote]
    · rfl
  unfold emit
  dsimp only
  split_ifs
  · rw [hmbx, htell, hnote]
  · rw [hnote]
  · rfl

theorem copyDone_ringOn (n entry gen : Nat) (nonPort : Bool) (s : State) : (copyDone n entry gen nonPort s).ringOn = s.ringOn := by
  have hentry : (entryDone entry gen s).ringOn = s.ringOn :=
    ringOn_of_only (entryDone_only (qs := [.sw]) _ _ _ (Only.refl _ s) (by simp)) (by decide)
  have hinst : ∀ (t : State) i f, (t.setInst i f).ringOn = t.ringOn := fun _ _ _ => rfl
  have hover : ∀ i (t : State), (refreshOver i t).ringOn = t.ringOn := fun i t => by
    unfold refreshOver
    dsimp only
    split
    · rw [emit_ringOn, hinst]
    · rfl
  have hfree : ∀ f (t : State), (freeFrame n f t).ringOn = t.ringOn := fun f t => by
    unfold freeFrame
    dsimp only
    split
    · rw [hover, hinst]
      rfl
    · rfl
  unfold copyDone
  dsimp only
  split
  · rw [hfree, hentry]
  · exact hentry

theorem txDrop_ringOn (k i : Nat) (c : TxCopy) (s : State) : (txDrop k i c s).ringOn = s.ringOn := by
  rw [txDrop, txDone, copyDone_ringOn]
  exact ringOn_of_only (unsent_only (qs := [.ports, .time]) _ _ (portCount_only _ _ _ _ (Only.refl _ s) (by simp)) (by simp)) (by decide)

theorem portDown_ringOn (k : Nat) (s : State) : (portDown k s).ringOn = s.ringOn := by
  have hport : ∀ (t : State) f, (t.setPort k f).ringOn = t.ringOn := fun _ _ => rfl
  have hflush : ∀ i (t : State), (flushQueues k i t).ringOn = t.ringOn := fun i t =>
    List.foldlRecOn (motive := fun u : State => u.ringOn = t.ringOn) _ _ rfl fun u hu c _ => (txDrop_ringOn ..).trans hu
  have habandon : ∀ t : State, (abandon k t).ringOn = t.ringOn := fun t => by
    unfold abandon
    split
    · rw [txDrop_ringOn, hport]
    · rfl
  unfold portDown
  split
  · dsimp only
    rw [linkEvent, emit_ringOn, habandon, hflush, hport, countPause, hport]
  · rfl

theorem coilOff_ringOn (s : State) : (coilOff s).ringOn = s.ringOn := by
  unfold coilOff
  split
  · rw [portDown_ringOn, portDown_ringOn]
    rfl
  · rfl

/-! ### The coil and the save (R102, R397) -/

theorem beginSave_frozen (internal : Bool) (s : State) : (beginSave internal s).evr.frozen = (s.evr.frozen || s.evr.running) := by
  have hrec : ∀ r (t : State), (writeRecord r t).evr.running = t.evr.running := fun _ _ => rfl
  unfold beginSave
  split
  next h =>
    cases hf : s.evr.frozen with
    | true => rfl
    | false =>
      have hrun : s.evr.running = false := by simpa [hf] using h
      rw [hrun]
      rfl
  next h =>
    obtain ⟨hf, hrun⟩ : s.evr.frozen = false ∧ s.evr.running = true := by simpa using h
    rw [hf, hrun]
    dsimp only
    rw [State.modEvr_evr]
    split
    · split <;> rfl
    · rfl

/-- A power-fail warning outside SPRING: the coil is released and the recorder saves (R102, R397). -/
theorem powerFail_spec {internal : Bool} {s : State} (h : s.season.season ≠ .spring) :
    Only [.ports, .head, .sw, .insts, .cgu, .time, .bki, .evr, .mbx] s (powerFail internal s)
    ∧ (powerFail internal s).head.coil = false ∧ (powerFail internal s).evr.frozen = (s.evr.frozen || s.evr.running)
    ∧ (powerFail internal s).drive = s.drive := by
  have honly : Only [.ports, .head, .sw, .insts, .cgu, .time, .bki, .evr, .mbx] s (beginSave internal (coilOff s)) :=
    beginSave_only _ _ (coilOff_only _ (Only.refl _ s) (by simp)) (by simp)
  have hsave : Only [.evr] (coilOff s) (beginSave internal (coilOff s)) := beginSave_only _ _ (Only.refl _ _) (by simp)
  have hseason : (beginSave internal (coilOff s)).season = s.season := honly.same .season (by decide)
  have hf : powerFail internal s = beginSave internal (coilOff s) := by
    rw [powerFail]
    exact if_neg fun hs => h (by rw [← hseason]; exact hs.1)
  rw [hf]
  refine ⟨honly, ?_, ?_, ?_⟩
  · rw [hsave.same .head (by decide)]
    exact coilOff_coil s
  · have hring := coilOff_ringOn s
    rw [beginSave_frozen, show (coilOff s).evr.frozen = s.evr.frozen from (congrArg Prod.fst hring :),
      show (coilOff s).evr.running = s.evr.running from (congrArg Prod.snd hring :)]
  · rw [drive_of_only hsave (by decide), coilOff_drive]

theorem saveReturns_frozen (s : State) : (saveReturns s).evr.frozen = false := by
  unfold saveReturns
  split
  · rfl
  next h => simpa using h

/-! ### Parts at their reset values (R355, R357) -/

/-- The module in WINTER, what was saved and released before (R357). -/
def State.wintered (mainLost : Bool) (s : State) : State :=
  ((((((mainFresh s).modHead fun h => { h with through := false }).modTime fun t => { t with tbStopped := true }).modWake fun w => { w with
    active := w.pattern }).modBki Bki.mgpOff)).modSeason fun z => { z with
      season := .winter, changing := none, switched := [], changeOp := none, winterCause := mainLost, winterAge := s.now }

/-- The entry into WINTER leaves the supplies as they were, and resets the MAIN islands (R357). -/
theorem winterEntry_eq (mainLost : Bool) (s : State) : ∃ u : State, winterEntry mainLost s = u.wintered mainLost
    ∧ u.season = s.season ∧ u.power = s.power ∧ u.clk = s.clk ∧ u.drive = s.drive ∧ u.pending = s.pending := by
  have hsave : Only [.evr, .free] (becomeOut true s)
      (if mainLost then cutSave (beginSave false (becomeOut true s)) else endSave (beginSave false (becomeOut true s))) := by
    have hbegin : Only [.evr, .free] (becomeOut true s) (beginSave false (becomeOut true s)) := beginSave_only _ _ (Only.refl _ _) (by simp)
    split
    · exact cutSave_only _ hbegin (by simp)
    · exact endSave_only _ hbegin (by simp)
  have hout : Only [.ports, .sw, .insts, .cgu, .time, .bki, .evr, .mbx] s (becomeOut true s) := becomeOut_only _ _ (Only.refl _ s) (by simp)
  refine ⟨coilOff (if mainLost then cutSave (beginSave false (becomeOut true s)) else endSave (beginSave false (becomeOut true s))), rfl, ?_⟩
  generalize hu : (if mainLost then cutSave (beginSave false (becomeOut true s)) else endSave (beginSave false (becomeOut true s))) = u
  rw [hu] at hsave
  have hcoil : Only [.ports, .head, .sw, .insts, .cgu, .time, .bki, .evr, .mbx] u (coilOff u) := coilOff_only _ (Only.refl _ u) (by simp)
  refine ⟨?_, ?_, ?_, ?_, ?_⟩
  · rw [hcoil.same .season (by decide), hsave.same .season (by decide), hout.same .season (by decide)]
  · rw [hcoil.same .power (by decide), hsave.same .power (by decide), hout.same .power (by decide)]
  · rw [coilOff_clk, clk_of_only hsave (by decide), becomeOut_clk]
  · rw [coilOff_drive, drive_of_only hsave (by decide), becomeOut_drive]
  · rw [hcoil.same .pending (by decide), hsave.same .pending (by decide), hout.same .pending (by decide)]

/-- The module without power, a save in progress being cut before (R503). -/
def State.unpowered (s : State) : State := { State.reset with
  persist := s.persist.kept, evr := s.evr.kept, ksu := s.ksu.kept, mbx := s.mbx.kept, mon := { fails := s.mon.fails },
  power := { s.power with
    aonGood := false, internalFail := false, hot := false, hotSince := none, cutoffAt := none, disconnected := false, badRails := [],
    resetPend := false, wakeLow := false },
  head := { present := s.head.present }, cgu := { idConflict := s.cgu.idConflict }, ports := s.ports.map fun p => (p.1, p.2.kept p.1),
  free := s.free, pending := s.pending }

theorem powerOff_eq (s : State) : ∃ u : State, Only [.evr, .free] s u ∧ powerOff s = u.unpowered := ⟨cutSave s, cutSave_only _ (Only.refl _ s)
    (by simp), rfl⟩

/-- A head that is fitted is read without a finding (R5). -/
theorem headDetect_true_only (s : State) : Only [.head, .ports] s (headDetect true s) := by
  have he : headDetect true s = ((s.modHead fun h => { h with present := true, loopOk := false, loopFrom := some s.now }).setPort 0 fun p =>
      { p with attach := 1 }).setPort 1 fun p => { p with attach := 1 } := rfl
  rw [he]
  exact State.setPort_only _ _ _ (State.setPort_only _ _ _ (State.modHead_only _ (Only.refl _ s) (by simp)) (by simp)) (by simp)

/-- The supplies of a module whose AON has become good, from none (R336, R499). -/
def State.aonPowered (slotId : Nat) (s : State) : State :=
  (s.unpowered.modPower fun p => { p with aonGood := true, aonOver := false, slotId := slotId % 16 }).modPower fun p => { p with rampAt := 0 }

/-- The island as it starts with these verdicts on its two banks (R336). -/
def State.islandOn (oks : List Bool) (s : State) : State :=
  let a := b2n s.persist.activeBank
  let run := oks.getD a false || oks.getD (1 - a) false
  s.modBki fun _ => { s.persist.backstop with
    running := run, noImage := !run, bootBank := s.persist.activeBank, image := s.persist.bkiImg.getD (if oks.getD a false then a else 1 - a) {} }

/-- AON is good (R336): with the head fitted nothing but the head and its ports is more than powered. -/
theorem aonStarts_eq {oks : List Bool} {slotId : Nat} {s : State} (h : s.power.mainGood = true → s.head.present = true) :
    ∃ u v : State, Only [.evr, .free] s u ∧ Only [.head, .ports] (u.aonPowered slotId) v ∧ aonStarts oks slotId s = v.islandOn oks := by
  obtain ⟨u, hu, hoff⟩ := powerOff_eq s
  have hmain : u.power.mainGood = true → u.head.present = true := by
    rw [hu.same .power (by decide), hu.same .head (by decide)]
    exact h
  have he : aonStarts oks slotId s =
      (if u.power.mainGood then headDetect u.head.present (u.aonPowered slotId) else u.aonPowered slotId).islandOn oks := by
    rw [aonStarts, hoff]
    rfl
  refine ⟨u, _, hu, ?_, he⟩
  split
  next hm =>
    rw [hmain hm]
    exact headDetect_true_only _
  next => exact Only.refl _ _

/-- The loss of MAIN with AON good takes the module into WINTER (R357). -/
theorem mainIsLost_eq {s : State} (ha : s.power.aonGood = true) (h : s.season.season ≠ .winter) : mainIsLost s =
    winterEntry true (s.modPower fun p => { p with mainGood := false, internalFail := false, resetPend := false }) := if_pos ⟨ha, h⟩

/-- A module reset outside WINTER (R500). -/
theorem modReset_eq {s : State} (h : s.season.season ≠ .winter) : modReset s =
    ((mainFresh (coilOff (s.modPower fun p => { p with resetPend := false }))).modBki Bki.mgpOff).modSeason fun z => { z with
      season := .spring, changing := none, switched := [], changeOp := none, lastWake := 0 } := if_neg h

/-! ### The head at a return of MAIN (R5, R106) -/

/-- A finding of a port leaves what is known of the head (R5). -/
theorem raise_head_of_port {f : Finding} (hc : f.cls = 2) (hb : f.block = .prt) (s : State) : (raise f s).head = s.head := by
  have hleave : (leaveDue .prt f.unit s).head = s.head := by
    unfold leaveDue
    split
    · have hretry : ∀ t, (retry .prt f.unit t).head = t.head := fun _ => rfl
      rw [leaveFault_eq, hretry, refereeF_head, (leftFault_only .prt f.unit s).same .head (by decide)]
    · rfl
  rw [raise_of_classK hc, coilAfter, if_neg (by simp [hb]),
    (finding_only (qs := [.bki, .faults, .evr, .mbx]) f _ (Only.refl _ _) (by simp)).same .head (by decide), foundIn, hb]
  split
  · exact hleave
  · rfl

theorem headDetect_keeps (head : Bool) (s : State) : (headDetect head s).head.present = head ∧ (headDetect head s).clk = s.clk := by
  have hport : ∀ (t : State) k f, (t.setPort k f).head = t.head ∧ (t.setPort k f).clk = t.clk := fun _ _ _ => ⟨rfl, rfl⟩
  have habsent : ∀ k t, (headAbsent k t).head = t.head ∧ (headAbsent k t).clk = t.clk := fun k t => by
    rw [headAbsent, (hport _ _ _).1, (hport _ _ _).2, raise_clk]
    exact ⟨raise_head_of_port rfl rfl t, rfl⟩
  unfold headDetect
  dsimp only
  split
  next h =>
    rw [h, (hport _ _ _).1, (hport _ _ _).1, (hport _ _ _).2, (hport _ _ _).2]
    exact ⟨rfl, rfl⟩
  next h =>
    rw [(habsent _ _).1, (habsent _ _).1, (habsent _ _).2, (habsent _ _).2]
    exact ⟨rfl, rfl⟩

/-- The time base, the supplies and the season at the beginning of SPRING (R358, R359). -/
def State.sprung (wake : Nat) (s : State) : State :=
  bkiCount 12 (((s.modTime fun t => { t with tbStopped := false, tbNs := (t.tbNs + (s.now - s.season.winterAge)) % 2 ^ 64 }).modPower
      fun p => { p with
    rampAt := s.now, wakeLow := false }).modSeason fun z => { z with season := .spring, lastWake := wake, wakeHeld := none })

/-- SPRING begins (R358, R359): the wake source is recorded, TB runs again under the same step epoch, and the head is read. -/
theorem springBegin_spec (wake : Nat) (s : State) : (springBegin wake s).season.season = .spring ∧ (springBegin wake s).season.lastWake = wake
    ∧ (springBegin wake s).power.mainGood = s.power.mainGood ∧ (springBegin wake s).now = s.now
    ∧ (springBegin wake s).time.tbStopped = false ∧ (springBegin wake s).time.stepEpoch = s.time.stepEpoch
    ∧ (springBegin wake s).head.present = s.head.present := by
  have he : springBegin wake s = headDetect ((portDown 6 s).sprung wake).head.present ((portDown 6 s).sprung wake) := rfl
  have hdown : Only [.ports, .sw, .insts, .cgu, .time, .bki, .evr, .mbx] s (portDown 6 s) := portDown_only _ _ (Only.refl _ s) (by simp)
  have hclk := portDown_clk 6 s
  have hage : (portDown 6 s).now = s.now := now_of_clk hclk
  have hepoch : (portDown 6 s).time.stepEpoch = s.time.stepEpoch := (congrArg Time.stepEpoch hclk :)
  have hpower : (portDown 6 s).power = s.power := hdown.same .power (by decide)
  have hhead : (portDown 6 s).head = s.head := hdown.same .head (by decide)
  have hfields : ∀ u : State, (u.sprung wake).season.season = .spring ∧ (u.sprung wake).season.lastWake = wake
      ∧ (u.sprung wake).power.mainGood = u.power.mainGood ∧ (u.sprung wake).now = u.now ∧ (u.sprung wake).time.tbStopped = false
      ∧ (u.sprung wake).time.stepEpoch = u.time.stepEpoch ∧ (u.sprung wake).head = u.head := fun _ => ⟨rfl, rfl, rfl, rfl, rfl, rfl, rfl⟩
  obtain ⟨hseason, hwake, hmain, hnow, htb, hep, hh⟩ := hfields (portDown 6 s)
  rw [hpower] at hmain
  rw [hage] at hnow
  rw [hepoch] at hep
  rw [hhead] at hh
  rw [he]
  generalize (portDown 6 s).sprung wake = u at hseason hwake hmain hnow htb hep hh
  obtain ⟨hpresent, hkeep⟩ := headDetect_keeps u.head.present u
  have honly : Only [.ports, .head, .sw, .insts, .cgu, .ocu, .mlk, .time, .bki, .faults, .evr, .mbx, .persist, .mon] u
      (headDetect u.head.present u) := headDetect_only _ _ (Only.refl _ u) (by simp)
  rw [honly.same .season (by decide), honly.same .power (by decide), hpresent]
  exact ⟨hseason, hwake, hmain, (now_of_clk hkeep).trans hnow, (congrArg Time.tbStopped hkeep :).trans htb,
      (congrArg Time.stepEpoch hkeep :).trans hep,
    congrArg Head.present hh⟩

/-- In WINTER a module reset that waited changes the pins' reading alone (R500). -/
theorem resetDue_winter {s : State} (h : s.season.season = .winter) : Only [.power, .cgu] s (resetDue s)
    ∧ (resetDue s).power = { s.power with resetPend := (resetDue s).power.resetPend } := by
  have hreset : modReset s = s.modPower fun p => { p with resetPend := false } := if_pos h
  have hread : ∀ u : State, u.season.season = .winter → modReleased u = readSlotPins u := fun u hu => if_pos hu
  have hpins : ∀ u : State, Only [.power, .cgu] u (readSlotPins u) ∧ (readSlotPins u).power = u.power := fun u =>
    ⟨readSlotPins_only _ (Only.refl _ u) (by simp), rfl⟩
  have hpend : Only [.power, .cgu] s (s.modPower fun p => { p with resetPend := false }) := State.modPower_only _ (Only.refl _ s) (by simp)
  unfold resetDue
  split
  · split
    · rw [hreset]
      exact ⟨hpend, rfl⟩
    · rw [hreset, hread (s.modPower fun p => { p with resetPend := false }) h]
      exact ⟨Only.trans hpend (hpins _).1, rfl⟩
  · exact ⟨Only.refl _ s, rfl⟩

/-- What ends an internal power-fail leaves WINTER, the head and the time base alone (R504). -/
theorem internalOver_winter {s : State} (h : s.season.season = .winter) : Only [.power, .evr, .cgu] s (internalOver s)
    ∧ (internalOver s).power.mainGood = s.power.mainGood ∧ (internalOver s).power.mainGoodAt = s.power.mainGoodAt
    ∧ (internalOver s).power.disconnected = s.power.disconnected := by
  have hsave : Only [.power, .evr, .cgu] s (saveReturns (s.modPower fun p => { p with internalFail := false })) :=
    saveReturns_only _ (State.modPower_only _ (Only.refl _ s) (by simp)) (by simp)
  have hevr : Only [.evr] (s.modPower fun p => { p with internalFail := false }) (saveReturns (s.modPower fun p => { p with internalFail :=
      false })) :=
    saveReturns_only _ (Only.refl _ _) (by simp)
  have hpower := hevr.same .power (by decide)
  unfold internalOver
  split
  · generalize saveReturns (s.modPower fun p => { p with internalFail := false }) = u at hsave hpower
    obtain ⟨honly, hres⟩ := resetDue_winter (s := u) (by rw [hsave.same .season (by decide)]; exact h)
    refine ⟨Only.trans hsave (honly.mono (by decide)), ?_⟩
    rw [hres, hpower]
    exact ⟨rfl, rfl, rfl⟩
  · exact ⟨Only.refl _ s, rfl, rfl, rfl⟩

/-- MAIN is good again: the supply is noted, the head looked for, and the coil's conditions looked at (R102, R502). -/
def State.mainOn (head : Bool) (s : State) : State :=
  coilCheck ((s.modPower fun p => { p with mainGood := true, mainOver := false, mainGoodAt := s.now, rampAt := s.now }).modHead fun h =>
    { h with present := head })

theorem mainOn_spec (head : Bool) (s : State) : Only [.power, .head, .ports, .sw, .insts, .cgu, .time, .mbx, .evr, .bki] s (s.mainOn head)
    ∧ (s.mainOn head).power = { s.power with mainGood := true, mainOver := false, mainGoodAt := s.now, rampAt := s.now }
    ∧ (s.mainOn head).clk = s.clk ∧ (s.mainOn head).head.present = head ∧ (head = false → (s.mainOn head).head.coil = false)
    ∧ (s.head.coil = false → Only [.power, .head] s (s.mainOn head) ∧ (s.mainOn head).head = { s.head with present := head }) := by
  have hset : Only [.power, .head] s ((s.modPower fun p => { p with mainGood := true, mainOver := false, mainGoodAt := s.now, rampAt :=
      s.now }).modHead
      fun h => { h with present := head }) := State.modHead_only _ (State.modPower_only _ (Only.refl _ s) (by simp)) (by simp)
  generalize hu : (s.modPower fun p => { p with mainGood := true, mainOver := false, mainGoodAt := s.now, rampAt := s.now }).modHead
      (fun h => { h with present := head }) = u at hset
  have hpower : u.power = { s.power with mainGood := true, mainOver := false, mainGoodAt := s.now, rampAt := s.now } := by rw [← hu]; rfl
  have hhead : u.head = { s.head with present := head } := by rw [← hu]; rfl
  have hcheck : Only [.ports, .head, .sw, .insts, .cgu, .time, .bki, .evr, .mbx] u (coilCheck u) := coilCheck_only _ (Only.refl _ u) (by simp)
  have he : s.mainOn head = coilCheck u := by rw [← hu]; rfl
  rw [he]
  refine ⟨Only.trans (hset.mono (by decide)) (hcheck.mono (by decide)), (hcheck.same .power (by decide)).trans hpower, ?_, ?_, ?_, ?_⟩
  · rw [coilCheck_clk, clk_of_only hset (by decide)]
  · have hkeep : (coilCheck u).head.present = u.head.present := by
      unfold coilCheck coilOff
      split
      · rfl
      · split
        · rw [portDown_head, portDown_head]
          rfl
        · rfl
    rw [hkeep, hhead]
  · intro h
    have hoff : coilAllowed u = false := by simp [coilAllowed, hhead, h]
    rw [coilCheck, hoff]
    exact coilOff_coil u
  · intro h
    have hsame : coilCheck u = u := coilCheck_of_off (by rw [hhead]; exact h)
    rw [hsame]
    exact ⟨hset, hhead⟩

theorem mainIsGood_eq {head : Bool} {s : State} (hmain : s.power.mainGood = false) (haon : s.power.aonGood = true) : mainIsGood head s =
    if (internalOver (s.mainOn head)).season.season = .winter then mainReturns (internalOver (s.mainOn head))
    else if (internalOver (s.mainOn head)).season.season = .spring ∧ (internalOver (s.mainOn head)).persist.coldStep = 0 then
      headDetect (internalOver (s.mainOn head)).head.present (internalOver (s.mainOn head))
    else internalOver (s.mainOn head) := by
  have hon : (if s.power.mainGood then s else s.mainOn head) = s.mainOn head := if_neg (by simp [hmain])
  have haon' : (s.mainOn head).power.aonGood = true := by rw [(mainOn_spec head s).2.1]; exact haon
  unfold mainIsGood
  exact (congrArg (fun t : State => if t.power.aonGood then
      (if (internalOver t).season.season = .winter then mainReturns (internalOver t)
        else if (internalOver t).season.season = .spring ∧ (internalOver t).persist.coldStep = 0 then
          headDetect (internalOver t).head.present (internalOver t)
        else internalOver t) else t) hon).trans (if_pos haon')

/-- The module reset is released (R499, R500): the slot pins are read, the wake counters begin again, and the head is read. -/
def State.slotRead (s : State) : State :=
  let t := (readSlotPins (s.modPower fun p => { p with resetLow := false })).modWake fun w => { w with matched := 0, other := 0 }
  if t.power.mainGood ∧ t.season.season = .spring then headDetect t.head.present t else t

theorem slotRead_spec {s : State} (h : s.head.present = true) : Only [.power, .cgu, .head, .ports, .wake] s s.slotRead
    ∧ s.slotRead.power = { s.power with resetLow := false } ∧ s.slotRead.cgu.unitId = s.power.slotId ∧ s.slotRead.cgu.role = s.cgu.role
    ∧ s.slotRead.wake.matched = 0 ∧ s.slotRead.wake.other = 0 ∧ s.slotRead.wake.pattern = s.wake.pattern := by
  have hpins : Only [.power, .cgu, .head, .ports, .wake] s ((readSlotPins (s.modPower fun p => { p with resetLow := false })).modWake
      fun w => { w with
      matched := 0, other := 0 }) :=
    State.modWake_only _ (readSlotPins_only _ (State.modPower_only _ (Only.refl _ s) (by simp)) (by simp)) (by simp)
  have hfields : ((readSlotPins (s.modPower fun p => { p with resetLow := false })).modWake fun w => { w with matched := 0, other := 0 }).power =
        { s.power with resetLow := false }
      ∧ ((readSlotPins (s.modPower fun p => { p with resetLow := false })).modWake fun w => { w with matched := 0, other := 0 }).cgu.unitId =
          s.power.slotId
      ∧ ((readSlotPins (s.modPower fun p => { p with resetLow := false })).modWake fun w => { w with matched := 0, other := 0 }).cgu.role = s.cgu.role
      ∧ ((readSlotPins (s.modPower fun p => { p with resetLow := false })).modWake fun w => { w with matched := 0, other := 0 }).wake =
        { s.wake with matched := 0, other := 0 } := ⟨rfl, rfl, rfl, rfl⟩
  have hhead : ((readSlotPins (s.modPower fun p => { p with resetLow := false })).modWake fun w => { w with matched := 0, other :=
      0 }).head.present = true := h
  unfold State.slotRead
  dsimp only
  generalize (readSlotPins (s.modPower fun p => { p with resetLow := false })).modWake (fun w => { w with matched := 0, other := 0 }) = t
    at hpins hfields hhead
  obtain ⟨hpower, hunit, hrole, hwake⟩ := hfields
  split
  · have hread := headDetect_true_only t
    rw [hhead, hread.same .power (by decide), hread.same .cgu (by decide), hread.same .wake (by decide), hwake]
    exact ⟨Only.trans hpins (hread.mono (by decide)), hpower, hunit, hrole, rfl, rfl, rfl⟩
  · rw [hwake]
    exact ⟨hpins, hpower, hunit, hrole, rfl, rfl, rfl⟩

/-- The finding of a rail out of its band (R354, R505). -/
def railFinding (r : Rail) : Finding := { block := if r.ofIsland then .bki else .pmc, kind := 11, cls := 3, persist := true }

theorem railBad_contains (r : Rail) (s : State) : (railBad r s).power.badRails.contains r = true := by
  have he : (railBad r s).power.badRails = if s.power.badRails.contains r then s.power.badRails else s.power.badRails ++ [r] := rfl
  rw [he]
  split
  next h => exact h
  next => simp

/-- The PMC's finding of its temperature (R508). -/
def hotFinding : Finding := { block := .pmc, kind := 11, cls := 3, persist := true }

/-- The PMC's reading above its limits (R508): the finding is made once. -/
def State.heated (d : Int) (s : State) : State :=
  let u := s.modPower fun p => { p with tempMax := d, hotSince := some (p.hotSince.getD s.now) }
  if !s.power.hot then raise hotFinding (u.modPower fun p => { p with hot := true }) else u

theorem heated_spec (d : Int) (s : State) :
    Only [.ports, .head, .sw, .insts, .cgu, .ocu, .mlk, .time, .bki, .faults, .evr, .mbx, .persist, .mon, .power] s (s.heated d)
    ∧ (s.heated d).power = { s.power with tempMax := d, hotSince := some (s.power.hotSince.getD s.now), hot := true }
    ∧ (s.heated d).now = s.now ∧ (s.power.hot = false → (s.heated d).unitF = true) := by
  unfold State.heated
  dsimp only
  split
  next h =>
    have hf : hotFinding.cls = 2 ∨ hotFinding.cls = 3 ∧ hotFinding.block ≠ .mgp := .inr ⟨rfl, by decide⟩
    have hset : Only [.power] s ((s.modPower fun p => { p with tempMax := d, hotSince := some (p.hotSince.getD s.now) }).modPower fun p => { p with
        hot := true }) := State.modPower_only _ (State.modPower_only _ (Only.refl _ s) (by simp)) (by simp)
    have hpow : ((s.modPower fun p => { p with tempMax := d, hotSince := some (p.hotSince.getD s.now) }).modPower fun p => { p with hot :=
        true }).power =
        { s.power with tempMax := d, hotSince := some (s.power.hotSince.getD s.now), hot := true } := rfl
    generalize (s.modPower fun p => { p with tempMax := d, hotSince := some (p.hotSince.getD s.now) }).modPower (fun p => { p with hot := true }) = u
      at hset hpow
    have hraise : Only [.ports, .head, .sw, .insts, .cgu, .ocu, .mlk, .time, .bki, .faults, .evr, .mbx, .persist, .mon] u (raise hotFinding u) :=
      raise_only _ _ (Only.refl _ u) (by simp)
    exact ⟨Only.trans (hset.mono (by decide)) (hraise.mono (by decide)), (hraise.same .power (by decide)).trans hpow,
      (now_of_clk (raise_clk _ u)).trans (congrArg Time.age (hset.same .time (by decide))), fun _ => unitF_of_fset (raise_fActive hf u rfl)⟩
  next h =>
    have hhot : s.power.hot = true := by simpa using h
    refine ⟨State.modPower_only _ (Only.refl _ s) (by simp), ?_, rfl, fun hh => absurd (hh.symm.trans hhot) (by decide)⟩
    rw [← hhot]
    rfl

/-! ### The obligation -/

/-- A pair of image verdicts is good where the one of either bank is. -/
theorem either_bank (x y b : Bool) : ([x, y].getD (b2n b) false || [x, y].getD (1 - b2n b) false) = (x || y) := by
  cases b
  · rfl
  · exact Bool.or_comm ..

/-- Settles O46. -/
theorem suppliesResetsAndTemperature : Obligations.SuppliesResetsAndTemperature := by
  refine ⟨?_, ?_, ?_, ?_, ?_, ?_, ?_, ?_, ?_, ?_, ?_, ?_, ?_, ?_, ?_, ?_, ?_, ?_, ?_, ?_, ?_, ?_, ?_, ?_, ?_, ?_, ?_⟩
  case refine_1 =>
    intro a b s ok haon hlow hhigh hover hhead
    have hret : ¬(a.mv ≤ 10500 ∨ s.power.aonGood = true ∨ s.power.aonOver = true ∧ 14000 ≤ a.mv) := by
      rintro (h | h | ⟨h, h'⟩)
      · omega
      · exact absurd (haon.symm.trans h) (by decide)
      · exact absurd (hover h) (by omega)
    have he : exec (.aonGood a b) s = .next (aonStarts ([a.okA, b].zipIdx.map fun x => x.1 && backstopVerified (s.persist.bkiImg.getD x.2 {}) s)
        a.slotId s) := by
      have he : exec (.aonGood a b) s = execAonGood a b s := rfl
      rw [he, execAonGood, if_neg (by omega), if_neg hret]
    have hverdict := either_bank (a.okA && backstopVerified (s.persist.bkiImg.getD 0 {}) s) (b && backstopVerified (s.persist.bkiImg.getD 1 {}) s)
      s.persist.activeBank
    obtain ⟨u, v, hu, hv, hstart⟩ := aonStarts_eq (oks := [a.okA, b].zipIdx.map fun x => x.1 && backstopVerified (s.persist.bkiImg.getD x.2 {}) s)
      (slotId := a.slotId) hhead
    rw [hstart] at he
    have hpower := hv.same .power (by decide)
    have hbank : v.persist.activeBank = s.persist.activeBank :=
      (congrArg Persist.activeBank (hv.same .persist (by decide)) :).trans (congrArg Persist.activeBank (hu.same .persist (by decide)) :)
    have hcopies : v.persist.copies = s.persist.copies :=
      (congrArg Persist.copies (hv.same .persist (by decide)) :).trans (congrArg Persist.copies (hu.same .persist (by decide)) :)
    rw [← hbank] at hverdict
    refine ⟨_, he, (congrArg Power.aonGood hpower :), (congrArg Power.aonOver hpower :), (congrArg Power.slotId hpower :), hverdict,
      congrArg Bool.not hverdict, hbank, ?_, hv.same .insts (by decide), hv.same .time (by decide), hv.same .sw (by decide),
      hv.same .season (by decide), hv.same .faults (by decide), hcopies, (hv.same .pending (by decide)).trans (hu.same .pending (by decide))⟩
    exact (hv.same .cgu (by decide)).trans
      (congrArg (fun c : Cgu => { State.reset.cgu with idConflict := c.idConflict }) (hu.same .cgu (by decide)) :)
  case refine_2 =>
    intro a b s haon h
    refine ⟨s, ?_, rfl⟩
    have he : exec (.aonGood a b) s = execAonGood a b s := rfl
    rw [he, execAonGood, if_neg (by omega), if_pos (by rcases h with h | ⟨h, h', -⟩; exacts [.inl h, .inr (.inr ⟨h, h'⟩)])]
  case refine_3 =>
    intro a b s hmv
    have he : exec (.aonGood a b) s = .next (powerOff (s.modPower fun p => { p with aonOver := true })) := by
      have he : exec (.aonGood a b) s = execAonGood a b s := rfl
      rw [he, execAonGood, if_pos hmv]
    obtain ⟨u, hu, hoff⟩ := powerOff_eq (s.modPower fun p => { p with aonOver := true })
    rw [hoff] at he
    exact ⟨_, he, rfl, (congrArg Power.aonOver (hu.same .power (by decide)) :), rfl, hu.same .pending (by decide)⟩
  case refine_4 =>
    intro s
    obtain ⟨u, hu, hoff⟩ := powerOff_eq s
    have he : exec .aonLost s = .next u.unpowered := by
      rw [← hoff]
      rfl
    exact ⟨_, he, rfl, (congrArg (fun c : Cgu => { State.reset.cgu with idConflict := c.idConflict }) (hu.same .cgu (by decide)) :), rfl, rfl,
        rfl, rfl,
      (congrArg Persist.copies (hu.same .persist (by decide)) :), (congrArg Mbx.hostMem (hu.same .mbx (by decide)) :), hu.same .pending (by decide)⟩
  case refine_5 =>
    intro d s hd
    obtain ⟨u, hu, hoff⟩ := powerOff_eq s
    have he : exec (.bkiThermalReset d) s = .next u.unpowered := by
      have he : exec (.bkiThermalReset d) s = execBkiThermalReset d s := rfl
      rw [he, execBkiThermalReset, if_pos hd, hoff]
    exact ⟨_, he, rfl, (congrArg (fun c : Cgu => { State.reset.cgu with idConflict := c.idConflict }) (hu.same .cgu (by decide)) :), rfl, rfl, rfl,
      hu.same .pending (by decide)⟩
  case refine_6 =>
    intro m s hlow hhigh hover haon hwinter hmain hdis hcause htb hosc
    have hret : ¬(m.mv ≤ 10500 ∨ s.power.mainOver = true ∧ 14000 ≤ m.mv) := by
      rintro (h | ⟨h, h'⟩)
      · omega
      · exact absurd (hover h) (by omega)
    obtain ⟨hon, hpower, hclk, hpresent, -⟩ := mainOn_spec m.head s
    have hseason : (s.mainOn m.head).season = s.season := hon.same .season (by decide)
    obtain ⟨hend, hgood, hat, hconn⟩ := internalOver_winter (s := s.mainOn m.head) (by rw [hseason]; exact hwinter)
    have hseason' : (internalOver (s.mainOn m.head)).season = s.season := (hend.same .season (by decide)).trans hseason
    have he : exec (.mainGood m) s = .next (mainReturns (internalOver (s.mainOn m.head))) := by
      have he : exec (.mainGood m) s = execMainGood m s := rfl
      rw [he, execMainGood, if_neg (by omega), if_neg hret, mainIsGood_eq hmain haon]
      exact congrArg Host.Outcome.next (if_pos (by rw [hseason']; exact hwinter))
    have hclk' : (internalOver (s.mainOn m.head)).clk = s.clk := (clk_of_only hend (by decide)).trans hclk
    have hpresent' : (internalOver (s.mainOn m.head)).head.present = m.head :=
      (congrArg Head.present (hend.same .head (by decide))).trans hpresent
    rw [hpower] at hgood hat hconn
    generalize internalOver (s.mainOn m.head) = v at he hgood hat hconn hseason' hclk' hpresent'
    have htb' : v.time.tbStopped = true := (congrArg Time.tbStopped hclk' :).trans htb
    have hosc' : v.time.oscFailed = false := (congrArg Time.oscFailed hclk' :).trans hosc
    obtain ⟨hreach, hepoch⟩ := until_reaches (v.power.mainGoodAt + ms 100) htb' hosc'
    have hret' : mainReturns v = springBegin (v.season.wakeHeld.getD 3) (v.until (v.power.mainGoodAt + ms 100)) := by
      rw [mainReturns, if_pos ⟨by rw [hseason']; exact hwinter,
          hgood, by rw [hconn, hdis]; rfl, .inl (by rw [hseason']; exact hcause)⟩, whenDue_reached hreach]
    have hage := until_only v (v.power.mainGoodAt + ms 100)
    obtain ⟨hspring, hwake, hmain', hnow, hrun, hepoch', hhead⟩ := springBegin_spec (v.season.wakeHeld.getD 3) (v.until (v.power.mainGoodAt + ms 100))
    rw [hret'] at he
    refine ⟨_, he, hspring, ?_, ?_, ?_, hrun, ?_, ?_⟩
    · rw [hwake, hseason']
    · rw [hmain', hage.same .power (by decide)]
      exact hgood
    · have hat' : v.power.mainGoodAt = s.now := hat
      rw [hat'] at hreach
      rw [hnow, hat']
      exact hreach
    · rw [hepoch', hepoch]
      exact (congrArg Time.stepEpoch hclk' :)
    · rw [hhead, hage.same .head (by decide)]
      exact hpresent'
  case refine_7 =>
    intro m s hlow hhigh hover haon hseason hint hmain
    have hret : ¬(m.mv ≤ 10500 ∨ s.power.mainOver = true ∧ 14000 ≤ m.mv) := by
      rintro (h | ⟨h, h'⟩)
      · omega
      · exact absurd (hover h) (by omega)
    obtain ⟨hon, hpower, -, hpresent, hoff, hhead⟩ := mainOn_spec m.head s
    have hover' : internalOver (s.mainOn m.head) = s.mainOn m.head := if_neg fun h => by
      rw [hpower] at h
      exact absurd (h.1.symm.trans hint) (by decide)
    have hseason' : (s.mainOn m.head).season = s.season := hon.same .season (by decide)
    have he : exec (.mainGood m) s = .next (s.mainOn m.head) := by
      have he : exec (.mainGood m) s = execMainGood m s := rfl
      rw [he, execMainGood, if_neg (by omega), if_neg hret, mainIsGood_eq hmain haon, hover', hseason']
      rcases hseason with h | h <;> rw [h] <;> rfl
    exact ⟨_, he, hon, (congrArg Power.mainGood hpower :), hpresent, hoff, hhead⟩
  case refine_8 =>
    intro m s h
    refine ⟨s, ?_, rfl⟩
    have he : exec (.mainGood m) s = execMainGood m s := rfl
    rw [he, execMainGood, if_neg (by omega), if_pos (by rcases h with h | ⟨h, h', -⟩; exacts [.inl h, .inr ⟨h, h'⟩])]
  case refine_9 =>
    intro m s hmv haon hseason
    have he : exec (.mainGood m) s = .next (winterEntry true ((s.modPower fun p => { p with mainOver := true }).modPower fun p => { p with
        mainGood := false, internalFail := false, resetPend := false })) := by
      have he : exec (.mainGood m) s = execMainGood m s := rfl
      rw [he, execMainGood, if_pos hmv, mainIsLost_eq (s := s.modPower fun p => { p with mainOver := true }) haon hseason]
    obtain ⟨u, hu, -, hpower, -⟩ := winterEntry_eq true ((s.modPower fun p => { p with mainOver := true }).modPower fun p => { p with
        mainGood := false, internalFail := false, resetPend := false })
    rw [hu] at he
    refine ⟨_, he, rfl, rfl, ?_, ?_, rfl⟩
    · exact (congrArg Power.mainGood hpower :)
    · exact (congrArg Power.mainOver hpower :)
  case refine_10 =>
    intro s haon hseason
    have he : exec .mainLost s = .next (winterEntry true (s.modPower fun p => { p with mainGood := false, internalFail := false, resetPend :=
        false })) := by
      have he : exec .mainLost s = execMainLost s := rfl
      rw [he, execMainLost, mainIsLost_eq haon hseason]
    obtain ⟨u, hu, -, hpower, hclk, hdrive, -⟩ := winterEntry_eq true (s.modPower fun p => { p with
        mainGood := false, internalFail := false, resetPend := false })
    rw [hu] at he
    exact ⟨_, he, rfl, rfl, (congrArg Power.mainGood hpower :), (congrArg Power.resetPend hpower :), rfl, rfl, rfl, (btDriven_of_drive hdrive :), rfl,
      (congrArg Time.age hclk :)⟩
  case refine_11 =>
    intro s hpfw haon hreach hspring
    have he : exec .pfwNFall s = .next (powerFail false ((s.until (s.now + 2000)).modPower fun p => { p with pfwLow := true })) := by
      have he : exec .pfwNFall s = execPfwNFall s := rfl
      rw [he, execPfwNFall, if_neg (by simp [hpfw]), pinLow_of_reached haon hreach]
    have htime := until_only s (s.now + 2000)
    generalize s.until (s.now + 2000) = u at he htime
    have hseason : u.season = s.season := htime.same .season (by decide)
    have hpower : u.power = s.power := htime.same .power (by decide)
    have hevr : u.evr = s.evr := htime.same .evr (by decide)
    obtain ⟨honly, hcoil, hfrozen, hdrive⟩ := powerFail_spec (internal := false) (s := u.modPower fun p => { p with pfwLow := true })
      (by rw [← hseason] at hspring; exact hspring)
    refine ⟨_, he, ?_, hcoil, ?_, ?_, ?_⟩
    · rw [honly.same .power (by decide), ← hpower]
      rfl
    · rw [hfrozen, ← hevr]
      rfl
    · rw [honly.same .season (by decide), ← hseason]
      rfl
    · rw [btDriven_of_drive hdrive, ← htime.same .bki (by decide)]
      rfl
  case refine_12 =>
    intro s hpfw hpend
    have hsave : Only [.power, .evr, .mbx] s (saveReturns (s.modPower fun p => { p with pfwLow := false })) :=
      saveReturns_only _ (State.modPower_only _ (Only.refl _ s) (by simp)) (by simp)
    have hevr : Only [.evr] (s.modPower fun p => { p with pfwLow := false }) (saveReturns (s.modPower fun p => { p with pfwLow := false })) :=
      saveReturns_only _ (Only.refl _ _) (by simp)
    have hpower : (saveReturns (s.modPower fun p => { p with pfwLow := false })).power = { s.power with pfwLow := false } := hevr.same .power
        (by decide)
    have he : exec .pfwNRise s = .next (saveReturns (s.modPower fun p => { p with pfwLow := false })) := by
      have he : exec .pfwNRise s = execPfwNRise s := rfl
      have hdue : resetDue (saveReturns (s.modPower fun p => { p with pfwLow := false })) = saveReturns (s.modPower fun p => { p with pfwLow :=
          false }) :=
        if_neg fun h => by
          rw [hpower] at h
          exact absurd (h.1.symm.trans hpend) (by decide)
      rw [he, execPfwNRise, if_pos hpfw, hdue]
    exact ⟨_, he, hsave, hpower, saveReturns_frozen _⟩
  case refine_13 =>
    intro mv n s hn
    refine ⟨s, ?_, rfl⟩
    have he : exec (.internalPowerFail ⟨mv, n⟩) s = execInternalPowerFail ⟨mv, n⟩ s := rfl
    rw [he, execInternalPowerFail, if_neg fun h => absurd h.2.1 (Nat.not_le.2 hn)]
  case refine_14 =>
    intro mv n s hmv hn hpfw hint hmain hspring
    have he : exec (.internalPowerFail ⟨mv, n⟩) s = .next (powerFail true (s.modPower fun p => { p with internalFail := true })) := by
      have he : exec (.internalPowerFail ⟨mv, n⟩) s = execInternalPowerFail ⟨mv, n⟩ s := rfl
      rw [he, execInternalPowerFail, if_pos ⟨hmv, hn, by simp [hpfw], by simp [hint], hmain⟩]
    obtain ⟨honly, hcoil, hfrozen, hdrive⟩ := powerFail_spec (internal := true) (s := s.modPower fun p => { p with internalFail := true }) hspring
    exact ⟨_, he, honly.same .power (by decide), hcoil, hfrozen, honly.same .season (by decide), btDriven_of_drive hdrive⟩
  case refine_15 =>
    intro s u hlow hreach haon hsave hseason
    have htime : Only [.time] s u := until_only s (s.now + 10000)
    have he : exec .modResetLow s = .next (resetFalls u) := by
      have he : exec .modResetLow s = execModResetLow s := rfl
      rw [he, execModResetLow, if_neg (by simp [hlow]), pinLow_of_reached haon hreach]
    clear_value u
    have hpower : u.power = s.power := htime.same .power (by decide)
    have hevr : u.evr = s.evr := htime.same .evr (by decide)
    have hseason' : u.season = s.season := htime.same .season (by decide)
    have hfall : resetFalls u = modReset (u.modPower fun p => { p with resetLow := true }) := by
      have haon' : u.power.aonGood = true := by rw [hpower]; exact haon
      have hsave' : u.evr.saveInto = none := by rw [hevr]; exact hsave
      unfold resetFalls
      dsimp only
      rw [if_neg (by simp [haon']), if_neg (by simp [hsave'])]
    rw [hfall, modReset_eq (by rw [← hseason'] at hseason; exact hseason)] at he
    have hcoil : Only [.ports, .head, .sw, .insts, .cgu, .time, .bki, .evr, .mbx] ((u.modPower fun p => { p with resetLow := true }).modPower fun p =>
        { p with resetPend := false }) (coilOff ((u.modPower fun p => { p with resetLow := true }).modPower fun p => { p with resetPend :=
            false })) :=
      coilOff_only _ (Only.refl _ _) (by simp)
    have hdrive := coilOff_drive ((u.modPower fun p => { p with resetLow := true }).modPower fun p => { p with resetPend := false })
    have hclk := coilOff_clk ((u.modPower fun p => { p with resetLow := true }).modPower fun p => { p with resetPend := false })
    generalize coilOff _ = v at he hcoil hdrive hclk
    have hbki : v.drive = s.drive := by
      rw [hdrive]
      exact (drive_of_only htime (by decide) : u.drive = s.drive)
    refine ⟨_, he, ?_, rfl, rfl, rfl, rfl, rfl, rfl, rfl, (btDriven_of_drive hbki :), (elems_of_drive hbki :), (congrArg Time.age hclk :),
      (congrArg Time.tbNs hclk :), ?_⟩
    · exact (congrArg Power.resetLow (hcoil.same .power (by decide)) :)
    · exact (congrArg Persist.copies ((hcoil.same .persist (by decide)).trans (htime.same .persist (by decide))) :)
  case refine_16 =>
    intro s hlow
    refine ⟨s, ?_, rfl⟩
    have he : exec .modResetLow s = execModResetLow s := rfl
    rw [he, execModResetLow, if_pos hlow]
  case refine_17 =>
    intro k s hlow hreach haon hsave
    have htime : Only [.time] s (s.until (s.now + 10000)) := until_only s (s.now + 10000)
    have he : exec .modResetLow s = .next (resetFalls (s.until (s.now + 10000))) := by
      have he : exec .modResetLow s = execModResetLow s := rfl
      rw [he, execModResetLow, if_neg (by simp [hlow]), pinLow_of_reached haon hreach]
    generalize s.until (s.now + 10000) = u at he htime
    have hpower : u.power = s.power := htime.same .power (by decide)
    have hevr : u.evr = s.evr := htime.same .evr (by decide)
    have hfall : resetFalls u = coilOff ((u.modPower fun p => { p with resetLow := true }).modPower fun p => { p with resetPend := true }) := by
      have haon' : u.power.aonGood = true := by rw [hpower]; exact haon
      have hsave' : u.evr.saveInto = some k := by rw [hevr]; exact hsave
      unfold resetFalls
      dsimp only
      rw [if_neg (by simp [haon']), if_pos (by simp [hsave'])]
    rw [hfall] at he
    have hcoil : Only [.ports, .head, .sw, .insts, .cgu, .time, .bki, .evr, .mbx] ((u.modPower fun p => { p with resetLow := true }).modPower fun p =>
        { p with resetPend := true }) (coilOff ((u.modPower fun p => { p with resetLow := true }).modPower fun p => { p with resetPend := true })) :=
      coilOff_only _ (Only.refl _ _) (by simp)
    have hp := hcoil.same .power (by decide)
    exact ⟨_, he, (congrArg Power.resetLow hp :), (congrArg Power.resetPend hp :), coilOff_coil _,
      (hcoil.same .season (by decide)).trans (htime.same .season (by decide))⟩
  case refine_18 =>
    intro s hlow haon hpend hseason hhead
    have he : exec .modResetRelease s = .next (s.slotRead) := by
      have he : exec .modResetRelease s = execModResetRelease s := rfl
      rw [he, execModResetRelease, if_pos hlow]
      exact congrArg Host.Outcome.next ((if_pos ⟨haon, by simp [hpend]⟩).trans (if_neg hseason))
    obtain ⟨honly, hkeep⟩ := slotRead_spec hhead
    exact ⟨_, he, honly, hkeep⟩
  case refine_19 =>
    intro s
    have he : exec (.perstN true) s = .next (bar0Reset (s.modPower fun p => { p with perstLow := true })) := rfl
    exact ⟨_, he, State.modMbx_only _ (State.modEvr_only _ (State.modPower_only _ (Only.refl _ s) (by simp)) (by simp)) (by simp), rfl, rfl, rfl,
        rfl, rfl⟩
  case refine_20 =>
    intro s
    have he : exec (.perstN false) s = .next (told (s.modPower fun p => { p with perstLow := false })
        ((s.modPower fun p => { p with perstLow := false }).modMbx fun m => { m with ready := s.persist.fwUp })) := rfl
    refine ⟨_, he, told_only _ _ (State.modMbx_only _ (State.modPower_only _ (Only.refl _ s) (by simp)) (by simp)) (by simp), ?_, fun h => ?_, ?_⟩
    · unfold told
      split <;> rfl
    · have hready : ({ s.mbx with ready := s.persist.fwUp } : Mbx) = s.mbx := by rw [← h]
      have hsame : ((s.modPower fun p => { p with perstLow := false }).modMbx fun m => { m with ready := s.persist.fwUp }) =
          s.modPower fun p => { p with perstLow := false } := (congrArg (fun m : Mbx => { (s.modPower fun p => { p with perstLow :=
              false }) with mbx := m }) hready :)
      rw [hsame, told, if_pos rfl]
      rfl
    · unfold told
      split <;> rfl
  case refine_21 =>
    intro d s hdis hmain hseason hd hhot hsince
    have he : exec (.thermalCheck d) s = .next (thermal d s) := by
      have he : exec (.thermalCheck d) s = execThermalCheck d s := rfl
      rw [he, execThermalCheck, if_neg (by simp [hdis]), if_pos ⟨hmain, hseason⟩]
    have hcool : thermal d s = s.modPower fun p => { p with tempMax := d } := by
      have hread : (s.modPower fun p => { p with tempMax := d, hotSince := if 120 < d then some (p.hotSince.getD s.now) else none })
          = s.modPower fun p => { p with tempMax := d } := by
        have hp : ({ s.power with tempMax := d, hotSince := if 120 < d then some (s.power.hotSince.getD s.now) else none } : Power) =
            { s.power with tempMax := d } := by rw [if_neg (by omega), ← hsince]
        exact (congrArg (fun p : Power => { s with power := p }) hp :)
      unfold thermal
      dsimp only
      rw [hread]
      have hwarm : ¬(105 < d ∧ (!(s.modPower fun p => { p with tempMax := d }).power.hot) = true) := fun h => by omega
      have hstay : ¬(d ≤ 100 ∧ (s.modPower fun p => { p with tempMax := d }).power.hot = true) := fun h => absurd (h.2.symm.trans hhot) (by decide)
      have hlong : (s.modPower fun p => { p with tempMax := d }).power.hotSince = none := hsince
      rw [if_neg hwarm, if_neg hstay, hlong]
      exact if_neg (by simp; omega)
    rw [hcool] at he
    exact ⟨_, he, State.modPower_only _ (Only.refl _ s) (by simp), rfl⟩
  case refine_22 =>
    intro d s hdis hmain hseason hd hcut
    have hnw : s.season.season ≠ .winter := by rcases hseason with h | h <;> simp [h]
    have hns : s.season.season ≠ .spring := by rcases hseason with h | h <;> simp [h]
    have he : exec (.thermalCheck d) s = .next (thermal d s) := by
      have he : exec (.thermalCheck d) s = execThermalCheck d s := rfl
      rw [he, execThermalCheck, if_neg (by simp [hdis]), if_pos ⟨hmain, hnw⟩]
    have hhot : thermal d s = cutOff (s.heated d) := by
      have hread : (s.modPower fun p => { p with tempMax := d, hotSince := if 120 < d then some (p.hotSince.getD s.now) else none })
          = s.modPower fun p => { p with tempMax := d, hotSince := some (p.hotSince.getD s.now) } := by
        have h120 : 120 < d := by omega
        simp only [h120, if_true]
      unfold thermal
      dsimp only
      rw [hread, if_pos (.inl hd), State.heated]
      cases hh : s.power.hot with
      | false =>
        have hrise : 105 < d ∧ (!(s.modPower fun p => { p with tempMax := d, hotSince := some (p.hotSince.getD s.now) }).power.hot) = true :=
          ⟨by omega, by rw [State.modPower_power, hh]; rfl⟩
        rw [if_pos hrise]
        rfl
      | true =>
        have hrise : ¬(105 < d ∧ (!(s.modPower fun p => { p with tempMax := d, hotSince := some (p.hotSince.getD s.now) }).power.hot) = true) :=
            fun h =>
          absurd h.2 (by rw [State.modPower_power, hh]; decide)
        have hstay : ¬(d ≤ 100 ∧ (s.modPower fun p => { p with tempMax := d, hotSince := some (p.hotSince.getD s.now) }).power.hot = true) :=
            fun h => by
          omega
        rw [if_neg hrise, if_neg hstay]
        rfl
    obtain ⟨hall, hpow, hnow, hf⟩ := heated_spec d s
    rw [hhot] at he
    generalize s.heated d = u at he hall hpow hnow hf
    have hseason' : u.season = s.season := hall.same .season (by decide)
    have hcut' : cutOff u = powerFail true (u.modPower fun p => { p with cutoffAt := some u.now, internalFail := true }) :=
      if_neg (by rw [hpow, hcut]; decide)
    obtain ⟨honly, hcoil, -⟩ := powerFail_spec (internal := true) (s := u.modPower fun p => { p with cutoffAt := some u.now, internalFail := true })
      (by rw [← hseason'] at hns; exact hns)
    have hpow' := honly.same .power (by decide)
    rw [hcut'] at he
    refine ⟨_, he, ?_, ?_, ?_, hcoil, (honly.same .season (by decide)).trans hseason', fun hh => ?_⟩
    · rw [hpow', ← hnow]
      rfl
    · rw [hpow']
      rfl
    · rw [hpow']
      exact (congrArg Power.tempMax hpow :)
    · have hfs : (powerFail true (u.modPower fun p => { p with cutoffAt := some u.now, internalFail := true })).faults = u.faults :=
        honly.same .faults (by decide)
      rw [hpow']
      refine ⟨(congrArg Power.hot hpow :), ?_⟩
      rw [State.unitF, hfs]
      exact hf hh
  case refine_23 =>
    intro a s hcut hdue hseason
    have he : exec .thermalDisconnect s = .next (winterEntry true (s.modPower fun p => { p with
        disconnected := true, cutoffAt := none, resetPend := false })) := by
      have he : exec .thermalDisconnect s = execThermalDisconnect s := rfl
      rw [he, execThermalDisconnect, hcut]
      dsimp only
      rw [whenDue_now _ hdue]
      exact congrArg Host.Outcome.next (if_neg hseason)
    obtain ⟨u, hu, -, hpower, -, hdrive, -⟩ := winterEntry_eq true (s.modPower fun p => { p with
        disconnected := true, cutoffAt := none, resetPend := false })
    rw [hu] at he
    exact ⟨_, he, (congrArg Power.disconnected hpower :), (congrArg Power.cutoffAt hpower :), rfl, rfl, (btDriven_of_drive hdrive :)⟩
  case refine_24 =>
    intro r n s hn hon
    have he : exec (.railOutOfBand r n) s = .next (raise (railFinding r) (railBad r s)) := by
      have he : exec (.railOutOfBand r n) s = execRailOutOfBand r n s := rfl
      rw [he, execRailOutOfBand, if_pos ⟨hn, hon⟩]
      rfl
    have hnot : (railFinding r).block ≠ .mgp := by
      unfold railFinding
      dsimp only
      split <;> decide
    have hactive := raise_fActive (f := railFinding r) (.inr ⟨rfl, hnot⟩) (railBad r s) rfl
    have hpower : (raise (railFinding r) (railBad r s)).power = (railBad r s).power :=
      (raise_only (qs := [.ports, .head, .sw, .insts, .cgu, .ocu, .mlk, .time, .bki, .faults, .evr, .mbx, .persist, .mon]) _ _ (Only.refl _ _)
        (by simp)).same .power (by decide)
    refine ⟨_, he, unitF_of_fset hactive, ?_, fun hr => ?_, fun hr => ?_⟩
    · rw [hpower]
      exact railBad_contains r s
    · have hb : (railFinding r).block = .bki := if_pos hr
      obtain ⟨hdriven, hheld⟩ := raise_drive_of_bki (f := railFinding r) rfl hb (railBad r s)
      rw [hb] at hactive
      exact ⟨hheld, hdriven, hactive⟩
    · have hb : (railFinding r).block = .pmc := if_neg (by simp [hr])
      have hdrive := raise_drive (f := railFinding r) (.inr ⟨rfl, hnot, by rw [hb]; decide⟩) (railBad r s)
      rw [hb] at hactive
      exact ⟨coresHeld_of_drive hdrive, btDriven_of_drive hdrive, hactive⟩
  case refine_25 =>
    intro r n s hn
    refine ⟨s, ?_, rfl⟩
    have he : exec (.railOutOfBand r n) s = execRailOutOfBand r n s := rfl
    rw [he, execRailOutOfBand, if_neg fun h => absurd h.1 (Nat.not_le.2 hn)]
  case refine_26 =>
    intro r s hr
    have he : exec (.railInBand r) s = .next (conditionEnds .bki 0 (s.modPower fun p => { p with badRails := p.badRails.filter (· ≠ r) })) := by
      have he : exec (.railInBand r) s = execRailInBand r s := rfl
      rw [he, execRailInBand, if_pos hr]
    have hend : Only [.faults] (s.modPower fun p => { p with badRails := p.badRails.filter (· ≠ r) })
        (conditionEnds .bki 0 (s.modPower fun p => { p with badRails := p.badRails.filter (· ≠ r) })) := conditionEnds_only _ _ _
            (Only.refl _ _) (by simp)
    exact ⟨_, he, conditionEnds_only _ _ _ (State.modPower_only _ (Only.refl _ s) (by simp)) (by simp), hend.same .power (by decide),
      conditionEnds_unitF ..⟩
  case refine_27 =>
    intro k s hk hfw hseason hen htb
    have he : exec (.railInBand (.vc k)) s = execRailInBand (.vc k) s := rfl
    have hend : Only [.faults] (s.modPower fun p => { p with badRails := p.badRails.filter (· ≠ Rail.vc k) })
        (conditionEnds .pmc 0 (s.modPower fun p => { p with badRails := p.badRails.filter (· ≠ Rail.vc k) })) := conditionEnds_only _ _ _
            (Only.refl _ _) (by simp)
    have hall : Only [.power, .faults] s (conditionEnds .pmc 0 (s.modPower fun p => { p with badRails := p.badRails.filter (· ≠ Rail.vc k) })) :=
      conditionEnds_only _ _ _ (State.modPower_only _ (Only.refl _ s) (by simp)) (by simp)
    rw [execRailInBand, if_neg (by simp [Rail.ofIsland])] at he
    dsimp only at he
    generalize conditionEnds .pmc 0 _ = u at he hend hall
    have hpsc := psc_of_only hall (by decide)
    have hbad : u.power.badRails.contains (.vc k) = false := by
      rw [hend.same .power (by decide)]
      simp
    have hgo : u.persist.fwUp = true ∧ u.season.season ≠ .winter ∧ k < 8 ∧ (!(u.psc k).en) = true := by
      rw [hall.same .persist (by decide), hall.same .season (by decide), hpsc]
      exact ⟨hfw, hseason, hk, by simp [hen]⟩
    rw [if_pos hgo, startPsc, if_neg (by rw [hbad, hall.same .time (by decide), htb]; decide)] at he
    have hcmp : Only [.time] (u.setPsc k fun p => { p with en := true, fresh := true, frameNo := 0 })
        (frameCmp k (u.setPsc k fun p => { p with en := true, fresh := true, frameNo := 0 })) := frameCmp_only _ _ (Only.refl _ _) (by simp)
    refine ⟨_, he, frameCmp_only _ _ (State.setPsc_only _ _ _ (hall.mono (by decide)) (by simp)) (by simp), ?_, ?_, fun j hj => ?_⟩
    · rw [psc_of_only hcmp (by decide), State.psc_setPsc_same]
    · rw [psc_of_only hcmp (by decide), State.psc_setPsc_same]
    · rw [psc_of_only hcmp (by decide), State.psc_setPsc_other _ _ hj, hpsc]

end Sys2Proof.Machine
end

section
/-!
PROOFS. The key slots' commands (R404, R410). The obligation O50.
-/
namespace Sys2Proof.Machine
open Sys2Proof

/-- The monitor's key is loaded and locked in slot 0x004, in a table whose numbers do not rise. -/
def lockedKeyState : State :=
  { State.reset with ksu := { State.reset.ksu with slots := [(5, {}), (4, { valid := true, lock := true })] } }

/-- A load of slot 0x004 with GO is refused, and the slot's lock is written all the same (R410): a table whose numbers do not rise comes to list the
slot twice. -/
theorem load_lockedKey : ∃ t, exec (.ksuLoad .mgp 0x80100000) lockedKeyState = .next t ∧ t.ksu.slots ≠ lockedKeyState.ksu.slots :=
  ⟨_, rfl, by decide +kernel⟩

/-- Refutes O50: the refusal of a load into slot 0x004 is said to leave the table of slots as it is, but the lock of a reserved slot that is valid is
written again after it, and in a table whose numbers do not rise that write lists the slot a second time. -/
theorem not_keySlotsAreWrittenOnlyUnlocked : ¬ Obligations.KeySlotsAreWrittenOnlyUnlocked := by
  rintro ⟨-, -, hrefused, -⟩
  obtain ⟨t, hexec, -, hslots, -⟩ := hrefused .mgp 0x80100000 lockedKeyState (by decide) (by decide) rfl (.inl (by decide))
  obtain ⟨u, hrun, hne⟩ := load_lockedKey
  have hsame : t = u := Host.Outcome.next.inj (hexec.symm.trans hrun)
  exact hne (hsame ▸ hslots)

end Sys2Proof.Machine
end

section
/-!
PROOFS. Registers as they are read and written (R13, R430), counter snapshots (R91), the mailbox rings (R442, R444, R454) and the
vectors (R431); O49.
-/
namespace Sys2Proof.Machine
open Sys2Proof

/-! ### The host is told -/

theorem told_mbx (s t : State) : (told s t).mbx = { t.mbx with msixDue := (told s t).mbx.msixDue } := by
  unfold told
  split <;> rfl

theorem told_of_shown {s t : State} (h : s.shown = t.shown) : told s t = t := if_pos h

theorem told_evr (s t : State) : (told s t).evr = t.evr := (told_only (qs := [.mbx]) s t (Only.refl _ t) (by simp)).same .evr (by decide)

theorem told_due {s t : State} (h : s.mbx.badAccess ≠ t.mbx.badAccess) : (told s t).mbx.msixDue.get 19 false = true := by
  have hne : ¬ s.shown = t.shown := fun he => h (List.head_eq_of_cons_eq he)
  rw [told, if_neg hne]
  exact Tbl.get_set_same ..

/-! ### Registers read -/

theorem given_psc (v : Nat) (s : State) (k : Nat) : (given v s).psc k = s.psc k := rfl

theorem wordOf_zero (v : Nat) : wordOf v 0 = v % 2 ^ 32 := congrArg (· % 2 ^ 32) (Nat.div_one v)

theorem wordOf_one (v : Nat) : wordOf v 1 = v / 2 ^ 32 % 2 ^ 32 := rfl

theorem exec_latchingRead_frame {k : Nat} {s : State} (hk : k < 8) :
    exec (.latchingRead (.pscFrameLo k)) s
      = .next (given ((s.psc k).frameNo % 2 ^ 32) (s.setPsc k fun p => { p with hiLatch := some (p.frameNo / 2 ^ 32 % 2 ^ 32) })) := by
  have he : exec (.latchingRead (.pscFrameLo k)) s = execLatchingRead (.pscFrameLo k) s := rfl
  rw [he, execLatchingRead, ← wordOf_zero]
  exact congrArg Host.Outcome.next (if_pos hk)

theorem exec_latchingRead_age (s : State) :
    exec (.latchingRead .ageLo) s
      = .next (given (s.time.age % 2 ^ 32) (s.modTime fun t => { t with ageLatch := some (t.age / 2 ^ 32 % 2 ^ 32) })) := by
  rw [← wordOf_zero]
  rfl

theorem exec_latchingRead_tb (s : State) :
    exec (.latchingRead .tbFrac) s = .next (given (s.time.tbFrac / 65536)
      (s.modTime fun t => { t with tbLatch := some (t.tbNs % 2 ^ 32, t.tbNs / 2 ^ 32 % 2 ^ 32) })) := by
  have he : exec (.latchingRead .tbFrac) s = execLatchingRead .tbFrac s := rfl
  rw [he, execLatchingRead]
  simp only [wordOf_zero, wordOf_one]

theorem pageCleared_readOut (b : BlockId) (u o : Nat) (s : State) : (pageCleared b u o s).fab.readOut = s.fab.readOut := by
  unfold pageCleared
  cases b <;> dsimp only <;> (repeat' split) <;> rfl

theorem bar0Cleared_fab (o : Nat) (s : State) : (bar0Cleared o s).fab = s.fab :=
  (bar0Cleared_only (qs := [.evr, .mbx]) o s (Only.refl _ s) (by simp)).same .fab (by decide)

theorem bar0Cleared_badAccess {o : Nat} (h : o ≠ 0x10) (s : State) : (bar0Cleared o s).mbx.badAccess = s.mbx.badAccess := by
  unfold bar0Cleared
  dsimp only
  rw [if_neg h]
  (repeat' split) <;> rfl

theorem exec_rcRead_page {b : BlockId} {u o : Nat} {s : State} (hup : s.pagesUp = true) (hu : u < b.units) :
    exec (.rcRead (.page b u o)) s = .next (pageCleared b u o (given (regRead (.page b u o) s) s)) := by
  have he : exec (.rcRead (.page b u o)) s = execRcRead (.page b u o) s := rfl
  rw [he, execRcRead]
  exact congrArg Host.Outcome.next (if_pos ⟨hup, hu⟩)

theorem exec_rcRead_bar0 {o : Nat} {s : State} (hup : s.pciUp = true) :
    exec (.rcRead (.bar0 o)) s
      = .next (told (given (regRead (.bar0 o) s) s) (bar0Cleared o (given (regRead (.bar0 o) s) s))) := by
  have he : exec (.rcRead (.bar0 o)) s = execRcRead (.bar0 o) s := rfl
  rw [he, execRcRead]
  exact congrArg Host.Outcome.next (if_pos hup)

theorem rcRead_page_only (b : BlockId) (u o v : Nat) (s : State) :
    Only [.fab, .sce, .sched, .time, .acq, .evr] s (pageCleared b u o (given v s)) :=
  pageCleared_only _ _ _ _ (given_only _ _ (Only.refl _ s) (by simp)) (by simp)

theorem rcRead_bar0_only (o v : Nat) (s : State) : Only [.fab, .mbx, .evr] s (told (given v s) (bar0Cleared o (given v s))) :=
  told_only _ _ (bar0Cleared_only _ _ (given_only _ _ (Only.refl _ s) (by simp)) (by simp)) (by simp)

/-- What clears the RC fields of BAR0 once a value is given keeps that value and what no read of BAR0 reaches. -/
structure ReadKeeps (v : Nat) (s t : State) : Prop where
  readOut : t.fab.readOut = v
  ports : t.ports = s.ports
  cgu : t.cgu = s.cgu
  ksu : t.ksu = s.ksu
  pending : t.pending = s.pending

theorem ReadKeeps.of_only {ps : List Part} {v : Nat} {s t : State} (h : Only ps (given v s) t) (hfab : t.fab.readOut = v)
    (hports : Part.ports ∉ ps) (hcgu : Part.cgu ∉ ps) (hksu : Part.ksu ∉ ps) (hpending : Part.pending ∉ ps) : ReadKeeps v s t :=
  ⟨hfab, h.same .ports hports, h.same .cgu hcgu, h.same .ksu hksu, h.same .pending hpending⟩

theorem ReadKeeps.of_mbx {v : Nat} {s t : State} (h : Only [.evr, .mbx] (given v s) t) : ReadKeeps v s t :=
  .of_only h (congrArg Fabric.readOut (h.same .fab (by decide))) (by decide) (by decide) (by decide) (by decide)

theorem rcRead_keeps (reg : RegAddr) (s : State) (hpci : s.pciUp = true) (hconf : s.pciConfig = true) (hpages : s.pagesUp = true)
    (hunit : ∀ b u o, reg = .page b u o → u < b.units) :
    ∃ t, exec (.rcRead reg) s = .next t ∧ ReadKeeps (regRead reg s) s t := by
  have he : exec (.rcRead reg) s = execRcRead reg s := rfl
  have hgiven : Only [.evr, .mbx] (given (regRead reg s) s) (given (regRead reg s) s) := Only.refl _ _
  cases reg with
  | page b u o =>
    refine ⟨_, exec_rcRead_page hpages (hunit b u o rfl), .of_only
      (pageCleared_only (qs := [.fab, .sce, .sched, .time, .acq, .evr]) b u o _ (Only.refl _ _) (by simp))
      (pageCleared_readOut ..) (by decide) (by decide) (by decide) (by decide)⟩
  | locks o => exact ⟨_, he, .of_mbx hgiven⟩
  | bar0 o =>
    exact ⟨_, exec_rcRead_bar0 hpci, .of_mbx (told_only _ _ (bar0Cleared_only _ _ hgiven (by simp)) (by simp))⟩
  | bar0Be o be =>
    refine ⟨_, he.trans (congrArg Host.Outcome.next (if_pos hpci)), .of_mbx (told_only _ _ ?_ (by simp))⟩
    split
    · exact bar0Cleared_only _ _ hgiven (by simp)
    · exact hgiven
  | bar0Pair o hi =>
    refine ⟨_, he.trans (congrArg Host.Outcome.next (if_pos hpci)), .of_mbx (told_only _ _ ?_ (by simp))⟩
    split
    · exact bar0Cleared_only _ _ (bar0Cleared_only _ _ hgiven (by simp)) (by simp)
    · exact hgiven
  | pci reg => exact ⟨_, he.trans (congrArg Host.Outcome.next (if_pos hconf)), .of_mbx hgiven⟩
  | ctrl i o => exact ⟨_, he, .of_mbx hgiven⟩

/-! ### Counter snapshots -/

/-- The state a snapshot is taken from: what a page counts on demand is counted up to now (R83, R277). -/
def CntPage.counted (p : CntPage) (s : State) : State :=
  match p with | .port k => countPause k s | .mlk => countMissed s | _ => s

theorem snapshot_only_snap (p : CntPage) (s : State) : Only [.mbx, .free] (p.snap (p.counted s)) (snapshot p s) :=
  State.took_only _ (State.modMbx_only _ (Only.refl _ _) (by simp)) (by simp)

theorem CntPage.live_of_only {s t : State} (h : Only [.mbx, .free] s t) (q : CntPage) : q.live t = q.live s := by
  cases q with
  | port k => exact congrArg Port.live (port_of_ports (h.same .ports (by decide)) k)
  | switch => exact congrArg Switch.live (h.same .sw (by decide))
  | sce => exact congrArg Sce.live (h.same .sce (by decide))
  | psc k => exact congrArg Psc.live (psc_of_only h (by decide) k)
  | pmc => exact congrArg Sched.pmcLive (h.same .sched (by decide))
  | tbu => exact congrArg Time.live (h.same .time (by decide))
  | acq => exact congrArg Acq.live (h.same .acq (by decide))
  | bki => exact congrArg Bki.live (h.same .bki (by decide))
  | evr => exact congrArg Evr.live (h.same .evr (by decide))
  | ksu => exact congrArg Ksu.live (h.same .ksu (by decide))
  | cgu => exact congrArg Cgu.live (h.same .cgu (by decide))
  | ocu => exact congrArg Ocu.live (h.same .ocu (by decide))
  | mlk => exact congrArg Mlk.live (h.same .mlk (by decide))

/-- The snapshot bank of a page of counters. -/
def CntPage.bank (p : CntPage) (s : State) : Tbl Nat := snapOf p.place.1 p.place.2 s

theorem CntPage.bank_of_only {s t : State} (h : Only [.mbx, .free] s t) (q : CntPage) : q.bank t = q.bank s := by
  cases q with
  | port k => exact congrArg Port.snap (port_of_ports (h.same .ports (by decide)) k)
  | switch => exact congrArg Switch.snap (h.same .sw (by decide))
  | sce => exact congrArg Sce.snap (h.same .sce (by decide))
  | psc k => exact congrArg Psc.snap (psc_of_only h (by decide) k)
  | pmc => exact congrArg Sched.pmcSnap (h.same .sched (by decide))
  | tbu => exact congrArg Time.snap (h.same .time (by decide))
  | acq => exact congrArg Acq.snap (h.same .acq (by decide))
  | bki => exact congrArg Bki.snap (h.same .bki (by decide))
  | evr => exact congrArg Evr.snap (h.same .evr (by decide))
  | ksu => exact congrArg Ksu.snap (h.same .ksu (by decide))
  | cgu => exact congrArg Cgu.snap (h.same .cgu (by decide))
  | ocu => exact congrArg Ocu.snap (h.same .ocu (by decide))
  | mlk => exact congrArg Mlk.snap (h.same .mlk (by decide))

theorem CntPage.snap_live_bank (p : CntPage) (s : State) : p.live (p.snap s) = [] ∧ p.bank (p.snap s) = p.live s := by
  cases p with
  | port k => exact ⟨congrArg Port.live (State.port_setPort_same ..), congrArg Port.snap (State.port_setPort_same ..)⟩
  | psc k => exact ⟨congrArg Psc.live (State.psc_setPsc_same ..), congrArg Psc.snap (State.psc_setPsc_same ..)⟩
  | _ => exact ⟨rfl, rfl⟩

theorem CntPage.snap_other {p q : CntPage} (h : q ≠ p) (s : State) : q.live (p.snap s) = q.live s ∧ q.bank (p.snap s) = q.bank s := by
  cases p with
  | port k => cases q with
    | port j =>
      have hport := State.port_setPort_other s (fun x => { x with snap := x.live, live := [] }) (show j ≠ k from fun hj => h (hj ▸ rfl))
      exact ⟨congrArg Port.live hport, congrArg Port.snap hport⟩
    | _ => exact ⟨rfl, rfl⟩
  | psc k => cases q with
    | psc j =>
      have hpsc := State.psc_setPsc_other s (fun x => { x with snap := x.live, live := [] }) (show j ≠ k from fun hj => h (hj ▸ rfl))
      exact ⟨congrArg Psc.live hpsc, congrArg Psc.snap hpsc⟩
    | _ => exact ⟨rfl, rfl⟩
  | _ => cases q <;> simp at h <;> exact ⟨rfl, rfl⟩

theorem CntPage.counted_other {p q : CntPage} (h : q ≠ p) (s : State) : q.live (p.counted s) = q.live s ∧ q.bank (p.counted s) = q.bank s := by
  cases p with
  | port k => cases q with
    | port j =>
      have hport := countPause_port_other s (show j ≠ k from fun hj => h (hj ▸ rfl))
      exact ⟨congrArg Port.live hport, congrArg Port.snap hport⟩
    | _ => exact ⟨rfl, rfl⟩
  | mlk => cases q with
    | mlk => exact absurd rfl h
    | _ => exact ⟨rfl, rfl⟩
  | _ => exact ⟨rfl, rfl⟩

theorem snapshot_live (p : CntPage) (s : State) : p.live (snapshot p s) = [] :=
  (CntPage.live_of_only (snapshot_only_snap p s) p).trans (p.snap_live_bank _).1

theorem snapshot_bank (p : CntPage) (s : State) : p.bank (snapshot p s) = p.live (p.counted s) :=
  (CntPage.bank_of_only (snapshot_only_snap p s) p).trans (p.snap_live_bank _).2

theorem snapshot_other {p q : CntPage} (h : q ≠ p) (s : State) : q.live (snapshot p s) = q.live s ∧ q.bank (snapshot p s) = q.bank s := by
  obtain ⟨hlive, hbank⟩ := CntPage.snap_other h (p.counted s)
  obtain ⟨hlive', hbank'⟩ := CntPage.counted_other h s
  exact ⟨(CntPage.live_of_only (snapshot_only_snap p s) q).trans (hlive.trans hlive'),
    (CntPage.bank_of_only (snapshot_only_snap p s) q).trans (hbank.trans hbank')⟩

theorem snapshot_port_only (k : Nat) (s : State) : Only [.ports, .mbx, .free] s (snapshot (.port k) s) :=
  have hsnap : Only [.ports, .mbx, .free] s ((CntPage.port k).snap ((CntPage.port k).counted s)) :=
    State.setPort_only (countPause k s) k (fun x => { x with snap := x.live, live := [] })
      (countPause_only (qs := [.ports, .mbx, .free]) k s (Only.refl _ s) (by simp)) (by simp)
  hsnap.trans ((snapshot_only_snap (.port k) s).mono (by simp))

theorem snapshot_port (k : Nat) (s : State) :
    (snapshot (.port k) s).port k
      = { (countPause k s).port k with snap := ((countPause k s).port k).live, live := [] } :=
  (port_of_ports ((snapshot_only_snap (.port k) s).same .ports (by decide)) k).trans (State.port_setPort_same ..)

theorem snapshot_port_other {k j : Nat} (h : j ≠ k) (s : State) : (snapshot (.port k) s).port j = s.port j :=
  (port_of_ports ((snapshot_only_snap (.port k) s).same .ports (by decide)) j).trans
    ((State.port_setPort_other _ _ h).trans (countPause_port_other s h))

/-! ### Registers written -/

/-- A write of BAR0 that is ignored is counted. -/
def State.badAccess (s : State) : State := s.modMbx fun m => { m with badAccess := satAdd 16 m.badAccess 1 }

theorem exec_registerWrite_bar0 {o : Nat} {v : BitVec 32} {s : State} (hup : s.pciUp = true) :
    exec (.registerWrite (.bar0 o) v) s = .next (told s (bar0Access o 0xF v s)) := by
  have he : exec (.registerWrite (.bar0 o) v) s = execRegisterWrite (.bar0 o) v s := rfl
  rw [he, execRegisterWrite]
  exact congrArg Host.Outcome.next (if_pos hup)

theorem exec_registerWrite_bar0Be {o : Nat} {be : BitVec 4} {v : BitVec 32} {s : State} (hup : s.pciUp = true) :
    exec (.registerWrite (.bar0Be o be) v) s = .next (told s (bar0Access (o / 4 * 4) be v s)) := by
  have he : exec (.registerWrite (.bar0Be o be) v) s = execRegisterWrite (.bar0Be o be) v s := rfl
  rw [he, execRegisterWrite]
  exact congrArg Host.Outcome.next (if_pos hup)

theorem exec_registerWrite_page {b : BlockId} {u o : Nat} {v : BitVec 32} {s : State} (hup : s.pagesUp = true) :
    exec (.registerWrite (.page b u o) v) s = .next (told s (pageWrite b u o v s)) := by
  have he : exec (.registerWrite (.page b u o) v) s = execRegisterWrite (.page b u o) v s := rfl
  rw [he, execRegisterWrite]
  exact congrArg Host.Outcome.next (if_pos hup)

theorem bar0Access_unaligned {o : Nat} {v : BitVec 32} {s : State} (hring : ringOffset o = false) (ho : o % 4 ≠ 0) :
    bar0Access o 0xF v s = s.badAccess := by
  have hbe : ¬ (0xF : BitVec 4) ≠ 0xF := fun h => h rfl
  rw [bar0Access, if_neg (by simp [hring]), if_neg hbe, bar0Write, if_pos ho]
  rfl

theorem bar0Access_partial {o : Nat} {be : BitVec 4} {v : BitVec 32} {s : State} (hring : ringOffset o = false) (hbe : be ≠ 0xF) :
    bar0Access o be v s = s.badAccess := by
  rw [bar0Access, if_neg (by simp [hring]), if_pos hbe]
  rfl

theorem told_badAccess_only (s : State) : Only [.mbx] s (told s s.badAccess) :=
  told_only _ _ (State.modMbx_only _ (Only.refl _ s) (by simp)) (by simp)

theorem told_badAccess_mbx (s : State) :
    (told s s.badAccess).mbx = { s.mbx with badAccess := satAdd 16 s.mbx.badAccess 1, msixDue := (told s s.badAccess).mbx.msixDue } :=
  told_mbx s s.badAccess

theorem badAccess_counts {s : State} (h : s.mbx.badAccess < 65535) : s.mbx.badAccess ≠ s.badAccess.mbx.badAccess := by
  have hcount : s.badAccess.mbx.badAccess = min (s.mbx.badAccess + 1) (2 ^ 16 - 1) := rfl
  rw [hcount]
  omega

/-! ### Ring slots -/

theorem leNat_leBytes : ∀ (n v : Nat), v < 256 ^ n → leNat (leBytes n v) = v
  | 0, v, h => by simp [leBytes, leNat] at h ⊢; omega
  | n + 1, v, h => by
    have hlow : v / 256 < 256 ^ n := by rw [Nat.pow_succ] at h; omega
    rw [leBytes, leNat, leNat_leBytes n (v / 256) hlow, BitVec.toNat_ofNat]
    omega

theorem putAt_slice {f x : List Byte} {i : Nat} (h : i + x.length ≤ f.length) : slice (putAt f i x) i x.length = x := by
  have htake : (f.take i).length = i := by rw [List.length_take]; omega
  rw [slice, putAt, List.append_assoc, List.drop_append_of_le_length (by omega), List.drop_of_length_le (by omega),
    List.nil_append, List.take_left]

/-- The state with the octets of ring slot `k` replaced. -/
def State.slotSet (s : State) (k : Nat) (l : List Byte) : State := s.modMbx fun m => { m with slots := m.slots.set k l }

theorem State.ringSlot_slotSet_same (s : State) (k : Nat) (l : List Byte) : (s.slotSet k l).ringSlot k = l := by
  have hhas : (s.slotSet k l).mbx.slots.has k = true := by
    have hset : (s.slotSet k l).mbx.slots = s.mbx.slots.set k l := rfl
    rw [hset, Tbl.has_set, beq_self_eq_true, Bool.true_or]
  rw [State.ringSlot]
  exact (if_pos hhas).trans (Tbl.get_set_same ..)

theorem State.ringSlot_slotSet_other (s : State) {k j : Nat} (l : List Byte) (h : j ≠ k) : (s.slotSet k l).ringSlot j = s.ringSlot j := by
  have hset : (s.slotSet k l).mbx.slots = s.mbx.slots.set k l := rfl
  have hhas : (s.slotSet k l).mbx.slots.has j = s.mbx.slots.has j := by
    rw [hset, Tbl.has_set, beq_eq_false_iff_ne.mpr (Ne.symm h), Bool.false_or]
  have hget : (s.slotSet k l).mbx.slots.get j [] = s.mbx.slots.get j [] := by rw [hset, Tbl.get_set_other _ _ _ h]
  simp only [State.ringSlot, hhas, hget]
  rfl

/-- A slot's octets once a whole word is written at an aligned offset. -/
def State.slotWord (s : State) (o : Nat) (v : BitVec 32) : State :=
  s.slotSet ((o - 0x100000) / 64) (putAt (s.ringSlot ((o - 0x100000) / 64)) (o % 64) (leBytes 4 v.toNat))

theorem slotWord_only (s : State) (o : Nat) (v : BitVec 32) : Only [.mbx] s (s.slotWord o v) := by
  unfold State.slotWord State.slotSet
  exact State.modMbx_only _ (Only.refl _ s) (by simp)

theorem bar0Access_slot {o : Nat} {v : BitVec 32} {s : State} (hring : ringOffset o = true) (ho : o % 4 = 0) :
    bar0Access o 0xF v s = s.slotWord o v := by
  have hin : ¬ 64 < o % 64 + 4 := by omega
  rw [bar0Access, if_pos hring, slotWrite64]
  exact if_neg hin

theorem slotWord_read {o : Nat} {v : BitVec 32} {s : State} (hring : ringOffset o = true) (ho : o % 4 = 0)
    (hlen : (s.ringSlot ((o - 0x100000) / 64)).length = 64) : regRead (.bar0 o) (s.slotWord o v) = v.toNat := by
  have hin : ¬ 64 < o % 64 + 4 := by omega
  have hfit : o % 64 + (leBytes 4 v.toNat).length ≤ (s.ringSlot ((o - 0x100000) / 64)).length := by rw [hlen, leBytes_length]; omega
  have hslot : slice ((s.slotWord o v).ringSlot ((o - 0x100000) / 64)) (o % 64) 4 = leBytes 4 v.toNat := by
    rw [State.slotWord, State.ringSlot_slotSet_same]
    exact (congrArg (slice _ _) (leBytes_length 4 v.toNat).symm).trans (putAt_slice hfit)
  rw [regRead, bar0Read, if_pos hring, if_neg hin, hslot]
  exact leNat_leBytes 4 v.toNat v.isLt

/-! ### Registers of a page -/

theorem pageWrite_prt {k : Nat} (v : BitVec 32) (s : State) (hk : k < 8) :
    pageWrite .prt k 0x10 v s = writeMaxFrame k (bits v 13 0) s :=
  if_neg (show ¬ (BlockId.units .prt ≤ k ∨ 0x10 % 4 ≠ 0) from fun h => h.elim (Nat.not_le_of_gt hk) fun h => h rfl)

theorem keep_maxFrame (n m : Nat) : keep (!maxFrameBad n) n m = if 1522 ≤ n ∧ n ≤ 9216 ∧ n % 2 = 0 then n else m := by
  unfold keep
  refine if_congr ?_ rfl rfl
  simp only [maxFrameBad, within, Bool.not_eq_true', Bool.or_eq_false_iff, beq_eq_false_iff_ne, Bool.not_eq_false', Bool.and_eq_true,
    decide_eq_true_eq]
  omega

theorem pageWrite_incr (v : BitVec 32) (s : State) : pageWrite .tbu 0 0x08 v s = writeIncr v s := rfl

/-- The time base with INCR written. -/
def Time.incrWritten (t : Time) (i : Int) : Time := { t with incr := if -0x100000 ≤ i ∧ i ≤ 0x100000 then i else t.incr }

theorem writeIncr_eq (v : BitVec 32) (s : State) : writeIncr v s = s.modTime fun t => t.incrWritten (signed 32 v.toNat) := by
  rw [writeIncr, State.setIncr]
  unfold Time.incrWritten
  split
  · rfl
  · rfl

theorem cguWrite_held {o : Nat} {v : BitVec 32} {s : State} (ho : o ≠ 0x10) (h : s.bki.clmHold = true) : cguWrite o v s = s := by
  rw [cguWrite, if_neg ho, if_pos h]

/-! ### The rings -/

theorem exec_reqTailWrite {p n : Nat} {s : State} (hp : p < 16) (hup : s.pciUp = true) :
    exec (.reqTailWrite p n) s = .next (s.setPair (.host p) fun x =>
      if x.resetBusy ∨ !x.tailOk n then x.refuseTail else { x with reqTail := n % 65536 }) := by
  have he : exec (.reqTailWrite p n) s = execReqTailWrite p n s := rfl
  rw [he, execReqTailWrite]
  exact congrArg Host.Outcome.next (if_pos ⟨hp, hup⟩)

theorem exec_pairReset {p : Nat} {s : State} (hp : p < 16) (hup : s.pciUp = true) :
    exec (.pairReset p) s = .next (s.setPair (.host p) fun x => if s.mbx.ready ∧ s.persist.fwUp then x.cleared else { x with resetBusy :=
        true }) := by
  have he : exec (.pairReset p) s = execPairReset p s := rfl
  rw [he, execPairReset]
  exact congrArg Host.Outcome.next (if_pos ⟨hp, hup⟩)

theorem State.pair_setPair_same (s : State) (p : Nat) (f : Pair → Pair) :
    (s.setPair (.host p) f).mbx.pairs.get p {} = f (s.mbx.pairs.get p {}) := Tbl.get_set_same ..

theorem State.pair_setPair_other (s : State) {p q : Nat} (f : Pair → Pair) (h : q ≠ p) :
    (s.setPair (.host p) f).mbx.pairs.get q {} = s.mbx.pairs.get q {} := Tbl.get_set_other _ _ _ h

theorem exec_mboxRegister_refused {i g a n : Nat} {s : State} (hgen : s.genCurrent i g = true)
    (hbad : a % 4096 ≠ 0 ∨ (n ≠ 4 ∧ n ≠ 8 ∧ n ≠ 16)) :
    ∃ k, exec (.mboxRegister i g a n) s = .next (answer i [(Status.badParam k).code] s) := by
  have he : exec (.mboxRegister i g a n) s = execMboxRegister i g a n s := rfl
  have hlive : ¬ (!s.genCurrent i g) = true := by simp [hgen]
  rw [he, execMboxRegister, if_neg hlive]
  by_cases ha : a % 4096 ≠ 0
  · exact ⟨0, by rw [if_pos ha]⟩
  · exact ⟨1, by rw [if_neg ha, if_pos (hbad.resolve_left ha)]⟩

/-- The mailboxes with the pair that instance `i` has registered. -/
def State.registerPair (s : State) (i a n : Nat) : State :=
  s.modMbx fun m => { m with instPairs := m.instPairs.set i { size := n, base := a } }

theorem exec_mboxRegister {i g a n : Nat} {s : State} (hgen : s.genCurrent i g = true) (ha : a % 4096 = 0) (hn : n = 4 ∨ n = 8 ∨ n = 16)
    (hfree : ringFree i a (128 * n) (s.modMbx fun m => { m with instPairs := m.instPairs.del i }) = true) :
    exec (.mboxRegister i g a n) s = .next (answer i [Status.ok.code] (s.registerPair i a n)) := by
  have he : exec (.mboxRegister i g a n) s = execMboxRegister i g a n s := rfl
  have hlive : ¬ (!s.genCurrent i g) = true := by simp [hgen]
  have hslots : ¬ (n ≠ 4 ∧ n ≠ 8 ∧ n ≠ 16) := by omega
  have hroom : ¬ (!ringFree i a (128 * n) (s.modMbx fun m => { m with instPairs := m.instPairs.del i })) = true := by simp [hfree]
  rw [he, execMboxRegister, if_neg hlive, if_neg (not_not_intro ha), if_neg hslots, if_neg hroom]
  rfl

theorem answer_inst_other {i j : Nat} (vals : List Nat) (s : State) (h : j ≠ i) : (answer i vals s).inst j = s.inst j :=
  State.inst_setInst_other _ _ h

/-- The tail that instance `i` writes is taken. -/
def State.instTailed (s : State) (i n : Nat) : State :=
  s.modMbx fun m => { m with instPairs := m.instPairs.mod i {} fun p => { p with reqTail := n % 65536 } }

theorem State.instTailed_pair (s : State) (i n : Nat) :
    (s.instTailed i n).mbx.instPairs.get i {} = { s.mbx.instPairs.get i {} with reqTail := n % 65536 } :=
  Tbl.get_mod_same s.mbx.instPairs i {} {} fun p => { p with reqTail := n % 65536 }

theorem exec_mbxReqTailWrite {i g n : Nat} {s : State} (hgen : s.genCurrent i g = true) (hstate : (s.inst i).state ≠ .resetting)
    (hhas : s.mbx.instPairs.has i = true) (htail : (s.mbx.instPairs.get i {}).tailOk n = true) :
    exec (.mbxReqTailWrite i g n) s = .next (s.instTailed i n) := by
  have he : exec (.mbxReqTailWrite i g n) s = execMbxReqTailWrite i g n s := rfl
  have hlive : ¬ (!s.genCurrent i g) = true := by simp [hgen]
  have hok : (s.mbx.instPairs.has i && (s.mbx.instPairs.get i {}).tailOk n) = true := by simp [hhas, htail]
  rw [he, execMbxReqTailWrite, if_neg fun h => hstate h.2, instTail, if_neg hlive, if_pos hok]
  rfl

/-! ### Vectors -/

theorem setBit_getLsbD {w : Nat} (v : BitVec w) (k : Nat) : (setBit v k false).getLsbD k = false := by
  simp only [setBit, Bool.false_eq_true, if_false, BitVec.getLsbD_and, BitVec.getLsbD_not, BitVec.getLsbD_ofNat,
    Nat.testBit_two_pow_self, Bool.and_true]
  cases decide (k < w) <;> simp

/-- A masked vector stands pending. -/
def State.vectorKept (s : State) (v : Nat) : State := s.modMbx fun m => { m with msixPend := setBit m.msixPend v true }

/-- A vector is sent. -/
def State.vectorSent (s : State) (v : Nat) : State :=
  s.modMbx fun m => { m with msixPend := setBit m.msixPend v false, msixDue := m.msixDue.del v, msixAt := m.msixAt.set v s.now }

theorem exec_msiXMessage {v : Nat} {s : State} (hused : vectorUsed v = true) (hdue : s.mbx.msixDue.get v false = true)
    (hup : s.pciUp = true) (hnone : s.mbx.msixAt.has v = false) :
    exec (.msiXMessage v) s = .next (if s.mbx.msixMask.getLsbD v then s.vectorKept v else s.vectorSent v) := by
  have he : exec (.msiXMessage v) s = execMsiXMessage v s := rfl
  have hno : ¬ s.mbx.msixAt.has v = true := by simp [hnone]
  rw [he, execMsiXMessage]
  exact congrArg Host.Outcome.next ((if_pos ⟨hused, hdue, hup⟩).trans (if_neg hno))

/-! ### The obligation -/

/-- Settles O49: the lemmas above, one for each register, ring and page. -/
theorem registersAndMailboxRings : Obligations.RegistersAndMailboxRings := by
  unfold Obligations.RegistersAndMailboxRings Completes
  refine ⟨?_, ?_, ?_, ?_, ?_, ?_, ?_, ?_, ?_, ?_, ?_, ?_, ?_, ?_, ?_, ?_, ?_, ?_, ?_, ?_, ?_, ?_, ?_, ?_, ?_, ?_⟩
  case refine_1 =>
    intro reg s hpci hconf hpages hunit
    obtain ⟨t, hexec, hkeeps⟩ := rcRead_keeps reg s hpci hconf hpages fun b u o he => by subst he; exact hunit
    exact ⟨t, hexec, hkeeps.readOut, hkeeps.ports, hkeeps.cgu, hkeeps.ksu, hkeeps.pending⟩
  case refine_2 =>
    intro o s hup
    refine ⟨_, exec_rcRead_bar0 hup, rcRead_bar0_only o _ s, ?_, ?_, ?_, ?_⟩
    · rw [(told_only (qs := [.mbx]) _ _ (Only.refl _ _) (by simp)).same .fab (by decide), bar0Cleared_fab]
      rfl
    · rintro rfl
      exact ⟨by rw [told_mbx]; rfl, told_evr ..⟩
    · rintro rfl
      exact ⟨by rw [told_mbx]; rfl, told_evr ..⟩
    · intro ho
      rw [told_mbx]
      exact bar0Cleared_badAccess ho _
  case refine_3 =>
    intro b u o s hup hu
    refine ⟨_, exec_rcRead_page hup hu, rcRead_page_only .., pageCleared_readOut .., ?_, ?_, ?_⟩
    · rintro rfl rfl
      have harb : ∀ x : State, (pageCleared .arb u 0x08 x).arb u = { x.arb u with waitMax := 0, waitWho := 0 } :=
        fun x => Tbl.get_set_same ..
      rw [harb]
      exact ⟨rfl, rfl⟩
    · rintro rfl rfl
      rfl
    · rintro rfl
      rfl
  case refine_4 =>
    intro s
    exact ⟨_, exec_latchingRead_age s, given_only _ _ (State.modTime_only _ (Only.refl _ s) (by simp)) (by simp), rfl, rfl⟩
  case refine_5 =>
    intro s
    exact ⟨_, exec_latchingRead_tb s, given_only _ _ (State.modTime_only _ (Only.refl _ s) (by simp)) (by simp), rfl, rfl⟩
  case refine_6 =>
    intro k s hk
    refine ⟨_, exec_latchingRead_frame hk, ?_, rfl, ?_, ?_⟩
    · exact given_only _ _ (State.setPsc_only _ _ _ (Only.refl _ s) (by simp)) (by simp)
    · rw [given_psc, State.psc_setPsc_same]
    · intro j hj
      rw [given_psc, State.psc_setPsc_other _ _ hj]
  case refine_7 =>
    intro k s hk
    have hexec : exec (.counterSnapshot (.port k)) s = .next (snapshot (.port k) s) :=
      congrArg Host.Outcome.next (if_pos (decide_eq_true hk))
    exact ⟨_, hexec, snapshot_port_only k s, snapshot_port k s, fun j hj => snapshot_port_other hj s⟩
  case refine_8 =>
    intro p s hp
    have hexec : exec (.counterSnapshot p) s = .next (snapshot p s) := congrArg Host.Outcome.next (if_pos hp)
    exact ⟨_, hexec, snapshot_live p s, snapshot_bank p s, fun q hq => snapshot_other hq s, snapshot_only _ _ (Only.refl _ s) (by simp)⟩
  case refine_9 =>
    intro p s hp
    have hexec : exec (.counterSnapshot p) s = .next s := congrArg Host.Outcome.next (if_neg (by simp [hp]))
    exact ⟨s, hexec, rfl⟩
  case refine_10 =>
    intro o v s hup ho hring
    refine ⟨_, (exec_registerWrite_bar0 hup).trans (by rw [bar0Access_unaligned hring ho]), told_badAccess_only s, told_badAccess_mbx s, ?_⟩
    exact fun h => told_due (badAccess_counts h)
  case refine_11 =>
    intro o be v s hup hring hbe
    exact ⟨_, (exec_registerWrite_bar0Be hup).trans (by rw [bar0Access_partial hring hbe]), told_badAccess_only s, told_badAccess_mbx s⟩
  case refine_12 =>
    intro o v s hup hring ho hlen
    have htold : told s (s.slotWord o v) = s.slotWord o v := told_of_shown rfl
    exact ⟨_, (exec_registerWrite_bar0 hup).trans (by rw [bar0Access_slot hring ho, htold]), slotWord_only s o v,
      slotWord_read hring ho hlen, fun k hk => State.ringSlot_slotSet_other _ _ hk, rfl⟩
  case refine_13 =>
    intro v s hconf
    have he : exec (.registerWrite (.pci .command) v) s = execRegisterWrite (.pci .command) v s := rfl
    exact ⟨_, he.trans (congrArg Host.Outcome.next (if_pos hconf)), State.modMbx_only _ (Only.refl _ s) (by simp), rfl⟩
  case refine_14 =>
    intro o v s hdown
    have he : exec (.registerWrite (.bar0 o) v) s = execRegisterWrite (.bar0 o) v s := rfl
    have hno : ¬ s.pciUp = true := by simp [hdown]
    exact ⟨s, he.trans (congrArg Host.Outcome.next (if_neg hno)), rfl⟩
  case refine_15 =>
    intro b u o v s hnone
    have he : exec (.registerWrite (.page b u o) v) s = execRegisterWrite (.page b u o) v s := rfl
    refine ⟨s, he.trans (congrArg Host.Outcome.next ?_), rfl⟩
    by_cases hup : s.pagesUp = true
    · have hout : b.units ≤ u ∨ o % 4 ≠ 0 := hnone.resolve_left (by simp [hup])
      have hwrite : pageWrite b u o v s = s := by rw [pageWrite, if_pos hout]
      exact (if_pos hup).trans ((congrArg (told s) hwrite).trans (told_of_shown rfl))
    · exact if_neg hup
  case refine_16 =>
    intro k v s hup hk
    have htold : told s (writeMaxFrame k (bits v 13 0) s) = writeMaxFrame k (bits v 13 0) s := told_of_shown rfl
    refine ⟨_, (exec_registerWrite_page hup).trans (by rw [pageWrite_prt v s hk, htold]), ?_, ?_, ?_⟩
    · exact State.setPort_only _ _ _ (Only.refl _ s) (by simp)
    · exact fun j hj => State.port_setPort_other _ _ hj
    · rw [← keep_maxFrame]
      exact State.port_setPort_same ..
  case refine_17 =>
    intro v s hup
    have htold : told s (s.modTime fun t => t.incrWritten (signed 32 v.toNat)) = s.modTime fun t => t.incrWritten (signed 32 v.toNat) :=
      told_of_shown rfl
    refine ⟨_, (exec_registerWrite_page hup).trans (by rw [pageWrite_incr, writeIncr_eq, htold]), ?_, rfl⟩
    exact State.modTime_only _ (Only.refl _ s) (by simp)
  case refine_18 =>
    intro o v s hup hheld ho
    have hwrite : pageWrite .cgu 0 o v s = s := by
      obtain rfl | rfl := ho
      · exact cguWrite_held (o := 0x00) (by decide) hheld
      · exact cguWrite_held (o := 0x04) (by decide) hheld
    exact ⟨s, (exec_registerWrite_page hup).trans (by rw [hwrite, told_of_shown rfl]), rfl⟩
  case refine_19 =>
    intro p n s hnone
    have he : exec (.reqTailWrite p n) s = execReqTailWrite p n s := rfl
    have hno : ¬ (p < 16 ∧ s.pciUp = true) := fun ⟨hp, hup⟩ => hnone.elim (fun h => by simp [h] at hup) fun h => by omega
    exact ⟨s, he.trans (congrArg Host.Outcome.next (if_neg hno)), rfl⟩
  case refine_20 =>
    intro p n s hp hup
    refine ⟨_, exec_reqTailWrite hp hup, State.setPair_only _ _ _ (Only.refl _ s) (by simp), ?_, ?_, ?_⟩
    · exact fun q hq => State.pair_setPair_other _ _ hq
    · intro hbusy htail
      rw [State.pair_setPair_same, if_neg (by simp [hbusy, htail])]
    · intro hbad
      rw [State.pair_setPair_same, if_pos (hbad.imp id fun h => by rw [h]; rfl)]
      rfl
  case refine_21 =>
    intro p s hp hup
    refine ⟨_, exec_pairReset hp hup, State.setPair_only _ _ _ (Only.refl _ s) (by simp), ?_, ?_, ?_⟩
    · exact fun q hq => State.pair_setPair_other _ _ hq
    · intro hready hfw
      rw [State.pair_setPair_same, if_pos ⟨hready, hfw⟩]
      rfl
    · intro hwait
      rw [State.pair_setPair_same, if_neg fun h => hwait.elim (fun hr => by simp [hr] at h) fun hf => by simp [hf] at h]
  case refine_22 =>
    intro i g a n s hgen ha hn hfree
    refine ⟨_, exec_mboxRegister hgen ha hn hfree, ?_, Tbl.get_set_same .., answer_ret .., rfl, ?_⟩
    · exact answer_only _ _ _ (State.modMbx_only _ (Only.refl _ s) (by simp)) (by simp)
    · exact fun j hj => answer_inst_other _ _ hj
  case refine_23 =>
    intro i g a n s hgen hbad
    obtain ⟨k, hexec⟩ := exec_mboxRegister_refused hgen hbad
    refine ⟨_, hexec, answer_only _ _ _ (Only.refl _ s) (by simp), fun j hj => answer_inst_other _ _ hj, ?_⟩
    rw [answer_ret]
    simp [Status.code]
  case refine_24 =>
    intro i g n s hgen hstate hhas htail
    exact ⟨_, exec_mbxReqTailWrite hgen hstate hhas htail, State.modMbx_only _ (Only.refl _ s) (by simp), State.instTailed_pair ..⟩
  case refine_25 =>
    intro i g n s hgen hstate
    exact ⟨s, congrArg Host.Outcome.next (if_pos ⟨hgen, hstate⟩), rfl⟩
  case refine_26 =>
    intro v s hused hdue hup hnone
    refine ⟨_, exec_msiXMessage hused hdue hup hnone, ?_, ?_, ?_⟩
    · split
      · exact State.modMbx_only _ (Only.refl _ s) (by simp)
      · exact State.modMbx_only _ (Only.refl _ s) (by simp)
    · intro hmask
      rw [if_pos hmask]
      rfl
    · intro hmask
      rw [if_neg (by simp [hmask])]
      have hdel : (s.vectorSent v).mbx.msixDue = s.mbx.msixDue.del v := rfl
      exact ⟨by rw [hdel, Tbl.get_del, if_pos rfl], Tbl.get_set_same .., setBit_getLsbD ..⟩

end Sys2Proof.Machine
end

section
/-!
PROOFS. The slots of the key store as loads, attributes and assignments write them (R404, R405, R410), and the requests of the keys
family (R466).
-/
namespace Sys2Proof.Machine
open Sys2Proof

/-! ### One slot written -/

/-- Slot n changed. -/
def State.setSlot (s : State) (n : Nat) (f : Slot → Slot) : State := s.modKsu fun k => { k with slots := k.slots.mod n {} f }

@[simp] theorem State.slot_setSlot_same (s : State) (n : Nat) (f : Slot → Slot) : (s.setSlot n f).slot n = f (s.slot n) :=
  Tbl.get_mod_same ..

theorem State.slot_setSlot_other (s : State) {n m : Nat} (f : Slot → Slot) (h : m ≠ n) : (s.setSlot n f).slot m = s.slot m :=
  Tbl.get_mod_other _ _ _ _ h

/-- Only slot `n` and the copies saved of it change in the key store, but for what is drawn. -/
structure SlotWritten (n : Nat) (s t : State) : Prop where
  only : Only [.ksu, .free] s t
  other : ∀ m, m ≠ n → t.slot m = s.slot m
  ksu : t.ksu = { s.ksu with slots := t.ksu.slots, saved := t.ksu.saved }

theorem SlotWritten.refl (n : Nat) (s : State) : SlotWritten n s s := ⟨Only.refl _ s, fun _ _ => rfl, rfl⟩

theorem SlotWritten.trans {n : Nat} {s t u : State} (h1 : SlotWritten n s t) (h2 : SlotWritten n t u) : SlotWritten n s u :=
  ⟨h1.only.trans h2.only, fun m hm => (h2.other m hm).trans (h1.other m hm), by rw [h2.ksu, h1.ksu]⟩

theorem SlotWritten.pad {n : Nat} {s t : State} (h : SlotWritten n s t) (m : Nat) : t.ksu.pad m = s.ksu.pad m := by rw [h.ksu]; rfl

theorem SlotWritten.slotValue {n : Nat} {s t : State} (h : SlotWritten n s t) (hcell : (t.slot n).cell = (s.slot n).cell) :
    t.slotValue n = s.slotValue n := by
  rw [State.slotValue, State.slotValue, hcell, h.pad]

theorem State.setSlot_written (s : State) (n : Nat) (f : Slot → Slot) : SlotWritten n s (s.setSlot n f) := by
  refine ⟨?_, fun m hm => State.slot_setSlot_other _ _ hm, rfl⟩
  unfold State.setSlot
  exact State.modKsu_only _ (Only.refl _ s) (by simp)

/-- SALT alone changes in slot `n` (R420). -/
theorem salted_written (n : Nat) (s : State) :
    SlotWritten n s (salted n s) ∧ (salted n s).slot n = { s.slot n with salt := ((salted n s).slot n).salt } := by
  have heq : salted n s
      = if (s.slot n).use = 2 then s.took.setSlot n (fun x => { x with salt := saltOf s.free1 s.cgu.unitId }) else s := rfl
  rw [heq]
  split
  · have htook : SlotWritten n s s.took := ⟨State.took_only _ (Only.refl _ s) (by simp), fun _ _ => rfl, rfl⟩
    have hslot : (s.took.setSlot n fun x => { x with salt := saltOf s.free1 s.cgu.unitId }).slot n
        = { s.slot n with salt := saltOf s.free1 s.cgu.unitId } := State.slot_setSlot_same ..
    exact ⟨htook.trans (State.setSlot_written _ n _), by rw [hslot]⟩
  · exact ⟨.refl n s, rfl⟩

theorem slotWrite_written (n : Nat) (v : BitVec 256) (origin : Nat) (s : State) :
    SlotWritten n s (slotWrite n v origin s)
    ∧ (slotWrite n v origin s).slot n
      = { (s.slot n).written v (s.ksu.pad n) origin s.now with salt := ((slotWrite n v origin s).slot n).salt } := by
  obtain ⟨hsalt, hslot⟩ := salted_written n (s.setSlot n fun x => x.written v (s.ksu.pad n) origin s.now)
  rw [State.slot_setSlot_same] at hslot
  exact ⟨(State.setSlot_written s n _).trans hsalt, hslot⟩

/-- The copies saved of a slot that is made volatile go (R413). -/
def State.savedFor (s : State) (n : Nat) (volatile : Bool) : State :=
  s.modKsu fun k => { k with saved := if volatile then k.saved.filter fun c => c.slot ≠ n else k.saved }

theorem State.savedFor_slot (s : State) (n : Nat) (volatile : Bool) (m : Nat) : (s.savedFor n volatile).slot m = s.slot m := rfl

theorem slotAttr_written (n : Nat) (a : KeyArgs) (lock derivable : Bool) (s : State) :
    SlotWritten n s (slotAttr n a lock derivable s)
    ∧ (slotAttr n a lock derivable s).slot n
      = { (s.slot n).attributed a lock derivable s.now with salt := ((slotAttr n a lock derivable s).slot n).salt } := by
  have hset : SlotWritten n s ((s.setSlot n fun x => x.attributed a lock derivable s.now).savedFor n a.volatile) := by
    refine (State.setSlot_written s n _).trans ⟨?_, fun _ _ => rfl, rfl⟩
    exact State.modKsu_only _ (Only.refl _ _) (by simp)
  have hslot : ((s.setSlot n fun x => x.attributed a lock derivable s.now).savedFor n a.volatile).slot n
      = (s.slot n).attributed a lock derivable s.now := by rw [State.savedFor_slot, State.slot_setSlot_same]
  have heq : slotAttr n a lock derivable s
      = if a.use = 2 ∧ (s.slot n).use ≠ 2 then salted n ((s.setSlot n fun x => x.attributed a lock derivable s.now).savedFor n a.volatile)
        else (s.setSlot n fun x => x.attributed a lock derivable s.now).savedFor n a.volatile := rfl
  rw [heq]
  split
  · obtain ⟨hsalt, hafter⟩ := salted_written n ((s.setSlot n fun x => x.attributed a lock derivable s.now).savedFor n a.volatile)
    exact ⟨hset.trans hsalt, by rw [hslot] at hafter; exact hafter⟩
  · exact ⟨hset, by rw [hslot]⟩

/-! ### A value written with its attributes -/

/-- Slot `n` holds the value `v`, made as `origin` says, with the attributes `a`; no other slot changes (R404, R405). -/
structure SlotFilled (n : Nat) (v : BitVec 256) (a : KeyArgs) (origin : Nat) (s u : State) : Prop where
  only : Only [.ksu, .free] s u
  other : ∀ m, m ≠ n → u.slot m = s.slot m
  value : u.slotValue n = v
  kcv : (u.slot n).kcv = kcvOf v
  valid : (u.slot n).valid = true
  origin : (u.slot n).origin = origin
  lock : (u.slot n).lock = (s.slot n).lock
  use : (u.slot n).use = a.use
  tag : (u.slot n).tag = a.tag
  keyId : (u.slot n).keyId = a.keyId
  volatile : (u.slot n).volatile = a.volatile
  keyIn : u.ksu.keyIn = 0
  draws : u.ksu.draws = s.ksu.draws

theorem xor_pad (v p : BitVec 256) : v ^^^ p ^^^ p = v := by rw [BitVec.xor_assoc, BitVec.xor_self, BitVec.xor_zero]

/-- A command of the KSU ends with its value written; what it counts besides does not matter. -/
theorem attrKept_filled {n origin : Nat} {v : BitVec 256} {s t : State} (a : KeyArgs) (f : Tbl Nat)
    (ht : t = ksuDone 0 ((slotWrite n v origin s).modKsu fun k => { k with live := f })) :
    SlotFilled n v a origin s (attrKept n a t) := by
  obtain ⟨hw, hslot⟩ := slotWrite_written n v origin s
  have honly : Only [.ksu, .free] s t := by
    rw [ht]
    exact State.modKsu_only _ (State.modKsu_only _ hw.only (by simp)) (by simp)
  have hts : ∀ m, t.slot m = (slotWrite n v origin s).slot m := fun m => by rw [ht]; rfl
  have htp : ∀ m, t.ksu.pad m = s.ksu.pad m := fun m => by rw [ht]; exact hw.pad m
  have hlock : (t.slot n).lock = (s.slot n).lock := by
    rw [hts n, hslot]
    rfl
  have hkeyIn : t.ksu.keyIn = 0 := by rw [ht]; rfl
  have hdraws : t.ksu.draws = s.ksu.draws := by
    have h : t.ksu.draws = (slotWrite n v origin s).ksu.draws := by rw [ht]; rfl
    rw [h, hw.ksu]
  have heq : attrKept n a t = slotAttr n a (s.slot n).lock (t.slot n).derivable t := by rw [attrKept, hlock]
  rw [heq]
  generalize (t.slot n).derivable = derivable
  obtain ⟨ha, hafter⟩ := slotAttr_written n a (s.slot n).lock derivable t
  rw [hts n, hslot] at hafter
  exact
    { only := honly.trans ha.only
      other := fun m hm => (ha.other m hm).trans ((hts m).trans (hw.other m hm))
      value := by rw [State.slotValue, ha.pad, htp, hafter]; exact xor_pad ..
      kcv := by rw [hafter]; rfl
      valid := by rw [hafter]; rfl
      origin := by rw [hafter]; rfl
      lock := by rw [hafter]; rfl
      use := by rw [hafter]; rfl
      tag := by rw [hafter]; rfl
      keyId := by rw [hafter]; rfl
      volatile := by rw [hafter]; rfl
      keyIn := by rw [ha.ksu]; exact hkeyIn
      draws := by rw [ha.ksu]; exact hdraws }

theorem kcvOr_of_done {n : Nat} {a : KeyArgs} {t : State} (h : t.ksu.result = 0) :
    kcvOr n a t = okRes [((attrKept n a t).slot n).kcv.toNat] (attrKept n a t) := if_pos h

/-- What a command answers that fills its slot. -/
theorem kcvOr_filled {n origin : Nat} {v : BitVec 256} {s t : State} (a : KeyArgs) (f : Tbl Nat)
    (ht : t = ksuDone 0 ((slotWrite n v origin s).modKsu fun k => { k with live := f })) :
    ∃ u, kcvOr n a t = okRes [(kcvOf v).toNat] u ∧ SlotFilled n v a origin s u := by
  have hfill := attrKept_filled a f ht
  exact ⟨_, by rw [kcvOr_of_done (by rw [ht]; rfl), hfill.kcv], hfill⟩

/-- A state whose KSU has drawn. -/
theorem SlotFilled.of_drawn {n : Nat} {v : BitVec 256} {a : KeyArgs} {origin : Nat} {s t u : State} (h : SlotFilled n v a origin t u)
    (honly : Only [.ksu, .free] s t) (hslots : t.ksu.slots = s.ksu.slots) : Only [.ksu, .free] s u ∧ ∀ m, m ≠ n → u.slot m = s.slot m := by
  refine ⟨honly.trans h.only, fun m hm => (h.other m hm).trans ?_⟩
  rw [State.slot, hslots]
  rfl

/-! ### Requests that fill a slot -/

theorem lockReserved_high {n : Nat} (h : 8 ≤ n) (s : State) : lockReserved n s = s := if_neg fun hlow => absurd hlow.1 (by omega)

theorem lockReserved_low {n : Nat} {s : State} (h : n < 8) (hvalid : (s.slot n).valid = true) :
    lockReserved n s = s.setSlot n fun x => { x with lock := true } := if_pos ⟨h, hvalid⟩

section
variable (r : Req) {n : Nat} {s : State} {a : KeyArgs}

theorem opKeyLoad_ok (v : BitVec 256) (hn : n < 1024) (hlock : (s.slot n).lock = false) (hload : loadable n a.use s = true)
    (hok : a.ok = true) :
    ∃ t, opKeyLoad r n v a s = okRes [(kcvOf v).toNat] (lockReserved n t) ∧ SlotFilled n v a 0 s t := by
  have hdone : ksuLoad n v s = ksuDone 0 (slotWrite n v 0 s) := if_neg (by simp [hlock])
  obtain ⟨t, hkcv, hfill⟩ := kcvOr_filled a _ hdone
  refine ⟨t, ?_, hfill⟩
  rw [opKeyLoad, if_neg (by omega), if_neg (by simp [hlock]), if_neg (by simp [hload]), if_neg (by simp [hok]), hkcv]
  rfl

theorem opKeyLoad_locked (v : BitVec 256) (hn : n < 1024) (hlock : (s.slot n).lock = true) : opKeyLoad r n v a s = refuse .locked s := by
  rw [opKeyLoad, if_neg (by omega), if_pos hlock]

theorem opKeyGenerate_locked (h8 : 8 ≤ n) (hn : n < 1024) (hlock : (s.slot n).lock = true) :
    opKeyGenerate r n a s = refuse .locked s := by
  rw [opKeyGenerate, if_neg (by omega), if_pos hlock]

/-- The KSU once it has drawn a value. -/
theorem drawKey_spec (s : State) : (drawKey s).1 = BitVec.ofNat 256 s.free1 ∧ Only [.ksu, .free] s (drawKey s).2
    ∧ (drawKey s).2.ksu = { s.ksu with draws := s.ksu.draws + 1 } :=
  have htook : Only [.ksu, .free] s s.took := State.took_only _ (Only.refl _ s) (by simp)
  ⟨rfl, State.modKsu_only (fun k => { k with draws := k.draws + 1 }) htook (by simp), rfl⟩

theorem opKeyGenerate_ok (h8 : 8 ≤ n) (hn : n < 1024) (hok : a.ok = true) (hlock : (s.slot n).lock = false) (htrng : s.ksu.trngOk = true) :
    ∃ t, opKeyGenerate r n a s = okRes [(kcvOf (drawKey s).1).toNat] t ∧ SlotFilled n (drawKey s).1 a 1 (drawKey s).2 t := by
  have hdone : ksuGenerate n s = ksuDone 0 (slotWrite n (drawKey s).1 1 (drawKey s).2) :=
    (if_neg (by simp [hlock])).trans (if_neg (by simp [htrng]))
  obtain ⟨t, hkcv, hfill⟩ := kcvOr_filled a _ hdone
  refine ⟨t, ?_, hfill⟩
  rw [opKeyGenerate, if_neg (by omega), if_neg (by simp [hlock]), if_neg (by simp [hok]), hkcv]

variable {p : Option Nat} {l c : List Byte}

theorem slotForeign_of_mgp {r : Req} (h : r.who = .mgp) (n : Nat) (s : State) : slotForeign r n s = false := by
  rw [slotForeign, h]
  rfl

theorem opKeyDerive_eq (hwho : r.who = .mgp) (hinst : r.fromInst = none) (h8 : 8 ≤ n) (hn : n < 1024) (hp : ∀ m, p = some m → m < 1024)
    (hok : a.ok = true) : opKeyDerive r n p a l c s = kcvOr n a (ksuDerive .mgp n p a.use l c s) := by
  have hparent : ¬ (p.any fun p => decide (1024 ≤ p)) = true := by
    cases p with
    | none => simp
    | some m => simpa using hp m rfl
  have hrange : ¬ (1024 ≤ n ∨ n < 8) := by omega
  have hargs : ¬ (!a.ok) = true := by simp [hok]
  have hpass : opKeyDerive r n p a l c s = kcvOr n a (ksuDerive r.who n p a.use l c s) := by
    cases p with
    | none =>
      have hforeign : ¬ (slotForeign r n s || r.fromInst.isSome) = true := by simp [slotForeign_of_mgp hwho, hinst]
      exact (if_neg hforeign).trans ((if_neg hrange).trans ((if_neg hparent).trans (if_neg hargs)))
    | some m =>
      have hforeign : ¬ (slotForeign r n s || slotForeign r m s) = true := by simp [slotForeign_of_mgp hwho]
      exact (if_neg hforeign).trans ((if_neg hrange).trans ((if_neg hparent).trans (if_neg hargs)))
  rw [hpass, hwho]

theorem ksuDerive_kcv_ok (h : deriveRefused .mgp n p a.use l.length c.length s = 0) :
    ∃ t, kcvOr n a (ksuDerive .mgp n p a.use l c s) = okRes [(kcvOf (derived p l c s)).toNat] t
      ∧ SlotFilled n (derived p l c s) a 2 s t :=
  kcvOr_filled a _ (if_neg (not_not_intro h))

theorem ksuDerive_kcv_refused {k : Nat} (hk : k ≠ 0) (h : deriveRefused .mgp n p a.use l.length c.length s = k) :
    kcvOr n a (ksuDerive .mgp n p a.use l c s) = refuse (.ksuResult k) (ksuDone k s) := by
  have hdone : ksuDerive .mgp n p a.use l c s = ksuDone k s := by
    rw [ksuDerive, h]
    exact if_pos hk
  have hresult : (ksuDone k s).ksu.result = k := rfl
  rw [hdone, kcvOr, hresult, if_neg hk]

end

/-! ### The other requests of the family -/

section
variable (r : Req) {n : Nat} {s : State}

theorem opKeyErase_ok (hwho : r.who = .mgp) (hinst : r.fromInst = none) (hn : n < 1024) (hfixed : fixedSlot n = false) :
    opKeyErase r n s = okRes [] (ksuDone 0 (eraseSlot n s)) := by
  rw [opKeyErase, if_neg (by simp [slotForeign_of_mgp hwho]), if_neg (by simp [hfixed, hn]), if_neg (by simp [hinst]), hwho]
  rfl

theorem opKeyErase_fixed (hwho : r.who = .mgp) (hfixed : fixedSlot n = true) : opKeyErase r n s = refuse (.badParam 0) s := by
  rw [opKeyErase, if_neg (by simp [slotForeign_of_mgp hwho]), if_pos (.inr hfixed)]

theorem eraseSlot_spec (n : Nat) (s : State) :
    Only [.ksu, .insts, .bki, .evr, .mbx] s (eraseSlot n s) ∧ ((s.slot n).byMgp = true → Only [.ksu] s (eraseSlot n s))
    ∧ (eraseSlot n s).ksu = { s.ksu with slots := s.ksu.slots.del n, saved := s.ksu.saved.filter fun c => c.slot ≠ n } := by
  unfold eraseSlot
  dsimp only
  split
  · exact ⟨State.modKsu_only _ (Only.refl _ s) (by simp), fun _ => State.modKsu_only _ (Only.refl _ s) (by simp), rfl⟩
  case isFalse howner =>
    refine ⟨refreshOver_only _ _ (State.modKsu_only _ (Only.refl _ s) (by simp)) (by simp), fun h => absurd h howner, ?_⟩
    exact (refreshOver_only (qs := [.insts, .bki, .evr, .mbx]) _ _ (Only.refl _ _) (by simp)).same .ksu (by decide)

theorem opKeyAttrRead_ok (hwho : r.who = .mgp) (hn : n < 1024) : opKeyAttrRead r n s = okRes [(s.slot n).record.toNat] s := by
  rw [opKeyAttrRead, if_neg (by simp [slotForeign_of_mgp hwho]), if_neg (by omega)]

/-- The state with slot `n` given its owner, before the uses are counted anew. -/
def State.slotOwned (s : State) (n : Nat) (byMgp : Bool) (owner gen : Nat) : State :=
  s.setSlot n fun x => x.assigned byMgp owner gen s.now

theorem assignSlot_spec (n : Nat) (byMgp : Bool) (owner gen : Nat) (s : State) :
    Only [.insts, .bki, .evr, .ksu, .mbx] s (assignSlot n byMgp owner gen s)
    ∧ (∀ m, m ≠ n → (assignSlot n byMgp owner gen s).slot m = s.slot m)
    ∧ (assignSlot n byMgp owner gen s).slot n = (s.slot n).assigned byMgp owner gen s.now
    ∧ (assignSlot n byMgp owner gen s).slotValue n = s.slotValue n := by
  have heq : assignSlot n byMgp owner gen s = refreshOver owner (refreshOver (s.slot n).owner (s.slotOwned n byMgp owner gen)) := rfl
  have hover : Only [.insts, .bki, .evr, .mbx] (s.slotOwned n byMgp owner gen) (assignSlot n byMgp owner gen s) := by
    rw [heq]
    exact refreshOver_only _ _ (refreshOver_only _ _ (Only.refl _ _) (by simp)) (by simp)
  have hksu : (assignSlot n byMgp owner gen s).ksu = (s.slotOwned n byMgp owner gen).ksu := hover.same .ksu (by decide)
  have hslot : ∀ m, (assignSlot n byMgp owner gen s).slot m = (s.slotOwned n byMgp owner gen).slot m := fun m => by
    rw [State.slot, State.slot, hksu]
  have honly : Only [.ksu] s (s.slotOwned n byMgp owner gen) := by
    unfold State.slotOwned State.setSlot
    exact State.modKsu_only _ (Only.refl _ s) (by simp)
  refine ⟨(honly.mono (by simp)).trans (hover.mono (by simp)), fun m hm => ?_, ?_, ?_⟩
  · rw [hslot, State.slotOwned, State.slot_setSlot_other _ _ hm]
  · rw [hslot, State.slotOwned, State.slot_setSlot_same]
  · rw [State.slotValue, hslot, hksu]
    exact (State.setSlot_written s n fun x => x.assigned byMgp owner gen s.now).slotValue
      (congrArg Slot.cell (State.slot_setSlot_same s n fun x => x.assigned byMgp owner gen s.now) :)

theorem opKeyAssign_inst {i g : Nat} (h8 : 8 ≤ n) (hn : n < 1024) (hlock : (s.slot n).lock = false) (hi : i < 512)
    (hlive : (s.inst i).exists_ = true) (hgen : (s.inst i).gen = g)
    (hroom : (s.slot n).ownedBy i = true ∨ s.useKeys i < (s.inst i).share.keys) :
    opKeyAssign r n false i g s = okRes [] (assignSlot n false i g s) := by
  have hfree : ¬ ((s.inst i).state == .free || (s.inst i).state == .quarantine) = true := by
    intro h
    rcases (Bool.or_eq_true _ _).mp h with hs | hs <;> simp [Inst.exists_, eq_of_beq hs] at hlive
  have hreset : ¬ ((s.inst i).state == .resetting) = true := fun hs => by simp [Inst.exists_, eq_of_beq hs] at hlive
  have hfull : ¬ ((!(s.slot n).ownedBy i) = true ∧ (s.inst i).share.keys ≤ s.useKeys i) := by
    rintro ⟨hother, hkeys⟩
    obtain hown | hless := hroom
    · simp [hown] at hother
    · omega
  rw [opKeyAssign, if_neg (by omega), if_neg (by simp [hlock]), if_neg (by decide), if_neg (by omega), if_neg hfree, if_neg (not_not_intro hgen),
    if_neg hreset, if_neg hfull]

theorem opKeyAssign_mgp (i g : Nat) (h8 : 8 ≤ n) (hn : n < 1024) (hlock : (s.slot n).lock = false) :
    opKeyAssign r n true i g s = okRes [] (assignSlot n true 0 0 s) := by
  rw [opKeyAssign, if_neg (by omega), if_neg (by simp [hlock]), if_pos rfl]

theorem opKeyAttrWrite_ok {a : KeyArgs} (lock derivable : Bool) (h8 : 8 ≤ n) (hn : n < 1024) (hlock : (s.slot n).lock = false)
    (hok : a.ok = true) : opKeyAttrWrite r n a lock derivable s = okRes [] (slotAttr n a lock derivable s) := by
  rw [opKeyAttrWrite, if_neg (by omega), if_neg (by simp [hlock]), if_neg (by simp [hok])]

theorem opKeyAttrWrite_locked (a : KeyArgs) (lock derivable : Bool) (h8 : 8 ≤ n) (hn : n < 1024) (hlock : (s.slot n).lock = true) :
    opKeyAttrWrite r n a lock derivable s = refuse .locked s := by
  rw [opKeyAttrWrite, if_neg (by omega), if_pos hlock]

theorem opKeyAttrWrite_reserved (a : KeyArgs) (lock derivable : Bool) (h : n < 8) :
    opKeyAttrWrite r n a lock derivable s = refuse (.badParam 0) s := if_pos (.inr h)

section
variable {e : VerEntry} (hn : n < 256) (hentry : isStreamIdx e.entry = true) (ha : e.slotA < 1024) (hb : e.slotB < 1024)
include hn hentry ha hb

theorem opVerifyEntry_ok (hrate : otherVerified n e.entry s + (s.stream e.entry).rate ≤ 300000) :
    opVerifyEntry r n e s = okRes [] (configChanged (s.modKsu fun k => { k with ver := k.ver.set n e })) := by
  rw [opVerifyEntry, if_neg (by omega), if_neg (by simp [hentry]), if_neg (by omega), if_neg (by omega)]

theorem opVerifyEntry_refused (hvalid : e.valid = true) (hrate : 300000 < otherVerified n e.entry s + (s.stream e.entry).rate) :
    opVerifyEntry r n e s = refuse (.admission 0 0) s := by
  rw [opVerifyEntry, if_neg (by omega), if_neg (by simp [hentry]), if_neg (by omega), if_pos ⟨hvalid, hrate⟩]

end

theorem opVerifyEnable_ok (h : n ≤ 1) : opVerifyEnable r n s = okRes [] (configChanged (s.modKsu fun k => { k with verifyEn := n == 1 })) :=
  if_neg (by omega)

end

end Sys2Proof.Machine
end

section
/-!
PROOFS. The requests of the faults and recorder family (R467), with those of the keys family: O59.
-/
namespace Sys2Proof.Machine
open Sys2Proof

/-! ### Fault sets -/

theorem setFset_others (s : State) (b : BlockId) (u : Nat) (f : FaultSet → FaultSet) :
    ∀ q, q ≠ setKey b u → (s.setFset b u f).faults.sets.get q {} = s.faults.sets.get q {} :=
  fun _ hq => Tbl.get_set_other _ _ _ hq

/-- What FAULT_READ answers of a set. -/
def FaultSet.readAnswer (x : FaultSet) : List Nat := [x.reg 0x00] ++ x.feRegs ++ [x.reg 0x44, x.reg 0x4C]

/-- The capture mode of a set written, with REARM or without (R376, R377). -/
def FaultSet.captured (x : FaultSet) (latch re : Bool) : FaultSet :=
  { x with capture := latch, captureAct := latch, feValid := x.feValid && (latch || !re), overflow := x.overflow && (latch || !re) }

/-- The capture mode that a write asks for, as it is taken (R490). -/
def State.latches (s : State) (b : BlockId) (latch : Bool) : Bool := latch || (s.season.season == .spring && b != .bki)

/-- The state with the capture mode of a set written. -/
def State.captured (s : State) (b : BlockId) (u : Nat) (latch re : Bool) : State :=
  if re then rearm b u (s.setCapture b u latch) else s.setCapture b u latch

/-- A set with its capture mode. -/
def FaultSet.withCapture (x : FaultSet) (latch : Bool) : FaultSet := { x with capture := latch, captureAct := latch }

/-- A set after REARM (R376). -/
def FaultSet.rearmed (x : FaultSet) : FaultSet := if x.captureAct then x else { x with feValid := false, overflow := false }

theorem FaultSet.captured_false (x : FaultSet) (latch : Bool) : x.captured latch false = x.withCapture latch := by
  simp [FaultSet.captured, FaultSet.withCapture]

theorem FaultSet.captured_true (x : FaultSet) (latch : Bool) : x.captured latch true = (x.withCapture latch).rearmed := by
  cases latch with
  | true => simp [FaultSet.captured, FaultSet.withCapture, FaultSet.rearmed]
  | false => simp [FaultSet.captured, FaultSet.withCapture, FaultSet.rearmed]

theorem State.captured_false (s : State) (b : BlockId) (u : Nat) (latch : Bool) :
    s.captured b u latch false = s.setFset b u fun x => x.withCapture (s.latches b latch) := rfl

theorem State.captured_true (s : State) (b : BlockId) (u : Nat) (latch : Bool) :
    s.captured b u latch true = (s.setFset b u fun x => x.withCapture (s.latches b latch)).setFset b u FaultSet.rearmed := rfl

theorem captured_spec (s : State) (b : BlockId) (u : Nat) (latch re : Bool) :
    Only [.faults] s (s.captured b u latch re) ∧ (s.captured b u latch re).fset b u = (s.fset b u).captured (s.latches b latch) re
    ∧ ∀ q, q ≠ setKey b u → (s.captured b u latch re).faults.sets.get q {} = s.faults.sets.get q {} := by
  have honly : Only [.faults] s (s.setFset b u fun x => x.withCapture (s.latches b latch)) :=
    State.setFset_only _ _ _ _ (Only.refl _ s) (by simp)
  cases re with
  | false =>
    rw [State.captured_false, FaultSet.captured_false]
    exact ⟨honly, State.fset_setFset_same .., setFset_others s b u _⟩
  | true =>
    rw [State.captured_true, FaultSet.captured_true]
    refine ⟨State.setFset_only _ _ _ _ honly (by simp), ?_, fun q hq => (setFset_others _ b u _ q hq).trans (setFset_others s b u _ q hq)⟩
    rw [State.fset_setFset_same, State.fset_setFset_same]

/-- The values that readers were last given, changed. -/
def State.modReaders (s : State) (f : Tbl Nat → Tbl Nat) : State := s.modFaults fun x => { x with readers := f x.readers }

theorem State.modReaders_spec (s : State) (f : Tbl Nat → Tbl Nat) : Only [.faults] s (s.modReaders f) ∧ (s.modReaders f).persist = s.persist
    ∧ (s.modReaders f).faults = { s.faults with readers := (s.modReaders f).faults.readers } :=
  ⟨State.modFaults_only _ (Only.refl _ s) (by simp), rfl, rfl⟩

theorem opFaultCounts_ok (r : Req) {k : Nat} (s : State) (hk : k < 4) : opFaultCounts r k s
    = okRes ((allCounts k s).map fun c => c.2 - s.faults.readers.get c.1 0)
      (s.modReaders fun t => (allCounts k s).foldl (fun t c => t.set c.1 c.2) t) := by
  have hlow : ¬ 4 ≤ k := by omega
  rw [opFaultCounts, if_neg hlow, State.modReaders]

section
variable (r : Req) {b : BlockId} {k : Nat} {s : State} (hset : isSet b k = true)
include hset

theorem opFaultRead_ok : opFaultRead r b k s = okRes ((readFeCode b k s).fset b k).readAnswer (readFeCode b k s) :=
  if_neg (by simp [hset])

theorem opCapture_ok (l re : Bool) :
    opCapture r b k l re s = okRes [((s.captured b k l re).fset b k).stat] (s.captured b k l re) :=
  if_neg (by simp [hset])

theorem opSetQuiet_ok {n : Nat} (hlow : 100 ≤ n) (hhigh : n ≤ 3600000) :
    opSetQuiet r b k n s = okRes [] (configChanged (s.setFset b k fun x => { x with quietMs := n })) := by
  have hw : within 100 n 3600000 = true := by simp [within, hlow, hhigh]
  rw [opSetQuiet, if_neg (by simp [hset]), if_neg (by simp [hw]), writeQuiet, if_pos hw]

section
variable {kind pos : Nat} {mode f : Bool} {pat : BitVec 8} (hkind : injectable kind mode = true) (hpos : pos ≤ 17) (hpat : pat ≠ 0)
  (hidle : (s.fset b k).injArm = false)
include hkind hpos hpat hidle

theorem opInject_refused {n : Nat} (hno : injectRefused b kind f s = some n) :
    opInject r b k true kind mode pos pat f s = refuse (.state n) s := by
  rw [opInject]
  dsimp only
  rw [if_neg (by simp [hset]), if_neg (by simp), if_neg (by simp), if_neg (by simp [hkind]), if_neg (by omega), if_neg hpat,
    if_neg (by simp [hidle]), hno]

theorem opInject_ok (hgo : injectRefused b kind f s = none) :
    opInject r b k true kind mode pos pat f s
      = okRes [((writeInj b k true mode kind pos pat s).fset b k).injReg] (writeInj b k true mode kind pos pat s) := by
  rw [opInject]
  dsimp only
  rw [if_neg (by simp [hset]), if_neg (by simp), if_neg (by simp), if_neg (by simp [hkind]), if_neg (by omega), if_neg hpat,
    if_neg (by simp [hidle]), hgo]

end
end

/-- A set with an injection of MODE 0 armed. -/
def FaultSet.armedWith (x : FaultSet) (kind pos : Nat) (pat : BitVec 8) (now : Nat) : FaultSet :=
  { x with injArm := true, injMode := false, injState := 1, injKind := kind, injPos := pos, injPattern := pat, injAt := now }

theorem writeInj_arms {b : BlockId} {k kind pos : Nat} {pat : BitVec 8} {s : State} (hkind : injectable kind false = true) (hpos : pos ≤ 17)
    (hpat : pat ≠ 0) (hidle : (s.fset b k).injArm = false) :
    writeInj b k true false kind pos pat s = s.setFset b k fun x => x.armedWith kind pos pat s.now := by
  have hgo : ¬ ((s.fset b k).injArm = true ∨ (!injectable kind false) = true ∨ pat = 0 ∨ 17 < pos) := by
    simp only [hidle, hkind, hpat, Bool.false_eq_true, Bool.not_true, false_or]
    omega
  rw [writeInj, if_neg (by decide)]
  exact if_neg hgo

/-! ### The recorder's registers -/

theorem opBucketSet_ok (r : Req) {c m n i : Nat} (s : State) (hc : 16 ≤ c) (hc' : c < 1024) (hm : m ≤ 2) (hn : 1 ≤ n) (hn' : n ≤ 1023)
    (hi : 10 ≤ i) (hi' : i ≤ 1000000) :
    opBucketSet r c m n i s = okRes [] (configChanged (s.setBucket c ((s.evr.bucket c).rewritten m n i s.now))) := by
  have hburst : within 1 n 1023 = true := by simp [within, hn, hn']
  have hinterval : within 10 i 1000000 = true := by simp [within, hi, hi']
  have hmode : decide (m < 3) = true := decide_eq_true (by omega)
  have hok : bucketOk m n i = true := by rw [bucketOk, hburst, hinterval, hmode]; rfl
  rw [opBucketSet, if_neg (by omega), if_neg (by omega), if_neg (by simp [hburst]), if_neg (by simp [hinterval]), writeBucket,
    if_neg (by simp only [hok, Bool.not_true, Bool.false_eq_true, or_false]; omega)]
  rfl

theorem opCursor2_ok (r : Req) {s : State} (h : s.evr.cur2Alloc = false) : opCursor2 r 1 s = okRes [] (takeCursor2 true s) := by
  rw [opCursor2, if_neg (by decide), if_neg (by simp [h])]
  rfl

theorem opCursor2_busy (r : Req) {s : State} (h : s.evr.cur2Alloc = true) : opCursor2 r 1 s = refuse .busy s := by
  rw [opCursor2, if_neg (by decide), if_pos ⟨rfl, h⟩]

theorem opCodeCatalogue_ok (r : Req) {a n : Nat} (s : State) (ha : a < 1024) (hn : a + n ≤ 1024) :
    opCodeCatalogue r a n s = okRes ((List.range n).flatMap fun k => (a + k) :: Config.codeName (a + k)) s := by
  rw [opCodeCatalogue, if_neg (by omega), if_neg (by omega)]

/-! ### A record written on a request -/

theorem opWriteRecord_ok (r : Req) {c : Nat} {d : List Byte} (s : State) (hwho : r.who = .mgp) (hinst : r.fromInst = none) (hc : 0x3E0 ≤ c)
    (hc' : c < 0x400) (hd : d.length = 28) : opWriteRecord r c d s = okRes [(writeOwn .mgp c d s).1] (writeOwn .mgp c d s).2 := by
  rw [opWriteRecord, if_neg (by omega), if_neg (not_not_intro hd), if_neg (by simp [hinst]), hwho]

/-- What the MGP posts reaches the recorder or nothing (R399). -/
theorem note_mgp_only (c : Nat) (d : List Byte) (s : State) : Only [.evr] s (note .mgp 0 c 0 .mgp d s) := by
  rw [note, post]
  split
  · exact State.modEvr_only _ (Only.refl _ s) (by simp)
  · split
    · exact State.modEvr_only _ (Only.refl _ s) (by simp)
    · exact (if_neg (by decide : ¬ BlockId.mgp.id = BlockId.bki.id)) ▸ Only.refl _ s

theorem writeOwn_mgp_only (c : Nat) (d : List Byte) (s : State) : Only [.evr] s (writeOwn .mgp c d s).2 :=
  (writerDrains_only (qs := [.evr]) s.evr.posts.length s (Only.refl _ s) (by simp)).trans
    ((note_mgp_only c d _).trans (writerStep_only _ (Only.refl _ _) (by simp)))

/-- The number that is given is that of the newest record. -/
theorem writeOwn_seq {who : Master} {c : Nat} {d : List Byte} {s : State} (h : (writeOwn who c d s).1 ≠ 0) :
    ∃ x, (writeOwn who c d s).2.evr.ring.head? = some x ∧ x.seq = (writeOwn who c d s).1 ∧ x.code = c := by
  unfold writeOwn at h ⊢
  dsimp only at h ⊢
  split at h
  case h_1 x rest hring =>
    split at h
    case isTrue hnew => exact ⟨x, by rw [hring]; rfl, (if_pos hnew).symm, hnew.2⟩
    case isFalse => exact absurd rfl h
  case h_2 => exact absurd rfl h

theorem writerStep_frozen {s : State} (hrun : s.evr.running = true) (hfrozen : s.evr.frozen = true) :
    (writerStep s).evr.ring = s.evr.ring ∧ (writerStep s).evr.next = s.evr.next ∧ (writerStep s).evr.running = true
    ∧ (writerStep s).evr.frozen = true := by
  unfold writerStep
  split
  · exact ⟨rfl, rfl, hrun, hfrozen⟩
  · rw [if_neg (by simp [hrun]), if_pos hfrozen]
    exact ⟨rfl, rfl, hrun, hfrozen⟩

theorem writerDrains_frozen (n : Nat) : ∀ s : State, s.evr.running = true → s.evr.frozen = true →
    (writerDrains n s).evr.ring = s.evr.ring ∧ (writerDrains n s).evr.next = s.evr.next ∧ (writerDrains n s).evr.running = true
    ∧ (writerDrains n s).evr.frozen = true := by
  induction n with
  | zero => exact fun s hrun hfrozen => ⟨rfl, rfl, hrun, hfrozen⟩
  | succ n ih =>
    intro s hrun hfrozen
    obtain ⟨hring, hnext, hrun', hfrozen'⟩ := writerStep_frozen hrun hfrozen
    obtain ⟨hring2, hnext2, hlast⟩ := ih _ hrun' hfrozen'
    exact ⟨hring2.trans hring, hnext2.trans hnext, hlast⟩

theorem note_frozen {c : Nat} {d : List Byte} {s : State} (hfrozen : s.evr.frozen = true) :
    note .mgp 0 c 0 .mgp d s = s.modEvr fun e => { e with live := bump e.live 4 } := if_pos hfrozen

/-- Nothing is written while the ring is frozen (R397). -/
theorem writeOwn_frozen {c : Nat} {d : List Byte} {s : State} (hrun : s.evr.running = true) (hfrozen : s.evr.frozen = true) :
    (writeOwn .mgp c d s).1 = 0 ∧ (writeOwn .mgp c d s).2.evr.ring = s.evr.ring ∧ (writeOwn .mgp c d s).2.evr.next = s.evr.next := by
  obtain ⟨hring, hnext, hrun', hfrozen'⟩ := writerDrains_frozen s.evr.posts.length s hrun hfrozen
  have hpost : postOwn .mgp c d (writerDrains s.evr.posts.length s)
      = (writerDrains s.evr.posts.length s).modEvr fun e => { e with live := bump e.live 4 } := note_frozen hfrozen'
  unfold writeOwn
  dsimp only
  rw [hpost]
  generalize writerDrains s.evr.posts.length s = u at hring hnext hrun' hfrozen'
  obtain ⟨hring2, hnext2, -⟩ := writerStep_frozen (s := u.modEvr fun e => { e with live := bump e.live 4 }) hrun' hfrozen'
  have hsame : (writerStep (u.modEvr fun e => { e with live := bump e.live 4 })).evr.next = u.evr.next := hnext2
  refine ⟨?_, hring2.trans hring, hnext2.trans hnext⟩
  rw [hsame]
  split
  · exact if_neg fun h => h.1 rfl
  · rfl

/-- An occurrence posted to empty queues is taken from them at once. -/
theorem writerStep_note {c : Nat} {d : List Byte} {s : State} (hrun : s.evr.running = true) (hfrozen : s.evr.frozen = false)
    (hposts : s.evr.posts = []) (hnone : ∀ a, (s.evr.bucket c).refillAt = some a → s.now < a) :
    writerStep (note .mgp 0 c 0 .mgp d s)
      = writeOccurrence (s.occ .mgp 0 c 0 .mgp d) (s.takePost []) := by
  have hroom : s.evr.room (s.occ .mgp 0 c 0 .mgp d) = true := by simp [Evr.room, hposts]
  have hnote : note .mgp 0 c 0 .mgp d s = s.modEvr fun e => { e with posts := [s.occ .mgp 0 c 0 .mgp d] } := by
    rw [note, post, if_neg (by simp [hfrozen]), if_pos hrun]
    simp only [State.modEvr, hroom, hposts, if_true, List.nil_append]
  have hdue := refillsDue_of_none (c := c) (s := s.takePost []) hnone
  rw [hnote, writerStep]
  simp only [State.modEvr_evr, hrun, hfrozen, Bool.not_true, Bool.false_eq_true, if_false]
  exact congrArg (writeOccurrence (s.occ .mgp 0 c 0 .mgp d)) (hdue _)

theorem writeOwn_passes {c : Nat} {d : List Byte} {s : State} (hrun : s.evr.running = true) (hfrozen : s.evr.frozen = false)
    (hposts : s.evr.posts = []) (hnone : ∀ a, (s.evr.bucket c).refillAt = some a → s.now < a)
    (htreat : s.evr.treat (s.occ .mgp 0 c 0 .mgp d) = .pass ∨ s.evr.treat (s.occ .mgp 0 c 0 .mgp d) = .token)
    (hnew : nextSeq s.evr.next ≠ s.evr.next) :
    (writeOwn .mgp c d s).1 = s.evr.next ∧ (writeOwn .mgp c d s).2.evr.next = nextSeq s.evr.next ∧ (writeOwn .mgp c d s).2.evr.posts = []
    ∧ (writeOwn .mgp c d s).2.evr.ring = ({ s.occ .mgp 0 c 0 .mgp d with seq := s.evr.next } :: s.evr.ring).take 65536 := by
  have hstep := writerStep_note (d := d) hrun hfrozen hposts hnone
  have heq : writeOwn .mgp c d s
      = (match (writerStep (note .mgp 0 c 0 .mgp d s)).evr.ring with
          | x :: _ => if (writerStep (note .mgp 0 c 0 .mgp d s)).evr.next ≠ s.evr.next ∧ x.code = c then x.seq else 0
          | [] => 0, writerStep (note .mgp 0 c 0 .mgp d s)) := by
    rw [writeOwn, hposts]
    rfl
  have hwritten : ∃ u, writerStep (note .mgp 0 c 0 .mgp d s) = u ∧ u.evr.next = nextSeq s.evr.next ∧ u.evr.posts = []
      ∧ u.evr.ring = ({ s.occ .mgp 0 c 0 .mgp d with seq := s.evr.next } :: s.evr.ring).take 65536 := by
    obtain hpass | htoken := htreat
    · exact ⟨_, hstep.trans (writeOccurrence_of_unlimited (.inl hpass)), rfl, rfl, rfl⟩
    · exact ⟨_, hstep.trans (writeOccurrence_of_token htoken), rfl, rfl, rfl⟩
  obtain ⟨u, hu, hnext, hempty, hring⟩ := hwritten
  rw [heq, hu]
  refine ⟨?_, hnext, hempty, hring⟩
  rw [hring, hnext]
  exact if_pos ⟨hnew, rfl⟩

/-! ### The obligation -/

/-- Settles O59: what each operation writes, on the state in which its request is taken. -/
theorem keyFaultAndRecorderRequests : Obligations.KeyFaultAndRecorderRequests := by
  unfold Obligations.KeyFaultAndRecorderRequests
  refine ⟨?_, ?_, ?_, ?_, ?_, ?_, ?_, ?_, ?_, ?_, ?_, ?_, ?_, ?_, ?_, ?_, ?_, ?_, ?_, ?_, ?_, ?_, ?_, ?_, ?_, ?_, ?_, ?_, ?_, ?_, ?_⟩
  case refine_1 =>
    intro r n v a s hclear hn hlock hload hok
    refine hclear.served rfl ⟨nofun, nofun⟩ fun ps htake => ?_
    obtain ⟨t, hop, hfill⟩ := opKeyLoad_ok r (s := s.withPairs ps) v hn hlock hload hok
    have hup : t.persist.fwUp = true := fwUp_of_only hfill.only (by decide) hclear.fwUp
    rw [htake]
    by_cases hlow : n < 8
    · obtain ⟨honly, hother, hksu⟩ := State.setSlot_written t n fun x => { x with lock := true }
      have hslot := State.slot_setSlot_same t n fun x => { x with lock := true }
      have hlast : lockReserved n t = t.setSlot n fun x => { x with lock := true } := lockReserved_low hlow hfill.valid
      refine ⟨_, hop, ?_, ?_⟩
      · rw [hlast]
        exact hup
      · rw [hlast]
        refine ⟨hfill.only.trans honly, fun m hm => (hother m hm).trans (hfill.other m hm), ?_, ?_, ?_, ?_, ?_, ?_, ?_, hfill.keyIn⟩
        · exact ((State.setSlot_written t n _).slotValue (congrArg Slot.cell hslot :)).trans hfill.value
        · exact (congrArg Slot.valid hslot :).trans hfill.valid
        · exact (congrArg Slot.use hslot :).trans hfill.use
        · exact (congrArg Slot.tag hslot :).trans hfill.tag
        · exact (congrArg Slot.keyId hslot :).trans hfill.keyId
        · exact (congrArg Slot.volatile hslot :).trans hfill.volatile
        · exact (congrArg Slot.lock hslot :).trans (decide_eq_true hlow).symm
    · have hlast : lockReserved n t = t := lockReserved_high (by omega) t
      rw [hlast] at hop
      exact ⟨t, hop, hup, hfill.only, hfill.other, hfill.value, hfill.valid, hfill.use, hfill.tag, hfill.keyId, hfill.volatile,
        (hfill.lock.trans hlock).trans (decide_eq_false hlow).symm, hfill.keyIn⟩
  case refine_2 =>
    intro r n v a s hclear hn hlock
    exact hclear.answered rfl ⟨nofun, nofun⟩ fun ps => opKeyLoad_locked r (s := s.withPairs ps) v hn hlock
  case refine_3 =>
    intro r n a s hclear h8 hn hok hlock htrng
    refine hclear.served rfl ⟨nofun, nofun⟩ fun ps htake => ?_
    obtain ⟨t, hop, hfill⟩ := opKeyGenerate_ok r (s := s.withPairs ps) h8 hn hok hlock htrng
    obtain ⟨-, hdraw, hksu⟩ := drawKey_spec (s.withPairs ps)
    obtain ⟨honly, hother⟩ := hfill.of_drawn hdraw (by rw [hksu])
    rw [htake]
    exact ⟨t, hop, fwUp_of_only honly (by decide) hclear.fwUp, honly, hother, hfill.value, hfill.use, hfill.origin,
      hfill.draws.trans (congrArg Ksu.draws hksu)⟩
  case refine_4 =>
    intro r n a s hclear h8 hn hlock
    exact hclear.answered rfl ⟨nofun, nofun⟩ fun ps => opKeyGenerate_locked r (s := s.withPairs ps) h8 hn hlock
  case refine_5 =>
    intro r n p a l c s hclear h8 hn hp hok hderive
    refine hclear.served rfl ⟨nofun, nofun⟩ fun ps htake => ?_
    obtain ⟨t, hkcv, hfill⟩ := ksuDerive_kcv_ok (s := s.withPairs ps) (a := a) hderive
    rw [htake]
    exact ⟨t, (opKeyDerive_eq r hclear.who hclear.fromInst h8 hn hp hok).trans hkcv, fwUp_of_only hfill.only (by decide) hclear.fwUp,
      hfill.only, hfill.other, hfill.value, hfill.use, hfill.origin⟩
  case refine_6 =>
    intro r n p a l c k s hclear h8 hn hp hok hk hderive
    refine hclear.served rfl ⟨nofun, nofun⟩ fun ps htake => ?_
    have hkcv := ksuDerive_kcv_refused (s := s.withPairs ps) (a := a) hk hderive
    rw [htake]
    exact ⟨_, (opKeyDerive_eq r hclear.who hclear.fromInst h8 hn hp hok).trans hkcv, hclear.fwUp,
      State.modKsu_only _ (Only.refl _ _) (by simp), rfl⟩
  case refine_7 =>
    intro r n s hclear hn hfixed
    refine hclear.served rfl ⟨nofun, nofun⟩ fun ps htake => ?_
    obtain ⟨honly, hmgp, hksu⟩ := eraseSlot_spec n (s.withPairs ps)
    have hlast : Only [.ksu] (eraseSlot n (s.withPairs ps)) (ksuDone 0 (eraseSlot n (s.withPairs ps))) :=
      State.modKsu_only _ (Only.refl _ _) (by simp)
    have hslots : (ksuDone 0 (eraseSlot n (s.withPairs ps))).ksu.slots = s.ksu.slots.del n := (congrArg Ksu.slots hksu :)
    have hsaved : (ksuDone 0 (eraseSlot n (s.withPairs ps))).ksu.saved = s.ksu.saved.filter fun c => c.slot ≠ n := (congrArg Ksu.saved hksu :)
    rw [htake]
    refine ⟨_, opKeyErase_ok r hclear.who hclear.fromInst hn hfixed, ?_, honly.trans (hlast.mono (by simp)), ?_, ?_, ?_, ?_⟩
    · exact fwUp_of_only (honly.trans (hlast.mono (by simp))) (by decide) hclear.fwUp
    · exact fun h => (hmgp h).trans hlast
    · rw [State.slot, hslots, Tbl.get_del, if_pos rfl]
    · intro m hm
      rw [State.slot, hslots, Tbl.get_del, if_neg hm]
      rfl
    · intro c hc
      rw [hsaved] at hc
      simpa using (List.mem_filter.mp hc).2
  case refine_8 =>
    intro r n s hclear hfixed
    exact hclear.answered rfl ⟨nofun, nofun⟩ fun ps => opKeyErase_fixed r hclear.who hfixed
  case refine_9 =>
    intro r n s hclear hn
    exact hclear.answered rfl ⟨nofun, nofun⟩ fun ps => opKeyAttrRead_ok r hclear.who hn
  case refine_10 =>
    intro r n i g s hclear h8 hn hlock hi hlive hgen hroom
    refine hclear.served rfl ⟨nofun, nofun⟩ fun ps htake => ?_
    obtain ⟨honly, hother, hslot, hvalue⟩ := assignSlot_spec n false i g (s.withPairs ps)
    rw [htake]
    exact ⟨_, opKeyAssign_inst r (s := s.withPairs ps) h8 hn hlock hi hlive hgen hroom, fwUp_of_only honly (by decide) hclear.fwUp,
      honly, hother, hvalue, (congrArg Slot.byMgp hslot :), (congrArg Slot.owner hslot :), (congrArg Slot.ownerGen hslot :),
      (congrArg Slot.use hslot :)⟩
  case refine_11 =>
    intro r n i g s hclear h8 hn hlock
    refine hclear.served rfl ⟨nofun, nofun⟩ fun ps htake => ?_
    obtain ⟨honly, hother, hslot, hvalue⟩ := assignSlot_spec n true 0 0 (s.withPairs ps)
    rw [htake]
    exact ⟨_, opKeyAssign_mgp r (s := s.withPairs ps) i g h8 hn hlock, fwUp_of_only honly (by decide) hclear.fwUp, honly, hother, hvalue,
      (congrArg Slot.byMgp hslot :)⟩
  case refine_12 =>
    intro r n a l d s hclear h8 hn hlock hok
    refine hclear.served rfl ⟨nofun, nofun⟩ fun ps htake => ?_
    obtain ⟨hw, hslot⟩ := slotAttr_written n a l d (s.withPairs ps)
    rw [htake]
    exact ⟨_, opKeyAttrWrite_ok r (s := s.withPairs ps) l d h8 hn hlock hok, fwUp_of_only hw.only (by decide) hclear.fwUp, hw.only, hw.other,
      hw.slotValue (congrArg Slot.cell hslot :), (congrArg Slot.use hslot :), (congrArg Slot.lock hslot :), (congrArg Slot.derivable hslot :),
      (congrArg Slot.valid hslot :)⟩
  case refine_13 =>
    intro r n a l d s hclear h8 hn hlock
    exact hclear.answered rfl ⟨nofun, nofun⟩ fun ps => opKeyAttrWrite_locked r (s := s.withPairs ps) a l d h8 hn hlock
  case refine_14 =>
    intro r n a l d s hclear hlow
    exact hclear.answered rfl ⟨nofun, nofun⟩ fun ps => opKeyAttrWrite_reserved r a l d hlow
  case refine_15 =>
    intro r n e s hclear hn hentry ha hb hrate
    refine hclear.served rfl ⟨nofun, nofun⟩ fun ps htake => ?_
    rw [htake]
    exact ⟨_, opVerifyEntry_ok r (s := s.withPairs ps) hn hentry ha hb hrate, hclear.fwUp,
      configChanged_only _ (State.modKsu_only _ (Only.refl _ _) (by simp)) (by simp), rfl⟩
  case refine_16 =>
    intro r n e s hclear hn hentry ha hb hvalid hrate
    exact hclear.answered rfl ⟨nofun, nofun⟩ fun ps => opVerifyEntry_refused r (s := s.withPairs ps) hn hentry ha hb hvalid hrate
  case refine_17 =>
    intro r n s hclear hn
    refine hclear.served rfl ⟨nofun, nofun⟩ fun ps htake => ?_
    rw [htake]
    exact ⟨_, opVerifyEnable_ok r (s := s.withPairs ps) hn, hclear.fwUp,
      configChanged_only _ (State.modKsu_only _ (Only.refl _ _) (by simp)) (by simp), rfl⟩
  case refine_18 =>
    intro r b k s hclear hset
    have hu : ∀ ps, (readFeCode b k (s.withPairs ps)).fset b k = { s.fset b k with feBuf := (s.fset b k).fe } :=
      fun ps => State.fset_setFset_same (s.withPairs ps) b k _
    refine ⟨({ s.fset b k with feBuf := (s.fset b k).fe } : FaultSet).readAnswer, hclear.served rfl ⟨nofun, nofun⟩ fun ps htake => ?_⟩
    have hop := opFaultRead_ok r (s := s.withPairs ps) hset
    have honly : Only [.faults] (s.withPairs ps) (readFeCode b k (s.withPairs ps)) :=
      State.setFset_only _ _ _ _ (Only.refl _ _) (by simp)
    rw [hu ps] at hop
    rw [htake]
    exact ⟨_, hop, fwUp_of_only honly (by decide) hclear.fwUp, honly, hu ps, by rw [hu ps]; rfl, setFset_others (s.withPairs ps) b k _⟩
  case refine_19 =>
    intro r k s hclear hk
    refine hclear.served rfl ⟨nofun, nofun⟩ fun ps htake => ?_
    obtain ⟨honly, hpersist, hfaults⟩ := (s.withPairs ps).modReaders_spec
      fun t => (allCounts k (s.withPairs ps)).foldl (fun t c => t.set c.1 c.2) t
    rw [htake]
    exact ⟨_, opFaultCounts_ok r (s.withPairs ps) hk, by rw [hpersist]; exact hclear.fwUp, honly, hfaults⟩
  case refine_20 =>
    intro r b k kind pos pat f s hclear hset hkind hpos hpat hidle hgo
    have hkind' : injectable kind false = true := decide_eq_true hkind
    refine ⟨[((s.fset b k).armedWith kind pos pat s.now).injReg], hclear.served rfl ⟨nofun, nofun⟩ fun ps htake => ?_⟩
    have hfset : ((s.withPairs ps).setFset b k fun x => x.armedWith kind pos pat s.now).fset b k = (s.fset b k).armedWith kind pos pat s.now :=
      State.fset_setFset_same ..
    have hop := opInject_ok r (s := s.withPairs ps) (f := f) hset hkind' hpos hpat hidle hgo
    rw [writeInj_arms (s := s.withPairs ps) hkind' hpos hpat hidle, State.withPairs_now, hfset] at hop
    rw [htake]
    exact ⟨_, hop, hclear.fwUp, State.setFset_only _ _ _ _ (Only.refl _ _) (by simp), by rw [hfset],
      setFset_others (s.withPairs ps) b k _, hfset⟩
  case refine_21 =>
    intro r b k kind pos n mode pat f s hclear hset hkind hpos hpat hidle hno
    exact hclear.answered rfl ⟨nofun, nofun⟩ fun ps => opInject_refused r (s := s.withPairs ps) hset hkind hpos hpat hidle hno
  case refine_22 =>
    intro r b k l re s hclear hset
    refine ⟨[((s.fset b k).captured (s.latches b l) re).stat], hclear.served rfl ⟨nofun, nofun⟩ fun ps htake => ?_⟩
    obtain ⟨honly, hfset, hothers⟩ := captured_spec (s.withPairs ps) b k l re
    have hop := opCapture_ok r (s := s.withPairs ps) hset l re
    have hsame : ((s.withPairs ps).captured b k l re).fset b k = (s.fset b k).captured (s.latches b l) re := hfset
    rw [hsame] at hop
    rw [htake]
    exact ⟨_, hop, fwUp_of_only honly (by decide) hclear.fwUp, honly, by rw [hsame], hothers, hsame⟩
  case refine_23 =>
    intro r b k n s hclear hset hlow hhigh
    refine hclear.served rfl ⟨nofun, nofun⟩ fun ps htake => ?_
    rw [htake]
    exact ⟨_, opSetQuiet_ok r hset hlow hhigh, hclear.fwUp, configChanged_only _ (State.setFset_only _ _ _ _ (Only.refl _ _) (by simp)) (by simp),
      State.fset_setFset_same (s.withPairs ps) b k fun x => { x with quietMs := n },
      setFset_others (s.withPairs ps) b k fun x => { x with quietMs := n }⟩
  case refine_24 =>
    intro r c m n i s hclear hc hc' hm hn hn' hi hi'
    refine hclear.served rfl ⟨nofun, nofun⟩ fun ps htake => ?_
    have hbucket := State.setBucket_same (s.withPairs ps) c ((s.evr.bucket c).rewritten m n i s.now)
    rw [htake]
    refine ⟨_, opBucketSet_ok r (s.withPairs ps) hc hc' hm hn hn' hi hi', hclear.fwUp,
      configChanged_only _ ((State.setBucket_only _ _ _ (Only.refl _ _)).mono (by simp)) (by simp), ?_, (congrArg Bucket.mode hbucket :),
      (congrArg Bucket.burst hbucket :), (congrArg Bucket.intervalUs hbucket :), (congrArg Bucket.tokens hbucket :),
      (congrArg Bucket.suppCount hbucket :), rfl⟩
    exact fun d hd => State.setBucket_other (s.withPairs ps) _ _ hd
  case refine_25 =>
    intro r s hclear hfree
    refine hclear.served rfl ⟨nofun, nofun⟩ fun ps htake => ?_
    rw [htake]
    exact ⟨_, opCursor2_ok r (s := s.withPairs ps) hfree, hclear.fwUp, State.modEvr_only _ (Only.refl _ _) (by simp), rfl⟩
  case refine_26 =>
    intro r s hclear hheld
    exact hclear.answered rfl ⟨nofun, nofun⟩ fun ps => opCursor2_busy r (s := s.withPairs ps) hheld
  case refine_27 =>
    intro r a n s hclear ha hn
    exact hclear.answered rfl ⟨nofun, nofun⟩ fun ps => opCodeCatalogue_ok r (s.withPairs ps) ha hn
  case refine_28 =>
    intro r c d s hclear hc hc' hd
    obtain ⟨j, hsrc, -⟩ := id hclear
    obtain ⟨ps, htake⟩ := take_of_host hsrc s
    refine ⟨(writeOwn .mgp c d (take r s)).1, hclear.served rfl ⟨nofun, nofun⟩ fun ps' htake' => ?_⟩
    rw [← htake']
    refine ⟨_, opWriteRecord_ok r _ hclear.who hclear.fromInst hc hc' hd, ?_, writeOwn_mgp_only c d _, writeOwn_seq⟩
    exact fwUp_of_only (writeOwn_mgp_only c d _) (by decide) (by rw [htake]; exact hclear.fwUp)
  case refine_29 =>
    intro r c d s hclear hc hc' hd hrun hfrozen hposts hnone htreat hnew
    refine hclear.served rfl ⟨nofun, nofun⟩ fun ps htake => ?_
    obtain ⟨hseq, hnext, hempty, hring⟩ := writeOwn_passes (s := s.withPairs ps) hrun hfrozen hposts hnone htreat hnew
    have hop := opWriteRecord_ok r (s.withPairs ps) hclear.who hclear.fromInst hc hc' hd
    rw [hseq] at hop
    rw [htake]
    exact ⟨_, hop, fwUp_of_only (writeOwn_mgp_only c d _) (by decide) hclear.fwUp, writeOwn_mgp_only c d _, hnext, hempty, hring⟩
  case refine_30 =>
    intro r c d s hclear hc hc' hd hrun hfrozen
    refine hclear.served rfl ⟨nofun, nofun⟩ fun ps htake => ?_
    obtain ⟨hzero, hring, hnext⟩ := writeOwn_frozen (s := s.withPairs ps) (c := c) (d := d) hrun hfrozen
    have hop := opWriteRecord_ok r (s.withPairs ps) hclear.who hclear.fromInst hc hc' hd
    rw [hzero] at hop
    rw [htake]
    exact ⟨_, hop, fwUp_of_only (writeOwn_mgp_only c d _) (by decide) hclear.fwUp, writeOwn_mgp_only c d _, hring, hnext⟩
  case refine_31 =>
    intro r l v s hclear
    refine hclear.served rfl ⟨nofun, nofun⟩ fun ps htake => ?_
    rw [htake]
    exact ⟨_, rfl, hclear.fwUp, configChanged_only _ (State.modEvr_only _ (Only.refl _ _) (by simp)) (by simp), rfl⟩

end Sys2Proof.Machine
end

section
/-!
PROOFS. The streams of the acquisition engine (R308 to R333) as the requests of its family write them.
-/
namespace Sys2Proof.Machine
open Sys2Proof

/-! ### One stream -/

@[simp] theorem State.acqS_setAcqS_same (s : State) (n : Nat) (f : AcqStream → AcqStream) : (s.setAcqS n f).acqS n = f (s.acqS n) :=
  Tbl.get_set_same ..

theorem State.acqS_setAcqS_other (s : State) {n j : Nat} (f : AcqStream → AcqStream) (h : j ≠ n) : (s.setAcqS n f).acqS j = s.acqS j :=
  Tbl.get_set_other _ _ _ h

theorem acqS_of_acq {s t : State} (h : t.acq = s.acq) (n : Nat) : t.acqS n = s.acqS n := by rw [State.acqS, State.acqS, h]

theorem acqS_of_only {ps : List Part} {s t : State} (h : Only ps s t) (hp : Part.acq ∉ ps) (n : Nat) : t.acqS n = s.acqS n :=
  acqS_of_acq (h.same .acq hp) n

@[simp] theorem acqCount_acqS (i : Nat) (s : State) (n j : Nat) : (acqCount i s n).acqS j = s.acqS j := rfl

@[simp] theorem dramGive_acqS (gs : List Nat) (s : State) (n : Nat) : (dramGive gs s).acqS n = s.acqS n := rfl

/-- The frame that is being filled is staged behind those that wait (R321). -/
theorem acqClose_acqS (n : Nat) (s : State) :
    ∃ fs q, (acqClose n s).acqS n = { s.acqS n with items := [], frames := (s.acqS n).frames ++ fs, frameSeq := q } := by
  unfold acqClose
  dsimp only
  split
  case isTrue hnone => exact ⟨[], (s.acqS n).frameSeq, by rw [List.append_nil, ← hnone]⟩
  case isFalse =>
    rw [acqCount_acqS, State.acqS_setAcqS_same]
    exact ⟨_, _, rfl⟩

theorem acqClose_other (s : State) {n j : Nat} (h : j ≠ n) : (acqClose n s).acqS j = s.acqS j := by
  unfold acqClose
  dsimp only
  split
  · rfl
  · rw [acqCount_acqS, State.acqS_setAcqS_other s _ h]

/-! ### Enabled and disabled (R329) -/

section
variable (n : Nat) (s : State)

theorem acqGranules_acqS : ∃ gs, (acqGranules n s).acqS n = { s.acqS n with granules := gs } := ⟨_, State.acqS_setAcqS_same ..⟩

theorem acqGranules_other {j : Nat} (h : j ≠ n) : (acqGranules n s).acqS j = s.acqS j := State.acqS_setAcqS_other _ _ h

theorem acqEnable_other {j : Nat} (h : j ≠ n) : (acqEnable n s).acqS j = s.acqS j := by
  unfold acqEnable
  split
  · exact State.acqS_setAcqS_other s _ h
  · exact State.acqS_setAcqS_other s _ h

theorem acqEnable_acqS : ((acqEnable n s).acqS n).en = true ∧ ((acqEnable n s).acqS n).used = (s.acqS n).used
    ∧ (s.season.season = .spring → ((acqEnable n s).acqS n).run = (s.acqS n).run)
    ∧ (s.season.season ≠ .spring → ((acqEnable n s).acqS n).run = true ∧ ((acqEnable n s).acqS n).frames = []
        ∧ ((acqEnable n s).acqS n).frameSeq = 0 ∧ ((acqEnable n s).acqS n).trigs = []) := by
  unfold acqEnable
  split
  case isTrue hspring =>
    rw [State.acqS_setAcqS_same]
    exact ⟨rfl, rfl, fun _ => rfl, fun hne => absurd hspring hne⟩
  case isFalse hno =>
    rw [acqBegin, State.acqS_setAcqS_same]
    exact ⟨rfl, rfl, fun h => absurd h hno, fun _ => ⟨rfl, rfl, rfl, rfl⟩⟩

/-- What the release of the granules leaves of a stream. -/
theorem acqRelease_acqS : ∃ gs, (acqRelease n s).acqS n = { s.acqS n with granules := gs } := by
  unfold acqRelease
  dsimp only
  split
  · rw [dramGive_acqS, State.acqS_setAcqS_same]
    exact ⟨[], rfl⟩
  · exact ⟨(s.acqS n).granules, rfl⟩

theorem acqRelease_other {j : Nat} (h : j ≠ n) : (acqRelease n s).acqS j = s.acqS j := by
  unfold acqRelease
  dsimp only
  split
  · rw [dramGive_acqS, State.acqS_setAcqS_other s _ h]
  · rfl

theorem acqDisable_acqS : ((acqDisable n s).acqS n).en = false ∧ ((acqDisable n s).acqS n).run = false ∧ ((acqDisable n s).acqS n).trigs = []
    ∧ ((acqDisable n s).acqS n).items = [] ∧ (s.acqS n).frames <+: ((acqDisable n s).acqS n).frames := by
  unfold acqDisable
  obtain ⟨fs, q, hclose⟩ := acqClose_acqS n s
  obtain ⟨gs, hrelease⟩ := acqRelease_acqS n ((acqCount 10 (acqClose n s) (s.acqS n).trigs.length).setAcqS n
    fun x => { x with en := false, run := false, trigs := [], sst := x.sst.map fun q => (q.1, { q.2 with cur := [] }) })
  rw [State.acqS_setAcqS_same, acqCount_acqS, hclose] at hrelease
  rw [hrelease]
  exact ⟨rfl, rfl, rfl, rfl, fs, rfl⟩

theorem acqDisable_other {j : Nat} (h : j ≠ n) : (acqDisable n s).acqS j = s.acqS j := by
  unfold acqDisable
  rw [acqRelease_other n _ h, State.acqS_setAcqS_other _ _ h, acqCount_acqS, acqClose_other s h]

end

/-! ### The groups that the streams name (R309) -/

/-- A source that a stream starts or stops naming: its group's ACQ_EN, or the ACQ bit of its entry's bitmap. -/
def acqBit (gs : List Nat) (s : State) (y : AcqSrc) : State :=
  if y.raw then (match acqChange y.ref s with | some c => commitNow [c] s | none => s)
  else s.setGroup y.ref fun g => { g with acqEn := gs.contains y.ref }

theorem acqBits_eq (x : AcqStream) (s : State) : acqBits x s = x.used.foldl (acqBit (namedBy false s)) s := rfl

theorem acqBit_group (gs : List Nat) (s : State) (y : AcqSrc) (g : Nat) :
    (((acqBit gs s y).group g).acqEn = gs.contains g ∧ y.raw = false ∧ y.ref = g) ∨
    ((acqBit gs s y).group g = s.group g ∧ ¬ (y.raw = false ∧ y.ref = g)) := by
  unfold acqBit
  split
  case isTrue hraw =>
    refine .inr ⟨?_, fun h => by simp [hraw] at h⟩
    split
    case h_1 c _ =>
      have hsce : (commitNow [c] s).sce = s.sce :=
        (commitNow_only (qs := [.sw, .insts, .bki, .evr, .mbx, .mon]) [c] s (Only.refl _ s) (by simp)).same .sce (by decide)
      rw [State.group, State.group, hsce]
    case h_2 => rfl
  case isFalse hraw =>
    by_cases hg : g = y.ref
    · subst hg
      exact .inl ⟨congrArg Group.acqEn (State.group_setGroup_same s y.ref fun g => { g with acqEn := gs.contains y.ref }),
        by simpa using hraw, rfl⟩
    · exact .inr ⟨State.group_setGroup_other s _ hg, fun h => hg h.2.symm⟩

theorem acqBits_group (gs : List Nat) {g : Nat} (l : List AcqSrc) : ∀ s : State,
    ((s.group g).acqEn = gs.contains g ∨ ∃ y ∈ l, y.raw = false ∧ y.ref = g) → ((l.foldl (acqBit gs) s).group g).acqEn = gs.contains g := by
  induction l with
  | nil =>
    intro s h
    obtain h | ⟨y, hy, -⟩ := h
    · exact h
    · cases hy
  | cons z l ih =>
    intro s h
    refine ih (acqBit gs s z) ?_
    obtain ⟨hset, -⟩ | ⟨hsame, hother⟩ := acqBit_group gs s z g
    · exact .inl hset
    · obtain h | ⟨y, hy, hraw, href⟩ := h
      · exact .inl (by rw [hsame]; exact h)
      · obtain rfl | hy := List.mem_cons.mp hy
        · exact absurd ⟨hraw, href⟩ hother
        · exact .inr ⟨y, hy, hraw, href⟩

/-- A group that an enabled stream names as a source is named. -/
theorem namedBy_of_used {n : Nat} {s : State} (hen : (s.acqS n).en = true) {y : AcqSrc} (hy : y ∈ (s.acqS n).used) (hraw : y.raw = false) :
    y.ref ∈ namedBy false s := by
  have hlisted : (n, s.acqS n) ∈ s.acq.streams := by
    obtain hdefault | hmem := Tbl.get_eq_or_mem s.acq.streams n {}
    · have hoff : (s.acqS n).en = false := congrArg AcqStream.en hdefault
      rw [hoff] at hen
      cases hen
    · exact hmem
  refine List.mem_flatMap.mpr ⟨(n, s.acqS n), List.mem_filter.mpr ⟨hlisted, hen⟩, List.mem_map.mpr ⟨y, ?_, rfl⟩⟩
  exact List.mem_filter.mpr ⟨hy, by simp [hraw]⟩

/-! ### The requests -/

section
variable (r : Req) {n : Nat} {s : State} (hn : n < 4)
include hn

section
variable {d : AcqStream} (hd : d.bad s = false)
include hd

theorem opStreamSet_ok (hfree : (s.acqS n).en = false ∨ (s.acqS n).put d = (s.acqS n).putLive d)
    (hadmit : streamRefused n ((s.acqS n).put d) s = none) :
    opStreamSet r n d s = okRes [] (configChanged (s.setAcqS n fun x => x.put d)) := by
  have hopen : ¬ ((s.acqS n).en = true ∧ (s.acqS n).put d ≠ (s.acqS n).putLive d) := fun ⟨hen, hne⟩ =>
    hfree.elim (fun h => by simp [h] at hen) hne
  rw [opStreamSet, if_neg (by omega), if_neg (by simp [hd]), if_neg hopen, hadmit]

theorem opStreamSet_busy (hen : (s.acqS n).en = true) (hne : (s.acqS n).put d ≠ (s.acqS n).putLive d) :
    opStreamSet r n d s = refuse .busy s := by
  rw [opStreamSet, if_neg (by omega), if_neg (by simp [hd]), if_pos ⟨hen, hne⟩]

theorem opStreamSet_refused {st : Status} (hfree : (s.acqS n).en = false ∨ (s.acqS n).put d = (s.acqS n).putLive d)
    (hadmit : streamRefused n ((s.acqS n).put d) s = some st) : opStreamSet r n d s = refuse st s := by
  have hopen : ¬ ((s.acqS n).en = true ∧ (s.acqS n).put d ≠ (s.acqS n).putLive d) := fun ⟨hen, hne⟩ =>
    hfree.elim (fun h => by simp [h] at hen) hne
  rw [opStreamSet, if_neg (by omega), if_neg (by simp [hd]), if_neg hopen, hadmit]

end

theorem opStreamEn_idle {e : Nat} (he : e ≤ 1) (hsame : (s.acqS n).en = (e == 1)) : opStreamEn r n e s = okRes [] s := by
  rw [opStreamEn, if_neg (by omega), if_neg (by omega), if_pos hsame]

theorem opStreamEn_off (hen : (s.acqS n).en = true) :
    opStreamEn r n 0 s = okRes [] (configChanged (acqBits (s.acqS n) (acqDisable n s))) := by
  rw [opStreamEn, if_neg (by omega), if_neg (by omega), if_neg (by simp [hen]), if_pos rfl]

theorem opStreamEn_on (hen : (s.acqS n).en = false) (hbad : (s.acqS n).bad s = false) (hsrc : ((s.acqS n).src 0).valid = true)
    (hnone : (s.acqS n).granules = []) (hfree : (s.acqS n).stageGran ≤ s.dramFree) (hadmit : streamAdmit n (s.acqS n) s = none) :
    opStreamEn r n 1 s = okRes [] (configChanged (acqBits (s.acqS n) (acqEnable n (acqGranules n s)))) := by
  have hready : ¬ (s.acqS n).unready s = true := by simp [AcqStream.unready, hbad, hsrc]
  rw [opStreamEn, if_neg (by omega), if_neg (by omega), if_neg (by simp [hen]), if_neg (by omega), if_neg hready, if_neg (not_not_intro hnone),
    if_neg (by omega), hadmit]

theorem opStreamRestart_stopped (hen : (s.acqS n).en = true) (hrun : (s.acqS n).run = false) :
    opStreamRestart r n s = okRes [b2n ((acqRestart n s).acqS n).run] (acqRestart n s) := by
  rw [opStreamRestart, if_neg (by omega)]
  simp only [hen, hrun, Bool.not_false, Bool.and_self, if_true]

theorem opStreamRestart_idle (h : (s.acqS n).en = false ∨ (s.acqS n).run = true) :
    opStreamRestart r n s = okRes [b2n (s.acqS n).run] s := by
  have hno : ¬ ((s.acqS n).en && !(s.acqS n).run) = true := by
    obtain h | h := h
    · simp [h]
    · simp [h]
  rw [opStreamRestart, if_neg (by omega)]
  simp only [hno]
  rfl

theorem opStreamRead_ok : opStreamRead r n s = okRes [(s.acqS n).pack, acqStat s] (s.setAcqS n fun x => { x with stageHwm := 0 }) :=
  if_neg (by omega)

end

/-- The item that a stopped stream's restart puts stands last in the frame being filled (R328). -/
theorem acqRestart_acqS (n : Nat) (s : State) : ((acqRestart n s).acqS n).run = true ∧ ((acqRestart n s).acqS n).stopReason = 0
    ∧ ∃ x, ((acqRestart n s).acqS n).items.getLast? = some x ∧ x.octets = eventItem 5 0 s := by
  have hput : ∃ x, ((acqPut n (eventItem 5 0 s) s).acqS n).items.getLast? = some x ∧ x.octets = eventItem 5 0 s := by
    unfold acqPut
    dsimp only
    rw [State.acqS_setAcqS_same]
    exact ⟨_, List.getLast?_concat .., rfl⟩
  unfold acqRestart
  rw [acqCount_acqS, State.acqS_setAcqS_same]
  exact ⟨rfl, rfl, hput⟩

theorem acqRestart_other (n : Nat) (s : State) {j : Nat} (h : j ≠ n) : (acqRestart n s).acqS j = s.acqS j := by
  unfold acqRestart acqPut
  dsimp only
  rw [acqCount_acqS, State.acqS_setAcqS_other _ _ h, State.acqS_setAcqS_other _ _ h]
  split
  · exact acqClose_other s h
  · rfl

/-! ### Triggers (R318) -/

/-- What a trigger adds to a stream that takes it. -/
def AcqStream.taken (x : AcqStream) (t : AcqTrig) : List AcqTrig :=
  if x.run = true ∧ x.causeEn.getLsbD t.cause = true then [{ t with span := x.prePost.getD t.cause (0, 0) }] else []

theorem acqTriggerOn_acqS (t : AcqTrig) (n : Nat) (s : State) :
    (acqTriggerOn t n s).acqS n = { s.acqS n with trigs := (s.acqS n).trigs ++ (s.acqS n).taken t } := by
  unfold acqTriggerOn AcqStream.taken
  dsimp only
  split
  case isTrue h =>
    rw [if_pos (by simpa using h), acqCount_acqS, State.acqS_setAcqS_same]
  case isFalse h =>
    rw [if_neg (by simpa using h), List.append_nil]
    rfl

theorem acqTriggerOn_other (t : AcqTrig) (s : State) {n j : Nat} (h : j ≠ n) : (acqTriggerOn t n s).acqS j = s.acqS j := by
  unfold acqTriggerOn
  dsimp only
  split
  · rw [acqCount_acqS, State.acqS_setAcqS_other s _ h]
  · rfl

theorem foldl_acqTriggerOn (t : AcqTrig) {l : List Nat} (hl : l.Nodup) : ∀ (s : State) (n : Nat),
    (l.foldl (fun s n => acqTriggerOn t n s) s).acqS n
      = { s.acqS n with trigs := (s.acqS n).trigs ++ if n ∈ l then (s.acqS n).taken t else [] } := by
  induction l with
  | nil => exact fun s n => by simp
  | cons m l ih =>
    obtain ⟨hm, hl⟩ := List.nodup_cons.mp hl
    intro s n
    rw [List.foldl_cons, ih hl]
    by_cases hn : n = m
    · subst hn
      rw [acqTriggerOn_acqS, if_neg hm, if_pos List.mem_cons_self, List.append_nil]
    · rw [acqTriggerOn_other t s hn]
      simp [hn]

end Sys2Proof.Machine
end

section
/-!
PROOFS. The requests of the time family (R463), with those of the acquisition family (R464): O57.
-/
namespace Sys2Proof.Machine
open Sys2Proof

/-! ### TIME_CONFIG -/

/-- What PTP_PORTk holds once `v` is written (R285). -/
structure PortTaken (k : Nat) (v : BitVec 32) (p : PtpPort) : Prop where
  ptpEn : p.ptpEn = bitOf v 0
  pdelayEn : p.pdelayEn = bitOf v 1
  tcClass : p.tcClass = bits v 18 16
  fwdMask : p.fwdMask.getLsbD k = false

theorem lanLoop_of_ptp {s t : State} (h : ∀ k, t.ptp k = s.ptp k) (k : Nat) (v : BitVec 32) : lanLoop k v t = lanLoop k v s := by
  rw [lanLoop, lanLoop, h, h]

theorem writePtpPort_same {k : Nat} {v : BitVec 32} {s : State} (h : lanLoop k v s = false) : PortTaken k v ((writePtpPort k v s).ptp k) := by
  rw [writePtpPort, if_neg (by simp [h]), ptp_setPtp_same]
  exact ⟨rfl, rfl, rfl, setBit_getLsbD ..⟩

theorem writePtpPort_other {k j : Nat} (v : BitVec 32) (s : State) (h : j ≠ k) : (writePtpPort k v s).ptp j = s.ptp j := by
  unfold writePtpPort
  split
  · rfl
  · exact ptp_setPtp_other s _ h

theorem writePtpPort_time (k : Nat) (v : BitVec 32) (s : State) : ∃ ps, (writePtpPort k v s).time = { s.time with ports := ps } := by
  unfold writePtpPort
  split
  · exact ⟨_, rfl⟩
  · exact ⟨_, rfl⟩

theorem writePtpPort_congr {s t : State} (h : ∀ k, t.ptp k = s.ptp k) (k : Nat) (v : BitVec 32) (j : Nat) :
    (writePtpPort k v t).ptp j = (writePtpPort k v s).ptp j := by
  unfold writePtpPort
  rw [lanLoop_of_ptp h]
  split
  · exact h j
  · by_cases hj : j = k
    · subst hj
      rw [ptp_setPtp_same, ptp_setPtp_same, h]
    · rw [ptp_setPtp_other _ _ hj, ptp_setPtp_other _ _ hj, h]

/-- The ports written one after another. -/
def writePorts (l : List (BitVec 32 × Nat)) (s : State) : State := l.foldl (fun s p => writePtpPort p.2 p.1 s) s

/-- One port more looked at for a loop (R458). -/
def loopStep (x : Bool × State) (p : BitVec 32 × Nat) : Bool × State := (x.1 || lanLoop p.2 p.1 x.2, writePtpPort p.2 p.1 x.2)

theorem foldl_loopStep_true (l : List (BitVec 32 × Nat)) : ∀ s : State, (l.foldl loopStep (true, s)).1 = true := by
  induction l with
  | nil => exact fun _ => rfl
  | cons p l ih => exact fun s => ih _

theorem foldl_loopStep_congr (l : List (BitVec 32 × Nat)) : ∀ (b : Bool) (s t : State), (∀ k, t.ptp k = s.ptp k) →
    (l.foldl loopStep (b, t)).1 = (l.foldl loopStep (b, s)).1 := by
  induction l with
  | nil => exact fun b s t _ => rfl
  | cons p l ih =>
    intro b s t h
    rw [List.foldl_cons, List.foldl_cons, loopStep, loopStep, lanLoop_of_ptp h]
    exact ih _ _ _ (writePtpPort_congr h p.2 p.1)

theorem portsLoop_withPairs (c : TimeCfg) (s : State) (ps : Tbl Pair) : portsLoop c (s.withPairs ps) = portsLoop c s :=
  foldl_loopStep_congr c.ports.zipIdx false s (s.withPairs ps) fun _ => rfl

/-- With no loop on the way every port named takes its value, and no other port changes. -/
theorem writePorts_spec (l : List (BitVec 32)) : ∀ (n : Nat) (s t : State), (∀ k, t.ptp k = s.ptp k) →
    ((l.zipIdx n).foldl loopStep (false, s)).1 = false →
    (∀ i v, l[i]? = some v → PortTaken (n + i) v ((writePorts (l.zipIdx n) t).ptp (n + i)))
    ∧ ∀ j, j < n → (writePorts (l.zipIdx n) t).ptp j = t.ptp j := by
  induction l with
  | nil => exact fun n s t _ _ => ⟨fun i v h => by simp at h, fun j _ => rfl⟩
  | cons w l ih =>
    intro n s t hptp hloop
    rw [List.zipIdx_cons, List.foldl_cons] at hloop
    have hfree : lanLoop n w s = false := by
      cases h : lanLoop n w s with
      | false => rfl
      | true =>
        have hstep : loopStep (false, s) (w, n) = (true, writePtpPort n w s) := by rw [loopStep, h]; rfl
        rw [hstep, foldl_loopStep_true] at hloop
        cases hloop
    have hstep : loopStep (false, s) (w, n) = (false, writePtpPort n w s) := by rw [loopStep, hfree]; rfl
    rw [hstep] at hloop
    obtain ⟨hnamed, hother⟩ := ih (n + 1) (writePtpPort n w s) (writePtpPort n w t) (writePtpPort_congr hptp n w) hloop
    have hrest : writePorts ((w :: l).zipIdx n) t = writePorts (l.zipIdx (n + 1)) (writePtpPort n w t) := rfl
    rw [hrest]
    refine ⟨fun i v hv => ?_, fun j hj => ?_⟩
    · cases i with
      | zero =>
        have hw : w = v := by simpa using hv
        subst hw
        rw [Nat.add_zero, hother n (by omega)]
        exact writePtpPort_same ((lanLoop_of_ptp hptp n w).trans hfree)
      | succ i =>
        have hnext := hnamed i v (by simpa using hv)
        rwa [Nat.add_assoc, Nat.add_comm 1 i] at hnext
    · rw [hother j (by omega)]
      exact writePtpPort_other w t (by omega)

theorem writePorts_time (l : List (BitVec 32 × Nat)) : ∀ s : State, ∃ ps, (writePorts l s).time = { s.time with ports := ps } := by
  induction l with
  | nil => exact fun s => ⟨_, rfl⟩
  | cons p l ih =>
    intro s
    obtain ⟨ps, hps⟩ := writePtpPort_time p.2 p.1 s
    obtain ⟨qs, hqs⟩ := ih (writePtpPort p.2 p.1 s)
    exact ⟨qs, by rw [writePorts, List.foldl_cons, ← writePorts, hqs, hps]⟩

/-- What the choice of masters never touches: the settings of TB_DOMAIN, TB_LIMITS and AUTO_SWITCH, TB, and its epoch. -/
def Time.settings (t : Time) : (Nat × Nat × Nat × Nat × Nat × Bool) × Nat × Nat :=
  ((t.domA.num, t.domB.num, t.switchMaxUs, t.holdoverS, t.stepThrUs, t.autoSwitch), t.tbNs, t.stepEpoch)

theorem reselect_settings (b : Bool) (s : State) : (reselect b s).time.settings = s.time.settings := by
  have hset : ∀ f : Domain → Domain, (∀ d, (f d).num = d.num) → (s.setDom b f).time.settings = s.time.settings := fun f hf => by
    cases b <;> simp [State.setDom, State.modTime, Time.settings, hf]
  unfold reselect
  dsimp only
  split
  · exact hset _ fun _ => rfl
  · exact hset _ fun _ => rfl

theorem autoSwitch_settings (s : State) : (autoSwitch s).time.settings = s.time.settings ∧ ∀ k, (autoSwitch s).ptp k = s.ptp k := by
  obtain ⟨r, a, rem, slewing, live, htime⟩ := autoSwitch_time s
  have hptp : ∀ k, (autoSwitch s).ptp k = s.ptp k := fun k => by
    rw [State.ptp, State.ptp, htime]
  exact ⟨by rw [htime]; rfl, hptp⟩

/-- The time base with the settings of TIME_CONFIG but for its ports. -/
def State.timeSet (s : State) (c : TimeCfg) : State :=
  (writeTbLimits c.limits (writeTbDomain c.domain s)).modTime fun t => { t with autoSwitch := c.autoSwitch }

theorem timeSet_settings {c : TimeCfg} (hdom : tbDomainBad c.domain = false) (hlim : tbLimitsBad c.limits = false) (s : State) :
    (s.timeSet c).time.settings = ((bits c.domain 7 0, bits c.domain 15 8, bits c.domain 31 16, bits c.limits 31 20, bits c.limits 19 0,
      c.autoSwitch), s.time.tbNs, s.time.stepEpoch) ∧ ∀ k, (s.timeSet c).ptp k = s.ptp k := by
  rw [tbDomainBad, Bool.or_eq_false_iff, beq_eq_false_iff_ne, beq_eq_false_iff_ne] at hdom
  rw [tbLimitsBad, Bool.or_eq_false_iff, Bool.not_eq_false', Bool.not_eq_false'] at hlim
  obtain ⟨hmax, hne⟩ := hdom
  obtain ⟨hhold, hstep⟩ := hlim
  have hdomain : writeTbDomain c.domain s = s.modTime fun t => { t with
      switchMaxUs := bits c.domain 31 16, domB := { t.domB with num := bits c.domain 15 8 }, domA := { t.domA with num := bits c.domain 7 0 } } := by
    simp only [writeTbDomain, Ne.symm hne, if_false, keep_of_within (bne_iff_ne.mpr hmax)]
  have hlimits : ∀ u, writeTbLimits c.limits u = u.modTime fun t => { t with
      holdoverS := bits c.limits 31 20, stepThrUs := bits c.limits 19 0 } := fun u => by
    rw [writeTbLimits, hhold, hstep]
    rfl
  rw [State.timeSet, hlimits, hdomain]
  exact ⟨rfl, fun _ => rfl⟩

/-- The words of the time registers, as TIME_CONFIG and TIME_READ answer them. -/
def State.timeRegs (s : State) : List Nat :=
  [tbDomain s, tbLimits s, b2n s.time.autoSwitch] ++ (List.range 6).map fun k => ptpPort k s

theorem writeTimeCfg_eq (c : TimeCfg) (s : State) :
    writeTimeCfg c s = autoSwitch (reselect true (reselect false (writePorts c.ports.zipIdx (s.timeSet c)))) := rfl

theorem writeTimeCfg_spec {c : TimeCfg} {s : State} (hdom : tbDomainBad c.domain = false) (hlim : tbLimitsBad c.limits = false)
    (hloop : portsLoop c s = false) :
    (writeTimeCfg c s).time.settings = ((bits c.domain 7 0, bits c.domain 15 8, bits c.domain 31 16, bits c.limits 31 20,
      bits c.limits 19 0, c.autoSwitch), s.time.tbNs, s.time.stepEpoch)
    ∧ ∀ k v, c.ports[k]? = some v → PortTaken k v ((writeTimeCfg c s).ptp k) := by
  obtain ⟨hset, hptp⟩ := timeSet_settings hdom hlim s
  obtain ⟨hports, -⟩ := writePorts_spec c.ports 0 s (s.timeSet c) hptp hloop
  obtain ⟨ps, htime⟩ := writePorts_time c.ports.zipIdx (s.timeSet c)
  rw [writeTimeCfg_eq]
  generalize writePorts c.ports.zipIdx (s.timeSet c) = t at hports htime
  obtain ⟨-, -, hboth⟩ := reselect_both t
  obtain ⟨hauto, hauto'⟩ := autoSwitch_settings (reselect true (reselect false t))
  refine ⟨?_, fun k v hv => ?_⟩
  · rw [hauto, reselect_settings, reselect_settings, htime]
    exact hset
  · rw [hauto', hboth]
    have hport := hports k v hv
    rwa [Nat.zero_add] at hport

section
variable (r : Req) {c : TimeCfg} {s : State} (hdom : tbDomainBad c.domain = false) (hlim : tbLimitsBad c.limits = false)
include hdom hlim

theorem opTimeConfig_ok (hlen : c.ports.length = 6) (hloop : portsLoop c s = false) :
    opTimeConfig r c s
      = okRes (configChanged (writeTimeCfg c s)).timeRegs (configChanged (writeTimeCfg c s)) := by
  have hno : ¬ (c.ports.length ≠ 6 ∨ portsLoop c s = true) := by simp [hlen, hloop]
  rw [opTimeConfig, if_neg (by simp [hdom]), if_neg (by simp [hlim]), if_neg hno]
  rfl

theorem opTimeConfig_loop (hloop : portsLoop c s = true) : opTimeConfig r c s = refuse (.badParam 3) s := by
  rw [opTimeConfig, if_neg (by simp [hdom]), if_neg (by simp [hlim]), if_pos (.inr hloop)]

end

/-! ### The reference and the step -/

section
variable (r : Req) {n : Nat} {s : State} (hn : n ≤ 1)
include hn

theorem opRefSwitch_unlocked (h : (s.time.dom (n == 1)).state ≠ 2) : opRefSwitch r n s = refuse (.state 80) s := by
  rw [opRefSwitch, if_neg (by omega), if_pos h]

theorem opRefSwitch_far (h : (s.time.dom (n == 1)).state = 2) (hfar : switchOk (n == 1) s = false) : opRefSwitch r n s = refuse (.state 81) s := by
  rw [opRefSwitch, if_neg (by omega), if_neg (not_not_intro h), if_pos (by simp [hfar])]

theorem opRefSwitch_ok (h : (s.time.dom (n == 1)).state = 2) (hok : switchOk (n == 1) s = true) :
    opRefSwitch r n s = okRes [] (configChanged (writeRef (n == 1) s)) := by
  rw [opRefSwitch, if_neg (by omega), if_neg (not_not_intro h), if_neg (by simp [hok])]

end

/-- The state with the step that a request asks for. -/
def State.stepAsked (s : State) (ns : Int) : State := s.modTime fun t => { t with step := ns }

theorem opStep_ok (r : Req) (ns : Int) {s : State} (h : s.time.tbStopped = false) :
    opStep r ns s = okRes [(doStep ns (s.stepAsked ns)).time.stepEpoch] (doStep ns (s.stepAsked ns)) := by
  rw [opStep, if_neg (by simp [h])]
  rfl

theorem opStep_stopped (r : Req) (ns : Int) {s : State} (h : s.time.tbStopped = true) : opStep r ns s = refuse .timeout s := if_pos h

/-- A request whose unit does not answer gets TIMEOUT, and its answer is not kept for a repetition (R449). -/
theorem Req.clear.serve_timeout {r : Req} {sub : Subset} {need : Bool} {s : State} (hclear : Req.clear r sub need s) {opcode : Nat}
    {f : Req → State → State × Ans} (hf : f r (take r s) = refuse .timeout (take r s)) :
    serve r opcode sub need f s
      = respond r { opcode := opcode, tag := r.tag, inst := r.inst, gen := r.gen, ind := r.buf.isSome, status := .timeout } false (take r s) := by
  have hup : (take r s).persist.fwUp = true := by rw [take_persist]; exact hclear.fwUp
  obtain ⟨k, hsrc, htake, hunwritten, hcrc, hslow, hnew, hpass⟩ := hclear
  have heff : r.effective = r := Req.effective_of_host hsrc
  have hpass := hpass opcode
  have hother := other_of_precheck hpass
  have hv := judge_of_inTime opcode sub need f hcrc hnew (by rwa [heff]) hslow
  rw [heff, hf] at hv
  rw [serve_unwritten opcode sub need f htake hunwritten, serveAs_of_host hsrc hv hup]
  simp only [Req.reply, heff, hother, Option.getD_none]
  rfl

/-! ### Comparators -/

section
variable (r : Req) {s : State} (hinst : r.fromInst = none)
include hinst

section
variable {o : Option Nat} (howner : ∀ i, o = some i → i < 512 ∧ ((s.inst i).exists_ = true ∨ (s.inst i).state = .resetting))
include howner

theorem opTrgAlloc_eq : opTrgAlloc r o s = match (List.range 24).find? fun k => !(s.time.cmp (k + 8)).alloc with
    | none => refuse (.noResource 11 0) s
    | some k => okRes [k + 8] (configChanged (s.setCmp (k + 8) fun _ => allocated o)) := by
  have hrange : ¬ (o.any fun i => decide (512 ≤ i)) = true := by
    cases o with
    | none => simp
    | some i => simpa using (howner i rfl).1
  have hlive : ¬ (o.any fun i => !((s.inst i).exists_ || (s.inst i).state == .resetting)) = true := by
    cases o with
    | none => simp
    | some i =>
      obtain h | h := (howner i rfl).2
      · simp [h]
      · simp [h]
  rw [opTrgAlloc, if_neg (by simp [hinst]), if_neg hrange, if_neg hlive] <;> rfl

theorem opTrgAlloc_ok {k : Nat} (h8 : 8 ≤ k) (h32 : k < 32) (hfree : (s.time.cmp k).alloc = false)
    (hlow : ∀ j, 8 ≤ j → j < k → (s.time.cmp j).alloc = true) :
    opTrgAlloc r o s = okRes [k] (configChanged (s.setCmp k fun _ => allocated o)) := by
  have hfind : (List.range 24).find? (fun k => !(s.time.cmp (k + 8)).alloc) = some (k - 8) := by
    rw [List.find?_range_eq_some]
    refine ⟨?_, by simp; omega, fun j hj => ?_⟩
    · rw [Nat.sub_add_cancel h8, hfree]; rfl
    · rw [hlow (j + 8) (by omega) (by omega)]; rfl
  rw [opTrgAlloc_eq r hinst howner, hfind]
  dsimp only
  rw [Nat.sub_add_cancel h8]

theorem opTrgAlloc_full (hall : ∀ j, 8 ≤ j → j < 32 → (s.time.cmp j).alloc = true) : opTrgAlloc r o s = refuse (.noResource 11 0) s := by
  have hfind : (List.range 24).find? (fun k => !(s.time.cmp (k + 8)).alloc) = none := by
    rw [List.find?_eq_none]
    intro j hj
    rw [hall (j + 8) (by omega) (by have := List.mem_range.mp hj; omega)]
    decide
  rw [opTrgAlloc_eq r hinst howner, hfind]

end

theorem cmpOwn_of_mgp (k : Nat) : cmpOwn r k s = true := by rw [cmpOwn, hinst]

theorem opTrgProgram_ok {k t p : Nat} {per en : Bool} (d : BitVec 4) (hnamed : cmpNamed k s = true) (hper : periodBad p per = false)
    (hnot : en = false ∨ s.time.tbNs < t % 2 ^ 64) :
    opTrgProgram r k t p per d en s = okRes [] (configChanged (s.setCmp k fun c => c.program t p per d en)) := by
  have hset : (s.setCmp k fun c => c.program t p per d en).time.cmp k = (s.time.cmp k).program t p per d en := cmp_setCmp_same ..
  have harm : armCmp k (s.setCmp k fun c => c.program t p per d en) = s.setCmp k fun c => c.program t p per d en := by
    rw [armCmp, hset]
    refine if_neg fun ⟨hen, hdue⟩ => ?_
    obtain h | h := hnot
    · exact Bool.false_ne_true (h.symm.trans hen)
    · exact absurd hdue (Nat.not_le_of_gt h)
  rw [opTrgProgram, if_neg (by simp [cmpOwn_of_mgp r hinst]), if_neg (by simp [hnamed]), if_neg (by simp [hper]), if_neg (by simp [hinst]), harm]

theorem opTrgFree_ok {k : Nat} (hnamed : cmpNamed k s = true) : opTrgFree r k s = okRes [] (configChanged (s.setCmp k fun _ => {})) := by
  rw [opTrgFree, if_neg (by simp [cmpOwn_of_mgp r hinst]), if_neg (by simp [hnamed])]

end

/-! ### Stamp ring and pulse -/

theorem onInst_open {i : Nat} {s : State} (h : s.instBusy i = false) (f : State × Ans) : onInst i s f = f := if_neg (by simp [h])

/-- The state with the stamp ring of an instance. -/
def State.stampRingSet (s : State) (i a n : Nat) : State :=
  s.modTime fun t => { t with stampRings := t.stampRings.set i { addr := a, slots := n, ctl := a + 32 * n } }

theorem opStampRing_ok {r : Req} {i a n : Nat} {s : State} (hi : r.i = i) (hidle : s.instBusy i = false) (hn : pow2In 16 n 1024 = true)
    (hfree : ringFree i a (32 * n + 16) (s.modTime fun t => { t with stampRings := t.stampRings.del i }) = true) :
    opStampRing r a n s = okRes [] (s.stampRingSet i a n) := by
  rw [opStampRing, hi, onInst_open hidle, if_neg (by simp [hn]), if_neg (by simp [hfree])]
  rfl

theorem opPpsConfig_ok (r : Req) (en gate : Bool) {w : Nat} (s : State) (h1 : 1 ≤ w) (h2 : w ≤ 500000) :
    opPpsConfig r en gate w s = okRes [] (configChanged (s.modTime fun t => { t with ppsEn := en, ppsGate := gate, ppsWidth := w })) := by
  have hw : within 1 w 500000 = true := by simp [within, h1, h2]
  rw [opPpsConfig, if_neg (by simp [hw]), writePpsWidth, hw]
  rfl

/-- The trigger that a request of TRIGGER makes (R318). -/
def Req.trigger (r : Req) (c : Nat) (s : State) : AcqTrig := { s.trigNow 2 with inst := r.i, gen := r.gen, code := c }

/-- The state once a trigger has reached the streams of a mask. -/
def State.triggered (s : State) (m : BitVec 4) (t : AcqTrig) : State :=
  ((List.range 4).filter fun n => m.getLsbD n).foldl (fun s n => acqTriggerOn t n s) s

theorem opTrigger_ok (r : Req) (m : BitVec 4) {c : Nat} (s : State) (hc : c < 256) :
    opTrigger r m c s = okRes [] (s.triggered m (r.trigger c s)) := if_neg (by omega)

theorem triggered_only (s : State) (m : BitVec 4) (t : AcqTrig) : Only [.acq] s (s.triggered m t) :=
  foldl_only _ _ (Only.refl _ s) fun u n => acqTriggerOn_only (qs := [.acq]) t n u (Only.refl _ u) (by simp)

theorem triggered_acqS (s : State) (m : BitVec 4) (t : AcqTrig) (n : Nat) :
    ((s.triggered m t).acqS n).trigs = (s.acqS n).trigs ++ if n < 4 ∧ m.getLsbD n = true then (s.acqS n).taken t else [] := by
  rw [State.triggered, foldl_acqTriggerOn t (List.nodup_range.filter _)]
  simp [List.mem_filter]

theorem opAcqConfig_ok (r : Req) {v : BitVec 32} (s : State) (h : acqCtlBad v = false) : opAcqConfig r v s
    = okRes [] (configChanged (s.modAcq fun a => { a with
        deadMs := bits v 13 4, trigInEn := bitOf v 3, trigInEdge := bits v 2 1, en := bitOf v 0 })) := by
  have hok := h
  rw [acqCtlBad, Bool.or_eq_false_iff, decide_eq_false_iff_not, beq_eq_false_iff_ne] at hok
  obtain ⟨hdead, hedge⟩ := hok
  have hdead' : decide (bits v 13 4 ≤ 1000) = true := decide_eq_true (by omega)
  rw [opAcqConfig, if_neg (by simp [h]), writeAcqCtl, hdead', bne_iff_ne.mpr hedge]
  rfl

theorem configChanged_time (s : State) : (configChanged s).time = s.time := rfl

theorem configChanged_ptp (s : State) (k : Nat) : (configChanged s).ptp k = s.ptp k := rfl

theorem configChanged_fwUp (s : State) : (configChanged s).persist.fwUp = s.persist.fwUp := rfl

/-- The time registers as a configuration leaves them, with the time base and its epoch as they were. -/
theorem timeConfigured {c : TimeCfg} {s : State} (hdom : tbDomainBad c.domain = false) (hlim : tbLimitsBad c.limits = false)
    (hloop : portsLoop c s = false) : ∃ u, configChanged (writeTimeCfg c s) = u ∧ Only [.time, .bki, .evr, .persist] s u
      ∧ u.persist.fwUp = s.persist.fwUp
      ∧ u.time.settings = ((bits c.domain 7 0, bits c.domain 15 8, bits c.domain 31 16, bits c.limits 31 20, bits c.limits 19 0,
          c.autoSwitch), s.time.tbNs, s.time.stepEpoch)
      ∧ ∀ k v, c.ports[k]? = some v → PortTaken k v (u.ptp k) := by
  obtain ⟨hset, hports⟩ := writeTimeCfg_spec hdom hlim hloop
  have hpersist : (writeTimeCfg c s).persist = s.persist :=
    (writeTimeCfg_only (qs := [.time, .bki, .evr]) _ _ (Only.refl _ _) (by simp)).same .persist (by decide)
  have honly : Only [.time, .bki, .evr, .persist] s (configChanged (writeTimeCfg c s)) :=
    configChanged_only _ (writeTimeCfg_only _ _ (Only.refl _ _) (by simp)) (by simp)
  refine ⟨_, rfl, honly, ?_, ?_, ?_⟩
  · rw [configChanged_fwUp, hpersist]
  · rw [configChanged_time]
    exact hset
  · simp only [configChanged_ptp]
    exact hports

theorem timeConfig_served {r : Req} {c : TimeCfg} {s : State} (hclear : Req.clear r .no false s) (hdom : tbDomainBad c.domain = false)
    (hlim : tbLimitsBad c.limits = false) (hlen : c.ports.length = 6) (hloop : portsLoop c s = false) :
    ∃ vals, Served (.timeConfig r c) r 0x0501 s .ok vals fun u =>
      Only [.time, .bki, .evr, .persist] (take r s) u
      ∧ vals = [tbDomain u, tbLimits u, b2n u.time.autoSwitch] ++ (List.range 6).map (fun k => ptpPort k u)
      ∧ u.time.domA.num = bits c.domain 7 0 ∧ u.time.domB.num = bits c.domain 15 8 ∧ u.time.switchMaxUs = bits c.domain 31 16
      ∧ u.time.holdoverS = bits c.limits 31 20 ∧ u.time.stepThrUs = bits c.limits 19 0 ∧ u.time.autoSwitch = c.autoSwitch
      ∧ u.time.tbNs = s.time.tbNs ∧ u.time.stepEpoch = s.time.stepEpoch
      ∧ ∀ k v, c.ports[k]? = some v → (u.ptp k).ptpEn = bitOf v 0 ∧ (u.ptp k).pdelayEn = bitOf v 1 ∧ (u.ptp k).tcClass = bits v 18 16
          ∧ (u.ptp k).fwdMask.getLsbD k = false := by
  obtain ⟨k, hsrc, -⟩ := id hclear
  obtain ⟨ps, htake⟩ := take_of_host hsrc s
  have hloop' : portsLoop c (take r s) = false := by rw [htake, portsLoop_withPairs, hloop]
  obtain ⟨u, hu, honly, hup, hset, hports⟩ := timeConfigured hdom hlim hloop'
  have hop := opTimeConfig_ok r hdom hlim hlen hloop'
  rw [hu] at hop
  have hkept : (take r s).persist.fwUp = true ∧ (take r s).time = s.time := by rw [htake]; exact ⟨hclear.fwUp, rfl⟩
  obtain ⟨hfw, htime⟩ := hkept
  rw [htime] at hset
  simp only [Time.settings, Prod.mk.injEq] at hset
  obtain ⟨⟨ha, hb, hmax, hhold, hstep, hauto⟩, hns, hepoch⟩ := hset
  refine ⟨u.timeRegs, hclear.served rfl ⟨nofun, nofun⟩ fun ps' htake' => ?_⟩
  rw [← htake']
  refine ⟨u, hop, hup.trans hfw, honly, rfl, ha, hb, hmax, hhold, hstep, hauto, hns, hepoch, fun k v hv => ?_⟩
  obtain ⟨hptpEn, hpdelay, hclass, hmask⟩ := hports k v hv
  exact ⟨hptpEn, hpdelay, hclass, hmask⟩

/-! ### The obligation -/

/-- Settles O57: what each operation writes, on the state in which its request is taken. -/
theorem timeAndAcquisitionRequests : Obligations.TimeAndAcquisitionRequests := by
  unfold Obligations.TimeAndAcquisitionRequests
  refine ⟨?_, ?_, ?_, ?_, ?_, ?_, ?_, ?_, ?_, ?_, ?_, ?_, ?_, ?_, ?_, ?_, ?_, ?_, ?_, ?_, ?_, ?_, ?_, ?_, ?_⟩
  case refine_1 =>
    intro r s hclear
    exact hclear.answered rfl ⟨nofun, nofun⟩ fun ps => rfl
  case refine_2 => exact fun _ _ _ hclear hdom hlim hlen hloop => timeConfig_served hclear hdom hlim hlen hloop
  case refine_3 =>
    intro r c s hclear hdom hlim hloop
    exact hclear.answered rfl ⟨nofun, nofun⟩ fun ps => opTimeConfig_loop r hdom hlim ((portsLoop_withPairs c s ps).trans hloop)
  case refine_4 =>
    intro r n b s hclear hn hb hlocked hok hne
    subst hb
    refine hclear.served rfl ⟨nofun, nofun⟩ fun ps htake => ?_
    have hswitch : writeRef (n == 1) (s.withPairs ps) = startSwitch (n == 1) (s.withPairs ps) := if_pos hne
    have honly : Only [.time, .bki, .evr] (s.withPairs ps) (writeRef (n == 1) (s.withPairs ps)) := writeRef_only _ _ (Only.refl _ _) (by simp)
    rw [htake]
    refine ⟨_, opRefSwitch_ok r (s := s.withPairs ps) hn hlocked hok, ?_, configChanged_only _ (honly.mono (by simp)) (by simp), ?_⟩
    · exact (fwUp_of_only honly (by decide) hclear.fwUp :)
    · have htime : (configChanged (writeRef (n == 1) (s.withPairs ps))).time = (writeRef (n == 1) (s.withPairs ps)).time := rfl
      rw [htime, hswitch]
      exact startSwitch_time (n == 1) (s.withPairs ps)
  case refine_5 =>
    intro r n s hclear hn h
    exact hclear.answered rfl ⟨nofun, nofun⟩ fun ps => opRefSwitch_unlocked r (s := s.withPairs ps) hn h
  case refine_6 =>
    intro r n s hclear hn h hfar
    exact hclear.answered rfl ⟨nofun, nofun⟩ fun ps => opRefSwitch_far r (s := s.withPairs ps) hn h hfar
  case refine_7 =>
    intro r ns s hclear hrun hoff
    refine hclear.served rfl ⟨nofun, nofun⟩ fun ps htake => ?_
    have hoff' : ∀ j, j < 32 → (((s.withPairs ps).stepAsked ns).time.cmp j).en = false := hoff
    obtain ⟨out, from_, htime⟩ := doStep_time ns hoff'
    obtain ⟨honly, hmlk⟩ := doStep_only_of_off ns hoff'
    have hasked : Only [.time] (s.withPairs ps) ((s.withPairs ps).stepAsked ns) := State.modTime_only _ (Only.refl _ _) (by simp)
    have hall : Only [.time, .mlk, .bki, .evr] (s.withPairs ps) (doStep ns ((s.withPairs ps).stepAsked ns)) :=
      (hasked.mono (by simp)).trans honly
    have hop := opStep_ok r ns (s := s.withPairs ps) hrun
    rw [htime] at hop
    rw [htake]
    refine ⟨_, hop, fwUp_of_only hall (by decide) hclear.fwUp, hall, ?_, ?_⟩
    · rw [hmlk, htime]
      rfl
    · rw [htime]
      exact ⟨rfl, rfl, rfl, rfl, rfl, rfl⟩
  case refine_8 =>
    intro r ns s hclear hstopped
    have htook : (take r s).time.tbStopped = true := by
      obtain ⟨k, hsrc, -⟩ := id hclear
      obtain ⟨ps, htake⟩ := take_of_host hsrc s
      rw [htake]
      exact hstopped
    exact ⟨_, congrArg Host.Outcome.next (hclear.serve_timeout (f := fun r s => opStep r ns s) (opStep_stopped r ns htook)), rfl⟩
  case refine_9 =>
    intro r o k s hclear howner h8 h32 hfree hlow
    refine hclear.served rfl ⟨nofun, nofun⟩ fun ps htake => ?_
    rw [htake]
    refine ⟨_, opTrgAlloc_ok r (s := s.withPairs ps) hclear.fromInst howner h8 h32 hfree hlow, hclear.fwUp,
      configChanged_only _ (State.setCmp_only _ _ _ (Only.refl _ _) (by simp)) (by simp), ?_, fun j hj => ?_⟩
    · exact cmp_setCmp_same (s.withPairs ps) k fun _ => allocated o
    · exact cmp_setCmp_other (s.withPairs ps) (fun _ => allocated o) hj
  case refine_10 =>
    intro r o s hclear howner hall
    exact hclear.answered rfl ⟨nofun, nofun⟩ fun ps => opTrgAlloc_full r (s := s.withPairs ps) hclear.fromInst howner hall
  case refine_11 =>
    intro r k t p per en d s hclear hnamed hper hnot
    refine hclear.served rfl ⟨nofun, nofun⟩ fun ps htake => ?_
    rw [htake]
    refine ⟨_, opTrgProgram_ok r (s := s.withPairs ps) hclear.fromInst d hnamed hper hnot, hclear.fwUp,
      configChanged_only _ (State.setCmp_only _ _ _ (Only.refl _ _) (by simp)) (by simp), fun j hj => ?_, ?_⟩
    · exact cmp_setCmp_other (s.withPairs ps) (fun c => c.program t p per d en) hj
    · exact cmp_setCmp_same (s.withPairs ps) k fun c => c.program t p per d en
  case refine_12 =>
    intro r k s hclear hnamed
    refine hclear.served rfl ⟨nofun, nofun⟩ fun ps htake => ?_
    have hset := cmp_setCmp_same (s.withPairs ps) k fun _ => {}
    rw [htake]
    refine ⟨_, opTrgFree_ok r (s := s.withPairs ps) hclear.fromInst hnamed, hclear.fwUp,
      configChanged_only _ (State.setCmp_only _ _ _ (Only.refl _ _) (by simp)) (by simp), (congrArg Comparator.alloc hset :),
      (congrArg Comparator.en hset :), fun j hj => ?_⟩
    exact cmp_setCmp_other (s.withPairs ps) (fun _ => {}) hj
  case refine_13 =>
    intro r i a n s hclear hi hidle hn hfree
    have hri : r.i = i := by rw [Req.i, hi]; rfl
    refine hclear.served rfl ⟨nofun, nofun⟩ fun ps htake => ?_
    rw [htake]
    refine ⟨_, opStampRing_ok (s := s.withPairs ps) hri hidle hn hfree, hclear.fwUp, ?_, ?_, fun j hj => ?_⟩
    · exact State.modTime_only _ (Only.refl _ _) (by simp)
    · exact Tbl.get_set_same ..
    · exact Tbl.get_set_other _ _ _ hj
  case refine_14 =>
    intro r en gate w s hclear h1 h2
    refine hclear.served rfl ⟨nofun, nofun⟩ fun ps htake => ?_
    rw [htake]
    exact ⟨_, opPpsConfig_ok r en gate (s.withPairs ps) h1 h2, hclear.fwUp,
      configChanged_only _ (State.modTime_only _ (Only.refl _ _) (by simp)) (by simp), rfl⟩
  case refine_15 =>
    intro r n d s hclear hn hd hen hadmit
    refine hclear.served rfl ⟨nofun, nofun⟩ fun ps htake => ?_
    have hset := State.acqS_setAcqS_same (s.withPairs ps) n fun x => x.put d
    rw [htake]
    refine ⟨_, opStreamSet_ok r (s := s.withPairs ps) hn hd (.inl hen) hadmit, hclear.fwUp,
      configChanged_only _ (State.setAcqS_only _ _ _ (Only.refl _ _) (by simp)) (by simp), hset, fun j hj => ?_, ?_,
          (congrArg AcqStream.frames hset :)⟩
    · exact State.acqS_setAcqS_other (s.withPairs ps) (fun x => x.put d) hj
    · exact (congrArg AcqStream.en hset :).trans hen
  case refine_16 =>
    intro r n d s hclear hn hd hen hne
    exact hclear.answered rfl ⟨nofun, nofun⟩ fun ps => opStreamSet_busy r (s := s.withPairs ps) hn hd hen hne
  case refine_17 =>
    intro r n d st s hclear hn hd hfree hadmit
    have hst : st ≠ .restarted ∧ st ≠ .timeout := by
      unfold streamRefused at hadmit
      split at hadmit
      · cases hadmit
        exact ⟨nofun, nofun⟩
      · obtain ⟨c, -, hc⟩ := Option.map_eq_some_iff.mp hadmit
        subst hc
        exact ⟨nofun, nofun⟩
    exact hclear.answered rfl hst fun ps => opStreamSet_refused r (s := s.withPairs ps) hn hd hfree hadmit
  case refine_18 =>
    intro r n s hclear hn hen hbad hsrc hnone hfree hadmit
    refine hclear.served rfl ⟨nofun, nofun⟩ fun ps htake => ?_
    obtain ⟨gs, hgran⟩ := acqGranules_acqS n (s.withPairs ps)
    obtain ⟨hon, hused, hspring, hother⟩ := acqEnable_acqS n (acqGranules n (s.withPairs ps))
    have hseason : (acqGranules n (s.withPairs ps)).season = s.season :=
      (acqGranules_only (qs := [.insts, .acq]) n _ (Only.refl _ _) (by simp)).same .season (by decide)
    rw [hgran] at hused hspring
    rw [hseason] at hspring hother
    have honly : Only [.insts, .acq] (s.withPairs ps) (acqEnable n (acqGranules n (s.withPairs ps))) :=
      acqEnable_only _ _ (acqGranules_only _ _ (Only.refl _ _) (by simp)) (by simp)
    have hbits : Only [.sw, .sce, .insts, .bki, .evr, .mbx, .mon] (acqEnable n (acqGranules n (s.withPairs ps)))
        (acqBits (s.acqS n) (acqEnable n (acqGranules n (s.withPairs ps)))) := acqBits_only _ _ (Only.refl _ _) (by simp)
    have hall : Only [.sw, .sce, .insts, .acq, .bki, .evr, .mbx, .mon] (s.withPairs ps)
        (acqBits (s.acqS n) (acqEnable n (acqGranules n (s.withPairs ps)))) := (honly.mono (by simp)).trans (hbits.mono (by simp))
    have hstream : ∀ j, (acqBits (s.acqS n) (acqEnable n (acqGranules n (s.withPairs ps)))).acqS j
        = (acqEnable n (acqGranules n (s.withPairs ps))).acqS j := acqS_of_only hbits (by decide)
    have hcore : (acqBits (s.acqS n) (acqEnable n (acqGranules n (s.withPairs ps)))).core = s.core := by
      rw [acqBits_core, acqEnable_core, acqGranules_core]
      rfl
    have hgroups : ∀ y ∈ (s.acqS n).used, y.raw = false →
        ((acqBits (s.acqS n) (acqEnable n (acqGranules n (s.withPairs ps)))).group y.ref).acqEn = true := fun y hy hraw => by
      have hnamed := namedBy_of_used hon (y := y) (by rw [hused]; exact hy) hraw
      rw [acqBits_eq, acqBits_group _ _ _ (.inr ⟨y, hy, hraw, rfl⟩)]
      simpa using hnamed
    have hothers : ∀ j, j ≠ n → (acqEnable n (acqGranules n (s.withPairs ps))).acqS j = s.acqS j := fun j hj => by
      rw [acqEnable_other n _ hj, acqGranules_other n _ hj]
      rfl
    have hop := opStreamEn_on r (s := s.withPairs ps) hn hen hbad hsrc hnone hfree hadmit
    rw [htake]
    refine ⟨_, hop, ?_⟩
    have hsame : (s.withPairs ps).acqS n = s.acqS n := rfl
    rw [hsame]
    generalize acqBits (s.acqS n) (acqEnable n (acqGranules n (s.withPairs ps))) = u at hall hstream hcore hgroups
    have hacq : ∀ j, (configChanged u).acqS j = u.acqS j := fun _ => rfl
    simp only [hacq, hstream]
    refine ⟨(fwUp_of_only hall (by decide) hclear.fwUp :), configChanged_only _ (hall.mono (by simp)) (by simp), hon, hspring, hother,
      hothers, ?_, ?_, hgroups⟩
    · exact (congrArg Core.ls hcore :)
    · exact (congrArg Core.dram hcore :)
  case refine_19 =>
    intro r n s hclear hn hen
    refine hclear.served rfl ⟨nofun, nofun⟩ fun ps htake => ?_
    obtain ⟨hoff, hrun, htrigs, hitems, hframes⟩ := acqDisable_acqS n (s.withPairs ps)
    have honly : Only [.insts, .acq] (s.withPairs ps) (acqDisable n (s.withPairs ps)) := acqDisable_only _ _ (Only.refl _ _) (by simp)
    have hbits : Only [.sw, .sce, .insts, .bki, .evr, .mbx, .mon] (acqDisable n (s.withPairs ps))
        (acqBits (s.acqS n) (acqDisable n (s.withPairs ps))) := acqBits_only _ _ (Only.refl _ _) (by simp)
    have hall : Only [.sw, .sce, .insts, .acq, .bki, .evr, .mbx, .mon] (s.withPairs ps)
        (acqBits (s.acqS n) (acqDisable n (s.withPairs ps))) := (honly.mono (by simp)).trans (hbits.mono (by simp))
    have hstream : ∀ j, (acqBits (s.acqS n) (acqDisable n (s.withPairs ps))).acqS j = (acqDisable n (s.withPairs ps)).acqS j :=
      acqS_of_only hbits (by decide)
    rw [htake]
    refine ⟨_, opStreamEn_off r (s := s.withPairs ps) hn hen, ?_⟩
    have hsame : (s.withPairs ps).acqS n = s.acqS n := rfl
    rw [hsame]
    generalize acqBits (s.acqS n) (acqDisable n (s.withPairs ps)) = u at hall hstream
    have hacq : ∀ j, (configChanged u).acqS j = u.acqS j := fun _ => rfl
    simp only [hacq, hstream]
    exact ⟨(fwUp_of_only hall (by decide) hclear.fwUp :), configChanged_only _ (hall.mono (by simp)) (by simp), hoff, hrun, htrigs, hitems,
      hframes, fun j hj => acqDisable_other n _ hj⟩
  case refine_20 =>
    intro r n e s hclear hn he hsame
    exact hclear.answered rfl ⟨nofun, nofun⟩ fun ps => opStreamEn_idle r (s := s.withPairs ps) hn he hsame
  case refine_21 =>
    intro r n s hclear hn hen hrun
    refine hclear.served rfl ⟨nofun, nofun⟩ fun ps htake => ?_
    obtain ⟨hruns, hreason, hitem⟩ := acqRestart_acqS n (s.withPairs ps)
    have honly : Only [.acq] (s.withPairs ps) (acqRestart n (s.withPairs ps)) := acqRestart_only _ _ (Only.refl _ _) (by simp)
    have hop := opStreamRestart_stopped r (s := s.withPairs ps) hn hen hrun
    rw [hruns] at hop
    rw [htake]
    exact ⟨_, hop, fwUp_of_only honly (by decide) hclear.fwUp, honly, hruns, hreason, fun j hj => acqRestart_other n _ hj, hitem⟩
  case refine_22 =>
    intro r n s hclear hn h
    exact hclear.answered rfl ⟨nofun, nofun⟩ fun ps => opStreamRestart_idle r (s := s.withPairs ps) hn h
  case refine_23 =>
    intro r m c s hclear hc
    refine hclear.served rfl ⟨nofun, nofun⟩ fun ps htake => ?_
    have honly := triggered_only (s.withPairs ps) m (r.trigger c (s.withPairs ps))
    rw [htake]
    refine ⟨_, opTrigger_ok r m (s.withPairs ps) hc, fwUp_of_only honly (by decide) hclear.fwUp, honly, fun n => ?_⟩
    rw [triggered_acqS, AcqStream.taken, ← ite_and]
    exact congrArg _ (if_congr (by simp only [and_assoc]; rfl) rfl rfl)
  case refine_24 =>
    intro r v s hclear hv
    refine hclear.served rfl ⟨nofun, nofun⟩ fun ps htake => ?_
    rw [htake]
    exact ⟨_, opAcqConfig_ok r (s.withPairs ps) hv, hclear.fwUp,
      configChanged_only _ (State.modAcq_only _ (Only.refl _ _) (by simp)) (by simp), rfl⟩
  case refine_25 =>
    intro r n s hclear hn
    refine hclear.served rfl ⟨nofun, nofun⟩ fun ps htake => ?_
    rw [htake]
    refine ⟨_, opStreamRead_ok r (s := s.withPairs ps) hn, hclear.fwUp, State.setAcqS_only _ _ _ (Only.refl _ _) (by simp),
      State.acqS_setAcqS_same (s.withPairs ps) n fun x => { x with stageHwm := 0 }, fun j hj => ?_⟩
    exact State.acqS_setAcqS_other (s.withPairs ps) (fun x => { x with stageHwm := 0 }) hj

end Sys2Proof.Machine
end

section
/-!
PROOFS. The requests of the instance family (R460): O55.
-/
namespace Sys2Proof.Machine
open Sys2Proof

/-! ### What the life-cycle operations leave -/

theorem beginReset_core (i : Nat) (removal clear : Bool) (h : Option Nat) (s : State) : (beginReset i removal clear h s).core = s.core := by
  simp [beginReset]

theorem beginReset_fwUp (i : Nat) (removal clear : Bool) (h : Option Nat) (s : State) :
    (beginReset i removal clear h s).persist.fwUp = s.persist.fwUp :=
  congrArg Persist.fwUp ((beginReset_only (qs := [.sce, .insts, .sched, .eg, .cgu, .mlk, .time, .acq, .bki, .evr, .mbx]) i removal clear h s
    (Only.refl _ s) (by simp)).same .persist (by decide))

theorem lsMem_of_core {s t : State} (h : t.core = s.core) : t.insts.lsMem = s.insts.lsMem := (congrArg Core.ls h :)

theorem dramMem_of_core {s t : State} (h : t.core = s.core) : t.insts.dramMem = s.insts.dramMem := (congrArg Core.dram h :)

section
variable (i cause : Nat) (s : State)

/-- The instance as a halt leaves it (R176). -/
def State.haltedInst : Inst :=
  { s.inst i with state := .halted, cause := cause, haltAt := s.now, exhausted := false, runningAt := none }

theorem stopped_inst (p : Lock → Bool) (j : Nat) : (clearTrips i (breakLocks p (stopCores i s))).inst j = s.inst j := rfl

theorem halt_inst_same (hon : (s.inst i).state = .ready ∨ (s.inst i).state = .running) : (halt i cause s).inst i = s.haltedInst i cause := by
  rw [halt, if_pos hon, emitInst_inst, State.inst_setInst_same, stopped_inst]
  rfl

theorem halt_inst_other {j : Nat} (hj : j ≠ i) : (halt i cause s).inst j = s.inst j := by
  unfold halt
  dsimp only
  split
  · rw [emitInst_inst, State.inst_setInst_other _ _ hj, stopped_inst]
  · rfl

end

/-! ### Reset, removal and halt -/

/-- A settled instance is in no reset and in no replacement of its image (R446). -/
theorem settled_of_open {i : Nat} {s : State} (h : s.instBusy i = false) : (s.inst i).state ≠ .resetting ∧ s.isReplacing i = false := by
  simpa [State.instBusy] using h

section
variable {r : Req} {i : Nat} {s : State} (hi : r.i = i)
include hi

theorem opReset_ok (clear : Bool) (h : s.instBusy i = false) :
    opReset r clear s = (beginReset i false clear (some s.handle) (startLong r 0x0201 i s), { status := .accepted s.handle }) := by
  obtain ⟨hstate, hfree⟩ := settled_of_open h
  rw [opReset, hi, if_neg hstate, if_neg (by simp [hfree])]

theorem opReset_busy (clear : Bool) (h : (s.inst i).state = .resetting) : opReset r clear s = refuse .busy s := by
  rw [opReset, hi]
  exact if_pos h

theorem opRemove_ok (h : s.instBusy i = false) :
    opRemove r s = (beginReset i true false (some s.handle) (startLong r 0x0202 i s), { status := .accepted s.handle }) := by
  obtain ⟨hstate, hfree⟩ := settled_of_open h
  rw [opRemove, hi, if_neg hstate, if_neg (by simp [hfree])]

theorem opRemove_held (h : (s.inst i).state = .resetting) (hno : (s.inst i).removing = false) (hnone : (s.inst i).removeHeld = none) :
    opRemove r s = ((startLong r 0x0202 i s).setInst i fun d => { d with removeHeld := some (some s.handle) }, { status := .accepted s.handle }) := by
  have hfirst : ¬ ((s.inst i).removing = true ∨ (s.inst i).removeHeld.isSome = true) := by simp [hno, hnone]
  rw [opRemove, hi, if_pos h, if_neg hfirst]

theorem opStop_ok (h : s.instBusy i = false) : opStop r s = okRes [((halt i 1 s).inst i).state.code] (halt i 1 s) := by
  rw [opStop, hi, onInst_open h]

theorem opStart_ok (h : s.instBusy i = false) (hhalt : (s.inst i).state = .halted) (hcause : (s.inst i).cause = 1) :
    opStart r s = okRes [1] (emitInst i false (freshHarts i (s.setInst i Inst.started))) := by
  rw [opStart, hi, onInst_open h, if_pos ⟨hhalt, hcause⟩]
  rfl

theorem opStart_refused (h : s.instBusy i = false) (hnot : (s.inst i).state ≠ .halted ∨ (s.inst i).cause ≠ 1) :
    opStart r s = refuse (.state 33) s := by
  rw [opStart, hi, onInst_open h, if_neg (by tauto)]

/-! ### Shares, settings and images -/

theorem opSetShares_ok {m : BitVec 10} {sh : Shares} (h : s.instBusy i = false) (hrange : ((s.inst i).share.masked sh m).inRange = true)
    (hpool : shareShort i ((s.inst i).share.masked sh m) s = none) :
    opSetShares r m sh s = okRes [((configChanged (setShares i ((s.inst i).share.masked sh m) s)).inst i).overBits.toNat]
      (configChanged (setShares i ((s.inst i).share.masked sh m) s)) := by
  rw [opSetShares, hi, onInst_open h, if_neg (by simp [hrange]), hpool]

theorem opSetAllowance_ok {k : Nat} {a : Allow} (h : s.instBusy i = false) (hk : k < 8) (ha : a.bad = false) :
    opSetAllowance r k a s = okRes [] (configChanged (s.setInst i fun d => { d with allow := d.allow.set k a })) := by
  rw [opSetAllowance, hi, onInst_open h, if_neg (by omega), if_neg (by simp [ha])]

theorem opSetAutoReset_ok {n : Nat} (h : s.instBusy i = false) (hn : n ≤ 1) :
    opSetAutoReset r n s = okRes [] (configChanged (s.setInst i fun d => { d with autoReset := n == 1 })) := by
  rw [opSetAutoReset, hi, onInst_open h, if_neg (by omega)]

/-- The replacement of an instance's image at its next frame start (R485). -/
def State.replaceLater (s : State) (i : Nat) (x : Image) : Replace :=
  { inst := i, handle := s.handle, image := x.octets, wasOn := (s.inst i).state == .ready || (s.inst i).state == .running, halted := false }

theorem opReplaceImage_ok {x : Image} (h : s.instBusy i = false) (hfree : s.longBusy liveChangeOps = false) (hex : (s.inst i).exists_ = true)
    (hfits : (s.inst i).inLs 0 x.octets.length = true) (hmeets : meetsRegistered i 0 x.octets.length true s = false) (hcrc : x.crcOk = true)
    (hsig : imageVerified x s = true) (hcomes : frameComes i s = true) :
    opReplaceImage r x s = ((startLong r 0x020A i (imageCount true s)).modPersist fun p => { p with
      replacing := p.replacing ++ [s.replaceLater i x] }, { status := .accepted s.handle }) := by
  have hplace : ¬ ((!(s.inst i).inLs 0 x.octets.length) = true ∨ meetsRegistered i 0 x.octets.length true s = true) := by simp [hfits, hmeets]
  rw [opReplaceImage, hi, onInst_open h, if_neg (by simp [hfree]), if_neg (by simp [hex]), if_neg hplace, if_neg (by simp [hcrc]),
    if_neg (by simp [hsig]), hcomes]
  rfl

end

/-- The growth of an instance's windows with its new shares (R191, R192). -/
theorem setShares_inst_same (i : Nat) (new : Shares) (s : State) :
    ((setShares i new s).inst i).share = new
    ∧ ((setShares i new s).inst i).lsMap = (s.inst i).lsMap ++ lsPick (shareNeed i new s 1) s
    ∧ ((setShares i new s).inst i).dramMap = (s.inst i).dramMap ++ dramPick (shareNeed i new s 2) s := by
  rw [setShares]
  generalize hx : State.setInst (dramOwn _ _ (lsOwn _ _ s)) i _ = t
  obtain ⟨o, ho⟩ := refreshOver_inst_same i t
  rw [ho, ← hx, State.inst_setInst_same]
  exact ⟨rfl, rfl, rfl⟩

theorem setShares_inst_other {i j : Nat} (new : Shares) (s : State) (hj : j ≠ i) : (setShares i new s).inst j = s.inst j := by
  rw [setShares, refreshOver_inst_other _ hj, State.inst_setInst_other _ _ hj]
  rfl

theorem opSetHoldoff_ok (r : Req) {n : Nat} (s : State) (hlow : 100 ≤ n) (hhigh : n ≤ 3600000) :
    opSetHoldoff r n s = okRes [max n ((holdFloor s + 999999) / 1000000)] (configChanged (s.modInsts fun x => { x with
      holdoffMs := max n ((holdFloor s + 999999) / 1000000) })) := if_neg (by omega)

/-! ### Creation -/

/-- The creation that a request for CREATE leaves waiting (R179). -/
def State.creation (s : State) (n : Nat) (mac : BitVec 48) (auto : Bool) (sh : Shares) (al : List Allow) (x : Image) : Creation :=
  { num := n, mac := mac, auto := auto, share := sh, allow := al, image := x.octets, ls := lsPick sh.ls s, dram := dramPick sh.dram s,
    handle := some s.handle }

section
variable (r : Req) {n : Nat} {mac : BitVec 48} (auto : Bool) {sh : Shares} {al : List Allow} {x : Image} {s : State}

theorem opCreate_taken (hn : n < 512) (hmac : macTaken mac.toNat s = true) : opCreate r n mac auto sh al x s = refuse (.badParam 1) s := by
  rw [opCreate, if_neg (by omega), if_pos hmac]

theorem opCreate_ok (hn : n < 512) (hmac : macTaken mac.toNat s = false) (hrange : sh.inRange = true) (hlen : al.length = 8)
    (hgood : ∀ a ∈ al, a.bad = false) (hfits : x.octets.length ≤ sh.ls * lsGran) (hcrc : x.crcOk = true) (hsig : imageVerified x s = true)
    (hnum : numberRefused n s = none) (hpool : poolShort sh.list s = none) :
    opCreate r n mac auto sh al x s =
      (dramOwn (dramPick sh.dram s) (n + 1) (lsOwn (lsPick sh.ls s) (n + 1) ((startLong r 0x0200 n (imageCount true s)).modInsts fun y => { y with
        creating := y.creating ++ [s.creation n mac auto sh al x] })), { status := .accepted s.handle }) := by
  have hallow : ¬ (al.length ≠ 8 ∨ al.any Allow.bad = true) := by simpa [hlen] using hgood
  have hpick : (if n = 0xFFFF then freeNumber (imageCount true s) else some n) = some n := if_neg (by omega)
  have hnum' : numberRefused n (imageCount true s) = none := hnum
  have hpool' : poolShort sh.list (imageCount true s) = none := hpool
  rw [opCreate, if_neg (by omega), if_neg (by simp [hmac]), if_neg (by simp [hrange]), if_neg hallow, if_neg (by omega), if_neg (by simp [hcrc]),
    if_neg (by simp [hsig])]
  dsimp only
  rw [hpick]
  dsimp only
  rw [hnum', hpool']
  rfl

end

/-! ### Partition tables -/

theorem Psc.withShadow_banks (p : Psc) (b : Tbl SlotEntry) : (p.withShadow b).shadow = b ∧ (p.withShadow b).active = p.active := by
  by_cases h : p.bank = 0 <;> simp [Psc.withShadow, Psc.shadow, Psc.active, h]

theorem opPtWrite_ok (r : Req) {k e : Nat} (x : SlotEntry) {s : State} (hk : k < 8) (he : e < 128) (h : (s.psc k).tableBusy = false) :
    opPtWrite r k e x s = okRes [] (configChanged (s.setPsc k fun p => p.withShadow (p.shadow.set e x))) := by
  rw [opPtWrite, if_neg (by omega), if_neg (by omega), if_neg (by simp [h])]

/-- The commit of one cluster with the PERIOD and PHASE that a request brings (R217, R460). -/
def commitOne (pe ph : List Nat) (s0 : State) (h : Nat) (s : State) (k : Nat) : State :=
  pscCommit k (some h) (s.setPsc k fun p => { p with period := periodFor pe s0 k, phase := phaseFor ph s0 k })

/-- The clusters of a mask. -/
def clustersOf (m : BitVec 8) : List Nat := (List.range 8).filter fun k => m.getLsbD k

theorem mem_clustersOf {m : BitVec 8} {k : Nat} : k ∈ clustersOf m ↔ k < 8 ∧ m.getLsbD k = true := by simp [clustersOf]

theorem clustersOf_ne_nil {m : BitVec 8} (hm : m ≠ 0) : clustersOf m ≠ [] := by
  intro hnil
  refine hm (BitVec.eq_of_getLsbD_eq fun k hk => ?_)
  have hnot : k ∉ clustersOf m := by simp [hnil]
  simpa [mem_clustersOf, hk] using hnot

section
variable (pe ph : List Nat) (s0 : State) (h : Nat)

/-- A cluster with a commit that waits (R217). -/
def Psc.committing (p : Psc) (period phase h : Nat) : Psc :=
  { p with period := period, phase := phase, commitPend := true, commitPer := period, commitPhase := phase, commitOp := some h }

theorem commitOne_psc (s : State) (k : Nat) :
    (commitOne pe ph s0 h s k).psc k = (s.psc k).committing (periodFor pe s0 k) (phaseFor ph s0 k) h := by
  rw [commitOne, pscCommit, State.psc_setPsc_same, State.psc_setPsc_same]
  rfl

theorem commitOne_psc_other (s : State) {k j : Nat} (hj : j ≠ k) : (commitOne pe ph s0 h s k).psc j = s.psc j := by
  rw [commitOne, pscCommit, State.psc_setPsc_other _ _ hj, State.psc_setPsc_other _ _ hj]

theorem commitOne_only (s : State) (k : Nat) : Only [.sched] s (commitOne pe ph s0 h s k) :=
  pscCommit_only k _ _ (State.setPsc_only _ k _ (Only.refl _ s) (by simp)) (by simp)

theorem foldl_commitOne_other (l : List Nat) (s : State) {j : Nat} (hj : j ∉ l) : (l.foldl (commitOne pe ph s0 h) s).psc j = s.psc j := by
  induction l generalizing s with
  | nil => rfl
  | cons k l ih =>
    simp only [List.mem_cons, not_or] at hj
    rw [List.foldl_cons, ih _ hj.2, commitOne_psc_other _ _ _ _ _ hj.1]

theorem foldl_commitOne_psc {l : List Nat} (hl : l.Nodup) (s : State) {k : Nat} (hk : k ∈ l) :
    (l.foldl (commitOne pe ph s0 h) s).psc k = (s.psc k).committing (periodFor pe s0 k) (phaseFor ph s0 k) h := by
  induction l generalizing s with
  | nil => cases hk
  | cons j l ih =>
    rw [List.nodup_cons] at hl
    rw [List.foldl_cons]
    by_cases hjk : k = j
    · subst hjk
      rw [foldl_commitOne_other _ _ _ _ _ _ hl.1, commitOne_psc]
    · rw [ih hl.2 _ (by simpa [hjk] using hk), commitOne_psc_other _ _ _ _ _ hjk]

end

/-- The clusters of a mask may have a commit with these periods and phases (R216, R217). -/
def Committable (m : BitVec 8) (pe ph : List Nat) (s : State) : Prop :=
  ∀ k, k < 8 → m.getLsbD k = true → periodFor pe s k ≤ 3 ∧ quarters (phaseFor ph s k) < periodNs (periodFor pe s k)
    ∧ (s.psc k).tableBusy = false ∧ (periodFor pe s k = (s.psc k).periodAct ∨ (s.psc k).aligned = true)

theorem getD_range {f : Nat → Nat} {n k : Nat} (hk : k < n) : ((List.range n).map f).getD k 0 = f k := by simp [hk]

/-- No check before those of R216 refuses such a commit. -/
theorem opPtCommit_checked (r : Req) {m : BitVec 8} {pe ph : List Nat} {s : State} (hm : m ≠ 0) (hok : Committable m pe ph s) :
    opPtCommit r m pe ph s = match tableCheck m ((List.range 8).map (periodFor pe s)) s with
      | some (c, e) => refuse (.tableCheck c e) s
      | none => (configChanged ((clustersOf m).foldl (commitOne pe ph s s.handle) (startLong r 0x0211 m.toNat s)),
          { status := .accepted s.handle }) := by
  have hnone : ∀ p : Nat → Bool, (∀ k, k < 8 → m.getLsbD k = true → p k = false) → ¬ (clustersOf m).any p = true := fun p hp => by
    simp only [List.any_eq_true, not_exists, not_and, mem_clustersOf]
    intro k ⟨hk, hkm⟩
    simp [hp k hk hkm]
  have hfold : ∀ u, (clustersOf m).foldl (fun t k => pscCommit k (some s.handle) (t.setPsc k fun p => { p with
      period := ((List.range 8).map (periodFor pe s)).getD k 0, phase := ((List.range 8).map (phaseFor ph s)).getD k 0 })) u
      = (clustersOf m).foldl (commitOne pe ph s s.handle) u := fun u =>
    List.foldl_ext _ _ _ fun t k hk => by rw [getD_range (mem_clustersOf.mp hk).1, getD_range (mem_clustersOf.mp hk).1, commitOne]
  have hper : ¬ (clustersOf m).any (fun k => decide (3 < ((List.range 8).map (periodFor pe s)).getD k 0)) = true :=
    hnone _ fun k hk hkm => by
      rw [getD_range hk]
      have hle := (hok k hk hkm).1
      simpa using hle
  have hphase : ¬ (clustersOf m).any (fun k => decide (periodNs (((List.range 8).map (periodFor pe s)).getD k 0)
      ≤ quarters (((List.range 8).map (phaseFor ph s)).getD k 0))) = true :=
    hnone _ fun k hk hkm => by
      rw [getD_range hk, getD_range hk]
      have hlt := (hok k hk hkm).2.1
      simpa using hlt
  have hbusy : ¬ (clustersOf m).any (fun k => (s.psc k).tableBusy
      || (((List.range 8).map (periodFor pe s)).getD k 0 != (s.psc k).periodAct && !(s.psc k).aligned)) = true :=
    hnone _ fun k hk hkm => by
      obtain ⟨-, -, hfree, haligned⟩ := hok k hk hkm
      rw [getD_range hk, hfree]
      obtain h | h := haligned <;> simp [h]
  rw [← hfold, opPtCommit]
  change (if clustersOf m = [] then _ else if (clustersOf m).any _ = true then _ else if (clustersOf m).any _ = true then _
    else if (clustersOf m).any _ = true then _ else _) = _
  rw [if_neg (clustersOf_ne_nil hm), if_neg hper, if_neg hphase, if_neg hbusy]
  rfl

/-- What PT_READ answers of a bank of a cluster (R460). -/
def State.bankRead (s : State) (k b : Nat) : List Nat :=
  ((List.range 128).map fun e => ((if b = 0 then (s.psc k).bank0 else (s.psc k).bank1).get e {}).pack) ++ [pscCtl k s, pscStat k s]

theorem opPtRead_ok (r : Req) {k b : Nat} (s : State) (hk : k < 8) (hb : b ≤ 1) : opPtRead r k b s = okRes (s.bankRead k b) s := by
  rw [opPtRead, if_neg (by omega), if_neg (by omega)]
  rfl

theorem opSlotStatus_ok (r : Req) {k : Nat} (s : State) (hk : k < 8) :
    opSlotStatus r k s = okRes ((List.range 128).map fun e => ((s.psc k).status.get e {}).pack) (s.setPsc k Psc.statusRead) := if_neg (by omega)

/-! ### Locks -/

/-- A free lock takes an assignment whose index no other enabled lock of the owner has (R205). -/
theorem writeAssign_lock {n o j : Nat} {en mo : Bool} {s : State} (hheld : (s.lock n).held = false)
    (hfree : (en && indexTaken n o j s) = false) :
    (∀ m, m ≠ n → (writeAssign n en mo o j s).lock m = s.lock m) ∧ ((writeAssign n en mo o j s).lock n).en = en
    ∧ ((writeAssign n en mo o j s).lock n).owner = o ∧ ((writeAssign n en mo o j s).lock n).index = j
    ∧ ((writeAssign n en mo o j s).lock n).mgpOk = mo ∧ ((writeAssign n en mo o j s).lock n).held = false := by
  obtain ⟨l, hl, hen, howner, hindex, hok, hh⟩ : ∃ l, lockAssigned n en mo o j s = some l ∧ l.en = en ∧ l.owner = o ∧ l.index = j
      ∧ l.mgpOk = mo ∧ l.held = false := by
    refine ⟨_, (if_neg (by simp [hheld])).trans (if_neg (by simpa [indexTaken] using hfree)), ?_⟩
    split_ifs <;> exact ⟨rfl, rfl, rfl, rfl, hheld⟩
  simp only [writeAssign, hl, refreshOver_lock, State.lock_setLock_same]
  exact ⟨fun m hm => State.lock_setLock_other _ _ hm, hen, howner, hindex, hok, hh⟩

theorem opLockAssign_ok (r : Req) {n o j : Nat} (mo : Bool) {s : State} (hn : n < 256) (ho : o < 512) (hj : j < 16) (hfree : indexTaken n o j s =
    false)
    (hheld : (s.lock n).held = false) (hroom : admits (s.useLocks o) 1 (s.inst o).share.locks = true) :
    opLockAssign r n o j mo s = okRes [] (configChanged (writeAssign n true mo o j s)) := by
  have hindex : ¬ (16 ≤ j ∨ indexTaken n o j s = true) := by simp [hfree, hj]
  rw [opLockAssign, if_neg (by omega), if_neg (by omega), if_neg hindex, if_neg (by simp [hheld]), if_neg (by simp [hroom])]

theorem opLockAssign_held (r : Req) {n o j : Nat} (mo : Bool) {s : State} (hn : n < 256) (ho : o < 512) (hj : j < 16)
    (hfree : indexTaken n o j s = false) (hheld : (s.lock n).held = true) : opLockAssign r n o j mo s = refuse (.state 34) s := by
  have hindex : ¬ (16 ≤ j ∨ indexTaken n o j s = true) := by simp [hfree, hj]
  rw [opLockAssign, if_neg (by omega), if_neg (by omega), if_neg hindex, if_pos hheld]

theorem opLockUnassign_ok (r : Req) {n : Nat} {s : State} (hn : n < 256) (hheld : (s.lock n).held = false) :
    opLockUnassign r n s = okRes [] (configChanged (writeAssign n false (s.lock n).mgpOk (s.lock n).owner (s.lock n).index s)) := by
  rw [opLockUnassign, if_neg (by omega), if_neg (by simp [hheld])]

/-! ### Rings in the local store -/

section
variable {r : Req} {i : Nat} {s : State} (hi : r.i = i)
include hi

theorem opEgqRegister_ok {q a n : Nat} (h : s.instBusy i = false) (hq : q < 2) (hsize : pow2In 16 n 1024 = true) (ha : a % 64 = 0)
    (hfree : ringFree i a (32 * n) (s.modEg fun e => { e with queues := e.queues.del (2 * i + q) }) = true) :
    opEgqRegister r q a n s = okRes [] (s.modEg fun e => { e with queues := e.queues.set (2 * i + q) { addr := a, size := n } }) := by
  have hplace : ¬ (a % 64 ≠ 0 ∨ (!ringFree i a (32 * n) (s.modEg fun e => { e with queues := e.queues.del (2 * i + q) })) = true) := by
    simp [ha, hfree]
  rw [opEgqRegister, hi, onInst_open h, if_neg (by omega), if_neg (by simp [hsize]), if_neg hplace]

theorem opRxringRegister_ok {a n b : Nat} (h : s.instBusy i = false) (hsize : pow2In 16 n 4096 = true) (hbuf : bufLenOk b = true)
    (hfree : ringFree i a (16 * n) (s.setInst i fun d => { d with rxRing := none }) = true) :
    opRxringRegister r a n b s = okRes [] ((s.setInst i fun d => { d with rxRing := some { base := a, size := n, bufLen := b } }).modMbx
      fun m => { m with rxReads := ((m.rxReads.del (3 * i)).del (3 * i + 1)) }) := by
  rw [opRxringRegister, hi, onInst_open h, if_neg (by simp [hsize]), if_neg (by simp [hbuf]), if_neg (by simp [hfree])]

theorem opRxringStats_ok : opRxringStats r s = okRes ((rxCounts i s).zipIdx.map fun p => p.1 - s.mbx.rxReads.get (3 * i + p.2) 0)
    (s.modMbx fun m => { m with rxReads := (rxCounts i s).zipIdx.foldl (fun t p => t.set (3 * i + p.2) p.1) m.rxReads }) := by
  rw [opRxringStats, hi]

end

/-- What a reader has been given is what each count was. -/
theorem rxReads_given (i : Nat) (s : State) (t : Tbl Nat) : ∀ p ∈ (rxCounts i s).zipIdx,
    ((rxCounts i s).zipIdx.foldl (fun t p => t.set (3 * i + p.2) p.1) t).get (3 * i + p.2) 0 = p.1 := by
  rw [rxCounts]
  generalize Option.getD _ (0, 0) = c
  simp [List.zipIdx, Tbl.get_set]

/-! ### The obligation -/

theorem Req.i_of_inst {r : Req} {i : Nat} (h : r.inst = some i) : r.i = i := by rw [Req.i, h]; rfl

/-- Settles O55: what each operation writes, on the state in which its request is taken. -/
theorem instanceRequests : Obligations.InstanceRequests := by
  unfold Obligations.InstanceRequests
  refine ⟨?_, ?_, ?_, ?_, ?_, ?_, ?_, ?_, ?_, ?_, ?_, ?_, ?_, ?_, ?_, ?_, ?_, ?_, ?_, ?_, ?_, ?_, ?_, ?_, ?_, ?_, ?_⟩
  case refine_1 =>
    intro r n mac auto sh al x s hclear hn hmac hrange hlen hgood hfits hcrc hsig hnum hpool
    obtain ⟨k, hsrc, -⟩ := id hclear
    refine hclear.served rfl ⟨nofun, nofun⟩ fun ps htake => ?_
    obtain ⟨f, hf⟩ := startLong_of_host hsrc 0x0200 n (imageCount true (s.withPairs ps))
    rw [htake]
    refine ⟨_, opCreate_ok (createReq r) auto (s := s.withPairs ps) hn hmac hrange hlen hgood hfits hcrc hsig hnum hpool, ?_⟩
    rw [hf]
    have honly : Only [.insts, .ksu, .mbx] (s.withPairs ps) ((imageCount true (s.withPairs ps)).modMbx f) :=
      State.modMbx_only _ (imageCount_only true _ (Only.refl _ _) (by simp)) (by simp)
    exact ⟨hclear.fwUp, dramOwn_only _ _ _ (lsOwn_only _ _ _ (State.modInsts_only _ honly (by simp)) (by simp)) (by simp), rfl, rfl,
      _, rfl, rfl, rfl, rfl, rfl⟩
  case refine_2 =>
    intro r n mac auto sh al x s hclear hn hmac
    exact hclear.answered rfl ⟨nofun, nofun⟩ fun ps => opCreate_taken (createReq r) auto (s := s.withPairs ps) hn hmac
  case refine_3 =>
    intro r i cl s hclear hi hopen
    obtain ⟨k, hsrc, -⟩ := id hclear
    refine hclear.served rfl ⟨nofun, nofun⟩ fun ps htake => ?_
    obtain ⟨f, hf⟩ := startLong_of_host hsrc 0x0201 i (s.withPairs ps)
    have hop := opReset_ok (Req.i_of_inst hi) (s := s.withPairs ps) cl hopen
    rw [hf] at hop
    refine ⟨_, hop, (beginReset_fwUp ..).trans hclear.fwUp, ?_⟩
    rw [beginReset_inst_same]
    exact ⟨rfl, rfl, rfl, rfl, rfl, fun j hj => beginReset_inst_other i _ false cl _ hj, (lsMem_of_core (beginReset_core ..) :),
      fun m => beginReset_lock i ((s.withPairs ps).modMbx f) false cl _ m⟩
  case refine_4 =>
    intro r i cl s hclear hi hstate
    exact hclear.answered rfl ⟨nofun, nofun⟩ fun ps => opReset_busy (Req.i_of_inst hi) (s := s.withPairs ps) cl hstate
  case refine_5 =>
    intro r i s hclear hi hopen
    obtain ⟨k, hsrc, -⟩ := id hclear
    refine hclear.served rfl ⟨nofun, nofun⟩ fun ps htake => ?_
    obtain ⟨f, hf⟩ := startLong_of_host hsrc 0x0202 i (s.withPairs ps)
    have hop := opRemove_ok (Req.i_of_inst hi) (s := s.withPairs ps) hopen
    rw [hf] at hop
    refine ⟨_, hop, (beginReset_fwUp ..).trans hclear.fwUp, ?_⟩
    rw [beginReset_inst_same]
    exact ⟨rfl, rfl, rfl, fun j hj => beginReset_inst_other i _ true false _ hj, (lsMem_of_core (beginReset_core ..) :)⟩
  case refine_6 =>
    intro r i s hclear hi hstate hno hnone
    obtain ⟨k, hsrc, -⟩ := id hclear
    refine hclear.served rfl ⟨nofun, nofun⟩ fun ps htake => ?_
    obtain ⟨f, hf⟩ := startLong_of_host hsrc 0x0202 i (s.withPairs ps)
    have hop := opRemove_held (Req.i_of_inst hi) (s := s.withPairs ps) hstate hno hnone
    rw [hf] at hop
    rw [htake]
    refine ⟨_, hop, hclear.fwUp, State.setInst_only _ i _ (State.modMbx_only _ (Only.refl _ _) (by simp)) (by simp), ?_, fun j hj => ?_⟩
    · exact State.inst_setInst_same ..
    · exact State.inst_setInst_other _ _ hj
  case refine_7 =>
    intro r i s hclear hi hopen hon
    refine hclear.served rfl ⟨nofun, nofun⟩ fun ps htake => ?_
    have hsame := halt_inst_same i 1 (s.withPairs ps) hon
    have hop := opStop_ok (Req.i_of_inst hi) (s := s.withPairs ps) hopen
    have honly : Only [.insts, .sched, .cgu, .bki, .evr, .mbx] (s.withPairs ps) (halt i 1 (s.withPairs ps)) :=
      halt_only i 1 _ (Only.refl _ _) (by simp)
    rw [hsame] at hop
    refine ⟨_, hop, fwUp_of_only honly (by decide) hclear.fwUp, ?_⟩
    rw [hsame]
    exact ⟨rfl, rfl, rfl, fun j hj => halt_inst_other i 1 _ hj, lsMem_of_core (halt_core ..), dramMem_of_core (halt_core ..)⟩
  case refine_8 =>
    intro r i s hclear hi hopen hhalt hcause
    refine hclear.served rfl ⟨nofun, nofun⟩ fun ps htake => ?_
    have honly : Only [.insts, .sched, .bki, .evr, .mbx] (s.withPairs ps) (emitInst i false (freshHarts i
        ((s.withPairs ps).setInst i Inst.started))) :=
      emitInst_only i false _ (freshHarts_only i _ (State.setInst_only _ i _ (Only.refl _ _) (by simp)) (by simp)) (by simp)
    rw [htake]
    refine ⟨_, opStart_ok (Req.i_of_inst hi) (s := s.withPairs ps) hopen hhalt hcause, fwUp_of_only honly (by decide) hclear.fwUp, honly, ?_,
        fun j hj => ?_⟩
    · rw [emitInst_inst]
      exact State.inst_setInst_same (s.withPairs ps) i Inst.started
    · rw [emitInst_inst]
      exact State.inst_setInst_other (s.withPairs ps) Inst.started hj
  case refine_9 =>
    intro r i s hclear hi hopen hnot
    exact hclear.answered rfl ⟨nofun, nofun⟩ fun ps => opStart_refused (Req.i_of_inst hi) (s := s.withPairs ps) hopen hnot
  case refine_10 =>
    intro r i m sh s hclear hi hopen hrange hpool
    obtain ⟨k, hsrc, -⟩ := id hclear
    obtain ⟨ps, htake⟩ := take_of_host hsrc s
    obtain ⟨hshare, hls, hdram⟩ := setShares_inst_same i ((s.inst i).share.masked sh m) (take r s)
    refine ⟨[((setShares i ((s.inst i).share.masked sh m) (take r s)).inst i).overBits.toNat],
      hclear.served rfl ⟨nofun, nofun⟩ fun ps' htake' => ?_⟩
    rw [← htake', htake]
    rw [htake] at hshare hls hdram
    have honly : Only [.insts, .bki, .evr, .mbx] (s.withPairs ps) (setShares i ((s.inst i).share.masked sh m) (s.withPairs ps)) :=
      setShares_only _ _ _ (Only.refl _ _) (by simp)
    exact ⟨_, opSetShares_ok (Req.i_of_inst hi) (s := s.withPairs ps) hopen hrange hpool, (fwUp_of_only honly (by decide) hclear.fwUp :),
      configChanged_only _ (honly.mono (by simp)) (by simp), hshare, ⟨_, hls⟩, ⟨_, hdram⟩, rfl, fun j hj => setShares_inst_other _ _ hj⟩
  case refine_11 =>
    intro r i s hclear hi
    have hri := Req.i_of_inst hi
    subst hri
    exact hclear.answered rfl ⟨nofun, nofun⟩ fun ps => rfl
  case refine_12 =>
    intro r i k a s hclear hi hopen hk ha
    refine hclear.served rfl ⟨nofun, nofun⟩ fun ps htake => ?_
    rw [htake]
    refine ⟨_, opSetAllowance_ok (Req.i_of_inst hi) (s := s.withPairs ps) hopen hk ha, hclear.fwUp,
      configChanged_only _ (State.setInst_only _ i _ (Only.refl _ _) (by simp)) (by simp), ?_, fun j hj => ?_⟩
    · exact State.inst_setInst_same (s.withPairs ps) i fun d => { d with allow := d.allow.set k a }
    · exact State.inst_setInst_other (s.withPairs ps) (fun d => { d with allow := d.allow.set k a }) hj
  case refine_13 =>
    intro r i n s hclear hi hopen hn
    refine hclear.served rfl ⟨nofun, nofun⟩ fun ps htake => ?_
    rw [htake]
    refine ⟨_, opSetAutoReset_ok (Req.i_of_inst hi) (s := s.withPairs ps) hopen hn, hclear.fwUp,
      configChanged_only _ (State.setInst_only _ i _ (Only.refl _ _) (by simp)) (by simp), ?_, fun j hj => ?_⟩
    · exact State.inst_setInst_same (s.withPairs ps) i fun d => { d with autoReset := n == 1 }
    · exact State.inst_setInst_other (s.withPairs ps) (fun d => { d with autoReset := n == 1 }) hj
  case refine_14 =>
    intro r n s hclear hlow hhigh
    refine hclear.served rfl ⟨nofun, nofun⟩ fun ps htake => ?_
    rw [htake]
    exact ⟨_, opSetHoldoff_ok r (s.withPairs ps) hlow hhigh, hclear.fwUp,
      configChanged_only _ (State.modInsts_only _ (Only.refl _ _) (by simp)) (by simp), rfl⟩
  case refine_15 =>
    intro r i x s hclear hi hopen hfree hex hfits hmeets hcrc hsig hcomes
    obtain ⟨k, hsrc, -⟩ := id hclear
    refine hclear.served rfl ⟨nofun, nofun⟩ fun ps htake => ?_
    obtain ⟨f, hf⟩ := startLong_of_host hsrc 0x020A i (imageCount true (s.withPairs ps))
    have hop := opReplaceImage_ok (Req.i_of_inst hi) (s := s.withPairs ps) hopen hfree hex hfits hmeets hcrc hsig hcomes
    rw [hf] at hop
    rw [htake]
    exact ⟨_, hop, hclear.fwUp,
      State.modPersist_only _ (State.modMbx_only _ (imageCount_only true _ (Only.refl _ _) (by simp)) (by simp)) (by simp),
      _, rfl, rfl, rfl, rfl, rfl⟩
  case refine_16 =>
    intro r k e x s hclear hk he hfree
    refine hclear.served rfl ⟨nofun, nofun⟩ fun ps htake => ?_
    have hset := State.psc_setPsc_same (s.withPairs ps) k fun p => p.withShadow (p.shadow.set e x)
    obtain ⟨hshadow, hactive⟩ := Psc.withShadow_banks (s.psc k) ((s.psc k).shadow.set e x)
    rw [htake]
    refine ⟨_, opPtWrite_ok r x (s := s.withPairs ps) hk he hfree, hclear.fwUp,
      configChanged_only _ (State.setPsc_only _ k _ (Only.refl _ _) (by simp)) (by simp), (congrArg Psc.shadow hset).trans hshadow,
      (congrArg Psc.active hset).trans hactive, fun j hj => ?_⟩
    exact State.psc_setPsc_other (s.withPairs ps) (fun p => p.withShadow (p.shadow.set e x)) hj
  case refine_17 =>
    intro r m pe ph s hclear hm hok hcheck
    obtain ⟨k, hsrc, -⟩ := id hclear
    refine hclear.served rfl ⟨nofun, nofun⟩ fun ps htake => ?_
    obtain ⟨f, hf⟩ := startLong_of_host hsrc 0x0211 m.toNat (s.withPairs ps)
    have hop := opPtCommit_checked r (s := s.withPairs ps) hm hok
    have hcheck' : tableCheck m ((List.range 8).map (periodFor pe (s.withPairs ps))) (s.withPairs ps) = none := hcheck
    rw [hcheck', hf] at hop
    have hnodup : (clustersOf m).Nodup := List.nodup_range.filter _
    have hone := fun {j} => foldl_commitOne_psc pe ph (s.withPairs ps) (s.withPairs ps).handle hnodup ((s.withPairs ps).modMbx f) (k := j)
    have hother := fun {j} => foldl_commitOne_other pe ph (s.withPairs ps) (s.withPairs ps).handle (clustersOf m) ((s.withPairs ps).modMbx f) (j := j)
    have honly : Only [.sched, .mbx] (s.withPairs ps)
        ((clustersOf m).foldl (commitOne pe ph (s.withPairs ps) (s.withPairs ps).handle) ((s.withPairs ps).modMbx f)) :=
      (State.modMbx_only f (Only.refl _ _) (by simp)).trans
        ((foldl_only _ _ (Only.refl _ _) fun u k => commitOne_only pe ph _ _ u k).mono (by simp))
    generalize (clustersOf m).foldl (commitOne pe ph (s.withPairs ps) (s.withPairs ps).handle) ((s.withPairs ps).modMbx f) =
        u at hop hone hother honly
    rw [htake]
    refine ⟨_, hop, (fwUp_of_only honly (by decide) hclear.fwUp :), configChanged_only _ (honly.mono (by simp)) (by simp), fun k => ?_,
        fun k hk hkm => ?_⟩
    · by_cases hk : k ∈ clustersOf m
      · exact (congrArg Psc.active (hone hk) :)
      · exact (congrArg Psc.active (hother hk) :)
    · have hpsc := hone (mem_clustersOf.mpr ⟨hk, hkm⟩)
      exact ⟨(congrArg Psc.commitPend hpsc :), (congrArg Psc.period hpsc :), (congrArg Psc.phase hpsc :), (congrArg Psc.periodAct hpsc :)⟩
  case refine_18 =>
    intro r m pe ph c e s hclear hm hok hcheck
    refine hclear.answered rfl ⟨nofun, nofun⟩ fun ps => ?_
    have hcheck' : tableCheck m ((List.range 8).map (periodFor pe (s.withPairs ps))) (s.withPairs ps) = some (c, e) := hcheck
    rw [opPtCommit_checked r (s := s.withPairs ps) hm hok, hcheck']
    rfl
  case refine_19 =>
    intro r k b s hclear hk hb
    obtain ⟨k', hsrc, -⟩ := id hclear
    obtain ⟨ps, htake⟩ := take_of_host hsrc s
    refine ⟨(take r s).bankRead k b, hclear.served rfl ⟨nofun, nofun⟩ fun ps' htake' => ?_⟩
    rw [← htake']
    exact ⟨_, opPtRead_ok r (take r s) hk hb, by rw [htake]; exact hclear.fwUp, rfl, by simp [State.bankRead]⟩
  case refine_20 =>
    intro r k s hclear hk
    refine hclear.served rfl ⟨nofun, nofun⟩ fun ps htake => ?_
    have hset := State.psc_setPsc_same (s.withPairs ps) k Psc.statusRead
    rw [htake]
    exact ⟨_, opSlotStatus_ok r (s.withPairs ps) hk, hclear.fwUp, State.setPsc_only _ k _ (Only.refl _ _) (by simp),
      (congrArg Psc.status hset :), fun j hj => State.psc_setPsc_other (s.withPairs ps) Psc.statusRead hj⟩
  case refine_21 =>
    intro r n o j mo s hclear hn ho hj hfree hheld hroom
    refine hclear.served rfl ⟨nofun, nofun⟩ fun ps htake => ?_
    obtain ⟨hother, hen, howner, hindex, hok, hh⟩ := writeAssign_lock (n := n) (o := o) (j := j) (en := true) (mo := mo) (s :=
        s.withPairs ps) hheld hfree
    have honly : Only [.insts, .bki, .evr, .mbx] (s.withPairs ps) (writeAssign n true mo o j (s.withPairs ps)) :=
      writeAssign_only _ _ _ _ _ _ (Only.refl _ _) (by simp)
    rw [htake]
    exact ⟨_, opLockAssign_ok r mo (s := s.withPairs ps) hn ho hj hfree hheld hroom, (fwUp_of_only honly (by decide) hclear.fwUp :),
      configChanged_only _ (honly.mono (by simp)) (by simp), hother, hen, howner, hindex, hok, hh⟩
  case refine_22 =>
    intro r n o j mo s hclear hn ho hj hfree hheld
    exact hclear.answered rfl ⟨nofun, nofun⟩ fun ps => opLockAssign_held r mo (s := s.withPairs ps) hn ho hj hfree hheld
  case refine_23 =>
    intro r n s hclear hn hheld
    refine hclear.served rfl ⟨nofun, nofun⟩ fun ps htake => ?_
    obtain ⟨hother, hen, -⟩ := writeAssign_lock (n := n) (o := (s.lock n).owner) (j := (s.lock n).index) (en := false) (mo := (s.lock n).mgpOk)
      (s := s.withPairs ps) hheld rfl
    have honly : Only [.insts, .bki, .evr, .mbx] (s.withPairs ps)
        (writeAssign n false (s.lock n).mgpOk (s.lock n).owner (s.lock n).index (s.withPairs ps)) :=
      writeAssign_only _ _ _ _ _ _ (Only.refl _ _) (by simp)
    rw [htake]
    exact ⟨_, opLockUnassign_ok r (s := s.withPairs ps) hn hheld, (fwUp_of_only honly (by decide) hclear.fwUp :),
      configChanged_only _ (honly.mono (by simp)) (by simp), hen, hother⟩
  case refine_24 =>
    intro r n s hclear hn
    exact hclear.answered rfl ⟨nofun, nofun⟩ fun ps => if_neg (by omega)
  case refine_25 =>
    intro r i q a n s hclear hi hopen hq hsize ha hfree
    refine hclear.served rfl ⟨nofun, nofun⟩ fun ps htake => ?_
    rw [htake]
    exact ⟨_, opEgqRegister_ok (Req.i_of_inst hi) (s := s.withPairs ps) hopen hq hsize ha hfree, hclear.fwUp,
      State.modEg_only _ (Only.refl _ _) (by simp), rfl⟩
  case refine_26 =>
    intro r i a n b s hclear hi hopen hsize hbuf hfree
    refine hclear.served rfl ⟨nofun, nofun⟩ fun ps htake => ?_
    rw [htake]
    refine ⟨_, opRxringRegister_ok (Req.i_of_inst hi) (s := s.withPairs ps) hopen hsize hbuf hfree, hclear.fwUp,
      State.modMbx_only _ (State.setInst_only _ i _ (Only.refl _ _) (by simp)) (by simp), ?_, fun j hj => ?_⟩
    · exact State.inst_setInst_same (s.withPairs ps) i fun d => { d with rxRing := some { base := a, size := n, bufLen := b } }
    · exact State.inst_setInst_other (s.withPairs ps) (fun d => { d with rxRing := some { base := a, size := n, bufLen := b } }) hj
  case refine_27 =>
    intro r i s hclear hi
    refine hclear.served rfl ⟨nofun, nofun⟩ fun ps htake => ?_
    rw [htake]
    exact ⟨_, opRxringStats_ok (Req.i_of_inst hi) (s := s.withPairs ps), hclear.fwUp, State.modMbx_only _ (Only.refl _ _) (by simp),
      rxReads_given i s _⟩

end Sys2Proof.Machine
end

section
/-!
PROOFS. What the requests of the streams and switch family (R461) write: the registers of a port and of the switch, the batch of table changes,
the mirror sessions and the counts given to a reader.
-/
namespace Sys2Proof.Machine
open Sys2Proof

/-! ### The registers of a port -/

/-- What PORT_CONFIG writes of a port. -/
def Port.setup (p : Port) : Port := { rate := p.rate, txEn := p.txEn, rxEn := p.rxEn, pvid := p.pvid, maxFrame := p.maxFrame }

theorem setup_of_calm {s t : State} (h : t.calm = s.calm) (j : Nat) : (t.port j).setup = (s.port j).setup :=
  (congrArg Port.setup (port_of_calm h j) :)

theorem State.setPort_setup (s : State) (k j : Nat) (f : Port → Port) :
    ((s.setPort k f).port j).setup = if j = k then (f (s.port j)).setup else (s.port j).setup := by
  rw [State.port_setPort, apply_ite Port.setup]

theorem countPause_setup (k j : Nat) (s : State) : ((countPause k s).port j).setup = (s.port j).setup := by
  by_cases hj : j = k
  · subst hj
    rw [countPause_port_same]
    exact (congrArg Port.setup ((Port.counted_still ..).trans (Port.settled_still ..)) :)
  · rw [countPause_port_other _ hj]

theorem abandon_setup (k j : Nat) (s : State) : ((abandon k s).port j).setup = (s.port j).setup := by
  unfold abandon
  split
  · rw [setup_of_calm (txDrop_calm ..), State.setPort_setup]
    exact ite_self _
  · rfl

theorem portDown_setup (k j : Nat) (s : State) : ((portDown k s).port j).setup = (s.port j).setup := by
  unfold portDown
  split
  · dsimp only
    rw [setup_of_calm (linkEvent_calm ..), abandon_setup, setup_of_calm (flushQueues_calm ..), State.setPort_setup]
    exact (ite_self _).trans (countPause_setup k j s)
  · rfl

theorem Port.judged_setup (p : Port) : p.judged.setup = p.setup := by
  unfold Port.judged
  split <;> rfl

theorem putRate_setup (k r j : Nat) (s : State) :
    ((putRate k r s).port j).setup = { (s.port j).setup with rate := if j = k then r else (s.port j).rate } := by
  unfold putRate
  split
  case isTrue h =>
    split
    case isTrue hj =>
      subst hj
      rw [← h]
      rfl
    case isFalse => rfl
  case isFalse =>
    rw [State.setPort_setup]
    split
    · rw [Port.judged_setup]
      exact (congrArg (fun p : Port => { p with rate := r }) (portDown_setup k j s) :)
    · exact portDown_setup k j s

theorem writeRate_setup {k r : Nat} (hok : rateOk k r = true) (j : Nat) (s : State) :
    ((writeRate k r s).port j).setup = { (s.port j).setup with rate := if j = k ∨ (k < 2 ∧ j < 2) then r else (s.port j).rate } := by
  have hrate : ∀ i u, ((putRate i r u).port j).rate = if j = i then r else (u.port j).rate := fun i u =>
    (congrArg Port.rate (putRate_setup i r j u) :)
  rw [writeRate, if_neg (by simp [hok])]
  split
  case isTrue hk =>
    have hring : (if j = 1 then r else if j = 0 then r else (s.port j).rate) = if j = k ∨ (k < 2 ∧ j < 2) then r else (s.port j).rate := by
      have hiff : j = 1 ∨ j = 0 ↔ j = k ∨ (k < 2 ∧ j < 2) := by omega
      rw [← ite_or, if_congr hiff rfl rfl]
    rw [putRate_setup, hrate, hring, putRate_setup]
  case isFalse hk =>
    have hiff : j = k ↔ j = k ∨ (k < 2 ∧ j < 2) := by omega
    rw [putRate_setup, if_congr hiff rfl rfl]

theorem writeTxEn_setup (k : Nat) (v : Bool) (j : Nat) (s : State) :
    ((writeTxEn k v s).port j).setup = { (s.port j).setup with txEn := if j = k then v else (s.port j).txEn } := by
  have hset : ((s.setPort k fun p => { p with txEn := v }).port j).setup
      = { (s.port j).setup with txEn := if j = k then v else (s.port j).txEn } := by
    rw [State.setPort_setup]
    split <;> rfl
  unfold writeTxEn
  dsimp only
  split
  · exact hset
  · rw [setup_of_calm (flushQueues_calm ..), hset]

theorem portCtlBad_rate {k : Nat} {v : BitVec 32} (h : portCtlBad k v = false) : rateOk k (bits v 9 8) = true := by
  simp only [portCtlBad, Bool.or_eq_false_iff, Bool.not_eq_false'] at h
  exact h.1.2

/-- The fields of PORT_CTL but TX_EN, written (R94). -/
def ctlWritten (k : Nat) (v : BitVec 32) (s : State) : State :=
  (writeRate k (bits v 9 8) s).setPort k fun p => { p with
    fec := keep (decide (k < 6) && bits v 11 10 != 3) (bits v 11 10) p.fec, rxTag := keep (decide (bits v 7 6 < 2)) (bits v 7 6) p.rxTag,
    untagPvid := bitOf v 5, pauseRx := bitOf v 4, rxEn := bitOf v 0,
    stampsOff := p.stampsOff || (decide (k < 6) && bits v 11 10 != 3 && bits v 11 10 != p.fec) }

theorem writePortCtl_eq (k : Nat) (v : BitVec 32) (s : State) : writePortCtl k v s =
    if bitOf v 1 = ((ctlWritten k v s).port k).txEn then ctlWritten k v s else writeTxEn k (bitOf v 1) (ctlWritten k v s) := rfl

theorem ctlWritten_setup {k : Nat} {v : BitVec 32} (hok : portCtlBad k v = false) (j : Nat) (s : State) :
    ((ctlWritten k v s).port j).setup = { (s.port j).setup with
      rate := if j = k ∨ (k < 2 ∧ j < 2) then bits v 9 8 else (s.port j).rate
      rxEn := if j = k then bitOf v 0 else (s.port j).rxEn } := by
  have hrate := writeRate_setup (portCtlBad_rate hok) j s
  rw [ctlWritten, State.setPort_setup]
  split
  · exact (congrArg (fun p : Port => { p with rxEn := bitOf v 0 }) hrate :)
  · exact hrate

theorem writePortCtl_setup {k : Nat} {v : BitVec 32} (hok : portCtlBad k v = false) (j : Nat) (s : State) :
    ((writePortCtl k v s).port j).setup = { (s.port j).setup with
      rate := if j = k ∨ (k < 2 ∧ j < 2) then bits v 9 8 else (s.port j).rate
      rxEn := if j = k then bitOf v 0 else (s.port j).rxEn
      txEn := if j = k then bitOf v 1 else (s.port j).txEn } := by
  have hctl := ctlWritten_setup hok j s
  have htx : ((ctlWritten k v s).port j).txEn = (s.port j).txEn := (congrArg Port.txEn hctl :)
  rw [writePortCtl_eq]
  split
  case isTrue hsame =>
    have hbit : (if j = k then bitOf v 1 else (s.port j).txEn) = (s.port j).txEn := by
      split
      case isTrue hj => rw [hsame, ← htx, hj]
      case isFalse => rfl
    rw [hctl, hbit]
    rfl
  case isFalse => rw [writeTxEn_setup, hctl, htx]

/-- The registers of a port, written (R69, R94, R96). -/
def portConfigured (k : Nat) (ctl vlan pcp : BitVec 32) (n : Nat) (s : State) : State :=
  writeMaxFrame k n (writePortPcpMap k pcp (writePortVlan k vlan (writePortCtl k ctl s)))

theorem portConfigured_setup {k : Nat} {ctl vlan : BitVec 32} (pcp : BitVec 32) {n : Nat} (hctl : portCtlBad k ctl = false)
    (hvlan : portVlanBad vlan = false) (hn : maxFrameBad n = false) (j : Nat) (s : State) :
    ((portConfigured k ctl vlan pcp n s).port j).setup = {
      rate := if j = k ∨ (k < 2 ∧ j < 2) then bits ctl 9 8 else (s.port j).rate
      rxEn := if j = k then bitOf ctl 0 else (s.port j).rxEn
      txEn := if j = k then bitOf ctl 1 else (s.port j).txEn
      pvid := if j = k then bits vlan 11 0 else (s.port j).pvid
      maxFrame := if j = k then n else (s.port j).maxFrame } := by
  have hport := writePortCtl_setup hctl j s
  rw [portConfigured, writeMaxFrame, writePortPcpMap, writePortVlan, hvlan, hn]
  simp only [State.port_setPort]
  by_cases hj : j = k
  · simp only [if_pos hj] at hport ⊢
    exact (congrArg (fun p : Port => { p with pvid := bits vlan 11 0, maxFrame := n }) hport :)
  · simp only [if_neg hj] at hport ⊢
    exact hport

/-- The registers of a port, as PORT_CONFIG answers them. -/
def State.portRegs (s : State) (k n : Nat) : List Nat := [portCtl k s, portVlan k s, portPcpMap k s, n]

theorem opPortConfig_ok (r : Req) {k : Nat} {ctl vlan : BitVec 32} (pcp : BitVec 32) {n : Nat} {s : State} (hk : k < 8)
    (hctl : portCtlBad k ctl = false) (hvlan : portVlanBad vlan = false) (hn : maxFrameBad n = false) :
    opPortConfig r k ctl vlan pcp n s = okRes ((configChanged (portConfigured k ctl vlan pcp n s)).portRegs k n)
      (configChanged (portConfigured k ctl vlan pcp n s)) := by
  have hframe : ((configChanged (portConfigured k ctl vlan pcp n s)).port k).maxFrame = n := by
    have h := congrArg Port.maxFrame (portConfigured_setup pcp hctl hvlan hn k s)
    exact h.trans (if_pos rfl)
  rw [opPortConfig, if_neg (by omega), if_neg (by simp [hctl]), if_neg (by simp [hvlan]), if_neg (by simp [hn])]
  exact congrArg (fun m => okRes [_, _, _, m] _) hframe

/-! ### The bypass and the registers of the switch -/

/-- What PORT_BYPASS answers of the head. -/
def Head.bypass (h : Head) : List Nat := [b2n h.through, b2n h.coil, b2n h.forced]

theorem opPortBypass_ok (r : Req) {n : Nat} (s : State) (hn : n ≤ 1) :
    opPortBypass r n s = okRes (coilCheck (s.modHead fun h => { h with forced := n == 1 })).head.bypass
      (configChanged (coilCheck (s.modHead fun h => { h with forced := n == 1 }))) := if_neg (by omega)

theorem coilOff_forced (s : State) : (coilOff s).head.forced = s.head.forced := by
  unfold coilOff
  split
  · rw [portDown_head, portDown_head]
    rfl
  · rfl

/-- What the look at the conditions of R102 leaves of the head: the coil is released where one fails. -/
theorem coilCheck_head (s : State) : (coilCheck s).head.forced = s.head.forced ∧ ((coilCheck s).head.coil = true → s.head.coil = true)
    ∧ (s.head.forced = true → (coilCheck s).head.coil = false) := by
  unfold coilCheck
  split
  case isTrue hallowed =>
    refine ⟨rfl, id, fun hforced => ?_⟩
    simp [coilAllowed, hforced] at hallowed
  case isFalse =>
    refine ⟨coilOff_forced s, fun hcoil => ?_, fun _ => coilOff_coil s⟩
    rw [coilOff_coil] at hcoil
    cases hcoil

/-- What SWITCH_CONFIG and MIRROR_SESSION write of the switch, and its batch. -/
theorem calm_of_tables {s t : State} (h : t.tables = s.tables) : t.sw.calm = s.sw.calm := congrArg Tables.rest h

theorem writeSwcCtl_calm (v : BitVec 32) (s : State) :
    (writeSwcCtl v s).sw.calm = { s.sw.calm with learnEn := bitOf v 2, prpEn := bitOf v 1, hsrEn := bitOf v 0 } := by
  unfold writeSwcCtl
  dsimp only
  rw [calm_of_tables (coilCheck_tables _)]
  split <;> rfl

section
variable {α : Type}

/-- A list with the places from `m` on overwritten one after the other. -/
def overwritten (l : List α) (m : Nat) (t : List α) : List α := (l.zipIdx m).foldl (fun t p => t.set p.2 p.1) t

theorem overwritten_cons (a : α) (l : List α) (m : Nat) (t : List α) : overwritten (a :: l) m t = overwritten l (m + 1) (t.set m a) := rfl

theorem overwritten_getElem? (l : List α) (m : Nat) (t : List α) (i : Nat) : (overwritten l m t)[i]? =
    if m ≤ i ∧ i < m + l.length ∧ i < t.length then l[i - m]? else t[i]? := by
  induction l generalizing m t with
  | nil =>
    rw [if_neg (by rw [List.length_nil]; omega)]
    rfl
  | cons a l ih =>
    rw [overwritten_cons, ih, List.length_set, List.length_cons]
    obtain hlt | rfl | hgt := Nat.lt_trichotomy i m
    · rw [if_neg (by omega), if_neg (by omega), List.getElem?_set_ne (by omega)]
    · rw [if_neg (by omega)]
      by_cases hi : i < t.length
      · rw [if_pos (by omega), List.getElem?_set_self hi, Nat.sub_self]
        rfl
      · rw [if_neg (by omega), List.getElem?_eq_none (by rw [List.length_set]; omega), List.getElem?_eq_none (by omega)]
    · obtain ⟨d, rfl⟩ : ∃ d, i = m + 1 + d := ⟨i - (m + 1), by omega⟩
      rw [List.getElem?_set_ne (by omega), Nat.add_sub_cancel_left, show m + 1 + d - m = d + 1 by omega, List.getElem?_cons_succ]
      exact if_congr (by omega) rfl rfl

end

theorem foldl_writeClsAge {l : List Nat} (hl : ∀ n ∈ l, within 10 n 100000 = true) (m : Nat) (s : State) :
    (l.zipIdx m).foldl (fun s p => writeClsAge p.2 p.1 s) s
      = s.modSw fun w => { w with clsAge := overwritten l m w.clsAge } := by
  induction l generalizing m s with
  | nil => rfl
  | cons n l ih =>
    have hn : writeClsAge m n s = s.modSw fun w => { w with clsAge := w.clsAge.set m n } := by
      rw [writeClsAge, hl n (by simp)]
      rfl
    rw [List.zipIdx_cons, List.foldl_cons, hn, ih fun x hx => hl x (by simp [hx])]
    rfl

theorem foldl_writePortFwd (l : List (BitVec 32)) (m : Nat) (s : State) :
    (l.zipIdx m).foldl (fun s p => writePortFwd p.2 p.1 s) s = s.modSw fun w => { w with
      portLearn := overwritten (l.map fun v => bitOf v 8) m w.portLearn
      flood := overwritten (l.map fun v => BitVec.ofNat 8 (bits v 7 0)) m w.flood } := by
  induction l generalizing m s with
  | nil => rfl
  | cons v l ih =>
    rw [List.zipIdx_cons, List.foldl_cons, ih]
    rfl

/-- The registers of the switch as SWITCH_CONFIG leaves them (R125, R138). -/
theorem writeSwitchCfg_calm {c : SwitchCfg} {s : State} (hhold : c.holdoffMs ≤ 3600000) (hidle : within 10 c.fwdIdleS 6500 = true)
    (hage : ∀ n ∈ c.clsAge, within 10 n 100000 = true) :
    (writeSwitchCfg c s).sw.calm = { s.sw.calm with
      learnEn := bitOf c.ctl 2, prpEn := bitOf c.ctl 1, hsrEn := bitOf c.ctl 0
      clsAge := overwritten c.clsAge 0 s.sw.clsAge
      holdoffMs := max c.holdoffMs ((2 * (overwritten c.clsAge 0 s.sw.clsAge).foldl max 0 + 999) / 1000)
      fwdIdleS := c.fwdIdleS
      portLearn := overwritten (c.portFwd.map fun v => bitOf v 8) 0 s.sw.portLearn
      flood := overwritten (c.portFwd.map fun v => BitVec.ofNat 8 (bits v 7 0)) 0 s.sw.flood } := by
  have hctl := writeSwcCtl_calm c.ctl s
  rw [writeSwitchCfg, foldl_writePortFwd, foldl_writeClsAge hage]
  generalize writeSwcCtl c.ctl s = u at hctl
  have hhold' : decide (c.holdoffMs ≤ 3600000) = true := decide_eq_true hhold
  simp only [writeFwdIdle, writeHoldoff, hidle, hhold', keep, if_true]
  have hcls : u.sw.clsAge = s.sw.clsAge := (congrArg Switch.clsAge hctl :)
  have hlearn : u.sw.portLearn = s.sw.portLearn := (congrArg Switch.portLearn hctl :)
  have hflood : u.sw.flood = s.sw.flood := (congrArg Switch.flood hctl :)
  rw [← hcls, ← hlearn, ← hflood]
  exact (congrArg (fun w : Switch => { w with
    clsAge := overwritten c.clsAge 0 u.sw.clsAge
    holdoffMs := max c.holdoffMs ((2 * (overwritten c.clsAge 0 u.sw.clsAge).foldl max 0 + 999) / 1000)
    fwdIdleS := c.fwdIdleS
    portLearn := overwritten (c.portFwd.map fun v => bitOf v 8) 0 u.sw.portLearn
    flood := overwritten (c.portFwd.map fun v => BitVec.ofNat 8 (bits v 7 0)) 0 u.sw.flood }) hctl :)

/-- The values of the registers of the switch, as SWITCH_CONFIG answers them. -/
def State.switchRegs (s : State) : List Nat :=
  [swcCtl s, s.sw.holdoffMs, s.sw.fwdIdleS] ++ s.sw.clsAge ++ (List.range 8).map fun k => portFwd k s

theorem opSwitchConfig_ok (r : Req) {c : SwitchCfg} (s : State) (hhold : c.holdoffMs ≤ 3600000) (hidle : within 10 c.fwdIdleS 6500 = true)
    (hlen : c.clsAge.length = 8) (hage : ∀ n ∈ c.clsAge, within 10 n 100000 = true) (hfwd : c.portFwd.length = 8) :
    opSwitchConfig r c s = okRes (configChanged (writeSwitchCfg c s)).switchRegs (configChanged (writeSwitchCfg c s)) := by
  have hages : ¬ (c.clsAge.length ≠ 8 ∨ c.clsAge.any (fun n => !within 10 n 100000) = true) := by simpa [hlen] using hage
  rw [opSwitchConfig, if_neg (by omega), if_neg (by simp [hidle]), if_neg hages, if_neg (by simp [hfwd])]
  rfl

/-! ### The batch of table changes (R123) -/

theorem putItem_batched {x : StbPutItem} {n i : Nat} {s t : State} (h : putItem x n s = .inr (i, t)) : ∃ cs, t = batched cs s := by
  have hplace : ∀ stream key c idx, putAtOrPlace stream key c idx n s = .inr (i, t) → ∃ cs, t = batched cs s := by
    intro stream key c idx hput
    unfold putAtOrPlace at hput
    split at hput
    · split_ifs at hput
      cases hput
      exact ⟨_, rfl⟩
    · split at hput <;> cases hput
      exact ⟨_, rfl⟩
  unfold putItem at h
  split at h
  · split_ifs at h
    exact hplace _ _ _ _ h
  · split_ifs at h
    exact hplace _ _ _ _ h
  · split at h
    · split_ifs at h
      cases h
      exact ⟨_, rfl⟩
    · cases h
  · split at h
    · split_ifs at h
      cases h
      exact ⟨_, rfl⟩
    · cases h
  · cases h
  · cases h

theorem batched_batched (cs ds : List StbChange) (s : State) : batched ds (batched cs s) = batched (cs ++ ds) s := by
  have hsw : (batched cs s).sw.batch ++ ds = s.sw.batch ++ (cs ++ ds) := List.append_assoc ..
  exact congrArg (fun b => s.modSw fun w => { w with batch := b }) hsw

theorem batched_nil (s : State) : batched [] s = s :=
  (congrArg (fun b => s.modSw fun w => { w with batch := b }) (List.append_nil s.sw.batch) :)

/-- The changes of a request all join the batch, and each is answered its index. -/
theorem putItems_batched {xs : List StbPutItem} {n : Nat} {is js : List Nat} {s t : State} (h : putItems xs n is s = .inr (js, t)) :
    (∃ cs, t = batched cs s) ∧ js.length = is.length + xs.length := by
  induction xs generalizing n is s with
  | nil =>
    cases h
    exact ⟨⟨[], (batched_nil t).symm⟩, rfl⟩
  | cons x xs ih =>
    unfold putItems at h
    split at h
    · cases h
    · next hx =>
      obtain ⟨cs, rfl⟩ := putItem_batched hx
      obtain ⟨⟨ds, hds⟩, hlen⟩ := ih h
      refine ⟨⟨cs ++ ds, by rw [hds, batched_batched]⟩, ?_⟩
      rw [hlen, List.length_append, List.length_cons, List.length_cons, List.length_nil]
      omega

theorem opStbPut_ok (r : Req) {cs : List StbPutItem} {is : List Nat} {s t : State} (hlen : cs.length ≤ 256) (hidle : s.persist.importOp = none)
    (hput : putItems cs 0 [] s = .inr (is, t)) (hroom : t.sw.batch.length ≤ 256) : opStbPut r cs s = okRes is t := by
  have hsize : batchSize t ≤ 256 := (List.length_filter_le ..).trans hroom
  rw [opStbPut, if_neg (by omega), hidle, if_neg (by simp), hput]
  exact if_neg (by omega)

theorem opStbPut_refused (r : Req) {cs : List StbPutItem} {st : Status} {s : State} (hlen : cs.length ≤ 256) (hidle : s.persist.importOp = none)
    (hput : putItems cs 0 [] s = .inl st) : opStbPut r cs s = refuse st s := by
  rw [opStbPut, if_neg (by omega), hidle, if_neg (by simp), hput]

theorem putItems_bitmap {i : Nat} (b : SubBitmap) (hlow : 1 ≤ i) (hhigh : i ≤ 4095) (s : State) :
    putItems [{ idx := some i, op := .putBitmap, bitmap := b }] 0 [] s = .inr ([i], batched [{ idx := i, op := .putBitmap, bitmap := b }] s) := by
  have hitem : putItem { idx := some i, op := .putBitmap, bitmap := b } 0 s = .inr (i, batched [{ idx := i, op := .putBitmap, bitmap := b }] s) :=
    if_pos ⟨hlow, hhigh⟩
  rw [putItems, hitem]
  rfl

/-- A status with which STB_PUT refuses a change. -/
theorem putItem_status {x : StbPutItem} {n : Nat} {st : Status} {s : State} (h : putItem x n s = .inl st) :
    st ≠ .restarted ∧ st ≠ .timeout := by
  have hplace : ∀ stream key c idx, putAtOrPlace stream key c idx n s = .inl st → st ≠ .restarted ∧ st ≠ .timeout := by
    intro stream key c idx hput
    unfold putAtOrPlace at hput
    split at hput
    · split_ifs at hput <;> cases hput <;> exact ⟨nofun, nofun⟩
    · split at hput <;> cases hput
      exact ⟨nofun, nofun⟩
  unfold putItem at h
  split at h
  · split_ifs at h
    · cases h
      exact ⟨nofun, nofun⟩
    · exact hplace _ _ _ _ h
  · split_ifs at h
    · cases h
      exact ⟨nofun, nofun⟩
    · exact hplace _ _ _ _ h
  · split at h
    · split_ifs at h
      cases h
      exact ⟨nofun, nofun⟩
    · cases h
      exact ⟨nofun, nofun⟩
  · split at h
    · split_ifs at h
      cases h
      exact ⟨nofun, nofun⟩
    · cases h
      exact ⟨nofun, nofun⟩
  · cases h
    exact ⟨nofun, nofun⟩
  · cases h
    exact ⟨nofun, nofun⟩

theorem putItems_status {xs : List StbPutItem} {n : Nat} {is : List Nat} {st : Status} {s : State} (h : putItems xs n is s = .inl st) :
    st ≠ .restarted ∧ st ≠ .timeout := by
  induction xs generalizing n is s with
  | nil => cases h
  | cons x xs ih =>
    unfold putItems at h
    split at h
    · next hx =>
      cases h
      exact putItem_status hx
    · exact ih h

/-! ### Commits (R122, R123) -/

theorem admitAll_status {cs : List StbChange} {n : Nat} {st : Status} {s : State} (h : admitAll cs n s = some st) :
    st ≠ .restarted ∧ st ≠ .timeout := by
  induction cs generalizing n s with
  | nil => cases h
  | cons c cs ih =>
    unfold admitAll at h
    dsimp only at h
    generalize (if c.op = .move then n else n + 1) = m at h
    split_ifs at h
    · cases h
      exact ⟨nofun, nofun⟩
    · split at h
      · cases h
        exact ⟨nofun, nofun⟩
      · exact ih h
    · exact ih h

theorem commitDone_applyOp {s : State} (h : s.sw.applying ≠ []) : commitDone s = s := if_neg h

section
variable (r : Req) {s : State} (hidle : s.persist.importOp = none) (hop : s.sw.applyOp = none)
include hidle hop

/-- The state with an empty batch. -/
theorem opStbCommit_refused {st : Status} (hadmit : admitAll s.sw.batch 0 (committed s) = some st) :
    opStbCommit r s = refuse st (s.modSw fun w => { w with batch := [] }) := by
  rw [opStbCommit, hidle, hop, if_neg (by simp)]
  dsimp only
  rw [hadmit]

/-- The changes of the batch join those that wait to be applied (R123). -/
def State.committing (s : State) (batch : List StbChange) (h : Nat) : State :=
  s.modSw fun w => { w with applying := w.applying ++ batch, applyOp := some h }

theorem opStbCommit_ok (hadmit : admitAll s.sw.batch 0 (committed s) = none)
    (hsubs : subsShort (s.sw.batch.foldl (fun s c => afterChange c s) (committed s)) s = none) :
    opStbCommit r s = (configChanged (commitDone ((startLong r 0x0301 0 (s.modSw fun w => { w with batch := [] })).committing s.sw.batch s.handle)),
      { status := .accepted s.handle }) := by
  rw [opStbCommit, hidle, hop, if_neg (by simp)]
  dsimp only
  rw [hadmit]
  dsimp only
  rw [hsubs]
  rfl

end

theorem committing_sw (s : State) (batch : List StbChange) (h : Nat) : ∃ op, (commitDone (s.committing batch h)).sw =
    { s.sw with applying := s.sw.applying ++ batch, applyOp := op } ∧ (s.sw.applying ++ batch ≠ [] → op = some h) := by
  by_cases hne : s.sw.applying ++ batch = []
  · obtain ⟨op, hop⟩ := commitDone_sw (s.committing batch h)
    exact ⟨op, hop, fun h => absurd hne h⟩
  · refine ⟨some h, ?_, fun _ => rfl⟩
    rw [commitDone_applyOp (s := s.committing batch h) hne]
    rfl

/-- A commit that is accepted changes no entry yet (R123). -/
theorem committing_tables {s u : State} {batch : List StbChange} {h : Nat} (hu : configChanged (commitDone (s.committing batch h)) = u) :
    u.sw.batch = s.sw.batch ∧ u.sw.applying = s.sw.applying ++ batch ∧ u.sw.streams = s.sw.streams ∧ u.sw.fwd = s.sw.fwd
    ∧ u.sw.bitmaps = s.sw.bitmaps ∧ (u.sw.applying ≠ [] → u.sw.applyOp = some h) := by
  obtain ⟨op, hsw, hopen⟩ := committing_sw s batch h
  have hkept : u.sw = (commitDone (s.committing batch h)).sw := by rw [← hu]; rfl
  rw [hkept, hsw]
  exact ⟨rfl, rfl, rfl, rfl, rfl, hopen⟩

/-! ### Learning (R121, R122) -/

theorem opLearnAnswer_refused (r : Req) {id : Nat} (e : StreamEntry) {x : LearnRec} {s : State} (hx : learnRec id s = some x) :
    opLearnAnswer r id false e s = okRes [] (learnClose x.key s) := by
  rw [opLearnAnswer, hx]
  rfl

theorem opLearnAnswer_ok (r : Req) {id i : Nat} {e : StreamEntry} {x : LearnRec} {s t : State} (hx : learnRec id s = some x)
    (hgood : e.bad = false) (hage : e.ageCode < 14) (hadmit : admitLearned { e with key := x.key, rate := learnedRate x } s = .inr (i, t)) :
    opLearnAnswer r id true e s = okRes [i] (configChanged t) := by
  have hno : ¬ (e.bad = true ∨ 14 ≤ e.ageCode) := by simp [hgood, hage]
  rw [opLearnAnswer, hx]
  dsimp only
  rw [if_neg (by simp), if_neg hno, hadmit]

theorem opLearnRead_ok (r : Req) {id : Nat} {x : LearnRec} {s : State} (hx : learnRec id s = some x) :
    opLearnRead r id s = okRes [x.key.toNat, x.ports.toNat, x.stampAt, x.epoch, min x.frames (2 ^ 32 - 1), min x.octets (2 ^ 32 - 1)] s := by
  rw [opLearnRead, hx]

theorem learnClose_closed (key : BitVec 128) (s : State) : ∀ y ∈ (learnClose key s).sw.learn, y.key ≠ key := by
  intro y hy
  simpa using (List.mem_filter.mp hy).2

/-! ### Mirror sessions (R124, R138) -/

/-- A mirror session as MIR_CTL writes it. -/
def mirWritten (v : BitVec 32) : MirSession :=
  { cls := bits v 27 25, keepRed := bitOf v 24, srcTx := BitVec.ofNat 8 (bits v 23 16), srcRx := BitVec.ofNat 8 (bits v 15 8), dest := bits v 7 4,
    en := bitOf v 0 }

/-- The change that writes it. -/
def mirChange (n : Nat) (v : BitVec 32) : StbChange := { idx := n, op := .putMir, mir := mirWritten v }

theorem writeMirCtl_eq {v : BitVec 32} {s : State} (n : Nat) (h : mirCtlBad v s = false) :
    writeMirCtl n v s = applyOldest (s.modSw fun w => { w with applying := w.applying ++ [mirChange n v] }) := by
  rw [writeMirCtl, h]
  rfl

theorem opMirrorSession_ok (r : Req) {n : Nat} {v : BitVec 32} {s : State} (hn : n < 4) (h : mirCtlBad v s = false) :
    opMirrorSession r n v s = okRes [] (configChanged (applyOldest (s.modSw fun w => { w with applying := w.applying ++ [mirChange n v] }))) := by
  rw [opMirrorSession, if_neg (by omega), if_neg (by simp [h]), writeMirCtl_eq n h]

theorem afterChange_mir (c : StbChange) (s : State) :
    (afterChange c s).sw.mir = if c.op = .putMir then s.sw.mir.set c.idx c.mir else s.sw.mir := by
  unfold afterChange
  cases c.op with
  | remove =>
    dsimp only [State.modSw]
    split <;> rfl
  | move =>
    dsimp only [State.modSw]
    split <;> rfl
  | _ => rfl

theorem foldl_afterChange_mir_length (cs : List StbChange) (s : State) :
    (cs.foldl (fun s c => afterChange c s) s).sw.mir.length = s.sw.mir.length := by
  induction cs generalizing s with
  | nil => rfl
  | cons c cs ih =>
    rw [List.foldl_cons, ih, afterChange_mir]
    split
    · exact List.length_set
    · rfl

section
variable {s u : State} {idx : Nat}

theorem putStreamNow_mir {e : StreamEntry} (h : putStreamNow idx e s = some u) : u.sw.mir = s.sw.mir := by
  unfold putStreamNow at h
  dsimp only at h
  split_ifs at h <;> split at h
  any_goals split_ifs at h
  all_goals
    cases h
    rfl

theorem putFwdNow_mir {e : FwdEntry} (h : putFwdNow idx e s = some u) : u.sw.mir = s.sw.mir := by
  unfold putFwdNow at h
  dsimp only at h
  split_ifs at h <;> split at h
  any_goals split_ifs at h
  all_goals
    cases h
    rfl

theorem removeNow_mir (h : removeNow idx s = some u) : u.sw.mir = s.sw.mir := by
  unfold removeNow at h
  dsimp only at h
  split_ifs at h <;> cases h <;> rfl

theorem moveNow_mir {dest : Nat} (h : moveNow idx dest s = some u) : u.sw.mir = s.sw.mir := by
  unfold moveNow at h
  dsimp only at h
  split_ifs at h <;> cases h <;> rfl

theorem applyChange_mir_length {c : StbChange} (h : applyChange c s = some u) : u.sw.mir.length = s.sw.mir.length := by
  unfold applyChange at h
  split at h
  · rw [putStreamNow_mir h]
  · rw [putFwdNow_mir h]
  · split_ifs at h
    cases h
    rfl
  · split_ifs at h
    cases h
    exact List.length_set
  · rw [removeNow_mir h]
  · rw [moveNow_mir h]

end

/-- A change of a mirror session that waits last is in the tables once every committed change is applied. -/
theorem committed_mir {n : Nat} {v : BitVec 32} {cs : List StbChange} {s : State} (hcs : s.sw.applying = cs ++ [mirChange n v])
    (hn : n < s.sw.mir.length) : (committed s).sw.mir[n]? = some (mirWritten v) := by
  have hset : (committed s).sw.mir = (cs.foldl (fun s c => afterChange c s) s).sw.mir.set n (mirWritten v) := by
    rw [committed, hcs, List.foldl_append]
    exact (afterChange_mir (mirChange n v) _).trans (if_pos rfl)
  rw [hset, List.getElem?_set_self (by rw [foldl_afterChange_mir_length]; exact hn)]

theorem applyOldest_none {c : StbChange} {cs : List StbChange} {s : State} (hcs : s.sw.applying = c :: cs) (h : applyChange c s = none) :
    applyOldest s = s := by
  rw [applyOldest, hcs]
  dsimp only
  rw [h]

theorem applyOldest_some {c : StbChange} {cs : List StbChange} {s u : State} (hcs : s.sw.applying = c :: cs) (h : applyChange c s = some u) :
    applyOldest s = commitDone (u.modSw fun w => { w with applying := cs }) := by
  rw [applyOldest, hcs]
  dsimp only
  rw [h]

/-- A mirror session is in the tables once every change is applied, whether it is applied at once or waits (R124). -/
theorem mirWritten_committed {n : Nat} {v : BitVec 32} {cs : List StbChange} {s : State} (hcs : s.sw.applying = cs ++ [mirChange n v])
    (hn : n < s.sw.mir.length) : (committed (applyOldest s)).sw.mir[n]? = some (mirWritten v) := by
  cases cs with
  | nil =>
    cases happly : applyChange (mirChange n v) s with
    | none =>
      rw [applyOldest_none hcs happly]
      exact committed_mir hcs hn
    | some u =>
      obtain ⟨op, hop⟩ := commitDone_sw (u.modSw fun w => { w with applying := [] })
      rw [applyOldest_some hcs happly, committed, hop]
      rw [applyChange_putMir rfl] at happly
      split at happly
      · cases happly
      · cases happly
        exact (congrArg (fun w : Switch => w.mir[n]?) hop).trans (List.getElem?_set_self hn)
  | cons d cs =>
    cases happly : applyChange d s with
    | none =>
      rw [applyOldest_none hcs happly]
      exact committed_mir hcs hn
    | some u =>
      have hlast : applyOldest s = u.modSw fun w => { w with applying := cs ++ [mirChange n v] } := by
        rw [applyOldest_some (cs := cs ++ [mirChange n v]) hcs happly]
        exact commitDone_applyOp (by simp [State.modSw])
      rw [hlast]
      refine committed_mir (cs := cs) rfl ?_
      have hlen := applyChange_mir_length happly
      exact hlen ▸ hn

section
variable {n : Nat} {v : BitVec 32} {s : State} (hidle : s.sw.applying = [])
include hidle

theorem mirWaits (hheld : mirHeld n s = true) : applyOldest (s.modSw fun w => { w with applying := w.applying ++ [mirChange n v] })
    = s.modSw fun w => { w with applying := w.applying ++ [mirChange n v] } := by
  refine applyOldest_none (c := mirChange n v) (cs := []) ?_ ?_
  · exact congrArg (· ++ [mirChange n v]) hidle
  · exact (applyChange_putMir rfl).trans (if_pos hheld)

omit hidle in
theorem commitDone_idle {u : State} (hdone : u.sw.applying = []) (hop : u.sw.applyOp = none) :
    commitDone u = refreshAllOver (u.modSw fun w => { w with applyOp := none }) := by
  rw [commitDone, if_pos hdone, hop]
  rfl

/-- Where nothing waits and no copy needs the session as it was, it is written at once. -/
theorem mirApplied (hop : s.sw.applyOp = none) (hheld : mirHeld n s = false) :
    applyOldest (s.modSw fun w => { w with applying := w.applying ++ [mirChange n v] })
      = refreshAllOver (s.modSw fun w => { w with mir := w.mir.set n (mirWritten v), applying := [], applyOp := none }) := by
  have happly : applyChange (mirChange n v) (s.modSw fun w => { w with applying := w.applying ++ [mirChange n v] })
      = some ((s.modSw fun w => { w with applying := w.applying ++ [mirChange n v] }).modSw fun w => { w with mir := w.mir.set n (mirWritten v) }) :=
    (applyChange_putMir rfl).trans (if_neg (by rw [Bool.eq_false_iff] at hheld; exact hheld))
  rw [applyOldest_some (c := mirChange n v) (cs := []) (congrArg (· ++ [mirChange n v]) hidle) happly]
  have hput : (((s.modSw fun w => { w with applying := w.applying ++ [mirChange n v] }).modSw fun w => { w with
      mir := w.mir.set n (mirWritten v) }).modSw fun w => { w with applying := [] })
      = s.modSw fun w => { w with mir := w.mir.set n (mirWritten v), applying := [] } := rfl
  rw [hput, commitDone_idle (u := s.modSw fun w => { w with mir := w.mir.set n (mirWritten v), applying := [] }) rfl hop]
  rfl

/-- The switch then is as before but for the session. -/
theorem mirApplied_sw (hop : s.sw.applyOp = none) :
    Only [.sw, .insts, .bki, .evr, .mbx] s
      (refreshAllOver (s.modSw fun w => { w with mir := w.mir.set n (mirWritten v), applying := [], applyOp := none }))
    ∧ (refreshAllOver (s.modSw fun w => { w with mir := w.mir.set n (mirWritten v), applying := [], applyOp := none })).sw
      = { s.sw with mir := s.sw.mir.set n (mirWritten v) } := by
  have hkept : ({ s.sw with applying := [], applyOp := none } : Switch) = s.sw := by rw [← hidle, ← hop]
  have hsw : (s.modSw fun w => { w with mir := w.mir.set n (mirWritten v), applying := [], applyOp := none }).sw
      = { s.sw with mir := s.sw.mir.set n (mirWritten v) } := (congrArg (fun w : Switch => { w with mir := w.mir.set n (mirWritten v) }) hkept :)
  have honly : Only [.sw] s (s.modSw fun w => { w with mir := w.mir.set n (mirWritten v), applying := [], applyOp := none }) :=
    State.modSw_only _ (Only.refl _ s) (by simp)
  generalize (s.modSw fun w => { w with mir := w.mir.set n (mirWritten v), applying := [], applyOp := none }) = u at hsw honly
  have hrest : Only [.insts, .bki, .evr, .mbx] u (refreshAllOver u) := refreshAllOver_only _ (Only.refl _ u) (by simp)
  exact ⟨(honly.mono (by simp)).trans (hrest.mono (by simp)), (hrest.same .sw (by decide)).trans hsw⟩

end

/-! ### Rings of the host, and counters -/

theorem opHostRxring_ok (r : Req) {k n b : Nat} (a : Nat) (s : State) (hk : k < 16) (hn : pow2In 16 n 4096 = true) (hb : bufLenOk b = true) :
    opHostRxring r k a n b s = okRes [] (s.modMbx fun m => { m with
      hostRings := m.hostRings.set k { base := a, size := n, bufLen := b }
      statReaders := (List.range 4).foldl (fun t r =>
        (t.del (totalKey r .switch (64 + 2 * k))).del (totalKey r .switch (65 + 2 * k))) m.statReaders }) := by
  rw [opHostRxring, if_neg (by omega), if_neg (by simp [hn]), if_neg (by simp [hb])]

theorem opStats_ok (r : Req) {p : CntPage} {k : Nat} (s : State) (hp : p.exists_ = true) (hk : k < 4) :
    opStats r p k s = okRes (readTotals p k (snapshot p s) ++ ringTotals p k (snapshot p s)) (totalsGiven p k (snapshot p s)) := by
  rw [opStats, if_neg (by simp [hp]), if_neg (by omega)]

theorem CntPage.count_le (p : CntPage) : p.count ≤ 64 := by cases p <;> simp [CntPage.count]

theorem foldl_del_get (l : List Nat) (f : Nat → Nat) (t : Tbl Nat) {j : Nat} (hj : t.get j 0 = 0 ∨ j ∈ l.map f) :
    (l.foldl (fun t k => t.del (f k)) t).get j 0 = 0 := by
  induction l generalizing t with
  | nil => simpa using hj
  | cons k l ih =>
    rw [List.foldl_cons]
    refine ih _ ?_
    rw [Tbl.get_del]
    by_cases h : j = f k
    · simp [h]
    · simpa [h] using hj

theorem foldl_set_get {α : Type} (l : List α) (f g : α → Nat) (t : Tbl Nat) {j : Nat} (hj : ∀ a ∈ l, j ≠ f a) :
    (l.foldl (fun t a => t.set (f a) (g a)) t).get j 0 = t.get j 0 := by
  induction l generalizing t with
  | nil => rfl
  | cons a l ih => rw [List.foldl_cons, ih _ fun b hb => hj b (by simp [hb]), Tbl.get_set_other _ _ _ (hj a (by simp))]

/-- A reader that has been given a page's totals has them at 0. -/
theorem totalsGiven_total (p : CntPage) (k : Nat) (s : State) {n : Nat} (hn : n < p.count) :
    (totalsGiven p k s).mbx.statReaders.get (totalKey k p n) 0 = 0 := by
  have hdel : ((List.range p.count).foldl (fun t k' => t.del (totalKey k p k')) s.mbx.statReaders).get (totalKey k p n) 0 = 0 :=
    foldl_del_get _ (totalKey k p) _ (.inr (List.mem_map.mpr ⟨n, List.mem_range.mpr hn, rfl⟩))
  have hread : (totalsGiven p k s).mbx.statReaders = if p = .switch
      then (hostRingCounts s).zipIdx.foldl (fun t c => t.set (totalKey k p (64 + c.2)) c.1)
        ((List.range p.count).foldl (fun t k' => t.del (totalKey k p k')) s.mbx.statReaders)
      else (List.range p.count).foldl (fun t k' => t.del (totalKey k p k')) s.mbx.statReaders := rfl
  rw [hread]
  generalize (hostRingCounts s).zipIdx = l
  split
  · refine (foldl_set_get _ (fun c => totalKey k p (64 + c.2)) Prod.fst _ fun c _ => ?_).trans hdel
    have hle := p.count_le
    simp only [totalKey, ne_eq]
    omega
  · exact hdel

end Sys2Proof.Machine
end

section
/-!
PROOFS. What the requests of the conditioning family (R462) write: groups with their contexts, presets, subscriptions and rings.
-/
namespace Sys2Proof.Machine
open Sys2Proof

/-! ### The groups and contexts through an event -/

/-- The groups, those but for the subscribers of group `g`, and the contexts. -/
structure Descs where
  /-- the groups. -/
  group : Nat → Group
  /-- the contexts. -/
  ctx : Nat → Ctx

/-- What the state holds of them: an event of group `g` may end stale subscriptions of that group (R166). -/
def State.descs (g : Nat) (s : State) : Descs :=
  { group := fun j => if j = g then { s.group j with subs := [] } else s.group j, ctx := s.ctx }

section
variable {g : Nat} {s t : State}

theorem descs_of_tables (hg : t.sce.groups = s.sce.groups) (hc : t.sce.ctxs = s.sce.ctxs) : t.descs g = s.descs g := by
  have hgroup : t.group = s.group := funext fun j => by rw [State.group, State.group, hg]
  have hctx : t.ctx = s.ctx := funext fun n => by rw [State.ctx, State.ctx, hc]
  rw [State.descs, State.descs, hgroup, hctx]

theorem descs_of_only {ps : List Part} (h : Only ps s t) (hp : Part.sce ∉ ps) : t.descs g = s.descs g := by
  have hsce : t.sce = s.sce := h.same .sce hp
  exact descs_of_tables (by rw [hsce]) (by rw [hsce])

theorem group_of_descs (h : t.descs g = s.descs g) {j : Nat} (hj : j ≠ g) : t.group j = s.group j := by
  have hgroup := congrFun (congrArg Descs.group h) j
  simpa only [State.descs, if_neg hj] using hgroup

theorem own_of_descs (h : t.descs g = s.descs g) : { t.group g with subs := [] } = { s.group g with subs := [] } := by
  have hgroup := congrFun (congrArg Descs.group h) g
  simpa only [State.descs, if_true] using hgroup

theorem ctx_of_descs (h : t.descs g = s.descs g) (n : Nat) : t.ctx n = s.ctx n := congrFun (congrArg Descs.ctx h) n

end

section
variable (g : Nat) (s : State)

theorem sceCount_descs (i n : Nat) : (sceCount i s n).descs g = s.descs g := descs_of_tables rfl rfl

theorem ringWrite_descs (i r : Nat) (mk : Nat → List Byte) : (ringWrite i r mk s).descs g = s.descs g := by
  unfold ringWrite
  split
  · rfl
  · have hwrite : ∀ a l u, (lsWrite i a l u).descs g = u.descs g := fun a l u => descs_of_only (ps := [.insts, .mlk]) (by simp) (by decide)
    have hring : ∀ (u : State) k q, (u.modSce fun c => { c with rings := c.rings.set k q }).descs g = u.descs g := fun u k q =>
      descs_of_tables rfl rfl
    dsimp only
    rw [hring, hwrite, hwrite]

theorem setGroup_descs (f : Group → Group) (hf : { f (s.group g) with subs := [] } = { s.group g with subs := [] }) :
    (s.setGroup g f).descs g = s.descs g := by
  have hgroup : (fun j => if j = g then { (s.setGroup g f).group j with subs := [] } else (s.setGroup g f).group j)
      = fun j => if j = g then { s.group j with subs := [] } else s.group j := by
    funext j
    split
    case isTrue hj => rw [hj, State.group_setGroup_same, hf]
    case isFalse hj => rw [State.group_setGroup_other _ _ hj]
  rw [State.descs, State.descs, hgroup]
  rfl

theorem dropStale_descs : (dropStale g s).descs g = s.descs g := by
  unfold dropStale
  dsimp only
  split
  · rfl
  · rw [sceCount_descs]
    exact setGroup_descs g s _ rfl

theorem sceEvent_descs (e : EventBody) : (sceEvent g e s).descs g = s.descs g := by
  unfold sceEvent
  dsimp only
  generalize List.filter _ _ = l
  rw [← dropStale_descs g s]
  generalize dropStale g s = u
  induction l generalizing u with
  | nil => rfl
  | cons i l ih => rw [List.foldl_cons, ih, sceCount_descs, ringWrite_descs]

theorem thrEvent_descs (n thr type smp : Nat) (t : Thr) (value : Int) (config : Bool) :
    (thrEvent g n thr type smp t value config s).descs g = s.descs g := by
  have hevent : ∀ e, (if fld t.dest 0 0 = 1 then sceEvent g e (sceCount (if type = 1 then 14 else 15) s 1)
      else sceCount (if type = 1 then 14 else 15) s 1).descs g = s.descs g := fun e => by
    split
    · rw [sceEvent_descs, sceCount_descs]
    · exact sceCount_descs ..
  have htrigger : ∀ (t : AcqTrig) p u, (acqTrigger t p u).descs g = u.descs g := fun t p u => descs_of_only (ps := [.acq]) (by simp) (by decide)
  unfold thrEvent
  dsimp only
  split
  · rw [htrigger]
    exact hevent _
  · exact hevent _

theorem configClear_descs (n thr : Nat) (was now : Thr) : (configClear g n thr was now s).descs g = s.descs g := by
  unfold configClear
  split
  · rw [thrEvent_descs]
    exact descs_of_only (ps := [.free]) (State.took_only _ (State.took_only _ (Only.refl _ s) (by simp)) (by simp)) (by decide)
  · rfl

end

/-! ### A group written with its contexts (R167) -/

theorem State.ctx_setCtx (s : State) (n m : Nat) (f : Ctx → Ctx) : (s.setCtx n f).ctx m = if m = n then f (s.ctx m) else s.ctx m := by
  rw [State.ctx, State.setCtx]
  refine (Tbl.get_set ..).trans ?_
  split
  case isTrue h => rw [h]; rfl
  case isFalse => rfl

/-- The writing of one context: its record takes the one given, with an open place for its history. -/
theorem writeCtx_ctx (g n rate : Nat) (c : Ctx) (s : State) (m : Nat) :
    (writeCtx g n rate c s).ctx m = if m = n then (s.ctx m).write c rate s.free1 else s.ctx m := by
  rw [writeCtx, ctx_of_descs (configClear_descs ..), ctx_of_descs (configClear_descs ..), State.ctx_setCtx]
  rfl

theorem writeCtx_group (g n rate : Nat) (c : Ctx) (s : State) : (∀ j, j ≠ g → (writeCtx g n rate c s).group j = s.group j)
    ∧ { (writeCtx g n rate c s).group g with subs := [] } = { s.group g with subs := [] } := by
  have hset : ((s.took.setCtx n fun x => x.write c rate s.free1)).group = s.group := rfl
  have hdescs := (configClear_descs g (configClear g n 0 (s.ctx n).t0 c.t0 (s.took.setCtx n fun x => x.write c rate s.free1)) n 1 (s.ctx n).t1
    c.t1).trans (configClear_descs g _ n 0 (s.ctx n).t0 c.t0)
  refine ⟨fun j hj => (group_of_descs hdescs hj).trans (congrFun hset j), ?_⟩
  exact (own_of_descs hdescs).trans (by rw [hset])

/-- A context written with some open place for its history. -/
def Ctx.Written (c : Ctx) (rate : Nat) (x y : Ctx) : Prop := ∃ base, y = x.write c rate base

section
variable (g f rate : Nat)

/-- The contexts of a group written one after the other, from place `m` on. -/
def writeCtxs (l : List (Ctx × Nat)) (s : State) : State := l.foldl (fun s p => writeCtx g (f + p.2) rate p.1 s) s

theorem writeCtxs_group (l : List (Ctx × Nat)) (s : State) : (∀ j, j ≠ g → (writeCtxs g f rate l s).group j = s.group j)
    ∧ { (writeCtxs g f rate l s).group g with subs := [] } = { s.group g with subs := [] } := by
  induction l generalizing s with
  | nil => exact ⟨fun _ _ => rfl, rfl⟩
  | cons p l ih =>
    obtain ⟨hother, hown⟩ := ih (writeCtx g (f + p.2) rate p.1 s)
    obtain ⟨hother', hown'⟩ := writeCtx_group g (f + p.2) rate p.1 s
    exact ⟨fun j hj => (hother j hj).trans (hother' j hj), hown.trans hown'⟩

theorem writeCtxs_ctx_other (cs : List Ctx) (m : Nat) (s : State) {n : Nat} (hn : n < f + m ∨ f + m + cs.length ≤ n) :
    (writeCtxs g f rate (cs.zipIdx m) s).ctx n = s.ctx n := by
  induction cs generalizing m s with
  | nil => rfl
  | cons c cs ih =>
    rw [List.length_cons] at hn
    have hstep := ih (m + 1) (writeCtx g (f + m) rate c s) (by omega)
    rw [writeCtx_ctx, if_neg (by omega)] at hstep
    exact hstep

theorem writeCtxs_ctx (cs : List Ctx) (m : Nat) (s : State) {k : Nat} {c : Ctx} (hc : cs[k]? = some c) :
    c.Written rate (s.ctx (f + m + k)) ((writeCtxs g f rate (cs.zipIdx m) s).ctx (f + m + k)) := by
  induction cs generalizing m s k with
  | nil => cases hc
  | cons d cs ih =>
    have hcons : writeCtxs g f rate ((d :: cs).zipIdx m) s = writeCtxs g f rate (cs.zipIdx (m + 1)) (writeCtx g (f + m) rate d s) := rfl
    rw [hcons]
    cases k with
    | zero =>
      cases hc
      rw [writeCtxs_ctx_other _ _ _ _ _ _ (.inl (by omega)), writeCtx_ctx, if_pos (Nat.add_zero _)]
      exact ⟨_, rfl⟩
    | succ k =>
      have hstep := ih (m + 1) (writeCtx g (f + m) rate d s) (k := k) hc
      rw [show f + (m + 1) + k = f + m + (k + 1) by omega, writeCtx_ctx, if_neg (by omega)] at hstep
      exact hstep

end

theorem writeGroup_eq (g : Nat) (d : Group) (cs : List Ctx) (s : State) :
    writeGroup g d cs s = writeCtxs g d.firstCtx d.rate (cs.zipIdx 0) (s.setGroup g fun x => x.write d s) := rfl

theorem writeGroup_group (g : Nat) (d : Group) (cs : List Ctx) (s : State) : (∀ j, j ≠ g → (writeGroup g d cs s).group j = s.group j)
    ∧ { (writeGroup g d cs s).group g with subs := [] } = { (s.group g).write d s with subs := [] } := by
  obtain ⟨hother, hown⟩ := writeCtxs_group g d.firstCtx d.rate (cs.zipIdx 0) (s.setGroup g fun x => x.write d s)
  rw [writeGroup_eq]
  refine ⟨fun j hj => (hother j hj).trans (State.group_setGroup_other _ _ hj), hown.trans ?_⟩
  rw [State.group_setGroup_same]

theorem writeGroup_ctx {g : Nat} {d : Group} {cs : List Ctx} (s : State) {k : Nat} {c : Ctx} (hc : cs[k]? = some c) :
    c.Written d.rate (s.ctx (d.firstCtx + k)) ((writeGroup g d cs s).ctx (d.firstCtx + k)) :=
  writeCtxs_ctx g d.firstCtx d.rate cs 0 (s.setGroup g fun x => x.write d s) hc

theorem writeGroup_ctx_other {g : Nat} {d : Group} {cs : List Ctx} (s : State) {n : Nat} (hn : n < d.firstCtx ∨ d.firstCtx + cs.length ≤ n) :
    (writeGroup g d cs s).ctx n = s.ctx n :=
  writeCtxs_ctx_other g d.firstCtx d.rate cs 0 (s.setGroup g fun x => x.write d s) hn

theorem told_sce (s : State) : (configChanged (refreshAllOver s)).sce = s.sce :=
  (configChanged_only (qs := [.insts, .bki, .evr, .mbx, .persist]) _ (refreshAllOver_only _ (Only.refl _ s) (by simp)) (by simp)).same .sce
    (by decide)

theorem told_only_rest (s : State) : Only [.insts, .bki, .evr, .mbx, .persist] s (configChanged (refreshAllOver s)) :=
  configChanged_only _ (refreshAllOver_only _ (Only.refl _ s) (by simp)) (by simp)

theorem told_fwUp (s : State) : (configChanged (refreshAllOver s)).persist.fwUp = s.persist.fwUp :=
  (congrArg Persist.fwUp ((refreshAllOver_only (qs := [.insts, .bki, .evr, .mbx]) s (Only.refl _ s) (by simp)).same .persist (by decide)) :)

/-- The subscribers of a group written, and OVER told: no other group and no context changes. -/
theorem told_subs (s : State) (g : Nat) (f : Group → Group) :
    (configChanged (refreshAllOver (s.setGroup g f))).group g = f (s.group g)
    ∧ (∀ j, j ≠ g → (configChanged (refreshAllOver (s.setGroup g f))).group j = s.group j)
    ∧ (configChanged (refreshAllOver (s.setGroup g f))).sce.ctxs = s.sce.ctxs := by
  simp only [State.group, told_sce]
  exact ⟨State.group_setGroup_same s g f, fun j hj => State.group_setGroup_other s f hj, rfl⟩

theorem batchTold_groups (g : Nat) (s : State) : (batchUsed g (configChanged (refreshAllOver s))).group = s.group
    ∧ (batchUsed g (configChanged (refreshAllOver s))).ctx = s.ctx := by
  have hgroups : (batchUsed g (configChanged (refreshAllOver s))).sce.groups = s.sce.groups := by
    rw [batchUsed, State.modSce, told_sce]
  have hctxs : (batchUsed g (configChanged (refreshAllOver s))).sce.ctxs = s.sce.ctxs := by
    rw [batchUsed, State.modSce, told_sce]
  exact ⟨funext fun j => by rw [State.group, State.group, hgroups], funext fun n => by rw [State.ctx, State.ctx, hctxs]⟩

/-! ### GROUP_SET (R155, R167 to R170) -/

/-- The presets that the histories of a group's contexts must hold. -/
def Group.presetsHeld (d : Group) (old : Nat) : List Nat := (if d.en then [old] else []) ++ if d.pend then [d.pendPreset] else []

section
variable {g : Nat} {d : Group} {cs : List Ctx} {s : State}

theorem groupSet_ok (hbad : d.bad (s.group g).preset = false) (hlen : cs.length = d.nch)
    (hcs : ∀ c ∈ cs, c.refused (d.presetsHeld (s.group g).preset) = false)
    (hsubs : ∀ x ∈ d.subs, x.valid = true → subNames x.inst x.gen s = none ∧ ringRefused x.inst x.ring d.nch s = false)
    (hadmit : groupAdmit (writeGroup g d cs s) s = none) :
    groupSet g d cs s = (configChanged (refreshAllOver (writeGroup g d cs s)),
      { status := if d.pend && (s.group g).pend then .okReplaced else .ok }) := by
  have hctx : ¬ (cs.length ≠ d.nch ∨ cs.any (fun c => c.refused (d.presetsHeld (s.group g).preset)) = true) := by simpa [hlen] using hcs
  have hnames : (d.subs.findSome? fun x => if x.valid then subNames x.inst x.gen s else none) = none := by
    rw [List.findSome?_eq_none_iff]
    intro x hx
    split
    · exact (hsubs x hx ‹_›).1
    · rfl
  have hrings : ¬ (d.subs.any fun x => x.valid && ringRefused x.inst x.ring d.nch s) = true := by
    simp only [List.any_eq_true, Bool.and_eq_true, not_exists, not_and]
    intro x hx hv
    simp [(hsubs x hx hv).2]
  rw [groupSet]
  dsimp only
  rw [if_neg (by simp [hbad])]
  refine (if_neg hctx).trans ?_
  rw [hnames]
  dsimp only
  rw [if_neg hrings, hadmit]

/-- The result of GROUP_SET where it is not refused. -/
theorem opGroupSet_ok (r : Req) (hg : g < 1024) (hidle : s.persist.importOp = none) (hb : importBatch g s = none ∨ cs ≠ [])
    (hset : groupSet g d cs s = (configChanged (refreshAllOver (writeGroup g d cs s)),
      { status := if d.pend && (s.group g).pend then .okReplaced else .ok })) :
    opGroupSet r g d cs s = (batchUsed g (configChanged (refreshAllOver (writeGroup g d cs s))),
      { status := if d.pend && (s.group g).pend then .okReplaced else .ok }) := by
  have hdone : (if d.pend && (s.group g).pend then Status.okReplaced else .ok) = .ok
      ∨ (if d.pend && (s.group g).pend then Status.okReplaced else .ok) = .okReplaced := by
    split
    · exact .inr rfl
    · exact .inl rfl
  rw [opGroupSet, if_neg (by omega), if_neg (by simp [hidle])]
  dsimp only
  cases hx : importBatch g s with
  | none =>
    dsimp only
    rw [hset]
    exact if_pos hdone
  | some b =>
    have hcs : cs ≠ [] := hb.resolve_left (by simp [hx])
    simp only [if_neg hcs, hset]
    exact if_pos hdone

end

/-! ### Presets, subscriptions and rings -/

theorem opPresetChange_ok (r : Req) {g p : Nat} {s : State} (hg : g < 1024) (hp : p ≤ 4)
    (htaps : ∀ n ∈ (s.group g).ctxNums, presetTaps p ≤ presetTaps (s.ctx n).histClass)
    (hadmit : groupAdmit (s.setGroup g fun x => { x with pendPreset := p, pend := true }) s = none) :
    opPresetChange r g p s = (configChanged (s.setGroup g fun x => { x with pendPreset := p, pend := true }),
      { status := if (s.group g).pend then .okReplaced else .ok }) := by
  have hshort : ¬ (4 < p ∨ (s.group g).ctxNums.any (fun n => decide (presetTaps (s.ctx n).histClass < presetTaps p)) = true) := by
    have hp' : ¬ 4 < p := by omega
    simpa [hp'] using htaps
  rw [opPresetChange]
  dsimp only
  rw [if_neg (by omega), if_neg hshort, hadmit]

theorem opSubscribe_none (r : Req) {g n : Nat} (s : State) (hg : g < 1024) (hn : n < 8) :
    opSubscribe r g n none s = okRes [] (configChanged (refreshAllOver (s.setGroup g fun x => x.putSub n {}))) := by
  rw [opSubscribe, if_neg (by omega), if_neg (by omega)]

theorem opSubscribe_some (r : Req) {g n i gn q : Nat} {s : State} (hg : g < 1024) (hn : n < 8) (hnames : subNames i gn s = none) (hq : q ≤ 3)
    (hring : ringRefused i q (s.group g).nch s = false)
    (hadmit : groupAdmit (s.setGroup g fun x => x.putSub n (subEntry i gn q x.nch s)) s = none) :
    opSubscribe r g n (some (i, gn, q)) s
      = okRes [] (configChanged (refreshAllOver (s.setGroup g fun x => x.putSub n (subEntry i gn q x.nch s)))) := by
  have hno : ¬ (3 < q ∨ ringRefused i q (s.group g).nch s = true) := by simp [hring, hq]
  rw [opSubscribe, if_neg (by omega), if_neg (by omega)]
  dsimp only
  rw [hnames]
  dsimp only
  rw [if_neg hno, hadmit]

/-- A ring with its control block after the last slot (R161). -/
def ringAt (q a n w : Nat) : SampleRing :=
  { addr := a, slots := n, words := if q = 4 then 1 else w, ctl := a + 16 * (if q = 4 then 1 else w) * n }

/-- The ring of an instance registered. -/
def State.ringPut (s : State) (i q a n w : Nat) : State :=
  s.modSce fun c => { c with rings := c.rings.set (5 * i + q) (ringAt q a n w) }

theorem opRingRegister_ok {r : Req} {i q a n w : Nat} {s : State} (hi : r.i = i) (hopen : s.instBusy i = false) (hq : q ≤ 4)
    (hsize : pow2In 16 n 4096 = true) (hw : q ≠ 4 → within 2 w 9 = true)
    (hfree : ringFree i a (16 * (if q = 4 then 1 else w) * n + 16) (s.modSce fun c => { c with rings := c.rings.del (5 * i + q) }) = true) :
    opRingRegister r q a n w s = okRes [] (if q = 4 then s.ringPut i q a n w else revalidate i q (s.ringPut i q a n w)) := by
  have hwords : ¬ (q ≠ 4 ∧ (!within 2 w 9) = true) := fun h => by simp [hw h.1] at h
  rw [opRingRegister, hi]
  dsimp only
  rw [onInst_open hopen, if_neg (by omega), if_neg (by simp [hsize]), if_neg hwords, hfree, if_neg (by simp)]
  rfl

/-- The rings and contexts once a ring is registered: subscribers alone may become valid with it. -/
theorem ringPut_sce (s : State) (i q a n w : Nat) : ∃ gs, (if q = 4 then s.ringPut i q a n w else revalidate i q (s.ringPut i q a n w)).sce =
    { s.sce with rings := s.sce.rings.set (5 * i + q) (ringAt q a n w), groups := gs } := by
  split
  · exact ⟨_, rfl⟩
  · exact ⟨_, rfl⟩

theorem ringPut_only (s : State) (i q a n w : Nat) :
    Only [.sce] s (if q = 4 then s.ringPut i q a n w else revalidate i q (s.ringPut i q a n w)) := by
  have hput : Only [.sce] s (s.ringPut i q a n w) := State.modSce_only _ (Only.refl _ s) (by simp)
  split
  · exact hput
  · exact revalidate_only _ _ _ hput (by simp)

theorem ring_set {s : State} {i q : Nat} {x : SampleRing} {t : Tbl SampleRing} (h : s.sce.rings = t.set (5 * i + q) x) : s.ring i q = some x := by
  have hhas : (t.set (5 * i + q) x).has (5 * i + q) = true := by rw [Tbl.has_set, beq_self_eq_true, Bool.true_or]
  rw [State.ring, h, if_pos hhas, Tbl.get_set_same]

end Sys2Proof.Machine
end

section
/-!
PROOFS. The requests of the streams and switch family (R461), with those of the conditioning family (R462): O56.
-/
namespace Sys2Proof.Machine
open Sys2Proof

/-- The tables once every committed change is applied depend on the switch alone. -/
theorem committed_sw {s t : State} (h : t.sw = s.sw) : (committed t).sw = (committed s).sw := by
  have hfold : ∀ (cs : List StbChange) (x y : State), x.sw = y.sw →
      (cs.foldl (fun s c => afterChange c s) x).sw = (cs.foldl (fun s c => afterChange c s) y).sw := by
    intro cs
    induction cs with
    | nil => exact fun _ _ h => h
    | cons c cs ih =>
      intro x y hxy
      refine ih _ _ ?_
      unfold afterChange
      dsimp only [State.modSw]
      rw [hxy]
  rw [committed, committed, h]
  exact hfold _ _ _ h

/-- Settles O56: what each operation writes, on the state in which its request is taken. -/
theorem switchAndConditioningRequests : Obligations.SwitchAndConditioningRequests := by
  unfold Obligations.SwitchAndConditioningRequests
  refine ⟨?_, ?_, ?_, ?_, ?_, ?_, ?_, ?_, ?_, ?_, ?_, ?_, ?_, ?_, ?_, ?_, ?_, ?_, ?_, ?_, ?_, ?_, ?_, ?_, ?_, ?_, ?_⟩
  case refine_1 =>
    intro r cs is t s hclear hlen hidle hput hroom
    refine hclear.served rfl ⟨nofun, nofun⟩ fun ps htake => ?_
    rw [htake] at hput ⊢
    obtain ⟨⟨ds, rfl⟩, hcount⟩ := putItems_batched hput
    have hcount' : is.length = cs.length := by simpa using hcount
    exact ⟨_, opStbPut_ok r (s := s.withPairs ps) hlen hidle hput hroom, hclear.fwUp, batched_only _ _ (Only.refl _ _) (by simp), rfl, hcount',
      ds, rfl⟩
  case refine_2 =>
    intro r i b s hclear hidle hlow hhigh hroom
    refine hclear.served rfl ⟨nofun, nofun⟩ fun ps htake => ?_
    have hsize : (batched [{ idx := i, op := .putBitmap, bitmap := b }] (s.withPairs ps)).sw.batch.length ≤ 256 := by
      have hlen : (batched [{ idx := i, op := .putBitmap, bitmap := b }] (s.withPairs ps)).sw.batch.length = s.sw.batch.length + 1 :=
        List.length_append
      omega
    rw [htake]
    exact ⟨_, opStbPut_ok r (s := s.withPairs ps) (by simp) hidle (putItems_bitmap b hlow hhigh (s.withPairs ps)) hsize, hclear.fwUp,
      batched_only _ _ (Only.refl _ _) (by simp), rfl⟩
  case refine_3 =>
    intro r cs st s hclear hlen hidle hput
    obtain ⟨k, hsrc, -⟩ := id hclear
    refine hclear.served rfl (putItems_status hput) fun ps htake => ?_
    rw [htake] at hput ⊢
    exact ⟨_, opStbPut_refused r (s := s.withPairs ps) hlen hidle hput, hclear.fwUp, rfl⟩
  case refine_4 =>
    intro r base s hclear hidle hop hbase hadmit hsubs
    obtain ⟨k, hsrc, -⟩ := id hclear
    refine hclear.served rfl ⟨nofun, nofun⟩ fun ps htake => ?_
    rw [htake] at hbase hsubs ⊢
    subst hbase
    obtain ⟨f, hf⟩ := startLong_of_host hsrc 0x0301 0 ((s.withPairs ps).modSw fun w => { w with batch := [] })
    have hanswer := opStbCommit_ok r (s := s.withPairs ps) hidle hop hadmit hsubs
    rw [hf] at hanswer
    have honly : Only [.sw, .insts, .bki, .evr, .mbx, .mon] (s.withPairs ps) (commitDone ((((s.withPairs ps).modSw fun w => { w with
        batch := [] }).modMbx f).committing s.sw.batch s.handle)) :=
      commitDone_only _ (State.modSw_only _ (State.modMbx_only _ (State.modSw_only _ (Only.refl _ _) (by simp)) (by simp)) (by simp)) (by simp)
    have hpersist := honly.same .persist (by decide)
    refine ⟨_, hanswer, ?_, configChanged_only _ (honly.mono (by simp)) (by simp), ?_⟩
    · exact (congrArg Persist.fwUp hpersist).trans hclear.fwUp
    · exact committing_tables (s := ((s.withPairs ps).modSw fun w => { w with batch := [] }).modMbx f) rfl
  case refine_5 =>
    intro r base st s hclear hidle hop hbase hadmit
    refine hclear.served rfl (admitAll_status hadmit) fun ps htake => ?_
    rw [htake] at hbase ⊢
    subst hbase
    exact ⟨_, opStbCommit_refused r (s := s.withPairs ps) hidle hop hadmit, hclear.fwUp, State.modSw_only _ (Only.refl _ _) (by simp), rfl⟩
  case refine_6 =>
    intro r i s hclear hi
    exact hclear.answered rfl ⟨nofun, nofun⟩ fun ps => if_pos hi
  case refine_7 =>
    intro r i s hclear hlow hhigh
    exact hclear.answered rfl ⟨nofun, nofun⟩ fun ps => (if_pos rfl).trans (if_pos ⟨hlow, hhigh⟩)
  case refine_8 =>
    intro r k n m s hclear hk hn
    refine hclear.served rfl ⟨nofun, nofun⟩ fun ps htake => ?_
    rw [htake]
    exact ⟨_, (if_neg (by omega)).trans (if_neg (by omega)), hclear.fwUp,
      configChanged_only _ (State.modSw_only _ (Only.refl _ _) (by simp)) (by simp), rfl⟩
  case refine_9 =>
    intro r id e x s hclear hx
    refine hclear.served rfl ⟨nofun, nofun⟩ fun ps htake => ?_
    rw [htake]
    exact ⟨_, opLearnAnswer_refused r e (s := s.withPairs ps) hx, hclear.fwUp, learnClose_only _ _ (Only.refl _ _) (by simp), rfl⟩
  case refine_10 =>
    intro r id i e x t s hclear hx hgood hage hadmit
    refine hclear.served rfl ⟨nofun, nofun⟩ fun ps htake => ?_
    rw [htake] at hadmit ⊢
    obtain ⟨u, hu, -⟩ := admitLearned_closes hadmit
    have honly := admitLearned_only hadmit
    refine ⟨_, opLearnAnswer_ok r (s := s.withPairs ps) hx hgood hage hadmit, ?_, configChanged_only _ (honly.mono (by simp)) (by simp), ?_⟩
    · exact (fwUp_of_only honly (by decide) hclear.fwUp :)
    · rw [hu]
      exact learnClose_closed x.key u
  case refine_11 =>
    intro r id x s hclear hx
    exact hclear.answered rfl ⟨nofun, nofun⟩ fun ps => opLearnRead_ok r (s := s.withPairs ps) hx
  case refine_12 =>
    intro r k ctl vlan pcp n s hclear hk hctl hvlan hn
    obtain ⟨k', hsrc, -⟩ := id hclear
    obtain ⟨ps, htake⟩ := take_of_host hsrc s
    refine ⟨(configChanged (portConfigured k ctl vlan pcp n (take r s))).portRegs k n, hclear.served rfl ⟨nofun, nofun⟩ fun ps' htake' => ?_⟩
    rw [← htake', htake]
    have hsetup := fun j => portConfigured_setup pcp hctl hvlan hn j (s.withPairs ps)
    have honly : Only [.ports, .sw, .insts, .cgu, .time, .bki, .evr, .mbx] (s.withPairs ps) (portConfigured k ctl vlan pcp n (s.withPairs ps)) :=
      writeMaxFrame_only _ _ _ (writePortPcpMap_only _ _ _ (writePortVlan_only _ _ _ (writePortCtl_only _ _ _ (Only.refl _ _) (by simp))
        (by simp)) (by simp)) (by simp)
    have hop := opPortConfig_ok r pcp (s := s.withPairs ps) hk hctl hvlan hn
    generalize portConfigured k ctl vlan pcp n (s.withPairs ps) = u at hop hsetup honly
    have hport : ∀ j, (configChanged u).port j = u.port j := fun _ => rfl
    have hown := hsetup k
    simp only [if_true, true_or] at hown
    refine ⟨_, hop, (fwUp_of_only honly (by decide) hclear.fwUp :), configChanged_only _ (honly.mono (by simp)) (by simp), rfl, ?_⟩
    simp only [hport]
    refine ⟨(congrArg Port.rate hown :), fun hk2 => ?_, (congrArg Port.txEn hown :), (congrArg Port.rxEn hown :), (congrArg Port.pvid hown :),
      (congrArg Port.maxFrame hown :), fun j hj => ?_⟩
    · exact (congrArg Port.rate (hsetup (1 - k)) :).trans (if_pos (.inr ⟨hk2, by omega⟩))
    · exact ⟨(congrArg Port.pvid (hsetup j) :).trans (if_neg hj), (congrArg Port.maxFrame (hsetup j) :).trans (if_neg hj),
        (congrArg Port.txEn (hsetup j) :).trans (if_neg hj)⟩
  case refine_13 =>
    intro r n s hclear hn
    obtain ⟨k', hsrc, -⟩ := id hclear
    obtain ⟨ps, htake⟩ := take_of_host hsrc s
    refine ⟨(coilCheck ((take r s).modHead fun h => { h with forced := n == 1 })).head.bypass,
      hclear.served rfl ⟨nofun, nofun⟩ fun ps' htake' => ?_⟩
    rw [← htake', htake]
    obtain ⟨hforced, hcoil, hoff⟩ := coilCheck_head ((s.withPairs ps).modHead fun h => { h with forced := n == 1 })
    have honly : Only [.ports, .head, .sw, .insts, .cgu, .time, .bki, .evr, .mbx] (s.withPairs ps)
        (coilCheck ((s.withPairs ps).modHead fun h => { h with forced := n == 1 })) :=
      coilCheck_only _ (State.modHead_only _ (Only.refl _ _) (by simp)) (by simp)
    exact ⟨_, opPortBypass_ok r (s.withPairs ps) hn, (fwUp_of_only honly (by decide) hclear.fwUp :), configChanged_only _ (honly.mono (by simp))
        (by simp),
      hforced, fun h => hoff (beq_iff_eq.mpr h), hcoil⟩
  case refine_14 =>
    intro r c s hclear hhold hidle hlen hage hfwd
    obtain ⟨k', hsrc, -⟩ := id hclear
    obtain ⟨ps, htake⟩ := take_of_host hsrc s
    refine ⟨(configChanged (writeSwitchCfg c (take r s))).switchRegs, hclear.served rfl ⟨nofun, nofun⟩ fun ps' htake' => ?_⟩
    rw [← htake', htake]
    have hop := opSwitchConfig_ok r (s.withPairs ps) hhold hidle hlen hage hfwd
    have hcalm := writeSwitchCfg_calm (s := s.withPairs ps) hhold hidle hage
    have honly : Only [.ports, .head, .sw, .insts, .cgu, .time, .bki, .evr, .mbx] (s.withPairs ps) (writeSwitchCfg c (s.withPairs ps)) :=
      writeSwitchCfg_only _ _ (Only.refl _ _) (by simp)
    generalize writeSwitchCfg c (s.withPairs ps) = u at hop hcalm honly
    have hcls : u.sw.clsAge = overwritten c.clsAge 0 s.sw.clsAge := (congrArg Switch.clsAge hcalm :)
    have hflood : u.sw.flood = overwritten (c.portFwd.map fun v => BitVec.ofNat 8 (bits v 7 0)) 0 s.sw.flood := (congrArg Switch.flood hcalm :)
    have hsw : (configChanged u).sw = u.sw := rfl
    refine ⟨_, hop, (fwUp_of_only honly (by decide) hclear.fwUp :), configChanged_only _ (honly.mono (by simp)) (by simp), ?_⟩
    rw [hsw]
    refine ⟨(congrArg Switch.hsrEn hcalm :), (congrArg Switch.fwdIdleS hcalm :), ?_, fun i hi h8 => ?_, fun i v hi hv => ?_,
      (congrArg Switch.batch hcalm :)⟩
    · rw [hcls]
      exact (congrArg Switch.holdoffMs hcalm :)
    · rw [hcls, overwritten_getElem?, if_pos (by omega), Nat.sub_zero]
    · have hlt : i < c.portFwd.length := (List.getElem?_eq_some_iff.mp hv).1
      rw [hflood, overwritten_getElem?, if_pos (by rw [List.length_map]; omega), Nat.sub_zero, List.getElem?_map, hv]
      rfl
  case refine_15 =>
    intro r n v s hclear hn hok hlen
    refine hclear.served rfl ⟨nofun, nofun⟩ fun ps htake => ?_
    have hop := opMirrorSession_ok r (s := s.withPairs ps) hn hok
    have hmir := mirWritten_committed (n := n) (v := v) (cs := s.sw.applying)
      (s := (s.withPairs ps).modSw fun w => { w with applying := w.applying ++ [mirChange n v] }) rfl hlen
    have honly : Only [.sw, .insts, .bki, .evr, .mbx, .mon] (s.withPairs ps)
        (applyOldest ((s.withPairs ps).modSw fun w => { w with applying := w.applying ++ [mirChange n v] })) :=
      applyOldest_only _ (State.modSw_only _ (Only.refl _ _) (by simp)) (by simp)
    generalize applyOldest ((s.withPairs ps).modSw fun w => { w with applying := w.applying ++ [mirChange n v] }) = u at hop hmir honly
    refine ⟨_, hop, (fwUp_of_only honly (by decide) hclear.fwUp :), mirWritten v, ?_, rfl, rfl, rfl, rfl⟩
    rw [committed_sw (s := u) (t := configChanged u) rfl]
    exact hmir
  case refine_16 =>
    intro r n v s hclear hn hok hidle hheld
    refine hclear.served rfl ⟨nofun, nofun⟩ fun ps htake => ?_
    have hop := opMirrorSession_ok r (s := s.withPairs ps) hn hok
    rw [mirWaits (s := s.withPairs ps) hidle hheld] at hop
    rw [htake]
    exact ⟨_, hop, hclear.fwUp, configChanged_only _ (State.modSw_only _ (Only.refl _ _) (by simp)) (by simp), rfl⟩
  case refine_17 =>
    intro r n v s hclear hn hok hidle hopen hheld
    refine hclear.served rfl ⟨nofun, nofun⟩ fun ps htake => ?_
    have hop := opMirrorSession_ok r (s := s.withPairs ps) hn hok
    obtain ⟨honly, hsw⟩ := mirApplied_sw (n := n) (v := v) (s := s.withPairs ps) hidle hopen
    rw [mirApplied (s := s.withPairs ps) hidle hopen hheld] at hop
    generalize refreshAllOver _ = u at hop honly hsw
    have hmir : (configChanged u).sw = { s.sw with mir := s.sw.mir.set n (mirWritten v) } := hsw
    rw [htake]
    refine ⟨_, hop, (fwUp_of_only honly (by decide) hclear.fwUp :), configChanged_only _ (honly.mono (by simp)) (by simp), ?_⟩
    rw [hmir]
    refine ⟨rfl, fun j hj => List.getElem?_set_ne (Ne.symm hj), fun x hx => ?_⟩
    exact ⟨mirWritten v, List.getElem?_set_self (List.getElem?_eq_some_iff.mp hx).1, rfl, rfl, rfl, rfl⟩
  case refine_18 =>
    intro r k a n b s hclear hk hn hb
    refine hclear.served rfl ⟨nofun, nofun⟩ fun ps htake => ?_
    rw [htake]
    exact ⟨_, opHostRxring_ok r a (s.withPairs ps) hk hn hb, hclear.fwUp, State.modMbx_only _ (Only.refl _ _) (by simp), rfl,
      Tbl.get_set_same .., fun j hj => Tbl.get_set_other _ _ _ hj⟩
  case refine_19 =>
    intro r p k s hclear hp hk
    refine hclear.served rfl ⟨nofun, nofun⟩ fun ps htake => ?_
    have hsnap : Only [.ports, .sw, .sce, .sched, .cgu, .ocu, .mlk, .time, .acq, .bki, .evr, .ksu, .mbx, .free] (s.withPairs ps)
        (snapshot p (s.withPairs ps)) := snapshot_only _ _ (Only.refl _ _) (by simp)
    have hgiven : Only [.mbx] (snapshot p (s.withPairs ps)) (totalsGiven p k (snapshot p (s.withPairs ps))) :=
      totalsGiven_only _ _ _ (Only.refl _ _) (by simp)
    have hlive : ∀ q, CntPage.live q (totalsGiven p k (snapshot p (s.withPairs ps))) = CntPage.live q (snapshot p (s.withPairs ps)) := fun q =>
      CntPage.live_of_only (hgiven.mono (by simp)) q
    have hall := hsnap.trans (hgiven.mono (by simp))
    rw [htake]
    refine ⟨_, opStats_ok r (s.withPairs ps) hp hk, fwUp_of_only hall (by decide) hclear.fwUp, hall.mono (by simp), ?_, fun q hq => ?_,
      fun n hn => totalsGiven_total p k _ hn⟩
    · rw [hlive, snapshot_live]
    · rw [hlive, (snapshot_other hq (s.withPairs ps)).1]
      exact CntPage.live_of_only ((State.withPairs_only s ps).mono (by simp)) q
  case refine_20 =>
    intro r g d cs s hclear hg hidle hb hbad hlen hcs hsubs hadmit
    have hst : (if d.pend && (s.group g).pend then Status.okReplaced else .ok) ≠ .restarted
        ∧ (if d.pend && (s.group g).pend then Status.okReplaced else .ok) ≠ .timeout := by
      split <;> exact ⟨nofun, nofun⟩
    refine hclear.served rfl hst fun ps htake => ?_
    rw [htake] at hadmit ⊢
    have hset := opGroupSet_ok r (s := s.withPairs ps) hg hidle hb (groupSet_ok (s := s.withPairs ps) hbad hlen hcs hsubs hadmit)
    have honly : Only [.sce, .insts, .mlk, .acq, .free] (s.withPairs ps) (writeGroup g d cs (s.withPairs ps)) :=
      writeGroup_only _ _ _ _ (Only.refl _ _) (by simp)
    obtain ⟨hother, hown⟩ := writeGroup_group g d cs (s.withPairs ps)
    have hctx := fun {k} {c : Ctx} (hc : cs[k]? = some c) => writeGroup_ctx (g := g) (d := d) (s.withPairs ps) hc
    have hctxs := fun {n} (hn : n < d.firstCtx ∨ d.firstCtx + cs.length ≤ n) => writeGroup_ctx_other (g := g) (d := d) (s.withPairs ps) hn
    generalize writeGroup g d cs (s.withPairs ps) = u at hset honly hother hown hctx hctxs
    obtain ⟨hgroup, hcontext⟩ := batchTold_groups g u
    refine ⟨_, hset, ?_, batchUsed_only _ _ ((honly.mono (by simp)).trans ((told_only_rest u).mono (by simp))) (by simp), ?_⟩
    · exact (told_fwUp u).trans (fwUp_of_only honly (by decide) hclear.fwUp)
    · rw [hgroup, hcontext]
      refine ⟨fun j hj => hother j hj, (congrArg Group.entry hown :), (congrArg Group.en hown :), (congrArg Group.nch hown :),
        (congrArg Group.firstCtx hown :), (congrArg Group.rate hown :), (congrArg Group.pend hown :), (congrArg Group.pendPreset hown :),
        (congrArg Group.preset hown :), fun hen => ?_, fun k c hc => ?_, fun n hn => hctxs (by omega)⟩
      · have hstate := congrArg Group.state hown
        exact hstate.trans (if_neg (by simp [hen]))
      · obtain ⟨base, hbase⟩ := hctx hc
        rw [hbase]
        exact ⟨rfl, rfl, rfl, rfl, rfl, rfl⟩
  case refine_21 =>
    intro r g s hclear hg
    exact hclear.answered rfl ⟨nofun, nofun⟩ fun ps => if_neg (by omega)
  case refine_22 =>
    intro r g p t s hclear hg hp htaps ht hadmit
    have hst : (if (s.group g).pend then Status.okReplaced else .ok) ≠ .restarted
        ∧ (if (s.group g).pend then Status.okReplaced else .ok) ≠ .timeout := by
      split <;> exact ⟨nofun, nofun⟩
    refine hclear.served rfl hst fun ps htake => ?_
    rw [htake] at ht hadmit ⊢
    subst ht
    refine ⟨_, opPresetChange_ok r (s := s.withPairs ps) hg hp htaps hadmit, hclear.fwUp,
      configChanged_only _ (State.setGroup_only _ g _ (Only.refl _ _) (by simp)) (by simp), ?_, fun j hj => ?_, rfl⟩
    · exact State.group_setGroup_same (s.withPairs ps) g fun x => { x with pendPreset := p, pend := true }
    · exact State.group_setGroup_other (s.withPairs ps) (fun x => { x with pendPreset := p, pend := true }) hj
  case refine_23 =>
    intro r p s hclear hp
    exact hclear.answered rfl ⟨nofun, nofun⟩ fun ps => if_neg (by omega)
  case refine_24 =>
    intro r g n s hclear hg hn
    refine hclear.served rfl ⟨nofun, nofun⟩ fun ps htake => ?_
    rw [htake]
    refine ⟨_, opSubscribe_none r (s.withPairs ps) hg hn, (told_fwUp _).trans hclear.fwUp,
      (State.setGroup_only (qs := [.sce]) _ g _ (Only.refl _ _) (by simp)).mono (by simp) |>.trans ((told_only_rest _).mono (by simp)), ?_⟩
    exact told_subs (s.withPairs ps) g fun x => x.putSub n {}
  case refine_25 =>
    intro r g n i gn q t s hclear hg hn hnames hq hring ht hadmit
    refine hclear.served rfl ⟨nofun, nofun⟩ fun ps htake => ?_
    rw [htake] at ht hadmit ⊢
    subst ht
    refine ⟨_, opSubscribe_some r (s := s.withPairs ps) hg hn hnames hq hring hadmit, (told_fwUp _).trans hclear.fwUp,
      (State.setGroup_only (qs := [.sce]) _ g _ (Only.refl _ _) (by simp)).mono (by simp) |>.trans ((told_only_rest _).mono (by simp)), ?_⟩
    exact told_subs (s.withPairs ps) g fun x => x.putSub n (subEntry i gn q x.nch (s.withPairs ps))
  case refine_26 =>
    intro r i q a n w s hclear hi hopen hq hsize hw hfree
    refine hclear.served rfl ⟨nofun, nofun⟩ fun ps htake => ?_
    have hop := opRingRegister_ok (Req.i_of_inst hi) (s := s.withPairs ps) hopen hq hsize hw hfree
    obtain ⟨gs, hsce⟩ := ringPut_sce (s.withPairs ps) i q a n w
    have honly := ringPut_only (s.withPairs ps) i q a n w
    generalize (if q = 4 then (s.withPairs ps).ringPut i q a n w else revalidate i q ((s.withPairs ps).ringPut i q a n w)) = u at hop hsce honly
    have hrings : u.sce.rings = s.sce.rings.set (5 * i + q) (ringAt q a n w) := (congrArg Sce.rings hsce :)
    rw [htake]
    refine ⟨u, hop, fwUp_of_only honly (by decide) hclear.fwUp, honly, ring_set hrings, fun j hj => ?_, (congrArg Sce.ctxs hsce :)⟩
    rw [hrings, Tbl.get_set_other _ _ _ hj]
  case refine_27 =>
    intro r v s hclear
    refine hclear.served rfl ⟨nofun, nofun⟩ fun ps htake => ?_
    rw [htake]
    exact ⟨_, rfl, hclear.fwUp, configChanged_only _ (writeSceCtl_only _ _ (Only.refl _ _) (by simp)) (by simp), rfl⟩

end Sys2Proof.Machine
end
